-- ==== Sys2Proof/Word.lean ====
section
/-!
DEFINITION. The word types of the block: a register word is 32 bits (R33), a byte of memory is 8.
-/

namespace Sys2Proof

/-- One register of the management map (R33). -/
abbrev Word := BitVec 32

/-- One byte of package memory, of MRAM or of a frame. -/
abbrev Byte := BitVec 8

end Sys2Proof
end

