-- ==== Sys2Proof/Machine/SMap.lean ====
section
/-!
DEFINITION. Sparse tables as plain data: a list of key and value pairs in one canonical form (keys strictly rising, no
entry equal to what an unlisted key reads as), used for registers, package memory and every table of the block.
-/

namespace Sys2Proof.Machine

/-- A sparse table from numbers to values. -/
abbrev SMap (α : Type) := List (Nat × α)

/-- The value listed for a key, if any. -/
def smFind {α : Type} : SMap α → Nat → Option α
  | [], _ => none
  | (k, v) :: rest, key => if k = key then some v else smFind rest key

/-- The value of a key; an unlisted key reads as the default gives. -/
def smGet {α : Type} (dflt : Nat → α) (m : SMap α) (key : Nat) : α :=
  match smFind m key with
  | some v => v
  | none => dflt key

/-- Lists a value at its place among rising keys, in the stead of the one listed. -/
def smPut {α : Type} : SMap α → Nat → α → SMap α
  | [], key, v => [(key, v)]
  | (k, w) :: rest, key, v =>
    if key < k then (key, v) :: (k, w) :: rest
    else if key = k then (key, v) :: rest
    else (k, w) :: smPut rest key v

/-- Takes a key out of the list. -/
def smErase {α : Type} : SMap α → Nat → SMap α
  | [], _ => []
  | (k, w) :: rest, key => if k = key then smErase rest key else (k, w) :: smErase rest key

/-- Gives a key a value, keeping the canonical form: a default value is not listed. -/
def smSet {α : Type} [DecidableEq α] (dflt : Nat → α) (m : SMap α) (key : Nat) (v : α) : SMap α :=
  if v = dflt key then smErase m key else smPut m key v

/-- The canonical form: keys strictly rise and no entry equals what its key reads as unlisted. -/
abbrev smWf {α : Type} (dflt : Nat → α) (m : SMap α) : Prop :=
  m.Pairwise (fun a b => a.1 < b.1) ∧ ∀ e ∈ m, e.2 ≠ dflt e.1

end Sys2Proof.Machine
end

