-- ==== Sys2Proof/Machine/TypesCore.lean ====
section
/-!
DEFINITION. The state of the management core that is not a page register: paths, held writes, Edurn, start-up, OTP,
trouble log, check-value jobs, feeds, power domains, time and horizons, and the output trace.
-/

namespace Sys2Proof.Machine

/-- The management paths (R32, R49). -/
inductive Path where
  | inBand | fabric | mailbox | i3c
deriving DecidableEq, Repr

/-- What kind of thing an entry of the output trace is; each line says what its numbers are. -/
inductive Chan where
  /-- A register read answered: path, address, value (R33, R42). -/
  | readData
  /-- A message on the management function's event vector: code, page address (R38). -/
  | event
  /-- An I3C in-band interrupt (R38, R55). -/
  | ibi
  /-- An Edurn response: path, tag, opcode, status; the bytes are the payload after STATUS (R54). -/
  | edurn
  /-- A management request on VC0: member, address, 1 for a write, value, request number (R52). -/
  | mgmtReq
  /-- A management response on VC0: request number, 1 for an error, value (R52). -/
  | mgmtResp
  /-- A roll-call message: port, serial, anchor priority, preferred ID, its anchor's and its own composite ID, 64 for none (R87). -/
  | rollCall
  /-- The memory path serves a request: its rank, its user, what it is for (R19). -/
  | memory
  /-- A HEARTBEAT to the standby anchor: anchor ID, standby ID, epoch, serial; a fifth field 1 hands the role over (R416). -/
  | heartbeat
  /-- What a lane sends outside traffic: lane, 0 idle, 1 PRBS31 and markers, 2 a test pattern, 3 one error bit,
  4 an EXP or ETH training sequence; lane 255, 5 the FIR taps of all SFL and ETH lanes held at half magnitude or no longer (R481). -/
  | laneTx
  /-- A lane marker: lane, logical position, state (R103). -/
  | marker
  /-- A link flit: port, TYPE, then its fields (R128); the bytes are the flit's 64. -/
  | linkFlit
  /-- A data flit: port, virtual lane, SEQ, HEAD, TAIL, POISON, 1 if resent; the bytes are the flit's 64 (R125). -/
  | dataFlit
  /-- A lane's codeword is complete: lane, CW_CNT; the bytes are its 5,440 bits (R120). -/
  | codeword
  /-- PAM6 symbols of a lane, each pair a before b: lane, symbols (R122). -/
  | pam6
  /-- A packet leaving by an Ethernet or EXP port: port, queue, packet number, bytes, 1 if ended in error. -/
  | packet
  /-- A packet on the wire of an Ethernet or EXP port ends in error: port, packet number, 0 its FCS inverted, the bytes those sent, 1 nullified
  (R179). -/
  | frameEnd
  /-- A PFC frame: port, priority, quanta (R149). -/
  | pfc
  /-- Electrical idle or the wake pattern on a port: port, 0 idle, 1 wake, 2 transmitters stopped (R143, R145, R526). -/
  | portTx
  /-- An SFT packet handed to the network: engine, destination LID, TC, VC, ECT; the bytes run from its BTH to its ECRC (R258). -/
  | sft
  /-- A TLP or CXL message: port or 256 + VH of a function, kind, then its fields; the bytes are the payload. -/
  | tlp
  /-- A write into host memory: VH, PASID (2^20 none), address, 0, length, RO, 1 if translated; the bytes are the data (R430). -/
  | hostWrite
  /-- A read request to host memory: VH, PASID, address, tag, length, RO, 1 if translated (R430). -/
  | hostRead
  /-- A PCIe AtomicOp to host memory, fields as of a read; the bytes are its operands (R282). -/
  | hostAtomic
  /-- A completion queue entry written to host memory, the object its CQN (R266). -/
  | cqe
  /-- An entry of a slice event ring written to host memory, the object its slice (R267). -/
  | ringEntry
  /-- An MSI-X message: VH, vector (R445). -/
  | msix
  /-- An SPDM response: endpoint, response code, parameters; the bytes are the body (R511). -/
  | spdm
  /-- An MCTP control response: endpoint, command, completion code, then its fields (R512). -/
  | mctp
  /-- A DOE data object: VH or 256 for the management function, then its fields (R425). -/
  | doe
  /-- A pin or driven wire: kind, index, level. Kinds: 0 a slot wire, index 8 * slot + wire (0 PERST_N, 1 WAKE_N, 2 PRSNT_N,
  3 CLKREQ_N, 4 ALERT_N); 1 a host wire, index 8 * host group + wire; 2 FT_PPS_OUT; 7 a reference clock; 8 PG_OUT; 9 the VIO-level balls, 0 high-impedance (R550); 10, no pin: the
  engine clocks of D40 to D63, 1 halved (R481, R556). FT_PPS_OUT rising has a fourth number: the ms it stays high. -/
  | pin
  /-- A rail request over PLINK: domain, target (R486). -/
  | plink
  /-- A feed path switch: path, 0 open, 1 closed under INRUSH_A, 2 closed under OC_A (R477, R478). -/
  | path
  /-- A composite stream packet: member, virtual hierarchy, kind, sequence number, then its fields (R413). -/
  | comp
  /-- A collective packet: port, DLID, TC, TYPE, then TRY, LAST, ERR, EMPTY, COP, OPER, DTYPE, EXACT, DGRP, SEQ, COUNT, BLOCK and
  ERRCODE; the bytes are its payload (R373). -/
  | coll
  /-- A strait message: strait, 2 descriptor, 3 acknowledgement, 4 cell data, then its fields; the bytes are a descriptor's 12; of cell data the
  island, 1 for a write, segment and cell, bank and row of quarter 0 (R157, R168). -/
  | strait
  /-- Board or slot state told outside: kind, slot, value (R411). -/
  | slot
deriving DecidableEq, Repr

/-- One entry of the output trace: what the block sent, drove or answered (the model's own field, log entry 2). -/
structure Emission where
  chan : Chan
  fields : List Nat
  bytes : List Byte
deriving DecidableEq, Repr

/-- An event in the Edurn EVENTS queue (R38, R55). -/
structure EventRec where
  code : Nat
  addr : Nat
deriving DecidableEq, Repr

/-- A write held for a domain that is not ON (R43). -/
structure HeldWrite where
  dom : Nat
  addr : Nat
  val : Word
  bcast : Bool
  /-- A held horizon action in the stead of a write: its ACTION, the value its argument (R465). -/
  act : Option Nat
deriving DecidableEq, Repr

/-- An access to another member that waits for its response (R52, R55). -/
structure RemoteAcc where
  id : Nat
  path : Path
  member : Nat
  addr : Nat
  count : Nat
  isWrite : Bool
  edurn : Bool
  tag : Nat
deriving DecidableEq, Repr

/-- An Edurn response that waits for an I3C private read (R55). -/
structure EdurnResp where
  tag : Nat
  opc : Nat
  status : Nat
  payload : List Byte
  /-- What its end starts: 1 a warm reset, 2 that of a lifecycle transition, 0 nothing (R73, R518). -/
  after : Nat
deriving DecidableEq, Repr

/-- Management paths, held writes, commits in progress and the management processor (ch. 02, R527). -/
structure Mgmt where
  /-- Held-write queues of every domain in one list, in acceptance order (R43). -/
  held : List HeldWrite
  /-- Latched high words, by path and address (R33). -/
  hiLatch : SMap Word
  /-- I3C dynamic address (R53). -/
  dynAddr : Option Nat
  /-- An in-band interrupt waits to be sent (R38). -/
  ibiHeld : Bool
  /-- The EVENTS queue, oldest first (R55). -/
  events : List EventRec
  /-- Edurn commands in progress: path, tag, opcode (R55). -/
  running : List (Path × Nat × Nat)
  /-- The responses waiting on I3C, oldest first (R55). -/
  ready : List EdurnResp
  /-- Pages whose commit has passed its check and awaits its boundary: type, page (R44). -/
  commits : List (Nat × Nat)
  /-- Addresses of the staged words written since the page's last commit or DISCARD (R201). -/
  touched : List Nat
  /-- Pages in soft reset: type, page (R47). -/
  resets : List (Nat × Nat)
  /-- Accesses to other members in flight (R52). -/
  remotes : List RemoteAcc
  /-- Number of the next remote request. -/
  nextReq : Nat
  /-- Local times of management processor restarts (R527). -/
  mpRestarts : List Nat
  /-- After four restarts within 10 s only I3C IDENTIFY, EVENTS and LOG_READ are served (R527). -/
  mpHalted : Bool
  /-- GO was written and the mailbox command has not been taken up (R57). -/
  mbxGo : Bool
  /-- How many writes and commits were refused; the model's own count, by which a write of several parts knows that one was (R13). -/
  refused : Nat
deriving DecidableEq, Repr

/-- An open import or a held export snapshot, firmware banks, board table copies and image slots (R60, R82, R83). -/
structure Boot where
  /-- Firmware banks A and B (R60); an unlisted byte is 0. -/
  bankA : SMap Byte
  bankB : SMap Byte
  /-- Offsets of words of a bank that read with an uncorrectable error (R504 item 1). -/
  badA : List Nat
  badB : List Nat
  /-- Copies that read with an uncorrectable error, so that their CRC fails (R522): 0 primary and 1 secondary board table copy, 2 and 3 image
  slots 0 and 1. -/
  badCopies : List Nat
  /-- Preferred bank recorded in MRAM: 0 A, 1 B (R65). -/
  pref : Nat
  /-- Board table, primary and secondary copy (R60). -/
  tblPri : SMap Byte
  tblSec : SMap Byte
  /-- The board table copy in use, none on defaults (R69). -/
  tblUse : Option (SMap Byte)
  /-- Image slots 0 and 1, their valid marks and the active slot (R60, R84). -/
  slot0 : SMap Byte
  slot1 : SMap Byte
  valid0 : Bool
  valid1 : Bool
  active : Option Nat
  /-- Chunk indices received in the open import (R83). -/
  chunks : List Nat
  /-- The export snapshot held (R82). -/
  snapshot : Option (List Byte)
  /-- Words as the board table and the applied image loaded them, for resets that load them again (R11). -/
  loaded : SMap Word
  /-- The image applied at start-up (R513). -/
  applied : Option (List Byte)
  /-- A start-up is running: 0 none, 1 cold, 2 cold with AON held, 3 warm, 4 warm of a lifecycle transition. -/
  running : Nat
  /-- A warm reset waits for a thermal fault to cool (R557). -/
  deferred : Bool
  /-- The boot ROM runs a bank; none is run in RECOVERY (R65, R66). -/
  bankUp : Bool
  /-- T0 of the start-up, in local time (R61, R73). -/
  t0 : Nat
  /-- When the memory wipe began, in local time (R78). -/
  wipeStart : Nat
  /-- The device fault in force: 0 none, 1 loss of the main clock, 2 loss of harbour control, 3 thermal (R526, R556). -/
  fault : Nat
deriving DecidableEq, Repr

/-- One-time-programmable storage (R501). -/
structure Otp where
  serial : Nat
  /-- States of the valid LC_REC entries, in order. -/
  lcRec : List Nat
  fwRb : Nat
  keyRb : Nat
  fwKeys : List (List Byte)
  rootHash : List Byte
  identSeed : List Byte
  certs : List Byte
  /-- OWNER slots written: key, bound, revoked. -/
  owners : List (List Byte × Bool × Bool)
deriving DecidableEq, Repr

/-- The security engine: nonce, staging owner, SPDM and MCTP endpoints (R506, R511, R512, R516). -/
structure Sec where
  nonce : Option (List Byte)
  owner : Option Path
  stageChunks : List Nat
  /-- Negotiated SPDM state of an endpoint: 0 none, 1 version, 2 capabilities, 3 algorithms. -/
  spdm : SMap Nat
  /-- MCTP endpoint identifiers assigned. -/
  eids : SMap Nat
deriving DecidableEq, Repr

/-- An entry of the trouble log (R530). -/
structure LogEntry where
  ftime : Nat
  ltime : Nat
  code : Nat
  tsLocal : Bool
  injected : Bool
  corrupt : Bool
  warm : Bool
  cfg : Bool
  inst : Nat
  seq : Nat
  suppressed : Nat
  detail0 : Word
  detail1 : Word
deriving DecidableEq, Repr

/-- When an entry of a code and page was last written, and what was withheld since (R529). -/
structure HoldOff where
  last : Nat
  seen : Bool
  withheld : Nat
deriving DecidableEq, Repr

/-- One period of an island's aging history (R532). -/
structure AgePeriod where
  roPpm : Nat
  margin : Nat
deriving DecidableEq, Repr

/-- The aging monitor of one island (R532). -/
structure AgeIsland where
  roPpm : Nat
  margin : Nat
  samples : List AgePeriod
  history : List AgePeriod
deriving DecidableEq, Repr

/-- The trouble log and the aging monitors (R529 to R533). -/
structure Log where
  /-- Entries held, oldest first, at most 4,096. -/
  entries : List LogEntry
  holdOffs : SMap HoldOff
  /-- LOG_STOPPED was raised since the log last had room (R529). -/
  stopRaised : Bool
  aging : SMap AgeIsland
  /-- AGING_WARN, and per island MARGIN_WARN, was raised since the last reset (R533). -/
  ageRaised : Bool
  marginRaised : Nat
deriving DecidableEq, Repr

/-- A check-value job beside its registers (R534 to R537). -/
structure ChkJob where
  /-- The alive counter of the record compared last. -/
  last : Option Nat
  /-- Records or reads compared so far. -/
  count : Nat
deriving DecidableEq, Repr

/-- Feeds, eFuse paths and the bank (R474 to R485). -/
structure Feeds where
  presentA : Bool
  presentB : Bool
  /-- Every internal rail is in service (R476, R483). -/
  rails : Bool
  /-- AON holds power (R475, R485). -/
  aon : Bool
  /-- AON is in hold-up since this local time (R485). -/
  holdSince : Option Nat
  /-- Attempts of R479 by path: `some none` its next closing is one, `some (some t)` it closed for one at local time t. -/
  attemptA : Option (Option Nat)
  attemptB : Option (Option Nat)
  /-- When a path tripped last, in local time: RETRY_PERIOD_MS runs from there (R479). -/
  tripA : Nat
  tripB : Nat
  /-- Consecutive failed attempts (R479). -/
  failsA : Nat
  failsB : Nat
  /-- The active feed has fallen below SW_LEVEL and is not good again (R476). -/
  low : Bool
  /-- A dip in progress: its beginning (R481). -/
  dip : Option Nat
  /-- Beginnings of the dips of the last 10 s, newest first (R482). -/
  dipStarts : List Nat
  lastEscalate : Option Nat
  /-- The dip throttle and the thermal throttle (R481, R556). -/
  throttleDip : Bool
  throttleHot : Bool
  /-- Start of the thermal throttle in local time. -/
  throttleSince : Nat
  /-- SUPPLY_LOST is to be raised at READY (R483). -/
  lost : Bool
deriving DecidableEq, Repr

/-- A domain transition in progress (R486, R491). -/
structure DomTr where
  dom : Nat
  target : Nat
  /-- The state before the transition. -/
  prior : Nat
  /-- Timeouts of its rail request so far (R486). -/
  timeouts : Nat
  /-- PC0 has acknowledged the rail request. -/
  acked : Bool
  /-- The block still drains before the rail request (R491). -/
  draining : Bool
deriving DecidableEq, Repr

/-- Power domains beside their registers (R486, R492). -/
structure Power where
  trs : List DomTr
  /-- Consecutive transitions aborted on PLINK (R486). -/
  plinkAborts : Nat
  /-- Local time at which a domain entered its state, for RET_MS and OFF_MS (R497). -/
  since : SMap Nat
deriving DecidableEq, Repr

/-- A grandmaster record heard on a port (R454, R456). -/
structure GmRec where
  id : Nat
  prio : Nat
  cls : Nat
  round : Nat
  depth : Nat
  fresh : Bool
  tai : Nat
deriving DecidableEq, Repr

/-- A TIME link flit (R456); times are fabric time in 1/65536 ns. -/
structure TimeFlit where
  tseq : Nat
  rxSeq : Nat
  flags : Nat
  depth : Nat
  txPrev : Nat
  rxTime : Nat
  gmId : Nat
  gmPrio : Nat
  gmRound : Nat
  taiUtc : Nat
deriving DecidableEq, Repr

/-- The time service of one port (R456 to R458). -/
structure TimePort where
  /-- TSEQ of the next flit sent, and when the last was sent (1/65536 ns). -/
  txSeq : Nat
  txTime : Option Nat
  /-- TSEQ of the last flit received and when it arrived; 256 none. -/
  rxSeq : Nat
  rxTime : Nat
  /-- The exchange waiting for the partner's TX_PREV: t1, t2, t4 (R458). -/
  open1 : Option (Nat × Nat × Nat)
  /-- The last delay samples, newest first, at most 16, in 1/65536 ns. -/
  delays : List Int
deriving DecidableEq, Repr

/-- An entry of the horizon table (R464). -/
structure HznEntry where
  armed : Bool
  axis : Nat
  action : Nat
  skipLate : Bool
  result : Nat
  fires : Nat
  moment : Nat
  period : Nat
  ttype : Nat
  tinst : Nat
  targ : Nat
  lastFire : Nat
deriving DecidableEq, Repr

/-- Fabric time, the time tree and the horizon table (ch. 15). -/
structure TimeHzn where
  /-- Local time in ns (R452). -/
  localNs : Nat
  /-- Fabric time in 1/65536 ns, 80 bits (R451). -/
  fabric : Nat
  gmRecs : SMap (Option GmRec)
  ports : SMap (Option TimePort)
  /-- Consecutive exchanges below 4 ns and above 20 ns (R460). -/
  okRun : Nat
  badRun : Nat
  /-- CLASS of the own record: FT_PPS_IN has pulsed within 2 s (R454). -/
  ppsSeen : Bool
  /-- SET waits for the next FT_PPS_IN edge (R462). -/
  setArmed : Bool
  hzn : SMap HznEntry
deriving DecidableEq, Repr

/-- What a DX7 says of itself in composite enumeration: serial, anchor priority, preferred ID, and the composite IDs of its current anchor
and of its own, if it holds them (R87). -/
structure RollRec where
  serial : Nat
  prio : Nat
  pref : Option Nat
  anchor : Option Nat
  curId : Option Nat
deriving DecidableEq, Repr

/-- Composite enumeration and the anchor role (R87, R88, R416). -/
structure Composite where
  heard : List RollRec
  /-- Composite IDs as assigned: serial, ID. -/
  ids : List (Nat × Nat)
  prefId : Option Nat
  /-- The ID held before a warm reset, which the device offers as its preferred ID (R87). -/
  rejoin : Option Nat
  /-- The own role: 0 none, 1 member, 2 standby anchor, 3 anchor. -/
  role : Nat
  anchorId : Option Nat
  standbyId : Option Nat
  /-- This device was refused as the 65th member (R88). -/
  standalone : Bool
  /-- Port-map and peer-window entries of the image that wait for a member to join: table, entry, words (R566). -/
  waiting : List (Nat × Nat × List Nat)
  /-- Local time of the last HEARTBEAT taken as standby anchor (R416). -/
  hbAt : Option Nat
deriving DecidableEq, Repr

/-- Sensors (R498, R556): ten readings in 0.1 degrees; whether one was taken since the last cold reset (R562); VIO in mV as last sensed
(R550); and the levels of the sideband wires, bit s per slot and bit h per host group, PERST_N, WAKE_N, PRSNT_N, CLKREQ_N, ALERT_N
(R323, R324). -/
structure Sensors where
  temps : List Int
  sampled : Bool
  vio : Nat
  slotLvl : List Nat
  hostLvl : List Nat
deriving DecidableEq, Repr

end Sys2Proof.Machine
end

