-- ==== Sys2Proof/Machine/TypesEng.lean ====
section
/-!
DEFINITION. The state of the transport engines, remote memory, the load/store bridge, message matching, network functions and
slices that is not a page register (ch. 09, 10, 11, 14), and the packets that commands carry to them.
-/

namespace Sys2Proof.Machine

/-- A request packet of SFT as a transport engine takes it (R219, R257 to R261, R338). -/
structure SftPkt where
  /-- DEL_VH of the DELIVER entry, source LID, CE of the network header, ECRC passes. -/
  vh : Nat
  slid : Nat
  ce : Bool
  ecrcOk : Bool
  /-- The translation of its key is held in the translation cache (R306). -/
  xlt : Bool
  opc : Nat
  ackReq : Bool
  sol : Bool
  sync : Bool
  dqpn : Nat
  sqpn : Nat
  psn : Nat
  pepoch : Nat
  ekey : Nat
  /-- RETH or ATH: address, key, DMALEN; OP1 and OP2. -/
  vaddr : Nat
  rkey : Nat
  dmalen : Nat
  op1 : Nat
  op2 : Nat
  imm : Nat
  nvalue : Nat
  /-- Match header: CTXID, SRC_RANK, TAG, MLEN, RNDV. -/
  ctxid : Nat
  rank : Nat
  tag : Nat
  mlen : Nat
  rndv : Bool
  payload : List Byte
deriving DecidableEq, Repr

/-- An acknowledgement, read response or atomic response as an engine takes it (R259 to R262). -/
structure SftResp where
  vh : Nat
  slid : Nat
  ecrcOk : Bool
  ece : Bool
  opc : Nat
  dqpn : Nat
  sqpn : Nat
  psn : Nat
  ekey : Nat
  synd : Nat
  msn : Nat
  rnrUs : Nat
  arh : Nat
  payload : List Byte
deriving DecidableEq, Repr

/-- A receive entry posted on an RQ (R265). -/
structure RqEntry where
  wrId : Nat
  addr : Nat
  lkey : Nat
  len : Nat
deriving DecidableEq, Repr

/-- Whose a started request is: an SQ's, a bridge write of a window (with its cells), a bridge read or AtomicOp by tag, a prefetched
block, the rendezvous reads of a match slot, or a finish (R265, R311, R312, R314, R315, R349). -/
inductive WKind where
  | sq
  | brgWrite (win cells : Nat)
  | brgRead (id : Nat)
  | prefetch (block : Nat)
  | rndvRead (quad slot : Nat)
  | finish
deriving DecidableEq, Repr

/-- A request started by a requester and not complete (R265, R270, R271). -/
structure Wqe where
  id : Nat
  kind : WKind
  /-- Index in the SQ. -/
  idx : Nat
  wop : Nat
  signaled : Bool
  sol : Bool
  ro : Bool
  len : Nat
  wrId : Nat
  laddr : Nat
  lkey : Nat
  imm : Nat
  raddr : Nat
  rkey : Nat
  op1 : Nat
  op2 : Nat
  /-- Match key (R337) and rendezvous: 0 eager or no match, 1 awaits its finish, 2 finished, 3 discarded (R339, R340). -/
  ctxid : Nat
  rank : Nat
  tag : Nat
  rndv : Nat
  /-- Connection: 0 RC, else the peer's key (R285). -/
  conn : Nat
  /-- Source data as read so far; all of it is there. -/
  buf : List Byte
  ready : Bool
  /-- Bytes put into packets or asked for; every packet has been sent once; at least one has. -/
  off : Nat
  allSent : Bool
  begun : Bool
  /-- Status of R268 it ends with. -/
  status : Nat
deriving DecidableEq, Repr

/-- A request packet sent and not acknowledged (R270, R272). -/
structure TxPkt where
  psn : Nat
  /-- PSNs it consumes. -/
  n : Nat
  wqe : Nat
  opc : Nat
  ackReq : Bool
  sol : Bool
  /-- Extension headers and payload. -/
  bytes : List Byte
  /-- Read or atomic: offset of its first byte in the local buffer, bytes asked for, response indices taken (R277). -/
  isRead : Bool
  off : Nat
  len : Nat
  got : List Nat
deriving DecidableEq, Repr

/-- A message being received on a connection: 0 none, 1 SEND into a receive entry, 2 WRITE, 3 matched, 4 unexpected, 5 discarded. -/
structure Inbound where
  kind : Nat
  entry : RqEntry
  /-- Bytes received. -/
  got : Nat
  vaddr : Nat
  rkey : Nat
  total : Nat
  ctxid : Nat
  rank : Nat
  tag : Nat
  /-- Match quadrant, and its context (3) or unexpected entry (4). -/
  quad : Nat
  ux : Nat
deriving DecidableEq, Repr

/-- No message in progress. -/
def Inbound.none : Inbound := ⟨0, ⟨0, 0, 0, 0⟩, 0, 0, 0, 0, 0, 0, 0, 0, 0⟩

/-- One side-to-side sequence: an RC context's own, or that of an RD peer record (R270 to R280, R285, R286). -/
structure Conn where
  /-- Remote LID and QPN of a peer; the record's place in the peer table. -/
  lid : Nat
  qpn : Nat
  slot : Nat
  snd : Nat
  una : Nat
  retry : Nat
  rnr : Nat
  epsn : Nat
  nakSent : Bool
  msn : Nat
  out : List TxPkt
  /-- A resend pass: the PSN it began from, the next PSN to resend (R272, R273). -/
  pass : Option (Nat × Nat)
  /-- Sending is stopped by an RNR_NAK: the PSN to resend from (R274). -/
  rnrWait : Option Nat
  /-- Packets accepted since the last ACK; an ACK is due within ACK_NS (R279). -/
  accepted : Nat
  ackDue : Bool
  /-- ECE goes with the next VC2 packet (R284). -/
  ece : Bool
  sentCnt : Nat
  inn : Inbound
  epochTx : Nat
  epochRx : Nat
  /-- The receiver has taken an epoch; the sender's SYNC is acknowledged. -/
  heard : Bool
  synced : Bool
  lastUse : Nat
deriving DecidableEq, Repr

/-- A connection at PSN 0. -/
def Conn.init : Conn :=
  { lid := 0, qpn := 0, slot := 0, snd := 0, una := 0, retry := 0, rnr := 0, epsn := 0, nakSent := false, msn := 0,
    out := [], pass := none, rnrWait := none, accepted := 0, ackDue := false, ece := false, sentCnt := 0,
    inn := Inbound.none, epochTx := 0, epochRx := 0, heard := false, synced := false, lastUse := 0 }

/-- An entry of the response record (R278). -/
structure RecEntry where
  psn : Nat
  opc : Nat
  rkey : Nat
  vaddr : Nat
  /-- Value before an atomic, or DMALEN of a read. -/
  result : Nat
deriving DecidableEq, Repr

/-- What a responder waits for before it goes on with later requests of a QP (R277, R281, R348). -/
inductive Busy where
  /-- A host read for a READ_REQ, new or again from the record: first PSN and DMALEN. -/
  | read (key : Nat) (pkt : SftPkt)
  /-- A host read-modify-write, or an AtomicOp. -/
  | atomic (key : Nat) (aop : Bool) (pkt : SftPkt)
  /-- The host read-modify-write of another QP on the same 16 bytes (R282). -/
  | atomicHeld (pkt : SftPkt)
  /-- A match decision in an overflow list. -/
  | matching (key : Nat) (pkt : SftPkt)
deriving DecidableEq, Repr

/-- A queue pair: the context of R287 and its private state. -/
structure Qp where
  state : Nat
  rd : Bool
  perm : Nat
  slice : Nat
  dqpn : Nat
  dlid : Nat
  tc : Nat
  mtu : Nat
  rto : Nat
  retryMax : Nat
  rnrMax : Nat
  rnrTmr : Nat
  ordMax : Nat
  sqBase : Nat
  sqPi : Nat
  sqCi : Nat
  sqLog : Nat
  rqLog : Nat
  rqBase : Nat
  rqPi : Nat
  rqCi : Nat
  scqn : Nat
  rcqn : Nat
  outMax : Nat
  rate : Nat
  portRate : Nat
  /-- The time in ps until which the packets sent fill RATE_CUR (R284). -/
  paceAt : Nat
  lastCut : Option Nat
  ekey : Nat
  peerBase : Nat
  peerLog : Nat
  /-- RC sequence under key 0, peers under 1 + LID * 2^24 + QPN. -/
  conns : SMap (Option Conn)
  /-- SQ slots posted and not started, oldest first; receive entries posted (R265). -/
  sq : List (List Byte)
  rq : List RqEntry
  started : List Wqe
  nextWqe : Nat
  /-- The response record, newest first, at most 16, and the place of its next entry in the ring of the backing store (R278). -/
  rec_ : List RecEntry
  recPos : Nat
  busy : Option Busy
  /-- Request packets that wait for `busy`, oldest first. -/
  held : List SftPkt
  /-- PEER_LIMIT was raised for the WQE that waits (R286); SQ_DRAINED was raised for this DRAIN (R269). -/
  peerRaised : Bool
  drained : Bool
  /-- EPOCH_TX of the records of the peer table by slot, as the last record there left it (R286). -/
  epochs : SMap Nat
deriving DecidableEq, Repr

/-- A QP as CREATE makes it. -/
def Qp.init (slice : Nat) (rd : Bool) : Qp :=
  { state := 0, rd := rd, perm := 0, slice := slice, dqpn := 0, dlid := 0, tc := 0, mtu := 0, rto := 0, retryMax := 0,
    rnrMax := 0, rnrTmr := 0, ordMax := 0, sqBase := 0, sqPi := 0, sqCi := 0, sqLog := 0, rqLog := 0, rqBase := 0,
    rqPi := 0, rqCi := 0, scqn := 0, rcqn := 0, outMax := 0, rate := 0, portRate := 0, paceAt := 0, lastCut := none, ekey := 0,
    peerBase := 0, peerLog := 0, conns := [], sq := [], rq := [], started := [], nextWqe := 0, rec_ := [], recPos := 0, busy := none,
    held := [], peerRaised := false, drained := false, epochs := [] }

/-- A completion queue (R266): 1 ready, 2 error. -/
structure Cq where
  state : Nat
  log : Nat
  armed : Bool
  solOnly : Bool
  pi : Nat
  ci : Nat
  base : Nat
  /-- PHASE of the next entry. -/
  phase : Bool
deriving DecidableEq, Repr

/-- A region entry (R300), with how often it was re-registered since REG (R304). -/
structure Region where
  valid : Bool
  fastwin : Bool
  target : Bool
  access : Nat
  gen : Nat
  slice : Nat
  vh : Nat
  win : Nat
  pasid : Nat
  pasidEn : Bool
  shift : Nat
  va : Nat
  len : Nat
  pages : List Nat
  plAddr : Nat
  rereg : Nat
deriving DecidableEq, Repr

/-- A region index never registered. -/
def Region.init : Region := ⟨false, false, false, 0, 0, 0, 0, 0, 0, false, 0, 0, 0, [], 0, 0⟩

/-- A request packet parked in the lagoon or waiting on a miss list (R290, R291): for 0 a context, 1 a record, 2 a translation. -/
structure Park where
  qpn : Nat
  pkt : SftPkt
  cells : Nat
  why : Nat
  lagoon : Bool
  /-- On a miss list: the packet of the core whose cells it keeps (R291). -/
  src : Option Nat
deriving DecidableEq, Repr

/-- Whose an access is that waits for a translation (R434): 0 requester of a QP, 1 responder of a QP, 2 CQ, 3 event ring,
4 command ring, 5 match post ring, 6 collective descriptor, 7 other. -/
structure Owner where
  kind : Nat
  id : Nat
deriving DecidableEq, Repr

/-- An access to host memory (R430): a read with its tag, or a write of bytes, a completion queue entry of a CQN or an event ring
entry of a slice, as its channel says. -/
structure Access where
  chan : Chan
  vh : Nat
  pasid : Option Nat
  addr : Nat
  ro : Bool
  /-- Tag, CQN or slice. -/
  obj : Nat
  len : Nat
  bytes : List Byte
  /-- It reaches a ring or a descriptor. -/
  ring : Bool
  owner : Owner
  /-- Index of the region that its key names, 2^22 for none, and the fast window under whose earlier mapping it was made (R305, R308). -/
  key : Nat := 2 ^ 22
  under : Option Nat := none
deriving DecidableEq, Repr

/-- What a host read is for. -/
inductive RdUse where
  /-- Source data of a started WQE. -/
  | source (qpn wqe : Nat)
  /-- The request that a responder QP executes. -/
  | respond (qpn : Nat)
  /-- A contribution of a member to a collective instance: unit, member slot. -/
  | contrib (unit slot : Nat)
deriving DecidableEq, Repr

/-- The use of a read of QP `n` that has left the QP: it completes to no QP, counted on the same engine (R294). -/
def RdUse.orphan (n : Nat) : RdUse → RdUse
  | .source q w => if q = n then .source (2 ^ 27 + n) w else .source q w
  | .respond q => if q = n then .respond (2 ^ 27 + n) else .respond q
  | .contrib u s => .contrib u s

/-- The transport engine of a read, 8 for none. -/
def RdUse.tpe : RdUse → Nat
  | .source q _ | .respond q => q % 8
  | .contrib _ _ => 8

/-- A host read outstanding (R433): tag, function, slice, region index of its key (2^22 none), its use. -/
structure HostRead where
  tag : Nat
  vh : Nat
  slice : Nat
  key : Nat
  use : RdUse
  /-- Its requests while it waits for a free read of the slice (R439). -/
  waits : List Access
  /-- The fast window under whose earlier mapping it was made (R308). -/
  under : Option Nat
  /-- The 4 KiB pages of the host it reads: PASID and page (R434). -/
  pages : List (Option Nat × Nat)
deriving DecidableEq, Repr

/-- Entries of a ring that a doorbell posted and whose page is not translated yet (R434): the function, PASID and page, the slice, the
doorbell's key (kind * 2^24 + number), its index, the entries, whether a translation was asked for, and whether a Page Request is out. -/
structure RingWait where
  vh : Nat
  pasid : Option Nat
  page : Nat
  slice : Nat
  key : Nat
  index : Nat
  entries : List (List Byte)
  asked : Bool
  prg : Bool
deriving DecidableEq, Repr

/-- An access that waits for its translation, or behind one of the same owner that waits (R434). -/
structure AtsWait where
  acc : Access
  /-- The translated address, once known. -/
  xlat : Option Nat
  /-- A Page Request is out for it. -/
  prg : Bool
deriving DecidableEq, Repr

/-- An entry of the address translation cache (R434): a 4 KiB page. -/
structure AtcEntry where
  vh : Nat
  pasid : Option Nat
  page : Nat
  host : Nat
  read : Bool
  write : Bool
deriving DecidableEq, Repr

/-- What a slice holds beside its registers (R440, R444). -/
structure Slice where
  /-- Doorbells recorded while quiescing: kind * 2^24 + number, the latest index, the entries they post. -/
  recorded : List (Nat × Nat × List (List Byte))
  /-- Producer indices and entries posted on the command ring and the match post ring. -/
  cmrPi : Nat
  cmr : List (List Byte)
  mprPi : Nat
  mpr : List (List Byte)
  /-- Local time of QUIESCE; its timeout was raised. -/
  since : Nat
  tmoRaised : Bool
  /-- The state a slice reset ends in (R437, R441): 3 QUIESCED, 1 ACTIVE, 0 FREE; 7 no reset runs. -/
  resetTo : Nat
  /-- PHASE of the next event ring entry. -/
  phase : Bool
deriving DecidableEq, Repr

/-- A slice at reset. -/
def Slice.init : Slice := ⟨[], 0, [], 0, [], 0, false, 7, true⟩

/-- A window or window group: its live and shadow words (R308, R310, R328). -/
structure Staged where
  live : List Nat
  shadow : List Nat
deriving DecidableEq, Repr

/-- A reach-through window beside its words (R316, R318). -/
structure BrgWin where
  latch : Bool
  cause : Nat
  psn : Nat
  fence : Bool
  /-- Holder of the semaphore. -/
  lock : Option Nat
  /-- Writes made under earlier mappings, as queue pair and request (R308). -/
  prior : List (Nat × Nat)
deriving DecidableEq, Repr

/-- A read, AtomicOp or locked read of the bridge (R312, R315, R316). -/
structure BrgRead where
  id : Nat
  win : Nat
  grp : Nat
  vh : Nat
  req : Nat
  htag : Nat
  addr : Nat
  len : Nat
  /-- 0 read, 1 AtomicOp, 2 locked read. -/
  kind : Nat
  /-- 0 waits for a tag, 1 waits for the semaphore, 2 issued, 3 waits for the writes before it (zero length or held block), 4 waits
  for prefetched blocks. -/
  state : Nat
  /-- Writes of its group unretired when it was accepted. -/
  behind : List Nat
  data : List Byte
  /-- Opcode and operands of an AtomicOp. -/
  opc : Nat
  op1 : Nat
  op2 : Nat
  /-- The mapping that its lookup found: remote address, remote key, prefetch permission; a later commit has replaced it (R308). -/
  rem : Nat
  rkey : Nat
  pre : Bool
  old : Bool
deriving DecidableEq, Repr

/-- A block of a group's prefetch store (R314). -/
structure PfBlock where
  id : Nat
  grp : Nat
  win : Nat
  addr : Nat
  len : Nat
  data : Option (List Byte)
  /-- Some of its bytes were consumed. -/
  used : Bool
  /-- Discarded before its data came: the reads that await it, for which alone it stays. -/
  lateFor : Option (List Nat)
deriving DecidableEq, Repr

/-- A match context entry (R335, R345). -/
structure MCtx where
  ctxid : Nat
  slice : Nat
  failed : Bool
  rcqn : Nat
  uxMax : Nat
  postStamp : Nat
  arrStamp : Nat
deriving DecidableEq, Repr

/-- A posted receive (R341, R344). -/
structure Posted where
  ctx : Nat
  rank : Nat
  tag : Nat
  ign : Nat
  stamp : Nat
  addr : Nat
  lkey : Nat
  len : Nat
  wrId : Nat
deriving DecidableEq, Repr

/-- An unexpected message (R344, R349): its bounce slot holds the data so far; a POST may already have taken it. -/
structure Unexp where
  id : Nat
  ctx : Nat
  rndv : Bool
  arriving : Bool
  rank : Nat
  tag : Nat
  mlen : Nat
  stamp : Nat
  /-- Bounce pool units of 256 B. -/
  units : Nat
  data : List Byte
  qpn : Nat
  vaddr : Nat
  rkey : Nat
  rid : Nat
  sol : Bool
  taken : Option Posted
deriving DecidableEq, Repr

/-- A rendezvous in progress at the receiver (R349). -/
structure Rndv where
  slot : Nat
  qpn : Nat
  post : Posted
  rank : Nat
  tag : Nat
  mlen : Nat
  vaddr : Nat
  rkey : Nat
  rid : Nat
  fromUx : Bool
  sol : Bool
deriving DecidableEq, Repr

/-- An operation of a quadrant that waits for an overflow fetch (R347, R348), or behind one of its context: an arrival on a QP,
or an entry of the slice's post ring. -/
inductive MWait where
  | arrival (ctx qpn : Nat)
  | post (ctx slice : Nat) (entry : List Byte)
deriving DecidableEq, Repr

/-- A match quadrant (ch. 11). -/
structure Quad where
  ctxs : SMap (Option MCtx)
  posted : List Posted
  unexp : List Unexp
  rndvs : List Rndv
  waits : List MWait
  nextId : Nat
  /-- UX_FULL and PRQ_FULL episodes, and the last CTX_MISS. -/
  uxFull : Bool
  prqFull : Bool
  missAt : Option Nat
deriving DecidableEq, Repr

/-- An empty quadrant. -/
def Quad.init : Quad := ⟨[], [], [], [], [], 0, false, false, none⟩

/-- A PCIe configuration space as written (R424, R425): what software has set, by byte offset. -/
structure FunCfg where
  cfg : SMap Byte
  /-- MSI-X table entries: address, data, mask; pending bits (R428). -/
  msix : SMap (Nat × Nat × Bool)
  /-- Pending vectors and the slice that pended them. -/
  pba : List (Nat × Nat)
  /-- APER_LOG and APER_PF in force since an FLR or hot reset (R429). -/
  aper : Option (Nat × Bool)
deriving DecidableEq, Repr

/-- A function at reset. -/
def FunCfg.init : FunCfg := ⟨[], [], [], none⟩

/-- The memory path (R19): the requests served whose end is awaited, and the turn of each rank's round-robin: a user and what is left of
its weight. -/
structure MemPath where
  served : List (Nat × Nat × Nat)
  turn : SMap (Nat × Nat)
deriving DecidableEq, Repr

/-- The memory path without the context fetches of some QPNs. -/
def MemPath.drop (p : MemPath) (f : Nat → Bool) : MemPath :=
  { p with served := p.served.filter (fun r => !((r.1 == 0 || r.1 == 3) && f r.2.2)) }

/-- The virtual-time fair queuing of an engine's WQE starts (R195, R443): V, the start tags of the slices, and the slices that had work at
the last decision. -/
structure FairQ where
  v : Nat
  tags : SMap Nat
  elig : List Nat
deriving DecidableEq, Repr

/-- Fair queuing at reset. -/
def FairQ.init : FairQ := ⟨0, [], []⟩

/-- The engines (ch. 09, 10, 11, 14). -/
structure Eng where
  /-- Range table: three words of an entry (R256). -/
  ranges : SMap (Nat × Nat)
  qps : SMap (Option Qp)
  cqs : SMap (Option Cq)
  /-- Uncorrectable words of region data in package memory, as offset / 8 (R524). -/
  badMem : List Nat
  /-- QPs that must enter ERROR before the command ends: QPN, status, PSN (R266). -/
  fails : List (Nat × Nat)
  /-- Contexts cached, most recently used first (R288), and fetches under way (R290). -/
  cached : List Nat
  fetches : List Nat
  /-- QPs whose fetch or packets wait for a way that may be pinned; CQ contexts cached, most recently used first (R288). -/
  pinWait : List Nat
  cqCached : List Nat
  /-- The fair queuing of WQE starts, by transport engine (R443). -/
  fair : SMap FairQ
  parked : List Park
  /-- LAGOON_FULL and withheld-credit episodes, by engine bit (R291). -/
  lagoonFull : Bool
  withheld : Nat
  reads : List HostRead
  nextTag : Nat
  /-- Tags in quarantine: function, tag, the transport engine whose read it was, 8 for none (R294, R435). -/
  quar : List (Nat × Nat × Nat)
  regions : SMap Region
  /-- Freed indices, oldest first, behind the indices never used; the first of these (R304). -/
  freed : List Nat
  fresh : Nat
  /-- MRG commands that await the retirement of old accesses (R305): their indices, and slice, entry and data of a command ring. -/
  retiring : List (List Nat × Option (Nat × List Byte × List Byte))
  wins : SMap Staged
  brgWins : SMap Staged
  brg : SMap BrgWin
  grps : SMap Staged
  brgReads : List BrgRead
  pf : List PfBlock
  nextBrg : Nat
  /-- The map table (R321): six words of an entry. -/
  maps : SMap (List Nat)
  /-- PENDING bits of map entries. -/
  mapPend : List Nat
  /-- The wire map change under way (R324). -/
  wireOpen : List (Nat × Nat)
  quads : SMap Quad
  slices : SMap Slice
  atc : List AtcEntry
  ats : List AtsWait
  ringWaits : List RingWait
  /-- Invalidate Requests not yet complete: function, tag, the reads that must retire first (R434). -/
  invals : List (Nat × Nat × List Nat)
  funs : SMap FunCfg
  path : MemPath
deriving DecidableEq, Repr

/-- The QPN of the message endpoint (R320). -/
def msgQpn : Nat := 0xFFFFFF

/-- The message endpoint (R320): an RD endpoint in RTS that takes NOTIFY, with 4,096 peer records. The spec gives it no TC, MTU or retry
parameters: the model's are TC 0, 256 B, OUT_MAX 2^20 - 1, and the greatest retry counts (log entry 36). Its slice 4,096 names none. -/
def msgEndpoint : Qp :=
  { Qp.init 4096 true with state := 3, perm := 8, outMax := 2 ^ 20 - 1, retryMax := 15, rnrMax := 7, rnrTmr := 1, peerLog := 12 }

/-- The engines at reset. -/
def Eng.init : Eng :=
  { ranges := [], qps := [(msgQpn, some msgEndpoint)], cqs := [], badMem := [], fails := [], cached := [], fetches := [], pinWait := [], cqCached := [], fair := [], parked := [], lagoonFull := false,
    withheld := 0, reads := [], nextTag := 0, quar := [], regions := [], freed := [], fresh := 0, retiring := [],
    wins := [], brgWins := [], brg := [], grps := [], brgReads := [], pf := [], nextBrg := 0, maps := [], mapPend := [], wireOpen := [], quads := [], slices := [], atc := [], ats := [], ringWaits := [], invals := [],
    funs := [], path := ⟨[], []⟩ }

end Sys2Proof.Machine
end

