-- ==== Sys2Proof/Machine/TypesColl.lean ====
section
/-!
DEFINITION. The state of the collective units (ch. 12), and the collective packets that commands carry to them.
-/

namespace Sys2Proof.Machine

/-- An element: its bits in its own format with the index of minloc and maxloc, or the exact accumulator of a sum with its flags
NAN, POS_INF and NEG_INF (R366, R376, R377). -/
inductive CElem where
  | raw (v idx : Nat)
  | acc (v : Int) (nan pos neg : Bool)
deriving DecidableEq, Repr

/-- A collective packet but for its TYPE (R373). -/
structure CollPkt where
  tri : Nat
  last : Bool
  err : Bool
  empty : Bool
  cop : Nat
  oper : Nat
  dtype : Nat
  exact_ : Bool
  dgrp : Nat
  seq : Nat
  count : Nat
  block : Nat
  errcode : Nat
  payload : List Byte
deriving DecidableEq, Repr

/-- What a child contributes to a block, or what comes down: a failure status, or elements, or nothing. -/
structure CPart where
  err : Option Nat
  last : Bool
  data : Option (List CElem)
deriving DecidableEq, Repr

/-- The instance that a device takes part in (R370, R372). -/
structure CInst where
  seq : Nat
  cop : Nat
  oper : Nat
  dtype : Nat
  exact_ : Bool
  count : Nat
  /-- Its first block, and the next block to combine. -/
  first : Nat
  up : Nat
  /-- It has failed with this status. -/
  err : Option Nat
  /-- Children, by position, that sent their LAST block, and its failure. -/
  ended : List (Nat × Option Nat)
  /-- Member slots that ended early (R389). -/
  lost : List Nat
  /-- It holds a redelivered block (R386). -/
  redel : Bool
deriving DecidableEq, Repr

/-- A block that a group holds in a slot (R374): its instance, the parts of the children by position, and the DOWN that passed. -/
structure CSlot where
  blk : Nat
  inst : CInst
  parts : List (Option CPart)
  down : Option CPart
deriving DecidableEq, Repr

/-- A group (R358): its words as written; STATE 0 IDLE, 1 ACTIVE, 2 FAILED. -/
structure CGroup where
  words : List Nat
  state : Nat
  alt : Bool
  seq : Nat
  blk : Nat
  /-- Accumulator lines and harbour cells it reserves (R362). -/
  lines : Nat
  cells : Nat
  inst : Option CInst
  slots : List CSlot
  /-- FAULT, ABORT and GO_ON forwarded: TYPE, SEQ, TRY (R383). -/
  seen : List (Nat × Nat × Nat)
  /-- An ABORT or GO_ON is awaited (R387); a fault waits for the group to become ACTIVE (R383). -/
  waiting : Bool
  note : Bool
  /-- Ports to children of the primary tree that are down (R386). -/
  broken : List Nat
  /-- TREE becomes 1 with the next instance (R386). -/
  altNext : Bool
deriving DecidableEq, Repr

/-- A descriptor that a member slot has taken (R366, R367): its index in the ring, its SEQ once it joined, whether it is held armed,
the contribution once read, the result so far. -/
structure CRun where
  idx : Nat
  desc : List Byte
  seq : Nat
  armed : Bool
  data : Option (Option (List CElem))
  res : List CElem
deriving DecidableEq, Repr

/-- A member slot (R364): its words, the producer index, the descriptors posted and not taken. -/
structure CMember where
  words : List Nat
  bound : Bool
  ci : Nat
  pi : Nat
  ring : List (List Byte)
  run : Option CRun
deriving DecidableEq, Repr

/-- A member slot not bound. -/
def CMember.init : CMember := ⟨List.replicate 8 0, false, 0, 0, [], none⟩

/-- A doorbell or packet held until its unit's domain is ON (R388). -/
inductive CHeld where
  | bell (slot index : Nat) (entries : List (List Byte))
  | pkt (type port : Nat) (p : CollPkt)
deriving DecidableEq, Repr

/-- The four collective units. -/
structure Coll where
  groups : SMap (Option CGroup)
  /-- Child entries by unit * 16384 + index (R359). -/
  children : SMap (List Nat)
  members : SMap CMember
  held : List CHeld
deriving DecidableEq, Repr

/-- The collective units at reset. -/
def Coll.init : Coll := ⟨[], [], [], []⟩

/-- A combined block of a group ready to leave: whether this device is the root, the group and its operation after it, its number, and
what it carries (R370). -/
structure UpBlock where
  root : Bool
  grp : CGroup
  inst : CInst
  blk : Nat
  part : CPart
  deriving DecidableEq, Repr

end Sys2Proof.Machine
end

