-- ==== Sys2Proof/Machine/TypesNet.lean ====
section
/-!
DEFINITION. The state of the datapath that is not a page register: lanes and port bring-up, the SFL link layer, packets and
descriptors, schedulers and meters, routing tables (ch. 04 to 08).
-/

namespace Sys2Proof.Machine

/-- A lane marker as received (R103): logical position, island, state, DX7, SPARE_CAP, rate, peer. -/
structure Marker where
  pos : Nat
  isl : Nat
  st : Nat
  dx7 : Bool
  spareCap : Bool
  rate : Nat
  peer : Nat
deriving DecidableEq, Repr

/-- A lane beside its page (ch. 04). -/
structure Lane where
  /-- Attempts in a row that missed step 2, and the mark they lead to (R104). -/
  misses : Nat
  failed : Bool
  marker : Option Marker
  /-- SPARE_REQ and SPARE_REL wait for the next bring-up (R110, R117). -/
  req : Bool
  rel : Bool
  /-- Without symbol lock while the port is UP, and the LOCK_LOSS_TIME the running timing started with (R142, R150). -/
  lost : Bool
  lostTime : Nat
  /-- The last trim step: parameter 0 CTLE, 1 to 8 DFE tap, and its move in two's complement; the errors and the eye height of
  the interval before it (R101). -/
  trimStep : Option (Nat × Int)
  trimErr : Nat
  trimEye : Nat
  /-- TRIM_LIMIT was raised in this bring-up (R101). -/
  trimRaised : Bool
  /-- Results of the last eye scan by voltage code times 64 plus phase code (R115). -/
  eye : SMap (Option Nat)
  /-- The held substitution came from SPARE_MAP and no bring-up has qualified its spare (R111). -/
  fromImage : Bool
  /-- In this bring-up the position is treated as failed, since the spare it asked for failed (R119). -/
  bad : Bool
  /-- The transmit settings of an EXP lane at 8, 16, 32 and 64 GT/s (R102): a preset 0 to 10, or 16 + the coefficients asked for. -/
  eq : List Nat
  /-- The flits of the codeword being filled, CW_CNT of it, and the coded bits short of an inner block: how many and their value (R120 to
  R122). -/
  flits : List (List Byte)
  cwCnt : Nat
  inner : Nat × Nat
deriving DecidableEq, Repr

/-- A copy of a data flit kept for replay (R136): sequence number, virtual lane, packet, index, head, tail, poison, bytes. -/
structure FlitCopy where
  seq : Nat
  vl : Nat
  pkt : Nat
  head : Bool
  tail : Bool
  poison : Bool
  bytes : List Byte
deriving DecidableEq, Repr

/-- A weather report as received (R235). -/
structure Weather where
  sender : Nat
  wseq : Nat
  low : Bool
  wx : List Nat
  shared : Nat
deriving DecidableEq, Repr

/-- A port beside its LNK and ETH pages (ch. 04, 05, 08). -/
structure Port where
  /-- The bring-up step of R104 awaited, 0 none; why a retry timer runs: 0 none, 1 mismatch, 2 no width. -/
  step : Nat
  retry : Nat
  /-- Local time at which the bring-up began (T0 of R104), and the rate code of PORT_CFG it began with, 0 while none runs (R186). -/
  began : Nat
  rate : Nat
  /-- Flits sent since link up (R121). -/
  flitNo : Nat
  /-- Electrical idle until the reset ends (R142, R143). -/
  idle : Bool
  /-- INIT received and sent, RX_OK set, RX_OK received and sent with RX_OK (R141). -/
  initRx : Bool
  rxOk : Bool
  peerOk : Bool
  sentOk : Bool
  /-- Initial credits of the partner by virtual lane, G_v of R229. -/
  initial : SMap Nat
  /-- Latest CREDIT received and CONSUMED by virtual lane (R132). -/
  credit : SMap Nat
  consumed : SMap Nat
  /-- Cumulative credits granted to the partner and data flits received by virtual lane (R133, R134). -/
  granted : SMap Nat
  received : SMap Nat
  /-- Packets being received by virtual lane, as number plus 1 (R131). -/
  cur : SMap Nat
  /-- Copies of unacknowledged flits, oldest first (R136). -/
  copies : List FlitCopy
  /-- EXP_SEQ of the NAK that waits for its flit (R137), and its REASON. -/
  nak : Option Nat
  /-- A resend pass runs, the ACK_SEQ it started with, consecutive retries (R138). -/
  pass : Bool
  passAck : Nat
  retries : Nat
  /-- Uncorrectable codewords of the running 1 ms and its start; FEC_UNCORR_HIGH raised in it (R153). -/
  fecCount : Nat
  fecSince : Nat
  fecRaised : Bool
  /-- The latest weather report and its time, stale raised (R236). -/
  wx : Option Weather
  wxTime : Nat
  wxStale : Bool
  wxSeq : Nat
  /-- Priorities paused by the partner and XOFF sent (R149), with the time a pause began. -/
  paused : Nat
  xoff : Nat
  pausedAt : SMap Nat
  /-- Waits REJOIN after LINK_UP (R248). -/
  rejoin : Bool
  /-- New flits stall at the replay cap since this local time (R139). -/
  stallAt : Option Nat
  /-- PCIe flow control of an EXP port by class of R401: limits received and credits consumed, headers and data (R193). -/
  fcHdr : SMap Nat
  fcData : SMap Nat
  fcHdrUsed : SMap Nat
  fcDataUsed : SMap Nat
deriving DecidableEq, Repr

/-- The time of a record in ns, and whether local time stood for fabric time then (R64, R183). -/
structure Stamp where
  ns : Nat
  unset : Bool
deriving DecidableEq, Repr

/-- A cell: its segment, its number there, its charge: 0 minimum, 1 shared pool, 2 ingress headroom, 3 a mirror copy's, charged to the
original (R168, R169, R173, R182). -/
structure Cell where
  seg : Nat
  num : Nat
  charge : Nat
deriving DecidableEq, Repr

/-- A mirror session that selected a packet, with its settings then (R181, R184): DEST_KIND, DST_PORT, DST_LOC, MIR_Q, TRUNC, the ring's base,
size and RING_WRAP. -/
structure Mark where
  session : Nat
  egress : Bool
  kind : Nat
  port : Nat
  loc : Nat
  queue : Nat
  trunc : Nat
  base : Nat
  size : Nat
  wrap : Bool
deriving DecidableEq, Repr

/-- A packet in the core (R155, R219). -/
structure Packet where
  id : Nat
  /-- Port it came by; 144 plus the engine number of R157 for the block's own, 255 for a mirror copy. -/
  inPort : Nat
  /-- Ingress virtual lane of an SFL packet; ingress priority of an Ethernet frame. -/
  inLane : Nat
  /-- The network header in force, 128 bits (R219), 0 where the packet has none; and as it came or was injected, before any lookup. -/
  hdr : Nat
  hdr0 : Nat
  /-- The bytes received so far. -/
  bytes : List Byte
  /-- Length as the head states it; of a frame as received (R155, R209). -/
  len : Nat
  /-- The tail has been stored; the packet ended in error. -/
  tail : Bool
  poison : Bool
  /-- Held on its ingress island without a port, since this local time (R247). -/
  held : Option Nat
  /-- Egress: port 0 to 143, 144 plus the engine number of R157, 160 management processor, 161 hierarchy controller;
  255 not decided. -/
  eg : Nat
  queue : Nat
  vlane : Nat
  colour : Nat
  /-- CE is set when it leaves by an SFL port (R210). -/
  mark : Bool
  /-- Sent only once stored in full (R177). -/
  store : Bool
  /-- The cells written, first cell first (R155, R169). -/
  cells : List Cell
  /-- Cells that its egress has finished with, from the first on (R156). -/
  freed : Nat
  /-- Cells whose descriptor has been handed to the ingress island's queues, and to the egress queue (R158, R162). -/
  made : Nat
  queued : Nat
  /-- Bytes sent, data flits sent, and whether transmission has begun. -/
  sent : Nat
  txFlits : Nat
  begun : Bool
  /-- Data flits received and credits returned for them; the link they came by is still up (R134). -/
  flits : Nat
  credRet : Nat
  owes : Bool
  /-- A TLP's list of R401: 1 posted, 2 non-posted, 3 completion, 4 CXL.mem; 0 no TLP. Its RO bit. -/
  cls : Nat
  ro : Bool
  /-- Data bytes of a TLP (R406). -/
  dlen : Nat
  /-- Waits on FILL (R180); counted in GATE_HOLD (R205). -/
  fillWait : Bool
  gateHeld : Bool
  /-- MIRROR: a bit per session that is to copy the packet; the selections whose copies are not made yet; the sessions judged on reception,
  and the egress port they were judged for, 255 none (R157, R181). -/
  mirror : Nat
  marks : List Mark
  seen : Nat
  outFor : Nat
  /-- The packet whose cells a mirror copy reads (R182). -/
  copyOf : Option Nat
  /-- DEL_VH of the entry that delivers the packet (R226). -/
  delVh : Nat
  /-- The times of admission and of the start of transmission (R183). -/
  admitAt : Stamp
  beginAt : Stamp
deriving DecidableEq, Repr

/-- A packet without bytes, from a port on a virtual lane. -/
def Packet.fresh (id inPort inLane hdr len vlane : Nat) (now : Stamp) : Packet :=
  { id := id, inPort := inPort, inLane := inLane, hdr := hdr, hdr0 := hdr, delVh := 0, bytes := [], len := len, tail := false, poison := false,
    held := none, eg := 255, queue := 0, vlane := vlane, colour := 0, mark := false, store := false, cells := [],
    freed := 0, made := 0, queued := 0, sent := 0, txFlits := 0, begun := false, flits := 0, credRet := 0, owes := false,
    cls := 0, ro := false, dlen := 0, fillWait := false, gateHeld := false, mirror := 0, marks := [],
    seen := 0, outFor := 255, copyOf := none, admitAt := now, beginAt := ⟨0, false⟩ }

/-- The packet bears no network header: a local frame, a local mirror copy or a TLP. -/
def Packet.bare (k : Packet) : Bool := k.hdr / 2 ^ 68 == 0

/-- A cell descriptor on its way (R157), with the packet and the cell's index in it, and its level (0 URGENT, 1 NORMAL); SSEQ, CT and POISON
once offered. -/
structure Desc where
  pkt : Nat
  cell : Nat
  level : Nat
  seg : Nat
  num : Nat
  egIsl : Nat
  egPort : Nat
  queue : Nat
  vlane : Nat
  head : Bool
  tail : Bool
  ct : Bool
  poison : Bool
  colour : Nat
  len : Nat
  sseq : Option Nat
  mirror : Nat
  inIsl : Nat
deriving DecidableEq, Repr

/-- A cell write, or a read, that the harbour has not acknowledged: the strait it went over, its island and the cell (R164). -/
structure CellAccess where
  strait : Nat
  isl : Nat
  seg : Nat
  num : Nat
  write : Bool
deriving DecidableEq, Repr

/-- A cell that stays for a mirror copy after its packet's egress has finished with it: the packet, the cell's index in it, and the queue it
was charged to (R156, R182). -/
structure KeptCell where
  pkt : Nat
  idx : Nat
  eg : Nat
  queue : Nat
  cell : Cell
deriving DecidableEq, Repr

/-- A descriptor offered on a strait and not acknowledged (R164). -/
structure Flight where
  strait : Nat
  desc : Desc
deriving DecidableEq, Repr

/-- A mirror copy that waits to be written to its ring (R182, R183). -/
structure MirCopy where
  session : Nat
  bytes : List Byte
  orig : Nat
  egress : Bool
  ended : Bool
  port : Nat
  time : Stamp
  /-- The ring's base, size and RING_WRAP as the packet was marked: a commit completes it under these (R184). -/
  base : Nat
  size : Nat
  wrap : Bool
  /-- The packet whose cells the copy reads (R182). -/
  src : Nat
deriving DecidableEq, Repr

/-- The scheduler of an egress port beside its page (ch. 07). -/
structure Sched where
  /-- Virtual time V and start tags S_q, 48 bits (R195). -/
  v : Nat
  tags : SMap Nat
  /-- Queues eligible at the last decision. -/
  elig : Nat
  /-- Shaper tokens T in 1/8000 byte by queue, 19 the port shaper, and when they were brought up to date (R198). -/
  tok : SMap Int
  tokAt : SMap Nat
  /-- Calendar wheel: queue 0 to 19 and slot time in ns (R199). -/
  wheel : SMap Nat
  /-- The gated packet in progress (R205). -/
  gated : Option Nat
  /-- When the active list starts (R203), and its entry in force. -/
  startAt : Nat
  entry : Nat
  fbRaised : Bool
  /-- Bytes of charge sent from a queue beyond the whole 64 B units counted (R213). -/
  rest : SMap Nat
  /-- The pending switch takes effect at this fabric time (R204). -/
  switchAt : Nat
deriving DecidableEq, Repr

/-- A meter (R208): words 0 to 3 of its entry, the buckets in 1/8000 byte and their time, and four counters. -/
structure Meter where
  /-- Word 0 of the entry; bit 28 marks a meter that a parity error disabled (R211). -/
  w0 : Nat
  pir : Nat
  cbs : Nat
  pbs : Nat
  tc : Int
  tp : Int
  tAt : Nat
  green : Nat
  yellow : Nat
  red : Nat
  drop : Nat
deriving DecidableEq, Repr

/-- A flowlet entry (R225, R233). -/
structure Flowlet where
  valid : Bool
  port : Nat
  esc : Bool
  layer : Bool
  ilid : Nat
  last : Nat
  /-- Recorded or confirmed since the last swap, and the level entries it was chosen by; none where nothing was recorded (R234). -/
  since : Bool
  path : List Nat
  /-- The choice recorded is a non-minimal hop (R231). -/
  nonMin : Bool
deriving DecidableEq, Repr

/-- The datapath (ch. 04 to 08). -/
structure Net where
  lanes : SMap Lane
  ports : SMap Port
  /-- Packets in the core, oldest first, and the number of the next. -/
  pkts : List Packet
  nextPkt : Nat
  /-- Descriptors waiting at their ingress island, oldest first (R160). -/
  waiting : List Desc
  /-- Descriptors offered and not acknowledged (R164). -/
  flights : List Flight
  /-- Descriptors held behind a gap at their egress island (R158). -/
  behind : List Desc
  /-- Cell writes and reads not acknowledged (R164), and cells that stay for mirror copies (R182). -/
  staged : List CellAccess
  kept : List KeptCell
  /-- Requests on VC1 at a transport engine that keep their cells (R291): packet; 0 the engine takes none, 1 handed to it, 2 on its miss
  list. -/
  atEngine : List (Nat × Nat)
  /-- Next SSEQ to offer and next expected by ingress island times 20 plus egress island (R158). -/
  sseqTx : SMap Nat
  sseqRx : SMap Nat
  /-- GPTR and APTR by (strait * 20 + island) * 2 + level (R161). -/
  gptr : SMap Nat
  aptr : SMap Nat
  /-- Segment of the next cell by ingress island (R169). -/
  nextSeg : SMap Nat
  /-- Strait of the next write by ingress island (R164). -/
  nextStr : SMap Nat
  /-- Queues of egress ports by port * 32 + queue: packets in queue order (R159). -/
  queues : SMap (List Nat)
  /-- Mirror sampling counters by session, copies that wait, record counts (R181, R183), last MIR_COPY_DROP. -/
  sample : SMap Nat
  copies : List MirCopy
  records : SMap Nat
  dropAt : SMap Nat
  sched : SMap Sched
  meters : SMap Meter
  /-- Routing tables by ((island * 8 + table) * 2 + set) * 8192 + index, an entry as one number (R222 to R225). -/
  tables : SMap Nat
  flowlets : SMap Flowlet
  /-- LAYER2_IN_USE raised since the last swap (R253). -/
  layer2 : Bool
  /-- Islands whose reset waits for ISLAND_RESET_DONE, by the reason (R186). -/
  islReset : SMap Nat
  /-- Straits running their self-test, all of them from a reset on (R165, R187). -/
  selfTest : Nat
deriving DecidableEq, Repr

/-- A lane at reset. -/
def Lane.init : Lane := ⟨0, false, none, false, false, false, 0, none, 0, 0, false, [], false, false, [], [], 0, (0, 0)⟩

/-- A port at reset. -/
def Port.init : Port :=
  { step := 0, retry := 0, began := 0, rate := 0, flitNo := 0, idle := false, initRx := false, rxOk := false, peerOk := false, sentOk := false,
    initial := [], credit := [], consumed := [], granted := [], received := [], cur := [], copies := [], nak := none,
    pass := false, passAck := 0, retries := 0, fecCount := 0, fecSince := 0, fecRaised := false, wx := none, wxTime := 0,
    wxStale := false, wxSeq := 0, paused := 0, xoff := 0, pausedAt := [], rejoin := false, stallAt := none,
    fcHdr := [], fcData := [], fcHdrUsed := [], fcDataUsed := [] }

/-- A scheduler at reset: V and the start tags 0. -/
def Sched.init : Sched := ⟨0, [], 0, [], [], [], none, 0, 0, false, [], 0⟩

/-- A meter at reset: disabled. -/
def Meter.init : Meter := ⟨0, 0, 0, 0, 0, 0, 0, 0, 0, 0, 0⟩

/-- An invalid flowlet entry. -/
def Flowlet.init : Flowlet := ⟨false, 0, false, false, 0, 0, false, [], false⟩

/-- The datapath at reset: nothing in it. -/
def Net.init : Net :=
  { lanes := [], ports := [], pkts := [], nextPkt := 0, waiting := [], flights := [], behind := [], staged := [], kept := [], atEngine := [], sseqTx := [],
    sseqRx := [], gptr := [], aptr := [], nextSeg := [], nextStr := [], queues := [], sample := [], copies := [],
    records := [], dropAt := [], sched := [], meters := [], tables := [], flowlets := [], layer2 := false,
    islReset := [], selfTest := 63 }

end Sys2Proof.Machine
end

