-- ==== Sys2Proof/Machine/TypesSw.lean ====
section
/-!
DEFINITION. The state of the expansion switch and of composite carriage (ch. 13), and the TLPs and composite packets that commands
carry to them.
-/

namespace Sys2Proof.Machine

/-- A TLP or CXL message as the switch takes it: its kind (0 memory write, 1 memory read, 2 completion, 3 message, 4 AtomicOp,
5 other non-posted, 6 CXL.mem M2S Req, 7 M2S RwD, 8 S2M NDR, 9 S2M DRS, 10 CXL.cache), the fields that route it, and its bytes in
the non-flit format or as a 256B flit mode message. -/
structure Tlp where
  kind : Nat
  tc : Nat
  /-- Address, bytes of data asked for or carried, AT field. -/
  addr : Nat
  len : Nat
  at_ : Nat
  /-- Requester ID and tag; bus, device and function of an ID-routed TLP; message routing field. -/
  req : Nat
  tag : Nat
  bdf : Nat
  route : Nat
  ro : Bool
  poison : Bool
  /-- The last completion of its request. -/
  last : Bool
  /-- Logical device. -/
  ld : Nat
  bytes : List Byte
  /-- The colour and the congestion mark that the meter of its ingress port gave it (R209); 0 on arrival. -/
  colour : Nat := 0
  mark : Bool := false
deriving DecidableEq, Repr

/-- What link training settled on an EXP port (R102): flit mode, its lanes reversed, the indices of the lanes received inverted, and the transmit settings
that the partner asked for, by index, rate (0 to 3 for 8 to 64 GT/s) and setting. -/
structure Training where
  flit : Bool
  rev : Bool
  pol : List Nat
  eq : List (Nat × Nat × Nat)
deriving DecidableEq, Repr

/-- A non-posted request forwarded to a port or to another member and not completed (R407, R415): the member it came from or went to,
64 for this device. -/
structure NpReq where
  vh : Nat
  req : Nat
  tag : Nat
  member : Nat
  kind : Nat
deriving DecidableEq, Repr

/-- An EXP port beside its page. -/
structure SwPort where
  /-- Bindings: LD, CVH or LVH, and whether the VH is homed here with its device number (R399). -/
  bound : List (Nat × Nat × Option (Nat × Nat))
  np : List NpReq
  /-- The releases an isolated port awaits: the host's, the fabric manager's (R408). -/
  needHost : Bool
  needFm : Bool
  /-- When it was last unbound, and a BIND that waits out the 100 ms: VH, device, word, home, CVH (R399). -/
  offAt : Option Nat
  wait : Option (Nat × Nat × Nat × Nat × Nat)
  /-- Presence Detect State, the level driven on PERST_N, Secondary Bus Reset, LDs of the device (R411). -/
  prsnt : Bool
  perst : Bool
  sbr : Bool
  lds : Nat
  /-- When EXP_POISON was last raised (R422). -/
  poisonAt : Option Nat
deriving DecidableEq, Repr

/-- An EXP port at reset: nothing bound; PERST_N asserted. -/
def SwPort.init : SwPort := ⟨[], [], false, false, none, none, false, false, false, 0, none⟩

/-- A composite packet (R413). -/
structure CompPkt where
  type : Nat
  cls : Nat
  cvh : Nat
  src : Nat
  dst : Nat
  dexp : Nat
  ld : Nat
  cseq : Nat
  pfence : Nat
  ackSeq : Nat
  tlp : Tlp
deriving DecidableEq, Repr

/-- A non-posted request of a home for another member that waits until the cells of its largest completion are reserved (R415): its ingress
port, the packet, the one that holds its cells, the request, those cells. -/
structure FarWait where
  inP : Nat
  pkt : CompPkt
  hold : Nat
  who : NpReq
  cells : Nat
deriving DecidableEq, Repr

/-- The sending side of a stream (R414): next CSEQ, unacknowledged packets with the packet that holds their cells, packets that wait
for the 16,384, passes without an advance. -/
structure CompTx where
  next : Nat
  out : List (CompPkt × Nat)
  wait : List (CompPkt × Nat)
  passes : Nat
deriving DecidableEq, Repr

/-- The receiving side of a stream (R414, R415): CSEQ expected, accepted since the last ACK, an ACK is due, class 0 packets passed on
whose TLP is still in the core, packets that wait for their fence. -/
structure CompRx where
  expect : Nat
  since : Nat
  due : Bool
  c0 : List (Nat × Nat)
  wait : List CompPkt
deriving DecidableEq, Repr

/-- An HDM decoder (R404). -/
structure Hdm where
  base : Nat
  size : Nat
  ctl : Nat
  targets : Nat
deriving DecidableEq, Repr

/-- The expansion switch and composite carriage. -/
structure Sw where
  ports : SMap SwPort
  /-- Port maps by 32 * VH + device: the word of VHC 0x108 of each bound device (R399, R412). -/
  maps : SMap Nat
  /-- Configuration space of the switch functions: upstream port of VH v under v, management function under 16 + v, downstream port
  under 32 + 32 * v + device (R398). -/
  cfgs : SMap (SMap Byte)
  /-- Peer windows, 8 words, and windows whose old writes have not retired, with those (R403). -/
  pws : SMap (List Nat × List Nat)
  pwFence : List (Nat × List Nat)
  /-- Writes carried through peer windows and still in the core: window, packet. -/
  pwOut : List (Nat × Nat)
  /-- HDM decoders by 8 * VH + decoder. -/
  hdm : SMap Hdm
  /-- Local time until which configuration requests of a VH are retried (R409). -/
  crs : SMap Nat
  /-- PME_TO_Ack messages gathered by VH: devices heard. -/
  gather : SMap (List Nat)
  tx : SMap CompTx
  rx : SMap CompRx
  /-- Non-posted requests forwarded to other members (R415). -/
  remote : List NpReq
  /-- The cells reserved for the completions of a home's requests among them, and the requests that wait for theirs (R415). -/
  rsv : List (NpReq × Nat)
  farWait : List FarWait
  /-- The CVH table: home member and LVH (R412). -/
  cvhs : SMap (Nat × Nat)
  /-- MY_LID of members, and members that are unreachable (R414, R421). -/
  lids : SMap Nat
  unreach : List Nat
deriving DecidableEq, Repr

/-- The switch at reset. -/
def Sw.init : Sw :=
  { ports := [], maps := [], cfgs := [], pws := [], pwFence := [], pwOut := [], hdm := [], crs := [], gather := [], tx := [], rx := []
    remote := [], rsv := [], farWait := [], cvhs := [], lids := [], unreach := [] }

end Sys2Proof.Machine
end

