-- ==== Sys2Proof/Machine/TypesCmd.lean ====
section
/-!
DEFINITION. The records that commands carry from outside the package.
-/

namespace Sys2Proof.Machine

/-- A word that an error check or the patrol scrub found in error, by its memory (R522, R524). -/
inductive EccSite where
  /-- A cell of a harbour segment, and the packet that holds it. -/
  | harbour (seg cell pkt : Nat)
  /-- A descriptor, or cell data, in transit on a strait; the island that saw it. -/
  | strait (strait isl : Nat) (data : Bool)
  /-- A cached context of a QP. -/
  | context (qpn : Nat)
  /-- A list entry, context or descriptor slot of a match context. -/
  | matching (mte ctx : Nat)
  /-- A routing table entry: table 0 level, 1 override, 2 group, 3 attribute, 4 gateway, 5 flowlet; its set; whether its shadow is bad too. -/
  | routing (isl table set idx : Nat) (shadowBad : Bool)
  /-- A meter, counted at an island; whether its shadow is bad too. -/
  | meter (isl idx : Nat) (shadowBad : Bool)
  /-- A message map entry, counted at an island; whether its shadow is bad too. -/
  | map (isl idx : Nat) (shadowBad : Bool)
  /-- The replay buffer of a port. -/
  | replay (port : Nat)
  /-- An accumulator line of a collective group. -/
  | accumulator (group : Nat)
  /-- A line of a translation cache. -/
  | translation
  /-- A word of the management processor's memories. -/
  | processor
  /-- A trouble log entry. -/
  | logEntry (seq : Nat)
  /-- The n-th write held for a domain. -/
  | heldWrite (dom n : Nat)
  /-- A word of an AON page. -/
  | aonPage (addr : Nat)
  /-- A word of a firmware bank. -/
  | bank (bank offset : Nat)
  /-- A word of a board table copy or image slot: 0 primary copy, 1 secondary copy, 2 slot 0, 3 slot 1. -/
  | mramCopy (copy : Nat)
  /-- A word of package memory; its user where the area holds structures of several: the match context as MTE * 4096 + context, or the
  region index. -/
  | package (offset : Nat) (user : Option Nat)
  /-- A flit of a memory stack's link. -/
  | stackLink (stack : Nat)
  /-- The own state of a function. -/
  | function (vh : Nat)
  /-- A patrol pass over a memory stack ended. -/
  | patrolPass (stack : Nat)
deriving DecidableEq, Repr

/-- A register access: its management address and its bytes, 4 or 8 where it is legal (R32, R33). -/
structure RegAccess where
  addr : Nat
  size : Nat
deriving DecidableEq, Repr

/-- A management request that came over the fabric: the SLID of its packet and the requester's number (R52). -/
structure FabricReq where
  slid : Nat
  num : Nat
deriving DecidableEq, Repr

/-- The 64 bytes of a flit as a port received them (R125). -/
structure RxFlit where
  port : Nat
  bytes : List Byte
deriving DecidableEq, Repr

/-- Codewords of a port that could not be taken as they came: CW_CNT by lane where they were checked (R121), the symbols in error beside the
erased blocks, and the inner blocks that came damaged (R122). -/
structure BadCodewords where
  port : Nat
  cnts : List Nat
  errors : Nat
  blocks : List Nat
deriving DecidableEq, Repr

/-- The PCS of an Ethernet port: whether it is up; then the indices of the lanes received inverted, and the PCS lane of each (R95). -/
structure PcsChange where
  up : Bool
  pol : List Nat
  order : List Nat
deriving DecidableEq, Repr

/-- What a register write needs from outside where it starts a command that does: the pages that REGISTER translates and whether they could
be read (R304), and what another member answers to a BIND: 0 granted, 1 CFG_EXP_BIND, 2 CFG_EXP_CACHE (R399). -/
structure Aux where
  pages : List Nat
  readOk : Bool
  grant : Nat
deriving DecidableEq, Repr

end Sys2Proof.Machine
end

