-- ==== Sys2Proof/Syntax.lean ====
section
/-!
DEFINITION. The commands of the block: one constructor per row of the opcode table, in the table's order, with the row's
rule and the operands the command carries. Everything from outside the package (partners, host, board, sensors, the
passing of a stated time) arrives as a command.
-/

namespace Sys2Proof

open Machine

/-- A command to the block. -/
inductive Instr where
  /-- R86: A write to BEHAVIOUR_LEVEL is accepted, or refused with BL_UNSUPPORTED or CFG_BL_LIVE. -/
  | behaviourLevelWrite (value : Word)
  /-- R16: A die-to-die link corrects and retries an error, counts it, and raises D2D_CORR_THRESH when the threshold
  is crossed. `link` as the DEV page numbers it; `n` errors corrected; `retries` link-level retries. -/
  | d2dCorrectedError (link n retries : Nat)
  /-- R15: An uncorrectable die-to-die error is handled according to the link it hit: chiplet ports down, a memory
  error, or a PLINK timeout. `link` as the DEV page numbers it; on a stack link the package memory offset hit and its
  user as in PATROL_SCRUB. -/
  | d2dUncorr (link offset : Nat) (user : Option Nat)
  /-- R41: A unicast or broadcast write to a register that has no row of its own is applied, held, dropped or
  refused. -/
  | registerWrite (acc : Machine.RegAccess) (value : BitVec 64) (aux : Machine.Aux)
  /-- R11: A unicast read of an rc field returns the value and clears the field. -/
  | rcFieldRead (path : Machine.Path) (acc : Machine.RegAccess)
  /-- R58: A read of a management semaphore takes it if it was free and returns 1, or returns 0. -/
  | devMgmtSemRead (path : Machine.Path) (sem : Nat)
  /-- R44: A write of 1 to PG_CTRL.COMMIT checks the staged set and either refuses it or swaps it in. `ty` and
  `inst`: block type and instance or broadcast instance; `enable`: the ENABLE bit of the word written. -/
  | pgCommit (ty inst : Nat) (enable : Bool)
  /-- R44: An accepted commit reaches its block boundary, goes into force, and raises COMMIT_DONE. -/
  | commitSwap (ty inst : Nat)
  /-- R37: PG_CTRL.DISCARD copies the values in force into the staged set. -/
  | pgDiscard (ty inst : Nat) (enable : Bool)
  /-- R46: PG_CTRL.LOCK freezes the page until a warm or cold reset. -/
  | pgLock (ty inst : Nat) (enable : Bool)
  /-- R47: PG_CTRL.SOFT_RST starts a block soft reset, or is refused. -/
  | pgSoftRst (ty inst : Nat) (enable : Bool)
  /-- R47: A block soft reset completes, RST_BUSY clears and RESET_DONE is raised. -/
  | softResetDone (ty inst : Nat)
  /-- R37: A write of PG_CTRL.ENABLE enables or disables the block. -/
  | pgEnableWrite (ty inst : Nat) (enable : Bool)
  /-- R38: A write to PG_EVT_INJ raises the selected RAW bits for one clock, as injected events. -/
  | pgEvtInj (ty inst : Nat) (value : Word)
  /-- R38: A held I3C in-band interrupt is sent once VIO_OK is 1, a dynamic address is held and the bus is free. -/
  | ibiRaise
  /-- R53: Dynamic address assignment by ENTDAA gives the I3C target its dynamic address. -/
  | i3cEntdaa (addr : Nat)
  /-- R55: An I3C private read collects a ready Edurn response. -/
  | i3cResponseRead
  /-- R52: An access through the composite window is served locally or sent to a member as a VC0 management request. -/
  | compositeWindowAccess (write : Bool) (member : Nat) (acc : Machine.RegAccess) (value : BitVec 64) (aux : Machine.Aux)
  /-- R52: A member applies a received over-fabric management access under its own rules and responds. -/
  | remoteAccessApply (req : Machine.FabricReq) (write : Bool) (addr : Nat) (value : Word) (aux : Machine.Aux)
  /-- R52: The response to an over-fabric access arrives and completes the pending read or write. `req`: number of
  the first request; `code`: the configuration error of a write; `vals`: the words of a read. -/
  | remoteResponseRx (req code : Nat) (vals : List Nat)
  /-- R52: DEV_FAB_TMO expires on a remote access, which then completes with all ones and raises REMOTE_TMO. -/
  | remoteTmo (req : Nat)
  /-- R55: Edurn IDENTIFY returns the part, the stepping, the levels, the composite ID and the serial. -/
  | identify (path : Machine.Path) (tag : Nat) (payload : List Byte)
  /-- R55: Edurn REG_READ reads 1 to 64 words, on this device or on a member. -/
  | regRead (path : Machine.Path) (tag : Nat) (payload : List Byte)
  /-- R55: Edurn REG_WRITE writes 1 to 64 words, on this device or on a member. -/
  | regWrite (path : Machine.Path) (tag : Nat) (payload : List Byte) (aux : Machine.Aux)
  /-- R55: Edurn EVENTS returns pending event codes, oldest first. -/
  | events (path : Machine.Path) (tag : Nat) (payload : List Byte)
  /-- R531: Edurn LOG_READ returns up to 31 retained trouble log entries from a start SEQ. -/
  | logRead (path : Machine.Path) (tag : Nat) (payload : List Byte)
  /-- R498: Edurn SENSORS returns the feed, bank and temperature readings. -/
  | sensors (path : Machine.Path) (tag : Nat) (payload : List Byte)
  /-- R82: Edurn IMAGE_EXPORT returns a chunk of the configuration image; chunk 0 takes a new snapshot. -/
  | imageExport (path : Machine.Path) (tag : Nat) (payload : List Byte)
  /-- R82: 10 s after the last export request, the export snapshot is released. -/
  | exportSnapshotExpire
  /-- R83: Edurn IMAGE_IMPORT stores a data chunk into the inactive slot; the first chunk clears the slot and opens
  the import. -/
  | imageImport (path : Machine.Path) (tag chunk : Nat) (data : List Byte)
  /-- R84: Chunk index 0xFFFF_FFFF checks the received image and marks the slot valid and active, or refuses it. -/
  | imageImportCommit (path : Machine.Path) (tag : Nat)
  /-- R83: Chunk index 0xFFFF_FFFE clears both slots and ends any open import. -/
  | imageImportClear (path : Machine.Path) (tag : Nat)
  /-- R506: Edurn FW_STAGE writes a chunk into the staging bank, from the staging owner. `path`: mailbox or I3C;
  `tag` and `payload` of the Edurn frame, as in every Edurn command. -/
  | fwStage (path : Machine.Path) (tag : Nat) (payload : List Byte)
  /-- R506: 10 s after the owner's last chunk, staging ownership ends. -/
  | stagingOwnerExpire
  /-- R507: Edurn FW_ACTIVATE checks the named bank and records it as preferred, or answers DENIED. -/
  | fwActivate (path : Machine.Path) (tag : Nat) (payload : List Byte)
  /-- R73: Edurn RESET sends its response and then starts a warm reset. -/
  | reset (path : Machine.Path) (tag : Nat) (payload : List Byte)
  /-- R55: Edurn COMPOSITE returns the composite IDs and the member bitmap. -/
  | composite (path : Machine.Path) (tag : Nat) (payload : List Byte)
  /-- R56: An Edurn frame with an unimplemented opcode, or with a bad CRC or length, is answered with an error
  status. `len`: LEN of the frame; `crcOk`: its CRC matches. -/
  | edurnOtherOpcode (opc : Nat) (path : Machine.Path) (tag len : Nat) (crcOk : Bool) (payload : List Byte)
  /-- R517: LIFECYCLE STATE returns the state, LC_USED, the owner slots used and the rollback counters. `payload`:
  the request after SUBOP, as in every LIFECYCLE command. -/
  | lifecycleState (path : Machine.Path) (tag : Nat) (payload : List Byte)
  /-- R516: LIFECYCLE NONCE draws and returns a new nonce, replacing the one held. -/
  | lifecycleNonce (path : Machine.Path) (tag : Nat) (payload : List Byte)
  /-- R516: A nonce expires 60 s after it is drawn. -/
  | nonceExpire
  /-- R518: LIFECYCLE TRANSITION checks the authorization, writes OTP, responds and runs the warm reset of R74. -/
  | lifecycleTransition (path : Machine.Path) (tag : Nat) (payload : List Byte)
  /-- R508: LIFECYCLE RB_COMMIT raises FW_RB and KEY_RB to those of the running image. -/
  | rbCommit (path : Machine.Path) (tag : Nat) (payload : List Byte)
  /-- R73: Writing 0xD7 to WARM_RST starts a warm reset: DMA stops, links go down and the start-up steps rerun. -/
  | warmRst (value : Word)
  /-- R61: A feed stays above 10.5 V for 1 ms, or a path closes after a loss of supply, and cold start begins.
  `feed`: 0 A, 1 B, the feed that is good or whose path closes; `repairs`: lanes repaired on each die-to-die link
  (R16). -/
  | coldStart (feed : Nat) (repairs : List Nat)
  /-- R77: The memory wipe and its verification end, start-up continues through table, image and READY, or enters
  FAULT. `ok`: every word read back; else `mem` and `addr` name the memory and the word that failed. -/
  | memoryWipeComplete (ok : Bool) (mem addr : Nat)
  /-- R63: An upstream port's PERST_N is deasserted, and link training follows once READY. `host`: the host group,
  whose number is the LVH of the upstream port. -/
  | upstreamPerstDeassert (host : Nat)
  /-- R87: A roll-call message is received on VC0 and flooded onward. `pref`, `anchor` and `id` are 64 where the
  message holds none. -/
  | rollCallRx (port serial prio pref anchor id : Nat)
  /-- R87: No new serial has been heard for 2 ms, so the anchor and standby are elected and composite IDs assigned.
  `cvhs`: the CVH table the anchor distributes (CVH, home, LVH); `lids`: member and MY_LID; `grants`: what other
  members answer to port map entries of the image (32 * VH + device; 0 granted, 1 CFG_EXP_BIND, 2 CFG_EXP_CACHE). -/
  | membershipStable (cvhs : List (Nat × Nat × Nat)) (lids grants : List (Nat × Nat))
  /-- R416: The standby takes the anchor heartbeat; hearing two anchors demotes one of them. IDs of anchor and
  standby, the epoch and the anchor's serial. -/
  | heartbeatRx (anchor standby epoch serial : Nat)
  /-- R416: Every 1 ms, the anchor sends HEARTBEAT to the standby. -/
  | heartbeatSend
  /-- R416: HB_LOSS passes without a heartbeat, so the standby takes over as anchor and a new standby is elected. -/
  | hbLossExpire
  /-- R416: A write of HANDOVER on the anchor moves the role to the standby at once. `told`: the standby learns of it
  from the anchor; else the write itself. -/
  | handover (told : Bool)
  /-- R104: A lane detects signal, which may also wake its domain. -/
  | laneSignalDetect (lane : Nat)
  /-- R104: A lane gains symbol lock during bring-up. -/
  | laneSymbolLock (lane : Nat)
  /-- R142: A lane loses symbol lock; LOCK_LOSS counts it and the lock-loss timing starts. -/
  | laneLockLoss (lane : Nat)
  /-- R103: Lane markers are decoded, and polarity, positions, reversal and the partner check are decided. `raw`: the
  64 bits as received. -/
  | laneMarkerRx (lane raw : Nat)
  /-- R107: The qualification time Q ends, lanes pass or fail, and substitution and width follow. `res`: bit errors
  and bits by index in the port; `pfail`: indices at which the partner reports FAIL, the port's width standing for
  the spare; `spare`: the spare's count, none without lock. -/
  | qualificationEnd (port : Nat) (res : List (Nat × Nat)) (pfail : List Nat) (spare : Option (Nat × Nat))
  /-- R104: A bring-up step misses its bound, the attempt ends and restarts, and LOCK_LOSS counts it. `step`: of
  R104; `lanes`: those that missed step 5. -/
  | bringupStepTimeout (port step : Nat) (lanes : List Nat)
  /-- R108: A port down for mismatch or for no qualifying width retries bring-up every 100 ms. -/
  | bringupRetryTimer (port : Nat)
  /-- R101: Every 1 ms, the background trim evaluates the last step and moves one receive parameter by one code.
  `errs`: pre-FEC symbol errors of the interval; `cw`: codewords corrected; `eye`: the eye height seen. -/
  | trimTick (lane errs cw eye : Nat)
  /-- R112: The pattern checker loses lock, raises PRBS_LOST and relocks. `errs`, `bits`: counted since the last
  report. -/
  | prbsLost (lane errs bits : Nat)
  /-- R112: A write of INJ_ONE injects one bit error. -/
  | injOne (lane : Nat)
  /-- R115: A write of EYE_START begins an eye scan, or ends at once with ABORTED. -/
  | eyeStart (lane : Nat)
  /-- R116: A write of EYE_ABORT ends a running scan with ABORTED. -/
  | eyeAbort (lane : Nat)
  /-- R115: An eye scan completes its grid and raises EYE_DONE. `errs`: the count of each grid point. -/
  | eyeScanDone (lane : Nat) (errs : List Nat)
  /-- R117: A write of SPARE_REQ asks for substitution at the next bring-up, or is refused. -/
  | spareReq (lane : Nat)
  /-- R110: A write of SPARE_REL releases a held substitution at the next bring-up. -/
  | spareRel (lane : Nat)
  /-- R135: A data flit passing its check is accepted, discarded as a duplicate, or answered with a NAK for a gap.
  The 64 bytes as received: the header, bytes 0 to 3, the payload and the check. -/
  | dataFlitRx (port : Nat) (b0 b1 b2 b3 : Byte) (body check : List Byte)
  /-- R127: A flit fails its CRC; a link flit is discarded and a data flit leads to a NAK. -/
  | flitCheckFail (port : Nat) (isData : Bool)
  /-- R137: An uncorrectable codeword leads to a NAK with REASON 2 and is counted toward FEC_UNCORR_HIGH. -/
  | rsUncorrectable (cw : Machine.BadCodewords)
  /-- R136: A STATUS link flit updates CREDIT and frees copies through ACK_SEQ. The 64 bytes as
  received: header, body and check. -/
  | statusRx (port : Nat) (header body check : List Byte)
  /-- R137: A NAK frees the copies before EXP_SEQ and starts a resend pass. The 64 bytes as received: those
  that the check covers, and the check. -/
  | nakRx (port : Nat) (covered check : List Byte)
  /-- R141: An INIT link flit is taken; the port sets RX_OK and becomes UP once both sides hold it. The 64 bytes as
  received: header, the credits, the partner's serial number, and the rest. -/
  | initRx (port : Nat) (header credits serial rest : List Byte)
  /-- R142: A RESET link flit declares the port down, or ends an attempt in INIT. -/
  | resetRx (rx : Machine.RxFlit)
  /-- R128: A link flit of a reserved type is discarded, counted and raises PROTO_ERR. -/
  | linkFlitReservedRx (port : Nat) (flit : List Byte)
  /-- R136: STATUS is sent after an accepted flit, after 64 flits, or every 100 ns. -/
  | statusSend (port : Nat)
  /-- R137: REPLAY_TMO / 4 passes without the expected flit, so the NAK is repeated. -/
  | nakRepeat (port : Nat)
  /-- R138: ACK_SEQ has not advanced for REPLAY_TMO, so a resend pass starts; REPLAY_MAX takes the link down. -/
  | replayTimeout (port : Nat)
  /-- R141: INIT is repeated every 1 µs until the port is UP. -/
  | initRepeat (port : Nat)
  /-- R141: The port has not become UP within 10 µs of step 8, so bring-up restarts. -/
  | initTimeout (port : Nat)
  /-- R142: A lane stays out of lock for LOCK_LOSS_TIME and the port is declared down. -/
  | lockLossTimeout (lane : Nat)
  /-- R142: No valid flit is decoded for LOCK_LOSS_TIME and the port is declared down with cause SILENT. -/
  | silentTimeout (port : Nat)
  /-- R143: A port is declared down: packets are abandoned or poisoned, LINK_DOWN is raised and RESET then idle are
  sent. `cause`: as DOWN_CAUSE. -/
  | linkDown (port cause : Nat)
  /-- R143: 10.4 µs after the declaration, electrical idle ends and bring-up restarts unless EN = 0. -/
  | linkResetIdleEnd (port : Nat)
  /-- R144: A write of LRESET starts a full link reset. -/
  | lreset (port : Nat)
  /-- R133: A write of LNK EN checks the harbour, then enables the port or takes it down. -/
  | portEnableWrite (port en : Nat)
  /-- R145: A write of WAKE_SEND sends the wake pattern on a down port. -/
  | wakeSend (port : Nat)
  /-- R145: The AON detector sees the wake pattern, raises WAKE_RX and requests ON. -/
  | wakePatternDetect (port : Nat)
  /-- R235: Every 200 ns, a weather report is sent on each UP port. -/
  | weatherSend (port : Nat)
  /-- R236: A weather report is stored as the latest for its port. -/
  | weatherRx (port : Nat) (flit : List Byte)
  /-- R236: A port's weather report becomes older than WX_STALE. -/
  | wxStale (port : Nat)
  /-- R148: An Ethernet frame is checked, prioritised, looked up in the gateway table and admitted or dropped.
  `frame`: FCS included. -/
  | ethFrameRx (port : Nat) (fcsOk : Bool) (frame : List Byte)
  /-- R149: A PFC frame pauses or resumes a priority. -/
  | pfcFrameRx (port prio quanta : Nat)
  /-- R147: A received PAUSE frame is counted and discarded. -/
  | pauseFrameRx (port : Nat)
  /-- R149: An XOFF PFC frame is repeated every half quanta while the cells stay above XOFF. -/
  | pfcRepeat (port prio : Nat)
  /-- R149: The received pause quanta expire and the priority resumes. -/
  | pfcQuantaExpire (port prio : Nat)
  /-- R149: A priority stays paused beyond PFC_WD. -/
  | pfcWatchdog (port prio : Nat)
  /-- R153: PCS_UP or HI_SER of an Ethernet port changes, raising ETH_UP, ETH_DOWN or HI_SER. -/
  | ethPcsChange (port : Nat) (pcs : Machine.PcsChange) (hiSer localFault remoteFault : Bool)
  /-- R160: In each cell time, each strait runs three request, grant and accept iterations and moves pointers. -/
  | straitMatch (strait : Nat)
  /-- R158: An egress island takes a descriptor in SSEQ order, holds it behind a gap, or discards a duplicate. -/
  | descriptorRx (strait inIsl egIsl sseq : Nat)
  /-- R185: An SSEQ gap stays open for 10 µs; the missing packet is ended and held descriptors are released. -/
  | reorderStall (inIsl egIsl : Nat)
  /-- R165: An acknowledgement is overdue, a transit ECC error is uncorrectable or the self-check fails, so the
  strait fails. `cause`: 0 an acknowledgement, 1 the ECC, 2 the self-check; `isl`: the island that saw it; `data`: the ECC
  of cell data, else of a descriptor. -/
  | straitFaultDetect (strait cause isl : Nat) (data : Bool)
  /-- R167: A write of STR_EN removes the strait from service, starts its self-test, or is refused. -/
  | strEnWrite (strait en : Nat)
  /-- R167: A strait being removed completes what it holds and reads OUT. -/
  | straitDrainDone (strait : Nat)
  /-- R165: The 50 µs self-test ends and the strait returns to service or stays FAILED. -/
  | straitSelftestDone (strait : Nat) (pass : Bool)
  /-- R170: A harbour cell read has an uncorrectable error, and its packet is ended or discarded. `pkt`: the packet
  that holds the cell. -/
  | harbourUncorrRead (seg cell pkt : Nat)
  /-- R28: A harbour segment being entered to RET or OFF has drained. -/
  | segmentDrainDone (seg : Nat)
  /-- R28: A segment drain exceeds 100 µs, so the entry is aborted with HBR_DRAIN. -/
  | segmentDrainTimeout (seg : Nat)
  /-- R183: A mirror copy is written as a record into its capture ring, or dropped at a full ring. -/
  | mirrorRecordWrite (session : Nat)
  /-- R186: A write of ISL_RESET starts an island reset, or joins one already running. -/
  | islReset (isl : Nat)
  /-- R186: A change of ISL TEST runs an island reset and holds or releases the ports. -/
  | islTestWrite (isl : Nat) (test : Bool)
  /-- R186: An island reset has freed the island's cells, and bring-up starts. -/
  | islandResetDone (isl : Nat)
  /-- R194: The egress port chooses the next unit among gated, strict and weighted queues, and charges shapers. -/
  | scheduleDecision (port : Nat)
  /-- R199: A calendar wheel slot comes due and its shaped queues are re-evaluated. -/
  | wheelSlotDue (isl : Nat)
  /-- R202: Fabric time reaches a gate entry boundary and the open queues change. -/
  | gateTransition (port : Nat)
  /-- R204: A write of SWITCH requests a switch to the other gate list. -/
  | gateSwitchRequest (port : Nat)
  /-- R214: READ copies a meter entry into the data words. -/
  | mtrRead (bank : Nat)
  /-- R214: WRITE checks a meter entry and puts it in force with full buckets. -/
  | mtrWrite (bank : Nat)
  /-- R214: READ_CLR copies a meter entry and clears its counters. -/
  | mtrReadClr (bank : Nat)
  /-- R237: A head waits ESC_WAIT without credit and moves to the escape sub-channel. -/
  | escWaitTimeout (pkt : Nat)
  /-- R247: A held packet reaches ROUTE_HOLD and is discarded as unroutable. -/
  | routeHoldExpire (pkt : Nat)
  /-- R248: REJOIN after LINK_UP passes and the port rejoins PORT_UP. -/
  | portRejoin (port : Nat)
  /-- R245: A virtual lane holds flits without credit for STUCK_WD. -/
  | stuckLane (port vl : Nat)
  /-- R250: A write of SWAP makes the inactive routing set active at every island. -/
  | swap (isl : Nat)
  /-- R252: TBL_READ copies a routing table entry into TBL_DATA. -/
  | tblRead (isl : Nat)
  /-- R252: TBL_WRITE writes TBL_DATA into an entry of the inactive or single-set tables, or is refused. -/
  | tblWrite (isl : Nat)
  /-- R264: A KIND 0 doorbell sets a send queue's producer index. `vh`, `slice`: function and doorbell page written;
  `wide`: a 64-bit write; `entries`: the ring slots it makes posted, as they stand in memory. -/
  | sqDoorbell (vh slice : Nat) (wide : Bool) (num kind index : Nat) (entries : List (List Byte))
  /-- R264: A KIND 1 doorbell sets a receive queue's producer index. As SQ_DOORBELL. -/
  | rqDoorbell (vh slice : Nat) (wide : Bool) (num kind index : Nat) (entries : List (List Byte))
  /-- R264: A KIND 2 doorbell sets a completion queue's consumer index. -/
  | cqConsumerDoorbell (vh slice : Nat) (wide : Bool) (num kind index : Nat)
  /-- R266: A KIND 3 doorbell arms a completion queue. -/
  | cqArmDoorbell (vh slice : Nat) (wide : Bool) (num kind : Nat)
  /-- R266: A KIND 4 doorbell arms a completion queue for solicited completions only. -/
  | cqArmSolDoorbell (vh slice : Nat) (wide : Bool) (num kind : Nat)
  /-- R270: An engine starts a posted WQE of a QP as window, pacing and pinning allow. -/
  | wqeStart (qpn : Nat)
  /-- R270: A requester sends the next packet with its PSN, within OUT_MAX, ORD_MAX and pacing. -/
  | requestPacketSend (qpn : Nat)
  /-- R280: A responder classifies and executes a SEND packet and consumes a receive entry or matches it. -/
  | sftSendRx (p : SftPkt)
  /-- R280: A responder classifies, checks and executes a WRITE packet. -/
  | sftWriteRx (p : SftPkt)
  /-- R280: A responder executes a READ_REQ and records it, or answers a duplicate from the record. -/
  | sftReadReqRx (p : SftPkt)
  /-- R282: A responder executes an atomic and records it, or answers a duplicate from the record. -/
  | sftAtomicRx (p : SftPkt)
  /-- R283: A responder takes a NOTIFY and writes a RECV_NOTIFY CQE. -/
  | sftNotifyRx (p : SftPkt)
  /-- R340: A rendezvous finish NOTIFY completes the awaiting WQE, OK or REM_OP. -/
  | rndvFinishRx (p : SftPkt)
  /-- R271: An ACK advances UNA_PSN and completes WQEs, bridge writes and rendezvous sends. -/
  | ackRx (r : SftResp)
  /-- R274: An RNR_NAK stops the QP's sending until RNR_US passes. -/
  | rnrNakRx (r : SftResp)
  /-- R273: A SEQ_NAK acknowledges earlier PSNs and starts a resend pass. -/
  | seqNakRx (r : SftResp)
  /-- R275: A NAK of INV_REQ, ACCESS_ERR, REM_OP_ERR or KEY_STALE completes the WQE in error and moves the QP to
  ERROR. -/
  | errorNakRx (r : SftResp)
  /-- R286: A RESYNC makes an RD sender resend from UNA_PSN with SYNC. -/
  | resyncRx (r : SftResp)
  /-- R271: A read response is written to local memory, frees its reservation and advances UNA_PSN. -/
  | readRespRx (r : SftResp)
  /-- R271: An atomic response writes the returned value and completes the atomic. -/
  | atomicRespRx (r : SftResp)
  /-- R272: RTO_US expires, so the requester resends from UNA_PSN or enters ERROR at RETRY_MAX. `key`: 0 for RC, else
  1 + LID × 2^24 + QPN of the RD peer. -/
  | retransmitTimeout (qpn key : Nat)
  /-- R274: RNR_US passes and the requester resends from the NAK's PSN. `key`: as RETRANSMIT_TIMEOUT. -/
  | rnrWaitExpire (qpn key : Nat)
  /-- R276: A gap persists for RTO_US / 4, so the responder repeats its SEQ_NAK. `key`: as RETRANSMIT_TIMEOUT. -/
  | seqNakRepeat (qpn key : Nat)
  /-- R279: ACK_NS passes after an ACKREQ packet and the responder sends an ACK. `key`: as RETRANSMIT_TIMEOUT. -/
  | ackTimer (qpn key : Nat)
  /-- R284: RECOVER_US passes without an ECE and RATE_CUR rises by RATE_STEP. -/
  | rateRecover (qpn : Nat)
  /-- R290: A context or record fetch completes and its parked packets execute, or the QP enters ERROR. `ok`: without
  an uncorrectable error or host completion error; `ns`: how long it took. -/
  | contextFetchDone (qpn : Nat) (ok : Bool) (ns : Nat)
  /-- R290: A fetch overruns its bound. -/
  | fetchSlow (qpn : Nat)
  /-- R291: Lagoon cells free up and a packet on the miss list parks, returning its credit. -/
  | lagoonAdmit (tpe : Nat)
  /-- R286: An RD peer record unused for RD_IDLE_MS is evicted. -/
  | peerRecordIdleEvict (qpn key : Nat)
  /-- R433: A completion for a host read arrives; a quarantined or unmatched one is dropped or reported. `ok`:
  successful status. -/
  | hostCompletionRx (vh tag : Nat) (ok : Bool) (data : List Byte)
  /-- R433: A host read reaches CTO and its operation ends with HOST_DMA_ERR. -/
  | hostReadTimeout (vh tag : Nat)
  /-- R296: QUERY returns a QP context with its private bytes as zero. -/
  | qpQuery
  /-- R269: CREATE takes a QP from free to RESET. -/
  | qpCreate
  /-- R269: MODIFY moves a QP between states as R269 permits. -/
  | qpModify
  /-- R269: DESTROY returns a QP in RESET or ERROR to free. -/
  | qpDestroy
  /-- R256: RANGE_READ returns a range table entry. -/
  | rangeRead
  /-- R256: RANGE_WRITE checks and writes a range table entry. -/
  | rangeWrite
  /-- R266: CQ_CREATE makes a CQ context ready. -/
  | cqCreate
  /-- R266: CQ_DESTROY returns a CQ to free. -/
  | cqDestroy
  /-- R296: CQ_QUERY returns a CQ context. -/
  | cqQuery
  /-- R304: REG takes a free index, copies the page list and returns a key. `pages`: the page list as read from host
  memory; `ok`: the read succeeded. -/
  | reg (pages : List Nat) (ok : Bool)
  /-- R304: REREG replaces a region's mapping and increments its generation. As REG. -/
  | rereg (pages : List Nat) (ok : Bool)
  /-- R304: DEREG invalidates a region and returns its index to the free list. -/
  | dereg
  /-- R304: QUERY copies a region entry into CMD_DATA. -/
  | mrgQuery
  /-- R304: INVAL_SLICE deregisters every valid region of a slice. -/
  | invalSlice
  /-- R305: The last access under an old generation retires and MRG_CMD_DONE is raised. -/
  | mrgRetireDone
  /-- R306: A translation fetch completes and the parked packet proceeds. `ok`: the entry had no uncorrectable error. -/
  | xltFetchDone (qpn : Nat) (ok : Bool)
  /-- R328: RD_LIVE copies a fast window's live entry into WIN_DATA. -/
  | winRdLive
  /-- R328: RD_SHADOW copies a fast window's shadow entry into WIN_DATA. -/
  | winRdShadow
  /-- R328: WR_SHADOW writes WIN_DATA into the shadow entry. -/
  | winWrShadow
  /-- R308: COMMIT checks a fast window's shadow and swaps it in at a packet boundary. -/
  | winCommit
  /-- R328: DISCARD copies the live entry into the shadow entry. -/
  | winDiscard
  /-- R308: The last access under an earlier mapping of a window retires and FENCE_DONE sets. `reach`: a
  reach-through window, else a fast window. -/
  | windowFenceDone (reach : Bool) (win : Nat)
  /-- R329: RD_LIVE copies a reach-through window's live entry into BW_DATA. -/
  | brgRdLive
  /-- R329: RD_SHADOW copies a reach-through window's shadow entry. -/
  | brgRdShadow
  /-- R329: WR_SHADOW writes BW_DATA into the shadow entry. -/
  | brgWrShadow
  /-- R309: COMMIT checks a reach-through window and swaps it in at a TLP boundary. -/
  | brgWinCommit
  /-- R329: DISCARD copies the live reach-through entry into its shadow. -/
  | brgDiscard
  /-- R319: ERR_CLR clears the indexed window's error latch. -/
  | errClr
  /-- R329: GRP_RD copies a live window group entry into GRP_DATA. -/
  | grpRd
  /-- R329: GRP_WR writes GRP_DATA into the shadow group entry. -/
  | grpWr
  /-- R310: GRP_COMMIT checks and puts a window group in force. -/
  | grpCommit
  /-- R311: A memory write into a window is carried as an SFT WRITE, or dropped and latched. `ofs`: aperture offset
  of the first byte; `be`: its byte enables. -/
  | brgMemWriteTlp (vh ofs : Nat) (data : List Byte) (be : List Bool)
  /-- R312: A memory read into a window takes a tag and issues READ segments, or is served from prefetch. `req`:
  requester ID; `ofs`: aperture offset; `len`: bytes, 0 for a zero-length read. -/
  | brgMemReadTlp (vh req tag ofs len : Nat)
  /-- R312: A tag frees and a waiting read is issued. -/
  | brgQueuedReadIssue
  /-- R315: A PCIe AtomicOp through a window is carried as an SFT atomic or refused. `kind`: 0 FetchAdd, 1 Swap, 2
  CAS; `size`: operand bytes. -/
  | brgAtomicopTlp (vh req tag ofs kind size op1 op2 : Nat)
  /-- R316: MRdLk takes the window semaphore for its requester. -/
  | brgLockedRead (vh req tag ofs len : Nat)
  /-- R316: The holder's Unlock message releases the window semaphore. -/
  | brgUnlockMsg (vh req : Nat)
  /-- R312: A bridged read reaches RD_TMO and completes with CA. `id`: which read of the bridge. -/
  | brgRdTimeout (id : Nat)
  /-- R316: LOCK_TMO releases the semaphore and latches the window. -/
  | winLockTmo (win : Nat)
  /-- R314: A prefetch block reaches PF_AGE and is discarded. `ofs`: aperture offset of the block. -/
  | pfAgeExpire (win ofs : Nat)
  /-- R321: The message endpoint takes a NOTIFY and delivers, pends or discards the message write. -/
  | messageNotifyRx (p : SftPkt)
  /-- R322: A write into the forward range is sent as a NOTIFY to the target node. -/
  | fwdRangeWrite (vh ofs : Nat) (data : List Byte)
  /-- R330: READ copies a message map entry into MAP_DATA. -/
  | mapRead
  /-- R330: WRITE checks and writes a map entry; unmasking delivers a pending message. -/
  | mapWrite
  /-- R324: WIRE_COMMIT opens the changed sideband connections. -/
  | wireCommit
  /-- R324: 100 ns later, the new connections close and WIRE_MAP_DONE is raised. -/
  | wireCommitComplete
  /-- R324: An edge on a watched slot wire raises WIRE_EDGE. `wire`: 0 PERST_N, 1 WAKE_N, 2 PRSNT_N, 3 CLKREQ_N, 4
  ALERT_N. -/
  | slotWireEdge (slot wire : Nat) (level : Bool)
  /-- R335: CTX_QUERY returns a match context entry. -/
  | ctxQuery (mte : Nat)
  /-- R335: CTX_CREATE makes a match context valid. -/
  | ctxCreate (mte : Nat)
  /-- R335: CTX_DESTROY cancels posted receives, discards unexpected entries and frees the context. -/
  | ctxDestroy (mte : Nat)
  /-- R341: A match doorbell sets the producer index of the slice's match post ring. `entries`: the ring entries it
  makes posted, as they stand in memory. -/
  | matchDoorbell (vh slice : Nat) (wide : Bool) (index : Nat) (entries : List (List Byte))
  /-- R342: A POST entry matches an unexpected message or is entered in the posted-receive list. -/
  | matchPost (slice : Nat)
  /-- R342: A PROBE entry reports the unexpected entry that a POST would take. -/
  | matchProbe (slice : Nat)
  /-- R342: A CANCEL entry removes the oldest posted receive with its WR_ID. -/
  | matchCancel (slice : Nat)
  /-- R348: An overflow list fetch completes and the waiting match operation resolves. `ctx`: index of the context
  whose oldest waiting operation resolves. -/
  | overflowFetchDone (mte ctx : Nat)
  /-- R391: GRP_READ returns a collective group entry. -/
  | grpRead (cle : Nat)
  /-- R363: GRP_CREATE checks and creates a collective group with its reservations. -/
  | grpCreate (cle : Nat)
  /-- R363: GRP_MODIFY changes a group's mode, trees or state. -/
  | grpModify (cle : Nat)
  /-- R363: GRP_DESTROY frees an idle group. -/
  | grpDestroy (cle : Nat)
  /-- R391: CHILD_READ returns a child entry. -/
  | childRead (cle : Nat)
  /-- R359: CHILD_WRITE writes a child entry. -/
  | childWrite (cle : Nat)
  /-- R391: MEMBER_READ returns a member slot entry. -/
  | memberRead (cle : Nat)
  /-- R364: MEMBER_BIND binds a slot to a rank and slice. -/
  | memberBind (cle : Nat)
  /-- R364: MEMBER_UNBIND unbinds a slot. -/
  | memberUnbind (cle : Nat)
  /-- R365: A collective doorbell sets a member slot's producer index, or is dropped. `entries`: the descriptors it
  makes posted, as they stand in memory. -/
  | collDoorbell (vh slice : Nat) (wide : Bool) (slot index : Nat) (entries : List (List Byte))
  /-- R367: A unit takes the next descriptor of a slot once the previous one is complete, and checks, arms or
  launches it. -/
  | collDescriptorStart (slot : Nat)
  /-- R374: An UP block is combined into its slot, and forwarded or decided at the root. -/
  | collUpRx (port : Nat) (p : CollPkt)
  /-- R370: A DOWN block is forwarded, written to members and completed, and opens the window for further UP blocks. -/
  | collDownRx (port : Nat) (p : CollPkt)
  /-- R383: A FAULT is forwarded on the alternate tree and decided at the root. -/
  | collFaultRx (port : Nat) (p : CollPkt)
  /-- R385: An ABORT discards the partials and re-executes the instance on the alternate tree. -/
  | collAbortRx (port : Nat) (p : CollPkt)
  /-- R386: A GO_ON makes upper ends of failed edges redeliver the DOWN blocks they hold. -/
  | collGoOnRx (port : Nat) (p : CollPkt)
  /-- R386: A REDELIVER block is kept by its target and forwarded down, or only forwarded. -/
  | collRedeliverRx (port : Nat) (p : CollPkt)
  /-- R387: No ABORT or GO_ON arrives within FAULT_TMO and the group fails. -/
  | collFaultTimeout (group : Nat)
  /-- R387: An instance has not completed within OP_TMO and the group fails. -/
  | collOpTimeout (group : Nat)
  /-- R400: A TLP or CXL.mem message on an EXP port is routed within its VH, through a peer window or composite
  carriage. -/
  | expTlpRx (idx : Nat) (t : Machine.Tlp)
  /-- R397: A configuration request reaches a switch function or a network function. `be`: the byte enables. -/
  | configRequest (vh : Nat) (type1 wr : Bool) (bus dev fn off be data req tag : Nat)
  /-- R409: A hot reset or DL down on an upstream port resets its VH. `far`: the home of the CVH `vh` tells of it. -/
  | vhHotReset (far : Bool) (vh : Nat)
  /-- R399: BIND checks and binds a downstream port or LD to a device number of a VH. `far`: the home of the CVH `vh`
  asks it of a local port; else on the VHC page of `vh`, with `grant` what the port's device answers where it is
  another. -/
  | bind (far : Bool) (vh grant dexp ld : Nat)
  /-- R399: UNBIND isolates a downstream port and presents a surprise removal. As BIND. -/
  | unbind (far : Bool) (vh dexp ld : Nat)
  /-- R399: The 100 ms after an unbind pass and a waiting BIND completes. -/
  | bindHoldoffEnd (idx : Nat)
  /-- R420: PW_CMD RD_LIVE copies a peer window's live entry. -/
  | pwRdLive
  /-- R420: PW_CMD RD_SHADOW copies a peer window's shadow entry. -/
  | pwRdShadow
  /-- R420: PW_CMD WR_SHADOW writes PW_DATA into the shadow entry. -/
  | pwWrShadow
  /-- R403: PW_CMD COMMIT checks and swaps in a peer window. -/
  | pwCommit
  /-- R420: PW_CMD DISCARD copies the live peer window into its shadow. -/
  | pwDiscard
  /-- R407: A write of ISO_SET isolates a downstream port. -/
  | isoSet (idx : Nat)
  /-- R408: A write of ISO_REL gives the fabric manager's release of an isolated port. `host`: the host's release,
  told by the home of the VH. -/
  | isoRel (host : Bool) (idx : Nat)
  /-- R407: A DPC trigger or a surprise down isolates a downstream port. `far`: told of a port at another member,
  bound as `dev` of `vh`. -/
  | dpcTrigger (far surprise : Bool) (idx vh dev : Nat)
  /-- R422: DL_ACTIVE of an EXP port rises or falls. `lds`: logical devices of the device; `t`: what link training
  settled on the lanes. -/
  | expDlChange (idx : Nat) (up : Bool) (speed width : Nat) (cxl : Bool) (lds : Nat) (t : Machine.Training)
  /-- R406: A write of EXP_EN checks the harbour and enables or disables the port. -/
  | expEnWrite (idx : Nat) (value : Word)
  /-- R414: A composite stream packet is accepted, fenced by PFENCE, or discarded with an ACK or NAK. -/
  | compositePacketRx (p : Machine.CompPkt)
  /-- R414: A composite ACK frees the acknowledged packets of the stream. -/
  | compositeAckRx (src cls ackSeq : Nat)
  /-- R414: A composite NAK resends the stream from the oldest unacknowledged packet. -/
  | compositeNakRx (src cls ackSeq : Nat)
  /-- R414: A composite ACK is sent within 1 µs of acceptance or after 32 packets. -/
  | compositeAckSend (src cls : Nat)
  /-- R414: CMP_RTO passes without an advance, so the stream resends or, at CMP_RETRY, the member is unreachable. -/
  | cmpRtoExpire (member cls : Nat)
  /-- R415: A cross-member non-posted request gets no completion within CPL_TMO and is completed CA. `vh`: 256 + EXP
  index for a request of a local port to the home of its VH. -/
  | cplTmoExpire (vh member req tag : Nat)
  /-- R411: A DX7-owned PRSNT_N changes Presence Detect State. -/
  | slotPrsntChange (slot : Nat) (level : Bool)
  /-- R411: A falling edge of an owned WAKE_N sends PM_PME toward the VH. -/
  | slotWakeEdge (slot : Nat)
  /-- R411: A falling edge of an owned ALERT_N raises EXP_ALERT. -/
  | slotAlertEdge (slot : Nat)
  /-- R551: CLKREQ_N changes and the slot reference clock starts or stops. -/
  | slotClkreqChange (slot : Nat) (level : Bool)
  /-- R411: 100 µs after the last holding condition ends, an owned slot PERST_N is deasserted. -/
  | perstDeassertTimer (idx : Nat)
  /-- R435: Clearing Bus Master Enable stops the function's requests and aborts its slices. -/
  | bmeClear (vh : Nat)
  /-- R437: Initiate FLR resets the network function and its slices. -/
  | initiateFlr (vh : Nat)
  /-- R437: Configuration space returns to defaults and FUN_FLR_DONE is raised. -/
  | flrComplete (vh : Nat)
  /-- R436: Entry of the function to D3hot acts as clearing Bus Master Enable. -/
  | d3hotEntry (vh : Nat)
  /-- R436: A return of the function to D0 acts as FLR. -/
  | d0Return (vh : Nat)
  /-- R435: A quarantined read tag is released at T0 + 2 × CTO. -/
  | tagQuarantineEnd (vh tag : Nat)
  /-- R439: CREATE binds a FREE slice to a VH and PASID. -/
  | sliceCreate (slice : Nat)
  /-- R440: QUIESCE stops the slice taking new work. -/
  | sliceQuiesce (slice : Nat)
  /-- R440: The quiescing slice's active counts reach zero and it enters QUIESCED. -/
  | sliceDrained (slice : Nat)
  /-- R440: QUIESCE_TMO passes with the slice still QUIESCING. -/
  | sliceQuiesceTmo (slice : Nat)
  /-- R440: RESUME returns the slice to ACTIVE and serves recorded doorbells. -/
  | sliceResume (slice : Nat)
  /-- R441: RESET performs the slice reset on a QUIESCED or HOST_ABORTED slice. -/
  | sliceReset (slice : Nat)
  /-- R442: FORCE_RESET fences the slice, ends its operations FENCED, and performs the slice reset. -/
  | sliceForceReset (slice : Nat)
  /-- R441: REMOVE performs the slice reset, clears its ranges and returns it to FREE. -/
  | sliceRemove (slice : Nat)
  /-- R441: The slice reset ends, the slice is QUIESCED and SLICE_RESET_DONE is raised. -/
  | sliceResetComplete (slice : Nat)
  /-- R444: A command doorbell sets the command ring producer index. `entries`: the ring entries it makes posted, as
  they stand in memory. -/
  | commandDoorbell (vh slice : Nat) (wide : Bool) (index : Nat) (entries : List (List Byte))
  /-- R444: The DX7 serves the next command ring entry of a slice and posts CMD_DONE. `data`: the entry's buffer and
  `pages`: a page list, as read from host memory; `ok`: the page list could be read. -/
  | commandRingEntry (slice : Nat) (data : List Byte) (pages : List Nat) (ok : Bool)
  /-- R445: An event ring doorbell sets the consumer index and may arm the vector. -/
  | eventRingDoorbell (vh slice value : Nat)
  /-- R445: Unmasking a vector sends a message pending in the PBA. -/
  | msixUnmask (vh vec : Nat)
  /-- R434: A Translation Completion fills the cache, or leads to a Page Request or a failure. `pasid`: 2^20 for
  none; `to_`: the page it translates to. -/
  | atsTranslationCompletion (vh pasid page : Nat) (ok : Bool) (to_ : Nat) (read write : Bool)
  /-- R434: A Page Request group response lets a waiting ring access retry. -/
  | prgResponse (vh pasid page : Nat) (ok : Bool)
  /-- R434: 1 ms passes without a page response and the ring faults. -/
  | pageRequestTimeout (vh pasid page : Nat)
  /-- R434: An Invalidate Request invalidates cache entries. -/
  | atsInvalidateRequest (vh itag pasid page pages : Nat)
  /-- R434: Requests that used the invalidated entries retire and the invalidation completes. -/
  | atsInvalidateComplete (vh itag : Nat)
  /-- R457: Every TIME_INT, a TIME flit is sent on each UP port with TIME_EN. -/
  | timeFlitSend (port : Nat)
  /-- R458: A TIME flit updates delay, offset, grandmaster, parent and time state. -/
  | timeFlitRx (port : Nat) (flit : List Byte)
  /-- R454: Every 1 ms, a grandmaster increments GM_ROUND. -/
  | gmRoundTick
  /-- R454: A grandmaster record has not advanced for 3 ms and becomes stale. -/
  | gmRecordStale (port : Nat)
  /-- R459: HOLDOVER_MS passes in HOLDOVER and VALID clears. -/
  | holdoverExpire
  /-- R462: An FT_PPS_IN rising edge is timestamped and may set or steer fabric time. -/
  | ppsInEdge
  /-- R462: No FT_PPS_IN edge for 2 s sets CLASS to 1. -/
  | ppsInLost
  /-- R462: At each whole second of fabric time, FT_PPS_OUT rises for PPS_OUT_W. -/
  | ppsOutSecond
  /-- R470: SET_GO sets fabric time on the grandmaster, at once or at the next PPS edge. -/
  | setGo
  /-- R463: PHASE_LOAD_GO loads the phase count. -/
  | phaseLoadGo
  /-- R471: READ copies a horizon entry into HZ_DATA. -/
  | hznRead
  /-- R468: WRITE puts HZ_DATA into an unarmed entry. -/
  | hznWrite
  /-- R468: ARM checks and arms a horizon entry, firing or skipping a passed moment. -/
  | arm
  /-- R471: DISARM disarms a horizon entry. -/
  | disarm
  /-- R466: A time-axis or phase-axis moment is reached and the entry's action runs. -/
  | horizonFire
  /-- R475: A feed rises above 8.0 V or falls below 7.5 V. `feed`: 0 A, 1 B, as in every command on feeds. -/
  | feedPresentChange (feed : Nat) (present : Bool)
  /-- R476: A feed has met its conditions for 1 ms and becomes good. -/
  | feedGood (feed : Nat)
  /-- R477: The active feed falls below SW_LEVEL and a switchover starts if the other feed is good. -/
  | feedBelowSwLevel
  /-- R476: A write of SWITCH_NOW starts a switchover. -/
  | switchNow
  /-- R476: PRI_FEED has been good for RETURN_MS and PC0 switches back. -/
  | feedSwitchBack
  /-- R478: A closed path meets a trip condition and opens. `cause`: as CAUSE of R478; `peak`: current in 100 mA, or
  voltage in 10 mV. -/
  | efuseTrip (feed cause peak : Nat)
  /-- R478: A tripped path is confirmed open and enters RETRY_WAIT. -/
  | pathOpenConfirmed (feed : Nat)
  /-- R479: RETRY_PERIOD_MS passes and the path makes an attempt once its feed is in range. -/
  | retryPeriodExpire (feed : Nat)
  /-- R479: The bank reaches the feed voltage less 0.5 V and the path is ON. -/
  | inrushChargeComplete (feed : Nat)
  /-- R479: TRIP_CLR_A or TRIP_CLR_B ends a path's RETRY_WAIT or LOCKOUT. -/
  | tripClr (feed : Nat)
  /-- R481: VBANK falls below UV_WARN and throttling starts. -/
  | dipBegin
  /-- R481: VBANK stays above UV_WARN + 200 mV for 10 µs and SUPPLY_WARN is raised. -/
  | dipEnd (minMv : Nat)
  /-- R481: 1 ms after a dip ends, the throttle is released. -/
  | throttleEnd
  /-- R483: VBANK falls below UV_RESET: PG_OUT is withdrawn, rails are shed and AON holds up. -/
  | lossOfSupply
  /-- R485: The bank falls below 3.0 V in hold-up and AON loses power. -/
  | aonPowerLoss
  /-- R486: PC0 acknowledges a rail request and the transition proceeds. -/
  | plinkAck (dom : Nat)
  /-- R486: A rail request gets no acknowledgement within 50 µs and is repeated, aborted or fails PLINK. -/
  | plinkRequestTimeout (dom : Nat)
  /-- R486: Every 10 µs, PC0 reports feed measurements. in the units of the PWR page; `mj`: energy taken in since the
  last report. -/
  | plinkMeasurementReport (vinA vinB iinA iinB vbank pIn mj : Nat)
  /-- R492: A write with REQ_GO requests a domain state, started, pended or replaced. -/
  | pwrReq (value : Word)
  /-- R491: A domain transition completes, held writes are applied and the pending request starts. -/
  | domainTransitionDone (dom : Nat)
  /-- R493: An enabled wake source aborts an entry or starts a return to ON. `code`: 0x40 to 0x43. -/
  | domainWake (dom code : Nat)
  /-- R511: An SPDM GET_VERSION request is answered. `ep`: 0 DOE of the management function, 1 to 16 DOE of a
  function, 17 MCTP over PCIe, 18 MCTP over I3C. -/
  | spdmGetVersion (ep : Nat)
  /-- R511: An SPDM GET_CAPABILITIES request is answered. -/
  | spdmGetCapabilities (ep : Nat)
  /-- R511: An SPDM NEGOTIATE_ALGORITHMS request is answered. -/
  | spdmNegotiateAlgorithms (ep : Nat)
  /-- R511: An SPDM GET_DIGESTS request is answered. -/
  | spdmGetDigests (ep : Nat)
  /-- R511: An SPDM GET_CERTIFICATE request returns slot 0. -/
  | spdmGetCertificate (ep slot offset length : Nat)
  /-- R511: An SPDM CHALLENGE is signed with the identity key. -/
  | spdmChallenge (ep slot summary : Nat) (context : List Byte)
  /-- R513: An SPDM GET_MEASUREMENTS returns the measurement blocks. -/
  | spdmGetMeasurements (ep op : Nat) (signed : Bool) (context : List Byte)
  /-- R511: Any other SPDM request is answered with ERROR. -/
  | spdmOtherRequest (ep code : Nat)
  /-- R512: The MCTP control command Set Endpoint ID is served. -/
  | setEndpointId (ep op eid : Nat)
  /-- R512: The MCTP control command Get Endpoint ID is served. -/
  | getEndpointId (ep : Nat)
  /-- R512: The MCTP control command Get MCTP Version Support is served. -/
  | getMctpVersionSupport (ep type : Nat)
  /-- R512: The MCTP control command Get Message Type Support is served. -/
  | getMessageTypeSupport (ep : Nat)
  /-- R425: A DOE Discovery object is answered. -/
  | doeDiscovery (vh index : Nat)
  /-- R523: The patrol scrub reads and corrects words, and handles an uncorrectable one. `corrected`: the error was
  corrected; else it was not. A parity error of a table is never corrected but restored. -/
  | patrolScrub (word : Machine.EccSite) (corrected : Bool)
  /-- R526: Loss of the main clock or of harbour control stops every transmitter and sets FAULT. `clock`: the main
  clock is lost; else harbour control. -/
  | deviceFaultDetect (clock : Bool)
  /-- R527: A watchdog miss or an uncorrectable MP word restarts the management processor. `uncorr`: an uncorrectable
  word; else a missed sign of life. -/
  | mpWatchdogMiss (uncorr : Bool)
  /-- R539: LOG_CLR empties the trouble log. -/
  | logClr
  /-- R531: RD_GO copies the trouble log entry RD_SEQ into LOG_DATA. -/
  | rdGo
  /-- R532: Once an hour, ring oscillators and lane margins are measured. `roPpm`: AGE_RO_PPM by island; `margins`:
  lane and margin of each lane read. -/
  | agingMeasure (roPpm : List Nat) (margins : List (Nat × Nat))
  /-- R532: Every TREND_DAYS, an entry is added to each island's aging history. -/
  | agingTrendPeriod
  /-- R535: GO starts a check-value job, or is refused. -/
  | chkGo (job : Nat)
  /-- R536: ABORT ends a running job. `bytes`: how many were read before; `data`: those of host memory. -/
  | chkAbort (job bytes : Nat) (data : List Byte)
  /-- R536: A job reads its last byte, or fails, and raises CHK_JOB_DONE or CHK_JOB_ERR. `ended`: 0 every byte read,
  1 a host read failed, 2 an uncorrectable package memory word after `bytes` bytes; `data`: what host memory
  answered. -/
  | chkJobComplete (job ended bytes : Nat) (data : List Byte)
  /-- R537: Every WATCH_US, a watch job rereads its record and compares the alive counter. `data`: the record, of a
  host scan. -/
  | chkWatchReread (job : Nat) (data : List Byte)
  /-- R556: Every 100 µs, the hottest sensor sets WARN, throttle or a thermal fault. `temps`: the ten readings of
  R498 in 0.1 degrees. -/
  | thermalSample (temps : List Int)
  /-- R556: Every sensor has read below 95 °C for 1 s and the throttle ends. -/
  | thermalThrottleEnd
  /-- R557: A warm reset requested during a thermal fault starts once every sensor is below 90 °C. -/
  | deferredWarmReset
  /-- R550: VIO changes by more than 10 % or crosses 0.7 V, and is re-sensed. -/
  | vioChange (mv : Nat)
  /-- R476: A feed that is not active leaves the range SW_LEVEL to OV_TRIP and stops being good, so no switchover or
  switch-back can use it. -/
  | feedNotGood (feed : Nat)
  /-- R479: After RETRY_PERIOD_MS, a path in RETRY_WAIT makes its attempt once its feed has lain between SW_LEVEL and
  OV_TRIP for 1 ms, closing under INRUSH_A or becoming STANDBY. -/
  | retryAttempt (feed : Nat)
  /-- R193: A PCIe flow-control credit update from the link partner arrives on an EXP port and makes queued TLPs
  eligible again, which releases fenced composite packets behind them. `cls`: 1 posted, 2 non-posted, 3 completion, 4
  CXL.mem; limits in headers and in units of 16 B since the link came up. -/
  | expFlowControlCreditRx (port cls hdr data : Nat)
  /-- R428: The function writes a slice's H fields through its BAR2 block, and the value is applied or refused with
  CFG_SLC_RANGE. `reg`: offset in the slice's block of BAR2. -/
  | hostSliceRegisterWrite (vh slice reg : Nat) (value : Word)
deriving DecidableEq, Repr

end Sys2Proof
end

