-- ==== Sys2Proof/Config.lean ====
section
/-!
DEFINITION. What the spec leaves open, as constants without a body: nothing can be proved of their values. Each is named in
notes/assumptions.
-/

namespace Sys2Proof.Config

/-- The free values of the model: the value number `n` that the spec leaves open (log entry 10). -/
opaque freeValue : Nat → BitVec 64

/-- A free byte string: byte `i` of the string number `n` (nonces, R516; log entry 10). -/
opaque freeByte : Nat → Nat → Byte

/-- Ed25519 verification (IETF RFC 8032, R505, R516) of a message and signature under a public key (log entry 11). -/
opaque ed25519Verify : List Byte → List Byte → List Byte → Bool

/-- Ed25519 signature (IETF RFC 8032, R511) of a message under a private seed (log entry 11). -/
opaque ed25519Sign : List Byte → List Byte → List Byte

/-- The Ed25519 public key of a private seed (R509; log entry 11). -/
opaque ed25519Public : List Byte → List Byte

/-- SHA-512 (NIST FIPS 180-4, R505; log entry 11). -/
opaque sha512 : List Byte → List Byte

/-- SHA-512 of the boot ROM (measurement 1, R513; log entry 11). -/
opaque romDigest : List Byte

/-- Where probe `i` of the peer record hash of a remote LID and QPN looks (R286; log entry 29). -/
opaque peerProbe : Nat → Nat → Nat → BitVec 32

/-- The weight of user `u` of rank `k` in the round-robin of the memory path, served requests per turn (R19; log entry 174). -/
opaque memWeight (k u : Nat) : Nat

/-- The check bits that the inner code of SFL2-S adds to 120 bits (R122; log entry 189). -/
opaque innerCheck : BitVec 120 → BitVec 10

/-- The check bits of a descriptor over its bits above them (R157; log entry 191). -/
opaque descEcc : Nat → BitVec 8

/-- The flow hash that this device sets for a flow, named by what makes it one (R219; log entry 197). -/
opaque flowHash : List Nat → BitVec 16

/-- The port number of an EXP index of another member of the composite (R404, R412; log entry 208). -/
opaque farPort (member idx : Nat) : BitVec 8

/-- The cells that a home member has for completions of requests to other members (R415; log entry 126). -/
opaque cplRoom : Nat

/-- The body of a management packet that carries some fields (R52, R416; log entry 197). -/
opaque mgmtBody : List Nat → List Byte

end Sys2Proof.Config
end

