-- ==== Sys2Proof/Machine/Bits.lean ====
section
/-!
DEFINITION. Bit fields of register words and byte orders (R9: bit 0 is the least significant; registers and memory
structures are little-endian, wires most significant byte first).
-/

namespace Sys2Proof.Machine

/-- The `wd` bits of a word from bit `lo` up, as a number. -/
def getBits (w : Word) (lo wd : Nat) : Nat := (w.toNat >>> lo) % 2 ^ wd

/-- A word whose `wd` bits from bit `lo` up are those of `v`, the other bits unchanged. -/
def setBits (w : Word) (lo wd v : Nat) : Word :=
  (w &&& ~~~(BitVec.ofNat 32 (2 ^ wd - 1) <<< lo)) ||| (BitVec.ofNat 32 (v % 2 ^ wd) <<< lo)

/-- Bits `lo` to `lo + wd - 1` of a number. -/
def bitsOf (n lo wd : Nat) : Nat := (n >>> lo) % 2 ^ wd

/-- Bit `i` of a number, as a Bool. -/
def bitOf (n i : Nat) : Bool := n.testBit i

/-- A number with bit `i` set. -/
def setBit (n i : Nat) : Nat := n ||| 2 ^ i

/-- A number with bit `i` clear. -/
def clrBit (n i : Nat) : Nat := if n.testBit i then n - 2 ^ i else n

/-- A number with bit `i` as given. -/
def putBit (n i : Nat) (b : Bool) : Nat := if b then setBit n i else clrBit n i

/-- A Bool as a one-bit field. -/
def bnat (b : Bool) : Nat := if b then 1 else 0

/-- The `k` low bytes of a number, least significant first (R9, registers and memory). -/
def leBytes : Nat → Nat → List Byte
  | 0, _ => []
  | k + 1, n => BitVec.ofNat 8 n :: leBytes k (n / 256)

/-- The number whose bytes, least significant first, are given (R9). -/
def ofLe : List Byte → Nat
  | [] => 0
  | b :: bs => b.toNat + 256 * ofLe bs

/-- The `k` low bytes of a number, most significant first (R9, wires; R54, Edurn frames). -/
def beBytes (k n : Nat) : List Byte := (leBytes k n).reverse

/-- The number whose bytes, most significant first, are given. -/
def ofBe (bs : List Byte) : Nat := ofLe bs.reverse

/-- The value of an `n`-bit two's complement field. -/
def toSigned (n v : Nat) : Int := if v < 2 ^ (n - 1) then v else (v : Int) - 2 ^ n

/-- An integer as an `n`-bit two's complement field. -/
def ofSigned (n : Nat) (v : Int) : Nat := (v % (2 ^ n : Int)).toNat

end Sys2Proof.Machine
end

