-- ==== Sys2Proof/Machine/Codes.lean ====
section
/-!
DEFINITION. The event codes of every block with the page and PG_EVT_RAW bit that carry them (R528, R564), the
configuration errors (R30 and the chapters), and the codes of the slice event rings (R267).
-/

namespace Sys2Proof.Machine

/-- An event: the page type it rises on, its PG_EVT_RAW bit and its code (R565). -/
structure Ev where
  ty : Nat
  bit : Nat
  code : Nat
deriving DecidableEq, Repr

namespace Ev

/-- R59: A unicast write is dropped at a member in OFF. -/
def WR_OFF_DROP : Ev := ⟨0x0, 16, 0x0050⟩
/-- R59: A write finds its domain's held-write queue full. -/
def HOLD_OVF : Ev := ⟨0x0, 17, 0x0051⟩
/-- R59: A composite window access fails or times out. -/
def REMOTE_TMO : Ev := ⟨0x0, 18, 0x0052⟩
/-- R59: A mailbox response is ready. -/
def MBX_DONE : Ev := ⟨0x0, 19, 0x0053⟩
/-- R118: The lane failed qualification (R107). -/
def QUAL_FAIL : Ev := ⟨0x8, 3, 0x0801⟩
/-- R118: The spare took a position (R109); raised on the spare lane. -/
def SPARE_IN : Ev := ⟨0x8, 4, 0x0802⟩
/-- R118: The port came up narrower than configured; raised on its lowest lane. -/
def PORT_NARROWED : Ev := ⟨0x8, 5, 0x0803⟩
/-- R118: The partner check of R106 failed. -/
def PARTNER_MISMATCH : Ev := ⟨0x8, 6, 0x0804⟩
/-- R118: An image substitution failed (R111). -/
def SPARE_REFUSED : Ev := ⟨0x8, 7, 0x0805⟩
/-- R118: The trim reached its bound (R101). -/
def TRIM_LIMIT : Ev := ⟨0x8, 8, 0x0806⟩
/-- R118: A scan ended. -/
def EYE_DONE : Ev := ⟨0x8, 9, 0x0807⟩
/-- R118: The checker lost lock. -/
def PRBS_LOST : Ev := ⟨0x8, 10, 0x0808⟩
/-- R153: The port became UP (R141). -/
def LINK_UP : Ev := ⟨0xA, 3, 0x0A01⟩
/-- R153: The port was declared down (R143). -/
def LINK_DOWN : Ev := ⟨0xA, 4, 0x0A02⟩
/-- R153: The wake pattern was detected (R145). -/
def WAKE_RX : Ev := ⟨0xA, 5, 0x0A03⟩
/-- R153: A reserved link flit type or a flit without credit was received. -/
def PROTO_ERR : Ev := ⟨0xA, 6, 0x0A04⟩
/-- R153: FEC_UNCORR_THRESH was exceeded in 1 ms. -/
def FEC_UNCORR_HIGH : Ev := ⟨0xA, 7, 0x0A05⟩
/-- R153: INIT did not complete (R141). -/
def INIT_FAIL : Ev := ⟨0xA, 8, 0x0A06⟩
/-- R153: PCS_UP rose. -/
def ETH_UP : Ev := ⟨0xB, 3, 0x0B01⟩
/-- R153: PCS_UP fell. -/
def ETH_DOWN : Ev := ⟨0xB, 4, 0x0B02⟩
/-- R153: HI_SER rose. -/
def HI_SER : Ev := ⟨0xB, 5, 0x0B03⟩
/-- R153: A priority was paused beyond PFC_WD (R149). -/
def PFC_WATCHDOG : Ev := ⟨0xB, 6, 0x0B04⟩
/-- R190: An island reset freed the island's cells (R186). -/
def ISLAND_RESET_DONE : Ev := ⟨0x9, 3, 0x0901⟩
/-- R190: A frame was refused at exhausted ETH headroom (R174). -/
def HDRM_DROP : Ev := ⟨0x9, 4, 0x0902⟩
/-- R190: A gap of R158 stayed open for 10 µs (R185). -/
def REORDER_STALL : Ev := ⟨0x9, 5, 0x0903⟩
/-- R190: The strait failed (R166). -/
def STRAIT_FAILED : Ev := ⟨0xC, 3, 0x0C01⟩
/-- R190: The strait returned to service. -/
def STRAIT_IN_SERVICE : Ev := ⟨0xC, 4, 0x0C02⟩
/-- R190: The self-test failed. -/
def STRAIT_SELFTEST_FAIL : Ev := ⟨0xC, 5, 0x0C03⟩
/-- R190: An uncorrectable word was read (R170). -/
def HBR_ECC_UNCORR : Ev := ⟨0xD, 3, 0x0D01⟩
/-- R190: SHARED_FREE fell below SHARED_LOW. -/
def HBR_SHARED_LOW : Ev := ⟨0xD, 4, 0x0D02⟩
/-- R190: A record was dropped at a full ring. -/
def MIR_RING_FULL : Ev := ⟨0x1D, 3, 0x1D01⟩
/-- R190: A copy was dropped (R182). -/
def MIR_COPY_DROP : Ev := ⟨0x1D, 4, 0x1D02⟩
/-- R215: The active list changed (R204). -/
def GATE_SWITCHED : Ev := ⟨0xE, 3, 0x0E01⟩
/-- R215: A packet longer than M reached a gated queue (R205). -/
def GATE_OVERSIZE : Ev := ⟨0xE, 4, 0x0E02⟩
/-- R215: FALLBACK_MASK went into use (R206). -/
def GATE_FALLBACK : Ev := ⟨0xE, 5, 0x0E03⟩
/-- R215: The gate position was recomputed after a fabric time step. -/
def TIME_STEP : Ev := ⟨0xE, 6, 0x0E04⟩
/-- R215: A meter entry could not be restored (R211). -/
def MTR_TABLE_ERR : Ev := ⟨0xF, 3, 0x0F01⟩
/-- R253: A packet was discarded by R220, R228 or R247. -/
def ROUTE_UNROUTABLE : Ev := ⟨0x10, 3, 0x1001⟩
/-- R253: A packet reached HOP_LIMIT. -/
def HOP_LIMIT : Ev := ⟨0x10, 4, 0x1002⟩
/-- R253: An escape route broke up*/down* (R240). -/
def ESC_VIOLATION : Ev := ⟨0x10, 5, 0x1003⟩
/-- R253: Fast reroute applied for a port (R246). -/
def REROUTE : Ev := ⟨0x10, 6, 0x1004⟩
/-- R253: The first packet switched to layer 2 since the last swap. -/
def LAYER2_IN_USE : Ev := ⟨0x10, 7, 0x1005⟩
/-- R253: The sets were swapped. -/
def EPOCH_SWAPPED : Ev := ⟨0x10, 8, 0x1006⟩
/-- R253: An entry could not be restored (R222). -/
def RTE_TABLE_ERR : Ev := ⟨0x10, 9, 0x1007⟩
/-- R253: R245. -/
def STUCK_LANE : Ev := ⟨0x10, 10, 0x1008⟩
/-- R253: A port's weather report went stale. -/
def WX_STALE : Ev := ⟨0x10, 11, 0x1009⟩
/-- R297: An event entry found its ring full. -/
def RING_OVF : Ev := ⟨0x11, 3, 0x1101⟩
/-- R297: A duplicate was not in the record (R277). -/
def RECORD_MISS : Ev := ⟨0x11, 4, 0x1102⟩
/-- R297: A QPC command completed. -/
def CMD_DONE : Ev := ⟨0x12, 3, 0x1201⟩
/-- R297: R291. -/
def LAGOON_FULL : Ev := ⟨0x12, 4, 0x1202⟩
/-- R297: R292. -/
def CTX_ECC_UNCORR : Ev := ⟨0x12, 5, 0x1203⟩
/-- R297: A fetch overran its bound (R290). -/
def FETCH_SLOW : Ev := ⟨0x12, 6, 0x1204⟩
/-- R331: An MRG command completed (R304, R305). -/
def MRG_CMD_DONE : Ev := ⟨0x13, 3, 0x1301⟩
/-- R331: XLT_FREE fell below XLT_LOW. -/
def XLT_STORE_LOW : Ev := ⟨0x13, 4, 0x1302⟩
/-- R331: A region entry was uncorrectable (R306). -/
def MRG_ENTRY_ERR : Ev := ⟨0x13, 5, 0x1303⟩
/-- R331: A fast window's fence completed. -/
def WIN_FENCE_DONE : Ev := ⟨0x14, 3, 0x1401⟩
/-- R331: A reach-through window's fence completed. -/
def BRG_FENCE_DONE : Ev := ⟨0x15, 3, 0x1501⟩
/-- R331: A window latched (R318). -/
def WIN_LATCHED : Ev := ⟨0x15, 4, 0x1502⟩
/-- R331: A read reached RD_TMO. -/
def BRG_RD_TIMEOUT : Ev := ⟨0x15, 5, 0x1503⟩
/-- R331: A watched slot wire changed. -/
def WIRE_EDGE : Ev := ⟨0x15, 6, 0x1504⟩
/-- R331: A map commit completed. -/
def WIRE_MAP_DONE : Ev := ⟨0x15, 7, 0x1505⟩
/-- R331: A message found no entry. -/
def MAP_MISS : Ev := ⟨0x16, 3, 0x1601⟩
/-- R331: A map entry could not be restored. -/
def MAP_TABLE_ERR : Ev := ⟨0x16, 4, 0x1602⟩
/-- R355: An arrival was refused by R351. -/
def MATCH_UX_FULL : Ev := ⟨0x17, 3, 0x1701⟩
/-- R355: A POST completed MATCH_FULL. -/
def MATCH_PRQ_FULL : Ev := ⟨0x17, 4, 0x1702⟩
/-- R355: R336. -/
def CTX_MISS : Ev := ⟨0x17, 5, 0x1703⟩
/-- R355: A context command completed. -/
def MATCH_CMD_DONE : Ev := ⟨0x17, 6, 0x1704⟩
/-- R355: A context became FAILED (R351). -/
def MATCH_ECC_UNCORR : Ev := ⟨0x17, 7, 0x1705⟩
/-- R355: UX_POOL_FREE fell below UX_POOL_LOW. -/
def UX_POOL_LOW : Ev := ⟨0x17, 8, 0x1706⟩
/-- R392: A tree port of a valid group went down (R383). -/
def COLL_FAULT : Ev := ⟨0x18, 3, 0x1801⟩
/-- R392: An instance was aborted and re-executed (R385). -/
def COLL_ABORTED : Ev := ⟨0x18, 4, 0x1802⟩
/-- R392: A group entered FAILED (R387). -/
def COLL_GROUP_FAILED : Ev := ⟨0x18, 5, 0x1803⟩
/-- R392: An instance failed with MISMATCH. -/
def COLL_MISMATCH : Ev := ⟨0x18, 6, 0x1804⟩
/-- R392: A command completed. -/
def COLL_CMD_DONE : Ev := ⟨0x18, 7, 0x1805⟩
/-- R392: R381. -/
def COLL_HZN_EMPTY : Ev := ⟨0x18, 8, 0x1806⟩
/-- R392: R390. -/
def COLL_ECC_UNCORR : Ev := ⟨0x18, 9, 0x1807⟩
/-- R422: DL_ACTIVE rose. -/
def EXP_LINK_UP : Ev := ⟨0x19, 3, 0x1901⟩
/-- R422: DL_ACTIVE fell. -/
def EXP_LINK_DOWN : Ev := ⟨0x19, 4, 0x1902⟩
/-- R422: R407 step 4. -/
def EXP_ISOLATED : Ev := ⟨0x19, 5, 0x1903⟩
/-- R422: R408. -/
def EXP_RELEASED : Ev := ⟨0x19, 6, 0x1904⟩
/-- R422: An ALERT_N edge on an owned wire (R411). -/
def EXP_ALERT : Ev := ⟨0x19, 7, 0x1905⟩
/-- R422: First poisoned TLP forwarded in 1 ms. -/
def EXP_POISON : Ev := ⟨0x19, 8, 0x1906⟩
/-- R422: A BIND completed. -/
def DSP_BOUND : Ev := ⟨0x1A, 3, 0x1A01⟩
/-- R422: An UNBIND completed. -/
def DSP_UNBOUND : Ev := ⟨0x1A, 4, 0x1A02⟩
/-- R422: A peer window's fence completed. -/
def PEER_FENCE_DONE : Ev := ⟨0x1A, 5, 0x1A03⟩
/-- R422: R409. -/
def VH_HOT_RESET : Ev := ⟨0x1A, 6, 0x1A04⟩
/-- R422: This device took over as anchor. -/
def CMP_TAKEOVER : Ev := ⟨0x1F, 3, 0x1F01⟩
/-- R422: R417. -/
def CMP_DEMOTED : Ev := ⟨0x1F, 4, 0x1F02⟩
/-- R422: A member became unreachable. -/
def CMP_MEMBER_LOST : Ev := ⟨0x1F, 5, 0x1F03⟩
/-- R422: A member joined the composite. -/
def CMP_MEMBER_JOINED : Ev := ⟨0x1F, 6, 0x1F04⟩
/-- R449: R437 step 5. -/
def FUN_FLR_DONE : Ev := ⟨0x1B, 3, 0x1B01⟩
/-- R449: R435 step 4, or D3hot entry (R436). -/
def FUN_BME_OFF : Ev := ⟨0x1B, 4, 0x1B02⟩
/-- R449: An event ring page could not be translated (R434). -/
def FUN_PRG_FAIL : Ev := ⟨0x1B, 5, 0x1B03⟩
/-- R449: R440 step 3. -/
def SLICE_DRAINED : Ev := ⟨0x1C, 3, 0x1C01⟩
/-- R449: R440. -/
def SLICE_QUIESCE_TMO : Ev := ⟨0x1C, 4, 0x1C02⟩
/-- R449: R441, R442. -/
def SLICE_RESET_DONE : Ev := ⟨0x1C, 5, 0x1C03⟩
/-- R449: R435 step 3. -/
def SLICE_HOST_ABORT : Ev := ⟨0x1C, 6, 0x1C04⟩
/-- R472: VALID set. -/
def FT_VALID : Ev := ⟨0x2, 3, 0x0201⟩
/-- R472: VALID cleared (R459). -/
def FT_INVALID : Ev := ⟨0x2, 4, 0x0202⟩
/-- R472: A step (R459). -/
def FT_STEPPED : Ev := ⟨0x2, 5, 0x0203⟩
/-- R472: LOCKED entered. -/
def FT_LOCKED : Ev := ⟨0x2, 6, 0x0204⟩
/-- R472: R460. -/
def FT_UNLOCKED : Ev := ⟨0x2, 7, 0x0205⟩
/-- R472: HOLDOVER entered. -/
def FT_HOLDOVER : Ev := ⟨0x2, 8, 0x0206⟩
/-- R472: R455. -/
def FT_PARENT_CHANGE : Ev := ⟨0x2, 9, 0x0207⟩
/-- R472: R454. -/
def FT_GM_CHANGE : Ev := ⟨0x2, 10, 0x0208⟩
/-- R472: R462. -/
def PPS_IN_LOST : Ev := ⟨0x2, 11, 0x0209⟩
/-- R472: R467. -/
def HZN_LATE : Ev := ⟨0x3, 3, 0x0301⟩
/-- R472: R467. -/
def HZN_MISSED : Ev := ⟨0x3, 4, 0x0302⟩
/-- R472: R465. -/
def HZN_ACTION_FAIL : Ev := ⟨0x3, 5, 0x0303⟩
/-- R499: A switchover or switch-back completed (R477). -/
def FEED_SWITCHED : Ev := ⟨0x1, 3, 0x0101⟩
/-- R499: A path tripped (R478). -/
def FEED_TRIP : Ev := ⟨0x1, 4, 0x0102⟩
/-- R499: A path entered LOCKOUT (R479). -/
def FEED_LOCKOUT : Ev := ⟨0x1, 5, 0x0103⟩
/-- R499: An attempt succeeded (R479). -/
def FEED_RESTORED : Ev := ⟨0x1, 6, 0x0104⟩
/-- R499: A dip ended (R481). -/
def SUPPLY_WARN : Ev := ⟨0x1, 7, 0x0105⟩
/-- R499: R482. -/
def SUPPLY_ESCALATE : Ev := ⟨0x1, 8, 0x0106⟩
/-- R499: A transition aborted on PLINK (R486). -/
def PLINK_TIMEOUT : Ev := ⟨0x1, 9, 0x0107⟩
/-- R499: R486. -/
def PLINK_FAILED : Ev := ⟨0x1, 10, 0x0108⟩
/-- R499: A domain transition completed (R491). -/
def PWR_DONE : Ev := ⟨0x1, 11, 0x0109⟩
/-- R499: An entry was refused or aborted (R494). -/
def PWR_REFUSED : Ev := ⟨0x1, 12, 0x010A⟩
/-- R499: READY was reached after a loss of supply (R483). -/
def SUPPLY_LOST : Ev := ⟨0x1, 13, 0x010B⟩
/-- R521: FW_ACTIVATE recorded a bank (R507). -/
def FW_ACTIVATED : Ev := ⟨0x4, 3, 0x0401⟩
/-- R521: FW_ACTIVATE answered DENIED. -/
def FW_ACTIVATE_FAIL : Ev := ⟨0x4, 4, 0x0402⟩
/-- R521: READY was reached after a transition (R518). -/
def LC_TRANSITION : Ev := ⟨0x4, 5, 0x0403⟩
/-- R521: A LIFECYCLE sub-command was refused. -/
def LC_DENIED : Ev := ⟨0x4, 6, 0x0404⟩
/-- R521: RB_COMMIT raised a counter (R508). -/
def RB_ADVANCED : Ev := ⟨0x4, 7, 0x0405⟩
/-- R521: An authorization failed (R516). -/
def AUTH_FAIL : Ev := ⟨0x4, 8, 0x0406⟩
/-- R542: R527. -/
def MP_RESTART : Ev := ⟨0x0, 3, 0x0022⟩
/-- R542: An uncorrectable AON SRAM word (R522). -/
def AON_ECC_UNCORR : Ev := ⟨0x0, 4, 0x0023⟩
/-- R542: R526; logged, and delivered over I3C EVENTS. -/
def DEVICE_FAULT : Ev := ⟨0x0, 5, 0x0024⟩
/-- R542: LOG_COUNT reached LOG_WARN_LEVEL. -/
def LOG_FILLING : Ev := ⟨0x5, 3, 0x0501⟩
/-- R542: R529. -/
def LOG_STOPPED : Ev := ⟨0x5, 4, 0x0502⟩
/-- R542: R533. -/
def AGING_WARN : Ev := ⟨0x5, 5, 0x0503⟩
/-- R542: R533. -/
def MARGIN_WARN : Ev := ⟨0x5, 6, 0x0504⟩
/-- R542: R536. -/
def CHK_JOB_DONE : Ev := ⟨0x6, 3, 0x0601⟩
/-- R542: R537. -/
def CHK_ALIVE_FLAG : Ev := ⟨0x6, 4, 0x0602⟩
/-- R542: R536. -/
def CHK_JOB_ERR : Ev := ⟨0x6, 5, 0x0603⟩
/-- R542: R524. -/
def PKM_ECC_UNCORR : Ev := ⟨0x1E, 3, 0x1E01⟩
/-- R542: An uncorrectable stack link error (R15). -/
def PKM_LINK_UNCORR : Ev := ⟨0x1E, 4, 0x1E02⟩
/-- R16: A link passed its corrected-error threshold. -/
def D2D_CORR_THRESH : Ev := ⟨0x0, 6, 0x0020⟩
/-- R15: An uncorrectable die-to-die error. -/
def D2D_UNCORR : Ev := ⟨0x0, 7, 0x0021⟩
/-- R90: The non-preferred bank was booted. -/
def BOOT_FALLBACK : Ev := ⟨0x0, 20, 0x0054⟩
/-- R90: Neither bank booted. -/
def BOOT_RECOVERY : Ev := ⟨0x0, 21, 0x0055⟩
/-- R90: The secondary table copy is in use. -/
def TABLE_SECONDARY : Ev := ⟨0x0, 22, 0x0056⟩
/-- R90: Neither board table copy passed. -/
def TABLE_DEFAULT : Ev := ⟨0x0, 23, 0x0057⟩
/-- R90: Wipe verification failed. -/
def WIPE_FAIL : Ev := ⟨0x0, 24, 0x0058⟩
/-- R90: The active image was refused at start-up. -/
def IMG_APPLY_FAIL : Ev := ⟨0x0, 29, 0x005D⟩
/-- R90: This device became anchor. -/
def ANCHOR_ELECTED : Ev := ⟨0x0, 30, 0x005E⟩
/-- R90: A joiner was refused at 64 members. -/
def COMPOSITE_FULL : Ev := ⟨0x0, 31, 0x005F⟩
/-- R118: An island record was refused. -/
def TABLE_ISLAND_REFUSED : Ev := ⟨0x0, 8, 0x0060⟩

/-- Every event of the spec (R528, R564). -/
def all : List Ev :=
  [WR_OFF_DROP, HOLD_OVF, REMOTE_TMO, MBX_DONE, QUAL_FAIL,
   SPARE_IN, PORT_NARROWED, PARTNER_MISMATCH, SPARE_REFUSED, TRIM_LIMIT,
   EYE_DONE, PRBS_LOST, LINK_UP, LINK_DOWN, WAKE_RX,
   PROTO_ERR, FEC_UNCORR_HIGH, INIT_FAIL, ETH_UP, ETH_DOWN]
  ++ [HI_SER, PFC_WATCHDOG, ISLAND_RESET_DONE, HDRM_DROP, REORDER_STALL,
   STRAIT_FAILED, STRAIT_IN_SERVICE, STRAIT_SELFTEST_FAIL, HBR_ECC_UNCORR, HBR_SHARED_LOW,
   MIR_RING_FULL, MIR_COPY_DROP, GATE_SWITCHED, GATE_OVERSIZE, GATE_FALLBACK,
   TIME_STEP, MTR_TABLE_ERR, ROUTE_UNROUTABLE, HOP_LIMIT, ESC_VIOLATION]
  ++ [REROUTE, LAYER2_IN_USE, EPOCH_SWAPPED, RTE_TABLE_ERR, STUCK_LANE,
   WX_STALE, RING_OVF, RECORD_MISS, CMD_DONE, LAGOON_FULL,
   CTX_ECC_UNCORR, FETCH_SLOW, MRG_CMD_DONE, XLT_STORE_LOW, MRG_ENTRY_ERR,
   WIN_FENCE_DONE, BRG_FENCE_DONE, WIN_LATCHED, BRG_RD_TIMEOUT, WIRE_EDGE]
  ++ [WIRE_MAP_DONE, MAP_MISS, MAP_TABLE_ERR, MATCH_UX_FULL, MATCH_PRQ_FULL,
   CTX_MISS, MATCH_CMD_DONE, MATCH_ECC_UNCORR, UX_POOL_LOW, COLL_FAULT,
   COLL_ABORTED, COLL_GROUP_FAILED, COLL_MISMATCH, COLL_CMD_DONE, COLL_HZN_EMPTY,
   COLL_ECC_UNCORR, EXP_LINK_UP, EXP_LINK_DOWN, EXP_ISOLATED, EXP_RELEASED]
  ++ [EXP_ALERT, EXP_POISON, DSP_BOUND, DSP_UNBOUND, PEER_FENCE_DONE,
   VH_HOT_RESET, CMP_TAKEOVER, CMP_DEMOTED, CMP_MEMBER_LOST, CMP_MEMBER_JOINED,
   FUN_FLR_DONE, FUN_BME_OFF, FUN_PRG_FAIL, SLICE_DRAINED, SLICE_QUIESCE_TMO,
   SLICE_RESET_DONE, SLICE_HOST_ABORT, FT_VALID, FT_INVALID, FT_STEPPED]
  ++ [FT_LOCKED, FT_UNLOCKED, FT_HOLDOVER, FT_PARENT_CHANGE, FT_GM_CHANGE,
   PPS_IN_LOST, HZN_LATE, HZN_MISSED, HZN_ACTION_FAIL, FEED_SWITCHED,
   FEED_TRIP, FEED_LOCKOUT, FEED_RESTORED, SUPPLY_WARN, SUPPLY_ESCALATE,
   PLINK_TIMEOUT, PLINK_FAILED, PWR_DONE, PWR_REFUSED, SUPPLY_LOST]
  ++ [FW_ACTIVATED, FW_ACTIVATE_FAIL, LC_TRANSITION, LC_DENIED, RB_ADVANCED,
   AUTH_FAIL, MP_RESTART, AON_ECC_UNCORR, DEVICE_FAULT, LOG_FILLING,
   LOG_STOPPED, AGING_WARN, MARGIN_WARN, CHK_JOB_DONE, CHK_ALIVE_FLAG,
   CHK_JOB_ERR, PKM_ECC_UNCORR, PKM_LINK_UNCORR, D2D_CORR_THRESH, D2D_UNCORR]
  ++ [BOOT_FALLBACK, BOOT_RECOVERY, TABLE_SECONDARY, TABLE_DEFAULT, WIPE_FAIL,
   IMG_APPLY_FAIL, ANCHOR_ELECTED, COMPOSITE_FULL, TABLE_ISLAND_REFUSED]

end Ev

namespace Cfg

/-- R30. -/
def BL_UNSUPPORTED : Nat := 0x40
/-- R30. -/
def CFG_X16_SPLIT : Nat := 0x41
/-- R30. -/
def CFG_REACH_PERS : Nat := 0x42
/-- R30. -/
def CFG_DOMAIN_NOT_ON : Nat := 0x43
/-- R30. -/
def CFG_HBR_OVERCOMMIT : Nat := 0x44
/-- R30. -/
def CFG_ROUTE_CLASS : Nat := 0x45
/-- R30. -/
def CFG_UNIT_OFF : Nat := 0x46
/-- R30. -/
def CFG_DT_LIMIT : Nat := 0x47
/-- R30. -/
def CFG_PORT_WIDTH : Nat := 0x48
/-- R30. -/
def CFG_TREE_PORT : Nat := 0x49
/-- R30. -/
def CFG_SPARE_PERS : Nat := 0x4A
/-- R30. -/
def CFG_GROUP_BUSY : Nat := 0x4B
/-- R48. -/
def CFG_COMMIT_BUSY : Nat := 0x4C
/-- R48. -/
def CFG_LOCKED : Nat := 0x4D
/-- R48. -/
def CFG_BLOCK_ENABLED : Nat := 0x4E
/-- R90. -/
def CFG_BL_LIVE : Nat := 0x4F
/-- R90. -/
def IMG_INCOMPLETE : Nat := 0x59
/-- R90. -/
def IMG_CRC : Nat := 0x5A
/-- R90. -/
def IMG_LEVEL : Nat := 0x5B
/-- R90. -/
def IMG_SECTION : Nat := 0x5C
/-- R118. -/
def CFG_LANE_LIVE : Nat := 0x61
/-- R118. -/
def CFG_SPARE_BUSY : Nat := 0x62
/-- R118. -/
def CFG_EQ_RANGE : Nat := 0x63
/-- R118. -/
def CFG_EYE_SEL : Nat := 0x64
/-- R118. -/
def CFG_LANE_RANGE : Nat := 0x8A
/-- R190. -/
def CFG_STRAIT_LAST : Nat := 0x66
/-- R190. -/
def CFG_HBR_RANGE : Nat := 0x67
/-- R190. -/
def CFG_MIR_RING : Nat := 0x68
/-- R190. -/
def CFG_MIR_PORT : Nat := 0x69
/-- R190. -/
def CFG_STR_RANGE : Nat := 0x8B
/-- R215. -/
def CFG_SCH_RANGE : Nat := 0x6A
/-- R215. -/
def CFG_GATE_LIST : Nat := 0x6B
/-- R215. -/
def CFG_MTR_RANGE : Nat := 0x6C
/-- R254. -/
def CFG_RTE_RANGE : Nat := 0x6D
/-- R254. -/
def CFG_RTE_ACTIVE : Nat := 0x6E
/-- R298. -/
def CFG_TPE_RANGE : Nat := 0x6F
/-- R298. -/
def CFG_QPC_RANGE : Nat := 0x70
/-- R332. -/
def CFG_MRG_RANGE : Nat := 0x71
/-- R332. -/
def CFG_WIN_RANGE : Nat := 0x72
/-- R332. -/
def CFG_BRG_RANGE : Nat := 0x73
/-- R332. -/
def CFG_MAP_RANGE : Nat := 0x74
/-- R332. -/
def CFG_WIRE_MAP : Nat := 0x75
/-- R393. -/
def CFG_CLE_RANGE : Nat := 0x77
/-- R393. -/
def CFG_COLL_SLOTS : Nat := 0x78
/-- R393. -/
def CFG_COLL_PHASE : Nat := 0x79
/-- R423. -/
def CFG_EXP_RANGE : Nat := 0x7A
/-- R423. -/
def CFG_EXP_INDEX : Nat := 0x7B
/-- R423. -/
def CFG_EXP_BIND : Nat := 0x7C
/-- R423. -/
def CFG_PEER_WIN : Nat := 0x7D
/-- R423. -/
def CFG_EXP_CACHE : Nat := 0x7E
/-- R423. -/
def CFG_CMP_RANGE : Nat := 0x7F
/-- R450. -/
def CFG_SLC_RANGE : Nat := 0x80
/-- R450. -/
def CFG_FUN_RANGE : Nat := 0x81
/-- R473. -/
def CFG_TIM_RANGE : Nat := 0x82
/-- R473. -/
def CFG_HZN_RANGE : Nat := 0x83
/-- R473. -/
def CFG_HZN_ARMED : Nat := 0x84
/-- R543. -/
def CFG_CHK_RANGE : Nat := 0x86
/-- R543. -/
def CFG_LOG_RANGE : Nat := 0x87
/-- R154. -/
def CFG_LNK_RANGE : Nat := 0x65
/-- R356. -/
def CFG_MTE_RANGE : Nat := 0x76
/-- R500. -/
def CFG_PWR_RANGE : Nat := 0x85
/-- R23. -/
def CFG_PKM_AREA : Nat := 0x88
/-- R58. -/
def CFG_DEV_RANGE : Nat := 0x89

end Cfg

namespace RingEv

/-- R297: a slice ring code (R267). -/
def CQ_EVENT : Nat := 0x1110
/-- R297: a slice ring code (R267). -/
def QP_FATAL : Nat := 0x1111
/-- R297: a slice ring code (R267). -/
def RETRY_EXCEEDED : Nat := 0x1112
/-- R297: a slice ring code (R267). -/
def KEY_GEN_STALE : Nat := 0x1113
/-- R297: a slice ring code (R267). -/
def REM_ACCESS_ERR : Nat := 0x1114
/-- R297: a slice ring code (R267). -/
def DEFERRED_WRITE_ERR : Nat := 0x1115
/-- R297: a slice ring code (R267). -/
def CQ_OVERFLOW : Nat := 0x1116
/-- R297: a slice ring code (R267). -/
def CTX_FETCH_ERR : Nat := 0x1117
/-- R297: a slice ring code (R267). -/
def SQ_DRAINED : Nat := 0x1118
/-- R297: a slice ring code (R267). -/
def DOORBELL_BAD : Nat := 0x1119
/-- R297: a slice ring code (R267). -/
def PEER_LIMIT : Nat := 0x111A
/-- R331: a slice ring code (R267). -/
def WIN_WRITE_ERR : Nat := 0x1510
/-- R331: a slice ring code (R267). -/
def WIN_LOCK_TMO : Nat := 0x1511
/-- R355: a slice ring code (R267). -/
def MATCH_DISCARD : Nat := 0x1710
/-- R392: a slice ring code (R267). -/
def COLL_DONE : Nat := 0x1810
/-- R449: a slice ring code (R267). -/
def RING_FAULT : Nat := 0x1C11

end RingEv

end Sys2Proof.Machine
end

