-- ==== Sys2Proof/Machine/Field.lean ====
section
/-!
DEFINITION. What a row of a register table says of a field (R11): where it lies, how it may be accessed, and what it holds
after a cold and a warm reset.
-/

namespace Sys2Proof.Machine

/-- The access codes of the register tables (00, Register pages); `staged` marks the shadow copy of an rwc field (R44). -/
inductive Acc where
  | rw | ro | rz | w1c | w1s | wo | rc | rws | rwo | rwc | staged
deriving DecidableEq, Repr

/-- The value of a field after a cold reset without an image and with board-table defaults (R11, R69, R100). -/
inductive Init where
  | lit (n : Nat)
  | elems (l : List Nat)
  | instMod (k : Nat)
  | instDiv (k : Nat)
  | instIs (k r : Nat)
  | instEq (k : Nat)
  | typ | inst | bcastOk | staged | domain
deriving DecidableEq, Repr

/-- What the Warm column says (R11): as after a cold reset, kept, or loaded again from the image or the board table. -/
inductive Warm where
  | cold | kept | image | table
deriving DecidableEq, Repr

/-- Whether the Cold column reads image or table (R81, R69). -/
inductive Src where
  | no | image | table
deriving DecidableEq, Repr

/-- One row of a register table. An array has `count` elements `stride` bytes apart. -/
structure Fld where
  ty : Nat
  off : Nat
  lo : Nat
  wd : Nat
  acc : Acc
  init : Init
  warm : Warm
  aonKept : Bool
  src : Src
  stride : Nat
  count : Nat
deriving DecidableEq, Repr

/-- The element of a field that lies at a page offset. -/
def fldIdx (f : Fld) (off : Nat) : Option Nat :=
  if f.stride = 0 then (if off = f.off then some 0 else none)
  else if off < f.off then none
  else if (off - f.off) % f.stride = 0 ∧ (off - f.off) / f.stride < f.count then
    some ((off - f.off) / f.stride)
  else none

/-- The staged copy of an rwc field, at the shadow offset its page names (R44). -/
def Fld.shadow (f : Fld) : Fld := { f with off := f.off + 0x400, acc := .staged }

/-- A field of the common page header, as a field of the page of type `ty` (R37). -/
def Fld.ofType (ty : Nat) (f : Fld) : Fld := { f with ty := ty }

/-- The management address of an offset (R32). -/
def regAddr (ty inst off : Nat) : Nat := ty * 0x100000 + inst * 0x1000 + off

/-- Block type of a management address (R32). -/
def addrType (a : Nat) : Nat := bitsOf a 20 6

/-- Instance of a management address (R32). -/
def addrInst (a : Nat) : Nat := bitsOf a 12 8

/-- Offset of a management address (R32). -/
def addrOff (a : Nat) : Nat := bitsOf a 0 12

end Sys2Proof.Machine
end

