-- ==== Sys2Proof/Machine/FieldsCore.lean ====
section
/-!
DEFINITION. The register fields of the pages PG, DEV, PWR, TIM, HZN, SEC, LOG, CHK, one definition per row of the register tables of spec/:
page type, offset, lowest bit, width, access, value at cold reset, source at warm reset, AON kept, array stride and count.
-/

namespace Sys2Proof.Machine

namespace Reg

/-- R37: Block type of the page -/
def PG_ID_TYPE : Fld := ⟨0, 0, 26, 6, .ro, .typ, .cold, false, .no, 0, 1⟩
/-- R37: Instance of the page -/
def PG_ID_INSTANCE : Fld := ⟨0, 0, 18, 8, .ro, .inst, .cold, false, .no, 0, 1⟩
/-- R37: Page layout version; 1 at behaviour level 1 -/
def PG_ID_PAGE_VER : Fld := ⟨0, 0, 0, 8, .ro, .lit 1, .cold, false, .no, 0, 1⟩
/-- R37: 1 if broadcast applies to this type -/
def PG_CAP_BCAST_OK : Fld := ⟨0, 4, 31, 1, .ro, .bcastOk, .kept, false, .no, 0, 1⟩
/-- R37: 1 if the page has rwc fields -/
def PG_CAP_STAGED : Fld := ⟨0, 4, 30, 1, .ro, .staged, .kept, false, .no, 0, 1⟩
/-- R37: 1 if PG_CTRL.LOCK is implemented. PG_CTRL.LOCK is implemented on every page, so this bit reads 1 on every ... -/
def PG_CAP_LOCKABLE : Fld := ⟨0, 4, 29, 1, .ro, .lit 1, .kept, false, .no, 0, 1⟩
/-- R37: Block capabilities, defined per block. Bits of features above BEHAVIOUR_LEVEL read 0 (R6). -/
def PG_CAP_BLOCK_CAP : Fld := ⟨0, 4, 0, 29, .ro, .lit 0, .kept, false, .no, 0, 1⟩
/-- R37: Copies the values in force into the staged set; self-clearing -/
def PG_CTRL_DISCARD : Fld := ⟨0, 8, 4, 1, .w1s, .lit 0, .cold, false, .no, 0, 1⟩
/-- R37: Freezes the page, as stated under Lock and block soft reset; cleared only by warm or cold reset -/
def PG_CTRL_LOCK : Fld := ⟨0, 8, 3, 1, .w1s, .lit 0, .cold, false, .no, 0, 1⟩
/-- R37: Starts a commit of the staged set; self-clearing -/
def PG_CTRL_COMMIT : Fld := ⟨0, 8, 2, 1, .w1s, .lit 0, .cold, false, .no, 0, 1⟩
/-- R37: Block soft reset; clears when the reset completes -/
def PG_CTRL_SOFT_RST : Fld := ⟨0, 8, 1, 1, .w1s, .lit 0, .cold, false, .no, 0, 1⟩
/-- R37: Block enable. Blocks that the board table enables at start-up are set by start-up firmware. -/
def PG_CTRL_ENABLE : Fld := ⟨0, 8, 0, 1, .rw, .lit 0, .cold, false, .no, 0, 1⟩
/-- R37: Defined per block -/
def PG_STAT_BLOCK_STAT : Fld := ⟨0, 0xC, 16, 16, .ro, .lit 0, .cold, false, .no, 0, 1⟩
/-- R37: Count of completed commits, modulo 256 -/
def PG_STAT_COMMIT_SEQ : Fld := ⟨0, 0xC, 8, 8, .ro, .lit 0, .cold, false, .no, 0, 1⟩
/-- R37: 1 if the last commit was refused; 0 after a commit completes -/
def PG_STAT_COMMIT_REFUSED : Fld := ⟨0, 0xC, 4, 1, .ro, .lit 0, .cold, false, .no, 0, 1⟩
/-- R37: Mirror of LOCK -/
def PG_STAT_LOCKED : Fld := ⟨0, 0xC, 3, 1, .ro, .lit 0, .cold, false, .no, 0, 1⟩
/-- R37: Commit in progress -/
def PG_STAT_COMMIT_BUSY : Fld := ⟨0, 0xC, 2, 1, .ro, .lit 0, .cold, false, .no, 0, 1⟩
/-- R37: Soft reset in progress -/
def PG_STAT_RST_BUSY : Fld := ⟨0, 0xC, 1, 1, .ro, .lit 0, .cold, false, .no, 0, 1⟩
/-- R37: Block is enabled and running -/
def PG_STAT_ENABLED : Fld := ⟨0, 0xC, 0, 1, .ro, .lit 0, .cold, false, .no, 0, 1⟩
/-- R37: Live event sources. [0] CFG_ERR, [1] COMMIT_DONE, [2] RESET_DONE; [31:3] defined per block. The code that ... -/
def PG_EVT_RAW : Fld := ⟨0, 0x10, 0, 32, .ro, .lit 0, .cold, false, .no, 0, 1⟩
/-- R37: Enable per bit of PG_EVT_RAW -/
def PG_EVT_EN : Fld := ⟨0, 0x14, 0, 32, .rw, .lit 0, .cold, false, .no, 0, 1⟩
/-- R37: Set when a RAW bit rises while its EN bit is 1 -/
def PG_EVT_PEND : Fld := ⟨0, 0x18, 0, 32, .w1c, .lit 0, .cold, false, .no, 0, 1⟩
/-- R37: A 1 raises the RAW bit for one clock, as if its source had fired -/
def PG_EVT_INJ : Fld := ⟨0, 0x1C, 0, 32, .wo, .lit 0, .cold, false, .no, 0, 1⟩
/-- R37: 1 while an error is recorded. Clearing it clears the register and re-arms it. -/
def PG_VALID : Fld := ⟨0, 0x20, 31, 1, .w1c, .lit 0, .cold, false, .no, 0, 1⟩
/-- R37: 1 if PG_ERR_TS holds local free-running time, because fabric time was not yet valid -/
def PG_TS_LOCAL : Fld := ⟨0, 0x20, 30, 1, .ro, .lit 0, .cold, false, .no, 0, 1⟩
/-- R37: Offset [11:2] of the write that caused the error; 0x002 for a commit -/
def PG_WORD : Fld := ⟨0, 0x20, 16, 10, .ro, .lit 0, .cold, false, .no, 0, 1⟩
/-- R37: Event code, 0xBBCC -/
def PG_CODE : Fld := ⟨0, 0x20, 0, 16, .ro, .lit 0, .cold, false, .no, 0, 1⟩
/-- R37: Low 32 bits of time at recording, in ns -/
def PG_ERR_TS : Fld := ⟨0, 0x24, 0, 32, .ro, .lit 0, .cold, false, .no, 0, 1⟩
/-- R37: Writes held for the domain, 0–64 -/
def PG_PWR_HELD : Fld := ⟨0, 0x28, 16, 8, .ro, .lit 0, .cold, false, .no, 0, 1⟩
/-- R37: A power request waits in the domain's pending slot -/
def PG_PWR_PENDING : Fld := ⟨0, 0x28, 15, 1, .ro, .lit 0, .cold, false, .no, 0, 1⟩
/-- R37: Domain of the page, as R563 gives it: 0–63 for D00–D63, 64 for AON -/
def PG_PWR_DOMAIN : Fld := ⟨0, 0x28, 8, 7, .ro, .domain, .kept, false, .no, 0, 1⟩
/-- R37: 0 ON, 1 RET, 2 OFF, 3 in transition -/
def PG_PWR_STATE : Fld := ⟨0, 0x28, 0, 2, .ro, .lit 0, .cold, false, .no, 0, 1⟩
/-- Rows 1 to 24 of the PG page. -/
def rowsPG0 : List Fld :=
  [PG_ID_TYPE, PG_ID_INSTANCE, PG_ID_PAGE_VER, PG_CAP_BCAST_OK, PG_CAP_STAGED, PG_CAP_LOCKABLE, PG_CAP_BLOCK_CAP, PG_CTRL_DISCARD, PG_CTRL_LOCK, PG_CTRL_COMMIT, PG_CTRL_SOFT_RST, PG_CTRL_ENABLE, PG_STAT_BLOCK_STAT, PG_STAT_COMMIT_SEQ, PG_STAT_COMMIT_REFUSED, PG_STAT_LOCKED, PG_STAT_COMMIT_BUSY, PG_STAT_RST_BUSY, PG_STAT_ENABLED, PG_EVT_RAW, PG_EVT_EN, PG_EVT_PEND, PG_EVT_INJ, PG_VALID]
/-- Rows 25 to 32 of the PG page. -/
def rowsPG1 : List Fld :=
  [PG_TS_LOCAL, PG_WORD, PG_CODE, PG_ERR_TS, PG_PWR_HELD, PG_PWR_PENDING, PG_PWR_DOMAIN, PG_PWR_STATE]
/-- Every row of the PG page. -/
def rowsPG : List Fld :=
  rowsPG0 ++ rowsPG1

/-- R58: Part number (R3) -/
def DEV_PART : Fld := ⟨0, 0x100, 16, 16, .ro, .lit 0x7144, .cold, false, .no, 0, 1⟩
/-- R58: Stepping letter (R3) -/
def DEV_STEP_MAJOR : Fld := ⟨0, 0x100, 12, 4, .ro, .lit 0, .cold, false, .no, 0, 1⟩
/-- R58: Stepping digit -/
def DEV_STEP_MINOR : Fld := ⟨0, 0x100, 8, 4, .ro, .lit 1, .cold, false, .no, 0, 1⟩
/-- R58: Highest behaviour level -/
def DEV_BL_MAX : Fld := ⟨0, 0x100, 0, 8, .ro, .lit 1, .cold, false, .no, 0, 1⟩
/-- R58: Level in force. Without an image, the value is BL_MAX. Refusals by R5. -/
def DEV_BEHAVIOUR_LEVEL : Fld := ⟨0, 0x104, 0, 8, .rws, .lit 1, .kept, false, .image, 0, 1⟩
/-- R58: Set by composite enumeration -/
def DEV_COMPOSITE_ID : Fld := ⟨0, 0x108, 0, 6, .ro, .lit 0, .kept, false, .no, 0, 1⟩
/-- R58: Writing 0xD7 starts a warm reset; other values are ignored -/
def DEV_WARM_RST : Fld := ⟨0, 0x10C, 0, 8, .wo, .lit 0, .cold, false, .no, 0, 1⟩
/-- R58: Code of the latest configuration error on any page -/
def DEV_CFG_ERR_LAST : Fld := ⟨0, 0x110, 0, 16, .ro, .lit 0, .cold, false, .no, 0, 1⟩
/-- R58: Broadcast writes dropped at OFF members -/
def DEV_BCAST_MISS : Fld := ⟨0, 0x114, 0, 32, .rc, .lit 0, .cold, false, .no, 0, 1⟩
/-- R58: Other writes dropped, by R34, R41, R43, R57 -/
def DEV_WR_DROP : Fld := ⟨0, 0x118, 0, 32, .rc, .lit 0, .cold, false, .no, 0, 1⟩
/-- R58: Failed composite window accesses -/
def DEV_REMOTE_ERR : Fld := ⟨0, 0x11C, 0, 32, .rc, .lit 0, .cold, false, .no, 0, 1⟩
/-- R58: A read returns 1 if the semaphore was free and takes it, and 0 if it was already taken. Writing 0 frees it. -/
def DEV_MGMT_SEM : Fld := ⟨0, 0x120, 0, 1, .rc, .lit 0, .cold, false, .no, 4, 4⟩
/-- R58: VH holding the management function -/
def DEV_MGMT_VH : Fld := ⟨0, 0x130, 0, 4, .ro, .lit 0, .kept, false, .table, 0, 1⟩
/-- R58: Over-fabric timeout in µs, 10–10,000 -/
def DEV_FAB_TMO : Fld := ⟨0, 0x134, 0, 20, .rw, .lit 0x64, .cold, false, .no, 0, 1⟩
/-- R58: I3C static address -/
def DEV_I3C_ADDR : Fld := ⟨0, 0x138, 0, 8, .ro, .lit 0x5A, .kept, false, .table, 0, 1⟩
/-- R58: Enables in-band interrupts for events -/
def DEV_I3C_IBI : Fld := ⟨0, 0x13C, 0, 1, .rw, .lit 1, .cold, false, .no, 0, 1⟩
/-- R58: Starts the mailbox command -/
def DEV_MBX_GO : Fld := ⟨0, 0x140, 0, 1, .w1s, .lit 0, .cold, false, .no, 0, 1⟩
/-- R58: Mailbox command in progress -/
def DEV_MBX_BUSY : Fld := ⟨0, 0x140, 1, 1, .ro, .lit 0, .cold, false, .no, 0, 1⟩
/-- R58: Response ready -/
def DEV_MBX_DONE : Fld := ⟨0, 0x140, 2, 1, .w1c, .lit 0, .cold, false, .no, 0, 1⟩
/-- R58: Corrected-error threshold for event 0x0020 -/
def DEV_D2D_THRESH : Fld := ⟨0, 0x190, 0, 16, .rw, .lit 0x3E8, .cold, false, .no, 0, 1⟩
/-- R58: Corrected errors on link n -/
def DEV_D2D_CORR : Fld := ⟨0, 0x200, 0, 32, .rc, .lit 0, .cold, false, .no, 0x10, 9⟩
/-- R58: Link-level retries on link n -/
def DEV_D2D_RETRY : Fld := ⟨0, 0x204, 0, 32, .rc, .lit 0, .cold, false, .no, 0x10, 9⟩
/-- R58: Lanes repaired at cold start on link n -/
def DEV_D2D_REPAIR : Fld := ⟨0, 0x208, 0, 8, .ro, .lit 0, .kept, false, .no, 0x10, 9⟩
/-- R58: Group mask g = 0–14, word w = 0–7 (R40) -/
def DEV_GRP_MASK : Fld := ⟨0, 0x300, 0, 32, .rw, .lit 0, .cold, false, .no, 4, 120⟩
/-- R58: Mailbox frame, 1,024 bytes -/
def DEV_MBX_DATA : Fld := ⟨0, 0x800, 0, 32, .rw, .lit 0, .cold, false, .no, 4, 256⟩
/-- R78: 0 RAILS, 1 AON, 2 VERIFY, 3 WIPE, 4 TABLE, 5 IMAGE, 6 READY, 7 RECOVERY, 8 FAULT -/
def DEV_STATE : Fld := ⟨0, 0x150, 0, 4, .ro, .lit 0, .cold, false, .no, 0, 1⟩
/-- R78: Bank booted: 0 A, 1 B -/
def DEV_BANK : Fld := ⟨0, 0x150, 4, 1, .ro, .lit 0, .cold, false, .no, 0, 1⟩
/-- R78: Preferred bank recorded in MRAM, as read at step 5 -/
def DEV_BANK_PREF : Fld := ⟨0, 0x150, 5, 1, .ro, .lit 0, .cold, false, .no, 0, 1⟩
/-- R78: 1 if the non-preferred bank was booted -/
def DEV_FALLBACK : Fld := ⟨0, 0x150, 6, 1, .ro, .lit 0, .cold, false, .no, 0, 1⟩
/-- R78: Board table copy in use: 0 primary, 1 secondary -/
def DEV_TABLE_COPY : Fld := ⟨0, 0x150, 7, 1, .ro, .lit 0, .cold, false, .no, 0, 1⟩
/-- R78: 1 if neither copy passed (R69) -/
def DEV_TABLE_DEFAULT : Fld := ⟨0, 0x150, 8, 1, .ro, .lit 0, .cold, false, .no, 0, 1⟩
/-- R78: 1 if an image slot was applied at step 8 -/
def DEV_IMAGE_APPLIED : Fld := ⟨0, 0x150, 9, 1, .ro, .lit 0, .cold, false, .no, 0, 1⟩
/-- R78: 0 after a cold reset; 1 after a cold reset with AON held; 2 after a warm reset; 3 after the warm reset of ... -/
def DEV_LAST_RESET : Fld := ⟨0, 0x150, 10, 2, .ro, .lit 0, .kept, false, .no, 0, 1⟩
/-- R78: Time from T0 to READY in 10 µs units; 0 until READY -/
def DEV_BOOT_TIME : Fld := ⟨0, 0x154, 0, 16, .ro, .lit 0, .cold, false, .no, 0, 1⟩
/-- R78: Wipe in progress -/
def DEV_WIPE_BUSY : Fld := ⟨0, 0x158, 0, 1, .ro, .lit 0, .cold, false, .no, 0, 1⟩
/-- R78: Last wipe completed and verified -/
def DEV_WIPE_DONE : Fld := ⟨0, 0x158, 1, 1, .ro, .lit 0, .cold, false, .no, 0, 1⟩
/-- R78: Last wipe failed verification (R77) -/
def DEV_WIPE_FAIL : Fld := ⟨0, 0x158, 2, 1, .ro, .lit 0, .cold, false, .no, 0, 1⟩
/-- R78: Duration of the last wipe in µs -/
def DEV_WIPE_TIME : Fld := ⟨0, 0x158, 16, 16, .ro, .lit 0, .cold, false, .no, 0, 1⟩
/-- R78: Image slot applied at start-up -/
def DEV_SLOT_ACTIVE : Fld := ⟨0, 0x15C, 0, 1, .ro, .lit 0, .cold, false, .no, 0, 1⟩
/-- R78: Bit per slot holding a committed image -/
def DEV_SLOT_VALID : Fld := ⟨0, 0x15C, 1, 2, .ro, .lit 0, .cold, false, .no, 0, 1⟩
/-- R78: An export snapshot is held -/
def DEV_EXPORT_OPEN : Fld := ⟨0, 0x15C, 3, 1, .ro, .lit 0, .cold, false, .no, 0, 1⟩
/-- R78: Import chunks are being received -/
def DEV_IMPORT_OPEN : Fld := ⟨0, 0x15C, 4, 1, .ro, .lit 0, .cold, false, .no, 0, 1⟩
/-- R78: Distinct import chunks received in the open import -/
def DEV_CHUNKS : Fld := ⟨0, 0x15C, 16, 16, .ro, .lit 0, .cold, false, .no, 0, 1⟩
/-- R78: Warm resets since the last cold reset; increments at each warm reset -/
def DEV_WARM_CNT : Fld := ⟨0, 0x160, 0, 32, .ro, .lit 0, .kept, false, .no, 0, 1⟩
/-- R78: 1 while BEHAVIOUR_LEVEL may be written (R86) -/
def DEV_BL_LOCK_OK : Fld := ⟨0, 0x164, 0, 1, .ro, .lit 1, .cold, false, .no, 0, 1⟩
/-- R562: 0 NORMAL, 1 WARN, 2 THROTTLE, 3 FAULT (R556) -/
def DEV_THERM_STATE : Fld := ⟨0, 0x170, 0, 2, .ro, .lit 0, .cold, false, .no, 0, 1⟩
/-- R562: Hottest reading, signed, 0.1 °C -/
def DEV_TJ_HOT : Fld := ⟨0, 0x170, 16, 16, .ro, .lit 0, .cold, false, .no, 0, 1⟩
/-- R562: Highest reading since cold reset, signed, 0.1 °C -/
def DEV_TJ_PEAK : Fld := ⟨0, 0x174, 0, 16, .ro, .lit 0, .kept, false, .no, 0, 1⟩
/-- R562: Thermal throttle episodes -/
def DEV_THROTTLE_CNT : Fld := ⟨0, 0x178, 0, 16, .rc, .lit 0, .kept, false, .no, 0, 1⟩
/-- R562: Time under thermal throttle, ms -/
def DEV_THROTTLE_MS : Fld := ⟨0, 0x17C, 0, 32, .rc, .lit 0, .kept, false, .no, 0, 1⟩
/-- R562: Sensed VIO, mV, ±2 % -/
def DEV_VIO_MV : Fld := ⟨0, 0x180, 0, 16, .ro, .lit 0, .cold, false, .no, 0, 1⟩
/-- R562: VIO at 0.7 V or above (R550) -/
def DEV_VIO_OK : Fld := ⟨0, 0x180, 16, 1, .ro, .lit 0, .cold, false, .no, 0, 1⟩
/-- Rows 1 to 24 of the DEV page. -/
def rowsDEV0 : List Fld :=
  [DEV_PART, DEV_STEP_MAJOR, DEV_STEP_MINOR, DEV_BL_MAX, DEV_BEHAVIOUR_LEVEL, DEV_COMPOSITE_ID, DEV_WARM_RST, DEV_CFG_ERR_LAST, DEV_BCAST_MISS, DEV_WR_DROP, DEV_REMOTE_ERR, DEV_MGMT_SEM, DEV_MGMT_VH, DEV_FAB_TMO, DEV_I3C_ADDR, DEV_I3C_IBI, DEV_MBX_GO, DEV_MBX_BUSY, DEV_MBX_DONE, DEV_D2D_THRESH, DEV_D2D_CORR, DEV_D2D_RETRY, DEV_D2D_REPAIR, DEV_GRP_MASK]
/-- Rows 25 to 48 of the DEV page. -/
def rowsDEV1 : List Fld :=
  [DEV_MBX_DATA, DEV_STATE, DEV_BANK, DEV_BANK_PREF, DEV_FALLBACK, DEV_TABLE_COPY, DEV_TABLE_DEFAULT, DEV_IMAGE_APPLIED, DEV_LAST_RESET, DEV_BOOT_TIME, DEV_WIPE_BUSY, DEV_WIPE_DONE, DEV_WIPE_FAIL, DEV_WIPE_TIME, DEV_SLOT_ACTIVE, DEV_SLOT_VALID, DEV_EXPORT_OPEN, DEV_IMPORT_OPEN, DEV_CHUNKS, DEV_WARM_CNT, DEV_BL_LOCK_OK, DEV_THERM_STATE, DEV_TJ_HOT, DEV_TJ_PEAK]
/-- Rows 49 to 52 of the DEV page. -/
def rowsDEV2 : List Fld :=
  [DEV_THROTTLE_CNT, DEV_THROTTLE_MS, DEV_VIO_MV, DEV_VIO_OK]
/-- Every row of the DEV page. -/
def rowsDEV : List Fld :=
  rowsDEV0 ++ rowsDEV1 ++ rowsDEV2

/-- R496: 0 A, 1 B, 2 none -/
def PWR_FEED_ACTIVE : Fld := ⟨1, 0x100, 0, 2, .ro, .lit 0, .kept, false, .no, 0, 1⟩
/-- R496: R476 -/
def PWR_A_GOOD : Fld := ⟨1, 0x100, 2, 1, .ro, .lit 0, .kept, false, .no, 0, 1⟩
/-- R496: R476 -/
def PWR_B_GOOD : Fld := ⟨1, 0x100, 3, 1, .ro, .lit 0, .kept, false, .no, 0, 1⟩
/-- R496: 0 OFF, 1 INRUSH, 2 ON, 3 STANDBY, 4 TRIPPED, 5 RETRY_WAIT, 6 LOCKOUT; AON kept -/
def PWR_A_STATE : Fld := ⟨1, 0x100, 4, 3, .ro, .lit 0, .kept, true, .no, 0, 1⟩
/-- R496: As A_STATE -/
def PWR_B_STATE : Fld := ⟨1, 0x100, 8, 3, .ro, .lit 0, .kept, false, .no, 0, 1⟩
/-- R496: Level of PG_OUT -/
def PWR_PG : Fld := ⟨1, 0x100, 11, 1, .ro, .lit 0, .kept, false, .no, 0, 1⟩
/-- R496: Throttle held (R481) -/
def PWR_THROTTLE : Fld := ⟨1, 0x100, 12, 1, .ro, .lit 0, .cold, false, .no, 0, 1⟩
/-- R496: R486 -/
def PWR_PLINK_FAILED : Fld := ⟨1, 0x100, 13, 1, .ro, .lit 0, .cold, false, .no, 0, 1⟩
/-- R496: 0 A, 1 B; without an image, 0 -/
def PWR_PRI_FEED : Fld := ⟨1, 0x104, 0, 1, .rw, .lit 0, .image, false, .image, 0, 1⟩
/-- R496: Without an image, 1 -/
def PWR_RETURN_EN : Fld := ⟨1, 0x104, 1, 1, .rw, .lit 1, .image, false, .image, 0, 1⟩
/-- R496: Switchover (R476); self-clearing -/
def PWR_SWITCH_NOW : Fld := ⟨1, 0x104, 2, 1, .w1s, .lit 0, .cold, false, .no, 0, 1⟩
/-- R496: Ends RETRY_WAIT or LOCKOUT of path A (R479) -/
def PWR_TRIP_CLR_A : Fld := ⟨1, 0x104, 3, 1, .w1s, .lit 0, .cold, false, .no, 0, 1⟩
/-- R496: As TRIP_CLR_A, for path B -/
def PWR_TRIP_CLR_B : Fld := ⟨1, 0x104, 4, 1, .w1s, .lit 0, .cold, false, .no, 0, 1⟩
/-- R496: mV, 9,500–11,500; without an image, 10,500 -/
def PWR_UV_WARN : Fld := ⟨1, 0x108, 0, 16, .rw, .lit 0x2904, .image, false, .image, 0, 1⟩
/-- R496: mV, 9,000–10,500; without an image, 9,500 -/
def PWR_UV_RESET : Fld := ⟨1, 0x108, 16, 16, .rw, .lit 0x251C, .image, false, .image, 0, 1⟩
/-- R496: mV, 10,000–12,000; without an image, 10,800 -/
def PWR_SW_LEVEL : Fld := ⟨1, 0x10C, 0, 16, .rw, .lit 0x2A30, .image, false, .image, 0, 1⟩
/-- R496: mV, 13,500–15,000; without an image, 14,000 -/
def PWR_OV_TRIP : Fld := ⟨1, 0x10C, 16, 16, .rw, .lit 0x36B0, .image, false, .image, 0, 1⟩
/-- R496: A, 1–20; without an image, 6 -/
def PWR_INRUSH_A : Fld := ⟨1, 0x110, 0, 8, .rw, .lit 6, .image, false, .image, 0, 1⟩
/-- R496: ms, 1–100; without an image, 20 -/
def PWR_INRUSH_MS : Fld := ⟨1, 0x110, 8, 8, .rw, .lit 0x14, .image, false, .image, 0, 1⟩
/-- R496: A, 10–75; without an image, 75 -/
def PWR_OC_A : Fld := ⟨1, 0x110, 16, 8, .rw, .lit 0x4B, .image, false, .image, 0, 1⟩
/-- R496: A, 80–130; without an image, 110 -/
def PWR_FAST_A : Fld := ⟨1, 0x110, 24, 8, .rw, .lit 0x6E, .image, false, .image, 0, 1⟩
/-- R496: ms, INRUSH_MS–100; without an image, 25 -/
def PWR_RETRY_ON_MS : Fld := ⟨1, 0x114, 0, 16, .rw, .lit 0x19, .image, false, .image, 0, 1⟩
/-- R496: ms, 1,000–60,000, and at least 100 × RETRY_ON_MS; without an image, 5,000 -/
def PWR_RETRY_PERIOD_MS : Fld := ⟨1, 0x114, 16, 16, .rw, .lit 0x1388, .image, false, .image, 0, 1⟩
/-- R496: 1–255; 0 unlimited; without an image, 0 -/
def PWR_RETRY_MAX : Fld := ⟨1, 0x118, 0, 8, .rw, .lit 0, .image, false, .image, 0, 1⟩
/-- R496: ms, 10–10,000; without an image, 1,000 -/
def PWR_RETURN_MS : Fld := ⟨1, 0x11C, 0, 14, .rw, .lit 0x3E8, .image, false, .image, 0, 1⟩
/-- R496: ±0.5 % -/
def PWR_VIN_A_MV : Fld := ⟨1, 0x120, 0, 16, .ro, .lit 0, .cold, false, .no, 0, 1⟩
/-- R496: ±0.5 % -/
def PWR_VIN_B_MV : Fld := ⟨1, 0x120, 16, 16, .ro, .lit 0, .cold, false, .no, 0, 1⟩
/-- R496: 10 mA units; ±2 % ± 100 mA -/
def PWR_IIN_A : Fld := ⟨1, 0x124, 0, 16, .ro, .lit 0, .cold, false, .no, 0, 1⟩
/-- R496: As IIN_A -/
def PWR_IIN_B : Fld := ⟨1, 0x124, 16, 16, .ro, .lit 0, .cold, false, .no, 0, 1⟩
/-- R496: — -/
def PWR_VBANK_MV : Fld := ⟨1, 0x128, 0, 16, .ro, .lit 0, .cold, false, .no, 0, 1⟩
/-- R496: Input power, 100 mW units -/
def PWR_P_IN : Fld := ⟨1, 0x128, 16, 16, .ro, .lit 0, .cold, false, .no, 0, 1⟩
/-- R496: Input energy in mJ since cold reset; low word first (R33); AON kept -/
def PWR_ENERGY_MJ_LO : Fld := ⟨1, 0x12C, 0, 32, .ro, .lit 0, .kept, true, .no, 0, 1⟩
/-- R496: Input energy in mJ since cold reset; low word first (R33); AON kept -/
def PWR_ENERGY_MJ_HI : Fld := ⟨1, 0x130, 0, 32, .ro, .lit 0, .kept, true, .no, 0, 1⟩
/-- R496: AON kept -/
def PWR_TRIPS_A : Fld := ⟨1, 0x134, 0, 16, .rc, .lit 0, .kept, true, .no, 0, 1⟩
/-- R496: AON kept -/
def PWR_TRIPS_B : Fld := ⟨1, 0x134, 16, 16, .rc, .lit 0, .kept, true, .no, 0, 1⟩
/-- R496: CAUSE of R478; AON kept -/
def PWR_LAST_CAUSE : Fld := ⟨1, 0x138, 0, 4, .ro, .lit 0, .kept, true, .no, 0, 1⟩
/-- R496: 0 A, 1 B; AON kept -/
def PWR_LAST_FEED : Fld := ⟨1, 0x138, 4, 1, .ro, .lit 0, .kept, true, .no, 0, 1⟩
/-- R496: ms to the next attempt of path A; AON kept -/
def PWR_RETRY_LEFT_A : Fld := ⟨1, 0x13C, 0, 16, .ro, .lit 0, .kept, true, .no, 0, 1⟩
/-- R496: As RETRY_LEFT_A, for path B -/
def PWR_RETRY_LEFT_B : Fld := ⟨1, 0x13C, 16, 16, .ro, .lit 0, .kept, false, .no, 0, 1⟩
/-- R496: Switchovers and switch-backs -/
def PWR_SWITCHES : Fld := ⟨1, 0x140, 0, 16, .rc, .lit 0, .kept, false, .no, 0, 1⟩
/-- R496: R481 -/
def PWR_DIPS : Fld := ⟨1, 0x144, 0, 16, .rc, .lit 0, .kept, false, .no, 0, 1⟩
/-- R496: R482 -/
def PWR_ESCALATIONS : Fld := ⟨1, 0x144, 16, 16, .rc, .lit 0, .kept, false, .no, 0, 1⟩
/-- R496: Lowest VBANK in the last dip -/
def PWR_DIP_MIN_MV : Fld := ⟨1, 0x148, 0, 16, .ro, .lit 0, .kept, false, .no, 0, 1⟩
/-- R496: Duration of the last dip in µs, saturating -/
def PWR_DIP_US : Fld := ⟨1, 0x148, 16, 16, .ro, .lit 0, .kept, false, .no, 0, 1⟩
/-- R496: R486 -/
def PWR_PLINK_TMO_CNT : Fld := ⟨1, 0x14C, 0, 16, .rc, .lit 0, .cold, false, .no, 0, 1⟩
/-- R496: Time AON was last held up (R485). It is written when the hold-up ends and is kept across the cold reset ... -/
def PWR_AON_HOLD_MS : Fld := ⟨1, 0x150, 0, 16, .ro, .lit 0, .kept, true, .no, 0, 1⟩
/-- R496: Domain of the request -/
def PWR_REQ_DOM : Fld := ⟨1, 0x200, 0, 6, .wo, .lit 0, .cold, false, .no, 0, 1⟩
/-- R496: 0 ON, 1 RET, 2 OFF; 3 refused -/
def PWR_REQ_STATE : Fld := ⟨1, 0x200, 8, 2, .wo, .lit 0, .cold, false, .no, 0, 1⟩
/-- R496: 1 makes the request (R492); the word is written in one access -/
def PWR_REQ_GO : Fld := ⟨1, 0x200, 31, 1, .wo, .lit 0, .cold, false, .no, 0, 1⟩
/-- R496: Bit n: D(n) has a pending request -/
def PWR_PEND_MAP_LO : Fld := ⟨1, 0x204, 0, 32, .ro, .lit 0, .cold, false, .no, 0, 1⟩
/-- R496: Bit n: D(n) has a pending request -/
def PWR_PEND_MAP_HI : Fld := ⟨1, 0x208, 0, 32, .ro, .lit 0, .cold, false, .no, 0, 1⟩
/-- R496: Bit n: D(n) ON -/
def PWR_ON_MAP_LO : Fld := ⟨1, 0x20C, 0, 32, .ro, .lit 0xFFFFFFFF, .cold, false, .no, 0, 1⟩
/-- R496: Bit n: D(n) ON -/
def PWR_ON_MAP_HI : Fld := ⟨1, 0x210, 0, 32, .ro, .lit 0xFFFFFFFF, .cold, false, .no, 0, 1⟩
/-- R496: Bit n: D(n) RET -/
def PWR_RET_MAP_LO : Fld := ⟨1, 0x214, 0, 32, .ro, .lit 0, .cold, false, .no, 0, 1⟩
/-- R496: Bit n: D(n) RET -/
def PWR_RET_MAP_HI : Fld := ⟨1, 0x218, 0, 32, .ro, .lit 0, .cold, false, .no, 0, 1⟩
/-- R496: Bit n: D(n) OFF -/
def PWR_OFF_MAP_LO : Fld := ⟨1, 0x21C, 0, 32, .ro, .lit 0, .cold, false, .no, 0, 1⟩
/-- R496: Bit n: D(n) OFF -/
def PWR_OFF_MAP_HI : Fld := ⟨1, 0x220, 0, 32, .ro, .lit 0, .cold, false, .no, 0, 1⟩
/-- R496: Bit n: D(n) in transition -/
def PWR_TRANS_MAP_LO : Fld := ⟨1, 0x224, 0, 32, .ro, .lit 0, .cold, false, .no, 0, 1⟩
/-- R496: Bit n: D(n) in transition -/
def PWR_TRANS_MAP_HI : Fld := ⟨1, 0x228, 0, 32, .ro, .lit 0, .cold, false, .no, 0, 1⟩
/-- R497: As PG_PWR.STATE -/
def PWR_STATE : Fld := ⟨1, 0x400, 0, 2, .ro, .lit 0, .cold, false, .no, 0x10, 64⟩
/-- R497: Target of the transition in progress -/
def PWR_TARGET : Fld := ⟨1, 0x400, 2, 2, .ro, .lit 0, .cold, false, .no, 0x10, 64⟩
/-- R497: The pending slot is full -/
def PWR_PENDING : Fld := ⟨1, 0x400, 4, 1, .ro, .lit 0, .cold, false, .no, 0x10, 64⟩
/-- R497: Target of the pending request -/
def PWR_PEND_STATE : Fld := ⟨1, 0x400, 5, 2, .ro, .lit 0, .cold, false, .no, 0x10, 64⟩
/-- R497: R494 -/
def PWR_LAST_REFUSER : Fld := ⟨1, 0x400, 8, 8, .ro, .lit 0, .cold, false, .no, 0x10, 64⟩
/-- R497: Bit k enables wake code 0x40 + k where the domain has it (R493) -/
def PWR_WAKE_EN : Fld := ⟨1, 0x400, 16, 4, .rw, .lit 0xF, .cold, false, .no, 0x10, 64⟩
/-- R497: R494 -/
def PWR_REFUSED : Fld := ⟨1, 0x404, 0, 16, .rc, .lit 0, .cold, false, .no, 0x10, 64⟩
/-- R497: R494 -/
def PWR_ABORTED : Fld := ⟨1, 0x404, 16, 16, .rc, .lit 0, .cold, false, .no, 0x10, 64⟩
/-- R497: Time in RET, ms -/
def PWR_RET_MS : Fld := ⟨1, 0x408, 0, 32, .rc, .lit 0, .cold, false, .no, 0x10, 64⟩
/-- R497: Time in OFF, ms -/
def PWR_OFF_MS : Fld := ⟨1, 0x40C, 0, 32, .rc, .lit 0, .cold, false, .no, 0x10, 64⟩
/-- Rows 1 to 24 of the PWR page. -/
def rowsPWR0 : List Fld :=
  [PWR_FEED_ACTIVE, PWR_A_GOOD, PWR_B_GOOD, PWR_A_STATE, PWR_B_STATE, PWR_PG, PWR_THROTTLE, PWR_PLINK_FAILED, PWR_PRI_FEED, PWR_RETURN_EN, PWR_SWITCH_NOW, PWR_TRIP_CLR_A, PWR_TRIP_CLR_B, PWR_UV_WARN, PWR_UV_RESET, PWR_SW_LEVEL, PWR_OV_TRIP, PWR_INRUSH_A, PWR_INRUSH_MS, PWR_OC_A, PWR_FAST_A, PWR_RETRY_ON_MS, PWR_RETRY_PERIOD_MS, PWR_RETRY_MAX]
/-- Rows 25 to 48 of the PWR page. -/
def rowsPWR1 : List Fld :=
  [PWR_RETURN_MS, PWR_VIN_A_MV, PWR_VIN_B_MV, PWR_IIN_A, PWR_IIN_B, PWR_VBANK_MV, PWR_P_IN, PWR_ENERGY_MJ_LO, PWR_ENERGY_MJ_HI, PWR_TRIPS_A, PWR_TRIPS_B, PWR_LAST_CAUSE, PWR_LAST_FEED, PWR_RETRY_LEFT_A, PWR_RETRY_LEFT_B, PWR_SWITCHES, PWR_DIPS, PWR_ESCALATIONS, PWR_DIP_MIN_MV, PWR_DIP_US, PWR_PLINK_TMO_CNT, PWR_AON_HOLD_MS, PWR_REQ_DOM, PWR_REQ_STATE]
/-- Rows 49 to 69 of the PWR page. -/
def rowsPWR2 : List Fld :=
  [PWR_REQ_GO, PWR_PEND_MAP_LO, PWR_PEND_MAP_HI, PWR_ON_MAP_LO, PWR_ON_MAP_HI, PWR_RET_MAP_LO, PWR_RET_MAP_HI, PWR_OFF_MAP_LO, PWR_OFF_MAP_HI, PWR_TRANS_MAP_LO, PWR_TRANS_MAP_HI, PWR_STATE, PWR_TARGET, PWR_PENDING, PWR_PEND_STATE, PWR_LAST_REFUSER, PWR_WAKE_EN, PWR_REFUSED, PWR_ABORTED, PWR_RET_MS, PWR_OFF_MS]
/-- Every row of the PWR page. -/
def rowsPWR : List Fld :=
  rowsPWR0 ++ rowsPWR1 ++ rowsPWR2

/-- R470: 0 FREE, 1 ACQUIRING, 2 LOCKED, 3 HOLDOVER, 4 GM. After a warm reset, or a cold reset with AON held: 3 if ... -/
def TIM_STATE : Fld := ⟨2, 0x100, 0, 3, .ro, .lit 0, .kept, false, .no, 0, 1⟩
/-- R470: R453; AON kept -/
def TIM_VALID : Fld := ⟨2, 0x100, 3, 1, .ro, .lit 0, .kept, true, .no, 0, 1⟩
/-- R470: Parent port; 0xFF none -/
def TIM_PARENT : Fld := ⟨2, 0x104, 0, 8, .ro, .lit 0xFF, .cold, false, .no, 0, 1⟩
/-- R470: R455 -/
def TIM_DEPTH : Fld := ⟨2, 0x104, 8, 5, .ro, .lit 0, .cold, false, .no, 0, 1⟩
/-- R470: 0 never grandmaster; without an image, 0 -/
def TIM_PRIO : Fld := ⟨2, 0x108, 0, 8, .rw, .lit 0, .image, false, .image, 0, 1⟩
/-- R470: Without an image, 0 -/
def TIM_PPS_IN_EN : Fld := ⟨2, 0x108, 8, 1, .rw, .lit 0, .image, false, .image, 0, 1⟩
/-- R470: Without an image, 0 -/
def TIM_PPS_OUT_EN : Fld := ⟨2, 0x108, 9, 1, .rw, .lit 0, .image, false, .image, 0, 1⟩
/-- R470: Port, or 0xFF automatic; without an image, 0xFF -/
def TIM_PARENT_PIN : Fld := ⟨2, 0x10C, 0, 8, .rw, .lit 0xFF, .image, false, .image, 0, 1⟩
/-- R470: 1–31; without an image, 16 -/
def TIM_MAX_DEPTH : Fld := ⟨2, 0x10C, 8, 5, .rw, .lit 0x10, .image, false, .image, 0, 1⟩
/-- R470: µs, 1–1,000; without an image, 10 -/
def TIM_TIME_INT : Fld := ⟨2, 0x110, 0, 10, .rw, .lit 0xA, .image, false, .image, 0, 1⟩
/-- R470: ns, 100–1,000,000; without an image, 1,000 -/
def TIM_STEP_NS : Fld := ⟨2, 0x114, 0, 20, .rw, .lit 0x3E8, .image, false, .image, 0, 1⟩
/-- R470: 1–60,000; without an image, 1,000 -/
def TIM_HOLDOVER_MS : Fld := ⟨2, 0x118, 0, 16, .rw, .lit 0x3E8, .image, false, .image, 0, 1⟩
/-- R470: ms, 1–500; without an image, 100 -/
def TIM_PPS_OUT_W : Fld := ⟨2, 0x11C, 0, 9, .rw, .lit 0x64, .image, false, .image, 0, 1⟩
/-- R470: Fraction; a read latches 0x124 and 0x128; AON kept -/
def TIM_NOW_FRAC : Fld := ⟨2, 0x120, 0, 16, .ro, .lit 0, .kept, true, .no, 0, 1⟩
/-- R470: Fabric time ns [31:0], [63:32]; AON kept -/
def TIM_NOW_NS_LO : Fld := ⟨2, 0x124, 0, 32, .ro, .lit 0, .kept, true, .no, 0, 1⟩
/-- R470: Fabric time ns [31:0], [63:32]; AON kept -/
def TIM_NOW_NS_HI : Fld := ⟨2, 0x128, 0, 32, .ro, .lit 0, .kept, true, .no, 0, 1⟩
/-- R470: GM only: value to set, ns -/
def TIM_SET_NS_LO : Fld := ⟨2, 0x12C, 0, 32, .rw, .lit 0, .cold, false, .no, 0, 1⟩
/-- R470: GM only: value to set, ns -/
def TIM_SET_NS_HI : Fld := ⟨2, 0x130, 0, 32, .rw, .lit 0, .cold, false, .no, 0, 1⟩
/-- R470: Sets fabric time; refused unless STATE = GM -/
def TIM_SET_GO : Fld := ⟨2, 0x134, 0, 1, .w1s, .lit 0, .cold, false, .no, 0, 1⟩
/-- R470: Apply at the next FT_PPS_IN edge (R462) -/
def TIM_SET_AT_PPS : Fld := ⟨2, 0x134, 1, 1, .rw, .lit 0, .cold, false, .no, 0, 1⟩
/-- R470: Frequency correction, signed ppb -/
def TIM_ADJ_PPB : Fld := ⟨2, 0x138, 0, 32, .ro, .lit 0, .kept, false, .no, 0, 1⟩
/-- R470: Parent offset, signed, 1/16 ns -/
def TIM_OFFSET : Fld := ⟨2, 0x13C, 0, 32, .ro, .lit 0, .cold, false, .no, 0, 1⟩
/-- R470: Parent link delay, 1/16 ns -/
def TIM_DELAY : Fld := ⟨2, 0x140, 0, 32, .ro, .lit 0, .cold, false, .no, 0, 1⟩
/-- R470: Grandmaster serial -/
def TIM_GM_ID_LO : Fld := ⟨2, 0x144, 0, 32, .ro, .lit 0, .cold, false, .no, 0, 1⟩
/-- R470: Grandmaster serial -/
def TIM_GM_ID_HI : Fld := ⟨2, 0x148, 0, 32, .ro, .lit 0, .cold, false, .no, 0, 1⟩
/-- R470: — -/
def TIM_GM_PRIO : Fld := ⟨2, 0x14C, 0, 8, .ro, .lit 0, .cold, false, .no, 0, 1⟩
/-- R470: — -/
def TIM_GM_ROUND : Fld := ⟨2, 0x14C, 16, 16, .ro, .lit 0, .cold, false, .no, 0, 1⟩
/-- R470: Seconds; followers take the parent's; without an image, 37 -/
def TIM_TAI_UTC : Fld := ⟨2, 0x150, 0, 16, .rw, .lit 0x25, .image, false, .image, 0, 1⟩
/-- R470: Last edge offset, signed ns -/
def TIM_PPS_IN_ERR : Fld := ⟨2, 0x154, 0, 32, .ro, .lit 0, .cold, false, .no, 0, 1⟩
/-- R470: Phase count -/
def TIM_PHASE : Fld := ⟨2, 0x158, 0, 32, .ro, .lit 0, .cold, false, .no, 0, 1⟩
/-- R470: R463 -/
def TIM_PHASE_LOAD : Fld := ⟨2, 0x15C, 0, 32, .rw, .lit 0, .cold, false, .no, 0, 1⟩
/-- R470: Loads PHASE -/
def TIM_PHASE_LOAD_GO : Fld := ⟨2, 0x160, 0, 1, .w1s, .lit 0, .cold, false, .no, 0, 1⟩
/-- R470: Local time (R452); a read of 0x164 latches 0x168 -/
def TIM_LOCAL_NS_LO : Fld := ⟨2, 0x164, 0, 32, .ro, .lit 0, .kept, false, .no, 0, 1⟩
/-- R470: Local time (R452); a read of 0x164 latches 0x168 -/
def TIM_LOCAL_NS_HI : Fld := ⟨2, 0x168, 0, 32, .ro, .lit 0, .kept, false, .no, 0, 1⟩
/-- R470: Steps taken -/
def TIM_STEPS : Fld := ⟨2, 0x16C, 0, 16, .rc, .lit 0, .cold, false, .no, 0, 1⟩
/-- R470: Parent changes -/
def TIM_PARENT_CHG : Fld := ⟨2, 0x170, 0, 16, .rc, .lit 0, .cold, false, .no, 0, 1⟩
/-- R470: R458 -/
def TIM_DELAY_REJ : Fld := ⟨2, 0x174, 0, 32, .rc, .lit 0, .cold, false, .no, 0, 1⟩
/-- R470: TIME flits received -/
def TIM_TIME_RX : Fld := ⟨2, 0x178, 0, 32, .rc, .lit 0, .cold, false, .no, 0, 1⟩
/-- R470: Port p, signed 1/16 ns; without an image, 0 -/
def TIM_ASYM : Fld := ⟨2, 0x200, 0, 16, .rw, .lit 0, .image, false, .image, 4, 144⟩
/-- R470: Without an image, 1 -/
def TIM_TIME_EN : Fld := ⟨2, 0x200, 16, 1, .rw, .lit 1, .image, false, .image, 4, 144⟩
/-- Rows 1 to 24 of the TIM page. -/
def rowsTIM0 : List Fld :=
  [TIM_STATE, TIM_VALID, TIM_PARENT, TIM_DEPTH, TIM_PRIO, TIM_PPS_IN_EN, TIM_PPS_OUT_EN, TIM_PARENT_PIN, TIM_MAX_DEPTH, TIM_TIME_INT, TIM_STEP_NS, TIM_HOLDOVER_MS, TIM_PPS_OUT_W, TIM_NOW_FRAC, TIM_NOW_NS_LO, TIM_NOW_NS_HI, TIM_SET_NS_LO, TIM_SET_NS_HI, TIM_SET_GO, TIM_SET_AT_PPS, TIM_ADJ_PPB, TIM_OFFSET, TIM_DELAY, TIM_GM_ID_LO]
/-- Rows 25 to 40 of the TIM page. -/
def rowsTIM1 : List Fld :=
  [TIM_GM_ID_HI, TIM_GM_PRIO, TIM_GM_ROUND, TIM_TAI_UTC, TIM_PPS_IN_ERR, TIM_PHASE, TIM_PHASE_LOAD, TIM_PHASE_LOAD_GO, TIM_LOCAL_NS_LO, TIM_LOCAL_NS_HI, TIM_STEPS, TIM_PARENT_CHG, TIM_DELAY_REJ, TIM_TIME_RX, TIM_ASYM, TIM_TIME_EN]
/-- Every row of the TIM page. -/
def rowsTIM : List Fld :=
  rowsTIM0 ++ rowsTIM1

/-- R471: Entry 0–4,095 -/
def HZN_HZ_IDX : Fld := ⟨3, 0x100, 0, 12, .rw, .lit 0, .cold, false, .no, 0, 1⟩
/-- R471: Entry to HZ_DATA -/
def HZN_READ : Fld := ⟨3, 0x104, 0, 1, .w1s, .lit 0, .cold, false, .no, 0, 1⟩
/-- R471: HZ_DATA to the entry (R468) -/
def HZN_WRITE : Fld := ⟨3, 0x104, 1, 1, .w1s, .lit 0, .cold, false, .no, 0, 1⟩
/-- R471: Arms the entry -/
def HZN_ARM : Fld := ⟨3, 0x104, 2, 1, .w1s, .lit 0, .cold, false, .no, 0, 1⟩
/-- R471: Disarms the entry -/
def HZN_DISARM : Fld := ⟨3, 0x104, 3, 1, .w1s, .lit 0, .cold, false, .no, 0, 1⟩
/-- R471: Entry words (R464) -/
def HZN_HZ_DATA : Fld := ⟨3, 0x110, 0, 32, .rw, .lit 0, .cold, false, .no, 4, 8⟩
/-- R471: Armed entries -/
def HZN_ARMED_CNT : Fld := ⟨3, 0x140, 0, 13, .ro, .lit 0, .cold, false, .no, 0, 1⟩
/-- R471: Firings -/
def HZN_FIRED : Fld := ⟨3, 0x144, 0, 32, .rc, .lit 0, .cold, false, .no, 0, 1⟩
/-- R471: Late firings -/
def HZN_LATE : Fld := ⟨3, 0x148, 0, 32, .rc, .lit 0, .cold, false, .no, 0, 1⟩
/-- R471: Moments skipped -/
def HZN_MISSED : Fld := ⟨3, 0x14C, 0, 32, .rc, .lit 0, .cold, false, .no, 0, 1⟩
/-- R471: Actions refused -/
def HZN_FAILED : Fld := ⟨3, 0x150, 0, 32, .rc, .lit 0, .cold, false, .no, 0, 1⟩
/-- R471: Package memory offset, in the telemetry area that the PKM page assigns; [11:0] zero; without an image, 0 -/
def HZN_SNAP_BASE_LO : Fld := ⟨3, 0x160, 0, 32, .rw, .lit 0, .image, false, .image, 0, 1⟩
/-- R471: Package memory offset, in the telemetry area that the PKM page assigns; [11:0] zero; without an image, 0 -/
def HZN_SNAP_BASE_HI : Fld := ⟨3, 0x164, 0, 32, .rw, .lit 0, .image, false, .image, 0, 1⟩
/-- R471: 0–4,095; without an image, 0 -/
def HZN_SNAP_SLOTS : Fld := ⟨3, 0x168, 0, 12, .rw, .lit 0, .image, false, .image, 0, 1⟩
/-- R471: Next time-axis entry due -/
def HZN_NEXT_IDX : Fld := ⟨3, 0x170, 0, 12, .ro, .lit 0, .cold, false, .no, 0, 1⟩
/-- Rows 1 to 15 of the HZN page. -/
def rowsHZN0 : List Fld :=
  [HZN_HZ_IDX, HZN_READ, HZN_WRITE, HZN_ARM, HZN_DISARM, HZN_HZ_DATA, HZN_ARMED_CNT, HZN_FIRED, HZN_LATE, HZN_MISSED, HZN_FAILED, HZN_SNAP_BASE_LO, HZN_SNAP_BASE_HI, HZN_SNAP_SLOTS, HZN_NEXT_IDX]
/-- Every row of the HZN page. -/
def rowsHZN : List Fld :=
  rowsHZN0

/-- R520: R514 -/
def SEC_LC_STATE : Fld := ⟨4, 0x100, 0, 3, .ro, .lit 1, .kept, false, .no, 0, 1⟩
/-- R520: Valid LC_REC entries, 0–16 -/
def SEC_LC_USED : Fld := ⟨4, 0x100, 4, 5, .ro, .lit 1, .kept, false, .no, 0, 1⟩
/-- R520: OWNER slots written, 0–8 -/
def SEC_OWNER_USED : Fld := ⟨4, 0x100, 9, 4, .ro, .lit 0, .kept, false, .no, 0, 1⟩
/-- R520: Bound slot -/
def SEC_OWNER_SLOT : Fld := ⟨4, 0x100, 13, 3, .ro, .lit 0, .kept, false, .no, 0, 1⟩
/-- R520: A slot is bound and not revoked -/
def SEC_OWNER_BOUND : Fld := ⟨4, 0x100, 16, 1, .ro, .lit 0, .kept, false, .no, 0, 1⟩
/-- R520: 0–64 -/
def SEC_FW_RB : Fld := ⟨4, 0x104, 0, 7, .ro, .lit 0, .kept, false, .no, 0, 1⟩
/-- R520: 0–3 -/
def SEC_KEY_RB : Fld := ⟨4, 0x104, 8, 2, .ro, .lit 0, .kept, false, .no, 0, 1⟩
/-- R520: RB_IDX of the running image -/
def SEC_RUN_RB : Fld := ⟨4, 0x108, 0, 7, .ro, .lit 0, .cold, false, .no, 0, 1⟩
/-- R520: KEY_IDX of the running image -/
def SEC_RUN_KEY : Fld := ⟨4, 0x108, 8, 2, .ro, .lit 0, .cold, false, .no, 0, 1⟩
/-- R520: FW_BL of the running image -/
def SEC_RUN_FW_BL : Fld := ⟨4, 0x108, 16, 8, .ro, .lit 0, .cold, false, .no, 0, 1⟩
/-- R520: VERSION [31:0], [63:32]; low word first (R33) -/
def SEC_RUN_VERSION_LO : Fld := ⟨4, 0x10C, 0, 32, .ro, .lit 0, .cold, false, .no, 0, 1⟩
/-- R520: VERSION [31:0], [63:32]; low word first (R33) -/
def SEC_RUN_VERSION_HI : Fld := ⟨4, 0x110, 0, 32, .ro, .lit 0, .cold, false, .no, 0, 1⟩
/-- R520: Reason of R504 at the last check of bank A; 0 passed -/
def SEC_BANK_A_FAIL : Fld := ⟨4, 0x114, 0, 4, .ro, .lit 0, .cold, false, .no, 0, 1⟩
/-- R520: RB_IDX of bank A, valid when its header was valid -/
def SEC_BANK_A_RB : Fld := ⟨4, 0x114, 8, 7, .ro, .lit 0, .cold, false, .no, 0, 1⟩
/-- R520: As BANK_A_FAIL -/
def SEC_BANK_B_FAIL : Fld := ⟨4, 0x118, 0, 4, .ro, .lit 0, .cold, false, .no, 0, 1⟩
/-- R520: As BANK_A_RB -/
def SEC_BANK_B_RB : Fld := ⟨4, 0x118, 8, 7, .ro, .lit 0, .cold, false, .no, 0, 1⟩
/-- R520: Staging bank: 0 A, 1 B -/
def SEC_STAGE_BANK : Fld := ⟨4, 0x11C, 0, 1, .ro, .lit 0, .cold, false, .no, 0, 1⟩
/-- R520: A staging owner holds the bank -/
def SEC_STAGE_OPEN : Fld := ⟨4, 0x11C, 1, 1, .ro, .lit 0, .cold, false, .no, 0, 1⟩
/-- R520: Distinct chunks received -/
def SEC_STAGE_CHUNKS : Fld := ⟨4, 0x11C, 16, 16, .ro, .lit 0, .cold, false, .no, 0, 1⟩
/-- R520: Identity public key, byte 0 at 0x120 [7:0]; zero in BLANK and RETIRED -/
def SEC_IDENT_PUB : Fld := ⟨4, 0x120, 0, 32, .ro, .lit 0, .cold, false, .no, 4, 8⟩
/-- R520: Bound owner key; zero if none -/
def SEC_OWNER_PUB : Fld := ⟨4, 0x140, 0, 32, .ro, .lit 0, .kept, false, .no, 4, 8⟩
/-- R520: SERIAL [31:0], [63:32] -/
def SEC_SERIAL_LO : Fld := ⟨4, 0x160, 0, 32, .ro, .lit 0, .kept, false, .no, 0, 1⟩
/-- R520: SERIAL [31:0], [63:32] -/
def SEC_SERIAL_HI : Fld := ⟨4, 0x164, 0, 32, .ro, .lit 0, .kept, false, .no, 0, 1⟩
/-- R520: 0 OK, 1 NOT_READY, 2 NOT_ALLOWED, 3 AUTH, 4 NONCE, 5 RECORD_FULL, 6 OWNER_FULL, 7 OTP_WRITE, 8 FALLBACK -/
def SEC_LC_STATUS : Fld := ⟨4, 0x168, 0, 8, .ro, .lit 0, .kept, false, .no, 0, 1⟩
/-- R520: Sub-command of LC_STATUS -/
def SEC_LC_SUBOP : Fld := ⟨4, 0x168, 8, 8, .ro, .lit 0, .kept, false, .no, 0, 1⟩
/-- R520: SPDM requests served -/
def SEC_SPDM_REQ : Fld := ⟨4, 0x16C, 0, 32, .rc, .lit 0, .cold, false, .no, 0, 1⟩
/-- R520: SPDM ERROR responses sent -/
def SEC_SPDM_ERR : Fld := ⟨4, 0x170, 0, 32, .rc, .lit 0, .cold, false, .no, 0, 1⟩
/-- R520: Banks failing reason 6 at boot or FW_ACTIVATE -/
def SEC_SIG_FAIL : Fld := ⟨4, 0x174, 0, 16, .rc, .lit 0, .cold, false, .no, 0, 1⟩
/-- R520: Authorizations that failed (R516) -/
def SEC_AUTH_FAIL_CNT : Fld := ⟨4, 0x178, 0, 16, .rc, .lit 0, .cold, false, .no, 0, 1⟩
/-- R520: Measurement 2, byte 0 at 0x1C0 [7:0] -/
def SEC_RUN_DIGEST : Fld := ⟨4, 0x1C0, 0, 32, .ro, .lit 0, .cold, false, .no, 4, 16⟩
/-- Rows 1 to 24 of the SEC page. -/
def rowsSEC0 : List Fld :=
  [SEC_LC_STATE, SEC_LC_USED, SEC_OWNER_USED, SEC_OWNER_SLOT, SEC_OWNER_BOUND, SEC_FW_RB, SEC_KEY_RB, SEC_RUN_RB, SEC_RUN_KEY, SEC_RUN_FW_BL, SEC_RUN_VERSION_LO, SEC_RUN_VERSION_HI, SEC_BANK_A_FAIL, SEC_BANK_A_RB, SEC_BANK_B_FAIL, SEC_BANK_B_RB, SEC_STAGE_BANK, SEC_STAGE_OPEN, SEC_STAGE_CHUNKS, SEC_IDENT_PUB, SEC_OWNER_PUB, SEC_SERIAL_LO, SEC_SERIAL_HI, SEC_LC_STATUS]
/-- Rows 25 to 30 of the SEC page. -/
def rowsSEC1 : List Fld :=
  [SEC_LC_SUBOP, SEC_SPDM_REQ, SEC_SPDM_ERR, SEC_SIG_FAIL, SEC_AUTH_FAIL_CNT, SEC_RUN_DIGEST]
/-- Every row of the SEC page. -/
def rowsSEC : List Fld :=
  rowsSEC0 ++ rowsSEC1

/-- R539: Entries held, 0–4,096; follows the retained log (R531); AON kept -/
def LOG_COUNT : Fld := ⟨5, 0x100, 0, 13, .ro, .lit 0, .kept, true, .no, 0, 1⟩
/-- R539: SEQ of the next entry; follows the retained log; AON kept -/
def LOG_NEXT_SEQ : Fld := ⟨5, 0x104, 0, 16, .ro, .lit 0, .kept, true, .no, 0, 1⟩
/-- R539: 0 overwrite the oldest, 1 stop when full; AON kept -/
def LOG_STOP : Fld := ⟨5, 0x108, 0, 1, .rws, .lit 0, .kept, true, .no, 0, 1⟩
/-- R539: Empties the log; SEQ continues; self-clearing -/
def LOG_CLR : Fld := ⟨5, 0x108, 1, 1, .w1s, .lit 0, .cold, false, .no, 0, 1⟩
/-- R539: µs, 1–65,535 (R529); AON kept -/
def LOG_HOLDOFF : Fld := ⟨5, 0x108, 8, 16, .rws, .lit 0xA, .kept, true, .no, 0, 1⟩
/-- R539: LOG_COUNT raising LOG_FILLING, 1–4,096; 0 off; AON kept -/
def LOG_WARN_LEVEL : Fld := ⟨5, 0x10C, 0, 13, .rws, .lit 0xE00, .kept, true, .no, 0, 1⟩
/-- R539: Entry to read -/
def LOG_RD_SEQ : Fld := ⟨5, 0x110, 0, 16, .rw, .lit 0, .cold, false, .no, 0, 1⟩
/-- R539: Copies the entry to LOG_DATA; self-clearing -/
def LOG_RD_GO : Fld := ⟨5, 0x114, 0, 1, .w1s, .lit 0, .cold, false, .no, 0, 1⟩
/-- R539: The entry was retained -/
def LOG_RD_VALID : Fld := ⟨5, 0x114, 1, 1, .ro, .lit 0, .cold, false, .no, 0, 1⟩
/-- R539: Entries dropped by LOG_STOP; AON kept -/
def LOG_DROPPED : Fld := ⟨5, 0x118, 0, 32, .rc, .lit 0, .kept, true, .no, 0, 1⟩
/-- R539: Entries withheld by LOG_HOLDOFF; AON kept -/
def LOG_SUPPRESSED : Fld := ⟨5, 0x11C, 0, 32, .rc, .lit 0, .kept, true, .no, 0, 1⟩
/-- R539: Entry bytes 0–31 (R530) -/
def LOG_DATA : Fld := ⟨5, 0x120, 0, 32, .ro, .lit 0, .cold, false, .no, 4, 8⟩
/-- R539: Corrected words of main-die SRAM without a block counter of their own (R522) -/
def LOG_SRAM_CORR : Fld := ⟨5, 0x140, 0, 32, .rc, .lit 0, .cold, false, .no, 0, 1⟩
/-- R539: Uncorrectable words of main-die SRAM -/
def LOG_SRAM_UNCORR : Fld := ⟨5, 0x144, 0, 32, .rc, .lit 0, .cold, false, .no, 0, 1⟩
/-- R539: Corrected AON SRAM and MRAM words -/
def LOG_AON_CORR : Fld := ⟨5, 0x148, 0, 32, .rc, .lit 0, .kept, false, .no, 0, 1⟩
/-- R539: R527 -/
def LOG_MP_RESTARTS : Fld := ⟨5, 0x14C, 0, 16, .rc, .lit 0, .kept, false, .no, 0, 1⟩
/-- R539: Island 0–19 for the aging registers -/
def LOG_AGE_ISL : Fld := ⟨5, 0x180, 0, 5, .rw, .lit 0, .cold, false, .no, 0, 1⟩
/-- R539: History entry 0–31; 0 the newest -/
def LOG_AGE_IDX : Fld := ⟨5, 0x180, 8, 5, .rw, .lit 0, .cold, false, .no, 0, 1⟩
/-- R539: R532 -/
def LOG_AGE_RO_PPM : Fld := ⟨5, 0x184, 0, 32, .ro, .lit 0, .kept, false, .no, 0, 1⟩
/-- R539: Voltage codes; 0xFF no lane measured -/
def LOG_AGE_MARGIN : Fld := ⟨5, 0x188, 0, 8, .ro, .lit 0xFF, .kept, false, .no, 0, 1⟩
/-- R539: Mean AGE_RO_PPM of the indexed period -/
def LOG_AGE_HIST_RO : Fld := ⟨5, 0x18C, 0, 32, .ro, .lit 0, .kept, false, .no, 0, 1⟩
/-- R539: Median margin of the indexed period -/
def LOG_AGE_HIST_MARGIN : Fld := ⟨5, 0x190, 0, 8, .ro, .lit 0, .kept, false, .no, 0, 1⟩
/-- R539: The indexed entry holds a period -/
def LOG_AGE_HIST_VALID : Fld := ⟨5, 0x190, 31, 1, .ro, .lit 0, .kept, false, .no, 0, 1⟩
/-- R539: 1–90 -/
def LOG_TREND_DAYS : Fld := ⟨5, 0x194, 0, 7, .rws, .lit 7, .kept, false, .no, 0, 1⟩
/-- R539: LIFE_PPM level, 1–1,000,000 -/
def LOG_AGE_WARN : Fld := ⟨5, 0x198, 0, 20, .rws, .lit 0xC3500, .kept, false, .no, 0, 1⟩
/-- R539: Voltage codes, 1–63 -/
def LOG_MARGIN_WARN : Fld := ⟨5, 0x19C, 0, 8, .rws, .lit 6, .kept, false, .no, 0, 1⟩
/-- R539: R533 -/
def LOG_LIFE_PPM : Fld := ⟨5, 0x1A0, 0, 20, .ro, .lit 0, .kept, false, .no, 0, 1⟩
/-- R539: R533; 25,000 on stepping A1 -/
def LOG_AGE_EOL_PPM : Fld := ⟨5, 0x1A4, 0, 32, .ro, .lit 0x61A8, .kept, false, .no, 0, 1⟩
/-- Rows 1 to 24 of the LOG page. -/
def rowsLOG0 : List Fld :=
  [LOG_COUNT, LOG_NEXT_SEQ, LOG_STOP, LOG_CLR, LOG_HOLDOFF, LOG_WARN_LEVEL, LOG_RD_SEQ, LOG_RD_GO, LOG_RD_VALID, LOG_DROPPED, LOG_SUPPRESSED, LOG_DATA, LOG_SRAM_CORR, LOG_SRAM_UNCORR, LOG_AON_CORR, LOG_MP_RESTARTS, LOG_AGE_ISL, LOG_AGE_IDX, LOG_AGE_RO_PPM, LOG_AGE_MARGIN, LOG_AGE_HIST_RO, LOG_AGE_HIST_MARGIN, LOG_AGE_HIST_VALID, LOG_TREND_DAYS]
/-- Rows 25 to 28 of the LOG page. -/
def rowsLOG1 : List Fld :=
  [LOG_AGE_WARN, LOG_MARGIN_WARN, LOG_LIFE_PPM, LOG_AGE_EOL_PPM]
/-- Every row of the LOG page. -/
def rowsLOG : List Fld :=
  rowsLOG0 ++ rowsLOG1

/-- R540: Bit j: job j RUNNING -/
def CHK_JOBS_BUSY : Fld := ⟨6, 0x100, 0, 16, .ro, .lit 0, .cold, false, .no, 0, 1⟩
/-- R540: Bit j: job j reached a final state -/
def CHK_JOBS_DONE : Fld := ⟨6, 0x104, 0, 16, .w1c, .lit 0, .cold, false, .no, 0, 1⟩
/-- R540: Repeats and gaps over every job -/
def CHK_ALV_FLAGS : Fld := ⟨6, 0x108, 0, 32, .rc, .lit 0, .cold, false, .no, 0, 1⟩
/-- R540: Bytes read, in 4 KiB units -/
def CHK_BYTES_TOTAL : Fld := ⟨6, 0x10C, 0, 32, .rc, .lit 0, .cold, false, .no, 0, 1⟩
/-- R540: Starts the job; clears its results; self-clearing -/
def CHK_GO : Fld := ⟨6, 0x200, 0, 1, .w1s, .lit 0, .cold, false, .no, 0x40, 16⟩
/-- R540: Ends a running job -/
def CHK_ABORT : Fld := ⟨6, 0x200, 1, 1, .w1s, .lit 0, .cold, false, .no, 0x40, 16⟩
/-- R540: R536 -/
def CHK_STATE : Fld := ⟨6, 0x200, 2, 3, .ro, .lit 0, .cold, false, .no, 0x40, 16⟩
/-- R540: R534; 3 refused -/
def CHK_POLY : Fld := ⟨6, 0x200, 5, 2, .rw, .lit 0, .cold, false, .no, 0x40, 16⟩
/-- R540: 0 host memory, 1 package memory -/
def CHK_SRC : Fld := ⟨6, 0x200, 7, 1, .rw, .lit 0, .cold, false, .no, 0x40, 16⟩
/-- R540: Start from SEED (R534) -/
def CHK_CONT : Fld := ⟨6, 0x200, 8, 1, .rw, .lit 0, .cold, false, .no, 0x40, 16⟩
/-- R540: 0 off, 1 sequence, 2 watch; 3 refused -/
def CHK_ALV_MODE : Fld := ⟨6, 0x200, 9, 2, .rw, .lit 0, .cold, false, .no, 0x40, 16⟩
/-- R540: — -/
def CHK_PASID : Fld := ⟨6, 0x204, 0, 20, .rw, .lit 0, .cold, false, .no, 0x40, 16⟩
/-- R540: VH of a host scan -/
def CHK_VH : Fld := ⟨6, 0x204, 20, 4, .rw, .lit 0, .cold, false, .no, 0x40, 16⟩
/-- R540: — -/
def CHK_PASID_EN : Fld := ⟨6, 0x204, 31, 1, .rw, .lit 0, .cold, false, .no, 0x40, 16⟩
/-- R540: Bus address or package memory offset; low word first -/
def CHK_ADDR_LO : Fld := ⟨6, 0x208, 0, 32, .rw, .lit 0, .cold, false, .no, 0x40, 16⟩
/-- R540: Bus address or package memory offset; low word first -/
def CHK_ADDR_HI : Fld := ⟨6, 0x20C, 0, 32, .rw, .lit 0, .cold, false, .no, 0x40, 16⟩
/-- R540: Bytes [31:0] -/
def CHK_LEN_LO : Fld := ⟨6, 0x210, 0, 32, .rw, .lit 0, .cold, false, .no, 0x40, 16⟩
/-- R540: Bytes [40:32]; LEN = 0x100_0000_0000 is 2⁴⁰, the largest permitted (R535) -/
def CHK_LEN_HI : Fld := ⟨6, 0x214, 0, 9, .rw, .lit 0, .cold, false, .no, 0x40, 16⟩
/-- R540: R537 -/
def CHK_ALV_OFS : Fld := ⟨6, 0x214, 16, 16, .rw, .lit 0, .cold, false, .no, 0x40, 16⟩
/-- R540: 8–65,536 -/
def CHK_RECLEN : Fld := ⟨6, 0x218, 0, 17, .rw, .lit 0, .cold, false, .no, 0x40, 16⟩
/-- R540: µs, 1–16,777,215 -/
def CHK_WATCH_US : Fld := ⟨6, 0x21C, 0, 24, .rw, .lit 0, .cold, false, .no, 0x40, 16⟩
/-- R540: R534 -/
def CHK_SEED_LO : Fld := ⟨6, 0x220, 0, 32, .rw, .lit 0, .cold, false, .no, 0x40, 16⟩
/-- R540: R534 -/
def CHK_SEED_HI : Fld := ⟨6, 0x224, 0, 32, .rw, .lit 0, .cold, false, .no, 0x40, 16⟩
/-- R540: CRC; CRC-32 results in +0x28 with +0x2C zero -/
def CHK_RESULT_LO : Fld := ⟨6, 0x228, 0, 32, .ro, .lit 0, .cold, false, .no, 0x40, 16⟩
/-- R540: CRC; CRC-32 results in +0x28 with +0x2C zero -/
def CHK_RESULT_HI : Fld := ⟨6, 0x22C, 0, 32, .ro, .lit 0, .cold, false, .no, 0x40, 16⟩
/-- R540: BYTES_DONE [31:0] -/
def CHK_BYTES_LO : Fld := ⟨6, 0x230, 0, 32, .ro, .lit 0, .cold, false, .no, 0x40, 16⟩
/-- R540: BYTES_DONE [40:32] -/
def CHK_BYTES_HI : Fld := ⟨6, 0x234, 0, 9, .ro, .lit 0, .cold, false, .no, 0x40, 16⟩
/-- R540: R536 -/
def CHK_JSTATUS : Fld := ⟨6, 0x234, 16, 8, .ro, .lit 0, .cold, false, .no, 0x40, 16⟩
/-- R540: Saturating -/
def CHK_REPEATS : Fld := ⟨6, 0x238, 0, 16, .ro, .lit 0, .cold, false, .no, 0x40, 16⟩
/-- R540: Saturating -/
def CHK_GAPS : Fld := ⟨6, 0x238, 16, 16, .ro, .lit 0, .cold, false, .no, 0x40, 16⟩
/-- R540: Record or read of the first flag; all ones none -/
def CHK_FIRST_FLAG : Fld := ⟨6, 0x23C, 0, 32, .ro, .lit 0xFFFFFFFF, .cold, false, .no, 0x40, 16⟩
/-- R540: Records missing in gaps, saturating -/
def CHK_MISSING : Fld := ⟨6, 0x600, 0, 32, .ro, .lit 0, .cold, false, .no, 4, 16⟩
/-- Rows 1 to 24 of the CHK page. -/
def rowsCHK0 : List Fld :=
  [CHK_JOBS_BUSY, CHK_JOBS_DONE, CHK_ALV_FLAGS, CHK_BYTES_TOTAL, CHK_GO, CHK_ABORT, CHK_STATE, CHK_POLY, CHK_SRC, CHK_CONT, CHK_ALV_MODE, CHK_PASID, CHK_VH, CHK_PASID_EN, CHK_ADDR_LO, CHK_ADDR_HI, CHK_LEN_LO, CHK_LEN_HI, CHK_ALV_OFS, CHK_RECLEN, CHK_WATCH_US, CHK_SEED_LO, CHK_SEED_HI, CHK_RESULT_LO]
/-- Rows 25 to 32 of the CHK page. -/
def rowsCHK1 : List Fld :=
  [CHK_RESULT_HI, CHK_BYTES_LO, CHK_BYTES_HI, CHK_JSTATUS, CHK_REPEATS, CHK_GAPS, CHK_FIRST_FLAG, CHK_MISSING]
/-- Every row of the CHK page. -/
def rowsCHK : List Fld :=
  rowsCHK0 ++ rowsCHK1

end Reg

end Sys2Proof.Machine
end

