-- ==== Sys2Proof/Machine/FieldsDatapath.lean ====
section
/-!
DEFINITION. The register fields of the pages LANE, ISL, LNK, ETH, STR, HBR, SCH, MTR, RTE, one definition per row of the register tables of spec/:
page type, offset, lowest bit, width, access, value at cold reset, source at warm reset, AON kept, array stride and count.
-/

namespace Sys2Proof.Machine

namespace Reg

/-- R117: Physical position; 8 is the spare -/
def LANE_POS : Fld := ⟨8, 0x100, 0, 4, .ro, .instMod 9, .cold, false, .no, 0, 1⟩
/-- R117: Island -/
def LANE_ISLAND : Fld := ⟨8, 0x100, 4, 5, .ro, .instDiv 9, .cold, false, .no, 0, 1⟩
/-- R117: Spare lane -/
def LANE_SPARE : Fld := ⟨8, 0x100, 9, 1, .ro, .instIs 9 8, .cold, false, .no, 0, 1⟩
/-- R117: Lane chiplet -/
def LANE_CHIPLET : Fld := ⟨8, 0x100, 10, 3, .ro, .instDiv 27, .cold, false, .no, 0, 1⟩
/-- R117: 0 OFF, 1 DETECT, 2 LOCK, 3 MARKER, 4 QUAL, 5 SUBST, 6 ALIGN, 7 UP, 8 TEST, 9 FAILED -/
def LANE_BSTATE : Fld := ⟨8, 0x104, 0, 4, .ro, .lit 0, .cold, false, .no, 0, 1⟩
/-- R117: Symbol lock held -/
def LANE_LOCKED : Fld := ⟨8, 0x104, 4, 1, .ro, .lit 0, .cold, false, .no, 0, 1⟩
/-- R117: Receive polarity inverted (R105) -/
def LANE_POL_INV : Fld := ⟨8, 0x104, 5, 1, .ro, .lit 0, .cold, false, .no, 0, 1⟩
/-- R117: The lane's port is reversed -/
def LANE_REVERSED : Fld := ⟨8, 0x104, 6, 1, .ro, .lit 0, .cold, false, .no, 0, 1⟩
/-- R117: Passed the last qualification -/
def LANE_QUAL_PASS : Fld := ⟨8, 0x104, 7, 1, .ro, .lit 0, .cold, false, .no, 0, 1⟩
/-- R117: This position is carried by the spare -/
def LANE_SUBSTITUTED : Fld := ⟨8, 0x104, 8, 1, .ro, .lit 0, .cold, false, .no, 0, 1⟩
/-- R117: Trim running -/
def LANE_TRIM_ACTIVE : Fld := ⟨8, 0x104, 9, 1, .ro, .lit 0, .cold, false, .no, 0, 1⟩
/-- R117: Logical position carried; 15 none -/
def LANE_LOGICAL : Fld := ⟨8, 0x104, 10, 4, .ro, .lit 0xF, .cold, false, .no, 0, 1⟩
/-- R117: 0 idle, 1 PCIe or CXL, 2 SFL1, 3 SFL2-L, 4 SFL2-S, 5 ETH 100 Gb/s, 6 ETH 200 Gb/s -/
def LANE_MODE : Fld := ⟨8, 0x108, 0, 4, .ro, .lit 0, .cold, false, .no, 0, 1⟩
/-- R117: Current PCIe generation, 1–6 -/
def LANE_PCIE_GEN : Fld := ⟨8, 0x108, 4, 4, .ro, .lit 0, .cold, false, .no, 0, 1⟩
/-- R117: Duration of the last bring-up in µs, T0 to step 8; saturates at 65,535 -/
def LANE_BRINGUP_US : Fld := ⟨8, 0x10C, 0, 16, .ro, .lit 0, .cold, false, .no, 0, 1⟩
/-- R117: C−3 [7:0], C−2 [15:8], C−1 [23:16], C0 [31:24] of set A -/
def LANE_TX_A : Fld := ⟨8, 0x110, 0, 32, .rwc, .lit 0x70F80000, .table, false, .table, 0, 1⟩
/-- R117: C+1 of set A -/
def LANE_TX_A_POST : Fld := ⟨8, 0x114, 0, 8, .rwc, .lit 0xF8, .table, false, .table, 0, 1⟩
/-- R117: Peaking code -/
def LANE_CTLE_PEAK_A : Fld := ⟨8, 0x114, 8, 5, .rwc, .lit 0xC, .table, false, .table, 0, 1⟩
/-- R117: DC gain code -/
def LANE_CTLE_DC_A : Fld := ⟨8, 0x114, 16, 4, .rwc, .lit 8, .table, false, .table, 0, 1⟩
/-- R117: Taps 1–4, tap k at [8k−1:8k−8] -/
def LANE_DFE_A_LO : Fld := ⟨8, 0x118, 0, 32, .rwc, .lit 0, .table, false, .table, 0, 1⟩
/-- R117: Taps 5–8, tap k at [8k−33:8k−40] -/
def LANE_DFE_A_HI : Fld := ⟨8, 0x11C, 0, 32, .rwc, .lit 0, .table, false, .table, 0, 1⟩
/-- R117: Same layout as 0x110–0x11C -/
def LANE_TX_B : Fld := ⟨8, 0x120, 0, 32, .rwc, .lit 0x70F80000, .table, false, .table, 0, 1⟩
/-- R117: Same layout as 0x110–0x11C -/
def LANE_TX_B_POST : Fld := ⟨8, 0x124, 0, 8, .rwc, .lit 0xF8, .table, false, .table, 0, 1⟩
/-- R117: Same layout as 0x110–0x11C -/
def LANE_CTLE_PEAK_B : Fld := ⟨8, 0x124, 8, 5, .rwc, .lit 0xC, .table, false, .table, 0, 1⟩
/-- R117: Same layout as 0x110–0x11C -/
def LANE_CTLE_DC_B : Fld := ⟨8, 0x124, 16, 4, .rwc, .lit 8, .table, false, .table, 0, 1⟩
/-- R117: Same layout as 0x110–0x11C -/
def LANE_DFE_B_LO : Fld := ⟨8, 0x128, 0, 32, .rwc, .lit 0, .table, false, .table, 0, 1⟩
/-- R117: Same layout as 0x110–0x11C -/
def LANE_DFE_B_HI : Fld := ⟨8, 0x12C, 0, 32, .rwc, .lit 0, .table, false, .table, 0, 1⟩
/-- R117: Background trim (R101) -/
def LANE_TRIM_EN : Fld := ⟨8, 0x130, 0, 1, .rw, .lit 1, .table, false, .table, 0, 1⟩
/-- R117: Signed 3-bit offsets: CTLE peaking [2:0]; DFE tap k at [3k+2:3k] -/
def LANE_TRIM_OFS : Fld := ⟨8, 0x134, 0, 27, .ro, .lit 0, .cold, false, .no, 0, 1⟩
/-- R117: Pre-FEC symbol errors on this lane -/
def LANE_FEC_SYM_ERR : Fld := ⟨8, 0x138, 0, 32, .rc, .lit 0, .cold, false, .no, 0, 1⟩
/-- R117: Losses of lock of this lane, and bring-up restarts counted on this lane by R104 -/
def LANE_LOCK_LOSS : Fld := ⟨8, 0x13C, 0, 16, .rc, .lit 0, .cold, false, .no, 0, 1⟩
/-- R117: Pattern generator on (R114) -/
def LANE_GEN_EN : Fld := ⟨8, 0x140, 0, 1, .rw, .lit 0, .cold, false, .no, 0, 1⟩
/-- R117: 0 PRBS7, 1 PRBS13, 2 PRBS15, 3 PRBS23, 4 PRBS31 -/
def LANE_GEN_PAT : Fld := ⟨8, 0x140, 1, 3, .rw, .lit 0, .cold, false, .no, 0, 1⟩
/-- R117: Checker on -/
def LANE_CHK_EN : Fld := ⟨8, 0x140, 4, 1, .rw, .lit 0, .cold, false, .no, 0, 1⟩
/-- R117: As GEN_PAT -/
def LANE_CHK_PAT : Fld := ⟨8, 0x140, 5, 3, .rw, .lit 0, .cold, false, .no, 0, 1⟩
/-- R117: Inverts generated and expected patterns -/
def LANE_INV : Fld := ⟨8, 0x140, 8, 1, .rw, .lit 0, .cold, false, .no, 0, 1⟩
/-- R117: Loop (R113) -/
def LANE_LOOP : Fld := ⟨8, 0x140, 9, 2, .rw, .lit 0, .cold, false, .no, 0, 1⟩
/-- R117: Injects one error; self-clearing -/
def LANE_INJ_ONE : Fld := ⟨8, 0x144, 0, 1, .w1s, .lit 0, .cold, false, .no, 0, 1⟩
/-- R117: 0 off; 8–31 one error per 2^n bits; 1–7 read as 0 -/
def LANE_INJ_RATE : Fld := ⟨8, 0x144, 8, 5, .rw, .lit 0, .cold, false, .no, 0, 1⟩
/-- R117: Checker locked -/
def LANE_CHK_LOCK : Fld := ⟨8, 0x148, 0, 1, .ro, .lit 0, .cold, false, .no, 0, 1⟩
/-- R117: A counter has saturated -/
def LANE_CHK_SAT : Fld := ⟨8, 0x148, 1, 1, .ro, .lit 0, .cold, false, .no, 0, 1⟩
/-- R117: 48-bit error count; read low word first (R33) -/
def LANE_PRBS_ERR_LO : Fld := ⟨8, 0x150, 0, 32, .rc, .lit 0, .cold, false, .no, 0, 1⟩
/-- R117: 48-bit error count; read low word first (R33) -/
def LANE_PRBS_ERR_HI : Fld := ⟨8, 0x154, 0, 16, .rc, .lit 0, .cold, false, .no, 0, 1⟩
/-- R117: 48-bit count of bits checked -/
def LANE_PRBS_BITS_LO : Fld := ⟨8, 0x158, 0, 32, .rc, .lit 0, .cold, false, .no, 0, 1⟩
/-- R117: 48-bit count of bits checked -/
def LANE_PRBS_BITS_HI : Fld := ⟨8, 0x15C, 0, 16, .rc, .lit 0, .cold, false, .no, 0, 1⟩
/-- R117: Starts a scan; self-clearing -/
def LANE_EYE_START : Fld := ⟨8, 0x160, 0, 1, .w1s, .lit 0, .cold, false, .no, 0, 1⟩
/-- R117: Ends a scan with ABORTED -/
def LANE_EYE_ABORT : Fld := ⟨8, 0x160, 1, 1, .w1s, .lit 0, .cold, false, .no, 0, 1⟩
/-- R117: Eye (R115) -/
def LANE_EYE_SEL : Fld := ⟨8, 0x160, 2, 3, .rw, .lit 0, .cold, false, .no, 0, 1⟩
/-- R117: log2 of symbols per point, 10–30 -/
def LANE_DWELL : Fld := ⟨8, 0x160, 5, 5, .rw, .lit 0x14, .cold, false, .no, 0, 1⟩
/-- R117: 0–3 for 1, 2, 4, 8 codes -/
def LANE_PH_STEP : Fld := ⟨8, 0x160, 10, 2, .rw, .lit 0, .cold, false, .no, 0, 1⟩
/-- R117: As PH_STEP -/
def LANE_V_STEP : Fld := ⟨8, 0x160, 12, 2, .rw, .lit 0, .cold, false, .no, 0, 1⟩
/-- R117: Scan running -/
def LANE_EYE_BUSY : Fld := ⟨8, 0x164, 0, 1, .ro, .lit 0, .cold, false, .no, 0, 1⟩
/-- R117: Scan ended -/
def LANE_EYE_DONE : Fld := ⟨8, 0x164, 1, 1, .ro, .lit 0, .cold, false, .no, 0, 1⟩
/-- R117: Scan ended early (R116) -/
def LANE_EYE_ABORTED : Fld := ⟨8, 0x164, 2, 1, .ro, .lit 0, .cold, false, .no, 0, 1⟩
/-- R117: Points completed -/
def LANE_EYE_POINTS : Fld := ⟨8, 0x164, 16, 12, .ro, .lit 0, .cold, false, .no, 0, 1⟩
/-- R117: Phase code [5:0], voltage code [13:8], each 0–63 for −32 to +31 -/
def LANE_EYE_IDX : Fld := ⟨8, 0x168, 0, 14, .rw, .lit 0, .cold, false, .no, 0, 1⟩
/-- R117: [31] point valid; [30:0] errors at the indexed point, saturating -/
def LANE_EYE_DATA : Fld := ⟨8, 0x16C, 0, 32, .ro, .lit 0, .cold, false, .no, 0, 1⟩
/-- R117: Service lane: substitute at next bring-up. Refused with CFG_SPARE_PERS off SFL, and with 0x0062 ... -/
def LANE_SPARE_REQ : Fld := ⟨8, 0x170, 0, 1, .w1s, .lit 0, .cold, false, .no, 0, 1⟩
/-- R117: Releases a held substitution at next bring-up -/
def LANE_SPARE_REL : Fld := ⟨8, 0x170, 1, 1, .w1s, .lit 0, .cold, false, .no, 0, 1⟩
/-- R117: A substitution is held for this position (R110) -/
def LANE_HELD : Fld := ⟨8, 0x170, 2, 1, .ro, .lit 0, .kept, false, .image, 0, 1⟩
/-- R117: Spare lane only: carrying a position -/
def LANE_SPARE_VALID : Fld := ⟨8, 0x174, 3, 1, .ro, .lit 0, .kept, false, .no, 0, 1⟩
/-- R117: Position carried -/
def LANE_SPARE_FOR : Fld := ⟨8, 0x174, 0, 3, .ro, .lit 0, .kept, false, .no, 0, 1⟩
/-- R117: Errors counted at the last qualification -/
def LANE_QUAL_ERR : Fld := ⟨8, 0x178, 0, 32, .ro, .lit 0, .cold, false, .no, 0, 1⟩
/-- Rows 1 to 24 of the LANE page. -/
def rowsLANE0 : List Fld :=
  [LANE_POS, LANE_ISLAND, LANE_SPARE, LANE_CHIPLET, LANE_BSTATE, LANE_LOCKED, LANE_POL_INV, LANE_REVERSED, LANE_QUAL_PASS, LANE_SUBSTITUTED, LANE_TRIM_ACTIVE, LANE_LOGICAL, LANE_MODE, LANE_PCIE_GEN, LANE_BRINGUP_US, LANE_TX_A, LANE_TX_A_POST, LANE_CTLE_PEAK_A, LANE_CTLE_DC_A, LANE_DFE_A_LO, LANE_DFE_A_HI, LANE_TX_B, LANE_TX_B_POST, LANE_CTLE_PEAK_B]
/-- Rows 25 to 48 of the LANE page. -/
def rowsLANE1 : List Fld :=
  [LANE_CTLE_DC_B, LANE_DFE_B_LO, LANE_DFE_B_HI, LANE_TRIM_EN, LANE_TRIM_OFS, LANE_FEC_SYM_ERR, LANE_LOCK_LOSS, LANE_GEN_EN, LANE_GEN_PAT, LANE_CHK_EN, LANE_CHK_PAT, LANE_INV, LANE_LOOP, LANE_INJ_ONE, LANE_INJ_RATE, LANE_CHK_LOCK, LANE_CHK_SAT, LANE_PRBS_ERR_LO, LANE_PRBS_ERR_HI, LANE_PRBS_BITS_LO, LANE_PRBS_BITS_HI, LANE_EYE_START, LANE_EYE_ABORT, LANE_EYE_SEL]
/-- Rows 49 to 63 of the LANE page. -/
def rowsLANE2 : List Fld :=
  [LANE_DWELL, LANE_PH_STEP, LANE_V_STEP, LANE_EYE_BUSY, LANE_EYE_DONE, LANE_EYE_ABORTED, LANE_EYE_POINTS, LANE_EYE_IDX, LANE_EYE_DATA, LANE_SPARE_REQ, LANE_SPARE_REL, LANE_HELD, LANE_SPARE_VALID, LANE_SPARE_FOR, LANE_QUAL_ERR]
/-- Every row of the LANE page. -/
def rowsLANE : List Fld :=
  rowsLANE0 ++ rowsLANE1 ++ rowsLANE2

/-- R186: 0 NONE, 1 EXP, 2 SFL, 3 ETH (C1, C5) -/
def ISL_PERS : Fld := ⟨9, 0x100, 0, 2, .rwc, .lit 0, .table, false, .table, 0, 1⟩
/-- R186: 0 L, 1 S -/
def ISL_REACH : Fld := ⟨9, 0x100, 2, 1, .rwc, .lit 0, .table, false, .table, 0, 1⟩
/-- R186: I(2k) only: forms a ×16 with I(2k+1); reads 0 on odd islands -/
def ISL_X16 : Fld := ⟨9, 0x100, 3, 1, .rwc, .lit 0, .table, false, .table, 0, 1⟩
/-- R186: Island in test (R114). Setting it runs an island reset and holds every port at LSTATE TEST. Clearing it ... -/
def ISL_TEST : Fld := ⟨9, 0x100, 4, 1, .rw, .lit 0, .cold, false, .no, 0, 1⟩
/-- R186: Positions 0–3, byte j at [8j+7:8j], encoded as R97 -/
def ISL_PORT_CFG_LO : Fld := ⟨9, 0x104, 0, 32, .rwc, .lit 0, .table, false, .table, 0, 1⟩
/-- R186: Positions 4–7, byte j − 4 at [8j−25:8j−32] -/
def ISL_PORT_CFG_HI : Fld := ⟨9, 0x108, 0, 32, .rwc, .lit 0, .table, false, .table, 0, 1⟩
/-- R186: Starts an island reset; self-clearing. Ports go down by R143, the island's cells are freed within 10 µs, ... -/
def ISL_RESET : Fld := ⟨9, 0x10C, 0, 1, .w1s, .lit 0, .cold, false, .no, 0, 1⟩
/-- R186: Island reset in progress -/
def ISL_RST_BUSY : Fld := ⟨9, 0x10C, 1, 1, .ro, .lit 0, .cold, false, .no, 0, 1⟩
/-- R186: Straits in service for this island; 0 on I(2k+1) of a ×16 -/
def ISL_STRAIT_USE : Fld := ⟨9, 0x110, 0, 6, .ro, .lit 0x3F, .cold, false, .no, 0, 1⟩
/-- R186: Headroom cells per PFC-enabled priority per ETH port; without an image, 64 -/
def ISL_ETH_HDRM : Fld := ⟨9, 0x114, 0, 16, .rw, .lit 0x40, .image, false, .image, 0, 1⟩
/-- R186: Cells written by this island -/
def ISL_CELLS_IN : Fld := ⟨9, 0x118, 0, 32, .rc, .lit 0, .cold, false, .no, 0, 1⟩
/-- R186: Cells read by this island -/
def ISL_CELLS_OUT : Fld := ⟨9, 0x11C, 0, 32, .rc, .lit 0, .cold, false, .no, 0, 1⟩
/-- R186: Cells now charged to headroom (R174) -/
def ISL_HDRM_CHARGED : Fld := ⟨9, 0x120, 0, 20, .ro, .lit 0, .cold, false, .no, 0, 1⟩
/-- R186: Lossy packets refused (R175) -/
def ISL_DROP_ADM : Fld := ⟨9, 0x124, 0, 32, .rc, .lit 0, .cold, false, .no, 0, 1⟩
/-- R186: Frames refused at exhausted ETH headroom -/
def ISL_DROP_HDRM : Fld := ⟨9, 0x128, 0, 32, .rc, .lit 0, .cold, false, .no, 0, 1⟩
/-- R186: Packets discarded by island resets -/
def ISL_DROP_RESET : Fld := ⟨9, 0x12C, 0, 32, .rc, .lit 0, .cold, false, .no, 0, 1⟩
/-- R186: Most descriptors held behind a gap, 0–32 -/
def ISL_REORDER_HWM : Fld := ⟨9, 0x130, 0, 6, .rc, .lit 0, .cold, false, .no, 0, 1⟩
/-- R186: Writes and reads reissued after strait failures -/
def ISL_WR_REISSUE : Fld := ⟨9, 0x134, 0, 32, .rc, .lit 0, .cold, false, .no, 0, 1⟩
/-- R186: Waits on FILL (R180) -/
def ISL_CT_WAIT : Fld := ⟨9, 0x138, 0, 32, .rc, .lit 0, .cold, false, .no, 0, 1⟩
/-- R186: Packets ended or discarded by R170 -/
def ISL_ECC_END : Fld := ⟨9, 0x13C, 0, 32, .rc, .lit 0, .cold, false, .no, 0, 1⟩
/-- Rows 1 to 20 of the ISL page. -/
def rowsISL0 : List Fld :=
  [ISL_PERS, ISL_REACH, ISL_X16, ISL_TEST, ISL_PORT_CFG_LO, ISL_PORT_CFG_HI, ISL_RESET, ISL_RST_BUSY, ISL_STRAIT_USE, ISL_ETH_HDRM, ISL_CELLS_IN, ISL_CELLS_OUT, ISL_HDRM_CHARGED, ISL_DROP_ADM, ISL_DROP_HDRM, ISL_DROP_RESET, ISL_REORDER_HWM, ISL_WR_REISSUE, ISL_CT_WAIT, ISL_ECC_END]
/-- Every row of the ISL page. -/
def rowsISL : List Fld :=
  rowsISL0

/-- R151: 0 DISABLED, 1 BRINGUP, 2 INIT, 3 UP, 4 RESET, 5 TEST -/
def LNK_LSTATE : Fld := ⟨0xA, 0x100, 0, 4, .ro, .lit 0, .cold, false, .no, 0, 1⟩
/-- R151: Width in force, 1, 2, 4 or 8; 0 unless UP -/
def LNK_WIDTH : Fld := ⟨0xA, 0x100, 4, 4, .ro, .lit 0, .cold, false, .no, 0, 1⟩
/-- R151: 1 SFL1, 2 SFL2-L, 3 SFL2-S -/
def LNK_RATE : Fld := ⟨0xA, 0x100, 8, 3, .ro, .lit 0, .cold, false, .no, 0, 1⟩
/-- R151: Partner marker DX7 bit -/
def LNK_PARTNER_DX7 : Fld := ⟨0xA, 0x100, 11, 1, .ro, .lit 0, .cold, false, .no, 0, 1⟩
/-- R151: Low 16 bits of the partner's serial -/
def LNK_PARTNER_ID : Fld := ⟨0xA, 0x100, 16, 16, .ro, .lit 0, .cold, false, .no, 0, 1⟩
/-- R151: Port enabled; without an image, 1 for every port the board table configures -/
def LNK_EN : Fld := ⟨0xA, 0x104, 0, 1, .rw, .lit 0, .image, false, .image, 0, 1⟩
/-- R151: 0 cut-through, 1 store-and-forward; without an image, 0 -/
def LNK_FWD : Fld := ⟨0xA, 0x104, 1, 1, .rw, .lit 0, .image, false, .image, 0, 1⟩
/-- R151: Full link reset (R144); self-clearing -/
def LNK_LRESET : Fld := ⟨0xA, 0x104, 2, 1, .w1s, .lit 0, .cold, false, .no, 0, 1⟩
/-- R151: Sends the wake pattern once (R145); self-clearing -/
def LNK_WAKE_SEND : Fld := ⟨0xA, 0x104, 3, 1, .w1s, .lit 0, .cold, false, .no, 0, 1⟩
/-- R151: Wake detection; without an image, 1 -/
def LNK_WAKE_DET : Fld := ⟨0xA, 0x104, 4, 1, .rw, .lit 1, .image, false, .image, 0, 1⟩
/-- R151: ns, 100–1,000,000; without an image, 2,000 -/
def LNK_LOCK_LOSS_TIME : Fld := ⟨0xA, 0x108, 0, 20, .rw, .lit 0x7D0, .image, false, .image, 0, 1⟩
/-- R151: Units of 100 ns, 1–1,000; without an image, 40 -/
def LNK_REPLAY_TMO : Fld := ⟨0xA, 0x10C, 0, 10, .rw, .lit 0x28, .image, false, .image, 0, 1⟩
/-- R151: 1–255; without an image, 8 -/
def LNK_REPLAY_MAX : Fld := ⟨0xA, 0x10C, 16, 8, .rw, .lit 8, .image, false, .image, 0, 1⟩
/-- R151: 768 × configured width -/
def LNK_REPLAY_CAP : Fld := ⟨0xA, 0x110, 0, 13, .ro, .lit 0, .cold, false, .no, 0, 1⟩
/-- R151: Next SEQ to send -/
def LNK_TX_SEQ : Fld := ⟨0xA, 0x114, 0, 14, .ro, .lit 0, .cold, false, .no, 0, 1⟩
/-- R151: Last SEQ acknowledged -/
def LNK_ACK_SEQ : Fld := ⟨0xA, 0x114, 16, 14, .ro, .lit 0, .cold, false, .no, 0, 1⟩
/-- R151: Next SEQ expected -/
def LNK_RX_SEQ : Fld := ⟨0xA, 0x118, 0, 14, .ro, .lit 0, .cold, false, .no, 0, 1⟩
/-- R151: Flits sent and not acknowledged -/
def LNK_OUTSTANDING : Fld := ⟨0xA, 0x118, 16, 13, .ro, .lit 0, .cold, false, .no, 0, 1⟩
/-- R151: 0 none, 1 LOCK_LOSS, 2 REPLAY_LIMIT, 3 PARTNER_RESET, 4 SOFTWARE, 5 PROTOCOL, 6 ISLAND_RESET, 7 DISABLED, ... -/
def LNK_DOWN_CAUSE : Fld := ⟨0xA, 0x11C, 0, 8, .ro, .lit 0, .cold, false, .no, 0, 1⟩
/-- R151: Grant for lane v = 0–15, 4–2,047; without an image, 64 -/
def LNK_CRED_GRANT : Fld := ⟨0xA, 0x120, 0, 11, .rwc, .lit 0x40, .image, false, .image, 4, 16⟩
/-- R151: Credits the sender holds on lane v -/
def LNK_CRED_AVAIL : Fld := ⟨0xA, 0x120, 16, 12, .ro, .lit 0, .cold, false, .no, 4, 16⟩
/-- R151: Data flits sent, resends excluded -/
def LNK_FLIT_TX : Fld := ⟨0xA, 0x160, 0, 32, .rc, .lit 0, .cold, false, .no, 0, 1⟩
/-- R151: Data flits accepted -/
def LNK_FLIT_RX : Fld := ⟨0xA, 0x164, 0, 32, .rc, .lit 0, .cold, false, .no, 0, 1⟩
/-- R151: Flits failing their check -/
def LNK_CRC_ERR : Fld := ⟨0xA, 0x168, 0, 32, .rc, .lit 0, .cold, false, .no, 0, 1⟩
/-- R151: NAKs sent -/
def LNK_NAK_TX : Fld := ⟨0xA, 0x16C, 0, 16, .rc, .lit 0, .cold, false, .no, 0, 1⟩
/-- R151: NAKs received -/
def LNK_NAK_RX : Fld := ⟨0xA, 0x16C, 16, 16, .rc, .lit 0, .cold, false, .no, 0, 1⟩
/-- R151: Flits resent -/
def LNK_REPLAY_FLITS : Fld := ⟨0xA, 0x170, 0, 32, .rc, .lit 0, .cold, false, .no, 0, 1⟩
/-- R151: Time stalled at the cap, in 10 ns units -/
def LNK_CAP_STALL : Fld := ⟨0xA, 0x174, 0, 32, .rc, .lit 0, .cold, false, .no, 0, 1⟩
/-- R151: Codewords corrected, all lanes -/
def LNK_FEC_CORR : Fld := ⟨0xA, 0x178, 0, 32, .rc, .lit 0, .cold, false, .no, 0, 1⟩
/-- R151: Codewords uncorrectable, all lanes -/
def LNK_FEC_UNCORR : Fld := ⟨0xA, 0x17C, 0, 32, .rc, .lit 0, .cold, false, .no, 0, 1⟩
/-- R151: Declarations of down -/
def LNK_DOWN_CNT : Fld := ⟨0xA, 0x180, 0, 16, .rc, .lit 0, .cold, false, .no, 0, 1⟩
/-- R151: Packets stored in full by C2 -/
def LNK_FORCED_STORE : Fld := ⟨0xA, 0x184, 0, 32, .rc, .lit 0, .cold, false, .no, 0, 1⟩
/-- R151: Packets ended with POISON (R143) -/
def LNK_POISON_TX : Fld := ⟨0xA, 0x188, 0, 32, .rc, .lit 0, .cold, false, .no, 0, 1⟩
/-- R151: Protocol errors -/
def LNK_PROTO_ERR_CNT : Fld := ⟨0xA, 0x18C, 0, 16, .rc, .lit 0, .cold, false, .no, 0, 1⟩
/-- R151: Uncorrectable codewords per 1 ms that raise FEC_UNCORR_HIGH; without an image, 16 -/
def LNK_FEC_UNCORR_THRESH : Fld := ⟨0xA, 0x190, 0, 16, .rw, .lit 0x10, .image, false, .image, 0, 1⟩
/-- Rows 1 to 24 of the LNK page. -/
def rowsLNK0 : List Fld :=
  [LNK_LSTATE, LNK_WIDTH, LNK_RATE, LNK_PARTNER_DX7, LNK_PARTNER_ID, LNK_EN, LNK_FWD, LNK_LRESET, LNK_WAKE_SEND, LNK_WAKE_DET, LNK_LOCK_LOSS_TIME, LNK_REPLAY_TMO, LNK_REPLAY_MAX, LNK_REPLAY_CAP, LNK_TX_SEQ, LNK_ACK_SEQ, LNK_RX_SEQ, LNK_OUTSTANDING, LNK_DOWN_CAUSE, LNK_CRED_GRANT, LNK_CRED_AVAIL, LNK_FLIT_TX, LNK_FLIT_RX, LNK_CRC_ERR]
/-- Rows 25 to 35 of the LNK page. -/
def rowsLNK1 : List Fld :=
  [LNK_NAK_TX, LNK_NAK_RX, LNK_REPLAY_FLITS, LNK_CAP_STALL, LNK_FEC_CORR, LNK_FEC_UNCORR, LNK_DOWN_CNT, LNK_FORCED_STORE, LNK_POISON_TX, LNK_PROTO_ERR_CNT, LNK_FEC_UNCORR_THRESH]
/-- Every row of the LNK page. -/
def rowsLNK : List Fld :=
  rowsLNK0 ++ rowsLNK1

/-- R152: 1 100 Gb/s, 2 200 Gb/s, 3 400 Gb/s, 4 800 Gb/s, 5 1.6 Tb/s -/
def ETH_SPEED : Fld := ⟨0xB, 0x100, 0, 3, .ro, .lit 0, .cold, false, .no, 0, 1⟩
/-- R152: 1 if lanes run at 200 Gb/s -/
def ETH_LANE200 : Fld := ⟨0xB, 0x100, 3, 1, .ro, .lit 0, .cold, false, .no, 0, 1⟩
/-- R152: Lane count -/
def ETH_LANES : Fld := ⟨0xB, 0x100, 4, 4, .ro, .lit 0, .cold, false, .no, 0, 1⟩
/-- R152: PCS link up -/
def ETH_PCS_UP : Fld := ⟨0xB, 0x104, 0, 1, .ro, .lit 0, .cold, false, .no, 0, 1⟩
/-- R152: Alignment markers locked -/
def ETH_ALIGNED : Fld := ⟨0xB, 0x104, 1, 1, .ro, .lit 0, .cold, false, .no, 0, 1⟩
/-- R152: FEC locked -/
def ETH_FEC_LOCK : Fld := ⟨0xB, 0x104, 2, 1, .ro, .lit 0, .cold, false, .no, 0, 1⟩
/-- R152: High symbol error rate, as IEEE 802.3 defines -/
def ETH_HI_SER : Fld := ⟨0xB, 0x104, 3, 1, .ro, .lit 0, .cold, false, .no, 0, 1⟩
/-- R152: Remote fault received -/
def ETH_REMOTE_FAULT : Fld := ⟨0xB, 0x104, 4, 1, .ro, .lit 0, .cold, false, .no, 0, 1⟩
/-- R152: Local fault -/
def ETH_LOCAL_FAULT : Fld := ⟨0xB, 0x104, 5, 1, .ro, .lit 0, .cold, false, .no, 0, 1⟩
/-- R152: 1,518–9,216 bytes; without an image, 9,216 -/
def ETH_MAX_FRAME : Fld := ⟨0xB, 0x108, 0, 14, .rw, .lit 0x2400, .image, false, .image, 0, 1⟩
/-- R152: PFC per priority; without an image, 0 -/
def ETH_PFC_EN : Fld := ⟨0xB, 0x10C, 0, 8, .rw, .lit 0, .image, false, .image, 0, 1⟩
/-- R152: Priority of untagged frames; without an image, 0 -/
def ETH_DEF_PRIO : Fld := ⟨0xB, 0x10C, 8, 3, .rw, .lit 0, .image, false, .image, 0, 1⟩
/-- R152: Quanta sent in XOFF; without an image, 0xFFFF -/
def ETH_PFC_QUANTA : Fld := ⟨0xB, 0x110, 0, 16, .rw, .lit 0xFFFF, .image, false, .image, 0, 1⟩
/-- R152: Cells, priority p = 0–7; without an image, 512 -/
def ETH_XOFF : Fld := ⟨0xB, 0x114, 0, 16, .rw, .lit 0x200, .image, false, .image, 4, 8⟩
/-- R152: Cells; without an image, 256 -/
def ETH_XON : Fld := ⟨0xB, 0x114, 16, 16, .rw, .lit 0x100, .image, false, .image, 4, 8⟩
/-- R152: Traffic class of priority p at [4p+3:4p]; without an image, p -/
def ETH_PRIO_TC : Fld := ⟨0xB, 0x134, 0, 32, .rw, .lit 0x76543210, .image, false, .image, 0, 1⟩
/-- R152: MAC address bits [31:0]; without an image, 0 -/
def ETH_MAC_LO : Fld := ⟨0xB, 0x138, 0, 32, .rw, .lit 0, .image, false, .image, 0, 1⟩
/-- R152: MAC address bits [47:32]; without an image, 0 -/
def ETH_MAC_HI : Fld := ⟨0xB, 0x13C, 0, 16, .rw, .lit 0, .image, false, .image, 0, 1⟩
/-- R152: µs, 0 off; without an image, 100,000 -/
def ETH_PFC_WD : Fld := ⟨0xB, 0x140, 0, 32, .rw, .lit 0x186A0, .image, false, .image, 0, 1⟩
/-- R152: Good frames received -/
def ETH_FRAMES_RX : Fld := ⟨0xB, 0x150, 0, 32, .rc, .lit 0, .cold, false, .no, 0, 1⟩
/-- R152: Frames sent -/
def ETH_FRAMES_TX : Fld := ⟨0xB, 0x154, 0, 32, .rc, .lit 0, .cold, false, .no, 0, 1⟩
/-- R152: Frames with a bad FCS -/
def ETH_FCS_ERR : Fld := ⟨0xB, 0x158, 0, 32, .rc, .lit 0, .cold, false, .no, 0, 1⟩
/-- R152: Frames below 64 B or above MAX_FRAME -/
def ETH_LEN_ERR : Fld := ⟨0xB, 0x15C, 0, 32, .rc, .lit 0, .cold, false, .no, 0, 1⟩
/-- R152: Frames refused by admission (R149) -/
def ETH_DROP_LOSSY : Fld := ⟨0xB, 0x160, 0, 32, .rc, .lit 0, .cold, false, .no, 0, 1⟩
/-- R152: PAUSE frames discarded -/
def ETH_PAUSE_RX : Fld := ⟨0xB, 0x164, 0, 32, .rc, .lit 0, .cold, false, .no, 0, 1⟩
/-- R152: Codewords corrected -/
def ETH_FEC_CORR_CW : Fld := ⟨0xB, 0x168, 0, 32, .rc, .lit 0, .cold, false, .no, 0, 1⟩
/-- R152: Codewords uncorrectable -/
def ETH_FEC_UNCORR_CW : Fld := ⟨0xB, 0x16C, 0, 32, .rc, .lit 0, .cold, false, .no, 0, 1⟩
/-- R152: PFC frames received for p -/
def ETH_PFC_RX : Fld := ⟨0xB, 0x170, 0, 16, .rc, .lit 0, .cold, false, .no, 4, 8⟩
/-- R152: PFC frames sent for p -/
def ETH_PFC_TX : Fld := ⟨0xB, 0x170, 16, 16, .rc, .lit 0, .cold, false, .no, 4, 8⟩
/-- R152: Time p was paused, in µs -/
def ETH_PAUSED : Fld := ⟨0xB, 0x190, 0, 32, .rc, .lit 0, .cold, false, .no, 4, 8⟩
/-- Rows 1 to 24 of the ETH page. -/
def rowsETH0 : List Fld :=
  [ETH_SPEED, ETH_LANE200, ETH_LANES, ETH_PCS_UP, ETH_ALIGNED, ETH_FEC_LOCK, ETH_HI_SER, ETH_REMOTE_FAULT, ETH_LOCAL_FAULT, ETH_MAX_FRAME, ETH_PFC_EN, ETH_DEF_PRIO, ETH_PFC_QUANTA, ETH_XOFF, ETH_XON, ETH_PRIO_TC, ETH_MAC_LO, ETH_MAC_HI, ETH_PFC_WD, ETH_FRAMES_RX, ETH_FRAMES_TX, ETH_FCS_ERR, ETH_LEN_ERR, ETH_DROP_LOSSY]
/-- Rows 25 to 30 of the ETH page. -/
def rowsETH1 : List Fld :=
  [ETH_PAUSE_RX, ETH_FEC_CORR_CW, ETH_FEC_UNCORR_CW, ETH_PFC_RX, ETH_PFC_TX, ETH_PAUSED]
/-- Every row of the ETH page. -/
def rowsETH : List Fld :=
  rowsETH0 ++ rowsETH1

/-- R187: Strait in service when 1 (R165, R167) -/
def STR_EN : Fld := ⟨0xC, 0x100, 0, 1, .rw, .lit 1, .cold, false, .no, 0, 1⟩
/-- R187: 0 IN_SERVICE, 1 DRAINING, 2 OUT, 3 FAILED -/
def STR_STATE : Fld := ⟨0xC, 0x104, 0, 2, .ro, .lit 0, .cold, false, .no, 0, 1⟩
/-- R187: 0 none, 1 ACK_TMO, 2 DESC_ECC, 3 DATA_ECC, 4 SELFCHECK, 5 SELFTEST -/
def STR_FAIL_CAUSE : Fld := ⟨0xC, 0x104, 4, 4, .ro, .lit 0, .cold, false, .no, 0, 1⟩
/-- R187: Island that detected the failure -/
def STR_FAIL_ISLAND : Fld := ⟨0xC, 0x104, 8, 5, .ro, .lit 0, .cold, false, .no, 0, 1⟩
/-- R187: ns, 20–200; other values refused with CFG_STR_RANGE -/
def STR_ACK_TMO : Fld := ⟨0xC, 0x108, 0, 8, .rw, .lit 0x64, .cold, false, .no, 0, 1⟩
/-- R187: Descriptors delivered -/
def STR_DESC_MOVED : Fld := ⟨0xC, 0x10C, 0, 32, .rc, .lit 0, .cold, false, .no, 0, 1⟩
/-- R187: Cells written over this strait -/
def STR_WR_CELLS : Fld := ⟨0xC, 0x110, 0, 32, .rc, .lit 0, .cold, false, .no, 0, 1⟩
/-- R187: Cells read over this strait -/
def STR_RD_CELLS : Fld := ⟨0xC, 0x114, 0, 32, .rc, .lit 0, .cold, false, .no, 0, 1⟩
/-- R187: Matches made in iteration 2 -/
def STR_MATCH_IT2 : Fld := ⟨0xC, 0x118, 0, 32, .rc, .lit 0, .cold, false, .no, 0, 1⟩
/-- R187: Matches made in iteration 3 -/
def STR_MATCH_IT3 : Fld := ⟨0xC, 0x11C, 0, 32, .rc, .lit 0, .cold, false, .no, 0, 1⟩
/-- R187: Descriptors offered again after this strait failed -/
def STR_REOFFER : Fld := ⟨0xC, 0x120, 0, 32, .rc, .lit 0, .cold, false, .no, 0, 1⟩
/-- R187: Corrected errors in transit -/
def STR_ECC_CORR : Fld := ⟨0xC, 0x124, 0, 16, .rc, .lit 0, .cold, false, .no, 0, 1⟩
/-- Rows 1 to 12 of the STR page. -/
def rowsSTR0 : List Fld :=
  [STR_EN, STR_STATE, STR_FAIL_CAUSE, STR_FAIL_ISLAND, STR_ACK_TMO, STR_DESC_MOVED, STR_WR_CELLS, STR_RD_CELLS, STR_MATCH_IT2, STR_MATCH_IT3, STR_REOFFER, STR_ECC_CORR]
/-- Every row of the STR page. -/
def rowsSTR : List Fld :=
  rowsSTR0

/-- R188: Free cells in the segment -/
def HBR_SEG_FREE : Fld := ⟨0xD, 0x100, 0, 16, .ro, .lit 0x8000, .cold, false, .no, 0, 1⟩
/-- R188: 0 ALLOCATING, 1 DRAINING, 2 DRAINED (C9) -/
def HBR_SEG_STATE : Fld := ⟨0xD, 0x104, 0, 2, .ro, .lit 0, .cold, false, .no, 0, 1⟩
/-- R188: Corrected words -/
def HBR_ECC_CORR : Fld := ⟨0xD, 0x108, 0, 16, .rc, .lit 0, .cold, false, .no, 0, 1⟩
/-- R188: Uncorrectable words -/
def HBR_ECC_UNCORR : Fld := ⟨0xD, 0x10C, 0, 16, .rc, .lit 0, .cold, false, .no, 0, 1⟩
/-- R188: 0 latency-favouring, 1 depth-favouring; without an image, 0 -/
def HBR_CARVE : Fld := ⟨0xD, 0x200, 0, 1, .rwc, .lit 0, .image, false, .image, 0, 1⟩
/-- R188: Bit q: queue index q uses dynamic threshold; without an image, 0x0_0003 -/
def HBR_BUF_DT : Fld := ⟨0xD, 0x204, 0, 19, .rwc, .lit 3, .image, false, .image, 0, 1⟩
/-- R188: Minimum of queue q under CARVE = 0, q = 0–18; without an image, 16 -/
def HBR_MIN_L : Fld := ⟨0xD, 0x208, 0, 16, .rwc, .lit 0x10, .image, false, .image, 4, 19⟩
/-- R188: Minimum under CARVE = 1; without an image, 128 -/
def HBR_MIN_D : Fld := ⟨0xD, 0x208, 16, 16, .rwc, .lit 0x80, .image, false, .image, 4, 19⟩
/-- R188: Shared cells per queue instance, 0 none; without an image, 0 -/
def HBR_CAP : Fld := ⟨0xD, 0x260, 0, 20, .rwc, .lit 0, .image, false, .image, 4, 19⟩
/-- R188: 0–9 (R173); without an image, 6 -/
def HBR_ALPHA_EXP : Fld := ⟨0xD, 0x260, 24, 4, .rwc, .lit 6, .image, false, .image, 4, 19⟩
/-- R188: Engine intake minimum; without an image, 256 -/
def HBR_ENG_MIN : Fld := ⟨0xD, 0x2B0, 0, 16, .rwc, .lit 0x100, .image, false, .image, 0, 1⟩
/-- R188: Lagoon reservation -/
def HBR_LAGOON_RSV : Fld := ⟨0xD, 0x2B4, 0, 16, .ro, .lit 0x2000, .cold, false, .no, 0, 1⟩
/-- R188: Collective reservations -/
def HBR_COLL_RSV : Fld := ⟨0xD, 0x2B8, 0, 20, .ro, .lit 0, .cold, false, .no, 0, 1⟩
/-- R188: Headroom reservations (R171) -/
def HBR_CREDIT_RSV : Fld := ⟨0xD, 0x2BC, 0, 20, .ro, .lit 0, .cold, false, .no, 0, 1⟩
/-- R188: Minimums in force (R171) -/
def HBR_MIN_RSV : Fld := ⟨0xD, 0x2C0, 0, 20, .ro, .lit 0, .cold, false, .no, 0, 1⟩
/-- R188: F -/
def HBR_SHARED_FREE : Fld := ⟨0xD, 0x2C4, 0, 20, .ro, .lit 0, .cold, false, .no, 0, 1⟩
/-- R188: SHARED_FREE level that raises HBR_SHARED_LOW; without an image, 16,384 -/
def HBR_SHARED_LOW : Fld := ⟨0xD, 0x2C8, 0, 20, .rw, .lit 0x4000, .image, false, .image, 0, 1⟩
/-- R188: Cells not admitted to a queue pool (R173) -/
def HBR_ADM_REFUSE : Fld := ⟨0xD, 0x2CC, 0, 32, .rc, .lit 0, .cold, false, .no, 0, 1⟩
/-- R188: Cells refused by a dynamic threshold -/
def HBR_DT_REFUSE : Fld := ⟨0xD, 0x2D0, 0, 32, .rc, .lit 0, .cold, false, .no, 0, 1⟩
/-- Rows 1 to 19 of the HBR page. -/
def rowsHBR0 : List Fld :=
  [HBR_SEG_FREE, HBR_SEG_STATE, HBR_ECC_CORR, HBR_ECC_UNCORR, HBR_CARVE, HBR_BUF_DT, HBR_MIN_L, HBR_MIN_D, HBR_CAP, HBR_ALPHA_EXP, HBR_ENG_MIN, HBR_LAGOON_RSV, HBR_COLL_RSV, HBR_CREDIT_RSV, HBR_MIN_RSV, HBR_SHARED_FREE, HBR_SHARED_LOW, HBR_ADM_REFUSE, HBR_DT_REFUSE]
/-- Every row of the HBR page. -/
def rowsHBR : List Fld :=
  rowsHBR0

/-- R213: W_q, 1–255, q3–q18; reads zero on q0–q2; without an image, 1 -/
def SCH_WEIGHT : Fld := ⟨0xE, 0x100, 0, 8, .rwc, .elems ([0, 0, 0] ++ List.replicate 16 1), .image, false, .image, 0x10, 19⟩
/-- R213: Shaper enabled; without an image, 0 -/
def SCH_SHP_EN : Fld := ⟨0xE, 0x100, 8, 1, .rwc, .lit 0, .image, false, .image, 0x10, 20⟩
/-- R213: 0 full, 1 zero (R201); without an image, 0 -/
def SCH_RESET_TO : Fld := ⟨0xE, 0x100, 9, 1, .rwc, .lit 0, .image, false, .image, 0x10, 20⟩
/-- R213: Mb/s, 1–4,000,000; without an image, 4,000,000 -/
def SCH_SHP_RATE : Fld := ⟨0xE, 0x104, 0, 22, .rwc, .lit 0x3D0900, .image, false, .image, 0x10, 20⟩
/-- R213: Bytes, 64–16,777,215; without an image, 16,384 -/
def SCH_SHP_BURST : Fld := ⟨0xE, 0x108, 0, 24, .rwc, .lit 0x4000, .image, false, .image, 0x10, 20⟩
/-- R213: T in bytes, two's complement -/
def SCH_SHP_TOKENS : Fld := ⟨0xE, 0x10C, 0, 32, .ro, .lit 0, .cold, false, .no, 0x10, 20⟩
/-- R213: Byte t: queue for traffic class t, 2–18 (R191) -/
def SCH_TCQ_MAP : Fld := ⟨0xE, 0x240, 0, 32, .rwc, .elems [0x6050403, 0xA090807, 0xE0D0C0B, 0x211100F], .image, false, .image, 4, 4⟩
/-- R213: Time gates in force; without an image, 0 -/
def SCH_GATE_EN : Fld := ⟨0xE, 0x280, 0, 1, .rwc, .lit 0, .image, false, .image, 0, 1⟩
/-- R213: 0 list A, 1 list B -/
def SCH_ACTIVE_LIST : Fld := ⟨0xE, 0x280, 1, 1, .ro, .lit 0, .cold, false, .no, 0, 1⟩
/-- R213: Requests a switch (R204); self-clearing -/
def SCH_SWITCH : Fld := ⟨0xE, 0x280, 2, 1, .w1s, .lit 0, .cold, false, .no, 0, 1⟩
/-- R213: A switch is pending -/
def SCH_SWITCH_PEND : Fld := ⟨0xE, 0x280, 3, 1, .ro, .lit 0, .cold, false, .no, 0, 1⟩
/-- R213: Open queues while fabric time is not valid; without an image, 0x7_FFFF -/
def SCH_FALLBACK_MASK : Fld := ⟨0xE, 0x284, 0, 19, .rwc, .lit 0x7FFFF, .image, false, .image, 0, 1⟩
/-- R213: M in bytes, 64–10,240; without an image, 10,240 -/
def SCH_GATE_MAXSZ : Fld := ⟨0xE, 0x288, 0, 14, .rwc, .lit 0x2800, .image, false, .image, 0, 1⟩
/-- R213: G in force (R205) -/
def SCH_GUARD_NS : Fld := ⟨0xE, 0x28C, 0, 16, .ro, .lit 0, .cold, false, .no, 0, 1⟩
/-- R213: Queues open now -/
def SCH_GATE_STATE : Fld := ⟨0xE, 0x290, 0, 19, .ro, .lit 0x7FFFF, .cold, false, .no, 0, 1⟩
/-- R213: FALLBACK_MASK in use -/
def SCH_GATE_FB : Fld := ⟨0xE, 0x294, 0, 1, .ro, .lit 0, .cold, false, .no, 0, 1⟩
/-- R213: Packets sent from queue q -/
def SCH_PKTS : Fld := ⟨0xE, 0x300, 0, 32, .rc, .lit 0, .cold, false, .no, 8, 19⟩
/-- R213: Charge sent, in 64 B units -/
def SCH_UNITS : Fld := ⟨0xE, 0x304, 0, 32, .rc, .lit 0, .cold, false, .no, 8, 19⟩
/-- R213: V [31:0] -/
def SCH_VTIME_LO : Fld := ⟨0xE, 0x3A0, 0, 32, .ro, .lit 0, .cold, false, .no, 0, 1⟩
/-- R213: V [47:32] -/
def SCH_VTIME_HI : Fld := ⟨0xE, 0x3A4, 0, 16, .ro, .lit 0, .cold, false, .no, 0, 1⟩
/-- R213: Packets held back by R205 at least once -/
def SCH_GATE_HOLD : Fld := ⟨0xE, 0x3A8, 0, 32, .rc, .lit 0, .cold, false, .no, 0, 1⟩
/-- R213: Packets dropped as longer than M -/
def SCH_GATE_OVERSIZE_CNT : Fld := ⟨0xE, 0x3AC, 0, 32, .rc, .lit 0, .cold, false, .no, 0, 1⟩
/-- R213: Shaper reconfigurations (R201) -/
def SCH_SHP_RESETS : Fld := ⟨0xE, 0x3B0, 0, 32, .rc, .lit 0, .cold, false, .no, 0, 1⟩
/-- R213: List L = 0 (A) or 1 (B): BASE [31:0]; inactive list only (R203) -/
def SCH_BASE_LO_A : Fld := ⟨0xE, 0x800, 0, 32, .rw, .lit 0, .image, false, .image, 0, 1⟩
/-- R213: List L = 0 (A) or 1 (B): BASE [31:0]; inactive list only (R203) -/
def SCH_BASE_LO_B : Fld := ⟨0xE, 0xB00, 0, 32, .rw, .lit 0, .image, false, .image, 0, 1⟩
/-- R213: BASE [63:32] -/
def SCH_BASE_HI_A : Fld := ⟨0xE, 0x804, 0, 32, .rw, .lit 0, .image, false, .image, 0, 1⟩
/-- R213: BASE [63:32] -/
def SCH_BASE_HI_B : Fld := ⟨0xE, 0xB04, 0, 32, .rw, .lit 0, .image, false, .image, 0, 1⟩
/-- R213: Sum of the list's durations -/
def SCH_CYCLE_NS_A : Fld := ⟨0xE, 0x808, 0, 30, .ro, .lit 0, .cold, false, .no, 0, 1⟩
/-- R213: Sum of the list's durations -/
def SCH_CYCLE_NS_B : Fld := ⟨0xE, 0xB08, 0, 30, .ro, .lit 0, .cold, false, .no, 0, 1⟩
/-- R213: Entries, 1–64; without an image, 0 -/
def SCH_COUNT_A : Fld := ⟨0xE, 0x80C, 0, 7, .rw, .lit 0, .image, false, .image, 0, 1⟩
/-- R213: Entries, 1–64; without an image, 0 -/
def SCH_COUNT_B : Fld := ⟨0xE, 0xB0C, 0, 7, .rw, .lit 0, .image, false, .image, 0, 1⟩
/-- R213: Entry e = 0–63, ns, 10–16,777,215 -/
def SCH_DURATION_A : Fld := ⟨0xE, 0x900, 0, 24, .rw, .lit 0, .image, false, .image, 8, 64⟩
/-- R213: Entry e = 0–63, ns, 10–16,777,215 -/
def SCH_DURATION_B : Fld := ⟨0xE, 0xC00, 0, 24, .rw, .lit 0, .image, false, .image, 8, 64⟩
/-- R213: Open queues in entry e -/
def SCH_MASK_A : Fld := ⟨0xE, 0x904, 0, 19, .rw, .lit 0, .image, false, .image, 8, 64⟩
/-- R213: Open queues in entry e -/
def SCH_MASK_B : Fld := ⟨0xE, 0xC04, 0, 19, .rw, .lit 0, .image, false, .image, 8, 64⟩
/-- Rows 1 to 24 of the SCH page. -/
def rowsSCH0 : List Fld :=
  [SCH_WEIGHT, SCH_SHP_EN, SCH_RESET_TO, SCH_SHP_RATE, SCH_SHP_BURST, SCH_SHP_TOKENS, SCH_TCQ_MAP, SCH_GATE_EN, SCH_ACTIVE_LIST, SCH_SWITCH, SCH_SWITCH_PEND, SCH_FALLBACK_MASK, SCH_GATE_MAXSZ, SCH_GUARD_NS, SCH_GATE_STATE, SCH_GATE_FB, SCH_PKTS, SCH_UNITS, SCH_VTIME_LO, SCH_VTIME_HI, SCH_GATE_HOLD, SCH_GATE_OVERSIZE_CNT, SCH_SHP_RESETS, SCH_BASE_LO_A]
/-- Rows 25 to 35 of the SCH page. -/
def rowsSCH1 : List Fld :=
  [SCH_BASE_LO_B, SCH_BASE_HI_A, SCH_BASE_HI_B, SCH_CYCLE_NS_A, SCH_CYCLE_NS_B, SCH_COUNT_A, SCH_COUNT_B, SCH_DURATION_A, SCH_DURATION_B, SCH_MASK_A, SCH_MASK_B]
/-- Every row of the SCH page. -/
def rowsSCH : List Fld :=
  rowsSCH0 ++ rowsSCH1

/-- R214: Meter within the bank -/
def MTR_IDX : Fld := ⟨0xF, 0x100, 0, 12, .rw, .lit 0, .cold, false, .no, 0, 1⟩
/-- R214: Copies the entry to the data words; self-clearing -/
def MTR_READ : Fld := ⟨0xF, 0x104, 0, 1, .w1s, .lit 0, .cold, false, .no, 0, 1⟩
/-- R214: Writes words 0–3 to the entry; buckets full; self-clearing -/
def MTR_WRITE : Fld := ⟨0xF, 0x104, 1, 1, .w1s, .lit 0, .cold, false, .no, 0, 1⟩
/-- R214: As READ, then clears the entry's counters -/
def MTR_READ_CLR : Fld := ⟨0xF, 0x104, 2, 1, .w1s, .lit 0, .cold, false, .no, 0, 1⟩
/-- R214: Word 0: Mb/s, 0–4,000,000 -/
def MTR_CIR : Fld := ⟨0xF, 0x110, 0, 22, .rw, .lit 0, .cold, false, .no, 0, 1⟩
/-- R214: 1 colour-aware -/
def MTR_COLOUR_AWARE : Fld := ⟨0xF, 0x110, 22, 1, .rw, .lit 0, .cold, false, .no, 0, 1⟩
/-- R214: Meter enabled; a disabled meter marks every packet green -/
def MTR_EN : Fld := ⟨0xF, 0x110, 23, 1, .rw, .lit 0, .cold, false, .no, 0, 1⟩
/-- R214: R210; 3 refused -/
def MTR_ACT_YEL : Fld := ⟨0xF, 0x110, 24, 2, .rw, .lit 0, .cold, false, .no, 0, 1⟩
/-- R214: R210; 3 refused -/
def MTR_ACT_RED : Fld := ⟨0xF, 0x110, 26, 2, .rw, .lit 0, .cold, false, .no, 0, 1⟩
/-- R214: Word 1: Mb/s, CIR–4,000,000 -/
def MTR_PIR : Fld := ⟨0xF, 0x114, 0, 22, .rw, .lit 0, .cold, false, .no, 0, 1⟩
/-- R214: Word 2: bytes, 64–16,777,215 -/
def MTR_CBS : Fld := ⟨0xF, 0x118, 0, 24, .rw, .lit 0, .cold, false, .no, 0, 1⟩
/-- R214: Word 3: bytes, 64–16,777,215 -/
def MTR_PBS : Fld := ⟨0xF, 0x11C, 0, 24, .rw, .lit 0, .cold, false, .no, 0, 1⟩
/-- R214: Word 4, from READ -/
def MTR_GREEN_PKTS : Fld := ⟨0xF, 0x120, 0, 32, .ro, .lit 0, .cold, false, .no, 0, 1⟩
/-- R214: Word 5 -/
def MTR_YELLOW_PKTS : Fld := ⟨0xF, 0x124, 0, 32, .ro, .lit 0, .cold, false, .no, 0, 1⟩
/-- R214: Word 6 -/
def MTR_RED_PKTS : Fld := ⟨0xF, 0x128, 0, 32, .ro, .lit 0, .cold, false, .no, 0, 1⟩
/-- R214: Word 7: dropped by action 2 -/
def MTR_DROP_PKTS : Fld := ⟨0xF, 0x12C, 0, 32, .ro, .lit 0, .cold, false, .no, 0, 1⟩
/-- R214: F needed to admit a yellow lossy cell; without an image, 65,536 -/
def MTR_DP_YEL : Fld := ⟨0xF, 0x200, 0, 20, .rw, .lit 0x10000, .image, false, .image, 0, 1⟩
/-- R214: F needed to admit a red lossy cell; without an image, 131,072 -/
def MTR_DP_RED : Fld := ⟨0xF, 0x204, 0, 20, .rw, .lit 0x20000, .image, false, .image, 0, 1⟩
/-- R214: Port p = 0–143: first meter; without an image, 0 -/
def MTR_BASE : Fld := ⟨0xF, 0x600, 0, 16, .rw, .lit 0, .image, false, .image, 4, 144⟩
/-- R214: R207; without an image, 0 -/
def MTR_MODE : Fld := ⟨0xF, 0x600, 16, 2, .rw, .lit 0, .image, false, .image, 4, 144⟩
/-- Rows 1 to 20 of the MTR page. -/
def rowsMTR0 : List Fld :=
  [MTR_IDX, MTR_READ, MTR_WRITE, MTR_READ_CLR, MTR_CIR, MTR_COLOUR_AWARE, MTR_EN, MTR_ACT_YEL, MTR_ACT_RED, MTR_PIR, MTR_CBS, MTR_PBS, MTR_GREEN_PKTS, MTR_YELLOW_PKTS, MTR_RED_PKTS, MTR_DROP_PKTS, MTR_DP_YEL, MTR_DP_RED, MTR_BASE, MTR_MODE]
/-- Every row of the MTR page. -/
def rowsMTR : List Fld :=
  rowsMTR0

/-- R252: Without an image, 0xF_FFFF -/
def RTE_MY_LID : Fld := ⟨0x10, 0x100, 0, 20, .rw, .lit 0xFFFFF, .image, false, .image, 0, 1⟩
/-- R252: R218; without an image, 0 -/
def RTE_COORD : Fld := ⟨0x10, 0x104, 0, 20, .rw, .lit 0, .image, false, .image, 0, 1⟩
/-- R252: R217; 3 refused; without an image, 0 -/
def RTE_TOPO : Fld := ⟨0x10, 0x108, 0, 2, .rw, .lit 0, .image, false, .image, 0, 1⟩
/-- R252: 2–5; without an image, 3 -/
def RTE_NDIG : Fld := ⟨0x10, 0x108, 2, 3, .rw, .lit 3, .image, false, .image, 0, 1⟩
/-- R252: Bit k for digit k; bit 0 must be 0; without an image, 0x06 -/
def RTE_CARE : Fld := ⟨0x10, 0x108, 8, 5, .rw, .lit 6, .image, false, .image, 0, 1⟩
/-- R252: k = 0–4; radix 1–4,096; without an image, 1 -/
def RTE_RAD : Fld := ⟨0x10, 0x10C, 0, 13, .rw, .lit 1, .image, false, .image, 4, 5⟩
/-- R252: Level table base; BASE_k + RAD_k ≤ 8,192; without an image, 0 -/
def RTE_BASE : Fld := ⟨0x10, 0x10C, 16, 13, .rw, .lit 0, .image, false, .image, 4, 5⟩
/-- R252: 2 bits per TC t at [2t+1:2t]: 0 minimal, 1 adaptive, 2 Valiant; 3 refused; without an image, 0 -/
def RTE_MODE_TC : Fld := ⟨0x10, 0x120, 0, 32, .rwc, .lit 0, .image, false, .image, 0, 1⟩
/-- R252: Bit t: TC t is ordered; without an image, 0xFFFF -/
def RTE_ORD_TC : Fld := ⟨0x10, 0x124, 0, 16, .rwc, .lit 0xFFFF, .image, false, .image, 0, 1⟩
/-- R252: TC of collective traffic; a mode other than minimal for it is refused (C10); without an image, 15 -/
def RTE_COLL_TC : Fld := ⟨0x10, 0x128, 0, 4, .rwc, .lit 0xF, .image, false, .image, 0, 1⟩
/-- R252: ns, 100–1,000,000; without an image, 4,000 -/
def RTE_FLOWLET_GAP : Fld := ⟨0x10, 0x12C, 0, 20, .rw, .lit 0xFA0, .image, false, .image, 0, 1⟩
/-- R252: ns, 50–100,000; without an image, 500 -/
def RTE_ESC_WAIT : Fld := ⟨0x10, 0x130, 0, 17, .rw, .lit 0x1F4, .image, false, .image, 0, 1⟩
/-- R252: Without an image, 64 -/
def RTE_UGAL_BIAS : Fld := ⟨0x10, 0x134, 0, 16, .rw, .lit 0x40, .image, false, .image, 0, 1⟩
/-- R252: 0 disables non-minimal hops; without an image, 2 -/
def RTE_NMIN_HOPS : Fld := ⟨0x10, 0x134, 16, 4, .rw, .lit 2, .image, false, .image, 0, 1⟩
/-- R252: Digits drawn for ILID; bit 0 ignored; without an image, 0x06 -/
def RTE_VAL_DIG : Fld := ⟨0x10, 0x138, 0, 5, .rw, .lit 6, .image, false, .image, 0, 1⟩
/-- R252: 1–63; without an image, 32 -/
def RTE_HOP_LIMIT : Fld := ⟨0x10, 0x13C, 0, 6, .rw, .lit 0x20, .image, false, .image, 0, 1⟩
/-- R252: µs, 0–1,000,000; without an image, 100 -/
def RTE_REJOIN : Fld := ⟨0x10, 0x140, 0, 20, .rw, .lit 0x64, .image, false, .image, 0, 1⟩
/-- R252: µs, 1–1,000; without an image, 10 -/
def RTE_ROUTE_HOLD : Fld := ⟨0x10, 0x144, 0, 10, .rw, .lit 0xA, .image, false, .image, 0, 1⟩
/-- R252: ns, 400–100,000; without an image, 1,000 -/
def RTE_WX_STALE_NS : Fld := ⟨0x10, 0x148, 0, 17, .rw, .lit 0x3E8, .image, false, .image, 0, 1⟩
/-- R252: Weather use; without an image, 1 -/
def RTE_WX_EN : Fld := ⟨0x10, 0x14C, 0, 1, .rw, .lit 1, .image, false, .image, 0, 1⟩
/-- R252: µs, 10–1,000,000; without an image, 1,000 -/
def RTE_STUCK_WD : Fld := ⟨0x10, 0x150, 0, 20, .rw, .lit 0x3E8, .image, false, .image, 0, 1⟩
/-- R252: Active set: 0 A, 1 B -/
def RTE_EPOCH : Fld := ⟨0x10, 0x154, 0, 1, .ro, .lit 0, .cold, false, .no, 0, 1⟩
/-- R252: Swaps the sets (R250); self-clearing -/
def RTE_SWAP : Fld := ⟨0x10, 0x154, 1, 1, .w1s, .lit 0, .cold, false, .no, 0, 1⟩
/-- R252: A horizon swap is pending -/
def RTE_SWAP_PEND : Fld := ⟨0x10, 0x154, 2, 1, .ro, .lit 0, .cold, false, .no, 0, 1⟩
/-- R252: Ports 0–143, bit p at word p / 32, bit p mod 32 -/
def RTE_PORT_UP : Fld := ⟨0x10, 0x158, 0, 32, .ro, .lit 0, .cold, false, .no, 4, 5⟩
/-- R252: 0 level, 1 override, 2 port group, 3 flowlet, 4 port attribute, 5 gateway -/
def RTE_TBL_SEL : Fld := ⟨0x10, 0x170, 0, 3, .rw, .lit 0, .cold, false, .no, 0, 1⟩
/-- R252: For reads of tables 0–2: 0 inactive, 1 active -/
def RTE_TBL_SET : Fld := ⟨0x10, 0x170, 4, 1, .rw, .lit 0, .cold, false, .no, 0, 1⟩
/-- R252: Entry index -/
def RTE_TBL_IDX : Fld := ⟨0x10, 0x174, 0, 13, .rw, .lit 0, .cold, false, .no, 0, 1⟩
/-- R252: Copies the entry to TBL_DATA; self-clearing -/
def RTE_TBL_READ : Fld := ⟨0x10, 0x178, 0, 1, .w1s, .lit 0, .cold, false, .no, 0, 1⟩
/-- R252: Writes TBL_DATA to the entry; inactive set for tables 0–2. The following are refused with CFG_RTE_RANGE: a ... -/
def RTE_TBL_WRITE : Fld := ⟨0x10, 0x178, 1, 1, .w1s, .lit 0, .cold, false, .no, 0, 1⟩
/-- R252: Entry words (R224, R225) -/
def RTE_TBL_DATA : Fld := ⟨0x10, 0x180, 0, 32, .rw, .lit 0, .cold, false, .no, 4, 5⟩
/-- R252: Heads looked up -/
def RTE_PKTS_ROUTED : Fld := ⟨0x10, 0x1A0, 0, 32, .rc, .lit 0, .cold, false, .no, 0, 1⟩
/-- R252: Non-minimal hops taken (R231) -/
def RTE_NONMIN_CNT : Fld := ⟨0x10, 0x1A4, 0, 32, .rc, .lit 0, .cold, false, .no, 0, 1⟩
/-- R252: Packets moved to escape (R237) -/
def RTE_ESC_ENTRY : Fld := ⟨0x10, 0x1A8, 0, 32, .rc, .lit 0, .cold, false, .no, 0, 1⟩
/-- R252: Switches to layer 2 -/
def RTE_LAYER2_CNT : Fld := ⟨0x10, 0x1AC, 0, 32, .rc, .lit 0, .cold, false, .no, 0, 1⟩
/-- R252: Heads sent on ALT_PORT -/
def RTE_ALT_CNT : Fld := ⟨0x10, 0x1B0, 0, 32, .rc, .lit 0, .cold, false, .no, 0, 1⟩
/-- R252: Packets discarded by R247 -/
def RTE_UNROUTABLE : Fld := ⟨0x10, 0x1B4, 0, 32, .rc, .lit 0, .cold, false, .no, 0, 1⟩
/-- R252: Packets discarded at HOP_LIMIT -/
def RTE_HOP_DROP : Fld := ⟨0x10, 0x1B8, 0, 32, .rc, .lit 0, .cold, false, .no, 0, 1⟩
/-- R252: Packets discarded by R240 -/
def RTE_ESC_VIOL : Fld := ⟨0x10, 0x1BC, 0, 32, .rc, .lit 0, .cold, false, .no, 0, 1⟩
/-- R252: Ordered path changes (R234) -/
def RTE_ORD_BREAK : Fld := ⟨0x10, 0x1C0, 0, 32, .rc, .lit 0, .cold, false, .no, 0, 1⟩
/-- R252: Packets looked up again (R247) -/
def RTE_REQUEUED : Fld := ⟨0x10, 0x1C4, 0, 32, .rc, .lit 0, .cold, false, .no, 0, 1⟩
/-- R252: Headers refused (R220) -/
def RTE_HDR_DROP : Fld := ⟨0x10, 0x1C8, 0, 32, .rc, .lit 0, .cold, false, .no, 0, 1⟩
/-- R252: Frames without a gateway entry -/
def RTE_GW_MISS : Fld := ⟨0x10, 0x1CC, 0, 32, .rc, .lit 0, .cold, false, .no, 0, 1⟩
/-- R252: Weather reports received -/
def RTE_WX_RX : Fld := ⟨0x10, 0x1D0, 0, 32, .rc, .lit 0, .cold, false, .no, 0, 1⟩
/-- R252: Entries restored from the shadow copy -/
def RTE_TBL_PARITY : Fld := ⟨0x10, 0x1D4, 0, 16, .rc, .lit 0, .cold, false, .no, 0, 1⟩
/-- Rows 1 to 24 of the RTE page. -/
def rowsRTE0 : List Fld :=
  [RTE_MY_LID, RTE_COORD, RTE_TOPO, RTE_NDIG, RTE_CARE, RTE_RAD, RTE_BASE, RTE_MODE_TC, RTE_ORD_TC, RTE_COLL_TC, RTE_FLOWLET_GAP, RTE_ESC_WAIT, RTE_UGAL_BIAS, RTE_NMIN_HOPS, RTE_VAL_DIG, RTE_HOP_LIMIT, RTE_REJOIN, RTE_ROUTE_HOLD, RTE_WX_STALE_NS, RTE_WX_EN, RTE_STUCK_WD, RTE_EPOCH, RTE_SWAP, RTE_SWAP_PEND]
/-- Rows 25 to 45 of the RTE page. -/
def rowsRTE1 : List Fld :=
  [RTE_PORT_UP, RTE_TBL_SEL, RTE_TBL_SET, RTE_TBL_IDX, RTE_TBL_READ, RTE_TBL_WRITE, RTE_TBL_DATA, RTE_PKTS_ROUTED, RTE_NONMIN_CNT, RTE_ESC_ENTRY, RTE_LAYER2_CNT, RTE_ALT_CNT, RTE_UNROUTABLE, RTE_HOP_DROP, RTE_ESC_VIOL, RTE_ORD_BREAK, RTE_REQUEUED, RTE_HDR_DROP, RTE_GW_MISS, RTE_WX_RX, RTE_TBL_PARITY]
/-- Every row of the RTE page. -/
def rowsRTE : List Fld :=
  rowsRTE0 ++ rowsRTE1

end Reg

end Sys2Proof.Machine
end

