-- ==== Sys2Proof/Machine/FieldsEngines.lean ====
section
/-!
DEFINITION. The register fields of the pages TPE, QPC, MRG, WIN, BRG, MAP, MTE, CLE, one definition per row of the register tables of spec/:
page type, offset, lowest bit, width, access, value at cold reset, source at warm reset, AON kept, array stride and count.
-/

namespace Sys2Proof.Machine

namespace Reg

/-- R295: Packets per coalesced ACK, 1–255 -/
def TPE_ACK_CNT : Fld := ⟨0x11, 0x100, 0, 8, .rw, .lit 0x10, .cold, false, .no, 0, 1⟩
/-- R295: ns, 10–65,535 -/
def TPE_ACK_NS : Fld := ⟨0x11, 0x100, 8, 16, .rw, .lit 0xC8, .cold, false, .no, 0, 1⟩
/-- R295: Packets, 1–255 (R270) -/
def TPE_ACKREQ_INT : Fld := ⟨0x11, 0x104, 0, 8, .rw, .lit 0x20, .cold, false, .no, 0, 1⟩
/-- R295: 1–8 (R284) -/
def TPE_CUT_SHIFT : Fld := ⟨0x11, 0x108, 0, 4, .rw, .lit 3, .cold, false, .no, 0, 1⟩
/-- R295: ns, 100–65,535 -/
def TPE_ECN_HOLD_NS : Fld := ⟨0x11, 0x108, 4, 16, .rw, .lit 0x7D0, .cold, false, .no, 0, 1⟩
/-- R295: µs, 1–65,535 -/
def TPE_RECOVER_US : Fld := ⟨0x11, 0x10C, 0, 16, .rw, .lit 0x32, .cold, false, .no, 0, 1⟩
/-- R295: Mb/s, 1–4,000,000 -/
def TPE_RATE_STEP : Fld := ⟨0x11, 0x110, 0, 22, .rw, .lit 0x2710, .cold, false, .no, 0, 1⟩
/-- R295: Mb/s, 1–RATE_STEP -/
def TPE_RATE_MIN : Fld := ⟨0x11, 0x114, 0, 22, .rw, .lit 0x64, .cold, false, .no, 0, 1⟩
/-- R295: Bit v: host atomics of VH v by PCIe AtomicOps (R282) -/
def TPE_ATOMIC_HOST : Fld := ⟨0x11, 0x118, 0, 16, .rw, .lit 0, .cold, false, .no, 0, 1⟩
/-- R295: ms, 1–10,000 -/
def TPE_RD_IDLE_MS : Fld := ⟨0x11, 0x11C, 0, 14, .rw, .lit 0x64, .cold, false, .no, 0, 1⟩
/-- R295: Cells, 136 to ENG_MIN − 64 (R270) -/
def TPE_RESP_POOL : Fld := ⟨0x11, 0x120, 0, 16, .rw, .lit 0xC0, .cold, false, .no, 0, 1⟩
/-- R295: Packets sent, resends included -/
def TPE_PKT_TX : Fld := ⟨0x11, 0x140, 0, 32, .rc, .lit 0, .cold, false, .no, 0, 1⟩
/-- R295: Packets taken -/
def TPE_PKT_RX : Fld := ⟨0x11, 0x144, 0, 32, .rc, .lit 0, .cold, false, .no, 0, 1⟩
/-- R295: Packets resent -/
def TPE_RETX_PKTS : Fld := ⟨0x11, 0x148, 0, 32, .rc, .lit 0, .cold, false, .no, 0, 1⟩
/-- R295: SEQ_NAKs sent -/
def TPE_SEQ_NAK_TX : Fld := ⟨0x11, 0x14C, 0, 16, .rc, .lit 0, .cold, false, .no, 0, 1⟩
/-- R295: SEQ_NAKs taken -/
def TPE_SEQ_NAK_RX : Fld := ⟨0x11, 0x14C, 16, 16, .rc, .lit 0, .cold, false, .no, 0, 1⟩
/-- R295: Duplicates discarded or answered -/
def TPE_DUP_RX : Fld := ⟨0x11, 0x150, 0, 32, .rc, .lit 0, .cold, false, .no, 0, 1⟩
/-- R295: Duplicates answered from the record -/
def TPE_RECORD_HITS : Fld := ⟨0x11, 0x154, 0, 32, .rc, .lit 0, .cold, false, .no, 0, 1⟩
/-- R295: R263 -/
def TPE_ECRC_ERR : Fld := ⟨0x11, 0x158, 0, 32, .rc, .lit 0, .cold, false, .no, 0, 1⟩
/-- R295: RNR_NAKs sent -/
def TPE_RNR_NAK_TX : Fld := ⟨0x11, 0x15C, 0, 32, .rc, .lit 0, .cold, false, .no, 0, 1⟩
/-- R295: Context lookups hit -/
def TPE_CACHE_HIT : Fld := ⟨0x11, 0x160, 0, 32, .rc, .lit 0, .cold, false, .no, 0, 1⟩
/-- R295: Context lookups missed -/
def TPE_CACHE_MISS : Fld := ⟨0x11, 0x164, 0, 32, .rc, .lit 0, .cold, false, .no, 0, 1⟩
/-- R295: WQE starts delayed (R288) -/
def TPE_PIN_WAIT : Fld := ⟨0x11, 0x168, 0, 32, .rc, .lit 0, .cold, false, .no, 0, 1⟩
/-- R295: Most entries in the miss list -/
def TPE_MISS_HWM : Fld := ⟨0x11, 0x16C, 0, 13, .rc, .lit 0, .cold, false, .no, 0, 1⟩
/-- R295: Congestion echoes taken -/
def TPE_ECE_RX : Fld := ⟨0x11, 0x170, 0, 32, .rc, .lit 0, .cold, false, .no, 0, 1⟩
/-- R295: Responses and completions dropped late -/
def TPE_LATE_DROP : Fld := ⟨0x11, 0x174, 0, 32, .rc, .lit 0, .cold, false, .no, 0, 1⟩
/-- R295: Packets discarded by R257 or R285 -/
def TPE_BAD_VH : Fld := ⟨0x11, 0x178, 0, 32, .rc, .lit 0, .cold, false, .no, 0, 1⟩
/-- R295: Doorbells dropped (R264) -/
def TPE_DB_BAD : Fld := ⟨0x11, 0x17C, 0, 32, .rc, .lit 0, .cold, false, .no, 0, 1⟩
/-- R295: Event entries dropped at full rings -/
def TPE_RING_DROP : Fld := ⟨0x11, 0x180, 0, 32, .rc, .lit 0, .cold, false, .no, 0, 1⟩
/-- Rows 1 to 24 of the TPE page. -/
def rowsTPE0 : List Fld :=
  [TPE_ACK_CNT, TPE_ACK_NS, TPE_ACKREQ_INT, TPE_CUT_SHIFT, TPE_ECN_HOLD_NS, TPE_RECOVER_US, TPE_RATE_STEP, TPE_RATE_MIN, TPE_ATOMIC_HOST, TPE_RD_IDLE_MS, TPE_RESP_POOL, TPE_PKT_TX, TPE_PKT_RX, TPE_RETX_PKTS, TPE_SEQ_NAK_TX, TPE_SEQ_NAK_RX, TPE_DUP_RX, TPE_RECORD_HITS, TPE_ECRC_ERR, TPE_RNR_NAK_TX, TPE_CACHE_HIT, TPE_CACHE_MISS, TPE_PIN_WAIT, TPE_MISS_HWM]
/-- Rows 25 to 29 of the TPE page. -/
def rowsTPE1 : List Fld :=
  [TPE_ECE_RX, TPE_LATE_DROP, TPE_BAD_VH, TPE_DB_BAD, TPE_RING_DROP]
/-- Every row of the TPE page. -/
def rowsTPE : List Fld :=
  rowsTPE0 ++ rowsTPE1

/-- R296: 0 QUERY, 1 CREATE, 2 MODIFY, 3 DESTROY, 4 RANGE_READ, 5 RANGE_WRITE, 6 CQ_CREATE, 7 CQ_DESTROY, 8 CQ_QUERY -/
def QPC_CMD_OP : Fld := ⟨0x12, 0x100, 0, 4, .rw, .lit 0, .cold, false, .no, 0, 1⟩
/-- R296: QPN, CQN or range index -/
def QPC_CMD_NUM : Fld := ⟨0x12, 0x104, 0, 24, .rw, .lit 0, .cold, false, .no, 0, 1⟩
/-- R296: Starts the command; self-clearing -/
def QPC_CMD_GO : Fld := ⟨0x12, 0x108, 0, 1, .w1s, .lit 0, .cold, false, .no, 0, 1⟩
/-- R296: Command running -/
def QPC_CMD_BUSY : Fld := ⟨0x12, 0x108, 1, 1, .ro, .lit 0, .cold, false, .no, 0, 1⟩
/-- R296: 0 OK, 1 BAD_NUM, 2 BAD_STATE, 3 BAD_PARAM, 4 NOT_OWNED, 5 BACKING_ERR -/
def QPC_CMD_STATUS : Fld := ⟨0x12, 0x108, 4, 4, .ro, .lit 0, .cold, false, .no, 0, 1⟩
/-- R296: Target state of MODIFY (R269) -/
def QPC_MODIFY_TO : Fld := ⟨0x12, 0x10C, 0, 4, .rw, .lit 0, .cold, false, .no, 0, 1⟩
/-- R296: Cells parked -/
def QPC_LAGOON_USED : Fld := ⟨0x12, 0x140, 0, 14, .ro, .lit 0, .cold, false, .no, 0, 1⟩
/-- R296: Most cells parked -/
def QPC_LAGOON_HWM : Fld := ⟨0x12, 0x144, 0, 14, .rc, .lit 0, .cold, false, .no, 0, 1⟩
/-- R296: Packets parked -/
def QPC_PARKED : Fld := ⟨0x12, 0x148, 0, 32, .rc, .lit 0, .cold, false, .no, 0, 1⟩
/-- R296: Longest package memory fetch, ns -/
def QPC_FETCH_PKM_MAX : Fld := ⟨0x12, 0x14C, 0, 16, .rc, .lit 0, .cold, false, .no, 0, 1⟩
/-- R296: Longest host fetch, ns -/
def QPC_FETCH_HOST_MAX : Fld := ⟨0x12, 0x150, 0, 16, .rc, .lit 0, .cold, false, .no, 0, 1⟩
/-- R296: Corrected context words -/
def QPC_CTX_ECC_CORR : Fld := ⟨0x12, 0x154, 0, 16, .rc, .lit 0, .cold, false, .no, 0, 1⟩
/-- R296: Fetches failed (R292) -/
def QPC_FETCH_ERR : Fld := ⟨0x12, 0x158, 0, 16, .rc, .lit 0, .cold, false, .no, 0, 1⟩
/-- R296: Episodes of VC1 credit withheld (R291) -/
def QPC_CREDIT_HOLD : Fld := ⟨0x12, 0x15C, 0, 16, .rc, .lit 0, .cold, false, .no, 0, 1⟩
/-- R296: Context bytes 0–255, CQ context bytes 0–63, or range entry words 0–3 -/
def QPC_CMD_DATA : Fld := ⟨0x12, 0x200, 0, 32, .rw, .lit 0, .cold, false, .no, 4, 64⟩
/-- Rows 1 to 15 of the QPC page. -/
def rowsQPC0 : List Fld :=
  [QPC_CMD_OP, QPC_CMD_NUM, QPC_CMD_GO, QPC_CMD_BUSY, QPC_CMD_STATUS, QPC_MODIFY_TO, QPC_LAGOON_USED, QPC_LAGOON_HWM, QPC_PARKED, QPC_FETCH_PKM_MAX, QPC_FETCH_HOST_MAX, QPC_CTX_ECC_CORR, QPC_FETCH_ERR, QPC_CREDIT_HOLD, QPC_CMD_DATA]
/-- Every row of the QPC page. -/
def rowsQPC : List Fld :=
  rowsQPC0

/-- R327: Translation store blocks, 1,024–4,194,304; written only while REGIONS = 0; without an image, 262,144 -/
def MRG_XLT_BLOCKS : Fld := ⟨0x13, 0x100, 0, 23, .rw, .lit 0x40000, .image, false, .image, 0, 1⟩
/-- R327: Valid regions -/
def MRG_REGIONS : Fld := ⟨0x13, 0x104, 0, 23, .ro, .lit 0, .cold, false, .no, 0, 1⟩
/-- R327: Free blocks -/
def MRG_XLT_FREE : Fld := ⟨0x13, 0x108, 0, 23, .ro, .lit 0, .cold, false, .no, 0, 1⟩
/-- R327: Level raising XLT_STORE_LOW; without an image, 4,096 -/
def MRG_XLT_LOW : Fld := ⟨0x13, 0x10C, 0, 23, .rw, .lit 0x1000, .image, false, .image, 0, 1⟩
/-- R327: 0 QUERY, 1 REG, 2 REREG, 3 DEREG, 4 INVAL_SLICE -/
def MRG_CMD_OP : Fld := ⟨0x13, 0x110, 0, 3, .rw, .lit 0, .cold, false, .no, 0, 1⟩
/-- R327: Key in; key out after REG and REREG; slice in [11:0] for INVAL_SLICE -/
def MRG_CMD_KEY : Fld := ⟨0x13, 0x114, 0, 32, .rw, .lit 0, .cold, false, .no, 0, 1⟩
/-- R327: Starts the command; self-clearing -/
def MRG_CMD_GO : Fld := ⟨0x13, 0x118, 0, 1, .w1s, .lit 0, .cold, false, .no, 0, 1⟩
/-- R327: Command running -/
def MRG_CMD_BUSY : Fld := ⟨0x13, 0x118, 1, 1, .ro, .lit 0, .cold, false, .no, 0, 1⟩
/-- R327: 0 OK, 1 BAD_KEY, 2 NOT_OWNED, 3 BAD_PARAM, 4 NO_INDEX, 5 NO_SPACE, 6 GEN_EXHAUSTED, 7 HOST_DMA_ERR -/
def MRG_CMD_STATUS : Fld := ⟨0x13, 0x118, 4, 4, .ro, .lit 0, .cold, false, .no, 0, 1⟩
/-- R327: Translation cache hits -/
def MRG_KEY_HIT : Fld := ⟨0x13, 0x120, 0, 32, .rc, .lit 0, .cold, false, .no, 0, 1⟩
/-- R327: Translation cache misses (R306) -/
def MRG_KEY_MISS : Fld := ⟨0x13, 0x124, 0, 32, .rc, .lit 0, .cold, false, .no, 0, 1⟩
/-- R327: Keys refused as stale (R303) -/
def MRG_STALE_CNT : Fld := ⟨0x13, 0x128, 0, 32, .rc, .lit 0, .cold, false, .no, 0, 1⟩
/-- R327: Other key failures -/
def MRG_PROT_CNT : Fld := ⟨0x13, 0x12C, 0, 32, .rc, .lit 0, .cold, false, .no, 0, 1⟩
/-- R327: Corrected entry words -/
def MRG_ECC_CORR : Fld := ⟨0x13, 0x130, 0, 16, .rc, .lit 0, .cold, false, .no, 0, 1⟩
/-- R327: Region entry bytes 0–63 (R300) -/
def MRG_CMD_DATA : Fld := ⟨0x13, 0x200, 0, 32, .rw, .lit 0, .cold, false, .no, 4, 16⟩
/-- Rows 1 to 15 of the MRG page. -/
def rowsMRG0 : List Fld :=
  [MRG_XLT_BLOCKS, MRG_REGIONS, MRG_XLT_FREE, MRG_XLT_LOW, MRG_CMD_OP, MRG_CMD_KEY, MRG_CMD_GO, MRG_CMD_BUSY, MRG_CMD_STATUS, MRG_KEY_HIT, MRG_KEY_MISS, MRG_STALE_CNT, MRG_PROT_CNT, MRG_ECC_CORR, MRG_CMD_DATA]
/-- Every row of the MRG page. -/
def rowsMRG : List Fld :=
  rowsMRG0

/-- R328: Fast window 0–255 -/
def WIN_IDX : Fld := ⟨0x14, 0x100, 0, 8, .rw, .lit 0, .cold, false, .no, 0, 1⟩
/-- R328: Live entry to WIN_DATA; self-clearing -/
def WIN_RD_LIVE : Fld := ⟨0x14, 0x104, 0, 1, .w1s, .lit 0, .cold, false, .no, 0, 1⟩
/-- R328: Shadow entry to WIN_DATA -/
def WIN_RD_SHADOW : Fld := ⟨0x14, 0x104, 1, 1, .w1s, .lit 0, .cold, false, .no, 0, 1⟩
/-- R328: WIN_DATA to the shadow entry -/
def WIN_WR_SHADOW : Fld := ⟨0x14, 0x104, 2, 1, .w1s, .lit 0, .cold, false, .no, 0, 1⟩
/-- R328: Commits the indexed window (R308) -/
def WIN_COMMIT : Fld := ⟨0x14, 0x104, 3, 1, .w1s, .lit 0, .cold, false, .no, 0, 1⟩
/-- R328: Live entry into the shadow -/
def WIN_DISCARD : Fld := ⟨0x14, 0x104, 4, 1, .w1s, .lit 0, .cold, false, .no, 0, 1⟩
/-- R328: Indexed window's fence complete -/
def WIN_FENCE_DONE : Fld := ⟨0x14, 0x108, 0, 1, .ro, .lit 1, .cold, false, .no, 0, 1⟩
/-- R328: A window commit is running -/
def WIN_COMMIT_BUSY : Fld := ⟨0x14, 0x108, 1, 1, .ro, .lit 0, .cold, false, .no, 0, 1⟩
/-- R328: Window commits, modulo 256 -/
def WIN_COMMITS : Fld := ⟨0x14, 0x108, 8, 8, .ro, .lit 0, .cold, false, .no, 0, 1⟩
/-- R328: Entry words (R307) -/
def WIN_DATA : Fld := ⟨0x14, 0x110, 0, 32, .rw, .lit 0, .cold, false, .no, 4, 8⟩
/-- R328: Window w pending at word w / 32, bit w mod 32 -/
def WIN_FENCE_PEND : Fld := ⟨0x14, 0x140, 0, 32, .ro, .lit 0, .cold, false, .no, 4, 8⟩
/-- R328: Open windows -/
def WIN_OPEN_CNT : Fld := ⟨0x14, 0x160, 0, 9, .ro, .lit 0, .cold, false, .no, 0, 1⟩
/-- R328: Accesses through fast windows -/
def WIN_ACC_CNT : Fld := ⟨0x14, 0x164, 0, 32, .rc, .lit 0, .cold, false, .no, 0, 1⟩
/-- R328: Accesses refused at step 4 of R303 -/
def WIN_CLOSED_CNT : Fld := ⟨0x14, 0x168, 0, 32, .rc, .lit 0, .cold, false, .no, 0, 1⟩
/-- Rows 1 to 14 of the WIN page. -/
def rowsWIN0 : List Fld :=
  [WIN_IDX, WIN_RD_LIVE, WIN_RD_SHADOW, WIN_WR_SHADOW, WIN_COMMIT, WIN_DISCARD, WIN_FENCE_DONE, WIN_COMMIT_BUSY, WIN_COMMITS, WIN_DATA, WIN_FENCE_PEND, WIN_OPEN_CNT, WIN_ACC_CNT, WIN_CLOSED_CNT]
/-- Every row of the WIN page. -/
def rowsWIN : List Fld :=
  rowsWIN0

/-- R329: Window 0–1,023 -/
def BRG_BW_IDX : Fld := ⟨0x15, 0x100, 0, 10, .rw, .lit 0, .cold, false, .no, 0, 1⟩
/-- R329: As on WIN -/
def BRG_RD_LIVE : Fld := ⟨0x15, 0x104, 0, 1, .w1s, .lit 0, .cold, false, .no, 0, 1⟩
/-- R329: As on WIN -/
def BRG_RD_SHADOW : Fld := ⟨0x15, 0x104, 1, 1, .w1s, .lit 0, .cold, false, .no, 0, 1⟩
/-- R329: As on WIN -/
def BRG_WR_SHADOW : Fld := ⟨0x15, 0x104, 2, 1, .w1s, .lit 0, .cold, false, .no, 0, 1⟩
/-- R329: As on WIN -/
def BRG_COMMIT : Fld := ⟨0x15, 0x104, 3, 1, .w1s, .lit 0, .cold, false, .no, 0, 1⟩
/-- R329: As on WIN -/
def BRG_DISCARD : Fld := ⟨0x15, 0x104, 4, 1, .w1s, .lit 0, .cold, false, .no, 0, 1⟩
/-- R329: Clears the indexed window's latch (R319) -/
def BRG_ERR_CLR : Fld := ⟨0x15, 0x104, 5, 1, .w1s, .lit 0, .cold, false, .no, 0, 1⟩
/-- R329: Indexed window's fence complete -/
def BRG_FENCE_DONE : Fld := ⟨0x15, 0x108, 0, 1, .ro, .lit 1, .cold, false, .no, 0, 1⟩
/-- R329: R318 -/
def BRG_ERR_LATCH : Fld := ⟨0x15, 0x108, 1, 1, .ro, .lit 0, .cold, false, .no, 0, 1⟩
/-- R329: R318 -/
def BRG_ERR_CAUSE : Fld := ⟨0x15, 0x108, 2, 3, .ro, .lit 0, .cold, false, .no, 0, 1⟩
/-- R329: Semaphore held (R316) -/
def BRG_LOCKED : Fld := ⟨0x15, 0x108, 5, 1, .ro, .lit 0, .cold, false, .no, 0, 1⟩
/-- R329: Window's outstanding reads -/
def BRG_TAGS_USED : Fld := ⟨0x15, 0x108, 8, 9, .ro, .lit 0, .cold, false, .no, 0, 1⟩
/-- R329: R318 -/
def BRG_ERR_PSN : Fld := ⟨0x15, 0x10C, 0, 24, .ro, .lit 0, .cold, false, .no, 0, 1⟩
/-- R329: Window entry words (R309) -/
def BRG_BW_DATA : Fld := ⟨0x15, 0x110, 0, 32, .rw, .lit 0, .cold, false, .no, 4, 8⟩
/-- R329: Group 0–63 -/
def BRG_GRP_IDX : Fld := ⟨0x15, 0x130, 0, 6, .rw, .lit 0, .cold, false, .no, 0, 1⟩
/-- R329: Live group entry to GRP_DATA -/
def BRG_GRP_RD : Fld := ⟨0x15, 0x134, 0, 1, .w1s, .lit 0, .cold, false, .no, 0, 1⟩
/-- R329: GRP_DATA to the shadow group entry -/
def BRG_GRP_WR : Fld := ⟨0x15, 0x134, 1, 1, .w1s, .lit 0, .cold, false, .no, 0, 1⟩
/-- R329: Commits the group; a group holding tags or write cells is refused with CFG_BRG_RANGE -/
def BRG_GRP_COMMIT : Fld := ⟨0x15, 0x134, 2, 1, .w1s, .lit 0, .cold, false, .no, 0, 1⟩
/-- R329: Group words (R310) -/
def BRG_GRP_DATA : Fld := ⟨0x15, 0x138, 0, 32, .rw, .lit 0, .cold, false, .no, 4, 4⟩
/-- R329: Group's tags in use -/
def BRG_GRP_TAGS : Fld := ⟨0x15, 0x148, 0, 9, .ro, .lit 0, .cold, false, .no, 0, 1⟩
/-- R329: Group's write cells held -/
def BRG_GRP_WCELLS : Fld := ⟨0x15, 0x148, 16, 13, .ro, .lit 0, .cold, false, .no, 0, 1⟩
/-- R329: log2 bytes, 8–12; without an image, 8 -/
def BRG_PF_BLOCK : Fld := ⟨0x15, 0x150, 0, 4, .rw, .lit 8, .image, false, .image, 0, 1⟩
/-- R329: µs, 1–65,535; without an image, 100 -/
def BRG_PF_AGE : Fld := ⟨0x15, 0x150, 8, 16, .rw, .lit 0x64, .image, false, .image, 0, 1⟩
/-- R329: µs, 100–50,000; without an image, 10,000 -/
def BRG_RD_TMO : Fld := ⟨0x15, 0x154, 0, 16, .rw, .lit 0x2710, .image, false, .image, 0, 1⟩
/-- R329: ms, 1–1,000; without an image, 10 -/
def BRG_LOCK_TMO : Fld := ⟨0x15, 0x154, 16, 10, .rw, .lit 0xA, .image, false, .image, 0, 1⟩
/-- R329: 256–8,192; without an image, 4,096 -/
def BRG_WBUF_CELLS : Fld := ⟨0x15, 0x158, 0, 14, .rw, .lit 0x1000, .image, false, .image, 0, 1⟩
/-- R329: Write TLPs carried -/
def BRG_WR_TLP : Fld := ⟨0x15, 0x160, 0, 32, .rc, .lit 0, .cold, false, .no, 0, 1⟩
/-- R329: Read TLPs carried -/
def BRG_RD_TLP : Fld := ⟨0x15, 0x164, 0, 32, .rc, .lit 0, .cold, false, .no, 0, 1⟩
/-- R329: R318 -/
def BRG_WR_ABANDONED : Fld := ⟨0x15, 0x168, 0, 32, .rc, .lit 0, .cold, false, .no, 0, 1⟩
/-- R329: CA completions -/
def BRG_CA_SENT : Fld := ⟨0x15, 0x16C, 0, 32, .rc, .lit 0, .cold, false, .no, 0, 1⟩
/-- R329: Unsupported Requests (R309, R322) -/
def BRG_UR_SENT : Fld := ⟨0x15, 0x170, 0, 32, .rc, .lit 0, .cold, false, .no, 0, 1⟩
/-- R329: Blocks prefetched -/
def BRG_PF_ISSUED : Fld := ⟨0x15, 0x174, 0, 32, .rc, .lit 0, .cold, false, .no, 0, 1⟩
/-- R329: Reads answered from the store -/
def BRG_PF_HIT : Fld := ⟨0x15, 0x178, 0, 32, .rc, .lit 0, .cold, false, .no, 0, 1⟩
/-- R329: R314 -/
def BRG_PF_DISCARD : Fld := ⟨0x15, 0x17C, 0, 32, .rc, .lit 0, .cold, false, .no, 0, 1⟩
/-- R329: Reads ended at RD_TMO -/
def BRG_RD_TMO_CNT : Fld := ⟨0x15, 0x180, 0, 32, .rc, .lit 0, .cold, false, .no, 0, 1⟩
/-- R329: Late responses dropped -/
def BRG_LATE_DROP : Fld := ⟨0x15, 0x184, 0, 32, .rc, .lit 0, .cold, false, .no, 0, 1⟩
/-- R329: Reads that waited for a tag -/
def BRG_TAG_WAIT : Fld := ⟨0x15, 0x188, 0, 32, .rc, .lit 0, .cold, false, .no, 0, 1⟩
/-- R329: Message writes dropped (R326) -/
def BRG_MSG_DROP : Fld := ⟨0x15, 0x18C, 0, 32, .rc, .lit 0, .cold, false, .no, 0, 1⟩
/-- R329: Slot s = 0–31 in force: 5-bit source per wire, PERST_N [4:0], WAKE_N [9:5], PRSNT_N [14:10], CLKREQ_N ... -/
def BRG_WIRE_MAP : Fld := ⟨0x15, 0x800, 0, 25, .ro, .lit 0x1FFFFFF, .kept, false, .image, 4, 32⟩
/-- R329: Staged map; other source values refused with CFG_WIRE_MAP -/
def BRG_WIRE_STG : Fld := ⟨0x15, 0x880, 0, 25, .rw, .lit 0x1FFFFFF, .kept, false, .image, 4, 32⟩
/-- R329: Starts a map commit (R324) -/
def BRG_WIRE_COMMIT : Fld := ⟨0x15, 0x900, 0, 1, .w1s, .lit 0, .cold, false, .no, 0, 1⟩
/-- R329: Map commit running -/
def BRG_WIRE_BUSY : Fld := ⟨0x15, 0x900, 1, 1, .ro, .lit 0, .cold, false, .no, 0, 1⟩
/-- R329: Wire k = 0–4 (PERST_N, WAKE_N, PRSNT_N, CLKREQ_N, ALERT_N), bit s per slot -/
def BRG_SLOT_LVL : Fld := ⟨0x15, 0x904, 0, 32, .ro, .lit 0, .cold, false, .no, 4, 5⟩
/-- R329: Wire k, bit h per host group -/
def BRG_HOST_LVL : Fld := ⟨0x15, 0x918, 0, 16, .ro, .lit 0, .cold, false, .no, 4, 5⟩
/-- R329: Bit s: edges of slot s raise WIRE_EDGE -/
def BRG_WATCH : Fld := ⟨0x15, 0x92C, 0, 32, .rw, .lit 0, .kept, false, .no, 4, 5⟩
/-- R329: Watched edges seen -/
def BRG_WIRE_EDGES : Fld := ⟨0x15, 0x940, 0, 32, .rc, .lit 0, .kept, false, .no, 0, 1⟩
/-- Rows 1 to 24 of the BRG page. -/
def rowsBRG0 : List Fld :=
  [BRG_BW_IDX, BRG_RD_LIVE, BRG_RD_SHADOW, BRG_WR_SHADOW, BRG_COMMIT, BRG_DISCARD, BRG_ERR_CLR, BRG_FENCE_DONE, BRG_ERR_LATCH, BRG_ERR_CAUSE, BRG_LOCKED, BRG_TAGS_USED, BRG_ERR_PSN, BRG_BW_DATA, BRG_GRP_IDX, BRG_GRP_RD, BRG_GRP_WR, BRG_GRP_COMMIT, BRG_GRP_DATA, BRG_GRP_TAGS, BRG_GRP_WCELLS, BRG_PF_BLOCK, BRG_PF_AGE, BRG_RD_TMO]
/-- Rows 25 to 46 of the BRG page. -/
def rowsBRG1 : List Fld :=
  [BRG_LOCK_TMO, BRG_WBUF_CELLS, BRG_WR_TLP, BRG_RD_TLP, BRG_WR_ABANDONED, BRG_CA_SENT, BRG_UR_SENT, BRG_PF_ISSUED, BRG_PF_HIT, BRG_PF_DISCARD, BRG_RD_TMO_CNT, BRG_LATE_DROP, BRG_TAG_WAIT, BRG_MSG_DROP, BRG_WIRE_MAP, BRG_WIRE_STG, BRG_WIRE_COMMIT, BRG_WIRE_BUSY, BRG_SLOT_LVL, BRG_HOST_LVL, BRG_WATCH, BRG_WIRE_EDGES]
/-- Every row of the BRG page. -/
def rowsBRG : List Fld :=
  rowsBRG0 ++ rowsBRG1

/-- R330: Entry 0–65,535 -/
def MAP_IDX : Fld := ⟨0x16, 0x100, 0, 16, .rw, .lit 0, .cold, false, .no, 0, 1⟩
/-- R330: Entry to MAP_DATA; self-clearing -/
def MAP_READ : Fld := ⟨0x16, 0x104, 0, 1, .w1s, .lit 0, .cold, false, .no, 0, 1⟩
/-- R330: MAP_DATA to the entry; checked by R321 -/
def MAP_WRITE : Fld := ⟨0x16, 0x104, 1, 1, .w1s, .lit 0, .cold, false, .no, 0, 1⟩
/-- R330: Entry words (R321) -/
def MAP_DATA : Fld := ⟨0x16, 0x110, 0, 32, .rw, .lit 0, .cold, false, .no, 4, 6⟩
/-- R330: Message endpoint EKEY; without an image, 0 -/
def MAP_EKEY : Fld := ⟨0x16, 0x130, 0, 32, .rw, .lit 0, .image, false, .image, 0, 1⟩
/-- R330: Messages taken -/
def MAP_MSG_RX : Fld := ⟨0x16, 0x140, 0, 32, .rc, .lit 0, .cold, false, .no, 0, 1⟩
/-- R330: Message writes sent -/
def MAP_MSG_DELIVERED : Fld := ⟨0x16, 0x144, 0, 32, .rc, .lit 0, .cold, false, .no, 0, 1⟩
/-- R330: R321 -/
def MAP_MISS_CNT : Fld := ⟨0x16, 0x148, 0, 32, .rc, .lit 0, .cold, false, .no, 0, 1⟩
/-- R330: Messages arriving while masked -/
def MAP_MSG_PENDED : Fld := ⟨0x16, 0x14C, 0, 32, .rc, .lit 0, .cold, false, .no, 0, 1⟩
/-- R330: Messages forwarded (R322) -/
def MAP_FWD_TX : Fld := ⟨0x16, 0x150, 0, 32, .rc, .lit 0, .cold, false, .no, 0, 1⟩
/-- R330: VH v = 0–15: target node; without an image, 0 -/
def MAP_FWD_LID : Fld := ⟨0x16, 0x200, 0, 20, .rw, .lit 0, .image, false, .image, 0x10, 16⟩
/-- R330: Forward range enabled; without an image, 0 -/
def MAP_FWD_EN : Fld := ⟨0x16, 0x200, 31, 1, .rw, .lit 0, .image, false, .image, 0x10, 16⟩
/-- R330: Target's MAP_EKEY; without an image, 0 -/
def MAP_FWD_EKEY : Fld := ⟨0x16, 0x204, 0, 32, .rw, .lit 0, .image, false, .image, 0x10, 16⟩
/-- R330: Aperture offset [31:0]; [11:0] zero -/
def MAP_FWD_OFS_LO : Fld := ⟨0x16, 0x208, 0, 32, .rw, .lit 0, .image, false, .image, 0x10, 16⟩
/-- R330: Aperture offset [39:32] -/
def MAP_FWD_OFS_HI : Fld := ⟨0x16, 0x20C, 0, 8, .rw, .lit 0, .image, false, .image, 0x10, 16⟩
/-- Rows 1 to 15 of the MAP page. -/
def rowsMAP0 : List Fld :=
  [MAP_IDX, MAP_READ, MAP_WRITE, MAP_DATA, MAP_EKEY, MAP_MSG_RX, MAP_MSG_DELIVERED, MAP_MISS_CNT, MAP_MSG_PENDED, MAP_FWD_TX, MAP_FWD_LID, MAP_FWD_EN, MAP_FWD_EKEY, MAP_FWD_OFS_LO, MAP_FWD_OFS_HI]
/-- Every row of the MAP page. -/
def rowsMAP : List Fld :=
  rowsMAP0

/-- R354: Bytes, 0–16,384 (R339); without an image, 16,384 -/
def MTE_EAGER_MAX : Fld := ⟨0x17, 0x100, 0, 15, .rw, .lit 0x4000, .image, false, .image, 0, 1⟩
/-- R354: log2 of bounce pool bytes, 20–30; written only while CTX_VALID = 0; without an image, 26 -/
def MTE_UX_POOL_SIZE : Fld := ⟨0x17, 0x104, 0, 5, .rw, .lit 0x1A, .image, false, .image, 0, 1⟩
/-- R354: Free bounce pool, 256 B units -/
def MTE_UX_POOL_FREE : Fld := ⟨0x17, 0x108, 0, 24, .ro, .lit 0, .cold, false, .no, 0, 1⟩
/-- R354: Level raising UX_POOL_LOW; without an image, 4,096 -/
def MTE_UX_POOL_LOW : Fld := ⟨0x17, 0x10C, 0, 24, .rw, .lit 0x1000, .image, false, .image, 0, 1⟩
/-- R354: Posted entries on-die, 0–65,536 -/
def MTE_PRQ_ONDIE : Fld := ⟨0x17, 0x110, 0, 17, .ro, .lit 0, .cold, false, .no, 0, 1⟩
/-- R354: Posted entries in overflow, 0–2,097,152 -/
def MTE_PRQ_OVF : Fld := ⟨0x17, 0x114, 0, 22, .ro, .lit 0, .cold, false, .no, 0, 1⟩
/-- R354: Unexpected entries on-die -/
def MTE_UX_ONDIE : Fld := ⟨0x17, 0x118, 0, 17, .ro, .lit 0, .cold, false, .no, 0, 1⟩
/-- R354: Unexpected entries in overflow -/
def MTE_UX_OVF : Fld := ⟨0x17, 0x11C, 0, 22, .ro, .lit 0, .cold, false, .no, 0, 1⟩
/-- R354: Valid contexts, 0–4,096 -/
def MTE_CTX_VALID : Fld := ⟨0x17, 0x120, 0, 13, .ro, .lit 0, .cold, false, .no, 0, 1⟩
/-- R354: 0 CTX_QUERY, 1 CTX_CREATE, 2 CTX_DESTROY -/
def MTE_CMD_OP : Fld := ⟨0x17, 0x130, 0, 2, .rw, .lit 0, .cold, false, .no, 0, 1⟩
/-- R354: Context index; returned by CTX_CREATE -/
def MTE_CMD_IDX : Fld := ⟨0x17, 0x134, 0, 12, .rw, .lit 0, .cold, false, .no, 0, 1⟩
/-- R354: Starts the command; self-clearing -/
def MTE_CMD_GO : Fld := ⟨0x17, 0x138, 0, 1, .w1s, .lit 0, .cold, false, .no, 0, 1⟩
/-- R354: Command running -/
def MTE_CMD_BUSY : Fld := ⟨0x17, 0x138, 1, 1, .ro, .lit 0, .cold, false, .no, 0, 1⟩
/-- R354: 0 OK, 1 BAD_IDX, 2 NOT_OWNED, 3 BAD_PARAM, 4 NO_ROOM, 5 EXISTS -/
def MTE_CMD_STATUS : Fld := ⟨0x17, 0x138, 4, 4, .ro, .lit 0, .cold, false, .no, 0, 1⟩
/-- R354: Context entry words (R335) -/
def MTE_CMD_DATA : Fld := ⟨0x17, 0x140, 0, 32, .rw, .lit 0, .cold, false, .no, 4, 8⟩
/-- R354: Match operations (R350) -/
def MTE_MATCH_OPS : Fld := ⟨0x17, 0x180, 0, 32, .rc, .lit 0, .cold, false, .no, 0, 1⟩
/-- R354: Matches decided on-die -/
def MTE_HIT_ONDIE : Fld := ⟨0x17, 0x184, 0, 32, .rc, .lit 0, .cold, false, .no, 0, 1⟩
/-- R354: Matches decided in overflow -/
def MTE_HIT_OVF : Fld := ⟨0x17, 0x188, 0, 32, .rc, .lit 0, .cold, false, .no, 0, 1⟩
/-- R354: Messages entered unexpected -/
def MTE_UX_IN : Fld := ⟨0x17, 0x18C, 0, 32, .rc, .lit 0, .cold, false, .no, 0, 1⟩
/-- R354: RNR_NAKs sent by R351 -/
def MTE_UX_RNR : Fld := ⟨0x17, 0x190, 0, 32, .rc, .lit 0, .cold, false, .no, 0, 1⟩
/-- R354: R336 -/
def MTE_CTX_MISS_CNT : Fld := ⟨0x17, 0x194, 0, 32, .rc, .lit 0, .cold, false, .no, 0, 1⟩
/-- R354: Truncated receives -/
def MTE_TRUNC_CNT : Fld := ⟨0x17, 0x198, 0, 32, .rc, .lit 0, .cold, false, .no, 0, 1⟩
/-- R354: Rendezvous messages matched -/
def MTE_RNDV_CNT : Fld := ⟨0x17, 0x19C, 0, 32, .rc, .lit 0, .cold, false, .no, 0, 1⟩
/-- R354: Finishes discarded (R340) -/
def MTE_FIN_BAD : Fld := ⟨0x17, 0x1A0, 0, 32, .rc, .lit 0, .cold, false, .no, 0, 1⟩
/-- R354: Most entries examined in one decision -/
def MTE_SCAN_HWM : Fld := ⟨0x17, 0x1A4, 0, 16, .rc, .lit 0, .cold, false, .no, 0, 1⟩
/-- R354: Corrected list and context words -/
def MTE_ECC_CORR : Fld := ⟨0x17, 0x1A8, 0, 16, .rc, .lit 0, .cold, false, .no, 0, 1⟩
/-- Rows 1 to 24 of the MTE page. -/
def rowsMTE0 : List Fld :=
  [MTE_EAGER_MAX, MTE_UX_POOL_SIZE, MTE_UX_POOL_FREE, MTE_UX_POOL_LOW, MTE_PRQ_ONDIE, MTE_PRQ_OVF, MTE_UX_ONDIE, MTE_UX_OVF, MTE_CTX_VALID, MTE_CMD_OP, MTE_CMD_IDX, MTE_CMD_GO, MTE_CMD_BUSY, MTE_CMD_STATUS, MTE_CMD_DATA, MTE_MATCH_OPS, MTE_HIT_ONDIE, MTE_HIT_OVF, MTE_UX_IN, MTE_UX_RNR, MTE_CTX_MISS_CNT, MTE_TRUNC_CNT, MTE_RNDV_CNT, MTE_FIN_BAD]
/-- Rows 25 to 26 of the MTE page. -/
def rowsMTE1 : List Fld :=
  [MTE_SCAN_HWM, MTE_ECC_CORR]
/-- Every row of the MTE page. -/
def rowsMTE : List Fld :=
  rowsMTE0 ++ rowsMTE1

/-- R391: 0 GRP_READ, 1 GRP_CREATE, 2 GRP_MODIFY, 3 GRP_DESTROY, 4 CHILD_READ, 5 CHILD_WRITE, 6 MEMBER_READ, 7 ... -/
def CLE_CMD_OP : Fld := ⟨0x18, 0x100, 0, 4, .rw, .lit 0, .cold, false, .no, 0, 1⟩
/-- R391: Group index with index mod 4 = instance; child entry 0–16,383; member slot with slot mod 4 = instance -/
def CLE_CMD_IDX : Fld := ⟨0x18, 0x104, 0, 14, .rw, .lit 0, .cold, false, .no, 0, 1⟩
/-- R391: Starts the command; self-clearing -/
def CLE_CMD_GO : Fld := ⟨0x18, 0x108, 0, 1, .w1s, .lit 0, .cold, false, .no, 0, 1⟩
/-- R391: Command running -/
def CLE_CMD_BUSY : Fld := ⟨0x18, 0x108, 1, 1, .ro, .lit 0, .cold, false, .no, 0, 1⟩
/-- R391: 0 OK, 1 BAD_IDX, 2 BAD_STATE, 3 BAD_PARAM, 4 NOT_OWNED, 5 NO_ROOM, 6 REFUSED -/
def CLE_CMD_STATUS : Fld := ⟨0x18, 0x108, 4, 4, .ro, .lit 0, .cold, false, .no, 0, 1⟩
/-- R391: Entry words (R358, R359, R364): a group entry uses words 0–11, a child entry words 0–3, a member entry ... -/
def CLE_CMD_DATA : Fld := ⟨0x18, 0x140, 0, 32, .rw, .lit 0, .cold, false, .no, 4, 12⟩
/-- R391: µs, 1,000–10,000,000 (R387) -/
def CLE_OP_TMO : Fld := ⟨0x18, 0x180, 0, 24, .rw, .lit 0x186A0, .cold, false, .no, 0, 1⟩
/-- R391: µs, 10–65,535 -/
def CLE_FAULT_TMO : Fld := ⟨0x18, 0x184, 0, 16, .rw, .lit 0x3E8, .cold, false, .no, 0, 1⟩
/-- R391: Free accumulator lines -/
def CLE_LINES_FREE : Fld := ⟨0x18, 0x188, 0, 12, .ro, .lit 0x800, .cold, false, .no, 0, 1⟩
/-- R391: Valid groups of the unit -/
def CLE_GROUPS : Fld := ⟨0x18, 0x18C, 0, 11, .ro, .lit 0, .cold, false, .no, 0, 1⟩
/-- R391: The unit's part of COLL_RSV -/
def CLE_RSV_CELLS : Fld := ⟨0x18, 0x190, 0, 20, .ro, .lit 0, .cold, false, .no, 0, 1⟩
/-- R391: Instances completed at this device -/
def CLE_OPS_DONE : Fld := ⟨0x18, 0x1A0, 0, 32, .rc, .lit 0, .cold, false, .no, 0, 1⟩
/-- R391: Blocks combined -/
def CLE_BLOCKS : Fld := ⟨0x18, 0x1A4, 0, 32, .rc, .lit 0, .cold, false, .no, 0, 1⟩
/-- R391: ABORTs sent as root -/
def CLE_ABORTS : Fld := ⟨0x18, 0x1A8, 0, 32, .rc, .lit 0, .cold, false, .no, 0, 1⟩
/-- R391: Blocks sent by R386 -/
def CLE_REDELIVERS : Fld := ⟨0x18, 0x1AC, 0, 32, .rc, .lit 0, .cold, false, .no, 0, 1⟩
/-- R391: Instances failed by MISMATCH -/
def CLE_MISMATCH_CNT : Fld := ⟨0x18, 0x1B0, 0, 32, .rc, .lit 0, .cold, false, .no, 0, 1⟩
/-- R391: Malformed limb windows (R378) -/
def CLE_WIN_ERR : Fld := ⟨0x18, 0x1B4, 0, 32, .rc, .lit 0, .cold, false, .no, 0, 1⟩
/-- R391: R381 -/
def CLE_HZN_EMPTY : Fld := ⟨0x18, 0x1B8, 0, 32, .rc, .lit 0, .cold, false, .no, 0, 1⟩
/-- R391: Corrected accumulator and table words -/
def CLE_ECC_CORR : Fld := ⟨0x18, 0x1BC, 0, 16, .rc, .lit 0, .cold, false, .no, 0, 1⟩
/-- Rows 1 to 19 of the CLE page. -/
def rowsCLE0 : List Fld :=
  [CLE_CMD_OP, CLE_CMD_IDX, CLE_CMD_GO, CLE_CMD_BUSY, CLE_CMD_STATUS, CLE_CMD_DATA, CLE_OP_TMO, CLE_FAULT_TMO, CLE_LINES_FREE, CLE_GROUPS, CLE_RSV_CELLS, CLE_OPS_DONE, CLE_BLOCKS, CLE_ABORTS, CLE_REDELIVERS, CLE_MISMATCH_CNT, CLE_WIN_ERR, CLE_HZN_EMPTY, CLE_ECC_CORR]
/-- Every row of the CLE page. -/
def rowsCLE : List Fld :=
  rowsCLE0

end Reg

end Sys2Proof.Machine
end

