-- ==== Sys2Proof/Machine/FieldsFunctions.lean ====
section
/-!
DEFINITION. The register fields of the pages EXP, VHC, FUN, SLC, MIR, PKM, CMP, one definition per row of the register tables of spec/:
page type, offset, lowest bit, width, access, value at cold reset, source at warm reset, AON kept, array stride and count.
-/

namespace Sys2Proof.Machine

namespace Reg

/-- R419: Port number -/
def EXP_PORT : Fld := ⟨0x19, 0x100, 0, 8, .ro, .lit 0, .cold, false, .no, 0, 1⟩
/-- R419: The index is in use -/
def EXP_IDX_VALID : Fld := ⟨0x19, 0x100, 8, 1, .ro, .lit 0, .cold, false, .no, 0, 1⟩
/-- R419: Port enabled; without an image, 1 for every port that the board table configures -/
def EXP_EN : Fld := ⟨0x19, 0x104, 0, 1, .rw, .lit 0, .image, false, .image, 0, 1⟩
/-- R419: Isolates the port (R407) -/
def EXP_ISO_SET : Fld := ⟨0x19, 0x104, 1, 1, .w1s, .lit 0, .cold, false, .no, 0, 1⟩
/-- R419: Fabric manager release (R408) -/
def EXP_ISO_REL : Fld := ⟨0x19, 0x104, 2, 1, .w1s, .lit 0, .cold, false, .no, 0, 1⟩
/-- R419: Current generation, 1–6 -/
def EXP_SPEED : Fld := ⟨0x19, 0x108, 0, 3, .ro, .lit 0, .cold, false, .no, 0, 1⟩
/-- R419: Negotiated width -/
def EXP_WIDTH : Fld := ⟨0x19, 0x108, 3, 5, .ro, .lit 0, .cold, false, .no, 0, 1⟩
/-- R419: Data Link Layer active -/
def EXP_DL_ACTIVE : Fld := ⟨0x19, 0x108, 8, 1, .ro, .lit 0, .cold, false, .no, 0, 1⟩
/-- R419: Flit mode in use -/
def EXP_FLIT : Fld := ⟨0x19, 0x108, 9, 1, .ro, .lit 0, .cold, false, .no, 0, 1⟩
/-- R419: CXL negotiated -/
def EXP_CXL_UP : Fld := ⟨0x19, 0x108, 10, 1, .ro, .lit 0, .cold, false, .no, 0, 1⟩
/-- R419: 0 downstream, 1 upstream (R396) -/
def EXP_ROLE : Fld := ⟨0x19, 0x10C, 0, 1, .rwc, .lit 0, .table, false, .table, 0, 1⟩
/-- R419: VH of an upstream port -/
def EXP_LVH : Fld := ⟨0x19, 0x10C, 1, 4, .rwc, .lit 0, .table, false, .table, 0, 1⟩
/-- R419: Highest generation, 1–6 -/
def EXP_MAX_GEN : Fld := ⟨0x19, 0x110, 0, 3, .rwc, .lit 0, .table, false, .table, 0, 1⟩
/-- R419: CXL offered; without an image, 0 -/
def EXP_CXL_EN : Fld := ⟨0x19, 0x110, 3, 1, .rwc, .lit 0, .image, false, .image, 0, 1⟩
/-- R419: CXL.cache offered (R405); without an image, 0 -/
def EXP_CACHE_EN : Fld := ⟨0x19, 0x110, 4, 1, .rwc, .lit 0, .image, false, .image, 0, 1⟩
/-- R419: Slot group 0–31; without an image, 0 -/
def EXP_SLOT : Fld := ⟨0x19, 0x114, 0, 5, .rwc, .lit 0, .image, false, .image, 0, 1⟩
/-- R419: Slot joined (R411); without an image, 0 -/
def EXP_SLOT_EN : Fld := ⟨0x19, 0x114, 5, 1, .rwc, .lit 0, .image, false, .image, 0, 1⟩
/-- R419: Reference clock always on; without an image, 0 -/
def EXP_CLKREQ_IGN : Fld := ⟨0x19, 0x114, 6, 1, .rwc, .lit 0, .image, false, .image, 0, 1⟩
/-- R419: 1–255; without an image, 64 -/
def EXP_PH : Fld := ⟨0x19, 0x118, 0, 8, .rwc, .lit 0x40, .image, false, .image, 0, 1⟩
/-- R419: As PH -/
def EXP_NPH : Fld := ⟨0x19, 0x118, 8, 8, .rwc, .lit 0x40, .image, false, .image, 0, 1⟩
/-- R419: As PH -/
def EXP_CH : Fld := ⟨0x19, 0x118, 16, 8, .rwc, .lit 0x40, .image, false, .image, 0, 1⟩
/-- R419: 16–4,095; without an image, 1,024 -/
def EXP_PD : Fld := ⟨0x19, 0x11C, 0, 12, .rwc, .lit 0x400, .image, false, .image, 0, 1⟩
/-- R419: 4–4,095; without an image, 16 -/
def EXP_NPD : Fld := ⟨0x19, 0x11C, 16, 12, .rwc, .lit 0x10, .image, false, .image, 0, 1⟩
/-- R419: 16–4,095; without an image, 1,024 -/
def EXP_CD : Fld := ⟨0x19, 0x120, 0, 12, .rwc, .lit 0x400, .image, false, .image, 0, 1⟩
/-- R419: VH bound to this downstream port -/
def EXP_BOUND_CVH : Fld := ⟨0x19, 0x124, 0, 8, .ro, .lit 0, .cold, false, .no, 0, 1⟩
/-- R419: LD bound -/
def EXP_BOUND_LD : Fld := ⟨0x19, 0x124, 8, 4, .ro, .lit 0, .cold, false, .no, 0, 1⟩
/-- R419: Bound -/
def EXP_BOUND : Fld := ⟨0x19, 0x124, 12, 1, .ro, .lit 0, .cold, false, .no, 0, 1⟩
/-- R419: 0 NONE, 1 ISOLATING, 2 WAIT_HOST, 3 WAIT_FM -/
def EXP_ISO_STATE : Fld := ⟨0x19, 0x128, 0, 2, .ro, .lit 0, .cold, false, .no, 0, 1⟩
/-- R419: 0 none, 1 DPC, 2 SURPRISE_DOWN, 3 UNBIND, 4 PATH_LOST, 5 FM -/
def EXP_ISO_CAUSE : Fld := ⟨0x19, 0x128, 4, 3, .ro, .lit 0, .cold, false, .no, 0, 1⟩
/-- R419: Non-posted requests outstanding to the port -/
def EXP_NP_OUT : Fld := ⟨0x19, 0x12C, 0, 13, .ro, .lit 0, .cold, false, .no, 0, 1⟩
/-- R419: TLPs received -/
def EXP_TLP_RX : Fld := ⟨0x19, 0x140, 0, 32, .rc, .lit 0, .cold, false, .no, 0, 1⟩
/-- R419: TLPs sent -/
def EXP_TLP_TX : Fld := ⟨0x19, 0x144, 0, 32, .rc, .lit 0, .cold, false, .no, 0, 1⟩
/-- R419: Poisoned TLPs forwarded -/
def EXP_POISON_FWD : Fld := ⟨0x19, 0x148, 0, 32, .rc, .lit 0, .cold, false, .no, 0, 1⟩
/-- R419: Completions made by R407 or R415 -/
def EXP_CPL_SYN : Fld := ⟨0x19, 0x14C, 0, 32, .rc, .lit 0, .cold, false, .no, 0, 1⟩
/-- R419: TLPs dropped while isolated -/
def EXP_ISO_DROP : Fld := ⟨0x19, 0x150, 0, 32, .rc, .lit 0, .cold, false, .no, 0, 1⟩
/-- R419: Isolations -/
def EXP_ISO_CNT : Fld := ⟨0x19, 0x154, 0, 16, .rc, .lit 0, .cold, false, .no, 0, 1⟩
/-- R419: Requests completed UR by R400 -/
def EXP_UR_SENT : Fld := ⟨0x19, 0x158, 0, 32, .rc, .lit 0, .cold, false, .no, 0, 1⟩
/-- Rows 1 to 24 of the EXP page. -/
def rowsEXP0 : List Fld :=
  [EXP_PORT, EXP_IDX_VALID, EXP_EN, EXP_ISO_SET, EXP_ISO_REL, EXP_SPEED, EXP_WIDTH, EXP_DL_ACTIVE, EXP_FLIT, EXP_CXL_UP, EXP_ROLE, EXP_LVH, EXP_MAX_GEN, EXP_CXL_EN, EXP_CACHE_EN, EXP_SLOT, EXP_SLOT_EN, EXP_CLKREQ_IGN, EXP_PH, EXP_NPH, EXP_CH, EXP_PD, EXP_NPD, EXP_CD]
/-- Rows 25 to 37 of the EXP page. -/
def rowsEXP1 : List Fld :=
  [EXP_BOUND_CVH, EXP_BOUND_LD, EXP_BOUND, EXP_ISO_STATE, EXP_ISO_CAUSE, EXP_NP_OUT, EXP_TLP_RX, EXP_TLP_TX, EXP_POISON_FWD, EXP_CPL_SYN, EXP_ISO_DROP, EXP_ISO_CNT, EXP_UR_SENT]
/-- Every row of the EXP page. -/
def rowsEXP : List Fld :=
  rowsEXP0 ++ rowsEXP1

/-- R420: An upstream port serves the VH -/
def VHC_VH_EN : Fld := ⟨0x1A, 0x100, 0, 1, .ro, .lit 0, .cold, false, .no, 0, 1⟩
/-- R420: EXP index of that port -/
def VHC_USP : Fld := ⟨0x1A, 0x100, 1, 6, .ro, .lit 0, .cold, false, .no, 0, 1⟩
/-- R420: Holds the management function -/
def VHC_MGMT : Fld := ⟨0x1A, 0x100, 7, 1, .ro, .instEq 0, .kept, false, .table, 0, 1⟩
/-- R420: Composite VH (R412); without an image, 0xFF, meaning none -/
def VHC_CVH : Fld := ⟨0x1A, 0x100, 8, 8, .rw, .lit 0xFF, .image, false, .image, 0, 1⟩
/-- R420: Device number 2–31 -/
def VHC_DSP_IDX : Fld := ⟨0x1A, 0x104, 0, 5, .rw, .lit 0, .cold, false, .no, 0, 1⟩
/-- R420: Port map entry in use -/
def VHC_MAP_VALID : Fld := ⟨0x1A, 0x108, 0, 1, .rw, .lit 0, .cold, false, .no, 0, 1⟩
/-- R420: Composite ID; this device's own when composite mode is off -/
def VHC_MEMBER : Fld := ⟨0x1A, 0x108, 1, 6, .rw, .lit 0, .cold, false, .no, 0, 1⟩
/-- R420: EXP index at MEMBER -/
def VHC_DEXP : Fld := ⟨0x1A, 0x108, 7, 6, .rw, .lit 0, .cold, false, .no, 0, 1⟩
/-- R420: LD -/
def VHC_DLD : Fld := ⟨0x1A, 0x108, 13, 4, .rw, .lit 0, .cold, false, .no, 0, 1⟩
/-- R420: Binds DSP_IDX (R399); self-clearing -/
def VHC_BIND : Fld := ⟨0x1A, 0x10C, 0, 1, .w1s, .lit 0, .cold, false, .no, 0, 1⟩
/-- R420: Unbinds DSP_IDX -/
def VHC_UNBIND : Fld := ⟨0x1A, 0x10C, 1, 1, .w1s, .lit 0, .cold, false, .no, 0, 1⟩
/-- R420: Command running -/
def VHC_MAP_BUSY : Fld := ⟨0x1A, 0x10C, 2, 1, .ro, .lit 0, .cold, false, .no, 0, 1⟩
/-- R420: 0 OK, 1 REFUSED, 2 UNREACHABLE -/
def VHC_MAP_STATUS : Fld := ⟨0x1A, 0x10C, 4, 4, .ro, .lit 0, .cold, false, .no, 0, 1⟩
/-- R420: Bit d: device number d bound -/
def VHC_BOUND_MAP : Fld := ⟨0x1A, 0x110, 0, 32, .ro, .lit 0, .cold, false, .no, 0, 1⟩
/-- R420: TLPs sent to the host -/
def VHC_TLP_UP : Fld := ⟨0x1A, 0x120, 0, 32, .rc, .lit 0, .cold, false, .no, 0, 1⟩
/-- R420: TLPs from the host -/
def VHC_TLP_DOWN : Fld := ⟨0x1A, 0x124, 0, 32, .rc, .lit 0, .cold, false, .no, 0, 1⟩
/-- R420: Peer window 0–255 -/
def VHC_PW_IDX : Fld := ⟨0x1A, 0x200, 0, 8, .rw, .lit 0, .cold, false, .no, 0, 1⟩
/-- R420: [0] RD_LIVE, [1] RD_SHADOW, [2] WR_SHADOW, [3] COMMIT, [4] DISCARD, as on WIN -/
def VHC_PW_CMD : Fld := ⟨0x1A, 0x204, 0, 5, .w1s, .lit 0, .cold, false, .no, 0, 1⟩
/-- R420: Indexed window's fence complete -/
def VHC_PW_FENCE_DONE : Fld := ⟨0x1A, 0x208, 0, 1, .ro, .lit 1, .cold, false, .no, 0, 1⟩
/-- R420: Commit running -/
def VHC_PW_BUSY : Fld := ⟨0x1A, 0x208, 1, 1, .ro, .lit 0, .cold, false, .no, 0, 1⟩
/-- R420: Entry words (R403) -/
def VHC_PW_DATA : Fld := ⟨0x1A, 0x210, 0, 32, .rw, .lit 0, .cold, false, .no, 4, 8⟩
/-- R420: Writes carried through peer windows -/
def VHC_PW_WRITES : Fld := ⟨0x1A, 0x240, 0, 32, .rc, .lit 0, .cold, false, .no, 0, 1⟩
/-- R420: Valid peer windows -/
def VHC_PW_VALID : Fld := ⟨0x1A, 0x250, 0, 9, .ro, .lit 0, .cold, false, .no, 0, 1⟩
/-- Rows 1 to 23 of the VHC page. -/
def rowsVHC0 : List Fld :=
  [VHC_VH_EN, VHC_USP, VHC_MGMT, VHC_CVH, VHC_DSP_IDX, VHC_MAP_VALID, VHC_MEMBER, VHC_DEXP, VHC_DLD, VHC_BIND, VHC_UNBIND, VHC_MAP_BUSY, VHC_MAP_STATUS, VHC_BOUND_MAP, VHC_TLP_UP, VHC_TLP_DOWN, VHC_PW_IDX, VHC_PW_CMD, VHC_PW_FENCE_DONE, VHC_PW_BUSY, VHC_PW_DATA, VHC_PW_WRITES, VHC_PW_VALID]
/-- Every row of the VHC page. -/
def rowsVHC : List Fld :=
  rowsVHC0

/-- R447: The VH has an upstream port -/
def FUN_PRESENT : Fld := ⟨0x1B, 0x100, 0, 1, .ro, .lit 0, .cold, false, .no, 0, 1⟩
/-- R447: Bus Master Enable -/
def FUN_BME : Fld := ⟨0x1B, 0x100, 1, 1, .ro, .lit 0, .cold, false, .no, 0, 1⟩
/-- R447: Memory Space Enable -/
def FUN_MSE : Fld := ⟨0x1B, 0x100, 2, 1, .ro, .lit 0, .cold, false, .no, 0, 1⟩
/-- R447: MSI-X Enable -/
def FUN_MSIX_EN : Fld := ⟨0x1B, 0x100, 3, 1, .ro, .lit 0, .cold, false, .no, 0, 1⟩
/-- R447: PASID Enable -/
def FUN_PASID_EN : Fld := ⟨0x1B, 0x100, 4, 1, .ro, .lit 0, .cold, false, .no, 0, 1⟩
/-- R447: ATS Enable -/
def FUN_ATS_EN : Fld := ⟨0x1B, 0x100, 5, 1, .ro, .lit 0, .cold, false, .no, 0, 1⟩
/-- R447: Page Request Enable -/
def FUN_PRI_EN : Fld := ⟨0x1B, 0x100, 6, 1, .ro, .lit 0, .cold, false, .no, 0, 1⟩
/-- R447: 0 D0, 3 D3hot -/
def FUN_DSTATE : Fld := ⟨0x1B, 0x100, 7, 2, .ro, .lit 0, .cold, false, .no, 0, 1⟩
/-- R447: FLR or hot reset in progress (R437) -/
def FUN_FLR_BUSY : Fld := ⟨0x1B, 0x100, 9, 1, .ro, .lit 0, .cold, false, .no, 0, 1⟩
/-- R447: 0 no aperture, or 30–40 (R429); without an image, 36 -/
def FUN_APER_LOG : Fld := ⟨0x1B, 0x104, 0, 6, .rw, .lit 0x24, .image, false, .image, 0, 1⟩
/-- R447: BAR4 prefetchable; without an image, 0 -/
def FUN_APER_PF : Fld := ⟨0x1B, 0x104, 8, 1, .rw, .lit 0, .image, false, .image, 0, 1⟩
/-- R447: Subsystem Vendor ID; without an image, 0x1F5A -/
def FUN_SSVID : Fld := ⟨0x1B, 0x108, 0, 16, .rw, .lit 0x1F5A, .image, false, .image, 0, 1⟩
/-- R447: Subsystem ID; without an image, 0 -/
def FUN_SSID : Fld := ⟨0x1B, 0x108, 16, 16, .rw, .lit 0, .image, false, .image, 0, 1⟩
/-- R447: CTO in force, in ns; saturates (R433) -/
def FUN_CTO_NS : Fld := ⟨0x1B, 0x10C, 0, 32, .ro, .lit 0x2FAF080, .cold, false, .no, 0, 1⟩
/-- R447: FLRs and hot resets -/
def FUN_FLR_CNT : Fld := ⟨0x1B, 0x110, 0, 16, .rc, .lit 0, .cold, false, .no, 0, 1⟩
/-- R447: Operations ended ABORTED_BY_HOST -/
def FUN_ABORT_CNT : Fld := ⟨0x1B, 0x114, 0, 32, .rc, .lit 0, .cold, false, .no, 0, 1⟩
/-- R447: Completions dropped in quarantine; not errors -/
def FUN_LATE_CPL : Fld := ⟨0x1B, 0x118, 0, 32, .rc, .lit 0, .cold, false, .no, 0, 1⟩
/-- R447: Entries not written while BME = 0 -/
def FUN_CQE_LOST : Fld := ⟨0x1B, 0x11C, 0, 32, .rc, .lit 0, .cold, false, .no, 0, 1⟩
/-- R447: Unexpected Completions (R433) -/
def FUN_UNEXP_CPL : Fld := ⟨0x1B, 0x120, 0, 32, .rc, .lit 0, .cold, false, .no, 0, 1⟩
/-- R447: Translation cache hits -/
def FUN_ATC_HIT : Fld := ⟨0x1B, 0x124, 0, 32, .rc, .lit 0, .cold, false, .no, 0, 1⟩
/-- R447: Translation Requests issued -/
def FUN_ATC_MISS : Fld := ⟨0x1B, 0x128, 0, 32, .rc, .lit 0, .cold, false, .no, 0, 1⟩
/-- R447: Invalidate Requests completed -/
def FUN_ATS_INV : Fld := ⟨0x1B, 0x12C, 0, 16, .rc, .lit 0, .cold, false, .no, 0, 1⟩
/-- R447: Page Requests issued -/
def FUN_PRG_SENT : Fld := ⟨0x1B, 0x130, 0, 16, .rc, .lit 0, .cold, false, .no, 0, 1⟩
/-- R447: Ring translations that failed (R434) -/
def FUN_PRG_FAIL : Fld := ⟨0x1B, 0x134, 0, 16, .rc, .lit 0, .cold, false, .no, 0, 1⟩
/-- R447: Doorbells dropped by R427 -/
def FUN_DB_FOREIGN : Fld := ⟨0x1B, 0x138, 0, 32, .rc, .lit 0, .cold, false, .no, 0, 1⟩
/-- R447: R432 -/
def FUN_ATOMIC_REFUSED : Fld := ⟨0x1B, 0x13C, 0, 32, .rc, .lit 0, .cold, false, .no, 0, 1⟩
/-- R447: Slices bound to the function -/
def FUN_SLICES : Fld := ⟨0x1B, 0x140, 0, 13, .ro, .lit 0, .cold, false, .no, 0, 1⟩
/-- R447: Host reads outstanding -/
def FUN_RD_OUT : Fld := ⟨0x1B, 0x144, 0, 14, .ro, .lit 0, .cold, false, .no, 0, 1⟩
/-- R447: Tags in quarantine -/
def FUN_TAGS_QUAR : Fld := ⟨0x1B, 0x148, 0, 14, .ro, .lit 0, .cold, false, .no, 0, 1⟩
/-- Rows 1 to 24 of the FUN page. -/
def rowsFUN0 : List Fld :=
  [FUN_PRESENT, FUN_BME, FUN_MSE, FUN_MSIX_EN, FUN_PASID_EN, FUN_ATS_EN, FUN_PRI_EN, FUN_DSTATE, FUN_FLR_BUSY, FUN_APER_LOG, FUN_APER_PF, FUN_SSVID, FUN_SSID, FUN_CTO_NS, FUN_FLR_CNT, FUN_ABORT_CNT, FUN_LATE_CPL, FUN_CQE_LOST, FUN_UNEXP_CPL, FUN_ATC_HIT, FUN_ATC_MISS, FUN_ATS_INV, FUN_PRG_SENT, FUN_PRG_FAIL]
/-- Rows 25 to 29 of the FUN page. -/
def rowsFUN1 : List Fld :=
  [FUN_DB_FOREIGN, FUN_ATOMIC_REFUSED, FUN_SLICES, FUN_RD_OUT, FUN_TAGS_QUAR]
/-- Every row of the FUN page. -/
def rowsFUN : List Fld :=
  rowsFUN0 ++ rowsFUN1

/-- R448: 0 FREE, 1 ACTIVE, 2 QUIESCING, 3 QUIESCED, 4 FENCING, 5 HOST_ABORTED -/
def SLC_STATE : Fld := ⟨0x1C, 0x100, 0, 3, .ro, .lit 0, .cold, false, .no, 0xF0, 16⟩
/-- R448: Written while FREE only -/
def SLC_VH : Fld := ⟨0x1C, 0x100, 4, 4, .rw, .lit 0, .cold, false, .no, 0xF0, 16⟩
/-- R448: Written while FREE only -/
def SLC_PASID : Fld := ⟨0x1C, 0x100, 8, 20, .rw, .lit 0, .cold, false, .no, 0xF0, 16⟩
/-- R448: [28] drained, [29] quiesce timeout, [30] reset done, [31] host abort -/
def SLC_PEND : Fld := ⟨0x1C, 0x100, 28, 4, .w1c, .lit 0, .cold, false, .no, 0xF0, 16⟩
/-- R448: [0] CREATE, [1] QUIESCE, [2] RESUME, [3] RESET, [4] FORCE_RESET, [5] REMOVE; self-clearing -/
def SLC_CMD : Fld := ⟨0x1C, 0x104, 0, 6, .w1s, .lit 0, .cold, false, .no, 0xF0, 16⟩
/-- R448: 0 OK, 1 NOT_QUIESCED, 2 BAD_STATE, 3 BAD_PARAM, 4 PASID_IN_USE, 5 NO_FUNCTION -/
def SLC_CMD_STATUS : Fld := ⟨0x1C, 0x104, 8, 4, .ro, .lit 0, .cold, false, .no, 0xF0, 16⟩
/-- R448: Command running -/
def SLC_CMD_BUSY : Fld := ⟨0x1C, 0x104, 12, 1, .ro, .lit 0, .cold, false, .no, 0xF0, 16⟩
/-- R448: 1–255 (R443) -/
def SLC_SHARE : Fld := ⟨0x1C, 0x108, 0, 8, .rw, .lit 1, .cold, false, .no, 0xF0, 16⟩
/-- R448: 0–4,194,304 -/
def SLC_MAX_REGIONS : Fld := ⟨0x1C, 0x10C, 0, 23, .rw, .lit 0x10000, .cold, false, .no, 0xF0, 16⟩
/-- R448: Host reads, 1–4,096 -/
def SLC_MAX_RD : Fld := ⟨0x1C, 0x110, 0, 13, .rw, .lit 0x100, .cold, false, .no, 0xF0, 16⟩
/-- R448: Match contexts, 0–16,384 -/
def SLC_MAX_CTX : Fld := ⟨0x1C, 0x114, 0, 15, .rw, .lit 0x40, .cold, false, .no, 0xF0, 16⟩
/-- R448: Member slots, 0–16,384 -/
def SLC_MAX_MEMBERS : Fld := ⟨0x1C, 0x114, 16, 15, .rw, .lit 0x40, .cold, false, .no, 0xF0, 16⟩
/-- R448: Window groups, 0–64 -/
def SLC_MAX_GROUPS : Fld := ⟨0x1C, 0x118, 0, 7, .rw, .lit 0, .cold, false, .no, 0xF0, 16⟩
/-- R448: µs, 10–100,000 -/
def SLC_QUIESCE_TMO : Fld := ⟨0x1C, 0x11C, 0, 17, .rw, .lit 0x3E8, .cold, false, .no, 0xF0, 16⟩
/-- R448: H: event ring base [31:0]; [11:0] zero -/
def SLC_EVR_BASE_LO : Fld := ⟨0x1C, 0x120, 0, 32, .rw, .lit 0, .cold, false, .no, 0xF0, 16⟩
/-- R448: H: base [63:32] -/
def SLC_EVR_BASE_HI : Fld := ⟨0x1C, 0x124, 0, 32, .rw, .lit 0, .cold, false, .no, 0xF0, 16⟩
/-- R448: H: 2^EVR_LOG entries, 6–16 -/
def SLC_EVR_LOG : Fld := ⟨0x1C, 0x128, 0, 5, .rw, .lit 0, .cold, false, .no, 0xF0, 16⟩
/-- R448: H: MSI-X vector 0–2,047 -/
def SLC_EVR_VEC : Fld := ⟨0x1C, 0x128, 16, 11, .rw, .lit 0, .cold, false, .no, 0xF0, 16⟩
/-- R448: H: R445 -/
def SLC_EVR_ARMED : Fld := ⟨0x1C, 0x128, 30, 1, .ro, .lit 0, .cold, false, .no, 0xF0, 16⟩
/-- R448: H: ring in use -/
def SLC_EVR_EN : Fld := ⟨0x1C, 0x128, 31, 1, .rw, .lit 0, .cold, false, .no, 0xF0, 16⟩
/-- R448: H: next entry to write -/
def SLC_EVR_PI : Fld := ⟨0x1C, 0x12C, 0, 16, .ro, .lit 0, .cold, false, .no, 0xF0, 16⟩
/-- R448: H: from the doorbell -/
def SLC_EVR_CI : Fld := ⟨0x1C, 0x12C, 16, 16, .ro, .lit 0, .cold, false, .no, 0xF0, 16⟩
/-- R448: H: command ring base; [11:0] zero -/
def SLC_CMR_BASE_LO : Fld := ⟨0x1C, 0x130, 0, 32, .rw, .lit 0, .cold, false, .no, 0xF0, 16⟩
/-- R448: H: command ring base; [11:0] zero -/
def SLC_CMR_BASE_HI : Fld := ⟨0x1C, 0x134, 0, 32, .rw, .lit 0, .cold, false, .no, 0xF0, 16⟩
/-- R448: H: 2^CMR_LOG entries, 4–12 -/
def SLC_CMR_LOG : Fld := ⟨0x1C, 0x138, 0, 4, .rw, .lit 0, .cold, false, .no, 0xF0, 16⟩
/-- R448: H: ring in use -/
def SLC_CMR_EN : Fld := ⟨0x1C, 0x138, 31, 1, .rw, .lit 0, .cold, false, .no, 0xF0, 16⟩
/-- R448: H: next entry to serve -/
def SLC_CMR_CI : Fld := ⟨0x1C, 0x13C, 0, 16, .ro, .lit 0, .cold, false, .no, 0xF0, 16⟩
/-- R448: H: match post ring base (R341); [11:0] zero -/
def SLC_MPR_BASE_LO : Fld := ⟨0x1C, 0x140, 0, 32, .rw, .lit 0, .cold, false, .no, 0xF0, 16⟩
/-- R448: H: match post ring base (R341); [11:0] zero -/
def SLC_MPR_BASE_HI : Fld := ⟨0x1C, 0x144, 0, 32, .rw, .lit 0, .cold, false, .no, 0xF0, 16⟩
/-- R448: H: 2^MPR_LOG entries, 4–16 -/
def SLC_MPR_LOG : Fld := ⟨0x1C, 0x148, 0, 5, .rw, .lit 0, .cold, false, .no, 0xF0, 16⟩
/-- R448: H: ring in use -/
def SLC_MPR_EN : Fld := ⟨0x1C, 0x148, 31, 1, .rw, .lit 0, .cold, false, .no, 0xF0, 16⟩
/-- R448: H: next entry to serve -/
def SLC_MPR_CI : Fld := ⟨0x1C, 0x14C, 0, 16, .ro, .lit 0, .cold, false, .no, 0xF0, 16⟩
/-- R448: WQEs started and not completed -/
def SLC_WQE_ACTIVE : Fld := ⟨0x1C, 0x150, 0, 20, .ro, .lit 0, .cold, false, .no, 0xF0, 16⟩
/-- R448: Host reads outstanding -/
def SLC_RD_ACTIVE : Fld := ⟨0x1C, 0x154, 0, 13, .ro, .lit 0, .cold, false, .no, 0xF0, 16⟩
/-- R448: Match operations and rendezvous in progress -/
def SLC_MATCH_ACTIVE : Fld := ⟨0x1C, 0x158, 0, 20, .ro, .lit 0, .cold, false, .no, 0xF0, 16⟩
/-- R448: Collective instances in progress -/
def SLC_COLL_ACTIVE : Fld := ⟨0x1C, 0x15C, 0, 15, .ro, .lit 0, .cold, false, .no, 0xF0, 16⟩
/-- R448: Bridge TLPs and unretired writes -/
def SLC_BRG_ACTIVE : Fld := ⟨0x1C, 0x15C, 16, 13, .ro, .lit 0, .cold, false, .no, 0xF0, 16⟩
/-- R448: Valid regions of the slice -/
def SLC_REGIONS : Fld := ⟨0x1C, 0x160, 0, 23, .ro, .lit 0, .cold, false, .no, 0xF0, 16⟩
/-- R448: R442 -/
def SLC_FENCED_OPS : Fld := ⟨0x1C, 0x164, 0, 32, .rc, .lit 0, .cold, false, .no, 0xF0, 16⟩
/-- R448: Duration of the last drain, µs -/
def SLC_DRAIN_US : Fld := ⟨0x1C, 0x168, 0, 17, .ro, .lit 0, .cold, false, .no, 0xF0, 16⟩
/-- R448: WQEs started -/
def SLC_WQE_STARTS : Fld := ⟨0x1C, 0x16C, 0, 32, .rc, .lit 0, .cold, false, .no, 0xF0, 16⟩
/-- R448: Command ring entries served -/
def SLC_CMD_SERVED : Fld := ⟨0x1C, 0x170, 0, 32, .rc, .lit 0, .cold, false, .no, 0xF0, 16⟩
/-- Rows 1 to 24 of the SLC page. -/
def rowsSLC0 : List Fld :=
  [SLC_STATE, SLC_VH, SLC_PASID, SLC_PEND, SLC_CMD, SLC_CMD_STATUS, SLC_CMD_BUSY, SLC_SHARE, SLC_MAX_REGIONS, SLC_MAX_RD, SLC_MAX_CTX, SLC_MAX_MEMBERS, SLC_MAX_GROUPS, SLC_QUIESCE_TMO, SLC_EVR_BASE_LO, SLC_EVR_BASE_HI, SLC_EVR_LOG, SLC_EVR_VEC, SLC_EVR_ARMED, SLC_EVR_EN, SLC_EVR_PI, SLC_EVR_CI, SLC_CMR_BASE_LO, SLC_CMR_BASE_HI]
/-- Rows 25 to 42 of the SLC page. -/
def rowsSLC1 : List Fld :=
  [SLC_CMR_LOG, SLC_CMR_EN, SLC_CMR_CI, SLC_MPR_BASE_LO, SLC_MPR_BASE_HI, SLC_MPR_LOG, SLC_MPR_EN, SLC_MPR_CI, SLC_WQE_ACTIVE, SLC_RD_ACTIVE, SLC_MATCH_ACTIVE, SLC_COLL_ACTIVE, SLC_BRG_ACTIVE, SLC_REGIONS, SLC_FENCED_OPS, SLC_DRAIN_US, SLC_WQE_STARTS, SLC_CMD_SERVED]
/-- Every row of the SLC page. -/
def rowsSLC : List Fld :=
  rowsSLC0 ++ rowsSLC1

/-- R189: Session enabled -/
def MIR_EN : Fld := ⟨0x1D, 0x100, 0, 1, .rwc, .lit 0, .cold, false, .no, 0x40, 8⟩
/-- R189: R181 -/
def MIR_SRC_KIND : Fld := ⟨0x1D, 0x100, 1, 2, .rwc, .lit 0, .cold, false, .no, 0x40, 8⟩
/-- R189: R182; 3 refused with CFG_MIR_PORT -/
def MIR_DEST_KIND : Fld := ⟨0x1D, 0x100, 3, 2, .rwc, .lit 0, .cold, false, .no, 0x40, 8⟩
/-- R189: 0 stop, 1 overwrite -/
def MIR_RING_WRAP : Fld := ⟨0x1D, 0x100, 5, 1, .rwc, .lit 0, .cold, false, .no, 0x40, 8⟩
/-- R189: Queue at DST_PORT -/
def MIR_Q : Fld := ⟨0x1D, 0x100, 8, 5, .rwc, .lit 0x12, .cold, false, .no, 0x40, 8⟩
/-- R189: Port 0–143 -/
def MIR_SRC_PORT : Fld := ⟨0x1D, 0x104, 0, 8, .rwc, .lit 0, .cold, false, .no, 0x40, 8⟩
/-- R189: Port 0–143 -/
def MIR_DST_PORT : Fld := ⟨0x1D, 0x104, 8, 8, .rwc, .lit 0, .cold, false, .no, 0x40, 8⟩
/-- R189: Location ID for DEST_KIND = 1 -/
def MIR_DST_LOC : Fld := ⟨0x1D, 0x108, 0, 20, .rwc, .lit 0, .cold, false, .no, 0x40, 8⟩
/-- R189: Bytes copied, a multiple of 64 up to 10,240; 0 whole packet -/
def MIR_TRUNC : Fld := ⟨0x1D, 0x10C, 0, 14, .rwc, .lit 0, .cold, false, .no, 0x40, 8⟩
/-- R189: One in n, 1–65,535; 0 read as 1 -/
def MIR_SAMPLE : Fld := ⟨0x1D, 0x110, 0, 16, .rwc, .lit 1, .cold, false, .no, 0x40, 8⟩
/-- R189: Byte offset 0–240 -/
def MIR_MATCH_OFS : Fld := ⟨0x1D, 0x114, 0, 8, .rwc, .lit 0, .cold, false, .no, 0x40, 8⟩
/-- R189: 16 bytes, byte 0 at +0x18 [7:0] -/
def MIR_MATCH_VAL_0 : Fld := ⟨0x1D, 0x118, 0, 32, .rwc, .lit 0, .cold, false, .no, 0x40, 8⟩
/-- R189: 16 bytes, byte 0 at +0x18 [7:0] -/
def MIR_MATCH_VAL_1 : Fld := ⟨0x1D, 0x11C, 0, 32, .rwc, .lit 0, .cold, false, .no, 0x40, 8⟩
/-- R189: 16 bytes, byte 0 at +0x18 [7:0] -/
def MIR_MATCH_VAL_2 : Fld := ⟨0x1D, 0x120, 0, 32, .rwc, .lit 0, .cold, false, .no, 0x40, 8⟩
/-- R189: 16 bytes, byte 0 at +0x18 [7:0] -/
def MIR_MATCH_VAL_3 : Fld := ⟨0x1D, 0x124, 0, 32, .rwc, .lit 0, .cold, false, .no, 0x40, 8⟩
/-- R189: 16 bytes, layout as MATCH_VAL -/
def MIR_MATCH_MASK_0 : Fld := ⟨0x1D, 0x128, 0, 32, .rwc, .lit 0, .cold, false, .no, 0x40, 8⟩
/-- R189: 16 bytes, layout as MATCH_VAL -/
def MIR_MATCH_MASK_1 : Fld := ⟨0x1D, 0x12C, 0, 32, .rwc, .lit 0, .cold, false, .no, 0x40, 8⟩
/-- R189: 16 bytes, layout as MATCH_VAL -/
def MIR_MATCH_MASK_2 : Fld := ⟨0x1D, 0x130, 0, 32, .rwc, .lit 0, .cold, false, .no, 0x40, 8⟩
/-- R189: 16 bytes, layout as MATCH_VAL -/
def MIR_MATCH_MASK_3 : Fld := ⟨0x1D, 0x134, 0, 32, .rwc, .lit 0, .cold, false, .no, 0x40, 8⟩
/-- R189: Copies made -/
def MIR_COPIES : Fld := ⟨0x1D, 0x138, 0, 32, .rc, .lit 0, .cold, false, .no, 0x40, 8⟩
/-- R189: Copies dropped (R182) -/
def MIR_DROPS : Fld := ⟨0x1D, 0x13C, 0, 32, .rc, .lit 0, .cold, false, .no, 0x40, 8⟩
/-- R189: Package memory offset [31:0]; [11:0] must be zero -/
def MIR_RING_BASE_LO : Fld := ⟨0x1D, 0x300, 0, 32, .rwc, .lit 0, .cold, false, .no, 0x20, 8⟩
/-- R189: Offset [37:32] -/
def MIR_RING_BASE_HI : Fld := ⟨0x1D, 0x304, 0, 6, .rwc, .lit 0, .cold, false, .no, 0x20, 8⟩
/-- R189: log2 of bytes, 16–32 -/
def MIR_RING_SIZE : Fld := ⟨0x1D, 0x308, 0, 6, .rwc, .lit 0x10, .cold, false, .no, 0x20, 8⟩
/-- R189: Byte offset of the next record -/
def MIR_PROD : Fld := ⟨0x1D, 0x30C, 0, 32, .ro, .lit 0, .cold, false, .no, 0x20, 8⟩
/-- R189: Byte offset of the oldest unread record; software writes it after reading -/
def MIR_CONS : Fld := ⟨0x1D, 0x310, 0, 32, .rw, .lit 0, .cold, false, .no, 0x20, 8⟩
/-- R189: The ring is full -/
def MIR_RING_FULL : Fld := ⟨0x1D, 0x314, 0, 1, .ro, .lit 0, .cold, false, .no, 0x20, 8⟩
/-- R189: Cells held only by copies, in all -/
def MIR_HOLD : Fld := ⟨0x1D, 0x800, 0, 16, .rw, .lit 0x1000, .cold, false, .no, 0, 1⟩
/-- Rows 1 to 24 of the MIR page. -/
def rowsMIR0 : List Fld :=
  [MIR_EN, MIR_SRC_KIND, MIR_DEST_KIND, MIR_RING_WRAP, MIR_Q, MIR_SRC_PORT, MIR_DST_PORT, MIR_DST_LOC, MIR_TRUNC, MIR_SAMPLE, MIR_MATCH_OFS, MIR_MATCH_VAL_0, MIR_MATCH_VAL_1, MIR_MATCH_VAL_2, MIR_MATCH_VAL_3, MIR_MATCH_MASK_0, MIR_MATCH_MASK_1, MIR_MATCH_MASK_2, MIR_MATCH_MASK_3, MIR_COPIES, MIR_DROPS, MIR_RING_BASE_LO, MIR_RING_BASE_HI, MIR_RING_SIZE]
/-- Rows 25 to 28 of the MIR page. -/
def rowsMIR1 : List Fld :=
  [MIR_PROD, MIR_CONS, MIR_RING_FULL, MIR_HOLD]
/-- Every row of the MIR page. -/
def rowsMIR : List Fld :=
  rowsMIR0 ++ rowsMIR1

/-- R22: Base in MiB; without an image, as R21 -/
def PKM_AREA_BASE : Fld := ⟨0x1E, 0x100, 0, 16, .rwc, .elems [0x40, 0x3440, 0x3C40, 0x4440, 0x4840, 0x4850], .image, false, .image, 8, 6⟩
/-- R22: Size in MiB; without an image, as R21 -/
def PKM_AREA_SIZE : Fld := ⟨0x1E, 0x104, 0, 16, .rwc, .elems [0x3400, 0x800, 0x800, 0x400, 0x10, 0x77B0], .image, false, .image, 8, 6⟩
/-- R541: Words corrected by on-die ECC -/
def PKM_CORR_CNT : Fld := ⟨0x1E, 0x300, 0, 32, .rc, .lit 0, .cold, false, .no, 0, 1⟩
/-- R541: Uncorrectable words (R524) -/
def PKM_UNCORR_CNT : Fld := ⟨0x1E, 0x304, 0, 32, .rc, .lit 0, .cold, false, .no, 0, 1⟩
/-- R541: Link ECC retries -/
def PKM_LINK_RETRY : Fld := ⟨0x1E, 0x308, 0, 32, .rc, .lit 0, .cold, false, .no, 0, 1⟩
/-- R541: Stack offset [31:0] of the last uncorrectable word -/
def PKM_UNCORR_ADDR_LO : Fld := ⟨0x1E, 0x30C, 0, 32, .ro, .lit 0, .cold, false, .no, 0, 1⟩
/-- R541: Offset [34:32] -/
def PKM_UNCORR_ADDR_HI : Fld := ⟨0x1E, 0x310, 0, 3, .ro, .lit 0, .cold, false, .no, 0, 1⟩
/-- R541: Patrol passes completed (R523) -/
def PKM_SCRUB_PASS : Fld := ⟨0x1E, 0x314, 0, 16, .rc, .lit 0, .cold, false, .no, 0, 1⟩
/-- Rows 1 to 8 of the PKM page. -/
def rowsPKM0 : List Fld :=
  [PKM_AREA_BASE, PKM_AREA_SIZE, PKM_CORR_CNT, PKM_UNCORR_CNT, PKM_LINK_RETRY, PKM_UNCORR_ADDR_LO, PKM_UNCORR_ADDR_HI, PKM_SCRUB_PASS]
/-- Every row of the PKM page. -/
def rowsPKM : List Fld :=
  rowsPKM0

/-- R421: Composite mode enabled (R87) -/
def CMP_EN : Fld := ⟨0x1F, 0x100, 0, 1, .ro, .lit 0, .kept, false, .table, 0, 1⟩
/-- R421: 0 member, 1 anchor, 2 standby anchor, 3 standalone (R88) -/
def CMP_ROLE : Fld := ⟨0x1F, 0x100, 1, 2, .ro, .lit 0, .cold, false, .no, 0, 1⟩
/-- R421: Anchor's composite ID -/
def CMP_ANCHOR_ID : Fld := ⟨0x1F, 0x100, 3, 6, .ro, .lit 0, .cold, false, .no, 0, 1⟩
/-- R421: Standby anchor's composite ID -/
def CMP_STANDBY_ID : Fld := ⟨0x1F, 0x100, 9, 6, .ro, .lit 0, .cold, false, .no, 0, 1⟩
/-- R421: R416, R417 -/
def CMP_ANCHOR_EPOCH : Fld := ⟨0x1F, 0x104, 0, 16, .ro, .lit 0, .kept, false, .no, 0, 1⟩
/-- R421: Bit c: member c present -/
def CMP_MEMBERS_LO : Fld := ⟨0x1F, 0x108, 0, 32, .ro, .lit 0, .cold, false, .no, 0, 1⟩
/-- R421: Bit c: member c present -/
def CMP_MEMBERS_HI : Fld := ⟨0x1F, 0x10C, 0, 32, .ro, .lit 0, .cold, false, .no, 0, 1⟩
/-- R421: Without an image, as the board table -/
def CMP_ANCHOR_PRIO : Fld := ⟨0x1F, 0x110, 0, 8, .rw, .lit 0, .image, false, .image, 0, 1⟩
/-- R421: ms, 2–15; without an image, 3 -/
def CMP_HB_LOSS : Fld := ⟨0x1F, 0x114, 0, 4, .rw, .lit 3, .image, false, .image, 0, 1⟩
/-- R421: µs, 5–10,000; without an image, 20 -/
def CMP_RTO : Fld := ⟨0x1F, 0x118, 0, 14, .rw, .lit 0x14, .image, false, .image, 0, 1⟩
/-- R421: 1–255; without an image, 8 -/
def CMP_RETRY : Fld := ⟨0x1F, 0x118, 16, 8, .rw, .lit 8, .image, false, .image, 0, 1⟩
/-- R421: ms, 1–1,000; without an image, 50 -/
def CMP_CPL_TMO : Fld := ⟨0x1F, 0x11C, 0, 10, .rw, .lit 0x32, .image, false, .image, 0, 1⟩
/-- R421: Anchor only: standby takes over (R416) -/
def CMP_HANDOVER : Fld := ⟨0x1F, 0x120, 0, 1, .w1s, .lit 0, .cold, false, .no, 0, 1⟩
/-- R421: Member 0–63 -/
def CMP_MBR_IDX : Fld := ⟨0x1F, 0x130, 0, 6, .rw, .lit 0, .cold, false, .no, 0, 1⟩
/-- R421: Serial of the member -/
def CMP_MBR_SERIAL : Fld := ⟨0x1F, 0x140, 0, 32, .ro, .lit 0, .cold, false, .no, 4, 2⟩
/-- R421: MY_LID of the member -/
def CMP_MBR_LID : Fld := ⟨0x1F, 0x148, 0, 20, .ro, .lit 0, .cold, false, .no, 0, 1⟩
/-- R421: Reachable (R414) -/
def CMP_MBR_REACH : Fld := ⟨0x1F, 0x148, 31, 1, .ro, .lit 0, .cold, false, .no, 0, 1⟩
/-- R421: CVH 0–255 -/
def CMP_CVH_IDX : Fld := ⟨0x1F, 0x150, 0, 8, .rw, .lit 0, .cold, false, .no, 0, 1⟩
/-- R421: Home member -/
def CMP_CVH_HOME : Fld := ⟨0x1F, 0x154, 0, 6, .ro, .lit 0, .cold, false, .no, 0, 1⟩
/-- R421: Home LVH -/
def CMP_CVH_LVH : Fld := ⟨0x1F, 0x154, 6, 4, .ro, .lit 0, .cold, false, .no, 0, 1⟩
/-- R421: In use -/
def CMP_CVH_VALID : Fld := ⟨0x1F, 0x154, 31, 1, .ro, .lit 0, .cold, false, .no, 0, 1⟩
/-- R421: Packets sent, resends excluded -/
def CMP_TX : Fld := ⟨0x1F, 0x160, 0, 32, .rc, .lit 0, .cold, false, .no, 0, 1⟩
/-- R421: Packets accepted -/
def CMP_RX : Fld := ⟨0x1F, 0x164, 0, 32, .rc, .lit 0, .cold, false, .no, 0, 1⟩
/-- R421: Packets resent -/
def CMP_RESENT : Fld := ⟨0x1F, 0x168, 0, 32, .rc, .lit 0, .cold, false, .no, 0, 1⟩
/-- R421: Duplicates discarded -/
def CMP_DUP : Fld := ⟨0x1F, 0x16C, 0, 32, .rc, .lit 0, .cold, false, .no, 0, 1⟩
/-- R421: Packets held by R415 -/
def CMP_FENCE_WAIT : Fld := ⟨0x1F, 0x170, 0, 32, .rc, .lit 0, .cold, false, .no, 0, 1⟩
/-- R421: Members declared unreachable -/
def CMP_UNREACH_CNT : Fld := ⟨0x1F, 0x174, 0, 16, .rc, .lit 0, .cold, false, .no, 0, 1⟩
/-- R421: Requests ended by CPL_TMO -/
def CMP_CPL_TMO_CNT : Fld := ⟨0x1F, 0x178, 0, 32, .rc, .lit 0, .cold, false, .no, 0, 1⟩
/-- R421: Heartbeats missed -/
def CMP_HB_MISS : Fld := ⟨0x1F, 0x17C, 0, 16, .rc, .lit 0, .cold, false, .no, 0, 1⟩
/-- Rows 1 to 24 of the CMP page. -/
def rowsCMP0 : List Fld :=
  [CMP_EN, CMP_ROLE, CMP_ANCHOR_ID, CMP_STANDBY_ID, CMP_ANCHOR_EPOCH, CMP_MEMBERS_LO, CMP_MEMBERS_HI, CMP_ANCHOR_PRIO, CMP_HB_LOSS, CMP_RTO, CMP_RETRY, CMP_CPL_TMO, CMP_HANDOVER, CMP_MBR_IDX, CMP_MBR_SERIAL, CMP_MBR_LID, CMP_MBR_REACH, CMP_CVH_IDX, CMP_CVH_HOME, CMP_CVH_LVH, CMP_CVH_VALID, CMP_TX, CMP_RX, CMP_RESENT]
/-- Rows 25 to 29 of the CMP page. -/
def rowsCMP1 : List Fld :=
  [CMP_DUP, CMP_FENCE_WAIT, CMP_UNREACH_CNT, CMP_CPL_TMO_CNT, CMP_HB_MISS]
/-- Every row of the CMP page. -/
def rowsCMP : List Fld :=
  rowsCMP0 ++ rowsCMP1

end Reg

end Sys2Proof.Machine
end

