-- ==== Sys2Proof/Machine/Regs.lean ====
section
/-!
DEFINITION. The management map as the register tables give it (R32 to R37, R563): the rows of each page, the instances of each
type, the power domain of a page, and what a word reads as after a cold reset.
-/

namespace Sys2Proof.Machine

/-- The rows of each block type from 0x00 to 0x1F; type 0x07 is not implemented (R35). -/
def ownRows : List (List Fld) :=
  [Reg.rowsDEV, Reg.rowsPWR, Reg.rowsTIM, Reg.rowsHZN, Reg.rowsSEC, Reg.rowsLOG, Reg.rowsCHK, [],
   Reg.rowsLANE, Reg.rowsISL, Reg.rowsLNK, Reg.rowsETH, Reg.rowsSTR, Reg.rowsHBR, Reg.rowsSCH, Reg.rowsMTR,
   Reg.rowsRTE, Reg.rowsTPE, Reg.rowsQPC, Reg.rowsMRG, Reg.rowsWIN, Reg.rowsBRG, Reg.rowsMAP, Reg.rowsMTE,
   Reg.rowsCLE, Reg.rowsEXP, Reg.rowsVHC, Reg.rowsFUN, Reg.rowsSLC, Reg.rowsMIR, Reg.rowsPKM, Reg.rowsCMP]

/-- The staged fields of a page (R44). -/
def stagedRows (ty : Nat) : List Fld := (ownRows.getD ty []).filter (fun f => f.acc == .rwc)

/-- Every row of a page: the common header, its own rows and the shadow copies of its staged rows (R37, R44). -/
def fieldsOf (ty : Nat) : List Fld :=
  Reg.rowsPG.map (Fld.ofType ty) ++ ownRows.getD ty [] ++ (stagedRows ty).map Fld.shadow

/-- How many instances each block type has (R35). -/
def instCounts : List Nat :=
  [1, 1, 1, 1, 1, 1, 1, 0, 162, 20, 144, 144, 6, 16, 144, 16, 20, 8, 1, 1, 1, 1, 1, 4, 4, 64, 16, 16, 256, 1, 2, 1]

/-- Instances of a block type (R35); none for an unimplemented type. -/
def instCount (ty : Nat) : Nat := instCounts.getD ty 0

/-- Whether broadcast instances apply to a type (R35). -/
def bcastOk (ty : Nat) : Bool := decide (0 < instCount ty) && ty != 0x00 && ty != 0x04 && ty != 0x1C

/-- The power domain of a page, 64 for AON (R563). -/
def domainOf (ty inst : Nat) : Nat :=
  if ty = 0x06 then 59
  else if ty = 0x08 then inst / 9
  else if ty = 0x09 ∨ ty = 0x10 then (if inst < 18 then inst else 64)
  else if ty = 0x0A ∨ ty = 0x0B ∨ ty = 0x0E then inst / 8
  else if ty = 0x0C then 18 + inst
  else if ty = 0x0D then 24 + inst
  else if ty = 0x11 then 40 + inst
  else if ty = 0x13 ∨ ty = 0x14 then 60
  else if ty = 0x15 then 58
  else if ty = 0x17 then 48 + inst
  else if ty = 0x18 then 52 + inst
  else if ty = 0x19 ∨ ty = 0x1A ∨ ty = 0x1B then 63
  else if ty = 0x1D then 62
  else if ty = 0x1E then 56 + inst
  else 64

/-- Offsets that are served in every state of the page's domain: the area registers of PKM and the wires of BRG (R563). -/
def alwaysServed (ty off : Nat) : Bool :=
  (ty == 0x1E && ((0x100 ≤ off && off ≤ 0x12C) || (0x500 ≤ off && off ≤ 0x52C))) ||
  (ty == 0x15 && (0x800 ≤ off && off ≤ 0x940))

/-- The domain that decides how an access is served (R563). -/
def servedDomain (ty inst off : Nat) : Nat := if alwaysServed ty off then 64 else domainOf ty inst

/-- Offsets that exist on the first page of a type only (R22, R188, R214, R420). -/
def firstOnly (ty off : Nat) : Bool :=
  (ty == 0x1E && ((0x100 ≤ off && off ≤ 0x12C) || (0x500 ≤ off && off ≤ 0x52C))) ||
  (ty == 0x0D && ((0x200 ≤ off && off ≤ 0x2D0) || (0x600 ≤ off && off ≤ 0x6D0))) ||
  (ty == 0x0F && (0x200 ≤ off && off ≤ 0x83C)) ||
  (ty == 0x1A && (0x200 ≤ off && off ≤ 0x250))

/-- Offsets that an inner island does not have (R186). -/
def outerOnly (ty off : Nat) : Bool :=
  ty == 0x09 && ((0x100 ≤ off && off ≤ 0x114) || (0x500 ≤ off && off ≤ 0x508))

/-- Whether a page has rwc fields (R37): of its type's staged rows, those that the instance has. -/
def hasStagedRows (ty inst : Nat) : Bool :=
  (stagedRows ty).any (fun f => !(firstOnly ty f.off && inst != 0) && !(outerOnly ty f.off && decide (18 ≤ inst)))

/-- What element `idx` of a field holds after a cold reset without an image and on board-table defaults (R11). -/
def initValue (f : Fld) (ty inst idx : Nat) : Nat :=
  match f.init with
  | .lit n => n
  | .elems l => l.getD idx 0
  | .instMod k => inst % k
  | .instDiv k => inst / k
  | .instIs k r => bnat (inst % k == r)
  | .instEq k => bnat (inst == k)
  | .typ => ty
  | .inst => inst
  | .bcastOk => bnat (bcastOk ty)
  | .staged => bnat (hasStagedRows ty inst)
  | .domain => domainOf ty inst

/-- One row laid into a word, with the value that `v` gives its element. -/
def layRow (v : Fld → Nat → Nat) (off : Nat) (w : Word) (f : Fld) : Word :=
  match fldIdx f off with
  | some i => setBits w f.lo f.wd (v f i)
  | none => w

/-- The word at an address after a cold reset (R11). -/
def coldWord (a : Nat) : Word :=
  (fieldsOf (addrType a)).foldl
    (layRow (fun f i => initValue f (addrType a) (addrInst a) i) (addrOff a)) 0

/-- Whether a page of the type defines the offset (R34, R37). -/
def offsetOk (ty inst off : Nat) : Bool :=
  off % 4 == 0 && (fieldsOf ty).any (fun f => (fldIdx f off).isSome) && !(firstOnly ty off && inst != 0)
    && !(outerOnly ty off && decide (18 ≤ inst))

end Sys2Proof.Machine
end

