-- ==== Sys2Proof/Machine/State.lean ====
section
/-!
DEFINITION. The state of the block as plain data, and the state at power-on (INVENTORY.md, State).
-/

namespace Sys2Proof.Machine

/-- Everything the spec gives the block, and the model's own counter of free values and output trace. -/
structure Dev where
  /-- Register words that differ from their cold value, by management address (R32). -/
  regs : SMap Word
  /-- Package memory (R20): bytes that are not zero, by offset. -/
  mem : List Host.Cell
  /-- The output trace, newest first (log entry 2). -/
  out : List Emission
  /-- How many free values have been taken (log entry 10). -/
  freeCtr : Nat
  mg : Mgmt
  boot : Boot
  otp : Otp
  sec : Sec
  log : Log
  chk : SMap ChkJob
  fd : Feeds
  pw : Power
  th : TimeHzn
  cmp : Composite
  sens : Sensors
  net : Net
  eng : Eng
  coll : Coll
  sw : Sw
deriving DecidableEq, Repr

/-- The state of the model: the block, and the commands that wait, first in first out. -/
structure State where
  dev : Dev
  pending : List Instr
deriving DecidableEq, Repr

/-- Why the machine stops with a fault. -/
inductive Fault where
  /-- Raised by no command: the spec stops the block at no command. Safe. -/
  | stopped
deriving DecidableEq, Repr

/-- Why a command has no meaning. -/
inductive Refusal where
  /-- Answered by the dispatch for a command that has no meaning in the model yet. Safe. -/
  | notModelled (mnemonic : String)
deriving DecidableEq, Repr

/-! ## The state at power-on

Register words are at their Cold values where no word is listed (R11); OTP and MRAM hold nothing (log entries 7 and 8); no feed is present
(log entry 4). -/

/-- Management paths at power-on. -/
def Mgmt.init : Mgmt :=
  { held := [], hiLatch := [], dynAddr := none, ibiHeld := false, events := [], running := [], ready := [], commits := [], touched := []
    resets := [], remotes := [], nextReq := 0, mpRestarts := [], mpHalted := false, mbxGo := false, refused := 0 }

/-- MRAM and start-up at power-on. -/
def Boot.init : Boot :=
  { bankA := [], bankB := [], badA := [], badB := [], badCopies := [], pref := 0, tblPri := [], tblSec := [], tblUse := none, slot0 := []
    slot1 := [], valid0 := false, valid1 := false, active := none, chunks := [], snapshot := none, loaded := [], applied := none, running := 0
    deferred := false, bankUp := false, t0 := 0, wipeStart := 0, fault := 0 }

/-- OTP before manufacture writes it. -/
def Otp.init : Otp :=
  { serial := 0, lcRec := [], fwRb := 0, keyRb := 0, fwKeys := List.replicate 4 (List.replicate 32 0), rootHash := List.replicate 64 0
    identSeed := List.replicate 32 0, certs := List.replicate 4096 0, owners := [] }

/-- The security engine at power-on. -/
def Sec.init : Sec := { nonce := none, owner := none, stageChunks := [], spdm := [], eids := [] }

/-- The trouble log at power-on. -/
def Log.init : Log := { entries := [], holdOffs := [], stopRaised := false, aging := [], ageRaised := false, marginRaised := 0 }

/-- Feeds at power-on: none is present. -/
def Feeds.init : Feeds :=
  { presentA := false, presentB := false, rails := false, aon := false, holdSince := none, attemptA := none, attemptB := none, tripA := 0
    tripB := 0, failsA := 0, failsB := 0, low := false, dip := none, dipStarts := [], lastEscalate := none, throttleDip := false
    throttleHot := false, throttleSince := 0, lost := false }

/-- Power domains at power-on. -/
def Power.init : Power := { trs := [], plinkAborts := 0, since := [] }

/-- Times and the horizon table at power-on. -/
def TimeHzn.init : TimeHzn :=
  { localNs := 0, fabric := 0, gmRecs := [], ports := [], okRun := 0, badRun := 0, ppsSeen := false, setArmed := false, hzn := [] }

/-- Composite enumeration at power-on. -/
def Composite.init : Composite :=
  { heard := [], ids := [], prefId := none, rejoin := none, role := 0, anchorId := none, standbyId := none, standalone := false, waiting := []
    hbAt := none }

/-- Sensors at power-on, VIO and the wires low (log entry 9). -/
def Sensors.init : Sensors :=
  { temps := List.replicate 10 0, sampled := false, vio := 0, slotLvl := List.replicate 5 0, hostLvl := List.replicate 5 0 }

/-- The block at power-on. -/
def Dev.init : Dev :=
  { regs := [], mem := [], out := [], freeCtr := 0, mg := Mgmt.init, boot := Boot.init, otp := Otp.init, sec := Sec.init, log := Log.init
    chk := [], fd := Feeds.init, pw := Power.init, th := TimeHzn.init, cmp := Composite.init, sens := Sensors.init, net := Net.init
    eng := Eng.init, coll := Coll.init, sw := Sw.init }

/-- The model at power-on: no command waits. -/
def State.reset : State := { dev := Dev.init, pending := [] }

end Sys2Proof.Machine
end

