-- ==== Sys2Proof/Machine/Ops.lean ====
section
/-!
DEFINITION. The named operations every meaning is written over: reading and writing register fields, counters, free values,
the output trace, time stamps, the trouble log, events and configuration errors, and how a register access is served in
each power state (R30, R34, R37 to R43, R46, R529, R565).
-/

namespace Sys2Proof.Machine

/-- The outcome of a command. -/
abbrev Out := Host.Outcome State Fault Refusal

/-- A command whose effect lies in the block alone: the queue is not touched. -/
def onDev (f : Dev → Dev) (s : State) : Out := .next { s with dev := f s.dev }

/-! ## Registers -/

/-- The stored word at a management address. -/
def wordAt (a : Nat) (d : Dev) : Word := smGet coldWord d.regs a

/-- Stores a word at a management address. -/
def setWord (a : Nat) (w : Word) (d : Dev) : Dev := { d with regs := smSet coldWord d.regs a w }

/-- The address of element `idx` of a field. -/
def fldAddr (f : Fld) (inst idx : Nat) : Nat := regAddr f.ty inst (f.off + f.stride * idx)

/-- The value of element `idx` of a field. -/
def rdI (f : Fld) (inst idx : Nat) (d : Dev) : Nat := getBits (wordAt (fldAddr f inst idx) d) f.lo f.wd

/-- Gives element `idx` of a field a value, whatever its access code. -/
def wrI (f : Fld) (inst idx v : Nat) (d : Dev) : Dev :=
  setWord (fldAddr f inst idx) (setBits (wordAt (fldAddr f inst idx) d) f.lo f.wd v) d

/-- The value of a field. -/
abbrev rd (f : Fld) (inst : Nat) (d : Dev) : Nat := rdI f inst 0 d

/-- Gives a field a value. -/
abbrev wr (f : Fld) (inst v : Nat) (d : Dev) : Dev := wrI f inst 0 v d

/-- A field of the common header of a page (R37). -/
abbrev hrd (f : Fld) (ty inst : Nat) (d : Dev) : Nat := rd (f.ofType ty) inst d

/-- Gives a field of the common header of a page a value (R37). -/
abbrev hwr (f : Fld) (ty inst v : Nat) (d : Dev) : Dev := wr (f.ofType ty) inst v d

/-- A field of two words, low word first (R33). -/
def rd2 (lo hi : Fld) (inst idx : Nat) (d : Dev) : Nat := rdI lo inst idx d + 2 ^ 32 * rdI hi inst idx d

/-- Gives a field of two words a value. -/
def wr2 (lo hi : Fld) (inst idx v : Nat) (d : Dev) : Dev :=
  d |> wrI lo inst idx (v % 2 ^ 32) |> wrI hi inst idx (v / 2 ^ 32)

/-! ## Free values -/

/-- The next free value, `w` bits (log entry 10). -/
def free (w : Nat) (d : Dev) : Nat := (Config.freeValue d.freeCtr).toNat % 2 ^ w

/-- Goes on to the next free value. -/
def takeFree (d : Dev) : Dev := { d with freeCtr := d.freeCtr + 1 }

/-- Gives element `idx` of a field a value; one that does not fit the field leaves a free value there (log entry 12). -/
def wrFitI (f : Fld) (inst idx v : Nat) (d : Dev) : Dev :=
  if v < 2 ^ f.wd then wrI f inst idx v d else wrI f inst idx (free f.wd d) (takeFree d)

/-- As `wrFitI`, of a field that is no array. -/
abbrev wrFit (f : Fld) (inst v : Nat) (d : Dev) : Dev := wrFitI f inst 0 v d

/-! ## Counters -/

/-- Adds to element `idx` of a counter. Past its last value the spec states no count: a free value (log entry 12). -/
def addI (f : Fld) (inst idx n : Nat) (d : Dev) : Dev :=
  if rdI f inst idx d + n < 2 ^ f.wd then wrI f inst idx (rdI f inst idx d + n) d
  else wrI f inst idx (free f.wd d) (takeFree d)

/-- Adds 1 to a counter. -/
abbrev bump (f : Fld) (inst : Nat) (d : Dev) : Dev := addI f inst 0 1 d

/-- Adds to a counter that saturates. -/
def addSat (f : Fld) (inst idx n : Nat) (d : Dev) : Dev :=
  wrI f inst idx (min (rdI f inst idx d + n) (2 ^ f.wd - 1)) d

/-- Adds 1 to a counter modulo its width. -/
def addMod (f : Fld) (inst idx n : Nat) (d : Dev) : Dev :=
  wrI f inst idx ((rdI f inst idx d + n) % 2 ^ f.wd) d

/-! ## The output trace -/

/-- Records what the block sends or drives (log entry 2). -/
def emit (c : Chan) (fields : List Nat) (bytes : List Byte) (d : Dev) : Dev :=
  { d with out := ⟨c, fields, bytes⟩ :: d.out }

/-! ## Control flow of a meaning -/

/-- A step taken only where a condition holds. -/
def onlyIf (c : Bool) (f : Dev → Dev) (d : Dev) : Dev := if c then f d else d

/-- A step taken for each of a list, in order. -/
def forEach {α : Type} (l : List α) (f : α → Dev → Dev) (d : Dev) : Dev := l.foldl (fun d a => f a d) d

/-! ## Time stamps -/

/-- Whether fabric time is valid (R453). -/
def timeValid (d : Dev) : Bool := rd Reg.TIM_VALID 0 d == 1

/-- Fabric time in whole ns (R451). -/
def fabricNs (d : Dev) : Nat := d.th.fabric / 65536

/-- Records carry fabric time: it is valid, and the main clock is not lost (R64, R526). -/
def stampValid (d : Dev) : Bool := timeValid d && d.boot.fault != 1

/-- The time recorded by PG_ERR_TS: fabric time, or local time while it is not valid (R64). -/
def stampNs (d : Dev) : Nat := if stampValid d then fabricNs d else d.th.localNs

/-- The moment as a mirror record states it (R183). -/
def stampOf (d : Dev) : Stamp := ⟨stampNs d, !stampValid d⟩

/-! ## The trouble log (R529, R530) -/

/-- No entry of this code and page was written. -/
def noHold : Nat → HoldOff := fun _ => ⟨0, false, 0⟩

/-- Writes an entry at the next SEQ; a full log overwrites the oldest entry or drops the new one (R529). -/
def pushEntry (e : LogEntry) (d : Dev) : Dev :=
  if d.log.entries.length < 4096 then
    { d with log := { d.log with entries := d.log.entries ++ [{ e with seq := rd Reg.LOG_NEXT_SEQ 0 d }] } }
      |> addMod Reg.LOG_NEXT_SEQ 0 0 1
  else if rd Reg.LOG_STOP 0 d = 1 then bump Reg.LOG_DROPPED 0 d
  else
    { d with log := { d.log with entries := d.log.entries.tail ++ [{ e with seq := rd Reg.LOG_NEXT_SEQ 0 d }] } }
      |> addMod Reg.LOG_NEXT_SEQ 0 0 1

/-- An entry stamped now, without its SEQ (R530). -/
def newEntry (code inst sup : Nat) (det0 det1 : Word) (injected cfg : Bool) (d : Dev) : LogEntry :=
  { ftime := if stampValid d then fabricNs d % 2 ^ 64 else 0
    ltime := d.th.localNs % 2 ^ 64
    code := code
    tsLocal := !stampValid d
    injected := injected
    corrupt := false
    warm := false
    cfg := cfg
    inst := inst
    seq := 0
    suppressed := sup
    detail0 := det0
    detail1 := det1 }

/-- Writes an entry, or withholds it within LOG_HOLDOFF of the last of its code and page (R529). -/
def logWrite (code inst : Nat) (det0 det1 : Word) (injected cfg : Bool) (d : Dev) : Dev :=
  let key := code * 256 + inst
  let h := smGet noHold d.log.holdOffs key
  if h.seen && decide (d.th.localNs < h.last + rd Reg.LOG_HOLDOFF 0 d * 1000) then
    { d with log := { d.log with
        holdOffs := smSet noHold d.log.holdOffs key { h with withheld := min (h.withheld + 1) 65535 } } }
      |> bump Reg.LOG_SUPPRESSED 0
  else
    { d with log := { d.log with holdOffs := smSet noHold d.log.holdOffs key ⟨d.th.localNs, true, 0⟩ } }
      |> pushEntry (newEntry code inst h.withheld det0 det1 injected cfg d)

/-! ## Events (R37, R38, R565) -/

/-- The management address of a page. -/
def pageAddr (ty inst : Nat) : Nat := regAddr ty inst 0

/-- VIO stands at 0.7 V or above (R550). -/
def vioGood (d : Dev) : Bool := decide (700 ≤ d.sens.vio)

/-- The levels of wire `k` at the slots (R324). -/
def slotLvl (k : Nat) (d : Dev) : Nat := d.sens.slotLvl.getD k 0

/-- The levels of wire `k` at the host groups (R324). -/
def hostLvl (k : Nat) (d : Dev) : Nat := d.sens.hostLvl.getD k 0

/-- Wire `k` at the slots takes new levels. -/
def setSlotLvl (k w : Nat) (d : Dev) : Dev := { d with sens := { d.sens with slotLvl := d.sens.slotLvl.set k w } }

/-- Wire `k` at the host groups takes new levels. -/
def setHostLvl (k w : Nat) (d : Dev) : Dev := { d with sens := { d.sens with hostLvl := d.sens.hostLvl.set k w } }

/-- Raises the I3C in-band interrupt, or holds it until it can be sent (R38). -/
def raiseIbi (d : Dev) : Dev :=
  if rd Reg.DEV_I3C_IBI 0 d = 1 then
    if vioGood d ∧ d.mg.dynAddr.isSome then emit .ibi [] [] d
    else { d with mg := { d.mg with ibiHeld := true } }
  else d

/-- Delivers an event: the event vector, the EVENTS queue and the in-band interrupt (R38). -/
def deliver (code ty inst : Nat) (d : Dev) : Dev :=
  { d with mg := { d.mg with events := d.mg.events ++ [⟨code, pageAddr ty inst⟩] } }
    |> emit .event [code, pageAddr ty inst] []
    |> raiseIbi

/-- A rise of a PG_EVT_RAW bit: PEND is set and the event delivered where EN is 1 and PEND was 0 (R37, R38). -/
def riseBit (ty inst bit code : Nat) (d : Dev) : Dev :=
  let en := hrd Reg.PG_EVT_EN ty inst d
  let pend := hrd Reg.PG_EVT_PEND ty inst d
  if bitOf en bit && !bitOf pend bit then
    d |> hwr Reg.PG_EVT_PEND ty inst (setBit pend bit) |> deliver code ty inst
  else d

/-- A rise of a bit with its trouble log entry (R529). -/
def rise (ty inst bit code : Nat) (det0 det1 : Word) (injected cfg : Bool) (d : Dev) : Dev :=
  d |> riseBit ty inst bit code |> logWrite code inst det0 det1 injected cfg

/-- What the log itself raises once an entry was written: LOG_FILLING and LOG_STOPPED (R529, R539). -/
def logAlarms (before after : Dev) : Dev :=
  let lvl := rd Reg.LOG_WARN_LEVEL 0 after
  let full := decide (before.log.entries.length = 4096) && (rd Reg.LOG_STOP 0 after == 1)
  after
    |> onlyIf (decide (0 < lvl ∧ before.log.entries.length < lvl ∧ lvl ≤ after.log.entries.length))
        (rise Ev.LOG_FILLING.ty 0 Ev.LOG_FILLING.bit Ev.LOG_FILLING.code 0 0 false false)
    |> onlyIf (full && !before.log.stopRaised)
        (fun d => { d with log := { d.log with stopRaised := true } }
          |> rise Ev.LOG_STOPPED.ty 0 Ev.LOG_STOPPED.bit Ev.LOG_STOPPED.code 0 0 false false)

/-- Raises an event with detail words in its log entry. -/
def raiseDet (e : Ev) (inst : Nat) (det0 det1 : Word) (d : Dev) : Dev :=
  logAlarms d (rise e.ty inst e.bit e.code det0 det1 false false d)

/-- Raises an event. -/
def raise (e : Ev) (inst : Nat) (d : Dev) : Dev := raiseDet e inst 0 0 d

/-- Writes a trouble log entry that no event carries. -/
def logNote (code inst : Nat) (det0 det1 : Word) (d : Dev) : Dev :=
  logAlarms d (logWrite code inst det0 det1 false false d)

/-- The code of a bit without a named code (R565). -/
def plainCode (ty bit : Nat) : Nat := ty * 256 + 0xE0 + bit

/-- COMMIT_DONE, bit 1 of the page (R37, R44). -/
def raiseCommitDone (ty inst : Nat) (d : Dev) : Dev := logAlarms d (rise ty inst 1 (plainCode ty 1) 0 0 false false d)

/-- RESET_DONE, bit 2 of the page (R37, R47). -/
def raiseResetDone (ty inst : Nat) (d : Dev) : Dev := logAlarms d (rise ty inst 2 (plainCode ty 2) 0 0 false false d)

/-! ## Configuration errors (R13, R30, R39) -/

/-- Records an error in PG_ERR_FIRST unless one is recorded (R39). -/
def recordFirst (ty inst off code : Nat) (d : Dev) : Dev :=
  if hrd Reg.PG_VALID ty inst d = 1 then d
  else d |> hwr Reg.PG_VALID ty inst 1 |> hwr Reg.PG_TS_LOCAL ty inst (bnat (!stampValid d))
    |> hwr Reg.PG_WORD ty inst (off / 4) |> hwr Reg.PG_CODE ty inst code
    |> hwr Reg.PG_ERR_TS ty inst (stampNs d % 2 ^ 32)

/-- Counts a refusal. -/
def countRefusal (d : Dev) : Dev := { d with mg := { d.mg with refused := d.mg.refused + 1 } }

/-- A configuration error of the page written: PG_ERR_FIRST, CFG_ERR_LAST, one rise of CFG_ERR with the code, and its log
entry with the address and value (R30, R39, R529, R530). -/
def cfgErr (ty inst off code : Nat) (val : Word) (d : Dev) : Dev :=
  logAlarms d (d |> countRefusal |> recordFirst ty inst off code |> wr Reg.DEV_CFG_ERR_LAST 0 code
    |> rise ty inst 0 code (BitVec.ofNat 32 (regAddr ty inst off)) val false true)

/-! ## Domains and how an access is served (R34, R41 to R43) -/

/-- The state of a domain: 0 ON, 1 RET, 2 OFF, 3 in transition; AON is always served as ON (R487, R563). -/
def domState (dom : Nat) (d : Dev) : Nat := if dom < 64 then rdI Reg.PWR_STATE 0 dom d else 0

/-- Whether a domain is ON. -/
def domOn (dom : Nat) (d : Dev) : Bool := domState dom d == 0

/-- The device has reached READY (R62, R78). -/
def ready (d : Dev) : Bool := rd Reg.DEV_STATE 0 d == 6

/-- The PORT_CFG byte in force of service position `p mod 8` of island `p / 8` (R97, R186). -/
def portByte (p : Nat) (d : Dev) : Nat :=
  if p % 8 < 4 then bitsOf (rd Reg.ISL_PORT_CFG_LO (p / 8) d) (8 * (p % 8)) 8
  else bitsOf (rd Reg.ISL_PORT_CFG_HI (p / 8) d) (8 * (p % 8 - 4)) 8

/-- The personality in force of an island: 0 NONE, 1 EXP, 2 SFL, 3 ETH (R186). -/
def pers (i : Nat) (d : Dev) : Nat := rd Reg.ISL_PERS i d

/-- A number names a port where its byte starts one and its island is not NONE (R92, R97). -/
def portStarts (p : Nat) (d : Dev) : Bool := decide (p < 144) && pers (p / 8) d != 0 && portByte p d / 16 != 0

/-- The configured width of a port in lanes (R97). -/
def portWidth (p : Nat) (d : Dev) : Nat :=
  match portByte p d / 16 with
  | 1 => 1 | 2 => 2 | 3 => 4 | 4 => 8 | 5 => 16 | _ => 0

/-- Whether a page exists: the instance lies in the type's range, and a port page names a port (R34, R35, R92). -/
def pageExists (ty inst : Nat) (d : Dev) : Bool :=
  decide (inst < instCount ty) &&
  (!(ty == 0x0A || ty == 0x0E) || portStarts inst d) &&
  (!(ty == 0x0B) || (portStarts inst d && pers (inst / 8) d == 3))

/-- Counts a write that no register takes (R34, R41, R43, R57). -/
def dropWrite (d : Dev) : Dev := bump Reg.DEV_WR_DROP 0 d

/-- Writes held for a domain (R43). -/
def heldCount (dom : Nat) (d : Dev) : Nat := (d.mg.held.filter (fun h => h.dom == dom)).length

/-- Holds a write for its domain, or drops it where the queue is full (R43). -/
def holdEntry (h : HeldWrite) (d : Dev) : Dev :=
  if heldCount h.dom d < 64 then { d with mg := { d.mg with held := d.mg.held ++ [h] } }
  else d |> dropWrite |> raise Ev.HOLD_OVF 0

/-- As `holdEntry`, of a write. -/
def holdWrite (dom addr : Nat) (val : Word) (bcast : Bool) (d : Dev) : Dev := holdEntry ⟨dom, addr, val, bcast, none⟩ d

/-- A write dropped at a member in OFF (R41). -/
def dropOff (bcast : Bool) (d : Dev) : Dev :=
  if bcast then bump Reg.DEV_BCAST_MISS 0 d else d |> dropWrite |> raise Ev.WR_OFF_DROP 0

/-- Serves a write to one page by the state of its domain: applied in ON, held in RET or in transition, dropped in OFF; a write
that no register takes is counted (R34, R41, R43). -/
def serve (ty inst off : Nat) (val : Word) (bcast : Bool) (act : Dev → Dev) (d : Dev) : Dev :=
  if !(pageExists ty inst d && offsetOk ty inst off) then (if bcast then d else dropWrite d)
  else
    let dom := servedDomain ty inst off
    match domState dom d with
    | 0 => act d
    | 2 => dropOff bcast d
    | _ => holdWrite dom (regAddr ty inst off) val bcast d

/-- A unicast register write through a management path. Before READY no path but I3C reaches the map (R62); a write that
arrives while a warm reset runs is dropped and counted (R89). -/
def mgmtWrite (ty inst off : Nat) (val : Word) (act : Dev → Dev) (d : Dev) : Dev :=
  if ready d && !d.mg.mpHalted then serve ty inst off val false act d
  else if d.boot.running = 3 ∨ d.boot.running = 4 then dropWrite d
  else d

/-- The word at an offset holds a field whose writes LOCK refuses: rw, rws or rwc (R46). -/
def lockable (ty off : Nat) : Bool :=
  (fieldsOf ty).any (fun f => (fldIdx f off).isSome && [Acc.rw, .rws, .rwc, .staged].contains f.acc)

/-- A write that LOCK keeps from being applied (R46). -/
def unlessLocked (ty inst off : Nat) (val : Word) (act : Dev → Dev) (d : Dev) : Dev :=
  if hrd Reg.PG_CTRL_LOCK ty inst d = 1 ∧ lockable ty off then cfgErr ty inst off Cfg.CFG_LOCKED val d else act d

/-- A write of a 1 to a self-clearing bit, the other bits of its word as they read. -/
def trigger (ty inst off bit : Nat) (act : Word → Dev → Dev) (d : Dev) : Dev :=
  let w := wordAt (regAddr ty inst off) d ||| BitVec.ofNat 32 (2 ^ bit)
  mgmtWrite ty inst off w (unlessLocked ty inst off w (act w)) d

/-! ## Package memory (R20, R76) -/

/-- What a byte of package memory reads as where nothing was written since the wipe (R76). -/
def memDflt : Nat → Byte := fun _ => 0

/-- Size of package memory in bytes (R20). -/
def memSize : Nat := 48 * 2 ^ 30

/-- One byte of package memory. -/
def memRead (a : Nat) (d : Dev) : Byte := smGet memDflt d.mem a

/-- Writes one byte of package memory; an offset beyond 48 GiB does not exist and takes nothing (R20). -/
def memWrite (a : Nat) (b : Byte) (d : Dev) : Dev :=
  if a < memSize then { d with mem := smSet memDflt d.mem a b } else d

/-- `n` bytes of package memory from an offset up. -/
def memReads (a : Nat) : Nat → Dev → List Byte
  | 0, _ => []
  | n + 1, d => memRead a d :: memReads (a + 1) n d

/-- Writes bytes into package memory from an offset up. -/
def memWrites (a : Nat) : List Byte → Dev → Dev
  | [], d => d
  | b :: bs, d => memWrites (a + 1) bs (memWrite a b d)

/-- The canonical form of package memory: offsets strictly rise, below 48 GiB, and no listed byte is zero. -/
abbrev Memory.wf (m : List Host.Cell) : Prop := smWf memDflt m ∧ ∀ c ∈ m, c.1 < memSize

end Sys2Proof.Machine
end

