-- ==== Sys2Proof/Machine/PowerOps.lean ====
section
/-!
DEFINITION. Power domain transitions as other blocks start them: refusal accounting, the start of a transition, and wake
(R486, R491 to R494).
-/

namespace Sys2Proof.Machine

/-- The transition a domain is in, if any (R492). -/
def trOf (dom : Nat) (d : Dev) : Option DomTr := d.pw.trs.find? (fun t => t.dom == dom)

/-- Takes the transition of a domain out of the list. -/
def dropTr (dom : Nat) (d : Dev) : Dev := { d with pw := { d.pw with trs := d.pw.trs.filter (fun t => t.dom != dom) } }

/-- Puts a transition in the stead of the domain's present one. -/
def putTr (t : DomTr) (d : Dev) : Dev :=
  { d with pw := { d.pw with trs := d.pw.trs.filter (fun u => u.dom != t.dom) ++ [t] } }

/-- Counts and records an entry refused or aborted (R494); the log entry carries domain, target and refuser (R530). -/
def refuseDom (aborted : Bool) (dom target refuser : Nat) (d : Dev) : Dev :=
  d |> addI (if aborted then Reg.PWR_ABORTED else Reg.PWR_REFUSED) 0 dom 1
    |> wrI Reg.PWR_LAST_REFUSER 0 dom refuser
    |> raiseDet Ev.PWR_REFUSED 0 (BitVec.ofNat 32 (dom + 256 * target + 65536 * refuser)) 0

/-- A domain enters a state: 0 ON, 1 RET, 2 OFF (R487). -/
def enterState (dom st : Nat) (d : Dev) : Dev :=
  { d with pw := { d.pw with since := smPut d.pw.since dom d.th.localNs } }
    |> wrI Reg.PWR_STATE 0 dom st |> wrI Reg.PWR_TARGET 0 dom 0

/-- Whole ms since a domain entered its state. -/
def msInState (dom : Nat) (d : Dev) : Nat := (d.th.localNs - smGet (fun _ => 0) d.pw.since dom) / 1000000

/-- Adds the time that a domain spent in RET or OFF to its counter (R497). -/
def countLeave (dom : Nat) (d : Dev) : Dev :=
  match domState dom d with
  | 1 => addI Reg.PWR_RET_MS 0 dom (msInState dom d) d
  | 2 => addI Reg.PWR_OFF_MS 0 dom (msInState dom d) d
  | _ => d

/-- Domains whose block drains before the rail request: the straits and the harbour (R491, R167, C9). -/
def drains (dom : Nat) : Bool := decide (18 ≤ dom ∧ dom < 40)

/-- The rail request of a transition (R486). -/
def railRequest (dom target : Nat) (d : Dev) : Dev := emit .plink [dom, target] [] d

/-- A transition starts: STATE reads 3 until it ends (R491). -/
def startTr (dom target : Nat) (d : Dev) : Dev :=
  let prior := domState dom d
  let drain := drains dom && prior == 0 && target != 0
  d |> countLeave dom |> wrI Reg.PWR_STATE 0 dom 3 |> wrI Reg.PWR_TARGET 0 dom target
    |> putTr { dom := dom, target := target, prior := prior, timeouts := 0, acked := false, draining := drain }
    |> onlyIf (!drain) (railRequest dom target)

/-- The drain of a domain's block has ended and its rail request goes out (R491). -/
def drainDone (dom : Nat) (d : Dev) : Dev :=
  match trOf dom d with
  | some t => if t.draining then d |> putTr { t with draining := false } |> railRequest dom t.target else d
  | none => d

/-- Empties the pending slot of a domain. -/
def clearPend (dom : Nat) (d : Dev) : Dev :=
  d |> wrI Reg.PWR_PENDING 0 dom 0 |> wrI Reg.PWR_PEND_STATE 0 dom 0

/-- Whether a domain has a wake source (R493): 0 W_SIGNAL, 1 W_PATTERN, 2 W_DOORBELL, 3 W_VC3. -/
def hasWake (dom k : Nat) : Bool :=
  if k < 2 then decide (dom < 18) else decide (k < 4 ∧ 52 ≤ dom ∧ dom < 56)

/-- An enabled wake acts on its domain (R493): it aborts an entry in progress or pending and takes the domain to ON. The
domain returns to ON by a transition of its own, which DOMAIN_TRANSITION_DONE ends (DEDUCED, log entry 13). -/
def wakeDom (dom k : Nat) (d : Dev) : Dev :=
  if hasWake dom k && bitOf (rdI Reg.PWR_WAKE_EN 0 dom d) k then
    let d1 := if rdI Reg.PWR_PENDING 0 dom d = 1 ∧ rdI Reg.PWR_PEND_STATE 0 dom d ≠ 0 then
        d |> refuseDom true dom (rdI Reg.PWR_PEND_STATE 0 dom d) (0x40 + k) |> clearPend dom
      else d
    match trOf dom d1 with
    | some t =>
      if t.target = 0 then d1
      else d1 |> refuseDom true dom t.target (0x40 + k)
        |> putTr { t with target := 0, timeouts := 0, acked := false, draining := false }
        |> wrI Reg.PWR_TARGET 0 dom 0 |> railRequest dom 0
    | none => if domState dom d1 = 1 ∨ domState dom d1 = 2 then startTr dom 0 d1 else d1
  else d

end Sys2Proof.Machine
end

