-- ==== Sys2Proof/Machine/Wire.lean ====
section
/-!
DEFINITION. The formats of the SFL wire (ch. 05): flits with their headers and checks (R125 to R129), RS(544,514) codewords and the inner
code of SFL2-S (R120 to R122).
-/

namespace Sys2Proof.Machine

/-! ## Checks (R126, R534) -/

/-- One bit of a reflected CRC-32C. -/
def crcBits : Nat → Nat → Nat
  | 0, c => c
  | k + 1, c => crcBits k (if c % 2 = 1 then Nat.xor (c / 2) 0x82F63B78 else c / 2)

/-- CRC-32C over bytes: initial value and final XOR all ones (R534). -/
def crc32c (bs : List Byte) : Nat :=
  Nat.xor (bs.foldl (fun c b => crcBits 8 (Nat.xor c b.toNat)) 0xFFFFFFFF) 0xFFFFFFFF

/-- Bits of the CRC-16 of R126, not reflected. -/
def crc16Bits : Nat → Nat → Nat
  | 0, c => c
  | k + 1, c => crc16Bits k (if c.testBit 15 then Nat.xor (c * 2 % 65536) 0x8BB7 else c * 2)

/-- CRC-16 over bytes: polynomial 0x8BB7, initial value 0xFFFF, no final XOR (R126). -/
def crc16 (bs : List Byte) : Nat := bs.foldl (fun c b => crc16Bits 8 (Nat.xor c (b.toNat * 256))) 0xFFFF

/-! ## Flits -/

/-- Bytes of payload or body of a flit at a LEVEL: 1 SFL1, 2 SFL2 (R126). -/
def flitRoom (level : Nat) : Nat := if level = 1 then 56 else 58

/-- The check of a flit over what stands before it (R126). -/
def flitCheck (level : Nat) (bs : List Byte) : List Byte := if level = 1 then beBytes 4 (crc32c bs) else beBytes 2 (crc16 bs)

/-- A flit of 64 bytes: header, payload or body filled up with zeros (log entry 187), check (R125, R126). -/
def flitImage (level hdr : Nat) (body : List Byte) : List Byte :=
  let bs := beBytes 4 hdr ++ (body ++ List.replicate (flitRoom level) 0).take (flitRoom level)
  bs ++ flitCheck level bs

/-- The header of a data flit (R125): `vl` is 2 × VC + ESC. -/
def dataHeader (vl : Nat) (head tail poison : Bool) (seq valid : Nat) : Nat :=
  vl * 2 ^ 27 + bnat head * 2 ^ 26 + bnat tail * 2 ^ 25 + seq * 2 ^ 11 + bnat poison * 2 ^ 10 + valid * 16

/-- A data flit (R125, R126). -/
def dataFlit (level vl : Nat) (head tail poison : Bool) (seq : Nat) (payload : List Byte) : List Byte :=
  flitImage level (dataHeader vl head tail poison seq (max payload.length 1)) payload

/-- A link flit of a TYPE with header bits [26:0] (R127, R128). -/
def linkFlit (level ty fields : Nat) (body : List Byte) : List Byte := flitImage level (2 ^ 31 + ty * 2 ^ 27 + fields) body

/-- CREDIT[0-15] packed most significant bit first into 24 bytes (R129). -/
def packCredits (cr : List Nat) : List Byte := beBytes 24 (cr.foldl (fun a c => a * 4096 + c % 4096) 0)

/-- CREDIT[0-15] of a body (R129). -/
def unpackCredits (body : List Byte) : List Nat := (List.range 16).map (fun v => bitsOf (ofBe (body.take 24)) (12 * (15 - v)) 12)

/-- A flit as received. -/
inductive Flit where
  /-- A data flit: virtual lane, HEAD, TAIL, POISON, SEQ, valid payload (R125). -/
  | data (vl : Nat) (head tail poison : Bool) (seq : Nat) (payload : List Byte)
  /-- A link flit: TYPE, header bits [26:0], body (R128). -/
  | link (ty fields : Nat) (body : List Byte)
deriving DecidableEq, Repr

/-- A flit decoded; none where it is not 64 bytes whose check holds (R125 to R128). -/
def decodeFlit (level : Nat) (bs : List Byte) : Option Flit :=
  let n := 4 + flitRoom level
  if bs.length = 64 ∧ bs.drop n = flitCheck level (bs.take n) then
    let h := ofBe (bs.take 4)
    let body := (bs.drop 4).take (flitRoom level)
    some (if bitOf h 31 then .link (bitsOf h 27 4) (bitsOf h 0 27) body
          else .data (bitsOf h 27 4) (bitOf h 26) (bitOf h 25) (bitOf h 10) (bitsOf h 11 14) (body.take (bitsOf h 4 6)))
  else none

/-! ## RS(544,514) over GF(2^10) (R120), as IEEE 802.3 defines it: primitive polynomial x^10 + x^3 + 1, the generator's roots the powers 0
to 29 of its root, the first symbol of the highest degree (PRESUMED, log entry 188) -/

/-- A field element times the root of the primitive polynomial. -/
def gfTwice (a : Nat) : Nat := if a.testBit 9 then Nat.xor (a * 2 % 1024) 9 else a * 2

/-- The product of two field elements, over the low `k` bits of the second. -/
def gfMul : Nat → Nat → Nat → Nat
  | 0, _, _ => 0
  | k + 1, a, b => Nat.xor (if b % 2 = 1 then a else 0) (gfMul k (gfTwice a) (b / 2))

/-- A polynomial times x + r, highest degree first. -/
def polyTimes (g : List Nat) (r : Nat) : List Nat := (g ++ [0]).zipWith Nat.xor (0 :: g.map (fun c => gfMul 10 c r))

/-- The generator polynomial without its leading 1: the root's powers from `r` on, `k` of them. -/
def rsGenerator : Nat → Nat → List Nat → List Nat
  | 0, _, g => g.tail
  | k + 1, r, g => rsGenerator k (gfTwice r) (polyTimes g r)

/-- One message symbol enters the division by the generator. -/
def rsStep (g reg : List Nat) (s : Nat) : List Nat :=
  let f := Nat.xor s (reg.headD 0)
  (reg.tail ++ [0]).zipWith Nat.xor (g.map (fun c => gfMul 10 f c))

/-- The 30 parity symbols of a message. -/
def rsParity (msg : List Nat) : List Nat := msg.foldl (rsStep (rsGenerator 30 1 [1])) (List.replicate 30 0)

/-- The message of a codeword: its header, CW_SYNC and CW_CNT, then 10 flits, as 514 symbols (R120, R121). -/
def codewordMessage (cnt : Nat) (flits : List (List Byte)) : List Nat :=
  let bits := (0x5C * 2 ^ 12 + cnt * 2 ^ 8) * 2 ^ 5120 + ofBe (flits.flatMap id)
  (List.range 514).map (fun i => bitsOf bits (10 * (513 - i)) 10)

/-- A codeword as a number of 5,440 bits, its first bit the most significant (R120). -/
def codeword (cnt : Nat) (flits : List (List Byte)) : Nat :=
  let m := codewordMessage cnt flits
  (m ++ rsParity m).foldl (fun a s => a * 1024 + s) 0

/-! ## The inner code of SFL2-S (R122) -/

/-- A block of 130 bits: 120 bits, then the check of the code, which the spec does not name (log entry 189). -/
def innerBlock (v : Nat) : Nat := v * 1024 + (Config.innerCheck (BitVec.ofNat 120 v)).toNat

/-- A block as received: the 120 bits of the code's block within one bit of it, or none, an erasure (R122). -/
def innerTake (w : Nat) : Option Nat :=
  (w :: (List.range 130).map (fun i => Nat.xor w (2 ^ i))).findSome? (fun c => if innerBlock (c / 1024) = c then some (c / 1024) else none)

/-- A block as 26 PAM6 symbol pairs, a before b in each (R93, R122). -/
def pamPairs (w : Nat) : List Nat := (List.range 26).flatMap (fun i => let v := bitsOf w (5 * (25 - i)) 5; [v / 6, v % 6])

/-- The whole 120-bit blocks of a stream of `len` bits. -/
def innerStream (len bits : Nat) : List Nat := (List.range (len / 120)).flatMap (fun i => pamPairs (innerBlock (bitsOf bits (len - 120 * (i + 1)) 120)))

/-- A codeword with errors in so many symbols beside the erased blocks is beyond the 30 parity symbols (R120, R122); 12 symbols to a block. -/
def rsFails (errors : Nat) (blocks : List Nat) : Bool := decide (30 < 2 * errors + 12 * (blocks.filter (fun b => (innerTake b).isNone)).length)

end Sys2Proof.Machine
end

