-- ==== Sys2Proof/Machine/LaneOps.lean ====
section
/-!
DEFINITION. Shared operations on lanes and ports: geometry (R91, R92), lane markers (R103), the start of a bring-up (R104), the
spare lane (R109, R110) and the width rule (R108).
-/

namespace Sys2Proof.Machine

/-- A lane beside its page. -/
def laneOf (n : Nat) (d : Dev) : Lane := smGet (fun _ => Lane.init) d.net.lanes n

/-- Changes a lane beside its page. -/
def updLane (n : Nat) (f : Lane → Lane) (d : Dev) : Dev :=
  { d with net := { d.net with lanes := smSet (fun _ => Lane.init) d.net.lanes n (f (laneOf n d)) } }

/-- A port beside its pages. -/
def portOf (p : Nat) (d : Dev) : Port := smGet (fun _ => Port.init) d.net.ports p

/-- Changes a port beside its pages. -/
def updPort (p : Nat) (f : Port → Port) (d : Dev) : Dev :=
  { d with net := { d.net with ports := smSet (fun _ => Port.init) d.net.ports p (f (portOf p d)) } }

/-- A byte of the board table in use; none on board table defaults (R69, R100). -/
def tblByte (k : Nat) (d : Dev) : Nat :=
  match d.boot.tblUse with
  | some t => (smGet (fun _ => (0 : Byte)) t k).toNat
  | none => 0

/-- Spare substitution is enabled on an island: bit 1 of FLAGS of its island record (R97). -/
def spareEnabled (i : Nat) (d : Dev) : Bool := pers i d == 2 && bitOf (tblByte (64 + 32 * i + 2) d) 1

/-- The service lane at position `j` of the port `p`; a ×16 goes on into the next island (R91). -/
def portLane (p j : Nat) : Nat := 9 * ((p + j) / 8) + (p + j) % 8

/-- The service lanes of a port as configured (R92). -/
def portLanes (p : Nat) (d : Dev) : List Nat := (List.range (portWidth p d)).map (portLane p)

/-- The spare lane of an island (R91). -/
def spareLane (i : Nat) : Nat := 9 * i + 8

/-- The port whose span holds service position `j` of island `i`, if any (R92, R97). -/
def portAt (i j : Nat) (d : Dev) : Option Nat :=
  (List.range 16).findSome? fun k =>
    if decide (k ≤ 8 * i + j) && portStarts (8 * i + j - k) d && decide (k < portWidth (8 * i + j - k) d) then
      some (8 * i + j - k)
    else none

/-- The port that a lane serves: a spare serves the port of the position it carries (R92, R110). -/
def portOfLane (n : Nat) (d : Dev) : Option Nat :=
  if n % 9 < 8 then portAt (n / 9) (n % 9) d
  else if rd Reg.LANE_SPARE_VALID n d = 1 then portAt (n / 9) (rd Reg.LANE_SPARE_FOR n d) d
  else none

/-- The rate code in force on a port: the one its bring-up began with, while it runs (R144, R186). -/
def rateCode (p : Nat) (d : Dev) : Nat := if (portOf p d).rate = 0 then portByte p d % 16 else (portOf p d).rate

/-- The line rate of an SFL port: 1 SFL1, 2 SFL2-L, 3 SFL2-S (R93, R97). -/
def sflRate (p : Nat) (d : Dev) : Nat :=
  if rateCode p d = 1 then 1 else if rd Reg.ISL_REACH (p / 8) d = 1 then 3 else 2

/-- The lane mode of a port's personality and rate (R93, R117). -/
def laneMode (p : Nat) (d : Dev) : Nat :=
  match pers (p / 8) d with
  | 1 => 1
  | 2 => sflRate p d + 1
  | 3 => if portByte p d % 16 = 2 then 6 else 5
  | _ => 0

/-- The position whose substitution is held on an island, if any (R110). -/
def heldPos (i : Nat) (d : Dev) : Option Nat :=
  (List.range 8).find? (fun j => rd Reg.LANE_HELD (9 * i + j) d == 1)

/-- The position whose substitution a bring-up serves: the held one, where the island has spare substitution enabled (R109, R110). -/
def servedPos (i : Nat) (d : Dev) : Option Nat := if spareEnabled i d then heldPos i d else none

/-- The lane on which a bring-up awaits a position: the spare in the stead of the original lane of a held substitution (R110). -/
def awaitedLane (n : Nat) (d : Dev) : Nat := if servedPos (n / 9) d = some (n % 9) then spareLane (n / 9) else n

/-- The lane that carries the traffic of a service lane: the spare where it is substituted (R109). -/
def carrier (n : Nat) (d : Dev) : Nat :=
  if rd Reg.LANE_SUBSTITUTED n d = 1 then spareLane (n / 9) else n

/-- The lanes whose lock a bring-up attempt awaits: those not marked failed, and the spare in the stead of the original lane of a
held substitution (R104, R110). -/
def awaited (p : Nat) (d : Dev) : List Nat :=
  ((portLanes p d).map (fun n => awaitedLane n d)).filter (fun n => !(laneOf n d).failed)

/-- CRC-8 of R103 over the bits of a number, most significant first: polynomial x^8 + x^2 + x + 1, initial value 0. -/
def crc8 : Nat → Nat → Nat → Nat
  | 0, _, acc => acc
  | k + 1, n, acc =>
    let top := Nat.xor (acc / 128) (bnat (n.testBit k))
    crc8 k n (if top = 1 then Nat.xor (acc * 2 % 256) 7 else acc * 2 % 256)

/-- A marker as 64 bits with its CRC (R103). -/
def markerBits (m : Marker) : Nat :=
  let body := ((((((((0xB4E1 * 16 + m.pos) * 32 + m.isl) * 8 + m.st) * 2 + bnat m.dx7) * 2 + bnat m.spareCap) * 8
    + m.rate) * 65536 + m.peer) * 128)
  body * 256 + crc8 56 body 0

/-- A lane marker decoded, and whether it came bit-inverted; none where the SYNC or the CRC fails (R103, R105). -/
def decodeMarker (raw : Nat) : Option (Marker × Bool) :=
  let inv := bitsOf raw 48 16 == 0x4B1E
  let w := if inv then 2 ^ 64 - 1 - raw % 2 ^ 64 else raw
  if bitsOf w 48 16 = 0xB4E1 ∧ crc8 56 (bitsOf w 8 56) 0 = bitsOf w 0 8 then
    some ({ pos := bitsOf w 44 4, isl := bitsOf w 39 5, st := bitsOf w 36 3, dx7 := w.testBit 35,
            spareCap := w.testBit 34, rate := bitsOf w 31 3, peer := bitsOf w 15 16 }, inv)
  else none

/-- The index in its port of a service position of an island (R103, R106; log entry 130). -/
def posInPort (i j : Nat) (d : Dev) : Nat := match portAt i j d with | some p => 8 * i + j - p | none => 0

/-- The marker that a lane sends in a STATE: its own position whatever it receives reversed (R105), a spare the position it carries, 0 while it
carries none (R103). -/
def ownMarker (p n st : Nat) (d : Dev) : Marker :=
  let i := n / 9
  { pos := if n % 9 < 8 then posInPort i (n % 9) d
           else if rd Reg.LANE_SPARE_VALID n d = 1 then posInPort i (rd Reg.LANE_SPARE_FOR n d) d else 0
    isl := i, st := st, dx7 := true, spareCap := spareEnabled i d && (heldPos i d).isNone, rate := sflRate p d
    peer := d.otp.serial % 65536 }

/-- The markers of a lane of a port go on with another STATE: lane, POS, STATE and the 64 bits (R103). -/
def sendMarker (p n st : Nat) (d : Dev) : Dev :=
  let m := ownMarker p n st d
  emit .marker [n, m.pos, st, markerBits m] [] d

/-- The number of codes along one side of the grid (R115). -/
def gridSide (step : Nat) : Nat := 64 / 2 ^ step

/-- The number of points of a lane's grid (R115). -/
def gridPoints (n : Nat) (d : Dev) : Nat := gridSide (rd Reg.LANE_PH_STEP n d) * gridSide (rd Reg.LANE_V_STEP n d)

/-- Where point `i` of a lane's grid is held: voltage code by voltage code, phase codes rising (R115). -/
def gridKey (n i : Nat) (d : Dev) : Nat :=
  let np := gridSide (rd Reg.LANE_PH_STEP n d)
  i / np * 2 ^ rd Reg.LANE_V_STEP n d * 64 + i % np * 2 ^ rd Reg.LANE_PH_STEP n d

/-- The errors at a point that no command tells: a free value (log entry 163). -/
def freePoint (i : Nat) (d : Dev) : Nat := ofLe ((List.range 4).map (fun j => Config.freeByte d.freeCtr (4 * i + j))) % 2 ^ 31

/-- The first `k` points of a lane's grid are completed with these errors, saturating (R115, R117). -/
def eyeStore (n k : Nat) (errs : Nat → Nat) (d : Dev) : Dev :=
  d |> updLane n (fun l => { l with eye := (List.range k).map (fun i => (gridKey n i d, some (min (errs i) (2 ^ 31 - 1)))) })
    |> wrFit Reg.LANE_EYE_POINTS n k

/-- An eye scan that runs ends with ABORTED; the points completed stay readable: how many and what they hold is free (R115, R116, log entry
163). -/
def eyeAbort (n : Nat) (d : Dev) : Dev :=
  if rd Reg.LANE_EYE_BUSY n d = 1 then
    let x := takeFree d
    x |> eyeStore n (free 13 d % (gridPoints n d + 1)) (fun i => freePoint i x) |> takeFree
      |> wr Reg.LANE_EYE_BUSY n 0 |> wr Reg.LANE_EYE_ABORTED n 1 |> wr Reg.LANE_EYE_DONE n 1 |> raise Ev.EYE_DONE n
  else d

/-- A lane as a bring-up attempt begins: DETECT, its trim offsets 0, its marker forgotten (R101, R104, R117). -/
def laneBegin (mode n : Nat) (d : Dev) : Dev :=
  d |> eyeAbort n
    |> updLane n (fun l => { l with marker := none, lost := false, trimStep := none, trimRaised := false, bad := false, flits := [], cwCnt := 0, inner := (0, 0) })
    |> wr Reg.LANE_BSTATE n (if (laneOf n d).failed then 9 else 1) |> wr Reg.LANE_LOCKED n 0 |> wr Reg.LANE_POL_INV n 0
    |> wr Reg.LANE_REVERSED n 0 |> wr Reg.LANE_QUAL_PASS n 0 |> wr Reg.LANE_SUBSTITUTED n 0
    |> wr Reg.LANE_LOGICAL n 15 |> wr Reg.LANE_TRIM_OFS n 0
    |> wr Reg.LANE_MODE n mode |> wr Reg.LANE_PCIE_GEN n 0 |> emit .laneTx [n, if mode = 1 ∨ 5 ≤ mode then 4 else 1] []

/-- Releases the substitution that SPARE_REL named (R110, R117). -/
def releaseSpare (n : Nat) (d : Dev) : Dev :=
  if (laneOf n d).rel && rd Reg.LANE_HELD n d == 1 then
    d |> wr Reg.LANE_HELD n 0 |> wr Reg.LANE_SPARE_VALID (spareLane (n / 9)) 0
      |> wr Reg.LANE_SPARE_FOR (spareLane (n / 9)) 0
  else d

/-- The EXP index of a port (R394). -/
def expIdx (p : Nat) (d : Dev) : Option Nat :=
  (List.range 64).find? (fun k => rd Reg.EXP_IDX_VALID k d == 1 && rd Reg.EXP_PORT k d == p)

/-- An upstream EXP port waits while its PERST_N, the wire of the host group of its LVH, is asserted (R63). -/
def uspWaits (p : Nat) (d : Dev) : Bool :=
  match expIdx p d with
  | some k => rd Reg.EXP_ROLE k d == 1 && !bitOf (hostLvl 0 d) (rd Reg.EXP_LVH k d)
  | none => false

/-- The port may run: its number starts a port, EN is 1 (EXP ports have no EN) and its island's domain is ON (R151). -/
def mayRun (p : Nat) (d : Dev) : Bool :=
  d.boot.fault == 0 && portStarts p d && (if pers (p / 8) d = 1 then !uspWaits p d else rd Reg.LNK_EN p d == 1) && domOn (p / 8) d

/-- The hints of a lane record: transmit presets for 8, 16 and 32 GT/s and 64 GT/s, and the receiver preset for 8 GT/s; P7, Q0 and 0 on
board table defaults (R98, R100). -/
def expHints (n : Nat) (d : Dev) : List Nat :=
  if d.boot.tblUse.isNone then [7, 7, 7, 0, 0]
  else (List.range 4).map (fun k => tblByte (640 + 64 * n + 32 + k) d % 16) ++ [tblByte (640 + 64 * n + 36) d % 8]

/-- An EXP lane trains (R102): it starts from its hints, which a downstream port sends in its EQ ordered sets, and offers equalization bypass
and no-equalization-needed where FLAGS permit them. -/
def expTrain (p n : Nat) (d : Dev) : Dev :=
  let h := expHints n d
  let flags := tblByte (64 + 32 * (p / 8) + 2) d
  let dsp := match expIdx p d with | some k => rd Reg.EXP_ROLE k d == 0 | none => false
  d |> updLane n (fun l => { l with eq := h.take 4 })
    |> emit .laneTx ([n, 4, bnat dsp, bnat (bitOf flags 2), bnat (bitOf flags 3)] ++ (if dsp then h else [])) []

/-- What the lanes of a port send at step 1: an SFL port markers with TRAIN, and its spare SUBST where it carries a position (R103, R110); an
EXP port trains. -/
def beginSends (p : Nat) (spare : Bool) (d : Dev) : Dev :=
  let ls := portLanes p d
  match pers (p / 8) d with
  | 1 => forEach ls (expTrain p) d
  | 2 => d |> forEach ls (fun n => sendMarker p n 0)
      |> onlyIf spare (fun d => let s := spareLane (p / 8); sendMarker p s (if rd Reg.LANE_SPARE_VALID s d = 1 then 4 else 0) d)
  | _ => d

/-- Every lane is tried afresh (R104, R108). -/
def lanesAfresh (p : Nat) (d : Dev) : Dev :=
  forEach (portLanes p d ++ [spareLane (p / 8)]) (fun n => updLane n (fun l => { l with failed := false, misses := 0 })) d

/-- The lanes of a port start a bring-up attempt at step 1 of R104, with the island's spare where R94 has it transmit. -/
def startBringup (p : Nat) (d : Dev) : Dev :=
  if mayRun p d then
    let ls := portLanes p d
    let i := p / 8
    let spare := spareEnabled i d &&
      (match heldPos i d with | some j => ls.contains (9 * i + j) | none => true)
    d |> updPort p (fun q => { q with rate := portByte p d % 16 })
      |> forEach ls (fun n d => d |> releaseSpare n |> updLane n (fun l => { l with rel := false }))
      |> (fun d => forEach (if spare then ls ++ [spareLane i] else ls) (laneBegin (laneMode p d)) d)
      |> wr Reg.LNK_LSTATE p 1 |> wr Reg.LNK_WIDTH p 0
      |> (fun d => updPort p (fun q => { q with
            step := if pers i d = 2 then 1 else 0, retry := 0, began := d.th.localNs, idle := false,
            initRx := false, rxOk := false, peerOk := false, sentOk := false }) d)
      |> beginSends p spare
  else d

/-- The spare of an island that carries no position is off, its transmitter too, unless a port of the island is in bring-up (R94). -/
def spareRest (i : Nat) (d : Dev) : Dev :=
  let s := spareLane i
  let used := (List.range 8).any (fun j => decide (0 < (portOf (8 * i + j) d).step ∧ (portOf (8 * i + j) d).step < 8))
  onlyIf (rd Reg.LANE_SPARE_VALID s d == 0 && !used && rd Reg.LANE_MODE s d != 0 && rd Reg.LANE_BSTATE s d != 8)
    (fun d => d |> eyeAbort s |> wr Reg.LANE_BSTATE s (if rd Reg.LANE_BSTATE s d = 9 then 9 else 0) |> wr Reg.LANE_LOCKED s 0
      |> wr Reg.LANE_MODE s 0 |> wr Reg.LANE_LOGICAL s 15 |> emit .laneTx [s, 0] []) d

/-- The background trim runs on a lane: up, on an SFL or ETH port, with TRIM_EN = 1 and no eye scan (R101, R116). -/
def trimRuns (n : Nat) (d : Dev) : Bool :=
  rd Reg.LANE_BSTATE n d == 7 && decide (2 ≤ rd Reg.LANE_MODE n d) && rd Reg.LANE_TRIM_EN n d == 1
    && rd Reg.LANE_EYE_BUSY n d == 0

/-- The lanes of a port stop: OFF, no longer locked, carrying no position (R94, R117). -/
def lanesOff (p : Nat) (d : Dev) : Dev :=
  let ls := portLanes p d
  let sp := (ls.filter (fun n => rd Reg.LANE_SUBSTITUTED n d == 1)).map (fun n => spareLane (n / 9))
  d |> forEach (ls ++ sp) (fun n d => d |> eyeAbort n
      |> updLane n (fun l => { l with lost := false, trimStep := none })
      |> wr Reg.LANE_BSTATE n 0 |> wr Reg.LANE_LOCKED n 0 |> wr Reg.LANE_MODE n 0 |> wr Reg.LANE_PCIE_GEN n 0
      |> wr Reg.LANE_LOGICAL n 15 |> emit .laneTx [n, 0] [])
    |> updPort p (fun q => { q with step := 0, retry := 0, rate := 0 }) |> spareRest (p / 8)

/-! ## Flits on their way to the lanes (R120 to R122) -/

/-- The LEVEL of a port: 1 SFL1, 2 SFL2 (R126, R129). -/
def flitLevel (p : Nat) (d : Dev) : Nat := if sflRate p d = 1 then 1 else 2

/-- The lanes in use of a port, logical lane 0 first (R108, R121). -/
def lanesInForce (p : Nat) (d : Dev) : List Nat := ((portLanes p d).map (fun n => carrier n d)).filter (fun n => rd Reg.LANE_LOGICAL n d != 15)

/-- A lane's codeword goes out: at SFL2-S through the inner code, what falls short of a block kept for the next (R120, R122). -/
def sendCodeword (p n cnt cw : Nat) (d : Dev) : Dev :=
  d |> emit .codeword [n, cnt] (beBytes 680 cw)
    |> onlyIf (sflRate p d == 3) (fun d =>
        let l := (laneOf n d).inner
        let len := l.1 + 5440
        let bits := l.2 * 2 ^ 5440 + cw
        d |> updLane n (fun l => { l with inner := (len % 120, bits % 2 ^ (len % 120)) }) |> emit .pam6 (n :: innerStream len bits) [])

/-- A flit of a port goes to logical lane k mod w and fills its codeword; ten complete it (R120, R121). -/
def laneFlit (p : Nat) (img : List Byte) (d : Dev) : Dev :=
  let ls := lanesInForce p d
  let k := (portOf p d).flitNo
  match ls[k % ls.length]? with
  | none => d
  | some n =>
    let l := laneOf n d
    let d1 := updPort p (fun q => { q with flitNo := k + 1 }) d
    if l.flits.length < 9 then updLane n (fun l => { l with flits := l.flits ++ [img] }) d1
    else d1 |> updLane n (fun l => { l with flits := [], cwCnt := (l.cwCnt + 1) % 16 }) |> sendCodeword p n l.cwCnt (codeword l.cwCnt (l.flits ++ [img]))

/-- A link flit goes out: its numbers beside TYPE, its header bits [26:0] and its body (R128, R129). -/
def sendLink (p ty fields : Nat) (body : List Byte) (nums : List Nat) (d : Dev) : Dev :=
  let img := linkFlit (flitLevel p d) ty fields body
  d |> emit .linkFlit ([p, ty] ++ nums) img |> laneFlit p img

/-- The INIT link flit of a port: LEVEL, RX_OK, serial, initial credits (R129, R141). -/
def sendInit (p : Nat) (d : Dev) : Dev :=
  let cr := (List.range 16).map (fun v => rdI Reg.LNK_CRED_GRANT p v d)
  let ok := bnat (portOf p d).rxOk
  d |> sendLink p 3 (flitLevel p d * 2 ^ 24 + ok * 2 ^ 23) (packCredits cr ++ beBytes 8 d.otp.serial) ([flitLevel p d, ok, d.otp.serial] ++ cr)
    |> updPort p (fun q => { q with sentOk := q.sentOk || q.rxOk })

/-- The first width of `widths` with an aligned group of good positions, and the start of the lowest such group (R108). -/
def decideWidth (good : Nat → Bool) (w : Nat) : List Nat → Option (Nat × Nat)
  | [] => none
  | v :: vs =>
    if v ≤ w then
      match (List.range (w / v)).find? (fun g => (List.range v).all (fun k => good (g * v + k))) with
      | some g => some (g * v, v)
      | none => decideWidth good w vs
    else decideWidth good w vs

end Sys2Proof.Machine
end

