-- ==== Sys2Proof/Machine/HarbourOps.lean ====
section
/-!
DEFINITION. Shared operations on the harbour and its packets: reservations and admission (R171 to R176, C8), cells and credits
(R134, R155, R156, R169), and the registers that a reset returns to their Warm values.
-/

namespace Sys2Proof.Machine

/-! ## Registers at a reset -/

/-- The elements of a field. -/
def elemsOf (f : Fld) : List Nat := List.range (if f.stride = 0 then 1 else f.count)

/-- What a field takes at a reset that returns it to its Warm value; none where it is kept (R11). -/
def warmValue (f : Fld) (ty inst idx : Nat) (d : Dev) : Option Nat :=
  match f.warm with
  | .kept => none
  | .cold => some (initValue f ty inst idx)
  | .image | .table =>
    match smFind d.boot.loaded (fldAddr f inst idx) with
    | some w => some (getBits w f.lo f.wd)
    | none => some (initValue f ty inst idx)

/-- Returns one field to its Warm value. -/
def warmField (ty inst : Nat) (f : Fld) (d : Dev) : Dev :=
  forEach (elemsOf f) (fun idx d => match warmValue f ty inst idx d with | some v => wrI f inst idx v d | none => d) d

/-- Returns the ro and rc fields of a page's own rows to their Warm values (R151, R186, R213, R252). -/
def resetRoRc (ty inst : Nat) (d : Dev) : Dev :=
  forEach ((ownRows.getD ty []).filter (fun f => f.acc == .ro || f.acc == .rc)) (warmField ty inst) d

/-! ## Packets -/

/-- A packet in the core. -/
def pktOf (id : Nat) (d : Dev) : Option Packet := d.net.pkts.find? (fun q => q.id == id)

/-- Changes a packet in the core. -/
def updPkt (id : Nat) (f : Packet → Packet) (d : Dev) : Dev :=
  { d with net := { d.net with pkts := d.net.pkts.map (fun q => if q.id = id then f q else q) } }

/-- The island a packet came in by (R157): I18 holds TPE, MTE and BRG, I19 CLE and CHK. -/
def inIsland (p : Nat) : Nat := if p < 144 then p / 8 else if p < 157 then 18 else if p < 164 then 19 else p - 164

/-- The island a packet leaves by (R157). -/
def egIsland (p : Nat) : Nat := if p < 144 then p / 8 else if p < 157 then 18 else 19

/-- The number of a port or consumer: transport engine `k` (R157). -/
def egTpe (k : Nat) : Nat := 144 + k % 8

/-- Collective unit `k` (R157). -/
def egCle (k : Nat) : Nat := 157 + k % 4

/-- The management processor and the expansion hierarchy controller, which take their packets without a strait. -/
def egMgmt : Nat := 162

/-- As `egMgmt`, the expansion hierarchy controller. -/
def egEhc : Nat := 163

/-! ## Reservations (R171) -/

/-- Harbour segments that are ON. -/
def segsOn (d : Dev) : Nat := ((List.range 16).filter (fun g => domOn (24 + g) d)).length

/-- An enabled egress port: EN is 1, or an EXP port with EXP_EN = 1 (R171). -/
def egressEnabled (p : Nat) (d : Dev) : Bool :=
  portStarts p d &&
    (if pers (p / 8) d = 1 then (match expIdx p d with | some k => rd Reg.EXP_EN k d == 1 | none => false)
     else rd Reg.LNK_EN p d == 1)

/-- Queue index `q` uses the dynamic threshold (R172). -/
def queueDt (q : Nat) (d : Dev) : Bool := bitOf (rd Reg.HBR_BUF_DT 0 d) q

/-- MIN_q under the carve in force (R171). -/
def queueMin (q : Nat) (d : Dev) : Nat :=
  if rd Reg.HBR_CARVE 0 d = 1 then rdI Reg.HBR_MIN_D 0 q d else rdI Reg.HBR_MIN_L 0 q d

/-- The minimums in force (R171). -/
def minRsv (d : Dev) : Nat :=
  ((List.range 144).filter (fun p => egressEnabled p d)).length *
    ((List.range 19).map (fun q => if queueDt q d then 0 else queueMin q d)).sum

/-- The cells that back an SFL port's grants (R133). -/
def sflRsv (p : Nat) (d : Dev) : Nat := (((List.range 16).map (fun v => rdI Reg.LNK_CRED_GRANT p v d)).sum + 3) / 4

/-- The cells that back an EXP port's credits (R406). -/
def expRsv (k : Nat) (d : Dev) : Nat :=
  2 * (rd Reg.EXP_PH k d + rd Reg.EXP_NPH k d + rd Reg.EXP_CH k d)
    + (rd Reg.EXP_PD k d + rd Reg.EXP_NPD k d + rd Reg.EXP_CD k d + 15) / 16

/-- How many of the low `n` bits of a number are set. -/
def popCount (n v : Nat) : Nat := ((List.range n).filter (fun i => bitOf v i)).length

/-- A port is UP (R151). -/
def portUp (p : Nat) (d : Dev) : Bool := rd Reg.LNK_LSTATE p d == 3

/-- The headroom reservation of one port; `asIf` counts an SFL port whose EN is 1 as if it were UP (R133, R171). -/
def portRsv (asIf : Bool) (p : Nat) (d : Dev) : Nat :=
  if !portStarts p d then 0 else
  match pers (p / 8) d with
  | 2 => if portUp p d || (asIf && rd Reg.LNK_EN p d == 1) then sflRsv p d else 0
  | 3 => popCount 8 (rd Reg.ETH_PFC_EN p d) * rd Reg.ISL_ETH_HDRM (p / 8) d
  | _ => 0

/-- The headroom reservations (R171). -/
def creditRsv (asIf : Bool) (d : Dev) : Nat :=
  ((List.range 144).map (fun p => portRsv asIf p d)).sum
    + ((List.range 64).map (fun k =>
        if rd Reg.EXP_IDX_VALID k d = 1 ∧ rd Reg.EXP_EN k d = 1 then expRsv k d else 0)).sum

/-- The reservation R (R171). -/
def reservation (asIf : Bool) (d : Dev) : Nat :=
  minRsv d + 18 * rd Reg.HBR_ENG_MIN 0 d + rd Reg.HBR_LAGOON_RSV 0 d + rd Reg.HBR_COLL_RSV 0 d + creditRsv asIf d

/-- The check of C8: the shared pool is not negative (R171). -/
def harbourFits (d : Dev) : Bool := decide (reservation true d ≤ 32768 * segsOn d)

/-- The cells a packet still holds under a charge. -/
def cellsUnder (c : Nat) (q : Packet) : Nat := ((q.cells.drop q.freed).filter (fun x => x.charge == c)).length

/-- The cells a packet still holds. -/
def cellsHeld (q : Packet) : Nat := q.cells.length - q.freed

/-- Cells held by the packets that a test selects. -/
def heldBy (sel : Packet → Bool) (count : Packet → Nat) (d : Dev) : Nat := ((d.net.pkts.filter sel).map count).sum

/-- Cells that stay for mirror copies only, of those a test selects (R156, R182): each keeps its charge (R173). -/
def keptUnder (sel : KeptCell → Bool) (c : Nat) (d : Dev) : Nat :=
  (d.net.kept.filter (fun k => sel k && k.cell.charge == c)).length

/-- The shared free space F (R171). -/
def sharedFree (d : Dev) : Int :=
  32768 * segsOn d - reservation false d - heldBy (fun _ => true) (cellsUnder 1) d - keptUnder (fun _ => true) 1 d

/-! ## Admission of a cell (R172 to R174, R211) -/

/-- How a cell is admitted (R173): to the minimum, to the shared pool, or not; the last says whether a dynamic threshold
refused it. -/
def queueAdmit (q : Packet) (d : Dev) : Option Nat × Bool :=
  let mine := fun r : Packet => r.eg == q.eg && r.queue == q.queue
  let was := fun k : KeptCell => k.eg == q.eg && k.queue == q.queue
  let f := sharedFree d
  if q.eg < 144 ∧ queueDt q.queue d then
    let held : Int := heldBy mine cellsHeld d
    if held * 64 < 2 ^ rdI Reg.HBR_ALPHA_EXP 0 q.queue d * f then (some 1, false) else (none, true)
  else
    let mn := if q.eg < 144 then queueMin q.queue d else rd Reg.HBR_ENG_MIN 0 d
    let cap := if q.eg < 144 then rdI Reg.HBR_CAP 0 q.queue d else 0
    if heldBy mine (cellsUnder 0) d + keptUnder was 0 d < mn then (some 0, false)
    else if 0 < f ∧ (cap = 0 ∨ heldBy mine (cellsUnder 1) d + keptUnder was 1 d < cap) then (some 1, false)
    else (none, false)

/-- The ingress of a packet is lossless: SFL, EXP, and an Ethernet priority with PFC_EN set (R174); what goes to the management processor is
discarded where its intake is full (R242). -/
def lossless (q : Packet) (d : Dev) : Bool :=
  decide (q.inPort < 144) && q.eg != egMgmt &&
    (pers (q.inPort / 8) d == 2 || pers (q.inPort / 8) d == 1 || bitOf (rd Reg.ETH_PFC_EN q.inPort d) q.inLane)

/-- Drop precedence lets the cell through: yellow and red on lossy ingress need free shared space (R211). -/
def dropPrecOk (q : Packet) (d : Dev) : Bool :=
  if q.colour = 1 then decide ((rd Reg.MTR_DP_YEL 0 d : Int) ≤ sharedFree d)
  else if q.colour = 2 then decide ((rd Reg.MTR_DP_RED 0 d : Int) ≤ sharedFree d)
  else true

/-- Drop precedence refuses a cell of lossy ingress, before any admission (R211). -/
def precRefuses (q : Packet) (d : Dev) : Bool := !lossless q d && !dropPrecOk q d

/-- Headroom cells charged by one Ethernet priority of a port (R174). -/
def ethHeadroom (p prio : Nat) (d : Dev) : Nat :=
  heldBy (fun r => r.inPort == p && r.inLane == prio) (cellsUnder 2) d

/-- The charge of a new cell of a packet: `some 0`, `1` or `2`, or a refusal, `true` where ETH headroom is exhausted
(R173 to R175). -/
def cellCharge (q : Packet) (d : Dev) : Nat ⊕ Bool :=
  if precRefuses q d then .inr false else
  match (queueAdmit q d).1 with
  | some c => .inl c
  | none =>
    if lossless q d then
      if pers (q.inPort / 8) d = 3 ∧ rd Reg.ISL_ETH_HDRM (q.inPort / 8) d ≤ ethHeadroom q.inPort q.inLane d then .inr true
      else .inl 2
    else .inr false

/-- The segment of an island's next cell: round-robin from (island + 1) mod 16 over those allocating with a free cell (R169). -/
def pickSegment (i : Nat) (d : Dev) : Option Nat :=
  let start := smGet (fun i => (i + 1) % 16) d.net.nextSeg i
  ((List.range 16).map (fun k => (start + k) % 16)).find?
    (fun g => domOn (24 + g) d && rd Reg.HBR_SEG_STATE g d == 0 && decide (0 < rd Reg.HBR_SEG_FREE g d))

/-- A strait is in service (R165, R187). -/
def straitUp (s : Nat) (d : Dev) : Bool :=
  rd Reg.STR_EN s d == 1 && rd Reg.STR_STATE s d == 0 && domOn (18 + s) d

/-- The strait of an island's next write: round-robin over those in service (R164). -/
def pickStrait (i : Nat) (d : Dev) : Option Nat :=
  let start := smGet (fun _ => 0) d.net.nextStr i
  ((List.range 6).map (fun k => (start + k) % 6)).find? (fun s => straitUp s d)

/-- Where quarter `q` of a cell lies: bank and row of its segment (R168). -/
def quarterAt (cell q : Nat) : Nat × Nat := ((4 * cell + q) % 128, (4 * cell + q) / 128)

/-- An access goes over a strait and is kept until the harbour acknowledges it (R164). -/
def stage (a : CellAccess) (d : Dev) : Dev :=
  let at_ := quarterAt a.num 0
  { d with net := { d.net with staged := d.net.staged ++ [a] } }
    |> emit .strait [a.strait, 4, a.isl, bnat a.write, a.seg, a.num, at_.1, at_.2] []

/-- The strait that an island's next cell goes over. -/
def turnStrait (i s : Nat) (d : Dev) : Dev := { d with net := { d.net with nextStr := smPut d.net.nextStr i (s % 6) } }

/-- The segment that takes an island's next cell. -/
def turnSegment (i g : Nat) (d : Dev) : Dev := { d with net := { d.net with nextSeg := smPut d.net.nextSeg i (g % 16) } }

/-- An island writes a cell over its next strait (R164). -/
def cellWrite (i seg num : Nat) (d : Dev) : Dev :=
  match pickStrait i d with
  | some s => d |> turnStrait i (s + 1) |> bump Reg.STR_WR_CELLS s |> stage ⟨s, i, seg, num, true⟩
  | none => d

/-- An island reads a cell; which connection it takes the spec leaves open, a free value (R164, log entry 15). -/
def cellRead (i seg num : Nat) (d : Dev) : Dev :=
  let ups := (List.range 6).filter (fun s => straitUp s d)
  match ups[free 8 d % (max ups.length 1)]? with
  | some s => takeFree d |> bump Reg.STR_RD_CELLS s |> stage ⟨s, i, seg, num, false⟩
  | none => d

/-- Issues an access again over another strait, a write to the same cell address (R166). -/
def reissue (a : CellAccess) (d : Dev) : Dev :=
  d |> (if a.write then cellWrite a.isl a.seg a.num else cellRead a.isl a.seg a.num) |> bump Reg.ISL_WR_REISSUE a.isl

/-- A cell is read by its egress island (R164). -/
def countRead (i : Nat) (c : Cell) (d : Dev) : Dev := d |> cellRead i c.seg c.num |> bump Reg.ISL_CELLS_OUT i

/-- The cells of a segment in use. -/
def usedCells (g : Nat) (d : Dev) : List Nat :=
  ((d.net.pkts.flatMap (fun q => q.cells.drop q.freed) ++ d.net.kept.map (fun k => k.cell)).filter (fun c => c.seg == g)).map (fun c => c.num)

/-- The first cell at or after a number that is not in use, wrapping. -/
def unusedFrom (used : List Nat) : Nat → Nat → Nat
  | 0, c => c
  | n + 1, c => if used.contains c then unusedFrom used n ((c + 1) % 32768) else c

/-- Raises HBR_SHARED_LOW when SHARED_FREE fell below SHARED_LOW (R190). -/
def sharedLowAlarm (before : Int) (d : Dev) : Dev :=
  let low : Int := rd Reg.HBR_SHARED_LOW 0 d
  onlyIf (decide (low ≤ before ∧ sharedFree d < low)) (raise Ev.HBR_SHARED_LOW 0) d

/-- Writes a cell of a packet under a charge (R169, R173); which cell of the segment's free list it is the spec leaves open, a free value (log
entry 190). -/
def writeCell (q : Packet) (charge : Nat) (d : Dev) : Dev :=
  let i := inIsland q.inPort
  match pickSegment i d with
  | none => d
  | some g =>
    let before := sharedFree d
    let used := usedCells g d
    let c := unusedFrom used used.length (free 15 d)
    d |> takeFree |> turnSegment i (g + 1) |> wr Reg.HBR_SEG_FREE g (rd Reg.HBR_SEG_FREE g d - 1)
      |> cellWrite i g c |> bump Reg.ISL_CELLS_IN i
      |> updPkt q.id (fun r => { r with cells := r.cells ++ [⟨g, c, charge⟩] })
      |> sharedLowAlarm before

/-! ## Credits and freed cells (R134, R156) -/

/-- Payload bytes of a data flit at an SFL rate (R126). -/
def flitPayload (rate : Nat) : Nat := if rate = 1 then 56 else 58

/-- Returns `n` credits on a virtual lane to the partner (R134). -/
def grantMore (p v n : Nat) (d : Dev) : Dev :=
  updPort p (fun q => { q with granted := smPut q.granted v (smGet (fun _ => 0) q.granted v + n) }) d

/-- The data flits of a packet whose storage is released: those that end within the cells freed; all of them once the whole packet
is freed (R134). -/
def flitsReleased (q : Packet) (d : Dev) : Nat :=
  if q.tail && q.freed == q.cells.length then q.flits
  else min q.flits (256 * q.freed / flitPayload (sflRate q.inPort d))

/-- Brings the credits returned for a packet up to date. -/
def returnCredits (id : Nat) (d : Dev) : Dev :=
  match pktOf id d with
  | some q =>
    if q.owes then
      let n := flitsReleased q d
      d |> grantMore q.inPort q.inLane (n - q.credRet) |> updPkt id (fun r => { r with credRet := max r.credRet n })
    else d
  | none => d

/-- PFC: the cells of a priority fell to XON, so quanta 0 goes out (R149). -/
def pfcRelease (p prio : Nat) (d : Dev) : Dev :=
  if pers (p / 8) d = 3 ∧ bitOf (portOf p d).xoff prio ∧
      heldBy (fun r => r.inPort == p && r.inLane == prio) cellsHeld d ≤ rdI Reg.ETH_XON p prio d then
    d |> updPort p (fun q => { q with xoff := clrBit q.xoff prio })
      |> emit .pfc [p, prio, 0] [] |> addI Reg.ETH_PFC_TX p prio 1
  else d

/-- A cell goes back to its segment's free list (R169); a copy's is the original's. -/
def freeCell (c : Cell) (d : Dev) : Dev := onlyIf (c.charge != 3) (wr Reg.HBR_SEG_FREE c.seg (rd Reg.HBR_SEG_FREE c.seg d + 1)) d

/-- Cells of a packet, from the first on, that a selection's copy reads: all of them where TRUNC is 0 (R182). -/
def Mark.needs (m : Mark) : Nat := if m.trunc = 0 then 40 else (m.trunc + 255) / 256

/-- Cells of a packet that copies already made have still to read (R182). -/
def copiesNeed (id : Nat) (d : Dev) : Nat :=
  max (((d.net.copies.filter (fun c => c.src == id)).map (fun c => (c.bytes.length + 255) / 256)).foldl max 0)
    (((d.net.pkts.filter (fun q => q.copyOf == some id)).map (fun q => q.cells.length)).foldl max 0)

/-- Cells of a packet that copies, made or marked, have still to read (R156, R182). -/
def cellsNeeded (id : Nat) (d : Dev) : Nat :=
  match pktOf id d with
  | some q => max (copiesNeed id d) ((q.marks.map Mark.needs).foldl max 0)
  | none => copiesNeed id d

/-- The cells kept for copies of a packet that no copy needs any more are freed (R156). -/
def releaseKept (id : Nat) (d : Dev) : Dev :=
  let need := cellsNeeded id d
  let out := fun k : KeptCell => k.pkt == id && decide (need ≤ k.idx)
  { d with net := { d.net with kept := d.net.kept.filter (fun k => !out k) } }
    |> forEach (d.net.kept.filter out) (fun k => freeCell k.cell)

/-- The cells of a packet from its `freed`-th to before the `n`-th, as they would be kept. -/
def cellsTo (q : Packet) (n : Nat) : List KeptCell :=
  ((q.cells.zip (List.range q.cells.length)).take n).drop q.freed |>.map (fun x => ⟨q.id, x.2, q.eg, q.queue, x.1⟩)

/-- Cells stay for mirror copies that have yet to read them (R156). -/
def keepCells (l : List KeptCell) (d : Dev) : Dev := { d with net := { d.net with kept := d.net.kept ++ l } }

/-- The egress of a packet has finished with its cells up to the `n`-th: those that no mirror copy has to read are freed; credits and
pause follow (R134, R149, R156). -/
def freeCells (id n : Nat) (d : Dev) : Dev :=
  match pktOf id d with
  | none => d
  | some q =>
    let need := cellsNeeded id d
    let stays := fun k : KeptCell => decide (k.idx < need) && k.cell.charge != 3
    d |> keepCells ((cellsTo q n).filter stays) |> forEach ((cellsTo q n).filter (fun k => !stays k)) (fun k => freeCell k.cell)
      |> updPkt id (fun r => { r with freed := max r.freed (min n r.cells.length) })
      |> returnCredits id
      |> onlyIf (decide (q.inPort < 144)) (pfcRelease q.inPort q.inLane)

/-- The number that stands for a packet that is gone, in descriptors whose SSEQ is still on the way. -/
def gonePkt : Nat := 2 ^ 64

/-- Descriptors of a packet leave the queues; those that carry an SSEQ go on without it (R158). -/
def detachDescs (id : Nat) (d : Dev) : Dev :=
  let strip := fun x : Desc => if x.pkt = id then { x with pkt := gonePkt } else x
  { d with net := { d.net with
      waiting := (d.net.waiting.filter (fun x => x.pkt != id || x.sseq.isSome)).map strip
      flights := d.net.flights.map (fun x => { x with desc := strip x.desc })
      behind := d.net.behind.map strip
      queues := d.net.queues.map (fun kq => (kq.1, kq.2.filter (fun x => x != id))) } }

/-- Takes a packet out of the core; a gated one is no longer in progress (R205, R212). -/
def removePkt (id : Nat) (d : Dev) : Dev :=
  { detachDescs id d with net := { (detachDescs id d).net with
      pkts := d.net.pkts.filter (fun q => q.id != id)
      atEngine := d.net.atEngine.filter (fun x => x.1 != id)
      sched := d.net.sched.map (fun s => if s.2.gated = some id then (s.1, { s.2 with gated := none }) else s) } }

/-- Drops a packet that has not begun: its cells are freed and all credits of its flits return (R134, R175, R210). -/
def dropPkt (id : Nat) (d : Dev) : Dev :=
  match pktOf id d with
  | none => d
  | some q =>
    d |> freeCells id q.cells.length
      |> (fun d => match pktOf id d with
          | some r => onlyIf r.owes (grantMore r.inPort r.inLane (r.flits - r.credRet)) d
          | none => d)
      |> removePkt id |> releaseKept id
      |> forEach q.copyOf.toList releaseKept

end Sys2Proof.Machine
end

