-- ==== Sys2Proof/Machine/RouteOps.lean ====
section
/-!
DEFINITION. The routing block (ch. 08): header fields, tables, the lookup with its modes, flowlets and escape routes, and the
handing of a packet to its egress.
-/

namespace Sys2Proof.Machine

/-! ## The network header (R219) -/

/-- A field of the network header: its lowest bit and width. -/
structure HF where
  lo : Nat
  wd : Nat

/-- Reads a header field. -/
def hget (f : HF) (h : Nat) : Nat := bitsOf h f.lo f.wd

/-- Gives a header field a value. -/
def hput (f : HF) (v h : Nat) : Nat := h - bitsOf h f.lo f.wd * 2 ^ f.lo + v % 2 ^ f.wd * 2 ^ f.lo

def HF.DLID : HF := ⟨108, 20⟩
def HF.SLID : HF := ⟨88, 20⟩
def HF.ILID : HF := ⟨68, 20⟩
def HF.TC : HF := ⟨64, 4⟩
def HF.COLOUR : HF := ⟨62, 2⟩
def HF.ECT : HF := ⟨61, 1⟩
def HF.CE : HF := ⟨60, 1⟩
def HF.PHASE : HF := ⟨59, 1⟩
def HF.ORD : HF := ⟨58, 1⟩
def HF.ESCL : HF := ⟨57, 1⟩
def HF.LAYER : HF := ⟨56, 1⟩
def HF.DOWN : HF := ⟨55, 1⟩
def HF.MID : HF := ⟨54, 1⟩
def HF.HOPS : HF := ⟨48, 6⟩
def HF.PLEN : HF := ⟨34, 14⟩
def HF.NXT : HF := ⟨30, 4⟩
def HF.FLOW : HF := ⟨14, 16⟩
def HF.RMODE : HF := ⟨12, 2⟩

/-- No intermediate (R219). -/
def noIlid : Nat := 0xFFFFF

/-- NXT agrees with the VC, and neither NXT nor COLOUR is reserved (R220). -/
def headerOk (vc h : Nat) : Bool :=
  hget .COLOUR h != 3 &&
  (match hget .NXT h with
   | 0 => vc == 0 | 1 => vc == 1 || vc == 2 | 2 => vc == 3 | 3 => vc == 4 | 4 => vc == 4
   | 5 => vc == 5 || vc == 6 || vc == 7 | _ => false)

/-! ## Tables (R222 to R225) -/

/-- The key of a table entry: table 0 level, 1 override, 2 port group, 3 port attribute, 4 gateway. -/
def tblKey (isl table set idx : Nat) : Nat := ((isl * 8 + table) * 2 + set) * 8192 + idx

/-- A table entry, its words least significant first; 0 where nothing was written. -/
def tblAt (isl table set idx : Nat) (d : Dev) : Nat := smGet (fun _ => 0) d.net.tables (tblKey isl table set idx)

/-- Gives a table entry a value. -/
def tblPut (isl table set idx v : Nat) (d : Dev) : Dev :=
  { d with net := { d.net with tables := smSet (fun _ => 0) d.net.tables (tblKey isl table set idx) v } }

/-- The active set of an island (R250). -/
def epoch (isl : Nat) (d : Dev) : Nat := rd Reg.RTE_EPOCH isl d

/-- The override entry that holds a LID, lowest index first, as level entry words 0 to 3 (R225). -/
def overrideOf (isl key : Nat) (d : Dev) : Option Nat :=
  let base := tblKey isl 1 (epoch isl d) 0
  (d.net.tables.find? (fun kv => decide (base ≤ kv.1 ∧ kv.1 < base + 1024) && bitsOf kv.2 0 20 == key && bitOf kv.2 31)).map
    (fun kv => kv.2 / 2 ^ 32)

/-- The radices in use (R216). -/
def radices (isl : Nat) (d : Dev) : List Nat :=
  (List.range (rd Reg.RTE_NDIG isl d)).map (fun k => rdI Reg.RTE_RAD isl k d)

/-- Digit `k` of a LID under radices (R216). -/
def digitOf : List Nat → Nat → Nat → Nat
  | [], _, _ => 0
  | r :: _, v, 0 => v % r
  | r :: rs, v, k + 1 => digitOf rs (v / r) k

/-- A digit by the island's radices. -/
def digit (isl lid k : Nat) (d : Dev) : Nat := digitOf (radices isl d) lid k

/-- The number of structured LIDs P (R216). -/
def structured (isl : Nat) (d : Dev) : Nat := (radices isl d).foldl (· * ·) 1

/-- Digit `k` is resolved by comparison (R218). -/
def cares (isl k : Nat) (d : Dev) : Bool := bitOf (rd Reg.RTE_CARE isl d) k

/-- The level entry of digit `k` of a key. -/
def levelAt (isl key k : Nat) (d : Dev) : Nat :=
  tblAt isl 0 (epoch isl d) (rdI Reg.RTE_BASE isl k d + digit isl key k d) d

/-- What a lookup finds (R223): the entry, and whether it stopped at a digit without care. -/
structure Found where
  entry : Nat
  stopped : Bool

/-- The digits looked at from the highest down; the first without care or that differs names the entry (R223). -/
def findDigit (isl key : Nat) (d : Dev) : Nat → Option Found
  | 0 => none
  | k + 1 =>
    if cares isl k d = false then some ⟨levelAt isl key k d, true⟩
    else if digit isl key k d ≠ digit isl (rd Reg.RTE_COORD isl d) k d then some ⟨levelAt isl key k d, false⟩
    else findDigit isl key d k

/-- The entry that the lookup of one key stops at (R223). -/
def rawKey (isl key : Nat) (d : Dev) : Option Found :=
  match overrideOf isl key d with
  | some e => some { entry := e, stopped := false }
  | none => if structured isl d ≤ key then none else findDigit isl key d (rd Reg.RTE_NDIG isl d)

/-- An entry in use (R224). -/
def Found.valid (f : Found) : Bool := bitOf f.entry 25

/-- The lookup of one key; an invalid entry is none (R223, R224). -/
def findKey (isl key : Nat) (d : Dev) : Option Found := (rawKey isl key d).filter Found.valid

/-- The LIDs of this device's node of a VH: overrides and entries of digit 0 that deliver to it (R218, R224, R225). -/
def nodeLids (isl v : Nat) (d : Dev) : List Nat :=
  let mine := fun e : Nat => bitOf e 25 && bitOf e 26 && bitsOf e 27 4 == v
  let o := tblKey isl 1 (epoch isl d) 0
  let l := tblKey isl 0 (epoch isl d) (rdI Reg.RTE_BASE isl 0 d)
  let r := rdI Reg.RTE_RAD isl 0 d
  d.net.tables.filterMap (fun kv =>
    if o ≤ kv.1 ∧ kv.1 < o + 1024 then (if bitOf kv.2 31 && mine (kv.2 / 2 ^ 32) then some (bitsOf kv.2 0 20) else none)
    else if l ≤ kv.1 ∧ kv.1 < l + r then
      (if mine kv.2 then some (rd Reg.RTE_COORD isl d / max r 1 * r + (kv.1 - l)) else none)
    else none)

/-- The lowest cared digit that differs from COORD (HyperX layer 2, R239). -/
def lowestDiff (isl key : Nat) (d : Dev) : Option Nat :=
  (List.range (rd Reg.RTE_NDIG isl d)).find?
    (fun k => cares isl k d && digit isl key k d != digit isl (rd Reg.RTE_COORD isl d) k d)

/-! ## Ports -/

/-- A port is set in the island's PORT_UP (R246). -/
def inPortUp (isl p : Nat) (d : Dev) : Bool := bitOf (rdI Reg.RTE_PORT_UP isl (p / 32) d) (p % 32)

/-- Sets or clears a port in PORT_UP of every island (R246, R248). -/
def setPortUp (p : Nat) (b : Bool) (d : Dev) : Dev :=
  forEach (List.range 20) (fun i d =>
    wrI Reg.RTE_PORT_UP i (p / 32) (putBit (rdI Reg.RTE_PORT_UP i (p / 32) d) (p % 32) b) d) d

/-- A port that routing may take: up, and an SFL port (C3, C11). -/
def usable (isl p : Nat) (d : Dev) : Bool :=
  decide (p < 144) && inPortUp isl p d && pers (p / 8) d == 2 && domOn (p / 8) d

/-- The members of a port group that routing may take (R224, R225). -/
def groupPorts (isl grp : Nat) (d : Dev) : List Nat :=
  if grp = 0 then [] else (List.range 144).filter (fun p => bitOf (tblAt isl 2 (epoch isl d) grp d) p && usable isl p d)

/-- The credit that this end holds on a virtual lane of a port (R132). -/
def credAvail (p v : Nat) (d : Dev) : Nat :=
  let q := portOf p d
  (smGet (fun _ => 0) q.credit v + 4096 - smGet (fun _ => 0) q.consumed v % 4096) % 4096

/-- Cells queued for a port on the virtual lanes of a VC: H(p, v) of R229. -/
def cellsQueued (p vc : Nat) (d : Dev) : Nat :=
  heldBy (fun q => q.eg == p && q.vlane / 2 == vc) (fun q => q.queued - q.freed) d

/-- The depth that a port's neighbour reported for a weather group: W(p) of R229, R236. -/
def weatherDepth (isl p grp : Nat) (d : Dev) : Nat :=
  match (portOf p d).wx with
  | some w =>
    let x := w.wx.getD grp 0
    if x / 4096 = 0 ∨ rd Reg.RTE_WX_EN isl d = 0
        ∨ rd Reg.RTE_WX_STALE_NS isl d < d.th.localNs - (portOf p d).wxTime then 4095 else x % 4096
  | none => 4095

/-- The cost Q(p) of R229 on the normal sub-channel of a VC. -/
def cost (isl p vc grp : Nat) (d : Dev) : Nat :=
  cellsQueued p vc d + (smGet (fun _ => 0) (portOf p d).initial (2 * vc) - credAvail p (2 * vc) d + 3) / 4
    + weatherDepth isl p grp d

/-- The cheapest of some ports; ties go to the one at FLOW mod n among them (R230). -/
def cheapest (isl vc grp flow : Nat) (ps : List Nat) (d : Dev) : Option Nat :=
  match (ps.map (fun p => cost isl p vc grp d)).min? with
  | none => none
  | some m =>
    let tied := ps.filter (fun p => cost isl p vc grp d == m)
    tied[flow % max tied.length 1]?

/-- The minimal candidates of an entry; on HyperX the union over every cared digit that differs (R229). -/
def minCandidates (isl key entry : Nat) (d : Dev) : List Nat :=
  if rd Reg.RTE_TOPO isl d = 2 ∧ overrideOf isl key d = none then
    let ks := (List.range (rd Reg.RTE_NDIG isl d)).filter
      (fun k => cares isl k d && digit isl key k d != digit isl (rd Reg.RTE_COORD isl d) k d)
    (List.range 144).filter (fun p => ks.any (fun k =>
      (groupPorts isl (bitsOf (levelAt isl key k d) 0 8) d).contains p))
  else groupPorts isl (bitsOf entry 0 8) d

/-- The mode of a traffic class (R228). -/
def modeTc (isl tc : Nat) (d : Dev) : Nat := bitsOf (rd Reg.RTE_MODE_TC isl d) (2 * tc) 2

/-! ## Flowlets (R233) -/

/-- The flowlet index of a packet (R233). -/
def flowletIdx (h vc : Nat) : Nat :=
  crc32c (beBytes 3 (hget .DLID h) ++ [BitVec.ofNat 8 (hget .TC h), BitVec.ofNat 8 vc] ++ beBytes 2 (hget .FLOW h)) % 4096

/-- A flowlet entry of an island. -/
def flowletOf (isl idx : Nat) (d : Dev) : Flowlet := smGet (fun _ => Flowlet.init) d.net.flowlets (isl * 4096 + idx)

/-- Gives a flowlet entry a value. -/
def putFlowlet (isl idx : Nat) (f : Flowlet) (d : Dev) : Dev :=
  { d with net := { d.net with flowlets := smSet (fun _ => Flowlet.init) d.net.flowlets (isl * 4096 + idx) f } }

/-- A flowlet entry was used within FLOWLET_GAP (R233). -/
def flowletRecent (isl : Nat) (f : Flowlet) (d : Dev) : Bool :=
  !f.path.isEmpty && decide (d.th.localNs ≤ f.last + rd Reg.RTE_FLOWLET_GAP isl d)

/-! ## Choosing (R228 to R240) -/

/-- What the routing block decides for a head. -/
inductive Choice where
  /-- Discarded: 0 invalid or unroutable, 1 escape violation. -/
  | drop (why : Nat)
  /-- Held, with the header as the choice left it. -/
  | hold (h : Nat)
  | port (p h : Nat)
  /-- Handed to a consumer, with DEL_VH. -/
  | deliver (eg vh h : Nat)

/-- Draws ILID under Valiant mode: the digits of VAL_DIG are free values below their radix, d0 is 0, the others those of DLID
(R232, log entry 10). -/
def drawIlid (isl dlid : Nat) (d : Dev) : Nat × Dev :=
  let rs := radices isl d
  let step := fun (acc : Nat × Nat × Dev) (k : Nat) =>
    let r := rs.getD k 1
    let dg := if k = 0 then 0
      else if bitOf (rd Reg.RTE_VAL_DIG isl d) k then free 16 acc.2.2 % max r 1 else digit isl dlid k d
    (acc.1 + dg * acc.2.1, acc.2.1 * r, takeFree acc.2.2)
  let out := (List.range rs.length).foldl step (0, 1, d)
  (out.1, out.2.2)

/-- A LID agrees with COORD in every cared digit (R232). -/
def atCoord (isl lid : Nat) (d : Dev) : Bool :=
  (List.range (rd Reg.RTE_NDIG isl d)).all (fun k => !cares isl k d || digit isl lid k d == digit isl (rd Reg.RTE_COORD isl d) k d)

/-- The ILID of a packet under Valiant mode: that of its flowlet in use where it is ordered, else drawn (R232, R233). -/
def valiantIlid (isl vc h : Nat) (d : Dev) : Nat × Dev :=
  let f := flowletOf isl (flowletIdx h vc) d
  if hget .ORD h = 1 ∧ f.valid = true ∧ flowletRecent isl f d = true ∧ usable isl f.port d = true then (f.ilid, d)
  else drawIlid isl (hget .DLID h) d

/-- The fields the injecting device sets in every header (R220). -/
def injectFields (isl vc h : Nat) (d : Dev) : Nat :=
  let tc := hget .TC h
  h |> (if vc = 0 ∨ 5 ≤ vc then hput .ESCL 1 else id)
    |> hput .ORD (bnat (bitOf (rd Reg.RTE_ORD_TC isl d) tc)) |> hput .RMODE (modeTc isl tc d) |> hput .ILID noIlid

/-- A header toward the intermediate ILID; PHASE is 1 from the start at that coordinate (R232). -/
def towardIlid (isl il h : Nat) (d : Dev) : Nat :=
  h |> hput .ILID il |> (if atCoord isl il d then hput .PHASE 1 else id)

/-- The header as the injecting device sets it (R220, R232). -/
def injectHeader (isl vc h : Nat) (d : Dev) : Nat × Dev :=
  let h1 := injectFields isl vc h d
  if modeTc isl (hget .TC h) d = 2 ∧ (vc = 1 ∨ vc = 2 ∨ vc = 4) then
    let r := valiantIlid isl vc h1 d
    (towardIlid isl r.1 h1 d, r.2)
  else (h1, d)

/-- The first packet on layer 2 since the last swap raises LAYER2_IN_USE (R253). -/
def noteLayer2 (isl : Nat) (d : Dev) : Dev :=
  d |> bump Reg.RTE_LAYER2_CNT isl
    |> onlyIf (!d.net.layer2) (fun d => { d with net := { d.net with layer2 := true } } |> raise Ev.LAYER2_IN_USE isl)

/-- A layer 2 hop (R239). -/
def escape2 (isl key entry h : Nat) (d : Dev) : Choice :=
  let hyper := rd Reg.RTE_TOPO isl d == 2
  let e := if hyper && (overrideOf isl key d).isNone then
      (match lowestDiff isl key d with | some k => levelAt isl key k d | none => entry) else entry
  if hyper && hget .MID h == 1 then
    if usable isl (bitsOf e 16 8) d then .port (bitsOf e 16 8) (hput .MID 0 h) else .hold h
  else if !bitOf e 50 || !usable isl (bitsOf e 40 8) d then .hold h
  else if hyper then .port (bitsOf e 40 8) (if bitOf e 51 then hput .MID 1 h else h)
  else if bitOf e 48 then (if hget .DOWN h = 1 then .drop 1 else .port (bitsOf e 40 8) h)
  else .port (bitsOf e 40 8) (hput .DOWN 1 h)

/-- The escape hop: layer 1, or layer 2 where its port is down (R237 to R240). -/
def escapeHop (isl key entry h : Nat) (d : Dev) : Choice × Dev :=
  if hget .LAYER h = 1 then (escape2 isl key entry h d, d)
  else if usable isl (bitsOf entry 16 8) d then
    (if rd Reg.RTE_TOPO isl d = 2 then .port (bitsOf entry 16 8) h
     else if bitOf entry 24 then (if hget .DOWN h = 1 then .drop 1 else .port (bitsOf entry 16 8) h)
     else .port (bitsOf entry 16 8) (hput .DOWN 1 h), d)
  else if bitOf entry 50 then
    let h2 := h |> hput .LAYER 1 |> hput .DOWN 0
    (escape2 isl key entry h2 d, noteLayer2 isl d)
  else (.hold h, d)

/-- A packet moves to the escape sub-channel (R237). -/
def enterEscape (isl key entry h : Nat) (d : Dev) : Choice × Dev :=
  escapeHop isl key entry (hput .ESCL 1 h) (bump Reg.RTE_ESC_ENTRY isl d)

/-- The minimal hop through port m; through ALT_PORT, where no minimal candidate is usable, it is counted (R229). -/
def leastHop (isl m h : Nat) (alternate : Bool) (d : Dev) : Choice × Dev :=
  (.port m h, onlyIf alternate (bump Reg.RTE_ALT_CNT isl) d)

/-- The hop by minimal, adaptive or Valiant mode (R229 to R232). -/
def modeHop (isl vc key entry h : Nat) (d : Dev) : Choice × Dev :=
  let grp := bitsOf entry 72 4
  let flow := hget .FLOW h
  let mins := minCandidates isl key entry d
  let alt := bitsOf entry 32 8
  let cands := if mins.isEmpty && bitOf entry 49 && usable isl alt d then [alt] else mins
  match cheapest isl vc grp flow cands d with
    | none => enterEscape isl key entry h d
    | some m =>
      let adaptive := modeTc isl (hget .TC h) d == 1 && hget .PHASE h == 0
        && decide (hget .HOPS h < rd Reg.RTE_NMIN_HOPS isl d)
      match cheapest isl vc grp flow (groupPorts isl (bitsOf entry 8 8) d) d with
      | some nm =>
        if adaptive && decide (cost isl nm vc grp d * bitsOf entry 64 6 + rd Reg.RTE_UGAL_BIAS isl d
            < cost isl m vc grp d * bitsOf entry 56 6) then
          (.port nm (hput .PHASE 1 h), bump Reg.RTE_NONMIN_CNT isl d)
        else leastHop isl m h mins.isEmpty d
      | none => leastHop isl m h mins.isEmpty d

/-- A port is a mirror destination: an enabled session copies to it (R182, R226; DEDUCED, log entry 196). -/
def mirrorDest (p : Nat) (d : Dev) : Bool :=
  (List.range 8).any (fun k => rdI Reg.MIR_EN 0 k d == 1 && rdI Reg.MIR_DEST_KIND 0 k d == 0 && rdI Reg.MIR_DST_PORT 0 k d == p)

/-- The consumer of a DELIVER entry (R226): for transport the engine that DQPN names, with DEL_VH (R257), for collectives the unit of the
group (R357), for frames and mirror records the port of the shim. -/
def deliverTo (h vh : Nat) (bytes : List Byte) (d : Dev) : Choice :=
  match hget .NXT h with
  | 0 => .deliver egMgmt vh h
  | 1 => .deliver (egTpe (bytes.getD 20 0).toNat) vh h
  | 2 => .deliver (egCle (bytes.getD 21 0).toNat) vh h
  | 5 => .deliver egEhc vh h
  | _ =>
    let p := (bytes.getD 16 0).toNat
    if portStarts p d && (pers (p / 8) d == 3 || mirrorDest p d) then .deliver p vh h else .drop 0

/-- The level entries that a choice rests on: on HyperX those of every digit (R229, R234). -/
def pathOf (isl key entry : Nat) (d : Dev) : List Nat :=
  entry :: (if rd Reg.RTE_TOPO isl d = 2 ∧ overrideOf isl key d = none then
    (List.range (rd Reg.RTE_NDIG isl d)).map (fun k => levelAt isl key k d) else [])

/-- A packet takes a flowlet entry: valid, used within FLOWLET_GAP, its port up, not changed by a swap, clearing neither ESCL nor LAYER, and no
second non-minimal hop (R219, R231, R233, R234). -/
def flowletStands (isl key entry h : Nat) (f : Flowlet) (d : Dev) : Bool :=
  f.valid && flowletRecent isl f d && usable isl f.port d && (f.since || f.path == pathOf isl key entry d)
    && decide (hget .ESCL h ≤ bnat f.esc ∧ hget .LAYER h ≤ bnat f.layer) && !(f.nonMin && hget .PHASE h == 1)

/-- The hop of a packet that takes a flowlet's record; on the escape sub-channel DOWN and MID follow its entry (R233, R238 to R240). -/
def recordedHop (isl key entry h : Nat) (f : Flowlet) (d : Dev) : Choice :=
  let h1 := h |> hput .ESCL (bnat f.esc) |> hput .LAYER (bnat f.layer) |> hput .ILID f.ilid
    |> (if hget .ILID h = f.ilid then id else hput .PHASE (bnat (f.ilid != noIlid && atCoord isl f.ilid d)))
    |> (if f.nonMin then hput .PHASE 1 else id)
    |> (if f.layer && hget .LAYER h == 0 then hput .DOWN 0 else id)
  let hyper := rd Reg.RTE_TOPO isl d == 2
  let e := if hyper && (overrideOf isl key d).isNone then
      (match lowestDiff isl key d with | some k => levelAt isl key k d | none => entry) else entry
  if !f.esc then .port f.port h1
  else if hyper then
    (if f.layer then .port f.port (if hget .MID h1 = 1 then hput .MID 0 h1 else if bitOf e 51 then hput .MID 1 h1 else h1)
     else .port f.port h1)
  else if bitOf entry (if f.layer then 48 else 24) then (if hget .DOWN h1 = 1 then .drop 1 else .port f.port h1)
  else .port f.port (hput .DOWN 1 h1)

/-- The hop of a packet whose path is chosen afresh: on the escape sub-channel, or by its mode (R228, R237). -/
def freshHop (isl vc key entry h : Nat) (d : Dev) : Choice × Dev :=
  if hget .ESCL h = 1 then escapeHop isl key entry h d else modeHop isl vc key entry h d

/-- The packet of an ordered flow takes its flowlet's path where it still stands, and records a fresh choice otherwise; a path change of a
flowlet in use is counted (R233, R234). -/
def flowletHop (isl vc key entry h : Nat) (d : Dev) : Choice × Dev :=
  let idx := flowletIdx h vc
  let f := flowletOf isl idx d
  if flowletStands isl key entry h f d then
    (recordedHop isl key entry h f d, onlyIf f.nonMin (bump Reg.RTE_NONMIN_CNT isl) <| putFlowlet isl idx { f with last := d.th.localNs, since := true, path := pathOf isl key entry d } d)
  else
    let r := freshHop isl vc key entry h d
    match r.1 with
    | .port p h1 =>
      let g : Flowlet := ⟨true, p, hget .ESCL h1 == 1, hget .LAYER h1 == 1, hget .ILID h1, d.th.localNs, true, pathOf isl key entry d,
        hget .PHASE h == 0 && hget .PHASE h1 == 1⟩
      let moved := flowletRecent isl f d && !(f.port == p && f.esc == g.esc && f.layer == g.layer)
      (r.1, r.2 |> putFlowlet isl idx g |> onlyIf moved (bump Reg.RTE_ORD_BREAK isl))
    | _ => r

/-- The lookup of a head (R223, R228): the key is ILID until the intermediate is reached, then DLID. -/
def route (isl vc h : Nat) (bytes : List Byte) (d : Dev) : Choice × Dev :=
  let toIlid := hget .PHASE h == 0 && hget .ILID h != noIlid
  let first := if toIlid then rawKey isl (hget .ILID h) d else rawKey isl (hget .DLID h) d
  let reached := toIlid && (match first with | some f => f.stopped | none => false)
  let h1 := if reached then hput .PHASE 1 h else h
  let key := if toIlid && !reached then hget .ILID h else hget .DLID h
  let found := (if reached then rawKey isl (hget .DLID h) d else first).filter Found.valid
  match found with
  | none => (if vc = 3 ∧ hget .DLID h = rd Reg.RTE_MY_LID isl d then deliverTo h1 0 bytes d else .drop 0, d)
  | some f =>
    if bitOf f.entry 26 then (deliverTo h1 (bitsOf f.entry 27 4) bytes d, d)
    else if vc = 3 then (if hget .DLID h = rd Reg.RTE_MY_LID isl d then deliverTo h1 0 bytes d else .drop 0, d)
    else if vc = 0 ∨ 5 ≤ vc then escapeHop isl key f.entry (hput .ESCL 1 h1) d
    else if hget .ORD h1 = 1 ∧ 0 < bitsOf f.entry 56 6 then flowletHop isl vc key f.entry h1 d
    else freshHop isl vc key f.entry h1 d

/-! ## Handing a packet to its egress -/

/-- The line rate of a port in Mb/s (R93, R123, R146, C2). -/
def lineRate (p : Nat) (d : Dev) : Nat :=
  match pers (p / 8) d with
  | 2 => rd Reg.LNK_WIDTH p d * (match sflRate p d with | 1 => 112000 | 2 => 224000 | _ => 448000)
  | 3 => portWidth p d * (if portByte p d % 16 = 2 then 212500 else 106250)
  | 1 =>
    match expIdx p d with
    | some k => rd Reg.EXP_WIDTH k d *
        (match rd Reg.EXP_SPEED k d with
         | 1 => 2500 | 2 => 5000 | 3 => 8000 | 4 => 16000 | 5 => 32000 | 6 => 64000 | _ => 0)
    | none => 0
  | _ => 0

/-- A packet is stored in full whatever the forwarding mode (R177, C2, R148). -/
def forcedStore (inP eg : Nat) (d : Dev) : Bool :=
  decide (inP < 144 ∧ eg < 144) &&
    (let a := pers (inP / 8) d
     let b := pers (eg / 8) d
     a == 3 || b == 3 || (a == 2 && b == 1) || decide (lineRate inP d < lineRate eg d))

/-- The egress queue of a network packet (R191). -/
def queueFor (eg vc tc : Nat) (d : Dev) : Nat :=
  if 144 ≤ eg then 0 else if vc = 0 then 0 else if vc = 3 then 1
  else bitsOf (rdI Reg.SCH_TCQ_MAP eg (tc / 4) d) (8 * (tc % 4)) 8

/-- Fixes the egress of a packet, its queue, virtual lane and whether it is stored in full (R157, R177, R178, R191, R192). -/
def setEgress (id eg h : Nat) (d : Dev) : Dev :=
  match pktOf id d with
  | none => d
  | some q =>
    let forced := forcedStore q.inPort eg d
    d |> updPkt id (fun r => { r with
          eg := eg, hdr := h, held := none
          queue := queueFor eg (q.vlane / 2) (hget .TC h) d
          vlane := 2 * (q.vlane / 2) + hget .ESCL h
          store := forced || (decide (eg < 144) && rd Reg.LNK_FWD eg d == 1) || decide (144 ≤ eg) })
      |> onlyIf forced (bump Reg.LNK_FORCED_STORE eg)

/-- Discards a packet that has no route (R220, R228, R247). -/
def unroutable (id isl : Nat) (d : Dev) : Dev :=
  d |> bump Reg.RTE_UNROUTABLE isl |> raise Ev.ROUTE_UNROUTABLE isl |> dropPkt id

/-- The header that a packet is looked up with: as it came or was injected, a hop not taken leaves nothing in it but ESCL and LAYER, which are
never cleared; a switch to layer 2 clears DOWN (R219, R239, R247). -/
def lookupHdr (q : Packet) : Nat :=
  q.hdr0 |> hput .ESCL (max (hget .ESCL q.hdr0) (hget .ESCL q.hdr))
    |> (if hget .LAYER q.hdr0 < hget .LAYER q.hdr then fun h => h |> hput .LAYER 1 |> hput .DOWN 0 else id)

/-- Looks a packet up at its ingress island and gives it its egress, holds it or discards it (R223, R240, R247). The VC of a
packet is kept in its virtual lane. -/
def lookUp (id : Nat) (d : Dev) : Dev :=
  match pktOf id d with
  | none => d
  | some q =>
    let isl := inIsland q.inPort
    let (c, d1) := route isl (q.vlane / 2) (lookupHdr q) q.bytes (bump Reg.RTE_PKTS_ROUTED isl d)
    match c with
    | .port p h => setEgress id p h d1
    | .deliver eg vh h => d1 |> updPkt id (fun r => { r with delVh := vh }) |> setEgress id eg h
    | .hold h => updPkt id (fun r => { r with held := some (r.held.getD d1.th.localNs), eg := 255, hdr := h }) d1
    | .drop why =>
      if why = 1 then d1 |> bump Reg.RTE_ESC_VIOL isl |> raise Ev.ESC_VIOLATION isl |> dropPkt id
      else unroutable id isl d1

end Sys2Proof.Machine
end

