-- ==== Sys2Proof/Machine/FunOps.lean ====
section
/-!
DEFINITION. Shared operations of functions and slices (ch. 14): slice registers, configuration space, accesses to host memory with
their order, translation and Bus Master Enable (R430 to R435), event rings and MSI-X (R267, R445), and host reads (R433, R439).
-/

namespace Sys2Proof.Machine

/-! ## Engines -/

/-- Changes the state of the engines. -/
def updEng (f : Eng → Eng) (d : Dev) : Dev := { d with eng := f d.eng }

/-! ## Slices -/

/-- A register of slice `n` (R448). -/
def slRd (f : Fld) (n : Nat) (d : Dev) : Nat := rdI f (n / 16) (n % 16) d

/-- Gives a register of slice `n` a value. -/
def slWr (f : Fld) (n v : Nat) (d : Dev) : Dev := wrI f (n / 16) (n % 16) v d

/-- What slice `n` holds beside its registers. -/
def sliceOf (n : Nat) (d : Dev) : Slice := smGet (fun _ => Slice.init) d.eng.slices n

/-- Changes what slice `n` holds. -/
def updSlice (n : Nat) (f : Slice → Slice) (d : Dev) : Dev :=
  updEng (fun e => { e with slices := smSet (fun _ => Slice.init) e.slices n (f (sliceOf n d)) }) d

/-- The states of a slice (R438). -/
def slFree : Nat := 0
/-- ACTIVE. -/
def slActive : Nat := 1
/-- QUIESCING. -/
def slQuiescing : Nat := 2
/-- QUIESCED. -/
def slQuiesced : Nat := 3
/-- FENCING. -/
def slFencing : Nat := 4
/-- HOST_ABORTED. -/
def slAborted : Nat := 5

/-- The state of slice `n`. -/
def slState (n : Nat) (d : Dev) : Nat := slRd Reg.SLC_STATE n d

/-- An event of the slice pages sets the PEND bit of its slice (R449). -/
def raiseSlice (e : Ev) (pend n : Nat) (d : Dev) : Dev :=
  d |> slWr Reg.SLC_PEND n (setBit (slRd Reg.SLC_PEND n d) pend) |> raise e (n / 16)

/-! ## Functions -/

/-- What the function of a VH holds beside its page. -/
def funOf (v : Nat) (d : Dev) : FunCfg := smGet (fun _ => FunCfg.init) d.eng.funs v

/-- Changes what the function of a VH holds. -/
def updFun (v : Nat) (f : FunCfg → FunCfg) (d : Dev) : Dev :=
  updEng (fun e => { e with funs := smSet (fun _ => FunCfg.init) e.funs v (f (funOf v d)) }) d

/-- A byte of configuration space that software may write, where nothing was written since reset: the PCI Express defaults of Device
Control (Relaxed Ordering Enable 1, Max_Read_Request_Size 512 B) and of the AER masks and severities (log entry 21). -/
def cfgDflt : Nat → Byte := fun off =>
  match off with
  | 0x48 => 0x10
  | 0x49 => 0x20
  | 0x10A => 0x40
  | 0x10E => 0x44
  | 0x115 => 0xE0
  | _ => 0

/-- A byte of a function's configuration space as software left it (R424). -/
def cfgByte (v off : Nat) (d : Dev) : Byte := smGet cfgDflt (funOf v d).cfg off

/-- A bit of a function's configuration space. -/
def cfgBit (v off bit : Nat) (d : Dev) : Bool := bitOf (cfgByte v off d).toNat bit

/-- Relaxed Ordering Enable (R431). -/
def roEnable (v : Nat) (d : Dev) : Bool := cfgBit v 0x48 4 d

/-- AtomicOp Requester Enable: bit 6 of Device Control 2 at 0x68 (R432). -/
def aopEnable (v : Nat) (d : Dev) : Bool := cfgBit v 0x68 6 d

/-- Bus Master Enable and D0 (R435, R436). -/
def bme (v : Nat) (d : Dev) : Bool := rd Reg.FUN_BME v d == 1 && rd Reg.FUN_DSTATE v d == 0

/-- The PASID of a slice's requests: none while PASID Enable is 0 (R430). -/
def slicePasid (n : Nat) (d : Dev) : Option Nat :=
  if rd Reg.FUN_PASID_EN (slRd Reg.SLC_VH n d) d = 1 then some (slRd Reg.SLC_PASID n d) else none

/-! ## Accesses to host memory (R430 to R435) -/

/-- An access leaves for the host: function, PASID (2^20 none), address, tag or object, length, RO, 1 if translated. -/
def issueAcc (a : Access) (xlat : Option Nat) (d : Dev) : Dev :=
  emit a.chan [a.vh, a.pasid.getD (2 ^ 20), xlat.getD a.addr, a.obj, a.len, bnat (a.ro && roEnable a.vh d),
    bnat xlat.isSome] a.bytes d

/-- An access that Bus Master Enable keeps from the host; a completion or event entry is counted (R435). -/
def lostAcc (a : Access) (d : Dev) : Dev :=
  if a.chan = .cqe ∨ a.chan = .ringEntry then bump Reg.FUN_CQE_LOST a.vh d else d

/-- The permission an access needs is given by a translation. -/
def AtcEntry.allows (e : AtcEntry) (a : Access) : Bool := if a.chan = .hostRead then e.read else e.write

/-- The cached translation of an access. -/
def atcHit (a : Access) (d : Dev) : Option AtcEntry :=
  d.eng.atc.find? (fun e => e.vh == a.vh && e.pasid == a.pasid && e.page == a.addr / 4096 && e.allows a)

/-- An access waits for a translation, or behind one of the same function. -/
def waitAcc (a : Access) (xlat : Option Nat) (d : Dev) : Dev :=
  updEng (fun e => { e with ats := e.ats ++ [⟨a, xlat, false⟩] }) d

/-- Where a translated access goes. -/
def AtcEntry.apply (e : AtcEntry) (a : Access) : Nat := e.host * 4096 + a.addr % 4096

/-- The 4 KiB pages that `n` bytes from an address touch. -/
def pagesTouched (a n : Nat) : Nat := (a % 4096 + n + 4095) / 4096

/-- The parts of an access in one 4 KiB page each: what one translation covers (R434). -/
def Access.parts (a : Access) : List Access :=
  if pagesTouched a.addr a.len ≤ 1 then [a]
  else
    (List.range (pagesTouched a.addr a.len)).map (fun i =>
      let lo := max a.addr (4096 * (a.addr / 4096 + i))
      let hi := min (a.addr + a.len) (4096 * (a.addr / 4096 + i + 1))
      { a with addr := lo, len := hi - lo, bytes := (a.bytes.drop (lo - a.addr)).take (hi - lo) })

/-- A Translation Request leaves for a page (R434). -/
def askPage (v : Nat) (pasid : Option Nat) (page : Nat) (d : Dev) : Dev :=
  d |> bump Reg.FUN_ATC_MISS v |> emit .tlp [256 + v, 1, pasid.getD (2 ^ 20), page] []

/-- Makes an access to one page through the address translation cache (R434). -/
def accessAts (a : Access) (d : Dev) : Dev :=
  match atcHit a d with
  | some e =>
    let d1 := bump Reg.FUN_ATC_HIT a.vh d
    if d.eng.ats.any (fun w => w.acc.vh == a.vh) then waitAcc a (some (e.apply a)) d1 else issueAcc a (some (e.apply a)) d1
  | none => d |> askPage a.vh a.pasid (a.addr / 4096) |> waitAcc a none

/-- Makes an access: dropped while Bus Master Enable is 0 (R435); translated when ATS Enable is 1, a miss issuing a Translation
Request (R434); never ahead of an earlier access of the same function that waits (log entry 43). -/
def access (a : Access) (d : Dev) : Dev :=
  if !bme a.vh d then lostAcc a d
  else if rd Reg.FUN_ATS_EN a.vh d = 1 then forEach a.parts accessAts d
  else if d.eng.ats.any (fun w => w.acc.vh == a.vh) then waitAcc a (some a.addr) d
  else issueAcc a none d

/-! ## Event rings and MSI-X (R267, R445) -/

/-- Sends the message of a vector (R445). -/
def sendMsix (v vec : Nat) (d : Dev) : Dev :=
  let e := smGet (fun _ => (0, 0, true)) (funOf v d).msix vec
  emit .msix [v, vec, e.1, e.2.1] [] d

/-- A vector is masked: by its entry, or by the function mask at bit 6 of 0x93. -/
def vecMasked (v vec : Nat) (d : Dev) : Bool :=
  (smGet (fun _ => (0, 0, true)) (funOf v d).msix vec).2.2 || cfgBit v 0x93 6 d

/-- The message of a slice's vector: sent, or pended while the vector is masked (R445). -/
def notifySlice (n : Nat) (d : Dev) : Dev :=
  let v := slRd Reg.SLC_VH n d
  let vec := slRd Reg.SLC_EVR_VEC n d
  if rd Reg.FUN_MSIX_EN v d = 1 ∧ bme v d then
    if vecMasked v vec d then
      updFun v (fun f => { f with pba := if f.pba.contains (vec, n) then f.pba else f.pba ++ [(vec, n)] }) d
    else d |> sendMsix v vec |> slWr Reg.SLC_EVR_ARMED n 0
  else d

/-- The address of entry `pi` of a slice's event ring. -/
def evrAddr (n pi : Nat) (d : Dev) : Nat :=
  slRd Reg.SLC_EVR_BASE_LO n d + 2 ^ 32 * slRd Reg.SLC_EVR_BASE_HI n d + 16 * (pi % 2 ^ slRd Reg.SLC_EVR_LOG n d)

/-- Places an entry on a slice's event ring (R267); a full ring drops it, counted on TPE (n mod 8). -/
def sliceEvent (n code obj det : Nat) (d : Dev) : Dev :=
  if 4096 ≤ n ∨ slRd Reg.SLC_EVR_EN n d = 0 then d else
  let pi := slRd Reg.SLC_EVR_PI n d
  let size := 2 ^ slRd Reg.SLC_EVR_LOG n d
  if (pi + 65536 - slRd Reg.SLC_EVR_CI n d) % 65536 = size then
    d |> bump Reg.TPE_RING_DROP (n % 8) |> raise Ev.RING_OVF (n % 8)
  else
    let tsLocal := !timeValid d
    let flags := 64 * bnat tsLocal + 128 * bnat (sliceOf n d).phase
    let bytes := leBytes 2 code ++ leBytes 1 flags ++ leBytes 1 0 ++ leBytes 4 (obj % 2 ^ 24) ++ leBytes 4 (det % 2 ^ 24)
      ++ leBytes 4 (stampNs d)
    d |> access { chan := .ringEntry, vh := slRd Reg.SLC_VH n d, pasid := slicePasid n d, addr := evrAddr n pi d,
                  ro := false, obj := n, len := 16, bytes := bytes, ring := true, owner := ⟨3, n⟩ }
      |> slWr Reg.SLC_EVR_PI n ((pi + 1) % 65536)
      |> onlyIf (decide ((pi + 1) % size = 0)) (updSlice n (fun s => { s with phase := !s.phase }))
      |> onlyIf (slRd Reg.SLC_EVR_ARMED n d == 1) (notifySlice n)

/-! ## Host reads (R433, R439) -/

/-- Host reads of a slice that have been issued. -/
def readsOut (n : Nat) (d : Dev) : Nat := (d.eng.reads.filter (fun r => r.slice == n && r.waits.isEmpty)).length

/-- The pages that accesses touch, with their PASIDs. -/
def accessPages (l : List Access) : List (Option Nat × Nat) :=
  l.flatMap (fun a => (List.range (pagesTouched a.addr a.len)).map (fun i => (a.pasid, a.addr / 4096 + i)))

/-- Starts a host read for a use; beyond MAX_RD of its slice it waits for a free read (R439). -/
def startRead (v n key : Nat) (use : RdUse) (mk : Nat → List Access) (d : Dev) : Dev :=
  let tag := d.eng.nextTag
  if readsOut n d < slRd Reg.SLC_MAX_RD n d then
    d |> updEng (fun e => { e with nextTag := tag + 1, reads := e.reads ++ [⟨tag, v, n, key, use, [], none, accessPages (mk tag)⟩] })
      |> forEach (mk tag) access
  else updEng (fun e => { e with nextTag := tag + 1, reads := e.reads ++ [⟨tag, v, n, key, use, mk tag, none, accessPages (mk tag)⟩] }) d

/-- Issues the oldest waiting reads of a slice as far as MAX_RD allows. -/
def issueReads (n : Nat) (d : Dev) : Dev :=
  match d.eng.reads.find? (fun r => r.slice == n && !r.waits.isEmpty) with
  | some r =>
    if readsOut n d < slRd Reg.SLC_MAX_RD n d then
      d |> updEng (fun e => { e with reads := e.reads.map (fun x => if x.tag = r.tag then { x with waits := [] } else x) })
        |> forEach r.waits access
    else d
  | none => d

/-- The oldest access of a function that waits goes out once its address is known, and so on in order. -/
def issueKnown (v : Nat) : Nat → Dev → Dev
  | 0, d => d
  | f + 1, d =>
    match d.eng.ats.find? (fun w => w.acc.vh == v) with
    | some w =>
      (match w.xlat with
       | some x => d |> updEng (fun e => { e with ats := e.ats.erase w })
           |> issueAcc w.acc (if rd Reg.FUN_ATS_EN v d = 1 then some x else none) |> issueKnown v f
       | none => d)
    | none => d

/-- A host read is over: it leaves the list, what waits behind its requests goes on, and the next of its slice is issued. -/
def endRead (tag n : Nat) (d : Dev) : Dev :=
  d |> updEng (fun e => { e with reads := e.reads.filter (fun r => r.tag != tag),
                                 ats := e.ats.filter (fun w => !(w.acc.chan == .hostRead && w.acc.obj == tag)) })
    |> (fun x => forEach ((List.range 16)) (fun v => issueKnown v x.eng.ats.length) x)
    |> issueReads n

end Sys2Proof.Machine
end

