-- ==== Sys2Proof/Machine/RegionOps.lean ====
section
/-!
DEFINITION. Shared operations of remote memory (ch. 10): keys, regions and fast windows, the checks of local and remote keys
(R302, R303, R307), and where an address lies (R301).
-/

namespace Sys2Proof.Machine

/-! ## Areas of package memory (R21 to R23) -/

/-- The area of package memory of number `a`: 0 Context, 1 Translation, 2 Match, 3 Capture, 4 Telemetry, 5 User (R22). -/
def areaLo (a : Nat) (d : Dev) : Nat := rdI Reg.PKM_AREA_BASE 0 a d * 2 ^ 20

/-- End of an area. -/
def areaHi (a : Nat) (d : Dev) : Nat := areaLo a d + rdI Reg.PKM_AREA_SIZE 0 a d * 2 ^ 20

/-- `n` bytes from `o` lie within an area. -/
def inArea (a o n : Nat) (d : Dev) : Bool := decide (areaLo a d ≤ o ∧ o + n ≤ areaHi a d)

/-! ## Keys and entries -/

/-- INDEX of a key (R299). -/
def keyIdx (k : Nat) : Nat := bitsOf k 10 22

/-- GEN of a key (R299). -/
def keyGen (k : Nat) : Nat := bitsOf k 0 10

/-- The region entry of an index (R300). -/
def regionOf (i : Nat) (d : Dev) : Region := smGet (fun _ => Region.init) d.eng.regions i

/-- Gives an index its entry. -/
def putRegion (i : Nat) (r : Region) (d : Dev) : Dev :=
  updEng (fun e => { e with regions := smSet (fun _ => Region.init) e.regions i r }) d

/-- The words of a window or group never written. -/
def Staged.init (n : Nat) : Staged := ⟨List.replicate n 0, List.replicate n 0⟩

/-- A fast window (R307). -/
def winOf (w : Nat) (d : Dev) : Staged := smGet (fun _ => Staged.init 8) d.eng.wins w

/-- Bits of a word of a window's entry. -/
def wbits (ws : List Nat) (i lo wd : Nat) : Nat := bitsOf (ws.getD i 0) lo wd

/-- Two words of an entry, low word first. -/
def wpair (ws : List Nat) (i : Nat) : Nat := ws.getD i 0 + 2 ^ 32 * ws.getD (i + 1) 0

/-- `n` bytes from `a` lie within `len` bytes from `base`. -/
def within (base len a n : Nat) : Bool := decide (base ≤ a ∧ a + n ≤ base + len)

/-- `n` bytes from `a` lie within a region, or within its fast window. -/
def regionHolds (r : Region) (a n : Nat) (d : Dev) : Bool :=
  if r.fastwin then within (wpair (winOf r.win d).live 2) (wpair (winOf r.win d).live 4) a n else within r.va r.len a n

/-- The fast window of a region is open; a region without one passes (R303 step 4). -/
def winOpen (r : Region) (d : Dev) : Bool := !r.fastwin || wbits (winOf r.win d).live 0 0 1 == 1

/-- A local key passes for `n` bytes at `a` of a slice; `writes` where the DX7 writes them (R302). -/
def lkeyOk (slice key a n : Nat) (writes : Bool) (d : Dev) : Bool :=
  let r := regionOf (keyIdx key) d
  r.gen == keyGen key && r.valid && r.slice == slice && regionHolds r a n d
    && (!writes || bitOf r.access 0)

/-- The access bit of an operation: 0 read, 1 write, 2 atomic; with FASTWIN the window's bit (R303 step 5). -/
def accessBit (r : Region) (op : Nat) (d : Dev) : Bool :=
  if r.fastwin then wbits (winOf r.win d).live 0 (2 + op) 1 == 1 else bitOf r.access (1 + op)

/-- The check of a remote key: 0 passes, 1 stale, else the step that failed (R303). -/
def rkeyStep (slice key op a n : Nat) (d : Dev) : Nat :=
  let r := regionOf (keyIdx key) d
  if r.gen ≠ keyGen key then 1
  else if !r.valid then 2
  else if r.slice ≠ slice then 3
  else if !winOpen r d then 4
  else if !accessBit r op d then 5
  else if n ≠ 0 ∧ !regionHolds r a n d then 6
  else 0

/-- Counts the outcome of a check (R303, R327, R328). -/
def countKey (key step : Nat) (d : Dev) : Dev :=
  let r := regionOf (keyIdx key) d
  match step with
  | 0 => onlyIf r.fastwin (bump Reg.WIN_ACC_CNT 0) d
  | 1 => bump Reg.MRG_STALE_CNT 0 d
  | 4 => d |> bump Reg.MRG_PROT_CNT 0 |> bump Reg.WIN_CLOSED_CNT 0
  | _ => bump Reg.MRG_PROT_CNT 0 d

/-! ## Where an address lies (R301, R307) -/

/-- Where bytes of a region lie: in package memory from an offset, or in host memory as spans of bus addresses. -/
inductive Place where
  | pkm (off : Nat)
  | host (vh : Nat) (pasid : Option Nat) (spans : List (Nat × Nat))
deriving DecidableEq, Repr

/-- The spans of `n` bytes at `a`, page by page (R301): `pages` from the page that holds `a` on. -/
def pageSpans (shift a : Nat) : List Nat → Nat → List (Nat × Nat)
  | _, 0 => []
  | [], _ => []
  | p :: ps, n =>
    let o := a % 2 ^ shift
    let m := min n (2 ^ shift - o)
    (p + o, m) :: pageSpans shift (a + m) ps (n - m)

/-- Where `n` bytes at `a` of a region lie (R301, R307). -/
def placeOf (r : Region) (a n : Nat) (d : Dev) : Place :=
  let pasid := if r.pasidEn && rd Reg.FUN_PASID_EN r.vh d == 1 then some r.pasid else none
  if r.fastwin then
    let w := (winOf r.win d).live
    let t := wpair w 6 + (a - wpair w 2)
    if wbits w 0 1 1 = 1 then .pkm t else .host r.vh pasid (if n = 0 then [] else [(t, n)])
  else if r.target then .pkm (r.plAddr + (a - r.va))
  else
    let k := (a - (r.va - r.va % 2 ^ r.shift)) / 2 ^ r.shift
    .host r.vh pasid (pageSpans r.shift a (r.pages.drop k) n)

/-- Whether a place may be accessed now: a host's only while its function is a bus master (R435). -/
def placeUp (p : Place) (d : Dev) : Bool :=
  match p with
  | .pkm _ => true
  | .host v _ _ => bme v d

/-- Writes spans of host memory in order, under the key of region `i`. -/
def writeSpans (v : Nat) (pasid : Option Nat) (ro : Bool) (own : Owner) (i : Nat) : List (Nat × Nat) → List Byte → Dev → Dev
  | [], _, d => d
  | (a, n) :: rest, bytes, d =>
    d |> access { chan := .hostWrite, vh := v, pasid := pasid, addr := a, ro := ro, obj := 0, len := n,
                  bytes := bytes.take n, ring := false, owner := own, key := i }
      |> writeSpans v pasid ro own i rest (bytes.drop n)

/-- `n` bytes of package memory hold an uncorrectable word; a word is 8 B (R524, log entry 172). -/
def badBytes (o n : Nat) (d : Dev) : Bool := d.eng.badMem.any (fun a => decide (8 * a < o + n ∧ o < 8 * a + 8))

/-- A word written whole reads without an error again. -/
def healBytes (o n : Nat) (d : Dev) : Dev :=
  updEng (fun e => { e with badMem := e.badMem.filter (fun a => !decide (o ≤ 8 * a ∧ 8 * a + 8 ≤ o + n)) }) d

/-- Writes data to a place under the key of region `i`. -/
def writePlace (p : Place) (ro : Bool) (own : Owner) (i : Nat) (bytes : List Byte) (d : Dev) : Dev :=
  match p with
  | .pkm o => d |> memWrites o bytes |> healBytes o bytes.length
  | .host v pasid spans => writeSpans v pasid ro own i spans bytes d

/-- The read requests for spans of host memory under a tag. -/
def readSpans (v : Nat) (pasid : Option Nat) (ro : Bool) (own : Owner) (spans : List (Nat × Nat)) (tag : Nat) : List Access :=
  spans.map (fun s => { chan := .hostRead, vh := v, pasid := pasid, addr := s.1, ro := ro, obj := tag, len := s.2,
                        bytes := [], ring := false, owner := own })

/-- Writes data under a local or remote key that has passed its check. -/
def writeKey (key a : Nat) (ro : Bool) (own : Owner) (bytes : List Byte) (d : Dev) : Dev :=
  writePlace (placeOf (regionOf (keyIdx key) d) a bytes.length d) ro own (keyIdx key) bytes d

/-! ## The region table (R304 to R306) -/

/-- Page list entries of a region of `len` bytes at `va` (R300). -/
def xltCount (shift va len : Nat) : Nat := (va % 2 ^ shift + len + 2 ^ shift - 1) / 2 ^ shift

/-- Blocks of 4 KiB that a page list takes (R306). -/
def xltBlocks (r : Region) : Nat := if r.valid && !r.target && !r.fastwin then (r.pages.length + 511) / 512 else 0

/-- Free blocks of the translation store (R306). -/
def xltFree (d : Dev) : Nat :=
  rd Reg.MRG_XLT_BLOCKS 0 d - (d.eng.regions.map (fun e => xltBlocks e.2)).sum

/-- Valid regions of a slice. -/
def sliceRegions (n : Nat) (d : Dev) : Nat := (d.eng.regions.filter (fun e => e.2.valid && e.2.slice == n)).length

/-- Valid regions. -/
def validRegions (d : Dev) : Nat := (d.eng.regions.filter (fun e => e.2.valid)).length

/-- Brings REGIONS and XLT_FREE up to date; XLT_STORE_LOW is raised when XLT_FREE fell below XLT_LOW (R306, R327). -/
def countRegions (before : Nat) (d : Dev) : Dev :=
  let low := rd Reg.MRG_XLT_LOW 0 d
  d |> wr Reg.MRG_REGIONS 0 (validRegions d) |> wr Reg.MRG_XLT_FREE 0 (xltFree d)
    |> onlyIf (decide (low ≤ before ∧ xltFree d < low)) (raise Ev.XLT_STORE_LOW 0)

/-- DEREG of an index: invalid, its generation incremented, its blocks freed, the index at the tail of the free list (R304). -/
def dereg (i : Nat) (d : Dev) : Dev :=
  let r := regionOf i d
  d |> putRegion i { r with valid := false, gen := (r.gen + 1) % 1024, pages := [] }
    |> updEng (fun e => { e with freed := e.freed ++ [i] })

/-- INVAL_SLICE: DEREG of every valid index of a slice (R304). -/
def invalSlice (n : Nat) (d : Dev) : Dev :=
  let before := xltFree d
  d |> forEach ((d.eng.regions.filter (fun e => e.2.valid && e.2.slice == n)).map (fun e => e.1)) dereg
    |> countRegions before

/-- No host read under a region's key is outstanding, and no access under it waits for its translation (R305). -/
def retired (i : Nat) (d : Dev) : Bool := d.eng.reads.all (fun r => r.key != i) && d.eng.ats.all (fun x => x.acc.key != i)

end Sys2Proof.Machine
end

