-- ==== Sys2Proof/Machine/CqOps.lean ====
section
/-!
DEFINITION. Shared operations on queue pairs, ranges and completion queues (ch. 09): lookups, and how a completion queue entry is
written (R266, R268).
-/

namespace Sys2Proof.Machine

/-! ## Ranges (R256) -/

/-- Word 0 and BASE of a range entry. -/
def rangeOf (r : Nat) (d : Dev) : Nat × Nat := smGet (fun _ => (0, 0)) d.eng.ranges r

/-- The range of a QPN or CQN. -/
def rangeIdx (num : Nat) : Nat := num / 4096

/-- The range of a number is VALID. -/
def rangeValid (num : Nat) (d : Dev) : Bool := bitOf (rangeOf (rangeIdx num) d).1 16

/-- SLICE of the range of a number. -/
def numSlice (num : Nat) (d : Dev) : Nat := bitsOf (rangeOf (rangeIdx num) d).1 0 12

/-- VH of the range of a number. -/
def numVh (num : Nat) (d : Dev) : Nat := bitsOf (rangeOf (rangeIdx num) d).1 12 4

/-- The range's backing store is in host memory. -/
def numHost (num : Nat) (d : Dev) : Bool := bitOf (rangeOf (rangeIdx num) d).1 17

/-- A number lies in a valid range of a slice. -/
def ownsNum (slice num : Nat) (d : Dev) : Bool := rangeValid num d && numSlice num d == slice

/-! ## Queue pairs -/

/-- A queue pair; none while it is free. -/
def qpOf (n : Nat) (d : Dev) : Option Qp := smGet (fun _ => none) d.eng.qps n

/-- Gives a QPN its queue pair. -/
def putQp (n : Nat) (q : Option Qp) (d : Dev) : Dev :=
  updEng (fun e => { e with qps := smSet (fun _ => none) e.qps n q }) d

/-- Changes a queue pair that exists. -/
def updQp (n : Nat) (f : Qp → Qp) (d : Dev) : Dev :=
  match qpOf n d with
  | some q => putQp n (some (f q)) d
  | none => d

/-- A connection of a queue pair: key 0 of an RC QP, a peer's key of an RD endpoint. -/
def Qp.conn (q : Qp) (key : Nat) : Conn := (smGet (fun _ => none) q.conns key).getD Conn.init

/-- Gives a connection its value. -/
def Qp.setConn (q : Qp) (key : Nat) (c : Conn) : Qp := { q with conns := smPut q.conns key (some c) }

/-- Changes a connection of a queue pair. -/
def updConn (n key : Nat) (f : Conn → Conn) (d : Dev) : Dev := updQp n (fun q => q.setConn key (f (q.conn key))) d

/-- The key of a peer. -/
def peerKey (lid qpn : Nat) : Nat := 1 + lid * 2 ^ 24 + qpn

/-- QP states (R287). -/
def qpRts (q : Qp) : Bool := q.state == 3

/-- A responder takes requests in RTR, RTS and DRAIN (R269). -/
def qpResponds (q : Qp) : Bool := q.state == 2 || q.state == 3 || q.state == 4

/-- MTU in bytes (R258). -/
def Qp.bytes (q : Qp) : Nat := 256 * 2 ^ min q.mtu 4

/-- MATCH_EN (R287). -/
def Qp.matchEn (q : Qp) : Bool := bitOf q.perm 4

/-! ## Queue pairs of the bridge (R310) -/

/-- A window group's words (R310). -/
def grpOf (g : Nat) (d : Dev) : Staged := smGet (fun _ => Staged.init 4) d.eng.grps g

/-- A group is valid (R310). -/
def grpValid (g : Nat) (d : Dev) : Bool := wbits (grpOf g d).live 0 0 1 == 1

/-- Queue pair of a group. -/
def grpQpn (g : Nat) (d : Dev) : Nat := wbits (grpOf g d).live 1 0 24

/-- The groups that a queue pair carries. -/
def grpsOfQp (n : Nat) (d : Dev) : List Nat := (List.range 64).filter (fun g => grpValid g d && grpQpn g d == n)

/-- A queue pair belongs to the bridge (R310). -/
def brgQp (n : Nat) (d : Dev) : Bool := !(grpsOfQp n d).isEmpty

/-! ## Completion queues (R266) -/

/-- A completion queue; none while it is free. -/
def cqOf (n : Nat) (d : Dev) : Option Cq := smGet (fun _ => none) d.eng.cqs n

/-- Gives a CQN its completion queue. -/
def putCq (n : Nat) (c : Option Cq) (d : Dev) : Dev :=
  updEng (fun e => { e with cqs := smSet (fun _ => none) e.cqs n c }) d

/-- The contents of a completion queue entry beside its PHASE (R266, R343). -/
structure Cqe where
  wrId : Nat
  len : Nat
  imm : Nat
  qpn : Nat
  cop : Nat
  status : Nat
  flags : Nat
  /-- Bytes 24 to 31. -/
  src : Nat

/-- The 32 bytes of an entry (R266). -/
def Cqe.layout (c : Cqe) (phase : Bool) : List Byte :=
  leBytes 8 c.wrId ++ leBytes 4 c.len ++ leBytes 4 c.imm ++ leBytes 3 c.qpn ++ leBytes 1 c.cop ++ leBytes 1 c.status
    ++ leBytes 1 (c.flags + 128 * bnat phase) ++ leBytes 2 0 ++ leBytes 8 c.src

/-- SRC_LID and SRC_QPN of an entry. -/
def srcOf (lid qpn : Nat) : Nat := lid + 2 ^ 32 * qpn

/-- QPs that complete into a CQ and are not in ERROR; the CQ fields of the bridge's are ignored (R310). -/
def usersOf (cqn : Nat) (d : Dev) : List (Nat × Nat) :=
  d.eng.qps.filterMap (fun e => match e.2 with
    | some q => if (q.scqn == cqn || q.rcqn == cqn) && q.state != 0 && q.state != 5 && !brgQp e.1 d then some (e.1, 0) else none
    | none => none)

/-! ## The backing store (R256, R286, R289) -/

/-- Writes bytes to the memory that backs the range of a number: package memory, or host memory through the range's VH with the slice's
PASID (R256). -/
def backAt (num a : Nat) (bytes : List Byte) (d : Dev) : Dev :=
  if !rangeValid num d then d
  else if numHost num d then
    access { chan := .hostWrite, vh := numVh num d, pasid := slicePasid (numSlice num d) d, addr := a, ro := false, obj := 0,
             len := bytes.length, bytes := bytes, ring := false, owner := ⟨7, num⟩ } d
  else d |> memWrites a bytes |> healBytes a bytes.length

/-- Writes bytes at an offset of the range block of a number (R289). -/
def backWrite (num off : Nat) (bytes : List Byte) (d : Dev) : Dev := backAt num ((rangeOf (rangeIdx num) d).2 + off) bytes d

/-- A CQ context (R266). -/
def cqBytes (c : Cq) : List Byte :=
  leBytes 1 c.state ++ leBytes 1 c.log ++ leBytes 1 (bnat c.armed + 2 * bnat c.solOnly) ++ leBytes 1 0
    ++ leBytes 2 c.pi ++ leBytes 2 0 ++ leBytes 2 c.ci ++ List.replicate 6 0 ++ leBytes 8 c.base ++ List.replicate 40 0

/-- A completion queue context goes back to its block at 0x30_0000 of BASE (R289). -/
def writeBackCq (n : Nat) (d : Dev) : Dev :=
  forEach (cqOf n d).toList (fun c => backWrite n (0x300000 + 64 * (n % 4096)) (cqBytes c)) d

/-- A CQ context is used: it is in the cache of 16,384 on the QPC block, and the least recently used of a full set is written back (R288, R289;
1,024 sets by CQN, log entry 199). -/
def touchCq (n : Nat) (d : Dev) : Dev :=
  let same := d.eng.cqCached.filter (fun x => x % 1024 == n % 1024 && x != n)
  let out := if 16 ≤ same.length then same.getLast? else none
  d |> forEach out.toList writeBackCq |> updEng (fun e => { e with cqCached := n :: e.cqCached.filter (fun x => x != n && some x != out) })

/-- Writes a completion queue entry, or lets the CQ overflow: the CQ enters error, CQ_OVERFLOW is placed and every QP that
completes into it, and the QP `by_` that delivered, are to enter ERROR (R266, R353). None is written for a QP of the bridge (R310). -/
def cqe (cqn by_ : Nat) (c : Cqe) (d : Dev) : Dev :=
  match cqOf cqn d with
  | none => d
  | some q =>
    let n := numSlice cqn d
    let v := numVh cqn d
    if q.state ≠ 1 ∨ brgQp by_ d then d
    else if !bme v d then bump Reg.FUN_CQE_LOST v d
    else if (q.pi + 65536 - q.ci) % 65536 = 2 ^ q.log then
      d |> touchCq cqn |> putCq cqn (some { q with state := 2 }) |> sliceEvent n RingEv.CQ_OVERFLOW cqn 0
        |> updEng (fun e => { e with fails := e.fails ++ usersOf cqn d ++ [(by_, 0)] })
    else
      let arm := q.armed && (!q.solOnly || bitOf c.flags 1 || c.status != 0)
      d |> touchCq cqn
        |> access { chan := .cqe, vh := v, pasid := slicePasid n d, addr := q.base + 32 * (q.pi % 2 ^ q.log), ro := false,
                    obj := cqn, len := 32, bytes := c.layout q.phase, ring := true, owner := ⟨2, cqn⟩ }
        |> putCq cqn (some { q with
            pi := (q.pi + 1) % 65536
            phase := if (q.pi + 1) % 2 ^ q.log = 0 then !q.phase else q.phase
            armed := q.armed && !arm })
        |> onlyIf arm (sliceEvent n RingEv.CQ_EVENT cqn 0)

/-! ## Send queue entries (R265) -/

/-- The number in bytes `a` to `a + n - 1` of a little-endian entry. -/
def fieldLe (e : List Byte) (a n : Nat) : Nat := ofLe ((e.drop a).take n)

/-- COP of a send queue entry (R266); the spec states none for an invalid WOP: a free value (log entry 22). -/
def copOf (wop : Nat) (d : Dev) : Nat :=
  if wop ≤ 1 then 0 else if wop ≤ 3 then 1 else if wop = 4 then 2 else if wop ≤ 8 then 3 else if wop = 9 then 4
  else if wop = 15 then 5 else free 8 d

/-- Slots that an entry consumes (R265). -/
def slotsOf (slot : List Byte) : Nat := if fieldLe slot 0 1 = 8 then 2 else 1

/-- The entries of posted slots: the first slot of each. -/
def entriesOf : Nat → List (List Byte) → List (List Byte)
  | 0, _ => []
  | _, [] => []
  | k + 1, s :: rest => s :: entriesOf k (rest.drop (slotsOf s - 1))

/-- The completion of a send queue entry that was not started. -/
def flushSlot (n : Nat) (q : Qp) (status : Nat) (slot : List Byte) (d : Dev) : Dev :=
  let wop := fieldLe slot 0 1
  let d1 := cqe q.scqn n ⟨fieldLe slot 8 8, 0, 0, n, copOf wop d, status, 0, 0⟩ d
  if wop ≤ 9 ∨ wop = 15 then d1 else takeFree d1

/-- The completion of a receive entry that took no message. -/
def flushRecv (n : Nat) (q : Qp) (status : Nat) (r : RqEntry) (d : Dev) : Dev :=
  cqe q.rcqn n ⟨r.wrId, 0, 0, n, 8, status, 0, 0⟩ d

/-- A receive entry as software posts it (R265). -/
def recvOf (e : List Byte) : RqEntry := ⟨fieldLe e 0 8, fieldLe e 8 8, fieldLe e 16 4, fieldLe e 20 4⟩

end Sys2Proof.Machine
end

