-- ==== Sys2Proof/Machine/BrgOps.lean ====
section
/-!
DEFINITION. Shared operations of the load/store bridge (ch. 10): window and group entries, the error latch (R318), completions to the
host (R312), and what a group does when its queue pair stops (R319).
-/

namespace Sys2Proof.Machine

/-- A reach-through window's words (R309). -/
def bwinOf (w : Nat) (d : Dev) : Staged := smGet (fun _ => Staged.init 8) d.eng.brgWins w

/-- A window beside its words: no latch, fence complete, semaphore free. -/
def BrgWin.init : BrgWin := ⟨false, 0, 0, false, none, []⟩

/-- A window beside its words. -/
def bw (w : Nat) (d : Dev) : BrgWin := smGet (fun _ => BrgWin.init) d.eng.brg w

/-- Changes a window beside its words. -/
def updBw (w : Nat) (f : BrgWin → BrgWin) (d : Dev) : Dev :=
  updEng (fun e => { e with brg := smSet (fun _ => BrgWin.init) e.brg w (f (bw w d)) }) d

/-- Fields of a window's live entry (R309). -/
def bwValid (w : Nat) (d : Dev) : Bool := wbits (bwinOf w d).live 0 0 1 == 1
/-- Permission bit of a window: 1 read, 2 write, 3 atomic, 4 lock, 5 prefetch. -/
def bwPerm (w k : Nat) (d : Dev) : Bool := wbits (bwinOf w d).live 0 k 1 == 1
/-- Group of a window. -/
def bwGrp (w : Nat) (d : Dev) : Nat := wbits (bwinOf w d).live 0 6 6
/-- Bytes of a window. -/
def bwBytes (w : Nat) (d : Dev) : Nat := 2 ^ wbits (bwinOf w d).live 0 12 5
/-- Outstanding reads a window may hold. -/
def bwTags (w : Nat) (d : Dev) : Nat := wbits (bwinOf w d).live 0 24 8 + 1
/-- Aperture offset of a window. -/
def bwOfs (w : Nat) (d : Dev) : Nat := wpair (bwinOf w d).live 2 % 2 ^ 40
/-- Remote address of a window's first byte. -/
def bwRem (w : Nat) (d : Dev) : Nat := wpair (bwinOf w d).live 4
/-- Remote key of a window. -/
def bwKey (w : Nat) (d : Dev) : Nat := (bwinOf w d).live.getD 6 0

/-- VH of a group's windows. -/
def grpVh (g : Nat) (d : Dev) : Nat := wbits (grpOf g d).live 0 1 4
/-- Owning slice of a group. -/
def grpSlice (g : Nat) (d : Dev) : Nat := wbits (grpOf g d).live 0 5 12
/-- Write cells a group may hold. -/
def grpCells (g : Nat) (d : Dev) : Nat := wbits (grpOf g d).live 2 0 13

/-- Started requests of a queue pair. -/
def startedOf (n : Nat) (d : Dev) : List Wqe := match qpOf n d with | some q => q.started | none => []

/-- Cells of the writes of a queue pair that have not retired (R311). -/
def writeCells (l : List Wqe) : Nat :=
  (l.map (fun w => match w.kind with | .brgWrite _ c => c | _ => 0)).sum

/-- Cells that a group's writes hold. -/
def grpHeld (g : Nat) (d : Dev) : Nat := writeCells (startedOf (grpQpn g d) d)

/-- The ids of unretired writes of a queue pair. -/
def writeIds (l : List Wqe) : List Nat :=
  l.filterMap (fun w => match w.kind with | .brgWrite _ _ => some w.id | _ => none)

/-- The windows with a write outstanding on a queue pair. -/
def writeWins (l : List Wqe) : List Nat :=
  (l.filterMap (fun w => match w.kind with | .brgWrite x _ => some x | _ => none)).eraseDups

/-- Latches a window unless it is latched (R318); `told` places WIN_WRITE_ERR. -/
def latchWin (w cause psn : Nat) (told : Bool) (d : Dev) : Dev :=
  if (bw w d).latch then d else
  d |> updBw w (fun b => { b with latch := true, cause := cause, psn := psn })
    |> raise Ev.WIN_LATCHED 0
    |> onlyIf told (sliceEvent (grpSlice (bwGrp w d) d) RingEv.WIN_WRITE_ERR w psn)

/-! ## Completions to the host -/

/-- Max_Payload_Size of a function in bytes: Device Control [7:5] (R425). -/
def maxPayload (v : Nat) (d : Dev) : Nat := 128 * 2 ^ min (bitsOf (cfgByte v 0x48 d).toNat 5 3) 2

/-- The pieces of a completion, each ending at a multiple of Max_Payload_Size (R312, log entry 23). -/
def cplPieces (mps a : Nat) : Nat → List Byte → List (Nat × List Byte)
  | 0, _ => []
  | _, [] => []
  | k + 1, bs =>
    let m := mps - a % mps
    (a, bs.take m) :: cplPieces mps (a + m) k (bs.drop m)

/-- A completion without data: function, kind 2, requester, tag, status (1 UR, 4 CA), address. -/
def cplStatus (r : BrgRead) (status : Nat) (d : Dev) : Dev :=
  d |> emit .tlp [256 + r.vh, 2, r.req, r.htag, status, r.addr] []
    |> onlyIf (status == 4) (bump Reg.BRG_CA_SENT 0) |> onlyIf (status == 1) (bump Reg.BRG_UR_SENT 0)

/-- Successful completions with data, in address order. -/
def cplData (r : BrgRead) (data : List Byte) (d : Dev) : Dev :=
  if data.isEmpty then emit .tlp [256 + r.vh, 2, r.req, r.htag, 0, r.addr] [] d
  else forEach (cplPieces (maxPayload r.vh d) r.addr data.length data)
    (fun x => emit .tlp [256 + r.vh, 2, r.req, r.htag, 0, x.1] x.2) d

/-- A read leaves the bridge. -/
def dropBrgRead (id : Nat) (d : Dev) : Dev :=
  updEng (fun e => { e with brgReads := e.brgReads.filter (fun r => r.id != id) }) d

/-- A read of the bridge ends with Completer Abort. -/
def abortBrgRead (r : BrgRead) (d : Dev) : Dev := d |> cplStatus r 4 |> dropBrgRead r.id

/-- A read or AtomicOp of the bridge ends with its data; a read of a window that is latched by then with Completer Abort (R319). -/
def endBrgRead (r : BrgRead) (data : List Byte) (d : Dev) : Dev :=
  if (bw r.win d).latch ∧ r.kind ≠ 1 then abortBrgRead r d else d |> cplData r data |> dropBrgRead r.id

/-- A block holds byte `a` of a window of a group, for a read: one in the store, or one that the read awaited as it was discarded. -/
def PfBlock.serves (b : PfBlock) (g w rid a : Nat) : Bool :=
  b.grp == g && b.win == w && decide (b.addr ≤ a ∧ a < b.addr + b.len)
    && (match b.lateFor with | none => true | some l => l.contains rid)

/-- The bytes of a read from the blocks held for it; none where one is missing (R314). -/
def heldBytes (r : BrgRead) (d : Dev) : Option (List Byte) :=
  (List.range r.len).foldr (fun i acc =>
    match acc, d.eng.pf.find? (fun b => b.serves r.grp r.win r.id (r.addr + i)) with
    | some l, some b => (b.data.bind (fun x => x[r.addr + i - b.addr]?)).map (fun y => y :: l)
    | _, _ => none) (some [])

/-- The bytes of a read that lies wholly within one held block (R314). -/
def hitBytes (r : BrgRead) (d : Dev) : Option (List Byte) :=
  (d.eng.pf.find? (fun b => b.serves r.grp r.win r.id r.addr && b.serves r.grp r.win r.id (r.addr + r.len - 1))).bind
    (fun b => b.data.map (fun x => (x.drop (r.addr - b.addr)).take r.len))

/-- A block shares bytes with a read. -/
def PfBlock.touches (b : PfBlock) (r : BrgRead) : Bool :=
  b.grp == r.grp && b.win == r.win && decide (b.addr < r.addr + r.len ∧ r.addr < b.addr + b.len)

/-- Marks the blocks that a read consumed, which become the most recently used. -/
def useBlocks (r : BrgRead) (d : Dev) : Dev :=
  updEng (fun e => { e with pf := e.pf.filter (fun b => !b.touches r)
    ++ (e.pf.filter (fun b => b.touches r)).map (fun b => { b with used := true }) }) d

/-- Discarded blocks that no read awaits any more are gone. -/
def clearLate (d : Dev) : Dev :=
  updEng (fun e => { e with pf := e.pf.filter (fun b => match b.lateFor with
    | some l => e.brgReads.any (fun r => r.state == 4 && l.contains r.id)
    | none => true) }) d

/-- Reads that wait for prefetched blocks are answered once all their bytes are held and every earlier write of the group has retired
(R314, R317). -/
def readyPfReads (d : Dev) : Dev :=
  d |> forEach (d.eng.brgReads.filter (fun r => r.state == 4 && r.behind.isEmpty)) (fun r d =>
        match heldBytes r d with
        | some l => d |> useBlocks r |> endBrgRead r l
        | none => d)
    |> clearLate

/-- Reads that wait only for earlier writes complete once these have retired (R312, R314). -/
def readyBrgReads (d : Dev) : Dev :=
  forEach (d.eng.brgReads.filter (fun r => r.state == 3 && r.behind.isEmpty)) (fun r => endBrgRead r r.data) d

/-- A write of a group's queue pair has retired (R311). -/
def retireWrite (id : Nat) (grps : List Nat) (d : Dev) : Dev :=
  d |> updEng (fun e => { e with brgReads := e.brgReads.map (fun r =>
        if grps.contains r.grp then { r with behind := r.behind.filter (fun x => x != id) } else r) })
    |> readyBrgReads |> readyPfReads

/-- Blocks of a test leave the prefetch store; unused ones are counted (R314). One whose data a read still awaits stays for that
read alone. -/
def dropBlocks (sel : PfBlock → Bool) (d : Dev) : Dev :=
  d |> addI Reg.BRG_PF_DISCARD 0 0 (d.eng.pf.filter (fun b => b.lateFor.isNone && sel b && !b.used)).length
    |> updEng (fun e => { e with pf := e.pf.map (fun b =>
        if b.lateFor.isNone && sel b then
          { b with lateFor := some ((e.brgReads.filter (fun r => r.state == 4 && b.touches r)).map (fun r => r.id)) }
        else b) })
    |> clearLate

/-- The writes of a queue pair that ends are retired for every fence (R308). -/
def forgetWrites (n : Nat) (d : Dev) : Dev :=
  updEng (fun e => { e with brg := e.brg.map (fun x => (x.1, { x.2 with prior := x.2.prior.filter (fun y => y.1 != n) })) }) d

/-- The queue pair of a group leaves RTS: windows with writes outstanding latch GROUP_DOWN, reads complete CA, prefetched blocks are
discarded (R314, R318, R319). -/
def groupsDown (n : Nat) (d : Dev) : Dev :=
  let grps := grpsOfQp n d
  if grps.isEmpty then d else
  d |> forEach (writeWins (startedOf n d)) (fun w => latchWin w 5 0 false)
    |> forEach (d.eng.brgReads.filter (fun r => grps.contains r.grp)) abortBrgRead
    |> dropBlocks (fun b => grps.contains b.grp)

end Sys2Proof.Machine
end

