-- ==== Sys2Proof/Machine/MatchOps.lean ====
section
/-!
DEFINITION. Shared operations of message matching (ch. 11): quadrants and contexts (R334, R335), the two lists with their chains,
stamps and overflow (R344 to R347), bounce slots (R349) and match completions (R343).
-/

namespace Sys2Proof.Machine

/-- ANY_SOURCE (R333). -/
def anySource : Nat := 0xFFFFFFFF

/-- The quadrant of a context (R334). -/
def quadOf (slice ctxid : Nat) : Nat :=
  let x := [bitsOf ctxid 0 8, bitsOf ctxid 8 8, bitsOf ctxid 16 8, bitsOf ctxid 24 8, bitsOf slice 0 8, bitsOf slice 8 4]
  (x.foldl Nat.xor 0) % 4

/-- A quadrant. -/
def quad (k : Nat) (d : Dev) : Quad := smGet (fun _ => Quad.init) d.eng.quads k

/-- Changes a quadrant. -/
def updQuad (k : Nat) (f : Quad → Quad) (d : Dev) : Dev :=
  updEng (fun e => { e with quads := smSet (fun _ => Quad.init) e.quads k (f (quad k d)) }) d

/-- A context entry of a quadrant; none while it is not valid. -/
def ctxOf (k i : Nat) (d : Dev) : Option MCtx := smGet (fun _ => none) (quad k d).ctxs i

/-- Gives a context entry its value. -/
def putCtx (k i : Nat) (c : Option MCtx) (d : Dev) : Dev :=
  updQuad k (fun q => { q with ctxs := smSet (fun _ => none) q.ctxs i c }) d

/-- The index of the valid context of a slice and CTXID (R333). -/
def findCtx (k slice ctxid : Nat) (d : Dev) : Option Nat :=
  (((quad k d).ctxs.find? (fun e => match e.2 with
    | some c => c.slice == slice && c.ctxid == ctxid
    | none => false))).map (fun e => e.1)

/-- The tag test (R333). -/
def tagTest (msg recv ign : Nat) : Bool := Nat.land (Nat.xor msg recv) (2 ^ 64 - 1 - ign % 2 ^ 64) == 0

/-- Entries that a list holds on-die (R344, R347). -/
def onDie : Nat := 65536

/-- Entries that a list holds in all (R344). -/
def listRoom : Nat := 65536 + 2097152

/-- The unexpected list: entries that no POST has taken. -/
def uxList (q : Quad) : List Unexp := q.unexp.filter (fun u => u.taken.isNone)

/-- Bounce pool units in use (R349). -/
def poolUsed (q : Quad) : Nat := (q.unexp.map (fun u => u.units)).sum

/-- Bounce pool units of a quadrant (R354). -/
def poolSize (k : Nat) (d : Dev) : Nat := 2 ^ rd Reg.MTE_UX_POOL_SIZE k d / 256

/-- Free bounce pool. -/
def poolFree (k : Nat) (d : Dev) : Nat := poolSize k d - poolUsed (quad k d)

/-- Brings the list counts of the MTE page up to date (R354); UX_POOL_LOW is raised when the pool fell below its level. -/
def countQuad (k before : Nat) (d : Dev) : Dev :=
  let q := quad k d
  let low := rd Reg.MTE_UX_POOL_LOW k d
  d |> wr Reg.MTE_PRQ_ONDIE k (min q.posted.length onDie) |> wr Reg.MTE_PRQ_OVF k (q.posted.length - onDie)
    |> wr Reg.MTE_UX_ONDIE k (min (uxList q).length onDie) |> wr Reg.MTE_UX_OVF k ((uxList q).length - onDie)
    |> wr Reg.MTE_UX_POOL_FREE k (poolFree k d)
    |> wr Reg.MTE_CTX_VALID k q.ctxs.length
    |> onlyIf (decide (low ≤ before ∧ poolFree k d < low)) (raise Ev.UX_POOL_LOW k)

/-! ## Searches (R345, R346) -/

/-- The outcome of a search: the position in the list, entries examined on-die and in all, and whether it must read overflow. -/
structure Search where
  found : Option Nat
  examined : List Nat
  overflow : Bool
deriving DecidableEq, Repr

/-- The positions of a chain's entries, those up to the first that passes, and that one. -/
def chainScan {α : Type} (l : List α) (chain pass : α → Bool) : List Nat × Option Nat :=
  let pos := (List.range l.length).filter (fun i => match l[i]? with | some x => chain x | none => false)
  match pos.find? (fun i => match l[i]? with | some x => pass x | none => false) with
  | some i => (pos.filter (fun j => j ≤ i), some i)
  | none => (pos, none)

/-- A search over chains takes the older of what they hold; overflow is read where no on-die entry passes (R346, R347). -/
def search (scans : List (List Nat × Option Nat)) : Search :=
  let hits := scans.filterMap (fun s => s.2)
  let best := hits.foldl (fun b i => match b with | some j => some (min i j) | none => some i) none
  { found := best
    examined := scans.map (fun s => s.1.length)
    overflow := (match best with | some i => decide (onDie ≤ i) | none => scans.any (fun s => s.1.any (fun i => decide (onDie ≤ i)))) }

/-- An arrival's search of the posted receives: its source chain and the wildcard chain (R346). -/
def searchPosted (q : Quad) (ctx rank tag : Nat) : Search :=
  let pass := fun p : Posted => tagTest tag p.tag p.ign
  search [chainScan q.posted (fun p => p.ctx == ctx && p.rank == rank && p.rank != anySource) pass,
          chainScan q.posted (fun p => p.ctx == ctx && p.rank == anySource) pass]

/-- A post's search of the unexpected messages: the context chain for ANY_SOURCE, else the source chain (R346). -/
def searchUx (q : Quad) (ctx rank tag ign : Nat) : Search :=
  search [chainScan (uxList q) (fun u => u.ctx == ctx && (rank == anySource || u.rank == rank))
    (fun u => tagTest u.tag tag ign)]

/-- Counts a decision (R350, R354): one operation and one for each further 8 entries examined on-die. -/
def countSearch (k : Nat) (r : Search) (d : Dev) : Dev :=
  let extra := (r.examined.map (fun n => (min n onDie - 8 + 7) / 8)).sum
  let most := r.examined.sum
  d |> addI Reg.MTE_MATCH_OPS k 0 (1 + extra)
    |> onlyIf r.found.isSome (if r.overflow then bump Reg.MTE_HIT_OVF k else bump Reg.MTE_HIT_ONDIE k)
    |> wr Reg.MTE_SCAN_HWM k (max (rd Reg.MTE_SCAN_HWM k d) (min most 65535))

/-- Another operation of the context waits for overflow (R348). -/
def ctxWaits (k i : Nat) (d : Dev) : Bool :=
  (quad k d).waits.any (fun w => match w with | .arrival c _ => c == i | .post c _ _ => c == i)

/-! ## Completions (R343) -/

/-- A match completion: COP 11 RECV_MATCH or 12 PROBE, with its flags [2] TRUNC, [3] RNDV, [4] from the unexpected list. -/
def matchCqe (k ctx qpn wrId len rank cop status flags tag : Nat) (d : Dev) : Dev :=
  match ctxOf k ctx d with
  | some c => cqe c.rcqn qpn ⟨wrId, len, rank, qpn, cop, status, flags, tag⟩ d
  | none => d

/-- Flags of a completion (R266, R343). -/
def mflags (sol trunc rndv fromUx : Bool) : Nat :=
  2 * bnat sol + 4 * bnat trunc + 8 * bnat rndv + 16 * bnat fromUx

/-- A message of `mlen` bytes has been placed into a receive: OK, or LOC_LEN with TRUNC where it was longer (R349). -/
def completeRecv (k qpn : Nat) (p : Posted) (rank tag mlen : Nat) (sol rndv fromUx : Bool) (d : Dev) : Dev :=
  let trunc := decide (p.len < mlen)
  d |> onlyIf trunc (bump Reg.MTE_TRUNC_CNT k)
    |> matchCqe k p.ctx qpn p.wrId (min mlen p.len) rank 11 (if trunc then 1 else 0) (mflags sol trunc rndv fromUx) tag

/-- Operations in progress of a slice: rendezvous and messages matched or arriving (R440, R448). -/
def matchActive (n : Nat) (d : Dev) : Nat :=
  (d.eng.quads.map (fun kq =>
    let mine := fun c => match smGet (fun _ => none) kq.2.ctxs c with | some x => x.slice == n | none => false
    (kq.2.rndvs.filter (fun r => mine r.post.ctx)).length
      + (kq.2.unexp.filter (fun u => u.taken.isSome && mine u.ctx)).length
      + (kq.2.waits.filter (fun w => match w with | .arrival c _ => mine c | .post c _ _ => mine c)).length)).sum

end Sys2Proof.Machine
end

