-- ==== Sys2Proof/Machine/Transit.lean ====
section
/-!
DEFINITION. A packet's way through the core: metering (R207 to R211), admission of its cells, mirror copies (R181 to R183),
descriptors to the straits and into egress queues (R157 to R162), and how a packet ends (R178, R179).
-/

namespace Sys2Proof.Machine

/-! ## Meters -/

/-- A meter (R208). -/
def meterOf (m : Nat) (d : Dev) : Meter := smGet (fun _ => Meter.init) d.net.meters m

/-- Gives a meter a value. -/
def putMeter (m : Nat) (x : Meter) (d : Dev) : Dev :=
  { d with net := { d.net with meters := smSet (fun _ => Meter.init) d.net.meters m x } }

/-- The buckets filled up to now, in 1/8000 byte (R208). -/
def Meter.fill (x : Meter) (now : Nat) : Meter :=
  { x with
    tc := min (x.cbs * 8000 : Int) (x.tc + (now - x.tAt) * bitsOf x.w0 0 22)
    tp := min (x.pbs * 8000 : Int) (x.tp + (now - x.tAt) * x.pir)
    tAt := now }

/-- The colour of a packet of `b` bytes that came with colour `pre` (R208). -/
def Meter.colour (x : Meter) (pre b : Nat) : Nat × Meter :=
  if pre = 2 ∨ x.tp < b * 8000 then (2, { x with red := (x.red + 1) % 2 ^ 32 })
  else if pre = 1 ∨ x.tc < b * 8000 then (1, { x with tp := x.tp - b * 8000, yellow := (x.yellow + 1) % 2 ^ 32 })
  else (0, { x with tp := x.tp - b * 8000, tc := x.tc - b * 8000, green := (x.green + 1) % 2 ^ 32 })

/-- The meter that an ingress port binds for a traffic class, if any (R207). -/
def boundMeter (p tc : Nat) (d : Dev) : Option Nat :=
  match rdI Reg.MTR_MODE 0 p d with
  | 1 => some (rdI Reg.MTR_BASE 0 p d)
  | 2 => some (rdI Reg.MTR_BASE 0 p d + tc)
  | _ => none

/-- The meter of an ingress port decides on `b` bytes of a traffic class that came with colour `pre`: the colour and the congestion
mark, or none where the colour's action drops the packet (R207 to R210). -/
def meterTake (p tc pre b : Nat) (d : Dev) : Option (Nat × Bool) × Dev :=
  match boundMeter p tc d with
  | none => (some (0, false), d)
  | some m =>
    let x := meterOf m d
    if bitOf x.w0 23 then
      let (c, y) := (x.fill d.th.localNs).colour (if bitOf x.w0 22 then pre else 0) b
      let act := if c = 1 then bitsOf x.w0 24 2 else if c = 2 then bitsOf x.w0 26 2 else 0
      if act = 2 then (none, putMeter m { y with drop := (y.drop + 1) % 2 ^ 32 } d)
      else (some (c, act == 1), putMeter m y d)
    else (some (if bitOf x.w0 28 then pre else 0, false), d)

/-- Meters a packet at its ingress port, dropped before admission where the meter says so (R207 to R210). -/
def meterPkt (id p tc pre b : Nat) (d : Dev) : Dev :=
  let r := meterTake p tc pre b d
  match r.1 with
  | none => dropPkt id r.2
  | some (c, m) => updPkt id (fun q => { q with colour := c, mark := m }) r.2

/-! ## Mirroring -/

/-- The packet's bytes from MATCH_OFS on, ANDed with MATCH_MASK, equal MATCH_VAL (R181). -/
def mirrorMatch (k : Nat) (bytes : List Byte) (d : Dev) : Bool :=
  let ofs := rdI Reg.MIR_MATCH_OFS 0 k d
  let val := leBytes 4 (rdI Reg.MIR_MATCH_VAL_0 0 k d) ++ leBytes 4 (rdI Reg.MIR_MATCH_VAL_1 0 k d)
    ++ leBytes 4 (rdI Reg.MIR_MATCH_VAL_2 0 k d) ++ leBytes 4 (rdI Reg.MIR_MATCH_VAL_3 0 k d)
  let mask := leBytes 4 (rdI Reg.MIR_MATCH_MASK_0 0 k d) ++ leBytes 4 (rdI Reg.MIR_MATCH_MASK_1 0 k d)
    ++ leBytes 4 (rdI Reg.MIR_MATCH_MASK_2 0 k d) ++ leBytes 4 (rdI Reg.MIR_MATCH_MASK_3 0 k d)
  decide (ofs + 16 ≤ bytes.length) &&
    (List.range 16).all (fun i => bytes.getD (ofs + i) 0 &&& mask.getD i 0 == val.getD i 0)

/-- A session selects a packet received (`egress` false) or sent on a port (R181). A mirror copy is not matched again (DESIGN CHOICE, log entry
16). -/
def mirrorSelects (k p : Nat) (egress : Bool) (q : Packet) (d : Dev) : Bool :=
  rdI Reg.MIR_EN 0 k d == 1 &&
  (match rdI Reg.MIR_SRC_KIND 0 k d with
   | 0 => !egress && decide (p < 144) && p == rdI Reg.MIR_SRC_PORT 0 k d
   | 1 => egress && decide (p < 144) && p == rdI Reg.MIR_SRC_PORT 0 k d
   | 2 => decide (p < 144) && p == rdI Reg.MIR_SRC_PORT 0 k d
   | _ => !egress && q.copyOf.isNone && mirrorMatch k q.bytes d)

/-- A session's settings as it marks a packet (R184). -/
def markOf (k : Nat) (egress : Bool) (d : Dev) : Mark :=
  { session := k, egress := egress, kind := rdI Reg.MIR_DEST_KIND 0 k d, port := rdI Reg.MIR_DST_PORT 0 k d
    loc := rdI Reg.MIR_DST_LOC 0 k d, queue := rdI Reg.MIR_Q 0 k d, trunc := rdI Reg.MIR_TRUNC 0 k d
    base := rd2 Reg.MIR_RING_BASE_LO Reg.MIR_RING_BASE_HI 0 k d, size := 2 ^ rdI Reg.MIR_RING_SIZE 0 k d
    wrap := rdI Reg.MIR_RING_WRAP 0 k d == 1 }

/-- Mirror session k's sample count (R181). -/
def putSample (k c : Nat) (d : Dev) : Dev := { d with net := { d.net with sample := smPut d.net.sample k c } }

/-- A session judges a packet on reception, or for its egress port: one in SAMPLE of those it selects sets its MIRROR bit (R181). -/
def judgeSession (id k p : Nat) (egress : Bool) (d : Dev) : Dev :=
  match pktOf id d with
  | none => d
  | some q =>
    if mirrorSelects k p egress q d then
      let n := max (rdI Reg.MIR_SAMPLE 0 k d) 1
      let c := smGet (fun _ => 0) d.net.sample k
      d |> putSample k ((c + 1) % n) |> onlyIf (c % n == 0)
            (updPkt id (fun r => { r with mirror := setBit r.mirror k, marks := r.marks ++ [markOf k egress d] }))
    else d

/-- The bytes that a session looks at are there (R181). -/
def mayJudge (k : Nat) (q : Packet) (d : Dev) : Bool :=
  rdI Reg.MIR_EN 0 k d == 0 || rdI Reg.MIR_SRC_KIND 0 k d != 3 || q.tail || decide (rdI Reg.MIR_MATCH_OFS 0 k d + 16 ≤ q.bytes.length)

/-- The sessions judge a packet on reception, each once (R181). -/
def markIn (id : Nat) (d : Dev) : Dev :=
  forEach (List.range 8) (fun k d =>
    match pktOf id d with
    | some q => onlyIf (!bitOf q.seen k && mayJudge k q d)
        (fun d => d |> judgeSession id k q.inPort false |> updPkt id (fun r => { r with seen := setBit r.seen k })) d
    | none => d) d

/-- The sessions judge a packet for the egress port it has; those of a port it had before do not stand (R181, R247). -/
def markOut (id : Nat) (d : Dev) : Dev :=
  match pktOf id d with
  | some q => onlyIf (decide (q.eg < 144 ∧ q.outFor ≠ q.eg))
      (fun d => d |> updPkt id (fun r => { r with outFor := q.eg, marks := r.marks.filter (fun m => !m.egress) })
        |> forEach (List.range 8) (fun k => judgeSession id k q.eg true)) d
  | none => d

/-- A copy is dropped: DROPS, and MIR_COPY_DROP once per 1 ms and session (R182). -/
def dropCopy (k : Nat) (d : Dev) : Dev :=
  d |> addI Reg.MIR_DROPS 0 k 1
    |> (fun d =>
      match smFind d.net.dropAt k with
      | some t => if d.th.localNs < t + 1000000 then d
          else { d with net := { d.net with dropAt := smPut d.net.dropAt k d.th.localNs } } |> raise Ev.MIR_COPY_DROP 0
      | none => { d with net := { d.net with dropAt := smPut d.net.dropAt k d.th.localNs } } |> raise Ev.MIR_COPY_DROP 0)

/-- Cells that a number of bytes occupies (R155). -/
def cellsFor (n : Nat) : Nat := (n + 255) / 256

/-- The packets whose cells copies have still to read. -/
def copySources (d : Dev) : List Nat := (d.net.copies.map (fun c => c.src) ++ d.net.pkts.filterMap (fun q => q.copyOf)).eraseDups

/-- Cells that only copies would hold once their packets have left, with a copy of `n` cells of packet `id` among them (R182, log entry 16). -/
def copyCells (id n : Nat) (d : Dev) : Nat :=
  ((copySources d).map (fun s => if s = id then max (copiesNeed s d) n else copiesNeed s d)).sum
    + (if (copySources d).contains id then 0 else n)

/-- A capture record (R183): its head of 16 bytes, the data, and zeros to a multiple of 64. -/
def mirrorRecord (c : MirCopy) (seq : Nat) : List Byte :=
  let flags := c.session + 8 * bnat c.egress + 16 * bnat (decide (c.bytes.length < c.orig)) + 32 * bnat c.ended
    + 128 * bnat c.time.unset
  let body := leBytes 8 c.time.ns ++ leBytes 2 c.orig ++ leBytes 2 c.bytes.length ++ leBytes 1 flags ++ leBytes 1 c.port
    ++ leBytes 2 seq ++ c.bytes
  body ++ List.replicate ((64 - body.length % 64) % 64) 0

/-! ## Cells of a packet -/

/-- Writes the cells that the bytes received so far fill or begin; false where one was refused (R173). -/
def admitCells (id : Nat) (d : Dev) : Dev :=
  match pktOf id d with
  | none => d
  | some q0 =>
    forEach (List.range (cellsFor q0.bytes.length - q0.cells.length)) (fun _ d =>
      match pktOf id d with
      | none => d
      | some q =>
        if q.eg = 255 then writeCell q 2 d else
        let (c, dt) := queueAdmit q d
        let d1 := onlyIf (!precRefuses q d)
          (fun d => d |> onlyIf c.isNone (bump Reg.HBR_ADM_REFUSE 0) |> onlyIf dt (bump Reg.HBR_DT_REFUSE 0)) d
        match cellCharge q d with
        | .inl ch => writeCell q ch d1
        | .inr hd =>
          let i := inIsland q.inPort
          d1 |> (if hd then (fun d => d |> bump Reg.ISL_DROP_HDRM i |> raise Ev.HDRM_DROP i)
                 else (fun d => d |> bump Reg.ISL_DROP_ADM i
                    |> onlyIf (decide (q.inPort < 144) && pers (q.inPort / 8) d == 3) (bump Reg.ETH_DROP_LOSSY q.inPort)))
            |> (if q.begun then updPkt id (fun r => { r with tail := true, poison := true }) else dropPkt id)) d

/-- Cells of a packet whose descriptors the ingress island may offer (R162). -/
def offerable (q : Packet) : Nat :=
  if q.eg = 255 then 0
  else if q.tail then q.cells.length
  else if q.store then 0
  else min q.cells.length ((q.bytes.length + 192) / 256)

/-- EG_PORT of a descriptor (R157). -/
def egPortOf (eg : Nat) : Nat := if eg < 144 then eg else if eg < 157 then eg - 144 else eg - 157

/-- The priority of a frame at an Ethernet egress: its own where it came as a frame, else that of the VLAN tag it carries. -/
def egressPrio (p : Nat) (k : Packet) (d : Dev) : Nat :=
  let fr := if k.bare then k.bytes else k.bytes.drop 20
  let et := ofBe ((fr.drop 12).take 2)
  if et = 0x8100 ∨ et = 0x88A8 then (fr.getD 14 0).toNat / 32 else rd Reg.ETH_DEF_PRIO p d

/-- VLANE of a descriptor: the virtual lane of an SFL egress, the priority of an Ethernet egress, else 0 (R157). -/
def vlaneOf (q : Packet) (d : Dev) : Nat :=
  if q.eg < 144 ∧ pers (q.eg / 8) d = 2 then q.vlane
  else if q.eg < 144 ∧ pers (q.eg / 8) d = 3 then egressPrio q.eg q d else 0

/-- The level of a descriptor: 0 URGENT for queues 0 to 2 and engine intake, 1 NORMAL (R160). -/
def levelOf (q : Packet) : Nat := if q.queue ≤ 2 ∨ 144 ≤ q.eg then 0 else 1

/-- The descriptor of a packet's `k`-th cell (R157). -/
def descOf (q : Packet) (k : Nat) (d : Dev) : Desc :=
  let c := q.cells.getD k ⟨0, 0, 0⟩
  let last := q.tail && decide (q.cells.length ≤ k + 1)
  { pkt := q.id, cell := k, level := levelOf q, seg := c.seg, num := c.num, egIsl := egIsland q.eg, egPort := egPortOf q.eg
    queue := if q.eg < 144 then q.queue else 0, vlane := vlaneOf q d, head := k == 0, tail := last, ct := !q.tail, poison := q.poison
    colour := q.colour, len := if last then (q.bytes.length - 256 * k) % 256 else 0, sseq := none, mirror := q.mirror
    inIsl := inIsland q.inPort }

/-- The 96 bits of a descriptor as it is offered, LEN minus 1, its ECC a code that the spec does not give (R157, log entry 191). -/
def Desc.word (x : Desc) : Nat :=
  let hi := bitsOf x.seg 0 4 * 2 ^ 92 + bitsOf x.num 0 15 * 2 ^ 77 + bitsOf x.egIsl 0 5 * 2 ^ 72 + bitsOf x.egPort 0 8 * 2 ^ 64
    + bitsOf x.queue 0 5 * 2 ^ 59 + bitsOf x.vlane 0 4 * 2 ^ 55 + bnat x.head * 2 ^ 54 + bnat x.tail * 2 ^ 53 + bnat x.ct * 2 ^ 52
    + bnat x.poison * 2 ^ 51 + bitsOf x.colour 0 2 * 2 ^ 49 + (x.len + 255) % 256 * 2 ^ 41 + (x.sseq.getD 0) % 4096 * 2 ^ 29
    + bitsOf x.mirror 0 8 * 2 ^ 21 + bitsOf x.inIsl 0 5 * 2 ^ 16
  hi + (Config.descEcc hi).toNat

/-- Hands the descriptors of offerable cells to the ingress island's queues (R160, R162), once the mirror sessions have judged the packet. -/
def makeDescs (id : Nat) (d : Dev) : Dev :=
  let d1 := d |> markIn id |> markOut id
  match pktOf id d1 with
  | none => d1
  | some q =>
    let n := offerable q
    { d1 with net := { d1.net with waiting := d1.net.waiting ++ ((List.range n).drop q.made).map (fun k => descOf q k d1) } }
      |> updPkt id (fun r => { r with made := max r.made n })

/-- A packet leaves the core: its cells are read and freed (R156). -/
def letGo (id : Nat) (d : Dev) : Dev :=
  match pktOf id d with
  | some q => d |> forEach (q.cells.drop q.freed) (countRead (egIsland q.eg)) |> dropPkt id
  | none => d

/-- A consumer is handed a packet (R226). -/
def handPkt (q : Packet) (d : Dev) : Dev := emit .packet [q.eg, q.queue, q.id, q.bytes.length, bnat q.poison, q.delVh] q.bytes d

/-- Where a packet stands at its transport engine. -/
def putStage (id k : Nat) (d : Dev) : Dev :=
  { d with net := { d.net with atEngine := d.net.atEngine.filter (fun x => x.1 != id) ++ [(id, k)] } }

/-- Entries of an engine's miss list. -/
def missCount (t : Nat) (d : Dev) : Nat := (d.eng.parked.filter (fun x => !x.lagoon && x.qpn % 8 == t)).length

/-- The miss list of an engine is full: it takes no further VC1 packets (R291). -/
def missFull (t : Nat) (d : Dev) : Bool := decide (4096 ≤ missCount t d)

/-- A VC1 packet finds its engine taking none; an episode of withheld credit is counted (R291, R296). -/
def turnAway (t : Nat) (d : Dev) : Dev :=
  if bitOf d.eng.withheld t then d
  else { d with eng := { d.eng with withheld := setBit d.eng.withheld t } } |> bump Reg.QPC_CREDIT_HOLD 0

/-- A packet is a request on VC1 at a transport engine. -/
def isRequest (q : Packet) : Bool := decide (144 ≤ q.eg ∧ q.eg < 152) && q.vlane / 2 == 1 && !q.poison

/-- A consumer takes a packet: it leaves the core for the engine, the management processor or the hierarchy controller (R226, R156). A
request on VC1 keeps its cells until its engine has taken it, and waits while the engine takes none (R291). -/
def takePkt (id : Nat) (d : Dev) : Dev :=
  match pktOf id d with
  | none => d
  | some q =>
    if isRequest q then
      if d.net.atEngine.any (fun x => x.1 == id) then d
      else if missFull (q.eg - 144) d then d |> putStage id 0 |> turnAway (q.eg - 144)
      else d |> handPkt q |> putStage id 1
    else d |> handPkt q |> letGo id

/-- A packet for the management processor or the hierarchy controller is taken at its tail. -/
def takeDirect (id : Nat) (d : Dev) : Dev :=
  match pktOf id d with
  | some q => if q.tail ∧ (q.eg = egMgmt ∨ q.eg = egEhc) then takePkt id d else d
  | none => d

/-- A new packet enters the core whole, from an engine, the gateway or a mirror session; its length is that of its bytes. -/
def pushPkt (q : Packet) (d : Dev) : Dev :=
  { d with net := { d.net with pkts := d.net.pkts ++ [{ q with id := d.net.nextPkt }], nextPkt := d.net.nextPkt + 1 } }

/-! ## Copies -/

/-- A copy that sits in the core takes the cells it reads, the first of its original's; its destination queue may refuse one (R173, R182). -/
def borrowCells (id : Nat) (cs : List Cell) (d : Dev) : Dev :=
  forEach cs (fun c d =>
    match pktOf id d with
    | none => d
    | some q =>
      if q.eg = 255 ∨ (queueAdmit q d).1.isSome then updPkt id (fun r => { r with cells := r.cells ++ [{ c with charge := 3 }] }) d
      else d |> bump Reg.HBR_ADM_REFUSE 0 |> dropPkt id) d

/-- The cells of the original that a copy reads. -/
def copySrcCells (c : MirCopy) (d : Dev) : List Cell :=
  match pktOf c.src d with | some q => q.cells.take (cellsFor c.bytes.length) | none => []

/-- A copy put into a local port's queue. -/
def copyPacket (m : Mark) (isl : Nat) (c : MirCopy) (d : Dev) : Packet :=
  { Packet.fresh d.net.nextPkt (164 + isl) 0 0 c.bytes.length 8 (stampOf d) with
    bytes := c.bytes, tail := true, eg := m.port, queue := m.queue, store := true, copyOf := some c.src }

/-- Sends a copy to a local port. -/
def copyToPort (m : Mark) (isl : Nat) (c : MirCopy) (d : Dev) : Dev :=
  let d1 := d |> pushPkt (copyPacket m isl c d) |> borrowCells d.net.nextPkt (copySrcCells c d)
  if (pktOf d.net.nextPkt d1).isSome then d1 |> makeDescs d.net.nextPkt |> addI Reg.MIR_COPIES 0 m.session 1 else dropCopy m.session d1

/-- The number of a session's next mirror record. -/
def nextRecord (k : Nat) (d : Dev) : Nat := smGet (fun _ => 0) d.net.records k

/-- The header of a packet that carries a mirror record of `n` bytes to a remote collector. -/
def remoteHdr (m : Mark) (isl n : Nat) (d : Dev) : Nat :=
  0 |> hput .DLID m.loc |> hput .SLID (rd Reg.RTE_MY_LID isl d) |> hput .ILID noIlid
    |> hput .TC (free 4 d) |> hput .PLEN (20 + n) |> hput .NXT 4 |> hput .FLOW (free 16 (takeFree d))

/-- The packet that carries a mirror record. -/
def remotePacket (m : Mark) (isl hdr src : Nat) (rec_ : List Byte) (id : Nat) (d : Dev) : Packet :=
  { Packet.fresh id (164 + isl) 8 hdr (20 + rec_.length) 8 (stampOf d) with
    bytes := beBytes 16 hdr ++ [BitVec.ofNat 8 m.port, 0, 0, 0] ++ rec_, tail := true, copyOf := some src }

/-- Sends a copy to a remote collector. -/
def copyRemote (m : Mark) (isl : Nat) (c : MirCopy) (d : Dev) : Dev :=
  let id := d.net.nextPkt
  let k := m.session
  let rec_ := mirrorRecord c (nextRecord k d % 65536)
  let r := { d with net := { d.net with records := smPut d.net.records k ((nextRecord k d + 1) % 65536) } } |> takeFree |> takeFree
    |> injectHeader isl 4 (remoteHdr m isl rec_.length d)
  let d1 := r.2 |> pushPkt (remotePacket m isl r.1 c.src rec_ id d) |> lookUp id |> borrowCells id (copySrcCells c d) |> makeDescs id
  if (pktOf id d1).isSome then addI Reg.MIR_COPIES 0 k 1 d1 else dropCopy k d1

/-- Makes the copy of a packet that a session marked, by its DEST_KIND (R182); the traffic class of a remote copy is a free value (log entry
16). -/
def makeCopy (m : Mark) (c : MirCopy) (isl : Nat) (d : Dev) : Dev :=
  if rd Reg.MIR_HOLD 0 d < copyCells c.src (cellsFor c.bytes.length) d then dropCopy m.session d else
  match m.kind with
  | 0 => copyToPort m isl c d
  | 1 => copyRemote m isl c d
  | _ => { d with net := { d.net with copies := d.net.copies ++ [c] } } |> addI Reg.MIR_COPIES 0 m.session 1

/-- Base of a session's ring (R183). -/
def ringBase (k : Nat) (d : Dev) : Nat := rd2 Reg.MIR_RING_BASE_LO Reg.MIR_RING_BASE_HI 0 k d

/-- As above, the size in bytes. -/
def ringSize (k : Nat) (d : Dev) : Nat := 2 ^ rdI Reg.MIR_RING_SIZE 0 k d

/-- Bytes between CONS and PROD of a ring of `size` bytes. -/
def ringUsed (k size : Nat) (d : Dev) : Nat := (rdI Reg.MIR_PROD 0 k d + size - rdI Reg.MIR_CONS 0 k d % size) % size

/-- Bytes of a record that captures `n` bytes (R183). -/
def recordSize (n : Nat) : Nat := 64 * ((16 + n + 63) / 64)

/-- The next record of a session would reach CONS (R183): the record of the oldest copy that waits, else the smallest (DEDUCED, log entry
194). -/
def ringFull (k : Nat) (d : Dev) : Bool :=
  let size := ringSize k d
  let n := match d.net.copies.find? (fun c => c.session == k) with | some c => recordSize c.bytes.length | none => 64
  let prod := rdI Reg.MIR_PROD 0 k d
  decide (size ≤ ringUsed k size d + n + (if size < prod + n then size - prod else 0))

/-- What a marked session copies of a packet: bytes 0 to TRUNC - 1 as the harbour holds them (R181). -/
def copyFor (m : Mark) (q : Packet) : MirCopy :=
  { session := m.session, bytes := if m.trunc = 0 then q.bytes else q.bytes.take m.trunc, orig := q.len, egress := m.egress
    ended := q.poison, port := if m.egress then q.eg else q.inPort, time := if m.egress then q.beginAt else q.admitAt
    base := m.base, size := m.size, wrap := m.wrap, src := q.id }

/-- The copies of a packet that is whole are made for the sessions that marked it on reception, or for its egress (R181, R182). -/
def mirrorPkt (id : Nat) (egress : Bool) (d : Dev) : Dev :=
  match pktOf id d with
  | none => d
  | some q =>
    d |> forEach (q.marks.filter (fun m => m.egress == egress)) (fun m =>
          makeCopy m (copyFor m q) (if egress then egIsland q.eg else inIsland q.inPort))
      |> updPkt id (fun r => { r with marks := r.marks.filter (fun m => m.egress != egress) })

/-- A whole packet whose egress is decided: its cells are admitted, its descriptors made and its copies taken. -/
def settle (id : Nat) (d : Dev) : Dev := d |> admitCells id |> makeDescs id |> mirrorPkt id false |> takeDirect id

/-! ## Reception -/

/-- How an egress ends a packet on the wire: an Ethernet frame with its FCS inverted, a TLP nullified; an SFL port sends a tail flit with POISON
at its next unit (R179). -/
def endOnWire (q : Packet) (d : Dev) : Dev :=
  if 144 ≤ q.eg ∨ q.poison = true then d
  else match pers (q.eg / 8) d with
    | 3 => emit .frameEnd [q.eg, q.id, 0] ((q.bytes.drop (q.bytes.length - 4)).map (fun b => ~~~b)) d
    | 1 => emit .frameEnd [q.eg, q.id, 1] [] d
    | _ => d

/-! ## Packets of this device's own engines (R220) -/

/-- The header of a packet that this device forms, before injection (R219). -/
def ownHdr (dlid slid tc nxt len flow : Nat) (ect : Bool) : Nat :=
  0 |> hput .DLID dlid |> hput .SLID slid |> hput .ILID noIlid |> hput .TC tc |> hput .ECT (bnat ect) |> hput .PLEN (16 + len)
    |> hput .NXT nxt |> hput .FLOW flow

/-- A packet of this device as the core holds it. -/
def ownPacket (inP vc hdr : Nat) (body : List Byte) (d : Dev) : Packet :=
  { Packet.fresh d.net.nextPkt inP 0 hdr (16 + body.length) (2 * vc) (stampOf d) with bytes := beBytes 16 hdr ++ body, tail := true }

/-- Injects a packet that this device forms and routes it (R220, R223). -/
def sendOwn (inP vc hdr : Nat) (body : List Byte) (d : Dev) : Dev :=
  let r := injectHeader (inIsland inP) vc hdr d
  r.2 |> pushPkt (ownPacket inP vc r.1 body r.2) |> lookUp r.2.net.nextPkt |> settle r.2.net.nextPkt

/-- Injects a packet that leaves by a port named beforehand (R228). -/
def sendBy (inP p vc hdr : Nat) (body : List Byte) (d : Dev) : Dev :=
  let r := injectHeader (inIsland inP) vc hdr d
  r.2 |> pushPkt (ownPacket inP vc r.1 body r.2) |> setEgress r.2.net.nextPkt p r.1 |> settle r.2.net.nextPkt

/-- A management packet to another device, from MY_LID (R52, R218); its TC and body the spec does not lay out (log entry 197). -/
def sendMgmt (dlid : Nat) (fields : List Nat) (d : Dev) : Dev :=
  let body := Config.mgmtBody fields
  d |> takeFree |> sendOwn egMgmt 0
    (ownHdr dlid (rd Reg.RTE_MY_LID (inIsland egMgmt) d) (free 4 d) 0 body.length (Config.flowHash [dlid]).toNat false) body

/-- A packet whose transmission has begun is ended by its egress (R179); the ingress copies of one whose tail had not come carry the
bytes held (R185). -/
def endPkt (id : Nat) (q : Packet) (d : Dev) : Dev :=
  let r := { q with tail := true, poison := true, len := if q.tail then q.len else q.bytes.length }
  d |> endOnWire q |> updPkt id (fun _ => r) |> markIn id |> mirrorPkt id false

/-- A consumer's intake has taken cells of a packet, or the transmission of a packet has begun (R170, R179). -/
def leaving (q : Packet) : Bool := q.begun || (decide (144 ≤ q.eg ∧ q.eg ≠ 255) && decide (0 < q.queued))

/-- A packet fails (R178, R179): discarded if it has not begun, else ended downstream by its egress; an engine's intake takes it marked
failed. -/
def failPkt (id : Nat) (d : Dev) : Dev :=
  match pktOf id d with
  | none => d
  | some q => if q.begun then endPkt id q d else if leaving q then d |> endPkt id q |> takePkt id else dropPkt id d

/-- Bytes of a packet arrived: cells are written, the tail ends it, descriptors follow (R155, R162, R173, R178). -/
def arrive (id : Nat) (bytes : List Byte) (tail poison : Bool) (d : Dev) : Dev :=
  let d1 := d |> updPkt id (fun q => { q with bytes := q.bytes ++ bytes }) |> admitCells id
  if tail then
    if poison then
      -- the packet keeps its egress until it has been ended there
      (match pktOf id d1 with
       | some q => if q.begun then endPkt id q d1 |> makeDescs id else dropPkt id d1
       | none => d1)
    else
      d1 |> updPkt id (fun q => { q with tail := true, len := q.bytes.length })
        |> makeDescs id |> mirrorPkt id false |> takeDirect id
  else makeDescs id d1

/-- A packet that has not begun takes the route that a new lookup gives it, its descriptors made anew (R237, R247). -/
def moveRoute (id : Nat) (d : Dev) : Dev :=
  d |> detachDescs id |> updPkt id (fun r => { r with made := 0, queued := 0 }) |> lookUp id |> makeDescs id |> takeDirect id

/-- A held packet or one queued for a port that went is looked up again, and its descriptors made anew (R247). -/
def lookUpAgain (id : Nat) (d : Dev) : Dev :=
  match pktOf id d with
  | none => d
  | some q => d |> bump Reg.RTE_REQUEUED (inIsland q.inPort) |> moveRoute id

/-- Every held packet is looked up again whenever PORT_UP changes (R247). -/
def retryHeld (d : Dev) : Dev :=
  forEach ((d.net.pkts.filter (fun q => q.held.isSome)).map (fun q => q.id)) lookUpAgain d

/-! ## Egress queues -/

/-- The packets of a port's queue, oldest first. -/
def queueOf (p q : Nat) (d : Dev) : List Nat := smGet (fun _ => []) d.net.queues (p * 32 + q)

/-- Gives a port's queue its packets. -/
def putQueue (p q : Nat) (l : List Nat) (d : Dev) : Dev :=
  { d with net := { d.net with queues := smSet (fun _ => []) d.net.queues (p * 32 + q) l } }

/-- Signed comparison of tags modulo 2^48 (R195): the first is before the second. -/
def tagBefore (a b : Nat) : Bool := let x := (b + 2 ^ 48 - a) % 2 ^ 48; decide (0 < x ∧ x < 2 ^ 47)

/-- The queue, or slice, with the smallest start tag; ties go to the lowest number (R194, R443). -/
def smallestTag (tags : SMap Nat) : List Nat → Option Nat
  | [] => none
  | q :: rest =>
    match smallestTag tags rest with
    | some r =>
      let a := smGet (fun _ => 0) tags r
      let b := smGet (fun _ => 0) tags q
      if tagBefore a b then some r else if tagBefore b a then some q else some (min q r)
    | none => some q

/-- The scheduler of a port. -/
def schedOf (p : Nat) (d : Dev) : Sched := smGet (fun _ => Sched.init) d.net.sched p

/-- Changes the scheduler of a port. -/
def updSched (p : Nat) (f : Sched → Sched) (d : Dev) : Dev :=
  { d with net := { d.net with sched := smSet (fun _ => Sched.init) d.net.sched p (f (schedOf p d)) } }

/-- Gates act on a port: GATE_EN is 1 (R202). -/
def gatesOn (p : Nat) (d : Dev) : Bool := rd Reg.SCH_GATE_EN p d == 1

/-- The egress island puts a descriptor into its queue (R158, R159); a packet longer than M at a gated queue is dropped (R205). -/
def enqueueDesc (x : Desc) (d : Dev) : Dev :=
  match pktOf x.pkt d with
  | none => d
  | some q =>
    let d1 := updPkt x.pkt (fun r => { r with queued := max r.queued (x.cell + 1) }) d
    if 144 ≤ q.eg then
      (if q.tail ∧ q.cells.length ≤ x.cell + 1 then takePkt x.pkt d1 else d1)
    else if x.cell = 0 then
      if gatesOn q.eg d ∧ rd Reg.SCH_GATE_MAXSZ q.eg d < q.len then
        d1 |> bump Reg.SCH_GATE_OVERSIZE_CNT q.eg |> raise Ev.GATE_OVERSIZE q.eg |> dropPkt x.pkt
      else putQueue q.eg q.queue (queueOf q.eg q.queue d1 ++ [x.pkt]) d1
    else d1

end Sys2Proof.Machine
end

