-- ==== Sys2Proof/Machine/QpOps.lean ====
section
/-!
DEFINITION. Shared operations of requesters and responders (ch. 09): the packets they send (R258 to R263), completion of work requests
(R271), entry to ERROR (R269), acknowledgement (R271 to R275) and the context cache (R288).
-/

namespace Sys2Proof.Machine

/-! ## Sequence numbers -/

/-- Difference of two PSNs modulo 2^24. -/
def psnSub (a b : Nat) : Nat := (a + 2 ^ 24 - b % 2 ^ 24) % 2 ^ 24

/-- A PSN plus `n` modulo 2^24. -/
def psnAdd (a n : Nat) : Nat := (a + n) % 2 ^ 24

/-! ## Packets (R258 to R263) -/

/-- A base transport header (R259). -/
def bth (opc : Nat) (ackReq sol ece sync : Bool) (dqpn sqpn psn pepoch ekey : Nat) : Nat :=
  opc * 2 ^ 120 + bnat ackReq * 2 ^ 119 + bnat sol * 2 ^ 118 + bnat ece * 2 ^ 117 + bnat sync * 2 ^ 116
    + dqpn * 2 ^ 88 + sqpn * 2 ^ 64 + psn * 2 ^ 40 + pepoch * 2 ^ 32 + ekey

/-- A packet from its BTH to its ECRC (R258, R263). -/
def sftBytes (h : Nat) (rest : List Byte) : List Byte :=
  let b := beBytes 16 h ++ rest
  b ++ beBytes 4 (crc32c b)

/-- The remote LID of a connection. -/
def Qp.lidOf (q : Qp) (key : Nat) : Nat := if q.rd then (key - 1) / 2 ^ 24 else q.dlid

/-- The remote QPN of a connection. -/
def Qp.qpnOf (q : Qp) (key : Nat) : Nat := if q.rd then (key - 1) % 2 ^ 24 else q.dqpn

/-- The destination EKEY of a started request (R265). -/
def Qp.ekeyOf (q : Qp) (wqe : Nat) : Nat :=
  match q.started.find? (fun w => w.id == wqe) with
  | some w => w.rkey
  | none => 0

/-- The LID of the node of a VH, as its packets' SLID; where none or several deliver to it the spec does not say which: a free value (R219, log
entry 197). -/
def ownLid (v : Nat) (d : Dev) : Nat × Dev :=
  match nodeLids 18 v d with
  | [l] => (l, d)
  | _ => (free 20 d, takeFree d)

/-- Hands an SFT packet to the network from its engine (R220, R258). -/
def sendSft (n dlid dqpn tc vc : Nat) (ect : Bool) (b : List Byte) (d : Dev) : Dev :=
  let l := ownLid (numVh n d) d
  l.2 |> emit .sft [n % 8, dlid, tc, vc, bnat ect] b |> bump Reg.TPE_PKT_TX (n % 8)
    |> sendOwn (egTpe n) vc (ownHdr dlid l.1 tc 1 b.length (Config.flowHash [dlid, n, dqpn]).toNat ect) b

/-- A packet of `len` bytes fills RATE_CUR for its time (R284; it counts from the network header to the ECRC, DEDUCED, log entry 200). -/
def Qp.pace (q : Qp) (len now : Nat) : Qp := { q with paceAt := max q.paceAt (1000 * now) + 8000000 * len / q.rate }

/-- Sends a request packet on VC1 (R258, R259, R284). -/
def sendReq (n : Nat) (q : Qp) (key : Nat) (t : TxPkt) (d : Dev) : Dev :=
  let c := q.conn key
  let h := bth t.opc t.ackReq t.sol false (q.rd && !c.synced) (q.qpnOf key) n t.psn (if q.rd then c.epochTx else 0)
    (if q.rd then q.ekeyOf t.wqe else 0)
  d |> sendSft n (q.lidOf key) (q.qpnOf key) q.tc 1 (bitOf q.perm 5) (sftBytes h t.bytes)
    |> updQp n (fun q => q.pace (36 + t.bytes.length) d.th.localNs)

/-- Sends an acknowledgement or response on VC2; it carries the connection's ECE and serves as its ACK (R259, R262, R279, R284). The
EKEY of a response between RD endpoints is not stated, nor the epoch of one to a peer without a record: free values (log entry 24). -/
def sendResp (n key opc psn synd rnr : Nat) (aeth : Bool) (rest : List Byte) (d : Dev) : Dev :=
  match qpOf n d with
  | none => d
  | some q =>
    let c := q.conn key
    let a := if aeth then beBytes 8 (synd * 2 ^ 56 + c.msn * 2 ^ 32 + rnr * 2 ^ 16) else []
    let h := bth opc false false c.ece false (q.qpnOf key) n psn
      (if q.rd then (if (smFind q.conns key).isSome then c.epochTx else free 8 (takeFree d)) else 0) (if q.rd then free 32 d else 0)
    d |> onlyIf q.rd (fun d => d |> takeFree |> takeFree)
      |> sendSft n (q.lidOf key) (q.qpnOf key) q.tc 2 false (sftBytes h (a ++ rest))
      |> onlyIf (!q.rd || (smFind q.conns key).isSome) (updConn n key (fun c => { c with ece := false, accepted := 0, ackDue := false }))

/-- A data write of a responder waits to be issued to memory (R281 item 2, R434). -/
def writesWait (n : Nat) (d : Dev) : Bool := d.eng.ats.any (fun w => w.acc.chan == .hostWrite && w.acc.owner == ⟨1, n⟩)

/-- Sends an ACK for everything accepted (R279), once the data writes it covers have been issued to memory (R281). -/
def sendAck (n key : Nat) (d : Dev) : Dev :=
  match qpOf n d with
  | some q =>
    if writesWait n d then updConn n key (fun c => { c with ackDue := true }) d else sendResp n key 0x28 (psnSub (q.conn key).epsn 1) 0 0 true [] d
  | none => d

/-- Sends a NAK of a syndrome (R262). -/
def sendNak (n key psn synd rnr : Nat) (d : Dev) : Dev := sendResp n key 0x28 psn synd rnr true [] d

/-! ## Started requests -/

/-- A started request with nothing set. -/
def Wqe.blank (id : Nat) (kind : WKind) : Wqe :=
  { id := id, kind := kind, idx := 0, wop := 15, signaled := false, sol := false, ro := false, len := 0, wrId := 0,
    laddr := 0, lkey := 0, imm := 0, raddr := 0, rkey := 0, op1 := 0, op2 := 0, ctxid := 0, rank := 0, tag := 0,
    rndv := 0, conn := 0, buf := [], ready := true, off := 0, allSent := false, begun := false, status := 0 }

/-- Adds a request to those started on a queue pair. -/
def addWqe (n : Nat) (kind : WKind) (f : Wqe → Wqe) (d : Dev) : Dev :=
  updQp n (fun q => { q with started := q.started ++ [f (Wqe.blank q.nextWqe kind)], nextWqe := q.nextWqe + 1 }) d

/-- A finish for a rendezvous (R340): a NOTIFY with NVALUE [63:60] = 0xF, [59] DISCARDED, [15:0] RNDV_ID. -/
def addFinish (n rid : Nat) (discarded : Bool) (d : Dev) : Dev :=
  addWqe n .finish (fun w => { w with wop := 9, op1 := 15 * 2 ^ 60 + bnat discarded * 2 ^ 59 + rid % 65536 }) d

/-- The last read of a rendezvous has been taken: the finish is sent, then the completion written (R349). -/
def rndvDone (k slot : Nat) (d : Dev) : Dev :=
  match (quad k d).rndvs.find? (fun r => r.slot == slot) with
  | none => d
  | some r =>
    d |> addFinish r.qpn r.rid false
      |> updQuad k (fun q => { q with rndvs := q.rndvs.filter (fun x => x.slot != slot) })
      |> completeRecv k r.qpn r.post r.rank r.tag r.mlen r.sol true r.fromUx

/-- Bytes moved by a request that ends (R266): the spec states none for one that failed under way, a free value (log entry 22). -/
def movedOf (w : Wqe) (d : Dev) : Nat :=
  if w.status ≠ 0 then (if w.begun then free 32 d else 0)
  else match w.wop with
    | 5 | 6 => 8
    | 7 | 8 => 16
    | 9 | 15 => 0
    | _ => w.len

/-- The completion of an SQ's request with the status it ends with (R266, R268). -/
def endSq (n : Nat) (q : Qp) (w : Wqe) (d : Dev) : Dev :=
  let known := w.wop ≤ 9 ∨ w.wop = 15
  let d1 := if known then d else takeFree d
  let len := movedOf w d1
  (if w.status ≠ 0 ∧ w.begun then takeFree d1 else d1)
    |> cqe q.scqn n ⟨w.wrId, len, 0, n, copOf w.wop d, w.status, 0, 0⟩

/-- Data for the store of the bridge or the prefetch store: bytes put in place. -/
def patch (l : List Byte) (off : Nat) (bs : List Byte) : List Byte := l.take off ++ bs ++ l.drop (off + bs.length)

/-- A started request completes OK (R271, R311, R312, R314, R349). -/
def finishWqe (n : Nat) (q : Qp) (w : Wqe) (d : Dev) : Dev :=
  match w.kind with
  | .sq => if w.signaled ∨ w.status ≠ 0 then endSq n q w d else d
  | .brgWrite _ _ => retireWrite w.id (grpsOfQp n d) d
  | .brgRead id =>
    (match d.eng.brgReads.find? (fun r => r.id == id) with
     | some r => endBrgRead r w.buf d
     | none => bump Reg.BRG_LATE_DROP 0 d)
  | .prefetch id =>
    d |> updEng (fun e => { e with pf := e.pf.map (fun b => if b.id = id then { b with data := some w.buf } else b) })
      |> readyPfReads
  | .rndvRead k slot => rndvDone k slot d
  | .finish => d

/-- All packets of a request are acknowledged or answered, and its finish has come (R271, R340). -/
def Wqe.done (q : Qp) (w : Wqe) : Bool :=
  w.allSent && w.rndv != 1 && !((q.conn w.conn).out.any (fun t => t.wqe == w.id))

/-- Splits started requests into those that complete now and the rest; an SQ's requests complete in order (R271, R281 item 4). -/
def splitDone (q : Qp) : List Wqe → Bool → List Wqe × List Wqe
  | [], _ => ([], [])
  | w :: ws, blocked =>
    let isSq := w.kind == .sq
    if w.done q && !(isSq && blocked) then
      let (a, b) := splitDone q ws blocked
      (w :: a, b)
    else
      let (a, b) := splitDone q ws (blocked || isSq)
      (a, w :: b)

/-- Nothing sent on a queue pair is unacknowledged. -/
def Qp.quiet (q : Qp) : Bool := q.conns.all (fun e => match e.2 with | some c => c.snd == c.una | none => true)

/-- In DRAIN, SQ_DRAINED is raised when SND_PSN = UNA_PSN and nothing started remains to be sent (R269). -/
def drainCheck (n : Nat) (d : Dev) : Dev :=
  match qpOf n d with
  | some q =>
    if q.state = 4 ∧ q.quiet ∧ q.started.isEmpty ∧ !q.drained then
      d |> updQp n (fun q => { q with drained := true })
        |> sliceEvent q.slice RingEv.SQ_DRAINED n (q.conn 0).snd
    else d
  | none => d

/-- Completes the requests that are done (R271). -/
def completeWqes (n : Nat) (d : Dev) : Dev :=
  match qpOf n d with
  | none => d
  | some q =>
    let (now, rest) := splitDone q q.started false
    d |> updQp n (fun q => { q with started := rest }) |> forEach now (finishWqe n q) |> drainCheck n

/-! ## Entry to ERROR (R269) -/

/-- How the requests of a queue pair end: the status of those in progress, the request that caused it with its status, whether
QP_FATAL is kept back, the PSN of the failure. -/
structure Ending where
  prog : Nat
  bad : Option (Nat × Nat)
  quiet : Bool
  psn : Nat

/-- The message being received on a connection ends (R269, R353). -/
def endInbound (n : Nat) (q : Qp) (status : Nat) (c : Conn) (d : Dev) : Dev :=
  let i := c.inn
  match i.kind with
  | 1 => flushRecv n q status i.entry d
  | 3 => matchCqe i.quad i.ux n i.entry.wrId 0 i.rank 11 status 0 i.tag d
  | 4 =>
    (match (quad i.quad d).unexp.find? (fun u => u.id == i.ux) with
     | some u => d |> updQuad i.quad (fun x => { x with unexp := x.unexp.filter (fun y => y.id != i.ux) })
         |> (fun d => match u.taken with
             | some p => matchCqe i.quad u.ctx n p.wrId 0 u.rank 11 status 16 u.tag d
             | none => d)
         |> countQuad i.quad (poolFree i.quad d)
     | none => d)
  | _ => d

/-- The rendezvous receives of a queue pair end (R353). -/
def endRndvs (n status : Nat) (d : Dev) : Dev :=
  forEach (List.range 4) (fun k d =>
    let mine := (quad k d).rndvs.filter (fun r => r.qpn == n)
    d |> updQuad k (fun q => { q with rndvs := q.rndvs.filter (fun r => r.qpn != n) })
      |> forEach mine (fun r => matchCqe k r.post.ctx n r.post.wrId 0 r.rank 11 status (mflags r.sol false true r.fromUx) r.tag)) d

/-- A started request ends in error; an abandoned bridge write is counted (R269, R318). -/
def failWqe (n : Nat) (q : Qp) (e : Ending) (w : Wqe) (d : Dev) : Dev :=
  let st := match e.bad with | some (id, s) => if w.id = id then s else e.prog | none => e.prog
  match w.kind with
  | .sq => endSq n q { w with status := if w.status ≠ 0 then w.status else st } d
  | .brgWrite _ _ => onlyIf (match e.bad with | some (id, _) => w.id != id | none => true) (bump Reg.BRG_WR_ABANDONED 0) d
  | _ => d

/-- A queue pair enters ERROR (R269). The message endpoint has no command that would take it out again: it abandons what is
unacknowledged and stays (log entry 37). -/
def enterError (n : Nat) (e : Ending) (d : Dev) : Dev :=
  match qpOf n d with
  | none => d
  | some q =>
    if q.state = 0 ∨ q.state = 5 then d
    else if n = msgQpn then
      updQp n (fun q => { q with started := [], conns := q.conns.map (fun x => (x.1, x.2.map (fun c => { c with
        out := [], pass := none, rnrWait := none }))) }) d
    else
    d |> groupsDown n |> forgetWrites n
      |> updQp n (fun q => { q with
          state := 5, started := [], sq := [], rq := [], busy := none, held := []
          conns := q.conns.map (fun x => (x.1, x.2.map (fun c => { c with
            out := [], pass := none, rnrWait := none, ackDue := false, inn := Inbound.none }))) })
      |> forEach q.started (failWqe n q e)
      |> forEach (entriesOf q.sq.length q.sq) (flushSlot n q 9)
      |> forEach (q.conns.filterMap (fun x => x.2)) (endInbound n q e.prog)
      |> endRndvs n e.prog
      |> forEach q.rq (flushRecv n q 9)
      |> updEng (fun x => { x with
          reads := x.reads.map (fun r => { r with use := r.use.orphan n })
          quads := x.quads.map (fun kq => (kq.1, { kq.2 with
          waits := kq.2.waits.filter (fun w => match w with | .arrival _ m => m != n | .post _ _ _ => true) })) })
      |> onlyIf (!e.quiet) (sliceEvent q.slice RingEv.QP_FATAL n e.psn)

/-- The ending of a fatal error that no request of the queue pair caused. -/
def Ending.plain (psn : Nat) : Ending := ⟨9, none, false, psn⟩

/-- Queue pairs that a CQ's overflow sends to ERROR enter it; each may make further CQs overflow (R266). -/
def settleFails : Nat → Dev → Dev
  | 0, d => updEng (fun e => { e with fails := [] }) d
  | k + 1, d =>
    match d.eng.fails with
    | [] => d
    | (n, psn) :: rest =>
      settleFails k (d |> updEng (fun e => { e with fails := rest }) |> enterError n (Ending.plain psn))

/-! ## Acknowledgement (R271 to R275) -/

/-- The first PSN of a read or atomic that is not answered yet. -/
def firstUnanswered (c : Conn) : Option Nat :=
  (c.out.filterMap (fun t =>
    if t.isRead then ((List.range t.n).find? (fun i => !t.got.contains i)).map (fun i => psnAdd t.psn i) else none)).head?

/-- Everything before a PSN is acknowledged: UNA_PSN advances, but not past a read or atomic that is not answered (R271, log entry
25); counters return to 0 and a resend pass goes on behind it. -/
def Conn.ackTo (c : Conn) (next : Nat) : Conn :=
  let want := psnSub next c.una
  let cap := match firstUnanswered c with | some p => psnSub p c.una | none => psnSub c.snd c.una
  let k := min want cap
  if psnSub c.snd c.una < want ∨ k = 0 then c
  else
    let una := psnAdd c.una k
    { c with
      una := una
      retry := 0
      rnr := 0
      synced := true
      out := c.out.filter (fun t => decide (k < psnSub t.psn c.una + t.n))
      pass := c.pass.bind (fun (s, p) => if psnSub p c.una < k then (if una = c.snd then none else some (s, una)) else some (s, p)) }

/-- Congestion echo: RATE_CUR falls at most once per ECN_HOLD_NS (R284). -/
def takeEce (n : Nat) (ece : Bool) (d : Dev) : Dev :=
  if !ece then d else
  let t := n % 8
  d |> bump Reg.TPE_ECE_RX t
    |> updQp n (fun q =>
      let ok := match q.lastCut with | some x => decide (x + rd Reg.TPE_ECN_HOLD_NS t d ≤ d.th.localNs) | none => true
      if ok then
        { q with rate := max (q.rate - q.rate / 2 ^ rd Reg.TPE_CUT_SHIFT t d) (rd Reg.TPE_RATE_MIN t d)
                 lastCut := some d.th.localNs }
      else q)

/-- A resend pass begins from a PSN: RETRY_CNT counts it (R272, R273); past RETRY_MAX the QP enters ERROR with RETRY_EXC. -/
def beginPass (n key from_ : Nat) (d : Dev) : Dev :=
  match qpOf n d with
  | none => d
  | some q =>
    let c := q.conn key
    if c.retry + 1 ≤ q.retryMax then
      updConn n key (fun c => { c with retry := c.retry + 1, pass := some (from_, from_) }) d
    else
      let bad := (c.out.head?).map (fun t => (t.wqe, 7))
      d |> forEach (writeWins q.started) (fun w => latchWin w 4 0 true)
        |> enterError n ⟨9, bad, false, c.una⟩
        |> sliceEvent q.slice RingEv.RETRY_EXCEEDED n c.una

/-- The started request that holds a PSN. -/
def wqeAt (q : Qp) (key psn : Nat) : Option Wqe :=
  let c := q.conn key
  match c.out.find? (fun t => decide (psnSub psn t.psn < t.n)) with
  | some t => q.started.find? (fun w => w.id == t.wqe)
  | none => none

/-! ## The context cache (R288) -/

/-- The set of a QPN in its engine's cache, with the engine. -/
def cacheSet (n : Nat) : Nat := (n / 8) % 512 * 8 + n % 8

/-- A context is pinned: unacknowledged requests, a command or packet being executed, or a fetch pending (R288). -/
def pinned (n : Nat) (d : Dev) : Bool :=
  d.eng.fetches.contains n ||
    (match qpOf n d with | some q => !q.quiet || q.busy.isSome || !q.started.isEmpty | none => false)

/-- The cached context is used: most recently used first. -/
def touchCtx (n : Nat) (d : Dev) : Dev := updEng (fun e => { e with cached := n :: e.cached.filter (fun x => x != n) }) d

/-- Pinned contexts of a QPN's cache set, cached or being fetched, itself not counted. -/
def pinnedInSet (n : Nat) (d : Dev) : Nat :=
  ((d.eng.cached ++ d.eng.fetches.filter (fun x => !d.eng.cached.contains x)).filter
    (fun x => cacheSet x == cacheSet n && x != n && pinned x d)).length

/-- A context would be the thirteenth pinned of its set (R288). -/
def pinFull (n : Nat) (d : Dev) : Bool := !pinned n d && decide (12 ≤ pinnedInSet n d)

/-- The stated bytes 0 to 88 of a context (R287). -/
def contextHead (q : Qp) : List Byte :=
  let c := q.conn 0
  leBytes 1 (q.state + 16 * bnat q.rd) ++ leBytes 1 q.perm ++ leBytes 2 q.slice ++ leBytes 4 q.dqpn
    ++ leBytes 4 (q.dlid + q.tc * 2 ^ 20 + q.mtu * 2 ^ 24)
    ++ leBytes 4 (q.rto + q.retryMax * 2 ^ 20 + q.rnrMax * 2 ^ 24 + q.rnrTmr * 2 ^ 27)
    ++ leBytes 4 c.snd ++ leBytes 4 (c.una + c.retry % 16 * 2 ^ 24 + c.rnr % 8 * 2 ^ 28)
    ++ leBytes 4 (c.epsn + bnat c.nakSent * 2 ^ 24) ++ leBytes 4 (c.msn + q.ordMax * 2 ^ 24)
    ++ leBytes 8 q.sqBase ++ leBytes 2 q.sqPi ++ leBytes 2 q.sqCi ++ leBytes 1 q.sqLog ++ leBytes 1 q.rqLog ++ leBytes 2 0
    ++ leBytes 8 q.rqBase ++ leBytes 2 q.rqPi ++ leBytes 2 q.rqCi ++ leBytes 4 q.scqn ++ leBytes 4 q.rcqn
    ++ leBytes 4 q.outMax ++ leBytes 4 q.rate ++ leBytes 4 q.ekey ++ leBytes 8 q.peerBase ++ leBytes 1 q.peerLog

/-- A peer record (R286). -/
def peerBytes (c : Conn) (valid : Bool) : List Byte :=
  leBytes 4 (c.lid + bnat valid * 2 ^ 31) ++ leBytes 4 c.qpn ++ leBytes 4 c.snd ++ leBytes 4 c.una ++ leBytes 4 c.epsn
    ++ leBytes 1 c.epochTx ++ leBytes 1 c.epochRx ++ leBytes 2 0 ++ leBytes 4 c.lastUse ++ leBytes 4 0

/-- Writes a peer record to its place at PEER_BASE (R286; when, and in which memory, DESIGN CHOICE, log entry 199). Where the message endpoint's
table lies is not stated (R320). -/
def writePeer (n : Nat) (q : Qp) (valid : Bool) (c : Conn) (d : Dev) : Dev :=
  onlyIf (n != msgQpn) (backAt n (q.peerBase + 32 * c.slot) (peerBytes c valid)) d

/-- A context that leaves the cache is written back to the backing store (R288, R289); its private bytes the spec does not lay out, free values. -/
def writeBack (n : Nat) (d : Dev) : Dev :=
  match qpOf n d with
  | none => d
  | some q =>
    d |> backWrite n (256 * (n % 4096)) (contextHead q ++ (List.range 167).map (Config.freeByte d.freeCtr)) |> takeFree
      |> onlyIf q.rd (forEach (q.conns.filterMap (fun x => x.2)) (writePeer n q true))

/-- A context enters the cache; the least recently used unpinned context of a full set is written back (R288). -/
def cacheCtx (n : Nat) (d : Dev) : Dev :=
  let same := d.eng.cached.filter (fun x => cacheSet x == cacheSet n && x != n)
  let victim := if 16 ≤ same.length then same.reverse.find? (fun x => !pinned x d) else none
  d |> forEach victim.toList writeBack
    |> updEng (fun e => { e with cached := n :: e.cached.filter (fun x => x != n && some x != victim) })

/-- Starts a fetch of a context unless one is under way (R290); one that would pin a thirteenth way of its set waits (R288). -/
def startFetch (n : Nat) (d : Dev) : Dev :=
  if d.eng.fetches.contains n then d
  else if pinFull n d then updEng (fun e => { e with pinWait := if e.pinWait.contains n then e.pinWait else e.pinWait ++ [n] }) d
  else updEng (fun e => { e with fetches := e.fetches ++ [n] }) d

end Sys2Proof.Machine
end

