-- ==== Sys2Proof/Machine/MemPath.lean ====
section
/-!
DEFINITION. The memory path: the order in which it serves the requests to package memory that the state holds (R19).
-/

namespace Sys2Proof.Machine

/-- The rank of a context fetch: 0 where a packet waits for it in the lagoon, else 3 (R19). -/
def fetchRank (n : Nat) (d : Dev) : Nat := if d.eng.parked.any (fun x => x.qpn == n) then 0 else 3

/-- The context in which a quadrant's waiting step fetches match overflow. -/
def MWait.context : MWait → Nat
  | .arrival c _ => c
  | .post c _ _ => c

/-- The requests of the engines to package memory: context fetches and match overflow, of the first 32 operations that wait in a quadrant (R348). A request is its rank, its user within the rank and
what it is for. -/
def engineRequests (d : Dev) : List (Nat × Nat × Nat) :=
  (d.eng.fetches.filter (fun n => !numHost n d)).map (fun n => (fetchRank n d, n % 8, n))
    ++ (List.range 4).flatMap (fun k => ((quad k d).waits.take 32).map (fun w => (1, k, w.context)))

/-- The mirror capture writes that wait. Those of one session from the same ns are one request. -/
def captureRequests (d : Dev) : List (Nat × Nat × Nat) := d.net.copies.map (fun c => (2, c.session, c.time.ns))

/-- The requests that the memory path has not served. -/
def memWaiting (d : Dev) : List (Nat × Nat × Nat) :=
  (engineRequests d ++ captureRequests d).filter (fun r => !d.eng.path.served.contains r)

/-- The user whose turn it is among the waiting users of a rank: the present one while its weight lasts, else the next in the cycle, and
what is then left of its weight (R19; the weights the spec leaves open, log entry 174). -/
def memTurn (rank : Nat) (users : List Nat) (t : Nat × Nat) : Nat × Nat :=
  if 0 < t.2 ∧ users.contains t.1 then (t.1, t.2 - 1)
  else
    let u := ((List.range 8).map (fun j => (t.1 + 1 + j) % 8)).find? (fun u => users.contains u)
    (u.getD 0, Config.memWeight rank (u.getD 0) - 1)

/-- Changes the memory path. -/
def updPath (f : MemPath → MemPath) (d : Dev) : Dev := updEng (fun e => { e with path := f e.path }) d

/-- The waiting request served next: of the lowest rank, the oldest of the user whose turn it is (R19). -/
def memNext (d : Dev) : Option ((Nat × Nat × Nat) × (Nat × Nat)) :=
  (List.range 4).findSome? (fun k =>
    let mine := (memWaiting d).filter (fun r => r.1 == k)
    let t := memTurn k (mine.map (fun r => r.2.1)) (smGet (fun _ => (7, 0)) d.eng.path.turn k)
    (mine.find? (fun r => r.2.1 == t.1)).map (fun r => (r, t)))

/-- The memory path serves its next request. -/
def memServe (d : Dev) : Dev :=
  match memNext d with
  | none => d
  | some (r, t) =>
    d |> updPath (fun p => { served := p.served ++ [r], turn := smSet (fun _ => (7, 0)) p.turn r.1 t })
      |> emit .memory [r.1, r.2.1, r.2.2] []

/-- The memory path serves every request that waits, in its order. -/
def memServeAll (d : Dev) : Dev := forEach (List.range (memWaiting d).length) (fun _ => memServe) d

/-- A request completes: it was served, and before it whatever the order of the memory path puts first (R19). -/
def memDone (r : Nat × Nat × Nat) (d : Dev) : Dev :=
  d |> forEach (List.range (memWaiting d).length) (fun _ d => if (memWaiting d).contains r then memServe d else d)
    |> updPath (fun p => { p with served := p.served.erase r })

end Sys2Proof.Machine
end

