-- ==== Sys2Proof/Machine/LinkOps.lean ====
section
/-!
DEFINITION. The SFL link layer as shared operations (ch. 05): link flits, replay, link up, and a port declared down with fast
reroute (R143, R246, R247).
-/

namespace Sys2Proof.Machine

/-- CREDIT[0-15] as STATUS and NAK carry them (R129, R134). -/
def creditsOut (p : Nat) (d : Dev) : List Nat :=
  (List.range 16).map (fun v => smGet (fun _ => 0) (portOf p d).granted v % 4096)

/-- Sends a STATUS: ACK_SEQ, ACK_VALID, credits (R129, R136). -/
def sendStatus (p : Nat) (d : Dev) : Dev :=
  let ack := (rd Reg.LNK_RX_SEQ p d + 16383) % 16384
  sendLink p 1 (ack * 2 ^ 13 + 2 ^ 12) (packCredits (creditsOut p d)) ([ack, 1] ++ creditsOut p d) d

/-- Sends a NAK with EXP_SEQ = RX_SEQ and a REASON, with the credit state (R129, R137). -/
def emitNak (p reason : Nat) (d : Dev) : Dev :=
  let exp := rd Reg.LNK_RX_SEQ p d
  d |> sendLink p 2 (exp * 2 ^ 13 + reason * 2 ^ 10) (packCredits (creditsOut p d)) ([exp, reason] ++ creditsOut p d) |> bump Reg.LNK_NAK_TX p

/-- A check failure, a gap or an uncorrectable codeword leads to a NAK, but not to a second one for the same EXP_SEQ
(R137). -/
def nakFor (p reason : Nat) (d : Dev) : Dev :=
  let exp := rd Reg.LNK_RX_SEQ p d
  match (portOf p d).nak with
  | some e => if e % 16384 = exp then d
      else d |> emitNak p reason |> updPort p (fun q => { q with nak := some (exp + 16384 * reason) })
  | none => d |> emitNak p reason |> updPort p (fun q => { q with nak := some (exp + 16384 * reason) })

/-- Data flits outstanding (R139, R151). -/
def outstanding (p : Nat) (d : Dev) : Nat := (portOf p d).copies.length

/-- The stall at the replay cap ends, and its time is counted in 10 ns units (R139, R140). -/
def endStall (p : Nat) (d : Dev) : Dev :=
  match (portOf p d).stallAt with
  | some t =>
    if outstanding p d < rd Reg.LNK_REPLAY_CAP p d then
      d |> addI Reg.LNK_CAP_STALL p 0 ((d.th.localNs - t) / 10) |> updPort p (fun q => { q with stallAt := none })
    else d
  | none => d

/-- Frees the copies through ACK_SEQ; any advance returns the count of retries to 0 (R136, R138). An ACK_SEQ beyond what is
outstanding frees nothing. -/
def ackThrough (p ack : Nat) (d : Dev) : Dev :=
  let n := (ack + 16384 - rd Reg.LNK_ACK_SEQ p d) % 16384
  if 0 < n ∧ n ≤ outstanding p d then
    d |> updPort p (fun q => { q with copies := q.copies.drop n, retries := 0 })
      |> wr Reg.LNK_ACK_SEQ p ack |> endStall p
  else d

/-- The latest credits received (R132). -/
def takeCredits (p : Nat) (cr : List Nat) (d : Dev) : Dev :=
  updPort p (fun q => { q with credit := (List.range 16).foldl (fun m v => smPut m v (cr.getD v 0 % 4096)) q.credit }) d

/-- Sends a data flit, new or again (R125). -/
def sendData (p : Nat) (c : FlitCopy) (again : Bool) (d : Dev) : Dev :=
  let img := dataFlit (flitLevel p d) c.vl c.head c.tail c.poison c.seq c.bytes
  d |> emit .dataFlit [p, c.vl, c.seq, bnat c.head, bnat c.tail, bnat c.poison, bnat again] img |> laneFlit p img

/-- Resends every outstanding flit, in order (R137, R138). -/
def resendAll (p : Nat) (d : Dev) : Dev :=
  let cs := (portOf p d).copies
  d |> forEach cs (fun c => sendData p c true)
    |> addI Reg.LNK_REPLAY_FLITS p 0 cs.length

/-! ## Declared down (R142, R143, R246, R247) -/

/-- Flowlet entries recorded on a port are invalidated (R246). -/
def dropFlowlets (p : Nat) (d : Dev) : Dev :=
  { d with net := { d.net with
      flowlets := d.net.flowlets.map (fun kf => if kf.2.port = p then (kf.1, { kf.2 with valid := false }) else kf) } }

/-- Fast reroute for a port that went down: PORT_UP, candidate sets and flowlets lose it, and REROUTE is raised; its queued
packets in queue order, then those on their way to a queue, and those held, are looked up again (R246, R247). -/
def fastReroute (p : Nat) (d : Dev) : Dev :=
  let was := inPortUp (p / 8) p d
  let there := (d.net.pkts.filter (fun q => q.eg == p && !q.begun)).map (fun q => q.id)
  let inQueue := ((List.range 19).flatMap (fun q => queueOf p q d)).filter (fun id => there.contains id)
  let queued := inQueue ++ there.filter (fun id => !inQueue.contains id)
  d |> setPortUp p false |> dropFlowlets p
    |> onlyIf was (raise Ev.REROUTE (p / 8))
    |> forEach queued lookUpAgain |> retryHeld

/-- Step 2 of R143: packets partly sent are abandoned; packets partly received are ended downstream, their other cells
freed. -/
def abandon (p : Nat) (d : Dev) : Dev :=
  let sending := (d.net.pkts.filter (fun q => q.eg == p && q.begun)).map (fun q => q.id)
  let arriving := (d.net.pkts.filter (fun q => q.inPort == p && !q.tail)).map (fun q => q.id)
  d |> forEach sending dropPkt
    |> forEach arriving failPkt
    |> (fun d => { d with net := { d.net with
          pkts := d.net.pkts.map (fun q => if q.inPort = p then { q with owes := false } else q) } })

/-- The replay buffer and credit state are discarded (R143). -/
def discardLink (p : Nat) (d : Dev) : Dev :=
  d |> updPort p (fun q => { q with
        initial := [], credit := [], consumed := [], granted := [], received := [], cur := [], copies := [], nak := none,
        pass := false, passAck := 0, retries := 0, stallAt := none, wx := none, rejoin := false, initRx := false,
        rxOk := false, peerOk := false, sentOk := false, idle := true, step := 0, retry := 0 })

/-- A port that is UP is declared down (R143): steps 1 to 4. It sends RESET with the cause, then electrical idle. -/
def declareDown (p cause : Nat) (d : Dev) : Dev :=
  if portUp p d then
    d |> wr Reg.LNK_LSTATE p 4
      |> abandon p |> discardLink p
      |> wr Reg.LNK_DOWN_CAUSE p cause |> bump Reg.LNK_DOWN_CNT p |> wr Reg.LNK_WIDTH p 0
      |> fastReroute p
      |> raise Ev.LINK_DOWN p
      |> sendLink p 4 (cause * 2 ^ 19) [] [cause] |> emit .portTx [p, 0] []
      |> lanesOff p
  else d

/-- A protocol error of a link: counted, raised, and a full link reset (R134, R142, R155). -/
def protocolError (p : Nat) (d : Dev) : Dev :=
  d |> bump Reg.LNK_PROTO_ERR_CNT p |> raise Ev.PROTO_ERR p |> declareDown p 5

/-- A resend pass starts; one retry is counted where ACK_SEQ has not advanced since the pass before began, and REPLAY_MAX in a row
take the link down (R138). -/
def startPass (p : Nat) (d : Dev) : Dev :=
  let q := portOf p d
  let ack := rd Reg.LNK_ACK_SEQ p d
  let n := if q.pass && q.passAck == ack then q.retries + 1 else q.retries
  if rd Reg.LNK_REPLAY_MAX p d ≤ n then declareDown p 2 d
  else d |> updPort p (fun r => { r with pass := true, passAck := ack, retries := n }) |> resendAll p

/-! ## Link up (R141) -/

/-- The lanes in force of a port: those that carry a logical position. -/
def widthInForce (p : Nat) (d : Dev) : Nat :=
  ((portLanes p d).filter (fun n => rd Reg.LANE_LOGICAL (carrier n d) d != 15)).length

/-- The port becomes UP: sequence numbers and CONSUMED at 0, CREDIT the received initial values (R141). -/
def linkUp (p : Nat) (d : Dev) : Dev :=
  d |> wr Reg.LNK_LSTATE p 3 |> wr Reg.LNK_WIDTH p (widthInForce p d)
    |> wr Reg.LNK_TX_SEQ p 0 |> wr Reg.LNK_RX_SEQ p 0 |> wr Reg.LNK_ACK_SEQ p 16383
    |> updPort p (fun q => { q with
        credit := q.initial, consumed := [], received := [], cur := [], copies := [], nak := none,
        granted := (List.range 16).foldl (fun m v => smPut m v (rdI Reg.LNK_CRED_GRANT p v d)) [],
        pass := false, passAck := 0, retries := 0, rejoin := true, step := 0, flitNo := 0 })
    |> raise Ev.LINK_UP p |> sharedLowAlarm (sharedFree d)

/-- UP once an INIT with RX_OK = 1 has been received and one has been sent (R141). -/
def tryUp (p : Nat) (d : Dev) : Dev :=
  let q := portOf p d
  if rd Reg.LNK_LSTATE p d = 2 ∧ q.initRx ∧ q.peerOk ∧ q.sentOk then linkUp p d else d

/-- INIT did not complete: bring-up restarts with cause INIT_TIMEOUT (R141). -/
def initFail (p : Nat) (d : Dev) : Dev :=
  d |> wr Reg.LNK_DOWN_CAUSE p 9 |> raise Ev.INIT_FAIL p |> startBringup p

end Sys2Proof.Machine
end

