-- ==== Sys2Proof/Machine/SchedOps.lean ====
section
/-!
DEFINITION. Shapers, the calendar wheel and the time gates as shared operations (R198 to R206).
-/

namespace Sys2Proof.Machine

/-! ## Shapers (R198, R199, R201) -/

/-- Tokens of a shaper in 1/8000 byte; 19 is the port shaper. -/
def tokensOf (p q : Nat) (d : Dev) : Int := smGet (fun _ => (0 : Int)) (schedOf p d).tok q

/-- A shaper is enabled (R198). -/
def shaped (p q : Nat) (d : Dev) : Bool := rdI Reg.SCH_SHP_EN p q d == 1

/-- The tokens of a shaper now: refilled at RATE, never above BURST (R198). -/
def tokensNow (p q : Nat) (d : Dev) : Int :=
  min (rdI Reg.SCH_SHP_BURST p q d * 8000 : Int)
    (tokensOf p q d + (d.th.localNs - smGet (fun _ => 0) (schedOf p d).tokAt q) * rdI Reg.SCH_SHP_RATE p q d)

/-- Gives a shaper its tokens as of now. -/
def setTokens (p q : Nat) (t : Int) (d : Dev) : Dev :=
  updSched p (fun s => { s with tok := smPut s.tok q t, tokAt := smPut s.tokAt q d.th.localNs }) d

/-- A shaper is reconfigured: full or zero by RESET_TO; its wheel entry goes (R201). -/
def reconfigShaper (p q : Nat) (d : Dev) : Dev :=
  d |> setTokens p q (if rdI Reg.SCH_RESET_TO p q d = 1 then 0 else rdI Reg.SCH_SHP_BURST p q d * 8000)
    |> updSched p (fun s => { s with wheel := smErase s.wheel q })
    |> bump Reg.SCH_SHP_RESETS p

/-- The slot of a shaper whose tokens are below zero: at or after its eligible time, at most 40,950 ns ahead (R199). -/
def wheelSlot (now : Nat) (t : Int) (rate : Nat) : Nat :=
  let et := ((-t).toNat + rate - 1) / max rate 1
  if 40950 < et then (now + 40950 + 9) / 10 * 10 else (now + et + 9) / 10 * 10

/-- Charges a unit to a shaper; below zero it waits in the wheel (R198, R199). -/
def chargeShaper (p q l : Nat) (d : Dev) : Dev :=
  if shaped p q d then
    let t := tokensNow p q d - l * 8000
    d |> setTokens p q t
      |> onlyIf (decide (t < 0)) (updSched p (fun s => { s with
            wheel := smPut s.wheel q (wheelSlot d.th.localNs t (rdI Reg.SCH_SHP_RATE p q d)) }))
  else d

/-- A wheel entry that has come due is re-evaluated (R199). -/
def wheelDue (p q : Nat) (d : Dev) : Dev :=
  match smFind (schedOf p d).wheel q with
  | some t =>
    if t ≤ d.th.localNs then
      let x := tokensNow p q d
      d |> setTokens p q x |> updSched p (fun s => { s with
          wheel := if x < 0 then smPut s.wheel q (wheelSlot d.th.localNs x (rdI Reg.SCH_SHP_RATE p q d))
                   else smErase s.wheel q })
    else d
  | none => d

/-- A shaper lets its queue send: not enabled, or no wheel entry and tokens not below zero (R193, R199). -/
def shaperOk (p q : Nat) (d : Dev) : Bool :=
  !shaped p q d || ((smFind (schedOf p d).wheel q).isNone && decide (0 ≤ tokensNow p q d))

/-! ## Gate lists (R202 to R206) -/

/-- BASE of a list (0 A, 1 B). -/
def gateBase (p l : Nat) (d : Dev) : Nat :=
  if l = 0 then rd2 Reg.SCH_BASE_LO_A Reg.SCH_BASE_HI_A p 0 d else rd2 Reg.SCH_BASE_LO_B Reg.SCH_BASE_HI_B p 0 d

/-- COUNT of a list. -/
def gateCount (p l : Nat) (d : Dev) : Nat := if l = 0 then rd Reg.SCH_COUNT_A p d else rd Reg.SCH_COUNT_B p d

/-- DURATION and MASK of the entries of a list. -/
def gateEntries (p l : Nat) (d : Dev) : List (Nat × Nat) :=
  (List.range (gateCount p l d)).map (fun e =>
    if l = 0 then (rdI Reg.SCH_DURATION_A p e d, rdI Reg.SCH_MASK_A p e d)
    else (rdI Reg.SCH_DURATION_B p e d, rdI Reg.SCH_MASK_B p e d))

/-- CYCLE of a list (R202). -/
def gateCycle (p l : Nat) (d : Dev) : Nat := ((gateEntries p l d).map Prod.fst).sum

/-- A list that gates may run: COUNT 1 to 64, every DURATION 10 to 16,777,215 ns and CYCLE at most 1 s (R202, R203). -/
def gateListOk (p l : Nat) (d : Dev) : Bool :=
  decide (1 ≤ gateCount p l d ∧ gateCount p l d ≤ 64 ∧ gateCycle p l d ≤ 1000000000)
    && (gateEntries p l d).all (fun e => decide (10 ≤ e.1 ∧ e.1 ≤ 16777215))

/-- The entry in force `t` ns into a cycle, and the time since it began. -/
def gateAt : List (Nat × Nat) → Nat → Nat → Nat × Nat
  | [], _, k => (k, 0)
  | (dur, _) :: rest, t, k => if t < dur then (k, t) else gateAt rest (t - dur) (k + 1)

/-- When a list that goes into force now starts: at BASE, or where that lies in the past at its next cycle boundary (R203). -/
def listStart (p l : Nat) (d : Dev) : Nat :=
  let base := gateBase p l d
  let cyc := max (gateCycle p l d) 1
  base + (fabricNs d - base + cyc - 1) / cyc * cyc

/-- Recomputes which queues are open from fabric time (R202, R206); before its list starts every queue stays open (DEDUCED, log entry
19). -/
def gateRefresh (p : Nat) (d : Dev) : Dev :=
  if gatesOn p d then
    if timeValid d then
      let l := rd Reg.SCH_ACTIVE_LIST p d
      let base := gateBase p l d
      let cyc := gateCycle p l d
      let d1 := d |> wr Reg.SCH_GATE_FB p 0 |> updSched p (fun s => { s with fbRaised := false })
      if fabricNs d < (schedOf p d).startAt ∨ cyc = 0 then wr Reg.SCH_GATE_STATE p 0x7FFFF d1
      else
        let at_ := gateAt (gateEntries p l d) ((fabricNs d - base) % cyc) 0
        d1 |> wr Reg.SCH_GATE_STATE p ((gateEntries p l d).getD at_.1 (0, 0x7FFFF)).2
          |> updSched p (fun s => { s with entry := at_.1 })
    else
      let raised := (schedOf p d).fbRaised
      d |> wr Reg.SCH_GATE_FB p 1 |> wr Reg.SCH_GATE_STATE p (rd Reg.SCH_FALLBACK_MASK p d)
        |> updSched p (fun s => { s with fbRaised := true })
        |> onlyIf (!raised) (raise Ev.GATE_FALLBACK p)
  else d |> wr Reg.SCH_GATE_STATE p 0x7FFFF |> wr Reg.SCH_GATE_FB p 0 |> wr Reg.SCH_SWITCH_PEND p 0
    |> updSched p (fun s => { s with fbRaised := false, gated := none })

/-- The active list of a port starts by R203. -/
def gateStart (p : Nat) (d : Dev) : Dev :=
  d |> updSched p (fun s => { s with startAt := listStart p (rd Reg.SCH_ACTIVE_LIST p d) d }) |> gateRefresh p

/-- When a requested switch takes effect: the first cycle boundary of the new list at or after the end of the old list's current
cycle (R204). -/
def switchTime (p : Nat) (d : Dev) : Nat :=
  let l := rd Reg.SCH_ACTIVE_LIST p d
  let now := fabricNs d
  let b0 := gateBase p l d
  let c0 := max (gateCycle p l d) 1
  let start := (schedOf p d).startAt
  let stop := if now < start then start else b0 + ((now - b0) / c0 + 1) * c0
  let b1 := gateBase p (1 - l) d
  let c1 := max (gateCycle p (1 - l) d) 1
  if stop ≤ b1 then b1 else b1 + (stop - b1 + c1 - 1) / c1 * c1

/-- A switch is requested (R204): ignored while one is pending; a list that gates may not run is refused (R203). -/
def switchTrig (p : Nat) (val : Word) (d : Dev) : Dev :=
  if gatesOn p d ∧ rd Reg.SCH_SWITCH_PEND p d = 0 then
    if gateListOk p (1 - rd Reg.SCH_ACTIVE_LIST p d) d then
      d |> wr Reg.SCH_SWITCH_PEND p 1 |> updSched p (fun s => { s with switchAt := switchTime p d })
    else cfgErr 0x0E p 0x280 Cfg.CFG_GATE_LIST val d
  else d

/-- Fabric time reaches a gate boundary: a pending switch whose moment has come takes effect, and the open queues change (R202,
R204). -/
def gateTransition (p : Nat) (d : Dev) : Dev :=
  if gatesOn p d then
    let due := rd Reg.SCH_SWITCH_PEND p d == 1 && timeValid d && decide ((schedOf p d).switchAt ≤ fabricNs d)
    d |> onlyIf due (fun d => d |> wr Reg.SCH_ACTIVE_LIST p (1 - rd Reg.SCH_ACTIVE_LIST p d)
          |> updSched p (fun s => { s with startAt := s.switchAt }) |> wr Reg.SCH_SWITCH_PEND p 0 |> raise Ev.GATE_SWITCHED p)
      |> gateRefresh p
  else d

/-- Gates of every port after fabric time became valid or invalid, or stepped by more than 1 µs: the list's position, and the moment of a
pending switch, are computed anew (R204, R206). -/
def gatesTimeChange (step : Bool) (d : Dev) : Dev :=
  forEach ((List.range 144).filter (fun p => portStarts p d && gatesOn p d)) (fun p d =>
    d |> gateStart p |> onlyIf (rd Reg.SCH_SWITCH_PEND p d == 1) (fun d => updSched p (fun s => { s with switchAt := switchTime p d }) d)
      |> onlyIf step (raise Ev.TIME_STEP p)) d

/-- The flits that a packet takes at a port's rate (R126). -/
def flitsFor (p n : Nat) (d : Dev) : Nat := (n + flitPayload (sflRate p d) - 1) / flitPayload (sflRate p d)

/-- The guard band G in ns; 0 while a port has no speed or no width, and on an EXP port (R205, R213). -/
def guardNs (p : Nat) (d : Dev) : Nat :=
  let m := rd Reg.SCH_GATE_MAXSZ p d
  match pers (p / 8) d with
  | 3 =>
    let gbps := match rd Reg.ETH_SPEED p d with | 1 => 100 | 2 => 200 | 3 => 400 | 4 => 800 | 5 => 1600 | _ => 0
    if gbps = 0 then 0 else 20 + ((m + 20) * 8 + gbps - 1) / gbps
  | 2 =>
    let f := (match sflRate p d with | 1 => 2059 | 2 => 4118 | _ => 7602) * rd Reg.LNK_WIDTH p d
    if f = 0 then 0 else 20 + (flitsFor p m d * 10000 + f - 1) / f
  | _ => 0

/-- The time until a queue's gate closes, walking the entries from the one in force; none where it never does. -/
def untilClose (q : Nat) : List (Nat × Nat) → Option Nat
  | [] => none
  | (dur, mask) :: rest => if bitOf mask q then (untilClose q rest).map (· + dur) else some 0

/-- The time from now until the active list closes the queue's gate, none where it never does (R202, R203). -/
def activeClose (p q : Nat) (d : Dev) : Option Nat :=
  let l := rd Reg.SCH_ACTIVE_LIST p d
  let es := gateEntries p l d
  let start := (schedOf p d).startAt
  if fabricNs d < start then (untilClose q es).map (fun x => x + (start - fabricNs d))
  else
    let at_ := gateAt es ((fabricNs d - gateBase p l d) % max (gateCycle p l d) 1) 0
    (untilClose q (es.drop at_.1 ++ es.take at_.1)).map (fun x => x - at_.2)

/-- The time from now until the queue's gate next closes: the active list counts up to a pending switch, the other list from it on (R204). -/
def nextClose (p q : Nat) (d : Dev) : Option Nat :=
  let t := (schedOf p d).switchAt - fabricNs d
  if rd Reg.SCH_SWITCH_PEND p d = 1 then
    match activeClose p q d with
    | some x => if x < t then some x else (untilClose q (gateEntries p (1 - rd Reg.SCH_ACTIVE_LIST p d) d)).map (fun y => y + t)
    | none => (untilClose q (gateEntries p (1 - rd Reg.SCH_ACTIVE_LIST p d) d)).map (fun y => y + t)
  else activeClose p q d

/-- At least G remains before the queue's gate next closes (R205). -/
def gateRoom (p q : Nat) (d : Dev) : Bool :=
  match nextClose p q d with | some x => decide (guardNs p d ≤ x) | none => true

end Sys2Proof.Machine
end

