-- ==== Sys2Proof/Machine/TimeOps.lean ====
section
/-!
DEFINITION. The time tree (R454, R455, R459, R460): grandmaster records, the choice of grandmaster and parent, and the states of time
service.
-/

namespace Sys2Proof.Machine

/-- Changes the time service beside its registers. -/
def updTh (f : TimeHzn → TimeHzn) (d : Dev) : Dev := { d with th := f d.th }

/-- The record heard on a port. -/
def gmRecOf (p : Nat) (d : Dev) : Option GmRec := smGet (fun _ => none) d.th.gmRecs p

/-- Gives a port its record. -/
def putGmRec (p : Nat) (r : Option GmRec) (d : Dev) : Dev := updTh (fun t => { t with gmRecs := smSet (fun _ => none) t.gmRecs p r }) d

/-- A port takes part in time service: UP with TIME_EN = 1. -/
def timePort (p : Nat) (d : Dev) : Bool := portUp p d && rdI Reg.TIM_TIME_EN 0 p d == 1

/-- CLASS of the own record (R454). -/
def ownClass (d : Dev) : Nat := if rd Reg.TIM_PPS_IN_EN 0 d = 1 ∧ d.th.ppsSeen = true then 0 else 1

/-- The own record, of a device with TIM_PRIO above 0. -/
def ownRec (d : Dev) : GmRec :=
  { id := d.otp.serial, prio := rd Reg.TIM_PRIO 0 d, cls := ownClass d, round := rd Reg.TIM_GM_ROUND 0 d, depth := 0, fresh := true
    tai := rd Reg.TIM_TAI_UTC 0 d }

/-- A record comes before another: lower CLASS, then higher TIM_PRIO, then lower serial (R454). -/
def gmBefore (a b : GmRec) : Bool :=
  decide (a.cls < b.cls ∨ (a.cls = b.cls ∧ (b.prio < a.prio ∨ (a.prio = b.prio ∧ a.id < b.id))))

/-- The fresh records of ports in time service (R454). -/
def freshRecs (d : Dev) : List (Nat × GmRec) :=
  (List.range 144).filterMap (fun p => match gmRecOf p d with
    | some r => if r.fresh && timePort p d then some (p, r) else none
    | none => none)

/-- The grandmaster's record: the best of the own and the advertised ones within MAX_DEPTH (R454). -/
def bestGm (d : Dev) : Option GmRec :=
  let l := ((freshRecs d).filter (fun x => decide (x.2.depth < rd Reg.TIM_MAX_DEPTH 0 d))).map (fun x => x.2)
  (if rd Reg.TIM_PRIO 0 d = 0 then l else ownRec d :: l).foldl (fun b r => match b with
    | none => some r
    | some x => if gmBefore r x then some r else some x) none

/-- PARENT_PIN names a port that is UP with TIME_EN = 1 (R455). -/
def pinUp (d : Dev) : Bool := decide (rd Reg.TIM_PARENT_PIN 0 d < 144) && timePort (rd Reg.TIM_PARENT_PIN 0 d) d

/-- The parent port with its fresh record: PARENT_PIN where it may be, else the lowest DEPTH that carries the grandmaster's record
(R455). -/
def parentOf (gm : GmRec) (d : Dev) : Option (Nat × GmRec) :=
  let l := freshRecs d
  if pinUp d then l.find? (fun x => x.1 == rd Reg.TIM_PARENT_PIN 0 d)
  else (l.filter (fun x => x.2.id == gm.id && decide (x.2.depth < rd Reg.TIM_MAX_DEPTH 0 d))).foldl (fun b x => match b with
    | none => some x
    | some y => if x.2.depth < y.2.depth then some x else some y) none

/-- The device's grandmaster changes. -/
def setGm (r : GmRec) (d : Dev) : Dev :=
  d |> onlyIf (rd2 Reg.TIM_GM_ID_LO Reg.TIM_GM_ID_HI 0 0 d != r.id % 2 ^ 64)
        (fun d => d |> wr2 Reg.TIM_GM_ID_LO Reg.TIM_GM_ID_HI 0 0 (r.id % 2 ^ 64) |> raise Ev.FT_GM_CHANGE 0)
    |> wr Reg.TIM_GM_PRIO 0 r.prio

/-- The parent port changes. -/
def setParent (p : Nat) (d : Dev) : Dev :=
  onlyIf (rd Reg.TIM_PARENT 0 d != p)
    (fun d => d |> wr Reg.TIM_PARENT 0 p |> bump Reg.TIM_PARENT_CHG 0 |> raise Ev.FT_PARENT_CHANGE 0) d

/-- Acquisition starts anew (R455, R460). -/
def acquire (d : Dev) : Dev := d |> wr Reg.TIM_STATE 0 1 |> updTh (fun t => { t with okRun := 0, badRun := 0 })

/-- A device without a fresh parent that is not grandmaster: HOLDOVER while its time is valid, else FREE (R459, R460, R470). -/
def noParent (d : Dev) : Dev :=
  if timeValid d then onlyIf (rd Reg.TIM_STATE 0 d != 3) (fun d => d |> wr Reg.TIM_STATE 0 3 |> raise Ev.FT_HOLDOVER 0) d
  else wr Reg.TIM_STATE 0 0 d

/-- PARENT of a device that follows no fresh record: the port that PARENT_PIN names where it may be, else none (R455, R470). -/
def pinPort (d : Dev) : Nat := if pinUp d then rd Reg.TIM_PARENT_PIN 0 d else 0xFF

/-- The device chooses its grandmaster and its parent (R454, R455). -/
def timeElect (d : Dev) : Dev :=
  match bestGm d with
  | none => d |> setParent (pinPort d) |> noParent |> updTh (fun t => { t with setArmed := false })
  | some g =>
    if g.id = d.otp.serial ∧ rd Reg.TIM_PRIO 0 d ≠ 0 then
      d |> setParent 0xFF |> setGm g |> wr Reg.TIM_DEPTH 0 0 |> wr Reg.TIM_STATE 0 4
    else
      match parentOf g d with
      | none => d |> setParent (pinPort d) |> noParent
      | some (p, r) =>
        let fresh := rd Reg.TIM_PARENT 0 d != p || rd2 Reg.TIM_GM_ID_LO Reg.TIM_GM_ID_HI 0 0 d != r.id % 2 ^ 64
          || rd Reg.TIM_STATE 0 d == 0 || rd Reg.TIM_STATE 0 d == 3 || rd Reg.TIM_STATE 0 d == 4
        d |> setParent p |> setGm r |> wr Reg.TIM_DEPTH 0 (min (r.depth + 1) 31) |> wr Reg.TIM_GM_ROUND 0 r.round
          |> wr Reg.TIM_TAI_UTC 0 r.tai |> updTh (fun t => { t with setArmed := false })
          |> onlyIf fresh acquire

/-- A port went down: its record and its exchanges are gone (R469). -/
def timePortDown (p : Nat) (d : Dev) : Dev :=
  d |> putGmRec p none |> updTh (fun t => { t with ports := smSet (fun _ => none) t.ports p none }) |> timeElect

end Sys2Proof.Machine
end

