-- ==== Sys2Proof/Machine/Clock.lean ====
section
/-!
DEFINITION. The block's clocks (R451, R452, R459): what passes while no command waits.
-/

namespace Sys2Proof.Machine

/-- How far fabric time moves in 1 ns of local time, in 1/65536 ns, under the frequency correction in force; the rounding is the model's
(DESIGN CHOICE, log entry 1). -/
def fabricRate (d : Dev) : Nat := (65536 + 65536 * toSigned 32 (rd Reg.TIM_ADJ_PPB 0 d) / 1000000000 : Int).toNat

/-- One ns of local time passes; the memory path serves what waits (R19). -/
def idleTick (d : Dev) : Dev :=
  memServeAll <| updTh (fun t => { t with localNs := t.localNs + 1, fabric := (t.fabric + fabricRate d) % 2 ^ 80 }) d

end Sys2Proof.Machine
end

