-- ==== Sys2Proof/Machine/RespOps.lean ====
section
/-!
DEFINITION. The responder (ch. 09, ch. 11): classification of requests (R276, R277), their checks (R280), what each does (R281 to R283,
R346, R349), and the lagoon (R290, R291).
-/

namespace Sys2Proof.Machine

/-! ## Kinds of requests (R260) -/

/-- The opcode is one of R260's requests. -/
def reqKnown (opc : Nat) : Bool :=
  decide (opc ≤ 5) || (8 ≤ opc && opc ≤ 0x0D) || opc == 0x10 || (0x18 ≤ opc && opc ≤ 0x1B) || opc == 0x20

/-- First packet of a message: it starts one. -/
def isFirst (opc : Nat) : Bool := [0x00, 0x03, 0x05, 0x08, 0x0B, 0x0D].contains opc

/-- Last packet of a message. -/
def isLast (opc : Nat) : Bool := [0x02, 0x03, 0x04, 0x05, 0x0A, 0x0B, 0x0C, 0x0D].contains opc

/-- A packet with an immediate value. -/
def hasImm (opc : Nat) : Bool := [0x04, 0x05, 0x0C, 0x0D].contains opc

/-- A READ_REQ or an atomic. -/
def isReadOrAtomic (opc : Nat) : Bool := opc == 0x10 || (0x18 ≤ opc && opc ≤ 0x1B)

/-- Bytes of an atomic's operand (R261). -/
def atomicBytes (opc : Nat) : Nat := if opc ≤ 0x19 then 8 else 16

/-- PSNs a request consumes (R270). -/
def psnsOf (mtu : Nat) (p : SftPkt) : Nat := if p.opc = 0x10 then max 1 ((p.dmalen + mtu - 1) / mtu) else 1

/-- Bytes of a request packet with its network header (R258, R260, R338). -/
def reqSize (matchEn : Bool) (p : SftPkt) : Nat :=
  let ext := if p.opc = 0x08 ∨ p.opc = 0x0B ∨ p.opc = 0x10 then 16 else if p.opc = 0x0D then 20
    else if 0x18 ≤ p.opc ∧ p.opc ≤ 0x1B then 48 else if p.opc = 0x20 then 8
    else if hasImm p.opc then 4 else 0
  16 + 16 + ext + (if matchEn ∧ p.opc ≤ 5 then 24 else 0) + p.payload.length + 4

/-! ## Answers -/

/-- RNR_NAK: the send is refused for want of a receive entry (R262, R280). -/
def answerRnr (n key : Nat) (q : Qp) (psn : Nat) (d : Dev) : Dev :=
  d |> sendNak n key psn 1 (8 * q.rnrTmr) |> bump Reg.TPE_RNR_NAK_TX (n % 8)

/-- An error answer moves the responder queue pair to ERROR (R280). -/
def answerError (n key synd psn : Nat) (d : Dev) : Dev :=
  d |> sendNak n key psn synd 0 |> enterError n (Ending.plain psn)

/-- The answer to a key check that failed (R280 step 3, R303). -/
def answerKey (n key : Nat) (q : Qp) (step psn : Nat) (d : Dev) : Dev :=
  if step = 1 then d |> sliceEvent q.slice RingEv.KEY_GEN_STALE n psn |> answerError n key 6 psn
  else d |> sliceEvent q.slice RingEv.REM_ACCESS_ERR n psn |> answerError n key 4 psn

/-- A new request has been accepted: EPSN advances by the PSNs it consumes, MSN by a completed message; CE is echoed in the next VC2 packet
(R262, R276, R284). -/
def accept (n key k : Nat) (message : Bool) (p : SftPkt) (d : Dev) : Dev :=
  updConn n key (fun c => { c with
    epsn := psnAdd c.epsn k, nakSent := false, msn := if message then psnAdd c.msn 1 else c.msn, ece := c.ece || p.ce }) d

/-- ACKREQ makes an ACK due; ACK_CNT accepted packets send one (R279). -/
def ackPolicy (n key : Nat) (ackReq : Bool) (d : Dev) : Dev :=
  let d1 := updConn n key (fun c => { c with accepted := c.accepted + 1, ackDue := c.ackDue || ackReq }) d
  match qpOf n d1 with
  | some q => if rd Reg.TPE_ACK_CNT (n % 8) d1 ≤ (q.conn key).accepted then sendAck n key d1 else d1
  | none => d1

/-- The relaxed-ordering flag and owner of inbound data writes (R281, R431). -/
def roRx (q : Qp) : Bool := bitOf q.perm 6

/-- The place of a receive buffer's byte `off` on may be written now. -/
def keyUp (key a n : Nat) (d : Dev) : Bool := placeUp (placeOf (regionOf (keyIdx key) d) a n d) d

/-- Data of a message lands in a receive buffer, as far as it is long (R349). -/
def landRecv (n : Nat) (q : Qp) (e : RqEntry) (got : Nat) (bytes : List Byte) (d : Dev) : Dev :=
  let b := bytes.take (e.len - got)
  if b.isEmpty then d else writeKey e.lkey (e.addr + got) (roRx q) ⟨1, n⟩ b d

/-- Sets the message in progress of a connection. -/
def setInn (n key : Nat) (i : Inbound) (d : Dev) : Dev := updConn n key (fun c => { c with inn := i }) d

/-! ## Lengths (R258, R280 step 2) -/

/-- The payload has the length its opcode demands. -/
def lenOk (q : Qp) (i : Inbound) (p : SftPkt) : Bool :=
  let m := q.bytes
  let l := p.payload.length
  match p.opc with
  | 0x00 | 0x01 => l == m
  | 0x02 | 0x03 | 0x04 | 0x05 => decide (l ≤ m)
  | 0x08 => l == m && decide (m < p.dmalen ∧ p.dmalen ≤ 2 ^ 31)
  | 0x09 => l == m && decide (i.got + l < i.total)
  | 0x0A | 0x0C => decide (l ≤ m) && i.got + l == i.total
  | 0x0B | 0x0D => decide (l ≤ m) && l == p.dmalen
  | 0x10 => decide (p.dmalen ≤ 2 ^ 31)
  | 0x18 | 0x19 => p.vaddr % 8 == 0
  | 0x1A | 0x1B => p.vaddr % 16 == 0
  | _ => true

/-- The opcode is valid for the queue pair and the message in progress (R280 step 1, R285). -/
def opcOk (q : Qp) (i : Inbound) (p : SftPkt) : Bool :=
  reqKnown p.opc && (!q.rd || [0x03, 0x05, 0x20].contains p.opc) &&
    (if isReadOrAtomic p.opc ∨ p.opc = 0x20 ∨ isFirst p.opc then i.kind == 0
     else if p.opc ≤ 5 then i.kind == 1 || i.kind == 3 || i.kind == 4 || i.kind == 5
     else i.kind == 2)

/-- A finish of a rendezvous (R340). -/
def isFinish (q : Qp) (p : SftPkt) : Bool := p.opc == 0x20 && q.matchEn && p.nvalue / 2 ^ 60 % 16 == 15

/-- PERM lets the operation through (R280 step 1, R283, R340). -/
def permOk (q : Qp) (p : SftPkt) : Bool :=
  if 8 ≤ p.opc ∧ p.opc ≤ 0x0D then bitOf q.perm 0
  else if p.opc = 0x10 then bitOf q.perm 1
  else if 0x18 ≤ p.opc ∧ p.opc ≤ 0x1B then bitOf q.perm 2
  else if p.opc = 0x20 then bitOf q.perm 3 || isFinish q p
  else true

/-! ## SEND without matching -/

/-- Takes the oldest receive entry. -/
def takeRecv (n : Nat) (d : Dev) : Dev := updQp n (fun q => { q with rq := q.rq.tail, rqCi := (q.rqCi + 1) % 65536 }) d

/-- The receive completion of a message (R266, R281). -/
def recvCqe (n : Nat) (q : Qp) (p : SftPkt) (e : RqEntry) (len : Nat) (d : Dev) : Dev :=
  let imm := hasImm p.opc
  cqe q.rcqn n ⟨e.wrId, min len e.len, if imm then p.imm else 0, n, if imm then 9 else 8,
    if e.len < len then 1 else 0, bnat imm + 2 * bnat p.sol, srcOf p.slid p.sqpn⟩ d

/-- A SEND packet for a receive entry (R280 to R283). -/
def doSend (n key : Nat) (q : Qp) (p : SftPkt) (d : Dev) : Dev :=
  let c := q.conn key
  let go := fun (i : Inbound) (d : Dev) =>
    if i.kind = 5 then
      d |> setInn n key (if isLast p.opc then Inbound.none else { i with got := i.got + p.payload.length })
        |> accept n key 1 (isLast p.opc) p |> ackPolicy n key p.ackReq
    else if !keyUp i.entry.lkey i.entry.addr i.entry.len d then
      d |> flushRecv n q 0x0C i.entry |> setInn n key Inbound.none |> answerError n key 5 p.psn
    else
      let len := i.got + p.payload.length
      d |> landRecv n q i.entry i.got p.payload
        |> setInn n key (if isLast p.opc then Inbound.none else { i with got := len })
        |> accept n key 1 (isLast p.opc) p
        |> onlyIf (isLast p.opc) (recvCqe n q p i.entry len)
        |> ackPolicy n key p.ackReq
  if isFirst p.opc then
    match q.rq with
    | [] => answerRnr n key q p.psn d
    | e :: _ =>
      let d1 := takeRecv n d
      if lkeyOk q.slice e.lkey e.addr e.len true d then
        go { Inbound.none with kind := 1, entry := e } d1
      else go { Inbound.none with kind := 5 } (flushRecv n q 2 e d1)
  else go c.inn d

/-! ## Matching (R336, R338, R346, R349, R351) -/

/-- The header of a later packet equals that of the first (R338). -/
def sameHdr (i : Inbound) (p : SftPkt) : Bool :=
  i.ctxid == p.ctxid && i.rank == p.rank && i.tag == p.tag && i.total == p.mlen

/-- Starts the reads of a matched rendezvous, or ends it at once where nothing is to be read (R349). Where its queue pair is gone or in ERROR
by then, the receive completes FLUSHED, as R353 has it for a queue pair that enters ERROR during the reads (log entry 205). -/
def startRndv (k qpn : Nat) (post : Posted) (rank tag mlen vaddr rkey rid : Nat) (sol fromUx : Bool) (d : Dev) : Dev :=
  let slot := (quad k d).nextId
  let len := min mlen post.len
  let d0 := bump Reg.MTE_RNDV_CNT k d
  match qpOf qpn d with
  | none => matchCqe k post.ctx qpn post.wrId 0 rank 11 9 (mflags sol false true fromUx) tag d0
  | some q =>
    if q.state = 0 ∨ q.state = 5 then
      matchCqe k post.ctx qpn post.wrId 0 rank 11 9 (mflags sol false true fromUx) tag d0
    else if !lkeyOk q.slice post.lkey post.addr post.len true d then
      d0 |> matchCqe k post.ctx qpn post.wrId 0 rank 11 2 (mflags sol false true fromUx) tag |> addFinish qpn rid true
    else
      let d1 := d0 |> updQuad k (fun x => { x with
        nextId := slot + 1
        rndvs := x.rndvs ++ [⟨slot, qpn, post, rank, tag, mlen, vaddr, rkey, rid, fromUx, sol⟩] })
      if len = 0 then rndvDone k slot d1
      else addWqe qpn (.rndvRead k slot) (fun w => { w with
        wop := 4, len := len, laddr := post.addr, lkey := post.lkey, raddr := vaddr, rkey := rkey, ro := roRx q }) d1

/-- Data of a matched or unexpected message (R349); the last packet completes it. -/
def moreMatched (n key : Nat) (q : Qp) (i : Inbound) (p : SftPkt) (d : Dev) : Dev :=
  let len := i.got + p.payload.length
  let next := if isLast p.opc then Inbound.none else { i with got := len }
  let fin := fun d => d |> accept n key 1 (isLast p.opc) p |> ackPolicy n key p.ackReq
  match i.kind with
  | 3 =>
    let post : Posted := ⟨i.ux, i.rank, i.tag, 0, 0, i.entry.addr, i.entry.lkey, i.entry.len, i.entry.wrId⟩
    if !keyUp i.entry.lkey i.entry.addr i.entry.len d then
      d |> matchCqe i.quad i.ux n i.entry.wrId 0 i.rank 11 0x0C 0 i.tag |> setInn n key Inbound.none
        |> answerError n key 5 p.psn
    else
      d |> landRecv n q i.entry i.got p.payload |> setInn n key next
        |> onlyIf (isLast p.opc) (completeRecv i.quad n post i.rank i.tag i.total p.sol false false) |> fin
  | 4 =>
    let before := poolFree i.quad d
    let d1 := d |> updQuad i.quad (fun x => { x with unexp := x.unexp.map (fun u =>
        if u.id = i.ux then { u with data := u.data ++ p.payload, arriving := !isLast p.opc, sol := u.sol || p.sol } else u) })
      |> setInn n key next
    let d2 := if isLast p.opc then
        (match (quad i.quad d1).unexp.find? (fun u => u.id == i.ux) with
         | some u =>
           (match u.taken with
            | some post =>
              d1 |> updQuad i.quad (fun x => { x with unexp := x.unexp.filter (fun y => y.id != u.id) })
                |> landRecv n q ⟨post.wrId, post.addr, post.lkey, post.len⟩ 0 u.data
                |> completeRecv i.quad n post u.rank u.tag u.mlen u.sol false true
                |> countQuad i.quad before
            | none => d1)
         | none => d1)
      else d1
    fin d2
  | _ => d |> setInn n key next |> fin

/-- An arrival that would be unexpected is refused (R351). -/
def uxRefused (k : Nat) (c : MCtx) (ctx : Nat) (p : SftPkt) (d : Dev) : Bool :=
  let q := quad k d
  let units := if p.rndv then 0 else (p.mlen + 64 + 255) / 256
  decide (listRoom ≤ (uxList q).length)
    || (c.uxMax != 0 && decide (c.uxMax ≤ ((uxList q).filter (fun u => u.ctx == ctx)).length))
    || decide (poolFree k d < units)

/-- The first packet of a message is matched (R346): against the posted receives, or entered unexpected, or refused. -/
def decideArrival (n key k ctx : Nat) (q : Qp) (c : MCtx) (p : SftPkt) (d : Dev) : Dev :=
  let r := searchPosted (quad k d) ctx p.rank p.tag
  let before := poolFree k d
  let i0 : Inbound := { Inbound.none with total := p.mlen, ctxid := p.ctxid, rank := p.rank, tag := p.tag, quad := k }
  let stamped := putCtx k ctx (some { c with arrStamp := psnAdd c.arrStamp 1 })
  let desc := p.payload
  let vaddr := ofBe (desc.take 8)
  let rkey := ofBe ((desc.drop 8).take 4)
  let rid := ofBe ((desc.drop 12).take 4) % 65536
  match r.found.bind (fun x => (quad k d).posted[x]?) with
  | some post =>
    let d1 := d |> countSearch k r |> stamped
      |> updQuad k (fun x => { x with posted := x.posted.filter (fun y => decide (y ≠ post)), prqFull := false })
      |> countQuad k before
    if p.rndv then
      d1 |> accept n key 1 true p |> startRndv k n post p.rank p.tag p.mlen vaddr rkey rid p.sol false
        |> ackPolicy n key p.ackReq
    else if !lkeyOk q.slice post.lkey post.addr post.len true d1 then
      d1 |> matchCqe k ctx n post.wrId 0 p.rank 11 2 0 p.tag |> moreMatched n key q { i0 with kind := 5 } p
    else
      moreMatched n key q { i0 with kind := 3, ux := ctx, entry := ⟨post.wrId, post.addr, post.lkey, post.len⟩ } p d1
  | none =>
    if uxRefused k c ctx p d then
      d |> countSearch k r |> bump Reg.MTE_UX_RNR k
        |> onlyIf (!(quad k d).uxFull) (fun d => d |> updQuad k (fun x => { x with uxFull := true }) |> raise Ev.MATCH_UX_FULL k)
        |> answerRnr n key q p.psn
    else
      let id := (quad k d).nextId
      let u : Unexp := {
        id := id, ctx := ctx, rndv := p.rndv, arriving := !p.rndv, rank := p.rank, tag := p.tag,
        mlen := p.mlen, stamp := c.arrStamp, units := if p.rndv then 0 else (p.mlen + 64 + 255) / 256, data := [], qpn := n,
        vaddr := vaddr, rkey := rkey, rid := rid, sol := p.sol, taken := none }
      let d1 := d |> countSearch k r |> stamped |> bump Reg.MTE_UX_IN k
        |> updQuad k (fun x => { x with unexp := x.unexp ++ [u], nextId := id + 1, uxFull := false }) |> countQuad k before
      if p.rndv then d1 |> accept n key 1 true p |> ackPolicy n key p.ackReq
      else moreMatched n key q { i0 with kind := 4, ux := id } p d1

/-- A SEND packet on a queue pair with MATCH_EN (R336, R338, R348). -/
def doMatchSend (n key : Nat) (q : Qp) (p : SftPkt) (d : Dev) : Dev :=
  let c := q.conn key
  if isFirst p.opc then
    let k := quadOf q.slice p.ctxid
    match findCtx k q.slice p.ctxid d with
    | none =>
      let due := match (quad k d).missAt with | some t => decide (t + 1000000 ≤ d.th.localNs) | none => true
      d |> bump Reg.MTE_CTX_MISS_CNT k
        |> onlyIf due (fun d => d |> updQuad k (fun x => { x with missAt := some d.th.localNs }) |> raise Ev.CTX_MISS k)
        |> answerRnr n key q p.psn
    | some ctx =>
      match ctxOf k ctx d with
      | none => d
      | some m =>
        if m.failed then answerError n key 5 p.psn d
        else if ctxWaits k ctx d || (searchPosted (quad k d) ctx p.rank p.tag).overflow then
          d |> updQuad k (fun x => { x with waits := x.waits ++ [.arrival ctx n] })
            |> updQp n (fun q => { q with busy := some (.matching key p) })
        else decideArrival n key k ctx q m p d
  else if !sameHdr c.inn p then answerError n key 3 p.psn d
  else moreMatched n key q c.inn p d

/-! ## WRITE -/

/-- A WRITE packet (R280, R281). The WR_ID of a write with immediate data that finds no receive entry is not stated, a free value
(log entry 26). -/
def doWrite (n key : Nat) (q : Qp) (p : SftPkt) (d : Dev) : Dev :=
  let c := q.conn key
  let i : Inbound := if isFirst p.opc then
      { Inbound.none with kind := 2, vaddr := p.vaddr, rkey := p.rkey, total := p.dmalen } else c.inn
  let first := isFirst p.opc
  let step := rkeyStep q.slice i.rkey 1 (if first then i.vaddr else i.vaddr + i.got) (if first then i.total else p.payload.length) d
  let d0 := countKey i.rkey step d
  if step ≠ 0 then answerKey n key q step p.psn d0
  else if p.payload.length ≠ 0 ∧ !keyUp i.rkey (i.vaddr + i.got) p.payload.length d0 then answerError n key 5 p.psn d0
  else
    let d1 := d0 |> onlyIf (!p.payload.isEmpty) (writeKey i.rkey (i.vaddr + i.got) (roRx q) ⟨1, n⟩ p.payload)
      |> setInn n key (if isLast p.opc then Inbound.none else { i with got := i.got + p.payload.length })
      |> accept n key 1 (isLast p.opc) p
    let d2 := if hasImm p.opc then
        (match q.rq with
         | e :: _ => d1 |> takeRecv n |> recvCqe n q p { e with len := i.total } i.total
         | [] => let w := free 64 d1
                 d1 |> takeFree |> recvCqe n q p ⟨w, 0, 0, i.total⟩ i.total)
      else d1
    ackPolicy n key p.ackReq d2

/-! ## READ and atomics -/

/-- Enters a request into the response record: the next of the ring's 16 entries of 32 B in the backing store (R278, R289). -/
def record (n : Nat) (e : RecEntry) (d : Dev) : Dev :=
  match qpOf n d with
  | none => d
  | some q =>
    d |> updQp n (fun q => { q with rec_ := (e :: q.rec_).take 16, recPos := (q.recPos + 1) % 16 })
      |> backWrite n (0x100000 + 512 * (n % 4096) + 32 * q.recPos)
          (leBytes 3 e.psn ++ leBytes 1 e.opc ++ leBytes 4 e.rkey ++ leBytes 8 e.vaddr ++ leBytes 16 e.result)

/-- The response packets of a read segment from its first PSN on (R258, R260). -/
def readPkts (mtu psn : Nat) (data : List Byte) : List (Nat × Nat × List Byte) :=
  let k := max 1 ((data.length + mtu - 1) / mtu)
  (List.range k).map (fun i =>
    (if k = 1 then 0x14 else if i = 0 then 0x11 else if i + 1 = k then 0x13 else 0x12, psnAdd psn i,
      (data.drop (i * mtu)).take mtu))

/-- Sends the responses of a read segment. -/
def sendRead (n key mtu psn : Nat) (data : List Byte) (d : Dev) : Dev :=
  forEach (readPkts mtu psn data) (fun x => sendResp n key x.1 x.2.1 0 0 (x.1 != 0x12) x.2.2) d

/-- Sends an atomic response: the value before the operation (R261). -/
def sendAtomic (n key psn value : Nat) (d : Dev) : Dev := sendResp n key 0x1C psn 0 0 true (beBytes 16 value) d

/-- What an atomic makes of a value (R261, R265). -/
def atomicNew (p : SftPkt) (old : Nat) : Nat :=
  let m := 2 ^ (8 * atomicBytes p.opc)
  if p.opc = 0x18 ∨ p.opc = 0x1A then (old + p.op1) % m
  else if old = p.op1 % m then p.op2 % m else old

/-- Reads the data of a segment: from package memory at once, from host memory by a host read, while which an ACK may be due (R277, R279,
R281). An uncorrectable word of package
memory answers REM_OP_ERR (R280, R524). -/
def readSegment (dup : Bool) (n key : Nat) (q : Qp) (p : SftPkt) (d : Dev) : Dev :=
  let pl := placeOf (regionOf (keyIdx p.rkey) d) p.vaddr p.dmalen d
  match pl with
  | .pkm o => if badBytes o p.dmalen d then answerError n key 5 p.psn d else sendRead n key q.bytes p.psn (memReads o p.dmalen d) d
  | .host v pasid spans =>
    if p.dmalen = 0 then sendRead n key q.bytes p.psn [] d
    else d |> (if dup then id else ackPolicy n key p.ackReq) |> updQp n (fun q => { q with busy := some (.read key p) })
      |> startRead v q.slice (keyIdx p.rkey) (.respond n) (readSpans v pasid (roRx q) ⟨1, n⟩ spans)

/-- A READ_REQ (R280, R281). -/
def doRead (n key : Nat) (q : Qp) (p : SftPkt) (d : Dev) : Dev :=
  let step := rkeyStep q.slice p.rkey 0 p.vaddr p.dmalen d
  let d0 := countKey p.rkey step d
  if step ≠ 0 then answerKey n key q step p.psn d0
  else if p.dmalen ≠ 0 ∧ !keyUp p.rkey p.vaddr p.dmalen d0 then answerError n key 5 p.psn d0
  else
    d0 |> accept n key (psnsOf q.bytes p) true p |> record n ⟨p.psn, p.opc, p.rkey, p.vaddr, p.dmalen⟩ |> readSegment false n key q p

/-- The 16 bytes of host memory that an atomic works on (R282). -/
def atomicLine (p : SftPkt) (d : Dev) : Option (Nat × Option Nat × Nat) :=
  match placeOf (regionOf (keyIdx p.rkey) d) p.vaddr (atomicBytes p.opc) d with
  | .host v pasid spans => (spans.head?).map (fun s => (v, pasid, s.1 / 16))
  | .pkm _ => none

/-- A host read-modify-write on the same 16 bytes is under way (R282). -/
def lineBusy (line : Option (Nat × Option Nat × Nat)) (d : Dev) : Bool :=
  d.eng.qps.any (fun e => match e.2 with
    | some q => (match q.busy with | some (.atomic _ false x) => atomicLine x d == line | _ => false)
    | none => false)

/-- An atomic (R280, R282, R432). -/
def doAtomic (n key : Nat) (q : Qp) (p : SftPkt) (d : Dev) : Dev :=
  let b := atomicBytes p.opc
  let step := rkeyStep q.slice p.rkey 2 p.vaddr b d
  let d0 := countKey p.rkey step d
  if step ≠ 0 then answerKey n key q step p.psn d0 else
  match placeOf (regionOf (keyIdx p.rkey) d0) p.vaddr b d0 with
  | .pkm o =>
    if badBytes o b d0 then answerError n key 5 p.psn d0 else
    let old := ofLe (memReads o b d0)
    d0 |> memWrites o (leBytes b (atomicNew p old)) |> accept n key 1 true p
      |> record n ⟨p.psn, p.opc, p.rkey, p.vaddr, old⟩ |> sendAtomic n key p.psn old
  | .host v pasid spans =>
    if !bme v d0 then answerError n key 5 p.psn d0
    else if bitOf (rd Reg.TPE_ATOMIC_HOST (n % 8) d0) v then
      if p.opc = 0x1A then answerError n key 3 p.psn d0
      else if !aopEnable v d0 then d0 |> bump Reg.FUN_ATOMIC_REFUSED v |> answerError n key 5 p.psn
      else
        d0 |> accept n key 1 true p |> ackPolicy n key p.ackReq |> updQp n (fun q => { q with busy := some (.atomic key true p) })
          |> startRead v q.slice (keyIdx p.rkey) (.respond n) (fun tag =>
              (readSpans v pasid (roRx q) ⟨1, n⟩ spans tag).map (fun a => { a with
                chan := .hostAtomic, bytes := leBytes b p.op1 ++ (if p.opc = 0x18 then [] else leBytes b p.op2) }))
    else
      if lineBusy (atomicLine p d0) d0 then updQp n (fun q => { q with busy := some (.atomicHeld p) }) d0 else
      d0 |> accept n key 1 true p |> ackPolicy n key p.ackReq |> updQp n (fun q => { q with busy := some (.atomic key false p) })
        |> startRead v q.slice (keyIdx p.rkey) (.respond n) (readSpans v pasid (roRx q) ⟨1, n⟩ spans)

/-! ## NOTIFY -/

/-- A finish completes the rendezvous request that awaits it, or is discarded (R340). Which page counts one that names none is not
stated, a free value (log entry 28). -/
def doFinish (n key : Nat) (q : Qp) (p : SftPkt) (d : Dev) : Dev :=
  let d1 := d |> accept n key 1 true p |> ackPolicy n key p.ackReq
  match q.started.find? (fun w => w.rndv == 1 && w.idx % 65536 == p.nvalue % 65536) with
  | some w =>
    let bad := bitOf p.nvalue 59
    d1 |> updQp n (fun q => { q with started := q.started.map (fun x =>
        if x.id = w.id then { x with rndv := if bad then 3 else 2, status := if bad then 6 else x.status } else x) })
      |> completeWqes n
  | none => d1 |> takeFree |> bump Reg.MTE_FIN_BAD (free 2 d1)

/-- A NOTIFY writes a completion with WR_ID = NVALUE and consumes no receive entry (R283). -/
def doNotify (n key : Nat) (q : Qp) (p : SftPkt) (d : Dev) : Dev :=
  d |> accept n key 1 true p
    |> cqe q.rcqn n ⟨p.nvalue, 0, 0, n, 10, 0, 2 * bnat p.sol, srcOf p.slid p.sqpn⟩
    |> ackPolicy n key p.ackReq

/-! ## Classification (R276, R277) -/

/-- Checks a new request and executes it (R280). -/
def runNew (n key : Nat) (q : Qp) (p : SftPkt) (d : Dev) : Dev :=
  let i := (q.conn key).inn
  if !opcOk q i p then answerError n key 3 p.psn d
  else if !permOk q p then answerError n key 4 p.psn d
  else if !lenOk q i p then answerError n key 3 p.psn d
  else if p.opc ≤ 5 then (if q.matchEn then doMatchSend n key q p d else doSend n key q p d)
  else if p.opc ≤ 0x0D then doWrite n key q p d
  else if p.opc = 0x10 then doRead n key q p d
  else if p.opc ≤ 0x1B then doAtomic n key q p d
  else if isFinish q p then doFinish n key q p d
  else doNotify n key q p d

/-- A duplicate is answered from the record, or its payload discarded (R277). A read again that its key no longer passes is answered as
a key that fails (log entry 27). -/
def runDup (n key : Nat) (q : Qp) (p : SftPkt) (d : Dev) : Dev :=
  let d1 := bump Reg.TPE_DUP_RX (n % 8) d
  if isReadOrAtomic p.opc then
    match q.rec_.find? (fun e => e.psn == p.psn) with
    | some e =>
      let d2 := bump Reg.TPE_RECORD_HITS (n % 8) d1
      if e.opc = 0x10 then
        let again := { p with opc := 0x10, rkey := e.rkey, vaddr := e.vaddr, dmalen := e.result }
        let step := rkeyStep q.slice e.rkey 0 e.vaddr e.result d2
        if step ≠ 0 then answerKey n key q step p.psn d2 else readSegment true n key q again d2
      else sendAtomic n key p.psn e.result d2
    | none => d1 |> raise Ev.RECORD_MISS (n % 8) |> answerError n key 3 p.psn
  else if p.ackReq then sendAck n key d1
  else updConn n key (fun c => { c with ackDue := true }) d1

/-- A gap: discarded, and SEQ_NAK sent once per EPSN (R276). -/
def runGap (n key : Nat) (q : Qp) (d : Dev) : Dev :=
  let c := q.conn key
  if c.nakSent then d else
  d |> sendNak n key c.epsn 2 0 |> bump Reg.TPE_SEQ_NAK_TX (n % 8) |> updConn n key (fun c => { c with nakSent := true })

/-- A peer record that may be evicted: nothing outstanding (R286). -/
def peerIdle (c : Conn) : Bool := c.snd == c.una && c.inn.kind == 0

/-- The place of a new peer record: a free slot among the 8 probes of the hash, else that of the least recently used record among
them with nothing outstanding (R286); the hash is the implementation's. -/
def peerSlot (q : Qp) (lid qpn : Nat) : Option (Nat × Option Nat) :=
  let probes := (List.range 8).map (fun i => (Config.peerProbe lid qpn i).toNat % 2 ^ q.peerLog)
  let at_ := fun s => q.conns.find? (fun e => match e.2 with | some c => c.slot == s | none => false)
  match probes.find? (fun s => (at_ s).isNone) with
  | some s => some (s, none)
  | none =>
    let cand := probes.filterMap (fun s => match at_ s with
      | some (k, some c) => if peerIdle c then some (s, k, c.lastUse) else none
      | _ => none)
    match cand.foldl (fun b x => match b with
        | some (y : Nat × Nat × Nat) => if x.2.2 < y.2.2 then some x else some y
        | none => some x) none with
    | some (s, k, _) => some (s, some k)
    | none => none

/-- Makes a peer record with the next EPOCH_TX of its place in the table, evicting one where needed; unchanged where none can be freed
(R286; the epoch DEDUCED, log entry 166). -/
def Qp.addPeer (q : Qp) (lid qpn now : Nat) : Qp :=
  match peerSlot q lid qpn with
  | none => q
  | some (s, old) =>
    let cs := match old with | some k => smErase q.conns k | none => q.conns
    let ep := (smGet (fun _ => 0) q.epochs s + 1) % 256
    { q with
      conns := smPut cs (peerKey lid qpn) (some { Conn.init with lid := lid, qpn := qpn, slot := s, lastUse := now, epochTx := ep })
      epochs := smPut q.epochs s ep }

/-- The queue pair with a record of a peer, made where there was none; none where no record can be freed (R286). -/
def Qp.withPeer (q : Qp) (lid qpn now : Nat) : Option Qp :=
  let q1 := if (smFind q.conns (peerKey lid qpn)).isSome then q else q.addPeer lid qpn now
  if (smFind q1.conns (peerKey lid qpn)).isSome then some q1 else none

/-- A queue pair with the record of a peer takes its place; a record made new is written to the peer table (R286). -/
def putPeer (n key : Nat) (old new : Qp) (d : Dev) : Dev :=
  d |> putQp n (some new) |> onlyIf (old.rd && (smFind old.conns key).isNone && (smFind new.conns key).isSome) (writePeer n new true (new.conn key))

/-- The connection of a request packet, if it has one: the queue pair's own, or the peer record of its sender. An RD packet without
SYNC that finds no record of its epoch is answered RESYNC, and no record is made; one with SYNC of another epoch takes the epoch and its PSN
(R286); one with SYNC for which no record can be freed is discarded (DESIGN CHOICE, log entry 199). -/
def connFor (n : Nat) (q : Qp) (p : SftPkt) (d : Dev) : Option Nat × Dev :=
  if !q.rd then (some 0, d) else
  let key := peerKey p.slid p.sqpn
  let now := d.th.localNs / 1000000
  let c := q.conn key
  if p.sync then
    match q.withPeer p.slid p.sqpn now with
    | none => (none, d)
    | some q1 =>
      (some key, d |> putPeer n key q q1 |> updConn n key (fun c =>
        if c.heard && c.epochRx == p.pepoch then { c with lastUse := now }
        else { c with epsn := p.psn, epochRx := p.pepoch, heard := true, nakSent := false, inn := Inbound.none, lastUse := now }))
  else if (smFind q.conns key).isSome && c.heard && c.epochRx == p.pepoch then (some key, updConn n key (fun c => { c with lastUse := now }) d)
  else (none, sendNak n key p.psn 7 0 d)

/-- What becomes of a request once its context is there; `rec` says that its response record is there too. True in the second place:
the duplicate waits for its record (R257, R276, R285, R290, R438). -/
def runRequest (n : Nat) (p : SftPkt) (rec : Bool) (d : Dev) : Dev × Bool :=
  match qpOf n d with
  | none => (bump Reg.TPE_BAD_VH (n % 8) d, false)
  | some q =>
    if q.state ≤ 1 then (bump Reg.TPE_BAD_VH (n % 8) d, false)
    else if q.state = 5 then (d, false)
    else if q.rd && p.ekey != q.ekey then (bump Reg.TPE_BAD_VH (n % 8) d, false)
    else if slState q.slice d = slFencing ∨ slState q.slice d = slAborted ∨ slState q.slice d = slFree then (d, false)
    else
      match connFor n q p d with
      | (none, d1) => (d1, false)
      | (some key, d1) =>
        match qpOf n d1 with
        | none => (d1, false)
        | some q1 =>
          let c := q1.conn key
          if slState q1.slice d1 = slQuiesced then (answerRnr n key q1 p.psn d1, false)
          else
            if p.psn = c.epsn then (runNew n key q1 p d1, false)
            else if 0 < psnSub c.epsn p.psn ∧ psnSub c.epsn p.psn ≤ 2 ^ 23 then
              if isReadOrAtomic p.opc && !rec then (d1, true) else (runDup n key q1 p d1, false)
            else (runGap n key q1 d1, false)

/-! ## The lagoon (R290, R291) -/

/-- Cells of the packets whose access to a data page waits for its translation (R434). -/
def untranslated (d : Dev) : Nat :=
  ((d.eng.ats.filter (fun w => w.acc.owner.kind == 1 && !w.acc.ring)).map (fun w => (w.acc.bytes.length + 255) / 256)).sum

/-- Cells parked in the lagoon: packets that miss (R290), and those whose access waits for its translation (R434). -/
def lagoonUsed (d : Dev) : Nat := ((d.eng.parked.filter (fun x => x.lagoon)).map (fun x => x.cells)).sum + untranslated d

/-- Brings LAGOON_USED up to date and ends the LAGOON_FULL episode once no miss list holds an entry. -/
def countLagoon (d : Dev) : Dev :=
  d |> wr Reg.QPC_LAGOON_USED 0 (lagoonUsed d)
    |> wr Reg.QPC_LAGOON_HWM 0 (max (rd Reg.QPC_LAGOON_HWM 0 d) (lagoonUsed d))
    |> updEng (fun e => { e with lagoonFull := e.lagoonFull && e.parked.any (fun x => !x.lagoon) })

/-- Parks a packet: in the lagoon, or on the miss list of its engine while the lagoon lacks cells (R290, R291). -/
def park (n : Nat) (p : SftPkt) (why : Nat) (d : Dev) : Dev :=
  let cells := (reqSize ((qpOf n d).map Qp.matchEn == some true) p + 255) / 256
  if lagoonUsed d + cells ≤ rd Reg.HBR_LAGOON_RSV 0 d then
    d |> updEng (fun e => { e with parked := e.parked ++ [⟨n, p, cells, why, true, none⟩] }) |> bump Reg.QPC_PARKED 0 |> countLagoon
  else
    let d1 := updEng (fun e => { e with parked := e.parked ++ [⟨n, p, cells, why, false, none⟩] }) d
    d1 |> wr Reg.TPE_MISS_HWM (n % 8) (max (rd Reg.TPE_MISS_HWM (n % 8) d1) (missCount (n % 8) d1))
      |> onlyIf (!d.eng.lagoonFull) (fun d => d |> updEng (fun e => { e with lagoonFull := true }) |> raise Ev.LAGOON_FULL 0)

/-- A request whose context is cached runs, waits for the request before it, or parks for its translation or record. -/
def tryRequest (n : Nat) (p : SftPkt) (rec : Bool) (d : Dev) : Dev :=
  match qpOf n d with
  | some q =>
    -- a request behind a data write that is not issued to memory waits for it (R281)
    if q.busy.isSome || writesWait n d then updQp n (fun q => { q with held := q.held ++ [p] }) d
    else if !p.xlt then d |> bump Reg.MRG_KEY_MISS 0 |> park n p 2
    else
      let (d1, wait) := runRequest n p rec (if isReadOrAtomic p.opc || p.opc / 8 == 1 then bump Reg.MRG_KEY_HIT 0 d else d)
      if wait then d |> park n p 1 |> startFetch n else d1
  | none => bump Reg.TPE_BAD_VH (n % 8) d

/-- Runs requests in order; once one parks or holds the queue pair, those behind it park or wait behind it. -/
def runQueue (n : Nat) (l : List (SftPkt × Nat)) (d : Dev) : Dev :=
  forEach l (fun x d =>
    if d.eng.parked.any (fun y => y.qpn == n) then park n x.1 x.2 d else tryRequest n x.1 (x.2 == 1) d) d

/-- The parked packets of a queue pair leave the lagoon and run in arrival order (R290). -/
def runParked (n : Nat) (d : Dev) : Dev :=
  let l := (d.eng.parked.filter (fun x => x.qpn == n)).map (fun x => (x.pkt, x.why))
  d |> updEng (fun e => { e with parked := e.parked.filter (fun x => x.qpn != n) }) |> countLagoon |> runQueue n l

/-- A responder has ended the request that held its queue pair: the requests behind it run. -/
def unbusy (n : Nat) (d : Dev) : Dev :=
  match qpOf n d with
  | none => d
  | some q =>
    d |> updQp n (fun q => { q with busy := none, held := [] }) |> runQueue n (q.held.map (fun p => (p, 0)))

/-- An atomic that waited for another on its 16 bytes goes on (R282). -/
def kickAtomic (n : Nat) (d : Dev) : Dev :=
  match qpOf n d with
  | some q =>
    (match q.busy with
     | some (.atomicHeld p) =>
       if lineBusy (atomicLine p d) d then d
       else d |> updQp n (fun q => { q with busy := none, held := [] }) |> runQueue n ((p :: q.held).map (fun x => (x, 0)))
     | _ => d)
  | none => d

/-- Every atomic whose 16 bytes are free goes on, one after the other (R282). -/
def kickAtomics (d : Dev) : Dev := forEach (d.eng.qps.map (fun e => e.1)) kickAtomic d

/-- A request packet that its engine has taken: it runs, or parks (R257, R263, R288, R290, R291). -/
def takeIn (p : SftPkt) (d : Dev) : Dev :=
  let n := p.dqpn
  let t := n % 8
  if !p.ecrcOk then bump Reg.TPE_ECRC_ERR t d
  else if !(rangeValid n d && numVh n d == p.vh) then bump Reg.TPE_BAD_VH t d
  else if !d.eng.cached.contains n then d |> bump Reg.TPE_CACHE_MISS t |> park n p 0 |> startFetch n
  else
    let d1 := d |> bump Reg.TPE_CACHE_HIT t |> touchCtx n
    if d.eng.parked.any (fun y => y.qpn == n) then park n p 0 d1
    else if pinFull n d then d1 |> park n p 0 |> startFetch n
    else tryRequest n p false d1

/-- The request that was handed to an engine the longest ago and is not taken yet. -/
def handedTo (t : Nat) (d : Dev) : Option Nat :=
  (d.net.atEngine.find? (fun x => x.2 == 1 && (match pktOf x.1 d with | some q => q.eg == egTpe t | none => false))).map (fun x => x.1)

/-- The packet of the core that brought a request leaves the core, or keeps its cells while the request stands on the miss list (R291); `missed`
says that it does. -/
def afterTaken (t : Nat) (missed : Bool) (d : Dev) : Dev :=
  match handedTo t d with
  | none => d
  | some id =>
    if missed then
      d |> putStage id 2
        |> updEng (fun e => { e with parked := e.parked.dropLast ++ (e.parked.getLast?.map (fun x => { x with src := some id })).toList })
    else letGo id d

/-- A request packet is taken by its engine, which takes none while its miss list is full (R290, R291). -/
def takeRequest (p : SftPkt) (d : Dev) : Dev :=
  let t := p.dqpn % 8
  if missFull t d then turnAway t d
  else
    let d1 := d |> updEng (fun e => { e with withheld := clrBit e.withheld t }) |> bump Reg.TPE_PKT_RX t |> takeIn p
    afterTaken t (decide (missCount t d < missCount t d1)) d1

/-! ## What a command on the engines brings about -/

/-- Fetches and packets that waited for a way that may be pinned go on (R288). -/
def kickPins (d : Dev) : Dev :=
  forEach d.eng.pinWait (fun n d =>
    if pinFull n d then d
    else
      let d1 := updEng (fun e => { e with pinWait := e.pinWait.filter (fun x => x != n) }) d
      if d.eng.cached.contains n then runParked n d1 else startFetch n d1) d

/-- The requests of a queue pair that waited for data writes to be issued run; ACK_CNT packets accepted send their ACK (R279, R281). -/
def kickHeld (n : Nat) (d : Dev) : Dev :=
  match qpOf n d with
  | none => d
  | some q =>
    if q.busy.isSome || writesWait n d || !qpResponds q then d
    else
      d |> forEach ((q.conns.filter (fun x => match x.2 with
            | some c => c.accepted != 0 && decide (rd Reg.TPE_ACK_CNT (n % 8) d ≤ c.accepted)
            | none => false)).map (fun x => x.1)) (sendAck n)
        |> onlyIf (!q.held.isEmpty) (fun d => d |> updQp n (fun q => { q with held := [] })
            |> runQueue n (q.held.map (fun p => (p, 0))))

/-- Packets that waited for their engine to take VC1 again are handed to it (R291). -/
def kickIntake (d : Dev) : Dev :=
  forEach (List.range 8) (fun t d =>
    if missFull t d then d
    else
      d |> updEng (fun e => { e with withheld := clrBit e.withheld t })
        |> forEach ((d.net.atEngine.filter (fun x => x.2 == 0)).filterMap (fun x => pktOf x.1 d)) (fun q d =>
            onlyIf (q.eg == egTpe t) (fun d => d |> handPkt q |> putStage q.id 1) d)) d

/-- The packets of requests that have left their miss list leave the core (R291). -/
def sweepMissed (d : Dev) : Dev :=
  forEach ((d.net.atEngine.filter (fun x => x.2 == 2 && !d.eng.parked.any (fun y => y.src == some x.1))).map (fun x => x.1)) letGo d

/-- What follows a command on the engines: what waited goes on, and overflowing CQs have their effect. -/
def settleEng (d : Dev) : Dev :=
  let d1 := d |> kickPins |> forEach (d.eng.qps.map (fun e => e.1)) kickHeld |> kickIntake |> sweepMissed
    |> (fun d => onlyIf (rd Reg.QPC_LAGOON_USED 0 d != lagoonUsed d) countLagoon d)
  settleFails ((d1.eng.cqs.length + 1) * (d1.eng.qps.length + 2)) d1

/-- A command on the engines: its effect, then what follows it. -/
def onEng (f : Dev → Dev) (s : State) : Out := onDev (fun d => settleEng (f d)) s

end Sys2Proof.Machine
end

