-- ==== Sys2Proof/Machine/ReqOps.lean ====
section
/-!
DEFINITION. The requester (ch. 09): doorbells (R264), starting of work requests (R265, R270, R285, R337, R339), the packets they are
cut into (R258 to R261, R270), acknowledgements, responses and NAKs (R271 to R275), and the commands of the QPC page (R256, R269, R296).
-/

namespace Sys2Proof.Machine

/-! ## Doorbells (R264, R427, R438) -/

/-- Serves a work doorbell: 0 SQ producer, 1 RQ producer, 2 CQ consumer, 3 CQ arm, 4 CQ arm solicited-only; a queue pair in ERROR
completes what it posts FLUSHED (R294). -/
def serveWork (kind num index : Nat) (entries : List (List Byte)) (d : Dev) : Dev :=
  match kind with
  | 0 =>
    (match qpOf num d with
     | none => d
     | some q =>
       let d1 := updQp num (fun q => { q with sqPi := index }) d
       if q.state = 5 then forEach (entriesOf entries.length entries) (flushSlot num q 9) d1
       else updQp num (fun q => { q with sq := q.sq ++ entries }) d1)
  | 1 =>
    (match qpOf num d with
     | none => d
     | some q =>
       let d1 := updQp num (fun q => { q with rqPi := index }) d
       if brgQp num d then d
       else if q.state = 5 then forEach (entries.map recvOf) (flushRecv num q 9) d1
       else updQp num (fun q => { q with rq := q.rq ++ entries.map recvOf }) d1)
  | 2 => (match cqOf num d with | some c => d |> touchCq num |> putCq num (some { c with ci := index }) | none => d)
  | 3 => (match cqOf num d with | some c => d |> touchCq num |> putCq num (some { c with armed := true, solOnly := false }) | none => d)
  | _ => (match cqOf num d with | some c => d |> touchCq num |> putCq num (some { c with armed := true, solOnly := true }) | none => d)

/-- Records a doorbell of a slice that is being or has been quiesced: the latest index of each queue (R440). -/
def recordBell (n key index : Nat) (entries : List (List Byte)) (d : Dev) : Dev :=
  updSlice n (fun s =>
    let old := match s.recorded.find? (fun r => r.1 == key) with | some r => r.2.2 | none => []
    { s with recorded := s.recorded.filter (fun x => x.1 != key) ++ [(key, index, old ++ entries)] }) d

/-- Where the entries begin that a doorbell of a work queue, the command ring or the match post ring posts (R265, R341, R444). -/
def ringPlace (n key : Nat) (d : Dev) : Nat :=
  match key / 2 ^ 24 with
  | 0 => (match qpOf (key % 2 ^ 24) d with | some q => q.sqBase + 64 * (q.sqPi % 2 ^ q.sqLog) | none => 0)
  | 1 => (match qpOf (key % 2 ^ 24) d with | some q => q.rqBase + 32 * (q.rqPi % 2 ^ q.rqLog) | none => 0)
  | 5 => slRd Reg.SLC_CMR_BASE_LO n d + 2 ^ 32 * slRd Reg.SLC_CMR_BASE_HI n d
      + 64 * ((sliceOf n d).cmrPi % 2 ^ slRd Reg.SLC_CMR_LOG n d)
  | _ => slRd Reg.SLC_MPR_BASE_LO n d + 2 ^ 32 * slRd Reg.SLC_MPR_BASE_HI n d
      + 64 * ((sliceOf n d).mprPi % 2 ^ slRd Reg.SLC_MPR_LOG n d)

/-- Entries wait for the translation of the ring page at `at_`. -/
def waitRing (n key index at_ : Nat) (entries : List (List Byte)) (asked : Bool) (d : Dev) : Dev :=
  updEng (fun e => { e with ringWaits := e.ringWaits ++
    [⟨slRd Reg.SLC_VH n d, slicePasid n d, at_ / 4096, n, key, index, entries, asked, false⟩] }) d

/-- Ring entries that a doorbell posts are read at `at_` (R434): with ATS enabled through the address translation cache, where a miss lets
them wait, and those posted on the same ring behind them. The producer index moves at once. The entries of one doorbell are translated
together, by the page of the first (log entry 210). -/
def ringFetch (n key index at_ : Nat) (entries : List (List Byte)) (serve_ : List (List Byte) → Dev → Dev) (d : Dev) : Dev :=
  let v := slRd Reg.SLC_VH n d
  if entries.isEmpty || rd Reg.FUN_ATS_EN v d != 1 then serve_ entries d
  else if d.eng.ringWaits.any (fun w => w.slice == n && w.key == key) then d |> serve_ [] |> waitRing n key index at_ entries false
  else if d.eng.atc.any (fun e => e.vh == v && e.pasid == slicePasid n d && e.page == at_ / 4096 && e.read) then
    d |> bump Reg.FUN_ATC_HIT v |> serve_ entries
  else d |> serve_ [] |> askPage v (slicePasid n d) (at_ / 4096) |> waitRing n key index at_ entries true

/-- A write to the doorbell page of a slice: dropped where the slice is not the function's or is FREE, recorded while it is quiesced,
discarded while it is fenced or aborted, else served (R427, R438, R440). -/
def bell (vh n key index at_ : Nat) (entries : List (List Byte)) (serve_ : List (List Byte) → Dev → Dev) (d : Dev) : Dev :=
  if slRd Reg.SLC_VH n d ≠ vh ∨ slState n d = slFree then bump Reg.FUN_DB_FOREIGN vh d
  else if slState n d = slQuiescing ∨ slState n d = slQuiesced then recordBell n key index entries d
  else if slState n d = slActive then ringFetch n key index at_ entries serve_ d
  else d

/-- A work doorbell of the kind a command names (R264, R310). -/
def workBell (want vh n : Nat) (wide : Bool) (num kind index : Nat) (entries : List (List Byte)) (d : Dev) : Dev :=
  if slRd Reg.SLC_VH n d ≠ vh ∨ slState n d = slFree then bump Reg.FUN_DB_FOREIGN vh d
  else if !wide then bump Reg.TPE_DB_BAD (n % 8) d
  else if 5 ≤ kind ∨ (kind = want ∧ (!ownsNum n num d ∨ (kind = 0 ∧ brgQp num d))) then
    sliceEvent n RingEv.DOORBELL_BAD num kind d
  else if kind ≠ want then d
  else 
    bell vh n (kind * 2 ^ 24 + num) index (ringPlace n (kind * 2 ^ 24 + num) d) entries (serveWork kind num index) d

/-! ## Starting a work request -/

/-- An SQ's request as its slots give it (R265, R337); `next` is the slot after it. -/
def wqeOf (q : Qp) (slot next : List Byte) : Wqe :=
  let f := fieldLe slot
  let wop := f 0 1
  let fl := f 1 1
  { Wqe.blank q.nextWqe .sq with
    idx := q.sqCi, wop := wop, signaled := bitOf fl 0, sol := bitOf fl 2, ro := bitOf fl 3, len := f 4 4, wrId := f 8 8
    laddr := f 16 8, lkey := f 24 4, imm := f 28 4, raddr := f 32 8, rkey := f 40 4
    op1 := if wop = 7 ∨ wop = 8 then f 48 16 else f 48 8
    op2 := if wop = 6 then f 56 8 else if wop = 8 then fieldLe next 0 16 else 0
    tag := f 32 8, ctxid := f 40 4, rank := f 44 4
    conn := if q.rd then peerKey (f 32 4 % 2 ^ 20) (f 36 4 % 2 ^ 24) else 0 }

/-- FENCE of an entry (R265). -/
def fenced (slot : List Byte) : Bool := bitOf (fieldLe slot 1 1) 1

/-- A request that reads remote memory or is an atomic. -/
def Wqe.fetches (w : Wqe) : Bool := 4 ≤ w.wop && w.wop ≤ 8

/-- A SEND of a queue pair with MATCH_EN that goes by rendezvous (R339). -/
def isRndv (q : Qp) (w : Wqe) (d : Dev) : Bool :=
  q.matchEn && w.wop == 0 && decide (rd Reg.MTE_EAGER_MAX (quadOf q.slice w.ctxid) d < w.len)

/-- The work request is invalid: it completes LOC_LEN (R265, R285, R337). -/
def wqeInvalid (q : Qp) (w : Wqe) : Bool :=
  (10 ≤ w.wop && w.wop != 15) || (w.wop ≤ 4 && decide (2 ^ 31 < w.len))
    || (q.rd && (!([0, 1, 9].contains w.wop) || (w.wop ≤ 1 && decide (q.bytes < w.len))))
    || (q.matchEn && (w.wop == 1 || (w.wop == 0 && w.rank == anySource) || (w.wop == 9 && w.op1 / 2 ^ 60 % 16 == 15)))

/-- Bytes of a request's local range, and whether the DX7 writes it. -/
def Wqe.local (w : Wqe) : Option (Nat × Bool) :=
  if w.wop ≤ 3 then some (w.len, false)
  else if w.wop = 4 then some (w.len, true)
  else if w.wop = 5 ∨ w.wop = 6 then some (8, true)
  else if w.wop = 7 ∨ w.wop = 8 then some (16, true)
  else none

/-- The local key of a request passes (R302, R339). -/
def wqeKeyOk (q : Qp) (w : Wqe) (d : Dev) : Bool :=
  match w.local with
  | none => true
  | some (n, wr_) =>
    lkeyOk q.slice w.lkey w.laddr n wr_ d && (!isRndv q w d || accessBit (regionOf (keyIdx w.lkey) d) 0 d)

/-- A request is started: validated, its local key checked, its source data read (R265, R302, R339). -/
def launch (n : Nat) (q : Qp) (w : Wqe) (d : Dev) : Dev :=
  let add := fun w : Wqe => updQp n (fun q => { q with started := q.started ++ [w], nextWqe := q.nextWqe + 1 })
  if wqeInvalid q w then d |> add { w with status := 1, allSent := true } |> completeWqes n
  else if !wqeKeyOk q w d then d |> add { w with status := 2, allSent := true } |> completeWqes n
  else if w.wop = 15 then d |> add { w with allSent := true } |> completeWqes n
  else if isRndv q w d then add { w with rndv := 1 } d
  else if 4 ≤ w.wop ∨ w.len = 0 then add w d
  else
    match placeOf (regionOf (keyIdx w.lkey) d) w.laddr w.len d with
    | .pkm o => add { w with buf := memReads o w.len d } d
    | .host v pasid spans =>
      d |> add { w with ready := false }
        |> startRead v q.slice (keyIdx w.lkey) (.source n w.id) (readSpans v pasid w.ro ⟨0, n⟩ spans)

/-- The next posted request of a queue pair may start as far as the queue pair itself goes: RTS, its slice taking or draining work, its entry
whole, and no fence before it (R265, R269, R281, R440). -/
def qpMayStart (q : Qp) (slot : List Byte) (rest : List (List Byte)) (d : Dev) : Bool :=
  qpRts q && (slState q.slice d == slActive || slState q.slice d == slQuiescing)
    && !(slotsOf slot == 2 && rest.isEmpty) && !(fenced slot && q.started.any (fun w => w.kind == .sq && w.fetches))

/-- The queue pair with the peer record that its next request needs; none where no record can be freed (R285, R286). -/
def Qp.forNext (q : Qp) (slot : List Byte) (rest : List (List Byte)) (now : Nat) : Option Qp :=
  if q.rd && !wqeInvalid q (wqeOf q slot (rest.headD [])) then q.withPeer (fieldLe slot 32 4 % 2 ^ 20) (fieldLe slot 36 4 % 2 ^ 24) now
  else some q

/-- A queue pair has a request that its engine could start now. -/
def hasWork (n : Nat) (d : Dev) : Bool :=
  match qpOf n d with
  | some q =>
    (match q.sq with
     | slot :: rest => !brgQp n d && qpMayStart q slot rest d && d.eng.cached.contains n && !pinFull n d
         && (q.forNext slot rest (d.th.localNs / 1000000)).isSome
     | [] => false)
  | none => false

/-! ### Fair queuing of the starts (R195, R443) -/

/-- The fair queuing of an engine. -/
def fairOf (t : Nat) (d : Dev) : FairQ := smGet (fun _ => FairQ.init) d.eng.fair t

/-- The slices with work for an engine. -/
def workSlices (t : Nat) (d : Dev) : List Nat :=
  (d.eng.qps.filterMap (fun e => match e.2 with
    | some q => if e.1 % 8 = t ∧ hasWork e.1 d then some q.slice else none
    | none => none)).eraseDups

/-- The start tags at a decision: a slice that has come to have work starts at V (R195). -/
def fairTags (t : Nat) (d : Dev) : SMap Nat :=
  (workSlices t d).foldl (fun m s => if (fairOf t d).elig.contains s then m else smPut m s (fairOf t d).v) (fairOf t d).tags

/-- The slice whose request an engine starts next: the one with the smallest start tag (R194, R443). -/
def fairSlice (t : Nat) (d : Dev) : Option Nat := smallestTag (fairTags t d) (workSlices t d)

/-- A slice is served, and one start of L = 256 B charged by its SHARE (R195, R443); the tags are those of the state before, `d0`. -/
def fairCharge (t s : Nat) (d0 d : Dev) : Dev :=
  let w := max (slRd Reg.SLC_SHARE s d0) 1
  let tag := smGet (fun _ => 0) (fairTags t d0) s
  let f : FairQ := ⟨tag, smPut (fairTags t d0) s ((tag + (256 * 256 + w - 1) / w) % 2 ^ 48), workSlices t d0⟩
  updEng (fun e => { e with fair := smSet (fun _ => FairQ.init) e.fair t f }) d

/-- The engine starts the next posted request of a queue pair, where it is its slice's turn (R265, R270, R281, R286, R288, R443). -/
def startNext (n : Nat) (d : Dev) : Dev :=
  match qpOf n d with
  | none => d
  | some q =>
    match q.sq with
    | [] => d
    | slot :: rest =>
      -- the bridge is the only requester of its queue pairs (R310)
      if brgQp n d ∨ !qpMayStart q slot rest d then d
      else if pinFull n d then bump Reg.TPE_PIN_WAIT (n % 8) d
      else if !d.eng.cached.contains n then
        (if d.eng.fetches.contains n then d else d |> bump Reg.TPE_CACHE_MISS (n % 8) |> startFetch n)
      else
        match q.forNext slot rest (d.th.localNs / 1000000) with
        | none =>
          if q.peerRaised then d else
            d |> updQp n (fun q => { q with peerRaised := true }) |> sliceEvent q.slice RingEv.PEER_LIMIT n 0
        | some q1 =>
          if fairSlice (n % 8) d ≠ some q.slice then d
          else
            let w := wqeOf q slot (rest.headD [])
            let k := slotsOf slot
            d |> bump Reg.TPE_CACHE_HIT (n % 8) |> touchCtx n
              |> putPeer n w.conn q { q1 with sq := q.sq.drop k, sqCi := (q.sqCi + k) % 65536, peerRaised := false }
              |> slWr Reg.SLC_WQE_STARTS q.slice ((slRd Reg.SLC_WQE_STARTS q.slice d + 1) % 2 ^ 32)
              |> fairCharge (n % 8) q.slice d
              |> launch n q w

/-! ## Packets of a request (R258 to R261, R270, R338) -/

/-- The match header of a SEND (R338). -/
def matchHdr (w : Wqe) : List Byte :=
  beBytes 4 w.ctxid ++ beBytes 4 w.rank ++ beBytes 8 w.tag ++ beBytes 4 w.len ++ beBytes 1 (bnat (w.rndv != 0)) ++ beBytes 3 0

/-- A RETH (R261). -/
def reth (vaddr rkey len : Nat) : List Byte := beBytes 8 vaddr ++ beBytes 4 rkey ++ beBytes 4 len

/-- The next packet of a started request: opcode, PSNs, bytes after the BTH, bytes covered, whether it is the last. -/
def nextPacket (q : Qp) (w : Wqe) : Nat × Nat × List Byte × Nat × Bool :=
  let m := q.bytes
  let left := w.len - w.off
  let first := !w.begun
  let last := decide (left ≤ m)
  let body := (w.buf.drop w.off).take m
  let hdr := if q.matchEn ∧ w.kind = .sq then matchHdr w else []
  match w.wop with
  | 0 | 1 =>
    if w.rndv ≠ 0 then
      (0x03, 1, hdr ++ beBytes 8 w.laddr ++ beBytes 4 w.lkey ++ beBytes 4 (w.idx % 65536), w.len, true)
    else
      let imm := w.wop == 1 && last
      let opc := if first && last then (if imm then 0x05 else 0x03) else if first then 0x00
        else if last then (if imm then 0x04 else 0x02) else 0x01
      (opc, 1, hdr ++ (if imm then beBytes 4 w.imm else []) ++ body, body.length, last)
  | 2 | 3 =>
    let imm := w.wop == 3 && last
    let opc := if first && last then (if imm then 0x0D else 0x0B) else if first then 0x08
      else if last then (if imm then 0x0C else 0x0A) else 0x09
    (opc, 1, (if first then reth w.raddr w.rkey w.len else []) ++ (if imm then beBytes 4 w.imm else []) ++ body,
      body.length, last)
  | 4 =>
    let seg := min left (8 * m)
    (0x10, max 1 ((seg + m - 1) / m), reth (w.raddr + w.off) w.rkey seg, seg, decide (left ≤ 8 * m))
  | 9 => (0x20, 1, beBytes 8 w.op1, 0, true)
  | _ =>
    let ath := beBytes 8 w.raddr ++ beBytes 4 w.rkey ++ beBytes 4 0 ++ beBytes 16 w.op1 ++ beBytes 16 w.op2
    (0x18 + (w.wop - 5), 1, ath, atomicBytes (0x18 + (w.wop - 5)), true)

/-- Responses that an engine's queue pairs still await, as cells reserved from RESP_POOL (R270). -/
def respCells (t : Nat) (d : Dev) : Nat :=
  (d.eng.qps.map (fun e => match e.2 with
    | some q => if e.1 % 8 = t then
        ((q.conns.map (fun x => match x.2 with
          | some c => ((c.out.filter (fun o => o.isRead)).map (fun o => o.n - o.got.length)).sum
          | none => 0)).sum) * ((q.bytes + 44 + 255) / 256) else 0
    | none => 0)).sum

/-- Reads and atomics outstanding on a connection. -/
def readsOn (c : Conn) : Nat := (c.out.filter (fun o => o.isRead)).length

/-- The requester may send a packet of `k` PSNs now (R270). -/
def maySend (n key k : Nat) (fetch : Bool) (q : Qp) (d : Dev) : Bool :=
  let c := q.conn key
  decide (psnSub c.snd c.una < q.outMax) && c.rnrWait.isNone && c.pass.isNone &&
    (!fetch || (decide (readsOn c < q.ordMax) &&
      decide (respCells (n % 8) d + k * ((q.bytes + 44 + 255) / 256) ≤ rd Reg.TPE_RESP_POOL (n % 8) d)))

/-- The first started request with a packet to send whose connection is free to send. -/
def pickWqe (n : Nat) (q : Qp) (d : Dev) : Option Wqe :=
  (q.started.find? (fun w => !w.allSent &&
    -- an earlier request of the same connection goes first
    ((q.started.find? (fun x => !x.allSent && x.conn == w.conn)).map (fun x => x.id) == some w.id) &&
    w.ready && maySend n w.conn (nextPacket q w).2.1 w.fetches q d))

/-- Sends the next new packet of a queue pair. -/
def sendNew (n : Nat) (q : Qp) (d : Dev) : Dev :=
  match pickWqe n q d with
  | none => d
  | some w =>
    let (opc, k, bytes, len, last) := nextPacket q w
    let c := q.conn w.conn
    let t : TxPkt := {
      psn := c.snd, n := k, wqe := w.id, opc := opc
      ackReq := last || (c.sentCnt + 1) % max 1 (rd Reg.TPE_ACKREQ_INT (n % 8) d) == 0
      sol := w.sol && last, bytes := bytes, isRead := w.fetches, off := w.off, len := len, got := [] }
    d |> sendReq n q w.conn t
      |> updConn n w.conn (fun c => { c with snd := psnAdd c.snd k, out := c.out ++ [t], sentCnt := c.sentCnt + 1,
                                             lastUse := d.th.localNs / 1000000 })
      |> updQp n (fun q => { q with started := q.started.map (fun x =>
          if x.id = w.id then { x with off := x.off + len, begun := true, allSent := last } else x) })

/-- Resends the next packet of a resend pass (R272). -/
def resendNext (n key : Nat) (q : Qp) (s p : Nat) (d : Dev) : Dev :=
  let c := q.conn key
  match c.out.find? (fun t => decide (psnSub p c.una < psnSub t.psn c.una + t.n)) with
  | none => updConn n key (fun c => { c with pass := none }) d
  | some t =>
    let next := psnAdd t.psn t.n
    d |> sendReq n q key t |> bump Reg.TPE_RETX_PKTS (n % 8)
      |> updConn n key (fun c => { c with pass := if next = c.snd then none else some (s, next) })

/-- A connection is in a resend pass that no RNR wait stops (R273, R274). -/
def passRuns (e : Nat × Option Conn) : Bool := match e.2 with | some c => c.pass.isSome && c.rnrWait.isNone | none => false

/-- A requester sends: the next packet of a resend pass, else a new one, at no more than RATE_CUR (R270, R272, R284). -/
def sendNext (n : Nat) (d : Dev) : Dev :=
  match qpOf n d with
  | none => d
  | some q =>
    if (q.state ≠ 3 ∧ q.state ≠ 4) ∨ 1000 * d.th.localNs < q.paceAt then d else
    match q.conns.find? passRuns with
    | some (key, some c) => (match c.pass with | some (s, p) => resendNext n key q s p d | none => d)
    | _ => sendNew n q d

/-! ## What comes back (R271 to R275, R294) -/

/-- EKEY of an RD endpoint; the message endpoint's is MAP_EKEY (R285, R320). -/
def endpointKey (n : Nat) (q : Qp) (d : Dev) : Nat := if n = msgQpn then rd Reg.MAP_EKEY 0 d else q.ekey

/-- A response packet is taken by its engine: checked, its queue pair and connection found (R257, R263, R271, R285, R288, R294). -/
def takeResp (r : SftResp) (f : Nat → Nat → Qp → Dev → Dev) (d : Dev) : Dev :=
  let n := r.dqpn
  let t := n % 8
  let d0 := bump Reg.TPE_PKT_RX t d
  if !r.ecrcOk then bump Reg.TPE_ECRC_ERR t d0
  else if n ≠ msgQpn ∧ !(rangeValid n d && numVh n d == r.vh) then bump Reg.TPE_BAD_VH t d0
  else
    match qpOf n d0 with
    | none => bump Reg.TPE_LATE_DROP t d0
    | some q =>
      if q.state = 0 ∨ q.state = 5 then bump Reg.TPE_LATE_DROP t d0
      else if q.state = 1 ∨ (q.rd = true ∧ r.ekey ≠ endpointKey n q d) then bump Reg.TPE_BAD_VH t d0
      else
        let key := if q.rd then peerKey r.slid r.sqpn else 0
        if q.rd && (smFind q.conns key).isNone then d0
        else
          let d1 := d0 |> onlyIf (d.eng.cached.contains n) (fun d => d |> bump Reg.TPE_CACHE_HIT t |> touchCtx n) |> takeEce n r.ece
          f n key ((qpOf n d1).getD q) d1

/-- A PSN names a packet sent and not acknowledged. -/
def inFlight (c : Conn) (psn : Nat) : Bool := decide (psnSub psn c.una < psnSub c.snd c.una)

/-- Everything before a PSN is acknowledged, and the requests that this completes end (R271). -/
def ackBefore (n key next : Nat) (d : Dev) : Dev := d |> updConn n key (fun c => c.ackTo next) |> completeWqes n

/-- An ACK (R271). -/
def takeAck (psn n key : Nat) (q : Qp) (d : Dev) : Dev :=
  if inFlight (q.conn key) psn then ackBefore n key (psnAdd psn 1) d else d

/-- An RNR_NAK (R274). -/
def takeRnr (psn n key : Nat) (q : Qp) (d : Dev) : Dev :=
  if !inFlight (q.conn key) psn then d else
  let d1 := ackBefore n key psn d
  match qpOf n d1 with
  | none => d1
  | some q1 =>
    let c := q1.conn key
    if q.rnrMax ≠ 7 ∧ q.rnrMax < c.rnr + 1 then
      d1 |> forEach (writeWins q1.started) (fun w => latchWin w 4 0 true)
        |> enterError n ⟨9, (wqeAt q1 key psn).map (fun w => (w.id, 8)), false, psn⟩
    else updConn n key (fun c => { c with rnr := min (c.rnr + 1) 7, rnrWait := some psn, pass := none }) d1

/-- A SEQ_NAK (R273). -/
def takeSeq (psn n key : Nat) (q : Qp) (d : Dev) : Dev :=
  let d0 := bump Reg.TPE_SEQ_NAK_RX (n % 8) d
  let c := q.conn key
  if !inFlight c psn then d0
  else if (match c.pass with | some (s, _) => s == psn | none => false) then d0
  else d0 |> ackBefore n key psn |> beginPass n key psn

/-- The status that a NAK's syndrome gives (R268, R275). -/
def nakStatus (synd : Nat) : Nat := if synd = 3 then 3 else if synd = 4 then 4 else if synd = 6 then 5 else 6

/-- ERR_CAUSE of a NAK (R318). -/
def nakCause (synd : Nat) : Nat := if synd = 6 then 2 else if synd = 5 then 3 else 1

/-- A NAK of syndrome 3 to 6 (R275, R318). -/
def takeError (synd psn n key : Nat) (q : Qp) (d : Dev) : Dev :=
  if !inFlight (q.conn key) psn then d else
  let d1 := ackBefore n key psn d
  match qpOf n d1 with
  | none => d1
  | some q1 =>
    let w := wqeAt q1 key psn
    let d2 := match w with
      | some x => (match x.kind with
          | .sq => onlyIf (!x.signaled) (sliceEvent q1.slice RingEv.DEFERRED_WRITE_ERR n psn) d1
          | .brgWrite win _ => latchWin win (nakCause synd) psn true d1
          | _ => d1)
      | none => d1
    enterError n ⟨9, w.map (fun x => (x.id, nakStatus synd)), false, psn⟩ d2

/-- A RESYNC: the sender resends from UNA_PSN with SYNC (R286). -/
def takeResync (n key : Nat) (q : Qp) (d : Dev) : Dev :=
  if !q.rd then d else
  updConn n key (fun c => { c with synced := false, pass := if c.snd = c.una then none else some (c.una, c.una) }) d

/-- Response data reaches its request's local memory, or the bridge's store (R271, R312, R314, R349). -/
def landResp (n : Nat) (w : Wqe) (off : Nat) (bytes : List Byte) (d : Dev) : Dev :=
  match w.kind with
  | .brgRead _ | .prefetch _ =>
    updQp n (fun q => { q with started := q.started.map (fun x =>
      if x.id = w.id then { x with buf := patch x.buf off bytes } else x) }) d
  | _ => if bytes.isEmpty then d else writeKey w.lkey (w.laddr + off) w.ro ⟨0, n⟩ bytes d

/-- A read or atomic response: a PSN not yet accepted lands its data, and acknowledges every PSN before its own (R262, R271, R277). -/
def takeData (psn : Nat) (data : Wqe → TxPkt → Nat → List Byte × Nat) (n key : Nat) (q : Qp) (d : Dev) : Dev :=
  let c := q.conn key
  match c.out.find? (fun t => t.isRead && decide (psnSub psn t.psn < t.n)) with
  | none => d
  | some t =>
    let i := psnSub psn t.psn
    if t.got.contains i then d else
    match q.started.find? (fun w => w.id == t.wqe) with
    | none => d
    | some w =>
      let (bytes, off) := data w t i
      d |> landResp n w off bytes
        |> updConn n key (fun c => { c with out := c.out.map (fun x =>
            if x.psn = t.psn then { x with got := x.got ++ [i] } else x) })
        |> ackBefore n key (psnAdd psn 1)

/-! ## Commands on queue pairs, ranges and completion queues (R256, R269, R287, R296) -/

/-- A context as QUERY returns it, private bytes zero (R287). -/
def contextBytes (q : Qp) : List Byte :=
  contextHead q ++ List.replicate 167 0

/-- The rate of the port that packets to a LID leave by, where every port that their route may take has it (R229, R284). -/
def egressRate (dlid : Nat) (d : Dev) : Option Nat :=
  match findKey 18 dlid d with
  | some f =>
    (match ((minCandidates 18 dlid f.entry d).map (fun p => lineRate p d)).eraseDups with
     | [r] => some r
     | _ => none)
  | none => none

/-- The egress port rate of a queue pair, at which RATE_CUR starts (R284); a free value where its ports' rates differ or its destination varies
(log entry 33). -/
def portMbps (q : Qp) (d : Dev) : Nat := if q.rd then free 22 d else (egressRate q.dlid d).getD (free 22 d)

/-- MODIFY of a queue pair (R269, R337): the context it leaves, or a status. -/
def modifyQp (q : Qp) (to_ : Nat) (b : List Byte) (d : Dev) : Qp ⊕ Nat :=
  let f := fieldLe b
  let w12 := f 12 4
  let retry := bitsOf w12 20 4
  let rnr := bitsOf w12 24 3
  let rto := bitsOf w12 0 20
  match q.state, to_ with
  | 0, 1 =>
    let perm := f 1 1
    if (q.rd && bitOf perm 4) || !(decide (4 ≤ f 44 1 ∧ f 44 1 ≤ 16 ∧ 4 ≤ f 45 1 ∧ f 45 1 ≤ 16)) || (q.rd && decide (12 < f 88 1))
    then .inr 3
    else .inl { q with
      state := 1, perm := perm % 128, sqBase := f 32 8, sqLog := f 44 1, rqLog := f 45 1, rqBase := f 48 8
      scqn := f 60 4 % 2 ^ 24, rcqn := f 64 4 % 2 ^ 24
      ekey := if q.rd then f 76 4 else q.ekey, peerBase := if q.rd then f 80 8 else q.peerBase
      peerLog := if q.rd then f 88 1 else q.peerLog }
  | 1, 2 =>
    if 4 < bitsOf (f 8 4) 24 3 then .inr 3
    else .inl { (q.setConn 0 { q.conn 0 with epsn := f 24 4 % 2 ^ 24 }) with
      state := 2, dqpn := f 4 4 % 2 ^ 24, dlid := bitsOf (f 8 4) 0 20, tc := bitsOf (f 8 4) 20 4, mtu := bitsOf (f 8 4) 24 3 }
  | 2, 3 =>
    let ord := bitsOf (f 28 4) 24 5
    let om := bitsOf (f 68 4) 0 20
    let psn := f 16 4 % 2 ^ 24
    if rto = 0 ∨ 1000000 < rto ∨ ord = 0 ∨ 16 < ord ∨ om = 0 then .inr 3
    else .inl { (q.setConn 0 { q.conn 0 with snd := psn, una := psn }) with
      state := 3, rto := rto, retryMax := retry, rnrMax := rnr, ordMax := ord, outMax := om
      rate := portMbps q d, portRate := portMbps q d }
  | 3, 4 => .inl { q with state := 4, drained := false }
  | 4, 3 => if rto = 0 ∨ 1000000 < rto then .inr 3 else .inl { q with state := 3, rto := rto, retryMax := retry, rnrMax := rnr }
  | 5, 0 | 1, 0 => .inl { Qp.init q.slice q.rd with rnrTmr := q.rnrTmr, epochs := q.epochs }
  | _, _ => .inr 2

/-- What a QPC command answers: CMD_STATUS, the data it returns, and the state. -/
abbrev CmdOut := Nat × List Byte × Dev

/-- The block of a range overlaps nothing it must not and is placed as R256 demands. -/
def rangeWriteOk (r w0 base : Nat) (d : Dev) : Bool :=
  base % 4096 == 0 &&
  (!(bitOf w0 16) || bitOf w0 17 || inArea 0 base 0x340000 d) &&
  (!(bitOf (rangeOf r d).1 16) ||
    (d.eng.qps.all (fun e => match e.2 with | some q => rangeIdx e.1 != r || q.state == 0 | none => true) &&
     d.eng.cqs.all (fun e => e.2.isNone || rangeIdx e.1 != r)))

/-- Empties the response record of a queue pair in the backing store: OPC of every entry 0xFF (R278). -/
def clearRecord (n : Nat) (d : Dev) : Dev :=
  forEach (List.range 16) (fun i => backWrite n (0x100000 + 512 * (n % 4096) + 32 * i + 3) [0xFF]) d

/-- Entries of a queue pair's rings that wait to be read are given up. -/
def forgetRings (n : Nat) (d : Dev) : Dev :=
  updEng (fun e => { e with ringWaits := e.ringWaits.filter (fun w => !(decide (w.key / 2 ^ 24 ≤ 1) && w.key % 2 ^ 24 == n)) }) d

/-- RNR_TMR is named for no command: a free value from 1 to 31 (log entry 32). -/
def rnrFree (d : Dev) : Nat := 1 + free 8 d % 31

/-- A QPC command (R256, R269, R296), of the page or of a slice's command ring. -/
def qpcRun (op num to_ : Nat) (b : List Byte) (own : Option Nat) (d : Dev) : CmdOut :=
  let foreign := match own with | some s => !ownsNum s num d | none => false
  let bad := decide ((op ≤ 3 ∧ (num = 0 ∨ num = msgQpn)) ∨ 2 ^ 24 ≤ num) || !rangeValid num d
  let err := fun st : Nat => ((st, [], d) : CmdOut)
  if op = 4 ∨ op = 5 then
    if own.isSome then err 4
    else if 4096 ≤ num then err 1
    else if op = 4 then
      (0, leBytes 4 (rangeOf num d).1 ++ leBytes 8 (rangeOf num d).2 ++ leBytes 4 0, d)
    else
      let w0 := fieldLe b 0 4 % 2 ^ 18
      let base := fieldLe b 4 8
      if rangeWriteOk num w0 base d then
        (0, [], updEng (fun e => { e with ranges := smSet (fun _ => (0, 0)) e.ranges num (w0, base) }) d)
      else (3, [], cfgErr 0x12 0 0x108 Cfg.CFG_QPC_RANGE (wordAt (regAddr 0x12 0 0x108) d) d)
  else if bad then err 1
  else if foreign then err 4
  else if numHost num d && !bme (numVh num d) d then err 5
  else
    match op with
    | 0 => (match qpOf num d with | some q => (0, contextBytes q, d) | none => err 2)
    | 1 =>
      if (qpOf num d).isSome then err 2
      else if 1 < bitsOf (fieldLe b 0 1) 4 2 then err 3
      else (0, [], d |> takeFree |> clearRecord num |> putQp num (some { Qp.init (numSlice num d) (bitsOf (fieldLe b 0 1) 4 2 == 1) with
        rnrTmr := rnrFree d }))
    | 2 =>
      (match qpOf num d with
       | none => err 2
       | some q =>
         if to_ = 5 then
           (if q.state = 0 then err 2 else (0, [], d |> enterError num (Ending.plain (q.conn 0).una) |> kickAtomics))
         else
           match modifyQp q to_ b d with
           | .inr st => err st
           | .inl q1 =>
             let d1 := if to_ = 4 then groupsDown num d else if q.state = 2 ∧ to_ = 3 then takeFree d else d
             (0, [], d1 |> onlyIf (to_ == 0) (fun d => d |> clearRecord num |> forgetRings num) |> putQp num (some q1) |> drainCheck num))
    | 3 =>
      (match qpOf num d with
       | some q => if q.state = 0 ∨ q.state = 5 then
           (0, [], d |> putQp num none |> forgetRings num |> updEng (fun e => { e with cached := e.cached.filter (fun x => x != num), pinWait := e.pinWait.filter (fun x => x != num) })) else err 2
       | none => err 2)
    | 6 =>
      if (cqOf num d).isSome then err 2
      else if fieldLe b 1 1 < 4 ∨ 16 < fieldLe b 1 1 then err 3
      else (0, [], d |> touchCq num |> putCq num (some ⟨1, fieldLe b 1 1, false, false, 0, 0, fieldLe b 16 8, true⟩))
    | 7 => if (cqOf num d).isSome then (0, [], d |> putCq num none |> updEng (fun e => { e with cqCached := e.cqCached.filter (fun x => x != num) })) else err 2
    | 8 => (match cqOf num d with | some c => (0, cqBytes c, touchCq num d) | none => err 2)
    | _ => err 3

/-- Bytes of a row of 32-bit registers. -/
def regBytes (f : Fld) (inst k : Nat) (d : Dev) : List Byte :=
  (List.range k).flatMap (fun i => leBytes 4 (rdI f inst i d))

/-- Lays bytes into a row of 32-bit registers, as many words as they fill. -/
def putRegBytes (f : Fld) (inst : Nat) (b : List Byte) (d : Dev) : Dev :=
  forEach (List.range (b.length / 4)) (fun i => wrI f inst i (fieldLe b (4 * i) 4)) d

/-- CMD_GO of the QPC page runs the command that CMD_OP names (R296). -/
def qpcGo (d : Dev) : Dev :=
  let (st, b, d1) := qpcRun (rd Reg.QPC_CMD_OP 0 d) (rd Reg.QPC_CMD_NUM 0 d) (rd Reg.QPC_MODIFY_TO 0 d)
    (regBytes Reg.QPC_CMD_DATA 0 64 d) none d
  d1 |> putRegBytes Reg.QPC_CMD_DATA 0 b |> wr Reg.QPC_CMD_STATUS 0 st |> raise Ev.CMD_DONE 0

/-- A write of CMD_GO while CMD_OP names the command. -/
def qpcCmd (op : Nat) (d : Dev) : Dev :=
  onlyIf (rd Reg.QPC_CMD_OP 0 d == op) (trigger 0x12 0 0x108 0 (fun _ => qpcGo)) d

end Sys2Proof.Machine
end

