-- ==== Sys2Proof/Machine/MrgOps.lean ====
section
/-!
DEFINITION. The commands of the MRG page (R300 to R306) and the completion of a slice's command ring entry (R444).
-/

namespace Sys2Proof.Machine

/-- A region entry as REG takes it (R300). -/
def regionFrom (b : List Byte) (pages : List Nat) : Region :=
  let f := fieldLe b
  let fl := f 0 1
  { valid := true, fastwin := bitOf fl 1, target := bitOf fl 2, access := f 1 1 % 16, gen := 0
    slice := f 4 2 % 4096, vh := f 4 2 / 4096, win := f 6 1, pasid := f 8 4 % 2 ^ 20, pasidEn := bitOf (f 8 4) 31
    shift := f 12 1, va := f 16 8, len := f 24 8, pages := pages, plAddr := f 48 8, rereg := 0 }

/-- A region entry as QUERY returns it, private bytes zero (R300). -/
def regionBytes (r : Region) : List Byte :=
  leBytes 1 (bnat r.valid + 2 * bnat r.fastwin + 4 * bnat r.target) ++ leBytes 1 r.access ++ leBytes 2 r.gen
    ++ leBytes 2 (r.slice + r.vh * 4096) ++ leBytes 1 r.win ++ leBytes 1 0 ++ leBytes 4 (r.pasid + 2 ^ 31 * bnat r.pasidEn)
    ++ leBytes 1 r.shift ++ List.replicate 3 0 ++ leBytes 8 r.va ++ leBytes 8 r.len ++ List.replicate 8 0
    ++ leBytes 4 r.pages.length ++ List.replicate 4 0 ++ leBytes 8 r.plAddr ++ List.replicate 8 0

/-- The fields of an entry are within their ranges; those that FASTWIN ignores are not looked at (R300). -/
def regionParamOk (r : Region) (d : Dev) : Bool :=
  r.fastwin ||
    (decide (1 ≤ r.len ∧ r.len ≤ 2 ^ 40) &&
      (if r.target then inArea 5 r.plAddr r.len d
       else [12, 16, 21, 30].contains r.shift && r.pages.all (fun p => p % 2 ^ r.shift == 0)))

/-- Page list entries a region needs: none in package memory or behind a fast window. -/
def needPages (r : Region) : Nat := if r.fastwin || r.target then 0 else xltCount r.shift r.va r.len

/-- The index that REG takes: the head of the free list (R304); none when it is empty. -/
def headIndex (d : Dev) : Option Nat := if d.eng.fresh < 4194304 then some d.eng.fresh else d.eng.freed.head?

/-- Takes the head of the free list. -/
def takeIndex (d : Dev) : Dev :=
  updEng (fun e => if e.fresh < 4194304 then { e with fresh := e.fresh + 1 } else { e with freed := e.freed.tail }) d

/-- What an MRG command answers: CMD_STATUS, CMD_KEY, the data it returns, indices whose old accesses must retire, and the state. -/
abbrev MrgOut := Nat × Nat × List Byte × List Nat × Dev

/-- REG (R304, R305): status, and on success the key and the state with the region in the table. -/
def mrgReg (b : List Byte) (pages : List Nat) (ok : Bool) (own : Option Nat) (d : Dev) : Nat × Option Nat × Dev :=
  let n0 := regionFrom b pages
  let k := needPages n0
  match headIndex d with
  | none => (4, none, d)
  | some i =>
    -- the function's VH is that of the slice (R300)
    let n := { n0 with pages := pages.take k, vh := slRd Reg.SLC_VH n0.slice d }
    if own.isSome && own != some n.slice then (2, none, d)
    else if !regionParamOk n d then (3, none, d)
    else if slRd Reg.SLC_MAX_REGIONS n.slice d ≤ sliceRegions n.slice d then (4, none, d)
    else if !ok ∨ pages.length < k ∨ (k ≠ 0 ∧ !bme n.vh d) then (7, none, d)
    else if xltFree d < xltBlocks n then (5, none, d)
    else
      let g := (regionOf i d).gen
      (0, some (i * 1024 + g), d |> takeIndex |> putRegion i { n with gen := g } |> countRegions (xltFree d))

/-- REREG (R304, R306) of index i: the same. -/
def mrgRereg (i key : Nat) (b : List Byte) (pages : List Nat) (ok mine : Bool) (d : Dev) : Nat × Option Nat × Dev :=
  let r := regionOf i d
  let n0 := regionFrom b pages
  let n1 := { r with va := n0.va, len := n0.len, access := n0.access, shift := n0.shift, target := n0.target, plAddr := n0.plAddr }
  let k := needPages n1
  let n := { n1 with pages := pages.take k, gen := (r.gen + 1) % 1024, rereg := r.rereg + 1 }
  if !r.valid ∨ r.gen ≠ keyGen key then (1, none, d)
  else if !mine then (2, none, d)
  else if 1023 ≤ r.rereg then (6, none, d)
  else if !regionParamOk n d then (3, none, d)
  else if !ok ∨ pages.length < k ∨ (k ≠ 0 ∧ !bme r.vh d) then (7, none, d)
  else if xltFree d + xltBlocks r < xltBlocks n then (5, none, d)
  else (0, some (i * 1024 + n.gen), d |> putRegion i n |> countRegions (xltFree d))

/-- An MRG command (R304 to R306), of the page or of a slice's command ring; `pages` is the page list as read from host memory, `ok`
that the read succeeded. -/
def mrgRun (op key : Nat) (b : List Byte) (pages : List Nat) (ok : Bool) (own : Option Nat) (d : Dev) : MrgOut :=
  let i := keyIdx key
  let r := regionOf i d
  let mine := match own with | some s => r.slice == s | none => true
  match op with
  | 0 => if mine then (0, key, regionBytes r, [], d) else (2, key, [], [], d)
  | 1 =>
    let x := mrgReg b pages ok own d
    (x.1, x.2.1.getD key, [], [], x.2.2)
  | 2 =>
    let x := mrgRereg i key b pages ok mine d
    (x.1, x.2.1.getD key, [], if x.2.1.isSome then [i] else [], x.2.2)
  | 3 =>
    if !r.valid ∨ r.gen ≠ keyGen key then (1, key, [], [], d)
    else if !mine then (2, key, [], [], d)
    else (0, key, [], [i], d |> dereg i |> countRegions (xltFree d))
  | 4 =>
    if own.isSome then (2, key, [], [], d)
    else
      let s := key % 4096
      (0, key, [], (d.eng.regions.filter (fun e => e.2.valid && e.2.slice == s)).map (fun e => e.1), invalSlice s d)
  | _ => (3, key, [], [], d)

/-- CMD_GO of the MRG page (R304, R305): a command with old accesses to retire stays busy until they have. -/
def mrgGo (pages : List Nat) (ok : Bool) (d : Dev) : Dev :=
  if rd Reg.MRG_CMD_BUSY 0 d = 1 then d else
  let (st, key, b, idx, d1) := mrgRun (rd Reg.MRG_CMD_OP 0 d) (rd Reg.MRG_CMD_KEY 0 d) (regBytes Reg.MRG_CMD_DATA 0 16 d)
    pages ok none d
  let d2 := d1 |> putRegBytes Reg.MRG_CMD_DATA 0 b |> wr Reg.MRG_CMD_STATUS 0 st |> wr Reg.MRG_CMD_KEY 0 key
  if idx.isEmpty then raise Ev.MRG_CMD_DONE 0 d2
  else d2 |> wr Reg.MRG_CMD_BUSY 0 1 |> updEng (fun e => { e with retiring := e.retiring ++ [(idx, none)] })

/-- A write of CMD_GO while CMD_OP names the command. -/
def mrgCmd (op : Nat) (pages : List Nat) (ok : Bool) (d : Dev) : Dev :=
  onlyIf (rd Reg.MRG_CMD_OP 0 d == op) (trigger 0x13 0 0x118 0 (fun _ => mrgGo pages ok)) d

/-! ## Command rings (R444) -/

/-- The slice event code of a served command ring entry (R449). -/
def ringCmdDone : Nat := 0x1C10

/-- Address of entry `i` of a slice's command ring. -/
def cmrAddr (n i : Nat) (d : Dev) : Nat :=
  slRd Reg.SLC_CMR_BASE_LO n d + 2 ^ 32 * slRd Reg.SLC_CMR_BASE_HI n d + 64 * (i % 2 ^ slRd Reg.SLC_CMR_LOG n d)

/-- An access of a slice's command ring. -/
def cmrWrite (n a : Nat) (bytes : List Byte) (d : Dev) : Dev :=
  access { chan := .hostWrite, vh := slRd Reg.SLC_VH n d, pasid := slicePasid n d, addr := a, ro := false, obj := 0,
           len := bytes.length, bytes := bytes, ring := true, owner := ⟨4, n⟩ } d

/-- The entry that a slice's command ring serves has ended: the data at DATA_ADDR, then bytes 2 and 3, then CMD_DONE (R444). A
command that returns a number returns it in NUM (log entry 38). -/
def ringDone (n : Nat) (entry : List Byte) (status : Nat) (data : List Byte) (num : Option Nat) (d : Dev) : Dev :=
  let i := slRd Reg.SLC_CMR_CI n d
  let a := cmrAddr n i d
  d |> onlyIf (!data.isEmpty) (cmrWrite n (fieldLe entry 16 8) data)
    |> (fun d => match num with | some k => cmrWrite n (a + 4) (leBytes 4 k) d | none => d)
    |> cmrWrite n (a + 2) (leBytes 1 status ++ leBytes 1 128)
    |> slWr Reg.SLC_CMR_CI n ((i + 1) % 65536)
    |> updSlice n (fun s => { s with cmr := s.cmr.tail })
    |> slWr Reg.SLC_CMD_SERVED n ((slRd Reg.SLC_CMD_SERVED n d + 1) % 2 ^ 32)
    |> sliceEvent n ringCmdDone i status

/-- The oldest MRG command whose old accesses have all retired completes (R305). -/
def retireDone (d : Dev) : Dev :=
  match d.eng.retiring.find? (fun x => x.1.all (fun i => retired i d)) with
  | none => d
  | some x =>
    let d1 := updEng (fun e => { e with retiring := e.retiring.erase x }) d
    match x.2 with
    | none => d1 |> wr Reg.MRG_CMD_BUSY 0 0 |> raise Ev.MRG_CMD_DONE 0
    | some (n, entry, data) =>
      -- REREG returns the key of the new generation
      let key := match x.1 with | i :: _ => i * 1024 + (regionOf i d).gen | [] => 0
      ringDone n entry 0 data (if fieldLe entry 1 1 = 2 then some key else none) d1

end Sys2Proof.Machine
end

