-- ==== Sys2Proof/Machine/Region.lean ====
section
/-!
DEFINITION. Meanings of the commands on regions and fast windows (ch. 10, R299 to R308, R327, R328).
-/

namespace Sys2Proof.Machine

/-- R304: REG takes a free index and returns a key. -/
def execReg (pages : List Nat) (ok : Bool) (s : State) : Out := onEng (mrgCmd 1 pages ok) s

/-- R304: REREG replaces a region's mapping and increments its generation. -/
def execRereg (pages : List Nat) (ok : Bool) (s : State) : Out := onEng (mrgCmd 2 pages ok) s

/-- R304: DEREG invalidates a region. -/
def execDereg (s : State) : Out := onEng (mrgCmd 3 [] true) s

/-- R304: QUERY copies a region entry into CMD_DATA. -/
def execMrgQuery (s : State) : Out := onEng (mrgCmd 0 [] true) s

/-- R304: INVAL_SLICE deregisters every valid region of a slice. -/
def execInvalSlice (s : State) : Out := onEng (mrgCmd 4 [] true) s

/-- R305: the last access under an old generation retires. -/
def execMrgRetireDone (s : State) : Out := onEng retireDone s

/-- R306: a translation fetch completes; an uncorrectable error makes the entry invalid. -/
def execXltFetchDone (qpn : Nat) (ok : Bool) (s : State) : Out :=
  onEng (fun d =>
    match d.eng.parked.find? (fun x => x.qpn == qpn) with
    | some x =>
      if x.why = 2 ∧ !d.eng.fetches.contains qpn then
        let k := match qpOf qpn d with
          | some q => if isFirst x.pkt.opc ∨ isReadOrAtomic x.pkt.opc then x.pkt.rkey else ((q.conn 0).inn).rkey
          | none => x.pkt.rkey
        let before := xltFree d
        d |> onlyIf (!ok) (fun d => d |> putRegion (keyIdx k) { regionOf (keyIdx k) d with valid := false }
              |> countRegions before |> raise Ev.MRG_ENTRY_ERR 0)
          |> updEng (fun e => { e with parked := e.parked.map (fun y =>
              if y = x then { y with pkt := { y.pkt with xlt := true }, why := 0 } else y) })
          |> runParked qpn
      else d
    | none => d) s

/-! ## Fast windows (R307, R308, R328) -/

/-- Changes a fast window's words. -/
def putWin (w : Nat) (x : Staged) (d : Dev) : Dev :=
  updEng (fun e => { e with wins := smSet (fun _ => Staged.init 8) e.wins w x }) d

/-- The words of a row of registers. -/
def rowWords (f : Fld) (inst k : Nat) (d : Dev) : List Nat := (List.range k).map (fun i => rdI f inst i d)

/-- The words of an entry with its reserved bits 0 (R10). -/
def maskRow (ms ws : List Nat) : List Nat := List.zipWith (fun m w => m &&& w) ms ws

/-- The defined bits of a fast window entry (R307). -/
def winMask : List Nat := [0x1F, 0, 0xFFFFFFFF, 0xFFFFFFFF, 0xFFFFFFFF, 0xFFFFFFFF, 0xFFFFFFFF, 0xFFFFFFFF]

/-- Writes words into a row of registers. -/
def putRow (f : Fld) (inst : Nat) (ws : List Nat) (d : Dev) : Dev :=
  forEach (List.range ws.length) (fun i => wrI f inst i (ws.getD i 0)) d

/-- A shadow entry keeps to the table of R307. -/
def winFits (ws : List Nat) (d : Dev) : Bool :=
  let base := wpair ws 2
  let len := wpair ws 4
  let t := wpair ws 6
  base % 4096 == 0 && t % 4096 == 0 && len % 4096 == 0 && decide (4096 ≤ len ∧ len ≤ 2 ^ 40)
    && (wbits ws 0 1 1 == 0 || inArea 5 t len d)

/-- Open fast windows (R328). -/
def openWins (d : Dev) : Nat := (d.eng.wins.filter (fun e => wbits e.2.live 0 0 1 == 1)).length

/-- A fence of a fast window is pending. -/
def winPend (w : Nat) (d : Dev) : Bool := bitOf (rdI Reg.WIN_FENCE_PEND 0 (w / 32) d) (w % 32)

/-- Sets or clears a window's pending bit. -/
def setPend (w : Nat) (b : Bool) (d : Dev) : Dev :=
  wrI Reg.WIN_FENCE_PEND 0 (w / 32) (putBit (rdI Reg.WIN_FENCE_PEND 0 (w / 32) d) (w % 32) b) d

/-- The accesses under a fast window's mapping are now made under an earlier one (R308). -/
def agePast (w : Nat) (d : Dev) : Dev :=
  let by_ := fun i : Nat => (regionOf i d).fastwin && (regionOf i d).win == w
  updEng (fun e => { e with
    reads := e.reads.map (fun r => if by_ r.key then { r with under := some w } else r)
    ats := e.ats.map (fun x => if by_ x.acc.key then { x with acc := { x.acc with under := some w } } else x) }) d

/-- Commits a fast window: its shadow comes into force and its fence starts, or the commit is refused (R307, R308). -/
def commitWin (w : Nat) (off : Nat) (val : Word) (d : Dev) : Dev :=
  let x := winOf w d
  if winFits x.shadow d then
    let d1 := d |> agePast w |> putWin w ⟨x.shadow, x.shadow⟩ |> setPend w true |> addMod Reg.WIN_COMMITS 0 0 1
    wr Reg.WIN_OPEN_CNT 0 (openWins d1) d1
  else cfgErr 0x14 0 off Cfg.CFG_WIN_RANGE val d

/-- A trigger bit of the WIN page. -/
def winTrig (bit : Nat) (act : Nat → Word → Dev → Dev) (d : Dev) : Dev :=
  trigger 0x14 0 0x104 bit (fun v d => act (rd Reg.WIN_IDX 0 d) v d) d

/-- RD_LIVE. -/
def winRdLive (w : Nat) (_ : Word) (d : Dev) : Dev := putRow Reg.WIN_DATA 0 (winOf w d).live d
/-- RD_SHADOW. -/
def winRdShadow (w : Nat) (_ : Word) (d : Dev) : Dev := putRow Reg.WIN_DATA 0 (winOf w d).shadow d
/-- WR_SHADOW. -/
def winWrShadow (w : Nat) (_ : Word) (d : Dev) : Dev := putWin w { winOf w d with shadow := maskRow winMask (rowWords Reg.WIN_DATA 0 8 d) } d
/-- DISCARD. -/
def winDiscard (w : Nat) (_ : Word) (d : Dev) : Dev := putWin w ⟨(winOf w d).live, (winOf w d).live⟩ d

/-- R328: RD_LIVE copies the live entry into WIN_DATA. -/
def execWinRdLive (s : State) : Out := onEng (winTrig 0 winRdLive) s

/-- R328: RD_SHADOW copies the shadow entry into WIN_DATA. -/
def execWinRdShadow (s : State) : Out := onEng (winTrig 1 winRdShadow) s

/-- R328: WR_SHADOW writes WIN_DATA into the shadow entry. -/
def execWinWrShadow (s : State) : Out := onEng (winTrig 2 winWrShadow) s

/-- R308: COMMIT checks the shadow and swaps it in. -/
def execWinCommit (s : State) : Out := onEng (winTrig 3 (fun w v => commitWin w 0x104 v)) s

/-- R328: DISCARD copies the live entry into the shadow. -/
def execWinDiscard (s : State) : Out := onEng (winTrig 4 winDiscard) s

/-- No access made under an earlier mapping of a fast window is outstanding (R305, R308). -/
def winRetired (w : Nat) (d : Dev) : Bool :=
  d.eng.reads.all (fun r => r.under != some w) && d.eng.ats.all (fun x => x.acc.under != some w)

/-- No read or write made under an earlier mapping of a reach-through window is outstanding (R308, R311, R312). -/
def bwinRetired (w : Nat) (d : Dev) : Bool :=
  d.eng.brgReads.all (fun r => r.win != w || !r.old)
    && (bw w d).prior.all (fun x => !(writeIds (startedOf x.1 d)).contains x.2)

/-- R308: the last access under an earlier mapping of a window retires. -/
def execWindowFenceDone (reach : Bool) (win : Nat) (s : State) : Out :=
  onEng (fun d =>
    if reach then onlyIf ((bw win d).fence && bwinRetired win d)
      (fun d => d |> updBw win (fun b => { b with fence := false }) |> raise Ev.BRG_FENCE_DONE 0) d
    else onlyIf (winPend win d && winRetired win d) (fun d => d |> setPend win false |> raise Ev.WIN_FENCE_DONE 0) d) s

end Sys2Proof.Machine
end

