-- ==== Sys2Proof/Machine/Bridge.lean ====
section
/-!
DEFINITION. Meanings of the commands on the load/store bridge, the message map and the slot sideband wires (ch. 10, R309 to R324, R329,
R330).
-/

namespace Sys2Proof.Machine

/-! ## Reach-through windows and groups (R308 to R310, R329) -/

/-- Changes a reach-through window's words. -/
def putBwin (w : Nat) (x : Staged) (d : Dev) : Dev :=
  updEng (fun e => { e with brgWins := smSet (fun _ => Staged.init 8) e.brgWins w x }) d

/-- Changes a group's words. -/
def putGrp (g : Nat) (x : Staged) (d : Dev) : Dev :=
  updEng (fun e => { e with grps := smSet (fun _ => Staged.init 4) e.grps g x }) d

/-- Bytes of a VH's bridge aperture, 0 where there is none (R424, R429). -/
def aperture (v : Nat) (d : Dev) : Nat := if rd Reg.FUN_APER_LOG v d = 0 then 0 else 2 ^ rd Reg.FUN_APER_LOG v d

/-- Two ranges of offsets overlap. -/
def overlaps (a n b m : Nat) : Bool := decide (a < b + m ∧ b < a + n)

/-- The forward range of a VH (R322): its offset where it is enabled. -/
def fwdRange (v : Nat) (d : Dev) : Option Nat :=
  if rdI Reg.MAP_FWD_EN 0 v d = 1 then some (rdI Reg.MAP_FWD_OFS_LO 0 v d + 2 ^ 32 * rdI Reg.MAP_FWD_OFS_HI 0 v d) else none

/-- A window's shadow may come into force: fields within R309, and for a valid window a valid group, its place within the aperture
(R429), and no overlap with a valid window of its VH or the forward range. -/
def bwinFits (w : Nat) (ws : List Nat) (d : Dev) : Bool :=
  let size := wbits ws 0 12 5
  let ofs := wpair ws 2 % 2 ^ 40
  let g := wbits ws 0 6 6
  let v := grpVh g d
  decide (16 ≤ size ∧ size ≤ 36) && ofs % 2 ^ size == 0 &&
  (wbits ws 0 0 1 == 0 ||
    (grpValid g d && decide (ofs + 2 ^ size ≤ aperture v d) &&
     (List.range 1024).all (fun x => x == w || !bwValid x d || grpVh (bwGrp x d) d != v
        || !overlaps ofs (2 ^ size) (bwOfs x d) (bwBytes x d)) &&
     (match fwdRange v d with | some f => !overlaps ofs (2 ^ size) f 4096 | none => true)))

/-- The accesses under a reach-through window's mapping are now made under an earlier one, and its fence starts (R308). A read that still
waits is issued under the mapping that it found, and without prefetching (log entry 202). -/
def agePastBw (w : Nat) (d : Dev) : Dev :=
  let n := grpQpn (bwGrp w d) d
  let ids := (startedOf n d).filterMap (fun x => match x.kind with | .brgWrite v _ => if v = w then some (n, x.id) else none | _ => none)
  d |> updBw w (fun b => { b with fence := true, prior := (b.prior ++ ids).eraseDups })
    |> updEng (fun e => { e with brgReads := e.brgReads.map (fun r =>
        if r.win = w then { r with old := true, pre := r.pre && r.state == 4 } else r) })

/-- Commits a reach-through window, or refuses it (R308, R309). -/
def commitBwin (w off : Nat) (val : Word) (d : Dev) : Dev :=
  let x := bwinOf w d
  if bwinFits w x.shadow d then
    d |> dropBlocks (fun b => b.win == w) |> agePastBw w |> putBwin w ⟨x.shadow, x.shadow⟩
  else cfgErr 0x15 0 off Cfg.CFG_BRG_RANGE val d

/-- A trigger bit of the BRG page that acts on the indexed window. -/
def brgTrig (bit : Nat) (act : Nat → Word → Dev → Dev) (d : Dev) : Dev :=
  trigger 0x15 0 0x104 bit (fun v d => act (rd Reg.BRG_BW_IDX 0 d) v d) d

/-- RD_LIVE. -/
def bwRdLive (w : Nat) (_ : Word) (d : Dev) : Dev := putRow Reg.BRG_BW_DATA 0 (bwinOf w d).live d
/-- RD_SHADOW. -/
def bwRdShadow (w : Nat) (_ : Word) (d : Dev) : Dev := putRow Reg.BRG_BW_DATA 0 (bwinOf w d).shadow d
/-- The defined bits of a reach-through window entry (R309). -/
def bwMask : List Nat := [0xFF01FFFF, 0, 0xFFFFFFFF, 0xFF, 0xFFFFFFFF, 0xFFFFFFFF, 0xFFFFFFFF, 0]

/-- WR_SHADOW. -/
def bwWrShadow (w : Nat) (_ : Word) (d : Dev) : Dev := putBwin w { bwinOf w d with shadow := maskRow bwMask (rowWords Reg.BRG_BW_DATA 0 8 d) } d
/-- DISCARD. -/
def bwDiscard (w : Nat) (_ : Word) (d : Dev) : Dev := putBwin w ⟨(bwinOf w d).live, (bwinOf w d).live⟩ d
/-- ERR_CLR. -/
def bwErrClr (w : Nat) (_ : Word) (d : Dev) : Dev := updBw w (fun b => { b with latch := false, cause := 0, psn := 0 }) d

/-- R329: RD_LIVE copies the live entry into BW_DATA. -/
def execBrgRdLive (s : State) : Out := onEng (brgTrig 0 bwRdLive) s

/-- R329: RD_SHADOW copies the shadow entry into BW_DATA. -/
def execBrgRdShadow (s : State) : Out := onEng (brgTrig 1 bwRdShadow) s

/-- R329: WR_SHADOW writes BW_DATA into the shadow entry. -/
def execBrgWrShadow (s : State) : Out := onEng (brgTrig 2 bwWrShadow) s

/-- R309: COMMIT checks the shadow and swaps it in. -/
def execBrgWinCommit (s : State) : Out := onEng (brgTrig 3 (fun w v => commitBwin w 0x104 v)) s

/-- R329: DISCARD copies the live entry into the shadow. -/
def execBrgDiscard (s : State) : Out := onEng (brgTrig 4 bwDiscard) s

/-- R319: ERR_CLR clears the indexed window's latch. -/
def execErrClr (s : State) : Out := onEng (brgTrig 5 bwErrClr) s

/-- A trigger bit of the BRG page that acts on the indexed group. -/
def grpTrig (bit : Nat) (act : Nat → Word → Dev → Dev) (d : Dev) : Dev :=
  trigger 0x15 0 0x134 bit (fun v d => act (rd Reg.BRG_GRP_IDX 0 d) v d) d

/-- A read of the bridge holds a tag of its group (R310, R312). -/
def holdsTag (r : BrgRead) : Bool := r.state == 2 || r.state == 4

/-- Tags of a group in use. -/
def grpTags (g : Nat) (d : Dev) : Nat := (d.eng.brgReads.filter (fun r => r.grp == g && holdsTag r)).length

/-- Outstanding reads of a window. -/
def winTags (w : Nat) (d : Dev) : Nat := (d.eng.brgReads.filter (fun r => r.win == w && holdsTag r)).length

/-- Window groups of a slice. -/
def sliceGroups (n : Nat) (d : Dev) : Nat := ((List.range 64).filter (fun g => grpValid g d && grpSlice g d == n)).length

/-- A group's shadow may come into force (R310, R329, R439). -/
def grpFits (g : Nat) (ws : List Nat) (d : Dev) : Bool :=
  let n := wbits ws 0 5 12
  let qpn := wbits ws 1 0 24
  let cells := wbits ws 2 0 13
  grpTags g d == 0 && grpHeld g d == 0 && decide (16 ≤ cells ∧ cells ≤ 4096) &&
  (wbits ws 0 0 1 == 0 ||
    ((match qpOf qpn d with | some q => !q.rd | none => false) && ownsNum n qpn d && numVh qpn d == wbits ws 0 1 4 &&
     ((grpValid g d && grpSlice g d == n) || decide (sliceGroups n d < slRd Reg.SLC_MAX_GROUPS n d))))

/-- Commits a group, or refuses it. -/
def commitGrp (g off : Nat) (val : Word) (d : Dev) : Dev :=
  let x := grpOf g d
  if grpFits g x.shadow d then putGrp g ⟨x.shadow, x.shadow⟩ d else cfgErr 0x15 0 off Cfg.CFG_BRG_RANGE val d

/-- GRP_RD. -/
def grpRd (g : Nat) (_ : Word) (d : Dev) : Dev := putRow Reg.BRG_GRP_DATA 0 (grpOf g d).live d
/-- The defined bits of a window group entry (R310). -/
def grpMask : List Nat := [0x1FFFF, 0xFFFFFF, 0x1FFF, 0]

/-- GRP_WR. -/
def grpWr (g : Nat) (_ : Word) (d : Dev) : Dev := putGrp g { grpOf g d with shadow := maskRow grpMask (rowWords Reg.BRG_GRP_DATA 0 4 d) } d

/-- R329: GRP_RD copies the live group entry into GRP_DATA. -/
def execGrpRd (s : State) : Out := onEng (grpTrig 0 grpRd) s

/-- R329: GRP_WR writes GRP_DATA into the shadow group entry. -/
def execGrpWr (s : State) : Out := onEng (grpTrig 1 grpWr) s

/-- R310: GRP_COMMIT checks a group and puts it in force. -/
def execGrpCommit (s : State) : Out := onEng (grpTrig 2 (fun g v => commitGrp g 0x134 v)) s

/-! ## TLPs through a window (R309, R311 to R319) -/

/-- The valid window of a VH that holds `n` bytes at an aperture offset (R309). -/
def findWin (v ofs n : Nat) (d : Dev) : Option Nat :=
  (List.range 1024).find? (fun w => bwValid w d && grpValid (bwGrp w d) d && grpVh (bwGrp w d) d == v
    && within (bwOfs w d) (bwBytes w d) ofs n)

/-- The group's queue pair is in RTS. -/
def grpRts (g : Nat) (d : Dev) : Bool := match qpOf (grpQpn g d) d with | some q => qpRts q | none => false

/-- The contiguous runs of enabled bytes, each with its offset (R311). -/
def runsOf : Nat → List Byte → List Bool → List (Nat × List Byte)
  | _, [], _ => []
  | _, _, [] => []
  | o, b :: bs, e :: es =>
    let rest := runsOf (o + 1) bs es
    if e then
      match rest with
      | (p, l) :: more => if p = o + 1 then (o, b :: l) :: more else (o, [b]) :: rest
      | [] => [(o, [b])]
    else rest

/-- Cells that all groups' writes hold. -/
def allHeld (d : Dev) : Nat := ((List.range 64).map (fun g => if grpValid g d then grpHeld g d else 0)).sum

/-- The remote address of an aperture offset of a window. -/
def remAddr (w ofs : Nat) (d : Dev) : Nat := bwRem w d + (ofs - bwOfs w d)

/-- Carries the runs of a write; the first holds the TLP's cells (R311). -/
def carryRuns (w cells : Nat) : List (Nat × List Byte) → Dev → Dev
  | [], d => d
  | (o, l) :: rest, d =>
    d |> addWqe (grpQpn (bwGrp w d) d) (.brgWrite w cells) (fun q => { q with
          wop := 2, len := l.length, raddr := remAddr w o d, rkey := bwKey w d, buf := l })
      |> carryRuns w 0 rest

/-- R311: a memory write into a window is carried, or dropped. -/
def execBrgMemWriteTlp (vh ofs : Nat) (data : List Byte) (be : List Bool) (s : State) : Out :=
  onEng (fun d =>
    match findWin vh ofs data.length d with
    | none => bump Reg.BRG_UR_SENT 0 d
    | some w =>
      let g := bwGrp w d
      let cells := max 1 ((data.length + 255) / 256)
      if rd Reg.BRG_WBUF_CELLS 0 d ≤ allHeld d ∨ grpCells g d ≤ grpHeld g d then d
      else if !bwPerm w 2 d then latchWin w 7 0 false d
      else if !grpRts g d then d |> latchWin w 5 0 false |> bump Reg.BRG_WR_ABANDONED 0
      else
        d |> dropBlocks (fun b => b.grp == g && overlaps (remAddr b.win b.addr d) b.len (remAddr w ofs d) data.length)
          |> bump Reg.BRG_WR_TLP 0 |> carryRuns w cells (runsOf ofs data be)) s

/-- A tag of the window and its group is free (R309, R310, R312). -/
def tagFree (w : Nat) (d : Dev) : Bool := decide (grpTags (bwGrp w d) d < 256 ∧ winTags w d < bwTags w d)

/-- Changes a read of the bridge. -/
def updBrgRead (id : Nat) (f : BrgRead → BrgRead) (d : Dev) : Dev :=
  updEng (fun e => { e with brgReads := e.brgReads.map (fun r => if r.id = id then f r else r) }) d

/-- Bytes of a prefetch block (R329). -/
def pfBytes (d : Dev) : Nat := 2 ^ rd Reg.BRG_PF_BLOCK 0 d

/-- The blocks a read of a prefetch window fetches: those it touches, and the next where it ends in the upper half of its block and
the next lies within the window (R314). -/
def pfBlocks (w ofs n : Nat) (d : Dev) : List Nat :=
  let b := pfBytes d
  let last := ofs + n - 1
  let touched := (List.range (last / b + 1 - ofs / b)).map (fun i => (ofs / b + i) * b)
  let next := (last / b + 1) * b
  if b / 2 ≤ last % b ∧ next + b ≤ bwOfs w d + bwBytes w d then touched ++ [next] else touched

/-- Fetches a block into the group's store of 32, in the stead of the least recently used (R314). -/
def fetchBlock (w a : Nat) (d : Dev) : Dev :=
  let g := bwGrp w d
  if d.eng.pf.any (fun b => b.lateFor.isNone && b.grp == g && b.win == w && b.addr == a && b.len == pfBytes d) then d else
  let mine := d.eng.pf.filter (fun b => b.lateFor.isNone && b.grp == g)
  let d1 := match mine with
    | old :: _ => if 32 ≤ mine.length then dropBlocks (fun b => b == old) d else d
    | [] => d
  d1 |> updEng (fun e => { e with
          nextBrg := e.nextBrg + 1, pf := e.pf ++ [⟨e.nextBrg, g, w, a, pfBytes d, none, false, none⟩] })
    |> bump Reg.BRG_PF_ISSUED 0
    |> addWqe (grpQpn g d) (.prefetch d1.eng.nextBrg) (fun q => { q with
        wop := 4, len := pfBytes d, raddr := remAddr w a d, rkey := bwKey w d, buf := List.replicate (pfBytes d) 0 })

/-- Issues a read or AtomicOp that has its tag (R312, R314, R315); a read of a latched window completes CA (R319). -/
def issueRead (r : BrgRead) (d : Dev) : Dev :=
  let d0 := bump Reg.BRG_RD_TLP 0 d
  if (bw r.win d).latch ∧ r.kind ≠ 1 then abortBrgRead r d
  else if r.kind = 1 then
    d0 |> updBrgRead r.id (fun x => { x with state := 2 })
      |> addWqe (grpQpn r.grp d) (.brgRead r.id) (fun q => { q with
          wop := r.opc, len := r.len, raddr := r.rem, rkey := r.rkey, op1 := r.op1, op2 := r.op2
          buf := List.replicate r.len 0 })
  else if r.pre then
    d0 |> updBrgRead r.id (fun x => { x with state := 4 }) |> forEach (pfBlocks r.win r.addr r.len d) (fetchBlock r.win)
      |> readyPfReads
  else
    d0 |> updBrgRead r.id (fun x => { x with state := 2 })
      |> addWqe (grpQpn r.grp d) (.brgRead r.id) (fun q => { q with
          wop := 4, len := r.len, raddr := r.rem, rkey := r.rkey, buf := List.replicate r.len 0 })

/-- Another requester holds a window's semaphore (R316). -/
def lockedOut (w req : Nat) (d : Dev) : Bool := match (bw w d).lock with | some h => h != req | none => false

/-- Reads that wait in the bridge's non-posted queue of 64 (R312, R316). -/
def npWaiting (d : Dev) : Nat := (d.eng.brgReads.filter (fun r => r.state == 0 || r.state == 1)).length

/-- A read, AtomicOp or locked read enters the bridge: it waits for the semaphore or a tag, is served locally, or is issued. -/
def enterRead (r0 : BrgRead) (d : Dev) : Dev :=
  let w := r0.win
  let r := { r0 with
    id := d.eng.nextBrg, behind := writeIds (startedOf (grpQpn r0.grp d) d)
    rem := remAddr w r0.addr d, rkey := bwKey w d, pre := r0.kind == 0 && bwPerm w 5 d }
  let add := fun (st : Nat) (data : List Byte) (d : Dev) =>
    updEng (fun e => { e with nextBrg := e.nextBrg + 1, brgReads := e.brgReads ++ [{ r with state := st, data := data }] }) d
  if lockedOut w r.req d then (if 64 ≤ npWaiting d then d else add 1 [] d)
  else
    let d0 := if r.kind = 2 then updBw w (fun b => { b with lock := some r.req }) d else d
    if r.kind = 0 ∧ r.len = 0 then d0 |> add 3 [] |> readyBrgReads
    else
      match (if r.pre then hitBytes r d else none) with
      | some l => d0 |> bump Reg.BRG_PF_HIT 0 |> useBlocks r |> add 3 l |> readyBrgReads
      | none =>
        if tagFree w d then d0 |> add 0 [] |> issueRead { r with state := 0 }
        else if 64 ≤ npWaiting d then d
        else d0 |> bump Reg.BRG_TAG_WAIT 0 |> add 0 []

/-- A non-posted TLP that never enters the bridge is completed with a status (R309, R315, R316, R319). -/
def refuseRead (vh req tag ofs status : Nat) (d : Dev) : Dev :=
  cplStatus ⟨0, 0, 0, vh, req, tag, ofs, 0, 0, 0, [], [], 0, 0, 0, 0, 0, false, false⟩ status d

/-- R312: a memory read into a window. A read without read permission completes with a status the spec does not state: UR or CA, by a
free value (log entry 35). -/
def execBrgMemReadTlp (vh req tag ofs len : Nat) (s : State) : Out :=
  onEng (fun d =>
    match findWin vh ofs len d with
    | none => refuseRead vh req tag ofs 1 d
    | some w =>
      if (bw w d).latch ∨ !grpRts (bwGrp w d) d then refuseRead vh req tag ofs 4 d
      else if !bwPerm w 1 d then d |> takeFree |> refuseRead vh req tag ofs (if free 1 d = 0 then 1 else 4)
      else enterRead ⟨0, w, bwGrp w d, vh, req, tag, ofs, len, 0, 0, [], [], 0, 0, 0, 0, 0, false, false⟩ d) s

/-- R312: a tag frees and the oldest waiting read that has one free is issued. -/
def execBrgQueuedReadIssue (s : State) : Out :=
  onEng (fun d =>
    match d.eng.brgReads.find? (fun r => r.state == 0 && tagFree r.win d) with
    | some r => issueRead r d
    | none => d) s

/-- The opcode of a supported AtomicOp (R315): FetchAdd 64, CAS 64, CAS 128. -/
def aopWop (kind size : Nat) : Option Nat :=
  if kind = 0 ∧ size = 8 then some 5 else if kind = 2 ∧ size = 8 then some 6 else if kind = 2 ∧ size = 16 then some 8 else none

/-- R315: a PCIe AtomicOp through a window. -/
def execBrgAtomicopTlp (vh req tag ofs kind size op1 op2 : Nat) (s : State) : Out :=
  onEng (fun d =>
    match findWin vh ofs size d with
    | none => refuseRead vh req tag ofs 1 d
    | some w =>
      match aopWop kind size with
      | none => refuseRead vh req tag ofs 1 d
      | some wop =>
        if !bwPerm w 3 d ∨ !grpRts (bwGrp w d) d then refuseRead vh req tag ofs 4 d
        else enterRead ⟨0, w, bwGrp w d, vh, req, tag, ofs, size, 1, 0, [], [], wop, op1, op2, 0, 0, false, false⟩ d) s

/-- R316: a locked read takes the window's semaphore for its requester. -/
def execBrgLockedRead (vh req tag ofs len : Nat) (s : State) : Out :=
  onEng (fun d =>
    match findWin vh ofs len d with
    | none => refuseRead vh req tag ofs 1 d
    | some w =>
      if !bwPerm w 4 d then refuseRead vh req tag ofs 1 d
      else if (bw w d).latch ∨ !grpRts (bwGrp w d) d then refuseRead vh req tag ofs 4 d
      else enterRead ⟨0, w, bwGrp w d, vh, req, tag, ofs, len, 2, 0, [], [], 0, 0, 0, 0, 0, false, false⟩ d) s

/-- A window's semaphore is released: the reads that waited for it go on in the non-posted queue, a locked read taking it anew. -/
def unlock (w : Nat) (d : Dev) : Dev :=
  let waiting := d.eng.brgReads.filter (fun r => r.win == w && r.state == 1)
  -- up to and with the first locked read; what other requesters sent after it waits on
  let first := waiting.find? (fun r => r.kind == 2)
  let go := match first with
    | some l => waiting.filter (fun r => r.id ≤ l.id || r.req == l.req)
    | none => waiting
  d |> updBw w (fun b => { b with lock := first.map (fun r => r.req) })
    |> forEach go (fun r => updBrgRead r.id (fun x => { x with state := 0 }))

/-- R316: the holder's Unlock message releases the semaphore. -/
def execBrgUnlockMsg (vh req : Nat) (s : State) : Out :=
  onEng (fun d => forEach ((List.range 1024).filter (fun w => grpVh (bwGrp w d) d == vh && (bw w d).lock == some req)) unlock d) s

/-- R312: a read reaches RD_TMO. -/
def execBrgRdTimeout (id : Nat) (s : State) : Out :=
  onEng (fun d =>
    match d.eng.brgReads.find? (fun r => r.id == id) with
    | some r => d |> abortBrgRead r |> bump Reg.BRG_RD_TMO_CNT 0 |> raise Ev.BRG_RD_TIMEOUT 0
    | none => d) s

/-- R316: LOCK_TMO releases a window's semaphore and latches the window. -/
def execWinLockTmo (win : Nat) (s : State) : Out :=
  onEng (fun d =>
    match (bw win d).lock with
    | some h => d |> unlock win |> latchWin win 6 0 false
        |> sliceEvent (grpSlice (bwGrp win d) d) RingEv.WIN_LOCK_TMO win (h % 65536)
    | none => d) s

/-- R314: a prefetched block reaches PF_AGE. -/
def execPfAgeExpire (win ofs : Nat) (s : State) : Out := onEng (dropBlocks (fun b => b.win == win && b.addr == ofs)) s

/-! ## Messages (R320 to R322, R330) -/

/-- A map entry's six words (R321). -/
def mapOf (i : Nat) (d : Dev) : List Nat := smGet (fun _ => List.replicate 6 0) d.eng.maps i

/-- Gives a map entry its words. -/
def putMap (i : Nat) (ws : List Nat) (d : Dev) : Dev :=
  updEng (fun e => { e with maps := smSet (fun _ => List.replicate 6 0) e.maps i ws }) d

/-- The port number of a VH's upstream port, if it has one (R396). -/
def uspPort (v : Nat) (d : Dev) : Option Nat :=
  if rd Reg.VHC_VH_EN v d = 1 then some (rd Reg.EXP_PORT (rd Reg.VHC_USP v d) d) else none

/-- Sends an entry's message write, unless its function is no bus master (R321, R326): port, kind 3, VH, address. -/
def msgWrite (ws : List Nat) (payload : Nat) (d : Dev) : Dev :=
  let v := wbits ws 1 16 4
  if bme v d then
    d |> emit .tlp [wbits ws 1 20 8, 3, v, wpair ws 2] (leBytes 4 (if wbits ws 1 28 1 = 0 then ws.getD 4 0 else payload))
      |> bump Reg.MAP_MSG_DELIVERED 0
  else bump Reg.BRG_MSG_DROP 0 d

/-- The entry of a source and vector: the first valid one of the eight from the hash (R321). -/
def mapFind (lid vec : Nat) (d : Dev) : Option Nat :=
  let h := Nat.xor (Nat.xor (lid % 65536) (bitsOf lid 16 4 * 4096)) vec
  ((List.range 8).map (fun i => (h + i) % 65536)).find? (fun i =>
    let ws := mapOf i d
    wbits ws 0 28 1 == 1 && wbits ws 0 0 20 == lid && wbits ws 1 0 16 == vec)

/-- A message is delivered, pended or discarded (R321). -/
def takeMessage (lid nvalue : Nat) (d : Dev) : Dev :=
  let d0 := bump Reg.MAP_MSG_RX 0 d
  match mapFind lid (nvalue % 65536) d with
  | none => d0 |> bump Reg.MAP_MISS_CNT 0 |> raise Ev.MAP_MISS 0
  | some i =>
    if wbits (mapOf i d) 0 29 1 = 1 then
      d0 |> updEng (fun e => { e with mapPend := if e.mapPend.contains i then e.mapPend else e.mapPend ++ [i] })
        |> bump Reg.MAP_MSG_PENDED 0
    else msgWrite (mapOf i d) (bitsOf nvalue 32 32) d0

/-- A packet for the message endpoint (R285, R286, R320, R321). -/
def messageIn (p : SftPkt) (d : Dev) : Dev :=
  if !p.ecrcOk then bump Reg.TPE_ECRC_ERR (msgQpn % 8) d
  else if p.ekey ≠ rd Reg.MAP_EKEY 0 d then bump Reg.TPE_BAD_VH (msgQpn % 8) d
  else
    match qpOf msgQpn d with
    | none => d
    | some q =>
      match connFor msgQpn q p d with
      | (none, d1) => d1
      | (some key, d1) =>
        let q1 := (qpOf msgQpn d1).getD q
        let c := q1.conn key
        if p.psn = c.epsn then
          if p.opc = 0x20 then
            d1 |> accept msgQpn key 1 true p |> takeMessage p.slid p.nvalue |> ackPolicy msgQpn key p.ackReq
          else sendNak msgQpn key p.psn 3 0 d1
        else if 0 < psnSub c.epsn p.psn ∧ psnSub c.epsn p.psn ≤ 2 ^ 23 then runDup msgQpn key q1 p d1
        else runGap msgQpn key q1 d1

/-- R321: the message endpoint takes a NOTIFY. -/
def execMessageNotifyRx (p : SftPkt) (s : State) : Out :=
  onEng (onlyIf (p.dqpn == msgQpn) (fun d => d |> messageIn p |> afterTaken (msgQpn % 8) false)) s

/-- R322: a write into the forward range goes out as a NOTIFY to the target node. Without room for a peer record it waits at the
bridge's intake. -/
def execFwdRangeWrite (vh ofs : Nat) (data : List Byte) (s : State) : Out :=
  onEng (fun d =>
    match fwdRange vh d with
    | none => d
    | some f =>
      if ofs < f ∨ f + 4096 ≤ ofs then d
      else if data.length ≠ 4 then bump Reg.BRG_UR_SENT 0 d
      else
        let lid := rdI Reg.MAP_FWD_LID 0 vh d
        let key := peerKey lid msgQpn
        let v := ofLe data
        match qpOf msgQpn d with
        | none => d
        | some q =>
          let q1 := if (smFind q.conns key).isNone then q.addPeer lid msgQpn (d.th.localNs / 1000000) else q
          if (smFind q1.conns key).isNone then d
          else
            d |> putQp msgQpn (some q1)
              |> addWqe msgQpn .finish (fun w => { w with
                  wop := 9, op1 := v % 65536 + v * 2 ^ 32, rkey := rdI Reg.MAP_FWD_EKEY 0 vh d, conn := key })
              |> bump Reg.MAP_FWD_TX 0) s

/-- READ of the MAP page. -/
def mapRd (_ : Word) (d : Dev) : Dev :=
  let i := rd Reg.MAP_IDX 0 d
  let ws := mapOf i d
  putRow Reg.MAP_DATA 0 ((ws.getD 0 0 + 2 ^ 30 * bnat (d.eng.mapPend.contains i)) :: ws.tail) d

/-- The defined bits of a message map entry that a write gives; PENDING is read only (R321). -/
def mapMask : List Nat := [0x300FFFFF, 0x1FFFFFFF, 0xFFFFFFFF, 0xFFFFFFFF, 0xFFFFFFFF, 0]

/-- Writes a map entry: refused by R321, else in force at once; unmasking a pending entry delivers one write. The PAYLOAD of a
pended message is not stated, a free value (log entry 39). -/
def mapPut (i : Nat) (ws0 : List Nat) (off : Nat) (val : Word) (d : Dev) : Dev :=
  let ws := maskRow mapMask ws0
  if uspPort (wbits ws 1 16 4) d == some (wbits ws 1 20 8) && wpair ws 2 % 4 == 0 then
    let fire := wbits (mapOf i d) 0 29 1 == 1 && wbits ws 0 29 1 == 0 && d.eng.mapPend.contains i
    let d1 := putMap i ws d
    if fire then
      d1 |> updEng (fun e => { e with mapPend := e.mapPend.filter (fun x => x != i) }) |> takeFree |> msgWrite ws (free 32 d)
    else d1
  else cfgErr 0x16 0 off Cfg.CFG_MAP_RANGE val d

/-- WRITE of the MAP page. -/
def mapWr (v : Word) (d : Dev) : Dev := mapPut (rd Reg.MAP_IDX 0 d) (rowWords Reg.MAP_DATA 0 6 d) 0x104 v d

/-- R330: READ copies a map entry into MAP_DATA. -/
def execMapRead (s : State) : Out := onEng (trigger 0x16 0 0x104 0 mapRd) s

/-- R330: WRITE checks and writes a map entry. -/
def execMapWrite (s : State) : Out := onEng (trigger 0x16 0 0x104 1 mapWr) s

/-! ## Sideband wires (R323, R324) -/

/-- The source of a slot's wire in a map word. -/
def wireSrc (m k : Nat) : Nat := bitsOf m (5 * k) 5

/-- A wire map keeps to R323: sources 0 to 15 or 31, one slot per host for PRSNT_N and up to 8 for the others. -/
def wireMapOk (m : Nat → Nat) : Bool :=
  (List.range 5).all (fun k =>
    (List.range 32).all (fun s => wireSrc (m s) k < 16 || wireSrc (m s) k == 31) &&
    (List.range 16).all (fun h => ((List.range 32).filter (fun s => wireSrc (m s) k == h)).length ≤ (if k = 2 then 1 else 8)))

/-- The source that wire `k` of a slot is connected to: 0 to 15 a host group, 31 the DX7, 32 while a map commit holds the connection
open (R323, R324). -/
def wireAt (s k : Nat) (d : Dev) : Nat :=
  let m := wireSrc (rdI Reg.BRG_WIRE_MAP 0 s d) k
  match d.eng.wireOpen.find? (fun x => x.1 == s) with
  | some x => if wireSrc x.2 k = m then m else 32
  | none => m

/-- The level of a host wire: low where any slot connected to it is low, for wires from slots; at its pull-up where none is (R323,
R324). -/
def hostLevel (h k : Nat) (d : Dev) : Bool :=
  (List.range 32).all (fun s => wireAt s k d != h || bitOf (slotLvl k d) s)

/-- A slot wire's level changes: its sampled copy, and WIRE_EDGE where it is watched (R324). -/
def slotLevel (slot k : Nat) (level : Bool) (d : Dev) : Dev :=
  if bitOf (slotLvl k d) slot = level then d
  else
    d |> setSlotLvl k (putBit (slotLvl k d) slot level)
      |> onlyIf (bitOf (rdI Reg.BRG_WATCH 0 k d) slot) (fun d => d |> bump Reg.BRG_WIRE_EDGES 0 |> raise Ev.WIRE_EDGE 0)

/-- A host wire that slots drive follows them: its sampled copy, and the wire itself. -/
def hostFollows (h k : Nat) (d : Dev) : Dev :=
  if bitOf (hostLvl k d) h = hostLevel h k d then d
  else d |> setHostLvl k (putBit (hostLvl k d) h (hostLevel h k d)) |> emit .pin [1, 8 * h + k, bnat (hostLevel h k d)] []

/-- The host wires that some connection among `l` concerns follow their slots. -/
def hostsFollow (l : List (Nat × Nat)) (d : Dev) : Dev :=
  forEach [1, 2, 3, 4] (fun k d =>
    forEach ((l.map (fun x => wireSrc x.2 k)).eraseDups.filter (fun h => decide (h < 16))) (fun h => hostFollows h k) d) d

/-- PERST_N of a slot takes the level of the host group that it is connected to (R323). -/
def perstFollows (s : Nat) (d : Dev) : Dev :=
  let h := wireAt s 0 d
  let lv := bitOf (hostLvl 0 d) h
  if 16 ≤ h ∨ bitOf (slotLvl 0 d) s = lv then d
  else d |> slotLevel s 0 lv |> emit .pin [0, 8 * s, bnat lv] []

/-- WIRE_COMMIT: the changed connections open; ignored while a commit runs (R324, R326). -/
def wireGo (v : Word) (d : Dev) : Dev :=
  if rd Reg.BRG_WIRE_BUSY 0 d = 1 then d
  else if wireMapOk (fun s => rdI Reg.BRG_WIRE_STG 0 s d) then
    let ch := (List.range 32).filter (fun s => rdI Reg.BRG_WIRE_STG 0 s d != rdI Reg.BRG_WIRE_MAP 0 s d)
    d |> wr Reg.BRG_WIRE_BUSY 0 1
      |> updEng (fun e => { e with wireOpen := ch.map (fun s => (s, rdI Reg.BRG_WIRE_STG 0 s d)) })
      |> hostsFollow (ch.map (fun s => (s, rdI Reg.BRG_WIRE_MAP 0 s d)))
  else cfgErr 0x15 0 0x900 Cfg.CFG_WIRE_MAP v d

/-- R324: WIRE_COMMIT opens the changed connections. -/
def execWireCommit (s : State) : Out := onEng (trigger 0x15 0 0x900 0 wireGo) s

/-- R324: 100 ns later the new connections close. -/
def execWireCommitComplete (s : State) : Out :=
  onEng (fun d =>
    if rd Reg.BRG_WIRE_BUSY 0 d = 0 then d else
    d |> forEach d.eng.wireOpen (fun x => wrI Reg.BRG_WIRE_MAP 0 x.1 x.2)
      |> updEng (fun e => { e with wireOpen := [] }) |> hostsFollow d.eng.wireOpen
      |> forEach d.eng.wireOpen (fun x => perstFollows x.1) |> wr Reg.BRG_WIRE_BUSY 0 0 |> raise Ev.WIRE_MAP_DONE 0) s

/-- An edge on a slot wire: its sampled copy, and the host wire that it passes through to (R323, R324). -/
def wireEdge (slot k : Nat) (level : Bool) (d : Dev) : Dev :=
  if 32 ≤ slot ∨ 5 ≤ k then d
  else
    let h := wireAt slot k d
    d |> slotLevel slot k level |> onlyIf (h < 16 && k != 0) (hostFollows h k)

/-- R324: an edge on a slot wire. -/
def execSlotWireEdge (slot wire : Nat) (level : Bool) (s : State) : Out := onEng (wireEdge slot wire level) s

end Sys2Proof.Machine
end

