-- ==== Sys2Proof/Machine/CollNum.lean ====
section
/-!
DEFINITION. The arithmetic of the collective units (ch. 12): floating-point formats, the operators (R371, R375), exact sums and their
rounding (R376 to R379), and elements in memory and on the wire (R366, R373, R378).
-/

namespace Sys2Proof.Machine

/-! ## Floating-point formats -/

/-- A binary interchange format: exponent bits, fraction bits. -/
structure FFmt where
  eb : Nat
  mb : Nat
deriving DecidableEq, Repr

/-- The format of a DTYPE: 4 fp16, 5 bf16, 6 fp32, 7 fp64 (R366). -/
def fmtOf (dtype : Nat) : FFmt :=
  match dtype with
  | 4 => ⟨5, 10⟩
  | 5 => ⟨8, 7⟩
  | 6 => ⟨8, 23⟩
  | _ => ⟨11, 52⟩

/-- The sign of a value. -/
def FFmt.neg (f : FFmt) (x : Nat) : Bool := x.testBit (f.eb + f.mb)

/-- The exponent field. -/
def FFmt.exp (f : FFmt) (x : Nat) : Nat := bitsOf x f.mb f.eb

/-- The fraction field. -/
def FFmt.frac (f : FFmt) (x : Nat) : Nat := bitsOf x 0 f.mb

/-- A NaN. -/
def FFmt.isNan (f : FFmt) (x : Nat) : Bool := f.exp x == 2 ^ f.eb - 1 && f.frac x != 0

/-- An infinity. -/
def FFmt.isInf (f : FFmt) (x : Nat) : Bool := f.exp x == 2 ^ f.eb - 1 && f.frac x == 0

/-- The encoding of an infinity. -/
def FFmt.inf (f : FFmt) (neg : Bool) : Nat := bnat neg * 2 ^ (f.eb + f.mb) + (2 ^ f.eb - 1) * 2 ^ f.mb

/-- The canonical quiet NaN (R371). -/
def FFmt.qnan (f : FFmt) : Nat := (2 ^ f.eb - 1) * 2 ^ f.mb + 2 ^ (f.mb - 1)

/-- A finite value as a multiple of the format's least subnormal. -/
def FFmt.toInt (f : FFmt) (x : Nat) : Int :=
  let m : Nat := if f.exp x = 0 then f.frac x else (f.frac x + 2 ^ f.mb) * 2 ^ (f.exp x - 1)
  if f.neg x then -(m : Int) else m

/-- `mag` / 2^`sh` least subnormals, rounded to nearest with ties to even and overflowing to infinity. -/
def FFmt.round (f : FFmt) (neg : Bool) (mag sh : Nat) : Nat :=
  let bits := if mag = 0 then 0 else Nat.log2 mag + 1
  let cut := max sh (bits - (f.mb + 1))
  let q := mag / 2 ^ cut
  let r := mag % 2 ^ cut
  let up := decide (2 ^ cut < 2 * r) || (decide (2 * r = 2 ^ cut) && decide (0 < cut) && q % 2 == 1)
  let enc := (cut - sh) * 2 ^ f.mb + q + bnat up
  if f.inf false ≤ enc then f.inf neg else bnat neg * 2 ^ (f.eb + f.mb) + enc

/-- The sum of two values in the format, rounded to nearest with ties to even; subnormals are kept (R375). -/
def FFmt.add (f : FFmt) (x y : Nat) : Nat :=
  if f.isNan x || f.isNan y then f.qnan
  else if f.isInf x then (if f.isInf y && f.neg x != f.neg y then f.qnan else x)
  else if f.isInf y then y
  else
    let s := f.toInt x + f.toInt y
    if s = 0 then (if f.neg x && f.neg y then 2 ^ (f.eb + f.mb) else 0)
    else f.round (decide (s < 0)) s.natAbs 0

/-- The place of a value that is no NaN in the order in which -0 lies below +0. -/
def FFmt.key (f : FFmt) (x : Nat) : Int :=
  let m : Nat := x % 2 ^ (f.eb + f.mb)
  if f.neg x then -1 - (m : Int) else m

/-! ## Elements -/

/-- A DTYPE is a floating-point type. -/
def isFp (dtype : Nat) : Bool := decide (4 ≤ dtype)

/-- Bytes of a value of a DTYPE (R366). -/
def dtypeBytes (dtype : Nat) : Nat := [4, 8, 4, 8, 2, 2, 4, 8].getD dtype 8

/-- Bytes of an element: minloc and maxloc add a uint32 index (R366). -/
def elemBytes (dtype oper : Nat) : Nat := dtypeBytes dtype + if 6 ≤ oper then 4 else 0

/-- The place of a value in the order of its type (R371). -/
def valueKey (dtype x : Nat) : Int :=
  if isFp dtype then (fmtOf dtype).key x
  else if dtype ≤ 1 then toSigned (8 * dtypeBytes dtype) x else x

/-- min and max of two values (R371). -/
def minMax (dtype : Nat) (max_ : Bool) (x y : Nat) : Nat :=
  if isFp dtype && ((fmtOf dtype).isNan x || (fmtOf dtype).isNan y) then (fmtOf dtype).qnan
  else if decide (valueKey dtype x ≤ valueKey dtype y) != max_ then x else y

/-- minloc and maxloc of two elements (R371). -/
def minMaxLoc (dtype : Nat) (max_ : Bool) (x i y j : Nat) : CElem :=
  let f := fmtOf dtype
  let nx := isFp dtype && f.isNan x
  let ny := isFp dtype && f.isNan y
  if nx && ny then .raw f.qnan (min i j)
  else if nx then .raw f.qnan i
  else if ny then .raw f.qnan j
  else if valueKey dtype x = valueKey dtype y then .raw x (min i j)
  else if decide (valueKey dtype x < valueKey dtype y) != max_ then .raw x i
  else .raw y j

/-- Limbs of the exact accumulator (R376). -/
def limbsOf (dtype : Nat) : Nat := if dtype = 7 then 34 else 5

/-- Places of an accumulator below a format's least subnormal (R376). -/
def accShift (dtype : Nat) : Nat :=
  match dtype with
  | 4 => 125
  | 5 => 16
  | _ => 0

/-- A value as it enters the exact accumulator (R376, R377). -/
def toAcc (dtype x : Nat) : CElem :=
  let f := fmtOf dtype
  if f.isNan x then .acc 0 true false false
  else if f.isInf x then .acc 0 false (!f.neg x) (f.neg x)
  else .acc (f.toInt x * 2 ^ accShift dtype) false false false

/-- An accumulator rounded once to its element's format (R379). -/
def roundAcc (dtype : Nat) (v : Int) (nan pos neg : Bool) : Nat :=
  let f := fmtOf dtype
  if nan || (pos && neg) then f.qnan
  else if pos || neg then f.inf neg
  else if v = 0 then 0
  else f.round (decide (v < 0)) v.natAbs (accShift dtype)

/-- Two's complement addition within the limbs of an accumulator. -/
def accAdd (dtype : Nat) (v w : Int) : Int := toSigned (64 * limbsOf dtype) (ofSigned (64 * limbsOf dtype) (v + w))

/-- The operator on two elements (R371, R375, R376). -/
def opElem (dtype oper : Nat) (a b : CElem) : CElem :=
  match a, b with
  | .acc v n p m, .acc w n' p' m' =>
    let nan := n || n'
    let pos := p || p'
    let neg := m || m'
    .acc (if nan || pos || neg then 0 else accAdd dtype v w) nan pos neg
  | .raw x i, .raw y j =>
    (match oper with
     | 0 => .raw (if isFp dtype then (fmtOf dtype).add x y else (x + y) % 2 ^ (8 * dtypeBytes dtype)) 0
     | 1 => .raw (minMax dtype false x y) 0
     | 2 => .raw (minMax dtype true x y) 0
     | 3 => .raw (Nat.land x y) 0
     | 4 => .raw (Nat.lor x y) 0
     | 5 => .raw (Nat.xor x y) 0
     | 6 => minMaxLoc dtype false x i y j
     | _ => minMaxLoc dtype true x i y j)
  | a, _ => a

/-- Two blocks combined; an empty block combined with x gives x (R371). -/
def combine (dtype oper : Nat) (a b : Option (List CElem)) : Option (List CElem) :=
  match a, b with
  | none, y => y
  | x, none => x
  | some x, some y => some (List.zipWith (opElem dtype oper) x y)

/-- An element as the root rounds it (R379). -/
def roundElem (dtype : Nat) (e : CElem) : CElem :=
  match e with
  | .acc v n p m => .raw (roundAcc dtype v n p m) 0
  | .raw x i => .raw x i

/-! ## Memory and wire formats -/

/-- Cuts a byte string into pieces of `k` bytes. -/
def pieces (k : Nat) : Nat → List Byte → List (List Byte)
  | 0, _ => []
  | n + 1, bs => bs.take k :: pieces k n (bs.drop k)

/-- Elements as they lie in memory, little-endian (R366). -/
def elemsOfMem (dtype oper n : Nat) (bs : List Byte) : List CElem :=
  let k := dtypeBytes dtype
  (pieces (elemBytes dtype oper) n bs).map (fun b => .raw (ofLe (b.take k)) (ofLe (b.drop k)))

/-- An element as it lies in memory. -/
def memOfElem (dtype oper : Nat) (e : CElem) : List Byte :=
  match roundElem dtype e with
  | .raw v i => leBytes (dtypeBytes dtype) v ++ leBytes (if 6 ≤ oper then 4 else 0) i
  | .acc _ _ _ _ => []

/-- The lowest non-zero limb of an accumulator that is not zero. -/
def lowLimb : Nat → Int → Nat
  | 0, _ => 0
  | n + 1, v => if v % 2 ^ 64 ≠ 0 then 0 else 1 + lowLimb n (v / 2 ^ 64)

/-- The least count of limbs whose top bit sign-extends to a value. -/
def limbCount (v : Int) : Nat :=
  match (List.range 34).find? (fun c => decide (-(2 ^ (64 * c + 63) : Int) ≤ v ∧ v < 2 ^ (64 * c + 63))) with
  | some c => c + 1
  | none => 34

/-- An accumulator in its minimal limb window (R378). -/
def winBytes (v : Int) (nan pos neg : Bool) : List Byte :=
  if nan || (pos && neg) then [0xF3, 0]
  else if pos then [0xF1, 0]
  else if neg then [0xF2, 0]
  else if v = 0 then [0, 0]
  else
    let off := lowLimb 34 v
    let w := v / 2 ^ (64 * off)
    let c := limbCount w
    leBytes 1 off ++ leBytes 1 c ++ beBytes (8 * c) (ofSigned (64 * c) w)

/-- An element on the wire: in limb-window form, or in its native size, most significant byte first (R373, R378). -/
def wireOfElem (dtype oper : Nat) (e : CElem) : List Byte :=
  match e with
  | .acc v n p m => winBytes v n p m
  | .raw v i => beBytes (dtypeBytes dtype) v ++ beBytes (if 6 ≤ oper then 4 else 0) i

/-- How a payload reads: elements, a malformed limb window, or a wrong length. -/
inductive CRead where
  | elems (l : List CElem)
  | window
  | length
deriving DecidableEq, Repr

/-- An element in front of what was read. -/
def CRead.cons (e : CElem) (r : CRead) : CRead :=
  match r with
  | .elems l => .elems (e :: l)
  | x => x

/-- Reads `n` elements in limb-window form of `lim` limbs (R378); any valid window is accepted. -/
def readWin (lim : Nat) : Nat → List Byte → CRead
  | 0, bs => if bs.isEmpty then .elems [] else .length
  | n + 1, o :: c :: rest =>
    let off := o.toNat
    let cnt := c.toNat
    if cnt = 0 then
      if off = 0 then (readWin lim n rest).cons (.acc 0 false false false)
      else if off = 0xF1 then (readWin lim n rest).cons (.acc 0 false true false)
      else if off = 0xF2 then (readWin lim n rest).cons (.acc 0 false false true)
      else if off = 0xF3 then (readWin lim n rest).cons (.acc 0 true false false)
      else .window
    else if off < lim ∧ cnt ≤ lim - off then
      if rest.length < 8 * cnt then .length
      else (readWin lim n (rest.drop (8 * cnt))).cons
        (.acc (toSigned (64 * cnt) (ofBe (rest.take (8 * cnt))) * 2 ^ (64 * off)) false false false)
    else .window
  | _ + 1, _ => .length

/-- Reads `n` elements of a payload (R373, R378). -/
def readWire (dtype oper : Nat) (exact_ : Bool) (n : Nat) (bs : List Byte) : CRead :=
  if exact_ then readWin (limbsOf dtype) n bs
  else if bs.length ≠ n * elemBytes dtype oper then .length
  else .elems ((pieces (elemBytes dtype oper) n bs).map
    (fun b => .raw (ofBe (b.take (dtypeBytes dtype))) (ofBe (b.drop (dtypeBytes dtype)))))

end Sys2Proof.Machine
end

