-- ==== Sys2Proof/Machine/CollOps.lean ====
section
/-!
DEFINITION. Shared operations of the collective units (ch. 12): groups, trees and members (R357 to R364), completion of members
(R368), blocks up and down the tree (R370, R374, R375), and faults (R383 to R387).
-/

namespace Sys2Proof.Machine

/-! ## Groups, children and members -/

/-- Changes the state of the collective units. -/
def updColl (f : Coll → Coll) (d : Dev) : Dev := { d with coll := f d.coll }

/-- The unit that serves a group or a member slot (R357, R364). -/
def unitOf (g : Nat) : Nat := g % 4

/-- A group; none while it is not valid. -/
def cgrp (g : Nat) (d : Dev) : Option CGroup := smGet (fun _ => none) d.coll.groups g

/-- Gives a group its value. -/
def putCgrp (g : Nat) (x : Option CGroup) (d : Dev) : Dev :=
  updColl (fun c => { c with groups := smSet (fun _ => none) c.groups g x }) d

/-- Changes a group. -/
def updCgrp (g : Nat) (f : CGroup → CGroup) (d : Dev) : Dev :=
  match cgrp g d with
  | some x => putCgrp g (some (f x)) d
  | none => d

/-- Changes the instance of a group. -/
def updInst (g : Nat) (f : CInst → CInst) (d : Dev) : Dev := updCgrp g (fun x => { x with inst := x.inst.map f }) d

/-- A child entry of a unit (R359). -/
def childOf (u i : Nat) (d : Dev) : List Nat := smGet (fun _ => List.replicate 4 0) d.coll.children (u * 16384 + i)

/-- A member slot (R364). -/
def memberOf (s : Nat) (d : Dev) : CMember := smGet (fun _ => CMember.init) d.coll.members s

/-- Changes a member slot. -/
def updMember (s : Nat) (f : CMember → CMember) (d : Dev) : Dev :=
  updColl (fun c => { c with members := smSet (fun _ => CMember.init) c.members s (f (memberOf s d)) }) d

/-- Changes what a member slot runs. -/
def updRun (s : Nat) (f : CRun → CRun) (d : Dev) : Dev := updMember s (fun m => { m with run := m.run.map f }) d

/-- GROUP, SLICE and RANK of a member slot (R364). -/
def CMember.group (m : CMember) : Nat := wbits m.words 0 0 12
/-- SLICE. -/
def CMember.slice (m : CMember) : Nat := wbits m.words 0 12 12
/-- RANK. -/
def CMember.rank (m : CMember) : Nat := wbits m.words 1 0 20

/-! ## Trees (R358, R359) -/

/-- Fields of a group entry (R358). -/
def CGroup.exact_ (x : CGroup) : Bool := wbits x.words 0 3 1 == 1
/-- ALT_VALID. -/
def CGroup.altValid (x : CGroup) : Bool := wbits x.words 0 5 1 == 1
/-- SCAN_EN. -/
def CGroup.scanEn (x : CGroup) : Bool := wbits x.words 0 6 1 == 1
/-- PHASE_ADV. -/
def CGroup.phaseAdv (x : CGroup) : Bool := wbits x.words 0 7 1 == 1
/-- W. -/
def CGroup.win (x : CGroup) : Nat := wbits x.words 0 8 4
/-- A in bytes. -/
def CGroup.block (x : CGroup) : Nat := 2 ^ (wbits x.words 0 12 2 + 10)
/-- SIZE + 1. -/
def CGroup.size (x : CGroup) : Nat := wbits x.words 1 0 20 + 1

/-- The first of the two words of a tree. -/
def treeWord (alt : Bool) : Nat := if alt then 6 else 4

/-- Whether the device has a parent in a tree, its port, its group index and its LID. -/
def hasParent (ws : List Nat) (alt : Bool) : Bool := wbits ws (treeWord alt) 8 1 == 1
/-- Port to the parent. -/
def parentPort (ws : List Nat) (alt : Bool) : Nat := wbits ws (treeWord alt) 0 8
/-- Group index at the parent. -/
def parentGrp (ws : List Nat) (alt : Bool) : Nat := wbits ws (treeWord alt) 9 12
/-- LID of the parent. -/
def parentLid (ws : List Nat) (alt : Bool) : Nat := wbits ws (if alt then 9 else 8) 0 20
/-- First child entry. -/
def childBase (ws : List Nat) (alt : Bool) : Nat := wbits ws (treeWord alt + 1) 0 14
/-- Children. -/
def childCount (ws : List Nat) (alt : Bool) : Nat := wbits ws (treeWord alt + 1) 14 8

/-- The child entries of a tree, in list order. -/
def childrenOf (u : Nat) (ws : List Nat) (alt : Bool) (d : Dev) : List (List Nat) :=
  (List.range (childCount ws alt)).map (fun i => childOf u (childBase ws alt + i) d)

/-- A child entry names a neighbour (KIND 0). -/
def isNeighbour (c : List Nat) : Bool := wbits c 0 14 1 == 0
/-- REF. -/
def childRef (c : List Nat) : Nat := wbits c 0 0 14

/-- An edge of a tree: port, group index and LID at the neighbour. -/
structure CEdge where
  port : Nat
  grp : Nat
  lid : Nat
deriving DecidableEq, Repr

/-- The edge of a child entry. -/
def edgeOf (c : List Nat) : CEdge := ⟨childRef c, wbits c 0 20 12, wbits c 2 0 20⟩

/-- The edge to the parent. -/
def parentEdge (ws : List Nat) (alt : Bool) : CEdge := ⟨parentPort ws alt, parentGrp ws alt, parentLid ws alt⟩

/-- Every edge of a tree: the parent's first. -/
def edgesOf (u : Nat) (ws : List Nat) (alt : Bool) (d : Dev) : List CEdge :=
  (if hasParent ws alt then [parentEdge ws alt] else []) ++ ((childrenOf u ws alt d).filter isNeighbour).map edgeOf

/-- Ports that a tree names. -/
def treePorts (u : Nat) (ws : List Nat) (alt : Bool) (d : Dev) : List Nat := (edgesOf u ws alt d).map (fun e => e.port)

/-! ## Blocks (R372, R373) -/

/-- The instance's sums are exact: the sum operator on floating-point types of a combining operation (R376, log entry 41). -/
def exactOf (x : CGroup) (cop oper dtype : Nat) : Bool := x.exact_ && oper == 0 && isFp dtype && decide (2 ≤ cop)

/-- Elements of a block (R372). -/
def blockElems (x : CGroup) (n : CInst) : Nat :=
  if n.exact_ then (if n.dtype = 7 then x.block / 272 else x.block / 40) else x.block / elemBytes n.dtype n.oper

/-- Blocks of an instance (R372). -/
def blockCount (x : CGroup) (n : CInst) : Nat :=
  if n.cop = 0 then 1 else max 1 ((n.count + blockElems x n - 1) / blockElems x n)

/-- Distance between block counters, modulo 2^24. -/
def blkSub (a b : Nat) : Nat := (a + 2 ^ 24 - b % 2 ^ 24) % 2 ^ 24

/-- Elements of block `b` of an instance. -/
def elemsAt (x : CGroup) (n : CInst) (b : Nat) : Nat :=
  if n.cop = 0 then 0 else min (blockElems x n) (n.count - blkSub b n.first * blockElems x n)

/-- The collective header (R373). -/
def collHeader (type : Nat) (e : CEdge) (p : CollPkt) : List Byte :=
  leBytes 1 (type + 16 * p.tri + 32 * bnat p.last + 64 * bnat p.err + 128 * bnat p.empty) ++ leBytes 1 (p.cop + 16 * p.oper)
    ++ leBytes 1 (p.dtype + 16 * bnat p.exact_) ++ [0] ++ beBytes 2 e.grp ++ beBytes 2 p.seq ++ beBytes 4 p.count ++ beBytes 3 p.block
    ++ leBytes 1 p.errcode

/-- Hands a collective packet to the network: on VC3, by the port that the tree names (R228, R373). Its SLID is a free value (log entry
197). -/
def collOut (type : Nat) (e : CEdge) (p : CollPkt) (d : Dev) : Dev :=
  let b := collHeader type e p ++ p.payload
  d |> takeFree |> sendBy (egCle 0) e.port 3
    (ownHdr e.lid (free 20 d) (rd Reg.RTE_COLL_TC 19 d) 2 b.length (Config.flowHash [e.lid, e.grp]).toNat false) b

/-- Sends a collective packet over an edge (R373). -/
def sendColl (type : Nat) (e : CEdge) (p : CollPkt) (d : Dev) : Dev :=
  collOut type e p <| emit .coll [e.port, e.lid, rd Reg.RTE_COLL_TC (e.port / 8) d, type, p.tri, bnat p.last, bnat p.err, bnat p.empty, p.cop, p.oper,
    p.dtype, bnat p.exact_, e.grp, p.seq, p.count, p.block, p.errcode] p.payload d

/-- The packet of a block of an instance on its way up or down; the root has rounded what goes down but for SCAN (R379). -/
def blockPkt (alt up : Bool) (n : CInst) (b : Nat) (c : CPart) : CollPkt :=
  { tri := bnat alt, last := c.last, err := c.err.isSome, empty := c.data.isNone, cop := n.cop, oper := n.oper, dtype := n.dtype
    exact_ := n.exact_ && (up || n.cop == 4)
    dgrp := 0, seq := n.seq, count := n.count, block := b, errcode := c.err.getD 0
    payload := match c.data with | some l => l.flatMap (wireOfElem n.dtype n.oper) | none => [] }

/-! ## Members (R366 to R369) -/

/-- A collective instance's members among the children of the tree in force: member slots that have joined it. -/
def joined (u : Nat) (x : CGroup) (d : Dev) : List Nat :=
  ((childrenOf u x.words x.alt d).filter (fun c => !isNeighbour c)).map childRef
    |>.filter (fun s => match (memberOf s d).run with | some r => !r.armed | none => false)

/-- The address of a member slot's descriptor. -/
def descAddr (m : CMember) (i : Nat) : Nat := wpair m.words 2 + 64 * (i % 2 ^ wbits m.words 4 0 4)

/-- Fields of a descriptor (R366). -/
def dCop (b : List Byte) : Nat := fieldLe b 0 1
/-- DTYPE. -/
def dType (b : List Byte) : Nat := fieldLe b 1 1
/-- OPER. -/
def dOper (b : List Byte) : Nat := fieldLe b 2 1
/-- COUNT. -/
def dCount (b : List Byte) : Nat := fieldLe b 4 4
/-- Bytes of COUNT elements. -/
def dBytes (b : List Byte) : Nat := dCount b * elemBytes (dType b) (dOper b)

/-- The member contributes data: the root of BCAST, and every member of REDUCE, ALLREDUCE and SCAN (R370). -/
def sends (rank : Nat) (b : List Byte) : Bool :=
  decide (2 ≤ dCop b) || (dCop b == 1 && fieldLe b 8 4 % 2 ^ 20 == rank)

/-- The member is written a result: every member of BCAST, ALLREDUCE and SCAN, the root of REDUCE (R370). -/
def receives (rank : Nat) (b : List Byte) : Bool :=
  dCop b == 1 || dCop b == 3 || dCop b == 4 || (dCop b == 2 && fieldLe b 8 4 % 2 ^ 20 == rank)

/-- A member's descriptor completes: the result, the completion word with relaxed ordering off, COLL_DONE (R368). -/
def completeMember (s status seq flags : Nat) (d : Dev) : Dev :=
  let m := memberOf s d
  match m.run with
  | none => d
  | some r =>
    let n := m.slice
    let out := r.res.flatMap (memOfElem (dType r.desc) (dOper r.desc))
    d |> updMember s (fun m => { m with run := none })
      |> onlyIf (status == 0 && receives m.rank r.desc && !out.isEmpty)
          (writeKey (fieldLe r.desc 28 4) (fieldLe r.desc 32 8) (bitOf (fieldLe r.desc 3 1) 2) ⟨6, s⟩ out)
      |> access { chan := .hostWrite, vh := slRd Reg.SLC_VH n d, pasid := slicePasid n d, addr := descAddr m r.idx + 56, ro := false
                  obj := 0, len := 8, bytes := leBytes 1 status ++ leBytes 1 (flags + 128) ++ leBytes 2 seq ++ leBytes 4 0
                  ring := true, owner := ⟨6, s⟩ }
      |> onlyIf (bitOf (fieldLe r.desc 3 1) 0) (sliceEvent n RingEv.COLL_DONE s (seq + 65536 * status))

/-- A descriptor that never joined completes; the spec gives its SEQ no value (free, log entry 42). -/
def completeAlone (s status : Nat) (d : Dev) : Dev := d |> takeFree |> completeMember s status (free 16 d) 0

/-- Starts the read of a member's contribution, or takes it from package memory (R367, R369). -/
def readContrib (s : Nat) (d : Dev) : Dev :=
  let m := memberOf s d
  match m.run with
  | none => d
  | some r =>
    let b := r.desc
    let take := fun bs : List Byte => some (some (elemsOfMem (dType b) (dOper b) (dCount b) bs))
    if !sends m.rank b then updRun s (fun r => { r with data := some none }) d
    else if dBytes b = 0 then updRun s (fun r => { r with data := take [] }) d
    else
      match placeOf (regionOf (keyIdx (fieldLe b 24 4)) d) (fieldLe b 16 8) (dBytes b) d with
      | .pkm o => updRun s (fun r => { r with data := take (memReads o (dBytes b) d) }) d
      | .host v pasid spans =>
        startRead v m.slice (keyIdx (fieldLe b 24 4)) (.contrib (unitOf s) s) (readSpans v pasid false ⟨6, s⟩ spans) d

/-! ## Failing (R387) -/

/-- A group fails at this device: FAILED, COLL_GROUP_FAILED, and its members in progress complete GROUP_FAILED. -/
def failGroup (g : Nat) (d : Dev) : Dev :=
  match cgrp g d with
  | none => d
  | some x =>
    let ms := joined (unitOf g) x d
    let seq := match x.inst with | some n => n.seq | none => x.seq
    d |> putCgrp g (some { x with state := 2, inst := none, slots := [], waiting := false, note := false, broken := [], altNext := false })
      |> raise Ev.COLL_GROUP_FAILED (unitOf g)
      |> forEach ms (fun s => completeMember s 5 seq (bnat x.alt))

/-- The instance of a group fails with MISMATCH (R373, R390). -/
def instMismatch (g : Nat) (d : Dev) : Dev :=
  match (cgrp g d).bind (fun x => x.inst) with
  | some n =>
    if n.err.isSome then d
    else d |> updInst g (fun n => { n with err := some 4 }) |> bump Reg.CLE_MISMATCH_CNT (unitOf g) |> raise Ev.COLL_MISMATCH (unitOf g)
  | none => d

/-! ## Down the tree (R370, R374, R379, R386) -/

/-- The slot that holds a block, or an empty one. -/
def slotOf (x : CGroup) (b : Nat) (n : CInst) : CSlot := (x.slots.find? (fun s => s.blk == b)).getD ⟨b, n, [], none⟩

/-- Puts a slot among those a group holds. -/
def CGroup.putSlot (x : CGroup) (s : CSlot) : CGroup :=
  { x with slots := x.slots.filter (fun y => y.blk != s.blk) ++ [s] }

/-- What a part brings to a fold: nothing where it failed. -/
def partData (p : Option CPart) : Option (List CElem) := p.bind (fun c => if c.err.isSome then none else c.data)

/-- What goes down to the child at a position: for SCAN the prefix before it, else the result (R370). -/
def downFor (n : CInst) (s : CSlot) (c : CPart) (pos : Nat) : CPart :=
  if n.cop = 4 ∧ c.err.isNone then
    { c with data := (s.parts.take pos).foldl (fun a p => combine n.dtype n.oper a (partData p)) c.data }
  else c

/-- The result of a block reaches a member: its own contribution added and rounded under SCAN (R370, R379). -/
def landBlock (x : CGroup) (n : CInst) (s : CSlot) (c : CPart) (pos slot : Nat) (d : Dev) : Dev :=
  let got := (downFor n s c pos).data
  let all := if n.cop = 4 then combine n.dtype n.oper got (partData ((s.parts[pos]?).getD none)) else got
  match (memberOf slot d).run with
  | some r =>
    if r.armed then d
    else updRun slot (fun r => { r with res := r.res ++ ((all.getD []).take (blockElems x n)).map (roundElem n.dtype) }) d
  | none => d

/-- An instance ends at this device: its members complete and the group is IDLE (R368, R386). -/
def endInst (g : Nat) (d : Dev) : Dev :=
  match cgrp g d with
  | none => d
  | some x =>
    match x.inst with
    | none => d
    | some n =>
      let ms := joined (unitOf g) x d
      d |> putCgrp g (some { x with inst := none, state := 0, alt := x.alt || x.altNext, altNext := false
                                    slots := x.slots.filter (fun y => y.down.isSome) })
        |> bump Reg.CLE_OPS_DONE (unitOf g)
        |> forEach ms (fun s => completeMember s (n.err.getD 0) n.seq (bnat x.alt + 2 * bnat n.redel))

/-- The DOWN of the group's next block passes this device: to its children, to its members, and the window opens (R370, R374, R382). -/
def passDown (g : Nat) (c : CPart) (redel : Bool) (d : Dev) : Dev :=
  match cgrp g d with
  | none => d
  | some x =>
    match x.inst with
    | none => d
    | some n0 =>
      let n := { n0 with err := if n0.err.isSome then n0.err else c.err, redel := n0.redel || redel }
      let s := slotOf x x.blk n
      let kids := (childrenOf (unitOf g) x.words x.alt d).zipIdx
      let next := (x.blk + 1) % 2 ^ 24
      let x1 := { x.putSlot { s with down := some c } with blk := next, inst := some n }
      let x2 := { x1 with slots := x1.slots.filter (fun y => !(y.down.isSome && decide (2 * x.win < blkSub next y.blk))) }
      d |> putCgrp g (some x2)
        |> forEach kids (fun k d =>
            if isNeighbour k.1 then sendColl 1 (edgeOf k.1) (blockPkt x.alt false n x.blk (downFor n s c k.2)) d
            else landBlock x n s c k.2 (childRef k.1) d)
        |> onlyIf (n.cop == 0 && x.phaseAdv) (addMod Reg.TIM_PHASE 0 0 1)
        |> onlyIf c.last (endInst g)

/-! ## Up the tree (R370, R374, R375) -/

/-- The part of a child for a block, once it is there: a neighbour's packet, or a member's contribution. -/
def partAt (x : CGroup) (n : CInst) (b : Nat) (kids : List (List Nat)) (pos : Nat) (d : Dev) : Option CPart :=
  match kids[pos]? with
  | none => none
  | some c =>
    if isNeighbour c then
      match ((slotOf x b n).parts[pos]?).getD none with
      | some p => some p
      | none => (n.ended.find? (fun e => e.1 == pos)).map (fun e => ⟨e.2, true, none⟩)
    else if n.lost.contains (childRef c) then some ⟨some 6, true, none⟩
    else
      match (memberOf (childRef c) d).run with
      | some r =>
        if r.armed then none
        else r.data.map (fun l => ⟨none, true, l.map (fun l =>
          ((l.drop (blkSub b n.first * blockElems x n)).take (blockElems x n)).map (fun e =>
            match e with
            | .raw v _ => if n.exact_ then toAcc n.dtype v else e
            | e => e))⟩)
      | none => none

/-- The next block of a group that can leave: every child's part is there and the window is open (R370, R374, R375, R379). -/
def readyBlock (g : Nat) (d : Dev) : Option UpBlock :=
  match cgrp g d with
  | none => none
  | some x =>
    match x.inst with
    | none => none
    | some n =>
      let total := blockCount x n
      let done := blkSub n.up n.first
      let kids := childrenOf (unitOf g) x.words x.alt d
      let parts := (List.range kids.length).map (fun i => partAt x n n.up kids i d)
      if total ≤ done ∨ x.win ≤ blkSub n.up x.blk ∨ !parts.all (fun p => p.isSome) then none
      else
        let bad := parts.findSome? (fun p => p.bind (fun c => c.err))
        let err := if n.err.isSome then n.err else bad
        let data := if err.isSome then none else parts.foldl (fun a p => combine n.dtype n.oper a (partData p)) none
        let root := !hasParent x.words x.alt
        let lone := data.isNone && err.isNone && n.cop == 1
        if root ∧ lone then none
        else
          let last := decide (done + 1 = total) || lone
          let s := { slotOf x n.up n with parts := parts }
          let n1 := { n with err := err, up := if lone then (n.first + total) % 2 ^ 24 else (n.up + 1) % 2 ^ 24 }
          some ⟨root, { x.putSlot s with inst := some n1 }, n1, n.up, ⟨err, last, data⟩⟩

/-- What the root sends down: the rounded result, and none for a scan, whose members get their own prefixes (R374). -/
def UpBlock.decided (u : UpBlock) : CPart :=
  { u.part with data := if u.inst.cop = 4 then none else u.part.data.map (fun l => l.map (roundElem u.inst.dtype)) }

/-- A block leaves: down the tree from the root, else up to the parent (R370, R374). -/
def sendUp (g : Nat) (u : UpBlock) (d : Dev) : Dev :=
  d |> putCgrp g (some u.grp) |> bump Reg.CLE_BLOCKS (unitOf g)
    |> (if u.root then passDown g u.decided false
        else sendColl 0 (parentEdge u.grp.words u.grp.alt) (blockPkt u.grp.alt true u.inst u.blk u.part))

/-- Combines the next block of a group, where one can leave. -/
def combineNext (g : Nat) (d : Dev) : Option Dev :=
  match readyBlock g d with
  | none => none
  | some u => some (sendUp g u d)

/-- Combines blocks as far as they are there. -/
def advance (g : Nat) : Nat → Dev → Dev
  | 0, d => d
  | f + 1, d => match combineNext g d with | some d1 => advance g f d1 | none => d

/-- Combines blocks of a group, at most as many as its window holds. -/
def runGroup (g : Nat) (d : Dev) : Dev :=
  match cgrp g d with
  | some x => advance g (match x.inst with | some n => blockCount x n | none => 0) d
  | none => d

/-! ## Faults (R383 to R386) -/

/-- A packet without payload of a group: FAULT, ABORT or GO_ON. -/
def notePkt (x : CGroup) (seq tri : Nat) : CollPkt :=
  { tri := tri, last := false, err := false, empty := true, cop := 0, oper := 0, dtype := 0, exact_ := false, dgrp := 0, seq := seq
    count := 0, block := x.blk, errcode := 0, payload := [] }

/-- Sends a FAULT, ABORT or GO_ON on every alternate edge except the one it came by, once per SEQ and TRY (R383). -/
def spread (type g seq tri : Nat) (from_ : Option Nat) (d : Dev) : Dev :=
  match cgrp g d with
  | none => d
  | some x =>
    if x.seen.contains (type, seq, tri) then d
    else
      d |> putCgrp g (some { x with seen := (x.seen ++ [(type, seq, tri)]) })
        |> forEach ((edgesOf (unitOf g) x.words true d).filter (fun e => some e.port != from_))
            (fun e => sendColl type e (notePkt x seq tri))

/-- A device takes ABORT: the instance is discarded and its members send again on the alternate tree (R385). -/
def takeAbort (g seq : Nat) (d : Dev) : Dev :=
  match cgrp g d with
  | none => d
  | some x =>
    if x.alt ∨ x.state = 2 then d
    else
      match x.inst with
      | none => if x.seq = seq then putCgrp g (some { x with alt := true, waiting := false, note := false, broken := [] }) d else d
      | some n =>
        if n.seq ≠ seq then d
        else
          let x1 := { x with alt := true, waiting := false, note := false, broken := [], blk := n.first, slots := []
                             inst := some { n with up := n.first, err := none, ended := [], redel := false } }
          let d1 := d |> putCgrp g (some x1) |> raise Ev.COLL_ABORTED (unitOf g)
          d1 |> forEach (joined (unitOf g) x1 d1) (fun s d =>
                match (memberOf s d).run with
                | some r => if r.data.isSome then
                      d |> updRun s (fun r => { r with data := none, res := [] }) |> readContrib s
                    else d
                | none => d)
             |> runGroup g

/-- The DOWN blocks of an instance that a device still holds go to the lower end of a failed edge (R386). -/
def redeliver (g seq : Nat) (pos : Nat) (child : List Nat) (d : Dev) : Dev :=
  match cgrp g d with
  | none => d
  | some x =>
    let held := x.slots.filter (fun s => s.inst.seq == seq && s.down.isSome && decide (1 ≤ blkSub x.blk s.blk ∧ blkSub x.blk s.blk ≤ 2 * x.win))
    forEach held (fun s d =>
      match s.down with
      | none => d
      | some c =>
        d |> bump Reg.CLE_REDELIVERS (unitOf g)
          |> forEach (edgesOf (unitOf g) x.words true d) (fun e =>
              sendColl 5 e { blockPkt false false s.inst s.blk (downFor s.inst s c pos) with count := wbits child 2 0 20 })) d

/-- A device takes GO_ON: upper ends of failed edges redeliver, and TREE is 1 from the next instance on (R386). -/
def takeGoOn (g seq : Nat) (d : Dev) : Dev :=
  match cgrp g d with
  | none => d
  | some x =>
    if x.alt ∨ x.state = 2 then d
    else
      let kids := ((childrenOf (unitOf g) x.words false d).zipIdx).filter (fun k => isNeighbour k.1 && x.broken.contains (childRef k.1))
      d |> forEach kids (fun k => redeliver g seq k.2 k.1)
        |> updCgrp g (fun y => { y with waiting := false, note := false, broken := [], alt := y.inst.isNone, altNext := y.inst.isSome })

/-- The root of the tree in force decides once per SEQ (R384). -/
def decideFault (g seq : Nat) (d : Dev) : Dev :=
  match cgrp g d with
  | none => d
  | some x =>
    if x.alt ∨ hasParent x.words false ∨ x.state = 2 ∨ x.seen.contains (3, seq, 1) ∨ x.seen.contains (4, seq, 0) then d
    else
      let current := match x.inst with | some n => n.seq | none => x.seq
      if seq = current then
        d |> bump Reg.CLE_ABORTS (unitOf g) |> spread 3 g seq 1 none |> takeAbort g seq
      else if (seq + 1) % 65536 = current then d |> spread 4 g seq 0 none |> takeGoOn g seq
      else d

/-- An end of a failed link of the tree in force tells the alternate tree (R383). -/
def originate (g seq : Nat) (d : Dev) : Dev :=
  d |> spread 2 g seq 0 none |> updCgrp g (fun x => { x with waiting := true, note := false }) |> decideFault g seq

/-- A port of a tree in force is declared down (R383, R387). -/
def portFault (p g : Nat) (d : Dev) : Dev :=
  match cgrp g d with
  | none => d
  | some x =>
    if !(treePorts (unitOf g) x.words x.alt d).contains p then d
    else
      let d1 := raise Ev.COLL_FAULT (unitOf g) d
      if x.state = 2 then d1
      else if !x.altValid ∨ x.alt then failGroup g d1
      else
        let d2 := updCgrp g (fun x => { x with broken := if hasParent x.words false && parentPort x.words false == p then x.broken
                                                         else x.broken ++ [p] }) d1
        match x.inst with
        | some n => originate g n.seq d2
        | none => if hasParent x.words false then updCgrp g (fun x => { x with note := true }) d2
                  else originate g x.seq d2

/-- The effect of a port declared down on every valid group (R383). -/
def collPortDown (p : Nat) (d : Dev) : Dev := forEach (d.coll.groups.map (fun e => e.1)) (portFault p) d

/-! ## Joining an instance (R370, R373) -/

/-- The group's instance begins where it has none (R358, R383). -/
def beginInst (g cop oper dtype count : Nat) (d : Dev) : Dev :=
  match cgrp g d with
  | none => d
  | some x =>
    if x.inst.isSome ∨ x.state = 2 then d
    else
      let n : CInst := { seq := x.seq, cop := cop, oper := oper, dtype := dtype, exact_ := exactOf x cop oper dtype, count := count
                         first := x.blk, up := x.blk, err := none, ended := [], lost := [], redel := false }
      d |> putCgrp g (some { x with inst := some n, state := 1, seq := (x.seq + 1) % 65536 })
        |> onlyIf x.note (originate g x.seq)

/-- What arrives agrees with the instance in COP, OPER, DTYPE, COUNT and EXACT (R373). -/
def agrees (n : CInst) (cop oper dtype count : Nat) (exact_ : Bool) : Bool :=
  n.cop == cop && n.oper == oper && n.dtype == dtype && n.count == count && n.exact_ == exact_

/-- A member's descriptor is released and joins its group's instance; a FAILED group takes no launch (R367, R381, R387). -/
def release (s : Nat) (d : Dev) : Dev :=
  let m := memberOf s d
  let g := m.group
  match m.run, cgrp g d with
  | some r, some x =>
    if x.state = 2 then completeAlone s 5 d
    else
      let b := r.desc
      let d1 := beginInst g (dCop b) (dOper b) (dType b) (dCount b) d
      match (cgrp g d1).bind (fun x => x.inst) with
      | some n =>
        d1 |> updRun s (fun r => { r with armed := false, seq := n.seq })
          |> onlyIf (!agrees n (dCop b) (dOper b) (dType b) (dCount b) (exactOf x (dCop b) (dOper b) (dType b))) (instMismatch g)
          |> readContrib s |> runGroup g
      | none => d1
  | _, _ => d

/-- A horizon entry releases the armed descriptor at the head of a slot, or finds none (R381). -/
def collRelease (u s : Nat) (d : Dev) : Dev :=
  match (memberOf s d).run with
  | some r => if r.armed ∧ unitOf s = u then release s d
              else d |> bump Reg.CLE_HZN_EMPTY u |> raise Ev.COLL_HZN_EMPTY u
  | none => d |> bump Reg.CLE_HZN_EMPTY u |> raise Ev.COLL_HZN_EMPTY u

/-! ## Members that end early (R389) -/

/-- Host reads of a member's contribution are given up: their tags go into quarantine (R389, R435). -/
def dropContrib (s : Nat) (d : Dev) : Dev :=
  let mine := fun r : HostRead => match r.use with | .contrib _ x => x == s | _ => false
  let gone := d.eng.reads.filter mine
  updEng (fun e => { e with reads := e.reads.filter (fun r => !mine r)
                            quar := e.quar ++ (gone.filter (fun r => r.waits.isEmpty)).map (fun r => (r.vh, r.tag, 8)) }) d

/-- A member ends its descriptor with a failure of its own; the instance's remaining blocks go up MEMBER_LOST (R389). -/
def loseMember (s status : Nat) (d : Dev) : Dev :=
  let m := memberOf s d
  match m.run with
  | none => d
  | some r =>
    let alt := match cgrp m.group d with | some x => x.alt | none => false
    if r.armed then d |> dropContrib s |> completeAlone s status
    else
      d |> dropContrib s |> completeMember s status r.seq (bnat alt)
        |> updInst m.group (fun n => { n with lost := n.lost ++ [s] })
        |> runGroup m.group

/-- The member slots bound to a slice. -/
def slotsOfSlice (n : Nat) (d : Dev) : List Nat :=
  (d.coll.members.filter (fun e => e.2.bound && e.2.slice == n)).map (fun e => e.1)

/-- The members of a slice end with a status; a forced reset unbinds its slots (R389). -/
def endMembers (n status : Nat) (unbind : Bool) (d : Dev) : Dev :=
  forEach (slotsOfSlice n d) (fun s d =>
    d |> loseMember s status |> updMember s (fun m => { m with ring := [] })
      |> onlyIf unbind (updMember s (fun _ => CMember.init))) d

/-- Collective instances of a slice in progress (R440, R448). -/
def collActive (n : Nat) (d : Dev) : Nat :=
  (d.coll.members.filter (fun e => e.2.bound && e.2.slice == n && e.2.run.isSome)).length

/-- Some group of a unit is ACTIVE: its domain may not be entered (R388). -/
def groupsBusy (u : Nat) (d : Dev) : Bool :=
  d.coll.groups.any (fun e => unitOf e.1 == u && (match e.2 with | some x => x.state == 1 | none => false))

/-- The contribution of a member has been read, or could not be (R369, R389). -/
def contribDone (s : Nat) (data : Option (List Byte)) (d : Dev) : Dev :=
  let m := memberOf s d
  match m.run, data with
  | some r, some bs =>
    d |> updRun s (fun x => { x with data := some (some (elemsOfMem (dType r.desc) (dOper r.desc) (dCount r.desc) bs)) })
      |> runGroup m.group
  | some _, none => loseMember s 3 d
  | none, _ => d

/-- An instance ends for the neighbours on its tree: its next blocks up and down go out as its last, with ERR and a status (R373, R390, log entry
207). -/
def tellErr (g status : Nat) (d : Dev) : Dev :=
  match cgrp g d with
  | none => d
  | some x =>
    match x.inst with
    | none => d
    | some n =>
      let c : CPart := ⟨some status, true, none⟩
      d |> onlyIf (hasParent x.words x.alt && blkSub n.up n.first < blockCount x n)
            (sendColl 0 (parentEdge x.words x.alt) (blockPkt x.alt true n n.up c))
        |> forEach ((childrenOf (unitOf g) x.words x.alt d).filter isNeighbour)
            (fun k => sendColl 1 (edgeOf k) (blockPkt x.alt false n x.blk c))

/-- An uncorrectable error in a group's accumulator lines: the instance fails with ERR GROUP_FAILED, and the group enters FAILED (R390). -/
def collEcc (g : Nat) (d : Dev) : Dev :=
  d |> bump Reg.LOG_SRAM_UNCORR 0 |> raise Ev.COLL_ECC_UNCORR (unitOf g) |> tellErr g 5 |> failGroup g

end Sys2Proof.Machine
end

