-- ==== Sys2Proof/Machine/Match.lean ====
section
/-!
DEFINITION. Meanings of the commands on message matching (ch. 11).
-/

namespace Sys2Proof.Machine

/-! ## Contexts (R335, R349, R351, R353) -/

/-- A context entry (R335). -/
def ctxBytes (k i : Nat) (c : MCtx) (d : Dev) : List Byte :=
  leBytes 4 c.ctxid ++ leBytes 2 (c.slice + 2 ^ 14 * bnat c.failed + 2 ^ 15) ++ leBytes 2 0 ++ leBytes 4 c.rcqn
    ++ leBytes 4 c.uxMax ++ leBytes 3 c.postStamp ++ leBytes 3 c.arrStamp ++ leBytes 2 0
    ++ leBytes 4 ((uxList (quad k d)).filter (fun u => u.ctx == i)).length
    ++ leBytes 4 ((quad k d).posted.filter (fun p => p.ctx == i)).length

/-- A message that is being received for a context is discarded from here on (R353). -/
def dropInbound (k i status : Nat) (ids : List Nat) (d : Dev) : Dev :=
  forEach d.eng.qps (fun e d =>
    match e.2 with
    | none => d
    | some q =>
      forEach q.conns (fun x d =>
        match x.2 with
        | none => d
        | some c =>
          let n := c.inn
          if n.quad = k ∧ n.kind = 3 ∧ n.ux = i then
            d |> matchCqe k i e.1 n.entry.wrId 0 n.rank 11 status 0 n.tag |> setInn e.1 x.1 { n with kind := 5 }
          else if n.quad = k ∧ n.kind = 4 ∧ ids.contains n.ux then setInn e.1 x.1 { n with kind := 5 } d
          else d) d) d

/-- The lists of a context are emptied: posted receives and rendezvous in progress complete with a status, unexpected entries are
discarded, rendezvous ones with their finish (R335, R349, R351). -/
def emptyCtx (k i status : Nat) (d : Dev) : Dev :=
  let q := quad k d
  let before := poolFree k d
  let ps := q.posted.filter (fun p => p.ctx == i)
  let us := q.unexp.filter (fun u => u.ctx == i)
  let rs := q.rndvs.filter (fun r => r.post.ctx == i)
  let gone := us.filter (fun u => u.taken.isNone)
  d |> forEach ps (fun p => matchCqe k i 0 p.wrId 0 p.rank 11 status 0 p.tag)
    |> forEach us (fun u d => match u.taken with
        | some p => matchCqe k i u.qpn p.wrId 0 u.rank 11 status 16 u.tag d
        | none => onlyIf u.rndv (addFinish u.qpn u.rid true) d)
    |> forEach rs (fun r => matchCqe k i r.qpn r.post.wrId 0 r.rank 11 status (mflags r.sol false true r.fromUx) r.tag)
    |> dropInbound k i status (us.map (fun u => u.id))
    |> updQuad k (fun q => { q with posted := q.posted.filter (fun p => p.ctx != i), unexp := q.unexp.filter (fun u => u.ctx != i),
                                    rndvs := q.rndvs.filter (fun r => r.post.ctx != i) })
    |> countQuad k before
    |> onlyIf (!gone.isEmpty) (fun d => match ctxOf k i d with
        | some c => sliceEvent c.slice RingEv.MATCH_DISCARD (i + 4096 * k) gone.length d
        | none => d)

/-- The operations that wait for a context end: posts with a status, arrivals by R336 (R353). -/
def endWaits (k i status : Nat) (d : Dev) : Dev :=
  let mine := fun w : MWait => match w with | .arrival c _ => c == i | .post c _ _ => c == i
  let ws := (quad k d).waits.filter mine
  d |> updQuad k (fun q => { q with waits := q.waits.filter (fun w => !mine w) })
    |> forEach ws (fun w d => match w with
        | .post _ _ e => matchCqe k i 0 (fieldLe e 48 8) 0 0 (if fieldLe e 0 1 = 1 then 12 else 11) status 0 0 d
        | .arrival _ _ => d)

/-- The queue pairs whose arrivals wait for a context. -/
def waitingQps (k i : Nat) (d : Dev) : List Nat :=
  (quad k d).waits.filterMap (fun w => match w with | .arrival c n => if c = i then some n else none | .post _ _ _ => none)

/-- An arrival that waited runs again. -/
def rerun (n : Nat) (d : Dev) : Dev :=
  match qpOf n d with
  | some q =>
    (match q.busy with
     | some (.matching _ p) =>
       d |> updQp n (fun q => { q with busy := none, held := [] }) |> runQueue n ((p :: q.held).map (fun x => (x, 0)))
     | _ => d)
  | none => d

/-- A context is destroyed: its lists emptied with a status, its entry freed (R335, R353). -/
def destroyCtx (k i status : Nat) (d : Dev) : Dev :=
  let ns := waitingQps k i d
  d |> endWaits k i 0x0F |> emptyCtx k i status |> putCtx k i none |> (fun d => countQuad k (poolFree k d) d) |> forEach ns rerun

/-- A context becomes FAILED (R351). The status of posts that wait for it is not stated, a free value (log entry 40). -/
def failCtx (k i : Nat) (d : Dev) : Dev :=
  match ctxOf k i d with
  | none => d
  | some c =>
    let ns := waitingQps k i d
    d |> putCtx k i (some { c with failed := true }) |> takeFree |> endWaits k i (free 8 d) |> emptyCtx k i 9
      |> raise Ev.MATCH_ECC_UNCORR k |> forEach ns rerun

/-- Match contexts of a slice. -/
def sliceCtxs (n : Nat) (d : Dev) : Nat :=
  (d.eng.quads.map (fun kq => (kq.2.ctxs.filter (fun e => match e.2 with | some c => c.slice == n | none => false)).length)).sum

/-- The context entries of a quadrant that are free. -/
def freeCtxs (k : Nat) (d : Dev) : List Nat := (List.range 4096).filter (fun i => (ctxOf k i d).isNone)

/-- The free entry that CTX_CREATE takes: R335 says that there is one and not which, a free value (log entry 20). -/
def pickCtx (k : Nat) (d : Dev) : Nat := (freeCtxs k d).getD (free 12 d % (freeCtxs k d).length) 0

/-- An MTE command (R335): CMD_STATUS, CMD_IDX, the data it returns, and the state. -/
def mteRun (k op idx : Nat) (b : List Byte) (own : Option Nat) (d : Dev) : Nat × Nat × List Byte × Dev :=
  let mine := fun c : MCtx => match own with | some s => c.slice == s | none => true
  let err := fun st : Nat => (st, idx, ([] : List Byte), d)
  match op with
  | 0 => (match ctxOf k idx d with
      | some c => if mine c then (0, idx, ctxBytes k idx c d, d) else err 2
      | none => err 1)
  | 1 =>
    let c : MCtx := { ctxid := fieldLe b 0 4, slice := fieldLe b 4 2 % 4096, failed := false, rcqn := fieldLe b 8 4 % 2 ^ 24,
                      uxMax := fieldLe b 12 4 % 2 ^ 24, postStamp := 0, arrStamp := 0 }
    if !mine c then err 2
    else if quadOf c.slice c.ctxid ≠ k ∨ !ownsNum c.slice c.rcqn d then err 3
    else if (findCtx k c.slice c.ctxid d).isSome then err 5
    else if slRd Reg.SLC_MAX_CTX c.slice d ≤ sliceCtxs c.slice d ∨ freeCtxs k d = [] then err 4
    else (0, pickCtx k d, [], let d1 := d |> takeFree |> putCtx k (pickCtx k d) (some c); countQuad k (poolFree k d1) d1)
  | 2 => (match ctxOf k idx d with
      | some c => if mine c then (0, idx, [], destroyCtx k idx 0x0E d) else err 2
      | none => err 1)
  | _ => err 3

/-- CMD_GO of an MTE page (R335, R354). -/
def mteGo (k : Nat) (d : Dev) : Dev :=
  let (st, i, b, d1) := mteRun k (rd Reg.MTE_CMD_OP k d) (rd Reg.MTE_CMD_IDX k d) (regBytes Reg.MTE_CMD_DATA k 8 d) none d
  d1 |> putRegBytes Reg.MTE_CMD_DATA k b |> wr Reg.MTE_CMD_IDX k i |> wr Reg.MTE_CMD_STATUS k st |> raise Ev.MATCH_CMD_DONE k

/-- A write of CMD_GO while CMD_OP names the command. -/
def mteCmd (k op : Nat) (d : Dev) : Dev :=
  onlyIf (rd Reg.MTE_CMD_OP k d == op) (trigger 0x17 k 0x138 0 (fun _ => mteGo k)) d

/-- R335: CTX_QUERY returns a context entry. -/
def execCtxQuery (mte : Nat) (s : State) : Out := onEng (mteCmd mte 0) s

/-- R335: CTX_CREATE makes a context valid. -/
def execCtxCreate (mte : Nat) (s : State) : Out := onEng (mteCmd mte 1) s

/-- R335: CTX_DESTROY cancels, discards and frees. -/
def execCtxDestroy (mte : Nat) (s : State) : Out := onEng (mteCmd mte 2) s

/-! ## The match post ring (R341, R342) -/

/-- Serves a match doorbell. -/
def serveMatch (n index : Nat) (entries : List (List Byte)) (d : Dev) : Dev :=
  updSlice n (fun s => { s with mprPi := index, mpr := s.mpr ++ entries }) d

/-- R341: a match doorbell sets the producer index of the match post ring. -/
def execMatchDoorbell (vh slice : Nat) (wide : Bool) (index : Nat) (entries : List (List Byte)) (s : State) : Out :=
  onEng (fun d =>
    if !wide ∧ slRd Reg.SLC_VH slice d = vh ∧ slState slice d ≠ slFree then bump Reg.TPE_DB_BAD (slice % 8) d
    else bell vh slice (6 * 2 ^ 24) index (ringPlace slice (6 * 2 ^ 24) d) entries (serveMatch slice index) d) s

/-- The oldest entry of a slice's match post ring that its engine may take. -/
def nextPost (n : Nat) (d : Dev) : Option (List Byte) :=
  if slRd Reg.SLC_MPR_EN n d = 1 ∧ (slState n d = slActive ∨ slState n d = slQuiescing) then (sliceOf n d).mpr.head? else none

/-- An entry leaves the ring. -/
def popPost (n : Nat) (d : Dev) : Dev :=
  d |> updSlice n (fun s => { s with mpr := s.mpr.tail })
    |> slWr Reg.SLC_MPR_CI n ((slRd Reg.SLC_MPR_CI n d + 1) % 65536)

/-- A completion of a post entry: to the context's CQ, or where it has none to a CQ the spec does not state, a free value (log entry
40). -/
def postCqe (k : Nat) (ctx : Option Nat) (e : List Byte) (cop status : Nat) (d : Dev) : Dev :=
  match ctx with
  | some i => matchCqe k i 0 (fieldLe e 48 8) 0 (fieldLe e 8 4) cop status 0 (fieldLe e 16 8) d
  | none => d |> takeFree |> cqe (free 24 d) 0 ⟨fieldLe e 48 8, 0, fieldLe e 8 4, 0, cop, status, 0, fieldLe e 16 8⟩

/-- A POST is matched against the unexpected list, or entered (R342, R346, R349, R351). -/
def decidePost (k i n : Nat) (c : MCtx) (e : List Byte) (d : Dev) : Dev :=
  let p : Posted := { ctx := i, rank := fieldLe e 8 4, tag := fieldLe e 16 8, ign := fieldLe e 24 8, stamp := c.postStamp,
                      addr := fieldLe e 32 8, lkey := fieldLe e 12 4, len := fieldLe e 40 4, wrId := fieldLe e 48 8 }
  let r := searchUx (quad k d) i p.rank p.tag p.ign
  let before := poolFree k d
  let d1 := d |> countSearch k r |> putCtx k i (some { c with postStamp := psnAdd c.postStamp 1 })
  match r.found.bind (fun x => (uxList (quad k d))[x]?) with
  | some u =>
    if u.arriving then
      updQuad k (fun q => { q with unexp := q.unexp.map (fun x => if x.id = u.id then { x with taken := some p } else x) }) d1
        |> countQuad k before
    else
      let d2 := d1 |> updQuad k (fun q => { q with unexp := q.unexp.filter (fun x => x.id != u.id), uxFull := false }) |> countQuad k before
      if u.rndv then startRndv k u.qpn p u.rank u.tag u.mlen u.vaddr u.rkey u.rid u.sol true d2
      else if !lkeyOk n p.lkey p.addr p.len true d2 then matchCqe k i u.qpn p.wrId 0 u.rank 11 2 (mflags u.sol false false true) u.tag d2
      else
        d2 |> onlyIf (!(u.data.take p.len).isEmpty) (writeKey p.lkey p.addr false ⟨5, n⟩ (u.data.take p.len))
          |> completeRecv k u.qpn p u.rank u.tag u.mlen u.sol false true
  | none =>
    if listRoom ≤ (quad k d).posted.length then
      d1 |> onlyIf (!(quad k d).prqFull) (fun d => d |> updQuad k (fun q => { q with prqFull := true }) |> raise Ev.MATCH_PRQ_FULL k)
        |> postCqe k (some i) e 11 0x0D
    else d1 |> updQuad k (fun q => { q with posted := q.posted ++ [p] }) |> countQuad k before

/-- A PROBE reports the unexpected entry that a POST would take, and is no match itself (R342). -/
def decideProbe (k i : Nat) (e : List Byte) (d : Dev) : Dev :=
  let r := searchUx (quad k d) i (fieldLe e 8 4) (fieldLe e 16 8) (fieldLe e 24 8)
  match r.found.bind (fun x => (uxList (quad k d))[x]?) with
  | some u => d |> countSearch k { r with found := none } |> matchCqe k i u.qpn (fieldLe e 48 8) u.mlen u.rank 12 0 (mflags false false u.rndv false) u.tag
  | none => d |> countSearch k r |> postCqe k (some i) e 12 0x0F

/-- A CANCEL removes the oldest posted receive with its WR_ID (R342). The COP of one that finds none is not stated, a free value (log
entry 40). -/
def decideCancel (k i : Nat) (e : List Byte) (d : Dev) : Dev :=
  match (quad k d).posted.find? (fun p => p.ctx == i && p.wrId == fieldLe e 48 8) with
  | some p =>
    d |> updQuad k (fun q => { q with posted := q.posted.erase p, prqFull := false }) |> (fun x => countQuad k (poolFree k d) x)
      |> matchCqe k i 0 p.wrId 0 p.rank 11 0x0E 0 p.tag
  | none => d |> takeFree |> postCqe k (some i) e (free 8 d) 0x0F

/-- Resolves an entry of the post ring by its MOP. -/
def decideEntry (k i n : Nat) (c : MCtx) (e : List Byte) (d : Dev) : Dev :=
  match fieldLe e 0 1 with
  | 0 => decidePost k i n c e d
  | 1 => decideProbe k i e d
  | _ => decideCancel k i e d

/-- An entry's search must read overflow (R347). -/
def entryOverflow (k i : Nat) (e : List Byte) (d : Dev) : Bool :=
  if fieldLe e 0 1 ≤ 1 then (searchUx (quad k d) i (fieldLe e 8 4) (fieldLe e 16 8) (fieldLe e 24 8)).overflow
  else (quad k d).posted.length > onDie && !((quad k d).posted.take onDie).any (fun p => p.ctx == i && p.wrId == fieldLe e 48 8)

/-- The quadrant takes an entry of a slice's ring (R341, R342, R348). -/
def takeEntry (n : Nat) (e : List Byte) (d : Dev) : Dev :=
  let mop := fieldLe e 0 1
  let k := quadOf n (fieldLe e 4 4)
  let ctx := findCtx k n (fieldLe e 4 4) d
  let cop := if mop = 1 then 12 else 11
  if 3 ≤ mop then d |> popPost n |> postCqe k ctx e cop 1
  else
    match ctx.bind (fun i => (ctxOf k i d).map (fun c => (i, c))) with
    | none => d |> popPost n |> postCqe k none e cop 0x0F
    | some (i, c) =>
      if c.failed then d |> popPost n |> takeFree |> postCqe k (some i) e cop (free 8 d)
      else if mop = 0 ∧ !lkeyOk n (fieldLe e 12 4) (fieldLe e 32 8) (fieldLe e 40 4) true d then
        d |> popPost n |> postCqe k (some i) e 11 2
      else if ctxWaits k i d ∨ entryOverflow k i e d then
        (if 32 ≤ (quad k d).waits.length then d
         else d |> popPost n |> updQuad k (fun q => { q with waits := q.waits ++ [.post i n e] }))
      else d |> popPost n |> decideEntry k i n c e

/-- R342: a POST entry is taken; an entry of an undefined MOP completes LOC_LEN. -/
def execMatchPost (slice : Nat) (s : State) : Out :=
  onEng (fun d => match nextPost slice d with
    | some e => onlyIf (fieldLe e 0 1 == 0 || 3 ≤ fieldLe e 0 1) (takeEntry slice e) d
    | none => d) s

/-- R342: a PROBE entry is taken. -/
def execMatchProbe (slice : Nat) (s : State) : Out :=
  onEng (fun d => match nextPost slice d with
    | some e => onlyIf (fieldLe e 0 1 == 1) (takeEntry slice e) d
    | none => d) s

/-- R342: a CANCEL entry is taken. -/
def execMatchCancel (slice : Nat) (s : State) : Out :=
  onEng (fun d => match nextPost slice d with
    | some e => onlyIf (fieldLe e 0 1 == 2) (takeEntry slice e) d
    | none => d) s

/-- The oldest waiting operation of a context. -/
def headWait (k i : Nat) (d : Dev) : Option MWait :=
  (quad k d).waits.find? (fun w => match w with | .arrival c _ => c == i | .post c _ _ => c == i)

/-- A waiting operation leaves the list. -/
def popWait (k : Nat) (w : MWait) (d : Dev) : Dev := updQuad k (fun q => { q with waits := q.waits.erase w }) d

/-- Resolves a waiting operation; requests behind an arrival run on. -/
def resolveWait (k i : Nat) (w : MWait) (d : Dev) : Dev :=
  match ctxOf k i d with
  | none => popWait k w d
  | some c =>
    match w with
    | .post _ n e => d |> popWait k w |> decideEntry k i n c e
    | .arrival _ n =>
      let d1 := popWait k w d
      match qpOf n d1 with
      | some q =>
        (match q.busy with
         | some (.matching key p) =>
           d1 |> updQp n (fun q => { q with busy := none, held := [] })
             |> (fun x => decideArrival n key k i ((qpOf n x).getD q) c p x)
             |> runQueue n (q.held.map (fun x => (x, 0)))
         | _ => d1)
      | none => d1

/-- Whether a waiting operation must read overflow. -/
def waitOverflow (k i : Nat) (w : MWait) (d : Dev) : Bool :=
  match w with
  | .post _ _ e => entryOverflow k i e d
  | .arrival _ n =>
    match qpOf n d with
    | some q => (match q.busy with
        | some (.matching _ p) => (searchPosted (quad k d) i p.rank p.tag).overflow
        | _ => false)
    | none => false

/-- The operations behind one that resolved go on, up to the next that must read overflow (R348). -/
def moreWaits (k i : Nat) : Nat → Dev → Dev
  | 0, d => d
  | f + 1, d =>
    match headWait k i d with
    | some w => if waitOverflow k i w d then d else moreWaits k i f (resolveWait k i w d)
    | none => d

/-- R348: an overflow fetch completes and the waiting operation resolves. -/
def execOverflowFetchDone (mte ctx : Nat) (s : State) : Out :=
  onEng (fun d =>
    match ((quad mte d).waits.take 32).find? (fun w => w.context == ctx) with
    | some w => let d1 := d |> memDone (1, mte, ctx) |> resolveWait mte ctx w
                moreWaits mte ctx ((quad mte d1).waits.length) d1
    | none => d) s

end Sys2Proof.Machine
end

