-- ==== Sys2Proof/Machine/Coll.lean ====
section
/-!
DEFINITION. Meanings of the commands on the collective units (ch. 12).
-/

namespace Sys2Proof.Machine

/-! ## The CLE page (R358 to R364, R391) -/

/-- The defined bits of a group entry, of a child entry and of a member entry that a write gives; the rest reads 0 (R10, R358, R359, R364). -/
def grpDefined : List Nat := [0x3FFF, 0xFFFFF, 0, 0, 0x1FFFFF, 0x3FFFFF, 0x1FFFFF, 0x3FFFFF, 0xFFFFF, 0xFFFFF, 0, 0]
/-- Of a child entry. -/
def childDefined : List Nat := [0xFFF07FFF, 0xFFFFF, 0xFFFFF, 0]
/-- Of a member entry. -/
def memberDefined : List Nat := [0x80FFFFFF, 0xFFFFF, 0xFFFFFFFF, 0xFFFFFFFF, 0xF, 0, 0, 0]

/-- The words of a group as GRP_READ returns them (R358). -/
def grpWords (g : Nat) (d : Dev) : List Nat :=
  match cgrp g d with
  | none => List.replicate 12 0
  | some x =>
    let w0 := x.words.getD 0 0 / 32 * 32 + wbits x.words 0 3 1 * 8 + x.state * 2 + 16 * bnat x.alt + 1
    (List.range 12).map (fun i => if i = 0 then w0 else if i = 2 then x.seq else if i = 3 then x.blk else x.words.getD i 0)

/-- The words of a member slot as MEMBER_READ returns them (R364). -/
def memberWords (s : Nat) (d : Dev) : List Nat :=
  let m := memberOf s d
  (List.range 8).map (fun i =>
    if i = 0 then m.words.getD 0 0 % 2 ^ 31 + 2 ^ 31 * bnat m.bound else if i = 5 then m.ci else m.words.getD i 0)

/-- CMD_DATA of a unit. -/
def cleData (u : Nat) (d : Dev) : List Nat := (List.range 12).map (fun i => rdI Reg.CLE_CMD_DATA u i d)

/-- Gives CMD_DATA of a unit its words. -/
def putCleData (u : Nat) (ws : List Nat) (d : Dev) : Dev := forEach ws.zipIdx (fun w => wrI Reg.CLE_CMD_DATA u w.2 w.1) d

/-- The larger child count of the two trees. -/
def mostChildren (ws : List Nat) : Nat := max (childCount ws false) (if wbits ws 0 5 1 = 1 then childCount ws true else 0)

/-- Accumulator lines that a group reserves (R362). -/
def linesFor (ws : List Nat) : Nat :=
  2 * wbits ws 0 8 4 * 2 ^ wbits ws 0 12 2 * (if wbits ws 0 6 1 = 1 then mostChildren ws + 1 else 1)

/-- Harbour cells that a group reserves (R362). -/
def collCells (ws : List Nat) : Nat := 2 * (2 ^ (wbits ws 0 12 2 + 10) / 256 + 2)

/-- The trees that a group entry gives. -/
def treesIn (ws : List Nat) : List Bool := if wbits ws 0 5 1 = 1 then [false, true] else [false]

/-- No number occurs twice. -/
def noRepeat : List Nat → Bool
  | [] => true
  | a :: l => !l.contains a && noRepeat l

/-- The checks of a group entry in their order: 0 where all pass, else the error (R363). -/
def grpError (u g : Nat) (ws : List Nat) (modify : Bool) (d : Dev) : Nat :=
  let old := cgrp g d
  let (lines, cells) := match old with | some x => (x.lines, x.cells) | none => (0, 0)
  let rng := fun alt =>
    decide (childBase ws alt + childCount ws alt ≤ 16384) &&
    (treePorts u ws alt d).all (fun p => decide (p < 144))
  let ports := fun alt =>
    (treePorts u ws alt d).all (fun p => portStarts p d && pers (p / 8) d == 2) && noRepeat (treePorts u ws alt d)
  let held := wr Reg.HBR_COLL_RSV 0 (rd Reg.HBR_COLL_RSV 0 d - cells + collCells ws) d
  if !(decide (1 ≤ wbits ws 0 8 4 ∧ wbits ws 0 8 4 ≤ 8) && (treesIn ws).all rng) then Cfg.CFG_CLE_RANGE
  else if !domOn (52 + u) d then Cfg.CFG_UNIT_OFF
  else if !(treesIn ws).all ports then Cfg.CFG_TREE_PORT
  else if modify && (match old with | some x => x.state == 1 | none => false) then Cfg.CFG_GROUP_BUSY
  else if rd Reg.CLE_LINES_FREE u d + lines < linesFor ws then Cfg.CFG_COLL_SLOTS
  else if !harbourFits held then Cfg.CFG_HBR_OVERCOMMIT
  else if wbits ws 0 7 1 = 1 ∧ d.coll.groups.any (fun e => e.1 != g && (match e.2 with | some x => x.phaseAdv | none => false)) then
    Cfg.CFG_COLL_PHASE
  else 0

/-- Moves a group's reservation: lines of its unit, cells of COLL_RSV (R362, R391). -/
def moveRsv (u linesOld cellsOld linesNew cellsNew : Nat) (d : Dev) : Dev :=
  d |> wr Reg.CLE_LINES_FREE u (rd Reg.CLE_LINES_FREE u d + linesOld - linesNew)
    |> wr Reg.CLE_RSV_CELLS u (rd Reg.CLE_RSV_CELLS u d - cellsOld + cellsNew)
    |> wr Reg.HBR_COLL_RSV 0 (rd Reg.HBR_COLL_RSV 0 d - cellsOld + cellsNew) |> sharedLowAlarm (sharedFree d)

/-- A group as GRP_CREATE makes it (R358, R363). -/
def CGroup.fresh (ws : List Nat) : CGroup :=
  { words := ws, state := 0, alt := false, seq := 0, blk := 0, lines := linesFor ws, cells := collCells ws, inst := none, slots := []
    seen := [], waiting := false, note := false, broken := [], altNext := false }

/-- A group as GRP_MODIFY leaves it: its words, TREE, and IDLE again where FAILED and STATE is given as 0 (R363, R387). -/
def CGroup.modified (x : CGroup) (ws : List Nat) : CGroup :=
  let back := x.state == 2 && wbits ws 0 1 2 == 0
  { x with words := ws, alt := wbits ws 0 4 1 == 1, lines := linesFor ws, cells := collCells ws
           state := if back then 0 else x.state, seen := if back then [] else x.seen }

/-- Number of valid groups of a unit. -/
def grpsOfUnit (u : Nat) (d : Dev) : Nat := (d.coll.groups.filter (fun e => unitOf e.1 == u)).length

/-- The answer of a CLE command: CMD_STATUS, an error that refuses it, and the state. -/
abbrev CleOut := Nat × Nat × Dev

/-- A CLE command of unit `u` (R363, R364, R387, R391, R439). -/
def cleRun (u op i : Nat) (ws : List Nat) (d : Dev) : CleOut :=
  let ok := fun d : Dev => ((0, 0, d) : CleOut)
  let st := fun n : Nat => ((n, 0, d) : CleOut)
  let refuse := fun e : Nat => ((6, e, d) : CleOut)
  let grpIdx := decide (i < 4096) && unitOf i == u
  let slotIdx := decide (i < 16384) && unitOf i == u
  match op with
  | 0 => if grpIdx then ok (putCleData u (grpWords i d) d) else st 1
  | 1 =>
    if !grpIdx then st 1
    else if (cgrp i d).isSome then st 2
    else
      let e := grpError u i ws false d
      if e ≠ 0 then refuse e
      else
        let d1 := d |> putCgrp i (some (CGroup.fresh (maskRow grpDefined ws))) |> moveRsv u 0 0 (linesFor ws) (collCells ws)
        ok (wr Reg.CLE_GROUPS u (grpsOfUnit u d1) d1)
  | 2 =>
    if !grpIdx then st 1
    else
      (match cgrp i d with
       | none => st 2
       | some x =>
         let e := grpError u i ws true d
         if e ≠ 0 then refuse e
         else ok (d |> putCgrp i (some (x.modified (maskRow grpDefined ws))) |> moveRsv u x.lines x.cells (linesFor ws) (collCells ws)))
  | 3 =>
    if !grpIdx then st 1
    else
      (match cgrp i d with
       | none => st 2
       | some x =>
         if x.state = 1 then st 2
         else
           let d1 := d |> putCgrp i none |> moveRsv u x.lines x.cells 0 0
           ok (wr Reg.CLE_GROUPS u (grpsOfUnit u d1) d1))
  | 4 => if i < 16384 then ok (putCleData u (childOf u i d) d) else st 1
  | 5 =>
    if 16384 ≤ i then st 1
    else if isNeighbour ws && decide (144 ≤ childRef ws) then refuse Cfg.CFG_CLE_RANGE
    else ok (updColl (fun c => { c with
      children := smSet (fun _ => List.replicate 4 0) c.children (u * 16384 + i) (maskRow childDefined ws) }) d)
  | 6 => if slotIdx then ok (putCleData u (memberWords i d) d) else st 1
  | 7 =>
    if !slotIdx then st 1
    else if (memberOf i d).bound then st 2
    else if unitOf (wbits ws 0 0 12) ≠ u then st 3
    else if wbits ws 2 0 6 ≠ 0 ∨ wbits ws 4 0 4 < 4 ∨ 12 < wbits ws 4 0 4 then refuse Cfg.CFG_CLE_RANGE
    else if slRd Reg.SLC_MAX_MEMBERS (wbits ws 0 12 12) d ≤ (slotsOfSlice (wbits ws 0 12 12) d).length then st 5
    else ok (updMember i (fun _ => { CMember.init with words := maskRow memberDefined ws, bound := true }) d)
  | 8 =>
    if !slotIdx then st 1
    else if !(memberOf i d).bound ∨ (memberOf i d).run.isSome then st 2
    else ok (updMember i (fun _ => CMember.init) d)
  | _ => refuse Cfg.CFG_CLE_RANGE

/-- CMD_GO of a CLE page (R391): a refused command reads CMD_STATUS 6 and records its configuration error. -/
def cleGo (u : Nat) (val : Word) (d : Dev) : Dev :=
  let (st, e, d1) := cleRun u (rd Reg.CLE_CMD_OP u d) (rd Reg.CLE_CMD_IDX u d) (cleData u d) d
  d1 |> wr Reg.CLE_CMD_STATUS u st |> onlyIf (e != 0) (cfgErr 0x18 u 0x108 e val) |> raise Ev.COLL_CMD_DONE u

/-- A write of CMD_GO while CMD_OP names the command. -/
def cleCmd (u op : Nat) (d : Dev) : Dev := onlyIf (rd Reg.CLE_CMD_OP u d == op) (trigger 0x18 u 0x108 0 (fun w => cleGo u w)) d

/-- R391: GRP_READ returns a group entry. -/
def execGrpRead (cle : Nat) (s : State) : Out := onDev (cleCmd cle 0) s

/-- R363: GRP_CREATE checks and creates a group with its reservations. -/
def execGrpCreate (cle : Nat) (s : State) : Out := onDev (cleCmd cle 1) s

/-- R363: GRP_MODIFY changes a group's mode, trees or state. -/
def execGrpModify (cle : Nat) (s : State) : Out := onDev (cleCmd cle 2) s

/-- R363: GRP_DESTROY frees a group that is not ACTIVE. -/
def execGrpDestroy (cle : Nat) (s : State) : Out := onDev (cleCmd cle 3) s

/-- R391: CHILD_READ returns a child entry. -/
def execChildRead (cle : Nat) (s : State) : Out := onDev (cleCmd cle 4) s

/-- R359: CHILD_WRITE writes a child entry. -/
def execChildWrite (cle : Nat) (s : State) : Out := onDev (cleCmd cle 5) s

/-- R391: MEMBER_READ returns a member slot. -/
def execMemberRead (cle : Nat) (s : State) : Out := onDev (cleCmd cle 6) s

/-- R364: MEMBER_BIND binds a slot to a rank of a group and a slice. -/
def execMemberBind (cle : Nat) (s : State) : Out := onDev (cleCmd cle 7) s

/-- R364, R390: MEMBER_UNBIND unbinds a slot; with an instance in progress it completes BAD_STATE. -/
def execMemberUnbind (cle : Nat) (s : State) : Out := onDev (cleCmd cle 8) s

/-! ## Launch (R365 to R367, R388) -/

/-- A doorbell or packet waits for its unit's domain, which it requests back to ON (R388). -/
def holdColl (u wake : Nat) (h : CHeld) (d : Dev) : Dev :=
  d |> updColl (fun c => { c with held := c.held ++ [h] }) |> wakeDom (52 + u) wake

/-- A collective doorbell sets the producer index of a slot (R365). -/
def serveColl (s index : Nat) (entries : List (List Byte)) (d : Dev) : Dev :=
  if domOn (52 + unitOf s) d then updMember s (fun m => { m with pi := index, ring := m.ring ++ entries }) d
  else holdColl (unitOf s) 2 (.bell s index entries) d

/-- R365: a collective doorbell sets a member slot's producer index; for a slot that is not bound or not the slice's it is dropped and
raises DOORBELL_BAD. -/
def execCollDoorbell (vh slice : Nat) (wide : Bool) (slot index : Nat) (entries : List (List Byte)) (s : State) : Out :=
  onEng (fun d =>
    if slRd Reg.SLC_VH slice d ≠ vh ∨ slState slice d = slFree then bump Reg.FUN_DB_FOREIGN vh d
    else if !wide then bump Reg.TPE_DB_BAD (slice % 8) d
    else if !((memberOf slot d).bound && (memberOf slot d).slice == slice) then sliceEvent slice RingEv.DOORBELL_BAD slot 0 d
    else
      bell vh slice (7 * 2 ^ 24 + slot) index (descAddr (memberOf slot d) (memberOf slot d).pi) entries (serveColl slot index) d) s

/-- Two ranges of a descriptor overlap (R367). -/
def rangesMeet (a b n : Nat) : Bool := decide (0 < n ∧ a < b + n ∧ b < a + n)

/-- A descriptor completes INV_OP (R367). -/
def descInvalid (x : CGroup) (rank : Nat) (b : List Byte) : Bool :=
  decide (4 < dCop b ∨ 7 < dType b ∨ 7 < dOper b) || (isFp (dType b) && decide (3 ≤ dOper b ∧ dOper b ≤ 5))
    || (dCop b == 4 && !x.scanEn) || decide (2 ^ 31 < dBytes b)
    || ((dCop b == 1 || dCop b == 2) && decide (x.size ≤ fieldLe b 8 4 % 2 ^ 20))
    || (sends rank b && receives rank b && rangesMeet (fieldLe b 16 8) (fieldLe b 32 8) (dBytes b))

/-- The keys of a descriptor pass for what the member does (R302, R366). -/
def descKeysOk (n rank : Nat) (b : List Byte) (d : Dev) : Bool :=
  (!sends rank b || dBytes b == 0 || lkeyOk n (fieldLe b 24 4) (fieldLe b 16 8) (dBytes b) false d)
    && (!receives rank b || dBytes b == 0 || lkeyOk n (fieldLe b 28 4) (fieldLe b 32 8) (dBytes b) true d)

/-- Takes the next descriptor of a slot: refused, held armed, or released (R367, R381, R387). -/
def startDesc (s : Nat) (d : Dev) : Dev :=
  let m := memberOf s d
  match m.ring, m.run, cgrp m.group d with
  | b :: rest, none, some x =>
    let lost : Bool := match x.inst with | some n => n.lost.contains s | none => false
    if !m.bound ∨ lost ∨ !(slState m.slice d == slActive || slState m.slice d == slQuiescing) ∨ !domOn (52 + unitOf s) d then d
    else
      let r : CRun := { idx := m.ci, desc := b, seq := 0, armed := bitOf (fieldLe b 3 1) 1, data := none, res := [] }
      let d1 := updMember s (fun m => { m with ring := rest, ci := (m.ci + 1) % 65536, run := some r }) d
      if descInvalid x m.rank b then completeAlone s 1 d1
      else if !descKeysOk m.slice m.rank b d then completeAlone s 2 d1
      else if x.state = 2 then completeAlone s 5 d1
      else if r.armed then d1
      else release s d1
  | _, _, _ => d

/-- R367: a unit takes the next descriptor of a slot once the previous one is complete. -/
def execCollDescriptorStart (slot : Nat) (s : State) : Out := onEng (startDesc slot) s

/-! ## Packets (R370 to R375, R383 to R386) -/

/-- The position of the child of a tree that a port leads to (R373). -/
def childAt (u : Nat) (x : CGroup) (p : Nat) (d : Dev) : Option Nat :=
  (((childrenOf u x.words x.alt d).zipIdx).find? (fun k => isNeighbour k.1 && childRef k.1 == p)).map (fun k => k.2)

/-- Stores a part of a block. -/
def putPart (g b pos kids : Nat) (c : CPart) (d : Dev) : Dev :=
  updCgrp g (fun x =>
    match x.inst with
    | none => x
    | some n =>
      let s := slotOf x b n
      let ps := if s.parts.isEmpty then List.replicate kids none else s.parts
      let n1 := if c.last then { n with ended := (pos, c.err) :: n.ended } else n
      { x.putSlot { s with parts := ps.set pos (some c) } with inst := some n1 }) d

/-- A UP packet (R373, R374, R385). -/
def takeUp (port : Nat) (p : CollPkt) (d : Dev) : Dev :=
  let g := p.dgrp
  let u := unitOf g
  match cgrp g d with
  | none => d
  | some x =>
    if x.state = 2 ∨ (p.tri == 1) ≠ x.alt ∨ 2 * x.win ≤ blkSub p.block x.blk then d
    else
      match childAt u x port d with
      | none => d
      | some pos =>
        let d1 := beginInst g p.cop p.oper p.dtype p.count d
        match (cgrp g d1).bind (fun x => x.inst) with
        | none => d1
        | some n =>
          let same := agrees n p.cop p.oper p.dtype p.count p.exact_ && n.seq == p.seq
          let rd_ := if p.err || p.empty then CRead.elems [] else readWire p.dtype p.oper p.exact_ (elemsAt x n p.block) p.payload
          let data := match rd_ with | .elems l => if p.err || p.empty then none else some l | _ => none
          let bad := decide (rd_ = .window ∨ rd_ = .length) && same
          d1 |> onlyIf (bad && decide (rd_ = .window)) (bump Reg.CLE_WIN_ERR u)
             |> onlyIf (!same || bad) (instMismatch g)
             |> putPart g p.block pos (childCount x.words x.alt) ⟨if p.err then some p.errcode else none, p.last, data⟩
             |> runGroup g

/-- The DOWN data of a packet; what does not read is taken as a failure of the instance. -/
def downPart (x : CGroup) (n : CInst) (p : CollPkt) : CPart :=
  if p.err then ⟨some p.errcode, p.last, none⟩
  else if p.empty then ⟨none, p.last, none⟩
  else
    match readWire n.dtype n.oper p.exact_ (elemsAt x n p.block) p.payload with
    | .elems l => ⟨none, p.last, some l⟩
    | _ => ⟨some 4, p.last, none⟩

/-- A DOWN packet from the parent of the tree in force; a block that is not the next is discarded (R374, R385, R386). -/
def takeDown (port : Nat) (p : CollPkt) (d : Dev) : Dev :=
  let g := p.dgrp
  match cgrp g d with
  | none => d
  | some x =>
    match x.inst with
    | none => d
    | some n =>
      if (p.tri == 1) ≠ x.alt ∨ !hasParent x.words x.alt ∨ parentPort x.words x.alt ≠ port ∨ p.seq ≠ n.seq ∨ p.block ≠ x.blk then d
      else d |> passDown g (downPart x n p) false |> runGroup g

/-- The port leads to a neighbour on the alternate tree of a valid group. -/
def onAlt (g port : Nat) (d : Dev) : Bool :=
  match cgrp g d with
  | some x => x.altValid && x.state != 2 && (treePorts (unitOf g) x.words true d).contains port
  | none => false

/-- A FAULT is forwarded on the alternate tree and decided at the root (R383, R384, R387). -/
def takeFault (port : Nat) (p : CollPkt) (d : Dev) : Dev :=
  let g := p.dgrp
  match cgrp g d with
  | none => d
  | some x =>
    if !onAlt g port d ∨ x.seen.contains (2, p.seq, p.tri) ∨ x.alt then d
    else d |> spread 2 g p.seq p.tri (some port) |> updCgrp g (fun x => { x with waiting := true }) |> decideFault g p.seq

/-- An ABORT is forwarded and taken (R383, R385). -/
def takeAbortPkt (port : Nat) (p : CollPkt) (d : Dev) : Dev :=
  let g := p.dgrp
  match cgrp g d with
  | none => d
  | some x =>
    if !onAlt g port d ∨ x.seen.contains (3, p.seq, p.tri) then d
    else d |> spread 3 g p.seq p.tri (some port) |> takeAbort g p.seq

/-- A GO_ON is forwarded and taken (R383, R386). -/
def takeGoOnPkt (port : Nat) (p : CollPkt) (d : Dev) : Dev :=
  let g := p.dgrp
  match cgrp g d with
  | none => d
  | some x =>
    if !onAlt g port d ∨ x.seen.contains (4, p.seq, p.tri) then d
    else d |> spread 4 g p.seq p.tri (some port) |> takeGoOn g p.seq

/-- A REDELIVER: kept by its target where it lacks the block, else forwarded on the alternate tree (R386). -/
def takeRedeliver (port : Nat) (p : CollPkt) (d : Dev) : Dev :=
  let g := p.dgrp
  match cgrp g d with
  | none => d
  | some x =>
    if !onAlt g port d then d
    else if p.count % 2 ^ 20 = rd Reg.RTE_MY_LID (port / 8) d then
      match x.inst with
      | some n => if n.seq = p.seq ∧ p.block = x.blk then d |> passDown g (downPart x n p) true |> runGroup g else d
      | none => d
    else
      forEach ((edgesOf (unitOf g) x.words true d).filter (fun e => e.port != port)) (fun e => sendColl 5 e p) d

/-- A collective packet by its TYPE: 0 UP, 1 DOWN, 2 FAULT, 3 ABORT, 4 GO_ON, 5 REDELIVER (R373). -/
def takeColl (type port : Nat) (p : CollPkt) (d : Dev) : Dev :=
  match type with
  | 0 => takeUp port p d
  | 1 => takeDown port p d
  | 2 => takeFault port p d
  | 3 => takeAbortPkt port p d
  | 4 => takeGoOnPkt port p d
  | _ => takeRedeliver port p d

/-- A collective packet: held while its unit's domain is not ON (R388). -/
def collPkt (type port : Nat) (p : CollPkt) (d : Dev) : Dev :=
  let u := unitOf p.dgrp
  if domOn (52 + u) d then takeColl type port p d else holdColl u 3 (.pkt type port p) d

/-- What a unit held goes on once its domain is ON (R388). -/
def serveHeldColl (u : Nat) (d : Dev) : Dev :=
  let mine := fun h : CHeld => match h with | .bell s _ _ => unitOf s == u | .pkt _ _ p => unitOf p.dgrp == u
  let hs := d.coll.held.filter mine
  d |> updColl (fun c => { c with held := c.held.filter (fun h => !mine h) })
    |> forEach hs (fun h => match h with
        | .bell s i es => serveColl s i es
        | .pkt t q p => collPkt t q p)

/-- R374: an UP block is combined into its slot, and goes on up or is decided at the root. -/
def execCollUpRx (port : Nat) (p : CollPkt) (s : State) : Out := onEng (collPkt 0 port p) s

/-- R370: a DOWN block goes down, reaches members, and opens the window. -/
def execCollDownRx (port : Nat) (p : CollPkt) (s : State) : Out := onEng (collPkt 1 port p) s

/-- R383: a FAULT is forwarded on the alternate tree and decided at the root. -/
def execCollFaultRx (port : Nat) (p : CollPkt) (s : State) : Out := onEng (collPkt 2 port p) s

/-- R385: an ABORT discards the partials and runs the instance again on the alternate tree. -/
def execCollAbortRx (port : Nat) (p : CollPkt) (s : State) : Out := onEng (collPkt 3 port p) s

/-- R386: a GO_ON makes upper ends of failed edges redeliver. -/
def execCollGoOnRx (port : Nat) (p : CollPkt) (s : State) : Out := onEng (collPkt 4 port p) s

/-- R386: a REDELIVER block is kept by its target and goes down, or is forwarded. -/
def execCollRedeliverRx (port : Nat) (p : CollPkt) (s : State) : Out := onEng (collPkt 5 port p) s

/-- R387: no ABORT or GO_ON arrived within FAULT_TMO. -/
def execCollFaultTimeout (group : Nat) (s : State) : Out :=
  onEng (fun d => match cgrp group d with | some x => onlyIf x.waiting (failGroup group) d | none => d) s

/-- R387: an instance has not completed within OP_TMO. -/
def execCollOpTimeout (group : Nat) (s : State) : Out :=
  onEng (fun d => match cgrp group d with | some x => onlyIf x.inst.isSome (failGroup group) d | none => d) s

end Sys2Proof.Machine
end

