-- ==== Sys2Proof/Machine/FuncOps.lean ====
section
/-!
DEFINITION. Network functions and slices (ch. 14): configuration space (R424 to R426), how operations of a slice end (R435, R442), the
slice reset (R441), FLR (R437), what a host read brings (R433), and address translation (R434).
-/

namespace Sys2Proof.Machine

/-! ## Configuration space (R424 to R426) -/

/-- A doubleword of configuration space: what it always holds, the bits software writes, the bits a 1 clears. -/
structure CfgWord where
  val : Nat
  rw : Nat
  w1c : Nat
deriving DecidableEq, Repr

/-- Bits of the Uncorrectable Error registers of a network function (R425). -/
def aerUncBits : Nat := 0x005DD000

/-- Bits of the Correctable Error registers (R425). -/
def aerCorBits : Nat := 0x0000F0C1

/-- The size bits of a base address register of 2^`n` bytes, low or high word. -/
def barMask (n : Nat) (high : Bool) : Nat :=
  if high then (if 32 ≤ n then 2 ^ 32 - 2 ^ (min n 64 - 32) else 2 ^ 32 - 1) else (if 32 ≤ n then 0 else 2 ^ 32 - 2 ^ n)

/-- The aperture of a function in force: APER_LOG and APER_PF as of start-up or its last FLR or hot reset (R429). -/
def aperInForce (v : Nat) (d : Dev) : Nat × Bool :=
  match (funOf v d).aper with
  | some x => x
  | none => (rd Reg.FUN_APER_LOG v d, rd Reg.FUN_APER_PF v d == 1)

/-- Speed and width of a VH's upstream port as Link Status gives them (R425). -/
def linkStatus (v : Nat) (d : Dev) : Nat :=
  let k := rd Reg.VHC_USP v d
  if rd Reg.VHC_VH_EN v d = 1 then rd Reg.EXP_SPEED k d + 16 * rd Reg.EXP_WIDTH k d else 0

/-- Configuration space of the network function of a VH (R424, R425); PCI Express Base 6.2 gives the layout of the capabilities
(PRESUMED, log entry 44). -/
def netCfg (v off : Nat) (d : Dev) : CfgWord :=
  let ap := aperInForce v d
  match off with
  | 0x00 => ⟨0x71431F5A, 0, 0⟩
  | 0x04 => ⟨0x00100000, 0x0546, 0xF9000000⟩
  | 0x08 => ⟨0x02800001, 0, 0⟩
  | 0x0C => ⟨0, 0xFF, 0⟩
  | 0x10 => ⟨4, barMask 24 false, 0⟩
  | 0x14 => ⟨0, 0xFFFFFFFF, 0⟩
  | 0x18 => ⟨4, barMask 21 false, 0⟩
  | 0x1C => ⟨0, 0xFFFFFFFF, 0⟩
  | 0x20 => if ap.1 = 0 then ⟨0, 0, 0⟩ else ⟨4 + 8 * bnat ap.2, barMask ap.1 false, 0⟩
  | 0x24 => if ap.1 = 0 then ⟨0, 0, 0⟩ else ⟨0, barMask ap.1 true, 0⟩
  | 0x2C => ⟨rd Reg.FUN_SSVID v d + 65536 * rd Reg.FUN_SSID v d, 0, 0⟩
  | 0x34 => ⟨0x40, 0, 0⟩
  | 0x3C => ⟨0, 0xFF, 0⟩
  | 0x40 => ⟨0x00028010, 0, 0⟩
  | 0x44 => ⟨0x10008022, 0, 0⟩
  | 0x48 => ⟨0, 0x71FF, 0xF0000⟩
  | 0x4C => ⟨0x106, 0, 0⟩
  | 0x50 => ⟨65536 * linkStatus v d, 0, 0⟩
  | 0x64 => ⟨0x0003031F, 0, 0⟩
  | 0x68 => ⟨0, 0x105F, 0⟩
  | 0x80 => ⟨0x00039001, 0, 0⟩
  | 0x84 => ⟨0, 3, 0⟩
  | 0x90 => ⟨0x07FF0011, 0xC0000000, 0⟩
  | 0x94 => ⟨2, 0, 0⟩
  | 0x98 => ⟨0x8002, 0, 0⟩
  | 0x100 => ⟨0x14820001, 0, 0⟩
  | 0x104 => ⟨0, 0, aerUncBits⟩
  | 0x108 => ⟨0, aerUncBits, 0⟩
  | 0x10C => ⟨0, aerUncBits, 0⟩
  | 0x110 => ⟨0, 0, aerCorBits⟩
  | 0x114 => ⟨0, aerCorBits, 0⟩
  | 0x118 => ⟨0xA0, 0x140, 0⟩
  | 0x148 => ⟨0x1501000F, 0, 0⟩
  | 0x14C => ⟨0x20, 0x801F0000, 0⟩
  | 0x150 => ⟨0x16010013, 0, 0⟩
  | 0x154 => ⟨0x01000000, 0x1, 0x30000⟩
  | 0x158 => ⟨512, 0, 0⟩
  | 0x15C => ⟨0, 0xFFFFFFFF, 0⟩
  | 0x160 => ⟨0x1681001B, 0, 0⟩
  | 0x164 => ⟨0x1400, 0x10000, 0⟩
  | 0x168 => ⟨0x1701000D, 0, 0⟩
  | 0x170 => ⟨0x3001002E, 0, 0⟩
  | 0x300 => ⟨0x0001000B, 0, 0⟩
  | 0x304 => ⟨0x00C10008, 0, 0⟩
  | 0x308 => ⟨rd Reg.DEV_COMPOSITE_ID 0 d + 64 * v + 1024 * rd Reg.VHC_CVH v d + 2 ^ 18 * rd Reg.CMP_EN 0 d
      + 2 ^ 19 * (rd Reg.FUN_SLICES v d % 8192), 0, 0⟩
  | _ => ⟨0, 0, 0⟩

/-- The four stored bytes of a doubleword as one number. -/
def cfgStored (v off : Nat) (d : Dev) : Nat := ofLe ((List.range 4).map (fun i => cfgByte v (off + i) d))

/-- A doubleword as a configuration read returns it. -/
def netCfgRead (v off : Nat) (d : Dev) : Nat :=
  let w := netCfg v off d
  Nat.lor w.val (Nat.land (cfgStored v off d) (Nat.lor w.rw w.w1c))

/-- The mask of the bytes that a configuration write enables. -/
def beMask (be : Nat) : Nat :=
  ((List.range 4).map (fun i => if bitOf be i then 255 * 256 ^ i else 0)).sum

/-- The bits of `a` that are not in `m`. -/
def dropBits (a m : Nat) : Nat := a - Nat.land a m

/-- What the stored bits of a doubleword become under a write. -/
def cfgMerge (w : CfgWord) (old data mask : Nat) : Nat :=
  let rw := Nat.land w.rw mask
  dropBits (Nat.lor (dropBits old rw) (Nat.land data rw)) (Nat.land (Nat.land w.w1c mask) data)

/-- Gives the stored bytes of a doubleword. -/
def putCfg (v off val : Nat) (d : Dev) : Dev :=
  updFun v (fun f => { f with cfg := (List.range 4).foldl (fun c i => smSet cfgDflt c (off + i) (BitVec.ofNat 8 (val / 256 ^ i))) f.cfg }) d

/-- Sets a bit of the Uncorrectable Error Status of AER (R426, R433). -/
def aerSet (v bit : Nat) (d : Dev) : Dev := putCfg v 0x104 (setBit (cfgStored v 0x104 d) bit) d

/-- The AER registers, which keep through FLR and hot reset what is sticky in them (R426). -/
def stickyCfg (off : Nat) : Bool := decide (0x104 ≤ off ∧ off < 0x130)

/-- The completion timeout in ns: the upper end of the sub-range written, 64 s when disabled; a reserved code changes nothing
(R433). -/
def ctoNs (v : Nat) (d : Dev) : Nat :=
  let c := cfgStored v 0x68 d
  let t := if bitOf c 4 then 64000000000 else
    match c % 16 with
    | 0 => 50000000
    | 1 => 100000
    | 2 => 10000000
    | 5 => 55000000
    | 6 => 210000000
    | 9 => 900000000
    | 10 => 3500000000
    | 13 => 13000000000
    | 14 => 64000000000
    | _ => rd Reg.FUN_CTO_NS v d
  min t (2 ^ 32 - 1)

/-- The fields of the FUN page that mirror configuration space (R447). -/
def mirrorCfg (v : Nat) (d : Dev) : Dev :=
  d |> wr Reg.FUN_BME v (bnat (cfgBit v 0x04 2 d)) |> wr Reg.FUN_MSE v (bnat (cfgBit v 0x04 1 d))
    |> wr Reg.FUN_MSIX_EN v (bnat (cfgBit v 0x93 7 d)) |> wr Reg.FUN_PASID_EN v (bnat (cfgBit v 0x166 0 d))
    |> wr Reg.FUN_ATS_EN v (bnat (cfgBit v 0x14F 7 d)) |> wr Reg.FUN_PRI_EN v (bnat (cfgBit v 0x154 0 d))
    |> wr Reg.FUN_DSTATE v ((cfgByte v 0x84 d).toNat % 4) |> wr Reg.FUN_CTO_NS v (ctoNs v d)

/-! ## MSI-X (R445) -/

/-- Sends the pended messages of vectors that are no longer masked, one for each vector (R445, R446). -/
def sendPended (v : Nat) (d : Dev) : Dev :=
  let go := (funOf v d).pba.filter (fun e => !vecMasked v e.1 d)
  if rd Reg.FUN_MSIX_EN v d = 1 ∧ bme v d then
    d |> updFun v (fun f => { f with pba := f.pba.filter (fun e => !go.contains e) })
      |> forEach (go.map (fun e => e.1)).eraseDups (sendMsix v) |> forEach go (fun e => slWr Reg.SLC_EVR_ARMED e.2 0)
  else d

/-! ## Operations of a slice (R440, R448) -/

/-- The queue pairs of a slice. -/
def sliceQps (n : Nat) (d : Dev) : List Nat :=
  (d.eng.qps.filter (fun e => match e.2 with | some q => q.slice == n | none => false)).map (fun e => e.1)

/-- The completion queues of a slice. -/
def sliceCqs (n : Nat) (d : Dev) : List Nat :=
  (d.eng.cqs.filter (fun e => e.2.isSome && numSlice e.1 d == n)).map (fun e => e.1)

/-- A started request is a bridge TLP's or an unretired bridge write. -/
def WKind.bridge (k : WKind) : Bool :=
  match k with
  | .brgWrite _ _ | .brgRead _ | .prefetch _ => true
  | _ => false

/-- Requests of a slice started and not completed, bridge work or other. -/
def startedCount (n : Nat) (brg : Bool) (d : Dev) : Nat :=
  ((sliceQps n d).map (fun q => ((startedOf q d).filter (fun w => w.kind.bridge == brg)).length)).sum

/-- Bridge TLPs of a slice's groups. -/
def brgActive (n : Nat) (d : Dev) : Nat :=
  (d.eng.brgReads.filter (fun r => grpValid r.grp d && grpSlice r.grp d == n)).length
    + ((sliceQps n d).map (fun q => (writeIds (startedOf q d)).length)).sum

/-- Receives of a slice posted for matching. -/
def postedCount (n : Nat) (d : Dev) : Nat :=
  (d.eng.quads.map (fun kq => (kq.2.posted.filter (fun p =>
    match smGet (fun _ => none) kq.2.ctxs p.ctx with | some c => c.slice == n | none => false)).length)).sum

/-- Every active count of a slice is zero (R440). -/
def sliceIdle (n : Nat) (d : Dev) : Bool :=
  startedCount n false d == 0 && readsOut n d == 0 && matchActive n d == 0 && collActive n d == 0 && brgActive n d == 0

/-- Operations of a slice that an abort or a fence ends. -/
def opsOf (n : Nat) (d : Dev) : Nat :=
  startedCount n false d + brgActive n d + matchActive n d + postedCount n d + collActive n d

/-- Outstanding host reads that a test selects are retired internally and their tags quarantined; waiting ones are given up (R435,
R442). -/
def quarantine (sel : HostRead → Bool) (d : Dev) : Dev :=
  let gone := d.eng.reads.filter sel
  updEng (fun e => { e with
    reads := e.reads.filter (fun r => !sel r)
    ats := e.ats.filter (fun w => !(w.acc.chan == .hostRead && gone.any (fun r => r.tag == w.acc.obj)))
    quar := e.quar ++ (gone.filter (fun r => r.waits.isEmpty)).map (fun r => (r.vh, r.tag, r.use.tpe)) }) d

/-- The match contexts of a slice: quadrant and index. -/
def ctxsOfSlice (n : Nat) (d : Dev) : List (Nat × Nat) :=
  d.eng.quads.flatMap (fun kq => (kq.2.ctxs.filter (fun e => match e.2 with | some c => c.slice == n | none => false)).map
    (fun e => (kq.1, e.1)))

/-- Ends everything a slice has in progress or queued: statuses for requests and match receives, and for collective members (R435,
R442, R389). -/
def endOps (n status collStatus : Nat) (unbind : Bool) (d : Dev) : Dev :=
  d |> forEach (sliceQps n d) (fun q d => enterError q ⟨status, none, true, match qpOf q d with | some x => (x.conn 0).una | none => 0⟩ d)
    |> forEach (ctxsOfSlice n d) (fun c d =>
        let ns := waitingQps c.1 c.2 d
        d |> endWaits c.1 c.2 0x0F |> emptyCtx c.1 c.2 status |> forEach ns rerun)
    |> forEach (sliceOf n d).mpr (fun e d =>
        match findCtx (quadOf n (fieldLe e 4 4)) n (fieldLe e 4 4) d with
        | some i => postCqe (quadOf n (fieldLe e 4 4)) (some i) e 11 9 d
        | none => d)
    |> updSlice n (fun s => { s with mpr := [], cmr := [] })
    |> updEng (fun e => { e with ringWaits := e.ringWaits.filter (fun w => w.slice != n) })
    |> endMembers n collStatus unbind |> kickAtomics

/-! ## The slice reset (R441) -/

/-- The H fields of a slice that a slice reset keeps (R441, R448). -/
def hFields : List Fld :=
  [Reg.SLC_EVR_BASE_LO, Reg.SLC_EVR_BASE_HI, Reg.SLC_EVR_LOG, Reg.SLC_EVR_VEC, Reg.SLC_CMR_BASE_LO, Reg.SLC_CMR_BASE_HI,
   Reg.SLC_CMR_LOG, Reg.SLC_MPR_BASE_LO, Reg.SLC_MPR_BASE_HI, Reg.SLC_MPR_LOG, Reg.SLC_EVR_ARMED]

/-- Enables and indices, which a slice reset clears. -/
def ringFields : List Fld :=
  [Reg.SLC_EVR_EN, Reg.SLC_EVR_PI, Reg.SLC_EVR_CI, Reg.SLC_CMR_EN, Reg.SLC_CMR_CI, Reg.SLC_MPR_EN, Reg.SLC_MPR_CI]

/-- The slice reset; with `cold` the H fields take their Cold values (R437, R441). -/
def sliceReset (n : Nat) (cold : Bool) (d : Dev) : Dev :=
  d |> forEach (sliceQps n d) (fun q => updQp q (fun x => { Qp.init x.slice x.rd with rnrTmr := x.rnrTmr, epochs := x.epochs }))
    |> updEng (fun e => { e with ringWaits := e.ringWaits.filter (fun w => w.slice != n) })
    |> forEach (sliceCqs n d) (fun c => putCq c none)
    |> invalSlice n
    |> forEach (ctxsOfSlice n d) (fun c => destroyCtx c.1 c.2 0x0E)
    |> forEach (slotsOfSlice n d) (fun s => updMember s (fun _ => CMember.init))
    |> forEach ((List.range 64).filter (fun g => grpValid g d && grpSlice g d == n)) (fun g d =>
        let x := grpOf g d
        let y := { x with live := x.live.set 0 (x.live.getD 0 0 / 2 * 2) }
        updEng (fun e => { e with grps := smSet (fun _ => Staged.init 4) e.grps g y }) d)
    |> forEach ringFields (fun f => slWr f n 0)
    |> onlyIf cold (forEach hFields (fun f => slWr f n 0))
    |> updEng (fun e => { e with retiring := e.retiring.filter (fun x => match x.2 with | some y => y.1 != n | none => true) })
    |> updSlice n (fun s => { Slice.init with since := s.since, tmoRaised := s.tmoRaised, resetTo := s.resetTo })

/-- Slices bound to a function. -/
def slicesOf (v : Nat) (d : Dev) : List Nat :=
  (List.range 4096).filter (fun n => slState n d != slFree && slRd Reg.SLC_VH n d == v)

/-- Brings SLICES of a function up to date (R447). -/
def countSlices (v : Nat) (d : Dev) : Dev := wr Reg.FUN_SLICES v (slicesOf v d).length d

/-! ## Bus Master Enable, D3hot and FLR (R435 to R437) -/

/-- A check-value job of a function ends ABORTED_BY_HOST (R536). -/
def chkEnd (j state status : Nat) (d : Dev) : Dev :=
  d |> wrI Reg.CHK_STATE 0 j state |> wrI Reg.CHK_JSTATUS 0 j status
    |> wr Reg.CHK_JOBS_BUSY 0 (clrBit (rd Reg.CHK_JOBS_BUSY 0 d) j)
    |> onlyIf (state != 4) (fun d => wr Reg.CHK_JOBS_DONE 0 (setBit (rd Reg.CHK_JOBS_DONE 0 d) j) d)
    |> (fun d => match state with | 2 => raise Ev.CHK_JOB_DONE 0 d | 3 => raise Ev.CHK_JOB_ERR 0 d | _ => d)

/-- A host scan is cut off: how many of its bytes were read, and so what RESULT covers, the spec leaves open (log entry 83). -/
def chkCut (j : Nat) (d : Dev) : Dev :=
  let len := rd2 Reg.CHK_LEN_LO Reg.CHK_LEN_HI 0 j d
  d |> wr2 Reg.CHK_BYTES_LO Reg.CHK_BYTES_HI 0 j (free 32 d % (len + 1)) |> takeFree
    |> (fun d => d |> wrI Reg.CHK_RESULT_LO 0 j (free 32 d) |> takeFree)
    |> onlyIf (rdI Reg.CHK_POLY 0 j d == 2) (fun d => d |> wrI Reg.CHK_RESULT_HI 0 j (free 32 d) |> takeFree)

/-- Ends the host scans of a function (R536). -/
def chkHostAbort (v : Nat) (d : Dev) : Dev :=
  forEach ((List.range 16).filter (fun j => rdI Reg.CHK_STATE 0 j d == 1 && rdI Reg.CHK_SRC 0 j d == 0 && rdI Reg.CHK_VH 0 j d == v))
    (fun j d => d |> onlyIf (rdI Reg.CHK_ALV_MODE 0 j d != 2) (chkCut j) |> chkEnd j 3 4) d

/-- Writes of a function that wait are discarded; completion and event entries are counted (R435). -/
def dropWaiting (v : Nat) (d : Dev) : Dev :=
  let mine := d.eng.ats.filter (fun w => w.acc.vh == v)
  d |> updEng (fun e => { e with ats := e.ats.filter (fun w => w.acc.vh != v) }) |> forEach mine (fun w => lostAcc w.acc)

/-- Steps 1 to 3 of R435: nothing leaves for the function, its reads are quarantined, its slices' operations end ABORTED_BY_HOST. -/
def stopFunction (v : Nat) (d : Dev) : Dev :=
  let ns := slicesOf v d
  let ended := (ns.map (fun n => opsOf n d)).sum
  d |> dropWaiting v |> quarantine (fun r => r.vh == v)
    |> addI Reg.FUN_ABORT_CNT v 0 ended
    |> forEach ns (fun n d => d |> endOps n 0x0B 8 false
        |> onlyIf (slState n d == slActive) (fun d => d |> slWr Reg.SLC_STATE n slAborted |> raiseSlice Ev.SLICE_HOST_ABORT 3 n))
    |> chkHostAbort v

/-- Bus Master Enable is cleared (R435). -/
def bmeClear (v : Nat) (d : Dev) : Dev :=
  if rd Reg.FUN_BME v d = 0 then d
  else
    d |> putCfg v 0x04 (clrBit (cfgStored v 0x04 d) 2) |> wr Reg.FUN_BME v 0 |> stopFunction v |> raise Ev.FUN_BME_OFF v

/-- The function enters D3hot (R436). -/
def d3Enter (v : Nat) (d : Dev) : Dev :=
  if rd Reg.FUN_DSTATE v d ≠ 0 then d
  else d |> putCfg v 0x84 3 |> wr Reg.FUN_DSTATE v 3 |> stopFunction v |> raise Ev.FUN_BME_OFF v

/-- Steps 1 to 4 of an FLR or hot reset of the function (R437): its bridge reads are discarded without completion (R326); FLR_BUSY
reads 1 until step 5. -/
def flrStart (v : Nat) (d : Dev) : Dev :=
  let ns := slicesOf v d
  let to_ := ns.map (fun n => (n, if slState n d = slActive ∨ slState n d = slAborted then 1 else 3))
  d |> updEng (fun e => { e with brgReads := e.brgReads.filter (fun r => r.vh != v) })
    |> putCfg v 0x04 (clrBit (cfgStored v 0x04 d) 2) |> wr Reg.FUN_BME v 0 |> stopFunction v
    |> wr Reg.FUN_FLR_BUSY v 1 |> bump Reg.FUN_FLR_CNT v
    |> forEach to_ (fun x d => d |> updSlice x.1 (fun s => { s with resetTo := x.2 }) |> sliceReset x.1 true)

/-- A slice reset ends: the slice's final state, and SLICE_RESET_DONE (R437, R441). -/
def finishReset (n : Nat) (d : Dev) : Dev :=
  let to_ := (sliceOf n d).resetTo
  let v := slRd Reg.SLC_VH n d
  if to_ = 7 then d
  else
    d |> updSlice n (fun s => { s with resetTo := 7 }) |> slWr Reg.SLC_STATE n to_ |> slWr Reg.SLC_CMD_BUSY n 0
      |> raiseSlice Ev.SLICE_RESET_DONE 2 n |> countSlices v

/-- Step 5 of an FLR or hot reset (R426, R429, R437). -/
def flrDone (v : Nat) (d : Dev) : Dev :=
  if rd Reg.FUN_FLR_BUSY v d = 0 then d
  else
    let ap := (rd Reg.FUN_APER_LOG v d, rd Reg.FUN_APER_PF v d == 1)
    d |> updFun v (fun f => { FunCfg.init with cfg := f.cfg.filter (fun e => stickyCfg e.1), aper := some ap })
      |> updEng (fun e => { e with atc := e.atc.filter (fun x => x.vh != v) })
      |> mirrorCfg v |> wr Reg.FUN_FLR_BUSY v 0
      |> forEach (slicesOf v d) (fun n d => onlyIf (slState n d != slFencing) (finishReset n) d)
      |> raise Ev.FUN_FLR_DONE v

/-! ## Slice commands (R438 to R442) -/

/-- The state that lets a command run: none while one runs. -/
def cmdReady (n : Nat) (d : Dev) : Bool := slRd Reg.SLC_CMD_BUSY n d == 0

/-- A slice command ends with a status (R438). -/
def cmdStatus (n st : Nat) (d : Dev) : Dev := slWr Reg.SLC_CMD_STATUS n st d

/-- CREATE (R439). -/
def sliceCreate (n : Nat) (d : Dev) : Dev :=
  let v := slRd Reg.SLC_VH n d
  let limitsOk := decide (1 ≤ slRd Reg.SLC_SHARE n d ∧ slRd Reg.SLC_MAX_REGIONS n d ≤ 4194304 ∧ 1 ≤ slRd Reg.SLC_MAX_RD n d ∧
    slRd Reg.SLC_MAX_RD n d ≤ 4096 ∧ slRd Reg.SLC_MAX_CTX n d ≤ 16384 ∧ slRd Reg.SLC_MAX_MEMBERS n d ≤ 16384 ∧
    slRd Reg.SLC_MAX_GROUPS n d ≤ 64)
  if slState n d ≠ slFree ∨ !cmdReady n d then cmdStatus n 2 d
  else if rd Reg.FUN_PRESENT v d = 0 then cmdStatus n 5 d
  else if (slicesOf v d).any (fun m => slRd Reg.SLC_PASID m d == slRd Reg.SLC_PASID n d) then cmdStatus n 4 d
  else if !limitsOk then cmdStatus n 3 d
  else d |> slWr Reg.SLC_STATE n slActive |> updSlice n (fun _ => Slice.init) |> cmdStatus n 0 |> countSlices v

/-- QUIESCE (R440). -/
def sliceQuiesce (n : Nat) (d : Dev) : Dev :=
  if slState n d ≠ slActive ∨ !cmdReady n d then cmdStatus n 2 d
  else d |> slWr Reg.SLC_STATE n slQuiescing |> updSlice n (fun s => { s with since := d.th.localNs, tmoRaised := false }) |> cmdStatus n 0

/-- An event ring doorbell sets the consumer index and may arm the vector (R445). -/
def serveEvr (n index : Nat) (d : Dev) : Dev :=
  let d1 := slWr Reg.SLC_EVR_CI n (index % 65536) d
  if bitOf index 16 then
    let d2 := slWr Reg.SLC_EVR_ARMED n 1 d1
    onlyIf (slRd Reg.SLC_EVR_PI n d2 != slRd Reg.SLC_EVR_CI n d2) (notifySlice n) d2
  else d1

/-- Serves the entries of a doorbell by its key (R440). -/
def serveKey (n key index : Nat) (entries : List (List Byte)) (d : Dev) : Dev :=
  match key / 2 ^ 24 with
  | 5 => updSlice n (fun s => { s with cmrPi := index, cmr := s.cmr ++ entries }) d
  | 6 => serveMatch n index entries d
  | 7 => serveColl (key % 2 ^ 24) index entries d
  | 8 => serveEvr n index d
  | k => serveWork k (key % 2 ^ 24) index entries d

/-- Where the entries of a doorbell begin by its key. -/
def keyPlace (n key : Nat) (d : Dev) : Nat :=
  if key / 2 ^ 24 = 7 then descAddr (memberOf (key % 2 ^ 24) d) (memberOf (key % 2 ^ 24) d).pi else ringPlace n key d

/-- Serves a recorded doorbell (R440). -/
def serveRecorded (n : Nat) (r : Nat × Nat × List (List Byte)) (d : Dev) : Dev :=
  ringFetch n r.1 r.2.1 (keyPlace n r.1 d) r.2.2 (serveKey n r.1 r.2.1) d

/-- Ring entries wait for a page of a function. -/
def RingWait.waitsOn (w : RingWait) (v : Nat) (pasid : Option Nat) (page : Nat) : Bool :=
  w.vh == v && w.pasid == pasid && w.page == page

/-- Two waits are of one ring. -/
def RingWait.sameRing (a b : RingWait) : Bool := a.slice == b.slice && a.key == b.key

/-- The oldest wait of each ring. -/
def ringFronts (d : Dev) : List RingWait :=
  d.eng.ringWaits.filter (fun w => d.eng.ringWaits.find? (RingWait.sameRing w) == some w)

/-- Ring entries whose page is translated are served, oldest of their ring first, under the latest index of the ring; a page not asked
for yet is (R434). -/
def ringRun : Nat → Dev → Dev
  | 0, d => d
  | f + 1, d =>
    match (ringFronts d).find? (fun w => d.eng.atc.any (fun e => e.vh == w.vh && e.pasid == w.pasid && e.page == w.page && e.read)) with
    | some w =>
      let index := match (d.eng.ringWaits.filter (RingWait.sameRing w)).getLast? with | some x => x.index | none => w.index
      d |> updEng (fun e => { e with ringWaits := e.ringWaits.erase w }) |> serveKey w.slice w.key index w.entries |> ringRun f
    | none =>
      forEach ((ringFronts d).filter (fun w => !w.asked)) (fun w d => d |> askPage w.vh w.pasid w.page
        |> updEng (fun e => { e with ringWaits := e.ringWaits.map (fun x => if x = w then { x with asked := true } else x) })) d

/-- A ring that cannot be read (R434): its waiting entries are given up, RING_FAULT tells which, and the queue pair that owns it enters
ERROR. -/
def ringWaitFault (w : RingWait) (d : Dev) : Dev :=
  let num := w.key % 2 ^ 24
  let d1 := updEng (fun e => { e with ringWaits := e.ringWaits.filter (fun x => !w.sameRing x) }) d
  match w.key / 2 ^ 24 with
  | 0 => d1 |> sliceEvent w.slice RingEv.RING_FAULT num 0 |> enterError num (Ending.plain 0)
  | 1 => d1 |> sliceEvent w.slice RingEv.RING_FAULT num 1 |> enterError num (Ending.plain 0)
  | 5 => sliceEvent w.slice RingEv.RING_FAULT 0 3 d1
  | 6 => sliceEvent w.slice RingEv.RING_FAULT 0 4 d1
  | _ => sliceEvent w.slice RingEv.RING_FAULT 0 5 d1

/-- RESUME (R440). -/
def sliceResume (n : Nat) (d : Dev) : Dev :=
  if (slState n d ≠ slQuiescing ∧ slState n d ≠ slQuiesced) ∨ !cmdReady n d then cmdStatus n 2 d
  else
    let rs := (sliceOf n d).recorded
    d |> slWr Reg.SLC_STATE n slActive |> updSlice n (fun s => { s with recorded := [] }) |> cmdStatus n 0
      |> forEach rs (serveRecorded n)

/-- RESET of a QUIESCED or HOST_ABORTED slice (R441). -/
def sliceResetCmd (n : Nat) (d : Dev) : Dev :=
  let st := slState n d
  if st = slActive ∨ st = slQuiescing then cmdStatus n 1 d
  else if (st ≠ slQuiesced ∧ st ≠ slAborted) ∨ !cmdReady n d then cmdStatus n 2 d
  else d |> sliceReset n false |> updSlice n (fun s => { s with resetTo := 3 }) |> slWr Reg.SLC_CMD_BUSY n 1 |> cmdStatus n 0

/-- REMOVE of a QUIESCED slice (R438, R441). -/
def sliceRemove (n : Nat) (d : Dev) : Dev :=
  let st := slState n d
  if st = slActive ∨ st = slQuiescing then cmdStatus n 1 d
  else if st ≠ slQuiesced ∨ !cmdReady n d then cmdStatus n 2 d
  else
    d |> forEach (sliceQps n d) (fun q => putQp q none) |> sliceReset n false
      |> updEng (fun e => { e with ranges := e.ranges.filter (fun r => bitsOf r.2.1 0 12 != n || !bitOf r.2.1 16) })
      |> updSlice n (fun s => { s with resetTo := 0 }) |> slWr Reg.SLC_CMD_BUSY n 1 |> cmdStatus n 0

/-- The valid windows of a slice's groups, which latch GROUP_DOWN when the slice is fenced (R326, R442). -/
def sliceWins (n : Nat) (d : Dev) : List Nat :=
  (List.range 1024).filter (fun w => bwValid w d && grpValid (bwGrp w d) d && grpSlice (bwGrp w d) d == n)

/-- FORCE_RESET (R442). -/
def sliceForce (n : Nat) (d : Dev) : Dev :=
  let st := slState n d
  if st = slFree ∨ st = slFencing then cmdStatus n 2 d
  else
    d |> slWr Reg.SLC_STATE n slFencing |> updSlice n (fun s => { s with recorded := [] })
      |> quarantine (fun r => r.slice == n)
      |> addI Reg.SLC_FENCED_OPS (n / 16) (n % 16) (opsOf n d)
      |> endOps n 0x0A 7 true |> forEach (sliceWins n d) (fun w => latchWin w 5 0 false) |> sliceReset n false
      |> updSlice n (fun s => { s with resetTo := 3 }) |> slWr Reg.SLC_CMD_BUSY n 1 |> cmdStatus n 0

/-- The commands of CMD by bit, the lowest first (R448). -/
def sliceCmd (n bit : Nat) (d : Dev) : Dev :=
  match bit with
  | 0 => sliceCreate n d
  | 1 => sliceQuiesce n d
  | 2 => sliceResume n d
  | 3 => sliceResetCmd n d
  | 4 => sliceForce n d
  | _ => sliceRemove n d

/-! ## What a host read brings (R433, R434) -/

/-- An engine's request ends HOST_DMA_ERR, or has its source data (R265, R433). -/
def sourceRead (qpn id : Nat) (data : Option (List Byte)) (d : Dev) : Dev :=
  if (startedOf qpn d).any (fun w => w.id == id) then
    match data with
    | some bs =>
      updQp qpn (fun q => { q with started := q.started.map (fun w => if w.id = id then { w with buf := bs, ready := true } else w) }) d
    | none =>
      d |> updQp qpn (fun q => { q with started := q.started.map (fun w =>
            if w.id = id then { w with status := 0x0C, allSent := true, ready := true } else w) })
        |> completeWqes qpn
  else bump Reg.TPE_LATE_DROP (qpn % 8) d

/-- A responder goes on with the request it waited for (R277, R280, R281, R282). -/
def respondRead (qpn : Nat) (data : Option (List Byte)) (d : Dev) : Dev :=
  match qpOf qpn d with
  | none => bump Reg.TPE_LATE_DROP (qpn % 8) d
  | some q =>
    match q.busy, data with
    | some (.read key p), some bs => d |> sendRead qpn key q.bytes p.psn bs |> unbusy qpn
    | some (.atomic key aop p), some bs =>
      let old := ofLe bs
      let own : Owner := ⟨1, qpn⟩
      let len := atomicBytes p.opc
      d |> onlyIf (!aop) (writeKey p.rkey p.vaddr (roRx q) own (leBytes len (atomicNew p old)))
        |> record qpn ⟨p.psn, p.opc, p.rkey, p.vaddr, old⟩ |> sendAtomic qpn key p.psn old |> unbusy qpn
    | some (.read key p), none => d |> answerError qpn key 5 p.psn |> unbusy qpn
    | some (.atomic key _ p), none => d |> answerError qpn key 5 p.psn |> unbusy qpn
    | _, _ => bump Reg.TPE_LATE_DROP (qpn % 8) d

/-- A host read has ended: with its data, or failed. -/
def readDone (r : HostRead) (data : Option (List Byte)) (d : Dev) : Dev :=
  let d1 := endRead r.tag r.slice d
  match r.use with
  | .source qpn w => sourceRead qpn w data d1
  | .respond qpn => d1 |> respondRead qpn data |> kickAtomics
  | .contrib _ s => contribDone s data d1

/-- Accesses that wait behind no other of their function go out. -/
def issueAll (v : Nat) (d : Dev) : Dev := issueKnown v d.eng.ats.length d

/-- The slice that an owner's ring belongs to. -/
def ownerSlice (o : Owner) (d : Dev) : Nat :=
  match o.kind with
  | 2 => numSlice o.id d
  | 6 => (memberOf o.id d).slice
  | _ => o.id

/-- A ring access that cannot be translated (R434): RING_FAULT and ERROR of the queue, or PRG_FAIL for the event ring itself. -/
def ringFault (a : Access) (d : Dev) : Dev :=
  let n := ownerSlice a.owner d
  let obj := if a.owner.kind = 2 then a.owner.id else 0
  match a.owner.kind with
  | 3 => d |> bump Reg.FUN_PRG_FAIL a.vh |> raise Ev.FUN_PRG_FAIL a.vh
  | 2 =>
    (match cqOf a.owner.id d with | some c => putCq a.owner.id (some { c with state := 2 }) d | none => d)
      |> sliceEvent n RingEv.RING_FAULT obj 2
  | 4 => sliceEvent n RingEv.RING_FAULT obj 3 d
  | 5 => sliceEvent n RingEv.RING_FAULT obj 4 d
  | _ => sliceEvent n RingEv.RING_FAULT obj 5 d

/-- The completion entry, or completion word of a collective descriptor, that waits behind a write of its operation, among accesses. -/
def waitingCqe (a : Access) (l : List AtsWait) : Option AtsWait :=
  if a.owner.kind = 6 then l.find? (fun w => w.acc.chan == .hostWrite && w.acc.ring && w.acc.owner == a.owner)
  else l.find? (fun w => w.acc.chan == .cqe && (1 < a.owner.kind || fieldLe w.acc.bytes 16 3 == a.owner.id))

/-- A completion that waits tells HOST_DMA_ERR (R434): STATUS of a completion entry (R295) or of a completion word (R368). -/
def failCqe (w : AtsWait) (d : Dev) : Dev :=
  let bytes := if w.acc.chan = .cqe then w.acc.bytes.set 20 0x0C else w.acc.bytes.set 0 0x03
  let w1 := { w with acc := { w.acc with bytes := bytes } }
  updEng (fun e => { e with ats := e.ats.map (fun x => if x = w then w1 else x) }) d

/-- The operation of a data write that cannot be translated (R434), `behind` the accesses that waited behind it: its completion tells
HOST_DMA_ERR, or its request ends so; a responder answers REM_OP_ERR, an RD endpoint to the peer that its receive completion names (log
entry 45). -/
def dataWriteFault (a : Access) (behind : List AtsWait) (d : Dev) : Dev :=
  let c := waitingCqe a behind
  let d1 := forEach c.toList failCqe d
  match a.owner.kind with
  | 0 =>
    if c.isSome then d1
    else updQp a.owner.id (fun q => { q with started := match q.started with | w :: l => { w with status := 0x0C } :: l | [] => [] }) d1
  | 1 => (match qpOf a.owner.id d1, c with
      | some q, some w =>
        if q.rd then answerError a.owner.id (peerKey (fieldLe w.acc.bytes 24 4 % 2 ^ 20) (fieldLe w.acc.bytes 28 4 % 2 ^ 24)) 5
          (q.conn (peerKey (fieldLe w.acc.bytes 24 4 % 2 ^ 20) (fieldLe w.acc.bytes 28 4 % 2 ^ 24))).epsn d1
        else answerError a.owner.id 0 5 (q.conn 0).epsn d1
      | some q, none =>
        if q.rd then enterError a.owner.id (Ending.plain 0) d1 else answerError a.owner.id 0 5 (q.conn 0).epsn d1
      | none, _ => d1)
  | _ => d1

/-- An access cannot be translated. -/
def accessFault (a : Access) (d : Dev) : Dev :=
  let d1 := updEng (fun e => { e with ats := e.ats.filter (fun w => w.acc != a) }) d
  if a.ring then ringFault a d1
  else if a.chan = .hostRead then
    match d1.eng.reads.find? (fun r => r.tag == a.obj) with
    | some r => readDone r none d1
    | none => d1
  else dataWriteFault a ((d.eng.ats.dropWhile (fun w => w.acc != a)).drop 1) d1

end Sys2Proof.Machine
end

