-- ==== Sys2Proof/Machine/Func.lean ====
section
/-!
DEFINITION. Meanings of the commands on network functions and slices (ch. 14), and what the host answers to the engines' reads (R433).
-/

namespace Sys2Proof.Machine

/-! ## Host reads (R433, R435) -/

/-- A completion for a tag: the read's data or its failure; dropped in quarantine, counted late (R294); else an Unexpected Completion (R433). -/
def hostCompletion (v tag : Nat) (ok : Bool) (data : List Byte) (d : Dev) : Dev :=
  match d.eng.reads.find? (fun r => r.vh == v && r.tag == tag && r.waits.isEmpty) with
  | some r => readDone r (if ok then some data else none) d
  | none =>
    match d.eng.quar.find? (fun x => x.1 == v && x.2.1 == tag) with
    | some x => d |> bump Reg.FUN_LATE_CPL v |> onlyIf (decide (x.2.2 < 8)) (bump Reg.TPE_LATE_DROP x.2.2)
    | none => d |> bump Reg.FUN_UNEXP_CPL v |> aerSet v 16

/-- R433: a completion of a host read arrives, with data or an error status. -/
def execHostCompletionRx (vh tag : Nat) (ok : Bool) (data : List Byte) (s : State) : Out := onEng (hostCompletion vh tag ok data) s

/-- R433: CTO passes without a completion: the operation ends HOST_DMA_ERR, or REM_OP_ERR at a responder. -/
def execHostReadTimeout (vh tag : Nat) (s : State) : Out :=
  onEng (fun d =>
    match d.eng.reads.find? (fun r => r.vh == vh && r.tag == tag && r.waits.isEmpty) with
    | some r => d |> aerSet vh 14 |> readDone r none
    | none => d) s

/-! ## The function (R435 to R437) -/

/-- R435: clearing Bus Master Enable stops the function's requests and aborts its slices. -/
def execBmeClear (vh : Nat) (s : State) : Out := onEng (bmeClear vh) s

/-- R437: Initiate FLR resets the network function and its slices. -/
def execInitiateFlr (vh : Nat) (s : State) : Out := onEng (flrStart vh) s

/-- R437: configuration space returns to its defaults and FUN_FLR_DONE is raised. -/
def execFlrComplete (vh : Nat) (s : State) : Out := onEng (flrDone vh) s

/-- R436: entry to D3hot acts as clearing Bus Master Enable. -/
def execD3hotEntry (vh : Nat) (s : State) : Out := onEng (d3Enter vh) s

/-- A return of the function to D0 acts as FLR (R436). -/
def d0Return (v : Nat) (d : Dev) : Dev :=
  onlyIf (rd Reg.FUN_DSTATE v d == 3) (fun d => d |> putCfg v 0x84 0 |> wr Reg.FUN_DSTATE v 0 |> flrStart v) d

/-- R436: a return to D0 acts as FLR. -/
def execD0Return (vh : Nat) (s : State) : Out := onEng (d0Return vh) s

/-- R435: a quarantined tag is released. -/
def execTagQuarantineEnd (vh tag : Nat) (s : State) : Out :=
  onEng (updEng (fun e => { e with quar := e.quar.filter (fun q => !(q.1 == vh && q.2.1 == tag)) })) s

/-! ## Slices (R438 to R442) -/

/-- A write of a CMD bit of a slice (R448). -/
def sliceTrig (n bit : Nat) (act : Nat → Dev → Dev) (d : Dev) : Dev :=
  trigger 0x1C (n / 16) (0x104 + 0xF0 * (n % 16)) bit (fun _ => act n) d

/-- R439: CREATE binds a FREE slice to a VH and PASID. -/
def execSliceCreate (slice : Nat) (s : State) : Out := onEng (sliceTrig slice 0 sliceCreate) s

/-- R440: QUIESCE stops the slice taking new work. -/
def execSliceQuiesce (slice : Nat) (s : State) : Out := onEng (sliceTrig slice 1 sliceQuiesce) s

/-- R440: every active count of a quiescing slice is zero, and it enters QUIESCED. -/
def execSliceDrained (slice : Nat) (s : State) : Out :=
  onEng (fun d => onlyIf (slState slice d == slQuiescing && sliceIdle slice d) (fun d => d
    |> slWr Reg.SLC_STATE slice slQuiesced
    |> slWr Reg.SLC_DRAIN_US slice (min ((d.th.localNs - (sliceOf slice d).since) / 1000) (2 ^ 17 - 1))
    |> raiseSlice Ev.SLICE_DRAINED 0 slice) d) s

/-- R440: QUIESCE_TMO has passed with the slice still QUIESCING; raised once. -/
def execSliceQuiesceTmo (slice : Nat) (s : State) : Out :=
  onEng (fun d => onlyIf (slState slice d == slQuiescing && !(sliceOf slice d).tmoRaised) (fun d => d
    |> updSlice slice (fun x => { x with tmoRaised := true }) |> raiseSlice Ev.SLICE_QUIESCE_TMO 1 slice) d) s

/-- R440: RESUME returns the slice to ACTIVE and serves the recorded doorbells. -/
def execSliceResume (slice : Nat) (s : State) : Out := onEng (sliceTrig slice 2 sliceResume) s

/-- R441: RESET performs the slice reset on a QUIESCED or HOST_ABORTED slice. -/
def execSliceReset (slice : Nat) (s : State) : Out := onEng (sliceTrig slice 3 sliceResetCmd) s

/-- R442: FORCE_RESET fences the slice and performs the slice reset. -/
def execSliceForceReset (slice : Nat) (s : State) : Out := onEng (sliceTrig slice 4 sliceForce) s

/-- R441: REMOVE performs the slice reset, clears the slice's ranges and frees it. -/
def execSliceRemove (slice : Nat) (s : State) : Out := onEng (sliceTrig slice 5 sliceRemove) s

/-- R441: the slice reset ends; that of an FLR ends with the FLR (R437). -/
def execSliceResetComplete (slice : Nat) (s : State) : Out :=
  onEng (fun d => onlyIf (rd Reg.FUN_FLR_BUSY (slRd Reg.SLC_VH slice d) d == 0 || slState slice d == slFencing) (finishReset slice) d) s

/-! ## Command and event rings (R444, R445) -/

/-- R444: a command doorbell sets the producer index of the command ring. -/
def execCommandDoorbell (vh slice : Nat) (wide : Bool) (index : Nat) (entries : List (List Byte)) (s : State) : Out :=
  onEng (fun d =>
    if !wide ∧ slRd Reg.SLC_VH slice d = vh ∧ slState slice d ≠ slFree then bump Reg.TPE_DB_BAD (slice % 8) d
    else bell vh slice (5 * 2 ^ 24) index (ringPlace slice (5 * 2 ^ 24) d) entries
      (fun es => updSlice slice (fun x => { x with cmrPi := index, cmr := x.cmr ++ es })) d) s

/-- Serves an entry of a command ring whose data buffer holds `data`; `ok` tells whether a page list could be read (R444). -/
def serveEntry (n : Nat) (e data : List Byte) (pages : List Nat) (ok : Bool) (d : Dev) : Dev :=
  let f := fieldLe e
  let op := f 1 1
  let num := f 4 4
  match f 0 1 with
  | 0 =>
    let (st, out, d1) := qpcRun op num (f 8 1 % 16) data (some n) d
    ringDone n e st (if out.isEmpty then data else out ++ data.drop out.length) none d1
  | 1 =>
    let (st, key, out, idx, d1) := mrgRun op num data pages ok (some n) d
    if idx.isEmpty then ringDone n e st (if out.isEmpty then data else out) (if op = 1 ∧ st = 0 then some key else none) d1
    else updEng (fun x => { x with retiring := x.retiring ++ [(idx, some (n, e, data))] }) d1
  | 2 =>
    let k := quadOf n (fieldLe data 0 4)
    let (st, i, out, d1) := mteRun k op num data (some n) d
    ringDone n e st (if out.isEmpty then data else out) (if op = 1 ∧ st = 0 then some i else none) d1
  | _ => ringDone n e 0x0F [] none d

/-- R444: the next entry of a slice's command ring is served; `ok` false where its data buffer could not be read. -/
def execCommandRingEntry (slice : Nat) (data : List Byte) (pages : List Nat) (ok : Bool) (s : State) : Out :=
  onEng (fun d =>
    match (sliceOf slice d).cmr with
    | [] => d
    | e :: _ =>
      let busy := d.eng.retiring.any (fun x => x.2.any (fun y => y.1 == slice))
      if slRd Reg.SLC_CMR_EN slice d = 0 ∨ busy ∨ !(slState slice d == slActive || slState slice d == slQuiescing) then d
      else serveEntry slice e data pages ok d) s

/-- R445: an event ring doorbell; `value` holds the index and ARM. -/
def execEventRingDoorbell (vh slice value : Nat) (s : State) : Out :=
  onEng (fun d => bell vh slice (8 * 2 ^ 24) value 0 [] (fun _ => serveEvr slice value) d) s

/-- R445: a vector is unmasked, and a message pending in the PBA is sent. -/
def execMsixUnmask (vh vec : Nat) (s : State) : Out :=
  onEng (fun d => d
    |> updFun vh (fun f =>
        let e := smGet (fun _ => (0, 0, true)) f.msix vec
        { f with msix := smSet (fun _ => (0, 0, true)) f.msix vec (e.1, e.2.1, false) })
    |> sendPended vh) s

/-! ## Address translation (R434) -/

/-- A waiting access is for a page. -/
def waitsFor (v : Nat) (pasid : Option Nat) (page : Nat) (w : AtsWait) : Bool :=
  w.acc.vh == v && w.acc.pasid == pasid && w.acc.addr / 4096 == page && w.xlat.isNone

/-- PASID of a request as a command gives it: 2^20 for none. -/
def pasidOf (n : Nat) : Option Nat := if n < 2 ^ 20 then some n else none

/-- Adds a translation to the cache, the oldest of 16,384 leaving (R434). -/
def addAtc (e : AtcEntry) (d : Dev) : Dev :=
  updEng (fun x =>
    let l := x.atc.filter (fun y => !(y.vh == e.vh && y.pasid == e.pasid && y.page == e.page))
    { x with atc := (if 16384 ≤ l.length then l.tail else l) ++ [e] }) d

/-- An access whose page may not be accessed: a Page Request for a ring page, else its operation ends (R434). -/
def noPermission (a : Access) (d : Dev) : Dev :=
  if a.ring ∧ rd Reg.FUN_PRI_EN a.vh d = 1 then
    d |> bump Reg.FUN_PRG_SENT a.vh |> emit .tlp [256 + a.vh, 2, a.pasid.getD (2 ^ 20), a.addr / 4096] []
      |> updEng (fun e => { e with ats := e.ats.map (fun w => if w.acc = a then { w with prg := true } else w) })
  else accessFault a d

/-- A ring page that may not be read: a Page Request, or a fault of the ring (R434). -/
def ringNoPermission (w : RingWait) (d : Dev) : Dev :=
  if rd Reg.FUN_PRI_EN w.vh d = 1 then
    d |> bump Reg.FUN_PRG_SENT w.vh |> emit .tlp [256 + w.vh, 2, w.pasid.getD (2 ^ 20), w.page] []
      |> updEng (fun e => { e with ringWaits := e.ringWaits.map (fun x => if x = w then { x with prg := true } else x) })
  else ringWaitFault w d

/-- A Translation Completion (R434). -/
def translated (v : Nat) (pasid : Option Nat) (page : Nat) (ok : Bool) (to_ : Nat) (read write : Bool) (d : Dev) : Dev :=
  let ws := d.eng.ats.filter (fun w => waitsFor v pasid page w && !w.prg)
  let e : AtcEntry := ⟨v, pasid, page, to_, read, write⟩
  let good := fun a : Access => ok && e.allows a
  let rs := d.eng.ringWaits.filter (fun w => w.waitsOn v pasid page && w.asked && !w.prg)
  if ws.isEmpty ∧ rs.isEmpty then d
  else
    d |> onlyIf (ok && (read || write)) (addAtc e)
      |> updEng (fun x => { x with ats := x.ats.map (fun w =>
          if waitsFor v pasid page w && !w.prg && good w.acc then { w with xlat := some (e.apply w.acc) } else w) })
      |> forEach (ws.filter (fun w => !good w.acc)) (fun w => noPermission w.acc)
      |> issueAll v
      |> (if ok && read then ringRun (d.eng.ringWaits.length + 1) else forEach rs ringNoPermission)

/-- R434: a Translation Completion fills the cache, or leads to a Page Request or a failure; `pasid` 2^20 for none. -/
def execAtsTranslationCompletion (vh pasid page : Nat) (ok : Bool) (to_ : Nat) (read write : Bool) (s : State) : Out :=
  onEng (translated vh (pasidOf pasid) page ok to_ read write) s

/-- Ring entries whose Page Request for a page is answered ask for their translation again (R434). -/
def askAgain (v : Nat) (pasid : Option Nat) (page : Nat) (d : Dev) : Dev :=
  onlyIf (d.eng.ringWaits.any (fun w => w.waitsOn v pasid page && w.prg)) (fun d => d
    |> updEng (fun e => { e with ringWaits := e.ringWaits.map (fun w => if w.waitsOn v pasid page then { w with prg := false } else w) })
    |> askPage v pasid page) d

/-- The accesses whose Page Request for a page is out. -/
def prgWaits (v : Nat) (pasid : Option Nat) (page : Nat) (d : Dev) : List AtsWait :=
  d.eng.ats.filter (fun w => waitsFor v pasid page w && w.prg)

/-- Ring accesses whose page request failed (R434). -/
def prgFailed (v : Nat) (pasid : Option Nat) (page : Nat) (d : Dev) : Dev :=
  d |> forEach (prgWaits v pasid page d) (fun w => accessFault w.acc) |> issueAll v
    |> forEach (d.eng.ringWaits.filter (fun w => w.waitsOn v pasid page && w.prg)) ringWaitFault

/-- R434: a Page Request group response lets a waiting ring access ask again, or fails it. -/
def execPrgResponse (vh pasid page : Nat) (ok : Bool) (s : State) : Out :=
  onEng (fun d =>
    let ws := prgWaits vh (pasidOf pasid) page d
    if ok then
      d |> updEng (fun e => { e with ats := e.ats.map (fun w => if ws.contains w then { w with prg := false } else w) })
        |> forEach ws (fun w => askPage vh w.acc.pasid (w.acc.addr / 4096))
        |> askAgain vh (pasidOf pasid) page
    else prgFailed vh (pasidOf pasid) page d) s

/-- R434: 1 ms passes without a page response, and the ring faults. -/
def execPageRequestTimeout (vh pasid page : Nat) (s : State) : Out := onEng (prgFailed vh (pasidOf pasid) page) s

/-- R434: an Invalidate Request takes the translations of a range of pages out of the cache. -/
def execAtsInvalidateRequest (vh itag pasid page pages : Nat) (s : State) : Out :=
  onEng (updEng (fun e => { e with
    atc := e.atc.filter (fun x => !(x.vh == vh && x.pasid == pasidOf pasid && decide (page ≤ x.page ∧ x.page < page + pages)))
    invals := e.invals ++ [(vh, itag, (e.reads.filter (fun r => r.vh == vh && r.waits.isEmpty
      && r.pages.any (fun x => x.1 == pasidOf pasid && decide (page ≤ x.2 ∧ x.2 < page + pages)))).map (fun r => r.tag))] })) s

/-- R434: the requests that used the invalidated entries have retired, and the invalidation completes. -/
def execAtsInvalidateComplete (vh itag : Nat) (s : State) : Out :=
  onEng (fun d =>
    match d.eng.invals.find? (fun x => x.1 == vh && x.2.1 == itag) with
    | some x =>
      if x.2.2.any (fun t => d.eng.reads.any (fun r => r.tag == t)) then d
      else d |> updEng (fun e => { e with invals := e.invals.erase x }) |> bump Reg.FUN_ATS_INV vh |> emit .tlp [256 + vh, 3, itag] []
    | none => d) s

end Sys2Proof.Machine
end

