-- ==== Sys2Proof/Machine/SwOps.lean ====
section
/-!
DEFINITION. Shared operations of the expansion switch (ch. 13): configuration space of the switch functions (R398), routing within a
virtual hierarchy (R400 to R405), TLPs on their way to EXP ports, and composite streams (R412 to R415).
-/

namespace Sys2Proof.Machine

/-! ## The switch -/

/-- Changes the state of the switch. -/
def updSw (f : Sw → Sw) (d : Dev) : Dev := { d with sw := f d.sw }

/-- What an EXP port holds beside its page. -/
def swPort (k : Nat) (d : Dev) : SwPort := smGet (fun _ => SwPort.init) d.sw.ports k

/-- Changes what an EXP port holds. -/
def updSwPort (k : Nat) (f : SwPort → SwPort) (d : Dev) : Dev :=
  updSw (fun s => { s with ports := smSet (fun _ => SwPort.init) s.ports k (f (swPort k d)) }) d

/-- The own composite ID. -/
def ownId (d : Dev) : Nat := rd Reg.DEV_COMPOSITE_ID 0 d

/-- Composite mode is on. -/
def compositeOn (d : Dev) : Bool := rd Reg.CMP_EN 0 d == 1

/-- A member number names this device; without composite mode every one does (R420). -/
def isSelf (m : Nat) (d : Dev) : Bool := !compositeOn d || m == ownId d

/-- An EXP index is in use and its port enabled. -/
def expOn (k : Nat) (d : Dev) : Bool := decide (k < 64) && rd Reg.EXP_IDX_VALID k d == 1 && rd Reg.EXP_EN k d == 1

/-- A port is upstream (R396). -/
def isUsp (k : Nat) (d : Dev) : Bool := rd Reg.EXP_ROLE k d == 1

/-- An EXP port is isolated (R407). -/
def isolated (k : Nat) (d : Dev) : Bool := rd Reg.EXP_ISO_STATE k d != 0

/-- The upstream port of a VH as an EXP index (R396). -/
def uspIdx (v : Nat) (d : Dev) : Option Nat := if rd Reg.VHC_VH_EN v d = 1 then some (rd Reg.VHC_USP v d) else none

/-- Where a VH's device lies: member, EXP index, LD (R399, R412). -/
def mapWord (w : Nat) : Nat × Nat × Nat := (bitsOf w 1 6, bitsOf w 7 6, bitsOf w 13 4)

/-- The bound port of a device number of a VH. -/
def dspAt (v dev : Nat) (d : Dev) : Option (Nat × Nat × Nat) := (smFind d.sw.maps (32 * v + dev)).map mapWord

/-- The devices of a VH that have a bound port, in order. -/
def dspsOf (v : Nat) (d : Dev) : List Nat := (List.range 32).filter (fun n => (dspAt v n d).isSome)

/-- The device of a VH that a port and LD of a member is bound as. -/
def devOf (v m k ld : Nat) (d : Dev) : Option Nat :=
  (dspsOf v d).find? (fun n => dspAt v n d == some (m, k, ld))

/-- The home of a CVH: member and LVH; without composite mode a number names the LVH itself (R403, R412). -/
def homeOf (c : Nat) (d : Dev) : Option (Nat × Nat) :=
  if compositeOn d then smFind d.sw.cvhs c else if c < 16 then some (ownId d, c) else none

/-! ## Configuration space of the switch functions (R398) -/

/-- Keys of the switch functions: upstream port, management function, downstream port. -/
def mgmtKey (v : Nat) : Nat := 16 + v
/-- A downstream port. -/
def dspKey (v dev : Nat) : Nat := 32 + 32 * v + dev

/-- Defaults of what software writes: the AER masks and severities of PCI Express (log entry 44). -/
def swDflt : Nat → Byte := fun off =>
  match off with
  | 0x10A => 0x40
  | 0x10E => 0x44
  | 0x115 => 0xE0
  | _ => 0

/-- A stored byte of a switch function. -/
def swByte (key off : Nat) (d : Dev) : Byte := smGet swDflt (smGet (fun _ => []) d.sw.cfgs key) off

/-- The four stored bytes of a doubleword. -/
def swStored (key off : Nat) (d : Dev) : Nat := ofLe ((List.range 4).map (fun i => swByte key (off + i) d))

/-- Gives the stored bytes of a doubleword. -/
def putSwCfg (key off val : Nat) (d : Dev) : Dev :=
  let c := (List.range 4).foldl (fun c i => smSet swDflt c (off + i) (BitVec.ofNat 8 (val / 256 ^ i))) (smGet (fun _ => []) d.sw.cfgs key)
  updSw (fun s => { s with cfgs := smSet (fun _ => []) s.cfgs key c }) d

/-- The header and capabilities of a function return to their defaults, sticky bits excepted (R409). -/
def resetSwCfg (key : Nat) (d : Dev) : Dev :=
  let c := (smGet (fun _ => []) d.sw.cfgs key).filter (fun e => stickyCfg e.1)
  updSw (fun s => { s with cfgs := smSet (fun _ => []) s.cfgs key c }) d

/-- A port of a VH offers CXL. -/
def vhCxl (v : Nat) (d : Dev) : Bool :=
  (match uspIdx v d with | some k => rd Reg.EXP_CXL_EN k d == 1 | none => false) ||
  (dspsOf v d).any (fun n => match dspAt v n d with
    | some (m, k, _) => isSelf m d && rd Reg.EXP_CXL_EN k d == 1
    | none => false)

/-- The VSEC's data word (R398). -/
def vsecWord (v k : Nat) (mgmt : Bool) (d : Dev) : Nat :=
  ownId d + 64 * v + 1024 * rd Reg.VHC_CVH v d + 2 ^ 18 * k + 2 ^ 24 * bnat mgmt

/-- Link Status of an EXP port. -/
def expLink (k : Nat) (d : Dev) : Nat :=
  rd Reg.EXP_SPEED k d + 16 * rd Reg.EXP_WIDTH k d + 2 ^ 13 * rd Reg.EXP_DL_ACTIVE k d

/-- Configuration space of a switch port: `dsp` tells a downstream port, `k` its EXP index where it is local (R398, R402, R411). PCI
Express Base 6.2 gives the layout of the capabilities (PRESUMED, log entry 44). -/
def portCfg (v : Nat) (dsp : Bool) (k : Nat) (d : Dev) (off : Nat) : CfgWord :=
  let cxl := if dsp then rd Reg.EXP_CXL_EN k d == 1 else vhCxl v d
  let gen := rd Reg.EXP_MAX_GEN k d
  let width := portWidth (rd Reg.EXP_PORT k d) d
  match off with
  | 0x00 => ⟨(if dsp then 0x7141 else 0x7140) * 65536 + 0x1F5A, 0, 0⟩
  | 0x04 => ⟨0x00100000, 0x0546, 0xF9000000⟩
  | 0x08 => ⟨0x06040001, 0, 0⟩
  | 0x0C => ⟨0x00010000, 0xFF, 0⟩
  | 0x10 => if cxl then ⟨4, barMask 16 false, 0⟩ else ⟨0, 0, 0⟩
  | 0x14 => if cxl then ⟨0, 0xFFFFFFFF, 0⟩ else ⟨0, 0, 0⟩
  | 0x18 => ⟨0, 0x00FFFFFF, 0⟩
  | 0x1C => ⟨0, 0, 0xF9000000⟩
  | 0x20 => ⟨0, 0xFFF0FFF0, 0⟩
  | 0x24 => ⟨0x00010001, 0xFFF0FFF0, 0⟩
  | 0x28 => ⟨0, 0xFFFFFFFF, 0⟩
  | 0x2C => ⟨0, 0xFFFFFFFF, 0⟩
  | 0x34 => ⟨0x40, 0, 0⟩
  | 0x3C => ⟨0, 0x004300FF, 0⟩
  | 0x40 => ⟨(if dsp then 0x0162 else 0x0052) * 65536 + 0x8010, 0, 0⟩
  | 0x44 => ⟨0x8022, 0, 0⟩
  | 0x48 => ⟨0, 0x01EF, 0xF0000⟩
  | 0x4C => ⟨gen + 16 * width + (if dsp then 0x180000 else 0) + 2 ^ 24 * rd Reg.EXP_PORT k d, 0, 0⟩
  | 0x50 => ⟨65536 * expLink k d, if dsp then 0xD0 else 0xC0, 0⟩
  | 0x54 => if dsp then ⟨0x00040060, 0, 0⟩ else ⟨0, 0, 0⟩
  | 0x58 => if dsp then ⟨2 ^ 22 * bnat (swPort k d).prsnt, 0x1028, 0x1080000⟩ else ⟨0, 0, 0⟩
  | 0x64 => ⟨0x00210840 + (if dsp then 0x20 else 0), 0, 0⟩
  | 0x68 => ⟨0, 0x84A0, 0⟩
  | 0x6C => ⟨2 * (2 ^ gen - 1), 0, 0⟩
  | 0x70 => ⟨0, 0xF, 0⟩
  | 0x80 => ⟨if dsp then 0x00039001 else 0x00030001, 0, 0⟩
  | 0x84 => ⟨0, 3, 0⟩
  | 0x90 => if dsp then ⟨0x00800005, 0x10000, 0⟩ else ⟨0, 0, 0⟩
  | 0x94 => if dsp then ⟨0, 0xFFFFFFFC, 0⟩ else ⟨0, 0, 0⟩
  | 0x98 => if dsp then ⟨0, 0xFFFFFFFF, 0⟩ else ⟨0, 0, 0⟩
  | 0x9C => if dsp then ⟨0, 0xFFFF, 0⟩ else ⟨0, 0, 0⟩
  | 0x100 => ⟨0x14820001, 0, 0⟩
  | 0x104 => ⟨0, 0, aerUncBits⟩
  | 0x108 => ⟨0, aerUncBits, 0⟩
  | 0x10C => ⟨0, aerUncBits, 0⟩
  | 0x110 => ⟨0, 0, aerCorBits⟩
  | 0x114 => ⟨0, aerCorBits, 0⟩
  | 0x118 => ⟨0, 0, 0⟩
  | 0x148 => ⟨0x15810025, 0, 0⟩
  | 0x158 => ⟨0x18810026, 0, 0⟩
  | 0x188 => ⟨0x1A81002A, 0, 0⟩
  | 0x1A8 => ⟨0x1C810031, 0, 0⟩
  | 0x1C8 => ⟨(if dsp then 0x1F0 else 0x300) * 2 ^ 20 + 0x10027, 0, 0⟩
  | 0x1F0 => if dsp then ⟨0x2001000D, 0, 0⟩ else ⟨0, 0, 0⟩
  | 0x1F4 => if dsp then ⟨0x5F, 0x5F0000, 0⟩ else ⟨0, 0, 0⟩
  | 0x200 => if dsp then ⟨0x3001001D, 0, 0⟩ else ⟨0, 0, 0⟩
  | 0x204 => if dsp then ⟨0, 0x000F0000, 0⟩ else ⟨0, 0, 0⟩
  | 0x208 => if dsp then ⟨0, 0, 9⟩ else ⟨0, 0, 0⟩
  | 0x300 => ⟨(if cxl then 0x340 else 0) * 2 ^ 20 + 0x1000B, 0, 0⟩
  | 0x304 => ⟨0x00C10007, 0, 0⟩
  | 0x308 => ⟨vsecWord v k false d, 0, 0⟩
  | 0x340 => if cxl then ⟨0x00010023, 0, 0⟩ else ⟨0, 0, 0⟩
  | _ => ⟨0, 0, 0⟩

/-- Configuration space of the management function (R398). -/
def mgmtCfg (v : Nat) (d : Dev) (off : Nat) : CfgWord :=
  let anchor := rd Reg.CMP_ROLE 0 d == 1 || rd Reg.CMP_ROLE 0 d == 2
  match off with
  | 0x00 => ⟨0x71421F5A, 0, 0⟩
  | 0x04 => ⟨0x00100000, 0x0546, 0xF9000000⟩
  | 0x08 => ⟨0x08800001, 0, 0⟩
  | 0x0C => ⟨0, 0xFF, 0⟩
  | 0x10 => ⟨4, barMask 26 false, 0⟩
  | 0x14 => ⟨0, 0xFFFFFFFF, 0⟩
  | 0x18 => if anchor then ⟨4, barMask 32 false, 0⟩ else ⟨0, 0, 0⟩
  | 0x1C => if anchor then ⟨0, barMask 32 true, 0⟩ else ⟨0, 0, 0⟩
  | 0x20 => ⟨4, barMask 14 false, 0⟩
  | 0x24 => ⟨0, 0xFFFFFFFF, 0⟩
  | 0x34 => ⟨0x40, 0, 0⟩
  | 0x3C => ⟨0, 0xFF, 0⟩
  | 0x40 => ⟨0x00028010, 0, 0⟩
  | 0x44 => ⟨0x8022, 0, 0⟩
  | 0x48 => ⟨0, 0x01EF, 0xF0000⟩
  | 0x80 => ⟨0x00039001, 0, 0⟩
  | 0x84 => ⟨0, 3, 0⟩
  | 0x90 => ⟨0x00000011, 0xC0000000, 0⟩
  | 0x94 => ⟨4, 0, 0⟩
  | 0x98 => ⟨0x2004, 0, 0⟩
  | 0x100 => ⟨0x14820001, 0, 0⟩
  | 0x104 => ⟨0, 0, aerUncBits⟩
  | 0x108 => ⟨0, aerUncBits, 0⟩
  | 0x10C => ⟨0, aerUncBits, 0⟩
  | 0x110 => ⟨0, 0, aerCorBits⟩
  | 0x114 => ⟨0, aerCorBits, 0⟩
  | 0x148 => ⟨0x3001002E, 0, 0⟩
  | 0x300 => ⟨0x0001000B, 0, 0⟩
  | 0x304 => ⟨0x00C10007, 0, 0⟩
  | 0x308 => ⟨vsecWord v 0 true d, 0, 0⟩
  | _ => ⟨0, 0, 0⟩

/-- A doubleword of a switch function as a configuration read returns it. -/
def swCfgRead (w : CfgWord) (key off : Nat) (d : Dev) : Nat :=
  Nat.lor w.val (Nat.land (swStored key off d) (Nat.lor w.rw w.w1c))

/-- A bit of a switch function's configuration space. -/
def swBit (key off bit : Nat) (d : Dev) : Bool := bitOf (swStored key off d) bit

/-- Secondary and subordinate bus of a bridge. -/
def secBus (key : Nat) (d : Dev) : Nat := bitsOf (swStored key 0x18 d) 8 8
/-- Subordinate bus. -/
def subBus (key : Nat) (d : Dev) : Nat := bitsOf (swStored key 0x18 d) 16 8

/-- A bridge forwards an address downstream: Memory Space Enable, and one of its two windows holds it (R400). -/
def bridgeHas (key a : Nat) (d : Dev) : Bool :=
  let m := swStored key 0x20 d
  let p := swStored key 0x24 d
  let lo := fun w : Nat => bitsOf w 4 12 * 2 ^ 20
  let hi := fun w : Nat => bitsOf w 20 12 * 2 ^ 20 + 2 ^ 20 - 1
  swBit key 0x04 1 d &&
    (decide (lo m ≤ a ∧ a ≤ hi m) ||
     decide (lo p + 2 ^ 32 * swStored key 0x28 d ≤ a ∧ a ≤ hi p + 2 ^ 32 * swStored key 0x2C d))

/-- A base address register of 2^`n` bytes at two stored words holds an address. -/
def barHolds (lo hi n a : Nat) : Bool :=
  let b := (lo / 16 * 16 + 2 ^ 32 * hi) / 2 ^ n
  a / 2 ^ n == b

/-- The network function of a VH decodes an address (R424). -/
def netHolds (v a : Nat) (d : Dev) : Bool :=
  let w := fun o => cfgStored v o d
  let ap := (aperInForce v d).1
  cfgBit v 0x04 1 d && rd Reg.FUN_PRESENT v d == 1 &&
    (barHolds (w 0x10) (w 0x14) 24 a || barHolds (w 0x18) (w 0x1C) 21 a || (ap != 0 && barHolds (w 0x20) (w 0x24) ap a))

/-- The management function is on this VH (R397). -/
def hasMgmt (v : Nat) (d : Dev) : Bool := rd Reg.DEV_MGMT_VH 0 d == v

/-- The management function of a VH decodes an address (R398). -/
def mgmtHolds (v a : Nat) (d : Dev) : Bool :=
  let w := fun o => swStored (mgmtKey v) o d
  let anchor := rd Reg.CMP_ROLE 0 d == 1 || rd Reg.CMP_ROLE 0 d == 2
  hasMgmt v d && swBit (mgmtKey v) 0x04 1 d &&
    (barHolds (w 0x10) (w 0x14) 26 a || (anchor && barHolds (w 0x18) (w 0x1C) 32 a) || barHolds (w 0x20) (w 0x24) 14 a)

/-! ## Routing within a virtual hierarchy (R400 to R405) -/

/-- Where a TLP goes: out of the upstream port, to a device of the VH, to a function on the internal bus (0 network, 1 management,
2 a bridge itself), through a peer window, or nowhere. -/
inductive SwDest where
  | host (v : Nat)
  | dev (v n : Nat)
  | all (v : Nat)
  | fn (v which : Nat)
  | peer (w v n addr : Nat)
  | ur
  | ca
  | drop
deriving DecidableEq, Repr

/-- A TLP is non-posted and expects completions. -/
def Tlp.nonPosted (t : Tlp) : Bool := [1, 4, 5, 6, 7].contains t.kind

/-- A TLP is a completion or a CXL.mem response. -/
def Tlp.response (t : Tlp) : Bool := t.kind == 2 || t.kind == 8 || t.kind == 9

/-- The list of R401 a TLP waits in. -/
def Tlp.cls (t : Tlp) : Nat :=
  match t.kind with
  | 0 | 3 => 1
  | 1 | 4 | 5 => 2
  | 2 => 3
  | _ => 4

/-- The class of composite carriage (R413). -/
def Tlp.vcClass (t : Tlp) : Nat :=
  match t.kind with
  | 0 | 3 | 7 | 10 => 0
  | 1 | 4 | 5 | 6 => 1
  | _ => 2

/-- The TYPE of composite carriage (R413). -/
def Tlp.compType (t : Tlp) : Nat :=
  match t.kind with
  | 6 => 1
  | 7 => 2
  | 8 => 3
  | 9 => 4
  | _ => 0

/-- The committed HDM decoder of a VH that claims an address, and the port number it names (R404). -/
def hdmTarget (v a : Nat) (d : Dev) : Option Nat :=
  let dec := fun i => smGet (fun _ => (⟨0, 0, 0, 0⟩ : Hdm)) d.sw.hdm (8 * v + i)
  ((List.range 8).find? (fun i => bitOf (dec i).ctl 10 && decide ((dec i).base ≤ a ∧ a < (dec i).base + (dec i).size))).map
    (fun i =>
      let h := dec i
      let gran := 256 * 2 ^ bitsOf h.ctl 0 4
      let ways := 2 ^ bitsOf h.ctl 4 4
      bitsOf h.targets (8 * ((a - h.base) / gran % ways)) 8)

/-- The port number of a device of a VH: that of its port, which another member's device knows (R404, R412). -/
def portNumber (v n : Nat) (d : Dev) : Nat :=
  match dspAt v n d with
  | some (m, k, _) => if isSelf m d then rd Reg.EXP_PORT k d else (Config.farPort m k).toNat
  | none => 0

/-- The device whose port number a decoder names (R404). -/
def devByPort (v p : Nat) (d : Dev) : Option Nat := (dspsOf v d).find? (fun n => portNumber v n d == p)

/-- The device of a VH that runs CXL.cache (R405). -/
def cacheDev (v : Nat) (d : Dev) : Option Nat :=
  (dspsOf v d).find? (fun n => match dspAt v n d with
    | some (m, k, ld) => isSelf m d && rd Reg.EXP_CACHE_EN k d == 1 && ld == 0
    | none => false)

/-- A downstream port of a VH forwards an address. -/
def devByAddr (v a : Nat) (d : Dev) : Option Nat := (dspsOf v d).find? (fun n => bridgeHas (dspKey v n) a d)

/-- A downstream port of a VH holds a bus. -/
def devByBus (v b : Nat) (d : Dev) : Option Nat :=
  (dspsOf v d).find? (fun n => decide (secBus (dspKey v n) d ≤ b ∧ b ≤ subBus (dspKey v n) d ∧ 0 < secBus (dspKey v n) d))

/-- A memory request that has reached the internal bus (R397, R400). -/
def onBus (v a : Nat) (d : Dev) : Option SwDest :=
  if netHolds v a d then some (.fn v 0)
  else if mgmtHolds v a d then some (.fn v 1)
  else (devByAddr v a d).map (SwDest.dev v)

/-- An ID-routed TLP on the internal bus (R397, R400). -/
def busById (v bdf : Nat) (d : Dev) : Option SwDest :=
  let b := bdf / 256
  let n := bdf / 8 % 32
  if b = secBus v d then
    (if n = 0 then some (.fn v 0) else if n = 1 ∧ hasMgmt v d then some (.fn v 1)
     else if (dspAt v n d).isSome then some (.fn v 2) else none)
  else (devByBus v b d).map (SwDest.dev v)

/-- A TLP from the host (R400, R404, R405). -/
def fromHost (v : Nat) (t : Tlp) (d : Dev) : SwDest :=
  match t.kind with
  | 6 | 7 =>
    (match (hdmTarget v t.addr d).bind (fun p => devByPort v p d) with
     | some n => .dev v n
     | none => .ur)
  | 8 | 9 => .drop
  | 10 => (match cacheDev v d with | some n => .dev v n | none => .drop)
  | 3 =>
    (match t.route with
     | 3 => .all v
     | 2 => (busById v t.bdf d).getD .ur
     | 1 => if bridgeHas v t.addr d then (onBus v t.addr d).getD .ur else .ur
     | 4 => .fn v 2
     | _ => .drop)
  | 2 => (busById v t.bdf d).getD .drop
  | 5 => (busById v t.bdf d).getD .ur
  | _ =>
    if vhCxl v d && swBit v 0x04 1 d && barHolds (swStored v 0x10 d) (swStored v 0x14 d) 16 t.addr then .fn v 2
    else if bridgeHas v t.addr d then (onBus v t.addr d).getD .ur
    else .ur

/-- ACS of a downstream port (R402): 0 Source Validation, 1 Translation Blocking, 2 P2P Request Redirect, 3 P2P Completion Redirect,
4 Upstream Forwarding, 6 Direct Translated P2P. -/
def acs (key bit : Nat) (d : Dev) : Bool := swBit key 0x1F4 (16 + bit) d

/-- The peer window that takes a posted write of a source port (R403). -/
def peerWin (k : Nat) (t : Tlp) (d : Dev) : Option (Nat × List Nat) :=
  d.sw.pws.findSome? (fun e =>
    let w := e.2.1
    let base := wpair w 2
    if wbits w 0 0 1 == 1 && wbits w 0 1 6 == k && decide (base ≤ t.addr ∧ t.addr + t.len ≤ base + 2 ^ wbits w 0 20 6) then some (e.1, w)
    else none)

/-- A TLP from a device of a VH, bound here or at another member; `k` the source port where it is on this device (R400 to R405). -/
def fromDev (v n : Nat) (k : Option Nat) (t : Tlp) (d : Dev) : SwDest :=
  let key := dspKey v n
  let peerReq := fun x : Option SwDest => match x with
    | some (.dev v m) => if m = n then (if acs key 4 d then .host v else SwDest.ur) else
        if acs key 2 d && !(t.at_ == 2 && acs key 6 d) then .host v else .dev v m
    | some (.fn v w) => if acs key 2 d && !(t.at_ == 2 && acs key 6 d) then .host v else .fn v w
    | _ => .ur
  match (if t.kind = 0 then k.bind (fun k => peerWin k t d) else none) with
  | some (i, w) =>
    (match homeOf (wbits w 0 7 8) d with
     | some (_, lv) => .peer i lv (wbits w 0 15 5) (wpair w 4 + (t.addr - wpair w 2))
     | none => .ur)
  | none =>
    match t.kind with
    | 8 | 9 => .host v
    | 10 => if cacheDev v d = some n then .host v else .drop
    | 3 =>
      (match t.route with
       | 0 => .host v
       | 2 => (match busById v t.bdf d with | some x => x | none => .host v)
       | 1 => if bridgeHas v t.addr d then peerReq (onBus v t.addr d) else .host v
       | 4 => .fn v 2
       | _ => .drop)
    | 2 =>
      let b := t.bdf / 256
      if secBus v d ≤ b ∧ b ≤ subBus v d then
        (if acs key 3 d && !t.ro then .host v else (busById v t.bdf d).getD .drop)
      else .host v
    | _ =>
      let b := t.req / 256
      if acs key 0 d && !decide (secBus key d ≤ b ∧ b ≤ subBus key d) then .ca
      else if acs key 1 d && t.at_ = 2 then .ca
      else if !swBit key 0x04 2 d then .ur
      else if bridgeHas v t.addr d then peerReq (onBus v t.addr d)
      else if swBit v 0x04 2 d then .host v
      else .ur

/-! ## TLPs to a local port -/

/-- Bytes of a completion without data: status 0 SC, 1 UR, 2 CRS, 4 CA. -/
def cplBytes (completer status req tag : Nat) : List Byte :=
  [0x0A, 0, 0, 0] ++ beBytes 2 completer ++ beBytes 2 (status * 8192 + 4) ++ beBytes 2 req ++ [BitVec.ofNat 8 tag, 0]

/-- A completion without data as the switch makes it. -/
def cplTlp (completer status req tag : Nat) : Tlp :=
  { kind := 2, tc := 0, addr := 0, len := 0, at_ := 0, req := req, tag := tag, bdf := req, route := 2, ro := false, poison := false
    last := true, ld := 0, bytes := cplBytes completer status req tag }

/-- A successful completion with data. -/
def cplWith (completer req tag : Nat) (data : List Byte) : Tlp :=
  let n := (data.length + 3) / 4
  { cplTlp completer 0 req tag with
    len := data.length
    bytes := [0x4A, 0, BitVec.ofNat 8 (n / 256), BitVec.ofNat 8 n] ++ beBytes 2 completer ++ beBytes 2 data.length
      ++ beBytes 2 req ++ [BitVec.ofNat 8 tag, 0] ++ data }

/-- The poisoned response to a CXL.mem request that no decoder claims (R404). -/
def poisonedResp (t : Tlp) : Tlp :=
  { t with kind := if t.kind = 6 then 9 else 8, poison := true, last := true, bytes := [] }

/-- A TLP enters the core on its way out of a port: stored in full where R178 has it stored or the egress line is faster (R28, R191,
R401). -/
def queueTlp (inP p : Nat) (t : Tlp) (d : Dev) : Dev :=
  let id := d.net.nextPkt
  let forced := forcedStore inP p d
  let q := { Packet.fresh id inP 0 0 t.bytes.length 8 (stampOf d) with
    bytes := t.bytes, tail := true, poison := t.poison, eg := p, queue := queueFor p 1 t.tc d
    store := forced || rd Reg.LNK_FWD p d == 1, colour := t.colour, mark := t.mark
    cls := t.cls, ro := t.ro, dlen := if t.kind = 0 ∨ t.kind = 2 ∨ t.kind = 7 ∨ t.kind = 9 then t.len else 0 }
  d |> onlyIf forced (bump Reg.LNK_FORCED_STORE p) |> pushPkt q |> settle id

/-- A poisoned TLP is forwarded with EP set: counted, and raised for the first in 1 ms (R408, R422). -/
def notePoison (k : Nat) (d : Dev) : Dev :=
  let due : Bool := match (swPort k d).poisonAt with | some t => decide (t + 1000000 ≤ d.th.localNs) | none => true
  d |> bump Reg.EXP_POISON_FWD k
    |> onlyIf due (fun d => d |> updSwPort k (fun p => { p with poisonAt := some d.th.localNs }) |> raise Ev.EXP_POISON k)

/-- Sends a TLP out of an EXP port of this device. -/
def toExp (inP k : Nat) (t : Tlp) (d : Dev) : Dev :=
  d |> onlyIf t.poison (notePoison k)
    |> onlyIf (isUsp k d) (bump Reg.VHC_TLP_UP (rd Reg.EXP_LVH k d))
    |> queueTlp inP (rd Reg.EXP_PORT k d) t

/-- The completer ID of a downstream port of a VH: its place on the internal bus. -/
def dspId (v n : Nat) (d : Dev) : Nat := secBus v d * 256 + n * 8

/-! ## Composite streams (R413, R414) -/

/-- The key of a stream: member and class. -/
def streamKey (m c : Nat) : Nat := 4 * m + c

/-- The sending side of a stream. -/
def txOf (m c : Nat) (d : Dev) : CompTx := smGet (fun _ => ⟨0, [], [], 0⟩) d.sw.tx (streamKey m c)

/-- Changes the sending side of a stream. -/
def updTx (m c : Nat) (f : CompTx → CompTx) (d : Dev) : Dev :=
  updSw (fun s => { s with tx := smSet (fun _ => ⟨0, [], [], 0⟩) s.tx (streamKey m c) (f (txOf m c d)) }) d

/-- The receiving side of a stream. -/
def rxOf (m c : Nat) (d : Dev) : CompRx := smGet (fun _ => ⟨0, 0, false, [], []⟩) d.sw.rx (streamKey m c)

/-- Changes the receiving side of a stream. -/
def updRx (m c : Nat) (f : CompRx → CompRx) (d : Dev) : Dev :=
  updSw (fun s => { s with rx := smSet (fun _ => ⟨0, 0, false, [], []⟩) s.rx (streamKey m c) (f (rxOf m c d)) }) d

/-- The composite header (R413). -/
def compHeader (p : CompPkt) : List Byte :=
  leBytes 1 (p.type + 16 * p.cls) ++ leBytes 1 p.cvh ++ leBytes 1 p.src ++ leBytes 1 p.dst ++ leBytes 1 p.dexp ++ leBytes 1 p.ld
    ++ beBytes 2 p.cseq ++ beBytes 2 p.pfence ++ beBytes 2 p.ackSeq ++ List.replicate 4 0

/-- The virtual channel of a composite packet. -/
def compVc (p : CompPkt) : Nat := 5 + (if 5 ≤ p.type then 2 else p.cls)

/-- What a composite packet carries after its routing header. -/
def compBody (p : CompPkt) : List Byte := compHeader p ++ (if 5 ≤ p.type then [] else p.tlp.bytes)

/-- The routing header of a composite packet before injection. -/
def compHdr (inP : Nat) (p : CompPkt) (d : Dev) : Nat :=
  0 |> hput .DLID (smGet (fun _ => 0xFFFFF) d.sw.lids p.dst) |> hput .SLID (rd Reg.RTE_MY_LID (inIsland inP) d) |> hput .ILID noIlid
    |> hput .TC (free 4 d) |> hput .PLEN (16 + (compBody p).length) |> hput .NXT 5 |> hput .FLOW (free 16 (takeFree d))

/-- A composite packet as the fabric carries it; the mirror sessions judged its TLP as it came (R181). -/
def compPacket (inP : Nat) (p : CompPkt) (hdr : Nat) (d : Dev) : Packet :=
  { Packet.fresh d.net.nextPkt inP 0 hdr (16 + (compBody p).length) (2 * compVc p) (stampOf d) with
    bytes := beBytes 16 hdr ++ compBody p, tail := true, colour := p.tlp.colour, mark := p.tlp.mark
    seen := if p.type < 5 then 255 else 0 }

/-- Sends a composite packet over the network from an EXP port or the hierarchy controller: VC5 to VC7 on the escape sub-channel, ACK
and NAK on VC7; its TC and FLOW the spec leaves open, free values (R413, log entry 46). -/
def sendComp (inP : Nat) (p : CompPkt) (d : Dev) : Dev :=
  let r := d |> takeFree |> takeFree |> injectHeader (inIsland inP) (compVc p) (compHdr inP p d)
  r.2 |> emit .comp [p.dst, p.cvh, p.type, p.cls, p.cseq, p.pfence, p.dexp, p.ld, p.ackSeq] []
    |> pushPkt (compPacket inP p r.1 r.2) |> lookUp r.2.net.nextPkt |> settle r.2.net.nextPkt

/-- Holds the cells of a packet against its ingress port's credit reservation until the packet is acknowledged (R414). -/
def holdCells (inP : Nat) (t : Tlp) (d : Dev) : Dev :=
  let id := d.net.nextPkt
  d |> pushPkt { Packet.fresh id inP 0 0 t.bytes.length 8 (stampOf d) with bytes := t.bytes, tail := true } |> admitCells id
    |> markIn id |> mirrorPkt id false

/-- Puts a packet on its stream: sent, or waiting while 16,384 are outstanding (R414). -/
def streamSend (inP : Nat) (p : CompPkt) (hold : Nat) (d : Dev) : Dev :=
  let x := txOf p.dst p.cls d
  if 16384 ≤ x.out.length then updTx p.dst p.cls (fun x => { x with wait := x.wait ++ [(p, hold)] }) d
  else
    let fence := ((txOf p.dst 0 d).next + 65535) % 65536
    let p1 := { p with cseq := x.next, pfence := if p.cls = 0 then 0 else fence }
    d |> updTx p.dst p.cls (fun x => { x with next := (x.next + 1) % 65536, out := x.out ++ [(p1, hold)] })
      |> bump Reg.CMP_TX 0 |> sendComp inP p1

/-- The composite packet of a TLP for another member. -/
def memberPkt (m cvh dexp ld : Nat) (t : Tlp) (d : Dev) : CompPkt :=
  { type := t.compType, cls := t.vcClass, cvh := cvh, src := ownId d, dst := m, dexp := dexp, ld := ld, cseq := 0, pfence := 0
    ackSeq := 0, tlp := t }

/-- A TLP goes to another member (R413, R414). -/
def toMember (inP m cvh dexp ld : Nat) (t : Tlp) (d : Dev) : Dev :=
  d |> holdCells inP t |> streamSend inP (memberPkt m cvh dexp ld t d) d.net.nextPkt

/-- Cells of the largest completion of a request, with its network and composite headers (R415). -/
def cplCells (t : Tlp) : Nat := (44 + (if t.kind = 1 then t.len else 64) + 255) / 256

/-- Cells reserved for completions of requests to other members (R415). -/
def cplHeld (d : Dev) : Nat := ((d.sw.rsv.filter (fun x => d.sw.remote.contains x.1)).map (fun x => x.2)).sum

/-- The cells of a request's largest completion can be reserved; one request is always carried (R415, log entry 126). -/
def cplFits (n : Nat) (d : Dev) : Bool := cplHeld d == 0 || decide (cplHeld d + n ≤ Config.cplRoom)

/-- A home's request goes to another member with its completion's cells reserved (R415). -/
def sendFar (w : FarWait) (d : Dev) : Dev :=
  d |> updSw (fun s => { s with
        rsv := s.rsv.filter (fun x => s.remote.contains x.1) ++ [(w.who, w.cells)]
        remote := s.remote ++ [w.who] })
    |> streamSend w.inP w.pkt w.hold

/-- The home's requests that waited go out in order, as far as the cells of their completions are free (R415). -/
def sendFars : Nat → Dev → Dev
  | 0, d => d
  | n + 1, d =>
    match d.sw.farWait with
    | [] => d
    | w :: ws => if cplFits w.cells d then d |> updSw (fun s => { s with farWait := ws }) |> sendFar w |> sendFars n else d

/-- A TLP of a home goes to another member; a non-posted one once the cells of its largest completion are reserved (R415). -/
def toFar (inP m cvh dexp ld : Nat) (who : NpReq) (t : Tlp) (d : Dev) : Dev :=
  if !t.nonPosted then toMember inP m cvh dexp ld t d
  else
    d |> holdCells inP t
      |> updSw (fun s => { s with farWait := s.farWait ++ [⟨inP, memberPkt m cvh dexp ld t d, d.net.nextPkt, who, cplCells t⟩] })
      |> sendFars (d.sw.farWait.length + 1)

/-- The ACK of a stream: the last CSEQ accepted (R414). -/
def sendAckTo (m c : Nat) (d : Dev) : Dev :=
  let x := rxOf m c d
  d |> updRx m c (fun x => { x with since := 0, due := false })
    |> sendComp 163 { type := 5, cls := c, cvh := 0, src := ownId d, dst := m, dexp := 0, ld := 0, cseq := 0, pfence := 0
                      ackSeq := (x.expect + 65535) % 65536, tlp := cplTlp 0 0 0 0 }

/-! ## Delivery to a device (R400, R407, R415) -/

/-- A completion that this device makes goes back toward the requester (R400, R407, R415). -/
def answerWith (r : NpReq) (t : Tlp) (d : Dev) : Dev :=
  if r.member < 64 then
    let cvh := r.vh
    let id := d.net.nextPkt
    d |> holdCells 163 t
      |> streamSend 163 { type := t.compType, cls := t.vcClass, cvh := cvh, src := ownId d, dst := r.member, dexp := 0, ld := 0, cseq := 0
                          pfence := 0, ackSeq := 0, tlp := t } id
  else
    match devByBus r.vh (r.req / 256) d with
    | some n => (match dspAt r.vh n d with
        | some (m, k, ld) => if isSelf m d then toExp 163 k t d else toMember 163 m (rd Reg.VHC_CVH r.vh d) k ld t d
        | none => d)
    | none => (match uspIdx r.vh d with | some k => toExp 163 k t d | none => d)

/-- A completion without data goes back toward the requester of a request that this device ends itself: status 1 UR, 4 CA (R400, R407,
R415). -/
def answerReq (r : NpReq) (completer status : Nat) (d : Dev) : Dev :=
  answerWith r (if r.kind = 6 ∨ r.kind = 7 then poisonedResp { cplTlp completer status r.req r.tag with kind := r.kind }
    else cplTlp completer status r.req r.tag) d

/-- A home's device of a local port: the bindings whose VH is homed here. -/
def homedAt (k : Nat) (d : Dev) : List (Nat × Nat) := (swPort k d).bound.filterMap (fun b => b.2.2)

/-- The status of completions that isolation makes: CA where the host has set DPC Completion Control (R407). -/
def isoStatus (k : Nat) (d : Dev) : Nat :=
  if (homedAt k d).any (fun h => swBit (dspKey h.1 h.2) 0x204 18 d) then 4 else 1

/-- A TLP for a downstream port of this device: dropped or answered while the port is isolated or its link is down, else forwarded; a
non-posted request is tracked until its last completion (R407). -/
def toDsp (inP k : Nat) (who : NpReq) (t : Tlp) (d : Dev) : Dev :=
  if isolated k d || rd Reg.EXP_DL_ACTIVE k d == 0 then
    d |> onlyIf (isolated k d && !t.nonPosted && !t.response) (bump Reg.EXP_ISO_DROP k)
      |> onlyIf t.nonPosted (fun d =>
          if isolated k d then d |> bump Reg.EXP_CPL_SYN k |> answerReq who 0 (isoStatus k d)
          else d |> bump Reg.EXP_UR_SENT k |> answerReq who 0 1)
  else
    d |> onlyIf t.nonPosted (fun d => d |> updSwPort k (fun p => { p with np := p.np ++ [who] })
            |> wr Reg.EXP_NP_OUT k ((swPort k d).np.length + 1))
      |> toExp inP k t

/-- A TLP for a device of a VH that is homed here, its port on this device or another member (R399, R415). -/
def toDev (inP v n : Nat) (t : Tlp) (d : Dev) : Dev :=
  match dspAt v n d with
  | none => d
  | some (m, k, ld) =>
    if isSelf m d then toDsp inP k ⟨v, t.req, t.tag, 64, t.kind⟩ { t with ld := ld } d
    else toFar inP m (rd Reg.VHC_CVH v d) k ld ⟨v, t.req, t.tag, m, t.kind⟩ t d

/-- A register of a slice's block in BAR2 (R428, R448): its fields with their places. -/
def blockWord (off : Nat) : List (Fld × Nat) :=
  match off with
  | 0x20 => [(Reg.SLC_EVR_BASE_LO, 0)]
  | 0x24 => [(Reg.SLC_EVR_BASE_HI, 0)]
  | 0x28 => [(Reg.SLC_EVR_LOG, 0), (Reg.SLC_EVR_VEC, 16), (Reg.SLC_EVR_ARMED, 30), (Reg.SLC_EVR_EN, 31)]
  | 0x2C => [(Reg.SLC_EVR_PI, 0), (Reg.SLC_EVR_CI, 16)]
  | 0x30 => [(Reg.SLC_CMR_BASE_LO, 0)]
  | 0x34 => [(Reg.SLC_CMR_BASE_HI, 0)]
  | 0x38 => [(Reg.SLC_CMR_LOG, 0), (Reg.SLC_CMR_EN, 31)]
  | 0x3C => [(Reg.SLC_CMR_CI, 0)]
  | 0x40 => [(Reg.SLC_MPR_BASE_LO, 0)]
  | 0x44 => [(Reg.SLC_MPR_BASE_HI, 0)]
  | 0x48 => [(Reg.SLC_MPR_LOG, 0), (Reg.SLC_MPR_EN, 31)]
  | 0x4C => [(Reg.SLC_MPR_CI, 0)]
  | _ => []

/-- A doubleword of the MSI-X table: address, data, mask (R428). -/
def msixWord (v off : Nat) (d : Dev) : Nat :=
  let e := smGet (fun _ => (0, 0, true)) (funOf v d).msix (off / 16)
  match off % 16 / 4 with
  | 0 => e.1 % 2 ^ 32
  | 1 => e.1 / 2 ^ 32
  | 2 => e.2.1
  | _ => bnat e.2.2

/-- A doubleword of BAR2 as the function reads it: the MSI-X table, the pending bits, and the blocks of its slices; the rest is reserved
and reads zero (R428). -/
def bar2Word (v off : Nat) (d : Dev) : Nat :=
  if off < 0x8000 then msixWord v off d
  else if off < 0x8100 then
    ((List.range 32).map (fun i => if (funOf v d).pba.any (fun x => x.1 == 8 * (off - 0x8000) + i) then 2 ^ i else 0)).sum
  else if 0x100000 ≤ off then
    let n := (off - 0x100000) / 0x100
    if slState n d = slFree ∨ slRd Reg.SLC_VH n d ≠ v then 0
    else ((blockWord (off % 0x100)).map (fun f => slRd f.1 n d * 2 ^ f.2)).sum
  else 0

/-- What a read of the register BARs of a network function returns: zeros for the doorbell pages (R427), BAR2 by doubleword (R428); none
for an address of neither. -/
def barRead (v : Nat) (t : Tlp) (d : Dev) : Option (List Byte) :=
  let w := fun o => cfgStored v o d
  if barHolds (w 0x10) (w 0x14) 24 t.addr then some (List.replicate t.len 0)
  else if barHolds (w 0x18) (w 0x1C) 21 t.addr then
    let a := t.addr % 2 ^ 21
    let b := (List.range ((a % 4 + t.len + 3) / 4)).flatMap (fun i => leBytes 4 (bar2Word v (a / 4 * 4 + 4 * i) d))
    some ((b.drop (a % 4)).take t.len)
  else none

/-- A doubleword written to the MSI-X table; bit 0 of the last of an entry masks its vector, and unmasking sends what pends (R428, R445). -/
def msixWrite (v off val : Nat) (d : Dev) : Dev :=
  d |> updFun v (fun f =>
        let e := smGet (fun _ => (0, 0, true)) f.msix (off / 16)
        { f with msix := smSet (fun _ => (0, 0, true)) f.msix (off / 16) (match off % 16 / 4 with
            | 0 => (e.1 / 2 ^ 32 * 2 ^ 32 + val / 4 * 4, e.2)
            | 1 => (e.1 % 2 ^ 32 + val * 2 ^ 32, e.2)
            | 2 => (e.1, val, e.2.2)
            | _ => (e.1, e.2.1, val % 2 == 1)) })
    |> sendPended v

/-- A write to the MSI-X table by a TLP; the others at the register BARs are commands of their own. -/
def barWrite (v : Nat) (t : Tlp) (d : Dev) : Dev :=
  let a := t.addr % 2 ^ 21
  if barHolds (cfgStored v 0x18 d) (cfgStored v 0x1C d) 21 t.addr && decide (a + t.len ≤ 0x8000) && a % 4 == 0 && t.len % 4 == 0 then
    let data := t.bytes.drop (t.bytes.length - t.len)
    forEach (List.range (t.len / 4)) (fun i => msixWrite v (a + 4 * i) (ofLe ((data.drop (4 * i)).take 4))) d
  else d

/-- A function on the internal bus takes a TLP: a network function answers reads of its register BARs and takes writes of the MSI-X
table (R427, R428); what a doorbell, a bridge or a register access does is its own command. -/
def toFn (v which : Nat) (t : Tlp) (d : Dev) : Dev :=
  let d1 := emit .tlp [256 + v, 16 + which, t.kind, t.addr, t.len, t.req, t.tag] t.bytes d
  if which ≠ 0 then d1
  else if t.kind = 1 then
    match barRead v t d with
    | some bs => answerWith ⟨v, t.req, t.tag, 64, t.kind⟩ (cplWith (dspId v 0 d) t.req t.tag bs) d1
    | none => d1
  else if t.kind = 0 then barWrite v t d1
  else d1

/-- A window of the bridge aperture of a VH takes an address (R309, R429). -/
def aperHolds (v a : Nat) (d : Dev) : Bool :=
  let ap := (aperInForce v d).1
  ap != 0 && barHolds (cfgStored v 0x20 d) (cfgStored v 0x24 d) ap a

/-- A request uses an option that the function taking it does not have: an AtomicOp but to the bridge aperture, or a non-posted request
that is neither a read nor an AtomicOp (R7). -/
def absentOption (v which : Nat) (t : Tlp) (d : Dev) : Bool :=
  t.kind == 5 || (t.kind == 4 && !(which == 0 && aperHolds v t.addr d))

/-- Sends a TLP of a VH to where it is routed; `from_` is the EXP index that counts a request completed UR (R400). -/
def toDest (inP from_ v : Nat) (t : Tlp) (x : SwDest) (d : Dev) : Dev :=
  let back := fun st d => answerReq ⟨v, t.req, t.tag, 64, t.kind⟩ (dspId v 0 d) st d
  match x with
  | .host v => (match uspIdx v d with | some k => toExp inP k t d | none => d)
  | .dev v n => toDev inP v n t d
  | .all v => forEach (dspsOf v d) (fun n => toDev inP v n t) d
  | .fn v w => if absentOption v w t d then back 1 d else toFn v w t d
  | .peer i v n a =>
    let id := d.net.nextPkt
    d |> bump Reg.VHC_PW_WRITES 0 |> toDev inP v n { t with addr := a }
      |> (fun d => onlyIf (pktOf id d).isSome (updSw (fun s => { s with pwOut := s.pwOut ++ [(i, id)] })) d)
  | .ur => onlyIf t.nonPosted (fun d => d |> onlyIf (t.kind != 6 && t.kind != 7) (bump Reg.EXP_UR_SENT from_) |> back 1) d
  | .ca => onlyIf t.nonPosted (back 4) d
  | .drop => d

end Sys2Proof.Machine
end

