-- ==== Sys2Proof/Machine/CmpOps.lean ====
section
/-!
DEFINITION. The members of a composite and the election of its anchor and standby anchor (R87, R88, R416).
-/

namespace Sys2Proof.Machine

/-- Changes what the device knows of its composite. -/
def updCmp (f : Composite → Composite) (d : Dev) : Dev := { d with cmp := f d.cmp }

/-- The record this device calls (R87): after a warm reset it offers the ID it held. -/
def ownRoll (d : Dev) : RollRec :=
  { serial := d.otp.serial, prio := rd Reg.CMP_ANCHOR_PRIO 0 d
    pref := match d.cmp.rejoin with | some i => some i | none => d.cmp.prefId
    anchor := d.cmp.anchorId
    curId := (d.cmp.ids.find? (fun x => x.1 == d.otp.serial)).map (fun x => x.2) }

/-- Puts a record into a list by rising serial. -/
def insRoll (r : RollRec) : List RollRec → List RollRec
  | [] => [r]
  | x :: xs => if r.serial ≤ x.serial then r :: x :: xs else x :: insRoll r xs

/-- This device and those heard, by rising serial. -/
def callers (d : Dev) : List RollRec := (ownRoll d :: d.cmp.heard).foldr insRoll []

/-- The highest anchor priority, the lowest serial on a tie; a priority of 0 is never chosen (R87 item 3). -/
def bestOf (l : List RollRec) : Option RollRec :=
  l.foldl (fun b r =>
    if r.prio = 0 then b
    else match b with
      | none => some r
      | some x => if x.prio < r.prio ∨ (x.prio = r.prio ∧ r.serial < x.serial) then some r else b) none

/-- The composite ID assigned to a serial. -/
def idOf (ids : List (Nat × Nat)) (serial : Nat) : Option Nat := (ids.find? (fun x => x.1 == serial)).map (fun x => x.2)

/-- The standby anchor beside an anchor: the next in the order of R87 among the members that can be reached. -/
def standbyFor (anchor : Option Nat) (d : Dev) : Option Nat :=
  let ids := d.cmp.ids
  (bestOf ((callers d).filter (fun r => match idOf ids r.serial with
    | some i => some i != anchor && !d.sw.unreach.contains i
    | none => false))).bind (fun r => idOf ids r.serial)

/-- Shows the composite on the CMP page (R421). Role: 0 none, 1 member, 2 standby anchor, 3 anchor. -/
def showCmp (d : Dev) : Dev :=
  let c := d.cmp
  let map := c.ids.foldl (fun m x => setBit m x.2) 0
  d |> wr Reg.CMP_ROLE 0 (if c.standalone then 3 else match c.role with | 3 => 1 | 2 => 2 | _ => 0)
    |> wr Reg.CMP_ANCHOR_ID 0 (c.anchorId.getD 0) |> wr Reg.CMP_STANDBY_ID 0 (c.standbyId.getD 0)
    |> wr2 Reg.CMP_MEMBERS_LO Reg.CMP_MEMBERS_HI 0 0 map

/-- The role that anchor and standby give a device. -/
def roleOf (own anchor standby : Option Nat) : Nat :=
  if own.isNone then 0 else if own = anchor then 3 else if own = standby then 2 else 1

/-- Anchor and standby anchor take their places. -/
def setRoles (anchor standby : Option Nat) (d : Dev) : Dev :=
  d |> updCmp (fun c => { c with anchorId := anchor, standbyId := standby
                                 role := roleOf (idOf c.ids d.otp.serial) anchor standby })
    |> showCmp

/-- The anchor elects a new standby anchor where its standby was lost (R88). -/
def standbyLost (m : Nat) (d : Dev) : Dev :=
  if d.cmp.role = 3 ∧ d.cmp.standbyId = some m then setRoles d.cmp.anchorId (standbyFor d.cmp.anchorId d) d else d

end Sys2Proof.Machine
end

