-- ==== Sys2Proof/Machine/ExpOps.lean ====
section
/-!
DEFINITION. What happens to an EXP port (ch. 13): its link, slot wires (R411), isolation and release (R407, R408), hot reset (R409),
binding (R399), and the composite streams on the receiving side (R414, R415).
-/

namespace Sys2Proof.Machine

/-! ## Slot wires (R411) -/

/-- Wire `w` of the slot group that a downstream port is joined to is the DX7's own (R323, R411). -/
def ownsWire (k w : Nat) (d : Dev) : Bool :=
  rd Reg.EXP_SLOT_EN k d == 1 && wireSrc (rdI Reg.BRG_WIRE_MAP 0 (rd Reg.EXP_SLOT k d) d) w == 31

/-- The downstream ports joined to a slot group whose wire `w` the DX7 owns. -/
def slotPorts (slot w : Nat) (d : Dev) : List Nat :=
  (List.range 64).filter (fun k => rd Reg.EXP_IDX_VALID k d == 1 && !isUsp k d && rd Reg.EXP_SLOT k d == slot && ownsWire k w d)

/-- PERST_N is held asserted: the port is unbound, isolated, disabled, or its Secondary Bus Reset is set (R411). -/
def perstHeld (k : Nat) (d : Dev) : Bool :=
  (swPort k d).bound.isEmpty || isolated k d || rd Reg.EXP_EN k d == 0 || (swPort k d).sbr

/-- Drives PERST_N of a port's slot, where the DX7 owns it. -/
def drivePerst (k : Nat) (high : Bool) (d : Dev) : Dev :=
  if (swPort k d).perst = high then d
  else d |> updSwPort k (fun p => { p with perst := high })
         |> onlyIf (ownsWire k 0 d) (emit .pin [0, 8 * rd Reg.EXP_SLOT k d, bnat high] [])

/-! ## What a port's function shows its host (R398, R411) -/

/-- A downstream port's message signalled interrupt, where enabled. -/
def portMsi (v n : Nat) (d : Dev) : Dev :=
  let key := dspKey v n
  onlyIf (swBit key 0x90 16 d && swBit key 0x04 2 d)
    (emit .tlp [256 + v, 18, swStored key 0x94 d + 2 ^ 32 * swStored key 0x98 d, swStored key 0x9C d] []) d

/-- Sets a changed bit of Slot Status, 19 Presence Detect Changed or 24 Data Link Layer State Changed, and interrupts where Slot
Control enables it. -/
def slotChange (bit : Nat) (v n : Nat) (d : Dev) : Dev :=
  let key := dspKey v n
  let en := if bit = 19 then 3 else 12
  d |> putSwCfg key 0x58 (setBit (swStored key 0x58 d) bit)
    |> onlyIf (swBit key 0x58 5 d && swBit key 0x58 en d) (portMsi v n)

/-- An error message of a function toward its host: the message code and the function's ID (PCI Express Base 6.2). -/
def errMsg (id code : Nat) : Tlp :=
  { cplTlp 0 0 id 0 with
    kind := 3, route := 0, bdf := 0
    bytes := [0x30, 0, 0, 0] ++ beBytes 2 id ++ [0, BitVec.ofNat 8 code] ++ List.replicate 8 0 }

/-- An uncorrectable error of a switch function: its AER status, and, as the host has masked, graded and enabled it, ERR_NONFATAL or
ERR_FATAL (R408; PRESUMED, log entry 209). -/
def aerReport (v key id bit : Nat) (d : Dev) : Dev :=
  let fatal := swBit key 0x10C bit d
  let d1 := putSwCfg key 0x104 (setBit (swStored key 0x104 d) bit) d
  match uspIdx v d with
  | some k => onlyIf (!swBit key 0x108 bit d && swBit key 0x48 (if fatal then 2 else 1) d)
      (toExp 163 k (errMsg id (if fatal then 0x33 else 0x31))) d1
  | none => d1

/-- A poisoned TLP has arrived on an EXP port: the port's function reports Poisoned TLP Received (R408). -/
def poisonSeen (k ld : Nat) (d : Dev) : Dev :=
  if isUsp k d then aerReport (rd Reg.EXP_LVH k d) (rd Reg.EXP_LVH k d) (bitsOf (swStored (rd Reg.EXP_LVH k d) 0x18 d) 0 8 * 256) 12 d
  else
    forEach ((swPort k d).bound.filter (fun b => b.1 == ld)) (fun b d => match b.2.2 with
      | some (v, n) => aerReport v (dspKey v n) (dspId v n d) 12 d
      | none => emit .comp [64, b.2.1, 23, 12, k, b.1] [] d) d

/-- A slot change of a local port, shown at the functions homed here and told to the other homes. -/
def portChange (bit k : Nat) (d : Dev) : Dev :=
  d |> forEach (homedAt k d) (fun h => slotChange bit h.1 h.2)
    |> forEach ((swPort k d).bound.filter (fun b => b.2.2.isNone)) (fun b => emit .comp [64, b.2.1, 18, bit, k, b.1] [])

/-- DPC Trigger Status at a port's function, and its interrupt where enabled (R407). -/
def dpcStatus (v n : Nat) (d : Dev) : Dev :=
  let key := dspKey v n
  d |> putSwCfg key 0x208 (Nat.lor (swStored key 0x208 d) 9) |> onlyIf (swBit key 0x204 19 d) (portMsi v n)

/-! ## The link of an EXP port -/

/-- TLPs queued for a port are discarded, and those still arriving on it end (R407). -/
def dropQueued (p : Nat) (d : Dev) : Dev :=
  d |> forEach ((d.net.pkts.filter (fun q => q.eg == p)).map (fun q => q.id)) dropPkt
    |> forEach ((d.net.pkts.filter (fun q => q.inPort == p && !q.tail)).map (fun q => q.id)) failPkt

/-- The Data Link Layer of a port goes down (R422). -/
def dlDown (k : Nat) (d : Dev) : Dev :=
  if rd Reg.EXP_DL_ACTIVE k d = 0 then d
  else
    let p := rd Reg.EXP_PORT k d
    d |> wr Reg.EXP_DL_ACTIVE k 0 |> wr Reg.EXP_SPEED k 0 |> wr Reg.EXP_WIDTH k 0 |> wr Reg.EXP_FLIT k 0 |> wr Reg.EXP_CXL_UP k 0
      |> wr Reg.LNK_LSTATE p 1 |> bump Reg.LNK_DOWN_CNT p
      |> updPort p (fun q => { q with fcHdr := [], fcData := [], fcHdrUsed := [], fcDataUsed := [] })
      |> forEach (portLanes p d) (fun n d => d |> laneBegin 1 n |> expTrain p n)
      |> dropQueued p |> raise Ev.EXP_LINK_DOWN k
      |> onlyIf (!isUsp k d) (fun d => d |> portChange 24 k
          |> onlyIf (!ownsWire k 2 d) (fun d => d |> updSwPort k (fun q => { q with prsnt := false }) |> portChange 19 k))

/-- The lanes of an EXP port as its link comes up with a width: UP with their logical position and generation; the others are off (R102,
R117). -/
def expLanesUp (p speed width : Nat) (t : Training) (d : Dev) : Dev :=
  let w := portWidth p d
  forEach (List.range w) (fun k d =>
    let n := portLane p k
    let l := if t.rev then w - 1 - k else k
    if l < width then
      d |> wr Reg.LANE_BSTATE n 7 |> wr Reg.LANE_LOCKED n 1 |> wr Reg.LANE_MODE n 1 |> wr Reg.LANE_PCIE_GEN n speed |> wr Reg.LANE_LOGICAL n l
        |> wr Reg.LANE_REVERSED n (bnat t.rev) |> wr Reg.LANE_POL_INV n (bnat (t.pol.contains k))
        |> forEach (t.eq.filter (fun e => e.1 == k)) (fun e => updLane n (fun l => { l with eq := l.eq.set e.2.1 e.2.2 }))
    else d |> wr Reg.LANE_BSTATE n 0 |> wr Reg.LANE_LOCKED n 0 |> wr Reg.LANE_MODE n 0 |> wr Reg.LANE_PCIE_GEN n 0
        |> wr Reg.LANE_LOGICAL n 15 |> emit .laneTx [n, 0] []) d

/-- The Data Link Layer of a port comes up with what was negotiated (R422). -/
def dlUp (k speed width : Nat) (flit cxl : Bool) (lds : Nat) (t : Training) (d : Dev) : Dev :=
  let p := rd Reg.EXP_PORT k d
  let was := rd Reg.EXP_DL_ACTIVE k d
  d |> wr Reg.EXP_SPEED k speed |> wr Reg.EXP_WIDTH k width |> wr Reg.EXP_FLIT k (bnat flit)
    |> wr Reg.EXP_CXL_UP k (bnat (cxl && rd Reg.EXP_CXL_EN k d == 1)) |> wr Reg.EXP_DL_ACTIVE k 1 |> wr Reg.LNK_LSTATE p 3
    |> updSwPort k (fun q => { q with lds := lds }) |> expLanesUp p speed width t
    |> onlyIf (was == 0) (fun d => d |> raise Ev.EXP_LINK_UP k
        |> onlyIf (!isUsp k d) (fun d => d
            |> onlyIf (!ownsWire k 2 d && !(swPort k d).prsnt)
                (fun d => d |> updSwPort k (fun q => { q with prsnt := true }) |> portChange 19 k)
            |> portChange 24 k))

/-! ## Isolation and release (R407, R408) -/

/-- ISO_STATE of an isolated port: the release still awaited; a free value of the two where both are (R408, log entry 56). -/
def showIso (k : Nat) (d : Dev) : Dev :=
  let p := swPort k d
  if p.needHost && p.needFm then d |> wr Reg.EXP_ISO_STATE k (2 + free 1 d) |> takeFree
  else wr Reg.EXP_ISO_STATE k (if p.needHost then 2 else 3) d

/-- An isolated port is released once both releases occurred; an UNBIND isolation waits for the next BIND (R408). -/
def tryRelease (k : Nat) (d : Dev) : Dev :=
  let p := swPort k d
  if !isolated k d then d
  else if p.needHost || p.needFm || rd Reg.EXP_ISO_CAUSE k d == 3 then showIso k d
  else d |> wr Reg.EXP_ISO_STATE k 0 |> wr Reg.EXP_ISO_CAUSE k 0 |> emit .slot [3, k, 0] [] |> raise Ev.EXP_RELEASED k

/-- Isolates a downstream port: causes 1 DPC, 2 SURPRISE_DOWN, 3 UNBIND, 4 PATH_LOST, 5 FM (R407). The steps' bounds are timing. -/
def isolate (k cause : Nat) (d : Dev) : Dev :=
  if isUsp k d then d
  else if isolated k d then
    onlyIf (cause == 3) (fun d => d |> wr Reg.EXP_ISO_CAUSE k 3 |> updSwPort k (fun p => { p with needHost := false, needFm := true })
      |> showIso k) d
  else
    let np := (swPort k d).np
    let dpc := cause == 1 || cause == 2
    let st := isoStatus k d
    d |> wr Reg.EXP_ISO_STATE k 1 |> wr Reg.EXP_ISO_CAUSE k cause |> bump Reg.EXP_ISO_CNT k
      |> updSwPort k (fun p => { p with needHost := dpc, needFm := true })
      |> emit .slot [1, k, 0] [] |> dlDown k |> dropQueued (rd Reg.EXP_PORT k d)
      |> updSwPort k (fun p => { p with np := [] }) |> wr Reg.EXP_NP_OUT k 0
      |> forEach np (fun r d => d |> bump Reg.EXP_CPL_SYN k |> answerReq r 0 st)
      |> drivePerst k false
      |> onlyIf dpc (fun d => forEach (homedAt k d) (fun h => dpcStatus h.1 h.2) d)
      |> forEach ((swPort k d).bound.filter (fun b => b.2.2.isNone)) (fun b => emit .comp [64, b.2.1, 17, cause, k, b.1] [])
      |> raise Ev.EXP_ISOLATED k |> showIso k

/-! ## Hot reset (R409) -/

/-- The link of a downstream port is taken into hot reset; its outstanding requests go with it. -/
def portHotReset (k : Nat) (d : Dev) : Dev :=
  d |> emit .slot [2, k, 0] [] |> drivePerst k false |> dlDown k |> updSwPort k (fun p => { p with np := [] }) |> wr Reg.EXP_NP_OUT k 0

/-- What lies on a VH's internal bus is reset: the downstream headers, the bound ports, local or remote, and the network function. -/
def busReset (v : Nat) (d : Dev) : Dev :=
  d |> forEach (dspsOf v d) (fun n d =>
        let d1 := resetSwCfg (dspKey v n) d
        match dspAt v n d with
        | some (m, k, _) => if isSelf m d then portHotReset k d1 else emit .comp [m, rd Reg.VHC_CVH v d, 19, k] [] d1
        | none => d1)
    |> flrStart v

/-- A hot reset of a VH, or the loss of its upstream link (R409). -/
def vhHotReset (v : Nat) (d : Dev) : Dev :=
  d |> resetSwCfg v |> resetSwCfg (mgmtKey v) |> busReset v
    |> updSw (fun s => { s with crs := smSet (fun _ => 0) s.crs v (d.th.localNs + 1000000), hdm := s.hdm.filter (fun e => e.1 / 8 != v) })
    |> raise Ev.VH_HOT_RESET v

/-- The local ports bound to a CVH homed elsewhere are taken into hot reset (R409). -/
def farHotReset (c : Nat) (d : Dev) : Dev :=
  forEach ((List.range 64).filter (fun k => (swPort k d).bound.any (fun b => b.2.1 == c && b.2.2.isNone))) portHotReset d

/-! ## Binding (R399) -/

/-- The number by which a port knows a local VH: its CVH, or the VH itself without composite mode. -/
def vhNumber (v : Nat) (d : Dev) : Nat := if compositeOn d then rd Reg.VHC_CVH v d else v

/-- BIND of a local port and LD breaks R399 (1) or R405 (2); 0 where it may be bound. `v` is the VH where it is homed here. -/
def bindBad (v : Option Nat) (k ld : Nat) (d : Dev) : Nat :=
  let p := swPort k d
  if rd Reg.EXP_IDX_VALID k d = 0 ∨ isUsp k d = true ∨ p.bound.any (fun b => b.1 == ld) = true ∨ p.wait.isSome = true
      ∨ (ld ≠ 0 ∧ (rd Reg.EXP_CXL_EN k d = 0 ∨ p.lds ≤ ld)) then 1
  else if rd Reg.EXP_CACHE_EN k d = 1 ∧ ld = 0 ∧ (match v with | some v => (cacheDev v d).isSome | none => true) = true then 2
  else 0

/-- A port records its VH and LD, and an UNBIND isolation ends (R399, R408). -/
def bindPort (k ld c : Nat) (home : Option (Nat × Nat)) (d : Dev) : Dev :=
  d |> updSwPort k (fun p => { p with bound := p.bound ++ [(ld, c, home)], wait := none })
    |> wr Reg.EXP_BOUND_CVH k c |> wr Reg.EXP_BOUND_LD k ld |> wr Reg.EXP_BOUND k 1
    |> (fun d => if isolated k d && rd Reg.EXP_ISO_CAUSE k d == 3 then
          d |> updSwPort k (fun p => { p with needHost := false, needFm := false }) |> wr Reg.EXP_ISO_CAUSE k 5 |> tryRelease k
        else d)

/-- BIND completes at the home: the map entry is in force and the host sees a hot-add (R399). -/
def bindDone (v n w : Nat) (d : Dev) : Dev :=
  let (m, k, ld) := mapWord w
  d |> updSw (fun s => { s with maps := smPut s.maps (32 * v + n) w })
    |> wr Reg.VHC_BOUND_MAP v (setBit (rd Reg.VHC_BOUND_MAP v d) n) |> wr Reg.VHC_MAP_STATUS v 0 |> wr Reg.VHC_MAP_BUSY v 0
    |> (fun d => if isSelf m d then bindPort k ld (vhNumber v d) (some (v, n)) d else emit .comp [m, vhNumber v d, 16, k, ld] [] d)
    |> slotChange 19 v n
    |> (fun d => onlyIf (isSelf m d && rd Reg.EXP_DL_ACTIVE k d == 1) (slotChange 24 v n) d)
    |> raise Ev.DSP_BOUND v

/-- The port was unbound less than 100 ms ago (R399). -/
def inHoldOff (k : Nat) (d : Dev) : Bool :=
  match (swPort k d).offAt with | some t => decide (d.th.localNs < t + 100000000) | none => false

/-- BIND on a VHC page; `grant` is what the port's device answers where it is another: 0 its checks hold, 1 or 2 as `bindBad`. -/
def bindGo (v grant : Nat) (val : Word) (d : Dev) : Dev :=
  let n := rd Reg.VHC_DSP_IDX v d
  let w := (wordAt (regAddr 0x1A v 0x108) d).toNat
  let (m, k, ld) := mapWord w
  let bad := if n < 2 ∨ bitOf w 0 = false ∨ (dspAt v n d).isSome = true then 1
    else if isSelf m d then bindBad (some v) k ld d else grant
  if rd Reg.VHC_MAP_BUSY v d = 1 then d
  else if bad = 1 then d |> wr Reg.VHC_MAP_STATUS v 1 |> cfgErr 0x1A v 0x10C Cfg.CFG_EXP_BIND val
  else if bad ≠ 0 then d |> wr Reg.VHC_MAP_STATUS v 1 |> cfgErr 0x1A v 0x10C Cfg.CFG_EXP_CACHE val
  else if !isSelf m d && d.sw.unreach.contains m then wr Reg.VHC_MAP_STATUS v 2 d
  else if isSelf m d && inHoldOff k d then
    d |> wr Reg.VHC_MAP_BUSY v 1 |> updSwPort k (fun p => { p with wait := some (v, n, w, 1, 0) })
  else bindDone v n w d

/-- A bind that another member, the home of a CVH, asks of a local port. -/
def bindFar (c k ld : Nat) (d : Dev) : Dev :=
  if bindBad none k ld d ≠ 0 then emit .comp [64, c, 20, k, ld, bindBad none k ld d] [] d
  else if inHoldOff k d then updSwPort k (fun p => { p with wait := some (0, 0, ld, 0, c) }) d
  else bindPort k ld c none d

/-- A local port loses a binding: it is isolated with cause UNBIND and the 100 ms begin (R399). -/
def unbindPort (k ld c : Nat) (d : Dev) : Dev :=
  d |> updSwPort k (fun p => { p with bound := p.bound.filter (fun b => !(b.1 == ld && b.2.1 == c)), offAt := some d.th.localNs })
    |> (fun d => wr Reg.EXP_BOUND k (bnat (!(swPort k d).bound.isEmpty)) d)

/-- UNBIND on a VHC page: the port is isolated and the host sees a surprise removal (R399). -/
def unbindGo (v : Nat) (d : Dev) : Dev :=
  let n := rd Reg.VHC_DSP_IDX v d
  if rd Reg.VHC_MAP_BUSY v d = 1 then d else
  match dspAt v n d with
  | none => wr Reg.VHC_MAP_STATUS v 1 d
  | some (m, k, ld) =>
    if !isSelf m d && d.sw.unreach.contains m then wr Reg.VHC_MAP_STATUS v 2 d
    else
      (if isSelf m d then d |> isolate k 3 |> unbindPort k ld (vhNumber v d) else emit .comp [m, vhNumber v d, 21, k, ld] [] d)
        |> slotChange 19 v n |> slotChange 24 v n
        |> updSw (fun s => { s with maps := s.maps.filter (fun e => e.1 != 32 * v + n) })
        |> wr Reg.VHC_BOUND_MAP v (clrBit (rd Reg.VHC_BOUND_MAP v d) n) |> wr Reg.VHC_MAP_STATUS v 0
        |> raise Ev.DSP_UNBOUND v

/-! ## Peer windows (R403, R420) -/

/-- The words of PW_DATA. -/
def pwData (d : Dev) : List Nat := (List.range 8).map (fun i => rdI Reg.VHC_PW_DATA 0 i d)

/-- A peer window's live and shadow words. -/
def pwOf (i : Nat) (d : Dev) : List Nat × List Nat := smGet (fun _ => (List.replicate 8 0, List.replicate 8 0)) d.sw.pws i

/-- Gives a peer window its words; PW_VALID counts the valid ones. -/
def putPw (i : Nat) (x : List Nat × List Nat) (d : Dev) : Dev :=
  d |> updSw (fun s => { s with pws := smSet (fun _ => (List.replicate 8 0, List.replicate 8 0)) s.pws i x })
    |> (fun d => wr Reg.VHC_PW_VALID 0 (d.sw.pws.filter (fun e => wbits e.2.1 0 0 1 == 1)).length d)

/-- An entry keeps to the table of R403. -/
def pwOk (w : List Nat) (d : Dev) : Bool :=
  let sz := wbits w 0 20 6
  let src := wbits w 0 1 6
  decide (12 ≤ sz ∧ sz ≤ 40 ∧ 2 ≤ wbits w 0 15 5) && wbits w 0 26 6 == 0 && w.getD 1 0 == 0 && w.getD 6 0 == 0 && w.getD 7 0 == 0 &&
  wpair w 2 % 2 ^ sz == 0 && wpair w 4 % 2 ^ sz == 0 &&
  rd Reg.EXP_IDX_VALID src d == 1 && !isUsp src d &&
  (match homeOf (wbits w 0 7 8) d with
   | some (m, v) => isSelf m d && (dspAt v (wbits w 0 15 5) d).isSome
   | none => false)

/-- The fences of peer windows whose earlier writes have all retired complete (R308, R403). -/
def pwFences (d : Dev) : Dev :=
  let done := d.sw.pwFence.filter (fun f => f.2.all (fun id => (pktOf id d).isNone))
  d |> updSw (fun s => { s with pwFence := s.pwFence.filter (fun f => !done.contains f)
                                pwOut := s.pwOut.filter (fun x => (pktOf x.2 d).isSome) })
    |> forEach done (fun _ => raise Ev.PEER_FENCE_DONE 0)

/-- COMMIT of a peer window: checked and swapped in; writes of earlier mappings retire before its fence completes (R308, R403). -/
def pwCommit (v : Word) (d : Dev) : Dev :=
  let i := rd Reg.VHC_PW_IDX 0 d
  let (_, sh) := pwOf i d
  if wbits sh 0 0 1 = 0 ∨ pwOk sh d = true then
    let d1 := putPw i (sh, sh) d
    let out := ((d1.sw.pwOut.filter (fun x => x.1 == i)).map (fun x => x.2)).filter (fun id => (pktOf id d1).isSome)
    d1 |> updSw (fun s => { s with pwFence := s.pwFence.filter (fun f => f.1 != i) ++ [(i, out)] }) |> pwFences
  else cfgErr 0x1A 0 0x204 Cfg.CFG_PEER_WIN v d

/-- The defined bits of a peer window entry (R403). -/
def pwMask : List Nat := [0x3FFFFFF, 0, 0xFFFFFFFF, 0xFFFFFFFF, 0xFFFFFFFF, 0xFFFFFFFF, 0, 0]

/-- The commands of PW_CMD, by bit (R420). -/
def pwCmd (bit : Nat) (v : Word) (d : Dev) : Dev :=
  let i := rd Reg.VHC_PW_IDX 0 d
  let x := pwOf i d
  let show_ := fun ws d => forEach (List.range 8) (fun j d => wrI Reg.VHC_PW_DATA 0 j (ws.getD j 0) d) d
  match bit with
  | 0 => show_ x.1 d
  | 1 => show_ x.2 d
  | 2 => putPw i (x.1, maskRow pwMask (pwData d)) d
  | 3 => pwCommit v d
  | 4 => putPw i (x.1, x.1) d
  | _ => d

/-! ## Composite streams, receiving side (R414, R415) -/

/-- A request of another member for a local port. -/
def farReq (p : CompPkt) : NpReq := ⟨p.cvh, p.tlp.req, p.tlp.tag, p.src, p.tlp.kind⟩

/-- A request is the one a completion answers. -/
def NpReq.answered (r : NpReq) (t : Tlp) : Bool := r.req == t.req && r.tag == t.tag

/-- A TLP from a device of a VH. PME_TO_Ack is gathered from the VH's ports, and goes up once each has sent it (R400). -/
def devTlp (inP from_ v n : Nat) (k : Option Nat) (t : Tlp) (d : Dev) : Dev :=
  if t.kind = 3 ∧ t.route = 5 then
    let heard := n :: smGet (fun _ => []) d.sw.gather v
    if (dspsOf v d).all (fun n => heard.contains n) then
      d |> updSw (fun s => { s with gather := smSet (fun _ => []) s.gather v [] }) |> toDest inP from_ v t (.host v)
    else updSw (fun s => { s with gather := smSet (fun _ => []) s.gather v heard }) d
  else toDest inP from_ v t (fromDev v n k t d) d

/-- An accepted composite packet is passed on: toward the local downstream port it names, or, at the home of its VH, where the VH
routes it (R400, R412). -/
def passComp (p : CompPkt) (d : Dev) : Dev :=
  let t := p.tlp
  let d0 := d |> onlyIf (t.response && t.last) (updSw (fun s => { s with
    remote := s.remote.filter (fun r => !(r.answered t && r.member == p.src)) }))
  match homeOf p.cvh d0 with
  | some (m, v) =>
    if isSelf m d0 then
      let from_ := (uspIdx v d0).getD 0
      if t.response then toDest 163 from_ v t ((busById v t.bdf d0).getD (.host v)) d0
      else match devByBus v (t.req / 256) d0 with
        | some n => devTlp 163 from_ v n none t d0
        | none => toDest 163 from_ v t (.host v) d0
    else toDsp 163 p.dexp (farReq p) { t with ld := p.ld } d0
  | none => toDsp 163 p.dexp (farReq p) { t with ld := p.ld } d0

/-- The class 0 packet that a PFENCE names has been passed on and has left the core (R415). -/
def fenceOpen (src pfence : Nat) (d : Dev) : Bool :=
  let x := rxOf src 0 d
  decide ((x.expect + 65535 - pfence) % 65536 < 32768) &&
  x.c0.all (fun c => decide (32768 ≤ (pfence + 65536 - c.1) % 65536) || (pktOf c.2 d).isNone)

/-- Passes on what waits on a stream, oldest first, as far as its fences are open. -/
def releaseStream (src c : Nat) : Nat → Dev → Dev
  | 0, d => d
  | n + 1, d =>
    match (rxOf src c d).wait with
    | [] => d
    | p :: ps => if fenceOpen src p.pfence d then d |> updRx src c (fun x => { x with wait := ps }) |> passComp p |> releaseStream src c n
                 else d

/-- Every fenced packet whose fence is open is passed on, requests that waited for their completion's cells go out (R415), and peer window
fences complete. -/
def releaseFenced (d : Dev) : Dev :=
  d |> updSw (fun s => { s with rx := s.rx.map (fun e => (e.1, { e.2 with c0 := e.2.c0.filter (fun c => (pktOf c.2 d).isSome) })) })
    |> forEach (d.sw.rx.filter (fun e => !e.2.wait.isEmpty)) (fun e d =>
        releaseStream (e.1 / 4) (e.1 % 4) (rxOf (e.1 / 4) (e.1 % 4) d).wait.length d)
    |> (fun d => sendFars d.sw.farWait.length d) |> pwFences

/-- A packet of a stream arrives at its receiver (R414, R415). -/
def compArrive (p : CompPkt) (d : Dev) : Dev :=
  let x := rxOf p.src p.cls d
  let diff := (p.cseq + 65536 - x.expect) % 65536
  if diff = 0 then
    let d1 := d |> updRx p.src p.cls (fun x => { x with expect := (x.expect + 1) % 65536, since := x.since + 1, due := true })
      |> bump Reg.CMP_RX 0
    let d2 := if p.cls = 0 then
        let id := d1.net.nextPkt
        let d3 := passComp p d1
        onlyIf (pktOf id d3).isSome (updRx p.src 0 (fun x => { x with c0 := x.c0 ++ [(p.cseq, id)] })) d3
      else if (p.tlp.kind = 2 ∧ p.tlp.ro = true) ∨ ((rxOf p.src p.cls d1).wait.isEmpty = true ∧ fenceOpen p.src p.pfence d1 = true) then
        passComp p d1
      else d1 |> updRx p.src p.cls (fun x => { x with wait := x.wait ++ [p] }) |> bump Reg.CMP_FENCE_WAIT 0
    d2 |> (fun d => onlyIf (decide (32 ≤ (rxOf p.src p.cls d).since)) (sendAckTo p.src p.cls) d) |> releaseFenced
  else if 32768 ≤ diff then d |> bump Reg.CMP_DUP 0 |> sendAckTo p.src p.cls
  else sendComp 163 { type := 6, cls := p.cls, cvh := 0, src := ownId d, dst := p.src, dexp := 0, ld := 0, cseq := 0, pfence := 0
                      ackSeq := x.expect, tlp := cplTlp 0 0 0 0 } d

/-! ## Composite streams, sending side (R414) -/

/-- Packets that waited for the 16,384 go out. -/
def sendWaiting (m c : Nat) : Nat → Dev → Dev
  | 0, d => d
  | n + 1, d =>
    match (txOf m c d).wait with
    | [] => d
    | (p, h) :: ps =>
      if (txOf m c d).out.length < 16384 then
        d |> updTx m c (fun x => { x with wait := ps }) |> streamSend 163 p h |> sendWaiting m c n
      else d

/-- Frees the packets of a stream up to a CSEQ: their cells return, and the count of passes starts anew (R414). -/
def ackStream (m c seq : Nat) (d : Dev) : Dev :=
  let x := txOf m c d
  let gone := x.out.filter (fun e => decide ((seq + 65536 - e.1.cseq) % 65536 < 32768))
  if gone.isEmpty then d
  else
    d |> updTx m c (fun x => { x with out := x.out.filter (fun e => !gone.contains e), passes := 0 })
      |> forEach gone (fun e => dropPkt e.2) |> sendWaiting m c x.wait.length

/-- The ports bound across a member pair are isolated, and requests to the member end (R414, R418). -/
def memberLost (m : Nat) (d : Dev) : Dev :=
  let far := fun k => (swPort k d).bound.any (fun b => b.2.2.isNone && (homeOf b.2.1 d).any (fun h => h.1 == m))
  let late := d.sw.farWait.filter (fun w => w.who.member == m)
  let reqs := d.sw.remote.filter (fun r => r.member == m && decide (r.vh < 16)) ++ late.map (fun w => w.who)
  let held := [0, 1, 2].flatMap (fun c => (txOf m c d).out ++ (txOf m c d).wait) ++ late.map (fun w => (w.pkt, w.hold))
  d |> updSw (fun s => { s with
        unreach := s.unreach ++ [m], remote := s.remote.filter (fun r => r.member != m)
        farWait := s.farWait.filter (fun w => w.who.member != m) })
    |> bump Reg.CMP_UNREACH_CNT 0
    |> forEach held (fun e => dropPkt e.2)
    |> forEach [0, 1, 2] (fun c d => d |> updTx m c (fun x => { x with out := [], wait := [], passes := 0 })
        |> updRx m c (fun x => { x with wait := [] }))
    |> forEach ((List.range 64).filter far) (fun k => isolate k 4)
    |> forEach reqs (fun r => answerReq { r with member := 64 } 0 1)
    |> raise Ev.CMP_MEMBER_LOST 0 |> standbyLost m

/-- A resend pass of a stream, or, after CMP_RETRY passes without an advance, its member is unreachable (R414). -/
def resendStream (m c : Nat) (d : Dev) : Dev :=
  let x := txOf m c d
  if x.out.isEmpty then d
  else if rd Reg.CMP_RETRY 0 d ≤ x.passes then memberLost m d
  else
    d |> updTx m c (fun x => { x with passes := x.passes + 1 }) |> addI Reg.CMP_RESENT 0 0 x.out.length
      |> forEach x.out (fun e => sendComp 163 e.1)

end Sys2Proof.Machine
end

