-- ==== Sys2Proof/Machine/Hooks.lean ====
section
/-!
DEFINITION. What other blocks do once a command on links, lanes or the datapath has had its effect: a port that went down fails
collective trees (R383) and time service (R469); a port that came up to a DX7 carries the roll-call (R87); packets that left the core open
fences (R403, R415).
-/

namespace Sys2Proof.Machine

/-- Ports that are UP in `b` and not in `a`. -/
def newlyUp (a b : Dev) : List Nat := (List.range 144).filter (fun p => portUp p b && !portUp p a)

/-- A record goes out on a port. -/
def sendRoll (p : Nat) (r : RollRec) (d : Dev) : Dev :=
  emit .rollCall [p, r.serial, r.prio, r.pref.getD 64, r.anchor.getD 64, r.curId.getD 64] [] d

/-- A port leads to another DX7 (R87). -/
def toDx7 (p : Nat) (d : Dev) : Bool := portUp p d && pers (p / 8) d == 2 && rd Reg.LNK_PARTNER_DX7 p d == 1

/-- A port that came up to another DX7 carries the roll-call: the own record and those heard. -/
def rollOn (p : Nat) (d : Dev) : Dev :=
  onlyIf (compositeOn d && toDx7 p d) (fun d => forEach (ownRoll d :: d.cmp.heard) (sendRoll p) d) d

/-- The effects on other blocks of what changed from `a`. -/
def settleNet (a b : Dev) : Dev :=
  b |> forEach (newlyUp b a) (fun p d => d |> collPortDown p |> timePortDown p) |> forEach (newlyUp a b) rollOn |> releaseFenced

/-- The effect of a command on links, lanes or the datapath. -/
def withNet (f : Dev → Dev) (d : Dev) : Dev := settleNet d (f d)

/-- A command on links, lanes or the datapath. -/
def onNet (f : Dev → Dev) (s : State) : Out := onDev (withNet f) s

end Sys2Proof.Machine
end

