-- ==== Sys2Proof/Machine/Eth.lean ====
section
/-!
DEFINITION. The meanings of the Ethernet commands (ch. 05): frames, priority flow control and the state of the PCS; the gateway
table (R227).
-/

namespace Sys2Proof.Machine

/-- The priority and DEI of a frame: the PCP of its first VLAN tag, or DEF_PRIO; tags of IEEE 802.1Q (R148, R208). -/
def framePrio (p : Nat) (fr : List Byte) (d : Dev) : Nat × Bool :=
  let et := ofBe ((fr.drop 12).take 2)
  if et = 0x8100 ∨ et = 0x88A8 then ((fr.getD 14 0).toNat / 32, bitOf (fr.getD 14 0).toNat 4)
  else (rd Reg.ETH_DEF_PRIO p d, false)

/-- The traffic class of a priority (R152). -/
def prioTc (p prio : Nat) (d : Dev) : Nat := bitsOf (rd Reg.ETH_PRIO_TC p d) (4 * prio) 4

/-- The gateway entry of a MAC address, lowest index first (R225, R227). -/
def gatewayOf (isl mac : Nat) (d : Dev) : Option Nat :=
  let base := tblKey isl 4 0 0
  (d.net.tables.find? (fun kv =>
    decide (base ≤ kv.1 ∧ kv.1 < base + 4096) && bitsOf kv.2 0 48 == mac && bitOf kv.2 63)).map (fun kv => kv.2 / 2 ^ 64)

/-- The address that the gateway table is asked for: a group address uses the entry of FF:FF:FF:FF:FF:FF (R227). -/
def gatewayMac (fr : List Byte) : Nat :=
  if bitOf (fr.getD 0 0).toNat 0 then 2 ^ 48 - 1 else ofBe (fr.take 6)

/-- PFC: the cells of a priority exceed XOFF, so a PFC frame goes out (R149). -/
def pfcCheck (p prio : Nat) (d : Dev) : Dev :=
  if bitOf (rd Reg.ETH_PFC_EN p d) prio ∧ bitOf (portOf p d).xoff prio = false ∧
      rdI Reg.ETH_XOFF p prio d < heldBy (fun r => r.inPort == p && r.inLane == prio) cellsHeld d then
    d |> updPort p (fun q => { q with xoff := setBit q.xoff prio })
      |> emit .pfc [p, prio, rd Reg.ETH_PFC_QUANTA p d] [] |> addI Reg.ETH_PFC_TX p prio 1
  else d

/-- A frame for a port of this router, as the core holds it. -/
def localFrame (p prio port : Nat) (fr : List Byte) (d : Dev) : Packet :=
  { Packet.fresh d.net.nextPkt p prio (hput .TC (prioTc p prio d) 0) fr.length 8 (stampOf d) with
    bytes := fr, tail := true, eg := port, queue := queueFor port 4 (prioTc p prio d) d, store := true }

/-- Takes in a frame for a port of this router. -/
def admitHere (p prio pre port : Nat) (fr : List Byte) (d : Dev) : Dev :=
  d |> pushPkt (localFrame p prio port fr d) |> meterPkt d.net.nextPkt p (prioTc p prio d) pre fr.length
    |> onlyIf (forcedStore p port d) (bump Reg.LNK_FORCED_STORE port)
    |> settle d.net.nextPkt

/-- The routing header of a frame for a port of another router, before injection. -/
def frameHdr (p prio dlid n : Nat) (d : Dev) : Nat :=
  0 |> hput .DLID dlid |> hput .SLID (rd Reg.RTE_MY_LID (p / 8) d) |> hput .ILID noIlid |> hput .TC (prioTc p prio d)
    |> hput .PLEN (20 + n) |> hput .NXT 3 |> hput .FLOW (free 16 d)

/-- A frame for a port of another router, as the fabric carries it. -/
def carriedFrame (p prio port hdr : Nat) (fr : List Byte) (d : Dev) : Packet :=
  { Packet.fresh d.net.nextPkt p prio hdr (20 + fr.length) 8 (stampOf d) with
    bytes := beBytes 16 hdr ++ [BitVec.ofNat 8 port, 0, 0, 0] ++ fr, tail := true }

/-- Takes in a frame for a port of another router. -/
def admitAway (p prio pre port dlid : Nat) (fr : List Byte) (d : Dev) : Dev :=
  let id := d.net.nextPkt
  let r := injectHeader (p / 8) 4 (frameHdr p prio dlid fr.length d) (takeFree d)
  r.2 |> pushPkt (carriedFrame p prio port r.1 fr r.2) |> meterPkt id p (prioTc p prio d) pre (20 + fr.length)
    |> (fun d => if (pktOf id d).isSome then d |> lookUp id |> settle id else d)

/-- A frame with a gateway entry enters the core: for a local port without a network header, else on VC4 with NXT = 3 and the shim
(R148, R221, R227). Its FLOW the spec leaves to the originator: a free value (log entry 18). -/
def admitFrame (p prio : Nat) (dei : Bool) (e : Nat) (fr : List Byte) (d : Dev) : Dev :=
  let dlid := bitsOf e 0 20
  let here := match findKey (p / 8) dlid d with | some f => bitOf f.entry 26 | none => false
  let pre := if dei then 1 else 0
  if here then admitHere p prio pre (bitsOf e 20 8) fr d else admitAway p prio pre (bitsOf e 20 8) dlid fr d

/-- An Ethernet frame, FCS included (R148, R149, R227). -/
def ethFrameRx (p : Nat) (fcsOk : Bool) (fr : List Byte) (d : Dev) : Dev :=
  if rd Reg.ETH_PCS_UP p d = 0 then d
  else if fr.length < 64 ∨ rd Reg.ETH_MAX_FRAME p d < fr.length then bump Reg.ETH_LEN_ERR p d
  else if fcsOk = false then bump Reg.ETH_FCS_ERR p d
  else
    let (prio, dei) := framePrio p fr d
    let d1 := bump Reg.ETH_FRAMES_RX p d
    match gatewayOf (p / 8) (gatewayMac fr) d with
    | none => bump Reg.RTE_GW_MISS (p / 8) d1
    | some e => d1 |> admitFrame p prio dei e fr |> pfcCheck p prio

/-- A pause of a priority ends: PAUSED counts it in µs (R149, R152). -/
def resumePrio (p prio : Nat) (d : Dev) : Dev :=
  if bitOf (portOf p d).paused prio then
    let t := smGet (fun _ => 0) (portOf p d).pausedAt prio
    d |> addI Reg.ETH_PAUSED p prio ((d.th.localNs - t) / 1000)
      |> updPort p (fun q => { q with paused := clrBit q.paused prio })
  else d

/-- A PFC frame for a priority: it pauses with non-zero quanta and resumes with zero (R149). -/
def pfcFrameRx (p prio quanta : Nat) (d : Dev) : Dev :=
  if rd Reg.ETH_PCS_UP p d = 0 then d
  else
    let d1 := addI Reg.ETH_PFC_RX p prio 1 d
    if bitOf (rd Reg.ETH_PFC_EN p d) prio = false then d1
    else if quanta = 0 then resumePrio p prio d1
    else if bitOf (portOf p d).paused prio then d1
    else updPort p (fun q => { q with
          paused := setBit q.paused prio, pausedAt := smPut q.pausedAt prio d.th.localNs }) d1

/-- A PAUSE frame is counted and discarded (R147). -/
def pauseFrameRx (p : Nat) (d : Dev) : Dev := onlyIf (rd Reg.ETH_PCS_UP p d == 1) (bump Reg.ETH_PAUSE_RX p) d

/-- Half the quanta time has passed while the cells stay above XOFF: the PFC frame is repeated (R149). -/
def pfcRepeat (p prio : Nat) (d : Dev) : Dev :=
  if bitOf (portOf p d).xoff prio ∧ rd Reg.ETH_PCS_UP p d = 1 then
    d |> emit .pfc [p, prio, rd Reg.ETH_PFC_QUANTA p d] [] |> addI Reg.ETH_PFC_TX p prio 1
  else d

/-- A priority has been paused without a break for longer than PFC_WD; the pause is still honoured (R149). -/
def pfcWatchdog (p prio : Nat) (d : Dev) : Dev :=
  if bitOf (portOf p d).paused prio ∧ rd Reg.ETH_PFC_WD p d ≠ 0 then raise Ev.PFC_WATCHDOG p d else d

/-- The SPEED code of a port by lanes and lane rate (R146, R152). -/
def ethSpeed (p : Nat) (d : Dev) : Nat :=
  match portWidth p d * (if portByte p d % 16 = 2 then 2 else 1) with
  | 1 => 1 | 2 => 2 | 4 => 3 | 8 => 4 | 16 => 5 | _ => 0

/-- The lanes of an ETH port as its PCS comes up: UP, the polarity and the PCS lane order found from the alignment markers (R95): `pol` the
indices of the inverted lanes, `order` the PCS lane of each. -/
def ethLanesUp (p : Nat) (pol order : List Nat) (d : Dev) : Dev :=
  forEach (List.range (portWidth p d)) (fun k d =>
    let n := portLane p k
    d |> wr Reg.LANE_BSTATE n 7 |> wr Reg.LANE_LOCKED n 1 |> wr Reg.LANE_MODE n (laneMode p d)
      |> wr Reg.LANE_POL_INV n (bnat (pol.contains k)) |> wr Reg.LANE_LOGICAL n (order.getD k k % 16)) d

/-- The PCS of a port comes up or goes down, and HI_SER rises or falls (R152, R153). A port that goes down brings its lanes up again from their
starting points (R101, R116). -/
def ethPcsChange (p : Nat) (up hiSer : Bool) (pol order : List Nat) (d : Dev) : Dev :=
  let was := rd Reg.ETH_PCS_UP p d == 1
  let now := up && mayRun p d && pers (p / 8) d == 3
  let hi := rd Reg.ETH_HI_SER p d == 1
  d |> wr Reg.ETH_PCS_UP p (bnat now) |> wr Reg.ETH_ALIGNED p (bnat now) |> wr Reg.ETH_FEC_LOCK p (bnat now)
    |> wr Reg.ETH_HI_SER p (bnat hiSer)
    |> onlyIf (now && !was) (fun d => d
        |> wr Reg.ETH_SPEED p (ethSpeed p d) |> wr Reg.ETH_LANE200 p (bnat (portByte p d % 16 == 2))
        |> wr Reg.ETH_LANES p (portWidth p d) |> wr Reg.LNK_LSTATE p 3
        |> ethLanesUp p pol order |> raise Ev.ETH_UP p)
    |> onlyIf (was && !now) (fun d => d
        |> forEach ((d.net.pkts.filter (fun q => q.eg == p && q.begun)).map (fun q => q.id)) dropPkt
        |> forEach (List.range 8) (resumePrio p) |> updPort p (fun q => { q with paused := 0, xoff := 0 })
        |> wr Reg.LNK_LSTATE p 1 |> bump Reg.LNK_DOWN_CNT p
        |> forEach (portLanes p d) (fun n d => d |> laneBegin (laneMode p d) n |> wr Reg.LANE_BSTATE n 2)
        |> raise Ev.ETH_DOWN p)
    |> onlyIf (hiSer && !hi) (raise Ev.HI_SER p)

/-! ## The commands -/

/-- ETH_FRAME_RX (R148). -/
def execEthFrameRx (port : Nat) (fcsOk : Bool) (frame : List Byte) (s : State) : Out :=
  onNet (ethFrameRx port fcsOk frame) s

/-- PFC_FRAME_RX (R149). -/
def execPfcFrameRx (port prio quanta : Nat) (s : State) : Out := onNet (pfcFrameRx port prio quanta) s

/-- PAUSE_FRAME_RX (R147). -/
def execPauseFrameRx (port : Nat) (s : State) : Out := onNet (pauseFrameRx port) s

/-- PFC_REPEAT (R149). -/
def execPfcRepeat (port prio : Nat) (s : State) : Out := onNet (pfcRepeat port prio) s

/-- PFC_QUANTA_EXPIRE (R149). -/
def execPfcQuantaExpire (port prio : Nat) (s : State) : Out := onNet (resumePrio port prio) s

/-- PFC_WATCHDOG (R149). -/
def execPfcWatchdog (port prio : Nat) (s : State) : Out := onNet (pfcWatchdog port prio) s

/-- ETH_PCS_CHANGE (R95, R153). -/
def execEthPcsChange (port : Nat) (pcs : PcsChange) (hiSer localFault remoteFault : Bool) (s : State) : Out :=
  onNet (fun d => d |> ethPcsChange port pcs.up hiSer pcs.pol pcs.order
    |> onlyIf (mayRun port d && pers (port / 8) d == 3)
        (fun d => d |> wr Reg.ETH_LOCAL_FAULT port (bnat localFault) |> wr Reg.ETH_REMOTE_FAULT port (bnat remoteFault))) s

end Sys2Proof.Machine
end

