-- ==== Sys2Proof/Machine/Exp.lean ====
section
/-!
DEFINITION. Meanings of the commands of the expansion switch and of composite carriage (ch. 13).
-/

namespace Sys2Proof.Machine

/-! ## Component registers of an upstream port: the HDM decoders (R404) -/

/-- Where the HDM Decoder Capability stands in the component registers (PRESUMED, log entry 55). -/
def hdmBlock : Nat := 0x1200

/-- A decoder of a VH. -/
def hdmOf (v i : Nat) (d : Dev) : Hdm := smGet (fun _ => ⟨0, 0, 0, 0⟩) d.sw.hdm (8 * v + i)

/-- A word of the component registers as read. -/
def compRead (v off : Nat) (d : Dev) : Nat :=
  let o := off - hdmBlock
  if off < hdmBlock ∨ hdmBlock + 0x110 ≤ off then 0
  else if o = 0 then 0x84
  else if o = 4 then 2
  else if o < 0x10 then 0
  else
    let h := hdmOf v ((o - 0x10) / 0x20) d
    match (o - 0x10) % 0x20 / 4 with
    | 0 => h.base % 2 ^ 32
    | 1 => h.base / 2 ^ 32
    | 2 => h.size % 2 ^ 32
    | 3 => h.size / 2 ^ 32
    | 4 => h.ctl
    | 5 => h.targets % 2 ^ 32
    | 6 => h.targets / 2 ^ 32
    | _ => 0

/-- The control word of a decoder after a write: Commit takes effect where ways and granularity are supported (R404); a committed
decoder changes by nothing but a Commit of 0. -/
def hdmCtl (old w : Nat) : Nat :=
  let base := Nat.land w 0x13FF
  if bitOf w 9 = false then base
  else if bitOf old 10 then old
  else if bitsOf w 0 4 ≤ 6 ∧ bitsOf w 4 4 ≤ 3 then base + 1024 else base + 2048

/-- Puts a decoder of a function's HDM block. -/
def putHdm (v i : Nat) (h : Hdm) (d : Dev) : Dev := updSw (fun s => { s with hdm := smSet (fun _ => ⟨0, 0, 0, 0⟩) s.hdm (8 * v + i) h }) d

/-- A decoder after a write of its word `k`; a committed and locked one keeps base, size and targets. -/
def hdmWrite (k w : Nat) (h : Hdm) : Hdm :=
  if k = 4 then { h with ctl := hdmCtl h.ctl w }
  else if bitOf h.ctl 10 then h
  else
    match k with
    | 0 => { h with base := h.base / 2 ^ 32 * 2 ^ 32 + w / 2 ^ 28 * 2 ^ 28 }
    | 1 => { h with base := h.base % 2 ^ 32 + w * 2 ^ 32 }
    | 2 => { h with size := h.size / 2 ^ 32 * 2 ^ 32 + w / 2 ^ 28 * 2 ^ 28 }
    | 3 => { h with size := h.size % 2 ^ 32 + w * 2 ^ 32 }
    | 5 => { h with targets := h.targets / 2 ^ 32 * 2 ^ 32 + w }
    | 6 => { h with targets := h.targets % 2 ^ 32 + w * 2 ^ 32 }
    | _ => h

/-- A write of a word of the component registers. -/
def compWrite (v off w : Nat) (d : Dev) : Dev :=
  if off < hdmBlock + 0x10 ∨ hdmBlock + 0x110 ≤ off then d
  else
    let i := (off - hdmBlock - 0x10) / 0x20
    putHdm v i (hdmWrite (((off - hdmBlock) % 0x20 / 4 + 4) % 8) w (hdmOf v i d)) d

/-- The upstream port's own registers take a TLP from the host: writes carry their data last. -/
def uspRegs (v k : Nat) (t : Tlp) (d : Dev) : Dev :=
  let off := t.addr % 65536 / 4 * 4
  match t.kind with
  | 0 => compWrite v off (ofLe (t.bytes.drop (t.bytes.length - 4))) d
  | 1 => toExp 163 k (cplWith 0 t.req t.tag (leBytes 4 (compRead v off d))) d
  | _ => if absentOption v 2 t d then answerReq ⟨v, t.req, t.tag, 64, t.kind⟩ (dspId v 0 d) 1 d else toFn v 2 t d

/-! ## TLPs (R400 to R405, R407) -/

/-- A TLP from the host of a VH. -/
def uspTlp (k : Nat) (t : Tlp) (d : Dev) : Dev :=
  let v := rd Reg.EXP_LVH k d
  let p := rd Reg.EXP_PORT k d
  let x := fromHost v t d
  d |> bump Reg.VHC_TLP_DOWN v
    |> (if x = .fn v 2 then uspRegs v k t else toDest p k v t x)

/-- A completion from a device: dropped unless its request is outstanding (R407); the request it completes. -/
def takeNp (k : Nat) (t : Tlp) (d : Dev) : Option NpReq × Dev :=
  match (swPort k d).np.find? (fun r => r.answered t) with
  | none => (none, d)
  | some r =>
    if t.last then
      (some r, d |> updSwPort k (fun p => { p with np := p.np.erase r }) |> wr Reg.EXP_NP_OUT k ((swPort k d).np.length - 1))
    else (some r, d)

/-- A TLP of a local port whose VH is homed at another member goes up to it; its non-posted requests are tracked (R415). The EXP index
at the home is a free value (log entry 50). -/
def upFar (k c m : Nat) (t : Tlp) (d : Dev) : Dev :=
  let dexp := free 6 d
  d |> takeFree
    |> onlyIf t.nonPosted (updSw (fun s => { s with remote := s.remote ++ [⟨256 + k, t.req, t.tag, m, t.kind⟩] }))
    |> toMember (rd Reg.EXP_PORT k d) m c dexp t.ld t

/-- A TLP from the device of a downstream port. -/
def dspTlp (k : Nat) (t : Tlp) (d : Dev) : Dev :=
  let p := rd Reg.EXP_PORT k d
  if isolated k d then d else
  match (swPort k d).bound.find? (fun b => b.1 == t.ld) with
  | none => onlyIf t.nonPosted (fun d => d |> bump Reg.EXP_UR_SENT k |> toExp 163 k (cplTlp 0 1 t.req t.tag)) d
  | some (_, c, home) =>
    if t.response then
      match takeNp k t d with
      | (none, _) => d
      | (some r, d1) =>
        if r.member < 64 then
          let dexp := free 6 d1
          d1 |> takeFree |> toMember p r.member c dexp t.ld t
        else match home with
          | some (v, n) => devTlp p k v n (some k) t d1
          | none => d1
    else match home with
      | some (v, n) => devTlp p k v n (some k) t d
      | none => (match homeOf c d with
          | some (m, _) => if t.kind = 0 ∧ (peerWin k t d).isSome = true then devTlp p k 16 0 (some k) t d else upFar k c m t d
          | none => d)

/-- The meter of an EXP port decides on a TLP at its head, green on arrival; what it does not drop goes on with its colour (R207 to
R210). -/
def meterTlp (idx : Nat) (q : Tlp) (f : Tlp → Dev → Dev) (d : Dev) : Dev :=
  let r := meterTake (rd Reg.EXP_PORT idx d) q.tc 0 q.bytes.length d
  match r.1 with
  | none => r.2
  | some (c, m) => f { q with colour := c, mark := m } r.2

/-- A TLP received by an EXP port, by the port's role (R400). -/
def portTlp (idx : Nat) (t : Tlp) (d : Dev) : Dev := if isUsp idx d then uspTlp idx t d else dspTlp idx t d

/-- R400: a TLP or CXL message arrives on an EXP port. -/
def execExpTlpRx (idx : Nat) (t : Tlp) (s : State) : Out :=
  onEng (fun d =>
    if expOn idx d && rd Reg.EXP_DL_ACTIVE idx d == 1 then
      d |> bump Reg.EXP_TLP_RX idx |> onlyIf t.poison (poisonSeen idx t.ld) |> meterTlp idx t (portTlp idx) |> releaseFenced
    else d) s

/-! ## Configuration requests (R397, R398, R409) -/

/-- The functions that a configuration request may reach. -/
inductive CfgFn where
  | usp | net | mgmt
  | dsp (n : Nat)
  | below (n : Nat)
  | none
deriving DecidableEq, Repr

/-- The function a configuration request names (R397). -/
def cfgFn (v : Nat) (type1 : Bool) (bus dev fn : Nat) (d : Dev) : CfgFn :=
  if !type1 then (if dev = 0 ∧ fn = 0 then .usp else .none)
  else if bus = secBus v d then
    (if fn ≠ 0 then .none else if dev = 0 then .net else if dev = 1 ∧ hasMgmt v d = true then .mgmt
     else if (dspAt v dev d).isSome = true then .dsp dev else .none)
  else if secBus v d < bus ∧ bus ≤ subBus v d then
    (match devByBus v bus d with | some n => .below n | none => .none)
  else .none

/-- Configuration Request Retry Status answers a function (R63, R409, R437). -/
def cfgRetry (v : Nat) (f : CfgFn) (d : Dev) : Bool :=
  !ready d || (match f with
    | .net => rd Reg.FUN_FLR_BUSY v d == 1
    | .none | .below _ => false
    | _ => decide (d.th.localNs < smGet (fun _ => 0) d.sw.crs v))

/-- The EXP index of a device's port where it is local. -/
def localPort (v n : Nat) (d : Dev) : Option Nat :=
  (dspAt v n d).bind (fun x => if isSelf x.1 d then some x.2.1 else none)

/-- A doubleword of a function and the key of its stored bytes. -/
def cfgWordOf (v : Nat) (f : CfgFn) (off : Nat) (d : Dev) : CfgWord × Nat :=
  match f with
  | .usp => (portCfg v false ((uspIdx v d).getD 0) d off, v)
  | .mgmt => (mgmtCfg v d off, mgmtKey v)
  | .dsp n =>
    let w := portCfg v true ((localPort v n d).getD 64) d off
    -- the port number of a port at another member
    (if off = 0x4C ∧ localPort v n d = none then { w with val := w.val + 2 ^ 24 * portNumber v n d } else w, dspKey v n)
  | _ => (⟨0, 0, 0⟩, 0)

/-- What a write of the network function's configuration space starts (R424 to R437, R445). -/
def netCfgWrite (v off data mask : Nat) (d : Dev) : Dev :=
  let old := cfgStored v off d
  let new := cfgMerge (netCfg v off d) old data mask
  let flr := off == 0x48 && bitOf (Nat.land data mask) 15
  let d3 := off == 0x84 && new % 4 == 3 && old % 4 != 3
  let d0 := off == 0x84 && new % 4 == 0 && old % 4 == 3
  let bmeOff := off == 0x04 && bitOf old 2 && !bitOf new 2
  if d3 then d3Enter v d
  else if d0 then d0Return v d
  else
    d |> onlyIf bmeOff (bmeClear v)
      |> putCfg v off (if off = 0x48 then clrBit new 15 else if off = 0x84 then new / 4 * 4 + old % 4 else new)
      |> mirrorCfg v
      |> onlyIf (off == 0x90) (sendPended v)
      |> onlyIf flr (flrStart v)

/-- What a write of a switch function's configuration space starts: Secondary Bus Reset, Link Disable, DPC Trigger Status (R402, R407,
R408, R411). -/
def swCfgWrite (v : Nat) (f : CfgFn) (off data mask : Nat) (d : Dev) : Dev :=
  let (w, key) := cfgWordOf v f off d
  let old := swStored key off d
  let new := cfgMerge w old data mask
  let d1 := putSwCfg key off new d
  let rise := fun b => !bitOf old b && bitOf new b
  match f with
  | .usp => onlyIf (off == 0x3C && rise 22) (busReset v) d1
  | .dsp n =>
    (match dspAt v n d with
     | some (m, k, _) =>
       if isSelf m d then
         d1 |> onlyIf (off == 0x3C && rise 22) (fun d => d |> updSwPort k (fun p => { p with sbr := true }) |> portHotReset k)
            |> onlyIf (off == 0x3C && bitOf old 22 && !bitOf new 22) (updSwPort k (fun p => { p with sbr := false }))
            |> onlyIf (off == 0x50 && rise 4) (fun d => d |> emit .slot [1, k, 0] [] |> dlDown k)
            |> onlyIf (off == 0x50 && bitOf old 4 && !bitOf new 4) (emit .slot [3, k, 0] [])
            |> onlyIf (off == 0x208 && bitOf old 0 && !bitOf new 0)
                (fun d => d |> updSwPort k (fun p => { p with needHost := false }) |> tryRelease k)
       else onlyIf (new != old) (emit .comp [m, vhNumber v d, 22, k, off, new] []) d1
     | none => d1)
  | _ => d1

/-- The bytes of a configuration request sent on below a downstream port: type 0 on its secondary bus, else type 1. -/
def cfgBytes (t0 wr : Bool) (bus dev fn off data be req tag : Nat) : List Byte :=
  [BitVec.ofNat 8 ((if t0 then 4 else 5) + (if wr then 0x40 else 0)), 0, 0, 1] ++ beBytes 2 req ++ [BitVec.ofNat 8 tag, BitVec.ofNat 8 be]
    ++ beBytes 2 (bus * 256 + dev * 8 + fn) ++ beBytes 2 off ++ (if wr then leBytes 4 data else [])

/-- A configuration request from the host of a VH. -/
def cfgRequest (v : Nat) (type1 wr : Bool) (bus dev fn off be data req tag : Nat) (d : Dev) : Dev :=
  match uspIdx v d with
  | none => d
  | some k =>
    let f := cfgFn v type1 bus dev fn d
    let id := bus * 256 + dev * 8 + fn
    let o := off / 4 * 4 % 4096
    let answer := fun st => toExp 163 k (cplTlp id st req tag)
    if cfgRetry v f d then answer 2 d
    else match f with
      | .none => d |> bump Reg.EXP_UR_SENT k |> answer 1
      | .below n =>
        let t0 := bus == secBus (dspKey v n) d
        toDev (rd Reg.EXP_PORT k d) v n
          { cplTlp 0 0 req tag with kind := 5, bdf := id, last := false, bytes := cfgBytes t0 wr bus dev fn off data be req tag } d
      | .net =>
        if wr then d |> netCfgWrite v o data (beMask be) |> answer 0
        else toExp 163 k (cplWith id req tag (leBytes 4 (netCfgRead v o d))) d
      | _ =>
        let (w, key) := cfgWordOf v f o d
        if wr then d |> swCfgWrite v f o data (beMask be) |> answer 0
        else toExp 163 k (cplWith id req tag (leBytes 4 (swCfgRead w key o d))) d

/-- R397: a configuration request reaches a function of a VH, or goes on below a downstream port; `be` the byte enables. -/
def execConfigRequest (vh : Nat) (type1 wr : Bool) (bus dev fn off be data req tag : Nat) (s : State) : Out :=
  onEng (cfgRequest vh type1 wr bus dev fn off be data req tag) s

/-! ## Hot reset, binding (R399, R409) -/

/-- R409: a hot reset of a VH; `far` one that the home of the CVH `vh` tells of. -/
def execVhHotReset (far : Bool) (vh : Nat) (s : State) : Out :=
  onEng (fun d => if far then farHotReset vh d else if (uspIdx vh d).isSome then vhHotReset vh d else d) s

/-- R399: BIND on a VHC page, or, where `far`, one that the home of a CVH asks of a local port. -/
def execBind (far : Bool) (vh grant dexp ld : Nat) (s : State) : Out :=
  onEng (fun d => if far then bindFar vh dexp ld d else trigger 0x1A vh 0x10C 0 (bindGo vh grant) d) s

/-- R399: UNBIND on a VHC page, or, where `far`, one that the home of a CVH asks of a local port. -/
def execUnbind (far : Bool) (vh dexp ld : Nat) (s : State) : Out :=
  onEng (fun d =>
    if far then
      onlyIf ((swPort dexp d).bound.any (fun b => b.1 == ld && b.2.1 == vh)) (fun d => d |> isolate dexp 3 |> unbindPort dexp ld vh) d
    else trigger 0x1A vh 0x10C 1 (fun _ => unbindGo vh) d) s

/-- R399: the 100 ms after an unbind have passed and the waiting BIND completes. -/
def execBindHoldoffEnd (idx : Nat) (s : State) : Out :=
  onEng (fun d =>
    match (swPort idx d).wait with
    | none => d
    | some (v, n, w, own, c) =>
      d |> updSwPort idx (fun p => { p with wait := none, offAt := none })
        |> (if own = 1 then bindDone v n w else bindPort idx w c none)) s

/-! ## Peer windows (R403, R420) -/

/-- R420: RD_LIVE copies the live entry into PW_DATA. -/
def execPwRdLive (s : State) : Out := onEng (trigger 0x1A 0 0x204 0 (pwCmd 0)) s

/-- R420: RD_SHADOW copies the shadow entry into PW_DATA. -/
def execPwRdShadow (s : State) : Out := onEng (trigger 0x1A 0 0x204 1 (pwCmd 1)) s

/-- R420: WR_SHADOW writes PW_DATA into the shadow entry. -/
def execPwWrShadow (s : State) : Out := onEng (trigger 0x1A 0 0x204 2 (pwCmd 2)) s

/-- R403: COMMIT checks and swaps in a peer window. -/
def execPwCommit (s : State) : Out := onEng (trigger 0x1A 0 0x204 3 (pwCmd 3)) s

/-- R420: DISCARD copies the live entry into the shadow. -/
def execPwDiscard (s : State) : Out := onEng (trigger 0x1A 0 0x204 4 (pwCmd 4)) s

/-! ## Isolation (R407, R408) -/

/-- ISO_SET on a downstream port. -/
def isoSet (k : Nat) (d : Dev) : Dev := onlyIf (rd Reg.EXP_IDX_VALID k d == 1 && !isolated k d) (isolate k 5) d

/-- ISO_REL: the fabric manager's release. -/
def isoRel (k : Nat) (d : Dev) : Dev :=
  onlyIf (isolated k d && rd Reg.EXP_ISO_CAUSE k d != 3)
    (fun d => d |> updSwPort k (fun p => { p with needFm := false }) |> tryRelease k) d

/-- R407: ISO_SET isolates a downstream port. -/
def execIsoSet (idx : Nat) (s : State) : Out := onEng (trigger 0x19 idx 0x104 1 (fun _ => isoSet idx)) s

/-- R408: ISO_REL gives the fabric manager's release; `host` the host's, told by the home of the VH. -/
def execIsoRel (host : Bool) (idx : Nat) (s : State) : Out :=
  onEng (fun d =>
    if host then onlyIf (isolated idx d) (fun d => d |> updSwPort idx (fun p => { p with needHost := false }) |> tryRelease idx) d
    else trigger 0x19 idx 0x104 2 (fun _ => isoRel idx) d) s

/-- The host has enabled the DPC trigger of a port, where its function is homed here. -/
def dpcEnabled (k : Nat) (d : Dev) : Bool :=
  (homedAt k d).any (fun h => bitsOf (swStored (dspKey h.1 h.2) 0x204 d) 16 2 != 0) || (swPort k d).bound.any (fun b => b.2.2.isNone)

/-- R407: a DPC trigger or a surprise down isolates a downstream port; `far` tells it of the port bound as `dev` of `vh` at another
member. -/
def execDpcTrigger (far surprise : Bool) (idx vh dev : Nat) (s : State) : Out :=
  onEng (fun d =>
    if far then onlyIf ((dspAt vh dev d).any (fun x => !isSelf x.1 d)) (dpcStatus vh dev) d
    else onlyIf (expOn idx d && !isolated idx d && (surprise || dpcEnabled idx d)) (isolate idx (if surprise then 2 else 1)) d) s

/-- R422: DL_ACTIVE of an EXP port rises or falls. The loss of an upstream link resets its VH (R409). -/
def execExpDlChange (idx : Nat) (up : Bool) (speed width : Nat) (cxl : Bool) (lds : Nat) (t : Training) (s : State) : Out :=
  onEng (fun d =>
    if up then onlyIf (expOn idx d && !isolated idx d && decide (1 ≤ speed ∧ speed ≤ rd Reg.EXP_MAX_GEN idx d) &&
        decide (width < 32 ∧ lds ≤ 16)) (dlUp idx speed width t.flit cxl lds t) d
    else if expOn idx d && rd Reg.EXP_DL_ACTIVE idx d == 1 then
      d |> dlDown idx |> onlyIf (isUsp idx d) (vhHotReset (rd Reg.EXP_LVH idx d))
    else d) s

/-! ## EXP_EN (R406, R419) -/

/-- A write of word 0x104 of an EXP page: EXP_EN, then ISO_SET and ISO_REL. -/
def expCtl (k : Nat) (val : Word) (d : Dev) : Dev :=
  let en := bnat (bitOf val.toNat 0)
  let d1 := wr Reg.EXP_EN k en d
  (if en = 1 ∧ rd Reg.EXP_EN k d = 0 then
     (if harbourFits d1 then sharedLowAlarm (sharedFree d) d1 else cfgErr 0x19 k 0x104 Cfg.CFG_HBR_OVERCOMMIT val d)
   else if en = 0 ∧ rd Reg.EXP_EN k d = 1 then
     d1 |> onlyIf (rd Reg.EXP_DL_ACTIVE k d == 1) (fun d => d |> dlDown k |> onlyIf (isUsp k d) (vhHotReset (rd Reg.EXP_LVH k d)))
        |> drivePerst k false
   else d1)
  |> onlyIf (bitOf val.toNat 1) (isoSet k) |> onlyIf (bitOf val.toNat 2) (isoRel k)

/-- R406: a write of EXP_EN. -/
def execExpEnWrite (idx : Nat) (value : Word) (s : State) : Out :=
  onEng (fun d => mgmtWrite 0x19 idx 0x104 value (unlessLocked 0x19 idx 0x104 value (expCtl idx value)) d) s

/-! ## Composite carriage (R413 to R415) -/

/-- Composite traffic of a member is taken: composite mode is on, and the packet is for this device. -/
def fromMember (src dst : Nat) (d : Dev) : Bool := compositeOn d && dst == ownId d && src != dst && decide (src < 64)

/-- R414, R415: a composite packet arrives. -/
def execCompositePacketRx (p : CompPkt) (s : State) : Out :=
  onEng (fun d => onlyIf (fromMember p.src p.dst d && decide (p.type < 5 ∧ p.cls < 3 ∧ p.cseq < 65536)) (compArrive p) d) s

/-- R414: an ACK frees the acknowledged packets of a stream. -/
def execCompositeAckRx (src cls ackSeq : Nat) (s : State) : Out :=
  onEng (fun d => onlyIf (compositeOn d && decide (src < 64 ∧ cls < 3)) (ackStream src cls ackSeq) d) s

/-- R414: a NAK acknowledges what lies before the CSEQ expected and resends the stream from the oldest unacknowledged packet. -/
def execCompositeNakRx (src cls ackSeq : Nat) (s : State) : Out :=
  onEng (fun d => onlyIf (compositeOn d && decide (src < 64 ∧ cls < 3))
    (fun d => d |> ackStream src cls ((ackSeq + 65535) % 65536) |> resendStream src cls) d) s

/-- R414: the ACK of a stream that owes one is sent. -/
def execCompositeAckSend (src cls : Nat) (s : State) : Out :=
  onEng (fun d => onlyIf (rxOf src cls d).due (sendAckTo src cls) d) s

/-- R414: CMP_RTO passes without an advance of a stream. -/
def execCmpRtoExpire (member cls : Nat) (s : State) : Out := onEng (resendStream member cls) s

/-- R415: a request across members gets no completion within CPL_TMO; `vh` is 256 + EXP index for a request from a local port to the
home of its VH. -/
def execCplTmoExpire (vh member req tag : Nat) (s : State) : Out :=
  onEng (fun d =>
    match d.sw.remote.find? (fun r => r.vh == vh && r.member == member && r.req == req && r.tag == tag) with
    | none => d
    | some r =>
      d |> updSw (fun s => { s with remote := s.remote.erase r }) |> bump Reg.CMP_CPL_TMO_CNT 0
        |> (if 256 ≤ vh then
              fun d => d |> bump Reg.EXP_CPL_SYN (vh - 256)
                |> toExp 163 (vh - 256) (if r.kind = 6 ∨ r.kind = 7 then poisonedResp { cplTlp 0 4 req tag with kind := r.kind } else cplTlp 0 4 req tag)
            else
              fun d => d |> bump Reg.EXP_CPL_SYN ((uspIdx vh d).getD 0) |> answerReq { r with member := 64 } 0 4)
        |> releaseFenced) s

/-! ## Slot wires (R411, R551) -/

/-- R411: PRSNT_N of a slot changes; `level` low is present. -/
def execSlotPrsntChange (slot : Nat) (level : Bool) (s : State) : Out :=
  onEng (fun d =>
    d |> wireEdge slot 2 level
      |> forEach (slotPorts slot 2 d) (fun k d =>
          if (swPort k d).prsnt = !level then d else d |> updSwPort k (fun p => { p with prsnt := !level }) |> portChange 19 k)) s

/-- A PM_PME message of a device of a VH. -/
def pmPme (id ld : Nat) : Tlp :=
  { cplTlp 0 0 id 0 with
    kind := 3, route := 0, ld := ld, bdf := 0
    bytes := [0x30, 0, 0, 0] ++ beBytes 2 id ++ [0, 0x18] ++ List.replicate 8 0 }

/-- R411: a falling edge of an owned WAKE_N sends PM_PME toward the VH of the port. -/
def execSlotWakeEdge (slot : Nat) (s : State) : Out :=
  onEng (fun d =>
    d |> wireEdge slot 1 false
      |> forEach (slotPorts slot 1 d) (fun k d => forEach (swPort k d).bound (fun b d =>
          match b.2.2 with
          | some (v, n) => toDest 163 k v (pmPme (dspId v n d) b.1) (.host v) d
          | none => (match homeOf b.2.1 d with | some (m, _) => upFar k b.2.1 m (pmPme 0 b.1) d | none => d)) d)) s

/-- R411: a falling edge of an owned ALERT_N raises EXP_ALERT. -/
def execSlotAlertEdge (slot : Nat) (s : State) : Out :=
  onEng (fun d => d |> wireEdge slot 4 false |> forEach (slotPorts slot 4 d) (raise Ev.EXP_ALERT)) s

/-- R551: CLKREQ_N of a slot changes: its clock runs while it is low, or always with CLKREQ_IGN; a clock that stops under a link
isolates the port as surprise down. -/
def execSlotClkreqChange (slot : Nat) (level : Bool) (s : State) : Out :=
  onEng (fun d =>
    d |> wireEdge slot 3 level
      |> forEach ((slotPorts slot 3 d).filter (fun k => rd Reg.EXP_CLKREQ_IGN k d == 0)) (fun k d =>
          d |> emit .pin [7, slot, bnat (!level)] []
            |> onlyIf (level && rd Reg.EXP_DL_ACTIVE k d == 1) (isolate k 2))) s

/-- R411: 100 µs after the last holding condition ended, PERST_N is deasserted. -/
def execPerstDeassertTimer (idx : Nat) (s : State) : Out :=
  onEng (fun d => onlyIf (rd Reg.EXP_IDX_VALID idx d == 1 && !isUsp idx d && !perstHeld idx d) (drivePerst idx true) d) s

end Sys2Proof.Machine
end

