-- ==== Sys2Proof/Machine/Island.lean ====
section
/-!
DEFINITION. Island resets (R31, R185, R186).
-/

namespace Sys2Proof.Machine

/-- The ports of an island; a x16 port is its lower island's (DESIGN CHOICE, log entry 181). -/
def islandPorts (i : Nat) (d : Dev) : List Nat := ((List.range 8).map (fun j => 8 * i + j)).filter (fun p => portStarts p d)

/-- A port goes down for an island reset (R143, R186). -/
def portStop (p : Nat) (d : Dev) : Dev :=
  d |> (fun d => match pers (p / 8) d, expIdx p d with
        | 1, some k => dlDown k d
        | 2, _ => declareDown p 6 d
        | 3, _ => ethPcsChange p false false [] [] d
        | _, _ => d)
    |> lanesOff p

/-- Fields of a lane that an island reset returns to their Warm values (R117): the EYE fields are those named EYE (log entry 178). A scan that the
reset ends leaves EYE_DONE, EYE_ABORTED and EYE_POINTS as R116 says. -/
def laneResetFields (scan : Bool) : List Fld :=
  [Reg.LANE_BSTATE, Reg.LANE_TRIM_OFS, Reg.LANE_EYE_SEL, Reg.LANE_EYE_BUSY, Reg.LANE_EYE_IDX, Reg.LANE_EYE_DATA]
    ++ (if scan then [] else [Reg.LANE_EYE_DONE, Reg.LANE_EYE_ABORTED, Reg.LANE_EYE_POINTS])

/-- The ro fields of a lane that an island reset keeps (R117). -/
def laneKeptFields : List Fld :=
  [Reg.LANE_LOCKED, Reg.LANE_POL_INV, Reg.LANE_REVERSED, Reg.LANE_QUAL_PASS, Reg.LANE_SUBSTITUTED, Reg.LANE_LOGICAL, Reg.LANE_MODE,
   Reg.LANE_PCIE_GEN]

/-- A lane of an island as the reset leaves it, `a` the state before (R117). -/
def laneReset (a : Dev) (n : Nat) (d : Dev) : Dev :=
  d |> eyeAbort n |> forEach laneKeptFields (fun f => wr f n (rd f n a))
    |> forEach (laneResetFields (rd Reg.LANE_EYE_BUSY n a == 1)) (fun f => warmField 0x08 n f)

/-- Returns a port's pages to their Warm values, the ro and rc fields (R151, R152, R213, R419). What shows state kept elsewhere, the EXP
index and the binding, stays (log entry 57). -/
def portRegsReset (p : Nat) (d : Dev) : Dev :=
  d |> resetRoRc 0x0A p |> resetRoRc 0x0E p |> onlyIf (pers (p / 8) d == 3) (resetRoRc 0x0B p)
    |> (fun d => match expIdx p d with
        | some k =>
          d |> forEach ((ownRows.getD 0x19 []).filter (fun f => (f.acc == .ro || f.acc == .rc) && f.off != 0x100 && f.off != 0x124))
                (warmField 0x19 k)
            |> updSwPort k (fun q => { q with needHost := false, needFm := false, np := [] })
        | none => d)

/-- The packets on the way to an island's ports that have not begun there (R185). -/
def towardIsland (i : Nat) (d : Dev) : List Packet :=
  d.net.pkts.filter (fun q => decide (q.eg < 144) && q.eg / 8 == i && !q.begun)

/-- Counts a packet that an island reset discarded: at the island where its descriptors were, its ingress island while none had crossed
(R185, R186). -/
def countReset (i : Nat) (q : Packet) (d : Dev) : Dev :=
  bump Reg.ISL_DROP_RESET (if 0 < q.queued then i else inIsland q.inPort) d

/-- What an island reset does at once: the packets queued for its ports are freed, the ports go down by R143 and the registers take their
Warm values (R185, R186, R252). -/
def islandStop (i : Nat) (d : Dev) : Dev :=
  let ps := islandPorts i d
  let up := ps.filter (fun p => portUp p d)
  let gone := towardIsland i d
  d |> forEach gone (fun q => dropPkt q.id)
    |> forEach ps portStop
    |> forEach ps portRegsReset
    |> forEach up (fun p => wr Reg.LNK_DOWN_CAUSE p 6)
    |> forEach ((List.range 9).map (fun k => 9 * i + k)) (laneReset d)
    |> resetRoRc 0x09 i
    |> resetRoRc 0x10 i
    |> forEach gone (countReset i)
    |> wr Reg.ISL_RST_BUSY i 1

/-- An island reset starts, or joins the one that runs (R186). -/
def islandReset (i : Nat) (d : Dev) : Dev := if rd Reg.ISL_RST_BUSY i d = 1 then d else islandStop i d

/-- The scheduler of a port as an island reset leaves it: V, start tags and wheel cleared, shapers by RESET_TO. -/
def schedReset (p : Nat) (d : Dev) : Dev :=
  d |> updSched p (fun _ => Sched.init)
    |> forEach (List.range 20) (fun q d => setTokens p q (if rdI Reg.SCH_RESET_TO p q d = 1 then 0 else rdI Reg.SCH_SHP_BURST p q d * 8000) d)
    |> onlyIf (gatesOn p d) (gateStart p)

/-- The ports of an island start, unless it is NONE, or are held in test (R186). -/
def islandStart (i : Nat) (d : Dev) : Dev :=
  if rd Reg.ISL_TEST i d = 1 then forEach (islandPorts i d) (fun p => wr Reg.LNK_LSTATE p 5) d
  else d |> forEach (islandPorts i d) startBringup |> forEach ((islandPorts i d).filter (fun p => gatesOn p d)) gateStart

/-- An island reset ends: what has since come for its ports is freed too, and bring-up starts (R185, R186). -/
def islandDone (i : Nat) (d : Dev) : Dev :=
  if rd Reg.ISL_RST_BUSY i d = 0 then d
  else
    d |> forEach (towardIsland i d) (fun q d => d |> dropPkt q.id |> countReset i q)
      |> forEach (islandPorts i d) schedReset
      |> wr Reg.ISL_RST_BUSY i 0 |> raise Ev.ISLAND_RESET_DONE i |> islandStart i

/-- R186: ISL_RESET starts an island reset. -/
def execIslReset (isl : Nat) (s : State) : Out :=
  onNet (trigger 0x09 isl 0x10C 0 (fun _ => onlyIf (decide (isl < 18)) (islandReset isl))) s

/-- A write of TEST: a change runs an island reset. -/
def writeTest (i test : Nat) (d : Dev) : Dev :=
  if rd Reg.ISL_TEST i d = test ∨ 18 ≤ i then d else d |> wr Reg.ISL_TEST i test |> islandReset i

/-- R186: a write of TEST. -/
def execIslTestWrite (isl : Nat) (test : Bool) (s : State) : Out :=
  onNet (fun d =>
    let w := setBits (wordAt (regAddr 0x09 isl 0x100) d) 4 1 (bnat test)
    mgmtWrite 0x09 isl 0x100 w (unlessLocked 0x09 isl 0x100 w (writeTest isl (bnat test))) d) s

/-- R186: the island's cells have been freed. -/
def execIslandResetDone (isl : Nat) (s : State) : Out := onNet (islandDone isl) s

end Sys2Proof.Machine
end

