-- ==== Sys2Proof/Machine/Strait.lean ====
section
/-!
DEFINITION. The meanings of the strait, harbour and mirror ring commands (ch. 06): the match, descriptors in SSEQ order, strait
failure and removal, segments, and capture records.
-/

namespace Sys2Proof.Machine

/-! ## The match (R160, R161) -/

/-- Descriptors of an island pair held behind a gap (R158). -/
def heldBehind (i e : Nat) (d : Dev) : Nat :=
  (d.net.behind.filter (fun x => x.inIsl == i && x.egIsl == e)).length

/-- The queue (i, e, level) may request: it is not empty and the pair's gap window has room (R158, R160). -/
def mayRequest (i e l : Nat) (d : Dev) : Bool :=
  d.net.waiting.any (fun x => x.inIsl == i && x.egIsl == e && x.level == l) && decide (heldBehind i e d < 32)

/-- GPTR[s][e][level], by its reset value where it has not moved (R161). -/
def gptr (s e l : Nat) (d : Dev) : Nat := smGet (fun _ => (e + 4 * s) % 20) d.net.gptr ((s * 20 + e) * 2 + l)

/-- APTR[s][i][level]. -/
def aptr (s i l : Nat) (d : Dev) : Nat := smGet (fun _ => (i + 4 * s) % 20) d.net.aptr ((s * 20 + i) * 2 + l)

/-- The first island at or after a pointer in the order 0 to 19, wrapping, that a test takes (R160). -/
def firstFrom (start : Nat) (ok : Nat → Bool) : Option Nat :=
  ((List.range 20).map (fun k => (start + k) % 20)).find? ok

/-- What an unmatched egress grants: an ingress and a level (R160, grant). -/
def grantOf (s e : Nat) (freeIn : List Nat) (d : Dev) : Option (Nat × Nat) :=
  match firstFrom (gptr s e 0 d) (fun i => freeIn.contains i && mayRequest i e 0 d) with
  | some i => some (i, 0)
  | none => (firstFrom (gptr s e 1 d) (fun i => freeIn.contains i && mayRequest i e 1 d)).map (fun i => (i, 1))

/-- What an ingress accepts of the grants (egress, ingress, level): an egress and a level (R160, accept). -/
def acceptOf (s i : Nat) (grants : List (Nat × Nat × Nat)) (d : Dev) : Option (Nat × Nat) :=
  match firstFrom (aptr s i 0 d) (fun e => grants.contains (e, i, 0)) with
  | some e => some (e, 0)
  | none => (firstFrom (aptr s i 1 d) (fun e => grants.contains (e, i, 1))).map (fun e => (e, 1))

/-- One iteration: the pairs (ingress, egress, level) matched anew. -/
def matchOnce (s : Nat) (freeIn freeEg : List Nat) (d : Dev) : List (Nat × Nat × Nat) :=
  let grants := freeEg.filterMap (fun e => (grantOf s e freeIn d).map (fun g => (e, g.1, g.2)))
  freeIn.filterMap (fun i => (acceptOf s i grants d).map (fun a => (i, a.1, a.2)))

/-- Three iterations: each pair with the iteration that matched it (R160). -/
def matchStrait (s : Nat) (d : Dev) : List (Nat × Nat × Nat × Nat) :=
  let all := List.range 20
  let drop := fun (l : List Nat) (out : List Nat) => l.filter (fun x => !out.contains x)
  let m1 := matchOnce s all all d
  let i1 := drop all (m1.map Prod.fst)
  let e1 := drop all (m1.map (fun m => m.2.1))
  let m2 := matchOnce s i1 e1 d
  let i2 := drop i1 (m2.map Prod.fst)
  let e2 := drop e1 (m2.map (fun m => m.2.1))
  let m3 := matchOnce s i2 e2 d
  m1.map (fun m => (m.1, m.2.1, m.2.2, 1)) ++ m2.map (fun m => (m.1, m.2.1, m.2.2, 2))
    ++ m3.map (fun m => (m.1, m.2.1, m.2.2, 3))

/-- A descriptor as it is offered: its SSEQ, whether the packet's tail is not yet stored, and whether it ended in error (R157). -/
def offered (x : Desc) (q : Nat) (d : Dev) : Desc :=
  match pktOf x.pkt d with
  | some k =>
    { x with
      sseq := some q, ct := !k.tail, poison := k.poison, mirror := k.mirror, tail := k.tail && decide (k.cells.length ≤ x.cell + 1)
      len := if k.tail && decide (k.cells.length ≤ x.cell + 1) then (k.bytes.length - 256 * x.cell) % 256 else 0 }
  | none => { x with sseq := some q }

/-- A matched ingress offers the oldest descriptor of the matched queue, with the pair's next SSEQ unless it was offered before
(R158, R162, R166). -/
def offer (s i e l : Nat) (d : Dev) : Dev :=
  match d.net.waiting.find? (fun x => x.inIsl == i && x.egIsl == e && x.level == l) with
  | none => d
  | some x =>
    let key := i * 20 + e
    let n := smGet (fun _ => 0) d.net.sseqTx key
    let q := x.sseq.getD n
    let y := offered x q d
    { d with net := { d.net with
        waiting := d.net.waiting.erase x
        sseqTx := if x.sseq.isSome then d.net.sseqTx else smPut d.net.sseqTx key ((n + 1) % 4096)
        flights := d.net.flights ++ [⟨s, y⟩] } }
      |> emit .strait [s, 2, i, e, l, q, x.pkt, x.cell] (beBytes 12 y.word)

/-- Pointers move only for pairs matched in iteration 1; matches of iterations 2 and 3 are counted (R161, R187). -/
def applyMatch (s : Nat) (m : Nat × Nat × Nat × Nat) (d : Dev) : Dev :=
  let (i, e, l, it) := m
  d |> offer s i e l
    |> onlyIf (it == 1) (fun d => { d with net := { d.net with
          gptr := smPut d.net.gptr ((s * 20 + e) * 2 + l) ((i + 1) % 20)
          aptr := smPut d.net.aptr ((s * 20 + i) * 2 + l) ((e + 1) % 20) } })
    |> onlyIf (it == 2) (bump Reg.STR_MATCH_IT2 s) |> onlyIf (it == 3) (bump Reg.STR_MATCH_IT3 s)

/-- The harbour acknowledges the cell writes and reads that went over a strait (R164). -/
def ackAccesses (s : Nat) (d : Dev) : Dev := { d with net := { d.net with staged := d.net.staged.filter (fun a => a.strait != s) } }

/-- A cell time of a strait in service (R160); what went over it before has been acknowledged (DEDUCED, log entry 193). -/
def straitMatch (s : Nat) (d : Dev) : Dev :=
  if s < 6 ∧ straitUp s d then d |> ackAccesses s |> forEach (matchStrait s d) (applyMatch s) else d

/-! ## Descriptors at the egress island (R158) -/

/-- Next SSEQ that the egress island expects of an ingress island. -/
def sseqNext (i e : Nat) (d : Dev) : Nat := smGet (fun _ => 0) d.net.sseqRx (i * 20 + e)

/-- Queues the descriptor whose SSEQ is expected. -/
def takeDesc (x : Desc) (d : Dev) : Dev :=
  { d with net := { d.net with
      sseqRx := smPut d.net.sseqRx (x.inIsl * 20 + x.egIsl) ((sseqNext x.inIsl x.egIsl d + 1) % 4096) } }
    |> enqueueDesc x

/-- Releases held descriptors while the next expected SSEQ is among them; at most `n` (R158). -/
def releaseBehind (i e : Nat) : Nat → Dev → Dev
  | 0, d => d
  | n + 1, d =>
    match d.net.behind.find? (fun x => x.inIsl == i && x.egIsl == e && x.sseq == some (sseqNext i e d)) with
    | some x => releaseBehind i e n ({ d with net := { d.net with behind := d.net.behind.erase x } } |> takeDesc x)
    | none => d

/-- The acknowledgement of a descriptor frees it at its ingress island (R164). -/
def ackDesc (s i e q : Nat) (d : Dev) : Dev :=
  { d with net := { d.net with flights := d.net.flights.filter (fun f =>
      !(f.strait == s && f.desc.inIsl == i && f.desc.egIsl == e && f.desc.sseq == some q)) } }
    |> emit .strait [s, 3, i, e, q] []

/-- A descriptor reaches its egress island: queued in SSEQ order, held behind a gap, or discarded as a duplicate and acknowledged
again (R158). -/
def descriptorRx (s i e q : Nat) (d : Dev) : Dev :=
  let exp := sseqNext i e d
  let ahead := (q + 4096 - exp) % 4096
  match d.net.flights.find? (fun f => f.strait == s && f.desc.inIsl == i && f.desc.egIsl == e && f.desc.sseq == some q) with
  | some f =>
    if ahead = 0 then
      d |> ackDesc s i e q |> bump Reg.STR_DESC_MOVED s |> takeDesc f.desc |> releaseBehind i e 32
    else if 2048 ≤ ahead then ackDesc s i e q d
    else if heldBehind i e d < 32 then
      let d1 := d |> ackDesc s i e q |> bump Reg.STR_DESC_MOVED s
      let d2 := { d1 with net := { d1.net with behind := d1.net.behind ++ [f.desc] } }
      wr Reg.ISL_REORDER_HWM e (max (rd Reg.ISL_REORDER_HWM e d2) (heldBehind i e d2)) d2
    else d
  | none => if 2048 ≤ ahead then emit .strait [s, 3, i, e, q] [] d else d

/-- How far the oldest descriptor held behind a gap lies ahead of the SSEQ expected (R158). -/
def heldAhead (i e : Nat) (d : Dev) : Option Nat :=
  (((d.net.behind.filter (fun x => x.inIsl == i && x.egIsl == e)).filterMap (fun x => x.sseq)).map
    (fun q => (q + 4096 - sseqNext i e d) % 4096)).min?

/-- A descriptor of the pair that lies in the `n` SSEQ values of the gap (R185). -/
def missingDesc (i e n : Nat) (d : Dev) (x : Desc) : Bool :=
  x.inIsl == i && x.egIsl == e && (x.sseq.map (fun q => decide ((q + 4096 - sseqNext i e d) % 4096 < n))).getD false

/-- A gap has stayed open for 10 µs: the packets of the missing cells are ended and the held descriptors released in order
(R185). -/
def reorderStall (i e : Nat) (d : Dev) : Dev :=
  match heldAhead i e d with
  | none => d
  | some n =>
    let missing := missingDesc i e n d
    let lost := (d.net.flights.filter (fun f => missing f.desc)).map (fun f => f.desc.pkt)
      ++ (d.net.waiting.filter missing).map (fun x => x.pkt)
    { d with net := { d.net with
        sseqRx := smPut d.net.sseqRx (i * 20 + e) ((sseqNext i e d + n) % 4096)
        waiting := d.net.waiting.filter (fun x => !missing x)
        flights := d.net.flights.filter (fun f => !missing f.desc) } }
      |> forEach lost failPkt |> releaseBehind i e 32 |> raise Ev.REORDER_STALL e

/-! ## Failure and removal of a strait (R165 to R167) -/

/-- Unacknowledged descriptors of a strait are offered again on the others, in order and ahead of the queues (R166). -/
def reoffer (s : Nat) (d : Dev) : Dev :=
  let back := (d.net.flights.filter (fun f => f.strait == s)).map (fun f => f.desc)
  { d with net := { d.net with
      flights := d.net.flights.filter (fun f => f.strait != s), waiting := back ++ d.net.waiting } }
    |> addI Reg.STR_REOFFER s 0 back.length

/-- What a strait held when it failed goes over the others: descriptors are offered again, and every unacknowledged write and read is issued
again, a write from its staged copy (R164, R166). -/
def straitLost (s : Nat) (d : Dev) : Dev :=
  d |> reoffer s |> ackAccesses s |> forEach (d.net.staged.filter (fun a => a.strait == s)) reissue

/-- FAIL_CAUSE of a failure of R165: 0 an overdue acknowledgement, 1 the ECC of a descriptor or of cell data, 2 the self-check. -/
def faultCause (cause : Nat) (data : Bool) : Nat :=
  match cause with
  | 0 => 1
  | 1 => if data then 3 else 2
  | _ => 4

/-- A strait fails (R165, R166): 1 ACK_TMO, 2 DESC_ECC, 3 DATA_ECC, 4 SELFCHECK, seen by an island. -/
def straitFaultDetect (s cause isl : Nat) (d : Dev) : Dev :=
  if s < 6 ∧ rd Reg.STR_STATE s d < 2 ∧ domState (18 + s) d ≠ 2 then
    d |> wr Reg.STR_STATE s 3 |> wr Reg.STR_FAIL_CAUSE s cause |> wr Reg.STR_FAIL_ISLAND s isl
      |> straitLost s |> raise Ev.STRAIT_FAILED s |> drainDone (18 + s)
  else d

/-- Straits in service. -/
def straitsUp (d : Dev) : Nat := ((List.range 6).filter (fun s => straitUp s d)).length

/-- A write of STR_EN (R165, R167): 0 removes the strait unless it is the last in service; 1 after 0 starts its self-test. -/
def writeStrEn (s en : Nat) (val : Word) (d : Dev) : Dev :=
  if rd Reg.STR_EN s d = en then d
  else if en = 0 then
    if straitUp s d ∧ straitsUp d = 1 then cfgErr 0x0C s 0x100 Cfg.CFG_STRAIT_LAST val d
    else
      d |> wr Reg.STR_EN s 0 |> onlyIf (rd Reg.STR_STATE s d == 0) (wr Reg.STR_STATE s 1)
        |> (fun d => { d with net := { d.net with selfTest := clrBit d.net.selfTest s } })
  else
    { d with net := { d.net with selfTest := setBit d.net.selfTest s } } |> wr Reg.STR_EN s 1

/-- A strait being removed has completed what it held: OUT, and its domain's entry goes on (R167). -/
def straitDrainDone (s : Nat) (d : Dev) : Dev :=
  if rd Reg.STR_STATE s d = 1 ∧ (d.net.flights.all (fun f => f.strait != s)) then
    d |> ackAccesses s |> wr Reg.STR_STATE s 2 |> drainDone (18 + s)
  else d

/-- The 50 µs self-test ends (R165, R185); at a reset it runs with the strait in service (R187). -/
def straitSelftestDone (s : Nat) (pass : Bool) (d : Dev) : Dev :=
  if bitOf d.net.selfTest s then
    let d1 := { d with net := { d.net with selfTest := clrBit d.net.selfTest s } }
    if pass then
      if rd Reg.STR_STATE s d = 1 then d1 else d1 |> wr Reg.STR_STATE s 0 |> wr Reg.STR_FAIL_CAUSE s 0 |> wr Reg.STR_FAIL_ISLAND s 0
        |> onlyIf (rd Reg.STR_STATE s d != 0) (raise Ev.STRAIT_IN_SERVICE s)
    else d1 |> wr Reg.STR_STATE s 3 |> wr Reg.STR_FAIL_CAUSE s 5 |> straitLost s |> raise Ev.STRAIT_SELFTEST_FAIL s |> drainDone (18 + s)
  else d

/-! ## Harbour segments (R170, C9) -/

/-- A cell read has an uncorrectable error: its packet is ended or discarded (R170). -/
def harbourUncorrRead (seg cell pkt : Nat) (d : Dev) : Dev :=
  let e := match pktOf pkt d with | some q => some (egIsland q.eg) | none => none
  d |> bump Reg.HBR_ECC_UNCORR seg |> bump Reg.LOG_SRAM_UNCORR 0
    |> raiseDet Ev.HBR_ECC_UNCORR seg (BitVec.ofNat 32 seg) (BitVec.ofNat 32 cell)
    |> (fun d => match e with | some i => bump Reg.ISL_ECC_END i d | none => d)
    |> failPkt pkt

/-- Cells of a segment that packets hold. -/
def segHeld (g : Nat) (d : Dev) : Nat :=
  heldBy (fun _ => true) (fun q => ((q.cells.drop q.freed).filter (fun c => c.seg == g && c.charge != 3)).length) d
    + (d.net.kept.filter (fun k => k.cell.seg == g)).length

/-- A segment being entered has drained: DRAINED, and its domain's entry goes on (C9, R188). -/
def segmentDrainDone (g : Nat) (d : Dev) : Dev :=
  if rd Reg.HBR_SEG_STATE g d = 1 ∧ segHeld g d = 0 then d |> wr Reg.HBR_SEG_STATE g 2 |> drainDone (24 + g) else d

/-! ## Capture rings (R183) -/

/-- Length of the record at an offset of a ring: a pad record reaches to the ring's end (R183). -/
def recordLen (base size ofs : Nat) (d : Dev) : Nat :=
  if bitOf (memRead (base + ofs + 12) d).toNat 6 then size - ofs
  else 64 * ((16 + ofLe (memReads (base + ofs + 10) 2 d) + 63) / 64)

/-- Advances CONS past the oldest records until `need` bytes fit, at most `n` records (R183, RING_WRAP = 1). -/
def makeRoom (k base size need : Nat) : Nat → Dev → Dev
  | 0, d => d
  | n + 1, d =>
    if ringUsed k size d + need < size ∨ ringUsed k size d = 0 then d
    else
      let c := rdI Reg.MIR_CONS 0 k d % size
      makeRoom k base size need n (wrI Reg.MIR_CONS 0 k ((c + recordLen base size c d) % size) d)

/-- A pad record of a session that fills its ring to its end (R183). -/
def padRecord (c : MirCopy) (len : Nat) (d : Dev) : List Byte :=
  (mirrorRecord { c with bytes := [], orig := 0, egress := false, ended := false, port := 0, time := stampOf d } 0).take 12
    ++ [BitVec.ofNat 8 (c.session + 64 + 128 * bnat (stampOf d).unset), 0, 0, 0] ++ List.replicate (len - 16) 0

/-- The oldest copy of a session that waits is written to its ring, or dropped at a full one (R182, R183). -/
def mirrorRecordWrite (k : Nat) (d : Dev) : Dev :=
  match d.net.copies.find? (fun c => c.session == k) with
  | none => d
  | some c =>
    let d0 := releaseKept c.src { d with net := { d.net with copies := d.net.copies.erase c } }
    let seq := smGet (fun _ => 0) d.net.records k % 65536
    let rec_ := mirrorRecord c seq
    let prod := rdI Reg.MIR_PROD 0 k d
    let pad := if c.size < prod + rec_.length then c.size - prod else 0
    let need := pad + rec_.length
    let d1 := if c.wrap then makeRoom k c.base c.size need 67108864 d0 else d0
    if c.size ≤ ringUsed k c.size d1 + need then
      d1 |> raise Ev.MIR_RING_FULL 0 |> dropCopy k
    else
      let at_ := if pad = 0 then prod else 0
      { d1 with net := { d1.net with records := smPut d1.net.records k ((seq + 1) % 65536) } }
        |> onlyIf (decide (0 < pad)) (memWrites (c.base + prod) (padRecord c pad d))
        |> memWrites (c.base + at_) rec_
        |> wrI Reg.MIR_PROD 0 k ((at_ + rec_.length) % c.size)

/-! ## The commands -/

/-- STRAIT_MATCH (R160). -/
def execStraitMatch (strait : Nat) (s : State) : Out := onNet (straitMatch strait) s

/-- DESCRIPTOR_RX (R158). -/
def execDescriptorRx (strait inIsl egIsl sseq : Nat) (s : State) : Out := onNet (descriptorRx strait inIsl egIsl sseq) s

/-- REORDER_STALL (R185). -/
def execReorderStall (inIsl egIsl : Nat) (s : State) : Out := onNet (reorderStall inIsl egIsl) s

/-- STRAIT_FAULT_DETECT (R165). -/
def execStraitFaultDetect (strait cause isl : Nat) (data : Bool) (s : State) : Out := onNet (straitFaultDetect strait (faultCause cause data) isl) s

/-- STR_EN_WRITE (R167). -/
def execStrEnWrite (strait en : Nat) (s : State) : Out :=
  onNet (mgmtWrite 0x0C strait 0x100 (BitVec.ofNat 32 (en % 2)) (unlessLocked 0x0C strait 0x100 (BitVec.ofNat 32 (en % 2))
    (writeStrEn strait (en % 2) (BitVec.ofNat 32 (en % 2))))) s

/-- STRAIT_DRAIN_DONE (R167). -/
def execStraitDrainDone (strait : Nat) (s : State) : Out := onNet (straitDrainDone strait) s

/-- STRAIT_SELFTEST_DONE (R165). -/
def execStraitSelftestDone (strait : Nat) (pass : Bool) (s : State) : Out := onNet (straitSelftestDone strait pass) s

/-- HARBOUR_UNCORR_READ (R170). -/
def execHarbourUncorrRead (seg cell pkt : Nat) (s : State) : Out := onNet (harbourUncorrRead seg cell pkt) s

/-- SEGMENT_DRAIN_DONE (C9). -/
def execSegmentDrainDone (seg : Nat) (s : State) : Out := onNet (segmentDrainDone seg) s

/-- MIRROR_RECORD_WRITE (R183). -/
def execMirrorRecordWrite (session : Nat) (s : State) : Out :=
  onNet (fun d =>
    match d.net.copies.find? (fun c => c.session == session) with
    | some c => d |> memDone (2, session, c.time.ns) |> mirrorRecordWrite session
    | none => d) s

end Sys2Proof.Machine
end

