-- ==== Sys2Proof/Machine/Power.lean ====
section
/-!
DEFINITION. Feeds, eFuses and dips (R474 to R485), PLINK measurements (R486), and requests for domain states with their checks
(R490, R492).
-/

namespace Sys2Proof.Machine

/-! ## Paths -/

/-- Changes what the feeds hold beside the PWR page. -/
def updFd (f : Feeds → Feeds) (d : Dev) : Dev := { d with fd := f d.fd }

/-- A feed's fields on the PWR page: GOOD, STATE, TRIPS, RETRY_LEFT. -/
def fGood (w : Nat) : Fld := if w = 0 then Reg.PWR_A_GOOD else Reg.PWR_B_GOOD
/-- As above. -/
def fState (w : Nat) : Fld := if w = 0 then Reg.PWR_A_STATE else Reg.PWR_B_STATE
/-- As above. -/
def fTrips (w : Nat) : Fld := if w = 0 then Reg.PWR_TRIPS_A else Reg.PWR_TRIPS_B
/-- As above. -/
def fLeft (w : Nat) : Fld := if w = 0 then Reg.PWR_RETRY_LEFT_A else Reg.PWR_RETRY_LEFT_B

/-- A path is closed: INRUSH or ON. -/
def closed (w : Nat) (d : Dev) : Bool := rd (fState w) 0 d == 1 || rd (fState w) 0 d == 2

/-- A path waits after a trip: TRIPPED, RETRY_WAIT or LOCKOUT (R476). -/
def waiting (w : Nat) (d : Dev) : Bool := decide (4 ≤ rd (fState w) 0 d)

/-- No path is closed. -/
def noPath (d : Dev) : Bool := !closed 0 d && !closed 1 d

/-- A feed is good (R476). -/
def good (w : Nat) (d : Dev) : Bool := rd (fGood w) 0 d == 1

/-- The attempt of a path. -/
def attempt (w : Nat) (d : Dev) : Option (Option Nat) := if w = 0 then d.fd.attemptA else d.fd.attemptB

/-- Gives a path its attempt. -/
def setAttempt (w : Nat) (x : Option (Option Nat)) (d : Dev) : Dev :=
  updFd (fun f => if w = 0 then { f with attemptA := x } else { f with attemptB := x }) d

/-- Failed attempts in a row. -/
def fails (w : Nat) (d : Dev) : Nat := if w = 0 then d.fd.failsA else d.fd.failsB

/-- Gives a path its count of failed attempts. -/
def setFails (w n : Nat) (d : Dev) : Dev := updFd (fun f => if w = 0 then { f with failsA := n } else { f with failsB := n }) d

/-- A path opens. -/
def openPath (w st : Nat) (d : Dev) : Dev :=
  d |> onlyIf (closed w d) (emit .path [w, 0] [])
    |> wr (fState w) 0 st
    |> onlyIf (rd Reg.PWR_FEED_ACTIVE 0 d == w) (wr Reg.PWR_FEED_ACTIVE 0 2)

/-- A path closes: under OC_A while the rails are in service, else under INRUSH_A (R476, R478). A closing that R479 awaits is its
attempt. -/
def closePath (w : Nat) (d : Dev) : Dev :=
  let inrush := !d.fd.rails
  d |> emit .path [w, if inrush then 1 else 2] []
    |> wr (fState w) 0 (if inrush then 1 else 2) |> wr Reg.PWR_FEED_ACTIVE 0 w
    |> updFd (fun f => { f with low := false }) |> onlyIf (attempt w d).isSome (setAttempt w (some (some d.th.localNs)))

/-- Switchover from one path to another (R477); the bank carries the load meanwhile. -/
def switchTo (w : Nat) (d : Dev) : Dev :=
  let old := 1 - w
  d |> onlyIf (closed old d) (openPath old (if good old d then 3 else 0))
    |> closePath w
    |> bump Reg.PWR_SWITCHES 0 |> raise Ev.FEED_SWITCHED 0

/-! ## Feeds (R475, R476) -/

/-- No feed is present. -/
def noFeed (d : Dev) : Bool := !d.fd.presentA && !d.fd.presentB

/-- R475, R485: a feed becomes present, or is no longer; hold-up lasts while none is. -/
def feedPresent (w : Nat) (on : Bool) (d : Dev) : Dev :=
  let d1 := updFd (fun f => if w = 0 then { f with presentA := on } else { f with presentB := on }) d
  d1 |> onlyIf (!on) (wr (fGood w) 0 0)
    |> onlyIf (!on && rd (fState w) 0 d == 3) (wr (fState w) 0 0)
    |> onlyIf (noFeed d1 && !noFeed d && d.fd.aon) (updFd (fun f => { f with holdSince := some d.th.localNs }))
    |> (fun x => match d.fd.holdSince with
        | some t => if noFeed d1 then x
                    else x |> updFd (fun f => { f with holdSince := none })
                           |> wrFit Reg.PWR_AON_HOLD_MS 0 ((d.th.localNs - t) / 1000000)
        | none => x)

/-- R475: a feed rises above 8.0 V or falls below 7.5 V. -/
def execFeedPresentChange (feed : Nat) (present : Bool) (s : State) : Out :=
  onDev (onlyIf (decide (feed < 2)) (feedPresent feed present)) s

/-- A feed is present (R475). -/
def present (w : Nat) (d : Dev) : Bool := if w = 0 then d.fd.presentA else d.fd.presentB

/-- R476: a feed has met its conditions for 1 ms. Where no path is closed its own closes; where the active feed lies below SW_LEVEL it takes
over; else it stands by. -/
def feedGood (w : Nat) (d : Dev) : Dev :=
  if waiting w d || !present w d || good w d then d
  else
    let d1 := wr (fGood w) 0 1 d
    if noPath d then
      d1 |> closePath w |> onlyIf d.fd.rails (fun d => d |> bump Reg.PWR_SWITCHES 0 |> raise Ev.FEED_SWITCHED 0)
    else if closed w d then updFd (fun f => { f with low := false }) d1
    else if d.fd.low then switchTo w d1
    else wr (fState w) 0 3 d1

/-- R476: a feed has met its conditions for 1 ms. -/
def execFeedGood (feed : Nat) (s : State) : Out := onDev (onlyIf (decide (feed < 2)) (feedGood feed)) s

/-- R476: a feed that is not active stops being good. -/
def execFeedNotGood (feed : Nat) (s : State) : Out :=
  onDev (fun d => onlyIf (decide (feed < 2) && !closed feed d)
    (fun d => d |> wr (fGood feed) 0 0 |> onlyIf (rd (fState feed) 0 d == 3) (wr (fState feed) 0 0)) d) s

/-- R476, R477: the active feed falls below SW_LEVEL; a switchover starts where the other is good. -/
def execFeedBelowSwLevel (s : State) : Out :=
  onDev (fun d =>
    let a := rd Reg.PWR_FEED_ACTIVE 0 d
    if a < 2 then
      let d1 := d |> wr (fGood a) 0 0 |> updFd (fun f => { f with low := true })
      onlyIf (good (1 - a) d) (switchTo (1 - a)) d1
    else d) s

/-- SWITCH_NOW: no effect while the other feed is not good (R476, R495). -/
def switchNow (d : Dev) : Dev :=
  let a := rd Reg.PWR_FEED_ACTIVE 0 d
  if a < 2 ∧ good (1 - a) d = true then switchTo (1 - a) d else d

/-- R476: SWITCH_NOW starts a switchover. -/
def execSwitchNow (s : State) : Out := onDev (trigger 0x01 0 0x104 2 (fun _ => switchNow)) s

/-- R476: PRI_FEED has been good for RETURN_MS and PC0 switches back. -/
def execFeedSwitchBack (s : State) : Out :=
  onDev (fun d =>
    let p := rd Reg.PWR_PRI_FEED 0 d
    onlyIf (rd Reg.PWR_RETURN_EN 0 d == 1 && rd Reg.PWR_FEED_ACTIVE 0 d == 1 - p && good p d) (switchTo p) d) s

/-! ## The eFuse (R478, R479) -/

/-- The attempt of a path has failed with a trip now: it is within RETRY_ON_MS of its closing (R479). -/
def attemptFails (w : Nat) (d : Dev) : Bool :=
  match attempt w d with
  | some (some t) => closed w d && (rd (fState w) 0 d == 1 || decide (d.th.localNs ≤ t + rd Reg.PWR_RETRY_ON_MS 0 d * 1000000))
  | _ => false

/-- A closed path trips: cause as CAUSE of R478, peak current in 100 mA or voltage in 10 mV. -/
def efuseTrip (w cause peak : Nat) (d : Dev) : Dev :=
  if !closed w d then d
  else
    let bad := attemptFails w d
    d |> emit .path [w, 0] []
      |> wr (fState w) 0 4 |> wr (fGood w) 0 0 |> onlyIf (rd Reg.PWR_FEED_ACTIVE 0 d == w) (wr Reg.PWR_FEED_ACTIVE 0 2)
      |> wr Reg.PWR_LAST_CAUSE 0 cause |> wr Reg.PWR_LAST_FEED 0 w |> bump (fTrips w) 0
      |> updFd (fun f => if w = 0 then { f with tripA := d.th.localNs } else { f with tripB := d.th.localNs })
      |> setAttempt w none |> setFails w (if bad then fails w d + 1 else 0)
      |> raiseDet Ev.FEED_TRIP 0 (BitVec.ofNat 32 (cause + 256 * w + 65536 * min peak 65535)) 0

/-- R478: a closed path meets a trip condition and opens. -/
def execEfuseTrip (feed cause peak : Nat) (s : State) : Out :=
  onDev (onlyIf (decide (feed < 2 ∧ 1 ≤ cause ∧ cause ≤ 5)) (efuseTrip feed cause peak)) s

/-- R477 to R479: a tripped path is confirmed open: RETRY_WAIT, or LOCKOUT after RETRY_MAX failed attempts; the other path closes where
its feed is good. -/
def pathOpen (w : Nat) (d : Dev) : Dev :=
  if rd (fState w) 0 d ≠ 4 then d
  else
    let m := rd Reg.PWR_RETRY_MAX 0 d
    let lock := decide (0 < m ∧ m ≤ fails w d)
    d |> wr (fState w) 0 (if lock then 6 else 5) |> wr (fLeft w) 0 (if lock then 0 else rd Reg.PWR_RETRY_PERIOD_MS 0 d)
      |> onlyIf lock (raise Ev.FEED_LOCKOUT 0)
      |> onlyIf (noPath d && good (1 - w) d) (fun d =>
          if d.fd.rails then switchTo (1 - w) d else closePath (1 - w) d)

/-- R478: a tripped path is confirmed open. -/
def execPathOpenConfirmed (feed : Nat) (s : State) : Out := onDev (onlyIf (decide (feed < 2)) (pathOpen feed)) s

/-- R479: RETRY_PERIOD_MS has passed since a path tripped; its attempt waits for its feed. -/
def execRetryPeriodExpire (feed : Nat) (s : State) : Out :=
  onDev (fun d => onlyIf (decide (feed < 2) && rd (fState feed) 0 d == 5) (wr (fLeft feed) 0 0) d) s

/-- R479: an attempt: the path closes, or stands by while the other is closed. -/
def retryAttempt (w : Nat) (d : Dev) : Dev :=
  if rd (fState w) 0 d ≠ 5 ∨ rd (fLeft w) 0 d ≠ 0 ∨ present w d = false then d
  else
    let d1 := setAttempt w (some none) d
    if noPath d then
      d1 |> closePath w |> onlyIf d.fd.rails (fun d => d |> bump Reg.PWR_SWITCHES 0 |> raise Ev.FEED_SWITCHED 0)
    else wr (fState w) 0 3 d1

/-- R479: a path in RETRY_WAIT makes its attempt. -/
def execRetryAttempt (feed : Nat) (s : State) : Out := onDev (onlyIf (decide (feed < 2)) (retryAttempt feed)) s

/-- R479: the bank reaches the feed voltage less 0.5 V and the path is ON; an attempt has succeeded. -/
def inrushDone (w : Nat) (d : Dev) : Dev :=
  if rd (fState w) 0 d ≠ 1 then d
  else
    d |> wr (fState w) 0 2
      |> onlyIf (attempt w d).isSome (fun d => d |> setAttempt w none |> setFails w 0 |> raise Ev.FEED_RESTORED 0)

/-- R479: the bank has been charged. -/
def execInrushChargeComplete (feed : Nat) (s : State) : Out := onDev (onlyIf (decide (feed < 2)) (inrushDone feed)) s

/-- TRIP_CLR: ends a RETRY_WAIT or LOCKOUT (R479). -/
def tripClr (w : Nat) (d : Dev) : Dev :=
  if rd (fState w) 0 d = 5 ∨ rd (fState w) 0 d = 6 then
    d |> wr (fState w) 0 0 |> wr (fLeft w) 0 0 |> setAttempt w none |> setFails w 0
  else d

/-- R479: TRIP_CLR_A or TRIP_CLR_B. -/
def execTripClr (feed : Nat) (s : State) : Out :=
  onDev (onlyIf (decide (feed < 2)) (trigger 0x01 0 0x104 (3 + feed) (fun _ => tripClr feed))) s

/-! ## Dips and loss of supply (R481 to R485) -/

/-- The engine clocks of the domains D40 to D63 that are ON are halved, while either throttle holds (R481, R556, R561). -/
def clocksHalved (d : Dev) : Bool := d.fd.throttleDip || d.fd.throttleHot

/-- A change of the throttles; the engine clocks are halved or run in full where it begins or ends the halving (shown as 10 among the pins). -/
def throttling (f : Feeds → Feeds) (d : Dev) : Dev :=
  let d1 := updFd f d
  onlyIf (clocksHalved d1 != clocksHalved d) (emit .pin [10, 0, bnat (clocksHalved d1)] []) d1

/-- SFL and ETH transmitters hold every FIR tap but C0 at half its magnitude, or no longer do (R481); 255 stands for all their lanes. -/
def holdTaps (on : Bool) (d : Dev) : Dev := emit .laneTx [255, 5, bnat on] [] d

/-- R481, R482: VBANK falls below UV_WARN: the throttle starts, and SUPPLY_ESCALATE follows two others within 10 s. -/
def dipBegin (d : Dev) : Dev :=
  if d.fd.dip.isSome then d
  else
    let now := d.th.localNs
    let recent := d.fd.dipStarts.filter (fun t => decide (now ≤ t + 10000000000))
    let mayEsc := match d.fd.lastEscalate with | some t => decide (t + 10000000000 ≤ now) | none => true
    let esc := decide (2 ≤ recent.length) && mayEsc
    d |> throttling (fun f => { f with
          dip := some now, dipStarts := now :: recent, throttleDip := true, lastEscalate := if esc then some now else f.lastEscalate })
      |> onlyIf (!d.fd.throttleDip) (holdTaps true) |> wr Reg.PWR_THROTTLE 0 1 |> bump Reg.PWR_DIPS 0
      |> onlyIf esc (fun d => d |> bump Reg.PWR_ESCALATIONS 0 |> raise Ev.SUPPLY_ESCALATE 0)

/-- R481: a dip begins. -/
def execDipBegin (s : State) : Out := onDev dipBegin s

/-- R481, R530: a dip ends: lowest VBANK and duration are recorded. -/
def dipEnd (minMv : Nat) (d : Dev) : Dev :=
  match d.fd.dip with
  | none => d
  | some t =>
    let us := (d.th.localNs - t) / 1000
    d |> updFd (fun f => { f with dip := none }) |> wrFit Reg.PWR_DIP_MIN_MV 0 minMv |> wr Reg.PWR_DIP_US 0 (min us 65535)
      |> raiseDet Ev.SUPPLY_WARN 0 (BitVec.ofNat 32 (minMv % 65536 + 65536 * (us % 65536))) (BitVec.ofNat 32 (us / 65536 % 65536))

/-- R481: a dip ends; `minMv` the lowest VBANK reached. -/
def execDipEnd (minMv : Nat) (s : State) : Out := onDev (dipEnd minMv) s

/-- R481: 1 ms after a dip's end the throttle is released, unless a new dip extends it. -/
def execThrottleEnd (s : State) : Out :=
  onDev (fun d => onlyIf (d.fd.dip.isNone && d.fd.throttleDip)
    (fun d => d |> throttling (fun f => { f with throttleDip := false }) |> wr Reg.PWR_THROTTLE 0 0 |> holdTaps false) d) s

/-- No transition of a domain is in progress any more. -/
def dropTransitions (d : Dev) : Dev := { d with pw := { d.pw with trs := [] } }

/-- No start sequence runs any more. -/
def stopSequence (d : Dev) : Dev := { d with boot := { d.boot with running := 0 } }

/-- R483, R495: every rail but the standby supply is shed: every domain is off, transitions and pending requests are discarded, and no
start-up runs. -/
def lossOfSupply (d : Dev) : Dev :=
  if !d.fd.rails then d
  else
    d |> onlyIf (rd Reg.PWR_PG 0 d == 1) (emit .pin [8, 0, 0] []) |> wr Reg.PWR_PG 0 0
      |> forEach [0, 1] (fun w d => onlyIf (closed w d) (fun d => d |> openPath w 0 |> wr (fGood w) 0 0) d)
      |> updFd (fun f => { f with rails := false, lost := true, dip := none, throttleDip := false })
      |> wr Reg.PWR_THROTTLE 0 0
      |> dropTransitions |> stopSequence
      |> forEach (List.range 64) (fun n d => d |> clearPend n |> wrI Reg.PWR_STATE 0 n 2 |> wrI Reg.PWR_TARGET 0 n 0)
      |> wr Reg.DEV_STATE 0 0

/-- R483: VBANK falls below UV_RESET. -/
def execLossOfSupply (s : State) : Out := onDev lossOfSupply s

/-- R485: in hold-up the bank falls below 3.0 V, and AON loses power: the next start is an ordinary cold reset. -/
def execAonPowerLoss (s : State) : Out :=
  onDev (fun d => onlyIf (d.fd.holdSince.isSome && !d.fd.rails) (updFd (fun f => { f with aon := false, holdSince := none })) d) s

/-! ## PLINK measurements (R486, R496) -/

/-- R486: PC0 reports its measurements; `mj` is the energy taken in since the last report. -/
def execPlinkMeasurementReport (vinA vinB iinA iinB vbank pIn mj : Nat) (s : State) : Out :=
  onDev (fun d =>
    onlyIf (rd Reg.PWR_PLINK_FAILED 0 d == 0 && d.fd.rails)
      (fun d => d |> wrFit Reg.PWR_VIN_A_MV 0 vinA |> wrFit Reg.PWR_VIN_B_MV 0 vinB |> wrFit Reg.PWR_IIN_A 0 iinA
        |> wrFit Reg.PWR_IIN_B 0 iinB |> wrFit Reg.PWR_VBANK_MV 0 vbank |> wrFit Reg.PWR_P_IN 0 pIn
        |> wr2 Reg.PWR_ENERGY_MJ_LO Reg.PWR_ENERGY_MJ_HI 0 0
            ((rd2 Reg.PWR_ENERGY_MJ_LO Reg.PWR_ENERGY_MJ_HI 0 0 d + mj) % 2 ^ 64)) d) s

/-! ## Requests for a domain state (R490, R492) -/

/-- The refuser of an entry, 0 where it is permitted (R490). -/
def refuserOf (dom target : Nat) (d : Dev) : Nat :=
  let hostless := (d.eng.ranges.any (fun e => bitOf e.2.1 16 && !bitOf e.2.1 17))
  if rd Reg.PWR_PLINK_FAILED 0 d = 1 then 0x0F
  else if dom < 18 then (if (islandPorts dom d).any (fun p => portUp p d) then 0x02 else 0)
  else if dom < 24 then (if straitUp (dom - 18) d ∧ straitsUp d = 1 then 0x03 else 0)
  else if dom < 40 then
    (if domOn dom d ∧ 32768 * (segsOn d - 1) < reservation true d then 0x04 else 0)
  else if dom < 48 then
    (if d.eng.qps.any (fun e => e.1 % 8 == dom - 40 && e.1 != msgQpn && (match e.2 with | some q => decide (2 ≤ q.state ∧ q.state ≤ 4) | none => false))
     then 0x06 else 0)
  else if dom < 52 then
    (if d.eng.quads.any (fun e => e.1 == dom - 48 && e.2.ctxs.any (fun c => c.2.isSome)) then 0x07 else 0)
  else if dom < 56 then (if groupsBusy (dom - 52) d then 0x08 else 0)
  else if dom < 58 then
    (if (((List.range 12).map (· + 40)) ++ ((List.range 5).map (· + 58))).any (fun n => domOn n d) ∨ (target = 2 ∧ hostless = true)
     then 0x09 else 0)
  else if dom = 58 then
    (if (List.range 64).any (fun g => grpValid g d) ∨ d.eng.maps.any (fun e => wbits e.2 0 28 1 == 1) then 0x0A else 0)
  else if dom = 59 then
    (if (List.range 16).any (fun j => rdI Reg.CHK_STATE 0 j d == 1) then 0x0B else 0)
  else if dom < 62 then (if 0 < validRegions d ∨ 0 < openWins d then 0x0C else 0)
  else if dom = 62 then
    (if (List.range 8).any (fun k => rdI Reg.MIR_EN 0 k d == 1) ∨ d.th.hzn.any (fun e => e.2.armed && e.2.action == 2) then 0x0D else 0)
  else if (List.range 64).any (fun k => rd Reg.EXP_EN k d == 1 && rd Reg.EXP_IDX_VALID k d == 1) then 0x0E
  else 0

/-- A commit of a page of a domain awaits its boundary (R31). -/
def commitIn (dom : Nat) (d : Dev) : Bool :=
  d.mg.commits.any (fun c => domainOf c.1 c.2 == dom || (decide (24 ≤ dom ∧ dom < 40) && c.1 == 0x0D))

/-- A transition starts once its condition holds; an entry is refused otherwise (R490, R491). Straits and segments begin their drain
(R167, R169). -/
def startReq (dom target : Nat) (d : Dev) : Dev :=
  if target ≠ 0 ∧ refuserOf dom target d ≠ 0 then refuseDom false dom target (refuserOf dom target d) d
  else
    let was := domState dom d
    let d1 := startTr dom target d
    if target ≠ 0 ∧ was = 0 then
      d1 |> onlyIf (decide (18 ≤ dom ∧ dom < 24)) (fun d =>
              match rd Reg.STR_STATE (dom - 18) d with
              | 0 => wr Reg.STR_STATE (dom - 18) 1 d
              | 1 => d
              | _ => drainDone dom d)
         |> onlyIf (decide (24 ≤ dom ∧ dom < 40)) (fun x => x |> wr Reg.HBR_SEG_STATE (dom - 24) 1 |> sharedLowAlarm (sharedFree d))
    else d1

/-- A request waits in the pending slot; the newest wins (R492). -/
def pendReq (dom target : Nat) (d : Dev) : Dev :=
  d |> onlyIf (rdI Reg.PWR_PENDING 0 dom d == 1) (refuseDom true dom (rdI Reg.PWR_PEND_STATE 0 dom d) 0x01)
    |> wrI Reg.PWR_PENDING 0 dom 1 |> wrI Reg.PWR_PEND_STATE 0 dom target

/-- A host command requests a domain state (R492). -/
def requestDomain (dom target : Nat) (d : Dev) : Dev :=
  if (trOf dom d).isSome ∨ (target ≠ 0 ∧ commitIn dom d = true) then pendReq dom target d
  else if domState dom d = target then raise Ev.PWR_DONE 0 d
  else startReq dom target d

/-- The pending request starts at once, as a new request (R492). -/
def nextRequest (dom : Nat) (d : Dev) : Dev :=
  if rdI Reg.PWR_PENDING 0 dom d = 1 then d |> clearPend dom |> requestDomain dom (rdI Reg.PWR_PEND_STATE 0 dom d) else d

/-- The entries that waited for a commit start once none of their domain's pages awaits its boundary (R31). -/
def entriesStart (d : Dev) : Dev :=
  forEach (List.range 64) (fun dom d => onlyIf ((trOf dom d).isNone && !commitIn dom d) (nextRequest dom) d) d

/-- A write of PWR_REQ (R492, R496, R500). -/
def pwrReq (v : Word) (d : Dev) : Dev :=
  let w := v.toNat
  if bitOf w 31 = false then d
  else if bitsOf w 8 2 = 3 then cfgErr 0x01 0 0x200 Cfg.CFG_PWR_RANGE v d
  else requestDomain (bitsOf w 0 6) (bitsOf w 8 2) d

/-- R492: a write of PWR_REQ. -/
def execPwrReq (value : Word) (s : State) : Out := onDev (mgmtWrite 0x01 0 0x200 value (pwrReq value)) s

/-- R493: an enabled wake source acts on its domain; `code` is 0x40 + k. -/
def execDomainWake (dom code : Nat) (s : State) : Out := onDev (onlyIf (decide (0x40 ≤ code)) (wakeDom dom (code - 0x40))) s

/-- R486: PC0 acknowledges the rail request of a transition. -/
def execPlinkAck (dom : Nat) (s : State) : Out :=
  onDev (fun d => match trOf dom d with
    | some t => if t.draining then d else d |> putTr { t with acked := true } |> (fun d => { d with pw := { d.pw with plinkAborts := 0 } })
    | none => d) s

end Sys2Proof.Machine
end

