-- ==== Sys2Proof/Machine/Read.lean ====
section
/-!
DEFINITION. What a register word reads as: the stored word, and over it the fields that show state kept elsewhere (R33, R37,
R42 and the register tables).
-/

namespace Sys2Proof.Machine

/-- A field shown from state kept elsewhere, with the value of each of its elements. -/
abbrev Live := Fld × (Nat → Nat)

/-- A field that is no array. -/
def one (f : Fld) (v : Nat) : Live := (f, fun _ => v)

/-- The low and high words of a field of two words. -/
def pair (lo hi : Fld) (v : Nat) : List Live := [one lo (v % 2 ^ 32), one hi (v / 2 ^ 32)]

/-- A bit map over the numbers that a test selects. -/
def bitMap (n : Nat) (p : Nat → Bool) : Nat := (List.range n).foldl (fun m i => if p i then setBit m i else m) 0

/-! ## The common header (R37) -/

/-- A commit of a page awaits its boundary (R44). -/
def commitBusy (ty inst : Nat) (d : Dev) : Bool := d.mg.commits.contains (ty, inst)

/-- A page is in soft reset (R47). -/
def inSoftReset (ty inst : Nat) (d : Dev) : Bool := d.mg.resets.contains (ty, inst)

/-- The header fields that show state kept elsewhere. -/
def liveHeader (ty inst : Nat) (d : Dev) : List Live :=
  let dom := domainOf ty inst
  [one Reg.PG_STAT_LOCKED (hrd Reg.PG_CTRL_LOCK ty inst d),
   one Reg.PG_STAT_COMMIT_BUSY (bnat (commitBusy ty inst d)),
   one Reg.PG_STAT_RST_BUSY (bnat (inSoftReset ty inst d)),
   one Reg.PG_STAT_ENABLED (bnat (hrd Reg.PG_CTRL_ENABLE ty inst d == 1 && domOn dom d && !inSoftReset ty inst d)),
   one Reg.PG_CTRL_SOFT_RST (bnat (inSoftReset ty inst d)),
   one Reg.PG_PWR_HELD (if dom < 64 then heldCount dom d else 0),
   one Reg.PG_PWR_PENDING (if dom < 64 then rdI Reg.PWR_PENDING 0 dom d else 0),
   one Reg.PG_PWR_STATE (domState dom d)].map (fun x => (x.1.ofType ty, x.2))

/-! ## AON blocks -/

/-- Every port of every outer island is down (R86). -/
def portsDown (d : Dev) : Bool := (List.range 144).all (fun p => !portUp p d)

/-- BL_LOCK_OK (R86). -/
def blLockOk (d : Dev) : Bool :=
  (List.range 18).all (fun i => pers i d == 0 || (islandPorts i d).all (fun p => !portUp p d)) &&
  ((List.range 32).filter (fun ty => 8 ≤ ty)).all (fun ty =>
    (List.range (instCount ty)).all (fun i => hrd Reg.PG_CTRL_ENABLE ty i d == 0))

/-- The staging bank: the bank other than the one booted, or in RECOVERY other than BANK_PREF (R506). -/
def stageBank (d : Dev) : Nat := if rd Reg.DEV_STATE 0 d = 7 then 1 - d.boot.pref % 2 else 1 - rd Reg.DEV_BANK 0 d

/-- A mailbox command is in progress. -/
def mbxBusy (d : Dev) : Bool := d.mg.mbxGo || d.mg.running.any (fun r => r.1 == Path.mailbox)

/-- The DEV fields that show state kept elsewhere (R58, R78); a semaphore is held as 1 while it is taken, and reads 1 where it was free. VIO is
sensed from AON release on (R550); after a warm reset its fields hold their Warm value until start-up has ended (log entry 70). -/
def liveDev (d : Dev) : List Live :=
  [(Reg.DEV_MGMT_SEM, fun i => 1 - rdI Reg.DEV_MGMT_SEM 0 i d), one Reg.DEV_MBX_BUSY (bnat (mbxBusy d)), one Reg.DEV_BL_LOCK_OK (bnat (blLockOk d)),
   one Reg.DEV_SLOT_VALID (bnat d.boot.valid0 + 2 * bnat d.boot.valid1),
   one Reg.DEV_EXPORT_OPEN (bnat d.boot.snapshot.isSome), one Reg.DEV_IMPORT_OPEN (bnat (!d.boot.chunks.isEmpty)),
   one Reg.DEV_CHUNKS d.boot.chunks.length] ++
  (if d.fd.aon && decide (d.boot.running < 3) then
    [one Reg.DEV_VIO_MV (if d.sens.vio < 65536 then d.sens.vio else free 16 d), one Reg.DEV_VIO_OK (bnat (vioGood d))]
   else [])

/-- ms to the next attempt of a path (R479, R496). -/
def retryLeft (w : Nat) (d : Dev) : Nat :=
  if rd (fState w) 0 d = 5 then
    rd (fLeft w) 0 d - (d.th.localNs - (if w = 0 then d.fd.tripA else d.fd.tripB)) / 1000000
  else 0

/-- The PWR fields that show state kept elsewhere (R496, R497). -/
def livePwr (d : Dev) : List Live :=
  let st := fun n => domState n d
  let time := fun f s n => rdI f 0 n d + (if st n = s then msInState n d else 0)
  pair Reg.PWR_PEND_MAP_LO Reg.PWR_PEND_MAP_HI (bitMap 64 (fun n => rdI Reg.PWR_PENDING 0 n d == 1))
  ++ pair Reg.PWR_ON_MAP_LO Reg.PWR_ON_MAP_HI (bitMap 64 (fun n => st n == 0))
  ++ pair Reg.PWR_RET_MAP_LO Reg.PWR_RET_MAP_HI (bitMap 64 (fun n => st n == 1))
  ++ pair Reg.PWR_OFF_MAP_LO Reg.PWR_OFF_MAP_HI (bitMap 64 (fun n => st n == 2))
  ++ pair Reg.PWR_TRANS_MAP_LO Reg.PWR_TRANS_MAP_HI (bitMap 64 (fun n => st n == 3))
  ++ [one (fLeft 0) (retryLeft 0 d), one (fLeft 1) (retryLeft 1 d),
      (Reg.PWR_RET_MS, time Reg.PWR_RET_MS 1), (Reg.PWR_OFF_MS, time Reg.PWR_OFF_MS 2)]

/-- The TIM fields that show the clocks (R451, R452). -/
def liveTim (d : Dev) : List Live :=
  one Reg.TIM_NOW_FRAC (d.th.fabric % 65536)
    :: (pair Reg.TIM_NOW_NS_LO Reg.TIM_NOW_NS_HI (fabricNs d) ++ pair Reg.TIM_LOCAL_NS_LO Reg.TIM_LOCAL_NS_HI d.th.localNs)

/-- An entry of the horizon table never written. -/
def HznEntry.init : HznEntry := ⟨false, 0, 0, false, 0, 0, 0, 0, 0, 0, 0, 0⟩

/-- An entry of the horizon table. -/
def hznOf (i : Nat) (d : Dev) : HznEntry := smGet (fun _ => HznEntry.init) d.th.hzn i

/-- The next time-axis entry due: the least moment, the lowest index among equals. -/
def nextDue (l : SMap HznEntry) : Option (Nat × HznEntry) :=
  l.foldl (fun b x => if x.2.armed && x.2.axis == 0 then
      (match b with | none => some x | some y => if x.2.moment < y.2.moment then some x else some y) else b) none

/-- The HZN fields that show the table. With no time-axis entry armed the spec states no NEXT_IDX: a free value (log entry 60). -/
def liveHzn (d : Dev) : List Live :=
  [one Reg.HZN_ARMED_CNT (d.th.hzn.filter (fun e => e.2.armed)).length,
   one Reg.HZN_NEXT_IDX (match nextDue d.th.hzn with | some x => x.1 | none => free 12 d)]

/-- The lifecycle state in force: that of the highest valid entry, BLANK without one (R501, R514). -/
def lcState (d : Dev) : Nat := d.otp.lcRec.getLast?.getD 0

/-- The bound OWNER slot, if any (R501). -/
def boundSlot (d : Dev) : Option Nat := d.otp.owners.findIdx? (fun o => o.2.1 && !o.2.2)

/-- The bound owner key. -/
def ownerKey (d : Dev) : List Byte := match boundSlot d with | some k => (d.otp.owners.getD k ([], false, false)).1 | none => []

/-- A word of a byte string, byte 0 lowest. -/
def wordOfBytes (b : List Byte) (i : Nat) : Nat := ofLe ((b.drop (4 * i)).take 4)

/-- The SEC fields that show OTP and staging (R520). -/
def liveSec (d : Dev) : List Live :=
  [one Reg.SEC_LC_STATE (lcState d), one Reg.SEC_LC_USED d.otp.lcRec.length, one Reg.SEC_OWNER_USED d.otp.owners.length,
   one Reg.SEC_OWNER_SLOT ((boundSlot d).getD 0), one Reg.SEC_OWNER_BOUND (bnat (boundSlot d).isSome),
   one Reg.SEC_FW_RB d.otp.fwRb, one Reg.SEC_KEY_RB d.otp.keyRb, one Reg.SEC_STAGE_BANK (stageBank d),
   one Reg.SEC_STAGE_OPEN (bnat d.sec.owner.isSome), one Reg.SEC_STAGE_CHUNKS d.sec.stageChunks.length,
   (Reg.SEC_OWNER_PUB, wordOfBytes (ownerKey d))]
  ++ pair Reg.SEC_SERIAL_LO Reg.SEC_SERIAL_HI d.otp.serial

/-- An island's aging monitor at a cold reset (R532, R539). -/
def AgeIsland.init : AgeIsland := ⟨0, 0xFF, [], []⟩

/-- The aging monitor of an island. -/
def ageOf (i : Nat) (d : Dev) : AgeIsland := smGet (fun _ => AgeIsland.init) d.log.aging i

/-- The LOG fields that show the log and the indexed island's history (R539). -/
def liveLog (d : Dev) : List Live :=
  let a := ageOf (rd Reg.LOG_AGE_ISL 0 d) d
  let h := a.history[rd Reg.LOG_AGE_IDX 0 d]?
  [one Reg.LOG_COUNT d.log.entries.length, one Reg.LOG_AGE_RO_PPM a.roPpm, one Reg.LOG_AGE_MARGIN a.margin,
   one Reg.LOG_AGE_HIST_RO (match h with | some x => x.roPpm | none => 0),
   one Reg.LOG_AGE_HIST_MARGIN (match h with | some x => x.margin | none => 0), one Reg.LOG_AGE_HIST_VALID (bnat h.isSome)]

/-! ## Datapath blocks -/

/-- Straits in service for an island (R187). -/
def straitUse (i : Nat) (d : Dev) : Nat := bitMap 6 (fun s => straitUp s d && !(i % 2 == 1 && rd Reg.ISL_X16 (i - 1) d == 1 && i < 18))

/-- Cells charged to headroom by packets of an island (R174). -/
def hdrmCharged (i : Nat) (d : Dev) : Nat := heldBy (fun q => inIsland q.inPort == i) (cellsUnder 2) d

/-- The LANE fields that show the trim and the last eye scan (R101, R115, R117). -/
def liveLane (n : Nat) (d : Dev) : List Live :=
  let i := rd Reg.LANE_EYE_IDX n d
  [one Reg.LANE_TRIM_ACTIVE (bnat (trimRuns n d)), one Reg.LANE_EYE_DATA (match smGet (fun _ => none) (laneOf n d).eye (i / 256 * 64 + i % 64) with
    | some e => 2 ^ 31 + e
    | none => 0)]

/-- The SCH fields that show shapers and gates (R213). -/
def liveSch (p : Nat) (d : Dev) : List Live :=
  [(Reg.SCH_SHP_TOKENS, fun q => ofSigned 32 (tokensNow p q d / 8000)), one Reg.SCH_GUARD_NS (guardNs p d),
   one Reg.SCH_CYCLE_NS_A (gateCycle p 0 d), one Reg.SCH_CYCLE_NS_B (gateCycle p 1 d)]

/-- The HBR fields that show the shared pool (R171, R188). -/
def liveHbr (d : Dev) : List Live :=
  [one Reg.HBR_CREDIT_RSV (creditRsv false d), one Reg.HBR_MIN_RSV (minRsv d), one Reg.HBR_SHARED_FREE (sharedFree d).toNat]

/-! ## Engines, functions and the switch -/

/-- The BRG fields of the indexed window and group (R329); the levels of the wires are sampled again once start-up has ended (log entry 70). -/
def liveBrg (d : Dev) : List Live :=
  let w := rd Reg.BRG_BW_IDX 0 d
  let g := rd Reg.BRG_GRP_IDX 0 d
  let b := bw w d
  [one Reg.BRG_FENCE_DONE (bnat (!b.fence)), one Reg.BRG_ERR_LATCH (bnat b.latch), one Reg.BRG_ERR_CAUSE b.cause,
   one Reg.BRG_LOCKED (bnat b.lock.isSome), one Reg.BRG_TAGS_USED (winTags w d), one Reg.BRG_ERR_PSN b.psn,
   one Reg.BRG_GRP_TAGS (grpTags g d), one Reg.BRG_GRP_WCELLS (grpHeld g d)] ++
  (if d.boot.running = 0 then [(Reg.BRG_SLOT_LVL, fun k => slotLvl k d), (Reg.BRG_HOST_LVL, fun k => hostLvl k d)] else [])

/-- The SLC fields of the slices of a page (R448). -/
def liveSlc (page : Nat) (d : Dev) : List Live :=
  [(Reg.SLC_WQE_ACTIVE, fun s => startedCount (16 * page + s) false d), (Reg.SLC_RD_ACTIVE, fun s => readsOut (16 * page + s) d),
   (Reg.SLC_MATCH_ACTIVE, fun s => matchActive (16 * page + s) d), (Reg.SLC_COLL_ACTIVE, fun s => collActive (16 * page + s) d),
   (Reg.SLC_BRG_ACTIVE, fun s => brgActive (16 * page + s) d), (Reg.SLC_REGIONS, fun s => sliceRegions (16 * page + s) d)]

/-- The serial of a member of the composite. -/
def memberSerial (c : Nat) (d : Dev) : Nat := match d.cmp.ids.find? (fun x => x.2 == c) with | some x => x.1 | none => 0

/-- The CMP fields of the indexed member and CVH (R421). -/
def liveCmp (d : Dev) : List Live :=
  let m := rd Reg.CMP_MBR_IDX 0 d
  let c := smFind d.sw.cvhs (rd Reg.CMP_CVH_IDX 0 d)
  let known := d.cmp.ids.any (fun x => x.2 == m)
  [(Reg.CMP_MBR_SERIAL, fun i => memberSerial m d / 2 ^ (32 * i) % 2 ^ 32), one Reg.CMP_MBR_LID (smGet (fun _ => 0) d.sw.lids m),
   one Reg.CMP_MBR_REACH (bnat (known && !d.sw.unreach.contains m)),
   one Reg.CMP_CVH_HOME (match c with | some x => x.1 | none => 0), one Reg.CMP_CVH_LVH (match c with | some x => x.2 | none => 0),
   one Reg.CMP_CVH_VALID (bnat c.isSome)]

/-- The fields of a page that show state kept elsewhere. -/
def liveFields (ty inst : Nat) (d : Dev) : List Live :=
  liveHeader ty inst d ++ match ty with
  | 0x00 => liveDev d
  | 0x01 => livePwr d
  | 0x02 => liveTim d
  | 0x03 => liveHzn d
  | 0x04 => liveSec d
  | 0x05 => liveLog d
  | 0x08 => liveLane inst d
  | 0x09 => [one Reg.ISL_STRAIT_USE (straitUse inst d), one Reg.ISL_HDRM_CHARGED (hdrmCharged inst d)]
  | 0x0A => [one Reg.LNK_OUTSTANDING (outstanding inst d), (Reg.LNK_CRED_AVAIL, fun v => credAvail inst v d)]
  | 0x0D => if inst = 0 then liveHbr d else []
  | 0x0E => liveSch inst d
  | 0x14 => [one Reg.WIN_FENCE_DONE (bnat (!winPend (rd Reg.WIN_IDX 0 d) d))]
  | 0x15 => liveBrg d
  | 0x1A => if inst = 0 then [one Reg.VHC_PW_FENCE_DONE (bnat (d.sw.pwFence.all (fun f => f.1 != rd Reg.VHC_PW_IDX 0 d)))] else []
  | 0x1B => [one Reg.FUN_RD_OUT (d.eng.reads.filter (fun r => r.vh == inst && r.waits.isEmpty)).length,
             one Reg.FUN_TAGS_QUAR (d.eng.quar.filter (fun t => t.1 == inst)).length]
  | 0x1C => liveSlc inst d
  | 0x1D => [(Reg.MIR_RING_FULL, fun k => bnat (ringFull k d))]
  | 0x1F => liveCmp d
  | _ => []

/-- Lays a field that shows state kept elsewhere over a word. -/
def layLive (off : Nat) (w : Word) (x : Live) : Word :=
  match fldIdx x.1 off with
  | some i => setBits w x.1.lo x.1.wd (x.2 i)
  | none => w

/-- The bits of a LNK word that apply on the port: all on SFL; on EXP LSTATE, FWD, DOWN_CNT and FORCED_STORE, on ETH also EN and
DOWN_CAUSE (R151). -/
def lnkMask (p off : Nat) (d : Dev) : Word :=
  if pers (p / 8) d = 2 ∨ off < 0x100 then BitVec.allOnes 32
  else
    let eth := pers (p / 8) d == 3
    match off with
    | 0x100 => 0xF
    | 0x104 => if eth then 3 else 2
    | 0x11C => if eth then 0xFF else 0
    | 0x180 | 0x184 => BitVec.allOnes 32
    | _ => 0

/-- The bits of a word that read: X16 reads 0 on odd islands, WEIGHT on q0 to q2 (R186, R213). -/
def readMask (ty inst off : Nat) (d : Dev) : Word :=
  match ty with
  | 0x0A => lnkMask inst off d
  | 0x09 => if off = 0x100 ∧ inst % 2 = 1 then ~~~8 else BitVec.allOnes 32
  | 0x0E => if off = 0x100 ∨ off = 0x110 ∨ off = 0x120 then ~~~0xFF else BitVec.allOnes 32
  | _ => BitVec.allOnes 32

/-- The word at an offset of a page that exists, as a read returns it (R33, R37). -/
def pageWord (ty inst off : Nat) (d : Dev) : Word :=
  (liveFields ty inst d).foldl (layLive off) (wordAt (regAddr ty inst off) d) &&& readMask ty inst off d

/-- What one member returns: all of it in ON, RET and in transition; in OFF, PG_ID, PG_CAP and PG_PWR; zero where nothing is (R34,
R42). -/
def memberWord (ty inst off : Nat) (bcast : Bool) (d : Dev) : Word :=
  if !(pageExists ty inst d && offsetOk ty inst off) then 0
  else if domState (servedDomain ty inst off) d = 2 ∧ (bcast = true ∨ !(off = 0 ∨ off = 4 ∨ off = 0x28)) then 0
  else pageWord ty inst off d

/-- Instances that a broadcast instance addresses: all, or those of a group mask (R40). -/
def bcastSet (ty inst : Nat) (d : Dev) : List Nat :=
  (List.range (instCount ty)).filter (fun i =>
    inst == 0xFF || bitOf (rdI Reg.DEV_GRP_MASK 0 (8 * (inst - 0xF0) + i / 32) d) (i % 32))

/-- An instance number is a broadcast instance of its type (R35, R36). -/
def isBcast (ty inst : Nat) : Bool := decide (0xF0 ≤ inst) && bcastOk ty

/-- What a read of an address returns, with no effect of its own (R34, R40, R42). -/
def peekWord (ty inst off : Nat) (d : Dev) : Word :=
  if isBcast ty inst then (bcastSet ty inst d).foldl (fun w i => w ||| memberWord ty i off true d) 0
  else memberWord ty inst off false d

end Sys2Proof.Machine
end

