-- ==== Sys2Proof/Machine/Route.lean ====
section
/-!
DEFINITION. The meanings of the routing commands (ch. 08): waiting and held packets, rejoin, the stuck-lane watch, epoch swaps and
the routing tables.
-/

namespace Sys2Proof.Machine

/-- The head of a packet has waited ESC_WAIT on the normal sub-channel without credit: it moves to the escape sub-channel
(R237). -/
def escWaitTimeout (pkt : Nat) (d : Dev) : Dev :=
  match pktOf pkt d with
  | none => d
  | some q =>
    let isl := inIsland q.inPort
    let vc := q.vlane / 2
    if q.begun ∨ 144 ≤ q.eg ∨ hget .ESCL q.hdr = 1 ∨ q.bare ∨ (vc ≠ 1 ∧ vc ≠ 2 ∧ vc ≠ 4) then d
    else
      d |> bump Reg.RTE_ESC_ENTRY isl |> updPkt pkt (fun r => { r with hdr := hput .ESCL 1 r.hdr }) |> moveRoute pkt

/-- A held packet reaches ROUTE_HOLD (R247). -/
def routeHoldExpire (pkt : Nat) (d : Dev) : Dev :=
  match pktOf pkt d with
  | some q => if q.held.isSome then unroutable pkt (inIsland q.inPort) d else d
  | none => d

/-- REJOIN after LINK_UP the port rejoins PORT_UP, and held packets look again (R247, R248). -/
def portRejoin (p : Nat) (d : Dev) : Dev :=
  if (portOf p d).rejoin ∧ portUp p d then
    d |> updPort p (fun q => { q with rejoin := false }) |> setPortUp p true |> retryHeld
  else d

/-- A virtual lane holds flits without credit for STUCK_WD: raised with port and lane, nothing else (R245). -/
def stuckLane (p vl : Nat) (d : Dev) : Dev :=
  if portUp p d ∧ credAvail p vl d = 0 ∧ d.net.pkts.any (fun q => q.eg == p && q.vlane == vl && decide (0 < q.queued)) then
    raiseDet Ev.STUCK_LANE (p / 8) (BitVec.ofNat 32 (p + 256 * vl)) 0 d
  else d

/-- The inactive set becomes active at every island, whose pages raise it (R250, R253; DEDUCED, log entry 61). -/
def swapSets (d : Dev) : Dev :=
  let e := 1 - rd Reg.RTE_EPOCH 0 d
  forEach (List.range 20) (fun i d => wr Reg.RTE_EPOCH i e d) d
    |> (fun d => { d with net := { d.net with
          layer2 := false, flowlets := d.net.flowlets.map (fun kf => (kf.1, { kf.2 with since := false })) } })
    |> forEach (List.range 20) (raise Ev.EPOCH_SWAPPED)

/-- Number of entries of a table by TBL_SEL (R222). -/
def tblSize (sel : Nat) : Nat :=
  match sel with | 0 => 8192 | 1 => 1024 | 2 => 256 | 3 => 4096 | 4 => 144 | 5 => 4096 | _ => 0

/-- Words of an entry by TBL_SEL (R224, R225). -/
def tblWords (sel : Nat) : Nat :=
  match sel with | 0 => 4 | 1 => 5 | 2 => 5 | 3 => 3 | 4 => 1 | 5 => 3 | _ => 0

/-- The bits that an entry keeps; reserved bits read zero (R10, R224, R225). -/
def tblMask (sel : Nat) : Nat :=
  let level := 0x7FFFFFFF + 0x3F0FFFFF * 2 ^ 32 + 0xF3F * 2 ^ 64
  match sel with
  | 0 => level
  | 1 => 0x800FFFFF + level * 2 ^ 32
  | 2 => 2 ^ 144 - 1
  | 4 => 0x1F
  | 5 => 2 ^ 32 - 1 + 0x8000FFFF * 2 ^ 32 + 0x0FFFFFFF * 2 ^ 64
  | _ => 0

/-- TBL_SEL or TBL_IDX names no entry; inner islands have no gateway table (R222, R254). -/
def tblBad (isl : Nat) (d : Dev) : Bool :=
  decide (tblSize (rd Reg.RTE_TBL_SEL isl d) ≤ rd Reg.RTE_TBL_IDX isl d) || (rd Reg.RTE_TBL_SEL isl d == 5 && decide (18 ≤ isl))

/-- The table number that TBL_SEL has in the store: 3 port attribute, 4 gateway. -/
def tblNo (sel : Nat) : Nat := if sel < 3 then sel else sel - 1

/-- A flowlet entry as TBL_DATA shows it, its last use in 10 ns units (R225). -/
def flowletWord (f : Flowlet) : Nat :=
  f.port + 256 * bnat f.esc + 512 * bnat f.layer + 2 ^ 31 * bnat f.valid + 2 ^ 32 * f.ilid + 2 ^ 64 * (f.last / 10 % 2 ^ 24)

/-- The entry that TBL_SEL, TBL_SET and TBL_IDX name. -/
def tblEntry (isl : Nat) (d : Dev) : Nat :=
  let sel := rd Reg.RTE_TBL_SEL isl d
  let idx := rd Reg.RTE_TBL_IDX isl d
  if sel = 3 then flowletWord (flowletOf isl idx d)
  else
    let set := if sel < 3 then (if rd Reg.RTE_TBL_SET isl d = 1 then epoch isl d else 1 - epoch isl d) else 0
    tblAt isl (tblNo sel) set idx d

/-- TBL_READ: the entry into TBL_DATA (R252). -/
def tblReadTrig (isl : Nat) (val : Word) (d : Dev) : Dev :=
  if tblBad isl d then cfgErr 0x10 isl 0x178 Cfg.CFG_RTE_RANGE val d
  else
    let e := tblEntry isl d
    forEach (List.range 5) (fun w => wrI Reg.RTE_TBL_DATA isl w (bitsOf e (32 * w) 32)) d

/-- TBL_DATA as one number. -/
def tblData (isl : Nat) (d : Dev) : Nat :=
  (List.range 5).foldl (fun n w => n + rdI Reg.RTE_TBL_DATA isl w d * 2 ^ (32 * w)) 0

/-- TBL_WRITE: TBL_DATA into the entry, of the inactive set for tables 0 to 2; the flowlet table cannot be written, and the sets not
while a horizon swap is pending (R250, R252, R254). -/
def tblWriteTrig (isl : Nat) (val : Word) (d : Dev) : Dev :=
  let sel := rd Reg.RTE_TBL_SEL isl d
  if tblBad isl d ∨ sel = 3 then cfgErr 0x10 isl 0x178 Cfg.CFG_RTE_RANGE val d
  else if sel < 3 ∧ rd Reg.RTE_SWAP_PEND isl d = 1 then
    cfgErr 0x10 isl 0x178 Cfg.CFG_RTE_ACTIVE val d
  else
    let set := if sel < 3 then 1 - epoch isl d else 0
    tblPut isl (tblNo sel) set (rd Reg.RTE_TBL_IDX isl d)
      (tblData isl d % 2 ^ (32 * tblWords sel) &&& tblMask sel) d

/-! ## The commands -/

/-- ESC_WAIT_TIMEOUT (R237). -/
def execEscWaitTimeout (pkt : Nat) (s : State) : Out := onNet (escWaitTimeout pkt) s

/-- ROUTE_HOLD_EXPIRE (R247). -/
def execRouteHoldExpire (pkt : Nat) (s : State) : Out := onNet (routeHoldExpire pkt) s

/-- PORT_REJOIN (R248). -/
def execPortRejoin (port : Nat) (s : State) : Out := onNet (portRejoin port) s

/-- STUCK_LANE (R245). -/
def execStuckLane (port vl : Nat) (s : State) : Out := onNet (stuckLane port vl) s

/-- SWAP (R250). -/
def execSwap (isl : Nat) (s : State) : Out := onNet (trigger 0x10 isl 0x154 1 (fun _ => swapSets)) s

/-- TBL_READ (R252). -/
def execTblRead (isl : Nat) (s : State) : Out := onNet (trigger 0x10 isl 0x178 0 (tblReadTrig isl)) s

/-- TBL_WRITE (R252). -/
def execTblWrite (isl : Nat) (s : State) : Out := onNet (trigger 0x10 isl 0x178 1 (tblWriteTrig isl)) s

end Sys2Proof.Machine
end

