-- ==== Sys2Proof/Machine/Commit.lean ====
section
/-!
DEFINITION. Staged commit (R44, R45, R48): the checks of each block's staged set, and what a block does when the set goes into force.
-/

namespace Sys2Proof.Machine

/-- The effect of a command that may touch any block, and what other blocks do then. -/
def withAll (f : Dev → Dev) (d : Dev) : Dev := settleEng (settleNet d (f d))

/-- A command that may touch any block. -/
def onAll (f : Dev → Dev) (s : State) : Out := onDev (withAll f) s

/-! ## Staged sets -/

/-- A staged value of a page differs from the value in force. -/
def stagedDiff (ty inst : Nat) (d : Dev) : Bool :=
  (stagedRows ty).any (fun f => (elemsOf f).any (fun i => rdI f inst i d != rdI f.shadow inst i d))

/-- The staged set goes into force. -/
def stagedIn (ty inst : Nat) (d : Dev) : Dev :=
  forEach (stagedRows ty) (fun f d => forEach (elemsOf f) (fun i d => wrI f inst i (rdI f.shadow inst i d) d) d) d

/-- The values in force go into the staged set (R37). -/
def stagedOut (ty inst : Nat) (d : Dev) : Dev :=
  forEach (stagedRows ty) (fun f d => forEach (elemsOf f) (fun i d => wrI f.shadow inst i (rdI f inst i d) d) d) d

/-- Windows of the WIN page whose shadow differs from the live entry. -/
def winDiffs (d : Dev) : List Nat := (d.eng.wins.filter (fun e => e.2.live != e.2.shadow)).map (fun e => e.1)

/-- Windows of the BRG page whose shadow differs from the live entry. -/
def bwinDiffs (d : Dev) : List Nat := (d.eng.brgWins.filter (fun e => e.2.live != e.2.shadow)).map (fun e => e.1)

/-- Staged words of a page were written since its last commit. -/
def touchedOf (ty inst : Nat) (d : Dev) : List Nat := d.mg.touched.filter (fun a => addrType a == ty && addrInst a == inst)

/-- A commit of a page has something to bring into force. -/
def hasStaged (ty inst : Nat) (d : Dev) : Bool :=
  stagedDiff ty inst d || (ty == 0x0E && !(touchedOf ty inst d).isEmpty) || (ty == 0x14 && !(winDiffs d).isEmpty)
    || (ty == 0x15 && !(bwinDiffs d).isEmpty)

/-! ## Ports of an island (R28, R29, R97, R146) -/

/-- The port bytes of an island. -/
def islBytes (i : Nat) (d : Dev) : List Nat := (List.range 8).map (fun j => portByte (8 * i + j) d)

/-- Lanes of a width code. -/
def codeWidth (c : Nat) : Nat :=
  match c / 16 with
  | 1 => 1 | 2 => 2 | 3 => 4 | 4 => 8 | 5 => 16 | _ => 0

/-- A rate code that a personality defines. -/
def rateOk (pers rate : Nat) : Bool :=
  match pers with
  | 1 => decide (1 ≤ rate ∧ rate ≤ 6)
  | 2 | 3 => decide (1 ≤ rate ∧ rate ≤ 2)
  | _ => false

/-- Every port byte of an island lies within its encoding. -/
def bytesOk (pers : Nat) (bs : List Nat) : Bool := bs.all (fun c => c / 16 == 0 || (decide (c / 16 ≤ 5) && rateOk pers (c % 16)))

/-- The port that starts at position `j` starts at a multiple of its width, ends at position 7 and overlaps no port before it; a ×16
goes on into the next island. -/
def placeOk (bs : List Nat) (j : Nat) : Bool :=
  let w := codeWidth (bs.getD j 0)
  w == 0 || (j % w == 0 && decide (j + min w 8 ≤ 8) &&
    (List.range j).all (fun k => codeWidth (bs.getD k 0) == 0 || decide (k + min (codeWidth (bs.getD k 0)) 8 ≤ j)))

/-- The two islands of a flagged pair form one ×16 (R29). -/
def pairOk (persA persB : Nat) (a b : List Nat) : Bool :=
  persA == 1 && persB == 1 && a.getD 0 0 / 16 == 5 && (a.drop 1).all (fun c => c / 16 == 0) && b.all (fun c => c / 16 == 0)

/-- The error that refuses the ports of an island, 0 for none, in the order of R99; `enc` is the error of a byte outside its encoding.
Where R28 and R29 both refuse, CFG_REACH_PERS comes first (DESIGN CHOICE, log entry 184). -/
def portsErr (enc pers reach : Nat) (flag pair pairGood : Bool) (odd : Bool) (bs : List Nat) : Nat :=
  if pers ≠ 0 ∧ bytesOk pers bs = false then enc
  else if pers ≠ 0 ∧ (List.range 8).all (fun j => placeOk bs j) = false then Cfg.CFG_PORT_WIDTH
  else if reach = 1 ∧ pers ≠ 2 then Cfg.CFG_REACH_PERS
  else if (odd && flag) || (pair && !pairGood) then Cfg.CFG_X16_SPLIT
  else if pers ≠ 0 ∧ pers ≠ 1 ∧ bs.any (fun c => c / 16 == 5) = true then Cfg.CFG_PORT_WIDTH
  else if pers = 1 ∧ bs.any (fun c => c / 16 == 5) = true ∧ pair = false then Cfg.CFG_X16_SPLIT
  else if pers = 3 ∧ bs.any (fun c => c / 16 == 4 && c % 16 == 1) = true then Cfg.CFG_PORT_WIDTH
  else 0

/-- The error that refuses the ports of an island as they stand in a state. -/
def islandErr (i : Nat) (d : Dev) : Nat :=
  let k := i - i % 2
  let pair := rd Reg.ISL_X16 k d == 1
  portsErr Cfg.CFG_PORT_WIDTH (pers i d) (rd Reg.ISL_REACH i d) (rd Reg.ISL_X16 i d == 1) pair
    (pairOk (pers k d) (pers (k + 1) d) (islBytes k d) (islBytes (k + 1) d)) (i % 2 == 1) (islBytes i d)

/-- Start and width of the ports of an island. -/
def portSpans (i : Nat) (d : Dev) : List (Nat × Nat) := (islandPorts i d).map (fun p => (p, portWidth p d))

/-! ## EXP indices and virtual hierarchies (R395, R420, R424) -/

/-- The ports of EXP islands. -/
def expPorts (d : Dev) : List Nat := (List.range 144).filter (fun p => portStarts p d && pers (p / 8) d == 1)

/-- Ports removed free their indices; new ports take the lowest free ones in ascending port number (R395). -/
def assignIdx (d : Dev) : Dev :=
  d |> forEach (List.range 64) (fun k d => onlyIf (rd Reg.EXP_IDX_VALID k d == 1 && !(expPorts d).contains (rd Reg.EXP_PORT k d))
          (fun d => d |> wr Reg.EXP_IDX_VALID k 0 |> wr Reg.EXP_PORT k 0) d)
    |> (fun d => forEach ((expPorts d).filter (fun p => (expIdx p d).isNone)) (fun p d =>
          match (List.range 64).find? (fun k => rd Reg.EXP_IDX_VALID k d == 0) with
          | some k => d |> wr Reg.EXP_IDX_VALID k 1 |> wr Reg.EXP_PORT k p
          | none => d) d)

/-- The upstream port that serves a VH. -/
def uspOf (v : Nat) (d : Dev) : Option Nat :=
  (List.range 64).find? (fun k => rd Reg.EXP_IDX_VALID k d == 1 && rd Reg.EXP_ROLE k d == 1 && rd Reg.EXP_LVH k d == v)

/-- VH_EN, USP and PRESENT follow the upstream ports. -/
def refreshVh (d : Dev) : Dev :=
  forEach (List.range 16) (fun v d =>
    d |> wr Reg.VHC_VH_EN v (bnat (uspOf v d).isSome) |> wr Reg.VHC_USP v ((uspOf v d).getD 0)
      |> wr Reg.FUN_PRESENT v (bnat (uspOf v d).isSome)) d

/-! ## Checks (R44 step 2) -/

/-- The transmit taps of a set are valid (R98). -/
def tapsOk (tx post : Nat) : Bool :=
  let l := (List.range 4).map (fun k => toSigned 8 (bitsOf tx (8 * k) 8)) ++ [toSigned 8 (post % 256)]
  decide (32 ≤ l.getD 3 0) && decide ((l.map Int.natAbs).sum ≤ 128)

/-- The starting values of the DFE taps are in range (R98). -/
def dfeOk (w : Nat) : Bool := (List.range 4).all (fun k => decide (-64 ≤ toSigned 8 (bitsOf w (8 * k) 8) ∧ toSigned 8 (bitsOf w (8 * k) 8) ≤ 63))

/-- LANE: both sets keep to R98. -/
def chkLane (n : Nat) (x : Dev) : Nat :=
  if tapsOk (rd Reg.LANE_TX_A n x) (rd Reg.LANE_TX_A_POST n x) && tapsOk (rd Reg.LANE_TX_B n x) (rd Reg.LANE_TX_B_POST n x)
      && dfeOk (rd Reg.LANE_DFE_A_LO n x) && dfeOk (rd Reg.LANE_DFE_A_HI n x) && dfeOk (rd Reg.LANE_DFE_B_LO n x)
      && dfeOk (rd Reg.LANE_DFE_B_HI n x) then 0
  else Cfg.CFG_EQ_RANGE

/-- ISL: C5, R29, C1, R395 and C8. -/
def chkIsl (i : Nat) (d x : Dev) : Nat :=
  if pers i x ≠ pers i d ∧ domOn i d = false then Cfg.CFG_DOMAIN_NOT_ON
  else if islandErr i x ≠ 0 then islandErr i x
  else if 64 < (expPorts x).length then Cfg.CFG_EXP_INDEX
  else if harbourFits (assignIdx x) then 0 else Cfg.CFG_HBR_OVERCOMMIT

/-- LNK: R151, R133. -/
def chkLnk (p : Nat) (x : Dev) : Nat :=
  if (List.range 16).all (fun v => decide (4 ≤ rdI Reg.LNK_CRED_GRANT p v x ∧ rdI Reg.LNK_CRED_GRANT p v x ≤ 2047)) then
    (if harbourFits x then 0 else Cfg.CFG_HBR_OVERCOMMIT)
  else Cfg.CFG_LNK_RANGE

/-- HBR, in the order of R188. -/
def chkHbr (x : Dev) : Nat :=
  if (List.range 19).any (fun q => decide (9 < rdI Reg.HBR_ALPHA_EXP 0 q x)) then Cfg.CFG_HBR_RANGE
  else if 16 < popCount 19 (rd Reg.HBR_BUF_DT 0 x) then Cfg.CFG_DT_LIMIT
  else if harbourFits x then 0 else Cfg.CFG_HBR_OVERCOMMIT

/-- SCH: R202, R203, R213. -/
def chkSch (p : Nat) (d x : Dev) : Nat :=
  let w := (List.range 19).all (fun q => q < 3 || decide (1 ≤ rdI Reg.SCH_WEIGHT p q x))
  let s := (List.range 20).all (fun q => decide (1 ≤ rdI Reg.SCH_SHP_RATE p q x ∧ rdI Reg.SCH_SHP_RATE p q x ≤ 4000000
    ∧ 64 ≤ rdI Reg.SCH_SHP_BURST p q x))
  let m := (List.range 16).all (fun t => decide (2 ≤ bitsOf (rdI Reg.SCH_TCQ_MAP p (t / 4) x) (8 * (t % 4)) 8
    ∧ bitsOf (rdI Reg.SCH_TCQ_MAP p (t / 4) x) (8 * (t % 4)) 8 ≤ 18))
  let z := decide (64 ≤ rd Reg.SCH_GATE_MAXSZ p x ∧ rd Reg.SCH_GATE_MAXSZ p x ≤ 10240)
  if !(w && s && m && z) then Cfg.CFG_SCH_RANGE
  else if rd Reg.SCH_GATE_EN p x = 1 ∧ (pers (p / 8) d = 1 ∨ (rd Reg.SCH_GATE_EN p d = 0 ∧ gateListOk p (rd Reg.SCH_ACTIVE_LIST p d) d = false))
  then Cfg.CFG_GATE_LIST
  else 0

/-- RTE: R252, C10. -/
def chkRte (i : Nat) (x : Dev) : Nat :=
  let m := rd Reg.RTE_MODE_TC i x
  if (List.range 16).any (fun t => bitsOf m (2 * t) 2 == 3) then Cfg.CFG_RTE_RANGE
  else if bitsOf m (2 * rd Reg.RTE_COLL_TC i x) 2 ≠ 0 then Cfg.CFG_ROUTE_CLASS
  else 0

/-- EXP: R419, R396, R406. -/
def chkExp (k : Nat) (d x : Dev) : Nat :=
  let g := rd Reg.EXP_MAX_GEN k x
  let moved := rd Reg.EXP_ROLE k x != rd Reg.EXP_ROLE k d || rd Reg.EXP_LVH k x != rd Reg.EXP_LVH k d
  if g = 0 ∨ 6 < g ∨ rd Reg.EXP_PH k x = 0 ∨ rd Reg.EXP_NPH k x = 0 ∨ rd Reg.EXP_CH k x = 0 ∨ rd Reg.EXP_PD k x < 16
      ∨ rd Reg.EXP_NPD k x < 4 ∨ rd Reg.EXP_CD k x < 16 then Cfg.CFG_EXP_RANGE
  else if moved && (rd Reg.EXP_EN k d == 1 ||
      (rd Reg.EXP_ROLE k x == 1 && (List.range 64).any (fun j => j != k && rd Reg.EXP_IDX_VALID j d == 1 && rd Reg.EXP_ROLE j d == 1
        && rd Reg.EXP_LVH j d == rd Reg.EXP_LVH k x)) ||
      (rd Reg.EXP_ROLE k x == 1 && rd Reg.EXP_ROLE k d == 0 && rd Reg.EXP_BOUND k d == 1)) then Cfg.CFG_EXP_BIND
  else if harbourFits x then 0 else Cfg.CFG_HBR_OVERCOMMIT

/-- MIR: R184, R189. The places a session would use are checked where it is enabled. -/
def chkMir (x : Dev) : Nat :=
  let on := fun n k => rdI Reg.MIR_EN 0 n x == 1 && rdI Reg.MIR_DEST_KIND 0 n x == k
  let size := fun n => rdI Reg.MIR_RING_SIZE 0 n x
  if (List.range 8).any (fun n => rdI Reg.MIR_DEST_KIND 0 n x == 3 || ((on n 0 || on n 1) &&
      ((on n 0 && !portStarts (rdI Reg.MIR_DST_PORT 0 n x) x) || decide (144 ≤ rdI Reg.MIR_DST_PORT 0 n x) || rdI Reg.MIR_DST_PORT 0 n x == rdI Reg.MIR_SRC_PORT 0 n x))) then Cfg.CFG_MIR_PORT
  else if (List.range 8).any (fun n => ringBase n x % 4096 != 0 || decide (size n < 16 ∨ 32 < size n)
      || (on n 2 && !inArea 3 (ringBase n x) (2 ^ size n) x)) then Cfg.CFG_MIR_RING
  else 0

/-- A valid QP range is backed in package memory (R256). -/
def ctxInUse (d : Dev) : Bool := d.eng.ranges.any (fun e => bitOf e.2.1 16 && !bitOf e.2.1 17)

/-- A match context is valid. -/
def matchInUse (d : Dev) : Bool := d.eng.quads.any (fun e => e.2.ctxs.any (fun c => c.2.isSome))

/-- An area is in use (R23 item 3). -/
def areaInUse (a : Nat) (d : Dev) : Bool :=
  match a with
  | 0 => ctxInUse d
  | 1 => decide (0 < validRegions d) || d.eng.maps.any (fun e => wbits e.2 0 28 1 == 1)
  | 2 => matchInUse d
  | 3 => (List.range 8).any (fun n => rdI Reg.MIR_EN 0 n d == 1)
  | 4 => d.th.hzn.any (fun e => e.2.armed && e.2.action == 2)
  | _ => d.eng.regions.any (fun e => e.2.valid && e.2.target)
      || d.eng.wins.any (fun e => wbits e.2.live 0 0 1 == 1 && wbits e.2.live 0 1 1 == 1)

/-- The smallest sizes of the translation and match areas in MiB (R21). -/
def xltMin (blocks : Nat) : Nat := 273 + (blocks + 255) / 256
/-- As above, for the greatest bounce pool in force. -/
def matchMin (size : Nat) : Nat := 776 + 4 * 2 ^ (size - 20)

/-- PKM: the areas keep to R23. -/
def chkPkm (d x : Dev) : Nat :=
  let base := fun a => rdI Reg.PKM_AREA_BASE 0 a x
  let size := fun a => rdI Reg.PKM_AREA_SIZE 0 a x
  let all := List.range 6
  let placed := all.all (fun a => decide (64 ≤ base a ∧ base a ≤ 49152 ∧ base a + size a ≤ 49152))
  let apart := all.all (fun a => all.all (fun b => decide (b ≤ a) || size a == 0 || size b == 0 || !overlaps (base a) (size a) (base b) (size b)))
  let pool := (List.range 4).foldl (fun m k => max m (rd Reg.MTE_UX_POOL_SIZE k d)) 0
  let sized := decide (xltMin (rd Reg.MRG_XLT_BLOCKS 0 d) ≤ size 1 ∧ matchMin pool ≤ size 2)
  let idle := all.all (fun a => (base a == rdI Reg.PKM_AREA_BASE 0 a d && size a == rdI Reg.PKM_AREA_SIZE 0 a d) || !areaInUse a d)
  if placed && apart && sized && idle then 0 else Cfg.CFG_PKM_AREA

/-- Commits windows one after the other; the first refused ends it. -/
def tryWins (fits : Nat → Dev → Bool) (go : Nat → Dev → Dev) : List Nat → Dev → Option Dev
  | [], d => some d
  | w :: ws, d => if fits w d then tryWins fits go ws (go w d) else none

/-- Every window of the WIN page whose shadow differs comes into force. -/
def winsIn (d : Dev) : Option Dev := tryWins (fun w d => winFits (winOf w d).shadow d) (fun w => commitWin w 8 0) (winDiffs d) d

/-- Every window of the BRG page whose shadow differs comes into force. -/
def bwinsIn (d : Dev) : Option Dev := tryWins (fun w d => bwinFits w (bwinOf w d).shadow d) (fun w => commitBwin w 8 0) (bwinDiffs d) d

/-- The error that refuses the staged set of a page, 0 for none. -/
def commitErr (ty inst : Nat) (d : Dev) : Nat :=
  let x := stagedIn ty inst d
  match ty with
  | 0x08 => chkLane inst x
  | 0x09 => chkIsl inst d x
  | 0x0A => chkLnk inst x
  | 0x0D => chkHbr x
  | 0x0E => chkSch inst d x
  | 0x10 => chkRte inst x
  | 0x14 => if (winsIn d).isSome then 0 else Cfg.CFG_WIN_RANGE
  | 0x15 => if (bwinsIn d).isSome then 0 else Cfg.CFG_BRG_RANGE
  | 0x19 => chkExp inst d x
  | 0x1D => chkMir x
  | 0x1E => chkPkm d x
  | _ => 0

/-! ## What a block does at the swap -/

/-- An island reset with the ports as they were, and the set in force; then the EXP indices and VHs follow (R31, R186, R395). -/
def swapIsl (i : Nat) (d : Dev) : Dev :=
  let x := stagedIn 0x09 i d
  let x16 := rd Reg.ISL_X16 i x != rd Reg.ISL_X16 i d
  let runs := pers i x != pers i d || rd Reg.ISL_REACH i x != rd Reg.ISL_REACH i d || portSpans i x != portSpans i d || x16
  d |> onlyIf runs (islandReset i) |> onlyIf (x16 && decide (i % 2 = 0)) (islandReset (i + 1))
    |> stagedIn 0x09 i |> assignIdx |> refreshVh

/-- The shapers whose fields a commit wrote, and those being enabled (R201). -/
def shapersWritten (p : Nat) (d : Dev) : List Nat :=
  let t := touchedOf 0x0E p d
  (List.range 20).filter (fun q =>
    [0, 4, 8].any (fun k => t.contains (regAddr 0x0E p (0x500 + 0x10 * q + k)))
      || (rdI Reg.SCH_SHP_EN.shadow p q d == 1 && rdI Reg.SCH_SHP_EN p q d == 0))

/-- Shapers reset and gates follow the set in force (R201, R202, R204). -/
def swapSch (p : Nat) (d : Dev) : Dev :=
  let qs := shapersWritten p d
  d |> stagedIn 0x0E p |> forEach qs (reconfigShaper p) |> (if gatesOn p d then gateRefresh p else gateStart p)

/-- A port that joins or leaves a slot shows the presence of its wire and drives PERST_N (R411). -/
def swapExp (k : Nat) (d : Dev) : Dev :=
  let joined := fun x : Dev => (rd Reg.EXP_SLOT_EN k x, rd Reg.EXP_SLOT k x)
  let x := d |> stagedIn 0x19 k |> refreshVh
  if rd Reg.EXP_IDX_VALID k x = 1 ∧ isUsp k x = false ∧ joined x ≠ joined d then
    let here := !bitOf (slotLvl 2 x) (rd Reg.EXP_SLOT k x)
    x |> onlyIf (ownsWire k 2 x && here != (swPort k x).prsnt) (fun d => d |> updSwPort k (fun q => { q with prsnt := here }) |> portChange 19 k)
      |> onlyIf (ownsWire k 0 x) (emit .pin [0, 8 * rd Reg.EXP_SLOT k x, bnat (swPort k x).perst] [])
  else x

/-- A session being enabled samples from its first packet on (R181). -/
def swapMir (d : Dev) : Dev :=
  let x := stagedIn 0x1D 0 d
  forEach ((List.range 8).filter (fun n => rdI Reg.MIR_EN 0 n d == 0 && rdI Reg.MIR_EN 0 n x == 1))
    (fun n d => { d with net := { d.net with sample := smErase d.net.sample n } }) x

/-- The translation structures begin anew: region table, free list, translation store, peer records of the message endpoint (R21). -/
def xltInit (d : Dev) : Dev :=
  d |> updEng (fun e => { e with regions := [], freed := [], fresh := 0, qps := smPut e.qps msgQpn (some msgEndpoint) })
    |> wr Reg.MRG_REGIONS 0 0 |> (fun d => wr Reg.MRG_XLT_FREE 0 (rd Reg.MRG_XLT_BLOCKS 0 d) d)

/-- The match structures begin anew (R21, R344). -/
def matchInit (d : Dev) : Dev :=
  d |> updEng (fun e => { e with quads := [] }) |> forEach (List.range 4) (fun k d => wr Reg.MTE_UX_POOL_FREE k (poolFree k d) d)

/-- The areas go into force; a changed translation or match area begins anew (R23). -/
def swapPkm (d : Dev) : Dev :=
  let x := stagedIn 0x1E 0 d
  let moved := fun a => rdI Reg.PKM_AREA_BASE 0 a x != rdI Reg.PKM_AREA_BASE 0 a d || rdI Reg.PKM_AREA_SIZE 0 a x != rdI Reg.PKM_AREA_SIZE 0 a d
  x |> onlyIf (moved 1) xltInit |> onlyIf (moved 2) matchInit

/-- The staged set of a page goes into force (R44 step 4). -/
def stagedSwap (ty inst : Nat) (d : Dev) : Dev :=
  match ty with
  | 0x09 => swapIsl inst d
  | 0x0D => sharedLowAlarm (sharedFree d) (stagedIn ty inst d)
  | 0x0E => swapSch inst d
  | 0x14 => (winsIn d).getD d
  | 0x15 => (bwinsIn d).getD d
  | 0x19 => swapExp inst d
  | 0x1D => swapMir d
  | 0x1E => swapPkm d
  | _ => stagedIn ty inst d

/-- A commit completes: COMMIT_BUSY and COMMIT_REFUSED clear, COMMIT_SEQ advances, COMMIT_DONE is raised, and the staged set equals
the set in force (R44 step 5). -/
def commitDone (ty inst : Nat) (d : Dev) : Dev :=
  { d with mg := { d.mg with commits := d.mg.commits.filter (fun c => c != (ty, inst))
                             touched := d.mg.touched.filter (fun a => !(addrType a == ty && addrInst a == inst)) } }
    |> stagedOut ty inst
    |> addMod (Reg.PG_STAT_COMMIT_SEQ.ofType ty) inst 0 1 |> hwr Reg.PG_STAT_COMMIT_REFUSED ty inst 0 |> raiseCommitDone ty inst

/-- The boundary of a commit that waits for it: the set goes into force (R44 steps 4 and 5), and an entry that waited for it starts (R31). -/
def commitSwap (ty inst : Nat) (d : Dev) : Dev :=
  if commitBusy ty inst d then d |> stagedSwap ty inst |> commitDone ty inst |> entriesStart else d

/-- The check of a commit (R44 steps 1 to 3): refused, complete at once with nothing staged, or waiting for its boundary. -/
def commitStart (ty inst : Nat) (val : Word) (d : Dev) : Dev :=
  if !hasStaged ty inst d then commitDone ty inst d
  else if commitErr ty inst d ≠ 0 then
    d |> hwr Reg.PG_STAT_COMMIT_REFUSED ty inst 1 |> cfgErr ty inst 8 (commitErr ty inst d) val
  else { d with mg := { d.mg with commits := d.mg.commits ++ [(ty, inst)] } }

/-- A write of 1 to COMMIT (R44, R48). -/
def commitGo (ty inst : Nat) (val : Word) (d : Dev) : Dev :=
  if commitBusy ty inst d then cfgErr ty inst 8 Cfg.CFG_COMMIT_BUSY val d else commitStart ty inst val d

/-- A write of 1 to DISCARD (R37, R48). -/
def discardGo (ty inst : Nat) (val : Word) (d : Dev) : Dev :=
  if commitBusy ty inst d then cfgErr ty inst 8 Cfg.CFG_COMMIT_BUSY val d
  else { stagedOut ty inst d with mg := { d.mg with touched := d.mg.touched.filter (fun a => !(addrType a == ty && addrInst a == inst)) } }

end Sys2Proof.Machine
end

