-- ==== Sys2Proof/Machine/Horizon.lean ====
section
/-!
DEFINITION. The horizon table (R463 to R471): its entries, their actions and their firing.
-/

namespace Sys2Proof.Machine

/-! ## Entries (R464) -/

/-- Gives an entry its value. -/
def putHzn (i : Nat) (e : HznEntry) (d : Dev) : Dev := updTh (fun t => { t with hzn := smSet (fun _ => HznEntry.init) t.hzn i e }) d

/-- The words of an entry. -/
def hznWords (e : HznEntry) : List Nat :=
  [bnat e.armed + 2 * e.axis + 4 * e.action + 32 * bnat e.skipLate + 256 * e.result + 65536 * e.fires,
   e.moment % 2 ^ 32, e.moment / 2 ^ 32, e.period, e.ttype + 256 * e.tinst + 65536 * e.targ, e.lastFire, 0, 0]

/-- The entry that words give; what is read only stays (R464). -/
def hznFrom (ws : List Nat) (e : HznEntry) : HznEntry :=
  { e with
    axis := wbits ws 0 1 1
    action := wbits ws 0 2 3
    skipLate := wbits ws 0 5 1 == 1
    moment := wpair ws 1
    period := ws.getD 3 0
    ttype := wbits ws 4 0 6
    tinst := wbits ws 4 8 8
    targ := wbits ws 4 16 16 }

/-- The phase count has passed a phase (R463). -/
def phasePassed (m : Nat) (d : Dev) : Bool := decide ((rd Reg.TIM_PHASE 0 d + 2 ^ 32 - m % 2 ^ 32) % 2 ^ 32 < 2 ^ 31)

/-- Pages that a type and an instance or broadcast instance address (R40, R465). -/
def pagesOf (ty inst : Nat) (d : Dev) : List Nat :=
  if isBcast ty inst then (bcastSet ty inst d).filter (fun i => pageExists ty i d)
  else if pageExists ty inst d then [inst] else []

/-- SNAP_BASE. -/
def snapBase (d : Dev) : Nat := rd2 Reg.HZN_SNAP_BASE_LO Reg.HZN_SNAP_BASE_HI 0 0 d

/-- An entry may be armed: fields, action, target and period, and the slots of a SNAPSHOT (R464, R465, R468). -/
def hznOk (e : HznEntry) (d : Dev) : Bool :=
  let some_ := !(pagesOf e.ttype e.tinst d).isEmpty
  (if e.axis = 0 then e.period == 0 || decide (1000 ≤ e.period) else decide (e.moment < 2 ^ 32 ∧ e.period ≤ 2 ^ 31)) &&
  (match e.action with
   | 0 => e.ttype == 0x0E && some_
   | 1 => e.ttype == 0x18 && decide (e.tinst < 4) && e.targ % 16384 % 4 == e.tinst
   | 2 => some_ && inArea 4 (snapBase d) (4096 * rd Reg.HZN_SNAP_SLOTS 0 d) d
   | 3 => e.ttype == 0x10
   | 4 => !(stagedRows e.ttype).isEmpty && some_
   | 5 => bitsOf e.targ 8 2 != 3
   | _ => false)

/-- SWAP_PEND of every island follows the armed swaps (R250, R468). -/
def swapPends (d : Dev) : Dev :=
  let p := bnat (d.th.hzn.any (fun e => e.2.armed && e.2.action == 3))
  forEach (List.range 20) (fun i d => wr Reg.RTE_SWAP_PEND i p d) d

/-! ## Actions (R465) -/

/-- PG_CTRL.COMMIT as an action: in force within the firing, whether or not it is refused; a commit that waits for its boundary
completes first (R44, R469; DEDUCED, log entry 62). -/
def hznCommit (ty inst : Nat) (d : Dev) : Dev × Bool :=
  if hrd Reg.PG_CTRL_LOCK ty inst d = 1 then (cfgErr ty inst 8 Cfg.CFG_LOCKED 4 d, true)
  else
    let x := d |> commitSwap ty inst |> commitStart ty inst 4
    let bad := hrd Reg.PG_STAT_COMMIT_REFUSED ty inst x == 1 && !commitBusy ty inst x
    (commitSwap ty inst x, bad)

/-- The words of a page as bytes (R9). -/
def pageBytes (ty inst : Nat) (d : Dev) : List Byte :=
  (List.range 1024).flatMap (fun k => if offsetOk ty inst (4 * k) then leBytes 4 (pageWord ty inst (4 * k) d).toNat else leBytes 4 0)

/-- SNAPSHOT of one page into a slot; beyond SNAP_SLOTS it is not written. -/
def snapPage (ty inst slot : Nat) (d : Dev) : Dev × Bool :=
  if rd Reg.HZN_SNAP_SLOTS 0 d ≤ slot then (d, true) else (memWrites (snapBase d + 4096 * slot) (pageBytes ty inst d) d, false)

/-- An action on one page: whether the page refused it. -/
def pageAct (action ty inst arg : Nat) (d : Dev) : Dev × Bool :=
  match action with
  | 0 => (switchTrig inst 4 d,
          gatesOn inst d && rd Reg.SCH_SWITCH_PEND inst d == 0 && !gateListOk inst (1 - rd Reg.SCH_ACTIVE_LIST inst d) d)
  | 1 => (collRelease inst arg d, false)
  | 2 => snapPage ty inst arg d
  | 4 => hznCommit ty inst d
  | _ => (d, false)

/-- An action on each page addressed, by the state of its domain (R41, R43, R465); the flags say whether one refused it, and whether one
holds it. -/
def pageActs (e : HznEntry) : List Nat → Nat → Dev × Bool × Bool → Dev × Bool × Bool
  | [], _, r => r
  | k :: ks, n, (d, refused, held) =>
    let arg := if e.action = 2 then e.targ % 4096 + n else e.targ % 16384
    let dom := domainOf e.ttype k
    let r := match domState dom d with
      | 0 => let x := pageAct e.action e.ttype k arg d
             (x.1, refused || x.2, held)
      | 2 => (dropOff (isBcast e.ttype e.tinst) d, refused, held)
      | _ => (holdEntry ⟨dom, regAddr e.ttype k 0, BitVec.ofNat 32 arg, isBcast e.ttype e.tinst, some e.action⟩ d, refused, true)
    pageActs e ks (n + 1) r

/-- A request for a domain state that is refused at once (R490, R492). -/
def refusedNow (dom target : Nat) (d : Dev) : Bool :=
  target != 0 && (trOf dom d).isNone && !commitIn dom d && domState dom d != target && refuserOf dom target d != 0

/-- The action of an entry: the state it leaves, whether it was refused, whether it is held. -/
def hznAct (e : HznEntry) (d : Dev) : Dev × Bool × Bool :=
  match e.action with
  | 3 => (swapSets d, false, false)
  | 5 =>
    let dom := e.targ % 64
    let t := bitsOf e.targ 8 2
    (requestDomain dom t d, refusedNow dom t d, false)
  | _ =>
    let ks := pagesOf e.ttype e.tinst d
    if ks.isEmpty then (d, true, false) else pageActs e ks 0 (d, false, false)

/-! ## Firing (R466, R467) -/

/-- The next moment of an entry whose moment was fired or skipped; a one-shot ends. The number says how many periods were skipped. -/
def hznNext (e : HznEntry) (d : Dev) : HznEntry × Nat :=
  if e.period = 0 then ({ e with armed := false }, 0)
  else if e.axis = 0 then
    let k := if e.moment ≤ fabricNs d then (fabricNs d - e.moment) / e.period + 1 else 1
    ({ e with moment := (e.moment + k * e.period) % 2 ^ 64 }, k - 1)
  else
    let gone := (rd Reg.TIM_PHASE 0 d + 2 ^ 32 - e.moment % 2 ^ 32) % 2 ^ 32
    let k := (if gone < 2 ^ 31 then gone / e.period else 0) + 1
    ({ e with moment := (e.moment + k * e.period) % 2 ^ 32 }, k - 1)

/-- An entry fires; RESULT reads refused, held or late before done (R464 to R467; DEDUCED, log entry 63). -/
def hznFire (late : Bool) (i : Nat) (d : Dev) : Dev :=
  let e := hznOf i d
  if !e.armed then d
  else
    let r := hznAct e d
    let res := if r.2.1 then 4 else if r.2.2 then 5 else if late then 2 else 1
    let n := hznNext { e with result := res, fires := (e.fires + 1) % 65536, lastFire := fabricNs r.1 % 2 ^ 32 } r.1
    r.1 |> putHzn i n.1 |> bump Reg.HZN_FIRED 0 |> addI Reg.HZN_MISSED 0 0 n.2
      |> onlyIf late (fun d => d |> bump Reg.HZN_LATE 0 |> raise Ev.HZN_LATE 0)
      |> onlyIf r.2.1 (fun d => d |> bump Reg.HZN_FAILED 0 |> raise Ev.HZN_ACTION_FAIL 0)
      |> onlyIf (e.action == 3) swapPends

/-- A moment that has already passed (R467). -/
def hznPassed (i : Nat) (d : Dev) : Dev :=
  let e := hznOf i d
  if !e.armed then d
  else if e.skipLate then
    let n := hznNext { e with result := 3 } d
    d |> putHzn i n.1 |> addI Reg.HZN_MISSED 0 0 (n.2 + 1) |> raise Ev.HZN_MISSED 0 |> onlyIf (e.action == 3) swapPends
  else hznFire true i d

/-- Puts an entry at its place: rising moment, then rising index. -/
def insDue (x : Nat × Nat) : List (Nat × Nat) → List (Nat × Nat)
  | [] => [x]
  | y :: ys => if x.1 < y.1 ∨ (x.1 = y.1 ∧ x.2 < y.2) then x :: y :: ys else y :: insDue x ys

/-- Armed entries of an axis that a test on their moment selects, in firing order. -/
def hznSelect (axis : Nat) (p : Nat → Bool) (d : Dev) : List Nat :=
  ((d.th.hzn.filter (fun e => e.2.armed && e.2.axis == axis && p e.2.moment)).foldl
    (fun l e => insDue (if axis = 0 then e.2.moment else 0, e.1) l) []).map (fun x => x.2)

/-- Every entry due fires: the time axis while time is valid, then the phase axis (R466). -/
def hznDue (d : Dev) : Dev :=
  d |> (fun d => if timeValid d then forEach (hznSelect 0 (fun m => decide (m ≤ fabricNs d)) d) (hznFire false) d else d)
    |> (fun d => forEach (hznSelect 1 (fun m => phasePassed m d) d) (hznFire false) d)

/-- Fabric time became valid or stepped forward past moments (R467). -/
def timePassed (d : Dev) : Dev := forEach (hznSelect 0 (fun m => decide (m < fabricNs d)) d) hznPassed d

/-- R466: moments that have been reached fire. -/
def execHorizonFire (s : State) : Out := onAll hznDue s

/-! ## The page (R468, R471) -/

/-- READ. -/
def hznRead (d : Dev) : Dev := putRow Reg.HZN_HZ_DATA 0 (hznWords (hznOf (rd Reg.HZN_HZ_IDX 0 d) d)) d

/-- WRITE: refused on an armed entry. -/
def hznWrite (v : Word) (d : Dev) : Dev :=
  let i := rd Reg.HZN_HZ_IDX 0 d
  if (hznOf i d).armed then cfgErr 0x03 0 0x104 Cfg.CFG_HZN_ARMED v d
  else putHzn i (hznFrom (rowWords Reg.HZN_HZ_DATA 0 8 d) (hznOf i d)) d

/-- ARM: checked; a moment already passed is handled at once. -/
def hznArm (v : Word) (d : Dev) : Dev :=
  let i := rd Reg.HZN_HZ_IDX 0 d
  let e := hznOf i d
  if !hznOk e d then cfgErr 0x03 0 0x104 Cfg.CFG_HZN_RANGE v d
  else
    let gone := if e.axis = 0 then timeValid d && decide (e.moment < fabricNs d) else phasePassed e.moment d
    d |> putHzn i { e with armed := true } |> swapPends |> onlyIf gone (hznPassed i)

/-- DISARM. -/
def hznDisarm (d : Dev) : Dev :=
  let i := rd Reg.HZN_HZ_IDX 0 d
  d |> putHzn i { hznOf i d with armed := false } |> swapPends

/-- R471: READ copies a horizon entry into HZ_DATA. -/
def execHznRead (s : State) : Out := onDev (trigger 0x03 0 0x104 0 (fun _ => hznRead)) s

/-- R468: WRITE puts HZ_DATA into an unarmed entry. -/
def execHznWrite (s : State) : Out := onDev (trigger 0x03 0 0x104 1 hznWrite) s

/-- R468: ARM checks and arms an entry. -/
def execArm (s : State) : Out := onAll (trigger 0x03 0 0x104 2 hznArm) s

/-- R471: DISARM disarms an entry. -/
def execDisarm (s : State) : Out := onDev (trigger 0x03 0 0x104 3 (fun _ => hznDisarm)) s

end Sys2Proof.Machine
end

