-- ==== Sys2Proof/Machine/Link.lean ====
section
/-!
DEFINITION. The meanings of the SFL link commands (ch. 05): data and link flits received, STATUS, NAK and INIT sent, time-outs, link
down and reset, port enable and the wake pattern; weather reports (R235, R236).
-/

namespace Sys2Proof.Machine

/-! ## Data flits -/

/-- Credits outstanding on a virtual lane: granted and not yet used by the partner (R134). -/
def creditHeld (p v : Nat) (d : Dev) : Nat :=
  smGet (fun _ => 0) (portOf p d).granted v - smGet (fun _ => 0) (portOf p d).received v

/-- The packet being received on a virtual lane, as number plus 1; 0 none. -/
def curOf (p v : Nat) (d : Dev) : Nat := smGet (fun _ => 0) (portOf p d).cur v

/-- Gives a virtual lane the packet being received on it. -/
def setCur (p v x : Nat) (d : Dev) : Dev := updPort p (fun q => { q with cur := smSet (fun _ => 0) q.cur v x }) d

/-- Consumes a flit of a packet that is no longer received: its credit returns at once (R134, R210). -/
def sinkFlit (p v : Nat) (tail : Bool) (d : Dev) : Dev := d |> grantMore p v 1 |> onlyIf tail (setCur p v 0)

/-- The rest of a packet that its head had discarded is consumed: the number names no packet. -/
def sinkHead (p v : Nat) (tail : Bool) (d : Dev) : Dev :=
  { d with net := { d.net with nextPkt := d.net.nextPkt + 1 } } |> setCur p v (d.net.nextPkt + 1) |> sinkFlit p v tail

/-- A head flit (R131, R219, R220, R240): the header is checked, set by an injecting device, metered and looked up. -/
def rxHead (p v : Nat) (tail poison : Bool) (bytes : List Byte) (d : Dev) : Dev :=
  let isl := p / 8
  let h := ofBe (bytes.take 16)
  let vc := v / 2
  if bytes.length < 16 ∨ headerOk vc h = false then
    d |> bump Reg.RTE_HDR_DROP isl |> raise Ev.ROUTE_UNROUTABLE isl |> sinkHead p v tail
  else if rd Reg.RTE_HOP_LIMIT isl d ≤ hget .HOPS h then
    d |> bump Reg.RTE_HOP_DROP isl |> raise Ev.HOP_LIMIT isl |> sinkHead p v tail
  else
    let (h1, d1) := if hget .HOPS h = 0 then injectHeader isl vc h d else (h, d)
    let id := d1.net.nextPkt
    d1 |> pushPkt { Packet.fresh id p v h1 (hget .PLEN h1) v (stampOf d1) with
          colour := hget .COLOUR h1, flits := 1, owes := true }
      |> setCur p v (id + 1)
      |> meterPkt id p (hget .TC h1) (hget .COLOUR h1) (hget .PLEN h1)
      |> (fun d => if (pktOf id d).isSome then
            d |> updPkt id (fun q => { q with bytes := bytes }) |> lookUp id |> arrive id [] tail poison
          else d)
      |> onlyIf tail (setCur p v 0)

/-- A later flit of a packet (R131); a packet of more than 40 cells is a protocol error (R155). -/
def rxMore (p v : Nat) (tail poison : Bool) (bytes : List Byte) (d : Dev) : Dev :=
  match pktOf (curOf p v d - 1) d with
  | some q =>
    if curOf p v d = 0 ∨ q.tail then sinkFlit p v tail d
    else if 10240 < q.bytes.length + bytes.length then protocolError p d
    else d |> updPkt q.id (fun r => { r with flits := r.flits + 1 }) |> arrive q.id bytes tail poison
      |> onlyIf tail (setCur p v 0)
  | none => sinkFlit p v tail d

/-- A data flit in sequence is accepted (R134, R135): on a lane without credit it is a protocol error. A head fails an earlier
packet of its lane that has no tail (DESIGN CHOICE, log entry 186). -/
def rxAccept (p v : Nat) (head tail poison : Bool) (bytes : List Byte) (d : Dev) : Dev :=
  let d1 := d |> wr Reg.LNK_RX_SEQ p ((rd Reg.LNK_RX_SEQ p d + 1) % 16384) |> bump Reg.LNK_FLIT_RX p
    |> updPort p (fun q => { q with nak := none })
  if creditHeld p v d = 0 then protocolError p d1
  else
    let d2 := updPort p (fun q => { q with received := smPut q.received v (smGet (fun _ => 0) q.received v + 1) }) d1
    if head then
      d2 |> onlyIf (curOf p v d2 != 0) (failPkt (curOf p v d2 - 1)) |> rxHead p v tail poison bytes
    else rxMore p v tail poison bytes d2

/-- A data flit that passes its check (R135, R137): `vl` is 2 × VC + ESC, `bytes` the valid payload. -/
def dataFlitRx (p vl : Nat) (head tail poison : Bool) (seq : Nat) (bytes : List Byte) (d : Dev) : Dev :=
  if portUp p d then
    let exp := rd Reg.LNK_RX_SEQ p d
    if seq = exp then rxAccept p vl head tail poison bytes d
    else if (exp + 16384 - seq) % 16384 ≤ 8192 then d
    else nakFor p 1 d
  else d

/-- A flit fails its CRC (R127, R137). -/
def flitCheckFail (p : Nat) (isData : Bool) (d : Dev) : Dev :=
  if portUp p d ∨ rd Reg.LNK_LSTATE p d = 2 then
    d |> bump Reg.LNK_CRC_ERR p |> onlyIf (isData && portUp p d) (nakFor p 0)
  else d

/-- Counts an uncorrectable codeword toward FEC_UNCORR_HIGH: the 1 ms runs from its first codeword (R153, log entry 17). -/
def countUncorr (p : Nat) (d : Dev) : Dev :=
  let q := portOf p d
  let fresh := decide (1000000 ≤ d.th.localNs - q.fecSince) || q.fecCount == 0
  let n := if fresh then 1 else q.fecCount + 1
  let high := decide (rd Reg.LNK_FEC_UNCORR_THRESH p d < n) && !(q.fecRaised && !fresh)
  d |> updPort p (fun r => { r with
        fecCount := n, fecSince := if fresh then d.th.localNs else r.fecSince, fecRaised := (r.fecRaised && !fresh) || high })
    |> onlyIf high (raise Ev.FEC_UNCORR_HIGH p)

/-- An uncorrectable codeword (R137). On an Ethernet port it is counted (R152). -/
def codewordLost (p : Nat) (d : Dev) : Dev :=
  if pers (p / 8) d = 3 then bump Reg.ETH_FEC_UNCORR_CW p d
  else if portUp p d then d |> bump Reg.LNK_FEC_UNCORR p |> nakFor p 2 |> countUncorr p
  else if rd Reg.LNK_LSTATE p d = 2 then d |> bump Reg.LNK_FEC_UNCORR p |> countUncorr p
  else d

/-- The CW_CNT of the lanes disagree after deskew (R121). -/
def countsDisagree (cnts : List Nat) : Bool := cnts.any (fun c => c != cnts.headD c)

/-- A codeword is received that its parity cannot correct, with errors in so many symbols and the inner blocks that came damaged; or the lanes'
CW_CNT disagree, which is an uncorrectable codeword on every lane (R121, R122, R137). -/
def rsUncorrectable (p : Nat) (cnts : List Nat) (errors : Nat) (blocks : List Nat) (d : Dev) : Dev :=
  if countsDisagree cnts then forEach cnts (fun _ => codewordLost p) d
  else onlyIf (rsFails errors blocks) (codewordLost p) d

/-! ## Link flits -/

/-- STATUS (R132, R136). -/
def statusRx (p ack : Nat) (valid : Bool) (cr : List Nat) (d : Dev) : Dev :=
  if portUp p d then d |> takeCredits p cr |> onlyIf valid (ackThrough p ack) else d

/-- NAK: frees the copies before EXP_SEQ and starts a resend pass from there (R137, R138). -/
def nakRx (p exp : Nat) (cr : List Nat) (d : Dev) : Dev :=
  if portUp p d then
    d |> bump Reg.LNK_NAK_RX p |> takeCredits p cr |> ackThrough p ((exp + 16383) % 16384) |> startPass p
  else d

/-- INIT: a LEVEL that is not the port's is handled as INIT_TIMEOUT (R141). -/
def initRx (p level : Nat) (rxOk : Bool) (serial : Nat) (cr : List Nat) (d : Dev) : Dev :=
  if rd Reg.LNK_LSTATE p d = 2 then
    if level ≠ (if sflRate p d = 1 then 1 else 2) then initFail p d
    else
      d |> updPort p (fun q => { q with
            initial := (List.range 16).foldl (fun m v => smPut m v (cr.getD v 0 % 4096)) []
            initRx := true, rxOk := true, peerOk := q.peerOk || rxOk })
        |> wr Reg.LNK_PARTNER_ID p (serial % 65536)
        |> tryUp p
  else d

/-- RESET: an UP port is declared down; in INIT the attempt ends and the port idles until 10.4 µs have passed (R142, R144). -/
def resetRx (p : Nat) (d : Dev) : Dev :=
  if portUp p d then declareDown p 3 d
  else if rd Reg.LNK_LSTATE p d = 2 then
    d |> wr Reg.LNK_DOWN_CAUSE p 3 |> wr Reg.LNK_LSTATE p 4 |> lanesOff p
      |> updPort p (fun q => { q with idle := true }) |> emit .portTx [p, 0] []
  else d

/-- A reserved link flit type is discarded, counted and raised; the port stays UP (R128). -/
def linkFlitReservedRx (p ftype : Nat) (d : Dev) : Dev :=
  if (portUp p d ∨ rd Reg.LNK_LSTATE p d = 2) ∧ 7 ≤ ftype then
    d |> bump Reg.LNK_PROTO_ERR_CNT p |> raise Ev.PROTO_ERR p
  else d

/-! ## Sent and repeated (R136 to R141) -/

/-- A STATUS falls due (R132, R136). -/
def statusSend (p : Nat) (d : Dev) : Dev := onlyIf (portUp p d) (sendStatus p) d

/-- REPLAY_TMO / 4 has passed without the expected flit (R137). -/
def nakRepeat (p : Nat) (d : Dev) : Dev :=
  match (portOf p d).nak with
  | some e => onlyIf (portUp p d) (emitNak p (e / 16384)) d
  | none => d

/-- ACK_SEQ has not advanced for REPLAY_TMO while flits are outstanding (R138). -/
def replayTimeout (p : Nat) (d : Dev) : Dev := onlyIf (portUp p d && decide (0 < outstanding p d)) (startPass p) d

/-- INIT is repeated until the port is UP (R141). -/
def initRepeat (p : Nat) (d : Dev) : Dev := if rd Reg.LNK_LSTATE p d = 2 then d |> sendInit p |> tryUp p else d

/-- 10 µs after step 8 the port is not UP (R141). -/
def initTimeout (p : Nat) (d : Dev) : Dev := if rd Reg.LNK_LSTATE p d = 2 then initFail p d else d

/-! ## Down, reset, enable (R142 to R145) -/

/-- A lane of an UP port has been out of lock for LOCK_LOSS_TIME (R142). -/
def lockLossTimeout (n : Nat) (d : Dev) : Dev :=
  match portOfLane n d with
  | some p => onlyIf ((laneOf n d).lost && portUp p d) (declareDown p 1) d
  | none => d

/-- No valid flit was decoded for LOCK_LOSS_TIME while lock is held (R142). -/
def silentTimeout (p : Nat) (d : Dev) : Dev :=
  onlyIf (portUp p d && (portLanes p d).all (fun n => !(laneOf (carrier n d) d).lost)) (declareDown p 10) d

/-- 10.4 µs after the declaration electrical idle ends, and bring-up restarts unless EN = 0 (R143 step 5). -/
def linkResetIdleEnd (p : Nat) (d : Dev) : Dev :=
  if (portOf p d).idle then
    let d1 := updPort p (fun q => { q with idle := false }) d
    if mayRun p d1 ∧ rd Reg.ISL_TEST (p / 8) d1 = 0 then d1 |> lanesAfresh p |> startBringup p else wr Reg.LNK_LSTATE p 0 d1
  else d

/-- LRESET: a full link reset; during bring-up it restarts at step 1 (R142, R144, R150). -/
def lresetTrig (p : Nat) (d : Dev) : Dev :=
  if pers (p / 8) d ≠ 2 then d
  else match rd Reg.LNK_LSTATE p d with
  | 3 => declareDown p 4 d
  | 1 | 2 => d |> wr Reg.LNK_DOWN_CAUSE p 4 |> lanesAfresh p |> startBringup p
  | _ => d

/-- A port is disabled: an UP port is declared down with cause DISABLED, a bring-up ends (R142, R143). -/
def disablePort (p : Nat) (d : Dev) : Dev :=
  if portUp p d ∧ pers (p / 8) d = 2 then declareDown p 7 d
  else if rd Reg.LNK_LSTATE p d = 4 then d
  else d |> lanesOff p |> onlyIf (rd Reg.LNK_LSTATE p d != 0) (wr Reg.LNK_DOWN_CAUSE p 7) |> wr Reg.LNK_LSTATE p 0

/-- A write of EN: EN = 1 is refused where the harbour could not hold the port's grants (R133). EXP ports have no EN (R151). -/
def writePortEn (p en : Nat) (val : Word) (d : Dev) : Dev :=
  if pers (p / 8) d = 1 ∨ rd Reg.LNK_EN p d = en then d
  else if en = 1 then
    if harbourFits (wr Reg.LNK_EN p 1 d) then
      d |> wr Reg.LNK_EN p 1 |> sharedLowAlarm (sharedFree d)
        |> onlyIf (rd Reg.LNK_LSTATE p d == 0 && rd Reg.ISL_TEST (p / 8) d == 0) (startBringup p)
    else cfgErr 0x0A p 0x104 Cfg.CFG_HBR_OVERCOMMIT val d
  else d |> wr Reg.LNK_EN p 0 |> disablePort p

/-- The word of offset 0x104 of a LNK page with EN as given, no command bit set. -/
def enWord (p en : Nat) (d : Dev) : Word := setBits (wordAt (regAddr 0x0A p 0x104) d) 0 1 en

/-- WAKE_SEND: a port that is down sends the wake pattern; UP it has no effect (R145). -/
def wakeSendTrig (p : Nat) (d : Dev) : Dev :=
  if pers (p / 8) d = 2 ∧ portUp p d = false then emit .portTx [p, 1] [] d else d

/-- The AON detector sees the wake pattern on a lane with WAKE_DET = 1 (R145). -/
def wakePatternDetect (p : Nat) (d : Dev) : Dev :=
  if portStarts p d ∧ pers (p / 8) d = 2 ∧ rd Reg.LNK_WAKE_DET p d = 1 ∧ portUp p d = false then
    d |> raise Ev.WAKE_RX p |> wakeDom (p / 8) 1
  else d

/-! ## Weather (R235, R236) -/

/-- The ports of a weather group that are UP: WGRP of the port attribute table of the port's island (R225, R235). -/
def weatherPorts (g : Nat) (d : Dev) : List Nat :=
  (List.range 144).filter (fun p => portUp p d && pers (p / 8) d == 2 && bitsOf (tblAt (p / 8) 3 0 p d) 0 4 == g)

/-- CREDIT of a port in a report: the lowest of 16 × CRED_AVAIL / G over the normal lanes of VC1, VC2 and VC4 (R235). -/
def weatherCredit (p : Nat) (d : Dev) : Nat :=
  (([2, 4, 8].map (fun v =>
    let g := smGet (fun _ => 0) (portOf p d).initial v
    if g = 0 then 0 else min 15 (16 * credAvail p v d / g))).min?).getD 0

/-- WX[g] of a report (R235). -/
def weatherWord (g : Nat) (d : Dev) : Nat :=
  let ps := weatherPorts g d
  match (ps.map (fun p => weatherCredit p d)).min?,
      (ps.map (fun p => cellsQueued p 1 d + cellsQueued p 2 d + cellsQueued p 4 d)).min? with
  | some c, some n => c * 4096 + min n 4095
  | _, _ => 0x0FFF

/-- The 200 ns of a port pass: its weather report goes out (R235). -/
def weatherSend (p : Nat) (d : Dev) : Dev :=
  if portUp p d ∧ pers (p / 8) d = 2 then
    let q := portOf p d
    let free := (max (sharedFree d) 0).toNat
    let lid := rd Reg.RTE_MY_LID (p / 8) d
    let low := bnat (decide (free < rd Reg.HBR_SHARED_LOW 0 d))
    let wx := (List.range 16).map (fun g => weatherWord g d)
    d |> sendLink p 5 0 (beBytes 3 (lid * 16 + q.wxSeq) ++ beBytes 1 low ++ wx.flatMap (beBytes 2) ++ beBytes 4 free) ([lid, q.wxSeq, low] ++ wx ++ [free])
      |> updPort p (fun r => { r with wxSeq := (r.wxSeq + 1) % 16 })
  else d

/-- A weather report is stored as the latest of its port (R236). -/
def weatherRx (p : Nat) (w : Weather) (d : Dev) : Dev :=
  if portUp p d then
    d |> updPort p (fun q => { q with wx := some w, wxTime := d.th.localNs, wxStale := false })
      |> bump Reg.RTE_WX_RX (p / 8)
  else d

/-- A port's report becomes older than WX_STALE: raised once per staleness (R236). -/
def wxStale (p : Nat) (d : Dev) : Dev :=
  if portUp p d ∧ (portOf p d).wxStale = false then
    d |> updPort p (fun q => { q with wxStale := true }) |> raise Ev.WX_STALE (p / 8)
  else d

/-! ## Flits as they arrive -/

/-- The body of a weather report (R235). -/
def weatherOf (body : List Byte) : Weather :=
  let s := ofBe (body.take 3)
  { sender := s / 16, wseq := s % 16, low := bitOf (ofBe ((body.drop 3).take 1)) 0
    wx := (List.range 16).map (fun g => ofBe ((body.drop (4 + 2 * g)).take 2)), shared := ofBe ((body.drop 36).take 4) % 2 ^ 20 }

/-- A flit of 64 bytes arrives on a port: what it says is done where it is of the kind `f` takes; one that fails its check is none (R126,
R127). -/
def rxFlit (p : Nat) (isData : Bool) (flit : List Byte) (f : Flit → Dev → Dev) (d : Dev) : Dev :=
  match decodeFlit (flitLevel p d) flit with
  | some x => f x d
  | none => flitCheckFail p isData d

/-! ## The commands -/

/-- DATA_FLIT_RX (R125, R135). -/
def execDataFlitRx (port : Nat) (b0 b1 b2 b3 : Byte) (body check : List Byte) (s : State) : Out :=
  onNet (rxFlit port true (b0 :: b1 :: b2 :: b3 :: (body ++ check)) (fun x => match x with
    | .data vl head tail poison seq bytes => dataFlitRx port vl head tail poison seq bytes
    | .link .. => id)) s

/-- FLIT_CHECK_FAIL (R127). -/
def execFlitCheckFail (port : Nat) (isData : Bool) (s : State) : Out := onNet (flitCheckFail port isData) s

/-- RS_UNCORRECTABLE (R137). -/
def execRsUncorrectable (cw : BadCodewords) (s : State) : Out := onNet (rsUncorrectable cw.port cw.cnts cw.errors cw.blocks) s

/-- STATUS_RX (R129, R136). -/
def execStatusRx (port : Nat) (header body check : List Byte) (s : State) : Out :=
  onNet (rxFlit port false (header ++ body ++ check) (fun x => match x with
    | .link 1 f body => statusRx port (bitsOf f 13 14) (bitOf f 12) (unpackCredits body)
    | _ => id)) s

/-- NAK_RX (R129, R137). -/
def execNakRx (port : Nat) (covered check : List Byte) (s : State) : Out :=
  onNet (rxFlit port false (covered ++ check) (fun x => match x with
    | .link 2 f body => nakRx port (bitsOf f 13 14) (unpackCredits body)
    | _ => id)) s

/-- INIT_RX (R129, R141). -/
def execInitRx (port : Nat) (header credits serial rest : List Byte) (s : State) : Out :=
  onNet (rxFlit port false (header ++ credits ++ serial ++ rest) (fun x => match x with
    | .link 3 f body => initRx port (bitsOf f 24 3) (bitOf f 23) (ofBe ((body.drop 24).take 8)) (unpackCredits body)
    | _ => id)) s

/-- RESET_RX (R129, R142). -/
def execResetRx (rx : RxFlit) (s : State) : Out :=
  onNet (rxFlit rx.port false rx.bytes (fun x => match x with
    | .link 4 _ _ => resetRx rx.port
    | _ => id)) s

/-- LINK_FLIT_RESERVED_RX (R128). -/
def execLinkFlitReservedRx (port : Nat) (flit : List Byte) (s : State) : Out :=
  onNet (rxFlit port false flit (fun x => match x with
    | .link ty _ _ => linkFlitReservedRx port ty
    | _ => id)) s

/-- STATUS_SEND (R136). -/
def execStatusSend (port : Nat) (s : State) : Out := onNet (statusSend port) s

/-- NAK_REPEAT (R137). -/
def execNakRepeat (port : Nat) (s : State) : Out := onNet (nakRepeat port) s

/-- REPLAY_TIMEOUT (R138). -/
def execReplayTimeout (port : Nat) (s : State) : Out := onNet (replayTimeout port) s

/-- INIT_REPEAT (R141). -/
def execInitRepeat (port : Nat) (s : State) : Out := onNet (initRepeat port) s

/-- INIT_TIMEOUT (R141). -/
def execInitTimeout (port : Nat) (s : State) : Out := onNet (initTimeout port) s

/-- LOCK_LOSS_TIMEOUT (R142). -/
def execLockLossTimeout (lane : Nat) (s : State) : Out := onNet (lockLossTimeout lane) s

/-- SILENT_TIMEOUT (R142). -/
def execSilentTimeout (port : Nat) (s : State) : Out := onNet (silentTimeout port) s

/-- LINK_DOWN (R143). -/
def execLinkDown (port cause : Nat) (s : State) : Out := onNet (declareDown port cause) s

/-- LINK_RESET_IDLE_END (R143). -/
def execLinkResetIdleEnd (port : Nat) (s : State) : Out := onNet (linkResetIdleEnd port) s

/-- LRESET (R144). -/
def execLreset (port : Nat) (s : State) : Out := onNet (trigger 0x0A port 0x104 2 (fun _ => lresetTrig port)) s

/-- PORT_ENABLE_WRITE (R133). -/
def execPortEnableWrite (port en : Nat) (s : State) : Out :=
  onNet (fun d => mgmtWrite 0x0A port 0x104 (enWord port en d)
    (unlessLocked 0x0A port 0x104 (enWord port en d) (writePortEn port (en % 2) (enWord port en d))) d) s

/-- WAKE_SEND (R145). -/
def execWakeSend (port : Nat) (s : State) : Out := onNet (trigger 0x0A port 0x104 3 (fun _ => wakeSendTrig port)) s

/-- WAKE_PATTERN_DETECT (R145). -/
def execWakePatternDetect (port : Nat) (s : State) : Out := onNet (wakePatternDetect port) s

/-- WEATHER_SEND (R235). -/
def execWeatherSend (port : Nat) (s : State) : Out := onNet (weatherSend port) s

/-- WEATHER_RX (R235, R236). -/
def execWeatherRx (port : Nat) (flit : List Byte) (s : State) : Out :=
  onNet (rxFlit port false flit (fun x => match x with
    | .link 5 _ body => weatherRx port (weatherOf body)
    | _ => id)) s

/-- WX_STALE (R236). -/
def execWxStale (port : Nat) (s : State) : Out := onNet (wxStale port) s

end Sys2Proof.Machine
end

