-- ==== Sys2Proof/Machine/Fabric.lean ====
section
/-!
DEFINITION. Fabric time (R451 to R463, R470): setting and stepping it, TIME flits, delay and offset, holdover, FT_PPS_IN and
FT_PPS_OUT, and the phase count.
-/

namespace Sys2Proof.Machine

/-! ## Setting fabric time (R453, R459, R462) -/

/-- Time stamps of exchanges under way are of the old time: they are discarded (DEDUCED, log entry 64). -/
def dropExchanges (d : Dev) : Dev :=
  updTh (fun t => { t with ports := t.ports.map (fun p => (p.1, p.2.map (fun x => { x with txTime := none, rxSeq := 256, open1 := none }))) }) d

/-- FT_PPS_OUT is held low while it is not enabled or time is not valid (R462). -/
def ppsLow (d : Dev) : Dev := onlyIf (rd Reg.TIM_PPS_OUT_EN 0 d == 0 || !timeValid d) (emit .pin [2, 0, 0] []) d

/-- Fabric time takes a value, in 1/65536 ns: it becomes valid, or steps; gates and horizons follow (R206, R453, R459, R467). A step
from the parent counts even where it is the first; a SET counts where it moves valid time (DEDUCED, log entry 68). -/
def setFabric (step : Bool) (v : Nat) (d : Dev) : Dev :=
  let old := d.th.fabric
  let was := timeValid d
  let moved := step || (was && v % 2 ^ 80 != old)
  let far := was && decide (65536000 < v % 2 ^ 80 - old ∨ 65536000 < old - v % 2 ^ 80)
  d |> updTh (fun t => { t with fabric := v % 2 ^ 80 }) |> dropExchanges
    |> onlyIf (!was) (fun d => d |> wr Reg.TIM_VALID 0 1 |> raise Ev.FT_VALID 0)
    |> onlyIf moved (fun d => d |> bump Reg.TIM_STEPS 0 |> raise Ev.FT_STEPPED 0)
    |> gatesTimeChange far
    |> onlyIf (!was || decide (old < v % 2 ^ 80)) timePassed

/-- SET takes force: SET_NS becomes fabric time (R453, R462, R470). -/
def setNow (d : Dev) : Dev :=
  d |> updTh (fun t => { t with setArmed := false })
    |> setFabric false (65536 * rd2 Reg.TIM_SET_NS_LO Reg.TIM_SET_NS_HI 0 0 d)

/-- SET_GO: refused unless STATE is GM; at once, or at the next FT_PPS_IN edge (R462, R473). -/
def setGo (v : Word) (d : Dev) : Dev :=
  if rd Reg.TIM_STATE 0 d ≠ 4 then cfgErr 0x02 0 0x134 Cfg.CFG_TIM_RANGE v d
  else if rd Reg.TIM_SET_AT_PPS 0 d = 1 then updTh (fun t => { t with setArmed := true }) d
  else setNow d

/-- R470: SET_GO sets fabric time on the grandmaster. -/
def execSetGo (s : State) : Out := onAll (trigger 0x02 0 0x134 0 setGo) s

/-- The frequency is steered: ADJ_PPB moves by at most 100 ppm within 200 ppm in all; by how much the spec does not say, a free value
(R459, R462, log entry 65). -/
def steer (d : Dev) : Dev :=
  let adj := toSigned 32 (rd Reg.TIM_ADJ_PPB 0 d)
  let lo := max (-200000) (adj - 100000)
  let hi := min 200000 (adj + 100000)
  d |> wr Reg.TIM_ADJ_PPB 0 (ofSigned 32 (lo + (free 32 d % ((hi - lo).toNat + 1) : Nat))) |> takeFree

/-! ## TIME flits (R456 to R458) -/

/-- A port's time service as it begins. -/
def TimePort.init : TimePort := ⟨0, none, 256, 0, none, []⟩

/-- The time service of a port. -/
def timePortOf (p : Nat) (d : Dev) : TimePort := (smGet (fun _ => none) d.th.ports p).getD TimePort.init

/-- Gives a port its time service. -/
def putTimePort (p : Nat) (x : TimePort) (d : Dev) : Dev := updTh (fun t => { t with ports := smSet (fun _ => none) t.ports p (some x) }) d

/-- CLASS of the device's grandmaster. -/
def gmClass (d : Dev) : Nat := match bestGm d with | some g => g.cls | none => ownClass d

/-- FLAGS of a TIME flit sent on a port. -/
def timeFlags (p : Nat) (x : TimePort) (d : Dev) : Nat :=
  bnat (timeValid d) + 2 * bnat (rd Reg.TIM_STATE 0 d == 2 || rd Reg.TIM_STATE 0 d == 4) + 4 * gmClass d
    + 8 * bnat (rd Reg.TIM_PARENT 0 d == p) + 16 * bnat (x.rxSeq != 256) + 32 * bnat x.txTime.isSome

/-- The body of a TIME flit (R456). -/
def TimeFlit.body (f : TimeFlit) : List Byte :=
  beBytes 1 f.tseq ++ beBytes 1 f.rxSeq ++ beBytes 1 f.flags ++ beBytes 1 f.depth ++ beBytes 10 f.txPrev ++ beBytes 10 f.rxTime ++ beBytes 8 f.gmId
    ++ beBytes 1 f.gmPrio ++ [0] ++ beBytes 2 f.gmRound ++ beBytes 2 f.taiUtc

/-- The fields of a TIME flit in their order. -/
def TimeFlit.nums (f : TimeFlit) : List Nat :=
  [f.tseq, f.rxSeq, f.flags, f.depth, f.txPrev, f.rxTime, f.gmId, f.gmPrio, f.gmRound, f.taiUtc]

/-- The TIME flit of a body (R456). -/
def timeFlitOf (b : List Byte) : TimeFlit :=
  let x := fun o n => ofBe ((b.drop o).take n)
  { tseq := x 0 1, rxSeq := x 1 1, flags := x 2 1, depth := x 3 1, txPrev := x 4 10, rxTime := x 14 10, gmId := x 24 8, gmPrio := x 32 1
    gmRound := x 34 2, taiUtc := x 36 2 }

/-- IDLE flits go out until the next flit is the first of its codeword on logical lane 0 (R457). -/
def idleToCodeword (p : Nat) (d : Dev) : Dev :=
  forEach (List.range (10 * (lanesInForce p d).length)) (fun _ d =>
    let ls := lanesInForce p d
    if (portOf p d).flitNo % ls.length = 0 ∧ (laneOf (ls.headD 0) d).flits = [] then d else sendLink p 0 0 [] [] d) d

/-- A TIME flit goes out on a port (R456, R457). -/
def timeSend (p : Nat) (d : Dev) : Dev :=
  if timePort p d && pers (p / 8) d == 2 then
    let x := timePortOf p d
    let f : TimeFlit := { tseq := x.txSeq, rxSeq := x.rxSeq % 256, flags := timeFlags p x d, depth := rd Reg.TIM_DEPTH 0 d
                          txPrev := x.txTime.getD 0, rxTime := x.rxTime, gmId := rd2 Reg.TIM_GM_ID_LO Reg.TIM_GM_ID_HI 0 0 d
                          gmPrio := rd Reg.TIM_GM_PRIO 0 d, gmRound := rd Reg.TIM_GM_ROUND 0 d, taiUtc := rd Reg.TIM_TAI_UTC 0 d }
    d |> idleToCodeword p |> sendLink p 6 0 f.body f.nums
      |> putTimePort p { x with txSeq := (x.txSeq + 1) % 256, txTime := some d.th.fabric }
  else d

/-- R457: a TIME flit is sent on a port that is UP with TIME_EN. -/
def execTimeFlitSend (port : Nat) (s : State) : Out := onDev (timeSend port) s

/-- Delay and offset of an exchange t1, t2, t4 that t3 completes, in 1/65536 ns (R458). -/
def exchange (t1 t2 t3 t4 : Nat) (asym : Int) : Int × Int :=
  ((((t4 : Int) - t1) - ((t3 : Int) - t2)) / 2, (((t2 : Int) - t1) - ((t4 : Int) - t3) - asym) / 2)

/-- A delay differs from the mean of the last 16 samples by more than 10 ns (R458). -/
def delayOff (x : TimePort) (dl : Int) : Bool :=
  let m := x.delays.foldl (· + ·) 0 / 16
  x.delays.length == 16 && decide (655360 < dl - m ∨ dl - m < -655360)

/-- LOCKED is entered (R460). -/
def lockTime (d : Dev) : Dev :=
  d |> wr Reg.TIM_STATE 0 2 |> raise Ev.FT_LOCKED 0
    |> onlyIf (!timeValid d) (fun d => d |> wr Reg.TIM_VALID 0 1 |> raise Ev.FT_VALID 0 |> gatesTimeChange false |> timePassed)

/-- The runs of good and bad exchanges, and the states they lead to (R460). -/
def trackOffset (o : Int) (d : Dev) : Dev :=
  let good := decide (o.natAbs < 4 * 65536)
  let bad := decide (20 * 65536 < o.natAbs)
  let d1 := updTh (fun t => { t with okRun := if good then t.okRun + 1 else 0, badRun := if bad then t.badRun + 1 else 0 }) d
  if rd Reg.TIM_STATE 0 d = 1 ∧ 100 ≤ d1.th.okRun then lockTime d1
  else if rd Reg.TIM_STATE 0 d = 2 ∧ 10 ≤ d1.th.badRun then d1 |> acquire |> raise Ev.FT_UNLOCKED 0
  else d1

/-- OFFSET or DELAY in 1/16 ns; one that does not fit its field leaves a free value there (log entry 12). -/
def wr16th (f : Fld) (v : Int) (d : Dev) : Dev :=
  let x := v / 4096
  if -(2 : Int) ^ 31 ≤ x ∧ x < 2 ^ 31 then wr f 0 (ofSigned 32 x) d else d |> wr f 0 (free 32 d) |> takeFree

/-- The parent's sample acts: a step above STEP_NS, else steering (R459). A parent whose own time is not valid is not followed
(DEDUCED, log entry 66). -/
def useOffset (o : Int) (parentValid : Bool) (d : Dev) : Dev :=
  if !parentValid then d
  else if rd Reg.TIM_STEP_NS 0 d * 65536 < o.natAbs then
    d |> setFabric true (((d.th.fabric : Int) + o) % 2 ^ 80).toNat |> updTh (fun t => { t with okRun := 0, badRun := 0 })
  else d |> steer |> trackOffset o

/-- A sample on a port (R458). -/
def timeSample (p : Nat) (dl o : Int) (parentValid : Bool) (d : Dev) : Dev :=
  let x := timePortOf p d
  if delayOff x dl then bump Reg.TIM_DELAY_REJ 0 d
  else
    d |> putTimePort p { x with delays := (dl :: x.delays).take 16 }
      |> onlyIf (rd Reg.TIM_PARENT 0 d == p)
          (fun d => d |> wr16th Reg.TIM_OFFSET o |> wr16th Reg.TIM_DELAY dl |> useOffset o parentValid)

/-- The record a TIME flit advertises: fresh once its GM_ROUND advances; a grandmaster of TIM_PRIO 0 is none (R454). -/
def takeRecord (p : Nat) (f : TimeFlit) (d : Dev) : Dev :=
  let fresh := match gmRecOf p d with
    | some r => r.id != f.gmId || decide (1 ≤ (f.gmRound + 65536 - r.round) % 65536 ∧ (f.gmRound + 65536 - r.round) % 65536 < 32768) || r.fresh
    | none => true
  putGmRec p (if f.gmPrio = 0 then none else
    some { id := f.gmId, prio := f.gmPrio, cls := bitsOf f.flags 2 1, round := f.gmRound, depth := f.depth, fresh := fresh, tai := f.taiUtc }) d

/-- A TIME flit arrives (R454, R455, R458). -/
def timeRx (p : Nat) (f : TimeFlit) (d : Dev) : Dev :=
  if !(timePort p d && pers (p / 8) d == 2) then d
  else
    let x := timePortOf p d
    let t4 := d.th.fabric
    let asym := toSigned 16 (rdI Reg.TIM_ASYM 0 p d) * 4096
    let sample := match x.open1 with
      | some (t1, t2, u4) => if f.tseq = (x.rxSeq + 1) % 256 ∧ bitOf f.flags 5 then some (exchange t1 t2 f.txPrev u4 asym) else none
      | none => none
    let opened := match x.txTime with
      | some t1 => if bitOf f.flags 4 ∧ f.rxSeq = (x.txSeq + 255) % 256 then some (t1, f.rxTime, t4) else none
      | none => none
    d |> bump Reg.TIM_TIME_RX 0
      |> putTimePort p { x with open1 := opened, rxSeq := f.tseq % 256, rxTime := t4 }
      |> takeRecord p f |> timeElect
      |> (fun d => match sample with | some (dl, o) => timeSample p dl o (bitOf f.flags 0) d | none => d)

/-- R458: a TIME flit updates delay, offset, grandmaster, parent and time state. -/
def execTimeFlitRx (port : Nat) (flit : List Byte) (s : State) : Out :=
  onAll (rxFlit port false flit (fun x => match x with
    | .link 6 _ body => timeRx port (timeFlitOf body)
    | _ => id)) s

/-! ## Rounds, staleness, holdover -/

/-- R454: a device that is its own grandmaster increments GM_ROUND. -/
def execGmRoundTick (s : State) : Out := onDev (fun d => onlyIf (rd Reg.TIM_STATE 0 d == 4) (addMod Reg.TIM_GM_ROUND 0 0 1) d) s

/-- R454: a record has not advanced for 3 ms. -/
def execGmRecordStale (port : Nat) (s : State) : Out :=
  onDev (fun d => match gmRecOf port d with
    | some r => d |> putGmRec port (some { r with fresh := false }) |> timeElect
    | none => d) s

/-- R459: HOLDOVER_MS passes in HOLDOVER: VALID clears; the state is then FREE (DEDUCED, log entry 67). -/
def holdoverEnd (d : Dev) : Dev :=
  if rd Reg.TIM_STATE 0 d = 3 then
    d |> wr Reg.TIM_VALID 0 0 |> wr Reg.TIM_STATE 0 0 |> raise Ev.FT_INVALID 0 |> gatesTimeChange false |> ppsLow
  else d

/-- R459: holdover expires. -/
def execHoldoverExpire (s : State) : Out := onDev holdoverEnd s

/-! ## FT_PPS_IN and FT_PPS_OUT (R462) -/

/-- Signed ns from the nearest whole second of fabric time. -/
def ppsOffset (d : Dev) : Int :=
  let r : Int := fabricNs d % 1000000000
  if r < 500000000 then r else r - 1000000000

/-- R462: a rising edge of FT_PPS_IN: its offset is recorded; on the grandmaster SET takes force, or the frequency is steered. -/
def ppsIn (d : Dev) : Dev :=
  if rd Reg.TIM_PPS_IN_EN 0 d = 0 then d
  else
    d |> wr Reg.TIM_PPS_IN_ERR 0 (ofSigned 32 (ppsOffset d)) |> updTh (fun t => { t with ppsSeen := true })
      |> timeElect
      |> (fun d => if rd Reg.TIM_STATE 0 d = 4 then (if d.th.setArmed then setNow d else steer d) else d)

/-- R462: an FT_PPS_IN rising edge. -/
def execPpsInEdge (s : State) : Out := onAll ppsIn s

/-- R462: no edge for 2 s: CLASS is 1; raised on the grandmaster. -/
def execPpsInLost (s : State) : Out :=
  onDev (fun d => onlyIf (rd Reg.TIM_PPS_IN_EN 0 d == 1)
    (fun d => d |> onlyIf (rd Reg.TIM_STATE 0 d == 4) (raise Ev.PPS_IN_LOST 0)
      |> updTh (fun t => { t with ppsSeen := false }) |> timeElect) d) s

/-- R462: at a whole second FT_PPS_OUT rises for PPS_OUT_W. -/
def execPpsOutSecond (s : State) : Out :=
  onDev (fun d => onlyIf (rd Reg.TIM_PPS_OUT_EN 0 d == 1 && timeValid d) (emit .pin [2, 0, 1, rd Reg.TIM_PPS_OUT_W 0 d] []) d) s

/-! ## The phase count (R463, R467) -/

/-- PHASE_LOAD_GO: the phase count is loaded; a forward load passes moments. -/
def phaseLoad (d : Dev) : Dev :=
  let old := rd Reg.TIM_PHASE 0 d
  let new := rd Reg.TIM_PHASE_LOAD 0 d
  let fwd := decide (0 < (new + 2 ^ 32 - old) % 2 ^ 32 ∧ (new + 2 ^ 32 - old) % 2 ^ 32 < 2 ^ 31)
  d |> wr Reg.TIM_PHASE 0 new
    |> onlyIf fwd (fun d => forEach (hznSelect 1 (fun m => phasePassed m d) d) hznPassed d)

/-- R463: PHASE_LOAD_GO loads the phase count. -/
def execPhaseLoadGo (s : State) : Out := onAll (trigger 0x02 0 0x160 0 (fun _ => phaseLoad)) s

end Sys2Proof.Machine
end

