-- ==== Sys2Proof/Machine/Ranges.lean ====
section
/-!
DEFINITION. What a register write is refused for (R13, R58, R117, R151, R152, R187, R213, R252, R295, R327, R354, R391, R447, R448,
R470, R480, R496, R539, R540): values outside the ranges that the register tables state.
-/

namespace Sys2Proof.Machine

/-- Fields with a stated range: the field, its least and its greatest value. -/
abbrev RangeRow := Fld × Nat × Nat

/-- Ranges of the management pages. -/
def rangesCore : List RangeRow :=
  [(Reg.DEV_FAB_TMO, 10, 10000),
   (Reg.PWR_UV_WARN, 9500, 11500), (Reg.PWR_UV_RESET, 9000, 10500), (Reg.PWR_SW_LEVEL, 10000, 12000), (Reg.PWR_OV_TRIP, 13500, 15000),
   (Reg.PWR_INRUSH_A, 1, 20), (Reg.PWR_INRUSH_MS, 1, 100), (Reg.PWR_OC_A, 10, 75), (Reg.PWR_FAST_A, 80, 130),
   (Reg.PWR_RETRY_ON_MS, 1, 100), (Reg.PWR_RETRY_PERIOD_MS, 1000, 60000), (Reg.PWR_RETURN_MS, 10, 10000),
   (Reg.TIM_MAX_DEPTH, 1, 31), (Reg.TIM_TIME_INT, 1, 1000), (Reg.TIM_STEP_NS, 100, 1000000), (Reg.TIM_HOLDOVER_MS, 1, 60000),
   (Reg.TIM_PPS_OUT_W, 1, 500),
   (Reg.LOG_HOLDOFF, 1, 65535), (Reg.LOG_WARN_LEVEL, 0, 4096), (Reg.LOG_AGE_ISL, 0, 19), (Reg.LOG_TREND_DAYS, 1, 90),
   (Reg.LOG_AGE_WARN, 1, 1000000), (Reg.LOG_MARGIN_WARN, 1, 63),
   (Reg.CHK_POLY, 0, 2), (Reg.CHK_ALV_MODE, 0, 2), (Reg.CHK_RECLEN, 8, 65536), (Reg.CHK_WATCH_US, 1, 16777215)]

/-- Ranges of the datapath pages. -/
def rangesPath : List RangeRow :=
  [(Reg.LANE_GEN_PAT, 0, 4), (Reg.LANE_CHK_PAT, 0, 4), (Reg.LANE_DWELL, 10, 30),
   (Reg.LNK_LOCK_LOSS_TIME, 100, 1000000), (Reg.LNK_REPLAY_TMO, 1, 1000), (Reg.LNK_REPLAY_MAX, 1, 255),
   (Reg.ETH_MAX_FRAME, 1518, 9216), (Reg.STR_ACK_TMO, 20, 200),
   (Reg.SCH_DURATION_A, 10, 16777215), (Reg.SCH_DURATION_B, 10, 16777215),
   (Reg.MTR_MODE, 0, 2),
   (Reg.RTE_TOPO, 0, 2), (Reg.RTE_NDIG, 2, 5), (Reg.RTE_RAD, 1, 4096), (Reg.RTE_FLOWLET_GAP, 100, 1000000),
   (Reg.RTE_ESC_WAIT, 50, 100000), (Reg.RTE_HOP_LIMIT, 1, 63), (Reg.RTE_REJOIN, 0, 1000000), (Reg.RTE_ROUTE_HOLD, 1, 1000),
   (Reg.RTE_WX_STALE_NS, 400, 100000), (Reg.RTE_STUCK_WD, 10, 1000000), (Reg.RTE_TBL_SEL, 0, 5)]

/-- Ranges of the engine and switch pages. -/
def rangesEngines : List RangeRow :=
  [(Reg.TPE_ACK_CNT, 1, 255), (Reg.TPE_ACK_NS, 10, 65535), (Reg.TPE_ACKREQ_INT, 1, 255), (Reg.TPE_CUT_SHIFT, 1, 8),
   (Reg.TPE_ECN_HOLD_NS, 100, 65535), (Reg.TPE_RECOVER_US, 1, 65535), (Reg.TPE_RATE_STEP, 1, 4000000), (Reg.TPE_RATE_MIN, 1, 4000000),
   (Reg.TPE_RD_IDLE_MS, 1, 10000), (Reg.TPE_RESP_POOL, 136, 65535),
   (Reg.MRG_XLT_BLOCKS, 1024, 4194304),
   (Reg.BRG_PF_BLOCK, 8, 12), (Reg.BRG_PF_AGE, 1, 65535), (Reg.BRG_RD_TMO, 100, 50000), (Reg.BRG_LOCK_TMO, 1, 1000),
   (Reg.BRG_WBUF_CELLS, 256, 8192),
   (Reg.MTE_EAGER_MAX, 0, 16384), (Reg.MTE_UX_POOL_SIZE, 20, 30), (Reg.CLE_OP_TMO, 1000, 10000000), (Reg.CLE_FAULT_TMO, 10, 65535),
   (Reg.SLC_SHARE, 1, 255), (Reg.SLC_MAX_REGIONS, 0, 4194304), (Reg.SLC_MAX_RD, 1, 4096), (Reg.SLC_MAX_CTX, 0, 16384),
   (Reg.SLC_MAX_MEMBERS, 0, 16384), (Reg.SLC_MAX_GROUPS, 0, 64), (Reg.SLC_QUIESCE_TMO, 10, 100000), (Reg.SLC_EVR_LOG, 6, 16),
   (Reg.SLC_CMR_LOG, 4, 12), (Reg.SLC_MPR_LOG, 4, 16),
   (Reg.CMP_HB_LOSS, 2, 15), (Reg.CMP_RTO, 5, 10000), (Reg.CMP_RETRY, 1, 255), (Reg.CMP_CPL_TMO, 1, 1000)]

/-- The configuration error of a value outside its range, by page (R254, R327 and the error table of each chapter). -/
def rangeCode (ty : Nat) : Nat :=
  match ty with
  | 0x00 => Cfg.CFG_DEV_RANGE
  | 0x01 => Cfg.CFG_PWR_RANGE
  | 0x02 => Cfg.CFG_TIM_RANGE
  | 0x05 => Cfg.CFG_LOG_RANGE
  | 0x06 => Cfg.CFG_CHK_RANGE
  | 0x08 => Cfg.CFG_LANE_RANGE
  | 0x0A | 0x0B => Cfg.CFG_LNK_RANGE
  | 0x0C => Cfg.CFG_STR_RANGE
  | 0x0D => Cfg.CFG_HBR_RANGE
  | 0x0E => Cfg.CFG_SCH_RANGE
  | 0x0F => Cfg.CFG_MTR_RANGE
  | 0x10 => Cfg.CFG_RTE_RANGE
  | 0x11 => Cfg.CFG_TPE_RANGE
  | 0x13 => Cfg.CFG_MRG_RANGE
  | 0x15 | 0x16 => Cfg.CFG_BRG_RANGE
  | 0x17 => Cfg.CFG_MTE_RANGE
  | 0x18 => Cfg.CFG_CLE_RANGE
  | 0x1A | 0x1F => Cfg.CFG_CMP_RANGE
  | 0x1B => Cfg.CFG_FUN_RANGE
  | 0x1C => Cfg.CFG_SLC_RANGE
  | _ => Cfg.CFG_DEV_RANGE

/-- A field may be given a value by a plain write (R10). -/
def plainAcc (f : Fld) : Bool := f.acc == .rw || f.acc == .rws

/-- A word whose rw and rws fields are those of a value written; a keep of fields selects which. -/
def storeWord (keep : Fld → Bool) (ty inst off : Nat) (val : Word) (d : Dev) : Word :=
  ((fieldsOf ty).filter (fun f => keep f && (fldIdx f off).isSome)).foldl (fun w f => setBits w f.lo f.wd (getBits val f.lo f.wd))
    (wordAt (regAddr ty inst off) d)

/-- Gives the rw and rws fields of a word the values written. -/
def storePlain (ty inst off : Nat) (val : Word) (d : Dev) : Dev := setWord (regAddr ty inst off) (storeWord plainAcc ty inst off val d) d

/-- A value lies within a range row; a field that the image holds may also take the value that its row states
without an image (log entry 69). -/
def rowOk (off : Nat) (val : Word) (r : RangeRow) : Bool :=
  match fldIdx r.1 off with
  | none => true
  | some i =>
    let v := getBits val r.1.lo r.1.wd
    decide (r.2.1 ≤ v ∧ v ≤ r.2.2)
      || (r.1.src == .image && v == initValue r.1 r.1.ty 0 i && !([Reg.SCH_DURATION_A, Reg.SCH_DURATION_B].contains r.1))

/-- The ranged fields of a word hold values within their ranges. -/
def rowsOk (ty off : Nat) (val : Word) : Bool :=
  ((rangesCore ++ rangesPath ++ rangesEngines).filter (fun r => r.1.ty == ty)).all (rowOk off val)

/-! ## Relations between fields -/

/-- PWR thresholds in order, and the retry times (R479, R480). -/
def pwrOk (x : Dev) : Bool :=
  let v := fun f => rd f 0 x
  decide (v Reg.PWR_UV_RESET + 500 ≤ v Reg.PWR_UV_WARN ∧ v Reg.PWR_UV_WARN ≤ v Reg.PWR_SW_LEVEL
    ∧ v Reg.PWR_SW_LEVEL + 1000 ≤ v Reg.PWR_OV_TRIP ∧ v Reg.PWR_INRUSH_MS ≤ v Reg.PWR_RETRY_ON_MS
    ∧ 100 * v Reg.PWR_RETRY_ON_MS ≤ v Reg.PWR_RETRY_PERIOD_MS)

/-- RTE radices: bases within the level table, CARE bit 0 clear, the product within 20 bits (R216, R252, R254). -/
def rteOk (i off : Nat) (x : Dev) : Bool :=
  !(off == 0x108 && bitOf (rd Reg.RTE_CARE i x) 0)
    && (List.range 5).all (fun k => off != 0x10C + 4 * k || decide (rdI Reg.RTE_BASE i k x + rdI Reg.RTE_RAD i k x ≤ 8192))
    && (!(off == 0x108 || (0x10C ≤ off && off ≤ 0x11C)) || decide ((radices i x).foldl (fun a b => a * b) 1 ≤ 1048576))

/-- The PCIe generation of an EXP lane in test: the highest its port is configured for (R97). -/
def testGen (n : Nat) (d : Dev) : Nat := match portOfLane n d with | some p => portByte p d % 16 | none => 0

/-- The number of eyes of a lane's modulation (R115): NRZ, PAM4 or PAM6. -/
def eyeCount (n : Nat) (d : Dev) : Nat :=
  match rd Reg.LANE_MODE n d with
  | 1 => if (if rd Reg.LANE_PCIE_GEN n d = 0 then testGen n d else rd Reg.LANE_PCIE_GEN n d) = 6 then 3 else 1
  | 2 | 3 | 5 | 6 => 3
  | 4 => 5
  | _ => 1

/-- A ring base or LOG changes while its ring is in use (R448). -/
def ringLive (page off : Nat) (val : Word) (d : Dev) : Bool :=
  let s := (off - 0x100) / 0xF0
  let o := (off - 0x100) % 0xF0
  let on := fun f => rdI f page s d == 1
  (o == 0x20 || o == 0x24) && on Reg.SLC_EVR_EN || (o == 0x30 || o == 0x34) && on Reg.SLC_CMR_EN
    || (o == 0x40 || o == 0x44) && on Reg.SLC_MPR_EN
    || (o == 0x28 && on Reg.SLC_EVR_EN && getBits val 0 5 != rdI Reg.SLC_EVR_LOG page s d)
    || (o == 0x38 && on Reg.SLC_CMR_EN && getBits val 0 4 != rdI Reg.SLC_CMR_LOG page s d)
    || (o == 0x48 && on Reg.SLC_MPR_EN && getBits val 0 5 != rdI Reg.SLC_MPR_LOG page s d)

/-- Forward ranges keep to R322: within the aperture, apart from each other's windows. -/
def fwdFits (v : Nat) (x : Dev) : Bool :=
  match fwdRange v x with
  | none => true
  | some o => decide (o % 4096 = 0 ∧ o + 4096 ≤ aperture v x)
      && (List.range 1024).all (fun w =>
        !bwValid w x || grpVh (bwGrp w x) x != v || !overlaps o 4096 (bwOfs w x) (bwBytes w x))

/-- Page and word rules beside the ranges: the error of a write, 0 for none; `x` is the state with the word stored. -/
def relationErr (ty inst off : Nat) (val : Word) (d x : Dev) : Nat :=
  match ty with
  | 0x01 => if pwrOk x then 0 else Cfg.CFG_PWR_RANGE
  | 0x02 =>
    if off = 0x10C ∧ 144 ≤ rd Reg.TIM_PARENT_PIN 0 x ∧ rd Reg.TIM_PARENT_PIN 0 x ≠ 255 then Cfg.CFG_TIM_RANGE else 0
  | 0x08 =>
    if off = 0x160 ∧ eyeCount inst d ≤ rd Reg.LANE_EYE_SEL inst x then Cfg.CFG_EYE_SEL else 0
  | 0x0A => if off = 0x104 ∧ harbourFits x = false ∧ harbourFits d = true then Cfg.CFG_HBR_OVERCOMMIT else 0
  | 0x0B =>
    if (List.range 8).any (fun k => off == 0x114 + 4 * k && decide (rdI Reg.ETH_XOFF inst k x ≤ rdI Reg.ETH_XON inst k x)) then
      Cfg.CFG_LNK_RANGE
    else 0
  | 0x0E =>
    let list := if off < 0xB00 then 0 else 1
    if 0x800 ≤ off ∧ rd Reg.SCH_GATE_EN inst d = 1 ∧ rd Reg.SCH_ACTIVE_LIST inst d = list then Cfg.CFG_GATE_LIST else 0
  | 0x0F =>
    if (List.range 144).any (fun p => off == 0x600 + 4 * p && rdI Reg.MTR_MODE 0 p x == 2 && rdI Reg.MTR_BASE 0 p x % 16 != 0) then
      Cfg.CFG_MTR_RANGE
    else 0
  | 0x10 => if rteOk inst off x then 0 else Cfg.CFG_RTE_RANGE
  | 0x11 =>
    if rd Reg.TPE_RATE_STEP inst x < rd Reg.TPE_RATE_MIN inst x ∧ (off = 0x110 ∨ off = 0x114) then Cfg.CFG_TPE_RANGE
    else if off = 0x120 ∧ rd Reg.HBR_ENG_MIN 0 d < rd Reg.TPE_RESP_POOL inst x + 64 then Cfg.CFG_TPE_RANGE
    else 0
  | 0x13 =>
    if off = 0x100 ∧ (0 < validRegions d ∨ rdI Reg.PKM_AREA_SIZE 0 1 d < xltMin (rd Reg.MRG_XLT_BLOCKS 0 x)) then Cfg.CFG_MRG_RANGE else 0
  | 0x15 =>
    if 0x880 ≤ off ∧ off < 0x900 ∧ (List.range 5).any (fun k =>
        decide (15 < bitsOf val.toNat (5 * k) 5 ∧ bitsOf val.toNat (5 * k) 5 < 31)) = true then Cfg.CFG_WIRE_MAP
    else 0
  | 0x16 => if 0x200 ≤ off ∧ fwdFits ((off - 0x200) / 16) x = false then Cfg.CFG_BRG_RANGE else 0
  | 0x17 =>
    if off = 0x104 ∧ (matchInUse d = true ∨ rdI Reg.PKM_AREA_SIZE 0 2 d < matchMin (rd Reg.MTE_UX_POOL_SIZE inst x)) then Cfg.CFG_MTE_RANGE
    else 0
  | 0x19 =>
    if off = 0x104 ∧ rd Reg.EXP_EN inst d = 0 ∧ rd Reg.EXP_EN inst x = 1 ∧ harbourFits x = false then Cfg.CFG_HBR_OVERCOMMIT else 0
  | 0x1A =>
    if off = 0x100 ∧ rd Reg.VHC_CVH inst x ≠ rd Reg.VHC_CVH inst d ∧ rd Reg.VHC_CVH inst x ≠ 255
        ∧ ((List.range 16).any (fun v => v != inst && rd Reg.VHC_CVH v d == rd Reg.VHC_CVH inst x)
          || d.sw.cvhs.any (fun e => e.1 == rd Reg.VHC_CVH inst x && e.2 != (ownId d, inst))) = true then Cfg.CFG_CMP_RANGE
    else 0
  | 0x1B =>
    if off = 0x104 ∧ rd Reg.FUN_APER_LOG inst x ≠ 0 ∧ (rd Reg.FUN_APER_LOG inst x < 30 ∨ 40 < rd Reg.FUN_APER_LOG inst x) then
      Cfg.CFG_FUN_RANGE
    else 0
  | 0x1C => if 0x100 ≤ off ∧ ringLive inst off val d = true then Cfg.CFG_SLC_RANGE else 0
  | _ => 0

/-- The configuration error that refuses a write to the rw and rws fields of a word, 0 for none. -/
def rangeErr (ty inst off : Nat) (val : Word) (d : Dev) : Nat :=
  if rowsOk ty off val then relationErr ty inst off val d (storePlain ty inst off val d) else rangeCode ty

end Sys2Proof.Machine
end

