-- ==== Sys2Proof/Machine/Reset.lean ====
section
/-!
DEFINITION. The resets that reach the whole device (R71, R73 to R76, R89), the choice of the boot bank (R65, R504), and cold start up to
the memory wipe (R61, R62).
-/

namespace Sys2Proof.Machine

/-! ## Registers at a reset (R11, R71) -/

/-- A field that a reset keeps: 0 a cold reset, 1 a cold reset with AON held, 2 a warm reset. What holds of RETRY_LEFT_A and A_STATE holds of
RETRY_LEFT_B and B_STATE (R496). -/
def keeps (kind : Nat) (f : Fld) : Bool :=
  match kind with
  | 0 => false
  | 1 => f.aonKept || f == Reg.PWR_RETRY_LEFT_B || f == Reg.PWR_B_STATE
  | _ => f.warm == .kept || f.acc == .rws

/-- What a reset leaves of a stored word. -/
def keepWord (kind a : Nat) (w : Word) : Word :=
  ((fieldsOf (addrType a)).filter (fun f => keeps kind f && (fldIdx f (addrOff a)).isSome)).foldl
    (fun x f => setBits x f.lo f.wd (getBits w f.lo f.wd)) (coldWord a)

/-- What a reset leaves of the register words. -/
def keepRegs (kind : Nat) (regs : SMap Word) : SMap Word :=
  regs.filterMap (fun e => if keepWord kind e.1 e.2 = coldWord e.1 then none else some (e.1, keepWord kind e.1 e.2))

/-! ## The rest of the state at a reset -/

/-- Management paths: held writes, queues and commands in progress are discarded (R43, R82, R89). The I3C dynamic address is kept by a warm
reset, which leaves the I3C target running (DEDUCED from R73, log entry 71). -/
def mgReset (kind : Nat) (m : Mgmt) : Mgmt :=
  { held := [], hiLatch := [], dynAddr := if kind = 2 then m.dynAddr else none, ibiHeld := false, events := [], running := [], ready := [],
    commits := [], touched := [], resets := [], remotes := [], nextReq := m.nextReq, mpRestarts := [], mpHalted := false, mbxGo := false, refused := m.refused }

/-- MRAM is kept; the open import, the export snapshot and what start-up loaded are not (R71, R82, R89). -/
def bootReset (b : Boot) : Boot :=
  { b with tblUse := none, chunks := [], snapshot := none, loaded := [], applied := none, running := 0, deferred := false, fault := 0 }

/-- The trouble log: emptied by a cold reset, marked by a warm reset; aging history is lost at cold reset (R530 to R533, R71). -/
def logReset (kind : Nat) (l : Log) : Log :=
  match kind with
  | 0 => { entries := [], holdOffs := [], stopRaised := false, aging := [], ageRaised := false, marginRaised := 0 }
  | 1 => { l with holdOffs := l.holdOffs.map (fun h => (h.1, { h.2 with seen := false })), aging := [], ageRaised := false
                  marginRaised := 0 }
  | _ => { l with entries := l.entries.map (fun e => { e with warm := true }), ageRaised := false, marginRaised := 0 }

/-- Trip history and retry timers are kept while AON holds power; the timers run on in new local time (R71, R485). -/
def fdReset (kind : Nat) (f : Feeds) : Feeds :=
  let f := { f with dip := none, throttleDip := false, throttleHot := false, throttleSince := 0, holdSince := none }
  match kind with
  | 0 => { f with attemptA := none, attemptB := none, tripA := 0, tripB := 0, failsA := 0, failsB := 0, dipStarts := [], lastEscalate := none
                  lost := false }
  | 1 => { f with attemptA := f.attemptA.map (fun x => x.map (fun _ => 0)), attemptB := f.attemptB.map (fun x => x.map (fun _ => 0))
                  tripA := 0, tripB := 0, dipStarts := [], lastEscalate := none }
  | _ => f

/-- Local time restarts at a cold reset; fabric time runs on while AON holds power (R71, R452, R453). -/
def thReset (kind : Nat) (t : TimeHzn) : TimeHzn :=
  { localNs := if kind = 2 then t.localNs else 0, fabric := if kind = 0 then 0 else t.fabric, gmRecs := [], ports := [], okRun := 0,
    badRun := 0, ppsSeen := false, setArmed := false, hzn := [] }

/-- The composite is enumerated anew; after a warm reset the device offers the ID it held (R87). -/
def cmpReset (kind : Nat) (id : Nat) (serial : Nat) (c : Composite) : Composite :=
  { heard := [], ids := [], prefId := none
    rejoin := if kind ≠ 2 then none else if c.ids.any (fun x => x.1 == serial) then some id else c.rejoin
    role := 0, anchorId := none, standbyId := none, standalone := false, waiting := [], hbAt := none }

/-- Lanes keep which substitutions came from SPARE_MAP, as HELD is kept (R111). -/
def netReset (kind : Nat) (n : Net) : Net :=
  { Net.init with
    lanes := if kind = 2 then (n.lanes.filter (fun l => l.2.fromImage)).map (fun l => (l.1, { Lane.init with fromImage := true })) else [] }

/-- The sideband wire map is AON: it and what it has open stay at a warm reset (R324). -/
def engReset (kind : Nat) (e : Eng) : Eng := { Eng.init with wireOpen := if kind = 2 then e.wireOpen else [] }

/-- A reset of a class that reaches the whole device: 0 cold, 1 cold with AON held, 2 warm (R71). -/
def resetDev (kind : Nat) (d : Dev) : Dev :=
  { regs := keepRegs kind (if kind = 1 then wr (fLeft 0) 0 (retryLeft 0 d) (wr (fLeft 1) 0 (retryLeft 1 d) d) else d).regs
    mem := [], out := d.out, freeCtr := d.freeCtr, mg := mgReset kind d.mg, boot := bootReset d.boot, otp := d.otp,
    sec := { nonce := none, owner := none, stageChunks := [], spdm := [], eids := [] }, log := logReset kind d.log, chk := [],
    fd := fdReset kind d.fd, pw := { trs := [], plinkAborts := 0, since := [] }, th := thReset kind d.th,
    cmp := cmpReset kind (ownId d) d.otp.serial d.cmp, sens := { d.sens with sampled := d.sens.sampled && kind == 2 }, net := netReset kind d.net, eng := engReset kind d.eng,
    coll := Coll.init, sw := Sw.init }

/-! ## Boot banks (R65, R502 to R505) -/

/-- `n` bytes of a memory from an offset up. -/
def bytesAt (m : SMap Byte) (i n : Nat) : List Byte := (List.range n).map (fun k => smGet (fun _ => 0) m (i + k))

/-- A big-endian number in a memory. -/
def numAt (m : SMap Byte) (i n : Nat) : Nat := ofBe (bytesAt m i n)

/-- A firmware bank. -/
def bankOf (b : Nat) (d : Dev) : SMap Byte := if b = 0 then d.boot.bankA else d.boot.bankB

/-- The types of the sections of a firmware image from an offset, none where one does not end by `stop`; each is padded to 64 B. -/
def fwSections (m : SMap Byte) (stop : Nat) : Nat → Nat → Option (List Nat)
  | 0, _ => some []
  | n + 1, pos =>
    let next := pos + (8 + numAt m (pos + 4) 4 + 63) / 64 * 64
    if pos + 8 ≤ stop ∧ next ≤ stop then (fwSections m stop n next).map (fun l => numAt m pos 2 :: l) else none

/-- The sections are well formed: known types, no repeats, MP_CODE and ENGINE_UCODE present (R503). -/
def layoutOk (m : SMap Byte) : Bool :=
  let len := numAt m 12 4
  decide (numAt m 5 1 ≤ 3 ∧ numAt m 11 1 ≤ 64 ∧ 192 ≤ len ∧ len ≤ 10485760 ∧ 1 ≤ numAt m 24 2 ∧ numAt m 24 2 ≤ 16) &&
  (match fwSections m (len - 64) (numAt m 24 2) 64 with
   | some l => l.all (fun t => decide (1 ≤ t ∧ t ≤ 4)) && decide l.Nodup && l.contains 1 && l.contains 3
   | none => false)

/-- The stepping as SRC_STEP encodes it (R79). -/
def stepCode (d : Dev) : Nat := 16 * rd Reg.DEV_STEP_MAJOR 0 d + rd Reg.DEV_STEP_MINOR 0 d

/-- A FWKEY slot is unrevoked (R501). -/
def keyGood (k : Nat) (d : Dev) : Bool := decide (d.otp.keyRb ≤ k) && (d.otp.fwKeys.getD k []).any (fun b => b != 0)

/-- The digest of R505 of an image. -/
def bankDigest (m : SMap Byte) : List Byte := Config.sha512 (bytesAt m 0 (numAt m 12 4 - 64))

/-- Why a bank fails the check of R504; 0 where it passes. -/
def bankReason (b : Nat) (d : Dev) : Nat :=
  let m := bankOf b d
  let len := numAt m 12 4
  if (if b = 0 then d.boot.badA else d.boot.badB) ≠ [] then 8
  else if numAt m 0 4 ≠ 0x44584657 ∨ numAt m 4 1 ≠ 1 then 1
  else if numAt m 6 2 ≠ 0x7144 ∨ stepCode d < numAt m 8 1 ∨ numAt m 9 1 < stepCode d then 2
  else if numAt m 10 1 < rd Reg.DEV_BL_MAX 0 d then 3
  else if layoutOk m = false then 4
  else if keyGood (numAt m 5 1) d = false then 5
  else if Config.ed25519Verify (d.otp.fwKeys.getD (numAt m 5 1) []) (bankDigest m) (bytesAt m (len - 64) 64) = false then 6
  else if numAt m 11 1 < d.otp.fwRb then 7
  else 0

/-- A bank is checked, and SEC shows what was found: BANK_x_RB where the header was valid, that is items 1 to 6 held (R504, R520). -/
def checkBank (b : Nat) (d : Dev) : Dev :=
  let r := bankReason b d
  let rb := if r = 0 ∨ 6 ≤ r ∧ r ≤ 7 then numAt (bankOf b d) 11 1 else 0
  (if b = 0 then d |> wr Reg.SEC_BANK_A_FAIL 0 r |> wr Reg.SEC_BANK_A_RB 0 rb else d |> wr Reg.SEC_BANK_B_FAIL 0 r |> wr Reg.SEC_BANK_B_RB 0 rb)
    |> onlyIf (r == 6) (bump Reg.SEC_SIG_FAIL 0)

/-- Puts a byte string into the words of a field, byte 0 lowest. -/
def wrBytes (f : Fld) (n : Nat) (bs : List Byte) (d : Dev) : Dev := forEach (List.range n) (fun i d => wrI f 0 i (wordOfBytes bs i) d) d

/-- A bank runs: what SEC and DEV show of it (R520, R78). -/
def runBank (b : Nat) (fallback : Bool) (d : Dev) : Dev :=
  let m := bankOf b d
  d |> wr Reg.DEV_BANK 0 b |> wr Reg.DEV_FALLBACK 0 (bnat fallback)
    |> wr Reg.SEC_RUN_RB 0 (numAt m 11 1) |> wr Reg.SEC_RUN_KEY 0 (numAt m 5 1) |> wr Reg.SEC_RUN_FW_BL 0 (numAt m 10 1)
    |> wr2 Reg.SEC_RUN_VERSION_LO Reg.SEC_RUN_VERSION_HI 0 0 (numAt m 16 8) |> wrBytes Reg.SEC_RUN_DIGEST 16 (bankDigest m)

/-- The choice of the boot bank (R65). With neither, the device goes to RECOVERY after the wipe. -/
def chooseBank (d : Dev) : Dev :=
  let p := d.boot.pref % 2
  let o := 1 - p
  let up := bankReason 0 d == 0 || bankReason 1 d == 0
  let d1 := { d with boot := { d.boot with bankUp := up } } |> wr Reg.DEV_BANK_PREF 0 p |> checkBank p
  if bankReason p d = 0 then runBank p false d1
  else
    let d2 := checkBank o d1
    if bankReason o d = 0 then
      d2 |> raiseDet Ev.BOOT_FALLBACK 0 (BitVec.ofNat 32 (p + 256 * bankReason p d)) 0 |> runBank o true
    else
      d2 |> raiseDet Ev.BOOT_RECOVERY 0 (BitVec.ofNat 32 (bankReason 0 d + 256 * bankReason 1 d + 65536 * p)) 0

/-! ## Start-up to the wipe (R61, R73) -/

/-- Step 4: a start-up that finds RETIRED completes the destruction of the identity key; the public key is derived (R509, R518, R520). -/
def identStart (d : Dev) : Dev :=
  let d1 := if lcState d = 4 then { d with otp := { d.otp with identSeed := List.replicate 32 0xFF } } else d
  wrBytes Reg.SEC_IDENT_PUB 8
    (if lcState d = 0 ∨ lcState d = 4 then List.replicate 32 0 else Config.ed25519Public d1.otp.identSeed) d1

/-- Fabric time after a reset: HOLDOVER while it is valid (R453, R460). -/
def timeStart (d : Dev) : Dev := wr Reg.TIM_STATE 0 (if timeValid d then 3 else 0) d

/-- The steps of a start-up up to the wipe, which runs until MEMORY_WIPE_COMPLETE (log entry 72). `last` is LAST_RESET. -/
def startUp (running last : Nat) (d : Dev) : Dev :=
  { d with boot := { d.boot with running := running, t0 := d.th.localNs, wipeStart := d.th.localNs } }
    |> wr Reg.DEV_LAST_RESET 0 last |> timeStart |> identStart |> chooseBank
    |> wr Reg.DEV_STATE 0 3 |> wr Reg.DEV_WIPE_BUSY 0 1

/-- The feeds' fields show what the paths do: at T0 of R61 PC0 has selected a feed and closed its path, before the reset reaches the PWR page
(R61 step 1, R476; DEDUCED, log entry 70). -/
def feedsShown (x d : Dev) : Dev :=
  d |> wr Reg.PWR_FEED_ACTIVE 0 (rd Reg.PWR_FEED_ACTIVE 0 x)
    |> forEach [0, 1] (fun w d => d |> wr (fGood w) 0 (rd (fGood w) 0 x) |> wr (fState w) 0 (rd (fState w) 0 x))

/-- The path of a feed closes where none is closed: its feed is present, and good (R476, R479). -/
def feedCharges (feed : Nat) (d : Dev) : Dev :=
  if noPath d then
    let x := feedPresent feed true d
    if good feed x && !waiting feed x then closePath feed x else feedGood feed x
  else d

/-- Cold start: a feed has charged the bank and every rail comes into regulation (R61, R75, R483, R484). `repairs`: lanes repaired on each
die-to-die link (R16). -/
def coldStart (feed : Nat) (repairs : List Nat) (d : Dev) : Dev :=
  let x := feedCharges feed d
  if d.fd.rails ∨ noPath x = true then d
  else
    let kind := if d.fd.aon then 1 else 0
    x |> resetDev kind |> feedsShown x |> updFd (fun f => { f with rails := true, aon := true })
      |> wr Reg.PWR_PG 0 1 |> emit .pin [8, 1, 0] []
      |> forEach (List.range 9) (fun n d => wrI Reg.DEV_D2D_REPAIR 0 n (repairs.getD n 0) d)
      |> startUp (kind + 1) kind

/-- R61: cold start begins. -/
def execColdStart (feed : Nat) (repairs : List Nat) (s : State) : Out := onDev (onlyIf (decide (feed < 2)) (coldStart feed repairs)) s

/-! ## Warm reset (R73, R74, R89, R557) -/

/-- Every transmitter stops and every slot PERST_N that the DX7 owns is asserted (R73 step 1, R411). -/
def stopAll (d : Dev) : Dev :=
  d |> forEach ((List.range 144).filter (fun p => portStarts p d)) (fun p => emit .portTx [p, 2] [])
    |> forEach ((List.range 64).filter (fun k => rd Reg.EXP_IDX_VALID k d == 1)) (fun k => drivePerst k false)

/-- A warm reset runs; `running` 3, or 4 for a lifecycle transition (R73, R74). -/
def warmNow (running : Nat) (d : Dev) : Dev :=
  d |> stopAll |> resetDev 2 |> bump Reg.DEV_WARM_CNT 0 |> startUp running (if running = 4 then 3 else 2)

/-- The hottest sensor reads below 90 degrees. -/
def cooled (d : Dev) : Bool := d.sens.temps.all (fun t => decide (t < 900))

/-- A warm reset is requested. A second one while one runs is ignored (R89), as is one before AON is released and one after the loss of the
main clock, from which a cold reset recovers (R526; DEDUCED, log entry 73); one during a thermal fault waits (R557). -/
def warmReset (running : Nat) (d : Dev) : Dev :=
  if d.boot.running ≠ 0 ∨ rd Reg.DEV_STATE 0 d = 0 ∨ d.boot.fault = 1 then d
  else if d.boot.fault = 3 ∧ cooled d = false then { d with boot := { d.boot with deferred := true } }
  else warmNow running d

/-- A write to WARM_RST: 0xD7 starts a warm reset, other values are ignored (R58). -/
def warmRst (val : Word) (d : Dev) : Dev := onlyIf (bitsOf val.toNat 0 8 == 0xD7) (warmReset 3) d

/-- R73: a write to WARM_RST; it is the one write that a halted management processor leaves served (R527; DEDUCED, log entry 80). -/
def execWarmRst (value : Word) (s : State) : Out :=
  onDev (fun d => if d.mg.mpHalted then warmRst value d else mgmtWrite 0x00 0 0x10C value (warmRst value) d) s

/-- R557: the sensors read below 90 degrees and the warm reset that waited starts. -/
def execDeferredWarmReset (s : State) : Out :=
  onDev (fun d => onlyIf (d.boot.deferred && cooled d && d.boot.running == 0) (warmNow 3) d) s

end Sys2Proof.Machine
end

