-- ==== Sys2Proof/Machine/BoardTable.lean ====
section
/-!
DEFINITION. The board table (R69, R96 to R100): its check, its load island by island, and the EXP indices that follow (R395).
-/

namespace Sys2Proof.Machine

/-- Gives a field and its staged copy a value. -/
def wrBoth (f : Fld) (inst v : Nat) (d : Dev) : Dev := d |> wr f inst v |> wr f.shadow inst v

/-- A copy passes the checks of R69. -/
def tableOk (m : SMap Byte) : Bool :=
  numAt m 0 4 == 0x44584254 && numAt m 6 2 == 0x7144 && numAt m 4 1 == 1 && numAt m 8 4 == 11012
    && numAt m 11008 4 == crc32c (bytesAt m 0 11008)

/-- A byte of a copy. -/
def tb (m : SMap Byte) (i : Nat) : Nat := (smGet (fun _ => (0 : Byte)) m i).toNat

/-- A byte of a copy as a signed number. -/
def tbi (m : SMap Byte) (i : Nat) : Int := toSigned 8 (tb m i)

/-! ## The checks of an island record (R99) -/

/-- A tap set of a lane record is valid, and its DFE values are in range (R98). -/
def setOk (m : SMap Byte) (a : Nat) : Bool :=
  let taps := (List.range 5).map (fun k => tbi m (a + k))
  decide (32 ≤ tbi m (a + 3)) && decide ((taps.map Int.natAbs).sum ≤ 128)
    && (List.range 8).all (fun k => decide (-64 ≤ tbi m (a + 8 + k) ∧ tbi m (a + 8 + k) ≤ 63))

/-- A lane record holds valid tap sets and codes in range; reserved bits are ignored (R98, R10). -/
def laneRecOk (m : SMap Byte) (n : Nat) : Bool :=
  let a := 640 + 64 * n
  setOk m a && setOk m (a + 16) && (List.range 4).all (fun k => decide (tb m (a + 32 + k) % 16 ≤ 10)) && decide (tb m (a + 36) % 8 ≤ 6)

/-- The port bytes of an island record. -/
def recBytes (m : SMap Byte) (i : Nat) : List Nat := (List.range 8).map (fun j => tb m (64 + 32 * i + 4 + j))

/-- PERS of an island record. -/
def recPers (m : SMap Byte) (i : Nat) : Nat := tb m (64 + 32 * i)

/-- The ×16 flag of an island record. -/
def recX16 (m : SMap Byte) (i : Nat) : Bool := bitOf (tb m (64 + 32 * i + 2)) 4

/-- The error that refuses an island record, 0 for none (R99). -/
def recErr (m : SMap Byte) (i : Nat) : Nat :=
  let a := 64 + 32 * i
  let k := i - i % 2
  if 3 < recPers m i ∨ 1 < tb m (a + 1) ∨ 100 < tb m (a + 20) ∨ (recBytes m i).any (fun c => decide (5 < c / 16)) = true
      ∨ (List.range 9).all (fun j => laneRecOk m (9 * i + j)) = false then Cfg.CFG_LANE_RANGE
  else
    if bytesOk (recPers m i) (recBytes m i) = false then Cfg.CFG_LANE_RANGE
    else if (List.range 8).all (fun j => placeOk (recBytes m i) j) = false then Cfg.CFG_PORT_WIDTH
    else portsErr Cfg.CFG_LANE_RANGE (recPers m i) (tb m (a + 1)) (recX16 m i) (recX16 m k)
      (pairOk (recPers m k) (recPers m (k + 1)) (recBytes m k) (recBytes m (k + 1))) (i % 2 == 1) (recBytes m i)

/-! ## The load -/

/-- Equalization in force and background trim of a lane from its record (R100). -/
def loadLane (m : SMap Byte) (n : Nat) (d : Dev) : Dev :=
  let a := 640 + 64 * n
  let w := fun i => tb m i + 256 * tb m (i + 1) + 65536 * tb m (i + 2) + 16777216 * tb m (i + 3)
  d |> wrBoth Reg.LANE_TX_A n (w a) |> wrBoth Reg.LANE_TX_A_POST n (tb m (a + 4)) |> wrBoth Reg.LANE_CTLE_PEAK_A n (tb m (a + 5))
    |> wrBoth Reg.LANE_CTLE_DC_A n (tb m (a + 6)) |> wrBoth Reg.LANE_DFE_A_LO n (w (a + 8)) |> wrBoth Reg.LANE_DFE_A_HI n (w (a + 12))
    |> wrBoth Reg.LANE_TX_B n (w (a + 16)) |> wrBoth Reg.LANE_TX_B_POST n (tb m (a + 20)) |> wrBoth Reg.LANE_CTLE_PEAK_B n (tb m (a + 21))
    |> wrBoth Reg.LANE_CTLE_DC_B n (tb m (a + 22)) |> wrBoth Reg.LANE_DFE_B_LO n (w (a + 24)) |> wrBoth Reg.LANE_DFE_B_HI n (w (a + 28))

/-- A port byte of an island, as the word of four bytes that holds it. -/
def cfgWord (bs : List Nat) (k : Nat) : Nat := (List.range 4).foldl (fun n j => n + bs.getD (4 * k + j) 0 * 256 ^ j) 0

/-- One island: a refused record leaves it NONE with the lane defaults of R100 and raises TABLE_ISLAND_REFUSED (R99); in the lifecycle state
RETURNED every island is held at NONE (R68). -/
def loadIsland (m : SMap Byte) (i : Nat) (d : Dev) : Dev :=
  if recErr m i ≠ 0 then raiseDet Ev.TABLE_ISLAND_REFUSED 0 (BitVec.ofNat 32 (i + 256 * recErr m i)) 0 d
  else
    let d1 := forEach ((List.range 9).map (fun j => 9 * i + j))
      (fun n d => d |> loadLane m n |> wr Reg.LANE_TRIM_EN n (tb m (64 + 32 * i + 2) % 2)) d
    if lcState d = 3 then d1
    else
      d1 |> wrBoth Reg.ISL_PERS i (recPers m i) |> wrBoth Reg.ISL_REACH i (tb m (64 + 32 * i + 1)) |> wrBoth Reg.ISL_X16 i (bnat (recX16 m i))
        |> wrBoth Reg.ISL_PORT_CFG_LO i (cfgWord (recBytes m i) 0) |> wrBoth Reg.ISL_PORT_CFG_HI i (cfgWord (recBytes m i) 1)
        |> (fun d => forEach (islandPorts i d) (fun p => wr Reg.LNK_EN p 1) d)

/-- The EXP ports take their indices in ascending port number; role, VH and generation come from the table, and each port is enabled (R395,
R396, R419). -/
def loadExp (m : SMap Byte) (d : Dev) : Dev :=
  let x := assignIdx d
  forEach ((List.range 64).filter (fun k => rd Reg.EXP_IDX_VALID k x == 1)) (fun k d =>
    let p := rd Reg.EXP_PORT k x
    let r := tb m (64 + 32 * (p / 8) + 12 + p % 8)
    d |> wrBoth Reg.EXP_ROLE k (r / 128) |> wrBoth Reg.EXP_LVH k (r % 16) |> wrBoth Reg.EXP_MAX_GEN k (portByte p x % 16)
      |> wr Reg.EXP_EN k 1) x

/-- What a table copy gives the whole device: the management function's VH, the I3C address and composite mode, which a warm reset keeps,
and the anchor priority (R96, R58, R421). A PREF_ID from 64 on is none (DESIGN CHOICE, log entry 185). -/
def loadHeader (cold : Bool) (m : SMap Byte) (d : Dev) : Dev :=
  let pref := tb m 20
  { d with cmp := { d.cmp with prefId := if pref < 64 then some pref else none } }
    |> onlyIf cold (fun d => d |> wr Reg.DEV_MGMT_VH 0 (tb m 16 % 16) |> wr Reg.DEV_I3C_ADDR 0 (tb m 17 % 128) |> wr Reg.CMP_EN 0 (tb m 18 % 2)
        |> forEach (List.range 16) (fun v => wr Reg.VHC_MGMT v (bnat (v == tb m 16 % 16))))
    |> wr Reg.CMP_ANCHOR_PRIO 0 (tb m 19)

/-- The board table load: the primary copy, else the secondary, else the defaults (R69). -/
def loadTable (cold : Bool) (d : Dev) : Dev :=
  let use := fun (m : SMap Byte) (c : Nat) (d : Dev) =>
    { d with boot := { d.boot with tblUse := some m } } |> wr Reg.DEV_TABLE_COPY 0 c |> onlyIf (c == 1) (raise Ev.TABLE_SECONDARY 0)
      |> loadHeader cold m |> forEach (List.range 18) (loadIsland m) |> loadExp m |> refreshVh
  if tableOk d.boot.tblPri && !d.boot.badCopies.contains 0 then use d.boot.tblPri 0 d
  else if tableOk d.boot.tblSec && !d.boot.badCopies.contains 1 then use d.boot.tblSec 1 d
  else d |> wr Reg.DEV_TABLE_DEFAULT 0 1 |> raise Ev.TABLE_DEFAULT 0

end Sys2Proof.Machine
end

