-- ==== Sys2Proof/Machine/Image.lean ====
section
/-!
DEFINITION. The configuration image (R79 to R81, R566): its layout and content checks (R84), its application at start-up (R85), and the
image that an export carries (R81, R82).
-/

namespace Sys2Proof.Machine

/-! ## Layout -/

/-- LENGTH of an image. -/
def imgLen (m : SMap Byte) : Nat := numAt m 12 4

/-- Sections from an offset, as type, place and length of the data: they fill the bytes up to `stop` exactly. -/
def imgSections (m : SMap Byte) (stop : Nat) : Nat → Nat → Option (List (Nat × Nat × Nat))
  | 0, pos => if pos = stop then some [] else none
  | n + 1, pos =>
    let len := numAt m (pos + 4) 4
    let next := pos + 8 + (len + 3) / 4 * 4
    if pos + 8 ≤ stop ∧ next ≤ stop then (imgSections m stop n next).map (fun l => (numAt m pos 2, pos + 8, len) :: l) else none

/-- The sections of an image. -/
def sectionsOf (m : SMap Byte) : Option (List (Nat × Nat × Nat)) :=
  if 1 ≤ numAt m 10 2 ∧ numAt m 10 2 ≤ 64 then imgSections m (imgLen m - 4) (numAt m 10 2) 48 else none

/-- Place and length of the section of a type. -/
def sectionAt (t : Nat) (l : List (Nat × Nat × Nat)) : Option (Nat × Nat) := (l.find? (fun x => x.1 == t)).map (fun x => x.2)

/-- The records of REGISTERS: address and value. -/
def regRecs (m : SMap Byte) (s : Nat × Nat) : List (Nat × Word) :=
  (List.range (s.2 / 8)).map (fun k => (numAt m (s.1 + 8 * k) 4, BitVec.ofNat 32 (numAt m (s.1 + 8 * k + 4) 4)))

/-- Size in bytes and number of entries of an image-held table (R566). -/
def tableShape (block table : Nat) : Option (Nat × Nat) :=
  match block with
  | 0x0F => if table = 0 then some (16, 65536) else none
  | 0x10 => if 80 ≤ table then none
            else match table % 4 with
              | 0 => some (16, 8192) | 1 => some (20, 1024) | 2 => some (20, 256) | _ => none
  | 0x16 => if table = 0 then some (24, 65536) else none
  | 0x1A => match table with
            | 0 => some (4, 512) | 1 => some (32, 256) | _ => none
  | _ => none

/-- A record of TABLES: block, table, first entry, count and the place of its entries. -/
structure TabRec where
  block : Nat
  table : Nat
  first : Nat
  count : Nat
  pos : Nat
deriving DecidableEq, Repr

/-- A record lies within the entries of its table; port maps have none for devices 0 and 1. -/
def TabRec.fits (r : TabRec) : Bool :=
  match tableShape r.block r.table with
  | some s => decide (r.first + r.count ≤ s.2) &&
      (!(r.block == 0x1A && r.table == 0) || (List.range r.count).all (fun k => decide (2 ≤ (r.first + k) % 32)))
  | none => false

/-- The records of TABLES from an offset; none where one names no image-held table, leaves its entries, or does not end with the section. -/
def tabRecs (m : SMap Byte) (stop : Nat) : Nat → Nat → Option (List TabRec)
  | 0, pos => if pos = stop then some [] else none
  | n + 1, pos =>
    if pos = stop then some []
    else
      let r : TabRec := ⟨numAt m pos 1, numAt m (pos + 1) 1, numAt m (pos + 2) 4, numAt m (pos + 6) 2, pos + 8⟩
      match tableShape r.block r.table with
      | some s =>
        if r.fits && decide (pos + 8 + s.1 * r.count ≤ stop) then (tabRecs m stop n (pos + 8 + s.1 * r.count)).map (fun l => r :: l) else none
      | none => none

/-- The records of a TABLES section. -/
def tableRecs (m : SMap Byte) (s : Nat × Nat) : Option (List TabRec) := tabRecs m (s.1 + s.2) (s.2 / 8) s.1

/-- The words of entry `k` of a record, each most significant byte first. -/
def TabRec.words (r : TabRec) (m : SMap Byte) (k : Nat) : List Nat :=
  match tableShape r.block r.table with
  | some s => (List.range (s.1 / 4)).map (fun j => numAt m (r.pos + s.1 * k + 4 * j) 4)
  | none => []

/-! ## Content (R84) -/

/-- The fields of a word whose Cold column reads image (R81). -/
def imageFields (ty off : Nat) : List Fld :=
  ((ownRows.getD ty []).filter (fun f => f.src == .image && (fldIdx f off).isSome))

/-- An address holds an image field. -/
def imageAddr (a : Nat) : Bool :=
  decide (a < 2 ^ 26 ∧ addrInst a < instCount (addrType a)) && !(firstOnly (addrType a) (addrOff a) && addrInst a != 0)
    && !(imageFields (addrType a) (addrOff a)).isEmpty

/-- The sections of an image are well formed: types known, none repeated, lengths as their data asks, every address and record in place
(R84; the lengths DEDUCED, log entry 74). -/
def sectionsOk (m : SMap Byte) : Bool :=
  match sectionsOf m with
  | none => false
  | some l =>
    l.all (fun x => decide (1 ≤ x.1 ∧ x.1 ≤ 5)) && decide (l.map (fun x => x.1)).Nodup &&
    (match sectionAt 2 l with | some s => s.2 == 36 | none => true) &&
    (match sectionAt 3 l with | some s => s.2 % 8 == 0 && (regRecs m s).all (fun r => imageAddr r.1) | none => true) &&
    (match sectionAt 4 l with | some s => (tableRecs m s).isSome | none => true) &&
    (match sectionAt 5 l with | some s => s.2 == 2 | none => true)

/-! ## Application (R85) -/

/-- A refusal of the image: the refused address, or the table and entry, and the code. -/
abbrev ImgErr := Nat × Nat

/-- The fields of a word that the image gives at this start-up: those that a warm reset keeps only at a cold start (R11). -/
def takenFields (cold : Bool) (ty off : Nat) : List Fld := (imageFields ty off).filter (fun f => cold || !(f.warm == .kept))

/-- A record of REGISTERS put in force, staged copies with it; a page that does not exist takes nothing (R34). -/
def putRecord (cold : Bool) (r : Nat × Word) (d : Dev) : Dev :=
  let ty := addrType r.1
  let inst := addrInst r.1
  let off := addrOff r.1
  if !(pageExists ty inst d && offsetOk ty inst off) then d
  else
    forEach (takenFields cold ty off) (fun f d =>
      match fldIdx f off with
      | some i =>
        let v := getBits r.2 f.lo f.wd
        d |> wrI f inst i v |> onlyIf (f.acc == .rwc) (wrI f.shadow inst i v)
      | none => d) d

/-- A wire source of a map word names a host group or the DX7 (R324). -/
def wiresOk (w : Nat) : Bool := (List.range 5).all (fun k => decide (bitsOf w (5 * k) 5 ≤ 15 ∨ bitsOf w (5 * k) 5 = 31))

/-- The error that refuses a record, in the state with every record in force; 0 for none. Each word is checked for its ranges, each page's
staged fields as their commit would be (R44, R85, log entry 75). -/
def recordErr (cold : Bool) (r : Nat × Word) (x : Dev) : Nat :=
  let ty := addrType r.1
  let inst := addrInst r.1
  let off := addrOff r.1
  let w := wordAt r.1 x
  let fs := takenFields cold ty off
  if fs.isEmpty || !(pageExists ty inst x && offsetOk ty inst off) then 0
  else if ty = 0 ∧ off = 0x104 then
    (if 1 ≤ rd Reg.DEV_BEHAVIOUR_LEVEL 0 x ∧ rd Reg.DEV_BEHAVIOUR_LEVEL 0 x ≤ rd Reg.DEV_BL_MAX 0 x then 0 else Cfg.BL_UNSUPPORTED)
  else if ty = 0x15 ∧ 0x800 ≤ off then
    (if wiresOk w.toNat && (0x880 ≤ off || wireMapOk (fun s => rdI Reg.BRG_WIRE_MAP 0 s x)) then 0 else Cfg.CFG_WIRE_MAP)
  else if ((rangesCore ++ rangesPath ++ rangesEngines).filter (fun t => t.1.ty == ty && t.1.src == .image)).all (rowOk off w) = false then rangeCode ty
  else if fs.any (fun f => f.acc == .rwc) = true then
    (if ty = 0x0E ∧ rd Reg.SCH_GATE_EN inst x = 1 ∧ (pers (inst / 8) x = 1 ∨ gateListOk inst (rd Reg.SCH_ACTIVE_LIST inst x) x = false) then
       Cfg.CFG_GATE_LIST
     else commitErr ty inst x)
  else if ty = 0x0E then 0
  else if ty = 0x0A ∨ ty = 0x19 then
    (if off = 0x104 ∧ getBits w 0 1 = 1 ∧ harbourFits x = false then Cfg.CFG_HBR_OVERCOMMIT else 0)
  else if ty = 0x1A then
    (if off = 0x100 ∧ rd Reg.VHC_CVH inst x ≠ 255
        ∧ (List.range 16).any (fun v => v != inst && rd Reg.VHC_CVH v x == rd Reg.VHC_CVH inst x) = true then Cfg.CFG_CMP_RANGE else 0)
  else relationErr ty inst off w x x

/-- REGISTERS: every record, then the first that is refused. -/
def applyRegs (cold : Bool) (rs : List (Nat × Word)) (d : Dev) : Dev × Option ImgErr :=
  let x := forEach rs (putRecord cold) d
  match rs.find? (fun r => recordErr cold r x != 0) with
  | some r => (x, some (r.1, recordErr cold r x))
  | none => (x, none)

/-- A meter entry: within R208, or all zero as a meter never written. -/
def meterEntry (m : Nat) (ws : List Nat) (d : Dev) : Dev × Nat :=
  let w := fun k => ws.getD k 0
  let cir := w 0 % 2 ^ 22
  let pir := w 1 % 2 ^ 22
  let cbs := w 2 % 2 ^ 24
  let pbs := w 3 % 2 ^ 24
  if ws.all (fun x => x == 0) then (d, 0)
  else if cir ≤ pir ∧ pir ≤ 4000000 ∧ 64 ≤ cbs ∧ 64 ≤ pbs ∧ bitsOf (w 0) 24 2 ≠ 3 ∧ bitsOf (w 0) 26 2 ≠ 3 then
    (putMeter m { meterOf m d with w0 := w 0 % 2 ^ 28, pir := pir, cbs := cbs, pbs := pbs, tc := cbs * 8000, tp := pbs * 8000, tAt := d.th.localNs } d, 0)
  else (d, Cfg.CFG_MTR_RANGE)

/-- A routing entry goes into both sets: of every island for tables 0 to 2, else of one (R566). -/
def routeEntry (table idx : Nat) (ws : List Nat) (d : Dev) : Dev :=
  let t := table % 4
  let v := (ws.zipIdx.foldl (fun n x => n + x.1 * 2 ^ (32 * x.2)) 0) &&& tblMask t
  forEach (if table < 4 then List.range 20 else [table / 4]) (fun i d => d |> tblPut i t 0 idx v |> tblPut i t 1 idx v) d

/-- A message map entry: refused by R321 where it is valid. -/
def mapEntry (i : Nat) (ws0 : List Nat) (d : Dev) : Dev × Nat :=
  let ws := (ws0.getD 0 0 % 2 ^ 30) :: ws0.tail
  if wbits ws 0 28 1 = 0 ∨ (uspPort (wbits ws 1 16 4) d == some (wbits ws 1 20 8) && wpair ws 2 % 4 == 0) = true then (putMap i ws d, 0)
  else (d, Cfg.CFG_MAP_RANGE)

/-- A port map entry with MAP_VALID is a BIND (R399, R566). -/
def bindEntry (e w : Nat) (d : Dev) : Dev × Nat :=
  let (_, k, ld) := mapWord w
  if bitOf w 0 = false then (d, 0)
  else
    match bindBad (some (e / 32)) k ld d with
    | 0 => (bindDone (e / 32) (e % 32) w d, 0)
    | 1 => (d, Cfg.CFG_EXP_BIND)
    | _ => (d, Cfg.CFG_EXP_CACHE)

/-- A peer window (R403, R566). -/
def peerEntry (i : Nat) (ws : List Nat) (d : Dev) : Dev × Nat :=
  if wbits ws 0 0 1 = 0 ∨ pwOk ws d = true then (putPw i (ws, ws) d, 0) else (d, Cfg.CFG_PEER_WIN)

/-- An entry that names composite members waits until membership is known, where composite mode is on (R566, log entry 76). -/
def waitEntry (table e : Nat) (ws : List Nat) (d : Dev) : Dev :=
  { d with cmp := { d.cmp with waiting := d.cmp.waiting ++ [(table, e, ws)] } }

/-- One entry of a table: the state with it in force, and the code that refuses it. -/
def applyEntry (block table idx : Nat) (ws : List Nat) (d : Dev) : Dev × Nat :=
  match block with
  | 0x0F => meterEntry idx ws d
  | 0x10 => (routeEntry table idx ws d, 0)
  | 0x16 => mapEntry idx ws d
  | _ =>
    if compositeOn d then (if bitOf (ws.getD 0 0) 0 then waitEntry table idx ws d else d, 0)
    else if table = 0 then bindEntry idx (ws.getD 0 0) d
    else peerEntry idx ws d

/-- The entries of a record from number `k` on. -/
def applyEntries (r : TabRec) (m : SMap Byte) : Nat → Nat → Dev → Dev × Option ImgErr
  | 0, _, d => (d, none)
  | n + 1, k, d =>
    let y := applyEntry r.block r.table (r.first + k) (r.words m k) d
    if y.2 ≠ 0 then (d, some (r.block * 2 ^ 20 + (r.first + k) % 2 ^ 20, y.2)) else applyEntries r m n (k + 1) y.1

/-- TABLES, in record order. -/
def applyTabs (m : SMap Byte) : List TabRec → Dev → Dev × Option ImgErr
  | [], d => (d, none)
  | r :: rs, d =>
    match applyEntries r m r.count 0 d with
    | (x, none) => applyTabs m rs x
    | bad => bad

/-- SPARE_MAP, at a cold start: the substitutions are held, to be judged by the lane's qualification (R85, R111). -/
def applySpares (m : SMap Byte) (pos : Nat) (d : Dev) : Dev :=
  forEach (List.range 18) (fun i d =>
    let w := numAt m (pos + 2 * i) 2
    if bitOf w 15 then
      let n := 9 * i + bitsOf w 12 3
      d |> wr Reg.LANE_HELD n 1 |> wr Reg.LANE_SPARE_VALID (spareLane i) 1 |> wr Reg.LANE_SPARE_FOR (spareLane i) (bitsOf w 12 3)
        |> updLane n (fun l => { l with fromImage := true })
    else d) d

/-- COMPOSITE: enables composite mode (R87, log entry 77) and gives preferred ID and priority. -/
def applyComposite (m : SMap Byte) (pos : Nat) (d : Dev) : Dev :=
  let p := numAt m pos 1
  { d with cmp := { d.cmp with prefId := if p < 64 then some p else none } }
    |> wr Reg.CMP_EN 0 1 |> wr Reg.CMP_ANCHOR_PRIO 0 (numAt m (pos + 1) 1)

/-- Goes on while nothing was refused. -/
def imgThen (f : Dev → Dev × Option ImgErr) (x : Dev × Option ImgErr) : Dev × Option ImgErr :=
  match x.2 with
  | some _ => x
  | none => f x.1

/-- The active slot in the order of R85. Composite mode is known before its tables are applied. -/
def applySections (cold : Bool) (m : SMap Byte) (l : List (Nat × Nat × Nat)) (d : Dev) : Dev × Option ImgErr :=
  let lvl := numAt m 5 1
  let on := fun t (f : Nat × Nat → Dev → Dev × Option ImgErr) => imgThen (fun d => match sectionAt t l with | some s => f s d | none => (d, none))
  let start : Dev × Option ImgErr :=
    if !cold then (d, none)
    else if 1 ≤ lvl ∧ lvl ≤ rd Reg.DEV_BL_MAX 0 d then (wr Reg.DEV_BEHAVIOUR_LEVEL 0 lvl d, none)
    else (d, some (0x104, Cfg.BL_UNSUPPORTED))
  start
    |> on 2 (fun s d => (if cold then applySpares m s.1 d else d, none))
    |> on 3 (fun s d => applyRegs cold (regRecs m s) d)
    |> imgThen (fun d => (onlyIf (sectionAt 5 l).isSome (wr Reg.CMP_EN 0 1) d, none))
    |> on 4 (fun s d => match tableRecs m s with | some rs => applyTabs m rs d | none => (d, some (0x15C, Cfg.IMG_SECTION)))
    |> on 5 (fun s d => (applyComposite m s.1 d, none))

/-- An image slot. -/
def imageSlot (k : Nat) (d : Dev) : SMap Byte := if k = 0 then d.boot.slot0 else d.boot.slot1

/-- Step 8 of start-up: the active slot is applied, or undone as a whole (R85). -/
def applyImage (cold : Bool) (d : Dev) : Dev :=
  match d.boot.active with
  | none => d
  | some k =>
    let m := imageSlot k d
    let r := if d.boot.badCopies.contains (2 + k) then (d, some (0x15C, Cfg.IMG_CRC))
      else match sectionsOf m with
        | some l => applySections cold m l d
        | none => (d, some (0x15C, Cfg.IMG_SECTION))
    match r.2 with
    | some e => raiseDet Ev.IMG_APPLY_FAIL 0 (BitVec.ofNat 32 e.1) (BitVec.ofNat 32 e.2) d
    | none => { r.1 with boot := { r.1.boot with applied := some (bytesAt m 0 (imgLen m)) } }
        |> wr Reg.DEV_IMAGE_APPLIED 0 1 |> wr Reg.DEV_SLOT_ACTIVE 0 k

/-! ## Export (R81, R82, R566) -/

/-- A section: its header, its data and padding. -/
def sectionBytes (t : Nat) (data : List Byte) : List Byte :=
  beBytes 2 t ++ beBytes 2 0 ++ beBytes 4 data.length ++ data ++ List.replicate ((4 - data.length % 4) % 4) 0

/-- The board table copy in use. -/
def tableBytes (d : Dev) : Option (List Byte) := d.boot.tblUse.map (fun m => bytesAt m 0 11012)

/-- SPARE_MAP: the substitutions held. -/
def spareBytes (d : Dev) : List Byte :=
  (List.range 18).flatMap (fun i => beBytes 2 (match heldPos i d with | some j => 32768 + 4096 * j | none => 0))

/-- The image fields of a page in force, as records in address order. -/
def pageRecs (ty inst : Nat) (d : Dev) : List Byte :=
  if pageExists ty inst d then
    (List.range 1024).flatMap (fun k =>
      let fs := imageFields ty (4 * k)
      if fs.isEmpty || !offsetOk ty inst (4 * k) then []
      else
        let w := wordAt (regAddr ty inst (4 * k)) d
        beBytes 4 (regAddr ty inst (4 * k)) ++ beBytes 4 (fs.foldl (fun (x : Word) f => setBits x f.lo f.wd (getBits w f.lo f.wd)) 0).toNat)
  else []

/-- REGISTERS. -/
def imageRegs (d : Dev) : List Byte :=
  (List.range 32).flatMap (fun ty => (List.range (instCount ty)).flatMap (fun inst => pageRecs ty inst d))

/-- A record of consecutive entries. -/
def recBytesOf (block table first : Nat) (entries : List (List Nat)) : List Byte :=
  beBytes 1 block ++ beBytes 1 table ++ beBytes 4 first ++ beBytes 2 entries.length ++ entries.flatMap (fun ws => ws.flatMap (beBytes 4))

/-- A whole table, in records of at most 4,096 entries. -/
def wholeTable (block table size : Nat) (entry : Nat → List Nat) : List Byte :=
  (List.range ((size + 4095) / 4096)).flatMap (fun c =>
    recBytesOf block table (4096 * c) ((List.range (min 4096 (size - 4096 * c))).map (fun k => entry (4096 * c + k))))

/-- Words of a routing entry of the active set. -/
def routeWords (i t idx : Nat) (d : Dev) : List Nat :=
  (List.range (if t = 0 then 4 else 5)).map (fun k => bitsOf (tblAt i t (epoch i d) idx d) (32 * k) 32)

/-- Runs of consecutive numbers, each as its first and its length, at most 4,096. -/
def idxRuns : List Nat → List (Nat × Nat)
  | [] => []
  | n :: ns =>
    match idxRuns ns with
    | (m, c) :: rest => if m = n + 1 ∧ c < 4096 then (n, c + 1) :: rest else (n, 1) :: (m, c) :: rest
    | [] => [(n, 1)]

/-- The routing tables: those of I00, and of each other island the entries that differ from them (R566). -/
def routeBytes (d : Dev) : List Byte :=
  let size := fun t => if t = 0 then 8192 else if t = 1 then 1024 else 256
  (List.range 3).flatMap (fun t => wholeTable 0x10 t (size t) (fun k => routeWords 0 t k d)) ++
  ((List.range 20).drop 1).flatMap (fun i => (List.range 3).flatMap (fun t =>
    (idxRuns ((List.range (size t)).filter (fun k => routeWords i t k d != routeWords 0 t k d))).flatMap (fun r =>
      recBytesOf 0x10 (4 * i + t) r.1 ((List.range r.2).map (fun k => routeWords i t (r.1 + k) d)))))

/-- TABLES. -/
def tabBytes (d : Dev) : List Byte :=
  wholeTable 0x0F 0 65536 (fun m => let x := meterOf m d; [x.w0 % 2 ^ 28, x.pir, x.cbs, x.pbs]) ++ routeBytes d
    ++ wholeTable 0x16 0 65536 (fun i => mapOf i d)
    ++ (List.range 16).flatMap (fun v => recBytesOf 0x1A 0 (32 * v + 2) ((List.range 30).map (fun n => [(smFind d.sw.maps (32 * v + 2 + n)).getD 0])))
    ++ wholeTable 0x1A 1 256 (fun i => (pwOf i d).1)

/-- COMPOSITE, of a device in composite mode. -/
def compositeBytes (d : Dev) : List Byte :=
  beBytes 1 (match d.cmp.prefId with | some p => p | none => 0xFF) ++ beBytes 1 (rd Reg.CMP_ANCHOR_PRIO 0 d)

/-- The image of the current state. -/
def exportImage (d : Dev) : List Byte :=
  let secs := (match tableBytes d with | some b => [sectionBytes 1 b] | none => [])
    ++ [sectionBytes 2 (spareBytes d), sectionBytes 3 (imageRegs d), sectionBytes 4 (tabBytes d)]
    ++ (if compositeOn d then [sectionBytes 5 (compositeBytes d)] else [])
  let body := secs.flatten
  let head := beBytes 4 0x44584349 ++ beBytes 1 1 ++ beBytes 1 (rd Reg.DEV_BEHAVIOUR_LEVEL 0 d) ++ beBytes 2 0x7144 ++ beBytes 1 (stepCode d)
    ++ beBytes 1 (rd Reg.DEV_BL_MAX 0 d) ++ beBytes 2 secs.length ++ beBytes 4 (52 + body.length) ++ beBytes 8 d.otp.serial
    ++ beBytes 8 (if timeValid d then fabricNs d else 0) ++ List.replicate 16 0
  head ++ body ++ beBytes 4 (crc32c (head ++ body))

end Sys2Proof.Machine
end

