-- ==== Sys2Proof/Machine/Startup.lean ====
section
/-!
DEFINITION. Start-up from the memory wipe to READY (R61, R63, R66 to R69, R73, R76, R77, R85).
-/

namespace Sys2Proof.Machine

/-- The own VHs stand in the CVH table (R412): each VH with an upstream port and a CVH. -/
def refreshCvh (d : Dev) : Dev :=
  if compositeOn d then
    let own := (List.range 16).filter (fun v => rd Reg.VHC_VH_EN v d == 1 && rd Reg.VHC_CVH v d != 255)
    updSw (fun s => { s with
      cvhs := own.foldl (fun m v => smPut m (rd Reg.VHC_CVH v d) (ownId d, v)) (s.cvhs.filter (fun e => e.2.1 != ownId d)) }) d
  else d

/-- A downstream port in a slot shows the presence of its wire (R411). -/
def slotStart (k : Nat) (d : Dev) : Dev :=
  if rd Reg.EXP_IDX_VALID k d = 1 ∧ isUsp k d = false ∧ ownsWire k 2 d = true then
    updSwPort k (fun q => { q with prsnt := !bitOf (slotLvl 2 d) (rd Reg.EXP_SLOT k d) }) d
  else d

/-- The bridge aperture of a function from start-up on (R429). -/
def aperStart (v : Nat) (d : Dev) : Dev :=
  updFun v (fun f => { f with aper := some (rd Reg.FUN_APER_LOG v d, rd Reg.FUN_APER_PF v d == 1) }) d

/-- Tables and queues as the registers in force ask: translation and match structures, shapers and gates, slots, CVHs, apertures (R21,
R202, R204, R429). -/
def structuresStart (d : Dev) : Dev :=
  d |> xltInit |> matchInit |> forEach ((List.range 144).filter (fun p => portStarts p d)) schedReset |> forEach (List.range 64) slotStart
    |> refreshCvh |> forEach (List.range 16) aperStart

/-- BOOT_TIME: from T0 to READY in 10 µs units; what does not fit the field the spec does not state (log entry 12). -/
def bootTime (d : Dev) : Dev := wrFit Reg.DEV_BOOT_TIME 0 ((d.th.localNs - d.boot.t0) / 10000) d

/-- READY: islands that are not NONE start bring-up; time service begins; SUPPLY_LOST and LC_TRANSITION are raised (R61, R483, R518). -/
def readyNow (d : Dev) : Dev :=
  let lc := d.boot.running == 4
  { d with boot := { d.boot with loaded := d.regs, running := 0 } }
    |> bootTime |> wr Reg.DEV_STATE 0 6 |> timeElect
    |> onlyIf d.fd.lost (fun d => d |> updFd (fun f => { f with lost := false }) |> raise Ev.SUPPLY_LOST 0)
    |> onlyIf lc (raise Ev.LC_TRANSITION 0)
    |> forEach (List.range 18) islandStart

/-- Start-up ends short of READY: 7 RECOVERY, 8 FAULT. -/
def startEnds (state : Nat) (d : Dev) : Dev := { d with boot := { d.boot with running := 0 } } |> wr Reg.DEV_STATE 0 state

/-- The wipe was verified: start-up goes on through the board table and the image to READY, or ends in RECOVERY (R61, R66, R68). A
BLANK or RETIRED device with a good bank raises no BOOT_RECOVERY (R65, R90; DESIGN CHOICE, log entry 183). -/
def wipeGood (d : Dev) : Dev :=
  let cold := decide (d.boot.running < 3)
  let d1 := wr Reg.DEV_WIPE_DONE 0 1 d
  if lcState d = 0 ∨ lcState d = 4 then startEnds 7 d1
  else if d.boot.bankUp = false then d1 |> loadTable cold |> startEnds 7
  else d1 |> loadTable cold |> applyImage cold |> structuresStart |> readyNow

/-- The wipe ends; a word that fails its read-back leads to FAULT (R77). -/
def wipeDone (ok : Bool) (mem addr : Nat) (d : Dev) : Dev :=
  if rd Reg.DEV_WIPE_BUSY 0 d = 0 ∨ d.boot.running = 0 then d
  else
    let d1 := d |> wr Reg.DEV_WIPE_BUSY 0 0 |> wrFit Reg.DEV_WIPE_TIME 0 ((d.th.localNs - d.boot.wipeStart) / 1000)
    if ok then wipeGood d1
    else d1 |> wr Reg.DEV_WIPE_FAIL 0 1 |> raiseDet Ev.WIPE_FAIL 0 (BitVec.ofNat 32 mem) (BitVec.ofNat 32 addr) |> startEnds 8

/-- R77: the memory wipe and its verification end. -/
def execMemoryWipeComplete (ok : Bool) (mem addr : Nat) (s : State) : Out := onAll (wipeDone ok mem addr) s

/-- The upstream ports of a VH begin link training where they have not (R63). -/
def uspTrain (v : Nat) (d : Dev) : Dev :=
  forEach ((List.range 64).filter (fun k => rd Reg.EXP_IDX_VALID k d == 1 && isUsp k d && rd Reg.EXP_LVH k d == v
      && rd Reg.LNK_LSTATE (rd Reg.EXP_PORT k d) d == 0 && rd Reg.ISL_TEST (rd Reg.EXP_PORT k d / 8) d == 0))
    (fun k => startBringup (rd Reg.EXP_PORT k d)) d

/-- PERST_N of a host group goes high: it passes through to its slots, and the upstream port of the VH trains once READY (R63, R323). -/
def perstHigh (h : Nat) (d : Dev) : Dev :=
  if 16 ≤ h ∨ bitOf (hostLvl 0 d) h = true then d
  else
    d |> setHostLvl 0 (setBit (hostLvl 0 d) h)
      |> forEach ((List.range 32).filter (fun s => wireAt s 0 d == h)) perstFollows
      |> (fun d => onlyIf (ready d) (uspTrain h) d)

/-- R63: an upstream port's PERST_N is deasserted. -/
def execUpstreamPerstDeassert (host : Nat) (s : State) : Out := onAll (perstHigh host) s

end Sys2Proof.Machine
end

