-- ==== Sys2Proof/Machine/Edurn.lean ====
section
/-!
DEFINITION. The Edurn frame and its answer on a path (R53 to R57, R62, R66, R77, R527). What a command does lies with its block.
-/

namespace Sys2Proof.Machine

/-! ## Statuses (R56) -/

/-- STATUS of a response. -/
def stOk : Nat := 0
/-- As above: opcode not implemented. -/
def stBadOpcode : Nat := 1
/-- As above: a length or field outside its range. -/
def stBadLength : Nat := 2
/-- As above: CRC mismatch. -/
def stCrcError : Nat := 3
/-- As above: another command is in progress. -/
def stBusy : Nat := 4
/-- As above: refused by lifecycle state or authorization. -/
def stDenied : Nat := 5
/-- As above: a member did not answer. -/
def stTimeout : Nat := 6
/-- As above: no member has the composite ID. -/
def stUnreachable : Nat := 7
/-- As above: a configuration error; its code follows. -/
def stRefused : Nat := 8

/-- What a command answers: the state it leaves, STATUS, the payload after it, and what the end of the response starts. -/
structure EdRes where
  dev : Dev
  status : Nat
  body : List Byte
  after : Nat

/-- An answer of a status alone. -/
def edStat (st : Nat) (d : Dev) : EdRes := ⟨d, st, [], 0⟩

/-- An answer of OK with a payload. -/
def edOk (body : List Byte) (d : Dev) : EdRes := ⟨d, stOk, body, 0⟩

/-! ## Frames (R54) -/

/-- A frame with its CRC. -/
def edFrame (opc tag : Nat) (payload : List Byte) : List Byte :=
  let b := beBytes 1 opc ++ beBytes 1 tag ++ beBytes 2 payload.length ++ payload
  b ++ beBytes 4 (crc32c b)

/-- The bytes of DEV_MBX_DATA, byte 0 in bits [7:0] of the first word (R57). -/
def mbxBytes (d : Dev) : List Byte := (List.range 256).flatMap (fun i => leBytes 4 (rdI Reg.DEV_MBX_DATA 0 i d))

/-- Writes bytes into DEV_MBX_DATA from its first byte on; what lies behind them stays. -/
def mbxPut (bs : List Byte) (d : Dev) : Dev :=
  let all := bs ++ (mbxBytes d).drop bs.length
  wrBytes Reg.DEV_MBX_DATA 256 (all.take 1024) d

/-! ## Paths -/

/-- The path as the trace numbers it. -/
def pathNo : Path → Nat
  | .inBand => 0
  | .fabric => 1
  | .mailbox => 2
  | .i3c => 3

/-- The I3C target is served: AON holds power and a feed is present, and so is VIO (R61, R475, R485, R550). -/
def i3cUp (d : Dev) : Bool := d.fd.aon && d.fd.holdSince.isNone && vioGood d

/-- The path takes an Edurn command: the mailbox at READY, I3C while its target is served (R62). -/
def edServed (path : Path) (d : Dev) : Bool :=
  match path with
  | .mailbox => ready d && !d.mg.mpHalted
  | .i3c => i3cUp d
  | _ => false

/-- A command is in progress on a path (R55). -/
def edBusy (path : Path) (d : Dev) : Bool := d.mg.running.any (fun r => r.1 == path)

/-- The status that answers a command the start-up state does not serve; LIFECYCLE answers for itself (R62, R66, R77, R517, R527). -/
def edGate (opc : Nat) (d : Dev) : Option Nat :=
  let early := opc == 1 || opc == 4 || opc == 5
  let st := rd Reg.DEV_STATE 0 d
  if opc = 0x0C then none
  else if d.mg.mpHalted then (if early then none else some stDenied)
  else if st = 6 then none
  else if 7 ≤ st then (if early || opc == 9 || opc == 0x0A || opc == 0x0B then none else some stDenied)
  else if st ≤ 1 then (if early then none else some stBusy)
  else if early || opc == 9 || opc == 0x0A then none else some stBusy

/-- An in-band interrupt signals a ready response, or is held until it can be sent (R38, R55). -/
def responseIbi (d : Dev) : Dev :=
  if vioGood d ∧ d.mg.dynAddr.isSome then emit .ibi [] [] d
  else { d with mg := { d.mg with ibiHeld := true } }

/-- What the end of a response starts (R73, R518). -/
def afterResponse (a : Nat) (d : Dev) : Dev :=
  match a with
  | 1 => warmReset 3 d
  | 2 => warmReset 4 d
  | _ => d

/-- The response goes out: into DEV_MBX_DATA with MBX_DONE, or ready for a private read over I3C (R55, R57). -/
def edAnswer (path : Path) (opc tag st : Nat) (body : List Byte) (after : Nat) (d : Dev) : Dev :=
  match path with
  | .mailbox =>
    d |> mbxPut (edFrame (opc % 128 + 128) tag (BitVec.ofNat 8 st :: body)) |> wr Reg.DEV_MBX_DONE 0 1 |> raise Ev.MBX_DONE 0
      |> emit .edurn [pathNo path, tag, opc % 128 + 128, st] body |> afterResponse after
  | _ =>
    { d with mg := { d.mg with ready := d.mg.ready ++ [⟨tag, opc, st, body, after⟩] } } |> responseIbi

/-- A command that waits for another member gives no answer yet. -/
def stPending : Nat := 256

/-- A command is in progress on a path. -/
def edEnter (path : Path) (tag opc : Nat) (d : Dev) : Dev := { d with mg := { d.mg with running := d.mg.running ++ [(path, tag, opc)] } }

/-- The command of a path has ended. -/
def edLeave (path : Path) (d : Dev) : Dev := { d with mg := { d.mg with running := d.mg.running.filter (fun r => r.1 != path) } }

/-- Serves a command on a path. A command that a reset of its own making discarded gives no answer. -/
def edServe (opc : Nat) (path : Path) (tag : Nat) (act : Dev → EdRes) (d : Dev) : Dev :=
  if edBusy path d then edAnswer path opc tag stBusy [] 0 d
  else
    match edGate opc d with
    | some st => edAnswer path opc tag st [] 0 d
    | none =>
      let r := act (edEnter path tag opc d)
      if r.status = stPending ∨ edBusy path r.dev = false then r.dev
      else edAnswer path opc tag r.status r.body r.after (edLeave path r.dev)

/-- The words of a frame written into DEV_MBX_DATA; while a command runs they are dropped and counted (R57). -/
def mbxFrame (frame : List Byte) (d : Dev) : Dev :=
  if mbxBusy d then forEach (List.range ((frame.length + 3) / 4)) (fun _ => dropWrite) d else mbxPut frame d

/-- An Edurn command: over I3C the frame arrives, through the mailbox it stands in DEV_MBX_DATA and GO is written (R55, R57). -/
def edCommand (opc : Nat) (path : Path) (tag : Nat) (payload : List Byte) (act : Dev → EdRes) (d : Dev) : Dev :=
  if edServed path d then
    d |> (fun d => if path = .mailbox then mbxFrame (edFrame opc tag payload) d else d) |> edServe opc path tag act
  else d

/-- Both memory stacks are ON (R489). -/
def stacksOn (d : Dev) : Bool := domOn 56 d && domOn 57 d

/-- Bytes of a payload as a number. -/
def numIn (p : List Byte) (i n : Nat) : Nat := ofBe ((p.drop i).take n)

end Sys2Proof.Machine
end

