-- ==== Sys2Proof/Machine/Security.lean ====
section
/-!
DEFINITION. The security engine (ch. 17): firmware staging and activation, lifecycle, rollback counters, SPDM, MCTP control and DOE
Discovery.
-/

namespace Sys2Proof.Machine

/-- Changes the security engine's state. -/
def updSec (f : Sec → Sec) (d : Dev) : Dev := { d with sec := f d.sec }

/-- Changes OTP. -/
def updOtp (f : Otp → Otp) (d : Dev) : Dev := { d with otp := f d.otp }

/-! ## Staging and activation (R506, R507) -/

/-- Writes bytes into a memory. -/
def putBytes (m : SMap Byte) (pos : Nat) (bs : List Byte) : SMap Byte :=
  bs.zipIdx.foldl (fun m x => smSet (fun _ => 0) m (pos + x.2) x.1) m

/-- Writes bytes into a bank: a word rewritten reads without an error again. -/
def bankWrite (b pos : Nat) (bs : List Byte) (d : Dev) : Dev :=
  let good := fun l : List Nat => l.filter (fun a => !(decide (pos ≤ a ∧ a < pos + bs.length)))
  { d with boot := if b = 0 then { d.boot with bankA := putBytes d.boot.bankA pos bs, badA := good d.boot.badA }
                   else { d.boot with bankB := putBytes d.boot.bankB pos bs, badB := good d.boot.badB } }

/-- FW_STAGE. -/
def fwStage (path : Path) (p : List Byte) (d : Dev) : EdRes :=
  let n := numIn p 0 4
  let data := p.drop 4
  if stacksOn d = false then edStat stBusy d
  else if p.length < 4 ∨ 1012 < p.length ∨ 10485760 < 1008 * n + data.length then edStat stBadLength d
  else if d.sec.owner = some path ∨ (n = 0 ∧ d.sec.owner = none) then
    let b := stageBank d
    edOk [] (d |> (fun d => if n = 0 then bankWrite b 0 (List.replicate 64 0) d else d) |> bankWrite b (1008 * n) data
      |> updSec (fun s => { s with
          owner := some path
          stageChunks := if n = 0 then [0] else if s.stageChunks.contains n then s.stageChunks else n :: s.stageChunks }))
  else edStat stDenied d

/-- R506: FW_STAGE. -/
def execFwStage (path : Path) (tag : Nat) (payload : List Byte) (s : State) : Out :=
  onDev (edCommand 9 path tag payload (fwStage path payload)) s

/-- R506: 10 s after the owner's last chunk, ownership ends. -/
def execStagingOwnerExpire (s : State) : Out := onDev (updSec (fun x => { x with owner := none })) s

/-- FW_ACTIVATE. -/
def fwActivate (p : List Byte) (d : Dev) : EdRes :=
  let b := numIn p 0 1
  if p.length ≠ 1 ∨ 1 < b then edStat stBadLength d
  else
    let d1 := d |> (fun d => if b = stageBank d then updSec (fun s => { s with owner := none }) d else d) |> checkBank b
    if bankReason b d = 0 then edOk [] ({ d1 with boot := { d1.boot with pref := b } } |> raise Ev.FW_ACTIVATED 0)
    else edStat stDenied (raise Ev.FW_ACTIVATE_FAIL 0 d1)

/-- R507: FW_ACTIVATE. -/
def execFwActivate (path : Path) (tag : Nat) (payload : List Byte) (s : State) : Out :=
  onDev (edCommand 0x0A path tag payload (fwActivate payload)) s

/-! ## Lifecycle (R514 to R518) -/

/-- The outcome of a sub-command is recorded (R517, R520). -/
def lcRecord (sub st : Nat) (d : Dev) : Dev := d |> wr Reg.SEC_LC_STATUS 0 st |> wr Reg.SEC_LC_SUBOP 0 sub

/-- A sub-command is refused. -/
def lcRefuse (sub st : Nat) (d : Dev) : EdRes := edStat stDenied (d |> lcRecord sub st |> raise Ev.LC_DENIED 0)

/-- A sub-command succeeds. -/
def lcOk (sub : Nat) (body : List Byte) (after : Nat) (d : Dev) : EdRes := ⟨lcRecord sub 0 d, stOk, body, after⟩

/-- Runs a sub-command at READY with the length its request has (R517). -/
def lcAt (sub len : Nat) (p : List Byte) (act : Dev → EdRes) (d : Dev) : EdRes :=
  if ready d = false ∨ d.mg.mpHalted = true then lcRefuse sub 1 d
  else if p.length ≠ len then edStat stBadLength d
  else act d

/-- STATE. -/
def lcStateOp (d : Dev) : EdRes :=
  lcOk 1 (beBytes 1 (lcState d) ++ beBytes 1 d.otp.lcRec.length ++ beBytes 1 d.otp.owners.length ++ beBytes 1 d.otp.fwRb ++ beBytes 1 d.otp.keyRb) 0 d

/-- A nonce: 32 free bytes (R516, log entry 10). -/
def freshNonce (d : Dev) : List Byte := (List.range 32).map (Config.freeByte d.freeCtr)

/-- NONCE draws a new nonce in the stead of the one held. -/
def lcNonce (d : Dev) : EdRes := lcOk 2 (freshNonce d) 0 (d |> updSec (fun s => { s with nonce := some (freshNonce d) }) |> takeFree)

/-- Who must sign a transition (R515): 0 nobody, 1 the owner, 2 Ranern, 3 either of them where an owner is bound and else Ranern; none where it
is not permitted. -/
def lcAuth (cur target : Nat) : Option Nat :=
  match cur, target with
  | 1, 2 | 1, 3 | 1, 4 => some 0
  | 2, 1 | 2, 3 | 2, 4 => some 1
  | 3, 1 => some 2
  | 3, 4 => some 3
  | _, _ => none

/-- The digest that a transition's signature covers (R516). -/
def lcDigest (cur target : Nat) (nonce pub : List Byte) (d : Dev) : List Byte :=
  Config.sha512 ([0x44, 0x58, 0x37, 0x2D, 0x4C, 0x43] ++ beBytes 8 d.otp.serial ++ beBytes 1 d.otp.lcRec.length ++ beBytes 1 cur ++ beBytes 1 target
    ++ nonce ++ pub)

/-- The keys of which one must sign. -/
def lcKeys (who : Nat) (d : Dev) : List (List Byte) :=
  let own := match boundSlot d with | some _ => [ownerKey d] | none => []
  let ranern := (d.otp.fwKeys.zipIdx.filter (fun k => keyGood k.2 d)).map (fun k => k.1)
  match who with
  | 1 => own
  | 2 => ranern
  | _ => own ++ ranern

/-- Step 2 of R518: the OTP fields, the record entry, and the seed's destruction on entry to RETIRED. -/
def lcWrite (cur target : Nat) (pub : List Byte) (d : Dev) : Dev :=
  updOtp (fun o => { o with
    owners := if target = 2 then o.owners ++ [(pub, true, false)]
      else if 2 ≤ cur ∧ (target = 1 ∨ target = 4) then o.owners.map (fun w => if w.2.1 then (w.1, true, true) else w) else o.owners
    lcRec := o.lcRec ++ [target]
    identSeed := if target = 4 then List.replicate 32 0xFF else o.identSeed }) d

/-- TRANSITION, its nonce consumed whatever the outcome. -/
def lcTransition (p : List Byte) (d : Dev) : EdRes :=
  let target := numIn p 0 1
  let pub := (p.drop 1).take 32
  let sig := p.drop 33
  let cur := lcState d
  let used := d.otp.lcRec.length
  let d1 := updSec (fun s => { s with nonce := none }) d
  let any := fun l : List Byte => l.any (fun b => b != 0)
  match lcAuth cur target with
  | none => lcRefuse 3 2 d1
  | some who =>
    if (target ≠ 2 ∧ any pub = true) ∨ (who = 0 ∧ any sig = true) then lcRefuse 3 2 d1
    else if 16 ≤ used ∨ (used = 15 ∧ target ≠ 4) then lcRefuse 3 5 d1
    else if target = 2 ∧ 8 ≤ d.otp.owners.length then lcRefuse 3 6 d1
    else if who = 0 then lcOk 3 [] 2 (lcWrite cur target pub d1)
    else
      match d.sec.nonce with
      | none => lcRefuse 3 4 d1
      | some n =>
        if (lcKeys who d).any (fun k => Config.ed25519Verify k (lcDigest cur target n pub d) sig) then lcOk 3 [] 2 (lcWrite cur target pub d1)
        else lcRefuse 3 3 (d1 |> bump Reg.SEC_AUTH_FAIL_CNT 0 |> raise Ev.AUTH_FAIL 0)

/-- RB_COMMIT (R508). -/
def rbCommit (d : Dev) : EdRes :=
  if rd Reg.DEV_FALLBACK 0 d = 1 then lcRefuse 4 8 d
  else if rd Reg.DEV_BANK 0 d ≠ d.boot.pref then lcRefuse 4 2 d
  else
    let rb := max d.otp.fwRb (rd Reg.SEC_RUN_RB 0 d)
    let key := max d.otp.keyRb (rd Reg.SEC_RUN_KEY 0 d)
    lcOk 4 (beBytes 1 rb ++ beBytes 1 key) 0
      (d |> updOtp (fun o => { o with fwRb := rb, keyRb := key })
         |> onlyIf (decide (d.otp.fwRb < rb ∨ d.otp.keyRb < key)) (raise Ev.RB_ADVANCED 0))

/-- A LIFECYCLE command; the payload begins with SUBOP. -/
def lifecycle (p : List Byte) (d : Dev) : EdRes :=
  match p with
  | [] => edStat stBadLength d
  | b :: rest =>
    match b.toNat with
    | 1 => lcAt 1 0 rest lcStateOp d
    | 2 => lcAt 2 0 rest lcNonce d
    | 3 =>
      -- a TRANSITION consumes the nonce whatever its outcome (R516)
      if ready d = false ∨ d.mg.mpHalted = true then lcRefuse 3 1 (updSec (fun s => { s with nonce := none }) d)
      else lcAt 3 97 rest (lcTransition rest) d
    | 4 => lcAt 4 0 rest rbCommit d
    | _ => if ready d then edStat stBadOpcode d else edStat stDenied d

/-- R517: LIFECYCLE STATE. -/
def execLifecycleState (path : Path) (tag : Nat) (payload : List Byte) (s : State) : Out :=
  onDev (edCommand 0x0C path tag (1 :: payload) (lifecycle (1 :: payload))) s

/-- R516: LIFECYCLE NONCE. -/
def execLifecycleNonce (path : Path) (tag : Nat) (payload : List Byte) (s : State) : Out :=
  onDev (edCommand 0x0C path tag (2 :: payload) (lifecycle (2 :: payload))) s

/-- R516: 60 s after it was drawn the nonce expires. -/
def execNonceExpire (s : State) : Out := onDev (updSec (fun x => { x with nonce := none })) s

/-- R518: LIFECYCLE TRANSITION. -/
def execLifecycleTransition (path : Path) (tag : Nat) (payload : List Byte) (s : State) : Out :=
  onDev (edCommand 0x0C path tag (3 :: payload) (lifecycle (3 :: payload))) s

/-- R508: LIFECYCLE RB_COMMIT. -/
def execRbCommit (path : Path) (tag : Nat) (payload : List Byte) (s : State) : Out :=
  onDev (edCommand 0x0C path tag (4 :: payload) (lifecycle (4 :: payload))) s

/-! ## SPDM (R511 to R513) -/

/-- The transport endpoint is there: 0 DOE of the management function, 1 to 16 DOE of the function of VH 0 to 15, 17 MCTP over PCIe VDM once its
endpoint ID is assigned, 18 MCTP over I3C (R512). -/
def endpointUp (ep : Nat) (d : Dev) : Bool :=
  match ep with
  | 17 => (smFind d.sec.eids 17).isSome
  | 18 => i3cUp d
  | _ => decide (ep ≤ 16) && (ep == 0 || rd Reg.FUN_PRESENT (ep - 1) d == 1)

/-- SPDM is served (R511). -/
def spdmServed (d : Dev) : Bool := ready d && decide (1 ≤ lcState d ∧ lcState d ≤ 3)

/-- An SPDM response: endpoint, response code, two parameters, body (DMTF DSP0274 1.3, log entry 78). -/
def spdmSend (ep code p1 p2 : Nat) (body : List Byte) (d : Dev) : Dev := emit .spdm [ep, code, p1, p2] body d

/-- ERROR with a code: 1 InvalidRequest, 4 UnexpectedRequest, 5 Unspecified, 7 UnsupportedRequest. -/
def spdmError (ep err : Nat) (d : Dev) : Dev := d |> bump Reg.SEC_SPDM_ERR 0 |> spdmSend ep 0x7F err 0 []

/-- The negotiated state of an endpoint: 0 none, 1 version, 2 capabilities, 3 algorithms. -/
def spdmState (ep : Nat) (d : Dev) : Nat := smGet (fun _ => 0) d.sec.spdm ep

/-- Gives an endpoint its negotiated state. -/
def setSpdm (ep n : Nat) (d : Dev) : Dev := updSec (fun s => { s with spdm := smSet (fun _ => 0) s.spdm ep n }) d

/-- A request is counted, and answered where it may be served and negotiation has come far enough. -/
def spdmReq (ep need : Nat) (act : Dev → Dev) (d : Dev) : Dev :=
  if endpointUp ep d then
    let d1 := bump Reg.SEC_SPDM_REQ 0 d
    if spdmServed d = false then spdmError ep 5 d1
    else if spdmState ep d < need then spdmError ep 4 d1
    else act d1
  else d

/-- Certificate slot 0: length, root hash and the certificates of OTP (R510, R511). -/
def certChain (d : Dev) : List Byte := leBytes 2 (68 + d.otp.certs.length) ++ leBytes 2 0 ++ d.otp.rootHash ++ d.otp.certs

/-- R511: GET_VERSION: 1.3. -/
def execSpdmGetVersion (ep : Nat) (s : State) : Out :=
  onDev (spdmReq ep 0 (fun d => d |> setSpdm ep 1 |> spdmSend ep 0x04 0 0 [0, 1, 0x00, 0x13])) s

/-- R511: GET_CAPABILITIES: CERT_CAP, CHAL_CAP, MEAS_CAP 10b and CTExponent 14; the two message sizes are not stated, free values. -/
def execSpdmGetCapabilities (ep : Nat) (s : State) : Out :=
  onDev (spdmReq ep 1 (fun d => d |> setSpdm ep 2
    |> spdmSend ep 0x61 0 0 ([0, 14, 0, 0] ++ leBytes 4 0x16 ++ leBytes 4 (free 32 d) ++ leBytes 4 (free 32 (takeFree d)))
    |> takeFree |> takeFree)) s

/-- R511: NEGOTIATE_ALGORITHMS: EdDSA Ed25519, SHA-512, DMTF measurements with SHA-512. -/
def execSpdmNegotiateAlgorithms (ep : Nat) (s : State) : Out :=
  onDev (spdmReq ep 2 (fun d => d |> setSpdm ep 3
    |> spdmSend ep 0x63 0 0 (leBytes 2 36 ++ [1, 0] ++ leBytes 4 8 ++ leBytes 4 0x400 ++ leBytes 4 4 ++ List.replicate 16 0))) s

/-- R511: GET_DIGESTS: slot 0. -/
def execSpdmGetDigests (ep : Nat) (s : State) : Out :=
  onDev (spdmReq ep 3 (fun d => spdmSend ep 0x01 0 1 (Config.sha512 (certChain d)) d)) s

/-- R511: GET_CERTIFICATE: part of slot 0; another slot or an offset beyond the chain is an invalid request. -/
def execSpdmGetCertificate (ep slot offset length : Nat) (s : State) : Out :=
  onDev (spdmReq ep 3 (fun d =>
    let c := certChain d
    if slot ≠ 0 ∨ c.length ≤ offset then spdmError ep 1 d
    else
      let part := (c.drop offset).take length
      spdmSend ep 0x02 0 0 (leBytes 2 part.length ++ leBytes 2 (c.length - offset - part.length) ++ part) d)) s

/-- A signature under the identity key, of the transcript digest of SPDM, which is a free value (R509, R511, log entry 78). -/
def spdmSign (d : Dev) : List Byte := Config.ed25519Sign d.otp.identSeed ((List.range 64).map (Config.freeByte d.freeCtr))

/-- The value of a measurement block: DMTF value type, 128 more for raw, and the bytes (R513). -/
def measurement (k : Nat) (d : Dev) : Nat × List Byte :=
  let zero := List.replicate 64 (0 : Byte)
  match k with
  | 1 => (0x00, Config.romDigest)
  | 2 => (0x01, (List.range 16).flatMap (fun i => leBytes 4 (rdI Reg.SEC_RUN_DIGEST 0 i d)))
  | 3 => (0x86, beBytes 8 (rd2 Reg.SEC_RUN_VERSION_LO Reg.SEC_RUN_VERSION_HI 0 0 d) ++ beBytes 1 (rd Reg.DEV_BANK 0 d))
  | 4 => (0x87, beBytes 1 (rd Reg.SEC_RUN_RB 0 d) ++ beBytes 1 d.otp.fwRb ++ beBytes 1 (rd Reg.SEC_RUN_KEY 0 d) ++ beBytes 1 d.otp.keyRb)
  | 5 => (0x82, beBytes 2 0x7144 ++ beBytes 1 (stepCode d) ++ beBytes 1 (rd Reg.DEV_BL_MAX 0 d) ++ beBytes 1 (rd Reg.DEV_BEHAVIOUR_LEVEL 0 d)
            ++ beBytes 1 (lcState d) ++ beBytes 1 d.otp.lcRec.length ++ beBytes 1 (match boundSlot d with | some n => n | none => 0xFF))
  | 6 => (0x03, match tableBytes d with | some b => Config.sha512 b | none => zero)
  | _ => (0x03, match d.boot.applied with | some b => Config.sha512 b | none => zero)

/-- A measurement block as it is sent. -/
def measBlock (d : Dev) (k : Nat) : List Byte :=
  let m := measurement k d
  [BitVec.ofNat 8 k, 1] ++ leBytes 2 (m.2.length + 3) ++ [BitVec.ofNat 8 m.1] ++ leBytes 2 m.2.length ++ m.2

/-- R511: CHALLENGE, signed with the identity key. `summary`: 0 none, 1 the immutable ROM, 255 every measurement; `context` is echoed. -/
def execSpdmChallenge (ep slot summary : Nat) (context : List Byte) (s : State) : Out :=
  onDev (spdmReq ep 3 (fun d =>
    if slot ≠ 0 then spdmError ep 1 d
    else
      let sum := match summary with
        | 0 => []
        | 1 => Config.sha512 (measBlock d 1)
        | _ => Config.sha512 ((List.range 7).flatMap (fun k => measBlock d (k + 1)))
      d |> spdmSend ep 0x03 0 1 (Config.sha512 (certChain d) ++ freshNonce d ++ sum ++ leBytes 2 0 ++ context ++ spdmSign (takeFree d))
        |> takeFree |> takeFree)) s

/-- R513: GET_MEASUREMENTS. `op`: 0 how many there are, 255 all, else one block; `signed`: a signature is asked for. -/
def execSpdmGetMeasurements (ep op : Nat) (signed : Bool) (context : List Byte) (s : State) : Out :=
  onDev (spdmReq ep 3 (fun d =>
    if 7 < op ∧ op ≠ 255 then spdmError ep 1 d
    else
      let ks := if op = 0 then [] else if op = 255 then (List.range 7).map (· + 1) else [op]
      let recs := ks.flatMap (measBlock d)
      d |> spdmSend ep 0x60 (if op = 0 then 7 else 0) 0 (leBytes 1 ks.length ++ leBytes 3 recs.length ++ recs ++ freshNonce d ++ leBytes 2 0 ++ context
            ++ (if signed then spdmSign (takeFree d) else []))
        |> takeFree |> takeFree)) s

/-- R511: any other request is answered with UnsupportedRequest. -/
def execSpdmOtherRequest (ep code : Nat) (s : State) : Out :=
  onDev (onlyIf (!([0x84, 0xE1, 0xE3, 0x81, 0x82, 0x83, 0xE0].contains code)) (spdmReq ep 0 (spdmError ep 7))) s

/-! ## MCTP control (R512) and DOE Discovery (R425) -/

/-- The MCTP transports: over PCIe VDM and over I3C. -/
def mctpUp (ep : Nat) (d : Dev) : Bool := (ep == 17 || (ep == 18 && i3cUp d)) && ready d

/-- An MCTP control response: endpoint, command, completion code, fields (DMTF DSP0236, log entry 79). -/
def mctpSend (ep cmd cc : Nat) (fields : List Nat) (d : Dev) : Dev := emit .mctp ([ep, cmd, cc] ++ fields) [] d

/-- R512: Set Endpoint ID. `op`: 0 set, 1 force; an EID of 0 or 255, or another operation, is invalid data. -/
def execSetEndpointId (ep op eid : Nat) (s : State) : Out :=
  onDev (fun d =>
    if mctpUp ep d then
      if 1 < op ∨ eid = 0 ∨ 255 ≤ eid then mctpSend ep 1 2 [] d
      else d |> updSec (fun x => { x with eids := smPut x.eids ep eid }) |> mctpSend ep 1 0 [0, eid, 0]
    else d) s

/-- R512: Get Endpoint ID; 0 while none is assigned. -/
def execGetEndpointId (ep : Nat) (s : State) : Out :=
  onDev (fun d => onlyIf (mctpUp ep d) (mctpSend ep 2 0 [(smFind d.sec.eids ep).getD 0]) d) s

/-- R512: Get MCTP Version Support for message types 0 and 5 and the base, 255; which versions the spec does not say, a free value. -/
def execGetMctpVersionSupport (ep type : Nat) (s : State) : Out :=
  onDev (fun d =>
    if mctpUp ep d then
      if type = 0 ∨ type = 5 ∨ type = 255 then d |> mctpSend ep 4 0 [type, free 32 d] |> takeFree else mctpSend ep 4 0x80 [type] d
    else d) s

/-- R512: Get Message Type Support: types 0 and 5. -/
def execGetMessageTypeSupport (ep : Nat) (s : State) : Out := onDev (fun d => onlyIf (mctpUp ep d) (mctpSend ep 5 0 [0, 5]) d) s

/-- R425: a DOE Discovery object: index 0 is DOE Discovery, index 1 SPDM, of vendor 0x0001; `vh` 256 is the management function. Another index
names no protocol (PCI Express, log entry 79). -/
def execDoeDiscovery (vh index : Nat) (s : State) : Out :=
  onDev (fun d =>
    if ready d && (vh == 256 || (decide (vh < 16) && rd Reg.FUN_PRESENT vh d == 1)) then
      match index with
      | 0 => emit .doe [vh, 0x0001, 0, 1] [] d
      | 1 => emit .doe [vh, 0x0001, 1, 0] [] d
      | _ => emit .doe [vh, 0xFFFF, 0xFF, 0] [] d
    else d) s

end Sys2Proof.Machine
end

