-- ==== Sys2Proof/Machine/Faults.lean ====
section
/-!
DEFINITION. Faults and their reach (R522 to R527), the trouble log's registers and reads (R529 to R531, R539) and the aging monitors (R532,
R533).
-/

namespace Sys2Proof.Machine

/-! ## Words in error (R522 to R525) -/

/-- An uncorrectable word of main-die SRAM (R539). -/
def sramBad (d : Dev) : Dev := bump Reg.LOG_SRAM_UNCORR 0 d

/-- DEVICE_FAULT is logged and delivered over I3C EVENTS, whether or not the bit is enabled (R542). -/
def raiseFault (kind : Nat) (d : Dev) : Dev :=
  let x := raiseDet Ev.DEVICE_FAULT 0 (BitVec.ofNat 32 kind) 0 d
  if x.mg.events.contains ⟨0x0024, 0⟩ then x
  else { x with mg := { x.mg with events := x.mg.events ++ [⟨0x0024, 0⟩] } } |> raiseIbi

/-- The management processor restarts from the running bank (R527): what it served is answered BUSY. The fourth restart within 10 s is
treated as a device fault without the transmitter stop. -/
def mpRestart (d : Dev) : Dev :=
  if d.boot.bankUp = false ∨ d.mg.mpHalted = true then d
  else
    let cut := d.mg.running
    let times := (d.mg.mpRestarts.filter (fun t => decide (d.th.localNs < t + 10000000000))) ++ [d.th.localNs]
    let d1 := { d with mg := { d.mg with running := [], mpRestarts := times, remotes := d.mg.remotes.filter (fun r => !r.edurn) } }
      |> bump Reg.LOG_MP_RESTARTS 0 |> raise Ev.MP_RESTART 0
      |> forEach cut (fun r => edAnswer r.1 r.2.2 r.2.1 stBusy [] 0)
    if 4 ≤ times.length then
      { d1 with mg := { d1.mg with mpHalted := true } } |> wr Reg.DEV_STATE 0 8 |> raiseFault 0
    else d1

/-- A queue pair whose context reads with an uncorrectable error (R292). -/
def ctxBad (n : Nat) (d : Dev) : Dev :=
  d |> updEng (fun e =>
      { e with
        fetches := e.fetches.filter (fun x => x != n), pinWait := e.pinWait.filter (fun x => x != n), parked := e.parked.filter (fun x => x.qpn != n), path := e.path.drop (fun x => x == n) })
    |> countLagoon |> enterError n (Ending.plain 0) |> sliceEvent (numSlice n d) RingEv.CTX_FETCH_ERR n 0

/-- A table entry is found in error: restored from its shadow, unless that is bad as well or its memory stack is not ON (R222, R522). -/
def shadowGood (bad : Bool) (d : Dev) : Bool := !bad && stacksOn d

/-- A routing table entry with a parity error (R222): a flowlet is invalidated; the others are restored or read invalid. -/
def routingBad (isl t set idx : Nat) (bad : Bool) (d : Dev) : Dev :=
  if 20 ≤ isl ∨ domOn (domainOf 0x10 isl) d = false then d
  else
    if t = 5 then putFlowlet isl idx { flowletOf isl idx d with valid := false } d
    else if shadowGood bad d then bump Reg.RTE_TBL_PARITY isl d
    else d |> tblPut isl t set idx 0 |> raise Ev.RTE_TABLE_ERR isl

/-- A meter entry with a parity error (R211): restored, or disabled, its packets keeping their colour. -/
def meterBad (isl m : Nat) (bad : Bool) (d : Dev) : Dev :=
  if shadowGood bad d then bump Reg.RTE_TBL_PARITY isl d
  else
    let x := meterOf m d
    d |> putMeter m { x with w0 := clrBit (setBit x.w0 28) 23 } |> raise Ev.MTR_TABLE_ERR (m / 4096)

/-- A message map entry with a parity error (R321): restored, or it reads invalid. -/
def mapBad (isl i : Nat) (bad : Bool) (d : Dev) : Dev :=
  if shadowGood bad d then bump Reg.RTE_TBL_PARITY isl d else d |> putMap i (List.replicate 6 0) |> raise Ev.MAP_TABLE_ERR 0

/-- The QP whose context or response record lies at an offset of the context area (R289). -/
def qpAt (o : Nat) (d : Dev) : Option Nat :=
  match (List.range 4096).find? (fun r =>
      let e := rangeOf r d
      bitOf e.1 16 && !bitOf e.1 17 && decide (e.2 ≤ o ∧ o < e.2 + 0x300000)) with
  | some r =>
    let k := o - (rangeOf r d).2
    some (4096 * r + (if k < 0x100000 then k / 256 else (k - 0x100000) / 512))
  | none => none

/-- A region entry that reads with an uncorrectable error is invalid (R306). -/
def regionBad (i : Nat) (d : Dev) : Dev :=
  d |> putRegion i { regionOf i d with valid := false } |> countRegions (xltFree d) |> raise Ev.MRG_ENTRY_ERR 0

/-- What an uncorrectable word of package memory does to the user of its area (R524). -/
def areaBad (o : Nat) (user : Option Nat) (d : Dev) : Dev :=
  if inArea 0 o 1 d then
    (match qpAt o d with
     | some n => if (qpOf n d).isNone then d else d |> bump Reg.QPC_FETCH_ERR 0 |> ctxBad n
     | none => d)
  else if inArea 5 o 1 d then updEng (fun e => { e with badMem := o / 8 :: e.badMem.filter (fun a => a != o / 8) }) d
  else match user with
    | some u =>
      if inArea 1 o 1 d then regionBad u d
      else if inArea 2 o 1 d then failCtx (u / 4096) (u % 4096) d
      else d
    | none => d

/-- An uncorrectable word of package memory (R20, R524, R541): its place is recorded and raised with the package memory address. -/
def packageBad (o : Nat) (user : Option Nat) (d : Dev) : Dev :=
  if o < memSize then
    let m := (o / 256) % 2
    let place := o / 512 * 256 + o % 256
    d |> wr2 Reg.PKM_UNCORR_ADDR_LO Reg.PKM_UNCORR_ADDR_HI m 0 place |> bump Reg.PKM_UNCORR_CNT m
      |> raiseDet Ev.PKM_ECC_UNCORR m (BitVec.ofNat 32 (o % 2 ^ 32)) (BitVec.ofNat 32 (o / 2 ^ 32)) |> areaBad o user
  else d

/-- The trouble log entry of a SEQ reads CORRUPT (R522, R530). -/
def entryBad (seq : Nat) (d : Dev) : Dev :=
  { d with log := { d.log with entries := d.log.entries.map (fun e => if e.seq = seq then { e with corrupt := true } else e) } }

/-- The n-th of a domain's held writes is dropped (R522). -/
def heldBad (dom n : Nat) (d : Dev) : Dev :=
  match (d.mg.held.filter (fun h => h.dom == dom))[n]? with
  | some h => { d with mg := { d.mg with held := d.mg.held.erase h } } |> dropWrite |> raise Ev.AON_ECC_UNCORR 0
  | none => d

/-- The value that a field of a word in error takes, from the free value of its word; BEHAVIOUR_LEVEL takes a level that exists (R3). -/
def badValue (f : Fld) (d : Dev) : Nat :=
  if f = Reg.DEV_BEHAVIOUR_LEVEL then 1 + bitsOf (free 32 d) f.lo f.wd % rd Reg.DEV_BL_MAX 0 d else bitsOf (free 32 d) f.lo f.wd

/-- A word of an AON page that cannot be corrected: the spec names no value its fields take, so they are free (log entry 81). -/
def aonBad (a : Nat) (d : Dev) : Dev :=
  let ty := addrType a
  if a < 2 ^ 26 ∧ domainOf ty (addrInst a) = 64 then
    let fs := (fieldsOf ty).filter (fun f => (fldIdx f (addrOff a)).isSome && !(f.acc == .ro))
    d |> setWord a (fs.foldl (fun w f => setBits w f.lo f.wd (badValue f d)) (wordAt a d)) |> takeFree
      |> raise Ev.AON_ECC_UNCORR 0
  else d

/-- A single-bit error was corrected and counted (R522). -/
def wordCorrected (w : EccSite) (d : Dev) : Dev :=
  match w with
  | .harbour seg _ _ => onlyIf (domOn (24 + seg) d) (bump Reg.HBR_ECC_CORR seg) d
  | .strait s _ _ => onlyIf (domOn (18 + s) d) (bump Reg.STR_ECC_CORR s) d
  | .context _ => bump Reg.QPC_CTX_ECC_CORR 0 d
  | .matching k _ => onlyIf (domOn (48 + k) d) (bump Reg.MTE_ECC_CORR k) d
  | .accumulator g => onlyIf (domOn (52 + unitOf g) d) (bump Reg.CLE_ECC_CORR (unitOf g)) d
  | .translation => onlyIf (domOn 60 d) (bump Reg.MRG_ECC_CORR 0) d
  | .replay p => onlyIf (domOn (p / 8) d) (bump Reg.LOG_SRAM_CORR 0) d
  | .processor => bump Reg.LOG_SRAM_CORR 0 d
  | .logEntry _ | .heldWrite _ _ | .aonPage _ | .bank _ _ | .mramCopy _ => bump Reg.LOG_AON_CORR 0 d
  | .package o _ => onlyIf (domOn (56 + (o / 256) % 2) d) (bump Reg.PKM_CORR_CNT ((o / 256) % 2)) d
  | .stackLink m => onlyIf (decide (m < 2) && domOn (56 + m) d) (bump Reg.PKM_LINK_RETRY m) d
  | .patrolPass m => onlyIf (decide (m < 2) && domOn (56 + m) d) (bump Reg.PKM_SCRUB_PASS m) d
  | .routing .. | .meter .. | .map .. | .function _ => d

/-- An uncorrectable word, or a table entry with a parity error: its reach is its memory's row of R522. -/
def wordBad (w : EccSite) (d : Dev) : Dev :=
  match w with
  | .harbour seg cell pkt => onlyIf (domOn (24 + seg) d) (harbourUncorrRead seg cell pkt) d
  | .strait s isl data => straitFaultDetect s (if data then 3 else 2) isl d
  | .context n => onlyIf (d.eng.cached.contains n) (fun d => d |> sramBad |> ctxBad n |> raise Ev.CTX_ECC_UNCORR 0) d
  | .matching k i => onlyIf (domOn (48 + k) d) (fun d => d |> sramBad |> failCtx k i) d
  | .routing isl t set idx bad => routingBad isl t set idx bad d
  | .meter isl m bad => meterBad isl m bad d
  | .map isl i bad => onlyIf (domOn (domainOf 0x16 0) d) (mapBad isl i bad) d
  | .replay p => onlyIf (domOn (p / 8) d) (fun d => d |> sramBad |> onlyIf (portUp p d) (protocolError p)) d
  | .accumulator g => onlyIf (domOn (52 + unitOf g) d) (collEcc g) d
  | .translation => onlyIf (domOn 60 d) sramBad d
  | .processor => d |> sramBad |> mpRestart
  | .logEntry q => d |> entryBad q |> raise Ev.AON_ECC_UNCORR 0
  | .heldWrite dom n => heldBad dom n d
  | .aonPage a => aonBad a d
  | .bank b o =>
    if b = 0 then { d with boot := { d.boot with badA := if d.boot.badA.contains o then d.boot.badA else o :: d.boot.badA } }
    else { d with boot := { d.boot with badB := if d.boot.badB.contains o then d.boot.badB else o :: d.boot.badB } }
  | .mramCopy c => { d with boot := { d.boot with badCopies := if d.boot.badCopies.contains c then d.boot.badCopies else c :: d.boot.badCopies } }
  | .package o user => onlyIf (domOn (56 + (o / 256) % 2) d) (packageBad o user) d
  | .function v => onlyIf (decide (v < 16)) (aerSet v 22) d
  | .stackLink _ | .patrolPass _ => d

/-- R523: the patrol scrub, or a check at use, finds a word in error. -/
def execPatrolScrub (word : EccSite) (corrected : Bool) (s : State) : Out :=
  onAll (if corrected then wordCorrected word else wordBad word) s

/-! ## The worst faults (R526, R527, R557) -/

/-- Every transmitter stops and no port is UP any more (R526 step 1). -/
def stopTransmitters (d : Dev) : Dev :=
  forEach ((List.range 144).filter (fun p => portStarts p d))
    (fun p d => d |> emit .portTx [p, 2] [] |> lanesOff p |> wr Reg.LNK_LSTATE p 0 |> setPortUp p false) d

/-- A device fault: 1 loss of the main clock, 2 of harbour control, 3 a thermal fault (R526, R557). -/
def deviceFault (kind : Nat) (d : Dev) : Dev :=
  if d.fd.rails = false ∨ d.boot.fault ≠ 0 then d
  else
    { d with boot := { d.boot with fault := kind, running := 0 } }
      |> stopTransmitters |> raiseFault kind |> wr Reg.DEV_STATE 0 8

/-- R526: AON detects the loss of the main clock, or of harbour control. -/
def execDeviceFaultDetect (clock : Bool) (s : State) : Out := onDev (deviceFault (if clock then 1 else 2)) s

/-- R527: the watchdog misses the management processor, or a word of its memories is uncorrectable. -/
def execMpWatchdogMiss (uncorr : Bool) (s : State) : Out := onAll (fun d => d |> onlyIf uncorr sramBad |> mpRestart) s

/-! ## The trouble log (R530, R531, R539) -/

/-- The bytes of an entry (R530). -/
def entryBytes (e : LogEntry) : List Byte :=
  leBytes 8 e.ftime ++ leBytes 8 e.ltime ++ leBytes 2 e.code
    ++ leBytes 1 (bnat e.tsLocal + 2 * bnat e.injected + 4 * bnat e.corrupt + 8 * bnat e.warm + 16 * bnat e.cfg)
    ++ leBytes 1 e.inst ++ leBytes 2 e.seq ++ leBytes 2 e.suppressed ++ leBytes 4 e.detail0.toNat ++ leBytes 4 e.detail1.toNat

/-- LOG_CLR: the log is empty; SEQ goes on. -/
def logClear (d : Dev) : Dev := { d with log := { d.log with entries := [], stopRaised := false } }

/-- R539: LOG_CLR. -/
def execLogClr (s : State) : Out := onAll (trigger 0x05 0 0x108 1 (fun _ => logClear)) s

/-- RD_GO: the entry of RD_SEQ goes to LOG_DATA where it is retained. -/
def logCopy (d : Dev) : Dev :=
  match d.log.entries.find? (fun e => e.seq == rd Reg.LOG_RD_SEQ 0 d) with
  | some e => d |> wrBytes Reg.LOG_DATA 8 (entryBytes e) |> wr Reg.LOG_RD_VALID 0 1
  | none => wr Reg.LOG_RD_VALID 0 0 d

/-- R531: RD_GO. -/
def execRdGo (s : State) : Out := onAll (trigger 0x05 0 0x114 0 (fun _ => logCopy)) s

/-- Drops the entries that do not lie at or after a start SEQ (R531). -/
def entriesFrom (start : Nat) (l : List LogEntry) : List LogEntry := l.dropWhile (fun e => decide (32768 ≤ (e.seq + 65536 - start % 65536) % 65536))

/-- LOG_READ over Edurn: FIRST_SEQ, N and N entries. -/
def logRead (p : List Byte) (d : Dev) : EdRes :=
  let start := numIn p 0 2
  let n := numIn p 2 1
  if p.length ≠ 3 ∨ n < 1 ∨ 31 < n then edStat stBadLength d
  else
    let es := (entriesFrom start d.log.entries).take n
    edOk (beBytes 2 (match es.head? with | some e => e.seq | none => start) ++ beBytes 1 es.length ++ es.flatMap entryBytes) d

/-! ## Aging (R532, R533) -/

/-- A quotient; where it is not exact the spec states no rounding, and one of the two neighbours is free (log entry 82). -/
def quotient (a b : Nat) (d : Dev) : Nat × Dev := if a % b = 0 then (a / b, d) else (a / b + free 1 d, takeFree d)

/-- Puts a number into a rising list. -/
def insertUp (n : Nat) : List Nat → List Nat
  | [] => [n]
  | m :: ms => if n ≤ m then n :: m :: ms else m :: insertUp n ms

/-- The median; of an even number of values, the mean of the two in the middle. -/
def median (l : List Nat) (d : Dev) : Nat × Dev :=
  let s := l.foldr insertUp []
  let n := s.length
  if n % 2 = 1 then (s.getD (n / 2) 0, d) else quotient (s.getD (n / 2 - 1) 0 + s.getD (n / 2) 0) 2 d

/-- The margins of an island's lanes that are measured: UP, in an SFL or ETH island, with no eye scan running (R532). -/
def islandMargins (i : Nat) (margins : List (Nat × Nat)) (d : Dev) : List Nat :=
  if pers i d = 2 ∨ pers i d = 3 then
    (margins.filter (fun m => m.1 / 9 == i && rd Reg.LANE_BSTATE m.1 d == 7 && rd Reg.LANE_EYE_BUSY m.1 d == 0)).map (fun m => m.2 % 255)
  else []

/-- Gives the aging monitor of an island its state. -/
def putAge (i : Nat) (a : AgeIsland) (d : Dev) : Dev :=
  { d with log := { d.log with aging := smSet (fun _ => AgeIsland.init) d.log.aging i a } }

/-- The hourly measurement of an island whose domain is ON. -/
def ageMeasure (i ppm : Nat) (margins : List (Nat × Nat)) (d : Dev) : Dev :=
  if domOn (domainOf 0x09 i) d then
    let a := ageOf i d
    let ms := if i < 18 then islandMargins i margins d else []
    let (m, d1) := if ms = [] then (0xFF, d) else median ms d
    d1 |> putAge i { a with roPpm := ppm, margin := m, samples := a.samples ++ [⟨ppm, m⟩] }
      |> onlyIf (decide (m < rd Reg.LOG_MARGIN_WARN 0 d) && !bitOf d.log.marginRaised i) (fun d =>
          { d with log := { d.log with marginRaised := setBit d.log.marginRaised i } } |> raise Ev.MARGIN_WARN 0)
  else d

/-- AGING_WARN rises once, where the consumed life reaches AGE_WARN. -/
def agingAlarm (q : Nat) (d : Dev) : Dev :=
  onlyIf (decide (rd Reg.LOG_AGE_WARN 0 d ≤ q) && !d.log.ageRaised)
    (fun d => { d with log := { d.log with ageRaised := true } } |> raise Ev.AGING_WARN 0) d

/-- The largest ageing of an island's ring oscillators, in ppm. -/
def worstPpm (d : Dev) : Nat := (List.range 20).foldl (fun m i => max m (ageOf i d).roPpm) 0

/-- LIFE_PPM follows, and AGING_WARN (R533). -/
def lifeUpdate (d : Dev) : Dev :=
  if rd Reg.LOG_AGE_EOL_PPM 0 d = 0 then d
  else
    let r := quotient (worstPpm d * 1000000) (rd Reg.LOG_AGE_EOL_PPM 0 d) d
    r.2 |> wrFit Reg.LOG_LIFE_PPM 0 r.1 |> agingAlarm r.1

/-- R532: the hourly measurement: AGE_RO_PPM by island, and the margins of lanes. -/
def execAgingMeasure (roPpm : List Nat) (margins : List (Nat × Nat)) (s : State) : Out :=
  onAll (fun d => d |> forEach (List.range 20) (fun i => ageMeasure i (roPpm.getD i 0 % 2 ^ 32) margins) |> lifeUpdate) s

/-- The period's mean and median enter an island's history, the newest first (R532). Hours without a margin do not count. -/
def trendPeriod (i : Nat) (d : Dev) : Dev :=
  let a := ageOf i d
  if a.samples = [] then d
  else
    let ms := (a.samples.map (fun x => x.margin)).filter (fun m => m != 0xFF)
    let (r, d1) := quotient ((a.samples.map (fun x => x.roPpm)).sum) a.samples.length d
    let (m, d2) := if ms = [] then (0xFF, d1) else median ms d1
    putAge i { a with samples := [], history := (⟨r, m⟩ :: a.history).take 32 } d2

/-- R532: TREND_DAYS pass. -/
def execAgingTrendPeriod (s : State) : Out := onAll (forEach (List.range 20) trendPeriod) s

end Sys2Proof.Machine
end

