-- ==== Sys2Proof/Machine/Check.lean ====
section
/-!
DEFINITION. The check-value unit (R534 to R538, R540): its jobs, the CRCs and the alive counters.
-/

namespace Sys2Proof.Machine

/-! ## The CRCs (R534) -/

/-- Width of a CRC in bits, by POLY. -/
def crcWidth (poly : Nat) : Nat := if poly = 2 then 64 else 32

/-- The polynomial, reflected. -/
def crcPoly (poly : Nat) : Nat :=
  match poly with
  | 0 => 0x82F63B78
  | 1 => 0xEDB88320
  | _ => 0x9A6C9329AC4BC9B5

/-- Initial value and final XOR: all ones. -/
def crcOnes (poly : Nat) : Nat := 2 ^ crcWidth poly - 1

/-- Shifts in the bits of a byte, already XORed into the register. -/
def crcShift (poly : Nat) : Nat → Nat → Nat
  | 0, c => c
  | k + 1, c => crcShift poly k (if c % 2 = 1 then Nat.xor (c / 2) (crcPoly poly) else c / 2)

/-- The CRC of bytes, continued from the result of an earlier job where one is given. -/
def crcFrom (poly : Nat) (seed : Option Nat) (bs : List Byte) : Nat :=
  let start := match seed with | some r => Nat.xor (r % 2 ^ crcWidth poly) (crcOnes poly) | none => crcOnes poly
  Nat.xor (bs.foldl (fun c b => crcShift poly 8 (Nat.xor c b.toNat)) start) (crcOnes poly)

/-! ## Jobs -/

/-- LEN of a job. -/
def jobLen (j : Nat) (d : Dev) : Nat := rd2 Reg.CHK_LEN_LO Reg.CHK_LEN_HI 0 j d

/-- ADDR of a job. -/
def jobAddr (j : Nat) (d : Dev) : Nat := rd2 Reg.CHK_ADDR_LO Reg.CHK_ADDR_HI 0 j d

/-- What a job holds beside its registers. -/
def jobOf (j : Nat) (d : Dev) : ChkJob := smGet (fun _ => ⟨none, 0⟩) d.chk j

/-- Gives a job what it holds. -/
def putJob (j : Nat) (x : ChkJob) (d : Dev) : Dev := { d with chk := smSet (fun _ => ⟨none, 0⟩) d.chk j x }

/-- A job is RUNNING (R536). -/
def jobRuns (j : Nat) (d : Dev) : Bool := decide (j < 16) && rdI Reg.CHK_STATE 0 j d == 1

/-- The alive fields of a job keep to R537. -/
def aliveOk (j : Nat) (d : Dev) : Bool :=
  let rec_ := rdI Reg.CHK_RECLEN 0 j d
  let ofs := rdI Reg.CHK_ALV_OFS 0 j d
  let mode := rdI Reg.CHK_ALV_MODE 0 j d
  mode == 0 || (decide (8 ≤ rec_ ∧ rec_ ≤ 65536 ∧ ofs % 2 = 0 ∧ ofs + 2 ≤ rec_) &&
    (if mode = 1 then jobLen j d % rec_ == 0 else mode == 2 && jobLen j d == rec_ && rdI Reg.CHK_WATCH_US 0 j d != 0))

/-- A GO is refused (R535). -/
def goBad (j : Nat) (d : Dev) : Bool :=
  jobRuns j d || decide (jobLen j d < 1 ∨ 2 ^ 40 < jobLen j d) || rdI Reg.CHK_POLY 0 j d == 3
    || (rdI Reg.CHK_SRC 0 j d == 1 && decide (memSize < jobAddr j d + jobLen j d))
    || (rdI Reg.CHK_SRC 0 j d == 0 && (uspPort (rdI Reg.CHK_VH 0 j d) d).isNone)
    || !aliveOk j d

/-- A job starts: its results are cleared (R535, R540). -/
def jobStart (j : Nat) (d : Dev) : Dev :=
  d |> putJob j ⟨none, 0⟩ |> wr2 Reg.CHK_RESULT_LO Reg.CHK_RESULT_HI 0 j 0 |> wr2 Reg.CHK_BYTES_LO Reg.CHK_BYTES_HI 0 j 0
    |> wrI Reg.CHK_JSTATUS 0 j 0 |> wrI Reg.CHK_REPEATS 0 j 0 |> wrI Reg.CHK_GAPS 0 j 0 |> wrI Reg.CHK_FIRST_FLAG 0 j 0xFFFFFFFF
    |> wrI Reg.CHK_MISSING 0 j 0 |> wrI Reg.CHK_STATE 0 j 1 |> wr Reg.CHK_JOBS_BUSY 0 (setBit (rd Reg.CHK_JOBS_BUSY 0 d) j)

/-- GO (R535). -/
def chkGo (j : Nat) (val : Word) (d : Dev) : Dev :=
  if goBad j d then cfgErr 0x06 0 (0x200 + 0x40 * j) Cfg.CFG_CHK_RANGE val d else jobStart j d

/-! ## Alive counters (R537) -/

/-- A flag: the first of a job records its index and raises CHK_ALIVE_FLAG. -/
def aliveFlag (j idx : Nat) (d : Dev) : Dev :=
  let first := rdI Reg.CHK_FIRST_FLAG 0 j d == 0xFFFFFFFF
  d |> bump Reg.CHK_ALV_FLAGS 0
    |> onlyIf first (fun d => d |> wrI Reg.CHK_FIRST_FLAG 0 j (idx % 2 ^ 32) |> raise Ev.CHK_ALIVE_FLAG 0)

/-- Compares the alive counter of a record or read with that of the one before it. -/
def aliveCompare (j new : Nat) (d : Dev) : Dev :=
  let x := jobOf j d
  let d1 := putJob j ⟨some new, x.count + 1⟩ d
  match x.last with
  | none => d1
  | some old =>
    let gap := (new + 65536 - old % 65536) % 65536
    if gap = 1 then d1
    else if gap = 0 ∨ 32769 ≤ gap then d1 |> addSat Reg.CHK_REPEATS 0 j 1 |> aliveFlag j x.count
    else d1 |> addSat Reg.CHK_GAPS 0 j 1 |> addSat Reg.CHK_MISSING 0 j (gap - 1) |> aliveFlag j x.count

/-- The alive counter of a record: two bytes at ALV_OFS. -/
def aliveAt (j : Nat) (rec_ : List Byte) (d : Dev) : Nat := ofLe ((rec_.drop (rdI Reg.CHK_ALV_OFS 0 j d)).take 2)

/-- The records of a range, in order; a last one that was not read whole is none. -/
def recordsOf (len : Nat) : Nat → List Byte → List (List Byte)
  | 0, _ => []
  | n + 1, bs => if bs.length < len ∨ len = 0 then [] else bs.take len :: recordsOf len n (bs.drop len)

/-! ## Reading -/

/-- The bytes a job read: from package memory, or those the host answered with. -/
def jobData (j n : Nat) (data : List Byte) (d : Dev) : List Byte :=
  if rdI Reg.CHK_SRC 0 j d = 1 then memReads (jobAddr j d) n d else data.take n

/-- The CRC of what was read stands in RESULT, its length in BYTES_DONE. -/
def putResult (j : Nat) (bs : List Byte) (d : Dev) : Dev :=
  let seed := if rdI Reg.CHK_CONT 0 j d = 1 then some (rd2 Reg.CHK_SEED_LO Reg.CHK_SEED_HI 0 j d) else none
  d |> wr2 Reg.CHK_RESULT_LO Reg.CHK_RESULT_HI 0 j (crcFrom (rdI Reg.CHK_POLY 0 j d) seed bs)
    |> wr2 Reg.CHK_BYTES_LO Reg.CHK_BYTES_HI 0 j bs.length
    |> addI Reg.CHK_BYTES_TOTAL 0 0 ((bs.length + 4095) / 4096)

/-- The first `n` bytes of a scan were read: CRC, and in sequence mode the alive counters. -/
def jobScan (j n : Nat) (data : List Byte) (d : Dev) : Dev :=
  let bs := jobData j n data d
  let recs := if rdI Reg.CHK_ALV_MODE 0 j d = 1 then recordsOf (rdI Reg.CHK_RECLEN 0 j d) n bs else []
  d |> forEach recs (fun r d => aliveCompare j (aliveAt j r d) d) |> putResult j bs

/-- The bytes that were read when a job ended: all of them where it completed, else those the command names. -/
def scanned (j ended n : Nat) (data : List Byte) (d : Dev) : Nat :=
  let m := if ended = 0 then jobLen j d else min n (jobLen j d)
  if rdI Reg.CHK_SRC 0 j d = 1 then m else min m data.length

/-- ABORT: a running job ends ABORTED; RESULT covers what was read. In watch mode RESULT stays that of the latest read (R536). -/
def chkAbort (j n : Nat) (data : List Byte) (d : Dev) : Dev :=
  if jobRuns j d then
    d |> onlyIf (rdI Reg.CHK_ALV_MODE 0 j d != 2) (jobScan j (scanned j 3 n data d) data) |> chkEnd j 4 3
  else d

/-- ABORT where the command does not say how far the scan had come: the length read is free (log entry 83). -/
def chkStop (j : Nat) (d : Dev) : Dev :=
  if jobRuns j d then
    d |> onlyIf (rdI Reg.CHK_ALV_MODE 0 j d != 2)
          (if rdI Reg.CHK_SRC 0 j d = 1 then fun d => jobScan j (free 41 d % (jobLen j d + 1)) [] (takeFree d) else chkCut j)
      |> chkEnd j 4 3
  else d

/-- How far a scan of package memory comes: up to the first word of the user area known to be uncorrectable (R524). -/
def scanReach (j : Nat) (d : Dev) : Option Nat :=
  if rdI Reg.CHK_SRC 0 j d = 1 then
    ((d.eng.badMem.filter (fun a => decide (jobAddr j d < 8 * a + 8 ∧ 8 * a < jobAddr j d + jobLen j d))).map
      (fun a => 8 * a - jobAddr j d)).min?
  else none

/-- A job ends: 0 every byte read, 1 a host read failed, 2 an uncorrectable package memory word (R536). -/
def jobEnds (j ended n : Nat) (data : List Byte) (d : Dev) : Dev :=
  if jobRuns j d = false ∨ 3 ≤ ended ∨ domOn 59 d = false then d
  else if ended = 0 then
    if rdI Reg.CHK_ALV_MODE 0 j d = 2 ∨ scanned j 0 n data d ≠ jobLen j d then d
    else if let some m := scanReach j d then d |> jobScan j m data |> chkEnd j 3 2
    else d |> jobScan j (jobLen j d) data |> chkEnd j 2 0
  else if ended = 1 ∧ rdI Reg.CHK_SRC 0 j d = 1 then d
  else if ended = 2 ∧ rdI Reg.CHK_SRC 0 j d = 0 then d
  else
    d |> onlyIf (rdI Reg.CHK_ALV_MODE 0 j d != 2) (jobScan j (scanned j ended n data d) data) |> chkEnd j 3 ended

/-- A watch job reads its record again (R537). -/
def watchRead (j : Nat) (data : List Byte) (d : Dev) : Dev :=
  if jobRuns j d ∧ rdI Reg.CHK_ALV_MODE 0 j d = 2 ∧ domOn 59 d ∧ scanned j 0 0 data d = jobLen j d then
    let bs := jobData j (jobLen j d) data d
    if (scanReach j d).isSome then chkEnd j 3 2 d
    else d |> aliveCompare j (aliveAt j bs d) |> putResult j bs
  else d

/-- R535: GO. -/
def execChkGo (job : Nat) (s : State) : Out :=
  onAll (onlyIf (decide (job < 16)) (trigger 0x06 0 (0x200 + 0x40 * job) 0 (chkGo job))) s

/-- R536: ABORT. -/
def execChkAbort (job bytes : Nat) (data : List Byte) (s : State) : Out :=
  onAll (onlyIf (decide (job < 16)) (trigger 0x06 0 (0x200 + 0x40 * job) 1 (fun _ => chkAbort job bytes data))) s

/-- R536: a job reads its last byte, or fails. -/
def execChkJobComplete (job ended bytes : Nat) (data : List Byte) (s : State) : Out := onAll (jobEnds job ended bytes data) s

/-- R537: WATCH_US pass. -/
def execChkWatchReread (job : Nat) (data : List Byte) (s : State) : Out := onAll (watchRead job data) s

end Sys2Proof.Machine
end

