-- ==== Sys2Proof/Machine/Package.lean ====
section
/-!
DEFINITION. Thermal limits and VIO (R550, R556, R557, R561, R562).
-/

namespace Sys2Proof.Machine

/-- The hottest of the readings, in 0.1 degrees. -/
def hottest : List Int → Int
  | [] => 0
  | [t] => t
  | t :: ts => max t (hottest ts)

/-- The whole ms of a thermal throttle since they were last counted (R562). -/
def countThrottle (d : Dev) : Dev :=
  if d.fd.throttleHot then
    let ms := (d.th.localNs - d.fd.throttleSince) / 1000000
    d |> updFd (fun f => { f with throttleSince := f.throttleSince + ms * 1000000 }) |> addI Reg.DEV_THROTTLE_MS 0 0 ms
  else d

/-- At 100 degrees the engine clocks are halved (R556). -/
def heatThrottle (d : Dev) : Dev :=
  if d.fd.throttleHot then d
  else d |> throttling (fun f => { f with throttleHot := true, throttleSince := d.th.localNs })
    |> bump Reg.DEV_THROTTLE_CNT 0

/-- THERM_STATE: a fault until a reset, THROTTLE while the throttle holds, WARN from 95 degrees until below 92 (R556). -/
def thermState (hot : Int) (d : Dev) : Nat :=
  if d.boot.fault = 3 then 3
  else if d.fd.throttleHot then 2
  else if 950 ≤ hot ∨ (920 ≤ hot ∧ rd Reg.DEV_THERM_STATE 0 d ≠ 0) then 1
  else 0

/-- The sensors are read (R556, R562). -/
def thermalSample (temps : List Int) (d : Dev) : Dev :=
  if temps.length ≠ 10 ∨ d.fd.rails = false then d
  else
    let hot := hottest temps
    let peak := toSigned 16 (rd Reg.DEV_TJ_PEAK 0 d)
    let first := !d.sens.sampled
    { d with sens := { d.sens with temps := temps, sampled := true } }
      |> wr Reg.DEV_TJ_HOT 0 (ofSigned 16 hot) |> wr Reg.DEV_TJ_PEAK 0 (ofSigned 16 (if first then hot else max peak hot))
      |> countThrottle |> onlyIf (decide (1000 ≤ hot)) heatThrottle |> onlyIf (decide (1100 ≤ hot)) (deviceFault 3)
      |> (fun d => wr Reg.DEV_THERM_STATE 0 (thermState hot d) d)

/-- R556: the sensors are read. -/
def execThermalSample (temps : List Int) (s : State) : Out := onDev (thermalSample temps) s

/-- Every sensor has read below 95 degrees for 1 s: the throttle ends. -/
def throttleOver (d : Dev) : Dev :=
  if d.fd.throttleHot ∧ d.sens.temps.all (fun t => decide (t < 950)) then
    d |> countThrottle |> throttling (fun f => { f with throttleHot := false })
      |> (fun d => wr Reg.DEV_THERM_STATE 0 (thermState (hottest d.sens.temps) d) d)
  else d

/-- R556: the thermal throttle ends. -/
def execThermalThrottleEnd (s : State) : Out := onDev throttleOver s

/-- VIO is sensed: once AON is released, where it changed by more than 10 % or crossed 0.7 V (R550). -/
def vioChange (mv : Nat) (d : Dev) : Dev :=
  let old := d.sens.vio
  let diff := if old ≤ mv then mv - old else old - mv
  let now := decide (700 ≤ mv)
  if d.fd.aon ∧ (old < 10 * diff ∨ vioGood d ≠ now) then
    { d with sens := { d.sens with vio := mv } } |> onlyIf (vioGood d != now) (emit .pin [9, 0, bnat now] [])
  else d

/-- R550: VIO changes, in mV. -/
def execVioChange (mv : Nat) (s : State) : Out := onDev (vioChange mv) s

end Sys2Proof.Machine
end

