-- ==== Sys2Proof/Machine/Composite.lean ====
section
/-!
DEFINITION. Composite enumeration (R87, R88), the CVH table (R412), image entries that waited for members (R566), and the anchor's heartbeat
and takeover (R416, R417).
-/

namespace Sys2Proof.Machine

/-- Composite mode runs (R87). -/
def cmpRuns (d : Dev) : Bool := compositeOn d && ready d

/-! ## Enumeration (R87, R88) -/

/-- A roll-call record: a new or changed one is kept and flooded to every other port that leads to a DX7; one already known goes no
further (DEDUCED, log entry 84). -/
def rollCall (port : Nat) (r : RollRec) (d : Dev) : Dev :=
  if !cmpRuns d || !toDx7 port d || r.serial == d.otp.serial || d.cmp.heard.contains r then d
  else
    d |> updCmp (fun c => { c with heard := c.heard.filter (fun x => x.serial != r.serial) ++ [r] })
      |> forEach ((List.range 144).filter (fun p => p != port && toDx7 p d)) (fun p => sendRoll p r)

/-- A number below 64, 64 and above meaning none. -/
def upTo63 (n : Nat) : Option Nat := if n < 64 then some n else none

/-- R87: a roll-call message arrives; `pref`, `anchor` and `id` are 64 where it holds none. -/
def execRollCallRx (port serial prio pref anchor id : Nat) (s : State) : Out :=
  onAll (rollCall port ⟨serial, prio, upTo63 pref, upTo63 anchor, upTo63 id⟩) s

/-- The members of a composite of those called: at most 64, the joiners of the highest serials refused (R88). -/
def admitted (l : List RollRec) : List RollRec :=
  let old := l.filter (fun r => r.curId.isSome)
  let new := (l.filter (fun r => r.curId.isNone)).take (64 - old.length)
  l.filter (fun r => old.contains r || new.contains r)

/-- Gives each of a list of records the ID it asks for, unless that is taken. -/
def giveIds (want : RollRec → Option Nat) (l : List RollRec) (ids : List (Nat × Nat)) : List (Nat × Nat) :=
  l.foldl (fun ids r =>
    if (idOf ids r.serial).isSome then ids
    else match want r with
      | some i => if ids.any (fun x => x.2 == i) then ids else ids ++ [(r.serial, i)]
      | none => ids) ids

/-- The lowest ID that no member holds. -/
def lowestId (ids : List (Nat × Nat)) : Option Nat := (List.range 64).find? (fun i => ids.all (fun x => x.2 != i))

/-- The IDs of members in rising order of serial: the one preferred, else the lowest free (R87 item 4); that a member without a preferred
ID that is free keeps the one it holds is DEDUCED, log entry 85. -/
def assignIds (l : List RollRec) : List (Nat × Nat) :=
  let ids := [] |> giveIds (fun r => r.pref) l |> giveIds (fun r => r.curId) l
  l.foldl (fun ids r => if (idOf ids r.serial).isSome then ids
    else match lowestId ids with | some i => ids ++ [(r.serial, i)] | none => ids) ids

/-- The anchor among members: one that holds the role stays; else the best of R87 item 3. -/
def chooseAnchor (current : Option Nat) (l : List RollRec) : Option RollRec :=
  let holders := l.filter (fun r => r.curId.isSome && r.anchor == r.curId)
  match holders.find? (fun r => r.curId == current), holders.head? with
  | some r, _ => some r
  | none, some r => some r
  | none, none => bestOf l

/-! ## Image entries that waited (R566) -/

/-- The members that an entry names are present: the member of a port map entry, the home of a peer window's target. -/
def entryDue (e : Nat × Nat × List Nat) (d : Dev) : Bool :=
  if e.1 = 0 then
    let m := (mapWord (e.2.2.getD 0 0)).1
    isSelf m d || d.cmp.ids.any (fun x => x.2 == m)
  else (homeOf (wbits e.2.2 0 7 8) d).isSome

/-- A waiting entry is applied: a port map entry as a BIND, to which another member answers with its code of BIND. -/
def entryIn (grants : List (Nat × Nat)) (e : Nat × Nat × List Nat) (d : Dev) : Dev :=
  let w := e.2.2.getD 0 0
  if e.1 = 0 then
    let v := e.2.1 / 32
    if isSelf (mapWord w).1 d then
      let r := bindEntry e.2.1 w d
      if r.2 = 0 then r.1 else cfgErr 0x1A v 0x10C r.2 (BitVec.ofNat 32 w) d
    else if (dspAt v (e.2.1 % 32) d).isSome then cfgErr 0x1A v 0x10C Cfg.CFG_EXP_BIND (BitVec.ofNat 32 w) d
    else match (grants.find? (fun g => g.1 == e.2.1)).map (fun g => g.2) with
      | some 1 => cfgErr 0x1A v 0x10C Cfg.CFG_EXP_BIND (BitVec.ofNat 32 w) d
      | some 2 => cfgErr 0x1A v 0x10C Cfg.CFG_EXP_CACHE (BitVec.ofNat 32 w) d
      | _ => bindDone v (e.2.1 % 32) w d
  else
    let r := peerEntry e.2.1 e.2.2 d
    if r.2 = 0 then r.1 else cfgErr 0x1A 0 0x204 r.2 (BitVec.ofNat 32 w) d

/-- The waiting entries whose members are present are applied, in record order. -/
def entriesIn (grants : List (Nat × Nat)) (d : Dev) : Dev :=
  let due := d.cmp.waiting.filter (fun e => entryDue e d)
  d |> updCmp (fun c => { c with waiting := c.waiting.filter (fun e => !entryDue e d) }) |> forEach due (entryIn grants)

/-! ## Membership is stable (R87 steps 3 to 5) -/

/-- The composite of the members admitted, with its anchor. -/
def formComposite (l : List RollRec) (a : RollRec) (full : Bool) (cvhs : List (Nat × Nat × Nat)) (lids : List (Nat × Nat))
    (grants : List (Nat × Nat)) (d : Dev) : Dev :=
  let ids := assignIds l
  let was := d.cmp.role
  let new := ids.filter (fun x => x.1 != d.otp.serial && (idOf d.cmp.ids x.1).isNone)
  let here := fun m => ids.any (fun x => x.2 == m)
  let anchor := idOf ids a.serial
  d |> updCmp (fun c => { c with ids := ids, hbAt := if c.anchorId = anchor then c.hbAt else none })
    |> updSw (fun s => { s with
        unreach := s.unreach.filter (fun m => new.all (fun x => x.2 != m))
        cvhs := (cvhs.filter (fun e => here e.2.1)).foldl (fun m e => smPut m e.1 e.2) []
        lids := (lids.filter (fun e => here e.1)).foldl (fun m e => smPut m e.1 e.2) [] })
    |> wr Reg.DEV_COMPOSITE_ID 0 ((idOf ids d.otp.serial).getD 0)
    |> (fun d => setRoles anchor (standbyFor anchor d) d)
    |> refreshCvh
    |> (fun d => onlyIf (d.cmp.role == 3 && was != 3) (raise Ev.ANCHOR_ELECTED 0) d)
    |> forEach new (fun _ => raise Ev.CMP_MEMBER_JOINED 0)
    |> (fun d => onlyIf (full && d.cmp.role == 3) (raise Ev.COMPOSITE_FULL 0) d)
    |> entriesIn grants

/-- No new serial was heard for 2 ms: the composite forms, or, with no member of a priority other than 0, none does (R88). A device refused
as the 65th member runs alone. -/
def membership (cvhs : List (Nat × Nat × Nat)) (lids grants : List (Nat × Nat)) (d : Dev) : Dev :=
  if !cmpRuns d || d.cmp.standalone then d
  else
    let all := callers d
    let l := admitted all
    if l.all (fun r => r.serial != d.otp.serial) then d |> updCmp (fun c => { c with standalone := true }) |> showCmp
    else match chooseAnchor d.cmp.anchorId l with
      | none => d
      | some a => formComposite l a (decide (l.length < all.length)) cvhs lids grants d

/-- R87: membership is stable; `cvhs` is the CVH table the anchor distributes (CVH, home, LVH), `lids` MY_LID of each member, `grants` what
other members answer to port map entries of the image (32 * VH + device; 0 granted, 1 CFG_EXP_BIND, 2 CFG_EXP_CACHE). -/
def execMembershipStable (cvhs : List (Nat × Nat × Nat)) (lids grants : List (Nat × Nat)) (s : State) : Out :=
  onAll (membership cvhs lids grants) s

/-! ## The anchor's heartbeat (R416, R417) -/

/-- A heartbeat goes to the standby anchor. -/
def sendHeartbeat (hand : Nat) (d : Dev) : Dev :=
  emit .heartbeat [d.cmp.anchorId.getD 64, d.cmp.standbyId.getD 64, rd Reg.CMP_ANCHOR_EPOCH 0 d, d.otp.serial, hand] []
    (sendMgmt (smGet (fun _ => 0xFFFFF) d.sw.lids (d.cmp.standbyId.getD 64))
      [2, d.cmp.anchorId.getD 64, d.cmp.standbyId.getD 64, rd Reg.CMP_ANCHOR_EPOCH 0 d, d.otp.serial, hand] d)

/-- R416: every 1 ms the anchor sends HEARTBEAT to the standby. -/
def execHeartbeatSend (s : State) : Out :=
  onDev (fun d => onlyIf (cmpRuns d && d.cmp.role == 3 && d.cmp.standbyId.isSome) (sendHeartbeat 0) d) s

/-- A heartbeat's epoch and serial stand before the epoch and anchor in force (R417). -/
def outranks (epoch serial : Nat) (d : Dev) : Bool :=
  let own := match d.cmp.anchorId with
    | some a => (d.cmp.ids.find? (fun x => x.2 == a)).map (fun x => x.1)
    | none => none
  match own with
  | none => true
  | some s => decide (rd Reg.CMP_ANCHOR_EPOCH 0 d < epoch) || (rd Reg.CMP_ANCHOR_EPOCH 0 d == epoch && decide (serial < s))

/-- Heartbeats missed between two that arrived, at one each ms. -/
def hbMissed (d : Dev) : Nat := match d.cmp.hbAt with | some t => (d.th.localNs - t) / 1000000 - 1 | none => 0

/-- The anchor known is heard: its epoch, and the standby it names. -/
def anchorHeard (anchor standby epoch : Nat) (d : Dev) : Dev :=
  let d1 := d |> wr Reg.CMP_ANCHOR_EPOCH 0 epoch |> setRoles (some anchor) (upTo63 standby)
  if d1.cmp.role = 2 then
    d1 |> onlyIf (d.cmp.role == 2) (addI Reg.CMP_HB_MISS 0 0 (hbMissed d)) |> updCmp (fun c => { c with hbAt := some d.th.localNs })
  else updCmp (fun c => { c with hbAt := none }) d1

/-- A heartbeat: from the anchor known, or from a second one, of which the higher epoch stays, and the lower serial on a tie (R417). -/
def heartbeat (anchor standby epoch serial : Nat) (d : Dev) : Dev :=
  if !cmpRuns d || 64 ≤ anchor || 65536 ≤ epoch || serial == d.otp.serial || d.cmp.role == 0 then d
  else if d.cmp.anchorId = some anchor then anchorHeard anchor standby epoch d
  else if !outranks epoch serial d then d
  else
    d |> anchorHeard anchor standby epoch
      |> onlyIf (d.cmp.role == 3) (fun d => d |> setRoles (some anchor) (if d.cmp.role = 2 then none else d.cmp.standbyId) |> raise Ev.CMP_DEMOTED 0)

/-- R416, R417: a HEARTBEAT arrives: anchor ID, standby ID, epoch and the anchor's serial. -/
def execHeartbeatRx (anchor standby epoch serial : Nat) (s : State) : Out := onAll (heartbeat anchor standby epoch serial) s

/-- Steps 2 and 3 on the new anchor: the epoch advances, and a new standby anchor is elected. -/
def takeOver (d : Dev) : Dev :=
  let own := idOf d.cmp.ids d.otp.serial
  d |> addMod Reg.CMP_ANCHOR_EPOCH 0 0 1 |> updCmp (fun c => { c with hbAt := none })
    |> raise Ev.ANCHOR_ELECTED 0 |> raise Ev.CMP_TAKEOVER 0
    |> (fun d => setRoles own (standbyFor own d) d)

/-- HB_LOSS without a heartbeat: the anchor is lost and is no member any more (DEDUCED, log entry 86). -/
def hbLoss (d : Dev) : Dev :=
  if !cmpRuns d || d.cmp.role != 2 then d
  else
    let gone : List (Nat × Nat) := match d.cmp.anchorId with | some a => d.cmp.ids.filter (fun x => x.2 == a) | none => []
    d |> addI Reg.CMP_HB_MISS 0 0 (rd Reg.CMP_HB_LOSS 0 d)
      |> updCmp (fun c => { c with ids := c.ids.filter (fun x => !gone.contains x)
                                   heard := c.heard.filter (fun r => gone.all (fun x => x.1 != r.serial)) })
      |> takeOver

/-- R416: HB_LOSS passes without a heartbeat. -/
def execHbLossExpire (s : State) : Out := onAll hbLoss s

/-- A write of 1 to HANDOVER: on the anchor the standby takes over at once, told by a heartbeat; elsewhere it has no effect (R416, R421). -/
def handover (d : Dev) : Dev :=
  match d.cmp.role, d.cmp.standbyId with
  | 3, some b => d |> sendHeartbeat 1 |> addMod Reg.CMP_ANCHOR_EPOCH 0 0 1 |> (fun d => setRoles (some b) (standbyFor (some b) d) d)
  | _, _ => d

/-- R416: HANDOVER moves the role; `told`: the standby hears of it from the anchor. -/
def execHandover (told : Bool) (s : State) : Out :=
  onAll (if told then (fun d => onlyIf (cmpRuns d && d.cmp.role == 2) takeOver d)
    else trigger 0x1F 0 0x120 0 (fun _ => handover)) s

end Sys2Proof.Machine
end

