-- ==== Sys2Proof/Machine/Lane.lean ====
section
/-!
DEFINITION. The meanings of the lane commands (ch. 04): signal, lock and markers, qualification with substitution and width,
background trim, test patterns, eye scan and spare requests.
-/

namespace Sys2Proof.Machine

/-! ## Steps 1 to 3 of bring-up -/

/-- Goes on to the next step of R104 once every awaited lane has reached the state. -/
def stepIf (p step st : Nat) (d : Dev) : Dev :=
  if (portOf p d).step = step ∧ (awaited p d).all (fun n => decide (st ≤ rd Reg.LANE_BSTATE n d ∨
      rd Reg.LANE_BSTATE n d = 9)) then
    updPort p (fun q => { q with step := step + 1 }) d
  else d

/-- W_SIGNAL on a lane of an enabled port; on SFL ports only with WAKE_DET = 1 (R493). -/
def signalWake (p : Nat) (d : Dev) : Dev :=
  if pers (p / 8) d = 1 ∨ (rd Reg.LNK_EN p d = 1 ∧ (pers (p / 8) d ≠ 2 ∨ rd Reg.LNK_WAKE_DET p d = 1)) then
    wakeDom (p / 8) 0 d
  else d

/-- The port a lane belongs to in a bring-up: its own, or for the spare the one of the island that is in bring-up. -/
def bringupPort (n : Nat) (d : Dev) : Option Nat :=
  if n % 9 < 8 then portAt (n / 9) (n % 9) d
  else
    match heldPos (n / 9) d with
    | some j => portAt (n / 9) j d
    | none => (List.range 8).findSome? fun j =>
        if portStarts (8 * (n / 9) + j) d && decide (0 < (portOf (8 * (n / 9) + j) d).step) then some (8 * (n / 9) + j)
        else none

/-- A lane detects signal: step 1 of R104, and W_SIGNAL (R493). With signal on every lane the partner transmits on all of them: T0 is this
moment, the later start that this end sees (DESIGN CHOICE, log entry 175). -/
def laneSignalDetect (n : Nat) (d : Dev) : Dev :=
  match bringupPort n d with
  | none => d
  | some p =>
    d |> signalWake p
      |> onlyIf (rd Reg.LANE_BSTATE n d == 1) (wr Reg.LANE_BSTATE n 2)
      |> stepIf p 1 2 |> (fun x => onlyIf ((portOf p d).step == 1 && (portOf p x).step == 2) (updPort p (fun q => { q with began := x.th.localNs })) x)

/-- A lane gains symbol lock: step 2 of R104; in service, lock came back within LOCK_LOSS_TIME (R142, R150). A loss during Q
stays counted (R107). -/
def laneSymbolLock (n : Nat) (d : Dev) : Dev :=
  match bringupPort n d with
  | none => d
  | some p =>
    let b := rd Reg.LANE_BSTATE n d
    d |> wr Reg.LANE_LOCKED n 1
      |> updLane n (fun l => { l with lost := l.lost && b == 4, misses := 0 })
      |> onlyIf (b == 1 || b == 2) (wr Reg.LANE_BSTATE n 3)
      |> stepIf p 1 2 |> stepIf p 2 3

/-- A lane loses symbol lock: LOCK_LOSS counts it, and on a port that is UP the lock-loss timing starts with the
LOCK_LOSS_TIME of this moment (R104, R142, R150). -/
def laneLockLoss (n : Nat) (d : Dev) : Dev :=
  if rd Reg.LANE_LOCKED n d = 1 then
    let t := match bringupPort n d with | some p => rd Reg.LNK_LOCK_LOSS_TIME p d | none => 0
    d |> wr Reg.LANE_LOCKED n 0 |> bump Reg.LANE_LOCK_LOSS n
      |> updLane n (fun l => { l with lost := true, lostTime := t })
  else d

/-! ## Markers: polarity, positions, reversal, partner check (R103, R105, R106) -/

/-- The marker a lane showed. -/
def markerOf (n : Nat) (d : Dev) : Option Marker := (laneOf n d).marker

/-- The markers of the positions of a port, by index in the port: the spare's where it is awaited in the original lane's stead (R110). -/
def portMarkers (p : Nat) (d : Dev) : List (Nat × Marker) :=
  (List.range (portWidth p d)).filterMap fun k => (markerOf (awaitedLane (portLane p k) d) d).map (fun m => (k, m))

/-- The partner's markers show a mismatch (R106). -/
def mismatch (p : Nat) (d : Dev) : Bool :=
  let ms := portMarkers p d
  match ms with
  | [] => false
  | (_, m0) :: _ =>
    ms.any (fun km => km.2.rate != sflRate p d || km.2.peer != m0.peer || km.2.isl != m0.isl
      || decide (portWidth p d ≤ km.2.pos))

/-- The received positions fall as the physical position rises (R105). -/
def reversed (p : Nat) (d : Dev) : Bool :=
  match portMarkers p d with
  | (_, a) :: (_, b) :: _ => decide (b.pos < a.pos)
  | [(k, a)] => a.pos != k
  | _ => false

/-- The position that either end's markers show as substituted, of those in the port's span: the one held here, or the one that the
partner's spare shows, counted as the partner counts and reversed where the port is. The partner's needs spare substitution enabled here and
a DX7 there (R105, R109, R110). -/
def substShown (p : Nat) (rev : Bool) (d : Dev) : Option Nat :=
  match servedPos (p / 8) d with
  | some j => if (portLanes p d).contains (9 * (p / 8) + j) then some j else none
  | none =>
    match markerOf (spareLane (p / 8)) d with
    | some m =>
      if m.st = 4 ∧ m.pos < portWidth p d ∧ m.dx7 = true ∧ spareEnabled (p / 8) d = true then
        some (portLane p (if rev then portWidth p d - 1 - m.pos else m.pos) % 9)
      else none
    | none => none

/-- Applies a substitution to position `j` of an island: both ends carry it on the spare (R109, R110). -/
def applySubst (i j : Nat) (d : Dev) : Dev :=
  let n := 9 * i + j
  let s := spareLane i
  d |> wr Reg.LANE_SUBSTITUTED n 1 |> wr Reg.LANE_HELD n 1
    |> wr Reg.LANE_SPARE_VALID s 1 |> wr Reg.LANE_SPARE_FOR s j |> wr Reg.LANE_LOGICAL s (rd Reg.LANE_LOGICAL n d)
    |> wr Reg.LANE_BSTATE s 5

/-- Step 3 of R104: the partner check, then positions and reversal, a substitution shown, and qualification begins. -/
def decideMarkers (p : Nat) (d : Dev) : Dev :=
  let i := p / 8
  let w := portWidth p d
  if mismatch p d then
    d |> raise Ev.PARTNER_MISMATCH (portLane p 0)
      |> updPort p (fun q => { q with step := 0, retry := 1 }) |> spareRest i
  else
    let rev := reversed p d
    let m0 := (portMarkers p d).head?.map Prod.snd
    d |> forEach (List.range w) (fun k d => d
          |> wr Reg.LANE_REVERSED (portLane p k) (bnat rev)
          |> wr Reg.LANE_LOGICAL (portLane p k) (if rev then w - 1 - k else k)
          |> onlyIf (rd Reg.LANE_BSTATE (portLane p k) d != 9)
              (fun d => d |> wr Reg.LANE_BSTATE (portLane p k) 4 |> sendMarker p (portLane p k) 1))
      |> wr Reg.LNK_PARTNER_DX7 p (match m0 with | some m => bnat m.dx7 | none => 0)
      |> wr Reg.LNK_PARTNER_ID p (match m0 with | some m => m.peer | none => 0)
      |> wr Reg.LNK_RATE p (sflRate p d)
      |> (fun d => match substShown p rev d with
          | some j => applySubst i j d |> onlyIf (rd Reg.LANE_HELD (9 * i + j) d == 0) (raise Ev.SPARE_IN (spareLane i))
          | none => d)
      |> updPort p (fun q => { q with step := 4 })

/-- A lane marker arrives, 64 bits as received (R103, R105, R106). -/
def laneMarkerRx (n raw : Nat) (d : Dev) : Dev :=
  match decodeMarker raw, bringupPort n d with
  | some (m, inv), some p =>
    if rd Reg.LANE_BSTATE n d = 3 then
      let d1 := d |> updLane n (fun l => { l with marker := some m }) |> wr Reg.LANE_POL_INV n (bnat inv)
      if (portOf p d1).step = 3 ∧ (awaited p d1).all (fun x => (markerOf x d1).isSome) then decideMarkers p d1 else d1
    else updLane n (fun l => { l with marker := some m }) d
  | _, _ => d

/-! ## Qualification, substitution and width (R107 to R111) -/

/-- A lane counts more than 10^-5 of the bits received in error, or lost lock during Q (R107). -/
def qualBad (n errs bits : Nat) (d : Dev) : Bool := decide (bits < errs * 100000) || (laneOf n d).lost

/-- Ends the qualification of a lane with its count; a failure raises QUAL_FAIL (R107). -/
def qualLane (p n errs bits : Nat) (partnerFail : Bool) (d : Dev) : Dev :=
  let bad := qualBad n errs bits d
  d |> wrFit Reg.LANE_QUAL_ERR n errs |> wr Reg.LANE_QUAL_PASS n (bnat (!bad && !partnerFail))
    |> updLane n (fun l => { l with lost := false })
    |> onlyIf bad (raise Ev.QUAL_FAIL n)
    |> onlyIf (bad || partnerFail) (wr Reg.LANE_BSTATE n 9)
    |> sendMarker p n (if bad then 3 else 2)

/-- A position's lane is good: not failed, and passed or carried by the spare (R107, R108, R119). -/
def posGood (p k : Nat) (d : Dev) : Bool :=
  let n := portLane p k
  if rd Reg.LANE_SUBSTITUTED n d = 1 then true
  else !(laneOf n d).failed && !(laneOf n d).bad && rd Reg.LANE_QUAL_PASS n d == 1

/-- The index in the port of a logical position (R105). -/
def physOf (p l : Nat) (d : Dev) : Nat :=
  if rd Reg.LANE_REVERSED (portLane p 0) d = 1 then portWidth p d - 1 - l else l

/-- The position that asks for the spare at step 6: one named by SPARE_REQ, then the lowest failed (R110). -/
def substWanted (p : Nat) (d : Dev) : Option Nat :=
  let ks := List.range (portWidth p d)
  match ks.find? (fun k => (laneOf (portLane p k) d).req) with
  | some k => some k
  | none => ks.find? (fun k => !posGood p k d)

/-- The partner is a DX7 whose spare is free and enabled (R109). -/
def partnerSpare (p : Nat) (d : Dev) : Bool :=
  match portMarkers p d with
  | (_, m) :: _ => m.dx7 && m.spareCap
  | [] => false

/-- The spare passes its own qualification: it locked, neither end failed it (R107, R119). -/
def spareGood (s : Nat) (spare : Option (Nat × Nat)) (pfail : Bool) (d : Dev) : Bool :=
  match spare with
  | some (e, b) => !qualBad s e b d && !pfail
  | none => false

/-- The spare's own qualification: its count, or QUAL_FAIL where it did not lock (R104, R107). -/
def qualSpare (p s : Nat) (spare : Option (Nat × Nat)) (pfail : Bool) (d : Dev) : Dev :=
  match spare with
  | some (e, b) => qualLane p s e b pfail d
  | none => d |> wr Reg.LANE_BSTATE s 9 |> raise Ev.QUAL_FAIL s

/-- The held or shown substitution of a port is judged by its spare's qualification; where that fails, one that SPARE_MAP asked for is refused,
raised on the position's lane and held no more (R110, R111, R119; log entry 176). -/
def judgeHeld (p j : Nat) (spare : Option (Nat × Nat)) (pfail : Bool) (d : Dev) : Dev :=
  let i := p / 8
  let n := 9 * i + j
  let s := spareLane i
  let img := (laneOf n d).fromImage
  d |> updLane n (fun l => { l with fromImage := false }) |> qualSpare p s spare pfail
    |> onlyIf (!spareGood s spare pfail d) (fun d => d |> wr Reg.LANE_SUBSTITUTED n 0
        |> onlyIf img (fun d => d |> raise Ev.SPARE_REFUSED n |> wr Reg.LANE_HELD n 0
            |> wr Reg.LANE_SPARE_VALID s 0 |> wr Reg.LANE_SPARE_FOR s 0))

/-- Step 6: a free spare takes the position that asks for it, if it qualifies; else the position is treated as failed (R109, R110, R119). -/
def substitute (p : Nat) (spare : Option (Nat × Nat)) (pfail : Bool) (d : Dev) : Dev :=
  let i := p / 8
  let s := spareLane i
  match substWanted p d with
  | none => d
  | some k =>
    let n := portLane p k
    if spareEnabled i d && partnerSpare p d && (heldPos i d).isNone then
      d |> updLane n (fun l => { l with req := false }) |> qualSpare p s spare pfail
        |> (if spareGood s spare pfail d then (fun d => d |> applySubst i (n % 9) |> raise Ev.SPARE_IN s)
            else updLane n (fun l => { l with bad := true }))
    else d

/-- Steps 7 and 8 of R104; LOGICAL shows the position as configured, in a narrowed port too (log entry 177): lanes outside the group stop, BRINGUP_US is recorded and the link layer starts with INIT. -/
def handOver (p start w : Nat) (d : Dev) : Dev :=
  let us := min ((d.th.localNs - (portOf p d).began) / 1000) 65535
  d |> forEach (List.range (portWidth p d)) (fun l d =>
        let n := portLane p (physOf p l d)
        let c := carrier n d
        if start ≤ l ∧ l < start + w then
          d |> wr Reg.LANE_BSTATE c 7 |> wr Reg.LANE_LOGICAL c l |> wr Reg.LANE_BRINGUP_US n us
            |> wr Reg.LANE_BRINGUP_US c us |> sendMarker p c 5
        else
          d |> wr Reg.LANE_BSTATE c (if rd Reg.LANE_BSTATE c d = 9 then 9 else 0) |> wr Reg.LANE_LOGICAL c 15
            |> wr Reg.LANE_MODE c 0 |> wr Reg.LANE_BRINGUP_US n us |> emit .laneTx [c, 0] [])
    |> onlyIf (decide (w < portWidth p d)) (raise Ev.PORT_NARROWED (portLane p 0))
    |> wr Reg.LNK_LSTATE p 2 |> wr Reg.LNK_WIDTH p 0
    |> updPort p (fun q => { q with step := 8, initRx := false, rxOk := false, peerOk := false, sentOk := false })
    |> wr Reg.LNK_REPLAY_CAP p (768 * portWidth p d)
    |> spareRest (p / 8) |> sendInit p

/-- The width of R108, or a port that stays down and retries. -/
def widthDecision (p : Nat) (d : Dev) : Dev :=
  match decideWidth (fun l => posGood p (physOf p l d) d) (portWidth p d) [8, 4, 2, 1] with
  | some (start, w) => handOver p start w d
  | none => d |> updPort p (fun q => { q with step := 0, retry := 2 }) |> spareRest (p / 8)

/-- Qualification ends (R107 to R111): `res` gives (bit errors, bits) by index in the port, `pfail` the indices at which the
partner reports FAIL, the port's width for the spare, `spare` the count of the spare's own qualification, none where it did not lock. -/
def qualificationEnd (p : Nat) (res : List (Nat × Nat)) (pfail : List Nat) (spare : Option (Nat × Nat)) (d : Dev) : Dev :=
  if (portOf p d).step = 4 then
    let shown := (List.range (portWidth p d)).find? (fun k => rd Reg.LANE_SUBSTITUTED (portLane p k) d == 1)
    d |> forEach (List.range (portWidth p d)) (fun k d =>
          let n := portLane p k
          if rd Reg.LANE_SUBSTITUTED n d = 1 ∨ (laneOf n d).failed then d
          else qualLane p n (res.getD k (0, 0)).1 (res.getD k (0, 0)).2 (pfail.contains k) d)
      |> (fun d => match shown with
          | some k => judgeHeld p (portLane p k % 9) spare (pfail.contains (portWidth p d)) d
          | none => substitute p spare (pfail.contains (portWidth p d)) d)
      |> widthDecision p
  else d

/-! ## Missed bounds and retries (R104, R106, R108) -/

/-- A lane misses a step: LOCK_LOSS counts the restart; the third miss of step 2 in a row marks it failed (R104). -/
def missLane (step n : Nat) (d : Dev) : Dev :=
  d |> bump Reg.LANE_LOCK_LOSS n
    |> onlyIf (step == 2) (updLane n (fun l => { l with misses := l.misses + 1, failed := l.failed || decide (2 ≤ l.misses) }))

/-- A bring-up step misses its bound: steps 1, 2, 3 and 5 count on each lane that missed, steps 4, 7 and 8 on every lane of the
port; the attempt restarts at step 1 (R104). `lanes` names the lanes that missed step 5. -/
def bringupStepTimeout (p step : Nat) (lanes : List Nat) (d : Dev) : Dev :=
  let cur := (portOf p d).step
  if cur ≠ 0 ∧ (step = cur ∨ (cur = 4 ∧ (step = 5 ∨ step = 7 ∨ step = 8))) ∧ cur < 8 then
    let missed :=
      if step = 1 then (awaited p d).filter (fun n => decide (rd Reg.LANE_BSTATE n d < 2))
      else if step = 2 then (awaited p d).filter (fun n => rd Reg.LANE_LOCKED n d == 0)
      else if step = 3 then (awaited p d).filter (fun n => (markerOf n d).isNone)
      else if step = 5 then lanes.filter (fun n => (awaited p d).contains n)
      else portLanes p d
    d |> forEach missed (missLane step) |> startBringup p
  else d

/-- A port that is down for a mismatch or for want of a width tries again; after no width every lane is tried afresh
(R106, R108). -/
def bringupRetryTimer (p : Nat) (d : Dev) : Dev :=
  if (portOf p d).retry ≠ 0 then
    d |> onlyIf ((portOf p d).retry == 2) (lanesAfresh p) |> startBringup p
  else d

/-! ## Background trim (R101) -/

/-- The trim offset of a parameter: 0 CTLE peaking, 1 to 8 the DFE taps (R117). -/
def trimOfs (n param : Nat) (d : Dev) : Int := toSigned 3 (bitsOf (rd Reg.LANE_TRIM_OFS n d) (3 * param) 3)

/-- Gives a trim offset a value. -/
def setTrimOfs (n param : Nat) (v : Int) (d : Dev) : Dev :=
  let w := rd Reg.LANE_TRIM_OFS n d
  wr Reg.LANE_TRIM_OFS n (w - bitsOf w (3 * param) 3 * 2 ^ (3 * param) + ofSigned 3 v * 2 ^ (3 * param)) d

/-- Whether the interval was better than the one before: fewer errors at no smaller eye, or a larger eye at no more errors;
where the two measures disagree the spec gives no verdict, a free value (R101, log entry 14). -/
def trimBetter (l : Lane) (errs eye : Nat) (d : Dev) : Bool :=
  if errs ≤ l.trimErr ∧ l.trimEye ≤ eye then decide (errs < l.trimErr ∨ l.trimEye < eye)
  else if l.trimErr ≤ errs ∧ eye ≤ l.trimEye then false
  else free 1 d == 1

/-- Undoes the last step where the lane is not better (R101). -/
def trimJudge (n errs eye : Nat) (d : Dev) : Dev :=
  match (laneOf n d).trimStep with
  | some (param, mv) =>
    if trimBetter (laneOf n d) errs eye d then takeFree d
    else d |> setTrimOfs n param (trimOfs n param d - mv) |> takeFree
  | none => d

/-- The next step: which parameter moves and which way the spec leaves open, free values (log entry 14). A step beyond 2 codes
is not taken and raises TRIM_LIMIT once per bring-up (R101). -/
def trimMove (n : Nat) (d : Dev) : Dev :=
  let v := free 8 d
  let param := v / 2 % 9
  let mv : Int := if v % 2 = 1 then 1 else (-1)
  let x := trimOfs n param d + mv
  let d1 := takeFree d
  if -2 ≤ x ∧ x ≤ 2 then d1 |> setTrimOfs n param x |> updLane n (fun l => { l with trimStep := some (param, mv) })
  else d1 |> onlyIf (!(laneOf n d).trimRaised) (raise Ev.TRIM_LIMIT n)
    |> updLane n (fun l => { l with trimStep := none, trimRaised := true })

/-- Codewords corrected on a lane are counted on its port (R151, R152). -/
def countCorr (n cw : Nat) (d : Dev) : Dev :=
  match portOfLane n d with
  | some p => if pers (p / 8) d = 3 then addI Reg.ETH_FEC_CORR_CW p 0 cw d else addI Reg.LNK_FEC_CORR p 0 cw d
  | none => d

/-- 1 ms of a lane passes with `errs` pre-FEC symbol errors, `cw` codewords corrected, and the offset sampler's eye height `eye`
(R101). -/
def trimTick (n errs cw eye : Nat) (d : Dev) : Dev :=
  let d1 := d |> addI Reg.LANE_FEC_SYM_ERR n 0 errs |> countCorr n cw
  if trimRuns n d then
    d1 |> trimJudge n errs eye |> trimMove n
      |> updLane n (fun l => { l with trimErr := errs, trimEye := eye })
  else d1

/-! ## Test patterns (R112) -/

/-- The checker loses lock after `errs` errors in `bits` bits, raises PRBS_LOST and locks again; its 48-bit counters saturate
(R112). -/
def prbsLost (n errs bits : Nat) (d : Dev) : Dev :=
  if rd Reg.LANE_CHK_EN n d = 1 then
    let e := min (rd2 Reg.LANE_PRBS_ERR_LO Reg.LANE_PRBS_ERR_HI n 0 d + errs) (2 ^ 48 - 1)
    let b := min (rd2 Reg.LANE_PRBS_BITS_LO Reg.LANE_PRBS_BITS_HI n 0 d + bits) (2 ^ 48 - 1)
    d |> wr2 Reg.LANE_PRBS_ERR_LO Reg.LANE_PRBS_ERR_HI n 0 e |> wr2 Reg.LANE_PRBS_BITS_LO Reg.LANE_PRBS_BITS_HI n 0 b
      |> onlyIf (e == 2 ^ 48 - 1 || b == 2 ^ 48 - 1) (wr Reg.LANE_CHK_SAT n 1)
      |> raise Ev.PRBS_LOST n |> wr Reg.LANE_CHK_LOCK n 1
  else d

/-- INJ_ONE: one bit is sent in error (R112). -/
def injOneTrig (n : Nat) (d : Dev) : Dev := emit .laneTx [n, 3] [] d

/-! ## Eye scan (R115, R116) -/

/-- A START: the earlier results go; off UP and TEST the scan ends at once with ABORTED (R115, R116). -/
def eyeStartTrig (n : Nat) (d : Dev) : Dev :=
  let b := rd Reg.LANE_BSTATE n d
  let d1 := d |> updLane n (fun l => { l with eye := [] }) |> wr Reg.LANE_EYE_POINTS n 0
  if b = 7 ∨ b = 8 then
    d1 |> wr Reg.LANE_EYE_BUSY n 1 |> wr Reg.LANE_EYE_DONE n 0 |> wr Reg.LANE_EYE_ABORTED n 0
  else
    d1 |> wr Reg.LANE_EYE_BUSY n 0 |> wr Reg.LANE_EYE_ABORTED n 1 |> wr Reg.LANE_EYE_DONE n 1 |> raise Ev.EYE_DONE n

/-- A scan completes its grid with the error counts of its points; one that the command does not carry is free (R115, log entry 163). -/
def eyeScanDone (n : Nat) (errs : List Nat) (d : Dev) : Dev :=
  if rd Reg.LANE_EYE_BUSY n d = 1 then
    d |> eyeStore n (gridPoints n d) (fun i => errs.getD i (freePoint i d)) |> takeFree
      |> wr Reg.LANE_EYE_BUSY n 0 |> wr Reg.LANE_EYE_DONE n 1 |> raise Ev.EYE_DONE n
  else d

/-! ## Spare requests (R110, R117) -/

/-- SPARE_REQ: refused off SFL, and while the spare is held. -/
def spareReqTrig (n : Nat) (val : Word) (d : Dev) : Dev :=
  if val.getLsbD 1 then d
  else if pers (n / 9) d ≠ 2 then cfgErr 8 n 0x170 Cfg.CFG_SPARE_PERS val d
  else if (heldPos (n / 9) d).isSome ∨ rd Reg.LANE_SPARE_VALID (spareLane (n / 9)) d = 1 then
    cfgErr 8 n 0x170 Cfg.CFG_SPARE_BUSY val d
  else if n % 9 < 8 then updLane n (fun l => { l with req := true }) d
  else d

/-- SPARE_REL: the substitution is released at the next bring-up; it is taken before a request (R119). -/
def spareRelTrig (n : Nat) (d : Dev) : Dev := updLane n (fun l => { l with rel := true, req := false }) d

/-! ## The commands -/

/-- LANE_SIGNAL_DETECT (R104, R493). -/
def execLaneSignalDetect (lane : Nat) (s : State) : Out := onNet (laneSignalDetect lane) s

/-- LANE_SYMBOL_LOCK (R104). -/
def execLaneSymbolLock (lane : Nat) (s : State) : Out := onNet (laneSymbolLock lane) s

/-- LANE_LOCK_LOSS (R142). -/
def execLaneLockLoss (lane : Nat) (s : State) : Out := onNet (laneLockLoss lane) s

/-- LANE_MARKER_RX (R103). -/
def execLaneMarkerRx (lane raw : Nat) (s : State) : Out := onNet (laneMarkerRx lane raw) s

/-- QUALIFICATION_END (R107). -/
def execQualificationEnd (port : Nat) (res : List (Nat × Nat)) (pfail : List Nat) (spare : Option (Nat × Nat))
    (s : State) : Out := onNet (qualificationEnd port res pfail spare) s

/-- BRINGUP_STEP_TIMEOUT (R104). -/
def execBringupStepTimeout (port step : Nat) (lanes : List Nat) (s : State) : Out :=
  onNet (bringupStepTimeout port step lanes) s

/-- BRINGUP_RETRY_TIMER (R108). -/
def execBringupRetryTimer (port : Nat) (s : State) : Out := onNet (bringupRetryTimer port) s

/-- TRIM_TICK (R101). -/
def execTrimTick (lane errs cw eye : Nat) (s : State) : Out := onNet (trimTick lane errs cw eye) s

/-- PRBS_LOST (R112). -/
def execPrbsLost (lane errs bits : Nat) (s : State) : Out := onNet (prbsLost lane errs bits) s

/-- INJ_ONE (R112). -/
def execInjOne (lane : Nat) (s : State) : Out := onNet (trigger 8 lane 0x144 0 (fun _ => injOneTrig lane)) s

/-- EYE_START (R115). -/
def execEyeStart (lane : Nat) (s : State) : Out := onNet (trigger 8 lane 0x160 0 (fun _ => eyeStartTrig lane)) s

/-- EYE_ABORT (R116). -/
def execEyeAbort (lane : Nat) (s : State) : Out := onNet (trigger 8 lane 0x160 1 (fun _ => eyeAbort lane)) s

/-- EYE_SCAN_DONE (R115). -/
def execEyeScanDone (lane : Nat) (errs : List Nat) (s : State) : Out := onNet (eyeScanDone lane errs) s

/-- SPARE_REQ (R117). -/
def execSpareReq (lane : Nat) (s : State) : Out := onNet (trigger 8 lane 0x170 0 (spareReqTrig lane)) s

/-- SPARE_REL (R110). -/
def execSpareRel (lane : Nat) (s : State) : Out := onNet (trigger 8 lane 0x170 1 (fun _ => spareRelTrig lane)) s

end Sys2Proof.Machine
end

