-- ==== Sys2Proof/Machine/Sched.lean ====
section
/-!
DEFINITION. The meanings of the scheduler and meter commands (ch. 07): the choice of the next unit and its sending, the calendar
wheel, gates, and meter entries.
-/

namespace Sys2Proof.Machine

/-! ## Which unit a queue may send (R193, R205, R401) -/

/-- A packet's next data flit can be filled: its bytes lie in whole quarters written, or the tail is stored (R156, R193). -/
def fillOk (p : Nat) (q : Packet) (d : Dev) : Bool :=
  q.tail || decide (q.sent + flitPayload (sflRate p d) ≤ q.bytes.length / 64 * 64)

/-- The descriptors of all cells of a packet are in its egress queue (R158). -/
def allQueued (q : Packet) : Bool := decide (q.cells.length ≤ q.queued)

/-- The descriptors of the cells that hold a packet's next data flit are in its egress queue (R158, R177). -/
def descsOk (p : Nat) (q : Packet) (d : Dev) : Bool :=
  (q.tail && allQueued q) || decide (q.sent + flitPayload (sflRate p d) ≤ 256 * q.queued)

/-- Another packet is in progress on a packet's virtual lane of the port (R131, R193). -/
def laneBusy (p : Nat) (q : Packet) (d : Dev) : Bool :=
  d.net.pkts.any (fun r => r.eg == p && r.begun && r.vlane == q.vlane && r.id != q.id)

/-- A packet that is gated may start (R205). -/
def gateStartOk (p q : Nat) (k : Packet) (d : Dev) : Bool :=
  if gatesOn p d ∧ timeValid d ∧ k.begun = false then
    k.tail && (schedOf p d).gated.isNone && gateRoom p q d &&
      (pers (p / 8) d != 2 || decide (flitsFor p k.bytes.length d ≤ credAvail p k.vlane d))
  else true

/-- The link condition of an SFL packet (R139, R193). -/
def sflOk (p : Nat) (k : Packet) (d : Dev) : Bool :=
  portUp p d && (k.begun || !laneBusy p k d) && decide (1 ≤ credAvail p k.vlane d)
    && (k.poison || (fillOk p k d && descsOk p k d)) && (k.begun || !k.store || k.tail)
    && decide ((portOf p d).copies.length < rd Reg.LNK_REPLAY_CAP p d)

/-- The flow-control credit of an EXP link covers a TLP (R193, R406). -/
def fcOk (p : Nat) (k : Packet) (d : Dev) : Bool :=
  let q := portOf p d
  decide (smGet (fun _ => 0) q.fcHdrUsed k.cls + 1 ≤ smGet (fun _ => 0) q.fcHdr k.cls) &&
    decide (smGet (fun _ => 0) q.fcDataUsed k.cls + (k.dlen + 15) / 16 ≤ smGet (fun _ => 0) q.fcData k.cls)

/-- Walks an EXP queue from its oldest packet: `seen` the lists whose head was passed, `posted` whether a posted TLP waits ahead
(R401). -/
def expScan (p : Nat) (d : Dev) : List Packet → List Nat → Bool → Option Packet
  | [], _, _ => none
  | k :: rest, seen, posted =>
    if !(seen.contains k.cls || (k.cls == 2 && posted) || (k.cls == 3 && posted && !k.ro)) && k.tail && allQueued k && fcOk p k d then
      some k
    else expScan p d rest (k.cls :: seen) (posted || k.cls == 1)

/-- The packet of an EXP queue that may go: the oldest eligible head of its four lists (R401). -/
def expHead (p : Nat) (ks : List Packet) (d : Dev) : Option Packet :=
  expScan p d ks [] false

/-- The packet whose unit a queue may send, if the queue is eligible (R193). -/
def eligible (p q : Nat) (d : Dev) : Option Packet :=
  let ks := (queueOf p q d).filterMap (fun id => pktOf id d)
  let open_ := fun k : Packet => bitOf (rd Reg.SCH_GATE_STATE p d) q || (schedOf p d).gated == some k.id
  let shp := shaperOk p q d && (q == 0 || shaperOk p 19 d)
  match pers (p / 8) d with
  | 1 => if shp then expHead p ks d else none
  | 2 =>
    match ks with
    | k :: _ => if shp && open_ k && gateStartOk p q k d && sflOk p k d then some k else none
    | [] => none
  | 3 =>
    match ks with
    | k :: _ =>
      if shp && open_ k && gateStartOk p q k d && k.tail && allQueued k && rd Reg.ETH_PCS_UP p d == 1
          && !bitOf (portOf p d).paused (egressPrio p k d) then some k else none
    | [] => none
  | _ => none

/-- The queue that is served (R194): a gated packet in progress, then q0, q1, q2, then the weighted group. -/
def chooseQueue (p : Nat) (el : List (Nat × Packet)) (d : Dev) : Option (Nat × Packet) :=
  let s := schedOf p d
  match el.find? (fun e => s.gated == some e.2.id) with
  | some e => some e
  | none =>
    match el.find? (fun e => decide (e.1 < 3)) with
    | some e => some e
    | none =>
      match smallestTag s.tags (el.map Prod.fst) with
      | some q => el.find? (fun e => e.1 == q)
      | none => none

/-! ## Sending a unit -/

/-- The bytes of a packet as they leave by SFL: HOPS, COLOUR and CE in the header (R210, R220). -/
def sflBytes (k : Packet) : List Byte :=
  if k.bare then k.bytes
  else
    let h := k.hdr |> hput .HOPS (hget .HOPS k.hdr + 1) |> hput .COLOUR k.colour |> (if k.mark then hput .CE 1 else id)
    beBytes 16 h ++ k.bytes.drop 16

/-- Counts what a queue has sent (R213). -/
def countUnit (p q l : Nat) (tail : Bool) (d : Dev) : Dev :=
  let r := smGet (fun _ => 0) (schedOf p d).rest q + l
  d |> updSched p (fun s => { s with rest := smPut s.rest q (r % 64) })
    |> addI Reg.SCH_UNITS p q (r / 64) |> onlyIf tail (addI Reg.SCH_PKTS p q 1)

/-- The cells read are freed up to `n`. -/
def readCells (k : Packet) (n : Nat) (d : Dev) : Dev :=
  d |> forEach ((k.cells.take n).drop k.freed) (countRead (egIsland k.eg)) |> freeCells k.id n

/-- A packet has left: its copies for egress sessions are made and it leaves the core (R156, R181). -/
def finishPkt (k : Packet) (d : Dev) : Dev :=
  d |> mirrorPkt k.id true |> readCells k k.cells.length |> dropPkt k.id

/-- The frame or TLP on the wire of an Ethernet or EXP port has been sent when the port chooses its next unit (DEDUCED, log entry 192). -/
def wireDone (p : Nat) (d : Dev) : Dev :=
  if pers (p / 8) d = 2 then d else forEach (d.net.pkts.filter (fun q => q.eg == p && q.begun)) finishPkt d

/-- One data flit leaves an SFL port (R125, R132, R135, R139); a packet that failed ends with a tail flit with POISON = 1
(R179). -/
def sendFlit (p q : Nat) (k : Packet) (d : Dev) : Dev :=
  let out := sflBytes k
  let chunk := (out.drop k.sent).take (flitPayload (sflRate p d))
  let tail := k.poison || (k.tail && decide (k.sent + chunk.length = out.length))
  let seq := rd Reg.LNK_TX_SEQ p d
  let head := !k.begun
  let k1 := { k with begun := true, sent := k.sent + chunk.length, txFlits := k.txFlits + 1, fillWait := false,
                     beginAt := if k.begun then k.beginAt else stampOf d }
  let gated := gatesOn p d && timeValid d
  let copy : FlitCopy := ⟨seq, k.vlane, k.id, head, tail, k.poison, chunk⟩
  d |> sendData p copy false
    |> wr Reg.LNK_TX_SEQ p ((seq + 1) % 16384) |> bump Reg.LNK_FLIT_TX p
    |> updPort p (fun r => { r with
          consumed := smPut r.consumed k.vlane ((smGet (fun _ => 0) r.consumed k.vlane + 1) % 4096)
          copies := r.copies ++ [copy] })
    |> updPkt k.id (fun _ => k1)
    |> updSched p (fun s => { s with gated := if tail then (if s.gated = some k.id then none else s.gated)
                                              else if gated then some k.id else s.gated })
    |> countUnit p q 64 tail
    |> (if tail then (fun d => d |> onlyIf k.poison (bump Reg.LNK_POISON_TX p) |> finishPkt k1)
        else readCells k1 (k1.sent / 256))

/-- One frame begins to leave an Ethernet port, without network header and shim (R148, R221). -/
def sendFrame (p q : Nat) (k : Packet) (d : Dev) : Dev :=
  let fr := if k.bare then k.bytes else k.bytes.drop 20
  let k1 := { k with begun := true, sent := k.bytes.length, beginAt := stampOf d }
  d |> emit .packet [p, q, k.id, fr.length, bnat k.poison] fr |> bump Reg.ETH_FRAMES_TX p
    |> updPkt k.id (fun _ => k1) |> countUnit p q (fr.length + 20) true

/-- One TLP begins to leave an EXP port and takes its flow-control credit (R193, R401). -/
def sendTlp (p q : Nat) (k : Packet) (d : Dev) : Dev :=
  let k1 := { k with begun := true, sent := k.bytes.length, beginAt := stampOf d }
  d |> emit .packet [p, q, k.id, k.bytes.length, bnat k.poison] k.bytes
    |> (fun d => match expIdx p d with | some x => bump Reg.EXP_TLP_TX x d | none => d)
    |> updPort p (fun r => { r with
          fcHdrUsed := smPut r.fcHdrUsed k.cls (smGet (fun _ => 0) r.fcHdrUsed k.cls + 1)
          fcDataUsed := smPut r.fcDataUsed k.cls (smGet (fun _ => 0) r.fcDataUsed k.cls + (k.dlen + 15) / 16) })
    |> updPkt k.id (fun _ => k1) |> countUnit p q (k.bytes.length + 8) true

/-- The unit charge L (R196). -/
def unitCharge (p : Nat) (k : Packet) (d : Dev) : Nat :=
  match pers (p / 8) d with
  | 2 => 64
  | 3 => (if k.bare then k.bytes.length else k.bytes.length - 20) + 20
  | _ => k.bytes.length + 8

/-- Waits that the decision finds: a head in progress short of FILL (R180), a head held back by R205, new flits stalled at the
replay cap (R139). -/
def noteWaits (p : Nat) (d : Dev) : Dev :=
  let heads := (List.range 19).filterMap (fun q => ((queueOf p q d).head?.bind (fun id => pktOf id d)).map (fun k => (q, k)))
  let capped := pers (p / 8) d == 2 && portUp p d && decide (rd Reg.LNK_REPLAY_CAP p d ≤ (portOf p d).copies.length)
    && !heads.isEmpty
  d |> forEach heads (fun e d => d
        |> onlyIf (pers (p / 8) d == 2 && e.2.begun && !e.2.poison && !fillOk p e.2 d && !e.2.fillWait)
            (fun d => d |> bump Reg.ISL_CT_WAIT (p / 8) |> updPkt e.2.id (fun k => { k with fillWait := true }))
        |> onlyIf (pers (p / 8) d != 1 && bitOf (rd Reg.SCH_GATE_STATE p d) e.1 && !gateStartOk p e.1 e.2 d && !e.2.gateHeld)
            (fun d => d |> bump Reg.SCH_GATE_HOLD p |> updPkt e.2.id (fun k => { k with gateHeld := true })))
    |> onlyIf (capped && (portOf p d).stallAt.isNone) (updPort p (fun r => { r with stallAt := some d.th.localNs }))

/-- The port chooses its next unit, sends it and charges it (R193 to R199); a queue that has become eligible starts at V. -/
def nextUnit (p : Nat) (d : Dev) : Dev :=
  let el := (List.range 19).filterMap (fun q => (eligible p q d).map (fun k => (q, k)))
  let s := schedOf p d
  let mask := el.foldl (fun m e => setBit m e.1) 0
  let tags := el.foldl (fun t e => if 3 ≤ e.1 ∧ bitOf s.elig e.1 = false then smPut t e.1 s.v else t) s.tags
  let d1 := d |> noteWaits p |> updSched p (fun x => { x with tags := tags, elig := mask })
  match chooseQueue p el d1 with
  | none => if pers (p / 8) d = 2 ∧ portUp p d then sendLink p 0 0 [] [] d1 else d1
  | some (q, k) =>
    let l := unitCharge p k d1
    let sq := smGet (fun _ => 0) tags q
    let w := max (rdI Reg.SCH_WEIGHT p q d1) 1
    let d2 := d1 |> onlyIf (decide (3 ≤ q)) (fun d => d
        |> updSched p (fun x => { x with v := sq, tags := smPut x.tags q ((sq + (l * 256 + w - 1) / w) % 2 ^ 48) })
        |> wr2 Reg.SCH_VTIME_LO Reg.SCH_VTIME_HI p 0 sq)
      |> chargeShaper p q l |> onlyIf (q != 0) (chargeShaper p 19 l)
    match pers (p / 8) d with
    | 2 => sendFlit p q k d2
    | 3 => sendFrame p q k d2
    | _ => sendTlp p q k d2

/-- The port's unit has been sent, and it chooses the next (R193). -/
def scheduleDecision (p : Nat) (d : Dev) : Dev := d |> wireDone p |> nextUnit p

/-- The calendar wheel of an island: every entry that has come due is re-evaluated (R199). -/
def wheelSlotDue (i : Nat) (d : Dev) : Dev :=
  forEach (List.range 8) (fun j d => forEach (List.range 20) (wheelDue (8 * i + j)) d) d

/-! ## Meter entries (R208, R214) -/

/-- The meter that MTR_IDX of a bank names (R207). -/
def idxMeter (bank : Nat) (d : Dev) : Nat := 4096 * bank + rd Reg.MTR_IDX bank d

/-- READ copies an entry into the data words (R214). -/
def mtrRead (bank : Nat) (d : Dev) : Dev :=
  let x := meterOf (idxMeter bank d) d
  d |> setWord (regAddr 0x0F bank 0x110) (BitVec.ofNat 32 (x.w0 % 2 ^ 28)) |> wr Reg.MTR_PIR bank x.pir
    |> wr Reg.MTR_CBS bank x.cbs |> wr Reg.MTR_PBS bank x.pbs |> wr Reg.MTR_GREEN_PKTS bank x.green
    |> wr Reg.MTR_YELLOW_PKTS bank x.yellow |> wr Reg.MTR_RED_PKTS bank x.red |> wr Reg.MTR_DROP_PKTS bank x.drop

/-- READ_CLR: as READ, then the entry's counters are cleared (R214). -/
def mtrReadClr (bank : Nat) (d : Dev) : Dev :=
  d |> mtrRead bank |> putMeter (idxMeter bank d)
    { meterOf (idxMeter bank d) d with green := 0, yellow := 0, red := 0, drop := 0 }

/-- The data words hold an entry within the ranges of R208; action 3 is refused (R214). -/
def mtrOk (bank : Nat) (d : Dev) : Bool :=
  decide (rd Reg.MTR_CIR bank d ≤ rd Reg.MTR_PIR bank d ∧ rd Reg.MTR_PIR bank d ≤ 4000000
    ∧ 64 ≤ rd Reg.MTR_CBS bank d ∧ 64 ≤ rd Reg.MTR_PBS bank d
    ∧ rd Reg.MTR_ACT_YEL bank d ≠ 3 ∧ rd Reg.MTR_ACT_RED bank d ≠ 3)

/-- WRITE checks an entry and puts it in force with full buckets (R208, R214). -/
def mtrWrite (bank : Nat) (val : Word) (d : Dev) : Dev :=
  if mtrOk bank d then
    let m := idxMeter bank d
    let x := meterOf m d
    let cbs := rd Reg.MTR_CBS bank d
    let pbs := rd Reg.MTR_PBS bank d
    putMeter m { x with
      w0 := (wordAt (regAddr 0x0F bank 0x110) d).toNat % 2 ^ 28, pir := rd Reg.MTR_PIR bank d, cbs := cbs, pbs := pbs
      tc := cbs * 8000, tp := pbs * 8000, tAt := d.th.localNs } d
  else cfgErr 0x0F bank 0x104 Cfg.CFG_MTR_RANGE val d

/-! ## The commands -/

/-- SCHEDULE_DECISION (R194). -/
def execScheduleDecision (port : Nat) (s : State) : Out := onNet (scheduleDecision port) s

/-- WHEEL_SLOT_DUE (R199). -/
def execWheelSlotDue (isl : Nat) (s : State) : Out := onNet (wheelSlotDue isl) s

/-- GATE_TRANSITION (R202). -/
def execGateTransition (port : Nat) (s : State) : Out := onNet (gateTransition port) s

/-- GATE_SWITCH_REQUEST (R204). -/
def execGateSwitchRequest (port : Nat) (s : State) : Out := onNet (trigger 0x0E port 0x280 2 (switchTrig port)) s

/-- MTR_READ (R214). -/
def execMtrRead (bank : Nat) (s : State) : Out := onNet (trigger 0x0F bank 0x104 0 (fun _ => mtrRead bank)) s

/-- MTR_WRITE (R214). -/
def execMtrWrite (bank : Nat) (s : State) : Out := onNet (trigger 0x0F bank 0x104 1 (mtrWrite bank)) s

/-- MTR_READ_CLR (R214). -/
def execMtrReadClr (bank : Nat) (s : State) : Out := onNet (trigger 0x0F bank 0x104 2 (fun _ => mtrReadClr bank)) s

end Sys2Proof.Machine
end

