-- ==== Sys2Proof/Machine/Write.lean ====
section
/-!
DEFINITION. Register writes (R34, R37, R38, R40, R41, R44, R46 to R48, R57, R58, R86, R114): what a word takes, what is refused, and what a
write sets off; and block soft reset (R47).
-/

namespace Sys2Proof.Machine

/-! ## Fields of a word -/

/-- The fields that a word holds. -/
def fieldsAt (ty off : Nat) : List Fld := (fieldsOf ty).filter (fun f => (fldIdx f off).isSome)

/-- A word holds a staged field, at its own or its shadow offset. -/
def holdsStaged (ty off : Nat) : Bool := (fieldsAt ty off).any (fun f => f.acc == .rwc || f.acc == .staged)

/-- The bits of a word that a write may change: those that apply on the port (R151), not WEIGHT of q0 to q2 (R213), not the low bits of a
base (R448, R468). -/
def writeMask (ty inst off : Nat) (d : Dev) : Word :=
  match ty with
  | 0x03 => if off = 0x160 then ~~~0xFFF else BitVec.allOnes 32
  | 0x0A => lnkMask inst (if 0x500 ≤ off ∧ off < 0x800 then off - 0x400 else off) d
  | 0x0E => if [0x100, 0x110, 0x120, 0x500, 0x510, 0x520].contains off then ~~~0xFF else BitVec.allOnes 32
  | 0x1C => if 0x100 ≤ off ∧ [0x20, 0x30, 0x40].contains ((off - 0x100) % 0xF0) = true then ~~~0xFFF else BitVec.allOnes 32
  | _ => BitVec.allOnes 32

/-- A value as a word takes it: masked bits keep what they hold; INJ_RATE 1 to 7 reads as 0 (R117). -/
def takenWord (ty inst off : Nat) (val : Word) (d : Dev) : Word :=
  let m := writeMask ty inst off d
  let v := (val &&& m) ||| (wordAt (regAddr ty inst off) d &&& ~~~m)
  if ty = 0x08 ∧ off = 0x144 ∧ getBits v 8 5 < 8 then setBits v 8 5 0 else v

/-- The staged values that a write of a word gives, at own or shadow offsets (R44), and the mark that they were written (R201). -/
def storeStaged (ty inst off : Nat) (val : Word) (d : Dev) : Dev :=
  let m := writeMask ty inst off d
  let fs := (fieldsAt ty off).filter (fun f => (f.acc == .rwc || f.acc == .staged) && getBits m f.lo f.wd != 0)
  let put := fun (f : Fld) d => match fldIdx f off with
    | some i => wrI (if f.acc = .rwc then f.shadow else f) inst i (getBits val f.lo f.wd) d
    | none => d
  let a := regAddr ty inst (if fs.any (fun f => f.acc == .rwc) then off + 0x400 else off)
  if fs.isEmpty then d
  else { forEach fs put d with mg := { d.mg with touched := if d.mg.touched.contains a then d.mg.touched else d.mg.touched ++ [a] } }

/-- Bits written 1 in w1c fields are cleared. -/
def storeClear (ty inst off : Nat) (val : Word) (d : Dev) : Dev :=
  forEach ((fieldsAt ty off).filter (fun f => f.acc == .w1c)) (fun f d => match fldIdx f off with
    | some i => wrI f inst i (rdI f inst i d &&& (2 ^ f.wd - 1 - getBits val f.lo f.wd)) d
    | none => d) d

/-- VH and PASID of a slice are written while it is FREE only (R448). -/
def storeRw (ty inst off : Nat) (val : Word) (d : Dev) : Dev :=
  if ty = 0x1C ∧ (off - 0x100) % 0xF0 = 0 ∧ slState (16 * inst + (off - 0x100) / 0xF0) d ≠ 0 then d else storePlain ty inst off val d

/-- Every field of a word takes what the write gives it. -/
def storeAll (ty inst off : Nat) (val : Word) (d : Dev) : Dev :=
  d |> storeRw ty inst off (takenWord ty inst off val d) |> storeStaged ty inst off (takenWord ty inst off val d) |> storeClear ty inst off val

/-! ## The common header (R37, R38, R46 to R48) -/

/-- The code that a bit of PG_EVT_RAW carries (R565). -/
def bitCode (ty bit : Nat) : Nat := match Ev.all.find? (fun e => e.ty == ty && e.bit == bit) with | some e => e.code | none => plainCode ty bit

/-- A write of PG_EVT_INJ: each bit rises as if its source had fired, and is marked as injected (R38). -/
def injectEvents (ty inst : Nat) (val : Word) (d : Dev) : Dev :=
  forEach ((List.range 32).filter (fun b => val.getLsbD b))
    (fun b d => logAlarms d (rise ty inst b (bitCode ty b) 0 0 true false d)) d

/-- Fields that show what lies outside their block, which its soft reset keeps (R71; which they are is DEDUCED, log entry 87): start-up, its
banks and the temperature in DEV; the domains and PLINK in PWR; the bank that runs and the identity in SEC; a port's state, which its link
changes; the ports that are up in RTE; cells held by packets in HBR; the wire switches in BRG (R324); what the islands and the VHs make of an
expansion port (R394, R396, R399). -/
def outsideFields : List Fld :=
  [Reg.DEV_STATE, Reg.DEV_BANK, Reg.DEV_BANK_PREF, Reg.DEV_FALLBACK, Reg.DEV_TABLE_COPY, Reg.DEV_TABLE_DEFAULT, Reg.DEV_IMAGE_APPLIED,
   Reg.DEV_BOOT_TIME, Reg.DEV_WIPE_BUSY, Reg.DEV_WIPE_DONE, Reg.DEV_WIPE_FAIL, Reg.DEV_WIPE_TIME, Reg.DEV_SLOT_ACTIVE, Reg.DEV_THERM_STATE,
   Reg.DEV_TJ_HOT, Reg.PWR_PLINK_FAILED, Reg.PWR_STATE, Reg.PWR_TARGET, Reg.PWR_PENDING, Reg.PWR_PEND_STATE, Reg.PWR_THROTTLE,
   Reg.SEC_RUN_RB, Reg.SEC_RUN_KEY, Reg.SEC_RUN_FW_BL, Reg.SEC_RUN_VERSION_LO, Reg.SEC_RUN_VERSION_HI, Reg.SEC_BANK_A_FAIL]
  ++ [Reg.SEC_BANK_A_RB, Reg.SEC_BANK_B_FAIL, Reg.SEC_BANK_B_RB, Reg.SEC_IDENT_PUB, Reg.SEC_RUN_DIGEST, Reg.LNK_LSTATE, Reg.STR_STATE,
   Reg.STR_FAIL_CAUSE, Reg.STR_FAIL_ISLAND, Reg.HBR_SEG_FREE, Reg.HBR_SEG_STATE, Reg.HBR_COLL_RSV, Reg.RTE_PORT_UP, Reg.BRG_WIRE_BUSY,
   Reg.EXP_PORT, Reg.EXP_IDX_VALID, Reg.EXP_BOUND_CVH, Reg.EXP_BOUND_LD, Reg.EXP_BOUND, Reg.VHC_VH_EN, Reg.VHC_USP, Reg.FUN_PRESENT]

/-- The soft reset of a block returns these fields to their Warm values: all but the staged sets, which follow by a swap, EN of a port, strait
or EXP port, which its own operation writes, and what lies outside the block. -/
def softFields (ty : Nat) : List Fld :=
  (ownRows.getD ty []).filter (fun f => !(f.acc == .rwc) && !([Reg.LNK_EN, Reg.STR_EN, Reg.EXP_EN].contains f) && !outsideFields.contains f)

/-- The header of a page at its Warm values; LOCK is cleared by a warm or cold reset only (R37). -/
def softHeader (ty inst : Nat) (d : Dev) : Dev :=
  d |> hwr Reg.PG_EVT_EN ty inst 0 |> hwr Reg.PG_EVT_PEND ty inst 0 |> hwr Reg.PG_VALID ty inst 0 |> hwr Reg.PG_TS_LOCAL ty inst 0
    |> hwr Reg.PG_WORD ty inst 0 |> hwr Reg.PG_CODE ty inst 0 |> hwr Reg.PG_ERR_TS ty inst 0
    |> hwr Reg.PG_STAT_COMMIT_SEQ ty inst 0 |> hwr Reg.PG_STAT_COMMIT_REFUSED ty inst 0

/-- The staged set of a page takes its Warm values and goes into force (R47). -/
def softStaged (ty inst : Nat) (d : Dev) : Dev :=
  let rows := stagedRows ty
  let put := fun (f : Fld) d => forEach (elemsOf f) (fun i d => match warmValue f ty inst i d with | some v => wrI f.shadow inst i v d | none => d) d
  if rows.isEmpty then d
  else
    let x := d |> forEach rows put |> stagedSwap ty inst |> stagedOut ty inst
    { x with mg := { x.mg with touched := x.mg.touched.filter (fun a => !(addrType a == ty && addrInst a == inst)) } }

/-- The Warm value of a one-bit field. -/
def warmBit (f : Fld) (ty inst : Nat) (d : Dev) : Nat := match warmValue f ty inst 0 d with | some v => v | none => rd f inst d

/-- A port starts again after its page's soft reset. -/
def portAgain (p : Nat) (d : Dev) : Dev :=
  d |> (fun d => if portUp p d && pers (p / 8) d == 2 then declareDown p 4 d else d)
    |> (fun d => if pers (p / 8) d = 2 ∧ rd Reg.LNK_EN p d = 0 then disablePort p d
        else onlyIf (rd Reg.ISL_TEST (p / 8) d == 0 && rd Reg.LNK_LSTATE p d != 4) (startBringup p) d)

/-- A slice ends with its page's soft reset: its operations end, its queue pairs and ranges go, and it is FREE (as R441 and R442 end one). -/
def softSlice (n : Nat) (d : Dev) : Dev :=
  if slState n d = slFree then d
  else
    let v := slRd Reg.SLC_VH n d
    d |> quarantine (fun r => r.slice == n) |> endOps n 0x0A 7 true |> forEach (sliceWins n d) (fun w => latchWin w 5 0 false)
      |> forEach (sliceQps n d) (fun q => putQp q none) |> sliceReset n true
      |> updEng (fun e => { e with ranges := e.ranges.filter (fun r => bitsOf r.2.1 0 12 != n || !bitOf r.2.1 16) })
      |> updSlice n (fun _ => Slice.init) |> slWr Reg.SLC_STATE n slFree |> countSlices v

/-- The bindings of a VH end with its page's soft reset, as UNBIND ends one (R399). -/
def softVh (v : Nat) (d : Dev) : Dev :=
  d |> forEach (dspsOf v d) (fun n d => match dspAt v n d with
        | some (m, k, ld) => if isSelf m d then d |> isolate k 3 |> unbindPort k ld (vhNumber v d) else emit .comp [m, vhNumber v d, 21, k, ld] [] d
        | none => d)
    |> updSw (fun s => { s with maps := s.maps.filter (fun e => e.1 / 32 != v) })
    |> onlyIf (v == 0) (updSw (fun s => { s with pws := [], pwFence := [] }))

/-- A function's configuration returns to its defaults with its page's soft reset, as a hot reset leaves it (R426). -/
def softFun (v : Nat) (d : Dev) : Dev :=
  d |> stopFunction v
    |> updFun v (fun f => { FunCfg.init with cfg := f.cfg.filter (fun e => stickyCfg e.1), aper := f.aper })
    |> updEng (fun e => { e with atc := e.atc.filter (fun x => x.vh != v) })

/-- The groups of a collective unit end with its page's soft reset, and their reservations (R362). -/
def softUnit (u : Nat) (d : Dev) : Dev :=
  d |> wr Reg.HBR_COLL_RSV 0 (rd Reg.HBR_COLL_RSV 0 d - rd Reg.CLE_RSV_CELLS u d)
    |> updColl (fun c => { c with groups := c.groups.filter (fun e => unitOf e.1 != u) })

/-- What the engine block of a page holds beside its registers ends with the page's soft reset. -/
def softEng (ty inst : Nat) (e : Eng) : Eng :=
  match ty with
  | 0x11 => { e with cached := e.cached.filter (fun q => q % 8 != inst), fair := smErase e.fair inst }
  | 0x12 => { e with parked := [], fetches := [], pinWait := [], cqCached := [], lagoonFull := false, withheld := 0
                     path := e.path.drop (fun _ => true) }
  | 0x13 => { e with retiring := [] }
  | 0x14 => { e with wins := [] }
  | 0x15 => { e with brgWins := [], brg := [], grps := [], brgReads := [], pf := [] }
  | 0x16 => { e with maps := [], mapPend := [] }
  | 0x17 => { e with quads := e.quads.filter (fun q => q.1 != inst) }
  | _ => e

/-- The image taken in part and the snapshot end with the device page's soft reset. -/
def softImages (d : Dev) : Dev := { d with boot := { d.boot with chunks := [], snapshot := none } }

/-- The mailbox command ends with the device page's soft reset. -/
def softMailbox (d : Dev) : Dev :=
  { d with mg := { d.mg with mbxGo := false, running := d.mg.running.filter (fun r => r.1 != .mailbox) } }

/-- The copies and records in flight end with the mirror page's soft reset. -/
def softMirror (d : Dev) : Dev := { d with net := { d.net with sample := [], copies := [], records := [] } }

/-- The composite membership ends with the page's soft reset; the preference stays. -/
def softMember (d : Dev) : Dev := { d with cmp := { Composite.init with prefId := d.cmp.prefId } }

/-- What a block holds beside its registers ends with its soft reset (R47; what each block's is DEDUCED, log entry 87). -/
def softStop (ty inst : Nat) (d : Dev) : Dev :=
  match ty with
  | 0x00 => d |> softImages |> softMailbox
  | 0x04 => updSec (fun _ => Sec.init) d
  | 0x18 => softUnit inst d
  | 0x1A => softVh inst d
  | 0x1B => softFun inst d
  | 0x1C => forEach ((List.range 16).map (fun k => 16 * inst + k)) softSlice d
  | 0x1D => softMirror d
  | 0x1F => softMember d
  | _ => updEng (softEng ty inst) d

/-- The logic of a block starts again (R47). -/
def softLogic (ty inst : Nat) (d : Dev) : Dev :=
  match ty with
  | 0x02 => d |> timeElect |> ppsLow
  | 0x03 => d |> updTh (fun t => { t with hzn := [] }) |> swapPends
  | 0x06 => { d with chk := [] }
  | 0x08 => match portOfLane inst d with | some p => d |> eyeAbort inst |> portAgain p | none => eyeAbort inst d
  | 0x09 => onlyIf (decide (inst < 18)) (islandReset inst) d
  | 0x0A => d |> writePortEn inst (warmBit Reg.LNK_EN 0x0A inst d) 0 |> portAgain inst
  | 0x0B => d |> ethPcsChange inst false false [] [] |> portAgain inst
  | 0x0C => writeStrEn inst 1 0 d
  | 0x0E => schedReset inst d
  | 0x13 => xltInit d
  | 0x17 => wr Reg.MTE_UX_POOL_FREE inst (poolFree inst d) d
  | 0x19 => expCtl inst (BitVec.ofNat 32 (warmBit Reg.EXP_EN 0x19 inst d)) d
  | 0x1A => refreshCvh d
  | 0x1B => mirrorCfg inst d
  | 0x1F => d |> updSw (fun s => { s with tx := [], rx := [], cvhs := [], lids := [], unreach := [] }) |> refreshCvh
      |> forEach ((List.range 144).filter (fun p => toDx7 p d)) rollOn
  | _ => d

/-- A write of several parts of which one was refused leaves the word's fields as they were (R13). -/
def unlessRefused (ty inst off : Nat) (before after : Dev) : Dev :=
  if after.mg.refused = before.mg.refused then after
  else after |> setWord (regAddr ty inst off) (wordAt (regAddr ty inst off) before)
    |> onlyIf (holdsStaged ty off) (setWord (regAddr ty inst (off + 0x400)) (wordAt (regAddr ty inst (off + 0x400)) before))

/-- SOFT_RST: refused while a commit runs, while ENABLE is 1 and while the domain is not ON (R47, R49). -/
def softStart (ty inst : Nat) (val : Word) (d : Dev) : Dev :=
  if commitBusy ty inst d then cfgErr ty inst 8 Cfg.CFG_COMMIT_BUSY val d
  else if hrd Reg.PG_CTRL_ENABLE ty inst d = 1 then cfgErr ty inst 8 Cfg.CFG_BLOCK_ENABLED val d
  else if domOn (domainOf ty inst) d = false then cfgErr ty inst 8 Cfg.CFG_DOMAIN_NOT_ON val d
  else if inSoftReset ty inst d then d
  else
    { d with mg := { d.mg with resets := d.mg.resets ++ [(ty, inst)] } }
      |> softStop ty inst |> softStaged ty inst |> forEach (softFields ty) (warmField ty inst) |> softHeader ty inst |> softLogic ty inst

/-- A soft reset completes: RST_BUSY clears and RESET_DONE is raised. -/
def softDone (ty inst : Nat) (d : Dev) : Dev :=
  if inSoftReset ty inst d then
    { d with mg := { d.mg with resets := d.mg.resets.filter (fun r => r != (ty, inst)) } } |> raiseResetDone ty inst
  else d

/-- PG_CTRL: refused whole where LOCK or a commit in progress forbids any part of it; ENABLE first, LOCK last (R46, R48, R49; the order
between DEDUCED, log entry 88). -/
def ctrlWrite (ty inst : Nat) (val : Word) (d : Dev) : Dev :=
  let en := bnat (val.getLsbD 0)
  let cmd := val.getLsbD 1 || val.getLsbD 2 || val.getLsbD 4
  if hrd Reg.PG_CTRL_LOCK ty inst d = 1 ∧ (cmd = true ∨ en ≠ hrd Reg.PG_CTRL_ENABLE ty inst d) then cfgErr ty inst 8 Cfg.CFG_LOCKED val d
  else if commitBusy ty inst d && cmd then cfgErr ty inst 8 Cfg.CFG_COMMIT_BUSY val d
  else if val.getLsbD 1 && en == 1 then cfgErr ty inst 8 Cfg.CFG_BLOCK_ENABLED val d
  else
    d |> hwr Reg.PG_CTRL_ENABLE ty inst en
      |> onlyIf (val.getLsbD 4) (discardGo ty inst val)
      |> onlyIf (val.getLsbD 2) (commitGo ty inst val)
      |> onlyIf (val.getLsbD 1) (softStart ty inst val)
      |> onlyIf (val.getLsbD 3) (hwr Reg.PG_CTRL_LOCK ty inst 1)

/-- Clearing VALID clears PG_ERR_FIRST and arms it again; PG_ERR_TS keeps the time it holds (R37, R39). -/
def errClear (ty inst : Nat) (d : Dev) : Dev :=
  d |> hwr Reg.PG_VALID ty inst 0 |> hwr Reg.PG_TS_LOCAL ty inst 0 |> hwr Reg.PG_WORD ty inst 0 |> hwr Reg.PG_CODE ty inst 0

/-- A write to the header; the event registers and VALID stay writable under LOCK (R46). -/
def headerWrite (ty inst off : Nat) (val : Word) (d : Dev) : Dev :=
  match off with
  | 0x008 => ctrlWrite ty inst val d
  | 0x014 => hwr Reg.PG_EVT_EN ty inst val.toNat d
  | 0x018 => storeClear ty inst 0x018 val d
  | 0x01C => injectEvents ty inst val d
  | 0x020 => onlyIf (val.getLsbD 31) (errClear ty inst) d
  | _ => d

/-! ## Words of the DEV, LANE and other pages with a rule of their own -/

/-- BEHAVIOUR_LEVEL (R5, R86). -/
def levelWrite (val : Word) (d : Dev) : Dev :=
  let v := bitsOf val.toNat 0 8
  if v = 0 ∨ rd Reg.DEV_BL_MAX 0 d < v then cfgErr 0x00 0 0x104 Cfg.BL_UNSUPPORTED val d
  else if blLockOk d then wr Reg.DEV_BEHAVIOUR_LEVEL 0 v d
  else cfgErr 0x00 0 0x104 Cfg.CFG_BL_LIVE val d

/-- MBX_CTRL: DONE is cleared by a 1; GO starts the frame in DEV_MBX_DATA (R57), which is answered with BUSY while a command runs (R55). -/
def mbxWrite (val : Word) (d : Dev) : Dev :=
  d |> storeClear 0x00 0 0x140 val
    |> onlyIf (val.getLsbD 0) (fun d => { d with mg := { d.mg with mbxGo := true } })

/-- A lane's test word: a generator, a checker or a loop is enabled only while the port is disabled, or the island of an EXP or ETH port is in
test (R114). While a test runs BSTATE reads TEST. -/
def testMayStart (n : Nat) (d : Dev) : Bool :=
  let free := match portOfLane n d with | some p => pers (p / 8) d == 1 || rd Reg.LNK_EN p d == 0 | none => true
  free && (pers (n / 9) d != 1 && pers (n / 9) d != 3 || rd Reg.ISL_TEST (n / 9) d == 1)

/-- A test runs on a lane. -/
def testRuns (n : Nat) (d : Dev) : Bool := rd Reg.LANE_GEN_EN n d == 1 || rd Reg.LANE_CHK_EN n d == 1 || rd Reg.LANE_LOOP n d != 0

/-- The checker of a lane locks as it goes on: on the lane's own pattern where the lane is looped to itself; on what a partner sends the spec
says nothing, a free value (R112, R113; log entry 179). -/
def chkLocks (n : Nat) (d : Dev) : Dev :=
  if rd Reg.LANE_LOOP n d = 1 ∨ rd Reg.LANE_LOOP n d = 2 then
    wr Reg.LANE_CHK_LOCK n (bnat (rd Reg.LANE_GEN_EN n d == 1 && rd Reg.LANE_GEN_PAT n d == rd Reg.LANE_CHK_PAT n d)) d
  else d |> wr Reg.LANE_CHK_LOCK n (free 1 d) |> takeFree

/-- What a lane in test sends (R112, R113): nothing under the near-end serial loop, the symbols received under the far-end loop, else the
generator's pattern with its inversion and error rate, or nothing. -/
def testTx (n : Nat) (d : Dev) : List Nat :=
  if rd Reg.LANE_LOOP n d = 1 then [n, 0]
  else if rd Reg.LANE_LOOP n d = 3 then [n, 5]
  else if rd Reg.LANE_GEN_EN n d = 1 then [n, 2, rd Reg.LANE_GEN_PAT n d, rd Reg.LANE_INV n d, rd Reg.LANE_INJ_RATE n d]
  else [n, 0]

/-- The mode a lane in test runs: that of its port as configured (R93). -/
def testMode (n : Nat) (d : Dev) : Nat := match portOfLane n d with | some p => laneMode p d | none => 0

/-- LANE 0x140. -/
def laneTest (n : Nat) (val : Word) (d : Dev) : Dev :=
  let x := storeAll 0x08 n 0x140 val d
  let more := (rd Reg.LANE_GEN_EN n x == 1 && rd Reg.LANE_GEN_EN n d == 0) || (rd Reg.LANE_CHK_EN n x == 1 && rd Reg.LANE_CHK_EN n d == 0)
    || (rd Reg.LANE_LOOP n x != 0 && rd Reg.LANE_LOOP n x != rd Reg.LANE_LOOP n d)
  if more && !testMayStart n d then cfgErr 0x08 n 0x140 Cfg.CFG_LANE_LIVE val d
  else
    x |> onlyIf (testRuns n x && !testRuns n d) (fun x => x |> wr Reg.LANE_BSTATE n 8 |> wr Reg.LANE_MODE n (testMode n x))
      |> onlyIf (!testRuns n x && testRuns n d) (fun d => d |> eyeAbort n |> wr Reg.LANE_BSTATE n 0 |> wr Reg.LANE_MODE n 0)
      |> onlyIf (rd Reg.LANE_CHK_EN n x == 0) (wr Reg.LANE_CHK_LOCK n 0)
      |> onlyIf (rd Reg.LANE_CHK_EN n x == 1 && rd Reg.LANE_CHK_EN n d == 0) (chkLocks n)
      |> onlyIf (testTx n x != testTx n d) (emit .laneTx (testTx n x) [])

/-- LNK 0x104: EN, which may be refused, then FWD and WAKE_DET, LRESET and WAKE_SEND (R13). -/
def linkCtl (p : Nat) (val : Word) (d : Dev) : Dev :=
  let v := takenWord 0x0A p 0x104 val d
  let x := writePortEn p (getBits v 0 1) val d
  if x.mg.refused ≠ d.mg.refused then x
  else x |> wr Reg.LNK_FWD p (getBits v 1 1) |> wr Reg.LNK_WAKE_DET p (getBits v 4 1)
    |> onlyIf (pers (p / 8) d == 2 && val.getLsbD 2) (lresetTrig p) |> onlyIf (pers (p / 8) d == 2 && val.getLsbD 3) (wakeSendTrig p)

/-! ## What a write sets off -/

/-- The actions of the w1s bits of a word, by bit. -/
def trigsOf (aux : Aux) (ty inst off : Nat) (val : Word) : List (Nat × (Dev → Dev)) :=
  match ty with
  | 0x01 => if off = 0x104 then [(2, switchNow), (3, tripClr 0), (4, tripClr 1)] else []
  | 0x02 => match off with | 0x134 => [(0, setGo val)] | 0x160 => [(0, phaseLoad)] | _ => []
  | 0x03 => if off = 0x104 then [(0, hznRead), (1, hznWrite val), (2, hznArm val), (3, hznDisarm)] else []
  | 0x05 => match off with | 0x108 => [(1, logClear)] | 0x114 => [(0, logCopy)] | _ => []
  | 0x08 => match off with
    | 0x144 => [(0, injOneTrig inst)]
    | 0x160 => [(0, eyeStartTrig inst), (1, eyeAbort inst)]
    | 0x170 => [(1, spareRelTrig inst), (0, spareReqTrig inst val)]
    | _ => []
  | 0x09 => if off = 0x10C ∧ inst < 18 then [(0, islandReset inst)] else []
  | 0x0E => if off = 0x280 then [(2, switchTrig inst val)] else []
  | 0x0F => if off = 0x104 then [(0, mtrRead inst), (1, mtrWrite inst val), (2, mtrReadClr inst)] else []
  | 0x10 => match off with | 0x154 => [(1, swapSets)] | 0x178 => [(0, tblReadTrig inst val), (1, tblWriteTrig inst val)] | _ => []
  | 0x12 => if off = 0x108 then [(0, qpcGo)] else []
  | 0x13 => if off = 0x118 then [(0, mrgGo aux.pages aux.readOk)] else []
  | 0x16 => if off = 0x104 then [(0, mapRd val), (1, mapWr val)] else []
  | 0x17 => if off = 0x138 then [(0, mteGo inst)] else []
  | 0x18 => if off = 0x108 then [(0, cleGo inst val)] else []
  | 0x1A => match off with
    | 0x10C => [(0, bindGo inst aux.grant val), (1, unbindGo inst)]
    | 0x204 => (List.range 5).map (fun b => (b, pwCmd b val))
    | _ => []
  | 0x1C => if (off - 0x100) % 0xF0 = 4 then (List.range 6).map (fun b => (b, sliceCmd (16 * inst + (off - 0x100) / 0xF0) b)) else []
  | 0x1F => if off = 0x120 then [(0, handover)] else []
  | _ => []

/-- As `trigsOf`, of the window and check-value pages. -/
def trigsWin (ty off : Nat) (val : Word) (d : Dev) : List (Nat × (Dev → Dev)) :=
  match ty with
  | 0x14 =>
    let w := rd Reg.WIN_IDX 0 d
    if off = 0x104 then
      [(0, winRdLive w val), (1, winRdShadow w val), (2, winWrShadow w val), (3, commitWin w 0x104 val), (4, winDiscard w val)]
    else []
  | 0x15 =>
    let w := rd Reg.BRG_BW_IDX 0 d
    let g := rd Reg.BRG_GRP_IDX 0 d
    match off with
    | 0x104 => [(0, bwRdLive w val), (1, bwRdShadow w val), (2, bwWrShadow w val), (3, commitBwin w 0x104 val), (4, bwDiscard w val),
        (5, bwErrClr w val)]
    | 0x134 => [(0, grpRd g val), (1, grpWr g val), (2, commitGrp g 0x134 val)]
    | 0x900 => [(0, wireGo val)]
    | _ => []
  | 0x06 =>
    let j := (off - 0x200) / 0x40
    if 0x200 ≤ off ∧ (off - 0x200) % 0x40 = 0 then [(0, chkGo j val), (1, chkStop j)] else []
  | _ => []

/-- What follows from new values of plain fields. -/
def settleWord (ty inst off : Nat) (d : Dev) : Dev :=
  match ty with
  | 0x02 =>
    d |> onlyIf (off == 0x108 || off == 0x10C || decide (0x200 ≤ off)) timeElect |> onlyIf (off == 0x108) ppsLow
  | 0x08 => onlyIf (off == 0x144 && rd Reg.LANE_GEN_EN inst d == 1) (fun d => emit .laneTx (testTx inst d) [] d) d
  | 0x13 => onlyIf (off == 0x100) (fun d => wr Reg.MRG_XLT_FREE 0 (xltFree d) d) d
  | 0x17 => onlyIf (off == 0x104) (fun d => wr Reg.MTE_UX_POOL_FREE inst (poolFree inst d) d) d
  | 0x1A => onlyIf (off == 0x100) refreshCvh d
  | _ => d

/-- The effect of a write that is not refused, on the block's own words. -/
def wordEffect (aux : Aux) (ty inst off : Nat) (val : Word) (d : Dev) : Dev :=
  match ty, off with
  | 0x00, 0x104 => levelWrite val d
  | 0x00, 0x10C => warmRst val d
  | 0x00, 0x120 => wrI Reg.DEV_MGMT_SEM 0 0 (if val.getLsbD 0 then rdI Reg.DEV_MGMT_SEM 0 0 d else 0) d
  | 0x00, 0x124 => wrI Reg.DEV_MGMT_SEM 0 1 (if val.getLsbD 0 then rdI Reg.DEV_MGMT_SEM 0 1 d else 0) d
  | 0x00, 0x128 => wrI Reg.DEV_MGMT_SEM 0 2 (if val.getLsbD 0 then rdI Reg.DEV_MGMT_SEM 0 2 d else 0) d
  | 0x00, 0x12C => wrI Reg.DEV_MGMT_SEM 0 3 (if val.getLsbD 0 then rdI Reg.DEV_MGMT_SEM 0 3 d else 0) d
  | 0x00, 0x140 => mbxWrite val d
  | 0x01, 0x200 => pwrReq val d
  | 0x08, 0x140 => laneTest inst val d
  | 0x09, 0x100 => d |> storeStaged 0x09 inst 0x100 val |> writeTest inst (bnat (val.getLsbD 4)) |> unlessRefused 0x09 inst 0x100 d
  | 0x0A, 0x104 => linkCtl inst val d
  | 0x0C, 0x100 => writeStrEn inst (bnat (val.getLsbD 0)) val d
  | 0x19, 0x104 => expCtl inst val d
  | _, _ =>
    let x := d |> storeAll ty inst off val |> settleWord ty inst off |> onlyIf ([0x09, 0x0A, 0x0B].contains ty) (sharedLowAlarm (sharedFree d))
    x |> forEach ((trigsOf aux ty inst off val ++ trigsWin ty off val x).filter (fun t => val.getLsbD t.1)) (fun t => t.2)
      |> unlessRefused ty inst off d

/-- A write to a word of a page whose domain is ON: refused by LOCK, by a commit in progress or by its ranges, or applied (R13, R46, R48). -/
def applyWord (aux : Aux) (ty inst off : Nat) (val : Word) (d : Dev) : Dev :=
  if off < 0x100 then headerWrite ty inst off val d
  else if hrd Reg.PG_CTRL_LOCK ty inst d = 1 ∧ lockable ty off then cfgErr ty inst off Cfg.CFG_LOCKED val d
  else if commitBusy ty inst d && holdsStaged ty off then cfgErr ty inst off Cfg.CFG_COMMIT_BUSY val d
  else if ty = 0 ∧ 0x800 ≤ off ∧ mbxBusy d = true then dropWrite d
  else if rangeErr ty inst off (takenWord ty inst off val d) d ≠ 0 then
    cfgErr ty inst off (rangeErr ty inst off (takenWord ty inst off val d) d) val d
  else wordEffect aux ty inst off val d

/-! ## Writes as they arrive (R34, R40, R41) -/

/-- A write to one page: SOFT_RST is refused while the block's domain is not ON (R47), and every other write is served by its state. -/
def serveWord (aux : Aux) (ty inst off : Nat) (val : Word) (bcast : Bool) (d : Dev) : Dev :=
  if off = 8 ∧ val.getLsbD 1 = true ∧ pageExists ty inst d = true ∧ domOn (domainOf ty inst) d = false then
    cfgErr ty inst 8 Cfg.CFG_DOMAIN_NOT_ON val d
  else serve ty inst off val bcast (applyWord aux ty inst off val) d

/-- What a broadcast write writes at one member: SWAP acts on every island at once, so one member alone takes it (R250). -/
def memberVal (ty inst off i : Nat) (val : Word) (d : Dev) : Word :=
  let set := bcastSet ty inst d
  let one_ := match set.find? (fun k => domOn (domainOf ty k) d) with | some k => some k | none => set.head?
  if ty = 0x10 ∧ off = 0x154 ∧ one_ ≠ some i then setBits val 1 1 0 else val

/-- A write to a management address, unicast or broadcast; a broadcast acts on each member by the mask at its acceptance (R40). One
to an offset that instance 0 lacks is dropped once (R34; DESIGN CHOICE, log entry 182). -/
def acceptWrite (aux : Aux) (a : Nat) (val : Word) (d : Dev) : Dev :=
  let ty := addrType a
  let inst := addrInst a
  let off := addrOff a
  if a % 4 ≠ 0 ∨ 2 ^ 26 ≤ a then d
  else if isBcast ty inst then
    if offsetOk ty 0 off then forEach (bcastSet ty inst d) (fun i => serveWord aux ty i off (memberVal ty inst off i val d) true) d
    else dropWrite d
  else serveWord aux ty inst off val false d

/-- A write on a path that READY opens; while a warm reset runs it is dropped and counted (R62, R89), and a halted management processor
serves WARM_RST alone (R527). -/
def pathWrite (aux : Aux) (a : Nat) (val : Word) (d : Dev) : Dev :=
  if d.mg.mpHalted then onlyIf (a == 0x10C) (warmRst val) d
  else if ready d then acceptWrite aux a val d
  else if d.boot.running = 3 ∨ d.boot.running = 4 then dropWrite d
  else d

/-- As `pathWrite`, to an offset of a page or of a broadcast instance. -/
def pageWrite (ty inst off : Nat) (val : Word) (d : Dev) : Dev :=
  onlyIf (decide (ty < 64 ∧ inst < 256 ∧ off < 4096)) (pathWrite ⟨[], true, 0⟩ (regAddr ty inst off) val) d

/-! ## Commands of the common header -/

/-- R44, R45: a write of 1 to COMMIT; `enable` is the ENABLE bit of the word written. -/
def execPgCommit (ty inst : Nat) (enable : Bool) (s : State) : Out :=
  onAll (pageWrite ty inst 8 (BitVec.ofNat 32 (4 + bnat enable))) s

/-- R44: an accepted commit reaches its boundary. -/
def execCommitSwap (ty inst : Nat) (s : State) : Out := onAll (commitSwap ty inst) s

/-- R37: a write of 1 to DISCARD. -/
def execPgDiscard (ty inst : Nat) (enable : Bool) (s : State) : Out :=
  onAll (pageWrite ty inst 8 (BitVec.ofNat 32 (16 + bnat enable))) s

/-- R46: a write of 1 to LOCK. -/
def execPgLock (ty inst : Nat) (enable : Bool) (s : State) : Out :=
  onAll (pageWrite ty inst 8 (BitVec.ofNat 32 (8 + bnat enable))) s

/-- R47: a write of 1 to SOFT_RST. -/
def execPgSoftRst (ty inst : Nat) (enable : Bool) (s : State) : Out :=
  onAll (pageWrite ty inst 8 (BitVec.ofNat 32 (2 + bnat enable))) s

/-- R47: a block soft reset completes. -/
def execSoftResetDone (ty inst : Nat) (s : State) : Out := onAll (softDone ty inst) s

/-- R37: a write of ENABLE. -/
def execPgEnableWrite (ty inst : Nat) (enable : Bool) (s : State) : Out :=
  onAll (pageWrite ty inst 8 (BitVec.ofNat 32 (bnat enable))) s

/-- R38: a write to PG_EVT_INJ. -/
def execPgEvtInj (ty inst : Nat) (value : Word) (s : State) : Out := onAll (pageWrite ty inst 0x1C value) s

/-- R86: a write to BEHAVIOUR_LEVEL. -/
def execBehaviourLevelWrite (value : Word) (s : State) : Out := onAll (pageWrite 0x00 0 0x104 value) s

end Sys2Proof.Machine
end

