-- ==== Sys2Proof/Machine/Management.lean ====
section
/-!
DEFINITION. Management paths (R33, R42, R50 to R58): register reads and writes on each path, the composite window and accesses between members,
I3C, and the Edurn commands that no other block gives a meaning.
-/

namespace Sys2Proof.Machine

/-! ## Reads (R33, R42) -/

/-- The offsets of high words that a read of a word latches: of each field of two words, and of NOW_NS with NOW_FRAC (R33, R470). Fields of
more than two words are not latched (DEDUCED, log entry 89). -/
def latchedBy (ty off : Nat) : List Nat :=
  match ty with
  | 0x01 => if [0x12C, 0x204, 0x20C, 0x214, 0x21C, 0x224].contains off then [off + 4] else []
  | 0x02 => if off = 0x120 then [0x124, 0x128] else if [0x124, 0x12C, 0x144, 0x164].contains off then [off + 4] else []
  | 0x03 => if off = 0x160 then [0x164] else []
  | 0x04 => if off = 0x10C ∨ off = 0x160 then [off + 4] else []
  | 0x06 => if 0x200 ≤ off ∧ off < 0x600 ∧ [0x08, 0x20, 0x28].contains ((off - 0x200) % 0x40) = true then [off + 4] else []
  | 0x08 => if off = 0x150 ∨ off = 0x158 then [off + 4] else []
  | 0x1C => if 0x100 ≤ off ∧ [0x30, 0x40].contains ((off - 0x100) % 0xF0) = true then [off + 4] else []
  | 0x1F => if off = 0x108 ∨ off = 0x140 then [off + 4] else []
  | _ => []

/-- The key under which a path's latched word is held. -/
def latchKey (path : Path) (a : Nat) : Nat := pathNo path * 2 ^ 26 + a

/-- The rc fields of a word are cleared; a semaphore is taken; the time of a domain counts on from now (R11, R58, R497). -/
def clearRc (ty inst off : Nat) (d : Dev) : Dev :=
  let zero := fun (f : Fld) d => match fldIdx f off with
    | some i => wrI f inst i (if f == Reg.DEV_MGMT_SEM then 1 else 0) d
    | none => d
  d |> forEach ((fieldsAt ty off).filter (fun f => f.acc == .rc)) zero
    |> (fun d =>
        let dom := (off - 0x400) / 16
        let k := (off - 0x400) % 16
        if ty = 0x01 ∧ 0x400 ≤ off ∧ ((k = 8 ∧ domState dom d = 1) ∨ (k = 12 ∧ domState dom d = 2)) then
          { d with pw := { d.pw with since := smPut d.pw.since dom d.th.localNs } }
        else d)

/-- A read of a management address on a path: its value, and what it leaves. A broadcast read clears and latches nothing; a page in OFF
neither (R42). A wide rc field is cleared whole with its low word. -/
def readAccess (path : Path) (a : Nat) (d : Dev) : Nat × Dev :=
  let ty := addrType a
  let inst := addrInst a
  let off := addrOff a
  if a % 4 ≠ 0 ∨ 2 ^ 26 ≤ a then (0, d)
  else if isBcast ty inst then ((peekWord ty inst off d).toNat, d)
  else match smFind d.mg.hiLatch (latchKey path a) with
    | some w => (w.toNat, { d with mg := { d.mg with hiLatch := smErase d.mg.hiLatch (latchKey path a) } })
    | none =>
      let v := (memberWord ty inst off false d).toNat
      if !(pageExists ty inst d && offsetOk ty inst off) || domState (servedDomain ty inst off) d == 2 then (v, d)
      else
        let hi := latchedBy ty off
        let latch := hi.foldl (fun m o => smPut m (latchKey path (regAddr ty inst o)) (memberWord ty inst o false d)) d.mg.hiLatch
        (v, { d with mg := { d.mg with hiLatch := latch } } |> clearRc ty inst off |> forEach hi (clearRc ty inst))

/-- A read access of `size` bytes: 4, or 8 as two words, low word first; of any other size or alignment it has no effect and reads 0 (R33). -/
def sizedRead (path : Path) (size a : Nat) (d : Dev) : Nat × Dev :=
  if size = 4 then readAccess path a d
  else if size = 8 ∧ a % 8 = 0 then
    let lo := readAccess path a d
    let hi := readAccess path (a + 4) lo.2
    (lo.1 + 2 ^ 32 * hi.1, hi.2)
  else (0, d)

/-- A read on the in-band or fabric path, answered while the device is READY (R51, R52, R62). -/
def pathRead (path : Path) (size a : Nat) (d : Dev) : Dev :=
  if ready d && !d.mg.mpHalted then
    let r := sizedRead path size a d
    emit .readData [pathNo path, a, r.1] [] r.2
  else d

/-- R11, R33, R42: a unicast read; the rc fields of the word are cleared. -/
def execRcFieldRead (path : Path) (acc : RegAccess) (s : State) : Out := onDev (pathRead path acc.size acc.addr) s

/-- R58: a read of a management semaphore. -/
def execDevMgmtSemRead (path : Path) (sem : Nat) (s : State) : Out :=
  onDev (onlyIf (decide (sem < 4)) (pathRead path 4 (0x120 + 4 * sem))) s

/-! ## Edurn commands (R55, R82 to R84, R498) -/

/-- IDENTIFY: PART, STEP, BL_MAX, BEHAVIOUR_LEVEL, composite ID, serial. -/
def edIdentify (p : List Byte) (d : Dev) : EdRes :=
  if p ≠ [] then edStat stBadLength d
  else edOk (beBytes 2 (rd Reg.DEV_PART 0 d) ++ beBytes 1 (stepCode d) ++ beBytes 1 (rd Reg.DEV_BL_MAX 0 d)
      ++ beBytes 1 (rd Reg.DEV_BEHAVIOUR_LEVEL 0 d) ++ beBytes 1 (ownId d) ++ beBytes 8 d.otp.serial) d

/-- Reads consecutive words. -/
def readWords (path : Path) : Nat → Nat → Dev → List Byte × Dev
  | 0, _, d => ([], d)
  | n + 1, a, d =>
    let r := readAccess path a d
    let rest := readWords path n (a + 4) r.2
    (beBytes 4 r.1 ++ rest.1, rest.2)

/-- A member number of an Edurn command names this device. -/
def edSelf (m : Nat) (d : Dev) : Bool := m == 0xFF || m == ownId d

/-- A composite ID has a member (R52). -/
def knownMember (m : Nat) (d : Dev) : Bool := compositeOn d && d.cmp.ids.any (fun x => x.2 == m)

/-- Requests to another member go out, one for each word; what waits for the responses bears the number of the first. -/
def sendRemote (path : Path) (edurn : Bool) (tag m a : Nat) (isWrite : Bool) (vals : List Nat) (d : Dev) : Dev :=
  let n := d.mg.nextReq
  { d with mg := { d.mg with nextReq := n + vals.length
                             remotes := d.mg.remotes ++ [⟨n, path, m, a, vals.length, isWrite, edurn, tag⟩] } }
    |> forEach vals.zipIdx (fun v d => d |> emit .mgmtReq [m, a + 4 * v.2, bnat isWrite, v.1, n + v.2] []
          |> sendMgmt (smGet (fun _ => 0xFFFFF) d.sw.lids m) [0, a + 4 * v.2, bnat isWrite, v.1, n + v.2])

/-- The place of an Edurn register access: member, address, count; none where one is outside its range. -/
def regPlace (p : List Byte) : Option (Nat × Nat × Nat) :=
  let a := numIn p 1 4
  let n := numIn p 5 1
  if p.length < 6 ∨ n < 1 ∨ 64 < n ∨ 2 ^ 26 < a + 4 * n then none else some (numIn p 0 1, a, n)

/-- REG_READ. -/
def edRegRead (path : Path) (tag : Nat) (p : List Byte) (d : Dev) : EdRes :=
  match regPlace p with
  | none => edStat stBadLength d
  | some (m, a, n) =>
    if p.length ≠ 6 then edStat stBadLength d
    else if edSelf m d then
      let r := readWords path n a d
      edOk r.1 r.2
    else if knownMember m d then edStat stPending (sendRemote path true tag m a false (List.replicate n 0) d)
    else edStat stUnreachable d

/-- A write and the configuration error it met, 0 for none (R56). -/
def writeNoting (aux : Aux) (a : Nat) (val : Word) (d : Dev) : Nat × Dev :=
  let old := rd Reg.DEV_CFG_ERR_LAST 0 d
  let x := d |> wr Reg.DEV_CFG_ERR_LAST 0 0 |> acceptWrite aux a val
  let code := rd Reg.DEV_CFG_ERR_LAST 0 x
  (code, if code = 0 then wr Reg.DEV_CFG_ERR_LAST 0 old x else x)

/-- Writes consecutive words, up to the first that is refused. -/
def writeWords (aux : Aux) : List Nat → Nat → Dev → Nat × Dev
  | [], _, d => (0, d)
  | v :: vs, a, d =>
    let r := writeNoting aux a (BitVec.ofNat 32 v) d
    if r.1 = 0 then writeWords aux vs (a + 4) r.2 else r

/-- REFUSED, with the code after it. -/
def edRefused (code : Nat) (d : Dev) : EdRes := ⟨d, stRefused, beBytes 2 code, 0⟩

/-- REG_WRITE. -/
def edRegWrite (aux : Aux) (path : Path) (tag : Nat) (p : List Byte) (d : Dev) : EdRes :=
  match regPlace p with
  | none => edStat stBadLength d
  | some (m, a, n) =>
    let vals := (List.range n).map (fun k => numIn p (6 + 4 * k) 4)
    if p.length ≠ 6 + 4 * n then edStat stBadLength d
    else if edSelf m d then
      let r := writeWords aux vals a d
      if r.1 = 0 then edOk [] r.2 else edRefused r.1 r.2
    else if knownMember m d then edStat stPending (sendRemote path true tag m a true vals d)
    else edStat stUnreachable d

/-- EVENTS: code and page address of up to the number asked for, the oldest first, which leave the queue. -/
def edEvents (p : List Byte) (d : Dev) : EdRes :=
  let n := numIn p 0 1
  if p.length ≠ 1 ∨ n < 1 ∨ 120 < n then edStat stBadLength d
  else edOk ((d.mg.events.take n).flatMap (fun e => beBytes 2 e.code ++ beBytes 4 e.addr))
    { d with mg := { d.mg with events := d.mg.events.drop n } }

/-- SENSORS (R498). -/
def edSensors (p : List Byte) (d : Dev) : EdRes :=
  let v := fun f => beBytes 2 (rd f 0 d)
  if p ≠ [] then edStat stBadLength d
  else edOk (v Reg.PWR_VIN_A_MV ++ v Reg.PWR_VIN_B_MV ++ v Reg.PWR_IIN_A ++ v Reg.PWR_IIN_B ++ v Reg.PWR_VBANK_MV ++ v Reg.PWR_P_IN
      ++ beBytes 1 (rd Reg.PWR_A_STATE 0 d + 8 * rd Reg.PWR_B_STATE 0 d + 64 * rd Reg.PWR_FEED_ACTIVE 0 d) ++ beBytes 1 10
      ++ (List.range 10).flatMap (fun k => beBytes 2 (ofSigned 16 (d.sens.temps.getD k 0)))) d

/-- The largest image (R79). -/
def imgMax : Nat := 5767168

/-- Chunk `n` of the snapshot held. -/
def exportChunk (n : Nat) (d : Dev) : EdRes :=
  match d.boot.snapshot with
  | none => edStat stDenied d
  | some img =>
    if img.length ≤ 1008 * n then edStat stBadLength d
    else edOk (beBytes 4 n ++ (img.drop (1008 * n)).take 1008) d

/-- IMAGE_EXPORT: chunk 0 takes a new snapshot (R82, R489); a state whose image would pass the largest length is refused (R81). -/
def edExport (p : List Byte) (d : Dev) : EdRes :=
  let n := numIn p 0 4
  if p.length ≠ 4 then edStat stBadLength d
  else if stacksOn d = false then edStat stBusy d
  else if n = 0 then
    let img := exportImage d
    if imgMax < img.length then edRefused Cfg.IMG_SECTION { d with boot := { d.boot with snapshot := none } }
    else exportChunk 0 { d with boot := { d.boot with snapshot := some img } }
  else exportChunk n d

/-- The slot that an import writes: the one not active. -/
def inactiveSlot (d : Dev) : Nat := if d.boot.active = some 0 then 1 else 0

/-- Gives an image slot its contents and its valid mark; a slot rewritten reads without an error. -/
def putSlot (k : Nat) (m : SMap Byte) (valid : Bool) (d : Dev) : Dev :=
  { d with boot := if k = 0 then { d.boot with slot0 := m, valid0 := valid, badCopies := d.boot.badCopies.filter (fun c => c != 2) }
                   else { d.boot with slot1 := m, valid1 := valid, badCopies := d.boot.badCopies.filter (fun c => c != 3) } }

/-- A data chunk: the first clears the inactive slot and opens the import (R83). -/
def importChunk (n : Nat) (data : List Byte) (d : Dev) : EdRes :=
  if 1008 < data.length ∨ imgMax < 1008 * n + data.length then edStat stBadLength d
  else
    let k := inactiveSlot d
    let d1 := if d.boot.chunks.isEmpty then putSlot k [] false d else d
    let d2 := putSlot k (putBytes (imageSlot k d1) (1008 * n) data) false d1
    edOk [] { d2 with boot := { d2.boot with chunks := if d2.boot.chunks.contains n then d2.boot.chunks else n :: d2.boot.chunks } }

/-- 0xFFFF_FFFE: both slots are cleared and an open import ends. -/
def importClear (d : Dev) : EdRes :=
  let d1 := d |> putSlot 0 [] false |> putSlot 1 [] false
  edOk [] { d1 with boot := { d1.boot with active := none, chunks := [] } }

/-- The code that refuses the import, 0 for none, in the order of R84. -/
def importErr (d : Dev) : Nat :=
  let m := imageSlot (inactiveSlot d) d
  let len := imgLen m
  if d.boot.chunks.contains 0 = false then Cfg.IMG_INCOMPLETE
  else if numAt m 0 4 ≠ 0x44584349 ∨ numAt m 4 1 ≠ 1 ∨ numAt m 6 2 ≠ 0x7144 ∨ len < 60 ∨ imgMax < len ∨ len % 4 ≠ 0 then Cfg.IMG_CRC
  else if (List.range ((len + 1007) / 1008)).all (fun c => d.boot.chunks.contains c) = false then Cfg.IMG_INCOMPLETE
  else if numAt m (len - 4) 4 ≠ crc32c (bytesAt m 0 (len - 4)) then Cfg.IMG_CRC
  else if numAt m 5 1 < 1 ∨ rd Reg.DEV_BL_MAX 0 d < numAt m 5 1 then Cfg.IMG_LEVEL
  else if sectionsOk m = false then Cfg.IMG_SECTION
  else 0

/-- The BOARD_TABLE section goes to the secondary copy, and then, where that reads back with a matching CRC, to the primary (R70). -/
def importTable (m : SMap Byte) (d : Dev) : Dev :=
  match (sectionsOf m).bind (sectionAt 1) with
  | none => d
  | some s =>
    let t := putBytes [] 0 (bytesAt m s.1 s.2)
    let d1 := { d with boot := { d.boot with tblSec := t, badCopies := d.boot.badCopies.filter (fun c => c != 1) } }
    if numAt t 11008 4 = crc32c (bytesAt t 0 11008) then
      { d1 with boot := { d1.boot with tblPri := t, badCopies := d1.boot.badCopies.filter (fun c => c != 0) } }
    else d1

/-- 0xFFFF_FFFF: the import is checked, and its slot marked valid and active (R84). -/
def importCommit (d : Dev) : EdRes :=
  let k := inactiveSlot d
  let m := imageSlot k d
  let e := importErr d
  if e ≠ 0 then edRefused e (cfgErr 0x00 0 8 e 0xFFFFFFFF d)
  else
    let d1 := d |> importTable m |> putSlot k m true
    edOk [] { d1 with boot := { d1.boot with active := some k, chunks := [] } }

/-- IMAGE_IMPORT (R83, R84). -/
def edImport (p : List Byte) (d : Dev) : EdRes :=
  let n := numIn p 0 4
  if p.length < 4 then edStat stBadLength d
  else if n = 0xFFFFFFFF ∨ n = 0xFFFFFFFE then
    (if p.length ≠ 4 then edStat stBadLength d else if n = 0xFFFFFFFF then importCommit d else importClear d)
  else importChunk n (p.drop 4) d

/-- RESET: class and confirm byte; class 0 is warm (DESIGN CHOICE, log entry 91). The reset follows the response (R73). -/
def edReset (p : List Byte) (d : Dev) : EdRes := if p = [0, 0xD7] then ⟨d, stOk, [], 1⟩ else edStat stBadLength d

/-- COMPOSITE: composite ID, anchor ID, standby anchor ID, member bitmap. -/
def edComposite (p : List Byte) (d : Dev) : EdRes :=
  if p ≠ [] then edStat stBadLength d
  else edOk (beBytes 1 (ownId d) ++ beBytes 1 (rd Reg.CMP_ANCHOR_ID 0 d) ++ beBytes 1 (rd Reg.CMP_STANDBY_ID 0 d)
      ++ beBytes 8 (rd2 Reg.CMP_MEMBERS_LO Reg.CMP_MEMBERS_HI 0 0 d)) d

/-- The commands by opcode (R55); LIFECYCLE answers for its sub-operations. -/
def edAct (aux : Aux) (opc : Nat) (path : Path) (tag : Nat) (p : List Byte) (d : Dev) : EdRes :=
  match opc with
  | 0x01 => edIdentify p d
  | 0x02 => edRegRead path tag p d
  | 0x03 => edRegWrite aux path tag p d
  | 0x04 => edEvents p d
  | 0x05 => logRead p d
  | 0x06 => edSensors p d
  | 0x07 => edExport p d
  | 0x08 => edImport p d
  | 0x09 => fwStage path p d
  | 0x0A => fwActivate p d
  | 0x0B => edReset p d
  | 0x0C => lifecycle p d
  | 0x0D => edComposite p d
  | _ => edStat stBadOpcode d

/-! ## The mailbox (R57) -/

/-- The frame in DEV_MBX_DATA is taken up once GO was written: its length and CRC are checked, and its command served. -/
def mbxRun (aux : Aux) (d : Dev) : Dev :=
  if !d.mg.mbxGo then d
  else
    let d1 := { d with mg := { d.mg with mbxGo := false } }
    let bs := mbxBytes d
    let opc := numIn bs 0 1
    let tag := numIn bs 1 1
    let len := numIn bs 2 2
    if 1016 < len then edAnswer .mailbox opc tag stBadLength [] 0 d1
    else if numIn bs (4 + len) 4 ≠ crc32c (bs.take (4 + len)) then edAnswer .mailbox opc tag stCrcError [] 0 d1
    else edServe opc .mailbox tag (edAct aux opc .mailbox tag ((bs.drop 4).take len)) d1

/-- A write access of `size` bytes: 4, or 8 as two words, low word first; of any other size or alignment it has no effect (R33). -/
def sizedWrite (aux : Aux) (size a : Nat) (val : BitVec 64) (d : Dev) : Dev :=
  if size = 4 then d |> pathWrite aux a (val.setWidth 32) |> mbxRun aux
  else if size = 8 ∧ a % 8 = 0 then
    d |> pathWrite aux a (val.setWidth 32) |> mbxRun aux |> pathWrite aux (a + 4) ((val >>> 32).setWidth 32) |> mbxRun aux
  else d

/-- R33, R40, R41: a write on a management path, unicast or broadcast, to any register. -/
def execRegisterWrite (acc : RegAccess) (value : BitVec 64) (aux : Aux) (s : State) : Out :=
  onAll (sizedWrite aux acc.size acc.addr value) s

/-- An Edurn command with no need from outside. -/
def edRow (opc : Nat) (path : Path) (tag : Nat) (payload : List Byte) (s : State) : Out :=
  onAll (fun d => d |> edCommand opc path tag payload (edAct ⟨[], true, 0⟩ opc path tag payload) |> mbxRun ⟨[], true, 0⟩) s

/-- R55: IDENTIFY. -/
def execIdentify (path : Path) (tag : Nat) (payload : List Byte) (s : State) : Out := edRow 0x01 path tag payload s

/-- R55: REG_READ. -/
def execRegRead (path : Path) (tag : Nat) (payload : List Byte) (s : State) : Out := edRow 0x02 path tag payload s

/-- R55: REG_WRITE. -/
def execRegWrite (path : Path) (tag : Nat) (payload : List Byte) (aux : Aux) (s : State) : Out :=
  onAll (fun d => d |> edCommand 0x03 path tag payload (edRegWrite aux path tag payload) |> mbxRun aux) s

/-- R55: EVENTS. -/
def execEvents (path : Path) (tag : Nat) (payload : List Byte) (s : State) : Out := edRow 0x04 path tag payload s

/-- R531: LOG_READ. -/
def execLogRead (path : Path) (tag : Nat) (payload : List Byte) (s : State) : Out := edRow 0x05 path tag payload s

/-- R498: SENSORS. -/
def execSensors (path : Path) (tag : Nat) (payload : List Byte) (s : State) : Out := edRow 0x06 path tag payload s

/-- R82: IMAGE_EXPORT. -/
def execImageExport (path : Path) (tag : Nat) (payload : List Byte) (s : State) : Out := edRow 0x07 path tag payload s

/-- R82: 10 s after the last export request the snapshot is released. -/
def execExportSnapshotExpire (s : State) : Out := onDev (fun d => { d with boot := { d.boot with snapshot := none } }) s

/-- R83: IMAGE_IMPORT of a chunk. -/
def execImageImport (path : Path) (tag chunk : Nat) (data : List Byte) (s : State) : Out :=
  edRow 0x08 path tag (beBytes 4 chunk ++ data) s

/-- R84: IMAGE_IMPORT with chunk index 0xFFFF_FFFF. -/
def execImageImportCommit (path : Path) (tag : Nat) (s : State) : Out := edRow 0x08 path tag (beBytes 4 0xFFFFFFFF) s

/-- R83: IMAGE_IMPORT with chunk index 0xFFFF_FFFE. -/
def execImageImportClear (path : Path) (tag : Nat) (s : State) : Out := edRow 0x08 path tag (beBytes 4 0xFFFFFFFE) s

/-- R73: RESET. -/
def execReset (path : Path) (tag : Nat) (payload : List Byte) (s : State) : Out := edRow 0x0B path tag payload s

/-- R55: COMPOSITE. -/
def execComposite (path : Path) (tag : Nat) (payload : List Byte) (s : State) : Out := edRow 0x0D path tag payload s

/-- A frame of any other opcode, or one that its length or CRC condemns: the mailbox has it in DEV_MBX_DATA already (R55, R56). -/
def otherFrame (opc : Nat) (path : Path) (tag len : Nat) (crcOk : Bool) (payload : List Byte) (d : Dev) : Dev :=
  if !edServed path d then d
  else if 1016 < len then edAnswer path opc tag stBadLength [] 0 d
  else if !crcOk then edAnswer path opc tag stCrcError [] 0 d
  else edServe opc path tag (edAct ⟨[], true, 0⟩ opc path tag payload) d

/-- R56: an unimplemented opcode, a bad CRC or a bad length. -/
def execEdurnOtherOpcode (opc : Nat) (path : Path) (tag len : Nat) (crcOk : Bool) (payload : List Byte) (s : State) : Out :=
  onAll (fun d => d |> otherFrame opc path tag len crcOk payload |> mbxRun ⟨[], true, 0⟩) s

/-! ## I3C (R38, R53, R55) -/

/-- R38: a held in-band interrupt is sent; for events only while DEV_I3C_IBI is still 1. -/
def execIbiRaise (s : State) : Out :=
  onDev (fun d =>
    if d.mg.ibiHeld && i3cUp d && d.mg.dynAddr.isSome then
      { d with mg := { d.mg with ibiHeld := false } }
        |> onlyIf (rd Reg.DEV_I3C_IBI 0 d == 1 || !d.mg.ready.isEmpty) (emit .ibi [] [])
    else d) s

/-- R53: ENTDAA gives the target its dynamic address. -/
def execI3cEntdaa (addr : Nat) (s : State) : Out :=
  onDev (fun d => onlyIf (i3cUp d && decide (addr < 128)) (fun d => { d with mg := { d.mg with dynAddr := some addr } }) d) s

/-- The oldest ready response is read; what its end starts follows (R55, R73, R518). -/
def responseRead (d : Dev) : Dev :=
  match d.mg.ready with
  | [] => d
  | r :: rs =>
    if i3cUp d then
      { d with mg := { d.mg with ready := rs } }
        |> emit .edurn [pathNo .i3c, r.tag, r.opc % 128 + 128, r.status] r.payload |> afterResponse r.after
    else d

/-- R55: a private read collects a ready response. -/
def execI3cResponseRead (s : State) : Out := onDev responseRead s

/-! ## The composite window and accesses between members (R52, R416) -/

/-- A failed access: counted, and raised where it did not find its member absent on a read (R52). -/
def remoteFail (event : Bool) (d : Dev) : Dev := d |> bump Reg.DEV_REMOTE_ERR 0 |> onlyIf event (raise Ev.REMOTE_TMO 0)

/-- The answer to a read of the window. -/
def windowData (m a v : Nat) (d : Dev) : Dev := emit .readData [pathNo .inBand, m * 2 ^ 26 + a, v] [] d

/-- The 32-bit words of an access of `size` bytes; none where the size or the alignment is no register access's (R33). -/
def accessWords (size a : Nat) (val : BitVec 64) : List Nat :=
  if size = 4 ∧ a % 4 = 0 then [val.toNat % 2 ^ 32]
  else if size = 8 ∧ a % 8 = 0 then [val.toNat % 2 ^ 32, val.toNat / 2 ^ 32]
  else []

/-- All ones in an access of `n` words. -/
def onesOf (n : Nat) : Nat := 2 ^ (32 * n) - 1

/-- An access at offset `member * 64 MiB + a` of the window, which the anchor and the standby anchor expose. -/
def windowAccess (write : Bool) (m a size : Nat) (val : BitVec 64) (aux : Aux) (d : Dev) : Dev :=
  let ws := accessWords size a val
  if !cmpRuns d || d.cmp.role < 2 || 64 ≤ m || 2 ^ 26 ≤ a then d
  else if ws.isEmpty then onlyIf (!write) (windowData m a 0) d
  else if m = ownId d then
    if write then sizedWrite aux size a val d
    else
      let r := sizedRead .inBand size a d
      windowData m a r.1 r.2
  else if write && d.cmp.role == 2 then forEach ws (fun _ => dropWrite) d
  else if knownMember m d then sendRemote .inBand false 0 m a write (if write then ws else ws.map (fun _ => 0)) d
  else if write then forEach ws (fun _ => remoteFail true) d
  else d |> forEach ws (fun _ => remoteFail false) |> windowData m a (onesOf ws.length)

/-- R52: an access through the composite window. -/
def execCompositeWindowAccess (write : Bool) (member : Nat) (acc : RegAccess) (value : BitVec 64) (aux : Aux) (s : State) : Out :=
  onAll (windowAccess write member acc.addr acc.size value aux) s

/-- A member's response to an access goes back to the LID that the request came from (R52). -/
def respondRemote (slid req err v : Nat) (d : Dev) : Dev := d |> emit .mgmtResp [req, err, v] [] |> sendMgmt slid [1, req, err, v]

/-- A member applies an access received over the fabric and responds with the value, or the configuration error it met. -/
def applyRemote (slid req : Nat) (write : Bool) (a : Nat) (val : Word) (aux : Aux) (d : Dev) : Dev :=
  if !cmpRuns d || d.mg.mpHalted || 2 ^ 26 ≤ a then d
  else if write then
    let r := writeNoting aux a val d
    respondRemote slid req r.1 0 r.2
  else
    let r := readAccess .fabric a d
    respondRemote slid req 0 r.1 r.2

/-- R52: a received over-fabric access. -/
def execRemoteAccessApply (req : FabricReq) (write : Bool) (addr : Nat) (value : Word) (aux : Aux) (s : State) : Out :=
  onAll (fun d => d |> applyRemote req.slid req.num write addr value aux |> mbxRun aux) s

/-- An access to another member leaves the list of those in flight. -/
def dropRemote (req : Nat) (d : Dev) : Dev := { d with mg := { d.mg with remotes := d.mg.remotes.filter (fun r => r.id != req) } }

/-- The responses to an access have come: `code` the configuration error of a write, `vals` the words of a read. -/
def remoteResponse (req code : Nat) (vals : List Nat) (d : Dev) : Dev :=
  match d.mg.remotes.find? (fun r => r.id == req) with
  | none => d
  | some r =>
    if r.isWrite = false ∧ vals.length ≠ r.count then d
    else
      let d1 := dropRemote req d
      if r.edurn then
        let body := if r.isWrite then (if code = 0 then [] else beBytes 2 code) else vals.flatMap (fun v => beBytes 4 v)
        edAnswer r.path (if r.isWrite then 3 else 2) r.tag (if r.isWrite = true ∧ code ≠ 0 then stRefused else stOk) body 0 (edLeave r.path d1)
      else if r.isWrite then d1
      else windowData r.member r.addr (vals.getD 0 0 % 2 ^ 32 + 2 ^ 32 * vals.getD 1 0) d1

/-- R52: the response to an over-fabric access. -/
def execRemoteResponseRx (req code : Nat) (vals : List Nat) (s : State) : Out := onAll (remoteResponse req code vals) s

/-- DEV_FAB_TMO expires on an access: a read of the window returns all ones, an Edurn command TIMEOUT. -/
def remoteTimeout (req : Nat) (d : Dev) : Dev :=
  match d.mg.remotes.find? (fun r => r.id == req) with
  | none => d
  | some r =>
    let d1 := dropRemote req d
    if r.edurn then edAnswer r.path (if r.isWrite then 3 else 2) r.tag stTimeout [] 0 (edLeave r.path d1)
    else d1 |> remoteFail true |> onlyIf (!r.isWrite) (windowData r.member r.addr (onesOf r.count))

/-- R52: DEV_FAB_TMO expires on a remote access. -/
def execRemoteTmo (req : Nat) (s : State) : Out := onAll (remoteTimeout req) s

end Sys2Proof.Machine
end

