-- ==== Sys2Proof/Machine/Domains.lean ====
section
/-!
DEFINITION. The end of a domain transition (R43, R486 to R492), die-to-die errors (R15, R16), PCIe flow-control credit (R193), and the slice
registers as a function writes them (R428, R448).
-/

namespace Sys2Proof.Machine

/-! ## Across OFF (R488, R489) -/

/-- Fields that are read only and show what lies outside the block's lost memories: the harbour reservation of the collective units, routing
state that runs on, groups that are kept (R388), and a strait in FAILED (R187). -/
def offKept (ty inst : Nat) (d : Dev) : List Fld :=
  match ty with
  | 0x0C => if rd Reg.STR_STATE inst d = 3 then [Reg.STR_STATE, Reg.STR_FAIL_CAUSE, Reg.STR_FAIL_ISLAND] else []
  | 0x0D => [Reg.HBR_COLL_RSV]
  | 0x10 => [Reg.RTE_EPOCH, Reg.RTE_SWAP_PEND, Reg.RTE_PORT_UP]
  | 0x18 => [Reg.CLE_LINES_FREE, Reg.CLE_GROUPS, Reg.CLE_RSV_CELLS]
  | _ => []

/-- The ro and rc fields of a page take their Warm values; offsets that are served in every state keep theirs (R488, R563). -/
def offPage (ty inst : Nat) (d : Dev) : Dev :=
  let keep := offKept ty inst d
  forEach ((ownRows.getD ty []).filter (fun f => (f.acc == .ro || f.acc == .rc) && !alwaysServed ty f.off && !keep.contains f))
    (warmField ty inst) d

/-- The pages of a domain. -/
def pagesIn (dom : Nat) : List (Nat × Nat) :=
  (List.range 32).flatMap (fun ty => ((List.range (instCount ty)).filter (fun i => domainOf ty i == dom)).map (fun i => (ty, i)))

/-- An island's routing tables, lanes, ports and schedulers. -/
def islandLost (i : Nat) (d : Dev) : Dev :=
  { d with net := { d.net with
      tables := d.net.tables.filter (fun e => e.1 / 131072 != i), flowlets := d.net.flowlets.filter (fun e => e.1 / 4096 != i)
      lanes := d.net.lanes.filter (fun e => e.1 / 9 != i), ports := d.net.ports.filter (fun e => e.1 / 8 != i) } }
    |> forEach (islandPorts i d) schedReset

/-- A collective unit's accumulators; its group, child and member entries are kept (R388). -/
def accsLost (u : Nat) (d : Dev) : Dev :=
  updColl (fun c => { c with groups := c.groups.map (fun e =>
    if unitOf e.1 = u then (e.1, e.2.map (fun g => { g with inst := none, slots := [] })) else e) }) d

/-- A memory stack's part of package memory, and the structures that lay over both stacks (R489). -/
def stackLost (m : Nat) (d : Dev) : Dev :=
  { d with mem := d.mem.filter (fun c => (c.1 / 256) % 2 != m) }
    |> updEng (fun e => { e with badMem := e.badMem.filter (fun a => (a / 32) % 2 != m) }) |> xltInit |> matchInit
    |> forEach (List.range 8) (fun k d => d |> wrI Reg.MIR_PROD 0 k 0 |> wrI Reg.MIR_CONS 0 k 0)

/-- The hierarchy controller's configuration spaces and bindings; wires and windows stay. -/
def hierarchyLost (d : Dev) : Dev :=
  d |> updEng (fun e => { e with funs := [] })
    |> updSw (fun s => { s with ports := s.ports.map (fun e => (e.1, { SwPort.init with prsnt := e.2.prsnt, perst := e.2.perst }))
                                maps := [], cfgs := [], hdm := [], crs := [], gather := [] })
    |> assignIdx |> refreshVh |> refreshCvh

/-- The working memories of a domain, which OFF loses (R488; what each block's are is DEDUCED, log entry 92). -/
def memoriesLost (dom : Nat) (d : Dev) : Dev :=
  if dom < 18 then islandLost dom d
  else if dom < 40 then d
  else if dom < 48 then updEng (fun e => { e with cached := e.cached.filter (fun q => q % 8 != dom - 40) }) d
  else if dom < 52 then
    d |> updEng (fun e => { e with quads := e.quads.filter (fun q => q.1 != dom - 48) })
      |> wr Reg.MTE_UX_POOL_FREE (dom - 48) (poolSize (dom - 48) d)
  else if dom < 56 then accsLost (dom - 52) d
  else if dom < 58 then stackLost (dom - 56) d
  else if dom = 58 then updEng (fun e => { e with pf := [], brgReads := [], brg := [] }) d
  else if dom = 59 then { d with chk := [] }
  else if dom < 62 then d |> updEng (fun e => { e with atc := [] }) |> wr Reg.MRG_XLT_FREE 0 (xltFree d)
  else if dom = 62 then forEach (copySources d) releaseKept { d with net := { d.net with sample := [], copies := [], records := [] } }
  else hierarchyLost d

/-- A domain leaves OFF: registers at their Warm values, working memories wiped (R488). -/
def leaveOff (dom : Nat) (d : Dev) : Dev :=
  d |> forEach (pagesIn dom) (fun p => offPage p.1 p.2) |> memoriesLost dom

/-! ## Held writes (R43) -/

/-- A held write, or a held horizon action, is applied. A write that starts a command finds nothing from outside. -/
def replay (h : HeldWrite) (d : Dev) : Dev :=
  match h.act with
  | some a => (pageAct a (addrType h.addr) (addrInst h.addr) h.val.toNat d).1
  | none => applyWord ⟨[], true, 0⟩ (addrType h.addr) (addrInst h.addr) (addrOff h.addr) h.val d

/-- The queue of a domain that reaches ON is applied in order. -/
def replayHeld (dom : Nat) (d : Dev) : Dev :=
  let mine := d.mg.held.filter (fun h => h.dom == dom)
  { d with mg := { d.mg with held := d.mg.held.filter (fun h => h.dom != dom) } } |> forEach mine replay

/-- The queue of a domain that reaches OFF is discarded and counted. -/
def discardHeld (dom : Nat) (d : Dev) : Dev :=
  let mine := d.mg.held.filter (fun h => h.dom == dom)
  { d with mg := { d.mg with held := d.mg.held.filter (fun h => h.dom != dom) } }
    |> forEach mine (fun h => if h.bcast then bump Reg.DEV_BCAST_MISS 0 else dropWrite)

/-! ## Reaching a state (R487, R491) -/

/-- The block of a domain that reached ON goes on: a strait with EN = 1 is in service again unless it failed (R167, R187), a segment
allocates (R169), an island starts lane bring-up, a collective unit serves what it held (R388). -/
def blockOn (dom : Nat) (d : Dev) : Dev :=
  if dom < 18 then islandStart dom d
  else if dom < 24 then
    onlyIf (rd Reg.STR_STATE (dom - 18) d != 3) (wr Reg.STR_STATE (dom - 18) (if rd Reg.STR_EN (dom - 18) d = 1 then 0 else 2)) d
  else if dom < 40 then wr Reg.HBR_SEG_STATE (dom - 24) 0 d
  else if 52 ≤ dom ∧ dom < 56 then serveHeldColl (dom - 52) d
  else d

/-- A domain reaches ON from the state it had before its transition. -/
def reachOn (dom prior : Nat) (d : Dev) : Dev :=
  d |> onlyIf (prior == 2) (leaveOff dom) |> dropTr dom |> enterState dom 0
    |> onlyIf (decide (18 ≤ dom ∧ dom < 40)) (blockOn dom)
    |> replayHeld dom
    |> onlyIf (decide (dom < 18 ∨ 40 ≤ dom)) (blockOn dom)

/-- A domain reaches RET; from OFF its memories have been wiped. -/
def reachRet (dom prior : Nat) (d : Dev) : Dev := d |> onlyIf (prior == 2) (leaveOff dom) |> dropTr dom |> enterState dom 1

/-- The cached contexts of a transport engine are written back (R491). -/
def flushCtx (dom : Nat) (d : Dev) : Dev :=
  if 40 ≤ dom ∧ dom < 48 then
    d |> forEach (d.eng.cached.filter (fun n => n % 8 == dom - 40)) writeBack
      |> updEng (fun e => { e with cached := e.cached.filter (fun n => n % 8 != dom - 40) })
  else d

/-- A domain reaches OFF. -/
def reachOff (dom : Nat) (d : Dev) : Dev := d |> dropTr dom |> enterState dom 2 |> discardHeld dom

/-- A domain reaches a state. -/
def reach (dom prior target : Nat) (d : Dev) : Dev :=
  match target with
  | 0 => reachOn dom prior d
  | 1 => reachRet dom prior d
  | _ => d |> onlyIf (prior == 0) (flushCtx dom) |> reachOff dom

/-- A transition whose rail request was acknowledged completes (R491). -/
def transitionDone (dom : Nat) (d : Dev) : Dev :=
  match trOf dom d with
  | some t => if t.acked then d |> reach dom t.prior t.target |> raise Ev.PWR_DONE 0 |> nextRequest dom else d
  | none => d

/-- R491: a domain transition completes. -/
def execDomainTransitionDone (dom : Nat) (s : State) : Out := onAll (transitionDone dom) s

/-- A transition is abandoned: the domain returns to the state it came from (R486, R494). -/
def abandonTr (dom refuser : Nat) (d : Dev) : Dev :=
  match trOf dom d with
  | some t => d |> refuseDom true dom t.target refuser |> reach dom (if t.prior = 2 then 0 else t.prior) t.prior
  | none => d

/-! ## PLINK timeouts (R486) -/

/-- PLINK has failed: PC0 brings every domain to ON on its own; what waited is handled as new requests, entries being refused. -/
def plinkFail (d : Dev) : Dev :=
  d |> wr Reg.PWR_PLINK_FAILED 0 1 |> raise Ev.PLINK_FAILED 0
    |> forEach (List.range 64) (fun dom d => match trOf dom d with
        | some t => d |> onlyIf (t.target != 0) (refuseDom true dom t.target 0x0F) |> reachOn dom t.prior |> raise Ev.PWR_DONE 0
        | none =>
          if domOn dom d then d
          else d |> countLeave dom |> reachOn dom (domState dom d) |> raise Ev.PWR_DONE 0)
    |> forEach (List.range 64) nextRequest

/-- A rail request was not acknowledged: repeated, and after three timeouts aborted; three such transitions in a row fail PLINK. -/
def plinkTimeout (dom : Nat) (d : Dev) : Dev :=
  match trOf dom d with
  | none => d
  | some t =>
    if t.acked || t.draining then d
    else if t.timeouts < 2 then d |> putTr { t with timeouts := t.timeouts + 1 } |> railRequest dom t.target
    else
      let n := d.pw.plinkAborts + 1
      d |> abandonTr dom 0x0F |> bump Reg.PWR_PLINK_TMO_CNT 0 |> raise Ev.PLINK_TIMEOUT 0
        |> (fun d => { d with pw := { d.pw with plinkAborts := n } })
        |> (if n < 3 then nextRequest dom else plinkFail)

/-- R486: a rail request gets no acknowledgement within 50 µs. -/
def execPlinkRequestTimeout (dom : Nat) (s : State) : Out := onAll (plinkTimeout dom) s

/-- C9: a segment's drain exceeds 100 µs; the entry is aborted and the segment allocates again. -/
def segmentDrainTimeout (seg : Nat) (d : Dev) : Dev :=
  match trOf (24 + seg) d with
  | some t => if t.draining && decide (seg < 16) then d |> abandonTr (24 + seg) 0x05 |> nextRequest (24 + seg) else d
  | none => d

/-- C9 (R28): a segment's drain exceeds 100 µs. -/
def execSegmentDrainTimeout (seg : Nat) (s : State) : Out := onAll (segmentDrainTimeout seg) s

/-! ## Die-to-die links (R15, R16) -/

/-- R16: a link corrects errors, some by a retry; crossing D2D_THRESH raises D2D_CORR_THRESH. -/
def d2dCorrected (link n retries : Nat) (d : Dev) : Dev :=
  let before := rdI Reg.DEV_D2D_CORR 0 link d
  let t := rd Reg.DEV_D2D_THRESH 0 d
  if 9 ≤ link then d
  else
    d |> addI Reg.DEV_D2D_CORR 0 link n |> addI Reg.DEV_D2D_RETRY 0 link retries
      |> onlyIf (decide (before < t ∧ t ≤ before + n)) (raiseDet Ev.D2D_CORR_THRESH 0 (BitVec.ofNat 32 link) 0)

/-- R16: a die-to-die link corrects errors; `retries` of them took a link-level retry. -/
def execD2dCorrectedError (link n retries : Nat) (s : State) : Out := onDev (d2dCorrected link n retries) s

/-- A port of the chiplet goes down (R15, R142). -/
def chipletPortDown (p : Nat) (d : Dev) : Dev :=
  match pers (p / 8) d, expIdx p d with
  | 1, some k => d |> dlDown k |> lanesOff p
  | 2, _ => declareDown p 8 d
  | 3, _ =>
    d |> onlyIf (rd Reg.ETH_PCS_UP p d == 1) (wr Reg.LNK_DOWN_CAUSE p 8) |> ethPcsChange p false (rd Reg.ETH_HI_SER p d == 1) [] [] |> lanesOff p
  | _, _ => d

/-- R15: an uncorrectable error by link: 0 to 5 a lane chiplet, 6 PC0, 7 and 8 a memory stack. Of several rail requests in flight the first that is not
acknowledged times out (DESIGN CHOICE, log entry 180). -/
def d2dUncorr (link offset : Nat) (user : Option Nat) (d : Dev) : Dev :=
  if link < 6 then
    d |> forEach ((List.range 3).flatMap (fun j => islandPorts (3 * link + j) d)) chipletPortDown
      |> raiseDet Ev.D2D_UNCORR 0 (BitVec.ofNat 32 link) 0
  else if link = 6 then
    (match d.pw.trs.find? (fun t => !t.acked && !t.draining) with
     | some t => plinkTimeout t.dom d
     | none => logNote Ev.D2D_UNCORR.code 0 6 0 d)
  else if link < 9 then
    onlyIf (domOn (49 + link) d && (offset / 256) % 2 == link - 7)
      (fun d => d |> raise Ev.PKM_LINK_UNCORR (link - 7) |> packageBad offset user) d
  else d

/-- R15: an uncorrectable die-to-die error; on a stack link the package memory offset hit, and its user as in PATROL_SCRUB. -/
def execD2dUncorr (link offset : Nat) (user : Option Nat) (s : State) : Out := onAll (d2dUncorr link offset user) s

/-! ## PCIe flow control (R193, R403, R415) -/

/-- A credit update for one class of an EXP link: the limits it sets. -/
def expCredit (port cls hdr data : Nat) (d : Dev) : Dev :=
  match expIdx port d with
  | some k => onlyIf (rd Reg.EXP_DL_ACTIVE k d == 1 && decide (1 ≤ cls ∧ cls ≤ 4))
      (updPort port (fun q => { q with fcHdr := smPut q.fcHdr cls hdr, fcData := smPut q.fcData cls data })) d
  | none => d

/-- R193: a PCIe flow-control credit update arrives: the limits of a class in headers and in units of 16 B, counted from link up. -/
def execExpFlowControlCreditRx (port cls hdr data : Nat) (s : State) : Out := onNet (expCredit port cls hdr data) s

/-! ## A slice's H registers (R428, R448) -/

/-- A write by the function at a slice's block in BAR2. -/
def sliceHostWrite (vh slice reg : Nat) (val : Word) (d : Dev) : Dev :=
  onlyIf (ready d && decide (slice < 4096 ∧ 0x20 ≤ reg ∧ reg ≤ 0x4C ∧ reg % 4 = 0) && slState slice d != slFree
      && slRd Reg.SLC_VH slice d == vh && rd Reg.FUN_FLR_BUSY vh d == 0)
    (applyWord ⟨[], true, 0⟩ 0x1C (slice / 16) (0x100 + 0xF0 * (slice % 16) + reg) val) d

/-- R428: the function writes a register of a slice; `reg` is its offset in the slice's block. -/
def execHostSliceRegisterWrite (vh slice reg : Nat) (value : Word) (s : State) : Out := onAll (sliceHostWrite vh slice reg value) s

end Sys2Proof.Machine
end

