-- ==== Sys2Proof/Machine/Transport.lean ====
section
/-!
DEFINITION. Meanings of the commands on the transport engines (ch. 09).
-/

namespace Sys2Proof.Machine

/-- R264: a KIND 0 doorbell sets a send queue's producer index. -/
def execSqDoorbell (vh slice : Nat) (wide : Bool) (num kind index : Nat) (entries : List (List Byte)) (s : State) : Out :=
  onEng (workBell 0 vh slice wide num kind index entries) s

/-- R264: a KIND 1 doorbell sets a receive queue's producer index. -/
def execRqDoorbell (vh slice : Nat) (wide : Bool) (num kind index : Nat) (entries : List (List Byte)) (s : State) : Out :=
  onEng (workBell 1 vh slice wide num kind index entries) s

/-- R264: a KIND 2 doorbell sets a completion queue's consumer index. -/
def execCqConsumerDoorbell (vh slice : Nat) (wide : Bool) (num kind index : Nat) (s : State) : Out :=
  onEng (workBell 2 vh slice wide num kind index []) s

/-- R266: a KIND 3 doorbell arms a completion queue. -/
def execCqArmDoorbell (vh slice : Nat) (wide : Bool) (num kind : Nat) (s : State) : Out :=
  onEng (workBell 3 vh slice wide num kind 0 []) s

/-- R266: a KIND 4 doorbell arms a completion queue for solicited completions only. -/
def execCqArmSolDoorbell (vh slice : Nat) (wide : Bool) (num kind : Nat) (s : State) : Out :=
  onEng (workBell 4 vh slice wide num kind 0 []) s

/-- R270: an engine starts the next posted request of a queue pair. -/
def execWqeStart (qpn : Nat) (s : State) : Out := onEng (startNext qpn) s

/-- R270: a requester sends its next packet. -/
def execRequestPacketSend (qpn : Nat) (s : State) : Out := onEng (sendNext qpn) s

/-- R280: a responder takes a SEND packet; opcodes 0x06 and 0x07 are reserved. -/
def execSftSendRx (p : SftPkt) (s : State) : Out := onEng (onlyIf (p.opc / 8 == 0) (takeRequest p)) s

/-- R280: a responder takes a WRITE packet; opcodes 0x0E and 0x0F are reserved. -/
def execSftWriteRx (p : SftPkt) (s : State) : Out := onEng (onlyIf (p.opc / 8 == 1) (takeRequest p)) s

/-- R280: a responder takes a READ_REQ; opcodes 0x15 to 0x17 are reserved. -/
def execSftReadReqRx (p : SftPkt) (s : State) : Out :=
  onEng (onlyIf (p.opc == 0x10 || (0x15 ≤ p.opc && p.opc ≤ 0x17)) (takeRequest p)) s

/-- R282: a responder takes an atomic; opcodes 0x1D to 0x1F are reserved. -/
def execSftAtomicRx (p : SftPkt) (s : State) : Out :=
  onEng (onlyIf (p.opc / 8 == 3 && p.opc != 0x1C) (takeRequest p)) s

/-- The packet is a finish for its queue pair (R340). -/
def finishFor (p : SftPkt) (d : Dev) : Bool := match qpOf p.dqpn d with | some q => isFinish q p | none => false

/-- R283: a responder takes a NOTIFY; every higher opcode but ACK is reserved. -/
def execSftNotifyRx (p : SftPkt) (s : State) : Out :=
  onEng (onlyIf (0x20 ≤ p.opc && p.opc != 0x28 && !finishFor p s.dev) (takeRequest p)) s

/-- R340: a rendezvous finish completes the request that awaits it. -/
def execRndvFinishRx (p : SftPkt) (s : State) : Out := onEng (onlyIf (finishFor p s.dev) (takeRequest p)) s

/-- R271: an ACK advances UNA_PSN. -/
def execAckRx (r : SftResp) (s : State) : Out :=
  onEng (onlyIf (r.opc == 0x28 && r.synd == 0) (takeResp r (takeAck r.psn))) s

/-- R274: an RNR_NAK stops the queue pair's sending. -/
def execRnrNakRx (r : SftResp) (s : State) : Out :=
  onEng (onlyIf (r.opc == 0x28 && r.synd == 1) (takeResp r (takeRnr r.psn))) s

/-- R273: a SEQ_NAK starts a resend pass from its PSN. -/
def execSeqNakRx (r : SftResp) (s : State) : Out :=
  onEng (onlyIf (r.opc == 0x28 && r.synd == 2) (takeResp r (takeSeq r.psn))) s

/-- R275: a NAK of syndrome 3 to 6 ends its request and moves the queue pair to ERROR. -/
def execErrorNakRx (r : SftResp) (s : State) : Out :=
  onEng (onlyIf (r.opc == 0x28 && 3 ≤ r.synd && r.synd ≤ 6) (takeResp r (takeError r.synd r.psn))) s

/-- R286: a RESYNC makes an RD sender resend from UNA_PSN with SYNC. -/
def execResyncRx (r : SftResp) (s : State) : Out :=
  onEng (onlyIf (r.opc == 0x28 && r.synd == 7) (takeResp r takeResync)) s

/-- R271: a read response lands in local memory and advances UNA_PSN. -/
def execReadRespRx (r : SftResp) (s : State) : Out :=
  onEng (onlyIf (0x11 ≤ r.opc && r.opc ≤ 0x14) (takeResp r (fun n key q =>
    takeData r.psn (fun _ t i => (r.payload, t.off + i * q.bytes)) n key q))) s

/-- R271: an atomic response lands the returned value and completes the atomic. -/
def execAtomicRespRx (r : SftResp) (s : State) : Out :=
  onEng (onlyIf (r.opc == 0x1C) (takeResp r (takeData r.psn (fun _ t _ => (leBytes t.len r.arh, t.off))))) s

/-- R272: RTO_US expires. -/
def execRetransmitTimeout (qpn key : Nat) (s : State) : Out :=
  onEng (fun d => match qpOf qpn d with
    | some q => onlyIf ((q.state == 3 || q.state == 4) && (q.conn key).snd != (q.conn key).una)
        (beginPass qpn key (q.conn key).una) d
    | none => d) s

/-- R274: RNR_US passes. -/
def execRnrWaitExpire (qpn key : Nat) (s : State) : Out :=
  onEng (updConn qpn key (fun c => match c.rnrWait with
    | some p => { c with rnrWait := none, pass := some (p, p) }
    | none => c)) s

/-- R276: a gap persists, so the SEQ_NAK is repeated. -/
def execSeqNakRepeat (qpn key : Nat) (s : State) : Out :=
  onEng (fun d => match qpOf qpn d with
    | some q => onlyIf (qpResponds q && (q.conn key).nakSent && !writesWait qpn d)
        (fun d => d |> sendNak qpn key (q.conn key).epsn 2 0 |> bump Reg.TPE_SEQ_NAK_TX (qpn % 8)) d
    | none => d) s

/-- R279: ACK_NS passes after a packet that asked for an ACK. -/
def execAckTimer (qpn key : Nat) (s : State) : Out :=
  onEng (fun d => match qpOf qpn d with
    | some q => onlyIf (qpResponds q && (q.conn key).ackDue) (sendAck qpn key) d
    | none => d) s

/-- R284: RECOVER_US passes without an ECE. -/
def execRateRecover (qpn : Nat) (s : State) : Out :=
  onEng (fun d => updQp qpn (fun q =>
    { q with rate := max q.rate (min (q.rate + rd Reg.TPE_RATE_STEP (qpn % 8) d) q.portRate) }) d) s

/-- A fetch of the context or a record of a queue pair is under way (R290). -/
def fetching (n : Nat) (d : Dev) : Bool := d.eng.fetches.contains n

/-- R290, R292: a context or record fetch completes, or fails. -/
def execContextFetchDone (qpn : Nat) (ok : Bool) (ns : Nat) (s : State) : Out :=
  onEng (fun d =>
    if !fetching qpn d then d else
    let f := if numHost qpn d then Reg.QPC_FETCH_HOST_MAX else Reg.QPC_FETCH_PKM_MAX
    let d1 := d |> memDone (fetchRank qpn d, qpn % 8, qpn) |> updEng (fun e => { e with fetches := e.fetches.filter (fun x => x != qpn) })
      |> wrFit f 0 (max (rd f 0 d) ns)
    if ok then d1 |> cacheCtx qpn |> runParked qpn
    else
      d1 |> bump Reg.QPC_FETCH_ERR 0
        |> updEng (fun e => { e with parked := e.parked.filter (fun x => x.qpn != qpn) }) |> countLagoon
        |> enterError qpn (Ending.plain 0) |> sliceEvent (numSlice qpn d) RingEv.CTX_FETCH_ERR qpn 0) s

/-- R290: a fetch overruns its bound. -/
def execFetchSlow (qpn : Nat) (s : State) : Out :=
  onEng (fun d => onlyIf (fetching qpn d) (raise Ev.FETCH_SLOW 0) d) s

/-- R291: the oldest packet on an engine's miss list that the lagoon has cells for parks. -/
def execLagoonAdmit (tpe : Nat) (s : State) : Out :=
  onEng (fun d =>
    match d.eng.parked.find? (fun x => !x.lagoon && x.qpn % 8 == tpe) with
    | some x =>
      if lagoonUsed d + x.cells ≤ rd Reg.HBR_LAGOON_RSV 0 d then
        let (a, b) := (d.eng.parked.takeWhile (fun y => y != x), d.eng.parked.dropWhile (fun y => y != x))
        d |> updEng (fun e => { e with parked := a ++ { x with lagoon := true, src := none } :: b.tail })
          |> bump Reg.QPC_PARKED 0 |> countLagoon
      else d
    | none => d) s

/-- R286: a peer record with nothing outstanding, unused for RD_IDLE_MS, is evicted. -/
def execPeerRecordIdleEvict (qpn key : Nat) (s : State) : Out :=
  onEng (fun d => match qpOf qpn d with
    | some q => onlyIf (q.rd && (smFind q.conns key).isSome && peerIdle (q.conn key))
        (fun d => d |> updQp qpn (fun q => { q with conns := smErase q.conns key }) |> writePeer qpn q false (q.conn key)) d
    | none => d) s

/-- R296: QUERY returns a context. -/
def execQpQuery (s : State) : Out := onEng (qpcCmd 0) s

/-- R269: CREATE takes a queue pair from free to RESET. -/
def execQpCreate (s : State) : Out := onEng (qpcCmd 1) s

/-- R269: MODIFY moves a queue pair between states. -/
def execQpModify (s : State) : Out := onEng (qpcCmd 2) s

/-- R269: DESTROY frees a queue pair in RESET or ERROR. -/
def execQpDestroy (s : State) : Out := onEng (qpcCmd 3) s

/-- R256: RANGE_READ returns a range entry. -/
def execRangeRead (s : State) : Out := onEng (qpcCmd 4) s

/-- R256: RANGE_WRITE checks and writes a range entry. -/
def execRangeWrite (s : State) : Out := onEng (qpcCmd 5) s

/-- R266: CQ_CREATE makes a completion queue ready. -/
def execCqCreate (s : State) : Out := onEng (qpcCmd 6) s

/-- R266: CQ_DESTROY frees a completion queue. -/
def execCqDestroy (s : State) : Out := onEng (qpcCmd 7) s

/-- R296: CQ_QUERY returns a completion queue context. -/
def execCqQuery (s : State) : Out := onEng (qpcCmd 8) s

end Sys2Proof.Machine
end

