-- ==== Sys2Proof/Machine/Dispatch.lean ====
section
/-!
DEFINITION. The dispatch of commands to their meanings.
-/

namespace Sys2Proof.Machine

/-- The effect of a command on everything but the queue. -/
def exec (i : Instr) (s : State) : Host.Outcome State Fault Refusal :=
  match i with
  | .behaviourLevelWrite value => Sys2Proof.Machine.execBehaviourLevelWrite value s
  | .d2dCorrectedError link n retries => Sys2Proof.Machine.execD2dCorrectedError link n retries s
  | .d2dUncorr link offset user => Sys2Proof.Machine.execD2dUncorr link offset user s
  | .registerWrite acc value aux => Sys2Proof.Machine.execRegisterWrite acc value aux s
  | .rcFieldRead path acc => Sys2Proof.Machine.execRcFieldRead path acc s
  | .devMgmtSemRead path sem => Sys2Proof.Machine.execDevMgmtSemRead path sem s
  | .pgCommit ty inst enable => Sys2Proof.Machine.execPgCommit ty inst enable s
  | .commitSwap ty inst => Sys2Proof.Machine.execCommitSwap ty inst s
  | .pgDiscard ty inst enable => Sys2Proof.Machine.execPgDiscard ty inst enable s
  | .pgLock ty inst enable => Sys2Proof.Machine.execPgLock ty inst enable s
  | .pgSoftRst ty inst enable => Sys2Proof.Machine.execPgSoftRst ty inst enable s
  | .softResetDone ty inst => Sys2Proof.Machine.execSoftResetDone ty inst s
  | .pgEnableWrite ty inst enable => Sys2Proof.Machine.execPgEnableWrite ty inst enable s
  | .pgEvtInj ty inst value => Sys2Proof.Machine.execPgEvtInj ty inst value s
  | .ibiRaise => Sys2Proof.Machine.execIbiRaise s
  | .i3cEntdaa addr => Sys2Proof.Machine.execI3cEntdaa addr s
  | .i3cResponseRead => Sys2Proof.Machine.execI3cResponseRead s
  | .compositeWindowAccess write member acc value aux => Sys2Proof.Machine.execCompositeWindowAccess write member acc value aux s
  | .remoteAccessApply req write addr value aux => Sys2Proof.Machine.execRemoteAccessApply req write addr value aux s
  | .remoteResponseRx req code vals => Sys2Proof.Machine.execRemoteResponseRx req code vals s
  | .remoteTmo req => Sys2Proof.Machine.execRemoteTmo req s
  | .identify path tag payload => Sys2Proof.Machine.execIdentify path tag payload s
  | .regRead path tag payload => Sys2Proof.Machine.execRegRead path tag payload s
  | .regWrite path tag payload aux => Sys2Proof.Machine.execRegWrite path tag payload aux s
  | .events path tag payload => Sys2Proof.Machine.execEvents path tag payload s
  | .logRead path tag payload => Sys2Proof.Machine.execLogRead path tag payload s
  | .sensors path tag payload => Sys2Proof.Machine.execSensors path tag payload s
  | .imageExport path tag payload => Sys2Proof.Machine.execImageExport path tag payload s
  | .exportSnapshotExpire => Sys2Proof.Machine.execExportSnapshotExpire s
  | .imageImport path tag chunk data => Sys2Proof.Machine.execImageImport path tag chunk data s
  | .imageImportCommit path tag => Sys2Proof.Machine.execImageImportCommit path tag s
  | .imageImportClear path tag => Sys2Proof.Machine.execImageImportClear path tag s
  | .fwStage path tag payload => Sys2Proof.Machine.execFwStage path tag payload s
  | .stagingOwnerExpire => Sys2Proof.Machine.execStagingOwnerExpire s
  | .fwActivate path tag payload => Sys2Proof.Machine.execFwActivate path tag payload s
  | .reset path tag payload => Sys2Proof.Machine.execReset path tag payload s
  | .composite path tag payload => Sys2Proof.Machine.execComposite path tag payload s
  | .edurnOtherOpcode opc path tag len crcOk payload => Sys2Proof.Machine.execEdurnOtherOpcode opc path tag len crcOk payload s
  | .lifecycleState path tag payload => Sys2Proof.Machine.execLifecycleState path tag payload s
  | .lifecycleNonce path tag payload => Sys2Proof.Machine.execLifecycleNonce path tag payload s
  | .nonceExpire => Sys2Proof.Machine.execNonceExpire s
  | .lifecycleTransition path tag payload => Sys2Proof.Machine.execLifecycleTransition path tag payload s
  | .rbCommit path tag payload => Sys2Proof.Machine.execRbCommit path tag payload s
  | .warmRst value => Sys2Proof.Machine.execWarmRst value s
  | .coldStart feed repairs => Sys2Proof.Machine.execColdStart feed repairs s
  | .memoryWipeComplete ok mem addr => Sys2Proof.Machine.execMemoryWipeComplete ok mem addr s
  | .upstreamPerstDeassert host => Sys2Proof.Machine.execUpstreamPerstDeassert host s
  | .rollCallRx port serial prio pref anchor id => Sys2Proof.Machine.execRollCallRx port serial prio pref anchor id s
  | .membershipStable cvhs lids grants => Sys2Proof.Machine.execMembershipStable cvhs lids grants s
  | .heartbeatRx anchor standby epoch serial => Sys2Proof.Machine.execHeartbeatRx anchor standby epoch serial s
  | .heartbeatSend => Sys2Proof.Machine.execHeartbeatSend s
  | .hbLossExpire => Sys2Proof.Machine.execHbLossExpire s
  | .handover told => Sys2Proof.Machine.execHandover told s
  | .laneSignalDetect lane => Sys2Proof.Machine.execLaneSignalDetect lane s
  | .laneSymbolLock lane => Sys2Proof.Machine.execLaneSymbolLock lane s
  | .laneLockLoss lane => Sys2Proof.Machine.execLaneLockLoss lane s
  | .laneMarkerRx lane raw => Sys2Proof.Machine.execLaneMarkerRx lane raw s
  | .qualificationEnd port res pfail spare => Sys2Proof.Machine.execQualificationEnd port res pfail spare s
  | .bringupStepTimeout port step lanes => Sys2Proof.Machine.execBringupStepTimeout port step lanes s
  | .bringupRetryTimer port => Sys2Proof.Machine.execBringupRetryTimer port s
  | .trimTick lane errs cw eye => Sys2Proof.Machine.execTrimTick lane errs cw eye s
  | .prbsLost lane errs bits => Sys2Proof.Machine.execPrbsLost lane errs bits s
  | .injOne lane => Sys2Proof.Machine.execInjOne lane s
  | .eyeStart lane => Sys2Proof.Machine.execEyeStart lane s
  | .eyeAbort lane => Sys2Proof.Machine.execEyeAbort lane s
  | .eyeScanDone lane errs => Sys2Proof.Machine.execEyeScanDone lane errs s
  | .spareReq lane => Sys2Proof.Machine.execSpareReq lane s
  | .spareRel lane => Sys2Proof.Machine.execSpareRel lane s
  | .dataFlitRx port b0 b1 b2 b3 body check => Sys2Proof.Machine.execDataFlitRx port b0 b1 b2 b3 body check s
  | .flitCheckFail port isData => Sys2Proof.Machine.execFlitCheckFail port isData s
  | .rsUncorrectable cw => Sys2Proof.Machine.execRsUncorrectable cw s
  | .statusRx port header body check => Sys2Proof.Machine.execStatusRx port header body check s
  | .nakRx port covered check => Sys2Proof.Machine.execNakRx port covered check s
  | .initRx port header credits serial rest => Sys2Proof.Machine.execInitRx port header credits serial rest s
  | .resetRx rx => Sys2Proof.Machine.execResetRx rx s
  | .linkFlitReservedRx port flit => Sys2Proof.Machine.execLinkFlitReservedRx port flit s
  | .statusSend port => Sys2Proof.Machine.execStatusSend port s
  | .nakRepeat port => Sys2Proof.Machine.execNakRepeat port s
  | .replayTimeout port => Sys2Proof.Machine.execReplayTimeout port s
  | .initRepeat port => Sys2Proof.Machine.execInitRepeat port s
  | .initTimeout port => Sys2Proof.Machine.execInitTimeout port s
  | .lockLossTimeout lane => Sys2Proof.Machine.execLockLossTimeout lane s
  | .silentTimeout port => Sys2Proof.Machine.execSilentTimeout port s
  | .linkDown port cause => Sys2Proof.Machine.execLinkDown port cause s
  | .linkResetIdleEnd port => Sys2Proof.Machine.execLinkResetIdleEnd port s
  | .lreset port => Sys2Proof.Machine.execLreset port s
  | .portEnableWrite port en => Sys2Proof.Machine.execPortEnableWrite port en s
  | .wakeSend port => Sys2Proof.Machine.execWakeSend port s
  | .wakePatternDetect port => Sys2Proof.Machine.execWakePatternDetect port s
  | .weatherSend port => Sys2Proof.Machine.execWeatherSend port s
  | .weatherRx port flit => Sys2Proof.Machine.execWeatherRx port flit s
  | .wxStale port => Sys2Proof.Machine.execWxStale port s
  | .ethFrameRx port fcsOk frame => Sys2Proof.Machine.execEthFrameRx port fcsOk frame s
  | .pfcFrameRx port prio quanta => Sys2Proof.Machine.execPfcFrameRx port prio quanta s
  | .pauseFrameRx port => Sys2Proof.Machine.execPauseFrameRx port s
  | .pfcRepeat port prio => Sys2Proof.Machine.execPfcRepeat port prio s
  | .pfcQuantaExpire port prio => Sys2Proof.Machine.execPfcQuantaExpire port prio s
  | .pfcWatchdog port prio => Sys2Proof.Machine.execPfcWatchdog port prio s
  | .ethPcsChange port pcs hiSer localFault remoteFault => Sys2Proof.Machine.execEthPcsChange port pcs hiSer localFault remoteFault s
  | .straitMatch strait => Sys2Proof.Machine.execStraitMatch strait s
  | .descriptorRx strait inIsl egIsl sseq => Sys2Proof.Machine.execDescriptorRx strait inIsl egIsl sseq s
  | .reorderStall inIsl egIsl => Sys2Proof.Machine.execReorderStall inIsl egIsl s
  | .straitFaultDetect strait cause isl data => Sys2Proof.Machine.execStraitFaultDetect strait cause isl data s
  | .strEnWrite strait en => Sys2Proof.Machine.execStrEnWrite strait en s
  | .straitDrainDone strait => Sys2Proof.Machine.execStraitDrainDone strait s
  | .straitSelftestDone strait pass => Sys2Proof.Machine.execStraitSelftestDone strait pass s
  | .harbourUncorrRead seg cell pkt => Sys2Proof.Machine.execHarbourUncorrRead seg cell pkt s
  | .segmentDrainDone seg => Sys2Proof.Machine.execSegmentDrainDone seg s
  | .segmentDrainTimeout seg => Sys2Proof.Machine.execSegmentDrainTimeout seg s
  | .mirrorRecordWrite session => Sys2Proof.Machine.execMirrorRecordWrite session s
  | .islReset isl => Sys2Proof.Machine.execIslReset isl s
  | .islTestWrite isl test => Sys2Proof.Machine.execIslTestWrite isl test s
  | .islandResetDone isl => Sys2Proof.Machine.execIslandResetDone isl s
  | .scheduleDecision port => Sys2Proof.Machine.execScheduleDecision port s
  | .wheelSlotDue isl => Sys2Proof.Machine.execWheelSlotDue isl s
  | .gateTransition port => Sys2Proof.Machine.execGateTransition port s
  | .gateSwitchRequest port => Sys2Proof.Machine.execGateSwitchRequest port s
  | .mtrRead bank => Sys2Proof.Machine.execMtrRead bank s
  | .mtrWrite bank => Sys2Proof.Machine.execMtrWrite bank s
  | .mtrReadClr bank => Sys2Proof.Machine.execMtrReadClr bank s
  | .escWaitTimeout pkt => Sys2Proof.Machine.execEscWaitTimeout pkt s
  | .routeHoldExpire pkt => Sys2Proof.Machine.execRouteHoldExpire pkt s
  | .portRejoin port => Sys2Proof.Machine.execPortRejoin port s
  | .stuckLane port vl => Sys2Proof.Machine.execStuckLane port vl s
  | .swap isl => Sys2Proof.Machine.execSwap isl s
  | .tblRead isl => Sys2Proof.Machine.execTblRead isl s
  | .tblWrite isl => Sys2Proof.Machine.execTblWrite isl s
  | .sqDoorbell vh slice wide num kind index entries => Sys2Proof.Machine.execSqDoorbell vh slice wide num kind index entries s
  | .rqDoorbell vh slice wide num kind index entries => Sys2Proof.Machine.execRqDoorbell vh slice wide num kind index entries s
  | .cqConsumerDoorbell vh slice wide num kind index => Sys2Proof.Machine.execCqConsumerDoorbell vh slice wide num kind index s
  | .cqArmDoorbell vh slice wide num kind => Sys2Proof.Machine.execCqArmDoorbell vh slice wide num kind s
  | .cqArmSolDoorbell vh slice wide num kind => Sys2Proof.Machine.execCqArmSolDoorbell vh slice wide num kind s
  | .wqeStart qpn => Sys2Proof.Machine.execWqeStart qpn s
  | .requestPacketSend qpn => Sys2Proof.Machine.execRequestPacketSend qpn s
  | .sftSendRx p => Sys2Proof.Machine.execSftSendRx p s
  | .sftWriteRx p => Sys2Proof.Machine.execSftWriteRx p s
  | .sftReadReqRx p => Sys2Proof.Machine.execSftReadReqRx p s
  | .sftAtomicRx p => Sys2Proof.Machine.execSftAtomicRx p s
  | .sftNotifyRx p => Sys2Proof.Machine.execSftNotifyRx p s
  | .rndvFinishRx p => Sys2Proof.Machine.execRndvFinishRx p s
  | .ackRx r => Sys2Proof.Machine.execAckRx r s
  | .rnrNakRx r => Sys2Proof.Machine.execRnrNakRx r s
  | .seqNakRx r => Sys2Proof.Machine.execSeqNakRx r s
  | .errorNakRx r => Sys2Proof.Machine.execErrorNakRx r s
  | .resyncRx r => Sys2Proof.Machine.execResyncRx r s
  | .readRespRx r => Sys2Proof.Machine.execReadRespRx r s
  | .atomicRespRx r => Sys2Proof.Machine.execAtomicRespRx r s
  | .retransmitTimeout qpn key => Sys2Proof.Machine.execRetransmitTimeout qpn key s
  | .rnrWaitExpire qpn key => Sys2Proof.Machine.execRnrWaitExpire qpn key s
  | .seqNakRepeat qpn key => Sys2Proof.Machine.execSeqNakRepeat qpn key s
  | .ackTimer qpn key => Sys2Proof.Machine.execAckTimer qpn key s
  | .rateRecover qpn => Sys2Proof.Machine.execRateRecover qpn s
  | .contextFetchDone qpn ok ns => Sys2Proof.Machine.execContextFetchDone qpn ok ns s
  | .fetchSlow qpn => Sys2Proof.Machine.execFetchSlow qpn s
  | .lagoonAdmit tpe => Sys2Proof.Machine.execLagoonAdmit tpe s
  | .peerRecordIdleEvict qpn key => Sys2Proof.Machine.execPeerRecordIdleEvict qpn key s
  | .hostCompletionRx vh tag ok data => Sys2Proof.Machine.execHostCompletionRx vh tag ok data s
  | .hostReadTimeout vh tag => Sys2Proof.Machine.execHostReadTimeout vh tag s
  | .qpQuery => Sys2Proof.Machine.execQpQuery s
  | .qpCreate => Sys2Proof.Machine.execQpCreate s
  | .qpModify => Sys2Proof.Machine.execQpModify s
  | .qpDestroy => Sys2Proof.Machine.execQpDestroy s
  | .rangeRead => Sys2Proof.Machine.execRangeRead s
  | .rangeWrite => Sys2Proof.Machine.execRangeWrite s
  | .cqCreate => Sys2Proof.Machine.execCqCreate s
  | .cqDestroy => Sys2Proof.Machine.execCqDestroy s
  | .cqQuery => Sys2Proof.Machine.execCqQuery s
  | .reg pages ok => Sys2Proof.Machine.execReg pages ok s
  | .rereg pages ok => Sys2Proof.Machine.execRereg pages ok s
  | .dereg => Sys2Proof.Machine.execDereg s
  | .mrgQuery => Sys2Proof.Machine.execMrgQuery s
  | .invalSlice => Sys2Proof.Machine.execInvalSlice s
  | .mrgRetireDone => Sys2Proof.Machine.execMrgRetireDone s
  | .xltFetchDone qpn ok => Sys2Proof.Machine.execXltFetchDone qpn ok s
  | .winRdLive => Sys2Proof.Machine.execWinRdLive s
  | .winRdShadow => Sys2Proof.Machine.execWinRdShadow s
  | .winWrShadow => Sys2Proof.Machine.execWinWrShadow s
  | .winCommit => Sys2Proof.Machine.execWinCommit s
  | .winDiscard => Sys2Proof.Machine.execWinDiscard s
  | .windowFenceDone reach win => Sys2Proof.Machine.execWindowFenceDone reach win s
  | .brgRdLive => Sys2Proof.Machine.execBrgRdLive s
  | .brgRdShadow => Sys2Proof.Machine.execBrgRdShadow s
  | .brgWrShadow => Sys2Proof.Machine.execBrgWrShadow s
  | .brgWinCommit => Sys2Proof.Machine.execBrgWinCommit s
  | .brgDiscard => Sys2Proof.Machine.execBrgDiscard s
  | .errClr => Sys2Proof.Machine.execErrClr s
  | .grpRd => Sys2Proof.Machine.execGrpRd s
  | .grpWr => Sys2Proof.Machine.execGrpWr s
  | .grpCommit => Sys2Proof.Machine.execGrpCommit s
  | .brgMemWriteTlp vh ofs data be => Sys2Proof.Machine.execBrgMemWriteTlp vh ofs data be s
  | .brgMemReadTlp vh req tag ofs len => Sys2Proof.Machine.execBrgMemReadTlp vh req tag ofs len s
  | .brgQueuedReadIssue => Sys2Proof.Machine.execBrgQueuedReadIssue s
  | .brgAtomicopTlp vh req tag ofs kind size op1 op2 => Sys2Proof.Machine.execBrgAtomicopTlp vh req tag ofs kind size op1 op2 s
  | .brgLockedRead vh req tag ofs len => Sys2Proof.Machine.execBrgLockedRead vh req tag ofs len s
  | .brgUnlockMsg vh req => Sys2Proof.Machine.execBrgUnlockMsg vh req s
  | .brgRdTimeout id => Sys2Proof.Machine.execBrgRdTimeout id s
  | .winLockTmo win => Sys2Proof.Machine.execWinLockTmo win s
  | .pfAgeExpire win ofs => Sys2Proof.Machine.execPfAgeExpire win ofs s
  | .messageNotifyRx p => Sys2Proof.Machine.execMessageNotifyRx p s
  | .fwdRangeWrite vh ofs data => Sys2Proof.Machine.execFwdRangeWrite vh ofs data s
  | .mapRead => Sys2Proof.Machine.execMapRead s
  | .mapWrite => Sys2Proof.Machine.execMapWrite s
  | .wireCommit => Sys2Proof.Machine.execWireCommit s
  | .wireCommitComplete => Sys2Proof.Machine.execWireCommitComplete s
  | .slotWireEdge slot wire level => Sys2Proof.Machine.execSlotWireEdge slot wire level s
  | .ctxQuery mte => Sys2Proof.Machine.execCtxQuery mte s
  | .ctxCreate mte => Sys2Proof.Machine.execCtxCreate mte s
  | .ctxDestroy mte => Sys2Proof.Machine.execCtxDestroy mte s
  | .matchDoorbell vh slice wide index entries => Sys2Proof.Machine.execMatchDoorbell vh slice wide index entries s
  | .matchPost slice => Sys2Proof.Machine.execMatchPost slice s
  | .matchProbe slice => Sys2Proof.Machine.execMatchProbe slice s
  | .matchCancel slice => Sys2Proof.Machine.execMatchCancel slice s
  | .overflowFetchDone mte ctx => Sys2Proof.Machine.execOverflowFetchDone mte ctx s
  | .grpRead cle => Sys2Proof.Machine.execGrpRead cle s
  | .grpCreate cle => Sys2Proof.Machine.execGrpCreate cle s
  | .grpModify cle => Sys2Proof.Machine.execGrpModify cle s
  | .grpDestroy cle => Sys2Proof.Machine.execGrpDestroy cle s
  | .childRead cle => Sys2Proof.Machine.execChildRead cle s
  | .childWrite cle => Sys2Proof.Machine.execChildWrite cle s
  | .memberRead cle => Sys2Proof.Machine.execMemberRead cle s
  | .memberBind cle => Sys2Proof.Machine.execMemberBind cle s
  | .memberUnbind cle => Sys2Proof.Machine.execMemberUnbind cle s
  | .collDoorbell vh slice wide slot index entries => Sys2Proof.Machine.execCollDoorbell vh slice wide slot index entries s
  | .collDescriptorStart slot => Sys2Proof.Machine.execCollDescriptorStart slot s
  | .collUpRx port p => Sys2Proof.Machine.execCollUpRx port p s
  | .collDownRx port p => Sys2Proof.Machine.execCollDownRx port p s
  | .collFaultRx port p => Sys2Proof.Machine.execCollFaultRx port p s
  | .collAbortRx port p => Sys2Proof.Machine.execCollAbortRx port p s
  | .collGoOnRx port p => Sys2Proof.Machine.execCollGoOnRx port p s
  | .collRedeliverRx port p => Sys2Proof.Machine.execCollRedeliverRx port p s
  | .collFaultTimeout group => Sys2Proof.Machine.execCollFaultTimeout group s
  | .collOpTimeout group => Sys2Proof.Machine.execCollOpTimeout group s
  | .expTlpRx idx t => Sys2Proof.Machine.execExpTlpRx idx t s
  | .configRequest vh type1 wr bus dev fn off be data req tag => Sys2Proof.Machine.execConfigRequest vh type1 wr bus dev fn off be data req tag s
  | .vhHotReset far vh => Sys2Proof.Machine.execVhHotReset far vh s
  | .bind far vh grant dexp ld => Sys2Proof.Machine.execBind far vh grant dexp ld s
  | .unbind far vh dexp ld => Sys2Proof.Machine.execUnbind far vh dexp ld s
  | .bindHoldoffEnd idx => Sys2Proof.Machine.execBindHoldoffEnd idx s
  | .pwRdLive => Sys2Proof.Machine.execPwRdLive s
  | .pwRdShadow => Sys2Proof.Machine.execPwRdShadow s
  | .pwWrShadow => Sys2Proof.Machine.execPwWrShadow s
  | .pwCommit => Sys2Proof.Machine.execPwCommit s
  | .pwDiscard => Sys2Proof.Machine.execPwDiscard s
  | .isoSet idx => Sys2Proof.Machine.execIsoSet idx s
  | .isoRel host idx => Sys2Proof.Machine.execIsoRel host idx s
  | .dpcTrigger far surprise idx vh dev => Sys2Proof.Machine.execDpcTrigger far surprise idx vh dev s
  | .expDlChange idx up speed width cxl lds t => Sys2Proof.Machine.execExpDlChange idx up speed width cxl lds t s
  | .expEnWrite idx value => Sys2Proof.Machine.execExpEnWrite idx value s
  | .compositePacketRx p => Sys2Proof.Machine.execCompositePacketRx p s
  | .compositeAckRx src cls ackSeq => Sys2Proof.Machine.execCompositeAckRx src cls ackSeq s
  | .compositeNakRx src cls ackSeq => Sys2Proof.Machine.execCompositeNakRx src cls ackSeq s
  | .compositeAckSend src cls => Sys2Proof.Machine.execCompositeAckSend src cls s
  | .cmpRtoExpire member cls => Sys2Proof.Machine.execCmpRtoExpire member cls s
  | .cplTmoExpire vh member req tag => Sys2Proof.Machine.execCplTmoExpire vh member req tag s
  | .slotPrsntChange slot level => Sys2Proof.Machine.execSlotPrsntChange slot level s
  | .slotWakeEdge slot => Sys2Proof.Machine.execSlotWakeEdge slot s
  | .slotAlertEdge slot => Sys2Proof.Machine.execSlotAlertEdge slot s
  | .slotClkreqChange slot level => Sys2Proof.Machine.execSlotClkreqChange slot level s
  | .perstDeassertTimer idx => Sys2Proof.Machine.execPerstDeassertTimer idx s
  | .bmeClear vh => Sys2Proof.Machine.execBmeClear vh s
  | .initiateFlr vh => Sys2Proof.Machine.execInitiateFlr vh s
  | .flrComplete vh => Sys2Proof.Machine.execFlrComplete vh s
  | .d3hotEntry vh => Sys2Proof.Machine.execD3hotEntry vh s
  | .d0Return vh => Sys2Proof.Machine.execD0Return vh s
  | .tagQuarantineEnd vh tag => Sys2Proof.Machine.execTagQuarantineEnd vh tag s
  | .sliceCreate slice => Sys2Proof.Machine.execSliceCreate slice s
  | .sliceQuiesce slice => Sys2Proof.Machine.execSliceQuiesce slice s
  | .sliceDrained slice => Sys2Proof.Machine.execSliceDrained slice s
  | .sliceQuiesceTmo slice => Sys2Proof.Machine.execSliceQuiesceTmo slice s
  | .sliceResume slice => Sys2Proof.Machine.execSliceResume slice s
  | .sliceReset slice => Sys2Proof.Machine.execSliceReset slice s
  | .sliceForceReset slice => Sys2Proof.Machine.execSliceForceReset slice s
  | .sliceRemove slice => Sys2Proof.Machine.execSliceRemove slice s
  | .sliceResetComplete slice => Sys2Proof.Machine.execSliceResetComplete slice s
  | .commandDoorbell vh slice wide index entries => Sys2Proof.Machine.execCommandDoorbell vh slice wide index entries s
  | .commandRingEntry slice data pages ok => Sys2Proof.Machine.execCommandRingEntry slice data pages ok s
  | .eventRingDoorbell vh slice value => Sys2Proof.Machine.execEventRingDoorbell vh slice value s
  | .msixUnmask vh vec => Sys2Proof.Machine.execMsixUnmask vh vec s
  | .atsTranslationCompletion vh pasid page ok to_ read write => Sys2Proof.Machine.execAtsTranslationCompletion vh pasid page ok to_ read write s
  | .prgResponse vh pasid page ok => Sys2Proof.Machine.execPrgResponse vh pasid page ok s
  | .pageRequestTimeout vh pasid page => Sys2Proof.Machine.execPageRequestTimeout vh pasid page s
  | .atsInvalidateRequest vh itag pasid page pages => Sys2Proof.Machine.execAtsInvalidateRequest vh itag pasid page pages s
  | .atsInvalidateComplete vh itag => Sys2Proof.Machine.execAtsInvalidateComplete vh itag s
  | .timeFlitSend port => Sys2Proof.Machine.execTimeFlitSend port s
  | .timeFlitRx port flit => Sys2Proof.Machine.execTimeFlitRx port flit s
  | .gmRoundTick => Sys2Proof.Machine.execGmRoundTick s
  | .gmRecordStale port => Sys2Proof.Machine.execGmRecordStale port s
  | .holdoverExpire => Sys2Proof.Machine.execHoldoverExpire s
  | .ppsInEdge => Sys2Proof.Machine.execPpsInEdge s
  | .ppsInLost => Sys2Proof.Machine.execPpsInLost s
  | .ppsOutSecond => Sys2Proof.Machine.execPpsOutSecond s
  | .setGo => Sys2Proof.Machine.execSetGo s
  | .phaseLoadGo => Sys2Proof.Machine.execPhaseLoadGo s
  | .hznRead => Sys2Proof.Machine.execHznRead s
  | .hznWrite => Sys2Proof.Machine.execHznWrite s
  | .arm => Sys2Proof.Machine.execArm s
  | .disarm => Sys2Proof.Machine.execDisarm s
  | .horizonFire => Sys2Proof.Machine.execHorizonFire s
  | .feedPresentChange feed present => Sys2Proof.Machine.execFeedPresentChange feed present s
  | .feedGood feed => Sys2Proof.Machine.execFeedGood feed s
  | .feedBelowSwLevel => Sys2Proof.Machine.execFeedBelowSwLevel s
  | .switchNow => Sys2Proof.Machine.execSwitchNow s
  | .feedSwitchBack => Sys2Proof.Machine.execFeedSwitchBack s
  | .efuseTrip feed cause peak => Sys2Proof.Machine.execEfuseTrip feed cause peak s
  | .pathOpenConfirmed feed => Sys2Proof.Machine.execPathOpenConfirmed feed s
  | .retryPeriodExpire feed => Sys2Proof.Machine.execRetryPeriodExpire feed s
  | .inrushChargeComplete feed => Sys2Proof.Machine.execInrushChargeComplete feed s
  | .tripClr feed => Sys2Proof.Machine.execTripClr feed s
  | .dipBegin => Sys2Proof.Machine.execDipBegin s
  | .dipEnd minMv => Sys2Proof.Machine.execDipEnd minMv s
  | .throttleEnd => Sys2Proof.Machine.execThrottleEnd s
  | .lossOfSupply => Sys2Proof.Machine.execLossOfSupply s
  | .aonPowerLoss => Sys2Proof.Machine.execAonPowerLoss s
  | .plinkAck dom => Sys2Proof.Machine.execPlinkAck dom s
  | .plinkRequestTimeout dom => Sys2Proof.Machine.execPlinkRequestTimeout dom s
  | .plinkMeasurementReport vinA vinB iinA iinB vbank pIn mj => Sys2Proof.Machine.execPlinkMeasurementReport vinA vinB iinA iinB vbank pIn mj s
  | .pwrReq value => Sys2Proof.Machine.execPwrReq value s
  | .domainTransitionDone dom => Sys2Proof.Machine.execDomainTransitionDone dom s
  | .domainWake dom code => Sys2Proof.Machine.execDomainWake dom code s
  | .spdmGetVersion ep => Sys2Proof.Machine.execSpdmGetVersion ep s
  | .spdmGetCapabilities ep => Sys2Proof.Machine.execSpdmGetCapabilities ep s
  | .spdmNegotiateAlgorithms ep => Sys2Proof.Machine.execSpdmNegotiateAlgorithms ep s
  | .spdmGetDigests ep => Sys2Proof.Machine.execSpdmGetDigests ep s
  | .spdmGetCertificate ep slot offset length => Sys2Proof.Machine.execSpdmGetCertificate ep slot offset length s
  | .spdmChallenge ep slot summary context => Sys2Proof.Machine.execSpdmChallenge ep slot summary context s
  | .spdmGetMeasurements ep op signed context => Sys2Proof.Machine.execSpdmGetMeasurements ep op signed context s
  | .spdmOtherRequest ep code => Sys2Proof.Machine.execSpdmOtherRequest ep code s
  | .setEndpointId ep op eid => Sys2Proof.Machine.execSetEndpointId ep op eid s
  | .getEndpointId ep => Sys2Proof.Machine.execGetEndpointId ep s
  | .getMctpVersionSupport ep type => Sys2Proof.Machine.execGetMctpVersionSupport ep type s
  | .getMessageTypeSupport ep => Sys2Proof.Machine.execGetMessageTypeSupport ep s
  | .doeDiscovery vh index => Sys2Proof.Machine.execDoeDiscovery vh index s
  | .patrolScrub word corrected => Sys2Proof.Machine.execPatrolScrub word corrected s
  | .deviceFaultDetect clock => Sys2Proof.Machine.execDeviceFaultDetect clock s
  | .mpWatchdogMiss uncorr => Sys2Proof.Machine.execMpWatchdogMiss uncorr s
  | .logClr => Sys2Proof.Machine.execLogClr s
  | .rdGo => Sys2Proof.Machine.execRdGo s
  | .agingMeasure roPpm margins => Sys2Proof.Machine.execAgingMeasure roPpm margins s
  | .agingTrendPeriod => Sys2Proof.Machine.execAgingTrendPeriod s
  | .chkGo job => Sys2Proof.Machine.execChkGo job s
  | .chkAbort job bytes data => Sys2Proof.Machine.execChkAbort job bytes data s
  | .chkJobComplete job ended bytes data => Sys2Proof.Machine.execChkJobComplete job ended bytes data s
  | .chkWatchReread job data => Sys2Proof.Machine.execChkWatchReread job data s
  | .thermalSample temps => Sys2Proof.Machine.execThermalSample temps s
  | .thermalThrottleEnd => Sys2Proof.Machine.execThermalThrottleEnd s
  | .deferredWarmReset => Sys2Proof.Machine.execDeferredWarmReset s
  | .vioChange mv => Sys2Proof.Machine.execVioChange mv s
  | .feedNotGood feed => Sys2Proof.Machine.execFeedNotGood feed s
  | .retryAttempt feed => Sys2Proof.Machine.execRetryAttempt feed s
  | .expFlowControlCreditRx port cls hdr data => Sys2Proof.Machine.execExpFlowControlCreditRx port cls hdr data s
  | .hostSliceRegisterWrite vh slice reg value => Sys2Proof.Machine.execHostSliceRegisterWrite vh slice reg value s

end Sys2Proof.Machine
end

