-- ==== Sys2Proof/Machine/Step.lean ====
section
/-!
DEFINITION. One step: the command at the front of the queue, or the clocks' advance while none waits (log entry 1).
-/

namespace Sys2Proof.Machine

/-- A step: the front command acts on the state with the queue's rest; on an empty queue one ns passes. -/
def step (s : State) : Host.Outcome State Fault Refusal :=
  match s.pending with
  | c :: rest => exec c { s with pending := rest }
  | [] => .next { s with dev := idleTick s.dev }

/-- A command word put in front: the table gives no command a word, so nothing changes. -/
def State.withFetchWord (s : State) (nbits w : Nat) : State :=
  match decodeTableWord nbits w with
  | some c => { s with pending := c :: s.pending }
  | none => s

end Sys2Proof.Machine
end

