-- ==== Sys2Proof/WellFormed.lean ====
section
/-!
DEFINITION. Which commands name things that exist. A command that is not well formed is still served: it has the effect that an access to
nothing has.
-/

namespace Sys2Proof

/-- A lane number (R91). -/
def isLane (n : Nat) : Bool := decide (n < 162)

/-- A port number (R92). -/
def isPort (n : Nat) : Bool := decide (n < 144)

/-- An island (R16, R157). -/
def isIsland (n : Nat) : Bool := decide (n < 20)

/-- A strait (R17). -/
def isStrait (n : Nat) : Bool := decide (n < 6)

/-- A power domain (R487). -/
def isDomain (n : Nat) : Bool := decide (n < 64)

/-- A harbour segment (R168). -/
def isSegment (n : Nat) : Bool := decide (n < 16)

/-- A feed (R474). -/
def isFeed (n : Nat) : Bool := decide (n < 2)

/-- A local virtual hierarchy (R395). -/
def isVh (n : Nat) : Bool := decide (n < 16)

/-- A slice (R438). -/
def isSlice (n : Nat) : Bool := decide (n < 4096)

/-- A collective unit or match quadrant (R17). -/
def isUnit (n : Nat) : Bool := decide (n < 4)

/-- A transport engine (R17). -/
def isEngine (n : Nat) : Bool := decide (n < 8)

/-- A QP number (R255). -/
def isQpn (n : Nat) : Bool := decide (n < 16777216)

/-- An SPDM or MCTP endpoint (R511). -/
def isEndpoint (n : Nat) : Bool := decide (n < 19)

/-- A check-value job (R534). -/
def isJob (n : Nat) : Bool := decide (n < 16)

/-- A die-to-die link (R15). -/
def isD2d (n : Nat) : Bool := decide (n < 9)

/-- A management semaphore (R58). -/
def isSem (n : Nat) : Bool := decide (n < 4)

/-- A mirror session (R181). -/
def isSession (n : Nat) : Bool := decide (n < 8)

/-- An EXP index (R395). -/
def isExp (n : Nat) : Bool := decide (n < 64)

/-- A meter bank (R214). -/
def isBank (n : Nat) : Bool := decide (n < 16)

/-- An expansion slot (R323). -/
def isSlot (n : Nat) : Bool := decide (n < 32)

/-- A window (R307). -/
def isWindow (n : Nat) : Bool := decide (n < 1024)

/-- A member slot (R364). -/
def isMember (n : Nat) : Bool := decide (n < 16384)

/-- A block type (R32). -/
def isType (n : Nat) : Bool := decide (n < 64)

/-- An instance or broadcast instance (R32). -/
def isInstance (n : Nat) : Bool := decide (n < 256)

/-- A management address (R32). -/
def isAddress (n : Nat) : Bool := decide (n < 67108864)

/-- An I3C address (R53). -/
def isI3c (n : Nat) : Bool := decide (n < 128)

/-- An Edurn tag (R54). -/
def isTag (n : Nat) : Bool := decide (n < 256)

/-- Every number in a command that names a thing names one that the block has. -/
def Instr.wf (i : Instr) : Bool :=
  match i with
  | .behaviourLevelWrite _ => true
  | .d2dCorrectedError link _ _ => isD2d link
  | .d2dUncorr link _ _ => isD2d link
  | .registerWrite acc _ _ => isAddress acc.addr
  | .rcFieldRead _ acc => isAddress acc.addr
  | .devMgmtSemRead _ sem => isSem sem
  | .pgCommit ty inst _ => isType ty && isInstance inst
  | .commitSwap ty inst => isType ty && isInstance inst
  | .pgDiscard ty inst _ => isType ty && isInstance inst
  | .pgLock ty inst _ => isType ty && isInstance inst
  | .pgSoftRst ty inst _ => isType ty && isInstance inst
  | .softResetDone ty inst => isType ty && isInstance inst
  | .pgEnableWrite ty inst _ => isType ty && isInstance inst
  | .pgEvtInj ty inst _ => isType ty && isInstance inst
  | .ibiRaise => true
  | .i3cEntdaa addr => isI3c addr
  | .i3cResponseRead => true
  | .compositeWindowAccess _ _ acc _ _ => isAddress acc.addr
  | .remoteAccessApply _ _ addr _ _ => isAddress addr
  | .remoteResponseRx _ _ _ => true
  | .remoteTmo _ => true
  | .identify _ tag _ => isTag tag
  | .regRead _ tag _ => isTag tag
  | .regWrite _ tag _ _ => isTag tag
  | .events _ tag _ => isTag tag
  | .logRead _ tag _ => isTag tag
  | .sensors _ tag _ => isTag tag
  | .imageExport _ tag _ => isTag tag
  | .exportSnapshotExpire => true
  | .imageImport _ tag _ _ => isTag tag
  | .imageImportCommit _ tag => isTag tag
  | .imageImportClear _ tag => isTag tag
  | .fwStage _ tag _ => isTag tag
  | .stagingOwnerExpire => true
  | .fwActivate _ tag _ => isTag tag
  | .reset _ tag _ => isTag tag
  | .composite _ tag _ => isTag tag
  | .edurnOtherOpcode _ _ tag _ _ _ => isTag tag
  | .lifecycleState _ tag _ => isTag tag
  | .lifecycleNonce _ tag _ => isTag tag
  | .nonceExpire => true
  | .lifecycleTransition _ tag _ => isTag tag
  | .rbCommit _ tag _ => isTag tag
  | .warmRst _ => true
  | .coldStart feed _ => isFeed feed
  | .memoryWipeComplete _ _ addr => isAddress addr
  | .upstreamPerstDeassert host => isVh host
  | .rollCallRx port _ _ _ _ _ => isPort port
  | .membershipStable _ _ _ => true
  | .heartbeatRx _ _ _ _ => true
  | .heartbeatSend => true
  | .hbLossExpire => true
  | .handover _ => true
  | .laneSignalDetect lane => isLane lane
  | .laneSymbolLock lane => isLane lane
  | .laneLockLoss lane => isLane lane
  | .laneMarkerRx lane _ => isLane lane
  | .qualificationEnd port _ _ _ => isPort port
  | .bringupStepTimeout port _ _ => isPort port
  | .bringupRetryTimer port => isPort port
  | .trimTick lane _ _ _ => isLane lane
  | .prbsLost lane _ _ => isLane lane
  | .injOne lane => isLane lane
  | .eyeStart lane => isLane lane
  | .eyeAbort lane => isLane lane
  | .eyeScanDone lane _ => isLane lane
  | .spareReq lane => isLane lane
  | .spareRel lane => isLane lane
  | .dataFlitRx port _ _ _ _ _ _ => isPort port
  | .flitCheckFail port _ => isPort port
  | .rsUncorrectable cw => isPort cw.port
  | .statusRx port _ _ _ => isPort port
  | .nakRx port _ _ => isPort port
  | .initRx port _ _ _ _ => isPort port
  | .resetRx rx => isPort rx.port
  | .linkFlitReservedRx port _ => isPort port
  | .statusSend port => isPort port
  | .nakRepeat port => isPort port
  | .replayTimeout port => isPort port
  | .initRepeat port => isPort port
  | .initTimeout port => isPort port
  | .lockLossTimeout lane => isLane lane
  | .silentTimeout port => isPort port
  | .linkDown port _ => isPort port
  | .linkResetIdleEnd port => isPort port
  | .lreset port => isPort port
  | .portEnableWrite port _ => isPort port
  | .wakeSend port => isPort port
  | .wakePatternDetect port => isPort port
  | .weatherSend port => isPort port
  | .weatherRx port _ => isPort port
  | .wxStale port => isPort port
  | .ethFrameRx port _ _ => isPort port
  | .pfcFrameRx port _ _ => isPort port
  | .pauseFrameRx port => isPort port
  | .pfcRepeat port _ => isPort port
  | .pfcQuantaExpire port _ => isPort port
  | .pfcWatchdog port _ => isPort port
  | .ethPcsChange port _ _ _ _ => isPort port
  | .straitMatch strait => isStrait strait
  | .descriptorRx strait inIsl egIsl _ => isStrait strait && isIsland inIsl && isIsland egIsl
  | .reorderStall inIsl egIsl => isIsland inIsl && isIsland egIsl
  | .straitFaultDetect strait _ isl _ => isStrait strait && isIsland isl
  | .strEnWrite strait _ => isStrait strait
  | .straitDrainDone strait => isStrait strait
  | .straitSelftestDone strait _ => isStrait strait
  | .harbourUncorrRead seg _ _ => isSegment seg
  | .segmentDrainDone seg => isSegment seg
  | .segmentDrainTimeout seg => isSegment seg
  | .mirrorRecordWrite session => isSession session
  | .islReset isl => isIsland isl
  | .islTestWrite isl _ => isIsland isl
  | .islandResetDone isl => isIsland isl
  | .scheduleDecision port => isPort port
  | .wheelSlotDue isl => isIsland isl
  | .gateTransition port => isPort port
  | .gateSwitchRequest port => isPort port
  | .mtrRead bank => isBank bank
  | .mtrWrite bank => isBank bank
  | .mtrReadClr bank => isBank bank
  | .escWaitTimeout _ => true
  | .routeHoldExpire _ => true
  | .portRejoin port => isPort port
  | .stuckLane port _ => isPort port
  | .swap isl => isIsland isl
  | .tblRead isl => isIsland isl
  | .tblWrite isl => isIsland isl
  | .sqDoorbell vh slice _ _ _ _ _ => isVh vh && isSlice slice
  | .rqDoorbell vh slice _ _ _ _ _ => isVh vh && isSlice slice
  | .cqConsumerDoorbell vh slice _ _ _ _ => isVh vh && isSlice slice
  | .cqArmDoorbell vh slice _ _ _ => isVh vh && isSlice slice
  | .cqArmSolDoorbell vh slice _ _ _ => isVh vh && isSlice slice
  | .wqeStart qpn => isQpn qpn
  | .requestPacketSend qpn => isQpn qpn
  | .sftSendRx _ => true
  | .sftWriteRx _ => true
  | .sftReadReqRx _ => true
  | .sftAtomicRx _ => true
  | .sftNotifyRx _ => true
  | .rndvFinishRx _ => true
  | .ackRx _ => true
  | .rnrNakRx _ => true
  | .seqNakRx _ => true
  | .errorNakRx _ => true
  | .resyncRx _ => true
  | .readRespRx _ => true
  | .atomicRespRx _ => true
  | .retransmitTimeout qpn _ => isQpn qpn
  | .rnrWaitExpire qpn _ => isQpn qpn
  | .seqNakRepeat qpn _ => isQpn qpn
  | .ackTimer qpn _ => isQpn qpn
  | .rateRecover qpn => isQpn qpn
  | .contextFetchDone qpn _ _ => isQpn qpn
  | .fetchSlow qpn => isQpn qpn
  | .lagoonAdmit tpe => isEngine tpe
  | .peerRecordIdleEvict qpn _ => isQpn qpn
  | .hostCompletionRx vh _ _ _ => isVh vh
  | .hostReadTimeout vh _ => isVh vh
  | .qpQuery => true
  | .qpCreate => true
  | .qpModify => true
  | .qpDestroy => true
  | .rangeRead => true
  | .rangeWrite => true
  | .cqCreate => true
  | .cqDestroy => true
  | .cqQuery => true
  | .reg _ _ => true
  | .rereg _ _ => true
  | .dereg => true
  | .mrgQuery => true
  | .invalSlice => true
  | .mrgRetireDone => true
  | .xltFetchDone qpn _ => isQpn qpn
  | .winRdLive => true
  | .winRdShadow => true
  | .winWrShadow => true
  | .winCommit => true
  | .winDiscard => true
  | .windowFenceDone _ _ => true
  | .brgRdLive => true
  | .brgRdShadow => true
  | .brgWrShadow => true
  | .brgWinCommit => true
  | .brgDiscard => true
  | .errClr => true
  | .grpRd => true
  | .grpWr => true
  | .grpCommit => true
  | .brgMemWriteTlp vh _ _ _ => isVh vh
  | .brgMemReadTlp vh _ _ _ _ => isVh vh
  | .brgQueuedReadIssue => true
  | .brgAtomicopTlp vh _ _ _ _ _ _ _ => isVh vh
  | .brgLockedRead vh _ _ _ _ => isVh vh
  | .brgUnlockMsg vh _ => isVh vh
  | .brgRdTimeout _ => true
  | .winLockTmo win => isWindow win
  | .pfAgeExpire win _ => isWindow win
  | .messageNotifyRx _ => true
  | .fwdRangeWrite vh _ _ => isVh vh
  | .mapRead => true
  | .mapWrite => true
  | .wireCommit => true
  | .wireCommitComplete => true
  | .slotWireEdge slot _ _ => isSlot slot
  | .ctxQuery mte => isUnit mte
  | .ctxCreate mte => isUnit mte
  | .ctxDestroy mte => isUnit mte
  | .matchDoorbell vh slice _ _ _ => isVh vh && isSlice slice
  | .matchPost slice => isSlice slice
  | .matchProbe slice => isSlice slice
  | .matchCancel slice => isSlice slice
  | .overflowFetchDone mte _ => isUnit mte
  | .grpRead cle => isUnit cle
  | .grpCreate cle => isUnit cle
  | .grpModify cle => isUnit cle
  | .grpDestroy cle => isUnit cle
  | .childRead cle => isUnit cle
  | .childWrite cle => isUnit cle
  | .memberRead cle => isUnit cle
  | .memberBind cle => isUnit cle
  | .memberUnbind cle => isUnit cle
  | .collDoorbell vh slice _ slot _ _ => isVh vh && isSlice slice && isMember slot
  | .collDescriptorStart slot => isMember slot
  | .collUpRx port _ => isPort port
  | .collDownRx port _ => isPort port
  | .collFaultRx port _ => isPort port
  | .collAbortRx port _ => isPort port
  | .collGoOnRx port _ => isPort port
  | .collRedeliverRx port _ => isPort port
  | .collFaultTimeout _ => true
  | .collOpTimeout _ => true
  | .expTlpRx idx _ => isExp idx
  | .configRequest vh _ _ _ _ _ _ _ _ _ _ => isVh vh
  | .vhHotReset _ vh => isVh vh
  | .bind _ vh _ _ _ => isVh vh
  | .unbind _ vh _ _ => isVh vh
  | .bindHoldoffEnd idx => isExp idx
  | .pwRdLive => true
  | .pwRdShadow => true
  | .pwWrShadow => true
  | .pwCommit => true
  | .pwDiscard => true
  | .isoSet idx => isExp idx
  | .isoRel _ idx => isExp idx
  | .dpcTrigger _ _ idx vh _ => isExp idx && isVh vh
  | .expDlChange idx _ _ _ _ _ _ => isExp idx
  | .expEnWrite idx _ => isExp idx
  | .compositePacketRx _ => true
  | .compositeAckRx _ _ _ => true
  | .compositeNakRx _ _ _ => true
  | .compositeAckSend _ _ => true
  | .cmpRtoExpire _ _ => true
  | .cplTmoExpire vh _ _ _ => isVh vh
  | .slotPrsntChange slot _ => isSlot slot
  | .slotWakeEdge slot => isSlot slot
  | .slotAlertEdge slot => isSlot slot
  | .slotClkreqChange slot _ => isSlot slot
  | .perstDeassertTimer idx => isExp idx
  | .bmeClear vh => isVh vh
  | .initiateFlr vh => isVh vh
  | .flrComplete vh => isVh vh
  | .d3hotEntry vh => isVh vh
  | .d0Return vh => isVh vh
  | .tagQuarantineEnd vh _ => isVh vh
  | .sliceCreate slice => isSlice slice
  | .sliceQuiesce slice => isSlice slice
  | .sliceDrained slice => isSlice slice
  | .sliceQuiesceTmo slice => isSlice slice
  | .sliceResume slice => isSlice slice
  | .sliceReset slice => isSlice slice
  | .sliceForceReset slice => isSlice slice
  | .sliceRemove slice => isSlice slice
  | .sliceResetComplete slice => isSlice slice
  | .commandDoorbell vh slice _ _ _ => isVh vh && isSlice slice
  | .commandRingEntry slice _ _ _ => isSlice slice
  | .eventRingDoorbell vh slice _ => isVh vh && isSlice slice
  | .msixUnmask vh _ => isVh vh
  | .atsTranslationCompletion vh _ _ _ _ _ _ => isVh vh
  | .prgResponse vh _ _ _ => isVh vh
  | .pageRequestTimeout vh _ _ => isVh vh
  | .atsInvalidateRequest vh _ _ _ _ => isVh vh
  | .atsInvalidateComplete vh _ => isVh vh
  | .timeFlitSend port => isPort port
  | .timeFlitRx port _ => isPort port
  | .gmRoundTick => true
  | .gmRecordStale port => isPort port
  | .holdoverExpire => true
  | .ppsInEdge => true
  | .ppsInLost => true
  | .ppsOutSecond => true
  | .setGo => true
  | .phaseLoadGo => true
  | .hznRead => true
  | .hznWrite => true
  | .arm => true
  | .disarm => true
  | .horizonFire => true
  | .feedPresentChange feed _ => isFeed feed
  | .feedGood feed => isFeed feed
  | .feedBelowSwLevel => true
  | .switchNow => true
  | .feedSwitchBack => true
  | .efuseTrip feed _ _ => isFeed feed
  | .pathOpenConfirmed feed => isFeed feed
  | .retryPeriodExpire feed => isFeed feed
  | .inrushChargeComplete feed => isFeed feed
  | .tripClr feed => isFeed feed
  | .dipBegin => true
  | .dipEnd _ => true
  | .throttleEnd => true
  | .lossOfSupply => true
  | .aonPowerLoss => true
  | .plinkAck dom => isDomain dom
  | .plinkRequestTimeout dom => isDomain dom
  | .plinkMeasurementReport _ _ _ _ _ _ _ => true
  | .pwrReq _ => true
  | .domainTransitionDone dom => isDomain dom
  | .domainWake dom _ => isDomain dom
  | .spdmGetVersion ep => isEndpoint ep
  | .spdmGetCapabilities ep => isEndpoint ep
  | .spdmNegotiateAlgorithms ep => isEndpoint ep
  | .spdmGetDigests ep => isEndpoint ep
  | .spdmGetCertificate ep _ _ _ => isEndpoint ep
  | .spdmChallenge ep _ _ _ => isEndpoint ep
  | .spdmGetMeasurements ep _ _ _ => isEndpoint ep
  | .spdmOtherRequest ep _ => isEndpoint ep
  | .setEndpointId ep _ _ => isEndpoint ep
  | .getEndpointId ep => isEndpoint ep
  | .getMctpVersionSupport ep _ => isEndpoint ep
  | .getMessageTypeSupport ep => isEndpoint ep
  | .doeDiscovery vh _ => isVh vh
  | .patrolScrub _ _ => true
  | .deviceFaultDetect _ => true
  | .mpWatchdogMiss _ => true
  | .logClr => true
  | .rdGo => true
  | .agingMeasure _ _ => true
  | .agingTrendPeriod => true
  | .chkGo job => isJob job
  | .chkAbort job _ _ => isJob job
  | .chkJobComplete job _ _ _ => isJob job
  | .chkWatchReread job _ => isJob job
  | .thermalSample _ => true
  | .thermalThrottleEnd => true
  | .deferredWarmReset => true
  | .vioChange _ => true
  | .feedNotGood feed => isFeed feed
  | .retryAttempt feed => isFeed feed
  | .expFlowControlCreditRx port _ _ _ => isPort port
  | .hostSliceRegisterWrite vh slice _ _ => isVh vh && isSlice slice

end Sys2Proof
end

