-- ==== Sys2Proof/Safety.lean ====
section
/-!
DEFINITION. What counts as a sound state and a lawful step, in the terms the statements use.
-/

namespace Sys2Proof.Machine

/-- The tables that must stay canonical: package memory, below 48 GiB, and the register words (R20, R32). -/
abbrev Dev.sound (d : Dev) : Prop := Memory.wf d.mem ∧ smWf coldWord d.regs

/-- The invariant that every step keeps: the tables are canonical and every command that waits is well formed. -/
abbrev State.sound (s : State) : Prop := s.dev.sound ∧ ∀ c ∈ s.pending, c.wf = true

/-- OTP changes as R501 lets it: records and owner slots are added, counters and flags rise, keys and certificates stay, and the identity
seed stays or becomes all ones (R509). -/
def otpRises (a b : Otp) : Prop :=
  b.serial = a.serial ∧ a.lcRec <+: b.lcRec ∧ a.fwRb ≤ b.fwRb ∧ a.keyRb ≤ b.keyRb ∧ b.fwKeys = a.fwKeys ∧ b.rootHash = a.rootHash ∧
    b.certs = a.certs ∧ (b.identSeed = a.identSeed ∨ b.identSeed = List.replicate 32 0xFF) ∧
    ∀ (i : Nat) (w : List Byte × Bool × Bool), a.owners[i]? = some w → ∃ v : List Byte × Bool × Bool, b.owners[i]? = some v ∧ v.1 = w.1 ∧ (w.2.1 = true → v.2.1 = true) ∧ (w.2.2 = true → v.2.2 = true)

/-- A command answers a next state: the block as given, the queue as it was. -/
abbrev answers (c : Instr) (s : State) (d : Dev) : Prop := exec c s = .next { s with dev := d }

/-- What follows a command on the transport engines: requests that waited for a context, a pin or the lagoon are taken as far as they now can
be, and the queue pairs whose completion failed enter ERROR (R269, R288, R291). -/
abbrev engSettled (d : Dev) : Dev := settleEng d

/-- What follows a command that may touch any block: on links, lanes and the datapath, then on the transport engines. -/
def allSettled (before after : Dev) : Dev := engSettled (settleNet before after)

/-- A write of a word reaches its register: the device is READY and its management processor runs, the page and the offset exist, the domain
is ON, and LOCK does not keep the write off (R34, R41, R46, R62). -/
abbrev served (ty inst off : Nat) (d : Dev) : Prop :=
  ready d = true ∧ d.mg.mpHalted = false ∧ pageExists ty inst d = true ∧ offsetOk ty inst off = true ∧
    domState (servedDomain ty inst off) d = 0 ∧ (hrd Reg.PG_CTRL_LOCK ty inst d = 0 ∨ lockable ty off = false)

/-- The word a self-clearing bit is written in: the bit set, the others as they read. -/
def trigWord (ty inst off bit : Nat) (d : Dev) : Word := wordAt (regAddr ty inst off) d ||| BitVec.ofNat 32 (2 ^ bit)

/-! ## Transport -/

/-- The block once a request packet is counted and its cached context touched (R257, R288). -/
def packetTaken (p : SftPkt) (d : Dev) : Dev :=
  d |> updEng (fun e => { e with withheld := clrBit e.withheld (p.dqpn % 8) }) |> bump Reg.TPE_PKT_RX (p.dqpn % 8)
    |> bump Reg.TPE_CACHE_HIT (p.dqpn % 8) |> touchCtx p.dqpn

/-- The same once the packet's key was looked up: a WRITE, a read or an atomic carries one (R306). -/
def keyLooked (p : SftPkt) (d : Dev) : Dev :=
  if isReadOrAtomic p.opc || p.opc / 8 == 1 then bump Reg.MRG_KEY_HIT 0 (packetTaken p d) else packetTaken p d

/-- A request packet that its engine takes: whole, for the range's VH, with room on the miss list, its context cached and its translation
known, and nothing waiting before it (R257, R281, R288, R290, R291). -/
abbrev PacketTaken (p : SftPkt) (d : Dev) : Prop :=
  p.ecrcOk = true ∧ rangeValid p.dqpn d = true ∧ numVh p.dqpn d = p.vh ∧ missFull (p.dqpn % 8) d = false ∧
    d.eng.cached.contains p.dqpn = true ∧ (d.eng.parked.any fun x => x.qpn == p.dqpn) = false ∧ pinFull p.dqpn d = false ∧
    writesWait p.dqpn d = false ∧ p.xlt = true

/-- A new request in sequence that its responder may execute at once, on connection `key`; `q` is the queue pair and `d1` the block once its
peer is known; opcode, permission and length pass (R257, R276, R280, R285, R286). -/
abbrev NewRequest (p : SftPkt) (key : Nat) (q : Qp) (d1 d : Dev) : Prop :=
  PacketTaken p d ∧ (∃ q0, qpOf p.dqpn d = some q0 ∧ q0.busy = none ∧ 2 ≤ q0.state ∧ q0.state ≠ 5 ∧ (q0.rd = true → p.ekey = q0.ekey) ∧
      slState q0.slice (keyLooked p d) = slActive ∧ connFor p.dqpn q0 p (keyLooked p d) = (some key, d1)) ∧
    qpOf p.dqpn d1 = some q ∧ slState q.slice d1 = slActive ∧ p.psn = (q.conn key).epsn ∧ opcOk q (q.conn key).inn p = true ∧
    permOk q p = true ∧ lenOk q (q.conn key).inn p = true

/-- What follows a request that was executed: its packet leaves the core (R291). -/
def requestDone (p : SftPkt) (before after : Dev) : Dev :=
  afterTaken (p.dqpn % 8) (decide (missCount (p.dqpn % 8) before < missCount (p.dqpn % 8) after)) after

/-- The block once a response packet is counted, its cached context touched and its congestion mark taken (R284, R288). -/
abbrev respTaken (r : SftResp) (d : Dev) : Dev :=
  bump Reg.TPE_PKT_RX (r.dqpn % 8) d |> onlyIf (d.eng.cached.contains r.dqpn)
    (fun d => d |> bump Reg.TPE_CACHE_HIT (r.dqpn % 8) |> touchCtx r.dqpn) |> takeEce r.dqpn r.ece

/-- The connection a response is for: the queue pair's own, or that of its peer (R285). -/
abbrev respConn (r : SftResp) (q : Qp) : Nat := if q.rd then peerKey r.slid r.sqpn else 0

/-- A response packet for a queue pair past INIT that its engine takes on connection `key`; `q` is the queue pair once it is counted (R257,
R263, R285, R294). -/
abbrev NewResponse (r : SftResp) (key : Nat) (q : Qp) (d : Dev) : Prop :=
  r.ecrcOk = true ∧ (r.dqpn = msgQpn ∨ (rangeValid r.dqpn d = true ∧ numVh r.dqpn d = r.vh)) ∧
    (∃ q0, qpOf r.dqpn d = some q0 ∧ 2 ≤ q0.state ∧ q0.state ≠ 5 ∧ key = respConn r q0 ∧
      (q0.rd = true → r.ekey = endpointKey r.dqpn q0 d ∧ (smFind q0.conns key).isSome = true)) ∧
    qpOf r.dqpn (respTaken r d) = some q

/-- A command of the QPC page is at hand: CMD_GO may be written, CMD_OP names the command, and the number it acts on is a good one of a
valid range, in package memory or in the memory of a function that may master the bus (R256, R296). -/
abbrev QpcReady (op num : Nat) (d : Dev) : Prop :=
  served 0x12 0 0x108 d ∧ rd Reg.QPC_CMD_OP 0 d = op ∧ rd Reg.QPC_CMD_NUM 0 d = num ∧ 0 < num ∧ num < msgQpn ∧ rangeValid num d = true ∧
    (numHost num d = false ∨ bme (numVh num d) d = true)

/-- The data block of the QPC page as bytes. -/
abbrev qpcData (d : Dev) : List Byte := regBytes Reg.QPC_CMD_DATA 0 64 d

/-- The end of a QPC command: data, status 0 and CMD_DONE (R296). -/
def qpcDone (b : List Byte) (d : Dev) : Dev :=
  d |> putRegBytes Reg.QPC_CMD_DATA 0 b |> wr Reg.QPC_CMD_STATUS 0 0 |> raise Ev.CMD_DONE 0

/-! ## Regions, matching and the bridge -/

/-- A command of the MRG page is at hand: CMD_GO may be written, CMD_OP names the command and none is busy (R304, R305). -/
abbrev MrgReady (op : Nat) (d : Dev) : Prop := served 0x13 0 0x118 d ∧ rd Reg.MRG_CMD_OP 0 d = op ∧ rd Reg.MRG_CMD_BUSY 0 d = 0

/-- The data block of the MRG page as bytes. -/
abbrev mrgData (d : Dev) : List Byte := regBytes Reg.MRG_CMD_DATA 0 16 d

/-- The region a REG or REREG describes, with its page list. -/
abbrev mrgNew (pages : List Nat) (d : Dev) : Region := regionFrom (mrgData d) pages

/-- What an MRG command answers: data, status 0 and key (R304). -/
def mrgAnswer (key : Nat) (b : List Byte) (d : Dev) : Dev :=
  d |> putRegBytes Reg.MRG_CMD_DATA 0 b |> wr Reg.MRG_CMD_STATUS 0 0 |> wr Reg.MRG_CMD_KEY 0 key

/-- An MRG command stays busy until the accesses under old mappings of regions retire (R305). -/
def mrgRetiring (idx : List Nat) (d : Dev) : Dev :=
  d |> wr Reg.MRG_CMD_BUSY 0 1 |> updEng (fun e => { e with retiring := e.retiring ++ [(idx, none)] })

/-- A command of a quadrant's page is at hand (R335). -/
abbrev MteReady (k op : Nat) (d : Dev) : Prop := served 0x17 k 0x138 d ∧ rd Reg.MTE_CMD_OP k d = op

/-- The end of a quadrant's command: data, index, status 0 and MATCH_CMD_DONE (R335). -/
def mteDone (k i : Nat) (b : List Byte) (d : Dev) : Dev :=
  d |> putRegBytes Reg.MTE_CMD_DATA k b |> wr Reg.MTE_CMD_IDX k i |> wr Reg.MTE_CMD_STATUS k 0 |> raise Ev.MATCH_CMD_DONE k

/-- The next entry of a slice's match post ring is for a context that exists, has not failed and waits for nothing, and no search of it
reads overflow (R341, R342, R347, R348). -/
abbrev EntryReady (n mop i : Nat) (c : MCtx) (e : List Byte) (d : Dev) : Prop :=
  nextPost n d = some e ∧ fieldLe e 0 1 = mop ∧ findCtx (quadOf n (fieldLe e 4 4)) n (fieldLe e 4 4) d = some i ∧
    ctxOf (quadOf n (fieldLe e 4 4)) i d = some c ∧ c.failed = false ∧
    (mop = 0 → lkeyOk n (fieldLe e 12 4) (fieldLe e 32 8) (fieldLe e 40 4) true d = true) ∧
    ctxWaits (quadOf n (fieldLe e 4 4)) i d = false ∧ entryOverflow (quadOf n (fieldLe e 4 4)) i e d = false

/-- A read of the bridge as a TLP asks for it. -/
abbrev brgAsk (w vh req tag ofs len kind opc op1 op2 : Nat) (d : Dev) : BrgRead :=
  ⟨0, w, bwGrp w d, vh, req, tag, ofs, len, kind, 0, [], [], opc, op1, op2, 0, 0, false, false⟩

/-! ## Slices -/

/-- SHARE and the limits of a slice lie in their ranges (R439, R448). -/
abbrev sliceLimitsOk (n : Nat) (d : Dev) : Prop :=
  1 ≤ slRd Reg.SLC_SHARE n d ∧ slRd Reg.SLC_MAX_REGIONS n d ≤ 4194304 ∧ 1 ≤ slRd Reg.SLC_MAX_RD n d ∧ slRd Reg.SLC_MAX_RD n d ≤ 4096 ∧
    slRd Reg.SLC_MAX_CTX n d ≤ 16384 ∧ slRd Reg.SLC_MAX_MEMBERS n d ≤ 16384 ∧ slRd Reg.SLC_MAX_GROUPS n d ≤ 64

/-! ## Collective units -/

/-- A command of a unit's page is at hand: CMD_GO may be written and CMD_OP and CMD_IDX name the command and what it acts on (R391). -/
abbrev CleReady (u op i : Nat) (d : Dev) : Prop := served 0x18 u 0x108 d ∧ rd Reg.CLE_CMD_OP u d = op ∧ rd Reg.CLE_CMD_IDX u d = i

/-- A unit's command ends with status 0 and COLL_CMD_DONE (R391). -/
def cleDone (u : Nat) (d : Dev) : Dev := d |> wr Reg.CLE_CMD_STATUS u 0 |> raise Ev.COLL_CMD_DONE u

/-! ## Straits and schedulers -/

/-- Changes the state of the links and the datapath. -/
abbrev updNet (f : Net → Net) (d : Dev) : Dev := { d with net := f d.net }

/-- The descriptor on the way over a strait from an island to another, by its SSEQ. -/
def flightOf (k i e q : Nat) (d : Dev) : Option Flight :=
  d.net.flights.find? (fun f => f.strait == k && f.desc.inIsl == i && f.desc.egIsl == e && f.desc.sseq == some q)

/-- The eligible queues of a port with the packet each would send (R193). -/
def eligibleOf (p : Nat) (d : Dev) : List (Nat × Packet) := (List.range 19).filterMap (fun q => (eligible p q d).map (fun k => (q, k)))

/-- The start tags of a port's queues once those that became eligible start at V (R195). -/
def eligibleTags (p : Nat) (d : Dev) : SMap Nat :=
  (eligibleOf p d).foldl (fun t e => if 3 ≤ e.1 ∧ bitOf (schedOf p d).elig e.1 = false then smPut t e.1 (schedOf p d).v else t) (schedOf p d).tags

/-! ## Pages and Edurn -/

/-- The written staged words that remain once those of a page are taken out. -/
def untouched (ty inst : Nat) (d : Dev) : List Nat := d.mg.touched.filter (fun a => !(addrType a == ty && addrInst a == inst))

/-- The block once an Edurn frame stands on its path: over the mailbox in DEV_MBX_DATA (R57). -/
def edPlaced (opc : Nat) (path : Path) (tag : Nat) (p : List Byte) (d : Dev) : Dev :=
  if path = .mailbox then mbxPut (edFrame opc tag p) d else d

/-- A path takes an Edurn command, none runs or waits there, and the start-up state serves it (R55, R57, R62). -/
abbrev EdReady (opc : Nat) (path : Path) (tag : Nat) (p : List Byte) (d : Dev) : Prop :=
  edServed path d = true ∧ edBusy path d = false ∧ (path = .mailbox → mbxBusy d = false) ∧ edGate opc (edPlaced opc path tag p d) = none

/-- The block as a command finds it: its frame placed, and in progress on its path. -/
def edEntered (opc : Nat) (path : Path) (tag : Nat) (p : List Byte) (d : Dev) : Dev := edEnter path tag opc (edPlaced opc path tag p d)

/-- The answer to an Edurn command goes out on its path. -/
def edAnswered (opc : Nat) (path : Path) (tag : Nat) (r : EdRes) : Dev := edAnswer path opc tag r.status r.body r.after (edLeave path r.dev)

/-- The end of an Edurn command: its answer goes out on its path, and a frame whose GO was written meanwhile is taken up. -/
def edEnds (opc : Nat) (path : Path) (tag : Nat) (aux : Aux) (before : Dev) (r : EdRes) : Dev :=
  allSettled before (mbxRun aux (edAnswered opc path tag r))

/-- The block that a list of commands makes of it, each run by `exec` in its turn; none if one of them stops. -/
def servedInTurn : List Sys2Proof.Instr → Dev → Option Dev
  | [], d => some d
  | c :: cs, d =>
    match exec c ⟨d, []⟩ with
    | .next t => servedInTurn cs t.dev
    | _ => none

/-- The parts of the block's state. -/
inductive Part where
  | regs
  | mem
  | out
  | freeCtr
  | mg
  | boot
  | otp
  | sec
  | log
  | chk
  | fd
  | pw
  | th
  | cmp
  | sens
  | net
  | eng
  | coll
  | sw
deriving DecidableEq, Repr

/-- A part is the same in two states of the block. -/
def Dev.same (p : Part) (a b : Dev) : Prop :=
  match p with
  | .regs => b.regs = a.regs
  | .mem => b.mem = a.mem
  | .out => b.out = a.out
  | .freeCtr => b.freeCtr = a.freeCtr
  | .mg => b.mg = a.mg
  | .boot => b.boot = a.boot
  | .otp => b.otp = a.otp
  | .sec => b.sec = a.sec
  | .log => b.log = a.log
  | .chk => b.chk = a.chk
  | .fd => b.fd = a.fd
  | .pw => b.pw = a.pw
  | .th => b.th = a.th
  | .cmp => b.cmp = a.cmp
  | .sens => b.sens = a.sens
  | .net => b.net = a.net
  | .eng => b.eng = a.eng
  | .coll => b.coll = a.coll
  | .sw => b.sw = a.sw

/-- Every part. -/
def allParts : List Part := [.regs, .mem, .out, .freeCtr, .mg, .boot, .otp, .sec, .log, .chk, .fd, .pw, .th, .cmp, .sens, .net, .eng, .coll, .sw]

/-- Every part but OTP. -/
def noOtp : List Part := [.regs, .mem, .out, .freeCtr, .mg, .boot, .sec, .log, .chk, .fd, .pw, .th, .cmp, .sens, .net, .eng, .coll, .sw]

/-- The parts that commands of this kind may change. -/
def engParts : List Part := [.regs, .mem, .out, .freeCtr, .mg, .log, .net, .eng]

/-- The parts that commands of this kind may change. -/
def netParts : List Part := [.regs, .mem, .out, .freeCtr, .mg, .log, .th, .net, .eng, .coll, .sw]

/-- The parts that commands of this kind may change. -/
def collEngParts : List Part := [.regs, .mem, .out, .freeCtr, .mg, .log, .net, .eng, .coll]

/-- The parts that commands of this kind may change. -/
def netPowerParts : List Part := [.regs, .mem, .out, .freeCtr, .mg, .log, .pw, .th, .net, .eng, .coll, .sw]

/-- The parts that commands of this kind may change. -/
def feedParts : List Part := [.regs, .out, .freeCtr, .mg, .log, .fd]

/-- The parts that commands of this kind may change. -/
def swNetParts : List Part := [.regs, .mem, .out, .freeCtr, .mg, .log, .net, .eng, .sw]

/-- The parts that commands of this kind may change. -/
def collParts : List Part := [.regs, .out, .freeCtr, .mg, .log, .coll]

/-- The parts of the state that a command may change. Every other part it leaves alone. -/
def cmdParts : Sys2Proof.Instr → List Part
  | .behaviourLevelWrite .. => allParts
  | .d2dCorrectedError .. => [.regs, .out, .freeCtr, .mg, .log]
  | .d2dUncorr .. => allParts
  | .registerWrite .. => allParts
  | .rcFieldRead .. => [.regs, .out, .mg, .pw]
  | .devMgmtSemRead .. => [.regs, .out, .mg, .pw]
  | .pgCommit .. => allParts
  | .commitSwap .. => netPowerParts
  | .pgDiscard .. => allParts
  | .pgLock .. => allParts
  | .pgSoftRst .. => allParts
  | .softResetDone .. => netParts
  | .pgEnableWrite .. => allParts
  | .pgEvtInj .. => allParts
  | .ibiRaise => [.out, .mg]
  | .i3cEntdaa .. => [.mg]
  | .i3cResponseRead => allParts
  | .compositeWindowAccess .. => allParts
  | .remoteAccessApply .. => allParts
  | .remoteResponseRx .. => allParts
  | .remoteTmo .. => allParts
  | .identify .. => allParts
  | .regRead .. => allParts
  | .regWrite .. => allParts
  | .events .. => allParts
  | .logRead .. => allParts
  | .sensors .. => allParts
  | .imageExport .. => allParts
  | .exportSnapshotExpire => [.boot]
  | .imageImport .. => allParts
  | .imageImportCommit .. => allParts
  | .imageImportClear .. => allParts
  | .fwStage .. => allParts
  | .stagingOwnerExpire => [.sec]
  | .fwActivate .. => allParts
  | .reset .. => allParts
  | .composite .. => allParts
  | .edurnOtherOpcode .. => allParts
  | .lifecycleState .. => allParts
  | .lifecycleNonce .. => allParts
  | .nonceExpire => [.sec]
  | .lifecycleTransition .. => allParts
  | .rbCommit .. => allParts
  | .warmRst .. => allParts
  | .coldStart .. => allParts
  | .memoryWipeComplete .. => [.regs, .mem, .out, .freeCtr, .mg, .boot, .log, .fd, .th, .cmp, .net, .eng, .coll, .sw]
  | .upstreamPerstDeassert .. => [.regs, .mem, .out, .freeCtr, .mg, .log, .th, .sens, .net, .eng, .coll, .sw]
  | .rollCallRx .. => [.regs, .mem, .out, .freeCtr, .mg, .log, .th, .cmp, .net, .eng, .coll, .sw]
  | .membershipStable .. => [.regs, .mem, .out, .freeCtr, .mg, .log, .th, .cmp, .net, .eng, .coll, .sw]
  | .heartbeatRx .. => [.regs, .mem, .out, .freeCtr, .mg, .log, .th, .cmp, .net, .eng, .coll, .sw]
  | .heartbeatSend => engParts
  | .hbLossExpire => [.regs, .mem, .out, .freeCtr, .mg, .log, .th, .cmp, .net, .eng, .coll, .sw]
  | .handover .. => [.regs, .mem, .out, .freeCtr, .mg, .log, .th, .cmp, .net, .eng, .coll, .sw]
  | .laneSignalDetect .. => netPowerParts
  | .laneSymbolLock .. => netParts
  | .laneLockLoss .. => netParts
  | .laneMarkerRx .. => netParts
  | .qualificationEnd .. => netParts
  | .bringupStepTimeout .. => netParts
  | .bringupRetryTimer .. => netParts
  | .trimTick .. => netParts
  | .prbsLost .. => netParts
  | .injOne .. => netParts
  | .eyeStart .. => netParts
  | .eyeAbort .. => netParts
  | .eyeScanDone .. => netParts
  | .spareReq .. => netParts
  | .spareRel .. => netParts
  | .dataFlitRx .. => netParts
  | .flitCheckFail .. => netParts
  | .rsUncorrectable .. => netParts
  | .statusRx .. => netParts
  | .nakRx .. => netParts
  | .initRx .. => netParts
  | .resetRx .. => netParts
  | .linkFlitReservedRx .. => netParts
  | .statusSend .. => netParts
  | .nakRepeat .. => netParts
  | .replayTimeout .. => netParts
  | .initRepeat .. => netParts
  | .initTimeout .. => netParts
  | .lockLossTimeout .. => netParts
  | .silentTimeout .. => netParts
  | .linkDown .. => netParts
  | .linkResetIdleEnd .. => netParts
  | .lreset .. => netParts
  | .portEnableWrite .. => netParts
  | .wakeSend .. => netParts
  | .wakePatternDetect .. => netPowerParts
  | .weatherSend .. => netParts
  | .weatherRx .. => netParts
  | .wxStale .. => netParts
  | .ethFrameRx .. => netParts
  | .pfcFrameRx .. => netParts
  | .pauseFrameRx .. => netParts
  | .pfcRepeat .. => netParts
  | .pfcQuantaExpire .. => netParts
  | .pfcWatchdog .. => netParts
  | .ethPcsChange .. => netParts
  | .straitMatch .. => netParts
  | .descriptorRx .. => netParts
  | .reorderStall .. => netParts
  | .straitFaultDetect .. => netPowerParts
  | .strEnWrite .. => netParts
  | .straitDrainDone .. => netPowerParts
  | .straitSelftestDone .. => netPowerParts
  | .harbourUncorrRead .. => netParts
  | .segmentDrainDone .. => netPowerParts
  | .segmentDrainTimeout .. => allParts
  | .mirrorRecordWrite .. => netParts
  | .islReset .. => netParts
  | .islTestWrite .. => netParts
  | .islandResetDone .. => netParts
  | .scheduleDecision .. => netParts
  | .wheelSlotDue .. => netParts
  | .gateTransition .. => netParts
  | .gateSwitchRequest .. => netParts
  | .mtrRead .. => netParts
  | .mtrWrite .. => netParts
  | .mtrReadClr .. => netParts
  | .escWaitTimeout .. => netParts
  | .routeHoldExpire .. => netParts
  | .portRejoin .. => netParts
  | .stuckLane .. => netParts
  | .swap .. => netParts
  | .tblRead .. => netParts
  | .tblWrite .. => netParts
  | .sqDoorbell .. => engParts
  | .rqDoorbell .. => engParts
  | .cqConsumerDoorbell .. => engParts
  | .cqArmDoorbell .. => engParts
  | .cqArmSolDoorbell .. => engParts
  | .wqeStart .. => engParts
  | .requestPacketSend .. => engParts
  | .sftSendRx .. => engParts
  | .sftWriteRx .. => engParts
  | .sftReadReqRx .. => engParts
  | .sftAtomicRx .. => engParts
  | .sftNotifyRx .. => engParts
  | .rndvFinishRx .. => engParts
  | .ackRx .. => engParts
  | .rnrNakRx .. => engParts
  | .seqNakRx .. => engParts
  | .errorNakRx .. => engParts
  | .resyncRx .. => engParts
  | .readRespRx .. => engParts
  | .atomicRespRx .. => engParts
  | .retransmitTimeout .. => engParts
  | .rnrWaitExpire .. => engParts
  | .seqNakRepeat .. => engParts
  | .ackTimer .. => engParts
  | .rateRecover .. => engParts
  | .contextFetchDone .. => engParts
  | .fetchSlow .. => engParts
  | .lagoonAdmit .. => engParts
  | .peerRecordIdleEvict .. => engParts
  | .hostCompletionRx .. => collEngParts
  | .hostReadTimeout .. => collEngParts
  | .qpQuery => engParts
  | .qpCreate => engParts
  | .qpModify => engParts
  | .qpDestroy => engParts
  | .rangeRead => engParts
  | .rangeWrite => engParts
  | .cqCreate => engParts
  | .cqDestroy => engParts
  | .cqQuery => engParts
  | .reg .. => engParts
  | .rereg .. => engParts
  | .dereg => engParts
  | .mrgQuery => engParts
  | .invalSlice => engParts
  | .mrgRetireDone => engParts
  | .xltFetchDone .. => engParts
  | .winRdLive => engParts
  | .winRdShadow => engParts
  | .winWrShadow => engParts
  | .winCommit => engParts
  | .winDiscard => engParts
  | .windowFenceDone .. => engParts
  | .brgRdLive => engParts
  | .brgRdShadow => engParts
  | .brgWrShadow => engParts
  | .brgWinCommit => engParts
  | .brgDiscard => engParts
  | .errClr => engParts
  | .grpRd => engParts
  | .grpWr => engParts
  | .grpCommit => engParts
  | .brgMemWriteTlp .. => engParts
  | .brgMemReadTlp .. => engParts
  | .brgQueuedReadIssue => engParts
  | .brgAtomicopTlp .. => engParts
  | .brgLockedRead .. => engParts
  | .brgUnlockMsg .. => engParts
  | .brgRdTimeout .. => engParts
  | .winLockTmo .. => engParts
  | .pfAgeExpire .. => engParts
  | .messageNotifyRx .. => engParts
  | .fwdRangeWrite .. => engParts
  | .mapRead => engParts
  | .mapWrite => engParts
  | .wireCommit => [.regs, .mem, .out, .freeCtr, .mg, .log, .sens, .net, .eng]
  | .wireCommitComplete => [.regs, .mem, .out, .freeCtr, .mg, .log, .sens, .net, .eng]
  | .slotWireEdge .. => [.regs, .mem, .out, .freeCtr, .mg, .log, .sens, .net, .eng]
  | .ctxQuery .. => engParts
  | .ctxCreate .. => engParts
  | .ctxDestroy .. => engParts
  | .matchDoorbell .. => engParts
  | .matchPost .. => engParts
  | .matchProbe .. => engParts
  | .matchCancel .. => engParts
  | .overflowFetchDone .. => engParts
  | .grpRead .. => collParts
  | .grpCreate .. => collParts
  | .grpModify .. => collParts
  | .grpDestroy .. => collParts
  | .childRead .. => collParts
  | .childWrite .. => collParts
  | .memberRead .. => collParts
  | .memberBind .. => collParts
  | .memberUnbind .. => collParts
  | .collDoorbell .. => [.regs, .mem, .out, .freeCtr, .mg, .log, .pw, .net, .eng, .coll]
  | .collDescriptorStart .. => collEngParts
  | .collUpRx .. => [.regs, .mem, .out, .freeCtr, .mg, .log, .pw, .net, .eng, .coll]
  | .collDownRx .. => [.regs, .mem, .out, .freeCtr, .mg, .log, .pw, .net, .eng, .coll]
  | .collFaultRx .. => [.regs, .mem, .out, .freeCtr, .mg, .log, .pw, .net, .eng, .coll]
  | .collAbortRx .. => [.regs, .mem, .out, .freeCtr, .mg, .log, .pw, .net, .eng, .coll]
  | .collGoOnRx .. => [.regs, .mem, .out, .freeCtr, .mg, .log, .pw, .net, .eng, .coll]
  | .collRedeliverRx .. => [.regs, .mem, .out, .freeCtr, .mg, .log, .pw, .net, .eng, .coll]
  | .collFaultTimeout .. => collEngParts
  | .collOpTimeout .. => collEngParts
  | .expTlpRx .. => swNetParts
  | .configRequest .. => [.regs, .mem, .out, .freeCtr, .mg, .log, .net, .eng, .coll, .sw]
  | .vhHotReset .. => [.regs, .mem, .out, .freeCtr, .mg, .log, .net, .eng, .coll, .sw]
  | .bind .. => swNetParts
  | .unbind .. => swNetParts
  | .bindHoldoffEnd .. => swNetParts
  | .pwRdLive => swNetParts
  | .pwRdShadow => swNetParts
  | .pwWrShadow => swNetParts
  | .pwCommit => swNetParts
  | .pwDiscard => swNetParts
  | .isoSet .. => swNetParts
  | .isoRel .. => swNetParts
  | .dpcTrigger .. => swNetParts
  | .expDlChange .. => [.regs, .mem, .out, .freeCtr, .mg, .log, .net, .eng, .coll, .sw]
  | .expEnWrite .. => [.regs, .mem, .out, .freeCtr, .mg, .log, .net, .eng, .coll, .sw]
  | .compositePacketRx .. => swNetParts
  | .compositeAckRx .. => swNetParts
  | .compositeNakRx .. => [.regs, .mem, .out, .freeCtr, .mg, .log, .cmp, .net, .eng, .sw]
  | .compositeAckSend .. => swNetParts
  | .cmpRtoExpire .. => [.regs, .mem, .out, .freeCtr, .mg, .log, .cmp, .net, .eng, .sw]
  | .cplTmoExpire .. => swNetParts
  | .slotPrsntChange .. => [.regs, .mem, .out, .freeCtr, .mg, .log, .sens, .net, .eng, .sw]
  | .slotWakeEdge .. => [.regs, .mem, .out, .freeCtr, .mg, .log, .sens, .net, .eng, .sw]
  | .slotAlertEdge .. => [.regs, .mem, .out, .freeCtr, .mg, .log, .sens, .net, .eng]
  | .slotClkreqChange .. => [.regs, .mem, .out, .freeCtr, .mg, .log, .sens, .net, .eng, .sw]
  | .perstDeassertTimer .. => swNetParts
  | .bmeClear .. => collEngParts
  | .initiateFlr .. => collEngParts
  | .flrComplete .. => engParts
  | .d3hotEntry .. => collEngParts
  | .d0Return .. => collEngParts
  | .tagQuarantineEnd .. => engParts
  | .sliceCreate .. => engParts
  | .sliceQuiesce .. => engParts
  | .sliceDrained .. => engParts
  | .sliceQuiesceTmo .. => engParts
  | .sliceResume .. => [.regs, .mem, .out, .freeCtr, .mg, .log, .pw, .net, .eng, .coll]
  | .sliceReset .. => collEngParts
  | .sliceForceReset .. => collEngParts
  | .sliceRemove .. => collEngParts
  | .sliceResetComplete .. => engParts
  | .commandDoorbell .. => engParts
  | .commandRingEntry .. => engParts
  | .eventRingDoorbell .. => engParts
  | .msixUnmask .. => engParts
  | .atsTranslationCompletion .. => [.regs, .mem, .out, .freeCtr, .mg, .log, .pw, .net, .eng, .coll]
  | .prgResponse .. => collEngParts
  | .pageRequestTimeout .. => collEngParts
  | .atsInvalidateRequest .. => engParts
  | .atsInvalidateComplete .. => engParts
  | .timeFlitSend .. => [.out, .th, .net]
  | .timeFlitRx .. => netPowerParts
  | .gmRoundTick => [.regs]
  | .gmRecordStale .. => [.regs, .out, .freeCtr, .mg, .log, .th]
  | .holdoverExpire => [.regs, .out, .freeCtr, .mg, .log, .net]
  | .ppsInEdge => netPowerParts
  | .ppsInLost => [.regs, .out, .freeCtr, .mg, .log, .th]
  | .ppsOutSecond => [.out]
  | .setGo => netPowerParts
  | .phaseLoadGo => netPowerParts
  | .hznRead => [.regs, .out, .freeCtr, .mg, .log]
  | .hznWrite => [.regs, .out, .freeCtr, .mg, .log, .th]
  | .arm => netPowerParts
  | .disarm => [.regs, .out, .freeCtr, .mg, .log, .th]
  | .horizonFire => netPowerParts
  | .feedPresentChange .. => [.regs, .freeCtr, .fd]
  | .feedGood .. => feedParts
  | .feedBelowSwLevel => feedParts
  | .switchNow => feedParts
  | .feedSwitchBack => feedParts
  | .efuseTrip .. => feedParts
  | .pathOpenConfirmed .. => feedParts
  | .retryPeriodExpire .. => [.regs]
  | .inrushChargeComplete .. => feedParts
  | .tripClr .. => feedParts
  | .dipBegin => feedParts
  | .dipEnd .. => feedParts
  | .throttleEnd => [.regs, .out, .fd]
  | .lossOfSupply => [.regs, .out, .boot, .fd, .pw]
  | .aonPowerLoss => [.fd]
  | .plinkAck .. => [.pw]
  | .plinkRequestTimeout .. => allParts
  | .plinkMeasurementReport .. => [.regs, .freeCtr]
  | .pwrReq .. => [.regs, .out, .freeCtr, .mg, .log, .pw]
  | .domainTransitionDone .. => allParts
  | .domainWake .. => [.regs, .out, .freeCtr, .mg, .log, .pw]
  | .spdmGetVersion .. => [.regs, .out, .freeCtr, .sec]
  | .spdmGetCapabilities .. => [.regs, .out, .freeCtr, .sec]
  | .spdmNegotiateAlgorithms .. => [.regs, .out, .freeCtr, .sec]
  | .spdmGetDigests .. => [.regs, .out, .freeCtr]
  | .spdmGetCertificate .. => [.regs, .out, .freeCtr]
  | .spdmChallenge .. => [.regs, .out, .freeCtr]
  | .spdmGetMeasurements .. => [.regs, .out, .freeCtr]
  | .spdmOtherRequest .. => [.regs, .out, .freeCtr]
  | .setEndpointId .. => [.out, .sec]
  | .getEndpointId .. => [.out]
  | .getMctpVersionSupport .. => [.out, .freeCtr]
  | .getMessageTypeSupport .. => [.out]
  | .doeDiscovery .. => [.out]
  | .patrolScrub .. => allParts
  | .deviceFaultDetect .. => [.regs, .out, .freeCtr, .mg, .boot, .log, .net]
  | .mpWatchdogMiss .. => allParts
  | .logClr => netParts
  | .rdGo => netParts
  | .agingMeasure .. => netParts
  | .agingTrendPeriod => netParts
  | .chkGo .. => [.regs, .mem, .out, .freeCtr, .mg, .log, .chk, .th, .net, .eng, .coll, .sw]
  | .chkAbort .. => [.regs, .mem, .out, .freeCtr, .mg, .log, .chk, .th, .net, .eng, .coll, .sw]
  | .chkJobComplete .. => [.regs, .mem, .out, .freeCtr, .mg, .log, .chk, .th, .net, .eng, .coll, .sw]
  | .chkWatchReread .. => [.regs, .mem, .out, .freeCtr, .mg, .log, .chk, .th, .net, .eng, .coll, .sw]
  | .thermalSample .. => [.regs, .out, .freeCtr, .mg, .boot, .log, .fd, .sens, .net]
  | .thermalThrottleEnd => [.regs, .out, .freeCtr, .fd]
  | .deferredWarmReset => allParts
  | .vioChange .. => [.regs, .out, .freeCtr, .sens]
  | .feedNotGood .. => [.regs]
  | .retryAttempt .. => feedParts
  | .expFlowControlCreditRx .. => netParts
  | .hostSliceRegisterWrite .. => allParts

end Sys2Proof.Machine
end

