-- ==== Sys2Proof/Certificates/Slice0/Obligations.lean ====
section
/-!
DEFINITION. The statements for the provers: what every step keeps, and what each command does.
-/

open Sys2Proof Sys2Proof.Machine

/-- A doorbell to the page of an ACTIVE slice of its function, for a queue pair or completion queue of that slice: KIND 0 sets the send
queue's producer index and posts its slots, KIND 1 the receive queue's, KIND 2 sets a completion queue's consumer index, KIND 3 arms it,
KIND 4 arms it for solicited completions only. Entries on a page that the function has yet to translate are posted only once a Translation
Request for it is answered. The command answers exactly that state. (R264, R265, R266, R289, R427, R434) -/
def Obligations.DoorbellsServed : Prop :=
  (∀ (s : State) (vh n num index : Nat) (es : List (List Byte)) (q : Qp), slRd Reg.SLC_VH n s.dev = vh → slState n s.dev = slActive →
    ownsNum n num s.dev = true → brgQp num s.dev = false → qpOf num s.dev = some q → q.state ≠ 5 →
    (es = [] ∨ rd Reg.FUN_ATS_EN vh s.dev ≠ 1 →
      answers (.sqDoorbell vh n true num 0 index es) s
        (engSettled (s.dev |> updQp num (fun q => { q with sqPi := index }) |> updQp num (fun q => { q with sq := q.sq ++ es }))) ∧
      answers (.rqDoorbell vh n true num 1 index es) s
        (engSettled (s.dev |> updQp num (fun q => { q with rqPi := index }) |> updQp num (fun q => { q with rq := q.rq ++ es.map recvOf })))) ∧
    (es ≠ [] → rd Reg.FUN_ATS_EN vh s.dev = 1 → (s.dev.eng.ringWaits.any fun w => w.slice == n && w.key == num) = false →
      ∀ page, page = ringPlace n num s.dev / 4096 →
      ((s.dev.eng.atc.any fun e => e.vh == vh && e.pasid == slicePasid n s.dev && e.page == page && e.read) = true →
        answers (.sqDoorbell vh n true num 0 index es) s (engSettled (s.dev |> bump Reg.FUN_ATC_HIT vh
          |> updQp num (fun q => { q with sqPi := index }) |> updQp num (fun q => { q with sq := q.sq ++ es })))) ∧
      ((s.dev.eng.atc.any fun e => e.vh == vh && e.pasid == slicePasid n s.dev && e.page == page && e.read) = false →
        answers (.sqDoorbell vh n true num 0 index es) s (engSettled (s.dev
          |> updQp num (fun q => { q with sqPi := index }) |> updQp num (fun q => { q with sq := q.sq ++ [] })
          |> askPage vh (slicePasid n s.dev) page |> waitRing n num index (ringPlace n num s.dev) es true))))) ∧
  (∀ (s : State) (vh n num index : Nat) (c : Cq), slRd Reg.SLC_VH n s.dev = vh → slState n s.dev = slActive → ownsNum n num s.dev = true →
    cqOf num s.dev = some c →
    answers (.cqConsumerDoorbell vh n true num 2 index) s (engSettled (s.dev |> touchCq num |> putCq num (some { c with ci := index }))) ∧
    answers (.cqArmDoorbell vh n true num 3) s
      (engSettled (s.dev |> touchCq num |> putCq num (some { c with armed := true, solOnly := false }))) ∧
    answers (.cqArmSolDoorbell vh n true num 4) s
      (engSettled (s.dev |> touchCq num |> putCq num (some { c with armed := true, solOnly := true }))))

/-- WQE_START at a queue pair that may start, with its context cached, a way of its set free to be pinned, and its slice's turn at the engine,
takes the slots of its next request, advances SQ_CI, counts SLC WQE_STARTS, charges the slice its share and launches the request.
REQUEST_PACKET_SEND at a queue pair in RTS or DRAIN whose pace permits a packet sends the next packet of its resend pass; with no pass,
the next packet of the first request that may send, which it records as outstanding. (R265, R270, R273, R281, R284, R286, R288, R443) -/
def Obligations.RequesterStartsAndSends : Prop :=
  (∀ (s : State) (n : Nat) (q q1 : Qp) (slot : List Byte) (rest : List (List Byte)) (w : Wqe), qpOf n s.dev = some q → q.sq = slot :: rest →
    brgQp n s.dev = false → qpMayStart q slot rest s.dev = true → pinFull n s.dev = false → s.dev.eng.cached.contains n = true →
    q.forNext slot rest (s.dev.th.localNs / 1000000) = some q1 → fairSlice (n % 8) s.dev = some q.slice →
    w = wqeOf q slot (rest.headD []) →
    answers (.wqeStart n) s (engSettled (s.dev |> bump Reg.TPE_CACHE_HIT (n % 8) |> touchCtx n
      |> putPeer n w.conn q { q1 with sq := q.sq.drop (slotsOf slot), sqCi := (q.sqCi + slotsOf slot) % 65536, peerRaised := false }
      |> slWr Reg.SLC_WQE_STARTS q.slice ((slRd Reg.SLC_WQE_STARTS q.slice s.dev + 1) % 2 ^ 32)
      |> fairCharge (n % 8) q.slice s.dev |> launch n q w))) ∧
  (∀ (s : State) (n : Nat) (q : Qp), qpOf n s.dev = some q → (q.state = 3 ∨ q.state = 4) → q.paceAt ≤ 1000 * s.dev.th.localNs →
    (∀ (key from_ at_ : Nat) (c : Conn),
      q.conns.find? passRuns = some (key, some c) →
      c.pass = some (from_, at_) → answers (.requestPacketSend n) s (engSettled (resendNext n key q from_ at_ s.dev))) ∧
    (∀ (w : Wqe) (opc k len : Nat) (bytes : List Byte) (last : Bool), q.conns.find? passRuns = none →
      pickWqe n q s.dev = some w → nextPacket q w = (opc, k, bytes, len, last) →
      ∀ t : TxPkt, t = { psn := (q.conn w.conn).snd, n := k, wqe := w.id, opc := opc
                         ackReq := last || ((q.conn w.conn).sentCnt + 1) % max 1 (rd Reg.TPE_ACKREQ_INT (n % 8) s.dev) == 0
                         sol := w.sol && last, bytes := bytes, isRead := w.fetches, off := w.off, len := len, got := [] } →
      answers (.requestPacketSend n) s (engSettled (s.dev |> sendReq n q w.conn t
        |> updConn n w.conn (fun c => { c with
            snd := psnAdd c.snd k, sentCnt := c.sentCnt + 1, lastUse := s.dev.th.localNs / 1000000, out := c.out ++ [t] })
        |> updQp n (fun q => { q with started := q.started.map (fun x =>
            if x.id = w.id then { x with off := x.off + len, begun := true, allSent := last } else x) })))))

/-- A request packet with the PSN its connection expects, whose checks pass, is executed at once by kind: SEND, WRITE, READ_REQ, atomic,
NOTIFY, and a rendezvous finish, which completes the request that awaits it. Its packet then leaves the core. The same on an RC queue pair
and, for its peer, on an RD queue pair. (R257, R276, R280, R281, R282, R283, R285, R286, R291, R340) -/
def Obligations.ResponderExecutesNewRequests : Prop :=
  ∀ (s : State) (p : SftPkt) (key : Nat) (q : Qp) (d1 : Dev), NewRequest p key q d1 s.dev →
    (p.opc ≤ 5 → q.matchEn = false →
      answers (.sftSendRx p) s (engSettled (requestDone p s.dev (doSend p.dqpn key q p d1)))) ∧
    (p.opc ≤ 5 → q.matchEn = true →
      answers (.sftSendRx p) s (engSettled (requestDone p s.dev (doMatchSend p.dqpn key q p d1)))) ∧
    (8 ≤ p.opc → p.opc ≤ 0x0D → answers (.sftWriteRx p) s (engSettled (requestDone p s.dev (doWrite p.dqpn key q p d1)))) ∧
    (p.opc = 0x10 → answers (.sftReadReqRx p) s (engSettled (requestDone p s.dev (doRead p.dqpn key q p d1)))) ∧
    (0x18 ≤ p.opc → p.opc ≤ 0x1B → answers (.sftAtomicRx p) s (engSettled (requestDone p s.dev (doAtomic p.dqpn key q p d1)))) ∧
    (p.opc = 0x20 → finishFor p s.dev = false → isFinish q p = false →
      answers (.sftNotifyRx p) s (engSettled (requestDone p s.dev (doNotify p.dqpn key q p d1)))) ∧
    (p.opc = 0x20 → finishFor p s.dev = true → isFinish q p = true →
      answers (.rndvFinishRx p) s (engSettled (requestDone p s.dev (doFinish p.dqpn key q p d1))))

/-- For a packet in flight on a connection of a queue pair past INIT: an ACK acknowledges everything up to its PSN; an RNR_NAK within RNR_MAX
acknowledges everything before its PSN and stops sending; a SEQ_NAK starts a resend pass from its PSN; a NAK of syndrome 3 to 6 ends its
request and moves the queue pair to ERROR; read and atomic responses land their data once and acknowledge. A RESYNC makes an RD sender
resend from UNA_PSN with SYNC. (R262, R263, R271, R273, R274, R275, R284, R285, R286) -/
def Obligations.RequesterTakesResponses : Prop :=
  ∀ (s : State) (r : SftResp) (key : Nat) (q : Qp), NewResponse r key q s.dev →
    (r.opc = 0x28 → inFlight (q.conn key) r.psn = true →
      (r.synd = 0 → answers (.ackRx r) s (engSettled (ackBefore r.dqpn key (psnAdd r.psn 1) (respTaken r s.dev)))) ∧
      (∀ q1, r.synd = 1 → qpOf r.dqpn (ackBefore r.dqpn key r.psn (respTaken r s.dev)) = some q1 →
        (q.rnrMax = 7 ∨ (q1.conn key).rnr + 1 ≤ q.rnrMax) →
        answers (.rnrNakRx r) s (engSettled (updConn r.dqpn key (fun c => { c with rnr := min (c.rnr + 1) 7, rnrWait := some r.psn, pass := none })
          (ackBefore r.dqpn key r.psn (respTaken r s.dev))))) ∧
      (r.synd = 2 → (q.conn key).pass = none →
        answers (.seqNakRx r) s (engSettled (respTaken r s.dev |> bump Reg.TPE_SEQ_NAK_RX (r.dqpn % 8) |> ackBefore r.dqpn key r.psn
          |> beginPass r.dqpn key r.psn))) ∧
      (∀ q1 w, 3 ≤ r.synd → r.synd ≤ 6 → qpOf r.dqpn (ackBefore r.dqpn key r.psn (respTaken r s.dev)) = some q1 →
        wqeAt q1 key r.psn = some w → w.kind = .sq → w.signaled = true →
        answers (.errorNakRx r) s (engSettled (enterError r.dqpn ⟨9, some (w.id, nakStatus r.synd), false, r.psn⟩
          (ackBefore r.dqpn key r.psn (respTaken r s.dev)))))) ∧
    (∀ t w, (q.conn key).out.find? (fun t => t.isRead && decide (psnSub r.psn t.psn < t.n)) = some t →
      t.got.contains (psnSub r.psn t.psn) = false → q.started.find? (fun w => w.id == t.wqe) = some w →
      (0x11 ≤ r.opc → r.opc ≤ 0x14 → answers (.readRespRx r) s (engSettled (respTaken r s.dev
        |> landResp r.dqpn w (t.off + psnSub r.psn t.psn * q.bytes) r.payload
        |> updConn r.dqpn key (fun c => { c with out := c.out.map (fun x =>
            if x.psn = t.psn then { x with got := x.got ++ [psnSub r.psn t.psn] } else x) })
        |> ackBefore r.dqpn key (psnAdd r.psn 1)))) ∧
      (r.opc = 0x1C → answers (.atomicRespRx r) s (engSettled (respTaken r s.dev
        |> landResp r.dqpn w t.off (leBytes t.len r.arh)
        |> updConn r.dqpn key (fun c => { c with out := c.out.map (fun x =>
            if x.psn = t.psn then { x with got := x.got ++ [psnSub r.psn t.psn] } else x) })
        |> ackBefore r.dqpn key (psnAdd r.psn 1))))) ∧
    (q.rd = true → r.opc = 0x28 → r.synd = 7 →
      answers (.resyncRx r) s (engSettled (updConn r.dqpn key
        (fun c => { c with synced := false, pass := if c.snd = c.una then none else some (c.una, c.una) }) (respTaken r s.dev))))

/-- RTO_US begins a resend pass from UNA_PSN; RNR_US ends the wait and resends; a persistent gap repeats SEQ_NAK; ACK_NS sends the ACK due;
RECOVER_US raises the rate by RATE_STEP up to the port's rate; a completed fetch records its time, caches the context and runs what was
parked; an overrun raises FETCH_SLOW; the oldest waiting packet parks once the lagoon has cells; an idle peer record is evicted. (R272,
R274, R276, R279, R284, R286, R290, R291) -/
def Obligations.TransportTimersAct : Prop :=
  (∀ (s : State) (n key : Nat) (q : Qp), qpOf n s.dev = some q → (q.state = 3 ∨ q.state = 4) → (q.conn key).snd ≠ (q.conn key).una →
    answers (.retransmitTimeout n key) s (engSettled (beginPass n key (q.conn key).una s.dev))) ∧
  (∀ (s : State) (n key psn : Nat) (q : Qp), qpOf n s.dev = some q → (q.conn key).rnrWait = some psn →
    answers (.rnrWaitExpire n key) s
      (engSettled (putQp n (some (q.setConn key { q.conn key with rnrWait := none, pass := some (psn, psn) })) s.dev))) ∧
  (∀ (s : State) (n key : Nat) (q : Qp), qpOf n s.dev = some q → qpResponds q = true → (q.conn key).nakSent = true → writesWait n s.dev = false →
    answers (.seqNakRepeat n key) s (engSettled (s.dev |> sendNak n key (q.conn key).epsn 2 0 |> bump Reg.TPE_SEQ_NAK_TX (n % 8)))) ∧
  (∀ (s : State) (n key : Nat) (q : Qp), qpOf n s.dev = some q → qpResponds q = true → (q.conn key).ackDue = true →
    answers (.ackTimer n key) s (engSettled (sendAck n key s.dev))) ∧
  (∀ (s : State) (n : Nat) (q : Qp), qpOf n s.dev = some q →
    answers (.rateRecover n) s (engSettled (putQp n
      (some { q with rate := max q.rate (min (q.rate + rd Reg.TPE_RATE_STEP (n % 8) s.dev) q.portRate) }) s.dev))) ∧
  (∀ (s : State) (n ns : Nat), s.dev.eng.fetches.contains n = true →
    ∀ f, f = (if numHost n s.dev then Reg.QPC_FETCH_HOST_MAX else Reg.QPC_FETCH_PKM_MAX) →
    answers (.contextFetchDone n true ns) s (engSettled (s.dev |> memDone (fetchRank n s.dev, n % 8, n)
      |> updEng (fun e => { e with fetches := e.fetches.filter (fun x => x != n) })
      |> wrFit f 0 (max (rd f 0 s.dev) ns) |> cacheCtx n |> runParked n))) ∧
  (∀ (s : State) (n : Nat), s.dev.eng.fetches.contains n = true →
    answers (.fetchSlow n) s (engSettled (raise Ev.FETCH_SLOW 0 s.dev))) ∧
  (∀ (s : State) (t : Nat) (x : Park) (l : List Park), s.dev.eng.parked = x :: l → x.lagoon = false → x.qpn % 8 = t →
    lagoonUsed s.dev + x.cells ≤ rd Reg.HBR_LAGOON_RSV 0 s.dev →
    answers (.lagoonAdmit t) s (engSettled (s.dev |> updEng (fun e => { e with parked := { x with lagoon := true, src := none } :: l })
      |> bump Reg.QPC_PARKED 0 |> countLagoon))) ∧
  (∀ (s : State) (n key : Nat) (q : Qp), qpOf n s.dev = some q → q.rd = true → (smFind q.conns key).isSome = true →
    peerIdle (q.conn key) = true →
    answers (.peerRecordIdleEvict n key) s (engSettled (s.dev
      |> updQp n (fun q => { q with conns := smErase q.conns key }) |> writePeer n q false (q.conn key))))

/-- With CMD_GO written while CMD_OP names the command and CMD_NUM a good number: QUERY returns the context; CREATE makes an RC queue pair in
RESET; MODIFY makes a transition that the queue pair's state and the data block allow, or moves it to ERROR; DESTROY frees a queue pair in
RESET or ERROR; RANGE_READ returns the entry and RANGE_WRITE writes one that passes; CQ_CREATE makes a completion queue ready, CQ_DESTROY
frees it, CQ_QUERY returns its context. Each ends with CMD_STATUS 0 and CMD_DONE. (The RNR timer of a created queue pair is the model's
free value, log entry 32.) (R256, R266, R269, R287, R296) -/
def Obligations.QueuePairCommandsComplete : Prop :=
  (∀ (s : State) (n : Nat) (q : Qp), QpcReady 0 n s.dev → qpOf n s.dev = some q →
    answers .qpQuery s (engSettled (qpcDone (contextBytes q) s.dev))) ∧
  (∀ (s : State) (n : Nat), QpcReady 1 n s.dev → qpOf n s.dev = none → bitsOf (fieldLe (qpcData s.dev) 0 1) 4 2 = 0 →
    answers .qpCreate s (engSettled (qpcDone [] (s.dev |> takeFree |> clearRecord n
      |> putQp n (some { Qp.init (numSlice n s.dev) false with rnrTmr := rnrFree s.dev }))))) ∧
  (∀ (s : State) (n to_ : Nat) (q q1 : Qp), QpcReady 2 n s.dev → rd Reg.QPC_MODIFY_TO 0 s.dev = to_ → qpOf n s.dev = some q →
    (to_ ≠ 5 → modifyQp q to_ (qpcData s.dev) s.dev = .inl q1 →
      answers .qpModify s (engSettled (qpcDone [] ((if to_ = 4 then groupsDown n s.dev else if q.state = 2 ∧ to_ = 3 then takeFree s.dev else s.dev)
        |> onlyIf (to_ == 0) (fun d => d |> clearRecord n |> forgetRings n) |> putQp n (some q1) |> drainCheck n)))) ∧
    (to_ = 5 → q.state ≠ 0 →
      answers .qpModify s (engSettled (qpcDone [] (s.dev |> enterError n (Ending.plain (q.conn 0).una) |> kickAtomics))))) ∧
  (∀ (s : State) (n : Nat) (q : Qp), QpcReady 3 n s.dev → qpOf n s.dev = some q → (q.state = 0 ∨ q.state = 5) →
    answers .qpDestroy s (engSettled (qpcDone [] (s.dev |> putQp n none |> forgetRings n
      |> updEng (fun e => { e with cached := e.cached.filter (fun x => x != n), pinWait := e.pinWait.filter (fun x => x != n) }))))) ∧
  (∀ (s : State) (r : Nat), served 0x12 0 0x108 s.dev → rd Reg.QPC_CMD_OP 0 s.dev = 4 → rd Reg.QPC_CMD_NUM 0 s.dev = r → r < 4096 →
    answers .rangeRead s (engSettled (qpcDone (leBytes 4 (rangeOf r s.dev).1 ++ leBytes 8 (rangeOf r s.dev).2 ++ leBytes 4 0) s.dev))) ∧
  (∀ (s : State) (r : Nat), served 0x12 0 0x108 s.dev → rd Reg.QPC_CMD_OP 0 s.dev = 5 → rd Reg.QPC_CMD_NUM 0 s.dev = r → r < 4096 →
    rangeWriteOk r (fieldLe (qpcData s.dev) 0 4 % 2 ^ 18) (fieldLe (qpcData s.dev) 4 8) s.dev = true →
    answers .rangeWrite s (engSettled (qpcDone [] (updEng (fun e => { e with
      ranges := smSet (fun _ => (0, 0)) e.ranges r (fieldLe (qpcData s.dev) 0 4 % 2 ^ 18, fieldLe (qpcData s.dev) 4 8) }) s.dev)))) ∧
  (∀ (s : State) (n : Nat), QpcReady 6 n s.dev → cqOf n s.dev = none → 4 ≤ fieldLe (qpcData s.dev) 1 1 → fieldLe (qpcData s.dev) 1 1 ≤ 16 →
    answers .cqCreate s (engSettled (qpcDone [] (s.dev |> touchCq n
      |> putCq n (some ⟨1, fieldLe (qpcData s.dev) 1 1, false, false, 0, 0, fieldLe (qpcData s.dev) 16 8, true⟩))))) ∧
  (∀ (s : State) (n : Nat) (c : Cq), QpcReady 7 n s.dev → cqOf n s.dev = some c →
    answers .cqDestroy s (engSettled (qpcDone [] (s.dev |> putCq n none
      |> updEng (fun e => { e with cqCached := e.cqCached.filter (fun x => x != n) }))))) ∧
  (∀ (s : State) (n : Nat) (c : Cq), QpcReady 8 n s.dev → cqOf n s.dev = some c →
    answers .cqQuery s (engSettled (qpcDone (cqBytes c) (touchCq n s.dev))))

/-- With CMD_GO written while CMD_OP names the command: QUERY returns the entry; REG enters the region described at the next free index and
returns its key; REREG replaces a region's mapping and raises its generation; DEREG invalidates it; INVAL_SLICE invalidates every valid
region of a slice. REREG, DEREG and an INVAL_SLICE that invalidates a region stay busy until the old accesses retire, and MRG_CMD_DONE
then ends them. A translation fetch lets the parked packets run. (R300, R304, R305, R306) -/
def Obligations.RegionCommandsComplete : Prop :=
  (∀ (s : State), MrgReady 0 s.dev →
    answers .mrgQuery s (engSettled (raise Ev.MRG_CMD_DONE 0
      (mrgAnswer (rd Reg.MRG_CMD_KEY 0 s.dev) (regionBytes (regionOf (keyIdx (rd Reg.MRG_CMD_KEY 0 s.dev)) s.dev)) s.dev)))) ∧
  (∀ (s : State) (pages : List Nat) (i : Nat) (n : Region), MrgReady 1 s.dev → headIndex s.dev = some i →
    n = { mrgNew pages s.dev with pages := pages.take (needPages (mrgNew pages s.dev)), vh := slRd Reg.SLC_VH (mrgNew pages s.dev).slice s.dev } →
    regionParamOk n s.dev = true → sliceRegions n.slice s.dev < slRd Reg.SLC_MAX_REGIONS n.slice s.dev →
    needPages (mrgNew pages s.dev) ≤ pages.length → (needPages (mrgNew pages s.dev) = 0 ∨ bme n.vh s.dev = true) →
    xltBlocks n ≤ xltFree s.dev →
    answers (.reg pages true) s (engSettled (raise Ev.MRG_CMD_DONE 0 (mrgAnswer (i * 1024 + (regionOf i s.dev).gen) []
      (s.dev |> takeIndex |> putRegion i { n with gen := (regionOf i s.dev).gen } |> countRegions (xltFree s.dev)))))) ∧
  (∀ (s : State) (pages : List Nat) (r m n : Region) (key : Nat), MrgReady 2 s.dev → rd Reg.MRG_CMD_KEY 0 s.dev = key →
    regionOf (keyIdx key) s.dev = r → r.valid = true → r.gen = keyGen key → r.rereg < 1023 →
    m = { r with va := (mrgNew pages s.dev).va, len := (mrgNew pages s.dev).len, access := (mrgNew pages s.dev).access
                 shift := (mrgNew pages s.dev).shift, target := (mrgNew pages s.dev).target, plAddr := (mrgNew pages s.dev).plAddr } →
    n = { m with pages := pages.take (needPages m), gen := (r.gen + 1) % 1024, rereg := r.rereg + 1 } →
    regionParamOk n s.dev = true → needPages m ≤ pages.length → (needPages m = 0 ∨ bme r.vh s.dev = true) →
    xltBlocks n ≤ xltFree s.dev + xltBlocks r →
    answers (.rereg pages true) s (engSettled (mrgRetiring [keyIdx key] (mrgAnswer (keyIdx key * 1024 + n.gen) []
      (s.dev |> putRegion (keyIdx key) n |> countRegions (xltFree s.dev)))))) ∧
  (∀ (s : State) (key : Nat), MrgReady 3 s.dev → rd Reg.MRG_CMD_KEY 0 s.dev = key → (regionOf (keyIdx key) s.dev).valid = true →
    (regionOf (keyIdx key) s.dev).gen = keyGen key →
    answers .dereg s (engSettled (mrgRetiring [keyIdx key] (mrgAnswer key []
      (s.dev |> dereg (keyIdx key) |> countRegions (xltFree s.dev)))))) ∧
  (∀ (s : State) (key : Nat) (idx : List Nat), MrgReady 4 s.dev → rd Reg.MRG_CMD_KEY 0 s.dev = key →
    idx = (s.dev.eng.regions.filter (fun e => e.2.valid && e.2.slice == key % 4096)).map (fun e => e.1) →
    (idx ≠ [] → answers .invalSlice s (engSettled (mrgRetiring idx (mrgAnswer key [] (invalSlice (key % 4096) s.dev))))) ∧
    (idx = [] →
      answers .invalSlice s (engSettled (raise Ev.MRG_CMD_DONE 0 (mrgAnswer key [] (invalSlice (key % 4096) s.dev)))))) ∧
  (∀ (s : State) (idx : List Nat) (l : List (List Nat × Option (Nat × List Byte × List Byte))), s.dev.eng.retiring = (idx, none) :: l →
    (∀ i ∈ idx, retired i s.dev = true) →
    answers .mrgRetireDone s (engSettled (s.dev |> updEng (fun e => { e with retiring := l }) |> wr Reg.MRG_CMD_BUSY 0 0
      |> raise Ev.MRG_CMD_DONE 0))) ∧
  (∀ (s : State) (n : Nat) (x : Park) (l : List Park), s.dev.eng.parked = x :: l → x.qpn = n → x.why = 2 → s.dev.eng.fetches.contains n = false →
    answers (.xltFetchDone n true) s (engSettled (s.dev |> updEng (fun e => { e with parked := e.parked.map (fun y =>
        if y = x then { y with pkt := { y.pkt with xlt := true }, why := 0 } else y) }) |> runParked n)))

/-- With the trigger bit of the WIN page written: RD_LIVE and RD_SHADOW copy the indexed entry into WIN_DATA, WR_SHADOW writes WIN_DATA into
the shadow with reserved bits 0, COMMIT of a shadow that keeps to R307 brings it into force, starts its fence and counts, DISCARD copies
the live entry back. A fence whose last old access retired clears and is announced. (R305, R307, R308, R328) -/
def Obligations.FastWindowCommandsComplete : Prop :=
  (∀ (s : State) (w : Nat), served 0x14 0 0x104 s.dev → rd Reg.WIN_IDX 0 s.dev = w →
    answers .winRdLive s (engSettled (putRow Reg.WIN_DATA 0 (winOf w s.dev).live s.dev)) ∧
    answers .winRdShadow s (engSettled (putRow Reg.WIN_DATA 0 (winOf w s.dev).shadow s.dev)) ∧
    answers .winWrShadow s (engSettled (putWin w { winOf w s.dev with shadow := maskRow winMask (rowWords Reg.WIN_DATA 0 8 s.dev) } s.dev)) ∧
    answers .winDiscard s (engSettled (putWin w ⟨(winOf w s.dev).live, (winOf w s.dev).live⟩ s.dev)) ∧
    (∀ d, winFits (winOf w s.dev).shadow s.dev = true →
      d = (s.dev |> agePast w |> putWin w ⟨(winOf w s.dev).shadow, (winOf w s.dev).shadow⟩ |> setPend w true |> addMod Reg.WIN_COMMITS 0 0 1) →
      answers .winCommit s (engSettled (wr Reg.WIN_OPEN_CNT 0 (openWins d) d)))) ∧
  (∀ (s : State) (w : Nat), winPend w s.dev = true → winRetired w s.dev = true →
    answers (.windowFenceDone false w) s (engSettled (s.dev |> setPend w false |> raise Ev.WIN_FENCE_DONE 0))) ∧
  (∀ (s : State) (w : Nat), (bw w s.dev).fence = true → bwinRetired w s.dev = true →
    answers (.windowFenceDone true w) s
      (engSettled (s.dev |> updBw w (fun b => { b with fence := false }) |> raise Ev.BRG_FENCE_DONE 0)))

/-- CTX_QUERY returns a context, CTX_CREATE makes one valid at an index that was free (which one is a free value, log entry 20), CTX_DESTROY
cancels and frees it; each ends with status 0 and MATCH_CMD_DONE. POST, PROBE and CANCEL entries whose context is ready leave the ring and
are decided. A completed overflow fetch of a context, one of the oldest 32 waiting, decides the post entry that waited for it and then
those behind it. (R335, R341, R342, R347, R348) -/
def Obligations.MatchCommandsComplete : Prop :=
  (∀ (s : State) (k i : Nat) (c : MCtx), MteReady k 0 s.dev → rd Reg.MTE_CMD_IDX k s.dev = i → ctxOf k i s.dev = some c →
    answers (.ctxQuery k) s (engSettled (mteDone k i (ctxBytes k i c s.dev) s.dev))) ∧
  (∀ (s : State) (k i : Nat) (b : List Byte) (c : MCtx) (d : Dev), MteReady k 1 s.dev → b = regBytes Reg.MTE_CMD_DATA k 8 s.dev →
    c = { ctxid := fieldLe b 0 4, slice := fieldLe b 4 2 % 4096, failed := false, rcqn := fieldLe b 8 4 % 2 ^ 24
          uxMax := fieldLe b 12 4 % 2 ^ 24, postStamp := 0, arrStamp := 0 } →
    quadOf c.slice c.ctxid = k → ownsNum c.slice c.rcqn s.dev = true → findCtx k c.slice c.ctxid s.dev = none →
    sliceCtxs c.slice s.dev < slRd Reg.SLC_MAX_CTX c.slice s.dev → freeCtxs k s.dev ≠ [] →
    i = pickCtx k s.dev → d = putCtx k i (some c) (takeFree s.dev) →
    i ∈ freeCtxs k s.dev ∧ answers (.ctxCreate k) s (engSettled (mteDone k i [] (countQuad k (poolFree k d) d)))) ∧
  (∀ (s : State) (k i : Nat) (c : MCtx), MteReady k 2 s.dev → rd Reg.MTE_CMD_IDX k s.dev = i → ctxOf k i s.dev = some c →
    answers (.ctxDestroy k) s (engSettled (mteDone k i [] (destroyCtx k i 0x0E s.dev)))) ∧
  (∀ (s : State) (n i : Nat) (c : MCtx) (e : List Byte), EntryReady n 0 i c e s.dev →
    answers (.matchPost n) s (engSettled (decidePost (quadOf n (fieldLe e 4 4)) i n c e (popPost n s.dev)))) ∧
  (∀ (s : State) (n i : Nat) (c : MCtx) (e : List Byte), EntryReady n 1 i c e s.dev →
    answers (.matchProbe n) s (engSettled (decideProbe (quadOf n (fieldLe e 4 4)) i e (popPost n s.dev)))) ∧
  (∀ (s : State) (n i : Nat) (c : MCtx) (e : List Byte), EntryReady n 2 i c e s.dev →
    answers (.matchCancel n) s (engSettled (decideCancel (quadOf n (fieldLe e 4 4)) i e (popPost n s.dev)))) ∧
  (∀ (s : State) (k i n : Nat) (w : MWait) (c : MCtx) (e : List Byte) (d : Dev), ((quad k s.dev).waits.take 32).find? (fun w => w.context == i) = some w →
    d = memDone (1, k, i) s.dev → w = .post i n e → ctxOf k i d = some c →
    answers (.overflowFetchDone k i) s (engSettled (moreWaits k i ((quad k (decideEntry k i n c e (popWait k w d))).waits.length)
      (decideEntry k i n c e (popWait k w d)))))

/-- With the trigger bit of the BRG page written: RD_LIVE, RD_SHADOW, WR_SHADOW and DISCARD move the indexed window's words; COMMIT of a
shadow that fits drops the window's prefetched blocks, brings it into force and starts its fence; ERR_CLR clears its latch; GRP_RD, GRP_WR
and GRP_COMMIT do the same for the indexed group. (R308, R309, R310, R319, R329) -/
def Obligations.BridgeWindowCommandsComplete : Prop :=
  (∀ (s : State) (w : Nat), served 0x15 0 0x104 s.dev → rd Reg.BRG_BW_IDX 0 s.dev = w →
    answers .brgRdLive s (engSettled (putRow Reg.BRG_BW_DATA 0 (bwinOf w s.dev).live s.dev)) ∧
    answers .brgRdShadow s (engSettled (putRow Reg.BRG_BW_DATA 0 (bwinOf w s.dev).shadow s.dev)) ∧
    answers .brgWrShadow s (engSettled (putBwin w { bwinOf w s.dev with shadow := maskRow bwMask (rowWords Reg.BRG_BW_DATA 0 8 s.dev) } s.dev)) ∧
    answers .brgDiscard s (engSettled (putBwin w ⟨(bwinOf w s.dev).live, (bwinOf w s.dev).live⟩ s.dev)) ∧
    answers .errClr s (engSettled (updBw w (fun b => { b with latch := false, cause := 0, psn := 0 }) s.dev)) ∧
    (bwinFits w (bwinOf w s.dev).shadow s.dev = true →
      answers .brgWinCommit s (engSettled (s.dev |> dropBlocks (fun b => b.win == w)
        |> agePastBw w |> putBwin w ⟨(bwinOf w s.dev).shadow, (bwinOf w s.dev).shadow⟩)))) ∧
  (∀ (s : State) (g : Nat), served 0x15 0 0x134 s.dev → rd Reg.BRG_GRP_IDX 0 s.dev = g →
    answers .grpRd s (engSettled (putRow Reg.BRG_GRP_DATA 0 (grpOf g s.dev).live s.dev)) ∧
    answers .grpWr s (engSettled (putGrp g { grpOf g s.dev with shadow := maskRow grpMask (rowWords Reg.BRG_GRP_DATA 0 4 s.dev) } s.dev)) ∧
    (grpFits g (grpOf g s.dev).shadow s.dev = true →
      answers .grpCommit s (engSettled (putGrp g ⟨(grpOf g s.dev).shadow, (grpOf g s.dev).shadow⟩ s.dev))))

/-- A memory write into a window with write permission whose group's queue pair is in RTS is carried as its runs of enabled bytes; a memory
read, AtomicOp or locked read with its permission enters the bridge; a waiting read is issued once its tag is free; Unlock releases the
semaphores its requester holds; RD_TMO aborts a read; LOCK_TMO releases a semaphore, latches the window and posts an event; PF_AGE drops a
prefetched block. (R309, R311, R312, R314, R315, R316) -/
def Obligations.BridgeCarriesTlps : Prop :=
  (∀ (s : State) (vh ofs w : Nat) (data : List Byte) (be : List Bool), findWin vh ofs data.length s.dev = some w →
    allHeld s.dev < rd Reg.BRG_WBUF_CELLS 0 s.dev → grpHeld (bwGrp w s.dev) s.dev < grpCells (bwGrp w s.dev) s.dev →
    bwPerm w 2 s.dev = true → grpRts (bwGrp w s.dev) s.dev = true →
    answers (.brgMemWriteTlp vh ofs data be) s (engSettled (s.dev
      |> dropBlocks (fun b => b.grp == bwGrp w s.dev
          && overlaps (remAddr b.win b.addr s.dev) b.len (remAddr w ofs s.dev) data.length)
      |> bump Reg.BRG_WR_TLP 0 |> carryRuns w (max 1 ((data.length + 255) / 256)) (runsOf ofs data be)))) ∧
  (∀ (s : State) (vh req tag ofs len w : Nat), findWin vh ofs len s.dev = some w → (bw w s.dev).latch = false →
    grpRts (bwGrp w s.dev) s.dev = true →
    (bwPerm w 1 s.dev = true →
      answers (.brgMemReadTlp vh req tag ofs len) s (engSettled (enterRead (brgAsk w vh req tag ofs len 0 0 0 0 s.dev) s.dev))) ∧
    (bwPerm w 4 s.dev = true →
      answers (.brgLockedRead vh req tag ofs len) s (engSettled (enterRead (brgAsk w vh req tag ofs len 2 0 0 0 s.dev) s.dev))) ∧
    (∀ kind op1 op2 wop, bwPerm w 3 s.dev = true → aopWop kind len = some wop →
      answers (.brgAtomicopTlp vh req tag ofs kind len op1 op2) s
        (engSettled (enterRead (brgAsk w vh req tag ofs len 1 wop op1 op2 s.dev) s.dev)))) ∧
  (∀ (s : State) (r : BrgRead), s.dev.eng.brgReads.find? (fun r => r.state == 0 && tagFree r.win s.dev) = some r →
    answers .brgQueuedReadIssue s (engSettled (issueRead r s.dev))) ∧
  (∀ (s : State) (vh req : Nat), answers (.brgUnlockMsg vh req) s (engSettled (forEach ((List.range 1024).filter
    (fun w => grpVh (bwGrp w s.dev) s.dev == vh && (bw w s.dev).lock == some req)) unlock s.dev))) ∧
  (∀ (s : State) (id : Nat) (r : BrgRead), s.dev.eng.brgReads.find? (fun r => r.id == id) = some r →
    answers (.brgRdTimeout id) s (engSettled (s.dev |> abortBrgRead r |> bump Reg.BRG_RD_TMO_CNT 0 |> raise Ev.BRG_RD_TIMEOUT 0))) ∧
  (∀ (s : State) (w h : Nat), (bw w s.dev).lock = some h →
    answers (.winLockTmo w) s (engSettled (s.dev |> unlock w |> latchWin w 6 0 false
      |> sliceEvent (grpSlice (bwGrp w s.dev) s.dev) RingEv.WIN_LOCK_TMO w (h % 65536)))) ∧
  (∀ (s : State) (w ofs : Nat), answers (.pfAgeExpire w ofs) s (engSettled (dropBlocks (fun b => b.win == w && b.addr == ofs) s.dev)))

/-- A NOTIFY in sequence to the message endpoint is accepted and delivered by the map; a 4-byte write into the forward range goes out as a
NOTIFY; READ and WRITE of the MAP page copy an entry, and unmasking one that is pending sends its message; WIRE_COMMIT opens the changed
connections and closes them 100 ns later with WIRE_MAP_DONE; an edge on a slot wire is sampled; the host wire it connects to follows, and
a watched one counts and raises WIRE_EDGE. (R320, R321, R322, R323, R324, R330) -/
def Obligations.MessagesAndWiresAct : Prop :=
  (∀ (s : State) (p : SftPkt) (q : Qp) (key : Nat) (d1 : Dev), p.dqpn = msgQpn → p.ecrcOk = true → p.ekey = rd Reg.MAP_EKEY 0 s.dev →
    p.opc = 0x20 → qpOf msgQpn s.dev = some q → connFor msgQpn q p s.dev = (some key, d1) →
    p.psn = (((qpOf msgQpn d1).getD q).conn key).epsn →
    answers (.messageNotifyRx p) s
      (engSettled (d1 |> accept msgQpn key 1 true p |> takeMessage p.slid p.nvalue |> ackPolicy msgQpn key p.ackReq
        |> afterTaken (msgQpn % 8) false))) ∧
  (∀ (s : State) (vh ofs f lid : Nat) (data : List Byte) (q : Qp), fwdRange vh s.dev = some f → f ≤ ofs → ofs < f + 4096 → data.length = 4 →
    rdI Reg.MAP_FWD_LID 0 vh s.dev = lid → qpOf msgQpn s.dev = some q → (smFind q.conns (peerKey lid msgQpn)).isSome = true →
    answers (.fwdRangeWrite vh ofs data) s (engSettled (s.dev |> putQp msgQpn (some q)
      |> addWqe msgQpn .finish (fun w => { w with
          wop := 9, op1 := ofLe data % 65536 + ofLe data * 2 ^ 32, rkey := rdI Reg.MAP_FWD_EKEY 0 vh s.dev, conn := peerKey lid msgQpn })
      |> bump Reg.MAP_FWD_TX 0))) ∧
  (∀ (s : State), served 0x16 0 0x104 s.dev →
    (∀ i ws, rd Reg.MAP_IDX 0 s.dev = i → mapOf i s.dev = ws → answers .mapRead s (engSettled (putRow Reg.MAP_DATA 0
      ((ws.getD 0 0 + 2 ^ 30 * bnat (s.dev.eng.mapPend.contains i)) :: ws.tail) s.dev))) ∧
    (∀ i ws, rd Reg.MAP_IDX 0 s.dev = i → maskRow mapMask (rowWords Reg.MAP_DATA 0 6 s.dev) = ws →
      uspPort (wbits ws 1 16 4) s.dev = some (wbits ws 1 20 8) → wpair ws 2 % 4 = 0 →
      (s.dev.eng.mapPend.contains i = false → answers .mapWrite s (engSettled (putMap i ws s.dev))) ∧
      (s.dev.eng.mapPend.contains i = true → wbits (mapOf i s.dev) 0 29 1 = 1 → wbits ws 0 29 1 = 0 →
        answers .mapWrite s (engSettled (s.dev |> putMap i ws |> updEng (fun e => { e with mapPend := e.mapPend.filter (fun x => x != i) })
          |> takeFree |> msgWrite ws (free 32 s.dev)))))) ∧
  (∀ (s : State) (ch : List Nat), served 0x15 0 0x900 s.dev → rd Reg.BRG_WIRE_BUSY 0 s.dev = 0 →
    wireMapOk (fun x => rdI Reg.BRG_WIRE_STG 0 x s.dev) = true →
    ch = (List.range 32).filter (fun x => rdI Reg.BRG_WIRE_STG 0 x s.dev != rdI Reg.BRG_WIRE_MAP 0 x s.dev) →
    answers .wireCommit s (engSettled (s.dev |> wr Reg.BRG_WIRE_BUSY 0 1
      |> updEng (fun e => { e with wireOpen := ch.map (fun x => (x, rdI Reg.BRG_WIRE_STG 0 x s.dev)) })
      |> hostsFollow (ch.map (fun x => (x, rdI Reg.BRG_WIRE_MAP 0 x s.dev)))))) ∧
  (∀ (s : State), rd Reg.BRG_WIRE_BUSY 0 s.dev = 1 →
    answers .wireCommitComplete s (engSettled (s.dev |> forEach s.dev.eng.wireOpen (fun x => wrI Reg.BRG_WIRE_MAP 0 x.1 x.2)
      |> updEng (fun e => { e with wireOpen := [] }) |> hostsFollow s.dev.eng.wireOpen
      |> forEach s.dev.eng.wireOpen (fun x => perstFollows x.1) |> wr Reg.BRG_WIRE_BUSY 0 0 |> raise Ev.WIRE_MAP_DONE 0))) ∧
  (∀ (s : State) (slot k h : Nat) (level : Bool) (d1 : Dev), slot < 32 → k < 5 → k ≠ 0 →
    bitOf (slotLvl k s.dev) slot = !level → wireAt slot k s.dev = h → h < 16 → bitOf (rdI Reg.BRG_WATCH 0 k s.dev) slot = false →
    d1 = setSlotLvl k (putBit (slotLvl k s.dev) slot level) s.dev → bitOf (hostLvl k s.dev) h ≠ hostLevel h k d1 →
    answers (.slotWireEdge slot k level) s
      (engSettled (d1 |> setHostLvl k (putBit (hostLvl k s.dev) h (hostLevel h k d1))
        |> emit .pin [1, 8 * h + k, bnat (hostLevel h k d1)] []))) ∧
  (∀ (s : State) (slot k : Nat) (level : Bool), slot < 32 → k < 5 → bitOf (slotLvl k s.dev) slot = !level → 16 ≤ wireAt slot k s.dev →
    bitOf (rdI Reg.BRG_WATCH 0 k (setSlotLvl k (putBit (slotLvl k s.dev) slot level) s.dev)) slot = true →
    answers (.slotWireEdge slot k level) s (engSettled (s.dev |> setSlotLvl k (putBit (slotLvl k s.dev) slot level)
      |> bump Reg.BRG_WIRE_EDGES 0 |> raise Ev.WIRE_EDGE 0)))

/-- With the CMD bit of the slice written and no slice command running: CREATE of a FREE slice on a present function, its PASID unused and its
limits in range, makes it ACTIVE; QUIESCE of an ACTIVE slice makes it QUIESCING from now; an idle QUIESCING slice enters QUIESCED with
DRAIN_US and SLICE_DRAINED; QUIESCE_TMO is raised once; RESUME makes a QUIESCED slice ACTIVE and serves the recorded doorbells; RESET,
FORCE_RESET and REMOVE perform the slice reset; its end sets the final state and raises SLICE_RESET_DONE. (R438, R439, R440, R441, R442) -/
def Obligations.SliceCommandsAct : Prop :=
  (∀ (s : State) (n v : Nat), served 0x1C (n / 16) (0x104 + 0xF0 * (n % 16)) s.dev → slRd Reg.SLC_CMD_BUSY n s.dev = 0 → slRd Reg.SLC_VH n s.dev = v →
    (slState n s.dev = slFree → rd Reg.FUN_PRESENT v s.dev = 1 → (∀ m ∈ slicesOf v s.dev, slRd Reg.SLC_PASID m s.dev ≠ slRd Reg.SLC_PASID n s.dev) →
      sliceLimitsOk n s.dev →
      answers (.sliceCreate n) s (engSettled (s.dev |> slWr Reg.SLC_STATE n slActive |> updSlice n (fun _ => Slice.init)
        |> slWr Reg.SLC_CMD_STATUS n 0 |> countSlices v))) ∧
    (slState n s.dev = slActive →
      answers (.sliceQuiesce n) s (engSettled (s.dev |> slWr Reg.SLC_STATE n slQuiescing
        |> updSlice n (fun x => { x with since := s.dev.th.localNs, tmoRaised := false }) |> slWr Reg.SLC_CMD_STATUS n 0))) ∧
    (∀ rs, slState n s.dev = slQuiesced → (sliceOf n s.dev).recorded = rs →
      answers (.sliceResume n) s (engSettled (s.dev |> slWr Reg.SLC_STATE n slActive |> updSlice n (fun x => { x with recorded := [] })
        |> slWr Reg.SLC_CMD_STATUS n 0 |> forEach rs (serveRecorded n)))) ∧
    (slState n s.dev = slQuiesced ∨ slState n s.dev = slAborted →
      answers (.sliceReset n) s (engSettled (s.dev |> sliceReset n false |> updSlice n (fun x => { x with resetTo := slQuiesced })
        |> slWr Reg.SLC_CMD_BUSY n 1 |> slWr Reg.SLC_CMD_STATUS n 0))) ∧
    (slState n s.dev = slActive →
      answers (.sliceForceReset n) s (engSettled (s.dev |> slWr Reg.SLC_STATE n slFencing |> updSlice n (fun x => { x with recorded := [] })
        |> quarantine (fun r => r.slice == n) |> addI Reg.SLC_FENCED_OPS (n / 16) (n % 16) (opsOf n s.dev)
        |> endOps n 0x0A 7 true |> forEach (sliceWins n s.dev) (fun w => latchWin w 5 0 false) |> sliceReset n false
        |> updSlice n (fun x => { x with resetTo := slQuiesced }) |> slWr Reg.SLC_CMD_BUSY n 1 |> slWr Reg.SLC_CMD_STATUS n 0))) ∧
    (slState n s.dev = slQuiesced →
      answers (.sliceRemove n) s (engSettled (s.dev |> forEach (sliceQps n s.dev) (fun q => putQp q none) |> sliceReset n false
        |> updEng (fun e => { e with ranges := e.ranges.filter (fun r => bitsOf r.2.1 0 12 != n || !bitOf r.2.1 16) })
        |> updSlice n (fun x => { x with resetTo := slFree }) |> slWr Reg.SLC_CMD_BUSY n 1 |> slWr Reg.SLC_CMD_STATUS n 0)))) ∧
  (∀ (s : State) (n : Nat), slState n s.dev = slQuiescing →
    (sliceIdle n s.dev = true → answers (.sliceDrained n) s (engSettled (s.dev |> slWr Reg.SLC_STATE n slQuiesced
      |> slWr Reg.SLC_DRAIN_US n (min ((s.dev.th.localNs - (sliceOf n s.dev).since) / 1000) (2 ^ 17 - 1)) |> raiseSlice Ev.SLICE_DRAINED 0 n))) ∧
    ((sliceOf n s.dev).tmoRaised = false → answers (.sliceQuiesceTmo n) s (engSettled (s.dev
      |> updSlice n (fun x => { x with tmoRaised := true }) |> raiseSlice Ev.SLICE_QUIESCE_TMO 1 n)))) ∧
  (∀ (s : State) (n final : Nat), slState n s.dev = slFencing → (sliceOf n s.dev).resetTo = final → final ≠ 7 →
    answers (.sliceResetComplete n) s (engSettled (s.dev |> updSlice n (fun x => { x with resetTo := 7 }) |> slWr Reg.SLC_STATE n final
      |> slWr Reg.SLC_CMD_BUSY n 0 |> raiseSlice Ev.SLICE_RESET_DONE 2 n |> countSlices (slRd Reg.SLC_VH n s.dev))))

/-- Clearing Bus Master Enable, while it is set, and an entry from D0 to D3hot run steps 1 to 3 of R435 and raise FUN_BME_OFF; Initiate FLR
and a return from D3hot run steps 1 to 4 of R437, and its completion restores configuration space but for sticky AER bits, drops the
function's translations and raises FUN_FLR_DONE. A completion ends its read with its data, is dropped in quarantine, or is an Unexpected
Completion reported by AER; a timed-out read ends without data; a quarantined tag is released. (R433, R435, R436, R437) -/
def Obligations.FunctionStopsAndReturns : Prop :=
  (∀ (s : State) (v : Nat), rd Reg.FUN_BME v s.dev = 1 →
    answers (.bmeClear v) s (engSettled (s.dev |> putCfg v 0x04 (clrBit (cfgStored v 0x04 s.dev) 2) |> wr Reg.FUN_BME v 0 |> stopFunction v
      |> raise Ev.FUN_BME_OFF v))) ∧
  (∀ (s : State) (v : Nat), rd Reg.FUN_DSTATE v s.dev = 0 →
    answers (.d3hotEntry v) s (engSettled (s.dev |> putCfg v 0x84 3 |> wr Reg.FUN_DSTATE v 3 |> stopFunction v |> raise Ev.FUN_BME_OFF v))) ∧
  (∀ (s : State) (v : Nat), rd Reg.FUN_DSTATE v s.dev = 3 →
    answers (.d0Return v) s (engSettled (s.dev |> putCfg v 0x84 0 |> wr Reg.FUN_DSTATE v 0 |> flrStart v))) ∧
  (∀ (s : State) (v : Nat) (to_ : List (Nat × Nat)),
    to_ = (slicesOf v s.dev).map (fun n => (n, if slState n s.dev = slActive ∨ slState n s.dev = slAborted then slActive else slQuiesced)) →
    answers (.initiateFlr v) s (engSettled (s.dev |> updEng (fun e => { e with brgReads := e.brgReads.filter (fun r => r.vh != v) })
      |> putCfg v 0x04 (clrBit (cfgStored v 0x04 s.dev) 2) |> wr Reg.FUN_BME v 0 |> stopFunction v
      |> wr Reg.FUN_FLR_BUSY v 1 |> bump Reg.FUN_FLR_CNT v
      |> forEach to_ (fun x d => d |> updSlice x.1 (fun y => { y with resetTo := x.2 }) |> sliceReset x.1 true)))) ∧
  (∀ (s : State) (v : Nat), rd Reg.FUN_FLR_BUSY v s.dev = 1 →
    answers (.flrComplete v) s (engSettled (s.dev
      |> updFun v (fun f => { FunCfg.init with cfg := f.cfg.filter (fun e => stickyCfg e.1)
                                               aper := some (rd Reg.FUN_APER_LOG v s.dev, rd Reg.FUN_APER_PF v s.dev == 1) })
      |> updEng (fun e => { e with atc := e.atc.filter (fun x => x.vh != v) })
      |> mirrorCfg v |> wr Reg.FUN_FLR_BUSY v 0
      |> forEach (slicesOf v s.dev) (fun n d => if slState n d = slFencing then d else finishReset n d)
      |> raise Ev.FUN_FLR_DONE v))) ∧
  (∀ (s : State) (v tag : Nat) (ok : Bool) (data : List Byte),
    (∀ r, s.dev.eng.reads.find? (fun r => r.vh == v && r.tag == tag && r.waits.isEmpty) = some r →
      answers (.hostCompletionRx v tag ok data) s (engSettled (readDone r (if ok then some data else none) s.dev)) ∧
      answers (.hostReadTimeout v tag) s (engSettled (s.dev |> aerSet v 14 |> readDone r none))) ∧
    (s.dev.eng.reads.find? (fun r => r.vh == v && r.tag == tag && r.waits.isEmpty) = none →
      (∀ x, s.dev.eng.quar.find? (fun x => x.1 == v && x.2.1 == tag) = some x →
        answers (.hostCompletionRx v tag ok data) s
          (engSettled (s.dev |> bump Reg.FUN_LATE_CPL v |> onlyIf (decide (x.2.2 < 8)) (bump Reg.TPE_LATE_DROP x.2.2)))) ∧
      (s.dev.eng.quar.find? (fun x => x.1 == v && x.2.1 == tag) = none →
        answers (.hostCompletionRx v tag ok data) s (engSettled (s.dev |> bump Reg.FUN_UNEXP_CPL v |> aerSet v 16)))) ∧
    answers (.tagQuarantineEnd v tag) s (engSettled
      (updEng (fun e => { e with quar := e.quar.filter (fun q => !(q.1 == v && q.2.1 == tag)) }) s.dev)))

/-- The command and match doorbells of an ACTIVE slice of the function record index and entries; with address translation enabled, entries on
a page in the cache are counted as a hit and recorded, and those on another page wait for the translation asked for. The next entry of an
enabled command ring, none of the slice under way, whose block is QPC, runs as that page's command and completes with its status. An event
ring doorbell moves the consumer index, and arms the vector and sends at once where entries remain unread. Unmasking a vector sends what
the PBA holds for it. (R444, R445, R341, R427, R438) -/
def Obligations.SliceRingsServed : Prop :=
  (∀ (s : State) (v n index : Nat) (es : List (List Byte)), slRd Reg.SLC_VH n s.dev = v → slState n s.dev = slActive →
    (es = [] ∨ rd Reg.FUN_ATS_EN v s.dev ≠ 1 →
      answers (.commandDoorbell v n true index es) s (engSettled (updSlice n (fun x => { x with cmrPi := index, cmr := x.cmr ++ es }) s.dev)) ∧
      answers (.matchDoorbell v n true index es) s (engSettled (updSlice n (fun x => { x with mprPi := index, mpr := x.mpr ++ es }) s.dev))) ∧
    (es ≠ [] → rd Reg.FUN_ATS_EN v s.dev = 1 →
      (∀ at_, at_ = ringPlace n (5 * 2 ^ 24) s.dev → (s.dev.eng.ringWaits.any fun w => w.slice == n && w.key == 5 * 2 ^ 24) = false →
        ((s.dev.eng.atc.any fun e => e.vh == v && e.pasid == slicePasid n s.dev && e.page == at_ / 4096 && e.read) = true →
          answers (.commandDoorbell v n true index es) s (engSettled (s.dev |> bump Reg.FUN_ATC_HIT v
            |> updSlice n (fun x => { x with cmrPi := index, cmr := x.cmr ++ es })))) ∧
        ((s.dev.eng.atc.any fun e => e.vh == v && e.pasid == slicePasid n s.dev && e.page == at_ / 4096 && e.read) = false →
          answers (.commandDoorbell v n true index es) s (engSettled (s.dev
            |> updSlice n (fun x => { x with cmrPi := index, cmr := x.cmr ++ [] })
            |> askPage v (slicePasid n s.dev) (at_ / 4096) |> waitRing n (5 * 2 ^ 24) index at_ es true)))) ∧
      (∀ at_, at_ = ringPlace n (6 * 2 ^ 24) s.dev → (s.dev.eng.ringWaits.any fun w => w.slice == n && w.key == 6 * 2 ^ 24) = false →
        ((s.dev.eng.atc.any fun e => e.vh == v && e.pasid == slicePasid n s.dev && e.page == at_ / 4096 && e.read) = true →
          answers (.matchDoorbell v n true index es) s (engSettled (s.dev |> bump Reg.FUN_ATC_HIT v
            |> updSlice n (fun x => { x with mprPi := index, mpr := x.mpr ++ es })))) ∧
        ((s.dev.eng.atc.any fun e => e.vh == v && e.pasid == slicePasid n s.dev && e.page == at_ / 4096 && e.read) = false →
          answers (.matchDoorbell v n true index es) s (engSettled (s.dev
            |> updSlice n (fun x => { x with mprPi := index, mpr := x.mpr ++ [] })
            |> askPage v (slicePasid n s.dev) (at_ / 4096) |> waitRing n (6 * 2 ^ 24) index at_ es true))))) ∧
    (bitOf index 16 = false → answers (.eventRingDoorbell v n index) s (engSettled (slWr Reg.SLC_EVR_CI n (index % 65536) s.dev))) ∧
    (∀ d2, bitOf index 16 = true → d2 = slWr Reg.SLC_EVR_ARMED n 1 (slWr Reg.SLC_EVR_CI n (index % 65536) s.dev) →
      answers (.eventRingDoorbell v n index) s (engSettled
        (if slRd Reg.SLC_EVR_PI n d2 = slRd Reg.SLC_EVR_CI n d2 then d2 else notifySlice n d2)))) ∧
  (∀ (s : State) (n st : Nat) (e data out : List Byte) (l : List (List Byte)) (pages : List Nat) (d1 : Dev), (sliceOf n s.dev).cmr = e :: l →
    slRd Reg.SLC_CMR_EN n s.dev = 1 → (∀ x ∈ s.dev.eng.retiring, ∀ y, x.2 = some y → y.1 ≠ n) →
    slState n s.dev = slActive ∨ slState n s.dev = slQuiescing → fieldLe e 0 1 = 0 →
    qpcRun (fieldLe e 1 1) (fieldLe e 4 4) (fieldLe e 8 1 % 16) data (some n) s.dev = (st, out, d1) →
    answers (.commandRingEntry n data pages true) s
      (engSettled (ringDone n e st (if out.isEmpty then data else out ++ data.drop out.length) none d1))) ∧
  (∀ (s : State) (v vec : Nat), answers (.msixUnmask v vec) s (engSettled (s.dev
    |> updFun v (fun f =>
        let e := smGet (fun _ => (0, 0, true)) f.msix vec
        { f with msix := smSet (fun _ => (0, 0, true)) f.msix vec (e.1, e.2.1, false) })
    |> sendPended v)))

/-- A Translation Completion with permission fills the cache and lets the waiting accesses it allows go on; each access it does not allow asks
for its page or ends; ring fetches that wait for the page are served where it may be read, and ask for it or end where not. A page
response of success asks for the translation again, one of failure and a timeout fail the accesses and ring fetches that wait. An
Invalidate Request takes the pages out of the cache and remembers the reads in flight at addresses translated by them; it completes,
counted and answered, once they are gone. (R434) -/
def Obligations.TranslationsServed : Prop :=
  (∀ (s : State) (v pasid page to_ : Nat) (r w : Bool) (ws : List AtsWait) (rs : List RingWait), (r || w) = true →
    ws = s.dev.eng.ats.filter (fun x => waitsFor v (pasidOf pasid) page x && !x.prg) →
    rs = s.dev.eng.ringWaits.filter (fun x => x.waitsOn v (pasidOf pasid) page && x.asked && !x.prg) → ws ≠ [] ∨ rs ≠ [] →
    answers (.atsTranslationCompletion v pasid page true to_ r w) s (engSettled (s.dev |> addAtc ⟨v, pasidOf pasid, page, to_, r, w⟩
      |> updEng (fun e => { e with ats := e.ats.map (fun x =>
          if waitsFor v (pasidOf pasid) page x && !x.prg && AtcEntry.allows ⟨v, pasidOf pasid, page, to_, r, w⟩ x.acc
          then { x with xlat := some (AtcEntry.apply ⟨v, pasidOf pasid, page, to_, r, w⟩ x.acc) } else x) })
      |> forEach (ws.filter (fun x => !AtcEntry.allows ⟨v, pasidOf pasid, page, to_, r, w⟩ x.acc)) (fun x => noPermission x.acc)
      |> issueAll v |> (if r then ringRun (s.dev.eng.ringWaits.length + 1) else forEach rs ringNoPermission)))) ∧
  (∀ (s : State) (v pasid page : Nat) (ws : List AtsWait), prgWaits v (pasidOf pasid) page s.dev = ws →
    answers (.prgResponse v pasid page true) s (engSettled (s.dev
      |> updEng (fun e => { e with ats := e.ats.map (fun w => if ws.contains w then { w with prg := false } else w) })
      |> forEach ws (fun w => askPage v w.acc.pasid (w.acc.addr / 4096)) |> askAgain v (pasidOf pasid) page)) ∧
    (∀ rs, s.dev.eng.ringWaits.filter (fun x => x.waitsOn v (pasidOf pasid) page && x.prg) = rs →
      answers (.prgResponse v pasid page false) s
        (engSettled (s.dev |> forEach ws (fun w => accessFault w.acc) |> issueAll v |> forEach rs ringWaitFault)) ∧
      answers (.pageRequestTimeout v pasid page) s
        (engSettled (s.dev |> forEach ws (fun w => accessFault w.acc) |> issueAll v |> forEach rs ringWaitFault)))) ∧
  (∀ (s : State) (v itag pasid page pages : Nat),
    answers (.atsInvalidateRequest v itag pasid page pages) s (engSettled (updEng (fun e => { e with
      atc := e.atc.filter (fun x => !(x.vh == v && x.pasid == pasidOf pasid && decide (page ≤ x.page ∧ x.page < page + pages)))
      invals := e.invals ++ [(v, itag, (e.reads.filter (fun r => r.vh == v && r.waits.isEmpty
        && r.pages.any (fun x => x.1 == pasidOf pasid && decide (page ≤ x.2 ∧ x.2 < page + pages)))).map (fun r => r.tag))] }) s.dev))) ∧
  (∀ (s : State) (v itag : Nat) (x : Nat × Nat × List Nat), s.dev.eng.invals.find? (fun x => x.1 == v && x.2.1 == itag) = some x →
    (∀ t ∈ x.2.2, ∀ r ∈ s.dev.eng.reads, r.tag ≠ t) →
    answers (.atsInvalidateComplete v itag) s (engSettled (s.dev |> updEng (fun e => { e with invals := e.invals.erase x })
      |> bump Reg.FUN_ATS_INV v |> emit .tlp [256 + v, 3, itag] [])))

/-- With CMD_GO of a unit written while CMD_OP names the command and CMD_IDX is one of the unit's: GRP_READ, CHILD_READ and MEMBER_READ return
the entry; GRP_CREATE and GRP_MODIFY of words that pass R363 create or change the group and move its reservations; GRP_DESTROY frees a
group that is not ACTIVE; CHILD_WRITE writes a child; MEMBER_BIND binds an unbound slot within MAX_MEMBERS; MEMBER_UNBIND frees an idle
one. Each ends with status 0 and COLL_CMD_DONE. (R358, R359, R363, R364, R391) -/
def Obligations.UnitCommandsComplete : Prop :=
  (∀ (s : State) (u g : Nat) (x : CGroup) (ws : List Nat), g < 4096 → unitOf g = u → cleData u s.dev = ws →
    (CleReady u 0 g s.dev → answers (.grpRead u) s (cleDone u (putCleData u (grpWords g s.dev) s.dev))) ∧
    (∀ d1, CleReady u 1 g s.dev → cgrp g s.dev = none → grpError u g ws false s.dev = 0 →
      d1 = (s.dev |> putCgrp g (some (CGroup.fresh (maskRow grpDefined ws))) |> moveRsv u 0 0 (linesFor ws) (collCells ws)) →
      answers (.grpCreate u) s (cleDone u (wr Reg.CLE_GROUPS u (grpsOfUnit u d1) d1))) ∧
    (CleReady u 2 g s.dev → cgrp g s.dev = some x → grpError u g ws true s.dev = 0 →
      answers (.grpModify u) s (cleDone u (s.dev |> putCgrp g (some (x.modified (maskRow grpDefined ws))) |> moveRsv u x.lines x.cells (linesFor ws) (collCells ws)))) ∧
    (∀ d1, CleReady u 3 g s.dev → cgrp g s.dev = some x → x.state ≠ 1 → d1 = (s.dev |> putCgrp g none |> moveRsv u x.lines x.cells 0 0) →
      answers (.grpDestroy u) s (cleDone u (wr Reg.CLE_GROUPS u (grpsOfUnit u d1) d1)))) ∧
  (∀ (s : State) (u i : Nat), i < 16384 →
    (CleReady u 4 i s.dev → answers (.childRead u) s (cleDone u (putCleData u (childOf u i s.dev) s.dev))) ∧
    (∀ ws, CleReady u 5 i s.dev → cleData u s.dev = ws → (isNeighbour ws = true → childRef ws < 144) →
      answers (.childWrite u) s (cleDone u (updColl (fun c => { c with
        children := smSet (fun _ => List.replicate 4 0) c.children (u * 16384 + i) (maskRow childDefined ws) }) s.dev)))) ∧
  (∀ (s : State) (u i : Nat), i < 16384 → unitOf i = u →
    (CleReady u 6 i s.dev → answers (.memberRead u) s (cleDone u (putCleData u (memberWords i s.dev) s.dev))) ∧
    (∀ ws n, CleReady u 7 i s.dev → cleData u s.dev = ws → (memberOf i s.dev).bound = false → unitOf (wbits ws 0 0 12) = u →
      wbits ws 2 0 6 = 0 → 4 ≤ wbits ws 4 0 4 → wbits ws 4 0 4 ≤ 12 → wbits ws 0 12 12 = n →
      (slotsOfSlice n s.dev).length < slRd Reg.SLC_MAX_MEMBERS n s.dev →
      answers (.memberBind u) s (cleDone u (updMember i (fun _ => { CMember.init with words := maskRow memberDefined ws, bound := true }) s.dev))) ∧
    (CleReady u 8 i s.dev → (memberOf i s.dev).bound = true → (memberOf i s.dev).run = none →
      answers (.memberUnbind u) s (cleDone u (updMember i (fun _ => CMember.init) s.dev))))

/-- A doorbell to a slot bound to the ACTIVE slice, its unit ON, sets the slot's producer index and posts its descriptors; where the
function's addresses are translated and the page is not cached, they wait for the Translation Request asked. The next descriptor of a slot
with none in progress, of a valid group that is not FAILED, whose fields and keys pass, is taken: the consumer index moves on, and the
member is released at once, or held where the descriptor is armed. (R365, R366, R367, R381) -/
def Obligations.CollectivesLaunch : Prop :=
  (∀ (s : State) (v n slot index : Nat) (es : List (List Byte)), slRd Reg.SLC_VH n s.dev = v → slState n s.dev = slActive →
    (memberOf slot s.dev).bound = true → (memberOf slot s.dev).slice = n → domOn (52 + unitOf slot) s.dev = true →
    (es = [] ∨ rd Reg.FUN_ATS_EN v s.dev ≠ 1 →
      answers (.collDoorbell v n true slot index es) s (engSettled (updMember slot (fun m => { m with pi := index, ring := m.ring ++ es }) s.dev))) ∧
    (∀ at_, at_ = descAddr (memberOf slot s.dev) (memberOf slot s.dev).pi → es ≠ [] → rd Reg.FUN_ATS_EN v s.dev = 1 →
      (s.dev.eng.ringWaits.any fun w => w.slice == n && w.key == 7 * 2 ^ 24 + slot) = false →
      ((s.dev.eng.atc.any fun e => e.vh == v && e.pasid == slicePasid n s.dev && e.page == at_ / 4096 && e.read) = true →
        answers (.collDoorbell v n true slot index es) s (engSettled (s.dev |> bump Reg.FUN_ATC_HIT v |> serveColl slot index es))) ∧
      ((s.dev.eng.atc.any fun e => e.vh == v && e.pasid == slicePasid n s.dev && e.page == at_ / 4096 && e.read) = false →
        answers (.collDoorbell v n true slot index es) s (engSettled (s.dev |> serveColl slot index []
          |> askPage v (slicePasid n s.dev) (at_ / 4096) |> waitRing n (7 * 2 ^ 24 + slot) index at_ es true))))) ∧
  (∀ (s : State) (slot : Nat) (m : CMember) (b : List Byte) (rest : List (List Byte)) (x : CGroup) (r : CRun) (d1 : Dev),
    memberOf slot s.dev = m → m.ring = b :: rest → m.run = none → cgrp m.group s.dev = some x → m.bound = true → x.inst = none →
    slState m.slice s.dev = slActive → domOn (52 + unitOf slot) s.dev = true → descInvalid x m.rank b = false →
    descKeysOk m.slice m.rank b s.dev = true → x.state ≠ 2 →
    r = { idx := m.ci, desc := b, seq := 0, armed := bitOf (fieldLe b 3 1) 1, data := none, res := [] } →
    d1 = updMember slot (fun m => { m with ring := rest, ci := (m.ci + 1) % 65536, run := some r }) s.dev →
    answers (.collDescriptorStart slot) s (engSettled (if r.armed then d1 else release slot d1)))

/-- With the group's unit ON: an UP block that agrees with its instance is stored at its child's position and the group runs on; a DOWN block
in turn from the parent goes down; a FAULT, ABORT and GO_ON not seen before on the alternate tree is spread and decided or taken; a
REDELIVER block for another node is forwarded on the alternate tree. FAULT_TMO without an answer, and OP_TMO of an unfinished instance,
fail the group. (R370, R374, R383, R384, R385, R386, R387) -/
def Obligations.CollectivePacketsCarried : Prop :=
  (∀ (s : State) (port g : Nat) (p : CollPkt) (x : CGroup), p.dgrp = g → domOn (52 + unitOf g) s.dev = true → cgrp g s.dev = some x →
    (∀ pos d1 x1 n l, x.state ≠ 2 → (p.tri == 1) = x.alt → blkSub p.block x.blk < 2 * x.win → childAt (unitOf g) x port s.dev = some pos →
      d1 = beginInst g p.cop p.oper p.dtype p.count s.dev → cgrp g d1 = some x1 → x1.inst = some n →
      agrees n p.cop p.oper p.dtype p.count p.exact_ = true → n.seq = p.seq → p.err = false → p.empty = false →
      readWire p.dtype p.oper p.exact_ (elemsAt x n p.block) p.payload = .elems l →
      answers (.collUpRx port p) s (engSettled (d1 |> putPart g p.block pos (childCount x.words x.alt) ⟨none, p.last, some l⟩ |> runGroup g))) ∧
    (∀ n, x.inst = some n → (p.tri == 1) = x.alt → hasParent x.words x.alt = true → parentPort x.words x.alt = port → p.seq = n.seq →
      p.block = x.blk → answers (.collDownRx port p) s (engSettled (s.dev |> passDown g (downPart x n p) false |> runGroup g))) ∧
    (onAlt g port s.dev = true → x.alt = false → (2, p.seq, p.tri) ∉ x.seen →
      answers (.collFaultRx port p) s (engSettled (s.dev |> spread 2 g p.seq p.tri (some port)
        |> updCgrp g (fun x => { x with waiting := true }) |> decideFault g p.seq))) ∧
    (onAlt g port s.dev = true → (3, p.seq, p.tri) ∉ x.seen →
      answers (.collAbortRx port p) s (engSettled (s.dev |> spread 3 g p.seq p.tri (some port) |> takeAbort g p.seq))) ∧
    (onAlt g port s.dev = true → (4, p.seq, p.tri) ∉ x.seen →
      answers (.collGoOnRx port p) s (engSettled (s.dev |> spread 4 g p.seq p.tri (some port) |> takeGoOn g p.seq))) ∧
    (onAlt g port s.dev = true → p.count % 2 ^ 20 ≠ rd Reg.RTE_MY_LID (port / 8) s.dev →
      answers (.collRedeliverRx port p) s (engSettled (forEach ((edgesOf (unitOf g) x.words true s.dev).filter (fun e => e.port != port))
        (fun e => sendColl 5 e p) s.dev)))) ∧
  (∀ (s : State) (g : Nat) (x : CGroup), cgrp g s.dev = some x →
    (x.waiting = true → answers (.collFaultTimeout g) s (engSettled (failGroup g s.dev))) ∧
    (x.inst.isSome = true → answers (.collOpTimeout g) s (engSettled (failGroup g s.dev))))

/-- GO of a job whose fields keep to R535 clears its results and makes it RUNNING. ABORT ends a running job ABORTED, after the scan of what
was read. A job whose last byte is read scans its range (CRC, alive counters) and ends DONE. A watch job reads its record again: its alive
counter is compared and the CRC of the record stands in RESULT. Where the range of either holds an uncorrectable word of package memory,
the job ends FAILED, the scan after what comes before that word. (R534, R535, R536, R537, R540) -/
def Obligations.CheckJobsRun : Prop :=
  (∀ (s : State) (j : Nat), j < 16 → served 0x06 0 (0x200 + 0x40 * j) s.dev →
    (goBad j s.dev = false → answers (.chkGo j) s (allSettled s.dev (jobStart j s.dev))) ∧
    (∀ n data, rdI Reg.CHK_STATE 0 j s.dev = 1 → rdI Reg.CHK_ALV_MODE 0 j s.dev ≠ 2 →
      answers (.chkAbort j n data) s (allSettled s.dev (s.dev |> jobScan j (scanned j 3 n data s.dev) data |> chkEnd j 4 3)))) ∧
  (∀ (s : State) (j : Nat) (data : List Byte), j < 16 → rdI Reg.CHK_STATE 0 j s.dev = 1 → domOn 59 s.dev = true →
    (rdI Reg.CHK_SRC 0 j s.dev = 1 ∨ jobLen j s.dev ≤ data.length) →
    (∀ n, rdI Reg.CHK_ALV_MODE 0 j s.dev ≠ 2 →
      (scanReach j s.dev = none →
        answers (.chkJobComplete j 0 n data) s (allSettled s.dev (s.dev |> jobScan j (jobLen j s.dev) data |> chkEnd j 2 0))) ∧
      (∀ m, scanReach j s.dev = some m →
        answers (.chkJobComplete j 0 n data) s (allSettled s.dev (s.dev |> jobScan j m data |> chkEnd j 3 2)))) ∧
    (∀ bs, rdI Reg.CHK_ALV_MODE 0 j s.dev = 2 → jobData j (jobLen j s.dev) data s.dev = bs →
      (scanReach j s.dev = none →
        answers (.chkWatchReread j data) s (allSettled s.dev (s.dev |> aliveCompare j (aliveAt j bs s.dev) |> putResult j bs))) ∧
      (∀ m, scanReach j s.dev = some m → answers (.chkWatchReread j data) s (allSettled s.dev (chkEnd j 3 2 s.dev)))))

/-- While composite mode runs: a roll-call record of another device, new or changed, is kept and flooded to every other port that leads to a
DX7; once membership is stable the composite forms of the members admitted, with its anchor; the anchor sends its heartbeat to the
standby; a heartbeat of the anchor known sets epoch and standby; HB_LOSS on the standby removes the anchor and takes over; HANDOVER on the
anchor hands the role to the standby, which takes over when told. (R87, R88, R416, R417, R421) -/
def Obligations.CompositeMembersAct : Prop :=
  (∀ (s : State) (port serial prio pref anchor id : Nat) (r : RollRec), cmpRuns s.dev = true → toDx7 port s.dev = true →
    r = ⟨serial, prio, upTo63 pref, upTo63 anchor, upTo63 id⟩ → serial ≠ s.dev.otp.serial → r ∉ s.dev.cmp.heard →
    answers (.rollCallRx port serial prio pref anchor id) s (allSettled s.dev (s.dev
      |> updCmp (fun c => { c with heard := c.heard.filter (fun x => x.serial != serial) ++ [r] })
      |> forEach ((List.range 144).filter (fun p => p != port && toDx7 p s.dev)) (fun p => sendRoll p r)))) ∧
  (∀ (s : State) (cvhs : List (Nat × Nat × Nat)) (lids grants : List (Nat × Nat)) (l : List RollRec) (a : RollRec), cmpRuns s.dev = true →
    s.dev.cmp.standalone = false → admitted (callers s.dev) = l → (∃ r ∈ l, r.serial = s.dev.otp.serial) →
    chooseAnchor s.dev.cmp.anchorId l = some a →
    answers (.membershipStable cvhs lids grants) s (allSettled s.dev
      (formComposite l a (decide (l.length < (callers s.dev).length)) cvhs lids grants s.dev))) ∧
  (∀ (s : State) (b : Nat), cmpRuns s.dev = true → s.dev.cmp.role = 3 → s.dev.cmp.standbyId = some b →
    answers .heartbeatSend s (sendHeartbeat 0 s.dev) ∧
    (served 0x1F 0 0x120 s.dev → answers (.handover false) s (allSettled s.dev (s.dev |> sendHeartbeat 1 |> addMod Reg.CMP_ANCHOR_EPOCH 0 0 1
      |> (fun d => setRoles (some b) (standbyFor (some b) d) d))))) ∧
  (∀ (s : State) (anchor standby epoch serial : Nat), cmpRuns s.dev = true → anchor < 64 → epoch < 65536 → serial ≠ s.dev.otp.serial →
    s.dev.cmp.role ≠ 0 → s.dev.cmp.anchorId = some anchor →
    answers (.heartbeatRx anchor standby epoch serial) s (allSettled s.dev (anchorHeard anchor standby epoch s.dev))) ∧
  (∀ (s : State) (a : Nat) (gone : List (Nat × Nat)), cmpRuns s.dev = true → s.dev.cmp.role = 2 →
    answers (.handover true) s (allSettled s.dev (takeOver s.dev)) ∧
    (s.dev.cmp.anchorId = some a → gone = s.dev.cmp.ids.filter (fun x => x.2 == a) →
      answers .hbLossExpire s (allSettled s.dev (s.dev |> addI Reg.CMP_HB_MISS 0 0 (rd Reg.CMP_HB_LOSS 0 s.dev)
        |> updCmp (fun c => { c with ids := c.ids.filter (fun x => !gone.contains x)
                                     heard := c.heard.filter (fun r => gone.all (fun x => x.1 != r.serial)) })
        |> takeOver))))

/-- On a port whose PCS is up: a good frame whose address the gateway table holds is counted, admitted and checked against XOFF, and one it
does not hold counts a gateway miss; a PFC frame of an enabled priority with quanta pauses it; a PAUSE frame is counted and discarded;
PFC_REPEAT repeats the PFC frame while above XOFF. When quanta expire the pause ends and is timed; PFC_WATCHDOG raises its event while
paused; a PCS that comes up sets the port's status, its lanes with their polarity and logical numbers, its speed and its fault bits, and
raises ETH_UP. (R147, R148, R149, R152, R153, R227) -/
def Obligations.EthernetPortsAct : Prop :=
  (∀ (s : State) (p : Nat), rd Reg.ETH_PCS_UP p s.dev = 1 →
    (∀ fr prio dei, 64 ≤ fr.length → fr.length ≤ rd Reg.ETH_MAX_FRAME p s.dev → framePrio p fr s.dev = (prio, dei) →
      (∀ e, gatewayOf (p / 8) (gatewayMac fr) s.dev = some e →
        answers (.ethFrameRx p true fr) s (settleNet s.dev (s.dev |> bump Reg.ETH_FRAMES_RX p |> admitFrame p prio dei e fr |> pfcCheck p prio))) ∧
      (gatewayOf (p / 8) (gatewayMac fr) s.dev = none →
        answers (.ethFrameRx p true fr) s (settleNet s.dev (s.dev |> bump Reg.ETH_FRAMES_RX p |> bump Reg.RTE_GW_MISS (p / 8))))) ∧
    (∀ prio quanta, bitOf (rd Reg.ETH_PFC_EN p s.dev) prio = true → bitOf (portOf p s.dev).paused prio = false → 0 < quanta →
      answers (.pfcFrameRx p prio quanta) s (settleNet s.dev (s.dev |> addI Reg.ETH_PFC_RX p prio 1
        |> updPort p (fun q => { q with paused := setBit q.paused prio, pausedAt := smPut q.pausedAt prio s.dev.th.localNs })))) ∧
    answers (.pauseFrameRx p) s (settleNet s.dev (bump Reg.ETH_PAUSE_RX p s.dev)) ∧
    (∀ prio, bitOf (portOf p s.dev).xoff prio = true →
      answers (.pfcRepeat p prio) s (settleNet s.dev (s.dev |> emit .pfc [p, prio, rd Reg.ETH_PFC_QUANTA p s.dev] []
        |> addI Reg.ETH_PFC_TX p prio 1)))) ∧
  (∀ (s : State) (p prio : Nat), bitOf (portOf p s.dev).paused prio = true →
    answers (.pfcQuantaExpire p prio) s (settleNet s.dev (s.dev
      |> addI Reg.ETH_PAUSED p prio ((s.dev.th.localNs - smGet (fun _ => 0) (portOf p s.dev).pausedAt prio) / 1000)
      |> updPort p (fun q => { q with paused := clrBit q.paused prio }))) ∧
    (rd Reg.ETH_PFC_WD p s.dev ≠ 0 → answers (.pfcWatchdog p prio) s (settleNet s.dev (raise Ev.PFC_WATCHDOG p s.dev)))) ∧
  (∀ (s : State) (p : Nat) (lf rf : Bool) (pol order : List Nat), rd Reg.ETH_PCS_UP p s.dev = 0 → mayRun p s.dev = true → pers (p / 8) s.dev = 3 →
    answers (.ethPcsChange p ⟨true, pol, order⟩ false lf rf) s (settleNet s.dev (s.dev
      |> wr Reg.ETH_PCS_UP p 1 |> wr Reg.ETH_ALIGNED p 1 |> wr Reg.ETH_FEC_LOCK p 1 |> wr Reg.ETH_HI_SER p 0
      |> (fun d => d |> wr Reg.ETH_SPEED p (ethSpeed p d) |> wr Reg.ETH_LANE200 p (bnat (portByte p d % 16 == 2))
        |> wr Reg.ETH_LANES p (portWidth p d) |> wr Reg.LNK_LSTATE p 3
        |> ethLanesUp p pol order |> raise Ev.ETH_UP p)
      |> wr Reg.ETH_LOCAL_FAULT p (bnat lf) |> wr Reg.ETH_REMOTE_FAULT p (bnat rf))))

/-- A feed becomes present; one present and not good becomes good and stands by while the other path is closed; a feed not active stops being
good. The active feed below SW_LEVEL, SWITCH_NOW and the return to PRI_FEED switch to the other feed where it is good. A closed path that
trips opens, with cause, peak, counts and FEED_TRIP; confirmed open it waits for its retry; the retry period passes; an attempt with no
path closed closes the path; a charged bank makes it ON; TRIP_CLR ends the wait. (R475, R476, R477, R478, R479, R495) -/
def Obligations.FeedsAndFusesAct : Prop :=
  (∀ (s : State) (w : Nat), w < 2 →
    (noFeed s.dev = true → s.dev.fd.holdSince = none → answers (.feedPresentChange w true) s
      (updFd (fun f => if w = 0 then { f with presentA := true } else { f with presentB := true }) s.dev)) ∧
    (waiting w s.dev = false → present w s.dev = true → good w s.dev = false → noPath s.dev = false → closed w s.dev = false →
      answers (.feedGood w) s (if s.dev.fd.low then s.dev |> wr (fGood w) 0 1 |> switchTo w
        else s.dev |> wr (fGood w) 0 1 |> wr (fState w) 0 3)) ∧
    (closed w s.dev = false → rd (fState w) 0 s.dev = 3 → answers (.feedNotGood w) s (s.dev |> wr (fGood w) 0 0 |> wr (fState w) 0 0)) ∧
    (rd Reg.PWR_FEED_ACTIVE 0 s.dev = 1 - w → good w s.dev = true →
      answers .feedBelowSwLevel s (s.dev |> wr (fGood (1 - w)) 0 0 |> updFd (fun f => { f with low := true }) |> switchTo w) ∧
      (served 0x01 0 0x104 s.dev → answers .switchNow s (switchTo w s.dev)) ∧
      (rd Reg.PWR_PRI_FEED 0 s.dev = w → rd Reg.PWR_RETURN_EN 0 s.dev = 1 → answers .feedSwitchBack s (switchTo w s.dev))) ∧
    (∀ cause peak, 1 ≤ cause → cause ≤ 5 → closed w s.dev = true →
      answers (.efuseTrip w cause peak) s (s.dev |> emit .path [w, 0] [] |> wr (fState w) 0 4 |> wr (fGood w) 0 0
        |> onlyIf (rd Reg.PWR_FEED_ACTIVE 0 s.dev == w) (wr Reg.PWR_FEED_ACTIVE 0 2)
        |> wr Reg.PWR_LAST_CAUSE 0 cause |> wr Reg.PWR_LAST_FEED 0 w |> bump (fTrips w) 0
        |> updFd (fun f => if w = 0 then { f with tripA := s.dev.th.localNs } else { f with tripB := s.dev.th.localNs })
        |> setAttempt w none |> setFails w (if attemptFails w s.dev then fails w s.dev + 1 else 0)
        |> raiseDet Ev.FEED_TRIP 0 (BitVec.ofNat 32 (cause + 256 * w + 65536 * min peak 65535)) 0)) ∧
    (rd (fState w) 0 s.dev = 4 → noPath s.dev = false → (rd Reg.PWR_RETRY_MAX 0 s.dev = 0 ∨ fails w s.dev < rd Reg.PWR_RETRY_MAX 0 s.dev) →
      answers (.pathOpenConfirmed w) s (s.dev |> wr (fState w) 0 5 |> wr (fLeft w) 0 (rd Reg.PWR_RETRY_PERIOD_MS 0 s.dev))) ∧
    (rd (fState w) 0 s.dev = 5 → answers (.retryPeriodExpire w) s (wr (fLeft w) 0 0 s.dev) ∧
      (served 0x01 0 0x104 s.dev → answers (.tripClr w) s (s.dev |> wr (fState w) 0 0 |> wr (fLeft w) 0 0 |> setAttempt w none |> setFails w 0)) ∧
      (rd (fLeft w) 0 s.dev = 0 → present w s.dev = true → noPath s.dev = true → s.dev.fd.rails = true →
        answers (.retryAttempt w) s (s.dev |> setAttempt w (some none) |> closePath w |> bump Reg.PWR_SWITCHES 0 |> raise Ev.FEED_SWITCHED 0))) ∧
    (rd (fState w) 0 s.dev = 1 →
      answers (.inrushChargeComplete w) s (if (attempt w s.dev).isSome
        then s.dev |> wr (fState w) 0 2 |> setAttempt w none |> setFails w 0 |> raise Ev.FEED_RESTORED 0 else wr (fState w) 0 2 s.dev)))

/-- A first dip starts the throttle, which halves the clocks and holds the lane taps, and is counted; its end records lowest voltage and
duration and raises SUPPLY_WARN; the throttle is released. Loss of supply opens the paths, marks every domain OFF and drops what was in
progress; in hold-up AON loses power. A measurement report sets the readings and adds the energy. A cool thermal sample sets hottest and
peak readings; the thermal throttle ends once all are below 95 degrees; a VIO that crosses 700 mV, or rises by more than a tenth, is
sensed, and its pin shows a crossing. (R481, R482, R483, R485, R486, R495, R550, R556, R562) -/
def Obligations.SupplyAndHeatAct : Prop :=
  (∀ (s : State), s.dev.fd.dip = none → s.dev.fd.dipStarts = [] → answers .dipBegin s (s.dev
    |> throttling (fun f => { f with dip := some s.dev.th.localNs, dipStarts := [s.dev.th.localNs], throttleDip := true })
    |> onlyIf (!s.dev.fd.throttleDip) (holdTaps true) |> wr Reg.PWR_THROTTLE 0 1 |> bump Reg.PWR_DIPS 0)) ∧
  (∀ (s : State) (t us minMv : Nat), s.dev.fd.dip = some t → us = (s.dev.th.localNs - t) / 1000 → answers (.dipEnd minMv) s (s.dev
    |> updFd (fun f => { f with dip := none }) |> wrFit Reg.PWR_DIP_MIN_MV 0 minMv |> wr Reg.PWR_DIP_US 0 (min us 65535)
    |> raiseDet Ev.SUPPLY_WARN 0 (BitVec.ofNat 32 (minMv % 65536 + 65536 * (us % 65536))) (BitVec.ofNat 32 (us / 65536 % 65536)))) ∧
  (∀ (s : State), s.dev.fd.dip = none → s.dev.fd.throttleDip = true →
    answers .throttleEnd s (s.dev |> throttling (fun f => { f with throttleDip := false }) |> wr Reg.PWR_THROTTLE 0 0 |> holdTaps false)) ∧
  (∀ (s : State), s.dev.fd.rails = true → rd Reg.PWR_PG 0 s.dev = 1 →
    answers .lossOfSupply s (s.dev |> emit .pin [8, 0, 0] [] |> wr Reg.PWR_PG 0 0
      |> forEach [0, 1] (fun w d => onlyIf (closed w d) (fun d => d |> openPath w 0 |> wr (fGood w) 0 0) d)
      |> updFd (fun f => { f with rails := false, lost := true, dip := none, throttleDip := false })
      |> wr Reg.PWR_THROTTLE 0 0 |> dropTransitions |> stopSequence
      |> forEach (List.range 64) (fun n d => d |> clearPend n |> wrI Reg.PWR_STATE 0 n 2 |> wrI Reg.PWR_TARGET 0 n 0)
      |> wr Reg.DEV_STATE 0 0)) ∧
  (∀ (s : State), s.dev.fd.holdSince.isSome = true → s.dev.fd.rails = false →
    answers .aonPowerLoss s (updFd (fun f => { f with aon := false, holdSince := none }) s.dev)) ∧
  (∀ (s : State) (va vb ia ib vbank pin mj : Nat), rd Reg.PWR_PLINK_FAILED 0 s.dev = 0 → s.dev.fd.rails = true →
    answers (.plinkMeasurementReport va vb ia ib vbank pin mj) s (s.dev |> wrFit Reg.PWR_VIN_A_MV 0 va |> wrFit Reg.PWR_VIN_B_MV 0 vb
      |> wrFit Reg.PWR_IIN_A 0 ia |> wrFit Reg.PWR_IIN_B 0 ib |> wrFit Reg.PWR_VBANK_MV 0 vbank |> wrFit Reg.PWR_P_IN 0 pin
      |> (fun d => wr2 Reg.PWR_ENERGY_MJ_LO Reg.PWR_ENERGY_MJ_HI 0 0
          ((rd2 Reg.PWR_ENERGY_MJ_LO Reg.PWR_ENERGY_MJ_HI 0 0 s.dev + mj) % 2 ^ 64) d))) ∧
  (∀ (s : State) (temps : List Int) (hot : Int), temps.length = 10 → s.dev.fd.rails = true → hottest temps = hot → hot < 1000 →
    s.dev.sens.sampled = true →
    answers (.thermalSample temps) s ({ s.dev with sens := { s.dev.sens with temps := temps, sampled := true } } |> wr Reg.DEV_TJ_HOT 0 (ofSigned 16 hot)
      |> wr Reg.DEV_TJ_PEAK 0 (ofSigned 16 (max (toSigned 16 (rd Reg.DEV_TJ_PEAK 0 s.dev)) hot)) |> countThrottle
      |> (fun d => wr Reg.DEV_THERM_STATE 0 (thermState hot d) d))) ∧
  (∀ (s : State), s.dev.fd.throttleHot = true → (∀ t ∈ s.dev.sens.temps, t < 950) →
    answers .thermalThrottleEnd s (s.dev |> countThrottle |> throttling (fun f => { f with throttleHot := false })
      |> (fun d => wr Reg.DEV_THERM_STATE 0 (thermState (hottest d.sens.temps) d) d))) ∧
  (∀ (s : State) (mv : Nat), s.dev.fd.aon = true →
    (vioGood s.dev = false → 700 ≤ mv →
      answers (.vioChange mv) s ({ s.dev with sens := { s.dev.sens with vio := mv } } |> emit .pin [9, 0, 1] [])) ∧
    (vioGood s.dev = true → mv < 700 →
      answers (.vioChange mv) s ({ s.dev with sens := { s.dev.sens with vio := mv } } |> emit .pin [9, 0, 0] [])) ∧
    (vioGood s.dev = decide (700 ≤ mv) → s.dev.sens.vio < 10 * (mv - s.dev.sens.vio) →
      answers (.vioChange mv) s { s.dev with sens := { s.dev.sens with vio := mv } }))

/-- PWR_REQ for a domain with no transition and no commit in progress starts the transition that R490 permits, and a strait or segment that
was ON begins to drain; a wake source enabled for a domain in RET or OFF starts its return to ON; PC0's acknowledgement is noted; a first
timeout repeats the rail request; an acknowledged transition reaches its target, raises PWR_DONE and starts what is pending; a segment
whose drain exceeds 100 µs is abandoned. (R28, R43, R486, R490, R491, R492, R493) -/
def Obligations.DomainTransitionsRun : Prop :=
  (∀ (s : State) (v : Word) (dom target : Nat), served 0x01 0 0x200 s.dev → bitOf v.toNat 31 = true → bitsOf v.toNat 0 6 = dom →
    bitsOf v.toNat 8 2 = target → target ≠ 3 → trOf dom s.dev = none → (target = 0 ∨ commitIn dom s.dev = false) →
    (domState dom s.dev = target → answers (.pwrReq v) s (raise Ev.PWR_DONE 0 s.dev)) ∧
    (domState dom s.dev ≠ target → (target = 0 ∨ refuserOf dom target s.dev = 0) → (dom < 18 ∨ 40 ≤ dom) →
      answers (.pwrReq v) s (startTr dom target s.dev)) ∧
    (∀ d1, domState dom s.dev = 0 → (target = 1 ∨ target = 2) → refuserOf dom target s.dev = 0 → d1 = startTr dom target s.dev →
      (∀ k, dom = 18 + k → k < 6 → rd Reg.STR_STATE k d1 = 0 → answers (.pwrReq v) s (wr Reg.STR_STATE k 1 d1)) ∧
      (∀ seg, dom = 24 + seg → seg < 16 →
        answers (.pwrReq v) s (d1 |> wr Reg.HBR_SEG_STATE seg 1 |> sharedLowAlarm (sharedFree s.dev))))) ∧
  (∀ (s : State) (dom k : Nat), hasWake dom k = true → bitOf (rdI Reg.PWR_WAKE_EN 0 dom s.dev) k = true → rdI Reg.PWR_PENDING 0 dom s.dev = 0 →
    trOf dom s.dev = none → (domState dom s.dev = 1 ∨ domState dom s.dev = 2) →
    answers (.domainWake dom (0x40 + k)) s (startTr dom 0 s.dev)) ∧
  (∀ (s : State) (dom : Nat) (t : DomTr), trOf dom s.dev = some t →
    (t.draining = false → answers (.plinkAck dom) s
      { s.dev with pw := { (putTr { t with acked := true } s.dev).pw with plinkAborts := 0 } }) ∧
    (t.acked = false → t.draining = false → t.timeouts < 2 → answers (.plinkRequestTimeout dom) s
      (allSettled s.dev (s.dev |> putTr { t with timeouts := t.timeouts + 1 } |> railRequest dom t.target))) ∧
    (t.acked = true → answers (.domainTransitionDone dom) s
      (allSettled s.dev (s.dev |> reach dom t.prior t.target |> raise Ev.PWR_DONE 0 |> nextRequest dom))) ∧
    (∀ seg, dom = 24 + seg → seg < 16 → t.draining = true → answers (.segmentDrainTimeout seg) s
      (allSettled s.dev (s.dev |> abandonTr dom 0x05 |> nextRequest dom))))

/-- Corrected errors of a die-to-die link are counted and cross D2D_THRESH once; an uncorrectable error of a lane chiplet's link takes its
ports down and raises D2D_UNCORR, and one of a stack's link raises PKM_LINK_UNCORR and is handled at the word hit; a flow-control update
sets the limits of its class; a function's write at a slice's block in BAR2 writes that register. (R15, R16, R193, R403, R428, R448) -/
def Obligations.DieLinksAndOutsideWritesAct : Prop :=
  (∀ (s : State) (link n r before t : Nat), link < 9 → rdI Reg.DEV_D2D_CORR 0 link s.dev = before → rd Reg.DEV_D2D_THRESH 0 s.dev = t →
    answers (.d2dCorrectedError link n r) s (s.dev |> addI Reg.DEV_D2D_CORR 0 link n |> addI Reg.DEV_D2D_RETRY 0 link r
      |> onlyIf (decide (before < t ∧ t ≤ before + n)) (raiseDet Ev.D2D_CORR_THRESH 0 (BitVec.ofNat 32 link) 0))) ∧
  (∀ (s : State) (link offset : Nat) (user : Option Nat),
    (link < 6 → answers (.d2dUncorr link offset user) s (allSettled s.dev (s.dev
      |> forEach ((List.range 3).flatMap (fun j => islandPorts (3 * link + j) s.dev)) chipletPortDown
      |> raiseDet Ev.D2D_UNCORR 0 (BitVec.ofNat 32 link) 0))) ∧
    (∀ m, link = 7 + m → m < 2 → domOn (56 + m) s.dev = true → (offset / 256) % 2 = m →
      answers (.d2dUncorr link offset user) s (allSettled s.dev (s.dev |> raise Ev.PKM_LINK_UNCORR m |> packageBad offset user)))) ∧
  (∀ (s : State) (port cls hdr data k : Nat), expIdx port s.dev = some k → rd Reg.EXP_DL_ACTIVE k s.dev = 1 → 1 ≤ cls → cls ≤ 4 →
    answers (.expFlowControlCreditRx port cls hdr data) s (settleNet s.dev
      (updPort port (fun q => { q with fcHdr := smPut q.fcHdr cls hdr, fcData := smPut q.fcData cls data }) s.dev))) ∧
  (∀ (s : State) (v n reg : Nat) (val : Word), ready s.dev = true → n < 4096 → 0x20 ≤ reg → reg ≤ 0x4C → reg % 4 = 0 →
    slState n s.dev ≠ slFree → slRd Reg.SLC_VH n s.dev = v → rd Reg.FUN_FLR_BUSY v s.dev = 0 →
    answers (.hostSliceRegisterWrite v n reg val) s
      (allSettled s.dev (applyWord ⟨[], true, 0⟩ 0x1C (n / 16) (0x100 + 0xF0 * (n % 16) + reg) val s.dev)))

/-- On an enabled EXP port with its link up, a TLP is counted and metered, and dropped where its meter drops it; one from the host at an
upstream port that is not for the management function is counted and goes to its destination; a response of a device to an outstanding
request goes to the request's host. A configuration request to the network function not in reset reads or writes its configuration space
and completes; one for no function is answered Unsupported Request. (R397, R398, R400, R401, R407, R409, R437) -/
def Obligations.SwitchCarriesTlps : Prop :=
  (∀ (s : State) (k : Nat) (t : Tlp) (d0 : Dev), expOn k s.dev = true → rd Reg.EXP_DL_ACTIVE k s.dev = 1 →
    d0 = (s.dev |> bump Reg.EXP_TLP_RX k |> onlyIf t.poison (poisonSeen k t.ld)) →
    (∀ c m t1 d1, meterTake (rd Reg.EXP_PORT k d0) t.tc 0 t.bytes.length d0 = (some (c, m), d1) → t1 = { t with colour := c, mark := m } →
      (∀ v, isUsp k d1 = true → rd Reg.EXP_LVH k d1 = v → fromHost v t1 d1 ≠ .fn v 2 →
        answers (.expTlpRx k t) s (engSettled (releaseFenced
          (d1 |> bump Reg.VHC_TLP_DOWN v |> toDest (rd Reg.EXP_PORT k d1) k v t1 (fromHost v t1 d1))))) ∧
      (∀ ld vh v n r d2, isUsp k d1 = false → isolated k d1 = false →
        (swPort k d1).bound.find? (fun b => b.1 == t1.ld) = some (ld, vh, some (v, n)) → t1.response = true →
        takeNp k t1 d1 = (some r, d2) → 64 ≤ r.member →
        answers (.expTlpRx k t) s (engSettled (releaseFenced (devTlp (rd Reg.EXP_PORT k d1) k v n (some k) t1 d2))))) ∧
    (∀ d1, meterTake (rd Reg.EXP_PORT k d0) t.tc 0 t.bytes.length d0 = (none, d1) →
      answers (.expTlpRx k t) s (engSettled (releaseFenced d1)))) ∧
  (∀ (s : State) (v k bus dev fn off be data req tag : Nat) (type1 wr : Bool), uspIdx v s.dev = some k →
    (cfgFn v type1 bus dev fn s.dev = .net → ready s.dev = true → rd Reg.FUN_FLR_BUSY v s.dev = 0 →
      answers (.configRequest v type1 false bus dev fn off be data req tag) s (engSettled
        (toExp 163 k (cplWith (bus * 256 + dev * 8 + fn) req tag (leBytes 4 (netCfgRead v (off / 4 * 4 % 4096) s.dev))) s.dev)) ∧
      answers (.configRequest v type1 true bus dev fn off be data req tag) s (engSettled
        (s.dev |> netCfgWrite v (off / 4 * 4 % 4096) data (beMask be)
          |> toExp 163 k (cplTlp (bus * 256 + dev * 8 + fn) 0 req tag)))) ∧
    (cfgFn v type1 bus dev fn s.dev = .none → ready s.dev = true →
      answers (.configRequest v type1 wr bus dev fn off be data req tag) s (engSettled
        (s.dev |> bump Reg.EXP_UR_SENT k |> toExp 163 k (cplTlp (bus * 256 + dev * 8 + fn) 1 req tag)))))

/-- A hot reset of a VH with an upstream port runs, and one told of by another member resets the local ports bound. BIND of a free device to a
local port that may take it, outside its hold-off, binds it; UNBIND of a bound local one isolates the port and unbinds it; a BIND that
waited completes after the hold-off. RD_LIVE, RD_SHADOW, WR_SHADOW, COMMIT and DISCARD act on the indexed peer window. (R399, R403, R409,
R420) -/
def Obligations.SwitchBindsAndResets : Prop :=
  (∀ (s : State) (v : Nat), answers (.vhHotReset true v) s (engSettled (farHotReset v s.dev)) ∧
    ((uspIdx v s.dev).isSome = true → answers (.vhHotReset false v) s (engSettled (vhHotReset v s.dev)))) ∧
  (∀ (s : State) (v n w m k ld grant dexp : Nat), served 0x1A v 0x10C s.dev → rd Reg.VHC_MAP_BUSY v s.dev = 0 → rd Reg.VHC_DSP_IDX v s.dev = n →
    (wordAt (regAddr 0x1A v 0x108) s.dev).toNat = w → isSelf m s.dev = true →
    (2 ≤ n → bitOf w 0 = true → dspAt v n s.dev = none → mapWord w = (m, k, ld) → bindBad (some v) k ld s.dev = 0 → inHoldOff k s.dev = false →
      answers (.bind false v grant dexp ld) s (engSettled (bindDone v n w s.dev))) ∧
    (dspAt v n s.dev = some (m, k, ld) →
      answers (.unbind false v dexp ld) s (engSettled (s.dev |> isolate k 3 |> unbindPort k ld (vhNumber v s.dev)
        |> slotChange 19 v n |> slotChange 24 v n |> updSw (fun s => { s with maps := s.maps.filter (fun e => e.1 != 32 * v + n) })
        |> wr Reg.VHC_BOUND_MAP v (clrBit (rd Reg.VHC_BOUND_MAP v s.dev) n) |> wr Reg.VHC_MAP_STATUS v 0 |> raise Ev.DSP_UNBOUND v)))) ∧
  (∀ (s : State) (v dexp ld grant : Nat), bindBad none dexp ld s.dev = 0 → inHoldOff dexp s.dev = false →
    answers (.bind true v grant dexp ld) s (engSettled (bindPort dexp ld v none s.dev))) ∧
  (∀ (s : State) (v dexp ld : Nat), ((swPort dexp s.dev).bound.any (fun b => b.1 == ld && b.2.1 == v)) = true →
    answers (.unbind true v dexp ld) s (engSettled (s.dev |> isolate dexp 3 |> unbindPort dexp ld v))) ∧
  (∀ (s : State) (k v n w c : Nat), (swPort k s.dev).wait = some (v, n, w, 1, c) →
    answers (.bindHoldoffEnd k) s (engSettled (s.dev |> updSwPort k (fun p => { p with wait := none, offAt := none }) |> bindDone v n w))) ∧
  (∀ (s : State) (i : Nat) (live shadow : List Nat), served 0x1A 0 0x204 s.dev → rd Reg.VHC_PW_IDX 0 s.dev = i → pwOf i s.dev = (live, shadow) →
    answers .pwRdLive s (engSettled (forEach (List.range 8) (fun j d => wrI Reg.VHC_PW_DATA 0 j (live.getD j 0) d) s.dev)) ∧
    answers .pwRdShadow s (engSettled (forEach (List.range 8) (fun j d => wrI Reg.VHC_PW_DATA 0 j (shadow.getD j 0) d) s.dev)) ∧
    answers .pwWrShadow s (engSettled (putPw i (live, maskRow pwMask (pwData s.dev)) s.dev)) ∧
    answers .pwDiscard s (engSettled (putPw i (live, live) s.dev)) ∧
    answers .pwCommit s (engSettled (pwCommit (trigWord 0x1A 0 0x204 3 s.dev) s.dev)))

/-- ISO_SET and a surprise down isolate a downstream port that is not isolated; ISO_REL and the host's release give their half of the release;
DL_ACTIVE rises within the port's limits and falls; a write of EXP_EN enables the port; edges on PRSNT_N, WAKE_N, ALERT_N and CLKREQ_N
reach the ports that own them; PERST_N of a port that nothing holds is deasserted. (R406, R407, R408, R411, R419, R422, R551) -/
def Obligations.SwitchPortsAndSlotsAct : Prop :=
  (∀ (s : State) (k : Nat), rd Reg.EXP_IDX_VALID k s.dev = 1 → isolated k s.dev = false →
    (served 0x19 k 0x104 s.dev → answers (.isoSet k) s (engSettled (isolate k 5 s.dev))) ∧
    (∀ v n, k < 64 → rd Reg.EXP_EN k s.dev = 1 → answers (.dpcTrigger false true k v n) s (engSettled (isolate k 2 s.dev))) ∧
    (∀ speed width lds cxl t, k < 64 → rd Reg.EXP_EN k s.dev = 1 → 1 ≤ speed → speed ≤ rd Reg.EXP_MAX_GEN k s.dev → width < 32 → lds ≤ 16 →
      answers (.expDlChange k true speed width cxl lds t) s (engSettled (dlUp k speed width t.flit cxl lds t s.dev))) ∧
    (isUsp k s.dev = false → perstHeld k s.dev = false → answers (.perstDeassertTimer k) s (engSettled (drivePerst k true s.dev)))) ∧
  (∀ (s : State) (k speed width lds : Nat) (cxl : Bool) (t : Training), expOn k s.dev = true → rd Reg.EXP_DL_ACTIVE k s.dev = 1 →
    answers (.expDlChange k false speed width cxl lds t) s
      (engSettled (s.dev |> dlDown k |> onlyIf (isUsp k s.dev) (vhHotReset (rd Reg.EXP_LVH k s.dev))))) ∧
  (∀ (s : State) (k : Nat), isolated k s.dev = true →
    (served 0x19 k 0x104 s.dev → rd Reg.EXP_ISO_CAUSE k s.dev ≠ 3 →
      answers (.isoRel false k) s (engSettled (s.dev |> updSwPort k (fun p => { p with needFm := false }) |> tryRelease k))) ∧
    answers (.isoRel true k) s (engSettled (s.dev |> updSwPort k (fun p => { p with needHost := false }) |> tryRelease k))) ∧
  (∀ (s : State) (k : Nat), served 0x19 k 0x104 s.dev → rd Reg.EXP_EN k s.dev = 0 → harbourFits (wr Reg.EXP_EN k 1 s.dev) = true →
    answers (.expEnWrite k 1#32) s (engSettled (s.dev |> wr Reg.EXP_EN k 1 |> sharedLowAlarm (sharedFree s.dev)))) ∧
  (∀ (s : State) (slot : Nat) (level : Bool),
    answers (.slotPrsntChange slot level) s (engSettled (s.dev |> wireEdge slot 2 level |> forEach (slotPorts slot 2 s.dev) (fun k d =>
      if (swPort k d).prsnt = !level then d else d |> updSwPort k (fun p => { p with prsnt := !level }) |> portChange 19 k))) ∧
    (slotPorts slot 1 s.dev = [] → answers (.slotWakeEdge slot) s (engSettled (wireEdge slot 1 false s.dev))) ∧
    (∀ k v n b d1, d1 = wireEdge slot 1 false s.dev → slotPorts slot 1 s.dev = [k] → (swPort k d1).bound = [(b, v, some (v, n))] →
      answers (.slotWakeEdge slot) s (engSettled (toDest 163 k v (pmPme (dspId v n d1) b) (.host v) d1))) ∧
    answers (.slotAlertEdge slot) s (engSettled (s.dev |> wireEdge slot 4 false |> forEach (slotPorts slot 4 s.dev) (raise Ev.EXP_ALERT))) ∧
    (∀ k, slotPorts slot 3 s.dev = [k] → rd Reg.EXP_CLKREQ_IGN k s.dev = 0 →
      answers (.slotClkreqChange slot false) s (engSettled (s.dev |> wireEdge slot 3 false |> emit .pin [7, slot, 1] []))))

/-- A composite packet of class 1 or 2 for this device in sequence, with nothing waiting and its fence open, is counted and carried on, and is
acknowledged at the 32nd or later; an ACK frees the packets it covers; a NAK also resends; an ACK due is sent; CMP_RTO resends a stream
within CMP_RETRY passes; CPL_TMO of a request across members answers it and counts. (R413, R414, R415) -/
def Obligations.CompositeStreamsAct : Prop :=
  (∀ (s : State) (p : CompPkt) (x : CompRx) (d1 d2 : Dev), fromMember p.src p.dst s.dev = true → p.type < 5 → 1 ≤ p.cls → p.cls < 3 →
    p.cseq < 65536 → rxOf p.src p.cls s.dev = x → p.cseq = x.expect →
    d1 = (s.dev |> updRx p.src p.cls (fun x => { x with expect := (x.expect + 1) % 65536, since := x.since + 1, due := true }) |> bump Reg.CMP_RX 0) →
    (rxOf p.src p.cls d1).wait = [] → fenceOpen p.src p.pfence d1 = true → d2 = passComp p d1 →
    answers (.compositePacketRx p) s (engSettled (releaseFenced
      (if 32 ≤ (rxOf p.src p.cls d2).since then sendAckTo p.src p.cls d2 else d2)))) ∧
  (∀ (s : State) (m c seq : Nat) (gone : List (CompPkt × Nat)), compositeOn s.dev = true → m < 64 → c < 3 →
    gone = (txOf m c s.dev).out.filter (fun e => decide ((seq + 65536 - e.1.cseq) % 65536 < 32768)) → gone ≠ [] →
    answers (.compositeAckRx m c seq) s (engSettled (s.dev
      |> updTx m c (fun x => { x with out := x.out.filter (fun e => !gone.contains e), passes := 0 })
      |> forEach gone (fun e => dropPkt e.2) |> sendWaiting m c (txOf m c s.dev).wait.length))) ∧
  (∀ (s : State) (m c seq : Nat), compositeOn s.dev = true → m < 64 → c < 3 →
    answers (.compositeNakRx m c seq) s (engSettled (s.dev |> ackStream m c ((seq + 65535) % 65536) |> resendStream m c))) ∧
  (∀ (s : State) (m c : Nat), (rxOf m c s.dev).due = true → answers (.compositeAckSend m c) s (engSettled (sendAckTo m c s.dev))) ∧
  (∀ (s : State) (m c : Nat) (x : CompTx), txOf m c s.dev = x → x.out ≠ [] → x.passes < rd Reg.CMP_RETRY 0 s.dev →
    answers (.cmpRtoExpire m c) s (engSettled (s.dev |> updTx m c (fun x => { x with passes := x.passes + 1 })
      |> addI Reg.CMP_RESENT 0 0 x.out.length |> forEach x.out (fun e => sendComp 163 e.1)))) ∧
  (∀ (s : State) (v m req tag : Nat) (r : NpReq), v < 256 →
    s.dev.sw.remote.find? (fun r => r.vh == v && r.member == m && r.req == req && r.tag == tag) = some r →
    answers (.cplTmoExpire v m req tag) s (engSettled (s.dev |> updSw (fun s => { s with remote := s.remote.erase r })
      |> bump Reg.CMP_CPL_TMO_CNT 0
      |> (fun d => d |> bump Reg.EXP_CPL_SYN ((uspIdx v d).getD 0) |> answerReq { r with member := 64 } 0 4) |> releaseFenced)))

/-- On a timed port of an SFL island a TIME flit goes out; one received whose check holds is counted, opens an exchange where it answers the
last sent, its record is taken, the election run, and an exchange it completes gives a sample; one whose check fails is a link flit error.
The grandmaster's round advances; a stale record is no longer fresh; HOLDOVER ends with time not valid; FT_PPS_IN edges record their
offset, their loss is raised on the grandmaster, and FT_PPS_OUT rises each whole second. SET_GO on the grandmaster sets fabric time to
SET_NS, now or at the next edge; PHASE_LOAD_GO loads the phase count. (R453, R454, R456, R457, R458, R459, R460, R462, R463, R470) -/
def Obligations.FabricTimeActs : Prop :=
  (∀ (s : State) (p : Nat) (x : TimePort), timePort p s.dev = true → pers (p / 8) s.dev = 2 → timePortOf p s.dev = x →
    (∀ f : TimeFlit, f = { tseq := x.txSeq, rxSeq := x.rxSeq % 256, flags := timeFlags p x s.dev, depth := rd Reg.TIM_DEPTH 0 s.dev
                           txPrev := x.txTime.getD 0, rxTime := x.rxTime, gmId := rd2 Reg.TIM_GM_ID_LO Reg.TIM_GM_ID_HI 0 0 s.dev
                           gmPrio := rd Reg.TIM_GM_PRIO 0 s.dev, gmRound := rd Reg.TIM_GM_ROUND 0 s.dev
                           taiUtc := rd Reg.TIM_TAI_UTC 0 s.dev } →
      answers (.timeFlitSend p) s (s.dev |> idleToCodeword p |> sendLink p 6 0 f.body f.nums
        |> putTimePort p { x with txSeq := (x.txSeq + 1) % 256, txTime := some s.dev.th.fabric })) ∧
    (∀ bs fields body f d1, decodeFlit (flitLevel p s.dev) bs = some (.link 6 fields body) → timeFlitOf body = f →
      d1 = (s.dev |> bump Reg.TIM_TIME_RX 0
        |> putTimePort p { x with
             open1 := x.txTime.bind (fun t1 =>
               if bitOf f.flags 4 = true ∧ f.rxSeq = (x.txSeq + 255) % 256 then some (t1, f.rxTime, s.dev.th.fabric) else none)
             rxSeq := f.tseq % 256, rxTime := s.dev.th.fabric } |> takeRecord p f |> timeElect) →
      (x.open1 = none → answers (.timeFlitRx p bs) s (allSettled s.dev d1)) ∧
      (∀ t1 t2 u4 dl o, x.open1 = some (t1, t2, u4) → f.tseq = (x.rxSeq + 1) % 256 → bitOf f.flags 5 = true →
        exchange t1 t2 f.txPrev u4 (toSigned 16 (rdI Reg.TIM_ASYM 0 p s.dev) * 4096) = (dl, o) →
        answers (.timeFlitRx p bs) s (allSettled s.dev (timeSample p dl o (bitOf f.flags 0) d1)))) ∧
    (∀ bs, decodeFlit (flitLevel p s.dev) bs = none → answers (.timeFlitRx p bs) s (allSettled s.dev (flitCheckFail p false s.dev)))) ∧
  (∀ (s : State), rd Reg.TIM_STATE 0 s.dev = 4 →
    answers .gmRoundTick s (addMod Reg.TIM_GM_ROUND 0 0 1 s.dev) ∧
    (rd Reg.TIM_PPS_IN_EN 0 s.dev = 1 → answers .ppsInLost s (s.dev |> raise Ev.PPS_IN_LOST 0
      |> updTh (fun t => { t with ppsSeen := false }) |> timeElect)) ∧
    (served 0x02 0 0x134 s.dev →
      (rd Reg.TIM_SET_AT_PPS 0 s.dev = 1 → answers .setGo s (allSettled s.dev (updTh (fun t => { t with setArmed := true }) s.dev))) ∧
      (rd Reg.TIM_SET_AT_PPS 0 s.dev = 0 → answers .setGo s (allSettled s.dev (s.dev |> updTh (fun t => { t with setArmed := false })
        |> (fun d => setFabric false (65536 * rd2 Reg.TIM_SET_NS_LO Reg.TIM_SET_NS_HI 0 0 s.dev) d)))))) ∧
  (∀ (s : State) (p : Nat) (r : GmRec), gmRecOf p s.dev = some r →
    answers (.gmRecordStale p) s (s.dev |> putGmRec p (some { r with fresh := false }) |> timeElect)) ∧
  (∀ (s : State), rd Reg.TIM_STATE 0 s.dev = 3 → answers .holdoverExpire s (s.dev |> wr Reg.TIM_VALID 0 0 |> wr Reg.TIM_STATE 0 0
    |> raise Ev.FT_INVALID 0 |> gatesTimeChange false |> ppsLow)) ∧
  (∀ (s : State) (d1 : Dev), rd Reg.TIM_PPS_IN_EN 0 s.dev = 1 →
    d1 = (s.dev |> wr Reg.TIM_PPS_IN_ERR 0 (ofSigned 32 (ppsOffset s.dev)) |> updTh (fun t => { t with ppsSeen := true }) |> timeElect) →
    answers .ppsInEdge s (allSettled s.dev (if rd Reg.TIM_STATE 0 d1 = 4 then (if d1.th.setArmed then setNow d1 else steer d1) else d1))) ∧
  (∀ (s : State), rd Reg.TIM_PPS_OUT_EN 0 s.dev = 1 → timeValid s.dev = true →
    answers .ppsOutSecond s (emit .pin [2, 0, 1, rd Reg.TIM_PPS_OUT_W 0 s.dev] [] s.dev)) ∧
  (∀ (s : State) (old new : Nat), served 0x02 0 0x160 s.dev → rd Reg.TIM_PHASE 0 s.dev = old → rd Reg.TIM_PHASE_LOAD 0 s.dev = new →
    answers .phaseLoadGo s (allSettled s.dev (s.dev |> wr Reg.TIM_PHASE 0 new
      |> (fun d => if 0 < (new + 2 ^ 32 - old) % 2 ^ 32 ∧ (new + 2 ^ 32 - old) % 2 ^ 32 < 2 ^ 31
            then forEach (hznSelect 1 (fun m => phasePassed m d) d) hznPassed d else d))))

/-- With the trigger bit of the HZN page written: READ copies the indexed entry into HZ_DATA; WRITE puts HZ_DATA into one that is not armed;
ARM of one whose fields keep to R465, its moment not passed, arms it and shows armed swaps; DISARM disarms it. Moments that have been
reached fire: the time axis in rising moment while time is valid, then the phase axis. (R464, R465, R466, R467, R468, R471) -/
def Obligations.HorizonsAct : Prop :=
  (∀ (s : State) (i : Nat) (e : HznEntry), served 0x03 0 0x104 s.dev → rd Reg.HZN_HZ_IDX 0 s.dev = i → hznOf i s.dev = e →
    answers .hznRead s (putRow Reg.HZN_HZ_DATA 0 (hznWords e) s.dev) ∧
    (e.armed = false → answers .hznWrite s (putHzn i (hznFrom (rowWords Reg.HZN_HZ_DATA 0 8 s.dev) e) s.dev)) ∧
    (hznOk e s.dev = true → (e.axis = 0 → fabricNs s.dev ≤ e.moment) → (e.axis ≠ 0 → phasePassed e.moment s.dev = false) →
      answers .arm s (allSettled s.dev (s.dev |> putHzn i { e with armed := true } |> swapPends))) ∧
    answers .disarm s (s.dev |> putHzn i { e with armed := false } |> swapPends)) ∧
  (∀ (s : State) (d1 : Dev),
    d1 = (if timeValid s.dev then forEach (hznSelect 0 (fun m => decide (m ≤ fabricNs s.dev)) s.dev) (hznFire false) s.dev else s.dev) →
    answers .horizonFire s (allSettled s.dev (forEach (hznSelect 1 (fun m => phasePassed m d1) d1) (hznFire false) d1)))

/-- A corrected harbour word is counted; an uncorrectable word of package memory is recorded, counted, raised with its address and taken to
the user of its area; a log entry in error reads CORRUPT. A device fault stops the transmitters, is logged and ends in FAULT. A missed
watchdog restarts the management processor. LOG_CLR empties the log; RD_GO copies a retained entry. The hourly measurement and a trend
period bring the aging monitors up to date. (R522, R523, R524, R526, R527, R530, R531, R532, R533, R539, R541) -/
def Obligations.FaultsAndLogAct : Prop :=
  (∀ (s : State) (seg cell pkt : Nat), domOn (24 + seg) s.dev = true →
    answers (.patrolScrub (.harbour seg cell pkt) true) s (allSettled s.dev (bump Reg.HBR_ECC_CORR seg s.dev))) ∧
  (∀ (s : State) (o m : Nat) (user : Option Nat), o < memSize → m = (o / 256) % 2 → domOn (56 + m) s.dev = true →
    answers (.patrolScrub (.package o user) false) s (allSettled s.dev (s.dev
      |> wr2 Reg.PKM_UNCORR_ADDR_LO Reg.PKM_UNCORR_ADDR_HI m 0 (o / 512 * 256 + o % 256) |> bump Reg.PKM_UNCORR_CNT m
      |> raiseDet Ev.PKM_ECC_UNCORR m (BitVec.ofNat 32 (o % 2 ^ 32)) (BitVec.ofNat 32 (o / 2 ^ 32)) |> areaBad o user))) ∧
  (∀ (s : State) (q : Nat), answers (.patrolScrub (.logEntry q) false) s (allSettled s.dev (s.dev |> entryBad q |> raise Ev.AON_ECC_UNCORR 0))) ∧
  (∀ (s : State) (clock : Bool) (kind : Nat), s.dev.fd.rails = true → s.dev.boot.fault = 0 → kind = (if clock then 1 else 2) →
    answers (.deviceFaultDetect clock) s ({ s.dev with boot := { s.dev.boot with fault := kind, running := 0 } }
      |> stopTransmitters |> raiseFault kind |> wr Reg.DEV_STATE 0 8)) ∧
  (∀ (s : State), s.dev.boot.bankUp = true → s.dev.mg.mpHalted = false → s.dev.mg.mpRestarts = [] →
    answers (.mpWatchdogMiss false) s (allSettled s.dev ({ s.dev with mg := { s.dev.mg with
        running := [], mpRestarts := [s.dev.th.localNs], remotes := s.dev.mg.remotes.filter (fun r => !r.edurn) } }
      |> bump Reg.LOG_MP_RESTARTS 0 |> raise Ev.MP_RESTART 0
      |> forEach s.dev.mg.running (fun r => edAnswer r.1 r.2.2 r.2.1 stBusy [] 0)))) ∧
  (∀ (s : State), served 0x05 0 0x108 s.dev →
    answers .logClr s (allSettled s.dev { s.dev with log := { s.dev.log with entries := [], stopRaised := false } })) ∧
  (∀ (s : State) (e : LogEntry), served 0x05 0 0x114 s.dev → s.dev.log.entries.find? (fun e => e.seq == rd Reg.LOG_RD_SEQ 0 s.dev) = some e →
    answers .rdGo s (allSettled s.dev (s.dev |> wrBytes Reg.LOG_DATA 8 (entryBytes e) |> wr Reg.LOG_RD_VALID 0 1))) ∧
  (∀ (s : State) (ppm : List Nat) (margins : List (Nat × Nat)),
    answers (.agingMeasure ppm margins) s (allSettled s.dev (s.dev
      |> forEach (List.range 20) (fun i => ageMeasure i (ppm.getD i 0 % 2 ^ 32) margins) |> lifeUpdate)) ∧
    answers .agingTrendPeriod s (allSettled s.dev (forEach (List.range 20) trendPeriod s.dev)))

/-- COLD_START with a feed and the rails down resets the block, brings the rails and AON up and starts up to the wipe. A verified wipe of a
device past BLANK with a bank up goes on to READY. WARM_RST of 0xD7 resets warm; one that waited for the sensors to cool runs. PERST_N of
a host group going high passes to its slots and trains its VH. ISL_RESET and a change of TEST stop the island; its cells freed, it starts
again. (R58, R61, R63, R73, R75, R77, R185, R186, R323, R484, R557) -/
def Obligations.ResetsRun : Prop :=
  (∀ (s : State) (feed kind : Nat) (repairs : List Nat) (x : Dev), feed < 2 → s.dev.fd.rails = false →
    x = feedCharges feed s.dev → noPath x = false → kind = (if s.dev.fd.aon then 1 else 0) →
    answers (.coldStart feed repairs) s (x |> resetDev kind |> feedsShown x |> updFd (fun f => { f with rails := true, aon := true })
      |> wr Reg.PWR_PG 0 1 |> emit .pin [8, 1, 0] []
      |> forEach (List.range 9) (fun n d => wrI Reg.DEV_D2D_REPAIR 0 n (repairs.getD n 0) d) |> startUp (kind + 1) kind)) ∧
  (∀ (s : State) (mem addr : Nat) (d1 : Dev), rd Reg.DEV_WIPE_BUSY 0 s.dev = 1 → s.dev.boot.running = 1 →
    d1 = (s.dev |> wr Reg.DEV_WIPE_BUSY 0 0 |> wrFit Reg.DEV_WIPE_TIME 0 ((s.dev.th.localNs - s.dev.boot.wipeStart) / 1000)) →
    lcState s.dev ≠ 0 → lcState s.dev ≠ 4 → s.dev.boot.bankUp = true →
    answers (.memoryWipeComplete true mem addr) s (allSettled s.dev
      (d1 |> wr Reg.DEV_WIPE_DONE 0 1 |> loadTable true |> applyImage true |> structuresStart |> readyNow))) ∧
  (∀ (s : State) (v : Word), served 0x00 0 0x10C s.dev → bitsOf v.toNat 0 8 = 0xD7 → s.dev.boot.running = 0 → s.dev.boot.fault = 0 →
    answers (.warmRst v) s (warmNow 3 s.dev)) ∧
  (∀ (s : State), s.dev.boot.deferred = true → cooled s.dev = true → s.dev.boot.running = 0 → answers .deferredWarmReset s (warmNow 3 s.dev)) ∧
  (∀ (s : State) (h : Nat), h < 16 → bitOf (hostLvl 0 s.dev) h = false →
    answers (.upstreamPerstDeassert h) s (allSettled s.dev (s.dev
      |> setHostLvl 0 (setBit (hostLvl 0 s.dev) h)
      |> forEach ((List.range 32).filter (fun x => wireAt x 0 s.dev == h)) perstFollows
      |> (fun d => if ready d then uspTrain h d else d)))) ∧
  (∀ (s : State) (i : Nat), i < 18 → rd Reg.ISL_RST_BUSY i s.dev = 0 →
    (served 0x09 i 0x10C s.dev → answers (.islReset i) s (settleNet s.dev (islandStop i s.dev))) ∧
    (∀ test : Bool, served 0x09 i 0x100 s.dev → rd Reg.ISL_TEST i s.dev ≠ bnat test →
      answers (.islTestWrite i test) s (settleNet s.dev (s.dev |> wr Reg.ISL_TEST i (bnat test) |> islandReset i)))) ∧
  (∀ (s : State) (i : Nat), rd Reg.ISL_RST_BUSY i s.dev = 1 →
    answers (.islandResetDone i) s (settleNet s.dev (s.dev
      |> forEach (towardIsland i s.dev) (fun q d => d |> dropPkt q.id |> countReset i q)
      |> forEach (islandPorts i s.dev) schedReset |> wr Reg.ISL_RST_BUSY i 0 |> raise Ev.ISLAND_RESET_DONE i |> islandStart i)))

/-- A lane that detects signal wakes its island where it may, is past step 1, and lets the port go on once every awaited lane is; symbol lock
likewise at step 2, and its loss is counted. A valid marker at step 3 is recorded with its polarity, and the last one decides partner,
order and substitution. The end of qualification judges each lane, then the spare, for the position it was held for or for one that wants
it, and decides the width. A missed step counts on the lanes that missed it and restarts, as does the retry timer. (R103, R104, R105,
R106, R107, R108, R109, R110, R111, R142, R493) -/
def Obligations.LanesComeUp : Prop :=
  (∀ (s : State) (n p : Nat), bringupPort n s.dev = some p →
    (rd Reg.LANE_BSTATE n s.dev = 1 →
      answers (.laneSignalDetect n) s (settleNet s.dev (s.dev |> signalWake p |> wr Reg.LANE_BSTATE n 2 |> stepIf p 1 2
        |> (fun x => onlyIf ((portOf p s.dev).step == 1 && (portOf p x).step == 2) (updPort p (fun q => { q with began := x.th.localNs })) x)))) ∧
    (rd Reg.LANE_BSTATE n s.dev = 2 →
      answers (.laneSymbolLock n) s (settleNet s.dev (s.dev |> wr Reg.LANE_LOCKED n 1
        |> updLane n (fun l => { l with lost := false, misses := 0 }) |> wr Reg.LANE_BSTATE n 3 |> stepIf p 1 2 |> stepIf p 2 3))) ∧
    (rd Reg.LANE_LOCKED n s.dev = 1 →
      answers (.laneLockLoss n) s (settleNet s.dev (s.dev |> wr Reg.LANE_LOCKED n 0 |> bump Reg.LANE_LOCK_LOSS n
        |> updLane n (fun l => { l with lost := true, lostTime := rd Reg.LNK_LOCK_LOSS_TIME p s.dev })))) ∧
    (∀ raw m inv d1, decodeMarker raw = some (m, inv) → rd Reg.LANE_BSTATE n s.dev = 3 →
      d1 = (s.dev |> updLane n (fun l => { l with marker := some m }) |> wr Reg.LANE_POL_INV n (bnat inv)) →
      answers (.laneMarkerRx n raw) s (settleNet s.dev
        (if (portOf p d1).step = 3 ∧ (awaited p d1).all (fun x => (markerOf x d1).isSome) then decideMarkers p d1 else d1)))) ∧
  (∀ (s : State) (p : Nat) (res : List (Nat × Nat)) (pfail : List Nat) (spare : Option (Nat × Nat)) (d1 : Dev), (portOf p s.dev).step = 4 →
    d1 = (s.dev |> forEach (List.range (portWidth p s.dev)) (fun k d =>
      if rd Reg.LANE_SUBSTITUTED (portLane p k) d = 1 ∨ (laneOf (portLane p k) d).failed then d
      else qualLane p (portLane p k) (res.getD k (0, 0)).1 (res.getD k (0, 0)).2 (pfail.contains k) d)) →
    (∀ k, (List.range (portWidth p s.dev)).find? (fun k => rd Reg.LANE_SUBSTITUTED (portLane p k) s.dev == 1) = some k →
      answers (.qualificationEnd p res pfail spare) s (settleNet s.dev (d1
        |> judgeHeld p (portLane p k % 9) spare (pfail.contains (portWidth p d1)) |> widthDecision p))) ∧
    ((∀ k < portWidth p s.dev, rd Reg.LANE_SUBSTITUTED (portLane p k) s.dev ≠ 1) →
      answers (.qualificationEnd p res pfail spare) s (settleNet s.dev (d1
        |> substitute p spare (pfail.contains (portWidth p d1)) |> widthDecision p)))) ∧
  (∀ (s : State) (p : Nat) (lanes : List Nat), (portOf p s.dev).step = 2 →
    answers (.bringupStepTimeout p 2 lanes) s (settleNet s.dev (s.dev
      |> forEach ((awaited p s.dev).filter (fun n => rd Reg.LANE_LOCKED n s.dev == 0)) (missLane 2) |> startBringup p))) ∧
  (∀ (s : State) (p : Nat), (portOf p s.dev).retry = 2 →
    answers (.bringupRetryTimer p) s (settleNet s.dev (s.dev
      |> forEach (portLanes p s.dev ++ [spareLane (p / 8)]) (fun n => updLane n (fun l => { l with failed := false, misses := 0 }))
      |> startBringup p)))

/-- A millisecond of a lane counts its errors and, where the background trim runs, judges the last step and takes the next (which one, the
spec leaves free); a lost checker adds its counts, raises PRBS_LOST and locks again; INJ_ONE sends an error. START of an eye scan at UP
clears the results and runs, ABORT ends it with a free number of points, its completion stores the grid and raises EYE_DONE. SPARE_REQ of
an SFL lane, the spare free and SPARE_REL not written with it, and SPARE_REL are remembered for the next bring-up. (R101, R110, R112,
R115, R116, R117, R119) -/
def Obligations.LanesAreTrimmedAndTested : Prop :=
  (∀ (s : State) (n errs cw eye : Nat) (d1 : Dev), d1 = (s.dev |> addI Reg.LANE_FEC_SYM_ERR n 0 errs |> countCorr n cw) →
    answers (.trimTick n errs cw eye) s (settleNet s.dev (if trimRuns n s.dev
      then d1 |> trimJudge n errs eye |> trimMove n |> updLane n (fun l => { l with trimErr := errs, trimEye := eye })
      else d1))) ∧
  (∀ (s : State) (n errs bits e b : Nat), rd Reg.LANE_CHK_EN n s.dev = 1 →
    e = min (rd2 Reg.LANE_PRBS_ERR_LO Reg.LANE_PRBS_ERR_HI n 0 s.dev + errs) (2 ^ 48 - 1) →
    b = min (rd2 Reg.LANE_PRBS_BITS_LO Reg.LANE_PRBS_BITS_HI n 0 s.dev + bits) (2 ^ 48 - 1) →
    answers (.prbsLost n errs bits) s (settleNet s.dev (s.dev
      |> wr2 Reg.LANE_PRBS_ERR_LO Reg.LANE_PRBS_ERR_HI n 0 e |> wr2 Reg.LANE_PRBS_BITS_LO Reg.LANE_PRBS_BITS_HI n 0 b
      |> onlyIf (e == 2 ^ 48 - 1 || b == 2 ^ 48 - 1) (wr Reg.LANE_CHK_SAT n 1)
      |> raise Ev.PRBS_LOST n |> wr Reg.LANE_CHK_LOCK n 1))) ∧
  (∀ (s : State) (n : Nat), served 8 n 0x144 s.dev → answers (.injOne n) s (settleNet s.dev (emit .laneTx [n, 3] [] s.dev))) ∧
  (∀ (s : State) (n : Nat), served 8 n 0x160 s.dev → rd Reg.LANE_BSTATE n s.dev = 7 →
    answers (.eyeStart n) s (settleNet s.dev (s.dev |> updLane n (fun l => { l with eye := [] }) |> wr Reg.LANE_EYE_POINTS n 0
      |> wr Reg.LANE_EYE_BUSY n 1 |> wr Reg.LANE_EYE_DONE n 0 |> wr Reg.LANE_EYE_ABORTED n 0)) ∧
    (rd Reg.LANE_EYE_BUSY n s.dev = 1 → answers (.eyeAbort n) s (settleNet s.dev (takeFree s.dev
      |> eyeStore n (free 13 s.dev % (gridPoints n s.dev + 1)) (fun i => freePoint i (takeFree s.dev)) |> takeFree
      |> wr Reg.LANE_EYE_BUSY n 0 |> wr Reg.LANE_EYE_ABORTED n 1 |> wr Reg.LANE_EYE_DONE n 1 |> raise Ev.EYE_DONE n)))) ∧
  (∀ (s : State) (n np : Nat) (errs : List Nat) (d1 : Dev), rd Reg.LANE_EYE_BUSY n s.dev = 1 → gridSide (rd Reg.LANE_PH_STEP n s.dev) = np →
    errs.length = np * gridSide (rd Reg.LANE_V_STEP n s.dev) →
    d1 = updLane n (fun l => { l with eye := (List.range errs.length).map (fun i =>
      (i / np * 2 ^ rd Reg.LANE_V_STEP n s.dev * 64 + i % np * 2 ^ rd Reg.LANE_PH_STEP n s.dev,
        some (min (errs.getD i 0) (2 ^ 31 - 1)))) }) s.dev →
    answers (.eyeScanDone n errs) s (settleNet s.dev (d1 |> wrFit Reg.LANE_EYE_POINTS n errs.length |> takeFree
      |> wr Reg.LANE_EYE_BUSY n 0 |> wr Reg.LANE_EYE_DONE n 1 |> raise Ev.EYE_DONE n))) ∧
  (∀ (s : State) (n : Nat), served 8 n 0x170 s.dev →
    answers (.spareRel n) s (settleNet s.dev (updLane n (fun l => { l with rel := true, req := false }) s.dev)) ∧
    (pers (n / 9) s.dev = 2 → heldPos (n / 9) s.dev = none → rd Reg.LANE_SPARE_VALID (spareLane (n / 9)) s.dev = 0 → n % 9 < 8 →
      (trigWord 8 n 0x170 0 s.dev).getLsbD 1 = false → answers (.spareReq n) s (settleNet s.dev (updLane n (fun l => { l with req := true }) s.dev))))

/-- On a port that is UP: a data flit in sequence is accepted, an old one is dropped, one ahead of sequence leads to a NAK, a failed check and
an uncorrectable codeword are counted and lead to a NAK, and codewords whose counts disagree are all lost; STATUS frees copies and gives
credit; NAK also starts a resend pass; RESET takes the port down; a reserved link flit is counted and raised. During INIT, an INIT of the
port's LEVEL gives the initial credits and may bring the port UP. (R121, R127, R128, R132, R134, R135, R136, R137, R138, R141, R142, R144) -/
def Obligations.LinkFlitsTaken : Prop :=
  (∀ (s : State) (p : Nat), portUp p s.dev = true →
    (∀ b0 b1 b2 b3 body check vl head tail poison seq bytes,
      decodeFlit (flitLevel p s.dev) (b0 :: b1 :: b2 :: b3 :: (body ++ check)) = some (.data vl head tail poison seq bytes) →
      (seq = rd Reg.LNK_RX_SEQ p s.dev → answers (.dataFlitRx p b0 b1 b2 b3 body check) s (settleNet s.dev (rxAccept p vl head tail poison bytes s.dev))) ∧
      (seq ≠ rd Reg.LNK_RX_SEQ p s.dev → (rd Reg.LNK_RX_SEQ p s.dev + 16384 - seq) % 16384 ≤ 8192 →
        answers (.dataFlitRx p b0 b1 b2 b3 body check) s (settleNet s.dev s.dev)) ∧
      (8192 < (rd Reg.LNK_RX_SEQ p s.dev + 16384 - seq) % 16384 →
        answers (.dataFlitRx p b0 b1 b2 b3 body check) s (settleNet s.dev (nakFor p 1 s.dev)))) ∧
    (∀ b0 b1 b2 b3 body check, decodeFlit (flitLevel p s.dev) (b0 :: b1 :: b2 :: b3 :: (body ++ check)) = none →
      answers (.dataFlitRx p b0 b1 b2 b3 body check) s (settleNet s.dev (s.dev |> bump Reg.LNK_CRC_ERR p |> nakFor p 0))) ∧
    answers (.flitCheckFail p true) s (settleNet s.dev (s.dev |> bump Reg.LNK_CRC_ERR p |> nakFor p 0)) ∧
    (∀ cnts errors blocks, pers (p / 8) s.dev = 2 →
      (countsDisagree cnts = false → rsFails errors blocks = true → answers (.rsUncorrectable ⟨p, cnts, errors, blocks⟩) s (settleNet s.dev (s.dev
        |> bump Reg.LNK_FEC_UNCORR p |> nakFor p 2 |> countUncorr p))) ∧
      (countsDisagree cnts = true → answers (.rsUncorrectable ⟨p, cnts, errors, blocks⟩) s (settleNet s.dev
        (forEach cnts (fun _ => codewordLost p) s.dev)))) ∧
    (∀ h b c f body, decodeFlit (flitLevel p s.dev) (h ++ b ++ c) = some (.link 1 f body) →
      answers (.statusRx p h b c) s (settleNet s.dev (s.dev |> takeCredits p (unpackCredits body)
        |> onlyIf (bitOf f 12) (ackThrough p (bitsOf f 13 14))))) ∧
    (∀ h c f body, decodeFlit (flitLevel p s.dev) (h ++ c) = some (.link 2 f body) →
      answers (.nakRx p h c) s (settleNet s.dev (s.dev |> bump Reg.LNK_NAK_RX p |> takeCredits p (unpackCredits body)
        |> ackThrough p ((bitsOf f 13 14 + 16383) % 16384) |> startPass p))) ∧
    (∀ bs f body, decodeFlit (flitLevel p s.dev) bs = some (.link 4 f body) →
      answers (.resetRx ⟨p, bs⟩) s (settleNet s.dev (declareDown p 3 s.dev))) ∧
    (∀ bs ty f body, decodeFlit (flitLevel p s.dev) bs = some (.link ty f body) → 7 ≤ ty → answers (.linkFlitReservedRx p bs) s
      (settleNet s.dev (s.dev |> bump Reg.LNK_PROTO_ERR_CNT p |> raise Ev.PROTO_ERR p)))) ∧
  (∀ (s : State) (p f : Nat) (h c sn r body : List Byte), rd Reg.LNK_LSTATE p s.dev = 2 →
    decodeFlit (flitLevel p s.dev) (h ++ c ++ sn ++ r) = some (.link 3 f body) → bitsOf f 24 3 = (if sflRate p s.dev = 1 then 1 else 2) →
    answers (.initRx p h c sn r) s (settleNet s.dev (s.dev
      |> updPort p (fun q => { q with
          initial := (List.range 16).foldl (fun m v => smPut m v ((unpackCredits body).getD v 0 % 4096)) []
          initRx := true, rxOk := true, peerOk := q.peerOk || bitOf f 23 })
      |> wr Reg.LNK_PARTNER_ID p (ofBe ((body.drop 24).take 8) % 65536) |> tryUp p)))

/-- On a port that is UP: STATUS goes out when due, an open NAK is repeated, a replay timeout starts a resend pass, and the port is declared
down by a lane out of lock, by silence under lock, or by any cause of R142, with the steps of R143. In INIT the INIT flit is repeated and
its timeout ends the attempt. Electrical idle over, bring-up restarts on an enabled port. (R132, R136, R137, R138, R141, R142, R143) -/
def Obligations.LinkTimersAct : Prop :=
  (∀ (s : State) (p : Nat), portUp p s.dev = true →
    answers (.statusSend p) s (settleNet s.dev (sendStatus p s.dev)) ∧
    (∀ e, (portOf p s.dev).nak = some e → answers (.nakRepeat p) s (settleNet s.dev (emitNak p (e / 16384) s.dev))) ∧
    (0 < outstanding p s.dev → answers (.replayTimeout p) s (settleNet s.dev (startPass p s.dev))) ∧
    (∀ n, portOfLane n s.dev = some p → (laneOf n s.dev).lost = true → answers (.lockLossTimeout n) s (settleNet s.dev (declareDown p 1 s.dev))) ∧
    ((∀ n ∈ portLanes p s.dev, (laneOf (carrier n s.dev) s.dev).lost = false) →
      answers (.silentTimeout p) s (settleNet s.dev (declareDown p 10 s.dev))) ∧
    (∀ cause, answers (.linkDown p cause) s (settleNet s.dev (s.dev |> wr Reg.LNK_LSTATE p 4 |> abandon p |> discardLink p
      |> wr Reg.LNK_DOWN_CAUSE p cause |> bump Reg.LNK_DOWN_CNT p |> wr Reg.LNK_WIDTH p 0 |> fastReroute p |> raise Ev.LINK_DOWN p
      |> sendLink p 4 (cause * 2 ^ 19) [] [cause] |> emit .portTx [p, 0] [] |> lanesOff p)))) ∧
  (∀ (s : State) (p : Nat), rd Reg.LNK_LSTATE p s.dev = 2 →
    answers (.initRepeat p) s (settleNet s.dev (s.dev |> sendInit p |> tryUp p)) ∧
    answers (.initTimeout p) s (settleNet s.dev (s.dev |> wr Reg.LNK_DOWN_CAUSE p 9 |> raise Ev.INIT_FAIL p |> startBringup p))) ∧
  (∀ (s : State) (p : Nat) (d1 : Dev), (portOf p s.dev).idle = true → d1 = updPort p (fun q => { q with idle := false }) s.dev →
    answers (.linkResetIdleEnd p) s (settleNet s.dev
      (if mayRun p d1 ∧ rd Reg.ISL_TEST (p / 8) d1 = 0 then d1 |> lanesAfresh p |> startBringup p else wr Reg.LNK_LSTATE p 0 d1)))

/-- On an SFL port: LRESET takes an UP port down; EN = 1 the harbour can hold enables it and starts bring-up from DISABLED, EN = 0 disables
it; WAKE_SEND on a port that is down sends the pattern, and one seen by the detector raises WAKE_RX and wakes the island. A port that is
UP sends its weather report, stores the partner's as its latest, and announces once that it is stale. (R133, R142, R144, R145, R150, R235,
R236, R493) -/
def Obligations.LinkCommandsAndWeather : Prop :=
  (∀ (s : State) (p : Nat), served 0x0A p 0x104 s.dev → pers (p / 8) s.dev = 2 →
    (rd Reg.LNK_LSTATE p s.dev = 3 → answers (.lreset p) s (settleNet s.dev (declareDown p 4 s.dev))) ∧
    (portUp p s.dev = false → answers (.wakeSend p) s (settleNet s.dev (emit .portTx [p, 1] [] s.dev))) ∧
    (rd Reg.LNK_EN p s.dev = 0 → harbourFits (wr Reg.LNK_EN p 1 s.dev) = true →
      answers (.portEnableWrite p 1) s (settleNet s.dev (s.dev |> wr Reg.LNK_EN p 1 |> sharedLowAlarm (sharedFree s.dev)
        |> onlyIf (rd Reg.LNK_LSTATE p s.dev == 0 && rd Reg.ISL_TEST (p / 8) s.dev == 0) (startBringup p)))) ∧
    (rd Reg.LNK_EN p s.dev = 1 → answers (.portEnableWrite p 0) s (settleNet s.dev (s.dev |> wr Reg.LNK_EN p 0 |> disablePort p)))) ∧
  (∀ (s : State) (p : Nat), portStarts p s.dev = true → pers (p / 8) s.dev = 2 → rd Reg.LNK_WAKE_DET p s.dev = 1 → portUp p s.dev = false →
    answers (.wakePatternDetect p) s (settleNet s.dev (s.dev |> raise Ev.WAKE_RX p |> wakeDom (p / 8) 1))) ∧
  (∀ (s : State) (p : Nat), portUp p s.dev = true →
    (∀ room lid low wx, pers (p / 8) s.dev = 2 → room = (max (sharedFree s.dev) 0).toNat → lid = rd Reg.RTE_MY_LID (p / 8) s.dev →
      low = bnat (decide (room < rd Reg.HBR_SHARED_LOW 0 s.dev)) → wx = (List.range 16).map (fun g => weatherWord g s.dev) →
      answers (.weatherSend p) s (settleNet s.dev (s.dev
        |> sendLink p 5 0 (beBytes 3 (lid * 16 + (portOf p s.dev).wxSeq) ++ beBytes 1 low ++ wx.flatMap (beBytes 2) ++ beBytes 4 room)
            ([lid, (portOf p s.dev).wxSeq, low] ++ wx ++ [room])
        |> updPort p (fun r => { r with wxSeq := (r.wxSeq + 1) % 16 })))) ∧
    (∀ bs f body, decodeFlit (flitLevel p s.dev) bs = some (.link 5 f body) → answers (.weatherRx p bs) s (settleNet s.dev (s.dev
      |> updPort p (fun q => { q with wx := some (weatherOf body), wxTime := s.dev.th.localNs, wxStale := false })
      |> bump Reg.RTE_WX_RX (p / 8)))) ∧
    ((portOf p s.dev).wxStale = false → answers (.wxStale p) s (settleNet s.dev (s.dev
      |> updPort p (fun q => { q with wxStale := true }) |> raise Ev.WX_STALE (p / 8)))))

/-- A strait in service matches in three iterations and offers the oldest descriptors. A descriptor in SSEQ order is queued and acknowledged;
one ahead is held, up to 32. A gap open too long ends the missing packets and releases what is held. A failed strait is out of service,
what it held is offered again and its unacknowledged accesses are reissued; STR_EN 0 removes a strait that is not the last, and 1 again
starts its self-test, whose end, where it does not drain, decides its state. A drained strait or segment reads so. An uncorrectable cell
ends its packet. A waiting copy goes into its ring, after a pad record where it would cross the end, and over the oldest records where the
ring wraps; a full ring drops it. (R158, R160, R161, R165, R166, R167, R170, R182, R183, R185) -/
def Obligations.StraitsAndHarbourAct : Prop :=
  (∀ (s : State) (k : Nat), k < 6 → straitUp k s.dev = true →
    answers (.straitMatch k) s (settleNet s.dev (s.dev |> ackAccesses k |> forEach (matchStrait k s.dev) (fun m d => d |> offer k m.1 m.2.1 m.2.2.1
      |> onlyIf (m.2.2.2 == 1) (fun d => { d with net := { d.net with
          gptr := smPut d.net.gptr ((k * 20 + m.2.1) * 2 + m.2.2.1) ((m.1 + 1) % 20)
          aptr := smPut d.net.aptr ((k * 20 + m.1) * 2 + m.2.2.1) ((m.2.1 + 1) % 20) } })
      |> onlyIf (m.2.2.2 == 2) (bump Reg.STR_MATCH_IT2 k) |> onlyIf (m.2.2.2 == 3) (bump Reg.STR_MATCH_IT3 k))))) ∧
  (∀ (s : State) (k i e q : Nat) (f : Flight), flightOf k i e q s.dev = some f →
    (q = sseqNext i e s.dev → q < 4096 → answers (.descriptorRx k i e q) s (settleNet s.dev
      (s.dev |> ackDesc k i e q |> bump Reg.STR_DESC_MOVED k |> takeDesc f.desc |> releaseBehind i e 32))) ∧
    (0 < (q + 4096 - sseqNext i e s.dev) % 4096 → (q + 4096 - sseqNext i e s.dev) % 4096 < 2048 → heldBehind i e s.dev < 32 →
      ∀ d1, d1 = updNet (fun n => { n with behind := n.behind ++ [f.desc] }) (s.dev |> ackDesc k i e q |> bump Reg.STR_DESC_MOVED k) →
      answers (.descriptorRx k i e q) s (settleNet s.dev
        (wr Reg.ISL_REORDER_HWM e (max (rd Reg.ISL_REORDER_HWM e d1) (heldBehind i e d1)) d1)))) ∧
  (∀ (s : State) (i e n : Nat), heldAhead i e s.dev = some n →
    answers (.reorderStall i e) s (settleNet s.dev (s.dev
      |> updNet (fun x => { x with
          sseqRx := smPut x.sseqRx (i * 20 + e) ((sseqNext i e s.dev + n) % 4096)
          waiting := x.waiting.filter (fun y => !missingDesc i e n s.dev y)
          flights := x.flights.filter (fun f => !missingDesc i e n s.dev f.desc) })
      |> forEach ((s.dev.net.flights.filter (fun f => missingDesc i e n s.dev f.desc)).map (fun f => f.desc.pkt)
          ++ (s.dev.net.waiting.filter (missingDesc i e n s.dev)).map (fun y => y.pkt)) failPkt
      |> releaseBehind i e 32 |> raise Ev.REORDER_STALL e))) ∧
  (∀ (s : State) (k cause isl : Nat) (data : Bool), k < 6 → rd Reg.STR_STATE k s.dev < 2 → domState (18 + k) s.dev ≠ 2 →
    answers (.straitFaultDetect k cause isl data) s (settleNet s.dev (s.dev
      |> wr Reg.STR_STATE k 3 |> wr Reg.STR_FAIL_CAUSE k (faultCause cause data) |> wr Reg.STR_FAIL_ISLAND k isl |> reoffer k |> ackAccesses k
      |> forEach (s.dev.net.staged.filter (fun a => a.strait == k)) reissue |> raise Ev.STRAIT_FAILED k |> drainDone (18 + k)))) ∧
  (∀ (s : State) (k : Nat), served 0x0C k 0x100 s.dev →
    (rd Reg.STR_EN k s.dev = 1 → straitUp k s.dev = true → straitsUp s.dev ≠ 1 →
      answers (.strEnWrite k 0) s (settleNet s.dev (s.dev |> wr Reg.STR_EN k 0
        |> onlyIf (rd Reg.STR_STATE k s.dev == 0) (wr Reg.STR_STATE k 1)
        |> updNet (fun n => { n with selfTest := clrBit n.selfTest k })))) ∧
    (rd Reg.STR_EN k s.dev = 0 → answers (.strEnWrite k 1) s (settleNet s.dev
      (s.dev |> updNet (fun n => { n with selfTest := setBit n.selfTest k }) |> wr Reg.STR_EN k 1)))) ∧
  (∀ (s : State) (k : Nat), rd Reg.STR_STATE k s.dev = 1 → (s.dev.net.flights.all fun f => f.strait != k) = true →
    answers (.straitDrainDone k) s (settleNet s.dev (s.dev |> ackAccesses k |> wr Reg.STR_STATE k 2 |> drainDone (18 + k)))) ∧
  (∀ (s : State) (k : Nat), bitOf s.dev.net.selfTest k = true →
    (rd Reg.STR_STATE k s.dev ≠ 1 →
      answers (.straitSelftestDone k true) s (settleNet s.dev (s.dev |> updNet (fun n => { n with selfTest := clrBit n.selfTest k })
        |> wr Reg.STR_STATE k 0 |> wr Reg.STR_FAIL_CAUSE k 0 |> wr Reg.STR_FAIL_ISLAND k 0
        |> onlyIf (rd Reg.STR_STATE k s.dev != 0) (raise Ev.STRAIT_IN_SERVICE k)))) ∧
    answers (.straitSelftestDone k false) s (settleNet s.dev (s.dev |> updNet (fun n => { n with selfTest := clrBit n.selfTest k })
      |> wr Reg.STR_STATE k 3 |> wr Reg.STR_FAIL_CAUSE k 5 |> straitLost k |> raise Ev.STRAIT_SELFTEST_FAIL k |> drainDone (18 + k)))) ∧
  (∀ (s : State) (g cell id : Nat) (q : Packet), pktOf id s.dev = some q →
    answers (.harbourUncorrRead g cell id) s (settleNet s.dev (s.dev |> bump Reg.HBR_ECC_UNCORR g |> bump Reg.LOG_SRAM_UNCORR 0
      |> raiseDet Ev.HBR_ECC_UNCORR g (BitVec.ofNat 32 g) (BitVec.ofNat 32 cell) |> bump Reg.ISL_ECC_END (egIsland q.eg) |> failPkt id))) ∧
  (∀ (s : State) (g : Nat), rd Reg.HBR_SEG_STATE g s.dev = 1 → segHeld g s.dev = 0 →
    answers (.segmentDrainDone g) s (settleNet s.dev (s.dev |> wr Reg.HBR_SEG_STATE g 2 |> drainDone (24 + g)))) ∧
  (∀ (s : State) (k n prod pad need : Nat) (c : MirCopy) (rec_ : List Byte) (d d0 d1 : Dev),
    s.dev.net.copies.find? (fun c => c.session == k) = some c → smGet (fun _ => 0) s.dev.net.records k = n → n < 65536 →
    rdI Reg.MIR_PROD 0 k (memDone (2, k, c.time.ns) s.dev) = prod → rec_ = mirrorRecord c n → pad = (if c.size < prod + rec_.length then c.size - prod else 0) →
    need = pad + rec_.length → 
    d = memDone (2, k, c.time.ns) s.dev → d0 = releaseKept c.src (updNet (fun x => { x with copies := x.copies.erase c }) d) →
    d1 = (if c.wrap then makeRoom k c.base c.size need 67108864 d0 else d0) →
    (ringUsed k c.size d1 + need < c.size → ∀ d2, d2 = updNet (fun x => { x with records := smPut x.records k ((n + 1) % 65536) }) d1 →
      (pad = 0 → answers (.mirrorRecordWrite k) s (settleNet s.dev (d2 |> memWrites (c.base + prod) rec_
        |> wrI Reg.MIR_PROD 0 k ((prod + rec_.length) % c.size)))) ∧
      (0 < pad → answers (.mirrorRecordWrite k) s (settleNet s.dev (d2 |> memWrites (c.base + prod) (padRecord c pad d)
        |> memWrites (c.base + 0) rec_ |> wrI Reg.MIR_PROD 0 k ((0 + rec_.length) % c.size))))) ∧
    (c.size ≤ ringUsed k c.size d1 + need →
      answers (.mirrorRecordWrite k) s (settleNet s.dev (d1 |> raise Ev.MIR_RING_FULL 0 |> dropCopy k))))

/-- A head that waited ESC_WAIT on the normal sub-channel of VC1, VC2 or VC4 is counted, takes ESCL and is routed again. A packet held for
ROUTE_HOLD is unroutable; a port rejoins and held packets look again; a stuck lane is raised. SWAP turns EPOCH on every island. TBL_READ
puts the indexed entry into TBL_DATA; TBL_WRITE puts TBL_DATA into a table, of the inactive set for tables 0 to 2, with reserved bits
zero; it is refused for table 3, and for tables 0 to 2 while a swap is pending. (R222, R224, R225, R237, R245, R247, R248, R250, R252,
R253, R254) -/
def Obligations.RoutingActs : Prop :=
  (∀ (s : State) (id : Nat) (q : Packet), pktOf id s.dev = some q → q.begun = false → q.eg < 144 → hget .ESCL q.hdr = 0 → q.bare = false →
    (q.vlane / 2 = 1 ∨ q.vlane / 2 = 2 ∨ q.vlane / 2 = 4) →
    answers (.escWaitTimeout id) s (settleNet s.dev (s.dev |> bump Reg.RTE_ESC_ENTRY (inIsland q.inPort)
      |> updPkt id (fun r => { r with hdr := hput .ESCL 1 r.hdr }) |> moveRoute id))) ∧
  (∀ (s : State) (id : Nat) (q : Packet), pktOf id s.dev = some q → q.held.isSome = true →
    answers (.routeHoldExpire id) s (settleNet s.dev (unroutable id (inIsland q.inPort) s.dev))) ∧
  (∀ (s : State) (p : Nat), portUp p s.dev = true →
    ((portOf p s.dev).rejoin = true → answers (.portRejoin p) s (settleNet s.dev
      (s.dev |> updPort p (fun q => { q with rejoin := false }) |> setPortUp p true |> retryHeld))) ∧
    (∀ v, credAvail p v s.dev = 0 → (s.dev.net.pkts.any fun q => q.eg == p && q.vlane == v && decide (0 < q.queued)) = true →
      answers (.stuckLane p v) s (settleNet s.dev (raiseDet Ev.STUCK_LANE (p / 8) (BitVec.ofNat 32 (p + 256 * v)) 0 s.dev)))) ∧
  (∀ (s : State) (i : Nat), served 0x10 i 0x154 s.dev →
    answers (.swap i) s (settleNet s.dev (s.dev
      |> forEach (List.range 20) (fun j d => wr Reg.RTE_EPOCH j (1 - rd Reg.RTE_EPOCH 0 s.dev) d)
      |> updNet (fun n => { n with layer2 := false, flowlets := n.flowlets.map (fun f => (f.1, { f.2 with since := false })) })
      |> forEach (List.range 20) (raise Ev.EPOCH_SWAPPED)))) ∧
  (∀ (s : State) (i sel idx : Nat), served 0x10 i 0x178 s.dev → rd Reg.RTE_TBL_SEL i s.dev = sel → rd Reg.RTE_TBL_IDX i s.dev = idx →
    idx < tblSize sel → (sel = 5 → i < 18) →
    (answers (.tblRead i) s (settleNet s.dev (s.dev
      |> forEach (List.range 5) (fun w => wrI Reg.RTE_TBL_DATA i w (bitsOf (tblEntry i s.dev) (32 * w) 32))))) ∧
    (sel = 3 → answers (.tblWrite i) s (settleNet s.dev (cfgErr 0x10 i 0x178 Cfg.CFG_RTE_RANGE (trigWord 0x10 i 0x178 1 s.dev) s.dev))) ∧
    (sel < 3 → rd Reg.RTE_SWAP_PEND i s.dev = 1 →
      answers (.tblWrite i) s (settleNet s.dev (cfgErr 0x10 i 0x178 Cfg.CFG_RTE_ACTIVE (trigWord 0x10 i 0x178 1 s.dev) s.dev))) ∧
    (sel < 3 → rd Reg.RTE_SWAP_PEND i s.dev ≠ 1 →
      answers (.tblWrite i) s (settleNet s.dev
        (tblPut i sel (1 - epoch i s.dev) idx (tblData i s.dev % 2 ^ (32 * tblWords sel) &&& tblMask sel) s.dev))) ∧
    (3 < sel → answers (.tblWrite i) s (settleNet s.dev
      (tblPut i (sel - 1) 0 idx (tblData i s.dev % 2 ^ (32 * tblWords sel) &&& tblMask sel) s.dev))))

/-- A decision finishes what an ETH or EXP port had on the wire, then serves the eligible queue that R194 chooses: its tags, V and shapers are
charged with the unit, and the unit leaves by the port's personality; with none eligible an SFL port at UP sends an idle flit. Due entries
of the wheel are looked at again. A gate boundary takes a due switch of lists and opens the gates; SWITCH of a good list becomes pending
at the next cycle. READ copies a meter entry into the data words, WRITE takes good data words with full buckets, READ_CLR also clears its
counters. (R193, R194, R195, R196, R199, R202, R204, R207, R208, R214) -/
def Obligations.SchedulersAct : Prop :=
  (∀ (s : State) (p : Nat) (d0 d1 : Dev), d0 = wireDone p s.dev → d1 = updSched p (fun x => { x with
      tags := eligibleTags p d0, elig := (eligibleOf p d0).foldl (fun m e => setBit m e.1) 0 }) (noteWaits p d0) →
    (chooseQueue p (eligibleOf p d0) d1 = none → pers (p / 8) d0 = 2 → portUp p d0 = true →
      answers (.scheduleDecision p) s (settleNet s.dev (sendLink p 0 0 [] [] d1))) ∧
    (∀ q k l sq w d2, chooseQueue p (eligibleOf p d0) d1 = some (q, k) → l = unitCharge p k d1 →
      sq = smGet (fun _ => 0) (eligibleTags p d0) q → w = max (rdI Reg.SCH_WEIGHT p q d1) 1 →
      d2 = (d1 |> onlyIf (decide (3 ≤ q)) (fun d => d
          |> updSched p (fun x => { x with v := sq, tags := smPut x.tags q ((sq + (l * 256 + w - 1) / w) % 2 ^ 48) })
          |> wr2 Reg.SCH_VTIME_LO Reg.SCH_VTIME_HI p 0 sq)
        |> chargeShaper p q l |> onlyIf (q != 0) (chargeShaper p 19 l)) →
      (pers (p / 8) d0 = 2 → answers (.scheduleDecision p) s (settleNet s.dev (sendFlit p q k d2))) ∧
      (pers (p / 8) d0 = 3 → answers (.scheduleDecision p) s (settleNet s.dev (sendFrame p q k d2))) ∧
      (pers (p / 8) d0 = 1 → answers (.scheduleDecision p) s (settleNet s.dev (sendTlp p q k d2))))) ∧
  (∀ (s : State) (i : Nat), answers (.wheelSlotDue i) s (settleNet s.dev
    (forEach (List.range 8) (fun j => forEach (List.range 20) (wheelDue (8 * i + j))) s.dev))) ∧
  (∀ (s : State) (p : Nat), gatesOn p s.dev = true →
    (rd Reg.SCH_SWITCH_PEND p s.dev = 1 → timeValid s.dev = true → (schedOf p s.dev).switchAt ≤ fabricNs s.dev →
      answers (.gateTransition p) s (settleNet s.dev (s.dev |> wr Reg.SCH_ACTIVE_LIST p (1 - rd Reg.SCH_ACTIVE_LIST p s.dev)
        |> updSched p (fun x => { x with startAt := x.switchAt }) |> wr Reg.SCH_SWITCH_PEND p 0 |> raise Ev.GATE_SWITCHED p |> gateRefresh p))) ∧
    (rd Reg.SCH_SWITCH_PEND p s.dev = 0 →
      answers (.gateTransition p) s (settleNet s.dev (gateRefresh p s.dev)) ∧
      (served 0x0E p 0x280 s.dev → gateListOk p (1 - rd Reg.SCH_ACTIVE_LIST p s.dev) s.dev = true →
        answers (.gateSwitchRequest p) s (settleNet s.dev (s.dev |> wr Reg.SCH_SWITCH_PEND p 1
          |> (fun d => updSched p (fun x => { x with switchAt := switchTime p s.dev }) d)))))) ∧
  (∀ (s : State) (b m : Nat) (x : Meter) (d1 : Dev), served 0x0F b 0x104 s.dev → m = 4096 * b + rd Reg.MTR_IDX b s.dev → meterOf m s.dev = x →
    d1 = (s.dev |> setWord (regAddr 0x0F b 0x110) (BitVec.ofNat 32 (x.w0 % 2 ^ 28)) |> wr Reg.MTR_PIR b x.pir
      |> wr Reg.MTR_CBS b x.cbs |> wr Reg.MTR_PBS b x.pbs |> wr Reg.MTR_GREEN_PKTS b x.green
      |> wr Reg.MTR_YELLOW_PKTS b x.yellow |> wr Reg.MTR_RED_PKTS b x.red |> wr Reg.MTR_DROP_PKTS b x.drop) →
    answers (.mtrRead b) s (settleNet s.dev d1) ∧
    answers (.mtrReadClr b) s (settleNet s.dev (putMeter m { x with green := 0, yellow := 0, red := 0, drop := 0 } d1)) ∧
    (mtrOk b s.dev = true → answers (.mtrWrite b) s (settleNet s.dev (putMeter m { x with
      w0 := (wordAt (regAddr 0x0F b 0x110) s.dev).toNat % 2 ^ 28, pir := rd Reg.MTR_PIR b s.dev, cbs := rd Reg.MTR_CBS b s.dev
      pbs := rd Reg.MTR_PBS b s.dev, tc := rd Reg.MTR_CBS b s.dev * 8000, tp := rd Reg.MTR_PBS b s.dev * 8000, tAt := s.dev.th.localNs } s.dev))))

/-- On a page served, with LOCK 0 and no commit running: a write of PG_CTRL gives ENABLE; LOCK is set; DISCARD copies the values in force to
the staged set; COMMIT with nothing staged completes, with a good set waits for its boundary and with a bad set is refused. At the
boundary the set goes into force, COMMIT_SEQ advances, COMMIT_DONE rises, and domain entries that waited for it start. SOFT_RST with
ENABLE 0 and the domain ON returns the block to its Warm values, and its end raises RESET_DONE. Injected events rise. BEHAVIOUR_LEVEL from
1 to BL_MAX is taken while BL_LOCK_OK is 1. (R5, R37, R38, R44, R46, R47, R49, R86) -/
def Obligations.PagesAreControlled : Prop :=
  (∀ (s : State) (ty inst : Nat) (en : Bool) (d1 : Dev), served ty inst 8 s.dev → hrd Reg.PG_CTRL_LOCK ty inst s.dev = 0 →
    commitBusy ty inst s.dev = false → d1 = hwr Reg.PG_CTRL_ENABLE ty inst (bnat en) s.dev →
    answers (.pgEnableWrite ty inst en) s (allSettled s.dev d1) ∧
    answers (.pgLock ty inst en) s (allSettled s.dev (hwr Reg.PG_CTRL_LOCK ty inst 1 d1)) ∧
    answers (.pgDiscard ty inst en) s (allSettled s.dev { stagedOut ty inst d1 with mg := { d1.mg with touched := untouched ty inst d1 } }) ∧
    (hasStaged ty inst d1 = false → answers (.pgCommit ty inst en) s (allSettled s.dev (commitDone ty inst d1))) ∧
    (hasStaged ty inst d1 = true → commitErr ty inst d1 = 0 →
      answers (.pgCommit ty inst en) s (allSettled s.dev { d1 with mg := { d1.mg with commits := d1.mg.commits ++ [(ty, inst)] } })) ∧
    (hasStaged ty inst d1 = true → commitErr ty inst d1 ≠ 0 → answers (.pgCommit ty inst en) s (allSettled s.dev (d1
      |> hwr Reg.PG_STAT_COMMIT_REFUSED ty inst 1
      |> cfgErr ty inst 8 (commitErr ty inst d1) (BitVec.ofNat 32 (4 + bnat en))))) ∧
    (en = false → domOn (domainOf ty inst) s.dev = true → domOn (domainOf ty inst) d1 = true → inSoftReset ty inst s.dev = false → hrd Reg.PG_CTRL_ENABLE ty inst d1 = 0 →
      answers (.pgSoftRst ty inst en) s (allSettled s.dev ({ d1 with mg := { d1.mg with resets := d1.mg.resets ++ [(ty, inst)] } }
        |> softStop ty inst |> softStaged ty inst |> forEach (softFields ty) (warmField ty inst) |> softHeader ty inst |> softLogic ty inst)))) ∧
  (∀ (s : State) (ty inst : Nat),
    (∀ d1, commitBusy ty inst s.dev = true → d1 = stagedSwap ty inst s.dev → answers (.commitSwap ty inst) s (allSettled s.dev (
      { d1 with mg := { d1.mg with commits := d1.mg.commits.filter (fun c => c != (ty, inst)), touched := untouched ty inst d1 } }
        |> stagedOut ty inst |> addMod (Reg.PG_STAT_COMMIT_SEQ.ofType ty) inst 0 1 |> hwr Reg.PG_STAT_COMMIT_REFUSED ty inst 0
        |> raiseCommitDone ty inst |> entriesStart))) ∧
    (inSoftReset ty inst s.dev = true → answers (.softResetDone ty inst) s (allSettled s.dev (raiseResetDone ty inst
      { s.dev with mg := { s.dev.mg with resets := s.dev.mg.resets.filter (fun r => r != (ty, inst)) } }))) ∧
    (∀ v, served ty inst 0x1C s.dev → answers (.pgEvtInj ty inst v) s (allSettled s.dev (injectEvents ty inst v s.dev)))) ∧
  (∀ (s : State) (v : Word), served 0 0 0x104 s.dev → commitBusy 0 0 s.dev = false → blLockOk s.dev = true → 0 < bitsOf v.toNat 0 8 →
    bitsOf v.toNat 0 8 ≤ rd Reg.DEV_BL_MAX 0 s.dev →
    answers (.behaviourLevelWrite v) s (allSettled s.dev (wr Reg.DEV_BEHAVIOUR_LEVEL 0 (bitsOf v.toNat 0 8) s.dev)))

/-- A write of a served word, or of an aligned pair, is applied word by word by the rules of its words. A read of one word, or of an aligned
pair, answers it and clears what a read clears; a read of another size answers zero; a read of a semaphore answers it and sets it. In the
composite window of the anchor or standby, an access of no legal size reads zero, the own number reads and writes its own map, the
anchor's write and a read of another member go out as requests with the next numbers, the standby's write is dropped, and a read of a
number without a member answers all ones. A member applies an access and responds. A response to a read of the window is answered; a
timeout answers all ones, counts and raises. (R11, R33, R34, R42, R52, R58, R62, R416) -/
def Obligations.RegisterAccessesAct : Prop :=
  (∀ (s : State) (ty inst off : Nat) (v : BitVec 64) (aux : Aux) (d1 : Dev), served ty inst off s.dev → off < 4096 →
    (off = 8 → v.getLsbD 1 = true → domOn (domainOf ty inst) s.dev = true) →
    d1 = mbxRun aux (applyWord aux ty inst off (v.setWidth 32) s.dev) →
    answers (.registerWrite ⟨regAddr ty inst off, 4⟩ v aux) s (allSettled s.dev d1) ∧
    (off % 8 = 0 → off + 4 < 4096 → served ty inst (off + 4) d1 →
      answers (.registerWrite ⟨regAddr ty inst off, 8⟩ v aux) s (allSettled s.dev
        (mbxRun aux (applyWord aux ty inst (off + 4) ((v >>> 32).setWidth 32) d1))))) ∧
  (∀ (s : State) (path : Path) (a : Nat), ready s.dev = true → s.dev.mg.mpHalted = false →
    (∀ r, r = readAccess path a s.dev → answers (.rcFieldRead path ⟨a, 4⟩) s (emit .readData [pathNo path, a, r.1] [] r.2)) ∧
    (∀ r1 r2, a % 8 = 0 → r1 = readAccess path a s.dev → r2 = readAccess path (a + 4) r1.2 →
      answers (.rcFieldRead path ⟨a, 8⟩) s (emit .readData [pathNo path, a, r1.1 + 2 ^ 32 * r2.1] [] r2.2)) ∧
    (∀ size, size ≠ 4 → (size = 8 → a % 8 ≠ 0) → answers (.rcFieldRead path ⟨a, size⟩) s (emit .readData [pathNo path, a, 0] [] s.dev))) ∧
  (∀ (s : State) (path : Path) (k : Nat), ready s.dev = true → s.dev.mg.mpHalted = false → k < 4 →
    smFind s.dev.mg.hiLatch (latchKey path (0x120 + 4 * k)) = none →
    answers (.devMgmtSemRead path k) s (emit .readData [pathNo path, 0x120 + 4 * k, (memberWord 0 0 (0x120 + 4 * k) false s.dev).toNat] []
      (wrI Reg.DEV_MGMT_SEM 0 k 1 s.dev))) ∧
  (∀ (s : State) (m a size n : Nat) (v : BitVec 64) (aux : Aux) (ws : List Nat), cmpRuns s.dev = true → 2 ≤ s.dev.cmp.role → m < 64 →
    a < 2 ^ 26 → accessWords size a v = ws → s.dev.mg.nextReq = n →
    (ws = [] → answers (.compositeWindowAccess false m ⟨a, size⟩ v aux) s (allSettled s.dev (windowData m a 0 s.dev))) ∧
    (ws ≠ [] → m = ownId s.dev →
      answers (.compositeWindowAccess true m ⟨a, size⟩ v aux) s (allSettled s.dev (sizedWrite aux size a v s.dev)) ∧
      (∀ r, r = sizedRead .inBand size a s.dev →
        answers (.compositeWindowAccess false m ⟨a, size⟩ v aux) s (allSettled s.dev (windowData m a r.1 r.2)))) ∧
    (ws ≠ [] → m ≠ ownId s.dev → knownMember m s.dev = true →
      (s.dev.cmp.role = 3 → answers (.compositeWindowAccess true m ⟨a, size⟩ v aux) s (allSettled s.dev ({ s.dev with mg := { s.dev.mg with
        nextReq := n + ws.length, remotes := s.dev.mg.remotes ++ [⟨n, .inBand, m, a, ws.length, true, false, 0⟩] } }
        |> forEach ws.zipIdx (fun x d => d |> emit .mgmtReq [m, a + 4 * x.2, 1, x.1, n + x.2] []
             |> sendMgmt (smGet (fun _ => 0xFFFFF) d.sw.lids m) [0, a + 4 * x.2, 1, x.1, n + x.2])))) ∧
      answers (.compositeWindowAccess false m ⟨a, size⟩ v aux) s (allSettled s.dev ({ s.dev with mg := { s.dev.mg with
        nextReq := n + ws.length, remotes := s.dev.mg.remotes ++ [⟨n, .inBand, m, a, ws.length, false, false, 0⟩] } }
        |> forEach (ws.map (fun _ => 0)).zipIdx (fun x d => d |> emit .mgmtReq [m, a + 4 * x.2, 0, x.1, n + x.2] []
             |> sendMgmt (smGet (fun _ => 0xFFFFF) d.sw.lids m) [0, a + 4 * x.2, 0, x.1, n + x.2])))) ∧
    (ws ≠ [] → m ≠ ownId s.dev → s.dev.cmp.role = 2 →
      answers (.compositeWindowAccess true m ⟨a, size⟩ v aux) s (allSettled s.dev (forEach ws (fun _ => dropWrite) s.dev))) ∧
    (ws ≠ [] → m ≠ ownId s.dev → knownMember m s.dev = false → answers (.compositeWindowAccess false m ⟨a, size⟩ v aux) s
      (allSettled s.dev (s.dev |> forEach ws (fun _ => bump Reg.DEV_REMOTE_ERR 0) |> windowData m a (onesOf ws.length))))) ∧
  (∀ (s : State) (slid id a : Nat) (v : Word) (aux : Aux), cmpRuns s.dev = true → s.dev.mg.mpHalted = false → a < 2 ^ 26 →
    (∀ r, r = writeNoting aux a v s.dev → answers (.remoteAccessApply ⟨slid, id⟩ true a v aux) s
      (allSettled s.dev (mbxRun aux (respondRemote slid id r.1 0 r.2)))) ∧
    (∀ r, r = readAccess .fabric a s.dev → answers (.remoteAccessApply ⟨slid, id⟩ false a v aux) s
      (allSettled s.dev (mbxRun aux (respondRemote slid id 0 r.1 r.2))))) ∧
  (∀ (s : State) (id m a n : Nat), s.dev.mg.remotes.find? (fun r => r.id == id) = some ⟨id, .inBand, m, a, n, false, false, 0⟩ →
    (∀ vals : List Nat, vals.length = n → answers (.remoteResponseRx id 0 vals) s
      (allSettled s.dev (s.dev |> dropRemote id |> windowData m a (vals.getD 0 0 % 2 ^ 32 + 2 ^ 32 * vals.getD 1 0)))) ∧
    answers (.remoteTmo id) s (allSettled s.dev (s.dev |> dropRemote id |> bump Reg.DEV_REMOTE_ERR 0 |> raise Ev.REMOTE_TMO 0
      |> windowData m a (onesOf n))))

/-- A command its path takes, with none running there and served in the start-up state, runs and is answered with STATUS and its payload:
IDENTIFY, REG_READ and REG_WRITE of the device itself, EVENTS (whose entries leave the queue), LOG_READ, SENSORS, RESET, after whose
response the warm reset follows, and COMPOSITE. An unknown opcode, one received while another command runs on its path, a length or a CRC
that condemns the frame have their STATUS. (R54, R55, R56, R57, R62, R73, R489, R498, R531) -/
def Obligations.EdurnCommandsServed : Prop :=
  (∀ (s : State) (path : Path) (tag : Nat) (e : Dev),
    (EdReady 1 path tag [] s.dev → e = edEntered 1 path tag [] s.dev →
      answers (.identify path tag []) s (edEnds 1 path tag ⟨[], true, 0⟩ s.dev (edOk (beBytes 2 (rd Reg.DEV_PART 0 e)
        ++ beBytes 1 (stepCode e) ++ beBytes 1 (rd Reg.DEV_BL_MAX 0 e) ++ beBytes 1 (rd Reg.DEV_BEHAVIOUR_LEVEL 0 e) ++ beBytes 1 (ownId e)
        ++ beBytes 8 e.otp.serial) e))) ∧
    (∀ p m a n r, EdReady 2 path tag p s.dev → e = edEntered 2 path tag p s.dev → p.length = 6 → regPlace p = some (m, a, n) →
      edSelf m e = true → r = readWords path n a e →
      answers (.regRead path tag p) s (edEnds 2 path tag ⟨[], true, 0⟩ s.dev (edOk r.1 r.2))) ∧
    (∀ p m a n aux r, EdReady 3 path tag p s.dev → e = edEntered 3 path tag p s.dev → p.length = 6 + 4 * n → regPlace p = some (m, a, n) →
      edSelf m e = true → r = writeWords aux ((List.range n).map fun k => numIn p (6 + 4 * k) 4) a e → edBusy path r.2 = true →
      (r.1 = 0 → answers (.regWrite path tag p aux) s (edEnds 3 path tag aux s.dev (edOk [] r.2))) ∧
      (r.1 ≠ 0 → answers (.regWrite path tag p aux) s (edEnds 3 path tag aux s.dev ⟨r.2, stRefused, beBytes 2 r.1, 0⟩))) ∧
    (∀ p n, EdReady 4 path tag p s.dev → e = edEntered 4 path tag p s.dev → p.length = 1 → numIn p 0 1 = n → 1 ≤ n → n ≤ 120 →
      answers (.events path tag p) s (edEnds 4 path tag ⟨[], true, 0⟩ s.dev (edOk ((e.mg.events.take n).flatMap (fun x => beBytes 2 x.code
        ++ beBytes 4 x.addr)) { e with mg := { e.mg with events := e.mg.events.drop n } }))) ∧
    (∀ p n es x, EdReady 5 path tag p s.dev → e = edEntered 5 path tag p s.dev → p.length = 3 → numIn p 2 1 = n → 1 ≤ n → n ≤ 31 →
      es = (entriesFrom (numIn p 0 2) e.log.entries).take n → es.head? = some x →
      answers (.logRead path tag p) s (edEnds 5 path tag ⟨[], true, 0⟩ s.dev (edOk (beBytes 2 x.seq
        ++ beBytes 1 es.length ++ es.flatMap entryBytes) e))) ∧
    (EdReady 6 path tag [] s.dev → e = edEntered 6 path tag [] s.dev →
      answers (.sensors path tag []) s (edEnds 6 path tag ⟨[], true, 0⟩ s.dev (edOk (beBytes 2 (rd Reg.PWR_VIN_A_MV 0 e)
        ++ beBytes 2 (rd Reg.PWR_VIN_B_MV 0 e) ++ beBytes 2 (rd Reg.PWR_IIN_A 0 e) ++ beBytes 2 (rd Reg.PWR_IIN_B 0 e)
        ++ beBytes 2 (rd Reg.PWR_VBANK_MV 0 e) ++ beBytes 2 (rd Reg.PWR_P_IN 0 e)
        ++ beBytes 1 (rd Reg.PWR_A_STATE 0 e + 8 * rd Reg.PWR_B_STATE 0 e + 64 * rd Reg.PWR_FEED_ACTIVE 0 e) ++ beBytes 1 10
        ++ (List.range 10).flatMap (fun k => beBytes 2 (ofSigned 16 (e.sens.temps.getD k 0)))) e))) ∧
    (∀ p, p = [0, 0xD7] → EdReady 0x0B path tag p s.dev → e = edEntered 0x0B path tag p s.dev →
      answers (.reset path tag p) s (edEnds 0x0B path tag ⟨[], true, 0⟩ s.dev ⟨e, stOk, [], 1⟩)) ∧
    (EdReady 0x0D path tag [] s.dev → e = edEntered 0x0D path tag [] s.dev →
      answers (.composite path tag []) s (edEnds 0x0D path tag ⟨[], true, 0⟩ s.dev (edOk (beBytes 1 (ownId e)
        ++ beBytes 1 (rd Reg.CMP_ANCHOR_ID 0 e) ++ beBytes 1 (rd Reg.CMP_STANDBY_ID 0 e)
        ++ beBytes 8 (rd2 Reg.CMP_MEMBERS_LO Reg.CMP_MEMBERS_HI 0 0 e)) e)))) ∧
  (∀ (s : State) (opc : Nat) (path : Path) (tag len : Nat) (p : List Byte), edServed path s.dev = true →
    (1016 < len → answers (.edurnOtherOpcode opc path tag len true p) s
      (allSettled s.dev (mbxRun ⟨[], true, 0⟩ (edAnswer path opc tag stBadLength [] 0 s.dev)))) ∧
    (len ≤ 1016 → answers (.edurnOtherOpcode opc path tag len false p) s
      (allSettled s.dev (mbxRun ⟨[], true, 0⟩ (edAnswer path opc tag stCrcError [] 0 s.dev)))) ∧
    (len ≤ 1016 → edBusy path s.dev = true → 0x0D < opc → answers (.edurnOtherOpcode opc path tag len true p) s
      (allSettled s.dev (mbxRun ⟨[], true, 0⟩ (edAnswer path opc tag stBusy [] 0 s.dev)))) ∧
    (len ≤ 1016 → 0x0D < opc → edBusy path s.dev = false → edGate opc s.dev = none →
      answers (.edurnOtherOpcode opc path tag len true p) s
        (edEnds opc path tag ⟨[], true, 0⟩ s.dev (edStat stBadOpcode (edEnter path tag opc s.dev)))))

/-- Chunk 0 of an export takes the snapshot and returns its first bytes (an image longer than 5,767,168 bytes is refused: R81), chunk n
returns its bytes; the snapshot expires. A chunk of an import is written to the inactive slot, the first clearing it; a good import is
committed and its slot becomes active, a bad one is refused with its code; 0xFFFF_FFFE clears both slots. ENTDAA gives the dynamic
address; a held interrupt is sent; a read takes the oldest response, whose reset follows. (R38, R53, R55, R82, R83, R84) -/
def Obligations.ImagesAndResponsesAct : Prop :=
  (∀ (s : State) (path : Path) (tag : Nat) (e : Dev),
    (∀ p n img, EdReady 7 path tag p s.dev → e = edEntered 7 path tag p s.dev → p.length = 4 → stacksOn e = true → numIn p 0 4 = n →
      (n = 0 → img = exportImage e → answers (.imageExport path tag p) s (edEnds 7 path tag ⟨[], true, 0⟩ s.dev
        (if 5767168 < img.length then edRefused Cfg.IMG_SECTION { e with boot := { e.boot with snapshot := none } }
         else edOk (beBytes 4 0 ++ img.take 1008) { e with boot := { e.boot with snapshot := some img } }))) ∧
      (n ≠ 0 → e.boot.snapshot = some img → 1008 * n < img.length → answers (.imageExport path tag p) s
        (edEnds 7 path tag ⟨[], true, 0⟩ s.dev (edOk (beBytes 4 n ++ (img.drop (1008 * n)).take 1008) e)))) ∧
    (∀ n data p, p = beBytes 4 n ++ data → EdReady 8 path tag p s.dev → e = edEntered 8 path tag p s.dev → n < 5722 → data.length ≤ 1008 →
      1008 * n + data.length ≤ 5767168 → ∀ d1, d1 = (if e.boot.chunks.isEmpty then putSlot (inactiveSlot e) [] false e else e) →
      ∀ d2, d2 = putSlot (inactiveSlot e) (putBytes (imageSlot (inactiveSlot e) d1) (1008 * n) data) false d1 →
      answers (.imageImport path tag n data) s (edEnds 8 path tag ⟨[], true, 0⟩ s.dev (edOk []
        { d2 with boot := { d2.boot with chunks := if d2.boot.chunks.contains n then d2.boot.chunks else n :: d2.boot.chunks } }))) ∧
    (∀ p k, p = beBytes 4 0xFFFFFFFF → EdReady 8 path tag p s.dev → e = edEntered 8 path tag p s.dev → inactiveSlot e = k →
      (importErr e = 0 → ∀ d1, d1 = (e |> importTable (imageSlot k e) |> putSlot k (imageSlot k e) true) →
        answers (.imageImportCommit path tag) s (edEnds 8 path tag ⟨[], true, 0⟩ s.dev (edOk []
          { d1 with boot := { d1.boot with active := some k, chunks := [] } }))) ∧
      (importErr e ≠ 0 → answers (.imageImportCommit path tag) s (edEnds 8 path tag ⟨[], true, 0⟩ s.dev
        ⟨cfgErr 0x00 0 8 (importErr e) 0xFFFFFFFF e, stRefused, beBytes 2 (importErr e), 0⟩))) ∧
    (∀ p d1, p = beBytes 4 0xFFFFFFFE → EdReady 8 path tag p s.dev → e = edEntered 8 path tag p s.dev →
      d1 = (e |> putSlot 0 [] false |> putSlot 1 [] false) →
      answers (.imageImportClear path tag) s (edEnds 8 path tag ⟨[], true, 0⟩ s.dev (edOk []
        { d1 with boot := { d1.boot with active := none, chunks := [] } })))) ∧
  (∀ s : State, answers .exportSnapshotExpire s { s.dev with boot := { s.dev.boot with snapshot := none } }) ∧
  (∀ s : State, i3cUp s.dev = true →
    (∀ a, a < 128 → answers (.i3cEntdaa a) s { s.dev with mg := { s.dev.mg with dynAddr := some a } }) ∧
    (∀ a, s.dev.mg.ibiHeld = true → s.dev.mg.dynAddr = some a → rd Reg.DEV_I3C_IBI 0 s.dev = 1 →
      answers .ibiRaise s (emit .ibi [] [] { s.dev with mg := { s.dev.mg with ibiHeld := false } })) ∧
    (∀ r rs, s.dev.mg.ready = r :: rs → answers .i3cResponseRead s ({ s.dev with mg := { s.dev.mg with ready := rs } }
      |> emit .edurn [3, r.tag, r.opc % 128 + 128, r.status] r.payload |> afterResponse r.after)))

/-- Chunk 0 of FW_STAGE zeroes the first 64 bytes of the staging bank, writes its data and makes the path owner; the owner's later chunks are
written. Ownership and nonces expire. FW_ACTIVATE of a bank that passes makes it preferred; one that fails is DENIED. At READY, STATE
answers the lifecycle counts, NONCE draws a nonce (free bytes, log entry 10), TRANSITION with its authorization writes the record and the
warm reset follows its answer, without it is refused and counted, and RB_COMMIT raises the rollback counters to those of the running
image. Before READY a TRANSITION is refused, its nonce consumed. (R501, R506, R507, R508, R514, R515, R516, R517, R518) -/
def Obligations.SecurityEngineActs : Prop :=
  (∀ (s : State) (path : Path) (tag n : Nat) (data p : List Byte) (e : Dev), p = beBytes 4 n ++ data → EdReady 9 path tag p s.dev →
    e = edEntered 9 path tag p s.dev → stacksOn e = true → data.length ≤ 1008 → 1008 * n + data.length ≤ 10485760 →
    (n = 0 → e.sec.owner = none → answers (.fwStage path tag p) s (edAnswered 9 path tag (edOk [] (e
      |> bankWrite (stageBank e) 0 (List.replicate 64 0) |> bankWrite (stageBank e) 0 data
      |> updSec (fun x => { x with owner := some path, stageChunks := [0] }))))) ∧
    (n ≠ 0 → e.sec.owner = some path → answers (.fwStage path tag p) s (edAnswered 9 path tag (edOk [] (e
      |> bankWrite (stageBank e) (1008 * n) data
      |> updSec (fun x => { x with stageChunks := if x.stageChunks.contains n then x.stageChunks else n :: x.stageChunks })))))) ∧
  (∀ s : State, answers .stagingOwnerExpire s (updSec (fun x => { x with owner := none }) s.dev) ∧
    answers .nonceExpire s (updSec (fun x => { x with nonce := none }) s.dev)) ∧
  (∀ (s : State) (path : Path) (tag b : Nat) (e d1 : Dev), b < 2 → EdReady 0x0A path tag [BitVec.ofNat 8 b] s.dev →
    e = edEntered 0x0A path tag [BitVec.ofNat 8 b] s.dev →
    d1 = checkBank b (if b = stageBank e then updSec (fun x => { x with owner := none }) e else e) →
    (bankReason b e = 0 → answers (.fwActivate path tag [BitVec.ofNat 8 b]) s (edAnswered 0x0A path tag
      (edOk [] (raise Ev.FW_ACTIVATED 0 { d1 with boot := { d1.boot with pref := b } })))) ∧
    (bankReason b e ≠ 0 → answers (.fwActivate path tag [BitVec.ofNat 8 b]) s (edAnswered 0x0A path tag
      (edStat stDenied (raise Ev.FW_ACTIVATE_FAIL 0 d1))))) ∧
  (∀ (s : State) (path : Path) (tag : Nat) (e : Dev),
    (EdReady 0x0C path tag [1] s.dev → e = edEntered 0x0C path tag [1] s.dev → ready e = true → e.mg.mpHalted = false →
      answers (.lifecycleState path tag []) s (edAnswered 0x0C path tag ⟨lcRecord 1 0 e, stOk, beBytes 1 (lcState e)
        ++ beBytes 1 e.otp.lcRec.length ++ beBytes 1 e.otp.owners.length ++ beBytes 1 e.otp.fwRb ++ beBytes 1 e.otp.keyRb, 0⟩)) ∧
    (EdReady 0x0C path tag [2] s.dev → e = edEntered 0x0C path tag [2] s.dev → ready e = true → e.mg.mpHalted = false →
      answers (.lifecycleNonce path tag []) s (edAnswered 0x0C path tag ⟨e |> updSec (fun x => { x with nonce := some (freshNonce e) })
        |> takeFree |> lcRecord 2 0, stOk, freshNonce e, 0⟩)) ∧
    (∀ rb key, EdReady 0x0C path tag [4] s.dev → e = edEntered 0x0C path tag [4] s.dev → ready e = true → e.mg.mpHalted = false →
      rd Reg.DEV_FALLBACK 0 e = 0 → rd Reg.DEV_BANK 0 e = e.boot.pref → rb = max e.otp.fwRb (rd Reg.SEC_RUN_RB 0 e) →
      key = max e.otp.keyRb (rd Reg.SEC_RUN_KEY 0 e) →
      answers (.rbCommit path tag []) s (edAnswered 0x0C path tag ⟨e |> updOtp (fun o => { o with fwRb := rb, keyRb := key })
        |> onlyIf (decide (e.otp.fwRb < rb ∨ e.otp.keyRb < key)) (raise Ev.RB_ADVANCED 0) |> lcRecord 4 0, stOk,
        beBytes 1 rb ++ beBytes 1 key, 0⟩)) ∧
    (∀ target pub sig p cur, p = BitVec.ofNat 8 target :: (pub ++ sig) → pub.length = 32 → sig.length = 64 → target < 256 → lcState e = cur →
      EdReady 0x0C path tag (3 :: p) s.dev → e = edEntered 0x0C path tag (3 :: p) s.dev → ready e = true → e.mg.mpHalted = false →
      e.otp.lcRec.length < 15 → e.otp.owners.length < 8 → (target ≠ 2 → pub = List.replicate 32 0) →
      (lcAuth cur target = some 0 → sig = List.replicate 64 0 → answers (.lifecycleTransition path tag p) s (edAnswered 0x0C path tag
        ⟨e |> updSec (fun x => { x with nonce := none }) |> lcWrite cur target pub |> lcRecord 3 0, stOk, [], 2⟩)) ∧
      (∀ who n, lcAuth cur target = some who → who ≠ 0 → e.sec.nonce = some n →
        (((lcKeys who e).any fun k => Config.ed25519Verify k (lcDigest cur target n pub e) sig) = true →
          answers (.lifecycleTransition path tag p) s (edAnswered 0x0C path tag
            ⟨e |> updSec (fun x => { x with nonce := none }) |> lcWrite cur target pub |> lcRecord 3 0, stOk, [], 2⟩)) ∧
        (((lcKeys who e).any fun k => Config.ed25519Verify k (lcDigest cur target n pub e) sig) = false →
          answers (.lifecycleTransition path tag p) s (edAnswered 0x0C path tag (edStat stDenied (e |> updSec (fun x => { x with nonce := none })
            |> bump Reg.SEC_AUTH_FAIL_CNT 0 |> raise Ev.AUTH_FAIL 0 |> lcRecord 3 3 |> raise Ev.LC_DENIED 0)))))) ∧
    (∀ p, EdReady 0x0C path tag (3 :: p) s.dev → e = edEntered 0x0C path tag (3 :: p) s.dev → ready e = false →
      answers (.lifecycleTransition path tag p) s (edAnswered 0x0C path tag (edStat stDenied (e |> updSec (fun x => { x with nonce := none })
        |> lcRecord 3 1 |> raise Ev.LC_DENIED 0)))))

/-- An SPDM request at an endpoint that is up, served and negotiated far enough is counted and answered (message layouts as log entry 78
presumes): version 1.3, capabilities, algorithms, digests, a part of certificate slot 0, a signed challenge, measurement blocks, and
UnsupportedRequest for any other. MCTP control sets and gives the endpoint ID, version and message type support; DOE Discovery names its
two protocols. (R425, R510, R511, R512, R513) -/
def Obligations.AttestationAnswered : Prop :=
  (∀ (s : State) (ep : Nat) (x : Dev), x = bump Reg.SEC_SPDM_REQ 0 s.dev → endpointUp ep s.dev = true → spdmServed s.dev = true →
    answers (.spdmGetVersion ep) s (x |> setSpdm ep 1 |> spdmSend ep 0x04 0 0 [0, 1, 0x00, 0x13]) ∧
    (1 ≤ spdmState ep s.dev → answers (.spdmGetCapabilities ep) s (x |> setSpdm ep 2
      |> (fun d => spdmSend ep 0x61 0 0 ([0, 14, 0, 0] ++ leBytes 4 0x16 ++ leBytes 4 (free 32 x) ++ leBytes 4 (free 32 (takeFree x))) d)
      |> takeFree |> takeFree)) ∧
    (2 ≤ spdmState ep s.dev → answers (.spdmNegotiateAlgorithms ep) s (x |> setSpdm ep 3
      |> spdmSend ep 0x63 0 0 (leBytes 2 36 ++ [1, 0] ++ leBytes 4 8 ++ leBytes 4 0x400 ++ leBytes 4 4 ++ List.replicate 16 0))) ∧
    (3 ≤ spdmState ep s.dev →
      answers (.spdmGetDigests ep) s (spdmSend ep 0x01 0 1 (Config.sha512 (certChain x)) x) ∧
      (∀ ofs len part, ofs < (certChain x).length → part = ((certChain x).drop ofs).take len → answers (.spdmGetCertificate ep 0 ofs len) s
        (spdmSend ep 0x02 0 0 (leBytes 2 part.length ++ leBytes 2 ((certChain x).length - ofs - part.length) ++ part) x)) ∧
      (∀ ctx, answers (.spdmChallenge ep 0 0 ctx) s (x
        |> spdmSend ep 0x03 0 1 (Config.sha512 (certChain x) ++ freshNonce x ++ leBytes 2 0 ++ ctx ++ spdmSign (takeFree x))
        |> takeFree |> takeFree)) ∧
      (∀ ctx, answers (.spdmChallenge ep 0 1 ctx) s (x
        |> spdmSend ep 0x03 0 1 (Config.sha512 (certChain x) ++ freshNonce x ++ Config.sha512 (measBlock x 1) ++ leBytes 2 0 ++ ctx
            ++ spdmSign (takeFree x)) |> takeFree |> takeFree)) ∧
      (∀ op ctx, 1 ≤ op → op ≤ 7 → answers (.spdmGetMeasurements ep op false ctx) s (x
        |> spdmSend ep 0x60 0 0 (leBytes 1 1 ++ leBytes 3 (measBlock x op).length ++ measBlock x op ++ freshNonce x ++ leBytes 2 0 ++ ctx)
        |> takeFree |> takeFree)) ∧
      (∀ ctx, answers (.spdmGetMeasurements ep 0 true ctx) s (x
        |> spdmSend ep 0x60 7 0 (leBytes 1 0 ++ leBytes 3 0 ++ freshNonce x ++ leBytes 2 0 ++ ctx ++ spdmSign (takeFree x))
        |> takeFree |> takeFree))) ∧
    (∀ code, [0x84, 0xE1, 0xE3, 0x81, 0x82, 0x83, 0xE0].contains code = false → answers (.spdmOtherRequest ep code) s (x
      |> bump Reg.SEC_SPDM_ERR 0 |> spdmSend ep 0x7F 7 0 []))) ∧
  (∀ (s : State) (ep : Nat), mctpUp ep s.dev = true →
    (∀ eid, 0 < eid → eid < 255 → answers (.setEndpointId ep 0 eid) s (s.dev |> updSec (fun x => { x with eids := smPut x.eids ep eid })
      |> mctpSend ep 1 0 [0, eid, 0])) ∧
    (∀ eid, smFind s.dev.sec.eids ep = some eid → answers (.getEndpointId ep) s (mctpSend ep 2 0 [eid] s.dev)) ∧
    answers (.getMctpVersionSupport ep 0) s (s.dev |> mctpSend ep 4 0 [0, free 32 s.dev] |> takeFree) ∧
    answers (.getMessageTypeSupport ep) s (mctpSend ep 5 0 [0, 5] s.dev)) ∧
  (∀ s : State, ready s.dev = true → answers (.doeDiscovery 256 0) s (emit .doe [256, 0x0001, 0, 1] [] s.dev) ∧
    answers (.doeDiscovery 256 1) s (emit .doe [256, 0x0001, 1, 0] [] s.dev))

/-- For every command c and state s, the step of s with c at the front of its queue is exec of c on s with the queue's rest, on which exec
answers with the same queue. On an empty queue the step advances local time by 1 ns and fabric time by its rate, after which the memory
path serves what waits for it, and changes nothing else (the model's choice, log entries 1 and 174). (R19, R62, R37, R451, R452) -/
def Obligations.StepServesFront : Prop :=
  (∀ (c : Instr) (rest : List Instr) (s : State), step { s with pending := c :: rest } = exec c { s with pending := rest }) ∧
  (∀ (d : Dev), step ⟨d, []⟩ =
    .next ⟨memServeAll { d with th := { d.th with localNs := d.th.localNs + 1, fabric := (d.th.fabric + fabricRate d) % 2 ^ 80 } }, []⟩)

/-- From every state every step answers a next state, never a fault or a refusal, and takes exactly the front command from the queue. So the
commands that wait are served in their order: after as many steps as commands wait, the queue is empty and the block is what exec of each
in turn made of it. (R12, R62, R37, R55) -/
def Obligations.QueueServedInOrder : Prop :=
  (∀ s : State, ∃ t : State, step s = .next t ∧ t.pending = s.pending.tail) ∧
  (∀ (c : Instr) (s : State), ∃ d : Dev, exec c s = .next { s with dev := d } ∧ ∀ q : List Instr, exec c { s with pending := q } = .next ⟨d, q⟩) ∧
  (∀ (cs more : List Instr) (d : Dev), ∃ t : Dev, Sys2Proof.core.run cs.length ⟨d, cs ++ more⟩ = .next ⟨t, more⟩ ∧
    servedInTurn cs d = some t)

/-- For every state whose package memory lists rising offsets below 48 GiB with no zero byte, whose register words list rising addresses with
no word at its cold value, and whose waiting commands are well formed, the state after a step has the same three properties. (R20, R32,
R41, R44) -/
def Obligations.StepsKeepSound : Prop := ∀ s t : State, s.sound → step s = .next t → t.sound

/-- The state after reset is sound, its queue is empty, every management address reads its cold word and every byte of package memory reads 0.
Where the spec gives a field no cold value the word holds the model's choice (log entries 4 to 7). (R11, R20, R71) -/
def Obligations.ResetIsSound : Prop :=
  State.reset.sound ∧ State.reset.pending = [] ∧ (∀ a : Nat, wordAt a State.reset.dev = coldWord a) ∧ ∀ a : Nat, memRead a State.reset.dev = 0

/-- For every command c and state s, whatever exec of c answers, each part of the block that cmdParts does not list for c (registers, package
memory, the trace, the management paths, start-up, OTP, the security engine, the log, check jobs, feeds, domains, time and horizons,
composite mode, sensors, links and datapath, engines, collectives, switch) is the same after as before. (R34, R37, R44, R142, R151, R256,
R296, R335, R391) -/
def Obligations.OtherPartsUnchanged : Prop :=
  ∀ (c : Instr) (s t : State) (p : Part), exec c s = .next t → p ∉ cmdParts c → Dev.same p s.dev t.dev

/-- For every step: the trace of what the block has sent keeps all it had; the count of free values drawn does not fall; and OTP changes only
as R501 lets it: the lifecycle record and the owner slots keep what they have, the rollback counters do not fall, serial, keys and
certificates stay, and the identity seed stays or becomes all ones. (R501, R502, R508, R518) -/
def Obligations.NothingIsUndone : Prop :=
  ∀ s t : State, step s = .next t → (∃ l, t.dev.out = l ++ s.dev.out) ∧ s.dev.freeCtr ≤ t.dev.freeCtr ∧ otpRises s.dev.otp t.dev.otp

/-- No command moves local time but those that may run a reset of the whole block, for which cmdParts lists every part: whatever sets, steps
or steers fabric time leaves it. On an empty queue it advances by one nanosecond (the model's choice, log entry 1). (R452, R459, R463) -/
def Obligations.LocalTimeNeverSteered : Prop :=
  (∀ (c : Instr) (s t : State), cmdParts c ≠ allParts → exec c s = .next t → t.dev.th.localNs = s.dev.th.localNs) ∧
  (∀ s t : State, s.pending = [] → step s = .next t → t.dev.th.localNs = s.dev.th.localNs + 1)

/-- Two blocks that differ in IDENT_SEED alone answer every read on every path with the same value, and differ in it alone afterwards. (R501,
R33, R42) -/
def Obligations.SeedIsHidden : Prop :=
  ∀ (path : Path) (a : Nat) (d : Dev) (seed : List Byte),
    (readAccess path a (updOtp (fun o => { o with identSeed := seed }) d)).1 = (readAccess path a d).1 ∧
    (readAccess path a (updOtp (fun o => { o with identSeed := seed }) d)).2 = updOtp (fun o => { o with identSeed := seed }) (readAccess path a d).2

/-- At READY, for a type, instance and offset of a management address where no such page exists or the page defines no such offset: a write
adds one to DEV_WR_DROP and changes nothing else, and a read answers 0 and changes nothing. No event is raised. (R34) -/
def Obligations.AbsentAddressesDropWrites : Prop :=
  ∀ (s : State) (ty inst off : Nat), ready s.dev = true → s.dev.mg.mpHalted = false → ty < 64 → inst < 256 → off < 4096 → off % 4 = 0 →
    isBcast ty inst = false → (pageExists ty inst s.dev && offsetOk ty inst off) = false →
    (∀ v aux, s.dev.mg.mbxGo = false →
      answers (.registerWrite ⟨regAddr ty inst off, 4⟩ v aux) s (allSettled s.dev (bump Reg.DEV_WR_DROP 0 s.dev))) ∧
    (∀ path, smFind s.dev.mg.hiLatch (latchKey path (regAddr ty inst off)) = none →
      answers (.rcFieldRead path ⟨regAddr ty inst off, 4⟩) s (emit .readData [pathNo path, regAddr ty inst off, 0] [] s.dev))

/-- While VALID of a page is 1, a further configuration error of the page changes neither word of PG_ERR_FIRST and PG_ERR_TS, and still rises
on CFG_ERR with its log entry. While VALID is 0 the error is recorded: VALID reads 1 and CODE its code. Every further error keeps it so.
(R39) -/
def Obligations.FirstErrorIsKept : Prop :=
  ∀ (ty inst off code : Nat) (v : Word) (d : Dev), smWf coldWord d.regs → code < 65536 →
    (hrd Reg.PG_VALID ty inst d = 1 →
      cfgErr ty inst off code v d = logAlarms d (d |> countRefusal |> wr Reg.DEV_CFG_ERR_LAST 0 code
        |> rise ty inst 0 code (BitVec.ofNat 32 (regAddr ty inst off)) v false true) ∧
      wordAt (regAddr ty inst 0x20) (cfgErr ty inst off code v d) = wordAt (regAddr ty inst 0x20) d ∧
      wordAt (regAddr ty inst 0x24) (cfgErr ty inst off code v d) = wordAt (regAddr ty inst 0x24) d) ∧
    (hrd Reg.PG_VALID ty inst d = 0 →
      hrd Reg.PG_VALID ty inst (cfgErr ty inst off code v d) = 1 ∧ hrd Reg.PG_CODE ty inst (cfgErr ty inst off code v d) = code ∧
      hrd Reg.PG_WORD ty inst (cfgErr ty inst off code v d) = off / 4 % 1024 ∧
      hrd Reg.PG_ERR_TS ty inst (cfgErr ty inst off code v d) = stampNs d % 2 ^ 32)

/-- While fabric time is not valid, an error recorded in PG_ERR_FIRST sets TS_LOCAL and stamps PG_ERR_TS with local time, and every trouble
log entry that raising an event writes is marked local and carries local time. (R64) -/
def Obligations.LocalStampsBeforeValidTime : Prop :=
  ∀ d : Dev, smWf coldWord d.regs → timeValid d = false →
    (∀ ty inst off code : Nat, hrd Reg.PG_VALID ty inst d = 0 →
      hrd Reg.PG_TS_LOCAL ty inst (recordFirst ty inst off code d) = 1 ∧
      hrd Reg.PG_ERR_TS ty inst (recordFirst ty inst off code d) = d.th.localNs % 2 ^ 32) ∧
    (∀ (e : Ev) (inst : Nat) (det0 det1 : Word) (x : LogEntry), x ∈ (raiseDet e inst det0 det1 d).log.entries →
      x ∈ d.log.entries ∨ (x.tsLocal = true ∧ x.ltime = d.th.localNs % 2 ^ 64 ∧ x.ftime = 0))

/-- A field that lies within its word, given a value, reads that value in its width; the other bits of its word and every other word are as
before. A byte written at an offset below 48 GiB reads back, every other byte is as before, and a write at or beyond 48 GiB changes
nothing. (R9, R20, R32, R33) -/
def Obligations.FieldsAndMemoryHold : Prop :=
  (∀ (f : Fld) (inst i v : Nat) (d : Dev), smWf coldWord d.regs → f.lo + f.wd ≤ 32 →
    rdI f inst i (wrI f inst i v d) = v % 2 ^ f.wd ∧
    (∀ b, b < 32 → (b < f.lo ∨ f.lo + f.wd ≤ b) →
      (wordAt (fldAddr f inst i) (wrI f inst i v d)).getLsbD b = (wordAt (fldAddr f inst i) d).getLsbD b) ∧
    (∀ a, a ≠ fldAddr f inst i → wordAt a (wrI f inst i v d) = wordAt a d)) ∧
  (∀ (a : Nat) (b : Byte) (d : Dev), Memory.wf d.mem →
    (a < memSize → memRead a (memWrite a b d) = b ∧ ∀ k, k ≠ a → memRead k (memWrite a b d) = memRead k d) ∧
    (memSize ≤ a → memWrite a b d = d))
end

