-- ==== Sys2Proof/Laws/Acts.lean ====
section
/-!
SUPPORT. A command acts on the block alone: what `exec` answers is one function of the block, with the queue handed on (`exec_acts`).
-/

namespace Sys2Proof.Machine

/-- A command is one function of the block. -/
def Acts (g : State → Out) : Prop := ∃ f : Dev → Dev, ∀ s, g s = onDev f s

theorem onEng_acts_of (f : Dev → Dev → Dev) : Acts (fun s => onEng (f s.dev) s) :=
  ⟨fun d => settleEng (f d d), fun s => by simp only [onEng, onDev]⟩

theorem onEng_acts (f : Dev → Dev) : Acts (onEng f) :=
  ⟨fun d => settleEng (f d), fun s => by simp only [onEng]⟩

theorem execBehaviourLevelWrite_acts (value : Word) : Acts (execBehaviourLevelWrite value) := ⟨_, fun _ => rfl⟩
theorem execD2dCorrectedError_acts (link n retries : Nat) : Acts (execD2dCorrectedError link n retries) := ⟨_, fun _ => rfl⟩
theorem execD2dUncorr_acts (link offset : Nat) (user : Option Nat) : Acts (execD2dUncorr link offset user) := ⟨_, fun _ => rfl⟩
theorem execRegisterWrite_acts (acc : RegAccess) (value : BitVec 64) (aux : Aux) : Acts (execRegisterWrite acc value aux) := ⟨_, fun _ => rfl⟩
theorem execRcFieldRead_acts (path : Path) (acc : RegAccess) : Acts (execRcFieldRead path acc) := ⟨_, fun _ => rfl⟩
theorem execDevMgmtSemRead_acts (path : Path) (sem : Nat) : Acts (execDevMgmtSemRead path sem) := ⟨_, fun _ => rfl⟩
theorem execPgCommit_acts (ty inst : Nat) (enable : Bool) : Acts (execPgCommit ty inst enable) := ⟨_, fun _ => rfl⟩
theorem execCommitSwap_acts (ty inst : Nat) : Acts (execCommitSwap ty inst) := ⟨_, fun _ => rfl⟩
theorem execPgDiscard_acts (ty inst : Nat) (enable : Bool) : Acts (execPgDiscard ty inst enable) := ⟨_, fun _ => rfl⟩
theorem execPgLock_acts (ty inst : Nat) (enable : Bool) : Acts (execPgLock ty inst enable) := ⟨_, fun _ => rfl⟩
theorem execPgSoftRst_acts (ty inst : Nat) (enable : Bool) : Acts (execPgSoftRst ty inst enable) := ⟨_, fun _ => rfl⟩
theorem execSoftResetDone_acts (ty inst : Nat) : Acts (execSoftResetDone ty inst) := ⟨_, fun _ => rfl⟩
theorem execPgEnableWrite_acts (ty inst : Nat) (enable : Bool) : Acts (execPgEnableWrite ty inst enable) := ⟨_, fun _ => rfl⟩
theorem execPgEvtInj_acts (ty inst : Nat) (value : Word) : Acts (execPgEvtInj ty inst value) := ⟨_, fun _ => rfl⟩
theorem execIbiRaise_acts : Acts execIbiRaise := ⟨_, fun _ => rfl⟩
theorem execI3cEntdaa_acts (addr : Nat) : Acts (execI3cEntdaa addr) := ⟨_, fun _ => rfl⟩
theorem execI3cResponseRead_acts : Acts execI3cResponseRead := ⟨_, fun _ => rfl⟩
theorem execCompositeWindowAccess_acts (write : Bool) (member : Nat) (acc : RegAccess) (value : BitVec 64) (aux : Aux) : Acts (execCompositeWindowAccess write member acc value aux) := ⟨_, fun _ => rfl⟩
theorem execRemoteAccessApply_acts (req : FabricReq) (write : Bool) (addr : Nat) (value : Word) (aux : Aux) : Acts (execRemoteAccessApply req write addr value aux) := ⟨_, fun _ => rfl⟩
theorem execRemoteResponseRx_acts (req code : Nat) (vals : List Nat) : Acts (execRemoteResponseRx req code vals) := ⟨_, fun _ => rfl⟩
theorem execRemoteTmo_acts (req : Nat) : Acts (execRemoteTmo req) := ⟨_, fun _ => rfl⟩
theorem execIdentify_acts (path : Path) (tag : Nat) (payload : List Byte) : Acts (execIdentify path tag payload) := ⟨_, fun _ => rfl⟩
theorem execRegRead_acts (path : Path) (tag : Nat) (payload : List Byte) : Acts (execRegRead path tag payload) := ⟨_, fun _ => rfl⟩
theorem execRegWrite_acts (path : Path) (tag : Nat) (payload : List Byte) (aux : Aux) : Acts (execRegWrite path tag payload aux) := ⟨_, fun _ => rfl⟩
theorem execEvents_acts (path : Path) (tag : Nat) (payload : List Byte) : Acts (execEvents path tag payload) := ⟨_, fun _ => rfl⟩
theorem execLogRead_acts (path : Path) (tag : Nat) (payload : List Byte) : Acts (execLogRead path tag payload) := ⟨_, fun _ => rfl⟩
theorem execSensors_acts (path : Path) (tag : Nat) (payload : List Byte) : Acts (execSensors path tag payload) := ⟨_, fun _ => rfl⟩
theorem execImageExport_acts (path : Path) (tag : Nat) (payload : List Byte) : Acts (execImageExport path tag payload) := ⟨_, fun _ => rfl⟩
theorem execExportSnapshotExpire_acts : Acts execExportSnapshotExpire := ⟨_, fun _ => rfl⟩
theorem execImageImport_acts (path : Path) (tag chunk : Nat) (data : List Byte) : Acts (execImageImport path tag chunk data) := ⟨_, fun _ => rfl⟩
theorem execImageImportCommit_acts (path : Path) (tag : Nat) : Acts (execImageImportCommit path tag) := ⟨_, fun _ => rfl⟩
theorem execImageImportClear_acts (path : Path) (tag : Nat) : Acts (execImageImportClear path tag) := ⟨_, fun _ => rfl⟩
theorem execFwStage_acts (path : Path) (tag : Nat) (payload : List Byte) : Acts (execFwStage path tag payload) := ⟨_, fun _ => rfl⟩
theorem execStagingOwnerExpire_acts : Acts execStagingOwnerExpire := ⟨_, fun _ => rfl⟩
theorem execFwActivate_acts (path : Path) (tag : Nat) (payload : List Byte) : Acts (execFwActivate path tag payload) := ⟨_, fun _ => rfl⟩
theorem execReset_acts (path : Path) (tag : Nat) (payload : List Byte) : Acts (execReset path tag payload) := ⟨_, fun _ => rfl⟩
theorem execComposite_acts (path : Path) (tag : Nat) (payload : List Byte) : Acts (execComposite path tag payload) := ⟨_, fun _ => rfl⟩
theorem execEdurnOtherOpcode_acts (opc : Nat) (path : Path) (tag len : Nat) (crcOk : Bool) (payload : List Byte) : Acts (execEdurnOtherOpcode opc path tag len crcOk payload) := ⟨_, fun _ => rfl⟩
theorem execLifecycleState_acts (path : Path) (tag : Nat) (payload : List Byte) : Acts (execLifecycleState path tag payload) := ⟨_, fun _ => rfl⟩
theorem execLifecycleNonce_acts (path : Path) (tag : Nat) (payload : List Byte) : Acts (execLifecycleNonce path tag payload) := ⟨_, fun _ => rfl⟩
theorem execNonceExpire_acts : Acts execNonceExpire := ⟨_, fun _ => rfl⟩
theorem execLifecycleTransition_acts (path : Path) (tag : Nat) (payload : List Byte) : Acts (execLifecycleTransition path tag payload) := ⟨_, fun _ => rfl⟩
theorem execRbCommit_acts (path : Path) (tag : Nat) (payload : List Byte) : Acts (execRbCommit path tag payload) := ⟨_, fun _ => rfl⟩
theorem execWarmRst_acts (value : Word) : Acts (execWarmRst value) := ⟨_, fun _ => rfl⟩
theorem execColdStart_acts (feed : Nat) (repairs : List Nat) : Acts (execColdStart feed repairs) := ⟨_, fun _ => rfl⟩
theorem execMemoryWipeComplete_acts (ok : Bool) (mem addr : Nat) : Acts (execMemoryWipeComplete ok mem addr) := ⟨_, fun _ => rfl⟩
theorem execUpstreamPerstDeassert_acts (host : Nat) : Acts (execUpstreamPerstDeassert host) := ⟨_, fun _ => rfl⟩
theorem execRollCallRx_acts (port serial prio pref anchor id : Nat) : Acts (execRollCallRx port serial prio pref anchor id) := ⟨_, fun _ => rfl⟩
theorem execMembershipStable_acts (cvhs : List (Nat × Nat × Nat)) (lids grants : List (Nat × Nat)) : Acts (execMembershipStable cvhs lids grants) := ⟨_, fun _ => rfl⟩
theorem execHeartbeatRx_acts (anchor standby epoch serial : Nat) : Acts (execHeartbeatRx anchor standby epoch serial) := ⟨_, fun _ => rfl⟩
theorem execHeartbeatSend_acts : Acts execHeartbeatSend := ⟨_, fun _ => rfl⟩
theorem execHbLossExpire_acts : Acts execHbLossExpire := ⟨_, fun _ => rfl⟩
theorem execHandover_acts (told : Bool) : Acts (execHandover told) := ⟨_, fun _ => rfl⟩
theorem execLaneSignalDetect_acts (lane : Nat) : Acts (execLaneSignalDetect lane) := ⟨_, fun _ => rfl⟩
theorem execLaneSymbolLock_acts (lane : Nat) : Acts (execLaneSymbolLock lane) := ⟨_, fun _ => rfl⟩
theorem execLaneLockLoss_acts (lane : Nat) : Acts (execLaneLockLoss lane) := ⟨_, fun _ => rfl⟩
theorem execLaneMarkerRx_acts (lane raw : Nat) : Acts (execLaneMarkerRx lane raw) := ⟨_, fun _ => rfl⟩
theorem execQualificationEnd_acts (port : Nat) (res : List (Nat × Nat)) (pfail : List Nat) (spare : Option (Nat × Nat)) : Acts (execQualificationEnd port res pfail spare) := ⟨_, fun _ => rfl⟩
theorem execBringupStepTimeout_acts (port step : Nat) (lanes : List Nat) : Acts (execBringupStepTimeout port step lanes) := ⟨_, fun _ => rfl⟩
theorem execBringupRetryTimer_acts (port : Nat) : Acts (execBringupRetryTimer port) := ⟨_, fun _ => rfl⟩
theorem execTrimTick_acts (lane errs cw eye : Nat) : Acts (execTrimTick lane errs cw eye) := ⟨_, fun _ => rfl⟩
theorem execPrbsLost_acts (lane errs bits : Nat) : Acts (execPrbsLost lane errs bits) := ⟨_, fun _ => rfl⟩
theorem execInjOne_acts (lane : Nat) : Acts (execInjOne lane) := ⟨_, fun _ => rfl⟩
theorem execEyeStart_acts (lane : Nat) : Acts (execEyeStart lane) := ⟨_, fun _ => rfl⟩
theorem execEyeAbort_acts (lane : Nat) : Acts (execEyeAbort lane) := ⟨_, fun _ => rfl⟩
theorem execEyeScanDone_acts (lane : Nat) (errs : List Nat) : Acts (execEyeScanDone lane errs) := ⟨_, fun _ => rfl⟩
theorem execSpareReq_acts (lane : Nat) : Acts (execSpareReq lane) := ⟨_, fun _ => rfl⟩
theorem execSpareRel_acts (lane : Nat) : Acts (execSpareRel lane) := ⟨_, fun _ => rfl⟩
theorem execDataFlitRx_acts (port : Nat) (b0 b1 b2 b3 : Byte) (body check : List Byte) : Acts (execDataFlitRx port b0 b1 b2 b3 body check) := ⟨_, fun _ => rfl⟩
theorem execFlitCheckFail_acts (port : Nat) (isData : Bool) : Acts (execFlitCheckFail port isData) := ⟨_, fun _ => rfl⟩
theorem execRsUncorrectable_acts (cw : BadCodewords) : Acts (execRsUncorrectable cw) := ⟨_, fun _ => rfl⟩
theorem execStatusRx_acts (port : Nat) (header body check : List Byte) : Acts (execStatusRx port header body check) := ⟨_, fun _ => rfl⟩
theorem execNakRx_acts (port : Nat) (covered check : List Byte) : Acts (execNakRx port covered check) := ⟨_, fun _ => rfl⟩
theorem execInitRx_acts (port : Nat) (header credits serial rest : List Byte) : Acts (execInitRx port header credits serial rest) := ⟨_, fun _ => rfl⟩
theorem execResetRx_acts (rx : RxFlit) : Acts (execResetRx rx) := ⟨_, fun _ => rfl⟩
theorem execLinkFlitReservedRx_acts (port : Nat) (flit : List Byte) : Acts (execLinkFlitReservedRx port flit) := ⟨_, fun _ => rfl⟩
theorem execStatusSend_acts (port : Nat) : Acts (execStatusSend port) := ⟨_, fun _ => rfl⟩
theorem execNakRepeat_acts (port : Nat) : Acts (execNakRepeat port) := ⟨_, fun _ => rfl⟩
theorem execReplayTimeout_acts (port : Nat) : Acts (execReplayTimeout port) := ⟨_, fun _ => rfl⟩
theorem execInitRepeat_acts (port : Nat) : Acts (execInitRepeat port) := ⟨_, fun _ => rfl⟩
theorem execInitTimeout_acts (port : Nat) : Acts (execInitTimeout port) := ⟨_, fun _ => rfl⟩
theorem execLockLossTimeout_acts (lane : Nat) : Acts (execLockLossTimeout lane) := ⟨_, fun _ => rfl⟩
theorem execSilentTimeout_acts (port : Nat) : Acts (execSilentTimeout port) := ⟨_, fun _ => rfl⟩
theorem execLinkDown_acts (port cause : Nat) : Acts (execLinkDown port cause) := ⟨_, fun _ => rfl⟩
theorem execLinkResetIdleEnd_acts (port : Nat) : Acts (execLinkResetIdleEnd port) := ⟨_, fun _ => rfl⟩
theorem execLreset_acts (port : Nat) : Acts (execLreset port) := ⟨_, fun _ => rfl⟩
theorem execPortEnableWrite_acts (port en : Nat) : Acts (execPortEnableWrite port en) := ⟨_, fun _ => rfl⟩
theorem execWakeSend_acts (port : Nat) : Acts (execWakeSend port) := ⟨_, fun _ => rfl⟩
theorem execWakePatternDetect_acts (port : Nat) : Acts (execWakePatternDetect port) := ⟨_, fun _ => rfl⟩
theorem execWeatherSend_acts (port : Nat) : Acts (execWeatherSend port) := ⟨_, fun _ => rfl⟩
theorem execWeatherRx_acts (port : Nat) (flit : List Byte) : Acts (execWeatherRx port flit) := ⟨_, fun _ => rfl⟩
theorem execWxStale_acts (port : Nat) : Acts (execWxStale port) := ⟨_, fun _ => rfl⟩
theorem execEthFrameRx_acts (port : Nat) (fcsOk : Bool) (frame : List Byte) : Acts (execEthFrameRx port fcsOk frame) := ⟨_, fun _ => rfl⟩
theorem execPfcFrameRx_acts (port prio quanta : Nat) : Acts (execPfcFrameRx port prio quanta) := ⟨_, fun _ => rfl⟩
theorem execPauseFrameRx_acts (port : Nat) : Acts (execPauseFrameRx port) := ⟨_, fun _ => rfl⟩
theorem execPfcRepeat_acts (port prio : Nat) : Acts (execPfcRepeat port prio) := ⟨_, fun _ => rfl⟩
theorem execPfcQuantaExpire_acts (port prio : Nat) : Acts (execPfcQuantaExpire port prio) := ⟨_, fun _ => rfl⟩
theorem execPfcWatchdog_acts (port prio : Nat) : Acts (execPfcWatchdog port prio) := ⟨_, fun _ => rfl⟩
theorem execEthPcsChange_acts (port : Nat) (pcs : PcsChange) (hiSer localFault remoteFault : Bool) : Acts (execEthPcsChange port pcs hiSer localFault remoteFault) := ⟨_, fun _ => rfl⟩
theorem execStraitMatch_acts (strait : Nat) : Acts (execStraitMatch strait) := ⟨_, fun _ => rfl⟩
theorem execDescriptorRx_acts (strait inIsl egIsl sseq : Nat) : Acts (execDescriptorRx strait inIsl egIsl sseq) := ⟨_, fun _ => rfl⟩
theorem execReorderStall_acts (inIsl egIsl : Nat) : Acts (execReorderStall inIsl egIsl) := ⟨_, fun _ => rfl⟩
theorem execStraitFaultDetect_acts (strait cause isl : Nat) (data : Bool) : Acts (execStraitFaultDetect strait cause isl data) := ⟨_, fun _ => rfl⟩
theorem execStrEnWrite_acts (strait en : Nat) : Acts (execStrEnWrite strait en) := ⟨_, fun _ => rfl⟩
theorem execStraitDrainDone_acts (strait : Nat) : Acts (execStraitDrainDone strait) := ⟨_, fun _ => rfl⟩
theorem execStraitSelftestDone_acts (strait : Nat) (pass : Bool) : Acts (execStraitSelftestDone strait pass) := ⟨_, fun _ => rfl⟩
theorem execHarbourUncorrRead_acts (seg cell pkt : Nat) : Acts (execHarbourUncorrRead seg cell pkt) := ⟨_, fun _ => rfl⟩
theorem execSegmentDrainDone_acts (seg : Nat) : Acts (execSegmentDrainDone seg) := ⟨_, fun _ => rfl⟩
theorem execSegmentDrainTimeout_acts (seg : Nat) : Acts (execSegmentDrainTimeout seg) := ⟨_, fun _ => rfl⟩
theorem execMirrorRecordWrite_acts (session : Nat) : Acts (execMirrorRecordWrite session) := ⟨_, fun _ => rfl⟩
theorem execIslReset_acts (isl : Nat) : Acts (execIslReset isl) := ⟨_, fun _ => rfl⟩
theorem execIslTestWrite_acts (isl : Nat) (test : Bool) : Acts (execIslTestWrite isl test) := ⟨_, fun _ => rfl⟩
theorem execIslandResetDone_acts (isl : Nat) : Acts (execIslandResetDone isl) := ⟨_, fun _ => rfl⟩
theorem execScheduleDecision_acts (port : Nat) : Acts (execScheduleDecision port) := ⟨_, fun _ => rfl⟩
theorem execWheelSlotDue_acts (isl : Nat) : Acts (execWheelSlotDue isl) := ⟨_, fun _ => rfl⟩
theorem execGateTransition_acts (port : Nat) : Acts (execGateTransition port) := ⟨_, fun _ => rfl⟩
theorem execGateSwitchRequest_acts (port : Nat) : Acts (execGateSwitchRequest port) := ⟨_, fun _ => rfl⟩
theorem execMtrRead_acts (bank : Nat) : Acts (execMtrRead bank) := ⟨_, fun _ => rfl⟩
theorem execMtrWrite_acts (bank : Nat) : Acts (execMtrWrite bank) := ⟨_, fun _ => rfl⟩
theorem execMtrReadClr_acts (bank : Nat) : Acts (execMtrReadClr bank) := ⟨_, fun _ => rfl⟩
theorem execEscWaitTimeout_acts (pkt : Nat) : Acts (execEscWaitTimeout pkt) := ⟨_, fun _ => rfl⟩
theorem execRouteHoldExpire_acts (pkt : Nat) : Acts (execRouteHoldExpire pkt) := ⟨_, fun _ => rfl⟩
theorem execPortRejoin_acts (port : Nat) : Acts (execPortRejoin port) := ⟨_, fun _ => rfl⟩
theorem execStuckLane_acts (port vl : Nat) : Acts (execStuckLane port vl) := ⟨_, fun _ => rfl⟩
theorem execSwap_acts (isl : Nat) : Acts (execSwap isl) := ⟨_, fun _ => rfl⟩
theorem execTblRead_acts (isl : Nat) : Acts (execTblRead isl) := ⟨_, fun _ => rfl⟩
theorem execTblWrite_acts (isl : Nat) : Acts (execTblWrite isl) := ⟨_, fun _ => rfl⟩
theorem execSqDoorbell_acts (vh slice : Nat) (wide : Bool) (num kind index : Nat) (entries : List (List Byte)) : Acts (execSqDoorbell vh slice wide num kind index entries) := by unfold execSqDoorbell; exact onEng_acts _
theorem execRqDoorbell_acts (vh slice : Nat) (wide : Bool) (num kind index : Nat) (entries : List (List Byte)) : Acts (execRqDoorbell vh slice wide num kind index entries) := by unfold execRqDoorbell; exact onEng_acts _
theorem execCqConsumerDoorbell_acts (vh slice : Nat) (wide : Bool) (num kind index : Nat) : Acts (execCqConsumerDoorbell vh slice wide num kind index) := by unfold execCqConsumerDoorbell; exact onEng_acts _
theorem execCqArmDoorbell_acts (vh slice : Nat) (wide : Bool) (num kind : Nat) : Acts (execCqArmDoorbell vh slice wide num kind) := by unfold execCqArmDoorbell; exact onEng_acts _
theorem execCqArmSolDoorbell_acts (vh slice : Nat) (wide : Bool) (num kind : Nat) : Acts (execCqArmSolDoorbell vh slice wide num kind) := by unfold execCqArmSolDoorbell; exact onEng_acts _
theorem execWqeStart_acts (qpn : Nat) : Acts (execWqeStart qpn) := by unfold execWqeStart; exact onEng_acts _
theorem execRequestPacketSend_acts (qpn : Nat) : Acts (execRequestPacketSend qpn) := by unfold execRequestPacketSend; exact onEng_acts _
theorem execSftSendRx_acts (p : SftPkt) : Acts (execSftSendRx p) := by unfold execSftSendRx; exact onEng_acts _
theorem execSftWriteRx_acts (p : SftPkt) : Acts (execSftWriteRx p) := by unfold execSftWriteRx; exact onEng_acts _
theorem execSftReadReqRx_acts (p : SftPkt) : Acts (execSftReadReqRx p) := by unfold execSftReadReqRx; exact onEng_acts _
theorem execSftAtomicRx_acts (p : SftPkt) : Acts (execSftAtomicRx p) := by unfold execSftAtomicRx; exact onEng_acts _
theorem execSftNotifyRx_acts (p : SftPkt) : Acts (execSftNotifyRx p) := onEng_acts_of (fun x => onlyIf (0x20 ≤ p.opc && p.opc != 0x28 && !finishFor p x) (takeRequest p))
theorem execRndvFinishRx_acts (p : SftPkt) : Acts (execRndvFinishRx p) := onEng_acts_of (fun x => onlyIf (finishFor p x) (takeRequest p))
theorem execAckRx_acts (r : SftResp) : Acts (execAckRx r) := by unfold execAckRx; exact onEng_acts _
theorem execRnrNakRx_acts (r : SftResp) : Acts (execRnrNakRx r) := by unfold execRnrNakRx; exact onEng_acts _
theorem execSeqNakRx_acts (r : SftResp) : Acts (execSeqNakRx r) := by unfold execSeqNakRx; exact onEng_acts _
theorem execErrorNakRx_acts (r : SftResp) : Acts (execErrorNakRx r) := by unfold execErrorNakRx; exact onEng_acts _
theorem execResyncRx_acts (r : SftResp) : Acts (execResyncRx r) := by unfold execResyncRx; exact onEng_acts _
theorem execReadRespRx_acts (r : SftResp) : Acts (execReadRespRx r) := by unfold execReadRespRx; exact onEng_acts _
theorem execAtomicRespRx_acts (r : SftResp) : Acts (execAtomicRespRx r) := by unfold execAtomicRespRx; exact onEng_acts _
theorem execRetransmitTimeout_acts (qpn key : Nat) : Acts (execRetransmitTimeout qpn key) := by unfold execRetransmitTimeout; exact onEng_acts _
theorem execRnrWaitExpire_acts (qpn key : Nat) : Acts (execRnrWaitExpire qpn key) := by unfold execRnrWaitExpire; exact onEng_acts _
theorem execSeqNakRepeat_acts (qpn key : Nat) : Acts (execSeqNakRepeat qpn key) := by unfold execSeqNakRepeat; exact onEng_acts _
theorem execAckTimer_acts (qpn key : Nat) : Acts (execAckTimer qpn key) := by unfold execAckTimer; exact onEng_acts _
theorem execRateRecover_acts (qpn : Nat) : Acts (execRateRecover qpn) := by unfold execRateRecover; exact onEng_acts _
theorem execContextFetchDone_acts (qpn : Nat) (ok : Bool) (ns : Nat) : Acts (execContextFetchDone qpn ok ns) := by unfold execContextFetchDone; exact onEng_acts _
theorem execFetchSlow_acts (qpn : Nat) : Acts (execFetchSlow qpn) := by unfold execFetchSlow; exact onEng_acts _
theorem execLagoonAdmit_acts (tpe : Nat) : Acts (execLagoonAdmit tpe) := by unfold execLagoonAdmit; exact onEng_acts _
theorem execPeerRecordIdleEvict_acts (qpn key : Nat) : Acts (execPeerRecordIdleEvict qpn key) := by unfold execPeerRecordIdleEvict; exact onEng_acts _
theorem execHostCompletionRx_acts (vh tag : Nat) (ok : Bool) (data : List Byte) : Acts (execHostCompletionRx vh tag ok data) := by unfold execHostCompletionRx; exact onEng_acts _
theorem execHostReadTimeout_acts (vh tag : Nat) : Acts (execHostReadTimeout vh tag) := by unfold execHostReadTimeout; exact onEng_acts _
theorem execQpQuery_acts : Acts execQpQuery := by unfold execQpQuery; exact onEng_acts _
theorem execQpCreate_acts : Acts execQpCreate := by unfold execQpCreate; exact onEng_acts _
theorem execQpModify_acts : Acts execQpModify := by unfold execQpModify; exact onEng_acts _
theorem execQpDestroy_acts : Acts execQpDestroy := by unfold execQpDestroy; exact onEng_acts _
theorem execRangeRead_acts : Acts execRangeRead := by unfold execRangeRead; exact onEng_acts _
theorem execRangeWrite_acts : Acts execRangeWrite := by unfold execRangeWrite; exact onEng_acts _
theorem execCqCreate_acts : Acts execCqCreate := by unfold execCqCreate; exact onEng_acts _
theorem execCqDestroy_acts : Acts execCqDestroy := by unfold execCqDestroy; exact onEng_acts _
theorem execCqQuery_acts : Acts execCqQuery := by unfold execCqQuery; exact onEng_acts _
theorem execReg_acts (pages : List Nat) (ok : Bool) : Acts (execReg pages ok) := by unfold execReg; exact onEng_acts _
theorem execRereg_acts (pages : List Nat) (ok : Bool) : Acts (execRereg pages ok) := by unfold execRereg; exact onEng_acts _
theorem execDereg_acts : Acts execDereg := by unfold execDereg; exact onEng_acts _
theorem execMrgQuery_acts : Acts execMrgQuery := by unfold execMrgQuery; exact onEng_acts _
theorem execInvalSlice_acts : Acts execInvalSlice := by unfold execInvalSlice; exact onEng_acts _
theorem execMrgRetireDone_acts : Acts execMrgRetireDone := by unfold execMrgRetireDone; exact onEng_acts _
theorem execXltFetchDone_acts (qpn : Nat) (ok : Bool) : Acts (execXltFetchDone qpn ok) := by unfold execXltFetchDone; exact onEng_acts _
theorem execWinRdLive_acts : Acts execWinRdLive := by unfold execWinRdLive; exact onEng_acts _
theorem execWinRdShadow_acts : Acts execWinRdShadow := by unfold execWinRdShadow; exact onEng_acts _
theorem execWinWrShadow_acts : Acts execWinWrShadow := by unfold execWinWrShadow; exact onEng_acts _
theorem execWinCommit_acts : Acts execWinCommit := by unfold execWinCommit; exact onEng_acts _
theorem execWinDiscard_acts : Acts execWinDiscard := by unfold execWinDiscard; exact onEng_acts _
theorem execWindowFenceDone_acts (reach : Bool) (win : Nat) : Acts (execWindowFenceDone reach win) := by unfold execWindowFenceDone; exact onEng_acts _
theorem execBrgRdLive_acts : Acts execBrgRdLive := by unfold execBrgRdLive; exact onEng_acts _
theorem execBrgRdShadow_acts : Acts execBrgRdShadow := by unfold execBrgRdShadow; exact onEng_acts _
theorem execBrgWrShadow_acts : Acts execBrgWrShadow := by unfold execBrgWrShadow; exact onEng_acts _
theorem execBrgWinCommit_acts : Acts execBrgWinCommit := by unfold execBrgWinCommit; exact onEng_acts _
theorem execBrgDiscard_acts : Acts execBrgDiscard := by unfold execBrgDiscard; exact onEng_acts _
theorem execErrClr_acts : Acts execErrClr := by unfold execErrClr; exact onEng_acts _
theorem execGrpRd_acts : Acts execGrpRd := by unfold execGrpRd; exact onEng_acts _
theorem execGrpWr_acts : Acts execGrpWr := by unfold execGrpWr; exact onEng_acts _
theorem execGrpCommit_acts : Acts execGrpCommit := by unfold execGrpCommit; exact onEng_acts _
theorem execBrgMemWriteTlp_acts (vh ofs : Nat) (data : List Byte) (be : List Bool) : Acts (execBrgMemWriteTlp vh ofs data be) := by unfold execBrgMemWriteTlp; exact onEng_acts _
theorem execBrgMemReadTlp_acts (vh req tag ofs len : Nat) : Acts (execBrgMemReadTlp vh req tag ofs len) := by unfold execBrgMemReadTlp; exact onEng_acts _
theorem execBrgQueuedReadIssue_acts : Acts execBrgQueuedReadIssue := by unfold execBrgQueuedReadIssue; exact onEng_acts _
theorem execBrgAtomicopTlp_acts (vh req tag ofs kind size op1 op2 : Nat) : Acts (execBrgAtomicopTlp vh req tag ofs kind size op1 op2) := by unfold execBrgAtomicopTlp; exact onEng_acts _
theorem execBrgLockedRead_acts (vh req tag ofs len : Nat) : Acts (execBrgLockedRead vh req tag ofs len) := by unfold execBrgLockedRead; exact onEng_acts _
theorem execBrgUnlockMsg_acts (vh req : Nat) : Acts (execBrgUnlockMsg vh req) := by unfold execBrgUnlockMsg; exact onEng_acts _
theorem execBrgRdTimeout_acts (id : Nat) : Acts (execBrgRdTimeout id) := by unfold execBrgRdTimeout; exact onEng_acts _
theorem execWinLockTmo_acts (win : Nat) : Acts (execWinLockTmo win) := by unfold execWinLockTmo; exact onEng_acts _
theorem execPfAgeExpire_acts (win ofs : Nat) : Acts (execPfAgeExpire win ofs) := by unfold execPfAgeExpire; exact onEng_acts _
theorem execMessageNotifyRx_acts (p : SftPkt) : Acts (execMessageNotifyRx p) := by unfold execMessageNotifyRx; exact onEng_acts _
theorem execFwdRangeWrite_acts (vh ofs : Nat) (data : List Byte) : Acts (execFwdRangeWrite vh ofs data) := by unfold execFwdRangeWrite; exact onEng_acts _
theorem execMapRead_acts : Acts execMapRead := by unfold execMapRead; exact onEng_acts _
theorem execMapWrite_acts : Acts execMapWrite := by unfold execMapWrite; exact onEng_acts _
theorem execWireCommit_acts : Acts execWireCommit := by unfold execWireCommit; exact onEng_acts _
theorem execWireCommitComplete_acts : Acts execWireCommitComplete := by unfold execWireCommitComplete; exact onEng_acts _
theorem execSlotWireEdge_acts (slot wire : Nat) (level : Bool) : Acts (execSlotWireEdge slot wire level) := by unfold execSlotWireEdge; exact onEng_acts _
theorem execCtxQuery_acts (mte : Nat) : Acts (execCtxQuery mte) := by unfold execCtxQuery; exact onEng_acts _
theorem execCtxCreate_acts (mte : Nat) : Acts (execCtxCreate mte) := by unfold execCtxCreate; exact onEng_acts _
theorem execCtxDestroy_acts (mte : Nat) : Acts (execCtxDestroy mte) := by unfold execCtxDestroy; exact onEng_acts _
theorem execMatchDoorbell_acts (vh slice : Nat) (wide : Bool) (index : Nat) (entries : List (List Byte)) : Acts (execMatchDoorbell vh slice wide index entries) := by unfold execMatchDoorbell; exact onEng_acts _
theorem execMatchPost_acts (slice : Nat) : Acts (execMatchPost slice) := by unfold execMatchPost; exact onEng_acts _
theorem execMatchProbe_acts (slice : Nat) : Acts (execMatchProbe slice) := by unfold execMatchProbe; exact onEng_acts _
theorem execMatchCancel_acts (slice : Nat) : Acts (execMatchCancel slice) := by unfold execMatchCancel; exact onEng_acts _
theorem execOverflowFetchDone_acts (mte ctx : Nat) : Acts (execOverflowFetchDone mte ctx) := by unfold execOverflowFetchDone; exact onEng_acts _
theorem execGrpRead_acts (cle : Nat) : Acts (execGrpRead cle) := ⟨_, fun _ => rfl⟩
theorem execGrpCreate_acts (cle : Nat) : Acts (execGrpCreate cle) := ⟨_, fun _ => rfl⟩
theorem execGrpModify_acts (cle : Nat) : Acts (execGrpModify cle) := ⟨_, fun _ => rfl⟩
theorem execGrpDestroy_acts (cle : Nat) : Acts (execGrpDestroy cle) := ⟨_, fun _ => rfl⟩
theorem execChildRead_acts (cle : Nat) : Acts (execChildRead cle) := ⟨_, fun _ => rfl⟩
theorem execChildWrite_acts (cle : Nat) : Acts (execChildWrite cle) := ⟨_, fun _ => rfl⟩
theorem execMemberRead_acts (cle : Nat) : Acts (execMemberRead cle) := ⟨_, fun _ => rfl⟩
theorem execMemberBind_acts (cle : Nat) : Acts (execMemberBind cle) := ⟨_, fun _ => rfl⟩
theorem execMemberUnbind_acts (cle : Nat) : Acts (execMemberUnbind cle) := ⟨_, fun _ => rfl⟩
theorem execCollDoorbell_acts (vh slice : Nat) (wide : Bool) (slot index : Nat) (entries : List (List Byte)) : Acts (execCollDoorbell vh slice wide slot index entries) := by unfold execCollDoorbell; exact onEng_acts _
theorem execCollDescriptorStart_acts (slot : Nat) : Acts (execCollDescriptorStart slot) := by unfold execCollDescriptorStart; exact onEng_acts _
theorem execCollUpRx_acts (port : Nat) (p : CollPkt) : Acts (execCollUpRx port p) := by unfold execCollUpRx; exact onEng_acts _
theorem execCollDownRx_acts (port : Nat) (p : CollPkt) : Acts (execCollDownRx port p) := by unfold execCollDownRx; exact onEng_acts _
theorem execCollFaultRx_acts (port : Nat) (p : CollPkt) : Acts (execCollFaultRx port p) := by unfold execCollFaultRx; exact onEng_acts _
theorem execCollAbortRx_acts (port : Nat) (p : CollPkt) : Acts (execCollAbortRx port p) := by unfold execCollAbortRx; exact onEng_acts _
theorem execCollGoOnRx_acts (port : Nat) (p : CollPkt) : Acts (execCollGoOnRx port p) := by unfold execCollGoOnRx; exact onEng_acts _
theorem execCollRedeliverRx_acts (port : Nat) (p : CollPkt) : Acts (execCollRedeliverRx port p) := by unfold execCollRedeliverRx; exact onEng_acts _
theorem execCollFaultTimeout_acts (group : Nat) : Acts (execCollFaultTimeout group) := by unfold execCollFaultTimeout; exact onEng_acts _
theorem execCollOpTimeout_acts (group : Nat) : Acts (execCollOpTimeout group) := by unfold execCollOpTimeout; exact onEng_acts _
theorem execExpTlpRx_acts (idx : Nat) (t : Tlp) : Acts (execExpTlpRx idx t) := by unfold execExpTlpRx; exact onEng_acts _
theorem execConfigRequest_acts (vh : Nat) (type1 wr : Bool) (bus dev fn off be data req tag : Nat) : Acts (execConfigRequest vh type1 wr bus dev fn off be data req tag) := by unfold execConfigRequest; exact onEng_acts _
theorem execVhHotReset_acts (far : Bool) (vh : Nat) : Acts (execVhHotReset far vh) := by unfold execVhHotReset; exact onEng_acts _
theorem execBind_acts (far : Bool) (vh grant dexp ld : Nat) : Acts (execBind far vh grant dexp ld) := by unfold execBind; exact onEng_acts _
theorem execUnbind_acts (far : Bool) (vh dexp ld : Nat) : Acts (execUnbind far vh dexp ld) := by unfold execUnbind; exact onEng_acts _
theorem execBindHoldoffEnd_acts (idx : Nat) : Acts (execBindHoldoffEnd idx) := by unfold execBindHoldoffEnd; exact onEng_acts _
theorem execPwRdLive_acts : Acts execPwRdLive := by unfold execPwRdLive; exact onEng_acts _
theorem execPwRdShadow_acts : Acts execPwRdShadow := by unfold execPwRdShadow; exact onEng_acts _
theorem execPwWrShadow_acts : Acts execPwWrShadow := by unfold execPwWrShadow; exact onEng_acts _
theorem execPwCommit_acts : Acts execPwCommit := by unfold execPwCommit; exact onEng_acts _
theorem execPwDiscard_acts : Acts execPwDiscard := by unfold execPwDiscard; exact onEng_acts _
theorem execIsoSet_acts (idx : Nat) : Acts (execIsoSet idx) := by unfold execIsoSet; exact onEng_acts _
theorem execIsoRel_acts (host : Bool) (idx : Nat) : Acts (execIsoRel host idx) := by unfold execIsoRel; exact onEng_acts _
theorem execDpcTrigger_acts (far surprise : Bool) (idx vh dev : Nat) : Acts (execDpcTrigger far surprise idx vh dev) := by unfold execDpcTrigger; exact onEng_acts _
theorem execExpDlChange_acts (idx : Nat) (up : Bool) (speed width : Nat) (cxl : Bool) (lds : Nat) (t : Training) : Acts (execExpDlChange idx up speed width cxl lds t) := by unfold execExpDlChange; exact onEng_acts _
theorem execExpEnWrite_acts (idx : Nat) (value : Word) : Acts (execExpEnWrite idx value) := by unfold execExpEnWrite; exact onEng_acts _
theorem execCompositePacketRx_acts (p : CompPkt) : Acts (execCompositePacketRx p) := by unfold execCompositePacketRx; exact onEng_acts _
theorem execCompositeAckRx_acts (src cls ackSeq : Nat) : Acts (execCompositeAckRx src cls ackSeq) := by unfold execCompositeAckRx; exact onEng_acts _
theorem execCompositeNakRx_acts (src cls ackSeq : Nat) : Acts (execCompositeNakRx src cls ackSeq) := by unfold execCompositeNakRx; exact onEng_acts _
theorem execCompositeAckSend_acts (src cls : Nat) : Acts (execCompositeAckSend src cls) := by unfold execCompositeAckSend; exact onEng_acts _
theorem execCmpRtoExpire_acts (member cls : Nat) : Acts (execCmpRtoExpire member cls) := by unfold execCmpRtoExpire; exact onEng_acts _
theorem execCplTmoExpire_acts (vh member req tag : Nat) : Acts (execCplTmoExpire vh member req tag) := by unfold execCplTmoExpire; exact onEng_acts _
theorem execSlotPrsntChange_acts (slot : Nat) (level : Bool) : Acts (execSlotPrsntChange slot level) := by unfold execSlotPrsntChange; exact onEng_acts _
theorem execSlotWakeEdge_acts (slot : Nat) : Acts (execSlotWakeEdge slot) := by unfold execSlotWakeEdge; exact onEng_acts _
theorem execSlotAlertEdge_acts (slot : Nat) : Acts (execSlotAlertEdge slot) := by unfold execSlotAlertEdge; exact onEng_acts _
theorem execSlotClkreqChange_acts (slot : Nat) (level : Bool) : Acts (execSlotClkreqChange slot level) := by unfold execSlotClkreqChange; exact onEng_acts _
theorem execPerstDeassertTimer_acts (idx : Nat) : Acts (execPerstDeassertTimer idx) := by unfold execPerstDeassertTimer; exact onEng_acts _
theorem execBmeClear_acts (vh : Nat) : Acts (execBmeClear vh) := by unfold execBmeClear; exact onEng_acts _
theorem execInitiateFlr_acts (vh : Nat) : Acts (execInitiateFlr vh) := by unfold execInitiateFlr; exact onEng_acts _
theorem execFlrComplete_acts (vh : Nat) : Acts (execFlrComplete vh) := by unfold execFlrComplete; exact onEng_acts _
theorem execD3hotEntry_acts (vh : Nat) : Acts (execD3hotEntry vh) := by unfold execD3hotEntry; exact onEng_acts _
theorem execD0Return_acts (vh : Nat) : Acts (execD0Return vh) := by unfold execD0Return; exact onEng_acts _
theorem execTagQuarantineEnd_acts (vh tag : Nat) : Acts (execTagQuarantineEnd vh tag) := by unfold execTagQuarantineEnd; exact onEng_acts _
theorem execSliceCreate_acts (slice : Nat) : Acts (execSliceCreate slice) := by unfold execSliceCreate; exact onEng_acts _
theorem execSliceQuiesce_acts (slice : Nat) : Acts (execSliceQuiesce slice) := by unfold execSliceQuiesce; exact onEng_acts _
theorem execSliceDrained_acts (slice : Nat) : Acts (execSliceDrained slice) := by unfold execSliceDrained; exact onEng_acts _
theorem execSliceQuiesceTmo_acts (slice : Nat) : Acts (execSliceQuiesceTmo slice) := by unfold execSliceQuiesceTmo; exact onEng_acts _
theorem execSliceResume_acts (slice : Nat) : Acts (execSliceResume slice) := by unfold execSliceResume; exact onEng_acts _
theorem execSliceReset_acts (slice : Nat) : Acts (execSliceReset slice) := by unfold execSliceReset; exact onEng_acts _
theorem execSliceForceReset_acts (slice : Nat) : Acts (execSliceForceReset slice) := by unfold execSliceForceReset; exact onEng_acts _
theorem execSliceRemove_acts (slice : Nat) : Acts (execSliceRemove slice) := by unfold execSliceRemove; exact onEng_acts _
theorem execSliceResetComplete_acts (slice : Nat) : Acts (execSliceResetComplete slice) := by unfold execSliceResetComplete; exact onEng_acts _
theorem execCommandDoorbell_acts (vh slice : Nat) (wide : Bool) (index : Nat) (entries : List (List Byte)) : Acts (execCommandDoorbell vh slice wide index entries) := by unfold execCommandDoorbell; exact onEng_acts _
theorem execCommandRingEntry_acts (slice : Nat) (data : List Byte) (pages : List Nat) (ok : Bool) : Acts (execCommandRingEntry slice data pages ok) := by unfold execCommandRingEntry; exact onEng_acts _
theorem execEventRingDoorbell_acts (vh slice value : Nat) : Acts (execEventRingDoorbell vh slice value) := by unfold execEventRingDoorbell; exact onEng_acts _
theorem execMsixUnmask_acts (vh vec : Nat) : Acts (execMsixUnmask vh vec) := by unfold execMsixUnmask; exact onEng_acts _
theorem execAtsTranslationCompletion_acts (vh pasid page : Nat) (ok : Bool) (to_ : Nat) (read write : Bool) : Acts (execAtsTranslationCompletion vh pasid page ok to_ read write) := by unfold execAtsTranslationCompletion; exact onEng_acts _
theorem execPrgResponse_acts (vh pasid page : Nat) (ok : Bool) : Acts (execPrgResponse vh pasid page ok) := by unfold execPrgResponse; exact onEng_acts _
theorem execPageRequestTimeout_acts (vh pasid page : Nat) : Acts (execPageRequestTimeout vh pasid page) := by unfold execPageRequestTimeout; exact onEng_acts _
theorem execAtsInvalidateRequest_acts (vh itag pasid page pages : Nat) : Acts (execAtsInvalidateRequest vh itag pasid page pages) := by unfold execAtsInvalidateRequest; exact onEng_acts _
theorem execAtsInvalidateComplete_acts (vh itag : Nat) : Acts (execAtsInvalidateComplete vh itag) := by unfold execAtsInvalidateComplete; exact onEng_acts _
theorem execTimeFlitSend_acts (port : Nat) : Acts (execTimeFlitSend port) := ⟨_, fun _ => rfl⟩
theorem execTimeFlitRx_acts (port : Nat) (flit : List Byte) : Acts (execTimeFlitRx port flit) := ⟨_, fun _ => rfl⟩
theorem execGmRoundTick_acts : Acts execGmRoundTick := ⟨_, fun _ => rfl⟩
theorem execGmRecordStale_acts (port : Nat) : Acts (execGmRecordStale port) := ⟨_, fun _ => rfl⟩
theorem execHoldoverExpire_acts : Acts execHoldoverExpire := ⟨_, fun _ => rfl⟩
theorem execPpsInEdge_acts : Acts execPpsInEdge := ⟨_, fun _ => rfl⟩
theorem execPpsInLost_acts : Acts execPpsInLost := ⟨_, fun _ => rfl⟩
theorem execPpsOutSecond_acts : Acts execPpsOutSecond := ⟨_, fun _ => rfl⟩
theorem execSetGo_acts : Acts execSetGo := ⟨_, fun _ => rfl⟩
theorem execPhaseLoadGo_acts : Acts execPhaseLoadGo := ⟨_, fun _ => rfl⟩
theorem execHznRead_acts : Acts execHznRead := ⟨_, fun _ => rfl⟩
theorem execHznWrite_acts : Acts execHznWrite := ⟨_, fun _ => rfl⟩
theorem execArm_acts : Acts execArm := ⟨_, fun _ => rfl⟩
theorem execDisarm_acts : Acts execDisarm := ⟨_, fun _ => rfl⟩
theorem execHorizonFire_acts : Acts execHorizonFire := ⟨_, fun _ => rfl⟩
theorem execFeedPresentChange_acts (feed : Nat) (present : Bool) : Acts (execFeedPresentChange feed present) := ⟨_, fun _ => rfl⟩
theorem execFeedGood_acts (feed : Nat) : Acts (execFeedGood feed) := ⟨_, fun _ => rfl⟩
theorem execFeedBelowSwLevel_acts : Acts execFeedBelowSwLevel := ⟨_, fun _ => rfl⟩
theorem execSwitchNow_acts : Acts execSwitchNow := ⟨_, fun _ => rfl⟩
theorem execFeedSwitchBack_acts : Acts execFeedSwitchBack := ⟨_, fun _ => rfl⟩
theorem execEfuseTrip_acts (feed cause peak : Nat) : Acts (execEfuseTrip feed cause peak) := ⟨_, fun _ => rfl⟩
theorem execPathOpenConfirmed_acts (feed : Nat) : Acts (execPathOpenConfirmed feed) := ⟨_, fun _ => rfl⟩
theorem execRetryPeriodExpire_acts (feed : Nat) : Acts (execRetryPeriodExpire feed) := ⟨_, fun _ => rfl⟩
theorem execInrushChargeComplete_acts (feed : Nat) : Acts (execInrushChargeComplete feed) := ⟨_, fun _ => rfl⟩
theorem execTripClr_acts (feed : Nat) : Acts (execTripClr feed) := ⟨_, fun _ => rfl⟩
theorem execDipBegin_acts : Acts execDipBegin := ⟨_, fun _ => rfl⟩
theorem execDipEnd_acts (minMv : Nat) : Acts (execDipEnd minMv) := ⟨_, fun _ => rfl⟩
theorem execThrottleEnd_acts : Acts execThrottleEnd := ⟨_, fun _ => rfl⟩
theorem execLossOfSupply_acts : Acts execLossOfSupply := ⟨_, fun _ => rfl⟩
theorem execAonPowerLoss_acts : Acts execAonPowerLoss := ⟨_, fun _ => rfl⟩
theorem execPlinkAck_acts (dom : Nat) : Acts (execPlinkAck dom) := ⟨_, fun _ => rfl⟩
theorem execPlinkRequestTimeout_acts (dom : Nat) : Acts (execPlinkRequestTimeout dom) := ⟨_, fun _ => rfl⟩
theorem execPlinkMeasurementReport_acts (vinA vinB iinA iinB vbank pIn mj : Nat) : Acts (execPlinkMeasurementReport vinA vinB iinA iinB vbank pIn mj) := ⟨_, fun _ => rfl⟩
theorem execPwrReq_acts (value : Word) : Acts (execPwrReq value) := ⟨_, fun _ => rfl⟩
theorem execDomainTransitionDone_acts (dom : Nat) : Acts (execDomainTransitionDone dom) := ⟨_, fun _ => rfl⟩
theorem execDomainWake_acts (dom code : Nat) : Acts (execDomainWake dom code) := ⟨_, fun _ => rfl⟩
theorem execSpdmGetVersion_acts (ep : Nat) : Acts (execSpdmGetVersion ep) := ⟨_, fun _ => rfl⟩
theorem execSpdmGetCapabilities_acts (ep : Nat) : Acts (execSpdmGetCapabilities ep) := ⟨_, fun _ => rfl⟩
theorem execSpdmNegotiateAlgorithms_acts (ep : Nat) : Acts (execSpdmNegotiateAlgorithms ep) := ⟨_, fun _ => rfl⟩
theorem execSpdmGetDigests_acts (ep : Nat) : Acts (execSpdmGetDigests ep) := ⟨_, fun _ => rfl⟩
theorem execSpdmGetCertificate_acts (ep slot offset length : Nat) : Acts (execSpdmGetCertificate ep slot offset length) := ⟨_, fun _ => rfl⟩
theorem execSpdmChallenge_acts (ep slot summary : Nat) (context : List Byte) : Acts (execSpdmChallenge ep slot summary context) := ⟨_, fun _ => rfl⟩
theorem execSpdmGetMeasurements_acts (ep op : Nat) (signed : Bool) (context : List Byte) : Acts (execSpdmGetMeasurements ep op signed context) := ⟨_, fun _ => rfl⟩
theorem execSpdmOtherRequest_acts (ep code : Nat) : Acts (execSpdmOtherRequest ep code) := ⟨_, fun _ => rfl⟩
theorem execSetEndpointId_acts (ep op eid : Nat) : Acts (execSetEndpointId ep op eid) := ⟨_, fun _ => rfl⟩
theorem execGetEndpointId_acts (ep : Nat) : Acts (execGetEndpointId ep) := ⟨_, fun _ => rfl⟩
theorem execGetMctpVersionSupport_acts (ep type : Nat) : Acts (execGetMctpVersionSupport ep type) := ⟨_, fun _ => rfl⟩
theorem execGetMessageTypeSupport_acts (ep : Nat) : Acts (execGetMessageTypeSupport ep) := ⟨_, fun _ => rfl⟩
theorem execDoeDiscovery_acts (vh index : Nat) : Acts (execDoeDiscovery vh index) := ⟨_, fun _ => rfl⟩
theorem execPatrolScrub_acts (word : EccSite) (corrected : Bool) : Acts (execPatrolScrub word corrected) := ⟨_, fun _ => rfl⟩
theorem execDeviceFaultDetect_acts (clock : Bool) : Acts (execDeviceFaultDetect clock) := ⟨_, fun _ => rfl⟩
theorem execMpWatchdogMiss_acts (uncorr : Bool) : Acts (execMpWatchdogMiss uncorr) := ⟨_, fun _ => rfl⟩
theorem execLogClr_acts : Acts execLogClr := ⟨_, fun _ => rfl⟩
theorem execRdGo_acts : Acts execRdGo := ⟨_, fun _ => rfl⟩
theorem execAgingMeasure_acts (roPpm : List Nat) (margins : List (Nat × Nat)) : Acts (execAgingMeasure roPpm margins) := ⟨_, fun _ => rfl⟩
theorem execAgingTrendPeriod_acts : Acts execAgingTrendPeriod := ⟨_, fun _ => rfl⟩
theorem execChkGo_acts (job : Nat) : Acts (execChkGo job) := ⟨_, fun _ => rfl⟩
theorem execChkAbort_acts (job bytes : Nat) (data : List Byte) : Acts (execChkAbort job bytes data) := ⟨_, fun _ => rfl⟩
theorem execChkJobComplete_acts (job ended bytes : Nat) (data : List Byte) : Acts (execChkJobComplete job ended bytes data) := ⟨_, fun _ => rfl⟩
theorem execChkWatchReread_acts (job : Nat) (data : List Byte) : Acts (execChkWatchReread job data) := ⟨_, fun _ => rfl⟩
theorem execThermalSample_acts (temps : List Int) : Acts (execThermalSample temps) := ⟨_, fun _ => rfl⟩
theorem execThermalThrottleEnd_acts : Acts execThermalThrottleEnd := ⟨_, fun _ => rfl⟩
theorem execDeferredWarmReset_acts : Acts execDeferredWarmReset := ⟨_, fun _ => rfl⟩
theorem execVioChange_acts (mv : Nat) : Acts (execVioChange mv) := ⟨_, fun _ => rfl⟩
theorem execFeedNotGood_acts (feed : Nat) : Acts (execFeedNotGood feed) := ⟨_, fun _ => rfl⟩
theorem execRetryAttempt_acts (feed : Nat) : Acts (execRetryAttempt feed) := ⟨_, fun _ => rfl⟩
theorem execExpFlowControlCreditRx_acts (port cls hdr data : Nat) : Acts (execExpFlowControlCreditRx port cls hdr data) := ⟨_, fun _ => rfl⟩
theorem execHostSliceRegisterWrite_acts (vh slice reg : Nat) (value : Word) : Acts (execHostSliceRegisterWrite vh slice reg value) := ⟨_, fun _ => rfl⟩

theorem exec_acts (c : Sys2Proof.Instr) : ∃ f : Dev → Dev, ∀ s, exec c s = onDev f s := by
  cases c with
  | behaviourLevelWrite value => exact execBehaviourLevelWrite_acts value
  | d2dCorrectedError link n retries => exact execD2dCorrectedError_acts link n retries
  | d2dUncorr link offset user => exact execD2dUncorr_acts link offset user
  | registerWrite acc value aux => exact execRegisterWrite_acts acc value aux
  | rcFieldRead path acc => exact execRcFieldRead_acts path acc
  | devMgmtSemRead path sem => exact execDevMgmtSemRead_acts path sem
  | pgCommit ty inst enable => exact execPgCommit_acts ty inst enable
  | commitSwap ty inst => exact execCommitSwap_acts ty inst
  | pgDiscard ty inst enable => exact execPgDiscard_acts ty inst enable
  | pgLock ty inst enable => exact execPgLock_acts ty inst enable
  | pgSoftRst ty inst enable => exact execPgSoftRst_acts ty inst enable
  | softResetDone ty inst => exact execSoftResetDone_acts ty inst
  | pgEnableWrite ty inst enable => exact execPgEnableWrite_acts ty inst enable
  | pgEvtInj ty inst value => exact execPgEvtInj_acts ty inst value
  | ibiRaise => exact execIbiRaise_acts
  | i3cEntdaa addr => exact execI3cEntdaa_acts addr
  | i3cResponseRead => exact execI3cResponseRead_acts
  | compositeWindowAccess write member acc value aux => exact execCompositeWindowAccess_acts write member acc value aux
  | remoteAccessApply req write addr value aux => exact execRemoteAccessApply_acts req write addr value aux
  | remoteResponseRx req code vals => exact execRemoteResponseRx_acts req code vals
  | remoteTmo req => exact execRemoteTmo_acts req
  | identify path tag payload => exact execIdentify_acts path tag payload
  | regRead path tag payload => exact execRegRead_acts path tag payload
  | regWrite path tag payload aux => exact execRegWrite_acts path tag payload aux
  | events path tag payload => exact execEvents_acts path tag payload
  | logRead path tag payload => exact execLogRead_acts path tag payload
  | sensors path tag payload => exact execSensors_acts path tag payload
  | imageExport path tag payload => exact execImageExport_acts path tag payload
  | exportSnapshotExpire => exact execExportSnapshotExpire_acts
  | imageImport path tag chunk data => exact execImageImport_acts path tag chunk data
  | imageImportCommit path tag => exact execImageImportCommit_acts path tag
  | imageImportClear path tag => exact execImageImportClear_acts path tag
  | fwStage path tag payload => exact execFwStage_acts path tag payload
  | stagingOwnerExpire => exact execStagingOwnerExpire_acts
  | fwActivate path tag payload => exact execFwActivate_acts path tag payload
  | reset path tag payload => exact execReset_acts path tag payload
  | composite path tag payload => exact execComposite_acts path tag payload
  | edurnOtherOpcode opc path tag len crcOk payload => exact execEdurnOtherOpcode_acts opc path tag len crcOk payload
  | lifecycleState path tag payload => exact execLifecycleState_acts path tag payload
  | lifecycleNonce path tag payload => exact execLifecycleNonce_acts path tag payload
  | nonceExpire => exact execNonceExpire_acts
  | lifecycleTransition path tag payload => exact execLifecycleTransition_acts path tag payload
  | rbCommit path tag payload => exact execRbCommit_acts path tag payload
  | warmRst value => exact execWarmRst_acts value
  | coldStart feed repairs => exact execColdStart_acts feed repairs
  | memoryWipeComplete ok mem addr => exact execMemoryWipeComplete_acts ok mem addr
  | upstreamPerstDeassert host => exact execUpstreamPerstDeassert_acts host
  | rollCallRx port serial prio pref anchor id => exact execRollCallRx_acts port serial prio pref anchor id
  | membershipStable cvhs lids grants => exact execMembershipStable_acts cvhs lids grants
  | heartbeatRx anchor standby epoch serial => exact execHeartbeatRx_acts anchor standby epoch serial
  | heartbeatSend => exact execHeartbeatSend_acts
  | hbLossExpire => exact execHbLossExpire_acts
  | handover told => exact execHandover_acts told
  | laneSignalDetect lane => exact execLaneSignalDetect_acts lane
  | laneSymbolLock lane => exact execLaneSymbolLock_acts lane
  | laneLockLoss lane => exact execLaneLockLoss_acts lane
  | laneMarkerRx lane raw => exact execLaneMarkerRx_acts lane raw
  | qualificationEnd port res pfail spare => exact execQualificationEnd_acts port res pfail spare
  | bringupStepTimeout port step lanes => exact execBringupStepTimeout_acts port step lanes
  | bringupRetryTimer port => exact execBringupRetryTimer_acts port
  | trimTick lane errs cw eye => exact execTrimTick_acts lane errs cw eye
  | prbsLost lane errs bits => exact execPrbsLost_acts lane errs bits
  | injOne lane => exact execInjOne_acts lane
  | eyeStart lane => exact execEyeStart_acts lane
  | eyeAbort lane => exact execEyeAbort_acts lane
  | eyeScanDone lane errs => exact execEyeScanDone_acts lane errs
  | spareReq lane => exact execSpareReq_acts lane
  | spareRel lane => exact execSpareRel_acts lane
  | dataFlitRx port b0 b1 b2 b3 body check => exact execDataFlitRx_acts port b0 b1 b2 b3 body check
  | flitCheckFail port isData => exact execFlitCheckFail_acts port isData
  | rsUncorrectable cw => exact execRsUncorrectable_acts cw
  | statusRx port header body check => exact execStatusRx_acts port header body check
  | nakRx port covered check => exact execNakRx_acts port covered check
  | initRx port header credits serial rest => exact execInitRx_acts port header credits serial rest
  | resetRx rx => exact execResetRx_acts rx
  | linkFlitReservedRx port flit => exact execLinkFlitReservedRx_acts port flit
  | statusSend port => exact execStatusSend_acts port
  | nakRepeat port => exact execNakRepeat_acts port
  | replayTimeout port => exact execReplayTimeout_acts port
  | initRepeat port => exact execInitRepeat_acts port
  | initTimeout port => exact execInitTimeout_acts port
  | lockLossTimeout lane => exact execLockLossTimeout_acts lane
  | silentTimeout port => exact execSilentTimeout_acts port
  | linkDown port cause => exact execLinkDown_acts port cause
  | linkResetIdleEnd port => exact execLinkResetIdleEnd_acts port
  | lreset port => exact execLreset_acts port
  | portEnableWrite port en => exact execPortEnableWrite_acts port en
  | wakeSend port => exact execWakeSend_acts port
  | wakePatternDetect port => exact execWakePatternDetect_acts port
  | weatherSend port => exact execWeatherSend_acts port
  | weatherRx port flit => exact execWeatherRx_acts port flit
  | wxStale port => exact execWxStale_acts port
  | ethFrameRx port fcsOk frame => exact execEthFrameRx_acts port fcsOk frame
  | pfcFrameRx port prio quanta => exact execPfcFrameRx_acts port prio quanta
  | pauseFrameRx port => exact execPauseFrameRx_acts port
  | pfcRepeat port prio => exact execPfcRepeat_acts port prio
  | pfcQuantaExpire port prio => exact execPfcQuantaExpire_acts port prio
  | pfcWatchdog port prio => exact execPfcWatchdog_acts port prio
  | ethPcsChange port pcs hiSer localFault remoteFault => exact execEthPcsChange_acts port pcs hiSer localFault remoteFault
  | straitMatch strait => exact execStraitMatch_acts strait
  | descriptorRx strait inIsl egIsl sseq => exact execDescriptorRx_acts strait inIsl egIsl sseq
  | reorderStall inIsl egIsl => exact execReorderStall_acts inIsl egIsl
  | straitFaultDetect strait cause isl data => exact execStraitFaultDetect_acts strait cause isl data
  | strEnWrite strait en => exact execStrEnWrite_acts strait en
  | straitDrainDone strait => exact execStraitDrainDone_acts strait
  | straitSelftestDone strait pass => exact execStraitSelftestDone_acts strait pass
  | harbourUncorrRead seg cell pkt => exact execHarbourUncorrRead_acts seg cell pkt
  | segmentDrainDone seg => exact execSegmentDrainDone_acts seg
  | segmentDrainTimeout seg => exact execSegmentDrainTimeout_acts seg
  | mirrorRecordWrite session => exact execMirrorRecordWrite_acts session
  | islReset isl => exact execIslReset_acts isl
  | islTestWrite isl test => exact execIslTestWrite_acts isl test
  | islandResetDone isl => exact execIslandResetDone_acts isl
  | scheduleDecision port => exact execScheduleDecision_acts port
  | wheelSlotDue isl => exact execWheelSlotDue_acts isl
  | gateTransition port => exact execGateTransition_acts port
  | gateSwitchRequest port => exact execGateSwitchRequest_acts port
  | mtrRead bank => exact execMtrRead_acts bank
  | mtrWrite bank => exact execMtrWrite_acts bank
  | mtrReadClr bank => exact execMtrReadClr_acts bank
  | escWaitTimeout pkt => exact execEscWaitTimeout_acts pkt
  | routeHoldExpire pkt => exact execRouteHoldExpire_acts pkt
  | portRejoin port => exact execPortRejoin_acts port
  | stuckLane port vl => exact execStuckLane_acts port vl
  | swap isl => exact execSwap_acts isl
  | tblRead isl => exact execTblRead_acts isl
  | tblWrite isl => exact execTblWrite_acts isl
  | sqDoorbell vh slice wide num kind index entries => exact execSqDoorbell_acts vh slice wide num kind index entries
  | rqDoorbell vh slice wide num kind index entries => exact execRqDoorbell_acts vh slice wide num kind index entries
  | cqConsumerDoorbell vh slice wide num kind index => exact execCqConsumerDoorbell_acts vh slice wide num kind index
  | cqArmDoorbell vh slice wide num kind => exact execCqArmDoorbell_acts vh slice wide num kind
  | cqArmSolDoorbell vh slice wide num kind => exact execCqArmSolDoorbell_acts vh slice wide num kind
  | wqeStart qpn => exact execWqeStart_acts qpn
  | requestPacketSend qpn => exact execRequestPacketSend_acts qpn
  | sftSendRx p => exact execSftSendRx_acts p
  | sftWriteRx p => exact execSftWriteRx_acts p
  | sftReadReqRx p => exact execSftReadReqRx_acts p
  | sftAtomicRx p => exact execSftAtomicRx_acts p
  | sftNotifyRx p => exact execSftNotifyRx_acts p
  | rndvFinishRx p => exact execRndvFinishRx_acts p
  | ackRx r => exact execAckRx_acts r
  | rnrNakRx r => exact execRnrNakRx_acts r
  | seqNakRx r => exact execSeqNakRx_acts r
  | errorNakRx r => exact execErrorNakRx_acts r
  | resyncRx r => exact execResyncRx_acts r
  | readRespRx r => exact execReadRespRx_acts r
  | atomicRespRx r => exact execAtomicRespRx_acts r
  | retransmitTimeout qpn key => exact execRetransmitTimeout_acts qpn key
  | rnrWaitExpire qpn key => exact execRnrWaitExpire_acts qpn key
  | seqNakRepeat qpn key => exact execSeqNakRepeat_acts qpn key
  | ackTimer qpn key => exact execAckTimer_acts qpn key
  | rateRecover qpn => exact execRateRecover_acts qpn
  | contextFetchDone qpn ok ns => exact execContextFetchDone_acts qpn ok ns
  | fetchSlow qpn => exact execFetchSlow_acts qpn
  | lagoonAdmit tpe => exact execLagoonAdmit_acts tpe
  | peerRecordIdleEvict qpn key => exact execPeerRecordIdleEvict_acts qpn key
  | hostCompletionRx vh tag ok data => exact execHostCompletionRx_acts vh tag ok data
  | hostReadTimeout vh tag => exact execHostReadTimeout_acts vh tag
  | qpQuery => exact execQpQuery_acts
  | qpCreate => exact execQpCreate_acts
  | qpModify => exact execQpModify_acts
  | qpDestroy => exact execQpDestroy_acts
  | rangeRead => exact execRangeRead_acts
  | rangeWrite => exact execRangeWrite_acts
  | cqCreate => exact execCqCreate_acts
  | cqDestroy => exact execCqDestroy_acts
  | cqQuery => exact execCqQuery_acts
  | reg pages ok => exact execReg_acts pages ok
  | rereg pages ok => exact execRereg_acts pages ok
  | dereg => exact execDereg_acts
  | mrgQuery => exact execMrgQuery_acts
  | invalSlice => exact execInvalSlice_acts
  | mrgRetireDone => exact execMrgRetireDone_acts
  | xltFetchDone qpn ok => exact execXltFetchDone_acts qpn ok
  | winRdLive => exact execWinRdLive_acts
  | winRdShadow => exact execWinRdShadow_acts
  | winWrShadow => exact execWinWrShadow_acts
  | winCommit => exact execWinCommit_acts
  | winDiscard => exact execWinDiscard_acts
  | windowFenceDone reach win => exact execWindowFenceDone_acts reach win
  | brgRdLive => exact execBrgRdLive_acts
  | brgRdShadow => exact execBrgRdShadow_acts
  | brgWrShadow => exact execBrgWrShadow_acts
  | brgWinCommit => exact execBrgWinCommit_acts
  | brgDiscard => exact execBrgDiscard_acts
  | errClr => exact execErrClr_acts
  | grpRd => exact execGrpRd_acts
  | grpWr => exact execGrpWr_acts
  | grpCommit => exact execGrpCommit_acts
  | brgMemWriteTlp vh ofs data be => exact execBrgMemWriteTlp_acts vh ofs data be
  | brgMemReadTlp vh req tag ofs len => exact execBrgMemReadTlp_acts vh req tag ofs len
  | brgQueuedReadIssue => exact execBrgQueuedReadIssue_acts
  | brgAtomicopTlp vh req tag ofs kind size op1 op2 => exact execBrgAtomicopTlp_acts vh req tag ofs kind size op1 op2
  | brgLockedRead vh req tag ofs len => exact execBrgLockedRead_acts vh req tag ofs len
  | brgUnlockMsg vh req => exact execBrgUnlockMsg_acts vh req
  | brgRdTimeout id => exact execBrgRdTimeout_acts id
  | winLockTmo win => exact execWinLockTmo_acts win
  | pfAgeExpire win ofs => exact execPfAgeExpire_acts win ofs
  | messageNotifyRx p => exact execMessageNotifyRx_acts p
  | fwdRangeWrite vh ofs data => exact execFwdRangeWrite_acts vh ofs data
  | mapRead => exact execMapRead_acts
  | mapWrite => exact execMapWrite_acts
  | wireCommit => exact execWireCommit_acts
  | wireCommitComplete => exact execWireCommitComplete_acts
  | slotWireEdge slot wire level => exact execSlotWireEdge_acts slot wire level
  | ctxQuery mte => exact execCtxQuery_acts mte
  | ctxCreate mte => exact execCtxCreate_acts mte
  | ctxDestroy mte => exact execCtxDestroy_acts mte
  | matchDoorbell vh slice wide index entries => exact execMatchDoorbell_acts vh slice wide index entries
  | matchPost slice => exact execMatchPost_acts slice
  | matchProbe slice => exact execMatchProbe_acts slice
  | matchCancel slice => exact execMatchCancel_acts slice
  | overflowFetchDone mte ctx => exact execOverflowFetchDone_acts mte ctx
  | grpRead cle => exact execGrpRead_acts cle
  | grpCreate cle => exact execGrpCreate_acts cle
  | grpModify cle => exact execGrpModify_acts cle
  | grpDestroy cle => exact execGrpDestroy_acts cle
  | childRead cle => exact execChildRead_acts cle
  | childWrite cle => exact execChildWrite_acts cle
  | memberRead cle => exact execMemberRead_acts cle
  | memberBind cle => exact execMemberBind_acts cle
  | memberUnbind cle => exact execMemberUnbind_acts cle
  | collDoorbell vh slice wide slot index entries => exact execCollDoorbell_acts vh slice wide slot index entries
  | collDescriptorStart slot => exact execCollDescriptorStart_acts slot
  | collUpRx port p => exact execCollUpRx_acts port p
  | collDownRx port p => exact execCollDownRx_acts port p
  | collFaultRx port p => exact execCollFaultRx_acts port p
  | collAbortRx port p => exact execCollAbortRx_acts port p
  | collGoOnRx port p => exact execCollGoOnRx_acts port p
  | collRedeliverRx port p => exact execCollRedeliverRx_acts port p
  | collFaultTimeout group => exact execCollFaultTimeout_acts group
  | collOpTimeout group => exact execCollOpTimeout_acts group
  | expTlpRx idx t => exact execExpTlpRx_acts idx t
  | configRequest vh type1 wr bus dev fn off be data req tag => exact execConfigRequest_acts vh type1 wr bus dev fn off be data req tag
  | vhHotReset far vh => exact execVhHotReset_acts far vh
  | bind far vh grant dexp ld => exact execBind_acts far vh grant dexp ld
  | unbind far vh dexp ld => exact execUnbind_acts far vh dexp ld
  | bindHoldoffEnd idx => exact execBindHoldoffEnd_acts idx
  | pwRdLive => exact execPwRdLive_acts
  | pwRdShadow => exact execPwRdShadow_acts
  | pwWrShadow => exact execPwWrShadow_acts
  | pwCommit => exact execPwCommit_acts
  | pwDiscard => exact execPwDiscard_acts
  | isoSet idx => exact execIsoSet_acts idx
  | isoRel host idx => exact execIsoRel_acts host idx
  | dpcTrigger far surprise idx vh dev => exact execDpcTrigger_acts far surprise idx vh dev
  | expDlChange idx up speed width cxl lds t => exact execExpDlChange_acts idx up speed width cxl lds t
  | expEnWrite idx value => exact execExpEnWrite_acts idx value
  | compositePacketRx p => exact execCompositePacketRx_acts p
  | compositeAckRx src cls ackSeq => exact execCompositeAckRx_acts src cls ackSeq
  | compositeNakRx src cls ackSeq => exact execCompositeNakRx_acts src cls ackSeq
  | compositeAckSend src cls => exact execCompositeAckSend_acts src cls
  | cmpRtoExpire member cls => exact execCmpRtoExpire_acts member cls
  | cplTmoExpire vh member req tag => exact execCplTmoExpire_acts vh member req tag
  | slotPrsntChange slot level => exact execSlotPrsntChange_acts slot level
  | slotWakeEdge slot => exact execSlotWakeEdge_acts slot
  | slotAlertEdge slot => exact execSlotAlertEdge_acts slot
  | slotClkreqChange slot level => exact execSlotClkreqChange_acts slot level
  | perstDeassertTimer idx => exact execPerstDeassertTimer_acts idx
  | bmeClear vh => exact execBmeClear_acts vh
  | initiateFlr vh => exact execInitiateFlr_acts vh
  | flrComplete vh => exact execFlrComplete_acts vh
  | d3hotEntry vh => exact execD3hotEntry_acts vh
  | d0Return vh => exact execD0Return_acts vh
  | tagQuarantineEnd vh tag => exact execTagQuarantineEnd_acts vh tag
  | sliceCreate slice => exact execSliceCreate_acts slice
  | sliceQuiesce slice => exact execSliceQuiesce_acts slice
  | sliceDrained slice => exact execSliceDrained_acts slice
  | sliceQuiesceTmo slice => exact execSliceQuiesceTmo_acts slice
  | sliceResume slice => exact execSliceResume_acts slice
  | sliceReset slice => exact execSliceReset_acts slice
  | sliceForceReset slice => exact execSliceForceReset_acts slice
  | sliceRemove slice => exact execSliceRemove_acts slice
  | sliceResetComplete slice => exact execSliceResetComplete_acts slice
  | commandDoorbell vh slice wide index entries => exact execCommandDoorbell_acts vh slice wide index entries
  | commandRingEntry slice data pages ok => exact execCommandRingEntry_acts slice data pages ok
  | eventRingDoorbell vh slice value => exact execEventRingDoorbell_acts vh slice value
  | msixUnmask vh vec => exact execMsixUnmask_acts vh vec
  | atsTranslationCompletion vh pasid page ok to_ read write => exact execAtsTranslationCompletion_acts vh pasid page ok to_ read write
  | prgResponse vh pasid page ok => exact execPrgResponse_acts vh pasid page ok
  | pageRequestTimeout vh pasid page => exact execPageRequestTimeout_acts vh pasid page
  | atsInvalidateRequest vh itag pasid page pages => exact execAtsInvalidateRequest_acts vh itag pasid page pages
  | atsInvalidateComplete vh itag => exact execAtsInvalidateComplete_acts vh itag
  | timeFlitSend port => exact execTimeFlitSend_acts port
  | timeFlitRx port flit => exact execTimeFlitRx_acts port flit
  | gmRoundTick => exact execGmRoundTick_acts
  | gmRecordStale port => exact execGmRecordStale_acts port
  | holdoverExpire => exact execHoldoverExpire_acts
  | ppsInEdge => exact execPpsInEdge_acts
  | ppsInLost => exact execPpsInLost_acts
  | ppsOutSecond => exact execPpsOutSecond_acts
  | setGo => exact execSetGo_acts
  | phaseLoadGo => exact execPhaseLoadGo_acts
  | hznRead => exact execHznRead_acts
  | hznWrite => exact execHznWrite_acts
  | arm => exact execArm_acts
  | disarm => exact execDisarm_acts
  | horizonFire => exact execHorizonFire_acts
  | feedPresentChange feed present => exact execFeedPresentChange_acts feed present
  | feedGood feed => exact execFeedGood_acts feed
  | feedBelowSwLevel => exact execFeedBelowSwLevel_acts
  | switchNow => exact execSwitchNow_acts
  | feedSwitchBack => exact execFeedSwitchBack_acts
  | efuseTrip feed cause peak => exact execEfuseTrip_acts feed cause peak
  | pathOpenConfirmed feed => exact execPathOpenConfirmed_acts feed
  | retryPeriodExpire feed => exact execRetryPeriodExpire_acts feed
  | inrushChargeComplete feed => exact execInrushChargeComplete_acts feed
  | tripClr feed => exact execTripClr_acts feed
  | dipBegin => exact execDipBegin_acts
  | dipEnd minMv => exact execDipEnd_acts minMv
  | throttleEnd => exact execThrottleEnd_acts
  | lossOfSupply => exact execLossOfSupply_acts
  | aonPowerLoss => exact execAonPowerLoss_acts
  | plinkAck dom => exact execPlinkAck_acts dom
  | plinkRequestTimeout dom => exact execPlinkRequestTimeout_acts dom
  | plinkMeasurementReport vinA vinB iinA iinB vbank pIn mj => exact execPlinkMeasurementReport_acts vinA vinB iinA iinB vbank pIn mj
  | pwrReq value => exact execPwrReq_acts value
  | domainTransitionDone dom => exact execDomainTransitionDone_acts dom
  | domainWake dom code => exact execDomainWake_acts dom code
  | spdmGetVersion ep => exact execSpdmGetVersion_acts ep
  | spdmGetCapabilities ep => exact execSpdmGetCapabilities_acts ep
  | spdmNegotiateAlgorithms ep => exact execSpdmNegotiateAlgorithms_acts ep
  | spdmGetDigests ep => exact execSpdmGetDigests_acts ep
  | spdmGetCertificate ep slot offset length => exact execSpdmGetCertificate_acts ep slot offset length
  | spdmChallenge ep slot summary context => exact execSpdmChallenge_acts ep slot summary context
  | spdmGetMeasurements ep op signed context => exact execSpdmGetMeasurements_acts ep op signed context
  | spdmOtherRequest ep code => exact execSpdmOtherRequest_acts ep code
  | setEndpointId ep op eid => exact execSetEndpointId_acts ep op eid
  | getEndpointId ep => exact execGetEndpointId_acts ep
  | getMctpVersionSupport ep type => exact execGetMctpVersionSupport_acts ep type
  | getMessageTypeSupport ep => exact execGetMessageTypeSupport_acts ep
  | doeDiscovery vh index => exact execDoeDiscovery_acts vh index
  | patrolScrub word corrected => exact execPatrolScrub_acts word corrected
  | deviceFaultDetect clock => exact execDeviceFaultDetect_acts clock
  | mpWatchdogMiss uncorr => exact execMpWatchdogMiss_acts uncorr
  | logClr => exact execLogClr_acts
  | rdGo => exact execRdGo_acts
  | agingMeasure roPpm margins => exact execAgingMeasure_acts roPpm margins
  | agingTrendPeriod => exact execAgingTrendPeriod_acts
  | chkGo job => exact execChkGo_acts job
  | chkAbort job bytes data => exact execChkAbort_acts job bytes data
  | chkJobComplete job ended bytes data => exact execChkJobComplete_acts job ended bytes data
  | chkWatchReread job data => exact execChkWatchReread_acts job data
  | thermalSample temps => exact execThermalSample_acts temps
  | thermalThrottleEnd => exact execThermalThrottleEnd_acts
  | deferredWarmReset => exact execDeferredWarmReset_acts
  | vioChange mv => exact execVioChange_acts mv
  | feedNotGood feed => exact execFeedNotGood_acts feed
  | retryAttempt feed => exact execRetryAttempt_acts feed
  | expFlowControlCreditRx port cls hdr data => exact execExpFlowControlCreditRx_acts port cls hdr data
  | hostSliceRegisterWrite vh slice reg value => exact execHostSliceRegisterWrite_acts vh slice reg value

end Sys2Proof.Machine
end

