-- ==== Sys2Proof/Laws/SMap.lean ====
section
/-!
SUPPORT. Sparse tables: reading after writing, and the canonical form that every operation keeps.
-/

namespace Sys2Proof.Machine

variable {α : Type}

theorem smFind_put (m : SMap α) (k j : Nat) (v : α) (h : m.Pairwise (fun a b => a.1 < b.1)) :
    smFind (smPut m k v) j = if j = k then some v else smFind m j := by
  induction m with
  | nil => simp [smPut, smFind, eq_comm]
  | cons e m ih =>
    obtain ⟨i, w⟩ := e
    obtain ⟨hi, hm⟩ := List.pairwise_cons.1 h
    have key : ∀ {x : Nat}, x ≤ i → smFind m x = none := by
      intro x hx
      clear ih h hm
      induction m with
      | nil => rfl
      | cons f m ih =>
        have := hi f (by simp)
        have hf : f.1 ≠ x := by simp only at this; omega
        simp [smFind, hf]
        exact ih (fun g hg => hi g (by simp [hg]))
    simp only [smPut]
    split
    · by_cases hj : j = k
      · subst hj; simp [smFind]
      · simp [smFind, hj, Ne.symm hj]
    · split
      · rename_i h1 h2
        subst h2
        by_cases hj : j = k
        · subst hj; simp [smFind]
        · simp [smFind, hj, Ne.symm hj]
      · rename_i h1 h2
        by_cases hij : i = j
        · subst hij; simp [smFind, Ne.symm h2]
        · simp [smFind, hij, ih hm]

theorem smPut_keys (m : SMap α) (k : Nat) (v : α) (e : Nat × α) (h : e ∈ smPut m k v) : e = (k, v) ∨ e ∈ m := by
  induction m with
  | nil => simpa [smPut] using h
  | cons f m ih =>
    simp only [smPut] at h
    split at h
    · simpa using h
    · split at h
      · rcases List.mem_cons.1 h with h | h
        · exact .inl h
        · exact .inr (by simp [h])
      · rcases List.mem_cons.1 h with h | h
        · exact .inr (by simp [h])
        · rcases ih h with h | h
          · exact .inl h
          · exact .inr (by simp [h])

theorem smPut_sorted (m : SMap α) (k : Nat) (v : α) (h : m.Pairwise (fun a b => a.1 < b.1)) :
    (smPut m k v).Pairwise (fun a b => a.1 < b.1) := by
  induction m with
  | nil => simp [smPut]
  | cons f m ih =>
    obtain ⟨hf, hm⟩ := List.pairwise_cons.1 h
    simp only [smPut]
    split
    · rename_i hk
      refine List.pairwise_cons.2 ⟨?_, h⟩
      intro a ha
      rcases List.mem_cons.1 ha with rfl | ha
      · exact hk
      · exact Nat.lt_trans hk (hf a ha)
    · split
      · rename_i hk
        refine List.pairwise_cons.2 ⟨?_, hm⟩
        intro a ha
        have := hf a ha
        simp only at this ⊢
        omega
      · rename_i h1 h2
        refine List.pairwise_cons.2 ⟨?_, ih hm⟩
        intro a ha
        rcases smPut_keys m k v a ha with rfl | ha
        · simp only; omega
        · exact hf a ha

theorem smErase_sub (m : SMap α) (k : Nat) : (smErase m k).Sublist m := by
  induction m with
  | nil => exact List.Sublist.refl _
  | cons f m ih =>
    simp only [smErase]
    split
    · exact ih.cons _
    · exact ih.cons_cons _

theorem smErase_mem (m : SMap α) (k : Nat) (e : Nat × α) (h : e ∈ smErase m k) : e ∈ m := (smErase_sub m k).subset h

/-- Setting a key keeps the canonical form. -/
theorem smSet_wf [DecidableEq α] (dflt : Nat → α) (m : SMap α) (k : Nat) (v : α) (h : smWf dflt m) : smWf dflt (smSet dflt m k v) := by
  simp only [smSet]
  split
  · exact ⟨h.1.sublist (smErase_sub m k), fun e he => h.2 e (smErase_mem m k e he)⟩
  · rename_i hv
    refine ⟨smPut_sorted m k v h.1, fun e he => ?_⟩
    rcases smPut_keys m k v e he with rfl | he
    · exact hv
    · exact h.2 e he

theorem smFind_erase (m : SMap α) (k j : Nat) : smFind (smErase m k) j = if j = k then none else smFind m j := by
  induction m with
  | nil => simp [smErase, smFind]
  | cons f m ih =>
    obtain ⟨i, w⟩ := f
    simp only [smErase]
    by_cases hik : i = k
    · subst hik
      by_cases hj : j = i
      · subst hj; simp [ih]
      · simp [ih, smFind, hj, Ne.symm hj]
    · by_cases hj : i = j
      · subst hj; simp [hik, smFind]
      · simp [hik, smFind, hj, ih]

/-- Reading after a write: the value written at its key, what stood before elsewhere. -/
theorem smGet_set [DecidableEq α] (dflt : Nat → α) (m : SMap α) (k j : Nat) (v : α) (h : m.Pairwise (fun a b => a.1 < b.1)) :
    smGet dflt (smSet dflt m k v) j = if j = k then v else smGet dflt m j := by
  by_cases hv : v = dflt k
  · simp only [smSet, if_pos hv, smGet, smFind_erase]
    by_cases hj : j = k
    · subst hj; simp [hv]
    · simp [hj]
  · simp only [smSet, if_neg hv, smGet, smFind_put m k j v h]
    by_cases hj : j = k <;> simp [hj]

theorem smGet_put (dflt : Nat → α) (m : SMap α) (k j : Nat) (v : α) (h : m.Pairwise (fun a b => a.1 < b.1)) :
    smGet dflt (smPut m k v) j = if j = k then v else smGet dflt m j := by
  simp only [smGet, smFind_put m k j v h]
  by_cases hj : j = k <;> simp [hj]

/-- A filter keeps the canonical form. -/
theorem smWf_filter (dflt : Nat → α) (m : SMap α) (p : Nat × α → Bool) (h : smWf dflt m) : smWf dflt (m.filter p) :=
  ⟨h.1.sublist List.filter_sublist, fun e he => h.2 e (List.mem_filter.1 he).1⟩

end Sys2Proof.Machine
end

