-- ==== Sys2Proof/Laws/Eff.lean ====
section
/-!
SUPPORT. What a function of the model can do to the block, said once: `Eff t a b` says that `b` comes from `a` by steps that touch only
parts in the set `t`. Part n is bit n: 0 regs, 1 mem, 2 out, 3 freeCtr, 4 mg, 5 boot, 6 otp, 7 sec, 8 log, 9 chk, 10 fd, 11 pw, 12 th, 13 cmp,
14 sens, 15 net, 16 eng, 17 coll, 18 sw, 19 the reset of the whole block. The lemmas at the end draw from it which parts are unchanged, that
the canonical forms are kept, and how the trace, the free values and local time move.
-/

namespace Sys2Proof.Machine

/-- One change of one part. -/
inductive Prim : Nat → Dev → Dev → Prop
  | word (d : Dev) (a : Nat) (w : Word) : Prim 0 d (setWord a w d)
  | mem (d : Dev) (a : Nat) (b : Byte) : Prim 1 d (memWrite a b d)
  | lose (d : Dev) (p : Host.Cell → Bool) : Prim 1 d { d with mem := d.mem.filter p }
  | out (d : Dev) (e : Emission) : Prim 2 d { d with out := e :: d.out }
  | free (d : Dev) : Prim 3 d { d with freeCtr := d.freeCtr + 1 }
  | mg (d : Dev) (x : Mgmt) : Prim 4 d { d with mg := x }
  | boot (d : Dev) (x : Boot) : Prim 5 d { d with boot := x }
  | otp (d : Dev) (x : Otp) (h : otpRises d.otp x) : Prim 6 d { d with otp := x }
  | sec (d : Dev) (x : Sec) : Prim 7 d { d with sec := x }
  | log (d : Dev) (x : Log) : Prim 8 d { d with log := x }
  | chk (d : Dev) (x : SMap ChkJob) : Prim 9 d { d with chk := x }
  | fd (d : Dev) (x : Feeds) : Prim 10 d { d with fd := x }
  | pw (d : Dev) (x : Power) : Prim 11 d { d with pw := x }
  | th (d : Dev) (x : TimeHzn) (h : x.localNs = d.th.localNs) : Prim 12 d { d with th := x }
  | cmp (d : Dev) (x : Composite) : Prim 13 d { d with cmp := x }
  | sens (d : Dev) (x : Sensors) : Prim 14 d { d with sens := x }
  | net (d : Dev) (x : Net) : Prim 15 d { d with net := x }
  | eng (d : Dev) (x : Eng) : Prim 16 d { d with eng := x }
  | coll (d : Dev) (x : Coll) : Prim 17 d { d with coll := x }
  | sw (d : Dev) (x : Sw) : Prim 18 d { d with sw := x }
  | reset (d : Dev) (k : Nat) : Prim 19 d (resetDev k d)

/-- Changes of parts in a set, one after another. -/
inductive Eff (t : Nat) : Dev → Dev → Prop
  | refl (d : Dev) : Eff t d d
  | tail {a b c : Dev} {i : Nat} (h : Eff t a b) (p : Prim i b c) (hi : t.testBit i = true) : Eff t a c

theorem Eff.rfl' {t : Nat} {d : Dev} : Eff t d d := .refl d

theorem Eff.trans {t : Nat} {a b c : Dev} (h : Eff t a b) (g : Eff t b c) : Eff t a c := by
  induction g with
  | refl => exact h
  | tail _ p hi ih => exact .tail ih p hi

/-- A set lies within another. -/
def Sub (u t : Nat) : Prop := u &&& t = u

theorem Sub.self (t : Nat) : Sub t t := Nat.and_self t

theorem Sub.bit {u t i : Nat} (h : Sub u t) (hi : u.testBit i = true) : t.testBit i = true := by
  have : (u &&& t).testBit i = true := by rw [h]; exact hi
  rw [Nat.testBit_and] at this
  simp_all

theorem Sub.trans {u t s : Nat} (h : Sub u t) (g : Sub t s) : Sub u s := by
  apply Nat.eq_of_testBit_eq
  intro i
  rw [Nat.testBit_and]
  cases hu : u.testBit i
  · rfl
  · simp [g.bit (h.bit hu)]

theorem Sub.via {u t s : Nat} (g : Sub t s) (h : Sub u t) : Sub u s := h.trans g

theorem Eff.mono {u t : Nat} {a b : Dev} (s : Sub u t) (h : Eff u a b) : Eff t a b := by
  induction h with
  | refl => exact .refl _
  | tail _ p hi ih => exact .tail ih p (s.bit hi)

/-- Goes on by a function whose effect is known. -/
theorem Eff.then {u t : Nat} {a b c : Dev} (h : Eff t a b) (g : Eff u b c) (s : Sub u t) : Eff t a c := h.trans (g.mono s)

theorem Sub.of {u t : Nat} (h : u &&& t = u) : Sub u t := h

/-- A part lies in a set. -/
def Has (t i : Nat) : Prop := t.testBit i = true

theorem Has.of {t i : Nat} (h : t.testBit i = true) : Has t i := h

theorem Has.via {u t i : Nat} (g : Sub u t) (h : Has u i) : Has t i := g.bit h

/-- As `Eff.trans`, the last part first. -/
theorem Eff.seq {t : Nat} {a b c : Dev} (g : Eff t b c) (h : Eff t a b) : Eff t a c := h.trans g

/-- As `Eff.then`, the last step first. -/
theorem Eff.step {u t : Nat} {a b c : Dev} (g : Eff u b c) (s : Sub u t) (h : Eff t a b) : Eff t a c := h.trans (g.mono s)

/-- As `Eff.prim`, the last step first. -/
theorem Eff.last {t i : Nat} {a b c : Dev} (p : Prim i b c) (hi : Has t i) (h : Eff t a b) : Eff t a c := .tail h p hi

/-- Goes on by one change of a part. -/
theorem Eff.prim {t i : Nat} {a b c : Dev} (h : Eff t a b) (p : Prim i b c) (hi : t.testBit i = true) : Eff t a c := .tail h p hi

theorem ite_eff {t : Nat} {a x y : Dev} {c : Prop} [Decidable c] (h : Eff t a x) (g : Eff t a y) : Eff t a (if c then x else y) := by
  split <;> assumption

theorem ite_snd {α : Type} {t : Nat} {a : Dev} {x y : α × Dev} {c : Prop} [Decidable c] (h : Eff t a x.2) (g : Eff t a y.2) :
    Eff t a (if c then x else y).2 := by
  split <;> assumption

theorem ite_fst {α : Type} {t : Nat} {a : Dev} {x y : Dev × α} {c : Prop} [Decidable c] (h : Eff t a x.1) (g : Eff t a y.1) :
    Eff t a (if c then x else y).1 := by
  split <;> assumption

theorem ite_snd4 {α β γ : Type} {t : Nat} {a : Dev} {x y : α × β × γ × Dev} {c : Prop} [Decidable c] (h : Eff t a x.2.2.2) (g : Eff t a y.2.2.2) :
    Eff t a (if c then x else y).2.2.2 := by
  split <;> assumption

theorem ite_opt {t : Nat} {a : Dev} {x y : Option Dev} {c : Prop} [Decidable c] (h : ∀ z, x = some z → Eff t a z)
    (g : ∀ z, y = some z → Eff t a z) : ∀ z, (if c then x else y) = some z → Eff t a z := by
  split <;> assumption

/-- The block within a pair that a call answered. -/
theorem eff_snd {α : Type} {u : Nat} {b y : Dev} {p : α × Dev} {x : α} (h : p = (x, y)) (g : Eff u b p.2) : Eff u b y := by
  subst h; exact g

theorem eff_fst {α : Type} {u : Nat} {b y : Dev} {p : Dev × α} {x : α} (h : p = (y, x)) (g : Eff u b p.1) : Eff u b y := by
  subst h; exact g

theorem eff_snd3 {α β : Type} {u : Nat} {b y : Dev} {p : α × β × Dev} {x : α} {w : β} (h : p = (x, w, y)) (g : Eff u b p.2.2) : Eff u b y := by
  subst h; exact g

theorem eff_snd4 {α β γ : Type} {u : Nat} {b y : Dev} {p : α × β × γ × Dev} {x : α} {w : β} {v : γ} (h : p = (x, w, v, y))
    (g : Eff u b p.2.2.2) : Eff u b y := by
  subst h; exact g

theorem eff_snd5 {α β γ δ : Type} {u : Nat} {b y : Dev} {p : α × β × γ × δ × Dev} {x : α} {w : β} {v : γ} {z : δ} (h : p = (x, w, v, z, y))
    (g : Eff u b p.2.2.2.2) : Eff u b y := by
  subst h; exact g

theorem eff_some {u : Nat} {b y : Dev} {p : Option Dev} (h : p = some y) (g : ∀ z, p = some z → Eff u b z) : Eff u b y := g y h

theorem onlyIf_eff {t : Nat} {a d : Dev} {c : Bool} {f : Dev → Dev} (h : Eff t a d) (hf : ∀ d, Eff t d (f d)) : Eff t a (onlyIf c f d) := by
  unfold onlyIf
  split
  · exact h.trans (hf d)
  · exact h

theorem forEach_eff {α : Type} {t : Nat} {a d : Dev} {l : List α} {f : α → Dev → Dev} (h : Eff t a d) (hf : ∀ x d, Eff t d (f x d)) :
    Eff t a (forEach l f d) := by
  unfold forEach
  induction l generalizing d with
  | nil => exact h
  | cons x l ih => exact ih (h.trans (hf x d))

theorem foldl_eff {α : Type} {t : Nat} {a d : Dev} {l : List α} {f : Dev → α → Dev} (h : Eff t a d) (hf : ∀ d x, Eff t d (f d x)) :
    Eff t a (l.foldl f d) := by
  induction l generalizing d with
  | nil => exact h
  | cons x l ih => exact ih (h.trans (hf d x))

theorem forEach_mem_eff {α : Type} {t : Nat} {a d : Dev} {l : List α} {f : α → Dev → Dev} (h : Eff t a d) (hf : ∀ x ∈ l, ∀ d, Eff t d (f x d)) :
    Eff t a (forEach l f d) := by
  unfold forEach
  induction l generalizing d with
  | nil => exact h
  | cons x l ih => exact ih (h.trans (hf x (.head _) d)) (fun y hy => hf y (.tail _ hy))

/-- Every function of a list of starts touches only parts in a set. -/
def AllEff (t : Nat) (l : List (Nat × (Dev → Dev))) : Prop := ∀ x ∈ l, ∀ d, Eff t d (x.2 d)

theorem AllEff.nil {t : Nat} : AllEff t [] := fun _ h => nomatch h

theorem AllEff.cons {t b : Nat} {f : Dev → Dev} {l : List (Nat × (Dev → Dev))} (h : ∀ d, Eff t d (f d)) (g : AllEff t l) : AllEff t ((b, f) :: l) := by
  intro x hx d
  cases hx with
  | head => exact h d
  | tail _ hx => exact g x hx d

theorem AllEff.ite {t : Nat} {x y : List (Nat × (Dev → Dev))} {c : Prop} [Decidable c] (h : AllEff t x) (g : AllEff t y) :
    AllEff t (if c then x else y) := by
  split <;> assumption

theorem AllEff.map {t : Nat} {l : List Nat} {f : Nat → Dev → Dev} (h : ∀ b d, Eff t d (f b d)) : AllEff t (l.map (fun b => (b, f b))) := by
  intro x hx d
  obtain ⟨b, _, rfl⟩ := List.mem_map.mp hx
  exact h b d

theorem AllEff.append {t : Nat} {x y : List (Nat × (Dev → Dev))} (h : AllEff t x) (g : AllEff t y) : AllEff t (x ++ y) := by
  intro z hz d
  cases List.mem_append.mp hz with
  | inl k => exact h z k d
  | inr k => exact g z k d

/-- A command answers a next state with the same queue, and touched only parts in a set. -/
def Ran (t : Nat) (s : State) (o : Out) : Prop := ∃ d, o = .next { s with dev := d } ∧ Eff t s.dev d

theorem onDev_ran {t : Nat} {f : Dev → Dev} {s : State} (h : ∀ d, Eff t d (f d)) : Ran t s (onDev f s) := ⟨f s.dev, rfl, h s.dev⟩

theorem ite_ran {t : Nat} {s : State} {x y : Out} {c : Prop} [Decidable c] (h : Ran t s x) (g : Ran t s y) : Ran t s (if c then x else y) := by
  split <;> assumption

end Sys2Proof.Machine
end

