-- ==== Sys2Proof/Laws/EffOps.lean ====
section
/-!
SUPPORT. What each function of Machine/Ops.lean can change.
-/

namespace Sys2Proof.Machine

theorem setWord_eff (a : Nat) (w : Word) (d : Dev) : Eff 0x1 d (setWord a w d) := .prim (.refl d) (.word d a w) rfl

theorem wrI_eff (f : Fld) (inst idx v : Nat) (d : Dev) : Eff 0x1 d (wrI f inst idx v d) := by
  unfold wrI
  try dsimp only
  repeat' first
    | with_reducible apply Eff.refl | with_reducible assumption | (apply Sub.of; rfl) | (apply Has.of; rfl) | intro _ | with_reducible apply ite_eff
    | (with_reducible apply Eff.step; with_reducible apply setWord_eff) | split | dsimp only [id]

theorem wr_eff (f : Fld) (inst v : Nat) (d : Dev) : Eff 0x1 d (wr f inst v d) := by
  unfold wr
  try dsimp only
  repeat' first
    | with_reducible apply Eff.refl | with_reducible assumption | (apply Sub.of; rfl) | (apply Has.of; rfl) | intro _ | with_reducible apply ite_eff
    | (with_reducible apply Eff.step; with_reducible apply wrI_eff) | split | dsimp only [id]

theorem hwr_eff (f : Fld) (ty inst v : Nat) (d : Dev) : Eff 0x1 d (hwr f ty inst v d) := by
  unfold hwr
  try dsimp only
  repeat' first
    | with_reducible apply Eff.refl | with_reducible assumption | (apply Sub.of; rfl) | (apply Has.of; rfl) | intro _ | with_reducible apply ite_eff
    | (with_reducible apply Eff.step; with_reducible apply wr_eff) | split | dsimp only [id]

theorem wr2_eff (lo hi : Fld) (inst idx v : Nat) (d : Dev) : Eff 0x1 d (wr2 lo hi inst idx v d) := by
  unfold wr2
  try dsimp only
  repeat' first
    | with_reducible apply Eff.refl | with_reducible assumption | (apply Sub.of; rfl) | (apply Has.of; rfl) | intro _ | with_reducible apply ite_eff
    | (with_reducible apply Eff.step; with_reducible apply wrI_eff) | split | dsimp only [id]

theorem takeFree_eff (d : Dev) : Eff 0x8 d (takeFree d) := by
  unfold takeFree
  try dsimp only
  repeat' first
    | with_reducible apply Eff.refl | with_reducible assumption | (apply Sub.of; rfl) | (apply Has.of; rfl) | intro _ | with_reducible apply ite_eff
    | (with_reducible apply Eff.last; with_reducible apply Prim.free) | split | dsimp only [id]

theorem wrFitI_eff (f : Fld) (inst idx v : Nat) (d : Dev) : Eff 0x9 d (wrFitI f inst idx v d) := by
  unfold wrFitI
  try dsimp only
  repeat' first
    | with_reducible apply Eff.refl | with_reducible assumption | (apply Sub.of; rfl) | (apply Has.of; rfl) | intro _ | with_reducible apply ite_eff
    | (with_reducible apply Eff.step; with_reducible apply wrI_eff) | (with_reducible apply Eff.step; with_reducible apply takeFree_eff) | split
    | dsimp only [id]

theorem wrFit_eff (f : Fld) (inst v : Nat) (d : Dev) : Eff 0x9 d (wrFit f inst v d) := by
  unfold wrFit
  try dsimp only
  repeat' first
    | with_reducible apply Eff.refl | with_reducible assumption | (apply Sub.of; rfl) | (apply Has.of; rfl) | intro _ | with_reducible apply ite_eff
    | (with_reducible apply Eff.step; with_reducible apply wrFitI_eff) | split | dsimp only [id]

theorem addI_eff (f : Fld) (inst idx n : Nat) (d : Dev) : Eff 0x9 d (addI f inst idx n d) := by
  unfold addI
  try dsimp only
  repeat' first
    | with_reducible apply Eff.refl | with_reducible assumption | (apply Sub.of; rfl) | (apply Has.of; rfl) | intro _ | with_reducible apply ite_eff
    | (with_reducible apply Eff.step; with_reducible apply wrI_eff) | (with_reducible apply Eff.step; with_reducible apply takeFree_eff) | split
    | dsimp only [id]

theorem bump_eff (f : Fld) (inst : Nat) (d : Dev) : Eff 0x9 d (bump f inst d) := by
  unfold bump
  try dsimp only
  repeat' first
    | with_reducible apply Eff.refl | with_reducible assumption | (apply Sub.of; rfl) | (apply Has.of; rfl) | intro _ | with_reducible apply ite_eff
    | (with_reducible apply Eff.step; with_reducible apply addI_eff) | split | dsimp only [id]

theorem addSat_eff (f : Fld) (inst idx n : Nat) (d : Dev) : Eff 0x1 d (addSat f inst idx n d) := by
  unfold addSat
  try dsimp only
  repeat' first
    | with_reducible apply Eff.refl | with_reducible assumption | (apply Sub.of; rfl) | (apply Has.of; rfl) | intro _ | with_reducible apply ite_eff
    | (with_reducible apply Eff.step; with_reducible apply wrI_eff) | split | dsimp only [id]

theorem addMod_eff (f : Fld) (inst idx n : Nat) (d : Dev) : Eff 0x1 d (addMod f inst idx n d) := by
  unfold addMod
  try dsimp only
  repeat' first
    | with_reducible apply Eff.refl | with_reducible assumption | (apply Sub.of; rfl) | (apply Has.of; rfl) | intro _ | with_reducible apply ite_eff
    | (with_reducible apply Eff.step; with_reducible apply wrI_eff) | split | dsimp only [id]

theorem emit_eff (c : Chan) (fields : List Nat) (bytes : List Byte) (d : Dev) : Eff 0x4 d (emit c fields bytes d) := by
  unfold emit
  try dsimp only
  repeat' first
    | with_reducible apply Eff.refl | with_reducible assumption | (apply Sub.of; rfl) | (apply Has.of; rfl) | intro _ | with_reducible apply ite_eff
    | (with_reducible apply Eff.last; with_reducible apply Prim.out) | split | dsimp only [id]

theorem pushEntry_eff (e : LogEntry) (d : Dev) : Eff 0x109 d (pushEntry e d) := by
  unfold pushEntry
  try dsimp only
  repeat' first
    | with_reducible apply Eff.refl | with_reducible assumption | (apply Sub.of; rfl) | (apply Has.of; rfl) | intro _ | with_reducible apply ite_eff
    | (with_reducible apply Eff.step; with_reducible apply addMod_eff) | (with_reducible apply Eff.step; with_reducible apply bump_eff)
    | (with_reducible apply Eff.last; with_reducible apply Prim.log) | split | dsimp only [id]

theorem logWrite_eff (code inst : Nat) (det0 det1 : Word) (injected cfg : Bool) (d : Dev) : Eff 0x109 d (logWrite code inst det0 det1 injected cfg d) := by
  unfold logWrite
  try dsimp only
  repeat' first
    | with_reducible apply Eff.refl | with_reducible assumption | (apply Sub.of; rfl) | (apply Has.of; rfl) | intro _ | with_reducible apply ite_eff
    | (with_reducible apply Eff.step; with_reducible apply bump_eff) | (with_reducible apply Eff.step; with_reducible apply pushEntry_eff)
    | (with_reducible apply Eff.last; with_reducible apply Prim.log) | split | dsimp only [id]

theorem setSlotLvl_eff (k w : Nat) (d : Dev) : Eff 0x4000 d (setSlotLvl k w d) := by
  unfold setSlotLvl
  try dsimp only
  repeat' first
    | with_reducible apply Eff.refl | with_reducible assumption | (apply Sub.of; rfl) | (apply Has.of; rfl) | intro _ | with_reducible apply ite_eff
    | (with_reducible apply Eff.last; with_reducible apply Prim.sens) | split | dsimp only [id]

theorem setHostLvl_eff (k w : Nat) (d : Dev) : Eff 0x4000 d (setHostLvl k w d) := by
  unfold setHostLvl
  try dsimp only
  repeat' first
    | with_reducible apply Eff.refl | with_reducible assumption | (apply Sub.of; rfl) | (apply Has.of; rfl) | intro _ | with_reducible apply ite_eff
    | (with_reducible apply Eff.last; with_reducible apply Prim.sens) | split | dsimp only [id]

theorem raiseIbi_eff (d : Dev) : Eff 0x14 d (raiseIbi d) := by
  unfold raiseIbi
  try dsimp only
  repeat' first
    | with_reducible apply Eff.refl | with_reducible assumption | (apply Sub.of; rfl) | (apply Has.of; rfl) | intro _ | with_reducible apply ite_eff
    | (with_reducible apply Eff.step; with_reducible apply emit_eff) | (with_reducible apply Eff.last; with_reducible apply Prim.mg) | split
    | dsimp only [id]

theorem deliver_eff (code ty inst : Nat) (d : Dev) : Eff 0x14 d (deliver code ty inst d) := by
  unfold deliver
  try dsimp only
  repeat' first
    | with_reducible apply Eff.refl | with_reducible assumption | (apply Sub.of; rfl) | (apply Has.of; rfl) | intro _ | with_reducible apply ite_eff
    | (with_reducible apply Eff.step; with_reducible apply emit_eff) | (with_reducible apply Eff.step; with_reducible apply raiseIbi_eff)
    | (with_reducible apply Eff.last; with_reducible apply Prim.mg) | split | dsimp only [id]

theorem riseBit_eff (ty inst bit code : Nat) (d : Dev) : Eff 0x15 d (riseBit ty inst bit code d) := by
  unfold riseBit
  try dsimp only
  repeat' first
    | with_reducible apply Eff.refl | with_reducible assumption | (apply Sub.of; rfl) | (apply Has.of; rfl) | intro _ | with_reducible apply ite_eff
    | (with_reducible apply Eff.step; with_reducible apply hwr_eff) | (with_reducible apply Eff.step; with_reducible apply deliver_eff) | split
    | dsimp only [id]

theorem rise_eff (ty inst bit code : Nat) (det0 det1 : Word) (injected cfg : Bool) (d : Dev) : Eff 0x11d d (rise ty inst bit code det0 det1 injected cfg d) := by
  unfold rise
  try dsimp only
  repeat' first
    | with_reducible apply Eff.refl | with_reducible assumption | (apply Sub.of; rfl) | (apply Has.of; rfl) | intro _ | with_reducible apply ite_eff
    | (with_reducible apply Eff.step; with_reducible apply riseBit_eff) | (with_reducible apply Eff.step; with_reducible apply logWrite_eff) | split
    | dsimp only [id]

theorem logAlarms_eff {a : Dev} (before after : Dev) (h : Eff 0x11d a after) : Eff 0x11d a (logAlarms before after) := by
  unfold logAlarms
  try dsimp only
  repeat' first
    | with_reducible apply Eff.refl | with_reducible assumption | (apply Sub.of; rfl) | (apply Has.of; rfl) | intro _ | (with_reducible apply onlyIf_eff)
    | (with_reducible apply Eff.step; with_reducible apply rise_eff) | (with_reducible apply Eff.last; with_reducible apply Prim.log)

theorem raiseDet_eff (e : Ev) (inst : Nat) (det0 det1 : Word) (d : Dev) : Eff 0x11d d (raiseDet e inst det0 det1 d) := by
  unfold raiseDet
  try dsimp only
  repeat' first
    | with_reducible apply Eff.refl | with_reducible assumption | (apply Sub.of; rfl) | (apply Has.of; rfl) | intro _ | with_reducible apply ite_eff
    | (with_reducible apply logAlarms_eff) | (with_reducible apply Eff.step; with_reducible apply rise_eff) | split | dsimp only [id]

theorem raise_eff (e : Ev) (inst : Nat) (d : Dev) : Eff 0x11d d (raise e inst d) := by
  unfold raise
  try dsimp only
  repeat' first
    | with_reducible apply Eff.refl | with_reducible assumption | (apply Sub.of; rfl) | (apply Has.of; rfl) | intro _ | with_reducible apply ite_eff
    | (with_reducible apply Eff.step; with_reducible apply raiseDet_eff) | split | dsimp only [id]

theorem logNote_eff (code inst : Nat) (det0 det1 : Word) (d : Dev) : Eff 0x11d d (logNote code inst det0 det1 d) := by
  unfold logNote
  try dsimp only
  repeat' first
    | with_reducible apply Eff.refl | with_reducible assumption | (apply Sub.of; rfl) | (apply Has.of; rfl) | intro _ | with_reducible apply ite_eff
    | (with_reducible apply logAlarms_eff) | (with_reducible apply Eff.step; with_reducible apply logWrite_eff) | split | dsimp only [id]

theorem raiseCommitDone_eff (ty inst : Nat) (d : Dev) : Eff 0x11d d (raiseCommitDone ty inst d) := by
  unfold raiseCommitDone
  try dsimp only
  repeat' first
    | with_reducible apply Eff.refl | with_reducible assumption | (apply Sub.of; rfl) | (apply Has.of; rfl) | intro _ | with_reducible apply ite_eff
    | (with_reducible apply logAlarms_eff) | (with_reducible apply Eff.step; with_reducible apply rise_eff) | split | dsimp only [id]

theorem raiseResetDone_eff (ty inst : Nat) (d : Dev) : Eff 0x11d d (raiseResetDone ty inst d) := by
  unfold raiseResetDone
  try dsimp only
  repeat' first
    | with_reducible apply Eff.refl | with_reducible assumption | (apply Sub.of; rfl) | (apply Has.of; rfl) | intro _ | with_reducible apply ite_eff
    | (with_reducible apply logAlarms_eff) | (with_reducible apply Eff.step; with_reducible apply rise_eff) | split | dsimp only [id]

theorem recordFirst_eff (ty inst off code : Nat) (d : Dev) : Eff 0x1 d (recordFirst ty inst off code d) := by
  unfold recordFirst
  try dsimp only
  repeat' first
    | with_reducible apply Eff.refl | with_reducible assumption | (apply Sub.of; rfl) | (apply Has.of; rfl) | intro _ | with_reducible apply ite_eff
    | (with_reducible apply Eff.step; with_reducible apply hwr_eff) | split | dsimp only [id]

theorem countRefusal_eff (d : Dev) : Eff 0x10 d (countRefusal d) := by
  unfold countRefusal
  try dsimp only
  repeat' first
    | with_reducible apply Eff.refl | with_reducible assumption | (apply Sub.of; rfl) | (apply Has.of; rfl) | intro _ | with_reducible apply ite_eff
    | (with_reducible apply Eff.last; with_reducible apply Prim.mg) | split | dsimp only [id]

theorem cfgErr_eff (ty inst off code : Nat) (val : Word) (d : Dev) : Eff 0x11d d (cfgErr ty inst off code val d) := by
  unfold cfgErr
  try dsimp only
  repeat' first
    | with_reducible apply Eff.refl | with_reducible assumption | (apply Sub.of; rfl) | (apply Has.of; rfl) | intro _ | with_reducible apply ite_eff
    | (with_reducible apply logAlarms_eff) | (with_reducible apply Eff.step; with_reducible apply countRefusal_eff)
    | (with_reducible apply Eff.step; with_reducible apply recordFirst_eff) | (with_reducible apply Eff.step; with_reducible apply wr_eff)
    | (with_reducible apply Eff.step; with_reducible apply rise_eff) | split | dsimp only [id]

theorem dropWrite_eff (d : Dev) : Eff 0x9 d (dropWrite d) := by
  unfold dropWrite
  try dsimp only
  repeat' first
    | with_reducible apply Eff.refl | with_reducible assumption | (apply Sub.of; rfl) | (apply Has.of; rfl) | intro _ | with_reducible apply ite_eff
    | (with_reducible apply Eff.step; with_reducible apply bump_eff) | split | dsimp only [id]

theorem holdEntry_eff (h : HeldWrite) (d : Dev) : Eff 0x11d d (holdEntry h d) := by
  unfold holdEntry
  try dsimp only
  repeat' first
    | with_reducible apply Eff.refl | with_reducible assumption | (apply Sub.of; rfl) | (apply Has.of; rfl) | intro _ | with_reducible apply ite_eff
    | (with_reducible apply Eff.step; with_reducible apply dropWrite_eff) | (with_reducible apply Eff.step; with_reducible apply raise_eff)
    | (with_reducible apply Eff.last; with_reducible apply Prim.mg) | split | dsimp only [id]

theorem holdWrite_eff (dom addr : Nat) (val : Word) (bcast : Bool) (d : Dev) : Eff 0x11d d (holdWrite dom addr val bcast d) := by
  unfold holdWrite
  try dsimp only
  repeat' first
    | with_reducible apply Eff.refl | with_reducible assumption | (apply Sub.of; rfl) | (apply Has.of; rfl) | intro _ | with_reducible apply ite_eff
    | (with_reducible apply Eff.step; with_reducible apply holdEntry_eff) | split | dsimp only [id]

theorem dropOff_eff (bcast : Bool) (d : Dev) : Eff 0x11d d (dropOff bcast d) := by
  unfold dropOff
  try dsimp only
  repeat' first
    | with_reducible apply Eff.refl | with_reducible assumption | (apply Sub.of; rfl) | (apply Has.of; rfl) | intro _ | with_reducible apply ite_eff
    | (with_reducible apply Eff.step; with_reducible apply bump_eff) | (with_reducible apply Eff.step; with_reducible apply dropWrite_eff)
    | (with_reducible apply Eff.step; with_reducible apply raise_eff) | split | dsimp only [id]

theorem serve_eff {t : Nat} {a : Dev} (ty inst off : Nat) (val : Word) (bcast : Bool) (act : Dev → Dev) (d : Dev) (h : Eff t a d) (ha : ∀ d, Eff t d (act d)) (s : Sub 0x11d t) :
    Eff t a (serve ty inst off val bcast act d) := by
  unfold serve
  repeat' first
    | with_reducible assumption | (with_reducible apply Eff.trans h; with_reducible apply ha) | with_reducible apply ite_eff | (apply Sub.via s; apply Sub.of; rfl) | (with_reducible apply Eff.step; with_reducible apply dropWrite_eff)
    | (with_reducible apply Eff.step; with_reducible apply dropOff_eff) | (with_reducible apply Eff.step; with_reducible apply holdWrite_eff) | split | dsimp only

theorem mgmtWrite_eff {t : Nat} {a : Dev} (ty inst off : Nat) (val : Word) (act : Dev → Dev) (d : Dev) (h : Eff t a d) (ha : ∀ d, Eff t d (act d)) (s : Sub 0x11d t) :
    Eff t a (mgmtWrite ty inst off val act d) := by
  unfold mgmtWrite
  repeat' first
    | with_reducible assumption | (apply Sub.via s; apply Sub.of; rfl) | (with_reducible apply Eff.step; with_reducible apply dropWrite_eff)
    | (with_reducible apply serve_eff) | split

theorem unlessLocked_eff {t : Nat} {a : Dev} (ty inst off : Nat) (val : Word) (act : Dev → Dev) (d : Dev) (h : Eff t a d) (ha : ∀ d, Eff t d (act d)) (s : Sub 0x11d t) :
    Eff t a (unlessLocked ty inst off val act d) := by
  unfold unlessLocked
  repeat' first
    | with_reducible assumption | (with_reducible apply Eff.trans h; with_reducible apply ha) | with_reducible apply ite_eff | (apply Sub.via s; apply Sub.of; rfl) | (with_reducible apply Eff.step; with_reducible apply cfgErr_eff) | split

theorem trigger_eff {t : Nat} {a : Dev} (ty inst off bit : Nat) (act : Word → Dev → Dev) (d : Dev) (h : Eff t a d) (ha : ∀ w d, Eff t d (act w d)) (s : Sub 0x11d t) :
    Eff t a (trigger ty inst off bit act d) := by
  unfold trigger
  exact mgmtWrite_eff _ _ _ _ _ _ h (fun d => unlessLocked_eff _ _ _ _ _ d (.refl d) (ha _) s) s

theorem memWrite_eff (a : Nat) (b : Byte) (d : Dev) : Eff 0x2 d (memWrite a b d) := .prim (.refl d) (.mem d a b) rfl

theorem memWrites_eff (a : Nat) (bs : List Byte) (d : Dev) : Eff 0x2 d (memWrites a bs d) := by
  induction bs generalizing a d with
  | nil => exact .refl d
  | cons b bs ih => exact (memWrite_eff a b d).trans (ih (a + 1) _)

end Sys2Proof.Machine
end

