-- ==== Sys2Proof/Laws/EffPowerOps.lean ====
section
/-!
SUPPORT. What each function of Machine/PowerOps.lean can change.
-/

namespace Sys2Proof.Machine

theorem dropTr_eff (dom : Nat) (d : Dev) : Eff 0x800 d (dropTr dom d) := by
  unfold dropTr
  try dsimp only
  repeat' first
    | with_reducible apply Eff.refl | with_reducible assumption | (apply Sub.of; rfl) | (apply Has.of; rfl) | intro _ | with_reducible apply ite_eff
    | (with_reducible apply Eff.last; with_reducible apply Prim.pw) | split | dsimp only [id]

theorem putTr_eff (t : DomTr) (d : Dev) : Eff 0x800 d (putTr t d) := by
  unfold putTr
  try dsimp only
  repeat' first
    | with_reducible apply Eff.refl | with_reducible assumption | (apply Sub.of; rfl) | (apply Has.of; rfl) | intro _ | with_reducible apply ite_eff
    | (with_reducible apply Eff.last; with_reducible apply Prim.pw) | split | dsimp only [id]

theorem refuseDom_eff (aborted : Bool) (dom target refuser : Nat) (d : Dev) : Eff 0x11d d (refuseDom aborted dom target refuser d) := by
  unfold refuseDom
  try dsimp only
  repeat' first
    | with_reducible apply Eff.refl | with_reducible assumption | (apply Sub.of; rfl) | (apply Has.of; rfl) | intro _ | with_reducible apply ite_eff
    | (with_reducible apply Eff.step; with_reducible apply addI_eff) | (with_reducible apply Eff.step; with_reducible apply wrI_eff)
    | (with_reducible apply Eff.step; with_reducible apply raiseDet_eff) | split | dsimp only [id]

theorem enterState_eff (dom st : Nat) (d : Dev) : Eff 0x801 d (enterState dom st d) := by
  unfold enterState
  try dsimp only
  repeat' first
    | with_reducible apply Eff.refl | with_reducible assumption | (apply Sub.of; rfl) | (apply Has.of; rfl) | intro _ | with_reducible apply ite_eff
    | (with_reducible apply Eff.step; with_reducible apply wrI_eff) | (with_reducible apply Eff.last; with_reducible apply Prim.pw) | split
    | dsimp only [id]

theorem countLeave_eff (dom : Nat) (d : Dev) : Eff 0x9 d (countLeave dom d) := by
  unfold countLeave
  try dsimp only
  repeat' first
    | with_reducible apply Eff.refl | with_reducible assumption | (apply Sub.of; rfl) | (apply Has.of; rfl) | intro _ | with_reducible apply ite_eff
    | (with_reducible apply Eff.step; with_reducible apply addI_eff) | split | dsimp only [id]

theorem railRequest_eff (dom target : Nat) (d : Dev) : Eff 0x4 d (railRequest dom target d) := by
  unfold railRequest
  try dsimp only
  repeat' first
    | with_reducible apply Eff.refl | with_reducible assumption | (apply Sub.of; rfl) | (apply Has.of; rfl) | intro _ | with_reducible apply ite_eff
    | (with_reducible apply Eff.step; with_reducible apply emit_eff) | split | dsimp only [id]

theorem startTr_eff (dom target : Nat) (d : Dev) : Eff 0x80d d (startTr dom target d) := by
  unfold startTr
  try dsimp only
  repeat' first
    | with_reducible apply Eff.refl | with_reducible assumption | (apply Sub.of; rfl) | (apply Has.of; rfl) | intro _ | with_reducible apply ite_eff
    | (with_reducible apply onlyIf_eff) | (with_reducible apply Eff.step; with_reducible apply countLeave_eff)
    | (with_reducible apply Eff.step; with_reducible apply wrI_eff) | (with_reducible apply Eff.step; with_reducible apply putTr_eff)
    | (with_reducible apply Eff.step; with_reducible apply railRequest_eff) | split | dsimp only [id]

theorem drainDone_eff (dom : Nat) (d : Dev) : Eff 0x804 d (drainDone dom d) := by
  unfold drainDone
  try dsimp only
  repeat' first
    | with_reducible apply Eff.refl | with_reducible assumption | (apply Sub.of; rfl) | (apply Has.of; rfl) | intro _ | with_reducible apply ite_eff
    | (with_reducible apply Eff.step; with_reducible apply putTr_eff) | (with_reducible apply Eff.step; with_reducible apply railRequest_eff) | split
    | dsimp only [id]

theorem clearPend_eff (dom : Nat) (d : Dev) : Eff 0x1 d (clearPend dom d) := by
  unfold clearPend
  try dsimp only
  repeat' first
    | with_reducible apply Eff.refl | with_reducible assumption | (apply Sub.of; rfl) | (apply Has.of; rfl) | intro _ | with_reducible apply ite_eff
    | (with_reducible apply Eff.step; with_reducible apply wrI_eff) | split | dsimp only [id]

theorem wakeDom_eff (dom k : Nat) (d : Dev) : Eff 0x91d d (wakeDom dom k d) := by
  unfold wakeDom
  try dsimp only
  repeat' first
    | with_reducible apply Eff.refl | with_reducible assumption | (apply Sub.of; rfl) | (apply Has.of; rfl) | intro _ | with_reducible apply ite_eff
    | (with_reducible apply Eff.step; with_reducible apply refuseDom_eff) | (with_reducible apply Eff.step; with_reducible apply clearPend_eff)
    | (with_reducible apply Eff.step; with_reducible apply putTr_eff) | (with_reducible apply Eff.step; with_reducible apply wrI_eff)
    | (with_reducible apply Eff.step; with_reducible apply railRequest_eff) | (with_reducible apply Eff.step; with_reducible apply startTr_eff)
    | split | dsimp only [id]

end Sys2Proof.Machine
end

