-- ==== Sys2Proof/Laws/EffLaneOps.lean ====
section
/-!
SUPPORT. What each function of Machine/LaneOps.lean can change.
-/

namespace Sys2Proof.Machine

theorem updLane_eff (n : Nat) (f : Lane → Lane) (d : Dev) : Eff 0x8000 d (updLane n f d) := by
  unfold updLane
  try dsimp only
  repeat' first
    | with_reducible apply Eff.refl | with_reducible assumption | (apply Sub.of; rfl) | (apply Has.of; rfl) | intro _ | with_reducible apply ite_eff
    | (with_reducible apply Eff.last; with_reducible apply Prim.net) | split | dsimp only [id]

theorem updPort_eff (p : Nat) (f : Port → Port) (d : Dev) : Eff 0x8000 d (updPort p f d) := by
  unfold updPort
  try dsimp only
  repeat' first
    | with_reducible apply Eff.refl | with_reducible assumption | (apply Sub.of; rfl) | (apply Has.of; rfl) | intro _ | with_reducible apply ite_eff
    | (with_reducible apply Eff.last; with_reducible apply Prim.net) | split | dsimp only [id]

theorem sendMarker_eff (p n st : Nat) (d : Dev) : Eff 0x4 d (sendMarker p n st d) := by
  unfold sendMarker
  try dsimp only
  repeat' first
    | with_reducible apply Eff.refl | with_reducible assumption | (apply Sub.of; rfl) | (apply Has.of; rfl) | intro _ | with_reducible apply ite_eff
    | (with_reducible apply Eff.step; with_reducible apply emit_eff) | split | dsimp only [id]

theorem eyeStore_eff (n k : Nat) (errs : Nat → Nat) (d : Dev) : Eff 0x8009 d (eyeStore n k errs d) := by
  unfold eyeStore
  try dsimp only
  repeat' first
    | with_reducible apply Eff.refl | with_reducible assumption | (apply Sub.of; rfl) | (apply Has.of; rfl) | intro _ | with_reducible apply ite_eff
    | (with_reducible apply Eff.step; with_reducible apply wrFit_eff) | (with_reducible apply Eff.step; with_reducible apply updLane_eff)

theorem eyeAbort_eff (n : Nat) (d : Dev) : Eff 0x811d d (eyeAbort n d) := by
  unfold eyeAbort
  try dsimp only
  repeat' first
    | with_reducible apply Eff.refl | with_reducible assumption | (apply Sub.of; rfl) | (apply Has.of; rfl) | intro _ | with_reducible apply ite_eff
    | (with_reducible apply Eff.step; with_reducible apply wr_eff) | (with_reducible apply Eff.step; with_reducible apply raise_eff)
    | (with_reducible apply Eff.step; with_reducible apply eyeStore_eff) | (with_reducible apply Eff.step; with_reducible apply takeFree_eff)
    | split | dsimp only [id]

theorem laneBegin_eff (mode n : Nat) (d : Dev) : Eff 0x811d d (laneBegin mode n d) := by
  unfold laneBegin
  try dsimp only
  repeat' first
    | with_reducible apply Eff.refl | with_reducible assumption | (apply Sub.of; rfl) | (apply Has.of; rfl) | intro _ | with_reducible apply ite_eff
    | (with_reducible apply Eff.step; with_reducible apply eyeAbort_eff) | (with_reducible apply Eff.step; with_reducible apply updLane_eff)
    | (with_reducible apply Eff.step; with_reducible apply wr_eff) | (with_reducible apply Eff.step; with_reducible apply emit_eff) | split
    | dsimp only [id]

theorem releaseSpare_eff (n : Nat) (d : Dev) : Eff 0x1 d (releaseSpare n d) := by
  unfold releaseSpare
  try dsimp only
  repeat' first
    | with_reducible apply Eff.refl | with_reducible assumption | (apply Sub.of; rfl) | (apply Has.of; rfl) | intro _ | with_reducible apply ite_eff
    | (with_reducible apply Eff.step; with_reducible apply wr_eff) | split | dsimp only [id]

theorem expTrain_eff (p n : Nat) (d : Dev) : Eff 0x8004 d (expTrain p n d) := by
  unfold expTrain
  try dsimp only
  repeat' first
    | with_reducible apply Eff.refl | with_reducible assumption | (apply Sub.of; rfl) | (apply Has.of; rfl) | intro _ | with_reducible apply ite_eff
    | (with_reducible apply Eff.step; with_reducible apply updLane_eff) | (with_reducible apply Eff.step; with_reducible apply emit_eff) | split
    | dsimp only [id]

theorem beginSends_eff (p : Nat) (spare : Bool) (d : Dev) : Eff 0x8004 d (beginSends p spare d) := by
  unfold beginSends
  try dsimp only
  repeat' first
    | with_reducible apply Eff.refl | with_reducible assumption | (apply Sub.of; rfl) | (apply Has.of; rfl) | intro _ | with_reducible apply ite_eff
    | (with_reducible apply onlyIf_eff) | (with_reducible apply forEach_eff) | (with_reducible apply Eff.step; with_reducible apply expTrain_eff)
    | (with_reducible apply Eff.step; with_reducible apply sendMarker_eff) | split | dsimp only [id]

theorem lanesAfresh_eff (p : Nat) (d : Dev) : Eff 0x8000 d (lanesAfresh p d) := by
  unfold lanesAfresh
  try dsimp only
  repeat' first
    | with_reducible apply Eff.refl | with_reducible assumption | (apply Sub.of; rfl) | (apply Has.of; rfl) | intro _ | with_reducible apply ite_eff
    | (with_reducible apply forEach_eff) | (with_reducible apply Eff.step; with_reducible apply updLane_eff) | split | dsimp only [id]

theorem startBringup_eff (p : Nat) (d : Dev) : Eff 0x811d d (startBringup p d) := by
  unfold startBringup
  try dsimp only
  repeat' first
    | with_reducible apply Eff.refl | with_reducible assumption | (apply Sub.of; rfl) | (apply Has.of; rfl) | intro _ | with_reducible apply ite_eff
    | (with_reducible apply forEach_eff) | (with_reducible apply Eff.step; with_reducible apply updPort_eff)
    | (with_reducible apply Eff.step; with_reducible apply releaseSpare_eff) | (with_reducible apply Eff.step; with_reducible apply updLane_eff)
    | (with_reducible apply Eff.step; with_reducible apply laneBegin_eff) | (with_reducible apply Eff.step; with_reducible apply wr_eff)
    | (with_reducible apply Eff.step; with_reducible apply beginSends_eff) | split | dsimp only [id]

theorem spareRest_eff (i : Nat) (d : Dev) : Eff 0x811d d (spareRest i d) := by
  unfold spareRest
  try dsimp only
  repeat' first
    | with_reducible apply Eff.refl | with_reducible assumption | (apply Sub.of; rfl) | (apply Has.of; rfl) | intro _ | with_reducible apply ite_eff
    | (with_reducible apply onlyIf_eff) | (with_reducible apply Eff.step; with_reducible apply eyeAbort_eff)
    | (with_reducible apply Eff.step; with_reducible apply wr_eff) | (with_reducible apply Eff.step; with_reducible apply emit_eff) | split
    | dsimp only [id]

theorem lanesOff_eff (p : Nat) (d : Dev) : Eff 0x811d d (lanesOff p d) := by
  unfold lanesOff
  try dsimp only
  repeat' first
    | with_reducible apply Eff.refl | with_reducible assumption | (apply Sub.of; rfl) | (apply Has.of; rfl) | intro _ | with_reducible apply ite_eff
    | (with_reducible apply forEach_eff) | (with_reducible apply Eff.step; with_reducible apply eyeAbort_eff)
    | (with_reducible apply Eff.step; with_reducible apply updLane_eff) | (with_reducible apply Eff.step; with_reducible apply wr_eff)
    | (with_reducible apply Eff.step; with_reducible apply emit_eff) | (with_reducible apply Eff.step; with_reducible apply updPort_eff)
    | (with_reducible apply Eff.step; with_reducible apply spareRest_eff) | split | dsimp only [id]

theorem sendCodeword_eff (p n cnt cw : Nat) (d : Dev) : Eff 0x8004 d (sendCodeword p n cnt cw d) := by
  unfold sendCodeword
  try dsimp only
  repeat' first
    | with_reducible apply Eff.refl | with_reducible assumption | (apply Sub.of; rfl) | (apply Has.of; rfl) | intro _ | with_reducible apply ite_eff
    | (with_reducible apply onlyIf_eff) | (with_reducible apply Eff.step; with_reducible apply emit_eff)
    | (with_reducible apply Eff.step; with_reducible apply updLane_eff) | split | dsimp only [id]

theorem laneFlit_eff (p : Nat) (img : List Byte) (d : Dev) : Eff 0x8004 d (laneFlit p img d) := by
  unfold laneFlit
  try dsimp only
  repeat' first
    | with_reducible apply Eff.refl | with_reducible assumption | (apply Sub.of; rfl) | (apply Has.of; rfl) | intro _ | with_reducible apply ite_eff
    | (with_reducible apply Eff.step; with_reducible apply updPort_eff) | (with_reducible apply Eff.step; with_reducible apply updLane_eff)
    | (with_reducible apply Eff.step; with_reducible apply sendCodeword_eff) | split | dsimp only [id]

theorem sendLink_eff (p ty fields : Nat) (body : List Byte) (nums : List Nat) (d : Dev) : Eff 0x8004 d (sendLink p ty fields body nums d) := by
  unfold sendLink
  try dsimp only
  repeat' first
    | with_reducible apply Eff.refl | with_reducible assumption | (apply Sub.of; rfl) | (apply Has.of; rfl) | intro _ | with_reducible apply ite_eff
    | (with_reducible apply Eff.step; with_reducible apply emit_eff) | (with_reducible apply Eff.step; with_reducible apply laneFlit_eff) | split
    | dsimp only [id]

theorem sendInit_eff (p : Nat) (d : Dev) : Eff 0x8004 d (sendInit p d) := by
  unfold sendInit
  try dsimp only
  repeat' first
    | with_reducible apply Eff.refl | with_reducible assumption | (apply Sub.of; rfl) | (apply Has.of; rfl) | intro _ | with_reducible apply ite_eff
    | (with_reducible apply Eff.step; with_reducible apply sendLink_eff) | (with_reducible apply Eff.step; with_reducible apply updPort_eff) | split
    | dsimp only [id]

end Sys2Proof.Machine
end

