-- ==== Sys2Proof/Laws/EffHarbourOps.lean ====
section
/-!
SUPPORT. What each function of Machine/HarbourOps.lean can change.
-/

namespace Sys2Proof.Machine

theorem warmField_eff (ty inst : Nat) (f : Fld) (d : Dev) : Eff 0x1 d (warmField ty inst f d) := by
  unfold warmField
  try dsimp only
  repeat' first
    | with_reducible apply Eff.refl | with_reducible assumption | (apply Sub.of; rfl) | (apply Has.of; rfl) | intro _ | with_reducible apply ite_eff
    | (with_reducible apply forEach_eff) | (with_reducible apply Eff.step; with_reducible apply wrI_eff) | split | dsimp only [id]

theorem resetRoRc_eff (ty inst : Nat) (d : Dev) : Eff 0x1 d (resetRoRc ty inst d) := by
  unfold resetRoRc
  try dsimp only
  repeat' first
    | with_reducible apply Eff.refl | with_reducible assumption | (apply Sub.of; rfl) | (apply Has.of; rfl) | intro _ | with_reducible apply ite_eff
    | (with_reducible apply forEach_eff) | (with_reducible apply Eff.step; with_reducible apply warmField_eff) | split | dsimp only [id]

theorem updPkt_eff (id : Nat) (f : Packet → Packet) (d : Dev) : Eff 0x8000 d (updPkt id f d) := by
  unfold updPkt
  try dsimp only
  repeat' first
    | with_reducible apply Eff.refl | with_reducible assumption | (apply Sub.of; rfl) | (apply Has.of; rfl) | intro _ | with_reducible apply ite_eff
    | (with_reducible apply Eff.last; with_reducible apply Prim.net) | split | dsimp only [id]

theorem stage_eff (a : CellAccess) (d : Dev) : Eff 0x8004 d (stage a d) := by
  unfold stage
  try dsimp only
  repeat' first
    | with_reducible apply Eff.refl | with_reducible assumption | (apply Sub.of; rfl) | (apply Has.of; rfl) | intro _ | with_reducible apply ite_eff
    | (with_reducible apply Eff.step; with_reducible apply emit_eff) | (with_reducible apply Eff.last; with_reducible apply Prim.net) | split
    | dsimp only [id]

theorem turnStrait_eff (i s : Nat) (d : Dev) : Eff 0x8000 d (turnStrait i s d) := by
  unfold turnStrait
  try dsimp only
  repeat' first
    | with_reducible apply Eff.refl | with_reducible assumption | (apply Sub.of; rfl) | (apply Has.of; rfl) | intro _ | with_reducible apply ite_eff
    | (with_reducible apply Eff.last; with_reducible apply Prim.net) | split | dsimp only [id]

theorem turnSegment_eff (i g : Nat) (d : Dev) : Eff 0x8000 d (turnSegment i g d) := by
  unfold turnSegment
  try dsimp only
  repeat' first
    | with_reducible apply Eff.refl | with_reducible assumption | (apply Sub.of; rfl) | (apply Has.of; rfl) | intro _ | with_reducible apply ite_eff
    | (with_reducible apply Eff.last; with_reducible apply Prim.net) | split | dsimp only [id]

theorem cellWrite_eff (i seg num : Nat) (d : Dev) : Eff 0x800d d (cellWrite i seg num d) := by
  unfold cellWrite
  try dsimp only
  repeat' first
    | with_reducible apply Eff.refl | with_reducible assumption | (apply Sub.of; rfl) | (apply Has.of; rfl) | intro _ | with_reducible apply ite_eff
    | (with_reducible apply Eff.step; with_reducible apply turnStrait_eff) | (with_reducible apply Eff.step; with_reducible apply bump_eff)
    | (with_reducible apply Eff.step; with_reducible apply stage_eff) | split | dsimp only [id]

theorem cellRead_eff (i seg num : Nat) (d : Dev) : Eff 0x800d d (cellRead i seg num d) := by
  unfold cellRead
  try dsimp only
  repeat' first
    | with_reducible apply Eff.refl | with_reducible assumption | (apply Sub.of; rfl) | (apply Has.of; rfl) | intro _ | with_reducible apply ite_eff
    | (with_reducible apply Eff.step; with_reducible apply takeFree_eff) | (with_reducible apply Eff.step; with_reducible apply bump_eff)
    | (with_reducible apply Eff.step; with_reducible apply stage_eff) | split | dsimp only [id]

theorem reissue_eff (a : CellAccess) (d : Dev) : Eff 0x800d d (reissue a d) := by
  unfold reissue
  try dsimp only
  repeat' first
    | with_reducible apply Eff.refl | with_reducible assumption | (apply Sub.of; rfl) | (apply Has.of; rfl) | intro _ | with_reducible apply ite_eff
    | (with_reducible apply Eff.step; with_reducible apply cellWrite_eff) | (with_reducible apply Eff.step; with_reducible apply cellRead_eff)
    | (with_reducible apply Eff.step; with_reducible apply bump_eff) | split | dsimp only [id]

theorem countRead_eff (i : Nat) (c : Cell) (d : Dev) : Eff 0x800d d (countRead i c d) := by
  unfold countRead
  try dsimp only
  repeat' first
    | with_reducible apply Eff.refl | with_reducible assumption | (apply Sub.of; rfl) | (apply Has.of; rfl) | intro _ | with_reducible apply ite_eff
    | (with_reducible apply Eff.step; with_reducible apply cellRead_eff) | (with_reducible apply Eff.step; with_reducible apply bump_eff) | split
    | dsimp only [id]

theorem sharedLowAlarm_eff (before : Int) (d : Dev) : Eff 0x11d d (sharedLowAlarm before d) := by
  unfold sharedLowAlarm
  try dsimp only
  repeat' first
    | with_reducible apply Eff.refl | with_reducible assumption | (apply Sub.of; rfl) | (apply Has.of; rfl) | intro _ | with_reducible apply ite_eff
    | (with_reducible apply onlyIf_eff) | (with_reducible apply Eff.step; with_reducible apply raise_eff) | split | dsimp only [id]

theorem writeCell_eff (q : Packet) (charge : Nat) (d : Dev) : Eff 0x811d d (writeCell q charge d) := by
  unfold writeCell
  try dsimp only
  repeat' first
    | with_reducible apply Eff.refl | with_reducible assumption | (apply Sub.of; rfl) | (apply Has.of; rfl) | intro _ | with_reducible apply ite_eff
    | split | (with_reducible apply Eff.step; with_reducible apply takeFree_eff)
    | (with_reducible apply Eff.step; with_reducible apply turnSegment_eff) | (with_reducible apply Eff.step; with_reducible apply wr_eff)
    | (with_reducible apply Eff.step; with_reducible apply cellWrite_eff) | (with_reducible apply Eff.step; with_reducible apply bump_eff)
    | (with_reducible apply Eff.step; with_reducible apply updPkt_eff) | (with_reducible apply Eff.step; with_reducible apply sharedLowAlarm_eff)
    | split | dsimp only [id]

theorem grantMore_eff (p v n : Nat) (d : Dev) : Eff 0x8000 d (grantMore p v n d) := by
  unfold grantMore
  try dsimp only
  repeat' first
    | with_reducible apply Eff.refl | with_reducible assumption | (apply Sub.of; rfl) | (apply Has.of; rfl) | intro _ | with_reducible apply ite_eff
    | (with_reducible apply Eff.step; with_reducible apply updPort_eff) | split | dsimp only [id]

theorem returnCredits_eff (id : Nat) (d : Dev) : Eff 0x8000 d (returnCredits id d) := by
  unfold returnCredits
  try dsimp only
  repeat' first
    | with_reducible apply Eff.refl | with_reducible assumption | (apply Sub.of; rfl) | (apply Has.of; rfl) | intro _ | with_reducible apply ite_eff
    | (with_reducible apply Eff.step; with_reducible apply grantMore_eff) | (with_reducible apply Eff.step; with_reducible apply updPkt_eff) | split
    | dsimp only [id]

theorem pfcRelease_eff (p prio : Nat) (d : Dev) : Eff 0x800d d (pfcRelease p prio d) := by
  unfold pfcRelease
  try dsimp only
  repeat' first
    | with_reducible apply Eff.refl | with_reducible assumption | (apply Sub.of; rfl) | (apply Has.of; rfl) | intro _ | with_reducible apply ite_eff
    | (with_reducible apply Eff.step; with_reducible apply updPort_eff) | (with_reducible apply Eff.step; with_reducible apply emit_eff)
    | (with_reducible apply Eff.step; with_reducible apply addI_eff) | split | dsimp only [id]

theorem freeCell_eff (c : Cell) (d : Dev) : Eff 0x1 d (freeCell c d) := by
  unfold freeCell
  try dsimp only
  repeat' first
    | with_reducible apply Eff.refl | with_reducible assumption | (apply Sub.of; rfl) | (apply Has.of; rfl) | intro _ | with_reducible apply ite_eff
    | (with_reducible apply onlyIf_eff) | (with_reducible apply Eff.step; with_reducible apply wr_eff) | split | dsimp only [id]

theorem releaseKept_eff (id : Nat) (d : Dev) : Eff 0x8001 d (releaseKept id d) := by
  unfold releaseKept
  try dsimp only
  repeat' first
    | with_reducible apply Eff.refl | with_reducible assumption | (apply Sub.of; rfl) | (apply Has.of; rfl) | intro _ | with_reducible apply ite_eff
    | (with_reducible apply forEach_eff) | (with_reducible apply Eff.step; with_reducible apply freeCell_eff)
    | (with_reducible apply Eff.last; with_reducible apply Prim.net) | split | dsimp only [id]

theorem keepCells_eff (l : List KeptCell) (d : Dev) : Eff 0x8000 d (keepCells l d) := by
  unfold keepCells
  try dsimp only
  repeat' first
    | with_reducible apply Eff.refl | with_reducible assumption | (apply Sub.of; rfl) | (apply Has.of; rfl) | intro _ | with_reducible apply ite_eff
    | (with_reducible apply Eff.last; with_reducible apply Prim.net) | split | dsimp only [id]

theorem freeCells_eff (id n : Nat) (d : Dev) : Eff 0x800d d (freeCells id n d) := by
  unfold freeCells
  try dsimp only
  repeat' first
    | with_reducible apply Eff.refl | with_reducible assumption | (apply Sub.of; rfl) | (apply Has.of; rfl) | intro _ | with_reducible apply ite_eff
    | (with_reducible apply onlyIf_eff) | (with_reducible apply forEach_eff) | (with_reducible apply Eff.step; with_reducible apply keepCells_eff)
    | (with_reducible apply Eff.step; with_reducible apply freeCell_eff) | (with_reducible apply Eff.step; with_reducible apply updPkt_eff)
    | (with_reducible apply Eff.step; with_reducible apply returnCredits_eff) | (with_reducible apply Eff.step; with_reducible apply pfcRelease_eff)
    | split | dsimp only [id]

theorem detachDescs_eff (id : Nat) (d : Dev) : Eff 0x8000 d (detachDescs id d) := by
  unfold detachDescs
  try dsimp only
  repeat' first
    | with_reducible apply Eff.refl | with_reducible assumption | (apply Sub.of; rfl) | (apply Has.of; rfl) | intro _ | with_reducible apply ite_eff
    | (with_reducible apply Eff.last; with_reducible apply Prim.net) | split | dsimp only [id]

theorem removePkt_eff (id : Nat) (d : Dev) : Eff 0x8000 d (removePkt id d) := by
  unfold removePkt
  try dsimp only
  repeat' first
    | with_reducible apply Eff.refl | with_reducible assumption | (apply Sub.of; rfl) | (apply Has.of; rfl) | intro _ | with_reducible apply ite_eff
    | (with_reducible apply Eff.step; with_reducible apply detachDescs_eff) | (with_reducible apply Eff.last; with_reducible apply Prim.net) | split
    | dsimp only [id]

theorem dropPkt_eff (id : Nat) (d : Dev) : Eff 0x800d d (dropPkt id d) := by
  unfold dropPkt
  try dsimp only
  repeat' first
    | with_reducible apply Eff.refl | with_reducible assumption | (apply Sub.of; rfl) | (apply Has.of; rfl) | intro _ | with_reducible apply ite_eff
    | (with_reducible apply onlyIf_eff) | (with_reducible apply forEach_eff) | (with_reducible apply Eff.step; with_reducible apply freeCells_eff)
    | (with_reducible apply Eff.step; with_reducible apply grantMore_eff) | (with_reducible apply Eff.step; with_reducible apply removePkt_eff)
    | (with_reducible apply Eff.step; with_reducible apply releaseKept_eff) | split | dsimp only [id]

end Sys2Proof.Machine
end

