-- ==== Sys2Proof/Laws/EffRouteOps.lean ====
section
/-!
SUPPORT. What each function of Machine/RouteOps.lean can change.
-/

namespace Sys2Proof.Machine

theorem tblPut_eff (isl table set idx v : Nat) (d : Dev) : Eff 0x8000 d (tblPut isl table set idx v d) := by
  unfold tblPut
  try dsimp only
  repeat' first
    | with_reducible apply Eff.refl | with_reducible assumption | (apply Sub.of; rfl) | (apply Has.of; rfl) | intro _ | with_reducible apply ite_eff
    | (with_reducible apply Eff.last; with_reducible apply Prim.net) | split | dsimp only [id]

theorem setPortUp_eff (p : Nat) (b : Bool) (d : Dev) : Eff 0x1 d (setPortUp p b d) := by
  unfold setPortUp
  try dsimp only
  repeat' first
    | with_reducible apply Eff.refl | with_reducible assumption | (apply Sub.of; rfl) | (apply Has.of; rfl) | intro _ | with_reducible apply ite_eff
    | (with_reducible apply forEach_eff) | (with_reducible apply Eff.step; with_reducible apply wrI_eff) | split | dsimp only [id]

theorem putFlowlet_eff (isl idx : Nat) (f : Flowlet) (d : Dev) : Eff 0x8000 d (putFlowlet isl idx f d) := by
  unfold putFlowlet
  try dsimp only
  repeat' first
    | with_reducible apply Eff.refl | with_reducible assumption | (apply Sub.of; rfl) | (apply Has.of; rfl) | intro _ | with_reducible apply ite_eff
    | (with_reducible apply Eff.last; with_reducible apply Prim.net) | split | dsimp only [id]

theorem drawIlid_eff (isl dlid : Nat) (d : Dev) : Eff 0x8 d (drawIlid isl dlid d).2 := by
  unfold drawIlid
  dsimp only
  generalize List.range _ = l
  suffices h : ∀ acc : Nat × Nat × Dev, Eff 0x8 d acc.2.2 → Eff 0x8 d (l.foldl _ acc).2.2 from h _ (.refl d)
  induction l with
  | nil => exact fun _ h => h
  | cons x l ih => exact fun acc h => ih _ (h.trans (takeFree_eff _))

theorem valiantIlid_eff (isl vc h : Nat) (d : Dev) : Eff 0x8 d (valiantIlid isl vc h d).2 := by
  unfold valiantIlid
  try dsimp only
  repeat' first
    | with_reducible apply Eff.refl | with_reducible assumption | (apply Sub.of; rfl) | (apply Has.of; rfl) | intro _ | with_reducible apply ite_eff
    | with_reducible apply ite_snd | (with_reducible apply Eff.step; with_reducible apply drawIlid_eff)
    | (with_reducible apply Eff.step; with_reducible apply eff_snd; assumption; with_reducible apply drawIlid_eff) | split | dsimp only [id]

theorem injectHeader_eff (isl vc h : Nat) (d : Dev) : Eff 0x8 d (injectHeader isl vc h d).2 := by
  have mk : ∀ {x : Nat} {e : Dev}, Eff 0x8 d e → Eff 0x8 d (x, e).2 := fun h => h
  rw [injectHeader]
  exact ite_snd (mk (valiantIlid_eff ..)) (.refl _)

theorem noteLayer2_eff (isl : Nat) (d : Dev) : Eff 0x811d d (noteLayer2 isl d) := by
  unfold noteLayer2
  try dsimp only
  repeat' first
    | with_reducible apply Eff.refl | with_reducible assumption | (apply Sub.of; rfl) | (apply Has.of; rfl) | intro _ | with_reducible apply ite_eff
    | (with_reducible apply onlyIf_eff) | (with_reducible apply Eff.step; with_reducible apply bump_eff)
    | (with_reducible apply Eff.step; with_reducible apply raise_eff) | (with_reducible apply Eff.last; with_reducible apply Prim.net) | split
    | dsimp only [id]

theorem escapeHop_eff (isl key entry h : Nat) (d : Dev) : Eff 0x811d d (escapeHop isl key entry h d).2 := by
  unfold escapeHop
  try dsimp only
  repeat' first
    | with_reducible apply Eff.refl | with_reducible assumption | (apply Sub.of; rfl) | (apply Has.of; rfl) | intro _ | with_reducible apply ite_eff
    | with_reducible apply ite_snd | (with_reducible apply Eff.step; with_reducible apply noteLayer2_eff) | split | dsimp only [id]

theorem enterEscape_eff (isl key entry h : Nat) (d : Dev) : Eff 0x811d d (enterEscape isl key entry h d).2 := by
  unfold enterEscape
  try dsimp only
  repeat' first
    | with_reducible apply Eff.refl | with_reducible assumption | (apply Sub.of; rfl) | (apply Has.of; rfl) | intro _ | with_reducible apply ite_eff
    | with_reducible apply ite_snd | (with_reducible apply Eff.step; with_reducible apply escapeHop_eff)
    | (with_reducible apply Eff.step; with_reducible apply eff_snd; assumption; with_reducible apply escapeHop_eff)
    | (with_reducible apply Eff.step; with_reducible apply bump_eff) | split | dsimp only [id]

theorem leastHop_eff (isl m h : Nat) (alternate : Bool) (d : Dev) : Eff 0x9 d (leastHop isl m h alternate d).2 := by
  unfold leastHop
  try dsimp only
  repeat' first
    | with_reducible apply Eff.refl | with_reducible assumption | (apply Sub.of; rfl) | (apply Has.of; rfl) | intro _ | with_reducible apply ite_eff
    | with_reducible apply ite_snd | (with_reducible apply onlyIf_eff) | (with_reducible apply Eff.step; with_reducible apply bump_eff) | split
    | dsimp only [id]

theorem modeHop_eff (isl vc key entry h : Nat) (d : Dev) : Eff 0x811d d (modeHop isl vc key entry h d).2 := by
  unfold modeHop
  try dsimp only
  repeat' first
    | with_reducible apply Eff.refl | with_reducible assumption | (apply Sub.of; rfl) | (apply Has.of; rfl) | intro _ | with_reducible apply ite_eff
    | with_reducible apply ite_snd | (with_reducible apply Eff.step; with_reducible apply enterEscape_eff)
    | (with_reducible apply Eff.step; with_reducible apply eff_snd; assumption; with_reducible apply enterEscape_eff)
    | (with_reducible apply Eff.step; with_reducible apply bump_eff) | (with_reducible apply Eff.step; with_reducible apply leastHop_eff)
    | (with_reducible apply Eff.step; with_reducible apply eff_snd; assumption; with_reducible apply leastHop_eff) | split | dsimp only [id]

theorem freshHop_eff (isl vc key entry h : Nat) (d : Dev) : Eff 0x811d d (freshHop isl vc key entry h d).2 := by
  unfold freshHop
  try dsimp only
  repeat' first
    | with_reducible apply Eff.refl | with_reducible assumption | (apply Sub.of; rfl) | (apply Has.of; rfl) | intro _ | with_reducible apply ite_eff
    | with_reducible apply ite_snd | (with_reducible apply Eff.step; with_reducible apply escapeHop_eff)
    | (with_reducible apply Eff.step; with_reducible apply eff_snd; assumption; with_reducible apply escapeHop_eff)
    | (with_reducible apply Eff.step; with_reducible apply modeHop_eff)
    | (with_reducible apply Eff.step; with_reducible apply eff_snd; assumption; with_reducible apply modeHop_eff) | split | dsimp only [id]

theorem flowletHop_eff (isl vc key entry h : Nat) (d : Dev) : Eff 0x811d d (flowletHop isl vc key entry h d).2 := by
  unfold flowletHop
  try dsimp only
  repeat' first
    | with_reducible apply Eff.refl | with_reducible assumption | (apply Sub.of; rfl) | (apply Has.of; rfl) | intro _ | with_reducible apply ite_eff
    | with_reducible apply ite_snd | (with_reducible apply onlyIf_eff) | (with_reducible apply Eff.step; with_reducible apply putFlowlet_eff)
    | (with_reducible apply Eff.step; with_reducible apply freshHop_eff)
    | (with_reducible apply Eff.step; with_reducible apply eff_snd; assumption; with_reducible apply freshHop_eff)
    | (with_reducible apply Eff.step; with_reducible apply bump_eff) | split | dsimp only [id]

theorem route_eff (isl vc h : Nat) (bytes : List Byte) (d : Dev) : Eff 0x811d d (route isl vc h bytes d).2 := by
  unfold route
  try dsimp only
  repeat' first
    | with_reducible apply Eff.refl | with_reducible assumption | (apply Sub.of; rfl) | (apply Has.of; rfl) | intro _ | with_reducible apply ite_eff
    | with_reducible apply ite_snd | (with_reducible apply Eff.step; with_reducible apply escapeHop_eff)
    | (with_reducible apply Eff.step; with_reducible apply eff_snd; assumption; with_reducible apply escapeHop_eff)
    | (with_reducible apply Eff.step; with_reducible apply flowletHop_eff)
    | (with_reducible apply Eff.step; with_reducible apply eff_snd; assumption; with_reducible apply flowletHop_eff)
    | (with_reducible apply Eff.step; with_reducible apply freshHop_eff)
    | (with_reducible apply Eff.step; with_reducible apply eff_snd; assumption; with_reducible apply freshHop_eff) | split | dsimp only [id]

theorem setEgress_eff (id eg h : Nat) (d : Dev) : Eff 0x8009 d (setEgress id eg h d) := by
  unfold setEgress
  try dsimp only
  repeat' first
    | with_reducible apply Eff.refl | with_reducible assumption | (apply Sub.of; rfl) | (apply Has.of; rfl) | intro _ | with_reducible apply ite_eff
    | (with_reducible apply onlyIf_eff) | (with_reducible apply Eff.step; with_reducible apply updPkt_eff)
    | (with_reducible apply Eff.step; with_reducible apply bump_eff) | split | dsimp only [id]

theorem unroutable_eff (id isl : Nat) (d : Dev) : Eff 0x811d d (unroutable id isl d) := by
  unfold unroutable
  try dsimp only
  repeat' first
    | with_reducible apply Eff.refl | with_reducible assumption | (apply Sub.of; rfl) | (apply Has.of; rfl) | intro _ | with_reducible apply ite_eff
    | (with_reducible apply Eff.step; with_reducible apply bump_eff) | (with_reducible apply Eff.step; with_reducible apply raise_eff)
    | (with_reducible apply Eff.step; with_reducible apply dropPkt_eff) | split | dsimp only [id]

theorem lookUp_eff (id : Nat) (d : Dev) : Eff 0x811d d (lookUp id d) := by
  unfold lookUp
  try dsimp only
  repeat' first
    | with_reducible apply Eff.refl | with_reducible assumption | (apply Sub.of; rfl) | (apply Has.of; rfl) | intro _ | with_reducible apply ite_eff
    | (with_reducible apply Eff.step; with_reducible apply route_eff)
    | (with_reducible apply Eff.step; with_reducible apply eff_snd; assumption; with_reducible apply route_eff)
    | (with_reducible apply Eff.step; with_reducible apply bump_eff) | (with_reducible apply Eff.step; with_reducible apply setEgress_eff)
    | (with_reducible apply Eff.step; with_reducible apply deliver_eff) | (with_reducible apply Eff.step; with_reducible apply updPkt_eff)
    | (with_reducible apply Eff.step; with_reducible apply raise_eff) | (with_reducible apply Eff.step; with_reducible apply dropPkt_eff)
    | (with_reducible apply Eff.step; with_reducible apply unroutable_eff) | split | dsimp only [id]

end Sys2Proof.Machine
end

