-- ==== Sys2Proof/Laws/EffFunOps.lean ====
section
/-!
SUPPORT. What each function of Machine/FunOps.lean can change.
-/

namespace Sys2Proof.Machine

theorem updEng_eff (f : Eng → Eng) (d : Dev) : Eff 0x10000 d (updEng f d) := by
  unfold updEng
  try dsimp only
  repeat' first
    | with_reducible apply Eff.refl | with_reducible assumption | (apply Sub.of; rfl) | (apply Has.of; rfl) | intro _ | with_reducible apply ite_eff
    | (with_reducible apply Eff.last; with_reducible apply Prim.eng) | split | dsimp only [id]

theorem slWr_eff (f : Fld) (n v : Nat) (d : Dev) : Eff 0x1 d (slWr f n v d) := by
  unfold slWr
  try dsimp only
  repeat' first
    | with_reducible apply Eff.refl | with_reducible assumption | (apply Sub.of; rfl) | (apply Has.of; rfl) | intro _ | with_reducible apply ite_eff
    | (with_reducible apply Eff.step; with_reducible apply wrI_eff) | split | dsimp only [id]

theorem updSlice_eff (n : Nat) (f : Slice → Slice) (d : Dev) : Eff 0x10000 d (updSlice n f d) := by
  unfold updSlice
  try dsimp only
  repeat' first
    | with_reducible apply Eff.refl | with_reducible assumption | (apply Sub.of; rfl) | (apply Has.of; rfl) | intro _ | with_reducible apply ite_eff
    | (with_reducible apply Eff.step; with_reducible apply updEng_eff) | split | dsimp only [id]

theorem raiseSlice_eff (e : Ev) (pend n : Nat) (d : Dev) : Eff 0x11d d (raiseSlice e pend n d) := by
  unfold raiseSlice
  try dsimp only
  repeat' first
    | with_reducible apply Eff.refl | with_reducible assumption | (apply Sub.of; rfl) | (apply Has.of; rfl) | intro _ | with_reducible apply ite_eff
    | (with_reducible apply Eff.step; with_reducible apply slWr_eff) | (with_reducible apply Eff.step; with_reducible apply raise_eff) | split
    | dsimp only [id]

theorem updFun_eff (v : Nat) (f : FunCfg → FunCfg) (d : Dev) : Eff 0x10000 d (updFun v f d) := by
  unfold updFun
  try dsimp only
  repeat' first
    | with_reducible apply Eff.refl | with_reducible assumption | (apply Sub.of; rfl) | (apply Has.of; rfl) | intro _ | with_reducible apply ite_eff
    | (with_reducible apply Eff.step; with_reducible apply updEng_eff) | split | dsimp only [id]

theorem issueAcc_eff (a : Access) (xlat : Option Nat) (d : Dev) : Eff 0x4 d (issueAcc a xlat d) := by
  unfold issueAcc
  try dsimp only
  repeat' first
    | with_reducible apply Eff.refl | with_reducible assumption | (apply Sub.of; rfl) | (apply Has.of; rfl) | intro _ | with_reducible apply ite_eff
    | (with_reducible apply Eff.step; with_reducible apply emit_eff) | split | dsimp only [id]

theorem lostAcc_eff (a : Access) (d : Dev) : Eff 0x9 d (lostAcc a d) := by
  unfold lostAcc
  try dsimp only
  repeat' first
    | with_reducible apply Eff.refl | with_reducible assumption | (apply Sub.of; rfl) | (apply Has.of; rfl) | intro _ | with_reducible apply ite_eff
    | (with_reducible apply Eff.step; with_reducible apply bump_eff) | split | dsimp only [id]

theorem waitAcc_eff (a : Access) (xlat : Option Nat) (d : Dev) : Eff 0x10000 d (waitAcc a xlat d) := by
  unfold waitAcc
  try dsimp only
  repeat' first
    | with_reducible apply Eff.refl | with_reducible assumption | (apply Sub.of; rfl) | (apply Has.of; rfl) | intro _ | with_reducible apply ite_eff
    | (with_reducible apply Eff.step; with_reducible apply updEng_eff) | split | dsimp only [id]

theorem askPage_eff (v : Nat) (pasid : Option Nat) (page : Nat) (d : Dev) : Eff 0xd d (askPage v pasid page d) := by
  unfold askPage
  try dsimp only
  repeat' first
    | with_reducible apply Eff.refl | with_reducible assumption | (apply Sub.of; rfl) | (apply Has.of; rfl) | intro _ | with_reducible apply ite_eff
    | (with_reducible apply Eff.step; with_reducible apply bump_eff) | (with_reducible apply Eff.step; with_reducible apply emit_eff) | split
    | dsimp only [id]

theorem accessAts_eff (a : Access) (d : Dev) : Eff 0x1000d d (accessAts a d) := by
  unfold accessAts
  try dsimp only
  repeat' first
    | with_reducible apply Eff.refl | with_reducible assumption | (apply Sub.of; rfl) | (apply Has.of; rfl) | intro _ | with_reducible apply ite_eff
    | (with_reducible apply Eff.step; with_reducible apply bump_eff) | (with_reducible apply Eff.step; with_reducible apply waitAcc_eff)
    | (with_reducible apply Eff.step; with_reducible apply issueAcc_eff) | (with_reducible apply Eff.step; with_reducible apply askPage_eff) | split
    | dsimp only [id]

theorem access_eff (a : Access) (d : Dev) : Eff 0x1000d d (access a d) := by
  unfold access
  try dsimp only
  repeat' first
    | with_reducible apply Eff.refl | with_reducible assumption | (apply Sub.of; rfl) | (apply Has.of; rfl) | intro _ | with_reducible apply ite_eff
    | (with_reducible apply forEach_eff) | (with_reducible apply Eff.step; with_reducible apply lostAcc_eff)
    | (with_reducible apply Eff.step; with_reducible apply accessAts_eff) | (with_reducible apply Eff.step; with_reducible apply waitAcc_eff)
    | (with_reducible apply Eff.step; with_reducible apply issueAcc_eff) | split | dsimp only [id]

theorem sendMsix_eff (v vec : Nat) (d : Dev) : Eff 0x4 d (sendMsix v vec d) := by
  unfold sendMsix
  try dsimp only
  repeat' first
    | with_reducible apply Eff.refl | with_reducible assumption | (apply Sub.of; rfl) | (apply Has.of; rfl) | intro _ | with_reducible apply ite_eff
    | (with_reducible apply Eff.step; with_reducible apply emit_eff) | split | dsimp only [id]

theorem notifySlice_eff (n : Nat) (d : Dev) : Eff 0x10005 d (notifySlice n d) := by
  unfold notifySlice
  try dsimp only
  repeat' first
    | with_reducible apply Eff.refl | with_reducible assumption | (apply Sub.of; rfl) | (apply Has.of; rfl) | intro _ | with_reducible apply ite_eff
    | (with_reducible apply Eff.step; with_reducible apply updFun_eff) | (with_reducible apply Eff.step; with_reducible apply sendMsix_eff)
    | (with_reducible apply Eff.step; with_reducible apply slWr_eff) | split | dsimp only [id]

theorem sliceEvent_eff (n code obj det : Nat) (d : Dev) : Eff 0x1011d d (sliceEvent n code obj det d) := by
  unfold sliceEvent
  try dsimp only
  repeat' first
    | with_reducible apply Eff.refl | with_reducible assumption | (apply Sub.of; rfl) | (apply Has.of; rfl) | intro _ | with_reducible apply ite_eff
    | (with_reducible apply onlyIf_eff) | (with_reducible apply Eff.step; with_reducible apply bump_eff)
    | (with_reducible apply Eff.step; with_reducible apply raise_eff) | (with_reducible apply Eff.step; with_reducible apply access_eff)
    | (with_reducible apply Eff.step; with_reducible apply slWr_eff) | (with_reducible apply Eff.step; with_reducible apply updSlice_eff)
    | (with_reducible apply Eff.step; with_reducible apply notifySlice_eff) | split | dsimp only [id]

theorem startRead_eff (v n key : Nat) (use : RdUse) (mk : Nat → List Access) (d : Dev) : Eff 0x1000d d (startRead v n key use mk d) := by
  unfold startRead
  try dsimp only
  repeat' first
    | with_reducible apply Eff.refl | with_reducible assumption | (apply Sub.of; rfl) | (apply Has.of; rfl) | intro _ | with_reducible apply ite_eff
    | (with_reducible apply forEach_eff) | (with_reducible apply Eff.step; with_reducible apply updEng_eff)
    | (with_reducible apply Eff.step; with_reducible apply access_eff) | split | dsimp only [id]

theorem issueReads_eff (n : Nat) (d : Dev) : Eff 0x1000d d (issueReads n d) := by
  unfold issueReads
  try dsimp only
  repeat' first
    | with_reducible apply Eff.refl | with_reducible assumption | (apply Sub.of; rfl) | (apply Has.of; rfl) | intro _ | with_reducible apply ite_eff
    | (with_reducible apply forEach_eff) | (with_reducible apply Eff.step; with_reducible apply updEng_eff)
    | (with_reducible apply Eff.step; with_reducible apply access_eff) | split | dsimp only [id]

theorem issueKnown_eff (v : Nat) (fuel : Nat) (d : Dev) : Eff 0x10004 d (issueKnown v fuel d) := by
  induction fuel generalizing d with
  | zero =>
    unfold issueKnown
    try dsimp only
    repeat' first
      | with_reducible apply Eff.refl | with_reducible assumption | (apply Sub.of; rfl) | (apply Has.of; rfl) | intro _ | with_reducible apply ite_eff
      | (with_reducible apply Eff.step; with_reducible apply updEng_eff) | (with_reducible apply Eff.step; with_reducible apply issueAcc_eff) | split
      | dsimp only [id]
  | succ fuel ih =>
    unfold issueKnown
    try dsimp only
    repeat' first
      | (with_reducible apply Eff.step; with_reducible apply ih)
      | with_reducible apply Eff.refl | with_reducible assumption | (apply Sub.of; rfl) | (apply Has.of; rfl) | intro _ | with_reducible apply ite_eff
      | (with_reducible apply Eff.step; with_reducible apply updEng_eff) | (with_reducible apply Eff.step; with_reducible apply issueAcc_eff) | split
      | dsimp only [id]

theorem endRead_eff (tag n : Nat) (d : Dev) : Eff 0x1000d d (endRead tag n d) := by
  unfold endRead
  try dsimp only
  repeat' first
    | with_reducible apply Eff.refl | with_reducible assumption | (apply Sub.of; rfl) | (apply Has.of; rfl) | intro _ | with_reducible apply ite_eff
    | (with_reducible apply forEach_eff) | (with_reducible apply Eff.step; with_reducible apply updEng_eff)
    | (with_reducible apply Eff.step; with_reducible apply issueKnown_eff) | (with_reducible apply Eff.step; with_reducible apply issueReads_eff)
    | split | dsimp only [id]

end Sys2Proof.Machine
end

