-- ==== Sys2Proof/Laws/EffRegionOps.lean ====
section
/-!
SUPPORT. What each function of Machine/RegionOps.lean can change.
-/

namespace Sys2Proof.Machine

theorem putRegion_eff (i : Nat) (r : Region) (d : Dev) : Eff 0x10000 d (putRegion i r d) := by
  unfold putRegion
  try dsimp only
  repeat' first
    | with_reducible apply Eff.refl | with_reducible assumption | (apply Sub.of; rfl) | (apply Has.of; rfl) | intro _ | with_reducible apply ite_eff
    | (with_reducible apply Eff.step; with_reducible apply updEng_eff) | split | dsimp only [id]

theorem countKey_eff (key step : Nat) (d : Dev) : Eff 0x9 d (countKey key step d) := by
  unfold countKey
  try dsimp only
  repeat' first
    | with_reducible apply Eff.refl | with_reducible assumption | (apply Sub.of; rfl) | (apply Has.of; rfl) | intro _ | with_reducible apply ite_eff
    | (with_reducible apply onlyIf_eff) | (with_reducible apply Eff.step; with_reducible apply bump_eff) | split | dsimp only [id]

theorem writeSpans_eff (v : Nat) (pasid : Option Nat) (ro : Bool) (own : Owner) (i : Nat) (l : List (Nat × Nat)) (bytes : List Byte) (d : Dev) :
    Eff 0x1000d d (writeSpans v pasid ro own i l bytes d) := by
  induction l generalizing bytes d with
  | nil => exact .refl d
  | cons x l ih =>
    exact (Eff.mono (Sub.of rfl) (access_eff _ d)).trans (ih _ _)

theorem healBytes_eff (o n : Nat) (d : Dev) : Eff 0x10000 d (healBytes o n d) := by
  unfold healBytes
  try dsimp only
  repeat' first
    | with_reducible apply Eff.refl | with_reducible assumption | (apply Sub.of; rfl) | (apply Has.of; rfl) | intro _ | with_reducible apply ite_eff
    | (with_reducible apply Eff.step; with_reducible apply updEng_eff) | split | dsimp only [id]

theorem writePlace_eff (p : Place) (ro : Bool) (own : Owner) (i : Nat) (bytes : List Byte) (d : Dev) : Eff 0x1000f d (writePlace p ro own i bytes d) := by
  unfold writePlace
  try dsimp only
  repeat' first
    | with_reducible apply Eff.refl | with_reducible assumption | (apply Sub.of; rfl) | (apply Has.of; rfl) | intro _ | with_reducible apply ite_eff
    | (with_reducible apply Eff.step; with_reducible apply memWrites_eff) | (with_reducible apply Eff.step; with_reducible apply healBytes_eff)
    | (with_reducible apply Eff.step; with_reducible apply writeSpans_eff) | split | dsimp only [id]

theorem writeKey_eff (key a : Nat) (ro : Bool) (own : Owner) (bytes : List Byte) (d : Dev) : Eff 0x1000f d (writeKey key a ro own bytes d) := by
  unfold writeKey
  try dsimp only
  repeat' first
    | with_reducible apply Eff.refl | with_reducible assumption | (apply Sub.of; rfl) | (apply Has.of; rfl) | intro _ | with_reducible apply ite_eff
    | (with_reducible apply Eff.step; with_reducible apply writePlace_eff) | split | dsimp only [id]

theorem countRegions_eff (before : Nat) (d : Dev) : Eff 0x11d d (countRegions before d) := by
  unfold countRegions
  try dsimp only
  repeat' first
    | with_reducible apply Eff.refl | with_reducible assumption | (apply Sub.of; rfl) | (apply Has.of; rfl) | intro _ | with_reducible apply ite_eff
    | (with_reducible apply onlyIf_eff) | (with_reducible apply Eff.step; with_reducible apply wr_eff)
    | (with_reducible apply Eff.step; with_reducible apply raise_eff) | split | dsimp only [id]

theorem dereg_eff (i : Nat) (d : Dev) : Eff 0x10000 d (dereg i d) := by
  unfold dereg
  try dsimp only
  repeat' first
    | with_reducible apply Eff.refl | with_reducible assumption | (apply Sub.of; rfl) | (apply Has.of; rfl) | intro _ | with_reducible apply ite_eff
    | (with_reducible apply Eff.step; with_reducible apply putRegion_eff) | (with_reducible apply Eff.step; with_reducible apply updEng_eff) | split
    | dsimp only [id]

theorem invalSlice_eff (n : Nat) (d : Dev) : Eff 0x1011d d (invalSlice n d) := by
  unfold invalSlice
  try dsimp only
  repeat' first
    | with_reducible apply Eff.refl | with_reducible assumption | (apply Sub.of; rfl) | (apply Has.of; rfl) | intro _ | with_reducible apply ite_eff
    | (with_reducible apply forEach_eff) | (with_reducible apply Eff.step; with_reducible apply dereg_eff)
    | (with_reducible apply Eff.step; with_reducible apply countRegions_eff) | split | dsimp only [id]

end Sys2Proof.Machine
end

