-- ==== Sys2Proof/Laws/EffCqOps.lean ====
section
/-!
SUPPORT. What each function of Machine/CqOps.lean can change.
-/

namespace Sys2Proof.Machine

theorem putQp_eff (n : Nat) (q : Option Qp) (d : Dev) : Eff 0x10000 d (putQp n q d) := by
  unfold putQp
  try dsimp only
  repeat' first
    | with_reducible apply Eff.refl | with_reducible assumption | (apply Sub.of; rfl) | (apply Has.of; rfl) | intro _ | with_reducible apply ite_eff
    | (with_reducible apply Eff.step; with_reducible apply updEng_eff) | split | dsimp only [id]

theorem updQp_eff (n : Nat) (f : Qp → Qp) (d : Dev) : Eff 0x10000 d (updQp n f d) := by
  unfold updQp
  try dsimp only
  repeat' first
    | with_reducible apply Eff.refl | with_reducible assumption | (apply Sub.of; rfl) | (apply Has.of; rfl) | intro _ | with_reducible apply ite_eff
    | (with_reducible apply Eff.step; with_reducible apply putQp_eff) | split | dsimp only [id]

theorem updConn_eff (n key : Nat) (f : Conn → Conn) (d : Dev) : Eff 0x10000 d (updConn n key f d) := by
  unfold updConn
  try dsimp only
  repeat' first
    | with_reducible apply Eff.refl | with_reducible assumption | (apply Sub.of; rfl) | (apply Has.of; rfl) | intro _ | with_reducible apply ite_eff
    | (with_reducible apply Eff.step; with_reducible apply updQp_eff) | split | dsimp only [id]

theorem putCq_eff (n : Nat) (c : Option Cq) (d : Dev) : Eff 0x10000 d (putCq n c d) := by
  unfold putCq
  try dsimp only
  repeat' first
    | with_reducible apply Eff.refl | with_reducible assumption | (apply Sub.of; rfl) | (apply Has.of; rfl) | intro _ | with_reducible apply ite_eff
    | (with_reducible apply Eff.step; with_reducible apply updEng_eff) | split | dsimp only [id]

theorem backAt_eff (num a : Nat) (bytes : List Byte) (d : Dev) : Eff 0x1000f d (backAt num a bytes d) := by
  unfold backAt
  try dsimp only
  repeat' first
    | with_reducible apply Eff.refl | with_reducible assumption | (apply Sub.of; rfl) | (apply Has.of; rfl) | intro _ | with_reducible apply ite_eff
    | (with_reducible apply Eff.step; with_reducible apply access_eff) | (with_reducible apply Eff.step; with_reducible apply memWrites_eff)
    | (with_reducible apply Eff.step; with_reducible apply healBytes_eff) | split | dsimp only [id]

theorem backWrite_eff (num off : Nat) (bytes : List Byte) (d : Dev) : Eff 0x1000f d (backWrite num off bytes d) := by
  unfold backWrite
  try dsimp only
  repeat' first
    | with_reducible apply Eff.refl | with_reducible assumption | (apply Sub.of; rfl) | (apply Has.of; rfl) | intro _ | with_reducible apply ite_eff
    | (with_reducible apply Eff.step; with_reducible apply backAt_eff) | split | dsimp only [id]

theorem writeBackCq_eff (n : Nat) (d : Dev) : Eff 0x1000f d (writeBackCq n d) := by
  unfold writeBackCq
  try dsimp only
  repeat' first
    | with_reducible apply Eff.refl | with_reducible assumption | (apply Sub.of; rfl) | (apply Has.of; rfl) | intro _ | with_reducible apply ite_eff
    | (with_reducible apply forEach_eff) | (with_reducible apply Eff.step; with_reducible apply backWrite_eff) | split | dsimp only [id]

theorem touchCq_eff (n : Nat) (d : Dev) : Eff 0x1000f d (touchCq n d) := by
  unfold touchCq
  try dsimp only
  repeat' first
    | with_reducible apply Eff.refl | with_reducible assumption | (apply Sub.of; rfl) | (apply Has.of; rfl) | intro _ | with_reducible apply ite_eff
    | (with_reducible apply forEach_eff) | (with_reducible apply Eff.step; with_reducible apply writeBackCq_eff)
    | (with_reducible apply Eff.step; with_reducible apply updEng_eff) | split | dsimp only [id]

theorem cqe_eff (cqn by_ : Nat) (c : Cqe) (d : Dev) : Eff 0x1011f d (cqe cqn by_ c d) := by
  unfold cqe
  try dsimp only
  repeat' first
    | with_reducible apply Eff.refl | with_reducible assumption | (apply Sub.of; rfl) | (apply Has.of; rfl) | intro _ | with_reducible apply ite_eff
    | (with_reducible apply onlyIf_eff) | (with_reducible apply Eff.step; with_reducible apply bump_eff)
    | (with_reducible apply Eff.step; with_reducible apply touchCq_eff) | (with_reducible apply Eff.step; with_reducible apply putCq_eff)
    | (with_reducible apply Eff.step; with_reducible apply sliceEvent_eff) | (with_reducible apply Eff.step; with_reducible apply updEng_eff)
    | (with_reducible apply Eff.step; with_reducible apply access_eff) | split | dsimp only [id]

theorem flushSlot_eff (n : Nat) (q : Qp) (status : Nat) (slot : List Byte) (d : Dev) : Eff 0x1011f d (flushSlot n q status slot d) := by
  unfold flushSlot
  try dsimp only
  repeat' first
    | with_reducible apply Eff.refl | with_reducible assumption | (apply Sub.of; rfl) | (apply Has.of; rfl) | intro _ | with_reducible apply ite_eff
    | (with_reducible apply Eff.step; with_reducible apply cqe_eff) | (with_reducible apply Eff.step; with_reducible apply takeFree_eff) | split
    | dsimp only [id]

theorem flushRecv_eff (n : Nat) (q : Qp) (status : Nat) (r : RqEntry) (d : Dev) : Eff 0x1011f d (flushRecv n q status r d) := by
  unfold flushRecv
  try dsimp only
  repeat' first
    | with_reducible apply Eff.refl | with_reducible assumption | (apply Sub.of; rfl) | (apply Has.of; rfl) | intro _ | with_reducible apply ite_eff
    | (with_reducible apply Eff.step; with_reducible apply cqe_eff) | split | dsimp only [id]

end Sys2Proof.Machine
end

