-- ==== Sys2Proof/Laws/EffBrgOps.lean ====
section
/-!
SUPPORT. What each function of Machine/BrgOps.lean can change.
-/

namespace Sys2Proof.Machine

theorem updBw_eff (w : Nat) (f : BrgWin → BrgWin) (d : Dev) : Eff 0x10000 d (updBw w f d) := by
  unfold updBw
  try dsimp only
  repeat' first
    | with_reducible apply Eff.refl | with_reducible assumption | (apply Sub.of; rfl) | (apply Has.of; rfl) | intro _ | with_reducible apply ite_eff
    | (with_reducible apply Eff.step; with_reducible apply updEng_eff) | split | dsimp only [id]

theorem latchWin_eff (w cause psn : Nat) (told : Bool) (d : Dev) : Eff 0x1011d d (latchWin w cause psn told d) := by
  unfold latchWin
  try dsimp only
  repeat' first
    | with_reducible apply Eff.refl | with_reducible assumption | (apply Sub.of; rfl) | (apply Has.of; rfl) | intro _ | with_reducible apply ite_eff
    | (with_reducible apply onlyIf_eff) | (with_reducible apply Eff.step; with_reducible apply updBw_eff)
    | (with_reducible apply Eff.step; with_reducible apply raise_eff) | (with_reducible apply Eff.step; with_reducible apply sliceEvent_eff) | split
    | dsimp only [id]

theorem cplStatus_eff (r : BrgRead) (status : Nat) (d : Dev) : Eff 0xd d (cplStatus r status d) := by
  unfold cplStatus
  try dsimp only
  repeat' first
    | with_reducible apply Eff.refl | with_reducible assumption | (apply Sub.of; rfl) | (apply Has.of; rfl) | intro _ | with_reducible apply ite_eff
    | (with_reducible apply onlyIf_eff) | (with_reducible apply Eff.step; with_reducible apply emit_eff)
    | (with_reducible apply Eff.step; with_reducible apply bump_eff) | split | dsimp only [id]

theorem cplData_eff (r : BrgRead) (data : List Byte) (d : Dev) : Eff 0x4 d (cplData r data d) := by
  unfold cplData
  try dsimp only
  repeat' first
    | with_reducible apply Eff.refl | with_reducible assumption | (apply Sub.of; rfl) | (apply Has.of; rfl) | intro _ | with_reducible apply ite_eff
    | (with_reducible apply forEach_eff) | (with_reducible apply Eff.step; with_reducible apply emit_eff) | split | dsimp only [id]

theorem dropBrgRead_eff (id : Nat) (d : Dev) : Eff 0x10000 d (dropBrgRead id d) := by
  unfold dropBrgRead
  try dsimp only
  repeat' first
    | with_reducible apply Eff.refl | with_reducible assumption | (apply Sub.of; rfl) | (apply Has.of; rfl) | intro _ | with_reducible apply ite_eff
    | (with_reducible apply Eff.step; with_reducible apply updEng_eff) | split | dsimp only [id]

theorem abortBrgRead_eff (r : BrgRead) (d : Dev) : Eff 0x1000d d (abortBrgRead r d) := by
  unfold abortBrgRead
  try dsimp only
  repeat' first
    | with_reducible apply Eff.refl | with_reducible assumption | (apply Sub.of; rfl) | (apply Has.of; rfl) | intro _ | with_reducible apply ite_eff
    | (with_reducible apply Eff.step; with_reducible apply cplStatus_eff) | (with_reducible apply Eff.step; with_reducible apply dropBrgRead_eff)
    | split | dsimp only [id]

theorem endBrgRead_eff (r : BrgRead) (data : List Byte) (d : Dev) : Eff 0x1000d d (endBrgRead r data d) := by
  unfold endBrgRead
  try dsimp only
  repeat' first
    | with_reducible apply Eff.refl | with_reducible assumption | (apply Sub.of; rfl) | (apply Has.of; rfl) | intro _ | with_reducible apply ite_eff
    | (with_reducible apply Eff.step; with_reducible apply abortBrgRead_eff) | (with_reducible apply Eff.step; with_reducible apply cplData_eff)
    | (with_reducible apply Eff.step; with_reducible apply dropBrgRead_eff) | split | dsimp only [id]

theorem useBlocks_eff (r : BrgRead) (d : Dev) : Eff 0x10000 d (useBlocks r d) := by
  unfold useBlocks
  try dsimp only
  repeat' first
    | with_reducible apply Eff.refl | with_reducible assumption | (apply Sub.of; rfl) | (apply Has.of; rfl) | intro _ | with_reducible apply ite_eff
    | (with_reducible apply Eff.step; with_reducible apply updEng_eff) | split | dsimp only [id]

theorem clearLate_eff (d : Dev) : Eff 0x10000 d (clearLate d) := by
  unfold clearLate
  try dsimp only
  repeat' first
    | with_reducible apply Eff.refl | with_reducible assumption | (apply Sub.of; rfl) | (apply Has.of; rfl) | intro _ | with_reducible apply ite_eff
    | (with_reducible apply Eff.step; with_reducible apply updEng_eff) | split | dsimp only [id]

theorem readyPfReads_eff (d : Dev) : Eff 0x1000d d (readyPfReads d) := by
  unfold readyPfReads
  try dsimp only
  repeat' first
    | with_reducible apply Eff.refl | with_reducible assumption | (apply Sub.of; rfl) | (apply Has.of; rfl) | intro _ | with_reducible apply ite_eff
    | (with_reducible apply forEach_eff) | (with_reducible apply Eff.step; with_reducible apply useBlocks_eff)
    | (with_reducible apply Eff.step; with_reducible apply endBrgRead_eff) | (with_reducible apply Eff.step; with_reducible apply clearLate_eff)
    | split | dsimp only [id]

theorem readyBrgReads_eff (d : Dev) : Eff 0x1000d d (readyBrgReads d) := by
  unfold readyBrgReads
  try dsimp only
  repeat' first
    | with_reducible apply Eff.refl | with_reducible assumption | (apply Sub.of; rfl) | (apply Has.of; rfl) | intro _ | with_reducible apply ite_eff
    | (with_reducible apply forEach_eff) | (with_reducible apply Eff.step; with_reducible apply endBrgRead_eff) | split | dsimp only [id]

theorem retireWrite_eff (id : Nat) (grps : List Nat) (d : Dev) : Eff 0x1000d d (retireWrite id grps d) := by
  unfold retireWrite
  try dsimp only
  repeat' first
    | with_reducible apply Eff.refl | with_reducible assumption | (apply Sub.of; rfl) | (apply Has.of; rfl) | intro _ | with_reducible apply ite_eff
    | (with_reducible apply Eff.step; with_reducible apply updEng_eff) | (with_reducible apply Eff.step; with_reducible apply readyBrgReads_eff)
    | (with_reducible apply Eff.step; with_reducible apply readyPfReads_eff) | split | dsimp only [id]

theorem dropBlocks_eff (sel : PfBlock → Bool) (d : Dev) : Eff 0x10009 d (dropBlocks sel d) := by
  unfold dropBlocks
  try dsimp only
  repeat' first
    | with_reducible apply Eff.refl | with_reducible assumption | (apply Sub.of; rfl) | (apply Has.of; rfl) | intro _ | with_reducible apply ite_eff
    | (with_reducible apply Eff.step; with_reducible apply addI_eff) | (with_reducible apply Eff.step; with_reducible apply updEng_eff)
    | (with_reducible apply Eff.step; with_reducible apply clearLate_eff) | split | dsimp only [id]

theorem forgetWrites_eff (n : Nat) (d : Dev) : Eff 0x10000 d (forgetWrites n d) := by
  unfold forgetWrites
  try dsimp only
  repeat' first
    | with_reducible apply Eff.refl | with_reducible assumption | (apply Sub.of; rfl) | (apply Has.of; rfl) | intro _ | with_reducible apply ite_eff
    | (with_reducible apply Eff.step; with_reducible apply updEng_eff) | split | dsimp only [id]

theorem groupsDown_eff (n : Nat) (d : Dev) : Eff 0x1011d d (groupsDown n d) := by
  unfold groupsDown
  try dsimp only
  repeat' first
    | with_reducible apply Eff.refl | with_reducible assumption | (apply Sub.of; rfl) | (apply Has.of; rfl) | intro _ | with_reducible apply ite_eff
    | (with_reducible apply forEach_eff) | (with_reducible apply Eff.step; with_reducible apply latchWin_eff)
    | (with_reducible apply Eff.step; with_reducible apply abortBrgRead_eff) | (with_reducible apply Eff.step; with_reducible apply dropBlocks_eff)
    | split | dsimp only [id]

end Sys2Proof.Machine
end

