-- ==== Sys2Proof/Laws/EffMatchOps.lean ====
section
/-!
SUPPORT. What each function of Machine/MatchOps.lean can change.
-/

namespace Sys2Proof.Machine

theorem updQuad_eff (k : Nat) (f : Quad → Quad) (d : Dev) : Eff 0x10000 d (updQuad k f d) := by
  unfold updQuad
  try dsimp only
  repeat' first
    | with_reducible apply Eff.refl | with_reducible assumption | (apply Sub.of; rfl) | (apply Has.of; rfl) | intro _ | with_reducible apply ite_eff
    | (with_reducible apply Eff.step; with_reducible apply updEng_eff) | split | dsimp only [id]

theorem putCtx_eff (k i : Nat) (c : Option MCtx) (d : Dev) : Eff 0x10000 d (putCtx k i c d) := by
  unfold putCtx
  try dsimp only
  repeat' first
    | with_reducible apply Eff.refl | with_reducible assumption | (apply Sub.of; rfl) | (apply Has.of; rfl) | intro _ | with_reducible apply ite_eff
    | (with_reducible apply Eff.step; with_reducible apply updQuad_eff) | split | dsimp only [id]

theorem countQuad_eff (k before : Nat) (d : Dev) : Eff 0x11d d (countQuad k before d) := by
  unfold countQuad
  try dsimp only
  repeat' first
    | with_reducible apply Eff.refl | with_reducible assumption | (apply Sub.of; rfl) | (apply Has.of; rfl) | intro _ | with_reducible apply ite_eff
    | (with_reducible apply onlyIf_eff) | (with_reducible apply Eff.step; with_reducible apply wr_eff)
    | (with_reducible apply Eff.step; with_reducible apply raise_eff) | split | dsimp only [id]

theorem countSearch_eff (k : Nat) (r : Search) (d : Dev) : Eff 0x9 d (countSearch k r d) := by
  unfold countSearch
  try dsimp only
  repeat' first
    | with_reducible apply Eff.refl | with_reducible assumption | (apply Sub.of; rfl) | (apply Has.of; rfl) | intro _ | with_reducible apply ite_eff
    | (with_reducible apply onlyIf_eff) | (with_reducible apply foldl_eff) | (with_reducible apply Eff.step; with_reducible apply addI_eff)
    | (with_reducible apply Eff.step; with_reducible apply bump_eff) | (with_reducible apply Eff.step; with_reducible apply wr_eff) | split
    | dsimp only [id]

theorem matchCqe_eff (k ctx qpn wrId len rank cop status flags tag : Nat) (d : Dev) : Eff 0x1011f d (matchCqe k ctx qpn wrId len rank cop status flags tag d) := by
  unfold matchCqe
  try dsimp only
  repeat' first
    | with_reducible apply Eff.refl | with_reducible assumption | (apply Sub.of; rfl) | (apply Has.of; rfl) | intro _ | with_reducible apply ite_eff
    | (with_reducible apply Eff.step; with_reducible apply cqe_eff) | split | dsimp only [id]

theorem completeRecv_eff (k qpn : Nat) (p : Posted) (rank tag mlen : Nat) (sol rndv fromUx : Bool) (d : Dev) : Eff 0x1011f d (completeRecv k qpn p rank tag mlen sol rndv fromUx d) := by
  unfold completeRecv
  try dsimp only
  repeat' first
    | with_reducible apply Eff.refl | with_reducible assumption | (apply Sub.of; rfl) | (apply Has.of; rfl) | intro _ | with_reducible apply ite_eff
    | (with_reducible apply onlyIf_eff) | (with_reducible apply Eff.step; with_reducible apply bump_eff)
    | (with_reducible apply Eff.step; with_reducible apply matchCqe_eff) | split | dsimp only [id]

end Sys2Proof.Machine
end

