-- ==== Sys2Proof/Laws/EffTransit.lean ====
section
/-!
SUPPORT. What each function of Machine/Transit.lean can change.
-/

namespace Sys2Proof.Machine

theorem putMeter_eff (m : Nat) (x : Meter) (d : Dev) : Eff 0x8000 d (putMeter m x d) := by
  unfold putMeter
  try dsimp only
  repeat' first
    | with_reducible apply Eff.refl | with_reducible assumption | (apply Sub.of; rfl) | (apply Has.of; rfl) | intro _ | with_reducible apply ite_eff
    | (with_reducible apply Eff.last; with_reducible apply Prim.net) | split | dsimp only [id]

theorem meterTake_eff (p tc pre b : Nat) (d : Dev) : Eff 0x8000 d (meterTake p tc pre b d).2 := by
  unfold meterTake
  try dsimp only
  repeat' first
    | with_reducible apply Eff.refl | with_reducible assumption | (apply Sub.of; rfl) | (apply Has.of; rfl) | intro _ | with_reducible apply ite_eff
    | with_reducible apply ite_snd | (with_reducible apply Eff.step; with_reducible apply putMeter_eff) | split | dsimp only [id]

theorem meterPkt_eff (id p tc pre b : Nat) (d : Dev) : Eff 0x800d d (meterPkt id p tc pre b d) := by
  unfold meterPkt
  try dsimp only
  repeat' first
    | with_reducible apply Eff.refl | with_reducible assumption | (apply Sub.of; rfl) | (apply Has.of; rfl) | intro _ | with_reducible apply ite_eff
    | (with_reducible apply Eff.step; with_reducible apply meterTake_eff)
    | (with_reducible apply Eff.step; with_reducible apply eff_snd3; assumption; with_reducible apply meterTake_eff)
    | (with_reducible apply Eff.step; with_reducible apply dropPkt_eff) | (with_reducible apply Eff.step; with_reducible apply updPkt_eff) | split
    | dsimp only [id]

theorem putSample_eff (k c : Nat) (d : Dev) : Eff 0x8000 d (putSample k c d) := by
  unfold putSample
  try dsimp only
  repeat' first
    | with_reducible apply Eff.refl | with_reducible assumption | (apply Sub.of; rfl) | (apply Has.of; rfl) | intro _ | with_reducible apply ite_eff
    | (with_reducible apply Eff.last; with_reducible apply Prim.net) | split | dsimp only [id]

theorem judgeSession_eff (id k p : Nat) (egress : Bool) (d : Dev) : Eff 0x8000 d (judgeSession id k p egress d) := by
  unfold judgeSession
  try dsimp only
  repeat' first
    | with_reducible apply Eff.refl | with_reducible assumption | (apply Sub.of; rfl) | (apply Has.of; rfl) | intro _ | with_reducible apply ite_eff
    | (with_reducible apply onlyIf_eff) | (with_reducible apply Eff.step; with_reducible apply putSample_eff)
    | (with_reducible apply Eff.step; with_reducible apply updPkt_eff) | split | dsimp only [id]

theorem markIn_eff (id : Nat) (d : Dev) : Eff 0x8000 d (markIn id d) := by
  unfold markIn
  try dsimp only
  repeat' first
    | with_reducible apply Eff.refl | with_reducible assumption | (apply Sub.of; rfl) | (apply Has.of; rfl) | intro _ | with_reducible apply ite_eff
    | (with_reducible apply onlyIf_eff) | (with_reducible apply forEach_eff) | (with_reducible apply Eff.step; with_reducible apply judgeSession_eff)
    | (with_reducible apply Eff.step; with_reducible apply updPkt_eff) | split | dsimp only [id]

theorem markOut_eff (id : Nat) (d : Dev) : Eff 0x8000 d (markOut id d) := by
  unfold markOut
  try dsimp only
  repeat' first
    | with_reducible apply Eff.refl | with_reducible assumption | (apply Sub.of; rfl) | (apply Has.of; rfl) | intro _ | with_reducible apply ite_eff
    | (with_reducible apply onlyIf_eff) | (with_reducible apply forEach_eff) | (with_reducible apply Eff.step; with_reducible apply updPkt_eff)
    | (with_reducible apply Eff.step; with_reducible apply judgeSession_eff) | split | dsimp only [id]

theorem dropCopy_eff (k : Nat) (d : Dev) : Eff 0x811d d (dropCopy k d) := by
  unfold dropCopy
  try dsimp only
  repeat' first
    | with_reducible apply Eff.refl | with_reducible assumption | (apply Sub.of; rfl) | (apply Has.of; rfl) | intro _ | with_reducible apply ite_eff
    | split | (with_reducible apply Eff.step; with_reducible apply addI_eff) | (with_reducible apply Eff.step; with_reducible apply raise_eff)
    | (with_reducible apply Eff.last; with_reducible apply Prim.net) | split | dsimp only [id]

theorem admitCells_eff (id : Nat) (d : Dev) : Eff 0x811d d (admitCells id d) := by
  unfold admitCells
  try dsimp only
  repeat' first
    | with_reducible apply Eff.refl | with_reducible assumption | (apply Sub.of; rfl) | (apply Has.of; rfl) | intro _ | with_reducible apply ite_eff
    | (with_reducible apply onlyIf_eff) | (with_reducible apply forEach_eff) | (with_reducible apply Eff.step; with_reducible apply writeCell_eff)
    | (with_reducible apply Eff.step; with_reducible apply bump_eff) | (with_reducible apply Eff.step; with_reducible apply raise_eff)
    | (with_reducible apply Eff.step; with_reducible apply updPkt_eff) | (with_reducible apply Eff.step; with_reducible apply dropPkt_eff) | split
    | dsimp only [id]

theorem makeDescs_eff (id : Nat) (d : Dev) : Eff 0x8000 d (makeDescs id d) := by
  unfold makeDescs
  try dsimp only
  repeat' first
    | with_reducible apply Eff.refl | with_reducible assumption | (apply Sub.of; rfl) | (apply Has.of; rfl) | intro _ | with_reducible apply ite_eff
    | split | (with_reducible apply Eff.step; with_reducible apply markIn_eff) | (with_reducible apply Eff.step; with_reducible apply markOut_eff)
    | (with_reducible apply Eff.step; with_reducible apply updPkt_eff) | (with_reducible apply Eff.last; with_reducible apply Prim.net) | split
    | dsimp only [id]

theorem letGo_eff (id : Nat) (d : Dev) : Eff 0x800d d (letGo id d) := by
  unfold letGo
  try dsimp only
  repeat' first
    | with_reducible apply Eff.refl | with_reducible assumption | (apply Sub.of; rfl) | (apply Has.of; rfl) | intro _ | with_reducible apply ite_eff
    | (with_reducible apply forEach_eff) | (with_reducible apply Eff.step; with_reducible apply countRead_eff)
    | (with_reducible apply Eff.step; with_reducible apply dropPkt_eff) | split | dsimp only [id]

theorem handPkt_eff (q : Packet) (d : Dev) : Eff 0x4 d (handPkt q d) := by
  unfold handPkt
  try dsimp only
  repeat' first
    | with_reducible apply Eff.refl | with_reducible assumption | (apply Sub.of; rfl) | (apply Has.of; rfl) | intro _ | with_reducible apply ite_eff
    | (with_reducible apply Eff.step; with_reducible apply emit_eff) | split | dsimp only [id]

theorem putStage_eff (id k : Nat) (d : Dev) : Eff 0x8000 d (putStage id k d) := by
  unfold putStage
  try dsimp only
  repeat' first
    | with_reducible apply Eff.refl | with_reducible assumption | (apply Sub.of; rfl) | (apply Has.of; rfl) | intro _ | with_reducible apply ite_eff
    | (with_reducible apply Eff.last; with_reducible apply Prim.net) | split | dsimp only [id]

theorem turnAway_eff (t : Nat) (d : Dev) : Eff 0x10009 d (turnAway t d) := by
  unfold turnAway
  try dsimp only
  repeat' first
    | with_reducible apply Eff.refl | with_reducible assumption | (apply Sub.of; rfl) | (apply Has.of; rfl) | intro _ | with_reducible apply ite_eff
    | (with_reducible apply Eff.step; with_reducible apply bump_eff) | (with_reducible apply Eff.last; with_reducible apply Prim.eng) | split
    | dsimp only [id]

theorem takePkt_eff (id : Nat) (d : Dev) : Eff 0x1800d d (takePkt id d) := by
  unfold takePkt
  try dsimp only
  repeat' first
    | with_reducible apply Eff.refl | with_reducible assumption | (apply Sub.of; rfl) | (apply Has.of; rfl) | intro _ | with_reducible apply ite_eff
    | (with_reducible apply Eff.step; with_reducible apply putStage_eff) | (with_reducible apply Eff.step; with_reducible apply turnAway_eff)
    | (with_reducible apply Eff.step; with_reducible apply handPkt_eff) | (with_reducible apply Eff.step; with_reducible apply letGo_eff) | split
    | dsimp only [id]

theorem takeDirect_eff (id : Nat) (d : Dev) : Eff 0x1800d d (takeDirect id d) := by
  unfold takeDirect
  try dsimp only
  repeat' first
    | with_reducible apply Eff.refl | with_reducible assumption | (apply Sub.of; rfl) | (apply Has.of; rfl) | intro _ | with_reducible apply ite_eff
    | (with_reducible apply Eff.step; with_reducible apply takePkt_eff) | split | dsimp only [id]

theorem pushPkt_eff (q : Packet) (d : Dev) : Eff 0x8000 d (pushPkt q d) := by
  unfold pushPkt
  try dsimp only
  repeat' first
    | with_reducible apply Eff.refl | with_reducible assumption | (apply Sub.of; rfl) | (apply Has.of; rfl) | intro _ | with_reducible apply ite_eff
    | (with_reducible apply Eff.last; with_reducible apply Prim.net) | split | dsimp only [id]

theorem borrowCells_eff (id : Nat) (cs : List Cell) (d : Dev) : Eff 0x800d d (borrowCells id cs d) := by
  unfold borrowCells
  try dsimp only
  repeat' first
    | with_reducible apply Eff.refl | with_reducible assumption | (apply Sub.of; rfl) | (apply Has.of; rfl) | intro _ | with_reducible apply ite_eff
    | (with_reducible apply forEach_eff) | (with_reducible apply Eff.step; with_reducible apply updPkt_eff)
    | (with_reducible apply Eff.step; with_reducible apply bump_eff) | (with_reducible apply Eff.step; with_reducible apply dropPkt_eff) | split
    | dsimp only [id]

theorem copyToPort_eff (m : Mark) (isl : Nat) (c : MirCopy) (d : Dev) : Eff 0x811d d (copyToPort m isl c d) := by
  unfold copyToPort
  try dsimp only
  repeat' first
    | with_reducible apply Eff.refl | with_reducible assumption | (apply Sub.of; rfl) | (apply Has.of; rfl) | intro _ | with_reducible apply ite_eff
    | (with_reducible apply Eff.step; with_reducible apply pushPkt_eff) | (with_reducible apply Eff.step; with_reducible apply borrowCells_eff)
    | (with_reducible apply Eff.step; with_reducible apply makeDescs_eff) | (with_reducible apply Eff.step; with_reducible apply addI_eff)
    | (with_reducible apply Eff.step; with_reducible apply dropCopy_eff) | split | dsimp only [id]

theorem copyRemote_eff (m : Mark) (isl : Nat) (c : MirCopy) (d : Dev) : Eff 0x811d d (copyRemote m isl c d) := by
  unfold copyRemote
  try dsimp only
  repeat' first
    | with_reducible apply Eff.refl | with_reducible assumption | (apply Sub.of; rfl) | (apply Has.of; rfl) | intro _ | with_reducible apply ite_eff
    | (with_reducible apply Eff.step; with_reducible apply takeFree_eff) | (with_reducible apply Eff.step; with_reducible apply injectHeader_eff)
    | (with_reducible apply Eff.step; with_reducible apply eff_snd; assumption; with_reducible apply injectHeader_eff)
    | (with_reducible apply Eff.step; with_reducible apply pushPkt_eff) | (with_reducible apply Eff.step; with_reducible apply lookUp_eff)
    | (with_reducible apply Eff.step; with_reducible apply borrowCells_eff) | (with_reducible apply Eff.step; with_reducible apply makeDescs_eff)
    | (with_reducible apply Eff.step; with_reducible apply addI_eff) | (with_reducible apply Eff.step; with_reducible apply dropCopy_eff)
    | (with_reducible apply Eff.last; with_reducible apply Prim.net) | split | dsimp only [id]

theorem makeCopy_eff (m : Mark) (c : MirCopy) (isl : Nat) (d : Dev) : Eff 0x811d d (makeCopy m c isl d) := by
  unfold makeCopy
  try dsimp only
  repeat' first
    | with_reducible apply Eff.refl | with_reducible assumption | (apply Sub.of; rfl) | (apply Has.of; rfl) | intro _ | with_reducible apply ite_eff
    | split | (with_reducible apply Eff.step; with_reducible apply dropCopy_eff)
    | (with_reducible apply Eff.step; with_reducible apply copyToPort_eff) | (with_reducible apply Eff.step; with_reducible apply copyRemote_eff)
    | (with_reducible apply Eff.step; with_reducible apply addI_eff) | (with_reducible apply Eff.last; with_reducible apply Prim.net) | split
    | dsimp only [id]

theorem mirrorPkt_eff (id : Nat) (egress : Bool) (d : Dev) : Eff 0x811d d (mirrorPkt id egress d) := by
  unfold mirrorPkt
  try dsimp only
  repeat' first
    | with_reducible apply Eff.refl | with_reducible assumption | (apply Sub.of; rfl) | (apply Has.of; rfl) | intro _ | with_reducible apply ite_eff
    | (with_reducible apply forEach_eff) | (with_reducible apply Eff.step; with_reducible apply makeCopy_eff)
    | (with_reducible apply Eff.step; with_reducible apply updPkt_eff) | split | dsimp only [id]

theorem settle_eff (id : Nat) (d : Dev) : Eff 0x1811d d (settle id d) := by
  unfold settle
  try dsimp only
  repeat' first
    | with_reducible apply Eff.refl | with_reducible assumption | (apply Sub.of; rfl) | (apply Has.of; rfl) | intro _ | with_reducible apply ite_eff
    | (with_reducible apply Eff.step; with_reducible apply admitCells_eff) | (with_reducible apply Eff.step; with_reducible apply makeDescs_eff)
    | (with_reducible apply Eff.step; with_reducible apply mirrorPkt_eff) | (with_reducible apply Eff.step; with_reducible apply takeDirect_eff)
    | split | dsimp only [id]

theorem endOnWire_eff (q : Packet) (d : Dev) : Eff 0x4 d (endOnWire q d) := by
  unfold endOnWire
  try dsimp only
  repeat' first
    | with_reducible apply Eff.refl | with_reducible assumption | (apply Sub.of; rfl) | (apply Has.of; rfl) | intro _ | with_reducible apply ite_eff
    | (with_reducible apply Eff.step; with_reducible apply emit_eff) | split | dsimp only [id]

theorem sendOwn_eff (inP vc hdr : Nat) (body : List Byte) (d : Dev) : Eff 0x1811d d (sendOwn inP vc hdr body d) := by
  unfold sendOwn
  try dsimp only
  repeat' first
    | with_reducible apply Eff.refl | with_reducible assumption | (apply Sub.of; rfl) | (apply Has.of; rfl) | intro _ | with_reducible apply ite_eff
    | (with_reducible apply Eff.step; with_reducible apply injectHeader_eff)
    | (with_reducible apply Eff.step; with_reducible apply eff_snd; assumption; with_reducible apply injectHeader_eff)
    | (with_reducible apply Eff.step; with_reducible apply pushPkt_eff) | (with_reducible apply Eff.step; with_reducible apply lookUp_eff)
    | (with_reducible apply Eff.step; with_reducible apply settle_eff) | split | dsimp only [id]

theorem sendBy_eff (inP p vc hdr : Nat) (body : List Byte) (d : Dev) : Eff 0x1811d d (sendBy inP p vc hdr body d) := by
  unfold sendBy
  try dsimp only
  repeat' first
    | with_reducible apply Eff.refl | with_reducible assumption | (apply Sub.of; rfl) | (apply Has.of; rfl) | intro _ | with_reducible apply ite_eff
    | (with_reducible apply Eff.step; with_reducible apply injectHeader_eff)
    | (with_reducible apply Eff.step; with_reducible apply eff_snd; assumption; with_reducible apply injectHeader_eff)
    | (with_reducible apply Eff.step; with_reducible apply pushPkt_eff) | (with_reducible apply Eff.step; with_reducible apply setEgress_eff)
    | (with_reducible apply Eff.step; with_reducible apply settle_eff) | split | dsimp only [id]

theorem sendMgmt_eff (dlid : Nat) (fields : List Nat) (d : Dev) : Eff 0x1811d d (sendMgmt dlid fields d) := by
  unfold sendMgmt
  try dsimp only
  repeat' first
    | with_reducible apply Eff.refl | with_reducible assumption | (apply Sub.of; rfl) | (apply Has.of; rfl) | intro _ | with_reducible apply ite_eff
    | (with_reducible apply Eff.step; with_reducible apply takeFree_eff) | (with_reducible apply Eff.step; with_reducible apply sendOwn_eff) | split
    | dsimp only [id]

theorem endPkt_eff (id : Nat) (q : Packet) (d : Dev) : Eff 0x811d d (endPkt id q d) := by
  unfold endPkt
  try dsimp only
  repeat' first
    | with_reducible apply Eff.refl | with_reducible assumption | (apply Sub.of; rfl) | (apply Has.of; rfl) | intro _ | with_reducible apply ite_eff
    | (with_reducible apply Eff.step; with_reducible apply endOnWire_eff) | (with_reducible apply Eff.step; with_reducible apply updPkt_eff)
    | (with_reducible apply Eff.step; with_reducible apply markIn_eff) | (with_reducible apply Eff.step; with_reducible apply mirrorPkt_eff) | split
    | dsimp only [id]

theorem failPkt_eff (id : Nat) (d : Dev) : Eff 0x1811d d (failPkt id d) := by
  unfold failPkt
  try dsimp only
  repeat' first
    | with_reducible apply Eff.refl | with_reducible assumption | (apply Sub.of; rfl) | (apply Has.of; rfl) | intro _ | with_reducible apply ite_eff
    | (with_reducible apply Eff.step; with_reducible apply endPkt_eff) | (with_reducible apply Eff.step; with_reducible apply takePkt_eff)
    | (with_reducible apply Eff.step; with_reducible apply dropPkt_eff) | split | dsimp only [id]

theorem arrive_eff (id : Nat) (bytes : List Byte) (tail poison : Bool) (d : Dev) : Eff 0x1811d d (arrive id bytes tail poison d) := by
  unfold arrive
  try dsimp only
  repeat' first
    | with_reducible apply Eff.refl | with_reducible assumption | (apply Sub.of; rfl) | (apply Has.of; rfl) | intro _ | with_reducible apply ite_eff
    | (with_reducible apply Eff.step; with_reducible apply updPkt_eff) | (with_reducible apply Eff.step; with_reducible apply admitCells_eff)
    | (with_reducible apply Eff.step; with_reducible apply endPkt_eff) | (with_reducible apply Eff.step; with_reducible apply makeDescs_eff)
    | (with_reducible apply Eff.step; with_reducible apply dropPkt_eff) | (with_reducible apply Eff.step; with_reducible apply mirrorPkt_eff)
    | (with_reducible apply Eff.step; with_reducible apply takeDirect_eff) | split | dsimp only [id]

theorem moveRoute_eff (id : Nat) (d : Dev) : Eff 0x1811d d (moveRoute id d) := by
  unfold moveRoute
  try dsimp only
  repeat' first
    | with_reducible apply Eff.refl | with_reducible assumption | (apply Sub.of; rfl) | (apply Has.of; rfl) | intro _ | with_reducible apply ite_eff
    | (with_reducible apply Eff.step; with_reducible apply detachDescs_eff) | (with_reducible apply Eff.step; with_reducible apply updPkt_eff)
    | (with_reducible apply Eff.step; with_reducible apply lookUp_eff) | (with_reducible apply Eff.step; with_reducible apply makeDescs_eff)
    | (with_reducible apply Eff.step; with_reducible apply takeDirect_eff) | split | dsimp only [id]

theorem lookUpAgain_eff (id : Nat) (d : Dev) : Eff 0x1811d d (lookUpAgain id d) := by
  unfold lookUpAgain
  try dsimp only
  repeat' first
    | with_reducible apply Eff.refl | with_reducible assumption | (apply Sub.of; rfl) | (apply Has.of; rfl) | intro _ | with_reducible apply ite_eff
    | (with_reducible apply Eff.step; with_reducible apply bump_eff) | (with_reducible apply Eff.step; with_reducible apply moveRoute_eff) | split
    | dsimp only [id]

theorem retryHeld_eff (d : Dev) : Eff 0x1811d d (retryHeld d) := by
  unfold retryHeld
  try dsimp only
  repeat' first
    | with_reducible apply Eff.refl | with_reducible assumption | (apply Sub.of; rfl) | (apply Has.of; rfl) | intro _ | with_reducible apply ite_eff
    | (with_reducible apply forEach_eff) | (with_reducible apply Eff.step; with_reducible apply lookUpAgain_eff) | split | dsimp only [id]

theorem putQueue_eff (p q : Nat) (l : List Nat) (d : Dev) : Eff 0x8000 d (putQueue p q l d) := by
  unfold putQueue
  try dsimp only
  repeat' first
    | with_reducible apply Eff.refl | with_reducible assumption | (apply Sub.of; rfl) | (apply Has.of; rfl) | intro _ | with_reducible apply ite_eff
    | (with_reducible apply Eff.last; with_reducible apply Prim.net) | split | dsimp only [id]

theorem updSched_eff (p : Nat) (f : Sched → Sched) (d : Dev) : Eff 0x8000 d (updSched p f d) := by
  unfold updSched
  try dsimp only
  repeat' first
    | with_reducible apply Eff.refl | with_reducible assumption | (apply Sub.of; rfl) | (apply Has.of; rfl) | intro _ | with_reducible apply ite_eff
    | (with_reducible apply Eff.last; with_reducible apply Prim.net) | split | dsimp only [id]

theorem enqueueDesc_eff (x : Desc) (d : Dev) : Eff 0x1811d d (enqueueDesc x d) := by
  unfold enqueueDesc
  try dsimp only
  repeat' first
    | with_reducible apply Eff.refl | with_reducible assumption | (apply Sub.of; rfl) | (apply Has.of; rfl) | intro _ | with_reducible apply ite_eff
    | (with_reducible apply Eff.step; with_reducible apply updPkt_eff) | (with_reducible apply Eff.step; with_reducible apply takePkt_eff)
    | (with_reducible apply Eff.step; with_reducible apply bump_eff) | (with_reducible apply Eff.step; with_reducible apply raise_eff)
    | (with_reducible apply Eff.step; with_reducible apply dropPkt_eff) | (with_reducible apply Eff.step; with_reducible apply putQueue_eff) | split
    | dsimp only [id]

end Sys2Proof.Machine
end

