-- ==== Sys2Proof/Laws/EffQpOps.lean ====
section
/-!
SUPPORT. What each function of Machine/QpOps.lean can change.
-/

namespace Sys2Proof.Machine

theorem ownLid_eff (v : Nat) (d : Dev) : Eff 0x8 d (ownLid v d).2 := by
  unfold ownLid
  try dsimp only
  repeat' first
    | with_reducible apply Eff.refl | with_reducible assumption | (apply Sub.of; rfl) | (apply Has.of; rfl) | intro _ | with_reducible apply ite_eff
    | with_reducible apply ite_snd | (with_reducible apply Eff.step; with_reducible apply takeFree_eff) | split | dsimp only [id]

theorem sendSft_eff (n dlid dqpn tc vc : Nat) (ect : Bool) (b : List Byte) (d : Dev) : Eff 0x1811d d (sendSft n dlid dqpn tc vc ect b d) := by
  unfold sendSft
  try dsimp only
  repeat' first
    | with_reducible apply Eff.refl | with_reducible assumption | (apply Sub.of; rfl) | (apply Has.of; rfl) | intro _ | with_reducible apply ite_eff
    | (with_reducible apply Eff.step; with_reducible apply ownLid_eff)
    | (with_reducible apply Eff.step; with_reducible apply eff_snd; assumption; with_reducible apply ownLid_eff)
    | (with_reducible apply Eff.step; with_reducible apply emit_eff) | (with_reducible apply Eff.step; with_reducible apply bump_eff)
    | (with_reducible apply Eff.step; with_reducible apply sendOwn_eff) | split | dsimp only [id]

theorem sendReq_eff (n : Nat) (q : Qp) (key : Nat) (t : TxPkt) (d : Dev) : Eff 0x1811d d (sendReq n q key t d) := by
  unfold sendReq
  try dsimp only
  repeat' first
    | with_reducible apply Eff.refl | with_reducible assumption | (apply Sub.of; rfl) | (apply Has.of; rfl) | intro _ | with_reducible apply ite_eff
    | (with_reducible apply Eff.step; with_reducible apply sendSft_eff) | (with_reducible apply Eff.step; with_reducible apply updQp_eff) | split
    | dsimp only [id]

theorem sendResp_eff (n key opc psn synd rnr : Nat) (aeth : Bool) (rest : List Byte) (d : Dev) : Eff 0x1811d d (sendResp n key opc psn synd rnr aeth rest d) := by
  unfold sendResp
  try dsimp only
  repeat' first
    | with_reducible apply Eff.refl | with_reducible assumption | (apply Sub.of; rfl) | (apply Has.of; rfl) | intro _ | with_reducible apply ite_eff
    | (with_reducible apply onlyIf_eff) | (with_reducible apply Eff.step; with_reducible apply takeFree_eff)
    | (with_reducible apply Eff.step; with_reducible apply sendSft_eff) | (with_reducible apply Eff.step; with_reducible apply updConn_eff) | split
    | dsimp only [id]

theorem sendAck_eff (n key : Nat) (d : Dev) : Eff 0x1811d d (sendAck n key d) := by
  unfold sendAck
  try dsimp only
  repeat' first
    | with_reducible apply Eff.refl | with_reducible assumption | (apply Sub.of; rfl) | (apply Has.of; rfl) | intro _ | with_reducible apply ite_eff
    | (with_reducible apply Eff.step; with_reducible apply updConn_eff) | (with_reducible apply Eff.step; with_reducible apply sendResp_eff) | split
    | dsimp only [id]

theorem sendNak_eff (n key psn synd rnr : Nat) (d : Dev) : Eff 0x1811d d (sendNak n key psn synd rnr d) := by
  unfold sendNak
  try dsimp only
  repeat' first
    | with_reducible apply Eff.refl | with_reducible assumption | (apply Sub.of; rfl) | (apply Has.of; rfl) | intro _ | with_reducible apply ite_eff
    | (with_reducible apply Eff.step; with_reducible apply sendResp_eff) | split | dsimp only [id]

theorem addWqe_eff (n : Nat) (kind : WKind) (f : Wqe → Wqe) (d : Dev) : Eff 0x10000 d (addWqe n kind f d) := by
  unfold addWqe
  try dsimp only
  repeat' first
    | with_reducible apply Eff.refl | with_reducible assumption | (apply Sub.of; rfl) | (apply Has.of; rfl) | intro _ | with_reducible apply ite_eff
    | (with_reducible apply Eff.step; with_reducible apply updQp_eff) | split | dsimp only [id]

theorem addFinish_eff (n rid : Nat) (discarded : Bool) (d : Dev) : Eff 0x10000 d (addFinish n rid discarded d) := by
  unfold addFinish
  try dsimp only
  repeat' first
    | with_reducible apply Eff.refl | with_reducible assumption | (apply Sub.of; rfl) | (apply Has.of; rfl) | intro _ | with_reducible apply ite_eff
    | (with_reducible apply Eff.step; with_reducible apply addWqe_eff) | split | dsimp only [id]

theorem rndvDone_eff (k slot : Nat) (d : Dev) : Eff 0x1011f d (rndvDone k slot d) := by
  unfold rndvDone
  try dsimp only
  repeat' first
    | with_reducible apply Eff.refl | with_reducible assumption | (apply Sub.of; rfl) | (apply Has.of; rfl) | intro _ | with_reducible apply ite_eff
    | (with_reducible apply Eff.step; with_reducible apply addFinish_eff) | (with_reducible apply Eff.step; with_reducible apply updQuad_eff)
    | (with_reducible apply Eff.step; with_reducible apply completeRecv_eff) | split | dsimp only [id]

theorem endSq_eff (n : Nat) (q : Qp) (w : Wqe) (d : Dev) : Eff 0x1011f d (endSq n q w d) := by
  unfold endSq
  try dsimp only
  repeat' first
    | with_reducible apply Eff.refl | with_reducible assumption | (apply Sub.of; rfl) | (apply Has.of; rfl) | intro _ | with_reducible apply ite_eff
    | (with_reducible apply Eff.step; with_reducible apply takeFree_eff) | (with_reducible apply Eff.step; with_reducible apply cqe_eff) | split
    | dsimp only [id]

theorem finishWqe_eff (n : Nat) (q : Qp) (w : Wqe) (d : Dev) : Eff 0x1011f d (finishWqe n q w d) := by
  unfold finishWqe
  try dsimp only
  repeat' first
    | with_reducible apply Eff.refl | with_reducible assumption | (apply Sub.of; rfl) | (apply Has.of; rfl) | intro _ | with_reducible apply ite_eff
    | (with_reducible apply Eff.step; with_reducible apply endSq_eff) | (with_reducible apply Eff.step; with_reducible apply retireWrite_eff)
    | (with_reducible apply Eff.step; with_reducible apply endBrgRead_eff) | (with_reducible apply Eff.step; with_reducible apply bump_eff)
    | (with_reducible apply Eff.step; with_reducible apply updEng_eff) | (with_reducible apply Eff.step; with_reducible apply readyPfReads_eff)
    | (with_reducible apply Eff.step; with_reducible apply rndvDone_eff) | split | dsimp only [id]

theorem drainCheck_eff (n : Nat) (d : Dev) : Eff 0x1011d d (drainCheck n d) := by
  unfold drainCheck
  try dsimp only
  repeat' first
    | with_reducible apply Eff.refl | with_reducible assumption | (apply Sub.of; rfl) | (apply Has.of; rfl) | intro _ | with_reducible apply ite_eff
    | (with_reducible apply Eff.step; with_reducible apply updQp_eff) | (with_reducible apply Eff.step; with_reducible apply sliceEvent_eff) | split
    | dsimp only [id]

theorem completeWqes_eff (n : Nat) (d : Dev) : Eff 0x1011f d (completeWqes n d) := by
  unfold completeWqes
  try dsimp only
  repeat' first
    | with_reducible apply Eff.refl | with_reducible assumption | (apply Sub.of; rfl) | (apply Has.of; rfl) | intro _ | with_reducible apply ite_eff
    | (with_reducible apply forEach_eff) | (with_reducible apply Eff.step; with_reducible apply updQp_eff)
    | (with_reducible apply Eff.step; with_reducible apply finishWqe_eff) | (with_reducible apply Eff.step; with_reducible apply drainCheck_eff)
    | split | dsimp only [id]

theorem endInbound_eff (n : Nat) (q : Qp) (status : Nat) (c : Conn) (d : Dev) : Eff 0x1011f d (endInbound n q status c d) := by
  unfold endInbound
  try dsimp only
  repeat' first
    | with_reducible apply Eff.refl | with_reducible assumption | (apply Sub.of; rfl) | (apply Has.of; rfl) | intro _ | with_reducible apply ite_eff
    | (with_reducible apply Eff.step; with_reducible apply flushRecv_eff) | (with_reducible apply Eff.step; with_reducible apply matchCqe_eff)
    | (with_reducible apply Eff.step; with_reducible apply updQuad_eff) | (with_reducible apply Eff.step; with_reducible apply countQuad_eff) | split
    | dsimp only [id]

theorem endRndvs_eff (n status : Nat) (d : Dev) : Eff 0x1011f d (endRndvs n status d) := by
  unfold endRndvs
  try dsimp only
  repeat' first
    | with_reducible apply Eff.refl | with_reducible assumption | (apply Sub.of; rfl) | (apply Has.of; rfl) | intro _ | with_reducible apply ite_eff
    | (with_reducible apply forEach_eff) | (with_reducible apply Eff.step; with_reducible apply updQuad_eff)
    | (with_reducible apply Eff.step; with_reducible apply matchCqe_eff) | split | dsimp only [id]

theorem failWqe_eff (n : Nat) (q : Qp) (e : Ending) (w : Wqe) (d : Dev) : Eff 0x1011f d (failWqe n q e w d) := by
  unfold failWqe
  try dsimp only
  repeat' first
    | with_reducible apply Eff.refl | with_reducible assumption | (apply Sub.of; rfl) | (apply Has.of; rfl) | intro _ | with_reducible apply ite_eff
    | (with_reducible apply onlyIf_eff) | (with_reducible apply Eff.step; with_reducible apply endSq_eff)
    | (with_reducible apply Eff.step; with_reducible apply bump_eff) | split | dsimp only [id]

theorem enterError_eff (n : Nat) (e : Ending) (d : Dev) : Eff 0x1011f d (enterError n e d) := by
  unfold enterError
  try dsimp only
  repeat' first
    | with_reducible apply Eff.refl | with_reducible assumption | (apply Sub.of; rfl) | (apply Has.of; rfl) | intro _ | with_reducible apply ite_eff
    | (with_reducible apply onlyIf_eff) | (with_reducible apply forEach_eff) | (with_reducible apply Eff.step; with_reducible apply updQp_eff)
    | (with_reducible apply Eff.step; with_reducible apply groupsDown_eff) | (with_reducible apply Eff.step; with_reducible apply forgetWrites_eff)
    | (with_reducible apply Eff.step; with_reducible apply failWqe_eff) | (with_reducible apply Eff.step; with_reducible apply flushSlot_eff)
    | (with_reducible apply Eff.step; with_reducible apply endInbound_eff) | (with_reducible apply Eff.step; with_reducible apply endRndvs_eff)
    | (with_reducible apply Eff.step; with_reducible apply flushRecv_eff) | (with_reducible apply Eff.step; with_reducible apply updEng_eff)
    | (with_reducible apply Eff.step; with_reducible apply sliceEvent_eff) | split | dsimp only [id]

theorem settleFails_eff  (fuel : Nat) (d : Dev) : Eff 0x1011f d (settleFails  fuel d) := by
  induction fuel generalizing d with
  | zero =>
    unfold settleFails
    try dsimp only
    repeat' first
      | with_reducible apply Eff.refl | with_reducible assumption | (apply Sub.of; rfl) | (apply Has.of; rfl) | intro _ | with_reducible apply ite_eff
      | (with_reducible apply Eff.step; with_reducible apply updEng_eff) | (with_reducible apply Eff.step; with_reducible apply enterError_eff) | split
      | dsimp only [id]
  | succ fuel ih =>
    unfold settleFails
    try dsimp only
    repeat' first
      | (with_reducible apply Eff.step; with_reducible apply ih)
      | with_reducible apply Eff.refl | with_reducible assumption | (apply Sub.of; rfl) | (apply Has.of; rfl) | intro _ | with_reducible apply ite_eff
      | (with_reducible apply Eff.step; with_reducible apply updEng_eff) | (with_reducible apply Eff.step; with_reducible apply enterError_eff) | split
      | dsimp only [id]

theorem takeEce_eff (n : Nat) (ece : Bool) (d : Dev) : Eff 0x10009 d (takeEce n ece d) := by
  unfold takeEce
  try dsimp only
  repeat' first
    | with_reducible apply Eff.refl | with_reducible assumption | (apply Sub.of; rfl) | (apply Has.of; rfl) | intro _ | with_reducible apply ite_eff
    | (with_reducible apply Eff.step; with_reducible apply bump_eff) | (with_reducible apply Eff.step; with_reducible apply updQp_eff) | split
    | dsimp only [id]

theorem beginPass_eff (n key from_ : Nat) (d : Dev) : Eff 0x1011f d (beginPass n key from_ d) := by
  unfold beginPass
  try dsimp only
  repeat' first
    | with_reducible apply Eff.refl | with_reducible assumption | (apply Sub.of; rfl) | (apply Has.of; rfl) | intro _ | with_reducible apply ite_eff
    | (with_reducible apply forEach_eff) | (with_reducible apply Eff.step; with_reducible apply updConn_eff)
    | (with_reducible apply Eff.step; with_reducible apply latchWin_eff) | (with_reducible apply Eff.step; with_reducible apply enterError_eff)
    | (with_reducible apply Eff.step; with_reducible apply sliceEvent_eff) | split | dsimp only [id]

theorem touchCtx_eff (n : Nat) (d : Dev) : Eff 0x10000 d (touchCtx n d) := by
  unfold touchCtx
  try dsimp only
  repeat' first
    | with_reducible apply Eff.refl | with_reducible assumption | (apply Sub.of; rfl) | (apply Has.of; rfl) | intro _ | with_reducible apply ite_eff
    | (with_reducible apply Eff.step; with_reducible apply updEng_eff) | split | dsimp only [id]

theorem writePeer_eff (n : Nat) (q : Qp) (valid : Bool) (c : Conn) (d : Dev) : Eff 0x1000f d (writePeer n q valid c d) := by
  unfold writePeer
  try dsimp only
  repeat' first
    | with_reducible apply Eff.refl | with_reducible assumption | (apply Sub.of; rfl) | (apply Has.of; rfl) | intro _ | with_reducible apply ite_eff
    | (with_reducible apply onlyIf_eff) | (with_reducible apply Eff.step; with_reducible apply backAt_eff) | split | dsimp only [id]

theorem writeBack_eff (n : Nat) (d : Dev) : Eff 0x1000f d (writeBack n d) := by
  unfold writeBack
  try dsimp only
  repeat' first
    | with_reducible apply Eff.refl | with_reducible assumption | (apply Sub.of; rfl) | (apply Has.of; rfl) | intro _ | with_reducible apply ite_eff
    | (with_reducible apply onlyIf_eff) | (with_reducible apply forEach_eff) | (with_reducible apply Eff.step; with_reducible apply backWrite_eff)
    | (with_reducible apply Eff.step; with_reducible apply takeFree_eff) | (with_reducible apply Eff.step; with_reducible apply writePeer_eff) | split
    | dsimp only [id]

theorem cacheCtx_eff (n : Nat) (d : Dev) : Eff 0x1000f d (cacheCtx n d) := by
  unfold cacheCtx
  try dsimp only
  repeat' first
    | with_reducible apply Eff.refl | with_reducible assumption | (apply Sub.of; rfl) | (apply Has.of; rfl) | intro _ | with_reducible apply ite_eff
    | (with_reducible apply forEach_eff) | (with_reducible apply Eff.step; with_reducible apply writeBack_eff)
    | (with_reducible apply Eff.step; with_reducible apply updEng_eff) | split | dsimp only [id]

theorem startFetch_eff (n : Nat) (d : Dev) : Eff 0x10000 d (startFetch n d) := by
  unfold startFetch
  try dsimp only
  repeat' first
    | with_reducible apply Eff.refl | with_reducible assumption | (apply Sub.of; rfl) | (apply Has.of; rfl) | intro _ | with_reducible apply ite_eff
    | (with_reducible apply Eff.step; with_reducible apply updEng_eff) | split | dsimp only [id]

end Sys2Proof.Machine
end

