-- ==== Sys2Proof/Laws/EffRespOps.lean ====
section
/-!
SUPPORT. What each function of Machine/RespOps.lean can change.
-/

namespace Sys2Proof.Machine

theorem answerRnr_eff (n key : Nat) (q : Qp) (psn : Nat) (d : Dev) : Eff 0x1811d d (answerRnr n key q psn d) := by
  unfold answerRnr
  try dsimp only
  repeat' first
    | with_reducible apply Eff.refl | with_reducible assumption | (apply Sub.of; rfl) | (apply Has.of; rfl) | intro _ | with_reducible apply ite_eff
    | (with_reducible apply Eff.step; with_reducible apply sendNak_eff) | (with_reducible apply Eff.step; with_reducible apply bump_eff) | split
    | dsimp only [id]

theorem answerError_eff (n key synd psn : Nat) (d : Dev) : Eff 0x1811f d (answerError n key synd psn d) := by
  unfold answerError
  try dsimp only
  repeat' first
    | with_reducible apply Eff.refl | with_reducible assumption | (apply Sub.of; rfl) | (apply Has.of; rfl) | intro _ | with_reducible apply ite_eff
    | (with_reducible apply Eff.step; with_reducible apply sendNak_eff) | (with_reducible apply Eff.step; with_reducible apply enterError_eff) | split
    | dsimp only [id]

theorem answerKey_eff (n key : Nat) (q : Qp) (step psn : Nat) (d : Dev) : Eff 0x1811f d (answerKey n key q step psn d) := by
  unfold answerKey
  try dsimp only
  repeat' first
    | with_reducible apply Eff.refl | with_reducible assumption | (apply Sub.of; rfl) | (apply Has.of; rfl) | intro _ | with_reducible apply ite_eff
    | (with_reducible apply Eff.step; with_reducible apply sliceEvent_eff) | (with_reducible apply Eff.step; with_reducible apply answerError_eff)
    | split | dsimp only [id]

theorem accept_eff (n key k : Nat) (message : Bool) (p : SftPkt) (d : Dev) : Eff 0x10000 d (accept n key k message p d) := by
  unfold accept
  try dsimp only
  repeat' first
    | with_reducible apply Eff.refl | with_reducible assumption | (apply Sub.of; rfl) | (apply Has.of; rfl) | intro _ | with_reducible apply ite_eff
    | (with_reducible apply Eff.step; with_reducible apply updConn_eff) | split | dsimp only [id]

theorem ackPolicy_eff (n key : Nat) (ackReq : Bool) (d : Dev) : Eff 0x1811d d (ackPolicy n key ackReq d) := by
  unfold ackPolicy
  try dsimp only
  repeat' first
    | with_reducible apply Eff.refl | with_reducible assumption | (apply Sub.of; rfl) | (apply Has.of; rfl) | intro _ | with_reducible apply ite_eff
    | (with_reducible apply Eff.step; with_reducible apply updConn_eff) | (with_reducible apply Eff.step; with_reducible apply sendAck_eff) | split
    | dsimp only [id]

theorem landRecv_eff (n : Nat) (q : Qp) (e : RqEntry) (got : Nat) (bytes : List Byte) (d : Dev) : Eff 0x1000f d (landRecv n q e got bytes d) := by
  unfold landRecv
  try dsimp only
  repeat' first
    | with_reducible apply Eff.refl | with_reducible assumption | (apply Sub.of; rfl) | (apply Has.of; rfl) | intro _ | with_reducible apply ite_eff
    | (with_reducible apply Eff.step; with_reducible apply writeKey_eff) | split | dsimp only [id]

theorem setInn_eff (n key : Nat) (i : Inbound) (d : Dev) : Eff 0x10000 d (setInn n key i d) := by
  unfold setInn
  try dsimp only
  repeat' first
    | with_reducible apply Eff.refl | with_reducible assumption | (apply Sub.of; rfl) | (apply Has.of; rfl) | intro _ | with_reducible apply ite_eff
    | (with_reducible apply Eff.step; with_reducible apply updConn_eff) | split | dsimp only [id]

theorem takeRecv_eff (n : Nat) (d : Dev) : Eff 0x10000 d (takeRecv n d) := by
  unfold takeRecv
  try dsimp only
  repeat' first
    | with_reducible apply Eff.refl | with_reducible assumption | (apply Sub.of; rfl) | (apply Has.of; rfl) | intro _ | with_reducible apply ite_eff
    | (with_reducible apply Eff.step; with_reducible apply updQp_eff) | split | dsimp only [id]

theorem recvCqe_eff (n : Nat) (q : Qp) (p : SftPkt) (e : RqEntry) (len : Nat) (d : Dev) : Eff 0x1011f d (recvCqe n q p e len d) := by
  unfold recvCqe
  try dsimp only
  repeat' first
    | with_reducible apply Eff.refl | with_reducible assumption | (apply Sub.of; rfl) | (apply Has.of; rfl) | intro _ | with_reducible apply ite_eff
    | (with_reducible apply Eff.step; with_reducible apply cqe_eff) | split | dsimp only [id]

theorem doSend_eff (n key : Nat) (q : Qp) (p : SftPkt) (d : Dev) : Eff 0x1811f d (doSend n key q p d) := by
  unfold doSend
  try dsimp only
  repeat' first
    | with_reducible apply Eff.refl | with_reducible assumption | (apply Sub.of; rfl) | (apply Has.of; rfl) | intro _ | with_reducible apply ite_eff
    | (with_reducible apply onlyIf_eff) | (with_reducible apply Eff.step; with_reducible apply setInn_eff)
    | (with_reducible apply Eff.step; with_reducible apply accept_eff) | (with_reducible apply Eff.step; with_reducible apply ackPolicy_eff)
    | (with_reducible apply Eff.step; with_reducible apply flushRecv_eff) | (with_reducible apply Eff.step; with_reducible apply answerError_eff)
    | (with_reducible apply Eff.step; with_reducible apply landRecv_eff) | (with_reducible apply Eff.step; with_reducible apply recvCqe_eff)
    | (with_reducible apply Eff.step; with_reducible apply answerRnr_eff) | (with_reducible apply Eff.step; with_reducible apply takeRecv_eff) | split
    | dsimp only [id]

theorem startRndv_eff (k qpn : Nat) (post : Posted) (rank tag mlen vaddr rkey rid : Nat) (sol fromUx : Bool) (d : Dev) : Eff 0x1011f d (startRndv k qpn post rank tag mlen vaddr rkey rid sol fromUx d) := by
  unfold startRndv
  try dsimp only
  repeat' first
    | with_reducible apply Eff.refl | with_reducible assumption | (apply Sub.of; rfl) | (apply Has.of; rfl) | intro _ | with_reducible apply ite_eff
    | (with_reducible apply Eff.step; with_reducible apply bump_eff) | (with_reducible apply Eff.step; with_reducible apply matchCqe_eff)
    | (with_reducible apply Eff.step; with_reducible apply addFinish_eff) | (with_reducible apply Eff.step; with_reducible apply updQuad_eff)
    | (with_reducible apply Eff.step; with_reducible apply rndvDone_eff) | (with_reducible apply Eff.step; with_reducible apply addWqe_eff) | split
    | dsimp only [id]

theorem moreMatched_eff (n key : Nat) (q : Qp) (i : Inbound) (p : SftPkt) (d : Dev) : Eff 0x1811f d (moreMatched n key q i p d) := by
  unfold moreMatched
  try dsimp only
  repeat' first
    | with_reducible apply Eff.refl | with_reducible assumption | (apply Sub.of; rfl) | (apply Has.of; rfl) | intro _ | with_reducible apply ite_eff
    | (with_reducible apply onlyIf_eff) | (with_reducible apply Eff.step; with_reducible apply accept_eff)
    | (with_reducible apply Eff.step; with_reducible apply ackPolicy_eff) | (with_reducible apply Eff.step; with_reducible apply matchCqe_eff)
    | (with_reducible apply Eff.step; with_reducible apply setInn_eff) | (with_reducible apply Eff.step; with_reducible apply answerError_eff)
    | (with_reducible apply Eff.step; with_reducible apply landRecv_eff) | (with_reducible apply Eff.step; with_reducible apply completeRecv_eff)
    | (with_reducible apply Eff.step; with_reducible apply updQuad_eff) | (with_reducible apply Eff.step; with_reducible apply countQuad_eff) | split
    | dsimp only [id]

theorem decideArrival_eff (n key k ctx : Nat) (q : Qp) (c : MCtx) (p : SftPkt) (d : Dev) : Eff 0x1811f d (decideArrival n key k ctx q c p d) := by
  unfold decideArrival
  try dsimp only
  repeat' first
    | with_reducible apply Eff.refl | with_reducible assumption | (apply Sub.of; rfl) | (apply Has.of; rfl) | intro _ | with_reducible apply ite_eff
    | (with_reducible apply onlyIf_eff) | (with_reducible apply Eff.step; with_reducible apply putCtx_eff)
    | (with_reducible apply Eff.step; with_reducible apply countSearch_eff) | (with_reducible apply Eff.step; with_reducible apply updQuad_eff)
    | (with_reducible apply Eff.step; with_reducible apply countQuad_eff) | (with_reducible apply Eff.step; with_reducible apply accept_eff)
    | (with_reducible apply Eff.step; with_reducible apply startRndv_eff) | (with_reducible apply Eff.step; with_reducible apply ackPolicy_eff)
    | (with_reducible apply Eff.step; with_reducible apply matchCqe_eff) | (with_reducible apply Eff.step; with_reducible apply moreMatched_eff)
    | (with_reducible apply Eff.step; with_reducible apply bump_eff) | (with_reducible apply Eff.step; with_reducible apply raise_eff)
    | (with_reducible apply Eff.step; with_reducible apply answerRnr_eff) | split | dsimp only [id]

theorem doMatchSend_eff (n key : Nat) (q : Qp) (p : SftPkt) (d : Dev) : Eff 0x1811f d (doMatchSend n key q p d) := by
  unfold doMatchSend
  try dsimp only
  repeat' first
    | with_reducible apply Eff.refl | with_reducible assumption | (apply Sub.of; rfl) | (apply Has.of; rfl) | intro _ | with_reducible apply ite_eff
    | (with_reducible apply onlyIf_eff) | (with_reducible apply Eff.step; with_reducible apply bump_eff)
    | (with_reducible apply Eff.step; with_reducible apply updQuad_eff) | (with_reducible apply Eff.step; with_reducible apply raise_eff)
    | (with_reducible apply Eff.step; with_reducible apply answerRnr_eff) | (with_reducible apply Eff.step; with_reducible apply answerError_eff)
    | (with_reducible apply Eff.step; with_reducible apply updQp_eff) | (with_reducible apply Eff.step; with_reducible apply decideArrival_eff)
    | (with_reducible apply Eff.step; with_reducible apply moreMatched_eff) | split | dsimp only [id]

theorem doWrite_eff (n key : Nat) (q : Qp) (p : SftPkt) (d : Dev) : Eff 0x1811f d (doWrite n key q p d) := by
  unfold doWrite
  try dsimp only
  repeat' first
    | with_reducible apply Eff.refl | with_reducible assumption | (apply Sub.of; rfl) | (apply Has.of; rfl) | intro _ | with_reducible apply ite_eff
    | (with_reducible apply onlyIf_eff) | (with_reducible apply Eff.step; with_reducible apply countKey_eff)
    | (with_reducible apply Eff.step; with_reducible apply answerKey_eff) | (with_reducible apply Eff.step; with_reducible apply answerError_eff)
    | (with_reducible apply Eff.step; with_reducible apply writeKey_eff) | (with_reducible apply Eff.step; with_reducible apply setInn_eff)
    | (with_reducible apply Eff.step; with_reducible apply accept_eff) | (with_reducible apply Eff.step; with_reducible apply takeRecv_eff)
    | (with_reducible apply Eff.step; with_reducible apply recvCqe_eff) | (with_reducible apply Eff.step; with_reducible apply takeFree_eff)
    | (with_reducible apply Eff.step; with_reducible apply ackPolicy_eff) | split | dsimp only [id]

theorem record_eff (n : Nat) (e : RecEntry) (d : Dev) : Eff 0x1000f d (record n e d) := by
  unfold record
  try dsimp only
  repeat' first
    | with_reducible apply Eff.refl | with_reducible assumption | (apply Sub.of; rfl) | (apply Has.of; rfl) | intro _ | with_reducible apply ite_eff
    | (with_reducible apply Eff.step; with_reducible apply updQp_eff) | (with_reducible apply Eff.step; with_reducible apply backWrite_eff) | split
    | dsimp only [id]

theorem sendRead_eff (n key mtu psn : Nat) (data : List Byte) (d : Dev) : Eff 0x1811d d (sendRead n key mtu psn data d) := by
  unfold sendRead
  try dsimp only
  repeat' first
    | with_reducible apply Eff.refl | with_reducible assumption | (apply Sub.of; rfl) | (apply Has.of; rfl) | intro _ | with_reducible apply ite_eff
    | (with_reducible apply forEach_eff) | (with_reducible apply Eff.step; with_reducible apply sendResp_eff) | split | dsimp only [id]

theorem sendAtomic_eff (n key psn value : Nat) (d : Dev) : Eff 0x1811d d (sendAtomic n key psn value d) := by
  unfold sendAtomic
  try dsimp only
  repeat' first
    | with_reducible apply Eff.refl | with_reducible assumption | (apply Sub.of; rfl) | (apply Has.of; rfl) | intro _ | with_reducible apply ite_eff
    | (with_reducible apply Eff.step; with_reducible apply sendResp_eff) | split | dsimp only [id]

theorem readSegment_eff (dup : Bool) (n key : Nat) (q : Qp) (p : SftPkt) (d : Dev) : Eff 0x1811f d (readSegment dup n key q p d) := by
  unfold readSegment
  try dsimp only
  repeat' first
    | with_reducible apply Eff.refl | with_reducible assumption | (apply Sub.of; rfl) | (apply Has.of; rfl) | intro _ | with_reducible apply ite_eff
    | (with_reducible apply Eff.step; with_reducible apply answerError_eff) | (with_reducible apply Eff.step; with_reducible apply sendRead_eff)
    | (with_reducible apply Eff.step; with_reducible apply ackPolicy_eff) | (with_reducible apply Eff.step; with_reducible apply updQp_eff)
    | (with_reducible apply Eff.step; with_reducible apply startRead_eff) | split | dsimp only [id]

theorem doRead_eff (n key : Nat) (q : Qp) (p : SftPkt) (d : Dev) : Eff 0x1811f d (doRead n key q p d) := by
  unfold doRead
  try dsimp only
  repeat' first
    | with_reducible apply Eff.refl | with_reducible assumption | (apply Sub.of; rfl) | (apply Has.of; rfl) | intro _ | with_reducible apply ite_eff
    | (with_reducible apply Eff.step; with_reducible apply countKey_eff) | (with_reducible apply Eff.step; with_reducible apply answerKey_eff)
    | (with_reducible apply Eff.step; with_reducible apply answerError_eff) | (with_reducible apply Eff.step; with_reducible apply accept_eff)
    | (with_reducible apply Eff.step; with_reducible apply record_eff) | (with_reducible apply Eff.step; with_reducible apply readSegment_eff) | split
    | dsimp only [id]

theorem doAtomic_eff (n key : Nat) (q : Qp) (p : SftPkt) (d : Dev) : Eff 0x1811f d (doAtomic n key q p d) := by
  unfold doAtomic
  try dsimp only
  repeat' first
    | with_reducible apply Eff.refl | with_reducible assumption | (apply Sub.of; rfl) | (apply Has.of; rfl) | intro _ | with_reducible apply ite_eff
    | (with_reducible apply Eff.step; with_reducible apply countKey_eff) | (with_reducible apply Eff.step; with_reducible apply answerKey_eff)
    | (with_reducible apply Eff.step; with_reducible apply answerError_eff) | (with_reducible apply Eff.step; with_reducible apply memWrites_eff)
    | (with_reducible apply Eff.step; with_reducible apply accept_eff) | (with_reducible apply Eff.step; with_reducible apply record_eff)
    | (with_reducible apply Eff.step; with_reducible apply sendAtomic_eff) | (with_reducible apply Eff.step; with_reducible apply bump_eff)
    | (with_reducible apply Eff.step; with_reducible apply ackPolicy_eff) | (with_reducible apply Eff.step; with_reducible apply updQp_eff)
    | (with_reducible apply Eff.step; with_reducible apply startRead_eff) | split | dsimp only [id]

theorem doFinish_eff (n key : Nat) (q : Qp) (p : SftPkt) (d : Dev) : Eff 0x1811f d (doFinish n key q p d) := by
  unfold doFinish
  try dsimp only
  repeat' first
    | with_reducible apply Eff.refl | with_reducible assumption | (apply Sub.of; rfl) | (apply Has.of; rfl) | intro _ | with_reducible apply ite_eff
    | (with_reducible apply Eff.step; with_reducible apply accept_eff) | (with_reducible apply Eff.step; with_reducible apply ackPolicy_eff)
    | (with_reducible apply Eff.step; with_reducible apply updQp_eff) | (with_reducible apply Eff.step; with_reducible apply completeWqes_eff)
    | (with_reducible apply Eff.step; with_reducible apply takeFree_eff) | (with_reducible apply Eff.step; with_reducible apply bump_eff) | split
    | dsimp only [id]

theorem doNotify_eff (n key : Nat) (q : Qp) (p : SftPkt) (d : Dev) : Eff 0x1811f d (doNotify n key q p d) := by
  unfold doNotify
  try dsimp only
  repeat' first
    | with_reducible apply Eff.refl | with_reducible assumption | (apply Sub.of; rfl) | (apply Has.of; rfl) | intro _ | with_reducible apply ite_eff
    | (with_reducible apply Eff.step; with_reducible apply accept_eff) | (with_reducible apply Eff.step; with_reducible apply cqe_eff)
    | (with_reducible apply Eff.step; with_reducible apply ackPolicy_eff) | split | dsimp only [id]

theorem runNew_eff (n key : Nat) (q : Qp) (p : SftPkt) (d : Dev) : Eff 0x1811f d (runNew n key q p d) := by
  unfold runNew
  try dsimp only
  repeat' first
    | with_reducible apply Eff.refl | with_reducible assumption | (apply Sub.of; rfl) | (apply Has.of; rfl) | intro _ | with_reducible apply ite_eff
    | (with_reducible apply Eff.step; with_reducible apply answerError_eff) | (with_reducible apply Eff.step; with_reducible apply doMatchSend_eff)
    | (with_reducible apply Eff.step; with_reducible apply doSend_eff) | (with_reducible apply Eff.step; with_reducible apply doWrite_eff)
    | (with_reducible apply Eff.step; with_reducible apply doRead_eff) | (with_reducible apply Eff.step; with_reducible apply doAtomic_eff)
    | (with_reducible apply Eff.step; with_reducible apply doFinish_eff) | (with_reducible apply Eff.step; with_reducible apply doNotify_eff) | split
    | dsimp only [id]

theorem runDup_eff (n key : Nat) (q : Qp) (p : SftPkt) (d : Dev) : Eff 0x1811f d (runDup n key q p d) := by
  unfold runDup
  try dsimp only
  repeat' first
    | with_reducible apply Eff.refl | with_reducible assumption | (apply Sub.of; rfl) | (apply Has.of; rfl) | intro _ | with_reducible apply ite_eff
    | (with_reducible apply Eff.step; with_reducible apply bump_eff) | (with_reducible apply Eff.step; with_reducible apply answerKey_eff)
    | (with_reducible apply Eff.step; with_reducible apply readSegment_eff) | (with_reducible apply Eff.step; with_reducible apply sendAtomic_eff)
    | (with_reducible apply Eff.step; with_reducible apply raise_eff) | (with_reducible apply Eff.step; with_reducible apply answerError_eff)
    | (with_reducible apply Eff.step; with_reducible apply sendAck_eff) | (with_reducible apply Eff.step; with_reducible apply updConn_eff) | split
    | dsimp only [id]

theorem runGap_eff (n key : Nat) (q : Qp) (d : Dev) : Eff 0x1811d d (runGap n key q d) := by
  unfold runGap
  try dsimp only
  repeat' first
    | with_reducible apply Eff.refl | with_reducible assumption | (apply Sub.of; rfl) | (apply Has.of; rfl) | intro _ | with_reducible apply ite_eff
    | (with_reducible apply Eff.step; with_reducible apply sendNak_eff) | (with_reducible apply Eff.step; with_reducible apply bump_eff)
    | (with_reducible apply Eff.step; with_reducible apply updConn_eff) | split | dsimp only [id]

theorem putPeer_eff (n key : Nat) (old new : Qp) (d : Dev) : Eff 0x1000f d (putPeer n key old new d) := by
  unfold putPeer
  try dsimp only
  repeat' first
    | with_reducible apply Eff.refl | with_reducible assumption | (apply Sub.of; rfl) | (apply Has.of; rfl) | intro _ | with_reducible apply ite_eff
    | (with_reducible apply onlyIf_eff) | (with_reducible apply Eff.step; with_reducible apply putQp_eff)
    | (with_reducible apply Eff.step; with_reducible apply writePeer_eff) | split | dsimp only [id]

theorem connFor_eff (n : Nat) (q : Qp) (p : SftPkt) (d : Dev) : Eff 0x1811f d (connFor n q p d).2 := by
  unfold connFor
  try dsimp only
  repeat' first
    | with_reducible apply Eff.refl | with_reducible assumption | (apply Sub.of; rfl) | (apply Has.of; rfl) | intro _ | with_reducible apply ite_eff
    | with_reducible apply ite_snd | (with_reducible apply Eff.step; with_reducible apply putPeer_eff)
    | (with_reducible apply Eff.step; with_reducible apply updConn_eff) | (with_reducible apply Eff.step; with_reducible apply sendNak_eff) | split
    | dsimp only [id]

theorem runRequest_eff (n : Nat) (p : SftPkt) (rec : Bool) (d : Dev) : Eff 0x1811f d (runRequest n p rec d).1 := by
  unfold runRequest
  try dsimp only
  repeat' first
    | with_reducible apply Eff.refl | with_reducible assumption | (apply Sub.of; rfl) | (apply Has.of; rfl) | intro _ | with_reducible apply ite_eff
    | with_reducible apply ite_fst | (with_reducible apply Eff.step; with_reducible apply bump_eff)
    | (with_reducible apply Eff.step; with_reducible apply connFor_eff)
    | (with_reducible apply Eff.step; with_reducible apply eff_snd; assumption; with_reducible apply connFor_eff)
    | (with_reducible apply Eff.step; with_reducible apply answerRnr_eff) | (with_reducible apply Eff.step; with_reducible apply runNew_eff)
    | (with_reducible apply Eff.step; with_reducible apply runDup_eff) | (with_reducible apply Eff.step; with_reducible apply runGap_eff) | split
    | dsimp only [id]

theorem countLagoon_eff (d : Dev) : Eff 0x10001 d (countLagoon d) := by
  unfold countLagoon
  try dsimp only
  repeat' first
    | with_reducible apply Eff.refl | with_reducible assumption | (apply Sub.of; rfl) | (apply Has.of; rfl) | intro _ | with_reducible apply ite_eff
    | (with_reducible apply Eff.step; with_reducible apply wr_eff) | (with_reducible apply Eff.step; with_reducible apply updEng_eff) | split
    | dsimp only [id]

theorem park_eff (n : Nat) (p : SftPkt) (why : Nat) (d : Dev) : Eff 0x1011d d (park n p why d) := by
  unfold park
  try dsimp only
  repeat' first
    | with_reducible apply Eff.refl | with_reducible assumption | (apply Sub.of; rfl) | (apply Has.of; rfl) | intro _ | with_reducible apply ite_eff
    | (with_reducible apply onlyIf_eff) | (with_reducible apply Eff.step; with_reducible apply updEng_eff)
    | (with_reducible apply Eff.step; with_reducible apply bump_eff) | (with_reducible apply Eff.step; with_reducible apply countLagoon_eff)
    | (with_reducible apply Eff.step; with_reducible apply wr_eff) | (with_reducible apply Eff.step; with_reducible apply raise_eff) | split
    | dsimp only [id]

theorem tryRequest_eff (n : Nat) (p : SftPkt) (rec : Bool) (d : Dev) : Eff 0x1811f d (tryRequest n p rec d) := by
  unfold tryRequest
  try dsimp only
  repeat' first
    | with_reducible apply Eff.refl | with_reducible assumption | (apply Sub.of; rfl) | (apply Has.of; rfl) | intro _ | with_reducible apply ite_eff
    | (with_reducible apply Eff.step; with_reducible apply updQp_eff) | (with_reducible apply Eff.step; with_reducible apply bump_eff)
    | (with_reducible apply Eff.step; with_reducible apply park_eff) | (with_reducible apply Eff.step; with_reducible apply runRequest_eff)
    | (with_reducible apply Eff.step; with_reducible apply eff_fst; assumption; with_reducible apply runRequest_eff)
    | (with_reducible apply Eff.step; with_reducible apply startFetch_eff) | split | dsimp only [id]

theorem runQueue_eff (n : Nat) (l : List (SftPkt × Nat)) (d : Dev) : Eff 0x1811f d (runQueue n l d) := by
  unfold runQueue
  try dsimp only
  repeat' first
    | with_reducible apply Eff.refl | with_reducible assumption | (apply Sub.of; rfl) | (apply Has.of; rfl) | intro _ | with_reducible apply ite_eff
    | (with_reducible apply forEach_eff) | (with_reducible apply Eff.step; with_reducible apply park_eff)
    | (with_reducible apply Eff.step; with_reducible apply tryRequest_eff) | split | dsimp only [id]

theorem runParked_eff (n : Nat) (d : Dev) : Eff 0x1811f d (runParked n d) := by
  unfold runParked
  try dsimp only
  repeat' first
    | with_reducible apply Eff.refl | with_reducible assumption | (apply Sub.of; rfl) | (apply Has.of; rfl) | intro _ | with_reducible apply ite_eff
    | (with_reducible apply Eff.step; with_reducible apply updEng_eff) | (with_reducible apply Eff.step; with_reducible apply countLagoon_eff)
    | (with_reducible apply Eff.step; with_reducible apply runQueue_eff) | split | dsimp only [id]

theorem unbusy_eff (n : Nat) (d : Dev) : Eff 0x1811f d (unbusy n d) := by
  unfold unbusy
  try dsimp only
  repeat' first
    | with_reducible apply Eff.refl | with_reducible assumption | (apply Sub.of; rfl) | (apply Has.of; rfl) | intro _ | with_reducible apply ite_eff
    | (with_reducible apply Eff.step; with_reducible apply updQp_eff) | (with_reducible apply Eff.step; with_reducible apply runQueue_eff) | split
    | dsimp only [id]

theorem kickAtomic_eff (n : Nat) (d : Dev) : Eff 0x1811f d (kickAtomic n d) := by
  unfold kickAtomic
  try dsimp only
  repeat' first
    | with_reducible apply Eff.refl | with_reducible assumption | (apply Sub.of; rfl) | (apply Has.of; rfl) | intro _ | with_reducible apply ite_eff
    | (with_reducible apply Eff.step; with_reducible apply updQp_eff) | (with_reducible apply Eff.step; with_reducible apply runQueue_eff) | split
    | dsimp only [id]

theorem kickAtomics_eff (d : Dev) : Eff 0x1811f d (kickAtomics d) := by
  unfold kickAtomics
  try dsimp only
  repeat' first
    | with_reducible apply Eff.refl | with_reducible assumption | (apply Sub.of; rfl) | (apply Has.of; rfl) | intro _ | with_reducible apply ite_eff
    | (with_reducible apply forEach_eff) | (with_reducible apply Eff.step; with_reducible apply kickAtomic_eff) | split | dsimp only [id]

theorem takeIn_eff (p : SftPkt) (d : Dev) : Eff 0x1811f d (takeIn p d) := by
  unfold takeIn
  try dsimp only
  repeat' first
    | with_reducible apply Eff.refl | with_reducible assumption | (apply Sub.of; rfl) | (apply Has.of; rfl) | intro _ | with_reducible apply ite_eff
    | (with_reducible apply Eff.step; with_reducible apply bump_eff) | (with_reducible apply Eff.step; with_reducible apply park_eff)
    | (with_reducible apply Eff.step; with_reducible apply startFetch_eff) | (with_reducible apply Eff.step; with_reducible apply touchCtx_eff)
    | (with_reducible apply Eff.step; with_reducible apply tryRequest_eff) | split | dsimp only [id]

theorem afterTaken_eff (t : Nat) (missed : Bool) (d : Dev) : Eff 0x1800d d (afterTaken t missed d) := by
  unfold afterTaken
  try dsimp only
  repeat' first
    | with_reducible apply Eff.refl | with_reducible assumption | (apply Sub.of; rfl) | (apply Has.of; rfl) | intro _ | with_reducible apply ite_eff
    | (with_reducible apply Eff.step; with_reducible apply putStage_eff) | (with_reducible apply Eff.step; with_reducible apply updEng_eff)
    | (with_reducible apply Eff.step; with_reducible apply letGo_eff) | split | dsimp only [id]

theorem takeRequest_eff (p : SftPkt) (d : Dev) : Eff 0x1811f d (takeRequest p d) := by
  unfold takeRequest
  try dsimp only
  repeat' first
    | with_reducible apply Eff.refl | with_reducible assumption | (apply Sub.of; rfl) | (apply Has.of; rfl) | intro _ | with_reducible apply ite_eff
    | (with_reducible apply Eff.step; with_reducible apply turnAway_eff) | (with_reducible apply Eff.step; with_reducible apply updEng_eff)
    | (with_reducible apply Eff.step; with_reducible apply bump_eff) | (with_reducible apply Eff.step; with_reducible apply takeIn_eff)
    | (with_reducible apply Eff.step; with_reducible apply afterTaken_eff) | split | dsimp only [id]

theorem kickPins_eff (d : Dev) : Eff 0x1811f d (kickPins d) := by
  unfold kickPins
  try dsimp only
  repeat' first
    | with_reducible apply Eff.refl | with_reducible assumption | (apply Sub.of; rfl) | (apply Has.of; rfl) | intro _ | with_reducible apply ite_eff
    | (with_reducible apply forEach_eff) | (with_reducible apply Eff.step; with_reducible apply updEng_eff)
    | (with_reducible apply Eff.step; with_reducible apply runParked_eff) | (with_reducible apply Eff.step; with_reducible apply startFetch_eff)
    | split | dsimp only [id]

theorem kickHeld_eff (n : Nat) (d : Dev) : Eff 0x1811f d (kickHeld n d) := by
  unfold kickHeld
  try dsimp only
  repeat' first
    | with_reducible apply Eff.refl | with_reducible assumption | (apply Sub.of; rfl) | (apply Has.of; rfl) | intro _ | with_reducible apply ite_eff
    | (with_reducible apply onlyIf_eff) | (with_reducible apply forEach_eff) | (with_reducible apply Eff.step; with_reducible apply sendAck_eff)
    | (with_reducible apply Eff.step; with_reducible apply updQp_eff) | (with_reducible apply Eff.step; with_reducible apply runQueue_eff) | split
    | dsimp only [id]

theorem kickIntake_eff (d : Dev) : Eff 0x18004 d (kickIntake d) := by
  unfold kickIntake
  try dsimp only
  repeat' first
    | with_reducible apply Eff.refl | with_reducible assumption | (apply Sub.of; rfl) | (apply Has.of; rfl) | intro _ | with_reducible apply ite_eff
    | (with_reducible apply onlyIf_eff) | (with_reducible apply forEach_eff) | (with_reducible apply Eff.step; with_reducible apply updEng_eff)
    | (with_reducible apply Eff.step; with_reducible apply handPkt_eff) | (with_reducible apply Eff.step; with_reducible apply putStage_eff) | split
    | dsimp only [id]

theorem sweepMissed_eff (d : Dev) : Eff 0x800d d (sweepMissed d) := by
  unfold sweepMissed
  try dsimp only
  repeat' first
    | with_reducible apply Eff.refl | with_reducible assumption | (apply Sub.of; rfl) | (apply Has.of; rfl) | intro _ | with_reducible apply ite_eff
    | (with_reducible apply forEach_eff) | (with_reducible apply Eff.step; with_reducible apply letGo_eff) | split | dsimp only [id]

theorem settleEng_eff (d : Dev) : Eff 0x1811f d (settleEng d) := by
  unfold settleEng
  try dsimp only
  repeat' first
    | with_reducible apply Eff.refl | with_reducible assumption | (apply Sub.of; rfl) | (apply Has.of; rfl) | intro _ | with_reducible apply ite_eff
    | (with_reducible apply onlyIf_eff) | (with_reducible apply forEach_eff) | (with_reducible apply Eff.step; with_reducible apply kickPins_eff)
    | (with_reducible apply Eff.step; with_reducible apply kickHeld_eff) | (with_reducible apply Eff.step; with_reducible apply kickIntake_eff)
    | (with_reducible apply Eff.step; with_reducible apply sweepMissed_eff) | (with_reducible apply Eff.step; with_reducible apply countLagoon_eff)
    | (with_reducible apply Eff.step; with_reducible apply settleFails_eff) | split | dsimp only [id]

theorem onEng_ran {t : Nat} {f : Dev → Dev} {s : State} (h : ∀ d, Eff t d (f d)) (g : Sub 0x1811f t) : Ran t s (onEng f s) :=
  onDev_ran fun d => Eff.step (settleEng_eff _) g (h d)

end Sys2Proof.Machine
end

