-- ==== Sys2Proof/Laws/EffReqOps.lean ====
section
/-!
SUPPORT. What each function of Machine/ReqOps.lean can change.
-/

namespace Sys2Proof.Machine

theorem serveWork_eff (kind num index : Nat) (entries : List (List Byte)) (d : Dev) : Eff 0x1011f d (serveWork kind num index entries d) := by
  unfold serveWork
  try dsimp only
  repeat' first
    | with_reducible apply Eff.refl | with_reducible assumption | (apply Sub.of; rfl) | (apply Has.of; rfl) | intro _ | with_reducible apply ite_eff
    | (with_reducible apply forEach_eff) | (with_reducible apply Eff.step; with_reducible apply updQp_eff)
    | (with_reducible apply Eff.step; with_reducible apply flushSlot_eff) | (with_reducible apply Eff.step; with_reducible apply flushRecv_eff)
    | (with_reducible apply Eff.step; with_reducible apply touchCq_eff) | (with_reducible apply Eff.step; with_reducible apply putCq_eff) | split
    | dsimp only [id]

theorem recordBell_eff (n key index : Nat) (entries : List (List Byte)) (d : Dev) : Eff 0x10000 d (recordBell n key index entries d) := by
  unfold recordBell
  try dsimp only
  repeat' first
    | with_reducible apply Eff.refl | with_reducible assumption | (apply Sub.of; rfl) | (apply Has.of; rfl) | intro _ | with_reducible apply ite_eff
    | (with_reducible apply Eff.step; with_reducible apply updSlice_eff) | split | dsimp only [id]

theorem waitRing_eff (n key index at_ : Nat) (entries : List (List Byte)) (asked : Bool) (d : Dev) : Eff 0x10000 d (waitRing n key index at_ entries asked d) := by
  unfold waitRing
  try dsimp only
  repeat' first
    | with_reducible apply Eff.refl | with_reducible assumption | (apply Sub.of; rfl) | (apply Has.of; rfl) | intro _ | with_reducible apply ite_eff
    | (with_reducible apply Eff.step; with_reducible apply updEng_eff) | split | dsimp only [id]

theorem ringFetch_eff {t : Nat} {a : Dev} (n key index at_ : Nat) (entries : List (List Byte)) (serve_ : List (List Byte) → Dev → Dev) (d : Dev) (h : Eff t a d) (ha : ∀ l d, Eff t d (serve_ l d)) (s : Sub 0x1000d t) :
    Eff t a (ringFetch n key index at_ entries serve_ d) := by
  unfold ringFetch
  try dsimp only
  repeat' first
    | with_reducible assumption | (apply Sub.of; rfl) | (apply Sub.via s; apply Sub.of; rfl) | (apply Has.of; rfl)
    | (with_reducible apply Eff.seq; with_reducible apply ha) | (apply Has.via s; apply Has.of; rfl) | intro _ | with_reducible apply ite_eff
    | (with_reducible apply Eff.step; with_reducible apply waitRing_eff) | (with_reducible apply Eff.step; with_reducible apply bump_eff)
    | (with_reducible apply Eff.step; with_reducible apply askPage_eff) | with_reducible apply Eff.refl | split | dsimp only [id]

theorem bell_eff {t : Nat} {a : Dev} (vh n key index at_ : Nat) (entries : List (List Byte)) (serve_ : List (List Byte) → Dev → Dev) (d : Dev) (h : Eff t a d) (ha : ∀ l d, Eff t d (serve_ l d)) (s : Sub 0x1000d t) :
    Eff t a (bell vh n key index at_ entries serve_ d) := by
  unfold bell
  try dsimp only
  repeat' first
    | with_reducible assumption | (apply Sub.of; rfl) | (apply Sub.via s; apply Sub.of; rfl) | (apply Has.of; rfl)
    | (with_reducible apply Eff.seq; with_reducible apply ha) | (apply Has.via s; apply Has.of; rfl) | intro _ | with_reducible apply ite_eff
    | (with_reducible apply Eff.step; with_reducible apply bump_eff) | (with_reducible apply Eff.step; with_reducible apply recordBell_eff)
    | (with_reducible apply ringFetch_eff) | with_reducible apply Eff.refl | split | dsimp only [id]

theorem workBell_eff (want vh n : Nat) (wide : Bool) (num kind index : Nat) (entries : List (List Byte)) (d : Dev) : Eff 0x1011f d (workBell want vh n wide num kind index entries d) := by
  unfold workBell
  try dsimp only
  repeat' first
    | with_reducible apply Eff.refl | with_reducible assumption | (apply Sub.of; rfl) | (apply Has.of; rfl) | intro _ | with_reducible apply ite_eff
    | (with_reducible apply Eff.step; with_reducible apply bump_eff) | (with_reducible apply Eff.step; with_reducible apply sliceEvent_eff)
    | (with_reducible apply bell_eff) | (with_reducible apply Eff.step; with_reducible apply serveWork_eff) | split | dsimp only [id]

theorem launch_eff (n : Nat) (q : Qp) (w : Wqe) (d : Dev) : Eff 0x1011f d (launch n q w d) := by
  unfold launch
  try dsimp only
  repeat' first
    | with_reducible apply Eff.refl | with_reducible assumption | (apply Sub.of; rfl) | (apply Has.of; rfl) | intro _ | with_reducible apply ite_eff
    | (with_reducible apply Eff.step; with_reducible apply updQp_eff) | (with_reducible apply Eff.step; with_reducible apply completeWqes_eff)
    | (with_reducible apply Eff.step; with_reducible apply startRead_eff) | split | dsimp only [id]

theorem fairCharge_eff (t s : Nat) (d0 d : Dev) : Eff 0x10000 d (fairCharge t s d0 d) := by
  unfold fairCharge
  exact updEng_eff _ _

theorem startNext_eff (n : Nat) (d : Dev) : Eff 0x1011f d (startNext n d) := by
  unfold startNext
  try dsimp only
  repeat' first
    | with_reducible apply Eff.refl | with_reducible assumption | (apply Sub.of; rfl) | (apply Has.of; rfl) | intro _ | with_reducible apply ite_eff
    | (with_reducible apply Eff.step; with_reducible apply bump_eff) | (with_reducible apply Eff.step; with_reducible apply startFetch_eff)
    | (with_reducible apply Eff.step; with_reducible apply updQp_eff) | (with_reducible apply Eff.step; with_reducible apply sliceEvent_eff)
    | (with_reducible apply Eff.step; with_reducible apply touchCtx_eff) | (with_reducible apply Eff.step; with_reducible apply putPeer_eff)
    | (with_reducible apply Eff.step; with_reducible apply slWr_eff) | (with_reducible apply Eff.step; with_reducible apply fairCharge_eff)
    | (with_reducible apply Eff.step; with_reducible apply launch_eff) | split | dsimp only [id]

theorem sendNew_eff (n : Nat) (q : Qp) (d : Dev) : Eff 0x1811d d (sendNew n q d) := by
  unfold sendNew
  try dsimp only
  repeat' first
    | with_reducible apply Eff.refl | with_reducible assumption | (apply Sub.of; rfl) | (apply Has.of; rfl) | intro _ | with_reducible apply ite_eff
    | (with_reducible apply Eff.step; with_reducible apply sendReq_eff) | (with_reducible apply Eff.step; with_reducible apply updConn_eff)
    | (with_reducible apply Eff.step; with_reducible apply updQp_eff) | split | dsimp only [id]

theorem resendNext_eff (n key : Nat) (q : Qp) (s p : Nat) (d : Dev) : Eff 0x1811d d (resendNext n key q s p d) := by
  unfold resendNext
  try dsimp only
  repeat' first
    | with_reducible apply Eff.refl | with_reducible assumption | (apply Sub.of; rfl) | (apply Has.of; rfl) | intro _ | with_reducible apply ite_eff
    | (with_reducible apply Eff.step; with_reducible apply updConn_eff) | (with_reducible apply Eff.step; with_reducible apply sendReq_eff)
    | (with_reducible apply Eff.step; with_reducible apply bump_eff) | split | dsimp only [id]

theorem sendNext_eff (n : Nat) (d : Dev) : Eff 0x1811d d (sendNext n d) := by
  unfold sendNext
  try dsimp only
  repeat' first
    | with_reducible apply Eff.refl | with_reducible assumption | (apply Sub.of; rfl) | (apply Has.of; rfl) | intro _ | with_reducible apply ite_eff
    | (with_reducible apply Eff.step; with_reducible apply resendNext_eff) | (with_reducible apply Eff.step; with_reducible apply sendNew_eff) | split
    | dsimp only [id]

theorem takeResp_eff {t : Nat} {a : Dev} (r : SftResp) (f : Nat → Nat → Qp → Dev → Dev) (d : Dev) (h : Eff t a d) (ha : ∀ x y z d, Eff t d (f x y z d)) (s : Sub 0x10009 t) :
    Eff t a (takeResp r f d) := by
  unfold takeResp
  try dsimp only
  repeat' first
    | with_reducible assumption | (apply Sub.of; rfl) | (apply Sub.via s; apply Sub.of; rfl) | (apply Has.of; rfl)
    | (with_reducible apply Eff.seq; with_reducible apply ha) | (apply Has.via s; apply Has.of; rfl) | intro _ | with_reducible apply ite_eff
    | (with_reducible apply onlyIf_eff) | (with_reducible apply Eff.step; with_reducible apply bump_eff)
    | (with_reducible apply Eff.step; with_reducible apply touchCtx_eff) | (with_reducible apply Eff.step; with_reducible apply takeEce_eff)
    | with_reducible apply Eff.refl | split | dsimp only [id]

theorem ackBefore_eff (n key next : Nat) (d : Dev) : Eff 0x1011f d (ackBefore n key next d) := by
  unfold ackBefore
  try dsimp only
  repeat' first
    | with_reducible apply Eff.refl | with_reducible assumption | (apply Sub.of; rfl) | (apply Has.of; rfl) | intro _ | with_reducible apply ite_eff
    | (with_reducible apply Eff.step; with_reducible apply updConn_eff) | (with_reducible apply Eff.step; with_reducible apply completeWqes_eff)
    | split | dsimp only [id]

theorem takeAck_eff (psn n key : Nat) (q : Qp) (d : Dev) : Eff 0x1011f d (takeAck psn n key q d) := by
  unfold takeAck
  try dsimp only
  repeat' first
    | with_reducible apply Eff.refl | with_reducible assumption | (apply Sub.of; rfl) | (apply Has.of; rfl) | intro _ | with_reducible apply ite_eff
    | (with_reducible apply Eff.step; with_reducible apply ackBefore_eff) | split | dsimp only [id]

theorem takeRnr_eff (psn n key : Nat) (q : Qp) (d : Dev) : Eff 0x1011f d (takeRnr psn n key q d) := by
  unfold takeRnr
  try dsimp only
  repeat' first
    | with_reducible apply Eff.refl | with_reducible assumption | (apply Sub.of; rfl) | (apply Has.of; rfl) | intro _ | with_reducible apply ite_eff
    | (with_reducible apply forEach_eff) | (with_reducible apply Eff.step; with_reducible apply ackBefore_eff)
    | (with_reducible apply Eff.step; with_reducible apply latchWin_eff) | (with_reducible apply Eff.step; with_reducible apply enterError_eff)
    | (with_reducible apply Eff.step; with_reducible apply updConn_eff) | split | dsimp only [id]

theorem takeSeq_eff (psn n key : Nat) (q : Qp) (d : Dev) : Eff 0x1011f d (takeSeq psn n key q d) := by
  unfold takeSeq
  try dsimp only
  repeat' first
    | with_reducible apply Eff.refl | with_reducible assumption | (apply Sub.of; rfl) | (apply Has.of; rfl) | intro _ | with_reducible apply ite_eff
    | (with_reducible apply Eff.step; with_reducible apply bump_eff) | (with_reducible apply Eff.step; with_reducible apply ackBefore_eff)
    | (with_reducible apply Eff.step; with_reducible apply beginPass_eff) | split | dsimp only [id]

theorem takeError_eff (synd psn n key : Nat) (q : Qp) (d : Dev) : Eff 0x1011f d (takeError synd psn n key q d) := by
  unfold takeError
  try dsimp only
  repeat' first
    | with_reducible apply Eff.refl | with_reducible assumption | (apply Sub.of; rfl) | (apply Has.of; rfl) | intro _ | with_reducible apply ite_eff
    | (with_reducible apply onlyIf_eff) | (with_reducible apply Eff.step; with_reducible apply ackBefore_eff)
    | (with_reducible apply Eff.step; with_reducible apply sliceEvent_eff) | (with_reducible apply Eff.step; with_reducible apply latchWin_eff)
    | (with_reducible apply Eff.step; with_reducible apply enterError_eff) | split | dsimp only [id]

theorem takeResync_eff (n key : Nat) (q : Qp) (d : Dev) : Eff 0x10000 d (takeResync n key q d) := by
  unfold takeResync
  try dsimp only
  repeat' first
    | with_reducible apply Eff.refl | with_reducible assumption | (apply Sub.of; rfl) | (apply Has.of; rfl) | intro _ | with_reducible apply ite_eff
    | (with_reducible apply Eff.step; with_reducible apply updConn_eff) | split | dsimp only [id]

theorem landResp_eff (n : Nat) (w : Wqe) (off : Nat) (bytes : List Byte) (d : Dev) : Eff 0x1000f d (landResp n w off bytes d) := by
  unfold landResp
  try dsimp only
  repeat' first
    | with_reducible apply Eff.refl | with_reducible assumption | (apply Sub.of; rfl) | (apply Has.of; rfl) | intro _ | with_reducible apply ite_eff
    | (with_reducible apply Eff.step; with_reducible apply updQp_eff) | (with_reducible apply Eff.step; with_reducible apply writeKey_eff) | split
    | dsimp only [id]

theorem takeData_eff (psn : Nat) (data : Wqe → TxPkt → Nat → List Byte × Nat) (n key : Nat) (q : Qp) (d : Dev) : Eff 0x1011f d (takeData psn data n key q d) := by
  unfold takeData
  try dsimp only
  repeat' first
    | with_reducible apply Eff.refl | with_reducible assumption | (apply Sub.of; rfl) | (apply Has.of; rfl) | intro _ | with_reducible apply ite_eff
    | (with_reducible apply Eff.step; with_reducible apply landResp_eff) | (with_reducible apply Eff.step; with_reducible apply updConn_eff)
    | (with_reducible apply Eff.step; with_reducible apply ackBefore_eff) | split | dsimp only [id]

theorem clearRecord_eff (n : Nat) (d : Dev) : Eff 0x1000f d (clearRecord n d) := by
  unfold clearRecord
  try dsimp only
  repeat' first
    | with_reducible apply Eff.refl | with_reducible assumption | (apply Sub.of; rfl) | (apply Has.of; rfl) | intro _ | with_reducible apply ite_eff
    | (with_reducible apply forEach_eff) | (with_reducible apply Eff.step; with_reducible apply backWrite_eff) | split | dsimp only [id]

theorem forgetRings_eff (n : Nat) (d : Dev) : Eff 0x10000 d (forgetRings n d) := by
  unfold forgetRings
  try dsimp only
  repeat' first
    | with_reducible apply Eff.refl | with_reducible assumption | (apply Sub.of; rfl) | (apply Has.of; rfl) | intro _ | with_reducible apply ite_eff
    | (with_reducible apply Eff.step; with_reducible apply updEng_eff) | split | dsimp only [id]

theorem qpcRun_eff (op num to_ : Nat) (b : List Byte) (own : Option Nat) (d : Dev) : Eff 0x1811f d (qpcRun op num to_ b own d).2.2 := by
  unfold qpcRun
  try dsimp only
  repeat' first
    | with_reducible apply Eff.refl | with_reducible assumption | (apply Sub.of; rfl) | (apply Has.of; rfl) | intro _ | with_reducible apply ite_eff
    | with_reducible apply ite_snd | (with_reducible apply onlyIf_eff) | (with_reducible apply Eff.step; with_reducible apply updEng_eff)
    | (with_reducible apply Eff.step; with_reducible apply cfgErr_eff) | (with_reducible apply Eff.step; with_reducible apply takeFree_eff)
    | (with_reducible apply Eff.step; with_reducible apply clearRecord_eff) | (with_reducible apply Eff.step; with_reducible apply putQp_eff)
    | (with_reducible apply Eff.step; with_reducible apply enterError_eff) | (with_reducible apply Eff.step; with_reducible apply kickAtomics_eff)
    | (with_reducible apply Eff.step; with_reducible apply groupsDown_eff) | (with_reducible apply Eff.step; with_reducible apply forgetRings_eff)
    | (with_reducible apply Eff.step; with_reducible apply drainCheck_eff) | (with_reducible apply Eff.step; with_reducible apply touchCq_eff)
    | (with_reducible apply Eff.step; with_reducible apply putCq_eff) | split | dsimp only [id]

theorem putRegBytes_eff (f : Fld) (inst : Nat) (b : List Byte) (d : Dev) : Eff 0x1 d (putRegBytes f inst b d) := by
  unfold putRegBytes
  try dsimp only
  repeat' first
    | with_reducible apply Eff.refl | with_reducible assumption | (apply Sub.of; rfl) | (apply Has.of; rfl) | intro _ | with_reducible apply ite_eff
    | (with_reducible apply forEach_eff) | (with_reducible apply Eff.step; with_reducible apply wrI_eff) | split | dsimp only [id]

theorem qpcGo_eff (d : Dev) : Eff 0x1811f d (qpcGo d) := by
  unfold qpcGo
  try dsimp only
  repeat' first
    | with_reducible apply Eff.refl | with_reducible assumption | (apply Sub.of; rfl) | (apply Has.of; rfl) | intro _ | with_reducible apply ite_eff
    | (with_reducible apply Eff.step; with_reducible apply qpcRun_eff)
    | (with_reducible apply Eff.step; with_reducible apply eff_snd3; assumption; with_reducible apply qpcRun_eff)
    | (with_reducible apply Eff.step; with_reducible apply putRegBytes_eff) | (with_reducible apply Eff.step; with_reducible apply wr_eff)
    | (with_reducible apply Eff.step; with_reducible apply raise_eff) | split | dsimp only [id]

theorem qpcCmd_eff (op : Nat) (d : Dev) : Eff 0x1811f d (qpcCmd op d) := by
  unfold qpcCmd
  try dsimp only
  repeat' first
    | with_reducible apply Eff.refl | with_reducible assumption | (apply Sub.of; rfl) | (apply Has.of; rfl) | intro _ | with_reducible apply ite_eff
    | (with_reducible apply onlyIf_eff) | (with_reducible apply trigger_eff) | (with_reducible apply Eff.step; with_reducible apply qpcGo_eff) | split
    | dsimp only [id]

end Sys2Proof.Machine
end

