-- ==== Sys2Proof/Laws/EffMrgOps.lean ====
section
/-!
SUPPORT. What each function of Machine/MrgOps.lean can change.
-/

namespace Sys2Proof.Machine

theorem takeIndex_eff (d : Dev) : Eff 0x10000 d (takeIndex d) := by
  unfold takeIndex
  try dsimp only
  repeat' first
    | with_reducible apply Eff.refl | with_reducible assumption | (apply Sub.of; rfl) | (apply Has.of; rfl) | intro _ | with_reducible apply ite_eff
    | (with_reducible apply Eff.step; with_reducible apply updEng_eff) | split | dsimp only [id]

theorem mrgReg_eff (b : List Byte) (pages : List Nat) (ok : Bool) (own : Option Nat) (d : Dev) : Eff 0x1011d d (mrgReg b pages ok own d).2.2 := by
  unfold mrgReg
  try dsimp only
  repeat' first
    | with_reducible apply Eff.refl | with_reducible assumption | (apply Sub.of; rfl) | (apply Has.of; rfl) | intro _ | with_reducible apply ite_eff
    | with_reducible apply ite_snd | (with_reducible apply Eff.step; with_reducible apply takeIndex_eff)
    | (with_reducible apply Eff.step; with_reducible apply putRegion_eff) | (with_reducible apply Eff.step; with_reducible apply countRegions_eff)
    | split | dsimp only [id]

theorem mrgRereg_eff (i key : Nat) (b : List Byte) (pages : List Nat) (ok mine : Bool) (d : Dev) : Eff 0x1011d d (mrgRereg i key b pages ok mine d).2.2 := by
  unfold mrgRereg
  try dsimp only
  repeat' first
    | with_reducible apply Eff.refl | with_reducible assumption | (apply Sub.of; rfl) | (apply Has.of; rfl) | intro _ | with_reducible apply ite_eff
    | with_reducible apply ite_snd | (with_reducible apply Eff.step; with_reducible apply access_eff)
    | (with_reducible apply Eff.step; with_reducible apply putRegion_eff) | (with_reducible apply Eff.step; with_reducible apply countRegions_eff)
    | split | dsimp only [id]

theorem mrgRun_eff (op key : Nat) (b : List Byte) (pages : List Nat) (ok : Bool) (own : Option Nat) (d : Dev) : Eff 0x1011d d (mrgRun op key b pages ok own d).2.2.2.2 := by
  unfold mrgRun
  try dsimp only
  repeat' first
    | with_reducible apply Eff.refl | with_reducible assumption | (apply Sub.of; rfl) | (apply Has.of; rfl) | intro _ | with_reducible apply ite_eff
    | with_reducible apply ite_snd | (with_reducible apply Eff.step; with_reducible apply mrgReg_eff)
    | (with_reducible apply Eff.step; with_reducible apply eff_snd3; assumption; with_reducible apply mrgReg_eff)
    | (with_reducible apply Eff.step; with_reducible apply mrgRereg_eff)
    | (with_reducible apply Eff.step; with_reducible apply eff_snd3; assumption; with_reducible apply mrgRereg_eff)
    | (with_reducible apply Eff.step; with_reducible apply dereg_eff) | (with_reducible apply Eff.step; with_reducible apply countRegions_eff)
    | (with_reducible apply Eff.step; with_reducible apply invalSlice_eff) | split | dsimp only [id]

theorem mrgGo_eff (pages : List Nat) (ok : Bool) (d : Dev) : Eff 0x1011d d (mrgGo pages ok d) := by
  unfold mrgGo
  try dsimp only
  repeat' first
    | with_reducible apply Eff.refl | with_reducible assumption | (apply Sub.of; rfl) | (apply Has.of; rfl) | intro _ | with_reducible apply ite_eff
    | (with_reducible apply Eff.step; with_reducible apply mrgRun_eff)
    | (with_reducible apply Eff.step; with_reducible apply eff_snd5; assumption; with_reducible apply mrgRun_eff)
    | (with_reducible apply Eff.step; with_reducible apply putRegBytes_eff) | (with_reducible apply Eff.step; with_reducible apply wr_eff)
    | (with_reducible apply Eff.step; with_reducible apply raise_eff) | (with_reducible apply Eff.step; with_reducible apply updEng_eff) | split
    | dsimp only [id]

theorem mrgCmd_eff (op : Nat) (pages : List Nat) (ok : Bool) (d : Dev) : Eff 0x1011d d (mrgCmd op pages ok d) := by
  unfold mrgCmd
  try dsimp only
  repeat' first
    | with_reducible apply Eff.refl | with_reducible assumption | (apply Sub.of; rfl) | (apply Has.of; rfl) | intro _ | with_reducible apply ite_eff
    | (with_reducible apply onlyIf_eff) | (with_reducible apply trigger_eff) | (with_reducible apply Eff.step; with_reducible apply mrgGo_eff) | split
    | dsimp only [id]

theorem cmrWrite_eff (n a : Nat) (bytes : List Byte) (d : Dev) : Eff 0x1000d d (cmrWrite n a bytes d) := by
  unfold cmrWrite
  try dsimp only
  repeat' first
    | with_reducible apply Eff.refl | with_reducible assumption | (apply Sub.of; rfl) | (apply Has.of; rfl) | intro _ | with_reducible apply ite_eff
    | (with_reducible apply Eff.step; with_reducible apply access_eff) | split | dsimp only [id]

theorem ringDone_eff (n : Nat) (entry : List Byte) (status : Nat) (data : List Byte) (num : Option Nat) (d : Dev) : Eff 0x1011d d (ringDone n entry status data num d) := by
  unfold ringDone
  try dsimp only
  repeat' first
    | with_reducible apply Eff.refl | with_reducible assumption | (apply Sub.of; rfl) | (apply Has.of; rfl) | intro _ | with_reducible apply ite_eff
    | (with_reducible apply onlyIf_eff) | (with_reducible apply Eff.step; with_reducible apply cmrWrite_eff)
    | (with_reducible apply Eff.step; with_reducible apply slWr_eff) | (with_reducible apply Eff.step; with_reducible apply updSlice_eff)
    | (with_reducible apply Eff.step; with_reducible apply sliceEvent_eff) | split | dsimp only [id]

theorem retireDone_eff (d : Dev) : Eff 0x1011d d (retireDone d) := by
  unfold retireDone
  try dsimp only
  repeat' first
    | with_reducible apply Eff.refl | with_reducible assumption | (apply Sub.of; rfl) | (apply Has.of; rfl) | intro _ | with_reducible apply ite_eff
    | (with_reducible apply Eff.step; with_reducible apply updEng_eff) | (with_reducible apply Eff.step; with_reducible apply wr_eff)
    | (with_reducible apply Eff.step; with_reducible apply raise_eff) | (with_reducible apply Eff.step; with_reducible apply ringDone_eff) | split
    | dsimp only [id]

end Sys2Proof.Machine
end

