-- ==== Sys2Proof/Laws/EffRegion.lean ====
section
/-!
SUPPORT. What each function of Machine/Region.lean can change.
-/

namespace Sys2Proof.Machine

theorem execReg_ran (pages : List Nat) (ok : Bool) (s : State) : Ran 0x1811f s (execReg pages ok s) := by
  unfold execReg
  try dsimp only
  repeat' first
    | with_reducible apply Eff.refl | with_reducible assumption | (apply Sub.of; rfl) | (apply Has.of; rfl) | intro _ | with_reducible apply ite_eff
    | with_reducible apply ite_ran | with_reducible apply onEng_ran | (with_reducible apply Eff.step; with_reducible apply mrgCmd_eff) | split
    | dsimp only [id]

theorem execRereg_ran (pages : List Nat) (ok : Bool) (s : State) : Ran 0x1811f s (execRereg pages ok s) := by
  unfold execRereg
  try dsimp only
  repeat' first
    | with_reducible apply Eff.refl | with_reducible assumption | (apply Sub.of; rfl) | (apply Has.of; rfl) | intro _ | with_reducible apply ite_eff
    | with_reducible apply ite_ran | with_reducible apply onEng_ran | (with_reducible apply Eff.step; with_reducible apply mrgCmd_eff) | split
    | dsimp only [id]

theorem execDereg_ran (s : State) : Ran 0x1811f s (execDereg s) := by
  unfold execDereg
  try dsimp only
  repeat' first
    | with_reducible apply Eff.refl | with_reducible assumption | (apply Sub.of; rfl) | (apply Has.of; rfl) | intro _ | with_reducible apply ite_eff
    | with_reducible apply ite_ran | with_reducible apply onEng_ran | (with_reducible apply Eff.step; with_reducible apply mrgCmd_eff) | split
    | dsimp only [id]

theorem execMrgQuery_ran (s : State) : Ran 0x1811f s (execMrgQuery s) := by
  unfold execMrgQuery
  try dsimp only
  repeat' first
    | with_reducible apply Eff.refl | with_reducible assumption | (apply Sub.of; rfl) | (apply Has.of; rfl) | intro _ | with_reducible apply ite_eff
    | with_reducible apply ite_ran | with_reducible apply onEng_ran | (with_reducible apply Eff.step; with_reducible apply mrgCmd_eff) | split
    | dsimp only [id]

theorem execInvalSlice_ran (s : State) : Ran 0x1811f s (execInvalSlice s) := by
  unfold execInvalSlice
  try dsimp only
  repeat' first
    | with_reducible apply Eff.refl | with_reducible assumption | (apply Sub.of; rfl) | (apply Has.of; rfl) | intro _ | with_reducible apply ite_eff
    | with_reducible apply ite_ran | with_reducible apply onEng_ran | (with_reducible apply Eff.step; with_reducible apply mrgCmd_eff) | split
    | dsimp only [id]

theorem execMrgRetireDone_ran (s : State) : Ran 0x1811f s (execMrgRetireDone s) := by
  unfold execMrgRetireDone
  try dsimp only
  repeat' first
    | with_reducible apply Eff.refl | with_reducible assumption | (apply Sub.of; rfl) | (apply Has.of; rfl) | intro _ | with_reducible apply ite_eff
    | with_reducible apply ite_ran | with_reducible apply onEng_ran | (with_reducible apply Eff.step; with_reducible apply retireDone_eff) | split
    | dsimp only [id]

theorem execXltFetchDone_ran (qpn : Nat) (ok : Bool) (s : State) : Ran 0x1811f s (execXltFetchDone qpn ok s) := by
  unfold execXltFetchDone
  try dsimp only
  repeat' first
    | with_reducible apply Eff.refl | with_reducible assumption | (apply Sub.of; rfl) | (apply Has.of; rfl) | intro _ | with_reducible apply ite_eff
    | with_reducible apply ite_ran | (with_reducible apply onlyIf_eff) | with_reducible apply onEng_ran
    | (with_reducible apply Eff.step; with_reducible apply putRegion_eff) | (with_reducible apply Eff.step; with_reducible apply countRegions_eff)
    | (with_reducible apply Eff.step; with_reducible apply raise_eff) | (with_reducible apply Eff.step; with_reducible apply updEng_eff)
    | (with_reducible apply Eff.step; with_reducible apply runParked_eff) | split | dsimp only [id]

theorem putWin_eff (w : Nat) (x : Staged) (d : Dev) : Eff 0x10000 d (putWin w x d) := by
  unfold putWin
  try dsimp only
  repeat' first
    | with_reducible apply Eff.refl | with_reducible assumption | (apply Sub.of; rfl) | (apply Has.of; rfl) | intro _ | with_reducible apply ite_eff
    | (with_reducible apply Eff.step; with_reducible apply updEng_eff) | split | dsimp only [id]

theorem putRow_eff (f : Fld) (inst : Nat) (ws : List Nat) (d : Dev) : Eff 0x1 d (putRow f inst ws d) := by
  unfold putRow
  try dsimp only
  repeat' first
    | with_reducible apply Eff.refl | with_reducible assumption | (apply Sub.of; rfl) | (apply Has.of; rfl) | intro _ | with_reducible apply ite_eff
    | (with_reducible apply forEach_eff) | (with_reducible apply Eff.step; with_reducible apply wrI_eff) | split | dsimp only [id]

theorem setPend_eff (w : Nat) (b : Bool) (d : Dev) : Eff 0x1 d (setPend w b d) := by
  unfold setPend
  try dsimp only
  repeat' first
    | with_reducible apply Eff.refl | with_reducible assumption | (apply Sub.of; rfl) | (apply Has.of; rfl) | intro _ | with_reducible apply ite_eff
    | (with_reducible apply Eff.step; with_reducible apply wrI_eff) | split | dsimp only [id]

theorem agePast_eff (w : Nat) (d : Dev) : Eff 0x10000 d (agePast w d) := by
  unfold agePast
  try dsimp only
  repeat' first
    | with_reducible apply Eff.refl | with_reducible assumption | (apply Sub.of; rfl) | (apply Has.of; rfl) | intro _ | with_reducible apply ite_eff
    | (with_reducible apply Eff.step; with_reducible apply updEng_eff) | split | dsimp only [id]

theorem commitWin_eff (w : Nat) (off : Nat) (val : Word) (d : Dev) : Eff 0x1011d d (commitWin w off val d) := by
  unfold commitWin
  try dsimp only
  repeat' first
    | with_reducible apply Eff.refl | with_reducible assumption | (apply Sub.of; rfl) | (apply Has.of; rfl) | intro _ | with_reducible apply ite_eff
    | (with_reducible apply Eff.step; with_reducible apply agePast_eff) | (with_reducible apply Eff.step; with_reducible apply putWin_eff)
    | (with_reducible apply Eff.step; with_reducible apply setPend_eff) | (with_reducible apply Eff.step; with_reducible apply addMod_eff)
    | (with_reducible apply Eff.step; with_reducible apply wr_eff) | (with_reducible apply Eff.step; with_reducible apply cfgErr_eff) | split
    | dsimp only [id]

theorem winTrig_eff {t : Nat} {a : Dev} (bit : Nat) (act : Nat → Word → Dev → Dev) (d : Dev) (h : Eff t a d) (ha : ∀ x y d, Eff t d (act x y d)) (s : Sub 0x11d t) :
    Eff t a (winTrig bit act d) := by
  unfold winTrig
  try dsimp only
  repeat' first
    | with_reducible assumption | (apply Sub.of; rfl) | (apply Sub.via s; apply Sub.of; rfl) | (apply Has.of; rfl)
    | (with_reducible apply Eff.seq; with_reducible apply ha) | (apply Has.via s; apply Has.of; rfl) | intro _ | with_reducible apply ite_eff
    | (with_reducible apply trigger_eff) | with_reducible apply Eff.refl | split | dsimp only [id]

theorem winRdLive_eff (w : Nat) (_w : Word) (d : Dev) : Eff 0x1 d (winRdLive w _w d) := by
  unfold winRdLive
  try dsimp only
  repeat' first
    | with_reducible apply Eff.refl | with_reducible assumption | (apply Sub.of; rfl) | (apply Has.of; rfl) | intro _ | with_reducible apply ite_eff
    | (with_reducible apply Eff.step; with_reducible apply putRow_eff) | split | dsimp only [id]

theorem winRdShadow_eff (w : Nat) (_w : Word) (d : Dev) : Eff 0x1 d (winRdShadow w _w d) := by
  unfold winRdShadow
  try dsimp only
  repeat' first
    | with_reducible apply Eff.refl | with_reducible assumption | (apply Sub.of; rfl) | (apply Has.of; rfl) | intro _ | with_reducible apply ite_eff
    | (with_reducible apply Eff.step; with_reducible apply putRow_eff) | split | dsimp only [id]

theorem winWrShadow_eff (w : Nat) (_w : Word) (d : Dev) : Eff 0x10000 d (winWrShadow w _w d) := by
  unfold winWrShadow
  try dsimp only
  repeat' first
    | with_reducible apply Eff.refl | with_reducible assumption | (apply Sub.of; rfl) | (apply Has.of; rfl) | intro _ | with_reducible apply ite_eff
    | (with_reducible apply Eff.step; with_reducible apply putWin_eff) | split | dsimp only [id]

theorem winDiscard_eff (w : Nat) (_w : Word) (d : Dev) : Eff 0x10000 d (winDiscard w _w d) := by
  unfold winDiscard
  try dsimp only
  repeat' first
    | with_reducible apply Eff.refl | with_reducible assumption | (apply Sub.of; rfl) | (apply Has.of; rfl) | intro _ | with_reducible apply ite_eff
    | (with_reducible apply Eff.step; with_reducible apply putWin_eff) | split | dsimp only [id]

theorem execWinRdLive_ran (s : State) : Ran 0x1811f s (execWinRdLive s) := by
  unfold execWinRdLive
  try dsimp only
  repeat' first
    | with_reducible apply Eff.refl | with_reducible assumption | (apply Sub.of; rfl) | (apply Has.of; rfl) | intro _ | with_reducible apply ite_eff
    | with_reducible apply ite_ran | with_reducible apply onEng_ran | (with_reducible apply winTrig_eff)
    | (with_reducible apply Eff.step; with_reducible apply winRdLive_eff) | split | dsimp only [id]

theorem execWinRdShadow_ran (s : State) : Ran 0x1811f s (execWinRdShadow s) := by
  unfold execWinRdShadow
  try dsimp only
  repeat' first
    | with_reducible apply Eff.refl | with_reducible assumption | (apply Sub.of; rfl) | (apply Has.of; rfl) | intro _ | with_reducible apply ite_eff
    | with_reducible apply ite_ran | with_reducible apply onEng_ran | (with_reducible apply winTrig_eff)
    | (with_reducible apply Eff.step; with_reducible apply winRdShadow_eff) | split | dsimp only [id]

theorem execWinWrShadow_ran (s : State) : Ran 0x1811f s (execWinWrShadow s) := by
  unfold execWinWrShadow
  try dsimp only
  repeat' first
    | with_reducible apply Eff.refl | with_reducible assumption | (apply Sub.of; rfl) | (apply Has.of; rfl) | intro _ | with_reducible apply ite_eff
    | with_reducible apply ite_ran | with_reducible apply onEng_ran | (with_reducible apply winTrig_eff)
    | (with_reducible apply Eff.step; with_reducible apply winWrShadow_eff) | split | dsimp only [id]

theorem execWinCommit_ran (s : State) : Ran 0x1811f s (execWinCommit s) := by
  unfold execWinCommit
  try dsimp only
  repeat' first
    | with_reducible apply Eff.refl | with_reducible assumption | (apply Sub.of; rfl) | (apply Has.of; rfl) | intro _ | with_reducible apply ite_eff
    | with_reducible apply ite_ran | with_reducible apply onEng_ran | (with_reducible apply winTrig_eff)
    | (with_reducible apply Eff.step; with_reducible apply commitWin_eff) | split | dsimp only [id]

theorem execWinDiscard_ran (s : State) : Ran 0x1811f s (execWinDiscard s) := by
  unfold execWinDiscard
  try dsimp only
  repeat' first
    | with_reducible apply Eff.refl | with_reducible assumption | (apply Sub.of; rfl) | (apply Has.of; rfl) | intro _ | with_reducible apply ite_eff
    | with_reducible apply ite_ran | with_reducible apply onEng_ran | (with_reducible apply winTrig_eff)
    | (with_reducible apply Eff.step; with_reducible apply winDiscard_eff) | split | dsimp only [id]

theorem execWindowFenceDone_ran (reach : Bool) (win : Nat) (s : State) : Ran 0x1811f s (execWindowFenceDone reach win s) := by
  unfold execWindowFenceDone
  try dsimp only
  repeat' first
    | with_reducible apply Eff.refl | with_reducible assumption | (apply Sub.of; rfl) | (apply Has.of; rfl) | intro _ | with_reducible apply ite_eff
    | with_reducible apply ite_ran | (with_reducible apply onlyIf_eff) | with_reducible apply onEng_ran
    | (with_reducible apply Eff.step; with_reducible apply updBw_eff) | (with_reducible apply Eff.step; with_reducible apply raise_eff)
    | (with_reducible apply Eff.step; with_reducible apply setPend_eff) | split | dsimp only [id]

end Sys2Proof.Machine
end

