-- ==== Sys2Proof/Laws/EffBridge.lean ====
section
/-!
SUPPORT. What each function of Machine/Bridge.lean can change.
-/

namespace Sys2Proof.Machine

theorem putBwin_eff (w : Nat) (x : Staged) (d : Dev) : Eff 0x10000 d (putBwin w x d) := by
  unfold putBwin
  try dsimp only
  repeat' first
    | with_reducible apply Eff.refl | with_reducible assumption | (apply Sub.of; rfl) | (apply Has.of; rfl) | intro _ | with_reducible apply ite_eff
    | (with_reducible apply Eff.step; with_reducible apply updEng_eff) | split | dsimp only [id]

theorem putGrp_eff (g : Nat) (x : Staged) (d : Dev) : Eff 0x10000 d (putGrp g x d) := by
  unfold putGrp
  try dsimp only
  repeat' first
    | with_reducible apply Eff.refl | with_reducible assumption | (apply Sub.of; rfl) | (apply Has.of; rfl) | intro _ | with_reducible apply ite_eff
    | (with_reducible apply Eff.step; with_reducible apply updEng_eff) | split | dsimp only [id]

theorem agePastBw_eff (w : Nat) (d : Dev) : Eff 0x10000 d (agePastBw w d) := by
  unfold agePastBw
  try dsimp only
  repeat' first
    | with_reducible apply Eff.refl | with_reducible assumption | (apply Sub.of; rfl) | (apply Has.of; rfl) | intro _ | with_reducible apply ite_eff
    | (with_reducible apply Eff.step; with_reducible apply updBw_eff) | (with_reducible apply Eff.step; with_reducible apply updEng_eff) | split
    | dsimp only [id]

theorem commitBwin_eff (w off : Nat) (val : Word) (d : Dev) : Eff 0x1011d d (commitBwin w off val d) := by
  unfold commitBwin
  try dsimp only
  repeat' first
    | with_reducible apply Eff.refl | with_reducible assumption | (apply Sub.of; rfl) | (apply Has.of; rfl) | intro _ | with_reducible apply ite_eff
    | (with_reducible apply Eff.step; with_reducible apply dropBlocks_eff) | (with_reducible apply Eff.step; with_reducible apply agePastBw_eff)
    | (with_reducible apply Eff.step; with_reducible apply putBwin_eff) | (with_reducible apply Eff.step; with_reducible apply cfgErr_eff) | split
    | dsimp only [id]

theorem brgTrig_eff {t : Nat} {a : Dev} (bit : Nat) (act : Nat → Word → Dev → Dev) (d : Dev) (h : Eff t a d) (ha : ∀ x y d, Eff t d (act x y d)) (s : Sub 0x11d t) :
    Eff t a (brgTrig bit act d) := by
  unfold brgTrig
  try dsimp only
  repeat' first
    | with_reducible assumption | (apply Sub.of; rfl) | (apply Sub.via s; apply Sub.of; rfl) | (apply Has.of; rfl)
    | (with_reducible apply Eff.seq; with_reducible apply ha) | (apply Has.via s; apply Has.of; rfl) | intro _ | with_reducible apply ite_eff
    | (with_reducible apply trigger_eff) | with_reducible apply Eff.refl | split | dsimp only [id]

theorem bwRdLive_eff (w : Nat) (_w : Word) (d : Dev) : Eff 0x1 d (bwRdLive w _w d) := by
  unfold bwRdLive
  try dsimp only
  repeat' first
    | with_reducible apply Eff.refl | with_reducible assumption | (apply Sub.of; rfl) | (apply Has.of; rfl) | intro _ | with_reducible apply ite_eff
    | (with_reducible apply Eff.step; with_reducible apply putRow_eff) | split | dsimp only [id]

theorem bwRdShadow_eff (w : Nat) (_w : Word) (d : Dev) : Eff 0x1 d (bwRdShadow w _w d) := by
  unfold bwRdShadow
  try dsimp only
  repeat' first
    | with_reducible apply Eff.refl | with_reducible assumption | (apply Sub.of; rfl) | (apply Has.of; rfl) | intro _ | with_reducible apply ite_eff
    | (with_reducible apply Eff.step; with_reducible apply putRow_eff) | split | dsimp only [id]

theorem bwWrShadow_eff (w : Nat) (_w : Word) (d : Dev) : Eff 0x10000 d (bwWrShadow w _w d) := by
  unfold bwWrShadow
  try dsimp only
  repeat' first
    | with_reducible apply Eff.refl | with_reducible assumption | (apply Sub.of; rfl) | (apply Has.of; rfl) | intro _ | with_reducible apply ite_eff
    | (with_reducible apply Eff.step; with_reducible apply putBwin_eff) | split | dsimp only [id]

theorem bwDiscard_eff (w : Nat) (_w : Word) (d : Dev) : Eff 0x10000 d (bwDiscard w _w d) := by
  unfold bwDiscard
  try dsimp only
  repeat' first
    | with_reducible apply Eff.refl | with_reducible assumption | (apply Sub.of; rfl) | (apply Has.of; rfl) | intro _ | with_reducible apply ite_eff
    | (with_reducible apply Eff.step; with_reducible apply putBwin_eff) | split | dsimp only [id]

theorem bwErrClr_eff (w : Nat) (_w : Word) (d : Dev) : Eff 0x10000 d (bwErrClr w _w d) := by
  unfold bwErrClr
  try dsimp only
  repeat' first
    | with_reducible apply Eff.refl | with_reducible assumption | (apply Sub.of; rfl) | (apply Has.of; rfl) | intro _ | with_reducible apply ite_eff
    | (with_reducible apply Eff.step; with_reducible apply updBw_eff) | split | dsimp only [id]

theorem execBrgRdLive_ran (s : State) : Ran 0x1811f s (execBrgRdLive s) := by
  unfold execBrgRdLive
  try dsimp only
  repeat' first
    | with_reducible apply Eff.refl | with_reducible assumption | (apply Sub.of; rfl) | (apply Has.of; rfl) | intro _ | with_reducible apply ite_eff
    | with_reducible apply ite_ran | with_reducible apply onEng_ran | (with_reducible apply brgTrig_eff)
    | (with_reducible apply Eff.step; with_reducible apply bwRdLive_eff) | split | dsimp only [id]

theorem execBrgRdShadow_ran (s : State) : Ran 0x1811f s (execBrgRdShadow s) := by
  unfold execBrgRdShadow
  try dsimp only
  repeat' first
    | with_reducible apply Eff.refl | with_reducible assumption | (apply Sub.of; rfl) | (apply Has.of; rfl) | intro _ | with_reducible apply ite_eff
    | with_reducible apply ite_ran | with_reducible apply onEng_ran | (with_reducible apply brgTrig_eff)
    | (with_reducible apply Eff.step; with_reducible apply bwRdShadow_eff) | split | dsimp only [id]

theorem execBrgWrShadow_ran (s : State) : Ran 0x1811f s (execBrgWrShadow s) := by
  unfold execBrgWrShadow
  try dsimp only
  repeat' first
    | with_reducible apply Eff.refl | with_reducible assumption | (apply Sub.of; rfl) | (apply Has.of; rfl) | intro _ | with_reducible apply ite_eff
    | with_reducible apply ite_ran | with_reducible apply onEng_ran | (with_reducible apply brgTrig_eff)
    | (with_reducible apply Eff.step; with_reducible apply bwWrShadow_eff) | split | dsimp only [id]

theorem execBrgWinCommit_ran (s : State) : Ran 0x1811f s (execBrgWinCommit s) := by
  unfold execBrgWinCommit
  try dsimp only
  repeat' first
    | with_reducible apply Eff.refl | with_reducible assumption | (apply Sub.of; rfl) | (apply Has.of; rfl) | intro _ | with_reducible apply ite_eff
    | with_reducible apply ite_ran | with_reducible apply onEng_ran | (with_reducible apply brgTrig_eff)
    | (with_reducible apply Eff.step; with_reducible apply commitBwin_eff) | split | dsimp only [id]

theorem execBrgDiscard_ran (s : State) : Ran 0x1811f s (execBrgDiscard s) := by
  unfold execBrgDiscard
  try dsimp only
  repeat' first
    | with_reducible apply Eff.refl | with_reducible assumption | (apply Sub.of; rfl) | (apply Has.of; rfl) | intro _ | with_reducible apply ite_eff
    | with_reducible apply ite_ran | with_reducible apply onEng_ran | (with_reducible apply brgTrig_eff)
    | (with_reducible apply Eff.step; with_reducible apply bwDiscard_eff) | split | dsimp only [id]

theorem execErrClr_ran (s : State) : Ran 0x1811f s (execErrClr s) := by
  unfold execErrClr
  try dsimp only
  repeat' first
    | with_reducible apply Eff.refl | with_reducible assumption | (apply Sub.of; rfl) | (apply Has.of; rfl) | intro _ | with_reducible apply ite_eff
    | with_reducible apply ite_ran | with_reducible apply onEng_ran | (with_reducible apply brgTrig_eff)
    | (with_reducible apply Eff.step; with_reducible apply bwErrClr_eff) | split | dsimp only [id]

theorem grpTrig_eff {t : Nat} {a : Dev} (bit : Nat) (act : Nat → Word → Dev → Dev) (d : Dev) (h : Eff t a d) (ha : ∀ x y d, Eff t d (act x y d)) (s : Sub 0x11d t) :
    Eff t a (grpTrig bit act d) := by
  unfold grpTrig
  try dsimp only
  repeat' first
    | with_reducible assumption | (apply Sub.of; rfl) | (apply Sub.via s; apply Sub.of; rfl) | (apply Has.of; rfl)
    | (with_reducible apply Eff.seq; with_reducible apply ha) | (apply Has.via s; apply Has.of; rfl) | intro _ | with_reducible apply ite_eff
    | (with_reducible apply trigger_eff) | with_reducible apply Eff.refl | split | dsimp only [id]

theorem commitGrp_eff (g off : Nat) (val : Word) (d : Dev) : Eff 0x1011d d (commitGrp g off val d) := by
  unfold commitGrp
  try dsimp only
  repeat' first
    | with_reducible apply Eff.refl | with_reducible assumption | (apply Sub.of; rfl) | (apply Has.of; rfl) | intro _ | with_reducible apply ite_eff
    | (with_reducible apply Eff.step; with_reducible apply putGrp_eff) | (with_reducible apply Eff.step; with_reducible apply cfgErr_eff) | split
    | dsimp only [id]

theorem grpRd_eff (g : Nat) (_w : Word) (d : Dev) : Eff 0x1 d (grpRd g _w d) := by
  unfold grpRd
  try dsimp only
  repeat' first
    | with_reducible apply Eff.refl | with_reducible assumption | (apply Sub.of; rfl) | (apply Has.of; rfl) | intro _ | with_reducible apply ite_eff
    | (with_reducible apply Eff.step; with_reducible apply putRow_eff) | split | dsimp only [id]

theorem grpWr_eff (g : Nat) (_w : Word) (d : Dev) : Eff 0x10000 d (grpWr g _w d) := by
  unfold grpWr
  try dsimp only
  repeat' first
    | with_reducible apply Eff.refl | with_reducible assumption | (apply Sub.of; rfl) | (apply Has.of; rfl) | intro _ | with_reducible apply ite_eff
    | (with_reducible apply Eff.step; with_reducible apply putGrp_eff) | split | dsimp only [id]

theorem execGrpRd_ran (s : State) : Ran 0x1811f s (execGrpRd s) := by
  unfold execGrpRd
  try dsimp only
  repeat' first
    | with_reducible apply Eff.refl | with_reducible assumption | (apply Sub.of; rfl) | (apply Has.of; rfl) | intro _ | with_reducible apply ite_eff
    | with_reducible apply ite_ran | with_reducible apply onEng_ran | (with_reducible apply grpTrig_eff)
    | (with_reducible apply Eff.step; with_reducible apply grpRd_eff) | split | dsimp only [id]

theorem execGrpWr_ran (s : State) : Ran 0x1811f s (execGrpWr s) := by
  unfold execGrpWr
  try dsimp only
  repeat' first
    | with_reducible apply Eff.refl | with_reducible assumption | (apply Sub.of; rfl) | (apply Has.of; rfl) | intro _ | with_reducible apply ite_eff
    | with_reducible apply ite_ran | with_reducible apply onEng_ran | (with_reducible apply grpTrig_eff)
    | (with_reducible apply Eff.step; with_reducible apply grpWr_eff) | split | dsimp only [id]

theorem execGrpCommit_ran (s : State) : Ran 0x1811f s (execGrpCommit s) := by
  unfold execGrpCommit
  try dsimp only
  repeat' first
    | with_reducible apply Eff.refl | with_reducible assumption | (apply Sub.of; rfl) | (apply Has.of; rfl) | intro _ | with_reducible apply ite_eff
    | with_reducible apply ite_ran | with_reducible apply onEng_ran | (with_reducible apply grpTrig_eff)
    | (with_reducible apply Eff.step; with_reducible apply commitGrp_eff) | split | dsimp only [id]

theorem carryRuns_eff (w cells : Nat) (l : List (Nat × List Byte)) (d : Dev) : Eff 0x10000 d (carryRuns w cells l d) := by
  induction l generalizing cells d with
  | nil => exact .refl d
  | cons x l ih => exact (addWqe_eff _ _ _ d).trans (ih 0 _)

theorem execBrgMemWriteTlp_ran (vh ofs : Nat) (data : List Byte) (be : List Bool) (s : State) : Ran 0x1811f s (execBrgMemWriteTlp vh ofs data be s) := by
  unfold execBrgMemWriteTlp
  try dsimp only
  repeat' first
    | with_reducible apply Eff.refl | with_reducible assumption | (apply Sub.of; rfl) | (apply Has.of; rfl) | intro _ | with_reducible apply ite_eff
    | with_reducible apply ite_ran | with_reducible apply onEng_ran | (with_reducible apply Eff.step; with_reducible apply bump_eff)
    | (with_reducible apply Eff.step; with_reducible apply latchWin_eff) | (with_reducible apply Eff.step; with_reducible apply dropBlocks_eff)
    | (with_reducible apply Eff.step; with_reducible apply carryRuns_eff) | split | dsimp only [id]

theorem updBrgRead_eff (id : Nat) (f : BrgRead → BrgRead) (d : Dev) : Eff 0x10000 d (updBrgRead id f d) := by
  unfold updBrgRead
  try dsimp only
  repeat' first
    | with_reducible apply Eff.refl | with_reducible assumption | (apply Sub.of; rfl) | (apply Has.of; rfl) | intro _ | with_reducible apply ite_eff
    | (with_reducible apply Eff.step; with_reducible apply updEng_eff) | split | dsimp only [id]

theorem fetchBlock_eff (w a : Nat) (d : Dev) : Eff 0x10009 d (fetchBlock w a d) := by
  unfold fetchBlock
  try dsimp only
  repeat' first
    | with_reducible apply Eff.refl | with_reducible assumption | (apply Sub.of; rfl) | (apply Has.of; rfl) | intro _ | with_reducible apply ite_eff
    | (with_reducible apply Eff.step; with_reducible apply dropBlocks_eff) | (with_reducible apply Eff.step; with_reducible apply updEng_eff)
    | (with_reducible apply Eff.step; with_reducible apply bump_eff) | (with_reducible apply Eff.step; with_reducible apply addWqe_eff) | split
    | dsimp only [id]

theorem issueRead_eff (r : BrgRead) (d : Dev) : Eff 0x1000d d (issueRead r d) := by
  unfold issueRead
  try dsimp only
  repeat' first
    | with_reducible apply Eff.refl | with_reducible assumption | (apply Sub.of; rfl) | (apply Has.of; rfl) | intro _ | with_reducible apply ite_eff
    | (with_reducible apply Eff.step; with_reducible apply abortBrgRead_eff)
    | (with_reducible apply forEach_eff) | (with_reducible apply Eff.step; with_reducible apply bump_eff)
    | (with_reducible apply Eff.step; with_reducible apply updBrgRead_eff) | (with_reducible apply Eff.step; with_reducible apply addWqe_eff)
    | (with_reducible apply Eff.step; with_reducible apply fetchBlock_eff) | (with_reducible apply Eff.step; with_reducible apply readyPfReads_eff)
    | split | dsimp only [id]

theorem enterRead_eff (r0 : BrgRead) (d : Dev) : Eff 0x1000d d (enterRead r0 d) := by
  unfold enterRead
  try dsimp only
  repeat' first
    | with_reducible apply Eff.refl | with_reducible assumption | (apply Sub.of; rfl) | (apply Has.of; rfl) | intro _ | with_reducible apply ite_eff
    | (with_reducible apply Eff.step; with_reducible apply updEng_eff) | (with_reducible apply Eff.step; with_reducible apply updBw_eff)
    | (with_reducible apply Eff.step; with_reducible apply readyBrgReads_eff) | (with_reducible apply Eff.step; with_reducible apply bump_eff)
    | (with_reducible apply Eff.step; with_reducible apply useBlocks_eff) | (with_reducible apply Eff.step; with_reducible apply issueRead_eff)
    | split | dsimp only [id]

theorem refuseRead_eff (vh req tag ofs status : Nat) (d : Dev) : Eff 0xd d (refuseRead vh req tag ofs status d) := by
  unfold refuseRead
  try dsimp only
  repeat' first
    | with_reducible apply Eff.refl | with_reducible assumption | (apply Sub.of; rfl) | (apply Has.of; rfl) | intro _ | with_reducible apply ite_eff
    | (with_reducible apply Eff.step; with_reducible apply cplStatus_eff) | split | dsimp only [id]

theorem execBrgMemReadTlp_ran (vh req tag ofs len : Nat) (s : State) : Ran 0x1811f s (execBrgMemReadTlp vh req tag ofs len s) := by
  unfold execBrgMemReadTlp
  try dsimp only
  repeat' first
    | with_reducible apply Eff.refl | with_reducible assumption | (apply Sub.of; rfl) | (apply Has.of; rfl) | intro _ | with_reducible apply ite_eff
    | with_reducible apply ite_ran | with_reducible apply onEng_ran | (with_reducible apply Eff.step; with_reducible apply refuseRead_eff)
    | (with_reducible apply Eff.step; with_reducible apply takeFree_eff) | (with_reducible apply Eff.step; with_reducible apply enterRead_eff) | split
    | dsimp only [id]

theorem execBrgQueuedReadIssue_ran (s : State) : Ran 0x1811f s (execBrgQueuedReadIssue s) := by
  unfold execBrgQueuedReadIssue
  try dsimp only
  repeat' first
    | with_reducible apply Eff.refl | with_reducible assumption | (apply Sub.of; rfl) | (apply Has.of; rfl) | intro _ | with_reducible apply ite_eff
    | with_reducible apply ite_ran | with_reducible apply onEng_ran | (with_reducible apply Eff.step; with_reducible apply issueRead_eff) | split
    | dsimp only [id]

theorem execBrgAtomicopTlp_ran (vh req tag ofs kind size op1 op2 : Nat) (s : State) : Ran 0x1811f s (execBrgAtomicopTlp vh req tag ofs kind size op1 op2 s) := by
  unfold execBrgAtomicopTlp
  try dsimp only
  repeat' first
    | with_reducible apply Eff.refl | with_reducible assumption | (apply Sub.of; rfl) | (apply Has.of; rfl) | intro _ | with_reducible apply ite_eff
    | with_reducible apply ite_ran | with_reducible apply onEng_ran | (with_reducible apply Eff.step; with_reducible apply refuseRead_eff)
    | (with_reducible apply Eff.step; with_reducible apply enterRead_eff) | split | dsimp only [id]

theorem execBrgLockedRead_ran (vh req tag ofs len : Nat) (s : State) : Ran 0x1811f s (execBrgLockedRead vh req tag ofs len s) := by
  unfold execBrgLockedRead
  try dsimp only
  repeat' first
    | with_reducible apply Eff.refl | with_reducible assumption | (apply Sub.of; rfl) | (apply Has.of; rfl) | intro _ | with_reducible apply ite_eff
    | with_reducible apply ite_ran | with_reducible apply onEng_ran | (with_reducible apply Eff.step; with_reducible apply refuseRead_eff)
    | (with_reducible apply Eff.step; with_reducible apply enterRead_eff) | split | dsimp only [id]

theorem unlock_eff (w : Nat) (d : Dev) : Eff 0x10000 d (unlock w d) := by
  unfold unlock
  try dsimp only
  repeat' first
    | with_reducible apply Eff.refl | with_reducible assumption | (apply Sub.of; rfl) | (apply Has.of; rfl) | intro _ | with_reducible apply ite_eff
    | (with_reducible apply forEach_eff) | (with_reducible apply Eff.step; with_reducible apply updBw_eff)
    | (with_reducible apply Eff.step; with_reducible apply updBrgRead_eff) | split | dsimp only [id]

theorem execBrgUnlockMsg_ran (vh req : Nat) (s : State) : Ran 0x1811f s (execBrgUnlockMsg vh req s) := by
  unfold execBrgUnlockMsg
  try dsimp only
  repeat' first
    | with_reducible apply Eff.refl | with_reducible assumption | (apply Sub.of; rfl) | (apply Has.of; rfl) | intro _ | with_reducible apply ite_eff
    | with_reducible apply ite_ran | (with_reducible apply forEach_eff) | with_reducible apply onEng_ran
    | (with_reducible apply Eff.step; with_reducible apply unlock_eff) | split | dsimp only [id]

theorem execBrgRdTimeout_ran (id : Nat) (s : State) : Ran 0x1811f s (execBrgRdTimeout id s) := by
  unfold execBrgRdTimeout
  try dsimp only
  repeat' first
    | with_reducible apply Eff.refl | with_reducible assumption | (apply Sub.of; rfl) | (apply Has.of; rfl) | intro _ | with_reducible apply ite_eff
    | with_reducible apply ite_ran | with_reducible apply onEng_ran | (with_reducible apply Eff.step; with_reducible apply abortBrgRead_eff)
    | (with_reducible apply Eff.step; with_reducible apply bump_eff) | (with_reducible apply Eff.step; with_reducible apply raise_eff) | split
    | dsimp only [id]

theorem execWinLockTmo_ran (win : Nat) (s : State) : Ran 0x1811f s (execWinLockTmo win s) := by
  unfold execWinLockTmo
  try dsimp only
  repeat' first
    | with_reducible apply Eff.refl | with_reducible assumption | (apply Sub.of; rfl) | (apply Has.of; rfl) | intro _ | with_reducible apply ite_eff
    | with_reducible apply ite_ran | with_reducible apply onEng_ran | (with_reducible apply Eff.step; with_reducible apply unlock_eff)
    | (with_reducible apply Eff.step; with_reducible apply latchWin_eff) | (with_reducible apply Eff.step; with_reducible apply sliceEvent_eff)
    | split | dsimp only [id]

theorem execPfAgeExpire_ran (win ofs : Nat) (s : State) : Ran 0x1811f s (execPfAgeExpire win ofs s) := by
  unfold execPfAgeExpire
  try dsimp only
  repeat' first
    | with_reducible apply Eff.refl | with_reducible assumption | (apply Sub.of; rfl) | (apply Has.of; rfl) | intro _ | with_reducible apply ite_eff
    | with_reducible apply ite_ran | with_reducible apply onEng_ran | (with_reducible apply Eff.step; with_reducible apply dropBlocks_eff) | split
    | dsimp only [id]

theorem putMap_eff (i : Nat) (ws : List Nat) (d : Dev) : Eff 0x10000 d (putMap i ws d) := by
  unfold putMap
  try dsimp only
  repeat' first
    | with_reducible apply Eff.refl | with_reducible assumption | (apply Sub.of; rfl) | (apply Has.of; rfl) | intro _ | with_reducible apply ite_eff
    | (with_reducible apply Eff.step; with_reducible apply updEng_eff) | split | dsimp only [id]

theorem msgWrite_eff (ws : List Nat) (payload : Nat) (d : Dev) : Eff 0xd d (msgWrite ws payload d) := by
  unfold msgWrite
  try dsimp only
  repeat' first
    | with_reducible apply Eff.refl | with_reducible assumption | (apply Sub.of; rfl) | (apply Has.of; rfl) | intro _ | with_reducible apply ite_eff
    | (with_reducible apply Eff.step; with_reducible apply emit_eff) | (with_reducible apply Eff.step; with_reducible apply bump_eff) | split
    | dsimp only [id]

theorem takeMessage_eff (lid nvalue : Nat) (d : Dev) : Eff 0x1011d d (takeMessage lid nvalue d) := by
  unfold takeMessage
  try dsimp only
  repeat' first
    | with_reducible apply Eff.refl | with_reducible assumption | (apply Sub.of; rfl) | (apply Has.of; rfl) | intro _ | with_reducible apply ite_eff
    | (with_reducible apply Eff.step; with_reducible apply bump_eff) | (with_reducible apply Eff.step; with_reducible apply raise_eff)
    | (with_reducible apply Eff.step; with_reducible apply updEng_eff) | (with_reducible apply Eff.step; with_reducible apply msgWrite_eff) | split
    | dsimp only [id]

theorem messageIn_eff (p : SftPkt) (d : Dev) : Eff 0x1811f d (messageIn p d) := by
  unfold messageIn
  try dsimp only
  repeat' first
    | with_reducible apply Eff.refl | with_reducible assumption | (apply Sub.of; rfl) | (apply Has.of; rfl) | intro _ | with_reducible apply ite_eff
    | (with_reducible apply Eff.step; with_reducible apply bump_eff) | (with_reducible apply Eff.step; with_reducible apply connFor_eff)
    | (with_reducible apply Eff.step; with_reducible apply eff_snd; assumption; with_reducible apply connFor_eff)
    | (with_reducible apply Eff.step; with_reducible apply accept_eff) | (with_reducible apply Eff.step; with_reducible apply takeMessage_eff)
    | (with_reducible apply Eff.step; with_reducible apply ackPolicy_eff) | (with_reducible apply Eff.step; with_reducible apply sendNak_eff)
    | (with_reducible apply Eff.step; with_reducible apply runDup_eff) | (with_reducible apply Eff.step; with_reducible apply runGap_eff) | split
    | dsimp only [id]

theorem execMessageNotifyRx_ran (p : SftPkt) (s : State) : Ran 0x1811f s (execMessageNotifyRx p s) := by
  unfold execMessageNotifyRx
  try dsimp only
  repeat' first
    | with_reducible apply Eff.refl | with_reducible assumption | (apply Sub.of; rfl) | (apply Has.of; rfl) | intro _ | with_reducible apply ite_eff
    | with_reducible apply ite_ran | (with_reducible apply onlyIf_eff) | with_reducible apply onEng_ran
    | (with_reducible apply Eff.step; with_reducible apply messageIn_eff) | (with_reducible apply Eff.step; with_reducible apply afterTaken_eff)
    | split | dsimp only [id]

theorem execFwdRangeWrite_ran (vh ofs : Nat) (data : List Byte) (s : State) : Ran 0x1811f s (execFwdRangeWrite vh ofs data s) := by
  unfold execFwdRangeWrite
  try dsimp only
  repeat' first
    | with_reducible apply Eff.refl | with_reducible assumption | (apply Sub.of; rfl) | (apply Has.of; rfl) | intro _ | with_reducible apply ite_eff
    | with_reducible apply ite_ran | with_reducible apply onEng_ran | (with_reducible apply Eff.step; with_reducible apply bump_eff)
    | (with_reducible apply Eff.step; with_reducible apply putQp_eff) | (with_reducible apply Eff.step; with_reducible apply addWqe_eff) | split
    | dsimp only [id]

theorem mapRd_eff (_w : Word) (d : Dev) : Eff 0x1 d (mapRd _w d) := by
  unfold mapRd
  try dsimp only
  repeat' first
    | with_reducible apply Eff.refl | with_reducible assumption | (apply Sub.of; rfl) | (apply Has.of; rfl) | intro _ | with_reducible apply ite_eff
    | (with_reducible apply Eff.step; with_reducible apply putRow_eff) | split | dsimp only [id]

theorem mapPut_eff (i : Nat) (ws0 : List Nat) (off : Nat) (val : Word) (d : Dev) : Eff 0x1011d d (mapPut i ws0 off val d) := by
  unfold mapPut
  try dsimp only
  repeat' first
    | with_reducible apply Eff.refl | with_reducible assumption | (apply Sub.of; rfl) | (apply Has.of; rfl) | intro _ | with_reducible apply ite_eff
    | (with_reducible apply Eff.step; with_reducible apply putMap_eff) | (with_reducible apply Eff.step; with_reducible apply updEng_eff)
    | (with_reducible apply Eff.step; with_reducible apply takeFree_eff) | (with_reducible apply Eff.step; with_reducible apply msgWrite_eff)
    | (with_reducible apply Eff.step; with_reducible apply cfgErr_eff) | split | dsimp only [id]

theorem mapWr_eff (v : Word) (d : Dev) : Eff 0x1011d d (mapWr v d) := by
  unfold mapWr
  try dsimp only
  repeat' first
    | with_reducible apply Eff.refl | with_reducible assumption | (apply Sub.of; rfl) | (apply Has.of; rfl) | intro _ | with_reducible apply ite_eff
    | (with_reducible apply Eff.step; with_reducible apply mapPut_eff) | split | dsimp only [id]

theorem execMapRead_ran (s : State) : Ran 0x1811f s (execMapRead s) := by
  unfold execMapRead
  try dsimp only
  repeat' first
    | with_reducible apply Eff.refl | with_reducible assumption | (apply Sub.of; rfl) | (apply Has.of; rfl) | intro _ | with_reducible apply ite_eff
    | with_reducible apply ite_ran | with_reducible apply onEng_ran | (with_reducible apply trigger_eff)
    | (with_reducible apply Eff.step; with_reducible apply mapRd_eff) | split | dsimp only [id]

theorem execMapWrite_ran (s : State) : Ran 0x1811f s (execMapWrite s) := by
  unfold execMapWrite
  try dsimp only
  repeat' first
    | with_reducible apply Eff.refl | with_reducible assumption | (apply Sub.of; rfl) | (apply Has.of; rfl) | intro _ | with_reducible apply ite_eff
    | with_reducible apply ite_ran | with_reducible apply onEng_ran | (with_reducible apply trigger_eff)
    | (with_reducible apply Eff.step; with_reducible apply mapWr_eff) | split | dsimp only [id]

theorem slotLevel_eff (slot k : Nat) (level : Bool) (d : Dev) : Eff 0x411d d (slotLevel slot k level d) := by
  unfold slotLevel
  try dsimp only
  repeat' first
    | with_reducible apply Eff.refl | with_reducible assumption | (apply Sub.of; rfl) | (apply Has.of; rfl) | intro _ | with_reducible apply ite_eff
    | (with_reducible apply onlyIf_eff) | (with_reducible apply Eff.step; with_reducible apply setSlotLvl_eff)
    | (with_reducible apply Eff.step; with_reducible apply bump_eff) | (with_reducible apply Eff.step; with_reducible apply raise_eff) | split
    | dsimp only [id]

theorem hostFollows_eff (h k : Nat) (d : Dev) : Eff 0x4005 d (hostFollows h k d) := by
  unfold hostFollows
  try dsimp only
  repeat' first
    | with_reducible apply Eff.refl | with_reducible assumption | (apply Sub.of; rfl) | (apply Has.of; rfl) | intro _ | with_reducible apply ite_eff
    | (with_reducible apply Eff.step; with_reducible apply setHostLvl_eff) | (with_reducible apply Eff.step; with_reducible apply emit_eff) | split
    | dsimp only [id]

theorem hostsFollow_eff (l : List (Nat × Nat)) (d : Dev) : Eff 0x4005 d (hostsFollow l d) := by
  unfold hostsFollow
  try dsimp only
  repeat' first
    | with_reducible apply Eff.refl | with_reducible assumption | (apply Sub.of; rfl) | (apply Has.of; rfl) | intro _ | with_reducible apply ite_eff
    | (with_reducible apply forEach_eff) | (with_reducible apply Eff.step; with_reducible apply hostFollows_eff) | split | dsimp only [id]

theorem perstFollows_eff (s : Nat) (d : Dev) : Eff 0x411d d (perstFollows s d) := by
  unfold perstFollows
  try dsimp only
  repeat' first
    | with_reducible apply Eff.refl | with_reducible assumption | (apply Sub.of; rfl) | (apply Has.of; rfl) | intro _ | with_reducible apply ite_eff
    | (with_reducible apply Eff.step; with_reducible apply slotLevel_eff) | (with_reducible apply Eff.step; with_reducible apply emit_eff) | split
    | dsimp only [id]

theorem wireGo_eff (v : Word) (d : Dev) : Eff 0x1411d d (wireGo v d) := by
  unfold wireGo
  try dsimp only
  repeat' first
    | with_reducible apply Eff.refl | with_reducible assumption | (apply Sub.of; rfl) | (apply Has.of; rfl) | intro _ | with_reducible apply ite_eff
    | (with_reducible apply Eff.step; with_reducible apply wr_eff) | (with_reducible apply Eff.step; with_reducible apply updEng_eff)
    | (with_reducible apply Eff.step; with_reducible apply hostsFollow_eff) | (with_reducible apply Eff.step; with_reducible apply cfgErr_eff) | split
    | dsimp only [id]

theorem execWireCommit_ran (s : State) : Ran 0x1c11f s (execWireCommit s) := by
  unfold execWireCommit
  try dsimp only
  repeat' first
    | with_reducible apply Eff.refl | with_reducible assumption | (apply Sub.of; rfl) | (apply Has.of; rfl) | intro _ | with_reducible apply ite_eff
    | with_reducible apply ite_ran | with_reducible apply onEng_ran | (with_reducible apply trigger_eff)
    | (with_reducible apply Eff.step; with_reducible apply wireGo_eff) | split | dsimp only [id]

theorem execWireCommitComplete_ran (s : State) : Ran 0x1c11f s (execWireCommitComplete s) := by
  unfold execWireCommitComplete
  try dsimp only
  repeat' first
    | with_reducible apply Eff.refl | with_reducible assumption | (apply Sub.of; rfl) | (apply Has.of; rfl) | intro _ | with_reducible apply ite_eff
    | with_reducible apply ite_ran | (with_reducible apply forEach_eff) | with_reducible apply onEng_ran
    | (with_reducible apply Eff.step; with_reducible apply wrI_eff) | (with_reducible apply Eff.step; with_reducible apply updEng_eff)
    | (with_reducible apply Eff.step; with_reducible apply hostsFollow_eff) | (with_reducible apply Eff.step; with_reducible apply perstFollows_eff)
    | (with_reducible apply Eff.step; with_reducible apply wr_eff) | (with_reducible apply Eff.step; with_reducible apply raise_eff) | split
    | dsimp only [id]

theorem wireEdge_eff (slot k : Nat) (level : Bool) (d : Dev) : Eff 0x411d d (wireEdge slot k level d) := by
  unfold wireEdge
  try dsimp only
  repeat' first
    | with_reducible apply Eff.refl | with_reducible assumption | (apply Sub.of; rfl) | (apply Has.of; rfl) | intro _ | with_reducible apply ite_eff
    | (with_reducible apply onlyIf_eff) | (with_reducible apply Eff.step; with_reducible apply slotLevel_eff)
    | (with_reducible apply Eff.step; with_reducible apply hostFollows_eff) | split | dsimp only [id]

theorem execSlotWireEdge_ran (slot wire : Nat) (level : Bool) (s : State) : Ran 0x1c11f s (execSlotWireEdge slot wire level s) := by
  unfold execSlotWireEdge
  try dsimp only
  repeat' first
    | with_reducible apply Eff.refl | with_reducible assumption | (apply Sub.of; rfl) | (apply Has.of; rfl) | intro _ | with_reducible apply ite_eff
    | with_reducible apply ite_ran | with_reducible apply onEng_ran | (with_reducible apply Eff.step; with_reducible apply wireEdge_eff) | split
    | dsimp only [id]

end Sys2Proof.Machine
end

