-- ==== Sys2Proof/Laws/EffLinkOps.lean ====
section
/-!
SUPPORT. What each function of Machine/LinkOps.lean can change.
-/

namespace Sys2Proof.Machine

theorem sendStatus_eff (p : Nat) (d : Dev) : Eff 0x8004 d (sendStatus p d) := by
  unfold sendStatus
  try dsimp only
  repeat' first
    | with_reducible apply Eff.refl | with_reducible assumption | (apply Sub.of; rfl) | (apply Has.of; rfl) | intro _ | with_reducible apply ite_eff
    | (with_reducible apply Eff.step; with_reducible apply sendLink_eff) | split | dsimp only [id]

theorem emitNak_eff (p reason : Nat) (d : Dev) : Eff 0x800d d (emitNak p reason d) := by
  unfold emitNak
  try dsimp only
  repeat' first
    | with_reducible apply Eff.refl | with_reducible assumption | (apply Sub.of; rfl) | (apply Has.of; rfl) | intro _ | with_reducible apply ite_eff
    | (with_reducible apply Eff.step; with_reducible apply sendLink_eff) | (with_reducible apply Eff.step; with_reducible apply bump_eff) | split
    | dsimp only [id]

theorem nakFor_eff (p reason : Nat) (d : Dev) : Eff 0x800d d (nakFor p reason d) := by
  unfold nakFor
  try dsimp only
  repeat' first
    | with_reducible apply Eff.refl | with_reducible assumption | (apply Sub.of; rfl) | (apply Has.of; rfl) | intro _ | with_reducible apply ite_eff
    | (with_reducible apply Eff.step; with_reducible apply emitNak_eff) | (with_reducible apply Eff.step; with_reducible apply updPort_eff) | split
    | dsimp only [id]

theorem endStall_eff (p : Nat) (d : Dev) : Eff 0x8009 d (endStall p d) := by
  unfold endStall
  try dsimp only
  repeat' first
    | with_reducible apply Eff.refl | with_reducible assumption | (apply Sub.of; rfl) | (apply Has.of; rfl) | intro _ | with_reducible apply ite_eff
    | (with_reducible apply Eff.step; with_reducible apply addI_eff) | (with_reducible apply Eff.step; with_reducible apply updPort_eff) | split
    | dsimp only [id]

theorem ackThrough_eff (p ack : Nat) (d : Dev) : Eff 0x8009 d (ackThrough p ack d) := by
  unfold ackThrough
  try dsimp only
  repeat' first
    | with_reducible apply Eff.refl | with_reducible assumption | (apply Sub.of; rfl) | (apply Has.of; rfl) | intro _ | with_reducible apply ite_eff
    | (with_reducible apply Eff.step; with_reducible apply updPort_eff) | (with_reducible apply Eff.step; with_reducible apply wr_eff)
    | (with_reducible apply Eff.step; with_reducible apply endStall_eff) | split | dsimp only [id]

theorem takeCredits_eff (p : Nat) (cr : List Nat) (d : Dev) : Eff 0x8000 d (takeCredits p cr d) := by
  unfold takeCredits
  try dsimp only
  repeat' first
    | with_reducible apply Eff.refl | with_reducible assumption | (apply Sub.of; rfl) | (apply Has.of; rfl) | intro _ | with_reducible apply ite_eff
    | (with_reducible apply foldl_eff) | (with_reducible apply Eff.step; with_reducible apply updPort_eff) | split | dsimp only [id]

theorem sendData_eff (p : Nat) (c : FlitCopy) (again : Bool) (d : Dev) : Eff 0x8004 d (sendData p c again d) := by
  unfold sendData
  try dsimp only
  repeat' first
    | with_reducible apply Eff.refl | with_reducible assumption | (apply Sub.of; rfl) | (apply Has.of; rfl) | intro _ | with_reducible apply ite_eff
    | (with_reducible apply Eff.step; with_reducible apply emit_eff) | (with_reducible apply Eff.step; with_reducible apply laneFlit_eff) | split
    | dsimp only [id]

theorem resendAll_eff (p : Nat) (d : Dev) : Eff 0x800d d (resendAll p d) := by
  unfold resendAll
  try dsimp only
  repeat' first
    | with_reducible apply Eff.refl | with_reducible assumption | (apply Sub.of; rfl) | (apply Has.of; rfl) | intro _ | with_reducible apply ite_eff
    | (with_reducible apply forEach_eff) | (with_reducible apply Eff.step; with_reducible apply sendData_eff)
    | (with_reducible apply Eff.step; with_reducible apply addI_eff) | split | dsimp only [id]

theorem dropFlowlets_eff (p : Nat) (d : Dev) : Eff 0x8000 d (dropFlowlets p d) := by
  unfold dropFlowlets
  try dsimp only
  repeat' first
    | with_reducible apply Eff.refl | with_reducible assumption | (apply Sub.of; rfl) | (apply Has.of; rfl) | intro _ | with_reducible apply ite_eff
    | (with_reducible apply Eff.last; with_reducible apply Prim.net) | split | dsimp only [id]

theorem fastReroute_eff (p : Nat) (d : Dev) : Eff 0x1811d d (fastReroute p d) := by
  unfold fastReroute
  try dsimp only
  repeat' first
    | with_reducible apply Eff.refl | with_reducible assumption | (apply Sub.of; rfl) | (apply Has.of; rfl) | intro _ | with_reducible apply ite_eff
    | (with_reducible apply onlyIf_eff) | (with_reducible apply forEach_eff) | (with_reducible apply Eff.step; with_reducible apply setPortUp_eff)
    | (with_reducible apply Eff.step; with_reducible apply dropFlowlets_eff) | (with_reducible apply Eff.step; with_reducible apply raise_eff)
    | (with_reducible apply Eff.step; with_reducible apply lookUpAgain_eff) | (with_reducible apply Eff.step; with_reducible apply retryHeld_eff)
    | split | dsimp only [id]

theorem abandon_eff (p : Nat) (d : Dev) : Eff 0x1811d d (abandon p d) := by
  unfold abandon
  try dsimp only
  repeat' first
    | with_reducible apply Eff.refl | with_reducible assumption | (apply Sub.of; rfl) | (apply Has.of; rfl) | intro _ | with_reducible apply ite_eff
    | (with_reducible apply forEach_eff) | (with_reducible apply Eff.step; with_reducible apply dropPkt_eff)
    | (with_reducible apply Eff.step; with_reducible apply failPkt_eff) | (with_reducible apply Eff.last; with_reducible apply Prim.net) | split
    | dsimp only [id]

theorem discardLink_eff (p : Nat) (d : Dev) : Eff 0x8000 d (discardLink p d) := by
  unfold discardLink
  try dsimp only
  repeat' first
    | with_reducible apply Eff.refl | with_reducible assumption | (apply Sub.of; rfl) | (apply Has.of; rfl) | intro _ | with_reducible apply ite_eff
    | (with_reducible apply Eff.step; with_reducible apply updPort_eff) | split | dsimp only [id]

theorem declareDown_eff (p cause : Nat) (d : Dev) : Eff 0x1811d d (declareDown p cause d) := by
  unfold declareDown
  try dsimp only
  repeat' first
    | with_reducible apply Eff.refl | with_reducible assumption | (apply Sub.of; rfl) | (apply Has.of; rfl) | intro _ | with_reducible apply ite_eff
    | (with_reducible apply Eff.step; with_reducible apply wr_eff) | (with_reducible apply Eff.step; with_reducible apply abandon_eff)
    | (with_reducible apply Eff.step; with_reducible apply discardLink_eff) | (with_reducible apply Eff.step; with_reducible apply bump_eff)
    | (with_reducible apply Eff.step; with_reducible apply fastReroute_eff) | (with_reducible apply Eff.step; with_reducible apply raise_eff)
    | (with_reducible apply Eff.step; with_reducible apply sendLink_eff) | (with_reducible apply Eff.step; with_reducible apply emit_eff)
    | (with_reducible apply Eff.step; with_reducible apply lanesOff_eff) | split | dsimp only [id]

theorem protocolError_eff (p : Nat) (d : Dev) : Eff 0x1811d d (protocolError p d) := by
  unfold protocolError
  try dsimp only
  repeat' first
    | with_reducible apply Eff.refl | with_reducible assumption | (apply Sub.of; rfl) | (apply Has.of; rfl) | intro _ | with_reducible apply ite_eff
    | (with_reducible apply Eff.step; with_reducible apply bump_eff) | (with_reducible apply Eff.step; with_reducible apply raise_eff)
    | (with_reducible apply Eff.step; with_reducible apply declareDown_eff) | split | dsimp only [id]

theorem startPass_eff (p : Nat) (d : Dev) : Eff 0x1811d d (startPass p d) := by
  unfold startPass
  try dsimp only
  repeat' first
    | with_reducible apply Eff.refl | with_reducible assumption | (apply Sub.of; rfl) | (apply Has.of; rfl) | intro _ | with_reducible apply ite_eff
    | (with_reducible apply Eff.step; with_reducible apply declareDown_eff) | (with_reducible apply Eff.step; with_reducible apply updPort_eff)
    | (with_reducible apply Eff.step; with_reducible apply resendAll_eff) | split | dsimp only [id]

theorem linkUp_eff (p : Nat) (d : Dev) : Eff 0x811d d (linkUp p d) := by
  unfold linkUp
  try dsimp only
  repeat' first
    | with_reducible apply Eff.refl | with_reducible assumption | (apply Sub.of; rfl) | (apply Has.of; rfl) | intro _ | with_reducible apply ite_eff
    | (with_reducible apply foldl_eff) | (with_reducible apply Eff.step; with_reducible apply wr_eff)
    | (with_reducible apply Eff.step; with_reducible apply updPort_eff) | (with_reducible apply Eff.step; with_reducible apply raise_eff)
    | (with_reducible apply Eff.step; with_reducible apply sharedLowAlarm_eff) | split | dsimp only [id]

theorem tryUp_eff (p : Nat) (d : Dev) : Eff 0x811d d (tryUp p d) := by
  unfold tryUp
  try dsimp only
  repeat' first
    | with_reducible apply Eff.refl | with_reducible assumption | (apply Sub.of; rfl) | (apply Has.of; rfl) | intro _ | with_reducible apply ite_eff
    | (with_reducible apply Eff.step; with_reducible apply linkUp_eff) | split | dsimp only [id]

theorem initFail_eff (p : Nat) (d : Dev) : Eff 0x811d d (initFail p d) := by
  unfold initFail
  try dsimp only
  repeat' first
    | with_reducible apply Eff.refl | with_reducible assumption | (apply Sub.of; rfl) | (apply Has.of; rfl) | intro _ | with_reducible apply ite_eff
    | (with_reducible apply Eff.step; with_reducible apply wr_eff) | (with_reducible apply Eff.step; with_reducible apply raise_eff)
    | (with_reducible apply Eff.step; with_reducible apply startBringup_eff) | split | dsimp only [id]

end Sys2Proof.Machine
end

