-- ==== Sys2Proof/Laws/EffCollOps.lean ====
section
/-!
SUPPORT. What each function of Machine/CollOps.lean can change.
-/

namespace Sys2Proof.Machine

theorem updColl_eff (f : Coll → Coll) (d : Dev) : Eff 0x20000 d (updColl f d) := by
  unfold updColl
  try dsimp only
  repeat' first
    | with_reducible apply Eff.refl | with_reducible assumption | (apply Sub.of; rfl) | (apply Has.of; rfl) | intro _ | with_reducible apply ite_eff
    | (with_reducible apply Eff.last; with_reducible apply Prim.coll) | split | dsimp only [id]

theorem putCgrp_eff (g : Nat) (x : Option CGroup) (d : Dev) : Eff 0x20000 d (putCgrp g x d) := by
  unfold putCgrp
  try dsimp only
  repeat' first
    | with_reducible apply Eff.refl | with_reducible assumption | (apply Sub.of; rfl) | (apply Has.of; rfl) | intro _ | with_reducible apply ite_eff
    | (with_reducible apply Eff.step; with_reducible apply updColl_eff) | split | dsimp only [id]

theorem updCgrp_eff (g : Nat) (f : CGroup → CGroup) (d : Dev) : Eff 0x20000 d (updCgrp g f d) := by
  unfold updCgrp
  try dsimp only
  repeat' first
    | with_reducible apply Eff.refl | with_reducible assumption | (apply Sub.of; rfl) | (apply Has.of; rfl) | intro _ | with_reducible apply ite_eff
    | (with_reducible apply Eff.step; with_reducible apply putCgrp_eff) | split | dsimp only [id]

theorem updInst_eff (g : Nat) (f : CInst → CInst) (d : Dev) : Eff 0x20000 d (updInst g f d) := by
  unfold updInst
  try dsimp only
  repeat' first
    | with_reducible apply Eff.refl | with_reducible assumption | (apply Sub.of; rfl) | (apply Has.of; rfl) | intro _ | with_reducible apply ite_eff
    | (with_reducible apply Eff.step; with_reducible apply updCgrp_eff) | split | dsimp only [id]

theorem updMember_eff (s : Nat) (f : CMember → CMember) (d : Dev) : Eff 0x20000 d (updMember s f d) := by
  unfold updMember
  try dsimp only
  repeat' first
    | with_reducible apply Eff.refl | with_reducible assumption | (apply Sub.of; rfl) | (apply Has.of; rfl) | intro _ | with_reducible apply ite_eff
    | (with_reducible apply Eff.step; with_reducible apply updColl_eff) | split | dsimp only [id]

theorem updRun_eff (s : Nat) (f : CRun → CRun) (d : Dev) : Eff 0x20000 d (updRun s f d) := by
  unfold updRun
  try dsimp only
  repeat' first
    | with_reducible apply Eff.refl | with_reducible assumption | (apply Sub.of; rfl) | (apply Has.of; rfl) | intro _ | with_reducible apply ite_eff
    | (with_reducible apply Eff.step; with_reducible apply updMember_eff) | split | dsimp only [id]

theorem collOut_eff (type : Nat) (e : CEdge) (p : CollPkt) (d : Dev) : Eff 0x1811d d (collOut type e p d) := by
  unfold collOut
  try dsimp only
  repeat' first
    | with_reducible apply Eff.refl | with_reducible assumption | (apply Sub.of; rfl) | (apply Has.of; rfl) | intro _ | with_reducible apply ite_eff
    | (with_reducible apply Eff.step; with_reducible apply takeFree_eff) | (with_reducible apply Eff.step; with_reducible apply sendBy_eff) | split
    | dsimp only [id]

theorem sendColl_eff (type : Nat) (e : CEdge) (p : CollPkt) (d : Dev) : Eff 0x1811d d (sendColl type e p d) := by
  unfold sendColl
  try dsimp only
  repeat' first
    | with_reducible apply Eff.refl | with_reducible assumption | (apply Sub.of; rfl) | (apply Has.of; rfl) | intro _ | with_reducible apply ite_eff
    | (with_reducible apply Eff.step; with_reducible apply collOut_eff) | (with_reducible apply Eff.step; with_reducible apply emit_eff) | split
    | dsimp only [id]

theorem completeMember_eff (s status seq flags : Nat) (d : Dev) : Eff 0x3011f d (completeMember s status seq flags d) := by
  unfold completeMember
  try dsimp only
  repeat' first
    | with_reducible apply Eff.refl | with_reducible assumption | (apply Sub.of; rfl) | (apply Has.of; rfl) | intro _ | with_reducible apply ite_eff
    | (with_reducible apply onlyIf_eff) | (with_reducible apply Eff.step; with_reducible apply updMember_eff)
    | (with_reducible apply Eff.step; with_reducible apply writeKey_eff) | (with_reducible apply Eff.step; with_reducible apply access_eff)
    | (with_reducible apply Eff.step; with_reducible apply sliceEvent_eff) | split | dsimp only [id]

theorem completeAlone_eff (s status : Nat) (d : Dev) : Eff 0x3011f d (completeAlone s status d) := by
  unfold completeAlone
  try dsimp only
  repeat' first
    | with_reducible apply Eff.refl | with_reducible assumption | (apply Sub.of; rfl) | (apply Has.of; rfl) | intro _ | with_reducible apply ite_eff
    | (with_reducible apply Eff.step; with_reducible apply takeFree_eff) | (with_reducible apply Eff.step; with_reducible apply completeMember_eff)
    | split | dsimp only [id]

theorem readContrib_eff (s : Nat) (d : Dev) : Eff 0x3000d d (readContrib s d) := by
  unfold readContrib
  try dsimp only
  repeat' first
    | with_reducible apply Eff.refl | with_reducible assumption | (apply Sub.of; rfl) | (apply Has.of; rfl) | intro _ | with_reducible apply ite_eff
    | (with_reducible apply Eff.step; with_reducible apply updRun_eff) | (with_reducible apply Eff.step; with_reducible apply startRead_eff) | split
    | dsimp only [id]

theorem failGroup_eff (g : Nat) (d : Dev) : Eff 0x3011f d (failGroup g d) := by
  unfold failGroup
  try dsimp only
  repeat' first
    | with_reducible apply Eff.refl | with_reducible assumption | (apply Sub.of; rfl) | (apply Has.of; rfl) | intro _ | with_reducible apply ite_eff
    | (with_reducible apply forEach_eff) | (with_reducible apply Eff.step; with_reducible apply putCgrp_eff)
    | (with_reducible apply Eff.step; with_reducible apply raise_eff) | (with_reducible apply Eff.step; with_reducible apply completeMember_eff)
    | split | dsimp only [id]

theorem instMismatch_eff (g : Nat) (d : Dev) : Eff 0x2011d d (instMismatch g d) := by
  unfold instMismatch
  try dsimp only
  repeat' first
    | with_reducible apply Eff.refl | with_reducible assumption | (apply Sub.of; rfl) | (apply Has.of; rfl) | intro _ | with_reducible apply ite_eff
    | (with_reducible apply Eff.step; with_reducible apply updInst_eff) | (with_reducible apply Eff.step; with_reducible apply bump_eff)
    | (with_reducible apply Eff.step; with_reducible apply raise_eff) | split | dsimp only [id]

theorem landBlock_eff (x : CGroup) (n : CInst) (s : CSlot) (c : CPart) (pos slot : Nat) (d : Dev) : Eff 0x20000 d (landBlock x n s c pos slot d) := by
  unfold landBlock
  try dsimp only
  repeat' first
    | with_reducible apply Eff.refl | with_reducible assumption | (apply Sub.of; rfl) | (apply Has.of; rfl) | intro _ | with_reducible apply ite_eff
    | (with_reducible apply Eff.step; with_reducible apply updRun_eff) | split | dsimp only [id]

theorem endInst_eff (g : Nat) (d : Dev) : Eff 0x3011f d (endInst g d) := by
  unfold endInst
  try dsimp only
  repeat' first
    | with_reducible apply Eff.refl | with_reducible assumption | (apply Sub.of; rfl) | (apply Has.of; rfl) | intro _ | with_reducible apply ite_eff
    | (with_reducible apply forEach_eff) | (with_reducible apply Eff.step; with_reducible apply putCgrp_eff)
    | (with_reducible apply Eff.step; with_reducible apply bump_eff) | (with_reducible apply Eff.step; with_reducible apply completeMember_eff)
    | split | dsimp only [id]

theorem passDown_eff (g : Nat) (c : CPart) (redel : Bool) (d : Dev) : Eff 0x3811f d (passDown g c redel d) := by
  unfold passDown
  try dsimp only
  repeat' first
    | with_reducible apply Eff.refl | with_reducible assumption | (apply Sub.of; rfl) | (apply Has.of; rfl) | intro _ | with_reducible apply ite_eff
    | (with_reducible apply onlyIf_eff) | (with_reducible apply forEach_eff) | (with_reducible apply Eff.step; with_reducible apply putCgrp_eff)
    | (with_reducible apply Eff.step; with_reducible apply sendColl_eff) | (with_reducible apply Eff.step; with_reducible apply landBlock_eff)
    | (with_reducible apply Eff.step; with_reducible apply addMod_eff) | (with_reducible apply Eff.step; with_reducible apply endInst_eff) | split
    | dsimp only [id]

theorem sendUp_eff (g : Nat) (u : UpBlock) (d : Dev) : Eff 0x3811f d (sendUp g u d) := by
  unfold sendUp
  try dsimp only
  repeat' first
    | with_reducible apply Eff.refl | with_reducible assumption | (apply Sub.of; rfl) | (apply Has.of; rfl) | intro _ | with_reducible apply ite_eff
    | (with_reducible apply Eff.step; with_reducible apply putCgrp_eff) | (with_reducible apply Eff.step; with_reducible apply bump_eff)
    | (with_reducible apply Eff.step; with_reducible apply passDown_eff) | (with_reducible apply Eff.step; with_reducible apply sendColl_eff) | split
    | dsimp only [id]

theorem combineNext_eff (g : Nat) (d : Dev) : ∀ z, combineNext g d = some z → Eff 0x3811f d z := by
  unfold combineNext
  try dsimp only
  repeat' first
    | with_reducible apply Eff.refl | with_reducible assumption | (apply Sub.of; rfl) | (apply Has.of; rfl) | with_reducible apply ite_opt
    | (intro _ h; cases h) | split | intro _ | with_reducible apply ite_eff | (with_reducible apply Eff.step; with_reducible apply sendUp_eff) | split
    | dsimp only [id]

theorem advance_eff (g : Nat) (fuel : Nat) (d : Dev) : Eff 0x3811f d (advance g fuel d) := by
  induction fuel generalizing d with
  | zero =>
    unfold advance
    try dsimp only
    repeat' first
      | with_reducible apply Eff.refl | with_reducible assumption | (apply Sub.of; rfl) | (apply Has.of; rfl) | intro _ | with_reducible apply ite_eff
      | (with_reducible apply Eff.step; with_reducible apply eff_some; assumption; with_reducible apply combineNext_eff) | split | dsimp only [id]
  | succ fuel ih =>
    unfold advance
    try dsimp only
    repeat' first
      | (with_reducible apply Eff.step; with_reducible apply ih)
      | with_reducible apply Eff.refl | with_reducible assumption | (apply Sub.of; rfl) | (apply Has.of; rfl) | intro _ | with_reducible apply ite_eff
      | (with_reducible apply Eff.step; with_reducible apply eff_some; assumption; with_reducible apply combineNext_eff) | split | dsimp only [id]

theorem runGroup_eff (g : Nat) (d : Dev) : Eff 0x3811f d (runGroup g d) := by
  unfold runGroup
  try dsimp only
  repeat' first
    | with_reducible apply Eff.refl | with_reducible assumption | (apply Sub.of; rfl) | (apply Has.of; rfl) | intro _ | with_reducible apply ite_eff
    | (with_reducible apply Eff.step; with_reducible apply advance_eff) | split | dsimp only [id]

theorem spread_eff (type g seq tri : Nat) (from_ : Option Nat) (d : Dev) : Eff 0x3811d d (spread type g seq tri from_ d) := by
  unfold spread
  try dsimp only
  repeat' first
    | with_reducible apply Eff.refl | with_reducible assumption | (apply Sub.of; rfl) | (apply Has.of; rfl) | intro _ | with_reducible apply ite_eff
    | (with_reducible apply forEach_eff) | (with_reducible apply Eff.step; with_reducible apply putCgrp_eff)
    | (with_reducible apply Eff.step; with_reducible apply sendColl_eff) | split | dsimp only [id]

theorem takeAbort_eff (g seq : Nat) (d : Dev) : Eff 0x3811f d (takeAbort g seq d) := by
  unfold takeAbort
  try dsimp only
  repeat' first
    | with_reducible apply Eff.refl | with_reducible assumption | (apply Sub.of; rfl) | (apply Has.of; rfl) | intro _ | with_reducible apply ite_eff
    | (with_reducible apply forEach_eff) | (with_reducible apply Eff.step; with_reducible apply putCgrp_eff)
    | (with_reducible apply Eff.step; with_reducible apply raise_eff) | (with_reducible apply Eff.step; with_reducible apply updRun_eff)
    | (with_reducible apply Eff.step; with_reducible apply readContrib_eff) | (with_reducible apply Eff.step; with_reducible apply runGroup_eff)
    | split | dsimp only [id]

theorem redeliver_eff (g seq : Nat) (pos : Nat) (child : List Nat) (d : Dev) : Eff 0x1811d d (redeliver g seq pos child d) := by
  unfold redeliver
  try dsimp only
  repeat' first
    | with_reducible apply Eff.refl | with_reducible assumption | (apply Sub.of; rfl) | (apply Has.of; rfl) | intro _ | with_reducible apply ite_eff
    | (with_reducible apply forEach_eff) | (with_reducible apply Eff.step; with_reducible apply bump_eff)
    | (with_reducible apply Eff.step; with_reducible apply sendColl_eff) | split | dsimp only [id]

theorem takeGoOn_eff (g seq : Nat) (d : Dev) : Eff 0x3811d d (takeGoOn g seq d) := by
  unfold takeGoOn
  try dsimp only
  repeat' first
    | with_reducible apply Eff.refl | with_reducible assumption | (apply Sub.of; rfl) | (apply Has.of; rfl) | intro _ | with_reducible apply ite_eff
    | (with_reducible apply forEach_eff) | (with_reducible apply Eff.step; with_reducible apply redeliver_eff)
    | (with_reducible apply Eff.step; with_reducible apply updCgrp_eff) | split | dsimp only [id]

theorem decideFault_eff (g seq : Nat) (d : Dev) : Eff 0x3811f d (decideFault g seq d) := by
  unfold decideFault
  try dsimp only
  repeat' first
    | with_reducible apply Eff.refl | with_reducible assumption | (apply Sub.of; rfl) | (apply Has.of; rfl) | intro _ | with_reducible apply ite_eff
    | (with_reducible apply Eff.step; with_reducible apply bump_eff) | (with_reducible apply Eff.step; with_reducible apply spread_eff)
    | (with_reducible apply Eff.step; with_reducible apply takeAbort_eff) | (with_reducible apply Eff.step; with_reducible apply takeGoOn_eff) | split
    | dsimp only [id]

theorem originate_eff (g seq : Nat) (d : Dev) : Eff 0x3811f d (originate g seq d) := by
  unfold originate
  try dsimp only
  repeat' first
    | with_reducible apply Eff.refl | with_reducible assumption | (apply Sub.of; rfl) | (apply Has.of; rfl) | intro _ | with_reducible apply ite_eff
    | (with_reducible apply Eff.step; with_reducible apply spread_eff) | (with_reducible apply Eff.step; with_reducible apply updCgrp_eff)
    | (with_reducible apply Eff.step; with_reducible apply decideFault_eff) | split | dsimp only [id]

theorem portFault_eff (p g : Nat) (d : Dev) : Eff 0x3811f d (portFault p g d) := by
  unfold portFault
  try dsimp only
  repeat' first
    | with_reducible apply Eff.refl | with_reducible assumption | (apply Sub.of; rfl) | (apply Has.of; rfl) | intro _ | with_reducible apply ite_eff
    | (with_reducible apply Eff.step; with_reducible apply raise_eff) | (with_reducible apply Eff.step; with_reducible apply failGroup_eff)
    | (with_reducible apply Eff.step; with_reducible apply updCgrp_eff) | (with_reducible apply Eff.step; with_reducible apply originate_eff) | split
    | dsimp only [id]

theorem collPortDown_eff (p : Nat) (d : Dev) : Eff 0x3811f d (collPortDown p d) := by
  unfold collPortDown
  try dsimp only
  repeat' first
    | with_reducible apply Eff.refl | with_reducible assumption | (apply Sub.of; rfl) | (apply Has.of; rfl) | intro _ | with_reducible apply ite_eff
    | (with_reducible apply forEach_eff) | (with_reducible apply Eff.step; with_reducible apply portFault_eff) | split | dsimp only [id]

theorem beginInst_eff (g cop oper dtype count : Nat) (d : Dev) : Eff 0x3811f d (beginInst g cop oper dtype count d) := by
  unfold beginInst
  try dsimp only
  repeat' first
    | with_reducible apply Eff.refl | with_reducible assumption | (apply Sub.of; rfl) | (apply Has.of; rfl) | intro _ | with_reducible apply ite_eff
    | (with_reducible apply onlyIf_eff) | (with_reducible apply Eff.step; with_reducible apply putCgrp_eff)
    | (with_reducible apply Eff.step; with_reducible apply originate_eff) | split | dsimp only [id]

theorem release_eff (s : Nat) (d : Dev) : Eff 0x3811f d (release s d) := by
  unfold release
  try dsimp only
  repeat' first
    | with_reducible apply Eff.refl | with_reducible assumption | (apply Sub.of; rfl) | (apply Has.of; rfl) | intro _ | with_reducible apply ite_eff
    | (with_reducible apply onlyIf_eff) | (with_reducible apply Eff.step; with_reducible apply completeAlone_eff)
    | (with_reducible apply Eff.step; with_reducible apply beginInst_eff) | (with_reducible apply Eff.step; with_reducible apply updRun_eff)
    | (with_reducible apply Eff.step; with_reducible apply instMismatch_eff) | (with_reducible apply Eff.step; with_reducible apply readContrib_eff)
    | (with_reducible apply Eff.step; with_reducible apply runGroup_eff) | split | dsimp only [id]

theorem collRelease_eff (u s : Nat) (d : Dev) : Eff 0x3811f d (collRelease u s d) := by
  unfold collRelease
  try dsimp only
  repeat' first
    | with_reducible apply Eff.refl | with_reducible assumption | (apply Sub.of; rfl) | (apply Has.of; rfl) | intro _ | with_reducible apply ite_eff
    | (with_reducible apply Eff.step; with_reducible apply release_eff) | (with_reducible apply Eff.step; with_reducible apply bump_eff)
    | (with_reducible apply Eff.step; with_reducible apply raise_eff) | split | dsimp only [id]

theorem dropContrib_eff (s : Nat) (d : Dev) : Eff 0x10000 d (dropContrib s d) := by
  unfold dropContrib
  try dsimp only
  repeat' first
    | with_reducible apply Eff.refl | with_reducible assumption | (apply Sub.of; rfl) | (apply Has.of; rfl) | intro _ | with_reducible apply ite_eff
    | (with_reducible apply Eff.step; with_reducible apply updEng_eff) | split | dsimp only [id]

theorem loseMember_eff (s status : Nat) (d : Dev) : Eff 0x3811f d (loseMember s status d) := by
  unfold loseMember
  try dsimp only
  repeat' first
    | with_reducible apply Eff.refl | with_reducible assumption | (apply Sub.of; rfl) | (apply Has.of; rfl) | intro _ | with_reducible apply ite_eff
    | (with_reducible apply Eff.step; with_reducible apply dropContrib_eff) | (with_reducible apply Eff.step; with_reducible apply completeAlone_eff)
    | (with_reducible apply Eff.step; with_reducible apply completeMember_eff) | (with_reducible apply Eff.step; with_reducible apply updInst_eff)
    | (with_reducible apply Eff.step; with_reducible apply runGroup_eff) | split | dsimp only [id]

theorem endMembers_eff (n status : Nat) (unbind : Bool) (d : Dev) : Eff 0x3811f d (endMembers n status unbind d) := by
  unfold endMembers
  try dsimp only
  repeat' first
    | with_reducible apply Eff.refl | with_reducible assumption | (apply Sub.of; rfl) | (apply Has.of; rfl) | intro _ | with_reducible apply ite_eff
    | (with_reducible apply onlyIf_eff) | (with_reducible apply forEach_eff) | (with_reducible apply Eff.step; with_reducible apply loseMember_eff)
    | (with_reducible apply Eff.step; with_reducible apply updMember_eff) | split | dsimp only [id]

theorem contribDone_eff (s : Nat) (data : Option (List Byte)) (d : Dev) : Eff 0x3811f d (contribDone s data d) := by
  unfold contribDone
  try dsimp only
  repeat' first
    | with_reducible apply Eff.refl | with_reducible assumption | (apply Sub.of; rfl) | (apply Has.of; rfl) | intro _ | with_reducible apply ite_eff
    | (with_reducible apply Eff.step; with_reducible apply updRun_eff) | (with_reducible apply Eff.step; with_reducible apply runGroup_eff)
    | (with_reducible apply Eff.step; with_reducible apply loseMember_eff) | split | dsimp only [id]

theorem tellErr_eff (g status : Nat) (d : Dev) : Eff 0x1811d d (tellErr g status d) := by
  unfold tellErr
  try dsimp only
  repeat' first
    | with_reducible apply Eff.refl | with_reducible assumption | (apply Sub.of; rfl) | (apply Has.of; rfl) | intro _ | with_reducible apply ite_eff
    | (with_reducible apply onlyIf_eff) | (with_reducible apply forEach_eff) | (with_reducible apply Eff.step; with_reducible apply sendColl_eff)
    | split | dsimp only [id]

theorem collEcc_eff (g : Nat) (d : Dev) : Eff 0x3811f d (collEcc g d) := by
  unfold collEcc
  try dsimp only
  repeat' first
    | with_reducible apply Eff.refl | with_reducible assumption | (apply Sub.of; rfl) | (apply Has.of; rfl) | intro _ | with_reducible apply ite_eff
    | (with_reducible apply Eff.step; with_reducible apply bump_eff) | (with_reducible apply Eff.step; with_reducible apply raise_eff)
    | (with_reducible apply Eff.step; with_reducible apply tellErr_eff) | (with_reducible apply Eff.step; with_reducible apply failGroup_eff) | split
    | dsimp only [id]

end Sys2Proof.Machine
end

