-- ==== Sys2Proof/Laws/EffMemPath.lean ====
section
/-!
SUPPORT. What each function of Machine/MemPath.lean can change.
-/

namespace Sys2Proof.Machine

theorem updPath_eff (f : MemPath → MemPath) (d : Dev) : Eff 0x10000 d (updPath f d) := by
  unfold updPath
  try dsimp only
  repeat' first
    | with_reducible apply Eff.refl | with_reducible assumption | (apply Sub.of; rfl) | (apply Has.of; rfl) | intro _ | with_reducible apply ite_eff
    | (with_reducible apply Eff.step; with_reducible apply updEng_eff) | split | dsimp only [id]

theorem memServe_eff (d : Dev) : Eff 0x10004 d (memServe d) := by
  unfold memServe
  try dsimp only
  repeat' first
    | with_reducible apply Eff.refl | with_reducible assumption | (apply Sub.of; rfl) | (apply Has.of; rfl) | intro _ | with_reducible apply ite_eff
    | (with_reducible apply Eff.step; with_reducible apply updPath_eff) | (with_reducible apply Eff.step; with_reducible apply emit_eff) | split
    | dsimp only [id]

theorem memServeAll_eff (d : Dev) : Eff 0x10004 d (memServeAll d) := by
  unfold memServeAll
  try dsimp only
  repeat' first
    | with_reducible apply Eff.refl | with_reducible assumption | (apply Sub.of; rfl) | (apply Has.of; rfl) | intro _ | with_reducible apply ite_eff
    | (with_reducible apply forEach_eff) | (with_reducible apply Eff.step; with_reducible apply memServe_eff) | split | dsimp only [id]

theorem memDone_eff (r : Nat × Nat × Nat) (d : Dev) : Eff 0x10004 d (memDone r d) := by
  unfold memDone
  try dsimp only
  repeat' first
    | with_reducible apply Eff.refl | with_reducible assumption | (apply Sub.of; rfl) | (apply Has.of; rfl) | intro _ | with_reducible apply ite_eff
    | (with_reducible apply forEach_eff) | (with_reducible apply Eff.step; with_reducible apply memServe_eff)
    | (with_reducible apply Eff.step; with_reducible apply updPath_eff) | split | dsimp only [id]

end Sys2Proof.Machine
end

