-- ==== Sys2Proof/Laws/EffMatch.lean ====
section
/-!
SUPPORT. What each function of Machine/Match.lean can change.
-/

namespace Sys2Proof.Machine

theorem dropInbound_eff (k i status : Nat) (ids : List Nat) (d : Dev) : Eff 0x1011f d (dropInbound k i status ids d) := by
  unfold dropInbound
  try dsimp only
  repeat' first
    | with_reducible apply Eff.refl | with_reducible assumption | (apply Sub.of; rfl) | (apply Has.of; rfl) | intro _ | with_reducible apply ite_eff
    | (with_reducible apply forEach_eff) | (with_reducible apply Eff.step; with_reducible apply matchCqe_eff)
    | (with_reducible apply Eff.step; with_reducible apply setInn_eff) | split | dsimp only [id]

theorem emptyCtx_eff (k i status : Nat) (d : Dev) : Eff 0x1011f d (emptyCtx k i status d) := by
  unfold emptyCtx
  try dsimp only
  repeat' first
    | with_reducible apply Eff.refl | with_reducible assumption | (apply Sub.of; rfl) | (apply Has.of; rfl) | intro _ | with_reducible apply ite_eff
    | (with_reducible apply onlyIf_eff) | (with_reducible apply forEach_eff) | (with_reducible apply Eff.step; with_reducible apply matchCqe_eff)
    | (with_reducible apply Eff.step; with_reducible apply addFinish_eff) | (with_reducible apply Eff.step; with_reducible apply dropInbound_eff)
    | (with_reducible apply Eff.step; with_reducible apply updQuad_eff) | (with_reducible apply Eff.step; with_reducible apply countQuad_eff)
    | (with_reducible apply Eff.step; with_reducible apply sliceEvent_eff) | split | dsimp only [id]

theorem endWaits_eff (k i status : Nat) (d : Dev) : Eff 0x1011f d (endWaits k i status d) := by
  unfold endWaits
  try dsimp only
  repeat' first
    | with_reducible apply Eff.refl | with_reducible assumption | (apply Sub.of; rfl) | (apply Has.of; rfl) | intro _ | with_reducible apply ite_eff
    | (with_reducible apply forEach_eff) | (with_reducible apply Eff.step; with_reducible apply updQuad_eff)
    | (with_reducible apply Eff.step; with_reducible apply matchCqe_eff) | split | dsimp only [id]

theorem rerun_eff (n : Nat) (d : Dev) : Eff 0x1811f d (rerun n d) := by
  unfold rerun
  try dsimp only
  repeat' first
    | with_reducible apply Eff.refl | with_reducible assumption | (apply Sub.of; rfl) | (apply Has.of; rfl) | intro _ | with_reducible apply ite_eff
    | (with_reducible apply Eff.step; with_reducible apply updQp_eff) | (with_reducible apply Eff.step; with_reducible apply runQueue_eff) | split
    | dsimp only [id]

theorem destroyCtx_eff (k i status : Nat) (d : Dev) : Eff 0x1811f d (destroyCtx k i status d) := by
  unfold destroyCtx
  try dsimp only
  repeat' first
    | with_reducible apply Eff.refl | with_reducible assumption | (apply Sub.of; rfl) | (apply Has.of; rfl) | intro _ | with_reducible apply ite_eff
    | (with_reducible apply forEach_eff) | (with_reducible apply Eff.step; with_reducible apply endWaits_eff)
    | (with_reducible apply Eff.step; with_reducible apply emptyCtx_eff) | (with_reducible apply Eff.step; with_reducible apply putCtx_eff)
    | (with_reducible apply Eff.step; with_reducible apply countQuad_eff) | (with_reducible apply Eff.step; with_reducible apply rerun_eff) | split
    | dsimp only [id]

theorem failCtx_eff (k i : Nat) (d : Dev) : Eff 0x1811f d (failCtx k i d) := by
  unfold failCtx
  try dsimp only
  repeat' first
    | with_reducible apply Eff.refl | with_reducible assumption | (apply Sub.of; rfl) | (apply Has.of; rfl) | intro _ | with_reducible apply ite_eff
    | (with_reducible apply forEach_eff) | (with_reducible apply Eff.step; with_reducible apply putCtx_eff)
    | (with_reducible apply Eff.step; with_reducible apply takeFree_eff) | (with_reducible apply Eff.step; with_reducible apply endWaits_eff)
    | (with_reducible apply Eff.step; with_reducible apply emptyCtx_eff) | (with_reducible apply Eff.step; with_reducible apply raise_eff)
    | (with_reducible apply Eff.step; with_reducible apply rerun_eff) | split | dsimp only [id]

theorem mteRun_eff (k op idx : Nat) (b : List Byte) (own : Option Nat) (d : Dev) : Eff 0x1811f d (mteRun k op idx b own d).2.2.2 := by
  unfold mteRun
  try dsimp only
  repeat' first
    | with_reducible apply Eff.refl | with_reducible assumption | (apply Sub.of; rfl) | (apply Has.of; rfl) | intro _ | with_reducible apply ite_eff
    | with_reducible apply ite_snd | (with_reducible apply Eff.step; with_reducible apply takeFree_eff)
    | (with_reducible apply Eff.step; with_reducible apply putCtx_eff) | (with_reducible apply Eff.step; with_reducible apply countQuad_eff)
    | (with_reducible apply Eff.step; with_reducible apply destroyCtx_eff) | split | dsimp only [id]

theorem mteGo_eff (k : Nat) (d : Dev) : Eff 0x1811f d (mteGo k d) := by
  unfold mteGo
  try dsimp only
  repeat' first
    | with_reducible apply Eff.refl | with_reducible assumption | (apply Sub.of; rfl) | (apply Has.of; rfl) | intro _ | with_reducible apply ite_eff
    | (with_reducible apply Eff.step; with_reducible apply mteRun_eff)
    | (with_reducible apply Eff.step; with_reducible apply eff_snd4; assumption; with_reducible apply mteRun_eff)
    | (with_reducible apply Eff.step; with_reducible apply putRegBytes_eff) | (with_reducible apply Eff.step; with_reducible apply wr_eff)
    | (with_reducible apply Eff.step; with_reducible apply raise_eff) | split | dsimp only [id]

theorem mteCmd_eff (k op : Nat) (d : Dev) : Eff 0x1811f d (mteCmd k op d) := by
  unfold mteCmd
  try dsimp only
  repeat' first
    | with_reducible apply Eff.refl | with_reducible assumption | (apply Sub.of; rfl) | (apply Has.of; rfl) | intro _ | with_reducible apply ite_eff
    | (with_reducible apply onlyIf_eff) | (with_reducible apply trigger_eff) | (with_reducible apply Eff.step; with_reducible apply mteGo_eff) | split
    | dsimp only [id]

theorem execCtxQuery_ran (mte : Nat) (s : State) : Ran 0x1811f s (execCtxQuery mte s) := by
  unfold execCtxQuery
  try dsimp only
  repeat' first
    | with_reducible apply Eff.refl | with_reducible assumption | (apply Sub.of; rfl) | (apply Has.of; rfl) | intro _ | with_reducible apply ite_eff
    | with_reducible apply ite_ran | with_reducible apply onEng_ran | (with_reducible apply Eff.step; with_reducible apply mteCmd_eff) | split
    | dsimp only [id]

theorem execCtxCreate_ran (mte : Nat) (s : State) : Ran 0x1811f s (execCtxCreate mte s) := by
  unfold execCtxCreate
  try dsimp only
  repeat' first
    | with_reducible apply Eff.refl | with_reducible assumption | (apply Sub.of; rfl) | (apply Has.of; rfl) | intro _ | with_reducible apply ite_eff
    | with_reducible apply ite_ran | with_reducible apply onEng_ran | (with_reducible apply Eff.step; with_reducible apply mteCmd_eff) | split
    | dsimp only [id]

theorem execCtxDestroy_ran (mte : Nat) (s : State) : Ran 0x1811f s (execCtxDestroy mte s) := by
  unfold execCtxDestroy
  try dsimp only
  repeat' first
    | with_reducible apply Eff.refl | with_reducible assumption | (apply Sub.of; rfl) | (apply Has.of; rfl) | intro _ | with_reducible apply ite_eff
    | with_reducible apply ite_ran | with_reducible apply onEng_ran | (with_reducible apply Eff.step; with_reducible apply mteCmd_eff) | split
    | dsimp only [id]

theorem serveMatch_eff (n index : Nat) (entries : List (List Byte)) (d : Dev) : Eff 0x10000 d (serveMatch n index entries d) := by
  unfold serveMatch
  try dsimp only
  repeat' first
    | with_reducible apply Eff.refl | with_reducible assumption | (apply Sub.of; rfl) | (apply Has.of; rfl) | intro _ | with_reducible apply ite_eff
    | (with_reducible apply Eff.step; with_reducible apply updSlice_eff) | split | dsimp only [id]

theorem execMatchDoorbell_ran (vh slice : Nat) (wide : Bool) (index : Nat) (entries : List (List Byte)) (s : State) : Ran 0x1811f s (execMatchDoorbell vh slice wide index entries s) := by
  unfold execMatchDoorbell
  try dsimp only
  repeat' first
    | with_reducible apply Eff.refl | with_reducible assumption | (apply Sub.of; rfl) | (apply Has.of; rfl) | intro _ | with_reducible apply ite_eff
    | with_reducible apply ite_ran | with_reducible apply onEng_ran | (with_reducible apply Eff.step; with_reducible apply bump_eff)
    | (with_reducible apply bell_eff) | (with_reducible apply Eff.step; with_reducible apply serveMatch_eff) | split | dsimp only [id]

theorem popPost_eff (n : Nat) (d : Dev) : Eff 0x10001 d (popPost n d) := by
  unfold popPost
  try dsimp only
  repeat' first
    | with_reducible apply Eff.refl | with_reducible assumption | (apply Sub.of; rfl) | (apply Has.of; rfl) | intro _ | with_reducible apply ite_eff
    | (with_reducible apply Eff.step; with_reducible apply updSlice_eff) | (with_reducible apply Eff.step; with_reducible apply slWr_eff) | split
    | dsimp only [id]

theorem postCqe_eff (k : Nat) (ctx : Option Nat) (e : List Byte) (cop status : Nat) (d : Dev) : Eff 0x1011f d (postCqe k ctx e cop status d) := by
  unfold postCqe
  try dsimp only
  repeat' first
    | with_reducible apply Eff.refl | with_reducible assumption | (apply Sub.of; rfl) | (apply Has.of; rfl) | intro _ | with_reducible apply ite_eff
    | (with_reducible apply Eff.step; with_reducible apply matchCqe_eff) | (with_reducible apply Eff.step; with_reducible apply takeFree_eff)
    | (with_reducible apply Eff.step; with_reducible apply cqe_eff) | split | dsimp only [id]

theorem decidePost_eff (k i n : Nat) (c : MCtx) (e : List Byte) (d : Dev) : Eff 0x1011f d (decidePost k i n c e d) := by
  unfold decidePost
  try dsimp only
  repeat' first
    | with_reducible apply Eff.refl | with_reducible assumption | (apply Sub.of; rfl) | (apply Has.of; rfl) | intro _ | with_reducible apply ite_eff
    | (with_reducible apply Eff.step; with_reducible apply matchCqe_eff)
    | (with_reducible apply onlyIf_eff) | (with_reducible apply Eff.step; with_reducible apply countSearch_eff)
    | (with_reducible apply Eff.step; with_reducible apply putCtx_eff) | (with_reducible apply Eff.step; with_reducible apply updQuad_eff)
    | (with_reducible apply Eff.step; with_reducible apply countQuad_eff) | (with_reducible apply Eff.step; with_reducible apply startRndv_eff)
    | (with_reducible apply Eff.step; with_reducible apply writeKey_eff) | (with_reducible apply Eff.step; with_reducible apply completeRecv_eff)
    | (with_reducible apply Eff.step; with_reducible apply raise_eff) | (with_reducible apply Eff.step; with_reducible apply postCqe_eff) | split
    | dsimp only [id]

theorem decideProbe_eff (k i : Nat) (e : List Byte) (d : Dev) : Eff 0x1011f d (decideProbe k i e d) := by
  unfold decideProbe
  try dsimp only
  repeat' first
    | with_reducible apply Eff.refl | with_reducible assumption | (apply Sub.of; rfl) | (apply Has.of; rfl) | intro _ | with_reducible apply ite_eff
    | (with_reducible apply Eff.step; with_reducible apply countSearch_eff) | (with_reducible apply Eff.step; with_reducible apply matchCqe_eff)
    | (with_reducible apply Eff.step; with_reducible apply postCqe_eff) | split | dsimp only [id]

theorem decideCancel_eff (k i : Nat) (e : List Byte) (d : Dev) : Eff 0x1011f d (decideCancel k i e d) := by
  unfold decideCancel
  try dsimp only
  repeat' first
    | with_reducible apply Eff.refl | with_reducible assumption | (apply Sub.of; rfl) | (apply Has.of; rfl) | intro _ | with_reducible apply ite_eff
    | (with_reducible apply Eff.step; with_reducible apply updQuad_eff) | (with_reducible apply Eff.step; with_reducible apply countQuad_eff)
    | (with_reducible apply Eff.step; with_reducible apply matchCqe_eff) | (with_reducible apply Eff.step; with_reducible apply takeFree_eff)
    | (with_reducible apply Eff.step; with_reducible apply postCqe_eff) | split | dsimp only [id]

theorem decideEntry_eff (k i n : Nat) (c : MCtx) (e : List Byte) (d : Dev) : Eff 0x1011f d (decideEntry k i n c e d) := by
  unfold decideEntry
  try dsimp only
  repeat' first
    | with_reducible apply Eff.refl | with_reducible assumption | (apply Sub.of; rfl) | (apply Has.of; rfl) | intro _ | with_reducible apply ite_eff
    | (with_reducible apply Eff.step; with_reducible apply decidePost_eff) | (with_reducible apply Eff.step; with_reducible apply decideProbe_eff)
    | (with_reducible apply Eff.step; with_reducible apply decideCancel_eff) | split | dsimp only [id]

theorem takeEntry_eff (n : Nat) (e : List Byte) (d : Dev) : Eff 0x1011f d (takeEntry n e d) := by
  unfold takeEntry
  try dsimp only
  repeat' first
    | with_reducible apply Eff.refl | with_reducible assumption | (apply Sub.of; rfl) | (apply Has.of; rfl) | intro _ | with_reducible apply ite_eff
    | (with_reducible apply Eff.step; with_reducible apply popPost_eff) | (with_reducible apply Eff.step; with_reducible apply postCqe_eff)
    | (with_reducible apply Eff.step; with_reducible apply takeFree_eff) | (with_reducible apply Eff.step; with_reducible apply updQuad_eff)
    | (with_reducible apply Eff.step; with_reducible apply decideEntry_eff) | split | dsimp only [id]

theorem execMatchPost_ran (slice : Nat) (s : State) : Ran 0x1811f s (execMatchPost slice s) := by
  unfold execMatchPost
  try dsimp only
  repeat' first
    | with_reducible apply Eff.refl | with_reducible assumption | (apply Sub.of; rfl) | (apply Has.of; rfl) | intro _ | with_reducible apply ite_eff
    | with_reducible apply ite_ran | (with_reducible apply onlyIf_eff) | with_reducible apply onEng_ran
    | (with_reducible apply Eff.step; with_reducible apply takeEntry_eff) | split | dsimp only [id]

theorem execMatchProbe_ran (slice : Nat) (s : State) : Ran 0x1811f s (execMatchProbe slice s) := by
  unfold execMatchProbe
  try dsimp only
  repeat' first
    | with_reducible apply Eff.refl | with_reducible assumption | (apply Sub.of; rfl) | (apply Has.of; rfl) | intro _ | with_reducible apply ite_eff
    | with_reducible apply ite_ran | (with_reducible apply onlyIf_eff) | with_reducible apply onEng_ran
    | (with_reducible apply Eff.step; with_reducible apply takeEntry_eff) | split | dsimp only [id]

theorem execMatchCancel_ran (slice : Nat) (s : State) : Ran 0x1811f s (execMatchCancel slice s) := by
  unfold execMatchCancel
  try dsimp only
  repeat' first
    | with_reducible apply Eff.refl | with_reducible assumption | (apply Sub.of; rfl) | (apply Has.of; rfl) | intro _ | with_reducible apply ite_eff
    | with_reducible apply ite_ran | (with_reducible apply onlyIf_eff) | with_reducible apply onEng_ran
    | (with_reducible apply Eff.step; with_reducible apply takeEntry_eff) | split | dsimp only [id]

theorem popWait_eff (k : Nat) (w : MWait) (d : Dev) : Eff 0x10000 d (popWait k w d) := by
  unfold popWait
  try dsimp only
  repeat' first
    | with_reducible apply Eff.refl | with_reducible assumption | (apply Sub.of; rfl) | (apply Has.of; rfl) | intro _ | with_reducible apply ite_eff
    | (with_reducible apply Eff.step; with_reducible apply updQuad_eff) | split | dsimp only [id]

theorem resolveWait_eff (k i : Nat) (w : MWait) (d : Dev) : Eff 0x1811f d (resolveWait k i w d) := by
  unfold resolveWait
  try dsimp only
  repeat' first
    | with_reducible apply Eff.refl | with_reducible assumption | (apply Sub.of; rfl) | (apply Has.of; rfl) | intro _ | with_reducible apply ite_eff
    | (with_reducible apply Eff.step; with_reducible apply popWait_eff) | (with_reducible apply Eff.step; with_reducible apply decideEntry_eff)
    | (with_reducible apply Eff.step; with_reducible apply updQp_eff) | (with_reducible apply Eff.step; with_reducible apply decideArrival_eff)
    | (with_reducible apply Eff.step; with_reducible apply runQueue_eff) | split | dsimp only [id]

theorem moreWaits_eff (k i : Nat) (fuel : Nat) (d : Dev) : Eff 0x1811f d (moreWaits k i fuel d) := by
  induction fuel generalizing d with
  | zero =>
    unfold moreWaits
    try dsimp only
    repeat' first
      | with_reducible apply Eff.refl | with_reducible assumption | (apply Sub.of; rfl) | (apply Has.of; rfl) | intro _ | with_reducible apply ite_eff
      | (with_reducible apply Eff.step; with_reducible apply resolveWait_eff) | split | dsimp only [id]
  | succ fuel ih =>
    unfold moreWaits
    try dsimp only
    repeat' first
      | (with_reducible apply Eff.step; with_reducible apply ih)
      | with_reducible apply Eff.refl | with_reducible assumption | (apply Sub.of; rfl) | (apply Has.of; rfl) | intro _ | with_reducible apply ite_eff
      | (with_reducible apply Eff.step; with_reducible apply resolveWait_eff) | split | dsimp only [id]

theorem execOverflowFetchDone_ran (mte ctx : Nat) (s : State) : Ran 0x1811f s (execOverflowFetchDone mte ctx s) := by
  unfold execOverflowFetchDone
  try dsimp only
  repeat' first
    | with_reducible apply Eff.refl | with_reducible assumption | (apply Sub.of; rfl) | (apply Has.of; rfl) | intro _ | with_reducible apply ite_eff
    | with_reducible apply ite_ran | with_reducible apply onEng_ran | (with_reducible apply Eff.step; with_reducible apply memDone_eff)
    | (with_reducible apply Eff.step; with_reducible apply resolveWait_eff) | (with_reducible apply Eff.step; with_reducible apply moreWaits_eff)
    | split | dsimp only [id]

end Sys2Proof.Machine
end

