-- ==== Sys2Proof/Laws/EffColl.lean ====
section
/-!
SUPPORT. What each function of Machine/Coll.lean can change.
-/

namespace Sys2Proof.Machine

theorem putCleData_eff (u : Nat) (ws : List Nat) (d : Dev) : Eff 0x1 d (putCleData u ws d) := by
  unfold putCleData
  try dsimp only
  repeat' first
    | with_reducible apply Eff.refl | with_reducible assumption | (apply Sub.of; rfl) | (apply Has.of; rfl) | intro _ | with_reducible apply ite_eff
    | (with_reducible apply forEach_eff) | (with_reducible apply Eff.step; with_reducible apply wrI_eff) | split | dsimp only [id]

theorem moveRsv_eff (u linesOld cellsOld linesNew cellsNew : Nat) (d : Dev) : Eff 0x11d d (moveRsv u linesOld cellsOld linesNew cellsNew d) := by
  unfold moveRsv
  try dsimp only
  repeat' first
    | with_reducible apply Eff.refl | with_reducible assumption | (apply Sub.of; rfl) | (apply Has.of; rfl) | intro _ | with_reducible apply ite_eff
    | (with_reducible apply Eff.step; with_reducible apply wr_eff) | (with_reducible apply Eff.step; with_reducible apply sharedLowAlarm_eff) | split
    | dsimp only [id]

theorem cleRun_eff (u op i : Nat) (ws : List Nat) (d : Dev) : Eff 0x2011d d (cleRun u op i ws d).2.2 := by
  unfold cleRun
  try dsimp only
  repeat' first
    | with_reducible apply Eff.refl | with_reducible assumption | (apply Sub.of; rfl) | (apply Has.of; rfl) | intro _ | with_reducible apply ite_eff
    | with_reducible apply ite_snd | (with_reducible apply Eff.step; with_reducible apply putCleData_eff)
    | (with_reducible apply Eff.step; with_reducible apply putCgrp_eff) | (with_reducible apply Eff.step; with_reducible apply moveRsv_eff)
    | (with_reducible apply Eff.step; with_reducible apply wr_eff) | (with_reducible apply Eff.step; with_reducible apply updColl_eff)
    | (with_reducible apply Eff.step; with_reducible apply updMember_eff) | split | dsimp only [id]

theorem cleGo_eff (u : Nat) (val : Word) (d : Dev) : Eff 0x2011d d (cleGo u val d) := by
  unfold cleGo
  try dsimp only
  repeat' first
    | with_reducible apply Eff.refl | with_reducible assumption | (apply Sub.of; rfl) | (apply Has.of; rfl) | intro _ | with_reducible apply ite_eff
    | (with_reducible apply onlyIf_eff) | (with_reducible apply Eff.step; with_reducible apply cleRun_eff)
    | (with_reducible apply Eff.step; with_reducible apply eff_snd3; assumption; with_reducible apply cleRun_eff)
    | (with_reducible apply Eff.step; with_reducible apply wr_eff) | (with_reducible apply Eff.step; with_reducible apply cfgErr_eff)
    | (with_reducible apply Eff.step; with_reducible apply raise_eff) | split | dsimp only [id]

theorem cleCmd_eff (u op : Nat) (d : Dev) : Eff 0x2011d d (cleCmd u op d) := by
  unfold cleCmd
  try dsimp only
  repeat' first
    | with_reducible apply Eff.refl | with_reducible assumption | (apply Sub.of; rfl) | (apply Has.of; rfl) | intro _ | with_reducible apply ite_eff
    | (with_reducible apply onlyIf_eff) | (with_reducible apply trigger_eff) | (with_reducible apply Eff.step; with_reducible apply cleGo_eff) | split
    | dsimp only [id]

theorem execGrpRead_ran (cle : Nat) (s : State) : Ran 0x2011d s (execGrpRead cle s) := by
  unfold execGrpRead
  try dsimp only
  repeat' first
    | with_reducible apply Eff.refl | with_reducible assumption | (apply Sub.of; rfl) | (apply Has.of; rfl) | intro _ | with_reducible apply ite_eff
    | with_reducible apply ite_ran | with_reducible apply onDev_ran | (with_reducible apply Eff.step; with_reducible apply cleCmd_eff) | split
    | dsimp only [id]

theorem execGrpCreate_ran (cle : Nat) (s : State) : Ran 0x2011d s (execGrpCreate cle s) := by
  unfold execGrpCreate
  try dsimp only
  repeat' first
    | with_reducible apply Eff.refl | with_reducible assumption | (apply Sub.of; rfl) | (apply Has.of; rfl) | intro _ | with_reducible apply ite_eff
    | with_reducible apply ite_ran | with_reducible apply onDev_ran | (with_reducible apply Eff.step; with_reducible apply cleCmd_eff) | split
    | dsimp only [id]

theorem execGrpModify_ran (cle : Nat) (s : State) : Ran 0x2011d s (execGrpModify cle s) := by
  unfold execGrpModify
  try dsimp only
  repeat' first
    | with_reducible apply Eff.refl | with_reducible assumption | (apply Sub.of; rfl) | (apply Has.of; rfl) | intro _ | with_reducible apply ite_eff
    | with_reducible apply ite_ran | with_reducible apply onDev_ran | (with_reducible apply Eff.step; with_reducible apply cleCmd_eff) | split
    | dsimp only [id]

theorem execGrpDestroy_ran (cle : Nat) (s : State) : Ran 0x2011d s (execGrpDestroy cle s) := by
  unfold execGrpDestroy
  try dsimp only
  repeat' first
    | with_reducible apply Eff.refl | with_reducible assumption | (apply Sub.of; rfl) | (apply Has.of; rfl) | intro _ | with_reducible apply ite_eff
    | with_reducible apply ite_ran | with_reducible apply onDev_ran | (with_reducible apply Eff.step; with_reducible apply cleCmd_eff) | split
    | dsimp only [id]

theorem execChildRead_ran (cle : Nat) (s : State) : Ran 0x2011d s (execChildRead cle s) := by
  unfold execChildRead
  try dsimp only
  repeat' first
    | with_reducible apply Eff.refl | with_reducible assumption | (apply Sub.of; rfl) | (apply Has.of; rfl) | intro _ | with_reducible apply ite_eff
    | with_reducible apply ite_ran | with_reducible apply onDev_ran | (with_reducible apply Eff.step; with_reducible apply cleCmd_eff) | split
    | dsimp only [id]

theorem execChildWrite_ran (cle : Nat) (s : State) : Ran 0x2011d s (execChildWrite cle s) := by
  unfold execChildWrite
  try dsimp only
  repeat' first
    | with_reducible apply Eff.refl | with_reducible assumption | (apply Sub.of; rfl) | (apply Has.of; rfl) | intro _ | with_reducible apply ite_eff
    | with_reducible apply ite_ran | with_reducible apply onDev_ran | (with_reducible apply Eff.step; with_reducible apply cleCmd_eff) | split
    | dsimp only [id]

theorem execMemberRead_ran (cle : Nat) (s : State) : Ran 0x2011d s (execMemberRead cle s) := by
  unfold execMemberRead
  try dsimp only
  repeat' first
    | with_reducible apply Eff.refl | with_reducible assumption | (apply Sub.of; rfl) | (apply Has.of; rfl) | intro _ | with_reducible apply ite_eff
    | with_reducible apply ite_ran | with_reducible apply onDev_ran | (with_reducible apply Eff.step; with_reducible apply cleCmd_eff) | split
    | dsimp only [id]

theorem execMemberBind_ran (cle : Nat) (s : State) : Ran 0x2011d s (execMemberBind cle s) := by
  unfold execMemberBind
  try dsimp only
  repeat' first
    | with_reducible apply Eff.refl | with_reducible assumption | (apply Sub.of; rfl) | (apply Has.of; rfl) | intro _ | with_reducible apply ite_eff
    | with_reducible apply ite_ran | with_reducible apply onDev_ran | (with_reducible apply Eff.step; with_reducible apply cleCmd_eff) | split
    | dsimp only [id]

theorem execMemberUnbind_ran (cle : Nat) (s : State) : Ran 0x2011d s (execMemberUnbind cle s) := by
  unfold execMemberUnbind
  try dsimp only
  repeat' first
    | with_reducible apply Eff.refl | with_reducible assumption | (apply Sub.of; rfl) | (apply Has.of; rfl) | intro _ | with_reducible apply ite_eff
    | with_reducible apply ite_ran | with_reducible apply onDev_ran | (with_reducible apply Eff.step; with_reducible apply cleCmd_eff) | split
    | dsimp only [id]

theorem holdColl_eff (u wake : Nat) (h : CHeld) (d : Dev) : Eff 0x2091d d (holdColl u wake h d) := by
  unfold holdColl
  try dsimp only
  repeat' first
    | with_reducible apply Eff.refl | with_reducible assumption | (apply Sub.of; rfl) | (apply Has.of; rfl) | intro _ | with_reducible apply ite_eff
    | (with_reducible apply Eff.step; with_reducible apply updColl_eff) | (with_reducible apply Eff.step; with_reducible apply wakeDom_eff) | split
    | dsimp only [id]

theorem serveColl_eff (s index : Nat) (entries : List (List Byte)) (d : Dev) : Eff 0x3091d d (serveColl s index entries d) := by
  unfold serveColl
  try dsimp only
  repeat' first
    | with_reducible apply Eff.refl | with_reducible assumption | (apply Sub.of; rfl) | (apply Has.of; rfl) | intro _ | with_reducible apply ite_eff
    | (with_reducible apply Eff.step; with_reducible apply updMember_eff) | (with_reducible apply Eff.step; with_reducible apply holdColl_eff)
    | (with_reducible apply bell_eff) | split | dsimp only [id]

theorem execCollDoorbell_ran (vh slice : Nat) (wide : Bool) (slot index : Nat) (entries : List (List Byte)) (s : State) : Ran 0x3891f s (execCollDoorbell vh slice wide slot index entries s) := by
  unfold execCollDoorbell
  try dsimp only
  repeat' first
    | with_reducible apply Eff.refl | with_reducible assumption | (apply Sub.of; rfl) | (apply Has.of; rfl) | intro _ | with_reducible apply ite_eff
    | with_reducible apply ite_ran | with_reducible apply onEng_ran | (with_reducible apply Eff.step; with_reducible apply bump_eff)
    | (with_reducible apply Eff.step; with_reducible apply sliceEvent_eff) | (with_reducible apply bell_eff)
    | (with_reducible apply Eff.step; with_reducible apply serveColl_eff) | split | dsimp only [id]

theorem startDesc_eff (s : Nat) (d : Dev) : Eff 0x3811f d (startDesc s d) := by
  unfold startDesc
  try dsimp only
  repeat' first
    | with_reducible apply Eff.refl | with_reducible assumption | (apply Sub.of; rfl) | (apply Has.of; rfl) | intro _ | with_reducible apply ite_eff
    | (with_reducible apply Eff.step; with_reducible apply updMember_eff) | (with_reducible apply Eff.step; with_reducible apply completeAlone_eff)
    | (with_reducible apply Eff.step; with_reducible apply release_eff) | split | dsimp only [id]

theorem execCollDescriptorStart_ran (slot : Nat) (s : State) : Ran 0x3811f s (execCollDescriptorStart slot s) := by
  unfold execCollDescriptorStart
  try dsimp only
  repeat' first
    | with_reducible apply Eff.refl | with_reducible assumption | (apply Sub.of; rfl) | (apply Has.of; rfl) | intro _ | with_reducible apply ite_eff
    | with_reducible apply ite_ran | with_reducible apply onEng_ran | (with_reducible apply Eff.step; with_reducible apply startDesc_eff) | split
    | dsimp only [id]

theorem putPart_eff (g b pos kids : Nat) (c : CPart) (d : Dev) : Eff 0x20000 d (putPart g b pos kids c d) := by
  unfold putPart
  try dsimp only
  repeat' first
    | with_reducible apply Eff.refl | with_reducible assumption | (apply Sub.of; rfl) | (apply Has.of; rfl) | intro _ | with_reducible apply ite_eff
    | (with_reducible apply Eff.step; with_reducible apply updCgrp_eff) | split | dsimp only [id]

theorem takeUp_eff (port : Nat) (p : CollPkt) (d : Dev) : Eff 0x3811f d (takeUp port p d) := by
  unfold takeUp
  try dsimp only
  repeat' first
    | with_reducible apply Eff.refl | with_reducible assumption | (apply Sub.of; rfl) | (apply Has.of; rfl) | intro _ | with_reducible apply ite_eff
    | (with_reducible apply onlyIf_eff) | (with_reducible apply Eff.step; with_reducible apply beginInst_eff)
    | (with_reducible apply Eff.step; with_reducible apply bump_eff) | (with_reducible apply Eff.step; with_reducible apply instMismatch_eff)
    | (with_reducible apply Eff.step; with_reducible apply putPart_eff) | (with_reducible apply Eff.step; with_reducible apply runGroup_eff) | split
    | dsimp only [id]

theorem takeDown_eff (port : Nat) (p : CollPkt) (d : Dev) : Eff 0x3811f d (takeDown port p d) := by
  unfold takeDown
  try dsimp only
  repeat' first
    | with_reducible apply Eff.refl | with_reducible assumption | (apply Sub.of; rfl) | (apply Has.of; rfl) | intro _ | with_reducible apply ite_eff
    | (with_reducible apply Eff.step; with_reducible apply passDown_eff) | (with_reducible apply Eff.step; with_reducible apply runGroup_eff) | split
    | dsimp only [id]

theorem takeFault_eff (port : Nat) (p : CollPkt) (d : Dev) : Eff 0x3811f d (takeFault port p d) := by
  unfold takeFault
  try dsimp only
  repeat' first
    | with_reducible apply Eff.refl | with_reducible assumption | (apply Sub.of; rfl) | (apply Has.of; rfl) | intro _ | with_reducible apply ite_eff
    | (with_reducible apply Eff.step; with_reducible apply spread_eff) | (with_reducible apply Eff.step; with_reducible apply updCgrp_eff)
    | (with_reducible apply Eff.step; with_reducible apply decideFault_eff) | split | dsimp only [id]

theorem takeAbortPkt_eff (port : Nat) (p : CollPkt) (d : Dev) : Eff 0x3811f d (takeAbortPkt port p d) := by
  unfold takeAbortPkt
  try dsimp only
  repeat' first
    | with_reducible apply Eff.refl | with_reducible assumption | (apply Sub.of; rfl) | (apply Has.of; rfl) | intro _ | with_reducible apply ite_eff
    | (with_reducible apply Eff.step; with_reducible apply spread_eff) | (with_reducible apply Eff.step; with_reducible apply takeAbort_eff) | split
    | dsimp only [id]

theorem takeGoOnPkt_eff (port : Nat) (p : CollPkt) (d : Dev) : Eff 0x3811d d (takeGoOnPkt port p d) := by
  unfold takeGoOnPkt
  try dsimp only
  repeat' first
    | with_reducible apply Eff.refl | with_reducible assumption | (apply Sub.of; rfl) | (apply Has.of; rfl) | intro _ | with_reducible apply ite_eff
    | (with_reducible apply Eff.step; with_reducible apply spread_eff) | (with_reducible apply Eff.step; with_reducible apply takeGoOn_eff) | split
    | dsimp only [id]

theorem takeRedeliver_eff (port : Nat) (p : CollPkt) (d : Dev) : Eff 0x3811f d (takeRedeliver port p d) := by
  unfold takeRedeliver
  try dsimp only
  repeat' first
    | with_reducible apply Eff.refl | with_reducible assumption | (apply Sub.of; rfl) | (apply Has.of; rfl) | intro _ | with_reducible apply ite_eff
    | (with_reducible apply forEach_eff) | (with_reducible apply Eff.step; with_reducible apply passDown_eff)
    | (with_reducible apply Eff.step; with_reducible apply runGroup_eff) | (with_reducible apply Eff.step; with_reducible apply sendColl_eff) | split
    | dsimp only [id]

theorem takeColl_eff (type port : Nat) (p : CollPkt) (d : Dev) : Eff 0x3811f d (takeColl type port p d) := by
  unfold takeColl
  try dsimp only
  repeat' first
    | with_reducible apply Eff.refl | with_reducible assumption | (apply Sub.of; rfl) | (apply Has.of; rfl) | intro _ | with_reducible apply ite_eff
    | (with_reducible apply Eff.step; with_reducible apply takeUp_eff) | (with_reducible apply Eff.step; with_reducible apply takeDown_eff)
    | (with_reducible apply Eff.step; with_reducible apply takeFault_eff) | (with_reducible apply Eff.step; with_reducible apply takeAbortPkt_eff)
    | (with_reducible apply Eff.step; with_reducible apply takeGoOnPkt_eff) | (with_reducible apply Eff.step; with_reducible apply takeRedeliver_eff)
    | split | dsimp only [id]

theorem collPkt_eff (type port : Nat) (p : CollPkt) (d : Dev) : Eff 0x3891f d (collPkt type port p d) := by
  unfold collPkt
  try dsimp only
  repeat' first
    | with_reducible apply Eff.refl | with_reducible assumption | (apply Sub.of; rfl) | (apply Has.of; rfl) | intro _ | with_reducible apply ite_eff
    | (with_reducible apply Eff.step; with_reducible apply takeColl_eff) | (with_reducible apply Eff.step; with_reducible apply holdColl_eff) | split
    | dsimp only [id]

theorem serveHeldColl_eff (u : Nat) (d : Dev) : Eff 0x3891f d (serveHeldColl u d) := by
  unfold serveHeldColl
  try dsimp only
  repeat' first
    | with_reducible apply Eff.refl | with_reducible assumption | (apply Sub.of; rfl) | (apply Has.of; rfl) | intro _ | with_reducible apply ite_eff
    | (with_reducible apply forEach_eff) | (with_reducible apply bell_eff) | (with_reducible apply Eff.step; with_reducible apply updColl_eff)
    | (with_reducible apply Eff.step; with_reducible apply serveColl_eff) | (with_reducible apply Eff.step; with_reducible apply collPkt_eff) | split
    | dsimp only [id]

theorem execCollUpRx_ran (port : Nat) (p : CollPkt) (s : State) : Ran 0x3891f s (execCollUpRx port p s) := by
  unfold execCollUpRx
  try dsimp only
  repeat' first
    | with_reducible apply Eff.refl | with_reducible assumption | (apply Sub.of; rfl) | (apply Has.of; rfl) | intro _ | with_reducible apply ite_eff
    | with_reducible apply ite_ran | with_reducible apply onEng_ran | (with_reducible apply Eff.step; with_reducible apply collPkt_eff) | split
    | dsimp only [id]

theorem execCollDownRx_ran (port : Nat) (p : CollPkt) (s : State) : Ran 0x3891f s (execCollDownRx port p s) := by
  unfold execCollDownRx
  try dsimp only
  repeat' first
    | with_reducible apply Eff.refl | with_reducible assumption | (apply Sub.of; rfl) | (apply Has.of; rfl) | intro _ | with_reducible apply ite_eff
    | with_reducible apply ite_ran | with_reducible apply onEng_ran | (with_reducible apply Eff.step; with_reducible apply collPkt_eff) | split
    | dsimp only [id]

theorem execCollFaultRx_ran (port : Nat) (p : CollPkt) (s : State) : Ran 0x3891f s (execCollFaultRx port p s) := by
  unfold execCollFaultRx
  try dsimp only
  repeat' first
    | with_reducible apply Eff.refl | with_reducible assumption | (apply Sub.of; rfl) | (apply Has.of; rfl) | intro _ | with_reducible apply ite_eff
    | with_reducible apply ite_ran | with_reducible apply onEng_ran | (with_reducible apply Eff.step; with_reducible apply collPkt_eff) | split
    | dsimp only [id]

theorem execCollAbortRx_ran (port : Nat) (p : CollPkt) (s : State) : Ran 0x3891f s (execCollAbortRx port p s) := by
  unfold execCollAbortRx
  try dsimp only
  repeat' first
    | with_reducible apply Eff.refl | with_reducible assumption | (apply Sub.of; rfl) | (apply Has.of; rfl) | intro _ | with_reducible apply ite_eff
    | with_reducible apply ite_ran | with_reducible apply onEng_ran | (with_reducible apply Eff.step; with_reducible apply collPkt_eff) | split
    | dsimp only [id]

theorem execCollGoOnRx_ran (port : Nat) (p : CollPkt) (s : State) : Ran 0x3891f s (execCollGoOnRx port p s) := by
  unfold execCollGoOnRx
  try dsimp only
  repeat' first
    | with_reducible apply Eff.refl | with_reducible assumption | (apply Sub.of; rfl) | (apply Has.of; rfl) | intro _ | with_reducible apply ite_eff
    | with_reducible apply ite_ran | with_reducible apply onEng_ran | (with_reducible apply Eff.step; with_reducible apply collPkt_eff) | split
    | dsimp only [id]

theorem execCollRedeliverRx_ran (port : Nat) (p : CollPkt) (s : State) : Ran 0x3891f s (execCollRedeliverRx port p s) := by
  unfold execCollRedeliverRx
  try dsimp only
  repeat' first
    | with_reducible apply Eff.refl | with_reducible assumption | (apply Sub.of; rfl) | (apply Has.of; rfl) | intro _ | with_reducible apply ite_eff
    | with_reducible apply ite_ran | with_reducible apply onEng_ran | (with_reducible apply Eff.step; with_reducible apply collPkt_eff) | split
    | dsimp only [id]

theorem execCollFaultTimeout_ran (group : Nat) (s : State) : Ran 0x3811f s (execCollFaultTimeout group s) := by
  unfold execCollFaultTimeout
  try dsimp only
  repeat' first
    | with_reducible apply Eff.refl | with_reducible assumption | (apply Sub.of; rfl) | (apply Has.of; rfl) | intro _ | with_reducible apply ite_eff
    | with_reducible apply ite_ran | (with_reducible apply onlyIf_eff) | with_reducible apply onEng_ran
    | (with_reducible apply Eff.step; with_reducible apply failGroup_eff) | split | dsimp only [id]

theorem execCollOpTimeout_ran (group : Nat) (s : State) : Ran 0x3811f s (execCollOpTimeout group s) := by
  unfold execCollOpTimeout
  try dsimp only
  repeat' first
    | with_reducible apply Eff.refl | with_reducible assumption | (apply Sub.of; rfl) | (apply Has.of; rfl) | intro _ | with_reducible apply ite_eff
    | with_reducible apply ite_ran | (with_reducible apply onlyIf_eff) | with_reducible apply onEng_ran
    | (with_reducible apply Eff.step; with_reducible apply failGroup_eff) | split | dsimp only [id]

end Sys2Proof.Machine
end

