-- ==== Sys2Proof/Laws/EffFuncOps.lean ====
section
/-!
SUPPORT. What each function of Machine/FuncOps.lean can change.
-/

namespace Sys2Proof.Machine

theorem putCfg_eff (v off val : Nat) (d : Dev) : Eff 0x10000 d (putCfg v off val d) := by
  unfold putCfg
  try dsimp only
  repeat' first
    | with_reducible apply Eff.refl | with_reducible assumption | (apply Sub.of; rfl) | (apply Has.of; rfl) | intro _ | with_reducible apply ite_eff
    | (with_reducible apply foldl_eff) | (with_reducible apply Eff.step; with_reducible apply updFun_eff) | split | dsimp only [id]

theorem aerSet_eff (v bit : Nat) (d : Dev) : Eff 0x10000 d (aerSet v bit d) := by
  unfold aerSet
  try dsimp only
  repeat' first
    | with_reducible apply Eff.refl | with_reducible assumption | (apply Sub.of; rfl) | (apply Has.of; rfl) | intro _ | with_reducible apply ite_eff
    | (with_reducible apply Eff.step; with_reducible apply putCfg_eff) | split | dsimp only [id]

theorem mirrorCfg_eff (v : Nat) (d : Dev) : Eff 0x1 d (mirrorCfg v d) := by
  unfold mirrorCfg
  try dsimp only
  repeat' first
    | with_reducible apply Eff.refl | with_reducible assumption | (apply Sub.of; rfl) | (apply Has.of; rfl) | intro _ | with_reducible apply ite_eff
    | (with_reducible apply Eff.step; with_reducible apply wr_eff) | split | dsimp only [id]

theorem sendPended_eff (v : Nat) (d : Dev) : Eff 0x10005 d (sendPended v d) := by
  unfold sendPended
  try dsimp only
  repeat' first
    | with_reducible apply Eff.refl | with_reducible assumption | (apply Sub.of; rfl) | (apply Has.of; rfl) | intro _ | with_reducible apply ite_eff
    | (with_reducible apply forEach_eff) | (with_reducible apply Eff.step; with_reducible apply updFun_eff)
    | (with_reducible apply Eff.step; with_reducible apply sendMsix_eff) | (with_reducible apply Eff.step; with_reducible apply slWr_eff) | split
    | dsimp only [id]

theorem quarantine_eff (sel : HostRead → Bool) (d : Dev) : Eff 0x10000 d (quarantine sel d) := by
  unfold quarantine
  try dsimp only
  repeat' first
    | with_reducible apply Eff.refl | with_reducible assumption | (apply Sub.of; rfl) | (apply Has.of; rfl) | intro _ | with_reducible apply ite_eff
    | (with_reducible apply Eff.step; with_reducible apply updEng_eff) | split | dsimp only [id]

theorem endOps_eff (n status collStatus : Nat) (unbind : Bool) (d : Dev) : Eff 0x3811f d (endOps n status collStatus unbind d) := by
  unfold endOps
  try dsimp only
  repeat' first
    | with_reducible apply Eff.refl | with_reducible assumption | (apply Sub.of; rfl) | (apply Has.of; rfl) | intro _ | with_reducible apply ite_eff
    | (with_reducible apply forEach_eff) | (with_reducible apply Eff.step; with_reducible apply enterError_eff)
    | (with_reducible apply Eff.step; with_reducible apply endWaits_eff) | (with_reducible apply Eff.step; with_reducible apply emptyCtx_eff)
    | (with_reducible apply Eff.step; with_reducible apply rerun_eff) | (with_reducible apply Eff.step; with_reducible apply postCqe_eff)
    | (with_reducible apply Eff.step; with_reducible apply updSlice_eff) | (with_reducible apply Eff.step; with_reducible apply updEng_eff)
    | (with_reducible apply Eff.step; with_reducible apply endMembers_eff) | (with_reducible apply Eff.step; with_reducible apply kickAtomics_eff)
    | split | dsimp only [id]

theorem sliceReset_eff (n : Nat) (cold : Bool) (d : Dev) : Eff 0x3811f d (sliceReset n cold d) := by
  unfold sliceReset
  try dsimp only
  repeat' first
    | with_reducible apply Eff.refl | with_reducible assumption | (apply Sub.of; rfl) | (apply Has.of; rfl) | intro _ | with_reducible apply ite_eff
    | (with_reducible apply onlyIf_eff) | (with_reducible apply forEach_eff) | (with_reducible apply Eff.step; with_reducible apply updQp_eff)
    | (with_reducible apply Eff.step; with_reducible apply updEng_eff) | (with_reducible apply Eff.step; with_reducible apply putCq_eff)
    | (with_reducible apply Eff.step; with_reducible apply invalSlice_eff) | (with_reducible apply Eff.step; with_reducible apply destroyCtx_eff)
    | (with_reducible apply Eff.step; with_reducible apply updMember_eff) | (with_reducible apply Eff.step; with_reducible apply slWr_eff)
    | (with_reducible apply Eff.step; with_reducible apply updSlice_eff) | split | dsimp only [id]

theorem countSlices_eff (v : Nat) (d : Dev) : Eff 0x1 d (countSlices v d) := by
  unfold countSlices
  try dsimp only
  repeat' first
    | with_reducible apply Eff.refl | with_reducible assumption | (apply Sub.of; rfl) | (apply Has.of; rfl) | intro _ | with_reducible apply ite_eff
    | (with_reducible apply Eff.step; with_reducible apply wr_eff) | split | dsimp only [id]

theorem chkEnd_eff (j state status : Nat) (d : Dev) : Eff 0x11d d (chkEnd j state status d) := by
  unfold chkEnd
  try dsimp only
  repeat' first
    | with_reducible apply Eff.refl | with_reducible assumption | (apply Sub.of; rfl) | (apply Has.of; rfl) | intro _ | with_reducible apply ite_eff
    | (with_reducible apply onlyIf_eff) | (with_reducible apply Eff.step; with_reducible apply wrI_eff)
    | (with_reducible apply Eff.step; with_reducible apply wr_eff) | (with_reducible apply Eff.step; with_reducible apply raise_eff) | split
    | dsimp only [id]

theorem chkCut_eff (j : Nat) (d : Dev) : Eff 0x9 d (chkCut j d) := by
  unfold chkCut
  try dsimp only
  repeat' first
    | with_reducible apply Eff.refl | with_reducible assumption | (apply Sub.of; rfl) | (apply Has.of; rfl) | intro _ | with_reducible apply ite_eff
    | (with_reducible apply onlyIf_eff) | (with_reducible apply Eff.step; with_reducible apply wr2_eff)
    | (with_reducible apply Eff.step; with_reducible apply takeFree_eff) | (with_reducible apply Eff.step; with_reducible apply wrI_eff) | split
    | dsimp only [id]

theorem chkHostAbort_eff (v : Nat) (d : Dev) : Eff 0x11d d (chkHostAbort v d) := by
  unfold chkHostAbort
  try dsimp only
  repeat' first
    | with_reducible apply Eff.refl | with_reducible assumption | (apply Sub.of; rfl) | (apply Has.of; rfl) | intro _ | with_reducible apply ite_eff
    | (with_reducible apply onlyIf_eff) | (with_reducible apply forEach_eff) | (with_reducible apply Eff.step; with_reducible apply chkCut_eff)
    | (with_reducible apply Eff.step; with_reducible apply chkEnd_eff) | split | dsimp only [id]

theorem dropWaiting_eff (v : Nat) (d : Dev) : Eff 0x10009 d (dropWaiting v d) := by
  unfold dropWaiting
  try dsimp only
  repeat' first
    | with_reducible apply Eff.refl | with_reducible assumption | (apply Sub.of; rfl) | (apply Has.of; rfl) | intro _ | with_reducible apply ite_eff
    | (with_reducible apply forEach_eff) | (with_reducible apply Eff.step; with_reducible apply updEng_eff)
    | (with_reducible apply Eff.step; with_reducible apply lostAcc_eff) | split | dsimp only [id]

theorem stopFunction_eff (v : Nat) (d : Dev) : Eff 0x3811f d (stopFunction v d) := by
  unfold stopFunction
  try dsimp only
  repeat' first
    | with_reducible apply Eff.refl | with_reducible assumption | (apply Sub.of; rfl) | (apply Has.of; rfl) | intro _ | with_reducible apply ite_eff
    | (with_reducible apply onlyIf_eff) | (with_reducible apply forEach_eff) | (with_reducible apply Eff.step; with_reducible apply dropWaiting_eff)
    | (with_reducible apply Eff.step; with_reducible apply quarantine_eff) | (with_reducible apply Eff.step; with_reducible apply addI_eff)
    | (with_reducible apply Eff.step; with_reducible apply endOps_eff) | (with_reducible apply Eff.step; with_reducible apply slWr_eff)
    | (with_reducible apply Eff.step; with_reducible apply raiseSlice_eff) | (with_reducible apply Eff.step; with_reducible apply chkHostAbort_eff)
    | split | dsimp only [id]

theorem bmeClear_eff (v : Nat) (d : Dev) : Eff 0x3811f d (bmeClear v d) := by
  unfold bmeClear
  try dsimp only
  repeat' first
    | with_reducible apply Eff.refl | with_reducible assumption | (apply Sub.of; rfl) | (apply Has.of; rfl) | intro _ | with_reducible apply ite_eff
    | (with_reducible apply Eff.step; with_reducible apply putCfg_eff) | (with_reducible apply Eff.step; with_reducible apply wr_eff)
    | (with_reducible apply Eff.step; with_reducible apply stopFunction_eff) | (with_reducible apply Eff.step; with_reducible apply raise_eff) | split
    | dsimp only [id]

theorem d3Enter_eff (v : Nat) (d : Dev) : Eff 0x3811f d (d3Enter v d) := by
  unfold d3Enter
  try dsimp only
  repeat' first
    | with_reducible apply Eff.refl | with_reducible assumption | (apply Sub.of; rfl) | (apply Has.of; rfl) | intro _ | with_reducible apply ite_eff
    | (with_reducible apply Eff.step; with_reducible apply putCfg_eff) | (with_reducible apply Eff.step; with_reducible apply wr_eff)
    | (with_reducible apply Eff.step; with_reducible apply stopFunction_eff) | (with_reducible apply Eff.step; with_reducible apply raise_eff) | split
    | dsimp only [id]

theorem flrStart_eff (v : Nat) (d : Dev) : Eff 0x3811f d (flrStart v d) := by
  unfold flrStart
  try dsimp only
  repeat' first
    | with_reducible apply Eff.refl | with_reducible assumption | (apply Sub.of; rfl) | (apply Has.of; rfl) | intro _ | with_reducible apply ite_eff
    | (with_reducible apply forEach_eff) | (with_reducible apply Eff.step; with_reducible apply updEng_eff)
    | (with_reducible apply Eff.step; with_reducible apply putCfg_eff) | (with_reducible apply Eff.step; with_reducible apply wr_eff)
    | (with_reducible apply Eff.step; with_reducible apply stopFunction_eff) | (with_reducible apply Eff.step; with_reducible apply bump_eff)
    | (with_reducible apply Eff.step; with_reducible apply updSlice_eff) | (with_reducible apply Eff.step; with_reducible apply sliceReset_eff)
    | split | dsimp only [id]

theorem finishReset_eff (n : Nat) (d : Dev) : Eff 0x1011d d (finishReset n d) := by
  unfold finishReset
  try dsimp only
  repeat' first
    | with_reducible apply Eff.refl | with_reducible assumption | (apply Sub.of; rfl) | (apply Has.of; rfl) | intro _ | with_reducible apply ite_eff
    | (with_reducible apply Eff.step; with_reducible apply updSlice_eff) | (with_reducible apply Eff.step; with_reducible apply slWr_eff)
    | (with_reducible apply Eff.step; with_reducible apply raiseSlice_eff) | (with_reducible apply Eff.step; with_reducible apply countSlices_eff)
    | split | dsimp only [id]

theorem flrDone_eff (v : Nat) (d : Dev) : Eff 0x1011d d (flrDone v d) := by
  unfold flrDone
  try dsimp only
  repeat' first
    | with_reducible apply Eff.refl | with_reducible assumption | (apply Sub.of; rfl) | (apply Has.of; rfl) | intro _ | with_reducible apply ite_eff
    | (with_reducible apply onlyIf_eff) | (with_reducible apply forEach_eff) | (with_reducible apply Eff.step; with_reducible apply updFun_eff)
    | (with_reducible apply Eff.step; with_reducible apply updEng_eff) | (with_reducible apply Eff.step; with_reducible apply mirrorCfg_eff)
    | (with_reducible apply Eff.step; with_reducible apply wr_eff) | (with_reducible apply Eff.step; with_reducible apply finishReset_eff)
    | (with_reducible apply Eff.step; with_reducible apply raise_eff) | split | dsimp only [id]

theorem cmdStatus_eff (n st : Nat) (d : Dev) : Eff 0x1 d (cmdStatus n st d) := by
  unfold cmdStatus
  try dsimp only
  repeat' first
    | with_reducible apply Eff.refl | with_reducible assumption | (apply Sub.of; rfl) | (apply Has.of; rfl) | intro _ | with_reducible apply ite_eff
    | (with_reducible apply Eff.step; with_reducible apply slWr_eff) | split | dsimp only [id]

theorem sliceCreate_eff (n : Nat) (d : Dev) : Eff 0x10001 d (sliceCreate n d) := by
  unfold sliceCreate
  try dsimp only
  repeat' first
    | with_reducible apply Eff.refl | with_reducible assumption | (apply Sub.of; rfl) | (apply Has.of; rfl) | intro _ | with_reducible apply ite_eff
    | (with_reducible apply Eff.step; with_reducible apply cmdStatus_eff) | (with_reducible apply Eff.step; with_reducible apply slWr_eff)
    | (with_reducible apply Eff.step; with_reducible apply updSlice_eff) | (with_reducible apply Eff.step; with_reducible apply countSlices_eff)
    | split | dsimp only [id]

theorem sliceQuiesce_eff (n : Nat) (d : Dev) : Eff 0x10001 d (sliceQuiesce n d) := by
  unfold sliceQuiesce
  try dsimp only
  repeat' first
    | with_reducible apply Eff.refl | with_reducible assumption | (apply Sub.of; rfl) | (apply Has.of; rfl) | intro _ | with_reducible apply ite_eff
    | (with_reducible apply Eff.step; with_reducible apply cmdStatus_eff) | (with_reducible apply Eff.step; with_reducible apply slWr_eff)
    | (with_reducible apply Eff.step; with_reducible apply updSlice_eff) | split | dsimp only [id]

theorem serveEvr_eff (n index : Nat) (d : Dev) : Eff 0x10005 d (serveEvr n index d) := by
  unfold serveEvr
  try dsimp only
  repeat' first
    | with_reducible apply Eff.refl | with_reducible assumption | (apply Sub.of; rfl) | (apply Has.of; rfl) | intro _ | with_reducible apply ite_eff
    | (with_reducible apply onlyIf_eff) | (with_reducible apply Eff.step; with_reducible apply slWr_eff)
    | (with_reducible apply Eff.step; with_reducible apply notifySlice_eff) | split | dsimp only [id]

theorem serveKey_eff (n key index : Nat) (entries : List (List Byte)) (d : Dev) : Eff 0x3091f d (serveKey n key index entries d) := by
  unfold serveKey
  try dsimp only
  repeat' first
    | with_reducible apply Eff.refl | with_reducible assumption | (apply Sub.of; rfl) | (apply Has.of; rfl) | intro _ | with_reducible apply ite_eff
    | (with_reducible apply Eff.step; with_reducible apply updSlice_eff) | (with_reducible apply Eff.step; with_reducible apply serveMatch_eff)
    | (with_reducible apply Eff.step; with_reducible apply serveColl_eff) | (with_reducible apply Eff.step; with_reducible apply serveEvr_eff)
    | (with_reducible apply Eff.step; with_reducible apply serveWork_eff) | split | dsimp only [id]

theorem serveRecorded_eff (n : Nat) (r : Nat × Nat × List (List Byte)) (d : Dev) : Eff 0x3091f d (serveRecorded n r d) := by
  unfold serveRecorded
  try dsimp only
  repeat' first
    | with_reducible apply Eff.refl | with_reducible assumption | (apply Sub.of; rfl) | (apply Has.of; rfl) | intro _ | with_reducible apply ite_eff
    | (with_reducible apply ringFetch_eff) | (with_reducible apply Eff.step; with_reducible apply serveKey_eff) | split | dsimp only [id]

theorem ringRun_eff  (fuel : Nat) (d : Dev) : Eff 0x3091f d (ringRun  fuel d) := by
  induction fuel generalizing d with
  | zero =>
    unfold ringRun
    try dsimp only
    repeat' first
      | with_reducible apply Eff.refl | with_reducible assumption | (apply Sub.of; rfl) | (apply Has.of; rfl) | intro _ | with_reducible apply ite_eff
      | (with_reducible apply forEach_eff) | (with_reducible apply Eff.step; with_reducible apply updEng_eff)
      | (with_reducible apply Eff.step; with_reducible apply serveKey_eff) | (with_reducible apply Eff.step; with_reducible apply askPage_eff) | split
      | dsimp only [id]
  | succ fuel ih =>
    unfold ringRun
    try dsimp only
    repeat' first
      | (with_reducible apply Eff.step; with_reducible apply ih)
      | with_reducible apply Eff.refl | with_reducible assumption | (apply Sub.of; rfl) | (apply Has.of; rfl) | intro _ | with_reducible apply ite_eff
      | (with_reducible apply forEach_eff) | (with_reducible apply Eff.step; with_reducible apply updEng_eff)
      | (with_reducible apply Eff.step; with_reducible apply serveKey_eff) | (with_reducible apply Eff.step; with_reducible apply askPage_eff) | split
      | dsimp only [id]

theorem ringWaitFault_eff (w : RingWait) (d : Dev) : Eff 0x1011f d (ringWaitFault w d) := by
  unfold ringWaitFault
  try dsimp only
  repeat' first
    | with_reducible apply Eff.refl | with_reducible assumption | (apply Sub.of; rfl) | (apply Has.of; rfl) | intro _ | with_reducible apply ite_eff
    | (with_reducible apply Eff.step; with_reducible apply updEng_eff) | (with_reducible apply Eff.step; with_reducible apply sliceEvent_eff)
    | (with_reducible apply Eff.step; with_reducible apply enterError_eff) | split | dsimp only [id]

theorem sliceResume_eff (n : Nat) (d : Dev) : Eff 0x3091f d (sliceResume n d) := by
  unfold sliceResume
  try dsimp only
  repeat' first
    | with_reducible apply Eff.refl | with_reducible assumption | (apply Sub.of; rfl) | (apply Has.of; rfl) | intro _ | with_reducible apply ite_eff
    | (with_reducible apply forEach_eff) | (with_reducible apply Eff.step; with_reducible apply cmdStatus_eff)
    | (with_reducible apply Eff.step; with_reducible apply slWr_eff) | (with_reducible apply Eff.step; with_reducible apply updSlice_eff)
    | (with_reducible apply Eff.step; with_reducible apply serveRecorded_eff) | split | dsimp only [id]

theorem sliceResetCmd_eff (n : Nat) (d : Dev) : Eff 0x3811f d (sliceResetCmd n d) := by
  unfold sliceResetCmd
  try dsimp only
  repeat' first
    | with_reducible apply Eff.refl | with_reducible assumption | (apply Sub.of; rfl) | (apply Has.of; rfl) | intro _ | with_reducible apply ite_eff
    | (with_reducible apply Eff.step; with_reducible apply cmdStatus_eff) | (with_reducible apply Eff.step; with_reducible apply sliceReset_eff)
    | (with_reducible apply Eff.step; with_reducible apply updSlice_eff) | (with_reducible apply Eff.step; with_reducible apply slWr_eff) | split
    | dsimp only [id]

theorem sliceRemove_eff (n : Nat) (d : Dev) : Eff 0x3811f d (sliceRemove n d) := by
  unfold sliceRemove
  try dsimp only
  repeat' first
    | with_reducible apply Eff.refl | with_reducible assumption | (apply Sub.of; rfl) | (apply Has.of; rfl) | intro _ | with_reducible apply ite_eff
    | (with_reducible apply forEach_eff) | (with_reducible apply Eff.step; with_reducible apply cmdStatus_eff)
    | (with_reducible apply Eff.step; with_reducible apply putQp_eff) | (with_reducible apply Eff.step; with_reducible apply sliceReset_eff)
    | (with_reducible apply Eff.step; with_reducible apply updEng_eff) | (with_reducible apply Eff.step; with_reducible apply updSlice_eff)
    | (with_reducible apply Eff.step; with_reducible apply slWr_eff) | split | dsimp only [id]

theorem sliceForce_eff (n : Nat) (d : Dev) : Eff 0x3811f d (sliceForce n d) := by
  unfold sliceForce
  try dsimp only
  repeat' first
    | with_reducible apply Eff.refl | with_reducible assumption | (apply Sub.of; rfl) | (apply Has.of; rfl) | intro _ | with_reducible apply ite_eff
    | (with_reducible apply forEach_eff) | (with_reducible apply Eff.step; with_reducible apply cmdStatus_eff)
    | (with_reducible apply Eff.step; with_reducible apply slWr_eff) | (with_reducible apply Eff.step; with_reducible apply updSlice_eff)
    | (with_reducible apply Eff.step; with_reducible apply quarantine_eff) | (with_reducible apply Eff.step; with_reducible apply addI_eff)
    | (with_reducible apply Eff.step; with_reducible apply endOps_eff) | (with_reducible apply Eff.step; with_reducible apply latchWin_eff)
    | (with_reducible apply Eff.step; with_reducible apply sliceReset_eff) | split | dsimp only [id]

theorem sliceCmd_eff (n bit : Nat) (d : Dev) : Eff 0x3891f d (sliceCmd n bit d) := by
  unfold sliceCmd
  try dsimp only
  repeat' first
    | with_reducible apply Eff.refl | with_reducible assumption | (apply Sub.of; rfl) | (apply Has.of; rfl) | intro _ | with_reducible apply ite_eff
    | (with_reducible apply Eff.step; with_reducible apply sliceCreate_eff) | (with_reducible apply Eff.step; with_reducible apply sliceQuiesce_eff)
    | (with_reducible apply Eff.step; with_reducible apply sliceResume_eff) | (with_reducible apply Eff.step; with_reducible apply sliceResetCmd_eff)
    | (with_reducible apply Eff.step; with_reducible apply sliceForce_eff) | (with_reducible apply Eff.step; with_reducible apply sliceRemove_eff)
    | split | dsimp only [id]

theorem sourceRead_eff (qpn id : Nat) (data : Option (List Byte)) (d : Dev) : Eff 0x1011f d (sourceRead qpn id data d) := by
  unfold sourceRead
  try dsimp only
  repeat' first
    | with_reducible apply Eff.refl | with_reducible assumption | (apply Sub.of; rfl) | (apply Has.of; rfl) | intro _ | with_reducible apply ite_eff
    | (with_reducible apply Eff.step; with_reducible apply updQp_eff) | (with_reducible apply Eff.step; with_reducible apply completeWqes_eff)
    | (with_reducible apply Eff.step; with_reducible apply bump_eff) | split | dsimp only [id]

theorem respondRead_eff (qpn : Nat) (data : Option (List Byte)) (d : Dev) : Eff 0x1811f d (respondRead qpn data d) := by
  unfold respondRead
  try dsimp only
  repeat' first
    | with_reducible apply Eff.refl | with_reducible assumption | (apply Sub.of; rfl) | (apply Has.of; rfl) | intro _ | with_reducible apply ite_eff
    | (with_reducible apply onlyIf_eff) | (with_reducible apply Eff.step; with_reducible apply bump_eff)
    | (with_reducible apply Eff.step; with_reducible apply sendRead_eff) | (with_reducible apply Eff.step; with_reducible apply unbusy_eff)
    | (with_reducible apply Eff.step; with_reducible apply writeKey_eff) | (with_reducible apply Eff.step; with_reducible apply record_eff)
    | (with_reducible apply Eff.step; with_reducible apply sendAtomic_eff) | (with_reducible apply Eff.step; with_reducible apply answerError_eff)
    | split | dsimp only [id]

theorem readDone_eff (r : HostRead) (data : Option (List Byte)) (d : Dev) : Eff 0x3811f d (readDone r data d) := by
  unfold readDone
  try dsimp only
  repeat' first
    | with_reducible apply Eff.refl | with_reducible assumption | (apply Sub.of; rfl) | (apply Has.of; rfl) | intro _ | with_reducible apply ite_eff
    | (with_reducible apply Eff.step; with_reducible apply endRead_eff) | (with_reducible apply Eff.step; with_reducible apply sourceRead_eff)
    | (with_reducible apply Eff.step; with_reducible apply respondRead_eff) | (with_reducible apply Eff.step; with_reducible apply kickAtomics_eff)
    | (with_reducible apply Eff.step; with_reducible apply contribDone_eff) | split | dsimp only [id]

theorem issueAll_eff (v : Nat) (d : Dev) : Eff 0x10004 d (issueAll v d) := by
  unfold issueAll
  try dsimp only
  repeat' first
    | with_reducible apply Eff.refl | with_reducible assumption | (apply Sub.of; rfl) | (apply Has.of; rfl) | intro _ | with_reducible apply ite_eff
    | (with_reducible apply Eff.step; with_reducible apply issueKnown_eff) | split | dsimp only [id]

theorem ringFault_eff (a : Access) (d : Dev) : Eff 0x1011d d (ringFault a d) := by
  unfold ringFault
  try dsimp only
  repeat' first
    | with_reducible apply Eff.refl | with_reducible assumption | (apply Sub.of; rfl) | (apply Has.of; rfl) | intro _ | with_reducible apply ite_eff
    | (with_reducible apply Eff.step; with_reducible apply bump_eff) | (with_reducible apply Eff.step; with_reducible apply raise_eff)
    | (with_reducible apply Eff.step; with_reducible apply putCq_eff) | (with_reducible apply Eff.step; with_reducible apply sliceEvent_eff) | split
    | dsimp only [id]

theorem failCqe_eff (w : AtsWait) (d : Dev) : Eff 0x1011f d (failCqe w d) := by
  unfold failCqe
  try dsimp only
  repeat' first
    | with_reducible apply Eff.refl | with_reducible assumption | (apply Sub.of; rfl) | (apply Has.of; rfl) | intro _ | with_reducible apply ite_eff
    | (with_reducible apply Eff.step; with_reducible apply cqe_eff) | (with_reducible apply Eff.step; with_reducible apply updEng_eff) | split
    | dsimp only [id]

theorem dataWriteFault_eff (a : Access) (behind : List AtsWait) (d : Dev) : Eff 0x1811f d (dataWriteFault a behind d) := by
  unfold dataWriteFault
  try dsimp only
  repeat' first
    | with_reducible apply Eff.refl | with_reducible assumption | (apply Sub.of; rfl) | (apply Has.of; rfl) | intro _ | with_reducible apply ite_eff
    | (with_reducible apply forEach_eff) | (with_reducible apply Eff.step; with_reducible apply failCqe_eff)
    | (with_reducible apply Eff.step; with_reducible apply updQp_eff) | (with_reducible apply Eff.step; with_reducible apply answerError_eff)
    | (with_reducible apply Eff.step; with_reducible apply enterError_eff) | split | dsimp only [id]

theorem accessFault_eff (a : Access) (d : Dev) : Eff 0x3811f d (accessFault a d) := by
  unfold accessFault
  try dsimp only
  repeat' first
    | with_reducible apply Eff.refl | with_reducible assumption | (apply Sub.of; rfl) | (apply Has.of; rfl) | intro _ | with_reducible apply ite_eff
    | (with_reducible apply Eff.step; with_reducible apply updEng_eff) | (with_reducible apply Eff.step; with_reducible apply ringFault_eff)
    | (with_reducible apply Eff.step; with_reducible apply readDone_eff) | (with_reducible apply Eff.step; with_reducible apply dataWriteFault_eff)
    | split | dsimp only [id]

end Sys2Proof.Machine
end

