-- ==== Sys2Proof/Laws/EffFunc.lean ====
section
/-!
SUPPORT. What each function of Machine/Func.lean can change.
-/

namespace Sys2Proof.Machine

theorem hostCompletion_eff (v tag : Nat) (ok : Bool) (data : List Byte) (d : Dev) : Eff 0x3811f d (hostCompletion v tag ok data d) := by
  unfold hostCompletion
  try dsimp only
  repeat' first
    | with_reducible apply Eff.refl | with_reducible assumption | (apply Sub.of; rfl) | (apply Has.of; rfl) | intro _ | with_reducible apply ite_eff
    | (with_reducible apply onlyIf_eff) | (with_reducible apply Eff.step; with_reducible apply readDone_eff)
    | (with_reducible apply Eff.step; with_reducible apply bump_eff) | (with_reducible apply Eff.step; with_reducible apply aerSet_eff) | split
    | dsimp only [id]

theorem execHostCompletionRx_ran (vh tag : Nat) (ok : Bool) (data : List Byte) (s : State) : Ran 0x3811f s (execHostCompletionRx vh tag ok data s) := by
  unfold execHostCompletionRx
  try dsimp only
  repeat' first
    | with_reducible apply Eff.refl | with_reducible assumption | (apply Sub.of; rfl) | (apply Has.of; rfl) | intro _ | with_reducible apply ite_eff
    | with_reducible apply ite_ran | with_reducible apply onEng_ran | (with_reducible apply Eff.step; with_reducible apply hostCompletion_eff) | split
    | dsimp only [id]

theorem execHostReadTimeout_ran (vh tag : Nat) (s : State) : Ran 0x3811f s (execHostReadTimeout vh tag s) := by
  unfold execHostReadTimeout
  try dsimp only
  repeat' first
    | with_reducible apply Eff.refl | with_reducible assumption | (apply Sub.of; rfl) | (apply Has.of; rfl) | intro _ | with_reducible apply ite_eff
    | with_reducible apply ite_ran | with_reducible apply onEng_ran | (with_reducible apply Eff.step; with_reducible apply aerSet_eff)
    | (with_reducible apply Eff.step; with_reducible apply readDone_eff) | split | dsimp only [id]

theorem execBmeClear_ran (vh : Nat) (s : State) : Ran 0x3811f s (execBmeClear vh s) := by
  unfold execBmeClear
  try dsimp only
  repeat' first
    | with_reducible apply Eff.refl | with_reducible assumption | (apply Sub.of; rfl) | (apply Has.of; rfl) | intro _ | with_reducible apply ite_eff
    | with_reducible apply ite_ran | with_reducible apply onEng_ran | (with_reducible apply Eff.step; with_reducible apply bmeClear_eff) | split
    | dsimp only [id]

theorem execInitiateFlr_ran (vh : Nat) (s : State) : Ran 0x3811f s (execInitiateFlr vh s) := by
  unfold execInitiateFlr
  try dsimp only
  repeat' first
    | with_reducible apply Eff.refl | with_reducible assumption | (apply Sub.of; rfl) | (apply Has.of; rfl) | intro _ | with_reducible apply ite_eff
    | with_reducible apply ite_ran | with_reducible apply onEng_ran | (with_reducible apply Eff.step; with_reducible apply flrStart_eff) | split
    | dsimp only [id]

theorem execFlrComplete_ran (vh : Nat) (s : State) : Ran 0x1811f s (execFlrComplete vh s) := by
  unfold execFlrComplete
  try dsimp only
  repeat' first
    | with_reducible apply Eff.refl | with_reducible assumption | (apply Sub.of; rfl) | (apply Has.of; rfl) | intro _ | with_reducible apply ite_eff
    | with_reducible apply ite_ran | with_reducible apply onEng_ran | (with_reducible apply Eff.step; with_reducible apply flrDone_eff) | split
    | dsimp only [id]

theorem execD3hotEntry_ran (vh : Nat) (s : State) : Ran 0x3811f s (execD3hotEntry vh s) := by
  unfold execD3hotEntry
  try dsimp only
  repeat' first
    | with_reducible apply Eff.refl | with_reducible assumption | (apply Sub.of; rfl) | (apply Has.of; rfl) | intro _ | with_reducible apply ite_eff
    | with_reducible apply ite_ran | with_reducible apply onEng_ran | (with_reducible apply Eff.step; with_reducible apply d3Enter_eff) | split
    | dsimp only [id]

theorem d0Return_eff (v : Nat) (d : Dev) : Eff 0x3811f d (d0Return v d) := by
  unfold d0Return
  try dsimp only
  repeat' first
    | with_reducible apply Eff.refl | with_reducible assumption | (apply Sub.of; rfl) | (apply Has.of; rfl) | intro _ | with_reducible apply ite_eff
    | (with_reducible apply onlyIf_eff) | (with_reducible apply Eff.step; with_reducible apply putCfg_eff)
    | (with_reducible apply Eff.step; with_reducible apply wr_eff) | (with_reducible apply Eff.step; with_reducible apply flrStart_eff) | split
    | dsimp only [id]

theorem execD0Return_ran (vh : Nat) (s : State) : Ran 0x3811f s (execD0Return vh s) := by
  unfold execD0Return
  try dsimp only
  repeat' first
    | with_reducible apply Eff.refl | with_reducible assumption | (apply Sub.of; rfl) | (apply Has.of; rfl) | intro _ | with_reducible apply ite_eff
    | with_reducible apply ite_ran | with_reducible apply onEng_ran | (with_reducible apply Eff.step; with_reducible apply d0Return_eff) | split
    | dsimp only [id]

theorem execTagQuarantineEnd_ran (vh tag : Nat) (s : State) : Ran 0x1811f s (execTagQuarantineEnd vh tag s) := by
  unfold execTagQuarantineEnd
  try dsimp only
  repeat' first
    | with_reducible apply Eff.refl | with_reducible assumption | (apply Sub.of; rfl) | (apply Has.of; rfl) | intro _ | with_reducible apply ite_eff
    | with_reducible apply ite_ran | with_reducible apply onEng_ran | (with_reducible apply Eff.step; with_reducible apply updEng_eff) | split
    | dsimp only [id]

theorem sliceTrig_eff {t : Nat} {a : Dev} (n bit : Nat) (act : Nat → Dev → Dev) (d : Dev) (h : Eff t a d) (ha : ∀ x d, Eff t d (act x d)) (s : Sub 0x11d t) :
    Eff t a (sliceTrig n bit act d) := by
  unfold sliceTrig
  try dsimp only
  repeat' first
    | with_reducible assumption | (apply Sub.of; rfl) | (apply Sub.via s; apply Sub.of; rfl) | (apply Has.of; rfl)
    | (with_reducible apply Eff.seq; with_reducible apply ha) | (apply Has.via s; apply Has.of; rfl) | intro _ | with_reducible apply ite_eff
    | (with_reducible apply trigger_eff) | with_reducible apply Eff.refl | split | dsimp only [id]

theorem execSliceCreate_ran (slice : Nat) (s : State) : Ran 0x1811f s (execSliceCreate slice s) := by
  unfold execSliceCreate
  try dsimp only
  repeat' first
    | with_reducible apply Eff.refl | with_reducible assumption | (apply Sub.of; rfl) | (apply Has.of; rfl) | intro _ | with_reducible apply ite_eff
    | with_reducible apply ite_ran | with_reducible apply onEng_ran | (with_reducible apply sliceTrig_eff)
    | (with_reducible apply Eff.step; with_reducible apply sliceCreate_eff) | split | dsimp only [id]

theorem execSliceQuiesce_ran (slice : Nat) (s : State) : Ran 0x1811f s (execSliceQuiesce slice s) := by
  unfold execSliceQuiesce
  try dsimp only
  repeat' first
    | with_reducible apply Eff.refl | with_reducible assumption | (apply Sub.of; rfl) | (apply Has.of; rfl) | intro _ | with_reducible apply ite_eff
    | with_reducible apply ite_ran | with_reducible apply onEng_ran | (with_reducible apply sliceTrig_eff)
    | (with_reducible apply Eff.step; with_reducible apply sliceQuiesce_eff) | split | dsimp only [id]

theorem execSliceDrained_ran (slice : Nat) (s : State) : Ran 0x1811f s (execSliceDrained slice s) := by
  unfold execSliceDrained
  try dsimp only
  repeat' first
    | with_reducible apply Eff.refl | with_reducible assumption | (apply Sub.of; rfl) | (apply Has.of; rfl) | intro _ | with_reducible apply ite_eff
    | with_reducible apply ite_ran | (with_reducible apply onlyIf_eff) | with_reducible apply onEng_ran
    | (with_reducible apply Eff.step; with_reducible apply slWr_eff) | (with_reducible apply Eff.step; with_reducible apply raiseSlice_eff) | split
    | dsimp only [id]

theorem execSliceQuiesceTmo_ran (slice : Nat) (s : State) : Ran 0x1811f s (execSliceQuiesceTmo slice s) := by
  unfold execSliceQuiesceTmo
  try dsimp only
  repeat' first
    | with_reducible apply Eff.refl | with_reducible assumption | (apply Sub.of; rfl) | (apply Has.of; rfl) | intro _ | with_reducible apply ite_eff
    | with_reducible apply ite_ran | (with_reducible apply onlyIf_eff) | with_reducible apply onEng_ran
    | (with_reducible apply Eff.step; with_reducible apply updSlice_eff) | (with_reducible apply Eff.step; with_reducible apply raiseSlice_eff)
    | split | dsimp only [id]

theorem execSliceResume_ran (slice : Nat) (s : State) : Ran 0x3891f s (execSliceResume slice s) := by
  unfold execSliceResume
  try dsimp only
  repeat' first
    | with_reducible apply Eff.refl | with_reducible assumption | (apply Sub.of; rfl) | (apply Has.of; rfl) | intro _ | with_reducible apply ite_eff
    | with_reducible apply ite_ran | with_reducible apply onEng_ran | (with_reducible apply sliceTrig_eff)
    | (with_reducible apply Eff.step; with_reducible apply sliceResume_eff) | split | dsimp only [id]

theorem execSliceReset_ran (slice : Nat) (s : State) : Ran 0x3811f s (execSliceReset slice s) := by
  unfold execSliceReset
  try dsimp only
  repeat' first
    | with_reducible apply Eff.refl | with_reducible assumption | (apply Sub.of; rfl) | (apply Has.of; rfl) | intro _ | with_reducible apply ite_eff
    | with_reducible apply ite_ran | with_reducible apply onEng_ran | (with_reducible apply sliceTrig_eff)
    | (with_reducible apply Eff.step; with_reducible apply sliceResetCmd_eff) | split | dsimp only [id]

theorem execSliceForceReset_ran (slice : Nat) (s : State) : Ran 0x3811f s (execSliceForceReset slice s) := by
  unfold execSliceForceReset
  try dsimp only
  repeat' first
    | with_reducible apply Eff.refl | with_reducible assumption | (apply Sub.of; rfl) | (apply Has.of; rfl) | intro _ | with_reducible apply ite_eff
    | with_reducible apply ite_ran | with_reducible apply onEng_ran | (with_reducible apply sliceTrig_eff)
    | (with_reducible apply Eff.step; with_reducible apply sliceForce_eff) | split | dsimp only [id]

theorem execSliceRemove_ran (slice : Nat) (s : State) : Ran 0x3811f s (execSliceRemove slice s) := by
  unfold execSliceRemove
  try dsimp only
  repeat' first
    | with_reducible apply Eff.refl | with_reducible assumption | (apply Sub.of; rfl) | (apply Has.of; rfl) | intro _ | with_reducible apply ite_eff
    | with_reducible apply ite_ran | with_reducible apply onEng_ran | (with_reducible apply sliceTrig_eff)
    | (with_reducible apply Eff.step; with_reducible apply sliceRemove_eff) | split | dsimp only [id]

theorem execSliceResetComplete_ran (slice : Nat) (s : State) : Ran 0x1811f s (execSliceResetComplete slice s) := by
  unfold execSliceResetComplete
  try dsimp only
  repeat' first
    | with_reducible apply Eff.refl | with_reducible assumption | (apply Sub.of; rfl) | (apply Has.of; rfl) | intro _ | with_reducible apply ite_eff
    | with_reducible apply ite_ran | (with_reducible apply onlyIf_eff) | with_reducible apply onEng_ran
    | (with_reducible apply Eff.step; with_reducible apply finishReset_eff) | split | dsimp only [id]

theorem execCommandDoorbell_ran (vh slice : Nat) (wide : Bool) (index : Nat) (entries : List (List Byte)) (s : State) : Ran 0x1811f s (execCommandDoorbell vh slice wide index entries s) := by
  unfold execCommandDoorbell
  try dsimp only
  repeat' first
    | with_reducible apply Eff.refl | with_reducible assumption | (apply Sub.of; rfl) | (apply Has.of; rfl) | intro _ | with_reducible apply ite_eff
    | with_reducible apply ite_ran | with_reducible apply onEng_ran | (with_reducible apply Eff.step; with_reducible apply bump_eff)
    | (with_reducible apply bell_eff) | (with_reducible apply Eff.step; with_reducible apply updSlice_eff) | split | dsimp only [id]

theorem serveEntry_eff (n : Nat) (e data : List Byte) (pages : List Nat) (ok : Bool) (d : Dev) : Eff 0x1811f d (serveEntry n e data pages ok d) := by
  unfold serveEntry
  try dsimp only
  repeat' first
    | with_reducible apply Eff.refl | with_reducible assumption | (apply Sub.of; rfl) | (apply Has.of; rfl) | intro _ | with_reducible apply ite_eff
    | (with_reducible apply Eff.step; with_reducible apply qpcRun_eff)
    | (with_reducible apply Eff.step; with_reducible apply eff_snd3; assumption; with_reducible apply qpcRun_eff)
    | (with_reducible apply Eff.step; with_reducible apply ringDone_eff) | (with_reducible apply Eff.step; with_reducible apply mrgRun_eff)
    | (with_reducible apply Eff.step; with_reducible apply eff_snd5; assumption; with_reducible apply mrgRun_eff)
    | (with_reducible apply Eff.step; with_reducible apply updEng_eff) | (with_reducible apply Eff.step; with_reducible apply mteRun_eff)
    | (with_reducible apply Eff.step; with_reducible apply eff_snd4; assumption; with_reducible apply mteRun_eff) | split | dsimp only [id]

theorem execCommandRingEntry_ran (slice : Nat) (data : List Byte) (pages : List Nat) (ok : Bool) (s : State) : Ran 0x1811f s (execCommandRingEntry slice data pages ok s) := by
  unfold execCommandRingEntry
  try dsimp only
  repeat' first
    | with_reducible apply Eff.refl | with_reducible assumption | (apply Sub.of; rfl) | (apply Has.of; rfl) | intro _ | with_reducible apply ite_eff
    | with_reducible apply ite_ran | with_reducible apply onEng_ran | (with_reducible apply Eff.step; with_reducible apply serveEntry_eff) | split
    | dsimp only [id]

theorem execEventRingDoorbell_ran (vh slice value : Nat) (s : State) : Ran 0x1811f s (execEventRingDoorbell vh slice value s) := by
  unfold execEventRingDoorbell
  try dsimp only
  repeat' first
    | with_reducible apply Eff.refl | with_reducible assumption | (apply Sub.of; rfl) | (apply Has.of; rfl) | intro _ | with_reducible apply ite_eff
    | with_reducible apply ite_ran | with_reducible apply onEng_ran | (with_reducible apply bell_eff)
    | (with_reducible apply Eff.step; with_reducible apply serveEvr_eff) | split | dsimp only [id]

theorem execMsixUnmask_ran (vh vec : Nat) (s : State) : Ran 0x1811f s (execMsixUnmask vh vec s) := by
  unfold execMsixUnmask
  try dsimp only
  repeat' first
    | with_reducible apply Eff.refl | with_reducible assumption | (apply Sub.of; rfl) | (apply Has.of; rfl) | intro _ | with_reducible apply ite_eff
    | with_reducible apply ite_ran | with_reducible apply onEng_ran | (with_reducible apply Eff.step; with_reducible apply updFun_eff)
    | (with_reducible apply Eff.step; with_reducible apply sendPended_eff) | split | dsimp only [id]

theorem addAtc_eff (e : AtcEntry) (d : Dev) : Eff 0x10000 d (addAtc e d) := by
  unfold addAtc
  try dsimp only
  repeat' first
    | with_reducible apply Eff.refl | with_reducible assumption | (apply Sub.of; rfl) | (apply Has.of; rfl) | intro _ | with_reducible apply ite_eff
    | (with_reducible apply Eff.step; with_reducible apply updEng_eff) | split | dsimp only [id]

theorem noPermission_eff (a : Access) (d : Dev) : Eff 0x3811f d (noPermission a d) := by
  unfold noPermission
  try dsimp only
  repeat' first
    | with_reducible apply Eff.refl | with_reducible assumption | (apply Sub.of; rfl) | (apply Has.of; rfl) | intro _ | with_reducible apply ite_eff
    | (with_reducible apply Eff.step; with_reducible apply bump_eff) | (with_reducible apply Eff.step; with_reducible apply emit_eff)
    | (with_reducible apply Eff.step; with_reducible apply updEng_eff) | (with_reducible apply Eff.step; with_reducible apply accessFault_eff) | split
    | dsimp only [id]

theorem ringNoPermission_eff (w : RingWait) (d : Dev) : Eff 0x1011f d (ringNoPermission w d) := by
  unfold ringNoPermission
  try dsimp only
  repeat' first
    | with_reducible apply Eff.refl | with_reducible assumption | (apply Sub.of; rfl) | (apply Has.of; rfl) | intro _ | with_reducible apply ite_eff
    | (with_reducible apply Eff.step; with_reducible apply bump_eff) | (with_reducible apply Eff.step; with_reducible apply emit_eff)
    | (with_reducible apply Eff.step; with_reducible apply updEng_eff) | (with_reducible apply Eff.step; with_reducible apply ringWaitFault_eff)
    | split | dsimp only [id]

theorem translated_eff (v : Nat) (pasid : Option Nat) (page : Nat) (ok : Bool) (to_ : Nat) (read write : Bool) (d : Dev) : Eff 0x3891f d (translated v pasid page ok to_ read write d) := by
  unfold translated
  try dsimp only
  repeat' first
    | with_reducible apply Eff.refl | with_reducible assumption | (apply Sub.of; rfl) | (apply Has.of; rfl) | intro _ | with_reducible apply ite_eff
    | (with_reducible apply onlyIf_eff) | (with_reducible apply forEach_eff) | (with_reducible apply Eff.step; with_reducible apply addAtc_eff)
    | (with_reducible apply Eff.step; with_reducible apply updEng_eff) | (with_reducible apply Eff.step; with_reducible apply noPermission_eff)
    | (with_reducible apply Eff.step; with_reducible apply issueAll_eff) | (with_reducible apply Eff.step; with_reducible apply ringRun_eff)
    | (with_reducible apply Eff.step; with_reducible apply ringNoPermission_eff) | split | dsimp only [id]

theorem execAtsTranslationCompletion_ran (vh pasid page : Nat) (ok : Bool) (to_ : Nat) (read write : Bool) (s : State) : Ran 0x3891f s (execAtsTranslationCompletion vh pasid page ok to_ read write s) := by
  unfold execAtsTranslationCompletion
  try dsimp only
  repeat' first
    | with_reducible apply Eff.refl | with_reducible assumption | (apply Sub.of; rfl) | (apply Has.of; rfl) | intro _ | with_reducible apply ite_eff
    | with_reducible apply ite_ran | with_reducible apply onEng_ran | (with_reducible apply Eff.step; with_reducible apply translated_eff) | split
    | dsimp only [id]

theorem askAgain_eff (v : Nat) (pasid : Option Nat) (page : Nat) (d : Dev) : Eff 0x1000d d (askAgain v pasid page d) := by
  unfold askAgain
  try dsimp only
  repeat' first
    | with_reducible apply Eff.refl | with_reducible assumption | (apply Sub.of; rfl) | (apply Has.of; rfl) | intro _ | with_reducible apply ite_eff
    | (with_reducible apply onlyIf_eff) | (with_reducible apply Eff.step; with_reducible apply updEng_eff)
    | (with_reducible apply Eff.step; with_reducible apply askPage_eff) | split | dsimp only [id]

theorem prgFailed_eff (v : Nat) (pasid : Option Nat) (page : Nat) (d : Dev) : Eff 0x3811f d (prgFailed v pasid page d) := by
  unfold prgFailed
  try dsimp only
  repeat' first
    | with_reducible apply Eff.refl | with_reducible assumption | (apply Sub.of; rfl) | (apply Has.of; rfl) | intro _ | with_reducible apply ite_eff
    | (with_reducible apply forEach_eff) | (with_reducible apply Eff.step; with_reducible apply accessFault_eff)
    | (with_reducible apply Eff.step; with_reducible apply issueAll_eff) | (with_reducible apply Eff.step; with_reducible apply ringWaitFault_eff)
    | split | dsimp only [id]

theorem execPrgResponse_ran (vh pasid page : Nat) (ok : Bool) (s : State) : Ran 0x3811f s (execPrgResponse vh pasid page ok s) := by
  unfold execPrgResponse
  try dsimp only
  repeat' first
    | with_reducible apply Eff.refl | with_reducible assumption | (apply Sub.of; rfl) | (apply Has.of; rfl) | intro _ | with_reducible apply ite_eff
    | with_reducible apply ite_ran | (with_reducible apply forEach_eff) | with_reducible apply onEng_ran
    | (with_reducible apply Eff.step; with_reducible apply updEng_eff) | (with_reducible apply Eff.step; with_reducible apply askPage_eff)
    | (with_reducible apply Eff.step; with_reducible apply askAgain_eff) | (with_reducible apply Eff.step; with_reducible apply prgFailed_eff) | split
    | dsimp only [id]

theorem execPageRequestTimeout_ran (vh pasid page : Nat) (s : State) : Ran 0x3811f s (execPageRequestTimeout vh pasid page s) := by
  unfold execPageRequestTimeout
  try dsimp only
  repeat' first
    | with_reducible apply Eff.refl | with_reducible assumption | (apply Sub.of; rfl) | (apply Has.of; rfl) | intro _ | with_reducible apply ite_eff
    | with_reducible apply ite_ran | with_reducible apply onEng_ran | (with_reducible apply Eff.step; with_reducible apply prgFailed_eff) | split
    | dsimp only [id]

theorem execAtsInvalidateRequest_ran (vh itag pasid page pages : Nat) (s : State) : Ran 0x1811f s (execAtsInvalidateRequest vh itag pasid page pages s) := by
  unfold execAtsInvalidateRequest
  try dsimp only
  repeat' first
    | with_reducible apply Eff.refl | with_reducible assumption | (apply Sub.of; rfl) | (apply Has.of; rfl) | intro _ | with_reducible apply ite_eff
    | with_reducible apply ite_ran | with_reducible apply onEng_ran | (with_reducible apply Eff.step; with_reducible apply updEng_eff) | split
    | dsimp only [id]

theorem execAtsInvalidateComplete_ran (vh itag : Nat) (s : State) : Ran 0x1811f s (execAtsInvalidateComplete vh itag s) := by
  unfold execAtsInvalidateComplete
  try dsimp only
  repeat' first
    | with_reducible apply Eff.refl | with_reducible assumption | (apply Sub.of; rfl) | (apply Has.of; rfl) | intro _ | with_reducible apply ite_eff
    | with_reducible apply ite_ran | with_reducible apply onEng_ran | (with_reducible apply Eff.step; with_reducible apply updEng_eff)
    | (with_reducible apply Eff.step; with_reducible apply bump_eff) | (with_reducible apply Eff.step; with_reducible apply emit_eff) | split
    | dsimp only [id]

end Sys2Proof.Machine
end

