-- ==== Sys2Proof/Laws/EffSwOps.lean ====
section
/-!
SUPPORT. What each function of Machine/SwOps.lean can change.
-/

namespace Sys2Proof.Machine

theorem updSw_eff (f : Sw → Sw) (d : Dev) : Eff 0x40000 d (updSw f d) := by
  unfold updSw
  try dsimp only
  repeat' first
    | with_reducible apply Eff.refl | with_reducible assumption | (apply Sub.of; rfl) | (apply Has.of; rfl) | intro _ | with_reducible apply ite_eff
    | (with_reducible apply Eff.last; with_reducible apply Prim.sw) | split | dsimp only [id]

theorem updSwPort_eff (k : Nat) (f : SwPort → SwPort) (d : Dev) : Eff 0x40000 d (updSwPort k f d) := by
  unfold updSwPort
  try dsimp only
  repeat' first
    | with_reducible apply Eff.refl | with_reducible assumption | (apply Sub.of; rfl) | (apply Has.of; rfl) | intro _ | with_reducible apply ite_eff
    | (with_reducible apply Eff.step; with_reducible apply updSw_eff) | split | dsimp only [id]

theorem putSwCfg_eff (key off val : Nat) (d : Dev) : Eff 0x40000 d (putSwCfg key off val d) := by
  unfold putSwCfg
  try dsimp only
  repeat' first
    | with_reducible apply Eff.refl | with_reducible assumption | (apply Sub.of; rfl) | (apply Has.of; rfl) | intro _ | with_reducible apply ite_eff
    | (with_reducible apply foldl_eff) | (with_reducible apply Eff.step; with_reducible apply updSw_eff) | split | dsimp only [id]

theorem resetSwCfg_eff (key : Nat) (d : Dev) : Eff 0x40000 d (resetSwCfg key d) := by
  unfold resetSwCfg
  try dsimp only
  repeat' first
    | with_reducible apply Eff.refl | with_reducible assumption | (apply Sub.of; rfl) | (apply Has.of; rfl) | intro _ | with_reducible apply ite_eff
    | (with_reducible apply Eff.step; with_reducible apply updSw_eff) | split | dsimp only [id]

theorem queueTlp_eff (inP p : Nat) (t : Tlp) (d : Dev) : Eff 0x1811d d (queueTlp inP p t d) := by
  unfold queueTlp
  try dsimp only
  repeat' first
    | with_reducible apply Eff.refl | with_reducible assumption | (apply Sub.of; rfl) | (apply Has.of; rfl) | intro _ | with_reducible apply ite_eff
    | (with_reducible apply onlyIf_eff) | (with_reducible apply Eff.step; with_reducible apply bump_eff)
    | (with_reducible apply Eff.step; with_reducible apply pushPkt_eff) | (with_reducible apply Eff.step; with_reducible apply settle_eff) | split
    | dsimp only [id]

theorem notePoison_eff (k : Nat) (d : Dev) : Eff 0x4011d d (notePoison k d) := by
  unfold notePoison
  try dsimp only
  repeat' first
    | with_reducible apply Eff.refl | with_reducible assumption | (apply Sub.of; rfl) | (apply Has.of; rfl) | intro _ | with_reducible apply ite_eff
    | (with_reducible apply onlyIf_eff) | (with_reducible apply Eff.step; with_reducible apply bump_eff)
    | (with_reducible apply Eff.step; with_reducible apply updSwPort_eff) | (with_reducible apply Eff.step; with_reducible apply raise_eff) | split
    | dsimp only [id]

theorem toExp_eff (inP k : Nat) (t : Tlp) (d : Dev) : Eff 0x5811d d (toExp inP k t d) := by
  unfold toExp
  try dsimp only
  repeat' first
    | with_reducible apply Eff.refl | with_reducible assumption | (apply Sub.of; rfl) | (apply Has.of; rfl) | intro _ | with_reducible apply ite_eff
    | (with_reducible apply onlyIf_eff) | (with_reducible apply Eff.step; with_reducible apply notePoison_eff)
    | (with_reducible apply Eff.step; with_reducible apply bump_eff) | (with_reducible apply Eff.step; with_reducible apply queueTlp_eff) | split
    | dsimp only [id]

theorem updTx_eff (m c : Nat) (f : CompTx → CompTx) (d : Dev) : Eff 0x40000 d (updTx m c f d) := by
  unfold updTx
  try dsimp only
  repeat' first
    | with_reducible apply Eff.refl | with_reducible assumption | (apply Sub.of; rfl) | (apply Has.of; rfl) | intro _ | with_reducible apply ite_eff
    | (with_reducible apply Eff.step; with_reducible apply updSw_eff) | split | dsimp only [id]

theorem updRx_eff (m c : Nat) (f : CompRx → CompRx) (d : Dev) : Eff 0x40000 d (updRx m c f d) := by
  unfold updRx
  try dsimp only
  repeat' first
    | with_reducible apply Eff.refl | with_reducible assumption | (apply Sub.of; rfl) | (apply Has.of; rfl) | intro _ | with_reducible apply ite_eff
    | (with_reducible apply Eff.step; with_reducible apply updSw_eff) | split | dsimp only [id]

theorem sendComp_eff (inP : Nat) (p : CompPkt) (d : Dev) : Eff 0x1811d d (sendComp inP p d) := by
  unfold sendComp
  try dsimp only
  repeat' first
    | with_reducible apply Eff.refl | with_reducible assumption | (apply Sub.of; rfl) | (apply Has.of; rfl) | intro _ | with_reducible apply ite_eff
    | (with_reducible apply Eff.step; with_reducible apply takeFree_eff) | (with_reducible apply Eff.step; with_reducible apply injectHeader_eff)
    | (with_reducible apply Eff.step; with_reducible apply eff_snd; assumption; with_reducible apply injectHeader_eff)
    | (with_reducible apply Eff.step; with_reducible apply emit_eff) | (with_reducible apply Eff.step; with_reducible apply pushPkt_eff)
    | (with_reducible apply Eff.step; with_reducible apply lookUp_eff) | (with_reducible apply Eff.step; with_reducible apply settle_eff) | split
    | dsimp only [id]

theorem holdCells_eff (inP : Nat) (t : Tlp) (d : Dev) : Eff 0x811d d (holdCells inP t d) := by
  unfold holdCells
  try dsimp only
  repeat' first
    | with_reducible apply Eff.refl | with_reducible assumption | (apply Sub.of; rfl) | (apply Has.of; rfl) | intro _ | with_reducible apply ite_eff
    | (with_reducible apply Eff.step; with_reducible apply pushPkt_eff) | (with_reducible apply Eff.step; with_reducible apply admitCells_eff)
    | (with_reducible apply Eff.step; with_reducible apply markIn_eff) | (with_reducible apply Eff.step; with_reducible apply mirrorPkt_eff) | split
    | dsimp only [id]

theorem streamSend_eff (inP : Nat) (p : CompPkt) (hold : Nat) (d : Dev) : Eff 0x5811d d (streamSend inP p hold d) := by
  unfold streamSend
  try dsimp only
  repeat' first
    | with_reducible apply Eff.refl | with_reducible assumption | (apply Sub.of; rfl) | (apply Has.of; rfl) | intro _ | with_reducible apply ite_eff
    | (with_reducible apply Eff.step; with_reducible apply updTx_eff) | (with_reducible apply Eff.step; with_reducible apply bump_eff)
    | (with_reducible apply Eff.step; with_reducible apply sendComp_eff) | split | dsimp only [id]

theorem toMember_eff (inP m cvh dexp ld : Nat) (t : Tlp) (d : Dev) : Eff 0x5811d d (toMember inP m cvh dexp ld t d) := by
  unfold toMember
  try dsimp only
  repeat' first
    | with_reducible apply Eff.refl | with_reducible assumption | (apply Sub.of; rfl) | (apply Has.of; rfl) | intro _ | with_reducible apply ite_eff
    | (with_reducible apply Eff.step; with_reducible apply holdCells_eff) | (with_reducible apply Eff.step; with_reducible apply streamSend_eff)
    | split | dsimp only [id]

theorem sendFar_eff (w : FarWait) (d : Dev) : Eff 0x5811d d (sendFar w d) := by
  unfold sendFar
  try dsimp only
  repeat' first
    | with_reducible apply Eff.refl | with_reducible assumption | (apply Sub.of; rfl) | (apply Has.of; rfl) | intro _ | with_reducible apply ite_eff
    | (with_reducible apply Eff.step; with_reducible apply updSw_eff) | (with_reducible apply Eff.step; with_reducible apply streamSend_eff) | split
    | dsimp only [id]

theorem sendFars_eff  (fuel : Nat) (d : Dev) : Eff 0x5811d d (sendFars  fuel d) := by
  induction fuel generalizing d with
  | zero =>
    unfold sendFars
    try dsimp only
    repeat' first
      | with_reducible apply Eff.refl | with_reducible assumption | (apply Sub.of; rfl) | (apply Has.of; rfl) | intro _ | with_reducible apply ite_eff
      | (with_reducible apply Eff.step; with_reducible apply updSw_eff) | (with_reducible apply Eff.step; with_reducible apply sendFar_eff) | split
      | dsimp only [id]
  | succ fuel ih =>
    unfold sendFars
    try dsimp only
    repeat' first
      | (with_reducible apply Eff.step; with_reducible apply ih)
      | with_reducible apply Eff.refl | with_reducible assumption | (apply Sub.of; rfl) | (apply Has.of; rfl) | intro _ | with_reducible apply ite_eff
      | (with_reducible apply Eff.step; with_reducible apply updSw_eff) | (with_reducible apply Eff.step; with_reducible apply sendFar_eff) | split
      | dsimp only [id]

theorem toFar_eff (inP m cvh dexp ld : Nat) (who : NpReq) (t : Tlp) (d : Dev) : Eff 0x5811d d (toFar inP m cvh dexp ld who t d) := by
  unfold toFar
  try dsimp only
  repeat' first
    | with_reducible apply Eff.refl | with_reducible assumption | (apply Sub.of; rfl) | (apply Has.of; rfl) | intro _ | with_reducible apply ite_eff
    | (with_reducible apply Eff.step; with_reducible apply toMember_eff) | (with_reducible apply Eff.step; with_reducible apply holdCells_eff)
    | (with_reducible apply Eff.step; with_reducible apply updSw_eff) | (with_reducible apply Eff.step; with_reducible apply sendFars_eff) | split
    | dsimp only [id]

theorem sendAckTo_eff (m c : Nat) (d : Dev) : Eff 0x5811d d (sendAckTo m c d) := by
  unfold sendAckTo
  try dsimp only
  repeat' first
    | with_reducible apply Eff.refl | with_reducible assumption | (apply Sub.of; rfl) | (apply Has.of; rfl) | intro _ | with_reducible apply ite_eff
    | (with_reducible apply Eff.step; with_reducible apply updRx_eff) | (with_reducible apply Eff.step; with_reducible apply sendComp_eff) | split
    | dsimp only [id]

theorem answerWith_eff (r : NpReq) (t : Tlp) (d : Dev) : Eff 0x5811d d (answerWith r t d) := by
  unfold answerWith
  try dsimp only
  repeat' first
    | with_reducible apply Eff.refl | with_reducible assumption | (apply Sub.of; rfl) | (apply Has.of; rfl) | intro _ | with_reducible apply ite_eff
    | (with_reducible apply Eff.step; with_reducible apply holdCells_eff) | (with_reducible apply Eff.step; with_reducible apply streamSend_eff)
    | (with_reducible apply Eff.step; with_reducible apply toExp_eff) | (with_reducible apply Eff.step; with_reducible apply toMember_eff) | split
    | dsimp only [id]

theorem answerReq_eff (r : NpReq) (completer status : Nat) (d : Dev) : Eff 0x5811d d (answerReq r completer status d) := by
  unfold answerReq
  try dsimp only
  repeat' first
    | with_reducible apply Eff.refl | with_reducible assumption | (apply Sub.of; rfl) | (apply Has.of; rfl) | intro _ | with_reducible apply ite_eff
    | (with_reducible apply Eff.step; with_reducible apply answerWith_eff) | split | dsimp only [id]

theorem toDsp_eff (inP k : Nat) (who : NpReq) (t : Tlp) (d : Dev) : Eff 0x5811d d (toDsp inP k who t d) := by
  unfold toDsp
  try dsimp only
  repeat' first
    | with_reducible apply Eff.refl | with_reducible assumption | (apply Sub.of; rfl) | (apply Has.of; rfl) | intro _ | with_reducible apply ite_eff
    | (with_reducible apply onlyIf_eff) | (with_reducible apply Eff.step; with_reducible apply bump_eff)
    | (with_reducible apply Eff.step; with_reducible apply answerReq_eff) | (with_reducible apply Eff.step; with_reducible apply updSwPort_eff)
    | (with_reducible apply Eff.step; with_reducible apply wr_eff) | (with_reducible apply Eff.step; with_reducible apply toExp_eff) | split
    | dsimp only [id]

theorem toDev_eff (inP v n : Nat) (t : Tlp) (d : Dev) : Eff 0x5811d d (toDev inP v n t d) := by
  unfold toDev
  try dsimp only
  repeat' first
    | with_reducible apply Eff.refl | with_reducible assumption | (apply Sub.of; rfl) | (apply Has.of; rfl) | intro _ | with_reducible apply ite_eff
    | (with_reducible apply Eff.step; with_reducible apply toDsp_eff) | (with_reducible apply Eff.step; with_reducible apply toFar_eff) | split
    | dsimp only [id]

theorem msixWrite_eff (v off val : Nat) (d : Dev) : Eff 0x10005 d (msixWrite v off val d) := by
  unfold msixWrite
  try dsimp only
  repeat' first
    | with_reducible apply Eff.refl | with_reducible assumption | (apply Sub.of; rfl) | (apply Has.of; rfl) | intro _ | with_reducible apply ite_eff
    | (with_reducible apply Eff.step; with_reducible apply updFun_eff) | (with_reducible apply Eff.step; with_reducible apply sendPended_eff) | split
    | dsimp only [id]

theorem barWrite_eff (v : Nat) (t : Tlp) (d : Dev) : Eff 0x10005 d (barWrite v t d) := by
  unfold barWrite
  try dsimp only
  repeat' first
    | with_reducible apply Eff.refl | with_reducible assumption | (apply Sub.of; rfl) | (apply Has.of; rfl) | intro _ | with_reducible apply ite_eff
    | (with_reducible apply forEach_eff) | (with_reducible apply Eff.step; with_reducible apply msixWrite_eff) | split | dsimp only [id]

theorem toFn_eff (v which : Nat) (t : Tlp) (d : Dev) : Eff 0x5811d d (toFn v which t d) := by
  unfold toFn
  try dsimp only
  repeat' first
    | with_reducible apply Eff.refl | with_reducible assumption | (apply Sub.of; rfl) | (apply Has.of; rfl) | intro _ | with_reducible apply ite_eff
    | (with_reducible apply Eff.step; with_reducible apply emit_eff) | (with_reducible apply Eff.step; with_reducible apply answerWith_eff)
    | (with_reducible apply Eff.step; with_reducible apply barWrite_eff) | split | dsimp only [id]

theorem toDest_eff (inP from_ v : Nat) (t : Tlp) (x : SwDest) (d : Dev) : Eff 0x5811d d (toDest inP from_ v t x d) := by
  unfold toDest
  try dsimp only
  repeat' first
    | with_reducible apply Eff.refl | with_reducible assumption | (apply Sub.of; rfl) | (apply Has.of; rfl) | intro _ | with_reducible apply ite_eff
    | (with_reducible apply onlyIf_eff) | (with_reducible apply forEach_eff) | (with_reducible apply Eff.step; with_reducible apply answerReq_eff)
    | (with_reducible apply Eff.step; with_reducible apply toExp_eff) | (with_reducible apply Eff.step; with_reducible apply toDev_eff)
    | (with_reducible apply Eff.step; with_reducible apply toFn_eff) | (with_reducible apply Eff.step; with_reducible apply bump_eff)
    | (with_reducible apply Eff.step; with_reducible apply updSw_eff) | split | dsimp only [id]

end Sys2Proof.Machine
end

