-- ==== Sys2Proof/Laws/EffCmpOps.lean ====
section
/-!
SUPPORT. What each function of Machine/CmpOps.lean can change.
-/

namespace Sys2Proof.Machine

theorem updCmp_eff (f : Composite → Composite) (d : Dev) : Eff 0x2000 d (updCmp f d) := by
  unfold updCmp
  try dsimp only
  repeat' first
    | with_reducible apply Eff.refl | with_reducible assumption | (apply Sub.of; rfl) | (apply Has.of; rfl) | intro _ | with_reducible apply ite_eff
    | (with_reducible apply Eff.last; with_reducible apply Prim.cmp) | split | dsimp only [id]

theorem showCmp_eff (d : Dev) : Eff 0x1 d (showCmp d) := by
  unfold showCmp
  try dsimp only
  repeat' first
    | with_reducible apply Eff.refl | with_reducible assumption | (apply Sub.of; rfl) | (apply Has.of; rfl) | intro _ | with_reducible apply ite_eff
    | (with_reducible apply foldl_eff) | (with_reducible apply Eff.step; with_reducible apply wr_eff)
    | (with_reducible apply Eff.step; with_reducible apply wr2_eff) | split | dsimp only [id]

theorem setRoles_eff (anchor standby : Option Nat) (d : Dev) : Eff 0x2001 d (setRoles anchor standby d) := by
  unfold setRoles
  try dsimp only
  repeat' first
    | with_reducible apply Eff.refl | with_reducible assumption | (apply Sub.of; rfl) | (apply Has.of; rfl) | intro _ | with_reducible apply ite_eff
    | (with_reducible apply Eff.step; with_reducible apply updCmp_eff) | (with_reducible apply Eff.step; with_reducible apply showCmp_eff) | split
    | dsimp only [id]

theorem standbyLost_eff (m : Nat) (d : Dev) : Eff 0x2001 d (standbyLost m d) := by
  unfold standbyLost
  try dsimp only
  repeat' first
    | with_reducible apply Eff.refl | with_reducible assumption | (apply Sub.of; rfl) | (apply Has.of; rfl) | intro _ | with_reducible apply ite_eff
    | (with_reducible apply Eff.step; with_reducible apply setRoles_eff) | split | dsimp only [id]

end Sys2Proof.Machine
end

