-- ==== Sys2Proof/Laws/EffExpOps.lean ====
section
/-!
SUPPORT. What each function of Machine/ExpOps.lean can change.
-/

namespace Sys2Proof.Machine

theorem drivePerst_eff (k : Nat) (high : Bool) (d : Dev) : Eff 0x40004 d (drivePerst k high d) := by
  unfold drivePerst
  try dsimp only
  repeat' first
    | with_reducible apply Eff.refl | with_reducible assumption | (apply Sub.of; rfl) | (apply Has.of; rfl) | intro _ | with_reducible apply ite_eff
    | (with_reducible apply onlyIf_eff) | (with_reducible apply Eff.step; with_reducible apply updSwPort_eff)
    | (with_reducible apply Eff.step; with_reducible apply emit_eff) | split | dsimp only [id]

theorem portMsi_eff (v n : Nat) (d : Dev) : Eff 0x4 d (portMsi v n d) := by
  unfold portMsi
  try dsimp only
  repeat' first
    | with_reducible apply Eff.refl | with_reducible assumption | (apply Sub.of; rfl) | (apply Has.of; rfl) | intro _ | with_reducible apply ite_eff
    | (with_reducible apply onlyIf_eff) | (with_reducible apply Eff.step; with_reducible apply emit_eff) | split | dsimp only [id]

theorem slotChange_eff (bit : Nat) (v n : Nat) (d : Dev) : Eff 0x40004 d (slotChange bit v n d) := by
  unfold slotChange
  try dsimp only
  repeat' first
    | with_reducible apply Eff.refl | with_reducible assumption | (apply Sub.of; rfl) | (apply Has.of; rfl) | intro _ | with_reducible apply ite_eff
    | (with_reducible apply onlyIf_eff) | (with_reducible apply Eff.step; with_reducible apply putSwCfg_eff)
    | (with_reducible apply Eff.step; with_reducible apply portMsi_eff) | split | dsimp only [id]

theorem aerReport_eff (v key id bit : Nat) (d : Dev) : Eff 0x5811d d (aerReport v key id bit d) := by
  unfold aerReport
  try dsimp only
  repeat' first
    | with_reducible apply Eff.refl | with_reducible assumption | (apply Sub.of; rfl) | (apply Has.of; rfl) | intro _ | with_reducible apply ite_eff
    | (with_reducible apply onlyIf_eff) | (with_reducible apply Eff.step; with_reducible apply putSwCfg_eff)
    | (with_reducible apply Eff.step; with_reducible apply toExp_eff) | split | dsimp only [id]

theorem poisonSeen_eff (k ld : Nat) (d : Dev) : Eff 0x5811d d (poisonSeen k ld d) := by
  unfold poisonSeen
  try dsimp only
  repeat' first
    | with_reducible apply Eff.refl | with_reducible assumption | (apply Sub.of; rfl) | (apply Has.of; rfl) | intro _ | with_reducible apply ite_eff
    | (with_reducible apply forEach_eff) | (with_reducible apply Eff.step; with_reducible apply aerReport_eff)
    | (with_reducible apply Eff.step; with_reducible apply emit_eff) | split | dsimp only [id]

theorem portChange_eff (bit k : Nat) (d : Dev) : Eff 0x40004 d (portChange bit k d) := by
  unfold portChange
  try dsimp only
  repeat' first
    | with_reducible apply Eff.refl | with_reducible assumption | (apply Sub.of; rfl) | (apply Has.of; rfl) | intro _ | with_reducible apply ite_eff
    | (with_reducible apply forEach_eff) | (with_reducible apply Eff.step; with_reducible apply slotChange_eff)
    | (with_reducible apply Eff.step; with_reducible apply emit_eff) | split | dsimp only [id]

theorem dpcStatus_eff (v n : Nat) (d : Dev) : Eff 0x40004 d (dpcStatus v n d) := by
  unfold dpcStatus
  try dsimp only
  repeat' first
    | with_reducible apply Eff.refl | with_reducible assumption | (apply Sub.of; rfl) | (apply Has.of; rfl) | intro _ | with_reducible apply ite_eff
    | (with_reducible apply onlyIf_eff) | (with_reducible apply Eff.step; with_reducible apply putSwCfg_eff)
    | (with_reducible apply Eff.step; with_reducible apply portMsi_eff) | split | dsimp only [id]

theorem dropQueued_eff (p : Nat) (d : Dev) : Eff 0x1811d d (dropQueued p d) := by
  unfold dropQueued
  try dsimp only
  repeat' first
    | with_reducible apply Eff.refl | with_reducible assumption | (apply Sub.of; rfl) | (apply Has.of; rfl) | intro _ | with_reducible apply ite_eff
    | (with_reducible apply forEach_eff) | (with_reducible apply Eff.step; with_reducible apply dropPkt_eff)
    | (with_reducible apply Eff.step; with_reducible apply failPkt_eff) | split | dsimp only [id]

theorem dlDown_eff (k : Nat) (d : Dev) : Eff 0x5811d d (dlDown k d) := by
  unfold dlDown
  try dsimp only
  repeat' first
    | with_reducible apply Eff.refl | with_reducible assumption | (apply Sub.of; rfl) | (apply Has.of; rfl) | intro _ | with_reducible apply ite_eff
    | (with_reducible apply onlyIf_eff) | (with_reducible apply forEach_eff) | (with_reducible apply Eff.step; with_reducible apply wr_eff)
    | (with_reducible apply Eff.step; with_reducible apply bump_eff) | (with_reducible apply Eff.step; with_reducible apply updPort_eff)
    | (with_reducible apply Eff.step; with_reducible apply laneBegin_eff) | (with_reducible apply Eff.step; with_reducible apply expTrain_eff)
    | (with_reducible apply Eff.step; with_reducible apply dropQueued_eff) | (with_reducible apply Eff.step; with_reducible apply raise_eff)
    | (with_reducible apply Eff.step; with_reducible apply portChange_eff) | (with_reducible apply Eff.step; with_reducible apply updSwPort_eff)
    | split | dsimp only [id]

theorem expLanesUp_eff (p speed width : Nat) (t : Training) (d : Dev) : Eff 0x8005 d (expLanesUp p speed width t d) := by
  unfold expLanesUp
  try dsimp only
  repeat' first
    | with_reducible apply Eff.refl | with_reducible assumption | (apply Sub.of; rfl) | (apply Has.of; rfl) | intro _ | with_reducible apply ite_eff
    | (with_reducible apply forEach_eff) | (with_reducible apply Eff.step; with_reducible apply wr_eff)
    | (with_reducible apply Eff.step; with_reducible apply updLane_eff) | (with_reducible apply Eff.step; with_reducible apply emit_eff) | split
    | dsimp only [id]

theorem dlUp_eff (k speed width : Nat) (flit cxl : Bool) (lds : Nat) (t : Training) (d : Dev) : Eff 0x4811d d (dlUp k speed width flit cxl lds t d) := by
  unfold dlUp
  try dsimp only
  repeat' first
    | with_reducible apply Eff.refl | with_reducible assumption | (apply Sub.of; rfl) | (apply Has.of; rfl) | intro _ | with_reducible apply ite_eff
    | (with_reducible apply onlyIf_eff) | (with_reducible apply Eff.step; with_reducible apply wr_eff)
    | (with_reducible apply Eff.step; with_reducible apply updSwPort_eff) | (with_reducible apply Eff.step; with_reducible apply expLanesUp_eff)
    | (with_reducible apply Eff.step; with_reducible apply raise_eff) | (with_reducible apply Eff.step; with_reducible apply portChange_eff) | split
    | dsimp only [id]

theorem showIso_eff (k : Nat) (d : Dev) : Eff 0x9 d (showIso k d) := by
  unfold showIso
  try dsimp only
  repeat' first
    | with_reducible apply Eff.refl | with_reducible assumption | (apply Sub.of; rfl) | (apply Has.of; rfl) | intro _ | with_reducible apply ite_eff
    | (with_reducible apply Eff.step; with_reducible apply wr_eff) | (with_reducible apply Eff.step; with_reducible apply takeFree_eff) | split
    | dsimp only [id]

theorem tryRelease_eff (k : Nat) (d : Dev) : Eff 0x11d d (tryRelease k d) := by
  unfold tryRelease
  try dsimp only
  repeat' first
    | with_reducible apply Eff.refl | with_reducible assumption | (apply Sub.of; rfl) | (apply Has.of; rfl) | intro _ | with_reducible apply ite_eff
    | (with_reducible apply Eff.step; with_reducible apply showIso_eff) | (with_reducible apply Eff.step; with_reducible apply wr_eff)
    | (with_reducible apply Eff.step; with_reducible apply emit_eff) | (with_reducible apply Eff.step; with_reducible apply raise_eff) | split
    | dsimp only [id]

theorem isolate_eff (k cause : Nat) (d : Dev) : Eff 0x5811d d (isolate k cause d) := by
  unfold isolate
  try dsimp only
  repeat' first
    | with_reducible apply Eff.refl | with_reducible assumption | (apply Sub.of; rfl) | (apply Has.of; rfl) | intro _ | with_reducible apply ite_eff
    | (with_reducible apply onlyIf_eff) | (with_reducible apply forEach_eff) | (with_reducible apply Eff.step; with_reducible apply wr_eff)
    | (with_reducible apply Eff.step; with_reducible apply updSwPort_eff) | (with_reducible apply Eff.step; with_reducible apply showIso_eff)
    | (with_reducible apply Eff.step; with_reducible apply bump_eff) | (with_reducible apply Eff.step; with_reducible apply emit_eff)
    | (with_reducible apply Eff.step; with_reducible apply dlDown_eff) | (with_reducible apply Eff.step; with_reducible apply dropQueued_eff)
    | (with_reducible apply Eff.step; with_reducible apply answerReq_eff) | (with_reducible apply Eff.step; with_reducible apply drivePerst_eff)
    | (with_reducible apply Eff.step; with_reducible apply dpcStatus_eff) | (with_reducible apply Eff.step; with_reducible apply raise_eff) | split
    | dsimp only [id]

theorem portHotReset_eff (k : Nat) (d : Dev) : Eff 0x5811d d (portHotReset k d) := by
  unfold portHotReset
  try dsimp only
  repeat' first
    | with_reducible apply Eff.refl | with_reducible assumption | (apply Sub.of; rfl) | (apply Has.of; rfl) | intro _ | with_reducible apply ite_eff
    | (with_reducible apply Eff.step; with_reducible apply emit_eff) | (with_reducible apply Eff.step; with_reducible apply drivePerst_eff)
    | (with_reducible apply Eff.step; with_reducible apply dlDown_eff) | (with_reducible apply Eff.step; with_reducible apply updSwPort_eff)
    | (with_reducible apply Eff.step; with_reducible apply wr_eff) | split | dsimp only [id]

theorem busReset_eff (v : Nat) (d : Dev) : Eff 0x7811f d (busReset v d) := by
  unfold busReset
  try dsimp only
  repeat' first
    | with_reducible apply Eff.refl | with_reducible assumption | (apply Sub.of; rfl) | (apply Has.of; rfl) | intro _ | with_reducible apply ite_eff
    | (with_reducible apply forEach_eff) | (with_reducible apply Eff.step; with_reducible apply resetSwCfg_eff)
    | (with_reducible apply Eff.step; with_reducible apply portHotReset_eff) | (with_reducible apply Eff.step; with_reducible apply emit_eff)
    | (with_reducible apply Eff.step; with_reducible apply flrStart_eff) | split | dsimp only [id]

theorem vhHotReset_eff (v : Nat) (d : Dev) : Eff 0x7811f d (vhHotReset v d) := by
  unfold vhHotReset
  try dsimp only
  repeat' first
    | with_reducible apply Eff.refl | with_reducible assumption | (apply Sub.of; rfl) | (apply Has.of; rfl) | intro _ | with_reducible apply ite_eff
    | (with_reducible apply Eff.step; with_reducible apply resetSwCfg_eff) | (with_reducible apply Eff.step; with_reducible apply busReset_eff)
    | (with_reducible apply Eff.step; with_reducible apply updSw_eff) | (with_reducible apply Eff.step; with_reducible apply raise_eff) | split
    | dsimp only [id]

theorem farHotReset_eff (c : Nat) (d : Dev) : Eff 0x5811d d (farHotReset c d) := by
  unfold farHotReset
  try dsimp only
  repeat' first
    | with_reducible apply Eff.refl | with_reducible assumption | (apply Sub.of; rfl) | (apply Has.of; rfl) | intro _ | with_reducible apply ite_eff
    | (with_reducible apply forEach_eff) | (with_reducible apply Eff.step; with_reducible apply portHotReset_eff) | split | dsimp only [id]

theorem bindPort_eff (k ld c : Nat) (home : Option (Nat × Nat)) (d : Dev) : Eff 0x4011d d (bindPort k ld c home d) := by
  unfold bindPort
  try dsimp only
  repeat' first
    | with_reducible apply Eff.refl | with_reducible assumption | (apply Sub.of; rfl) | (apply Has.of; rfl) | intro _ | with_reducible apply ite_eff
    | (with_reducible apply Eff.step; with_reducible apply updSwPort_eff) | (with_reducible apply Eff.step; with_reducible apply wr_eff)
    | (with_reducible apply Eff.step; with_reducible apply tryRelease_eff) | split | dsimp only [id]

theorem bindDone_eff (v n w : Nat) (d : Dev) : Eff 0x4011d d (bindDone v n w d) := by
  unfold bindDone
  try dsimp only
  repeat' first
    | with_reducible apply Eff.refl | with_reducible assumption | (apply Sub.of; rfl) | (apply Has.of; rfl) | intro _ | with_reducible apply ite_eff
    | (with_reducible apply onlyIf_eff) | (with_reducible apply Eff.step; with_reducible apply updSw_eff)
    | (with_reducible apply Eff.step; with_reducible apply wr_eff) | (with_reducible apply Eff.step; with_reducible apply bindPort_eff)
    | (with_reducible apply Eff.step; with_reducible apply emit_eff) | (with_reducible apply Eff.step; with_reducible apply slotChange_eff)
    | (with_reducible apply Eff.step; with_reducible apply raise_eff) | split | dsimp only [id]

theorem bindGo_eff (v grant : Nat) (val : Word) (d : Dev) : Eff 0x4011d d (bindGo v grant val d) := by
  unfold bindGo
  try dsimp only
  repeat' first
    | with_reducible apply Eff.refl | with_reducible assumption | (apply Sub.of; rfl) | (apply Has.of; rfl) | intro _ | with_reducible apply ite_eff
    | (with_reducible apply Eff.step; with_reducible apply wr_eff) | (with_reducible apply Eff.step; with_reducible apply cfgErr_eff)
    | (with_reducible apply Eff.step; with_reducible apply updSwPort_eff) | (with_reducible apply Eff.step; with_reducible apply bindDone_eff) | split
    | dsimp only [id]

theorem bindFar_eff (c k ld : Nat) (d : Dev) : Eff 0x4011d d (bindFar c k ld d) := by
  unfold bindFar
  try dsimp only
  repeat' first
    | with_reducible apply Eff.refl | with_reducible assumption | (apply Sub.of; rfl) | (apply Has.of; rfl) | intro _ | with_reducible apply ite_eff
    | (with_reducible apply Eff.step; with_reducible apply emit_eff) | (with_reducible apply Eff.step; with_reducible apply updSwPort_eff)
    | (with_reducible apply Eff.step; with_reducible apply bindPort_eff) | split | dsimp only [id]

theorem unbindPort_eff (k ld c : Nat) (d : Dev) : Eff 0x40001 d (unbindPort k ld c d) := by
  unfold unbindPort
  try dsimp only
  repeat' first
    | with_reducible apply Eff.refl | with_reducible assumption | (apply Sub.of; rfl) | (apply Has.of; rfl) | intro _ | with_reducible apply ite_eff
    | (with_reducible apply Eff.step; with_reducible apply updSwPort_eff) | (with_reducible apply Eff.step; with_reducible apply wr_eff) | split
    | dsimp only [id]

theorem unbindGo_eff (v : Nat) (d : Dev) : Eff 0x5811d d (unbindGo v d) := by
  unfold unbindGo
  try dsimp only
  repeat' first
    | with_reducible apply Eff.refl | with_reducible assumption | (apply Sub.of; rfl) | (apply Has.of; rfl) | intro _ | with_reducible apply ite_eff
    | (with_reducible apply Eff.step; with_reducible apply wr_eff) | (with_reducible apply Eff.step; with_reducible apply isolate_eff)
    | (with_reducible apply Eff.step; with_reducible apply unbindPort_eff) | (with_reducible apply Eff.step; with_reducible apply emit_eff)
    | (with_reducible apply Eff.step; with_reducible apply slotChange_eff) | (with_reducible apply Eff.step; with_reducible apply updSw_eff)
    | (with_reducible apply Eff.step; with_reducible apply raise_eff) | split | dsimp only [id]

theorem putPw_eff (i : Nat) (x : List Nat × List Nat) (d : Dev) : Eff 0x40001 d (putPw i x d) := by
  unfold putPw
  try dsimp only
  repeat' first
    | with_reducible apply Eff.refl | with_reducible assumption | (apply Sub.of; rfl) | (apply Has.of; rfl) | intro _ | with_reducible apply ite_eff
    | (with_reducible apply Eff.step; with_reducible apply updSw_eff) | (with_reducible apply Eff.step; with_reducible apply wr_eff) | split
    | dsimp only [id]

theorem pwFences_eff (d : Dev) : Eff 0x4011d d (pwFences d) := by
  unfold pwFences
  try dsimp only
  repeat' first
    | with_reducible apply Eff.refl | with_reducible assumption | (apply Sub.of; rfl) | (apply Has.of; rfl) | intro _ | with_reducible apply ite_eff
    | (with_reducible apply forEach_eff) | (with_reducible apply Eff.step; with_reducible apply updSw_eff)
    | (with_reducible apply Eff.step; with_reducible apply raise_eff) | split | dsimp only [id]

theorem pwCommit_eff (v : Word) (d : Dev) : Eff 0x4011d d (pwCommit v d) := by
  unfold pwCommit
  try dsimp only
  repeat' first
    | with_reducible apply Eff.refl | with_reducible assumption | (apply Sub.of; rfl) | (apply Has.of; rfl) | intro _ | with_reducible apply ite_eff
    | (with_reducible apply Eff.step; with_reducible apply putPw_eff) | (with_reducible apply Eff.step; with_reducible apply updSw_eff)
    | (with_reducible apply Eff.step; with_reducible apply pwFences_eff) | (with_reducible apply Eff.step; with_reducible apply cfgErr_eff) | split
    | dsimp only [id]

theorem pwCmd_eff (bit : Nat) (v : Word) (d : Dev) : Eff 0x4011d d (pwCmd bit v d) := by
  unfold pwCmd
  try dsimp only
  repeat' first
    | with_reducible apply Eff.refl | with_reducible assumption | (apply Sub.of; rfl) | (apply Has.of; rfl) | intro _ | with_reducible apply ite_eff
    | (with_reducible apply forEach_eff) | (with_reducible apply Eff.step; with_reducible apply wrI_eff)
    | (with_reducible apply Eff.step; with_reducible apply putPw_eff) | (with_reducible apply Eff.step; with_reducible apply pwCommit_eff) | split
    | dsimp only [id]

theorem devTlp_eff (inP from_ v n : Nat) (k : Option Nat) (t : Tlp) (d : Dev) : Eff 0x5811d d (devTlp inP from_ v n k t d) := by
  unfold devTlp
  try dsimp only
  repeat' first
    | with_reducible apply Eff.refl | with_reducible assumption | (apply Sub.of; rfl) | (apply Has.of; rfl) | intro _ | with_reducible apply ite_eff
    | (with_reducible apply Eff.step; with_reducible apply updSw_eff) | (with_reducible apply Eff.step; with_reducible apply toDest_eff) | split
    | dsimp only [id]

theorem passComp_eff (p : CompPkt) (d : Dev) : Eff 0x5811d d (passComp p d) := by
  unfold passComp
  try dsimp only
  repeat' first
    | with_reducible apply Eff.refl | with_reducible assumption | (apply Sub.of; rfl) | (apply Has.of; rfl) | intro _ | with_reducible apply ite_eff
    | (with_reducible apply onlyIf_eff) | (with_reducible apply Eff.step; with_reducible apply updSw_eff)
    | (with_reducible apply Eff.step; with_reducible apply toDest_eff) | (with_reducible apply Eff.step; with_reducible apply devTlp_eff)
    | (with_reducible apply Eff.step; with_reducible apply toDsp_eff) | split | dsimp only [id]

theorem releaseStream_eff (src c : Nat) (fuel : Nat) (d : Dev) : Eff 0x5811d d (releaseStream src c fuel d) := by
  induction fuel generalizing d with
  | zero =>
    unfold releaseStream
    try dsimp only
    repeat' first
      | with_reducible apply Eff.refl | with_reducible assumption | (apply Sub.of; rfl) | (apply Has.of; rfl) | intro _ | with_reducible apply ite_eff
      | (with_reducible apply Eff.step; with_reducible apply updRx_eff) | (with_reducible apply Eff.step; with_reducible apply passComp_eff) | split
      | dsimp only [id]
  | succ fuel ih =>
    unfold releaseStream
    try dsimp only
    repeat' first
      | (with_reducible apply Eff.step; with_reducible apply ih)
      | with_reducible apply Eff.refl | with_reducible assumption | (apply Sub.of; rfl) | (apply Has.of; rfl) | intro _ | with_reducible apply ite_eff
      | (with_reducible apply Eff.step; with_reducible apply updRx_eff) | (with_reducible apply Eff.step; with_reducible apply passComp_eff) | split
      | dsimp only [id]

theorem releaseFenced_eff (d : Dev) : Eff 0x5811d d (releaseFenced d) := by
  unfold releaseFenced
  try dsimp only
  repeat' first
    | with_reducible apply Eff.refl | with_reducible assumption | (apply Sub.of; rfl) | (apply Has.of; rfl) | intro _ | with_reducible apply ite_eff
    | (with_reducible apply forEach_eff) | (with_reducible apply Eff.step; with_reducible apply updSw_eff)
    | (with_reducible apply Eff.step; with_reducible apply releaseStream_eff) | (with_reducible apply Eff.step; with_reducible apply sendFars_eff)
    | (with_reducible apply Eff.step; with_reducible apply pwFences_eff) | split | dsimp only [id]

theorem compArrive_eff (p : CompPkt) (d : Dev) : Eff 0x5811d d (compArrive p d) := by
  unfold compArrive
  try dsimp only
  repeat' first
    | with_reducible apply Eff.refl | with_reducible assumption | (apply Sub.of; rfl) | (apply Has.of; rfl) | intro _ | with_reducible apply ite_eff
    | (with_reducible apply onlyIf_eff) | (with_reducible apply Eff.step; with_reducible apply updRx_eff)
    | (with_reducible apply Eff.step; with_reducible apply bump_eff) | (with_reducible apply Eff.step; with_reducible apply passComp_eff)
    | (with_reducible apply Eff.step; with_reducible apply sendAckTo_eff) | (with_reducible apply Eff.step; with_reducible apply releaseFenced_eff)
    | (with_reducible apply Eff.step; with_reducible apply sendComp_eff) | split | dsimp only [id]

theorem sendWaiting_eff (m c : Nat) (fuel : Nat) (d : Dev) : Eff 0x5811d d (sendWaiting m c fuel d) := by
  induction fuel generalizing d with
  | zero =>
    unfold sendWaiting
    try dsimp only
    repeat' first
      | with_reducible apply Eff.refl | with_reducible assumption | (apply Sub.of; rfl) | (apply Has.of; rfl) | intro _ | with_reducible apply ite_eff
      | (with_reducible apply Eff.step; with_reducible apply updTx_eff) | (with_reducible apply Eff.step; with_reducible apply streamSend_eff) | split
      | dsimp only [id]
  | succ fuel ih =>
    unfold sendWaiting
    try dsimp only
    repeat' first
      | (with_reducible apply Eff.step; with_reducible apply ih)
      | with_reducible apply Eff.refl | with_reducible assumption | (apply Sub.of; rfl) | (apply Has.of; rfl) | intro _ | with_reducible apply ite_eff
      | (with_reducible apply Eff.step; with_reducible apply updTx_eff) | (with_reducible apply Eff.step; with_reducible apply streamSend_eff) | split
      | dsimp only [id]

theorem ackStream_eff (m c seq : Nat) (d : Dev) : Eff 0x5811d d (ackStream m c seq d) := by
  unfold ackStream
  try dsimp only
  repeat' first
    | with_reducible apply Eff.refl | with_reducible assumption | (apply Sub.of; rfl) | (apply Has.of; rfl) | intro _ | with_reducible apply ite_eff
    | (with_reducible apply forEach_eff) | (with_reducible apply Eff.step; with_reducible apply updTx_eff)
    | (with_reducible apply Eff.step; with_reducible apply dropPkt_eff) | (with_reducible apply Eff.step; with_reducible apply sendWaiting_eff)
    | split | dsimp only [id]

theorem memberLost_eff (m : Nat) (d : Dev) : Eff 0x5a11d d (memberLost m d) := by
  unfold memberLost
  try dsimp only
  repeat' first
    | with_reducible apply Eff.refl | with_reducible assumption | (apply Sub.of; rfl) | (apply Has.of; rfl) | intro _ | with_reducible apply ite_eff
    | (with_reducible apply forEach_eff) | (with_reducible apply Eff.step; with_reducible apply updSw_eff)
    | (with_reducible apply Eff.step; with_reducible apply bump_eff) | (with_reducible apply Eff.step; with_reducible apply dropPkt_eff)
    | (with_reducible apply Eff.step; with_reducible apply updTx_eff) | (with_reducible apply Eff.step; with_reducible apply updRx_eff)
    | (with_reducible apply Eff.step; with_reducible apply isolate_eff) | (with_reducible apply Eff.step; with_reducible apply answerReq_eff)
    | (with_reducible apply Eff.step; with_reducible apply raise_eff) | (with_reducible apply Eff.step; with_reducible apply standbyLost_eff) | split
    | dsimp only [id]

theorem resendStream_eff (m c : Nat) (d : Dev) : Eff 0x5a11d d (resendStream m c d) := by
  unfold resendStream
  try dsimp only
  repeat' first
    | with_reducible apply Eff.refl | with_reducible assumption | (apply Sub.of; rfl) | (apply Has.of; rfl) | intro _ | with_reducible apply ite_eff
    | (with_reducible apply forEach_eff) | (with_reducible apply Eff.step; with_reducible apply memberLost_eff)
    | (with_reducible apply Eff.step; with_reducible apply updTx_eff) | (with_reducible apply Eff.step; with_reducible apply addI_eff)
    | (with_reducible apply Eff.step; with_reducible apply sendComp_eff) | split | dsimp only [id]

end Sys2Proof.Machine
end

