-- ==== Sys2Proof/Laws/EffSchedOps.lean ====
section
/-!
SUPPORT. What each function of Machine/SchedOps.lean can change.
-/

namespace Sys2Proof.Machine

theorem setTokens_eff (p q : Nat) (t : Int) (d : Dev) : Eff 0x8000 d (setTokens p q t d) := by
  unfold setTokens
  try dsimp only
  repeat' first
    | with_reducible apply Eff.refl | with_reducible assumption | (apply Sub.of; rfl) | (apply Has.of; rfl) | intro _ | with_reducible apply ite_eff
    | (with_reducible apply Eff.step; with_reducible apply updSched_eff) | split | dsimp only [id]

theorem reconfigShaper_eff (p q : Nat) (d : Dev) : Eff 0x8009 d (reconfigShaper p q d) := by
  unfold reconfigShaper
  try dsimp only
  repeat' first
    | with_reducible apply Eff.refl | with_reducible assumption | (apply Sub.of; rfl) | (apply Has.of; rfl) | intro _ | with_reducible apply ite_eff
    | (with_reducible apply Eff.step; with_reducible apply setTokens_eff) | (with_reducible apply Eff.step; with_reducible apply updSched_eff)
    | (with_reducible apply Eff.step; with_reducible apply bump_eff) | split | dsimp only [id]

theorem chargeShaper_eff (p q l : Nat) (d : Dev) : Eff 0x8000 d (chargeShaper p q l d) := by
  unfold chargeShaper
  try dsimp only
  repeat' first
    | with_reducible apply Eff.refl | with_reducible assumption | (apply Sub.of; rfl) | (apply Has.of; rfl) | intro _ | with_reducible apply ite_eff
    | (with_reducible apply onlyIf_eff) | (with_reducible apply Eff.step; with_reducible apply setTokens_eff)
    | (with_reducible apply Eff.step; with_reducible apply updSched_eff) | split | dsimp only [id]

theorem wheelDue_eff (p q : Nat) (d : Dev) : Eff 0x8000 d (wheelDue p q d) := by
  unfold wheelDue
  try dsimp only
  repeat' first
    | with_reducible apply Eff.refl | with_reducible assumption | (apply Sub.of; rfl) | (apply Has.of; rfl) | intro _ | with_reducible apply ite_eff
    | (with_reducible apply Eff.step; with_reducible apply setTokens_eff) | (with_reducible apply Eff.step; with_reducible apply updSched_eff) | split
    | dsimp only [id]

theorem gateRefresh_eff (p : Nat) (d : Dev) : Eff 0x811d d (gateRefresh p d) := by
  unfold gateRefresh
  try dsimp only
  repeat' first
    | with_reducible apply Eff.refl | with_reducible assumption | (apply Sub.of; rfl) | (apply Has.of; rfl) | intro _ | with_reducible apply ite_eff
    | (with_reducible apply onlyIf_eff) | (with_reducible apply Eff.step; with_reducible apply wr_eff)
    | (with_reducible apply Eff.step; with_reducible apply updSched_eff) | (with_reducible apply Eff.step; with_reducible apply raise_eff) | split
    | dsimp only [id]

theorem gateStart_eff (p : Nat) (d : Dev) : Eff 0x811d d (gateStart p d) := by
  unfold gateStart
  try dsimp only
  repeat' first
    | with_reducible apply Eff.refl | with_reducible assumption | (apply Sub.of; rfl) | (apply Has.of; rfl) | intro _ | with_reducible apply ite_eff
    | (with_reducible apply Eff.step; with_reducible apply updSched_eff) | (with_reducible apply Eff.step; with_reducible apply gateRefresh_eff)
    | split | dsimp only [id]

theorem switchTrig_eff (p : Nat) (val : Word) (d : Dev) : Eff 0x811d d (switchTrig p val d) := by
  unfold switchTrig
  try dsimp only
  repeat' first
    | with_reducible apply Eff.refl | with_reducible assumption | (apply Sub.of; rfl) | (apply Has.of; rfl) | intro _ | with_reducible apply ite_eff
    | (with_reducible apply Eff.step; with_reducible apply wr_eff) | (with_reducible apply Eff.step; with_reducible apply updSched_eff)
    | (with_reducible apply Eff.step; with_reducible apply cfgErr_eff) | split | dsimp only [id]

theorem gateTransition_eff (p : Nat) (d : Dev) : Eff 0x811d d (gateTransition p d) := by
  unfold gateTransition
  try dsimp only
  repeat' first
    | with_reducible apply Eff.refl | with_reducible assumption | (apply Sub.of; rfl) | (apply Has.of; rfl) | intro _ | with_reducible apply ite_eff
    | (with_reducible apply onlyIf_eff) | (with_reducible apply Eff.step; with_reducible apply wr_eff)
    | (with_reducible apply Eff.step; with_reducible apply updSched_eff) | (with_reducible apply Eff.step; with_reducible apply raise_eff)
    | (with_reducible apply Eff.step; with_reducible apply gateRefresh_eff) | split | dsimp only [id]

theorem gatesTimeChange_eff (step : Bool) (d : Dev) : Eff 0x811d d (gatesTimeChange step d) := by
  unfold gatesTimeChange
  try dsimp only
  repeat' first
    | with_reducible apply Eff.refl | with_reducible assumption | (apply Sub.of; rfl) | (apply Has.of; rfl) | intro _ | with_reducible apply ite_eff
    | (with_reducible apply onlyIf_eff) | (with_reducible apply forEach_eff) | (with_reducible apply Eff.step; with_reducible apply gateStart_eff)
    | (with_reducible apply Eff.step; with_reducible apply updSched_eff) | (with_reducible apply Eff.step; with_reducible apply raise_eff) | split
    | dsimp only [id]

end Sys2Proof.Machine
end

