-- ==== Sys2Proof/Laws/EffTimeOps.lean ====
section
/-!
SUPPORT. What each function of Machine/TimeOps.lean can change.
-/

namespace Sys2Proof.Machine

theorem updTh_eff (f : TimeHzn → TimeHzn) (d : Dev) (h : (f d.th).localNs = d.th.localNs) : Eff 0x1000 d (updTh f d) :=
  .tail (.refl d) (.th d _ h) rfl

theorem putGmRec_eff (p : Nat) (r : Option GmRec) (d : Dev) : Eff 0x1000 d (putGmRec p r d) := by
  unfold putGmRec
  try dsimp only
  repeat' first
    | with_reducible apply Eff.refl | with_reducible assumption | (apply Sub.of; rfl) | (apply Has.of; rfl) | intro _ | with_reducible apply ite_eff
    | (with_reducible apply Eff.step; (with_reducible apply updTh_eff; rfl))
    | (with_reducible apply Eff.step; (with_reducible apply updTh_eff; split <;> rfl)) | split | dsimp only [id]

theorem setGm_eff (r : GmRec) (d : Dev) : Eff 0x11d d (setGm r d) := by
  unfold setGm
  try dsimp only
  repeat' first
    | with_reducible apply Eff.refl | with_reducible assumption | (apply Sub.of; rfl) | (apply Has.of; rfl) | intro _ | with_reducible apply ite_eff
    | (with_reducible apply onlyIf_eff) | (with_reducible apply Eff.step; with_reducible apply wr2_eff)
    | (with_reducible apply Eff.step; with_reducible apply raise_eff) | (with_reducible apply Eff.step; with_reducible apply wr_eff) | split
    | dsimp only [id]

theorem setParent_eff (p : Nat) (d : Dev) : Eff 0x11d d (setParent p d) := by
  unfold setParent
  try dsimp only
  repeat' first
    | with_reducible apply Eff.refl | with_reducible assumption | (apply Sub.of; rfl) | (apply Has.of; rfl) | intro _ | with_reducible apply ite_eff
    | (with_reducible apply onlyIf_eff) | (with_reducible apply Eff.step; with_reducible apply wr_eff)
    | (with_reducible apply Eff.step; with_reducible apply bump_eff) | (with_reducible apply Eff.step; with_reducible apply raise_eff) | split
    | dsimp only [id]

theorem acquire_eff (d : Dev) : Eff 0x1001 d (acquire d) := by
  unfold acquire
  try dsimp only
  repeat' first
    | with_reducible apply Eff.refl | with_reducible assumption | (apply Sub.of; rfl) | (apply Has.of; rfl) | intro _ | with_reducible apply ite_eff
    | (with_reducible apply Eff.step; with_reducible apply wr_eff) | (with_reducible apply Eff.step; (with_reducible apply updTh_eff; rfl))
    | (with_reducible apply Eff.step; (with_reducible apply updTh_eff; split <;> rfl)) | split | dsimp only [id]

theorem noParent_eff (d : Dev) : Eff 0x11d d (noParent d) := by
  unfold noParent
  try dsimp only
  repeat' first
    | with_reducible apply Eff.refl | with_reducible assumption | (apply Sub.of; rfl) | (apply Has.of; rfl) | intro _ | with_reducible apply ite_eff
    | (with_reducible apply onlyIf_eff) | (with_reducible apply Eff.step; with_reducible apply wr_eff)
    | (with_reducible apply Eff.step; with_reducible apply raise_eff) | split | dsimp only [id]

theorem timeElect_eff (d : Dev) : Eff 0x111d d (timeElect d) := by
  unfold timeElect
  try dsimp only
  repeat' first
    | with_reducible apply Eff.refl | with_reducible assumption | (apply Sub.of; rfl) | (apply Has.of; rfl) | intro _ | with_reducible apply ite_eff
    | (with_reducible apply onlyIf_eff) | (with_reducible apply Eff.step; with_reducible apply setParent_eff)
    | (with_reducible apply Eff.step; with_reducible apply noParent_eff) | (with_reducible apply Eff.step; (with_reducible apply updTh_eff; rfl))
    | (with_reducible apply Eff.step; (with_reducible apply updTh_eff; split <;> rfl))
    | (with_reducible apply Eff.step; with_reducible apply setGm_eff) | (with_reducible apply Eff.step; with_reducible apply wr_eff)
    | (with_reducible apply Eff.step; with_reducible apply acquire_eff) | split | dsimp only [id]

theorem timePortDown_eff (p : Nat) (d : Dev) : Eff 0x111d d (timePortDown p d) := by
  unfold timePortDown
  try dsimp only
  repeat' first
    | with_reducible apply Eff.refl | with_reducible assumption | (apply Sub.of; rfl) | (apply Has.of; rfl) | intro _ | with_reducible apply ite_eff
    | (with_reducible apply Eff.step; with_reducible apply putGmRec_eff) | (with_reducible apply Eff.step; (with_reducible apply updTh_eff; rfl))
    | (with_reducible apply Eff.step; (with_reducible apply updTh_eff; split <;> rfl))
    | (with_reducible apply Eff.step; with_reducible apply timeElect_eff) | split | dsimp only [id]

end Sys2Proof.Machine
end

