-- ==== Sys2Proof/Laws/EffHooks.lean ====
section
/-!
SUPPORT. What each function of Machine/Hooks.lean can change.
-/

namespace Sys2Proof.Machine

theorem sendRoll_eff (p : Nat) (r : RollRec) (d : Dev) : Eff 0x4 d (sendRoll p r d) := by
  unfold sendRoll
  try dsimp only
  repeat' first
    | with_reducible apply Eff.refl | with_reducible assumption | (apply Sub.of; rfl) | (apply Has.of; rfl) | intro _ | with_reducible apply ite_eff
    | (with_reducible apply Eff.step; with_reducible apply emit_eff) | split | dsimp only [id]

theorem rollOn_eff (p : Nat) (d : Dev) : Eff 0x4 d (rollOn p d) := by
  unfold rollOn
  try dsimp only
  repeat' first
    | with_reducible apply Eff.refl | with_reducible assumption | (apply Sub.of; rfl) | (apply Has.of; rfl) | intro _ | with_reducible apply ite_eff
    | (with_reducible apply onlyIf_eff) | (with_reducible apply forEach_eff) | (with_reducible apply Eff.step; with_reducible apply sendRoll_eff)
    | split | dsimp only [id]

theorem settleNet_eff {t : Nat} {x : Dev} (a b : Dev) (h : Eff t x b) (s : Sub 0x7911f t) : Eff t x (settleNet a b) := by
  unfold settleNet
  refine Eff.step (releaseFenced_eff _) (Sub.via s (Sub.of rfl)) ?_
  refine forEach_eff (forEach_eff h ?_) ?_
  · intro p d
    exact Eff.step (timePortDown_eff ..) (Sub.via s (Sub.of rfl)) (Eff.step (collPortDown_eff ..) (Sub.via s (Sub.of rfl)) (.refl d))
  · intro p d
    exact Eff.step (rollOn_eff ..) (Sub.via s (Sub.of rfl)) (.refl d)

theorem withNet_eff {t : Nat} {a : Dev} (f : Dev → Dev) (d : Dev) (h : Eff t a d) (ha : ∀ d, Eff t d (f d)) (s : Sub 0x7911f t) :
    Eff t a (withNet f d) := by
  unfold withNet
  try dsimp only
  repeat' first
    | with_reducible assumption | (apply Sub.of; rfl) | (apply Sub.via s; apply Sub.of; rfl) | (apply Has.of; rfl)
    | (with_reducible apply Eff.seq; with_reducible apply ha) | (apply Has.via s; apply Has.of; rfl) | intro _ | with_reducible apply ite_eff
    | (with_reducible apply settleNet_eff) | with_reducible apply Eff.refl | split | dsimp only [id]

theorem onNet_ran {t : Nat} {f : Dev → Dev} {s : State} (h : ∀ d, Eff t d (f d)) (g : Sub 0x7911f t) : Ran t s (onNet f s) :=
  onDev_ran fun d => withNet_eff f d (.refl d) h g

end Sys2Proof.Machine
end

