-- ==== Sys2Proof/Laws/EffEth.lean ====
section
/-!
SUPPORT. What each function of Machine/Eth.lean can change.
-/

namespace Sys2Proof.Machine

theorem pfcCheck_eff (p prio : Nat) (d : Dev) : Eff 0x800d d (pfcCheck p prio d) := by
  unfold pfcCheck
  try dsimp only
  repeat' first
    | with_reducible apply Eff.refl | with_reducible assumption | (apply Sub.of; rfl) | (apply Has.of; rfl) | intro _ | with_reducible apply ite_eff
    | (with_reducible apply Eff.step; with_reducible apply updPort_eff) | (with_reducible apply Eff.step; with_reducible apply emit_eff)
    | (with_reducible apply Eff.step; with_reducible apply addI_eff) | split | dsimp only [id]

theorem admitHere_eff (p prio pre port : Nat) (fr : List Byte) (d : Dev) : Eff 0x1811d d (admitHere p prio pre port fr d) := by
  unfold admitHere
  try dsimp only
  repeat' first
    | with_reducible apply Eff.refl | with_reducible assumption | (apply Sub.of; rfl) | (apply Has.of; rfl) | intro _ | with_reducible apply ite_eff
    | (with_reducible apply onlyIf_eff) | (with_reducible apply Eff.step; with_reducible apply pushPkt_eff)
    | (with_reducible apply Eff.step; with_reducible apply meterPkt_eff) | (with_reducible apply Eff.step; with_reducible apply bump_eff)
    | (with_reducible apply Eff.step; with_reducible apply settle_eff) | split | dsimp only [id]

theorem admitAway_eff (p prio pre port dlid : Nat) (fr : List Byte) (d : Dev) : Eff 0x1811d d (admitAway p prio pre port dlid fr d) := by
  unfold admitAway
  try dsimp only
  repeat' first
    | with_reducible apply Eff.refl | with_reducible assumption | (apply Sub.of; rfl) | (apply Has.of; rfl) | intro _ | with_reducible apply ite_eff
    | (with_reducible apply Eff.step; with_reducible apply injectHeader_eff)
    | (with_reducible apply Eff.step; with_reducible apply eff_snd; assumption; with_reducible apply injectHeader_eff)
    | (with_reducible apply Eff.step; with_reducible apply takeFree_eff) | (with_reducible apply Eff.step; with_reducible apply pushPkt_eff)
    | (with_reducible apply Eff.step; with_reducible apply meterPkt_eff) | (with_reducible apply Eff.step; with_reducible apply lookUp_eff)
    | (with_reducible apply Eff.step; with_reducible apply settle_eff) | split | dsimp only [id]

theorem admitFrame_eff (p prio : Nat) (dei : Bool) (e : Nat) (fr : List Byte) (d : Dev) : Eff 0x1811d d (admitFrame p prio dei e fr d) := by
  unfold admitFrame
  try dsimp only
  repeat' first
    | with_reducible apply Eff.refl | with_reducible assumption | (apply Sub.of; rfl) | (apply Has.of; rfl) | intro _ | with_reducible apply ite_eff
    | (with_reducible apply Eff.step; with_reducible apply admitHere_eff) | (with_reducible apply Eff.step; with_reducible apply admitAway_eff)
    | split | dsimp only [id]

theorem ethFrameRx_eff (p : Nat) (fcsOk : Bool) (fr : List Byte) (d : Dev) : Eff 0x1811d d (ethFrameRx p fcsOk fr d) := by
  unfold ethFrameRx
  try dsimp only
  repeat' first
    | with_reducible apply Eff.refl | with_reducible assumption | (apply Sub.of; rfl) | (apply Has.of; rfl) | intro _ | with_reducible apply ite_eff
    | (with_reducible apply Eff.step; with_reducible apply bump_eff) | (with_reducible apply Eff.step; with_reducible apply admitFrame_eff)
    | (with_reducible apply Eff.step; with_reducible apply pfcCheck_eff) | split | dsimp only [id]

theorem resumePrio_eff (p prio : Nat) (d : Dev) : Eff 0x8009 d (resumePrio p prio d) := by
  unfold resumePrio
  try dsimp only
  repeat' first
    | with_reducible apply Eff.refl | with_reducible assumption | (apply Sub.of; rfl) | (apply Has.of; rfl) | intro _ | with_reducible apply ite_eff
    | (with_reducible apply Eff.step; with_reducible apply addI_eff) | (with_reducible apply Eff.step; with_reducible apply updPort_eff) | split
    | dsimp only [id]

theorem pfcFrameRx_eff (p prio quanta : Nat) (d : Dev) : Eff 0x8009 d (pfcFrameRx p prio quanta d) := by
  unfold pfcFrameRx
  try dsimp only
  repeat' first
    | with_reducible apply Eff.refl | with_reducible assumption | (apply Sub.of; rfl) | (apply Has.of; rfl) | intro _ | with_reducible apply ite_eff
    | (with_reducible apply Eff.step; with_reducible apply addI_eff) | (with_reducible apply Eff.step; with_reducible apply resumePrio_eff)
    | (with_reducible apply Eff.step; with_reducible apply updPort_eff) | split | dsimp only [id]

theorem pauseFrameRx_eff (p : Nat) (d : Dev) : Eff 0x9 d (pauseFrameRx p d) := by
  unfold pauseFrameRx
  try dsimp only
  repeat' first
    | with_reducible apply Eff.refl | with_reducible assumption | (apply Sub.of; rfl) | (apply Has.of; rfl) | intro _ | with_reducible apply ite_eff
    | (with_reducible apply onlyIf_eff) | (with_reducible apply Eff.step; with_reducible apply bump_eff) | split | dsimp only [id]

theorem pfcRepeat_eff (p prio : Nat) (d : Dev) : Eff 0xd d (pfcRepeat p prio d) := by
  unfold pfcRepeat
  try dsimp only
  repeat' first
    | with_reducible apply Eff.refl | with_reducible assumption | (apply Sub.of; rfl) | (apply Has.of; rfl) | intro _ | with_reducible apply ite_eff
    | (with_reducible apply Eff.step; with_reducible apply emit_eff) | (with_reducible apply Eff.step; with_reducible apply addI_eff) | split
    | dsimp only [id]

theorem pfcWatchdog_eff (p prio : Nat) (d : Dev) : Eff 0x11d d (pfcWatchdog p prio d) := by
  unfold pfcWatchdog
  try dsimp only
  repeat' first
    | with_reducible apply Eff.refl | with_reducible assumption | (apply Sub.of; rfl) | (apply Has.of; rfl) | intro _ | with_reducible apply ite_eff
    | (with_reducible apply Eff.step; with_reducible apply raise_eff) | split | dsimp only [id]

theorem ethLanesUp_eff (p : Nat) (pol order : List Nat) (d : Dev) : Eff 0x1 d (ethLanesUp p pol order d) := by
  unfold ethLanesUp
  try dsimp only
  repeat' first
    | with_reducible apply Eff.refl | with_reducible assumption | (apply Sub.of; rfl) | (apply Has.of; rfl) | intro _ | with_reducible apply ite_eff
    | (with_reducible apply forEach_eff) | (with_reducible apply Eff.step; with_reducible apply wr_eff) | split | dsimp only [id]

theorem ethPcsChange_eff (p : Nat) (up hiSer : Bool) (pol order : List Nat) (d : Dev) : Eff 0x811d d (ethPcsChange p up hiSer pol order d) := by
  unfold ethPcsChange
  try dsimp only
  repeat' first
    | with_reducible apply Eff.refl | with_reducible assumption | (apply Sub.of; rfl) | (apply Has.of; rfl) | intro _ | with_reducible apply ite_eff
    | (with_reducible apply onlyIf_eff) | (with_reducible apply forEach_eff) | (with_reducible apply Eff.step; with_reducible apply wr_eff)
    | (with_reducible apply Eff.step; with_reducible apply ethLanesUp_eff) | (with_reducible apply Eff.step; with_reducible apply raise_eff)
    | (with_reducible apply Eff.step; with_reducible apply dropPkt_eff) | (with_reducible apply Eff.step; with_reducible apply resumePrio_eff)
    | (with_reducible apply Eff.step; with_reducible apply updPort_eff) | (with_reducible apply Eff.step; with_reducible apply bump_eff)
    | (with_reducible apply Eff.step; with_reducible apply laneBegin_eff) | split | dsimp only [id]

theorem execEthFrameRx_ran (port : Nat) (fcsOk : Bool) (frame : List Byte) (s : State) : Ran 0x7911f s (execEthFrameRx port fcsOk frame s) := by
  unfold execEthFrameRx
  try dsimp only
  repeat' first
    | with_reducible apply Eff.refl | with_reducible assumption | (apply Sub.of; rfl) | (apply Has.of; rfl) | intro _ | with_reducible apply ite_eff
    | with_reducible apply ite_ran | with_reducible apply onNet_ran | (with_reducible apply Eff.step; with_reducible apply ethFrameRx_eff) | split
    | dsimp only [id]

theorem execPfcFrameRx_ran (port prio quanta : Nat) (s : State) : Ran 0x7911f s (execPfcFrameRx port prio quanta s) := by
  unfold execPfcFrameRx
  try dsimp only
  repeat' first
    | with_reducible apply Eff.refl | with_reducible assumption | (apply Sub.of; rfl) | (apply Has.of; rfl) | intro _ | with_reducible apply ite_eff
    | with_reducible apply ite_ran | with_reducible apply onNet_ran | (with_reducible apply Eff.step; with_reducible apply pfcFrameRx_eff) | split
    | dsimp only [id]

theorem execPauseFrameRx_ran (port : Nat) (s : State) : Ran 0x7911f s (execPauseFrameRx port s) := by
  unfold execPauseFrameRx
  try dsimp only
  repeat' first
    | with_reducible apply Eff.refl | with_reducible assumption | (apply Sub.of; rfl) | (apply Has.of; rfl) | intro _ | with_reducible apply ite_eff
    | with_reducible apply ite_ran | with_reducible apply onNet_ran | (with_reducible apply Eff.step; with_reducible apply pauseFrameRx_eff) | split
    | dsimp only [id]

theorem execPfcRepeat_ran (port prio : Nat) (s : State) : Ran 0x7911f s (execPfcRepeat port prio s) := by
  unfold execPfcRepeat
  try dsimp only
  repeat' first
    | with_reducible apply Eff.refl | with_reducible assumption | (apply Sub.of; rfl) | (apply Has.of; rfl) | intro _ | with_reducible apply ite_eff
    | with_reducible apply ite_ran | with_reducible apply onNet_ran | (with_reducible apply Eff.step; with_reducible apply pfcRepeat_eff) | split
    | dsimp only [id]

theorem execPfcQuantaExpire_ran (port prio : Nat) (s : State) : Ran 0x7911f s (execPfcQuantaExpire port prio s) := by
  unfold execPfcQuantaExpire
  try dsimp only
  repeat' first
    | with_reducible apply Eff.refl | with_reducible assumption | (apply Sub.of; rfl) | (apply Has.of; rfl) | intro _ | with_reducible apply ite_eff
    | with_reducible apply ite_ran | with_reducible apply onNet_ran | (with_reducible apply Eff.step; with_reducible apply resumePrio_eff) | split
    | dsimp only [id]

theorem execPfcWatchdog_ran (port prio : Nat) (s : State) : Ran 0x7911f s (execPfcWatchdog port prio s) := by
  unfold execPfcWatchdog
  try dsimp only
  repeat' first
    | with_reducible apply Eff.refl | with_reducible assumption | (apply Sub.of; rfl) | (apply Has.of; rfl) | intro _ | with_reducible apply ite_eff
    | with_reducible apply ite_ran | with_reducible apply onNet_ran | (with_reducible apply Eff.step; with_reducible apply pfcWatchdog_eff) | split
    | dsimp only [id]

theorem execEthPcsChange_ran (port : Nat) (pcs : PcsChange) (hiSer localFault remoteFault : Bool) (s : State) : Ran 0x7911f s (execEthPcsChange port pcs hiSer localFault remoteFault s) := by
  unfold execEthPcsChange
  try dsimp only
  repeat' first
    | with_reducible apply Eff.refl | with_reducible assumption | (apply Sub.of; rfl) | (apply Has.of; rfl) | intro _ | with_reducible apply ite_eff
    | with_reducible apply ite_ran | (with_reducible apply onlyIf_eff) | with_reducible apply onNet_ran
    | (with_reducible apply Eff.step; with_reducible apply ethPcsChange_eff) | (with_reducible apply Eff.step; with_reducible apply wr_eff) | split
    | dsimp only [id]

end Sys2Proof.Machine
end

