-- ==== Sys2Proof/Laws/EffExp.lean ====
section
/-!
SUPPORT. What each function of Machine/Exp.lean can change.
-/

namespace Sys2Proof.Machine

theorem putHdm_eff (v i : Nat) (h : Hdm) (d : Dev) : Eff 0x40000 d (putHdm v i h d) := by
  unfold putHdm
  try dsimp only
  repeat' first
    | with_reducible apply Eff.refl | with_reducible assumption | (apply Sub.of; rfl) | (apply Has.of; rfl) | intro _ | with_reducible apply ite_eff
    | (with_reducible apply Eff.step; with_reducible apply updSw_eff) | split | dsimp only [id]

theorem compWrite_eff (v off w : Nat) (d : Dev) : Eff 0x40000 d (compWrite v off w d) := by
  unfold compWrite
  try dsimp only
  repeat' first
    | with_reducible apply Eff.refl | with_reducible assumption | (apply Sub.of; rfl) | (apply Has.of; rfl) | intro _ | with_reducible apply ite_eff
    | (with_reducible apply Eff.step; with_reducible apply putHdm_eff) | split | dsimp only [id]

theorem uspRegs_eff (v k : Nat) (t : Tlp) (d : Dev) : Eff 0x5811d d (uspRegs v k t d) := by
  unfold uspRegs
  try dsimp only
  repeat' first
    | with_reducible apply Eff.refl | with_reducible assumption | (apply Sub.of; rfl) | (apply Has.of; rfl) | intro _ | with_reducible apply ite_eff
    | (with_reducible apply Eff.step; with_reducible apply compWrite_eff) | (with_reducible apply Eff.step; with_reducible apply toExp_eff)
    | (with_reducible apply Eff.step; with_reducible apply answerReq_eff) | (with_reducible apply Eff.step; with_reducible apply toFn_eff) | split
    | dsimp only [id]

theorem uspTlp_eff (k : Nat) (t : Tlp) (d : Dev) : Eff 0x5811d d (uspTlp k t d) := by
  unfold uspTlp
  try dsimp only
  repeat' first
    | with_reducible apply Eff.refl | with_reducible assumption | (apply Sub.of; rfl) | (apply Has.of; rfl) | intro _ | with_reducible apply ite_eff
    | (with_reducible apply Eff.step; with_reducible apply bump_eff) | (with_reducible apply Eff.step; with_reducible apply uspRegs_eff)
    | (with_reducible apply Eff.step; with_reducible apply toDest_eff) | split | dsimp only [id]

theorem takeNp_eff (k : Nat) (t : Tlp) (d : Dev) : Eff 0x40001 d (takeNp k t d).2 := by
  unfold takeNp
  try dsimp only
  repeat' first
    | with_reducible apply Eff.refl | with_reducible assumption | (apply Sub.of; rfl) | (apply Has.of; rfl) | intro _ | with_reducible apply ite_eff
    | with_reducible apply ite_snd | (with_reducible apply Eff.step; with_reducible apply updSwPort_eff)
    | (with_reducible apply Eff.step; with_reducible apply wr_eff) | split | dsimp only [id]

theorem upFar_eff (k c m : Nat) (t : Tlp) (d : Dev) : Eff 0x5811d d (upFar k c m t d) := by
  unfold upFar
  try dsimp only
  repeat' first
    | with_reducible apply Eff.refl | with_reducible assumption | (apply Sub.of; rfl) | (apply Has.of; rfl) | intro _ | with_reducible apply ite_eff
    | (with_reducible apply onlyIf_eff) | (with_reducible apply Eff.step; with_reducible apply takeFree_eff)
    | (with_reducible apply Eff.step; with_reducible apply updSw_eff) | (with_reducible apply Eff.step; with_reducible apply toMember_eff) | split
    | dsimp only [id]

theorem dspTlp_eff (k : Nat) (t : Tlp) (d : Dev) : Eff 0x5811d d (dspTlp k t d) := by
  unfold dspTlp
  try dsimp only
  repeat' first
    | with_reducible apply Eff.refl | with_reducible assumption | (apply Sub.of; rfl) | (apply Has.of; rfl) | intro _ | with_reducible apply ite_eff
    | (with_reducible apply onlyIf_eff) | (with_reducible apply Eff.step; with_reducible apply bump_eff)
    | (with_reducible apply Eff.step; with_reducible apply toExp_eff) | (with_reducible apply Eff.step; with_reducible apply takeNp_eff)
    | (with_reducible apply Eff.step; with_reducible apply eff_snd; assumption; with_reducible apply takeNp_eff)
    | (with_reducible apply Eff.step; with_reducible apply takeFree_eff) | (with_reducible apply Eff.step; with_reducible apply toMember_eff)
    | (with_reducible apply Eff.step; with_reducible apply devTlp_eff) | (with_reducible apply Eff.step; with_reducible apply upFar_eff) | split
    | dsimp only [id]

theorem meterTlp_eff {t : Nat} {a : Dev} (idx : Nat) (q : Tlp) (f : Tlp → Dev → Dev) (d : Dev) (h : Eff t a d) (ha : ∀ x d, Eff t d (f x d)) (s : Sub 0x8000 t) :
    Eff t a (meterTlp idx q f d) := by
  unfold meterTlp
  try dsimp only
  repeat' first
    | with_reducible assumption | (apply Sub.of; rfl) | (apply Sub.via s; apply Sub.of; rfl) | (apply Has.of; rfl)
    | (with_reducible apply Eff.seq; with_reducible apply ha) | (apply Has.via s; apply Has.of; rfl) | intro _ | with_reducible apply ite_eff
    | (with_reducible apply Eff.step; with_reducible apply meterTake_eff)
    | (with_reducible apply Eff.step; with_reducible apply eff_snd3; assumption; with_reducible apply meterTake_eff) | with_reducible apply Eff.refl
    | split | dsimp only [id]

theorem portTlp_eff (idx : Nat) (t : Tlp) (d : Dev) : Eff 0x5811d d (portTlp idx t d) := by
  unfold portTlp
  try dsimp only
  repeat' first
    | with_reducible apply Eff.refl | with_reducible assumption | (apply Sub.of; rfl) | (apply Has.of; rfl) | intro _ | with_reducible apply ite_eff
    | (with_reducible apply Eff.step; with_reducible apply uspTlp_eff) | (with_reducible apply Eff.step; with_reducible apply dspTlp_eff) | split
    | dsimp only [id]

theorem execExpTlpRx_ran (idx : Nat) (t : Tlp) (s : State) : Ran 0x5811f s (execExpTlpRx idx t s) := by
  unfold execExpTlpRx
  try dsimp only
  repeat' first
    | with_reducible apply Eff.refl | with_reducible assumption | (apply Sub.of; rfl) | (apply Has.of; rfl) | intro _ | with_reducible apply ite_eff
    | with_reducible apply ite_ran | (with_reducible apply onlyIf_eff) | with_reducible apply onEng_ran
    | (with_reducible apply Eff.step; with_reducible apply bump_eff) | (with_reducible apply Eff.step; with_reducible apply poisonSeen_eff)
    | (with_reducible apply meterTlp_eff) | (with_reducible apply Eff.step; with_reducible apply portTlp_eff)
    | (with_reducible apply Eff.step; with_reducible apply releaseFenced_eff) | split | dsimp only [id]

theorem netCfgWrite_eff (v off data mask : Nat) (d : Dev) : Eff 0x3811f d (netCfgWrite v off data mask d) := by
  unfold netCfgWrite
  try dsimp only
  repeat' first
    | with_reducible apply Eff.refl | with_reducible assumption | (apply Sub.of; rfl) | (apply Has.of; rfl) | intro _ | with_reducible apply ite_eff
    | (with_reducible apply onlyIf_eff) | (with_reducible apply Eff.step; with_reducible apply d3Enter_eff)
    | (with_reducible apply Eff.step; with_reducible apply d0Return_eff) | (with_reducible apply Eff.step; with_reducible apply bmeClear_eff)
    | (with_reducible apply Eff.step; with_reducible apply putCfg_eff) | (with_reducible apply Eff.step; with_reducible apply mirrorCfg_eff)
    | (with_reducible apply Eff.step; with_reducible apply sendPended_eff) | (with_reducible apply Eff.step; with_reducible apply flrStart_eff)
    | split | dsimp only [id]

theorem swCfgWrite_eff (v : Nat) (f : CfgFn) (off data mask : Nat) (d : Dev) : Eff 0x7811f d (swCfgWrite v f off data mask d) := by
  unfold swCfgWrite
  try dsimp only
  repeat' first
    | with_reducible apply Eff.refl | with_reducible assumption | (apply Sub.of; rfl) | (apply Has.of; rfl) | intro _ | with_reducible apply ite_eff
    | (with_reducible apply onlyIf_eff) | (with_reducible apply Eff.step; with_reducible apply putSwCfg_eff)
    | (with_reducible apply Eff.step; with_reducible apply rise_eff) | (with_reducible apply Eff.step; with_reducible apply busReset_eff)
    | (with_reducible apply Eff.step; with_reducible apply updSwPort_eff) | (with_reducible apply Eff.step; with_reducible apply portHotReset_eff)
    | (with_reducible apply Eff.step; with_reducible apply emit_eff) | (with_reducible apply Eff.step; with_reducible apply dlDown_eff)
    | (with_reducible apply Eff.step; with_reducible apply tryRelease_eff) | split | dsimp only [id]

theorem cfgRequest_eff (v : Nat) (type1 wr : Bool) (bus dev fn off be data req tag : Nat) (d : Dev) : Eff 0x7811f d (cfgRequest v type1 wr bus dev fn off be data req tag d) := by
  unfold cfgRequest
  try dsimp only
  repeat' first
    | with_reducible apply Eff.refl | with_reducible assumption | (apply Sub.of; rfl) | (apply Has.of; rfl) | intro _ | with_reducible apply ite_eff
    | (with_reducible apply Eff.step; with_reducible apply toExp_eff) | (with_reducible apply Eff.step; with_reducible apply bump_eff)
    | (with_reducible apply Eff.step; with_reducible apply toDev_eff) | (with_reducible apply Eff.step; with_reducible apply wr_eff)
    | (with_reducible apply Eff.step; with_reducible apply netCfgWrite_eff) | (with_reducible apply Eff.step; with_reducible apply swCfgWrite_eff)
    | split | dsimp only [id]

theorem execConfigRequest_ran (vh : Nat) (type1 wr : Bool) (bus dev fn off be data req tag : Nat) (s : State) : Ran 0x7811f s (execConfigRequest vh type1 wr bus dev fn off be data req tag s) := by
  unfold execConfigRequest
  try dsimp only
  repeat' first
    | with_reducible apply Eff.refl | with_reducible assumption | (apply Sub.of; rfl) | (apply Has.of; rfl) | intro _ | with_reducible apply ite_eff
    | with_reducible apply ite_ran | with_reducible apply onEng_ran | (with_reducible apply Eff.step; with_reducible apply cfgRequest_eff)
    | (with_reducible apply Eff.step; with_reducible apply wr_eff) | split | dsimp only [id]

theorem execVhHotReset_ran (far : Bool) (vh : Nat) (s : State) : Ran 0x7811f s (execVhHotReset far vh s) := by
  unfold execVhHotReset
  try dsimp only
  repeat' first
    | with_reducible apply Eff.refl | with_reducible assumption | (apply Sub.of; rfl) | (apply Has.of; rfl) | intro _ | with_reducible apply ite_eff
    | with_reducible apply ite_ran | with_reducible apply onEng_ran | (with_reducible apply Eff.step; with_reducible apply farHotReset_eff)
    | (with_reducible apply Eff.step; with_reducible apply vhHotReset_eff) | split | dsimp only [id]

theorem execBind_ran (far : Bool) (vh grant dexp ld : Nat) (s : State) : Ran 0x5811f s (execBind far vh grant dexp ld s) := by
  unfold execBind
  try dsimp only
  repeat' first
    | with_reducible apply Eff.refl | with_reducible assumption | (apply Sub.of; rfl) | (apply Has.of; rfl) | intro _ | with_reducible apply ite_eff
    | with_reducible apply ite_ran | with_reducible apply onEng_ran | (with_reducible apply Eff.step; with_reducible apply bindFar_eff)
    | (with_reducible apply trigger_eff) | (with_reducible apply Eff.step; with_reducible apply bindGo_eff) | split | dsimp only [id]

theorem execUnbind_ran (far : Bool) (vh dexp ld : Nat) (s : State) : Ran 0x5811f s (execUnbind far vh dexp ld s) := by
  unfold execUnbind
  try dsimp only
  repeat' first
    | with_reducible apply Eff.refl | with_reducible assumption | (apply Sub.of; rfl) | (apply Has.of; rfl) | intro _ | with_reducible apply ite_eff
    | with_reducible apply ite_ran | (with_reducible apply onlyIf_eff) | with_reducible apply onEng_ran
    | (with_reducible apply Eff.step; with_reducible apply isolate_eff) | (with_reducible apply Eff.step; with_reducible apply unbindPort_eff)
    | (with_reducible apply trigger_eff) | (with_reducible apply Eff.step; with_reducible apply unbindGo_eff) | split | dsimp only [id]

theorem execBindHoldoffEnd_ran (idx : Nat) (s : State) : Ran 0x5811f s (execBindHoldoffEnd idx s) := by
  unfold execBindHoldoffEnd
  try dsimp only
  repeat' first
    | with_reducible apply Eff.refl | with_reducible assumption | (apply Sub.of; rfl) | (apply Has.of; rfl) | intro _ | with_reducible apply ite_eff
    | with_reducible apply ite_ran | with_reducible apply onEng_ran | (with_reducible apply Eff.step; with_reducible apply updSwPort_eff)
    | (with_reducible apply Eff.step; with_reducible apply bindDone_eff) | (with_reducible apply Eff.step; with_reducible apply bindPort_eff) | split
    | dsimp only [id]

theorem execPwRdLive_ran (s : State) : Ran 0x5811f s (execPwRdLive s) := by
  unfold execPwRdLive
  try dsimp only
  repeat' first
    | with_reducible apply Eff.refl | with_reducible assumption | (apply Sub.of; rfl) | (apply Has.of; rfl) | intro _ | with_reducible apply ite_eff
    | with_reducible apply ite_ran | with_reducible apply onEng_ran | (with_reducible apply trigger_eff)
    | (with_reducible apply Eff.step; with_reducible apply pwCmd_eff) | split | dsimp only [id]

theorem execPwRdShadow_ran (s : State) : Ran 0x5811f s (execPwRdShadow s) := by
  unfold execPwRdShadow
  try dsimp only
  repeat' first
    | with_reducible apply Eff.refl | with_reducible assumption | (apply Sub.of; rfl) | (apply Has.of; rfl) | intro _ | with_reducible apply ite_eff
    | with_reducible apply ite_ran | with_reducible apply onEng_ran | (with_reducible apply trigger_eff)
    | (with_reducible apply Eff.step; with_reducible apply pwCmd_eff) | split | dsimp only [id]

theorem execPwWrShadow_ran (s : State) : Ran 0x5811f s (execPwWrShadow s) := by
  unfold execPwWrShadow
  try dsimp only
  repeat' first
    | with_reducible apply Eff.refl | with_reducible assumption | (apply Sub.of; rfl) | (apply Has.of; rfl) | intro _ | with_reducible apply ite_eff
    | with_reducible apply ite_ran | with_reducible apply onEng_ran | (with_reducible apply trigger_eff)
    | (with_reducible apply Eff.step; with_reducible apply pwCmd_eff) | split | dsimp only [id]

theorem execPwCommit_ran (s : State) : Ran 0x5811f s (execPwCommit s) := by
  unfold execPwCommit
  try dsimp only
  repeat' first
    | with_reducible apply Eff.refl | with_reducible assumption | (apply Sub.of; rfl) | (apply Has.of; rfl) | intro _ | with_reducible apply ite_eff
    | with_reducible apply ite_ran | with_reducible apply onEng_ran | (with_reducible apply trigger_eff)
    | (with_reducible apply Eff.step; with_reducible apply pwCmd_eff) | split | dsimp only [id]

theorem execPwDiscard_ran (s : State) : Ran 0x5811f s (execPwDiscard s) := by
  unfold execPwDiscard
  try dsimp only
  repeat' first
    | with_reducible apply Eff.refl | with_reducible assumption | (apply Sub.of; rfl) | (apply Has.of; rfl) | intro _ | with_reducible apply ite_eff
    | with_reducible apply ite_ran | with_reducible apply onEng_ran | (with_reducible apply trigger_eff)
    | (with_reducible apply Eff.step; with_reducible apply pwCmd_eff) | split | dsimp only [id]

theorem isoSet_eff (k : Nat) (d : Dev) : Eff 0x5811d d (isoSet k d) := by
  unfold isoSet
  try dsimp only
  repeat' first
    | with_reducible apply Eff.refl | with_reducible assumption | (apply Sub.of; rfl) | (apply Has.of; rfl) | intro _ | with_reducible apply ite_eff
    | (with_reducible apply onlyIf_eff) | (with_reducible apply Eff.step; with_reducible apply isolate_eff) | split | dsimp only [id]

theorem isoRel_eff (k : Nat) (d : Dev) : Eff 0x4011d d (isoRel k d) := by
  unfold isoRel
  try dsimp only
  repeat' first
    | with_reducible apply Eff.refl | with_reducible assumption | (apply Sub.of; rfl) | (apply Has.of; rfl) | intro _ | with_reducible apply ite_eff
    | (with_reducible apply onlyIf_eff) | (with_reducible apply Eff.step; with_reducible apply updSwPort_eff)
    | (with_reducible apply Eff.step; with_reducible apply tryRelease_eff) | split | dsimp only [id]

theorem execIsoSet_ran (idx : Nat) (s : State) : Ran 0x5811f s (execIsoSet idx s) := by
  unfold execIsoSet
  try dsimp only
  repeat' first
    | with_reducible apply Eff.refl | with_reducible assumption | (apply Sub.of; rfl) | (apply Has.of; rfl) | intro _ | with_reducible apply ite_eff
    | with_reducible apply ite_ran | with_reducible apply onEng_ran | (with_reducible apply trigger_eff)
    | (with_reducible apply Eff.step; with_reducible apply isoSet_eff) | split | dsimp only [id]

theorem execIsoRel_ran (host : Bool) (idx : Nat) (s : State) : Ran 0x5811f s (execIsoRel host idx s) := by
  unfold execIsoRel
  try dsimp only
  repeat' first
    | with_reducible apply Eff.refl | with_reducible assumption | (apply Sub.of; rfl) | (apply Has.of; rfl) | intro _ | with_reducible apply ite_eff
    | with_reducible apply ite_ran | (with_reducible apply onlyIf_eff) | with_reducible apply onEng_ran
    | (with_reducible apply Eff.step; with_reducible apply updSwPort_eff) | (with_reducible apply Eff.step; with_reducible apply tryRelease_eff)
    | (with_reducible apply trigger_eff) | (with_reducible apply Eff.step; with_reducible apply isoRel_eff) | split | dsimp only [id]

theorem execDpcTrigger_ran (far surprise : Bool) (idx vh dev : Nat) (s : State) : Ran 0x5811f s (execDpcTrigger far surprise idx vh dev s) := by
  unfold execDpcTrigger
  try dsimp only
  repeat' first
    | with_reducible apply Eff.refl | with_reducible assumption | (apply Sub.of; rfl) | (apply Has.of; rfl) | intro _ | with_reducible apply ite_eff
    | with_reducible apply ite_ran | (with_reducible apply onlyIf_eff) | with_reducible apply onEng_ran
    | (with_reducible apply Eff.step; with_reducible apply dpcStatus_eff) | (with_reducible apply Eff.step; with_reducible apply isolate_eff) | split
    | dsimp only [id]

theorem execExpDlChange_ran (idx : Nat) (up : Bool) (speed width : Nat) (cxl : Bool) (lds : Nat) (t : Training) (s : State) : Ran 0x7811f s (execExpDlChange idx up speed width cxl lds t s) := by
  unfold execExpDlChange
  try dsimp only
  repeat' first
    | with_reducible apply Eff.refl | with_reducible assumption | (apply Sub.of; rfl) | (apply Has.of; rfl) | intro _ | with_reducible apply ite_eff
    | with_reducible apply ite_ran | (with_reducible apply onlyIf_eff) | with_reducible apply onEng_ran
    | (with_reducible apply Eff.step; with_reducible apply dlUp_eff) | (with_reducible apply Eff.step; with_reducible apply dlDown_eff)
    | (with_reducible apply Eff.step; with_reducible apply vhHotReset_eff) | split | dsimp only [id]

theorem expCtl_eff (k : Nat) (val : Word) (d : Dev) : Eff 0x7811f d (expCtl k val d) := by
  unfold expCtl
  try dsimp only
  repeat' first
    | with_reducible apply Eff.refl | with_reducible assumption | (apply Sub.of; rfl) | (apply Has.of; rfl) | intro _ | with_reducible apply ite_eff
    | (with_reducible apply onlyIf_eff) | (with_reducible apply Eff.step; with_reducible apply wr_eff)
    | (with_reducible apply Eff.step; with_reducible apply sharedLowAlarm_eff) | (with_reducible apply Eff.step; with_reducible apply cfgErr_eff)
    | (with_reducible apply Eff.step; with_reducible apply dlDown_eff) | (with_reducible apply Eff.step; with_reducible apply vhHotReset_eff)
    | (with_reducible apply Eff.step; with_reducible apply drivePerst_eff) | (with_reducible apply Eff.step; with_reducible apply isoSet_eff)
    | (with_reducible apply Eff.step; with_reducible apply isoRel_eff) | split | dsimp only [id]

theorem execExpEnWrite_ran (idx : Nat) (value : Word) (s : State) : Ran 0x7811f s (execExpEnWrite idx value s) := by
  unfold execExpEnWrite
  try dsimp only
  repeat' first
    | with_reducible apply Eff.refl | with_reducible assumption | (apply Sub.of; rfl) | (apply Has.of; rfl) | intro _ | with_reducible apply ite_eff
    | with_reducible apply ite_ran | with_reducible apply onEng_ran | (with_reducible apply mgmtWrite_eff) | (with_reducible apply unlessLocked_eff)
    | (with_reducible apply Eff.step; with_reducible apply expCtl_eff) | split | dsimp only [id]

theorem execCompositePacketRx_ran (p : CompPkt) (s : State) : Ran 0x5811f s (execCompositePacketRx p s) := by
  unfold execCompositePacketRx
  try dsimp only
  repeat' first
    | with_reducible apply Eff.refl | with_reducible assumption | (apply Sub.of; rfl) | (apply Has.of; rfl) | intro _ | with_reducible apply ite_eff
    | with_reducible apply ite_ran | (with_reducible apply onlyIf_eff) | with_reducible apply onEng_ran
    | (with_reducible apply Eff.step; with_reducible apply compArrive_eff) | split | dsimp only [id]

theorem execCompositeAckRx_ran (src cls ackSeq : Nat) (s : State) : Ran 0x5811f s (execCompositeAckRx src cls ackSeq s) := by
  unfold execCompositeAckRx
  try dsimp only
  repeat' first
    | with_reducible apply Eff.refl | with_reducible assumption | (apply Sub.of; rfl) | (apply Has.of; rfl) | intro _ | with_reducible apply ite_eff
    | with_reducible apply ite_ran | (with_reducible apply onlyIf_eff) | with_reducible apply onEng_ran
    | (with_reducible apply Eff.step; with_reducible apply ackStream_eff) | split | dsimp only [id]

theorem execCompositeNakRx_ran (src cls ackSeq : Nat) (s : State) : Ran 0x5a11f s (execCompositeNakRx src cls ackSeq s) := by
  unfold execCompositeNakRx
  try dsimp only
  repeat' first
    | with_reducible apply Eff.refl | with_reducible assumption | (apply Sub.of; rfl) | (apply Has.of; rfl) | intro _ | with_reducible apply ite_eff
    | with_reducible apply ite_ran | (with_reducible apply onlyIf_eff) | with_reducible apply onEng_ran
    | (with_reducible apply Eff.step; with_reducible apply ackStream_eff) | (with_reducible apply Eff.step; with_reducible apply resendStream_eff)
    | split | dsimp only [id]

theorem execCompositeAckSend_ran (src cls : Nat) (s : State) : Ran 0x5811f s (execCompositeAckSend src cls s) := by
  unfold execCompositeAckSend
  try dsimp only
  repeat' first
    | with_reducible apply Eff.refl | with_reducible assumption | (apply Sub.of; rfl) | (apply Has.of; rfl) | intro _ | with_reducible apply ite_eff
    | with_reducible apply ite_ran | (with_reducible apply onlyIf_eff) | with_reducible apply onEng_ran
    | (with_reducible apply Eff.step; with_reducible apply sendAckTo_eff) | split | dsimp only [id]

theorem execCmpRtoExpire_ran (member cls : Nat) (s : State) : Ran 0x5a11f s (execCmpRtoExpire member cls s) := by
  unfold execCmpRtoExpire
  try dsimp only
  repeat' first
    | with_reducible apply Eff.refl | with_reducible assumption | (apply Sub.of; rfl) | (apply Has.of; rfl) | intro _ | with_reducible apply ite_eff
    | with_reducible apply ite_ran | with_reducible apply onEng_ran | (with_reducible apply Eff.step; with_reducible apply resendStream_eff) | split
    | dsimp only [id]

theorem execCplTmoExpire_ran (vh member req tag : Nat) (s : State) : Ran 0x5811f s (execCplTmoExpire vh member req tag s) := by
  unfold execCplTmoExpire
  try dsimp only
  repeat' first
    | with_reducible apply Eff.refl | with_reducible assumption | (apply Sub.of; rfl) | (apply Has.of; rfl) | intro _ | with_reducible apply ite_eff
    | with_reducible apply ite_ran | with_reducible apply onEng_ran | (with_reducible apply Eff.step; with_reducible apply updSw_eff)
    | (with_reducible apply Eff.step; with_reducible apply bump_eff) | (with_reducible apply Eff.step; with_reducible apply toExp_eff)
    | (with_reducible apply Eff.step; with_reducible apply answerReq_eff) | (with_reducible apply Eff.step; with_reducible apply releaseFenced_eff)
    | split | dsimp only [id]

theorem execSlotPrsntChange_ran (slot : Nat) (level : Bool) (s : State) : Ran 0x5c11f s (execSlotPrsntChange slot level s) := by
  unfold execSlotPrsntChange
  try dsimp only
  repeat' first
    | with_reducible apply Eff.refl | with_reducible assumption | (apply Sub.of; rfl) | (apply Has.of; rfl) | intro _ | with_reducible apply ite_eff
    | with_reducible apply ite_ran | (with_reducible apply forEach_eff) | with_reducible apply onEng_ran
    | (with_reducible apply Eff.step; with_reducible apply wireEdge_eff) | (with_reducible apply Eff.step; with_reducible apply updSwPort_eff)
    | (with_reducible apply Eff.step; with_reducible apply portChange_eff) | split | dsimp only [id]

theorem execSlotWakeEdge_ran (slot : Nat) (s : State) : Ran 0x5c11f s (execSlotWakeEdge slot s) := by
  unfold execSlotWakeEdge
  try dsimp only
  repeat' first
    | with_reducible apply Eff.refl | with_reducible assumption | (apply Sub.of; rfl) | (apply Has.of; rfl) | intro _ | with_reducible apply ite_eff
    | with_reducible apply ite_ran | (with_reducible apply forEach_eff) | with_reducible apply onEng_ran
    | (with_reducible apply Eff.step; with_reducible apply wireEdge_eff) | (with_reducible apply Eff.step; with_reducible apply toDest_eff)
    | (with_reducible apply Eff.step; with_reducible apply upFar_eff) | split | dsimp only [id]

theorem execSlotAlertEdge_ran (slot : Nat) (s : State) : Ran 0x1c11f s (execSlotAlertEdge slot s) := by
  unfold execSlotAlertEdge
  try dsimp only
  repeat' first
    | with_reducible apply Eff.refl | with_reducible assumption | (apply Sub.of; rfl) | (apply Has.of; rfl) | intro _ | with_reducible apply ite_eff
    | with_reducible apply ite_ran | (with_reducible apply forEach_eff) | with_reducible apply onEng_ran
    | (with_reducible apply Eff.step; with_reducible apply wireEdge_eff) | (with_reducible apply Eff.step; with_reducible apply raise_eff) | split
    | dsimp only [id]

theorem execSlotClkreqChange_ran (slot : Nat) (level : Bool) (s : State) : Ran 0x5c11f s (execSlotClkreqChange slot level s) := by
  unfold execSlotClkreqChange
  try dsimp only
  repeat' first
    | with_reducible apply Eff.refl | with_reducible assumption | (apply Sub.of; rfl) | (apply Has.of; rfl) | intro _ | with_reducible apply ite_eff
    | with_reducible apply ite_ran | (with_reducible apply onlyIf_eff) | (with_reducible apply forEach_eff) | with_reducible apply onEng_ran
    | (with_reducible apply Eff.step; with_reducible apply wireEdge_eff) | (with_reducible apply Eff.step; with_reducible apply emit_eff)
    | (with_reducible apply Eff.step; with_reducible apply isolate_eff) | split | dsimp only [id]

theorem execPerstDeassertTimer_ran (idx : Nat) (s : State) : Ran 0x5811f s (execPerstDeassertTimer idx s) := by
  unfold execPerstDeassertTimer
  try dsimp only
  repeat' first
    | with_reducible apply Eff.refl | with_reducible assumption | (apply Sub.of; rfl) | (apply Has.of; rfl) | intro _ | with_reducible apply ite_eff
    | with_reducible apply ite_ran | (with_reducible apply onlyIf_eff) | with_reducible apply onEng_ran
    | (with_reducible apply Eff.step; with_reducible apply drivePerst_eff) | split | dsimp only [id]

end Sys2Proof.Machine
end

