-- ==== Sys2Proof/Laws/EffIsland.lean ====
section
/-!
SUPPORT. What each function of Machine/Island.lean can change.
-/

namespace Sys2Proof.Machine

theorem portStop_eff (p : Nat) (d : Dev) : Eff 0x5811d d (portStop p d) := by
  unfold portStop
  try dsimp only
  repeat' first
    | with_reducible apply Eff.refl | with_reducible assumption | (apply Sub.of; rfl) | (apply Has.of; rfl) | intro _ | with_reducible apply ite_eff
    | (with_reducible apply Eff.step; with_reducible apply dlDown_eff) | (with_reducible apply Eff.step; with_reducible apply declareDown_eff)
    | (with_reducible apply Eff.step; with_reducible apply ethPcsChange_eff) | (with_reducible apply Eff.step; with_reducible apply lanesOff_eff)
    | split | dsimp only [id]

theorem laneReset_eff (a : Dev) (n : Nat) (d : Dev) : Eff 0x811d d (laneReset a n d) := by
  unfold laneReset
  try dsimp only
  repeat' first
    | with_reducible apply Eff.refl | with_reducible assumption | (apply Sub.of; rfl) | (apply Has.of; rfl) | intro _ | with_reducible apply ite_eff
    | (with_reducible apply forEach_eff) | (with_reducible apply Eff.step; with_reducible apply eyeAbort_eff)
    | (with_reducible apply Eff.step; with_reducible apply wr_eff) | (with_reducible apply Eff.step; with_reducible apply warmField_eff) | split
    | dsimp only [id]

theorem portRegsReset_eff (p : Nat) (d : Dev) : Eff 0x40001 d (portRegsReset p d) := by
  unfold portRegsReset
  try dsimp only
  repeat' first
    | with_reducible apply Eff.refl | with_reducible assumption | (apply Sub.of; rfl) | (apply Has.of; rfl) | intro _ | with_reducible apply ite_eff
    | (with_reducible apply onlyIf_eff) | (with_reducible apply forEach_eff) | (with_reducible apply Eff.step; with_reducible apply resetRoRc_eff)
    | (with_reducible apply Eff.step; with_reducible apply warmField_eff) | (with_reducible apply Eff.step; with_reducible apply updSwPort_eff)
    | split | dsimp only [id]

theorem countReset_eff (i : Nat) (q : Packet) (d : Dev) : Eff 0x9 d (countReset i q d) := by
  unfold countReset
  try dsimp only
  repeat' first
    | with_reducible apply Eff.refl | with_reducible assumption | (apply Sub.of; rfl) | (apply Has.of; rfl) | intro _ | with_reducible apply ite_eff
    | (with_reducible apply Eff.step; with_reducible apply bump_eff) | split | dsimp only [id]

theorem islandStop_eff (i : Nat) (d : Dev) : Eff 0x5811d d (islandStop i d) := by
  unfold islandStop
  try dsimp only
  repeat' first
    | with_reducible apply Eff.refl | with_reducible assumption | (apply Sub.of; rfl) | (apply Has.of; rfl) | intro _ | with_reducible apply ite_eff
    | (with_reducible apply forEach_eff) | (with_reducible apply Eff.step; with_reducible apply dropPkt_eff)
    | (with_reducible apply Eff.step; with_reducible apply portStop_eff) | (with_reducible apply Eff.step; with_reducible apply portRegsReset_eff)
    | (with_reducible apply Eff.step; with_reducible apply wr_eff) | (with_reducible apply Eff.step; with_reducible apply laneReset_eff)
    | (with_reducible apply Eff.step; with_reducible apply resetRoRc_eff) | (with_reducible apply Eff.step; with_reducible apply countReset_eff)
    | split | dsimp only [id]

theorem islandReset_eff (i : Nat) (d : Dev) : Eff 0x5811d d (islandReset i d) := by
  unfold islandReset
  try dsimp only
  repeat' first
    | with_reducible apply Eff.refl | with_reducible assumption | (apply Sub.of; rfl) | (apply Has.of; rfl) | intro _ | with_reducible apply ite_eff
    | (with_reducible apply Eff.step; with_reducible apply islandStop_eff) | split | dsimp only [id]

theorem schedReset_eff (p : Nat) (d : Dev) : Eff 0x811d d (schedReset p d) := by
  unfold schedReset
  try dsimp only
  repeat' first
    | with_reducible apply Eff.refl | with_reducible assumption | (apply Sub.of; rfl) | (apply Has.of; rfl) | intro _ | with_reducible apply ite_eff
    | (with_reducible apply onlyIf_eff) | (with_reducible apply forEach_eff) | (with_reducible apply Eff.step; with_reducible apply updSched_eff)
    | (with_reducible apply Eff.step; with_reducible apply setTokens_eff) | (with_reducible apply Eff.step; with_reducible apply gateStart_eff)
    | split | dsimp only [id]

theorem islandStart_eff (i : Nat) (d : Dev) : Eff 0x811d d (islandStart i d) := by
  unfold islandStart
  try dsimp only
  repeat' first
    | with_reducible apply Eff.refl | with_reducible assumption | (apply Sub.of; rfl) | (apply Has.of; rfl) | intro _ | with_reducible apply ite_eff
    | (with_reducible apply forEach_eff) | (with_reducible apply Eff.step; with_reducible apply wr_eff)
    | (with_reducible apply Eff.step; with_reducible apply startBringup_eff) | (with_reducible apply Eff.step; with_reducible apply gateStart_eff)
    | split | dsimp only [id]

theorem islandDone_eff (i : Nat) (d : Dev) : Eff 0x811d d (islandDone i d) := by
  unfold islandDone
  try dsimp only
  repeat' first
    | with_reducible apply Eff.refl | with_reducible assumption | (apply Sub.of; rfl) | (apply Has.of; rfl) | intro _ | with_reducible apply ite_eff
    | (with_reducible apply forEach_eff) | (with_reducible apply Eff.step; with_reducible apply dropPkt_eff)
    | (with_reducible apply Eff.step; with_reducible apply countReset_eff) | (with_reducible apply Eff.step; with_reducible apply schedReset_eff)
    | (with_reducible apply Eff.step; with_reducible apply wr_eff) | (with_reducible apply Eff.step; with_reducible apply raise_eff)
    | (with_reducible apply Eff.step; with_reducible apply islandStart_eff) | split | dsimp only [id]

theorem execIslReset_ran (isl : Nat) (s : State) : Ran 0x7911f s (execIslReset isl s) := by
  unfold execIslReset
  try dsimp only
  repeat' first
    | with_reducible apply Eff.refl | with_reducible assumption | (apply Sub.of; rfl) | (apply Has.of; rfl) | intro _ | with_reducible apply ite_eff
    | with_reducible apply ite_ran | (with_reducible apply onlyIf_eff) | with_reducible apply onNet_ran | (with_reducible apply trigger_eff)
    | (with_reducible apply Eff.step; with_reducible apply islandReset_eff) | split | dsimp only [id]

theorem writeTest_eff (i test : Nat) (d : Dev) : Eff 0x5811d d (writeTest i test d) := by
  unfold writeTest
  try dsimp only
  repeat' first
    | with_reducible apply Eff.refl | with_reducible assumption | (apply Sub.of; rfl) | (apply Has.of; rfl) | intro _ | with_reducible apply ite_eff
    | (with_reducible apply Eff.step; with_reducible apply wr_eff) | (with_reducible apply Eff.step; with_reducible apply islandReset_eff) | split
    | dsimp only [id]

theorem execIslTestWrite_ran (isl : Nat) (test : Bool) (s : State) : Ran 0x7911f s (execIslTestWrite isl test s) := by
  unfold execIslTestWrite
  try dsimp only
  repeat' first
    | with_reducible apply Eff.refl | with_reducible assumption | (apply Sub.of; rfl) | (apply Has.of; rfl) | intro _ | with_reducible apply ite_eff
    | with_reducible apply ite_ran | with_reducible apply onNet_ran | (with_reducible apply mgmtWrite_eff) | (with_reducible apply unlessLocked_eff)
    | (with_reducible apply Eff.step; with_reducible apply writeTest_eff) | split | dsimp only [id]

theorem execIslandResetDone_ran (isl : Nat) (s : State) : Ran 0x7911f s (execIslandResetDone isl s) := by
  unfold execIslandResetDone
  try dsimp only
  repeat' first
    | with_reducible apply Eff.refl | with_reducible assumption | (apply Sub.of; rfl) | (apply Has.of; rfl) | intro _ | with_reducible apply ite_eff
    | with_reducible apply ite_ran | with_reducible apply onNet_ran | (with_reducible apply Eff.step; with_reducible apply islandDone_eff) | split
    | dsimp only [id]

end Sys2Proof.Machine
end

