-- ==== Sys2Proof/Laws/EffStrait.lean ====
section
/-!
SUPPORT. What each function of Machine/Strait.lean can change.
-/

namespace Sys2Proof.Machine

theorem offer_eff (s i e l : Nat) (d : Dev) : Eff 0x8004 d (offer s i e l d) := by
  unfold offer
  try dsimp only
  repeat' first
    | with_reducible apply Eff.refl | with_reducible assumption | (apply Sub.of; rfl) | (apply Has.of; rfl) | intro _ | with_reducible apply ite_eff
    | split | (with_reducible apply Eff.step; with_reducible apply emit_eff) | (with_reducible apply Eff.last; with_reducible apply Prim.net) | split
    | dsimp only [id]

theorem applyMatch_eff (s : Nat) (m : Nat × Nat × Nat × Nat) (d : Dev) : Eff 0x800d d (applyMatch s m d) := by
  unfold applyMatch
  try dsimp only
  repeat' first
    | with_reducible apply Eff.refl | with_reducible assumption | (apply Sub.of; rfl) | (apply Has.of; rfl) | intro _ | with_reducible apply ite_eff
    | (with_reducible apply onlyIf_eff) | (with_reducible apply Eff.step; with_reducible apply offer_eff)
    | (with_reducible apply Eff.step; with_reducible apply bump_eff) | (with_reducible apply Eff.last; with_reducible apply Prim.net) | split
    | dsimp only [id]

theorem ackAccesses_eff (s : Nat) (d : Dev) : Eff 0x8000 d (ackAccesses s d) := by
  unfold ackAccesses
  try dsimp only
  repeat' first
    | with_reducible apply Eff.refl | with_reducible assumption | (apply Sub.of; rfl) | (apply Has.of; rfl) | intro _ | with_reducible apply ite_eff
    | (with_reducible apply Eff.last; with_reducible apply Prim.net) | split | dsimp only [id]

theorem straitMatch_eff (s : Nat) (d : Dev) : Eff 0x800d d (straitMatch s d) := by
  unfold straitMatch
  try dsimp only
  repeat' first
    | with_reducible apply Eff.refl | with_reducible assumption | (apply Sub.of; rfl) | (apply Has.of; rfl) | intro _ | with_reducible apply ite_eff
    | (with_reducible apply forEach_eff) | (with_reducible apply Eff.step; with_reducible apply ackAccesses_eff)
    | (with_reducible apply Eff.step; with_reducible apply applyMatch_eff) | split | dsimp only [id]

theorem takeDesc_eff (x : Desc) (d : Dev) : Eff 0x1811d d (takeDesc x d) := by
  unfold takeDesc
  try dsimp only
  repeat' first
    | with_reducible apply Eff.refl | with_reducible assumption | (apply Sub.of; rfl) | (apply Has.of; rfl) | intro _ | with_reducible apply ite_eff
    | (with_reducible apply Eff.step; with_reducible apply enqueueDesc_eff) | (with_reducible apply Eff.last; with_reducible apply Prim.net) | split
    | dsimp only [id]

theorem releaseBehind_eff (i e k : Nat) (d : Dev) : Eff 0x1811d d (releaseBehind i e k d) := by
  induction k generalizing d with
  | zero => exact .refl d
  | succ k ih =>
    unfold releaseBehind
    split
    · exact Eff.trans (Eff.step (takeDesc_eff ..) (Sub.of rfl) (.tail (.refl d) (.net d _) rfl)) (ih _)
    · exact .refl d

theorem ackDesc_eff (s i e q : Nat) (d : Dev) : Eff 0x8004 d (ackDesc s i e q d) := by
  unfold ackDesc
  try dsimp only
  repeat' first
    | with_reducible apply Eff.refl | with_reducible assumption | (apply Sub.of; rfl) | (apply Has.of; rfl) | intro _ | with_reducible apply ite_eff
    | (with_reducible apply Eff.step; with_reducible apply emit_eff) | (with_reducible apply Eff.last; with_reducible apply Prim.net) | split
    | dsimp only [id]

theorem descriptorRx_eff (s i e q : Nat) (d : Dev) : Eff 0x1811d d (descriptorRx s i e q d) := by
  unfold descriptorRx
  try dsimp only
  repeat' first
    | with_reducible apply Eff.refl | with_reducible assumption | (apply Sub.of; rfl) | (apply Has.of; rfl) | intro _ | with_reducible apply ite_eff
    | split | (with_reducible apply Eff.step; with_reducible apply ackDesc_eff) | (with_reducible apply Eff.step; with_reducible apply bump_eff)
    | (with_reducible apply Eff.step; with_reducible apply takeDesc_eff) | (with_reducible apply Eff.step; with_reducible apply releaseBehind_eff)
    | (with_reducible apply Eff.step; with_reducible apply wr_eff) | (with_reducible apply Eff.step; with_reducible apply emit_eff)
    | (with_reducible apply Eff.last; with_reducible apply Prim.net) | split | dsimp only [id]

theorem reorderStall_eff (i e : Nat) (d : Dev) : Eff 0x1811d d (reorderStall i e d) := by
  unfold reorderStall
  try dsimp only
  repeat' first
    | with_reducible apply Eff.refl | with_reducible assumption | (apply Sub.of; rfl) | (apply Has.of; rfl) | intro _ | with_reducible apply ite_eff
    | split | (with_reducible apply forEach_eff) | (with_reducible apply Eff.step; with_reducible apply failPkt_eff)
    | (with_reducible apply Eff.step; with_reducible apply releaseBehind_eff) | (with_reducible apply Eff.step; with_reducible apply raise_eff)
    | (with_reducible apply Eff.last; with_reducible apply Prim.net) | split | dsimp only [id]

theorem reoffer_eff (s : Nat) (d : Dev) : Eff 0x8009 d (reoffer s d) := by
  unfold reoffer
  try dsimp only
  repeat' first
    | with_reducible apply Eff.refl | with_reducible assumption | (apply Sub.of; rfl) | (apply Has.of; rfl) | intro _ | with_reducible apply ite_eff
    | (with_reducible apply Eff.step; with_reducible apply addI_eff) | (with_reducible apply Eff.last; with_reducible apply Prim.net) | split
    | dsimp only [id]

theorem straitLost_eff (s : Nat) (d : Dev) : Eff 0x800d d (straitLost s d) := by
  unfold straitLost
  try dsimp only
  repeat' first
    | with_reducible apply Eff.refl | with_reducible assumption | (apply Sub.of; rfl) | (apply Has.of; rfl) | intro _ | with_reducible apply ite_eff
    | (with_reducible apply forEach_eff) | (with_reducible apply Eff.step; with_reducible apply reoffer_eff)
    | (with_reducible apply Eff.step; with_reducible apply ackAccesses_eff) | (with_reducible apply Eff.step; with_reducible apply reissue_eff)
    | split | dsimp only [id]

theorem straitFaultDetect_eff (s cause isl : Nat) (d : Dev) : Eff 0x891d d (straitFaultDetect s cause isl d) := by
  unfold straitFaultDetect
  try dsimp only
  repeat' first
    | with_reducible apply Eff.refl | with_reducible assumption | (apply Sub.of; rfl) | (apply Has.of; rfl) | intro _ | with_reducible apply ite_eff
    | (with_reducible apply Eff.step; with_reducible apply wr_eff) | (with_reducible apply Eff.step; with_reducible apply straitLost_eff)
    | (with_reducible apply Eff.step; with_reducible apply raise_eff) | (with_reducible apply Eff.step; with_reducible apply drainDone_eff) | split
    | dsimp only [id]

theorem writeStrEn_eff (s en : Nat) (val : Word) (d : Dev) : Eff 0x811d d (writeStrEn s en val d) := by
  unfold writeStrEn
  try dsimp only
  repeat' first
    | with_reducible apply Eff.refl | with_reducible assumption | (apply Sub.of; rfl) | (apply Has.of; rfl) | intro _ | with_reducible apply ite_eff
    | (with_reducible apply onlyIf_eff) | (with_reducible apply Eff.step; with_reducible apply cfgErr_eff)
    | (with_reducible apply Eff.step; with_reducible apply wr_eff) | (with_reducible apply Eff.last; with_reducible apply Prim.net) | split
    | dsimp only [id]

theorem straitDrainDone_eff (s : Nat) (d : Dev) : Eff 0x8805 d (straitDrainDone s d) := by
  unfold straitDrainDone
  try dsimp only
  repeat' first
    | with_reducible apply Eff.refl | with_reducible assumption | (apply Sub.of; rfl) | (apply Has.of; rfl) | intro _ | with_reducible apply ite_eff
    | (with_reducible apply Eff.step; with_reducible apply ackAccesses_eff) | (with_reducible apply Eff.step; with_reducible apply wr_eff)
    | (with_reducible apply Eff.step; with_reducible apply drainDone_eff) | split | dsimp only [id]

theorem straitSelftestDone_eff (s : Nat) (pass : Bool) (d : Dev) : Eff 0x891d d (straitSelftestDone s pass d) := by
  unfold straitSelftestDone
  try dsimp only
  repeat' first
    | with_reducible apply Eff.refl | with_reducible assumption | (apply Sub.of; rfl) | (apply Has.of; rfl) | intro _ | with_reducible apply ite_eff
    | (with_reducible apply onlyIf_eff) | (with_reducible apply Eff.step; with_reducible apply wr_eff)
    | (with_reducible apply Eff.step; with_reducible apply raise_eff) | (with_reducible apply Eff.step; with_reducible apply straitLost_eff)
    | (with_reducible apply Eff.step; with_reducible apply drainDone_eff) | (with_reducible apply Eff.last; with_reducible apply Prim.net) | split
    | dsimp only [id]

theorem harbourUncorrRead_eff (seg cell pkt : Nat) (d : Dev) : Eff 0x1811d d (harbourUncorrRead seg cell pkt d) := by
  unfold harbourUncorrRead
  try dsimp only
  repeat' first
    | with_reducible apply Eff.refl | with_reducible assumption | (apply Sub.of; rfl) | (apply Has.of; rfl) | intro _ | with_reducible apply ite_eff
    | (with_reducible apply Eff.step; with_reducible apply bump_eff) | (with_reducible apply Eff.step; with_reducible apply raiseDet_eff)
    | (with_reducible apply Eff.step; with_reducible apply failPkt_eff) | split | dsimp only [id]

theorem segmentDrainDone_eff (g : Nat) (d : Dev) : Eff 0x805 d (segmentDrainDone g d) := by
  unfold segmentDrainDone
  try dsimp only
  repeat' first
    | with_reducible apply Eff.refl | with_reducible assumption | (apply Sub.of; rfl) | (apply Has.of; rfl) | intro _ | with_reducible apply ite_eff
    | (with_reducible apply Eff.step; with_reducible apply wr_eff) | (with_reducible apply Eff.step; with_reducible apply drainDone_eff) | split
    | dsimp only [id]

theorem makeRoom_eff (k base size need : Nat) (fuel : Nat) (d : Dev) : Eff 0x1 d (makeRoom k base size need fuel d) := by
  induction fuel generalizing d with
  | zero =>
    unfold makeRoom
    try dsimp only
    repeat' first
      | with_reducible apply Eff.refl | with_reducible assumption | (apply Sub.of; rfl) | (apply Has.of; rfl) | intro _ | with_reducible apply ite_eff
      | (with_reducible apply Eff.step; with_reducible apply wrI_eff) | split | dsimp only [id]
  | succ fuel ih =>
    unfold makeRoom
    try dsimp only
    repeat' first
      | (with_reducible apply Eff.step; with_reducible apply ih)
      | with_reducible apply Eff.refl | with_reducible assumption | (apply Sub.of; rfl) | (apply Has.of; rfl) | intro _ | with_reducible apply ite_eff
      | (with_reducible apply Eff.step; with_reducible apply wrI_eff) | split | dsimp only [id]

theorem mirrorRecordWrite_eff (k : Nat) (d : Dev) : Eff 0x811f d (mirrorRecordWrite k d) := by
  unfold mirrorRecordWrite
  try dsimp only
  repeat' first
    | with_reducible apply Eff.refl | with_reducible assumption | (apply Sub.of; rfl) | (apply Has.of; rfl) | intro _ | with_reducible apply ite_eff
    | split | (with_reducible apply onlyIf_eff) | (with_reducible apply Eff.step; with_reducible apply releaseKept_eff)
    | (with_reducible apply Eff.step; with_reducible apply makeRoom_eff) | (with_reducible apply Eff.step; with_reducible apply raise_eff)
    | (with_reducible apply Eff.step; with_reducible apply dropCopy_eff) | (with_reducible apply Eff.step; with_reducible apply memWrites_eff)
    | (with_reducible apply Eff.step; with_reducible apply wrI_eff) | (with_reducible apply Eff.last; with_reducible apply Prim.net) | split
    | dsimp only [id]

theorem execStraitMatch_ran (strait : Nat) (s : State) : Ran 0x7911f s (execStraitMatch strait s) := by
  unfold execStraitMatch
  try dsimp only
  repeat' first
    | with_reducible apply Eff.refl | with_reducible assumption | (apply Sub.of; rfl) | (apply Has.of; rfl) | intro _ | with_reducible apply ite_eff
    | with_reducible apply ite_ran | with_reducible apply onNet_ran | (with_reducible apply Eff.step; with_reducible apply straitMatch_eff) | split
    | dsimp only [id]

theorem execDescriptorRx_ran (strait inIsl egIsl sseq : Nat) (s : State) : Ran 0x7911f s (execDescriptorRx strait inIsl egIsl sseq s) := by
  unfold execDescriptorRx
  try dsimp only
  repeat' first
    | with_reducible apply Eff.refl | with_reducible assumption | (apply Sub.of; rfl) | (apply Has.of; rfl) | intro _ | with_reducible apply ite_eff
    | with_reducible apply ite_ran | with_reducible apply onNet_ran | (with_reducible apply Eff.step; with_reducible apply descriptorRx_eff) | split
    | dsimp only [id]

theorem execReorderStall_ran (inIsl egIsl : Nat) (s : State) : Ran 0x7911f s (execReorderStall inIsl egIsl s) := by
  unfold execReorderStall
  try dsimp only
  repeat' first
    | with_reducible apply Eff.refl | with_reducible assumption | (apply Sub.of; rfl) | (apply Has.of; rfl) | intro _ | with_reducible apply ite_eff
    | with_reducible apply ite_ran | with_reducible apply onNet_ran | (with_reducible apply Eff.step; with_reducible apply reorderStall_eff) | split
    | dsimp only [id]

theorem execStraitFaultDetect_ran (strait cause isl : Nat) (data : Bool) (s : State) : Ran 0x7991f s (execStraitFaultDetect strait cause isl data s) := by
  unfold execStraitFaultDetect
  try dsimp only
  repeat' first
    | with_reducible apply Eff.refl | with_reducible assumption | (apply Sub.of; rfl) | (apply Has.of; rfl) | intro _ | with_reducible apply ite_eff
    | with_reducible apply ite_ran | with_reducible apply onNet_ran | (with_reducible apply Eff.step; with_reducible apply straitFaultDetect_eff)
    | split | dsimp only [id]

theorem execStrEnWrite_ran (strait en : Nat) (s : State) : Ran 0x7911f s (execStrEnWrite strait en s) := by
  unfold execStrEnWrite
  try dsimp only
  repeat' first
    | with_reducible apply Eff.refl | with_reducible assumption | (apply Sub.of; rfl) | (apply Has.of; rfl) | intro _ | with_reducible apply ite_eff
    | with_reducible apply ite_ran | with_reducible apply onNet_ran | (with_reducible apply mgmtWrite_eff) | (with_reducible apply unlessLocked_eff)
    | (with_reducible apply Eff.step; with_reducible apply writeStrEn_eff) | split | dsimp only [id]

theorem execStraitDrainDone_ran (strait : Nat) (s : State) : Ran 0x7991f s (execStraitDrainDone strait s) := by
  unfold execStraitDrainDone
  try dsimp only
  repeat' first
    | with_reducible apply Eff.refl | with_reducible assumption | (apply Sub.of; rfl) | (apply Has.of; rfl) | intro _ | with_reducible apply ite_eff
    | with_reducible apply ite_ran | with_reducible apply onNet_ran | (with_reducible apply Eff.step; with_reducible apply straitDrainDone_eff)
    | split | dsimp only [id]

theorem execStraitSelftestDone_ran (strait : Nat) (pass : Bool) (s : State) : Ran 0x7991f s (execStraitSelftestDone strait pass s) := by
  unfold execStraitSelftestDone
  try dsimp only
  repeat' first
    | with_reducible apply Eff.refl | with_reducible assumption | (apply Sub.of; rfl) | (apply Has.of; rfl) | intro _ | with_reducible apply ite_eff
    | with_reducible apply ite_ran | with_reducible apply onNet_ran | (with_reducible apply Eff.step; with_reducible apply straitSelftestDone_eff)
    | split | dsimp only [id]

theorem execHarbourUncorrRead_ran (seg cell pkt : Nat) (s : State) : Ran 0x7911f s (execHarbourUncorrRead seg cell pkt s) := by
  unfold execHarbourUncorrRead
  try dsimp only
  repeat' first
    | with_reducible apply Eff.refl | with_reducible assumption | (apply Sub.of; rfl) | (apply Has.of; rfl) | intro _ | with_reducible apply ite_eff
    | with_reducible apply ite_ran | with_reducible apply onNet_ran | (with_reducible apply Eff.step; with_reducible apply harbourUncorrRead_eff)
    | split | dsimp only [id]

theorem execSegmentDrainDone_ran (seg : Nat) (s : State) : Ran 0x7991f s (execSegmentDrainDone seg s) := by
  unfold execSegmentDrainDone
  try dsimp only
  repeat' first
    | with_reducible apply Eff.refl | with_reducible assumption | (apply Sub.of; rfl) | (apply Has.of; rfl) | intro _ | with_reducible apply ite_eff
    | with_reducible apply ite_ran | with_reducible apply onNet_ran | (with_reducible apply Eff.step; with_reducible apply segmentDrainDone_eff)
    | split | dsimp only [id]

theorem execMirrorRecordWrite_ran (session : Nat) (s : State) : Ran 0x7911f s (execMirrorRecordWrite session s) := by
  unfold execMirrorRecordWrite
  try dsimp only
  repeat' first
    | with_reducible apply Eff.refl | with_reducible assumption | (apply Sub.of; rfl) | (apply Has.of; rfl) | intro _ | with_reducible apply ite_eff
    | with_reducible apply ite_ran | with_reducible apply onNet_ran | (with_reducible apply Eff.step; with_reducible apply memDone_eff)
    | (with_reducible apply Eff.step; with_reducible apply mirrorRecordWrite_eff) | split | dsimp only [id]

end Sys2Proof.Machine
end

