-- ==== Sys2Proof/Laws/EffPower.lean ====
section
/-!
SUPPORT. What each function of Machine/Power.lean can change.
-/

namespace Sys2Proof.Machine

theorem updFd_eff (f : Feeds → Feeds) (d : Dev) : Eff 0x400 d (updFd f d) := by
  unfold updFd
  try dsimp only
  repeat' first
    | with_reducible apply Eff.refl | with_reducible assumption | (apply Sub.of; rfl) | (apply Has.of; rfl) | intro _ | with_reducible apply ite_eff
    | (with_reducible apply Eff.last; with_reducible apply Prim.fd) | split | dsimp only [id]

theorem setAttempt_eff (w : Nat) (x : Option (Option Nat)) (d : Dev) : Eff 0x400 d (setAttempt w x d) := by
  unfold setAttempt
  try dsimp only
  repeat' first
    | with_reducible apply Eff.refl | with_reducible assumption | (apply Sub.of; rfl) | (apply Has.of; rfl) | intro _ | with_reducible apply ite_eff
    | (with_reducible apply Eff.step; with_reducible apply updFd_eff) | split | dsimp only [id]

theorem setFails_eff (w n : Nat) (d : Dev) : Eff 0x400 d (setFails w n d) := by
  unfold setFails
  try dsimp only
  repeat' first
    | with_reducible apply Eff.refl | with_reducible assumption | (apply Sub.of; rfl) | (apply Has.of; rfl) | intro _ | with_reducible apply ite_eff
    | (with_reducible apply Eff.step; with_reducible apply updFd_eff) | split | dsimp only [id]

theorem openPath_eff (w st : Nat) (d : Dev) : Eff 0x5 d (openPath w st d) := by
  unfold openPath
  try dsimp only
  repeat' first
    | with_reducible apply Eff.refl | with_reducible assumption | (apply Sub.of; rfl) | (apply Has.of; rfl) | intro _ | with_reducible apply ite_eff
    | (with_reducible apply onlyIf_eff) | (with_reducible apply Eff.step; with_reducible apply emit_eff)
    | (with_reducible apply Eff.step; with_reducible apply wr_eff) | split | dsimp only [id]

theorem closePath_eff (w : Nat) (d : Dev) : Eff 0x405 d (closePath w d) := by
  unfold closePath
  try dsimp only
  repeat' first
    | with_reducible apply Eff.refl | with_reducible assumption | (apply Sub.of; rfl) | (apply Has.of; rfl) | intro _ | with_reducible apply ite_eff
    | (with_reducible apply Eff.step; with_reducible apply updFd_eff)
    | (with_reducible apply onlyIf_eff) | (with_reducible apply Eff.step; with_reducible apply emit_eff)
    | (with_reducible apply Eff.step; with_reducible apply wr_eff) | (with_reducible apply Eff.step; with_reducible apply setAttempt_eff) | split
    | dsimp only [id]

theorem switchTo_eff (w : Nat) (d : Dev) : Eff 0x51d d (switchTo w d) := by
  unfold switchTo
  try dsimp only
  repeat' first
    | with_reducible apply Eff.refl | with_reducible assumption | (apply Sub.of; rfl) | (apply Has.of; rfl) | intro _ | with_reducible apply ite_eff
    | (with_reducible apply onlyIf_eff) | (with_reducible apply Eff.step; with_reducible apply openPath_eff)
    | (with_reducible apply Eff.step; with_reducible apply closePath_eff) | (with_reducible apply Eff.step; with_reducible apply bump_eff)
    | (with_reducible apply Eff.step; with_reducible apply raise_eff) | split | dsimp only [id]

theorem feedPresent_eff (w : Nat) (on : Bool) (d : Dev) : Eff 0x409 d (feedPresent w on d) := by
  unfold feedPresent
  try dsimp only
  repeat' first
    | with_reducible apply Eff.refl | with_reducible assumption | (apply Sub.of; rfl) | (apply Has.of; rfl) | intro _ | with_reducible apply ite_eff
    | (with_reducible apply onlyIf_eff) | (with_reducible apply Eff.step; with_reducible apply updFd_eff)
    | (with_reducible apply Eff.step; with_reducible apply wr_eff) | (with_reducible apply Eff.step; with_reducible apply wrFit_eff) | split
    | dsimp only [id]

theorem execFeedPresentChange_ran (feed : Nat) (present : Bool) (s : State) : Ran 0x409 s (execFeedPresentChange feed present s) := by
  unfold execFeedPresentChange
  try dsimp only
  repeat' first
    | with_reducible apply Eff.refl | with_reducible assumption | (apply Sub.of; rfl) | (apply Has.of; rfl) | intro _ | with_reducible apply ite_eff
    | with_reducible apply ite_ran | (with_reducible apply onlyIf_eff) | with_reducible apply onDev_ran
    | (with_reducible apply Eff.step; with_reducible apply feedPresent_eff) | split | dsimp only [id]

theorem feedGood_eff (w : Nat) (d : Dev) : Eff 0x51d d (feedGood w d) := by
  unfold feedGood
  try dsimp only
  repeat' first
    | with_reducible apply Eff.refl | with_reducible assumption | (apply Sub.of; rfl) | (apply Has.of; rfl) | intro _ | with_reducible apply ite_eff
    | (with_reducible apply Eff.step; with_reducible apply switchTo_eff)
    | (with_reducible apply Eff.step; with_reducible apply updFd_eff)
    | (with_reducible apply onlyIf_eff) | (with_reducible apply Eff.step; with_reducible apply wr_eff)
    | (with_reducible apply Eff.step; with_reducible apply closePath_eff) | (with_reducible apply Eff.step; with_reducible apply bump_eff)
    | (with_reducible apply Eff.step; with_reducible apply raise_eff) | split | dsimp only [id]

theorem execFeedGood_ran (feed : Nat) (s : State) : Ran 0x51d s (execFeedGood feed s) := by
  unfold execFeedGood
  try dsimp only
  repeat' first
    | with_reducible apply Eff.refl | with_reducible assumption | (apply Sub.of; rfl) | (apply Has.of; rfl) | intro _ | with_reducible apply ite_eff
    | with_reducible apply ite_ran | (with_reducible apply onlyIf_eff) | with_reducible apply onDev_ran
    | (with_reducible apply Eff.step; with_reducible apply feedGood_eff) | split | dsimp only [id]

theorem execFeedNotGood_ran (feed : Nat) (s : State) : Ran 0x1 s (execFeedNotGood feed s) := by
  unfold execFeedNotGood
  try dsimp only
  repeat' first
    | with_reducible apply Eff.refl | with_reducible assumption | (apply Sub.of; rfl) | (apply Has.of; rfl) | intro _ | with_reducible apply ite_eff
    | with_reducible apply ite_ran | (with_reducible apply onlyIf_eff) | with_reducible apply onDev_ran
    | (with_reducible apply Eff.step; with_reducible apply wr_eff) | split | dsimp only [id]

theorem execFeedBelowSwLevel_ran (s : State) : Ran 0x51d s (execFeedBelowSwLevel s) := by
  unfold execFeedBelowSwLevel
  try dsimp only
  repeat' first
    | with_reducible apply Eff.refl | with_reducible assumption | (apply Sub.of; rfl) | (apply Has.of; rfl) | intro _ | with_reducible apply ite_eff
    | (with_reducible apply Eff.step; with_reducible apply updFd_eff)
    | with_reducible apply ite_ran | (with_reducible apply onlyIf_eff) | with_reducible apply onDev_ran
    | (with_reducible apply Eff.step; with_reducible apply wr_eff) | (with_reducible apply Eff.step; with_reducible apply switchTo_eff) | split
    | dsimp only [id]

theorem switchNow_eff (d : Dev) : Eff 0x51d d (switchNow d) := by
  unfold switchNow
  try dsimp only
  repeat' first
    | with_reducible apply Eff.refl | with_reducible assumption | (apply Sub.of; rfl) | (apply Has.of; rfl) | intro _ | with_reducible apply ite_eff
    | (with_reducible apply Eff.step; with_reducible apply switchTo_eff) | split | dsimp only [id]

theorem execSwitchNow_ran (s : State) : Ran 0x51d s (execSwitchNow s) := by
  unfold execSwitchNow
  try dsimp only
  repeat' first
    | with_reducible apply Eff.refl | with_reducible assumption | (apply Sub.of; rfl) | (apply Has.of; rfl) | intro _ | with_reducible apply ite_eff
    | with_reducible apply ite_ran | with_reducible apply onDev_ran | (with_reducible apply trigger_eff)
    | (with_reducible apply Eff.step; with_reducible apply switchNow_eff) | split | dsimp only [id]

theorem execFeedSwitchBack_ran (s : State) : Ran 0x51d s (execFeedSwitchBack s) := by
  unfold execFeedSwitchBack
  try dsimp only
  repeat' first
    | with_reducible apply Eff.refl | with_reducible assumption | (apply Sub.of; rfl) | (apply Has.of; rfl) | intro _ | with_reducible apply ite_eff
    | with_reducible apply ite_ran | (with_reducible apply onlyIf_eff) | with_reducible apply onDev_ran
    | (with_reducible apply Eff.step; with_reducible apply switchTo_eff) | split | dsimp only [id]

theorem efuseTrip_eff (w cause peak : Nat) (d : Dev) : Eff 0x51d d (efuseTrip w cause peak d) := by
  unfold efuseTrip
  try dsimp only
  repeat' first
    | with_reducible apply Eff.refl | with_reducible assumption | (apply Sub.of; rfl) | (apply Has.of; rfl) | intro _ | with_reducible apply ite_eff
    | (with_reducible apply onlyIf_eff) | (with_reducible apply Eff.step; with_reducible apply emit_eff)
    | (with_reducible apply Eff.step; with_reducible apply wr_eff) | (with_reducible apply Eff.step; with_reducible apply bump_eff)
    | (with_reducible apply Eff.step; with_reducible apply updFd_eff) | (with_reducible apply Eff.step; with_reducible apply setAttempt_eff)
    | (with_reducible apply Eff.step; with_reducible apply setFails_eff) | (with_reducible apply Eff.step; with_reducible apply raiseDet_eff) | split
    | dsimp only [id]

theorem execEfuseTrip_ran (feed cause peak : Nat) (s : State) : Ran 0x51d s (execEfuseTrip feed cause peak s) := by
  unfold execEfuseTrip
  try dsimp only
  repeat' first
    | with_reducible apply Eff.refl | with_reducible assumption | (apply Sub.of; rfl) | (apply Has.of; rfl) | intro _ | with_reducible apply ite_eff
    | with_reducible apply ite_ran | (with_reducible apply onlyIf_eff) | with_reducible apply onDev_ran
    | (with_reducible apply Eff.step; with_reducible apply efuseTrip_eff) | split | dsimp only [id]

theorem pathOpen_eff (w : Nat) (d : Dev) : Eff 0x51d d (pathOpen w d) := by
  unfold pathOpen
  try dsimp only
  repeat' first
    | with_reducible apply Eff.refl | with_reducible assumption | (apply Sub.of; rfl) | (apply Has.of; rfl) | intro _ | with_reducible apply ite_eff
    | (with_reducible apply onlyIf_eff) | (with_reducible apply Eff.step; with_reducible apply wr_eff)
    | (with_reducible apply Eff.step; with_reducible apply raise_eff) | (with_reducible apply Eff.step; with_reducible apply switchTo_eff)
    | (with_reducible apply Eff.step; with_reducible apply closePath_eff) | split | dsimp only [id]

theorem execPathOpenConfirmed_ran (feed : Nat) (s : State) : Ran 0x51d s (execPathOpenConfirmed feed s) := by
  unfold execPathOpenConfirmed
  try dsimp only
  repeat' first
    | with_reducible apply Eff.refl | with_reducible assumption | (apply Sub.of; rfl) | (apply Has.of; rfl) | intro _ | with_reducible apply ite_eff
    | with_reducible apply ite_ran | (with_reducible apply onlyIf_eff) | with_reducible apply onDev_ran
    | (with_reducible apply Eff.step; with_reducible apply pathOpen_eff) | split | dsimp only [id]

theorem execRetryPeriodExpire_ran (feed : Nat) (s : State) : Ran 0x1 s (execRetryPeriodExpire feed s) := by
  unfold execRetryPeriodExpire
  try dsimp only
  repeat' first
    | with_reducible apply Eff.refl | with_reducible assumption | (apply Sub.of; rfl) | (apply Has.of; rfl) | intro _ | with_reducible apply ite_eff
    | with_reducible apply ite_ran | (with_reducible apply onlyIf_eff) | with_reducible apply onDev_ran
    | (with_reducible apply Eff.step; with_reducible apply wr_eff) | split | dsimp only [id]

theorem retryAttempt_eff (w : Nat) (d : Dev) : Eff 0x51d d (retryAttempt w d) := by
  unfold retryAttempt
  try dsimp only
  repeat' first
    | with_reducible apply Eff.refl | with_reducible assumption | (apply Sub.of; rfl) | (apply Has.of; rfl) | intro _ | with_reducible apply ite_eff
    | (with_reducible apply onlyIf_eff) | (with_reducible apply Eff.step; with_reducible apply setAttempt_eff)
    | (with_reducible apply Eff.step; with_reducible apply closePath_eff) | (with_reducible apply Eff.step; with_reducible apply bump_eff)
    | (with_reducible apply Eff.step; with_reducible apply raise_eff) | (with_reducible apply Eff.step; with_reducible apply wr_eff) | split
    | dsimp only [id]

theorem execRetryAttempt_ran (feed : Nat) (s : State) : Ran 0x51d s (execRetryAttempt feed s) := by
  unfold execRetryAttempt
  try dsimp only
  repeat' first
    | with_reducible apply Eff.refl | with_reducible assumption | (apply Sub.of; rfl) | (apply Has.of; rfl) | intro _ | with_reducible apply ite_eff
    | with_reducible apply ite_ran | (with_reducible apply onlyIf_eff) | with_reducible apply onDev_ran
    | (with_reducible apply Eff.step; with_reducible apply retryAttempt_eff) | split | dsimp only [id]

theorem inrushDone_eff (w : Nat) (d : Dev) : Eff 0x51d d (inrushDone w d) := by
  unfold inrushDone
  try dsimp only
  repeat' first
    | with_reducible apply Eff.refl | with_reducible assumption | (apply Sub.of; rfl) | (apply Has.of; rfl) | intro _ | with_reducible apply ite_eff
    | (with_reducible apply onlyIf_eff) | (with_reducible apply Eff.step; with_reducible apply wr_eff)
    | (with_reducible apply Eff.step; with_reducible apply setAttempt_eff) | (with_reducible apply Eff.step; with_reducible apply setFails_eff)
    | (with_reducible apply Eff.step; with_reducible apply raise_eff) | split | dsimp only [id]

theorem execInrushChargeComplete_ran (feed : Nat) (s : State) : Ran 0x51d s (execInrushChargeComplete feed s) := by
  unfold execInrushChargeComplete
  try dsimp only
  repeat' first
    | with_reducible apply Eff.refl | with_reducible assumption | (apply Sub.of; rfl) | (apply Has.of; rfl) | intro _ | with_reducible apply ite_eff
    | with_reducible apply ite_ran | (with_reducible apply onlyIf_eff) | with_reducible apply onDev_ran
    | (with_reducible apply Eff.step; with_reducible apply inrushDone_eff) | split | dsimp only [id]

theorem tripClr_eff (w : Nat) (d : Dev) : Eff 0x401 d (tripClr w d) := by
  unfold tripClr
  try dsimp only
  repeat' first
    | with_reducible apply Eff.refl | with_reducible assumption | (apply Sub.of; rfl) | (apply Has.of; rfl) | intro _ | with_reducible apply ite_eff
    | (with_reducible apply Eff.step; with_reducible apply wr_eff) | (with_reducible apply Eff.step; with_reducible apply setAttempt_eff)
    | (with_reducible apply Eff.step; with_reducible apply setFails_eff) | split | dsimp only [id]

theorem execTripClr_ran (feed : Nat) (s : State) : Ran 0x51d s (execTripClr feed s) := by
  unfold execTripClr
  try dsimp only
  repeat' first
    | with_reducible apply Eff.refl | with_reducible assumption | (apply Sub.of; rfl) | (apply Has.of; rfl) | intro _ | with_reducible apply ite_eff
    | with_reducible apply ite_ran | (with_reducible apply onlyIf_eff) | with_reducible apply onDev_ran | (with_reducible apply trigger_eff)
    | (with_reducible apply Eff.step; with_reducible apply tripClr_eff) | split | dsimp only [id]

theorem throttling_eff (f : Feeds → Feeds) (d : Dev) : Eff 0x404 d (throttling f d) := by
  unfold throttling
  try dsimp only
  repeat' first
    | with_reducible apply Eff.refl | with_reducible assumption | (apply Sub.of; rfl) | (apply Has.of; rfl) | intro _ | with_reducible apply ite_eff
    | (with_reducible apply onlyIf_eff) | (with_reducible apply Eff.step; with_reducible apply updFd_eff)
    | (with_reducible apply Eff.step; with_reducible apply emit_eff) | split | dsimp only [id]

theorem holdTaps_eff (on : Bool) (d : Dev) : Eff 0x4 d (holdTaps on d) := by
  unfold holdTaps
  try dsimp only
  repeat' first
    | with_reducible apply Eff.refl | with_reducible assumption | (apply Sub.of; rfl) | (apply Has.of; rfl) | intro _ | with_reducible apply ite_eff
    | (with_reducible apply Eff.step; with_reducible apply emit_eff) | split | dsimp only [id]

theorem dipBegin_eff (d : Dev) : Eff 0x51d d (dipBegin d) := by
  unfold dipBegin
  try dsimp only
  repeat' first
    | with_reducible apply Eff.refl | with_reducible assumption | (apply Sub.of; rfl) | (apply Has.of; rfl) | intro _ | with_reducible apply ite_eff
    | (with_reducible apply onlyIf_eff) | (with_reducible apply Eff.step; with_reducible apply throttling_eff)
    | (with_reducible apply Eff.step; with_reducible apply holdTaps_eff) | (with_reducible apply Eff.step; with_reducible apply wr_eff)
    | (with_reducible apply Eff.step; with_reducible apply bump_eff) | (with_reducible apply Eff.step; with_reducible apply raise_eff) | split
    | dsimp only [id]

theorem execDipBegin_ran (s : State) : Ran 0x51d s (execDipBegin s) := by
  unfold execDipBegin
  try dsimp only
  repeat' first
    | with_reducible apply Eff.refl | with_reducible assumption | (apply Sub.of; rfl) | (apply Has.of; rfl) | intro _ | with_reducible apply ite_eff
    | with_reducible apply ite_ran | with_reducible apply onDev_ran | (with_reducible apply Eff.step; with_reducible apply dipBegin_eff) | split
    | dsimp only [id]

theorem dipEnd_eff (minMv : Nat) (d : Dev) : Eff 0x51d d (dipEnd minMv d) := by
  unfold dipEnd
  try dsimp only
  repeat' first
    | with_reducible apply Eff.refl | with_reducible assumption | (apply Sub.of; rfl) | (apply Has.of; rfl) | intro _ | with_reducible apply ite_eff
    | (with_reducible apply Eff.step; with_reducible apply updFd_eff) | (with_reducible apply Eff.step; with_reducible apply wrFit_eff)
    | (with_reducible apply Eff.step; with_reducible apply wr_eff) | (with_reducible apply Eff.step; with_reducible apply raiseDet_eff) | split
    | dsimp only [id]

theorem execDipEnd_ran (minMv : Nat) (s : State) : Ran 0x51d s (execDipEnd minMv s) := by
  unfold execDipEnd
  try dsimp only
  repeat' first
    | with_reducible apply Eff.refl | with_reducible assumption | (apply Sub.of; rfl) | (apply Has.of; rfl) | intro _ | with_reducible apply ite_eff
    | with_reducible apply ite_ran | with_reducible apply onDev_ran | (with_reducible apply Eff.step; with_reducible apply dipEnd_eff) | split
    | dsimp only [id]

theorem execThrottleEnd_ran (s : State) : Ran 0x405 s (execThrottleEnd s) := by
  unfold execThrottleEnd
  try dsimp only
  repeat' first
    | with_reducible apply Eff.refl | with_reducible assumption | (apply Sub.of; rfl) | (apply Has.of; rfl) | intro _ | with_reducible apply ite_eff
    | with_reducible apply ite_ran | (with_reducible apply onlyIf_eff) | with_reducible apply onDev_ran
    | (with_reducible apply Eff.step; with_reducible apply throttling_eff) | (with_reducible apply Eff.step; with_reducible apply wr_eff)
    | (with_reducible apply Eff.step; with_reducible apply holdTaps_eff) | split | dsimp only [id]

theorem dropTransitions_eff (d : Dev) : Eff 0x800 d (dropTransitions d) := by
  unfold dropTransitions
  try dsimp only
  repeat' first
    | with_reducible apply Eff.refl | with_reducible assumption | (apply Sub.of; rfl) | (apply Has.of; rfl) | intro _ | with_reducible apply ite_eff
    | (with_reducible apply Eff.last; with_reducible apply Prim.pw) | split | dsimp only [id]

theorem stopSequence_eff (d : Dev) : Eff 0x20 d (stopSequence d) := by
  unfold stopSequence
  try dsimp only
  repeat' first
    | with_reducible apply Eff.refl | with_reducible assumption | (apply Sub.of; rfl) | (apply Has.of; rfl) | intro _ | with_reducible apply ite_eff
    | (with_reducible apply Eff.last; with_reducible apply Prim.boot) | split | dsimp only [id]

theorem lossOfSupply_eff (d : Dev) : Eff 0xc25 d (lossOfSupply d) := by
  unfold lossOfSupply
  try dsimp only
  repeat' first
    | with_reducible apply Eff.refl | with_reducible assumption | (apply Sub.of; rfl) | (apply Has.of; rfl) | intro _ | with_reducible apply ite_eff
    | (with_reducible apply onlyIf_eff) | (with_reducible apply forEach_eff) | (with_reducible apply Eff.step; with_reducible apply emit_eff)
    | (with_reducible apply Eff.step; with_reducible apply wr_eff) | (with_reducible apply Eff.step; with_reducible apply openPath_eff)
    | (with_reducible apply Eff.step; with_reducible apply updFd_eff) | (with_reducible apply Eff.step; with_reducible apply dropTransitions_eff)
    | (with_reducible apply Eff.step; with_reducible apply stopSequence_eff) | (with_reducible apply Eff.step; with_reducible apply clearPend_eff)
    | (with_reducible apply Eff.step; with_reducible apply wrI_eff) | split | dsimp only [id]

theorem execLossOfSupply_ran (s : State) : Ran 0xc25 s (execLossOfSupply s) := by
  unfold execLossOfSupply
  try dsimp only
  repeat' first
    | with_reducible apply Eff.refl | with_reducible assumption | (apply Sub.of; rfl) | (apply Has.of; rfl) | intro _ | with_reducible apply ite_eff
    | with_reducible apply ite_ran | with_reducible apply onDev_ran | (with_reducible apply Eff.step; with_reducible apply lossOfSupply_eff) | split
    | dsimp only [id]

theorem execAonPowerLoss_ran (s : State) : Ran 0x400 s (execAonPowerLoss s) := by
  unfold execAonPowerLoss
  try dsimp only
  repeat' first
    | with_reducible apply Eff.refl | with_reducible assumption | (apply Sub.of; rfl) | (apply Has.of; rfl) | intro _ | with_reducible apply ite_eff
    | with_reducible apply ite_ran | (with_reducible apply onlyIf_eff) | with_reducible apply onDev_ran
    | (with_reducible apply Eff.step; with_reducible apply updFd_eff) | split | dsimp only [id]

theorem execPlinkMeasurementReport_ran (vinA vinB iinA iinB vbank pIn mj : Nat) (s : State) : Ran 0x9 s (execPlinkMeasurementReport vinA vinB iinA iinB vbank pIn mj s) := by
  unfold execPlinkMeasurementReport
  try dsimp only
  repeat' first
    | with_reducible apply Eff.refl | with_reducible assumption | (apply Sub.of; rfl) | (apply Has.of; rfl) | intro _ | with_reducible apply ite_eff
    | with_reducible apply ite_ran | (with_reducible apply onlyIf_eff) | with_reducible apply onDev_ran
    | (with_reducible apply Eff.step; with_reducible apply wrFit_eff) | (with_reducible apply Eff.step; with_reducible apply wr2_eff) | split
    | dsimp only [id]

theorem startReq_eff (dom target : Nat) (d : Dev) : Eff 0x91d d (startReq dom target d) := by
  unfold startReq
  try dsimp only
  repeat' first
    | with_reducible apply Eff.refl | with_reducible assumption | (apply Sub.of; rfl) | (apply Has.of; rfl) | intro _ | with_reducible apply ite_eff
    | (with_reducible apply onlyIf_eff) | (with_reducible apply Eff.step; with_reducible apply refuseDom_eff)
    | (with_reducible apply Eff.step; with_reducible apply startTr_eff) | (with_reducible apply Eff.step; with_reducible apply wr_eff)
    | (with_reducible apply Eff.step; with_reducible apply drainDone_eff) | (with_reducible apply Eff.step; with_reducible apply sharedLowAlarm_eff)
    | split | dsimp only [id]

theorem pendReq_eff (dom target : Nat) (d : Dev) : Eff 0x11d d (pendReq dom target d) := by
  unfold pendReq
  try dsimp only
  repeat' first
    | with_reducible apply Eff.refl | with_reducible assumption | (apply Sub.of; rfl) | (apply Has.of; rfl) | intro _ | with_reducible apply ite_eff
    | (with_reducible apply onlyIf_eff) | (with_reducible apply Eff.step; with_reducible apply refuseDom_eff)
    | (with_reducible apply Eff.step; with_reducible apply wrI_eff) | split | dsimp only [id]

theorem requestDomain_eff (dom target : Nat) (d : Dev) : Eff 0x91d d (requestDomain dom target d) := by
  unfold requestDomain
  try dsimp only
  repeat' first
    | with_reducible apply Eff.refl | with_reducible assumption | (apply Sub.of; rfl) | (apply Has.of; rfl) | intro _ | with_reducible apply ite_eff
    | (with_reducible apply Eff.step; with_reducible apply pendReq_eff) | (with_reducible apply Eff.step; with_reducible apply raise_eff)
    | (with_reducible apply Eff.step; with_reducible apply startReq_eff) | split | dsimp only [id]

theorem nextRequest_eff (dom : Nat) (d : Dev) : Eff 0x91d d (nextRequest dom d) := by
  unfold nextRequest
  try dsimp only
  repeat' first
    | with_reducible apply Eff.refl | with_reducible assumption | (apply Sub.of; rfl) | (apply Has.of; rfl) | intro _ | with_reducible apply ite_eff
    | (with_reducible apply Eff.step; with_reducible apply clearPend_eff) | (with_reducible apply Eff.step; with_reducible apply requestDomain_eff)
    | split | dsimp only [id]

theorem entriesStart_eff (d : Dev) : Eff 0x91d d (entriesStart d) := by
  unfold entriesStart
  try dsimp only
  repeat' first
    | with_reducible apply Eff.refl | with_reducible assumption | (apply Sub.of; rfl) | (apply Has.of; rfl) | intro _ | with_reducible apply ite_eff
    | (with_reducible apply onlyIf_eff) | (with_reducible apply forEach_eff) | (with_reducible apply Eff.step; with_reducible apply nextRequest_eff)
    | split | dsimp only [id]

theorem pwrReq_eff (v : Word) (d : Dev) : Eff 0x91d d (pwrReq v d) := by
  unfold pwrReq
  try dsimp only
  repeat' first
    | with_reducible apply Eff.refl | with_reducible assumption | (apply Sub.of; rfl) | (apply Has.of; rfl) | intro _ | with_reducible apply ite_eff
    | (with_reducible apply Eff.step; with_reducible apply cfgErr_eff) | (with_reducible apply Eff.step; with_reducible apply requestDomain_eff)
    | split | dsimp only [id]

theorem execPwrReq_ran (value : Word) (s : State) : Ran 0x91d s (execPwrReq value s) := by
  unfold execPwrReq
  try dsimp only
  repeat' first
    | with_reducible apply Eff.refl | with_reducible assumption | (apply Sub.of; rfl) | (apply Has.of; rfl) | intro _ | with_reducible apply ite_eff
    | with_reducible apply ite_ran | with_reducible apply onDev_ran | (with_reducible apply mgmtWrite_eff)
    | (with_reducible apply Eff.step; with_reducible apply pwrReq_eff) | split | dsimp only [id]

theorem execDomainWake_ran (dom code : Nat) (s : State) : Ran 0x91d s (execDomainWake dom code s) := by
  unfold execDomainWake
  try dsimp only
  repeat' first
    | with_reducible apply Eff.refl | with_reducible assumption | (apply Sub.of; rfl) | (apply Has.of; rfl) | intro _ | with_reducible apply ite_eff
    | with_reducible apply ite_ran | (with_reducible apply onlyIf_eff) | with_reducible apply onDev_ran
    | (with_reducible apply Eff.step; with_reducible apply wakeDom_eff) | split | dsimp only [id]

theorem execPlinkAck_ran (dom : Nat) (s : State) : Ran 0x800 s (execPlinkAck dom s) := by
  unfold execPlinkAck
  try dsimp only
  repeat' first
    | with_reducible apply Eff.refl | with_reducible assumption | (apply Sub.of; rfl) | (apply Has.of; rfl) | intro _ | with_reducible apply ite_eff
    | split | with_reducible apply ite_ran | with_reducible apply onDev_ran | (with_reducible apply Eff.step; with_reducible apply putTr_eff)
    | (with_reducible apply Eff.last; with_reducible apply Prim.pw) | split | dsimp only [id]

end Sys2Proof.Machine
end

