-- ==== Sys2Proof/Laws/EffRoute.lean ====
section
/-!
SUPPORT. What each function of Machine/Route.lean can change.
-/

namespace Sys2Proof.Machine

theorem escWaitTimeout_eff (pkt : Nat) (d : Dev) : Eff 0x1811d d (escWaitTimeout pkt d) := by
  unfold escWaitTimeout
  try dsimp only
  repeat' first
    | with_reducible apply Eff.refl | with_reducible assumption | (apply Sub.of; rfl) | (apply Has.of; rfl) | intro _ | with_reducible apply ite_eff
    | (with_reducible apply Eff.step; with_reducible apply bump_eff) | (with_reducible apply Eff.step; with_reducible apply updPkt_eff)
    | (with_reducible apply Eff.step; with_reducible apply moveRoute_eff) | split | dsimp only [id]

theorem routeHoldExpire_eff (pkt : Nat) (d : Dev) : Eff 0x811d d (routeHoldExpire pkt d) := by
  unfold routeHoldExpire
  try dsimp only
  repeat' first
    | with_reducible apply Eff.refl | with_reducible assumption | (apply Sub.of; rfl) | (apply Has.of; rfl) | intro _ | with_reducible apply ite_eff
    | (with_reducible apply Eff.step; with_reducible apply unroutable_eff) | split | dsimp only [id]

theorem portRejoin_eff (p : Nat) (d : Dev) : Eff 0x1811d d (portRejoin p d) := by
  unfold portRejoin
  try dsimp only
  repeat' first
    | with_reducible apply Eff.refl | with_reducible assumption | (apply Sub.of; rfl) | (apply Has.of; rfl) | intro _ | with_reducible apply ite_eff
    | (with_reducible apply Eff.step; with_reducible apply updPort_eff) | (with_reducible apply Eff.step; with_reducible apply setPortUp_eff)
    | (with_reducible apply Eff.step; with_reducible apply retryHeld_eff) | split | dsimp only [id]

theorem stuckLane_eff (p vl : Nat) (d : Dev) : Eff 0x11d d (stuckLane p vl d) := by
  unfold stuckLane
  try dsimp only
  repeat' first
    | with_reducible apply Eff.refl | with_reducible assumption | (apply Sub.of; rfl) | (apply Has.of; rfl) | intro _ | with_reducible apply ite_eff
    | (with_reducible apply Eff.step; with_reducible apply raiseDet_eff) | split | dsimp only [id]

theorem swapSets_eff (d : Dev) : Eff 0x811d d (swapSets d) := by
  unfold swapSets
  try dsimp only
  repeat' first
    | with_reducible apply Eff.refl | with_reducible assumption | (apply Sub.of; rfl) | (apply Has.of; rfl) | intro _ | with_reducible apply ite_eff
    | (with_reducible apply forEach_eff) | (with_reducible apply Eff.step; with_reducible apply wr_eff)
    | (with_reducible apply Eff.step; with_reducible apply raise_eff) | (with_reducible apply Eff.last; with_reducible apply Prim.net) | split
    | dsimp only [id]

theorem tblReadTrig_eff (isl : Nat) (val : Word) (d : Dev) : Eff 0x11d d (tblReadTrig isl val d) := by
  unfold tblReadTrig
  try dsimp only
  repeat' first
    | with_reducible apply Eff.refl | with_reducible assumption | (apply Sub.of; rfl) | (apply Has.of; rfl) | intro _ | with_reducible apply ite_eff
    | (with_reducible apply forEach_eff) | (with_reducible apply Eff.step; with_reducible apply cfgErr_eff)
    | (with_reducible apply Eff.step; with_reducible apply wrI_eff) | split | dsimp only [id]

theorem tblWriteTrig_eff (isl : Nat) (val : Word) (d : Dev) : Eff 0x811d d (tblWriteTrig isl val d) := by
  unfold tblWriteTrig
  try dsimp only
  repeat' first
    | with_reducible apply Eff.refl | with_reducible assumption | (apply Sub.of; rfl) | (apply Has.of; rfl) | intro _ | with_reducible apply ite_eff
    | (with_reducible apply Eff.step; with_reducible apply cfgErr_eff) | (with_reducible apply Eff.step; with_reducible apply tblPut_eff) | split
    | dsimp only [id]

theorem execEscWaitTimeout_ran (pkt : Nat) (s : State) : Ran 0x7911f s (execEscWaitTimeout pkt s) := by
  unfold execEscWaitTimeout
  try dsimp only
  repeat' first
    | with_reducible apply Eff.refl | with_reducible assumption | (apply Sub.of; rfl) | (apply Has.of; rfl) | intro _ | with_reducible apply ite_eff
    | with_reducible apply ite_ran | with_reducible apply onNet_ran | (with_reducible apply Eff.step; with_reducible apply escWaitTimeout_eff) | split
    | dsimp only [id]

theorem execRouteHoldExpire_ran (pkt : Nat) (s : State) : Ran 0x7911f s (execRouteHoldExpire pkt s) := by
  unfold execRouteHoldExpire
  try dsimp only
  repeat' first
    | with_reducible apply Eff.refl | with_reducible assumption | (apply Sub.of; rfl) | (apply Has.of; rfl) | intro _ | with_reducible apply ite_eff
    | with_reducible apply ite_ran | with_reducible apply onNet_ran | (with_reducible apply Eff.step; with_reducible apply routeHoldExpire_eff)
    | split | dsimp only [id]

theorem execPortRejoin_ran (port : Nat) (s : State) : Ran 0x7911f s (execPortRejoin port s) := by
  unfold execPortRejoin
  try dsimp only
  repeat' first
    | with_reducible apply Eff.refl | with_reducible assumption | (apply Sub.of; rfl) | (apply Has.of; rfl) | intro _ | with_reducible apply ite_eff
    | with_reducible apply ite_ran | with_reducible apply onNet_ran | (with_reducible apply Eff.step; with_reducible apply portRejoin_eff) | split
    | dsimp only [id]

theorem execStuckLane_ran (port vl : Nat) (s : State) : Ran 0x7911f s (execStuckLane port vl s) := by
  unfold execStuckLane
  try dsimp only
  repeat' first
    | with_reducible apply Eff.refl | with_reducible assumption | (apply Sub.of; rfl) | (apply Has.of; rfl) | intro _ | with_reducible apply ite_eff
    | with_reducible apply ite_ran | with_reducible apply onNet_ran | (with_reducible apply Eff.step; with_reducible apply stuckLane_eff) | split
    | dsimp only [id]

theorem execSwap_ran (isl : Nat) (s : State) : Ran 0x7911f s (execSwap isl s) := by
  unfold execSwap
  try dsimp only
  repeat' first
    | with_reducible apply Eff.refl | with_reducible assumption | (apply Sub.of; rfl) | (apply Has.of; rfl) | intro _ | with_reducible apply ite_eff
    | with_reducible apply ite_ran | with_reducible apply onNet_ran | (with_reducible apply trigger_eff)
    | (with_reducible apply Eff.step; with_reducible apply swapSets_eff) | split | dsimp only [id]

theorem execTblRead_ran (isl : Nat) (s : State) : Ran 0x7911f s (execTblRead isl s) := by
  unfold execTblRead
  try dsimp only
  repeat' first
    | with_reducible apply Eff.refl | with_reducible assumption | (apply Sub.of; rfl) | (apply Has.of; rfl) | intro _ | with_reducible apply ite_eff
    | with_reducible apply ite_ran | with_reducible apply onNet_ran | (with_reducible apply trigger_eff)
    | (with_reducible apply Eff.step; with_reducible apply tblReadTrig_eff) | split | dsimp only [id]

theorem execTblWrite_ran (isl : Nat) (s : State) : Ran 0x7911f s (execTblWrite isl s) := by
  unfold execTblWrite
  try dsimp only
  repeat' first
    | with_reducible apply Eff.refl | with_reducible assumption | (apply Sub.of; rfl) | (apply Has.of; rfl) | intro _ | with_reducible apply ite_eff
    | with_reducible apply ite_ran | with_reducible apply onNet_ran | (with_reducible apply trigger_eff)
    | (with_reducible apply Eff.step; with_reducible apply tblWriteTrig_eff) | split | dsimp only [id]

end Sys2Proof.Machine
end

