-- ==== Sys2Proof/Laws/EffCommit.lean ====
section
/-!
SUPPORT. What each function of Machine/Commit.lean can change.
-/

namespace Sys2Proof.Machine

theorem withAll_eff {t : Nat} {a : Dev} (f : Dev → Dev) (d : Dev) (h : Eff t a d) (ha : ∀ d, Eff t d (f d)) (s : Sub 0x7911f t) :
    Eff t a (withAll f d) := by
  unfold withAll
  try dsimp only
  repeat' first
    | with_reducible assumption | (apply Sub.of; rfl) | (apply Sub.via s; apply Sub.of; rfl) | (apply Has.of; rfl)
    | (with_reducible apply Eff.seq; with_reducible apply ha) | (apply Has.via s; apply Has.of; rfl) | intro _ | with_reducible apply ite_eff
    | (with_reducible apply Eff.step; with_reducible apply settleEng_eff) | (with_reducible apply settleNet_eff) | with_reducible apply Eff.refl
    | split | dsimp only [id]

theorem onAll_ran {t : Nat} {f : Dev → Dev} {s : State} (h : ∀ d, Eff t d (f d)) (g : Sub 0x7911f t) : Ran t s (onAll f s) :=
  onDev_ran fun d => withAll_eff f d (.refl d) h g

theorem stagedIn_eff (ty inst : Nat) (d : Dev) : Eff 0x1 d (stagedIn ty inst d) := by
  unfold stagedIn
  try dsimp only
  repeat' first
    | with_reducible apply Eff.refl | with_reducible assumption | (apply Sub.of; rfl) | (apply Has.of; rfl) | intro _ | with_reducible apply ite_eff
    | (with_reducible apply forEach_eff) | (with_reducible apply Eff.step; with_reducible apply wrI_eff) | split | dsimp only [id]

theorem stagedOut_eff (ty inst : Nat) (d : Dev) : Eff 0x1 d (stagedOut ty inst d) := by
  unfold stagedOut
  try dsimp only
  repeat' first
    | with_reducible apply Eff.refl | with_reducible assumption | (apply Sub.of; rfl) | (apply Has.of; rfl) | intro _ | with_reducible apply ite_eff
    | (with_reducible apply forEach_eff) | (with_reducible apply Eff.step; with_reducible apply wrI_eff) | split | dsimp only [id]

theorem assignIdx_eff (d : Dev) : Eff 0x1 d (assignIdx d) := by
  unfold assignIdx
  try dsimp only
  repeat' first
    | with_reducible apply Eff.refl | with_reducible assumption | (apply Sub.of; rfl) | (apply Has.of; rfl) | intro _ | with_reducible apply ite_eff
    | (with_reducible apply onlyIf_eff) | (with_reducible apply forEach_eff) | (with_reducible apply Eff.step; with_reducible apply wr_eff) | split
    | dsimp only [id]

theorem refreshVh_eff (d : Dev) : Eff 0x1 d (refreshVh d) := by
  unfold refreshVh
  try dsimp only
  repeat' first
    | with_reducible apply Eff.refl | with_reducible assumption | (apply Sub.of; rfl) | (apply Has.of; rfl) | intro _ | with_reducible apply ite_eff
    | (with_reducible apply forEach_eff) | (with_reducible apply Eff.step; with_reducible apply wr_eff) | split | dsimp only [id]

theorem tryWins_eff {t : Nat} (fits : Nat → Dev → Bool) (go : Nat → Dev → Dev) (hg : ∀ w d, Eff t d (go w d)) (l : List Nat) (d : Dev) :
    ∀ z, tryWins fits go l d = some z → Eff t d z := by
  induction l generalizing d with
  | nil => intro z h; cases h; exact .refl d
  | cons w l ih =>
    intro z h
    unfold tryWins at h
    split at h
    · exact (hg w d).trans (ih _ z h)
    · cases h

theorem winsIn_eff (d : Dev) : ∀ z, winsIn d = some z → Eff 0x1011d d z :=
  tryWins_eff _ _ (fun w d => Eff.mono (Sub.of rfl) (commitWin_eff w 8 0 d)) _ d

theorem bwinsIn_eff (d : Dev) : ∀ z, bwinsIn d = some z → Eff 0x1011d d z :=
  tryWins_eff _ _ (fun w d => Eff.mono (Sub.of rfl) (commitBwin_eff w 8 0 d)) _ d

theorem swapIsl_eff (i : Nat) (d : Dev) : Eff 0x5811d d (swapIsl i d) := by
  unfold swapIsl
  try dsimp only
  repeat' first
    | with_reducible apply Eff.refl | with_reducible assumption | (apply Sub.of; rfl) | (apply Has.of; rfl) | intro _ | with_reducible apply ite_eff
    | (with_reducible apply onlyIf_eff) | (with_reducible apply Eff.step; with_reducible apply stagedIn_eff)
    | (with_reducible apply Eff.step; with_reducible apply islandReset_eff) | (with_reducible apply Eff.step; with_reducible apply assignIdx_eff)
    | (with_reducible apply Eff.step; with_reducible apply refreshVh_eff) | split | dsimp only [id]

theorem swapSch_eff (p : Nat) (d : Dev) : Eff 0x811d d (swapSch p d) := by
  unfold swapSch
  try dsimp only
  repeat' first
    | with_reducible apply Eff.refl | with_reducible assumption | (apply Sub.of; rfl) | (apply Has.of; rfl) | intro _ | with_reducible apply ite_eff
    | (with_reducible apply forEach_eff) | (with_reducible apply Eff.step; with_reducible apply stagedIn_eff)
    | (with_reducible apply Eff.step; with_reducible apply reconfigShaper_eff) | (with_reducible apply Eff.step; with_reducible apply gateRefresh_eff)
    | (with_reducible apply Eff.step; with_reducible apply gateStart_eff) | split | dsimp only [id]

theorem swapExp_eff (k : Nat) (d : Dev) : Eff 0x40005 d (swapExp k d) := by
  unfold swapExp
  try dsimp only
  repeat' first
    | with_reducible apply Eff.refl | with_reducible assumption | (apply Sub.of; rfl) | (apply Has.of; rfl) | intro _ | with_reducible apply ite_eff
    | (with_reducible apply onlyIf_eff) | (with_reducible apply Eff.step; with_reducible apply stagedIn_eff)
    | (with_reducible apply Eff.step; with_reducible apply refreshVh_eff) | (with_reducible apply Eff.step; with_reducible apply updSwPort_eff)
    | (with_reducible apply Eff.step; with_reducible apply portChange_eff) | (with_reducible apply Eff.step; with_reducible apply emit_eff) | split
    | dsimp only [id]

theorem swapMir_eff (d : Dev) : Eff 0x8001 d (swapMir d) := by
  unfold swapMir
  try dsimp only
  repeat' first
    | with_reducible apply Eff.refl | with_reducible assumption | (apply Sub.of; rfl) | (apply Has.of; rfl) | intro _ | with_reducible apply ite_eff
    | (with_reducible apply forEach_eff) | (with_reducible apply Eff.step; with_reducible apply stagedIn_eff)
    | (with_reducible apply Eff.last; with_reducible apply Prim.net) | split | dsimp only [id]

theorem xltInit_eff (d : Dev) : Eff 0x10001 d (xltInit d) := by
  unfold xltInit
  try dsimp only
  repeat' first
    | with_reducible apply Eff.refl | with_reducible assumption | (apply Sub.of; rfl) | (apply Has.of; rfl) | intro _ | with_reducible apply ite_eff
    | (with_reducible apply Eff.step; with_reducible apply updEng_eff) | (with_reducible apply Eff.step; with_reducible apply wr_eff) | split
    | dsimp only [id]

theorem matchInit_eff (d : Dev) : Eff 0x10001 d (matchInit d) := by
  unfold matchInit
  try dsimp only
  repeat' first
    | with_reducible apply Eff.refl | with_reducible assumption | (apply Sub.of; rfl) | (apply Has.of; rfl) | intro _ | with_reducible apply ite_eff
    | (with_reducible apply forEach_eff) | (with_reducible apply Eff.step; with_reducible apply updEng_eff)
    | (with_reducible apply Eff.step; with_reducible apply wr_eff) | split | dsimp only [id]

theorem swapPkm_eff (d : Dev) : Eff 0x10001 d (swapPkm d) := by
  unfold swapPkm
  try dsimp only
  repeat' first
    | with_reducible apply Eff.refl | with_reducible assumption | (apply Sub.of; rfl) | (apply Has.of; rfl) | intro _ | with_reducible apply ite_eff
    | (with_reducible apply onlyIf_eff) | (with_reducible apply Eff.step; with_reducible apply stagedIn_eff)
    | (with_reducible apply Eff.step; with_reducible apply xltInit_eff) | (with_reducible apply Eff.step; with_reducible apply matchInit_eff) | split
    | dsimp only [id]

theorem stagedSwap_eff (ty inst : Nat) (d : Dev) : Eff 0x5811d d (stagedSwap ty inst d) := by
  unfold stagedSwap
  split
  · exact Eff.mono (Sub.of rfl) (swapIsl_eff ..)
  · exact Eff.step (sharedLowAlarm_eff ..) (Sub.of rfl) (Eff.mono (Sub.of rfl) (stagedIn_eff ..))
  · exact Eff.mono (Sub.of rfl) (swapSch_eff ..)
  · cases h : winsIn d with
    | none => exact .refl d
    | some z => exact Eff.mono (Sub.of rfl) (winsIn_eff d z h)
  · cases h : bwinsIn d with
    | none => exact .refl d
    | some z => exact Eff.mono (Sub.of rfl) (bwinsIn_eff d z h)
  · exact Eff.mono (Sub.of rfl) (swapExp_eff ..)
  · exact Eff.mono (Sub.of rfl) (swapMir_eff ..)
  · exact Eff.mono (Sub.of rfl) (swapPkm_eff ..)
  · exact Eff.mono (Sub.of rfl) (stagedIn_eff ..)

theorem commitDone_eff (ty inst : Nat) (d : Dev) : Eff 0x11d d (commitDone ty inst d) := by
  unfold commitDone
  try dsimp only
  repeat' first
    | with_reducible apply Eff.refl | with_reducible assumption | (apply Sub.of; rfl) | (apply Has.of; rfl) | intro _ | with_reducible apply ite_eff
    | (with_reducible apply Eff.step; with_reducible apply stagedOut_eff) | (with_reducible apply Eff.step; with_reducible apply addMod_eff)
    | (with_reducible apply Eff.step; with_reducible apply hwr_eff) | (with_reducible apply Eff.step; with_reducible apply raiseCommitDone_eff)
    | (with_reducible apply Eff.last; with_reducible apply Prim.mg) | split | dsimp only [id]

theorem commitSwap_eff (ty inst : Nat) (d : Dev) : Eff 0x5891d d (commitSwap ty inst d) := by
  unfold commitSwap
  try dsimp only
  repeat' first
    | with_reducible apply Eff.refl | with_reducible assumption | (apply Sub.of; rfl) | (apply Has.of; rfl) | intro _ | with_reducible apply ite_eff
    | (with_reducible apply Eff.step; with_reducible apply stagedSwap_eff) | (with_reducible apply Eff.step; with_reducible apply commitDone_eff)
    | (with_reducible apply Eff.step; with_reducible apply entriesStart_eff) | split | dsimp only [id]

theorem commitStart_eff (ty inst : Nat) (val : Word) (d : Dev) : Eff 0x11d d (commitStart ty inst val d) := by
  unfold commitStart
  try dsimp only
  repeat' first
    | with_reducible apply Eff.refl | with_reducible assumption | (apply Sub.of; rfl) | (apply Has.of; rfl) | intro _ | with_reducible apply ite_eff
    | (with_reducible apply Eff.step; with_reducible apply commitDone_eff) | (with_reducible apply Eff.step; with_reducible apply hwr_eff)
    | (with_reducible apply Eff.step; with_reducible apply cfgErr_eff) | (with_reducible apply Eff.last; with_reducible apply Prim.mg) | split
    | dsimp only [id]

theorem commitGo_eff (ty inst : Nat) (val : Word) (d : Dev) : Eff 0x11d d (commitGo ty inst val d) := by
  unfold commitGo
  try dsimp only
  repeat' first
    | with_reducible apply Eff.refl | with_reducible assumption | (apply Sub.of; rfl) | (apply Has.of; rfl) | intro _ | with_reducible apply ite_eff
    | (with_reducible apply Eff.step; with_reducible apply cfgErr_eff) | (with_reducible apply Eff.step; with_reducible apply commitStart_eff) | split
    | dsimp only [id]

theorem discardGo_eff (ty inst : Nat) (val : Word) (d : Dev) : Eff 0x11d d (discardGo ty inst val d) := by
  unfold discardGo
  try dsimp only
  repeat' first
    | with_reducible apply Eff.refl | with_reducible assumption | (apply Sub.of; rfl) | (apply Has.of; rfl) | intro _ | with_reducible apply ite_eff
    | (with_reducible apply Eff.step; with_reducible apply cfgErr_eff) | (with_reducible apply Eff.step; with_reducible apply stagedOut_eff)
    | (with_reducible apply Eff.last; with_reducible apply Prim.mg) | split | dsimp only [id]

end Sys2Proof.Machine
end

