-- ==== Sys2Proof/Laws/EffHorizon.lean ====
section
/-!
SUPPORT. What each function of Machine/Horizon.lean can change.
-/

namespace Sys2Proof.Machine

theorem putHzn_eff (i : Nat) (e : HznEntry) (d : Dev) : Eff 0x1000 d (putHzn i e d) := by
  unfold putHzn
  try dsimp only
  repeat' first
    | with_reducible apply Eff.refl | with_reducible assumption | (apply Sub.of; rfl) | (apply Has.of; rfl) | intro _ | with_reducible apply ite_eff
    | (with_reducible apply Eff.step; (with_reducible apply updTh_eff; rfl))
    | (with_reducible apply Eff.step; (with_reducible apply updTh_eff; split <;> rfl)) | split | dsimp only [id]

theorem swapPends_eff (d : Dev) : Eff 0x1 d (swapPends d) := by
  unfold swapPends
  try dsimp only
  repeat' first
    | with_reducible apply Eff.refl | with_reducible assumption | (apply Sub.of; rfl) | (apply Has.of; rfl) | intro _ | with_reducible apply ite_eff
    | (with_reducible apply forEach_eff) | (with_reducible apply Eff.step; with_reducible apply wr_eff) | split | dsimp only [id]

theorem hznCommit_eff (ty inst : Nat) (d : Dev) : Eff 0x5891d d (hznCommit ty inst d).1 := by
  unfold hznCommit
  try dsimp only
  repeat' first
    | with_reducible apply Eff.refl | with_reducible assumption | (apply Sub.of; rfl) | (apply Has.of; rfl) | intro _ | with_reducible apply ite_eff
    | with_reducible apply ite_fst | (with_reducible apply Eff.step; with_reducible apply cfgErr_eff)
    | (with_reducible apply Eff.step; with_reducible apply commitSwap_eff) | (with_reducible apply Eff.step; with_reducible apply commitStart_eff)
    | split | dsimp only [id]

theorem snapPage_eff (ty inst slot : Nat) (d : Dev) : Eff 0x2 d (snapPage ty inst slot d).1 := by
  unfold snapPage
  try dsimp only
  repeat' first
    | with_reducible apply Eff.refl | with_reducible assumption | (apply Sub.of; rfl) | (apply Has.of; rfl) | intro _ | with_reducible apply ite_eff
    | with_reducible apply ite_fst | (with_reducible apply Eff.step; with_reducible apply memWrites_eff) | split | dsimp only [id]

theorem pageAct_eff (action ty inst arg : Nat) (d : Dev) : Eff 0x7891f d (pageAct action ty inst arg d).1 := by
  unfold pageAct
  try dsimp only
  repeat' first
    | with_reducible apply Eff.refl | with_reducible assumption | (apply Sub.of; rfl) | (apply Has.of; rfl) | intro _ | with_reducible apply ite_eff
    | with_reducible apply ite_fst | (with_reducible apply Eff.step; with_reducible apply switchTrig_eff)
    | (with_reducible apply Eff.step; with_reducible apply collRelease_eff) | (with_reducible apply Eff.step; with_reducible apply snapPage_eff)
    | (with_reducible apply Eff.step; with_reducible apply eff_fst; assumption; with_reducible apply snapPage_eff)
    | (with_reducible apply Eff.step; with_reducible apply hznCommit_eff)
    | (with_reducible apply Eff.step; with_reducible apply eff_fst; assumption; with_reducible apply hznCommit_eff) | split | dsimp only [id]

theorem pageActs_eff (e : HznEntry) (l : List Nat) (n : Nat) (r : Dev × Bool × Bool) : Eff 0x7891f r.1 (pageActs e l n r).1 := by
  induction l generalizing n r with
  | nil => exact .refl _
  | cons k l ih =>
    obtain ⟨d, a, b⟩ := r
    unfold pageActs
    dsimp only
    refine Eff.trans ?_ (ih (n + 1) _)
    split
    · exact Eff.mono (Sub.of rfl) (pageAct_eff ..)
    · exact Eff.mono (Sub.of rfl) (dropOff_eff ..)
    · exact Eff.mono (Sub.of rfl) (holdEntry_eff ..)

theorem hznAct_eff (e : HznEntry) (d : Dev) : Eff 0x7891f d (hznAct e d).1 := by
  unfold hznAct
  try dsimp only
  repeat' first
    | with_reducible apply Eff.refl | with_reducible assumption | (apply Sub.of; rfl) | (apply Has.of; rfl) | intro _ | with_reducible apply ite_eff
    | with_reducible apply ite_fst | (with_reducible apply Eff.step; with_reducible apply swapSets_eff)
    | (with_reducible apply Eff.step; with_reducible apply requestDomain_eff) | (with_reducible apply Eff.step; with_reducible apply pageActs_eff)
    | split | dsimp only [id]

theorem hznFire_eff (late : Bool) (i : Nat) (d : Dev) : Eff 0x7991f d (hznFire late i d) := by
  unfold hznFire
  try dsimp only
  repeat' first
    | with_reducible apply Eff.refl | with_reducible assumption | (apply Sub.of; rfl) | (apply Has.of; rfl) | intro _ | with_reducible apply ite_eff
    | (with_reducible apply onlyIf_eff) | (with_reducible apply Eff.step; with_reducible apply hznAct_eff)
    | (with_reducible apply Eff.step; with_reducible apply eff_fst; assumption; with_reducible apply hznAct_eff)
    | (with_reducible apply Eff.step; with_reducible apply putHzn_eff) | (with_reducible apply Eff.step; with_reducible apply bump_eff)
    | (with_reducible apply Eff.step; with_reducible apply addI_eff) | (with_reducible apply Eff.step; with_reducible apply raise_eff)
    | (with_reducible apply Eff.step; with_reducible apply swapPends_eff) | split | dsimp only [id]

theorem hznPassed_eff (i : Nat) (d : Dev) : Eff 0x7991f d (hznPassed i d) := by
  unfold hznPassed
  try dsimp only
  repeat' first
    | with_reducible apply Eff.refl | with_reducible assumption | (apply Sub.of; rfl) | (apply Has.of; rfl) | intro _ | with_reducible apply ite_eff
    | (with_reducible apply onlyIf_eff) | (with_reducible apply Eff.step; with_reducible apply putHzn_eff)
    | (with_reducible apply Eff.step; with_reducible apply addI_eff) | (with_reducible apply Eff.step; with_reducible apply raise_eff)
    | (with_reducible apply Eff.step; with_reducible apply swapPends_eff) | (with_reducible apply Eff.step; with_reducible apply hznFire_eff) | split
    | dsimp only [id]

theorem hznDue_eff (d : Dev) : Eff 0x7991f d (hznDue d) := by
  unfold hznDue
  try dsimp only
  repeat' first
    | with_reducible apply Eff.refl | with_reducible assumption | (apply Sub.of; rfl) | (apply Has.of; rfl) | intro _ | with_reducible apply ite_eff
    | (with_reducible apply forEach_eff) | (with_reducible apply Eff.step; with_reducible apply hznFire_eff) | split | dsimp only [id]

theorem timePassed_eff (d : Dev) : Eff 0x7991f d (timePassed d) := by
  unfold timePassed
  try dsimp only
  repeat' first
    | with_reducible apply Eff.refl | with_reducible assumption | (apply Sub.of; rfl) | (apply Has.of; rfl) | intro _ | with_reducible apply ite_eff
    | (with_reducible apply forEach_eff) | (with_reducible apply Eff.step; with_reducible apply hznPassed_eff) | split | dsimp only [id]

theorem execHorizonFire_ran (s : State) : Ran 0x7991f s (execHorizonFire s) := by
  unfold execHorizonFire
  try dsimp only
  repeat' first
    | with_reducible apply Eff.refl | with_reducible assumption | (apply Sub.of; rfl) | (apply Has.of; rfl) | intro _ | with_reducible apply ite_eff
    | with_reducible apply ite_ran | with_reducible apply onAll_ran | (with_reducible apply Eff.step; with_reducible apply hznDue_eff) | split
    | dsimp only [id]

theorem hznRead_eff (d : Dev) : Eff 0x1 d (hznRead d) := by
  unfold hznRead
  try dsimp only
  repeat' first
    | with_reducible apply Eff.refl | with_reducible assumption | (apply Sub.of; rfl) | (apply Has.of; rfl) | intro _ | with_reducible apply ite_eff
    | (with_reducible apply Eff.step; with_reducible apply putRow_eff) | split | dsimp only [id]

theorem hznWrite_eff (v : Word) (d : Dev) : Eff 0x111d d (hznWrite v d) := by
  unfold hznWrite
  try dsimp only
  repeat' first
    | with_reducible apply Eff.refl | with_reducible assumption | (apply Sub.of; rfl) | (apply Has.of; rfl) | intro _ | with_reducible apply ite_eff
    | (with_reducible apply Eff.step; with_reducible apply cfgErr_eff) | (with_reducible apply Eff.step; with_reducible apply putHzn_eff) | split
    | dsimp only [id]

theorem hznArm_eff (v : Word) (d : Dev) : Eff 0x7991f d (hznArm v d) := by
  unfold hznArm
  try dsimp only
  repeat' first
    | with_reducible apply Eff.refl | with_reducible assumption | (apply Sub.of; rfl) | (apply Has.of; rfl) | intro _ | with_reducible apply ite_eff
    | (with_reducible apply onlyIf_eff) | (with_reducible apply Eff.step; with_reducible apply cfgErr_eff)
    | (with_reducible apply Eff.step; with_reducible apply putHzn_eff) | (with_reducible apply Eff.step; with_reducible apply swapPends_eff)
    | (with_reducible apply Eff.step; with_reducible apply hznPassed_eff) | split | dsimp only [id]

theorem hznDisarm_eff (d : Dev) : Eff 0x1001 d (hznDisarm d) := by
  unfold hznDisarm
  try dsimp only
  repeat' first
    | with_reducible apply Eff.refl | with_reducible assumption | (apply Sub.of; rfl) | (apply Has.of; rfl) | intro _ | with_reducible apply ite_eff
    | (with_reducible apply Eff.step; with_reducible apply putHzn_eff) | (with_reducible apply Eff.step; with_reducible apply swapPends_eff) | split
    | dsimp only [id]

theorem execHznRead_ran (s : State) : Ran 0x11d s (execHznRead s) := by
  unfold execHznRead
  try dsimp only
  repeat' first
    | with_reducible apply Eff.refl | with_reducible assumption | (apply Sub.of; rfl) | (apply Has.of; rfl) | intro _ | with_reducible apply ite_eff
    | with_reducible apply ite_ran | with_reducible apply onDev_ran | (with_reducible apply trigger_eff)
    | (with_reducible apply Eff.step; with_reducible apply hznRead_eff) | split | dsimp only [id]

theorem execHznWrite_ran (s : State) : Ran 0x111d s (execHznWrite s) := by
  unfold execHznWrite
  try dsimp only
  repeat' first
    | with_reducible apply Eff.refl | with_reducible assumption | (apply Sub.of; rfl) | (apply Has.of; rfl) | intro _ | with_reducible apply ite_eff
    | with_reducible apply ite_ran | with_reducible apply onDev_ran | (with_reducible apply trigger_eff)
    | (with_reducible apply Eff.step; with_reducible apply hznWrite_eff) | split | dsimp only [id]

theorem execArm_ran (s : State) : Ran 0x7991f s (execArm s) := by
  unfold execArm
  try dsimp only
  repeat' first
    | with_reducible apply Eff.refl | with_reducible assumption | (apply Sub.of; rfl) | (apply Has.of; rfl) | intro _ | with_reducible apply ite_eff
    | with_reducible apply ite_ran | with_reducible apply onAll_ran | (with_reducible apply trigger_eff)
    | (with_reducible apply Eff.step; with_reducible apply hznArm_eff) | split | dsimp only [id]

theorem execDisarm_ran (s : State) : Ran 0x111d s (execDisarm s) := by
  unfold execDisarm
  try dsimp only
  repeat' first
    | with_reducible apply Eff.refl | with_reducible assumption | (apply Sub.of; rfl) | (apply Has.of; rfl) | intro _ | with_reducible apply ite_eff
    | with_reducible apply ite_ran | with_reducible apply onDev_ran | (with_reducible apply trigger_eff)
    | (with_reducible apply Eff.step; with_reducible apply hznDisarm_eff) | split | dsimp only [id]

end Sys2Proof.Machine
end

