-- ==== Sys2Proof/Laws/EffLink.lean ====
section
/-!
SUPPORT. What each function of Machine/Link.lean can change.
-/

namespace Sys2Proof.Machine

theorem setCur_eff (p v x : Nat) (d : Dev) : Eff 0x8000 d (setCur p v x d) := by
  unfold setCur
  try dsimp only
  repeat' first
    | with_reducible apply Eff.refl | with_reducible assumption | (apply Sub.of; rfl) | (apply Has.of; rfl) | intro _ | with_reducible apply ite_eff
    | (with_reducible apply Eff.step; with_reducible apply updPort_eff) | split | dsimp only [id]

theorem sinkFlit_eff (p v : Nat) (tail : Bool) (d : Dev) : Eff 0x8000 d (sinkFlit p v tail d) := by
  unfold sinkFlit
  try dsimp only
  repeat' first
    | with_reducible apply Eff.refl | with_reducible assumption | (apply Sub.of; rfl) | (apply Has.of; rfl) | intro _ | with_reducible apply ite_eff
    | (with_reducible apply onlyIf_eff) | (with_reducible apply Eff.step; with_reducible apply grantMore_eff)
    | (with_reducible apply Eff.step; with_reducible apply setCur_eff) | split | dsimp only [id]

theorem sinkHead_eff (p v : Nat) (tail : Bool) (d : Dev) : Eff 0x8000 d (sinkHead p v tail d) := by
  unfold sinkHead
  try dsimp only
  repeat' first
    | with_reducible apply Eff.refl | with_reducible assumption | (apply Sub.of; rfl) | (apply Has.of; rfl) | intro _ | with_reducible apply ite_eff
    | (with_reducible apply Eff.step; with_reducible apply setCur_eff) | (with_reducible apply Eff.step; with_reducible apply sinkFlit_eff)
    | (with_reducible apply Eff.last; with_reducible apply Prim.net) | split | dsimp only [id]

theorem rxHead_eff (p v : Nat) (tail poison : Bool) (bytes : List Byte) (d : Dev) : Eff 0x1811d d (rxHead p v tail poison bytes d) := by
  unfold rxHead
  try dsimp only
  repeat' first
    | with_reducible apply Eff.refl | with_reducible assumption | (apply Sub.of; rfl) | (apply Has.of; rfl) | intro _ | with_reducible apply ite_eff
    | (with_reducible apply onlyIf_eff) | (with_reducible apply Eff.step; with_reducible apply bump_eff)
    | (with_reducible apply Eff.step; with_reducible apply raise_eff) | (with_reducible apply Eff.step; with_reducible apply sinkHead_eff)
    | (with_reducible apply Eff.step; with_reducible apply injectHeader_eff)
    | (with_reducible apply Eff.step; with_reducible apply eff_snd; assumption; with_reducible apply injectHeader_eff)
    | (with_reducible apply Eff.step; with_reducible apply pushPkt_eff) | (with_reducible apply Eff.step; with_reducible apply setCur_eff)
    | (with_reducible apply Eff.step; with_reducible apply meterPkt_eff) | (with_reducible apply Eff.step; with_reducible apply updPkt_eff)
    | (with_reducible apply Eff.step; with_reducible apply lookUp_eff) | (with_reducible apply Eff.step; with_reducible apply arrive_eff) | split
    | dsimp only [id]

theorem rxMore_eff (p v : Nat) (tail poison : Bool) (bytes : List Byte) (d : Dev) : Eff 0x1811d d (rxMore p v tail poison bytes d) := by
  unfold rxMore
  try dsimp only
  repeat' first
    | with_reducible apply Eff.refl | with_reducible assumption | (apply Sub.of; rfl) | (apply Has.of; rfl) | intro _ | with_reducible apply ite_eff
    | (with_reducible apply onlyIf_eff) | (with_reducible apply Eff.step; with_reducible apply sinkFlit_eff)
    | (with_reducible apply Eff.step; with_reducible apply protocolError_eff) | (with_reducible apply Eff.step; with_reducible apply updPkt_eff)
    | (with_reducible apply Eff.step; with_reducible apply arrive_eff) | (with_reducible apply Eff.step; with_reducible apply setCur_eff) | split
    | dsimp only [id]

theorem rxAccept_eff (p v : Nat) (head tail poison : Bool) (bytes : List Byte) (d : Dev) : Eff 0x1811d d (rxAccept p v head tail poison bytes d) := by
  unfold rxAccept
  try dsimp only
  repeat' first
    | with_reducible apply Eff.refl | with_reducible assumption | (apply Sub.of; rfl) | (apply Has.of; rfl) | intro _ | with_reducible apply ite_eff
    | (with_reducible apply onlyIf_eff) | (with_reducible apply Eff.step; with_reducible apply wr_eff)
    | (with_reducible apply Eff.step; with_reducible apply bump_eff) | (with_reducible apply Eff.step; with_reducible apply updPort_eff)
    | (with_reducible apply Eff.step; with_reducible apply protocolError_eff) | (with_reducible apply Eff.step; with_reducible apply failPkt_eff)
    | (with_reducible apply Eff.step; with_reducible apply rxHead_eff) | (with_reducible apply Eff.step; with_reducible apply rxMore_eff) | split
    | dsimp only [id]

theorem dataFlitRx_eff (p vl : Nat) (head tail poison : Bool) (seq : Nat) (bytes : List Byte) (d : Dev) : Eff 0x1811d d (dataFlitRx p vl head tail poison seq bytes d) := by
  unfold dataFlitRx
  try dsimp only
  repeat' first
    | with_reducible apply Eff.refl | with_reducible assumption | (apply Sub.of; rfl) | (apply Has.of; rfl) | intro _ | with_reducible apply ite_eff
    | (with_reducible apply Eff.step; with_reducible apply rxAccept_eff) | (with_reducible apply Eff.step; with_reducible apply nakFor_eff) | split
    | dsimp only [id]

theorem flitCheckFail_eff (p : Nat) (isData : Bool) (d : Dev) : Eff 0x800d d (flitCheckFail p isData d) := by
  unfold flitCheckFail
  try dsimp only
  repeat' first
    | with_reducible apply Eff.refl | with_reducible assumption | (apply Sub.of; rfl) | (apply Has.of; rfl) | intro _ | with_reducible apply ite_eff
    | (with_reducible apply onlyIf_eff) | (with_reducible apply Eff.step; with_reducible apply bump_eff)
    | (with_reducible apply Eff.step; with_reducible apply nakFor_eff) | split | dsimp only [id]

theorem countUncorr_eff (p : Nat) (d : Dev) : Eff 0x811d d (countUncorr p d) := by
  unfold countUncorr
  try dsimp only
  repeat' first
    | with_reducible apply Eff.refl | with_reducible assumption | (apply Sub.of; rfl) | (apply Has.of; rfl) | intro _ | with_reducible apply ite_eff
    | (with_reducible apply onlyIf_eff) | (with_reducible apply Eff.step; with_reducible apply updPort_eff)
    | (with_reducible apply Eff.step; with_reducible apply raise_eff) | split | dsimp only [id]

theorem codewordLost_eff (p : Nat) (d : Dev) : Eff 0x811d d (codewordLost p d) := by
  unfold codewordLost
  try dsimp only
  repeat' first
    | with_reducible apply Eff.refl | with_reducible assumption | (apply Sub.of; rfl) | (apply Has.of; rfl) | intro _ | with_reducible apply ite_eff
    | (with_reducible apply Eff.step; with_reducible apply bump_eff) | (with_reducible apply Eff.step; with_reducible apply nakFor_eff)
    | (with_reducible apply Eff.step; with_reducible apply countUncorr_eff) | split | dsimp only [id]

theorem rsUncorrectable_eff (p : Nat) (cnts : List Nat) (errors : Nat) (blocks : List Nat) (d : Dev) : Eff 0x811d d (rsUncorrectable p cnts errors blocks d) := by
  unfold rsUncorrectable
  try dsimp only
  repeat' first
    | with_reducible apply Eff.refl | with_reducible assumption | (apply Sub.of; rfl) | (apply Has.of; rfl) | intro _ | with_reducible apply ite_eff
    | (with_reducible apply onlyIf_eff) | (with_reducible apply forEach_eff) | (with_reducible apply Eff.step; with_reducible apply codewordLost_eff)
    | split | dsimp only [id]

theorem statusRx_eff (p ack : Nat) (valid : Bool) (cr : List Nat) (d : Dev) : Eff 0x8009 d (statusRx p ack valid cr d) := by
  unfold statusRx
  try dsimp only
  repeat' first
    | with_reducible apply Eff.refl | with_reducible assumption | (apply Sub.of; rfl) | (apply Has.of; rfl) | intro _ | with_reducible apply ite_eff
    | (with_reducible apply onlyIf_eff) | (with_reducible apply Eff.step; with_reducible apply takeCredits_eff)
    | (with_reducible apply Eff.step; with_reducible apply ackThrough_eff) | split | dsimp only [id]

theorem nakRx_eff (p exp : Nat) (cr : List Nat) (d : Dev) : Eff 0x1811d d (nakRx p exp cr d) := by
  unfold nakRx
  try dsimp only
  repeat' first
    | with_reducible apply Eff.refl | with_reducible assumption | (apply Sub.of; rfl) | (apply Has.of; rfl) | intro _ | with_reducible apply ite_eff
    | (with_reducible apply Eff.step; with_reducible apply bump_eff) | (with_reducible apply Eff.step; with_reducible apply takeCredits_eff)
    | (with_reducible apply Eff.step; with_reducible apply ackThrough_eff) | (with_reducible apply Eff.step; with_reducible apply startPass_eff)
    | split | dsimp only [id]

theorem initRx_eff (p level : Nat) (rxOk : Bool) (serial : Nat) (cr : List Nat) (d : Dev) : Eff 0x811d d (initRx p level rxOk serial cr d) := by
  unfold initRx
  try dsimp only
  repeat' first
    | with_reducible apply Eff.refl | with_reducible assumption | (apply Sub.of; rfl) | (apply Has.of; rfl) | intro _ | with_reducible apply ite_eff
    | (with_reducible apply foldl_eff) | (with_reducible apply Eff.step; with_reducible apply initFail_eff)
    | (with_reducible apply Eff.step; with_reducible apply updPort_eff) | (with_reducible apply Eff.step; with_reducible apply wr_eff)
    | (with_reducible apply Eff.step; with_reducible apply tryUp_eff) | split | dsimp only [id]

theorem resetRx_eff (p : Nat) (d : Dev) : Eff 0x1811d d (resetRx p d) := by
  unfold resetRx
  try dsimp only
  repeat' first
    | with_reducible apply Eff.refl | with_reducible assumption | (apply Sub.of; rfl) | (apply Has.of; rfl) | intro _ | with_reducible apply ite_eff
    | (with_reducible apply Eff.step; with_reducible apply declareDown_eff) | (with_reducible apply Eff.step; with_reducible apply wr_eff)
    | (with_reducible apply Eff.step; with_reducible apply lanesOff_eff) | (with_reducible apply Eff.step; with_reducible apply updPort_eff)
    | (with_reducible apply Eff.step; with_reducible apply emit_eff) | split | dsimp only [id]

theorem linkFlitReservedRx_eff (p ftype : Nat) (d : Dev) : Eff 0x11d d (linkFlitReservedRx p ftype d) := by
  unfold linkFlitReservedRx
  try dsimp only
  repeat' first
    | with_reducible apply Eff.refl | with_reducible assumption | (apply Sub.of; rfl) | (apply Has.of; rfl) | intro _ | with_reducible apply ite_eff
    | (with_reducible apply Eff.step; with_reducible apply bump_eff) | (with_reducible apply Eff.step; with_reducible apply raise_eff) | split
    | dsimp only [id]

theorem statusSend_eff (p : Nat) (d : Dev) : Eff 0x8004 d (statusSend p d) := by
  unfold statusSend
  try dsimp only
  repeat' first
    | with_reducible apply Eff.refl | with_reducible assumption | (apply Sub.of; rfl) | (apply Has.of; rfl) | intro _ | with_reducible apply ite_eff
    | (with_reducible apply onlyIf_eff) | (with_reducible apply Eff.step; with_reducible apply sendStatus_eff) | split | dsimp only [id]

theorem nakRepeat_eff (p : Nat) (d : Dev) : Eff 0x800d d (nakRepeat p d) := by
  unfold nakRepeat
  try dsimp only
  repeat' first
    | with_reducible apply Eff.refl | with_reducible assumption | (apply Sub.of; rfl) | (apply Has.of; rfl) | intro _ | with_reducible apply ite_eff
    | (with_reducible apply onlyIf_eff) | (with_reducible apply Eff.step; with_reducible apply emitNak_eff) | split | dsimp only [id]

theorem replayTimeout_eff (p : Nat) (d : Dev) : Eff 0x1811d d (replayTimeout p d) := by
  unfold replayTimeout
  try dsimp only
  repeat' first
    | with_reducible apply Eff.refl | with_reducible assumption | (apply Sub.of; rfl) | (apply Has.of; rfl) | intro _ | with_reducible apply ite_eff
    | (with_reducible apply onlyIf_eff) | (with_reducible apply Eff.step; with_reducible apply startPass_eff) | split | dsimp only [id]

theorem initRepeat_eff (p : Nat) (d : Dev) : Eff 0x811d d (initRepeat p d) := by
  unfold initRepeat
  try dsimp only
  repeat' first
    | with_reducible apply Eff.refl | with_reducible assumption | (apply Sub.of; rfl) | (apply Has.of; rfl) | intro _ | with_reducible apply ite_eff
    | (with_reducible apply Eff.step; with_reducible apply sendInit_eff) | (with_reducible apply Eff.step; with_reducible apply tryUp_eff) | split
    | dsimp only [id]

theorem initTimeout_eff (p : Nat) (d : Dev) : Eff 0x811d d (initTimeout p d) := by
  unfold initTimeout
  try dsimp only
  repeat' first
    | with_reducible apply Eff.refl | with_reducible assumption | (apply Sub.of; rfl) | (apply Has.of; rfl) | intro _ | with_reducible apply ite_eff
    | (with_reducible apply Eff.step; with_reducible apply initFail_eff) | split | dsimp only [id]

theorem lockLossTimeout_eff (n : Nat) (d : Dev) : Eff 0x1811d d (lockLossTimeout n d) := by
  unfold lockLossTimeout
  try dsimp only
  repeat' first
    | with_reducible apply Eff.refl | with_reducible assumption | (apply Sub.of; rfl) | (apply Has.of; rfl) | intro _ | with_reducible apply ite_eff
    | (with_reducible apply onlyIf_eff) | (with_reducible apply Eff.step; with_reducible apply declareDown_eff) | split | dsimp only [id]

theorem silentTimeout_eff (p : Nat) (d : Dev) : Eff 0x1811d d (silentTimeout p d) := by
  unfold silentTimeout
  try dsimp only
  repeat' first
    | with_reducible apply Eff.refl | with_reducible assumption | (apply Sub.of; rfl) | (apply Has.of; rfl) | intro _ | with_reducible apply ite_eff
    | (with_reducible apply onlyIf_eff) | (with_reducible apply Eff.step; with_reducible apply declareDown_eff) | split | dsimp only [id]

theorem linkResetIdleEnd_eff (p : Nat) (d : Dev) : Eff 0x811d d (linkResetIdleEnd p d) := by
  unfold linkResetIdleEnd
  try dsimp only
  repeat' first
    | with_reducible apply Eff.refl | with_reducible assumption | (apply Sub.of; rfl) | (apply Has.of; rfl) | intro _ | with_reducible apply ite_eff
    | (with_reducible apply Eff.step; with_reducible apply updPort_eff) | (with_reducible apply Eff.step; with_reducible apply lanesAfresh_eff)
    | (with_reducible apply Eff.step; with_reducible apply startBringup_eff) | (with_reducible apply Eff.step; with_reducible apply wr_eff) | split
    | dsimp only [id]

theorem lresetTrig_eff (p : Nat) (d : Dev) : Eff 0x1811d d (lresetTrig p d) := by
  unfold lresetTrig
  try dsimp only
  repeat' first
    | with_reducible apply Eff.refl | with_reducible assumption | (apply Sub.of; rfl) | (apply Has.of; rfl) | intro _ | with_reducible apply ite_eff
    | (with_reducible apply Eff.step; with_reducible apply declareDown_eff) | (with_reducible apply Eff.step; with_reducible apply wr_eff)
    | (with_reducible apply Eff.step; with_reducible apply lanesAfresh_eff) | (with_reducible apply Eff.step; with_reducible apply startBringup_eff)
    | split | dsimp only [id]

theorem disablePort_eff (p : Nat) (d : Dev) : Eff 0x1811d d (disablePort p d) := by
  unfold disablePort
  try dsimp only
  repeat' first
    | with_reducible apply Eff.refl | with_reducible assumption | (apply Sub.of; rfl) | (apply Has.of; rfl) | intro _ | with_reducible apply ite_eff
    | (with_reducible apply onlyIf_eff) | (with_reducible apply Eff.step; with_reducible apply declareDown_eff)
    | (with_reducible apply Eff.step; with_reducible apply lanesOff_eff) | (with_reducible apply Eff.step; with_reducible apply wr_eff) | split
    | dsimp only [id]

theorem writePortEn_eff (p en : Nat) (val : Word) (d : Dev) : Eff 0x1811d d (writePortEn p en val d) := by
  unfold writePortEn
  try dsimp only
  repeat' first
    | with_reducible apply Eff.refl | with_reducible assumption | (apply Sub.of; rfl) | (apply Has.of; rfl) | intro _ | with_reducible apply ite_eff
    | (with_reducible apply onlyIf_eff) | (with_reducible apply Eff.step; with_reducible apply wr_eff)
    | (with_reducible apply Eff.step; with_reducible apply sharedLowAlarm_eff)
    | (with_reducible apply Eff.step; with_reducible apply startBringup_eff) | (with_reducible apply Eff.step; with_reducible apply cfgErr_eff)
    | (with_reducible apply Eff.step; with_reducible apply disablePort_eff) | split | dsimp only [id]

theorem wakeSendTrig_eff (p : Nat) (d : Dev) : Eff 0x4 d (wakeSendTrig p d) := by
  unfold wakeSendTrig
  try dsimp only
  repeat' first
    | with_reducible apply Eff.refl | with_reducible assumption | (apply Sub.of; rfl) | (apply Has.of; rfl) | intro _ | with_reducible apply ite_eff
    | (with_reducible apply Eff.step; with_reducible apply emit_eff) | split | dsimp only [id]

theorem wakePatternDetect_eff (p : Nat) (d : Dev) : Eff 0x91d d (wakePatternDetect p d) := by
  unfold wakePatternDetect
  try dsimp only
  repeat' first
    | with_reducible apply Eff.refl | with_reducible assumption | (apply Sub.of; rfl) | (apply Has.of; rfl) | intro _ | with_reducible apply ite_eff
    | (with_reducible apply Eff.step; with_reducible apply raise_eff) | (with_reducible apply Eff.step; with_reducible apply wakeDom_eff) | split
    | dsimp only [id]

theorem weatherSend_eff (p : Nat) (d : Dev) : Eff 0x8004 d (weatherSend p d) := by
  unfold weatherSend
  try dsimp only
  repeat' first
    | with_reducible apply Eff.refl | with_reducible assumption | (apply Sub.of; rfl) | (apply Has.of; rfl) | intro _ | with_reducible apply ite_eff
    | (with_reducible apply Eff.step; with_reducible apply sendLink_eff) | (with_reducible apply Eff.step; with_reducible apply updPort_eff) | split
    | dsimp only [id]

theorem weatherRx_eff (p : Nat) (w : Weather) (d : Dev) : Eff 0x8009 d (weatherRx p w d) := by
  unfold weatherRx
  try dsimp only
  repeat' first
    | with_reducible apply Eff.refl | with_reducible assumption | (apply Sub.of; rfl) | (apply Has.of; rfl) | intro _ | with_reducible apply ite_eff
    | (with_reducible apply Eff.step; with_reducible apply updPort_eff) | (with_reducible apply Eff.step; with_reducible apply bump_eff) | split
    | dsimp only [id]

theorem wxStale_eff (p : Nat) (d : Dev) : Eff 0x811d d (wxStale p d) := by
  unfold wxStale
  try dsimp only
  repeat' first
    | with_reducible apply Eff.refl | with_reducible assumption | (apply Sub.of; rfl) | (apply Has.of; rfl) | intro _ | with_reducible apply ite_eff
    | (with_reducible apply Eff.step; with_reducible apply updPort_eff) | (with_reducible apply Eff.step; with_reducible apply raise_eff) | split
    | dsimp only [id]

theorem rxFlit_eff {t : Nat} {a : Dev} (p : Nat) (isData : Bool) (flit : List Byte) (f : Flit → Dev → Dev) (d : Dev) (h : Eff t a d) (ha : ∀ x d, Eff t d (f x d)) (s : Sub 0x800d t) :
    Eff t a (rxFlit p isData flit f d) := by
  unfold rxFlit
  try dsimp only
  repeat' first
    | with_reducible assumption | (apply Sub.of; rfl) | (apply Sub.via s; apply Sub.of; rfl) | (apply Has.of; rfl)
    | (with_reducible apply Eff.seq; with_reducible apply ha) | (apply Has.via s; apply Has.of; rfl) | intro _ | with_reducible apply ite_eff
    | (with_reducible apply Eff.step; with_reducible apply flitCheckFail_eff) | with_reducible apply Eff.refl | split | dsimp only [id]

theorem execDataFlitRx_ran (port : Nat) (b0 b1 b2 b3 : Byte) (body check : List Byte) (s : State) : Ran 0x7911f s (execDataFlitRx port b0 b1 b2 b3 body check s) := by
  unfold execDataFlitRx
  try dsimp only
  repeat' first
    | with_reducible apply Eff.refl | with_reducible assumption | (apply Sub.of; rfl) | (apply Has.of; rfl) | intro _ | with_reducible apply ite_eff
    | with_reducible apply ite_ran | with_reducible apply onNet_ran | (with_reducible apply rxFlit_eff)
    | (with_reducible apply Eff.step; with_reducible apply dataFlitRx_eff) | split | dsimp only [id]

theorem execFlitCheckFail_ran (port : Nat) (isData : Bool) (s : State) : Ran 0x7911f s (execFlitCheckFail port isData s) := by
  unfold execFlitCheckFail
  try dsimp only
  repeat' first
    | with_reducible apply Eff.refl | with_reducible assumption | (apply Sub.of; rfl) | (apply Has.of; rfl) | intro _ | with_reducible apply ite_eff
    | with_reducible apply ite_ran | with_reducible apply onNet_ran | (with_reducible apply Eff.step; with_reducible apply flitCheckFail_eff) | split
    | dsimp only [id]

theorem execRsUncorrectable_ran (cw : BadCodewords) (s : State) : Ran 0x7911f s (execRsUncorrectable cw s) := by
  unfold execRsUncorrectable
  try dsimp only
  repeat' first
    | with_reducible apply Eff.refl | with_reducible assumption | (apply Sub.of; rfl) | (apply Has.of; rfl) | intro _ | with_reducible apply ite_eff
    | with_reducible apply ite_ran | with_reducible apply onNet_ran | (with_reducible apply Eff.step; with_reducible apply rsUncorrectable_eff)
    | split | dsimp only [id]

theorem execStatusRx_ran (port : Nat) (header body check : List Byte) (s : State) : Ran 0x7911f s (execStatusRx port header body check s) := by
  unfold execStatusRx
  try dsimp only
  repeat' first
    | with_reducible apply Eff.refl | with_reducible assumption | (apply Sub.of; rfl) | (apply Has.of; rfl) | intro _ | with_reducible apply ite_eff
    | with_reducible apply ite_ran | with_reducible apply onNet_ran | (with_reducible apply rxFlit_eff)
    | (with_reducible apply Eff.step; with_reducible apply statusRx_eff) | split | dsimp only [id]

theorem execNakRx_ran (port : Nat) (covered check : List Byte) (s : State) : Ran 0x7911f s (execNakRx port covered check s) := by
  unfold execNakRx
  try dsimp only
  repeat' first
    | with_reducible apply Eff.refl | with_reducible assumption | (apply Sub.of; rfl) | (apply Has.of; rfl) | intro _ | with_reducible apply ite_eff
    | with_reducible apply ite_ran | with_reducible apply onNet_ran | (with_reducible apply rxFlit_eff)
    | (with_reducible apply Eff.step; with_reducible apply nakRx_eff) | split | dsimp only [id]

theorem execInitRx_ran (port : Nat) (header credits serial rest : List Byte) (s : State) : Ran 0x7911f s (execInitRx port header credits serial rest s) := by
  unfold execInitRx
  try dsimp only
  repeat' first
    | with_reducible apply Eff.refl | with_reducible assumption | (apply Sub.of; rfl) | (apply Has.of; rfl) | intro _ | with_reducible apply ite_eff
    | with_reducible apply ite_ran | with_reducible apply onNet_ran | (with_reducible apply rxFlit_eff)
    | (with_reducible apply Eff.step; with_reducible apply initRx_eff) | split | dsimp only [id]

theorem execResetRx_ran (rx : RxFlit) (s : State) : Ran 0x7911f s (execResetRx rx s) := by
  unfold execResetRx
  try dsimp only
  repeat' first
    | with_reducible apply Eff.refl | with_reducible assumption | (apply Sub.of; rfl) | (apply Has.of; rfl) | intro _ | with_reducible apply ite_eff
    | with_reducible apply ite_ran | with_reducible apply onNet_ran | (with_reducible apply rxFlit_eff)
    | (with_reducible apply Eff.step; with_reducible apply resetRx_eff) | split | dsimp only [id]

theorem execLinkFlitReservedRx_ran (port : Nat) (flit : List Byte) (s : State) : Ran 0x7911f s (execLinkFlitReservedRx port flit s) := by
  unfold execLinkFlitReservedRx
  try dsimp only
  repeat' first
    | with_reducible apply Eff.refl | with_reducible assumption | (apply Sub.of; rfl) | (apply Has.of; rfl) | intro _ | with_reducible apply ite_eff
    | with_reducible apply ite_ran | with_reducible apply onNet_ran | (with_reducible apply rxFlit_eff)
    | (with_reducible apply Eff.step; with_reducible apply linkFlitReservedRx_eff) | split | dsimp only [id]

theorem execStatusSend_ran (port : Nat) (s : State) : Ran 0x7911f s (execStatusSend port s) := by
  unfold execStatusSend
  try dsimp only
  repeat' first
    | with_reducible apply Eff.refl | with_reducible assumption | (apply Sub.of; rfl) | (apply Has.of; rfl) | intro _ | with_reducible apply ite_eff
    | with_reducible apply ite_ran | with_reducible apply onNet_ran | (with_reducible apply Eff.step; with_reducible apply statusSend_eff) | split
    | dsimp only [id]

theorem execNakRepeat_ran (port : Nat) (s : State) : Ran 0x7911f s (execNakRepeat port s) := by
  unfold execNakRepeat
  try dsimp only
  repeat' first
    | with_reducible apply Eff.refl | with_reducible assumption | (apply Sub.of; rfl) | (apply Has.of; rfl) | intro _ | with_reducible apply ite_eff
    | with_reducible apply ite_ran | with_reducible apply onNet_ran | (with_reducible apply Eff.step; with_reducible apply nakRepeat_eff) | split
    | dsimp only [id]

theorem execReplayTimeout_ran (port : Nat) (s : State) : Ran 0x7911f s (execReplayTimeout port s) := by
  unfold execReplayTimeout
  try dsimp only
  repeat' first
    | with_reducible apply Eff.refl | with_reducible assumption | (apply Sub.of; rfl) | (apply Has.of; rfl) | intro _ | with_reducible apply ite_eff
    | with_reducible apply ite_ran | with_reducible apply onNet_ran | (with_reducible apply Eff.step; with_reducible apply replayTimeout_eff) | split
    | dsimp only [id]

theorem execInitRepeat_ran (port : Nat) (s : State) : Ran 0x7911f s (execInitRepeat port s) := by
  unfold execInitRepeat
  try dsimp only
  repeat' first
    | with_reducible apply Eff.refl | with_reducible assumption | (apply Sub.of; rfl) | (apply Has.of; rfl) | intro _ | with_reducible apply ite_eff
    | with_reducible apply ite_ran | with_reducible apply onNet_ran | (with_reducible apply Eff.step; with_reducible apply initRepeat_eff) | split
    | dsimp only [id]

theorem execInitTimeout_ran (port : Nat) (s : State) : Ran 0x7911f s (execInitTimeout port s) := by
  unfold execInitTimeout
  try dsimp only
  repeat' first
    | with_reducible apply Eff.refl | with_reducible assumption | (apply Sub.of; rfl) | (apply Has.of; rfl) | intro _ | with_reducible apply ite_eff
    | with_reducible apply ite_ran | with_reducible apply onNet_ran | (with_reducible apply Eff.step; with_reducible apply initTimeout_eff) | split
    | dsimp only [id]

theorem execLockLossTimeout_ran (lane : Nat) (s : State) : Ran 0x7911f s (execLockLossTimeout lane s) := by
  unfold execLockLossTimeout
  try dsimp only
  repeat' first
    | with_reducible apply Eff.refl | with_reducible assumption | (apply Sub.of; rfl) | (apply Has.of; rfl) | intro _ | with_reducible apply ite_eff
    | with_reducible apply ite_ran | with_reducible apply onNet_ran | (with_reducible apply Eff.step; with_reducible apply lockLossTimeout_eff)
    | split | dsimp only [id]

theorem execSilentTimeout_ran (port : Nat) (s : State) : Ran 0x7911f s (execSilentTimeout port s) := by
  unfold execSilentTimeout
  try dsimp only
  repeat' first
    | with_reducible apply Eff.refl | with_reducible assumption | (apply Sub.of; rfl) | (apply Has.of; rfl) | intro _ | with_reducible apply ite_eff
    | with_reducible apply ite_ran | with_reducible apply onNet_ran | (with_reducible apply Eff.step; with_reducible apply silentTimeout_eff) | split
    | dsimp only [id]

theorem execLinkDown_ran (port cause : Nat) (s : State) : Ran 0x7911f s (execLinkDown port cause s) := by
  unfold execLinkDown
  try dsimp only
  repeat' first
    | with_reducible apply Eff.refl | with_reducible assumption | (apply Sub.of; rfl) | (apply Has.of; rfl) | intro _ | with_reducible apply ite_eff
    | with_reducible apply ite_ran | with_reducible apply onNet_ran | (with_reducible apply Eff.step; with_reducible apply declareDown_eff) | split
    | dsimp only [id]

theorem execLinkResetIdleEnd_ran (port : Nat) (s : State) : Ran 0x7911f s (execLinkResetIdleEnd port s) := by
  unfold execLinkResetIdleEnd
  try dsimp only
  repeat' first
    | with_reducible apply Eff.refl | with_reducible assumption | (apply Sub.of; rfl) | (apply Has.of; rfl) | intro _ | with_reducible apply ite_eff
    | with_reducible apply ite_ran | with_reducible apply onNet_ran | (with_reducible apply Eff.step; with_reducible apply linkResetIdleEnd_eff)
    | split | dsimp only [id]

theorem execLreset_ran (port : Nat) (s : State) : Ran 0x7911f s (execLreset port s) := by
  unfold execLreset
  try dsimp only
  repeat' first
    | with_reducible apply Eff.refl | with_reducible assumption | (apply Sub.of; rfl) | (apply Has.of; rfl) | intro _ | with_reducible apply ite_eff
    | with_reducible apply ite_ran | with_reducible apply onNet_ran | (with_reducible apply trigger_eff)
    | (with_reducible apply Eff.step; with_reducible apply lresetTrig_eff) | split | dsimp only [id]

theorem execPortEnableWrite_ran (port en : Nat) (s : State) : Ran 0x7911f s (execPortEnableWrite port en s) := by
  unfold execPortEnableWrite
  try dsimp only
  repeat' first
    | with_reducible apply Eff.refl | with_reducible assumption | (apply Sub.of; rfl) | (apply Has.of; rfl) | intro _ | with_reducible apply ite_eff
    | with_reducible apply ite_ran | with_reducible apply onNet_ran | (with_reducible apply mgmtWrite_eff) | (with_reducible apply unlessLocked_eff)
    | (with_reducible apply Eff.step; with_reducible apply writePortEn_eff) | split | dsimp only [id]

theorem execWakeSend_ran (port : Nat) (s : State) : Ran 0x7911f s (execWakeSend port s) := by
  unfold execWakeSend
  try dsimp only
  repeat' first
    | with_reducible apply Eff.refl | with_reducible assumption | (apply Sub.of; rfl) | (apply Has.of; rfl) | intro _ | with_reducible apply ite_eff
    | with_reducible apply ite_ran | with_reducible apply onNet_ran | (with_reducible apply trigger_eff)
    | (with_reducible apply Eff.step; with_reducible apply wakeSendTrig_eff) | split | dsimp only [id]

theorem execWakePatternDetect_ran (port : Nat) (s : State) : Ran 0x7991f s (execWakePatternDetect port s) := by
  unfold execWakePatternDetect
  try dsimp only
  repeat' first
    | with_reducible apply Eff.refl | with_reducible assumption | (apply Sub.of; rfl) | (apply Has.of; rfl) | intro _ | with_reducible apply ite_eff
    | with_reducible apply ite_ran | with_reducible apply onNet_ran | (with_reducible apply Eff.step; with_reducible apply wakePatternDetect_eff)
    | split | dsimp only [id]

theorem execWeatherSend_ran (port : Nat) (s : State) : Ran 0x7911f s (execWeatherSend port s) := by
  unfold execWeatherSend
  try dsimp only
  repeat' first
    | with_reducible apply Eff.refl | with_reducible assumption | (apply Sub.of; rfl) | (apply Has.of; rfl) | intro _ | with_reducible apply ite_eff
    | with_reducible apply ite_ran | with_reducible apply onNet_ran | (with_reducible apply Eff.step; with_reducible apply weatherSend_eff) | split
    | dsimp only [id]

theorem execWeatherRx_ran (port : Nat) (flit : List Byte) (s : State) : Ran 0x7911f s (execWeatherRx port flit s) := by
  unfold execWeatherRx
  try dsimp only
  repeat' first
    | with_reducible apply Eff.refl | with_reducible assumption | (apply Sub.of; rfl) | (apply Has.of; rfl) | intro _ | with_reducible apply ite_eff
    | with_reducible apply ite_ran | with_reducible apply onNet_ran | (with_reducible apply rxFlit_eff)
    | (with_reducible apply Eff.step; with_reducible apply weatherRx_eff) | split | dsimp only [id]

theorem execWxStale_ran (port : Nat) (s : State) : Ran 0x7911f s (execWxStale port s) := by
  unfold execWxStale
  try dsimp only
  repeat' first
    | with_reducible apply Eff.refl | with_reducible assumption | (apply Sub.of; rfl) | (apply Has.of; rfl) | intro _ | with_reducible apply ite_eff
    | with_reducible apply ite_ran | with_reducible apply onNet_ran | (with_reducible apply Eff.step; with_reducible apply wxStale_eff) | split
    | dsimp only [id]

end Sys2Proof.Machine
end

