-- ==== Sys2Proof/Laws/EffFabric.lean ====
section
/-!
SUPPORT. What each function of Machine/Fabric.lean can change.
-/

namespace Sys2Proof.Machine

theorem dropExchanges_eff (d : Dev) : Eff 0x1000 d (dropExchanges d) := by
  unfold dropExchanges
  try dsimp only
  repeat' first
    | with_reducible apply Eff.refl | with_reducible assumption | (apply Sub.of; rfl) | (apply Has.of; rfl) | intro _ | with_reducible apply ite_eff
    | (with_reducible apply Eff.step; (with_reducible apply updTh_eff; rfl))
    | (with_reducible apply Eff.step; (with_reducible apply updTh_eff; split <;> rfl)) | split | dsimp only [id]

theorem ppsLow_eff (d : Dev) : Eff 0x4 d (ppsLow d) := by
  unfold ppsLow
  try dsimp only
  repeat' first
    | with_reducible apply Eff.refl | with_reducible assumption | (apply Sub.of; rfl) | (apply Has.of; rfl) | intro _ | with_reducible apply ite_eff
    | (with_reducible apply onlyIf_eff) | (with_reducible apply Eff.step; with_reducible apply emit_eff) | split | dsimp only [id]

theorem setFabric_eff (step : Bool) (v : Nat) (d : Dev) : Eff 0x7991f d (setFabric step v d) := by
  unfold setFabric
  try dsimp only
  repeat' first
    | with_reducible apply Eff.refl | with_reducible assumption | (apply Sub.of; rfl) | (apply Has.of; rfl) | intro _ | with_reducible apply ite_eff
    | (with_reducible apply onlyIf_eff) | (with_reducible apply Eff.step; (with_reducible apply updTh_eff; rfl))
    | (with_reducible apply Eff.step; (with_reducible apply updTh_eff; split <;> rfl))
    | (with_reducible apply Eff.step; with_reducible apply dropExchanges_eff) | (with_reducible apply Eff.step; with_reducible apply wr_eff)
    | (with_reducible apply Eff.step; with_reducible apply raise_eff) | (with_reducible apply Eff.step; with_reducible apply bump_eff)
    | (with_reducible apply Eff.step; with_reducible apply gatesTimeChange_eff) | (with_reducible apply Eff.step; with_reducible apply timePassed_eff)
    | split | dsimp only [id]

theorem setNow_eff (d : Dev) : Eff 0x7991f d (setNow d) := by
  unfold setNow
  try dsimp only
  repeat' first
    | with_reducible apply Eff.refl | with_reducible assumption | (apply Sub.of; rfl) | (apply Has.of; rfl) | intro _ | with_reducible apply ite_eff
    | (with_reducible apply Eff.step; (with_reducible apply updTh_eff; rfl))
    | (with_reducible apply Eff.step; (with_reducible apply updTh_eff; split <;> rfl))
    | (with_reducible apply Eff.step; with_reducible apply setFabric_eff) | split | dsimp only [id]

theorem setGo_eff (v : Word) (d : Dev) : Eff 0x7991f d (setGo v d) := by
  unfold setGo
  try dsimp only
  repeat' first
    | with_reducible apply Eff.refl | with_reducible assumption | (apply Sub.of; rfl) | (apply Has.of; rfl) | intro _ | with_reducible apply ite_eff
    | (with_reducible apply Eff.step; with_reducible apply cfgErr_eff) | (with_reducible apply Eff.step; (with_reducible apply updTh_eff; rfl))
    | (with_reducible apply Eff.step; (with_reducible apply updTh_eff; split <;> rfl))
    | (with_reducible apply Eff.step; with_reducible apply setNow_eff) | split | dsimp only [id]

theorem execSetGo_ran (s : State) : Ran 0x7991f s (execSetGo s) := by
  unfold execSetGo
  try dsimp only
  repeat' first
    | with_reducible apply Eff.refl | with_reducible assumption | (apply Sub.of; rfl) | (apply Has.of; rfl) | intro _ | with_reducible apply ite_eff
    | with_reducible apply ite_ran | with_reducible apply onAll_ran | (with_reducible apply trigger_eff)
    | (with_reducible apply Eff.step; with_reducible apply setGo_eff) | split | dsimp only [id]

theorem steer_eff (d : Dev) : Eff 0x9 d (steer d) := by
  unfold steer
  try dsimp only
  repeat' first
    | with_reducible apply Eff.refl | with_reducible assumption | (apply Sub.of; rfl) | (apply Has.of; rfl) | intro _ | with_reducible apply ite_eff
    | (with_reducible apply Eff.step; with_reducible apply wr_eff) | (with_reducible apply Eff.step; with_reducible apply takeFree_eff) | split
    | dsimp only [id]

theorem putTimePort_eff (p : Nat) (x : TimePort) (d : Dev) : Eff 0x1000 d (putTimePort p x d) := by
  unfold putTimePort
  try dsimp only
  repeat' first
    | with_reducible apply Eff.refl | with_reducible assumption | (apply Sub.of; rfl) | (apply Has.of; rfl) | intro _ | with_reducible apply ite_eff
    | (with_reducible apply Eff.step; (with_reducible apply updTh_eff; rfl))
    | (with_reducible apply Eff.step; (with_reducible apply updTh_eff; split <;> rfl)) | split | dsimp only [id]

theorem idleToCodeword_eff (p : Nat) (d : Dev) : Eff 0x8004 d (idleToCodeword p d) := by
  unfold idleToCodeword
  try dsimp only
  repeat' first
    | with_reducible apply Eff.refl | with_reducible assumption | (apply Sub.of; rfl) | (apply Has.of; rfl) | intro _ | with_reducible apply ite_eff
    | (with_reducible apply forEach_eff) | (with_reducible apply Eff.step; with_reducible apply sendLink_eff) | split | dsimp only [id]

theorem timeSend_eff (p : Nat) (d : Dev) : Eff 0x9004 d (timeSend p d) := by
  unfold timeSend
  try dsimp only
  repeat' first
    | with_reducible apply Eff.refl | with_reducible assumption | (apply Sub.of; rfl) | (apply Has.of; rfl) | intro _ | with_reducible apply ite_eff
    | (with_reducible apply Eff.step; with_reducible apply idleToCodeword_eff) | (with_reducible apply Eff.step; with_reducible apply sendLink_eff)
    | (with_reducible apply Eff.step; with_reducible apply putTimePort_eff) | split | dsimp only [id]

theorem execTimeFlitSend_ran (port : Nat) (s : State) : Ran 0x9004 s (execTimeFlitSend port s) := by
  unfold execTimeFlitSend
  try dsimp only
  repeat' first
    | with_reducible apply Eff.refl | with_reducible assumption | (apply Sub.of; rfl) | (apply Has.of; rfl) | intro _ | with_reducible apply ite_eff
    | with_reducible apply ite_ran | with_reducible apply onDev_ran | (with_reducible apply Eff.step; with_reducible apply timeSend_eff) | split
    | dsimp only [id]

theorem lockTime_eff (d : Dev) : Eff 0x7991f d (lockTime d) := by
  unfold lockTime
  try dsimp only
  repeat' first
    | with_reducible apply Eff.refl | with_reducible assumption | (apply Sub.of; rfl) | (apply Has.of; rfl) | intro _ | with_reducible apply ite_eff
    | (with_reducible apply onlyIf_eff) | (with_reducible apply Eff.step; with_reducible apply wr_eff)
    | (with_reducible apply Eff.step; with_reducible apply raise_eff) | (with_reducible apply Eff.step; with_reducible apply gatesTimeChange_eff)
    | (with_reducible apply Eff.step; with_reducible apply timePassed_eff) | split | dsimp only [id]

theorem trackOffset_eff (o : Int) (d : Dev) : Eff 0x7991f d (trackOffset o d) := by
  unfold trackOffset
  try dsimp only
  repeat' first
    | with_reducible apply Eff.refl | with_reducible assumption | (apply Sub.of; rfl) | (apply Has.of; rfl) | intro _ | with_reducible apply ite_eff
    | (with_reducible apply Eff.step; (with_reducible apply updTh_eff; rfl))
    | (with_reducible apply Eff.step; (with_reducible apply updTh_eff; split <;> rfl))
    | (with_reducible apply Eff.step; with_reducible apply lockTime_eff) | (with_reducible apply Eff.step; with_reducible apply acquire_eff)
    | (with_reducible apply Eff.step; with_reducible apply raise_eff) | split | dsimp only [id]

theorem wr16th_eff (f : Fld) (v : Int) (d : Dev) : Eff 0x9 d (wr16th f v d) := by
  unfold wr16th
  try dsimp only
  repeat' first
    | with_reducible apply Eff.refl | with_reducible assumption | (apply Sub.of; rfl) | (apply Has.of; rfl) | intro _ | with_reducible apply ite_eff
    | (with_reducible apply Eff.step; with_reducible apply wr_eff) | (with_reducible apply Eff.step; with_reducible apply takeFree_eff) | split
    | dsimp only [id]

theorem useOffset_eff (o : Int) (parentValid : Bool) (d : Dev) : Eff 0x7991f d (useOffset o parentValid d) := by
  unfold useOffset
  try dsimp only
  repeat' first
    | with_reducible apply Eff.refl | with_reducible assumption | (apply Sub.of; rfl) | (apply Has.of; rfl) | intro _ | with_reducible apply ite_eff
    | (with_reducible apply Eff.step; with_reducible apply setFabric_eff) | (with_reducible apply Eff.step; (with_reducible apply updTh_eff; rfl))
    | (with_reducible apply Eff.step; (with_reducible apply updTh_eff; split <;> rfl))
    | (with_reducible apply Eff.step; with_reducible apply steer_eff) | (with_reducible apply Eff.step; with_reducible apply trackOffset_eff) | split
    | dsimp only [id]

theorem timeSample_eff (p : Nat) (dl o : Int) (parentValid : Bool) (d : Dev) : Eff 0x7991f d (timeSample p dl o parentValid d) := by
  unfold timeSample
  try dsimp only
  repeat' first
    | with_reducible apply Eff.refl | with_reducible assumption | (apply Sub.of; rfl) | (apply Has.of; rfl) | intro _ | with_reducible apply ite_eff
    | (with_reducible apply onlyIf_eff) | (with_reducible apply Eff.step; with_reducible apply bump_eff)
    | (with_reducible apply Eff.step; with_reducible apply putTimePort_eff) | (with_reducible apply Eff.step; with_reducible apply wr16th_eff)
    | (with_reducible apply Eff.step; with_reducible apply useOffset_eff) | split | dsimp only [id]

theorem takeRecord_eff (p : Nat) (f : TimeFlit) (d : Dev) : Eff 0x1000 d (takeRecord p f d) := by
  unfold takeRecord
  try dsimp only
  repeat' first
    | with_reducible apply Eff.refl | with_reducible assumption | (apply Sub.of; rfl) | (apply Has.of; rfl) | intro _ | with_reducible apply ite_eff
    | (with_reducible apply Eff.step; with_reducible apply putGmRec_eff) | split | dsimp only [id]

theorem timeRx_eff (p : Nat) (f : TimeFlit) (d : Dev) : Eff 0x7991f d (timeRx p f d) := by
  unfold timeRx
  try dsimp only
  repeat' first
    | with_reducible apply Eff.refl | with_reducible assumption | (apply Sub.of; rfl) | (apply Has.of; rfl) | intro _ | with_reducible apply ite_eff
    | (with_reducible apply Eff.step; with_reducible apply bump_eff) | (with_reducible apply Eff.step; with_reducible apply putTimePort_eff)
    | (with_reducible apply Eff.step; with_reducible apply takeRecord_eff) | (with_reducible apply Eff.step; with_reducible apply timeElect_eff)
    | (with_reducible apply Eff.step; with_reducible apply timeSample_eff) | split | dsimp only [id]

theorem execTimeFlitRx_ran (port : Nat) (flit : List Byte) (s : State) : Ran 0x7991f s (execTimeFlitRx port flit s) := by
  unfold execTimeFlitRx
  try dsimp only
  repeat' first
    | with_reducible apply Eff.refl | with_reducible assumption | (apply Sub.of; rfl) | (apply Has.of; rfl) | intro _ | with_reducible apply ite_eff
    | with_reducible apply ite_ran | with_reducible apply onAll_ran | (with_reducible apply rxFlit_eff)
    | (with_reducible apply Eff.step; with_reducible apply timeRx_eff) | split | dsimp only [id]

theorem execGmRoundTick_ran (s : State) : Ran 0x1 s (execGmRoundTick s) := by
  unfold execGmRoundTick
  try dsimp only
  repeat' first
    | with_reducible apply Eff.refl | with_reducible assumption | (apply Sub.of; rfl) | (apply Has.of; rfl) | intro _ | with_reducible apply ite_eff
    | with_reducible apply ite_ran | (with_reducible apply onlyIf_eff) | with_reducible apply onDev_ran
    | (with_reducible apply Eff.step; with_reducible apply addMod_eff) | split | dsimp only [id]

theorem execGmRecordStale_ran (port : Nat) (s : State) : Ran 0x111d s (execGmRecordStale port s) := by
  unfold execGmRecordStale
  try dsimp only
  repeat' first
    | with_reducible apply Eff.refl | with_reducible assumption | (apply Sub.of; rfl) | (apply Has.of; rfl) | intro _ | with_reducible apply ite_eff
    | with_reducible apply ite_ran | with_reducible apply onDev_ran | (with_reducible apply Eff.step; with_reducible apply putGmRec_eff)
    | (with_reducible apply Eff.step; with_reducible apply timeElect_eff) | split | dsimp only [id]

theorem holdoverEnd_eff (d : Dev) : Eff 0x811d d (holdoverEnd d) := by
  unfold holdoverEnd
  try dsimp only
  repeat' first
    | with_reducible apply Eff.refl | with_reducible assumption | (apply Sub.of; rfl) | (apply Has.of; rfl) | intro _ | with_reducible apply ite_eff
    | (with_reducible apply Eff.step; with_reducible apply wr_eff) | (with_reducible apply Eff.step; with_reducible apply raise_eff)
    | (with_reducible apply Eff.step; with_reducible apply gatesTimeChange_eff) | (with_reducible apply Eff.step; with_reducible apply ppsLow_eff)
    | split | dsimp only [id]

theorem execHoldoverExpire_ran (s : State) : Ran 0x811d s (execHoldoverExpire s) := by
  unfold execHoldoverExpire
  try dsimp only
  repeat' first
    | with_reducible apply Eff.refl | with_reducible assumption | (apply Sub.of; rfl) | (apply Has.of; rfl) | intro _ | with_reducible apply ite_eff
    | with_reducible apply ite_ran | with_reducible apply onDev_ran | (with_reducible apply Eff.step; with_reducible apply holdoverEnd_eff) | split
    | dsimp only [id]

theorem ppsIn_eff (d : Dev) : Eff 0x7991f d (ppsIn d) := by
  unfold ppsIn
  try dsimp only
  repeat' first
    | with_reducible apply Eff.refl | with_reducible assumption | (apply Sub.of; rfl) | (apply Has.of; rfl) | intro _ | with_reducible apply ite_eff
    | (with_reducible apply Eff.step; with_reducible apply wr_eff) | (with_reducible apply Eff.step; (with_reducible apply updTh_eff; rfl))
    | (with_reducible apply Eff.step; (with_reducible apply updTh_eff; split <;> rfl))
    | (with_reducible apply Eff.step; with_reducible apply timeElect_eff) | (with_reducible apply Eff.step; with_reducible apply setNow_eff)
    | (with_reducible apply Eff.step; with_reducible apply steer_eff) | split | dsimp only [id]

theorem execPpsInEdge_ran (s : State) : Ran 0x7991f s (execPpsInEdge s) := by
  unfold execPpsInEdge
  try dsimp only
  repeat' first
    | with_reducible apply Eff.refl | with_reducible assumption | (apply Sub.of; rfl) | (apply Has.of; rfl) | intro _ | with_reducible apply ite_eff
    | with_reducible apply ite_ran | with_reducible apply onAll_ran | (with_reducible apply Eff.step; with_reducible apply ppsIn_eff) | split
    | dsimp only [id]

theorem execPpsInLost_ran (s : State) : Ran 0x111d s (execPpsInLost s) := by
  unfold execPpsInLost
  try dsimp only
  repeat' first
    | with_reducible apply Eff.refl | with_reducible assumption | (apply Sub.of; rfl) | (apply Has.of; rfl) | intro _ | with_reducible apply ite_eff
    | with_reducible apply ite_ran | (with_reducible apply onlyIf_eff) | with_reducible apply onDev_ran
    | (with_reducible apply Eff.step; with_reducible apply raise_eff) | (with_reducible apply Eff.step; (with_reducible apply updTh_eff; rfl))
    | (with_reducible apply Eff.step; (with_reducible apply updTh_eff; split <;> rfl))
    | (with_reducible apply Eff.step; with_reducible apply timeElect_eff) | split | dsimp only [id]

theorem execPpsOutSecond_ran (s : State) : Ran 0x4 s (execPpsOutSecond s) := by
  unfold execPpsOutSecond
  try dsimp only
  repeat' first
    | with_reducible apply Eff.refl | with_reducible assumption | (apply Sub.of; rfl) | (apply Has.of; rfl) | intro _ | with_reducible apply ite_eff
    | with_reducible apply ite_ran | (with_reducible apply onlyIf_eff) | with_reducible apply onDev_ran
    | (with_reducible apply Eff.step; with_reducible apply emit_eff) | split | dsimp only [id]

theorem phaseLoad_eff (d : Dev) : Eff 0x7991f d (phaseLoad d) := by
  unfold phaseLoad
  try dsimp only
  repeat' first
    | with_reducible apply Eff.refl | with_reducible assumption | (apply Sub.of; rfl) | (apply Has.of; rfl) | intro _ | with_reducible apply ite_eff
    | (with_reducible apply onlyIf_eff) | (with_reducible apply forEach_eff) | (with_reducible apply Eff.step; with_reducible apply wr_eff)
    | (with_reducible apply Eff.step; with_reducible apply hznPassed_eff) | split | dsimp only [id]

theorem execPhaseLoadGo_ran (s : State) : Ran 0x7991f s (execPhaseLoadGo s) := by
  unfold execPhaseLoadGo
  try dsimp only
  repeat' first
    | with_reducible apply Eff.refl | with_reducible assumption | (apply Sub.of; rfl) | (apply Has.of; rfl) | intro _ | with_reducible apply ite_eff
    | with_reducible apply ite_ran | with_reducible apply onAll_ran | (with_reducible apply trigger_eff)
    | (with_reducible apply Eff.step; with_reducible apply phaseLoad_eff) | split | dsimp only [id]

end Sys2Proof.Machine
end

