-- ==== Sys2Proof/Laws/EffRanges.lean ====
section
/-!
SUPPORT. What each function of Machine/Ranges.lean can change.
-/

namespace Sys2Proof.Machine

theorem storePlain_eff (ty inst off : Nat) (val : Word) (d : Dev) : Eff 0x1 d (storePlain ty inst off val d) := by
  unfold storePlain
  try dsimp only
  repeat' first
    | with_reducible apply Eff.refl | with_reducible assumption | (apply Sub.of; rfl) | (apply Has.of; rfl) | intro _ | with_reducible apply ite_eff
    | (with_reducible apply Eff.step; with_reducible apply setWord_eff) | split | dsimp only [id]

end Sys2Proof.Machine
end

