-- ==== Sys2Proof/Laws/EffReset.lean ====
section
/-!
SUPPORT. What each function of Machine/Reset.lean can change.
-/

namespace Sys2Proof.Machine

theorem resetDev_eff (k : Nat) (d : Dev) : Eff 0x80000 d (resetDev k d) := .tail (.refl d) (.reset d k) rfl

theorem checkBank_eff (b : Nat) (d : Dev) : Eff 0x9 d (checkBank b d) := by
  unfold checkBank
  try dsimp only
  repeat' first
    | with_reducible apply Eff.refl | with_reducible assumption | (apply Sub.of; rfl) | (apply Has.of; rfl) | intro _ | with_reducible apply ite_eff
    | (with_reducible apply onlyIf_eff) | (with_reducible apply Eff.step; with_reducible apply wr_eff)
    | (with_reducible apply Eff.step; with_reducible apply bump_eff) | split | dsimp only [id]

theorem wrBytes_eff (f : Fld) (n : Nat) (bs : List Byte) (d : Dev) : Eff 0x1 d (wrBytes f n bs d) := by
  unfold wrBytes
  try dsimp only
  repeat' first
    | with_reducible apply Eff.refl | with_reducible assumption | (apply Sub.of; rfl) | (apply Has.of; rfl) | intro _ | with_reducible apply ite_eff
    | (with_reducible apply forEach_eff) | (with_reducible apply Eff.step; with_reducible apply wrI_eff) | split | dsimp only [id]

theorem runBank_eff (b : Nat) (fallback : Bool) (d : Dev) : Eff 0x1 d (runBank b fallback d) := by
  unfold runBank
  try dsimp only
  repeat' first
    | with_reducible apply Eff.refl | with_reducible assumption | (apply Sub.of; rfl) | (apply Has.of; rfl) | intro _ | with_reducible apply ite_eff
    | (with_reducible apply Eff.step; with_reducible apply wr_eff) | (with_reducible apply Eff.step; with_reducible apply wr2_eff)
    | (with_reducible apply Eff.step; with_reducible apply wrBytes_eff) | split | dsimp only [id]

theorem chooseBank_eff (d : Dev) : Eff 0x13d d (chooseBank d) := by
  unfold chooseBank
  try dsimp only
  repeat' first
    | with_reducible apply Eff.refl | with_reducible assumption | (apply Sub.of; rfl) | (apply Has.of; rfl) | intro _ | with_reducible apply ite_eff
    | (with_reducible apply Eff.step; with_reducible apply wr_eff) | (with_reducible apply Eff.step; with_reducible apply checkBank_eff)
    | (with_reducible apply Eff.step; with_reducible apply runBank_eff) | (with_reducible apply Eff.step; with_reducible apply raiseDet_eff)
    | (with_reducible apply Eff.last; with_reducible apply Prim.boot) | split | dsimp only [id]

theorem identStart_eff (d : Dev) : Eff 0x41 d (identStart d) := by
  unfold identStart
  dsimp only
  refine Eff.step (wrBytes_eff ..) (Sub.of rfl) ?_
  split
  · exact .tail (.refl d) (.otp d _ ⟨rfl, List.prefix_refl _, Nat.le_refl _, Nat.le_refl _, rfl, rfl, rfl, .inr rfl, fun _ w h => ⟨w, h, rfl, id, id⟩⟩) rfl
  · exact .refl d

theorem timeStart_eff (d : Dev) : Eff 0x1 d (timeStart d) := by
  unfold timeStart
  try dsimp only
  repeat' first
    | with_reducible apply Eff.refl | with_reducible assumption | (apply Sub.of; rfl) | (apply Has.of; rfl) | intro _ | with_reducible apply ite_eff
    | (with_reducible apply Eff.step; with_reducible apply wr_eff) | split | dsimp only [id]

theorem startUp_eff (running last : Nat) (d : Dev) : Eff 0x17d d (startUp running last d) := by
  unfold startUp
  try dsimp only
  repeat' first
    | with_reducible apply Eff.refl | with_reducible assumption | (apply Sub.of; rfl) | (apply Has.of; rfl) | intro _ | with_reducible apply ite_eff
    | (with_reducible apply Eff.step; with_reducible apply wr_eff) | (with_reducible apply Eff.step; with_reducible apply timeStart_eff)
    | (with_reducible apply Eff.step; with_reducible apply identStart_eff) | (with_reducible apply Eff.step; with_reducible apply chooseBank_eff)
    | (with_reducible apply Eff.last; with_reducible apply Prim.boot) | split | dsimp only [id]

theorem feedsShown_eff (x d : Dev) : Eff 0x1 d (feedsShown x d) := by
  unfold feedsShown
  try dsimp only
  repeat' first
    | with_reducible apply Eff.refl | with_reducible assumption | (apply Sub.of; rfl) | intro _ | (with_reducible apply forEach_eff)
    | (with_reducible apply Eff.step; with_reducible apply wr_eff) | dsimp only

theorem feedCharges_eff (feed : Nat) (d : Dev) : Eff 0x51d d (feedCharges feed d) := by
  unfold feedCharges
  try dsimp only
  repeat' first
    | with_reducible apply Eff.refl | with_reducible assumption | (apply Sub.of; rfl) | (apply Has.of; rfl) | intro _ | with_reducible apply ite_eff
    | (with_reducible apply Eff.step; with_reducible apply feedPresent_eff) | (with_reducible apply Eff.step; with_reducible apply closePath_eff)
    | (with_reducible apply Eff.step; with_reducible apply feedGood_eff) | split | dsimp only [id]

theorem coldStart_eff (feed : Nat) (repairs : List Nat) (d : Dev) : Eff 0x8057d d (coldStart feed repairs d) := by
  unfold coldStart
  try dsimp only
  repeat' first
    | with_reducible apply Eff.refl | with_reducible assumption | (apply Sub.of; rfl) | (apply Has.of; rfl) | intro _ | with_reducible apply ite_eff
    | (with_reducible apply forEach_eff) | (with_reducible apply Eff.step; with_reducible apply feedCharges_eff)
    | (with_reducible apply Eff.step; with_reducible apply resetDev_eff) | (with_reducible apply Eff.step; with_reducible apply feedsShown_eff)
    | (with_reducible apply Eff.step; with_reducible apply updFd_eff) | (with_reducible apply Eff.step; with_reducible apply wr_eff)
    | (with_reducible apply Eff.step; with_reducible apply emit_eff) | (with_reducible apply Eff.step; with_reducible apply wrI_eff)
    | (with_reducible apply Eff.step; with_reducible apply startUp_eff) | split | dsimp only [id]

theorem execColdStart_ran (feed : Nat) (repairs : List Nat) (s : State) : Ran 0x8057d s (execColdStart feed repairs s) := by
  unfold execColdStart
  try dsimp only
  repeat' first
    | with_reducible apply Eff.refl | with_reducible assumption | (apply Sub.of; rfl) | (apply Has.of; rfl) | intro _ | with_reducible apply ite_eff
    | with_reducible apply ite_ran | (with_reducible apply onlyIf_eff) | with_reducible apply onDev_ran
    | (with_reducible apply Eff.step; with_reducible apply coldStart_eff) | split | dsimp only [id]

theorem stopAll_eff (d : Dev) : Eff 0x40004 d (stopAll d) := by
  unfold stopAll
  try dsimp only
  repeat' first
    | with_reducible apply Eff.refl | with_reducible assumption | (apply Sub.of; rfl) | (apply Has.of; rfl) | intro _ | with_reducible apply ite_eff
    | (with_reducible apply forEach_eff) | (with_reducible apply Eff.step; with_reducible apply emit_eff)
    | (with_reducible apply Eff.step; with_reducible apply drivePerst_eff) | split | dsimp only [id]

theorem warmNow_eff (running : Nat) (d : Dev) : Eff 0xc017d d (warmNow running d) := by
  unfold warmNow
  try dsimp only
  repeat' first
    | with_reducible apply Eff.refl | with_reducible assumption | (apply Sub.of; rfl) | (apply Has.of; rfl) | intro _ | with_reducible apply ite_eff
    | (with_reducible apply Eff.step; with_reducible apply stopAll_eff) | (with_reducible apply Eff.step; with_reducible apply resetDev_eff)
    | (with_reducible apply Eff.step; with_reducible apply bump_eff) | (with_reducible apply Eff.step; with_reducible apply startUp_eff) | split
    | dsimp only [id]

theorem warmReset_eff (running : Nat) (d : Dev) : Eff 0xc017d d (warmReset running d) := by
  unfold warmReset
  try dsimp only
  repeat' first
    | with_reducible apply Eff.refl | with_reducible assumption | (apply Sub.of; rfl) | (apply Has.of; rfl) | intro _ | with_reducible apply ite_eff
    | (with_reducible apply Eff.step; with_reducible apply warmNow_eff) | (with_reducible apply Eff.last; with_reducible apply Prim.boot) | split
    | dsimp only [id]

theorem warmRst_eff (val : Word) (d : Dev) : Eff 0xc017d d (warmRst val d) := by
  unfold warmRst
  try dsimp only
  repeat' first
    | with_reducible apply Eff.refl | with_reducible assumption | (apply Sub.of; rfl) | (apply Has.of; rfl) | intro _ | with_reducible apply ite_eff
    | (with_reducible apply onlyIf_eff) | (with_reducible apply Eff.step; with_reducible apply warmReset_eff) | split | dsimp only [id]

theorem execWarmRst_ran (value : Word) (s : State) : Ran 0xc017d s (execWarmRst value s) := by
  unfold execWarmRst
  try dsimp only
  repeat' first
    | with_reducible apply Eff.refl | with_reducible assumption | (apply Sub.of; rfl) | (apply Has.of; rfl) | intro _ | with_reducible apply ite_eff
    | with_reducible apply ite_ran | with_reducible apply onDev_ran | (with_reducible apply Eff.step; with_reducible apply warmRst_eff)
    | (with_reducible apply mgmtWrite_eff) | split | dsimp only [id]

theorem execDeferredWarmReset_ran (s : State) : Ran 0xc017d s (execDeferredWarmReset s) := by
  unfold execDeferredWarmReset
  try dsimp only
  repeat' first
    | with_reducible apply Eff.refl | with_reducible assumption | (apply Sub.of; rfl) | (apply Has.of; rfl) | intro _ | with_reducible apply ite_eff
    | with_reducible apply ite_ran | (with_reducible apply onlyIf_eff) | with_reducible apply onDev_ran
    | (with_reducible apply Eff.step; with_reducible apply warmNow_eff) | split | dsimp only [id]

end Sys2Proof.Machine
end

