-- ==== Sys2Proof/Laws/EffBoardTable.lean ====
section
/-!
SUPPORT. What each function of Machine/BoardTable.lean can change.
-/

namespace Sys2Proof.Machine

theorem wrBoth_eff (f : Fld) (inst v : Nat) (d : Dev) : Eff 0x1 d (wrBoth f inst v d) := by
  unfold wrBoth
  try dsimp only
  repeat' first
    | with_reducible apply Eff.refl | with_reducible assumption | (apply Sub.of; rfl) | (apply Has.of; rfl) | intro _ | with_reducible apply ite_eff
    | (with_reducible apply Eff.step; with_reducible apply wr_eff) | split | dsimp only [id]

theorem loadLane_eff (m : SMap Byte) (n : Nat) (d : Dev) : Eff 0x1 d (loadLane m n d) := by
  unfold loadLane
  try dsimp only
  repeat' first
    | with_reducible apply Eff.refl | with_reducible assumption | (apply Sub.of; rfl) | (apply Has.of; rfl) | intro _ | with_reducible apply ite_eff
    | (with_reducible apply Eff.step; with_reducible apply wrBoth_eff) | split | dsimp only [id]

theorem loadIsland_eff (m : SMap Byte) (i : Nat) (d : Dev) : Eff 0x11d d (loadIsland m i d) := by
  unfold loadIsland
  try dsimp only
  repeat' first
    | with_reducible apply Eff.refl | with_reducible assumption | (apply Sub.of; rfl) | (apply Has.of; rfl) | intro _ | with_reducible apply ite_eff
    | (with_reducible apply forEach_eff) | (with_reducible apply Eff.step; with_reducible apply raiseDet_eff)
    | (with_reducible apply Eff.step; with_reducible apply loadLane_eff) | (with_reducible apply Eff.step; with_reducible apply wr_eff)
    | (with_reducible apply Eff.step; with_reducible apply wrBoth_eff) | split | dsimp only [id]

theorem loadExp_eff (m : SMap Byte) (d : Dev) : Eff 0x1 d (loadExp m d) := by
  unfold loadExp
  try dsimp only
  repeat' first
    | with_reducible apply Eff.refl | with_reducible assumption | (apply Sub.of; rfl) | (apply Has.of; rfl) | intro _ | with_reducible apply ite_eff
    | (with_reducible apply forEach_eff) | (with_reducible apply Eff.step; with_reducible apply assignIdx_eff)
    | (with_reducible apply Eff.step; with_reducible apply wrBoth_eff) | (with_reducible apply Eff.step; with_reducible apply wr_eff) | split
    | dsimp only [id]

theorem loadHeader_eff (cold : Bool) (m : SMap Byte) (d : Dev) : Eff 0x2001 d (loadHeader cold m d) := by
  unfold loadHeader
  try dsimp only
  repeat' first
    | with_reducible apply Eff.refl | with_reducible assumption | (apply Sub.of; rfl) | (apply Has.of; rfl) | intro _ | with_reducible apply ite_eff
    | (with_reducible apply onlyIf_eff) | (with_reducible apply forEach_eff) | (with_reducible apply Eff.step; with_reducible apply wr_eff)
    | (with_reducible apply Eff.last; with_reducible apply Prim.cmp) | split | dsimp only [id]

theorem loadTable_eff (cold : Bool) (d : Dev) : Eff 0x213d d (loadTable cold d) := by
  unfold loadTable
  try dsimp only
  repeat' first
    | with_reducible apply Eff.refl | with_reducible assumption | (apply Sub.of; rfl) | (apply Has.of; rfl) | intro _ | with_reducible apply ite_eff
    | (with_reducible apply onlyIf_eff) | (with_reducible apply forEach_eff) | (with_reducible apply Eff.step; with_reducible apply wr_eff)
    | (with_reducible apply Eff.step; with_reducible apply raise_eff) | (with_reducible apply Eff.step; with_reducible apply loadHeader_eff)
    | (with_reducible apply Eff.step; with_reducible apply loadIsland_eff) | (with_reducible apply Eff.step; with_reducible apply loadExp_eff)
    | (with_reducible apply Eff.step; with_reducible apply refreshVh_eff) | (with_reducible apply Eff.last; with_reducible apply Prim.boot) | split
    | dsimp only [id]

end Sys2Proof.Machine
end

