-- ==== Sys2Proof/Laws/EffImage.lean ====
section
/-!
SUPPORT. What each function of Machine/Image.lean can change.
-/

namespace Sys2Proof.Machine

theorem putRecord_eff (cold : Bool) (r : Nat × Word) (d : Dev) : Eff 0x1 d (putRecord cold r d) := by
  unfold putRecord
  try dsimp only
  repeat' first
    | with_reducible apply Eff.refl | with_reducible assumption | (apply Sub.of; rfl) | (apply Has.of; rfl) | intro _ | with_reducible apply ite_eff
    | (with_reducible apply onlyIf_eff) | (with_reducible apply forEach_eff) | (with_reducible apply Eff.step; with_reducible apply wrI_eff) | split
    | dsimp only [id]

theorem applyRegs_eff (cold : Bool) (rs : List (Nat × Word)) (d : Dev) : Eff 0x1 d (applyRegs cold rs d).1 := by
  unfold applyRegs
  try dsimp only
  repeat' first
    | with_reducible apply Eff.refl | with_reducible assumption | (apply Sub.of; rfl) | (apply Has.of; rfl) | intro _ | with_reducible apply ite_eff
    | with_reducible apply ite_fst | (with_reducible apply forEach_eff) | (with_reducible apply Eff.step; with_reducible apply putRecord_eff) | split
    | dsimp only [id]

theorem meterEntry_eff (m : Nat) (ws : List Nat) (d : Dev) : Eff 0x8000 d (meterEntry m ws d).1 := by
  unfold meterEntry
  try dsimp only
  repeat' first
    | with_reducible apply Eff.refl | with_reducible assumption | (apply Sub.of; rfl) | (apply Has.of; rfl) | intro _ | with_reducible apply ite_eff
    | with_reducible apply ite_fst | (with_reducible apply Eff.step; with_reducible apply putMeter_eff) | split | dsimp only [id]

theorem routeEntry_eff (table idx : Nat) (ws : List Nat) (d : Dev) : Eff 0x8000 d (routeEntry table idx ws d) := by
  unfold routeEntry
  try dsimp only
  repeat' first
    | with_reducible apply Eff.refl | with_reducible assumption | (apply Sub.of; rfl) | (apply Has.of; rfl) | intro _ | with_reducible apply ite_eff
    | (with_reducible apply forEach_eff) | (with_reducible apply foldl_eff) | (with_reducible apply Eff.step; with_reducible apply tblPut_eff) | split
    | dsimp only [id]

theorem mapEntry_eff (i : Nat) (ws0 : List Nat) (d : Dev) : Eff 0x10000 d (mapEntry i ws0 d).1 := by
  unfold mapEntry
  try dsimp only
  repeat' first
    | with_reducible apply Eff.refl | with_reducible assumption | (apply Sub.of; rfl) | (apply Has.of; rfl) | intro _ | with_reducible apply ite_eff
    | with_reducible apply ite_fst | (with_reducible apply Eff.step; with_reducible apply putMap_eff) | split | dsimp only [id]

theorem bindEntry_eff (e w : Nat) (d : Dev) : Eff 0x4011d d (bindEntry e w d).1 := by
  unfold bindEntry
  try dsimp only
  repeat' first
    | with_reducible apply Eff.refl | with_reducible assumption | (apply Sub.of; rfl) | (apply Has.of; rfl) | intro _ | with_reducible apply ite_eff
    | with_reducible apply ite_fst | (with_reducible apply Eff.step; with_reducible apply bindDone_eff) | split | dsimp only [id]

theorem peerEntry_eff (i : Nat) (ws : List Nat) (d : Dev) : Eff 0x40001 d (peerEntry i ws d).1 := by
  unfold peerEntry
  try dsimp only
  repeat' first
    | with_reducible apply Eff.refl | with_reducible assumption | (apply Sub.of; rfl) | (apply Has.of; rfl) | intro _ | with_reducible apply ite_eff
    | with_reducible apply ite_fst | (with_reducible apply Eff.step; with_reducible apply putPw_eff) | split | dsimp only [id]

theorem waitEntry_eff (table e : Nat) (ws : List Nat) (d : Dev) : Eff 0x2000 d (waitEntry table e ws d) := by
  unfold waitEntry
  try dsimp only
  repeat' first
    | with_reducible apply Eff.refl | with_reducible assumption | (apply Sub.of; rfl) | (apply Has.of; rfl) | intro _ | with_reducible apply ite_eff
    | (with_reducible apply Eff.last; with_reducible apply Prim.cmp) | split | dsimp only [id]

theorem applyEntry_eff (block table idx : Nat) (ws : List Nat) (d : Dev) : Eff 0x5a11d d (applyEntry block table idx ws d).1 := by
  unfold applyEntry
  try dsimp only
  repeat' first
    | with_reducible apply Eff.refl | with_reducible assumption | (apply Sub.of; rfl) | (apply Has.of; rfl) | intro _ | with_reducible apply ite_eff
    | with_reducible apply ite_fst | (with_reducible apply Eff.step; with_reducible apply meterEntry_eff)
    | (with_reducible apply Eff.step; with_reducible apply eff_fst; assumption; with_reducible apply meterEntry_eff)
    | (with_reducible apply Eff.step; with_reducible apply routeEntry_eff) | (with_reducible apply Eff.step; with_reducible apply mapEntry_eff)
    | (with_reducible apply Eff.step; with_reducible apply eff_fst; assumption; with_reducible apply mapEntry_eff)
    | (with_reducible apply Eff.step; with_reducible apply waitEntry_eff) | (with_reducible apply Eff.step; with_reducible apply bindEntry_eff)
    | (with_reducible apply Eff.step; with_reducible apply eff_fst; assumption; with_reducible apply bindEntry_eff)
    | (with_reducible apply Eff.step; with_reducible apply peerEntry_eff)
    | (with_reducible apply Eff.step; with_reducible apply eff_fst; assumption; with_reducible apply peerEntry_eff) | split | dsimp only [id]

theorem applyEntries_eff (r : TabRec) (m : SMap Byte) (n k : Nat) (d : Dev) : Eff 0x5a11d d (applyEntries r m n k d).1 := by
  induction n generalizing k d with
  | zero => exact .refl d
  | succ n ih =>
    unfold applyEntries
    dsimp only
    split
    · exact .refl d
    · exact Eff.trans (Eff.mono (Sub.of rfl) (applyEntry_eff ..)) (ih _ _)

theorem applyTabs_eff (m : SMap Byte) (l : List TabRec) (d : Dev) : Eff 0x5a11d d (applyTabs m l d).1 := by
  induction l generalizing d with
  | nil => exact .refl d
  | cons r l ih =>
    unfold applyTabs
    have h := applyEntries_eff r m r.count 0 d
    split
    · next x hx => rw [hx] at h; exact h.trans (ih x)
    · exact h

theorem applySpares_eff (m : SMap Byte) (pos : Nat) (d : Dev) : Eff 0x8001 d (applySpares m pos d) := by
  unfold applySpares
  try dsimp only
  repeat' first
    | with_reducible apply Eff.refl | with_reducible assumption | (apply Sub.of; rfl) | (apply Has.of; rfl) | intro _ | with_reducible apply ite_eff
    | (with_reducible apply forEach_eff) | (with_reducible apply Eff.step; with_reducible apply wr_eff)
    | (with_reducible apply Eff.step; with_reducible apply updLane_eff) | split | dsimp only [id]

theorem applyComposite_eff (m : SMap Byte) (pos : Nat) (d : Dev) : Eff 0x2001 d (applyComposite m pos d) := by
  unfold applyComposite
  try dsimp only
  repeat' first
    | with_reducible apply Eff.refl | with_reducible assumption | (apply Sub.of; rfl) | (apply Has.of; rfl) | intro _ | with_reducible apply ite_eff
    | (with_reducible apply Eff.step; with_reducible apply wr_eff) | (with_reducible apply Eff.last; with_reducible apply Prim.cmp) | split
    | dsimp only [id]

theorem imgThen_eff {t : Nat} {a : Dev} (f : Dev → Dev × Option ImgErr) (x : Dev × Option ImgErr) (h : Eff t a x.1)
    (hf : ∀ d, Eff t d (f d).1) : Eff t a (imgThen f x).1 := by
  unfold imgThen
  split
  · exact h
  · exact h.trans (hf _)

theorem applySections_eff (cold : Bool) (m : SMap Byte) (l : List (Nat × Nat × Nat)) (d : Dev) : Eff 0x5a11d d (applySections cold m l d).1 := by
  unfold applySections
  try dsimp only
  repeat' first
    | with_reducible apply Eff.refl | with_reducible assumption | (apply Sub.of; rfl) | (apply Has.of; rfl) | intro _ | with_reducible apply ite_eff
    | with_reducible apply ite_fst | (with_reducible apply onlyIf_eff) | (with_reducible apply imgThen_eff)
    | (with_reducible apply Eff.step; with_reducible apply wr_eff) | (with_reducible apply Eff.step; with_reducible apply applySpares_eff)
    | (with_reducible apply Eff.step; with_reducible apply applyRegs_eff)
    | (with_reducible apply Eff.step; with_reducible apply eff_fst; assumption; with_reducible apply applyRegs_eff)
    | (with_reducible apply Eff.step; with_reducible apply applyTabs_eff) | (with_reducible apply Eff.step; with_reducible apply applyComposite_eff)
    | split | dsimp only [id]

theorem applyImage_eff (cold : Bool) (d : Dev) : Eff 0x5a13d d (applyImage cold d) := by
  unfold applyImage
  try dsimp only
  repeat' first
    | with_reducible apply Eff.refl | with_reducible assumption | (apply Sub.of; rfl) | (apply Has.of; rfl) | intro _ | with_reducible apply ite_eff
    | split | (with_reducible apply Eff.step; with_reducible apply applySections_eff)
    | (with_reducible apply Eff.step; with_reducible apply eff_fst; assumption; with_reducible apply applySections_eff)
    | (with_reducible apply Eff.step; with_reducible apply raiseDet_eff) | (with_reducible apply Eff.step; with_reducible apply wr_eff)
    | (with_reducible apply Eff.last; with_reducible apply Prim.boot) | split | dsimp only [id]

/-- An image is never empty: its header stands in it. -/
theorem exportImage_pos (d : Dev) : 0 < (exportImage d).length := by
  unfold exportImage
  simp only [List.length_append, List.length_replicate]
  omega

end Sys2Proof.Machine
end

