-- ==== Sys2Proof/Laws/EffStartup.lean ====
section
/-!
SUPPORT. What each function of Machine/Startup.lean can change.
-/

namespace Sys2Proof.Machine

theorem refreshCvh_eff (d : Dev) : Eff 0x40000 d (refreshCvh d) := by
  unfold refreshCvh
  try dsimp only
  repeat' first
    | with_reducible apply Eff.refl | with_reducible assumption | (apply Sub.of; rfl) | (apply Has.of; rfl) | intro _ | with_reducible apply ite_eff
    | (with_reducible apply foldl_eff) | (with_reducible apply Eff.step; with_reducible apply updSw_eff) | split | dsimp only [id]

theorem slotStart_eff (k : Nat) (d : Dev) : Eff 0x40000 d (slotStart k d) := by
  unfold slotStart
  try dsimp only
  repeat' first
    | with_reducible apply Eff.refl | with_reducible assumption | (apply Sub.of; rfl) | (apply Has.of; rfl) | intro _ | with_reducible apply ite_eff
    | (with_reducible apply Eff.step; with_reducible apply updSwPort_eff) | split | dsimp only [id]

theorem aperStart_eff (v : Nat) (d : Dev) : Eff 0x10000 d (aperStart v d) := by
  unfold aperStart
  try dsimp only
  repeat' first
    | with_reducible apply Eff.refl | with_reducible assumption | (apply Sub.of; rfl) | (apply Has.of; rfl) | intro _ | with_reducible apply ite_eff
    | (with_reducible apply Eff.step; with_reducible apply updFun_eff) | split | dsimp only [id]

theorem structuresStart_eff (d : Dev) : Eff 0x5811d d (structuresStart d) := by
  unfold structuresStart
  try dsimp only
  repeat' first
    | with_reducible apply Eff.refl | with_reducible assumption | (apply Sub.of; rfl) | (apply Has.of; rfl) | intro _ | with_reducible apply ite_eff
    | (with_reducible apply Eff.step; with_reducible apply aperStart_eff)
    | (with_reducible apply forEach_eff) | (with_reducible apply Eff.step; with_reducible apply xltInit_eff)
    | (with_reducible apply Eff.step; with_reducible apply matchInit_eff) | (with_reducible apply Eff.step; with_reducible apply schedReset_eff)
    | (with_reducible apply Eff.step; with_reducible apply slotStart_eff) | (with_reducible apply Eff.step; with_reducible apply refreshCvh_eff)
    | split | dsimp only [id]

theorem bootTime_eff (d : Dev) : Eff 0x9 d (bootTime d) := by
  unfold bootTime
  try dsimp only
  repeat' first
    | with_reducible apply Eff.refl | with_reducible assumption | (apply Sub.of; rfl) | (apply Has.of; rfl) | intro _ | with_reducible apply ite_eff
    | (with_reducible apply Eff.step; with_reducible apply wrFit_eff) | split | dsimp only [id]

theorem readyNow_eff (d : Dev) : Eff 0x953d d (readyNow d) := by
  unfold readyNow
  try dsimp only
  repeat' first
    | with_reducible apply Eff.refl | with_reducible assumption | (apply Sub.of; rfl) | (apply Has.of; rfl) | intro _ | with_reducible apply ite_eff
    | (with_reducible apply onlyIf_eff) | (with_reducible apply forEach_eff) | (with_reducible apply Eff.step; with_reducible apply bootTime_eff)
    | (with_reducible apply Eff.step; with_reducible apply wr_eff) | (with_reducible apply Eff.step; with_reducible apply timeElect_eff)
    | (with_reducible apply Eff.step; with_reducible apply updFd_eff) | (with_reducible apply Eff.step; with_reducible apply raise_eff)
    | (with_reducible apply Eff.step; with_reducible apply islandStart_eff) | (with_reducible apply Eff.last; with_reducible apply Prim.boot) | split
    | dsimp only [id]

theorem startEnds_eff (state : Nat) (d : Dev) : Eff 0x21 d (startEnds state d) := by
  unfold startEnds
  try dsimp only
  repeat' first
    | with_reducible apply Eff.refl | with_reducible assumption | (apply Sub.of; rfl) | (apply Has.of; rfl) | intro _ | with_reducible apply ite_eff
    | (with_reducible apply Eff.step; with_reducible apply wr_eff) | (with_reducible apply Eff.last; with_reducible apply Prim.boot) | split
    | dsimp only [id]

theorem wipeGood_eff (d : Dev) : Eff 0x5b53d d (wipeGood d) := by
  unfold wipeGood
  try dsimp only
  repeat' first
    | with_reducible apply Eff.refl | with_reducible assumption | (apply Sub.of; rfl) | (apply Has.of; rfl) | intro _ | with_reducible apply ite_eff
    | (with_reducible apply Eff.step; with_reducible apply wr_eff) | (with_reducible apply Eff.step; with_reducible apply startEnds_eff)
    | (with_reducible apply Eff.step; with_reducible apply loadTable_eff) | (with_reducible apply Eff.step; with_reducible apply applyImage_eff)
    | (with_reducible apply Eff.step; with_reducible apply structuresStart_eff) | (with_reducible apply Eff.step; with_reducible apply readyNow_eff)
    | split | dsimp only [id]

theorem wipeDone_eff (ok : Bool) (mem addr : Nat) (d : Dev) : Eff 0x5b53d d (wipeDone ok mem addr d) := by
  unfold wipeDone
  try dsimp only
  repeat' first
    | with_reducible apply Eff.refl | with_reducible assumption | (apply Sub.of; rfl) | (apply Has.of; rfl) | intro _ | with_reducible apply ite_eff
    | (with_reducible apply Eff.step; with_reducible apply wr_eff) | (with_reducible apply Eff.step; with_reducible apply wrFit_eff)
    | (with_reducible apply Eff.step; with_reducible apply wipeGood_eff) | (with_reducible apply Eff.step; with_reducible apply raiseDet_eff)
    | (with_reducible apply Eff.step; with_reducible apply startEnds_eff) | split | dsimp only [id]

theorem execMemoryWipeComplete_ran (ok : Bool) (mem addr : Nat) (s : State) : Ran 0x7b53f s (execMemoryWipeComplete ok mem addr s) := by
  unfold execMemoryWipeComplete
  try dsimp only
  repeat' first
    | with_reducible apply Eff.refl | with_reducible assumption | (apply Sub.of; rfl) | (apply Has.of; rfl) | intro _ | with_reducible apply ite_eff
    | with_reducible apply ite_ran | with_reducible apply onAll_ran | (with_reducible apply Eff.step; with_reducible apply wipeDone_eff) | split
    | dsimp only [id]

theorem uspTrain_eff (v : Nat) (d : Dev) : Eff 0x811d d (uspTrain v d) := by
  unfold uspTrain
  try dsimp only
  repeat' first
    | with_reducible apply Eff.refl | with_reducible assumption | (apply Sub.of; rfl) | (apply Has.of; rfl) | intro _ | with_reducible apply ite_eff
    | (with_reducible apply forEach_eff) | (with_reducible apply Eff.step; with_reducible apply startBringup_eff) | split | dsimp only [id]

theorem perstHigh_eff (h : Nat) (d : Dev) : Eff 0xc11d d (perstHigh h d) := by
  unfold perstHigh
  try dsimp only
  repeat' first
    | with_reducible apply Eff.refl | with_reducible assumption | (apply Sub.of; rfl) | (apply Has.of; rfl) | intro _ | with_reducible apply ite_eff
    | (with_reducible apply onlyIf_eff) | (with_reducible apply forEach_eff) | (with_reducible apply Eff.step; with_reducible apply setHostLvl_eff)
    | (with_reducible apply Eff.step; with_reducible apply perstFollows_eff) | (with_reducible apply Eff.step; with_reducible apply uspTrain_eff)
    | split | dsimp only [id]

theorem execUpstreamPerstDeassert_ran (host : Nat) (s : State) : Ran 0x7d11f s (execUpstreamPerstDeassert host s) := by
  unfold execUpstreamPerstDeassert
  try dsimp only
  repeat' first
    | with_reducible apply Eff.refl | with_reducible assumption | (apply Sub.of; rfl) | (apply Has.of; rfl) | intro _ | with_reducible apply ite_eff
    | with_reducible apply ite_ran | with_reducible apply onAll_ran | (with_reducible apply Eff.step; with_reducible apply perstHigh_eff) | split
    | dsimp only [id]

end Sys2Proof.Machine
end

