-- ==== Sys2Proof/Laws/EffEdurn.lean ====
section
/-!
SUPPORT. What each function of Machine/Edurn.lean can change.
-/

namespace Sys2Proof.Machine

theorem edStat_eff (st : Nat) (d : Dev) : Eff 0x0 d (edStat st d).dev := by
  unfold edStat
  try dsimp only
  repeat' first
    | with_reducible apply Eff.refl | with_reducible assumption | (apply Sub.of; rfl) | (apply Has.of; rfl) | intro _ | with_reducible apply ite_eff
    | split | dsimp only [id]

theorem edOk_eff (body : List Byte) (d : Dev) : Eff 0x0 d (edOk body d).dev := by
  unfold edOk
  try dsimp only
  repeat' first
    | with_reducible apply Eff.refl | with_reducible assumption | (apply Sub.of; rfl) | (apply Has.of; rfl) | intro _ | with_reducible apply ite_eff
    | split | dsimp only [id]

theorem mbxPut_eff (bs : List Byte) (d : Dev) : Eff 0x1 d (mbxPut bs d) := by
  unfold mbxPut
  try dsimp only
  repeat' first
    | with_reducible apply Eff.refl | with_reducible assumption | (apply Sub.of; rfl) | (apply Has.of; rfl) | intro _ | with_reducible apply ite_eff
    | (with_reducible apply Eff.step; with_reducible apply wrBytes_eff) | split | dsimp only [id]

theorem responseIbi_eff (d : Dev) : Eff 0x14 d (responseIbi d) := by
  unfold responseIbi
  try dsimp only
  repeat' first
    | with_reducible apply Eff.refl | with_reducible assumption | (apply Sub.of; rfl) | (apply Has.of; rfl) | intro _ | with_reducible apply ite_eff
    | (with_reducible apply Eff.step; with_reducible apply emit_eff) | (with_reducible apply Eff.last; with_reducible apply Prim.mg) | split
    | dsimp only [id]

theorem afterResponse_eff (a : Nat) (d : Dev) : Eff 0xc017d d (afterResponse a d) := by
  unfold afterResponse
  try dsimp only
  repeat' first
    | with_reducible apply Eff.refl | with_reducible assumption | (apply Sub.of; rfl) | (apply Has.of; rfl) | intro _ | with_reducible apply ite_eff
    | (with_reducible apply Eff.step; with_reducible apply warmReset_eff) | split | dsimp only [id]

theorem edAnswer_eff (path : Path) (opc tag st : Nat) (body : List Byte) (after : Nat) (d : Dev) : Eff 0xc017d d (edAnswer path opc tag st body after d) := by
  unfold edAnswer
  try dsimp only
  repeat' first
    | with_reducible apply Eff.refl | with_reducible assumption | (apply Sub.of; rfl) | (apply Has.of; rfl) | intro _ | with_reducible apply ite_eff
    | split | (with_reducible apply Eff.step; with_reducible apply mbxPut_eff) | (with_reducible apply Eff.step; with_reducible apply wr_eff)
    | (with_reducible apply Eff.step; with_reducible apply raise_eff) | (with_reducible apply Eff.step; with_reducible apply emit_eff)
    | (with_reducible apply Eff.step; with_reducible apply afterResponse_eff) | (with_reducible apply Eff.step; with_reducible apply responseIbi_eff)
    | (with_reducible apply Eff.last; with_reducible apply Prim.mg) | split | dsimp only [id]

theorem edEnter_eff (path : Path) (tag opc : Nat) (d : Dev) : Eff 0x10 d (edEnter path tag opc d) := by
  unfold edEnter
  try dsimp only
  repeat' first
    | with_reducible apply Eff.refl | with_reducible assumption | (apply Sub.of; rfl) | (apply Has.of; rfl) | intro _ | with_reducible apply ite_eff
    | (with_reducible apply Eff.last; with_reducible apply Prim.mg) | split | dsimp only [id]

theorem edLeave_eff (path : Path) (d : Dev) : Eff 0x10 d (edLeave path d) := by
  unfold edLeave
  try dsimp only
  repeat' first
    | with_reducible apply Eff.refl | with_reducible assumption | (apply Sub.of; rfl) | (apply Has.of; rfl) | intro _ | with_reducible apply ite_eff
    | (with_reducible apply Eff.last; with_reducible apply Prim.mg) | split | dsimp only [id]

theorem edServe_eff {t : Nat} {a : Dev} (opc : Nat) (path : Path) (tag : Nat) (act : Dev → EdRes) (d : Dev) (h : Eff t a d) (ha : ∀ d, Eff t d (act d).dev) (s : Sub 0xc017d t) :
    Eff t a (edServe opc path tag act d) := by
  unfold edServe
  try dsimp only
  repeat' first
    | with_reducible assumption | (apply Sub.of; rfl) | (apply Sub.via s; apply Sub.of; rfl) | (apply Has.of; rfl)
    | (with_reducible apply Eff.seq; with_reducible apply ha) | (apply Has.via s; apply Has.of; rfl) | intro _ | with_reducible apply ite_eff
    | (with_reducible apply Eff.step; with_reducible apply edAnswer_eff) | (with_reducible apply Eff.step; with_reducible apply edEnter_eff)
    | (with_reducible apply Eff.step; with_reducible apply edLeave_eff) | with_reducible apply Eff.refl | split | dsimp only [id]

theorem mbxFrame_eff (frame : List Byte) (d : Dev) : Eff 0x9 d (mbxFrame frame d) := by
  unfold mbxFrame
  try dsimp only
  repeat' first
    | with_reducible apply Eff.refl | with_reducible assumption | (apply Sub.of; rfl) | (apply Has.of; rfl) | intro _ | with_reducible apply ite_eff
    | (with_reducible apply forEach_eff) | (with_reducible apply Eff.step; with_reducible apply dropWrite_eff)
    | (with_reducible apply Eff.step; with_reducible apply mbxPut_eff) | split | dsimp only [id]

theorem edCommand_eff {t : Nat} {a : Dev} (opc : Nat) (path : Path) (tag : Nat) (payload : List Byte) (act : Dev → EdRes) (d : Dev) (h : Eff t a d) (ha : ∀ d, Eff t d (act d).dev) (s : Sub 0xc017d t) :
    Eff t a (edCommand opc path tag payload act d) := by
  unfold edCommand
  try dsimp only
  repeat' first
    | with_reducible assumption | (apply Sub.of; rfl) | (apply Sub.via s; apply Sub.of; rfl) | (apply Has.of; rfl)
    | (with_reducible apply Eff.seq; with_reducible apply ha) | (apply Has.via s; apply Has.of; rfl) | intro _ | with_reducible apply ite_eff
    | (with_reducible apply Eff.step; with_reducible apply mbxFrame_eff) | (with_reducible apply edServe_eff) | with_reducible apply Eff.refl | split
    | dsimp only [id]

end Sys2Proof.Machine
end

