-- ==== Sys2Proof/Laws/EffSecurity.lean ====
section
/-!
SUPPORT. What each function of Machine/Security.lean can change.
-/

namespace Sys2Proof.Machine

theorem updSec_eff (f : Sec → Sec) (d : Dev) : Eff 0x80 d (updSec f d) := by
  unfold updSec
  try dsimp only
  repeat' first
    | with_reducible apply Eff.refl | with_reducible assumption | (apply Sub.of; rfl) | (apply Has.of; rfl) | intro _ | with_reducible apply ite_eff
    | (with_reducible apply Eff.last; with_reducible apply Prim.sec) | split | dsimp only [id]

theorem updOtp_eff (f : Otp → Otp) (d : Dev) (h : otpRises d.otp (f d.otp)) : Eff 0x40 d (updOtp f d) := .tail (.refl d) (.otp d _ h) rfl

theorem bankWrite_eff (b pos : Nat) (bs : List Byte) (d : Dev) : Eff 0x20 d (bankWrite b pos bs d) := by
  unfold bankWrite
  try dsimp only
  repeat' first
    | with_reducible apply Eff.refl | with_reducible assumption | (apply Sub.of; rfl) | (apply Has.of; rfl) | intro _ | with_reducible apply ite_eff
    | (with_reducible apply Eff.last; with_reducible apply Prim.boot) | split | dsimp only [id]

theorem fwStage_eff (path : Path) (p : List Byte) (d : Dev) : Eff 0xa0 d (fwStage path p d).dev := by
  unfold fwStage
  try dsimp only
  repeat' first
    | with_reducible apply Eff.refl | with_reducible assumption | (apply Sub.of; rfl) | (apply Has.of; rfl) | intro _ | with_reducible apply ite_eff
    | (with_reducible apply Eff.step; with_reducible apply edStat_eff) | (with_reducible apply Eff.step; with_reducible apply edOk_eff)
    | (with_reducible apply Eff.step; with_reducible apply bankWrite_eff) | (with_reducible apply Eff.step; with_reducible apply updSec_eff) | split
    | dsimp only [id]

theorem execFwStage_ran (path : Path) (tag : Nat) (payload : List Byte) (s : State) : Ran 0xc01fd s (execFwStage path tag payload s) := by
  unfold execFwStage
  try dsimp only
  repeat' first
    | with_reducible apply Eff.refl | with_reducible assumption | (apply Sub.of; rfl) | (apply Has.of; rfl) | intro _ | with_reducible apply ite_eff
    | with_reducible apply ite_ran | with_reducible apply onDev_ran | (with_reducible apply edCommand_eff)
    | (with_reducible apply Eff.step; with_reducible apply fwStage_eff) | split | dsimp only [id]

theorem execStagingOwnerExpire_ran (s : State) : Ran 0x80 s (execStagingOwnerExpire s) := by
  unfold execStagingOwnerExpire
  try dsimp only
  repeat' first
    | with_reducible apply Eff.refl | with_reducible assumption | (apply Sub.of; rfl) | (apply Has.of; rfl) | intro _ | with_reducible apply ite_eff
    | with_reducible apply ite_ran | with_reducible apply onDev_ran | (with_reducible apply Eff.step; with_reducible apply updSec_eff) | split
    | dsimp only [id]

theorem fwActivate_eff (p : List Byte) (d : Dev) : Eff 0x1bd d (fwActivate p d).dev := by
  unfold fwActivate
  try dsimp only
  repeat' first
    | with_reducible apply Eff.refl | with_reducible assumption | (apply Sub.of; rfl) | (apply Has.of; rfl) | intro _ | with_reducible apply ite_eff
    | split | (with_reducible apply Eff.step; with_reducible apply edStat_eff) | (with_reducible apply Eff.step; with_reducible apply updSec_eff)
    | (with_reducible apply Eff.step; with_reducible apply checkBank_eff) | (with_reducible apply Eff.step; with_reducible apply edOk_eff)
    | (with_reducible apply Eff.step; with_reducible apply raise_eff) | (with_reducible apply Eff.last; with_reducible apply Prim.boot) | split
    | dsimp only [id]

theorem execFwActivate_ran (path : Path) (tag : Nat) (payload : List Byte) (s : State) : Ran 0xc01fd s (execFwActivate path tag payload s) := by
  unfold execFwActivate
  try dsimp only
  repeat' first
    | with_reducible apply Eff.refl | with_reducible assumption | (apply Sub.of; rfl) | (apply Has.of; rfl) | intro _ | with_reducible apply ite_eff
    | with_reducible apply ite_ran | with_reducible apply onDev_ran | (with_reducible apply edCommand_eff)
    | (with_reducible apply Eff.step; with_reducible apply fwActivate_eff) | split | dsimp only [id]

theorem lcRecord_eff (sub st : Nat) (d : Dev) : Eff 0x1 d (lcRecord sub st d) := by
  unfold lcRecord
  try dsimp only
  repeat' first
    | with_reducible apply Eff.refl | with_reducible assumption | (apply Sub.of; rfl) | (apply Has.of; rfl) | intro _ | with_reducible apply ite_eff
    | (with_reducible apply Eff.step; with_reducible apply wr_eff) | split | dsimp only [id]

theorem lcRefuse_eff (sub st : Nat) (d : Dev) : Eff 0x11d d (lcRefuse sub st d).dev := by
  unfold lcRefuse
  try dsimp only
  repeat' first
    | with_reducible apply Eff.refl | with_reducible assumption | (apply Sub.of; rfl) | (apply Has.of; rfl) | intro _ | with_reducible apply ite_eff
    | (with_reducible apply Eff.step; with_reducible apply edStat_eff) | (with_reducible apply Eff.step; with_reducible apply lcRecord_eff)
    | (with_reducible apply Eff.step; with_reducible apply raise_eff) | split | dsimp only [id]

theorem lcOk_eff (sub : Nat) (body : List Byte) (after : Nat) (d : Dev) : Eff 0x1 d (lcOk sub body after d).dev := by
  unfold lcOk
  try dsimp only
  repeat' first
    | with_reducible apply Eff.refl | with_reducible assumption | (apply Sub.of; rfl) | (apply Has.of; rfl) | intro _ | with_reducible apply ite_eff
    | (with_reducible apply Eff.step; with_reducible apply lcRecord_eff) | split | dsimp only [id]

theorem lcAt_eff {t : Nat} {a : Dev} (sub len : Nat) (p : List Byte) (act : Dev → EdRes) (d : Dev) (h : Eff t a d) (ha : ∀ d, Eff t d (act d).dev) (s : Sub 0x11d t) :
    Eff t a (lcAt sub len p act d).dev := by
  unfold lcAt
  try dsimp only
  repeat' first
    | with_reducible assumption | (apply Sub.of; rfl) | (apply Sub.via s; apply Sub.of; rfl) | (apply Has.of; rfl)
    | (with_reducible apply Eff.seq; with_reducible apply ha) | (apply Has.via s; apply Has.of; rfl) | intro _ | with_reducible apply ite_eff
    | (with_reducible apply Eff.step; with_reducible apply lcRefuse_eff) | (with_reducible apply Eff.step; with_reducible apply edStat_eff)
    | with_reducible apply Eff.refl | split | dsimp only [id]

theorem lcStateOp_eff (d : Dev) : Eff 0x1 d (lcStateOp d).dev := by
  unfold lcStateOp
  try dsimp only
  repeat' first
    | with_reducible apply Eff.refl | with_reducible assumption | (apply Sub.of; rfl) | (apply Has.of; rfl) | intro _ | with_reducible apply ite_eff
    | (with_reducible apply Eff.step; with_reducible apply lcOk_eff) | split | dsimp only [id]

theorem lcNonce_eff (d : Dev) : Eff 0x89 d (lcNonce d).dev := by
  unfold lcNonce
  try dsimp only
  repeat' first
    | with_reducible apply Eff.refl | with_reducible assumption | (apply Sub.of; rfl) | (apply Has.of; rfl) | intro _ | with_reducible apply ite_eff
    | (with_reducible apply Eff.step; with_reducible apply lcOk_eff) | (with_reducible apply Eff.step; with_reducible apply updSec_eff)
    | (with_reducible apply Eff.step; with_reducible apply takeFree_eff) | split | dsimp only [id]

theorem lcWrite_eff (cur target : Nat) (pub : List Byte) (d : Dev) : Eff 0x40 d (lcWrite cur target pub d) := by
  unfold lcWrite
  refine Eff.step (updOtp_eff _ d ⟨rfl, List.prefix_append _ _, Nat.le_refl _, Nat.le_refl _, rfl, rfl, rfl, ?_, ?_⟩) (Sub.of rfl) (.refl d)
  · dsimp only
    split
    · exact .inr rfl
    · exact .inl rfl
  · intro i w h
    dsimp only
    split
    · exact ⟨w, by rw [List.getElem?_append_left (List.getElem?_eq_some_iff.mp h).1]; exact h, rfl, id, id⟩
    · split
      · refine ⟨if w.2.1 then (w.1, true, true) else w, by simp [List.getElem?_map, h], ?_, ?_, ?_⟩
        · split <;> rfl
        · intro k; simp [k]
        · intro k; split <;> simp_all
      · exact ⟨w, h, rfl, id, id⟩

theorem lcTransition_eff (p : List Byte) (d : Dev) : Eff 0x1dd d (lcTransition p d).dev := by
  unfold lcTransition
  try dsimp only
  repeat' first
    | with_reducible apply Eff.refl | with_reducible assumption | (apply Sub.of; rfl) | (apply Has.of; rfl) | intro _ | with_reducible apply ite_eff
    | (with_reducible apply Eff.step; with_reducible apply updSec_eff) | (with_reducible apply Eff.step; with_reducible apply lcRefuse_eff)
    | (with_reducible apply Eff.step; with_reducible apply lcOk_eff) | (with_reducible apply Eff.step; with_reducible apply lcWrite_eff)
    | (with_reducible apply Eff.step; with_reducible apply bump_eff) | (with_reducible apply Eff.step; with_reducible apply raise_eff) | split
    | dsimp only [id]

theorem rbCommit_eff (d : Dev) : Eff 0x15d d (rbCommit d).dev := by
  unfold rbCommit
  try dsimp only
  repeat' first
    | (apply Sub.of; rfl) | (with_reducible apply Eff.step; with_reducible apply lcRefuse_eff)
    | (with_reducible apply Eff.step; with_reducible apply lcOk_eff) | with_reducible apply onlyIf_eff | with_reducible apply Eff.refl
    | (with_reducible apply Eff.step; with_reducible apply raise_eff) | intro _ | split
  exact Eff.step (updOtp_eff _ _ ⟨rfl, List.prefix_refl _, Nat.le_max_left _ _, Nat.le_max_left _ _, rfl, rfl, rfl, .inl rfl,
    fun _ w h => ⟨w, h, rfl, id, id⟩⟩) (Sub.of (u := 0x40) rfl) (.refl _)

theorem lifecycle_eff (p : List Byte) (d : Dev) : Eff 0x1dd d (lifecycle p d).dev := by
  unfold lifecycle
  try dsimp only
  repeat' first
    | with_reducible apply Eff.refl | with_reducible assumption | (apply Sub.of; rfl) | (apply Has.of; rfl) | intro _ | with_reducible apply ite_eff
    | (with_reducible apply Eff.step; with_reducible apply edStat_eff) | (with_reducible apply lcAt_eff)
    | (with_reducible apply Eff.step; with_reducible apply lcStateOp_eff) | (with_reducible apply Eff.step; with_reducible apply lcNonce_eff)
    | (with_reducible apply Eff.step; with_reducible apply lcRefuse_eff) | (with_reducible apply Eff.step; with_reducible apply updSec_eff)
    | (with_reducible apply Eff.step; with_reducible apply lcTransition_eff) | (with_reducible apply Eff.step; with_reducible apply rbCommit_eff)
    | split | dsimp only [id]

theorem execLifecycleState_ran (path : Path) (tag : Nat) (payload : List Byte) (s : State) : Ran 0xc01fd s (execLifecycleState path tag payload s) := by
  unfold execLifecycleState
  try dsimp only
  repeat' first
    | with_reducible apply Eff.refl | with_reducible assumption | (apply Sub.of; rfl) | (apply Has.of; rfl) | intro _ | with_reducible apply ite_eff
    | with_reducible apply ite_ran | with_reducible apply onDev_ran | (with_reducible apply edCommand_eff)
    | (with_reducible apply Eff.step; with_reducible apply lifecycle_eff) | split | dsimp only [id]

theorem execLifecycleNonce_ran (path : Path) (tag : Nat) (payload : List Byte) (s : State) : Ran 0xc01fd s (execLifecycleNonce path tag payload s) := by
  unfold execLifecycleNonce
  try dsimp only
  repeat' first
    | with_reducible apply Eff.refl | with_reducible assumption | (apply Sub.of; rfl) | (apply Has.of; rfl) | intro _ | with_reducible apply ite_eff
    | with_reducible apply ite_ran | with_reducible apply onDev_ran | (with_reducible apply edCommand_eff)
    | (with_reducible apply Eff.step; with_reducible apply lifecycle_eff) | split | dsimp only [id]

theorem execNonceExpire_ran (s : State) : Ran 0x80 s (execNonceExpire s) := by
  unfold execNonceExpire
  try dsimp only
  repeat' first
    | with_reducible apply Eff.refl | with_reducible assumption | (apply Sub.of; rfl) | (apply Has.of; rfl) | intro _ | with_reducible apply ite_eff
    | with_reducible apply ite_ran | with_reducible apply onDev_ran | (with_reducible apply Eff.step; with_reducible apply updSec_eff) | split
    | dsimp only [id]

theorem execLifecycleTransition_ran (path : Path) (tag : Nat) (payload : List Byte) (s : State) : Ran 0xc01fd s (execLifecycleTransition path tag payload s) := by
  unfold execLifecycleTransition
  try dsimp only
  repeat' first
    | with_reducible apply Eff.refl | with_reducible assumption | (apply Sub.of; rfl) | (apply Has.of; rfl) | intro _ | with_reducible apply ite_eff
    | with_reducible apply ite_ran | with_reducible apply onDev_ran | (with_reducible apply edCommand_eff)
    | (with_reducible apply Eff.step; with_reducible apply lifecycle_eff) | split | dsimp only [id]

theorem execRbCommit_ran (path : Path) (tag : Nat) (payload : List Byte) (s : State) : Ran 0xc01fd s (execRbCommit path tag payload s) := by
  unfold execRbCommit
  try dsimp only
  repeat' first
    | with_reducible apply Eff.refl | with_reducible assumption | (apply Sub.of; rfl) | (apply Has.of; rfl) | intro _ | with_reducible apply ite_eff
    | with_reducible apply ite_ran | with_reducible apply onDev_ran | (with_reducible apply edCommand_eff)
    | (with_reducible apply Eff.step; with_reducible apply lifecycle_eff) | split | dsimp only [id]

theorem spdmSend_eff (ep code p1 p2 : Nat) (body : List Byte) (d : Dev) : Eff 0x4 d (spdmSend ep code p1 p2 body d) := by
  unfold spdmSend
  try dsimp only
  repeat' first
    | with_reducible apply Eff.refl | with_reducible assumption | (apply Sub.of; rfl) | (apply Has.of; rfl) | intro _ | with_reducible apply ite_eff
    | (with_reducible apply Eff.step; with_reducible apply emit_eff) | split | dsimp only [id]

theorem spdmError_eff (ep err : Nat) (d : Dev) : Eff 0xd d (spdmError ep err d) := by
  unfold spdmError
  try dsimp only
  repeat' first
    | with_reducible apply Eff.refl | with_reducible assumption | (apply Sub.of; rfl) | (apply Has.of; rfl) | intro _ | with_reducible apply ite_eff
    | (with_reducible apply Eff.step; with_reducible apply bump_eff) | (with_reducible apply Eff.step; with_reducible apply spdmSend_eff) | split
    | dsimp only [id]

theorem setSpdm_eff (ep n : Nat) (d : Dev) : Eff 0x80 d (setSpdm ep n d) := by
  unfold setSpdm
  try dsimp only
  repeat' first
    | with_reducible apply Eff.refl | with_reducible assumption | (apply Sub.of; rfl) | (apply Has.of; rfl) | intro _ | with_reducible apply ite_eff
    | (with_reducible apply Eff.step; with_reducible apply updSec_eff) | split | dsimp only [id]

theorem spdmReq_eff {t : Nat} {a : Dev} (ep need : Nat) (act : Dev → Dev) (d : Dev) (h : Eff t a d) (ha : ∀ d, Eff t d (act d)) (s : Sub 0xd t) :
    Eff t a (spdmReq ep need act d) := by
  unfold spdmReq
  try dsimp only
  repeat' first
    | with_reducible assumption | (apply Sub.of; rfl) | (apply Sub.via s; apply Sub.of; rfl) | (apply Has.of; rfl)
    | (with_reducible apply Eff.seq; with_reducible apply ha) | (apply Has.via s; apply Has.of; rfl) | intro _ | with_reducible apply ite_eff
    | (with_reducible apply Eff.step; with_reducible apply bump_eff) | (with_reducible apply Eff.step; with_reducible apply spdmError_eff)
    | with_reducible apply Eff.refl | split | dsimp only [id]

theorem execSpdmGetVersion_ran (ep : Nat) (s : State) : Ran 0x8d s (execSpdmGetVersion ep s) := by
  unfold execSpdmGetVersion
  try dsimp only
  repeat' first
    | with_reducible apply Eff.refl | with_reducible assumption | (apply Sub.of; rfl) | (apply Has.of; rfl) | intro _ | with_reducible apply ite_eff
    | with_reducible apply ite_ran | with_reducible apply onDev_ran | (with_reducible apply spdmReq_eff)
    | (with_reducible apply Eff.step; with_reducible apply setSpdm_eff) | (with_reducible apply Eff.step; with_reducible apply spdmSend_eff) | split
    | dsimp only [id]

theorem execSpdmGetCapabilities_ran (ep : Nat) (s : State) : Ran 0x8d s (execSpdmGetCapabilities ep s) := by
  unfold execSpdmGetCapabilities
  try dsimp only
  repeat' first
    | with_reducible apply Eff.refl | with_reducible assumption | (apply Sub.of; rfl) | (apply Has.of; rfl) | intro _ | with_reducible apply ite_eff
    | with_reducible apply ite_ran | with_reducible apply onDev_ran | (with_reducible apply spdmReq_eff)
    | (with_reducible apply Eff.step; with_reducible apply setSpdm_eff) | (with_reducible apply Eff.step; with_reducible apply spdmSend_eff)
    | (with_reducible apply Eff.step; with_reducible apply takeFree_eff) | split | dsimp only [id]

theorem execSpdmNegotiateAlgorithms_ran (ep : Nat) (s : State) : Ran 0x8d s (execSpdmNegotiateAlgorithms ep s) := by
  unfold execSpdmNegotiateAlgorithms
  try dsimp only
  repeat' first
    | with_reducible apply Eff.refl | with_reducible assumption | (apply Sub.of; rfl) | (apply Has.of; rfl) | intro _ | with_reducible apply ite_eff
    | with_reducible apply ite_ran | with_reducible apply onDev_ran | (with_reducible apply spdmReq_eff)
    | (with_reducible apply Eff.step; with_reducible apply setSpdm_eff) | (with_reducible apply Eff.step; with_reducible apply spdmSend_eff) | split
    | dsimp only [id]

theorem execSpdmGetDigests_ran (ep : Nat) (s : State) : Ran 0xd s (execSpdmGetDigests ep s) := by
  unfold execSpdmGetDigests
  try dsimp only
  repeat' first
    | with_reducible apply Eff.refl | with_reducible assumption | (apply Sub.of; rfl) | (apply Has.of; rfl) | intro _ | with_reducible apply ite_eff
    | with_reducible apply ite_ran | with_reducible apply onDev_ran | (with_reducible apply spdmReq_eff)
    | (with_reducible apply Eff.step; with_reducible apply spdmSend_eff) | split | dsimp only [id]

theorem execSpdmGetCertificate_ran (ep slot offset length : Nat) (s : State) : Ran 0xd s (execSpdmGetCertificate ep slot offset length s) := by
  unfold execSpdmGetCertificate
  try dsimp only
  repeat' first
    | with_reducible apply Eff.refl | with_reducible assumption | (apply Sub.of; rfl) | (apply Has.of; rfl) | intro _ | with_reducible apply ite_eff
    | with_reducible apply ite_ran | with_reducible apply onDev_ran | (with_reducible apply spdmReq_eff)
    | (with_reducible apply Eff.step; with_reducible apply spdmError_eff) | (with_reducible apply Eff.step; with_reducible apply spdmSend_eff) | split
    | dsimp only [id]

theorem execSpdmChallenge_ran (ep slot summary : Nat) (context : List Byte) (s : State) : Ran 0xd s (execSpdmChallenge ep slot summary context s) := by
  unfold execSpdmChallenge
  try dsimp only
  repeat' first
    | with_reducible apply Eff.refl | with_reducible assumption | (apply Sub.of; rfl) | (apply Has.of; rfl) | intro _ | with_reducible apply ite_eff
    | with_reducible apply ite_ran | with_reducible apply onDev_ran | (with_reducible apply spdmReq_eff)
    | (with_reducible apply Eff.step; with_reducible apply spdmError_eff) | (with_reducible apply Eff.step; with_reducible apply spdmSend_eff)
    | (with_reducible apply Eff.step; with_reducible apply takeFree_eff) | split | dsimp only [id]

theorem execSpdmGetMeasurements_ran (ep op : Nat) (signed : Bool) (context : List Byte) (s : State) : Ran 0xd s (execSpdmGetMeasurements ep op signed context s) := by
  unfold execSpdmGetMeasurements
  try dsimp only
  repeat' first
    | with_reducible apply Eff.refl | with_reducible assumption | (apply Sub.of; rfl) | (apply Has.of; rfl) | intro _ | with_reducible apply ite_eff
    | with_reducible apply ite_ran | with_reducible apply onDev_ran | (with_reducible apply spdmReq_eff)
    | (with_reducible apply Eff.step; with_reducible apply spdmError_eff) | (with_reducible apply Eff.step; with_reducible apply spdmSend_eff)
    | (with_reducible apply Eff.step; with_reducible apply takeFree_eff) | split | dsimp only [id]

theorem execSpdmOtherRequest_ran (ep code : Nat) (s : State) : Ran 0xd s (execSpdmOtherRequest ep code s) := by
  unfold execSpdmOtherRequest
  try dsimp only
  repeat' first
    | with_reducible apply Eff.refl | with_reducible assumption | (apply Sub.of; rfl) | (apply Has.of; rfl) | intro _ | with_reducible apply ite_eff
    | with_reducible apply ite_ran | (with_reducible apply onlyIf_eff) | with_reducible apply onDev_ran | (with_reducible apply spdmReq_eff)
    | (with_reducible apply Eff.step; with_reducible apply spdmError_eff) | split | dsimp only [id]

theorem mctpSend_eff (ep cmd cc : Nat) (fields : List Nat) (d : Dev) : Eff 0x4 d (mctpSend ep cmd cc fields d) := by
  unfold mctpSend
  try dsimp only
  repeat' first
    | with_reducible apply Eff.refl | with_reducible assumption | (apply Sub.of; rfl) | (apply Has.of; rfl) | intro _ | with_reducible apply ite_eff
    | (with_reducible apply Eff.step; with_reducible apply emit_eff) | split | dsimp only [id]

theorem execSetEndpointId_ran (ep op eid : Nat) (s : State) : Ran 0x84 s (execSetEndpointId ep op eid s) := by
  unfold execSetEndpointId
  try dsimp only
  repeat' first
    | with_reducible apply Eff.refl | with_reducible assumption | (apply Sub.of; rfl) | (apply Has.of; rfl) | intro _ | with_reducible apply ite_eff
    | with_reducible apply ite_ran | with_reducible apply onDev_ran | (with_reducible apply Eff.step; with_reducible apply mctpSend_eff)
    | (with_reducible apply Eff.step; with_reducible apply updSec_eff) | split | dsimp only [id]

theorem execGetEndpointId_ran (ep : Nat) (s : State) : Ran 0x4 s (execGetEndpointId ep s) := by
  unfold execGetEndpointId
  try dsimp only
  repeat' first
    | with_reducible apply Eff.refl | with_reducible assumption | (apply Sub.of; rfl) | (apply Has.of; rfl) | intro _ | with_reducible apply ite_eff
    | with_reducible apply ite_ran | (with_reducible apply onlyIf_eff) | with_reducible apply onDev_ran
    | (with_reducible apply Eff.step; with_reducible apply mctpSend_eff) | split | dsimp only [id]

theorem execGetMctpVersionSupport_ran (ep type : Nat) (s : State) : Ran 0xc s (execGetMctpVersionSupport ep type s) := by
  unfold execGetMctpVersionSupport
  try dsimp only
  repeat' first
    | with_reducible apply Eff.refl | with_reducible assumption | (apply Sub.of; rfl) | (apply Has.of; rfl) | intro _ | with_reducible apply ite_eff
    | with_reducible apply ite_ran | with_reducible apply onDev_ran | (with_reducible apply Eff.step; with_reducible apply mctpSend_eff)
    | (with_reducible apply Eff.step; with_reducible apply takeFree_eff) | split | dsimp only [id]

theorem execGetMessageTypeSupport_ran (ep : Nat) (s : State) : Ran 0x4 s (execGetMessageTypeSupport ep s) := by
  unfold execGetMessageTypeSupport
  try dsimp only
  repeat' first
    | with_reducible apply Eff.refl | with_reducible assumption | (apply Sub.of; rfl) | (apply Has.of; rfl) | intro _ | with_reducible apply ite_eff
    | with_reducible apply ite_ran | (with_reducible apply onlyIf_eff) | with_reducible apply onDev_ran
    | (with_reducible apply Eff.step; with_reducible apply mctpSend_eff) | split | dsimp only [id]

theorem execDoeDiscovery_ran (vh index : Nat) (s : State) : Ran 0x4 s (execDoeDiscovery vh index s) := by
  unfold execDoeDiscovery
  try dsimp only
  repeat' first
    | with_reducible apply Eff.refl | with_reducible assumption | (apply Sub.of; rfl) | (apply Has.of; rfl) | intro _ | with_reducible apply ite_eff
    | with_reducible apply ite_ran | with_reducible apply onDev_ran | (with_reducible apply Eff.step; with_reducible apply emit_eff) | split
    | dsimp only [id]

end Sys2Proof.Machine
end

