-- ==== Sys2Proof/Laws/EffFaults.lean ====
section
/-!
SUPPORT. What each function of Machine/Faults.lean can change.
-/

namespace Sys2Proof.Machine

theorem sramBad_eff (d : Dev) : Eff 0x9 d (sramBad d) := by
  unfold sramBad
  try dsimp only
  repeat' first
    | with_reducible apply Eff.refl | with_reducible assumption | (apply Sub.of; rfl) | (apply Has.of; rfl) | intro _ | with_reducible apply ite_eff
    | (with_reducible apply Eff.step; with_reducible apply bump_eff) | split | dsimp only [id]

theorem raiseFault_eff (kind : Nat) (d : Dev) : Eff 0x11d d (raiseFault kind d) := by
  unfold raiseFault
  try dsimp only
  repeat' first
    | with_reducible apply Eff.refl | with_reducible assumption | (apply Sub.of; rfl) | (apply Has.of; rfl) | intro _ | with_reducible apply ite_eff
    | (with_reducible apply Eff.step; with_reducible apply raiseDet_eff) | (with_reducible apply Eff.step; with_reducible apply raiseIbi_eff)
    | (with_reducible apply Eff.last; with_reducible apply Prim.mg) | split | dsimp only [id]

theorem mpRestart_eff (d : Dev) : Eff 0xc017d d (mpRestart d) := by
  unfold mpRestart
  try dsimp only
  repeat' first
    | with_reducible apply Eff.refl | with_reducible assumption | (apply Sub.of; rfl) | (apply Has.of; rfl) | intro _ | with_reducible apply ite_eff
    | (with_reducible apply forEach_eff) | (with_reducible apply Eff.step; with_reducible apply bump_eff)
    | (with_reducible apply Eff.step; with_reducible apply raise_eff) | (with_reducible apply Eff.step; with_reducible apply edAnswer_eff)
    | (with_reducible apply Eff.step; with_reducible apply wr_eff) | (with_reducible apply Eff.step; with_reducible apply raiseFault_eff)
    | (with_reducible apply Eff.last; with_reducible apply Prim.mg) | split | dsimp only [id]

theorem ctxBad_eff (n : Nat) (d : Dev) : Eff 0x1011f d (ctxBad n d) := by
  unfold ctxBad
  try dsimp only
  repeat' first
    | with_reducible apply Eff.refl | with_reducible assumption | (apply Sub.of; rfl) | (apply Has.of; rfl) | intro _ | with_reducible apply ite_eff
    | (with_reducible apply Eff.step; with_reducible apply updEng_eff) | (with_reducible apply Eff.step; with_reducible apply countLagoon_eff)
    | (with_reducible apply Eff.step; with_reducible apply enterError_eff) | (with_reducible apply Eff.step; with_reducible apply sliceEvent_eff)
    | split | dsimp only [id]

theorem routingBad_eff (isl t set idx : Nat) (bad : Bool) (d : Dev) : Eff 0x811d d (routingBad isl t set idx bad d) := by
  unfold routingBad
  try dsimp only
  repeat' first
    | with_reducible apply Eff.refl | with_reducible assumption | (apply Sub.of; rfl) | (apply Has.of; rfl) | intro _ | with_reducible apply ite_eff
    | (with_reducible apply Eff.step; with_reducible apply bump_eff) | (with_reducible apply Eff.step; with_reducible apply putFlowlet_eff)
    | (with_reducible apply Eff.step; with_reducible apply tblPut_eff) | (with_reducible apply Eff.step; with_reducible apply raise_eff) | split
    | dsimp only [id]

theorem meterBad_eff (isl m : Nat) (bad : Bool) (d : Dev) : Eff 0x811d d (meterBad isl m bad d) := by
  unfold meterBad
  try dsimp only
  repeat' first
    | with_reducible apply Eff.refl | with_reducible assumption | (apply Sub.of; rfl) | (apply Has.of; rfl) | intro _ | with_reducible apply ite_eff
    | (with_reducible apply Eff.step; with_reducible apply bump_eff) | (with_reducible apply Eff.step; with_reducible apply putMeter_eff)
    | (with_reducible apply Eff.step; with_reducible apply raise_eff) | split | dsimp only [id]

theorem mapBad_eff (isl i : Nat) (bad : Bool) (d : Dev) : Eff 0x1011d d (mapBad isl i bad d) := by
  unfold mapBad
  try dsimp only
  repeat' first
    | with_reducible apply Eff.refl | with_reducible assumption | (apply Sub.of; rfl) | (apply Has.of; rfl) | intro _ | with_reducible apply ite_eff
    | (with_reducible apply Eff.step; with_reducible apply bump_eff) | (with_reducible apply Eff.step; with_reducible apply putMap_eff)
    | (with_reducible apply Eff.step; with_reducible apply raise_eff) | split | dsimp only [id]

theorem regionBad_eff (i : Nat) (d : Dev) : Eff 0x1011d d (regionBad i d) := by
  unfold regionBad
  try dsimp only
  repeat' first
    | with_reducible apply Eff.refl | with_reducible assumption | (apply Sub.of; rfl) | (apply Has.of; rfl) | intro _ | with_reducible apply ite_eff
    | (with_reducible apply Eff.step; with_reducible apply putRegion_eff) | (with_reducible apply Eff.step; with_reducible apply countRegions_eff)
    | (with_reducible apply Eff.step; with_reducible apply raise_eff) | split | dsimp only [id]

theorem areaBad_eff (o : Nat) (user : Option Nat) (d : Dev) : Eff 0x1811f d (areaBad o user d) := by
  unfold areaBad
  try dsimp only
  repeat' first
    | with_reducible apply Eff.refl | with_reducible assumption | (apply Sub.of; rfl) | (apply Has.of; rfl) | intro _ | with_reducible apply ite_eff
    | (with_reducible apply Eff.step; with_reducible apply bump_eff) | (with_reducible apply Eff.step; with_reducible apply ctxBad_eff)
    | (with_reducible apply Eff.step; with_reducible apply updEng_eff) | (with_reducible apply Eff.step; with_reducible apply regionBad_eff)
    | (with_reducible apply Eff.step; with_reducible apply failCtx_eff) | split | dsimp only [id]

theorem packageBad_eff (o : Nat) (user : Option Nat) (d : Dev) : Eff 0x1811f d (packageBad o user d) := by
  unfold packageBad
  try dsimp only
  repeat' first
    | with_reducible apply Eff.refl | with_reducible assumption | (apply Sub.of; rfl) | (apply Has.of; rfl) | intro _ | with_reducible apply ite_eff
    | (with_reducible apply Eff.step; with_reducible apply wr2_eff) | (with_reducible apply Eff.step; with_reducible apply bump_eff)
    | (with_reducible apply Eff.step; with_reducible apply raiseDet_eff) | (with_reducible apply Eff.step; with_reducible apply areaBad_eff) | split
    | dsimp only [id]

theorem entryBad_eff (seq : Nat) (d : Dev) : Eff 0x100 d (entryBad seq d) := by
  unfold entryBad
  try dsimp only
  repeat' first
    | with_reducible apply Eff.refl | with_reducible assumption | (apply Sub.of; rfl) | (apply Has.of; rfl) | intro _ | with_reducible apply ite_eff
    | (with_reducible apply Eff.last; with_reducible apply Prim.log) | split | dsimp only [id]

theorem heldBad_eff (dom n : Nat) (d : Dev) : Eff 0x11d d (heldBad dom n d) := by
  unfold heldBad
  try dsimp only
  repeat' first
    | with_reducible apply Eff.refl | with_reducible assumption | (apply Sub.of; rfl) | (apply Has.of; rfl) | intro _ | with_reducible apply ite_eff
    | split | (with_reducible apply Eff.step; with_reducible apply dropWrite_eff) | (with_reducible apply Eff.step; with_reducible apply raise_eff)
    | (with_reducible apply Eff.last; with_reducible apply Prim.mg) | split | dsimp only [id]

theorem aonBad_eff (a : Nat) (d : Dev) : Eff 0x11d d (aonBad a d) := by
  unfold aonBad
  try dsimp only
  repeat' first
    | with_reducible apply Eff.refl | with_reducible assumption | (apply Sub.of; rfl) | (apply Has.of; rfl) | intro _ | with_reducible apply ite_eff
    | (with_reducible apply foldl_eff) | (with_reducible apply Eff.step; with_reducible apply setWord_eff)
    | (with_reducible apply Eff.step; with_reducible apply takeFree_eff) | (with_reducible apply Eff.step; with_reducible apply raise_eff) | split
    | dsimp only [id]

theorem wordCorrected_eff (w : EccSite) (d : Dev) : Eff 0x9 d (wordCorrected w d) := by
  unfold wordCorrected
  try dsimp only
  repeat' first
    | with_reducible apply Eff.refl | with_reducible assumption | (apply Sub.of; rfl) | (apply Has.of; rfl) | intro _ | with_reducible apply ite_eff
    | (with_reducible apply onlyIf_eff) | (with_reducible apply Eff.step; with_reducible apply bump_eff) | split | dsimp only [id]

theorem wordBad_eff (w : EccSite) (d : Dev) : Eff 0xf897f d (wordBad w d) := by
  unfold wordBad
  try dsimp only
  repeat' first
    | with_reducible apply Eff.refl | with_reducible assumption | (apply Sub.of; rfl) | (apply Has.of; rfl) | intro _ | with_reducible apply ite_eff
    | split | (with_reducible apply onlyIf_eff) | (with_reducible apply Eff.step; with_reducible apply harbourUncorrRead_eff)
    | (with_reducible apply Eff.step; with_reducible apply straitFaultDetect_eff) | (with_reducible apply Eff.step; with_reducible apply sramBad_eff)
    | (with_reducible apply Eff.step; with_reducible apply ctxBad_eff) | (with_reducible apply Eff.step; with_reducible apply raise_eff)
    | (with_reducible apply Eff.step; with_reducible apply failCtx_eff) | (with_reducible apply Eff.step; with_reducible apply routingBad_eff)
    | (with_reducible apply Eff.step; with_reducible apply meterBad_eff) | (with_reducible apply Eff.step; with_reducible apply mapBad_eff)
    | (with_reducible apply Eff.step; with_reducible apply protocolError_eff) | (with_reducible apply Eff.step; with_reducible apply collEcc_eff)
    | (with_reducible apply Eff.step; with_reducible apply mpRestart_eff) | (with_reducible apply Eff.step; with_reducible apply entryBad_eff)
    | (with_reducible apply Eff.step; with_reducible apply heldBad_eff) | (with_reducible apply Eff.step; with_reducible apply aonBad_eff)
    | (with_reducible apply Eff.step; with_reducible apply packageBad_eff) | (with_reducible apply Eff.step; with_reducible apply aerSet_eff)
    | (with_reducible apply Eff.last; with_reducible apply Prim.boot) | split | dsimp only [id]

theorem execPatrolScrub_ran (word : EccSite) (corrected : Bool) (s : State) : Ran 0xf997f s (execPatrolScrub word corrected s) := by
  unfold execPatrolScrub
  try dsimp only
  repeat' first
    | with_reducible apply Eff.refl | with_reducible assumption | (apply Sub.of; rfl) | (apply Has.of; rfl) | intro _ | with_reducible apply ite_eff
    | with_reducible apply ite_ran | with_reducible apply onAll_ran | (with_reducible apply Eff.step; with_reducible apply wordCorrected_eff)
    | (with_reducible apply Eff.step; with_reducible apply wordBad_eff) | split | dsimp only [id]

theorem stopTransmitters_eff (d : Dev) : Eff 0x811d d (stopTransmitters d) := by
  unfold stopTransmitters
  try dsimp only
  repeat' first
    | with_reducible apply Eff.refl | with_reducible assumption | (apply Sub.of; rfl) | (apply Has.of; rfl) | intro _ | with_reducible apply ite_eff
    | (with_reducible apply forEach_eff) | (with_reducible apply Eff.step; with_reducible apply emit_eff)
    | (with_reducible apply Eff.step; with_reducible apply lanesOff_eff) | (with_reducible apply Eff.step; with_reducible apply wr_eff)
    | (with_reducible apply Eff.step; with_reducible apply setPortUp_eff) | split | dsimp only [id]

theorem deviceFault_eff (kind : Nat) (d : Dev) : Eff 0x813d d (deviceFault kind d) := by
  unfold deviceFault
  try dsimp only
  repeat' first
    | with_reducible apply Eff.refl | with_reducible assumption | (apply Sub.of; rfl) | (apply Has.of; rfl) | intro _ | with_reducible apply ite_eff
    | (with_reducible apply Eff.step; with_reducible apply stopTransmitters_eff)
    | (with_reducible apply Eff.step; with_reducible apply raiseFault_eff) | (with_reducible apply Eff.step; with_reducible apply wr_eff)
    | (with_reducible apply Eff.last; with_reducible apply Prim.boot) | split | dsimp only [id]

theorem execDeviceFaultDetect_ran (clock : Bool) (s : State) : Ran 0x813d s (execDeviceFaultDetect clock s) := by
  unfold execDeviceFaultDetect
  try dsimp only
  repeat' first
    | with_reducible apply Eff.refl | with_reducible assumption | (apply Sub.of; rfl) | (apply Has.of; rfl) | intro _ | with_reducible apply ite_eff
    | with_reducible apply ite_ran | with_reducible apply onDev_ran | (with_reducible apply Eff.step; with_reducible apply deviceFault_eff) | split
    | dsimp only [id]

theorem execMpWatchdogMiss_ran (uncorr : Bool) (s : State) : Ran 0xf917f s (execMpWatchdogMiss uncorr s) := by
  unfold execMpWatchdogMiss
  try dsimp only
  repeat' first
    | with_reducible apply Eff.refl | with_reducible assumption | (apply Sub.of; rfl) | (apply Has.of; rfl) | intro _ | with_reducible apply ite_eff
    | with_reducible apply ite_ran | (with_reducible apply onlyIf_eff) | with_reducible apply onAll_ran
    | (with_reducible apply Eff.step; with_reducible apply sramBad_eff) | (with_reducible apply Eff.step; with_reducible apply mpRestart_eff) | split
    | dsimp only [id]

theorem logClear_eff (d : Dev) : Eff 0x100 d (logClear d) := by
  unfold logClear
  try dsimp only
  repeat' first
    | with_reducible apply Eff.refl | with_reducible assumption | (apply Sub.of; rfl) | (apply Has.of; rfl) | intro _ | with_reducible apply ite_eff
    | (with_reducible apply Eff.last; with_reducible apply Prim.log) | split | dsimp only [id]

theorem execLogClr_ran (s : State) : Ran 0x7911f s (execLogClr s) := by
  unfold execLogClr
  try dsimp only
  repeat' first
    | with_reducible apply Eff.refl | with_reducible assumption | (apply Sub.of; rfl) | (apply Has.of; rfl) | intro _ | with_reducible apply ite_eff
    | with_reducible apply ite_ran | with_reducible apply onAll_ran | (with_reducible apply trigger_eff)
    | (with_reducible apply Eff.step; with_reducible apply logClear_eff) | split | dsimp only [id]

theorem logCopy_eff (d : Dev) : Eff 0x1 d (logCopy d) := by
  unfold logCopy
  try dsimp only
  repeat' first
    | with_reducible apply Eff.refl | with_reducible assumption | (apply Sub.of; rfl) | (apply Has.of; rfl) | intro _ | with_reducible apply ite_eff
    | (with_reducible apply Eff.step; with_reducible apply wrBytes_eff) | (with_reducible apply Eff.step; with_reducible apply wr_eff) | split
    | dsimp only [id]

theorem execRdGo_ran (s : State) : Ran 0x7911f s (execRdGo s) := by
  unfold execRdGo
  try dsimp only
  repeat' first
    | with_reducible apply Eff.refl | with_reducible assumption | (apply Sub.of; rfl) | (apply Has.of; rfl) | intro _ | with_reducible apply ite_eff
    | with_reducible apply ite_ran | with_reducible apply onAll_ran | (with_reducible apply trigger_eff)
    | (with_reducible apply Eff.step; with_reducible apply logCopy_eff) | split | dsimp only [id]

theorem logRead_eff (p : List Byte) (d : Dev) : Eff 0x0 d (logRead p d).dev := by
  unfold logRead
  try dsimp only
  repeat' first
    | with_reducible apply Eff.refl | with_reducible assumption | (apply Sub.of; rfl) | (apply Has.of; rfl) | intro _ | with_reducible apply ite_eff
    | (with_reducible apply Eff.step; with_reducible apply edStat_eff) | (with_reducible apply Eff.step; with_reducible apply edOk_eff) | split
    | dsimp only [id]

theorem quotient_eff (a b : Nat) (d : Dev) : Eff 0x8 d (quotient a b d).2 := by
  unfold quotient
  try dsimp only
  repeat' first
    | with_reducible apply Eff.refl | with_reducible assumption | (apply Sub.of; rfl) | (apply Has.of; rfl) | intro _ | with_reducible apply ite_eff
    | with_reducible apply ite_snd | (with_reducible apply Eff.step; with_reducible apply takeFree_eff) | split | dsimp only [id]

theorem median_eff (l : List Nat) (d : Dev) : Eff 0x8 d (median l d).2 := by
  unfold median
  try dsimp only
  repeat' first
    | with_reducible apply Eff.refl | with_reducible assumption | (apply Sub.of; rfl) | (apply Has.of; rfl) | intro _ | with_reducible apply ite_eff
    | with_reducible apply ite_snd | (with_reducible apply Eff.step; with_reducible apply quotient_eff)
    | (with_reducible apply Eff.step; with_reducible apply eff_snd; assumption; with_reducible apply quotient_eff) | split | dsimp only [id]

theorem putAge_eff (i : Nat) (a : AgeIsland) (d : Dev) : Eff 0x100 d (putAge i a d) := by
  unfold putAge
  try dsimp only
  repeat' first
    | with_reducible apply Eff.refl | with_reducible assumption | (apply Sub.of; rfl) | (apply Has.of; rfl) | intro _ | with_reducible apply ite_eff
    | (with_reducible apply Eff.last; with_reducible apply Prim.log) | split | dsimp only [id]

theorem ageMeasure_eff (i ppm : Nat) (margins : List (Nat × Nat)) (d : Dev) : Eff 0x11d d (ageMeasure i ppm margins d) := by
  unfold ageMeasure
  try dsimp only
  repeat' first
    | with_reducible apply Eff.refl | with_reducible assumption | (apply Sub.of; rfl) | (apply Has.of; rfl) | intro _ | with_reducible apply ite_eff
    | split | (with_reducible apply onlyIf_eff) | (with_reducible apply Eff.step; with_reducible apply median_eff)
    | (with_reducible apply Eff.step; with_reducible apply eff_snd; assumption; with_reducible apply median_eff)
    | (with_reducible apply Eff.step; with_reducible apply putAge_eff) | (with_reducible apply Eff.step; with_reducible apply raise_eff)
    | (with_reducible apply Eff.last; with_reducible apply Prim.log) | split | dsimp only [id]

theorem agingAlarm_eff (q : Nat) (d : Dev) : Eff 0x11d d (agingAlarm q d) := by
  unfold agingAlarm
  try dsimp only
  repeat' first
    | with_reducible apply Eff.refl | with_reducible assumption | (apply Sub.of; rfl) | (apply Has.of; rfl) | intro _ | with_reducible apply ite_eff
    | (with_reducible apply onlyIf_eff) | (with_reducible apply Eff.step; with_reducible apply raise_eff)
    | (with_reducible apply Eff.last; with_reducible apply Prim.log) | split | dsimp only [id]

theorem lifeUpdate_eff (d : Dev) : Eff 0x11d d (lifeUpdate d) := by
  unfold lifeUpdate
  try dsimp only
  repeat' first
    | with_reducible apply Eff.refl | with_reducible assumption | (apply Sub.of; rfl) | (apply Has.of; rfl) | intro _ | with_reducible apply ite_eff
    | (with_reducible apply Eff.step; with_reducible apply quotient_eff)
    | (with_reducible apply Eff.step; with_reducible apply eff_snd; assumption; with_reducible apply quotient_eff)
    | (with_reducible apply Eff.step; with_reducible apply wrFit_eff) | (with_reducible apply Eff.step; with_reducible apply agingAlarm_eff) | split
    | dsimp only [id]

theorem execAgingMeasure_ran (roPpm : List Nat) (margins : List (Nat × Nat)) (s : State) : Ran 0x7911f s (execAgingMeasure roPpm margins s) := by
  unfold execAgingMeasure
  try dsimp only
  repeat' first
    | with_reducible apply Eff.refl | with_reducible assumption | (apply Sub.of; rfl) | (apply Has.of; rfl) | intro _ | with_reducible apply ite_eff
    | with_reducible apply ite_ran | (with_reducible apply forEach_eff) | with_reducible apply onAll_ran
    | (with_reducible apply Eff.step; with_reducible apply ageMeasure_eff) | (with_reducible apply Eff.step; with_reducible apply lifeUpdate_eff)
    | split | dsimp only [id]

theorem trendPeriod_eff (i : Nat) (d : Dev) : Eff 0x108 d (trendPeriod i d) := by
  unfold trendPeriod
  try dsimp only
  repeat' first
    | with_reducible apply Eff.refl | with_reducible assumption | (apply Sub.of; rfl) | (apply Has.of; rfl) | intro _ | with_reducible apply ite_eff
    | (with_reducible apply Eff.step; with_reducible apply quotient_eff)
    | (with_reducible apply Eff.step; with_reducible apply eff_snd; assumption; with_reducible apply quotient_eff)
    | (with_reducible apply Eff.step; with_reducible apply median_eff)
    | (with_reducible apply Eff.step; with_reducible apply eff_snd; assumption; with_reducible apply median_eff)
    | (with_reducible apply Eff.step; with_reducible apply putAge_eff) | split | dsimp only [id]

theorem execAgingTrendPeriod_ran (s : State) : Ran 0x7911f s (execAgingTrendPeriod s) := by
  unfold execAgingTrendPeriod
  try dsimp only
  repeat' first
    | with_reducible apply Eff.refl | with_reducible assumption | (apply Sub.of; rfl) | (apply Has.of; rfl) | intro _ | with_reducible apply ite_eff
    | with_reducible apply ite_ran | (with_reducible apply forEach_eff) | with_reducible apply onAll_ran
    | (with_reducible apply Eff.step; with_reducible apply trendPeriod_eff) | split | dsimp only [id]

end Sys2Proof.Machine
end

