-- ==== Sys2Proof/Laws/EffCheck.lean ====
section
/-!
SUPPORT. What each function of Machine/Check.lean can change.
-/

namespace Sys2Proof.Machine

theorem putJob_eff (j : Nat) (x : ChkJob) (d : Dev) : Eff 0x200 d (putJob j x d) := by
  unfold putJob
  try dsimp only
  repeat' first
    | with_reducible apply Eff.refl | with_reducible assumption | (apply Sub.of; rfl) | (apply Has.of; rfl) | intro _ | with_reducible apply ite_eff
    | (with_reducible apply Eff.last; with_reducible apply Prim.chk) | split | dsimp only [id]

theorem jobStart_eff (j : Nat) (d : Dev) : Eff 0x201 d (jobStart j d) := by
  unfold jobStart
  try dsimp only
  repeat' first
    | with_reducible apply Eff.refl | with_reducible assumption | (apply Sub.of; rfl) | (apply Has.of; rfl) | intro _ | with_reducible apply ite_eff
    | (with_reducible apply Eff.step; with_reducible apply putJob_eff) | (with_reducible apply Eff.step; with_reducible apply wr2_eff)
    | (with_reducible apply Eff.step; with_reducible apply wrI_eff) | (with_reducible apply Eff.step; with_reducible apply wr_eff) | split
    | dsimp only [id]

theorem chkGo_eff (j : Nat) (val : Word) (d : Dev) : Eff 0x31d d (chkGo j val d) := by
  unfold chkGo
  try dsimp only
  repeat' first
    | with_reducible apply Eff.refl | with_reducible assumption | (apply Sub.of; rfl) | (apply Has.of; rfl) | intro _ | with_reducible apply ite_eff
    | (with_reducible apply Eff.step; with_reducible apply cfgErr_eff) | (with_reducible apply Eff.step; with_reducible apply jobStart_eff) | split
    | dsimp only [id]

theorem aliveFlag_eff (j idx : Nat) (d : Dev) : Eff 0x11d d (aliveFlag j idx d) := by
  unfold aliveFlag
  try dsimp only
  repeat' first
    | with_reducible apply Eff.refl | with_reducible assumption | (apply Sub.of; rfl) | (apply Has.of; rfl) | intro _ | with_reducible apply ite_eff
    | (with_reducible apply onlyIf_eff) | (with_reducible apply Eff.step; with_reducible apply bump_eff)
    | (with_reducible apply Eff.step; with_reducible apply wrI_eff) | (with_reducible apply Eff.step; with_reducible apply raise_eff) | split
    | dsimp only [id]

theorem aliveCompare_eff (j new : Nat) (d : Dev) : Eff 0x31d d (aliveCompare j new d) := by
  unfold aliveCompare
  try dsimp only
  repeat' first
    | with_reducible apply Eff.refl | with_reducible assumption | (apply Sub.of; rfl) | (apply Has.of; rfl) | intro _ | with_reducible apply ite_eff
    | (with_reducible apply Eff.step; with_reducible apply putJob_eff) | (with_reducible apply Eff.step; with_reducible apply addSat_eff)
    | (with_reducible apply Eff.step; with_reducible apply aliveFlag_eff) | split | dsimp only [id]

theorem putResult_eff (j : Nat) (bs : List Byte) (d : Dev) : Eff 0x9 d (putResult j bs d) := by
  unfold putResult
  try dsimp only
  repeat' first
    | with_reducible apply Eff.refl | with_reducible assumption | (apply Sub.of; rfl) | (apply Has.of; rfl) | intro _ | with_reducible apply ite_eff
    | (with_reducible apply Eff.step; with_reducible apply wr2_eff) | (with_reducible apply Eff.step; with_reducible apply addI_eff) | split
    | dsimp only [id]

theorem jobScan_eff (j n : Nat) (data : List Byte) (d : Dev) : Eff 0x31d d (jobScan j n data d) := by
  unfold jobScan
  try dsimp only
  repeat' first
    | with_reducible apply Eff.refl | with_reducible assumption | (apply Sub.of; rfl) | (apply Has.of; rfl) | intro _ | with_reducible apply ite_eff
    | (with_reducible apply forEach_eff) | (with_reducible apply Eff.step; with_reducible apply aliveCompare_eff)
    | (with_reducible apply Eff.step; with_reducible apply putResult_eff) | split | dsimp only [id]

theorem chkAbort_eff (j n : Nat) (data : List Byte) (d : Dev) : Eff 0x31d d (chkAbort j n data d) := by
  unfold chkAbort
  try dsimp only
  repeat' first
    | with_reducible apply Eff.refl | with_reducible assumption | (apply Sub.of; rfl) | (apply Has.of; rfl) | intro _ | with_reducible apply ite_eff
    | (with_reducible apply onlyIf_eff) | (with_reducible apply Eff.step; with_reducible apply jobScan_eff)
    | (with_reducible apply Eff.step; with_reducible apply chkEnd_eff) | split | dsimp only [id]

theorem chkStop_eff (j : Nat) (d : Dev) : Eff 0x31d d (chkStop j d) := by
  unfold chkStop
  try dsimp only
  repeat' first
    | with_reducible apply Eff.refl | with_reducible assumption | (apply Sub.of; rfl) | (apply Has.of; rfl) | intro _ | with_reducible apply ite_eff
    | (with_reducible apply onlyIf_eff) | (with_reducible apply Eff.step; with_reducible apply jobScan_eff)
    | (with_reducible apply Eff.step; with_reducible apply takeFree_eff) | (with_reducible apply Eff.step; with_reducible apply chkCut_eff)
    | (with_reducible apply Eff.step; with_reducible apply chkEnd_eff) | split | dsimp only [id]

theorem jobEnds_eff (j ended n : Nat) (data : List Byte) (d : Dev) : Eff 0x31d d (jobEnds j ended n data d) := by
  unfold jobEnds
  try dsimp only
  repeat' first
    | with_reducible apply Eff.refl | with_reducible assumption | (apply Sub.of; rfl) | (apply Has.of; rfl) | intro _ | with_reducible apply ite_eff
    | (with_reducible apply onlyIf_eff) | (with_reducible apply Eff.step; with_reducible apply jobScan_eff)
    | (with_reducible apply Eff.step; with_reducible apply chkEnd_eff) | split | dsimp only [id]

theorem watchRead_eff (j : Nat) (data : List Byte) (d : Dev) : Eff 0x31d d (watchRead j data d) := by
  unfold watchRead
  try dsimp only
  repeat' first
    | with_reducible apply Eff.refl | with_reducible assumption | (apply Sub.of; rfl) | (apply Has.of; rfl) | intro _ | with_reducible apply ite_eff
    | (with_reducible apply Eff.step; with_reducible apply chkEnd_eff) | (with_reducible apply Eff.step; with_reducible apply aliveCompare_eff)
    | (with_reducible apply Eff.step; with_reducible apply putResult_eff) | split | dsimp only [id]

theorem execChkGo_ran (job : Nat) (s : State) : Ran 0x7931f s (execChkGo job s) := by
  unfold execChkGo
  try dsimp only
  repeat' first
    | with_reducible apply Eff.refl | with_reducible assumption | (apply Sub.of; rfl) | (apply Has.of; rfl) | intro _ | with_reducible apply ite_eff
    | with_reducible apply ite_ran | (with_reducible apply onlyIf_eff) | with_reducible apply onAll_ran | (with_reducible apply trigger_eff)
    | (with_reducible apply Eff.step; with_reducible apply chkGo_eff) | split | dsimp only [id]

theorem execChkAbort_ran (job bytes : Nat) (data : List Byte) (s : State) : Ran 0x7931f s (execChkAbort job bytes data s) := by
  unfold execChkAbort
  try dsimp only
  repeat' first
    | with_reducible apply Eff.refl | with_reducible assumption | (apply Sub.of; rfl) | (apply Has.of; rfl) | intro _ | with_reducible apply ite_eff
    | with_reducible apply ite_ran | (with_reducible apply onlyIf_eff) | with_reducible apply onAll_ran | (with_reducible apply trigger_eff)
    | (with_reducible apply Eff.step; with_reducible apply chkAbort_eff) | split | dsimp only [id]

theorem execChkJobComplete_ran (job ended bytes : Nat) (data : List Byte) (s : State) : Ran 0x7931f s (execChkJobComplete job ended bytes data s) := by
  unfold execChkJobComplete
  try dsimp only
  repeat' first
    | with_reducible apply Eff.refl | with_reducible assumption | (apply Sub.of; rfl) | (apply Has.of; rfl) | intro _ | with_reducible apply ite_eff
    | with_reducible apply ite_ran | with_reducible apply onAll_ran | (with_reducible apply Eff.step; with_reducible apply jobEnds_eff) | split
    | dsimp only [id]

theorem execChkWatchReread_ran (job : Nat) (data : List Byte) (s : State) : Ran 0x7931f s (execChkWatchReread job data s) := by
  unfold execChkWatchReread
  try dsimp only
  repeat' first
    | with_reducible apply Eff.refl | with_reducible assumption | (apply Sub.of; rfl) | (apply Has.of; rfl) | intro _ | with_reducible apply ite_eff
    | with_reducible apply ite_ran | with_reducible apply onAll_ran | (with_reducible apply Eff.step; with_reducible apply watchRead_eff) | split
    | dsimp only [id]

end Sys2Proof.Machine
end

