-- ==== Sys2Proof/Laws/EffPackage.lean ====
section
/-!
SUPPORT. What each function of Machine/Package.lean can change.
-/

namespace Sys2Proof.Machine

theorem countThrottle_eff (d : Dev) : Eff 0x409 d (countThrottle d) := by
  unfold countThrottle
  try dsimp only
  repeat' first
    | with_reducible apply Eff.refl | with_reducible assumption | (apply Sub.of; rfl) | (apply Has.of; rfl) | intro _ | with_reducible apply ite_eff
    | (with_reducible apply Eff.step; with_reducible apply updFd_eff) | (with_reducible apply Eff.step; with_reducible apply addI_eff) | split
    | dsimp only [id]

theorem heatThrottle_eff (d : Dev) : Eff 0x40d d (heatThrottle d) := by
  unfold heatThrottle
  try dsimp only
  repeat' first
    | with_reducible apply Eff.refl | with_reducible assumption | (apply Sub.of; rfl) | (apply Has.of; rfl) | intro _ | with_reducible apply ite_eff
    | (with_reducible apply Eff.step; with_reducible apply throttling_eff) | (with_reducible apply Eff.step; with_reducible apply bump_eff) | split
    | dsimp only [id]

theorem thermalSample_eff (temps : List Int) (d : Dev) : Eff 0xc53d d (thermalSample temps d) := by
  unfold thermalSample
  try dsimp only
  repeat' first
    | with_reducible apply Eff.refl | with_reducible assumption | (apply Sub.of; rfl) | (apply Has.of; rfl) | intro _ | with_reducible apply ite_eff
    | (with_reducible apply onlyIf_eff) | (with_reducible apply Eff.step; with_reducible apply wr_eff)
    | (with_reducible apply Eff.step; with_reducible apply countThrottle_eff) | (with_reducible apply Eff.step; with_reducible apply heatThrottle_eff)
    | (with_reducible apply Eff.step; with_reducible apply deviceFault_eff) | (with_reducible apply Eff.last; with_reducible apply Prim.sens) | split
    | dsimp only [id]

theorem execThermalSample_ran (temps : List Int) (s : State) : Ran 0xc53d s (execThermalSample temps s) := by
  unfold execThermalSample
  try dsimp only
  repeat' first
    | with_reducible apply Eff.refl | with_reducible assumption | (apply Sub.of; rfl) | (apply Has.of; rfl) | intro _ | with_reducible apply ite_eff
    | with_reducible apply ite_ran | with_reducible apply onDev_ran | (with_reducible apply Eff.step; with_reducible apply thermalSample_eff) | split
    | dsimp only [id]

theorem throttleOver_eff (d : Dev) : Eff 0x40d d (throttleOver d) := by
  unfold throttleOver
  try dsimp only
  repeat' first
    | with_reducible apply Eff.refl | with_reducible assumption | (apply Sub.of; rfl) | (apply Has.of; rfl) | intro _ | with_reducible apply ite_eff
    | (with_reducible apply Eff.step; with_reducible apply countThrottle_eff) | (with_reducible apply Eff.step; with_reducible apply throttling_eff)
    | (with_reducible apply Eff.step; with_reducible apply wr_eff) | split | dsimp only [id]

theorem execThermalThrottleEnd_ran (s : State) : Ran 0x40d s (execThermalThrottleEnd s) := by
  unfold execThermalThrottleEnd
  try dsimp only
  repeat' first
    | with_reducible apply Eff.refl | with_reducible assumption | (apply Sub.of; rfl) | (apply Has.of; rfl) | intro _ | with_reducible apply ite_eff
    | with_reducible apply ite_ran | with_reducible apply onDev_ran | (with_reducible apply Eff.step; with_reducible apply throttleOver_eff) | split
    | dsimp only [id]

theorem vioChange_eff (mv : Nat) (d : Dev) : Eff 0x400d d (vioChange mv d) := by
  unfold vioChange
  try dsimp only
  repeat' first
    | with_reducible apply Eff.refl | with_reducible assumption | (apply Sub.of; rfl) | (apply Has.of; rfl) | intro _ | with_reducible apply ite_eff
    | (with_reducible apply onlyIf_eff) | (with_reducible apply Eff.step; with_reducible apply emit_eff)
    | (with_reducible apply Eff.last; with_reducible apply Prim.sens) | split | dsimp only [id]

theorem execVioChange_ran (mv : Nat) (s : State) : Ran 0x400d s (execVioChange mv s) := by
  unfold execVioChange
  try dsimp only
  repeat' first
    | with_reducible apply Eff.refl | with_reducible assumption | (apply Sub.of; rfl) | (apply Has.of; rfl) | intro _ | with_reducible apply ite_eff
    | with_reducible apply ite_ran | with_reducible apply onDev_ran | (with_reducible apply Eff.step; with_reducible apply vioChange_eff) | split
    | dsimp only [id]

end Sys2Proof.Machine
end

