-- ==== Sys2Proof/Laws/EffComposite.lean ====
section
/-!
SUPPORT. What each function of Machine/Composite.lean can change.
-/

namespace Sys2Proof.Machine

theorem rollCall_eff (port : Nat) (r : RollRec) (d : Dev) : Eff 0x2004 d (rollCall port r d) := by
  unfold rollCall
  try dsimp only
  repeat' first
    | with_reducible apply Eff.refl | with_reducible assumption | (apply Sub.of; rfl) | (apply Has.of; rfl) | intro _ | with_reducible apply ite_eff
    | (with_reducible apply forEach_eff) | (with_reducible apply Eff.step; with_reducible apply updCmp_eff)
    | (with_reducible apply Eff.step; with_reducible apply sendRoll_eff) | split | dsimp only [id]

theorem execRollCallRx_ran (port serial prio pref anchor id : Nat) (s : State) : Ran 0x7b11f s (execRollCallRx port serial prio pref anchor id s) := by
  unfold execRollCallRx
  try dsimp only
  repeat' first
    | with_reducible apply Eff.refl | with_reducible assumption | (apply Sub.of; rfl) | (apply Has.of; rfl) | intro _ | with_reducible apply ite_eff
    | with_reducible apply ite_ran | with_reducible apply onAll_ran | (with_reducible apply Eff.step; with_reducible apply rollCall_eff) | split
    | dsimp only [id]

theorem entryIn_eff (grants : List (Nat × Nat)) (e : Nat × Nat × List Nat) (d : Dev) : Eff 0x4011d d (entryIn grants e d) := by
  unfold entryIn
  try dsimp only
  repeat' first
    | with_reducible apply Eff.refl | with_reducible assumption | (apply Sub.of; rfl) | (apply Has.of; rfl) | intro _ | with_reducible apply ite_eff
    | (with_reducible apply Eff.step; with_reducible apply bindEntry_eff)
    | (with_reducible apply Eff.step; with_reducible apply eff_fst; assumption; with_reducible apply bindEntry_eff)
    | (with_reducible apply Eff.step; with_reducible apply cfgErr_eff) | (with_reducible apply Eff.step; with_reducible apply bindDone_eff)
    | (with_reducible apply Eff.step; with_reducible apply peerEntry_eff)
    | (with_reducible apply Eff.step; with_reducible apply eff_fst; assumption; with_reducible apply peerEntry_eff) | split | dsimp only [id]

theorem entriesIn_eff (grants : List (Nat × Nat)) (d : Dev) : Eff 0x4211d d (entriesIn grants d) := by
  unfold entriesIn
  try dsimp only
  repeat' first
    | with_reducible apply Eff.refl | with_reducible assumption | (apply Sub.of; rfl) | (apply Has.of; rfl) | intro _ | with_reducible apply ite_eff
    | (with_reducible apply forEach_eff) | (with_reducible apply Eff.step; with_reducible apply updCmp_eff)
    | (with_reducible apply Eff.step; with_reducible apply entryIn_eff) | split | dsimp only [id]

theorem formComposite_eff (l : List RollRec) (a : RollRec) (full : Bool) (cvhs : List (Nat × Nat × Nat)) (lids : List (Nat × Nat))
    (grants : List (Nat × Nat)) (d : Dev) : Eff 0x4211d d (formComposite l a full cvhs lids grants d) := by
  unfold formComposite
  try dsimp only
  repeat' first
    | with_reducible apply Eff.refl | with_reducible assumption | (apply Sub.of; rfl) | (apply Has.of; rfl) | intro _ | with_reducible apply ite_eff
    | (with_reducible apply onlyIf_eff) | (with_reducible apply forEach_eff) | (with_reducible apply foldl_eff)
    | (with_reducible apply Eff.step; with_reducible apply updCmp_eff) | (with_reducible apply Eff.step; with_reducible apply updSw_eff)
    | (with_reducible apply Eff.step; with_reducible apply wr_eff) | (with_reducible apply Eff.step; with_reducible apply setRoles_eff)
    | (with_reducible apply Eff.step; with_reducible apply refreshCvh_eff) | (with_reducible apply Eff.step; with_reducible apply raise_eff)
    | (with_reducible apply Eff.step; with_reducible apply entriesIn_eff) | split | dsimp only [id]

theorem membership_eff (cvhs : List (Nat × Nat × Nat)) (lids grants : List (Nat × Nat)) (d : Dev) : Eff 0x4211d d (membership cvhs lids grants d) := by
  unfold membership
  try dsimp only
  repeat' first
    | with_reducible apply Eff.refl | with_reducible assumption | (apply Sub.of; rfl) | (apply Has.of; rfl) | intro _ | with_reducible apply ite_eff
    | (with_reducible apply Eff.step; with_reducible apply updCmp_eff) | (with_reducible apply Eff.step; with_reducible apply showCmp_eff)
    | (with_reducible apply Eff.step; with_reducible apply formComposite_eff) | split | dsimp only [id]

theorem execMembershipStable_ran (cvhs : List (Nat × Nat × Nat)) (lids grants : List (Nat × Nat)) (s : State) : Ran 0x7b11f s (execMembershipStable cvhs lids grants s) := by
  unfold execMembershipStable
  try dsimp only
  repeat' first
    | with_reducible apply Eff.refl | with_reducible assumption | (apply Sub.of; rfl) | (apply Has.of; rfl) | intro _ | with_reducible apply ite_eff
    | with_reducible apply ite_ran | with_reducible apply onAll_ran | (with_reducible apply Eff.step; with_reducible apply membership_eff) | split
    | dsimp only [id]

theorem sendHeartbeat_eff (hand : Nat) (d : Dev) : Eff 0x1811d d (sendHeartbeat hand d) := by
  unfold sendHeartbeat
  try dsimp only
  repeat' first
    | with_reducible apply Eff.refl | with_reducible assumption | (apply Sub.of; rfl) | (apply Has.of; rfl) | intro _ | with_reducible apply ite_eff
    | (with_reducible apply Eff.step; with_reducible apply emit_eff) | (with_reducible apply Eff.step; with_reducible apply sendMgmt_eff) | split
    | dsimp only [id]

theorem execHeartbeatSend_ran (s : State) : Ran 0x1811d s (execHeartbeatSend s) := by
  unfold execHeartbeatSend
  try dsimp only
  repeat' first
    | with_reducible apply Eff.refl | with_reducible assumption | (apply Sub.of; rfl) | (apply Has.of; rfl) | intro _ | with_reducible apply ite_eff
    | with_reducible apply ite_ran | (with_reducible apply onlyIf_eff) | with_reducible apply onDev_ran
    | (with_reducible apply Eff.step; with_reducible apply sendHeartbeat_eff) | split | dsimp only [id]

theorem anchorHeard_eff (anchor standby epoch : Nat) (d : Dev) : Eff 0x2009 d (anchorHeard anchor standby epoch d) := by
  unfold anchorHeard
  try dsimp only
  repeat' first
    | with_reducible apply Eff.refl | with_reducible assumption | (apply Sub.of; rfl) | (apply Has.of; rfl) | intro _ | with_reducible apply ite_eff
    | (with_reducible apply onlyIf_eff) | (with_reducible apply Eff.step; with_reducible apply wr_eff)
    | (with_reducible apply Eff.step; with_reducible apply setRoles_eff) | (with_reducible apply Eff.step; with_reducible apply addI_eff)
    | (with_reducible apply Eff.step; with_reducible apply updCmp_eff) | split | dsimp only [id]

theorem heartbeat_eff (anchor standby epoch serial : Nat) (d : Dev) : Eff 0x211d d (heartbeat anchor standby epoch serial d) := by
  unfold heartbeat
  try dsimp only
  repeat' first
    | with_reducible apply Eff.refl | with_reducible assumption | (apply Sub.of; rfl) | (apply Has.of; rfl) | intro _ | with_reducible apply ite_eff
    | (with_reducible apply onlyIf_eff) | (with_reducible apply Eff.step; with_reducible apply anchorHeard_eff)
    | (with_reducible apply Eff.step; with_reducible apply setRoles_eff) | (with_reducible apply Eff.step; with_reducible apply raise_eff) | split
    | dsimp only [id]

theorem execHeartbeatRx_ran (anchor standby epoch serial : Nat) (s : State) : Ran 0x7b11f s (execHeartbeatRx anchor standby epoch serial s) := by
  unfold execHeartbeatRx
  try dsimp only
  repeat' first
    | with_reducible apply Eff.refl | with_reducible assumption | (apply Sub.of; rfl) | (apply Has.of; rfl) | intro _ | with_reducible apply ite_eff
    | with_reducible apply ite_ran | with_reducible apply onAll_ran | (with_reducible apply Eff.step; with_reducible apply heartbeat_eff) | split
    | dsimp only [id]

theorem takeOver_eff (d : Dev) : Eff 0x211d d (takeOver d) := by
  unfold takeOver
  try dsimp only
  repeat' first
    | with_reducible apply Eff.refl | with_reducible assumption | (apply Sub.of; rfl) | (apply Has.of; rfl) | intro _ | with_reducible apply ite_eff
    | (with_reducible apply Eff.step; with_reducible apply addMod_eff) | (with_reducible apply Eff.step; with_reducible apply updCmp_eff)
    | (with_reducible apply Eff.step; with_reducible apply raise_eff) | (with_reducible apply Eff.step; with_reducible apply setRoles_eff) | split
    | dsimp only [id]

theorem hbLoss_eff (d : Dev) : Eff 0x211d d (hbLoss d) := by
  unfold hbLoss
  try dsimp only
  repeat' first
    | with_reducible apply Eff.refl | with_reducible assumption | (apply Sub.of; rfl) | (apply Has.of; rfl) | intro _ | with_reducible apply ite_eff
    | (with_reducible apply Eff.step; with_reducible apply addI_eff) | (with_reducible apply Eff.step; with_reducible apply updCmp_eff)
    | (with_reducible apply Eff.step; with_reducible apply takeOver_eff) | split | dsimp only [id]

theorem execHbLossExpire_ran (s : State) : Ran 0x7b11f s (execHbLossExpire s) := by
  unfold execHbLossExpire
  try dsimp only
  repeat' first
    | with_reducible apply Eff.refl | with_reducible assumption | (apply Sub.of; rfl) | (apply Has.of; rfl) | intro _ | with_reducible apply ite_eff
    | with_reducible apply ite_ran | with_reducible apply onAll_ran | (with_reducible apply Eff.step; with_reducible apply hbLoss_eff) | split
    | dsimp only [id]

theorem handover_eff (d : Dev) : Eff 0x1a11d d (handover d) := by
  unfold handover
  try dsimp only
  repeat' first
    | with_reducible apply Eff.refl | with_reducible assumption | (apply Sub.of; rfl) | (apply Has.of; rfl) | intro _ | with_reducible apply ite_eff
    | (with_reducible apply Eff.step; with_reducible apply sendHeartbeat_eff) | (with_reducible apply Eff.step; with_reducible apply addMod_eff)
    | (with_reducible apply Eff.step; with_reducible apply setRoles_eff) | split | dsimp only [id]

theorem execHandover_ran (told : Bool) (s : State) : Ran 0x7b11f s (execHandover told s) := by
  unfold execHandover
  try dsimp only
  repeat' first
    | with_reducible apply Eff.refl | with_reducible assumption | (apply Sub.of; rfl) | (apply Has.of; rfl) | intro _ | with_reducible apply ite_eff
    | with_reducible apply ite_ran | (with_reducible apply onlyIf_eff) | with_reducible apply onAll_ran
    | (with_reducible apply Eff.step; with_reducible apply takeOver_eff) | (with_reducible apply trigger_eff)
    | (with_reducible apply Eff.step; with_reducible apply handover_eff) | split | dsimp only [id]

end Sys2Proof.Machine
end

