-- ==== Sys2Proof/Laws/EffLane.lean ====
section
/-!
SUPPORT. What each function of Machine/Lane.lean can change.
-/

namespace Sys2Proof.Machine

theorem stepIf_eff (p step st : Nat) (d : Dev) : Eff 0x8000 d (stepIf p step st d) := by
  unfold stepIf
  try dsimp only
  repeat' first
    | with_reducible apply Eff.refl | with_reducible assumption | (apply Sub.of; rfl) | (apply Has.of; rfl) | intro _ | with_reducible apply ite_eff
    | (with_reducible apply Eff.step; with_reducible apply updPort_eff) | split | dsimp only [id]

theorem signalWake_eff (p : Nat) (d : Dev) : Eff 0x91d d (signalWake p d) := by
  unfold signalWake
  try dsimp only
  repeat' first
    | with_reducible apply Eff.refl | with_reducible assumption | (apply Sub.of; rfl) | (apply Has.of; rfl) | intro _ | with_reducible apply ite_eff
    | (with_reducible apply Eff.step; with_reducible apply wakeDom_eff) | split | dsimp only [id]

theorem laneSignalDetect_eff (n : Nat) (d : Dev) : Eff 0x891d d (laneSignalDetect n d) := by
  unfold laneSignalDetect
  try dsimp only
  repeat' first
    | with_reducible apply Eff.refl | with_reducible assumption | (apply Sub.of; rfl) | (apply Has.of; rfl) | intro _ | with_reducible apply ite_eff
    | (with_reducible apply onlyIf_eff) | (with_reducible apply Eff.step; with_reducible apply signalWake_eff)
    | (with_reducible apply Eff.step; with_reducible apply wr_eff) | (with_reducible apply Eff.step; with_reducible apply stepIf_eff)
    | (with_reducible apply Eff.step; with_reducible apply updPort_eff) | split | dsimp only [id]

theorem laneSymbolLock_eff (n : Nat) (d : Dev) : Eff 0x8001 d (laneSymbolLock n d) := by
  unfold laneSymbolLock
  try dsimp only
  repeat' first
    | with_reducible apply Eff.refl | with_reducible assumption | (apply Sub.of; rfl) | (apply Has.of; rfl) | intro _ | with_reducible apply ite_eff
    | (with_reducible apply onlyIf_eff) | (with_reducible apply Eff.step; with_reducible apply wr_eff)
    | (with_reducible apply Eff.step; with_reducible apply updLane_eff) | (with_reducible apply Eff.step; with_reducible apply stepIf_eff) | split
    | dsimp only [id]

theorem laneLockLoss_eff (n : Nat) (d : Dev) : Eff 0x8009 d (laneLockLoss n d) := by
  unfold laneLockLoss
  try dsimp only
  repeat' first
    | with_reducible apply Eff.refl | with_reducible assumption | (apply Sub.of; rfl) | (apply Has.of; rfl) | intro _ | with_reducible apply ite_eff
    | (with_reducible apply Eff.step; with_reducible apply wr_eff) | (with_reducible apply Eff.step; with_reducible apply bump_eff)
    | (with_reducible apply Eff.step; with_reducible apply updLane_eff) | split | dsimp only [id]

theorem applySubst_eff (i j : Nat) (d : Dev) : Eff 0x1 d (applySubst i j d) := by
  unfold applySubst
  try dsimp only
  repeat' first
    | with_reducible apply Eff.refl | with_reducible assumption | (apply Sub.of; rfl) | (apply Has.of; rfl) | intro _ | with_reducible apply ite_eff
    | (with_reducible apply Eff.step; with_reducible apply wr_eff) | split | dsimp only [id]

theorem decideMarkers_eff (p : Nat) (d : Dev) : Eff 0x811d d (decideMarkers p d) := by
  unfold decideMarkers
  try dsimp only
  repeat' first
    | with_reducible apply Eff.refl | with_reducible assumption | (apply Sub.of; rfl) | (apply Has.of; rfl) | intro _ | with_reducible apply ite_eff
    | (with_reducible apply onlyIf_eff) | (with_reducible apply forEach_eff) | (with_reducible apply Eff.step; with_reducible apply raise_eff)
    | (with_reducible apply Eff.step; with_reducible apply updPort_eff) | (with_reducible apply Eff.step; with_reducible apply spareRest_eff)
    | (with_reducible apply Eff.step; with_reducible apply wr_eff) | (with_reducible apply Eff.step; with_reducible apply sendMarker_eff)
    | (with_reducible apply Eff.step; with_reducible apply applySubst_eff) | split | dsimp only [id]

theorem laneMarkerRx_eff (n raw : Nat) (d : Dev) : Eff 0x811d d (laneMarkerRx n raw d) := by
  unfold laneMarkerRx
  try dsimp only
  repeat' first
    | with_reducible apply Eff.refl | with_reducible assumption | (apply Sub.of; rfl) | (apply Has.of; rfl) | intro _ | with_reducible apply ite_eff
    | (with_reducible apply Eff.step; with_reducible apply updLane_eff) | (with_reducible apply Eff.step; with_reducible apply wr_eff)
    | (with_reducible apply Eff.step; with_reducible apply decideMarkers_eff) | split | dsimp only [id]

theorem qualLane_eff (p n errs bits : Nat) (partnerFail : Bool) (d : Dev) : Eff 0x811d d (qualLane p n errs bits partnerFail d) := by
  unfold qualLane
  try dsimp only
  repeat' first
    | with_reducible apply Eff.refl | with_reducible assumption | (apply Sub.of; rfl) | (apply Has.of; rfl) | intro _ | with_reducible apply ite_eff
    | (with_reducible apply onlyIf_eff) | (with_reducible apply Eff.step; with_reducible apply wrFit_eff)
    | (with_reducible apply Eff.step; with_reducible apply wr_eff) | (with_reducible apply Eff.step; with_reducible apply updLane_eff)
    | (with_reducible apply Eff.step; with_reducible apply raise_eff) | (with_reducible apply Eff.step; with_reducible apply sendMarker_eff) | split
    | dsimp only [id]

theorem qualSpare_eff (p s : Nat) (spare : Option (Nat × Nat)) (pfail : Bool) (d : Dev) : Eff 0x811d d (qualSpare p s spare pfail d) := by
  unfold qualSpare
  try dsimp only
  repeat' first
    | with_reducible apply Eff.refl | with_reducible assumption | (apply Sub.of; rfl) | (apply Has.of; rfl) | intro _ | with_reducible apply ite_eff
    | (with_reducible apply Eff.step; with_reducible apply qualLane_eff) | (with_reducible apply Eff.step; with_reducible apply wr_eff)
    | (with_reducible apply Eff.step; with_reducible apply raise_eff) | split | dsimp only [id]

theorem judgeHeld_eff (p j : Nat) (spare : Option (Nat × Nat)) (pfail : Bool) (d : Dev) : Eff 0x811d d (judgeHeld p j spare pfail d) := by
  unfold judgeHeld
  try dsimp only
  repeat' first
    | with_reducible apply Eff.refl | with_reducible assumption | (apply Sub.of; rfl) | (apply Has.of; rfl) | intro _ | with_reducible apply ite_eff
    | (with_reducible apply onlyIf_eff) | (with_reducible apply Eff.step; with_reducible apply updLane_eff)
    | (with_reducible apply Eff.step; with_reducible apply qualSpare_eff) | (with_reducible apply Eff.step; with_reducible apply wr_eff)
    | (with_reducible apply Eff.step; with_reducible apply raise_eff) | split | dsimp only [id]

theorem substitute_eff (p : Nat) (spare : Option (Nat × Nat)) (pfail : Bool) (d : Dev) : Eff 0x811d d (substitute p spare pfail d) := by
  unfold substitute
  try dsimp only
  repeat' first
    | with_reducible apply Eff.refl | with_reducible assumption | (apply Sub.of; rfl) | (apply Has.of; rfl) | intro _ | with_reducible apply ite_eff
    | (with_reducible apply Eff.step; with_reducible apply updLane_eff) | (with_reducible apply Eff.step; with_reducible apply qualSpare_eff)
    | (with_reducible apply Eff.step; with_reducible apply applySubst_eff) | (with_reducible apply Eff.step; with_reducible apply raise_eff) | split
    | dsimp only [id]

theorem handOver_eff (p start w : Nat) (d : Dev) : Eff 0x811d d (handOver p start w d) := by
  unfold handOver
  try dsimp only
  repeat' first
    | with_reducible apply Eff.refl | with_reducible assumption | (apply Sub.of; rfl) | (apply Has.of; rfl) | intro _ | with_reducible apply ite_eff
    | (with_reducible apply onlyIf_eff) | (with_reducible apply forEach_eff) | (with_reducible apply Eff.step; with_reducible apply wr_eff)
    | (with_reducible apply Eff.step; with_reducible apply sendMarker_eff) | (with_reducible apply Eff.step; with_reducible apply emit_eff)
    | (with_reducible apply Eff.step; with_reducible apply raise_eff) | (with_reducible apply Eff.step; with_reducible apply updPort_eff)
    | (with_reducible apply Eff.step; with_reducible apply initRx_eff) | (with_reducible apply Eff.step; with_reducible apply spareRest_eff)
    | (with_reducible apply Eff.step; with_reducible apply sendInit_eff) | split | dsimp only [id]

theorem widthDecision_eff (p : Nat) (d : Dev) : Eff 0x811d d (widthDecision p d) := by
  unfold widthDecision
  try dsimp only
  repeat' first
    | with_reducible apply Eff.refl | with_reducible assumption | (apply Sub.of; rfl) | (apply Has.of; rfl) | intro _ | with_reducible apply ite_eff
    | (with_reducible apply Eff.step; with_reducible apply handOver_eff) | (with_reducible apply Eff.step; with_reducible apply updPort_eff)
    | (with_reducible apply Eff.step; with_reducible apply spareRest_eff) | split | dsimp only [id]

theorem qualificationEnd_eff (p : Nat) (res : List (Nat × Nat)) (pfail : List Nat) (spare : Option (Nat × Nat)) (d : Dev) : Eff 0x811d d (qualificationEnd p res pfail spare d) := by
  unfold qualificationEnd
  try dsimp only
  repeat' first
    | with_reducible apply Eff.refl | with_reducible assumption | (apply Sub.of; rfl) | (apply Has.of; rfl) | intro _ | with_reducible apply ite_eff
    | (with_reducible apply forEach_eff) | (with_reducible apply Eff.step; with_reducible apply qualLane_eff)
    | (with_reducible apply Eff.step; with_reducible apply judgeHeld_eff) | (with_reducible apply Eff.step; with_reducible apply substitute_eff)
    | (with_reducible apply Eff.step; with_reducible apply widthDecision_eff) | split | dsimp only [id]

theorem missLane_eff (step n : Nat) (d : Dev) : Eff 0x8009 d (missLane step n d) := by
  unfold missLane
  try dsimp only
  repeat' first
    | with_reducible apply Eff.refl | with_reducible assumption | (apply Sub.of; rfl) | (apply Has.of; rfl) | intro _ | with_reducible apply ite_eff
    | (with_reducible apply onlyIf_eff) | (with_reducible apply Eff.step; with_reducible apply bump_eff)
    | (with_reducible apply Eff.step; with_reducible apply updLane_eff) | split | dsimp only [id]

theorem bringupStepTimeout_eff (p step : Nat) (lanes : List Nat) (d : Dev) : Eff 0x811d d (bringupStepTimeout p step lanes d) := by
  unfold bringupStepTimeout
  try dsimp only
  repeat' first
    | with_reducible apply Eff.refl | with_reducible assumption | (apply Sub.of; rfl) | (apply Has.of; rfl) | intro _ | with_reducible apply ite_eff
    | (with_reducible apply forEach_eff) | (with_reducible apply Eff.step; with_reducible apply missLane_eff)
    | (with_reducible apply Eff.step; with_reducible apply startBringup_eff) | split | dsimp only [id]

theorem bringupRetryTimer_eff (p : Nat) (d : Dev) : Eff 0x811d d (bringupRetryTimer p d) := by
  unfold bringupRetryTimer
  try dsimp only
  repeat' first
    | with_reducible apply Eff.refl | with_reducible assumption | (apply Sub.of; rfl) | (apply Has.of; rfl) | intro _ | with_reducible apply ite_eff
    | (with_reducible apply onlyIf_eff) | (with_reducible apply Eff.step; with_reducible apply lanesAfresh_eff)
    | (with_reducible apply Eff.step; with_reducible apply startBringup_eff) | split | dsimp only [id]

theorem setTrimOfs_eff (n param : Nat) (v : Int) (d : Dev) : Eff 0x1 d (setTrimOfs n param v d) := by
  unfold setTrimOfs
  try dsimp only
  repeat' first
    | with_reducible apply Eff.refl | with_reducible assumption | (apply Sub.of; rfl) | (apply Has.of; rfl) | intro _ | with_reducible apply ite_eff
    | (with_reducible apply Eff.step; with_reducible apply wr_eff) | split | dsimp only [id]

theorem trimJudge_eff (n errs eye : Nat) (d : Dev) : Eff 0x9 d (trimJudge n errs eye d) := by
  unfold trimJudge
  try dsimp only
  repeat' first
    | with_reducible apply Eff.refl | with_reducible assumption | (apply Sub.of; rfl) | (apply Has.of; rfl) | intro _ | with_reducible apply ite_eff
    | (with_reducible apply Eff.step; with_reducible apply takeFree_eff) | (with_reducible apply Eff.step; with_reducible apply setTrimOfs_eff)
    | split | dsimp only [id]

theorem trimMove_eff (n : Nat) (d : Dev) : Eff 0x811d d (trimMove n d) := by
  unfold trimMove
  try dsimp only
  repeat' first
    | with_reducible apply Eff.refl | with_reducible assumption | (apply Sub.of; rfl) | (apply Has.of; rfl) | intro _ | with_reducible apply ite_eff
    | (with_reducible apply onlyIf_eff) | (with_reducible apply Eff.step; with_reducible apply takeFree_eff)
    | (with_reducible apply Eff.step; with_reducible apply setTrimOfs_eff) | (with_reducible apply Eff.step; with_reducible apply updLane_eff)
    | (with_reducible apply Eff.step; with_reducible apply raise_eff) | split | dsimp only [id]

theorem countCorr_eff (n cw : Nat) (d : Dev) : Eff 0x9 d (countCorr n cw d) := by
  unfold countCorr
  try dsimp only
  repeat' first
    | with_reducible apply Eff.refl | with_reducible assumption | (apply Sub.of; rfl) | (apply Has.of; rfl) | intro _ | with_reducible apply ite_eff
    | (with_reducible apply Eff.step; with_reducible apply addI_eff) | split | dsimp only [id]

theorem trimTick_eff (n errs cw eye : Nat) (d : Dev) : Eff 0x811d d (trimTick n errs cw eye d) := by
  unfold trimTick
  try dsimp only
  repeat' first
    | with_reducible apply Eff.refl | with_reducible assumption | (apply Sub.of; rfl) | (apply Has.of; rfl) | intro _ | with_reducible apply ite_eff
    | (with_reducible apply Eff.step; with_reducible apply addI_eff) | (with_reducible apply Eff.step; with_reducible apply countCorr_eff)
    | (with_reducible apply Eff.step; with_reducible apply wr_eff) | (with_reducible apply Eff.step; with_reducible apply trimJudge_eff)
    | (with_reducible apply Eff.step; with_reducible apply trimMove_eff) | (with_reducible apply Eff.step; with_reducible apply updLane_eff) | split
    | dsimp only [id]

theorem prbsLost_eff (n errs bits : Nat) (d : Dev) : Eff 0x11d d (prbsLost n errs bits d) := by
  unfold prbsLost
  try dsimp only
  repeat' first
    | with_reducible apply Eff.refl | with_reducible assumption | (apply Sub.of; rfl) | (apply Has.of; rfl) | intro _ | with_reducible apply ite_eff
    | (with_reducible apply onlyIf_eff) | (with_reducible apply Eff.step; with_reducible apply wr2_eff)
    | (with_reducible apply Eff.step; with_reducible apply wr_eff) | (with_reducible apply Eff.step; with_reducible apply raise_eff) | split
    | dsimp only [id]

theorem injOneTrig_eff (n : Nat) (d : Dev) : Eff 0x4 d (injOneTrig n d) := by
  unfold injOneTrig
  try dsimp only
  repeat' first
    | with_reducible apply Eff.refl | with_reducible assumption | (apply Sub.of; rfl) | (apply Has.of; rfl) | intro _ | with_reducible apply ite_eff
    | (with_reducible apply Eff.step; with_reducible apply emit_eff) | split | dsimp only [id]

theorem eyeStartTrig_eff (n : Nat) (d : Dev) : Eff 0x811d d (eyeStartTrig n d) := by
  unfold eyeStartTrig
  try dsimp only
  repeat' first
    | with_reducible apply Eff.refl | with_reducible assumption | (apply Sub.of; rfl) | (apply Has.of; rfl) | intro _ | with_reducible apply ite_eff
    | (with_reducible apply Eff.step; with_reducible apply updLane_eff) | (with_reducible apply Eff.step; with_reducible apply wr_eff)
    | (with_reducible apply Eff.step; with_reducible apply raise_eff) | split | dsimp only [id]

theorem eyeScanDone_eff (n : Nat) (errs : List Nat) (d : Dev) : Eff 0x811d d (eyeScanDone n errs d) := by
  unfold eyeScanDone
  try dsimp only
  repeat' first
    | with_reducible apply Eff.refl | with_reducible assumption | (apply Sub.of; rfl) | (apply Has.of; rfl) | intro _ | with_reducible apply ite_eff
    | (with_reducible apply Eff.step; with_reducible apply eyeStore_eff) | (with_reducible apply Eff.step; with_reducible apply takeFree_eff)
    | (with_reducible apply Eff.step; with_reducible apply wr_eff)
    | (with_reducible apply Eff.step; with_reducible apply raise_eff) | split | dsimp only [id]

theorem spareReqTrig_eff (n : Nat) (val : Word) (d : Dev) : Eff 0x811d d (spareReqTrig n val d) := by
  unfold spareReqTrig
  try dsimp only
  repeat' first
    | with_reducible apply Eff.refl | with_reducible assumption | (apply Sub.of; rfl) | (apply Has.of; rfl) | intro _ | with_reducible apply ite_eff
    | (with_reducible apply Eff.step; with_reducible apply cfgErr_eff) | (with_reducible apply Eff.step; with_reducible apply updLane_eff) | split
    | dsimp only [id]

theorem spareRelTrig_eff (n : Nat) (d : Dev) : Eff 0x8000 d (spareRelTrig n d) := by
  unfold spareRelTrig
  try dsimp only
  repeat' first
    | with_reducible apply Eff.refl | with_reducible assumption | (apply Sub.of; rfl) | (apply Has.of; rfl) | intro _ | with_reducible apply ite_eff
    | (with_reducible apply Eff.step; with_reducible apply updLane_eff) | split | dsimp only [id]

theorem execLaneSignalDetect_ran (lane : Nat) (s : State) : Ran 0x7991f s (execLaneSignalDetect lane s) := by
  unfold execLaneSignalDetect
  try dsimp only
  repeat' first
    | with_reducible apply Eff.refl | with_reducible assumption | (apply Sub.of; rfl) | (apply Has.of; rfl) | intro _ | with_reducible apply ite_eff
    | with_reducible apply ite_ran | with_reducible apply onNet_ran | (with_reducible apply Eff.step; with_reducible apply laneSignalDetect_eff)
    | split | dsimp only [id]

theorem execLaneSymbolLock_ran (lane : Nat) (s : State) : Ran 0x7911f s (execLaneSymbolLock lane s) := by
  unfold execLaneSymbolLock
  try dsimp only
  repeat' first
    | with_reducible apply Eff.refl | with_reducible assumption | (apply Sub.of; rfl) | (apply Has.of; rfl) | intro _ | with_reducible apply ite_eff
    | with_reducible apply ite_ran | with_reducible apply onNet_ran | (with_reducible apply Eff.step; with_reducible apply laneSymbolLock_eff) | split
    | dsimp only [id]

theorem execLaneLockLoss_ran (lane : Nat) (s : State) : Ran 0x7911f s (execLaneLockLoss lane s) := by
  unfold execLaneLockLoss
  try dsimp only
  repeat' first
    | with_reducible apply Eff.refl | with_reducible assumption | (apply Sub.of; rfl) | (apply Has.of; rfl) | intro _ | with_reducible apply ite_eff
    | with_reducible apply ite_ran | with_reducible apply onNet_ran | (with_reducible apply Eff.step; with_reducible apply laneLockLoss_eff) | split
    | dsimp only [id]

theorem execLaneMarkerRx_ran (lane raw : Nat) (s : State) : Ran 0x7911f s (execLaneMarkerRx lane raw s) := by
  unfold execLaneMarkerRx
  try dsimp only
  repeat' first
    | with_reducible apply Eff.refl | with_reducible assumption | (apply Sub.of; rfl) | (apply Has.of; rfl) | intro _ | with_reducible apply ite_eff
    | with_reducible apply ite_ran | with_reducible apply onNet_ran | (with_reducible apply Eff.step; with_reducible apply laneMarkerRx_eff) | split
    | dsimp only [id]

theorem execQualificationEnd_ran (port : Nat) (res : List (Nat × Nat)) (pfail : List Nat) (spare : Option (Nat × Nat))
    (s : State) : Ran 0x7911f s (execQualificationEnd port res pfail spare s) := by
  unfold execQualificationEnd
  try dsimp only
  repeat' first
    | with_reducible apply Eff.refl | with_reducible assumption | (apply Sub.of; rfl) | (apply Has.of; rfl) | intro _ | with_reducible apply ite_eff
    | with_reducible apply ite_ran | with_reducible apply onNet_ran | (with_reducible apply Eff.step; with_reducible apply qualificationEnd_eff)
    | split | dsimp only [id]

theorem execBringupStepTimeout_ran (port step : Nat) (lanes : List Nat) (s : State) : Ran 0x7911f s (execBringupStepTimeout port step lanes s) := by
  unfold execBringupStepTimeout
  try dsimp only
  repeat' first
    | with_reducible apply Eff.refl | with_reducible assumption | (apply Sub.of; rfl) | (apply Has.of; rfl) | intro _ | with_reducible apply ite_eff
    | with_reducible apply ite_ran | with_reducible apply onNet_ran | (with_reducible apply Eff.step; with_reducible apply bringupStepTimeout_eff)
    | split | dsimp only [id]

theorem execBringupRetryTimer_ran (port : Nat) (s : State) : Ran 0x7911f s (execBringupRetryTimer port s) := by
  unfold execBringupRetryTimer
  try dsimp only
  repeat' first
    | with_reducible apply Eff.refl | with_reducible assumption | (apply Sub.of; rfl) | (apply Has.of; rfl) | intro _ | with_reducible apply ite_eff
    | with_reducible apply ite_ran | with_reducible apply onNet_ran | (with_reducible apply Eff.step; with_reducible apply bringupRetryTimer_eff)
    | split | dsimp only [id]

theorem execTrimTick_ran (lane errs cw eye : Nat) (s : State) : Ran 0x7911f s (execTrimTick lane errs cw eye s) := by
  unfold execTrimTick
  try dsimp only
  repeat' first
    | with_reducible apply Eff.refl | with_reducible assumption | (apply Sub.of; rfl) | (apply Has.of; rfl) | intro _ | with_reducible apply ite_eff
    | with_reducible apply ite_ran | with_reducible apply onNet_ran | (with_reducible apply Eff.step; with_reducible apply trimTick_eff) | split
    | dsimp only [id]

theorem execPrbsLost_ran (lane errs bits : Nat) (s : State) : Ran 0x7911f s (execPrbsLost lane errs bits s) := by
  unfold execPrbsLost
  try dsimp only
  repeat' first
    | with_reducible apply Eff.refl | with_reducible assumption | (apply Sub.of; rfl) | (apply Has.of; rfl) | intro _ | with_reducible apply ite_eff
    | with_reducible apply ite_ran | with_reducible apply onNet_ran | (with_reducible apply Eff.step; with_reducible apply prbsLost_eff) | split
    | dsimp only [id]

theorem execInjOne_ran (lane : Nat) (s : State) : Ran 0x7911f s (execInjOne lane s) := by
  unfold execInjOne
  try dsimp only
  repeat' first
    | with_reducible apply Eff.refl | with_reducible assumption | (apply Sub.of; rfl) | (apply Has.of; rfl) | intro _ | with_reducible apply ite_eff
    | with_reducible apply ite_ran | with_reducible apply onNet_ran | (with_reducible apply trigger_eff)
    | (with_reducible apply Eff.step; with_reducible apply injOneTrig_eff) | split | dsimp only [id]

theorem execEyeStart_ran (lane : Nat) (s : State) : Ran 0x7911f s (execEyeStart lane s) := by
  unfold execEyeStart
  try dsimp only
  repeat' first
    | with_reducible apply Eff.refl | with_reducible assumption | (apply Sub.of; rfl) | (apply Has.of; rfl) | intro _ | with_reducible apply ite_eff
    | with_reducible apply ite_ran | with_reducible apply onNet_ran | (with_reducible apply trigger_eff)
    | (with_reducible apply Eff.step; with_reducible apply eyeStartTrig_eff) | split | dsimp only [id]

theorem execEyeAbort_ran (lane : Nat) (s : State) : Ran 0x7911f s (execEyeAbort lane s) := by
  unfold execEyeAbort
  try dsimp only
  repeat' first
    | with_reducible apply Eff.refl | with_reducible assumption | (apply Sub.of; rfl) | (apply Has.of; rfl) | intro _ | with_reducible apply ite_eff
    | with_reducible apply ite_ran | with_reducible apply onNet_ran | (with_reducible apply trigger_eff)
    | (with_reducible apply Eff.step; with_reducible apply eyeAbort_eff) | split | dsimp only [id]

theorem execEyeScanDone_ran (lane : Nat) (errs : List Nat) (s : State) : Ran 0x7911f s (execEyeScanDone lane errs s) := by
  unfold execEyeScanDone
  try dsimp only
  repeat' first
    | with_reducible apply Eff.refl | with_reducible assumption | (apply Sub.of; rfl) | (apply Has.of; rfl) | intro _ | with_reducible apply ite_eff
    | with_reducible apply ite_ran | with_reducible apply onNet_ran | (with_reducible apply Eff.step; with_reducible apply eyeScanDone_eff) | split
    | dsimp only [id]

theorem execSpareReq_ran (lane : Nat) (s : State) : Ran 0x7911f s (execSpareReq lane s) := by
  unfold execSpareReq
  try dsimp only
  repeat' first
    | with_reducible apply Eff.refl | with_reducible assumption | (apply Sub.of; rfl) | (apply Has.of; rfl) | intro _ | with_reducible apply ite_eff
    | with_reducible apply ite_ran | with_reducible apply onNet_ran | (with_reducible apply trigger_eff)
    | (with_reducible apply Eff.step; with_reducible apply spareReqTrig_eff) | split | dsimp only [id]

theorem execSpareRel_ran (lane : Nat) (s : State) : Ran 0x7911f s (execSpareRel lane s) := by
  unfold execSpareRel
  try dsimp only
  repeat' first
    | with_reducible apply Eff.refl | with_reducible assumption | (apply Sub.of; rfl) | (apply Has.of; rfl) | intro _ | with_reducible apply ite_eff
    | with_reducible apply ite_ran | with_reducible apply onNet_ran | (with_reducible apply trigger_eff)
    | (with_reducible apply Eff.step; with_reducible apply spareRelTrig_eff) | split | dsimp only [id]

end Sys2Proof.Machine
end

