-- ==== Sys2Proof/Laws/EffSched.lean ====
section
/-!
SUPPORT. What each function of Machine/Sched.lean can change.
-/

namespace Sys2Proof.Machine

theorem countUnit_eff (p q l : Nat) (tail : Bool) (d : Dev) : Eff 0x8009 d (countUnit p q l tail d) := by
  unfold countUnit
  try dsimp only
  repeat' first
    | with_reducible apply Eff.refl | with_reducible assumption | (apply Sub.of; rfl) | (apply Has.of; rfl) | intro _ | with_reducible apply ite_eff
    | (with_reducible apply onlyIf_eff) | (with_reducible apply Eff.step; with_reducible apply updSched_eff)
    | (with_reducible apply Eff.step; with_reducible apply addI_eff) | split | dsimp only [id]

theorem readCells_eff (k : Packet) (n : Nat) (d : Dev) : Eff 0x800d d (readCells k n d) := by
  unfold readCells
  try dsimp only
  repeat' first
    | with_reducible apply Eff.refl | with_reducible assumption | (apply Sub.of; rfl) | (apply Has.of; rfl) | intro _ | with_reducible apply ite_eff
    | (with_reducible apply forEach_eff) | (with_reducible apply Eff.step; with_reducible apply countRead_eff)
    | (with_reducible apply Eff.step; with_reducible apply freeCells_eff) | split | dsimp only [id]

theorem finishPkt_eff (k : Packet) (d : Dev) : Eff 0x811d d (finishPkt k d) := by
  unfold finishPkt
  try dsimp only
  repeat' first
    | with_reducible apply Eff.refl | with_reducible assumption | (apply Sub.of; rfl) | (apply Has.of; rfl) | intro _ | with_reducible apply ite_eff
    | (with_reducible apply Eff.step; with_reducible apply mirrorPkt_eff) | (with_reducible apply Eff.step; with_reducible apply readCells_eff)
    | (with_reducible apply Eff.step; with_reducible apply dropPkt_eff) | split | dsimp only [id]

theorem wireDone_eff (p : Nat) (d : Dev) : Eff 0x811d d (wireDone p d) := by
  unfold wireDone
  try dsimp only
  repeat' first
    | with_reducible apply Eff.refl | with_reducible assumption | (apply Sub.of; rfl) | (apply Has.of; rfl) | intro _ | with_reducible apply ite_eff
    | (with_reducible apply forEach_eff) | (with_reducible apply Eff.step; with_reducible apply finishPkt_eff) | split | dsimp only [id]

theorem sendFlit_eff (p q : Nat) (k : Packet) (d : Dev) : Eff 0x811d d (sendFlit p q k d) := by
  unfold sendFlit
  try dsimp only
  repeat' first
    | with_reducible apply Eff.refl | with_reducible assumption | (apply Sub.of; rfl) | (apply Has.of; rfl) | intro _ | with_reducible apply ite_eff
    | (with_reducible apply onlyIf_eff) | (with_reducible apply Eff.step; with_reducible apply sendData_eff)
    | (with_reducible apply Eff.step; with_reducible apply wr_eff) | (with_reducible apply Eff.step; with_reducible apply bump_eff)
    | (with_reducible apply Eff.step; with_reducible apply updPort_eff) | (with_reducible apply Eff.step; with_reducible apply updPkt_eff)
    | (with_reducible apply Eff.step; with_reducible apply updSched_eff) | (with_reducible apply Eff.step; with_reducible apply countUnit_eff)
    | (with_reducible apply Eff.step; with_reducible apply finishPkt_eff) | (with_reducible apply Eff.step; with_reducible apply readCells_eff)
    | split | dsimp only [id]

theorem sendFrame_eff (p q : Nat) (k : Packet) (d : Dev) : Eff 0x811d d (sendFrame p q k d) := by
  unfold sendFrame
  try dsimp only
  repeat' first
    | with_reducible apply Eff.refl | with_reducible assumption | (apply Sub.of; rfl) | (apply Has.of; rfl) | intro _ | with_reducible apply ite_eff
    | (with_reducible apply Eff.step; with_reducible apply emit_eff) | (with_reducible apply Eff.step; with_reducible apply bump_eff)
    | (with_reducible apply Eff.step; with_reducible apply updPkt_eff) | (with_reducible apply Eff.step; with_reducible apply countUnit_eff)
    | (with_reducible apply Eff.step; with_reducible apply finishPkt_eff) | split | dsimp only [id]

theorem sendTlp_eff (p q : Nat) (k : Packet) (d : Dev) : Eff 0x811d d (sendTlp p q k d) := by
  unfold sendTlp
  try dsimp only
  repeat' first
    | with_reducible apply Eff.refl | with_reducible assumption | (apply Sub.of; rfl) | (apply Has.of; rfl) | intro _ | with_reducible apply ite_eff
    | (with_reducible apply Eff.step; with_reducible apply emit_eff) | (with_reducible apply Eff.step; with_reducible apply bump_eff)
    | (with_reducible apply Eff.step; with_reducible apply updPort_eff) | (with_reducible apply Eff.step; with_reducible apply updPkt_eff)
    | (with_reducible apply Eff.step; with_reducible apply countUnit_eff) | (with_reducible apply Eff.step; with_reducible apply finishPkt_eff)
    | split | dsimp only [id]

theorem noteWaits_eff (p : Nat) (d : Dev) : Eff 0x8009 d (noteWaits p d) := by
  unfold noteWaits
  try dsimp only
  repeat' first
    | with_reducible apply Eff.refl | with_reducible assumption | (apply Sub.of; rfl) | (apply Has.of; rfl) | intro _ | with_reducible apply ite_eff
    | (with_reducible apply onlyIf_eff) | (with_reducible apply forEach_eff) | (with_reducible apply Eff.step; with_reducible apply bump_eff)
    | (with_reducible apply Eff.step; with_reducible apply updPkt_eff) | (with_reducible apply Eff.step; with_reducible apply updPort_eff) | split
    | dsimp only [id]

theorem nextUnit_eff (p : Nat) (d : Dev) : Eff 0x811d d (nextUnit p d) := by
  unfold nextUnit
  try dsimp only
  repeat' first
    | with_reducible apply Eff.refl | with_reducible assumption | (apply Sub.of; rfl) | (apply Has.of; rfl) | intro _ | with_reducible apply ite_eff
    | (with_reducible apply onlyIf_eff) | (with_reducible apply foldl_eff) | (with_reducible apply Eff.step; with_reducible apply noteWaits_eff)
    | (with_reducible apply Eff.step; with_reducible apply updSched_eff) | (with_reducible apply Eff.step; with_reducible apply sendLink_eff)
    | (with_reducible apply Eff.step; with_reducible apply wr2_eff) | (with_reducible apply Eff.step; with_reducible apply chargeShaper_eff)
    | (with_reducible apply Eff.step; with_reducible apply sendFlit_eff) | (with_reducible apply Eff.step; with_reducible apply sendFrame_eff)
    | (with_reducible apply Eff.step; with_reducible apply sendTlp_eff) | split | dsimp only [id]

theorem scheduleDecision_eff (p : Nat) (d : Dev) : Eff 0x811d d (scheduleDecision p d) := by
  unfold scheduleDecision
  try dsimp only
  repeat' first
    | with_reducible apply Eff.refl | with_reducible assumption | (apply Sub.of; rfl) | (apply Has.of; rfl) | intro _ | with_reducible apply ite_eff
    | (with_reducible apply Eff.step; with_reducible apply wireDone_eff) | (with_reducible apply Eff.step; with_reducible apply nextUnit_eff) | split
    | dsimp only [id]

theorem wheelSlotDue_eff (i : Nat) (d : Dev) : Eff 0x8000 d (wheelSlotDue i d) := by
  unfold wheelSlotDue
  try dsimp only
  repeat' first
    | with_reducible apply Eff.refl | with_reducible assumption | (apply Sub.of; rfl) | (apply Has.of; rfl) | intro _ | with_reducible apply ite_eff
    | (with_reducible apply forEach_eff) | (with_reducible apply Eff.step; with_reducible apply wheelDue_eff) | split | dsimp only [id]

theorem mtrRead_eff (bank : Nat) (d : Dev) : Eff 0x1 d (mtrRead bank d) := by
  unfold mtrRead
  try dsimp only
  repeat' first
    | with_reducible apply Eff.refl | with_reducible assumption | (apply Sub.of; rfl) | (apply Has.of; rfl) | intro _ | with_reducible apply ite_eff
    | (with_reducible apply Eff.step; with_reducible apply setWord_eff) | (with_reducible apply Eff.step; with_reducible apply wr_eff) | split
    | dsimp only [id]

theorem mtrReadClr_eff (bank : Nat) (d : Dev) : Eff 0x8001 d (mtrReadClr bank d) := by
  unfold mtrReadClr
  try dsimp only
  repeat' first
    | with_reducible apply Eff.refl | with_reducible assumption | (apply Sub.of; rfl) | (apply Has.of; rfl) | intro _ | with_reducible apply ite_eff
    | (with_reducible apply Eff.step; with_reducible apply mtrRead_eff) | (with_reducible apply Eff.step; with_reducible apply putMeter_eff) | split
    | dsimp only [id]

theorem mtrWrite_eff (bank : Nat) (val : Word) (d : Dev) : Eff 0x811d d (mtrWrite bank val d) := by
  unfold mtrWrite
  try dsimp only
  repeat' first
    | with_reducible apply Eff.refl | with_reducible assumption | (apply Sub.of; rfl) | (apply Has.of; rfl) | intro _ | with_reducible apply ite_eff
    | (with_reducible apply Eff.step; with_reducible apply putMeter_eff) | (with_reducible apply Eff.step; with_reducible apply cfgErr_eff) | split
    | dsimp only [id]

theorem execScheduleDecision_ran (port : Nat) (s : State) : Ran 0x7911f s (execScheduleDecision port s) := by
  unfold execScheduleDecision
  try dsimp only
  repeat' first
    | with_reducible apply Eff.refl | with_reducible assumption | (apply Sub.of; rfl) | (apply Has.of; rfl) | intro _ | with_reducible apply ite_eff
    | with_reducible apply ite_ran | with_reducible apply onNet_ran | (with_reducible apply Eff.step; with_reducible apply scheduleDecision_eff)
    | split | dsimp only [id]

theorem execWheelSlotDue_ran (isl : Nat) (s : State) : Ran 0x7911f s (execWheelSlotDue isl s) := by
  unfold execWheelSlotDue
  try dsimp only
  repeat' first
    | with_reducible apply Eff.refl | with_reducible assumption | (apply Sub.of; rfl) | (apply Has.of; rfl) | intro _ | with_reducible apply ite_eff
    | with_reducible apply ite_ran | with_reducible apply onNet_ran | (with_reducible apply Eff.step; with_reducible apply wheelSlotDue_eff) | split
    | dsimp only [id]

theorem execGateTransition_ran (port : Nat) (s : State) : Ran 0x7911f s (execGateTransition port s) := by
  unfold execGateTransition
  try dsimp only
  repeat' first
    | with_reducible apply Eff.refl | with_reducible assumption | (apply Sub.of; rfl) | (apply Has.of; rfl) | intro _ | with_reducible apply ite_eff
    | with_reducible apply ite_ran | with_reducible apply onNet_ran | (with_reducible apply Eff.step; with_reducible apply gateTransition_eff) | split
    | dsimp only [id]

theorem execGateSwitchRequest_ran (port : Nat) (s : State) : Ran 0x7911f s (execGateSwitchRequest port s) := by
  unfold execGateSwitchRequest
  try dsimp only
  repeat' first
    | with_reducible apply Eff.refl | with_reducible assumption | (apply Sub.of; rfl) | (apply Has.of; rfl) | intro _ | with_reducible apply ite_eff
    | with_reducible apply ite_ran | with_reducible apply onNet_ran | (with_reducible apply trigger_eff)
    | (with_reducible apply Eff.step; with_reducible apply switchTrig_eff) | split | dsimp only [id]

theorem execMtrRead_ran (bank : Nat) (s : State) : Ran 0x7911f s (execMtrRead bank s) := by
  unfold execMtrRead
  try dsimp only
  repeat' first
    | with_reducible apply Eff.refl | with_reducible assumption | (apply Sub.of; rfl) | (apply Has.of; rfl) | intro _ | with_reducible apply ite_eff
    | with_reducible apply ite_ran | with_reducible apply onNet_ran | (with_reducible apply trigger_eff)
    | (with_reducible apply Eff.step; with_reducible apply mtrRead_eff) | split | dsimp only [id]

theorem execMtrWrite_ran (bank : Nat) (s : State) : Ran 0x7911f s (execMtrWrite bank s) := by
  unfold execMtrWrite
  try dsimp only
  repeat' first
    | with_reducible apply Eff.refl | with_reducible assumption | (apply Sub.of; rfl) | (apply Has.of; rfl) | intro _ | with_reducible apply ite_eff
    | with_reducible apply ite_ran | with_reducible apply onNet_ran | (with_reducible apply trigger_eff)
    | (with_reducible apply Eff.step; with_reducible apply mtrWrite_eff) | split | dsimp only [id]

theorem execMtrReadClr_ran (bank : Nat) (s : State) : Ran 0x7911f s (execMtrReadClr bank s) := by
  unfold execMtrReadClr
  try dsimp only
  repeat' first
    | with_reducible apply Eff.refl | with_reducible assumption | (apply Sub.of; rfl) | (apply Has.of; rfl) | intro _ | with_reducible apply ite_eff
    | with_reducible apply ite_ran | with_reducible apply onNet_ran | (with_reducible apply trigger_eff)
    | (with_reducible apply Eff.step; with_reducible apply mtrReadClr_eff) | split | dsimp only [id]

end Sys2Proof.Machine
end

