-- ==== Sys2Proof/Laws/EffWrite.lean ====
section
/-!
SUPPORT. What each function of Machine/Write.lean can change.
-/

namespace Sys2Proof.Machine

theorem storeStaged_eff (ty inst off : Nat) (val : Word) (d : Dev) : Eff 0x11 d (storeStaged ty inst off val d) := by
  unfold storeStaged
  try dsimp only
  repeat' first
    | with_reducible apply Eff.refl | with_reducible assumption | (apply Sub.of; rfl) | (apply Has.of; rfl) | intro _ | with_reducible apply ite_eff
    | split | (with_reducible apply forEach_eff) | (with_reducible apply Eff.step; with_reducible apply wrI_eff)
    | (with_reducible apply Eff.last; with_reducible apply Prim.mg) | split | dsimp only [id]

theorem storeClear_eff (ty inst off : Nat) (val : Word) (d : Dev) : Eff 0x1 d (storeClear ty inst off val d) := by
  unfold storeClear
  try dsimp only
  repeat' first
    | with_reducible apply Eff.refl | with_reducible assumption | (apply Sub.of; rfl) | (apply Has.of; rfl) | intro _ | with_reducible apply ite_eff
    | (with_reducible apply forEach_eff) | (with_reducible apply Eff.step; with_reducible apply wrI_eff) | split | dsimp only [id]

theorem storeRw_eff (ty inst off : Nat) (val : Word) (d : Dev) : Eff 0x1 d (storeRw ty inst off val d) := by
  unfold storeRw
  try dsimp only
  repeat' first
    | with_reducible apply Eff.refl | with_reducible assumption | (apply Sub.of; rfl) | (apply Has.of; rfl) | intro _ | with_reducible apply ite_eff
    | (with_reducible apply Eff.step; with_reducible apply storePlain_eff) | split | dsimp only [id]

theorem storeAll_eff (ty inst off : Nat) (val : Word) (d : Dev) : Eff 0x11 d (storeAll ty inst off val d) := by
  unfold storeAll
  try dsimp only
  repeat' first
    | with_reducible apply Eff.refl | with_reducible assumption | (apply Sub.of; rfl) | (apply Has.of; rfl) | intro _ | with_reducible apply ite_eff
    | (with_reducible apply Eff.step; with_reducible apply storeRw_eff) | (with_reducible apply Eff.step; with_reducible apply storeStaged_eff)
    | (with_reducible apply Eff.step; with_reducible apply storeClear_eff) | split | dsimp only [id]

theorem injectEvents_eff (ty inst : Nat) (val : Word) (d : Dev) : Eff 0x11d d (injectEvents ty inst val d) := by
  unfold injectEvents
  try dsimp only
  repeat' first
    | with_reducible apply Eff.refl | with_reducible assumption | (apply Sub.of; rfl) | (apply Has.of; rfl) | intro _ | with_reducible apply ite_eff
    | (with_reducible apply forEach_eff) | (with_reducible apply logAlarms_eff) | (with_reducible apply Eff.step; with_reducible apply rise_eff)
    | split | dsimp only [id]

theorem softHeader_eff (ty inst : Nat) (d : Dev) : Eff 0x1 d (softHeader ty inst d) := by
  unfold softHeader
  try dsimp only
  repeat' first
    | with_reducible apply Eff.refl | with_reducible assumption | (apply Sub.of; rfl) | (apply Has.of; rfl) | intro _ | with_reducible apply ite_eff
    | (with_reducible apply Eff.step; with_reducible apply hwr_eff) | split | dsimp only [id]

theorem softStaged_eff (ty inst : Nat) (d : Dev) : Eff 0x5811d d (softStaged ty inst d) := by
  unfold softStaged
  try dsimp only
  repeat' first
    | with_reducible apply Eff.refl | with_reducible assumption | (apply Sub.of; rfl) | (apply Has.of; rfl) | intro _ | with_reducible apply ite_eff
    | split | (with_reducible apply forEach_eff) | (with_reducible apply Eff.step; with_reducible apply wrI_eff)
    | (with_reducible apply Eff.step; with_reducible apply stagedSwap_eff) | (with_reducible apply Eff.step; with_reducible apply stagedOut_eff)
    | (with_reducible apply Eff.last; with_reducible apply Prim.mg) | split | dsimp only [id]

theorem portAgain_eff (p : Nat) (d : Dev) : Eff 0x1811d d (portAgain p d) := by
  unfold portAgain
  try dsimp only
  repeat' first
    | with_reducible apply Eff.refl | with_reducible assumption | (apply Sub.of; rfl) | (apply Has.of; rfl) | intro _ | with_reducible apply ite_eff
    | (with_reducible apply onlyIf_eff) | (with_reducible apply Eff.step; with_reducible apply declareDown_eff)
    | (with_reducible apply Eff.step; with_reducible apply disablePort_eff) | (with_reducible apply Eff.step; with_reducible apply startBringup_eff)
    | split | dsimp only [id]

theorem softSlice_eff (n : Nat) (d : Dev) : Eff 0x3811f d (softSlice n d) := by
  unfold softSlice
  try dsimp only
  repeat' first
    | with_reducible apply Eff.refl | with_reducible assumption | (apply Sub.of; rfl) | (apply Has.of; rfl) | intro _ | with_reducible apply ite_eff
    | (with_reducible apply forEach_eff) | (with_reducible apply Eff.step; with_reducible apply quarantine_eff)
    | (with_reducible apply Eff.step; with_reducible apply endOps_eff) | (with_reducible apply Eff.step; with_reducible apply latchWin_eff)
    | (with_reducible apply Eff.step; with_reducible apply putQp_eff) | (with_reducible apply Eff.step; with_reducible apply sliceReset_eff)
    | (with_reducible apply Eff.step; with_reducible apply updEng_eff) | (with_reducible apply Eff.step; with_reducible apply updSlice_eff)
    | (with_reducible apply Eff.step; with_reducible apply slWr_eff) | (with_reducible apply Eff.step; with_reducible apply countSlices_eff) | split
    | dsimp only [id]

theorem softVh_eff (v : Nat) (d : Dev) : Eff 0x5811d d (softVh v d) := by
  unfold softVh
  try dsimp only
  repeat' first
    | with_reducible apply Eff.refl | with_reducible assumption | (apply Sub.of; rfl) | (apply Has.of; rfl) | intro _ | with_reducible apply ite_eff
    | (with_reducible apply onlyIf_eff) | (with_reducible apply forEach_eff) | (with_reducible apply Eff.step; with_reducible apply isolate_eff)
    | (with_reducible apply Eff.step; with_reducible apply unbindPort_eff) | (with_reducible apply Eff.step; with_reducible apply emit_eff)
    | (with_reducible apply Eff.step; with_reducible apply updSw_eff) | split | dsimp only [id]

theorem softFun_eff (v : Nat) (d : Dev) : Eff 0x3811f d (softFun v d) := by
  unfold softFun
  try dsimp only
  repeat' first
    | with_reducible apply Eff.refl | with_reducible assumption | (apply Sub.of; rfl) | (apply Has.of; rfl) | intro _ | with_reducible apply ite_eff
    | (with_reducible apply Eff.step; with_reducible apply stopFunction_eff) | (with_reducible apply Eff.step; with_reducible apply updFun_eff)
    | (with_reducible apply Eff.step; with_reducible apply updEng_eff) | split | dsimp only [id]

theorem softUnit_eff (u : Nat) (d : Dev) : Eff 0x20001 d (softUnit u d) := by
  unfold softUnit
  try dsimp only
  repeat' first
    | with_reducible apply Eff.refl | with_reducible assumption | (apply Sub.of; rfl) | (apply Has.of; rfl) | intro _ | with_reducible apply ite_eff
    | (with_reducible apply Eff.step; with_reducible apply wr_eff) | (with_reducible apply Eff.step; with_reducible apply updColl_eff) | split
    | dsimp only [id]

theorem softImages_eff (d : Dev) : Eff 0x20 d (softImages d) := by
  unfold softImages
  try dsimp only
  repeat' first
    | with_reducible apply Eff.refl | with_reducible assumption | (apply Sub.of; rfl) | (apply Has.of; rfl) | intro _ | with_reducible apply ite_eff
    | (with_reducible apply Eff.last; with_reducible apply Prim.boot) | split | dsimp only [id]

theorem softMailbox_eff (d : Dev) : Eff 0x30 d (softMailbox d) := by
  unfold softMailbox
  try dsimp only
  repeat' first
    | with_reducible apply Eff.refl | with_reducible assumption | (apply Sub.of; rfl) | (apply Has.of; rfl) | intro _ | with_reducible apply ite_eff
    | (with_reducible apply Eff.last; with_reducible apply Prim.mg) | split | dsimp only [id]

theorem softMirror_eff (d : Dev) : Eff 0x8000 d (softMirror d) := by
  unfold softMirror
  try dsimp only
  repeat' first
    | with_reducible apply Eff.refl | with_reducible assumption | (apply Sub.of; rfl) | (apply Has.of; rfl) | intro _ | with_reducible apply ite_eff
    | (with_reducible apply Eff.last; with_reducible apply Prim.net) | split | dsimp only [id]

theorem softMember_eff (d : Dev) : Eff 0x2000 d (softMember d) := by
  unfold softMember
  try dsimp only
  repeat' first
    | with_reducible apply Eff.refl | with_reducible assumption | (apply Sub.of; rfl) | (apply Has.of; rfl) | intro _ | with_reducible apply ite_eff
    | (with_reducible apply Eff.last; with_reducible apply Prim.cmp) | split | dsimp only [id]

theorem softStop_eff (ty inst : Nat) (d : Dev) : Eff 0x7a1bf d (softStop ty inst d) := by
  unfold softStop
  try dsimp only
  repeat' first
    | with_reducible apply Eff.refl | with_reducible assumption | (apply Sub.of; rfl) | (apply Has.of; rfl) | intro _ | with_reducible apply ite_eff
    | (with_reducible apply forEach_eff) | (with_reducible apply Eff.step; with_reducible apply softImages_eff)
    | (with_reducible apply Eff.step; with_reducible apply softMailbox_eff) | (with_reducible apply Eff.step; with_reducible apply updSec_eff)
    | (with_reducible apply Eff.step; with_reducible apply softUnit_eff) | (with_reducible apply Eff.step; with_reducible apply softVh_eff)
    | (with_reducible apply Eff.step; with_reducible apply softFun_eff) | (with_reducible apply Eff.step; with_reducible apply softSlice_eff)
    | (with_reducible apply Eff.step; with_reducible apply softMirror_eff) | (with_reducible apply Eff.step; with_reducible apply softMember_eff)
    | (with_reducible apply Eff.step; with_reducible apply updEng_eff) | split | dsimp only [id]

theorem softLogic_eff (ty inst : Nat) (d : Dev) : Eff 0x7931f d (softLogic ty inst d) := by
  unfold softLogic
  try dsimp only
  repeat' first
    | with_reducible apply Eff.refl | with_reducible assumption | (apply Sub.of; rfl) | (apply Has.of; rfl) | intro _ | with_reducible apply ite_eff
    | split | (with_reducible apply onlyIf_eff) | (with_reducible apply forEach_eff)
    | (with_reducible apply Eff.step; with_reducible apply timeElect_eff) | (with_reducible apply Eff.step; with_reducible apply ppsLow_eff)
    | (with_reducible apply Eff.step; (with_reducible apply updTh_eff; rfl))
    | (with_reducible apply Eff.step; (with_reducible apply updTh_eff; split <;> rfl))
    | (with_reducible apply Eff.step; with_reducible apply swapPends_eff) | (with_reducible apply Eff.step; with_reducible apply eyeAbort_eff)
    | (with_reducible apply Eff.step; with_reducible apply portAgain_eff) | (with_reducible apply Eff.step; with_reducible apply islandReset_eff)
    | (with_reducible apply Eff.step; with_reducible apply writePortEn_eff) | (with_reducible apply Eff.step; with_reducible apply ethPcsChange_eff)
    | (with_reducible apply Eff.step; with_reducible apply writeStrEn_eff) | (with_reducible apply Eff.step; with_reducible apply schedReset_eff)
    | (with_reducible apply Eff.step; with_reducible apply xltInit_eff) | (with_reducible apply Eff.step; with_reducible apply wr_eff)
    | (with_reducible apply Eff.step; with_reducible apply expCtl_eff) | (with_reducible apply Eff.step; with_reducible apply refreshCvh_eff)
    | (with_reducible apply Eff.step; with_reducible apply mirrorCfg_eff) | (with_reducible apply Eff.step; with_reducible apply updSw_eff)
    | (with_reducible apply Eff.step; with_reducible apply rollOn_eff) | (with_reducible apply Eff.last; with_reducible apply Prim.chk) | split
    | dsimp only [id]

theorem unlessRefused_eff {t : Nat} {a : Dev} (ty inst off : Nat) (before after : Dev) (h : Eff t a after) (s : Sub 0x1 t) :
    Eff t a (unlessRefused ty inst off before after) := by
  unfold unlessRefused
  repeat' first
    | with_reducible assumption | (apply Sub.via s; apply Sub.of; rfl) | with_reducible apply ite_eff | (with_reducible apply onlyIf_eff)
    | (with_reducible apply Eff.step; with_reducible apply setWord_eff) | intro _ | with_reducible apply Eff.refl

theorem softStart_eff (ty inst : Nat) (val : Word) (d : Dev) : Eff 0x7b3bf d (softStart ty inst val d) := by
  unfold softStart
  try dsimp only
  repeat' first
    | with_reducible apply Eff.refl | with_reducible assumption | (apply Sub.of; rfl) | (apply Has.of; rfl) | intro _ | with_reducible apply ite_eff
    | (with_reducible apply forEach_eff) | (with_reducible apply Eff.step; with_reducible apply cfgErr_eff)
    | (with_reducible apply Eff.step; with_reducible apply softStop_eff) | (with_reducible apply Eff.step; with_reducible apply softStaged_eff)
    | (with_reducible apply Eff.step; with_reducible apply warmField_eff) | (with_reducible apply Eff.step; with_reducible apply softHeader_eff)
    | (with_reducible apply Eff.step; with_reducible apply softLogic_eff) | (with_reducible apply Eff.last; with_reducible apply Prim.mg) | split
    | dsimp only [id]

theorem softDone_eff (ty inst : Nat) (d : Dev) : Eff 0x11d d (softDone ty inst d) := by
  unfold softDone
  try dsimp only
  repeat' first
    | with_reducible apply Eff.refl | with_reducible assumption | (apply Sub.of; rfl) | (apply Has.of; rfl) | intro _ | with_reducible apply ite_eff
    | (with_reducible apply Eff.step; with_reducible apply raiseResetDone_eff) | (with_reducible apply Eff.last; with_reducible apply Prim.mg) | split
    | dsimp only [id]

theorem ctrlWrite_eff (ty inst : Nat) (val : Word) (d : Dev) : Eff 0x7b3bf d (ctrlWrite ty inst val d) := by
  unfold ctrlWrite
  try dsimp only
  repeat' first
    | with_reducible apply Eff.refl | with_reducible assumption | (apply Sub.of; rfl) | (apply Has.of; rfl) | intro _ | with_reducible apply ite_eff
    | (with_reducible apply onlyIf_eff) | (with_reducible apply Eff.step; with_reducible apply cfgErr_eff)
    | (with_reducible apply Eff.step; with_reducible apply hwr_eff) | (with_reducible apply Eff.step; with_reducible apply discardGo_eff)
    | (with_reducible apply Eff.step; with_reducible apply commitGo_eff) | (with_reducible apply Eff.step; with_reducible apply softStart_eff) | split
    | dsimp only [id]

theorem errClear_eff (ty inst : Nat) (d : Dev) : Eff 0x1 d (errClear ty inst d) := by
  unfold errClear
  try dsimp only
  repeat' first
    | with_reducible apply Eff.refl | with_reducible assumption | (apply Sub.of; rfl) | (apply Has.of; rfl) | intro _ | with_reducible apply ite_eff
    | (with_reducible apply Eff.step; with_reducible apply hwr_eff) | split | dsimp only [id]

theorem headerWrite_eff (ty inst off : Nat) (val : Word) (d : Dev) : Eff 0x7b3bf d (headerWrite ty inst off val d) := by
  unfold headerWrite
  try dsimp only
  repeat' first
    | with_reducible apply Eff.refl | with_reducible assumption | (apply Sub.of; rfl) | (apply Has.of; rfl) | intro _ | with_reducible apply ite_eff
    | (with_reducible apply onlyIf_eff) | (with_reducible apply Eff.step; with_reducible apply ctrlWrite_eff)
    | (with_reducible apply Eff.step; with_reducible apply hwr_eff) | (with_reducible apply Eff.step; with_reducible apply storeClear_eff)
    | (with_reducible apply Eff.step; with_reducible apply injectEvents_eff) | (with_reducible apply Eff.step; with_reducible apply errClear_eff)
    | split | dsimp only [id]

theorem levelWrite_eff (val : Word) (d : Dev) : Eff 0x11d d (levelWrite val d) := by
  unfold levelWrite
  try dsimp only
  repeat' first
    | with_reducible apply Eff.refl | with_reducible assumption | (apply Sub.of; rfl) | (apply Has.of; rfl) | intro _ | with_reducible apply ite_eff
    | (with_reducible apply Eff.step; with_reducible apply cfgErr_eff) | (with_reducible apply Eff.step; with_reducible apply wr_eff) | split
    | dsimp only [id]

theorem mbxWrite_eff (val : Word) (d : Dev) : Eff 0x11 d (mbxWrite val d) := by
  unfold mbxWrite
  try dsimp only
  repeat' first
    | with_reducible apply Eff.refl | with_reducible assumption | (apply Sub.of; rfl) | (apply Has.of; rfl) | intro _ | with_reducible apply ite_eff
    | (with_reducible apply onlyIf_eff) | (with_reducible apply Eff.step; with_reducible apply storeClear_eff)
    | (with_reducible apply Eff.last; with_reducible apply Prim.mg) | split | dsimp only [id]

theorem chkLocks_eff (n : Nat) (d : Dev) : Eff 0x9 d (chkLocks n d) := by
  unfold chkLocks
  try dsimp only
  repeat' first
    | with_reducible apply Eff.refl | with_reducible assumption | (apply Sub.of; rfl) | (apply Has.of; rfl) | intro _ | with_reducible apply ite_eff
    | (with_reducible apply Eff.step; with_reducible apply wr_eff) | (with_reducible apply Eff.step; with_reducible apply takeFree_eff) | split
    | dsimp only [id]

theorem laneTest_eff (n : Nat) (val : Word) (d : Dev) : Eff 0x811d d (laneTest n val d) := by
  unfold laneTest
  try dsimp only
  repeat' first
    | with_reducible apply Eff.refl | with_reducible assumption | (apply Sub.of; rfl) | (apply Has.of; rfl) | intro _ | with_reducible apply ite_eff
    | (with_reducible apply onlyIf_eff) | (with_reducible apply Eff.step; with_reducible apply storeAll_eff)
    | (with_reducible apply Eff.step; with_reducible apply cfgErr_eff) | (with_reducible apply Eff.step; with_reducible apply wr_eff)
    | (with_reducible apply Eff.step; with_reducible apply eyeAbort_eff) | (with_reducible apply Eff.step; with_reducible apply chkLocks_eff)
    | (with_reducible apply Eff.step; with_reducible apply emit_eff) | split | dsimp only [id]

theorem linkCtl_eff (p : Nat) (val : Word) (d : Dev) : Eff 0x1811d d (linkCtl p val d) := by
  unfold linkCtl
  try dsimp only
  repeat' first
    | with_reducible apply Eff.refl | with_reducible assumption | (apply Sub.of; rfl) | (apply Has.of; rfl) | intro _ | with_reducible apply ite_eff
    | (with_reducible apply onlyIf_eff) | (with_reducible apply Eff.step; with_reducible apply writePortEn_eff)
    | (with_reducible apply Eff.step; with_reducible apply wr_eff) | (with_reducible apply Eff.step; with_reducible apply lresetTrig_eff)
    | (with_reducible apply Eff.step; with_reducible apply wakeSendTrig_eff) | split | dsimp only [id]

theorem trigsOf_eff (aux : Aux) (ty inst off : Nat) (val : Word) : AllEff 0x7bd1f (trigsOf aux ty inst off val) := by
  unfold trigsOf
  try dsimp only
  repeat' first
    | with_reducible apply Eff.refl | (apply Sub.of; rfl) | with_reducible intro _ | with_reducible apply AllEff.nil
    | with_reducible apply AllEff.cons | with_reducible apply AllEff.ite | with_reducible apply AllEff.map
    | (with_reducible apply Eff.step; with_reducible apply switchNow_eff) | (with_reducible apply Eff.step; with_reducible apply tripClr_eff)
    | (with_reducible apply Eff.step; with_reducible apply setGo_eff) | (with_reducible apply Eff.step; with_reducible apply phaseLoad_eff)
    | (with_reducible apply Eff.step; with_reducible apply hznRead_eff) | (with_reducible apply Eff.step; with_reducible apply hznWrite_eff)
    | (with_reducible apply Eff.step; with_reducible apply hznArm_eff) | (with_reducible apply Eff.step; with_reducible apply hznDisarm_eff)
    | (with_reducible apply Eff.step; with_reducible apply logClear_eff) | (with_reducible apply Eff.step; with_reducible apply logCopy_eff)
    | (with_reducible apply Eff.step; with_reducible apply injOneTrig_eff) | (with_reducible apply Eff.step; with_reducible apply eyeStartTrig_eff)
    | (with_reducible apply Eff.step; with_reducible apply eyeAbort_eff) | (with_reducible apply Eff.step; with_reducible apply spareRelTrig_eff)
    | (with_reducible apply Eff.step; with_reducible apply spareReqTrig_eff) | (with_reducible apply Eff.step; with_reducible apply islandReset_eff)
    | (with_reducible apply Eff.step; with_reducible apply switchTrig_eff) | (with_reducible apply Eff.step; with_reducible apply mtrRead_eff)
    | (with_reducible apply Eff.step; with_reducible apply mtrWrite_eff) | (with_reducible apply Eff.step; with_reducible apply mtrReadClr_eff)
    | (with_reducible apply Eff.step; with_reducible apply swapSets_eff) | (with_reducible apply Eff.step; with_reducible apply tblReadTrig_eff)
    | (with_reducible apply Eff.step; with_reducible apply tblWriteTrig_eff) | (with_reducible apply Eff.step; with_reducible apply qpcGo_eff)
    | (with_reducible apply Eff.step; with_reducible apply mrgGo_eff) | (with_reducible apply Eff.step; with_reducible apply mapRd_eff)
    | (with_reducible apply Eff.step; with_reducible apply mapWr_eff) | (with_reducible apply Eff.step; with_reducible apply mteGo_eff)
    | (with_reducible apply Eff.step; with_reducible apply cleGo_eff) | (with_reducible apply Eff.step; with_reducible apply bindGo_eff)
    | (with_reducible apply Eff.step; with_reducible apply unbindGo_eff) | (with_reducible apply Eff.step; with_reducible apply pwCmd_eff)
    | (with_reducible apply Eff.step; with_reducible apply sliceCmd_eff) | (with_reducible apply Eff.step; with_reducible apply handover_eff) | split

theorem trigsWin_eff (ty off : Nat) (val : Word) (d : Dev) : AllEff 0x1431d (trigsWin ty off val d) := by
  unfold trigsWin
  try dsimp only
  repeat' first
    | with_reducible apply Eff.refl | (apply Sub.of; rfl) | with_reducible intro _ | with_reducible apply AllEff.nil
    | with_reducible apply AllEff.cons | with_reducible apply AllEff.ite | with_reducible apply AllEff.map
    | (with_reducible apply Eff.step; with_reducible apply winRdLive_eff) | (with_reducible apply Eff.step; with_reducible apply winRdShadow_eff)
    | (with_reducible apply Eff.step; with_reducible apply winWrShadow_eff) | (with_reducible apply Eff.step; with_reducible apply commitWin_eff)
    | (with_reducible apply Eff.step; with_reducible apply winDiscard_eff) | (with_reducible apply Eff.step; with_reducible apply bwRdLive_eff)
    | (with_reducible apply Eff.step; with_reducible apply bwRdShadow_eff) | (with_reducible apply Eff.step; with_reducible apply bwWrShadow_eff)
    | (with_reducible apply Eff.step; with_reducible apply commitBwin_eff) | (with_reducible apply Eff.step; with_reducible apply bwDiscard_eff)
    | (with_reducible apply Eff.step; with_reducible apply bwErrClr_eff) | (with_reducible apply Eff.step; with_reducible apply grpRd_eff)
    | (with_reducible apply Eff.step; with_reducible apply grpWr_eff) | (with_reducible apply Eff.step; with_reducible apply commitGrp_eff)
    | (with_reducible apply Eff.step; with_reducible apply wireGo_eff) | (with_reducible apply Eff.step; with_reducible apply chkGo_eff)
    | (with_reducible apply Eff.step; with_reducible apply chkStop_eff) | split

theorem forEach_trigs {a x : Dev} {aux : Aux} {ty inst off : Nat} {val : Word} {p : Nat × (Dev → Dev) → Bool} (h : Eff 0xfff7f a x) :
    Eff 0xfff7f a (forEach ((trigsOf aux ty inst off val ++ trigsWin ty off val x).filter p) (fun t => t.2) x) := by
  refine forEach_mem_eff h fun t ht d => ?_
  have ht := (List.mem_filter.mp ht).1
  cases List.mem_append.mp ht with
  | inl k => exact Eff.mono (Sub.of rfl) (trigsOf_eff _ _ _ _ _ t k d)
  | inr k => exact Eff.mono (Sub.of rfl) (trigsWin_eff _ _ _ _ t k d)

theorem settleWord_eff (ty inst off : Nat) (d : Dev) : Eff 0x4111d d (settleWord ty inst off d) := by
  unfold settleWord
  try dsimp only
  repeat' first
    | with_reducible apply Eff.refl | with_reducible assumption | (apply Sub.of; rfl) | (apply Has.of; rfl) | intro _ | with_reducible apply ite_eff
    | (with_reducible apply onlyIf_eff) | (with_reducible apply Eff.step; with_reducible apply timeElect_eff)
    | (with_reducible apply Eff.step; with_reducible apply ppsLow_eff) | (with_reducible apply Eff.step; with_reducible apply emit_eff)
    | (with_reducible apply Eff.step; with_reducible apply wr_eff) | (with_reducible apply Eff.step; with_reducible apply refreshCvh_eff) | split
    | dsimp only [id]

theorem wordEffect_eff (aux : Aux) (ty inst off : Nat) (val : Word) (d : Dev) : Eff 0xfff7f d (wordEffect aux ty inst off val d) := by
  unfold wordEffect
  try dsimp only
  repeat' first
    | with_reducible apply Eff.refl | with_reducible assumption | (apply Sub.of; rfl) | (apply Has.of; rfl) | intro _ | with_reducible apply ite_eff
    | (with_reducible apply onlyIf_eff) | (with_reducible apply Eff.step; with_reducible apply levelWrite_eff)
    | (with_reducible apply Eff.step; with_reducible apply warmRst_eff) | (with_reducible apply Eff.step; with_reducible apply wrI_eff)
    | (with_reducible apply Eff.step; with_reducible apply mbxWrite_eff) | (with_reducible apply Eff.step; with_reducible apply pwrReq_eff)
    | (with_reducible apply Eff.step; with_reducible apply laneTest_eff) | (with_reducible apply Eff.step; with_reducible apply storeStaged_eff)
    | (with_reducible apply Eff.step; with_reducible apply writeTest_eff) | (with_reducible apply unlessRefused_eff)
    | (with_reducible apply Eff.step; with_reducible apply linkCtl_eff) | (with_reducible apply Eff.step; with_reducible apply writeStrEn_eff)
    | (with_reducible apply Eff.step; with_reducible apply expCtl_eff) | (with_reducible apply Eff.step; with_reducible apply storeAll_eff)
    | (with_reducible apply Eff.step; with_reducible apply settleWord_eff) | (with_reducible apply Eff.step; with_reducible apply sharedLowAlarm_eff)
    | (with_reducible apply forEach_trigs) | split | dsimp only [id]

theorem applyWord_eff (aux : Aux) (ty inst off : Nat) (val : Word) (d : Dev) : Eff 0xfffff d (applyWord aux ty inst off val d) := by
  unfold applyWord
  try dsimp only
  repeat' first
    | with_reducible apply Eff.refl | with_reducible assumption | (apply Sub.of; rfl) | (apply Has.of; rfl) | intro _ | with_reducible apply ite_eff
    | (with_reducible apply Eff.step; with_reducible apply headerWrite_eff) | (with_reducible apply Eff.step; with_reducible apply cfgErr_eff)
    | (with_reducible apply Eff.step; with_reducible apply dropWrite_eff) | (with_reducible apply Eff.step; with_reducible apply wordEffect_eff)
    | split | dsimp only [id]

theorem serveWord_eff (aux : Aux) (ty inst off : Nat) (val : Word) (bcast : Bool) (d : Dev) : Eff 0xfffff d (serveWord aux ty inst off val bcast d) := by
  unfold serveWord
  try dsimp only
  repeat' first
    | with_reducible apply Eff.refl | with_reducible assumption | (apply Sub.of; rfl) | (apply Has.of; rfl) | intro _ | with_reducible apply ite_eff
    | (with_reducible apply Eff.step; with_reducible apply cfgErr_eff) | (with_reducible apply serve_eff)
    | (with_reducible apply Eff.step; with_reducible apply applyWord_eff) | split | dsimp only [id]

theorem acceptWrite_eff (aux : Aux) (a : Nat) (val : Word) (d : Dev) : Eff 0xfffff d (acceptWrite aux a val d) := by
  unfold acceptWrite
  try dsimp only
  repeat' first
    | with_reducible apply Eff.refl | with_reducible assumption | (apply Sub.of; rfl) | (apply Has.of; rfl) | intro _ | with_reducible apply ite_eff
    | (with_reducible apply forEach_eff) | (with_reducible apply Eff.step; with_reducible apply serveWord_eff)
    | (with_reducible apply Eff.step; with_reducible apply dropWrite_eff) | split | dsimp only [id]

theorem pathWrite_eff (aux : Aux) (a : Nat) (val : Word) (d : Dev) : Eff 0xfffff d (pathWrite aux a val d) := by
  unfold pathWrite
  try dsimp only
  repeat' first
    | with_reducible apply Eff.refl | with_reducible assumption | (apply Sub.of; rfl) | (apply Has.of; rfl) | intro _ | with_reducible apply ite_eff
    | (with_reducible apply onlyIf_eff) | (with_reducible apply Eff.step; with_reducible apply warmRst_eff)
    | (with_reducible apply Eff.step; with_reducible apply acceptWrite_eff) | (with_reducible apply Eff.step; with_reducible apply dropWrite_eff)
    | split | dsimp only [id]

theorem pageWrite_eff (ty inst off : Nat) (val : Word) (d : Dev) : Eff 0xfffff d (pageWrite ty inst off val d) := by
  unfold pageWrite
  try dsimp only
  repeat' first
    | with_reducible apply Eff.refl | with_reducible assumption | (apply Sub.of; rfl) | (apply Has.of; rfl) | intro _ | with_reducible apply ite_eff
    | (with_reducible apply onlyIf_eff) | (with_reducible apply Eff.step; with_reducible apply pathWrite_eff) | split | dsimp only [id]

theorem execPgCommit_ran (ty inst : Nat) (enable : Bool) (s : State) : Ran 0xfffff s (execPgCommit ty inst enable s) := by
  unfold execPgCommit
  try dsimp only
  repeat' first
    | with_reducible apply Eff.refl | with_reducible assumption | (apply Sub.of; rfl) | (apply Has.of; rfl) | intro _ | with_reducible apply ite_eff
    | with_reducible apply ite_ran | with_reducible apply onAll_ran | (with_reducible apply Eff.step; with_reducible apply pageWrite_eff) | split
    | dsimp only [id]

theorem execCommitSwap_ran (ty inst : Nat) (s : State) : Ran 0x7991f s (execCommitSwap ty inst s) := by
  unfold execCommitSwap
  try dsimp only
  repeat' first
    | with_reducible apply Eff.refl | with_reducible assumption | (apply Sub.of; rfl) | (apply Has.of; rfl) | intro _ | with_reducible apply ite_eff
    | with_reducible apply ite_ran | with_reducible apply onAll_ran | (with_reducible apply Eff.step; with_reducible apply commitSwap_eff) | split
    | dsimp only [id]

theorem execPgDiscard_ran (ty inst : Nat) (enable : Bool) (s : State) : Ran 0xfffff s (execPgDiscard ty inst enable s) := by
  unfold execPgDiscard
  try dsimp only
  repeat' first
    | with_reducible apply Eff.refl | with_reducible assumption | (apply Sub.of; rfl) | (apply Has.of; rfl) | intro _ | with_reducible apply ite_eff
    | with_reducible apply ite_ran | with_reducible apply onAll_ran | (with_reducible apply Eff.step; with_reducible apply pageWrite_eff) | split
    | dsimp only [id]

theorem execPgLock_ran (ty inst : Nat) (enable : Bool) (s : State) : Ran 0xfffff s (execPgLock ty inst enable s) := by
  unfold execPgLock
  try dsimp only
  repeat' first
    | with_reducible apply Eff.refl | with_reducible assumption | (apply Sub.of; rfl) | (apply Has.of; rfl) | intro _ | with_reducible apply ite_eff
    | with_reducible apply ite_ran | with_reducible apply onAll_ran | (with_reducible apply Eff.step; with_reducible apply pageWrite_eff) | split
    | dsimp only [id]

theorem execPgSoftRst_ran (ty inst : Nat) (enable : Bool) (s : State) : Ran 0xfffff s (execPgSoftRst ty inst enable s) := by
  unfold execPgSoftRst
  try dsimp only
  repeat' first
    | with_reducible apply Eff.refl | with_reducible assumption | (apply Sub.of; rfl) | (apply Has.of; rfl) | intro _ | with_reducible apply ite_eff
    | with_reducible apply ite_ran | with_reducible apply onAll_ran | (with_reducible apply Eff.step; with_reducible apply pageWrite_eff) | split
    | dsimp only [id]

theorem execSoftResetDone_ran (ty inst : Nat) (s : State) : Ran 0x7911f s (execSoftResetDone ty inst s) := by
  unfold execSoftResetDone
  try dsimp only
  repeat' first
    | with_reducible apply Eff.refl | with_reducible assumption | (apply Sub.of; rfl) | (apply Has.of; rfl) | intro _ | with_reducible apply ite_eff
    | with_reducible apply ite_ran | with_reducible apply onAll_ran | (with_reducible apply Eff.step; with_reducible apply softDone_eff) | split
    | dsimp only [id]

theorem execPgEnableWrite_ran (ty inst : Nat) (enable : Bool) (s : State) : Ran 0xfffff s (execPgEnableWrite ty inst enable s) := by
  unfold execPgEnableWrite
  try dsimp only
  repeat' first
    | with_reducible apply Eff.refl | with_reducible assumption | (apply Sub.of; rfl) | (apply Has.of; rfl) | intro _ | with_reducible apply ite_eff
    | with_reducible apply ite_ran | with_reducible apply onAll_ran | (with_reducible apply Eff.step; with_reducible apply pageWrite_eff) | split
    | dsimp only [id]

theorem execPgEvtInj_ran (ty inst : Nat) (value : Word) (s : State) : Ran 0xfffff s (execPgEvtInj ty inst value s) := by
  unfold execPgEvtInj
  try dsimp only
  repeat' first
    | with_reducible apply Eff.refl | with_reducible assumption | (apply Sub.of; rfl) | (apply Has.of; rfl) | intro _ | with_reducible apply ite_eff
    | with_reducible apply ite_ran | with_reducible apply onAll_ran | (with_reducible apply Eff.step; with_reducible apply pageWrite_eff) | split
    | dsimp only [id]

theorem execBehaviourLevelWrite_ran (value : Word) (s : State) : Ran 0xfffff s (execBehaviourLevelWrite value s) := by
  unfold execBehaviourLevelWrite
  try dsimp only
  repeat' first
    | with_reducible apply Eff.refl | with_reducible assumption | (apply Sub.of; rfl) | (apply Has.of; rfl) | intro _ | with_reducible apply ite_eff
    | with_reducible apply ite_ran | with_reducible apply onAll_ran | (with_reducible apply Eff.step; with_reducible apply pageWrite_eff) | split
    | dsimp only [id]

end Sys2Proof.Machine
end

