-- ==== Sys2Proof/Laws/EffManagement.lean ====
section
/-!
SUPPORT. What each function of Machine/Management.lean can change.
-/

namespace Sys2Proof.Machine

theorem clearRc_eff (ty inst off : Nat) (d : Dev) : Eff 0x801 d (clearRc ty inst off d) := by
  unfold clearRc
  try dsimp only
  repeat' first
    | with_reducible apply Eff.refl | with_reducible assumption | (apply Sub.of; rfl) | (apply Has.of; rfl) | intro _ | with_reducible apply ite_eff
    | split | (with_reducible apply forEach_eff) | (with_reducible apply Eff.step; with_reducible apply wrI_eff)
    | (with_reducible apply Eff.last; with_reducible apply Prim.pw) | split | dsimp only [id]

theorem readAccess_eff (path : Path) (a : Nat) (d : Dev) : Eff 0x811 d (readAccess path a d).2 := by
  unfold readAccess
  try dsimp only
  repeat' first
    | with_reducible apply Eff.refl | with_reducible assumption | (apply Sub.of; rfl) | (apply Has.of; rfl) | intro _ | with_reducible apply ite_eff
    | with_reducible apply ite_snd | split | (with_reducible apply forEach_eff) | (with_reducible apply foldl_eff)
    | (with_reducible apply Eff.step; with_reducible apply clearRc_eff) | (with_reducible apply Eff.last; with_reducible apply Prim.mg) | split
    | dsimp only [id]

theorem sizedRead_eff (path : Path) (size a : Nat) (d : Dev) : Eff 0x811 d (sizedRead path size a d).2 := by
  unfold sizedRead
  try dsimp only
  repeat' first
    | with_reducible apply Eff.refl | with_reducible assumption | (apply Sub.of; rfl) | (apply Has.of; rfl) | intro _ | with_reducible apply ite_eff
    | with_reducible apply ite_snd | (with_reducible apply Eff.step; with_reducible apply readAccess_eff)
    | (with_reducible apply Eff.step; with_reducible apply eff_snd; assumption; with_reducible apply readAccess_eff) | split | dsimp only [id]

theorem pathRead_eff (path : Path) (size a : Nat) (d : Dev) : Eff 0x815 d (pathRead path size a d) := by
  unfold pathRead
  try dsimp only
  repeat' first
    | with_reducible apply Eff.refl | with_reducible assumption | (apply Sub.of; rfl) | (apply Has.of; rfl) | intro _ | with_reducible apply ite_eff
    | (with_reducible apply Eff.step; with_reducible apply sizedRead_eff)
    | (with_reducible apply Eff.step; with_reducible apply eff_snd; assumption; with_reducible apply sizedRead_eff)
    | (with_reducible apply Eff.step; with_reducible apply emit_eff) | split | dsimp only [id]

theorem execRcFieldRead_ran (path : Path) (acc : RegAccess) (s : State) : Ran 0x815 s (execRcFieldRead path acc s) := by
  unfold execRcFieldRead
  try dsimp only
  repeat' first
    | with_reducible apply Eff.refl | with_reducible assumption | (apply Sub.of; rfl) | (apply Has.of; rfl) | intro _ | with_reducible apply ite_eff
    | with_reducible apply ite_ran | with_reducible apply onDev_ran | (with_reducible apply Eff.step; with_reducible apply pathRead_eff) | split
    | dsimp only [id]

theorem execDevMgmtSemRead_ran (path : Path) (sem : Nat) (s : State) : Ran 0x815 s (execDevMgmtSemRead path sem s) := by
  unfold execDevMgmtSemRead
  try dsimp only
  repeat' first
    | with_reducible apply Eff.refl | with_reducible assumption | (apply Sub.of; rfl) | (apply Has.of; rfl) | intro _ | with_reducible apply ite_eff
    | with_reducible apply ite_ran | (with_reducible apply onlyIf_eff) | with_reducible apply onDev_ran
    | (with_reducible apply Eff.step; with_reducible apply pathRead_eff) | split | dsimp only [id]

theorem edIdentify_eff (p : List Byte) (d : Dev) : Eff 0x0 d (edIdentify p d).dev := by
  unfold edIdentify
  try dsimp only
  repeat' first
    | with_reducible apply Eff.refl | with_reducible assumption | (apply Sub.of; rfl) | (apply Has.of; rfl) | intro _ | with_reducible apply ite_eff
    | (with_reducible apply Eff.step; with_reducible apply edStat_eff) | (with_reducible apply Eff.step; with_reducible apply edOk_eff) | split
    | dsimp only [id]

theorem readWords_eff (path : Path) (n a : Nat) (d : Dev) : Eff 0x811 d (readWords path n a d).2 := by
  induction n generalizing a d with
  | zero => exact .refl d
  | succ n ih => exact Eff.trans (Eff.mono (Sub.of rfl) (readAccess_eff ..)) (ih _ _)

theorem sendRemote_eff (path : Path) (edurn : Bool) (tag m a : Nat) (isWrite : Bool) (vals : List Nat) (d : Dev) : Eff 0x1811d d (sendRemote path edurn tag m a isWrite vals d) := by
  unfold sendRemote
  try dsimp only
  repeat' first
    | with_reducible apply Eff.refl | with_reducible assumption | (apply Sub.of; rfl) | (apply Has.of; rfl) | intro _ | with_reducible apply ite_eff
    | (with_reducible apply forEach_eff) | (with_reducible apply Eff.step; with_reducible apply emit_eff)
    | (with_reducible apply Eff.step; with_reducible apply sendMgmt_eff) | (with_reducible apply Eff.last; with_reducible apply Prim.mg) | split
    | dsimp only [id]

theorem edRegRead_eff (path : Path) (tag : Nat) (p : List Byte) (d : Dev) : Eff 0x1891d d (edRegRead path tag p d).dev := by
  unfold edRegRead
  try dsimp only
  repeat' first
    | with_reducible apply Eff.refl | with_reducible assumption | (apply Sub.of; rfl) | (apply Has.of; rfl) | intro _ | with_reducible apply ite_eff
    | (with_reducible apply Eff.step; with_reducible apply edStat_eff) | (with_reducible apply Eff.step; with_reducible apply readWords_eff)
    | (with_reducible apply Eff.step; with_reducible apply eff_snd; assumption; with_reducible apply readWords_eff)
    | (with_reducible apply Eff.step; with_reducible apply edOk_eff) | (with_reducible apply Eff.step; with_reducible apply sendRemote_eff) | split
    | dsimp only [id]

theorem writeNoting_eff (aux : Aux) (a : Nat) (val : Word) (d : Dev) : Eff 0xfffff d (writeNoting aux a val d).2 := by
  unfold writeNoting
  try dsimp only
  repeat' first
    | with_reducible apply Eff.refl | with_reducible assumption | (apply Sub.of; rfl) | (apply Has.of; rfl) | intro _ | with_reducible apply ite_eff
    | with_reducible apply ite_snd | (with_reducible apply Eff.step; with_reducible apply wr_eff)
    | (with_reducible apply Eff.step; with_reducible apply acceptWrite_eff) | split | dsimp only [id]

theorem writeWords_eff (aux : Aux) (l : List Nat) (a : Nat) (d : Dev) : Eff 0xfffff d (writeWords aux l a d).2 := by
  induction l generalizing a d with
  | nil => exact .refl d
  | cons v l ih =>
    unfold writeWords
    dsimp only
    split
    · exact Eff.trans (Eff.mono (Sub.of rfl) (writeNoting_eff ..)) (ih _ _)
    · exact Eff.mono (Sub.of rfl) (writeNoting_eff ..)

theorem edRefused_eff (code : Nat) (d : Dev) : Eff 0x0 d (edRefused code d).dev := by
  unfold edRefused
  try dsimp only
  repeat' first
    | with_reducible apply Eff.refl | with_reducible assumption | (apply Sub.of; rfl) | (apply Has.of; rfl) | intro _ | with_reducible apply ite_eff
    | split | dsimp only [id]

theorem edRegWrite_eff (aux : Aux) (path : Path) (tag : Nat) (p : List Byte) (d : Dev) : Eff 0xfffff d (edRegWrite aux path tag p d).dev := by
  unfold edRegWrite
  try dsimp only
  repeat' first
    | with_reducible apply Eff.refl | with_reducible assumption | (apply Sub.of; rfl) | (apply Has.of; rfl) | intro _ | with_reducible apply ite_eff
    | (with_reducible apply Eff.step; with_reducible apply edStat_eff) | (with_reducible apply Eff.step; with_reducible apply writeWords_eff)
    | (with_reducible apply Eff.step; with_reducible apply eff_snd; assumption; with_reducible apply writeWords_eff)
    | (with_reducible apply Eff.step; with_reducible apply edOk_eff) | (with_reducible apply Eff.step; with_reducible apply edRefused_eff)
    | (with_reducible apply Eff.step; with_reducible apply sendRemote_eff) | split | dsimp only [id]

theorem edEvents_eff (p : List Byte) (d : Dev) : Eff 0x10 d (edEvents p d).dev := by
  unfold edEvents
  try dsimp only
  repeat' first
    | with_reducible apply Eff.refl | with_reducible assumption | (apply Sub.of; rfl) | (apply Has.of; rfl) | intro _ | with_reducible apply ite_eff
    | split | (with_reducible apply Eff.step; with_reducible apply edStat_eff) | (with_reducible apply Eff.step; with_reducible apply edOk_eff)
    | (with_reducible apply Eff.last; with_reducible apply Prim.mg) | split | dsimp only [id]

theorem edSensors_eff (p : List Byte) (d : Dev) : Eff 0x0 d (edSensors p d).dev := by
  unfold edSensors
  try dsimp only
  repeat' first
    | with_reducible apply Eff.refl | with_reducible assumption | (apply Sub.of; rfl) | (apply Has.of; rfl) | intro _ | with_reducible apply ite_eff
    | (with_reducible apply Eff.step; with_reducible apply edStat_eff) | (with_reducible apply Eff.step; with_reducible apply edOk_eff) | split
    | dsimp only [id]

theorem exportChunk_eff (n : Nat) (d : Dev) : Eff 0x0 d (exportChunk n d).dev := by
  unfold exportChunk
  try dsimp only
  repeat' first
    | with_reducible apply Eff.refl | with_reducible assumption | (apply Sub.of; rfl) | (apply Has.of; rfl) | intro _ | with_reducible apply ite_eff
    | (with_reducible apply Eff.step; with_reducible apply edStat_eff) | (with_reducible apply Eff.step; with_reducible apply edOk_eff) | split
    | dsimp only [id]

theorem edExport_eff (p : List Byte) (d : Dev) : Eff 0x20 d (edExport p d).dev := by
  unfold edExport
  try dsimp only
  repeat' first
    | with_reducible apply Eff.refl | with_reducible assumption | (apply Sub.of; rfl) | (apply Has.of; rfl) | intro _ | with_reducible apply ite_eff
    | split | (with_reducible apply Eff.step; with_reducible apply edStat_eff) | (with_reducible apply Eff.step; with_reducible apply edRefused_eff)
    | (with_reducible apply Eff.step; with_reducible apply exportChunk_eff) | (with_reducible apply Eff.last; with_reducible apply Prim.boot) | split
    | dsimp only [id]

theorem putSlot_eff (k : Nat) (m : SMap Byte) (valid : Bool) (d : Dev) : Eff 0x20 d (putSlot k m valid d) := by
  unfold putSlot
  try dsimp only
  repeat' first
    | with_reducible apply Eff.refl | with_reducible assumption | (apply Sub.of; rfl) | (apply Has.of; rfl) | intro _ | with_reducible apply ite_eff
    | (with_reducible apply Eff.last; with_reducible apply Prim.boot) | split | dsimp only [id]

theorem importChunk_eff (n : Nat) (data : List Byte) (d : Dev) : Eff 0x20 d (importChunk n data d).dev := by
  unfold importChunk
  try dsimp only
  repeat' first
    | with_reducible apply Eff.refl | with_reducible assumption | (apply Sub.of; rfl) | (apply Has.of; rfl) | intro _ | with_reducible apply ite_eff
    | split | (with_reducible apply Eff.step; with_reducible apply edStat_eff) | (with_reducible apply Eff.step; with_reducible apply putSlot_eff)
    | (with_reducible apply Eff.step; with_reducible apply edOk_eff) | (with_reducible apply Eff.last; with_reducible apply Prim.boot) | split
    | dsimp only [id]

theorem importClear_eff (d : Dev) : Eff 0x20 d (importClear d).dev := by
  unfold importClear
  try dsimp only
  repeat' first
    | with_reducible apply Eff.refl | with_reducible assumption | (apply Sub.of; rfl) | (apply Has.of; rfl) | intro _ | with_reducible apply ite_eff
    | (with_reducible apply Eff.step; with_reducible apply putSlot_eff) | (with_reducible apply Eff.step; with_reducible apply edOk_eff)
    | (with_reducible apply Eff.last; with_reducible apply Prim.boot) | split | dsimp only [id]

theorem importTable_eff (m : SMap Byte) (d : Dev) : Eff 0x20 d (importTable m d) := by
  unfold importTable
  try dsimp only
  repeat' first
    | with_reducible apply Eff.refl | with_reducible assumption | (apply Sub.of; rfl) | (apply Has.of; rfl) | intro _ | with_reducible apply ite_eff
    | split | (with_reducible apply Eff.last; with_reducible apply Prim.boot) | split | dsimp only [id]

theorem importCommit_eff (d : Dev) : Eff 0x13d d (importCommit d).dev := by
  unfold importCommit
  try dsimp only
  repeat' first
    | with_reducible apply Eff.refl | with_reducible assumption | (apply Sub.of; rfl) | (apply Has.of; rfl) | intro _ | with_reducible apply ite_eff
    | split | (with_reducible apply Eff.step; with_reducible apply edRefused_eff) | (with_reducible apply Eff.step; with_reducible apply cfgErr_eff)
    | (with_reducible apply Eff.step; with_reducible apply importTable_eff) | (with_reducible apply Eff.step; with_reducible apply putSlot_eff)
    | (with_reducible apply Eff.step; with_reducible apply edOk_eff) | (with_reducible apply Eff.last; with_reducible apply Prim.boot) | split
    | dsimp only [id]

theorem edImport_eff (p : List Byte) (d : Dev) : Eff 0x13d d (edImport p d).dev := by
  unfold edImport
  try dsimp only
  repeat' first
    | with_reducible apply Eff.refl | with_reducible assumption | (apply Sub.of; rfl) | (apply Has.of; rfl) | intro _ | with_reducible apply ite_eff
    | (with_reducible apply Eff.step; with_reducible apply edStat_eff) | (with_reducible apply Eff.step; with_reducible apply importCommit_eff)
    | (with_reducible apply Eff.step; with_reducible apply importClear_eff) | (with_reducible apply Eff.step; with_reducible apply importChunk_eff)
    | split | dsimp only [id]

theorem edReset_eff (p : List Byte) (d : Dev) : Eff 0x0 d (edReset p d).dev := by
  unfold edReset
  try dsimp only
  repeat' first
    | with_reducible apply Eff.refl | with_reducible assumption | (apply Sub.of; rfl) | (apply Has.of; rfl) | intro _ | with_reducible apply ite_eff
    | (with_reducible apply Eff.step; with_reducible apply edStat_eff) | split | dsimp only [id]

theorem edComposite_eff (p : List Byte) (d : Dev) : Eff 0x0 d (edComposite p d).dev := by
  unfold edComposite
  try dsimp only
  repeat' first
    | with_reducible apply Eff.refl | with_reducible assumption | (apply Sub.of; rfl) | (apply Has.of; rfl) | intro _ | with_reducible apply ite_eff
    | (with_reducible apply Eff.step; with_reducible apply edStat_eff) | (with_reducible apply Eff.step; with_reducible apply edOk_eff) | split
    | dsimp only [id]

theorem edAct_eff (aux : Aux) (opc : Nat) (path : Path) (tag : Nat) (p : List Byte) (d : Dev) : Eff 0xfffff d (edAct aux opc path tag p d).dev := by
  unfold edAct
  try dsimp only
  repeat' first
    | with_reducible apply Eff.refl | with_reducible assumption | (apply Sub.of; rfl) | (apply Has.of; rfl) | intro _ | with_reducible apply ite_eff
    | (with_reducible apply Eff.step; with_reducible apply edIdentify_eff) | (with_reducible apply Eff.step; with_reducible apply edRegRead_eff)
    | (with_reducible apply Eff.step; with_reducible apply edRegWrite_eff) | (with_reducible apply Eff.step; with_reducible apply edEvents_eff)
    | (with_reducible apply Eff.step; with_reducible apply logRead_eff) | (with_reducible apply Eff.step; with_reducible apply edSensors_eff)
    | (with_reducible apply Eff.step; with_reducible apply edExport_eff) | (with_reducible apply Eff.step; with_reducible apply edImport_eff)
    | (with_reducible apply Eff.step; with_reducible apply fwStage_eff) | (with_reducible apply Eff.step; with_reducible apply fwActivate_eff)
    | (with_reducible apply Eff.step; with_reducible apply edReset_eff) | (with_reducible apply Eff.step; with_reducible apply lifecycle_eff)
    | (with_reducible apply Eff.step; with_reducible apply edComposite_eff) | (with_reducible apply Eff.step; with_reducible apply edStat_eff) | split
    | dsimp only [id]

theorem mbxRun_eff (aux : Aux) (d : Dev) : Eff 0xfffff d (mbxRun aux d) := by
  unfold mbxRun
  try dsimp only
  repeat' first
    | with_reducible apply Eff.refl | with_reducible assumption | (apply Sub.of; rfl) | (apply Has.of; rfl) | intro _ | with_reducible apply ite_eff
    | (with_reducible apply Eff.step; with_reducible apply edAnswer_eff) | (with_reducible apply edServe_eff)
    | (with_reducible apply Eff.step; with_reducible apply edAct_eff) | (with_reducible apply Eff.last; with_reducible apply Prim.mg) | split
    | dsimp only [id]

theorem sizedWrite_eff (aux : Aux) (size a : Nat) (val : BitVec 64) (d : Dev) : Eff 0xfffff d (sizedWrite aux size a val d) := by
  unfold sizedWrite
  try dsimp only
  repeat' first
    | with_reducible apply Eff.refl | with_reducible assumption | (apply Sub.of; rfl) | (apply Has.of; rfl) | intro _ | with_reducible apply ite_eff
    | (with_reducible apply Eff.step; with_reducible apply pathWrite_eff) | (with_reducible apply Eff.step; with_reducible apply mbxRun_eff) | split
    | dsimp only [id]

theorem execRegisterWrite_ran (acc : RegAccess) (value : BitVec 64) (aux : Aux) (s : State) : Ran 0xfffff s (execRegisterWrite acc value aux s) := by
  unfold execRegisterWrite
  try dsimp only
  repeat' first
    | with_reducible apply Eff.refl | with_reducible assumption | (apply Sub.of; rfl) | (apply Has.of; rfl) | intro _ | with_reducible apply ite_eff
    | with_reducible apply ite_ran | with_reducible apply onAll_ran | (with_reducible apply Eff.step; with_reducible apply sizedWrite_eff) | split
    | dsimp only [id]

theorem edRow_ran (opc : Nat) (path : Path) (tag : Nat) (payload : List Byte) (s : State) : Ran 0xfffff s (edRow opc path tag payload s) := by
  unfold edRow
  try dsimp only
  repeat' first
    | with_reducible apply Eff.refl | with_reducible assumption | (apply Sub.of; rfl) | (apply Has.of; rfl) | intro _ | with_reducible apply ite_eff
    | with_reducible apply ite_ran | with_reducible apply onAll_ran | (with_reducible apply edCommand_eff)
    | (with_reducible apply Eff.step; with_reducible apply edAct_eff) | (with_reducible apply Eff.step; with_reducible apply mbxRun_eff) | split
    | dsimp only [id]

theorem execIdentify_ran (path : Path) (tag : Nat) (payload : List Byte) (s : State) : Ran 0xfffff s (execIdentify path tag payload s) := by
  unfold execIdentify
  try dsimp only
  repeat' first
    | with_reducible apply Eff.refl | with_reducible assumption | (apply Sub.of; rfl) | (apply Has.of; rfl) | intro _ | with_reducible apply ite_eff
    | with_reducible apply ite_ran | with_reducible apply edRow_ran | split | dsimp only [id]

theorem execRegRead_ran (path : Path) (tag : Nat) (payload : List Byte) (s : State) : Ran 0xfffff s (execRegRead path tag payload s) := by
  unfold execRegRead
  try dsimp only
  repeat' first
    | with_reducible apply Eff.refl | with_reducible assumption | (apply Sub.of; rfl) | (apply Has.of; rfl) | intro _ | with_reducible apply ite_eff
    | with_reducible apply ite_ran | with_reducible apply edRow_ran | split | dsimp only [id]

theorem execRegWrite_ran (path : Path) (tag : Nat) (payload : List Byte) (aux : Aux) (s : State) : Ran 0xfffff s (execRegWrite path tag payload aux s) := by
  unfold execRegWrite
  try dsimp only
  repeat' first
    | with_reducible apply Eff.refl | with_reducible assumption | (apply Sub.of; rfl) | (apply Has.of; rfl) | intro _ | with_reducible apply ite_eff
    | with_reducible apply ite_ran | with_reducible apply onAll_ran | (with_reducible apply edCommand_eff)
    | (with_reducible apply Eff.step; with_reducible apply edRegWrite_eff) | (with_reducible apply Eff.step; with_reducible apply mbxRun_eff) | split
    | dsimp only [id]

theorem execEvents_ran (path : Path) (tag : Nat) (payload : List Byte) (s : State) : Ran 0xfffff s (execEvents path tag payload s) := by
  unfold execEvents
  try dsimp only
  repeat' first
    | with_reducible apply Eff.refl | with_reducible assumption | (apply Sub.of; rfl) | (apply Has.of; rfl) | intro _ | with_reducible apply ite_eff
    | with_reducible apply ite_ran | with_reducible apply edRow_ran | split | dsimp only [id]

theorem execLogRead_ran (path : Path) (tag : Nat) (payload : List Byte) (s : State) : Ran 0xfffff s (execLogRead path tag payload s) := by
  unfold execLogRead
  try dsimp only
  repeat' first
    | with_reducible apply Eff.refl | with_reducible assumption | (apply Sub.of; rfl) | (apply Has.of; rfl) | intro _ | with_reducible apply ite_eff
    | with_reducible apply ite_ran | with_reducible apply edRow_ran | split | dsimp only [id]

theorem execSensors_ran (path : Path) (tag : Nat) (payload : List Byte) (s : State) : Ran 0xfffff s (execSensors path tag payload s) := by
  unfold execSensors
  try dsimp only
  repeat' first
    | with_reducible apply Eff.refl | with_reducible assumption | (apply Sub.of; rfl) | (apply Has.of; rfl) | intro _ | with_reducible apply ite_eff
    | with_reducible apply ite_ran | with_reducible apply edRow_ran | split | dsimp only [id]

theorem execImageExport_ran (path : Path) (tag : Nat) (payload : List Byte) (s : State) : Ran 0xfffff s (execImageExport path tag payload s) := by
  unfold execImageExport
  try dsimp only
  repeat' first
    | with_reducible apply Eff.refl | with_reducible assumption | (apply Sub.of; rfl) | (apply Has.of; rfl) | intro _ | with_reducible apply ite_eff
    | with_reducible apply ite_ran | with_reducible apply edRow_ran | split | dsimp only [id]

theorem execExportSnapshotExpire_ran (s : State) : Ran 0x20 s (execExportSnapshotExpire s) := by
  unfold execExportSnapshotExpire
  try dsimp only
  repeat' first
    | with_reducible apply Eff.refl | with_reducible assumption | (apply Sub.of; rfl) | (apply Has.of; rfl) | intro _ | with_reducible apply ite_eff
    | with_reducible apply ite_ran | with_reducible apply onDev_ran | (with_reducible apply Eff.last; with_reducible apply Prim.boot) | split
    | dsimp only [id]

theorem execImageImport_ran (path : Path) (tag chunk : Nat) (data : List Byte) (s : State) : Ran 0xfffff s (execImageImport path tag chunk data s) := by
  unfold execImageImport
  try dsimp only
  repeat' first
    | with_reducible apply Eff.refl | with_reducible assumption | (apply Sub.of; rfl) | (apply Has.of; rfl) | intro _ | with_reducible apply ite_eff
    | with_reducible apply ite_ran | with_reducible apply edRow_ran | split | dsimp only [id]

theorem execImageImportCommit_ran (path : Path) (tag : Nat) (s : State) : Ran 0xfffff s (execImageImportCommit path tag s) := by
  unfold execImageImportCommit
  try dsimp only
  repeat' first
    | with_reducible apply Eff.refl | with_reducible assumption | (apply Sub.of; rfl) | (apply Has.of; rfl) | intro _ | with_reducible apply ite_eff
    | with_reducible apply ite_ran | with_reducible apply edRow_ran | split | dsimp only [id]

theorem execImageImportClear_ran (path : Path) (tag : Nat) (s : State) : Ran 0xfffff s (execImageImportClear path tag s) := by
  unfold execImageImportClear
  try dsimp only
  repeat' first
    | with_reducible apply Eff.refl | with_reducible assumption | (apply Sub.of; rfl) | (apply Has.of; rfl) | intro _ | with_reducible apply ite_eff
    | with_reducible apply ite_ran | with_reducible apply edRow_ran | split | dsimp only [id]

theorem execReset_ran (path : Path) (tag : Nat) (payload : List Byte) (s : State) : Ran 0xfffff s (execReset path tag payload s) := by
  unfold execReset
  try dsimp only
  repeat' first
    | with_reducible apply Eff.refl | with_reducible assumption | (apply Sub.of; rfl) | (apply Has.of; rfl) | intro _ | with_reducible apply ite_eff
    | with_reducible apply ite_ran | with_reducible apply edRow_ran | split | dsimp only [id]

theorem execComposite_ran (path : Path) (tag : Nat) (payload : List Byte) (s : State) : Ran 0xfffff s (execComposite path tag payload s) := by
  unfold execComposite
  try dsimp only
  repeat' first
    | with_reducible apply Eff.refl | with_reducible assumption | (apply Sub.of; rfl) | (apply Has.of; rfl) | intro _ | with_reducible apply ite_eff
    | with_reducible apply ite_ran | with_reducible apply edRow_ran | split | dsimp only [id]

theorem otherFrame_eff (opc : Nat) (path : Path) (tag len : Nat) (crcOk : Bool) (payload : List Byte) (d : Dev) : Eff 0xfffff d (otherFrame opc path tag len crcOk payload d) := by
  unfold otherFrame
  try dsimp only
  repeat' first
    | with_reducible apply Eff.refl | with_reducible assumption | (apply Sub.of; rfl) | (apply Has.of; rfl) | intro _ | with_reducible apply ite_eff
    | (with_reducible apply Eff.step; with_reducible apply edAnswer_eff) | (with_reducible apply edServe_eff)
    | (with_reducible apply Eff.step; with_reducible apply edAct_eff) | split | dsimp only [id]

theorem execEdurnOtherOpcode_ran (opc : Nat) (path : Path) (tag len : Nat) (crcOk : Bool) (payload : List Byte) (s : State) : Ran 0xfffff s (execEdurnOtherOpcode opc path tag len crcOk payload s) := by
  unfold execEdurnOtherOpcode
  try dsimp only
  repeat' first
    | with_reducible apply Eff.refl | with_reducible assumption | (apply Sub.of; rfl) | (apply Has.of; rfl) | intro _ | with_reducible apply ite_eff
    | with_reducible apply ite_ran | with_reducible apply onAll_ran | (with_reducible apply Eff.step; with_reducible apply otherFrame_eff)
    | (with_reducible apply Eff.step; with_reducible apply mbxRun_eff) | split | dsimp only [id]

theorem execIbiRaise_ran (s : State) : Ran 0x14 s (execIbiRaise s) := by
  unfold execIbiRaise
  try dsimp only
  repeat' first
    | with_reducible apply Eff.refl | with_reducible assumption | (apply Sub.of; rfl) | (apply Has.of; rfl) | intro _ | with_reducible apply ite_eff
    | with_reducible apply ite_ran | (with_reducible apply onlyIf_eff) | with_reducible apply onDev_ran
    | (with_reducible apply Eff.step; with_reducible apply emit_eff) | (with_reducible apply Eff.last; with_reducible apply Prim.mg) | split
    | dsimp only [id]

theorem execI3cEntdaa_ran (addr : Nat) (s : State) : Ran 0x10 s (execI3cEntdaa addr s) := by
  unfold execI3cEntdaa
  try dsimp only
  repeat' first
    | with_reducible apply Eff.refl | with_reducible assumption | (apply Sub.of; rfl) | (apply Has.of; rfl) | intro _ | with_reducible apply ite_eff
    | with_reducible apply ite_ran | (with_reducible apply onlyIf_eff) | with_reducible apply onDev_ran
    | (with_reducible apply Eff.last; with_reducible apply Prim.mg) | split | dsimp only [id]

theorem responseRead_eff (d : Dev) : Eff 0xc017d d (responseRead d) := by
  unfold responseRead
  try dsimp only
  repeat' first
    | with_reducible apply Eff.refl | with_reducible assumption | (apply Sub.of; rfl) | (apply Has.of; rfl) | intro _ | with_reducible apply ite_eff
    | split | (with_reducible apply Eff.step; with_reducible apply emit_eff) | (with_reducible apply Eff.step; with_reducible apply afterResponse_eff)
    | (with_reducible apply Eff.last; with_reducible apply Prim.mg) | split | dsimp only [id]

theorem execI3cResponseRead_ran (s : State) : Ran 0xc017d s (execI3cResponseRead s) := by
  unfold execI3cResponseRead
  try dsimp only
  repeat' first
    | with_reducible apply Eff.refl | with_reducible assumption | (apply Sub.of; rfl) | (apply Has.of; rfl) | intro _ | with_reducible apply ite_eff
    | with_reducible apply ite_ran | with_reducible apply onDev_ran | (with_reducible apply Eff.step; with_reducible apply responseRead_eff) | split
    | dsimp only [id]

theorem remoteFail_eff (event : Bool) (d : Dev) : Eff 0x11d d (remoteFail event d) := by
  unfold remoteFail
  try dsimp only
  repeat' first
    | with_reducible apply Eff.refl | with_reducible assumption | (apply Sub.of; rfl) | (apply Has.of; rfl) | intro _ | with_reducible apply ite_eff
    | (with_reducible apply onlyIf_eff) | (with_reducible apply Eff.step; with_reducible apply bump_eff)
    | (with_reducible apply Eff.step; with_reducible apply raise_eff) | split | dsimp only [id]

theorem windowData_eff (m a v : Nat) (d : Dev) : Eff 0x4 d (windowData m a v d) := by
  unfold windowData
  try dsimp only
  repeat' first
    | with_reducible apply Eff.refl | with_reducible assumption | (apply Sub.of; rfl) | (apply Has.of; rfl) | intro _ | with_reducible apply ite_eff
    | (with_reducible apply Eff.step; with_reducible apply emit_eff) | split | dsimp only [id]

theorem windowAccess_eff (write : Bool) (m a size : Nat) (val : BitVec 64) (aux : Aux) (d : Dev) : Eff 0xfffff d (windowAccess write m a size val aux d) := by
  unfold windowAccess
  try dsimp only
  repeat' first
    | with_reducible apply Eff.refl | with_reducible assumption | (apply Sub.of; rfl) | (apply Has.of; rfl) | intro _ | with_reducible apply ite_eff
    | (with_reducible apply onlyIf_eff) | (with_reducible apply forEach_eff) | (with_reducible apply Eff.step; with_reducible apply windowData_eff)
    | (with_reducible apply Eff.step; with_reducible apply sizedWrite_eff) | (with_reducible apply Eff.step; with_reducible apply sizedRead_eff)
    | (with_reducible apply Eff.step; with_reducible apply eff_snd; assumption; with_reducible apply sizedRead_eff)
    | (with_reducible apply Eff.step; with_reducible apply dropWrite_eff) | (with_reducible apply Eff.step; with_reducible apply sendRemote_eff)
    | (with_reducible apply Eff.step; with_reducible apply remoteFail_eff) | split | dsimp only [id]

theorem execCompositeWindowAccess_ran (write : Bool) (member : Nat) (acc : RegAccess) (value : BitVec 64) (aux : Aux) (s : State) : Ran 0xfffff s (execCompositeWindowAccess write member acc value aux s) := by
  unfold execCompositeWindowAccess
  try dsimp only
  repeat' first
    | with_reducible apply Eff.refl | with_reducible assumption | (apply Sub.of; rfl) | (apply Has.of; rfl) | intro _ | with_reducible apply ite_eff
    | with_reducible apply ite_ran | with_reducible apply onAll_ran | (with_reducible apply Eff.step; with_reducible apply windowAccess_eff) | split
    | dsimp only [id]

theorem respondRemote_eff (slid req err v : Nat) (d : Dev) : Eff 0x1811d d (respondRemote slid req err v d) := by
  unfold respondRemote
  try dsimp only
  repeat' first
    | with_reducible apply Eff.refl | with_reducible assumption | (apply Sub.of; rfl) | (apply Has.of; rfl) | intro _ | with_reducible apply ite_eff
    | (with_reducible apply Eff.step; with_reducible apply emit_eff) | (with_reducible apply Eff.step; with_reducible apply sendMgmt_eff) | split
    | dsimp only [id]

theorem applyRemote_eff (slid req : Nat) (write : Bool) (a : Nat) (val : Word) (aux : Aux) (d : Dev) : Eff 0xfffff d (applyRemote slid req write a val aux d) := by
  unfold applyRemote
  try dsimp only
  repeat' first
    | with_reducible apply Eff.refl | with_reducible assumption | (apply Sub.of; rfl) | (apply Has.of; rfl) | intro _ | with_reducible apply ite_eff
    | (with_reducible apply Eff.step; with_reducible apply writeNoting_eff)
    | (with_reducible apply Eff.step; with_reducible apply eff_snd; assumption; with_reducible apply writeNoting_eff)
    | (with_reducible apply Eff.step; with_reducible apply respondRemote_eff) | (with_reducible apply Eff.step; with_reducible apply readAccess_eff)
    | (with_reducible apply Eff.step; with_reducible apply eff_snd; assumption; with_reducible apply readAccess_eff) | split | dsimp only [id]

theorem execRemoteAccessApply_ran (req : FabricReq) (write : Bool) (addr : Nat) (value : Word) (aux : Aux) (s : State) : Ran 0xfffff s (execRemoteAccessApply req write addr value aux s) := by
  unfold execRemoteAccessApply
  try dsimp only
  repeat' first
    | with_reducible apply Eff.refl | with_reducible assumption | (apply Sub.of; rfl) | (apply Has.of; rfl) | intro _ | with_reducible apply ite_eff
    | with_reducible apply ite_ran | with_reducible apply onAll_ran | (with_reducible apply Eff.step; with_reducible apply applyRemote_eff)
    | (with_reducible apply Eff.step; with_reducible apply mbxRun_eff) | split | dsimp only [id]

theorem dropRemote_eff (req : Nat) (d : Dev) : Eff 0x10 d (dropRemote req d) := by
  unfold dropRemote
  try dsimp only
  repeat' first
    | with_reducible apply Eff.refl | with_reducible assumption | (apply Sub.of; rfl) | (apply Has.of; rfl) | intro _ | with_reducible apply ite_eff
    | (with_reducible apply Eff.last; with_reducible apply Prim.mg) | split | dsimp only [id]

theorem remoteResponse_eff (req code : Nat) (vals : List Nat) (d : Dev) : Eff 0xc017d d (remoteResponse req code vals d) := by
  unfold remoteResponse
  try dsimp only
  repeat' first
    | with_reducible apply Eff.refl | with_reducible assumption | (apply Sub.of; rfl) | (apply Has.of; rfl) | intro _ | with_reducible apply ite_eff
    | (with_reducible apply Eff.step; with_reducible apply dropRemote_eff) | (with_reducible apply Eff.step; with_reducible apply edAnswer_eff)
    | (with_reducible apply Eff.step; with_reducible apply edLeave_eff) | (with_reducible apply Eff.step; with_reducible apply windowData_eff) | split
    | dsimp only [id]

theorem execRemoteResponseRx_ran (req code : Nat) (vals : List Nat) (s : State) : Ran 0xf917f s (execRemoteResponseRx req code vals s) := by
  unfold execRemoteResponseRx
  try dsimp only
  repeat' first
    | with_reducible apply Eff.refl | with_reducible assumption | (apply Sub.of; rfl) | (apply Has.of; rfl) | intro _ | with_reducible apply ite_eff
    | with_reducible apply ite_ran | with_reducible apply onAll_ran | (with_reducible apply Eff.step; with_reducible apply remoteResponse_eff) | split
    | dsimp only [id]

theorem remoteTimeout_eff (req : Nat) (d : Dev) : Eff 0xc017d d (remoteTimeout req d) := by
  unfold remoteTimeout
  try dsimp only
  repeat' first
    | with_reducible apply Eff.refl | with_reducible assumption | (apply Sub.of; rfl) | (apply Has.of; rfl) | intro _ | with_reducible apply ite_eff
    | (with_reducible apply onlyIf_eff) | (with_reducible apply Eff.step; with_reducible apply dropRemote_eff)
    | (with_reducible apply Eff.step; with_reducible apply edAnswer_eff) | (with_reducible apply Eff.step; with_reducible apply edLeave_eff)
    | (with_reducible apply Eff.step; with_reducible apply remoteFail_eff) | (with_reducible apply Eff.step; with_reducible apply windowData_eff)
    | split | dsimp only [id]

theorem execRemoteTmo_ran (req : Nat) (s : State) : Ran 0xf917f s (execRemoteTmo req s) := by
  unfold execRemoteTmo
  try dsimp only
  repeat' first
    | with_reducible apply Eff.refl | with_reducible assumption | (apply Sub.of; rfl) | (apply Has.of; rfl) | intro _ | with_reducible apply ite_eff
    | with_reducible apply ite_ran | with_reducible apply onAll_ran | (with_reducible apply Eff.step; with_reducible apply remoteTimeout_eff) | split
    | dsimp only [id]

end Sys2Proof.Machine
end

