-- ==== Sys2Proof/Laws/EffDomains.lean ====
section
/-!
SUPPORT. What each function of Machine/Domains.lean can change.
-/

namespace Sys2Proof.Machine

theorem offPage_eff (ty inst : Nat) (d : Dev) : Eff 0x1 d (offPage ty inst d) := by
  unfold offPage
  try dsimp only
  repeat' first
    | with_reducible apply Eff.refl | with_reducible assumption | (apply Sub.of; rfl) | (apply Has.of; rfl) | intro _ | with_reducible apply ite_eff
    | (with_reducible apply forEach_eff) | (with_reducible apply Eff.step; with_reducible apply warmField_eff) | split | dsimp only [id]

theorem islandLost_eff (i : Nat) (d : Dev) : Eff 0x811d d (islandLost i d) := by
  unfold islandLost
  try dsimp only
  repeat' first
    | with_reducible apply Eff.refl | with_reducible assumption | (apply Sub.of; rfl) | (apply Has.of; rfl) | intro _ | with_reducible apply ite_eff
    | (with_reducible apply forEach_eff) | (with_reducible apply Eff.step; with_reducible apply schedReset_eff)
    | (with_reducible apply Eff.last; with_reducible apply Prim.net) | split | dsimp only [id]

theorem accsLost_eff (u : Nat) (d : Dev) : Eff 0x20000 d (accsLost u d) := by
  unfold accsLost
  try dsimp only
  repeat' first
    | with_reducible apply Eff.refl | with_reducible assumption | (apply Sub.of; rfl) | (apply Has.of; rfl) | intro _ | with_reducible apply ite_eff
    | (with_reducible apply Eff.step; with_reducible apply updColl_eff) | split | dsimp only [id]

theorem stackLost_eff (m : Nat) (d : Dev) : Eff 0x10003 d (stackLost m d) := by
  unfold stackLost
  refine forEach_eff ?_ fun k d => ?_
  · exact Eff.step (matchInit_eff ..) (Sub.of rfl) (Eff.step (xltInit_eff ..) (Sub.of rfl)
      (Eff.step (updEng_eff ..) (Sub.of rfl) (.tail (.refl d) (.lose d _) rfl)))
  · exact Eff.step (wrI_eff ..) (Sub.of rfl) (Eff.step (wrI_eff ..) (Sub.of rfl) (.refl d))

theorem hierarchyLost_eff (d : Dev) : Eff 0x50001 d (hierarchyLost d) := by
  unfold hierarchyLost
  try dsimp only
  repeat' first
    | with_reducible apply Eff.refl | with_reducible assumption | (apply Sub.of; rfl) | (apply Has.of; rfl) | intro _ | with_reducible apply ite_eff
    | (with_reducible apply Eff.step; with_reducible apply updEng_eff) | (with_reducible apply Eff.step; with_reducible apply updSw_eff)
    | (with_reducible apply Eff.step; with_reducible apply assignIdx_eff) | (with_reducible apply Eff.step; with_reducible apply refreshVh_eff)
    | (with_reducible apply Eff.step; with_reducible apply refreshCvh_eff) | split | dsimp only [id]

theorem memoriesLost_eff (dom : Nat) (d : Dev) : Eff 0x7831f d (memoriesLost dom d) := by
  unfold memoriesLost
  try dsimp only
  repeat' first
    | with_reducible apply Eff.refl | with_reducible assumption | (apply Sub.of; rfl) | (apply Has.of; rfl) | intro _ | with_reducible apply ite_eff
    | (with_reducible apply forEach_eff) | (with_reducible apply Eff.step; with_reducible apply islandLost_eff)
    | (with_reducible apply Eff.step; with_reducible apply updEng_eff) | (with_reducible apply Eff.step; with_reducible apply wr_eff)
    | (with_reducible apply Eff.step; with_reducible apply accsLost_eff) | (with_reducible apply Eff.step; with_reducible apply stackLost_eff)
    | (with_reducible apply Eff.step; with_reducible apply releaseKept_eff) | (with_reducible apply Eff.step; with_reducible apply hierarchyLost_eff)
    | (with_reducible apply Eff.last; with_reducible apply Prim.chk) | (with_reducible apply Eff.last; with_reducible apply Prim.net) | split
    | dsimp only [id]

theorem leaveOff_eff (dom : Nat) (d : Dev) : Eff 0x7831f d (leaveOff dom d) := by
  unfold leaveOff
  try dsimp only
  repeat' first
    | with_reducible apply Eff.refl | with_reducible assumption | (apply Sub.of; rfl) | (apply Has.of; rfl) | intro _ | with_reducible apply ite_eff
    | (with_reducible apply forEach_eff) | (with_reducible apply Eff.step; with_reducible apply offPage_eff)
    | (with_reducible apply Eff.step; with_reducible apply memoriesLost_eff) | split | dsimp only [id]

theorem replay_eff (h : HeldWrite) (d : Dev) : Eff 0xfffff d (replay h d) := by
  unfold replay
  try dsimp only
  repeat' first
    | with_reducible apply Eff.refl | with_reducible assumption | (apply Sub.of; rfl) | (apply Has.of; rfl) | intro _ | with_reducible apply ite_eff
    | (with_reducible apply Eff.step; with_reducible apply pageAct_eff)
    | (with_reducible apply Eff.step; with_reducible apply eff_fst; assumption; with_reducible apply pageAct_eff)
    | (with_reducible apply Eff.step; with_reducible apply applyWord_eff) | split | dsimp only [id]

theorem replayHeld_eff (dom : Nat) (d : Dev) : Eff 0xfffff d (replayHeld dom d) := by
  unfold replayHeld
  try dsimp only
  repeat' first
    | with_reducible apply Eff.refl | with_reducible assumption | (apply Sub.of; rfl) | (apply Has.of; rfl) | intro _ | with_reducible apply ite_eff
    | (with_reducible apply forEach_eff) | (with_reducible apply Eff.step; with_reducible apply replay_eff)
    | (with_reducible apply Eff.last; with_reducible apply Prim.mg) | split | dsimp only [id]

theorem discardHeld_eff (dom : Nat) (d : Dev) : Eff 0x19 d (discardHeld dom d) := by
  unfold discardHeld
  try dsimp only
  repeat' first
    | with_reducible apply Eff.refl | with_reducible assumption | (apply Sub.of; rfl) | (apply Has.of; rfl) | intro _ | with_reducible apply ite_eff
    | split | (with_reducible apply forEach_eff) | (with_reducible apply Eff.step; with_reducible apply bump_eff)
    | (with_reducible apply Eff.step; with_reducible apply dropWrite_eff) | (with_reducible apply Eff.last; with_reducible apply Prim.mg) | split
    | dsimp only [id]

theorem blockOn_eff (dom : Nat) (d : Dev) : Eff 0x3891f d (blockOn dom d) := by
  unfold blockOn
  try dsimp only
  repeat' first
    | with_reducible apply Eff.refl | with_reducible assumption | (apply Sub.of; rfl) | (apply Has.of; rfl) | intro _ | with_reducible apply ite_eff
    | (with_reducible apply onlyIf_eff) | (with_reducible apply Eff.step; with_reducible apply islandStart_eff)
    | (with_reducible apply Eff.step; with_reducible apply wr_eff) | (with_reducible apply Eff.step; with_reducible apply serveHeldColl_eff) | split
    | dsimp only [id]

theorem reachOn_eff (dom prior : Nat) (d : Dev) : Eff 0xfffff d (reachOn dom prior d) := by
  unfold reachOn
  try dsimp only
  repeat' first
    | with_reducible apply Eff.refl | with_reducible assumption | (apply Sub.of; rfl) | (apply Has.of; rfl) | intro _ | with_reducible apply ite_eff
    | (with_reducible apply onlyIf_eff) | (with_reducible apply Eff.step; with_reducible apply leaveOff_eff)
    | (with_reducible apply Eff.step; with_reducible apply dropTr_eff) | (with_reducible apply Eff.step; with_reducible apply enterState_eff)
    | (with_reducible apply Eff.step; with_reducible apply blockOn_eff) | (with_reducible apply Eff.step; with_reducible apply replayHeld_eff) | split
    | dsimp only [id]

theorem reachRet_eff (dom prior : Nat) (d : Dev) : Eff 0x78b1f d (reachRet dom prior d) := by
  unfold reachRet
  try dsimp only
  repeat' first
    | with_reducible apply Eff.refl | with_reducible assumption | (apply Sub.of; rfl) | (apply Has.of; rfl) | intro _ | with_reducible apply ite_eff
    | (with_reducible apply onlyIf_eff) | (with_reducible apply Eff.step; with_reducible apply leaveOff_eff)
    | (with_reducible apply Eff.step; with_reducible apply dropTr_eff) | (with_reducible apply Eff.step; with_reducible apply enterState_eff) | split
    | dsimp only [id]

theorem flushCtx_eff (dom : Nat) (d : Dev) : Eff 0x1000f d (flushCtx dom d) := by
  unfold flushCtx
  try dsimp only
  repeat' first
    | with_reducible apply Eff.refl | with_reducible assumption | (apply Sub.of; rfl) | (apply Has.of; rfl) | intro _ | with_reducible apply ite_eff
    | (with_reducible apply forEach_eff) | (with_reducible apply Eff.step; with_reducible apply writeBack_eff)
    | (with_reducible apply Eff.step; with_reducible apply updEng_eff) | split | dsimp only [id]

theorem reachOff_eff (dom : Nat) (d : Dev) : Eff 0x819 d (reachOff dom d) := by
  unfold reachOff
  try dsimp only
  repeat' first
    | with_reducible apply Eff.refl | with_reducible assumption | (apply Sub.of; rfl) | (apply Has.of; rfl) | intro _ | with_reducible apply ite_eff
    | (with_reducible apply Eff.step; with_reducible apply dropTr_eff) | (with_reducible apply Eff.step; with_reducible apply enterState_eff)
    | (with_reducible apply Eff.step; with_reducible apply discardHeld_eff) | split | dsimp only [id]

theorem reach_eff (dom prior target : Nat) (d : Dev) : Eff 0xfffff d (reach dom prior target d) := by
  unfold reach
  try dsimp only
  repeat' first
    | with_reducible apply Eff.refl | with_reducible assumption | (apply Sub.of; rfl) | (apply Has.of; rfl) | intro _ | with_reducible apply ite_eff
    | (with_reducible apply onlyIf_eff) | (with_reducible apply Eff.step; with_reducible apply reachOn_eff)
    | (with_reducible apply Eff.step; with_reducible apply reachRet_eff) | (with_reducible apply Eff.step; with_reducible apply flushCtx_eff)
    | (with_reducible apply Eff.step; with_reducible apply reachOff_eff) | split | dsimp only [id]

theorem transitionDone_eff (dom : Nat) (d : Dev) : Eff 0xfffff d (transitionDone dom d) := by
  unfold transitionDone
  try dsimp only
  repeat' first
    | with_reducible apply Eff.refl | with_reducible assumption | (apply Sub.of; rfl) | (apply Has.of; rfl) | intro _ | with_reducible apply ite_eff
    | (with_reducible apply Eff.step; with_reducible apply reach_eff) | (with_reducible apply Eff.step; with_reducible apply raise_eff)
    | (with_reducible apply Eff.step; with_reducible apply nextRequest_eff) | split | dsimp only [id]

theorem execDomainTransitionDone_ran (dom : Nat) (s : State) : Ran 0xfffff s (execDomainTransitionDone dom s) := by
  unfold execDomainTransitionDone
  try dsimp only
  repeat' first
    | with_reducible apply Eff.refl | with_reducible assumption | (apply Sub.of; rfl) | (apply Has.of; rfl) | intro _ | with_reducible apply ite_eff
    | with_reducible apply ite_ran | with_reducible apply onAll_ran | (with_reducible apply Eff.step; with_reducible apply transitionDone_eff) | split
    | dsimp only [id]

theorem abandonTr_eff (dom refuser : Nat) (d : Dev) : Eff 0xfffff d (abandonTr dom refuser d) := by
  unfold abandonTr
  try dsimp only
  repeat' first
    | with_reducible apply Eff.refl | with_reducible assumption | (apply Sub.of; rfl) | (apply Has.of; rfl) | intro _ | with_reducible apply ite_eff
    | (with_reducible apply Eff.step; with_reducible apply refuseDom_eff) | (with_reducible apply Eff.step; with_reducible apply reach_eff) | split
    | dsimp only [id]

theorem plinkFail_eff (d : Dev) : Eff 0xfffff d (plinkFail d) := by
  unfold plinkFail
  try dsimp only
  repeat' first
    | with_reducible apply Eff.refl | with_reducible assumption | (apply Sub.of; rfl) | (apply Has.of; rfl) | intro _ | with_reducible apply ite_eff
    | (with_reducible apply onlyIf_eff) | (with_reducible apply forEach_eff) | (with_reducible apply Eff.step; with_reducible apply wr_eff)
    | (with_reducible apply Eff.step; with_reducible apply raise_eff) | (with_reducible apply Eff.step; with_reducible apply refuseDom_eff)
    | (with_reducible apply Eff.step; with_reducible apply reachOn_eff) | (with_reducible apply Eff.step; with_reducible apply countLeave_eff)
    | (with_reducible apply Eff.step; with_reducible apply nextRequest_eff) | split | dsimp only [id]

theorem plinkTimeout_eff (dom : Nat) (d : Dev) : Eff 0xfffff d (plinkTimeout dom d) := by
  unfold plinkTimeout
  try dsimp only
  repeat' first
    | with_reducible apply Eff.refl | with_reducible assumption | (apply Sub.of; rfl) | (apply Has.of; rfl) | intro _ | with_reducible apply ite_eff
    | split | (with_reducible apply Eff.step; with_reducible apply putTr_eff) | (with_reducible apply Eff.step; with_reducible apply railRequest_eff)
    | (with_reducible apply Eff.step; with_reducible apply abandonTr_eff) | (with_reducible apply Eff.step; with_reducible apply bump_eff)
    | (with_reducible apply Eff.step; with_reducible apply raise_eff) | (with_reducible apply Eff.step; with_reducible apply nextRequest_eff)
    | (with_reducible apply Eff.step; with_reducible apply plinkFail_eff) | (with_reducible apply Eff.last; with_reducible apply Prim.pw) | split
    | dsimp only [id]

theorem execPlinkRequestTimeout_ran (dom : Nat) (s : State) : Ran 0xfffff s (execPlinkRequestTimeout dom s) := by
  unfold execPlinkRequestTimeout
  try dsimp only
  repeat' first
    | with_reducible apply Eff.refl | with_reducible assumption | (apply Sub.of; rfl) | (apply Has.of; rfl) | intro _ | with_reducible apply ite_eff
    | with_reducible apply ite_ran | with_reducible apply onAll_ran | (with_reducible apply Eff.step; with_reducible apply plinkTimeout_eff) | split
    | dsimp only [id]

theorem segmentDrainTimeout_eff (seg : Nat) (d : Dev) : Eff 0xfffff d (segmentDrainTimeout seg d) := by
  unfold segmentDrainTimeout
  try dsimp only
  repeat' first
    | with_reducible apply Eff.refl | with_reducible assumption | (apply Sub.of; rfl) | (apply Has.of; rfl) | intro _ | with_reducible apply ite_eff
    | (with_reducible apply Eff.step; with_reducible apply abandonTr_eff) | (with_reducible apply Eff.step; with_reducible apply nextRequest_eff)
    | split | dsimp only [id]

theorem execSegmentDrainTimeout_ran (seg : Nat) (s : State) : Ran 0xfffff s (execSegmentDrainTimeout seg s) := by
  unfold execSegmentDrainTimeout
  try dsimp only
  repeat' first
    | with_reducible apply Eff.refl | with_reducible assumption | (apply Sub.of; rfl) | (apply Has.of; rfl) | intro _ | with_reducible apply ite_eff
    | with_reducible apply ite_ran | with_reducible apply onAll_ran | (with_reducible apply Eff.step; with_reducible apply segmentDrainTimeout_eff)
    | split | dsimp only [id]

theorem d2dCorrected_eff (link n retries : Nat) (d : Dev) : Eff 0x11d d (d2dCorrected link n retries d) := by
  unfold d2dCorrected
  try dsimp only
  repeat' first
    | with_reducible apply Eff.refl | with_reducible assumption | (apply Sub.of; rfl) | (apply Has.of; rfl) | intro _ | with_reducible apply ite_eff
    | (with_reducible apply onlyIf_eff) | (with_reducible apply Eff.step; with_reducible apply addI_eff)
    | (with_reducible apply Eff.step; with_reducible apply raiseDet_eff) | split | dsimp only [id]

theorem execD2dCorrectedError_ran (link n retries : Nat) (s : State) : Ran 0x11d s (execD2dCorrectedError link n retries s) := by
  unfold execD2dCorrectedError
  try dsimp only
  repeat' first
    | with_reducible apply Eff.refl | with_reducible assumption | (apply Sub.of; rfl) | (apply Has.of; rfl) | intro _ | with_reducible apply ite_eff
    | with_reducible apply ite_ran | with_reducible apply onDev_ran | (with_reducible apply Eff.step; with_reducible apply d2dCorrected_eff) | split
    | dsimp only [id]

theorem chipletPortDown_eff (p : Nat) (d : Dev) : Eff 0x5811d d (chipletPortDown p d) := by
  unfold chipletPortDown
  try dsimp only
  repeat' first
    | with_reducible apply Eff.refl | with_reducible assumption | (apply Sub.of; rfl) | (apply Has.of; rfl) | intro _ | with_reducible apply ite_eff
    | (with_reducible apply onlyIf_eff) | (with_reducible apply Eff.step; with_reducible apply dlDown_eff)
    | (with_reducible apply Eff.step; with_reducible apply lanesOff_eff) | (with_reducible apply Eff.step; with_reducible apply declareDown_eff)
    | (with_reducible apply Eff.step; with_reducible apply wr_eff) | (with_reducible apply Eff.step; with_reducible apply ethPcsChange_eff) | split
    | dsimp only [id]

theorem d2dUncorr_eff (link offset : Nat) (user : Option Nat) (d : Dev) : Eff 0xfffff d (d2dUncorr link offset user d) := by
  unfold d2dUncorr
  try dsimp only
  repeat' first
    | with_reducible apply Eff.refl | with_reducible assumption | (apply Sub.of; rfl) | (apply Has.of; rfl) | intro _ | with_reducible apply ite_eff
    | (with_reducible apply onlyIf_eff) | (with_reducible apply forEach_eff)
    | (with_reducible apply Eff.step; with_reducible apply chipletPortDown_eff) | (with_reducible apply Eff.step; with_reducible apply raiseDet_eff)
    | (with_reducible apply Eff.step; with_reducible apply plinkTimeout_eff) | (with_reducible apply Eff.step; with_reducible apply logNote_eff)
    | (with_reducible apply Eff.step; with_reducible apply raise_eff) | (with_reducible apply Eff.step; with_reducible apply packageBad_eff) | split
    | dsimp only [id]

theorem execD2dUncorr_ran (link offset : Nat) (user : Option Nat) (s : State) : Ran 0xfffff s (execD2dUncorr link offset user s) := by
  unfold execD2dUncorr
  try dsimp only
  repeat' first
    | with_reducible apply Eff.refl | with_reducible assumption | (apply Sub.of; rfl) | (apply Has.of; rfl) | intro _ | with_reducible apply ite_eff
    | with_reducible apply ite_ran | with_reducible apply onAll_ran | (with_reducible apply Eff.step; with_reducible apply d2dUncorr_eff) | split
    | dsimp only [id]

theorem expCredit_eff (port cls hdr data : Nat) (d : Dev) : Eff 0x8000 d (expCredit port cls hdr data d) := by
  unfold expCredit
  try dsimp only
  repeat' first
    | with_reducible apply Eff.refl | with_reducible assumption | (apply Sub.of; rfl) | (apply Has.of; rfl) | intro _ | with_reducible apply ite_eff
    | (with_reducible apply onlyIf_eff) | (with_reducible apply Eff.step; with_reducible apply updPort_eff) | split | dsimp only [id]

theorem execExpFlowControlCreditRx_ran (port cls hdr data : Nat) (s : State) : Ran 0x7911f s (execExpFlowControlCreditRx port cls hdr data s) := by
  unfold execExpFlowControlCreditRx
  try dsimp only
  repeat' first
    | with_reducible apply Eff.refl | with_reducible assumption | (apply Sub.of; rfl) | (apply Has.of; rfl) | intro _ | with_reducible apply ite_eff
    | with_reducible apply ite_ran | with_reducible apply onNet_ran | (with_reducible apply Eff.step; with_reducible apply expCredit_eff) | split
    | dsimp only [id]

theorem sliceHostWrite_eff (vh slice reg : Nat) (val : Word) (d : Dev) : Eff 0xfffff d (sliceHostWrite vh slice reg val d) := by
  unfold sliceHostWrite
  try dsimp only
  repeat' first
    | with_reducible apply Eff.refl | with_reducible assumption | (apply Sub.of; rfl) | (apply Has.of; rfl) | intro _ | with_reducible apply ite_eff
    | (with_reducible apply onlyIf_eff) | (with_reducible apply Eff.step; with_reducible apply applyWord_eff) | split | dsimp only [id]

theorem execHostSliceRegisterWrite_ran (vh slice reg : Nat) (value : Word) (s : State) : Ran 0xfffff s (execHostSliceRegisterWrite vh slice reg value s) := by
  unfold execHostSliceRegisterWrite
  try dsimp only
  repeat' first
    | with_reducible apply Eff.refl | with_reducible assumption | (apply Sub.of; rfl) | (apply Has.of; rfl) | intro _ | with_reducible apply ite_eff
    | with_reducible apply ite_ran | with_reducible apply onAll_ran | (with_reducible apply Eff.step; with_reducible apply sliceHostWrite_eff) | split
    | dsimp only [id]

end Sys2Proof.Machine
end

