-- ==== Sys2Proof/Laws/EffTransport.lean ====
section
/-!
SUPPORT. What each function of Machine/Transport.lean can change.
-/

namespace Sys2Proof.Machine

theorem execSqDoorbell_ran (vh slice : Nat) (wide : Bool) (num kind index : Nat) (entries : List (List Byte)) (s : State) : Ran 0x1811f s (execSqDoorbell vh slice wide num kind index entries s) := by
  unfold execSqDoorbell
  try dsimp only
  repeat' first
    | with_reducible apply Eff.refl | with_reducible assumption | (apply Sub.of; rfl) | (apply Has.of; rfl) | intro _ | with_reducible apply ite_eff
    | with_reducible apply ite_ran | with_reducible apply onEng_ran | (with_reducible apply Eff.step; with_reducible apply workBell_eff) | split
    | dsimp only [id]

theorem execRqDoorbell_ran (vh slice : Nat) (wide : Bool) (num kind index : Nat) (entries : List (List Byte)) (s : State) : Ran 0x1811f s (execRqDoorbell vh slice wide num kind index entries s) := by
  unfold execRqDoorbell
  try dsimp only
  repeat' first
    | with_reducible apply Eff.refl | with_reducible assumption | (apply Sub.of; rfl) | (apply Has.of; rfl) | intro _ | with_reducible apply ite_eff
    | with_reducible apply ite_ran | with_reducible apply onEng_ran | (with_reducible apply Eff.step; with_reducible apply workBell_eff) | split
    | dsimp only [id]

theorem execCqConsumerDoorbell_ran (vh slice : Nat) (wide : Bool) (num kind index : Nat) (s : State) : Ran 0x1811f s (execCqConsumerDoorbell vh slice wide num kind index s) := by
  unfold execCqConsumerDoorbell
  try dsimp only
  repeat' first
    | with_reducible apply Eff.refl | with_reducible assumption | (apply Sub.of; rfl) | (apply Has.of; rfl) | intro _ | with_reducible apply ite_eff
    | with_reducible apply ite_ran | with_reducible apply onEng_ran | (with_reducible apply Eff.step; with_reducible apply workBell_eff) | split
    | dsimp only [id]

theorem execCqArmDoorbell_ran (vh slice : Nat) (wide : Bool) (num kind : Nat) (s : State) : Ran 0x1811f s (execCqArmDoorbell vh slice wide num kind s) := by
  unfold execCqArmDoorbell
  try dsimp only
  repeat' first
    | with_reducible apply Eff.refl | with_reducible assumption | (apply Sub.of; rfl) | (apply Has.of; rfl) | intro _ | with_reducible apply ite_eff
    | with_reducible apply ite_ran | with_reducible apply onEng_ran | (with_reducible apply Eff.step; with_reducible apply workBell_eff) | split
    | dsimp only [id]

theorem execCqArmSolDoorbell_ran (vh slice : Nat) (wide : Bool) (num kind : Nat) (s : State) : Ran 0x1811f s (execCqArmSolDoorbell vh slice wide num kind s) := by
  unfold execCqArmSolDoorbell
  try dsimp only
  repeat' first
    | with_reducible apply Eff.refl | with_reducible assumption | (apply Sub.of; rfl) | (apply Has.of; rfl) | intro _ | with_reducible apply ite_eff
    | with_reducible apply ite_ran | with_reducible apply onEng_ran | (with_reducible apply Eff.step; with_reducible apply workBell_eff) | split
    | dsimp only [id]

theorem execWqeStart_ran (qpn : Nat) (s : State) : Ran 0x1811f s (execWqeStart qpn s) := by
  unfold execWqeStart
  try dsimp only
  repeat' first
    | with_reducible apply Eff.refl | with_reducible assumption | (apply Sub.of; rfl) | (apply Has.of; rfl) | intro _ | with_reducible apply ite_eff
    | with_reducible apply ite_ran | with_reducible apply onEng_ran | (with_reducible apply Eff.step; with_reducible apply startNext_eff) | split
    | dsimp only [id]

theorem execRequestPacketSend_ran (qpn : Nat) (s : State) : Ran 0x1811f s (execRequestPacketSend qpn s) := by
  unfold execRequestPacketSend
  try dsimp only
  repeat' first
    | with_reducible apply Eff.refl | with_reducible assumption | (apply Sub.of; rfl) | (apply Has.of; rfl) | intro _ | with_reducible apply ite_eff
    | with_reducible apply ite_ran | with_reducible apply onEng_ran | (with_reducible apply Eff.step; with_reducible apply sendNext_eff) | split
    | dsimp only [id]

theorem execSftSendRx_ran (p : SftPkt) (s : State) : Ran 0x1811f s (execSftSendRx p s) := by
  unfold execSftSendRx
  try dsimp only
  repeat' first
    | with_reducible apply Eff.refl | with_reducible assumption | (apply Sub.of; rfl) | (apply Has.of; rfl) | intro _ | with_reducible apply ite_eff
    | with_reducible apply ite_ran | (with_reducible apply onlyIf_eff) | with_reducible apply onEng_ran
    | (with_reducible apply Eff.step; with_reducible apply takeRequest_eff) | split | dsimp only [id]

theorem execSftWriteRx_ran (p : SftPkt) (s : State) : Ran 0x1811f s (execSftWriteRx p s) := by
  unfold execSftWriteRx
  try dsimp only
  repeat' first
    | with_reducible apply Eff.refl | with_reducible assumption | (apply Sub.of; rfl) | (apply Has.of; rfl) | intro _ | with_reducible apply ite_eff
    | with_reducible apply ite_ran | (with_reducible apply onlyIf_eff) | with_reducible apply onEng_ran
    | (with_reducible apply Eff.step; with_reducible apply takeRequest_eff) | split | dsimp only [id]

theorem execSftReadReqRx_ran (p : SftPkt) (s : State) : Ran 0x1811f s (execSftReadReqRx p s) := by
  unfold execSftReadReqRx
  try dsimp only
  repeat' first
    | with_reducible apply Eff.refl | with_reducible assumption | (apply Sub.of; rfl) | (apply Has.of; rfl) | intro _ | with_reducible apply ite_eff
    | with_reducible apply ite_ran | (with_reducible apply onlyIf_eff) | with_reducible apply onEng_ran
    | (with_reducible apply Eff.step; with_reducible apply takeRequest_eff) | split | dsimp only [id]

theorem execSftAtomicRx_ran (p : SftPkt) (s : State) : Ran 0x1811f s (execSftAtomicRx p s) := by
  unfold execSftAtomicRx
  try dsimp only
  repeat' first
    | with_reducible apply Eff.refl | with_reducible assumption | (apply Sub.of; rfl) | (apply Has.of; rfl) | intro _ | with_reducible apply ite_eff
    | with_reducible apply ite_ran | (with_reducible apply onlyIf_eff) | with_reducible apply onEng_ran
    | (with_reducible apply Eff.step; with_reducible apply takeRequest_eff) | split | dsimp only [id]

theorem execSftNotifyRx_ran (p : SftPkt) (s : State) : Ran 0x1811f s (execSftNotifyRx p s) := by
  unfold execSftNotifyRx
  try dsimp only
  repeat' first
    | with_reducible apply Eff.refl | with_reducible assumption | (apply Sub.of; rfl) | (apply Has.of; rfl) | intro _ | with_reducible apply ite_eff
    | with_reducible apply ite_ran | (with_reducible apply onlyIf_eff) | with_reducible apply onEng_ran
    | (with_reducible apply Eff.step; with_reducible apply takeRequest_eff) | split | dsimp only [id]

theorem execRndvFinishRx_ran (p : SftPkt) (s : State) : Ran 0x1811f s (execRndvFinishRx p s) := by
  unfold execRndvFinishRx
  try dsimp only
  repeat' first
    | with_reducible apply Eff.refl | with_reducible assumption | (apply Sub.of; rfl) | (apply Has.of; rfl) | intro _ | with_reducible apply ite_eff
    | with_reducible apply ite_ran | (with_reducible apply onlyIf_eff) | with_reducible apply onEng_ran
    | (with_reducible apply Eff.step; with_reducible apply takeRequest_eff) | split | dsimp only [id]

theorem execAckRx_ran (r : SftResp) (s : State) : Ran 0x1811f s (execAckRx r s) := by
  unfold execAckRx
  try dsimp only
  repeat' first
    | with_reducible apply Eff.refl | with_reducible assumption | (apply Sub.of; rfl) | (apply Has.of; rfl) | intro _ | with_reducible apply ite_eff
    | with_reducible apply ite_ran | (with_reducible apply onlyIf_eff) | with_reducible apply onEng_ran | (with_reducible apply takeResp_eff)
    | (with_reducible apply Eff.step; with_reducible apply takeAck_eff) | split | dsimp only [id]

theorem execRnrNakRx_ran (r : SftResp) (s : State) : Ran 0x1811f s (execRnrNakRx r s) := by
  unfold execRnrNakRx
  try dsimp only
  repeat' first
    | with_reducible apply Eff.refl | with_reducible assumption | (apply Sub.of; rfl) | (apply Has.of; rfl) | intro _ | with_reducible apply ite_eff
    | with_reducible apply ite_ran | (with_reducible apply onlyIf_eff) | with_reducible apply onEng_ran | (with_reducible apply takeResp_eff)
    | (with_reducible apply Eff.step; with_reducible apply takeRnr_eff) | split | dsimp only [id]

theorem execSeqNakRx_ran (r : SftResp) (s : State) : Ran 0x1811f s (execSeqNakRx r s) := by
  unfold execSeqNakRx
  try dsimp only
  repeat' first
    | with_reducible apply Eff.refl | with_reducible assumption | (apply Sub.of; rfl) | (apply Has.of; rfl) | intro _ | with_reducible apply ite_eff
    | with_reducible apply ite_ran | (with_reducible apply onlyIf_eff) | with_reducible apply onEng_ran | (with_reducible apply takeResp_eff)
    | (with_reducible apply Eff.step; with_reducible apply takeSeq_eff) | split | dsimp only [id]

theorem execErrorNakRx_ran (r : SftResp) (s : State) : Ran 0x1811f s (execErrorNakRx r s) := by
  unfold execErrorNakRx
  try dsimp only
  repeat' first
    | with_reducible apply Eff.refl | with_reducible assumption | (apply Sub.of; rfl) | (apply Has.of; rfl) | intro _ | with_reducible apply ite_eff
    | with_reducible apply ite_ran | (with_reducible apply onlyIf_eff) | with_reducible apply onEng_ran | (with_reducible apply takeResp_eff)
    | (with_reducible apply Eff.step; with_reducible apply takeError_eff) | split | dsimp only [id]

theorem execResyncRx_ran (r : SftResp) (s : State) : Ran 0x1811f s (execResyncRx r s) := by
  unfold execResyncRx
  try dsimp only
  repeat' first
    | with_reducible apply Eff.refl | with_reducible assumption | (apply Sub.of; rfl) | (apply Has.of; rfl) | intro _ | with_reducible apply ite_eff
    | with_reducible apply ite_ran | (with_reducible apply onlyIf_eff) | with_reducible apply onEng_ran | (with_reducible apply takeResp_eff)
    | (with_reducible apply Eff.step; with_reducible apply takeResync_eff) | split | dsimp only [id]

theorem execReadRespRx_ran (r : SftResp) (s : State) : Ran 0x1811f s (execReadRespRx r s) := by
  unfold execReadRespRx
  try dsimp only
  repeat' first
    | with_reducible apply Eff.refl | with_reducible assumption | (apply Sub.of; rfl) | (apply Has.of; rfl) | intro _ | with_reducible apply ite_eff
    | with_reducible apply ite_ran | (with_reducible apply onlyIf_eff) | with_reducible apply onEng_ran | (with_reducible apply takeResp_eff)
    | (with_reducible apply Eff.step; with_reducible apply takeData_eff) | split | dsimp only [id]

theorem execAtomicRespRx_ran (r : SftResp) (s : State) : Ran 0x1811f s (execAtomicRespRx r s) := by
  unfold execAtomicRespRx
  try dsimp only
  repeat' first
    | with_reducible apply Eff.refl | with_reducible assumption | (apply Sub.of; rfl) | (apply Has.of; rfl) | intro _ | with_reducible apply ite_eff
    | with_reducible apply ite_ran | (with_reducible apply onlyIf_eff) | with_reducible apply onEng_ran | (with_reducible apply takeResp_eff)
    | (with_reducible apply Eff.step; with_reducible apply takeData_eff) | split | dsimp only [id]

theorem execRetransmitTimeout_ran (qpn key : Nat) (s : State) : Ran 0x1811f s (execRetransmitTimeout qpn key s) := by
  unfold execRetransmitTimeout
  try dsimp only
  repeat' first
    | with_reducible apply Eff.refl | with_reducible assumption | (apply Sub.of; rfl) | (apply Has.of; rfl) | intro _ | with_reducible apply ite_eff
    | with_reducible apply ite_ran | (with_reducible apply onlyIf_eff) | with_reducible apply onEng_ran
    | (with_reducible apply Eff.step; with_reducible apply beginPass_eff) | split | dsimp only [id]

theorem execRnrWaitExpire_ran (qpn key : Nat) (s : State) : Ran 0x1811f s (execRnrWaitExpire qpn key s) := by
  unfold execRnrWaitExpire
  try dsimp only
  repeat' first
    | with_reducible apply Eff.refl | with_reducible assumption | (apply Sub.of; rfl) | (apply Has.of; rfl) | intro _ | with_reducible apply ite_eff
    | with_reducible apply ite_ran | with_reducible apply onEng_ran | (with_reducible apply Eff.step; with_reducible apply updConn_eff) | split
    | dsimp only [id]

theorem execSeqNakRepeat_ran (qpn key : Nat) (s : State) : Ran 0x1811f s (execSeqNakRepeat qpn key s) := by
  unfold execSeqNakRepeat
  try dsimp only
  repeat' first
    | with_reducible apply Eff.refl | with_reducible assumption | (apply Sub.of; rfl) | (apply Has.of; rfl) | intro _ | with_reducible apply ite_eff
    | with_reducible apply ite_ran | (with_reducible apply onlyIf_eff) | with_reducible apply onEng_ran
    | (with_reducible apply Eff.step; with_reducible apply sendNak_eff) | (with_reducible apply Eff.step; with_reducible apply bump_eff) | split
    | dsimp only [id]

theorem execAckTimer_ran (qpn key : Nat) (s : State) : Ran 0x1811f s (execAckTimer qpn key s) := by
  unfold execAckTimer
  try dsimp only
  repeat' first
    | with_reducible apply Eff.refl | with_reducible assumption | (apply Sub.of; rfl) | (apply Has.of; rfl) | intro _ | with_reducible apply ite_eff
    | with_reducible apply ite_ran | (with_reducible apply onlyIf_eff) | with_reducible apply onEng_ran
    | (with_reducible apply Eff.step; with_reducible apply sendAck_eff) | split | dsimp only [id]

theorem execRateRecover_ran (qpn : Nat) (s : State) : Ran 0x1811f s (execRateRecover qpn s) := by
  unfold execRateRecover
  try dsimp only
  repeat' first
    | with_reducible apply Eff.refl | with_reducible assumption | (apply Sub.of; rfl) | (apply Has.of; rfl) | intro _ | with_reducible apply ite_eff
    | with_reducible apply ite_ran | with_reducible apply onEng_ran | (with_reducible apply Eff.step; with_reducible apply updQp_eff) | split
    | dsimp only [id]

theorem execContextFetchDone_ran (qpn : Nat) (ok : Bool) (ns : Nat) (s : State) : Ran 0x1811f s (execContextFetchDone qpn ok ns s) := by
  unfold execContextFetchDone
  try dsimp only
  repeat' first
    | with_reducible apply Eff.refl | with_reducible assumption | (apply Sub.of; rfl) | (apply Has.of; rfl) | intro _ | with_reducible apply ite_eff
    | with_reducible apply ite_ran | with_reducible apply onEng_ran | (with_reducible apply Eff.step; with_reducible apply memDone_eff)
    | (with_reducible apply Eff.step; with_reducible apply updEng_eff) | (with_reducible apply Eff.step; with_reducible apply wrFit_eff)
    | (with_reducible apply Eff.step; with_reducible apply cacheCtx_eff) | (with_reducible apply Eff.step; with_reducible apply runParked_eff)
    | (with_reducible apply Eff.step; with_reducible apply bump_eff) | (with_reducible apply Eff.step; with_reducible apply countLagoon_eff)
    | (with_reducible apply Eff.step; with_reducible apply enterError_eff) | (with_reducible apply Eff.step; with_reducible apply sliceEvent_eff)
    | split | dsimp only [id]

theorem execFetchSlow_ran (qpn : Nat) (s : State) : Ran 0x1811f s (execFetchSlow qpn s) := by
  unfold execFetchSlow
  try dsimp only
  repeat' first
    | with_reducible apply Eff.refl | with_reducible assumption | (apply Sub.of; rfl) | (apply Has.of; rfl) | intro _ | with_reducible apply ite_eff
    | with_reducible apply ite_ran | (with_reducible apply onlyIf_eff) | with_reducible apply onEng_ran
    | (with_reducible apply Eff.step; with_reducible apply raise_eff) | split | dsimp only [id]

theorem execLagoonAdmit_ran (tpe : Nat) (s : State) : Ran 0x1811f s (execLagoonAdmit tpe s) := by
  unfold execLagoonAdmit
  try dsimp only
  repeat' first
    | with_reducible apply Eff.refl | with_reducible assumption | (apply Sub.of; rfl) | (apply Has.of; rfl) | intro _ | with_reducible apply ite_eff
    | with_reducible apply ite_ran | with_reducible apply onEng_ran | (with_reducible apply Eff.step; with_reducible apply updEng_eff)
    | (with_reducible apply Eff.step; with_reducible apply bump_eff) | (with_reducible apply Eff.step; with_reducible apply countLagoon_eff) | split
    | dsimp only [id]

theorem execPeerRecordIdleEvict_ran (qpn key : Nat) (s : State) : Ran 0x1811f s (execPeerRecordIdleEvict qpn key s) := by
  unfold execPeerRecordIdleEvict
  try dsimp only
  repeat' first
    | with_reducible apply Eff.refl | with_reducible assumption | (apply Sub.of; rfl) | (apply Has.of; rfl) | intro _ | with_reducible apply ite_eff
    | with_reducible apply ite_ran | (with_reducible apply onlyIf_eff) | with_reducible apply onEng_ran
    | (with_reducible apply Eff.step; with_reducible apply updQp_eff) | (with_reducible apply Eff.step; with_reducible apply writePeer_eff) | split
    | dsimp only [id]

theorem execQpQuery_ran (s : State) : Ran 0x1811f s (execQpQuery s) := by
  unfold execQpQuery
  try dsimp only
  repeat' first
    | with_reducible apply Eff.refl | with_reducible assumption | (apply Sub.of; rfl) | (apply Has.of; rfl) | intro _ | with_reducible apply ite_eff
    | with_reducible apply ite_ran | with_reducible apply onEng_ran | (with_reducible apply Eff.step; with_reducible apply qpcCmd_eff) | split
    | dsimp only [id]

theorem execQpCreate_ran (s : State) : Ran 0x1811f s (execQpCreate s) := by
  unfold execQpCreate
  try dsimp only
  repeat' first
    | with_reducible apply Eff.refl | with_reducible assumption | (apply Sub.of; rfl) | (apply Has.of; rfl) | intro _ | with_reducible apply ite_eff
    | with_reducible apply ite_ran | with_reducible apply onEng_ran | (with_reducible apply Eff.step; with_reducible apply qpcCmd_eff) | split
    | dsimp only [id]

theorem execQpModify_ran (s : State) : Ran 0x1811f s (execQpModify s) := by
  unfold execQpModify
  try dsimp only
  repeat' first
    | with_reducible apply Eff.refl | with_reducible assumption | (apply Sub.of; rfl) | (apply Has.of; rfl) | intro _ | with_reducible apply ite_eff
    | with_reducible apply ite_ran | with_reducible apply onEng_ran | (with_reducible apply Eff.step; with_reducible apply qpcCmd_eff) | split
    | dsimp only [id]

theorem execQpDestroy_ran (s : State) : Ran 0x1811f s (execQpDestroy s) := by
  unfold execQpDestroy
  try dsimp only
  repeat' first
    | with_reducible apply Eff.refl | with_reducible assumption | (apply Sub.of; rfl) | (apply Has.of; rfl) | intro _ | with_reducible apply ite_eff
    | with_reducible apply ite_ran | with_reducible apply onEng_ran | (with_reducible apply Eff.step; with_reducible apply qpcCmd_eff) | split
    | dsimp only [id]

theorem execRangeRead_ran (s : State) : Ran 0x1811f s (execRangeRead s) := by
  unfold execRangeRead
  try dsimp only
  repeat' first
    | with_reducible apply Eff.refl | with_reducible assumption | (apply Sub.of; rfl) | (apply Has.of; rfl) | intro _ | with_reducible apply ite_eff
    | with_reducible apply ite_ran | with_reducible apply onEng_ran | (with_reducible apply Eff.step; with_reducible apply qpcCmd_eff) | split
    | dsimp only [id]

theorem execRangeWrite_ran (s : State) : Ran 0x1811f s (execRangeWrite s) := by
  unfold execRangeWrite
  try dsimp only
  repeat' first
    | with_reducible apply Eff.refl | with_reducible assumption | (apply Sub.of; rfl) | (apply Has.of; rfl) | intro _ | with_reducible apply ite_eff
    | with_reducible apply ite_ran | with_reducible apply onEng_ran | (with_reducible apply Eff.step; with_reducible apply qpcCmd_eff) | split
    | dsimp only [id]

theorem execCqCreate_ran (s : State) : Ran 0x1811f s (execCqCreate s) := by
  unfold execCqCreate
  try dsimp only
  repeat' first
    | with_reducible apply Eff.refl | with_reducible assumption | (apply Sub.of; rfl) | (apply Has.of; rfl) | intro _ | with_reducible apply ite_eff
    | with_reducible apply ite_ran | with_reducible apply onEng_ran | (with_reducible apply Eff.step; with_reducible apply qpcCmd_eff) | split
    | dsimp only [id]

theorem execCqDestroy_ran (s : State) : Ran 0x1811f s (execCqDestroy s) := by
  unfold execCqDestroy
  try dsimp only
  repeat' first
    | with_reducible apply Eff.refl | with_reducible assumption | (apply Sub.of; rfl) | (apply Has.of; rfl) | intro _ | with_reducible apply ite_eff
    | with_reducible apply ite_ran | with_reducible apply onEng_ran | (with_reducible apply Eff.step; with_reducible apply qpcCmd_eff) | split
    | dsimp only [id]

theorem execCqQuery_ran (s : State) : Ran 0x1811f s (execCqQuery s) := by
  unfold execCqQuery
  try dsimp only
  repeat' first
    | with_reducible apply Eff.refl | with_reducible assumption | (apply Sub.of; rfl) | (apply Has.of; rfl) | intro _ | with_reducible apply ite_eff
    | with_reducible apply ite_ran | with_reducible apply onEng_ran | (with_reducible apply Eff.step; with_reducible apply qpcCmd_eff) | split
    | dsimp only [id]

end Sys2Proof.Machine
end

