-- ==== Sys2Proof/Laws/Ran.lean ====
section
/-!
SUPPORT. What each command can change: `exec_ran` joins the lemmas of the commands into one.
-/

namespace Sys2Proof.Machine

/-- The set of parts a command touches, as the lemmas of Laws/Eff.lean number them. -/
def touched : Instr → Nat
  | .behaviourLevelWrite .. => 0xfffff
  | .d2dCorrectedError .. => 0x11d
  | .d2dUncorr .. => 0xfffff
  | .registerWrite .. => 0xfffff
  | .rcFieldRead .. => 0x815
  | .devMgmtSemRead .. => 0x815
  | .pgCommit .. => 0xfffff
  | .commitSwap .. => 0x7991f
  | .pgDiscard .. => 0xfffff
  | .pgLock .. => 0xfffff
  | .pgSoftRst .. => 0xfffff
  | .softResetDone .. => 0x7911f
  | .pgEnableWrite .. => 0xfffff
  | .pgEvtInj .. => 0xfffff
  | .ibiRaise => 0x14
  | .i3cEntdaa .. => 0x10
  | .i3cResponseRead => 0xc017d
  | .compositeWindowAccess .. => 0xfffff
  | .remoteAccessApply .. => 0xfffff
  | .remoteResponseRx .. => 0xf917f
  | .remoteTmo .. => 0xf917f
  | .identify .. => 0xfffff
  | .regRead .. => 0xfffff
  | .regWrite .. => 0xfffff
  | .events .. => 0xfffff
  | .logRead .. => 0xfffff
  | .sensors .. => 0xfffff
  | .imageExport .. => 0xfffff
  | .exportSnapshotExpire => 0x20
  | .imageImport .. => 0xfffff
  | .imageImportCommit .. => 0xfffff
  | .imageImportClear .. => 0xfffff
  | .fwStage .. => 0xc01fd
  | .stagingOwnerExpire => 0x80
  | .fwActivate .. => 0xc01fd
  | .reset .. => 0xfffff
  | .composite .. => 0xfffff
  | .edurnOtherOpcode .. => 0xfffff
  | .lifecycleState .. => 0xc01fd
  | .lifecycleNonce .. => 0xc01fd
  | .nonceExpire => 0x80
  | .lifecycleTransition .. => 0xc01fd
  | .rbCommit .. => 0xc01fd
  | .warmRst .. => 0xc017d
  | .coldStart .. => 0x8057d
  | .memoryWipeComplete .. => 0x7b53f
  | .upstreamPerstDeassert .. => 0x7d11f
  | .rollCallRx .. => 0x7b11f
  | .membershipStable .. => 0x7b11f
  | .heartbeatRx .. => 0x7b11f
  | .heartbeatSend => 0x1811d
  | .hbLossExpire => 0x7b11f
  | .handover .. => 0x7b11f
  | .laneSignalDetect .. => 0x7991f
  | .laneSymbolLock .. => 0x7911f
  | .laneLockLoss .. => 0x7911f
  | .laneMarkerRx .. => 0x7911f
  | .qualificationEnd .. => 0x7911f
  | .bringupStepTimeout .. => 0x7911f
  | .bringupRetryTimer .. => 0x7911f
  | .trimTick .. => 0x7911f
  | .prbsLost .. => 0x7911f
  | .injOne .. => 0x7911f
  | .eyeStart .. => 0x7911f
  | .eyeAbort .. => 0x7911f
  | .eyeScanDone .. => 0x7911f
  | .spareReq .. => 0x7911f
  | .spareRel .. => 0x7911f
  | .dataFlitRx .. => 0x7911f
  | .flitCheckFail .. => 0x7911f
  | .rsUncorrectable .. => 0x7911f
  | .statusRx .. => 0x7911f
  | .nakRx .. => 0x7911f
  | .initRx .. => 0x7911f
  | .resetRx .. => 0x7911f
  | .linkFlitReservedRx .. => 0x7911f
  | .statusSend .. => 0x7911f
  | .nakRepeat .. => 0x7911f
  | .replayTimeout .. => 0x7911f
  | .initRepeat .. => 0x7911f
  | .initTimeout .. => 0x7911f
  | .lockLossTimeout .. => 0x7911f
  | .silentTimeout .. => 0x7911f
  | .linkDown .. => 0x7911f
  | .linkResetIdleEnd .. => 0x7911f
  | .lreset .. => 0x7911f
  | .portEnableWrite .. => 0x7911f
  | .wakeSend .. => 0x7911f
  | .wakePatternDetect .. => 0x7991f
  | .weatherSend .. => 0x7911f
  | .weatherRx .. => 0x7911f
  | .wxStale .. => 0x7911f
  | .ethFrameRx .. => 0x7911f
  | .pfcFrameRx .. => 0x7911f
  | .pauseFrameRx .. => 0x7911f
  | .pfcRepeat .. => 0x7911f
  | .pfcQuantaExpire .. => 0x7911f
  | .pfcWatchdog .. => 0x7911f
  | .ethPcsChange .. => 0x7911f
  | .straitMatch .. => 0x7911f
  | .descriptorRx .. => 0x7911f
  | .reorderStall .. => 0x7911f
  | .straitFaultDetect .. => 0x7991f
  | .strEnWrite .. => 0x7911f
  | .straitDrainDone .. => 0x7991f
  | .straitSelftestDone .. => 0x7991f
  | .harbourUncorrRead .. => 0x7911f
  | .segmentDrainDone .. => 0x7991f
  | .segmentDrainTimeout .. => 0xfffff
  | .mirrorRecordWrite .. => 0x7911f
  | .islReset .. => 0x7911f
  | .islTestWrite .. => 0x7911f
  | .islandResetDone .. => 0x7911f
  | .scheduleDecision .. => 0x7911f
  | .wheelSlotDue .. => 0x7911f
  | .gateTransition .. => 0x7911f
  | .gateSwitchRequest .. => 0x7911f
  | .mtrRead .. => 0x7911f
  | .mtrWrite .. => 0x7911f
  | .mtrReadClr .. => 0x7911f
  | .escWaitTimeout .. => 0x7911f
  | .routeHoldExpire .. => 0x7911f
  | .portRejoin .. => 0x7911f
  | .stuckLane .. => 0x7911f
  | .swap .. => 0x7911f
  | .tblRead .. => 0x7911f
  | .tblWrite .. => 0x7911f
  | .sqDoorbell .. => 0x1811f
  | .rqDoorbell .. => 0x1811f
  | .cqConsumerDoorbell .. => 0x1811f
  | .cqArmDoorbell .. => 0x1811f
  | .cqArmSolDoorbell .. => 0x1811f
  | .wqeStart .. => 0x1811f
  | .requestPacketSend .. => 0x1811f
  | .sftSendRx .. => 0x1811f
  | .sftWriteRx .. => 0x1811f
  | .sftReadReqRx .. => 0x1811f
  | .sftAtomicRx .. => 0x1811f
  | .sftNotifyRx .. => 0x1811f
  | .rndvFinishRx .. => 0x1811f
  | .ackRx .. => 0x1811f
  | .rnrNakRx .. => 0x1811f
  | .seqNakRx .. => 0x1811f
  | .errorNakRx .. => 0x1811f
  | .resyncRx .. => 0x1811f
  | .readRespRx .. => 0x1811f
  | .atomicRespRx .. => 0x1811f
  | .retransmitTimeout .. => 0x1811f
  | .rnrWaitExpire .. => 0x1811f
  | .seqNakRepeat .. => 0x1811f
  | .ackTimer .. => 0x1811f
  | .rateRecover .. => 0x1811f
  | .contextFetchDone .. => 0x1811f
  | .fetchSlow .. => 0x1811f
  | .lagoonAdmit .. => 0x1811f
  | .peerRecordIdleEvict .. => 0x1811f
  | .hostCompletionRx .. => 0x3811f
  | .hostReadTimeout .. => 0x3811f
  | .qpQuery => 0x1811f
  | .qpCreate => 0x1811f
  | .qpModify => 0x1811f
  | .qpDestroy => 0x1811f
  | .rangeRead => 0x1811f
  | .rangeWrite => 0x1811f
  | .cqCreate => 0x1811f
  | .cqDestroy => 0x1811f
  | .cqQuery => 0x1811f
  | .reg .. => 0x1811f
  | .rereg .. => 0x1811f
  | .dereg => 0x1811f
  | .mrgQuery => 0x1811f
  | .invalSlice => 0x1811f
  | .mrgRetireDone => 0x1811f
  | .xltFetchDone .. => 0x1811f
  | .winRdLive => 0x1811f
  | .winRdShadow => 0x1811f
  | .winWrShadow => 0x1811f
  | .winCommit => 0x1811f
  | .winDiscard => 0x1811f
  | .windowFenceDone .. => 0x1811f
  | .brgRdLive => 0x1811f
  | .brgRdShadow => 0x1811f
  | .brgWrShadow => 0x1811f
  | .brgWinCommit => 0x1811f
  | .brgDiscard => 0x1811f
  | .errClr => 0x1811f
  | .grpRd => 0x1811f
  | .grpWr => 0x1811f
  | .grpCommit => 0x1811f
  | .brgMemWriteTlp .. => 0x1811f
  | .brgMemReadTlp .. => 0x1811f
  | .brgQueuedReadIssue => 0x1811f
  | .brgAtomicopTlp .. => 0x1811f
  | .brgLockedRead .. => 0x1811f
  | .brgUnlockMsg .. => 0x1811f
  | .brgRdTimeout .. => 0x1811f
  | .winLockTmo .. => 0x1811f
  | .pfAgeExpire .. => 0x1811f
  | .messageNotifyRx .. => 0x1811f
  | .fwdRangeWrite .. => 0x1811f
  | .mapRead => 0x1811f
  | .mapWrite => 0x1811f
  | .wireCommit => 0x1c11f
  | .wireCommitComplete => 0x1c11f
  | .slotWireEdge .. => 0x1c11f
  | .ctxQuery .. => 0x1811f
  | .ctxCreate .. => 0x1811f
  | .ctxDestroy .. => 0x1811f
  | .matchDoorbell .. => 0x1811f
  | .matchPost .. => 0x1811f
  | .matchProbe .. => 0x1811f
  | .matchCancel .. => 0x1811f
  | .overflowFetchDone .. => 0x1811f
  | .grpRead .. => 0x2011d
  | .grpCreate .. => 0x2011d
  | .grpModify .. => 0x2011d
  | .grpDestroy .. => 0x2011d
  | .childRead .. => 0x2011d
  | .childWrite .. => 0x2011d
  | .memberRead .. => 0x2011d
  | .memberBind .. => 0x2011d
  | .memberUnbind .. => 0x2011d
  | .collDoorbell .. => 0x3891f
  | .collDescriptorStart .. => 0x3811f
  | .collUpRx .. => 0x3891f
  | .collDownRx .. => 0x3891f
  | .collFaultRx .. => 0x3891f
  | .collAbortRx .. => 0x3891f
  | .collGoOnRx .. => 0x3891f
  | .collRedeliverRx .. => 0x3891f
  | .collFaultTimeout .. => 0x3811f
  | .collOpTimeout .. => 0x3811f
  | .expTlpRx .. => 0x5811f
  | .configRequest .. => 0x7811f
  | .vhHotReset .. => 0x7811f
  | .bind .. => 0x5811f
  | .unbind .. => 0x5811f
  | .bindHoldoffEnd .. => 0x5811f
  | .pwRdLive => 0x5811f
  | .pwRdShadow => 0x5811f
  | .pwWrShadow => 0x5811f
  | .pwCommit => 0x5811f
  | .pwDiscard => 0x5811f
  | .isoSet .. => 0x5811f
  | .isoRel .. => 0x5811f
  | .dpcTrigger .. => 0x5811f
  | .expDlChange .. => 0x7811f
  | .expEnWrite .. => 0x7811f
  | .compositePacketRx .. => 0x5811f
  | .compositeAckRx .. => 0x5811f
  | .compositeNakRx .. => 0x5a11f
  | .compositeAckSend .. => 0x5811f
  | .cmpRtoExpire .. => 0x5a11f
  | .cplTmoExpire .. => 0x5811f
  | .slotPrsntChange .. => 0x5c11f
  | .slotWakeEdge .. => 0x5c11f
  | .slotAlertEdge .. => 0x1c11f
  | .slotClkreqChange .. => 0x5c11f
  | .perstDeassertTimer .. => 0x5811f
  | .bmeClear .. => 0x3811f
  | .initiateFlr .. => 0x3811f
  | .flrComplete .. => 0x1811f
  | .d3hotEntry .. => 0x3811f
  | .d0Return .. => 0x3811f
  | .tagQuarantineEnd .. => 0x1811f
  | .sliceCreate .. => 0x1811f
  | .sliceQuiesce .. => 0x1811f
  | .sliceDrained .. => 0x1811f
  | .sliceQuiesceTmo .. => 0x1811f
  | .sliceResume .. => 0x3891f
  | .sliceReset .. => 0x3811f
  | .sliceForceReset .. => 0x3811f
  | .sliceRemove .. => 0x3811f
  | .sliceResetComplete .. => 0x1811f
  | .commandDoorbell .. => 0x1811f
  | .commandRingEntry .. => 0x1811f
  | .eventRingDoorbell .. => 0x1811f
  | .msixUnmask .. => 0x1811f
  | .atsTranslationCompletion .. => 0x3891f
  | .prgResponse .. => 0x3811f
  | .pageRequestTimeout .. => 0x3811f
  | .atsInvalidateRequest .. => 0x1811f
  | .atsInvalidateComplete .. => 0x1811f
  | .timeFlitSend .. => 0x9004
  | .timeFlitRx .. => 0x7991f
  | .gmRoundTick => 0x1
  | .gmRecordStale .. => 0x111d
  | .holdoverExpire => 0x811d
  | .ppsInEdge => 0x7991f
  | .ppsInLost => 0x111d
  | .ppsOutSecond => 0x4
  | .setGo => 0x7991f
  | .phaseLoadGo => 0x7991f
  | .hznRead => 0x11d
  | .hznWrite => 0x111d
  | .arm => 0x7991f
  | .disarm => 0x111d
  | .horizonFire => 0x7991f
  | .feedPresentChange .. => 0x409
  | .feedGood .. => 0x51d
  | .feedBelowSwLevel => 0x51d
  | .switchNow => 0x51d
  | .feedSwitchBack => 0x51d
  | .efuseTrip .. => 0x51d
  | .pathOpenConfirmed .. => 0x51d
  | .retryPeriodExpire .. => 0x1
  | .inrushChargeComplete .. => 0x51d
  | .tripClr .. => 0x51d
  | .dipBegin => 0x51d
  | .dipEnd .. => 0x51d
  | .throttleEnd => 0x405
  | .lossOfSupply => 0xc25
  | .aonPowerLoss => 0x400
  | .plinkAck .. => 0x800
  | .plinkRequestTimeout .. => 0xfffff
  | .plinkMeasurementReport .. => 0x9
  | .pwrReq .. => 0x91d
  | .domainTransitionDone .. => 0xfffff
  | .domainWake .. => 0x91d
  | .spdmGetVersion .. => 0x8d
  | .spdmGetCapabilities .. => 0x8d
  | .spdmNegotiateAlgorithms .. => 0x8d
  | .spdmGetDigests .. => 0xd
  | .spdmGetCertificate .. => 0xd
  | .spdmChallenge .. => 0xd
  | .spdmGetMeasurements .. => 0xd
  | .spdmOtherRequest .. => 0xd
  | .setEndpointId .. => 0x84
  | .getEndpointId .. => 0x4
  | .getMctpVersionSupport .. => 0xc
  | .getMessageTypeSupport .. => 0x4
  | .doeDiscovery .. => 0x4
  | .patrolScrub .. => 0xf997f
  | .deviceFaultDetect .. => 0x813d
  | .mpWatchdogMiss .. => 0xf917f
  | .logClr => 0x7911f
  | .rdGo => 0x7911f
  | .agingMeasure .. => 0x7911f
  | .agingTrendPeriod => 0x7911f
  | .chkGo .. => 0x7931f
  | .chkAbort .. => 0x7931f
  | .chkJobComplete .. => 0x7931f
  | .chkWatchReread .. => 0x7931f
  | .thermalSample .. => 0xc53d
  | .thermalThrottleEnd => 0x40d
  | .deferredWarmReset => 0xc017d
  | .vioChange .. => 0x400d
  | .feedNotGood .. => 0x1
  | .retryAttempt .. => 0x51d
  | .expFlowControlCreditRx .. => 0x7911f
  | .hostSliceRegisterWrite .. => 0xfffff

/-- Every command answers a next state with the queue as it was, and touches only its parts. -/
theorem exec_ran (c : Instr) (s : State) : Ran (touched c) s (exec c s) := by
  cases c with
  | behaviourLevelWrite value => exact execBehaviourLevelWrite_ran value s
  | d2dCorrectedError link n retries => exact execD2dCorrectedError_ran link n retries s
  | d2dUncorr link offset user => exact execD2dUncorr_ran link offset user s
  | registerWrite acc value aux => exact execRegisterWrite_ran acc value aux s
  | rcFieldRead path acc => exact execRcFieldRead_ran path acc s
  | devMgmtSemRead path sem => exact execDevMgmtSemRead_ran path sem s
  | pgCommit ty inst enable => exact execPgCommit_ran ty inst enable s
  | commitSwap ty inst => exact execCommitSwap_ran ty inst s
  | pgDiscard ty inst enable => exact execPgDiscard_ran ty inst enable s
  | pgLock ty inst enable => exact execPgLock_ran ty inst enable s
  | pgSoftRst ty inst enable => exact execPgSoftRst_ran ty inst enable s
  | softResetDone ty inst => exact execSoftResetDone_ran ty inst s
  | pgEnableWrite ty inst enable => exact execPgEnableWrite_ran ty inst enable s
  | pgEvtInj ty inst value => exact execPgEvtInj_ran ty inst value s
  | ibiRaise => exact execIbiRaise_ran s
  | i3cEntdaa addr => exact execI3cEntdaa_ran addr s
  | i3cResponseRead => exact execI3cResponseRead_ran s
  | compositeWindowAccess write member acc value aux => exact execCompositeWindowAccess_ran write member acc value aux s
  | remoteAccessApply req write addr value aux => exact execRemoteAccessApply_ran req write addr value aux s
  | remoteResponseRx req code vals => exact execRemoteResponseRx_ran req code vals s
  | remoteTmo req => exact execRemoteTmo_ran req s
  | identify path tag payload => exact execIdentify_ran path tag payload s
  | regRead path tag payload => exact execRegRead_ran path tag payload s
  | regWrite path tag payload aux => exact execRegWrite_ran path tag payload aux s
  | events path tag payload => exact execEvents_ran path tag payload s
  | logRead path tag payload => exact execLogRead_ran path tag payload s
  | sensors path tag payload => exact execSensors_ran path tag payload s
  | imageExport path tag payload => exact execImageExport_ran path tag payload s
  | exportSnapshotExpire => exact execExportSnapshotExpire_ran s
  | imageImport path tag chunk data => exact execImageImport_ran path tag chunk data s
  | imageImportCommit path tag => exact execImageImportCommit_ran path tag s
  | imageImportClear path tag => exact execImageImportClear_ran path tag s
  | fwStage path tag payload => exact execFwStage_ran path tag payload s
  | stagingOwnerExpire => exact execStagingOwnerExpire_ran s
  | fwActivate path tag payload => exact execFwActivate_ran path tag payload s
  | reset path tag payload => exact execReset_ran path tag payload s
  | composite path tag payload => exact execComposite_ran path tag payload s
  | edurnOtherOpcode opc path tag len crcOk payload => exact execEdurnOtherOpcode_ran opc path tag len crcOk payload s
  | lifecycleState path tag payload => exact execLifecycleState_ran path tag payload s
  | lifecycleNonce path tag payload => exact execLifecycleNonce_ran path tag payload s
  | nonceExpire => exact execNonceExpire_ran s
  | lifecycleTransition path tag payload => exact execLifecycleTransition_ran path tag payload s
  | rbCommit path tag payload => exact execRbCommit_ran path tag payload s
  | warmRst value => exact execWarmRst_ran value s
  | coldStart feed repairs => exact execColdStart_ran feed repairs s
  | memoryWipeComplete ok mem addr => exact execMemoryWipeComplete_ran ok mem addr s
  | upstreamPerstDeassert host => exact execUpstreamPerstDeassert_ran host s
  | rollCallRx port serial prio pref anchor id => exact execRollCallRx_ran port serial prio pref anchor id s
  | membershipStable cvhs lids grants => exact execMembershipStable_ran cvhs lids grants s
  | heartbeatRx anchor standby epoch serial => exact execHeartbeatRx_ran anchor standby epoch serial s
  | heartbeatSend => exact execHeartbeatSend_ran s
  | hbLossExpire => exact execHbLossExpire_ran s
  | handover told => exact execHandover_ran told s
  | laneSignalDetect lane => exact execLaneSignalDetect_ran lane s
  | laneSymbolLock lane => exact execLaneSymbolLock_ran lane s
  | laneLockLoss lane => exact execLaneLockLoss_ran lane s
  | laneMarkerRx lane raw => exact execLaneMarkerRx_ran lane raw s
  | qualificationEnd port res pfail spare => exact execQualificationEnd_ran port res pfail spare s
  | bringupStepTimeout port step lanes => exact execBringupStepTimeout_ran port step lanes s
  | bringupRetryTimer port => exact execBringupRetryTimer_ran port s
  | trimTick lane errs cw eye => exact execTrimTick_ran lane errs cw eye s
  | prbsLost lane errs bits => exact execPrbsLost_ran lane errs bits s
  | injOne lane => exact execInjOne_ran lane s
  | eyeStart lane => exact execEyeStart_ran lane s
  | eyeAbort lane => exact execEyeAbort_ran lane s
  | eyeScanDone lane errs => exact execEyeScanDone_ran lane errs s
  | spareReq lane => exact execSpareReq_ran lane s
  | spareRel lane => exact execSpareRel_ran lane s
  | dataFlitRx port b0 b1 b2 b3 body check => exact execDataFlitRx_ran port b0 b1 b2 b3 body check s
  | flitCheckFail port isData => exact execFlitCheckFail_ran port isData s
  | rsUncorrectable cw => exact execRsUncorrectable_ran cw s
  | statusRx port header body check => exact execStatusRx_ran port header body check s
  | nakRx port covered check => exact execNakRx_ran port covered check s
  | initRx port header credits serial rest => exact execInitRx_ran port header credits serial rest s
  | resetRx rx => exact execResetRx_ran rx s
  | linkFlitReservedRx port flit => exact execLinkFlitReservedRx_ran port flit s
  | statusSend port => exact execStatusSend_ran port s
  | nakRepeat port => exact execNakRepeat_ran port s
  | replayTimeout port => exact execReplayTimeout_ran port s
  | initRepeat port => exact execInitRepeat_ran port s
  | initTimeout port => exact execInitTimeout_ran port s
  | lockLossTimeout lane => exact execLockLossTimeout_ran lane s
  | silentTimeout port => exact execSilentTimeout_ran port s
  | linkDown port cause => exact execLinkDown_ran port cause s
  | linkResetIdleEnd port => exact execLinkResetIdleEnd_ran port s
  | lreset port => exact execLreset_ran port s
  | portEnableWrite port en => exact execPortEnableWrite_ran port en s
  | wakeSend port => exact execWakeSend_ran port s
  | wakePatternDetect port => exact execWakePatternDetect_ran port s
  | weatherSend port => exact execWeatherSend_ran port s
  | weatherRx port flit => exact execWeatherRx_ran port flit s
  | wxStale port => exact execWxStale_ran port s
  | ethFrameRx port fcsOk frame => exact execEthFrameRx_ran port fcsOk frame s
  | pfcFrameRx port prio quanta => exact execPfcFrameRx_ran port prio quanta s
  | pauseFrameRx port => exact execPauseFrameRx_ran port s
  | pfcRepeat port prio => exact execPfcRepeat_ran port prio s
  | pfcQuantaExpire port prio => exact execPfcQuantaExpire_ran port prio s
  | pfcWatchdog port prio => exact execPfcWatchdog_ran port prio s
  | ethPcsChange port pcs hiSer localFault remoteFault => exact execEthPcsChange_ran port pcs hiSer localFault remoteFault s
  | straitMatch strait => exact execStraitMatch_ran strait s
  | descriptorRx strait inIsl egIsl sseq => exact execDescriptorRx_ran strait inIsl egIsl sseq s
  | reorderStall inIsl egIsl => exact execReorderStall_ran inIsl egIsl s
  | straitFaultDetect strait cause isl data => exact execStraitFaultDetect_ran strait cause isl data s
  | strEnWrite strait en => exact execStrEnWrite_ran strait en s
  | straitDrainDone strait => exact execStraitDrainDone_ran strait s
  | straitSelftestDone strait pass => exact execStraitSelftestDone_ran strait pass s
  | harbourUncorrRead seg cell pkt => exact execHarbourUncorrRead_ran seg cell pkt s
  | segmentDrainDone seg => exact execSegmentDrainDone_ran seg s
  | segmentDrainTimeout seg => exact execSegmentDrainTimeout_ran seg s
  | mirrorRecordWrite session => exact execMirrorRecordWrite_ran session s
  | islReset isl => exact execIslReset_ran isl s
  | islTestWrite isl test => exact execIslTestWrite_ran isl test s
  | islandResetDone isl => exact execIslandResetDone_ran isl s
  | scheduleDecision port => exact execScheduleDecision_ran port s
  | wheelSlotDue isl => exact execWheelSlotDue_ran isl s
  | gateTransition port => exact execGateTransition_ran port s
  | gateSwitchRequest port => exact execGateSwitchRequest_ran port s
  | mtrRead bank => exact execMtrRead_ran bank s
  | mtrWrite bank => exact execMtrWrite_ran bank s
  | mtrReadClr bank => exact execMtrReadClr_ran bank s
  | escWaitTimeout pkt => exact execEscWaitTimeout_ran pkt s
  | routeHoldExpire pkt => exact execRouteHoldExpire_ran pkt s
  | portRejoin port => exact execPortRejoin_ran port s
  | stuckLane port vl => exact execStuckLane_ran port vl s
  | swap isl => exact execSwap_ran isl s
  | tblRead isl => exact execTblRead_ran isl s
  | tblWrite isl => exact execTblWrite_ran isl s
  | sqDoorbell vh slice wide num kind index entries => exact execSqDoorbell_ran vh slice wide num kind index entries s
  | rqDoorbell vh slice wide num kind index entries => exact execRqDoorbell_ran vh slice wide num kind index entries s
  | cqConsumerDoorbell vh slice wide num kind index => exact execCqConsumerDoorbell_ran vh slice wide num kind index s
  | cqArmDoorbell vh slice wide num kind => exact execCqArmDoorbell_ran vh slice wide num kind s
  | cqArmSolDoorbell vh slice wide num kind => exact execCqArmSolDoorbell_ran vh slice wide num kind s
  | wqeStart qpn => exact execWqeStart_ran qpn s
  | requestPacketSend qpn => exact execRequestPacketSend_ran qpn s
  | sftSendRx p => exact execSftSendRx_ran p s
  | sftWriteRx p => exact execSftWriteRx_ran p s
  | sftReadReqRx p => exact execSftReadReqRx_ran p s
  | sftAtomicRx p => exact execSftAtomicRx_ran p s
  | sftNotifyRx p => exact execSftNotifyRx_ran p s
  | rndvFinishRx p => exact execRndvFinishRx_ran p s
  | ackRx r => exact execAckRx_ran r s
  | rnrNakRx r => exact execRnrNakRx_ran r s
  | seqNakRx r => exact execSeqNakRx_ran r s
  | errorNakRx r => exact execErrorNakRx_ran r s
  | resyncRx r => exact execResyncRx_ran r s
  | readRespRx r => exact execReadRespRx_ran r s
  | atomicRespRx r => exact execAtomicRespRx_ran r s
  | retransmitTimeout qpn key => exact execRetransmitTimeout_ran qpn key s
  | rnrWaitExpire qpn key => exact execRnrWaitExpire_ran qpn key s
  | seqNakRepeat qpn key => exact execSeqNakRepeat_ran qpn key s
  | ackTimer qpn key => exact execAckTimer_ran qpn key s
  | rateRecover qpn => exact execRateRecover_ran qpn s
  | contextFetchDone qpn ok ns => exact execContextFetchDone_ran qpn ok ns s
  | fetchSlow qpn => exact execFetchSlow_ran qpn s
  | lagoonAdmit tpe => exact execLagoonAdmit_ran tpe s
  | peerRecordIdleEvict qpn key => exact execPeerRecordIdleEvict_ran qpn key s
  | hostCompletionRx vh tag ok data => exact execHostCompletionRx_ran vh tag ok data s
  | hostReadTimeout vh tag => exact execHostReadTimeout_ran vh tag s
  | qpQuery => exact execQpQuery_ran s
  | qpCreate => exact execQpCreate_ran s
  | qpModify => exact execQpModify_ran s
  | qpDestroy => exact execQpDestroy_ran s
  | rangeRead => exact execRangeRead_ran s
  | rangeWrite => exact execRangeWrite_ran s
  | cqCreate => exact execCqCreate_ran s
  | cqDestroy => exact execCqDestroy_ran s
  | cqQuery => exact execCqQuery_ran s
  | reg pages ok => exact execReg_ran pages ok s
  | rereg pages ok => exact execRereg_ran pages ok s
  | dereg => exact execDereg_ran s
  | mrgQuery => exact execMrgQuery_ran s
  | invalSlice => exact execInvalSlice_ran s
  | mrgRetireDone => exact execMrgRetireDone_ran s
  | xltFetchDone qpn ok => exact execXltFetchDone_ran qpn ok s
  | winRdLive => exact execWinRdLive_ran s
  | winRdShadow => exact execWinRdShadow_ran s
  | winWrShadow => exact execWinWrShadow_ran s
  | winCommit => exact execWinCommit_ran s
  | winDiscard => exact execWinDiscard_ran s
  | windowFenceDone reach win => exact execWindowFenceDone_ran reach win s
  | brgRdLive => exact execBrgRdLive_ran s
  | brgRdShadow => exact execBrgRdShadow_ran s
  | brgWrShadow => exact execBrgWrShadow_ran s
  | brgWinCommit => exact execBrgWinCommit_ran s
  | brgDiscard => exact execBrgDiscard_ran s
  | errClr => exact execErrClr_ran s
  | grpRd => exact execGrpRd_ran s
  | grpWr => exact execGrpWr_ran s
  | grpCommit => exact execGrpCommit_ran s
  | brgMemWriteTlp vh ofs data be => exact execBrgMemWriteTlp_ran vh ofs data be s
  | brgMemReadTlp vh req tag ofs len => exact execBrgMemReadTlp_ran vh req tag ofs len s
  | brgQueuedReadIssue => exact execBrgQueuedReadIssue_ran s
  | brgAtomicopTlp vh req tag ofs kind size op1 op2 => exact execBrgAtomicopTlp_ran vh req tag ofs kind size op1 op2 s
  | brgLockedRead vh req tag ofs len => exact execBrgLockedRead_ran vh req tag ofs len s
  | brgUnlockMsg vh req => exact execBrgUnlockMsg_ran vh req s
  | brgRdTimeout id => exact execBrgRdTimeout_ran id s
  | winLockTmo win => exact execWinLockTmo_ran win s
  | pfAgeExpire win ofs => exact execPfAgeExpire_ran win ofs s
  | messageNotifyRx p => exact execMessageNotifyRx_ran p s
  | fwdRangeWrite vh ofs data => exact execFwdRangeWrite_ran vh ofs data s
  | mapRead => exact execMapRead_ran s
  | mapWrite => exact execMapWrite_ran s
  | wireCommit => exact execWireCommit_ran s
  | wireCommitComplete => exact execWireCommitComplete_ran s
  | slotWireEdge slot wire level => exact execSlotWireEdge_ran slot wire level s
  | ctxQuery mte => exact execCtxQuery_ran mte s
  | ctxCreate mte => exact execCtxCreate_ran mte s
  | ctxDestroy mte => exact execCtxDestroy_ran mte s
  | matchDoorbell vh slice wide index entries => exact execMatchDoorbell_ran vh slice wide index entries s
  | matchPost slice => exact execMatchPost_ran slice s
  | matchProbe slice => exact execMatchProbe_ran slice s
  | matchCancel slice => exact execMatchCancel_ran slice s
  | overflowFetchDone mte ctx => exact execOverflowFetchDone_ran mte ctx s
  | grpRead cle => exact execGrpRead_ran cle s
  | grpCreate cle => exact execGrpCreate_ran cle s
  | grpModify cle => exact execGrpModify_ran cle s
  | grpDestroy cle => exact execGrpDestroy_ran cle s
  | childRead cle => exact execChildRead_ran cle s
  | childWrite cle => exact execChildWrite_ran cle s
  | memberRead cle => exact execMemberRead_ran cle s
  | memberBind cle => exact execMemberBind_ran cle s
  | memberUnbind cle => exact execMemberUnbind_ran cle s
  | collDoorbell vh slice wide slot index entries => exact execCollDoorbell_ran vh slice wide slot index entries s
  | collDescriptorStart slot => exact execCollDescriptorStart_ran slot s
  | collUpRx port p => exact execCollUpRx_ran port p s
  | collDownRx port p => exact execCollDownRx_ran port p s
  | collFaultRx port p => exact execCollFaultRx_ran port p s
  | collAbortRx port p => exact execCollAbortRx_ran port p s
  | collGoOnRx port p => exact execCollGoOnRx_ran port p s
  | collRedeliverRx port p => exact execCollRedeliverRx_ran port p s
  | collFaultTimeout group => exact execCollFaultTimeout_ran group s
  | collOpTimeout group => exact execCollOpTimeout_ran group s
  | expTlpRx idx t => exact execExpTlpRx_ran idx t s
  | configRequest vh type1 wr bus dev fn off be data req tag => exact execConfigRequest_ran vh type1 wr bus dev fn off be data req tag s
  | vhHotReset far vh => exact execVhHotReset_ran far vh s
  | bind far vh grant dexp ld => exact execBind_ran far vh grant dexp ld s
  | unbind far vh dexp ld => exact execUnbind_ran far vh dexp ld s
  | bindHoldoffEnd idx => exact execBindHoldoffEnd_ran idx s
  | pwRdLive => exact execPwRdLive_ran s
  | pwRdShadow => exact execPwRdShadow_ran s
  | pwWrShadow => exact execPwWrShadow_ran s
  | pwCommit => exact execPwCommit_ran s
  | pwDiscard => exact execPwDiscard_ran s
  | isoSet idx => exact execIsoSet_ran idx s
  | isoRel host idx => exact execIsoRel_ran host idx s
  | dpcTrigger far surprise idx vh dev => exact execDpcTrigger_ran far surprise idx vh dev s
  | expDlChange idx up speed width cxl lds t => exact execExpDlChange_ran idx up speed width cxl lds t s
  | expEnWrite idx value => exact execExpEnWrite_ran idx value s
  | compositePacketRx p => exact execCompositePacketRx_ran p s
  | compositeAckRx src cls ackSeq => exact execCompositeAckRx_ran src cls ackSeq s
  | compositeNakRx src cls ackSeq => exact execCompositeNakRx_ran src cls ackSeq s
  | compositeAckSend src cls => exact execCompositeAckSend_ran src cls s
  | cmpRtoExpire member cls => exact execCmpRtoExpire_ran member cls s
  | cplTmoExpire vh member req tag => exact execCplTmoExpire_ran vh member req tag s
  | slotPrsntChange slot level => exact execSlotPrsntChange_ran slot level s
  | slotWakeEdge slot => exact execSlotWakeEdge_ran slot s
  | slotAlertEdge slot => exact execSlotAlertEdge_ran slot s
  | slotClkreqChange slot level => exact execSlotClkreqChange_ran slot level s
  | perstDeassertTimer idx => exact execPerstDeassertTimer_ran idx s
  | bmeClear vh => exact execBmeClear_ran vh s
  | initiateFlr vh => exact execInitiateFlr_ran vh s
  | flrComplete vh => exact execFlrComplete_ran vh s
  | d3hotEntry vh => exact execD3hotEntry_ran vh s
  | d0Return vh => exact execD0Return_ran vh s
  | tagQuarantineEnd vh tag => exact execTagQuarantineEnd_ran vh tag s
  | sliceCreate slice => exact execSliceCreate_ran slice s
  | sliceQuiesce slice => exact execSliceQuiesce_ran slice s
  | sliceDrained slice => exact execSliceDrained_ran slice s
  | sliceQuiesceTmo slice => exact execSliceQuiesceTmo_ran slice s
  | sliceResume slice => exact execSliceResume_ran slice s
  | sliceReset slice => exact execSliceReset_ran slice s
  | sliceForceReset slice => exact execSliceForceReset_ran slice s
  | sliceRemove slice => exact execSliceRemove_ran slice s
  | sliceResetComplete slice => exact execSliceResetComplete_ran slice s
  | commandDoorbell vh slice wide index entries => exact execCommandDoorbell_ran vh slice wide index entries s
  | commandRingEntry slice data pages ok => exact execCommandRingEntry_ran slice data pages ok s
  | eventRingDoorbell vh slice value => exact execEventRingDoorbell_ran vh slice value s
  | msixUnmask vh vec => exact execMsixUnmask_ran vh vec s
  | atsTranslationCompletion vh pasid page ok to_ read write => exact execAtsTranslationCompletion_ran vh pasid page ok to_ read write s
  | prgResponse vh pasid page ok => exact execPrgResponse_ran vh pasid page ok s
  | pageRequestTimeout vh pasid page => exact execPageRequestTimeout_ran vh pasid page s
  | atsInvalidateRequest vh itag pasid page pages => exact execAtsInvalidateRequest_ran vh itag pasid page pages s
  | atsInvalidateComplete vh itag => exact execAtsInvalidateComplete_ran vh itag s
  | timeFlitSend port => exact execTimeFlitSend_ran port s
  | timeFlitRx port flit => exact execTimeFlitRx_ran port flit s
  | gmRoundTick => exact execGmRoundTick_ran s
  | gmRecordStale port => exact execGmRecordStale_ran port s
  | holdoverExpire => exact execHoldoverExpire_ran s
  | ppsInEdge => exact execPpsInEdge_ran s
  | ppsInLost => exact execPpsInLost_ran s
  | ppsOutSecond => exact execPpsOutSecond_ran s
  | setGo => exact execSetGo_ran s
  | phaseLoadGo => exact execPhaseLoadGo_ran s
  | hznRead => exact execHznRead_ran s
  | hznWrite => exact execHznWrite_ran s
  | arm => exact execArm_ran s
  | disarm => exact execDisarm_ran s
  | horizonFire => exact execHorizonFire_ran s
  | feedPresentChange feed present => exact execFeedPresentChange_ran feed present s
  | feedGood feed => exact execFeedGood_ran feed s
  | feedBelowSwLevel => exact execFeedBelowSwLevel_ran s
  | switchNow => exact execSwitchNow_ran s
  | feedSwitchBack => exact execFeedSwitchBack_ran s
  | efuseTrip feed cause peak => exact execEfuseTrip_ran feed cause peak s
  | pathOpenConfirmed feed => exact execPathOpenConfirmed_ran feed s
  | retryPeriodExpire feed => exact execRetryPeriodExpire_ran feed s
  | inrushChargeComplete feed => exact execInrushChargeComplete_ran feed s
  | tripClr feed => exact execTripClr_ran feed s
  | dipBegin => exact execDipBegin_ran s
  | dipEnd minMv => exact execDipEnd_ran minMv s
  | throttleEnd => exact execThrottleEnd_ran s
  | lossOfSupply => exact execLossOfSupply_ran s
  | aonPowerLoss => exact execAonPowerLoss_ran s
  | plinkAck dom => exact execPlinkAck_ran dom s
  | plinkRequestTimeout dom => exact execPlinkRequestTimeout_ran dom s
  | plinkMeasurementReport vinA vinB iinA iinB vbank pIn mj => exact execPlinkMeasurementReport_ran vinA vinB iinA iinB vbank pIn mj s
  | pwrReq value => exact execPwrReq_ran value s
  | domainTransitionDone dom => exact execDomainTransitionDone_ran dom s
  | domainWake dom code => exact execDomainWake_ran dom code s
  | spdmGetVersion ep => exact execSpdmGetVersion_ran ep s
  | spdmGetCapabilities ep => exact execSpdmGetCapabilities_ran ep s
  | spdmNegotiateAlgorithms ep => exact execSpdmNegotiateAlgorithms_ran ep s
  | spdmGetDigests ep => exact execSpdmGetDigests_ran ep s
  | spdmGetCertificate ep slot offset length => exact execSpdmGetCertificate_ran ep slot offset length s
  | spdmChallenge ep slot summary context => exact execSpdmChallenge_ran ep slot summary context s
  | spdmGetMeasurements ep op signed context => exact execSpdmGetMeasurements_ran ep op signed context s
  | spdmOtherRequest ep code => exact execSpdmOtherRequest_ran ep code s
  | setEndpointId ep op eid => exact execSetEndpointId_ran ep op eid s
  | getEndpointId ep => exact execGetEndpointId_ran ep s
  | getMctpVersionSupport ep type => exact execGetMctpVersionSupport_ran ep type s
  | getMessageTypeSupport ep => exact execGetMessageTypeSupport_ran ep s
  | doeDiscovery vh index => exact execDoeDiscovery_ran vh index s
  | patrolScrub word corrected => exact execPatrolScrub_ran word corrected s
  | deviceFaultDetect clock => exact execDeviceFaultDetect_ran clock s
  | mpWatchdogMiss uncorr => exact execMpWatchdogMiss_ran uncorr s
  | logClr => exact execLogClr_ran s
  | rdGo => exact execRdGo_ran s
  | agingMeasure roPpm margins => exact execAgingMeasure_ran roPpm margins s
  | agingTrendPeriod => exact execAgingTrendPeriod_ran s
  | chkGo job => exact execChkGo_ran job s
  | chkAbort job bytes data => exact execChkAbort_ran job bytes data s
  | chkJobComplete job ended bytes data => exact execChkJobComplete_ran job ended bytes data s
  | chkWatchReread job data => exact execChkWatchReread_ran job data s
  | thermalSample temps => exact execThermalSample_ran temps s
  | thermalThrottleEnd => exact execThermalThrottleEnd_ran s
  | deferredWarmReset => exact execDeferredWarmReset_ran s
  | vioChange mv => exact execVioChange_ran mv s
  | feedNotGood feed => exact execFeedNotGood_ran feed s
  | retryAttempt feed => exact execRetryAttempt_ran feed s
  | expFlowControlCreditRx port cls hdr data => exact execExpFlowControlCreditRx_ran port cls hdr data s
  | hostSliceRegisterWrite vh slice reg value => exact execHostSliceRegisterWrite_ran vh slice reg value s

end Sys2Proof.Machine
end

