-- ==== Sys2Proof/Laws/Keep.lean ====
section
/-!
SUPPORT. What follows from the parts a command touches: the tables stay canonical, the trace and the count of free values only grow, OTP only
rises, local time stands still, and every part that is not touched is as before.
-/

namespace Sys2Proof.Machine

theorem keepRegs_wf (kind : Nat) (r : SMap Word) (h : smWf coldWord r) : smWf coldWord (keepRegs kind r) := by
  obtain ⟨h1, _⟩ := h
  unfold keepRegs
  refine ⟨?_, ?_⟩
  · refine h1.filterMap _ ?_
    intro a b hab c hc d hd
    split at hc
    · cases hc
    · split at hd
      · cases hd
      · cases hc
        cases hd
        exact hab
  · intro e he
    obtain ⟨x, _, hx⟩ := List.mem_filterMap.mp he
    split at hx
    · cases hx
    · next hne => cases hx; exact hne

theorem otpRises_refl (a : Otp) : otpRises a a :=
  ⟨rfl, List.prefix_refl _, Nat.le_refl _, Nat.le_refl _, rfl, rfl, rfl, .inl rfl, fun _ w h => ⟨w, h, rfl, id, id⟩⟩

theorem otpRises_trans {a b c : Otp} (h : otpRises a b) (g : otpRises b c) : otpRises a c := by
  obtain ⟨h1, h2, h3, h4, h5, h6, h7, h8, h9⟩ := h
  obtain ⟨g1, g2, g3, g4, g5, g6, g7, g8, g9⟩ := g
  refine ⟨g1.trans h1, h2.trans g2, Nat.le_trans h3 g3, Nat.le_trans h4 g4, g5.trans h5, g6.trans h6, g7.trans h7, ?_, ?_⟩
  · cases g8 with
    | inl k => rw [k]; exact h8
    | inr k => exact .inr k
  · intro i w hw
    obtain ⟨v, hv, e, k1, k2⟩ := h9 i w hw
    obtain ⟨u, hu, e', l1, l2⟩ := g9 i v hv
    exact ⟨u, hu, e'.trans e, fun x => l1 (k1 x), fun x => l2 (k2 x)⟩

theorem wr_wf (f : Fld) (inst v : Nat) (d : Dev) (h : smWf coldWord d.regs) : smWf coldWord (wr f inst v d).regs := smSet_wf _ _ _ _ h

theorem resetDev_sound (k : Nat) (d : Dev) (h : d.sound) : (resetDev k d).sound := by
  have hr : smWf coldWord (if k = 1 then wr (fLeft 0) 0 (retryLeft 0 d) (wr (fLeft 1) 0 (retryLeft 1 d) d) else d).regs := by
    by_cases hk : k = 1
    · rw [if_pos hk]
      exact wr_wf _ _ _ _ (wr_wf _ _ _ _ h.2)
    · rw [if_neg hk]
      exact h.2
  exact ⟨⟨⟨.nil, fun _ h => nomatch h⟩, fun _ h => nomatch h⟩, keepRegs_wf k _ hr⟩

theorem memWrite_wf (a : Nat) (b : Byte) (d : Dev) (h : Memory.wf d.mem) : Memory.wf (memWrite a b d).mem := by
  unfold memWrite
  split
  · next ha =>
    refine ⟨smSet_wf _ _ _ _ h.1, fun c hc => ?_⟩
    dsimp only at hc
    unfold smSet at hc
    split at hc
    · exact h.2 c (smErase_mem _ _ _ hc)
    · cases smPut_keys _ _ _ _ hc with
      | inl e => rw [e]; exact ha
      | inr e => exact h.2 c e
  · exact h

theorem prim_sound {i : Nat} {a b : Dev} (p : Prim i a b) (h : a.sound) : b.sound := by
  cases p with
  | word => exact ⟨h.1, smSet_wf _ _ _ _ h.2⟩
  | mem =>
    refine ⟨memWrite_wf _ _ _ h.1, ?_⟩
    unfold memWrite
    split <;> exact h.2
  | lose _ p => exact ⟨⟨smWf_filter _ _ _ h.1.1, fun c hc => h.1.2 c (List.mem_filter.mp hc).1⟩, h.2⟩
  | reset _ k => exact resetDev_sound k a h
  | _ => exact h

theorem Eff.sound {t : Nat} {a b : Dev} (e : Eff t a b) (h : a.sound) : b.sound := by
  induction e with
  | refl => exact h
  | tail _ p _ ih => exact prim_sound p ih

theorem Eff.out {t : Nat} {a b : Dev} (e : Eff t a b) : ∃ l, b.out = l ++ a.out := by
  induction e with
  | refl => exact ⟨[], rfl⟩
  | tail _ p _ ih =>
    obtain ⟨l, hl⟩ := ih
    cases p with
    | out _ e => exact ⟨e :: l, by show _ :: _ = _; rw [hl]; rfl⟩
    | mem =>
      refine ⟨l, ?_⟩
      unfold memWrite
      split <;> exact hl
    | _ => exact ⟨l, hl⟩

theorem Eff.free {t : Nat} {a b : Dev} (e : Eff t a b) : a.freeCtr ≤ b.freeCtr := by
  induction e with
  | refl => exact Nat.le_refl _
  | tail _ p _ ih =>
    cases p with
    | free => exact Nat.le_succ_of_le ih
    | mem =>
      unfold memWrite
      split <;> exact ih
    | _ => exact ih

theorem Eff.otp {t : Nat} {a b : Dev} (e : Eff t a b) : otpRises a.otp b.otp := by
  induction e with
  | refl => exact otpRises_refl _
  | tail _ p _ ih =>
    cases p with
    | otp _ _ h => exact otpRises_trans ih h
    | mem =>
      unfold memWrite
      split <;> exact ih
    | _ => exact ih

theorem Eff.localNs {t : Nat} {a b : Dev} (e : Eff t a b) (ht : t.testBit 19 = false) : b.th.localNs = a.th.localNs := by
  induction e with
  | refl => rfl
  | tail _ p hi ih =>
    cases p with
    | th _ _ h => exact h.trans ih
    | mem =>
      unfold memWrite
      split <;> exact ih
    | reset => rw [ht] at hi; cases hi
    | _ => exact ih

/-- The number of a part. -/
def Part.bit : Part → Nat
  | .regs => 0 | .mem => 1 | .out => 2 | .freeCtr => 3 | .mg => 4 | .boot => 5 | .otp => 6 | .sec => 7 | .log => 8 | .chk => 9 | .fd => 10
  | .pw => 11 | .th => 12 | .cmp => 13 | .sens => 14 | .net => 15 | .eng => 16 | .coll => 17 | .sw => 18

theorem same_trans {p : Part} {a b c : Dev} (h : a.same p b) (g : b.same p c) : a.same p c := by
  cases p <;> exact Eq.trans g h

theorem prim_same {i : Nat} {a b : Dev} {p : Part} (h : Prim i a b) (hp : i ≠ p.bit) (hr : i = 19 → p = .otp) : a.same p b := by
  cases h with
  | mem =>
    unfold memWrite
    split <;> cases p <;> first | rfl | exact absurd rfl hp
  | reset k =>
    cases hr rfl
    rfl
  | _ => cases p <;> first | rfl | exact absurd rfl hp

theorem Eff.same {t : Nat} {a b : Dev} {p : Part} (e : Eff t a b) (hp : t.testBit p.bit = false) (hr : t.testBit 19 = false ∨ p = .otp) :
    a.same p b := by
  induction e with
  | refl => cases p <;> rfl
  | @tail b c i h q hi ih =>
    refine same_trans ih (prim_same q ?_ ?_)
    · rintro rfl
      rw [hp] at hi
      cases hi
    · rintro rfl
      cases hr with
      | inl k => rw [k] at hi; cases hi
      | inr k => exact k

end Sys2Proof.Machine
end

