-- ==== Sys2Proof/Laws/Parts.lean ====
section
/-!
SUPPORT. The parts that `cmdParts` lists for a command are those its lemma says it touches.
-/

namespace Sys2Proof.Machine

/-- A list of parts names every part of a set. -/
def covers (l : List Part) (m : Nat) : Bool := allParts.all (fun p => l.contains p || !m.testBit p.bit)

theorem covers_out {l : List Part} {m : Nat} {p : Part} (h : covers l m = true) (hp : p ∉ l) : m.testBit p.bit = false := by
  have hm : p ∈ allParts := by cases p <;> decide
  have := List.all_eq_true.mp h p hm
  rw [List.contains_eq_any_beq] at this
  cases hb : m.testBit p.bit
  · rfl
  · rw [hb] at this
    simp only [Bool.not_true, Bool.or_false, List.any_eq_true, beq_iff_eq] at this
    obtain ⟨x, hx, rfl⟩ := this
    exact absurd hx hp

/-- Only commands for which every part is listed may run a reset of the whole block. -/
def noReset (l : List Part) (m : Nat) : Bool := decide (l = allParts) || !m.testBit 19

theorem cmdParts_covers (c : Sys2Proof.Instr) : (covers (cmdParts c) (touched c) && noReset (cmdParts c) (touched c)) = true := by
  cases c <;> (dsimp only [cmdParts, touched]; rfl)

theorem cmdParts_bit {c : Sys2Proof.Instr} {p : Part} (hp : p ∉ cmdParts c) : (touched c).testBit p.bit = false :=
  covers_out (Bool.and_eq_true_iff.mp (cmdParts_covers c)).1 hp

theorem cmdParts_reset {c : Sys2Proof.Instr} (h : cmdParts c ≠ allParts) : (touched c).testBit 19 = false := by
  have := (Bool.and_eq_true_iff.mp (cmdParts_covers c)).2
  unfold noReset at this
  rw [decide_eq_false h] at this
  simpa using this

end Sys2Proof.Machine
end

