-- ==== Sys2Proof/Laws/Read.lean ====
section
/-!
SUPPORT. Reading after writing: register words, fields of other words, package memory, and lists of cases walked one after another.
-/

namespace Sys2Proof.Machine

/-! ## Register words -/

theorem wordAt_setWord (a b : Nat) (w : Word) (d : Dev) (h : smWf coldWord d.regs) :
    wordAt a (setWord b w d) = if a = b then w else wordAt a d := smGet_set coldWord d.regs b a w h.1

theorem setWord_wf (a : Nat) (w : Word) (d : Dev) (h : smWf coldWord d.regs) : smWf coldWord (setWord a w d).regs := smSet_wf _ _ _ _ h

theorem wrI_wf (f : Fld) (inst i v : Nat) (d : Dev) (h : smWf coldWord d.regs) : smWf coldWord (wrI f inst i v d).regs := smSet_wf _ _ _ _ h

theorem wordAt_wrI (f : Fld) (inst i v : Nat) (d : Dev) (h : smWf coldWord d.regs) (a : Nat) :
    wordAt a (wrI f inst i v d) = if a = fldAddr f inst i then setBits (wordAt (fldAddr f inst i) d) f.lo f.wd v else wordAt a d :=
  wordAt_setWord _ _ _ _ h

theorem wordAt_wrI_ne {f : Fld} {inst i v a : Nat} {d : Dev} (h : smWf coldWord d.regs) (n : a ≠ fldAddr f inst i) :
    wordAt a (wrI f inst i v d) = wordAt a d := by rw [wordAt_wrI _ _ _ _ _ h, if_neg n]

theorem rdI_wrI_ne {f g : Fld} {inst i v ing j : Nat} {d : Dev} (h : smWf coldWord d.regs) (n : fldAddr g ing j ≠ fldAddr f inst i) :
    rdI g ing j (wrI f inst i v d) = rdI g ing j d := by unfold rdI; rw [wordAt_wrI_ne h n]

/-! ## What an operation leaves alone, by definition -/

@[simp] theorem wordAt_emit (a : Nat) (k : Chan) (f : List Nat) (b : List Byte) (d : Dev) : wordAt a (emit k f b d) = wordAt a d := rfl
@[simp] theorem memRead_emit (a : Nat) (k : Chan) (f : List Nat) (b : List Byte) (d : Dev) : memRead a (emit k f b d) = memRead a d := rfl
@[simp] theorem memRead_setWord (a b : Nat) (w : Word) (d : Dev) : memRead a (setWord b w d) = memRead a d := rfl
@[simp] theorem memRead_wrI (a : Nat) (f : Fld) (inst i v : Nat) (d : Dev) : memRead a (wrI f inst i v d) = memRead a d :=
  memRead_setWord a _ _ d

/-! ## Package memory -/

theorem memRead_set (a b : Nat) (x : Byte) (d : Dev) (h : Memory.wf d.mem) (hb : b < memSize) :
    memRead a (memWrite b x d) = if a = b then x else memRead a d := by
  unfold memWrite
  rw [if_pos hb]
  exact smGet_set memDflt d.mem b a x h.1.1

/-! ## Lists walked one after another -/

@[simp] theorem forEach_nil {α : Type} (f : α → Dev → Dev) (d : Dev) : forEach [] f d = d := rfl
@[simp] theorem forEach_cons {α : Type} (x : α) (l : List α) (f : α → Dev → Dev) (d : Dev) : forEach (x :: l) f d = forEach l f (f x d) := rfl
@[simp] theorem onlyIf_true (f : Dev → Dev) (d : Dev) : onlyIf true f d = f d := rfl
@[simp] theorem onlyIf_false (f : Dev → Dev) (d : Dev) : onlyIf false f d = d := rfl

/-! ## What a read leaves of OTP -/

theorem wordAt_updOtp (g : Otp → Otp) (a : Nat) (d : Dev) : wordAt a (updOtp g d) = wordAt a d := rfl

theorem setWord_updOtp (g : Otp → Otp) (a : Nat) (w : Word) (d : Dev) : setWord a w (updOtp g d) = updOtp g (setWord a w d) := rfl

theorem wrI_updOtp (g : Otp → Otp) (f : Fld) (inst i v : Nat) (d : Dev) : wrI f inst i v (updOtp g d) = updOtp g (wrI f inst i v d) := by
  unfold wrI
  rw [wordAt_updOtp, setWord_updOtp]

/-- What commutes with one turn of a loop commutes with the loop. -/
theorem forEach_comm {α : Type} (g : Dev → Dev) (f : α → Dev → Dev) (h : ∀ x d, f x (g d) = g (f x d)) (l : List α) (d : Dev) :
    forEach l f (g d) = g (forEach l f d) := by
  unfold forEach
  induction l generalizing d with
  | nil => rfl
  | cons x l ih => simp only [List.foldl_cons, h, ih]

/-- The clearing of the fields that a read clears works on registers and domain times alone. -/
theorem clearRc_updOtp (g : Otp → Otp) (ty inst off : Nat) (d : Dev) : clearRc ty inst off (updOtp g d) = updOtp g (clearRc ty inst off d) := by
  have hd : ∀ n x, domState n (updOtp g x) = domState n x := fun _ _ => rfl
  unfold clearRc
  dsimp only
  rw [forEach_comm (updOtp g)]
  · generalize forEach _ _ d = x
    rw [hd]
    split <;> rfl
  · intro f d
    cases fldIdx f off with
    | none => rfl
    | some i => exact wrI_updOtp ..

end Sys2Proof.Machine
end

