-- ==== Sys2Proof/Laws/Served.lean ====
section
/-!
SUPPORT. A write that is served reaches its register: what `trigger`, `mgmtWrite` and `pageWrite` come to then.
-/

namespace Sys2Proof.Machine

theorem mgmtWrite_served {ty inst off : Nat} {d : Dev} (h : served ty inst off d) (val : Word) (act : Dev → Dev) :
    mgmtWrite ty inst off val act d = act d := by
  obtain ⟨h1, h2, h3, h4, h5, _⟩ := h
  unfold mgmtWrite serve
  simp [h1, h2, h3, h4, h5]

theorem unlessLocked_served {ty inst off : Nat} {d : Dev} (h : served ty inst off d) (val : Word) (act : Dev → Dev) :
    unlessLocked ty inst off val act d = act d := by
  obtain ⟨_, _, _, _, _, h6⟩ := h
  unfold unlessLocked
  rw [if_neg]
  rintro ⟨a, b⟩
  cases h6 with
  | inl k => rw [a] at k; cases k
  | inr k => rw [b] at k; cases k

theorem trigger_served {ty inst off : Nat} {d : Dev} (h : served ty inst off d) (bit : Nat) (act : Word → Dev → Dev) :
    trigger ty inst off bit act d = act (trigWord ty inst off bit d) d := by
  unfold trigger
  rw [mgmtWrite_served h, unlessLocked_served h]
  rfl

/-! ## A management address and its parts -/

theorem addrType_regAddr {ty inst off : Nat} (h1 : ty < 64) (h2 : inst < 256) (h3 : off < 4096) : addrType (regAddr ty inst off) = ty := by
  unfold addrType regAddr bitsOf; omega
theorem addrInst_regAddr {ty inst off : Nat} (h2 : inst < 256) (h3 : off < 4096) : addrInst (regAddr ty inst off) = inst := by
  unfold addrInst regAddr bitsOf; omega
theorem addrOff_regAddr {ty inst off : Nat} (h3 : off < 4096) : addrOff (regAddr ty inst off) = off := by
  unfold addrOff regAddr bitsOf; omega

theorem instCount_zero {ty : Nat} (h : 32 ≤ ty) : instCount ty = 0 := by
  unfold instCount
  have : instCounts.length ≤ ty := h
  simp [List.getD, List.getElem?_eq_none this]

theorem instCount_lt (ty : Nat) : instCount ty < 240 ∨ ty = 28 := by
  by_cases h : ty < 32
  · have : ∀ t < 32, instCount t < 240 ∨ t = 28 := by decide
    exact this ty h
  · rw [instCount_zero (by omega)]; exact .inl (by decide)

theorem instCount_le (ty : Nat) : instCount ty ≤ 256 := by
  rcases instCount_lt ty with h | h
  · omega
  · subst h; decide

theorem served_bounds {ty inst off : Nat} {d : Dev} (h : served ty inst off d) :
    ty < 32 ∧ inst < 256 ∧ off % 4 = 0 ∧ isBcast ty inst = false := by
  obtain ⟨_, _, h3, h4, _, _⟩ := h
  have hi : inst < instCount ty := by
    unfold pageExists at h3; simp only [Bool.and_eq_true, decide_eq_true_eq] at h3; exact h3.1.1
  have ho : off % 4 = 0 := by
    unfold offsetOk at h4; simp only [Bool.and_eq_true, beq_iff_eq] at h4; exact h4.1.1.1
  have ht : ty < 32 := by
    apply Nat.lt_of_not_le; intro hc; rw [instCount_zero hc] at hi; omega
  refine ⟨ht, Nat.lt_of_lt_of_le hi (instCount_le ty), ho, ?_⟩
  rcases instCount_lt ty with k | k
  · unfold isBcast
    rw [decide_eq_false (by omega)]; rfl
  · subst k; unfold isBcast bcastOk; simp

theorem acceptWrite_served {ty inst off : Nat} {d : Dev} (h : served ty inst off d) (hoff : off < 4096) (aux : Aux) (val : Word)
    (hd : off = 8 → val.getLsbD 1 = true → domOn (domainOf ty inst) d = true) :
    acceptWrite aux (regAddr ty inst off) val d = applyWord aux ty inst off val d := by
  obtain ⟨ht, hi, ho, hb⟩ := served_bounds h
  obtain ⟨h1, h2, h3, h4, h5, _⟩ := h
  have ha : ¬ (regAddr ty inst off % 4 ≠ 0 ∨ 2 ^ 26 ≤ regAddr ty inst off) := by unfold regAddr; omega
  unfold acceptWrite
  simp only [addrType_regAddr (show ty < 64 by omega) hi hoff, addrInst_regAddr hi hoff, addrOff_regAddr hoff, hb, if_neg ha]
  have hn : ¬ (off = 8 ∧ val.getLsbD 1 = true ∧ pageExists ty inst d = true ∧ domOn (domainOf ty inst) d = false) := by
    rintro ⟨a, b, _, c⟩
    rw [hd a b] at c; cases c
  unfold serveWord
  rw [if_neg Bool.false_ne_true, if_neg hn]
  unfold serve
  simp only [h3, h4, h5, Bool.and_self, Bool.not_true, if_false, Bool.false_eq_true]

theorem pathWrite_served {ty inst off : Nat} {d : Dev} (h : served ty inst off d) (hoff : off < 4096) (aux : Aux) (val : Word)
    (hd : off = 8 → val.getLsbD 1 = true → domOn (domainOf ty inst) d = true) :
    pathWrite aux (regAddr ty inst off) val d = applyWord aux ty inst off val d := by
  unfold pathWrite
  rw [acceptWrite_served h hoff aux val hd, if_neg (by simp [h.2.1]), if_pos h.1]

theorem pageWrite_served {ty inst off : Nat} {d : Dev} (h : served ty inst off d) (hoff : off < 4096) (val : Word)
    (hd : off = 8 → val.getLsbD 1 = true → domOn (domainOf ty inst) d = true) :
    pageWrite ty inst off val d = applyWord ⟨[], true, 0⟩ ty inst off val d := by
  obtain ⟨ht, hi, _, _⟩ := served_bounds h
  unfold pageWrite onlyIf
  rw [pathWrite_served h hoff ⟨[], true, 0⟩ val hd, if_pos (by simp; omega)]

/-- At an offset, no field of a type has a reset value that names the instance. -/
def litOnly (ty off : Nat) : Bool := (fieldsOf ty).all (fun f => (fldIdx f off).isNone || match f.init with | .lit _ => true | _ => false)

theorem cold_inst {ty inst off : Nat} (ht : ty < 64) (hi : inst < 256) (ho : off < 4096) (h : litOnly ty off = true) :
    coldWord (regAddr ty inst off) = coldWord (regAddr ty 0 off) := by
  unfold coldWord
  rw [addrType_regAddr ht hi ho, addrInst_regAddr hi ho, addrOff_regAddr ho, addrType_regAddr ht (by omega) ho, addrInst_regAddr (by omega) ho,
    addrOff_regAddr ho]
  have h' := List.all_eq_true.mp h
  generalize (0 : Word) = w
  revert w
  generalize fieldsOf ty = l at h'
  induction l with
  | nil => intro w; rfl
  | cons f l ih =>
    intro w
    simp only [List.foldl_cons]
    have hf := h' f (by simp)
    have e : layRow (fun f i => initValue f ty inst i) off w f = layRow (fun f i => initValue f ty 0 i) off w f := by
      unfold layRow
      split
      · rename_i i hi'
        rw [hi'] at hf
        simp only [Option.isNone_some, Bool.false_or] at hf
        congr 1
        unfold initValue
        split at hf <;> simp_all
      · rfl
    rw [e]
    exact ih (fun g hg => h' g (by simp [hg])) _

end Sys2Proof.Machine
end

