-- ==== Sys2Proof/Laws/State.lean ====
section
/-!
SUPPORT. One lemma for each part of the block and each plain update: the part it changes, and that it leaves the others.
-/

namespace Sys2Proof.Machine

@[simp] theorem setWord_regs (a : Nat) (w : Word) (d : Dev) : (setWord a w d).regs = smSet coldWord d.regs a w := rfl
@[simp] theorem setWord_mem (a : Nat) (w : Word) (d : Dev) : (setWord a w d).mem = d.mem := rfl
@[simp] theorem setWord_out (a : Nat) (w : Word) (d : Dev) : (setWord a w d).out = d.out := rfl
@[simp] theorem setWord_freeCtr (a : Nat) (w : Word) (d : Dev) : (setWord a w d).freeCtr = d.freeCtr := rfl
@[simp] theorem setWord_mg (a : Nat) (w : Word) (d : Dev) : (setWord a w d).mg = d.mg := rfl
@[simp] theorem setWord_boot (a : Nat) (w : Word) (d : Dev) : (setWord a w d).boot = d.boot := rfl
@[simp] theorem setWord_otp (a : Nat) (w : Word) (d : Dev) : (setWord a w d).otp = d.otp := rfl
@[simp] theorem setWord_sec (a : Nat) (w : Word) (d : Dev) : (setWord a w d).sec = d.sec := rfl
@[simp] theorem setWord_log (a : Nat) (w : Word) (d : Dev) : (setWord a w d).log = d.log := rfl
@[simp] theorem setWord_chk (a : Nat) (w : Word) (d : Dev) : (setWord a w d).chk = d.chk := rfl
@[simp] theorem setWord_fd (a : Nat) (w : Word) (d : Dev) : (setWord a w d).fd = d.fd := rfl
@[simp] theorem setWord_pw (a : Nat) (w : Word) (d : Dev) : (setWord a w d).pw = d.pw := rfl
@[simp] theorem setWord_th (a : Nat) (w : Word) (d : Dev) : (setWord a w d).th = d.th := rfl
@[simp] theorem setWord_cmp (a : Nat) (w : Word) (d : Dev) : (setWord a w d).cmp = d.cmp := rfl
@[simp] theorem setWord_sens (a : Nat) (w : Word) (d : Dev) : (setWord a w d).sens = d.sens := rfl
@[simp] theorem setWord_net (a : Nat) (w : Word) (d : Dev) : (setWord a w d).net = d.net := rfl
@[simp] theorem setWord_eng (a : Nat) (w : Word) (d : Dev) : (setWord a w d).eng = d.eng := rfl
@[simp] theorem setWord_coll (a : Nat) (w : Word) (d : Dev) : (setWord a w d).coll = d.coll := rfl
@[simp] theorem setWord_sw (a : Nat) (w : Word) (d : Dev) : (setWord a w d).sw = d.sw := rfl

@[simp] theorem emit_regs (c : Chan) (f : List Nat) (b : List Byte) (d : Dev) : (emit c f b d).regs = d.regs := rfl
@[simp] theorem emit_mem (c : Chan) (f : List Nat) (b : List Byte) (d : Dev) : (emit c f b d).mem = d.mem := rfl
@[simp] theorem emit_out (c : Chan) (f : List Nat) (b : List Byte) (d : Dev) : (emit c f b d).out = ⟨c, f, b⟩ :: d.out := rfl
@[simp] theorem emit_freeCtr (c : Chan) (f : List Nat) (b : List Byte) (d : Dev) : (emit c f b d).freeCtr = d.freeCtr := rfl
@[simp] theorem emit_mg (c : Chan) (f : List Nat) (b : List Byte) (d : Dev) : (emit c f b d).mg = d.mg := rfl
@[simp] theorem emit_boot (c : Chan) (f : List Nat) (b : List Byte) (d : Dev) : (emit c f b d).boot = d.boot := rfl
@[simp] theorem emit_otp (c : Chan) (f : List Nat) (b : List Byte) (d : Dev) : (emit c f b d).otp = d.otp := rfl
@[simp] theorem emit_sec (c : Chan) (f : List Nat) (b : List Byte) (d : Dev) : (emit c f b d).sec = d.sec := rfl
@[simp] theorem emit_log (c : Chan) (f : List Nat) (b : List Byte) (d : Dev) : (emit c f b d).log = d.log := rfl
@[simp] theorem emit_chk (c : Chan) (f : List Nat) (b : List Byte) (d : Dev) : (emit c f b d).chk = d.chk := rfl
@[simp] theorem emit_fd (c : Chan) (f : List Nat) (b : List Byte) (d : Dev) : (emit c f b d).fd = d.fd := rfl
@[simp] theorem emit_pw (c : Chan) (f : List Nat) (b : List Byte) (d : Dev) : (emit c f b d).pw = d.pw := rfl
@[simp] theorem emit_th (c : Chan) (f : List Nat) (b : List Byte) (d : Dev) : (emit c f b d).th = d.th := rfl
@[simp] theorem emit_cmp (c : Chan) (f : List Nat) (b : List Byte) (d : Dev) : (emit c f b d).cmp = d.cmp := rfl
@[simp] theorem emit_sens (c : Chan) (f : List Nat) (b : List Byte) (d : Dev) : (emit c f b d).sens = d.sens := rfl
@[simp] theorem emit_net (c : Chan) (f : List Nat) (b : List Byte) (d : Dev) : (emit c f b d).net = d.net := rfl
@[simp] theorem emit_eng (c : Chan) (f : List Nat) (b : List Byte) (d : Dev) : (emit c f b d).eng = d.eng := rfl
@[simp] theorem emit_coll (c : Chan) (f : List Nat) (b : List Byte) (d : Dev) : (emit c f b d).coll = d.coll := rfl
@[simp] theorem emit_sw (c : Chan) (f : List Nat) (b : List Byte) (d : Dev) : (emit c f b d).sw = d.sw := rfl

@[simp] theorem takeFree_regs (d : Dev) : (takeFree d).regs = d.regs := rfl
@[simp] theorem takeFree_mem (d : Dev) : (takeFree d).mem = d.mem := rfl
@[simp] theorem takeFree_out (d : Dev) : (takeFree d).out = d.out := rfl
@[simp] theorem takeFree_freeCtr (d : Dev) : (takeFree d).freeCtr = d.freeCtr + 1 := rfl
@[simp] theorem takeFree_mg (d : Dev) : (takeFree d).mg = d.mg := rfl
@[simp] theorem takeFree_boot (d : Dev) : (takeFree d).boot = d.boot := rfl
@[simp] theorem takeFree_otp (d : Dev) : (takeFree d).otp = d.otp := rfl
@[simp] theorem takeFree_sec (d : Dev) : (takeFree d).sec = d.sec := rfl
@[simp] theorem takeFree_log (d : Dev) : (takeFree d).log = d.log := rfl
@[simp] theorem takeFree_chk (d : Dev) : (takeFree d).chk = d.chk := rfl
@[simp] theorem takeFree_fd (d : Dev) : (takeFree d).fd = d.fd := rfl
@[simp] theorem takeFree_pw (d : Dev) : (takeFree d).pw = d.pw := rfl
@[simp] theorem takeFree_th (d : Dev) : (takeFree d).th = d.th := rfl
@[simp] theorem takeFree_cmp (d : Dev) : (takeFree d).cmp = d.cmp := rfl
@[simp] theorem takeFree_sens (d : Dev) : (takeFree d).sens = d.sens := rfl
@[simp] theorem takeFree_net (d : Dev) : (takeFree d).net = d.net := rfl
@[simp] theorem takeFree_eng (d : Dev) : (takeFree d).eng = d.eng := rfl
@[simp] theorem takeFree_coll (d : Dev) : (takeFree d).coll = d.coll := rfl
@[simp] theorem takeFree_sw (d : Dev) : (takeFree d).sw = d.sw := rfl

@[simp] theorem updEng_regs (f : Eng → Eng) (d : Dev) : (updEng f d).regs = d.regs := rfl
@[simp] theorem updEng_mem (f : Eng → Eng) (d : Dev) : (updEng f d).mem = d.mem := rfl
@[simp] theorem updEng_out (f : Eng → Eng) (d : Dev) : (updEng f d).out = d.out := rfl
@[simp] theorem updEng_freeCtr (f : Eng → Eng) (d : Dev) : (updEng f d).freeCtr = d.freeCtr := rfl
@[simp] theorem updEng_mg (f : Eng → Eng) (d : Dev) : (updEng f d).mg = d.mg := rfl
@[simp] theorem updEng_boot (f : Eng → Eng) (d : Dev) : (updEng f d).boot = d.boot := rfl
@[simp] theorem updEng_otp (f : Eng → Eng) (d : Dev) : (updEng f d).otp = d.otp := rfl
@[simp] theorem updEng_sec (f : Eng → Eng) (d : Dev) : (updEng f d).sec = d.sec := rfl
@[simp] theorem updEng_log (f : Eng → Eng) (d : Dev) : (updEng f d).log = d.log := rfl
@[simp] theorem updEng_chk (f : Eng → Eng) (d : Dev) : (updEng f d).chk = d.chk := rfl
@[simp] theorem updEng_fd (f : Eng → Eng) (d : Dev) : (updEng f d).fd = d.fd := rfl
@[simp] theorem updEng_pw (f : Eng → Eng) (d : Dev) : (updEng f d).pw = d.pw := rfl
@[simp] theorem updEng_th (f : Eng → Eng) (d : Dev) : (updEng f d).th = d.th := rfl
@[simp] theorem updEng_cmp (f : Eng → Eng) (d : Dev) : (updEng f d).cmp = d.cmp := rfl
@[simp] theorem updEng_sens (f : Eng → Eng) (d : Dev) : (updEng f d).sens = d.sens := rfl
@[simp] theorem updEng_net (f : Eng → Eng) (d : Dev) : (updEng f d).net = d.net := rfl
@[simp] theorem updEng_eng (f : Eng → Eng) (d : Dev) : (updEng f d).eng = f d.eng := rfl
@[simp] theorem updEng_coll (f : Eng → Eng) (d : Dev) : (updEng f d).coll = d.coll := rfl
@[simp] theorem updEng_sw (f : Eng → Eng) (d : Dev) : (updEng f d).sw = d.sw := rfl

@[simp] theorem updColl_regs (f : Coll → Coll) (d : Dev) : (updColl f d).regs = d.regs := rfl
@[simp] theorem updColl_mem (f : Coll → Coll) (d : Dev) : (updColl f d).mem = d.mem := rfl
@[simp] theorem updColl_out (f : Coll → Coll) (d : Dev) : (updColl f d).out = d.out := rfl
@[simp] theorem updColl_freeCtr (f : Coll → Coll) (d : Dev) : (updColl f d).freeCtr = d.freeCtr := rfl
@[simp] theorem updColl_mg (f : Coll → Coll) (d : Dev) : (updColl f d).mg = d.mg := rfl
@[simp] theorem updColl_boot (f : Coll → Coll) (d : Dev) : (updColl f d).boot = d.boot := rfl
@[simp] theorem updColl_otp (f : Coll → Coll) (d : Dev) : (updColl f d).otp = d.otp := rfl
@[simp] theorem updColl_sec (f : Coll → Coll) (d : Dev) : (updColl f d).sec = d.sec := rfl
@[simp] theorem updColl_log (f : Coll → Coll) (d : Dev) : (updColl f d).log = d.log := rfl
@[simp] theorem updColl_chk (f : Coll → Coll) (d : Dev) : (updColl f d).chk = d.chk := rfl
@[simp] theorem updColl_fd (f : Coll → Coll) (d : Dev) : (updColl f d).fd = d.fd := rfl
@[simp] theorem updColl_pw (f : Coll → Coll) (d : Dev) : (updColl f d).pw = d.pw := rfl
@[simp] theorem updColl_th (f : Coll → Coll) (d : Dev) : (updColl f d).th = d.th := rfl
@[simp] theorem updColl_cmp (f : Coll → Coll) (d : Dev) : (updColl f d).cmp = d.cmp := rfl
@[simp] theorem updColl_sens (f : Coll → Coll) (d : Dev) : (updColl f d).sens = d.sens := rfl
@[simp] theorem updColl_net (f : Coll → Coll) (d : Dev) : (updColl f d).net = d.net := rfl
@[simp] theorem updColl_eng (f : Coll → Coll) (d : Dev) : (updColl f d).eng = d.eng := rfl
@[simp] theorem updColl_coll (f : Coll → Coll) (d : Dev) : (updColl f d).coll = f d.coll := rfl
@[simp] theorem updColl_sw (f : Coll → Coll) (d : Dev) : (updColl f d).sw = d.sw := rfl

@[simp] theorem updSw_regs (f : Sw → Sw) (d : Dev) : (updSw f d).regs = d.regs := rfl
@[simp] theorem updSw_mem (f : Sw → Sw) (d : Dev) : (updSw f d).mem = d.mem := rfl
@[simp] theorem updSw_out (f : Sw → Sw) (d : Dev) : (updSw f d).out = d.out := rfl
@[simp] theorem updSw_freeCtr (f : Sw → Sw) (d : Dev) : (updSw f d).freeCtr = d.freeCtr := rfl
@[simp] theorem updSw_mg (f : Sw → Sw) (d : Dev) : (updSw f d).mg = d.mg := rfl
@[simp] theorem updSw_boot (f : Sw → Sw) (d : Dev) : (updSw f d).boot = d.boot := rfl
@[simp] theorem updSw_otp (f : Sw → Sw) (d : Dev) : (updSw f d).otp = d.otp := rfl
@[simp] theorem updSw_sec (f : Sw → Sw) (d : Dev) : (updSw f d).sec = d.sec := rfl
@[simp] theorem updSw_log (f : Sw → Sw) (d : Dev) : (updSw f d).log = d.log := rfl
@[simp] theorem updSw_chk (f : Sw → Sw) (d : Dev) : (updSw f d).chk = d.chk := rfl
@[simp] theorem updSw_fd (f : Sw → Sw) (d : Dev) : (updSw f d).fd = d.fd := rfl
@[simp] theorem updSw_pw (f : Sw → Sw) (d : Dev) : (updSw f d).pw = d.pw := rfl
@[simp] theorem updSw_th (f : Sw → Sw) (d : Dev) : (updSw f d).th = d.th := rfl
@[simp] theorem updSw_cmp (f : Sw → Sw) (d : Dev) : (updSw f d).cmp = d.cmp := rfl
@[simp] theorem updSw_sens (f : Sw → Sw) (d : Dev) : (updSw f d).sens = d.sens := rfl
@[simp] theorem updSw_net (f : Sw → Sw) (d : Dev) : (updSw f d).net = d.net := rfl
@[simp] theorem updSw_eng (f : Sw → Sw) (d : Dev) : (updSw f d).eng = d.eng := rfl
@[simp] theorem updSw_coll (f : Sw → Sw) (d : Dev) : (updSw f d).coll = d.coll := rfl
@[simp] theorem updSw_sw (f : Sw → Sw) (d : Dev) : (updSw f d).sw = f d.sw := rfl

@[simp] theorem updTh_regs (f : TimeHzn → TimeHzn) (d : Dev) : (updTh f d).regs = d.regs := rfl
@[simp] theorem updTh_mem (f : TimeHzn → TimeHzn) (d : Dev) : (updTh f d).mem = d.mem := rfl
@[simp] theorem updTh_out (f : TimeHzn → TimeHzn) (d : Dev) : (updTh f d).out = d.out := rfl
@[simp] theorem updTh_freeCtr (f : TimeHzn → TimeHzn) (d : Dev) : (updTh f d).freeCtr = d.freeCtr := rfl
@[simp] theorem updTh_mg (f : TimeHzn → TimeHzn) (d : Dev) : (updTh f d).mg = d.mg := rfl
@[simp] theorem updTh_boot (f : TimeHzn → TimeHzn) (d : Dev) : (updTh f d).boot = d.boot := rfl
@[simp] theorem updTh_otp (f : TimeHzn → TimeHzn) (d : Dev) : (updTh f d).otp = d.otp := rfl
@[simp] theorem updTh_sec (f : TimeHzn → TimeHzn) (d : Dev) : (updTh f d).sec = d.sec := rfl
@[simp] theorem updTh_log (f : TimeHzn → TimeHzn) (d : Dev) : (updTh f d).log = d.log := rfl
@[simp] theorem updTh_chk (f : TimeHzn → TimeHzn) (d : Dev) : (updTh f d).chk = d.chk := rfl
@[simp] theorem updTh_fd (f : TimeHzn → TimeHzn) (d : Dev) : (updTh f d).fd = d.fd := rfl
@[simp] theorem updTh_pw (f : TimeHzn → TimeHzn) (d : Dev) : (updTh f d).pw = d.pw := rfl
@[simp] theorem updTh_th (f : TimeHzn → TimeHzn) (d : Dev) : (updTh f d).th = f d.th := rfl
@[simp] theorem updTh_cmp (f : TimeHzn → TimeHzn) (d : Dev) : (updTh f d).cmp = d.cmp := rfl
@[simp] theorem updTh_sens (f : TimeHzn → TimeHzn) (d : Dev) : (updTh f d).sens = d.sens := rfl
@[simp] theorem updTh_net (f : TimeHzn → TimeHzn) (d : Dev) : (updTh f d).net = d.net := rfl
@[simp] theorem updTh_eng (f : TimeHzn → TimeHzn) (d : Dev) : (updTh f d).eng = d.eng := rfl
@[simp] theorem updTh_coll (f : TimeHzn → TimeHzn) (d : Dev) : (updTh f d).coll = d.coll := rfl
@[simp] theorem updTh_sw (f : TimeHzn → TimeHzn) (d : Dev) : (updTh f d).sw = d.sw := rfl

@[simp] theorem updFd_regs (f : Feeds → Feeds) (d : Dev) : (updFd f d).regs = d.regs := rfl
@[simp] theorem updFd_mem (f : Feeds → Feeds) (d : Dev) : (updFd f d).mem = d.mem := rfl
@[simp] theorem updFd_out (f : Feeds → Feeds) (d : Dev) : (updFd f d).out = d.out := rfl
@[simp] theorem updFd_freeCtr (f : Feeds → Feeds) (d : Dev) : (updFd f d).freeCtr = d.freeCtr := rfl
@[simp] theorem updFd_mg (f : Feeds → Feeds) (d : Dev) : (updFd f d).mg = d.mg := rfl
@[simp] theorem updFd_boot (f : Feeds → Feeds) (d : Dev) : (updFd f d).boot = d.boot := rfl
@[simp] theorem updFd_otp (f : Feeds → Feeds) (d : Dev) : (updFd f d).otp = d.otp := rfl
@[simp] theorem updFd_sec (f : Feeds → Feeds) (d : Dev) : (updFd f d).sec = d.sec := rfl
@[simp] theorem updFd_log (f : Feeds → Feeds) (d : Dev) : (updFd f d).log = d.log := rfl
@[simp] theorem updFd_chk (f : Feeds → Feeds) (d : Dev) : (updFd f d).chk = d.chk := rfl
@[simp] theorem updFd_fd (f : Feeds → Feeds) (d : Dev) : (updFd f d).fd = f d.fd := rfl
@[simp] theorem updFd_pw (f : Feeds → Feeds) (d : Dev) : (updFd f d).pw = d.pw := rfl
@[simp] theorem updFd_th (f : Feeds → Feeds) (d : Dev) : (updFd f d).th = d.th := rfl
@[simp] theorem updFd_cmp (f : Feeds → Feeds) (d : Dev) : (updFd f d).cmp = d.cmp := rfl
@[simp] theorem updFd_sens (f : Feeds → Feeds) (d : Dev) : (updFd f d).sens = d.sens := rfl
@[simp] theorem updFd_net (f : Feeds → Feeds) (d : Dev) : (updFd f d).net = d.net := rfl
@[simp] theorem updFd_eng (f : Feeds → Feeds) (d : Dev) : (updFd f d).eng = d.eng := rfl
@[simp] theorem updFd_coll (f : Feeds → Feeds) (d : Dev) : (updFd f d).coll = d.coll := rfl
@[simp] theorem updFd_sw (f : Feeds → Feeds) (d : Dev) : (updFd f d).sw = d.sw := rfl

@[simp] theorem updCmp_regs (f : Composite → Composite) (d : Dev) : (updCmp f d).regs = d.regs := rfl
@[simp] theorem updCmp_mem (f : Composite → Composite) (d : Dev) : (updCmp f d).mem = d.mem := rfl
@[simp] theorem updCmp_out (f : Composite → Composite) (d : Dev) : (updCmp f d).out = d.out := rfl
@[simp] theorem updCmp_freeCtr (f : Composite → Composite) (d : Dev) : (updCmp f d).freeCtr = d.freeCtr := rfl
@[simp] theorem updCmp_mg (f : Composite → Composite) (d : Dev) : (updCmp f d).mg = d.mg := rfl
@[simp] theorem updCmp_boot (f : Composite → Composite) (d : Dev) : (updCmp f d).boot = d.boot := rfl
@[simp] theorem updCmp_otp (f : Composite → Composite) (d : Dev) : (updCmp f d).otp = d.otp := rfl
@[simp] theorem updCmp_sec (f : Composite → Composite) (d : Dev) : (updCmp f d).sec = d.sec := rfl
@[simp] theorem updCmp_log (f : Composite → Composite) (d : Dev) : (updCmp f d).log = d.log := rfl
@[simp] theorem updCmp_chk (f : Composite → Composite) (d : Dev) : (updCmp f d).chk = d.chk := rfl
@[simp] theorem updCmp_fd (f : Composite → Composite) (d : Dev) : (updCmp f d).fd = d.fd := rfl
@[simp] theorem updCmp_pw (f : Composite → Composite) (d : Dev) : (updCmp f d).pw = d.pw := rfl
@[simp] theorem updCmp_th (f : Composite → Composite) (d : Dev) : (updCmp f d).th = d.th := rfl
@[simp] theorem updCmp_cmp (f : Composite → Composite) (d : Dev) : (updCmp f d).cmp = f d.cmp := rfl
@[simp] theorem updCmp_sens (f : Composite → Composite) (d : Dev) : (updCmp f d).sens = d.sens := rfl
@[simp] theorem updCmp_net (f : Composite → Composite) (d : Dev) : (updCmp f d).net = d.net := rfl
@[simp] theorem updCmp_eng (f : Composite → Composite) (d : Dev) : (updCmp f d).eng = d.eng := rfl
@[simp] theorem updCmp_coll (f : Composite → Composite) (d : Dev) : (updCmp f d).coll = d.coll := rfl
@[simp] theorem updCmp_sw (f : Composite → Composite) (d : Dev) : (updCmp f d).sw = d.sw := rfl

@[simp] theorem updSec_regs (f : Sec → Sec) (d : Dev) : (updSec f d).regs = d.regs := rfl
@[simp] theorem updSec_mem (f : Sec → Sec) (d : Dev) : (updSec f d).mem = d.mem := rfl
@[simp] theorem updSec_out (f : Sec → Sec) (d : Dev) : (updSec f d).out = d.out := rfl
@[simp] theorem updSec_freeCtr (f : Sec → Sec) (d : Dev) : (updSec f d).freeCtr = d.freeCtr := rfl
@[simp] theorem updSec_mg (f : Sec → Sec) (d : Dev) : (updSec f d).mg = d.mg := rfl
@[simp] theorem updSec_boot (f : Sec → Sec) (d : Dev) : (updSec f d).boot = d.boot := rfl
@[simp] theorem updSec_otp (f : Sec → Sec) (d : Dev) : (updSec f d).otp = d.otp := rfl
@[simp] theorem updSec_sec (f : Sec → Sec) (d : Dev) : (updSec f d).sec = f d.sec := rfl
@[simp] theorem updSec_log (f : Sec → Sec) (d : Dev) : (updSec f d).log = d.log := rfl
@[simp] theorem updSec_chk (f : Sec → Sec) (d : Dev) : (updSec f d).chk = d.chk := rfl
@[simp] theorem updSec_fd (f : Sec → Sec) (d : Dev) : (updSec f d).fd = d.fd := rfl
@[simp] theorem updSec_pw (f : Sec → Sec) (d : Dev) : (updSec f d).pw = d.pw := rfl
@[simp] theorem updSec_th (f : Sec → Sec) (d : Dev) : (updSec f d).th = d.th := rfl
@[simp] theorem updSec_cmp (f : Sec → Sec) (d : Dev) : (updSec f d).cmp = d.cmp := rfl
@[simp] theorem updSec_sens (f : Sec → Sec) (d : Dev) : (updSec f d).sens = d.sens := rfl
@[simp] theorem updSec_net (f : Sec → Sec) (d : Dev) : (updSec f d).net = d.net := rfl
@[simp] theorem updSec_eng (f : Sec → Sec) (d : Dev) : (updSec f d).eng = d.eng := rfl
@[simp] theorem updSec_coll (f : Sec → Sec) (d : Dev) : (updSec f d).coll = d.coll := rfl
@[simp] theorem updSec_sw (f : Sec → Sec) (d : Dev) : (updSec f d).sw = d.sw := rfl

@[simp] theorem updOtp_regs (f : Otp → Otp) (d : Dev) : (updOtp f d).regs = d.regs := rfl
@[simp] theorem updOtp_mem (f : Otp → Otp) (d : Dev) : (updOtp f d).mem = d.mem := rfl
@[simp] theorem updOtp_out (f : Otp → Otp) (d : Dev) : (updOtp f d).out = d.out := rfl
@[simp] theorem updOtp_freeCtr (f : Otp → Otp) (d : Dev) : (updOtp f d).freeCtr = d.freeCtr := rfl
@[simp] theorem updOtp_mg (f : Otp → Otp) (d : Dev) : (updOtp f d).mg = d.mg := rfl
@[simp] theorem updOtp_boot (f : Otp → Otp) (d : Dev) : (updOtp f d).boot = d.boot := rfl
@[simp] theorem updOtp_otp (f : Otp → Otp) (d : Dev) : (updOtp f d).otp = f d.otp := rfl
@[simp] theorem updOtp_sec (f : Otp → Otp) (d : Dev) : (updOtp f d).sec = d.sec := rfl
@[simp] theorem updOtp_log (f : Otp → Otp) (d : Dev) : (updOtp f d).log = d.log := rfl
@[simp] theorem updOtp_chk (f : Otp → Otp) (d : Dev) : (updOtp f d).chk = d.chk := rfl
@[simp] theorem updOtp_fd (f : Otp → Otp) (d : Dev) : (updOtp f d).fd = d.fd := rfl
@[simp] theorem updOtp_pw (f : Otp → Otp) (d : Dev) : (updOtp f d).pw = d.pw := rfl
@[simp] theorem updOtp_th (f : Otp → Otp) (d : Dev) : (updOtp f d).th = d.th := rfl
@[simp] theorem updOtp_cmp (f : Otp → Otp) (d : Dev) : (updOtp f d).cmp = d.cmp := rfl
@[simp] theorem updOtp_sens (f : Otp → Otp) (d : Dev) : (updOtp f d).sens = d.sens := rfl
@[simp] theorem updOtp_net (f : Otp → Otp) (d : Dev) : (updOtp f d).net = d.net := rfl
@[simp] theorem updOtp_eng (f : Otp → Otp) (d : Dev) : (updOtp f d).eng = d.eng := rfl
@[simp] theorem updOtp_coll (f : Otp → Otp) (d : Dev) : (updOtp f d).coll = d.coll := rfl
@[simp] theorem updOtp_sw (f : Otp → Otp) (d : Dev) : (updOtp f d).sw = d.sw := rfl

end Sys2Proof.Machine
end

