-- ==== Sys2Proof/Tests/Slice0.lean ====
section
/-!
SUPPORT. The model's own tests.
-/

open Sys2Proof Sys2Proof.Machine

namespace Sys2Proof.Tests

set_option Elab.async false

/-! ## States for the tests -/

/-- A state with no command waiting. -/
def at_ (d : Dev) : State := ⟨d, []⟩

/-- A block at READY, else as at power-on. -/
def up : Dev := wr Reg.DEV_STATE 0 6 State.reset.dev

/-- At READY with slice 1 ACTIVE on VH 0, and number range 0 in package memory given to it. -/
def sl : Dev := up |> slWr Reg.SLC_STATE 1 slActive |> updEng (fun e => { e with ranges := [(0, (0x10001, 0))] })

/-- A queue pair of slice 1 in RTS with one posted slot of zeros. -/
def qp1 : Qp := { Qp.init 1 false with state := 3, sq := [List.replicate 64 0], outMax := 8 }

/-- That queue pair as number 16. -/
def sq : Dev := putQp 16 (some qp1) sl

/-- A started SEND of no bytes, and queue pair 16 with it; packet 0 of it in flight; its requests also those of a read. -/
def wqe1 : Wqe := { Wqe.blank 0 .sq with wop := 0, signaled := true }

def qpW (q : Qp) : Dev := putQp 16 (some q) sl

def tx1 (read : Bool) : TxPkt := ⟨0, 1, 0, 3, true, false, [], read, 0, 8, []⟩

def qpTx (read : Bool) (w : Wqe) : Qp :=
  { qp1 with sq := [], started := [w], conns := [(0, some { Conn.init with snd := 1, out := [tx1 read] })] }

/-- Queue pair 16 as responder with permission for everything, its context cached. -/
def resp (perm : Nat) : Qp := { Qp.init 1 false with state := 2, perm := perm }

def rsp (perm : Nat) : Dev := updEng (fun e => { e with cached := [16] }) (qpW (resp perm))

/-- A request packet for queue pair 16, and a response. -/
def pkt (opc : Nat) : SftPkt :=
  ⟨0, 5, false, true, true, opc, true, false, false, 16, 9, 0, 0, 0, 0, 0, 0, 0, 0, 0, 15 * 2 ^ 60, 0, 0, 0, 0, false, []⟩

def ack (opc synd : Nat) : SftResp := ⟨0, 5, true, false, opc, 16, 9, 0, 0, synd, 0, 1, 0, []⟩

/-- A queue pair with a connection. -/
def qpC (c : Conn) : Qp := { resp 15 with conns := [(0, some c)] }

/-- A queue pair of RD with one peer. -/
def rdQp : Qp := { Qp.init 1 true with state := 2, conns := [(peerKey 5 9, some Conn.init)] }

/-- A command of the QPC page. -/
def qpc (op num : Nat) (data : List Byte) (d : Dev) : Dev :=
  d |> wr Reg.QPC_CMD_OP 0 op |> wr Reg.QPC_CMD_NUM 0 num |> putRegBytes Reg.QPC_CMD_DATA 0 data

def park : Park := ⟨17, pkt 3, 4, 0, false, none⟩

/-- Queue pair 16 in a resend pass. -/
def qpPass : Qp := { qp1 with sq := [], started := [wqe1], conns := [(0, some { Conn.init with snd := 1, out := [tx1 false], pass := some (0, 0) })] }

/-- Some state and operands meet the hypotheses of each clause. -/
theorem wit_DoorbellsServed :
    (∃ (s : State) (vh n num : Nat) (es : List (List Byte)) (q : Qp), slRd Reg.SLC_VH n s.dev = vh ∧ slState n s.dev = slActive ∧ ownsNum n num
      s.dev = true ∧ brgQp num s.dev = false ∧ qpOf num s.dev = some q ∧ q.state ≠ 5 ∧ (es = [] ∨ rd Reg.FUN_ATS_EN vh s.dev ≠ 1)) ∧
    (∃ (s : State) (vh n num : Nat) (es : List (List Byte)) (q : Qp), slRd Reg.SLC_VH n s.dev = vh ∧ slState n s.dev = slActive ∧ ownsNum n num
      s.dev = true ∧ brgQp num s.dev = false ∧ qpOf num s.dev = some q ∧ q.state ≠ 5 ∧ es ≠ [] ∧ rd Reg.FUN_ATS_EN vh s.dev = 1 ∧
      (s.dev.eng.ringWaits.any fun w => w.slice == n && w.key == num) = false ∧ ∃ page, page = ringPlace n num s.dev / 4096 ∧ (s.dev.eng.atc.any
      fun e => e.vh == vh && e.pasid == slicePasid n s.dev && e.page == page && e.read) = true) ∧
    (∃ (s : State) (vh n num : Nat) (es : List (List Byte)) (q : Qp), slRd Reg.SLC_VH n s.dev = vh ∧ slState n s.dev = slActive ∧ ownsNum n num
      s.dev = true ∧ brgQp num s.dev = false ∧ qpOf num s.dev = some q ∧ q.state ≠ 5 ∧ es ≠ [] ∧ rd Reg.FUN_ATS_EN vh s.dev = 1 ∧
      (s.dev.eng.ringWaits.any fun w => w.slice == n && w.key == num) = false ∧ ∃ page, page = ringPlace n num s.dev / 4096 ∧ (s.dev.eng.atc.any
      fun e => e.vh == vh && e.pasid == slicePasid n s.dev && e.page == page && e.read) = false) ∧
    (∃ (s : State) (vh n num : Nat) (c : Cq), slRd Reg.SLC_VH n s.dev = vh ∧ slState n s.dev = slActive ∧ ownsNum n num s.dev = true ∧ cqOf num
      s.dev = some c) :=
  ⟨⟨at_ sq, 0, 1, 16, [], qp1, by decide +kernel⟩,
   ⟨at_ (wr Reg.FUN_ATS_EN 0 1 sq |> updEng (fun e => { e with atc := [⟨0, none, 0, 0, true, false⟩] })), 0, 1, 16, [[]], qp1, by decide +kernel,
     by decide +kernel, by decide +kernel, by decide +kernel, by decide +kernel, by decide +kernel, by decide +kernel, by decide +kernel,
     by decide +kernel, _, rfl, by decide +kernel⟩,
   ⟨at_ (wr Reg.FUN_ATS_EN 0 1 sq), 0, 1, 16, [[]], qp1, by decide +kernel, by decide +kernel, by decide +kernel, by decide +kernel,
     by decide +kernel, by decide +kernel, by decide +kernel, by decide +kernel, by decide +kernel, _, rfl, by decide +kernel⟩,
   ⟨at_ (putCq 4095 (some ⟨1, 4, false, false, 0, 0, 0, true⟩) sl), 0, 1, 4095, ⟨1, 4, false, false, 0, 0, 0, true⟩, by decide +kernel⟩⟩

/-- Some state and operands meet the hypotheses of each clause. -/
theorem wit_RequesterStartsAndSends :
    (∃ (s : State) (n : Nat) (q q1 : Qp) (slot : List Byte) (rest : List (List Byte)) (w : Wqe), w = wqeOf q slot (rest.headD []) ∧ qpOf n s.dev =
      some q ∧ q.sq = slot :: rest ∧ brgQp n s.dev = false ∧ qpMayStart q slot rest s.dev = true ∧ pinFull n s.dev = false ∧
      s.dev.eng.cached.contains n = true ∧ q.forNext slot rest (s.dev.th.localNs / 1000000) = some q1 ∧ fairSlice (n % 8) s.dev = some q.slice) ∧
    (∃ (s : State) (n : Nat) (q : Qp), qpOf n s.dev = some q ∧ (q.state = 3 ∨ q.state = 4) ∧ q.paceAt ≤ 1000 * s.dev.th.localNs ∧ ∃ (key from_ at_
      : Nat) (c : Conn), q.conns.find? passRuns = some (key, some c) ∧ c.pass = some (from_, at_)) ∧
    (∃ (s : State) (n : Nat) (q : Qp), qpOf n s.dev = some q ∧ (q.state = 3 ∨ q.state = 4) ∧ q.paceAt ≤ 1000 * s.dev.th.localNs ∧ ∃ (w : Wqe) (opc
      k len : Nat) (bytes : List Byte) (last : Bool), q.conns.find? passRuns = none ∧ pickWqe n q s.dev = some w ∧ nextPacket q w = (opc, k,
      bytes, len, last) ∧ ∃ (t : TxPkt), t =
      { psn := (q.conn w.conn).snd, n := k, wqe := w.id, opc := opc, ackReq := last || ((q.conn w.conn).sentCnt + 1) % max 1 (rd Reg.TPE_ACKREQ_INT (n % 8) s.dev) == 0, sol := w.sol && last, bytes := bytes, isRead := w.fetches, off := w.off, len := len, got := [] }) :=
  ⟨⟨at_ (updEng (fun e => { e with cached := [16] }) sq), 16, qp1, qp1, List.replicate 64 0, [], _, rfl, by decide +kernel⟩,
   ⟨at_ (qpW qpPass), 16, qpPass, by decide +kernel, by decide +kernel, by decide +kernel, 0, 0, 0,
     { Conn.init with snd := 1, out := [tx1 false], pass := some (0, 0) }, by decide +kernel⟩,
   ⟨at_ (qpW { qp1 with started := [wqe1] }), 16, { qp1 with started := [wqe1] }, by decide +kernel, by decide +kernel, by decide +kernel, wqe1,
     3, 1, 0, [], true, by decide +kernel, by decide +kernel, by decide +kernel, _, rfl⟩⟩

/-- Some state and operands meet the hypotheses of each clause. -/
theorem wit_ResponderExecutesNewRequests :
    (∃ (s : State) (p : SftPkt) (key : Nat) (q : Qp) (d1 : Dev), NewRequest p key q d1 s.dev ∧ p.opc ≤ 5 ∧ q.matchEn = false) ∧
    (∃ (s : State) (p : SftPkt) (key : Nat) (q : Qp) (d1 : Dev), NewRequest p key q d1 s.dev ∧ p.opc ≤ 5 ∧ q.matchEn = true) ∧
    (∃ (s : State) (p : SftPkt) (key : Nat) (q : Qp) (d1 : Dev), NewRequest p key q d1 s.dev ∧ 8 ≤ p.opc ∧ p.opc ≤ 0x0D) ∧
    (∃ (s : State) (p : SftPkt) (key : Nat) (q : Qp) (d1 : Dev), NewRequest p key q d1 s.dev ∧ p.opc = 0x10) ∧
    (∃ (s : State) (p : SftPkt) (key : Nat) (q : Qp) (d1 : Dev), NewRequest p key q d1 s.dev ∧ 0x18 ≤ p.opc ∧ p.opc ≤ 0x1B) ∧
    (∃ (s : State) (p : SftPkt) (key : Nat) (q : Qp) (d1 : Dev), NewRequest p key q d1 s.dev ∧ p.opc = 0x20 ∧ finishFor p s.dev = false ∧ isFinish
      q p = false) ∧
    (∃ (s : State) (p : SftPkt) (key : Nat) (q : Qp) (d1 : Dev), NewRequest p key q d1 s.dev ∧ p.opc = 0x20 ∧ finishFor p s.dev = true ∧ isFinish
      q p = true) :=
  ⟨⟨at_ (rsp 15), pkt 3, 0, resp 15, keyLooked (pkt 3) (rsp 15), by decide +kernel⟩,
   ⟨at_ (rsp 31), pkt 3, 0, resp 31, keyLooked (pkt 3) (rsp 31), by decide +kernel⟩,
   ⟨at_ (rsp 15), pkt 0x0B, 0, resp 15, keyLooked (pkt 0x0B) (rsp 15), by decide +kernel⟩,
   ⟨at_ (rsp 15), pkt 0x10, 0, resp 15, keyLooked (pkt 0x10) (rsp 15), by decide +kernel⟩,
   ⟨at_ (rsp 15), pkt 0x1B, 0, resp 15, keyLooked (pkt 0x1B) (rsp 15), by decide +kernel⟩,
   ⟨at_ (rsp 15), pkt 0x20, 0, resp 15, keyLooked (pkt 0x20) (rsp 15), by decide +kernel⟩,
   ⟨at_ (rsp 31), pkt 0x20, 0, resp 31, keyLooked (pkt 0x20) (rsp 31), by decide +kernel⟩⟩

/-- Some state and operands meet the hypotheses of each clause. -/
theorem wit_RequesterTakesResponses :
    (∃ (s : State) (r : SftResp) (key : Nat) (q : Qp), NewResponse r key q s.dev ∧ r.opc = 0x28 ∧ inFlight (q.conn key) r.psn = true ∧ r.synd = 0) ∧
    (∃ (s : State) (r : SftResp) (key : Nat) (q : Qp), NewResponse r key q s.dev ∧ r.opc = 0x28 ∧ inFlight (q.conn key) r.psn = true ∧ ∃ q1,
      r.synd = 1 ∧ qpOf r.dqpn (ackBefore r.dqpn key r.psn (respTaken r s.dev)) = some q1 ∧ (q.rnrMax = 7 ∨ (q1.conn key).rnr + 1 ≤ q.rnrMax)) ∧
    (∃ (s : State) (r : SftResp) (key : Nat) (q : Qp), NewResponse r key q s.dev ∧ r.opc = 0x28 ∧ inFlight (q.conn key) r.psn = true ∧ r.synd = 2
      ∧ (q.conn key).pass = none) ∧
    (∃ (s : State) (r : SftResp) (key : Nat) (q : Qp), NewResponse r key q s.dev ∧ r.opc = 0x28 ∧ inFlight (q.conn key) r.psn = true ∧ ∃ q1 w, 3 ≤
      r.synd ∧ r.synd ≤ 6 ∧ qpOf r.dqpn (ackBefore r.dqpn key r.psn (respTaken r s.dev)) = some q1 ∧ wqeAt q1 key r.psn = some w ∧ w.kind = .sq ∧
      w.signaled = true) ∧
    (∃ (s : State) (r : SftResp) (key : Nat) (q : Qp), NewResponse r key q s.dev ∧ ∃ t w, (q.conn key).out.find? (fun t => t.isRead && decide
      (psnSub r.psn t.psn < t.n)) = some t ∧ t.got.contains (psnSub r.psn t.psn) = false ∧ q.started.find? (fun w => w.id == t.wqe) = some w ∧
      0x11 ≤ r.opc ∧ r.opc ≤ 0x14) ∧
    (∃ (s : State) (r : SftResp) (key : Nat) (q : Qp), NewResponse r key q s.dev ∧ ∃ t w, (q.conn key).out.find? (fun t => t.isRead && decide
      (psnSub r.psn t.psn < t.n)) = some t ∧ t.got.contains (psnSub r.psn t.psn) = false ∧ q.started.find? (fun w => w.id == t.wqe) = some w ∧
      r.opc = 0x1C) ∧
    (∃ (s : State) (r : SftResp) (key : Nat) (q : Qp), NewResponse r key q s.dev ∧ q.rd = true ∧ r.opc = 0x28 ∧ r.synd = 7) :=
  ⟨⟨at_ (qpW (qpTx false wqe1)), ack 0x28 0, 0, qpTx false wqe1, by decide +kernel⟩,
   ⟨at_ (qpW { qpTx false wqe1 with rnrMax := 7 }), ack 0x28 1, 0, { qpTx false wqe1 with rnrMax := 7 }, by decide +kernel, by decide +kernel,
     by decide +kernel, { qpTx false wqe1 with rnrMax := 7 }, by decide +kernel⟩,
   ⟨at_ (qpW (qpTx false wqe1)), ack 0x28 2, 0, qpTx false wqe1, by decide +kernel⟩,
   ⟨at_ (qpW (qpTx false wqe1)), ack 0x28 6, 0, qpTx false wqe1, by decide +kernel, by decide +kernel, by decide +kernel, qpTx false wqe1, wqe1,
     by decide +kernel⟩,
   ⟨at_ (qpW (qpTx true wqe1)), ack 0x14 0, 0, qpTx true wqe1, by decide +kernel, tx1 true, wqe1, by decide +kernel⟩,
   ⟨at_ (qpW (qpTx true wqe1)), ack 0x1C 0, 0, qpTx true wqe1, by decide +kernel, tx1 true, wqe1, by decide +kernel⟩,
   ⟨at_ (qpW rdQp), ack 0x28 7, peerKey 5 9, rdQp, by decide +kernel⟩⟩

/-- Some state and operands meet the hypotheses of each clause. -/
theorem wit_TransportTimersAct :
    (∃ (s : State) (n key : Nat) (q : Qp), qpOf n s.dev = some q ∧ (q.state = 3 ∨ q.state = 4) ∧ (q.conn key).snd ≠ (q.conn key).una) ∧
    (∃ (s : State) (n key psn : Nat) (q : Qp), qpOf n s.dev = some q ∧ (q.conn key).rnrWait = some psn) ∧
    (∃ (s : State) (n key : Nat) (q : Qp), qpOf n s.dev = some q ∧ qpResponds q = true ∧ (q.conn key).nakSent = true ∧ writesWait n s.dev = false) ∧
    (∃ (s : State) (n key : Nat) (q : Qp), qpOf n s.dev = some q ∧ qpResponds q = true ∧ (q.conn key).ackDue = true) ∧
    (∃ (s : State) (n : Nat) (q : Qp), qpOf n s.dev = some q) ∧
    (∃ (s : State) (n : Nat), s.dev.eng.fetches.contains n = true ∧ ∃ f, f = (if numHost n s.dev then Reg.QPC_FETCH_HOST_MAX else
      Reg.QPC_FETCH_PKM_MAX)) ∧
    (∃ (s : State) (n : Nat), s.dev.eng.fetches.contains n = true) ∧
    (∃ (s : State) (t : Nat) (x : Park) (l : List Park), s.dev.eng.parked = x :: l ∧ x.lagoon = false ∧ x.qpn % 8 = t ∧ lagoonUsed s.dev + x.cells
      ≤ rd Reg.HBR_LAGOON_RSV 0 s.dev) ∧
    (∃ (s : State) (n key : Nat) (q : Qp), qpOf n s.dev = some q ∧ q.rd = true ∧ (smFind q.conns key).isSome = true ∧ peerIdle (q.conn key) =
      true) :=
  ⟨⟨at_ (qpW (qpTx false wqe1)), 16, 0, qpTx false wqe1, by decide +kernel⟩,
   ⟨at_ (qpW (qpC { Conn.init with rnrWait := some 3 })), 16, 0, 3, qpC { Conn.init with rnrWait := some 3 }, by decide +kernel⟩,
   ⟨at_ (qpW (qpC { Conn.init with nakSent := true })), 16, 0, qpC { Conn.init with nakSent := true }, by decide +kernel⟩,
   ⟨at_ (qpW (qpC { Conn.init with ackDue := true })), 16, 0, qpC { Conn.init with ackDue := true }, by decide +kernel⟩,
   ⟨at_ sq, 16, qp1, by decide +kernel⟩,
   ⟨at_ (updEng (fun e => { e with fetches := [16] }) sq), 16, by decide +kernel, _, rfl⟩,
   ⟨at_ (updEng (fun e => { e with fetches := [16] }) sq), 16, by decide +kernel⟩,
   ⟨at_ (up |> wr Reg.HBR_LAGOON_RSV 0 4 |> updEng (fun e => { e with parked := [park] })), 1, park, [], by decide +kernel⟩,
   ⟨at_ (qpW rdQp), 16, peerKey 5 9, rdQp, by decide +kernel⟩⟩

/-- Some state and operands meet the hypotheses of each clause. -/
theorem wit_QueuePairCommandsComplete :
    (∃ (s : State) (n : Nat) (q : Qp), QpcReady 0 n s.dev ∧ qpOf n s.dev = some q) ∧
    (∃ (s : State) (n : Nat), QpcReady 1 n s.dev ∧ qpOf n s.dev = none ∧ bitsOf (fieldLe (qpcData s.dev) 0 1) 4 2 = 0) ∧
    (∃ (s : State) (n to_ : Nat) (q q1 : Qp), QpcReady 2 n s.dev ∧ rd Reg.QPC_MODIFY_TO 0 s.dev = to_ ∧ qpOf n s.dev = some q ∧ to_ ≠ 5 ∧ modifyQp
      q to_ (qpcData s.dev) s.dev = .inl q1) ∧
    (∃ (s : State) (n to_ : Nat) (q : Qp), QpcReady 2 n s.dev ∧ rd Reg.QPC_MODIFY_TO 0 s.dev = to_ ∧ qpOf n s.dev = some q ∧ to_ = 5 ∧ q.state ≠
      0) ∧
    (∃ (s : State) (n : Nat) (q : Qp), QpcReady 3 n s.dev ∧ qpOf n s.dev = some q ∧ (q.state = 0 ∨ q.state = 5)) ∧
    (∃ (s : State) (r : Nat), served 0x12 0 0x108 s.dev ∧ rd Reg.QPC_CMD_OP 0 s.dev = 4 ∧ rd Reg.QPC_CMD_NUM 0 s.dev = r ∧ r < 4096) ∧
    (∃ (s : State) (r : Nat), served 0x12 0 0x108 s.dev ∧ rd Reg.QPC_CMD_OP 0 s.dev = 5 ∧ rd Reg.QPC_CMD_NUM 0 s.dev = r ∧ r < 4096 ∧ rangeWriteOk
      r (fieldLe (qpcData s.dev) 0 4 % 2 ^ 18) (fieldLe (qpcData s.dev) 4 8) s.dev = true) ∧
    (∃ (s : State) (n : Nat), QpcReady 6 n s.dev ∧ cqOf n s.dev = none ∧ 4 ≤ fieldLe (qpcData s.dev) 1 1 ∧ fieldLe (qpcData s.dev) 1 1 ≤ 16) ∧
    (∃ (s : State) (n : Nat) (c : Cq), QpcReady 7 n s.dev ∧ cqOf n s.dev = some c) ∧
    (∃ (s : State) (n : Nat) (c : Cq), QpcReady 8 n s.dev ∧ cqOf n s.dev = some c) :=
  ⟨⟨at_ (qpc 0 16 [] sq), 16, qp1, by decide +kernel⟩,
   ⟨at_ (qpc 1 4095 [] sl), 4095, by decide +kernel⟩,
   ⟨at_ (qpc 2 16 [] sq |> wr Reg.QPC_MODIFY_TO 0 4), 16, 4, qp1, { qp1 with state := 4 }, by decide +kernel⟩,
   ⟨at_ (qpc 2 16 [] sq |> wr Reg.QPC_MODIFY_TO 0 5), 16, 5, qp1, by decide +kernel⟩,
   ⟨at_ (qpc 3 16 [] (qpW (Qp.init 1 false))), 16, Qp.init 1 false, by decide +kernel⟩,
   ⟨at_ (qpc 4 4095 [] up), 4095, by decide +kernel⟩,
   ⟨at_ (qpc 5 4095 [] up), 4095, by decide +kernel⟩,
   ⟨at_ (qpc 6 1 (0 :: 16 :: List.replicate 62 0) sl), 1, by decide +kernel⟩,
   ⟨at_ (qpc 7 1 [] (putCq 1 (some ⟨1, 4, false, false, 0, 0, 0, true⟩) sl)), 1, ⟨1, 4, false, false, 0, 0, 0, true⟩, by decide +kernel⟩,
   ⟨at_ (qpc 8 1 [] (putCq 1 (some ⟨2, 4, false, false, 0, 0, 0, true⟩) sl)), 1, ⟨2, 4, false, false, 0, 0, 0, true⟩, by decide +kernel⟩⟩

/-- A command of the MRG page. -/
def mrg (op key : Nat) (data : List Byte) (d : Dev) : Dev :=
  d |> wr Reg.MRG_CMD_OP 0 op |> wr Reg.MRG_CMD_KEY 0 key |> putRegBytes Reg.MRG_CMD_DATA 0 data

/-- The words that describe a region of slice 1 of one byte in host pages of 4 KiB. -/
def rgnData : List Byte := [0, 1, 0, 0, 1, 0, 0, 0, 0, 0, 0, 0, 12, 0, 0, 0] ++ leBytes 8 0 ++ leBytes 8 1 ++ List.replicate 32 0

/-- A region of slice 1. -/
def rgn (fast : Bool) : Region :=
  { Region.init with valid := true, fastwin := fast, access := 1, gen := 1023, slice := 1, shift := 12, len := 4096, pages := [0] }

def rgns (i : Nat) (fast : Bool) : Dev := updEng (fun e => { e with regions := [(i, rgn fast)] }) sl

/-- A command of the page of match quadrant 1, and a context there. -/
def mte (op idx : Nat) (data : List Byte) (d : Dev) : Dev :=
  d |> wr Reg.MTE_CMD_OP 1 op |> wr Reg.MTE_CMD_IDX 1 idx |> putRegBytes Reg.MTE_CMD_DATA 1 data

def mctx : MCtx := ⟨0, 1, false, 16, 0, 0, 0⟩

def mtx (i : Nat) : Dev := putCtx 1 i (some mctx) (rgns 0 false)

/-- A match post entry for context 0, and slice 1 with it at the head of its ring. -/
def post (mop : Nat) : List Byte :=
  [BitVec.ofNat 8 mop, 0, 0, 0, 0, 0, 0, 0] ++ List.replicate 4 0 ++ leBytes 4 1023 ++ List.replicate 48 0

def posted (mop : Nat) : Dev :=
  mtx 4095 |> slWr Reg.SLC_MPR_EN 1 1 |> updEng (fun e => { e with slices := [(1, { Slice.init with mpr := [post mop] })] })

/-- Window group 0 of slice 1 on VH 0 with queue pair 16, and window 1023 of 64 KiB at offset 0 with every permission. -/
def winWords : List Nat := [31 + 16 * 4096, 0, 0, 0, 0, 0, 0, 0]

def grpWords1 : List Nat := [1 + 32, 16, 16, 0]

def brg : Dev :=
  sq |> wr Reg.FUN_APER_LOG 0 16 |> putGrp 0 ⟨grpWords1, grpWords1⟩ |> putBwin 1023 ⟨winWords, winWords⟩

def bread : BrgRead := brgAsk 1023 0 0 0 0 4 0 0 0 0 brg

/-- The message endpoint, with one peer heard. -/
def msgE : Qp := { rdQp with conns := [(peerKey 5 9, some { Conn.init with heard := true })] }

def msgQ : Dev := putQp msgQpn (some msgE) (wr Reg.MAP_EKEY 0 7 up)

def msgP : SftPkt := { pkt 0x20 with dqpn := msgQpn, ekey := 7 }

/-- VH 0 with its upstream port. -/
def usp0 : Dev := up |> wr Reg.VHC_VH_EN 0 1 |> wr Reg.EXP_PORT 0 150

/-- Some state and operands meet the hypotheses of each clause. -/
theorem wit_RegionCommandsComplete :
    (∃ (s : State), MrgReady 0 s.dev) ∧
    (∃ (s : State) (pages : List Nat) (i : Nat) (n : Region), n =
      { mrgNew pages s.dev with pages := pages.take (needPages (mrgNew pages s.dev)), vh := slRd Reg.SLC_VH (mrgNew pages s.dev).slice s.dev } ∧
      MrgReady 1 s.dev ∧ headIndex s.dev = some i ∧ regionParamOk n s.dev = true ∧ sliceRegions n.slice s.dev < slRd Reg.SLC_MAX_REGIONS n.slice
      s.dev ∧ needPages (mrgNew pages s.dev) ≤ pages.length ∧ (needPages (mrgNew pages s.dev) = 0 ∨ bme n.vh s.dev = true) ∧ xltBlocks n ≤ xltFree
      s.dev) ∧
    (∃ (s : State) (pages : List Nat) (r m n : Region) (key : Nat), m =
      { r with va := (mrgNew pages s.dev).va, len := (mrgNew pages s.dev).len, access := (mrgNew pages s.dev).access, shift := (mrgNew pages s.dev).shift, target := (mrgNew pages s.dev).target, plAddr := (mrgNew pages s.dev).plAddr }
      ∧ n = { m with pages := pages.take (needPages m), gen := (r.gen + 1) % 1024, rereg := r.rereg + 1 } ∧ MrgReady 2 s.dev ∧ rd Reg.MRG_CMD_KEY
      0 s.dev = key ∧ regionOf (keyIdx key) s.dev = r ∧ r.valid = true ∧ r.gen = keyGen key ∧ r.rereg < 1023 ∧ regionParamOk n s.dev = true ∧
      needPages m ≤ pages.length ∧ (needPages m = 0 ∨ bme r.vh s.dev = true) ∧ xltBlocks n ≤ xltFree s.dev + xltBlocks r) ∧
    (∃ (s : State) (key : Nat), MrgReady 3 s.dev ∧ rd Reg.MRG_CMD_KEY 0 s.dev = key ∧ (regionOf (keyIdx key) s.dev).valid = true ∧ (regionOf
      (keyIdx key) s.dev).gen = keyGen key) ∧
    (∃ (s : State) (key : Nat) (idx : List Nat), idx = (s.dev.eng.regions.filter (fun e => e.2.valid && e.2.slice == key % 4096)).map (fun e =>
      e.1) ∧ MrgReady 4 s.dev ∧ rd Reg.MRG_CMD_KEY 0 s.dev = key ∧ idx ≠ []) ∧
    (∃ (s : State) (key : Nat) (idx : List Nat), idx = (s.dev.eng.regions.filter (fun e => e.2.valid && e.2.slice == key % 4096)).map (fun e =>
      e.1) ∧ idx = [] ∧ MrgReady 4 s.dev ∧ rd Reg.MRG_CMD_KEY 0 s.dev = key) ∧
    (∃ (s : State) (idx : List Nat) (l : List (List Nat × Option (Nat × List Byte × List Byte))), s.dev.eng.retiring = (idx, none) :: l ∧ (∀ i ∈
      idx, retired i s.dev = true)) ∧
    (∃ (s : State) (n : Nat) (x : Park) (l : List Park), s.dev.eng.parked = x :: l ∧ x.qpn = n ∧ x.why = 2 ∧ s.dev.eng.fetches.contains n = false) :=
  ⟨⟨at_ (mrg 0 0xFFFFFFFF [] up), by decide +kernel⟩,
   ⟨at_ (mrg 1 0 rgnData sl |> wr Reg.FUN_BME 0 1 |> wr Reg.MRG_XLT_BLOCKS 0 1 |> slWr Reg.SLC_MAX_REGIONS 1 1), [0], 0, _, rfl,
     by decide +kernel⟩,
   ⟨at_ (mrg 2 1023 rgnData (rgns 0 true) |> wr Reg.FUN_BME 0 1 |> wr Reg.MRG_XLT_BLOCKS 0 1), [0], rgn true, _, _, 1023, rfl, rfl,
     by decide +kernel⟩,
   ⟨at_ (mrg 3 0xFFFFFFFF [] (rgns 4194303 false)), 0xFFFFFFFF, by decide +kernel⟩,
   ⟨at_ (mrg 4 1 [] (rgns 0 false)), 1, _, rfl, by decide +kernel⟩,
   ⟨at_ (mrg 4 2 [] (rgns 0 false)), 2, _, rfl, rfl, by decide +kernel⟩,
   ⟨at_ (updEng (fun e => { e with retiring := [([0], none)] }) (mrg 3 0 [] up)), [0], [], by decide +kernel⟩,
   ⟨at_ (updEng (fun e => { e with parked := [{ park with why := 2 }] }) up), 17, { park with why := 2 }, [], by decide +kernel⟩⟩

/-- Some state and operands meet the hypotheses of each clause. -/
theorem wit_FastWindowCommandsComplete :
    (∃ (s : State) (w : Nat), served 0x14 0 0x104 s.dev ∧ rd Reg.WIN_IDX 0 s.dev = w ∧ ∃ d, d = (s.dev |> agePast w |> putWin w ⟨(winOf w
      s.dev).shadow, (winOf w s.dev).shadow⟩ |> setPend w true |> addMod Reg.WIN_COMMITS 0 0 1) ∧ winFits (winOf w s.dev).shadow s.dev = true) ∧
    (∃ (s : State) (w : Nat), winPend w s.dev = true ∧ winRetired w s.dev = true) ∧
    (∃ (s : State) (w : Nat), (bw w s.dev).fence = true ∧ bwinRetired w s.dev = true) :=
  ⟨⟨at_ (up |> wr Reg.WIN_IDX 0 255 |> putWin 255 ⟨[], [0, 0, 0, 0, 4096, 0, 0, 0]⟩), 255, by decide +kernel, by decide +kernel, _, rfl,
    by decide +kernel⟩,
   ⟨at_ (setPend 255 true up), 255, by decide +kernel⟩,
   ⟨at_ (updBw 1023 (fun b => { b with fence := true }) up), 1023, by decide +kernel⟩⟩

/-- Some state and operands meet the hypotheses of each clause. -/
theorem wit_MatchCommandsComplete :
    (∃ (s : State) (k i : Nat) (c : MCtx), MteReady k 0 s.dev ∧ rd Reg.MTE_CMD_IDX k s.dev = i ∧ ctxOf k i s.dev = some c) ∧
    (∃ (s : State) (k i : Nat) (b : List Byte) (c : MCtx) (d : Dev), b = regBytes Reg.MTE_CMD_DATA k 8 s.dev ∧ c =
      { ctxid := fieldLe b 0 4, slice := fieldLe b 4 2 % 4096, failed := false, rcqn := fieldLe b 8 4 % 2 ^ 24, uxMax := fieldLe b 12 4 % 2 ^ 24, postStamp := 0, arrStamp := 0 }
      ∧ i = pickCtx k s.dev ∧ d = putCtx k i (some c) (takeFree s.dev) ∧ MteReady k 1 s.dev ∧ quadOf c.slice c.ctxid = k ∧ ownsNum c.slice c.rcqn
      s.dev = true ∧ findCtx k c.slice c.ctxid s.dev = none ∧ sliceCtxs c.slice s.dev < slRd Reg.SLC_MAX_CTX c.slice s.dev ∧ freeCtxs k s.dev ≠
      []) ∧
    (∃ (s : State) (k i : Nat) (c : MCtx), MteReady k 2 s.dev ∧ rd Reg.MTE_CMD_IDX k s.dev = i ∧ ctxOf k i s.dev = some c) ∧
    (∃ (s : State) (n i : Nat) (c : MCtx) (e : List Byte), EntryReady n 0 i c e s.dev) ∧
    (∃ (s : State) (n i : Nat) (c : MCtx) (e : List Byte), EntryReady n 1 i c e s.dev) ∧
    (∃ (s : State) (n i : Nat) (c : MCtx) (e : List Byte), EntryReady n 2 i c e s.dev) ∧
    (∃ (s : State) (k i n : Nat) (w : MWait) (c : MCtx) (e : List Byte) (d : Dev), d = memDone (1, k, i) s.dev ∧ ((quad k s.dev).waits.take
      32).find? (fun w => w.context == i) = some w ∧ w = .post i n e ∧ ctxOf k i d = some c) :=
  ⟨⟨at_ (mte 0 4095 [] (mtx 4095)), 1, 4095, mctx, by decide +kernel⟩,
   ⟨at_ (mte 1 0 ([0, 0, 0, 0, 1, 0, 0, 0, 16] ++ List.replicate 23 0) sl |> slWr Reg.SLC_MAX_CTX 1 1), 1, _, _, _, _, rfl, rfl, rfl, rfl,
     by decide +kernel⟩,
   ⟨at_ (mte 2 0 [] (mtx 0)), 1, 0, mctx, by decide +kernel⟩,
   ⟨at_ (posted 0), 1, 4095, mctx, post 0, by decide +kernel⟩,
   ⟨at_ (posted 1), 1, 4095, mctx, post 1, by decide +kernel⟩,
   ⟨at_ (posted 2), 1, 4095, mctx, post 2, by decide +kernel⟩,
   ⟨at_ (updQuad 1 (fun q => { q with waits := [.post 0 1 (post 0)] }) (mtx 0)), 1, 0, 1, .post 0 1 (post 0), mctx, post 0, _, rfl,
     by decide +kernel⟩⟩

/-- Some state and operands meet the hypotheses of each clause. -/
theorem wit_BridgeWindowCommandsComplete :
    (∃ (s : State) (w : Nat), served 0x15 0 0x104 s.dev ∧ rd Reg.BRG_BW_IDX 0 s.dev = w ∧ bwinFits w (bwinOf w s.dev).shadow s.dev = true) ∧
    (∃ (s : State) (g : Nat), served 0x15 0 0x134 s.dev ∧ rd Reg.BRG_GRP_IDX 0 s.dev = g ∧ grpFits g (grpOf g s.dev).shadow s.dev = true) :=
  ⟨⟨at_ (wr Reg.BRG_BW_IDX 0 1023 brg), 1023, by decide +kernel⟩,
   ⟨at_ (wr Reg.BRG_GRP_IDX 0 63 (putGrp 63 ⟨[0], grpWords1⟩ (slWr Reg.SLC_MAX_GROUPS 1 2 brg))), 63, by decide +kernel⟩⟩

/-- Some state and operands meet the hypotheses of each clause. -/
theorem wit_BridgeCarriesTlps :
    (∃ (s : State) (vh ofs w : Nat) (data : List Byte), findWin vh ofs data.length s.dev = some w ∧ allHeld s.dev < rd Reg.BRG_WBUF_CELLS 0 s.dev
      ∧ grpHeld (bwGrp w s.dev) s.dev < grpCells (bwGrp w s.dev) s.dev ∧ bwPerm w 2 s.dev = true ∧ grpRts (bwGrp w s.dev) s.dev = true) ∧
    (∃ (s : State) (vh ofs len w : Nat), findWin vh ofs len s.dev = some w ∧ (bw w s.dev).latch = false ∧ grpRts (bwGrp w s.dev) s.dev = true ∧
      bwPerm w 1 s.dev = true) ∧
    (∃ (s : State) (vh ofs len w : Nat), findWin vh ofs len s.dev = some w ∧ (bw w s.dev).latch = false ∧ grpRts (bwGrp w s.dev) s.dev = true ∧
      bwPerm w 4 s.dev = true) ∧
    (∃ (s : State) (vh ofs len w : Nat), findWin vh ofs len s.dev = some w ∧ (bw w s.dev).latch = false ∧ grpRts (bwGrp w s.dev) s.dev = true ∧ ∃
      kind wop, bwPerm w 3 s.dev = true ∧ aopWop kind len = some wop) ∧
    (∃ (s : State) (r : BrgRead), s.dev.eng.brgReads.find? (fun r => r.state == 0 && tagFree r.win s.dev) = some r) ∧
    (∃ (s : State) (id : Nat) (r : BrgRead), s.dev.eng.brgReads.find? (fun r => r.id == id) = some r) ∧
    (∃ (s : State) (w h : Nat), (bw w s.dev).lock = some h) :=
  ⟨⟨at_ (wr Reg.BRG_WBUF_CELLS 0 1 brg), 0, 65532, 1023, [1, 2, 3, 4], by decide +kernel⟩,
   ⟨at_ brg, 0, 0, 65536, 1023, by decide +kernel⟩,
   ⟨at_ brg, 0, 65532, 4, 1023, by decide +kernel⟩,
   ⟨at_ brg, 0, 0, 16, 1023, by decide +kernel, by decide +kernel, by decide +kernel, 2, 8, by decide +kernel⟩,
   ⟨at_ (updEng (fun e => { e with brgReads := [bread] }) brg), bread, by decide +kernel⟩,
   ⟨at_ (updEng (fun e => { e with brgReads := [bread] }) brg), 0, bread, by decide +kernel⟩,
   ⟨at_ (updBw 1023 (fun b => { b with lock := some 7 }) brg), 1023, 7, by decide +kernel⟩⟩

/-- Some state and operands meet the hypotheses of each clause. -/
theorem wit_MessagesAndWiresAct :
    (∃ (s : State) (p : SftPkt) (q : Qp) (key : Nat) (d1 : Dev), connFor msgQpn q p s.dev = (some key, d1) ∧ p.dqpn = msgQpn ∧ p.ecrcOk = true ∧
      p.ekey = rd Reg.MAP_EKEY 0 s.dev ∧ p.opc = 0x20 ∧ qpOf msgQpn s.dev = some q ∧ p.psn = (((qpOf msgQpn d1).getD q).conn key).epsn) ∧
    (∃ (s : State) (vh ofs f lid : Nat) (data : List Byte) (q : Qp), fwdRange vh s.dev = some f ∧ f ≤ ofs ∧ ofs < f + 4096 ∧ data.length = 4 ∧ rdI
      Reg.MAP_FWD_LID 0 vh s.dev = lid ∧ qpOf msgQpn s.dev = some q ∧ (smFind q.conns (peerKey lid msgQpn)).isSome = true) ∧
    (∃ (s : State), served 0x16 0 0x104 s.dev ∧ ∃ i ws, mapOf i s.dev = ws ∧ rd Reg.MAP_IDX 0 s.dev = i) ∧
    (∃ (s : State), served 0x16 0 0x104 s.dev ∧ ∃ i ws, rd Reg.MAP_IDX 0 s.dev = i ∧ maskRow mapMask (rowWords Reg.MAP_DATA 0 6 s.dev) = ws ∧
      uspPort (wbits ws 1 16 4) s.dev = some (wbits ws 1 20 8) ∧ wpair ws 2 % 4 = 0 ∧ s.dev.eng.mapPend.contains i = false) ∧
    (∃ (s : State), served 0x16 0 0x104 s.dev ∧ ∃ i ws, rd Reg.MAP_IDX 0 s.dev = i ∧ maskRow mapMask (rowWords Reg.MAP_DATA 0 6 s.dev) = ws ∧
      uspPort (wbits ws 1 16 4) s.dev = some (wbits ws 1 20 8) ∧ wpair ws 2 % 4 = 0 ∧ s.dev.eng.mapPend.contains i = true ∧ wbits (mapOf i s.dev)
      0 29 1 = 1 ∧ wbits ws 0 29 1 = 0) ∧
    (∃ (s : State) (ch : List Nat), ch = (List.range 32).filter (fun x => rdI Reg.BRG_WIRE_STG 0 x s.dev != rdI Reg.BRG_WIRE_MAP 0 x s.dev) ∧
      served 0x15 0 0x900 s.dev ∧ rd Reg.BRG_WIRE_BUSY 0 s.dev = 0 ∧ wireMapOk (fun x => rdI Reg.BRG_WIRE_STG 0 x s.dev) = true) ∧
    (∃ (s : State), rd Reg.BRG_WIRE_BUSY 0 s.dev = 1) ∧
    (∃ (s : State) (slot k h : Nat) (level : Bool) (d1 : Dev), d1 = setSlotLvl k (putBit (slotLvl k s.dev) slot level) s.dev ∧ slot < 32 ∧ k < 5 ∧
      k ≠ 0 ∧ bitOf (slotLvl k s.dev) slot = !level ∧ wireAt slot k s.dev = h ∧ h < 16 ∧ bitOf (rdI Reg.BRG_WATCH 0 k s.dev) slot = false ∧ bitOf
      (hostLvl k s.dev) h ≠ hostLevel h k d1) ∧
    (∃ (s : State) (slot k : Nat) (level : Bool), slot < 32 ∧ k < 5 ∧ bitOf (slotLvl k s.dev) slot = !level ∧ 16 ≤ wireAt slot k s.dev ∧ bitOf
      (rdI Reg.BRG_WATCH 0 k (setSlotLvl k (putBit (slotLvl k s.dev) slot level) s.dev)) slot = true) :=
  ⟨⟨at_ msgQ, msgP, msgE, peerKey 5 9, _, by rfl, by decide +kernel⟩,
   ⟨at_ (putQp msgQpn (some { rdQp with conns := [(peerKey 5 msgQpn, some Conn.init)] }) (up |> wrI Reg.MAP_FWD_EN 0 15 1 |> wrI
     Reg.MAP_FWD_OFS_LO 0 15 4096 |> wrI Reg.MAP_FWD_LID 0 15 5)), 15, 8191, 4096, 5, [1, 2, 3, 4],
     { rdQp with conns := [(peerKey 5 msgQpn, some Conn.init)] }, by decide +kernel⟩,
   ⟨at_ up, by decide +kernel, 0, _, rfl, by decide +kernel⟩,
   ⟨at_ (usp0 |> wrI Reg.MAP_DATA 0 1 (150 * 2 ^ 20)), by decide +kernel, 0, [0, 150 * 2 ^ 20, 0, 0, 0, 0], by decide +kernel⟩,
   ⟨at_ (usp0 |> wrI Reg.MAP_DATA 0 1 (150 * 2 ^ 20) |> putMap 0 [2 ^ 29, 0, 0, 0, 0, 0] |> updEng (fun e => { e with mapPend := [0] })),
     by decide +kernel, 0, [0, 150 * 2 ^ 20, 0, 0, 0, 0], by decide +kernel⟩,
   ⟨at_ up, _, rfl, by decide +kernel⟩,
   ⟨at_ (wr Reg.BRG_WIRE_BUSY 0 1 up), by decide +kernel⟩,
   ⟨at_ (wrI Reg.BRG_WIRE_MAP 0 31 (15 * 2 ^ 20) up), 31, 4, 15, true, _, rfl, by decide +kernel⟩,
   ⟨at_ (wrI Reg.BRG_WATCH 0 4 (2 ^ 31) up), 31, 4, true, by decide +kernel⟩⟩

/-- Slice 4095 as it is at reset, with its limits in range, on a present function. -/
def freeSlice : Dev :=
  up |> wr Reg.FUN_PRESENT 0 1 |> slWr Reg.SLC_SHARE 4095 1 |> slWr Reg.SLC_MAX_RD 4095 4096 |> slWr Reg.SLC_MAX_REGIONS 4095 4194304
    |> slWr Reg.SLC_MAX_CTX 4095 16384 |> slWr Reg.SLC_MAX_MEMBERS 4095 16384 |> slWr Reg.SLC_MAX_GROUPS 4095 64

theorem cold_slices : ∀ i < 16, litOnly 0x1C (0x100 + 0xF0 * i) = true ∧ bitsOf (coldWord (regAddr 0x1C 0 (0x100 + 0xF0 * i))).toNat 0 3 = 0 := by
  decide +kernel

theorem free_states {n : Nat} (h : n < 4096) : slState n freeSlice = slFree := by
  have hs : ∀ (f : Fld) (i j v : Nat) (d : Dev), smWf coldWord d.regs → fldAddr Reg.SLC_STATE (n / 16) (n % 16) ≠ fldAddr f i j →
      rdI Reg.SLC_STATE (n / 16) (n % 16) (wrI f i j v d) = rdI Reg.SLC_STATE (n / 16) (n % 16) d := fun _ _ _ _ _ w e => rdI_wrI_ne w e
  unfold slState slRd freeSlice up slWr
  have a : fldAddr Reg.SLC_STATE (n / 16) (n % 16) = regAddr 0x1C (n / 16) (0x100 + 0xF0 * (n % 16)) := rfl
  have b := cold_slices (n % 16) (by omega)
  repeat rw [hs _ _ _ _ _ (by repeat' first | apply wrI_wf | decide)
    (by rw [a]; simp [fldAddr, regAddr, Reg.FUN_PRESENT, Reg.DEV_STATE, Reg.SLC_SHARE, Reg.SLC_MAX_RD, Reg.SLC_MAX_REGIONS, Reg.SLC_MAX_CTX,
          Reg.SLC_MAX_MEMBERS, Reg.SLC_MAX_GROUPS]; omega)]
  unfold rdI
  rw [a]
  show bitsOf (coldWord _).toNat 0 3 = 0
  rw [cold_inst (by omega) (by omega) (by omega) b.1]
  exact b.2

theorem free_pasids : ∀ m ∈ slicesOf 0 freeSlice, slRd Reg.SLC_PASID m freeSlice ≠ slRd Reg.SLC_PASID 4095 freeSlice := by
  intro m hm
  simp only [slicesOf, List.mem_filter, List.mem_range, Bool.and_eq_true, bne_iff_ne] at hm
  exact absurd (free_states hm.1) hm.2.1

/-- Slice 1 in a state. -/
def slIn (st : Nat) : Dev := slWr Reg.SLC_STATE 1 st sl

/-- A host read outstanding on VH 15. -/
def hread : HostRead := ⟨3, 15, 1, 4194304, .source 16 0, [], none, []⟩

def rds : Dev := updEng (fun e => { e with reads := [hread] }) up

/-- An access of VH 0 that waits for its translation. -/
def acc0 : Access := { chan := .hostRead, vh := 0, pasid := none, addr := 4096, ro := false, obj := 3, len := 4, bytes := [], ring := false, owner := ⟨7, 0⟩ }

def ats (prg : Bool) : Dev := updEng (fun e => { e with ats := [⟨acc0, none, prg⟩] }) up

/-- Slice 1 with ATS enabled, page 0 in the translation cache or not. -/
def atsOn (hit : Bool) : Dev :=
  wr Reg.FUN_ATS_EN 0 1 sl |> updEng (fun e => { e with atc := if hit then [⟨0, none, 0, 0, true, false⟩] else [] })

/-- A command ring entry: QUERY of queue pair 16. -/
def cmrE : List Byte := [0, 0, 0, 0, 16] ++ List.replicate 59 0

/-- Some state and operands meet the hypotheses of each clause. -/
theorem wit_SliceCommandsAct :
    (∃ (s : State) (n v : Nat), (∀ m ∈ slicesOf v s.dev, slRd Reg.SLC_PASID m s.dev ≠ slRd Reg.SLC_PASID n s.dev) ∧ served 0x1C (n / 16) (0x104 +
      0xF0 * (n % 16)) s.dev ∧ slRd Reg.SLC_CMD_BUSY n s.dev = 0 ∧ slRd Reg.SLC_VH n s.dev = v ∧ slState n s.dev = slFree ∧ rd Reg.FUN_PRESENT v
      s.dev = 1 ∧ sliceLimitsOk n s.dev) ∧
    (∃ (s : State) (n v : Nat), served 0x1C (n / 16) (0x104 + 0xF0 * (n % 16)) s.dev ∧ slRd Reg.SLC_CMD_BUSY n s.dev = 0 ∧ slRd Reg.SLC_VH n s.dev
      = v ∧ slState n s.dev = slActive) ∧
    (∃ (s : State) (n v : Nat), served 0x1C (n / 16) (0x104 + 0xF0 * (n % 16)) s.dev ∧ slRd Reg.SLC_CMD_BUSY n s.dev = 0 ∧ slRd Reg.SLC_VH n s.dev
      = v ∧ ∃ rs, slState n s.dev = slQuiesced ∧ (sliceOf n s.dev).recorded = rs) ∧
    (∃ (s : State) (n v : Nat), served 0x1C (n / 16) (0x104 + 0xF0 * (n % 16)) s.dev ∧ slRd Reg.SLC_CMD_BUSY n s.dev = 0 ∧ slRd Reg.SLC_VH n s.dev
      = v ∧ (slState n s.dev = slQuiesced ∨ slState n s.dev = slAborted)) ∧
    (∃ (s : State) (n v : Nat), served 0x1C (n / 16) (0x104 + 0xF0 * (n % 16)) s.dev ∧ slRd Reg.SLC_CMD_BUSY n s.dev = 0 ∧ slRd Reg.SLC_VH n s.dev
      = v ∧ slState n s.dev = slQuiesced) ∧
    (∃ (s : State) (n : Nat), slState n s.dev = slQuiescing ∧ sliceIdle n s.dev = true) ∧
    (∃ (s : State) (n : Nat), slState n s.dev = slQuiescing ∧ (sliceOf n s.dev).tmoRaised = false) ∧
    (∃ (s : State) (n final : Nat), slState n s.dev = slFencing ∧ (sliceOf n s.dev).resetTo = final ∧ final ≠ 7) :=
  ⟨⟨at_ freeSlice, 4095, 0, by exact free_pasids, by decide +kernel⟩,
   ⟨at_ (slIn slActive), 1, 0, by decide +kernel⟩,
   ⟨at_ (slIn slQuiesced), 1, 0, by decide +kernel, by decide +kernel, by decide +kernel, [], by decide +kernel⟩,
   ⟨at_ (slIn slAborted), 1, 0, by decide +kernel⟩,
   ⟨at_ (slIn slQuiesced), 1, 0, by decide +kernel⟩,
   ⟨at_ (slIn slQuiescing), 1, by decide +kernel⟩,
   ⟨at_ (slIn slQuiescing), 1, by decide +kernel⟩,
   ⟨at_ (updSlice 1 (fun x => { x with resetTo := slQuiesced }) (slIn slFencing)), 1, slQuiesced, by decide +kernel⟩⟩

/-- Some state and operands meet the hypotheses of each clause. -/
theorem wit_FunctionStopsAndReturns :
    (∃ (s : State) (v : Nat), rd Reg.FUN_BME v s.dev = 1) ∧
    (∃ (s : State) (v : Nat), rd Reg.FUN_DSTATE v s.dev = 0) ∧
    (∃ (s : State) (v : Nat), rd Reg.FUN_DSTATE v s.dev = 3) ∧
    (∃ (s : State) (v : Nat) (to_ : List (Nat × Nat)), to_ = (slicesOf v s.dev).map (fun n => (n, if slState n s.dev = slActive ∨ slState n s.dev
      = slAborted then slActive else slQuiesced))) ∧
    (∃ (s : State) (v : Nat), rd Reg.FUN_FLR_BUSY v s.dev = 1) ∧
    (∃ (s : State) (v tag : Nat) (r : _), s.dev.eng.reads.find? (fun r => r.vh == v && r.tag == tag && r.waits.isEmpty) = some r) ∧
    (∃ (s : State) (v tag : Nat), s.dev.eng.reads.find? (fun r => r.vh == v && r.tag == tag && r.waits.isEmpty) = none ∧ ∃ x, s.dev.eng.quar.find?
      (fun x => x.1 == v && x.2.1 == tag) = some x) ∧
    (∃ (s : State) (v tag : Nat), s.dev.eng.reads.find? (fun r => r.vh == v && r.tag == tag && r.waits.isEmpty) = none ∧ s.dev.eng.quar.find? (fun
      x => x.1 == v && x.2.1 == tag) = none) :=
  ⟨⟨at_ (wr Reg.FUN_BME 15 1 up), 15, by decide +kernel⟩,
   ⟨at_ up, 15, by decide +kernel⟩,
   ⟨at_ (wr Reg.FUN_DSTATE 15 3 up), 15, by decide +kernel⟩,
   ⟨at_ up, 15, _, rfl⟩,
   ⟨at_ (wr Reg.FUN_FLR_BUSY 15 1 up), 15, by decide +kernel⟩,
   ⟨at_ rds, 15, 3, hread, by decide +kernel⟩,
   ⟨at_ (updEng (fun e => { e with quar := [(15, 4, 0)] }) rds), 15, 4, by decide +kernel, (15, 4, 0), by decide +kernel⟩,
   ⟨at_ rds, 15, 4, by decide +kernel⟩⟩

/-- Some state and operands meet the hypotheses of each clause. -/
theorem wit_SliceRingsServed :
    (∃ (s : State) (v n : Nat) (es : List (List Byte)), slRd Reg.SLC_VH n s.dev = v ∧ slState n s.dev = slActive ∧ (es = [] ∨ rd Reg.FUN_ATS_EN v
      s.dev ≠ 1)) ∧
    (∃ (s : State) (v n : Nat) (es : List (List Byte)), slRd Reg.SLC_VH n s.dev = v ∧ slState n s.dev = slActive ∧ es ≠ [] ∧ rd Reg.FUN_ATS_EN v
      s.dev = 1 ∧ ∃ at_, at_ = ringPlace n (5 * 2 ^ 24) s.dev ∧ (s.dev.eng.ringWaits.any fun w => w.slice == n && w.key == 5 * 2 ^ 24) = false ∧
      (s.dev.eng.atc.any fun e => e.vh == v && e.pasid == slicePasid n s.dev && e.page == at_ / 4096 && e.read) = true) ∧
    (∃ (s : State) (v n : Nat) (es : List (List Byte)), slRd Reg.SLC_VH n s.dev = v ∧ slState n s.dev = slActive ∧ es ≠ [] ∧ rd Reg.FUN_ATS_EN v
      s.dev = 1 ∧ ∃ at_, at_ = ringPlace n (5 * 2 ^ 24) s.dev ∧ (s.dev.eng.ringWaits.any fun w => w.slice == n && w.key == 5 * 2 ^ 24) = false ∧
      (s.dev.eng.atc.any fun e => e.vh == v && e.pasid == slicePasid n s.dev && e.page == at_ / 4096 && e.read) = false) ∧
    (∃ (s : State) (v n : Nat) (es : List (List Byte)), slRd Reg.SLC_VH n s.dev = v ∧ slState n s.dev = slActive ∧ es ≠ [] ∧ rd Reg.FUN_ATS_EN v
      s.dev = 1 ∧ ∃ at_, at_ = ringPlace n (6 * 2 ^ 24) s.dev ∧ (s.dev.eng.ringWaits.any fun w => w.slice == n && w.key == 6 * 2 ^ 24) = false ∧
      (s.dev.eng.atc.any fun e => e.vh == v && e.pasid == slicePasid n s.dev && e.page == at_ / 4096 && e.read) = true) ∧
    (∃ (s : State) (v n : Nat) (es : List (List Byte)), slRd Reg.SLC_VH n s.dev = v ∧ slState n s.dev = slActive ∧ es ≠ [] ∧ rd Reg.FUN_ATS_EN v
      s.dev = 1 ∧ ∃ at_, at_ = ringPlace n (6 * 2 ^ 24) s.dev ∧ (s.dev.eng.ringWaits.any fun w => w.slice == n && w.key == 6 * 2 ^ 24) = false ∧
      (s.dev.eng.atc.any fun e => e.vh == v && e.pasid == slicePasid n s.dev && e.page == at_ / 4096 && e.read) = false) ∧
    (∃ (s : State) (v n index : Nat), slRd Reg.SLC_VH n s.dev = v ∧ slState n s.dev = slActive ∧ bitOf index 16 = false) ∧
    (∃ (s : State) (v n index : Nat), slRd Reg.SLC_VH n s.dev = v ∧ slState n s.dev = slActive ∧ ∃ d2, d2 = slWr Reg.SLC_EVR_ARMED n 1 (slWr
      Reg.SLC_EVR_CI n (index % 65536) s.dev) ∧ bitOf index 16 = true) ∧
    (∃ (s : State) (n st : Nat) (e data out : List Byte) (l : List (List Byte)) (d1 : Dev), qpcRun (fieldLe e 1 1) (fieldLe e 4 4) (fieldLe e 8 1
      % 16) data (some n) s.dev = (st, out, d1) ∧ (sliceOf n s.dev).cmr = e :: l ∧ slRd Reg.SLC_CMR_EN n s.dev = 1 ∧ (∀ x ∈ s.dev.eng.retiring, ∀
      y, x.2 = some y → y.1 ≠ n) ∧ (slState n s.dev = slActive ∨ slState n s.dev = slQuiescing) ∧ fieldLe e 0 1 = 0) :=
  ⟨⟨at_ sl, 0, 1, [], by decide +kernel⟩,
   ⟨at_ (atsOn true), 0, 1, [[]], by decide +kernel, by decide +kernel, by decide +kernel, by decide +kernel, _, rfl, by decide +kernel⟩,
   ⟨at_ (atsOn false), 0, 1, [[]], by decide +kernel, by decide +kernel, by decide +kernel, by decide +kernel, _, rfl, by decide +kernel⟩,
   ⟨at_ (atsOn true), 0, 1, [[]], by decide +kernel, by decide +kernel, by decide +kernel, by decide +kernel, _, rfl, by decide +kernel⟩,
   ⟨at_ (atsOn false), 0, 1, [[]], by decide +kernel, by decide +kernel, by decide +kernel, by decide +kernel, _, rfl, by decide +kernel⟩,
   ⟨at_ sl, 0, 1, 65535, by decide +kernel⟩,
   ⟨at_ sl, 0, 1, 65536, by decide +kernel, by decide +kernel, _, rfl, by decide +kernel⟩,
   ⟨at_ (sq |> slWr Reg.SLC_CMR_EN 1 1 |> updSlice 1 (fun x => { x with cmr := [cmrE] })), 1, 0, cmrE, [], _, [], _, by rfl, by decide +kernel⟩⟩

/-- Some state and operands meet the hypotheses of each clause. -/
theorem wit_TranslationsServed :
    (∃ (s : State) (v pasid page : Nat) (r w : Bool) (ws : List AtsWait) (rs : List RingWait), ws = s.dev.eng.ats.filter (fun x => waitsFor v
      (pasidOf pasid) page x && !x.prg) ∧ rs = s.dev.eng.ringWaits.filter (fun x => x.waitsOn v (pasidOf pasid) page && x.asked && !x.prg) ∧ (r ||
      w) = true ∧ (ws ≠ [] ∨ rs ≠ [])) ∧
    (∃ (s : State) (v pasid page : Nat) (ws : List AtsWait), prgWaits v (pasidOf pasid) page s.dev = ws ∧ ∃ rs, s.dev.eng.ringWaits.filter (fun x
      => x.waitsOn v (pasidOf pasid) page && x.prg) = rs) ∧
    (∃ (s : State) (v itag : Nat) (x : Nat × Nat × List Nat), s.dev.eng.invals.find? (fun x => x.1 == v && x.2.1 == itag) = some x ∧ (∀ t ∈ x.2.2,
      ∀ r ∈ s.dev.eng.reads, r.tag ≠ t)) :=
  ⟨⟨at_ (ats false), 0, 2 ^ 20, 1, true, false, _, _, rfl, rfl, by decide +kernel⟩,
   ⟨at_ (ats true), 0, 2 ^ 20, 1, [⟨acc0, none, true⟩], by decide +kernel, [], by decide +kernel⟩,
   ⟨at_ (updEng (fun e => { e with invals := [(0, 31, [3])] }) up), 0, 31, (0, 31, [3]), by decide +kernel⟩⟩

/-- A command of the page of a collective unit. -/
def cle (u op i : Nat) (ws : List Nat) (d : Dev) : Dev :=
  d |> wr Reg.CLE_CMD_OP u op |> wr Reg.CLE_CMD_IDX u i |> putCleData u ws

/-- Words of a group of one node without trees, and of one with a parent at port 0, a child at port 1 and its alternate parent at port 2. -/
def lone : List Nat := [256, 0, 0, 0, 0, 0, 0, 0, 0, 0, 0, 0]

def tree : List Nat := [256 + 32, 0, 0, 0, 256, 16384, 256 + 2, 0, 0, 0, 0, 0]

/-- An instance of a barrier in group 0. -/
def barrier : CInst := ⟨0, 0, 0, 0, false, 0, 0, 0, none, [], [], false⟩

def cg (ws : List Nat) (inst : Option CInst) : CGroup := { CGroup.fresh ws with inst := inst }

def inGroup (x : CGroup) : Dev :=
  updColl (fun c => { c with children := [(0, [1, 0, 0, 0])] }) (putCgrp 0 (some x) up)

/-- A member slot of slice 1 in group 0. -/
def member (bound : Bool) : CMember := ⟨[4096, 0, 0, 0, 4, 0, 0, 0], bound, 0, 0, [List.replicate 64 0], none⟩

def cpkt : CollPkt := ⟨0, true, false, false, 0, 0, 0, false, 0, 0, 0, 0, 0, []⟩

/-- Some state and operands meet the hypotheses of each clause. -/
theorem wit_UnitCommandsComplete :
    (∃ (s : State) (u g : Nat) (ws : List Nat), g < 4096 ∧ unitOf g = u ∧ cleData u s.dev = ws ∧ CleReady u 0 g s.dev) ∧
    (∃ (s : State) (u g : Nat) (ws : List Nat), g < 4096 ∧ unitOf g = u ∧ cleData u s.dev = ws ∧ ∃ d1, d1 = (s.dev |> putCgrp g (some
      (CGroup.fresh (maskRow grpDefined ws))) |> moveRsv u 0 0 (linesFor ws) (collCells ws)) ∧ CleReady u 1 g s.dev ∧ cgrp g s.dev = none ∧
      grpError u g ws false s.dev = 0) ∧
    (∃ (s : State) (u g : Nat) (x : CGroup) (ws : List Nat), g < 4096 ∧ unitOf g = u ∧ cleData u s.dev = ws ∧ CleReady u 2 g s.dev ∧ cgrp g s.dev
      = some x ∧ grpError u g ws true s.dev = 0) ∧
    (∃ (s : State) (u g : Nat) (x : CGroup) (ws : List Nat), g < 4096 ∧ unitOf g = u ∧ cleData u s.dev = ws ∧ ∃ d1, d1 = (s.dev |> putCgrp g none
      |> moveRsv u x.lines x.cells 0 0) ∧ CleReady u 3 g s.dev ∧ cgrp g s.dev = some x ∧ x.state ≠ 1) ∧
    (∃ (s : State) (u i : Nat), i < 16384 ∧ CleReady u 4 i s.dev) ∧
    (∃ (s : State) (u i : Nat), i < 16384 ∧ ∃ ws, CleReady u 5 i s.dev ∧ cleData u s.dev = ws ∧ (isNeighbour ws = true → childRef ws < 144)) ∧
    (∃ (s : State) (u i : Nat), i < 16384 ∧ unitOf i = u ∧ CleReady u 6 i s.dev) ∧
    (∃ (s : State) (u i : Nat), i < 16384 ∧ unitOf i = u ∧ ∃ ws n, CleReady u 7 i s.dev ∧ cleData u s.dev = ws ∧ (memberOf i s.dev).bound = false
      ∧ unitOf (wbits ws 0 0 12) = u ∧ wbits ws 2 0 6 = 0 ∧ 4 ≤ wbits ws 4 0 4 ∧ wbits ws 4 0 4 ≤ 12 ∧ wbits ws 0 12 12 = n ∧ (slotsOfSlice n
      s.dev).length < slRd Reg.SLC_MAX_MEMBERS n s.dev) ∧
    (∃ (s : State) (u i : Nat), i < 16384 ∧ unitOf i = u ∧ CleReady u 8 i s.dev ∧ (memberOf i s.dev).bound = true ∧ (memberOf i s.dev).run = none) :=
  ⟨⟨at_ (cle 3 0 4095 lone up), 3, 4095, lone, by decide +kernel⟩,
   ⟨at_ (wr Reg.CLE_LINES_FREE 3 2 (cle 3 1 4095 lone up)), 3, 4095, lone, by decide +kernel, by decide +kernel, by decide +kernel, _, rfl,
     by decide +kernel⟩,
   ⟨at_ (wr Reg.CLE_LINES_FREE 3 2 (cle 3 2 4095 lone (putCgrp 4095 (some (cg lone none)) up))), 3, 4095, cg lone none, lone, by decide +kernel⟩,
   ⟨at_ (cle 3 3 4095 lone (putCgrp 4095 (some (cg lone none)) up)), 3, 4095, cg lone none, lone, by decide +kernel, by decide +kernel,
     by decide +kernel, _, rfl, by decide +kernel⟩,
   ⟨at_ (cle 3 4 16383 [] up), 3, 16383, by decide +kernel⟩,
   ⟨at_ (cle 3 5 16383 [143, 0, 0, 0, 0, 0, 0, 0, 0, 0, 0, 0] up), 3, 16383, by decide +kernel, [143, 0, 0, 0, 0, 0, 0, 0, 0, 0, 0, 0],
     by decide +kernel⟩,
   ⟨at_ (cle 3 6 16383 [] up), 3, 16383, by decide +kernel⟩,
   ⟨at_ (cle 3 7 16383 [3 + 4096, 0, 0, 0, 12, 0, 0, 0, 0, 0, 0, 0] (slWr Reg.SLC_MAX_MEMBERS 1 1 sl)), 3, 16383, by decide +kernel,
     by decide +kernel, [3 + 4096, 0, 0, 0, 12, 0, 0, 0, 0, 0, 0, 0], 1, by decide +kernel⟩,
   ⟨at_ (cle 3 8 16383 [] (updMember 16383 (fun _ => member true) sl)), 3, 16383, by decide +kernel⟩⟩

/-- Some state and operands meet the hypotheses of each clause. -/
theorem wit_CollectivesLaunch :
    (∃ (s : State) (v n slot : Nat) (es : List (List Byte)), slRd Reg.SLC_VH n s.dev = v ∧ slState n s.dev = slActive ∧ (memberOf slot
      s.dev).bound = true ∧ (memberOf slot s.dev).slice = n ∧ domOn (52 + unitOf slot) s.dev = true ∧ (es = [] ∨ rd Reg.FUN_ATS_EN v s.dev ≠ 1)) ∧
    (∃ (s : State) (v n slot : Nat) (es : List (List Byte)), slRd Reg.SLC_VH n s.dev = v ∧ slState n s.dev = slActive ∧ (memberOf slot
      s.dev).bound = true ∧ (memberOf slot s.dev).slice = n ∧ domOn (52 + unitOf slot) s.dev = true ∧ ∃ at_, at_ = descAddr (memberOf slot s.dev)
      (memberOf slot s.dev).pi ∧ es ≠ [] ∧ rd Reg.FUN_ATS_EN v s.dev = 1 ∧ (s.dev.eng.ringWaits.any fun w => w.slice == n && w.key == 7 * 2 ^ 24 +
      slot) = false ∧ (s.dev.eng.atc.any fun e => e.vh == v && e.pasid == slicePasid n s.dev && e.page == at_ / 4096 && e.read) = true) ∧
    (∃ (s : State) (v n slot : Nat) (es : List (List Byte)), slRd Reg.SLC_VH n s.dev = v ∧ slState n s.dev = slActive ∧ (memberOf slot
      s.dev).bound = true ∧ (memberOf slot s.dev).slice = n ∧ domOn (52 + unitOf slot) s.dev = true ∧ ∃ at_, at_ = descAddr (memberOf slot s.dev)
      (memberOf slot s.dev).pi ∧ es ≠ [] ∧ rd Reg.FUN_ATS_EN v s.dev = 1 ∧ (s.dev.eng.ringWaits.any fun w => w.slice == n && w.key == 7 * 2 ^ 24 +
      slot) = false ∧ (s.dev.eng.atc.any fun e => e.vh == v && e.pasid == slicePasid n s.dev && e.page == at_ / 4096 && e.read) = false) ∧
    (∃ (s : State) (slot : Nat) (m : CMember) (b : List Byte) (rest : List (List Byte)) (x : CGroup) (r : CRun) (d1 : Dev), r =
      { idx := m.ci, desc := b, seq := 0, armed := bitOf (fieldLe b 3 1) 1, data := none, res := [] } ∧ d1 = updMember slot (fun m =>
      { m with ring := rest, ci := (m.ci + 1) % 65536, run := some r }) s.dev ∧ memberOf slot s.dev = m ∧ m.ring = b :: rest ∧ m.run = none ∧ cgrp
      m.group s.dev = some x ∧ m.bound = true ∧ x.inst = none ∧ slState m.slice s.dev = slActive ∧ domOn (52 + unitOf slot) s.dev = true ∧
      descInvalid x m.rank b = false ∧ descKeysOk m.slice m.rank b s.dev = true ∧ x.state ≠ 2) :=
  ⟨⟨at_ (updMember 0 (fun _ => member true) sl), 0, 1, 0, [], by decide +kernel⟩,
   ⟨at_ (updMember 0 (fun _ => member true) (atsOn true)), 0, 1, 0, [[]], by decide +kernel, by decide +kernel, by decide +kernel,
     by decide +kernel, by decide +kernel, _, rfl, by decide +kernel⟩,
   ⟨at_ (updMember 0 (fun _ => member true) (atsOn false)), 0, 1, 0, [[]], by decide +kernel, by decide +kernel, by decide +kernel,
     by decide +kernel, by decide +kernel, _, rfl, by decide +kernel⟩,
   ⟨at_ (putCgrp 0 (some (cg lone none)) (updMember 0 (fun _ => member true) sl)), 0, member true, List.replicate 64 0, [], cg lone none, _, _,
     rfl, rfl, by decide +kernel⟩⟩

/-- Some state and operands meet the hypotheses of each clause. -/
theorem wit_CollectivePacketsCarried :
    (∃ (s : State) (port g : Nat) (p : CollPkt) (x : CGroup), p.dgrp = g ∧ domOn (52 + unitOf g) s.dev = true ∧ cgrp g s.dev = some x ∧ ∃ pos d1
      x1 n l, d1 = beginInst g p.cop p.oper p.dtype p.count s.dev ∧ x.state ≠ 2 ∧ (p.tri == 1) = x.alt ∧ blkSub p.block x.blk < 2 * x.win ∧
      childAt (unitOf g) x port s.dev = some pos ∧ cgrp g d1 = some x1 ∧ x1.inst = some n ∧ agrees n p.cop p.oper p.dtype p.count p.exact_ = true
      ∧ n.seq = p.seq ∧ p.err = false ∧ p.empty = false ∧ readWire p.dtype p.oper p.exact_ (elemsAt x n p.block) p.payload = .elems l) ∧
    (∃ (s : State) (port g : Nat) (p : CollPkt) (x : CGroup), p.dgrp = g ∧ domOn (52 + unitOf g) s.dev = true ∧ cgrp g s.dev = some x ∧ ∃ n,
      x.inst = some n ∧ (p.tri == 1) = x.alt ∧ hasParent x.words x.alt = true ∧ parentPort x.words x.alt = port ∧ p.seq = n.seq ∧ p.block = x.blk) ∧
    (∃ (s : State) (port g : Nat) (p : CollPkt) (x : CGroup), p.dgrp = g ∧ domOn (52 + unitOf g) s.dev = true ∧ cgrp g s.dev = some x ∧ onAlt g
      port s.dev = true ∧ x.alt = false ∧ (2, p.seq, p.tri) ∉ x.seen) ∧
    (∃ (s : State) (port g : Nat) (p : CollPkt) (x : CGroup), p.dgrp = g ∧ domOn (52 + unitOf g) s.dev = true ∧ cgrp g s.dev = some x ∧ onAlt g
      port s.dev = true ∧ (3, p.seq, p.tri) ∉ x.seen) ∧
    (∃ (s : State) (port g : Nat) (p : CollPkt) (x : CGroup), p.dgrp = g ∧ domOn (52 + unitOf g) s.dev = true ∧ cgrp g s.dev = some x ∧ onAlt g
      port s.dev = true ∧ (4, p.seq, p.tri) ∉ x.seen) ∧
    (∃ (s : State) (port g : Nat) (p : CollPkt) (x : CGroup), p.dgrp = g ∧ domOn (52 + unitOf g) s.dev = true ∧ cgrp g s.dev = some x ∧ onAlt g
      port s.dev = true ∧ p.count % 2 ^ 20 ≠ rd Reg.RTE_MY_LID (port / 8) s.dev) ∧
    (∃ (s : State) (g : Nat) (x : CGroup), cgrp g s.dev = some x ∧ x.waiting = true) ∧
    (∃ (s : State) (g : Nat) (x : CGroup), cgrp g s.dev = some x ∧ x.inst.isSome = true) :=
  ⟨⟨at_ (inGroup (cg tree none)), 1, 0, cpkt, cg tree none, by decide +kernel, by decide +kernel, by decide +kernel, 0, _,
    { cg tree (some barrier) with state := 1, seq := 1 }, barrier, [], rfl, by decide +kernel⟩,
   ⟨at_ (inGroup (cg tree (some barrier))), 0, 0, cpkt, cg tree (some barrier), by decide +kernel, by decide +kernel, by decide +kernel, barrier,
     by decide +kernel⟩,
   ⟨at_ (inGroup (cg tree none)), 2, 0, cpkt, cg tree none, by decide +kernel⟩,
   ⟨at_ (inGroup (cg tree none)), 2, 0, cpkt, cg tree none, by decide +kernel⟩,
   ⟨at_ (inGroup (cg tree none)), 2, 0, cpkt, cg tree none, by decide +kernel⟩,
   ⟨at_ (inGroup (cg tree none)), 2, 0, { cpkt with count := 1 }, cg tree none, by decide +kernel⟩,
   ⟨at_ (putCgrp 4095 (some { cg lone none with waiting := true }) up), 4095, { cg lone none with waiting := true }, by decide +kernel⟩,
   ⟨at_ (putCgrp 4095 (some (cg lone (some barrier))) up), 4095, cg lone (some barrier), by decide +kernel⟩⟩

/-- Composite mode on, with the roles of this device. -/
def comp (f : Composite → Composite) : Dev := updCmp f (wr Reg.CMP_EN 0 1 up)

/-- Port `p` on an SFL island, UP towards a DX7. -/
def sfl (p : Nat) (d : Dev) : Dev := d |> wr Reg.ISL_PERS (p / 8) 2 |> wr Reg.LNK_LSTATE p 3 |> wr Reg.LNK_PARTNER_DX7 p 1

/-- Ethernet port 0 with its PCS up. -/
def eth : Dev := up |> wr Reg.ISL_PERS 0 3 |> wr Reg.ETH_PCS_UP 0 1

def frame : List Byte := List.replicate 64 0

/-- Check job 15 running over 16 bytes of package memory, of which the second word is in error. -/
def badWord : Dev :=
  up |> wrI Reg.CHK_STATE 0 15 1 |> wrI Reg.CHK_SRC 0 15 1 |> wrI Reg.CHK_LEN_LO 0 15 16 |> updEng (fun e => { e with badMem := [1] })

/-- Some state and operands meet the hypotheses of each clause. -/
theorem wit_CheckJobsRun :
    (∃ (s : State) (j : Nat), j < 16 ∧ served 0x06 0 (0x200 + 0x40 * j) s.dev ∧ goBad j s.dev = false) ∧
    (∃ (s : State) (j : Nat), j < 16 ∧ served 0x06 0 (0x200 + 0x40 * j) s.dev ∧ rdI Reg.CHK_STATE 0 j s.dev = 1 ∧ rdI Reg.CHK_ALV_MODE 0 j s.dev ≠
      2) ∧
    (∃ (s : State) (j : Nat) (data : List Byte), j < 16 ∧ rdI Reg.CHK_STATE 0 j s.dev = 1 ∧ domOn 59 s.dev = true ∧ (rdI Reg.CHK_SRC 0 j s.dev = 1
      ∨ jobLen j s.dev ≤ data.length) ∧ rdI Reg.CHK_ALV_MODE 0 j s.dev ≠ 2 ∧ scanReach j s.dev = none) ∧
    (∃ (s : State) (j : Nat) (data : List Byte), j < 16 ∧ rdI Reg.CHK_STATE 0 j s.dev = 1 ∧ domOn 59 s.dev = true ∧ (rdI Reg.CHK_SRC 0 j s.dev = 1
      ∨ jobLen j s.dev ≤ data.length) ∧ rdI Reg.CHK_ALV_MODE 0 j s.dev ≠ 2 ∧ ∃ m, scanReach j s.dev = some m) ∧
    (∃ (s : State) (j : Nat) (data : List Byte), j < 16 ∧ rdI Reg.CHK_STATE 0 j s.dev = 1 ∧ domOn 59 s.dev = true ∧ (rdI Reg.CHK_SRC 0 j s.dev = 1
      ∨ jobLen j s.dev ≤ data.length) ∧ ∃ bs, rdI Reg.CHK_ALV_MODE 0 j s.dev = 2 ∧ jobData j (jobLen j s.dev) data s.dev = bs ∧ scanReach j s.dev
      = none) ∧
    (∃ (s : State) (j : Nat) (data : List Byte), j < 16 ∧ rdI Reg.CHK_STATE 0 j s.dev = 1 ∧ domOn 59 s.dev = true ∧ (rdI Reg.CHK_SRC 0 j s.dev = 1
      ∨ jobLen j s.dev ≤ data.length) ∧ ∃ bs, rdI Reg.CHK_ALV_MODE 0 j s.dev = 2 ∧ jobData j (jobLen j s.dev) data s.dev = bs ∧ ∃ m, scanReach j
      s.dev = some m) :=
  ⟨⟨at_ (up |> wrI Reg.CHK_LEN_LO 0 15 1 |> wrI Reg.CHK_SRC 0 15 1), 15, by decide +kernel⟩,
   ⟨at_ (wrI Reg.CHK_STATE 0 15 1 up), 15, by decide +kernel⟩,
   ⟨at_ (up |> wrI Reg.CHK_STATE 0 15 1 |> wrI Reg.CHK_LEN_LO 0 15 2), 15, [1, 2], by decide +kernel⟩,
   ⟨at_ badWord, 15, [], by decide +kernel, by decide +kernel, by decide +kernel, by decide +kernel, by decide +kernel, 8, by decide +kernel⟩,
   ⟨at_ (up |> wrI Reg.CHK_STATE 0 15 1 |> wrI Reg.CHK_LEN_LO 0 15 2 |> wrI Reg.CHK_ALV_MODE 0 15 2), 15, [1, 2], by decide +kernel,
     by decide +kernel, by decide +kernel, by decide +kernel, [1, 2], by decide +kernel⟩,
   ⟨at_ (wrI Reg.CHK_ALV_MODE 0 15 2 badWord), 15, [], by decide +kernel, by decide +kernel, by decide +kernel, by decide +kernel, List.replicate
     16 0, by decide +kernel, by decide +kernel, 8, by decide +kernel⟩⟩

/-- Some state and operands meet the hypotheses of each clause. -/
theorem wit_CompositeMembersAct :
    (∃ (s : State) (port serial prio pref anchor id : Nat) (r : RollRec), r = ⟨serial, prio, upTo63 pref, upTo63 anchor, upTo63 id⟩ ∧ cmpRuns
      s.dev = true ∧ toDx7 port s.dev = true ∧ serial ≠ s.dev.otp.serial ∧ r ∉ s.dev.cmp.heard) ∧
    (∃ (s : State) (l : List RollRec) (a : RollRec), admitted (callers s.dev) = l ∧ cmpRuns s.dev = true ∧ s.dev.cmp.standalone = false ∧ (∃ r ∈
      l, r.serial = s.dev.otp.serial) ∧ chooseAnchor s.dev.cmp.anchorId l = some a) ∧
    (∃ (s : State) (b : Nat), cmpRuns s.dev = true ∧ s.dev.cmp.role = 3 ∧ s.dev.cmp.standbyId = some b ∧ served 0x1F 0 0x120 s.dev) ∧
    (∃ (s : State) (anchor epoch serial : Nat), cmpRuns s.dev = true ∧ anchor < 64 ∧ epoch < 65536 ∧ serial ≠ s.dev.otp.serial ∧ s.dev.cmp.role ≠
      0 ∧ s.dev.cmp.anchorId = some anchor) ∧
    (∃ (s : State) (a : Nat) (gone : List (Nat × Nat)), gone = s.dev.cmp.ids.filter (fun x => x.2 == a) ∧ cmpRuns s.dev = true ∧ s.dev.cmp.role =
      2 ∧ s.dev.cmp.anchorId = some a) :=
  ⟨⟨at_ (sfl 143 (comp id)), 143, 7, 1, 64, 63, 0, _, rfl, by decide +kernel⟩,
   ⟨at_ (wr Reg.CMP_ANCHOR_PRIO 0 1 (comp id)), _, ownRoll (wr Reg.CMP_ANCHOR_PRIO 0 1 (comp id)), rfl, by decide +kernel⟩,
   ⟨at_ (comp (fun c => { c with role := 3, standbyId := some 63 })), 63, by decide +kernel⟩,
   ⟨at_ (comp (fun c => { c with role := 1, anchorId := some 63 })), 63, 65535, 7, by decide +kernel⟩,
   ⟨at_ (comp (fun c => { c with role := 2, anchorId := some 0 })), 0, _, rfl, by decide +kernel⟩⟩

/-- Some state and operands meet the hypotheses of each clause. -/
theorem wit_EthernetPortsAct :
    (∃ (s : State) (p : Nat), rd Reg.ETH_PCS_UP p s.dev = 1 ∧ ∃ fr prio dei, 64 ≤ fr.length ∧ fr.length ≤ rd Reg.ETH_MAX_FRAME p s.dev ∧ framePrio
      p fr s.dev = (prio, dei) ∧ ∃ e, gatewayOf (p / 8) (gatewayMac fr) s.dev = some e) ∧
    (∃ (s : State) (p : Nat), rd Reg.ETH_PCS_UP p s.dev = 1 ∧ ∃ fr prio dei, 64 ≤ fr.length ∧ fr.length ≤ rd Reg.ETH_MAX_FRAME p s.dev ∧ framePrio
      p fr s.dev = (prio, dei) ∧ gatewayOf (p / 8) (gatewayMac fr) s.dev = none) ∧
    (∃ (s : State) (p : Nat), rd Reg.ETH_PCS_UP p s.dev = 1 ∧ ∃ prio quanta, bitOf (rd Reg.ETH_PFC_EN p s.dev) prio = true ∧ bitOf (portOf p
      s.dev).paused prio = false ∧ 0 < quanta) ∧
    (∃ (s : State) (p : Nat), rd Reg.ETH_PCS_UP p s.dev = 1 ∧ ∃ prio, bitOf (portOf p s.dev).xoff prio = true) ∧
    (∃ (s : State) (p prio : Nat), bitOf (portOf p s.dev).paused prio = true ∧ rd Reg.ETH_PFC_WD p s.dev ≠ 0) ∧
    (∃ (s : State) (p : Nat), rd Reg.ETH_PCS_UP p s.dev = 0 ∧ mayRun p s.dev = true ∧ pers (p / 8) s.dev = 3) :=
  ⟨⟨at_ (eth |> wr Reg.ETH_MAX_FRAME 0 64 |> updNet (fun n => { n with tables := [(65536, 2 ^ 63)] })), 0, by decide +kernel, frame, 0, false,
    by decide +kernel, by decide +kernel, by decide +kernel, 0, by decide +kernel⟩,
   ⟨at_ (wr Reg.ETH_MAX_FRAME 0 64 eth), 0, by decide +kernel, frame, 0, false, by decide +kernel⟩,
   ⟨at_ (wr Reg.ETH_PFC_EN 0 128 eth), 0, by decide +kernel, 7, 1, by decide +kernel⟩,
   ⟨at_ (updPort 0 (fun q => { q with xoff := 128 }) eth), 0, by decide +kernel, 7, by decide +kernel⟩,
   ⟨at_ (eth |> updPort 0 (fun q => { q with paused := 128 }) |> wr Reg.ETH_PFC_WD 0 1), 0, 7, by decide +kernel⟩,
   ⟨at_ (up |> wr Reg.ISL_PERS 0 3 |> wr Reg.ISL_PORT_CFG_LO 0 0x12 |> wr Reg.LNK_EN 0 1), 0, by decide +kernel⟩⟩

/-- A domain's transition under way. -/
def inTr (dom target : Nat) (acked draining : Bool) : DomTr := ⟨dom, target, 0, 0, acked, draining⟩

def trD (t : DomTr) : Dev := putTr t (wrI Reg.PWR_STATE 0 t.dom 3 up)

/-- The rails are up. -/
def railed : Dev := updFd (fun f => { f with presentB := true, rails := true, aon := true }) up

/-- Some state and operands meet the hypotheses of each clause. -/
theorem wit_FeedsAndFusesAct :
    (∃ (s : State) (w : Nat), w < 2 ∧ noFeed s.dev = true ∧ s.dev.fd.holdSince = none) ∧
    (∃ (s : State) (w : Nat), w < 2 ∧ waiting w s.dev = false ∧ present w s.dev = true ∧ good w s.dev = false ∧ noPath s.dev = false ∧ closed w
      s.dev = false) ∧
    (∃ (s : State) (w : Nat), w < 2 ∧ closed w s.dev = false ∧ rd (fState w) 0 s.dev = 3) ∧
    (∃ (s : State) (w : Nat), w < 2 ∧ rd Reg.PWR_FEED_ACTIVE 0 s.dev = 1 - w ∧ good w s.dev = true ∧ served 0x01 0 0x104 s.dev) ∧
    (∃ (s : State) (w : Nat), w < 2 ∧ rd Reg.PWR_FEED_ACTIVE 0 s.dev = 1 - w ∧ good w s.dev = true ∧ rd Reg.PWR_PRI_FEED 0 s.dev = w ∧ rd
      Reg.PWR_RETURN_EN 0 s.dev = 1) ∧
    (∃ (s : State) (w : Nat), w < 2 ∧ ∃ cause, 1 ≤ cause ∧ cause ≤ 5 ∧ closed w s.dev = true) ∧
    (∃ (s : State) (w : Nat), w < 2 ∧ rd (fState w) 0 s.dev = 4 ∧ noPath s.dev = false ∧ (rd Reg.PWR_RETRY_MAX 0 s.dev = 0 ∨ fails w s.dev < rd
      Reg.PWR_RETRY_MAX 0 s.dev)) ∧
    (∃ (s : State) (w : Nat), w < 2 ∧ rd (fState w) 0 s.dev = 5 ∧ served 0x01 0 0x104 s.dev) ∧
    (∃ (s : State) (w : Nat), w < 2 ∧ rd (fState w) 0 s.dev = 5 ∧ rd (fLeft w) 0 s.dev = 0 ∧ present w s.dev = true ∧ noPath s.dev = true ∧
      s.dev.fd.rails = true) ∧
    (∃ (s : State) (w : Nat), w < 2 ∧ rd (fState w) 0 s.dev = 1) :=
  ⟨⟨at_ up, 1, by decide +kernel⟩,
   ⟨at_ (railed |> wr Reg.PWR_A_STATE 0 2), 1, by decide +kernel⟩,
   ⟨at_ (wr Reg.PWR_B_STATE 0 3 up), 1, by decide +kernel⟩,
   ⟨at_ (up |> wr Reg.PWR_FEED_ACTIVE 0 0 |> wr Reg.PWR_B_GOOD 0 1), 1, by decide +kernel⟩,
   ⟨at_ (up |> wr Reg.PWR_FEED_ACTIVE 0 1 |> wr Reg.PWR_A_GOOD 0 1 |> wr Reg.PWR_PRI_FEED 0 0 |> wr Reg.PWR_RETURN_EN 0 1), 0, by decide +kernel⟩,
   ⟨at_ (wr Reg.PWR_B_STATE 0 2 up), 1, by decide +kernel, 5, by decide +kernel⟩,
   ⟨at_ (up |> wr Reg.PWR_B_STATE 0 4 |> wr Reg.PWR_A_STATE 0 2 |> wr Reg.PWR_RETRY_MAX 0 1), 1, by decide +kernel⟩,
   ⟨at_ (wr Reg.PWR_B_STATE 0 5 up), 1, by decide +kernel⟩,
   ⟨at_ (wr Reg.PWR_B_STATE 0 5 railed), 1, by decide +kernel⟩,
   ⟨at_ (wr Reg.PWR_B_STATE 0 1 up), 1, by decide +kernel⟩⟩

/-- Some state and operands meet the hypotheses of each clause. -/
theorem wit_SupplyAndHeatAct :
    (∃ (s : State), s.dev.fd.dip = none ∧ s.dev.fd.dipStarts = []) ∧
    (∃ (s : State) (t us : Nat), s.dev.fd.dip = some t ∧ us = (s.dev.th.localNs - t) / 1000) ∧
    (∃ (s : State), s.dev.fd.dip = none ∧ s.dev.fd.throttleDip = true) ∧
    (∃ (s : State), s.dev.fd.rails = true ∧ rd Reg.PWR_PG 0 s.dev = 1) ∧
    (∃ (s : State), s.dev.fd.holdSince.isSome = true ∧ s.dev.fd.rails = false) ∧
    (∃ (s : State), rd Reg.PWR_PLINK_FAILED 0 s.dev = 0 ∧ s.dev.fd.rails = true) ∧
    (∃ (s : State) (temps : List Int) (hot : Int), temps.length = 10 ∧ s.dev.fd.rails = true ∧ hottest temps = hot ∧ hot < 1000 ∧
      s.dev.sens.sampled = true) ∧
    (∃ (s : State), s.dev.fd.throttleHot = true ∧ (∀ t ∈ s.dev.sens.temps, t < 950)) ∧
    (∃ (s : State) (mv : Nat), s.dev.fd.aon = true ∧ vioGood s.dev = false ∧ 700 ≤ mv) ∧
    (∃ (s : State) (mv : Nat), s.dev.fd.aon = true ∧ vioGood s.dev = true ∧ mv < 700) ∧
    (∃ (s : State) (mv : Nat), s.dev.fd.aon = true ∧ vioGood s.dev = decide (700 ≤ mv) ∧ s.dev.sens.vio < 10 * (mv - s.dev.sens.vio)) :=
  ⟨⟨at_ up, by decide +kernel⟩,
   ⟨at_ (updFd (fun f => { f with dip := some 0 }) up), 0, 0, by decide +kernel⟩,
   ⟨at_ (updFd (fun f => { f with throttleDip := true }) up), by decide +kernel⟩,
   ⟨at_ (wr Reg.PWR_PG 0 1 railed), by decide +kernel⟩,
   ⟨at_ (updFd (fun f => { f with holdSince := some 0 }) up), by decide +kernel⟩,
   ⟨at_ railed, by decide +kernel⟩,
   ⟨at_ ({ railed with sens := { railed.sens with sampled := true } }), List.replicate 10 999, 999, by decide +kernel⟩,
   ⟨at_ (updFd (fun f => { f with throttleHot := true }) up), by decide +kernel⟩,
   ⟨at_ (wr Reg.DEV_VIO_OK 0 0 railed), 700, by decide +kernel⟩,
   ⟨at_ ({ railed with sens := { railed.sens with vio := 700 } }), 699, by decide +kernel⟩,
   ⟨at_ ({ railed with sens := { railed.sens with vio := 700 } }), 800, by decide +kernel⟩⟩

/-- Some state and operands meet the hypotheses of each clause. -/
theorem wit_DomainTransitionsRun :
    (∃ (s : State) (v : Word) (dom target : Nat), served 0x01 0 0x200 s.dev ∧ bitOf v.toNat 31 = true ∧ bitsOf v.toNat 0 6 = dom ∧ bitsOf v.toNat
      8 2 = target ∧ target ≠ 3 ∧ trOf dom s.dev = none ∧ (target = 0 ∨ commitIn dom s.dev = false) ∧ domState dom s.dev = target) ∧
    (∃ (s : State) (v : Word) (dom target : Nat), served 0x01 0 0x200 s.dev ∧ bitOf v.toNat 31 = true ∧ bitsOf v.toNat 0 6 = dom ∧ bitsOf v.toNat
      8 2 = target ∧ target ≠ 3 ∧ trOf dom s.dev = none ∧ (target = 0 ∨ commitIn dom s.dev = false) ∧ domState dom s.dev ≠ target ∧ (target = 0 ∨
      refuserOf dom target s.dev = 0) ∧ (dom < 18 ∨ 40 ≤ dom)) ∧
    (∃ (s : State) (v : Word) (dom target : Nat), served 0x01 0 0x200 s.dev ∧ bitOf v.toNat 31 = true ∧ bitsOf v.toNat 0 6 = dom ∧ bitsOf v.toNat
      8 2 = target ∧ target ≠ 3 ∧ trOf dom s.dev = none ∧ (target = 0 ∨ commitIn dom s.dev = false) ∧ ∃ d1, d1 = startTr dom target s.dev ∧
      domState dom s.dev = 0 ∧ (target = 1 ∨ target = 2) ∧ refuserOf dom target s.dev = 0 ∧ ∃ k, dom = 18 + k ∧ k < 6 ∧ rd Reg.STR_STATE k d1 = 0) ∧
    (∃ (s : State) (v : Word) (dom target : Nat), served 0x01 0 0x200 s.dev ∧ bitOf v.toNat 31 = true ∧ bitsOf v.toNat 0 6 = dom ∧ bitsOf v.toNat
      8 2 = target ∧ target ≠ 3 ∧ trOf dom s.dev = none ∧ (target = 0 ∨ commitIn dom s.dev = false) ∧ ∃ d1, d1 = startTr dom target s.dev ∧
      domState dom s.dev = 0 ∧ (target = 1 ∨ target = 2) ∧ refuserOf dom target s.dev = 0 ∧ ∃ seg, dom = 24 + seg ∧ seg < 16) ∧
    (∃ (s : State) (dom k : Nat), hasWake dom k = true ∧ bitOf (rdI Reg.PWR_WAKE_EN 0 dom s.dev) k = true ∧ rdI Reg.PWR_PENDING 0 dom s.dev = 0 ∧
      trOf dom s.dev = none ∧ (domState dom s.dev = 1 ∨ domState dom s.dev = 2)) ∧
    (∃ (s : State) (dom : Nat) (t : DomTr), trOf dom s.dev = some t ∧ t.draining = false) ∧
    (∃ (s : State) (dom : Nat) (t : DomTr), trOf dom s.dev = some t ∧ t.acked = false ∧ t.draining = false ∧ t.timeouts < 2) ∧
    (∃ (s : State) (dom : Nat) (t : DomTr), trOf dom s.dev = some t ∧ t.acked = true) ∧
    (∃ (s : State) (dom : Nat) (t : DomTr), trOf dom s.dev = some t ∧ ∃ seg, dom = 24 + seg ∧ seg < 16 ∧ t.draining = true) :=
  ⟨⟨at_ up, 0x8000003F#32, 63, 0, by decide +kernel⟩,
   ⟨at_ up, 0x80000228#32, 40, 2, by decide +kernel⟩,
   ⟨at_ up, 0x80000117#32, 23, 1, by decide +kernel, by decide +kernel, by decide +kernel, by decide +kernel, by decide +kernel,
     by decide +kernel, by decide +kernel, _, rfl, by decide +kernel, by decide +kernel, by decide +kernel, 5, by decide +kernel⟩,
   ⟨at_ up, 0x80000127#32, 39, 1, by decide +kernel, by decide +kernel, by decide +kernel, by decide +kernel, by decide +kernel,
     by decide +kernel, by decide +kernel, _, rfl, by decide +kernel, by decide +kernel, by decide +kernel, 15, by decide +kernel⟩,
   ⟨at_ (up |> wrI Reg.PWR_WAKE_EN 0 17 2 |> wrI Reg.PWR_STATE 0 17 1), 17, 1, by decide +kernel⟩,
   ⟨at_ (trD (inTr 63 1 false false)), 63, inTr 63 1 false false, by decide +kernel⟩,
   ⟨at_ (trD (inTr 63 1 false false)), 63, inTr 63 1 false false, by decide +kernel⟩,
   ⟨at_ (trD (inTr 63 1 true false)), 63, inTr 63 1 true false, by decide +kernel⟩,
   ⟨at_ (trD (inTr 39 1 false true)), 39, inTr 39 1 false true, by decide +kernel, 15, by decide +kernel⟩⟩

/-- Some state and operands meet the hypotheses of each clause. -/
theorem wit_DieLinksAndOutsideWritesAct :
    (∃ (s : State) (link before t : Nat), link < 9 ∧ rdI Reg.DEV_D2D_CORR 0 link s.dev = before ∧ rd Reg.DEV_D2D_THRESH 0 s.dev = t) ∧
    (∃ (link : Nat), link < 6) ∧
    (∃ (s : State) (link offset : Nat) (m : _), link = 7 + m ∧ m < 2 ∧ domOn (56 + m) s.dev = true ∧ (offset / 256) % 2 = m) ∧
    (∃ (s : State) (port cls k : Nat), expIdx port s.dev = some k ∧ rd Reg.EXP_DL_ACTIVE k s.dev = 1 ∧ 1 ≤ cls ∧ cls ≤ 4) ∧
    (∃ (s : State) (v n reg : Nat), ready s.dev = true ∧ n < 4096 ∧ 0x20 ≤ reg ∧ reg ≤ 0x4C ∧ reg % 4 = 0 ∧ slState n s.dev ≠ slFree ∧ slRd
      Reg.SLC_VH n s.dev = v ∧ rd Reg.FUN_FLR_BUSY v s.dev = 0) :=
  ⟨⟨at_ (wr Reg.DEV_D2D_THRESH 0 1 up), 8, 0, 1, by decide +kernel⟩,
   ⟨5, by decide +kernel⟩,
   ⟨at_ up, 8, 256, 1, by decide +kernel⟩,
   ⟨at_ (up |> wr Reg.EXP_IDX_VALID 63 1 |> wr Reg.EXP_PORT 63 150 |> wr Reg.EXP_DL_ACTIVE 63 1), 150, 4, 63, by decide +kernel⟩,
   ⟨at_ sl, 0, 1, 0x4C, by decide +kernel⟩⟩

/-- EXP index `k` used, enabled, its link up, in a role. -/
def expUp (k role : Nat) : Dev :=
  up |> wr Reg.EXP_IDX_VALID k 1 |> wr Reg.EXP_EN k 1 |> wr Reg.EXP_DL_ACTIVE k 1 |> wr Reg.EXP_ROLE k role

/-- VH 15 with its upstream port at index 63. -/
def vh15 : Dev := up |> wr Reg.VHC_VH_EN 15 1 |> wr Reg.VHC_USP 15 63

/-- Slot 31 with EXP index 63 as a downstream port that owns its wires. -/
def slot31 : Dev := expUp 63 0 |> wr Reg.EXP_SLOT 63 31 |> wr Reg.EXP_SLOT_EN 63 1

def tlp0 : Tlp :=
  { kind := 0, tc := 0, addr := 0, len := 4, at_ := 0, req := 0, tag := 0, bdf := 0, route := 0, ro := false, poison := false, last := true,
    ld := 0, bytes := [1, 2, 3, 4] }

/-- A completion, and the downstream port whose device it answers for: the request came from the host. -/
def cpl0 : Tlp := { tlp0 with kind := 2 }

def asked : Dev := updSwPort 63 (fun p => { p with bound := [(0, 15, some (15, 31))], np := [⟨15, 0, 0, 64, 1⟩] }) (expUp 63 0)

/-- A meter that drops whatever it colours red, its buckets empty. -/
def dropAll : Meter := { Meter.init with w0 := 2 ^ 23 + 2 ^ 27 }

def cp : CompPkt := ⟨4, 2, 0, 63, 0, 0, 0, 0, 65535, 0, tlp0⟩

def streams (d : Dev) : Dev :=
  updSw (fun s => { s with tx := [(streamKey 63 2, ⟨1, [(cp, 0)], [], 0⟩)], rx := [(streamKey 63 2, ⟨1, 1, true, [], []⟩)] }) d

/-- Some state and operands meet the hypotheses of each clause. -/
theorem wit_SwitchCarriesTlps :
    (∃ (s : State) (k : Nat) (t : Tlp) (d0 : Dev), d0 = (s.dev |> bump Reg.EXP_TLP_RX k |> onlyIf t.poison (poisonSeen k t.ld)) ∧ expOn k s.dev =
      true ∧ rd Reg.EXP_DL_ACTIVE k s.dev = 1 ∧ ∃ c m t1 d1, meterTake (rd Reg.EXP_PORT k d0) t.tc 0 t.bytes.length d0 = (some (c, m), d1) ∧ t1 =
      { t with colour := c, mark := m } ∧ ∃ v, isUsp k d1 = true ∧ rd Reg.EXP_LVH k d1 = v ∧ fromHost v t1 d1 ≠ .fn v 2) ∧
    (∃ (s : State) (k : Nat) (t : Tlp) (d0 : Dev), d0 = (s.dev |> bump Reg.EXP_TLP_RX k |> onlyIf t.poison (poisonSeen k t.ld)) ∧ expOn k s.dev =
      true ∧ rd Reg.EXP_DL_ACTIVE k s.dev = 1 ∧ ∃ c m t1 d1, meterTake (rd Reg.EXP_PORT k d0) t.tc 0 t.bytes.length d0 = (some (c, m), d1) ∧ t1 =
      { t with colour := c, mark := m } ∧ ∃ ld vh v n r d2, takeNp k t1 d1 = (some r, d2) ∧ isUsp k d1 = false ∧ isolated k d1 = false ∧ (swPort k
      d1).bound.find? (fun b => b.1 == t1.ld) = some (ld, vh, some (v, n)) ∧ t1.response = true ∧ 64 ≤ r.member) ∧
    (∃ (s : State) (k : Nat) (t : Tlp) (d0 : Dev), d0 = (s.dev |> bump Reg.EXP_TLP_RX k |> onlyIf t.poison (poisonSeen k t.ld)) ∧ expOn k s.dev =
      true ∧ rd Reg.EXP_DL_ACTIVE k s.dev = 1 ∧ ∃ d1, meterTake (rd Reg.EXP_PORT k d0) t.tc 0 t.bytes.length d0 = (none, d1)) ∧
    (∃ (s : State) (v k bus dev fn : Nat) (type1 : Bool), uspIdx v s.dev = some k ∧ cfgFn v type1 bus dev fn s.dev = .net ∧ ready s.dev = true ∧
      rd Reg.FUN_FLR_BUSY v s.dev = 0) ∧
    (∃ (s : State) (v k bus dev fn : Nat) (type1 : Bool), uspIdx v s.dev = some k ∧ cfgFn v type1 bus dev fn s.dev = .none ∧ ready s.dev = true) :=
  ⟨⟨at_ (expUp 63 1), 63, tlp0, _, rfl, by decide +kernel, by decide +kernel, 0, false, _, _, by rfl, rfl, 0, by decide +kernel⟩,
   ⟨at_ asked, 63, cpl0, _, rfl, by decide +kernel, by decide +kernel, 0, false, _, _, by rfl, rfl, 0, 15, 15, 31, ⟨15, 0, 0, 64, 1⟩, _, by rfl,
     by decide +kernel⟩,
   ⟨at_ (expUp 63 1 |> wrI Reg.MTR_MODE 0 0 1 |> putMeter 0 dropAll), 63, tlp0, _, rfl, by decide +kernel, by decide +kernel, _, by rfl⟩,
   ⟨at_ vh15, 15, 63, 0, 0, 0, true, by decide +kernel⟩,
   ⟨at_ vh15, 15, 63, 0, 1, 0, false, by decide +kernel⟩⟩

/-- Some state and operands meet the hypotheses of each clause. -/
theorem wit_SwitchBindsAndResets :
    (∃ (s : State) (v : Nat), (uspIdx v s.dev).isSome = true) ∧
    (∃ (s : State) (v n w m k ld : Nat), served 0x1A v 0x10C s.dev ∧ rd Reg.VHC_MAP_BUSY v s.dev = 0 ∧ rd Reg.VHC_DSP_IDX v s.dev = n ∧ (wordAt
      (regAddr 0x1A v 0x108) s.dev).toNat = w ∧ isSelf m s.dev = true ∧ 2 ≤ n ∧ bitOf w 0 = true ∧ dspAt v n s.dev = none ∧ mapWord w = (m, k, ld)
      ∧ bindBad (some v) k ld s.dev = 0 ∧ inHoldOff k s.dev = false) ∧
    (∃ (s : State) (v n w m k ld : Nat), served 0x1A v 0x10C s.dev ∧ rd Reg.VHC_MAP_BUSY v s.dev = 0 ∧ rd Reg.VHC_DSP_IDX v s.dev = n ∧ (wordAt
      (regAddr 0x1A v 0x108) s.dev).toNat = w ∧ isSelf m s.dev = true ∧ dspAt v n s.dev = some (m, k, ld)) ∧
    (∃ (s : State) (dexp ld : Nat), bindBad none dexp ld s.dev = 0 ∧ inHoldOff dexp s.dev = false) ∧
    (∃ (s : State) (v dexp ld : Nat), ((swPort dexp s.dev).bound.any (fun b => b.1 == ld && b.2.1 == v)) = true) ∧
    (∃ (s : State) (k v n w c : Nat), (swPort k s.dev).wait = some (v, n, w, 1, c)) ∧
    (∃ (s : State) (i : Nat) (live shadow : List Nat), served 0x1A 0 0x204 s.dev ∧ rd Reg.VHC_PW_IDX 0 s.dev = i ∧ pwOf i s.dev = (live, shadow)) :=
  ⟨⟨at_ vh15, 15, by decide +kernel⟩,
   ⟨at_ (up |> wr Reg.VHC_DSP_IDX 15 31 |> wr Reg.VHC_MAP_VALID 15 1 |> wr Reg.VHC_DEXP 15 63 |> wr Reg.EXP_IDX_VALID 63 1), 15, 31, 63 * 128 + 1,
     0, 63, 0, by decide +kernel⟩,
   ⟨at_ (up |> wr Reg.VHC_DSP_IDX 15 31 |> updSw (fun s => { s with maps := [(511, 63 * 128 + 1)] })), 15, 31, 0, 0, 63, 0, by decide +kernel⟩,
   ⟨at_ (wr Reg.EXP_IDX_VALID 63 1 up), 63, 0, by decide +kernel⟩,
   ⟨at_ (updSwPort 63 (fun p => { p with bound := [(0, 255, none)] }) up), 255, 63, 0, by decide +kernel⟩,
   ⟨at_ (updSwPort 63 (fun p => { p with wait := some (15, 31, 1, 1, 0) }) up), 63, 15, 31, 1, 0, by decide +kernel⟩,
   ⟨at_ (wr Reg.VHC_PW_IDX 0 255 up), 255, List.replicate 8 0, List.replicate 8 0, by decide +kernel⟩⟩

/-- Some state and operands meet the hypotheses of each clause. -/
theorem wit_SwitchPortsAndSlotsAct :
    (∃ (s : State) (k : Nat), rd Reg.EXP_IDX_VALID k s.dev = 1 ∧ isolated k s.dev = false ∧ served 0x19 k 0x104 s.dev) ∧
    (∃ (s : State) (k : Nat), rd Reg.EXP_IDX_VALID k s.dev = 1 ∧ isolated k s.dev = false ∧ k < 64 ∧ rd Reg.EXP_EN k s.dev = 1) ∧
    (∃ (s : State) (k : Nat), rd Reg.EXP_IDX_VALID k s.dev = 1 ∧ isolated k s.dev = false ∧ ∃ speed width lds, k < 64 ∧ rd Reg.EXP_EN k s.dev = 1
      ∧ 1 ≤ speed ∧ speed ≤ rd Reg.EXP_MAX_GEN k s.dev ∧ width < 32 ∧ lds ≤ 16) ∧
    (∃ (s : State) (k : Nat), rd Reg.EXP_IDX_VALID k s.dev = 1 ∧ isolated k s.dev = false ∧ isUsp k s.dev = false ∧ perstHeld k s.dev = false) ∧
    (∃ (s : State) (k : Nat), expOn k s.dev = true ∧ rd Reg.EXP_DL_ACTIVE k s.dev = 1) ∧
    (∃ (s : State) (k : Nat), isolated k s.dev = true ∧ served 0x19 k 0x104 s.dev ∧ rd Reg.EXP_ISO_CAUSE k s.dev ≠ 3) ∧
    (∃ (s : State) (k : Nat), served 0x19 k 0x104 s.dev ∧ rd Reg.EXP_EN k s.dev = 0 ∧ harbourFits (wr Reg.EXP_EN k 1 s.dev) = true) ∧
    (∃ (s : State) (slot : Nat), slotPorts slot 1 s.dev = []) ∧
    (∃ (s : State) (slot : Nat) (k v n b d1 : _), d1 = wireEdge slot 1 false s.dev ∧ slotPorts slot 1 s.dev = [k] ∧ (swPort k d1).bound = [(b, v,
      some (v, n))]) ∧
    (∃ (s : State) (slot : Nat) (k : _), slotPorts slot 3 s.dev = [k] ∧ rd Reg.EXP_CLKREQ_IGN k s.dev = 0) :=
  ⟨⟨at_ (expUp 63 0), 63, by decide +kernel⟩,
   ⟨at_ (expUp 63 0), 63, by decide +kernel⟩,
   ⟨at_ (wr Reg.EXP_MAX_GEN 63 1 (expUp 63 0)), 63, by decide +kernel, by decide +kernel, 1, 31, 16, by decide +kernel⟩,
   ⟨at_ (updSwPort 63 (fun p => { p with bound := [(0, 0, none)] }) (expUp 63 0)), 63, by decide +kernel⟩,
   ⟨at_ (expUp 63 0), 63, by decide +kernel⟩,
   ⟨at_ (expUp 63 0 |> wr Reg.EXP_ISO_STATE 63 1 |> wr Reg.EXP_ISO_CAUSE 63 5), 63, by decide +kernel⟩,
   ⟨at_ up, 63, by decide +kernel⟩,
   ⟨at_ up, 31, by decide +kernel⟩,
   ⟨at_ (updSwPort 63 (fun p => { p with bound := [(0, 15, some (15, 31))] }) slot31), 31, 63, 15, 31, 0, _, rfl, by decide +kernel⟩,
   ⟨at_ slot31, 31, 63, by decide +kernel⟩⟩

/-- Some state and operands meet the hypotheses of each clause. -/
theorem wit_CompositeStreamsAct :
    (∃ (s : State) (p : CompPkt) (x : CompRx) (d1 d2 : Dev), d1 = (s.dev |> updRx p.src p.cls (fun x =>
      { x with expect := (x.expect + 1) % 65536, since := x.since + 1, due := true }) |> bump Reg.CMP_RX 0) ∧ d2 = passComp p d1 ∧ fromMember
      p.src p.dst s.dev = true ∧ p.type < 5 ∧ 1 ≤ p.cls ∧ p.cls < 3 ∧ p.cseq < 65536 ∧ rxOf p.src p.cls s.dev = x ∧ p.cseq = x.expect ∧ (rxOf
      p.src p.cls d1).wait = [] ∧ fenceOpen p.src p.pfence d1 = true) ∧
    (∃ (s : State) (m c seq : Nat) (gone : List (CompPkt × Nat)), gone = (txOf m c s.dev).out.filter (fun e => decide ((seq + 65536 - e.1.cseq) %
      65536 < 32768)) ∧ compositeOn s.dev = true ∧ m < 64 ∧ c < 3 ∧ gone ≠ []) ∧
    (∃ (s : State) (m c : Nat), compositeOn s.dev = true ∧ m < 64 ∧ c < 3) ∧
    (∃ (s : State) (m c : Nat), (rxOf m c s.dev).due = true) ∧
    (∃ (s : State) (m c : Nat) (x : CompTx), txOf m c s.dev = x ∧ x.out ≠ [] ∧ x.passes < rd Reg.CMP_RETRY 0 s.dev) ∧
    (∃ (s : State) (v m req tag : Nat) (r : NpReq), v < 256 ∧ s.dev.sw.remote.find? (fun r => r.vh == v && r.member == m && r.req == req && r.tag
      == tag) = some r) :=
  ⟨⟨at_ (comp id), cp, ⟨0, 0, false, [], []⟩, _, _, rfl, rfl, by decide +kernel⟩,
   ⟨at_ (streams (comp id)), 63, 2, 0, _, rfl, by decide +kernel⟩,
   ⟨at_ (comp id), 63, 2, by decide +kernel⟩,
   ⟨at_ (streams up), 63, 2, by decide +kernel⟩,
   ⟨at_ (streams (wr Reg.CMP_RETRY 0 1 up)), 63, 2, ⟨1, [(cp, 0)], [], 0⟩, by decide +kernel⟩,
   ⟨at_ (updSw (fun s => { s with remote := [⟨255, 7, 3, 63, 1⟩] }) up), 255, 63, 7, 3, ⟨255, 7, 3, 63, 1⟩, by decide +kernel⟩⟩

/-- Timed port 143 of an SFL island. -/
def timed : Dev := wrI Reg.TIM_TIME_EN 0 143 1 (sfl 143 up)

/-- A horizon entry on the time axis. -/
def hzn1 : HznEntry := { HznEntry.init with action := 4, ttype := 0x10, tinst := 19, moment := 1000, fires := 1 }

def logged : LogEntry := ⟨0, 0, 1, true, false, false, false, false, 0, 0, 0, 0, 0⟩

/-- A port whose exchange waits for the partner's TX_PREV. -/
def openTp : TimePort := { TimePort.init with rxSeq := 0, open1 := some (0, 0, 0) }

/-- Some state and operands meet the hypotheses of each clause. -/
theorem wit_FabricTimeActs :
    (∃ (s : State) (p : Nat) (x : TimePort), timePort p s.dev = true ∧ pers (p / 8) s.dev = 2 ∧ timePortOf p s.dev = x ∧ ∃ (f : TimeFlit), f =
      { tseq := x.txSeq, rxSeq := x.rxSeq % 256, flags := timeFlags p x s.dev, depth := rd Reg.TIM_DEPTH 0 s.dev, txPrev := x.txTime.getD 0, rxTime := x.rxTime, gmId := rd2 Reg.TIM_GM_ID_LO Reg.TIM_GM_ID_HI 0 0 s.dev, gmPrio := rd Reg.TIM_GM_PRIO 0 s.dev, gmRound := rd Reg.TIM_GM_ROUND 0 s.dev, taiUtc := rd Reg.TIM_TAI_UTC 0 s.dev }) ∧
    (∃ (s : State) (p : Nat) (x : TimePort), timePort p s.dev = true ∧ pers (p / 8) s.dev = 2 ∧ timePortOf p s.dev = x ∧ ∃ bs fields body f d1,
      timeFlitOf body = f ∧ d1 = (s.dev |> bump Reg.TIM_TIME_RX 0 |> putTimePort p
      { x with open1 := x.txTime.bind (fun t1 => if bitOf f.flags 4 = true ∧ f.rxSeq = (x.txSeq + 255) % 256 then some (t1, f.rxTime, s.dev.th.fabric) else none), rxSeq := f.tseq % 256, rxTime := s.dev.th.fabric }
      |> takeRecord p f |> timeElect) ∧ decodeFlit (flitLevel p s.dev) bs = some (.link 6 fields body) ∧ x.open1 = none) ∧
    (∃ (s : State) (p : Nat) (x : TimePort), timePort p s.dev = true ∧ pers (p / 8) s.dev = 2 ∧ timePortOf p s.dev = x ∧ ∃ bs fields body f d1,
      timeFlitOf body = f ∧ d1 = (s.dev |> bump Reg.TIM_TIME_RX 0 |> putTimePort p
      { x with open1 := x.txTime.bind (fun t1 => if bitOf f.flags 4 = true ∧ f.rxSeq = (x.txSeq + 255) % 256 then some (t1, f.rxTime, s.dev.th.fabric) else none), rxSeq := f.tseq % 256, rxTime := s.dev.th.fabric }
      |> takeRecord p f |> timeElect) ∧ decodeFlit (flitLevel p s.dev) bs = some (.link 6 fields body) ∧ ∃ t1 t2 u4 dl o, x.open1 = some (t1, t2,
      u4) ∧ f.tseq = (x.rxSeq + 1) % 256 ∧ bitOf f.flags 5 = true ∧ exchange t1 t2 f.txPrev u4 (toSigned 16 (rdI Reg.TIM_ASYM 0 p s.dev) * 4096) =
      (dl, o)) ∧
    (∃ (s : State) (p : Nat) (x : TimePort), timePort p s.dev = true ∧ pers (p / 8) s.dev = 2 ∧ timePortOf p s.dev = x ∧ ∃ bs, decodeFlit
      (flitLevel p s.dev) bs = none) ∧
    (∃ (s : State), rd Reg.TIM_STATE 0 s.dev = 4 ∧ rd Reg.TIM_PPS_IN_EN 0 s.dev = 1) ∧
    (∃ (s : State), rd Reg.TIM_STATE 0 s.dev = 4 ∧ served 0x02 0 0x134 s.dev ∧ rd Reg.TIM_SET_AT_PPS 0 s.dev = 1) ∧
    (∃ (s : State), rd Reg.TIM_STATE 0 s.dev = 4 ∧ served 0x02 0 0x134 s.dev ∧ rd Reg.TIM_SET_AT_PPS 0 s.dev = 0) ∧
    (∃ (s : State) (p : Nat) (r : GmRec), gmRecOf p s.dev = some r) ∧
    (∃ (s : State), rd Reg.TIM_STATE 0 s.dev = 3) ∧
    (∃ (s : State) (d1 : Dev), d1 = (s.dev |> wr Reg.TIM_PPS_IN_ERR 0 (ofSigned 32 (ppsOffset s.dev)) |> updTh (fun t =>
      { t with ppsSeen := true }) |> timeElect) ∧ rd Reg.TIM_PPS_IN_EN 0 s.dev = 1) ∧
    (∃ (s : State), rd Reg.TIM_PPS_OUT_EN 0 s.dev = 1 ∧ timeValid s.dev = true) ∧
    (∃ (s : State) (old new : Nat), served 0x02 0 0x160 s.dev ∧ rd Reg.TIM_PHASE 0 s.dev = old ∧ rd Reg.TIM_PHASE_LOAD 0 s.dev = new) :=
  ⟨⟨at_ timed, 143, TimePort.init, by decide +kernel, by decide +kernel, by decide +kernel, _, rfl⟩,
   ⟨at_ timed, 143, TimePort.init, by decide +kernel, by decide +kernel, by decide +kernel, linkFlit 2 6 0 [], 0, List.replicate 58 0, _, _, rfl,
     rfl, by decide +kernel⟩,
   ⟨at_ (putTimePort 143 openTp timed), 143, openTp, by decide +kernel, by decide +kernel, by decide +kernel, linkFlit 2 6 0 [1, 0, 32], 0, [1, 0,
     32] ++ List.replicate 55 0, _, _, rfl, rfl, by decide +kernel, 0, 0, 0, 0, 0, by decide +kernel⟩,
   ⟨at_ timed, 143, TimePort.init, by decide +kernel, by decide +kernel, by decide +kernel, [], by decide +kernel⟩,
   ⟨at_ (up |> wr Reg.TIM_STATE 0 4 |> wr Reg.TIM_PPS_IN_EN 0 1), by decide +kernel⟩,
   ⟨at_ (up |> wr Reg.TIM_STATE 0 4 |> wr Reg.TIM_SET_AT_PPS 0 1), by decide +kernel⟩,
   ⟨at_ (up |> wr Reg.TIM_STATE 0 4 |> wr Reg.TIM_SET_AT_PPS 0 0), by decide +kernel⟩,
   ⟨at_ (putGmRec 143 (some ⟨9, 1, 0, 0, 0, true, 0⟩) up), 143, ⟨9, 1, 0, 0, 0, true, 0⟩, by decide +kernel⟩,
   ⟨at_ (wr Reg.TIM_STATE 0 3 up), by decide +kernel⟩,
   ⟨at_ (wr Reg.TIM_PPS_IN_EN 0 1 up), _, rfl, by decide +kernel⟩,
   ⟨at_ (up |> wr Reg.TIM_PPS_OUT_EN 0 1 |> wr Reg.TIM_VALID 0 1), by decide +kernel⟩,
   ⟨at_ (up |> wr Reg.TIM_PHASE 0 5 |> wr Reg.TIM_PHASE_LOAD 0 9), 5, 9, by decide +kernel⟩⟩

/-- Some state and operands meet the hypotheses of each clause. -/
theorem wit_HorizonsAct :
    (∃ (s : State) (i : Nat) (e : HznEntry), served 0x03 0 0x104 s.dev ∧ rd Reg.HZN_HZ_IDX 0 s.dev = i ∧ hznOf i s.dev = e ∧ e.armed = false) ∧
    (∃ (s : State) (i : Nat) (e : HznEntry), served 0x03 0 0x104 s.dev ∧ rd Reg.HZN_HZ_IDX 0 s.dev = i ∧ hznOf i s.dev = e ∧ hznOk e s.dev = true
      ∧ (e.axis = 0 → fabricNs s.dev ≤ e.moment) ∧ (e.axis ≠ 0 → phasePassed e.moment s.dev = false)) ∧
    (∃ (s : State) (d1 : Dev), d1 = (if timeValid s.dev then forEach (hznSelect 0 (fun m => decide (m ≤ fabricNs s.dev)) s.dev) (hznFire false)
      s.dev else s.dev)) :=
  ⟨⟨at_ (wr Reg.HZN_HZ_IDX 0 255 (putHzn 255 hzn1 up)), 255, hzn1, by decide +kernel⟩,
   ⟨at_ (wr Reg.HZN_HZ_IDX 0 255 (putHzn 255 hzn1 up)), 255, hzn1, by decide +kernel⟩,
   ⟨at_ up, _, rfl⟩⟩

/-- Some state and operands meet the hypotheses of each clause. -/
theorem wit_FaultsAndLogAct :
    (∃ (s : State) (seg : Nat), domOn (24 + seg) s.dev = true) ∧
    (∃ (s : State) (o m : Nat), o < memSize ∧ m = (o / 256) % 2 ∧ domOn (56 + m) s.dev = true) ∧
    (∃ (s : State) (clock : Bool) (kind : Nat), s.dev.fd.rails = true ∧ s.dev.boot.fault = 0 ∧ kind = (if clock then 1 else 2)) ∧
    (∃ (s : State), s.dev.boot.bankUp = true ∧ s.dev.mg.mpHalted = false ∧ s.dev.mg.mpRestarts = []) ∧
    (∃ (s : State), served 0x05 0 0x108 s.dev) ∧
    (∃ (s : State) (e : LogEntry), served 0x05 0 0x114 s.dev ∧ s.dev.log.entries.find? (fun e => e.seq == rd Reg.LOG_RD_SEQ 0 s.dev) = some e) :=
  ⟨⟨at_ up, 15, by decide +kernel⟩,
   ⟨at_ up, 51539607551, 1, by decide +kernel⟩,
   ⟨at_ railed, true, 1, by decide +kernel⟩,
   ⟨at_ ({ up with boot := { up.boot with bankUp := true } }), by decide +kernel⟩,
   ⟨at_ up, by decide +kernel⟩,
   ⟨at_ ({ up with log := { up.log with entries := [logged] } }), logged, by decide +kernel⟩⟩

/-- Some state and operands meet the hypotheses of each clause. -/
theorem wit_ResetsRun :
    (∃ (s : State) (feed kind : Nat) (x : Dev), x = feedCharges feed s.dev ∧ feed < 2 ∧ s.dev.fd.rails = false ∧ noPath x = false ∧ kind = (if
      s.dev.fd.aon then 1 else 0)) ∧
    (∃ (s : State) (d1 : Dev), d1 = (s.dev |> wr Reg.DEV_WIPE_BUSY 0 0 |> wrFit Reg.DEV_WIPE_TIME 0 ((s.dev.th.localNs - s.dev.boot.wipeStart) /
      1000)) ∧ rd Reg.DEV_WIPE_BUSY 0 s.dev = 1 ∧ s.dev.boot.running = 1 ∧ lcState s.dev ≠ 0 ∧ lcState s.dev ≠ 4 ∧ s.dev.boot.bankUp = true) ∧
    (∃ (s : State) (v : Word), served 0x00 0 0x10C s.dev ∧ bitsOf v.toNat 0 8 = 0xD7 ∧ s.dev.boot.running = 0 ∧ s.dev.boot.fault = 0) ∧
    (∃ (s : State), s.dev.boot.deferred = true ∧ cooled s.dev = true ∧ s.dev.boot.running = 0) ∧
    (∃ (s : State) (h : Nat), h < 16 ∧ bitOf (hostLvl 0 s.dev) h = false) ∧
    (∃ (s : State) (i : Nat), i < 18 ∧ rd Reg.ISL_RST_BUSY i s.dev = 0 ∧ served 0x09 i 0x10C s.dev) ∧
    (∃ (s : State) (i : Nat), i < 18 ∧ rd Reg.ISL_RST_BUSY i s.dev = 0 ∧ ∃ (test : Bool), served 0x09 i 0x100 s.dev ∧ rd Reg.ISL_TEST i s.dev ≠
      bnat test) ∧
    (∃ (s : State) (i : Nat), rd Reg.ISL_RST_BUSY i s.dev = 1) :=
  ⟨⟨at_ ({ up with fd := Feeds.init }), 1, 0, _, rfl, by decide +kernel⟩,
   ⟨at_ ({ up with boot := { up.boot with running := 1, bankUp := true }, otp := { up.otp with lcRec := [1] } } |> wr Reg.DEV_WIPE_BUSY 0 1), _,
     rfl, by decide +kernel⟩,
   ⟨at_ up, 0xD7#32, by decide +kernel⟩,
   ⟨at_ ({ up with boot := { up.boot with deferred := true } }), by decide +kernel⟩,
   ⟨at_ up, 15, by decide +kernel⟩,
   ⟨at_ up, 17, by decide +kernel⟩,
   ⟨at_ up, 17, by decide +kernel, by decide +kernel, true, by decide +kernel⟩,
   ⟨at_ (wr Reg.ISL_RST_BUSY 17 1 up), 17, by decide +kernel⟩⟩

/-- Port 143, one lane wide, of an SFL island, and lane 160 that carries it. -/
def port143 : Dev := sfl 143 up |> wr Reg.ISL_PORT_CFG_HI 17 (0x12 * 2 ^ 24) |> wr Reg.LNK_LSTATE 143 0

def laneAt (st : Nat) : Dev := wr Reg.LANE_BSTATE 160 st port143

/-- Data flits on port 143: the next, an old one, one ahead of sequence. -/
def flit0 : List Byte := dataFlit 2 0 true true false 0 [5]
def flit1 : List Byte := dataFlit 2 0 true true false 8192 [5]
def flit2 : List Byte := dataFlit 2 15 true false true 8191 [7]

/-- Some state and operands meet the hypotheses of each clause. -/
theorem wit_LanesComeUp :
    (∃ (s : State) (n p : Nat), bringupPort n s.dev = some p ∧ rd Reg.LANE_BSTATE n s.dev = 1) ∧
    (∃ (s : State) (n p : Nat), bringupPort n s.dev = some p ∧ rd Reg.LANE_BSTATE n s.dev = 2) ∧
    (∃ (s : State) (n p : Nat), bringupPort n s.dev = some p ∧ rd Reg.LANE_LOCKED n s.dev = 1) ∧
    (∃ (s : State) (n p : Nat), bringupPort n s.dev = some p ∧ ∃ raw m inv d1, d1 = (s.dev |> updLane n (fun l => { l with marker := some m }) |>
      wr Reg.LANE_POL_INV n (bnat inv)) ∧ decodeMarker raw = some (m, inv) ∧ rd Reg.LANE_BSTATE n s.dev = 3) ∧
    (∃ (s : State) (p : Nat) (res : List (Nat × Nat)) (pfail : List Nat) (d1 : Dev), d1 = (s.dev |> forEach (List.range (portWidth p s.dev)) (fun
      k d => if rd Reg.LANE_SUBSTITUTED (portLane p k) d = 1 ∨ (laneOf (portLane p k) d).failed then d else qualLane p (portLane p k) (res.getD k
      (0, 0)).1 (res.getD k (0, 0)).2 (pfail.contains k) d)) ∧ (portOf p s.dev).step = 4 ∧ ∃ k, (List.range (portWidth p s.dev)).find? (fun k =>
      rd Reg.LANE_SUBSTITUTED (portLane p k) s.dev == 1) = some k) ∧
    (∃ (s : State) (p : Nat) (res : List (Nat × Nat)) (pfail : List Nat) (d1 : Dev), d1 = (s.dev |> forEach (List.range (portWidth p s.dev)) (fun
      k d => if rd Reg.LANE_SUBSTITUTED (portLane p k) d = 1 ∨ (laneOf (portLane p k) d).failed then d else qualLane p (portLane p k) (res.getD k
      (0, 0)).1 (res.getD k (0, 0)).2 (pfail.contains k) d)) ∧ (portOf p s.dev).step = 4 ∧ (∀ k < portWidth p s.dev, rd Reg.LANE_SUBSTITUTED
      (portLane p k) s.dev ≠ 1)) ∧
    (∃ (s : State) (p : Nat), (portOf p s.dev).step = 2) ∧
    (∃ (s : State) (p : Nat), (portOf p s.dev).retry = 2) :=
  ⟨⟨at_ (laneAt 1), 160, 143, by decide +kernel⟩,
   ⟨at_ (laneAt 2), 160, 143, by decide +kernel⟩,
   ⟨at_ (wr Reg.LANE_LOCKED 160 1 port143), 160, 143, by decide +kernel⟩,
   ⟨at_ (laneAt 3), 160, 143, by decide +kernel, 5412781359972220739, ⟨15, 0, 0, true, false, 0, 0⟩, true, _, rfl, by decide +kernel⟩,
   ⟨at_ (wr Reg.LANE_SUBSTITUTED 160 1 (updPort 143 (fun q => { q with step := 4 }) port143)), 143, [], [], _, rfl, by decide +kernel, 0,
     by decide +kernel⟩,
   ⟨at_ (updPort 143 (fun q => { q with step := 4 }) port143), 143, [], [], _, rfl, by decide +kernel⟩,
   ⟨at_ (updPort 143 (fun q => { q with step := 2 }) port143), 143, by decide +kernel⟩,
   ⟨at_ (updPort 143 (fun q => { q with retry := 2 }) port143), 143, by decide +kernel⟩⟩

/-- Some state and operands meet the hypotheses of each clause. -/
theorem wit_LanesAreTrimmedAndTested :
    (∃ (s : State) (n errs cw : Nat) (d1 : Dev), d1 = (s.dev |> addI Reg.LANE_FEC_SYM_ERR n 0 errs |> countCorr n cw)) ∧
    (∃ (s : State) (n errs bits e b : Nat), rd Reg.LANE_CHK_EN n s.dev = 1 ∧ e = min (rd2 Reg.LANE_PRBS_ERR_LO Reg.LANE_PRBS_ERR_HI n 0 s.dev +
      errs) (2 ^ 48 - 1) ∧ b = min (rd2 Reg.LANE_PRBS_BITS_LO Reg.LANE_PRBS_BITS_HI n 0 s.dev + bits) (2 ^ 48 - 1)) ∧
    (∃ (s : State) (n : Nat), served 8 n 0x144 s.dev) ∧
    (∃ (s : State) (n : Nat), served 8 n 0x160 s.dev ∧ rd Reg.LANE_BSTATE n s.dev = 7 ∧ rd Reg.LANE_EYE_BUSY n s.dev = 1) ∧
    (∃ (s : State) (n np : Nat) (errs : List Nat) (d1 : Dev), d1 = updLane n (fun l =>
      { l with eye := (List.range errs.length).map (fun i => (i / np * 2 ^ rd Reg.LANE_V_STEP n s.dev * 64 + i % np * 2 ^ rd Reg.LANE_PH_STEP n s.dev, some (min (errs.getD i 0) (2 ^ 31 - 1)))) })
      s.dev ∧ rd Reg.LANE_EYE_BUSY n s.dev = 1 ∧ gridSide (rd Reg.LANE_PH_STEP n s.dev) = np ∧ errs.length = np * gridSide (rd Reg.LANE_V_STEP n
      s.dev)) ∧
    (∃ (s : State) (n : Nat), served 8 n 0x170 s.dev ∧ pers (n / 9) s.dev = 2 ∧ heldPos (n / 9) s.dev = none ∧ rd Reg.LANE_SPARE_VALID (spareLane
      (n / 9)) s.dev = 0 ∧ n % 9 < 8 ∧ (trigWord 8 n 0x170 0 s.dev).getLsbD 1 = false) :=
  ⟨⟨at_ up, 161, 3, 2, _, rfl⟩,
   ⟨at_ (wr Reg.LANE_CHK_EN 161 1 up), 161, 2 ^ 48, 1, 2 ^ 48 - 1, 1, by decide +kernel⟩,
   ⟨at_ up, 161, by decide +kernel⟩,
   ⟨at_ (up |> wr Reg.LANE_BSTATE 161 7 |> wr Reg.LANE_EYE_BUSY 161 1), 161, by decide +kernel⟩,
   ⟨at_ (up |> wr Reg.LANE_EYE_BUSY 161 1 |> wr Reg.LANE_PH_STEP 161 3 |> wr Reg.LANE_V_STEP 161 3), 161, 8, List.replicate 64 0, _, rfl,
     by decide +kernel⟩,
   ⟨at_ port143, 160, by decide +kernel⟩⟩

/-- Some state and operands meet the hypotheses of each clause. -/
theorem wit_LinkFlitsTaken :
    (∃ (s : State) (p : Nat), portUp p s.dev = true ∧ ∃ b0 b1 b2 b3 body check vl head tail poison seq bytes, decodeFlit (flitLevel p s.dev) (b0
      :: b1 :: b2 :: b3 :: (body ++ check)) = some (.data vl head tail poison seq bytes) ∧ seq = rd Reg.LNK_RX_SEQ p s.dev) ∧
    (∃ (s : State) (p : Nat), portUp p s.dev = true ∧ ∃ b0 b1 b2 b3 body check vl head tail poison seq bytes, decodeFlit (flitLevel p s.dev) (b0
      :: b1 :: b2 :: b3 :: (body ++ check)) = some (.data vl head tail poison seq bytes) ∧ seq ≠ rd Reg.LNK_RX_SEQ p s.dev ∧ (rd Reg.LNK_RX_SEQ p
      s.dev + 16384 - seq) % 16384 ≤ 8192) ∧
    (∃ (s : State) (p : Nat), portUp p s.dev = true ∧ ∃ b0 b1 b2 b3 body check vl head tail poison seq bytes, decodeFlit (flitLevel p s.dev) (b0
      :: b1 :: b2 :: b3 :: (body ++ check)) = some (.data vl head tail poison seq bytes) ∧ 8192 < (rd Reg.LNK_RX_SEQ p s.dev + 16384 - seq) %
      16384) ∧
    (∃ (s : State) (p : Nat), portUp p s.dev = true ∧ ∃ b0 b1 b2 b3 body check, decodeFlit (flitLevel p s.dev) (b0 :: b1 :: b2 :: b3 :: (body ++
      check)) = none) ∧
    (∃ (s : State) (p : Nat), portUp p s.dev = true ∧ ∃ cnts errors blocks, pers (p / 8) s.dev = 2 ∧ countsDisagree cnts = false ∧ rsFails errors
      blocks = true) ∧
    (∃ (s : State) (p : Nat), portUp p s.dev = true ∧ ∃ cnts, pers (p / 8) s.dev = 2 ∧ countsDisagree cnts = true) ∧
    (∃ (s : State) (p : Nat), portUp p s.dev = true ∧ ∃ h b c f body, decodeFlit (flitLevel p s.dev) (h ++ b ++ c) = some (.link 1 f body)) ∧
    (∃ (s : State) (p : Nat), portUp p s.dev = true ∧ ∃ h c f body, decodeFlit (flitLevel p s.dev) (h ++ c) = some (.link 2 f body)) ∧
    (∃ (s : State) (p : Nat), portUp p s.dev = true ∧ ∃ bs f body, decodeFlit (flitLevel p s.dev) bs = some (.link 4 f body)) ∧
    (∃ (s : State) (p : Nat), portUp p s.dev = true ∧ ∃ bs ty f body, decodeFlit (flitLevel p s.dev) bs = some (.link ty f body) ∧ 7 ≤ ty) ∧
    (∃ (s : State) (p f : Nat) (h c sn r body : List Byte), rd Reg.LNK_LSTATE p s.dev = 2 ∧ decodeFlit (flitLevel p s.dev) (h ++ c ++ sn ++ r) =
      some (.link 3 f body) ∧ bitsOf f 24 3 = (if sflRate p s.dev = 1 then 1 else 2)) :=
  ⟨⟨at_ (sfl 143 up), 143, by decide +kernel, (flit0).getD 0 0, (flit0).getD 1 0, (flit0).getD 2 0, (flit0).getD 3 0, (flit0).drop 4, [], 0, true,
    true, false, 0, [5], by decide +kernel⟩,
   ⟨at_ (sfl 143 up), 143, by decide +kernel, (flit1).getD 0 0, (flit1).getD 1 0, (flit1).getD 2 0, (flit1).getD 3 0, (flit1).drop 4, [], 0, true,
     true, false, 8192, [5], by decide +kernel⟩,
   ⟨at_ (sfl 143 up), 143, by decide +kernel, (flit2).getD 0 0, (flit2).getD 1 0, (flit2).getD 2 0, (flit2).getD 3 0, (flit2).drop 4, [], 15,
     true, false, true, 8191, [7], by decide +kernel⟩,
   ⟨at_ (sfl 143 up), 143, by decide +kernel, 0, 0, 0, 0, [], [], by decide +kernel⟩,
   ⟨at_ (sfl 143 up), 143, by decide +kernel, [], 16, [], by decide +kernel⟩,
   ⟨at_ (sfl 143 up), 143, by decide +kernel, [0, 1], by decide +kernel⟩,
   ⟨at_ (sfl 143 up), 143, by decide +kernel, linkFlit 2 1 0 [], [], [], 0, List.replicate 58 0, by decide +kernel⟩,
   ⟨at_ (sfl 143 up), 143, by decide +kernel, linkFlit 2 2 0 [], [], 0, List.replicate 58 0, by decide +kernel⟩,
   ⟨at_ (sfl 143 up), 143, by decide +kernel, linkFlit 2 4 0 [], 0, List.replicate 58 0, by decide +kernel⟩,
   ⟨at_ (sfl 143 up), 143, by decide +kernel, linkFlit 2 15 0 [], 15, 0, List.replicate 58 0, by decide +kernel⟩,
   ⟨at_ (wr Reg.LNK_LSTATE 143 2 port143), 143, 2 ^ 25, linkFlit 2 3 (2 ^ 25) [], [], [], [], List.replicate 58 0, by decide +kernel⟩⟩

/-- Some state and operands meet the hypotheses of each clause. -/
theorem wit_LinkTimersAct :
    (∃ (s : State) (p : Nat), portUp p s.dev = true ∧ ∃ e, (portOf p s.dev).nak = some e) ∧
    (∃ (s : State) (p : Nat), portUp p s.dev = true ∧ 0 < outstanding p s.dev) ∧
    (∃ (s : State) (p : Nat), portUp p s.dev = true ∧ ∃ n, portOfLane n s.dev = some p ∧ (laneOf n s.dev).lost = true) ∧
    (∃ (s : State) (p : Nat), portUp p s.dev = true ∧ (∀ n ∈ portLanes p s.dev, (laneOf (carrier n s.dev) s.dev).lost = false)) ∧
    (∃ (s : State) (p : Nat), portUp p s.dev = true) ∧
    (∃ (s : State) (p : Nat), rd Reg.LNK_LSTATE p s.dev = 2) ∧
    (∃ (s : State) (p : Nat) (d1 : Dev), d1 = updPort p (fun q => { q with idle := false }) s.dev ∧ (portOf p s.dev).idle = true) :=
  ⟨⟨at_ (updPort 143 (fun q => { q with nak := some 16384 }) (sfl 143 up)), 143, by decide +kernel, 16384, by decide +kernel⟩,
   ⟨at_ (updPort 143 (fun q => { q with copies := [⟨0, 0, 0, true, true, false, []⟩] }) (sfl 143 up)), 143, by decide +kernel⟩,
   ⟨at_ (wr Reg.LNK_LSTATE 143 3 (updLane 160 (fun l => { l with lost := true }) port143)), 143, by decide +kernel, 160, by decide +kernel⟩,
   ⟨at_ (wr Reg.LNK_LSTATE 143 3 port143), 143, by decide +kernel⟩,
   ⟨at_ (sfl 143 up), 143, by decide +kernel⟩,
   ⟨at_ (wr Reg.LNK_LSTATE 143 2 up), 143, by decide +kernel⟩,
   ⟨at_ (updPort 143 (fun q => { q with idle := true }) up), 143, _, rfl, by decide +kernel⟩⟩

/-- Some state and operands meet the hypotheses of each clause. -/
theorem wit_LinkCommandsAndWeather :
    (∃ (s : State) (p : Nat), served 0x0A p 0x104 s.dev ∧ pers (p / 8) s.dev = 2 ∧ rd Reg.LNK_LSTATE p s.dev = 3) ∧
    (∃ (s : State) (p : Nat), served 0x0A p 0x104 s.dev ∧ pers (p / 8) s.dev = 2 ∧ portUp p s.dev = false) ∧
    (∃ (s : State) (p : Nat), served 0x0A p 0x104 s.dev ∧ pers (p / 8) s.dev = 2 ∧ rd Reg.LNK_EN p s.dev = 0 ∧ harbourFits (wr Reg.LNK_EN p 1
      s.dev) = true) ∧
    (∃ (s : State) (p : Nat), served 0x0A p 0x104 s.dev ∧ pers (p / 8) s.dev = 2 ∧ rd Reg.LNK_EN p s.dev = 1) ∧
    (∃ (s : State) (p : Nat), portStarts p s.dev = true ∧ pers (p / 8) s.dev = 2 ∧ rd Reg.LNK_WAKE_DET p s.dev = 1 ∧ portUp p s.dev = false) ∧
    (∃ (s : State) (p : Nat), portUp p s.dev = true ∧ ∃ room lid low wx, room = (max (sharedFree s.dev) 0).toNat ∧ lid = rd Reg.RTE_MY_LID (p / 8)
      s.dev ∧ low = bnat (decide (room < rd Reg.HBR_SHARED_LOW 0 s.dev)) ∧ wx = (List.range 16).map (fun g => weatherWord g s.dev) ∧ pers (p / 8)
      s.dev = 2) ∧
    (∃ (s : State) (p : Nat), portUp p s.dev = true ∧ ∃ bs f body, decodeFlit (flitLevel p s.dev) bs = some (.link 5 f body)) ∧
    (∃ (s : State) (p : Nat), portUp p s.dev = true ∧ (portOf p s.dev).wxStale = false) :=
  ⟨⟨at_ (wr Reg.LNK_LSTATE 143 3 port143), 143, by decide +kernel⟩,
   ⟨at_ port143, 143, by decide +kernel⟩,
   ⟨at_ (port143 |> wr Reg.LNK_EN 143 0), 143, by decide +kernel⟩,
   ⟨at_ (wr Reg.LNK_EN 143 1 port143), 143, by decide +kernel⟩,
   ⟨at_ (wr Reg.LNK_WAKE_DET 143 1 port143), 143, by decide +kernel⟩,
   ⟨at_ (sfl 143 up), 143, by decide +kernel, _, _, _, _, rfl, rfl, rfl, rfl, by decide +kernel⟩,
   ⟨at_ (sfl 143 up), 143, by decide +kernel, linkFlit 2 5 0 [], 0, List.replicate 58 0, by decide +kernel⟩,
   ⟨at_ (sfl 143 up), 143, by decide +kernel⟩⟩

/-- Descriptors from island 19 to island 0. -/
def dsc (q : Nat) : Desc :=
  { pkt := 1, cell := 0, level := 0, seg := 0, num := 0, egIsl := 0, egPort := 0, queue := 0, vlane := 0, head := true, tail := true
    ct := false, poison := false, colour := 0, len := 64, sseq := some q, mirror := 0, inIsl := 19 }

def flying (q : Nat) : Dev := updNet (fun n => { n with flights := [⟨5, dsc q⟩] }) up

/-- A whole packet of 64 bytes in queue 18 of port `p`. -/
def pkt18 (p : Nat) : Packet :=
  { Packet.fresh 1 0 0 0 64 0 ⟨0, false⟩ with eg := p, queue := 18, bytes := List.replicate 64 0, tail := true, queued := 1 }

def queued (p : Nat) (d : Dev) : Dev := updNet (fun n => { n with pkts := [pkt18 p], queues := [(32 * p + 18, [1])] }) d

def sflQ : Dev := queued 143 (sfl 143 up) |> wr Reg.LNK_REPLAY_CAP 143 1 |> updPort 143 (fun q => { q with credit := [(0, 5)] })

def ethQ : Dev := queued 0 eth

def expQ : Dev := queued 0 (expUp 0 0) |> wr Reg.ISL_PERS 0 1 |> updPort 0 (fun q => { q with fcHdr := [(0, 1)] })

def gated (pend : Nat) : Dev :=
  port143 |> wr Reg.SCH_GATE_EN 143 1 |> wr Reg.SCH_SWITCH_PEND 143 pend |> wr Reg.TIM_VALID 0 1 |> wr Reg.SCH_COUNT_B 143 1 |> wrI Reg.SCH_DURATION_B 143 0 1000

def copy7 (n : Nat) : MirCopy := ⟨7, List.replicate n 1, n, false, false, 0, ⟨0, false⟩, 0, 65536, false, 1⟩

/-- Mirror session 7 with a copy of `n` bytes to record, its ring at `prod` and `cons`. -/
def ring7 (n prod cons : Nat) : Dev :=
  updNet (fun x => { x with copies := [copy7 n], records := [(7, 65535)] }) up |> wrI Reg.MIR_RING_SIZE 0 7 7 |> wrI Reg.MIR_PROD 0 7 prod
    |> wrI Reg.MIR_CONS 0 7 cons

/-- A packet with a network header on VC1. -/
def headed : Packet := { pkt18 143 with hdr := 2 ^ 68, vlane := 2 }

/-- Some state and operands meet the hypotheses of each clause. -/
theorem wit_StraitsAndHarbourAct :
    (∃ (s : State) (k : Nat), k < 6 ∧ straitUp k s.dev = true) ∧
    (∃ (s : State) (k i e q : Nat) (f : Flight), flightOf k i e q s.dev = some f ∧ q = sseqNext i e s.dev ∧ q < 4096) ∧
    (∃ (s : State) (k i e q : Nat) (f : Flight), flightOf k i e q s.dev = some f ∧ 0 < (q + 4096 - sseqNext i e s.dev) % 4096 ∧ (q + 4096 -
      sseqNext i e s.dev) % 4096 < 2048 ∧ heldBehind i e s.dev < 32 ∧ ∃ d1, d1 = updNet (fun n => { n with behind := n.behind ++ [f.desc] })
      (s.dev |> ackDesc k i e q |> bump Reg.STR_DESC_MOVED k)) ∧
    (∃ (s : State) (i e n : Nat), heldAhead i e s.dev = some n) ∧
    (∃ (s : State) (k : Nat), k < 6 ∧ rd Reg.STR_STATE k s.dev < 2 ∧ domState (18 + k) s.dev ≠ 2) ∧
    (∃ (s : State) (k : Nat), served 0x0C k 0x100 s.dev ∧ rd Reg.STR_EN k s.dev = 1 ∧ straitUp k s.dev = true ∧ straitsUp s.dev ≠ 1) ∧
    (∃ (s : State) (k : Nat), served 0x0C k 0x100 s.dev ∧ rd Reg.STR_EN k s.dev = 0) ∧
    (∃ (s : State) (k : Nat), rd Reg.STR_STATE k s.dev = 1 ∧ (s.dev.net.flights.all fun f => f.strait != k) = true) ∧
    (∃ (s : State) (k : Nat), bitOf s.dev.net.selfTest k = true ∧ rd Reg.STR_STATE k s.dev ≠ 1) ∧
    (∃ (s : State) (id : Nat) (q : Packet), pktOf id s.dev = some q) ∧
    (∃ (s : State) (g : Nat), rd Reg.HBR_SEG_STATE g s.dev = 1 ∧ segHeld g s.dev = 0) ∧
    (∃ (s : State) (k n prod pad need : Nat) (c : MirCopy) (rec_ : List Byte) (d d0 d1 : Dev), rec_ = mirrorRecord c n ∧ d = memDone (2, k,
      c.time.ns) s.dev ∧ d0 = releaseKept c.src (updNet (fun x => { x with copies := x.copies.erase c }) d) ∧ d1 = (if c.wrap then makeRoom k
      c.base c.size need 67108864 d0 else d0) ∧ s.dev.net.copies.find? (fun c => c.session == k) = some c ∧ smGet (fun _ => 0) s.dev.net.records k
      = n ∧ n < 65536 ∧ rdI Reg.MIR_PROD 0 k (memDone (2, k, c.time.ns) s.dev) = prod ∧ pad = (if c.size < prod + rec_.length then c.size - prod
      else 0) ∧ need = pad + rec_.length ∧ ringUsed k c.size d1 + need < c.size ∧ ∃ d2, d2 = updNet (fun x =>
      { x with records := smPut x.records k ((n + 1) % 65536) }) d1 ∧ pad = 0) ∧
    (∃ (s : State) (k n prod pad need : Nat) (c : MirCopy) (rec_ : List Byte) (d d0 d1 : Dev), rec_ = mirrorRecord c n ∧ d = memDone (2, k,
      c.time.ns) s.dev ∧ d0 = releaseKept c.src (updNet (fun x => { x with copies := x.copies.erase c }) d) ∧ d1 = (if c.wrap then makeRoom k
      c.base c.size need 67108864 d0 else d0) ∧ s.dev.net.copies.find? (fun c => c.session == k) = some c ∧ smGet (fun _ => 0) s.dev.net.records k
      = n ∧ n < 65536 ∧ rdI Reg.MIR_PROD 0 k (memDone (2, k, c.time.ns) s.dev) = prod ∧ pad = (if c.size < prod + rec_.length then c.size - prod
      else 0) ∧ need = pad + rec_.length ∧ ringUsed k c.size d1 + need < c.size ∧ ∃ d2, d2 = updNet (fun x =>
      { x with records := smPut x.records k ((n + 1) % 65536) }) d1 ∧ 0 < pad) ∧
    (∃ (s : State) (k n prod pad need : Nat) (c : MirCopy) (rec_ : List Byte) (d d0 d1 : Dev), rec_ = mirrorRecord c n ∧ d = memDone (2, k,
      c.time.ns) s.dev ∧ d0 = releaseKept c.src (updNet (fun x => { x with copies := x.copies.erase c }) d) ∧ d1 = (if c.wrap then makeRoom k
      c.base c.size need 67108864 d0 else d0) ∧ s.dev.net.copies.find? (fun c => c.session == k) = some c ∧ smGet (fun _ => 0) s.dev.net.records k
      = n ∧ n < 65536 ∧ rdI Reg.MIR_PROD 0 k (memDone (2, k, c.time.ns) s.dev) = prod ∧ pad = (if c.size < prod + rec_.length then c.size - prod
      else 0) ∧ need = pad + rec_.length ∧ c.size ≤ ringUsed k c.size d1 + need) :=
  ⟨⟨at_ (wr Reg.STR_EN 5 1 up), 5, by decide +kernel⟩,
   ⟨at_ (updNet (fun n => { n with sseqRx := [(380, 4095)] }) (flying 4095)), 5, 19, 0, 4095, ⟨5, dsc 4095⟩, by decide +kernel⟩,
   ⟨at_ (flying 2047), 5, 19, 0, 2047, ⟨5, dsc 2047⟩, by decide +kernel, by decide +kernel, by decide +kernel, by decide +kernel, _, rfl⟩,
   ⟨at_ (updNet (fun n => { n with behind := [dsc 3] }) up), 19, 0, 3, by decide +kernel⟩,
   ⟨at_ (wr Reg.STR_STATE 5 1 up), 5, by decide +kernel⟩,
   ⟨at_ (wr Reg.STR_EN 5 1 (wr Reg.STR_EN 4 1 up)), 5, by decide +kernel⟩,
   ⟨at_ (wr Reg.STR_EN 5 0 up), 5, by decide +kernel⟩,
   ⟨at_ (wr Reg.STR_STATE 5 1 up), 5, by decide +kernel⟩,
   ⟨at_ (updNet (fun n => { n with selfTest := 32 }) up), 5, by decide +kernel⟩,
   ⟨at_ (queued 143 up), 1, pkt18 143, by decide +kernel⟩,
   ⟨at_ (wr Reg.HBR_SEG_STATE 15 1 up), 15, by decide +kernel⟩,
   ⟨at_ (ring7 2 64 64), 7, 65535, 64, 0, 64, copy7 2, _, _, _, _, rfl, rfl, rfl, rfl, by decide +kernel, by decide +kernel, by decide +kernel,
     by decide +kernel, by decide +kernel, by decide +kernel, by decide +kernel, _, rfl, by decide +kernel⟩,
   ⟨at_ (ring7 100 65472 65472), 7, 65535, 65472, 64, 192, copy7 100, _, _, _, _, rfl, rfl, rfl, rfl, by decide +kernel, by decide +kernel,
     by decide +kernel, by decide +kernel, by decide +kernel, by decide +kernel, by decide +kernel, _, rfl, by decide +kernel⟩,
   ⟨at_ (ring7 2 64 128), 7, 65535, 64, 0, 64, copy7 2, _, _, _, _, rfl, rfl, rfl, rfl, by decide +kernel⟩⟩

/-- Some state and operands meet the hypotheses of each clause. -/
theorem wit_RoutingActs :
    (∃ (s : State) (id : Nat) (q : Packet), pktOf id s.dev = some q ∧ q.begun = false ∧ q.eg < 144 ∧ hget .ESCL q.hdr = 0 ∧ q.bare = false ∧
      (q.vlane / 2 = 1 ∨ q.vlane / 2 = 2 ∨ q.vlane / 2 = 4)) ∧
    (∃ (s : State) (id : Nat) (q : Packet), pktOf id s.dev = some q ∧ q.held.isSome = true) ∧
    (∃ (s : State) (p : Nat), portUp p s.dev = true ∧ (portOf p s.dev).rejoin = true) ∧
    (∃ (s : State) (p : Nat), portUp p s.dev = true ∧ ∃ v, credAvail p v s.dev = 0 ∧ (s.dev.net.pkts.any fun q => q.eg == p && q.vlane == v &&
      decide (0 < q.queued)) = true) ∧
    (∃ (s : State) (i : Nat), served 0x10 i 0x154 s.dev) ∧
    (∃ (s : State) (i sel idx : Nat), served 0x10 i 0x178 s.dev ∧ rd Reg.RTE_TBL_SEL i s.dev = sel ∧ rd Reg.RTE_TBL_IDX i s.dev = idx ∧ idx <
      tblSize sel ∧ (sel = 5 → i < 18) ∧ sel = 3) ∧
    (∃ (s : State) (i sel idx : Nat), served 0x10 i 0x178 s.dev ∧ rd Reg.RTE_TBL_SEL i s.dev = sel ∧ rd Reg.RTE_TBL_IDX i s.dev = idx ∧ idx <
      tblSize sel ∧ (sel = 5 → i < 18) ∧ sel < 3 ∧ rd Reg.RTE_SWAP_PEND i s.dev = 1) ∧
    (∃ (s : State) (i sel idx : Nat), served 0x10 i 0x178 s.dev ∧ rd Reg.RTE_TBL_SEL i s.dev = sel ∧ rd Reg.RTE_TBL_IDX i s.dev = idx ∧ idx <
      tblSize sel ∧ (sel = 5 → i < 18) ∧ sel < 3 ∧ rd Reg.RTE_SWAP_PEND i s.dev ≠ 1) ∧
    (∃ (s : State) (i sel idx : Nat), served 0x10 i 0x178 s.dev ∧ rd Reg.RTE_TBL_SEL i s.dev = sel ∧ rd Reg.RTE_TBL_IDX i s.dev = idx ∧ idx <
      tblSize sel ∧ (sel = 5 → i < 18) ∧ 3 < sel) :=
  ⟨⟨at_ (updNet (fun n => { n with pkts := [headed] }) up), 1, headed, by decide +kernel⟩,
   ⟨at_ (updNet (fun n => { n with pkts := [{ headed with held := some 0 }] }) up), 1, { headed with held := some 0 }, by decide +kernel⟩,
   ⟨at_ (updPort 143 (fun q => { q with rejoin := true }) (sfl 143 up)), 143, by decide +kernel⟩,
   ⟨at_ (queued 143 (sfl 143 up)), 143, by decide +kernel, 0, by decide +kernel⟩,
   ⟨at_ up, 19, by decide +kernel⟩,
   ⟨at_ (wr Reg.RTE_TBL_SEL 19 3 up), 19, 3, 0, by decide +kernel⟩,
   ⟨at_ (up |> wr Reg.RTE_TBL_SEL 19 2 |> wr Reg.RTE_SWAP_PEND 19 1), 19, 2, 0, by decide +kernel⟩,
   ⟨at_ (wr Reg.RTE_TBL_IDX 19 8191 up), 19, 0, 8191, by decide +kernel⟩,
   ⟨at_ (up |> wr Reg.RTE_TBL_SEL 17 5 |> wr Reg.RTE_TBL_IDX 17 4095), 17, 5, 4095, by decide +kernel⟩⟩

/-- Some state and operands meet the hypotheses of each clause. -/
theorem wit_SchedulersAct :
    (∃ (s : State) (p : Nat) (d0 d1 : Dev), d0 = wireDone p s.dev ∧ d1 = updSched p (fun x =>
      { x with tags := eligibleTags p d0, elig := (eligibleOf p d0).foldl (fun m e => setBit m e.1) 0 }) (noteWaits p d0) ∧ chooseQueue p
      (eligibleOf p d0) d1 = none ∧ pers (p / 8) d0 = 2 ∧ portUp p d0 = true) ∧
    (∃ (s : State) (p : Nat) (d0 d1 : Dev), d0 = wireDone p s.dev ∧ d1 = updSched p (fun x =>
      { x with tags := eligibleTags p d0, elig := (eligibleOf p d0).foldl (fun m e => setBit m e.1) 0 }) (noteWaits p d0) ∧ ∃ q k l sq w d2, d2 =
      (d1 |> onlyIf (decide (3 ≤ q)) (fun d => d |> updSched p (fun x =>
      { x with v := sq, tags := smPut x.tags q ((sq + (l * 256 + w - 1) / w) % 2 ^ 48) }) |> wr2 Reg.SCH_VTIME_LO Reg.SCH_VTIME_HI p 0 sq) |>
      chargeShaper p q l |> onlyIf (q != 0) (chargeShaper p 19 l)) ∧ chooseQueue p (eligibleOf p d0) d1 = some (q, k) ∧ l = unitCharge p k d1 ∧ sq
      = smGet (fun _ => 0) (eligibleTags p d0) q ∧ w = max (rdI Reg.SCH_WEIGHT p q d1) 1 ∧ pers (p / 8) d0 = 2) ∧
    (∃ (s : State) (p : Nat) (d0 d1 : Dev), d0 = wireDone p s.dev ∧ d1 = updSched p (fun x =>
      { x with tags := eligibleTags p d0, elig := (eligibleOf p d0).foldl (fun m e => setBit m e.1) 0 }) (noteWaits p d0) ∧ ∃ q k l sq w d2, d2 =
      (d1 |> onlyIf (decide (3 ≤ q)) (fun d => d |> updSched p (fun x =>
      { x with v := sq, tags := smPut x.tags q ((sq + (l * 256 + w - 1) / w) % 2 ^ 48) }) |> wr2 Reg.SCH_VTIME_LO Reg.SCH_VTIME_HI p 0 sq) |>
      chargeShaper p q l |> onlyIf (q != 0) (chargeShaper p 19 l)) ∧ chooseQueue p (eligibleOf p d0) d1 = some (q, k) ∧ l = unitCharge p k d1 ∧ sq
      = smGet (fun _ => 0) (eligibleTags p d0) q ∧ w = max (rdI Reg.SCH_WEIGHT p q d1) 1 ∧ pers (p / 8) d0 = 3) ∧
    (∃ (s : State) (p : Nat) (d0 d1 : Dev), d0 = wireDone p s.dev ∧ d1 = updSched p (fun x =>
      { x with tags := eligibleTags p d0, elig := (eligibleOf p d0).foldl (fun m e => setBit m e.1) 0 }) (noteWaits p d0) ∧ ∃ q k l sq w d2, d2 =
      (d1 |> onlyIf (decide (3 ≤ q)) (fun d => d |> updSched p (fun x =>
      { x with v := sq, tags := smPut x.tags q ((sq + (l * 256 + w - 1) / w) % 2 ^ 48) }) |> wr2 Reg.SCH_VTIME_LO Reg.SCH_VTIME_HI p 0 sq) |>
      chargeShaper p q l |> onlyIf (q != 0) (chargeShaper p 19 l)) ∧ chooseQueue p (eligibleOf p d0) d1 = some (q, k) ∧ l = unitCharge p k d1 ∧ sq
      = smGet (fun _ => 0) (eligibleTags p d0) q ∧ w = max (rdI Reg.SCH_WEIGHT p q d1) 1 ∧ pers (p / 8) d0 = 1) ∧
    (∃ (s : State) (p : Nat), gatesOn p s.dev = true ∧ rd Reg.SCH_SWITCH_PEND p s.dev = 1 ∧ timeValid s.dev = true ∧ (schedOf p s.dev).switchAt ≤
      fabricNs s.dev) ∧
    (∃ (s : State) (p : Nat), gatesOn p s.dev = true ∧ rd Reg.SCH_SWITCH_PEND p s.dev = 0 ∧ served 0x0E p 0x280 s.dev ∧ gateListOk p (1 - rd
      Reg.SCH_ACTIVE_LIST p s.dev) s.dev = true) ∧
    (∃ (s : State) (b m : Nat) (x : Meter) (d1 : Dev), m = 4096 * b + rd Reg.MTR_IDX b s.dev ∧ meterOf m s.dev = x ∧ d1 = (s.dev |> setWord
      (regAddr 0x0F b 0x110) (BitVec.ofNat 32 (x.w0 % 2 ^ 28)) |> wr Reg.MTR_PIR b x.pir |> wr Reg.MTR_CBS b x.cbs |> wr Reg.MTR_PBS b x.pbs |> wr
      Reg.MTR_GREEN_PKTS b x.green |> wr Reg.MTR_YELLOW_PKTS b x.yellow |> wr Reg.MTR_RED_PKTS b x.red |> wr Reg.MTR_DROP_PKTS b x.drop) ∧ served
      0x0F b 0x104 s.dev ∧ mtrOk b s.dev = true) :=
  ⟨⟨at_ (sfl 143 up), 143, _, _, rfl, rfl, by decide +kernel⟩,
   ⟨at_ sflQ, 143, _, _, rfl, rfl, 18, pkt18 143, 64, 0, 1, _, rfl, by decide +kernel⟩,
   ⟨at_ ethQ, 0, _, _, rfl, rfl, 18, pkt18 0, 84, 0, 1, _, rfl, by decide +kernel⟩,
   ⟨at_ expQ, 0, _, _, rfl, rfl, 18, pkt18 0, 72, 0, 1, _, rfl, by decide +kernel⟩,
   ⟨at_ (gated 1), 143, by decide +kernel⟩,
   ⟨at_ (gated 0), 143, by decide +kernel⟩,
   ⟨at_ (up |> wr Reg.MTR_IDX 15 4095 |> wr Reg.MTR_CBS 15 64 |> wr Reg.MTR_PBS 15 64), 15, _, _, _, rfl, rfl, rfl, by decide +kernel⟩⟩

theorem cold_enables : ∀ ty < 32, litOnly ty 8 = true ∧ bitsOf (coldWord (regAddr ty 0 8)).toNat 0 1 = 0 := by decide +kernel

theorem disabled (ty i : Nat) (ht : ty < 32) (h8 : 8 ≤ ty) (hi : i < 256) : hrd Reg.PG_CTRL_ENABLE ty i up = 0 := by
  have a : fldAddr (Reg.PG_CTRL_ENABLE.ofType ty) i 0 = regAddr ty i 8 := rfl
  have b : fldAddr Reg.DEV_STATE 0 0 = 0x150 := rfl
  have n : fldAddr (Reg.PG_CTRL_ENABLE.ofType ty) i 0 ≠ fldAddr Reg.DEV_STATE 0 0 := by
    rw [a, b]; unfold regAddr; omega
  have e : hrd Reg.PG_CTRL_ENABLE ty i up = rdI (Reg.PG_CTRL_ENABLE.ofType ty) i 0 State.reset.dev := rdI_wrI_ne (by decide) n
  have c : ∀ x, wordAt x State.reset.dev = coldWord x := fun _ => rfl
  rw [e, rdI, a, c, cold_inst (by omega) hi (by omega) (cold_enables ty ht).1]
  exact (cold_enables ty ht).2

theorem level_free : blLockOk up = true := by
  unfold blLockOk
  rw [Bool.and_eq_true]
  refine ⟨by decide +kernel, ?_⟩
  simp only [List.all_eq_true, List.mem_filter, List.mem_range, decide_eq_true_eq, beq_iff_eq]
  intro ty ht i hi
  exact disabled ty i ht.1 ht.2 (by have := instCount_le ty; omega)

/-- The routing page of I19 with a staged set: a good one, and one that R254 refuses. -/
def staged (mode : Nat) : Dev := up |> wr Reg.RTE_ORD_TC.shadow 19 1 |> wr Reg.RTE_MODE_TC.shadow 19 mode

/-- A device that speaks I3C, with a dynamic address. -/
def i3c : Dev :=
  { railed with
    mg := { railed.mg with dynAddr := some 127, ibiHeld := true, ready := [⟨255, 1, 0, [], 0⟩] }
    sens := { railed.sens with vio := 1800 } }

def member63 (f : Composite → Composite) : Dev := comp (fun c => f { c with ids := [(7, 63)], role := 3 })

/-- An image with an empty section. -/
def img60 : List Byte :=
  beBytes 4 0x44584349 ++ [1, 1] ++ beBytes 2 0x7144 ++ [0, 0, 0, 1] ++ beBytes 4 60 ++ List.replicate 32 0 ++ [0, 3, 0, 0, 0, 0, 0, 0]
    ++ beBytes 4 1574332278

def imported : Dev := { i3c with boot := { i3c.boot with slot0 := putBytes [] 0 img60, chunks := [0] } }

/-- Some state and operands meet the hypotheses of each clause. -/
theorem wit_PagesAreControlled :
    (∃ (s : State) (ty inst : Nat) (en : Bool) (d1 : Dev), d1 = hwr Reg.PG_CTRL_ENABLE ty inst (bnat en) s.dev ∧ served ty inst 8 s.dev ∧ hrd
      Reg.PG_CTRL_LOCK ty inst s.dev = 0 ∧ commitBusy ty inst s.dev = false ∧ hasStaged ty inst d1 = false) ∧
    (∃ (s : State) (ty inst : Nat) (en : Bool) (d1 : Dev), d1 = hwr Reg.PG_CTRL_ENABLE ty inst (bnat en) s.dev ∧ served ty inst 8 s.dev ∧ hrd
      Reg.PG_CTRL_LOCK ty inst s.dev = 0 ∧ commitBusy ty inst s.dev = false ∧ hasStaged ty inst d1 = true ∧ commitErr ty inst d1 = 0) ∧
    (∃ (s : State) (ty inst : Nat) (en : Bool) (d1 : Dev), d1 = hwr Reg.PG_CTRL_ENABLE ty inst (bnat en) s.dev ∧ served ty inst 8 s.dev ∧ hrd
      Reg.PG_CTRL_LOCK ty inst s.dev = 0 ∧ commitBusy ty inst s.dev = false ∧ hasStaged ty inst d1 = true ∧ commitErr ty inst d1 ≠ 0) ∧
    (∃ (s : State) (ty inst : Nat) (en : Bool) (d1 : Dev), d1 = hwr Reg.PG_CTRL_ENABLE ty inst (bnat en) s.dev ∧ served ty inst 8 s.dev ∧ hrd
      Reg.PG_CTRL_LOCK ty inst s.dev = 0 ∧ commitBusy ty inst s.dev = false ∧ en = false ∧ domOn (domainOf ty inst) s.dev = true ∧ domOn (domainOf
      ty inst) d1 = true ∧ inSoftReset ty inst s.dev = false ∧ hrd Reg.PG_CTRL_ENABLE ty inst d1 = 0) ∧
    (∃ (s : State) (ty inst : Nat) (d1 : _), d1 = stagedSwap ty inst s.dev ∧ commitBusy ty inst s.dev = true) ∧
    (∃ (s : State) (ty inst : Nat), inSoftReset ty inst s.dev = true) ∧
    (∃ (s : State) (ty inst : Nat), served ty inst 0x1C s.dev) ∧
    (∃ (s : State) (v : Word), blLockOk s.dev = true ∧ served 0 0 0x104 s.dev ∧ commitBusy 0 0 s.dev = false ∧ 0 < bitsOf v.toNat 0 8 ∧ bitsOf
      v.toNat 0 8 ≤ rd Reg.DEV_BL_MAX 0 s.dev) :=
  ⟨⟨at_ up, 0x10, 19, true, _, rfl, by decide +kernel⟩,
   ⟨at_ (staged 0), 0x10, 19, true, _, rfl, by decide +kernel⟩,
   ⟨at_ (staged 3), 0x10, 19, false, _, rfl, by decide +kernel⟩,
   ⟨at_ up, 0x10, 19, false, _, rfl, by decide +kernel⟩,
   ⟨at_ ({ up with mg := { up.mg with commits := [(0x1D, 0)] } }), 0x1D, 0, _, rfl, by decide +kernel⟩,
   ⟨at_ ({ up with mg := { up.mg with resets := [(0x1D, 0)] } }), 0x1D, 0, by decide +kernel⟩,
   ⟨at_ up, 0x1C, 255, by decide +kernel⟩,
   ⟨at_ up, 1#32, by exact level_free, by decide +kernel⟩⟩

/-- Some state and operands meet the hypotheses of each clause. -/
theorem wit_RegisterAccessesAct :
    (∃ (s : State) (ty inst off : Nat) (v : BitVec 64) (aux : Aux) (d1 : Dev), d1 = mbxRun aux (applyWord aux ty inst off (v.setWidth 32) s.dev) ∧
      served ty inst off s.dev ∧ off < 4096 ∧ (off = 8 → v.getLsbD 1 = true → domOn (domainOf ty inst) s.dev = true) ∧ off % 8 = 0 ∧ off + 4 <
      4096 ∧ served ty inst (off + 4) d1) ∧
    (∃ (s : State) (path : Path) (a : Nat), ready s.dev = true ∧ s.dev.mg.mpHalted = false ∧ ∃ r, r = readAccess path a s.dev) ∧
    (∃ (s : State) (path : Path) (a : Nat), ready s.dev = true ∧ s.dev.mg.mpHalted = false ∧ ∃ r1 r2, r1 = readAccess path a s.dev ∧ r2 =
      readAccess path (a + 4) r1.2 ∧ a % 8 = 0) ∧
    (∃ (s : State) (a : Nat), ready s.dev = true ∧ s.dev.mg.mpHalted = false ∧ ∃ size, size ≠ 4 ∧ (size = 8 → a % 8 ≠ 0)) ∧
    (∃ (s : State) (path : Path) (k : Nat), ready s.dev = true ∧ s.dev.mg.mpHalted = false ∧ k < 4 ∧ smFind s.dev.mg.hiLatch (latchKey path (0x120
      + 4 * k)) = none) ∧
    (∃ (s : State) (m a size n : Nat) (v : BitVec 64) (ws : List Nat), cmpRuns s.dev = true ∧ 2 ≤ s.dev.cmp.role ∧ m < 64 ∧ a < 2 ^ 26 ∧
      accessWords size a v = ws ∧ s.dev.mg.nextReq = n ∧ ws = []) ∧
    (∃ (s : State) (m a size n : Nat) (v : BitVec 64) (ws : List Nat), cmpRuns s.dev = true ∧ 2 ≤ s.dev.cmp.role ∧ m < 64 ∧ a < 2 ^ 26 ∧
      accessWords size a v = ws ∧ s.dev.mg.nextReq = n ∧ ws ≠ [] ∧ m = ownId s.dev ∧ ∃ r, r = sizedRead .inBand size a s.dev) ∧
    (∃ (s : State) (m a size n : Nat) (v : BitVec 64) (ws : List Nat), cmpRuns s.dev = true ∧ 2 ≤ s.dev.cmp.role ∧ m < 64 ∧ a < 2 ^ 26 ∧
      accessWords size a v = ws ∧ s.dev.mg.nextReq = n ∧ ws ≠ [] ∧ m ≠ ownId s.dev ∧ knownMember m s.dev = true ∧ s.dev.cmp.role = 3) ∧
    (∃ (s : State) (m a size n : Nat) (v : BitVec 64) (ws : List Nat), cmpRuns s.dev = true ∧ 2 ≤ s.dev.cmp.role ∧ m < 64 ∧ a < 2 ^ 26 ∧
      accessWords size a v = ws ∧ s.dev.mg.nextReq = n ∧ ws ≠ [] ∧ m ≠ ownId s.dev ∧ s.dev.cmp.role = 2) ∧
    (∃ (s : State) (m a size n : Nat) (v : BitVec 64) (ws : List Nat), cmpRuns s.dev = true ∧ 2 ≤ s.dev.cmp.role ∧ m < 64 ∧ a < 2 ^ 26 ∧
      accessWords size a v = ws ∧ s.dev.mg.nextReq = n ∧ ws ≠ [] ∧ m ≠ ownId s.dev ∧ knownMember m s.dev = false) ∧
    (∃ (s : State) (a : Nat) (v : Word) (aux : Aux), cmpRuns s.dev = true ∧ s.dev.mg.mpHalted = false ∧ a < 2 ^ 26 ∧ ∃ r, r = writeNoting aux a v
      s.dev) ∧
    (∃ (s : State) (a : Nat), cmpRuns s.dev = true ∧ s.dev.mg.mpHalted = false ∧ a < 2 ^ 26 ∧ ∃ r, r = readAccess .fabric a s.dev) ∧
    (∃ (s : State) (id m a n : Nat), s.dev.mg.remotes.find? (fun r => r.id == id) = some ⟨id, .inBand, m, a, n, false, false, 0⟩ ∧ ∃ (vals : List
      Nat), vals.length = n) :=
  ⟨⟨at_ up, 0x1C, 255, 0, 0#64, ⟨[], true, 0⟩, _, rfl, by decide +kernel⟩,
   ⟨at_ up, .i3c, 0x3FFFFFC, by decide +kernel, by decide +kernel, _, rfl⟩,
   ⟨at_ up, .i3c, 0x3FFFFF8, by decide +kernel, by decide +kernel, _, _, rfl, rfl, by decide +kernel⟩,
   ⟨at_ up, 0x3FFFFFC, by decide +kernel, by decide +kernel, 8, by decide +kernel⟩,
   ⟨at_ up, .mailbox, 3, by decide +kernel⟩,
   ⟨at_ (comp (fun c => { c with role := 2 })), 0, 0x3FFFFFC, 8, 0, 0#64, [], by decide +kernel⟩,
   ⟨at_ (comp (fun c => { c with role := 2 })), 0, 0x3FFFFFC, 4, 0, 0#64, [0], by decide +kernel, by decide +kernel, by decide +kernel,
     by decide +kernel, by decide +kernel, by decide +kernel, by decide +kernel, by decide +kernel, _, rfl⟩,
   ⟨at_ (member63 id), 63, 0x3FFFFFC, 4, 0, 0#64, [0], by decide +kernel⟩,
   ⟨at_ (member63 (fun c => { c with role := 2 })), 63, 0x3FFFFF8, 8, 0, 0#64, [0, 0], by decide +kernel⟩,
   ⟨at_ (member63 id), 62, 0x3FFFFFC, 4, 0, 0#64, [0], by decide +kernel⟩,
   ⟨at_ (comp id), 0x3FFFFFF, 1#32, ⟨[], true, 0⟩, by decide +kernel, by decide +kernel, by decide +kernel, _, rfl⟩,
   ⟨at_ (comp id), 0x3FFFFFF, by decide +kernel, by decide +kernel, by decide +kernel, _, rfl⟩,
   ⟨at_ ({ up with mg := { up.mg with remotes := [⟨5, .inBand, 63, 4, 1, false, false, 0⟩] } }), 5, 63, 4, 1, by decide +kernel, [7],
     by decide +kernel⟩⟩

/-- Some state and operands meet the hypotheses of each clause. -/
theorem wit_EdurnCommandsServed :
    (∃ (s : State) (path : Path) (tag : Nat) (e : Dev), e = edEntered 1 path tag [] s.dev ∧ EdReady 1 path tag [] s.dev) ∧
    (∃ (s : State) (path : Path) (tag : Nat) (e : Dev) (p m a n r : _), e = edEntered 2 path tag p s.dev ∧ r = readWords path n a e ∧ EdReady 2
      path tag p s.dev ∧ p.length = 6 ∧ regPlace p = some (m, a, n) ∧ edSelf m e = true) ∧
    (∃ (s : State) (path : Path) (tag : Nat) (e : Dev) (p m a n aux r : _), e = edEntered 3 path tag p s.dev ∧ r = writeWords aux ((List.range
      n).map fun k => numIn p (6 + 4 * k) 4) a e ∧ EdReady 3 path tag p s.dev ∧ p.length = 6 + 4 * n ∧ regPlace p = some (m, a, n) ∧ edSelf m e =
      true ∧ edBusy path r.2 = true ∧ r.1 = 0) ∧
    (∃ (s : State) (path : Path) (tag : Nat) (e : Dev) (p m a n aux r : _), e = edEntered 3 path tag p s.dev ∧ r = writeWords aux ((List.range
      n).map fun k => numIn p (6 + 4 * k) 4) a e ∧ EdReady 3 path tag p s.dev ∧ p.length = 6 + 4 * n ∧ regPlace p = some (m, a, n) ∧ edSelf m e =
      true ∧ edBusy path r.2 = true ∧ r.1 ≠ 0) ∧
    (∃ (s : State) (path : Path) (tag : Nat) (e : Dev) (p n : _), e = edEntered 4 path tag p s.dev ∧ EdReady 4 path tag p s.dev ∧ p.length = 1 ∧
      numIn p 0 1 = n ∧ 1 ≤ n ∧ n ≤ 120) ∧
    (∃ (s : State) (path : Path) (tag : Nat) (e : Dev) (p n es x : _), e = edEntered 5 path tag p s.dev ∧ es = (entriesFrom (numIn p 0 2)
      e.log.entries).take n ∧ EdReady 5 path tag p s.dev ∧ p.length = 3 ∧ numIn p 2 1 = n ∧ 1 ≤ n ∧ n ≤ 31 ∧ es.head? = some x) ∧
    (∃ (s : State) (path : Path) (tag : Nat) (e : Dev), e = edEntered 6 path tag [] s.dev ∧ EdReady 6 path tag [] s.dev) ∧
    (∃ (s : State) (path : Path) (tag : Nat) (e : Dev) (p : _), e = edEntered 0x0B path tag p s.dev ∧ p = [0, 0xD7] ∧ EdReady 0x0B path tag p
      s.dev) ∧
    (∃ (s : State) (path : Path) (tag : Nat) (e : Dev), e = edEntered 0x0D path tag [] s.dev ∧ EdReady 0x0D path tag [] s.dev) ∧
    (∃ (s : State) (path : Path) (len : Nat), edServed path s.dev = true ∧ 1016 < len) ∧
    (∃ (s : State) (opc : Nat) (path : Path) (len : Nat), edServed path s.dev = true ∧ len ≤ 1016 ∧ edBusy path s.dev = true ∧ 0x0D < opc) ∧
    (∃ (s : State) (opc : Nat) (path : Path) (len : Nat), edServed path s.dev = true ∧ len ≤ 1016 ∧ 0x0D < opc ∧ edBusy path s.dev = false ∧
      edGate opc s.dev = none) :=
  ⟨⟨at_ i3c, .i3c, 255, _, rfl, by decide +kernel⟩,
   ⟨at_ i3c, .i3c, 0, _, [0xFF, 3, 0xFF, 0xFF, 0xFC, 1], 255, 0x3FFFFFC, 1, _, rfl, rfl, by decide +kernel⟩,
   ⟨at_ i3c, .i3c, 0, _, [0xFF, 0, 0x10, 1, 4, 1, 0, 0, 0, 1], 255, 0x100104, 1, ⟨[], true, 0⟩, _, rfl, rfl, by decide +kernel⟩,
   ⟨at_ i3c, .i3c, 0, _, [0xFF, 0, 0, 1, 4, 1, 0, 0, 0, 0], 255, 0x104, 1, ⟨[], true, 0⟩, _, rfl, rfl, by decide +kernel⟩,
   ⟨at_ i3c, .i3c, 1, _, [120], 120, rfl, by decide +kernel⟩,
   ⟨at_ ({ i3c with log := { i3c.log with entries := [logged] } }), .i3c, 1, _, [0, 0, 31], 31, _, logged, rfl, rfl, by decide +kernel⟩,
   ⟨at_ i3c, .i3c, 1, _, rfl, by decide +kernel⟩,
   ⟨at_ i3c, .i3c, 1, _, [0, 0xD7], rfl, by decide +kernel⟩,
   ⟨at_ i3c, .i3c, 1, _, rfl, by decide +kernel⟩,
   ⟨at_ up, .mailbox, 1017, by decide +kernel⟩,
   ⟨at_ ({ up with mg := { up.mg with running := [(.mailbox, 0, 1)] } }), 14, .mailbox, 1016, by decide +kernel⟩,
   ⟨at_ up, 14, .mailbox, 1016, by decide +kernel⟩⟩

/-- Some state and operands meet the hypotheses of each clause. -/
theorem wit_ImagesAndResponsesAct :
    (∃ (s : State) (path : Path) (tag : Nat) (e : Dev) (p n img : _), e = edEntered 7 path tag p s.dev ∧ img = exportImage e ∧ EdReady 7 path tag
      p s.dev ∧ p.length = 4 ∧ stacksOn e = true ∧ numIn p 0 4 = n ∧ n = 0) ∧
    (∃ (s : State) (path : Path) (tag : Nat) (e : Dev) (p n img : _), e = edEntered 7 path tag p s.dev ∧ EdReady 7 path tag p s.dev ∧ p.length = 4
      ∧ stacksOn e = true ∧ numIn p 0 4 = n ∧ n ≠ 0 ∧ e.boot.snapshot = some img ∧ 1008 * n < img.length) ∧
    (∃ (s : State) (path : Path) (tag : Nat) (e : Dev) (n data p : _), p = beBytes 4 n ++ data ∧ e = edEntered 8 path tag p s.dev ∧ EdReady 8 path
      tag p s.dev ∧ n < 5722 ∧ data.length ≤ 1008 ∧ 1008 * n + data.length ≤ 5767168 ∧ ∃ d1, d1 = (if e.boot.chunks.isEmpty then putSlot
      (inactiveSlot e) [] false e else e) ∧ ∃ d2, d2 = putSlot (inactiveSlot e) (putBytes (imageSlot (inactiveSlot e) d1) (1008 * n) data) false
      d1) ∧
    (∃ (s : State) (path : Path) (tag : Nat) (e : Dev) (p k : _), p = beBytes 4 0xFFFFFFFF ∧ e = edEntered 8 path tag p s.dev ∧ EdReady 8 path tag
      p s.dev ∧ inactiveSlot e = k ∧ importErr e = 0 ∧ ∃ d1, d1 = (e |> importTable (imageSlot k e) |> putSlot k (imageSlot k e) true)) ∧
    (∃ (s : State) (path : Path) (tag : Nat) (e : Dev) (p k : _), p = beBytes 4 0xFFFFFFFF ∧ e = edEntered 8 path tag p s.dev ∧ EdReady 8 path tag
      p s.dev ∧ inactiveSlot e = k ∧ importErr e ≠ 0) ∧
    (∃ (s : State) (path : Path) (tag : Nat) (e : Dev) (p d1 : _), p = beBytes 4 0xFFFFFFFE ∧ e = edEntered 8 path tag p s.dev ∧ d1 = (e |>
      putSlot 0 [] false |> putSlot 1 [] false) ∧ EdReady 8 path tag p s.dev) ∧
    (∃ (s : State), i3cUp s.dev = true ∧ ∃ a, a < 128) ∧
    (∃ (s : State), i3cUp s.dev = true ∧ ∃ a, s.dev.mg.ibiHeld = true ∧ s.dev.mg.dynAddr = some a ∧ rd Reg.DEV_I3C_IBI 0 s.dev = 1) ∧
    (∃ (s : State), i3cUp s.dev = true ∧ ∃ r rs, s.dev.mg.ready = r :: rs) :=
  ⟨⟨at_ i3c, .i3c, 1, _, [0, 0, 0, 0], 0, _, rfl, rfl, by decide +kernel⟩,
   ⟨at_ ({ i3c with boot := { i3c.boot with snapshot := some ((List.replicate 1009 0)) } }), .i3c, 1, _, [0, 0, 0, 1], 1, (List.replicate 1009 0),
     rfl, by decide +kernel⟩,
   ⟨at_ i3c, .i3c, 1, _, 5721, List.replicate 16 0, _, rfl, rfl, by decide +kernel, by decide +kernel, by decide +kernel, by decide +kernel, _,
     rfl, _, rfl⟩,
   ⟨at_ imported, .i3c, 1, _, _, 0, rfl, rfl, by decide +kernel, by decide +kernel, by decide +kernel, _, rfl⟩,
   ⟨at_ i3c, .i3c, 1, _, _, 0, rfl, rfl, by decide +kernel⟩,
   ⟨at_ i3c, .i3c, 1, _, _, _, rfl, rfl, rfl, by decide +kernel⟩,
   ⟨at_ i3c, by decide +kernel, 127, by decide +kernel⟩,
   ⟨at_ (wr Reg.DEV_I3C_IBI 0 1 i3c), by decide +kernel, 127, by decide +kernel⟩,
   ⟨at_ i3c, by decide +kernel, ⟨255, 1, 0, [], 0⟩, [], by decide +kernel⟩⟩

/-- A device in lifecycle state `n`, at READY, with a nonce. -/
def lc (n : Nat) : Dev :=
  { i3c with otp := { i3c.otp with lcRec := [n] }, sec := { i3c.sec with nonce := some (List.replicate 32 1), spdm := [(0, 3)], eids := [(17, 8)] } }

def owned (p : Option Path) : Dev := updSec (fun x => { x with owner := p }) i3c

/-- Some state and operands meet the hypotheses of each clause. -/
theorem wit_SecurityEngineActs :
    (∃ (s : State) (path : Path) (tag n : Nat) (data p : List Byte) (e : Dev), p = beBytes 4 n ++ data ∧ e = edEntered 9 path tag p s.dev ∧
      EdReady 9 path tag p s.dev ∧ stacksOn e = true ∧ data.length ≤ 1008 ∧ 1008 * n + data.length ≤ 10485760 ∧ n = 0 ∧ e.sec.owner = none) ∧
    (∃ (s : State) (path : Path) (tag n : Nat) (data p : List Byte) (e : Dev), p = beBytes 4 n ++ data ∧ e = edEntered 9 path tag p s.dev ∧
      EdReady 9 path tag p s.dev ∧ stacksOn e = true ∧ data.length ≤ 1008 ∧ 1008 * n + data.length ≤ 10485760 ∧ n ≠ 0 ∧ e.sec.owner = some path) ∧
    (∃ (s : State) (path : Path) (tag b : Nat) (e d1 : Dev), e = edEntered 0x0A path tag [BitVec.ofNat 8 b] s.dev ∧ d1 = checkBank b (if b =
      stageBank e then updSec (fun x => { x with owner := none }) e else e) ∧ b < 2 ∧ EdReady 0x0A path tag [BitVec.ofNat 8 b] s.dev ∧ bankReason
      b e ≠ 0) ∧
    (∃ (s : State) (path : Path) (tag : Nat) (e : Dev), e = edEntered 0x0C path tag [1] s.dev ∧ EdReady 0x0C path tag [1] s.dev ∧ ready e = true ∧
      e.mg.mpHalted = false) ∧
    (∃ (s : State) (path : Path) (tag : Nat) (e : Dev), e = edEntered 0x0C path tag [2] s.dev ∧ EdReady 0x0C path tag [2] s.dev ∧ ready e = true ∧
      e.mg.mpHalted = false) ∧
    (∃ (s : State) (path : Path) (tag : Nat) (e : Dev) (rb key : _), e = edEntered 0x0C path tag [4] s.dev ∧ rb = max e.otp.fwRb (rd
      Reg.SEC_RUN_RB 0 e) ∧ key = max e.otp.keyRb (rd Reg.SEC_RUN_KEY 0 e) ∧ EdReady 0x0C path tag [4] s.dev ∧ ready e = true ∧ e.mg.mpHalted =
      false ∧ rd Reg.DEV_FALLBACK 0 e = 0 ∧ rd Reg.DEV_BANK 0 e = e.boot.pref) ∧
    (∃ (s : State) (path : Path) (tag : Nat) (e : Dev) (target pub sig p cur : _), p = BitVec.ofNat 8 target :: (pub ++ sig) ∧ e = edEntered 0x0C
      path tag (3 :: p) s.dev ∧ pub.length = 32 ∧ sig.length = 64 ∧ target < 256 ∧ lcState e = cur ∧ EdReady 0x0C path tag (3 :: p) s.dev ∧ ready
      e = true ∧ e.mg.mpHalted = false ∧ e.otp.lcRec.length < 15 ∧ e.otp.owners.length < 8 ∧ (target ≠ 2 → pub = List.replicate 32 0) ∧ lcAuth cur
      target = some 0 ∧ sig = List.replicate 64 0) ∧
    (∃ (s : State) (path : Path) (tag : Nat) (e : Dev) (p : _), e = edEntered 0x0C path tag (3 :: p) s.dev ∧ EdReady 0x0C path tag (3 :: p) s.dev
      ∧ ready e = false) :=
  ⟨⟨at_ i3c, .i3c, 1, 0, List.replicate 16 0, _, _, rfl, rfl, by decide +kernel⟩,
   ⟨at_ (owned (some .i3c)), .i3c, 1, 10402, List.replicate 16 0, _, _, rfl, rfl, by decide +kernel⟩,
   ⟨at_ i3c, .i3c, 1, 1, _, _, rfl, rfl, by decide +kernel⟩,
   ⟨at_ (lc 1), .i3c, 1, _, rfl, by decide +kernel⟩,
   ⟨at_ (lc 1), .i3c, 1, _, rfl, by decide +kernel⟩,
   ⟨at_ (lc 1), .i3c, 1, _, _, _, rfl, rfl, rfl, by decide +kernel⟩,
   ⟨at_ (lc 1), .i3c, 1, _, 4, List.replicate 32 0, List.replicate 64 0, _, 1, rfl, rfl, by decide +kernel⟩,
   ⟨at_ (wr Reg.DEV_STATE 0 3 i3c), .i3c, 1, _, [], rfl, by decide +kernel⟩⟩

/-- Some state and operands meet the hypotheses of each clause. -/
theorem wit_AttestationAnswered :
    (∃ (s : State) (ep : Nat) (x : Dev), x = bump Reg.SEC_SPDM_REQ 0 s.dev ∧ endpointUp ep s.dev = true ∧ spdmServed s.dev = true ∧ 1 ≤ spdmState
      ep s.dev) ∧
    (∃ (s : State) (ep : Nat) (x : Dev), x = bump Reg.SEC_SPDM_REQ 0 s.dev ∧ endpointUp ep s.dev = true ∧ spdmServed s.dev = true ∧ 2 ≤ spdmState
      ep s.dev) ∧
    (∃ (s : State) (ep : Nat) (x : Dev), x = bump Reg.SEC_SPDM_REQ 0 s.dev ∧ endpointUp ep s.dev = true ∧ spdmServed s.dev = true ∧ 3 ≤ spdmState
      ep s.dev ∧ ∃ ofs len part, part = ((certChain x).drop ofs).take len ∧ ofs < (certChain x).length) ∧
    (∃ (s : State) (ep : Nat) (x : Dev), x = bump Reg.SEC_SPDM_REQ 0 s.dev ∧ endpointUp ep s.dev = true ∧ spdmServed s.dev = true ∧ 3 ≤ spdmState
      ep s.dev) ∧
    (∃ (s : State) (ep : Nat) (x : Dev), x = bump Reg.SEC_SPDM_REQ 0 s.dev ∧ endpointUp ep s.dev = true ∧ spdmServed s.dev = true ∧ 3 ≤ spdmState
      ep s.dev ∧ ∃ op, 1 ≤ op ∧ op ≤ 7) ∧
    (∃ (s : State) (ep : Nat) (x : Dev), x = bump Reg.SEC_SPDM_REQ 0 s.dev ∧ endpointUp ep s.dev = true ∧ spdmServed s.dev = true ∧ ∃ code, [0x84,
      0xE1, 0xE3, 0x81, 0x82, 0x83, 0xE0].contains code = false) ∧
    (∃ (s : State) (ep : Nat), mctpUp ep s.dev = true ∧ ∃ eid, 0 < eid ∧ eid < 255) ∧
    (∃ (s : State) (ep : Nat), mctpUp ep s.dev = true ∧ ∃ eid, smFind s.dev.sec.eids ep = some eid) ∧
    (∃ (s : State), ready s.dev = true) :=
  ⟨⟨at_ (lc 1), 0, _, rfl, by decide +kernel⟩,
   ⟨at_ (lc 3), 0, _, rfl, by decide +kernel⟩,
   ⟨at_ (lc 3), 0, _, rfl, by decide +kernel, by decide +kernel, by decide +kernel, 4163, 2, _, rfl, by decide +kernel⟩,
   ⟨at_ (lc 3), 0, _, rfl, by decide +kernel⟩,
   ⟨at_ (lc 3), 0, _, rfl, by decide +kernel, by decide +kernel, by decide +kernel, 7, by decide +kernel⟩,
   ⟨at_ (lc 3), 0, _, rfl, by decide +kernel, by decide +kernel, 0xFF, by decide +kernel⟩,
   ⟨at_ (lc 1), 17, by decide +kernel, 254, by decide +kernel⟩,
   ⟨at_ (lc 1), 17, by decide +kernel, 8, by decide +kernel⟩,
   ⟨at_ up, by decide +kernel⟩⟩

/-- A bank with two empty sections, and a device that holds it as bank 0 with its key. -/
def bank2 : List Byte :=
  beBytes 4 0x44584657 ++ [1, 0] ++ beBytes 2 0x7144 ++ [0, 255, 255, 0] ++ beBytes 4 256 ++ List.replicate 8 0 ++ beBytes 2 2
    ++ List.replicate 38 0 ++ [0, 1] ++ List.replicate 62 0 ++ [0, 3]

def banked : Dev :=
  { i3c with boot := { i3c.boot with bankA := putBytes [] 0 bank2 }, otp := { i3c.otp with fwKeys := [List.replicate 32 1] } }

/-- Every check of a bank but that of its signature is met; the signature is Config's to decide (log entry 11), so of the two clauses on
FW_ACTIVATE one holds here. -/
theorem wit_SecurityEngineActs_signature : EdReady 0x0A .i3c 1 [0] banked ∧
    (bankReason 0 (edEntered 0x0A .i3c 1 [0] banked) = 0 ∨ bankReason 0 (edEntered 0x0A .i3c 1 [0] banked) = 6) := by
  refine ⟨by decide +kernel, ?_⟩
  unfold bankReason
  dsimp only
  rw [if_neg (by decide +kernel), if_neg (by decide +kernel), if_neg (by decide +kernel), if_neg (by decide +kernel),
    if_neg (by decide +kernel), if_neg (by decide +kernel)]
  split
  · exact .inr rfl
  · rw [if_neg (by decide +kernel)]; exact .inl rfl

/-- The hypotheses of the two clauses on an authorized TRANSITION but the signature's; the signature is Config's to decide, so one of the two
holds here. -/
theorem wit_SecurityEngineActs_transition : ∃ (pub sig p n : List Byte), p = BitVec.ofNat 8 4 :: (pub ++ sig) ∧
    (((lcKeys 3 (lc 3)).any fun k => Config.ed25519Verify k (lcDigest 3 4 n pub (lc 3)) sig) = true ∨
      ((lcKeys 3 (lc 3)).any fun k => Config.ed25519Verify k (lcDigest 3 4 n pub (lc 3)) sig) = false) ∧ pub.length = 32 ∧ sig.length = 64 ∧ lcState (lc 3) = 3 ∧ EdReady 0x0C .i3c 1 (3 :: p) (lc 3) ∧ ready (edEntered 0x0C .i3c 1 (3 :: p) (lc 3)) = true ∧
    (lc 3).otp.lcRec.length < 15 ∧ (lc 3).otp.owners.length < 8 ∧ pub = List.replicate 32 0 ∧ lcAuth 3 4 = some 3 ∧
    (lc 3).sec.nonce = some n :=
  ⟨List.replicate 32 0, List.replicate 64 1, _, List.replicate 32 1, rfl, Bool.eq_false_or_eq_true _, by decide +kernel⟩



/-- Some state and operands meet the hypotheses of each clause. -/
theorem wit_StepsKeepSound :
    ∃ (s t : State), step s = .next t ∧ s.sound :=
  ⟨State.reset, _, by exact rfl, by decide +kernel⟩

/-- Some state and operands meet the hypotheses of each clause. -/
theorem wit_OtherPartsUnchanged :
    ∃ (c : Instr) (s t : State) (p : Part), exec c s = .next t ∧ p ∉ cmdParts c :=
  ⟨.gmRoundTick, at_ up, _, .mem, by exact rfl, by decide +kernel⟩

/-- Some state and operands meet the hypotheses of each clause. -/
theorem wit_NothingIsUndone :
    ∃ (s t : State), step s = .next t :=
  ⟨State.reset, _, by exact rfl⟩

/-- Some state and operands meet the hypotheses of each clause. -/
theorem wit_LocalTimeNeverSteered :
    (∃ (c : Instr) (s t : State), exec c s = .next t ∧ cmdParts c ≠ allParts) ∧
    (∃ (s t : State), step s = .next t ∧ s.pending = []) :=
  ⟨⟨.gmRoundTick, at_ up, _, by exact rfl, by decide +kernel⟩,
   ⟨State.reset, _, by exact rfl, by decide +kernel⟩⟩

/-- Some state and operands meet the hypotheses of each clause. -/
theorem wit_AbsentAddressesDropWrites :
    (∃ (s : State) (ty inst off : Nat), ready s.dev = true ∧ s.dev.mg.mpHalted = false ∧ ty < 64 ∧ inst < 256 ∧ off < 4096 ∧ off % 4 = 0 ∧ isBcast
      ty inst = false ∧ (pageExists ty inst s.dev && offsetOk ty inst off) = false ∧ s.dev.mg.mbxGo = false) ∧
    (∃ (s : State) (ty inst off : Nat), ready s.dev = true ∧ s.dev.mg.mpHalted = false ∧ ty < 64 ∧ inst < 256 ∧ off < 4096 ∧ off % 4 = 0 ∧ isBcast
      ty inst = false ∧ (pageExists ty inst s.dev && offsetOk ty inst off) = false ∧ ∃ path, smFind s.dev.mg.hiLatch (latchKey path (regAddr ty
      inst off)) = none) :=
  ⟨⟨at_ up, 63, 255, 4092, by decide +kernel⟩,
   ⟨at_ up, 63, 255, 4092, by decide +kernel, by decide +kernel, by decide +kernel, by decide +kernel, by decide +kernel, by decide +kernel,
     by decide +kernel, by decide +kernel, .fabric, by decide +kernel⟩⟩

/-- Some state and operands meet the hypotheses of each clause. -/
theorem wit_FirstErrorIsKept :
    (∃ (ty inst code : Nat) (d : Dev), smWf coldWord d.regs ∧ code < 65536 ∧ hrd Reg.PG_VALID ty inst d = 1) ∧
    (∃ (ty inst code : Nat) (d : Dev), smWf coldWord d.regs ∧ code < 65536 ∧ hrd Reg.PG_VALID ty inst d = 0) :=
  ⟨⟨0x1C, 255, 65535, hwr Reg.PG_VALID 0x1C 255 1 up, by decide +kernel⟩,
   ⟨0x1C, 255, 65535, up, by decide +kernel⟩⟩

/-- Some state and operands meet the hypotheses of each clause. -/
theorem wit_LocalStampsBeforeValidTime :
    (∃ (d : Dev), smWf coldWord d.regs ∧ timeValid d = false ∧ ∃ (ty inst : Nat), hrd Reg.PG_VALID ty inst d = 0) ∧
    (∃ (d : Dev), smWf coldWord d.regs ∧ timeValid d = false ∧ ∃ (e : Ev) (inst : Nat) (det0 det1 : Word) (x : LogEntry), x ∈ (raiseDet e inst
      det0 det1 d).log.entries) :=
  ⟨⟨up, by decide +kernel, by decide +kernel, 0x1C, 255, by decide +kernel⟩,
   ⟨up, by decide +kernel, by decide +kernel, Ev.HBR_ECC_UNCORR, 15, 1, 2, ⟨0, 0, 3329, true, false, false, false, false, 15, 0, 0, 1, 2⟩,
     by decide +kernel⟩⟩

/-- Some state and operands meet the hypotheses of each clause. -/
theorem wit_FieldsAndMemoryHold :
    (∃ (f : Fld) (d : Dev), smWf coldWord d.regs ∧ f.lo + f.wd ≤ 32 ∧ ∃ b, b < 32 ∧ (b < f.lo ∨ f.lo + f.wd ≤ b)) ∧
    (∃ (f : Fld) (inst i : Nat) (d : Dev), smWf coldWord d.regs ∧ f.lo + f.wd ≤ 32 ∧ ∃ a, a ≠ fldAddr f inst i) ∧
    (∃ (a : Nat) (d : Dev), Memory.wf d.mem ∧ a < memSize ∧ ∃ k, k ≠ a) ∧
    (∃ (a : Nat) (d : Dev), Memory.wf d.mem ∧ memSize ≤ a) :=
  ⟨⟨Reg.LANE_BSTATE, up, by decide +kernel, by decide +kernel, 31, by decide +kernel⟩,
   ⟨Reg.LANE_BSTATE, 161, 0, up, by decide +kernel, by decide +kernel, 0, by decide +kernel⟩,
   ⟨51539607551, up, by decide +kernel, by decide +kernel, 0, by decide +kernel⟩,
   ⟨51539607552, up, by decide +kernel⟩⟩

/-! ## Worked examples and tables of the spec -/

/-- 00_scope.md, example on addresses: TPE 3 at 0x140; 02_register_pages.md: PG_EVT_EN of broadcast instance 0xF3 of the islands. -/
theorem test_addresses : regAddr 0x11 3 0x140 = 0x01103140 ∧ regAddr 0x09 0xF3 0x014 = 0x009F3014 := by decide

/-- 02_register_pages.md, R38: COMMIT_DONE of the HBR page carries 0x0DE1. -/
theorem test_commit_done_code : plainCode 0x0D 1 = 0x0DE1 := by decide

/-- 04_lanes.md, examples: spare lane L053 of I05, and lane 0 of port P040 on L045. -/
theorem test_lane_numbers : spareLane 5 = 53 ∧ portLane 40 0 = 45 ∧ portLane 40 7 = 52 := by decide

/-- 04_lanes.md, example on the eye: a step of 2 codes gives a 32 by 32 grid. -/
theorem test_eye_grid : gridSide 1 = 32 := by decide

/-- 07_queues_schedulers_meters.md, example on guard times: 205 ns and 50 ns. -/
theorem test_guard_eth : guardNs 0 (State.reset.dev |> wr Reg.ISL_PERS 0 3 |> wr Reg.ETH_SPEED 0 3 |> wr Reg.SCH_GATE_MAXSZ 0 9216) = 205 := by
  decide +kernel

theorem test_guard_sfl : guardNs 0 (State.reset.dev |> wr Reg.ISL_PERS 0 2 |> wr Reg.ISL_REACH 0 1 |> wr Reg.LNK_WIDTH 0 8
    |> wr Reg.SCH_GATE_MAXSZ 0 10240) = 50 := by
  decide +kernel

/-- 08_network_routing.md, dragonfly example: the digits of 120,522. -/
theorem test_digits : [0, 1, 2].map (digitOf [4, 43, 947] 120522) = [2, 30, 700] := by decide

/-- 10_remote_memory_and_bridge.md, example: RKEY 0x048D_145A is index 0x1_2345, generation 0x05A. -/
theorem test_key : keyIdx 0x048D145A = 0x12345 ∧ keyGen 0x048D145A = 0x05A := by decide

/-- 11_message_matching.md, example: context 0x42 of slice 7 is held by MTE1. -/
theorem test_quadrant : quadOf 7 0x42 = 1 := by decide

/-- 12_collectives.md, example on exact sums: what N sends, what rank 2 alone would send, and what R rounds to. -/
theorem test_exact_wire : wireOfElem 6 0 (.acc (2 ^ 149 + 2 ^ 49) false false false) =
      [0, 3, 0, 0, 0, 0, 0, 0x20, 0, 0, 0, 0, 0, 0, 0, 0, 0, 0, 0, 2, 0, 0, 0, 0, 0, 0] ∧
    wireOfElem 6 0 (.acc (-(2 ^ 149)) false false false) = [2, 1, 0xFF, 0xFF, 0xFF, 0xFF, 0xFF, 0xE0, 0, 0] := by decide +kernel

theorem test_exact_rounding : roundAcc 6 (2 ^ 49) false false false = 0x0D800000 ∧
    roundAcc 6 (2 ^ 149 + 2 ^ 49) false false false = 0x3F800000 := by decide +kernel

/-- 12_collectives.md, example on reservations: A = 8 KiB and W = 4 reserve 68 cells. -/
theorem test_group_cells : collCells [0x34 <<< 8] = 68 := by decide

/-- 15_fabric_time_and_horizons.md, example: delay 500 ns, offset 12.5 ns, and 10.5 ns with ASYM = 4 ns. -/
theorem test_exchange :
    exchange (5000 * 65536) (5512 * 65536 + 32768) (6000 * 65536) (6487 * 65536 + 32768) 0 = (500 * 65536, 12 * 65536 + 32768) ∧
    exchange (5000 * 65536) (5512 * 65536 + 32768) (6000 * 65536) (6487 * 65536 + 32768) (4 * 65536) =
      (500 * 65536, 10 * 65536 + 32768) := by decide

/-- R534: the check values over "123456789". -/
theorem test_crc :
    [0, 1, 2].map (fun k => crcFrom k none [0x31, 0x32, 0x33, 0x34, 0x35, 0x36, 0x37, 0x38, 0x39]) =
      [0xE3069283, 0xCBF43926, 0xAE8B14860A799888] := by decide +kernel

/-! ## Ill-formed commands -/

/-- One ill-formed command for each check of WellFormed. -/
theorem test_ill_formed : [(.laneSignalDetect 162 : Instr), .rollCallRx 144 0 0 0 0 0, .descriptorRx 0 20 0 0, .straitMatch 6, .plinkAck 64,
    .harbourUncorrRead 16 0 0, .coldStart 2 [], .upstreamPerstDeassert 16, .sqDoorbell 0 4096 true 0 0 0 [], .ctxQuery 4, .lagoonAdmit 8,
    .wqeStart 16777216, .spdmGetVersion 19, .chkGo 16, .d2dCorrectedError 9 0 0, .devMgmtSemRead .i3c 4, .mirrorRecordWrite 8,
    .expTlpRx 64 tlp0, .mtrRead 16, .slotWireEdge 32 0 true, .winLockTmo 1024, .collDoorbell 0 0 true 16384 0 [], .pgCommit 64 0 true,
    .pgCommit 0 256 true, .rcFieldRead .i3c ⟨67108864, 4⟩, .i3cEntdaa 128, .identify .i3c 256 []].map Instr.wf = List.replicate 27 false := by
  decide

theorem test_well_formed : [(.laneSignalDetect 161 : Instr), .rollCallRx 143 0 0 0 0 0, .descriptorRx 5 19 19 0, .plinkAck 63,
    .sqDoorbell 15 4095 true 0 0 0 [], .wqeStart 16777215, .spdmGetVersion 18, .identify .i3c 255 []].map Instr.wf = List.replicate 8 true := by
  decide

/-! ## Reset -/

theorem test_reset_memory : State.reset.sound := by decide

/-- The block idles on an empty queue: no command is invented. -/
theorem test_step_idle : ∃ t, step State.reset = .next t ∧ t.pending = [] := ⟨_, rfl, by decide +kernel⟩

end Sys2Proof.Tests
end

section
/-!
PROOFS. The order in which waiting commands are served (R12), the fields of a register word and the bytes of package memory (R20, R33), and
the state after reset (R11).
-/

namespace Sys2Proof.Machine

/-! ## The queue (R12) -/

/-- Whatever queue a command is served with, it makes the same block and hands the queue on. -/
theorem exec_next (c : Sys2Proof.Instr) (s : State) :
    ∃ d : Dev, exec c s = .next { s with dev := d } ∧ ∀ q : List Sys2Proof.Instr, exec c { s with pending := q } = .next ⟨d, q⟩ := by
  obtain ⟨f, hf⟩ := exec_acts c
  exact ⟨f s.dev, hf s, fun q => hf { s with pending := q }⟩

theorem step_next (s : State) : ∃ t : State, step s = .next t ∧ t.pending = s.pending.tail := by
  obtain ⟨d, q⟩ := s
  cases q with
  | nil => exact ⟨⟨idleTick d, []⟩, rfl, rfl⟩
  | cons c rest =>
    obtain ⟨e, he, _⟩ := exec_next c ⟨d, rest⟩
    exact ⟨⟨e, rest⟩, he, rfl⟩

theorem run_succ_of_step {k : Nat} {s t : State} (h : step s = .next t) : Sys2Proof.core.run (k + 1) s = Sys2Proof.core.run k t := by
  have hcore : Sys2Proof.core.step s = .next t := h
  simp only [Host.Core.run, hcore]

/-- Induction over the commands at the front of the queue, for every block and whatever waits behind them. -/
theorem run_serves_front (cs more : List Sys2Proof.Instr) (d : Dev) :
    ∃ t : Dev, Sys2Proof.core.run cs.length ⟨d, cs ++ more⟩ = .next ⟨t, more⟩ ∧ servedInTurn cs d = some t := by
  induction cs generalizing d with
  | nil => exact ⟨d, rfl, rfl⟩
  | cons c cs ih =>
    obtain ⟨e, halone, hwith⟩ := exec_next c ⟨d, []⟩
    obtain ⟨t, hrun, hturn⟩ := ih e
    have hstep : step ⟨d, c :: cs ++ more⟩ = .next ⟨e, cs ++ more⟩ := hwith (cs ++ more)
    refine ⟨t, ?_, ?_⟩
    · exact (run_succ_of_step hstep).trans hrun
    · rw [servedInTurn, halone]
      exact hturn

/-- Settles O50: a command acts on the block alone (`exec_acts`), so serving goes down the queue by induction on the commands that wait. -/
theorem queueServedInOrder : Obligations.QueueServedInOrder := ⟨step_next, exec_next, run_serves_front⟩

/-! ## Fields of a word -/

theorem getLsbD_setBits (w : Word) {lo wd : Nat} (v : Nat) {b : Nat} (hfit : lo + wd ≤ 32) (hb : b < 32) :
    (setBits w lo wd v).getLsbD b = if lo ≤ b ∧ b < lo + wd then v.testBit (b - lo) else w.getLsbD b := by
  have hin : lo ≤ b ∧ b < lo + wd ↔ ¬ b < lo ∧ b - lo < wd := by omega
  have hsub : b - lo < 32 := by omega
  simp only [setBits, BitVec.getLsbD_or, BitVec.getLsbD_and, BitVec.getLsbD_not, BitVec.getLsbD_shiftLeft, BitVec.getLsbD_ofNat,
    Nat.testBit_two_pow_sub_one, Nat.testBit_mod_two_pow, hin, hb, hsub]
  by_cases h1 : b < lo <;> by_cases h2 : b - lo < wd <;> simp [h1, h2]

theorem testBit_getBits (w : Word) (lo wd i : Nat) : (getBits w lo wd).testBit i = (decide (i < wd) && w.getLsbD (lo + i)) := by
  rw [getBits, Nat.testBit_mod_two_pow, Nat.testBit_shiftRight, BitVec.testBit_toNat]

theorem getBits_setBits (w : Word) {lo wd : Nat} (v : Nat) (hfit : lo + wd ≤ 32) : getBits (setBits w lo wd v) lo wd = v % 2 ^ wd := by
  refine Nat.eq_of_testBit_eq fun i => ?_
  rw [testBit_getBits, Nat.testBit_mod_two_pow]
  by_cases hi : i < wd
  · rw [getLsbD_setBits w v hfit (by omega), if_pos (by omega), Nat.add_sub_cancel_left]
  · simp only [hi, decide_false, Bool.false_and]

theorem rdI_wrI_same (f : Fld) (inst i v : Nat) (d : Dev) (hwf : smWf coldWord d.regs) (hfit : f.lo + f.wd ≤ 32) :
    rdI f inst i (wrI f inst i v d) = v % 2 ^ f.wd := by
  rw [rdI, wordAt_wrI _ _ _ _ _ hwf, if_pos rfl, getBits_setBits _ _ hfit]

theorem getLsbD_wrI_other (f : Fld) (inst i v : Nat) (d : Dev) (hwf : smWf coldWord d.regs) (hfit : f.lo + f.wd ≤ 32) {b : Nat} (hb : b < 32)
    (hout : b < f.lo ∨ f.lo + f.wd ≤ b) :
    (wordAt (fldAddr f inst i) (wrI f inst i v d)).getLsbD b = (wordAt (fldAddr f inst i) d).getLsbD b := by
  rw [wordAt_wrI _ _ _ _ _ hwf, if_pos rfl, getLsbD_setBits _ _ hfit hb, if_neg (by omega)]

/-! ## Bytes of package memory (R20) -/

theorem memRead_memWrite_same (a : Nat) (b : Byte) (d : Dev) (hwf : Memory.wf d.mem) (ha : a < memSize) : memRead a (memWrite a b d) = b := by
  rw [memRead_set _ _ _ _ hwf ha, if_pos rfl]

theorem memRead_memWrite_ne {a k : Nat} (b : Byte) (d : Dev) (hwf : Memory.wf d.mem) (ha : a < memSize) (hk : k ≠ a) :
    memRead k (memWrite a b d) = memRead k d := by
  rw [memRead_set _ _ _ _ hwf ha, if_neg hk]

theorem memWrite_beyond {a : Nat} (b : Byte) (d : Dev) (ha : memSize ≤ a) : memWrite a b d = d := if_neg (Nat.not_lt.mpr ha)

/-- Settles O60: reading after writing, for the bits of a word (`getLsbD_setBits`) and for the bytes of the sparse memory (`memRead_set`). -/
theorem fieldsAndMemoryHold : Obligations.FieldsAndMemoryHold := by
  refine ⟨fun f inst i v d hwf hfit => ⟨?_, ?_, ?_⟩, fun a b d hwf => ⟨fun ha => ⟨?_, ?_⟩, ?_⟩⟩
  · exact rdI_wrI_same f inst i v d hwf hfit
  · exact fun _ hb hout => getLsbD_wrI_other f inst i v d hwf hfit hb hout
  · exact fun _ hne => wordAt_wrI_ne hwf hne
  · exact memRead_memWrite_same a b d hwf ha
  · exact fun _ hk => memRead_memWrite_ne b d hwf ha hk
  · exact memWrite_beyond b d

/-! ## The state after reset (R11, R20) -/

theorem reset_sound : State.reset.sound :=
  have hnil {α : Type} (dflt : Nat → α) : smWf dflt [] := ⟨.nil, nofun⟩
  ⟨⟨⟨hnil memDflt, nofun⟩, hnil coldWord⟩, nofun⟩

theorem wordAt_reset (a : Nat) : wordAt a State.reset.dev = coldWord a := rfl

theorem memRead_reset (a : Nat) : memRead a State.reset.dev = 0 := rfl

/-- Settles O52: both sparse tables are empty at reset, so each address reads what an unlisted one reads as. -/
theorem resetIsSound : Obligations.ResetIsSound := ⟨reset_sound, rfl, wordAt_reset, memRead_reset⟩

end Sys2Proof.Machine
end

section
/-!
PROOFS. The commands of a page's header (R37 to R49) and BEHAVIOUR_LEVEL (R86): each is one served word of the page, and each word has its rule.
-/

namespace Sys2Proof.Machine

/-! ## What a command answers -/

/-- A command whose effect lies in the block alone answers what its effect comes to. -/
theorem onDev_eq {f : Dev → Dev} {s : State} {e : Dev} (h : f s.dev = e) : onDev f s = .next { s with dev := e } := by
  unfold onDev
  rw [h]

/-- A command that may touch any block answers what its effect comes to. -/
theorem onAll_eq {f : Dev → Dev} {s : State} {e : Dev} (h : f s.dev = e) : onAll f s = .next { s with dev := allSettled s.dev e } := by
  subst h
  rfl

theorem applyWord_header {off : Nat} (hoff : off < 0x100) (aux : Aux) (ty inst : Nat) (val : Word) (d : Dev) :
    applyWord aux ty inst off val d = headerWrite ty inst off val d := if_pos hoff

/-! ## PG_CTRL (R37, R46 to R49) -/

@[simp] theorem commitBusy_wrI (ty inst : Nat) (f : Fld) (n i v : Nat) (d : Dev) : commitBusy ty inst (wrI f n i v d) = commitBusy ty inst d := by
  unfold commitBusy wrI
  rw [setWord_mg]

@[simp] theorem inSoftReset_wrI (ty inst : Nat) (f : Fld) (n i v : Nat) (d : Dev) :
    inSoftReset ty inst (wrI f n i v d) = inSoftReset ty inst d := by
  unfold inSoftReset wrI
  rw [setWord_mg]

/-- With LOCK 0 and no commit running a write of PG_CTRL gives ENABLE, then does what its other bits ask for; SOFT_RST with ENABLE is
refused. -/
theorem ctrlWrite_unlocked {ty inst : Nat} {d : Dev} (hlock : hrd Reg.PG_CTRL_LOCK ty inst d = 0) (hidle : commitBusy ty inst d = false)
    {val : Word} (hrst : val.getLsbD 1 = true → val.getLsbD 0 = false) :
    ctrlWrite ty inst val d = (d |> hwr Reg.PG_CTRL_ENABLE ty inst (bnat (val.getLsbD 0))
      |> onlyIf (val.getLsbD 4) (discardGo ty inst val) |> onlyIf (val.getLsbD 2) (commitGo ty inst val)
      |> onlyIf (val.getLsbD 1) (softStart ty inst val) |> onlyIf (val.getLsbD 3) (hwr Reg.PG_CTRL_LOCK ty inst 1)) := by
  have hboth : (val.getLsbD 1 && bnat (val.getLsbD 0) == 1) = false := by
    cases h1 : val.getLsbD 1 with
    | false => rfl
    | true => rw [hrst h1]; rfl
  unfold ctrlWrite
  simp only [hlock, hidle, hboth, Bool.false_and, Bool.false_eq_true, Nat.zero_ne_one, false_and, if_false]

/-- The words that the commands of PG_CTRL write beside ENABLE, each with its bit; 0 is a write of ENABLE alone. -/
def ctrlCmds : List (Nat × Nat) := [(0, 0), (2, 1), (4, 2), (8, 3), (16, 4)]

theorem getLsbD_ctrlWord {w bit : Nat} (hcmd : (w, bit) ∈ ctrlCmds) (en : Bool) {b : Nat} (hb : b < 5) :
    (BitVec.ofNat 32 (w + bnat en)).getLsbD b = if b = 0 then en else b == bit := by
  have hall : ∀ p ∈ ctrlCmds, ∀ (en : Bool), ∀ b < 5, (BitVec.ofNat 32 (p.1 + bnat en)).getLsbD b = if b = 0 then en else b == p.2 := by decide
  exact hall (w, bit) hcmd en b hb

/-- A served command of PG_CTRL: ENABLE is given, and its bit alone acts. -/
theorem pageWrite_ctrl {ty inst w bit : Nat} {en : Bool} {d : Dev} (hserved : served ty inst 8 d) (hlock : hrd Reg.PG_CTRL_LOCK ty inst d = 0)
    (hidle : commitBusy ty inst d = false) (hcmd : (w, bit) ∈ ctrlCmds)
    (hrst : bit = 1 → en = false ∧ domOn (domainOf ty inst) d = true) :
    pageWrite ty inst 8 (BitVec.ofNat 32 (w + bnat en)) d = (d |> hwr Reg.PG_CTRL_ENABLE ty inst (bnat en)
      |> onlyIf (4 == bit) (discardGo ty inst (BitVec.ofNat 32 (w + bnat en)))
      |> onlyIf (2 == bit) (commitGo ty inst (BitVec.ofNat 32 (w + bnat en)))
      |> onlyIf (1 == bit) (softStart ty inst (BitVec.ofNat 32 (w + bnat en)))
      |> onlyIf (3 == bit) (hwr Reg.PG_CTRL_LOCK ty inst 1)) := by
  have h0 : (BitVec.ofNat 32 (w + bnat en)).getLsbD 0 = en := getLsbD_ctrlWord hcmd en (by decide)
  have h1 : (BitVec.ofNat 32 (w + bnat en)).getLsbD 1 = (1 == bit) := getLsbD_ctrlWord hcmd en (by decide)
  have h2 : (BitVec.ofNat 32 (w + bnat en)).getLsbD 2 = (2 == bit) := getLsbD_ctrlWord hcmd en (by decide)
  have h3 : (BitVec.ofNat 32 (w + bnat en)).getLsbD 3 = (3 == bit) := getLsbD_ctrlWord hcmd en (by decide)
  have h4 : (BitVec.ofNat 32 (w + bnat en)).getLsbD 4 = (4 == bit) := getLsbD_ctrlWord hcmd en (by decide)
  have hbit (h : (BitVec.ofNat 32 (w + bnat en)).getLsbD 1 = true) : bit = 1 := (beq_iff_eq.mp (h1.symm.trans h)).symm
  have hword : applyWord ⟨[], true, 0⟩ ty inst 8 (BitVec.ofNat 32 (w + bnat en)) d = ctrlWrite ty inst (BitVec.ofNat 32 (w + bnat en)) d :=
    applyWord_header (by decide) ..
  rw [pageWrite_served hserved (by decide) _ fun _ h => (hrst (hbit h)).2, hword,
    ctrlWrite_unlocked hlock hidle fun h => h0.trans (hrst (hbit h)).1, h0, h1, h2, h3, h4]

/-! ### What its bits start -/

section
variable {ty inst : Nat} {val : Word} {d : Dev} (hidle : commitBusy ty inst d = false)
include hidle

theorem discardGo_idle :
    discardGo ty inst val d = { stagedOut ty inst d with mg := { d.mg with touched := untouched ty inst d } } := by
  unfold discardGo untouched
  rw [hidle, if_neg Bool.false_ne_true]

theorem commitGo_nothing (hs : hasStaged ty inst d = false) : commitGo ty inst val d = commitDone ty inst d := by
  unfold commitGo commitStart
  rw [hidle, hs, if_neg Bool.false_ne_true, if_pos (by decide)]

theorem commitGo_good (hs : hasStaged ty inst d = true) (he : commitErr ty inst d = 0) :
    commitGo ty inst val d = { d with mg := { d.mg with commits := d.mg.commits ++ [(ty, inst)] } } := by
  unfold commitGo commitStart
  rw [hidle, hs, he, if_neg Bool.false_ne_true, if_neg (by decide), if_neg (by decide)]

theorem commitGo_bad (hs : hasStaged ty inst d = true) (he : commitErr ty inst d ≠ 0) :
    commitGo ty inst val d =
      (d |> hwr Reg.PG_STAT_COMMIT_REFUSED ty inst 1 |> cfgErr ty inst 8 (commitErr ty inst d) val) := by
  unfold commitGo commitStart
  rw [hidle, hs, if_neg Bool.false_ne_true, if_neg (by decide), if_pos he]

/-- SOFT_RST is taken: ENABLE is 0, the domain ON and no soft reset under way (R47). -/
theorem softStart_taken (hen : hrd Reg.PG_CTRL_ENABLE ty inst d = 0) (hdom : domOn (domainOf ty inst) d = true)
    (hrst : inSoftReset ty inst d = false) :
    softStart ty inst val d = ({ d with mg := { d.mg with resets := d.mg.resets ++ [(ty, inst)] } }
      |> softStop ty inst |> softStaged ty inst |> forEach (softFields ty) (warmField ty inst) |> softHeader ty inst
      |> softLogic ty inst) := by
  unfold softStart
  simp only [hidle, hen, hdom, hrst, Bool.false_eq_true, Bool.true_eq_false, Nat.zero_ne_one, if_false]

end

/-- The boundary of a commit that awaits it: the set goes into force, the commit completes, and entries that waited start (R31, R44). -/
theorem commitSwap_busy {ty inst : Nat} {d : Dev} (h : commitBusy ty inst d = true) :
    commitSwap ty inst d = entriesStart (commitDone ty inst (stagedSwap ty inst d)) := if_pos h

theorem commitDone_eq (ty inst : Nat) (d : Dev) : commitDone ty inst d =
    ({ d with mg := { d.mg with commits := d.mg.commits.filter (fun c => c != (ty, inst)), touched := untouched ty inst d } }
      |> stagedOut ty inst |> addMod (Reg.PG_STAT_COMMIT_SEQ.ofType ty) inst 0 1 |> hwr Reg.PG_STAT_COMMIT_REFUSED ty inst 0
      |> raiseCommitDone ty inst) := by
  unfold commitDone untouched
  rfl

theorem softDone_busy {ty inst : Nat} {d : Dev} (h : inSoftReset ty inst d = true) :
    softDone ty inst d =
      raiseResetDone ty inst { d with mg := { d.mg with resets := d.mg.resets.filter (fun r => r != (ty, inst)) } } := if_pos h

/-- A served write of PG_EVT_INJ raises the events it names (R38). -/
theorem pageWrite_inject {ty inst : Nat} {d : Dev} (h : served ty inst 0x1C d) (val : Word) :
    pageWrite ty inst 0x1C val d = injectEvents ty inst val d := by
  rw [pageWrite_served h (by decide) val nofun, applyWord_header (by decide)]
  rfl

/-! ## BEHAVIOUR_LEVEL (R5, R86) -/

/-- No range and no relation between fields limits BEHAVIOUR_LEVEL's word; its own rule does. -/
theorem rangeErr_level (val : Word) (d : Dev) : rangeErr 0 0 0x104 val d = 0 := by
  have hrows : rowsOk 0 0x104 val = true := rfl
  unfold rangeErr
  rw [hrows]
  rfl

theorem levelWrite_taken {val : Word} {d : Dev} (hok : blLockOk d = true) (hpos : 0 < bitsOf val.toNat 0 8)
    (hmax : bitsOf val.toNat 0 8 ≤ rd Reg.DEV_BL_MAX 0 d) :
    levelWrite val d = wr Reg.DEV_BEHAVIOUR_LEVEL 0 (bitsOf val.toNat 0 8) d := by
  unfold levelWrite
  rw [if_neg (by omega), if_pos hok]

/-- A served write of BEHAVIOUR_LEVEL comes to the word's own rule: no range limits the word and it lies outside the mailbox. -/
theorem pageWrite_level {val : Word} {d : Dev} (h : served 0 0 0x104 d) (hidle : commitBusy 0 0 d = false) :
    pageWrite 0 0 0x104 val d = levelWrite val d := by
  rw [pageWrite_served h (by decide) val nofun]
  obtain ⟨_, _, _, _, _, hfree⟩ := h
  have hlock : ¬ (hrd Reg.PG_CTRL_LOCK 0 0 d = 1 ∧ lockable 0 0x104 = true) := by
    rintro ⟨h1, h2⟩
    simp [h1, h2] at hfree
  unfold applyWord
  rw [if_neg (by decide), if_neg hlock, hidle, Bool.false_and, if_neg Bool.false_ne_true, if_neg (by omega), rangeErr_level,
    if_neg (by decide)]
  rfl

/-- Settles O43: each command is one served word of its page, or the boundary or the end of what such a word began. -/
theorem pagesAreControlled : Obligations.PagesAreControlled := by
  refine ⟨?_, fun s ty inst => ⟨?_, ?_, ?_⟩, ?_⟩
  · intro s ty inst en d1 hserved hlock hidle hd1
    have hidle1 : commitBusy ty inst d1 = false := by rw [hd1, commitBusy_wrI, hidle]
    have hcmd {w bit : Nat} (hmem : (w, bit) ∈ ctrlCmds) (hne : bit ≠ 1) :=
      hd1 ▸ pageWrite_ctrl (en := en) hserved hlock hidle hmem fun h => absurd h hne
    refine ⟨?_, ?_, ?_, fun hs => ?_, fun hs he => ?_, fun hs he => ?_, fun hen hdom hdom1 hrst hen1 => ?_⟩
    · refine onAll_eq ?_
      rw [← Nat.zero_add (bnat en)]
      exact hcmd (w := 0) (bit := 0) (by decide) (by decide)
    · exact onAll_eq (hcmd (w := 8) (bit := 3) (by decide) (by decide))
    · exact onAll_eq ((hcmd (w := 16) (bit := 4) (by decide) (by decide)).trans (discardGo_idle hidle1))
    · exact onAll_eq ((hcmd (w := 4) (bit := 2) (by decide) (by decide)).trans (commitGo_nothing hidle1 hs))
    · exact onAll_eq ((hcmd (w := 4) (bit := 2) (by decide) (by decide)).trans (commitGo_good hidle1 hs he))
    · exact onAll_eq ((hcmd (w := 4) (bit := 2) (by decide) (by decide)).trans (commitGo_bad hidle1 hs he))
    · have hrst1 : inSoftReset ty inst d1 = false := by rw [hd1, inSoftReset_wrI, hrst]
      have hsoft := hd1 ▸ pageWrite_ctrl (w := 2) (bit := 1) hserved hlock hidle (by decide) fun _ => ⟨hen, hdom⟩
      exact onAll_eq (hsoft.trans (softStart_taken hidle1 hen1 hdom1 hrst1))
  · rintro d1 hbusy rfl
    rw [← commitDone_eq]
    exact onAll_eq (commitSwap_busy hbusy)
  · exact fun hbusy => onAll_eq (softDone_busy hbusy)
  · exact fun v hserved => onAll_eq (pageWrite_inject hserved v)
  · exact fun s v hserved hidle hok hpos hmax =>
      onAll_eq ((pageWrite_level hserved hidle).trans (levelWrite_taken hok hpos hmax))

end Sys2Proof.Machine
end

section
/-!
PROOFS. Register accesses by their size (R33), semaphores (R58), and accesses through the composite window and between members (R52, R416).
-/

namespace Sys2Proof.Machine

/-! ## Register accesses (R33) -/

/-- A served write of one word is applied, and a frame in the mailbox is taken up if the write set its GO. -/
theorem sizedWrite_word {ty inst off : Nat} {d : Dev} (h : served ty inst off d) (hoff : off < 4096) (aux : Aux) (v : BitVec 64)
    (hd : off = 8 → v.getLsbD 1 = true → domOn (domainOf ty inst) d = true) :
    sizedWrite aux 4 (regAddr ty inst off) v d = mbxRun aux (applyWord aux ty inst off (v.setWidth 32) d) := by
  have hd32 : off = 8 → (v.setWidth 32).getLsbD 1 = true → domOn (domainOf ty inst) d = true := fun h8 hb =>
    hd h8 (by simpa only [BitVec.getLsbD_setWidth, Nat.reduceLT, decide_true, Bool.true_and] using hb)
  unfold sizedWrite
  rw [if_pos rfl, pathWrite_served h hoff aux _ hd32]

/-- A write of a pair is a write of its low word, then of its high word. -/
theorem sizedWrite_pair {a : Nat} (ha : a % 8 = 0) (aux : Aux) (v : BitVec 64) (d : Dev) :
    sizedWrite aux 8 a v d = mbxRun aux (pathWrite aux (a + 4) ((v >>> 32).setWidth 32) (sizedWrite aux 4 a v d)) := by
  unfold sizedWrite
  rw [if_neg (by decide), if_pos ⟨rfl, ha⟩, if_pos rfl]

theorem sizedRead_word (path : Path) (a : Nat) (d : Dev) : sizedRead path 4 a d = readAccess path a d := if_pos rfl

theorem sizedRead_pair {a : Nat} (ha : a % 8 = 0) (path : Path) (d : Dev) :
    sizedRead path 8 a d =
      ((readAccess path a d).1 + 2 ^ 32 * (readAccess path (a + 4) (readAccess path a d).2).1,
        (readAccess path (a + 4) (readAccess path a d).2).2) := by
  unfold sizedRead
  rw [if_neg (by decide), if_pos ⟨rfl, ha⟩]

theorem sizedRead_illegal {size a : Nat} (h4 : size ≠ 4) (h8 : size = 8 → a % 8 ≠ 0) (path : Path) (d : Dev) :
    sizedRead path size a d = (0, d) := by
  unfold sizedRead
  rw [if_neg h4, if_neg fun h => h8 h.1 h.2]

/-- At READY a read is answered with what the access finds (R62). -/
theorem pathRead_ready {d : Dev} (hr : ready d = true) (hm : d.mg.mpHalted = false) {path : Path} {size a : Nat} {r : Nat × Dev}
    (h : sizedRead path size a d = r) : pathRead path size a d = emit .readData [pathNo path, a, r.1] [] r.2 := by
  unfold pathRead
  rw [hr, hm, h]
  rfl

/-! ## Semaphores (R58) -/

/-- Reading a semaphore takes it: of the fields of its word the semaphore alone is cleared by a read. -/
theorem clearRc_sem {k : Nat} (hk : k < 4) (d : Dev) : clearRc 0 0 (0x120 + 4 * k) d = wrI Reg.DEV_MGMT_SEM 0 k 1 d := by
  have hrows : ∀ k < 4, (fieldsAt 0 (0x120 + 4 * k)).filter (fun f => f.acc == .rc) = [Reg.DEV_MGMT_SEM] := by decide
  have hidx : ∀ k < 4, fldIdx Reg.DEV_MGMT_SEM (0x120 + 4 * k) = some k := by decide
  unfold clearRc
  simp only [hrows k hk, forEach_cons, forEach_nil, hidx k hk, beq_self_eq_true, if_true, Nat.zero_ne_one, false_and, if_false]

/-- A read of a semaphore that no earlier read latched answers it as it stands and takes it. -/
theorem readAccess_sem {path : Path} {k : Nat} (hk : k < 4) {d : Dev} (hlatch : smFind d.mg.hiLatch (latchKey path (0x120 + 4 * k)) = none) :
    readAccess path (0x120 + 4 * k) d = ((memberWord 0 0 (0x120 + 4 * k) false d).toNat, wrI Reg.DEV_MGMT_SEM 0 k 1 d) := by
  have hoff : 0x120 + 4 * k < 4096 := by omega
  have haddr : regAddr 0 0 (0x120 + 4 * k) = 0x120 + 4 * k := by simp only [regAddr, Nat.zero_mul, Nat.zero_add]
  have htype : addrType (0x120 + 4 * k) = 0 := haddr ▸ addrType_regAddr (by decide) (by decide) hoff
  have hinst : addrInst (0x120 + 4 * k) = 0 := haddr ▸ addrInst_regAddr (by decide) hoff
  have hofs : addrOff (0x120 + 4 * k) = 0x120 + 4 * k := (congrArg addrOff haddr).symm.trans (addrOff_regAddr hoff)
  have halign : ¬ ((0x120 + 4 * k) % 4 ≠ 0 ∨ 2 ^ 26 ≤ 0x120 + 4 * k) := by omega
  have hpage : pageExists 0 0 d = true := rfl
  have hexists : ∀ k < 4, offsetOk 0 0 (0x120 + 4 * k) = true := by decide
  have hdom : domState (servedDomain 0 0 (0x120 + 4 * k)) d = 0 := rfl
  have hplain : latchedBy 0 (0x120 + 4 * k) = [] := rfl
  have hbcast : isBcast 0 0 = false := by decide
  unfold readAccess
  simp only [htype, hinst, hofs, if_neg halign, hbcast, hlatch, hpage, hexists k hk, hdom, hplain, List.foldl_nil, forEach_nil,
    clearRc_sem hk]
  rfl

/-! ## The composite window (R52) -/

section
variable {m a size : Nat} {v : BitVec 64} {aux : Aux} {d : Dev} (hrun : cmpRuns d = true) (hrole : 2 ≤ d.cmp.role) (hm : m < 64)
  (ha : a < 2 ^ 26)
include hrun hrole hm ha

/-- The anchor and the standby serve an access of the window by its words and its member. -/
theorem windowAccess_open (write : Bool) : windowAccess write m a size v aux d =
    if (accessWords size a v).isEmpty then onlyIf (!write) (windowData m a 0) d
    else if m = ownId d then
      if write then sizedWrite aux size a v d
      else windowData m a (sizedRead .inBand size a d).1 (sizedRead .inBand size a d).2
    else if write && d.cmp.role == 2 then forEach (accessWords size a v) (fun _ => dropWrite) d
    else if knownMember m d then
      sendRemote .inBand false 0 m a write (if write then accessWords size a v else (accessWords size a v).map (fun _ => 0)) d
    else if write then forEach (accessWords size a v) (fun _ => remoteFail true) d
    else d |> forEach (accessWords size a v) (fun _ => remoteFail false) |> windowData m a (onesOf (accessWords size a v).length) := by
  have hshut : (!cmpRuns d || decide (d.cmp.role < 2) || decide (64 ≤ m) || decide (2 ^ 26 ≤ a)) = false := by
    simp only [hrun, Bool.not_true, Bool.or_eq_false_iff, decide_eq_false_iff_not, true_and]
    omega
  unfold windowAccess
  rw [hshut, if_neg Bool.false_ne_true]

theorem windowAccess_illegal (hws : accessWords size a v = []) : windowAccess false m a size v aux d = windowData m a 0 d := by
  rw [windowAccess_open hrun hrole hm ha, hws]
  rfl

variable (hws : accessWords size a v ≠ [])
include hws

theorem windowAccess_own_write (hown : m = ownId d) : windowAccess true m a size v aux d = sizedWrite aux size a v d := by
  rw [windowAccess_open hrun hrole hm ha, if_neg (by simpa using hws), if_pos hown, if_pos rfl]

theorem windowAccess_own_read (hown : m = ownId d) :
    windowAccess false m a size v aux d = windowData m a (sizedRead .inBand size a d).1 (sizedRead .inBand size a d).2 := by
  rw [windowAccess_open hrun hrole hm ha, if_neg (by simpa using hws), if_pos hown, if_neg Bool.false_ne_true]

variable (hother : m ≠ ownId d)
include hother

theorem windowAccess_standby_write (hstandby : d.cmp.role = 2) :
    windowAccess true m a size v aux d = forEach (accessWords size a v) (fun _ => dropWrite) d := by
  rw [windowAccess_open hrun hrole hm ha, if_neg (by simpa using hws), if_neg hother, if_pos (by rw [hstandby]; rfl)]

theorem windowAccess_remote_write (hanchor : d.cmp.role = 3) (hknown : knownMember m d = true) :
    windowAccess true m a size v aux d = sendRemote .inBand false 0 m a true (accessWords size a v) d := by
  rw [windowAccess_open hrun hrole hm ha, if_neg (by simpa using hws), if_neg hother, if_neg (by rw [hanchor]; decide), if_pos hknown,
    if_pos rfl]

theorem windowAccess_remote_read (hknown : knownMember m d = true) :
    windowAccess false m a size v aux d = sendRemote .inBand false 0 m a false ((accessWords size a v).map (fun _ => 0)) d := by
  rw [windowAccess_open hrun hrole hm ha, if_neg (by simpa using hws), if_neg hother, if_neg (by simp), if_pos hknown,
    if_neg Bool.false_ne_true]

/-- A read of a number without a member fails on each of its words without an event, and answers all ones. -/
theorem windowAccess_absent_read (habsent : knownMember m d = false) : windowAccess false m a size v aux d =
    (d |> forEach (accessWords size a v) (fun _ => bump Reg.DEV_REMOTE_ERR 0) |> windowData m a (onesOf (accessWords size a v).length)) := by
  rw [windowAccess_open hrun hrole hm ha, if_neg (by simpa using hws), if_neg hother, if_neg (by simp), habsent,
    if_neg Bool.false_ne_true, if_neg Bool.false_ne_true]
  rfl

end

/-! ## Accesses from and to other members (R52, R416) -/

/-- This device answers accesses of other members: it runs in composite mode and its management processor runs. -/
theorem applyRemote_open {slid req a : Nat} {v : Word} {aux : Aux} {d : Dev} (hrun : cmpRuns d = true) (hm : d.mg.mpHalted = false)
    (ha : a < 2 ^ 26) (write : Bool) : applyRemote slid req write a v aux d =
      if write then respondRemote slid req (writeNoting aux a v d).1 0 (writeNoting aux a v d).2
      else respondRemote slid req 0 (readAccess .fabric a d).1 (readAccess .fabric a d).2 := by
  have hshut : (!cmpRuns d || d.mg.mpHalted || decide (2 ^ 26 ≤ a)) = false := by
    rw [hrun, hm, decide_eq_false (Nat.not_le.mpr ha)]
    rfl
  unfold applyRemote
  rw [hshut, if_neg Bool.false_ne_true]

section
variable {req id m a n : Nat} {d : Dev} (hsent : d.mg.remotes.find? (fun r => r.id == req) = some ⟨id, .inBand, m, a, n, false, false, 0⟩)
include hsent

/-- The response to a read of the window answers the read. -/
theorem remoteResponse_window {vals : List Nat} (hlen : vals.length = n) : remoteResponse req 0 vals d =
    (d |> dropRemote req |> windowData m a (vals.getD 0 0 % 2 ^ 32 + 2 ^ 32 * vals.getD 1 0)) := by
  unfold remoteResponse
  rw [hsent]
  simp only [hlen, ne_eq, not_true_eq_false, and_false, if_false, Bool.false_eq_true]

/-- The timeout of a read of the window answers all ones, is counted and raised. -/
theorem remoteTimeout_window : remoteTimeout req d =
    (d |> dropRemote req |> bump Reg.DEV_REMOTE_ERR 0 |> raise Ev.REMOTE_TMO 0 |> windowData m a (onesOf n)) := by
  unfold remoteTimeout
  rw [hsent]
  rfl

end

/-- Settles O44: each access comes to one case of `sizedWrite`, `sizedRead`, `windowAccess` or of the accesses between members. -/
theorem registerAccessesAct : Obligations.RegisterAccessesAct := by
  refine ⟨?_, ?_, ?_, ?_, ?_, ?_⟩
  · intro s ty inst off v aux d1 hserved hoff hd hd1
    have hword : sizedWrite aux 4 (regAddr ty inst off) v s.dev = d1 := (sizedWrite_word hserved hoff aux v hd).trans hd1.symm
    refine ⟨onAll_eq hword, fun h8 hhi hserved1 => onAll_eq ?_⟩
    have hadr : regAddr ty inst off % 8 = 0 := by unfold regAddr; omega
    have hnext : regAddr ty inst off + 4 = regAddr ty inst (off + 4) := Nat.add_assoc ..
    rw [sizedWrite_pair hadr, hword, hnext, pathWrite_served hserved1 hhi aux _ (by omega)]
  · intro s path a hr hm
    refine ⟨fun r hread => ?_, fun r1 r2 h8 h1 h2 => ?_, fun size h4 h8 => ?_⟩
    · exact onDev_eq (pathRead_ready hr hm ((sizedRead_word path a s.dev).trans hread.symm))
    · subst h1 h2
      exact onDev_eq (pathRead_ready hr hm (sizedRead_pair h8 path s.dev))
    · exact onDev_eq (pathRead_ready hr hm (sizedRead_illegal h4 h8 path s.dev))
  · intro s path k hr hm hk hlatch
    refine onDev_eq ?_
    rw [decide_eq_true hk, onlyIf_true]
    exact pathRead_ready hr hm ((sizedRead_word path _ s.dev).trans (readAccess_sem hk hlatch))
  · intro s m a size n v aux ws hrun hrole hm ha hws hn
    subst hws hn
    refine ⟨fun he => ?_, fun hne hown => ⟨?_, fun r hr => ?_⟩, fun hne hother hknown => ⟨fun hanchor => ?_, ?_⟩,
      fun hne hother hstandby => ?_, fun hne hother habsent => ?_⟩
    · exact onAll_eq (windowAccess_illegal hrun hrole hm ha he)
    · exact onAll_eq (windowAccess_own_write hrun hrole hm ha hne hown)
    · subst hr
      exact onAll_eq (windowAccess_own_read hrun hrole hm ha hne hown)
    · exact onAll_eq (windowAccess_remote_write hrun hrole hm ha hne hother hanchor hknown)
    · refine onAll_eq ((windowAccess_remote_read hrun hrole hm ha hne hother hknown).trans ?_)
      unfold sendRemote
      rw [List.length_map]
      rfl
    · exact onAll_eq (windowAccess_standby_write hrun hrole hm ha hne hother hstandby)
    · exact onAll_eq (windowAccess_absent_read hrun hrole hm ha hne hother habsent)
  · intro s slid id a v aux hrun hm ha
    refine ⟨fun r hr => ?_, fun r hr => ?_⟩
    · subst hr
      exact onAll_eq (congrArg (mbxRun aux) ((applyRemote_open hrun hm ha true).trans (if_pos rfl)))
    · subst hr
      exact onAll_eq (congrArg (mbxRun aux) ((applyRemote_open hrun hm ha false).trans (if_neg Bool.false_ne_true)))
  · intro s id m a n hsent
    exact ⟨fun vals hlen => onAll_eq (remoteResponse_window hsent hlen), onAll_eq (remoteTimeout_window hsent)⟩

end Sys2Proof.Machine
end

section
/-!
PROOFS. What every step keeps of the tables and of the queue (R20, R32), power domain transitions (R486 to R493), and die-to-die errors, PCIe
credit and a function's slice registers (R15, R16, R193, R428).
-/

namespace Sys2Proof.Machine

/-! ## A step (R12, R19) -/

theorem step_cons (c : Sys2Proof.Instr) (rest : List Sys2Proof.Instr) (d : Dev) : step ⟨d, c :: rest⟩ = exec c ⟨d, rest⟩ := rfl

theorem step_nil (d : Dev) : step ⟨d, []⟩ = .next ⟨idleTick d, []⟩ := rfl

/-- Settles O49: the two equations of `step`, the clocks' advance written out. -/
theorem stepServesFront : Obligations.StepServesFront := ⟨fun c rest s => step_cons c rest s.dev, step_nil⟩

/-- Every command keeps the tables canonical, by the parts it touches (`exec_ran`), and leaves the queue. -/
theorem exec_sound {c : Sys2Proof.Instr} {s t : State} (hs : s.sound) (h : exec c s = .next t) : t.sound := by
  obtain ⟨hdev, hqueue⟩ := hs
  obtain ⟨d, hd, heff⟩ := exec_ran c s
  cases hd.symm.trans h
  exact ⟨heff.sound hdev, hqueue⟩

/-- The clocks are no table, and what the memory path serves keeps both tables canonical. -/
theorem idleTick_sound {d : Dev} (h : d.sound) : (idleTick d).sound := (memServeAll_eff _).sound h

/-- Settles O51: a step is a command's or the clocks' advance, and the commands left in the queue waited there before. -/
theorem stepsKeepSound : Obligations.StepsKeepSound := by
  rintro ⟨d, q⟩ t ⟨hdev, hqueue⟩ h
  cases q with
  | nil =>
    rw [step_nil] at h
    cases h
    exact ⟨idleTick_sound hdev, hqueue⟩
  | cons c rest =>
    rw [step_cons] at h
    have hrest : State.sound ⟨d, rest⟩ := ⟨hdev, fun e he => hqueue e (List.mem_cons_of_mem c he)⟩
    exact exec_sound hrest h

/-! ## Domain transitions (R486 to R493) -/

/-- A served write of PWR_REQ with its GO bit requests a state that exists. -/
theorem mgmtWrite_pwrReq {v : Word} {dom target : Nat} {d : Dev} (hserved : served 0x01 0 0x200 d) (hgo : bitOf v.toNat 31 = true)
    (hdom : bitsOf v.toNat 0 6 = dom) (htarget : bitsOf v.toNat 8 2 = target) (hne : target ≠ 3) :
    mgmtWrite 0x01 0 0x200 v (pwrReq v) d = requestDomain dom target d := by
  subst hdom htarget
  rw [mgmtWrite_served hserved]
  unfold pwrReq
  simp only [hgo, Bool.true_eq_false, if_false, if_neg hne]

section
variable {dom target : Nat} {d : Dev}

/-- With no transition and no commit in its way a request does not wait. -/
theorem requestDomain_free (htr : trOf dom d = none) (hcommit : target = 0 ∨ commitIn dom d = false) :
    requestDomain dom target d = if domState dom d = target then raise Ev.PWR_DONE 0 d else startReq dom target d := by
  have hfree : ¬ ((trOf dom d).isSome ∨ (target ≠ 0 ∧ commitIn dom d = true)) := by
    rw [htr]
    rcases hcommit with h | h <;> simp [h]
  rw [requestDomain, if_neg hfree]

theorem not_refused (h : target = 0 ∨ refuserOf dom target d = 0) : ¬ (target ≠ 0 ∧ refuserOf dom target d ≠ 0) := by omega

/-- Only straits and segments drain: another domain's transition that is permitted starts and no more. -/
theorem startReq_undrained (hok : target = 0 ∨ refuserOf dom target d = 0) (hdom : dom < 18 ∨ 40 ≤ dom) :
    startReq dom target d = startTr dom target d := by
  have hstrait : ¬ (18 ≤ dom ∧ dom < 24) := by omega
  have hseg : ¬ (24 ≤ dom ∧ dom < 40) := by omega
  unfold startReq
  rw [if_neg (not_refused hok), decide_eq_false hstrait, decide_eq_false hseg]
  exact ite_self _

section
variable (hon : domState dom d = 0) (hentry : target ≠ 0) (hok : refuserOf dom target d = 0)
include hon hentry hok

/-- A strait in service begins to drain as its transition starts (R167). -/
theorem startReq_strait {k : Nat} (hdom : dom = 18 + k) (hk : k < 6) (hstr : rd Reg.STR_STATE k (startTr dom target d) = 0) :
    startReq dom target d = wr Reg.STR_STATE k 1 (startTr dom target d) := by
  have hidx : dom - 18 = k := by omega
  have hstrait : 18 ≤ dom ∧ dom < 24 := by omega
  have hseg : ¬ (24 ≤ dom ∧ dom < 40) := by omega
  unfold startReq
  rw [if_neg (not_refused (.inr hok)), if_pos ⟨hentry, hon⟩, decide_eq_true hstrait, decide_eq_false hseg, hidx, onlyIf_true, onlyIf_false]
  simp only [hstr]

/-- A segment allocates no more as its transition starts, and the shared pool may run low (R169). -/
theorem startReq_segment {seg : Nat} (hdom : dom = 24 + seg) (hsegs : seg < 16) :
    startReq dom target d = (startTr dom target d |> wr Reg.HBR_SEG_STATE seg 1 |> sharedLowAlarm (sharedFree d)) := by
  have hidx : dom - 24 = seg := by omega
  have hstrait : ¬ (18 ≤ dom ∧ dom < 24) := by omega
  have hseg : 24 ≤ dom ∧ dom < 40 := by omega
  unfold startReq
  rw [if_neg (not_refused (.inr hok)), if_pos ⟨hentry, hon⟩, decide_eq_false hstrait, decide_eq_true hseg, hidx, onlyIf_true, onlyIf_false]

end

/-- An enabled wake with nothing to abort starts the return to ON of a domain in RET or OFF. -/
theorem wakeDom_starts {k : Nat} (hwake : hasWake dom k = true) (hen : bitOf (rdI Reg.PWR_WAKE_EN 0 dom d) k = true)
    (hpend : rdI Reg.PWR_PENDING 0 dom d = 0) (htr : trOf dom d = none) (hdown : domState dom d = 1 ∨ domState dom d = 2) :
    wakeDom dom k d = startTr dom 0 d := by
  have hnone : ¬ (rdI Reg.PWR_PENDING 0 dom d = 1 ∧ rdI Reg.PWR_PEND_STATE 0 dom d ≠ 0) := by omega
  unfold wakeDom
  simp only [hwake, hen, Bool.and_self, if_true, if_neg hnone, htr, if_pos hdown]

/-! ### A transition under way -/

section
variable {t : DomTr} (htr : trOf dom d = some t)
include htr

theorem plinkTimeout_repeats (hack : t.acked = false) (hdrain : t.draining = false) (hfew : t.timeouts < 2) :
    plinkTimeout dom d = (d |> putTr { t with timeouts := t.timeouts + 1 } |> railRequest dom t.target) := by
  unfold plinkTimeout
  simp only [htr, hack, hdrain, Bool.or_self, Bool.false_eq_true, if_false, if_pos hfew]

theorem transitionDone_acked (hack : t.acked = true) :
    transitionDone dom d = (d |> reach dom t.prior t.target |> raise Ev.PWR_DONE 0 |> nextRequest dom) := by
  unfold transitionDone
  simp only [htr, hack, if_true]

theorem segmentDrainTimeout_draining {seg : Nat} (hdom : dom = 24 + seg) (hseg : seg < 16) (hdrain : t.draining = true) :
    segmentDrainTimeout seg d = (d |> abandonTr dom 0x05 |> nextRequest dom) := by
  subst hdom
  unfold segmentDrainTimeout
  simp only [htr, hdrain, decide_eq_true hseg, Bool.and_self, if_true]

end

end

/-- PC0's acknowledgement of a transition that does not drain is noted, and its timeouts in a row end. -/
theorem execPlinkAck_undrained {dom : Nat} {s : State} {t : DomTr} (htr : trOf dom s.dev = some t) (hdrain : t.draining = false) :
    execPlinkAck dom s =
      .next { s with dev := { s.dev with pw := { (putTr { t with acked := true } s.dev).pw with plinkAborts := 0 } } } := by
  refine onDev_eq ?_
  simp only [htr, hdrain, Bool.false_eq_true, if_false]
  rfl

/-- Settles O25: a request in nobody's way starts its transition, with the drain of its block; each event of a transition under way has one
rule. -/
theorem domainTransitionsRun : Obligations.DomainTransitionsRun := by
  refine ⟨fun s v dom target hserved hgo hdom htarget hne htr hcommit => ?_, fun s dom k hwake hen hpend htr hdown => ?_,
    fun s dom t htr => ⟨fun hdrain => ?_, fun hack hdrain hfew => ?_, fun hack => ?_, fun seg hdom hseg hdrain => ?_⟩⟩
  · have hreq := (mgmtWrite_pwrReq hserved hgo hdom htarget hne).trans (requestDomain_free htr hcommit)
    refine ⟨fun hsame => ?_, fun hother hok hplain => ?_, fun d1 hon htargets hok hd1 => ?_⟩
    · exact onDev_eq (hreq.trans (if_pos hsame))
    · exact onDev_eq ((hreq.trans (if_neg hother)).trans (startReq_undrained hok hplain))
    · have hentry : target ≠ 0 := by omega
      have hstart := hreq.trans (if_neg (hon.trans_ne hentry.symm))
      subst hd1
      exact ⟨fun k hk hlt hstr => onDev_eq (hstart.trans (startReq_strait hon hentry hok hk hlt hstr)),
        fun seg hs hlt => onDev_eq (hstart.trans (startReq_segment hon hentry hok hs hlt))⟩
  · have hcode : 0x40 ≤ 0x40 + k := Nat.le_add_right ..
    refine onDev_eq ?_
    rw [decide_eq_true hcode, onlyIf_true, Nat.add_sub_cancel_left]
    exact wakeDom_starts hwake hen hpend htr hdown
  · exact execPlinkAck_undrained htr hdrain
  · exact onAll_eq (plinkTimeout_repeats htr hack hdrain hfew)
  · exact onAll_eq (transitionDone_acked htr hack)
  · exact onAll_eq (segmentDrainTimeout_draining htr hdom hseg hdrain)

/-! ## Die-to-die errors, PCIe credit and a function's slice registers (R15, R16, R193, R428) -/

theorem d2dCorrected_counts {link : Nat} (hlink : link < 9) (n retries : Nat) (d : Dev) :
    d2dCorrected link n retries d = (d |> addI Reg.DEV_D2D_CORR 0 link n |> addI Reg.DEV_D2D_RETRY 0 link retries
      |> onlyIf (decide (rdI Reg.DEV_D2D_CORR 0 link d < rd Reg.DEV_D2D_THRESH 0 d ∧
          rd Reg.DEV_D2D_THRESH 0 d ≤ rdI Reg.DEV_D2D_CORR 0 link d + n))
        (raiseDet Ev.D2D_CORR_THRESH 0 (BitVec.ofNat 32 link) 0)) := if_neg (Nat.not_le.mpr hlink)

theorem d2dUncorr_chiplet {link : Nat} (hlink : link < 6) (offset : Nat) (user : Option Nat) (d : Dev) :
    d2dUncorr link offset user d = (d |> forEach ((List.range 3).flatMap (fun j => islandPorts (3 * link + j) d)) chipletPortDown
      |> raiseDet Ev.D2D_UNCORR 0 (BitVec.ofNat 32 link) 0) := if_pos hlink

/-- An error of a stack's link at a word that lies in that stack, its domain ON. -/
theorem d2dUncorr_stack {link offset m : Nat} {d : Dev} (hlink : link = 7 + m) (hm : m < 2) (hon : domOn (56 + m) d = true)
    (hword : (offset / 256) % 2 = m) (user : Option Nat) :
    d2dUncorr link offset user d = (d |> raise Ev.PKM_LINK_UNCORR m |> packageBad offset user) := by
  have hdom : 49 + link = 56 + m := by omega
  have hstack : link - 7 = m := by omega
  unfold d2dUncorr
  rw [if_neg (by omega), if_neg (by omega), if_pos (by omega), hdom, hstack, hon, hword, beq_self_eq_true, Bool.and_self, onlyIf_true]

/-- A credit update for a class of an EXP link that is up sets the limits of the class. -/
theorem expCredit_up {port cls k : Nat} {d : Dev} (hidx : expIdx port d = some k) (hup : rd Reg.EXP_DL_ACTIVE k d = 1)
    (hcls : 1 ≤ cls ∧ cls ≤ 4) (hdr data : Nat) :
    expCredit port cls hdr data d =
      updPort port (fun q => { q with fcHdr := smPut q.fcHdr cls hdr, fcData := smPut q.fcData cls data }) d := by
  unfold expCredit
  simp only [hidx, hup, beq_self_eq_true, decide_eq_true hcls, Bool.and_self, onlyIf_true]

/-- A write by the function that holds a slice, in no reset, at one of the slice's own registers. -/
theorem sliceHostWrite_applied {v n reg : Nat} {d : Dev} (hready : ready d = true)
    (hreg : n < 4096 ∧ 0x20 ≤ reg ∧ reg ≤ 0x4C ∧ reg % 4 = 0) (hslice : slState n d ≠ slFree) (hvh : slRd Reg.SLC_VH n d = v)
    (hflr : rd Reg.FUN_FLR_BUSY v d = 0) (val : Word) :
    sliceHostWrite v n reg val d = applyWord ⟨[], true, 0⟩ 0x1C (n / 16) (0x100 + 0xF0 * (n % 16) + reg) val d := by
  unfold sliceHostWrite
  rw [hready, decide_eq_true hreg, bne_iff_ne.mpr hslice, hvh, hflr]
  simp only [beq_self_eq_true, Bool.and_self, onlyIf_true]

/-- Settles O26: each command comes to the one case of its rule that the state names. -/
theorem dieLinksAndOutsideWritesAct : Obligations.DieLinksAndOutsideWritesAct := by
  refine ⟨fun s link n r before t hlink hbefore ht => ?_, fun s link offset user => ⟨fun hlink => ?_, fun m hlink hm hon hword => ?_⟩,
    fun s port cls hdr data k hidx hup hmin hmax => ?_, fun s v n reg val hready hn hlo hhi halign hslice hvh hflr => ?_⟩
  · subst hbefore ht
    exact onDev_eq (d2dCorrected_counts hlink n r s.dev)
  · exact onAll_eq (d2dUncorr_chiplet hlink offset user s.dev)
  · exact onAll_eq (d2dUncorr_stack hlink hm hon hword user)
  · exact onDev_eq (congrArg (settleNet s.dev) (expCredit_up hidx hup ⟨hmin, hmax⟩ hdr data))
  · exact onAll_eq (sliceHostWrite_applied hready ⟨hn, hlo, hhi, halign⟩ hslice hvh hflr val)

end Sys2Proof.Machine
end

section
/-!
PROOFS. The parts of the block that a command leaves alone (R34, R37, R44), what raising events and writing the trouble log leave alone, and the
first configuration error of a page (R39).
-/

namespace Sys2Proof.Machine

/-! ## Parts that a command leaves alone -/

theorem mem_allParts (p : Part) : p ∈ allParts := by cases p <;> decide

/-- Settles O53: a command touches the parts that `exec_ran` names, all of them listed; one that may reset the block lists every part. -/
theorem otherPartsUnchanged : Obligations.OtherPartsUnchanged := by
  intro c s t p h hp
  obtain ⟨d, hd, heff⟩ := exec_ran c s
  cases hd.symm.trans h
  have hlisted : cmdParts c ≠ allParts := fun hall => hp (hall ▸ mem_allParts p)
  exact heff.same (cmdParts_bit hp) (.inl (cmdParts_reset hlisted))

/-! ## Two fields of one word, and words of one page -/

theorem rdI_wrI_disjoint {f g : Fld} {inst i v ing j : Nat} {d : Dev} (hwf : smWf coldWord d.regs) (hf : f.lo + f.wd ≤ 32)
    (hg : g.lo + g.wd ≤ 32) (hdis : f.lo + f.wd ≤ g.lo ∨ g.lo + g.wd ≤ f.lo) : rdI g ing j (wrI f inst i v d) = rdI g ing j d := by
  by_cases hword : fldAddr g ing j = fldAddr f inst i
  · refine Nat.eq_of_testBit_eq fun b => ?_
    rw [rdI, rdI, testBit_getBits, testBit_getBits, hword]
    by_cases hb : b < g.wd
    · rw [getLsbD_wrI_other f inst i v d hwf hf (by omega) (by omega)]
    · simp only [hb, decide_false, Bool.false_and]
  · exact rdI_wrI_ne hwf hword

theorem regAddr_offset (ty inst : Nat) {off : Nat} (hoff : off < 4096) : regAddr ty inst off % 4096 = off := by
  unfold regAddr
  omega

/-! ## What raising events and writing the log leaves alone (R38, R39, R529) -/

/-- The offsets of PG_ERR_FIRST and PG_ERR_TS on every page. -/
def errOffsets : List Nat := [0x20, 0x24]

/-- What raising an event or writing the log leaves alone: the Edurn commands in progress and, where the register words are canonical, the
words of PG_ERR_FIRST and PG_ERR_TS of every page. -/
structure RaiseKeeps (a b : Dev) : Prop where
  running : b.mg.running = a.mg.running
  words : smWf coldWord a.regs → smWf coldWord b.regs ∧ ∀ x, x % 4096 ∈ errOffsets → wordAt x b = wordAt x a

theorem RaiseKeeps.refl (d : Dev) : RaiseKeeps d d := ⟨rfl, fun h => ⟨h, fun _ _ => rfl⟩⟩

theorem RaiseKeeps.trans {a b c : Dev} (h : RaiseKeeps a b) (g : RaiseKeeps b c) : RaiseKeeps a c := by
  refine ⟨g.running.trans h.running, fun hwf => ?_⟩
  obtain ⟨hb, hab⟩ := h.words hwf
  obtain ⟨hc, hbc⟩ := g.words hb
  exact ⟨hc, fun x hx => (hbc x hx).trans (hab x hx)⟩

/-- A change that leaves the registers and the commands in progress. -/
theorem RaiseKeeps.of_regs {a b : Dev} (hrun : b.mg.running = a.mg.running) (hregs : b.regs = a.regs) : RaiseKeeps a b :=
  ⟨hrun, fun hwf => ⟨hregs ▸ hwf, fun x _ => by unfold wordAt; rw [hregs]⟩⟩

theorem onlyIf_raiseKeeps {f : Dev → Dev} (hf : ∀ d, RaiseKeeps d (f d)) (c : Bool) (d : Dev) : RaiseKeeps d (onlyIf c f d) := by
  cases c with
  | false => exact .refl d
  | true => exact hf d

section
variable {f : Fld} {idx : Nat} (hoff : f.off + f.stride * idx < 4096) (hne : f.off + f.stride * idx ∉ errOffsets)
include hoff hne

/-- A write of a field that lies in neither word. -/
theorem wrI_raiseKeeps (inst v : Nat) (d : Dev) : RaiseKeeps d (wrI f inst idx v d) := by
  refine ⟨congrArg Mgmt.running (setWord_mg ..), fun hwf => ⟨wrI_wf _ _ _ _ _ hwf, fun x hx => wordAt_wrI_ne hwf fun heq => ?_⟩⟩
  have haddr : x % 4096 = f.off + f.stride * idx := heq ▸ regAddr_offset f.ty inst hoff
  exact hne (haddr ▸ hx)

theorem addI_raiseKeeps (inst n : Nat) (d : Dev) : RaiseKeeps d (addI f inst idx n d) := by
  have hfree : RaiseKeeps d (takeFree d) := .of_regs rfl rfl
  unfold addI
  split
  · exact wrI_raiseKeeps hoff hne ..
  · exact hfree.trans (wrI_raiseKeeps hoff hne ..)

end

theorem pushEntry_raiseKeeps (e : LogEntry) (d : Dev) : RaiseKeeps d (pushEntry e d) := by
  have hseq (x : Dev) : RaiseKeeps x (addMod Reg.LOG_NEXT_SEQ 0 0 1 x) := wrI_raiseKeeps (by decide) (by decide) ..
  unfold pushEntry
  split
  · refine .trans ?_ (hseq _)
    exact .of_regs rfl rfl
  · split
    · exact addI_raiseKeeps (by decide) (by decide) ..
    · refine .trans ?_ (hseq _)
      exact .of_regs rfl rfl

theorem logWrite_raiseKeeps (code inst : Nat) (det0 det1 : Word) (injected cfg : Bool) (d : Dev) :
    RaiseKeeps d (logWrite code inst det0 det1 injected cfg d) := by
  have hcount (x : Dev) : RaiseKeeps x (bump Reg.LOG_SUPPRESSED 0 x) := addI_raiseKeeps (by decide) (by decide) ..
  unfold logWrite
  dsimp only
  split
  · refine .trans ?_ (hcount _)
    exact .of_regs rfl rfl
  · refine .trans ?_ (pushEntry_raiseKeeps ..)
    exact .of_regs rfl rfl

theorem raiseIbi_raiseKeeps (d : Dev) : RaiseKeeps d (raiseIbi d) := by
  unfold raiseIbi
  split
  · split <;> exact .of_regs rfl rfl
  · exact .refl d

theorem deliver_raiseKeeps (code ty inst : Nat) (d : Dev) : RaiseKeeps d (deliver code ty inst d) := by
  unfold deliver
  refine .trans ?_ (raiseIbi_raiseKeeps _)
  exact .of_regs rfl rfl

theorem riseBit_raiseKeeps (ty inst bit code : Nat) (d : Dev) : RaiseKeeps d (riseBit ty inst bit code d) := by
  have hpend (v : Nat) : RaiseKeeps d (hwr Reg.PG_EVT_PEND ty inst v d) :=
    wrI_raiseKeeps (show 0x18 < 4096 by decide) (show 0x18 ∉ errOffsets by decide) ..
  unfold riseBit
  dsimp only
  split
  · exact (hpend _).trans (deliver_raiseKeeps ..)
  · exact .refl d

theorem rise_raiseKeeps (ty inst bit code : Nat) (det0 det1 : Word) (injected cfg : Bool) (d : Dev) :
    RaiseKeeps d (rise ty inst bit code det0 det1 injected cfg d) := (riseBit_raiseKeeps ..).trans (logWrite_raiseKeeps ..)

/-- The alarms of the log itself are raised and marked as raised. -/
theorem logAlarms_raiseKeeps (before after : Dev) : RaiseKeeps after (logAlarms before after) := by
  unfold logAlarms
  dsimp only
  refine .trans (onlyIf_raiseKeeps (fun _ => rise_raiseKeeps ..) _ after) (onlyIf_raiseKeeps (fun _ => ?_) _ _)
  refine .trans ?_ (rise_raiseKeeps ..)
  exact .of_regs rfl rfl

/-! ## The first configuration error of a page (R39) -/

/-- What a configuration error does once it is recorded: CFG_ERR_LAST, the rise of CFG_ERR and the log. -/
theorem cfgErr_afterRecord (ty inst off code : Nat) (v : Word) (d : Dev) :
    RaiseKeeps (recordFirst ty inst off code (countRefusal d)) (cfgErr ty inst off code v d) :=
  have hlast (x : Dev) : RaiseKeeps x (wr Reg.DEV_CFG_ERR_LAST 0 code x) := wrI_raiseKeeps (by decide) (by decide) ..
  (hlast _).trans ((rise_raiseKeeps ..).trans (logAlarms_raiseKeeps ..))

theorem recordFirst_running (ty inst off code : Nat) (d : Dev) : (recordFirst ty inst off code d).mg.running = d.mg.running :=
  congrArg Mgmt.running ((recordFirst_eff ty inst off code d).same (p := .mg) rfl (.inl rfl))

theorem cfgErr_running (ty inst off code : Nat) (v : Word) (d : Dev) : (cfgErr ty inst off code v d).mg.running = d.mg.running :=
  (cfgErr_afterRecord ty inst off code v d).running.trans (recordFirst_running ..)

section
variable {ty inst : Nat} {d : Dev} (hwf : smWf coldWord d.regs)
include hwf

theorem hrd_hwr_same {f : Fld} (hfit : f.lo + f.wd ≤ 32) (v : Nat) : hrd f ty inst (hwr f ty inst v d) = v % 2 ^ f.wd :=
  rdI_wrI_same (f.ofType ty) inst 0 v d hwf hfit

theorem hrd_hwr_otherWord {f g : Fld} (hoff : g.off ≠ f.off) (v : Nat) : hrd g ty inst (hwr f ty inst v d) = hrd g ty inst d :=
  rdI_wrI_ne hwf fun h => hoff (Nat.add_left_cancel h)

theorem hrd_hwr_disjoint {f g : Fld} (hf : f.lo + f.wd ≤ 32) (hg : g.lo + g.wd ≤ 32) (hdis : f.lo + f.wd ≤ g.lo ∨ g.lo + g.wd ≤ f.lo) (v : Nat) :
    hrd g ty inst (hwr f ty inst v d) = hrd g ty inst d := rdI_wrI_disjoint hwf hf hg hdis

theorem hwr_wf (f : Fld) (v : Nat) : smWf coldWord (hwr f ty inst v d).regs := wrI_wf _ _ _ _ _ hwf

theorem recordFirst_wf (off code : Nat) : smWf coldWord (recordFirst ty inst off code d).regs := by
  unfold recordFirst
  split
  · exact hwf
  · exact hwr_wf (hwr_wf (hwr_wf (hwr_wf (hwr_wf hwf ..) ..) ..) ..) ..

/-- The first error of a page as PG_ERR_FIRST and PG_ERR_TS show it. -/
theorem recordFirst_shows (hvalid : hrd Reg.PG_VALID ty inst d = 0) (off : Nat) {code : Nat} (hcode : code < 65536) :
    hrd Reg.PG_VALID ty inst (recordFirst ty inst off code d) = 1 ∧ hrd Reg.PG_CODE ty inst (recordFirst ty inst off code d) = code ∧
      hrd Reg.PG_WORD ty inst (recordFirst ty inst off code d) = off / 4 % 1024 ∧
      hrd Reg.PG_ERR_TS ty inst (recordFirst ty inst off code d) = stampNs d % 2 ^ 32 := by
  have hrec : recordFirst ty inst off code d = (d |> hwr Reg.PG_VALID ty inst 1 |> hwr Reg.PG_TS_LOCAL ty inst (bnat (!stampValid d))
      |> hwr Reg.PG_WORD ty inst (off / 4) |> hwr Reg.PG_CODE ty inst code |> hwr Reg.PG_ERR_TS ty inst (stampNs d % 2 ^ 32)) :=
    if_neg (by omega)
  have h1 := hwr_wf (ty := ty) (inst := inst) hwf Reg.PG_VALID 1
  have h2 := hwr_wf (ty := ty) (inst := inst) h1 Reg.PG_TS_LOCAL (bnat (!stampValid d))
  have h3 := hwr_wf (ty := ty) (inst := inst) h2 Reg.PG_WORD (off / 4)
  have h4 := hwr_wf (ty := ty) (inst := inst) h3 Reg.PG_CODE code
  rw [hrec]
  refine ⟨?_, ?_, ?_, ?_⟩
  · rw [hrd_hwr_otherWord h4 (by decide), hrd_hwr_disjoint h3 (by decide) (by decide) (by decide),
      hrd_hwr_disjoint h2 (by decide) (by decide) (by decide), hrd_hwr_disjoint h1 (by decide) (by decide) (by decide),
      hrd_hwr_same hwf (by decide)]
    rfl
  · rw [hrd_hwr_otherWord h4 (by decide), hrd_hwr_same h3 (by decide)]
    exact Nat.mod_eq_of_lt hcode
  · rw [hrd_hwr_otherWord h4 (by decide), hrd_hwr_disjoint h3 (by decide) (by decide) (by decide), hrd_hwr_same h2 (by decide)]
    rfl
  · rw [hrd_hwr_same h4 (by decide)]
    exact Nat.mod_mod _ _

/-- What the first error's words show stays once it is recorded. -/
theorem hrd_cfgErr {g : Fld} (hg : g.off ∈ errOffsets) (off code : Nat) (v : Word) :
    hrd g ty inst (cfgErr ty inst off code v d) = hrd g ty inst (recordFirst ty inst off code (countRefusal d)) := by
  obtain ⟨_, hwords⟩ := (cfgErr_afterRecord ty inst off code v d).words (recordFirst_wf (d := countRefusal d) hwf off code)
  have hoff : ∀ o ∈ errOffsets, o < 4096 := by decide
  have haddr : fldAddr (g.ofType ty) inst 0 = regAddr ty inst g.off := rfl
  unfold hrd rd rdI
  rw [haddr, hwords _ ((regAddr_offset ty inst (hoff _ hg)).symm ▸ hg)]

end

/-- Settles O58: what follows the recording of an error leaves the words of the first one alone (`cfgErr_afterRecord`). -/
theorem firstErrorIsKept : Obligations.FirstErrorIsKept := by
  intro ty inst off code v d hwf hcode
  refine ⟨fun hvalid => ?_, fun hvalid => ?_⟩
  · have hrec : recordFirst ty inst off code (countRefusal d) = countRefusal d := if_pos hvalid
    have hkeep := cfgErr_afterRecord ty inst off code v d
    rw [hrec] at hkeep
    obtain ⟨_, hwords⟩ := hkeep.words hwf
    refine ⟨?_, hwords _ ?_, hwords _ ?_⟩
    · unfold cfgErr
      rw [hrec]
    · rw [regAddr_offset _ _ (by decide)]
      decide
    · rw [regAddr_offset _ _ (by decide)]
      decide
  · have hshow := recordFirst_shows (d := countRefusal d) hwf hvalid off hcode
    rw [hrd_cfgErr hwf (by decide), hrd_cfgErr hwf (by decide), hrd_cfgErr hwf (by decide), hrd_cfgErr hwf (by decide)]
    exact hshow

end Sys2Proof.Machine
end

section
/-!
PROOFS. The resets that reach the whole device or an island, and start-up (R58 to R77, R185, R186, R323, R484, R557).
-/

namespace Sys2Proof.Machine

theorem onNet_eq {f : Dev → Dev} {s : State} {e : Dev} (h : f s.dev = e) : onNet f s = .next { s with dev := settleNet s.dev e } := by
  subst h
  rfl

/-! ## Start-up (R61, R63, R77) -/

/-- With a path closed and the rails down a cold start resets the block and starts up to the wipe. -/
theorem coldStart_runs {feed : Nat} {d : Dev} (hrails : d.fd.rails = false) (hpath : noPath (feedCharges feed d) = false) (repairs : List Nat) :
    coldStart feed repairs d = (feedCharges feed d |> resetDev (if d.fd.aon then 1 else 0) |> feedsShown (feedCharges feed d)
      |> updFd (fun f => { f with rails := true, aon := true }) |> wr Reg.PWR_PG 0 1 |> emit .pin [8, 1, 0] []
      |> forEach (List.range 9) (fun n d => wrI Reg.DEV_D2D_REPAIR 0 n (repairs.getD n 0) d)
      |> startUp ((if d.fd.aon then 1 else 0) + 1) (if d.fd.aon then 1 else 0)) := by
  have hstart : ¬ (d.fd.rails = true ∨ noPath (feedCharges feed d) = true) := by simp [hrails, hpath]
  unfold coldStart
  exact if_neg hstart

/-- The wipe's own fields as it ends. -/
def wipeEnded (d : Dev) : Dev :=
  d |> wr Reg.DEV_WIPE_BUSY 0 0 |> wrFit Reg.DEV_WIPE_TIME 0 ((d.th.localNs - d.boot.wipeStart) / 1000)

theorem wipeEnded_eff (d : Dev) : Eff 0x9 d (wipeEnded d) :=
  ((wr_eff Reg.DEV_WIPE_BUSY 0 0 d).mono (Sub.of rfl)).trans (wrFit_eff ..)

@[simp] theorem wipeEnded_boot (d : Dev) : (wipeEnded d).boot = d.boot := (wipeEnded_eff d).same (p := .boot) rfl (.inl rfl)

@[simp] theorem lcState_wipeEnded (d : Dev) : lcState (wipeEnded d) = lcState d := by
  have hotp : (wipeEnded d).otp = d.otp := (wipeEnded_eff d).same (p := .otp) rfl (.inl rfl)
  unfold lcState
  rw [hotp]

theorem wipeDone_verified {d : Dev} (hbusy : rd Reg.DEV_WIPE_BUSY 0 d = 1) (hrun : d.boot.running ≠ 0) (mem addr : Nat) :
    wipeDone true mem addr d = wipeGood (wipeEnded d) := by
  unfold wipeDone
  rw [if_neg (by omega)]
  rfl

/-- A wiped device past BLANK and not RETIRED, with a bank that runs, goes on to READY. -/
theorem wipeGood_ready {d : Dev} (hblank : lcState d ≠ 0) (hretired : lcState d ≠ 4) (hbank : d.boot.bankUp = true) :
    wipeGood d = (d |> wr Reg.DEV_WIPE_DONE 0 1 |> loadTable (decide (d.boot.running < 3)) |> applyImage (decide (d.boot.running < 3))
      |> structuresStart |> readyNow) := by
  unfold wipeGood
  rw [if_neg (by omega), if_neg (by rw [hbank]; decide)]

theorem perstHigh_rises {h : Nat} {d : Dev} (hgroup : h < 16) (hlow : bitOf (hostLvl 0 d) h = false) :
    perstHigh h d = (d |> setHostLvl 0 (setBit (hostLvl 0 d) h)
      |> forEach ((List.range 32).filter (fun x => wireAt x 0 d == h)) perstFollows
      |> (fun d => if ready d then uspTrain h d else d)) := by
  have hrise : ¬ (16 ≤ h ∨ bitOf (hostLvl 0 d) h = true) := by simp [hgroup, hlow]
  exact if_neg hrise

/-! ## Warm reset (R58, R73, R557) -/

theorem warmReset_runs {d : Dev} (hidle : d.boot.running = 0) (hfault : d.boot.fault = 0) (hup : rd Reg.DEV_STATE 0 d ≠ 0) (running : Nat) :
    warmReset running d = warmNow running d := by
  unfold warmReset
  rw [if_neg (by omega), if_neg (by omega)]

theorem ready_state {d : Dev} (h : ready d = true) : rd Reg.DEV_STATE 0 d = 6 := beq_iff_eq.mp h

/-- A served write of the confirm byte to WARM_RST. -/
theorem execWarmRst_served {s : State} {v : Word} (h : served 0x00 0 0x10C s.dev) (hbyte : bitsOf v.toNat 0 8 = 0xD7)
    (hidle : s.dev.boot.running = 0) (hfault : s.dev.boot.fault = 0) : execWarmRst v s = .next { s with dev := warmNow 3 s.dev } := by
  obtain ⟨hready, hmp, _⟩ := id h
  have hup : rd Reg.DEV_STATE 0 s.dev ≠ 0 := by
    rw [ready_state hready]
    decide
  have hrst : warmRst v s.dev = warmNow 3 s.dev := by
    unfold warmRst
    rw [hbyte]
    exact warmReset_runs hidle hfault hup 3
  refine onDev_eq ?_
  rw [hmp, if_neg Bool.false_ne_true, mgmtWrite_served h, hrst]

theorem execDeferredWarmReset_cooled {s : State} (hwaits : s.dev.boot.deferred = true) (hcool : cooled s.dev = true)
    (hidle : s.dev.boot.running = 0) : execDeferredWarmReset s = .next { s with dev := warmNow 3 s.dev } := by
  refine onDev_eq ?_
  rw [hwaits, hcool, hidle]
  rfl

/-! ## Island resets (R185, R186) -/

theorem islandReset_idle {i : Nat} {d : Dev} (h : rd Reg.ISL_RST_BUSY i d = 0) : islandReset i d = islandStop i d := if_neg (by omega)

theorem islandDone_busy {i : Nat} {d : Dev} (h : rd Reg.ISL_RST_BUSY i d = 1) : islandDone i d = (d
    |> forEach (towardIsland i d) (fun q d => d |> dropPkt q.id |> countReset i q)
    |> forEach (islandPorts i d) schedReset |> wr Reg.ISL_RST_BUSY i 0 |> raise Ev.ISLAND_RESET_DONE i |> islandStart i) := if_neg (by omega)

theorem writeTest_change {i test : Nat} {d : Dev} (hne : rd Reg.ISL_TEST i d ≠ test) (hi : i < 18) :
    writeTest i test d = (d |> wr Reg.ISL_TEST i test |> islandReset i) := if_neg (by omega)

theorem execIslReset_served {i : Nat} {s : State} (h : served 0x09 i 0x10C s.dev) (hi : i < 18) (hidle : rd Reg.ISL_RST_BUSY i s.dev = 0) :
    execIslReset i s = .next { s with dev := settleNet s.dev (islandStop i s.dev) } := by
  refine onNet_eq ?_
  rw [trigger_served h, decide_eq_true hi, onlyIf_true, islandReset_idle hidle]

theorem execIslTestWrite_served {i : Nat} {test : Bool} {s : State} (h : served 0x09 i 0x100 s.dev) (hi : i < 18)
    (hne : rd Reg.ISL_TEST i s.dev ≠ bnat test) :
    execIslTestWrite i test s = .next { s with dev := settleNet s.dev (s.dev |> wr Reg.ISL_TEST i (bnat test) |> islandReset i) } := by
  refine onNet_eq ?_
  dsimp only
  rw [mgmtWrite_served h, unlessLocked_served h, writeTest_change hne hi]

/-- Settles O34: each command comes to the one branch of its rule that the state names. -/
theorem resetsRun : Obligations.ResetsRun := by
  refine ⟨?_, ?_, ?_, ?_, ?_, ?_, ?_⟩
  · rintro s feed kind repairs x hfeed hrails rfl hpath rfl
    refine onDev_eq ?_
    rw [decide_eq_true hfeed, onlyIf_true]
    exact coldStart_runs hrails hpath repairs
  · rintro s mem addr d1 hbusy hrun rfl hblank hretired hbank
    refine onAll_eq ((wipeDone_verified hbusy (by omega) mem addr).trans ?_)
    rw [wipeGood_ready (by rwa [lcState_wipeEnded]) (by rwa [lcState_wipeEnded]) (by rwa [wipeEnded_boot]), wipeEnded_boot, hrun]
    rfl
  · exact fun s v h hbyte hidle hfault => execWarmRst_served h hbyte hidle hfault
  · exact fun s hwaits hcool hidle => execDeferredWarmReset_cooled hwaits hcool hidle
  · exact fun s h hgroup hlow => onAll_eq (perstHigh_rises hgroup hlow)
  · exact fun s i hi hidle => ⟨fun h => execIslReset_served h hi hidle, fun test h hne => execIslTestWrite_served h hi hne⟩
  · exact fun s i hbusy => onNet_eq (islandDone_busy hbusy)

end Sys2Proof.Machine
end

section
/-!
PROOFS. Edurn commands (R54 to R57, R62, R489, R498, R531), images that leave and enter the device (R81 to R84), and I3C (R38, R53, R55).
-/

namespace Sys2Proof.Machine

/-! ## Numbers in a payload (R54) -/

theorem leBytes_length (k n : Nat) : (leBytes k n).length = k := by
  induction k generalizing n with
  | zero => rfl
  | succ k ih => exact congrArg (· + 1) (ih (n / 256))

theorem beBytes_length (k n : Nat) : (beBytes k n).length = k := by
  rw [beBytes, List.length_reverse, leBytes_length]

theorem ofLe_leBytes (k n : Nat) : ofLe (leBytes k n) = n % 256 ^ k := by
  induction k generalizing n with
  | zero => exact (Nat.mod_one n).symm
  | succ k ih =>
    have hbyte : (BitVec.ofNat 8 n).toNat = n % 256 := BitVec.toNat_ofNat n 8
    rw [leBytes, ofLe, ih, hbyte, Nat.pow_succ', Nat.mod_mul]

theorem ofBe_beBytes (k n : Nat) : ofBe (beBytes k n) = n % 256 ^ k := by
  rw [ofBe, beBytes, List.reverse_reverse, ofLe_leBytes]

/-- The number a payload begins with. -/
theorem numIn_beBytes_append (k n : Nat) (data : List Byte) : numIn (beBytes k n ++ data) 0 k = n % 256 ^ k := by
  have htake : (beBytes k n ++ data).take k = beBytes k n := List.take_left' (beBytes_length k n)
  rw [numIn, List.drop_zero, htake, ofBe_beBytes]

/-! ## Commands in progress -/

theorem edBusy_congr {a b : Dev} (h : b.mg.running = a.mg.running) (path : Path) : edBusy path b = edBusy path a := by
  unfold edBusy
  rw [h]

theorem edBusy_edEnter (path : Path) (tag opc : Nat) (d : Dev) : edBusy path (edEnter path tag opc d) = true := by
  have hmem : (path, tag, opc) ∈ (edEnter path tag opc d).mg.running := List.mem_append_right _ (List.mem_singleton_self _)
  exact List.any_eq_true.mpr ⟨_, hmem, beq_self_eq_true path⟩

theorem edBusy_edPlaced (opc : Nat) (path : Path) (tag : Nat) (p : List Byte) (d : Dev) :
    edBusy path (edPlaced opc path tag p d) = edBusy path d := by
  unfold edPlaced
  split
  · exact edBusy_congr (congrArg Mgmt.running ((mbxPut_eff ..).same (p := .mg) rfl (.inl rfl))) path
  · rfl

theorem clearRc_mg (ty inst off : Nat) (d : Dev) : (clearRc ty inst off d).mg = d.mg := (clearRc_eff ty inst off d).same (p := .mg) rfl (.inl rfl)

theorem forEach_clearRc_mg (ty inst : Nat) (l : List Nat) (d : Dev) : (forEach l (clearRc ty inst) d).mg = d.mg :=
  (forEach_eff (.refl d) (clearRc_eff ty inst) : Eff 0x801 d _).same (p := .mg) rfl (.inl rfl)

theorem readAccess_running (path : Path) (a : Nat) (d : Dev) : (readAccess path a d).2.mg.running = d.mg.running := by
  unfold readAccess
  dsimp only
  split
  · rfl
  · split
    · rfl
    · split
      · rfl
      · split
        · rfl
        · rw [forEach_clearRc_mg, clearRc_mg]

theorem readWords_running (path : Path) (n a : Nat) (d : Dev) : (readWords path n a d).2.mg.running = d.mg.running := by
  induction n generalizing a d with
  | zero => rfl
  | succ n ih => exact (ih (a + 4) _).trans (readAccess_running path a d)

/-! ## Serving a command (R55) -/

theorem stOk_ne_stPending : stOk ≠ stPending := by decide

theorem stRefused_ne_stPending : stRefused ≠ stPending := by decide

theorem stBadOpcode_ne_stPending : stBadOpcode ≠ stPending := by decide

section
variable {opc : Nat} {path : Path} {tag : Nat} {p : List Byte} {act : Dev → EdRes} {d : Dev} {r : EdRes}

/-- With none in progress on its path and served in this state, a command that ends is answered. -/
theorem edServe_answers (hfree : edBusy path d = false) (hgate : edGate opc d = none) (hact : act (edEnter path tag opc d) = r)
    (hdone : r.status ≠ stPending) (hkept : edBusy path r.dev = true) : edServe opc path tag act d = edAnswered opc path tag r := by
  have hends : ¬ (r.status = stPending ∨ edBusy path r.dev = false) := by simp [hdone, hkept]
  unfold edServe
  rw [hfree, hgate, if_neg Bool.false_ne_true]
  dsimp only
  rw [hact, if_neg hends]
  rfl

theorem edCommand_answers (h : EdReady opc path tag p d) (hact : act (edEntered opc path tag p d) = r) (hdone : r.status ≠ stPending)
    (hkept : edBusy path r.dev = true) : edCommand opc path tag p act d = edAnswered opc path tag r := by
  obtain ⟨hserved, hfree, hmbx, hgate⟩ := h
  have hplace : (if path = .mailbox then mbxFrame (edFrame opc tag p) d else d) = edPlaced opc path tag p d := by
    unfold edPlaced
    split
    next hpath =>
      unfold mbxFrame
      rw [hmbx hpath, if_neg Bool.false_ne_true]
    next => rfl
  unfold edCommand
  rw [if_pos hserved]
  dsimp only
  rw [hplace]
  exact edServe_answers ((edBusy_edPlaced ..).trans hfree) hgate hact hdone hkept

/-- A command that leaves the commands in progress alone is still in progress as it ends. -/
theorem edBusy_of_running {e : Dev} (he : e = edEntered opc path tag p d) {x : Dev} (h : x.mg.running = e.mg.running) : edBusy path x = true := by
  subst he
  exact (edBusy_congr h path).trans (edBusy_edEnter ..)

variable {s : State} {e : Dev} (h : EdReady opc path tag p s.dev) (he : e = edEntered opc path tag p s.dev)
include h he

/-- A command with no need from outside that ends and leaves the commands in progress alone: it answers and its frame is done with. -/
theorem edRow_answers (hact : edAct ⟨[], true, 0⟩ opc path tag p e = r) (hdone : r.status ≠ stPending)
    (hkept : r.dev.mg.running = e.mg.running) :
    edRow opc path tag p s = .next { s with dev := edEnds opc path tag ⟨[], true, 0⟩ s.dev r } := by
  have hcmd := edCommand_answers h (he ▸ hact) hdone (edBusy_of_running he hkept)
  exact onAll_eq (congrArg (mbxRun ⟨[], true, 0⟩) hcmd)

end

/-! ## The commands (R55, R73, R498, R531) -/

theorem edRegRead_self {p : List Byte} {m a n : Nat} {d : Dev} (hlen : p.length = 6) (hplace : regPlace p = some (m, a, n))
    (hself : edSelf m d = true) (path : Path) (tag : Nat) :
    edRegRead path tag p d = edOk (readWords path n a d).1 (readWords path n a d).2 := by
  unfold edRegRead
  rw [hplace]
  dsimp only
  rw [if_neg (not_not_intro hlen), if_pos hself]

theorem edRegWrite_self {p : List Byte} {m a n : Nat} {d : Dev} {aux : Aux} {r : Nat × Dev} (hlen : p.length = 6 + 4 * n)
    (hplace : regPlace p = some (m, a, n)) (hself : edSelf m d = true)
    (hr : r = writeWords aux ((List.range n).map fun k => numIn p (6 + 4 * k) 4) a d) (path : Path) (tag : Nat) :
    edRegWrite aux path tag p d = if r.1 = 0 then edOk [] r.2 else edRefused r.1 r.2 := by
  subst hr
  unfold edRegWrite
  rw [hplace]
  dsimp only
  rw [if_neg (not_not_intro hlen), if_pos hself]

theorem edEvents_takes {p : List Byte} {n : Nat} (hlen : p.length = 1) (hn : numIn p 0 1 = n) (hmin : 1 ≤ n) (hmax : n ≤ 120) (d : Dev) :
    edEvents p d = edOk ((d.mg.events.take n).flatMap (fun x => beBytes 2 x.code ++ beBytes 4 x.addr))
      { d with mg := { d.mg with events := d.mg.events.drop n } } := by
  subst hn
  exact if_neg (by omega)

theorem logRead_entries {p : List Byte} {n : Nat} {es : List LogEntry} {x : LogEntry} {d : Dev} (hlen : p.length = 3) (hn : numIn p 2 1 = n)
    (hmin : 1 ≤ n) (hmax : n ≤ 31) (hes : es = (entriesFrom (numIn p 0 2) d.log.entries).take n) (hhead : es.head? = some x) :
    logRead p d = edOk (beBytes 2 x.seq ++ beBytes 1 es.length ++ es.flatMap entryBytes) d := by
  subst hn hes
  unfold logRead
  dsimp only
  rw [if_neg (by omega), hhead]

theorem edAct_other {opc : Nat} (hopc : 0x0D < opc) (aux : Aux) (path : Path) (tag : Nat) (p : List Byte) (d : Dev) :
    edAct aux opc path tag p d = edStat stBadOpcode d := by
  obtain ⟨k, rfl⟩ := Nat.exists_eq_add_of_lt hopc
  rw [Nat.add_right_comm, Nat.add_comm]
  rfl

/-- A frame on a path that takes commands: its length or its CRC condemns it, or it is served (R55, R56). -/
theorem otherFrame_cases {path : Path} {d : Dev} (hserved : edServed path d = true) (opc tag len : Nat) (crcOk : Bool) (p : List Byte) :
    otherFrame opc path tag len crcOk p d =
      if 1016 < len then edAnswer path opc tag stBadLength [] 0 d
      else if !crcOk then edAnswer path opc tag stCrcError [] 0 d
      else edServe opc path tag (edAct ⟨[], true, 0⟩ opc path tag p) d := by
  unfold otherFrame
  rw [hserved, if_neg (by decide)]

theorem edServe_busy {path : Path} {d : Dev} (h : edBusy path d = true) (opc tag : Nat) (act : Dev → EdRes) :
    edServe opc path tag act d = edAnswer path opc tag stBusy [] 0 d := if_pos h

/-- Settles O45: a command's row answers what `edAct` gives for it (`edRow_answers`), each in the case of its rule that the payload names. -/
theorem edurnCommandsServed : Obligations.EdurnCommandsServed := by
  refine ⟨fun s path tag e => ⟨?_, ?_, ?_, ?_, ?_, ?_, ?_, ?_⟩, fun s opc path tag len p hserved => ⟨fun hlong => ?_, fun hlen => ?_,
    fun hlen hbusy hopc => ?_, fun hlen hopc hfree hgate => ?_⟩⟩
  · exact fun h he => edRow_answers h he rfl stOk_ne_stPending rfl
  · rintro p m a n r h he hlen hplace hself rfl
    exact edRow_answers h he (edRegRead_self hlen hplace hself path tag) stOk_ne_stPending (readWords_running ..)
  · intro p m a n aux r h he hlen hplace hself hr hkept
    have hact := edRegWrite_self hlen hplace hself hr path tag
    refine ⟨fun hok => ?_, fun hrefused => ?_⟩
    · have hcmd := edCommand_answers h (he ▸ hact.trans (if_pos hok)) stOk_ne_stPending hkept
      exact onAll_eq (congrArg (mbxRun aux) hcmd)
    · have hcmd := edCommand_answers h (he ▸ hact.trans (if_neg hrefused)) stRefused_ne_stPending hkept
      exact onAll_eq (congrArg (mbxRun aux) hcmd)
  · exact fun p n h he hlen hn hmin hmax => edRow_answers h he (edEvents_takes hlen hn hmin hmax e) stOk_ne_stPending rfl
  · exact fun p n es x h he hlen hn hmin hmax hes hhead =>
      edRow_answers h he (logRead_entries hlen hn hmin hmax hes hhead) stOk_ne_stPending rfl
  · exact fun h he => edRow_answers h he rfl stOk_ne_stPending rfl
  · rintro p rfl h he
    exact edRow_answers h he rfl stOk_ne_stPending rfl
  · exact fun h he => edRow_answers h he rfl stOk_ne_stPending rfl
  · refine onAll_eq (congrArg (mbxRun _) ?_)
    rw [otherFrame_cases hserved, if_pos hlong]
  · refine onAll_eq (congrArg (mbxRun _) ?_)
    rw [otherFrame_cases hserved, if_neg (by omega)]
    exact if_pos rfl
  · refine onAll_eq (congrArg (mbxRun _) ?_)
    rw [otherFrame_cases hserved, if_neg (by omega), if_neg (by decide), edServe_busy hbusy]
  · refine onAll_eq (congrArg (mbxRun _) ?_)
    rw [otherFrame_cases hserved, if_neg (by omega), if_neg (by decide)]
    exact edServe_answers hfree hgate (edAct_other hopc ..) stBadOpcode_ne_stPending (edBusy_edEnter ..)

/-! ## IMAGE_EXPORT (R81, R82) -/

theorem exportImage_length_pos (d : Dev) : 0 < (exportImage d).length := by
  unfold exportImage
  dsimp only
  rw [List.length_append, beBytes_length]
  omega

theorem exportChunk_held {n : Nat} {img : List Byte} {d : Dev} (hsnap : d.boot.snapshot = some img) (hin : 1008 * n < img.length) :
    exportChunk n d = edOk (beBytes 4 n ++ (img.drop (1008 * n)).take 1008) d := by
  unfold exportChunk
  rw [hsnap]
  exact if_neg (by omega)

section
variable {p : List Byte} {d : Dev} (hlen : p.length = 4) (hon : stacksOn d = true)
include hlen hon

/-- Chunk 0 takes the snapshot, unless the image is too long. -/
theorem edExport_first (h0 : numIn p 0 4 = 0) : edExport p d =
    if 5767168 < (exportImage d).length then edRefused Cfg.IMG_SECTION { d with boot := { d.boot with snapshot := none } }
    else edOk (beBytes 4 0 ++ (exportImage d).take 1008) { d with boot := { d.boot with snapshot := some (exportImage d) } } := by
  unfold edExport
  dsimp only
  rw [if_neg (not_not_intro hlen), hon, if_neg (by decide), if_pos h0, exportChunk_held rfl (exportImage_length_pos d)]
  rfl

theorem edExport_next {n : Nat} {img : List Byte} (hn : numIn p 0 4 = n) (h0 : n ≠ 0) (hsnap : d.boot.snapshot = some img)
    (hin : 1008 * n < img.length) : edExport p d = edOk (beBytes 4 n ++ (img.drop (1008 * n)).take 1008) d := by
  unfold edExport
  dsimp only
  rw [hn, if_neg (not_not_intro hlen), hon, if_neg (by decide), if_neg h0, exportChunk_held hsnap hin]

end

/-! ## IMAGE_IMPORT (R83, R84) -/

/-- A data chunk within its sizes is written to the inactive slot, the first after the slot is cleared. -/
theorem edImport_chunk {n : Nat} {data : List Byte} {d d1 d2 : Dev} (hn : n < 5722) (hlen : data.length ≤ 1008)
    (hfit : 1008 * n + data.length ≤ 5767168) (hd1 : d1 = if d.boot.chunks.isEmpty then putSlot (inactiveSlot d) [] false d else d)
    (hd2 : d2 = putSlot (inactiveSlot d) (putBytes (imageSlot (inactiveSlot d) d1) (1008 * n) data) false d1) :
    edImport (beBytes 4 n ++ data) d =
      edOk [] { d2 with boot := { d2.boot with chunks := if d2.boot.chunks.contains n then d2.boot.chunks else n :: d2.boot.chunks } } := by
  have hnum : numIn (beBytes 4 n ++ data) 0 4 = n := (numIn_beBytes_append 4 n data).trans (Nat.mod_eq_of_lt (by omega))
  have hdrop : (beBytes 4 n ++ data).drop 4 = data := List.drop_left' (beBytes_length 4 n)
  have hsize : ¬ (1008 < data.length ∨ imgMax < 1008 * n + data.length) := by
    unfold imgMax
    omega
  subst hd1 hd2
  unfold edImport
  dsimp only
  rw [hnum, hdrop, List.length_append, beBytes_length, if_neg (by omega), if_neg (by omega), importChunk, if_neg hsize]

/-- The two numbers that end an import are no chunk. -/
theorem edImport_end {n : Nat} (hn : n = 0xFFFFFFFF ∨ n = 0xFFFFFFFE) (d : Dev) :
    edImport (beBytes 4 n) d = if n = 0xFFFFFFFF then importCommit d else importClear d := by
  have hnum : numIn (beBytes 4 n) 0 4 = n := by
    have h := numIn_beBytes_append 4 n []
    rw [List.append_nil] at h
    exact h.trans (Nat.mod_eq_of_lt (by omega))
  unfold edImport
  dsimp only
  rw [hnum, beBytes_length, if_neg (by decide), if_pos hn, if_neg (by decide)]

theorem importCommit_good {k : Nat} {d d1 : Dev} (hk : inactiveSlot d = k) (hok : importErr d = 0)
    (hd1 : d1 = (d |> importTable (imageSlot k d) |> putSlot k (imageSlot k d) true)) :
    importCommit d = edOk [] { d1 with boot := { d1.boot with active := some k, chunks := [] } } := by
  subst hk hd1
  exact if_neg (not_not_intro hok)

theorem importCommit_bad {d : Dev} (hbad : importErr d ≠ 0) :
    importCommit d = ⟨cfgErr 0x00 0 8 (importErr d) 0xFFFFFFFF d, stRefused, beBytes 2 (importErr d), 0⟩ := if_pos hbad

theorem importTable_mg (m : SMap Byte) (d : Dev) : (importTable m d).mg = d.mg := (importTable_eff m d).same (p := .mg) rfl (.inl rfl)

/-! ## I3C (R38, R53, R55) -/

theorem execI3cEntdaa_up {s : State} {a : Nat} (hup : i3cUp s.dev = true) (ha : a < 128) :
    execI3cEntdaa a s = .next { s with dev := { s.dev with mg := { s.dev.mg with dynAddr := some a } } } := by
  refine onDev_eq ?_
  rw [hup, decide_eq_true ha]
  rfl

theorem execIbiRaise_held {s : State} {a : Nat} (hup : i3cUp s.dev = true) (hheld : s.dev.mg.ibiHeld = true)
    (hadr : s.dev.mg.dynAddr = some a) (hen : rd Reg.DEV_I3C_IBI 0 s.dev = 1) :
    execIbiRaise s = .next { s with dev := emit .ibi [] [] { s.dev with mg := { s.dev.mg with ibiHeld := false } } } := by
  refine onDev_eq ?_
  rw [hheld, hup, hadr, hen]
  rfl

theorem responseRead_oldest {r : EdurnResp} {rs : List EdurnResp} {d : Dev} (hup : i3cUp d = true) (hready : d.mg.ready = r :: rs) :
    responseRead d = ({ d with mg := { d.mg with ready := rs } }
      |> emit .edurn [3, r.tag, r.opc % 128 + 128, r.status] r.payload |> afterResponse r.after) := by
  unfold responseRead
  rw [hready]
  exact if_pos hup

/-- Settles O46: each chunk comes to its case of `edExport` or `edImport`, each I3C command to the branch its path's state names. -/
theorem imagesAndResponsesAct : Obligations.ImagesAndResponsesAct := by
  refine ⟨fun s path tag e => ⟨fun p n img h he hlen hon hn => ⟨?_, ?_⟩, ?_, fun p k hp h he hk => ⟨?_, ?_⟩, ?_⟩, fun s => rfl,
    fun s hup => ⟨?_, ?_, ?_⟩⟩
  · rintro h0 rfl
    refine edRow_answers h he (edExport_first hlen hon (hn.trans h0)) ?_ ?_
    · split
      · exact stRefused_ne_stPending
      · exact stOk_ne_stPending
    · split <;> rfl
  · exact fun h0 hsnap hin => edRow_answers h he (edExport_next hlen hon hn h0 hsnap hin) stOk_ne_stPending rfl
  · rintro n data p rfl h he hn hlen hfit d1 hd1 d2 hd2
    refine edRow_answers h he (edImport_chunk hn hlen hfit hd1 hd2) stOk_ne_stPending ?_
    subst hd1 hd2
    split <;> rfl
  · rintro hok d1 rfl
    subst hp
    refine edRow_answers h he ((edImport_end (.inl rfl) e).trans (importCommit_good hk hok rfl)) stOk_ne_stPending ?_
    exact congrArg Mgmt.running (importTable_mg ..)
  · intro hbad
    subst hp
    exact edRow_answers h he ((edImport_end (.inl rfl) e).trans (importCommit_bad hbad)) stRefused_ne_stPending (cfgErr_running ..)
  · rintro p d1 rfl h he rfl
    exact edRow_answers h he (edImport_end (.inr rfl) e) stOk_ne_stPending rfl
  · exact fun a ha => execI3cEntdaa_up hup ha
  · exact fun a hheld hadr hen => execIbiRaise_held hup hheld hadr hen
  · exact fun r rs hready => onDev_eq (responseRead_oldest hup hready)

end Sys2Proof.Machine
end

section
/-!
PROOFS. The stamps of errors and of trouble log entries before fabric time is valid (R64, R529), and the members of a composite (R87, R88, R416,
R417).
-/

namespace Sys2Proof.Machine

/-! ## The first error's stamp (R39, R64) -/

theorem stampValid_eq_false {d : Dev} (h : timeValid d = false) : stampValid d = false := by
  unfold stampValid
  rw [h, Bool.false_and]

theorem stampNs_invalid {d : Dev} (h : timeValid d = false) : stampNs d = d.th.localNs := by
  unfold stampNs
  rw [stampValid_eq_false h]
  rfl

/-- The stamp of a first error: whether it is local, and its time. -/
theorem recordFirst_stamp {ty inst : Nat} {d : Dev} (hwf : smWf coldWord d.regs) (hvalid : hrd Reg.PG_VALID ty inst d = 0) (off code : Nat) :
    hrd Reg.PG_TS_LOCAL ty inst (recordFirst ty inst off code d) = bnat (!stampValid d) ∧
      hrd Reg.PG_ERR_TS ty inst (recordFirst ty inst off code d) = stampNs d % 2 ^ 32 := by
  have hrec : recordFirst ty inst off code d = (d |> hwr Reg.PG_VALID ty inst 1 |> hwr Reg.PG_TS_LOCAL ty inst (bnat (!stampValid d))
      |> hwr Reg.PG_WORD ty inst (off / 4) |> hwr Reg.PG_CODE ty inst code |> hwr Reg.PG_ERR_TS ty inst (stampNs d % 2 ^ 32)) :=
    if_neg (by omega)
  have h1 := hwr_wf (ty := ty) (inst := inst) hwf Reg.PG_VALID 1
  have h2 := hwr_wf (ty := ty) (inst := inst) h1 Reg.PG_TS_LOCAL (bnat (!stampValid d))
  have h3 := hwr_wf (ty := ty) (inst := inst) h2 Reg.PG_WORD (off / 4)
  have h4 := hwr_wf (ty := ty) (inst := inst) h3 Reg.PG_CODE code
  rw [hrec]
  constructor
  · rw [hrd_hwr_otherWord h4 (by decide), hrd_hwr_disjoint h3 (by decide) (by decide) (by decide),
      hrd_hwr_disjoint h2 (by decide) (by decide) (by decide), hrd_hwr_same h1 (by decide)]
    cases stampValid d <;> rfl
  · rw [hrd_hwr_same h4 (by decide)]
    exact Nat.mod_mod _ _

/-! ## The stamps of trouble log entries (R64, R529, R530) -/

/-- An entry marked local, stamped at local time `t`. -/
def localEntry (t : Nat) (x : LogEntry) : Prop := x.tsLocal = true ∧ x.ltime = t % 2 ^ 64 ∧ x.ftime = 0

/-- At local time `t`, fabric time not valid: whatever entry is not among the old ones is marked local and stamped then. -/
structure LogsLocally (t : Nat) (old : List LogEntry) (d : Dev) : Prop where
  wf : smWf coldWord d.regs
  invalid : timeValid d = false
  clock : d.th.localNs = t
  entries : ∀ x ∈ d.log.entries, x ∈ old ∨ localEntry t x

namespace LogsLocally

theorem start {d : Dev} (hwf : smWf coldWord d.regs) (hinv : timeValid d = false) : LogsLocally d.th.localNs d.log.entries d :=
  ⟨hwf, hinv, rfl, fun _ => .inl⟩

variable {t : Nat} {old : List LogEntry} {d : Dev} (h : LogsLocally t old d)
include h

/-- A change that leaves the registers and the clocks, and adds only entries that the log may hold. -/
theorem of_regs {e : Dev} (hregs : e.regs = d.regs) (hth : e.th = d.th) (hlog : ∀ x ∈ e.log.entries, x ∈ d.log.entries ∨ localEntry t x) :
    LogsLocally t old e where
  wf := hregs ▸ h.wf
  invalid := by
    rw [← h.invalid]
    unfold timeValid rd rdI wordAt
    rw [hregs]
  clock := hth ▸ h.clock
  entries x hx := (hlog x hx).elim (h.entries x) .inr

/-- A change that leaves the registers, the clocks and the entries. -/
theorem of_entries {e : Dev} (hregs : e.regs = d.regs) (hth : e.th = d.th) (hlog : e.log.entries = d.log.entries) : LogsLocally t old e :=
  h.of_regs hregs hth fun _ hx => .inl (hlog ▸ hx)

theorem onlyIf {f : Dev → Dev} (hf : ∀ {d}, LogsLocally t old d → LogsLocally t old (f d)) (c : Bool) : LogsLocally t old (onlyIf c f d) := by
  cases c with
  | false => exact h
  | true => exact hf h

/-- A write of a field that does not lie in TIM_VALID's word. -/
theorem wrI {f : Fld} {inst i : Nat} (hne : fldAddr Reg.TIM_VALID 0 0 ≠ fldAddr f inst i) (v : Nat) :
    LogsLocally t old (wrI f inst i v d) where
  wf := wrI_wf _ _ _ _ _ h.wf
  invalid := by
    rw [← h.invalid]
    unfold timeValid rd
    rw [rdI_wrI_ne h.wf hne]
  clock := (congrArg TimeHzn.localNs (setWord_th ..)).trans h.clock
  entries x hx := h.entries x ((congrArg Log.entries (setWord_log ..)) ▸ hx)

theorem addI {f : Fld} {inst i : Nat} (hne : fldAddr Reg.TIM_VALID 0 0 ≠ fldAddr f inst i) (n : Nat) :
    LogsLocally t old (addI f inst i n d) := by
  have hfree : LogsLocally t old (takeFree d) := h.of_entries rfl rfl rfl
  unfold Machine.addI
  split
  · exact h.wrI hne _
  · exact hfree.wrI hne _

theorem newEntry (code inst sup : Nat) (det0 det1 : Word) (injected cfg : Bool) :
    localEntry t (newEntry code inst sup det0 det1 injected cfg d) := by
  unfold Machine.newEntry
  rw [stampValid_eq_false h.invalid, h.clock]
  exact ⟨rfl, rfl, rfl⟩

/-- Whether the log has room, overwrites or drops, a new entry is the one pushed with its SEQ. -/
theorem pushEntry {e : LogEntry} (he : localEntry t e) : LogsLocally t old (pushEntry e d) := by
  have hnew (l : List LogEntry) (n : Nat) : ∀ x ∈ l ++ [{ e with seq := n }], x ∈ l ∨ localEntry t x := fun x hx =>
    (List.mem_append.mp hx).imp_right fun hx => by rwa [List.mem_singleton.mp hx]
  have hseq {x : Dev} (hx : LogsLocally t old x) : LogsLocally t old (addMod Reg.LOG_NEXT_SEQ 0 0 1 x) := hx.wrI (by decide) _
  unfold Machine.pushEntry
  split
  · refine hseq ?_
    exact h.of_regs rfl rfl (hnew _ _)
  · split
    · exact h.addI (by decide) 1
    · refine hseq ?_
      exact h.of_regs rfl rfl fun x hx => (hnew _ _ x hx).imp_left List.mem_of_mem_tail

theorem logWrite (code inst : Nat) (det0 det1 : Word) (injected cfg : Bool) :
    LogsLocally t old (logWrite code inst det0 det1 injected cfg d) := by
  have hcount {x : Dev} (hx : LogsLocally t old x) : LogsLocally t old (bump Reg.LOG_SUPPRESSED 0 x) := hx.addI (by decide) 1
  unfold Machine.logWrite
  dsimp only
  split
  · refine hcount ?_
    exact h.of_entries rfl rfl rfl
  · refine LogsLocally.pushEntry ?_ (h.newEntry ..)
    exact h.of_entries rfl rfl rfl

theorem deliver (code ty inst : Nat) : LogsLocally t old (deliver code ty inst d) :=
  have heff := deliver_eff code ty inst d
  h.of_entries (heff.same (p := .regs) rfl (.inl rfl)) (heff.same (p := .th) rfl (.inl rfl))
    (congrArg Log.entries (heff.same (p := .log) rfl (.inl rfl)))

theorem riseBit (ty inst bit code : Nat) : LogsLocally t old (riseBit ty inst bit code d) := by
  have hpend : fldAddr Reg.TIM_VALID 0 0 ≠ fldAddr (Reg.PG_EVT_PEND.ofType ty) inst 0 := fun heq =>
    absurd ((congrArg (· % 4096) heq).trans (regAddr_offset ty inst (off := 0x18) (by decide))) (by decide)
  unfold Machine.riseBit
  dsimp only
  split
  · exact (h.wrI hpend _).deliver ..
  · exact h

theorem rise (ty inst bit code : Nat) (det0 det1 : Word) (injected cfg : Bool) :
    LogsLocally t old (rise ty inst bit code det0 det1 injected cfg d) := (h.riseBit ..).logWrite ..

/-- The alarms that the log itself raises write entries as every event does. -/
theorem logAlarms (before : Dev) : LogsLocally t old (logAlarms before d) := by
  unfold Machine.logAlarms
  dsimp only
  refine LogsLocally.onlyIf (h.onlyIf (fun hd => hd.rise ..) _) (fun hd => ?_) _
  refine LogsLocally.rise ?_ ..
  exact hd.of_entries rfl rfl rfl

theorem raiseDet (e : Ev) (inst : Nat) (det0 det1 : Word) : LogsLocally t old (raiseDet e inst det0 det1 d) := (h.rise ..).logAlarms d

end LogsLocally

/-- Settles O59: the first error's stamp is `recordFirst_stamp`, and what raising an event writes is stamped as `LogsLocally` says. -/
theorem localStampsBeforeValidTime : Obligations.LocalStampsBeforeValidTime := by
  refine fun d hwf hinv => ⟨fun ty inst off code hfree => ?_, fun e inst det0 det1 x hx => ?_⟩
  · obtain ⟨hlocal, htime⟩ := recordFirst_stamp hwf hfree off code
    rw [hlocal, htime, stampValid_eq_false hinv, stampNs_invalid hinv]
    exact ⟨rfl, rfl⟩
  · exact ((LogsLocally.start hwf hinv).raiseDet e inst det0 det1).entries x hx

/-! ## The members of a composite (R87, R88, R416, R417) -/

/-- A record of another device that is not among those heard is kept and flooded (R87). -/
theorem rollCall_news {port : Nat} {r : RollRec} {d : Dev} (hrun : cmpRuns d = true) (hport : toDx7 port d = true)
    (hother : r.serial ≠ d.otp.serial) (hnew : r ∉ d.cmp.heard) : rollCall port r d =
      (d |> updCmp (fun c => { c with heard := c.heard.filter (fun x => x.serial != r.serial) ++ [r] })
        |> forEach ((List.range 144).filter (fun p => p != port && toDx7 p d)) (fun p => sendRoll p r)) := by
  unfold rollCall
  simp only [hrun, hport, beq_false_of_ne hother, List.contains_eq_mem, hnew, decide_false, Bool.not_true, Bool.or_self, Bool.false_eq_true, if_false]

/-- The composite of the members admitted forms where this device is one of them and an anchor is found (R87, R88). -/
theorem membership_forms {d : Dev} {a : RollRec} (hrun : cmpRuns d = true) (hjoin : d.cmp.standalone = false)
    (hown : ∃ r ∈ admitted (callers d), r.serial = d.otp.serial) (hanchor : chooseAnchor d.cmp.anchorId (admitted (callers d)) = some a)
    (cvhs : List (Nat × Nat × Nat)) (lids grants : List (Nat × Nat)) : membership cvhs lids grants d =
      formComposite (admitted (callers d)) a (decide ((admitted (callers d)).length < (callers d).length)) cvhs lids grants d := by
  obtain ⟨r, hr, hserial⟩ := hown
  have hin : ¬ ((admitted (callers d)).all (fun r => r.serial != d.otp.serial)) = true := fun hall =>
    absurd hserial (bne_iff_ne.mp (List.all_eq_true.mp hall r hr))
  unfold membership
  simp only [hrun, hjoin, Bool.not_true, Bool.or_self, Bool.false_eq_true, if_false, if_neg hin, hanchor]

/-- On the anchor a HANDOVER tells its standby and gives it the role (R416, R421). -/
theorem handover_anchor {b : Nat} {d : Dev} (hrole : d.cmp.role = 3) (hstandby : d.cmp.standbyId = some b) :
    handover d = (d |> sendHeartbeat 1 |> addMod Reg.CMP_ANCHOR_EPOCH 0 0 1 |> (fun d => setRoles (some b) (standbyFor (some b) d) d)) := by
  unfold handover
  simp only [hrole, hstandby]

theorem heartbeat_known {anchor epoch serial : Nat} {d : Dev} (hrun : cmpRuns d = true) (hid : anchor < 64) (hepoch : epoch < 65536)
    (hother : serial ≠ d.otp.serial) (hrole : d.cmp.role ≠ 0) (hanchor : d.cmp.anchorId = some anchor) (standby : Nat) :
    heartbeat anchor standby epoch serial d = anchorHeard anchor standby epoch d := by
  unfold heartbeat
  simp only [hrun, decide_eq_false (Nat.not_le.mpr hid), decide_eq_false (Nat.not_le.mpr hepoch), beq_false_of_ne hother, beq_false_of_ne hrole,
    Bool.not_true, Bool.or_self, Bool.false_eq_true, if_false, hanchor, if_true]

/-- On the standby HB_LOSS removes the anchor known and takes over (R88, R416). -/
theorem hbLoss_standby {a : Nat} {d : Dev} (hrun : cmpRuns d = true) (hrole : d.cmp.role = 2) (hanchor : d.cmp.anchorId = some a) :
    hbLoss d = (d |> addI Reg.CMP_HB_MISS 0 0 (rd Reg.CMP_HB_LOSS 0 d)
      |> updCmp (fun c => { c with
          ids := c.ids.filter (fun x => !(d.cmp.ids.filter (fun x => x.2 == a)).contains x)
          heard := c.heard.filter (fun r => (d.cmp.ids.filter (fun x => x.2 == a)).all (fun x => x.1 != r.serial)) })
      |> takeOver) := by
  unfold hbLoss
  simp only [hrun, hrole, hanchor, bne_self_eq_false, Bool.not_true, Bool.or_self, Bool.false_eq_true, if_false]

/-- Settles O21: each command comes to the one case of its rule that the state names. -/
theorem compositeMembersAct : Obligations.CompositeMembersAct := by
  refine ⟨?_, ?_, fun s b hrun hrole hstandby => ⟨?_, fun hserved => ?_⟩, ?_, fun s a gone hrun hrole => ⟨?_, fun hanchor hgone => ?_⟩⟩
  · rintro s port serial prio pref anchor id r hrun hport rfl hother hnew
    exact onAll_eq (rollCall_news hrun hport hother hnew)
  · rintro s cvhs lids grants l a hrun hjoin rfl hown hanchor
    exact onAll_eq (membership_forms hrun hjoin hown hanchor cvhs lids grants)
  · refine onDev_eq ?_
    rw [hrun, hrole, hstandby]
    rfl
  · refine onAll_eq ?_
    rw [if_neg Bool.false_ne_true, trigger_served hserved]
    exact handover_anchor hrole hstandby
  · exact fun s anchor standby epoch serial hrun hid hepoch hother hrole hanchor =>
      onAll_eq (heartbeat_known hrun hid hepoch hother hrole hanchor standby)
  · refine onAll_eq ?_
    rw [if_pos rfl, hrun, hrole]
    rfl
  · subst hgone
    exact onAll_eq (hbLoss_standby hrun hrole hanchor)

end Sys2Proof.Machine
end

section
/-!
PROOFS. Lanes: bring-up step by step (R103 to R111, R142, R493), background trim, test patterns, eye scans and spare requests (R101, R110, R112,
R115 to R119).
-/

namespace Sys2Proof.Machine

/-! ## Steps 1 to 3 of bring-up (R103 to R106, R142, R493) -/

section
variable {n p : Nat} {d : Dev} (hport : bringupPort n d = some p)
include hport

theorem laneSignalDetect_detects (hstate : rd Reg.LANE_BSTATE n d = 1) : laneSignalDetect n d =
    (d |> signalWake p |> wr Reg.LANE_BSTATE n 2 |> stepIf p 1 2
      |> (fun x => onlyIf ((portOf p d).step == 1 && (portOf p x).step == 2) (updPort p (fun q => { q with began := x.th.localNs })) x)) := by
  unfold laneSignalDetect
  simp only [hport, hstate, beq_self_eq_true, onlyIf_true]

/-- Lock gained outside qualification forgets the lock lost before. -/
theorem laneSymbolLock_locks (hstate : rd Reg.LANE_BSTATE n d = 2) : laneSymbolLock n d =
    (d |> wr Reg.LANE_LOCKED n 1 |> updLane n (fun l => { l with lost := false, misses := 0 }) |> wr Reg.LANE_BSTATE n 3
      |> stepIf p 1 2 |> stepIf p 2 3) := by
  have hlost (b : Bool) : (b && 2 == 4) = false := Bool.and_false b
  unfold laneSymbolLock
  simp only [hport, hstate, hlost, beq_self_eq_true, Bool.or_true, onlyIf_true]

theorem laneLockLoss_locked (hlocked : rd Reg.LANE_LOCKED n d = 1) : laneLockLoss n d =
    (d |> wr Reg.LANE_LOCKED n 0 |> bump Reg.LANE_LOCK_LOSS n
      |> updLane n (fun l => { l with lost := true, lostTime := rd Reg.LNK_LOCK_LOSS_TIME p d })) := by
  unfold laneLockLoss
  rw [if_pos hlocked, hport]

/-- A lane at step 3 keeps the marker and its polarity; the last one awaited decides. -/
theorem laneMarkerRx_marks {raw : Nat} {m : Marker} {inv : Bool} (hmarker : decodeMarker raw = some (m, inv))
    (hstate : rd Reg.LANE_BSTATE n d = 3) {d1 : Dev}
    (hd1 : d1 = (d |> updLane n (fun l => { l with marker := some m }) |> wr Reg.LANE_POL_INV n (bnat inv))) :
    laneMarkerRx n raw d =
      if (portOf p d1).step = 3 ∧ (awaited p d1).all (fun x => (markerOf x d1).isSome) then decideMarkers p d1 else d1 := by
  subst hd1
  unfold laneMarkerRx
  simp only [hmarker, hport]
  exact if_pos hstate

end

/-! ## Qualification, missed bounds and retries (R104, R106 to R111) -/

/-- The lanes of a port that are not carried by the spare and not failed end their qualification. -/
def lanesJudged (p : Nat) (res : List (Nat × Nat)) (pfail : List Nat) (d : Dev) : Dev :=
  forEach (List.range (portWidth p d)) (fun k d =>
    if rd Reg.LANE_SUBSTITUTED (portLane p k) d = 1 ∨ (laneOf (portLane p k) d).failed then d
    else qualLane p (portLane p k) (res.getD k (0, 0)).1 (res.getD k (0, 0)).2 (pfail.contains k) d) d

section
variable {p : Nat} {d : Dev} (hstep : (portOf p d).step = 4) (res : List (Nat × Nat)) (pfail : List Nat) (spare : Option (Nat × Nat))
include hstep

/-- A substitution shown is judged for the position it was held for. -/
theorem qualificationEnd_held {k : Nat}
    (hshown : (List.range (portWidth p d)).find? (fun k => rd Reg.LANE_SUBSTITUTED (portLane p k) d == 1) = some k) :
    qualificationEnd p res pfail spare d = (lanesJudged p res pfail d
      |> judgeHeld p (portLane p k % 9) spare (pfail.contains (portWidth p (lanesJudged p res pfail d))) |> widthDecision p) := by
  unfold qualificationEnd
  rw [if_pos hstep, hshown]
  rfl

/-- With no substitution shown the spare may take a position that wants it. -/
theorem qualificationEnd_unheld (hnone : ∀ k < portWidth p d, rd Reg.LANE_SUBSTITUTED (portLane p k) d ≠ 1) :
    qualificationEnd p res pfail spare d = (lanesJudged p res pfail d
      |> substitute p spare (pfail.contains (portWidth p (lanesJudged p res pfail d))) |> widthDecision p) := by
  have hshown : (List.range (portWidth p d)).find? (fun k => rd Reg.LANE_SUBSTITUTED (portLane p k) d == 1) = none := by
    rw [List.find?_range_eq_none]
    exact fun k hk => bne_iff_ne.mpr (hnone k hk)
  unfold qualificationEnd
  rw [if_pos hstep, hshown]
  rfl

end

/-- Step 2 missed counts on the awaited lanes without lock, and the attempt restarts. -/
theorem bringupStepTimeout_lock {p : Nat} {d : Dev} (hstep : (portOf p d).step = 2) (lanes : List Nat) :
    bringupStepTimeout p 2 lanes d =
      (d |> forEach ((awaited p d).filter (fun n => rd Reg.LANE_LOCKED n d == 0)) (missLane 2) |> startBringup p) := by
  unfold bringupStepTimeout
  rw [hstep]
  rfl

theorem bringupRetryTimer_afresh {p : Nat} {d : Dev} (hretry : (portOf p d).retry = 2) :
    bringupRetryTimer p d = (d |> lanesAfresh p |> startBringup p) := by
  unfold bringupRetryTimer
  rw [hretry]
  rfl

/-- Settles O35: each lane or port comes to the branch of its rule that its step and its state name. -/
theorem lanesComeUp : Obligations.LanesComeUp := by
  refine ⟨fun s n p hport => ⟨?_, ?_, ?_, ?_⟩, ?_, ?_, ?_⟩
  · exact fun hstate => onNet_eq (laneSignalDetect_detects hport hstate)
  · exact fun hstate => onNet_eq (laneSymbolLock_locks hport hstate)
  · exact fun hlocked => onNet_eq (laneLockLoss_locked hport hlocked)
  · exact fun raw m inv d1 hmarker hstate hd1 => onNet_eq (laneMarkerRx_marks hport hmarker hstate hd1)
  · rintro s p res pfail spare d1 hstep rfl
    exact ⟨fun k hshown => onNet_eq (qualificationEnd_held hstep res pfail spare hshown),
      fun hnone => onNet_eq (qualificationEnd_unheld hstep res pfail spare hnone)⟩
  · exact fun s p lanes hstep => onNet_eq (bringupStepTimeout_lock hstep lanes)
  · exact fun s p hretry => onNet_eq (bringupRetryTimer_afresh hretry)

/-! ## Trim and test patterns (R101, R112) -/

theorem prbsLost_checked {n errs bits e b : Nat} {d : Dev} (hchk : rd Reg.LANE_CHK_EN n d = 1)
    (he : e = min (rd2 Reg.LANE_PRBS_ERR_LO Reg.LANE_PRBS_ERR_HI n 0 d + errs) (2 ^ 48 - 1))
    (hb : b = min (rd2 Reg.LANE_PRBS_BITS_LO Reg.LANE_PRBS_BITS_HI n 0 d + bits) (2 ^ 48 - 1)) :
    prbsLost n errs bits d = (d
      |> wr2 Reg.LANE_PRBS_ERR_LO Reg.LANE_PRBS_ERR_HI n 0 e |> wr2 Reg.LANE_PRBS_BITS_LO Reg.LANE_PRBS_BITS_HI n 0 b
      |> onlyIf (e == 2 ^ 48 - 1 || b == 2 ^ 48 - 1) (wr Reg.LANE_CHK_SAT n 1)
      |> raise Ev.PRBS_LOST n |> wr Reg.LANE_CHK_LOCK n 1) := by
  subst he hb
  exact if_pos hchk

/-! ## Eye scans (R115, R116) -/

theorem eyeStartTrig_up {n : Nat} {d : Dev} (hup : rd Reg.LANE_BSTATE n d = 7) : eyeStartTrig n d =
    (d |> updLane n (fun l => { l with eye := [] }) |> wr Reg.LANE_EYE_POINTS n 0
      |> wr Reg.LANE_EYE_BUSY n 1 |> wr Reg.LANE_EYE_DONE n 0 |> wr Reg.LANE_EYE_ABORTED n 0) := if_pos (.inl hup)

theorem eyeAbort_busy {n : Nat} {d : Dev} (hbusy : rd Reg.LANE_EYE_BUSY n d = 1) : eyeAbort n d = (takeFree d
    |> eyeStore n (free 13 d % (gridPoints n d + 1)) (fun i => freePoint i (takeFree d)) |> takeFree
    |> wr Reg.LANE_EYE_BUSY n 0 |> wr Reg.LANE_EYE_ABORTED n 1 |> wr Reg.LANE_EYE_DONE n 1 |> raise Ev.EYE_DONE n) := if_pos hbusy

/-- Storing the first points of a grid uses no error count beyond them. -/
theorem eyeStore_congr {k : Nat} {f g : Nat → Nat} (h : ∀ i < k, f i = g i) (n : Nat) (d : Dev) : eyeStore n k f d = eyeStore n k g d := by
  have hpoints : (List.range k).map (fun i => (gridKey n i d, some (min (f i) (2 ^ 31 - 1)))) =
      (List.range k).map (fun i => (gridKey n i d, some (min (g i) (2 ^ 31 - 1)))) :=
    List.map_congr_left fun i hi => by rw [h i (List.mem_range.mp hi)]
  unfold eyeStore
  rw [hpoints]

/-- A command that carries the count of every point leaves none free. -/
theorem eyeScanDone_whole {n : Nat} {errs : List Nat} {d : Dev} (hbusy : rd Reg.LANE_EYE_BUSY n d = 1) (hlen : errs.length = gridPoints n d) :
    eyeScanDone n errs d = (d |> eyeStore n errs.length (fun i => errs.getD i 0) |> takeFree
      |> wr Reg.LANE_EYE_BUSY n 0 |> wr Reg.LANE_EYE_DONE n 1 |> raise Ev.EYE_DONE n) := by
  have hcounts : ∀ i < errs.length, errs.getD i (freePoint i d) = errs.getD i 0 := fun i hi => by
    rw [List.getD_eq_getElem _ _ hi, List.getD_eq_getElem _ _ hi]
  unfold eyeScanDone
  rw [if_pos hbusy, ← hlen, eyeStore_congr hcounts]

/-! ## Spare requests (R110, R117, R119) -/

theorem spareReqTrig_free {n : Nat} {val : Word} {d : Dev} (hrel : val.getLsbD 1 = false) (hsfl : pers (n / 9) d = 2)
    (hheld : heldPos (n / 9) d = none) (hvalid : rd Reg.LANE_SPARE_VALID (spareLane (n / 9)) d = 0) (hlane : n % 9 < 8) :
    spareReqTrig n val d = updLane n (fun l => { l with req := true }) d := by
  have hfree : ¬ ((heldPos (n / 9) d).isSome = true ∨ rd Reg.LANE_SPARE_VALID (spareLane (n / 9)) d = 1) := by simp [hheld, hvalid]
  unfold spareReqTrig
  rw [hrel, if_neg Bool.false_ne_true, if_neg (not_not_intro hsfl), if_neg hfree, if_pos hlane]

/-- Settles O36: a served trigger comes to its own rule, and each rule to the branch that the lane's state names. -/
theorem lanesAreTrimmedAndTested : Obligations.LanesAreTrimmedAndTested := by
  refine ⟨?_, ?_, ?_, fun s n hserved hup => ⟨?_, fun hbusy => ?_⟩, ?_, fun s n hserved => ⟨?_, ?_⟩⟩
  · rintro s n errs cw eye d1 rfl
    exact onNet_eq rfl
  · exact fun s n errs bits e b hchk he hb => onNet_eq (prbsLost_checked hchk he hb)
  · exact fun s n hserved => onNet_eq (trigger_served hserved ..)
  · exact onNet_eq ((trigger_served hserved ..).trans (eyeStartTrig_up hup))
  · exact onNet_eq ((trigger_served hserved ..).trans (eyeAbort_busy hbusy))
  · rintro s n np errs d1 hbusy rfl hlen rfl
    exact onNet_eq (eyeScanDone_whole hbusy hlen)
  · exact onNet_eq (trigger_served hserved ..)
  · exact fun hsfl hheld hvalid hlane hrel =>
      onNet_eq ((trigger_served hserved ..).trans (spareReqTrig_free hrel hsfl hheld hvalid hlane))

end Sys2Proof.Machine
end

section
/-!
PROOFS. The SFL link layer: flits as they arrive (R121 to R144), a port's timers and resets (R132 to R143), its commands, the wake pattern and
weather (R133, R142 to R150, R235, R236, R493).
-/

namespace Sys2Proof.Machine

/-! ## A flit as it arrives (R126, R127) -/

section
variable {p : Nat} {flit : List Byte} {d : Dev}

/-- A flit that passes its check is given to the rule of its command. -/
theorem rxFlit_decoded {x : Flit} (h : decodeFlit (flitLevel p d) flit = some x) (isData : Bool) (f : Flit → Dev → Dev) :
    rxFlit p isData flit f d = f x d := by
  unfold rxFlit
  rw [h]

theorem rxFlit_failed (h : decodeFlit (flitLevel p d) flit = none) (isData : Bool) (f : Flit → Dev → Dev) :
    rxFlit p isData flit f d = flitCheckFail p isData d := by
  unfold rxFlit
  rw [h]

end

/-! ## Flits taken while a port is UP (R121, R128, R132 to R138, R142) -/

section
variable {p : Nat} {d : Dev} (hup : portUp p d = true)
include hup

theorem dataFlitRx_inSequence {seq : Nat} (hseq : seq = rd Reg.LNK_RX_SEQ p d) (vl : Nat) (head tail poison : Bool) (bytes : List Byte) :
    dataFlitRx p vl head tail poison seq bytes d = rxAccept p vl head tail poison bytes d := by
  unfold dataFlitRx
  rw [if_pos hup]
  exact if_pos hseq

/-- A flit at most 8192 behind was accepted before. -/
theorem dataFlitRx_old {seq : Nat} (hne : seq ≠ rd Reg.LNK_RX_SEQ p d) (hold : (rd Reg.LNK_RX_SEQ p d + 16384 - seq) % 16384 ≤ 8192)
    (vl : Nat) (head tail poison : Bool) (bytes : List Byte) : dataFlitRx p vl head tail poison seq bytes d = d := by
  unfold dataFlitRx
  rw [if_pos hup]
  exact (if_neg hne).trans (if_pos hold)

/-- A flit ahead shows a gap. -/
theorem dataFlitRx_ahead {seq : Nat} (hgap : 8192 < (rd Reg.LNK_RX_SEQ p d + 16384 - seq) % 16384)
    (vl : Nat) (head tail poison : Bool) (bytes : List Byte) : dataFlitRx p vl head tail poison seq bytes d = nakFor p 1 d := by
  have hne : seq ≠ rd Reg.LNK_RX_SEQ p d := by omega
  unfold dataFlitRx
  rw [if_pos hup]
  exact (if_neg hne).trans (if_neg (Nat.not_le.mpr hgap))

theorem flitCheckFail_data : flitCheckFail p true d = (d |> bump Reg.LNK_CRC_ERR p |> nakFor p 0) := by
  unfold flitCheckFail
  rw [if_pos (.inl hup), hup]
  rfl

theorem codewordLost_sfl (hsfl : pers (p / 8) d = 2) :
    codewordLost p d = (d |> bump Reg.LNK_FEC_UNCORR p |> nakFor p 2 |> countUncorr p) := by
  unfold codewordLost
  rw [if_neg (by omega), if_pos hup]

theorem statusRx_up (ack : Nat) (valid : Bool) (cr : List Nat) :
    statusRx p ack valid cr d = (d |> takeCredits p cr |> onlyIf valid (ackThrough p ack)) := if_pos hup

theorem nakRx_up (exp : Nat) (cr : List Nat) : nakRx p exp cr d =
    (d |> bump Reg.LNK_NAK_RX p |> takeCredits p cr |> ackThrough p ((exp + 16383) % 16384) |> startPass p) := if_pos hup

theorem resetRx_up : resetRx p d = declareDown p 3 d := if_pos hup

theorem linkFlitReservedRx_up {ty : Nat} (hty : 7 ≤ ty) :
    linkFlitReservedRx p ty d = (d |> bump Reg.LNK_PROTO_ERR_CNT p |> raise Ev.PROTO_ERR p) := if_pos ⟨.inl hup, hty⟩

end

/-- Codewords whose counts disagree are lost on every lane (R121). -/
theorem rsUncorrectable_disagree {cnts : List Nat} (h : countsDisagree cnts = true) (p errors : Nat) (blocks : List Nat) (d : Dev) :
    rsUncorrectable p cnts errors blocks d = forEach cnts (fun _ => codewordLost p) d := if_pos h

/-- A codeword beyond its parity is lost (R122, R137). -/
theorem rsUncorrectable_fails {cnts blocks : List Nat} {errors : Nat} (hagree : countsDisagree cnts = false)
    (hfail : rsFails errors blocks = true) (p : Nat) (d : Dev) : rsUncorrectable p cnts errors blocks d = codewordLost p d := by
  unfold rsUncorrectable
  rw [hagree, hfail]
  rfl

/-- An INIT of the port's own LEVEL gives the initial credits and the partner (R132, R141). -/
theorem initRx_level {p level : Nat} {d : Dev} (hinit : rd Reg.LNK_LSTATE p d = 2) (hlevel : level = (if sflRate p d = 1 then 1 else 2))
    (rxOk : Bool) (serial : Nat) (cr : List Nat) : initRx p level rxOk serial cr d = (d
      |> updPort p (fun q => { q with
          initial := (List.range 16).foldl (fun m v => smPut m v (cr.getD v 0 % 4096)) []
          initRx := true, rxOk := true, peerOk := q.peerOk || rxOk })
      |> wr Reg.LNK_PARTNER_ID p (serial % 65536) |> tryUp p) := by
  unfold initRx
  rw [if_pos hinit, if_neg (not_not_intro hlevel)]

/-- Settles O37: each command's flit is decoded (`rxFlit_decoded`), and its rule comes to the branch that the sequence or the state names. -/
theorem linkFlitsTaken : Obligations.LinkFlitsTaken := by
  refine ⟨fun s p hup => ⟨?_, ?_, ?_, fun cnts errors blocks hsfl => ⟨?_, ?_⟩, ?_, ?_, ?_, ?_⟩, ?_⟩
  · intro b0 b1 b2 b3 body check vl head tail poison seq bytes hflit
    have hrx := rxFlit_decoded hflit true
    exact ⟨fun hseq => onNet_eq ((hrx _).trans (dataFlitRx_inSequence hup hseq ..)),
      fun hne hold => onNet_eq ((hrx _).trans (dataFlitRx_old hup hne hold ..)),
      fun hgap => onNet_eq ((hrx _).trans (dataFlitRx_ahead hup hgap ..))⟩
  · exact fun b0 b1 b2 b3 body check hbad => onNet_eq ((rxFlit_failed hbad ..).trans (flitCheckFail_data hup))
  · exact onNet_eq (flitCheckFail_data hup)
  · exact fun hagree hfail => onNet_eq ((rsUncorrectable_fails hagree hfail ..).trans (codewordLost_sfl hup hsfl))
  · exact fun hdis => onNet_eq (rsUncorrectable_disagree hdis ..)
  · exact fun h b c f body hflit => onNet_eq ((rxFlit_decoded hflit ..).trans (statusRx_up hup ..))
  · exact fun h c f body hflit => onNet_eq ((rxFlit_decoded hflit ..).trans (nakRx_up hup ..))
  · exact fun bs f body hflit => onNet_eq ((rxFlit_decoded hflit ..).trans (resetRx_up hup))
  · exact fun bs ty f body hflit hty => onNet_eq ((rxFlit_decoded hflit ..).trans (linkFlitReservedRx_up hup hty))
  · exact fun s p f h c sn r body hinit hflit hlevel => onNet_eq ((rxFlit_decoded hflit ..).trans (initRx_level hinit hlevel ..))

/-! ## Timers of a port (R132, R136 to R138, R141, R142) -/

section
variable {p : Nat} {d : Dev} (hup : portUp p d = true)
include hup

theorem statusSend_up : statusSend p d = sendStatus p d := if_pos hup

theorem nakRepeat_open {e : Nat} (hnak : (portOf p d).nak = some e) : nakRepeat p d = emitNak p (e / 16384) d := by
  unfold nakRepeat
  rw [hnak]
  exact if_pos hup

theorem replayTimeout_outstanding (hout : 0 < outstanding p d) : replayTimeout p d = startPass p d := by
  unfold replayTimeout
  rw [hup, decide_eq_true hout]
  rfl

theorem lockLossTimeout_lost {n : Nat} (hlane : portOfLane n d = some p) (hlost : (laneOf n d).lost = true) :
    lockLossTimeout n d = declareDown p 1 d := by
  unfold lockLossTimeout
  simp only [hlane, hlost, hup, Bool.and_self, onlyIf_true]

/-- Silence takes a port down where every lane of it holds lock. -/
theorem silentTimeout_locked (hlock : ∀ n ∈ portLanes p d, (laneOf (carrier n d) d).lost = false) :
    silentTimeout p d = declareDown p 10 d := by
  have hall : (portLanes p d).all (fun n => !(laneOf (carrier n d) d).lost) = true :=
    List.all_eq_true.mpr fun n hn => by rw [hlock n hn]; rfl
  unfold silentTimeout
  rw [hup, hall]
  rfl

/-- The steps of R143. -/
theorem declareDown_up (cause : Nat) : declareDown p cause d = (d |> wr Reg.LNK_LSTATE p 4 |> abandon p |> discardLink p
    |> wr Reg.LNK_DOWN_CAUSE p cause |> bump Reg.LNK_DOWN_CNT p |> wr Reg.LNK_WIDTH p 0 |> fastReroute p |> raise Ev.LINK_DOWN p
    |> sendLink p 4 (cause * 2 ^ 19) [] [cause] |> emit .portTx [p, 0] [] |> lanesOff p) := if_pos hup

end

section
variable {p : Nat} {d : Dev} (hinit : rd Reg.LNK_LSTATE p d = 2)
include hinit

theorem initRepeat_init : initRepeat p d = (d |> sendInit p |> tryUp p) := if_pos hinit

theorem initTimeout_init : initTimeout p d = (d |> wr Reg.LNK_DOWN_CAUSE p 9 |> raise Ev.INIT_FAIL p |> startBringup p) := if_pos hinit

end

/-- The end of electrical idle (R143 step 5). -/
theorem linkResetIdleEnd_idle {p : Nat} {d d1 : Dev} (hidle : (portOf p d).idle = true)
    (hd1 : d1 = updPort p (fun q => { q with idle := false }) d) : linkResetIdleEnd p d =
      if mayRun p d1 ∧ rd Reg.ISL_TEST (p / 8) d1 = 0 then d1 |> lanesAfresh p |> startBringup p else wr Reg.LNK_LSTATE p 0 d1 := by
  subst hd1
  exact if_pos hidle

/-- Settles O38: each timer comes to the branch of its rule that the port's state names. -/
theorem linkTimersAct : Obligations.LinkTimersAct := by
  refine ⟨fun s p hup => ⟨?_, ?_, ?_, ?_, ?_, ?_⟩, fun s p hinit => ⟨?_, ?_⟩, ?_⟩
  · exact onNet_eq (statusSend_up hup)
  · exact fun e hnak => onNet_eq (nakRepeat_open hup hnak)
  · exact fun hout => onNet_eq (replayTimeout_outstanding hup hout)
  · exact fun n hlane hlost => onNet_eq (lockLossTimeout_lost hup hlane hlost)
  · exact fun hlock => onNet_eq (silentTimeout_locked hup hlock)
  · exact fun cause => onNet_eq (declareDown_up hup cause)
  · exact onNet_eq (initRepeat_init hinit)
  · exact onNet_eq (initTimeout_init hinit)
  · exact fun s p d1 hidle hd1 => onNet_eq (linkResetIdleEnd_idle hidle hd1)

/-! ## Link registers and the wake pattern (R133, R142, R144, R145, R150, R493) -/

section
variable {p : Nat} {d : Dev} (hsfl : pers (p / 8) d = 2)
include hsfl

theorem lresetTrig_up (hup : rd Reg.LNK_LSTATE p d = 3) : lresetTrig p d = declareDown p 4 d := by
  unfold lresetTrig
  rw [if_neg (not_not_intro hsfl), hup]
  rfl

theorem wakeSendTrig_down (hdown : portUp p d = false) : wakeSendTrig p d = emit .portTx [p, 1] [] d := if_pos ⟨hsfl, hdown⟩

theorem writePortEn_enables (hen : rd Reg.LNK_EN p d = 0) (hfits : harbourFits (wr Reg.LNK_EN p 1 d) = true) (val : Word) :
    writePortEn p 1 val d = (d |> wr Reg.LNK_EN p 1 |> sharedLowAlarm (sharedFree d)
      |> onlyIf (rd Reg.LNK_LSTATE p d == 0 && rd Reg.ISL_TEST (p / 8) d == 0) (startBringup p)) := by
  unfold writePortEn
  rw [if_neg (by omega), if_pos rfl, if_pos hfits]

theorem writePortEn_disables (hen : rd Reg.LNK_EN p d = 1) (val : Word) :
    writePortEn p 0 val d = (d |> wr Reg.LNK_EN p 0 |> disablePort p) := by
  unfold writePortEn
  rw [if_neg (by omega), if_neg (by decide)]

end

theorem execPortEnableWrite_served {p : Nat} {s : State} {e : Dev} (hserved : served 0x0A p 0x104 s.dev) (en : Nat)
    (h : writePortEn p (en % 2) (enWord p en s.dev) s.dev = e) :
    execPortEnableWrite p en s = .next { s with dev := settleNet s.dev e } :=
  onNet_eq (((mgmtWrite_served hserved ..).trans (unlessLocked_served hserved ..)).trans h)

theorem wakePatternDetect_down {p : Nat} {d : Dev} (hstarts : portStarts p d = true) (hsfl : pers (p / 8) d = 2)
    (hdet : rd Reg.LNK_WAKE_DET p d = 1) (hdown : portUp p d = false) :
    wakePatternDetect p d = (d |> raise Ev.WAKE_RX p |> wakeDom (p / 8) 1) := if_pos ⟨hstarts, hsfl, hdet, hdown⟩

/-! ## Weather (R235, R236) -/

section
variable {p : Nat} {d : Dev} (hup : portUp p d = true)
include hup

/-- What a report says: the sender and its count, whether the shared pool runs low, the groups' weather and the pool's room. -/
theorem weatherSend_up {room lid low : Nat} {wx : List Nat} (hsfl : pers (p / 8) d = 2) (hroom : room = (max (sharedFree d) 0).toNat)
    (hlid : lid = rd Reg.RTE_MY_LID (p / 8) d) (hlow : low = bnat (decide (room < rd Reg.HBR_SHARED_LOW 0 d)))
    (hwx : wx = (List.range 16).map (fun g => weatherWord g d)) : weatherSend p d = (d
      |> sendLink p 5 0 (beBytes 3 (lid * 16 + (portOf p d).wxSeq) ++ beBytes 1 low ++ wx.flatMap (beBytes 2) ++ beBytes 4 room)
          ([lid, (portOf p d).wxSeq, low] ++ wx ++ [room])
      |> updPort p (fun r => { r with wxSeq := (r.wxSeq + 1) % 16 })) := by
  unfold weatherSend
  dsimp only
  rw [if_pos ⟨hup, hsfl⟩, hwx, hlow, hlid, hroom]

theorem weatherRx_up (w : Weather) : weatherRx p w d = (d
    |> updPort p (fun q => { q with wx := some w, wxTime := d.th.localNs, wxStale := false }) |> bump Reg.RTE_WX_RX (p / 8)) := if_pos hup

theorem wxStale_first (hfresh : (portOf p d).wxStale = false) :
    wxStale p d = (d |> updPort p (fun q => { q with wxStale := true }) |> raise Ev.WX_STALE (p / 8)) := if_pos ⟨hup, hfresh⟩

end

/-- Settles O39: a served command comes to its own rule, and each rule to the branch that the port's state names. -/
theorem linkCommandsAndWeather : Obligations.LinkCommandsAndWeather := by
  refine ⟨fun s p hserved hsfl => ⟨?_, ?_, ?_, ?_⟩, ?_, fun s p hup => ⟨?_, ?_, ?_⟩⟩
  · exact fun hstate => onNet_eq ((trigger_served hserved ..).trans (lresetTrig_up hsfl hstate))
  · exact fun hdown => onNet_eq ((trigger_served hserved ..).trans (wakeSendTrig_down hsfl hdown))
  · exact fun hen hfits => execPortEnableWrite_served hserved 1 (writePortEn_enables hsfl hen hfits _)
  · exact fun hen => execPortEnableWrite_served hserved 0 (writePortEn_disables hsfl hen _)
  · exact fun s p hstarts hsfl hdet hdown => onNet_eq (wakePatternDetect_down hstarts hsfl hdet hdown)
  · exact fun room lid low wx hsfl hroom hlid hlow hwx => onNet_eq (weatherSend_up hup hsfl hroom hlid hlow hwx)
  · exact fun bs f body hflit => onNet_eq ((rxFlit_decoded hflit ..).trans (weatherRx_up hup _))
  · exact fun hfresh => onNet_eq (wxStale_first hup hfresh)

end Sys2Proof.Machine
end

section
/-!
PROOFS. Ethernet ports: frames, priority flow control and the PCS (R147 to R153, R227).
-/

namespace Sys2Proof.Machine

/-! ## Frames (R147 to R149, R227) -/

section
variable {p : Nat} {d : Dev} (hpcs : rd Reg.ETH_PCS_UP p d = 1)
include hpcs

section
variable {fr : List Byte} (hmin : 64 ≤ fr.length) (hmax : fr.length ≤ rd Reg.ETH_MAX_FRAME p d)
include hmin hmax

/-- A good frame that the gateway table holds enters the core, and its priority is checked against XOFF. -/
theorem ethFrameRx_known {prio : Nat} {dei : Bool} {e : Nat} (hprio : framePrio p fr d = (prio, dei))
    (hgw : gatewayOf (p / 8) (gatewayMac fr) d = some e) :
    ethFrameRx p true fr d = (d |> bump Reg.ETH_FRAMES_RX p |> admitFrame p prio dei e fr |> pfcCheck p prio) := by
  unfold ethFrameRx
  rw [if_neg (by omega), if_neg (by omega), if_neg (by decide), hprio, hgw]

theorem ethFrameRx_unknown (hgw : gatewayOf (p / 8) (gatewayMac fr) d = none) :
    ethFrameRx p true fr d = (d |> bump Reg.ETH_FRAMES_RX p |> bump Reg.RTE_GW_MISS (p / 8)) := by
  unfold ethFrameRx
  rw [if_neg (by omega), if_neg (by omega), if_neg (by decide), hgw]

end

theorem pfcFrameRx_pauses {prio quanta : Nat} (hen : bitOf (rd Reg.ETH_PFC_EN p d) prio = true)
    (hrun : bitOf (portOf p d).paused prio = false) (hquanta : 0 < quanta) : pfcFrameRx p prio quanta d = (d |> addI Reg.ETH_PFC_RX p prio 1
      |> updPort p (fun q => { q with paused := setBit q.paused prio, pausedAt := smPut q.pausedAt prio d.th.localNs })) := by
  unfold pfcFrameRx
  simp only [hpcs, hen, hrun, hquanta.ne', Nat.one_ne_zero, Bool.true_eq_false, Bool.false_eq_true, if_false]

theorem pauseFrameRx_up : pauseFrameRx p d = bump Reg.ETH_PAUSE_RX p d := by
  unfold pauseFrameRx
  rw [hpcs]
  rfl

theorem pfcRepeat_xoff {prio : Nat} (hxoff : bitOf (portOf p d).xoff prio = true) : pfcRepeat p prio d =
    (d |> emit .pfc [p, prio, rd Reg.ETH_PFC_QUANTA p d] [] |> addI Reg.ETH_PFC_TX p prio 1) := if_pos ⟨hxoff, hpcs⟩

end

/-! ## A paused priority (R149, R152) -/

section
variable {p prio : Nat} {d : Dev} (hpaused : bitOf (portOf p d).paused prio = true)
include hpaused

theorem resumePrio_paused : resumePrio p prio d = (d
    |> addI Reg.ETH_PAUSED p prio ((d.th.localNs - smGet (fun _ => 0) (portOf p d).pausedAt prio) / 1000)
    |> updPort p (fun q => { q with paused := clrBit q.paused prio })) := if_pos hpaused

theorem pfcWatchdog_paused (hwd : rd Reg.ETH_PFC_WD p d ≠ 0) : pfcWatchdog p prio d = raise Ev.PFC_WATCHDOG p d := if_pos ⟨hpaused, hwd⟩

end

/-! ## The PCS (R95, R146, R152, R153) -/

/-- A PCS that rises on a port that may run sets what the port and its lanes show. -/
theorem ethPcsChange_rises {p : Nat} {d : Dev} (hdown : rd Reg.ETH_PCS_UP p d = 0) (hrun : mayRun p d = true) (heth : pers (p / 8) d = 3)
    (pol order : List Nat) : ethPcsChange p true false pol order d = (d
      |> wr Reg.ETH_PCS_UP p 1 |> wr Reg.ETH_ALIGNED p 1 |> wr Reg.ETH_FEC_LOCK p 1 |> wr Reg.ETH_HI_SER p 0
      |> (fun d => d |> wr Reg.ETH_SPEED p (ethSpeed p d) |> wr Reg.ETH_LANE200 p (bnat (portByte p d % 16 == 2))
        |> wr Reg.ETH_LANES p (portWidth p d) |> wr Reg.LNK_LSTATE p 3 |> ethLanesUp p pol order |> raise Ev.ETH_UP p)) := by
  unfold ethPcsChange
  rw [hdown, hrun, heth]
  rfl

/-- Settles O22: each command comes to the branch of its rule that the port's state and the frame name. -/
theorem ethernetPortsAct : Obligations.EthernetPortsAct := by
  refine ⟨fun s p hpcs => ⟨?_, ?_, ?_, ?_⟩, fun s p prio hpaused => ⟨?_, ?_⟩, ?_⟩
  · exact fun fr prio dei hmin hmax hprio => ⟨fun e hgw => onNet_eq (ethFrameRx_known hpcs hmin hmax hprio hgw),
      fun hgw => onNet_eq (ethFrameRx_unknown hpcs hmin hmax hgw)⟩
  · exact fun prio quanta hen hrun hquanta => onNet_eq (pfcFrameRx_pauses hpcs hen hrun hquanta)
  · exact onNet_eq (pauseFrameRx_up hpcs)
  · exact fun prio hxoff => onNet_eq (pfcRepeat_xoff hpcs hxoff)
  · exact onNet_eq (resumePrio_paused hpaused)
  · exact fun hwd => onNet_eq (pfcWatchdog_paused hpaused hwd)
  · intro s p lf rf pol order hdown hrun heth
    refine onNet_eq ?_
    rw [ethPcsChange_rises hdown hrun heth, hrun, heth]
    rfl

end Sys2Proof.Machine
end

section
/-!
PROOFS. Straits (R158 to R167), harbour segments (R170, C9) and capture rings (R182, R183).
-/

namespace Sys2Proof.Machine

/-! ## The match of a strait (R160, R161) -/

theorem straitMatch_up {k : Nat} {d : Dev} (hk : k < 6) (hup : straitUp k d = true) :
    straitMatch k d = (d |> ackAccesses k |> forEach (matchStrait k d) (applyMatch k)) := if_pos ⟨hk, hup⟩

/-! ## Descriptors at the egress island (R158) -/

section
variable {k i e q : Nat} {f : Flight} {d : Dev} (hflight : flightOf k i e q d = some f)
include hflight

/-- The SSEQ expected lies 0 ahead of itself. -/
theorem descriptorRx_inOrder (hnext : q = sseqNext i e d) : descriptorRx k i e q d =
    (d |> ackDesc k i e q |> bump Reg.STR_DESC_MOVED k |> takeDesc f.desc |> releaseBehind i e 32) := by
  have hahead : (q + 4096 - sseqNext i e d) % 4096 = 0 := by omega
  unfold flightOf at hflight
  unfold descriptorRx
  rw [hflight]
  exact if_pos hahead

/-- A descriptor ahead of the SSEQ expected waits behind the gap. -/
theorem descriptorRx_ahead (hgap : 0 < (q + 4096 - sseqNext i e d) % 4096) (hnear : (q + 4096 - sseqNext i e d) % 4096 < 2048)
    (hroom : heldBehind i e d < 32) {d1 : Dev}
    (hd1 : d1 = updNet (fun n => { n with behind := n.behind ++ [f.desc] }) (d |> ackDesc k i e q |> bump Reg.STR_DESC_MOVED k)) :
    descriptorRx k i e q d = wr Reg.ISL_REORDER_HWM e (max (rd Reg.ISL_REORDER_HWM e d1) (heldBehind i e d1)) d1 := by
  subst hd1
  unfold flightOf at hflight
  unfold descriptorRx
  rw [hflight]
  exact (if_neg hgap.ne').trans ((if_neg hnear.not_ge).trans (if_pos hroom))

end

theorem reorderStall_gap {i e n : Nat} {d : Dev} (hheld : heldAhead i e d = some n) : reorderStall i e d = (d
    |> updNet (fun x => { x with
        sseqRx := smPut x.sseqRx (i * 20 + e) ((sseqNext i e d + n) % 4096)
        waiting := x.waiting.filter (fun y => !missingDesc i e n d y)
        flights := x.flights.filter (fun f => !missingDesc i e n d f.desc) })
    |> forEach ((d.net.flights.filter (fun f => missingDesc i e n d f.desc)).map (fun f => f.desc.pkt)
        ++ (d.net.waiting.filter (missingDesc i e n d)).map (fun y => y.pkt)) failPkt
    |> releaseBehind i e 32 |> raise Ev.REORDER_STALL e) := by
  unfold reorderStall
  rw [hheld]

/-! ## Failure, removal and self-test of a strait (R164 to R167) -/

/-- The steps of R166: the descriptors are offered again, then the accesses that were on the way are issued again. -/
theorem straitFaultDetect_inUse {k : Nat} {d : Dev} (hk : k < 6) (huse : rd Reg.STR_STATE k d < 2) (hdom : domState (18 + k) d ≠ 2)
    (cause isl : Nat) : straitFaultDetect k cause isl d = (d
      |> wr Reg.STR_STATE k 3 |> wr Reg.STR_FAIL_CAUSE k cause |> wr Reg.STR_FAIL_ISLAND k isl |> reoffer k |> ackAccesses k
      |> forEach (d.net.staged.filter (fun a => a.strait == k)) reissue |> raise Ev.STRAIT_FAILED k |> drainDone (18 + k)) :=
  if_pos ⟨hk, huse, hdom⟩

theorem writeStrEn_removes {k : Nat} {d : Dev} (hen : rd Reg.STR_EN k d = 1) (hlast : straitsUp d ≠ 1) (val : Word) :
    writeStrEn k 0 val d = (d |> wr Reg.STR_EN k 0 |> onlyIf (rd Reg.STR_STATE k d == 0) (wr Reg.STR_STATE k 1)
      |> updNet (fun n => { n with selfTest := clrBit n.selfTest k })) := by
  unfold writeStrEn
  rw [if_neg (by omega), if_pos rfl, if_neg (fun h => hlast h.2)]

theorem writeStrEn_tests {k : Nat} {d : Dev} (hen : rd Reg.STR_EN k d = 0) (val : Word) :
    writeStrEn k 1 val d = (d |> updNet (fun n => { n with selfTest := setBit n.selfTest k }) |> wr Reg.STR_EN k 1) := by
  unfold writeStrEn
  rw [if_neg (by omega), if_neg (by decide)]

theorem execStrEnWrite_served {k : Nat} {s : State} {d : Dev} (hserved : served 0x0C k 0x100 s.dev) (en : Nat)
    (h : writeStrEn k (en % 2) (BitVec.ofNat 32 (en % 2)) s.dev = d) :
    execStrEnWrite k en s = .next { s with dev := settleNet s.dev d } :=
  onNet_eq (((mgmtWrite_served hserved ..).trans (unlessLocked_served hserved ..)).trans h)

theorem straitDrainDone_drained {k : Nat} {d : Dev} (hdrain : rd Reg.STR_STATE k d = 1)
    (hempty : (d.net.flights.all fun f => f.strait != k) = true) :
    straitDrainDone k d = (d |> ackAccesses k |> wr Reg.STR_STATE k 2 |> drainDone (18 + k)) := if_pos ⟨hdrain, hempty⟩

section
variable {k : Nat} {d : Dev} (htest : bitOf d.net.selfTest k = true)
include htest

theorem straitSelftestDone_passed (hdrain : rd Reg.STR_STATE k d ≠ 1) : straitSelftestDone k true d = (d
    |> updNet (fun n => { n with selfTest := clrBit n.selfTest k })
    |> wr Reg.STR_STATE k 0 |> wr Reg.STR_FAIL_CAUSE k 0 |> wr Reg.STR_FAIL_ISLAND k 0
    |> onlyIf (rd Reg.STR_STATE k d != 0) (raise Ev.STRAIT_IN_SERVICE k)) :=
  (if_pos htest).trans ((if_pos rfl).trans (if_neg hdrain))

theorem straitSelftestDone_failed : straitSelftestDone k false d = (d
    |> updNet (fun n => { n with selfTest := clrBit n.selfTest k })
    |> wr Reg.STR_STATE k 3 |> wr Reg.STR_FAIL_CAUSE k 5 |> straitLost k |> raise Ev.STRAIT_SELFTEST_FAIL k |> drainDone (18 + k)) :=
  (if_pos htest).trans (if_neg Bool.false_ne_true)

end

/-! ## Harbour segments (R170, C9) -/

theorem harbourUncorrRead_packet {id : Nat} {q : Packet} {d : Dev} (hq : pktOf id d = some q) (g cell : Nat) :
    harbourUncorrRead g cell id d = (d |> bump Reg.HBR_ECC_UNCORR g |> bump Reg.LOG_SRAM_UNCORR 0
      |> raiseDet Ev.HBR_ECC_UNCORR g (BitVec.ofNat 32 g) (BitVec.ofNat 32 cell) |> bump Reg.ISL_ECC_END (egIsland q.eg) |> failPkt id) := by
  unfold harbourUncorrRead
  rw [hq]

theorem segmentDrainDone_drained {g : Nat} {d : Dev} (hdrain : rd Reg.HBR_SEG_STATE g d = 1) (hempty : segHeld g d = 0) :
    segmentDrainDone g d = (d |> wr Reg.HBR_SEG_STATE g 2 |> drainDone (24 + g)) := if_pos ⟨hdrain, hempty⟩

/-! ## Capture rings (R182, R183) -/

@[simp] theorem memDone_net (r : Nat × Nat × Nat) (d : Dev) : (memDone r d).net = d.net := (memDone_eff r d).same (p := .net) rfl (.inl rfl)

theorem execMirrorRecordWrite_waiting {k : Nat} {c : MirCopy} {s : State} {d : Dev}
    (hcopy : s.dev.net.copies.find? (fun c => c.session == k) = some c)
    (h : mirrorRecordWrite k (memDone (2, k, c.time.ns) s.dev) = d) :
    execMirrorRecordWrite k s = .next { s with dev := settleNet s.dev d } := by
  refine onNet_eq ?_
  rw [hcopy]
  exact h

/-- Bytes between PROD and the end of the ring that a record of `len` bytes cannot take without crossing the end. -/
def padBefore (c : MirCopy) (prod len : Nat) : Nat := if c.size < prod + len then c.size - prod else 0

/-- The block once a copy no longer waits and, where its ring wraps, the oldest records have made room for `need` bytes. -/
def copyTaken (k need : Nat) (c : MirCopy) (d : Dev) : Dev :=
  let d0 := releaseKept c.src (updNet (fun x => { x with copies := x.copies.erase c }) d)
  if c.wrap then makeRoom k c.base c.size need 67108864 d0 else d0

section
variable {k prod need : Nat} {c : MirCopy} {bytes : List Byte} {d : Dev}
  (hcopy : d.net.copies.find? (fun c => c.session == k) = some c) (hprod : rdI Reg.MIR_PROD 0 k d = prod)
  (hbytes : bytes = mirrorRecord c (smGet (fun _ => 0) d.net.records k % 65536))
  (hneed : need = padBefore c prod bytes.length + bytes.length)
include hcopy hprod hbytes hneed

theorem mirrorRecordWrite_full (hfull : c.size ≤ ringUsed k c.size (copyTaken k need c d) + need) :
    mirrorRecordWrite k d = (copyTaken k need c d |> raise Ev.MIR_RING_FULL 0 |> dropCopy k) := by
  subst hneed hbytes hprod
  unfold mirrorRecordWrite
  rw [hcopy]
  exact if_pos hfull

theorem mirrorRecordWrite_fits (hfits : ringUsed k c.size (copyTaken k need c d) + need < c.size) {pad at_ : Nat}
    (hpad : padBefore c prod bytes.length = pad) (hat : at_ = if pad = 0 then prod else 0) :
    mirrorRecordWrite k d = (copyTaken k need c d
      |> updNet (fun x => { x with records := smPut x.records k ((smGet (fun _ => 0) d.net.records k % 65536 + 1) % 65536) })
      |> onlyIf (decide (0 < pad)) (memWrites (c.base + prod) (padRecord c pad d))
      |> memWrites (c.base + at_) bytes |> wrI Reg.MIR_PROD 0 k ((at_ + bytes.length) % c.size)) := by
  subst hat hpad hneed hbytes hprod
  unfold mirrorRecordWrite
  rw [hcopy]
  exact if_neg hfits.not_ge

end

/-- Settles O40: each command comes to the branch of its rule that the strait's, segment's or ring's state names. -/
theorem straitsAndHarbourAct : Obligations.StraitsAndHarbourAct := by
  refine ⟨?_, fun s k i e q f hflight => ⟨?_, ?_⟩, ?_, ?_, fun s k hserved => ⟨?_, ?_⟩, ?_, fun s k htest => ⟨?_, ?_⟩, ?_, ?_, ?_⟩
  · exact fun s k hk hup => onNet_eq (straitMatch_up hk hup)
  · exact fun hnext _ => onNet_eq (descriptorRx_inOrder hflight hnext)
  · exact fun hgap hnear hroom d1 hd1 => onNet_eq (descriptorRx_ahead hflight hgap hnear hroom hd1)
  · exact fun s i e n hheld => onNet_eq (reorderStall_gap hheld)
  · exact fun s k cause isl data hk huse hdom => onNet_eq (straitFaultDetect_inUse hk huse hdom ..)
  · exact fun hen _ hlast => execStrEnWrite_served hserved 0 (writeStrEn_removes hen hlast _)
  · exact fun hen => execStrEnWrite_served hserved 1 (writeStrEn_tests hen _)
  · exact fun s k hdrain hempty => onNet_eq (straitDrainDone_drained hdrain hempty)
  · exact fun hdrain => onNet_eq (straitSelftestDone_passed htest hdrain)
  · exact onNet_eq (straitSelftestDone_failed htest)
  · exact fun s g cell id q hq => onNet_eq (harbourUncorrRead_packet hq ..)
  · exact fun s g hdrain hempty => onNet_eq (segmentDrainDone_drained hdrain hempty)
  · intro s k n prod pad need c bytes d d0 d1 hcopy hn hlt hprod hbytes hpad hneed hd hd0 hd1
    replace hd1 : d1 = copyTaken k need c d := by rw [hd1, hd0]; rfl
    have hnet : d.net = s.dev.net := hd ▸ memDone_net ..
    have hcopy' : d.net.copies.find? (fun c => c.session == k) = some c := by rwa [hnet]
    have hseq : smGet (fun _ => 0) d.net.records k % 65536 = n := by rw [hnet, hn, Nat.mod_eq_of_lt hlt]
    replace hpad : padBefore c prod bytes.length = pad := hpad.symm
    rw [← hd] at hprod
    rw [← hseq] at hbytes
    rw [← hpad] at hneed
    have hanswer {e : Dev} (h : mirrorRecordWrite k d = e) := execMirrorRecordWrite_waiting hcopy (hd ▸ h)
    subst hd1
    refine ⟨fun hfits d2 hd2 => ⟨fun hzero => ?_, fun hpos => ?_⟩, fun hfull => ?_⟩
    · refine hanswer ((mirrorRecordWrite_fits hcopy' hprod hbytes hneed hfits hpad (if_pos hzero).symm).trans ?_)
      rw [decide_eq_false hzero.not_gt, onlyIf_false, hd2, hseq]
    · refine hanswer ((mirrorRecordWrite_fits hcopy' hprod hbytes hneed hfits hpad (if_neg hpos.ne').symm).trans ?_)
      rw [decide_eq_true hpos, onlyIf_true, hd2, hseq]
    · exact hanswer (mirrorRecordWrite_full hcopy' hprod hbytes hneed hfull)

end Sys2Proof.Machine
end

section
/-!
PROOFS. Scheduling decisions (R193 to R197), gate lists (R202, R204), the calendar wheel (R199) and meter entries (R207, R208, R214).
-/

namespace Sys2Proof.Machine

/-! ## A scheduling decision (R193 to R197) -/

/-- The port once a decision has noted the waits it found, the eligible queues and their start tags (R193, R195). -/
def eligibleNoted (p : Nat) (d : Dev) : Dev :=
  d |> noteWaits p |> updSched p (fun x => { x with tags := eligibleTags p d, elig := (eligibleOf p d).foldl (fun m e => setBit m e.1) 0 })

/-- A unit of charge `l` from queue `q` of start tag `sq` and weight `w` is charged to the queue's tag, to V and to the shapers (R195 to
R198). -/
def unitCharged (p q l sq w : Nat) (d : Dev) : Dev :=
  d |> onlyIf (decide (3 ≤ q)) (fun d => d
      |> updSched p (fun x => { x with v := sq, tags := smPut x.tags q ((sq + (l * 256 + w - 1) / w) % 2 ^ 48) })
      |> wr2 Reg.SCH_VTIME_LO Reg.SCH_VTIME_HI p 0 sq)
    |> chargeShaper p q l |> onlyIf (q != 0) (chargeShaper p 19 l)

/-- How a unit leaves a port of a personality: EXP 1, SFL 2, Ethernet 3. -/
def unitSent (personality p q : Nat) (k : Packet) (d : Dev) : Dev :=
  match personality with
  | 2 => sendFlit p q k d
  | 3 => sendFrame p q k d
  | _ => sendTlp p q k d

/-- What a decision does with the queue it has chosen: its unit is charged and leaves; with none an SFL port at UP sends an idle flit (R194 to
R197). `d` is the block as the choice found it, `d1` the block that has the choice noted. -/
def choiceServed (p : Nat) (d d1 : Dev) : Option (Nat × Packet) → Dev
  | none => if pers (p / 8) d = 2 ∧ portUp p d then sendLink p 0 0 [] [] d1 else d1
  | some (q, k) => unitSent (pers (p / 8) d) p q k
      (unitCharged p q (unitCharge p k d1) (smGet (fun _ => 0) (eligibleTags p d) q) (max (rdI Reg.SCH_WEIGHT p q d1) 1) d1)

theorem nextUnit_eq (p : Nat) (d : Dev) :
    nextUnit p d = choiceServed p d (eligibleNoted p d) (chooseQueue p (eligibleOf p d) (eligibleNoted p d)) := rfl

section
variable {p : Nat} {d d1 : Dev} (hd1 : d1 = eligibleNoted p d)
include hd1

theorem nextUnit_idle (hnone : chooseQueue p (eligibleOf p d) d1 = none) (hsfl : pers (p / 8) d = 2) (hup : portUp p d = true) :
    nextUnit p d = sendLink p 0 0 [] [] d1 := by
  subst hd1
  rw [nextUnit_eq, hnone]
  exact if_pos ⟨hsfl, hup⟩

theorem nextUnit_serves {q l sq w : Nat} {k : Packet} (hchosen : chooseQueue p (eligibleOf p d) d1 = some (q, k))
    (hl : l = unitCharge p k d1) (hsq : sq = smGet (fun _ => 0) (eligibleTags p d) q) (hw : w = max (rdI Reg.SCH_WEIGHT p q d1) 1) :
    nextUnit p d = unitSent (pers (p / 8) d) p q k (unitCharged p q l sq w d1) := by
  subst hd1 hl hsq hw
  rw [nextUnit_eq, hchosen]
  rfl

end

/-! ## Gate lists (R202, R204) -/

section
variable {p : Nat} {d : Dev} (hon : gatesOn p d = true)
include hon

theorem gateTransition_due (hpend : rd Reg.SCH_SWITCH_PEND p d = 1) (hvalid : timeValid d = true) (hat : (schedOf p d).switchAt ≤ fabricNs d) :
    gateTransition p d = (d |> wr Reg.SCH_ACTIVE_LIST p (1 - rd Reg.SCH_ACTIVE_LIST p d)
      |> updSched p (fun x => { x with startAt := x.switchAt }) |> wr Reg.SCH_SWITCH_PEND p 0 |> raise Ev.GATE_SWITCHED p |> gateRefresh p) := by
  unfold gateTransition
  rw [if_pos hon, hpend, hvalid, decide_eq_true hat]
  rfl

theorem gateTransition_steady (hpend : rd Reg.SCH_SWITCH_PEND p d = 0) : gateTransition p d = gateRefresh p d := by
  unfold gateTransition
  rw [if_pos hon, hpend]
  rfl

theorem switchTrig_good (hpend : rd Reg.SCH_SWITCH_PEND p d = 0) (hlist : gateListOk p (1 - rd Reg.SCH_ACTIVE_LIST p d) d = true) (val : Word) :
    switchTrig p val d = (d |> wr Reg.SCH_SWITCH_PEND p 1 |> updSched p (fun x => { x with switchAt := switchTime p d })) :=
  (if_pos ⟨hon, hpend⟩).trans (if_pos hlist)

end

/-! ## Meter entries (R208, R214) -/

/-- An entry within its ranges is put in force with full buckets. -/
theorem mtrWrite_good {b : Nat} {d : Dev} (hok : mtrOk b d = true) (val : Word) :
    mtrWrite b val d = putMeter (idxMeter b d) { meterOf (idxMeter b d) d with
      w0 := (wordAt (regAddr 0x0F b 0x110) d).toNat % 2 ^ 28, pir := rd Reg.MTR_PIR b d, cbs := rd Reg.MTR_CBS b d
      pbs := rd Reg.MTR_PBS b d, tc := rd Reg.MTR_CBS b d * 8000, tp := rd Reg.MTR_PBS b d * 8000, tAt := d.th.localNs } d := if_pos hok

/-- Settles O42: a decision comes to the branch of `nextUnit` that the chosen queue names; gates and meter entries to the branch that the
pending switch and the data words name. -/
theorem schedulersAct : Obligations.SchedulersAct := by
  refine ⟨?_, ?_, fun s p hon => ⟨?_, fun hpend => ⟨?_, ?_⟩⟩, ?_⟩
  · rintro s p d0 d1 rfl hd1
    refine ⟨fun hnone hsfl hup => onNet_eq (nextUnit_idle hd1 hnone hsfl hup), ?_⟩
    rintro q k l sq w d2 hchosen hl hsq hw rfl
    have hserve := nextUnit_serves hd1 hchosen hl hsq hw
    refine ⟨fun hpers => ?_, fun hpers => ?_, fun hpers => ?_⟩ <;>
    · rw [hpers] at hserve
      exact onNet_eq hserve
  · exact fun s i => onNet_eq rfl
  · exact fun hpend hvalid hat => onNet_eq (gateTransition_due hon hpend hvalid hat)
  · exact onNet_eq (gateTransition_steady hon hpend)
  · exact fun hserved hlist => onNet_eq ((trigger_served hserved ..).trans (switchTrig_good hon hpend hlist _))
  · rintro s b m x d1 hserved rfl rfl rfl
    exact ⟨onNet_eq (trigger_served hserved ..), onNet_eq (trigger_served hserved ..),
      fun hok => onNet_eq ((trigger_served hserved ..).trans (mtrWrite_good hok _))⟩

end Sys2Proof.Machine
end

section
/-!
PROOFS. Escape, route hold, rejoin and the stuck-lane watch (R237, R245, R247, R248), epoch swaps (R250) and accesses to the routing tables
(R222 to R225, R252, R254).
-/

namespace Sys2Proof.Machine

/-! ## Packets that wait for a route (R237, R245, R247, R248) -/

section
variable {id : Nat} {q : Packet} {d : Dev} (hq : pktOf id d = some q)
include hq

/-- R237: the escape sub-channel is open to a head of VC1, VC2 or VC4 that has not begun, has an egress port and is not on it yet. -/
theorem escWaitTimeout_waiting (hbegun : q.begun = false) (heg : q.eg < 144) (hescl : hget .ESCL q.hdr = 0) (hbare : q.bare = false)
    (hvc : q.vlane / 2 = 1 ∨ q.vlane / 2 = 2 ∨ q.vlane / 2 = 4) :
    escWaitTimeout id d = (d |> bump Reg.RTE_ESC_ENTRY (inIsland q.inPort)
      |> updPkt id (fun r => { r with hdr := hput .ESCL 1 r.hdr }) |> moveRoute id) := by
  have hwaits : ¬ (q.begun = true ∨ 144 ≤ q.eg ∨ hget .ESCL q.hdr = 1 ∨ q.bare = true ∨
      (q.vlane / 2 ≠ 1 ∧ q.vlane / 2 ≠ 2 ∧ q.vlane / 2 ≠ 4)) := by
    simp only [hbegun, hescl, hbare, Bool.false_eq_true, false_or]
    omega
  unfold escWaitTimeout
  rw [hq]
  exact if_neg hwaits

theorem routeHoldExpire_held (hheld : q.held.isSome = true) : routeHoldExpire id d = unroutable id (inIsland q.inPort) d := by
  unfold routeHoldExpire
  rw [hq]
  exact if_pos hheld

end

section
variable {p : Nat} {d : Dev} (hup : portUp p d = true)
include hup

theorem portRejoin_up (hrejoin : (portOf p d).rejoin = true) :
    portRejoin p d = (d |> updPort p (fun q => { q with rejoin := false }) |> setPortUp p true |> retryHeld) := if_pos ⟨hrejoin, hup⟩

theorem stuckLane_queued {v : Nat} (hcredit : credAvail p v d = 0)
    (hqueued : (d.net.pkts.any fun q => q.eg == p && q.vlane == v && decide (0 < q.queued)) = true) :
    stuckLane p v d = raiseDet Ev.STUCK_LANE (p / 8) (BitVec.ofNat 32 (p + 256 * v)) 0 d := if_pos ⟨hup, hcredit, hqueued⟩

end

/-! ## Epoch swaps (R250, R253) -/

theorem swapSets_eq (d : Dev) : swapSets d = (d
    |> forEach (List.range 20) (fun j e => wr Reg.RTE_EPOCH j (1 - rd Reg.RTE_EPOCH 0 d) e)
    |> updNet (fun n => { n with layer2 := false, flowlets := n.flowlets.map (fun f => (f.1, { f.2 with since := false })) })
    |> forEach (List.range 20) (raise Ev.EPOCH_SWAPPED)) := rfl

/-! ## Table accesses (R222, R252, R254) -/

/-- R222: an index within the selected table names an entry; the gateway table is of islands 0 to 17. -/
theorem tblBad_inRange {i : Nat} {d : Dev} (hidx : rd Reg.RTE_TBL_IDX i d < tblSize (rd Reg.RTE_TBL_SEL i d))
    (hgateway : rd Reg.RTE_TBL_SEL i d = 5 → i < 18) : tblBad i d = false := by
  unfold tblBad
  rw [decide_eq_false hidx.not_ge, Bool.false_or, Bool.and_eq_false_imp]
  exact fun hsel => decide_eq_false (hgateway (beq_iff_eq.mp hsel)).not_ge

section
variable {i sel : Nat} {d : Dev} (hgood : tblBad i d = false)
include hgood

theorem tblReadTrig_inRange (val : Word) : tblReadTrig i val d =
    forEach (List.range 5) (fun w => wrI Reg.RTE_TBL_DATA i w (bitsOf (tblEntry i d) (32 * w) 32)) d :=
  if_neg (Bool.not_eq_true _ ▸ hgood)

variable (hsel : rd Reg.RTE_TBL_SEL i d = sel)
include hsel

/-- Where no swap through a horizon keeps the sets, a table other than the flowlet table takes TBL_DATA. -/
theorem tblWriteTrig_writable (hflowlet : sel ≠ 3) (hfree : ¬ (sel < 3 ∧ rd Reg.RTE_SWAP_PEND i d = 1)) (val : Word) :
    tblWriteTrig i val d = tblPut i (tblNo sel) (if sel < 3 then 1 - epoch i d else 0) (rd Reg.RTE_TBL_IDX i d)
      (tblData i d % 2 ^ (32 * tblWords sel) &&& tblMask sel) d := by
  unfold tblWriteTrig
  rw [hsel, hgood]
  exact (if_neg (by simpa using hflowlet)).trans (if_neg hfree)

theorem tblWriteTrig_pending (hset : sel < 3) (hpend : rd Reg.RTE_SWAP_PEND i d = 1) (val : Word) :
    tblWriteTrig i val d = cfgErr 0x10 i 0x178 Cfg.CFG_RTE_ACTIVE val d := by
  have hflowlet : sel ≠ 3 := hset.ne
  unfold tblWriteTrig
  rw [hsel, hgood]
  exact (if_neg (by simpa using hflowlet)).trans (if_pos ⟨hset, hpend⟩)

end

theorem tblWriteTrig_flowlet {i : Nat} {d : Dev} (hsel : rd Reg.RTE_TBL_SEL i d = 3) (val : Word) :
    tblWriteTrig i val d = cfgErr 0x10 i 0x178 Cfg.CFG_RTE_RANGE val d := if_pos (.inr hsel)

/-- Settles O41: a packet's wait, a port's watch and a table access each come to the branch of their rule that the packet, the port or the
selected table names; SWAP is a trigger that turns the sets whatever it finds. -/
theorem routingActs : Obligations.RoutingActs := by
  refine ⟨?_, ?_, fun s p hup => ⟨?_, ?_⟩, ?_, ?_⟩
  · exact fun s id q hq hbegun heg hescl hbare hvc => onNet_eq (escWaitTimeout_waiting hq hbegun heg hescl hbare hvc)
  · exact fun s id q hq hheld => onNet_eq (routeHoldExpire_held hq hheld)
  · exact fun hrejoin => onNet_eq (portRejoin_up hup hrejoin)
  · exact fun v hcredit hqueued => onNet_eq (stuckLane_queued hup hcredit hqueued)
  · exact fun s i hserved => onNet_eq ((trigger_served hserved ..).trans (swapSets_eq s.dev))
  · rintro s i sel idx hserved hsel rfl hidx hgateway
    have hgood : tblBad i s.dev = false := tblBad_inRange (hsel ▸ hidx) (hsel ▸ hgateway)
    have hwrite {e : Dev} (h : tblWriteTrig i (trigWord 0x10 i 0x178 1 s.dev) s.dev = e) :
        answers (.tblWrite i) s (settleNet s.dev e) := onNet_eq ((trigger_served hserved ..).trans h)
    refine ⟨?_, fun hflowlet => ?_, fun hset hpend => ?_, fun hset hfree => ?_, fun hother => ?_⟩
    · exact onNet_eq ((trigger_served hserved ..).trans (tblReadTrig_inRange hgood _))
    · exact hwrite (tblWriteTrig_flowlet (hsel.trans hflowlet) _)
    · exact hwrite (tblWriteTrig_pending hgood hsel hset hpend _)
    · refine hwrite ((tblWriteTrig_writable hgood hsel hset.ne (fun h => hfree h.2) _).trans ?_)
      rw [tblNo, if_pos hset, if_pos hset]
    · refine hwrite ((tblWriteTrig_writable hgood hsel hother.ne' (fun h => hother.not_gt h.1) _).trans ?_)
      rw [tblNo, if_neg hother.not_gt, if_neg hother.not_gt]

end Sys2Proof.Machine
end

section
/-!
PROOFS. Work doorbells (R264 to R266, R289, R427, R434), and how a requester starts requests and sends packets (R265, R270 to R273, R281, R284,
R288, R443).
-/

namespace Sys2Proof.Machine

/-! ## Commands on the transport engines -/

/-- A command on the transport engines answers what its effect comes to. -/
theorem onEng_eq {f : Dev → Dev} {s : State} {e : Dev} (h : f s.dev = e) : onEng f s = .next { s with dev := engSettled e } :=
  onDev_eq (congrArg settleEng h)

/-- A command on the transport engines whose opcode is its own answers what its effect comes to. -/
theorem onEng_taken {c : Bool} {f : Dev → Dev} {s : State} {e : Dev} (hc : c = true) (h : f s.dev = e) :
    onEng (onlyIf c f) s = .next { s with dev := engSettled e } := by
  subst hc
  exact onEng_eq h

/-! ## What a counter leaves alone -/

@[simp] theorem addI_eng (f : Fld) (inst i n : Nat) (d : Dev) : (addI f inst i n d).eng = d.eng :=
  (addI_eff f inst i n d).same (p := .eng) rfl (.inl rfl)

/-- A queue pair is part of the engines' state. -/
theorem qpOf_congr {a b : Dev} (h : b.eng = a.eng) (n : Nat) : qpOf n b = qpOf n a := by
  unfold qpOf
  rw [h]

@[simp] theorem qpOf_addI (f : Fld) (inst i k n : Nat) (d : Dev) : qpOf n (addI f inst i k d) = qpOf n d := qpOf_congr (addI_eng ..) n

theorem updQp_some {n : Nat} {q : Qp} {d : Dev} (hq : qpOf n d = some q) (f : Qp → Qp) : updQp n f d = putQp n (some (f q)) d := by
  unfold updQp
  rw [hq]

/-! ## Work doorbells (R264 to R266, R427) -/

section
variable {vh n num : Nat} {d : Dev} (hvh : slRd Reg.SLC_VH n d = vh) (hactive : slState n d = slActive)
include hvh hactive

/-- A doorbell to the page of an ACTIVE slice of its function is served (R427, R438). -/
theorem bell_active (key index at_ : Nat) (es : List (List Byte)) (serve_ : List (List Byte) → Dev → Dev) :
    bell vh n key index at_ es serve_ d = ringFetch n key index at_ es serve_ d := by
  unfold bell
  rw [hactive, if_neg (by simp [hvh, slActive, slFree]), if_neg (by decide), if_pos rfl]

/-- A doorbell for a number of the slice, no bridge's send queue, is served by its kind. -/
theorem workBell_owned (hown : ownsNum n num d = true) {kind : Nat} (hkind : kind < 5) (hbrg : kind = 0 → brgQp num d = false) (index : Nat)
    (es : List (List Byte)) : workBell kind vh n true num kind index es d =
      ringFetch n (kind * 2 ^ 24 + num) index (ringPlace n (kind * 2 ^ 24 + num) d) es (serveWork kind num index) d := by
  have hgood : ¬ (5 ≤ kind ∨ (kind = kind ∧ ((!ownsNum n num d) = true ∨ (kind = 0 ∧ brgQp num d = true)))) := by
    rintro (h | ⟨-, h | ⟨h0, h⟩⟩)
    · omega
    · rw [hown] at h
      cases h
    · rw [hbrg h0] at h
      cases h
  unfold workBell
  rw [if_neg (by simp [hvh, hactive, slActive, slFree]), Bool.not_true, if_neg Bool.false_ne_true, if_neg hgood, if_neg (not_not_intro rfl),
    bell_active hvh hactive]

end

/-! ### Entries and the page they are read from (R434) -/

section
variable {n key index at_ : Nat} {es : List (List Byte)} {d : Dev} {serve_ : List (List Byte) → Dev → Dev}

/-- With nothing to read, or no translation to ask for, the doorbell is served at once. -/
theorem ringFetch_direct (h : es = [] ∨ rd Reg.FUN_ATS_EN (slRd Reg.SLC_VH n d) d ≠ 1) : ringFetch n key index at_ es serve_ d = serve_ es d := by
  unfold ringFetch
  exact if_pos (by simpa using h)

variable (hes : es ≠ []) (hats : rd Reg.FUN_ATS_EN (slRd Reg.SLC_VH n d) d = 1)
  (hfirst : (d.eng.ringWaits.any fun w => w.slice == n && w.key == key) = false)
include hes hats hfirst

theorem ringFetch_translated {hit : Bool} (hhit : (d.eng.atc.any fun e =>
      e.vh == slRd Reg.SLC_VH n d && e.pasid == slicePasid n d && e.page == at_ / 4096 && e.read) = hit) :
    ringFetch n key index at_ es serve_ d =
      if hit then d |> bump Reg.FUN_ATC_HIT (slRd Reg.SLC_VH n d) |> serve_ es
      else d |> serve_ [] |> askPage (slRd Reg.SLC_VH n d) (slicePasid n d) (at_ / 4096) |> waitRing n key index at_ es true := by
  have hread : ¬ ((es.isEmpty || rd Reg.FUN_ATS_EN (slRd Reg.SLC_VH n d) d != 1) = true) := by simp [hes, hats]
  subst hhit
  unfold ringFetch
  dsimp only
  rw [if_neg hread, hfirst, if_neg Bool.false_ne_true]

end

/-! ### What a kind does (R264, R266) -/

section
variable {num index : Nat} {q : Qp} {d : Dev} (hq : qpOf num d = some q) (hstate : q.state ≠ 5)
include hq hstate

theorem serveWork_send (es : List (List Byte)) :
    serveWork 0 num index es d = (d |> updQp num (fun q => { q with sqPi := index }) |> updQp num (fun q => { q with sq := q.sq ++ es })) := by
  unfold serveWork
  rw [hq]
  exact if_neg hstate

theorem serveWork_receive (hbrg : brgQp num d = false) (es : List (List Byte)) : serveWork 1 num index es d =
    (d |> updQp num (fun q => { q with rqPi := index }) |> updQp num (fun q => { q with rq := q.rq ++ es.map recvOf })) := by
  unfold serveWork
  rw [hq, hbrg]
  exact if_neg hstate

end

section
variable {num : Nat} {c : Cq} {d : Dev} (hc : cqOf num d = some c)
include hc

theorem serveWork_consumer (index : Nat) (es : List (List Byte)) :
    serveWork 2 num index es d = (d |> touchCq num |> putCq num (some { c with ci := index })) := by
  unfold serveWork
  rw [hc]
  rfl

theorem serveWork_arm (index : Nat) (es : List (List Byte)) :
    serveWork 3 num index es d = (d |> touchCq num |> putCq num (some { c with armed := true, solOnly := false })) := by
  unfold serveWork
  rw [hc]
  rfl

theorem serveWork_armSolicited (index : Nat) (es : List (List Byte)) :
    serveWork 4 num index es d = (d |> touchCq num |> putCq num (some { c with armed := true, solOnly := true })) := by
  unfold serveWork
  rw [hc]
  rfl

end

/-- Settles O1: a doorbell comes to `serveWork` of its kind by `workBell_owned`; `ringFetch` says when its entries are posted. -/
theorem doorbellsServed : Obligations.DoorbellsServed := by
  refine ⟨?_, ?_⟩
  · rintro s vh n num index es q rfl hactive hown hbrg hq hstate
    have hsend := workBell_owned rfl hactive hown (kind := 0) (by decide) (fun _ => hbrg) index es
    have hrecv := workBell_owned rfl hactive hown (kind := 1) (by decide) nofun index es
    rw [Nat.zero_mul, Nat.zero_add] at hsend
    refine ⟨fun hdirect => ⟨?_, ?_⟩, ?_⟩
    · exact onEng_eq (hsend.trans ((ringFetch_direct hdirect).trans (serveWork_send hq hstate es)))
    · exact onEng_eq (hrecv.trans ((ringFetch_direct hdirect).trans (serveWork_receive hq hstate hbrg es)))
    · rintro hes hats hfirst page rfl
      refine ⟨fun hhit => onEng_eq ?_, fun hmiss => onEng_eq ?_⟩
      · rw [hsend, ringFetch_translated hes hats hfirst hhit, if_pos rfl, serveWork_send ((qpOf_addI ..).trans hq) hstate]
      · rw [hsend, ringFetch_translated hes hats hfirst hmiss, if_neg Bool.false_ne_true, serveWork_send hq hstate]
  · rintro s vh n num index c rfl hactive hown hc
    have hbell {kind : Nat} (hkind : kind < 5) (h0 : kind ≠ 0) (index : Nat) :=
      (workBell_owned rfl hactive hown hkind (fun h => absurd h h0) index []).trans (ringFetch_direct (.inl rfl))
    refine ⟨?_, ?_, ?_⟩
    · exact onEng_eq ((hbell (by decide) (by decide) index).trans (serveWork_consumer hc ..))
    · exact onEng_eq ((hbell (by decide) (by decide) 0).trans (serveWork_arm hc ..))
    · exact onEng_eq ((hbell (by decide) (by decide) 0).trans (serveWork_armSolicited hc ..))

/-! ## Starting a request (R265, R270, R281, R288, R443) -/

/-- The next request of a queue pair starts: it may, its context is cached, its set has a way to pin, a peer record is there and it is its
slice's turn. -/
theorem startNext_starts {n : Nat} {q q1 : Qp} {slot : List Byte} {rest : List (List Byte)} {w : Wqe} {d : Dev} (hq : qpOf n d = some q)
    (hsq : q.sq = slot :: rest) (hbrg : brgQp n d = false) (hmay : qpMayStart q slot rest d = true) (hpin : pinFull n d = false)
    (hcached : d.eng.cached.contains n = true) (hpeer : q.forNext slot rest (d.th.localNs / 1000000) = some q1)
    (hturn : fairSlice (n % 8) d = some q.slice) (hw : w = wqeOf q slot (rest.headD [])) :
    startNext n d = (d |> bump Reg.TPE_CACHE_HIT (n % 8) |> touchCtx n
      |> putPeer n w.conn q { q1 with sq := q.sq.drop (slotsOf slot), sqCi := (q.sqCi + slotsOf slot) % 65536, peerRaised := false }
      |> slWr Reg.SLC_WQE_STARTS q.slice ((slRd Reg.SLC_WQE_STARTS q.slice d + 1) % 2 ^ 32)
      |> fairCharge (n % 8) q.slice d |> launch n q w) := by
  subst hw
  unfold startNext
  rw [hq]
  dsimp only
  rw [hsq]
  dsimp only
  rw [hbrg, hmay, hpin, hcached, hpeer, if_neg (by decide), if_neg Bool.false_ne_true, Bool.not_true, if_neg Bool.false_ne_true]
  exact if_neg (not_not_intro hturn)

/-! ## Sending a packet (R270, R272, R273, R284) -/

section
variable {n : Nat} {q : Qp} {d : Dev} (hq : qpOf n d = some q) (hstate : q.state = 3 ∨ q.state = 4) (hpace : q.paceAt ≤ 1000 * d.th.localNs)
include hq hstate hpace

/-- A resend pass that no RNR wait stops goes first. -/
theorem sendNext_resends {key from_ at_ : Nat} {c : Conn} (hruns : q.conns.find? passRuns = some (key, some c))
    (hpass : c.pass = some (from_, at_)) : sendNext n d = resendNext n key q from_ at_ d := by
  unfold sendNext
  rw [hq]
  dsimp only
  rw [if_neg (by omega), hruns]
  dsimp only
  rw [hpass]

theorem sendNext_new (hruns : q.conns.find? passRuns = none) : sendNext n d = sendNew n q d := by
  unfold sendNext
  rw [hq]
  dsimp only
  rw [if_neg (by omega), hruns]

end

/-- The next packet of a request is sent and recorded as outstanding, and the request goes on behind it. -/
theorem sendNew_sends {n : Nat} {q : Qp} {w : Wqe} {d : Dev} {opc k len : Nat} {bytes : List Byte} {last : Bool} {t : TxPkt}
    (hpick : pickWqe n q d = some w) (hnext : nextPacket q w = (opc, k, bytes, len, last))
    (ht : t = { psn := (q.conn w.conn).snd, n := k, wqe := w.id, opc := opc
                ackReq := last || ((q.conn w.conn).sentCnt + 1) % max 1 (rd Reg.TPE_ACKREQ_INT (n % 8) d) == 0
                sol := w.sol && last, bytes := bytes, isRead := w.fetches, off := w.off, len := len, got := [] }) :
    sendNew n q d = (d |> sendReq n q w.conn t
      |> updConn n w.conn (fun c => { c with
          snd := psnAdd c.snd k, sentCnt := c.sentCnt + 1, lastUse := d.th.localNs / 1000000, out := c.out ++ [t] })
      |> updQp n (fun q => { q with started := q.started.map (fun x =>
          if x.id = w.id then { x with off := x.off + len, begun := true, allSent := last } else x) })) := by
  subst ht
  unfold sendNew
  rw [hpick]
  dsimp only
  rw [hnext]

/-- Settles O2: each command comes to the branch of `startNext` or `sendNext` that the queue pair's state names. -/
theorem requesterStartsAndSends : Obligations.RequesterStartsAndSends := by
  refine ⟨?_, fun s n q hq hstate hpace => ⟨?_, ?_⟩⟩
  · exact fun s n q q1 slot rest w hq hsq hbrg hmay hpin hcached hpeer hturn hw =>
      onEng_eq (startNext_starts hq hsq hbrg hmay hpin hcached hpeer hturn hw)
  · exact fun key from_ at_ c hruns hpass => onEng_eq (sendNext_resends hq hstate hpace hruns hpass)
  · exact fun w opc k len bytes last hruns hpick hnext t ht =>
      onEng_eq ((sendNext_new hq hstate hpace hruns).trans (sendNew_sends hpick hnext ht))

end Sys2Proof.Machine
end

section
/-!
PROOFS. A responder's new requests: how its engine takes and executes them (R257, R276, R280 to R283, R285, R286, R291, R340).
-/

namespace Sys2Proof.Machine

/-! ## A request as its engine takes it (R257, R288, R290, R291) -/

section
variable {p : SftPkt} {d : Dev}

/-- Whether a packet is taken hangs on the engines alone, and not on the credit they withhold. -/
theorem packetTaken_congr {a b : Dev} {x : Nat} (h : b.eng = { a.eng with withheld := x }) : PacketTaken p b ↔ PacketTaken p a := by
  simp only [PacketTaken, rangeValid, numVh, rangeOf, missFull, missCount, pinFull, pinned, pinnedInSet, qpOf, writesWait, h] <;> rfl

theorem packetTaken_qps : (packetTaken p d).eng.qps = d.eng.qps := by simp [packetTaken, touchCtx]

theorem packetTaken_ats : (packetTaken p d).eng.ats = d.eng.ats := by simp [packetTaken, touchCtx]

theorem takeIn_taken (h : PacketTaken p d) :
    takeIn p d = tryRequest p.dqpn p false (d |> bump Reg.TPE_CACHE_HIT (p.dqpn % 8) |> touchCtx p.dqpn) := by
  obtain ⟨hecrc, hrange, hvh, _, hcached, hparked, hpin, _, _⟩ := h
  unfold takeIn
  simp only [hecrc, hrange, hvh, hcached, hparked, hpin, beq_self_eq_true, Bool.and_self, Bool.not_true, Bool.false_eq_true, if_false]

/-- With nothing before it and its translation known, a request runs. -/
theorem tryRequest_runs {n : Nat} {q0 : Qp} {e : Dev} (hq0 : qpOf n d = some q0) (hfree : q0.busy = none) (hwrites : writesWait n d = false)
    (hxlt : p.xlt = true)
    (hrun : runRequest n p false (if isReadOrAtomic p.opc || p.opc / 8 == 1 then bump Reg.MRG_KEY_HIT 0 d else d) = (e, false)) :
    tryRequest n p false d = e := by
  unfold tryRequest
  rw [hq0]
  dsimp only
  rw [hfree, hwrites, hxlt, hrun]
  rfl

/-! ## What a new request comes to (R276, R280, R285) -/

/-- A request in sequence for a queue pair and a slice that take it runs as a new one. -/
theorem runRequest_new {n key : Nat} {q0 q : Qp} {d1 : Dev} (hq0 : qpOf n d = some q0) (hready : 2 ≤ q0.state) (herror : q0.state ≠ 5)
    (hekey : q0.rd = true → p.ekey = q0.ekey) (hactive : slState q0.slice d = slActive) (hconn : connFor n q0 p d = (some key, d1))
    (hq : qpOf n d1 = some q) (hactive1 : slState q.slice d1 = slActive) (hpsn : p.psn = (q.conn key).epsn) (record : Bool) :
    runRequest n p record d = (runNew n key q p d1, false) := by
  have hkey : (q0.rd && p.ekey != q0.ekey) = false := by
    cases hrd : q0.rd with
    | false => rfl
    | true => simp [hekey hrd]
  unfold runRequest
  rw [hq0]
  dsimp only
  rw [if_neg (by omega), if_neg herror, hkey, if_neg Bool.false_ne_true, hactive, if_neg (by decide), hconn]
  dsimp only
  rw [hq]
  dsimp only
  rw [hactive1, if_neg (by decide), if_pos hpsn]

/-- A new request in sequence is executed and its packet leaves the core. -/
theorem takeRequest_new {key : Nat} {q : Qp} {d1 : Dev} (h : NewRequest p key q d1 d) :
    takeRequest p d = requestDone p d (runNew p.dqpn key q p d1) := by
  obtain ⟨htaken, ⟨q0, hq0, hfree, hready, herror, hekey, hactive, hconn⟩, hq, hactive1, hpsn, _⟩ := h
  have ⟨_, _, _, hmiss, _, _, _, hwrites, hxlt⟩ := htaken
  have hqps (n : Nat) : qpOf n (packetTaken p d) = qpOf n d := by rw [qpOf, packetTaken_qps, qpOf]
  have hkey : qpOf p.dqpn (keyLooked p d) = some q0 := by
    unfold keyLooked
    split
    · rw [qpOf_addI, hqps, hq0]
    · rw [hqps, hq0]
  have hats : writesWait p.dqpn (packetTaken p d) = false := by rwa [writesWait, packetTaken_ats]
  have hrun : tryRequest p.dqpn p false (packetTaken p d) = runNew p.dqpn key q p d1 :=
    tryRequest_runs ((hqps _).trans hq0) hfree hats hxlt (runRequest_new hkey hready herror hekey hactive hconn hq hactive1 hpsn false)
  have hin := takeIn_taken ((packetTaken_congr (addI_eng Reg.TPE_PKT_RX (p.dqpn % 8) 0 1
    (updEng (fun e => { e with withheld := clrBit e.withheld (p.dqpn % 8) }) d))).mpr htaken)
  have hgo : ¬ (missFull (p.dqpn % 8) d = true) := by rw [hmiss]; decide
  exact (if_neg hgo).trans (congrArg (requestDone p d) (hin.trans hrun))

end

/-- A new request that passes its checks is executed by its opcode (R280). -/
theorem runNew_passed {p : SftPkt} {q : Qp} {key : Nat} (hopc : opcOk q (q.conn key).inn p = true) (hperm : permOk q p = true)
    (hlen : lenOk q (q.conn key).inn p = true) (n : Nat) (d : Dev) : runNew n key q p d =
      if p.opc ≤ 5 then (if q.matchEn then doMatchSend n key q p d else doSend n key q p d)
      else if p.opc ≤ 0x0D then doWrite n key q p d
      else if p.opc = 0x10 then doRead n key q p d
      else if p.opc ≤ 0x1B then doAtomic n key q p d
      else if isFinish q p then doFinish n key q p d
      else doNotify n key q p d := by
  unfold runNew
  simp only [hopc, hperm, hlen, Bool.not_true, Bool.false_eq_true, if_false]

/-- Settles O3: a new request runs by its opcode (`takeRequest_new`, `runNew_passed`), and each command takes the opcodes of its kind. -/
theorem responderExecutesNewRequests : Obligations.ResponderExecutesNewRequests := by
  intro s p key q d1 h
  have hrun : takeRequest p s.dev = requestDone p s.dev (runNew p.dqpn key q p d1) := takeRequest_new h
  obtain ⟨_, _, _, _, _, hopc, hperm, hlen⟩ := h
  rw [runNew_passed hopc hperm hlen] at hrun
  refine ⟨fun hsend hmatch => ?_, fun hsend hmatch => ?_, fun hlo hhi => ?_, fun hread => ?_, fun hlo hhi => ?_, fun hnotify hother hfin => ?_,
    fun hnotify hfinish hfin => ?_⟩
  · rw [if_pos hsend, hmatch, if_neg Bool.false_ne_true] at hrun
    exact onEng_taken (beq_iff_eq.mpr (by omega)) hrun
  · rw [if_pos hsend, hmatch, if_pos rfl] at hrun
    exact onEng_taken (beq_iff_eq.mpr (by omega)) hrun
  · rw [if_neg (by omega), if_pos hhi] at hrun
    exact onEng_taken (beq_iff_eq.mpr (by omega)) hrun
  · rw [if_neg (by omega), if_neg (by omega), if_pos hread] at hrun
    exact onEng_taken (by rw [hread]; rfl) hrun
  · rw [if_neg (by omega), if_neg (by omega), if_neg (by omega), if_pos hhi] at hrun
    exact onEng_taken (by simp only [Bool.and_eq_true, beq_iff_eq, bne_iff_ne]; omega) hrun
  · rw [if_neg (by omega), if_neg (by omega), if_neg (by omega), if_neg (by omega), hfin, if_neg Bool.false_ne_true] at hrun
    exact onEng_taken (by rw [hnotify, hother]; rfl) hrun
  · rw [if_neg (by omega), if_neg (by omega), if_neg (by omega), if_neg (by omega), hfin, if_pos rfl] at hrun
    exact onEng_taken hfinish hrun

end Sys2Proof.Machine
end

section
/-!
PROOFS. The responses that a requester takes: ACKs, NAKs, data and RESYNC (R262, R263, R271 to R275, R284 to R286).
-/

namespace Sys2Proof.Machine

/-! ## A response as its engine takes it (R257, R263, R285, R294) -/

/-- A response for a queue pair past INIT acts on its connection, once it is counted and its congestion mark taken. -/
theorem takeResp_new {r : SftResp} {key : Nat} {q : Qp} {d : Dev} (h : NewResponse r key q d) (f : Nat → Nat → Qp → Dev → Dev) :
    takeResp r f d = f r.dqpn key q (respTaken r d) := by
  obtain ⟨hecrc, hrange, ⟨q0, hq0, hready, herror, rfl, hpeer⟩, hq⟩ := h
  have hvalid : ¬ (r.dqpn ≠ msgQpn ∧ (!(rangeValid r.dqpn d && numVh r.dqpn d == r.vh)) = true) := by
    rintro ⟨hne, hbad⟩
    obtain ⟨hv, hvh⟩ := hrange.resolve_left hne
    simp [hv, hvh] at hbad
  have hkey : ¬ (q0.state = 1 ∨ (q0.rd = true ∧ r.ekey ≠ endpointKey r.dqpn q0 d)) := by
    rintro (h1 | ⟨hrd, hne⟩)
    · omega
    · exact hne (hpeer hrd).1
  have hknown : ¬ ((q0.rd && (smFind q0.conns (respConn r q0)).isNone) = true) := by
    intro hnone
    obtain ⟨hrd, hn⟩ := Bool.and_eq_true_iff.mp hnone
    have hsome := (hpeer hrd).2
    rw [Option.isNone_iff_eq_none.mp hn] at hsome
    cases hsome
  unfold takeResp
  dsimp only
  rw [hecrc, Bool.not_true, if_neg Bool.false_ne_true, if_neg hvalid, qpOf_addI, hq0]
  dsimp only
  rw [if_neg (by omega), if_neg hkey, if_neg hknown, hq]
  rfl

/-! ## What a response does (R271 to R275, R286) -/

section
variable {n key psn : Nat} {q : Qp} {d : Dev}

section
variable (hflight : inFlight (q.conn key) psn = true)
include hflight

theorem takeAck_inFlight : takeAck psn n key q d = ackBefore n key (psnAdd psn 1) d := if_pos hflight

/-- An RNR_NAK within RNR_MAX stops the sending until RNR_US has passed (R274). -/
theorem takeRnr_within {q1 : Qp} (hq1 : qpOf n (ackBefore n key psn d) = some q1) (hmax : q.rnrMax = 7 ∨ (q1.conn key).rnr + 1 ≤ q.rnrMax) :
    takeRnr psn n key q d =
      updConn n key (fun c => { c with rnr := min (c.rnr + 1) 7, rnrWait := some psn, pass := none }) (ackBefore n key psn d) := by
  unfold takeRnr
  rw [hflight, Bool.not_true, if_neg Bool.false_ne_true]
  dsimp only
  rw [hq1]
  exact if_neg (by omega)

theorem takeSeq_inFlight (hpass : (q.conn key).pass = none) :
    takeSeq psn n key q d = (d |> bump Reg.TPE_SEQ_NAK_RX (n % 8) |> ackBefore n key psn |> beginPass n key psn) := by
  unfold takeSeq
  dsimp only
  rw [hflight, hpass, Bool.not_true, if_neg Bool.false_ne_true]
  exact if_neg Bool.false_ne_true

/-- A NAK ends the signaled request of a send queue that holds its PSN, and the queue pair enters ERROR (R275). -/
theorem takeError_signaled {q1 : Qp} {w : Wqe} (hq1 : qpOf n (ackBefore n key psn d) = some q1) (hw : wqeAt q1 key psn = some w)
    (hkind : w.kind = .sq) (hsignaled : w.signaled = true) (synd : Nat) :
    takeError synd psn n key q d = enterError n ⟨9, some (w.id, nakStatus synd), false, psn⟩ (ackBefore n key psn d) := by
  unfold takeError
  rw [hflight, Bool.not_true, if_neg Bool.false_ne_true]
  dsimp only
  rw [hq1]
  dsimp only
  rw [hw]
  dsimp only
  rw [hkind, hsignaled]
  rfl

end

/-- A response of a read or atomic whose PSN was not answered yet lands its data and acknowledges (R271). -/
theorem takeData_lands {t : TxPkt} {w : Wqe}
    (hfind : (q.conn key).out.find? (fun t => t.isRead && decide (psnSub psn t.psn < t.n)) = some t)
    (hnew : t.got.contains (psnSub psn t.psn) = false) (hw : q.started.find? (fun w => w.id == t.wqe) = some w)
    (data : Wqe → TxPkt → Nat → List Byte × Nat) :
    takeData psn data n key q d = (d |> landResp n w (data w t (psnSub psn t.psn)).2 (data w t (psnSub psn t.psn)).1
      |> updConn n key (fun c => { c with out := c.out.map (fun x =>
          if x.psn = t.psn then { x with got := x.got ++ [psnSub psn t.psn] } else x) })
      |> ackBefore n key (psnAdd psn 1)) := by
  unfold takeData
  dsimp only
  rw [hfind]
  dsimp only
  rw [hnew, if_neg Bool.false_ne_true, hw]

theorem takeResync_rd (hrd : q.rd = true) : takeResync n key q d =
    updConn n key (fun c => { c with synced := false, pass := if c.snd = c.una then none else some (c.una, c.una) }) d := by
  unfold takeResync
  rw [hrd]
  rfl

end

/-- Settles O4: each command takes its kind of response (`takeResp_new`), and what it does is the rule of its kind. -/
theorem requesterTakesResponses : Obligations.RequesterTakesResponses := by
  intro s r key q h
  refine ⟨fun hack hflight => ⟨fun hsynd => ?_, fun q1 hsynd hq1 hmax => ?_, fun hsynd hpass => ?_, fun q1 w hlo hhi hq1 hw hkind hsig => ?_⟩,
    fun t w hfind hnew hw => ⟨fun hlo hhi => ?_, fun hatomic => ?_⟩, fun hrd hack hsynd => ?_⟩
  · exact onEng_taken (by rw [hack, hsynd]; rfl) ((takeResp_new h _).trans (takeAck_inFlight hflight))
  · exact onEng_taken (by rw [hack, hsynd]; rfl) ((takeResp_new h _).trans (takeRnr_within hflight hq1 hmax))
  · exact onEng_taken (by rw [hack, hsynd]; rfl) ((takeResp_new h _).trans (takeSeq_inFlight hflight hpass))
  · exact onEng_taken (by rw [hack, decide_eq_true hlo, decide_eq_true hhi]; rfl)
      ((takeResp_new h _).trans (takeError_signaled hflight hq1 hw hkind hsig r.synd))
  · exact onEng_taken (by rw [decide_eq_true hlo, decide_eq_true hhi]; rfl) ((takeResp_new h _).trans (takeData_lands hfind hnew hw _))
  · exact onEng_taken (beq_iff_eq.mpr hatomic) ((takeResp_new h _).trans (takeData_lands hfind hnew hw _))
  · exact onEng_taken (by rw [hack, hsynd]; rfl) ((takeResp_new h _).trans (takeResync_rd hrd))

end Sys2Proof.Machine
end

section
/-!
PROOFS. The transport's timers and fetches (R272, R274, R276, R279, R284, R286, R290, R291).
-/

namespace Sys2Proof.Machine

/-! ## Timers of a connection (R272, R274, R276, R279, R284, R286) -/

section
variable {n key : Nat} {q : Qp} {s : State} (hq : qpOf n s.dev = some q)
include hq

theorem execRetransmitTimeout_outstanding (hstate : q.state = 3 ∨ q.state = 4) (hout : (q.conn key).snd ≠ (q.conn key).una) :
    execRetransmitTimeout n key s = .next { s with dev := engSettled (beginPass n key (q.conn key).una s.dev) } := by
  have hsends : ((q.state == 3 || q.state == 4) && (q.conn key).snd != (q.conn key).una) = true := by simpa [hout] using hstate
  refine onEng_eq ?_
  rw [hq]
  dsimp only
  rw [hsends, onlyIf_true]

theorem execRnrWaitExpire_waiting {psn : Nat} (hwait : (q.conn key).rnrWait = some psn) : execRnrWaitExpire n key s =
    .next { s with dev := engSettled (putQp n (some (q.setConn key { q.conn key with rnrWait := none, pass := some (psn, psn) })) s.dev) } := by
  refine onEng_eq ((updQp_some hq _).trans ?_)
  dsimp only
  rw [hwait]

theorem execSeqNakRepeat_gap (hresp : qpResponds q = true) (hnak : (q.conn key).nakSent = true) (hwrites : writesWait n s.dev = false) :
    execSeqNakRepeat n key s =
      .next { s with dev := engSettled (s.dev |> sendNak n key (q.conn key).epsn 2 0 |> bump Reg.TPE_SEQ_NAK_TX (n % 8)) } := by
  refine onEng_eq ?_
  rw [hq]
  dsimp only
  rw [hresp, hnak, hwrites]
  rfl

theorem execAckTimer_due (hresp : qpResponds q = true) (hdue : (q.conn key).ackDue = true) :
    execAckTimer n key s = .next { s with dev := engSettled (sendAck n key s.dev) } := by
  refine onEng_eq ?_
  rw [hq]
  dsimp only
  rw [hresp, hdue]
  rfl

theorem execRateRecover_raises : execRateRecover n s = .next { s with dev := engSettled (putQp n
      (some { q with rate := max q.rate (min (q.rate + rd Reg.TPE_RATE_STEP (n % 8) s.dev) q.portRate) }) s.dev) } :=
  onEng_eq (updQp_some hq _)

theorem execPeerRecordIdleEvict_idle (hrd : q.rd = true) (hknown : (smFind q.conns key).isSome = true) (hidle : peerIdle (q.conn key) = true) :
    execPeerRecordIdleEvict n key s = .next { s with dev := engSettled (s.dev
      |> updQp n (fun q => { q with conns := smErase q.conns key }) |> writePeer n q false (q.conn key)) } := by
  refine onEng_eq ?_
  rw [hq]
  dsimp only
  rw [hrd, hknown, hidle]
  rfl

end

/-! ## Fetches and the lagoon (R290, R291) -/

section
variable {n : Nat} {s : State} (hfetch : s.dev.eng.fetches.contains n = true)
include hfetch

theorem execContextFetchDone_ok (ns : Nat) {f : Fld} (hf : f = if numHost n s.dev then Reg.QPC_FETCH_HOST_MAX else Reg.QPC_FETCH_PKM_MAX) :
    execContextFetchDone n true ns s = .next { s with dev := engSettled (s.dev |> memDone (fetchRank n s.dev, n % 8, n)
      |> updEng (fun e => { e with fetches := e.fetches.filter (fun x => x != n) })
      |> wrFit f 0 (max (rd f 0 s.dev) ns) |> cacheCtx n |> runParked n) } := by
  subst hf
  refine onEng_eq ?_
  unfold fetching
  rw [hfetch]
  rfl

theorem execFetchSlow_fetching : execFetchSlow n s = .next { s with dev := engSettled (raise Ev.FETCH_SLOW 0 s.dev) } := by
  refine onEng_eq ?_
  unfold fetching
  rw [hfetch]
  rfl

end

theorem execLagoonAdmit_oldest {x : Park} {l : List Park} {s : State} (hpark : s.dev.eng.parked = x :: l) (hout : x.lagoon = false)
    (hroom : lagoonUsed s.dev + x.cells ≤ rd Reg.HBR_LAGOON_RSV 0 s.dev) : execLagoonAdmit (x.qpn % 8) s =
      .next { s with dev := engSettled (s.dev |> updEng (fun e => { e with parked := { x with lagoon := true, src := none } :: l })
        |> bump Reg.QPC_PARKED 0 |> countLagoon) } := by
  refine onEng_eq ?_
  rw [hpark, List.find?_cons_of_pos (by simp [hout])]
  dsimp only
  rw [if_pos hroom]
  simp

/-- Settles O5: each timer or fetch comes to the branch of its rule that the queue pair's state names. -/
theorem transportTimersAct : Obligations.TransportTimersAct := by
  refine ⟨?_, ?_, ?_, ?_, ?_, ?_, ?_, ?_, ?_⟩
  · exact fun s n key q hq hstate hout => execRetransmitTimeout_outstanding hq hstate hout
  · exact fun s n key psn q hq hwait => execRnrWaitExpire_waiting hq hwait
  · exact fun s n key q hq hresp hnak hwrites => execSeqNakRepeat_gap hq hresp hnak hwrites
  · exact fun s n key q hq hresp hdue => execAckTimer_due hq hresp hdue
  · exact fun s n q hq => execRateRecover_raises hq
  · exact fun s n ns hfetch f hf => execContextFetchDone_ok hfetch ns hf
  · exact fun s n hfetch => execFetchSlow_fetching hfetch
  · rintro s t x l hpark hout rfl hroom
    exact execLagoonAdmit_oldest hpark hout hroom
  · exact fun s n key q hq hrd hknown hidle => execPeerRecordIdleEvict_idle hq hrd hknown hidle

end Sys2Proof.Machine
end

section
/-!
PROOFS. The commands of the QPC page on queue pairs, ranges and completion queues (R256, R266, R269, R287, R296).
-/

namespace Sys2Proof.Machine

/-! ## CMD_GO (R296) -/

/-- A served write of CMD_GO while CMD_OP names the command runs it. -/
theorem qpcCmd_served {op : Nat} {d : Dev} (hserved : served 0x12 0 0x108 d) (hop : rd Reg.QPC_CMD_OP 0 d = op) : qpcCmd op d = qpcGo d := by
  unfold qpcCmd
  rw [hop, beq_self_eq_true, onlyIf_true, trigger_served hserved]

/-- A command ends with the data and the block that it came to (R296). -/
theorem qpcGo_done {op num : Nat} {b : List Byte} {d d1 : Dev} (hop : rd Reg.QPC_CMD_OP 0 d = op) (hnum : rd Reg.QPC_CMD_NUM 0 d = num)
    (hrun : qpcRun op num (rd Reg.QPC_MODIFY_TO 0 d) (qpcData d) none d = (0, b, d1)) : qpcGo d = qpcDone b d1 := by
  unfold qpcGo
  rw [hop, hnum, hrun]
  rfl

/-- What a served write of CMD_GO answers. -/
theorem onEng_qpcCmd {op num : Nat} {b : List Byte} {s : State} {d : Dev} (hserved : served 0x12 0 0x108 s.dev)
    (hop : rd Reg.QPC_CMD_OP 0 s.dev = op) (hnum : rd Reg.QPC_CMD_NUM 0 s.dev = num)
    (hrun : qpcRun op num (rd Reg.QPC_MODIFY_TO 0 s.dev) (qpcData s.dev) none s.dev = (0, b, d)) :
    onEng (qpcCmd op) s = .next { s with dev := engSettled (qpcDone b d) } :=
  onEng_eq ((qpcCmd_served hserved hop).trans (qpcGo_done hop hnum hrun))

/-! ## What each command comes to (R256, R266, R269, R287) -/

section
variable {op num to_ : Nat} {b : List Byte} {d : Dev}

/-- The checks that come before every command on a queue pair or a completion queue let one at hand through; no number is foreign to the page,
which asks for no slice. -/
theorem QpcReady.passes (h : QpcReady op num d) {number foreign host run : CmdOut} :
    (if (decide ((op ≤ 3 ∧ (num = 0 ∨ num = msgQpn)) ∨ 2 ^ 24 ≤ num) || !rangeValid num d) = true then number
      else if false = true then foreign
      else if (numHost num d && !bme (numVh num d) d) = true then host
      else run) = run := by
  obtain ⟨_, _, _, hpos, hlt, hvalid, hmaster⟩ := h
  have hnumber : ¬ ((op ≤ 3 ∧ (num = 0 ∨ num = msgQpn)) ∨ 2 ^ 24 ≤ num) := by
    unfold msgQpn at *
    omega
  have hhost : (numHost num d && !bme (numVh num d) d) = false := by
    rcases hmaster with hpkm | hbme
    · rw [hpkm, Bool.false_and]
    · rw [hbme, Bool.not_true, Bool.and_false]
  rw [decide_eq_false hnumber, hvalid, hhost]
  rfl

theorem qpcRun_query {q : Qp} (h : QpcReady 0 num d) (hq : qpOf num d = some q) : qpcRun 0 num to_ b none d = (0, contextBytes q, d) := by
  refine h.passes.trans ?_
  simp only [hq]

theorem qpcRun_create (h : QpcReady 1 num d) (hfree : qpOf num d = none) (htype : bitsOf (fieldLe b 0 1) 4 2 = 0) :
    qpcRun 1 num to_ b none d =
      (0, [], d |> takeFree |> clearRecord num |> putQp num (some { Qp.init (numSlice num d) false with rnrTmr := rnrFree d })) := by
  refine h.passes.trans ?_
  simp only [hfree, htype]
  rfl

section
variable {q : Qp} (h : QpcReady 2 num d) (hq : qpOf num d = some q)
include h hq

theorem qpcRun_modify {q1 : Qp} (hto : to_ ≠ 5) (hmod : modifyQp q to_ b d = .inl q1) : qpcRun 2 num to_ b none d =
    (0, [], (if to_ = 4 then groupsDown num d else if q.state = 2 ∧ to_ = 3 then takeFree d else d)
      |> onlyIf (to_ == 0) (fun d => d |> clearRecord num |> forgetRings num) |> putQp num (some q1) |> drainCheck num) := by
  refine h.passes.trans ?_
  simp only [hq, hto, hmod, if_false]

theorem qpcRun_toError (hstate : q.state ≠ 0) :
    qpcRun 2 num 5 b none d = (0, [], d |> enterError num (Ending.plain (q.conn 0).una) |> kickAtomics) := by
  refine h.passes.trans ?_
  simp only [hq, hstate, if_true, if_false]

end

theorem qpcRun_destroy {q : Qp} (h : QpcReady 3 num d) (hq : qpOf num d = some q) (hstate : q.state = 0 ∨ q.state = 5) :
    qpcRun 3 num to_ b none d = (0, [], d |> putQp num none |> forgetRings num
      |> updEng (fun e => { e with cached := e.cached.filter (fun x => x != num), pinWait := e.pinWait.filter (fun x => x != num) })) := by
  refine h.passes.trans ?_
  simp only [hq, hstate, if_true]

theorem qpcRun_rangeRead (hr : num < 4096) :
    qpcRun 4 num to_ b none d = (0, leBytes 4 (rangeOf num d).1 ++ leBytes 8 (rangeOf num d).2 ++ leBytes 4 0, d) := by
  unfold qpcRun
  dsimp only
  rw [if_pos (.inl rfl), Option.isSome_none, if_neg Bool.false_ne_true, if_neg (by omega), if_pos rfl]

theorem qpcRun_rangeWrite (hr : num < 4096) (hok : rangeWriteOk num (fieldLe b 0 4 % 2 ^ 18) (fieldLe b 4 8) d = true) :
    qpcRun 5 num to_ b none d = (0, [], updEng (fun e => { e with
      ranges := smSet (fun _ => (0, 0)) e.ranges num (fieldLe b 0 4 % 2 ^ 18, fieldLe b 4 8) }) d) := by
  unfold qpcRun
  dsimp only
  rw [if_pos (.inr rfl), Option.isSome_none, if_neg Bool.false_ne_true, if_neg (by omega), if_neg (by decide), if_pos hok]

theorem qpcRun_cqCreate (h : QpcReady 6 num d) (hfree : cqOf num d = none) (hmin : 4 ≤ fieldLe b 1 1) (hmax : fieldLe b 1 1 ≤ 16) :
    qpcRun 6 num to_ b none d =
      (0, [], d |> touchCq num |> putCq num (some ⟨1, fieldLe b 1 1, false, false, 0, 0, fieldLe b 16 8, true⟩)) := by
  refine h.passes.trans ?_
  simp only [hfree, Option.isSome_none, Bool.false_eq_true, if_false]
  exact if_neg (by omega)

theorem qpcRun_cqDestroy {c : Cq} (h : QpcReady 7 num d) (hc : cqOf num d = some c) : qpcRun 7 num to_ b none d =
    (0, [], d |> putCq num none |> updEng (fun e => { e with cqCached := e.cqCached.filter (fun x => x != num) })) := by
  refine h.passes.trans ?_
  simp only [hc]
  rfl

theorem qpcRun_cqQuery {c : Cq} (h : QpcReady 8 num d) (hc : cqOf num d = some c) :
    qpcRun 8 num to_ b none d = (0, cqBytes c, touchCq num d) := by
  refine h.passes.trans ?_
  simp only [hc]

end

/-- Settles O6: the command at hand passes its checks (`QpcReady.passes`), comes to its own rule and ends as `onEng_qpcCmd` says. -/
theorem queuePairCommandsComplete : Obligations.QueuePairCommandsComplete := by
  have hend {op n : Nat} {b : List Byte} {s : State} {d : Dev} (h : QpcReady op n s.dev)
      (hrun : qpcRun op n (rd Reg.QPC_MODIFY_TO 0 s.dev) (qpcData s.dev) none s.dev = (0, b, d)) :
      onEng (qpcCmd op) s = .next { s with dev := engSettled (qpcDone b d) } := by
    obtain ⟨hserved, hop, hnum, _⟩ := h
    exact onEng_qpcCmd hserved hop hnum hrun
  refine ⟨?_, ?_, ?_, ?_, ?_, ?_, ?_, ?_, ?_⟩
  · exact fun s n q h hq => hend h (qpcRun_query h hq)
  · exact fun s n h hfree htype => hend h (qpcRun_create h hfree htype)
  · rintro s n to_ q q1 h rfl hq
    refine ⟨fun hto hmod => hend h (qpcRun_modify h hq hto hmod), fun hto hstate => hend h ?_⟩
    rw [hto]
    exact qpcRun_toError h hq hstate
  · exact fun s n q h hq hstate => hend h (qpcRun_destroy h hq hstate)
  · exact fun s r hserved hop hnum hr => onEng_qpcCmd hserved hop hnum (qpcRun_rangeRead hr)
  · exact fun s r hserved hop hnum hr hok => onEng_qpcCmd hserved hop hnum (qpcRun_rangeWrite hr hok)
  · exact fun s n h hfree hmin hmax => hend h (qpcRun_cqCreate h hfree hmin hmax)
  · exact fun s n c h hc => hend h (qpcRun_cqDestroy h hc)
  · exact fun s n c h hc => hend h (qpcRun_cqQuery h hc)

end Sys2Proof.Machine
end

section
/-!
PROOFS. The commands of the MRG page and the fetches of translations (R300, R304 to R306).
-/

namespace Sys2Proof.Machine

/-! ## CMD_GO (R304, R305) -/

section
variable {op key : Nat} {b : List Byte} {pages idx : List Nat} {ok : Bool} {d d1 : Dev} (h : MrgReady op d)
include h

/-- A command at hand runs, and ends at once if it leaves no index whose old accesses must retire. -/
theorem mrgCmd_ready (hrun : mrgRun op (rd Reg.MRG_CMD_KEY 0 d) (mrgData d) pages ok none d = (0, key, b, idx, d1)) :
    mrgCmd op pages ok d =
      if idx.isEmpty then raise Ev.MRG_CMD_DONE 0 (mrgAnswer key b d1) else mrgRetiring idx (mrgAnswer key b d1) := by
  obtain ⟨hserved, hop, hbusy⟩ := h
  unfold mrgCmd
  rw [hop, beq_self_eq_true, onlyIf_true, trigger_served hserved]
  unfold mrgGo
  rw [if_neg (by omega), hop, hrun]
  rfl

theorem mrgCmd_ends (hrun : mrgRun op (rd Reg.MRG_CMD_KEY 0 d) (mrgData d) pages ok none d = (0, key, b, [], d1)) :
    mrgCmd op pages ok d = raise Ev.MRG_CMD_DONE 0 (mrgAnswer key b d1) :=
  (mrgCmd_ready h hrun).trans (if_pos rfl)

theorem mrgCmd_retires (hrun : mrgRun op (rd Reg.MRG_CMD_KEY 0 d) (mrgData d) pages ok none d = (0, key, b, idx, d1)) (hidx : idx ≠ []) :
    mrgCmd op pages ok d = mrgRetiring idx (mrgAnswer key b d1) :=
  (mrgCmd_ready h hrun).trans (if_neg (by rwa [List.isEmpty_iff]))

end

/-! ## What each command comes to (R300, R304, R305) -/

/-- The check of the page list lets one through that was read whole, by a function that may master the bus where there is one to read. -/
theorem pageList_passes {k v : Nat} {pages : List Nat} {d : Dev} (hpages : k ≤ pages.length) (hmaster : k = 0 ∨ bme v d = true) :
    ¬ ((!true) = true ∨ pages.length < k ∨ (k ≠ 0 ∧ (!bme v d) = true)) := by
  rintro (h | h | ⟨hne, hbme⟩)
  · cases h
  · exact hpages.not_gt h
  · rw [hmaster.resolve_left hne] at hbme
    cases hbme

section
variable {pages : List Nat} {i : Nat} {n : Region} {b : List Byte} {d : Dev} (hparam : regionParamOk n d = true)
include hparam

theorem mrgReg_room (hhead : headIndex d = some i)
    (hn : n = { regionFrom b pages with
      pages := pages.take (needPages (regionFrom b pages)), vh := slRd Reg.SLC_VH (regionFrom b pages).slice d })
    (hlimit : sliceRegions n.slice d < slRd Reg.SLC_MAX_REGIONS n.slice d) (hpages : needPages (regionFrom b pages) ≤ pages.length)
    (hmaster : needPages (regionFrom b pages) = 0 ∨ bme n.vh d = true) (hblocks : xltBlocks n ≤ xltFree d) :
    mrgReg b pages true none d = (0, some (i * 1024 + (regionOf i d).gen),
      d |> takeIndex |> putRegion i { n with gen := (regionOf i d).gen } |> countRegions (xltFree d)) := by
  subst hn
  unfold mrgReg
  rw [hhead]
  refine (if_neg nofun).trans ((if_neg ?_).trans ((if_neg hlimit.not_ge).trans
    ((if_neg (pageList_passes hpages hmaster)).trans (if_neg hblocks.not_gt))))
  rw [hparam]
  decide

theorem mrgRereg_valid {key : Nat} {r m : Region} (hr : regionOf i d = r)
    (hm : m = { r with va := (regionFrom b pages).va, len := (regionFrom b pages).len, access := (regionFrom b pages).access
                       shift := (regionFrom b pages).shift, target := (regionFrom b pages).target, plAddr := (regionFrom b pages).plAddr })
    (hn : n = { m with pages := pages.take (needPages m), gen := (r.gen + 1) % 1024, rereg := r.rereg + 1 })
    (hvalid : r.valid = true) (hgen : r.gen = keyGen key) (hcount : r.rereg < 1023) (hpages : needPages m ≤ pages.length)
    (hmaster : needPages m = 0 ∨ bme r.vh d = true) (hblocks : xltBlocks n ≤ xltFree d + xltBlocks r) :
    mrgRereg i key b pages true true d = (0, some (i * 1024 + n.gen), d |> putRegion i n |> countRegions (xltFree d)) := by
  subst hm hn hr
  refine (if_neg ?_).trans ((if_neg nofun).trans ((if_neg hcount.not_ge).trans ((if_neg ?_).trans
    ((if_neg (pageList_passes hpages hmaster)).trans (if_neg hblocks.not_gt)))))
  · simp [hvalid, hgen]
  · rw [hparam]
    decide

end

section
variable {key k : Nat} {b : List Byte} {pages : List Nat} {ok : Bool} {d d1 : Dev}

theorem mrgRun_reg (h : mrgReg b pages ok none d = (0, some k, d1)) : mrgRun 1 key b pages ok none d = (0, k, [], [], d1) := by
  unfold mrgRun
  dsimp only
  rw [h]
  rfl

theorem mrgRun_rereg (h : mrgRereg (keyIdx key) key b pages ok true d = (0, some k, d1)) :
    mrgRun 2 key b pages ok none d = (0, k, [], [keyIdx key], d1) := by
  unfold mrgRun
  dsimp only
  rw [h]
  rfl

theorem mrgRun_dereg (hvalid : (regionOf (keyIdx key) d).valid = true) (hgen : (regionOf (keyIdx key) d).gen = keyGen key) :
    mrgRun 3 key b pages ok none d = (0, key, [], [keyIdx key], d |> dereg (keyIdx key) |> countRegions (xltFree d)) := by
  refine (if_neg ?_).trans (if_neg nofun)
  simp [hvalid, hgen]

end

/-! ## What ends later (R305, R306) -/

theorem retireDone_page {idx : List Nat} {l : List (List Nat × Option (Nat × List Byte × List Byte))} {d : Dev}
    (hfirst : d.eng.retiring = (idx, none) :: l) (hretired : ∀ i ∈ idx, retired i d = true) : retireDone d =
      (d |> updEng (fun e => { e with retiring := l }) |> wr Reg.MRG_CMD_BUSY 0 0 |> raise Ev.MRG_CMD_DONE 0) := by
  have hremove : updEng (fun e => { e with retiring := e.retiring.erase (idx, none) }) d = updEng (fun e => { e with retiring := l }) d := by
    show updEng (fun e => { e with retiring := d.eng.retiring.erase (idx, none) }) d = _
    rw [hfirst, List.erase_cons_head]
  unfold retireDone
  rw [hfirst, List.find?_cons_of_pos (by simpa using hretired)]
  dsimp only
  rw [hremove]

theorem execXltFetchDone_oldest {x : Park} {l : List Park} {s : State} (hpark : s.dev.eng.parked = x :: l) (hwhy : x.why = 2)
    (hctx : s.dev.eng.fetches.contains x.qpn = false) : execXltFetchDone x.qpn true s = .next { s with dev := engSettled (s.dev
      |> updEng (fun e => { e with parked := e.parked.map (fun y => if y = x then { y with pkt := { y.pkt with xlt := true }, why := 0 } else y) })
      |> runParked x.qpn) } := by
  refine onEng_eq ?_
  rw [hpark, List.find?_cons_of_pos (by simp)]
  dsimp only
  rw [hctx]
  exact if_pos ⟨hwhy, rfl⟩

/-- Settles O7: a command at hand comes to its own rule (`mrgRun`); it ends at once, or once the accesses under old mappings retire. -/
theorem regionCommandsComplete : Obligations.RegionCommandsComplete := by
  refine ⟨?_, ?_, ?_, ?_, fun s key idx h hkey hidx => ?_, ?_, ?_⟩
  · exact fun s h => onEng_eq (mrgCmd_ends h rfl)
  · intro s pages i n h hhead hn hparam hlimit hpages hmaster hblocks
    exact onEng_eq (mrgCmd_ends h (mrgRun_reg (mrgReg_room hparam hhead hn hlimit hpages hmaster hblocks)))
  · rintro s pages r m n key h rfl hr hvalid hgen hcount hm hn hparam hpages hmaster hblocks
    have hrun := mrgRun_rereg (mrgRereg_valid hparam hr hm hn hvalid hgen hcount hpages hmaster hblocks)
    exact onEng_eq (mrgCmd_retires h hrun (List.cons_ne_nil _ []))
  · rintro s key h rfl hvalid hgen
    exact onEng_eq (mrgCmd_retires h (mrgRun_dereg hvalid hgen) (List.cons_ne_nil _ []))
  · subst hkey hidx
    refine ⟨fun hsome => onEng_eq (mrgCmd_retires h rfl hsome), fun hnone => onEng_eq (mrgCmd_ends h ?_)⟩
    rw [← hnone]
    rfl
  · exact fun s idx l hfirst hretired => onEng_eq (retireDone_page hfirst hretired)
  · rintro s n x l hpark rfl hwhy hctx
    exact execXltFetchDone_oldest hpark hwhy hctx

end Sys2Proof.Machine
end

section
/-!
PROOFS. Fast windows, reach-through windows and window groups (R305, R307 to R310, R319, R328, R329).
-/

namespace Sys2Proof.Machine

/-! ## Trigger bits of the WIN and BRG pages (R328, R329) -/

/-- A served trigger bit acts on the entry that the index register of its page names. -/
theorem onEng_indexedTrig {ty off bit i : Nat} {f : Fld} {act : Nat → Word → Dev → Dev} {s : State} {e : Dev} (hserved : served ty 0 off s.dev)
    (hidx : rd f 0 s.dev = i) (hact : act i (trigWord ty 0 off bit s.dev) s.dev = e) :
    onEng (trigger ty 0 off bit (fun v d => act (rd f 0 d) v d)) s = .next { s with dev := engSettled e } := by
  subst hidx
  exact onEng_eq ((trigger_served hserved ..).trans hact)

/-- On the WIN page, the fast window that WIN_IDX names. -/
theorem onEng_winTrig {w bit : Nat} {act : Nat → Word → Dev → Dev} {s : State} {e : Dev} (hserved : served 0x14 0 0x104 s.dev)
    (hidx : rd Reg.WIN_IDX 0 s.dev = w) (hact : act w (trigWord 0x14 0 0x104 bit s.dev) s.dev = e) :
    onEng (winTrig bit act) s = .next { s with dev := engSettled e } :=
  onEng_indexedTrig hserved hidx hact

/-- On the BRG page, the reach-through window that BW_IDX names. -/
theorem onEng_brgTrig {w bit : Nat} {act : Nat → Word → Dev → Dev} {s : State} {e : Dev} (hserved : served 0x15 0 0x104 s.dev)
    (hidx : rd Reg.BRG_BW_IDX 0 s.dev = w) (hact : act w (trigWord 0x15 0 0x104 bit s.dev) s.dev = e) :
    onEng (brgTrig bit act) s = .next { s with dev := engSettled e } :=
  onEng_indexedTrig hserved hidx hact

/-- On the BRG page, the window group that GRP_IDX names. -/
theorem onEng_grpTrig {g bit : Nat} {act : Nat → Word → Dev → Dev} {s : State} {e : Dev} (hserved : served 0x15 0 0x134 s.dev)
    (hidx : rd Reg.BRG_GRP_IDX 0 s.dev = g) (hact : act g (trigWord 0x15 0 0x134 bit s.dev) s.dev = e) :
    onEng (grpTrig bit act) s = .next { s with dev := engSettled e } :=
  onEng_indexedTrig hserved hidx hact

/-! ## Commits (R307 to R310) -/

section
variable {off : Nat} {val : Word} {d : Dev}

theorem commitWin_fits {w : Nat} {d1 : Dev} (hfits : winFits (winOf w d).shadow d = true)
    (hd1 : d1 = (d |> agePast w |> putWin w ⟨(winOf w d).shadow, (winOf w d).shadow⟩ |> setPend w true |> addMod Reg.WIN_COMMITS 0 0 1)) :
    commitWin w off val d = wr Reg.WIN_OPEN_CNT 0 (openWins d1) d1 := by
  subst hd1
  exact if_pos hfits

theorem commitBwin_fits {w : Nat} (hfits : bwinFits w (bwinOf w d).shadow d = true) : commitBwin w off val d =
    (d |> dropBlocks (fun b => b.win == w) |> agePastBw w |> putBwin w ⟨(bwinOf w d).shadow, (bwinOf w d).shadow⟩) := if_pos hfits

theorem commitGrp_fits {g : Nat} (hfits : grpFits g (grpOf g d).shadow d = true) : commitGrp g off val d =
    putGrp g ⟨(grpOf g d).shadow, (grpOf g d).shadow⟩ d := if_pos hfits

end

/-! ## Fences (R305, R308) -/

theorem execWindowFenceDone_fast {w : Nat} {s : State} (hpend : winPend w s.dev = true) (hretired : winRetired w s.dev = true) :
    execWindowFenceDone false w s =
      .next { s with dev := engSettled (s.dev |> setPend w false |> raise Ev.WIN_FENCE_DONE 0) } := by
  refine onEng_eq ?_
  rw [if_neg Bool.false_ne_true, hpend, hretired]
  rfl

theorem execWindowFenceDone_reach {w : Nat} {s : State} (hfence : (bw w s.dev).fence = true) (hretired : bwinRetired w s.dev = true) :
    execWindowFenceDone true w s =
      .next { s with dev := engSettled (s.dev |> updBw w (fun b => { b with fence := false }) |> raise Ev.BRG_FENCE_DONE 0) } := by
  refine onEng_eq ?_
  rw [if_pos rfl, hfence, hretired]
  rfl

/-- Settles O8: each trigger bit acts on the indexed window (`onEng_winTrig`), and a fence ends once nothing old is outstanding. -/
theorem fastWindowCommandsComplete : Obligations.FastWindowCommandsComplete := by
  refine ⟨fun s w hserved hidx => ⟨?_, ?_, ?_, ?_, fun d hfits hd => ?_⟩, ?_, ?_⟩
  · exact onEng_winTrig hserved hidx rfl
  · exact onEng_winTrig hserved hidx rfl
  · exact onEng_winTrig hserved hidx rfl
  · exact onEng_winTrig hserved hidx rfl
  · exact onEng_winTrig hserved hidx (commitWin_fits hfits hd)
  · exact fun s w hpend hretired => execWindowFenceDone_fast hpend hretired
  · exact fun s w hfence hretired => execWindowFenceDone_reach hfence hretired

/-- Settles O10: each trigger bit acts on the indexed window (`onEng_brgTrig`) or group (`onEng_grpTrig`). -/
theorem bridgeWindowCommandsComplete : Obligations.BridgeWindowCommandsComplete := by
  refine ⟨fun s w hserved hidx => ⟨?_, ?_, ?_, ?_, ?_, fun hfits => ?_⟩, fun s g hserved hidx => ⟨?_, ?_, fun hfits => ?_⟩⟩
  · exact onEng_brgTrig hserved hidx rfl
  · exact onEng_brgTrig hserved hidx rfl
  · exact onEng_brgTrig hserved hidx rfl
  · exact onEng_brgTrig hserved hidx rfl
  · exact onEng_brgTrig hserved hidx rfl
  · exact onEng_brgTrig hserved hidx (commitBwin_fits hfits)
  · exact onEng_grpTrig hserved hidx rfl
  · exact onEng_grpTrig hserved hidx rfl
  · exact onEng_grpTrig hserved hidx (commitGrp_fits hfits)

end Sys2Proof.Machine
end

section
/-!
PROOFS. TLPs through a reach-through window, and the timers of the bridge (R309, R311, R312, R314 to R316).
-/

namespace Sys2Proof.Machine

/-! ## TLPs (R311, R312, R315, R316) -/

section
variable {vh req tag ofs len w : Nat} {s : State}

theorem brgMemWriteTlp_permitted {data : List Byte} (be : List Bool) (hwin : findWin vh ofs data.length s.dev = some w)
    (hall : allHeld s.dev < rd Reg.BRG_WBUF_CELLS 0 s.dev) (hgrp : grpHeld (bwGrp w s.dev) s.dev < grpCells (bwGrp w s.dev) s.dev)
    (hperm : bwPerm w 2 s.dev = true) (hrts : grpRts (bwGrp w s.dev) s.dev = true) : answers (.brgMemWriteTlp vh ofs data be) s
      (engSettled (s.dev
        |> dropBlocks (fun b => b.grp == bwGrp w s.dev
            && overlaps (remAddr b.win b.addr s.dev) b.len (remAddr w ofs s.dev) data.length)
        |> bump Reg.BRG_WR_TLP 0 |> carryRuns w (max 1 ((data.length + 255) / 256)) (runsOf ofs data be))) := by
  show execBrgMemWriteTlp vh ofs data be s = _
  refine onEng_eq ?_
  rw [hwin]
  dsimp only
  rw [if_neg (by omega), hperm, if_neg nofun, hrts, if_neg nofun]

section
variable (hwin : findWin vh ofs len s.dev = some w) (hrts : grpRts (bwGrp w s.dev) s.dev = true)
include hwin hrts

theorem brgMemReadTlp_permitted (hlatch : (bw w s.dev).latch = false) (hperm : bwPerm w 1 s.dev = true) :
    answers (.brgMemReadTlp vh req tag ofs len) s (engSettled (enterRead (brgAsk w vh req tag ofs len 0 0 0 0 s.dev) s.dev)) := by
  show execBrgMemReadTlp vh req tag ofs len s = _
  refine onEng_eq ?_
  rw [hwin]
  dsimp only
  rw [if_neg (by simp [hlatch, hrts]), hperm, if_neg nofun]

theorem brgLockedRead_permitted (hlatch : (bw w s.dev).latch = false) (hperm : bwPerm w 4 s.dev = true) :
    answers (.brgLockedRead vh req tag ofs len) s (engSettled (enterRead (brgAsk w vh req tag ofs len 2 0 0 0 s.dev) s.dev)) := by
  show execBrgLockedRead vh req tag ofs len s = _
  refine onEng_eq ?_
  rw [hwin]
  dsimp only
  rw [hperm, if_neg nofun, if_neg (by simp [hlatch, hrts])]

theorem brgAtomicopTlp_permitted {kind wop : Nat} (op1 op2 : Nat) (hperm : bwPerm w 3 s.dev = true) (hwop : aopWop kind len = some wop) :
    answers (.brgAtomicopTlp vh req tag ofs kind len op1 op2) s (engSettled (enterRead (brgAsk w vh req tag ofs len 1 wop op1 op2 s.dev) s.dev)) := by
  show execBrgAtomicopTlp vh req tag ofs kind len op1 op2 s = _
  refine onEng_eq ?_
  rw [hwin]
  dsimp only
  rw [hwop]
  dsimp only
  rw [if_neg (by simp [hperm, hrts])]

end

end

/-! ## What waits in the bridge (R312, R316) -/

theorem brgQueuedReadIssue_tagFree {r : BrgRead} {s : State}
    (hread : s.dev.eng.brgReads.find? (fun r => r.state == 0 && tagFree r.win s.dev) = some r) :
    answers .brgQueuedReadIssue s (engSettled (issueRead r s.dev)) := by
  show execBrgQueuedReadIssue s = _
  refine onEng_eq ?_
  rw [hread]

theorem brgRdTimeout_known {id : Nat} {r : BrgRead} {s : State} (hread : s.dev.eng.brgReads.find? (fun r => r.id == id) = some r) :
    answers (.brgRdTimeout id) s (engSettled (s.dev |> abortBrgRead r |> bump Reg.BRG_RD_TMO_CNT 0 |> raise Ev.BRG_RD_TIMEOUT 0)) := by
  show execBrgRdTimeout id s = _
  refine onEng_eq ?_
  rw [hread]

theorem brgUnlockMsg_holders (vh req : Nat) (s : State) : answers (.brgUnlockMsg vh req) s (engSettled (forEach ((List.range 1024).filter
    (fun w => grpVh (bwGrp w s.dev) s.dev == vh && (bw w s.dev).lock == some req)) unlock s.dev)) := by
  show execBrgUnlockMsg vh req s = _
  exact onEng_eq rfl

theorem winLockTmo_held {w h : Nat} {s : State} (hlock : (bw w s.dev).lock = some h) :
    answers (.winLockTmo w) s (engSettled (s.dev |> unlock w |> latchWin w 6 0 false
      |> sliceEvent (grpSlice (bwGrp w s.dev) s.dev) RingEv.WIN_LOCK_TMO w (h % 65536))) := by
  show execWinLockTmo w s = _
  refine onEng_eq ?_
  rw [hlock]

/-- Settles O11: each TLP passes the checks of its rule and is carried or enters; each timer finds what it ends. -/
theorem bridgeCarriesTlps : Obligations.BridgeCarriesTlps := by
  refine ⟨?_, fun s vh req tag ofs len w hwin hlatch hrts => ⟨?_, ?_, ?_⟩, ?_, ?_, ?_, ?_, ?_⟩
  · exact fun s vh ofs w data be hwin hall hgrp hperm hrts => brgMemWriteTlp_permitted be hwin hall hgrp hperm hrts
  · exact fun hperm => brgMemReadTlp_permitted hwin hrts hlatch hperm
  · exact fun hperm => brgLockedRead_permitted hwin hrts hlatch hperm
  · exact fun kind op1 op2 wop hperm hwop => brgAtomicopTlp_permitted hwin hrts op1 op2 hperm hwop
  · exact fun s r hread => brgQueuedReadIssue_tagFree hread
  · exact fun s vh req => brgUnlockMsg_holders vh req s
  · exact fun s id r hread => brgRdTimeout_known hread
  · exact fun s w h hlock => winLockTmo_held hlock
  · exact fun s w ofs => onEng_eq rfl

end Sys2Proof.Machine
end

section
/-!
PROOFS. Messages, the message map and the sideband wires of the slots (R320 to R324, R330).
-/

namespace Sys2Proof.Machine

/-! ## Messages (R320, R322) -/

theorem messageIn_inOrder {p : SftPkt} {q : Qp} {key : Nat} {d d1 : Dev} (hecrc : p.ecrcOk = true) (hekey : p.ekey = rd Reg.MAP_EKEY 0 d)
    (hopc : p.opc = 0x20) (hq : qpOf msgQpn d = some q) (hconn : connFor msgQpn q p d = (some key, d1))
    (hpsn : p.psn = (((qpOf msgQpn d1).getD q).conn key).epsn) :
    messageIn p d = (d1 |> accept msgQpn key 1 true p |> takeMessage p.slid p.nvalue |> ackPolicy msgQpn key p.ackReq) := by
  unfold messageIn
  rw [hecrc, if_neg nofun, if_neg (not_not_intro hekey), hq]
  dsimp only
  rw [hconn]
  dsimp only
  rw [if_pos hpsn, if_pos hopc]

theorem execFwdRangeWrite_peer {vh ofs f lid : Nat} {data : List Byte} {q : Qp} {s : State} (hrange : fwdRange vh s.dev = some f)
    (hlo : f ≤ ofs) (hhi : ofs < f + 4096) (hlen : data.length = 4) (hlid : rdI Reg.MAP_FWD_LID 0 vh s.dev = lid)
    (hq : qpOf msgQpn s.dev = some q) (hpeer : (smFind q.conns (peerKey lid msgQpn)).isSome = true) :
    execFwdRangeWrite vh ofs data s = .next { s with dev := engSettled (s.dev |> putQp msgQpn (some q)
      |> addWqe msgQpn .finish (fun w => { w with
          wop := 9, op1 := ofLe data % 65536 + ofLe data * 2 ^ 32, rkey := rdI Reg.MAP_FWD_EKEY 0 vh s.dev, conn := peerKey lid msgQpn })
      |> bump Reg.MAP_FWD_TX 0) } := by
  subst hlid
  have hknown : ¬ ((smFind q.conns (peerKey (rdI Reg.MAP_FWD_LID 0 vh s.dev) msgQpn)).isNone = true) := by
    simpa using Option.isSome_iff_ne_none.mp hpeer
  refine onEng_eq ?_
  rw [hrange]
  dsimp only
  rw [if_neg (by omega), if_neg (not_not_intro hlen), hq]
  dsimp only
  rw [if_neg hknown, if_neg hknown]

/-! ## The message map (R321, R330) -/

section
variable {i off : Nat} {ws ws0 : List Nat} {val : Word} {d : Dev} (hws : maskRow mapMask ws0 = ws)
  (hport : uspPort (wbits ws 1 16 4) d = some (wbits ws 1 20 8)) (haddr : wpair ws 2 % 4 = 0)
include hws hport haddr

theorem mapPut_notPending (hpend : d.eng.mapPend.contains i = false) : mapPut i ws0 off val d = putMap i ws d := by
  subst hws
  unfold mapPut
  dsimp only
  rw [hport, haddr, if_pos (by simp), hpend, Bool.and_false, if_neg Bool.false_ne_true]

theorem mapPut_unmasks (hpend : d.eng.mapPend.contains i = true) (hmasked : wbits (mapOf i d) 0 29 1 = 1) (hopen : wbits ws 0 29 1 = 0) :
    mapPut i ws0 off val d = (d |> putMap i ws |> updEng (fun e => { e with mapPend := e.mapPend.filter (fun x => x != i) })
      |> takeFree |> msgWrite ws (free 32 d)) := by
  subst hws
  unfold mapPut
  dsimp only
  rw [hport, haddr, if_pos (by simp), hpend, hmasked, hopen]
  rfl

end

/-! ## The wire map (R323, R324) -/

theorem wireGo_idle {d : Dev} (hidle : rd Reg.BRG_WIRE_BUSY 0 d = 0) (hok : wireMapOk (fun x => rdI Reg.BRG_WIRE_STG 0 x d) = true)
    {ch : List Nat} (hch : ch = (List.range 32).filter (fun x => rdI Reg.BRG_WIRE_STG 0 x d != rdI Reg.BRG_WIRE_MAP 0 x d)) (val : Word) :
    wireGo val d = (d |> wr Reg.BRG_WIRE_BUSY 0 1
      |> updEng (fun e => { e with wireOpen := ch.map (fun x => (x, rdI Reg.BRG_WIRE_STG 0 x d)) })
      |> hostsFollow (ch.map (fun x => (x, rdI Reg.BRG_WIRE_MAP 0 x d)))) := by
  subst hch
  unfold wireGo
  rw [if_neg (by omega), if_pos hok]

theorem execWireCommitComplete_busy {s : State} (hbusy : rd Reg.BRG_WIRE_BUSY 0 s.dev = 1) : execWireCommitComplete s =
    .next { s with dev := engSettled (s.dev |> forEach s.dev.eng.wireOpen (fun x => wrI Reg.BRG_WIRE_MAP 0 x.1 x.2)
      |> updEng (fun e => { e with wireOpen := [] }) |> hostsFollow s.dev.eng.wireOpen
      |> forEach s.dev.eng.wireOpen (fun x => perstFollows x.1) |> wr Reg.BRG_WIRE_BUSY 0 0 |> raise Ev.WIRE_MAP_DONE 0) } :=
  onEng_eq (if_neg (by omega))

/-! ## Edges on slot wires (R323, R324) -/

section
variable {slot k : Nat} {level : Bool} {d : Dev}

theorem wireEdge_inRange (hslot : slot < 32) (hk : k < 5) : wireEdge slot k level d =
    (d |> slotLevel slot k level |> onlyIf (wireAt slot k d < 16 && k != 0) (hostFollows (wireAt slot k d) k)) :=
  if_neg (by omega)

/-- A level that differs from the sampled copy is sampled, and counted and raised where the wire is watched. -/
theorem slotLevel_edge (hedge : bitOf (slotLvl k d) slot = !level) : slotLevel slot k level d =
    (d |> setSlotLvl k (putBit (slotLvl k d) slot level)
      |> onlyIf (bitOf (rdI Reg.BRG_WATCH 0 k d) slot) (fun d => d |> bump Reg.BRG_WIRE_EDGES 0 |> raise Ev.WIRE_EDGE 0)) :=
  if_neg (by simp [hedge])

theorem hostFollows_changed {h : Nat} (hchange : bitOf (hostLvl k d) h ≠ hostLevel h k d) : hostFollows h k d =
    (d |> setHostLvl k (putBit (hostLvl k d) h (hostLevel h k d)) |> emit .pin [1, 8 * h + k, bnat (hostLevel h k d)] []) :=
  if_neg hchange

variable (hslot : slot < 32) (hk : k < 5) (hedge : bitOf (slotLvl k d) slot = !level)
include hslot hk hedge

theorem wireEdge_host {h : Nat} {d1 : Dev} (hwire : k ≠ 0) (hat : wireAt slot k d = h) (hhost : h < 16)
    (hwatch : bitOf (rdI Reg.BRG_WATCH 0 k d) slot = false) (hd1 : d1 = setSlotLvl k (putBit (slotLvl k d) slot level) d)
    (hchange : bitOf (hostLvl k d) h ≠ hostLevel h k d1) : wireEdge slot k level d =
      (d1 |> setHostLvl k (putBit (hostLvl k d) h (hostLevel h k d1)) |> emit .pin [1, 8 * h + k, bnat (hostLevel h k d1)] []) := by
  have hpass : (decide (h < 16) && k != 0) = true := by simp [hhost, hwire]
  subst hd1
  rw [wireEdge_inRange hslot hk, slotLevel_edge hedge, hwatch, onlyIf_false, hat, hpass, onlyIf_true]
  exact hostFollows_changed hchange

theorem wireEdge_watched (hat : 16 ≤ wireAt slot k d) (hwatch : bitOf (rdI Reg.BRG_WATCH 0 k d) slot = true) : wireEdge slot k level d =
    (d |> setSlotLvl k (putBit (slotLvl k d) slot level) |> bump Reg.BRG_WIRE_EDGES 0 |> raise Ev.WIRE_EDGE 0) := by
  rw [wireEdge_inRange hslot hk, slotLevel_edge hedge, hwatch, onlyIf_true, decide_eq_false hat.not_gt]
  rfl

end

/-- Settles O12: a message, a map entry and a wire each come to the branch of their rule that the state names. -/
theorem messagesAndWiresAct : Obligations.MessagesAndWiresAct := by
  refine ⟨?_, ?_, fun s hserved => ⟨?_, fun i ws hidx hws hport haddr => ⟨fun hpend => ?_, fun hpend hmasked hopen => ?_⟩⟩, ?_, ?_, ?_, ?_⟩
  · intro s p q key d1 hmsg hecrc hekey hopc hq hconn hpsn
    exact onEng_taken (beq_iff_eq.mpr hmsg) (congrArg (afterTaken (msgQpn % 8) false) (messageIn_inOrder hecrc hekey hopc hq hconn hpsn))
  · exact fun s vh ofs f lid data q hrange hlo hhi hlen hlid hq hpeer => execFwdRangeWrite_peer hrange hlo hhi hlen hlid hq hpeer
  · rintro i ws rfl rfl
    exact onEng_eq (trigger_served hserved ..)
  · subst hidx
    exact onEng_eq ((trigger_served hserved ..).trans (mapPut_notPending hws hport haddr hpend))
  · subst hidx
    exact onEng_eq ((trigger_served hserved ..).trans (mapPut_unmasks hws hport haddr hpend hmasked hopen))
  · exact fun s ch hserved hidle hok hch => onEng_eq ((trigger_served hserved ..).trans (wireGo_idle hidle hok hch _))
  · exact fun s hbusy => execWireCommitComplete_busy hbusy
  · exact fun s slot k h level d1 hslot hk hwire hedge hat hhost hwatch hd1 hchange =>
      onEng_eq (wireEdge_host hslot hk hedge hwire hat hhost hwatch hd1 hchange)
  · exact fun s slot k level hslot hk hedge hat hwatch => onEng_eq (wireEdge_watched hslot hk hedge hat hwatch)

end Sys2Proof.Machine
end

section
/-!
PROOFS. What no step undoes (R501, R502, R508, R518), and that no register read shows the identity seed (R33, R42, R501).
-/

namespace Sys2Proof.Machine

/-! ## What a step adds to -/

/-- Settles O54: a command's parts (`exec_ran`), and what the memory path serves, only add to the trace, the free values drawn and OTP. -/
theorem nothingIsUndone : Obligations.NothingIsUndone := by
  rintro ⟨d, q⟩ t h
  cases q with
  | nil =>
    rw [step_nil] at h
    cases h
    have heff := memServeAll_eff { d with th := { d.th with localNs := d.th.localNs + 1, fabric := (d.th.fabric + fabricRate d) % 2 ^ 80 } }
    exact ⟨heff.out, heff.free, heff.otp⟩
  | cons c rest =>
    rw [step_cons] at h
    obtain ⟨e, he, heff⟩ := exec_ran c ⟨d, rest⟩
    cases he.symm.trans h
    exact ⟨heff.out, heff.free, heff.otp⟩

/-! ## The identity seed (R501) -/

/-- A block with another identity seed. -/
def withSeed (seed : List Byte) (d : Dev) : Dev := updOtp (fun o => { o with identSeed := seed }) d

section
variable (seed : List Byte) (d : Dev)

@[simp] theorem withSeed_mg : (withSeed seed d).mg = d.mg := rfl
@[simp] theorem pageExists_withSeed (ty inst : Nat) : pageExists ty inst (withSeed seed d) = pageExists ty inst d := rfl
@[simp] theorem domState_withSeed (n : Nat) : domState n (withSeed seed d) = domState n d := rfl
@[simp] theorem bcastSet_withSeed (ty inst : Nat) : bcastSet ty inst (withSeed seed d) = bcastSet ty inst d := rfl

/-- No field that a page shows from state kept elsewhere is the seed. -/
theorem liveFields_withSeed (ty inst : Nat) : liveFields ty inst (withSeed seed d) = liveFields ty inst d := rfl

@[simp] theorem memberWord_withSeed (ty inst off : Nat) (bcast : Bool) :
    memberWord ty inst off bcast (withSeed seed d) = memberWord ty inst off bcast d := by
  unfold memberWord pageWord
  rw [liveFields_withSeed]
  rfl

@[simp] theorem peekWord_withSeed (ty inst off : Nat) : peekWord ty inst off (withSeed seed d) = peekWord ty inst off d := by
  unfold peekWord
  simp only [bcastSet_withSeed, memberWord_withSeed]

/-- Clearing what a read clears leaves the seed, word by word (`clearRc_updOtp`). -/
theorem forEach_clearRc_withSeed (ty inst : Nat) (offs : List Nat) :
    forEach offs (clearRc ty inst) (withSeed seed d) = withSeed seed (forEach offs (clearRc ty inst) d) :=
  forEach_comm (withSeed seed) (clearRc ty inst) (fun off x => clearRc_updOtp _ ty inst off x) offs d

theorem clearRc_withSeed (ty inst off : Nat) (m : Mgmt) :
    clearRc ty inst off { withSeed seed d with mg := m } = withSeed seed (clearRc ty inst off { d with mg := m }) :=
  clearRc_updOtp (fun o => { o with identSeed := seed }) ty inst off { d with mg := m }

theorem readAccess_withSeed (path : Path) (a : Nat) :
    readAccess path a (withSeed seed d) = ((readAccess path a d).1, withSeed seed (readAccess path a d).2) := by
  unfold readAccess
  simp only [withSeed_mg, pageExists_withSeed, domState_withSeed, memberWord_withSeed, peekWord_withSeed]
  split
  · rfl
  split
  · rfl
  split
  · rfl
  split
  · rfl
  · rw [← forEach_clearRc_withSeed]
    refine congrArg (Prod.mk _) (congrArg _ ?_)
    exact clearRc_withSeed ..

end

/-- Settles O56: what a read answers and what it leaves are the same functions of a block with another seed (`readAccess_withSeed`). -/
theorem seedIsHidden : Obligations.SeedIsHidden := by
  intro path a d seed
  exact Prod.ext_iff.mp (readAccess_withSeed seed d path a)

end Sys2Proof.Machine
end

section
/-!
PROOFS. Match contexts and the match post ring (R335, R341, R342, R347, R348).
-/

namespace Sys2Proof.Machine

/-! ## The commands of a quadrant's page (R335) -/

/-- What a served write of CMD_GO answers while CMD_OP names the command. -/
theorem onEng_mteCmd {k op i : Nat} {a b : List Byte} {s : State} {d : Dev} (h : MteReady k op s.dev)
    (ha : a = regBytes Reg.MTE_CMD_DATA k 8 s.dev) (hrun : mteRun k op (rd Reg.MTE_CMD_IDX k s.dev) a none s.dev = (0, i, b, d)) :
    onEng (mteCmd k op) s = .next { s with dev := engSettled (mteDone k i b d) } := by
  obtain ⟨hserved, hop⟩ := h
  refine onEng_eq ?_
  unfold mteCmd mteGo
  rw [hop, beq_self_eq_true, onlyIf_true, trigger_served hserved]
  dsimp only
  rw [hop, ← ha, hrun]
  rfl

section
variable {k i : Nat} {c : MCtx} {b : List Byte} {d : Dev}

theorem mteRun_query (hc : ctxOf k i d = some c) : mteRun k 0 i b none d = (0, i, ctxBytes k i c d, d) := by
  unfold mteRun
  simp only [hc, if_true]

theorem mteRun_destroy (hc : ctxOf k i d = some c) : mteRun k 2 i b none d = (0, i, [], destroyCtx k i 0x0E d) := by
  unfold mteRun
  simp only [hc, if_true]

end

/-- The entry that CTX_CREATE takes is one of the free ones. -/
theorem pickCtx_mem {k : Nat} {d : Dev} (h : freeCtxs k d ≠ []) : pickCtx k d ∈ freeCtxs k d := by
  unfold pickCtx
  have hlt : free 12 d % (freeCtxs k d).length < (freeCtxs k d).length := Nat.mod_lt _ (List.length_pos_iff.mpr h)
  rw [List.getD_eq_getElem _ _ hlt]
  exact List.getElem_mem hlt

theorem mteRun_create {k i idx : Nat} {b : List Byte} {c : MCtx} {d e : Dev}
    (hc : c = { ctxid := fieldLe b 0 4, slice := fieldLe b 4 2 % 4096, failed := false, rcqn := fieldLe b 8 4 % 2 ^ 24
                uxMax := fieldLe b 12 4 % 2 ^ 24, postStamp := 0, arrStamp := 0 })
    (hi : i = pickCtx k d) (he : e = putCtx k i (some c) (takeFree d)) (hquad : quadOf c.slice c.ctxid = k)
    (hown : ownsNum c.slice c.rcqn d = true) (hnew : findCtx k c.slice c.ctxid d = none)
    (hmax : sliceCtxs c.slice d < slRd Reg.SLC_MAX_CTX c.slice d) (hfree : freeCtxs k d ≠ []) :
    mteRun k 1 idx b none d = (0, i, [], countQuad k (poolFree k e) e) := by
  rw [hi, hc] at he
  rw [hi, he]
  rw [hc] at hquad hown hnew hmax
  have hplace : ¬ (quadOf (fieldLe b 4 2 % 4096) (fieldLe b 0 4) ≠ k ∨
      (!ownsNum (fieldLe b 4 2 % 4096) (fieldLe b 8 4 % 2 ^ 24) d) = true) := by
    rintro (hne | hno)
    · exact hne hquad
    · rw [hown] at hno
      cases hno
  have hroom : ¬ (slRd Reg.SLC_MAX_CTX (fieldLe b 4 2 % 4096) d ≤ sliceCtxs (fieldLe b 4 2 % 4096) d ∨ freeCtxs k d = []) := by
    simp only [hfree, or_false]
    exact Nat.not_le.mpr hmax
  unfold mteRun
  dsimp only
  rw [if_neg (by decide), if_neg hplace, hnew, if_neg (by decide), if_neg hroom]
  rfl

/-! ## The match post ring (R341, R342) -/

/-- An entry whose context is ready leaves the ring and is resolved. -/
theorem takeEntry_ready {n mop i : Nat} {c : MCtx} {e : List Byte} {d : Dev} (h : EntryReady n mop i c e d) (hmop : mop < 3) :
    takeEntry n e d = decideEntry (quadOf n (fieldLe e 4 4)) i n c e (popPost n d) := by
  obtain ⟨_, rfl, hfind, hctx, hsound, hkey, hwait, hread⟩ := h
  unfold takeEntry
  simp only [hfind, Option.bind_some, hctx, Option.map_some, hsound, hwait, hread]
  have hlkey : ¬ (fieldLe e 0 1 = 0 ∧ (!lkeyOk n (fieldLe e 12 4) (fieldLe e 32 8) (fieldLe e 40 4) true d) = true) := by
    rintro ⟨h0, hbad⟩
    rw [hkey h0] at hbad
    cases hbad
  rw [if_neg (by omega), if_neg Bool.false_ne_true, if_neg hlkey, if_neg (by simp)]

section
variable {n i : Nat} {c : MCtx} {e : List Byte} {s : State}

theorem execMatchPost_ready (h : EntryReady n 0 i c e s.dev) : execMatchPost n s =
    .next { s with dev := engSettled (decidePost (quadOf n (fieldLe e 4 4)) i n c e (popPost n s.dev)) } := by
  have htake := takeEntry_ready h (by decide)
  obtain ⟨hnext, hmop, _⟩ := h
  refine onEng_eq ?_
  simp only [hnext, hmop]
  refine (onlyIf_true ..).trans ?_
  rw [htake]
  unfold decideEntry
  rw [hmop]
  rfl

theorem execMatchProbe_ready (h : EntryReady n 1 i c e s.dev) : execMatchProbe n s =
    .next { s with dev := engSettled (decideProbe (quadOf n (fieldLe e 4 4)) i e (popPost n s.dev)) } := by
  have htake := takeEntry_ready h (by decide)
  obtain ⟨hnext, hmop, _⟩ := h
  refine onEng_eq ?_
  simp only [hnext, hmop]
  refine (onlyIf_true ..).trans ?_
  rw [htake]
  unfold decideEntry
  rw [hmop]
  rfl

theorem execMatchCancel_ready (h : EntryReady n 2 i c e s.dev) : execMatchCancel n s =
    .next { s with dev := engSettled (decideCancel (quadOf n (fieldLe e 4 4)) i e (popPost n s.dev)) } := by
  have htake := takeEntry_ready h (by decide)
  obtain ⟨hnext, hmop, _⟩ := h
  refine onEng_eq ?_
  simp only [hnext, hmop]
  refine (onlyIf_true ..).trans ?_
  rw [htake]
  unfold decideEntry
  rw [hmop]
  rfl

end

/-- The fetch that a context's oldest waiting entry asked for resolves that entry and those behind it (R348). -/
theorem execOverflowFetchDone_post {k i n : Nat} {c : MCtx} {e : List Byte} {s : State}
    (hwait : ((quad k s.dev).waits.take 32).find? (fun w => w.context == i) = some (.post i n e))
    (hctx : ctxOf k i (memDone (1, k, i) s.dev) = some c) :
    execOverflowFetchDone k i s = .next { s with dev := engSettled (moreWaits k i
      ((quad k (decideEntry k i n c e (popWait k (.post i n e) (memDone (1, k, i) s.dev)))).waits.length)
      (decideEntry k i n c e (popWait k (.post i n e) (memDone (1, k, i) s.dev)))) } := by
  have hresolve : resolveWait k i (.post i n e) (memDone (1, k, i) s.dev) =
      decideEntry k i n c e (popWait k (.post i n e) (memDone (1, k, i) s.dev)) := by
    unfold resolveWait
    simp only [hctx]
  refine onEng_eq ?_
  simp only [hwait, hresolve]

/-- Settles O9: a command comes to its case of `mteRun`, an entry that is ready to `decideEntry` of its MOP, a fetch to the entry that waited. -/
theorem matchCommandsComplete : Obligations.MatchCommandsComplete := by
  refine ⟨?_, ?_, ?_, ?_, ?_, ?_, ?_⟩
  · rintro s k i c h rfl hc
    exact onEng_mteCmd h rfl (mteRun_query hc)
  · intro s k i b c d h hb hc hquad hown hnew hmax hfree hi hd
    exact ⟨hi ▸ pickCtx_mem hfree, onEng_mteCmd h hb (mteRun_create hc hi hd hquad hown hnew hmax hfree)⟩
  · rintro s k i c h rfl hc
    exact onEng_mteCmd h rfl (mteRun_destroy hc)
  · exact fun s n i c e h => execMatchPost_ready h
  · exact fun s n i c e h => execMatchProbe_ready h
  · exact fun s n i c e h => execMatchCancel_ready h
  · rintro s k i n w c e d hwait rfl rfl hctx
    exact execOverflowFetchDone_post hwait hctx

end Sys2Proof.Machine
end

section
/-!
PROOFS. The collective units: the commands of their pages (R358, R359, R363, R364, R391), launch (R365 to R367, R381), packets and timers (R370,
R374, R383 to R387).
-/

namespace Sys2Proof.Machine

/-! ## The commands of a unit's page (R391) -/

/-- What a served write of CMD_GO answers while CMD_OP and CMD_IDX name a command that passes. -/
theorem onDev_cleCmd {u op i : Nat} {s : State} {d : Dev} (h : CleReady u op i s.dev) (hrun : cleRun u op i (cleData u s.dev) s.dev = (0, 0, d)) :
    onDev (cleCmd u op) s = .next { s with dev := cleDone u d } := by
  obtain ⟨hserved, hop, hidx⟩ := h
  refine onDev_eq ?_
  unfold cleCmd cleGo
  rw [hop, beq_self_eq_true, onlyIf_true, trigger_served hserved]
  dsimp only
  rw [hop, hidx, hrun]
  rfl

/-! ### Groups (R358, R363) -/

section
variable {u g : Nat} {x : CGroup} {ws : List Nat} {d : Dev} (hg : g < 4096) (hu : unitOf g = u)
include hg hu

theorem cleRun_grpRead : cleRun u 0 g ws d = (0, 0, putCleData u (grpWords g d) d) := by
  unfold cleRun
  simp only [hg, hu, decide_true, beq_self_eq_true, Bool.and_self, if_true]

theorem cleRun_grpCreate (hnew : cgrp g d = none) (hok : grpError u g ws false d = 0) {d1 : Dev}
    (hd1 : d1 = (d |> putCgrp g (some (CGroup.fresh (maskRow grpDefined ws))) |> moveRsv u 0 0 (linesFor ws) (collCells ws))) :
    cleRun u 1 g ws d = (0, 0, wr Reg.CLE_GROUPS u (grpsOfUnit u d1) d1) := by
  rw [hd1]
  unfold cleRun
  simp only [hg, hu, decide_true, beq_self_eq_true, Bool.and_self, Bool.not_true, Bool.false_eq_true, if_false, hnew, Option.isSome_none, hok,
    ne_eq, not_true]

variable (hold : cgrp g d = some x)
include hold

theorem cleRun_grpModify (hok : grpError u g ws true d = 0) : cleRun u 2 g ws d =
    (0, 0, d |> putCgrp g (some (x.modified (maskRow grpDefined ws))) |> moveRsv u x.lines x.cells (linesFor ws) (collCells ws)) := by
  unfold cleRun
  simp only [hg, hu, decide_true, beq_self_eq_true, Bool.and_self, Bool.not_true, Bool.false_eq_true, if_false, hold, hok, ne_eq, not_true]

theorem cleRun_grpDestroy (hidle : x.state ≠ 1) {d1 : Dev} (hd1 : d1 = (d |> putCgrp g none |> moveRsv u x.lines x.cells 0 0)) :
    cleRun u 3 g ws d = (0, 0, wr Reg.CLE_GROUPS u (grpsOfUnit u d1) d1) := by
  rw [hd1]
  unfold cleRun
  simp only [hg, hu, decide_true, beq_self_eq_true, Bool.and_self, Bool.not_true, Bool.false_eq_true, if_false, hold, hidle]

end

/-! ### Children and member slots (R359, R364) -/

section
variable {u i : Nat} {ws : List Nat} {d : Dev} (hi : i < 16384)
include hi

theorem cleRun_childRead : cleRun u 4 i ws d = (0, 0, putCleData u (childOf u i d) d) := by
  unfold cleRun
  simp only [hi, if_true]

theorem cleRun_childWrite (hport : isNeighbour ws = true → childRef ws < 144) : cleRun u 5 i ws d = (0, 0, updColl (fun c => { c with
    children := smSet (fun _ => List.replicate 4 0) c.children (u * 16384 + i) (maskRow childDefined ws) }) d) := by
  have hgood : ¬ (isNeighbour ws && decide (144 ≤ childRef ws)) = true := by
    rw [Bool.and_eq_true, decide_eq_true_eq]
    rintro ⟨hn, hbad⟩
    exact absurd (hport hn) (Nat.not_lt.mpr (hbad))
  unfold cleRun
  dsimp only
  exact (if_neg (Nat.not_le.mpr hi)).trans (if_neg hgood)

variable (hu : unitOf i = u)
include hu

theorem cleRun_memberRead : cleRun u 6 i ws d = (0, 0, putCleData u (memberWords i d) d) := by
  unfold cleRun
  simp only [hi, hu, decide_true, beq_self_eq_true, Bool.and_self, if_true]

theorem cleRun_memberBind {n : Nat} (hfree : (memberOf i d).bound = false) (hgrp : unitOf (wbits ws 0 0 12) = u) (halign : wbits ws 2 0 6 = 0)
    (hmin : 4 ≤ wbits ws 4 0 4) (hmax : wbits ws 4 0 4 ≤ 12) (hn : wbits ws 0 12 12 = n)
    (hroom : (slotsOfSlice n d).length < slRd Reg.SLC_MAX_MEMBERS n d) :
    cleRun u 7 i ws d = (0, 0, updMember i (fun _ => { CMember.init with words := maskRow memberDefined ws, bound := true }) d) := by
  have hring : ¬ (wbits ws 2 0 6 ≠ 0 ∨ wbits ws 4 0 4 < 4 ∨ 12 < wbits ws 4 0 4) := by omega
  unfold cleRun
  simp only [hi, hu, decide_true, beq_self_eq_true, Bool.and_self, Bool.not_true, Bool.false_eq_true, if_false, hfree, hgrp, hring, hn, ne_eq,
    not_true, Nat.not_le.mpr hroom]

theorem cleRun_memberUnbind (hbound : (memberOf i d).bound = true) (hidle : (memberOf i d).run = none) :
    cleRun u 8 i ws d = (0, 0, updMember i (fun _ => CMember.init) d) := by
  unfold cleRun
  simp only [hi, hu, decide_true, beq_self_eq_true, Bool.and_self, Bool.not_true, Bool.false_eq_true, if_false, hbound, hidle,
    Option.isSome_none, or_self]

end

/-- Settles O17: a command at hand comes to its case of `cleRun`, which its operands and the entry it names let pass. -/
theorem unitCommandsComplete : Obligations.UnitCommandsComplete := by
  refine ⟨?_, fun s u i hi => ⟨fun h => ?_, ?_⟩, fun s u i hi hu => ⟨fun h => ?_, ?_, fun h hbound hidle => ?_⟩⟩
  · rintro s u g x ws hg hu rfl
    refine ⟨fun h => ?_, fun d1 h hnew hok hd1 => ?_, fun h hold hok => ?_, fun d1 h hold hidle hd1 => ?_⟩
    · exact onDev_cleCmd h (cleRun_grpRead hg hu)
    · exact onDev_cleCmd h (cleRun_grpCreate hg hu hnew hok hd1)
    · exact onDev_cleCmd h (cleRun_grpModify hg hu hold hok)
    · exact onDev_cleCmd h (cleRun_grpDestroy hg hu hold hidle hd1)
  · exact onDev_cleCmd h (cleRun_childRead hi)
  · rintro ws h rfl hport
    exact onDev_cleCmd h (cleRun_childWrite hi hport)
  · exact onDev_cleCmd h (cleRun_memberRead hi hu)
  · rintro ws n h rfl hfree hgrp halign hmin hmax hn hroom
    exact onDev_cleCmd h (cleRun_memberBind hi hu hfree hgrp halign hmin hmax hn hroom)
  · exact onDev_cleCmd h (cleRun_memberUnbind hi hu hbound hidle)

/-! ## Launch (R365 to R367, R381) -/

/-- A doorbell to a slot of the ACTIVE slice that owns it fetches the slot's descriptors. -/
theorem execCollDoorbell_bound {n slot : Nat} {s : State} {e : Dev} (index : Nat) {es : List (List Byte)} (hactive : slState n s.dev = slActive)
    (hbound : (memberOf slot s.dev).bound = true) (hslice : (memberOf slot s.dev).slice = n)
    (hfetch : ringFetch n (7 * 2 ^ 24 + slot) index (descAddr (memberOf slot s.dev) (memberOf slot s.dev).pi) es (serveColl slot index) s.dev = e) :
    execCollDoorbell (slRd Reg.SLC_VH n s.dev) n true slot index es s = .next { s with dev := engSettled e } := by
  refine onEng_eq ?_
  rw [if_neg (by simp [hactive, slActive, slFree]), Bool.not_true, if_neg Bool.false_ne_true, hbound, hslice, beq_self_eq_true, Bool.and_self,
    Bool.not_true, if_neg Bool.false_ne_true, bell_active rfl hactive, hfetch]

theorem serveColl_on {slot : Nat} {d : Dev} (hon : domOn (52 + unitOf slot) d = true) (index : Nat) (es : List (List Byte)) :
    serveColl slot index es d = updMember slot (fun m => { m with pi := index, ring := m.ring ++ es }) d := if_pos hon

/-- A descriptor that passes its checks is taken, and its member released or held armed. -/
theorem startDesc_takes {slot : Nat} {m : CMember} {b : List Byte} {rest : List (List Byte)} {x : CGroup} {r : CRun} {d d1 : Dev}
    (hm : memberOf slot d = m) (hring : m.ring = b :: rest) (hidle : m.run = none) (hgrp : cgrp m.group d = some x) (hbound : m.bound = true)
    (hinst : x.inst = none) (hactive : slState m.slice d = slActive) (hon : domOn (52 + unitOf slot) d = true)
    (hdesc : descInvalid x m.rank b = false) (hkeys : descKeysOk m.slice m.rank b d = true) (hsound : x.state ≠ 2)
    (hr : r = { idx := m.ci, desc := b, seq := 0, armed := bitOf (fieldLe b 3 1) 1, data := none, res := [] })
    (hd1 : d1 = updMember slot (fun m => { m with ring := rest, ci := (m.ci + 1) % 65536, run := some r }) d) :
    startDesc slot d = if r.armed then d1 else release slot d1 := by
  rw [hd1, hr]
  unfold startDesc
  simp only [hm, hring, hidle, hgrp, hinst, hbound, hactive, hon, hdesc, hkeys, hsound, Bool.not_true, Bool.false_eq_true, beq_self_eq_true,
    Bool.true_or, or_self, if_false]

/-- Settles O18: a doorbell of the slot's slice comes to `ringFetch`, which posts its descriptors or asks for their page; a descriptor that
passes is taken by `startDesc`. -/
theorem collectivesLaunch : Obligations.CollectivesLaunch := by
  refine ⟨?_, ?_⟩
  · rintro s v n slot index es rfl hactive hbound hslice hon
    refine ⟨fun hdirect => ?_, ?_⟩
    · exact execCollDoorbell_bound index hactive hbound hslice ((ringFetch_direct hdirect).trans (serveColl_on hon index es))
    · rintro at_ rfl hes hats hfirst
      refine ⟨fun hhit => ?_, fun hmiss => ?_⟩
      · exact execCollDoorbell_bound index hactive hbound hslice ((ringFetch_translated hes hats hfirst hhit).trans (if_pos rfl))
      · exact execCollDoorbell_bound index hactive hbound hslice ((ringFetch_translated hes hats hfirst hmiss).trans (if_neg Bool.false_ne_true))
  · exact fun s slot m b rest x r d1 hm hring hidle hgrp hbound hinst hactive hon hdesc hkeys hsound hr hd1 =>
      onEng_eq (startDesc_takes hm hring hidle hgrp hbound hinst hactive hon hdesc hkeys hsound hr hd1)

/-! ## Packets (R370, R374, R383 to R386) -/

/-- While the unit's domain is ON a packet is taken at once. -/
theorem onEng_collPkt {type port : Nat} {p : CollPkt} {s : State} {e : Dev} (hon : domOn (52 + unitOf p.dgrp) s.dev = true)
    (h : takeColl type port p s.dev = e) : onEng (collPkt type port p) s = .next { s with dev := engSettled e } :=
  onEng_eq ((if_pos hon).trans h)

section
variable {port : Nat} {p : CollPkt} {x : CGroup} {d : Dev} (hgrp : cgrp p.dgrp d = some x)
include hgrp

/-- An UP block that agrees with its instance is stored at its child's position (R373, R374). -/
theorem takeUp_agrees {pos : Nat} {d1 : Dev} {x1 : CGroup} {n : CInst} {l : List CElem} (hsound : x.state ≠ 2) (htree : (p.tri == 1) = x.alt)
    (hwin : blkSub p.block x.blk < 2 * x.win) (hchild : childAt (unitOf p.dgrp) x port d = some pos)
    (hd1 : d1 = beginInst p.dgrp p.cop p.oper p.dtype p.count d) (hx1 : cgrp p.dgrp d1 = some x1) (hinst : x1.inst = some n)
    (hagree : agrees n p.cop p.oper p.dtype p.count p.exact_ = true) (hseq : n.seq = p.seq) (herr : p.err = false) (hempty : p.empty = false)
    (hread : readWire p.dtype p.oper p.exact_ (elemsAt x n p.block) p.payload = .elems l) :
    takeUp port p d =
      (d1 |> putPart p.dgrp p.block pos (childCount x.words x.alt) ⟨none, p.last, some l⟩ |> runGroup p.dgrp) := by
  have hin : ¬ (x.state = 2 ∨ (p.tri == 1) ≠ x.alt ∨ 2 * x.win ≤ blkSub p.block x.blk) := by simp [hsound, htree, hwin]
  rw [hd1] at hx1 ⊢
  unfold takeUp
  simp only [hgrp, hchild, hx1, hinst, Option.bind_some, hagree, hseq, herr, hempty, hread]
  rw [if_neg hin]
  simp only [Bool.or_self, Bool.false_eq_true, if_false, beq_self_eq_true, Bool.and_self, Bool.not_true, reduceCtorEq, or_self, decide_false,
    Bool.false_and, onlyIf_false]

/-- The next DOWN block from the parent of the tree in force goes down (R374). -/
theorem takeDown_next {n : CInst} (hinst : x.inst = some n) (htree : (p.tri == 1) = x.alt) (hparent : hasParent x.words x.alt = true)
    (hport : parentPort x.words x.alt = port) (hseq : p.seq = n.seq) (hblk : p.block = x.blk) :
    takeDown port p d = (d |> passDown p.dgrp (downPart x n p) false |> runGroup p.dgrp) := by
  unfold takeDown
  simp only [hgrp, hinst]
  exact if_neg (by simp [htree, hparent, hport, hseq, hblk])

variable (halt : onAlt p.dgrp port d = true)
include halt

theorem takeFault_unseen (htree : x.alt = false) (hnew : (2, p.seq, p.tri) ∉ x.seen) : takeFault port p d =
    (d |> spread 2 p.dgrp p.seq p.tri (some port) |> updCgrp p.dgrp (fun x => { x with waiting := true }) |> decideFault p.dgrp p.seq) := by
  unfold takeFault
  simp only [hgrp]
  exact if_neg (by simp [halt, hnew, htree])

theorem takeAbortPkt_unseen (hnew : (3, p.seq, p.tri) ∉ x.seen) : takeAbortPkt port p d =
    (d |> spread 3 p.dgrp p.seq p.tri (some port) |> takeAbort p.dgrp p.seq) := by
  unfold takeAbortPkt
  simp only [hgrp]
  exact if_neg (by simp [halt, hnew])

theorem takeGoOnPkt_unseen (hnew : (4, p.seq, p.tri) ∉ x.seen) : takeGoOnPkt port p d =
    (d |> spread 4 p.dgrp p.seq p.tri (some port) |> takeGoOn p.dgrp p.seq) := by
  unfold takeGoOnPkt
  simp only [hgrp]
  exact if_neg (by simp [halt, hnew])

theorem takeRedeliver_other (hother : p.count % 2 ^ 20 ≠ rd Reg.RTE_MY_LID (port / 8) d) : takeRedeliver port p d =
    forEach ((edgesOf (unitOf p.dgrp) x.words true d).filter (fun e => e.port != port)) (fun e => sendColl 5 e p) d := by
  unfold takeRedeliver
  simp only [hgrp, halt, Bool.not_true, Bool.false_eq_true, if_false]
  exact if_neg hother

end

/-! ## Timers (R387) -/

section
variable {g : Nat} {x : CGroup} {s : State} (hgrp : cgrp g s.dev = some x)
include hgrp

theorem execCollFaultTimeout_waiting (hwait : x.waiting = true) :
    execCollFaultTimeout g s = .next { s with dev := engSettled (failGroup g s.dev) } := by
  refine onEng_eq ?_
  simp only [hgrp, hwait]
  rfl

theorem execCollOpTimeout_running (hrun : x.inst.isSome = true) :
    execCollOpTimeout g s = .next { s with dev := engSettled (failGroup g s.dev) } := by
  refine onEng_eq ?_
  simp only [hgrp, hrun]
  rfl

end

/-- Settles O19: with its unit ON each packet comes to the rule of its TYPE, and each rule to the branch that the group's state names. -/
theorem collectivePacketsCarried : Obligations.CollectivePacketsCarried := by
  refine ⟨?_, fun s g x hgrp => ⟨fun hwait => ?_, fun hrun => ?_⟩⟩
  · rintro s port g p x rfl hon hgrp
    refine ⟨?_, ?_, fun halt htree hnew => ?_, fun halt hnew => ?_, fun halt hnew => ?_, fun halt hother => ?_⟩
    · exact fun pos d1 x1 n l hsound htree hwin hchild hd1 hx1 hinst hagree hseq herr hempty hread => onEng_collPkt hon
        (takeUp_agrees hgrp hsound htree hwin hchild hd1 hx1 hinst hagree hseq herr hempty hread)
    · exact fun n hinst htree hparent hport hseq hblk => onEng_collPkt hon (takeDown_next hgrp hinst htree hparent hport hseq hblk)
    · exact onEng_collPkt hon (takeFault_unseen hgrp halt htree hnew)
    · exact onEng_collPkt hon (takeAbortPkt_unseen hgrp halt hnew)
    · exact onEng_collPkt hon (takeGoOnPkt_unseen hgrp halt hnew)
    · exact onEng_collPkt hon (takeRedeliver_other hgrp halt hother)
  · exact execCollFaultTimeout_waiting hgrp hwait
  · exact execCollOpTimeout_running hgrp hrun

end Sys2Proof.Machine
end

section
/-!
PROOFS. The expansion switch: TLPs and configuration requests (R397, R398, R400, R401, R407, R409, R437), isolation, links, EXP_EN and slot wires
(R406 to R408, R411, R419, R422, R551), and the composite streams (R413 to R415).
-/

namespace Sys2Proof.Machine

/-! ## TLPs (R400, R401, R407) -/

/-- On an enabled port with its link up a TLP is counted and comes to the port's meter. -/
theorem execExpTlpRx_linkUp {k : Nat} {t : Tlp} {s : State} {d0 e : Dev} (hon : expOn k s.dev = true) (hlink : rd Reg.EXP_DL_ACTIVE k s.dev = 1)
    (hd0 : d0 = (s.dev |> bump Reg.EXP_TLP_RX k |> onlyIf t.poison (poisonSeen k t.ld))) (h : meterTlp k t (portTlp k) d0 = e) :
    execExpTlpRx k t s = .next { s with dev := engSettled (releaseFenced e) } := by
  refine onEng_eq ?_
  rw [hon, hlink, ← hd0, h]
  rfl

section
variable {k : Nat} {t : Tlp} {f : Tlp → Dev → Dev} {d d1 : Dev}

theorem meterTlp_passes {c : Nat} {m : Bool} {t1 : Tlp}
    (hmeter : meterTake (rd Reg.EXP_PORT k d) t.tc 0 t.bytes.length d = (some (c, m), d1)) (ht1 : t1 = { t with colour := c, mark := m }) :
    meterTlp k t f d = f t1 d1 := by
  unfold meterTlp
  simp only [hmeter, ht1]

theorem meterTlp_drops (hmeter : meterTake (rd Reg.EXP_PORT k d) t.tc 0 t.bytes.length d = (none, d1)) : meterTlp k t f d = d1 := by
  unfold meterTlp
  simp only [hmeter]

end

/-- At an upstream port a TLP that is not for the management function goes to its destination (R400). -/
theorem portTlp_upstream {k v : Nat} {t : Tlp} {d : Dev} (husp : isUsp k d = true) (hv : rd Reg.EXP_LVH k d = v)
    (hdest : fromHost v t d ≠ .fn v 2) :
    portTlp k t d = (d |> bump Reg.VHC_TLP_DOWN v |> toDest (rd Reg.EXP_PORT k d) k v t (fromHost v t d)) := by
  subst hv
  unfold portTlp uspTlp
  rw [if_pos husp]
  dsimp only
  rw [if_neg hdest]

/-- A device's response to an outstanding request of a host homed here goes to that host (R407). -/
theorem portTlp_response {k ld vh v n : Nat} {t : Tlp} {r : NpReq} {d d1 : Dev} (hdsp : isUsp k d = false) (hopen : isolated k d = false)
    (hbound : (swPort k d).bound.find? (fun b => b.1 == t.ld) = some (ld, vh, some (v, n))) (hresp : t.response = true)
    (htake : takeNp k t d = (some r, d1)) (hown : 64 ≤ r.member) :
    portTlp k t d = devTlp (rd Reg.EXP_PORT k d) k v n (some k) t d1 := by
  unfold portTlp dspTlp
  rw [hdsp, if_neg Bool.false_ne_true]
  dsimp only
  rw [hopen, if_neg Bool.false_ne_true, hbound]
  dsimp only
  rw [if_pos hresp, htake]
  exact if_neg (by omega)

/-! ## Configuration requests (R397, R398, R409, R437) -/

section
variable {v k bus dev fn off be data req tag : Nat} {type1 : Bool} {d : Dev} (husp : uspIdx v d = some k) (hready : ready d = true)
include husp hready

/-- A request to the network function, not in reset, reads or writes its configuration space. -/
theorem cfgRequest_net (hnet : cfgFn v type1 bus dev fn d = .net) (hflr : rd Reg.FUN_FLR_BUSY v d = 0) (wr : Bool) :
    cfgRequest v type1 wr bus dev fn off be data req tag d =
      if wr then d |> netCfgWrite v (off / 4 * 4 % 4096) data (beMask be) |> toExp 163 k (cplTlp (bus * 256 + dev * 8 + fn) 0 req tag)
      else toExp 163 k (cplWith (bus * 256 + dev * 8 + fn) req tag (leBytes 4 (netCfgRead v (off / 4 * 4 % 4096) d))) d := by
  have hretry : cfgRetry v .net d = false := by
    unfold cfgRetry
    rw [hready, hflr]
    rfl
  unfold cfgRequest
  simp only [husp, hnet, hretry, Bool.false_eq_true, if_false]

/-- A request for no function is answered Unsupported Request. -/
theorem cfgRequest_none (hnone : cfgFn v type1 bus dev fn d = .none) (wr : Bool) :
    cfgRequest v type1 wr bus dev fn off be data req tag d =
      (d |> bump Reg.EXP_UR_SENT k |> toExp 163 k (cplTlp (bus * 256 + dev * 8 + fn) 1 req tag)) := by
  have hretry : cfgRetry v .none d = false := by
    unfold cfgRetry
    rw [hready]
    rfl
  unfold cfgRequest
  simp only [husp, hnone, hretry, Bool.false_eq_true, if_false]

end

/-- Settles O27: a TLP passes or ends at its port's meter and then takes its port's rule; a configuration request comes to the function it names. -/
theorem switchCarriesTlps : Obligations.SwitchCarriesTlps := by
  refine ⟨?_, fun s v k bus dev fn off be data req tag type1 wr husp => ⟨fun hnet hready hflr => ⟨?_, ?_⟩, fun hnone hready => ?_⟩⟩
  · intro s k t d0 hon hlink hd0
    refine ⟨?_, fun d1 hmeter => execExpTlpRx_linkUp hon hlink hd0 (meterTlp_drops hmeter)⟩
    intro c m t1 d1 hmeter ht1
    refine ⟨fun v husp hv hdest => ?_, fun ld vh v n r d2 hdsp hopen hbound hresp htake hown => ?_⟩
    · exact execExpTlpRx_linkUp hon hlink hd0 ((meterTlp_passes hmeter ht1).trans (portTlp_upstream husp hv hdest))
    · exact execExpTlpRx_linkUp hon hlink hd0 ((meterTlp_passes hmeter ht1).trans (portTlp_response hdsp hopen hbound hresp htake hown))
  · exact onEng_eq ((cfgRequest_net husp hready hnet hflr false).trans (if_neg Bool.false_ne_true))
  · exact onEng_eq ((cfgRequest_net husp hready hnet hflr true).trans (if_pos rfl))
  · exact onEng_eq (cfgRequest_none husp hready hnone wr)

/-! ## Isolation and release (R407, R408) -/

section
variable {k : Nat} {s : State}

theorem execIsoSet_open (hserved : served 0x19 k 0x104 s.dev) (hvalid : rd Reg.EXP_IDX_VALID k s.dev = 1) (hopen : isolated k s.dev = false) :
    execIsoSet k s = .next { s with dev := engSettled (isolate k 5 s.dev) } := by
  refine onEng_eq ((trigger_served hserved ..).trans ?_)
  unfold isoSet
  rw [hvalid, hopen]
  rfl

theorem execIsoRel_manager (hserved : served 0x19 k 0x104 s.dev) (hiso : isolated k s.dev = true) (hcause : rd Reg.EXP_ISO_CAUSE k s.dev ≠ 3) :
    execIsoRel false k s =
      .next { s with dev := engSettled (s.dev |> updSwPort k (fun p => { p with needFm := false }) |> tryRelease k) } := by
  refine onEng_eq (((if_neg Bool.false_ne_true).trans (trigger_served hserved ..)).trans ?_)
  unfold isoRel
  rw [hiso, bne_iff_ne.mpr hcause]
  rfl

theorem execIsoRel_host (hiso : isolated k s.dev = true) : execIsoRel true k s =
    .next { s with dev := engSettled (s.dev |> updSwPort k (fun p => { p with needHost := false }) |> tryRelease k) } := by
  refine onEng_eq ?_
  rw [if_pos rfl, hiso]
  rfl

end

/-! ## Links and EXP_EN (R406, R419, R422) -/

section
variable {k : Nat} {d : Dev}

theorem expOn_enabled (hk : k < 64) (hvalid : rd Reg.EXP_IDX_VALID k d = 1) (hen : rd Reg.EXP_EN k d = 1) : expOn k d = true := by
  unfold expOn
  rw [hvalid, hen, decide_eq_true hk]
  rfl

variable {s : State}

theorem execDpcTrigger_surprise (hon : expOn k s.dev = true) (hopen : isolated k s.dev = false) (v n : Nat) :
    execDpcTrigger false true k v n s = .next { s with dev := engSettled (isolate k 2 s.dev) } := by
  refine onEng_eq ?_
  rw [if_neg Bool.false_ne_true, hon, hopen]
  rfl

theorem execExpDlChange_rises {speed width lds : Nat} (hon : expOn k s.dev = true) (hopen : isolated k s.dev = false) (hmin : 1 ≤ speed)
    (hmax : speed ≤ rd Reg.EXP_MAX_GEN k s.dev) (hwidth : width < 32) (hlds : lds ≤ 16) (cxl : Bool) (t : Training) :
    execExpDlChange k true speed width cxl lds t s = .next { s with dev := engSettled (dlUp k speed width t.flit cxl lds t s.dev) } := by
  refine onEng_eq ?_
  rw [if_pos rfl, hon, hopen, decide_eq_true ⟨hmin, hmax⟩, decide_eq_true ⟨hwidth, hlds⟩]
  rfl

theorem execExpDlChange_falls (hon : expOn k s.dev = true) (hlink : rd Reg.EXP_DL_ACTIVE k s.dev = 1) (speed width lds : Nat) (cxl : Bool)
    (t : Training) : execExpDlChange k false speed width cxl lds t s =
      .next { s with dev := engSettled (s.dev |> dlDown k |> onlyIf (isUsp k s.dev) (vhHotReset (rd Reg.EXP_LVH k s.dev))) } := by
  refine onEng_eq ?_
  rw [if_neg Bool.false_ne_true, hon, hlink]
  rfl

/-- EXP_EN rises where the harbour can hold the port; neither ISO_SET nor ISO_REL is written with it. -/
theorem execExpEnWrite_enables (hserved : served 0x19 k 0x104 s.dev) (hoff : rd Reg.EXP_EN k s.dev = 0)
    (hfits : harbourFits (wr Reg.EXP_EN k 1 s.dev) = true) : execExpEnWrite k 1#32 s =
      .next { s with dev := engSettled (s.dev |> wr Reg.EXP_EN k 1 |> sharedLowAlarm (sharedFree s.dev)) } := by
  have hbits : bitOf (1#32).toNat 0 = true ∧ bitOf (1#32).toNat 1 = false ∧ bitOf (1#32).toNat 2 = false := by decide
  obtain ⟨h0, h1, h2⟩ := hbits
  refine onEng_eq ?_
  rw [mgmtWrite_served hserved, unlessLocked_served hserved]
  unfold expCtl
  rw [h0, h1, h2, onlyIf_false, onlyIf_false]
  exact (if_pos ⟨rfl, hoff⟩).trans (if_pos hfits)

theorem execPerstDeassertTimer_free (hvalid : rd Reg.EXP_IDX_VALID k s.dev = 1) (hdsp : isUsp k s.dev = false)
    (hfree : perstHeld k s.dev = false) : execPerstDeassertTimer k s = .next { s with dev := engSettled (drivePerst k true s.dev) } := by
  refine onEng_eq ?_
  rw [hvalid, hdsp, hfree]
  rfl

end

/-! ## Slot wires (R411, R551) -/

section
variable {slot : Nat} {s : State}

theorem execSlotPrsntChange_edge (level : Bool) : execSlotPrsntChange slot level s = .next { s with dev := engSettled (s.dev
    |> wireEdge slot 2 level |> forEach (slotPorts slot 2 s.dev) (fun k d =>
      if (swPort k d).prsnt = !level then d else d |> updSwPort k (fun p => { p with prsnt := !level }) |> portChange 19 k)) } :=
  onEng_eq rfl

theorem execSlotAlertEdge_edge : execSlotAlertEdge slot s = .next { s with dev := engSettled (s.dev
    |> wireEdge slot 4 false |> forEach (slotPorts slot 4 s.dev) (raise Ev.EXP_ALERT)) } :=
  onEng_eq rfl

theorem execSlotWakeEdge_unowned (hports : slotPorts slot 1 s.dev = []) :
    execSlotWakeEdge slot s = .next { s with dev := engSettled (wireEdge slot 1 false s.dev) } := by
  refine onEng_eq ?_
  rw [hports]
  rfl

/-- An owned WAKE_N of a port with one device bound sends PM_PME toward the device's host. -/
theorem execSlotWakeEdge_owned {k v n b : Nat} {d1 : Dev} (hd1 : d1 = wireEdge slot 1 false s.dev) (hports : slotPorts slot 1 s.dev = [k])
    (hbound : (swPort k d1).bound = [(b, v, some (v, n))]) :
    execSlotWakeEdge slot s = .next { s with dev := engSettled (toDest 163 k v (pmPme (dspId v n d1) b) (.host v) d1) } := by
  refine onEng_eq ?_
  rw [hports, ← hd1, forEach_cons, forEach_nil, hbound, forEach_cons, forEach_nil]

theorem execSlotClkreqChange_low {k : Nat} (hports : slotPorts slot 3 s.dev = [k]) (hgated : rd Reg.EXP_CLKREQ_IGN k s.dev = 0) :
    execSlotClkreqChange slot false s = .next { s with dev := engSettled (s.dev |> wireEdge slot 3 false |> emit .pin [7, slot, 1] []) } := by
  have hgate : [k].filter (fun k => rd Reg.EXP_CLKREQ_IGN k s.dev == 0) = [k] := by simp [hgated]
  refine onEng_eq ?_
  rw [hports, hgate]
  rfl

end

/-- Settles O29: each command comes to the branch of its rule that the port's state, the edge or the written word names. -/
theorem switchPortsAndSlotsAct : Obligations.SwitchPortsAndSlotsAct := by
  refine ⟨fun s k hvalid hopen => ⟨?_, ?_, ?_, ?_⟩, ?_, fun s k hiso => ⟨?_, ?_⟩, ?_, fun s slot level => ⟨?_, ?_, ?_, ?_, ?_⟩⟩
  · exact fun hserved => execIsoSet_open hserved hvalid hopen
  · exact fun v n hk hen => execDpcTrigger_surprise (expOn_enabled hk hvalid hen) hopen v n
  · exact fun speed width lds cxl t hk hen hmin hmax hwidth hlds =>
      execExpDlChange_rises (expOn_enabled hk hvalid hen) hopen hmin hmax hwidth hlds cxl t
  · exact execPerstDeassertTimer_free hvalid
  · exact fun s k speed width lds cxl t hon hlink => execExpDlChange_falls hon hlink speed width lds cxl t
  · exact fun hserved hcause => execIsoRel_manager hserved hiso hcause
  · exact execIsoRel_host hiso
  · exact fun s k hserved hoff hfits => execExpEnWrite_enables hserved hoff hfits
  · exact execSlotPrsntChange_edge level
  · exact execSlotWakeEdge_unowned
  · exact fun k v n b d1 hd1 hports hbound => execSlotWakeEdge_owned hd1 hports hbound
  · exact execSlotAlertEdge_edge
  · exact fun k hports hgated => execSlotClkreqChange_low hports hgated

/-! ## Composite streams (R413 to R415) -/

/-- A command on the switch whose condition holds answers what its effect comes to. -/
theorem onEng_open {c : Dev → Bool} {f : Dev → Dev} {s : State} {e : Dev} (hc : c s.dev = true) (h : f s.dev = e) :
    onEng (fun d => onlyIf (c d) f d) s = .next { s with dev := engSettled e } := by
  refine onEng_eq ?_
  rw [hc, onlyIf_true, h]

/-- A packet of class 1 or 2 in sequence, with nothing waiting and its fence open, is passed on, and acknowledged once 32 are (R414, R415). -/
theorem compArrive_inSequence {p : CompPkt} {d d1 : Dev} (hcls : 1 ≤ p.cls) (hnext : p.cseq = (rxOf p.src p.cls d).expect)
    (hd1 : d1 = (d |> updRx p.src p.cls (fun x => { x with expect := (x.expect + 1) % 65536, since := x.since + 1, due := true })
      |> bump Reg.CMP_RX 0))
    (hwait : (rxOf p.src p.cls d1).wait = []) (hfence : fenceOpen p.src p.pfence d1 = true) :
    compArrive p d = releaseFenced
      (if 32 ≤ (rxOf p.src p.cls (passComp p d1)).since then sendAckTo p.src p.cls (passComp p d1) else passComp p d1) := by
  have hdiff : (p.cseq + 65536 - (rxOf p.src p.cls d).expect) % 65536 = 0 := by omega
  have hpass : (p.tlp.kind = 2 ∧ p.tlp.ro = true) ∨ ((rxOf p.src p.cls d1).wait.isEmpty = true ∧ fenceOpen p.src p.pfence d1 = true) :=
    .inr ⟨by rw [hwait]; rfl, hfence⟩
  unfold compArrive
  dsimp only
  rw [if_pos hdiff, ← hd1, if_neg (by omega), if_pos hpass]
  unfold onlyIf
  simp only [decide_eq_true_eq]

theorem execCompositePacketRx_inSequence {p : CompPkt} {s : State} {d1 d2 : Dev} (hfrom : fromMember p.src p.dst s.dev = true) (htype : p.type < 5)
    (hmin : 1 ≤ p.cls) (hmax : p.cls < 3) (hcseq : p.cseq < 65536) (hnext : p.cseq = (rxOf p.src p.cls s.dev).expect)
    (hd1 : d1 = (s.dev |> updRx p.src p.cls (fun x => { x with expect := (x.expect + 1) % 65536, since := x.since + 1, due := true })
      |> bump Reg.CMP_RX 0))
    (hwait : (rxOf p.src p.cls d1).wait = []) (hfence : fenceOpen p.src p.pfence d1 = true) (hd2 : d2 = passComp p d1) :
    execCompositePacketRx p s = .next { s with dev := engSettled (releaseFenced
      (if 32 ≤ (rxOf p.src p.cls d2).since then sendAckTo p.src p.cls d2 else d2)) } := by
  have hopen : (fromMember p.src p.dst s.dev && decide (p.type < 5 ∧ p.cls < 3 ∧ p.cseq < 65536)) = true := by
    rw [hfrom, decide_eq_true ⟨htype, hmax, hcseq⟩]
    rfl
  rw [hd2]
  exact onEng_open hopen (compArrive_inSequence hmin hnext hd1 hwait hfence)

/-- An acknowledgement frees the packets it covers (R414). -/
theorem ackStream_covers {m c seq : Nat} {gone : List (CompPkt × Nat)} {d : Dev}
    (hgone : gone = (txOf m c d).out.filter (fun e => decide ((seq + 65536 - e.1.cseq) % 65536 < 32768))) (hne : gone ≠ []) :
    ackStream m c seq d = (d |> updTx m c (fun x => { x with out := x.out.filter (fun e => !gone.contains e), passes := 0 })
      |> forEach gone (fun e => dropPkt e.2) |> sendWaiting m c (txOf m c d).wait.length) := by
  have hsome : gone.isEmpty = false := List.isEmpty_eq_false_iff.mpr hne
  unfold ackStream
  dsimp only
  rw [← hgone, hsome]
  rfl

/-- A stream within CMP_RETRY passes is sent again. -/
theorem resendStream_again {m c : Nat} {x : CompTx} {d : Dev} (hx : txOf m c d = x) (hout : x.out ≠ []) (hfew : x.passes < rd Reg.CMP_RETRY 0 d) :
    resendStream m c d = (d |> updTx m c (fun x => { x with passes := x.passes + 1 }) |> addI Reg.CMP_RESENT 0 0 x.out.length
      |> forEach x.out (fun e => sendComp 163 e.1)) := by
  subst hx
  unfold resendStream
  dsimp only
  rw [if_neg (by rwa [List.isEmpty_iff]), if_neg (by omega)]

theorem compositeStream_open {m c : Nat} {d : Dev} (hon : compositeOn d = true) (hm : m < 64) (hc : c < 3) :
    (compositeOn d && decide (m < 64 ∧ c < 3)) = true := by
  rw [hon, decide_eq_true ⟨hm, hc⟩]
  rfl

section
variable {m c : Nat} {s : State}

theorem execCompositeAckRx_covers {seq : Nat} {gone : List (CompPkt × Nat)} (hon : compositeOn s.dev = true) (hm : m < 64) (hc : c < 3)
    (hgone : gone = (txOf m c s.dev).out.filter (fun e => decide ((seq + 65536 - e.1.cseq) % 65536 < 32768))) (hne : gone ≠ []) :
    execCompositeAckRx m c seq s = .next { s with dev := engSettled (s.dev
      |> updTx m c (fun x => { x with out := x.out.filter (fun e => !gone.contains e), passes := 0 })
      |> forEach gone (fun e => dropPkt e.2) |> sendWaiting m c (txOf m c s.dev).wait.length) } :=
  onEng_open (compositeStream_open hon hm hc) (ackStream_covers hgone hne)

theorem execCompositeNakRx_resends (hon : compositeOn s.dev = true) (hm : m < 64) (hc : c < 3) (seq : Nat) : execCompositeNakRx m c seq s =
    .next { s with dev := engSettled (s.dev |> ackStream m c ((seq + 65535) % 65536) |> resendStream m c) } :=
  onEng_open (compositeStream_open hon hm hc) rfl

theorem execCompositeAckSend_due (hdue : (rxOf m c s.dev).due = true) :
    execCompositeAckSend m c s = .next { s with dev := engSettled (sendAckTo m c s.dev) } := onEng_open hdue rfl

end

/-- A request of a local VH across members that ran out of time is answered (R415). -/
theorem execCplTmoExpire_local {v m req tag : Nat} {r : NpReq} {s : State} (hv : v < 256)
    (hfind : s.dev.sw.remote.find? (fun r => r.vh == v && r.member == m && r.req == req && r.tag == tag) = some r) :
    execCplTmoExpire v m req tag s = .next { s with dev := engSettled (s.dev |> updSw (fun s => { s with remote := s.remote.erase r })
      |> bump Reg.CMP_CPL_TMO_CNT 0
      |> (fun d => d |> bump Reg.EXP_CPL_SYN ((uspIdx v d).getD 0) |> answerReq { r with member := 64 } 0 4) |> releaseFenced) } := by
  refine onEng_eq ?_
  simp only [hfind, Nat.not_le.mpr hv, if_false]

/-- Settles O30: each packet, acknowledgement and timeout comes to the branch of its rule that the stream's state names. -/
theorem compositeStreamsAct : Obligations.CompositeStreamsAct := by
  refine ⟨?_, ?_, ?_, ?_, ?_, ?_⟩
  · intro s p x d1 d2 hfrom htype hmin hcls hcseq hx hnext hd1 hwait hfence hd2
    exact execCompositePacketRx_inSequence hfrom htype hmin hcls hcseq (hnext.trans (congrArg CompRx.expect hx.symm)) hd1 hwait hfence hd2
  · exact fun s m c seq gone hon hm hc hgone hne => execCompositeAckRx_covers hon hm hc hgone hne
  · exact fun s m c seq hon hm hc => execCompositeNakRx_resends hon hm hc seq
  · exact fun s m c hdue => execCompositeAckSend_due hdue
  · exact fun s m c x hx hout hfew => onEng_eq (resendStream_again hx hout hfew)
  · exact fun s v m req tag r hv hfind => execCplTmoExpire_local hv hfind

end Sys2Proof.Machine
end

section
/-!
PROOFS. Fabric time (R453 to R463, R470) and the horizon table (R464 to R468, R471).
-/

namespace Sys2Proof.Machine

/-! ## TIME flits (R454, R456 to R458) -/

section
variable {p : Nat} {x : TimePort} {d : Dev} (htimed : timePort p d = true) (hsfl : pers (p / 8) d = 2)
include htimed hsfl

/-- A port in time service takes or sends TIME flits. -/
theorem timePort_open : (timePort p d && pers (p / 8) d == 2) = true := by
  rw [htimed, hsfl]
  rfl

variable (hx : timePortOf p d = x)
include hx

theorem timeSend_timed {f : TimeFlit}
    (hf : f = { tseq := x.txSeq, rxSeq := x.rxSeq % 256, flags := timeFlags p x d, depth := rd Reg.TIM_DEPTH 0 d
                txPrev := x.txTime.getD 0, rxTime := x.rxTime, gmId := rd2 Reg.TIM_GM_ID_LO Reg.TIM_GM_ID_HI 0 0 d
                gmPrio := rd Reg.TIM_GM_PRIO 0 d, gmRound := rd Reg.TIM_GM_ROUND 0 d, taiUtc := rd Reg.TIM_TAI_UTC 0 d }) :
    timeSend p d = (d |> idleToCodeword p |> sendLink p 6 0 f.body f.nums
      |> putTimePort p { x with txSeq := (x.txSeq + 1) % 256, txTime := some d.th.fabric }) := by
  subst hx hf
  exact if_pos (timePort_open htimed hsfl)

/-- The exchange that a received TIME flit opens: it answers the last flit sent (R458). -/
def timeOpened (x : TimePort) (f : TimeFlit) (now : Nat) : Option (Nat × Nat × Nat) :=
  x.txTime.bind (fun t1 => if bitOf f.flags 4 = true ∧ f.rxSeq = (x.txSeq + 255) % 256 then some (t1, f.rxTime, now) else none)

/-- A received TIME flit is counted, opens its exchange, gives its record and has the election run; then comes the sample of the exchange that
it completes, if it does. -/
theorem timeRx_timed (f : TimeFlit) : timeRx p f d = (d |> bump Reg.TIM_TIME_RX 0
    |> putTimePort p { x with open1 := timeOpened x f d.th.fabric, rxSeq := f.tseq % 256, rxTime := d.th.fabric } |> takeRecord p f |> timeElect
    |> (fun e => match (match x.open1 with
        | some (t1, t2, u4) => if f.tseq = (x.rxSeq + 1) % 256 ∧ bitOf f.flags 5 = true then
            some (exchange t1 t2 f.txPrev u4 (toSigned 16 (rdI Reg.TIM_ASYM 0 p d) * 4096)) else none
        | none => none) with
      | some (dl, o) => timeSample p dl o (bitOf f.flags 0) e
      | none => e)) := by
  subst hx
  have hopened : timeOpened (timePortOf p d) f d.th.fabric = (match (timePortOf p d).txTime with
      | some t1 => if bitOf f.flags 4 = true ∧ f.rxSeq = ((timePortOf p d).txSeq + 255) % 256 then some (t1, f.rxTime, d.th.fabric) else none
      | none => none) := by
    unfold timeOpened
    cases (timePortOf p d).txTime <;> rfl
  unfold timeRx
  rw [timePort_open htimed hsfl, Bool.not_true, if_neg Bool.false_ne_true, hopened] <;> rfl

variable {f : TimeFlit} {d1 : Dev}
  (hd1 : d1 = (d |> bump Reg.TIM_TIME_RX 0
    |> putTimePort p { x with open1 := timeOpened x f d.th.fabric, rxSeq := f.tseq % 256, rxTime := d.th.fabric } |> takeRecord p f |> timeElect))
include hd1

theorem timeRx_unopened (hnone : x.open1 = none) : timeRx p f d = d1 := by
  rw [timeRx_timed htimed hsfl hx f, hnone, ← hd1]

theorem timeRx_completes {t1 t2 u4 : Nat} {dl o : Int} (hopen : x.open1 = some (t1, t2, u4)) (hseq : f.tseq = (x.rxSeq + 1) % 256)
    (hflag : bitOf f.flags 5 = true) (hexch : exchange t1 t2 f.txPrev u4 (toSigned 16 (rdI Reg.TIM_ASYM 0 p d) * 4096) = (dl, o)) :
    timeRx p f d = timeSample p dl o (bitOf f.flags 0) d1 := by
  rw [timeRx_timed htimed hsfl hx f, hopen, ← hd1]
  simp only [hseq, hflag, hexch, and_self, if_true]

end

/-! ## Pulses, rounds and holdover (R454, R459, R462) -/

section
variable {d : Dev} (hen : rd Reg.TIM_PPS_IN_EN 0 d = 1)
include hen

theorem ppsIn_enabled {d1 : Dev}
    (hd1 : d1 = (d |> wr Reg.TIM_PPS_IN_ERR 0 (ofSigned 32 (ppsOffset d)) |> updTh (fun t => { t with ppsSeen := true }) |> timeElect)) :
    ppsIn d = if rd Reg.TIM_STATE 0 d1 = 4 then (if d1.th.setArmed then setNow d1 else steer d1) else d1 := by
  subst hd1
  exact if_neg (by omega)

theorem execPpsInLost_grandmaster {s : State} (hs : s.dev = d) (hgm : rd Reg.TIM_STATE 0 d = 4) : execPpsInLost s =
    .next { s with dev := d |> raise Ev.PPS_IN_LOST 0 |> updTh (fun t => { t with ppsSeen := false }) |> timeElect } := by
  subst hs
  have hlost : onlyIf (rd Reg.TIM_STATE 0 s.dev == 4) (raise Ev.PPS_IN_LOST 0) s.dev = raise Ev.PPS_IN_LOST 0 s.dev := by
    rw [hgm]
    rfl
  refine onDev_eq ?_
  rw [hen, beq_self_eq_true, onlyIf_true, hlost]

end

theorem execPpsOutSecond_enabled {s : State} (hen : rd Reg.TIM_PPS_OUT_EN 0 s.dev = 1) (hvalid : timeValid s.dev = true) :
    execPpsOutSecond s = .next { s with dev := emit .pin [2, 0, 1, rd Reg.TIM_PPS_OUT_W 0 s.dev] [] s.dev } := by
  refine onDev_eq ?_
  rw [hen, hvalid]
  rfl

theorem execGmRoundTick_grandmaster {s : State} (hgm : rd Reg.TIM_STATE 0 s.dev = 4) :
    execGmRoundTick s = .next { s with dev := addMod Reg.TIM_GM_ROUND 0 0 1 s.dev } := by
  refine onDev_eq ?_
  rw [hgm]
  rfl

theorem execGmRecordStale_known {p : Nat} {r : GmRec} {s : State} (hrec : gmRecOf p s.dev = some r) :
    execGmRecordStale p s = .next { s with dev := s.dev |> putGmRec p (some { r with fresh := false }) |> timeElect } := by
  refine onDev_eq ?_
  rw [hrec]

theorem holdoverEnd_holdover {d : Dev} (h : rd Reg.TIM_STATE 0 d = 3) : holdoverEnd d = (d |> wr Reg.TIM_VALID 0 0 |> wr Reg.TIM_STATE 0 0
    |> raise Ev.FT_INVALID 0 |> gatesTimeChange false |> ppsLow) := if_pos h

/-! ## Setting fabric time and the phase count (R453, R462, R463) -/

section
variable {d : Dev} (hgm : rd Reg.TIM_STATE 0 d = 4)
include hgm

theorem setGo_atPps (hat : rd Reg.TIM_SET_AT_PPS 0 d = 1) (v : Word) : setGo v d = updTh (fun t => { t with setArmed := true }) d := by
  unfold setGo
  rw [if_neg (not_not_intro hgm), if_pos hat]

theorem setGo_now (hnow : rd Reg.TIM_SET_AT_PPS 0 d = 0) (v : Word) : setGo v d = (d |> updTh (fun t => { t with setArmed := false })
    |> setFabric false (65536 * rd2 Reg.TIM_SET_NS_LO Reg.TIM_SET_NS_HI 0 0 d)) := by
  unfold setGo
  rw [if_neg (not_not_intro hgm), if_neg (by omega)]
  rfl

end

theorem phaseLoad_loads {old new : Nat} {d : Dev} (hold : rd Reg.TIM_PHASE 0 d = old) (hnew : rd Reg.TIM_PHASE_LOAD 0 d = new) :
    phaseLoad d = (d |> wr Reg.TIM_PHASE 0 new |> (fun d => if 0 < (new + 2 ^ 32 - old) % 2 ^ 32 ∧ (new + 2 ^ 32 - old) % 2 ^ 32 < 2 ^ 31
      then forEach (hznSelect 1 (fun m => phasePassed m d) d) hznPassed d else d)) := by
  subst hold hnew
  unfold phaseLoad onlyIf
  simp only [decide_eq_true_eq]

/-- Settles O31: a TIME flit is taken as `timeRx_timed` says; each tick, edge and trigger comes to the branch that the time state names. -/
theorem fabricTimeActs : Obligations.FabricTimeActs := by
  refine ⟨?_, fun s hgm => ⟨?_, fun hen => ?_, fun hserved => ⟨fun hat => ?_, fun hnow => ?_⟩⟩, ?_, ?_, ?_, ?_, ?_⟩
  · intro s p x htimed hsfl hx
    refine ⟨fun f hf => onDev_eq (timeSend_timed htimed hsfl hx hf), ?_, fun bs hbad => onAll_eq (rxFlit_failed hbad ..)⟩
    rintro bs fields body f d1 hflit rfl hd1
    refine ⟨fun hnone => ?_, fun t1 t2 u4 dl o hopen hseq hflag hexch => ?_⟩
    · exact onAll_eq ((rxFlit_decoded hflit ..).trans (timeRx_unopened htimed hsfl hx hd1 hnone))
    · exact onAll_eq ((rxFlit_decoded hflit ..).trans (timeRx_completes htimed hsfl hx hd1 hopen hseq hflag hexch))
  · exact execGmRoundTick_grandmaster hgm
  · exact execPpsInLost_grandmaster hen rfl hgm
  · exact onAll_eq ((trigger_served hserved ..).trans (setGo_atPps hgm hat _))
  · exact onAll_eq ((trigger_served hserved ..).trans (setGo_now hgm hnow _))
  · exact fun s p r hrec => execGmRecordStale_known hrec
  · exact fun s hold => onDev_eq (holdoverEnd_holdover hold)
  · exact fun s d1 hen hd1 => onAll_eq (ppsIn_enabled hen hd1)
  · exact fun s hen hvalid => execPpsOutSecond_enabled hen hvalid
  · exact fun s old new hserved hold hnew => onAll_eq ((trigger_served hserved ..).trans (phaseLoad_loads hold hnew))

/-! ## The horizon table (R464 to R468, R471) -/

section
variable {i : Nat} {e : HznEntry} {d : Dev} (hi : rd Reg.HZN_HZ_IDX 0 d = i) (he : hznOf i d = e)
include hi he

theorem hznRead_indexed : hznRead d = putRow Reg.HZN_HZ_DATA 0 (hznWords e) d := by
  subst hi he
  rfl

theorem hznWrite_unarmed (hfree : e.armed = false) (v : Word) :
    hznWrite v d = putHzn i (hznFrom (rowWords Reg.HZN_HZ_DATA 0 8 d) e) d := by
  subst hi he
  exact if_neg (by simp [hfree])

/-- A good entry whose moment lies ahead is armed, and no more (R468). -/
theorem hznArm_ahead (hok : hznOk e d = true) (htime : e.axis = 0 → fabricNs d ≤ e.moment)
    (hphase : e.axis ≠ 0 → phasePassed e.moment d = false) (v : Word) :
    hznArm v d = (d |> putHzn i { e with armed := true } |> swapPends) := by
  subst hi he
  have hgone : (if (hznOf (rd Reg.HZN_HZ_IDX 0 d) d).axis = 0 then
      timeValid d && decide ((hznOf (rd Reg.HZN_HZ_IDX 0 d) d).moment < fabricNs d)
      else phasePassed (hznOf (rd Reg.HZN_HZ_IDX 0 d) d).moment d) = false := by
    split
    next haxis => rw [decide_eq_false (Nat.not_lt.mpr (htime haxis)), Bool.and_false]
    next haxis => exact hphase haxis
  unfold hznArm
  dsimp only
  rw [hok, Bool.not_true, if_neg Bool.false_ne_true, hgone, onlyIf_false]

theorem hznDisarm_indexed : hznDisarm d = (d |> putHzn i { e with armed := false } |> swapPends) := by
  subst hi he
  rfl

end

/-- Settles O32: each trigger bit acts on the indexed entry, and what is due fires on the time axis and then on the phase axis. -/
theorem horizonsAct : Obligations.HorizonsAct := by
  refine ⟨fun s i e hserved hi he => ⟨?_, fun hfree => ?_, fun hok htime hphase => ?_, ?_⟩, ?_⟩
  · exact onDev_eq ((trigger_served hserved ..).trans (hznRead_indexed hi he))
  · exact onDev_eq ((trigger_served hserved ..).trans (hznWrite_unarmed hi he hfree _))
  · exact onAll_eq ((trigger_served hserved ..).trans (hznArm_ahead hi he hok htime hphase _))
  · exact onDev_eq ((trigger_served hserved ..).trans (hznDisarm_indexed hi he))
  · rintro s d1 rfl
    exact onAll_eq rfl

end Sys2Proof.Machine
end

section
/-!
PROOFS. Slices, functions and their host reads (R433, R435 to R442), the rings of a slice (R341, R427, R444, R445), and address translation
(R434).
-/

namespace Sys2Proof.Machine

/-! ## Slice commands (R438 to R442) -/

/-- A served write of a CMD bit of a slice acts on the slice. -/
theorem onEng_sliceTrig {n bit : Nat} {act : Nat → Dev → Dev} {s : State} {e : Dev}
    (hserved : served 0x1C (n / 16) (0x104 + 0xF0 * (n % 16)) s.dev) (h : act n s.dev = e) :
    onEng (sliceTrig n bit act) s = .next { s with dev := engSettled e } :=
  onEng_eq ((trigger_served hserved ..).trans h)

section
variable {n : Nat} {d : Dev}

section
variable (hidle : slRd Reg.SLC_CMD_BUSY n d = 0)
include hidle

/-- With no slice command running a state that a command asks for lets it run. -/
theorem cmdReady_idle {p : Prop} (hp : p) : ¬ (¬ p ∨ (!cmdReady n d) = true) := by
  unfold cmdReady
  rw [hidle]
  rintro (h | h)
  · exact h hp
  · cases h

theorem sliceCreate_free {v : Nat} (hv : slRd Reg.SLC_VH n d = v) (hfree : slState n d = slFree) (hpresent : rd Reg.FUN_PRESENT v d = 1)
    (hpasid : ∀ m ∈ slicesOf v d, slRd Reg.SLC_PASID m d ≠ slRd Reg.SLC_PASID n d) (hlimits : sliceLimitsOk n d) :
    sliceCreate n d =
      (d |> slWr Reg.SLC_STATE n slActive |> updSlice n (fun _ => Slice.init) |> slWr Reg.SLC_CMD_STATUS n 0 |> countSlices v) := by
  subst hv
  have hunused : (slicesOf (slRd Reg.SLC_VH n d) d).any (fun m => slRd Reg.SLC_PASID m d == slRd Reg.SLC_PASID n d) = false := by
    simpa [List.any_eq_false] using hpasid
  unfold sliceCreate
  dsimp only
  rw [if_neg (cmdReady_idle hidle hfree), if_neg (by omega), hunused, if_neg Bool.false_ne_true, decide_eq_true hlimits,
    Bool.not_true, if_neg Bool.false_ne_true]
  rfl

theorem sliceQuiesce_active (hactive : slState n d = slActive) : sliceQuiesce n d = (d |> slWr Reg.SLC_STATE n slQuiescing
    |> updSlice n (fun x => { x with since := d.th.localNs, tmoRaised := false }) |> slWr Reg.SLC_CMD_STATUS n 0) :=
  if_neg (cmdReady_idle hidle hactive)

theorem sliceResume_quiesced (hstate : slState n d = slQuiesced) : sliceResume n d = (d |> slWr Reg.SLC_STATE n slActive
    |> updSlice n (fun x => { x with recorded := [] }) |> slWr Reg.SLC_CMD_STATUS n 0 |> forEach (sliceOf n d).recorded (serveRecorded n)) := by
  have hready : cmdReady n d = true := beq_iff_eq.mpr hidle
  exact if_neg (by simp [hstate, hready])

theorem sliceResetCmd_stopped (hstate : slState n d = slQuiesced ∨ slState n d = slAborted) : sliceResetCmd n d = (d |> sliceReset n false
    |> updSlice n (fun x => { x with resetTo := slQuiesced }) |> slWr Reg.SLC_CMD_BUSY n 1 |> slWr Reg.SLC_CMD_STATUS n 0) := by
  have hready : cmdReady n d = true := beq_iff_eq.mpr hidle
  unfold sliceResetCmd
  dsimp only
  rcases hstate with h | h <;>
    rw [h, if_neg (by decide), hready, if_neg (by decide)] <;> rfl

theorem sliceRemove_quiesced (hstate : slState n d = slQuiesced) : sliceRemove n d = (d |> forEach (sliceQps n d) (fun q => putQp q none)
    |> sliceReset n false
    |> updEng (fun e => { e with ranges := e.ranges.filter (fun r => bitsOf r.2.1 0 12 != n || !bitOf r.2.1 16) })
    |> updSlice n (fun x => { x with resetTo := slFree }) |> slWr Reg.SLC_CMD_BUSY n 1 |> slWr Reg.SLC_CMD_STATUS n 0) := by
  have hready : cmdReady n d = true := beq_iff_eq.mpr hidle
  unfold sliceRemove
  dsimp only
  rw [hstate, if_neg (by decide), hready, if_neg (by decide)]
  rfl

end

theorem sliceForce_active (hactive : slState n d = slActive) : sliceForce n d = (d |> slWr Reg.SLC_STATE n slFencing
    |> updSlice n (fun x => { x with recorded := [] })
    |> quarantine (fun r => r.slice == n) |> addI Reg.SLC_FENCED_OPS (n / 16) (n % 16) (opsOf n d)
    |> endOps n 0x0A 7 true |> forEach (sliceWins n d) (fun w => latchWin w 5 0 false) |> sliceReset n false
    |> updSlice n (fun x => { x with resetTo := slQuiesced }) |> slWr Reg.SLC_CMD_BUSY n 1 |> slWr Reg.SLC_CMD_STATUS n 0) := by
  unfold sliceForce
  dsimp only
  rw [hactive, if_neg (by decide)]
  rfl

theorem finishReset_pending {final : Nat} (hto : (sliceOf n d).resetTo = final) (hpend : final ≠ 7) : finishReset n d =
    (d |> updSlice n (fun x => { x with resetTo := 7 }) |> slWr Reg.SLC_STATE n final |> slWr Reg.SLC_CMD_BUSY n 0
      |> raiseSlice Ev.SLICE_RESET_DONE 2 n |> countSlices (slRd Reg.SLC_VH n d)) := by
  subst hto
  exact if_neg hpend

end

section
variable {n : Nat} {s : State}

theorem execSliceDrained_idle (hstate : slState n s.dev = slQuiescing) (hdrained : sliceIdle n s.dev = true) :
    execSliceDrained n s = .next { s with dev := engSettled (s.dev |> slWr Reg.SLC_STATE n slQuiesced
      |> slWr Reg.SLC_DRAIN_US n (min ((s.dev.th.localNs - (sliceOf n s.dev).since) / 1000) (2 ^ 17 - 1)) |> raiseSlice Ev.SLICE_DRAINED 0 n) } := by
  refine onEng_eq ?_
  rw [hstate, hdrained]
  rfl

theorem execSliceQuiesceTmo_first (hstate : slState n s.dev = slQuiescing) (hfirst : (sliceOf n s.dev).tmoRaised = false) :
    execSliceQuiesceTmo n s =
      .next { s with dev := engSettled (s.dev |> updSlice n (fun x => { x with tmoRaised := true }) |> raiseSlice Ev.SLICE_QUIESCE_TMO 1 n) } := by
  refine onEng_eq ?_
  rw [hstate, hfirst]
  rfl

theorem execSliceResetComplete_fencing {final : Nat} (hstate : slState n s.dev = slFencing) (hto : (sliceOf n s.dev).resetTo = final)
    (hpend : final ≠ 7) : execSliceResetComplete n s = .next { s with dev := engSettled (s.dev |> updSlice n (fun x => { x with resetTo := 7 })
      |> slWr Reg.SLC_STATE n final |> slWr Reg.SLC_CMD_BUSY n 0 |> raiseSlice Ev.SLICE_RESET_DONE 2 n
      |> countSlices (slRd Reg.SLC_VH n s.dev)) } := by
  refine onEng_eq ?_
  rw [hstate, beq_self_eq_true, Bool.or_true, onlyIf_true, finishReset_pending hto hpend]

end

/-- Settles O13: a served bit of CMD comes to its command, and each command or timer to the branch that the slice's state names. -/
theorem sliceCommandsAct : Obligations.SliceCommandsAct := by
  refine ⟨fun s n v hserved hidle hv => ⟨?_, ?_, ?_, ?_, ?_, ?_⟩, fun s n hstate => ⟨fun hdrained => ?_, fun hfirst => ?_⟩, ?_⟩
  · exact fun hfree hpresent hpasid hlimits => onEng_sliceTrig hserved (sliceCreate_free hidle hv hfree hpresent hpasid hlimits)
  · exact fun hactive => onEng_sliceTrig hserved (sliceQuiesce_active hidle hactive)
  · rintro rs hquiet rfl
    exact onEng_sliceTrig hserved (sliceResume_quiesced hidle hquiet)
  · exact fun hstopped => onEng_sliceTrig hserved (sliceResetCmd_stopped hidle hstopped)
  · exact fun hactive => onEng_sliceTrig hserved (sliceForce_active hactive)
  · exact fun hquiet => onEng_sliceTrig hserved (sliceRemove_quiesced hidle hquiet)
  · exact execSliceDrained_idle hstate hdrained
  · exact execSliceQuiesceTmo_first hstate hfirst
  · exact fun s n final hstate hto hpend => execSliceResetComplete_fencing hstate hto hpend

/-! ## Functions (R435 to R437) -/

section
variable {v : Nat} {d : Dev}

theorem bmeClear_set (hset : rd Reg.FUN_BME v d = 1) : bmeClear v d = (d |> putCfg v 0x04 (clrBit (cfgStored v 0x04 d) 2) |> wr Reg.FUN_BME v 0
    |> stopFunction v |> raise Ev.FUN_BME_OFF v) := if_neg (by omega)

theorem d3Enter_d0 (h : rd Reg.FUN_DSTATE v d = 0) :
    d3Enter v d = (d |> putCfg v 0x84 3 |> wr Reg.FUN_DSTATE v 3 |> stopFunction v |> raise Ev.FUN_BME_OFF v) := if_neg (not_not_intro h)

theorem d0Return_d3 (h : rd Reg.FUN_DSTATE v d = 3) : d0Return v d = (d |> putCfg v 0x84 0 |> wr Reg.FUN_DSTATE v 0 |> flrStart v) := by
  unfold d0Return
  rw [h]
  rfl

theorem flrStart_stops {to_ : List (Nat × Nat)}
    (hto : to_ = (slicesOf v d).map (fun n => (n, if slState n d = slActive ∨ slState n d = slAborted then slActive else slQuiesced))) :
    flrStart v d = (d |> updEng (fun e => { e with brgReads := e.brgReads.filter (fun r => r.vh != v) })
      |> putCfg v 0x04 (clrBit (cfgStored v 0x04 d) 2) |> wr Reg.FUN_BME v 0 |> stopFunction v
      |> wr Reg.FUN_FLR_BUSY v 1 |> bump Reg.FUN_FLR_CNT v
      |> forEach to_ (fun x d => d |> updSlice x.1 (fun y => { y with resetTo := x.2 }) |> sliceReset x.1 true)) := by
  rw [hto]
  rfl

/-- A slice that is being fenced ends by its own reset, every other with the function's. -/
theorem flrDone_busy (hbusy : rd Reg.FUN_FLR_BUSY v d = 1) : flrDone v d = (d
    |> updFun v (fun f => { FunCfg.init with cfg := f.cfg.filter (fun e => stickyCfg e.1)
                                             aper := some (rd Reg.FUN_APER_LOG v d, rd Reg.FUN_APER_PF v d == 1) })
    |> updEng (fun e => { e with atc := e.atc.filter (fun x => x.vh != v) })
    |> mirrorCfg v |> wr Reg.FUN_FLR_BUSY v 0
    |> forEach (slicesOf v d) (fun n d => if slState n d = slFencing then d else finishReset n d)
    |> raise Ev.FUN_FLR_DONE v) := by
  have hends : (fun n d => onlyIf (slState n d != slFencing) (finishReset n) d) =
      fun n d => if slState n d = slFencing then d else finishReset n d := by
    funext n e
    unfold onlyIf
    simp only [bne_iff_ne, ne_eq, ite_not]
  unfold flrDone
  rw [if_neg (by omega), hends]

end

/-! ## Host reads (R433) -/

section
variable {v tag : Nat} {d : Dev}

theorem hostCompletion_expected {r : HostRead} (hread : d.eng.reads.find? (fun r => r.vh == v && r.tag == tag && r.waits.isEmpty) = some r)
    (ok : Bool) (data : List Byte) : hostCompletion v tag ok data d = readDone r (if ok then some data else none) d := by
  unfold hostCompletion
  rw [hread]

variable (hnone : d.eng.reads.find? (fun r => r.vh == v && r.tag == tag && r.waits.isEmpty) = none)
include hnone

theorem hostCompletion_quarantined {x : Nat × Nat × Nat} (hquar : d.eng.quar.find? (fun x => x.1 == v && x.2.1 == tag) = some x) (ok : Bool)
    (data : List Byte) : hostCompletion v tag ok data d =
      (d |> bump Reg.FUN_LATE_CPL v |> onlyIf (decide (x.2.2 < 8)) (bump Reg.TPE_LATE_DROP x.2.2)) := by
  unfold hostCompletion
  rw [hnone, hquar]

theorem hostCompletion_unexpected (hquar : d.eng.quar.find? (fun x => x.1 == v && x.2.1 == tag) = none) (ok : Bool) (data : List Byte) :
    hostCompletion v tag ok data d = (d |> bump Reg.FUN_UNEXP_CPL v |> aerSet v 16) := by
  unfold hostCompletion
  rw [hnone, hquar]

end

theorem execHostReadTimeout_expected {v tag : Nat} {r : HostRead} {s : State}
    (hread : s.dev.eng.reads.find? (fun r => r.vh == v && r.tag == tag && r.waits.isEmpty) = some r) :
    execHostReadTimeout v tag s = .next { s with dev := engSettled (s.dev |> aerSet v 14 |> readDone r none) } := by
  refine onEng_eq ?_
  rw [hread]

/-- Settles O14: each change of a function's state, and each completion, comes to the branch that the state or the tag names. -/
theorem functionStopsAndReturns : Obligations.FunctionStopsAndReturns := by
  refine ⟨?_, ?_, ?_, ?_, ?_, fun s v tag ok data => ⟨fun r hread => ⟨?_, ?_⟩, fun hnone => ⟨fun x hquar => ?_, fun hquar => ?_⟩, ?_⟩⟩
  · exact fun s v hset => onEng_eq (bmeClear_set hset)
  · exact fun s v h => onEng_eq (d3Enter_d0 h)
  · exact fun s v h => onEng_eq (d0Return_d3 h)
  · exact fun s v to_ hto => onEng_eq (flrStart_stops hto)
  · exact fun s v hbusy => onEng_eq (flrDone_busy hbusy)
  · exact onEng_eq (hostCompletion_expected hread ok data)
  · exact execHostReadTimeout_expected hread
  · exact onEng_eq (hostCompletion_quarantined hnone hquar ok data)
  · exact onEng_eq (hostCompletion_unexpected hnone hquar ok data)
  · exact onEng_eq rfl

/-! ## Rings of a slice (R341, R427, R444, R445) -/

section
variable {n index : Nat} {es : List (List Byte)} {s : State} {e : Dev} (hactive : slState n s.dev = slActive)
include hactive

/-- A command doorbell of an ACTIVE slice fetches the entries of its command ring. -/
theorem execCommandDoorbell_active (h : ringFetch n (5 * 2 ^ 24) index (ringPlace n (5 * 2 ^ 24) s.dev) es
      (fun es => updSlice n (fun x => { x with cmrPi := index, cmr := x.cmr ++ es })) s.dev = e) :
    execCommandDoorbell (slRd Reg.SLC_VH n s.dev) n true index es s = .next { s with dev := engSettled e } := by
  refine onEng_eq ?_
  rw [if_neg (by simp), bell_active rfl hactive, h]

/-- A match doorbell of an ACTIVE slice fetches the entries of its match post ring. -/
theorem execMatchDoorbell_active (h : ringFetch n (6 * 2 ^ 24) index (ringPlace n (6 * 2 ^ 24) s.dev) es (serveMatch n index) s.dev = e) :
    execMatchDoorbell (slRd Reg.SLC_VH n s.dev) n true index es s = .next { s with dev := engSettled e } := by
  refine onEng_eq ?_
  rw [if_neg (by simp), bell_active rfl hactive, h]

theorem execEventRingDoorbell_active (h : serveEvr n index s.dev = e) :
    execEventRingDoorbell (slRd Reg.SLC_VH n s.dev) n index s = .next { s with dev := engSettled e } := by
  refine onEng_eq ?_
  rw [bell_active rfl hactive, ringFetch_direct (.inl rfl), h]

end

section
variable {n index : Nat} {d : Dev}

theorem serveEvr_unarmed (h : bitOf index 16 = false) : serveEvr n index d = slWr Reg.SLC_EVR_CI n (index % 65536) d := by
  unfold serveEvr
  rw [h]
  rfl

theorem serveEvr_arms {d2 : Dev} (h : bitOf index 16 = true) (hd2 : d2 = slWr Reg.SLC_EVR_ARMED n 1 (slWr Reg.SLC_EVR_CI n (index % 65536) d)) :
    serveEvr n index d = if slRd Reg.SLC_EVR_PI n d2 = slRd Reg.SLC_EVR_CI n d2 then d2 else notifySlice n d2 := by
  subst hd2
  unfold serveEvr onlyIf
  simp only [h, if_true, bne_iff_ne, ne_eq, ite_not]

/-- With no command of the slice under way the next entry of its command ring is served. -/
theorem execCommandRingEntry_next {e data : List Byte} {l : List (List Byte)} {pages : List Nat} {ok : Bool} {s : State}
    (hring : (sliceOf n s.dev).cmr = e :: l) (hen : slRd Reg.SLC_CMR_EN n s.dev = 1)
    (hfree : ∀ x ∈ s.dev.eng.retiring, ∀ y, x.2 = some y → y.1 ≠ n) (hstate : slState n s.dev = slActive ∨ slState n s.dev = slQuiescing)
    (h : serveEntry n e data pages ok s.dev = d) : execCommandRingEntry n data pages ok s = .next { s with dev := engSettled d } := by
  have hbusy : s.dev.eng.retiring.any (fun x => x.2.any (fun y => y.1 == n)) = false := by
    rw [List.any_eq_false]
    intro x hx
    cases hy : x.2 with
    | none => exact Bool.false_ne_true
    | some y => simpa using hfree x hx y hy
  have htakes : (slState n s.dev == slActive || slState n s.dev == slQuiescing) = true := by simpa using hstate
  refine onEng_eq ?_
  simp only [hring, hbusy, htakes, hen]
  exact (if_neg (by decide)).trans h

theorem serveEntry_qpc {e data out : List Byte} {st : Nat} {d1 : Dev} (hblock : fieldLe e 0 1 = 0)
    (hrun : qpcRun (fieldLe e 1 1) (fieldLe e 4 4) (fieldLe e 8 1 % 16) data (some n) d = (st, out, d1)) (pages : List Nat) (ok : Bool) :
    serveEntry n e data pages ok d = ringDone n e st (if out.isEmpty then data else out ++ data.drop out.length) none d1 := by
  unfold serveEntry
  simp only [hblock, hrun]

end

theorem execMsixUnmask_sends {v vec : Nat} {s : State} : execMsixUnmask v vec s = .next { s with dev := engSettled (s.dev
    |> updFun v (fun f =>
        let e := smGet (fun _ => (0, 0, true)) f.msix vec
        { f with msix := smSet (fun _ => (0, 0, true)) f.msix vec (e.1, e.2.1, false) })
    |> sendPended v) } := onEng_eq rfl

/-- Settles O15: a doorbell of an ACTIVE slice comes to `ringFetch` of its ring, an entry of the command ring to its block's command. -/
theorem sliceRingsServed : Obligations.SliceRingsServed := by
  refine ⟨?_, ?_, fun s v vec => execMsixUnmask_sends⟩
  · rintro s v n index es rfl hactive
    refine ⟨fun hdirect => ⟨?_, ?_⟩, fun hes hats => ⟨?_, ?_⟩, fun harm => ?_, fun d2 harm hd2 => ?_⟩
    · exact execCommandDoorbell_active hactive (ringFetch_direct hdirect)
    · exact execMatchDoorbell_active hactive (ringFetch_direct hdirect)
    · rintro at_ rfl hfirst
      refine ⟨fun hhit => ?_, fun hmiss => ?_⟩
      · exact execCommandDoorbell_active hactive ((ringFetch_translated hes hats hfirst hhit).trans (if_pos rfl))
      · exact execCommandDoorbell_active hactive ((ringFetch_translated hes hats hfirst hmiss).trans (if_neg Bool.false_ne_true))
    · rintro at_ rfl hfirst
      refine ⟨fun hhit => ?_, fun hmiss => ?_⟩
      · exact execMatchDoorbell_active hactive ((ringFetch_translated hes hats hfirst hhit).trans (if_pos rfl))
      · exact execMatchDoorbell_active hactive ((ringFetch_translated hes hats hfirst hmiss).trans (if_neg Bool.false_ne_true))
    · exact execEventRingDoorbell_active hactive (serveEvr_unarmed harm)
    · exact execEventRingDoorbell_active hactive (serveEvr_arms harm hd2)
  · exact fun s n st e data out l pages d1 hring hen hfree hstate hblock hrun =>
      execCommandRingEntry_next hring hen hfree hstate (serveEntry_qpc hblock hrun pages true)

/-! ## Address translation (R434) -/

/-- A translation that gives permission is cached, lets through the accesses that it allows and takes the others to their end. -/
theorem translated_permits {v page to_ : Nat} {pasid : Option Nat} {r w : Bool} {ws : List AtsWait} {rs : List RingWait} {d : Dev}
    (hperm : (r || w) = true) (hws : ws = d.eng.ats.filter (fun x => waitsFor v pasid page x && !x.prg))
    (hrs : rs = d.eng.ringWaits.filter (fun x => x.waitsOn v pasid page && x.asked && !x.prg)) (hwaits : ws ≠ [] ∨ rs ≠ []) :
    translated v pasid page true to_ r w d = (d |> addAtc ⟨v, pasid, page, to_, r, w⟩
      |> updEng (fun e => { e with ats := e.ats.map (fun x =>
          if waitsFor v pasid page x && !x.prg && AtcEntry.allows ⟨v, pasid, page, to_, r, w⟩ x.acc
          then { x with xlat := some (AtcEntry.apply ⟨v, pasid, page, to_, r, w⟩ x.acc) } else x) })
      |> forEach (ws.filter (fun x => !AtcEntry.allows ⟨v, pasid, page, to_, r, w⟩ x.acc)) (fun x => noPermission x.acc)
      |> issueAll v |> (if r then ringRun (d.eng.ringWaits.length + 1) else forEach rs ringNoPermission)) := by
  have hwait : ¬ (ws.isEmpty = true ∧ rs.isEmpty = true) := by
    simpa only [List.isEmpty_iff, not_and_or] using hwaits
  subst hws hrs
  unfold translated
  dsimp only
  rw [if_neg hwait, hperm]
  rfl

section
variable {v page : Nat} {ws : List AtsWait}

theorem execPrgResponse_success {pasid : Nat} {s : State} (hws : prgWaits v (pasidOf pasid) page s.dev = ws) :
    execPrgResponse v pasid page true s = .next { s with dev := engSettled (s.dev
      |> updEng (fun e => { e with ats := e.ats.map (fun w => if ws.contains w then { w with prg := false } else w) })
      |> forEach ws (fun w => askPage v w.acc.pasid (w.acc.addr / 4096)) |> askAgain v (pasidOf pasid) page) } := by
  subst hws
  exact onEng_eq (if_pos rfl)

theorem prgFailed_faults {pasid : Option Nat} {rs : List RingWait} {d : Dev} (hws : prgWaits v pasid page d = ws)
    (hrs : d.eng.ringWaits.filter (fun x => x.waitsOn v pasid page && x.prg) = rs) :
    prgFailed v pasid page d = (d |> forEach ws (fun w => accessFault w.acc) |> issueAll v |> forEach rs ringWaitFault) := by
  subst hws hrs
  rfl

theorem execPrgResponse_failure {pasid : Nat} {rs : List RingWait} {s : State} (hws : prgWaits v (pasidOf pasid) page s.dev = ws)
    (hrs : s.dev.eng.ringWaits.filter (fun x => x.waitsOn v (pasidOf pasid) page && x.prg) = rs) :
    execPrgResponse v pasid page false s =
      .next { s with dev := engSettled (s.dev |> forEach ws (fun w => accessFault w.acc) |> issueAll v |> forEach rs ringWaitFault) } :=
  onEng_eq ((if_neg Bool.false_ne_true).trans (prgFailed_faults hws hrs))

end

theorem execAtsInvalidateComplete_retired {v itag : Nat} {x : Nat × Nat × List Nat} {s : State}
    (hinv : s.dev.eng.invals.find? (fun x => x.1 == v && x.2.1 == itag) = some x) (hgone : ∀ t ∈ x.2.2, ∀ r ∈ s.dev.eng.reads, r.tag ≠ t) :
    execAtsInvalidateComplete v itag s = .next { s with dev := engSettled (s.dev |> updEng (fun e => { e with invals := e.invals.erase x })
      |> bump Reg.FUN_ATS_INV v |> emit .tlp [256 + v, 3, itag] []) } := by
  have hnone : x.2.2.any (fun t => s.dev.eng.reads.any (fun r => r.tag == t)) = false := by
    simpa only [List.any_eq_false, List.any_eq_true, beq_iff_eq, not_exists, not_and] using hgone
  refine onEng_eq ?_
  simp only [hinv, hnone, Bool.false_eq_true, if_false]

/-- Settles O16: a Translation Completion acts as `translated_permits` says; a page response and a timeout act on the accesses and ring
entries whose Page Request is out; an invalidation completes once its reads are gone. -/
theorem translationsServed : Obligations.TranslationsServed := by
  refine ⟨?_, fun s v pasid page ws hws => ⟨?_, fun rs hrs => ⟨?_, ?_⟩⟩, fun s v itag pasid page pages => onEng_eq rfl, ?_⟩
  · exact fun s v pasid page to_ r w ws rs hperm hws hrs hwaits => onEng_eq (translated_permits hperm hws hrs hwaits)
  · exact execPrgResponse_success hws
  · exact execPrgResponse_failure hws hrs
  · exact onEng_eq (prgFailed_faults hws hrs)
  · exact fun s v itag x hinv hgone => execAtsInvalidateComplete_retired hinv hgone

end Sys2Proof.Machine
end

section
/-!
PROOFS. The jobs of the check-value unit (R534 to R537, R540).
-/

namespace Sys2Proof.Machine

section
variable {j n : Nat} {data : List Byte} {d : Dev}

theorem jobRuns_running (hj : j < 16) (hstate : rdI Reg.CHK_STATE 0 j d = 1) : jobRuns j d = true := by
  unfold jobRuns
  rw [decide_eq_true hj, hstate]
  rfl

/-- A scan that completes read every byte: package memory gives them all, and the host gave at least as many. -/
theorem scanned_complete (hread : rdI Reg.CHK_SRC 0 j d = 1 ∨ jobLen j d ≤ data.length) (n : Nat) : scanned j 0 n data d = jobLen j d := by
  unfold scanned
  dsimp only
  rw [if_pos rfl]
  split
  · rfl
  · next hhost => exact Nat.min_eq_left (hread.resolve_left hhost)

variable (hrun : jobRuns j d = true)
include hrun

theorem chkAbort_running (hmode : rdI Reg.CHK_ALV_MODE 0 j d ≠ 2) :
    chkAbort j n data d = (d |> jobScan j (scanned j 3 n data d) data |> chkEnd j 4 3) := by
  unfold chkAbort
  rw [if_pos hrun, bne_iff_ne.mpr hmode, onlyIf_true]

variable (hon : domOn 59 d = true)
include hon

section
variable (hall : scanned j 0 n data d = jobLen j d) (hmode : rdI Reg.CHK_ALV_MODE 0 j d ≠ 2)
include hall hmode

/-- A job whose last byte was read comes to its scan, which ends where the first uncorrectable word lies (R524, R536). -/
theorem jobEnds_complete : jobEnds j 0 n data d =
    (scanReach j d).elim (d |> jobScan j (jobLen j d) data |> chkEnd j 2 0) (fun m => d |> jobScan j m data |> chkEnd j 3 2) := by
  have hends : ¬ (jobRuns j d = false ∨ 3 ≤ 0 ∨ domOn 59 d = false) := by simp [hrun, hon]
  have hscans : ¬ (rdI Reg.CHK_ALV_MODE 0 j d = 2 ∨ scanned j 0 n data d ≠ jobLen j d) := by simp [hmode, hall]
  unfold jobEnds
  rw [if_neg hends, if_pos rfl, if_neg hscans]
  cases scanReach j d <;> rfl

theorem jobEnds_whole (hreach : scanReach j d = none) :
    jobEnds j 0 n data d = (d |> jobScan j (jobLen j d) data |> chkEnd j 2 0) := by
  rw [jobEnds_complete hrun hon hall hmode, hreach, Option.elim_none]

theorem jobEnds_uncorrectable {m : Nat} (hreach : scanReach j d = some m) :
    jobEnds j 0 n data d = (d |> jobScan j m data |> chkEnd j 3 2) := by
  rw [jobEnds_complete hrun hon hall hmode, hreach, Option.elim_some]

end

section
variable (hall : scanned j 0 0 data d = jobLen j d) (hmode : rdI Reg.CHK_ALV_MODE 0 j d = 2)
include hall hmode

theorem watchRead_whole {bs : List Byte} (hbs : jobData j (jobLen j d) data d = bs) (hreach : scanReach j d = none) :
    watchRead j data d = (d |> aliveCompare j (aliveAt j bs d) |> putResult j bs) := by
  unfold watchRead
  rw [if_pos ⟨hrun, hmode, hon, hall⟩, hbs, hreach]
  rfl

theorem watchRead_uncorrectable {m : Nat} (hreach : scanReach j d = some m) : watchRead j data d = chkEnd j 3 2 d := by
  unfold watchRead
  rw [if_pos ⟨hrun, hmode, hon, hall⟩, hreach]
  rfl

end

end

section
variable {j : Nat} {s : State} (hj : j < 16) (hserved : served 0x06 0 (0x200 + 0x40 * j) s.dev)
include hj hserved

theorem execChkGo_good (hgood : goBad j s.dev = false) : execChkGo j s = .next { s with dev := allSettled s.dev (jobStart j s.dev) } := by
  refine onAll_eq ?_
  rw [decide_eq_true hj, onlyIf_true, trigger_served hserved]
  unfold chkGo
  rw [hgood, if_neg Bool.false_ne_true]

theorem execChkAbort_running (hstate : rdI Reg.CHK_STATE 0 j s.dev = 1) (hmode : rdI Reg.CHK_ALV_MODE 0 j s.dev ≠ 2) (n : Nat)
    (data : List Byte) : execChkAbort j n data s =
      .next { s with dev := allSettled s.dev (s.dev |> jobScan j (scanned j 3 n data s.dev) data |> chkEnd j 4 3) } := by
  refine onAll_eq ?_
  rw [decide_eq_true hj, onlyIf_true, trigger_served hserved]
  exact chkAbort_running (jobRuns_running hj hstate) hmode

end

/-- Settles O20: GO and ABORT come to their page's bits, and a job that read its last byte, or its record again, to the scan, by whether an
uncorrectable word stands in its range. -/
theorem checkJobsRun : Obligations.CheckJobsRun := by
  refine ⟨fun s j hj hserved => ⟨?_, fun n data hstate hmode => ?_⟩, fun s j data hj hstate hon hread => ?_⟩
  · exact execChkGo_good hj hserved
  · exact execChkAbort_running hj hserved hstate hmode n data
  · have hrun := jobRuns_running hj hstate
    refine ⟨fun n hmode => ⟨fun hreach => ?_, fun m hreach => ?_⟩, fun bs hmode hbs => ⟨fun hreach => ?_, fun m hreach => ?_⟩⟩
    · exact onAll_eq (jobEnds_whole hrun hon (scanned_complete hread n) hmode hreach)
    · exact onAll_eq (jobEnds_uncorrectable hrun hon (scanned_complete hread n) hmode hreach)
    · exact onAll_eq (watchRead_whole hrun hon (scanned_complete hread 0) hmode hbs hreach)
    · exact onAll_eq (watchRead_uncorrectable hrun hon (scanned_complete hread 0) hmode hreach)

end Sys2Proof.Machine
end

section
/-!
PROOFS. Feeds, switchovers and eFuses (R475 to R479, R495), supply (R481 to R486), temperature and VIO (R550, R556, R562).
-/

namespace Sys2Proof.Machine

/-! ## Feeds (R475 to R477) -/

/-- A command of a feed, which is one of two, answers what its effect comes to. -/
theorem onDev_feed {w : Nat} {f : Dev → Dev} {s : State} {e : Dev} (hw : w < 2) (h : f s.dev = e) :
    onDev (onlyIf (decide (w < 2)) f) s = .next { s with dev := e } := by
  rw [decide_eq_true hw]
  exact onDev_eq h

/-- The other path's other path. -/
theorem otherPath_other {w : Nat} (hw : w < 2) : 1 - (1 - w) = w := by omega

section
variable {w : Nat} {d : Dev}

/-- The first feed to become present ends no hold-up, where none is. -/
theorem feedPresent_first (hnone : noFeed d = true) (hhold : d.fd.holdSince = none) :
    feedPresent w true d = updFd (fun f => if w = 0 then { f with presentA := true } else { f with presentB := true }) d := by
  unfold feedPresent
  simp only [hnone, hhold, Bool.not_true, Bool.and_false, Bool.false_and, onlyIf_false]

theorem feedGood_standsBy (hwait : waiting w d = false) (hpresent : present w d = true) (hgood : good w d = false) (hpath : noPath d = false)
    (hopen : closed w d = false) :
    feedGood w d = if d.fd.low then d |> wr (fGood w) 0 1 |> switchTo w else d |> wr (fGood w) 0 1 |> wr (fState w) 0 3 := by
  unfold feedGood
  simp only [hwait, hpresent, hgood, hpath, hopen, Bool.not_true, Bool.or_self, Bool.false_eq_true, if_false]

theorem execFeedNotGood_standby {s : State} (hw : w < 2) (hopen : closed w s.dev = false) (hstate : rd (fState w) 0 s.dev = 3) :
    execFeedNotGood w s = .next { s with dev := s.dev |> wr (fGood w) 0 0 |> wr (fState w) 0 0 } := by
  have hstops : (decide (w < 2) && !closed w s.dev) = true := by
    rw [decide_eq_true hw, hopen]
    rfl
  refine onDev_eq ?_
  rw [hstops, onlyIf_true, hstate, beq_self_eq_true, onlyIf_true]

variable {s : State} (hactive : rd Reg.PWR_FEED_ACTIVE 0 s.dev = 1 - w) (hgood : good w s.dev = true)
include hactive hgood

theorem execFeedBelowSwLevel_switches (hw : w < 2) : execFeedBelowSwLevel s =
    .next { s with dev := s.dev |> wr (fGood (1 - w)) 0 0 |> updFd (fun f => { f with low := true }) |> switchTo w } := by
  have hone : 1 - w < 2 := by omega
  refine onDev_eq ?_
  dsimp only
  rw [hactive, if_pos hone, otherPath_other hw, hgood, onlyIf_true]

theorem switchNow_switches (hw : w < 2) : switchNow s.dev = switchTo w s.dev := by
  have hone : 1 - w < 2 := by omega
  unfold switchNow
  simp only [hactive, otherPath_other hw, hgood, hone, and_self, if_true]

theorem execFeedSwitchBack_switches (hpri : rd Reg.PWR_PRI_FEED 0 s.dev = w) (hen : rd Reg.PWR_RETURN_EN 0 s.dev = 1) :
    execFeedSwitchBack s = .next { s with dev := switchTo w s.dev } := by
  refine onDev_eq ?_
  simp only [hpri, hen, hactive, hgood, beq_self_eq_true, Bool.and_self, onlyIf_true]

end

/-! ## eFuses (R478, R479) -/

section
variable {w : Nat} {d : Dev}

theorem execEfuseTrip_closed {cause : Nat} {s : State} (hw : w < 2) (hmin : 1 ≤ cause) (hmax : cause ≤ 5) (hclosed : closed w s.dev = true)
    (peak : Nat) : execEfuseTrip w cause peak s = .next { s with dev := (s.dev
      |> emit .path [w, 0] [] |> wr (fState w) 0 4 |> wr (fGood w) 0 0
      |> onlyIf (rd Reg.PWR_FEED_ACTIVE 0 s.dev == w) (wr Reg.PWR_FEED_ACTIVE 0 2)
      |> wr Reg.PWR_LAST_CAUSE 0 cause |> wr Reg.PWR_LAST_FEED 0 w |> bump (fTrips w) 0
      |> updFd (fun f => if w = 0 then { f with tripA := s.dev.th.localNs } else { f with tripB := s.dev.th.localNs })
      |> setAttempt w none |> setFails w (if attemptFails w s.dev then fails w s.dev + 1 else 0)
      |> raiseDet Ev.FEED_TRIP 0 (BitVec.ofNat 32 (cause + 256 * w + 65536 * min peak 65535)) 0) } := by
  refine onDev_eq ?_
  rw [decide_eq_true ⟨hw, hmin, hmax⟩, onlyIf_true]
  unfold efuseTrip
  exact if_neg (by rw [hclosed]; decide)

theorem pathOpen_retries (hstate : rd (fState w) 0 d = 4) (hpath : noPath d = false)
    (hfew : rd Reg.PWR_RETRY_MAX 0 d = 0 ∨ fails w d < rd Reg.PWR_RETRY_MAX 0 d) :
    pathOpen w d = (d |> wr (fState w) 0 5 |> wr (fLeft w) 0 (rd Reg.PWR_RETRY_PERIOD_MS 0 d)) := by
  have hlock : decide (0 < rd Reg.PWR_RETRY_MAX 0 d ∧ rd Reg.PWR_RETRY_MAX 0 d ≤ fails w d) = false := decide_eq_false (by omega)
  unfold pathOpen
  dsimp only
  rw [if_neg (not_not_intro hstate), hlock, hpath]
  rfl

section
variable (hwait : rd (fState w) 0 d = 5)
include hwait

theorem execRetryPeriodExpire_waiting {s : State} (hs : s.dev = d) (hw : w < 2) :
    execRetryPeriodExpire w s = .next { s with dev := wr (fLeft w) 0 0 d } := by
  subst hs
  refine onDev_eq ?_
  rw [decide_eq_true hw, hwait]
  rfl

theorem tripClr_waiting : tripClr w d = (d |> wr (fState w) 0 0 |> wr (fLeft w) 0 0 |> setAttempt w none |> setFails w 0) :=
  if_pos (.inl hwait)

/-- An attempt with no path closed closes its path; the rails in service, that is a switchover. -/
theorem retryAttempt_closes (hleft : rd (fLeft w) 0 d = 0) (hpresent : present w d = true) (hpath : noPath d = true) (hrails : d.fd.rails = true) :
    retryAttempt w d =
      (d |> setAttempt w (some none) |> closePath w |> bump Reg.PWR_SWITCHES 0 |> raise Ev.FEED_SWITCHED 0) := by
  have hmay : ¬ (rd (fState w) 0 d ≠ 5 ∨ rd (fLeft w) 0 d ≠ 0 ∨ present w d = false) := by simp [hwait, hleft, hpresent]
  unfold retryAttempt
  dsimp only
  rw [if_neg hmay, if_pos hpath, hrails, onlyIf_true]

end

theorem inrushDone_charging (hinrush : rd (fState w) 0 d = 1) : inrushDone w d = if (attempt w d).isSome
    then d |> wr (fState w) 0 2 |> setAttempt w none |> setFails w 0 |> raise Ev.FEED_RESTORED 0 else wr (fState w) 0 2 d :=
  if_neg (not_not_intro hinrush)

end

/-- Settles O23: each change of a feed or path comes to the branch of its rule that the paths' states name. -/
theorem feedsAndFusesAct : Obligations.FeedsAndFusesAct := by
  intro s w hw
  refine ⟨?_, ?_, ?_, fun hactive hgood => ⟨?_, fun hserved => ?_, ?_⟩, fun cause peak hmin hmax hclosed => ?_, ?_,
    fun hwait => ⟨?_, fun hserved => ?_, ?_⟩, ?_⟩
  · exact fun hnone hhold => onDev_feed hw (feedPresent_first hnone hhold)
  · exact fun hwait hpresent hgood hpath hopen => onDev_feed hw (feedGood_standsBy hwait hpresent hgood hpath hopen)
  · exact execFeedNotGood_standby hw
  · exact execFeedBelowSwLevel_switches hactive hgood hw
  · exact onDev_eq ((trigger_served hserved ..).trans (switchNow_switches hactive hgood hw))
  · exact execFeedSwitchBack_switches hactive hgood
  · exact execEfuseTrip_closed hw hmin hmax hclosed peak
  · exact fun hstate hpath hfew => onDev_feed hw (pathOpen_retries hstate hpath hfew)
  · exact execRetryPeriodExpire_waiting hwait rfl hw
  · exact onDev_feed hw ((trigger_served hserved ..).trans (tripClr_waiting hwait))
  · exact fun hleft hpresent hpath hrails => onDev_feed hw (retryAttempt_closes hwait hleft hpresent hpath hrails)
  · exact fun hinrush => onDev_feed hw (inrushDone_charging hinrush)

/-! ## Dips and loss of supply (R481 to R486) -/

section
variable {d : Dev}

/-- A first dip escalates nothing. -/
theorem dipBegin_first (hdip : d.fd.dip = none) (hfirst : d.fd.dipStarts = []) : dipBegin d = (d
    |> throttling (fun f => { f with dip := some d.th.localNs, dipStarts := [d.th.localNs], throttleDip := true })
    |> onlyIf (!d.fd.throttleDip) (holdTaps true) |> wr Reg.PWR_THROTTLE 0 1 |> bump Reg.PWR_DIPS 0) := by
  unfold dipBegin
  rw [hdip, hfirst]
  rfl

theorem dipEnd_dipping {t us minMv : Nat} (hdip : d.fd.dip = some t) (hus : us = (d.th.localNs - t) / 1000) : dipEnd minMv d = (d
    |> updFd (fun f => { f with dip := none }) |> wrFit Reg.PWR_DIP_MIN_MV 0 minMv |> wr Reg.PWR_DIP_US 0 (min us 65535)
    |> raiseDet Ev.SUPPLY_WARN 0 (BitVec.ofNat 32 (minMv % 65536 + 65536 * (us % 65536))) (BitVec.ofNat 32 (us / 65536 % 65536))) := by
  rw [hus]
  unfold dipEnd
  rw [hdip]

theorem lossOfSupply_on (hrails : d.fd.rails = true) (hpg : rd Reg.PWR_PG 0 d = 1) :
    lossOfSupply d = (d |> emit .pin [8, 0, 0] [] |> wr Reg.PWR_PG 0 0
      |> forEach [0, 1] (fun w d => onlyIf (closed w d) (fun d => d |> openPath w 0 |> wr (fGood w) 0 0) d)
      |> updFd (fun f => { f with rails := false, lost := true, dip := none, throttleDip := false })
      |> wr Reg.PWR_THROTTLE 0 0 |> dropTransitions |> stopSequence
      |> forEach (List.range 64) (fun n d => d |> clearPend n |> wrI Reg.PWR_STATE 0 n 2 |> wrI Reg.PWR_TARGET 0 n 0)
      |> wr Reg.DEV_STATE 0 0) := by
  unfold lossOfSupply
  rw [hrails, hpg, Bool.not_true, if_neg Bool.false_ne_true, beq_self_eq_true, onlyIf_true]

end

section
variable {s : State}

theorem execThrottleEnd_throttled (hdip : s.dev.fd.dip = none) (hthrottle : s.dev.fd.throttleDip = true) : execThrottleEnd s =
    .next { s with dev := s.dev |> throttling (fun f => { f with throttleDip := false }) |> wr Reg.PWR_THROTTLE 0 0 |> holdTaps false } := by
  refine onDev_eq ?_
  rw [hdip, hthrottle]
  rfl

theorem execAonPowerLoss_holdUp (hhold : s.dev.fd.holdSince.isSome = true) (hrails : s.dev.fd.rails = false) :
    execAonPowerLoss s = .next { s with dev := updFd (fun f => { f with aon := false, holdSince := none }) s.dev } := by
  refine onDev_eq ?_
  rw [hhold, hrails]
  rfl

theorem execPlinkMeasurementReport_linked (hlink : rd Reg.PWR_PLINK_FAILED 0 s.dev = 0) (hrails : s.dev.fd.rails = true)
    (va vb ia ib vbank pin mj : Nat) : execPlinkMeasurementReport va vb ia ib vbank pin mj s =
      .next { s with dev := (s.dev |> wrFit Reg.PWR_VIN_A_MV 0 va |> wrFit Reg.PWR_VIN_B_MV 0 vb
        |> wrFit Reg.PWR_IIN_A 0 ia |> wrFit Reg.PWR_IIN_B 0 ib |> wrFit Reg.PWR_VBANK_MV 0 vbank |> wrFit Reg.PWR_P_IN 0 pin
        |> wr2 Reg.PWR_ENERGY_MJ_LO Reg.PWR_ENERGY_MJ_HI 0 0
            ((rd2 Reg.PWR_ENERGY_MJ_LO Reg.PWR_ENERGY_MJ_HI 0 0 s.dev + mj) % 2 ^ 64)) } := by
  refine onDev_eq ?_
  rw [hlink, hrails, beq_self_eq_true, Bool.and_self, onlyIf_true]

end

/-! ## Temperature and VIO (R550, R556, R562) -/

section
variable {d : Dev}

/-- Below 100 degrees a sample that is not the first starts no throttle, and the peak is the higher of the readings. -/
theorem thermalSample_cool {temps : List Int} {hot : Int} (hlen : temps.length = 10) (hrails : d.fd.rails = true) (hhot : hottest temps = hot)
    (hcool : hot < 1000) (hsampled : d.sens.sampled = true) :
    thermalSample temps d = ({ d with sens := { d.sens with temps := temps, sampled := true } } |> wr Reg.DEV_TJ_HOT 0 (ofSigned 16 hot)
      |> wr Reg.DEV_TJ_PEAK 0 (ofSigned 16 (max (toSigned 16 (rd Reg.DEV_TJ_PEAK 0 d)) hot)) |> countThrottle
      |> (fun d => wr Reg.DEV_THERM_STATE 0 (thermState hot d) d)) := by
  have hruns : ¬ (temps.length ≠ 10 ∨ d.fd.rails = false) := by simp [hlen, hrails]
  have hthrottle : decide (1000 ≤ hot) = false := decide_eq_false (by omega)
  have hfault : decide (1100 ≤ hot) = false := decide_eq_false (by omega)
  unfold thermalSample
  dsimp only
  rw [if_neg hruns, hhot, hthrottle, hfault, hsampled, onlyIf_false, onlyIf_false]
  rfl

theorem throttleOver_cooled (hthrottle : d.fd.throttleHot = true) (hcool : ∀ t ∈ d.sens.temps, t < 950) :
    throttleOver d = (d |> countThrottle |> throttling (fun f => { f with throttleHot := false })
      |> (fun d => wr Reg.DEV_THERM_STATE 0 (thermState (hottest d.sens.temps) d) d)) :=
  if_pos ⟨hthrottle, by simpa only [List.all_eq_true, decide_eq_true_eq] using hcool⟩

variable {mv : Nat} (haon : d.fd.aon = true)
include haon

/-- A crossing of 700 mV is sensed and shown by the pin. -/
theorem vioChange_crosses {good : Bool} (hgood : vioGood d = !good) (hmv : decide (700 ≤ mv) = good) :
    vioChange mv d = ({ d with sens := { d.sens with vio := mv } } |> emit .pin [9, 0, bnat good] []) := by
  unfold vioChange
  dsimp only
  rw [hmv, hgood, if_pos ⟨haon, .inr (by cases good <;> decide)⟩]
  cases good <;> rfl

theorem vioChange_rises (hsame : vioGood d = decide (700 ≤ mv)) (hrise : d.sens.vio < 10 * (mv - d.sens.vio)) :
    vioChange mv d = { d with sens := { d.sens with vio := mv } } := by
  have hup : d.sens.vio ≤ mv := by omega
  unfold vioChange
  dsimp only
  rw [if_pos hup, if_pos ⟨haon, .inl hrise⟩, hsame, bne_self_eq_false, onlyIf_false]

end

/-- Settles O24: each supply, thermal and VIO command comes to the branch that the feeds' and the sensors' state names. -/
theorem supplyAndHeatAct : Obligations.SupplyAndHeatAct := by
  refine ⟨?_, ?_, ?_, ?_, ?_, ?_, ?_, ?_, fun s mv haon => ⟨fun hlow hmv => ?_, fun hhigh hmv => ?_, fun hsame hrise => ?_⟩⟩
  · exact fun s hdip hfirst => onDev_eq (dipBegin_first hdip hfirst)
  · exact fun s t us minMv hdip hus => onDev_eq (dipEnd_dipping hdip hus)
  · exact fun s hdip hthrottle => execThrottleEnd_throttled hdip hthrottle
  · exact fun s hrails hpg => onDev_eq (lossOfSupply_on hrails hpg)
  · exact fun s hhold hrails => execAonPowerLoss_holdUp hhold hrails
  · exact fun s va vb ia ib vbank pin mj hlink hrails => execPlinkMeasurementReport_linked hlink hrails va vb ia ib vbank pin mj
  · exact fun s temps hot hlen hrails hhot hcool hsampled => onDev_eq (thermalSample_cool hlen hrails hhot hcool hsampled)
  · exact fun s hthrottle hcool => onDev_eq (throttleOver_cooled hthrottle hcool)
  · exact onDev_eq (vioChange_crosses (good := true) haon hlow (decide_eq_true hmv))
  · exact onDev_eq (vioChange_crosses (good := false) haon hhigh (decide_eq_false (by omega)))
  · exact onDev_eq (vioChange_rises haon hsame hrise)

end Sys2Proof.Machine
end

section
/-!
PROOFS. Words in error (R522 to R524, R541), device faults and the watchdog (R526, R527), the trouble log (R530, R531, R539) and aging (R532,
R533).
-/

namespace Sys2Proof.Machine

section
variable {s : State}

theorem execPatrolScrub_bad {word : EccSite} {e : Dev} (h : wordBad word s.dev = e) :
    execPatrolScrub word false s = .next { s with dev := allSettled s.dev e } :=
  onAll_eq ((congrFun (if_neg Bool.false_ne_true) _).trans h)

/-- An uncorrectable word of package memory is recorded on its stack and comes to the user of its area. -/
theorem wordBad_package {o m : Nat} {user : Option Nat} {d : Dev} (ho : o < memSize) (hm : m = (o / 256) % 2)
    (hon : domOn (56 + m) d = true) : wordBad (.package o user) d = (d
      |> wr2 Reg.PKM_UNCORR_ADDR_LO Reg.PKM_UNCORR_ADDR_HI m 0 (o / 512 * 256 + o % 256) |> bump Reg.PKM_UNCORR_CNT m
      |> raiseDet Ev.PKM_ECC_UNCORR m (BitVec.ofNat 32 (o % 2 ^ 32)) (BitVec.ofNat 32 (o / 2 ^ 32)) |> areaBad o user) := by
  subst hm
  unfold wordBad
  dsimp only
  rw [hon, onlyIf_true]
  exact if_pos ho

theorem execPatrolScrub_harbour {seg : Nat} (hon : domOn (24 + seg) s.dev = true) (cell pkt : Nat) :
    execPatrolScrub (.harbour seg cell pkt) true s = .next { s with dev := allSettled s.dev (bump Reg.HBR_ECC_CORR seg s.dev) } := by
  refine onAll_eq ((congrFun (if_pos rfl) _).trans ?_)
  unfold wordCorrected
  dsimp only
  rw [hon, onlyIf_true]

theorem execMpWatchdogMiss_restarts (hup : s.dev.boot.bankUp = true) (hruns : s.dev.mg.mpHalted = false) (hfirst : s.dev.mg.mpRestarts = []) :
    execMpWatchdogMiss false s = .next { s with dev := allSettled s.dev ({ s.dev with mg := { s.dev.mg with
        running := [], mpRestarts := [s.dev.th.localNs], remotes := s.dev.mg.remotes.filter (fun r => !r.edurn) } }
      |> bump Reg.LOG_MP_RESTARTS 0 |> raise Ev.MP_RESTART 0
      |> forEach s.dev.mg.running (fun r => edAnswer r.1 r.2.2 r.2.1 stBusy [] 0)) } := by
  have hserves : ¬ (s.dev.boot.bankUp = false ∨ s.dev.mg.mpHalted = true) := by simp [hup, hruns]
  refine onAll_eq ?_
  unfold mpRestart
  dsimp only
  rw [onlyIf_false, if_neg hserves, hfirst, List.filter_nil, List.nil_append, List.length_singleton]
  exact if_neg (by decide)

theorem logCopy_retained {e : LogEntry} {d : Dev} (hfind : d.log.entries.find? (fun e => e.seq == rd Reg.LOG_RD_SEQ 0 d) = some e) :
    logCopy d = (d |> wrBytes Reg.LOG_DATA 8 (entryBytes e) |> wr Reg.LOG_RD_VALID 0 1) := by
  unfold logCopy
  rw [hfind]

theorem execAgingMeasure_measures (ppm : List Nat) (margins : List (Nat × Nat)) : execAgingMeasure ppm margins s =
    .next { s with dev := allSettled s.dev (s.dev
      |> forEach (List.range 20) (fun i => ageMeasure i (ppm.getD i 0 % 2 ^ 32) margins) |> lifeUpdate) } := onAll_eq rfl

end

theorem deviceFault_first {kind : Nat} {d : Dev} (hrails : d.fd.rails = true) (hnone : d.boot.fault = 0) :
    deviceFault kind d = ({ d with boot := { d.boot with fault := kind, running := 0 } }
      |> stopTransmitters |> raiseFault kind |> wr Reg.DEV_STATE 0 8) :=
  if_neg (by simp [hrails, hnone])

/-- Settles O33: each command comes to the branch of its rule that the word's place, or the state of the log or the processor, names. -/
theorem faultsAndLogAct : Obligations.FaultsAndLogAct := by
  refine ⟨?_, ?_, fun s q => execPatrolScrub_bad rfl, ?_, ?_, ?_, ?_, fun s ppm margins => ⟨?_, ?_⟩⟩
  · exact fun s seg cell pkt hon => execPatrolScrub_harbour hon cell pkt
  · exact fun s o m user ho hm hon => execPatrolScrub_bad (wordBad_package ho hm hon)
  · exact fun s clock kind hrails hnone hkind => onDev_eq (hkind ▸ deviceFault_first hrails hnone)
  · exact fun s hup hruns hfirst => execMpWatchdogMiss_restarts hup hruns hfirst
  · exact fun s hserved => onAll_eq (trigger_served hserved ..)
  · exact fun s e hserved hfind => onAll_eq ((trigger_served hserved ..).trans (logCopy_retained hfind))
  · exact execAgingMeasure_measures ppm margins
  · exact onAll_eq rfl

end Sys2Proof.Machine
end

section
/-!
PROOFS. SPDM (R510, R511, R513), MCTP control (R512) and DOE Discovery (R425).
-/

namespace Sys2Proof.Machine

/-! ## SPDM requests (R511, R513) -/

section
variable {ep : Nat} {s : State} {x : Dev} (hx : x = bump Reg.SEC_SPDM_REQ 0 s.dev) (hup : endpointUp ep s.dev = true)
  (hserved : spdmServed s.dev = true)
include hx hup hserved

/-- A request of an endpoint that has negotiated far enough is counted and comes to its answer. -/
theorem onDev_spdmReq {need : Nat} {act : Dev → Dev} {e : Dev} (hneed : need ≤ spdmState ep s.dev) (h : act x = e) :
    onDev (spdmReq ep need act) s = .next { s with dev := e } := by
  refine onDev_eq ?_
  unfold spdmReq
  dsimp only
  rw [if_pos hup, hserved, if_neg (by decide), if_neg (Nat.not_lt.mpr hneed), ← hx, h]

theorem execSpdmOtherRequest_unsupported {code : Nat} (hcode : [0x84, 0xE1, 0xE3, 0x81, 0x82, 0x83, 0xE0].contains code = false) :
    execSpdmOtherRequest ep code s = .next { s with dev := x |> bump Reg.SEC_SPDM_ERR 0 |> spdmSend ep 0x7F 7 0 [] } := by
  unfold execSpdmOtherRequest
  rw [hcode]
  exact onDev_spdmReq hx hup hserved (Nat.zero_le _) rfl

section
variable (halg : 3 ≤ spdmState ep s.dev)
include halg

theorem execSpdmGetCertificate_part {ofs len : Nat} {part : List Byte} (hofs : ofs < (certChain x).length)
    (hpart : part = ((certChain x).drop ofs).take len) : execSpdmGetCertificate ep 0 ofs len s =
      .next { s with dev := spdmSend ep 0x02 0 0 (leBytes 2 part.length ++ leBytes 2 ((certChain x).length - ofs - part.length) ++ part) x } := by
  refine onDev_spdmReq hx hup hserved halg ?_
  rw [hpart]
  exact if_neg (by omega)

theorem execSpdmChallenge_plain (ctx : List Byte) : execSpdmChallenge ep 0 0 ctx s = .next { s with dev := (x
    |> spdmSend ep 0x03 0 1 (Config.sha512 (certChain x) ++ freshNonce x ++ leBytes 2 0 ++ ctx ++ spdmSign (takeFree x))
    |> takeFree |> takeFree) } := by
  refine onDev_spdmReq hx hup hserved halg ((if_neg (not_not_intro rfl)).trans ?_)
  simp only [List.append_nil]

theorem execSpdmChallenge_rom (ctx : List Byte) : execSpdmChallenge ep 0 1 ctx s = .next { s with dev := (x
    |> spdmSend ep 0x03 0 1 (Config.sha512 (certChain x) ++ freshNonce x ++ Config.sha512 (measBlock x 1) ++ leBytes 2 0 ++ ctx
        ++ spdmSign (takeFree x)) |> takeFree |> takeFree) } :=
  onDev_spdmReq hx hup hserved halg (if_neg (not_not_intro rfl))

theorem execSpdmGetMeasurements_block {op : Nat} (hmin : 1 ≤ op) (hmax : op ≤ 7) (ctx : List Byte) :
    execSpdmGetMeasurements ep op false ctx s = .next { s with dev := (x
      |> spdmSend ep 0x60 0 0 (leBytes 1 1 ++ leBytes 3 (measBlock x op).length ++ measBlock x op ++ freshNonce x ++ leBytes 2 0 ++ ctx)
      |> takeFree |> takeFree) } := by
  refine onDev_spdmReq hx hup hserved halg ((if_neg (by omega)).trans ?_)
  dsimp only
  rw [if_neg (by omega), if_neg (by omega), if_neg (by omega), if_neg Bool.false_ne_true, List.flatMap_singleton, List.append_nil]
  rfl

theorem execSpdmGetMeasurements_count (ctx : List Byte) :
    execSpdmGetMeasurements ep 0 true ctx s = .next { s with dev := (x
      |> spdmSend ep 0x60 7 0 (leBytes 1 0 ++ leBytes 3 0 ++ freshNonce x ++ leBytes 2 0 ++ ctx ++ spdmSign (takeFree x))
      |> takeFree |> takeFree) } := by
  refine onDev_spdmReq hx hup hserved halg ((if_neg (by omega)).trans ?_)
  dsimp only
  rw [if_pos rfl, if_pos rfl, if_pos rfl, List.flatMap_nil, List.append_nil]
  rfl

end

end

/-! ## MCTP control and DOE Discovery (R425, R512) -/

section
variable {ep : Nat} {s : State} (hup : mctpUp ep s.dev = true)
include hup

theorem execSetEndpointId_sets {eid : Nat} (hmin : 0 < eid) (hmax : eid < 255) : execSetEndpointId ep 0 eid s =
    .next { s with dev := (s.dev |> updSec (fun x => { x with eids := smPut x.eids ep eid }) |> mctpSend ep 1 0 [0, eid, 0]) } := by
  refine onDev_eq ?_
  rw [if_pos hup, if_neg (by omega)]

theorem execGetEndpointId_assigned {eid : Nat} (heid : smFind s.dev.sec.eids ep = some eid) :
    execGetEndpointId ep s = .next { s with dev := mctpSend ep 2 0 [eid] s.dev } := by
  refine onDev_eq ?_
  rw [hup, onlyIf_true, heid]
  rfl

theorem execGetMctpVersionSupport_control : execGetMctpVersionSupport ep 0 s =
    .next { s with dev := (s.dev |> mctpSend ep 4 0 [0, free 32 s.dev] |> takeFree) } := by
  refine onDev_eq ?_
  rw [if_pos hup, if_pos (.inl rfl)]

theorem execGetMessageTypeSupport_up : execGetMessageTypeSupport ep s = .next { s with dev := mctpSend ep 5 0 [0, 5] s.dev } := by
  refine onDev_eq ?_
  rw [hup, onlyIf_true]

end

/-- The management function answers DOE Discovery once the device is READY. -/
theorem doeServed_management {d : Dev} (h : ready d = true) :
    (ready d && ((256 : Nat) == 256 || (decide ((256 : Nat) < 16) && rd Reg.FUN_PRESENT 256 d == 1))) = true := by
  rw [h]
  rfl

theorem execDoeDiscovery_first {s : State} (h : ready s.dev = true) :
    execDoeDiscovery 256 0 s = .next { s with dev := emit .doe [256, 0x0001, 0, 1] [] s.dev } :=
  onDev_eq (if_pos (doeServed_management h))

theorem execDoeDiscovery_second {s : State} (h : ready s.dev = true) :
    execDoeDiscovery 256 1 s = .next { s with dev := emit .doe [256, 0x0001, 1, 0] [] s.dev } :=
  onDev_eq (if_pos (doeServed_management h))

/-- Settles O48: an SPDM request comes to its answer by `onDev_spdmReq`, each MCTP control and DOE request to the branch of its operands. -/
theorem attestationAnswered : Obligations.AttestationAnswered := by
  refine ⟨fun s ep x hx hup hserved => ⟨?_, fun hver => ?_, fun hcap => ?_, fun halg => ⟨?_, ?_, ?_, ?_, ?_, ?_⟩, ?_⟩,
    fun s ep hup => ⟨?_, ?_, ?_, ?_⟩, fun s h => ⟨?_, ?_⟩⟩
  · exact onDev_spdmReq hx hup hserved (Nat.zero_le _) rfl
  · exact onDev_spdmReq hx hup hserved hver rfl
  · exact onDev_spdmReq hx hup hserved hcap rfl
  · exact onDev_spdmReq hx hup hserved halg rfl
  · exact fun ofs len part hofs hpart => execSpdmGetCertificate_part hx hup hserved halg hofs hpart
  · exact execSpdmChallenge_plain hx hup hserved halg
  · exact execSpdmChallenge_rom hx hup hserved halg
  · exact fun op ctx hmin hmax => execSpdmGetMeasurements_block hx hup hserved halg hmin hmax ctx
  · exact execSpdmGetMeasurements_count hx hup hserved halg
  · exact fun code hcode => execSpdmOtherRequest_unsupported hx hup hserved hcode
  · exact fun eid hmin hmax => execSetEndpointId_sets hup hmin hmax
  · exact fun eid heid => execGetEndpointId_assigned hup heid
  · exact execGetMctpVersionSupport_control hup
  · exact execGetMessageTypeSupport_up hup
  · exact execDoeDiscovery_first h
  · exact execDoeDiscovery_second h

end Sys2Proof.Machine
end

section
/-!
PROOFS. The security engine: staging and activation (R506, R507), the lifecycle commands (R508, R514 to R518).
-/

namespace Sys2Proof.Machine

/-! ## Commands in progress -/

theorem raise_running (e : Ev) (inst : Nat) (d : Dev) : (raise e inst d).mg.running = d.mg.running :=
  ((rise_raiseKeeps ..).trans (logAlarms_raiseKeeps ..)).running

theorem onlyIf_raise_running (c : Bool) (e : Ev) (inst : Nat) (d : Dev) : (onlyIf c (raise e inst) d).mg.running = d.mg.running := by
  cases c with
  | false => rfl
  | true => exact raise_running ..

theorem bump_running (f : Fld) (inst : Nat) (d : Dev) : (bump f inst d).mg.running = d.mg.running :=
  congrArg Mgmt.running ((bump_eff f inst d).same (p := .mg) rfl (.inl rfl))

/-- A command that ends and leaves the commands in progress alone is answered. -/
theorem onDev_edCommand {opc : Nat} {path : Path} {tag : Nat} {p : List Byte} {act : Dev → EdRes} {s : State} {e : Dev} {r : EdRes}
    (h : EdReady opc path tag p s.dev) (he : e = edEntered opc path tag p s.dev) (hact : act e = r) (hdone : r.status ≠ stPending)
    (hkept : r.dev.mg.running = e.mg.running) : onDev (edCommand opc path tag p act) s = .next { s with dev := edAnswered opc path tag r } :=
  onDev_eq (edCommand_answers h (he ▸ hact) hdone (edBusy_of_running he hkept))

theorem stDenied_ne_stPending : stDenied ≠ stPending := by decide

/-- The number of one byte that a payload begins with. -/
theorem numIn_byte_cons {b : Nat} (hb : b < 256) (p : List Byte) : numIn (BitVec.ofNat 8 b :: p) 0 1 = b :=
  (numIn_beBytes_append 1 b p).trans (Nat.mod_eq_of_lt hb)

/-! ## FW_STAGE and FW_ACTIVATE (R506, R507) -/

section
variable {path : Path} {n : Nat} {data : List Byte} {d : Dev} (hon : stacksOn d = true) (hlen : data.length ≤ 1008)
  (hfit : 1008 * n + data.length ≤ 10485760)
include hon hlen hfit

/-- A chunk within its sizes, of the owner or the first of a bank that nobody owns, is written. -/
theorem fwStage_takes (howner : d.sec.owner = some path ∨ (n = 0 ∧ d.sec.owner = none)) : fwStage path (beBytes 4 n ++ data) d =
    edOk [] ((if n = 0 then bankWrite (stageBank d) 0 (List.replicate 64 0) d else d) |> bankWrite (stageBank d) (1008 * n) data
      |> updSec (fun x => { x with
          owner := some path
          stageChunks := if n = 0 then [0] else if x.stageChunks.contains n then x.stageChunks else n :: x.stageChunks })) := by
  have hnum : numIn (beBytes 4 n ++ data) 0 4 = n := (numIn_beBytes_append 4 n data).trans (Nat.mod_eq_of_lt (by omega))
  have hdrop : (beBytes 4 n ++ data).drop 4 = data := List.drop_left' (beBytes_length 4 n)
  unfold fwStage
  dsimp only
  rw [hnum, hdrop, List.length_append, beBytes_length, if_neg (by rw [hon]; decide), if_neg (by omega), if_pos howner]

theorem fwStage_next (hn : n ≠ 0) (howner : d.sec.owner = some path) : fwStage path (beBytes 4 n ++ data) d =
    edOk [] (d |> bankWrite (stageBank d) (1008 * n) data
      |> updSec (fun x => { x with stageChunks := if x.stageChunks.contains n then x.stageChunks else n :: x.stageChunks })) := by
  rw [fwStage_takes hon hlen hfit (.inl howner)]
  simp only [hn, if_false]
  unfold updSec
  rw [← howner]
  rfl

end

theorem fwStage_first {path : Path} {data : List Byte} {d : Dev} (hon : stacksOn d = true) (hlen : data.length ≤ 1008)
    (hfree : d.sec.owner = none) : fwStage path (beBytes 4 0 ++ data) d =
      edOk [] (d |> bankWrite (stageBank d) 0 (List.replicate 64 0) |> bankWrite (stageBank d) 0 data
        |> updSec (fun x => { x with owner := some path, stageChunks := [0] })) :=
  fwStage_takes hon hlen (by omega) (.inr ⟨rfl, hfree⟩)

theorem checkBank_running (b : Nat) (d : Dev) : (checkBank b d).mg.running = d.mg.running :=
  congrArg Mgmt.running ((checkBank_eff b d).same (p := .mg) rfl (.inl rfl))

section
variable {b : Nat} {d d1 : Dev} (hb : b < 2) (hd1 : d1 = checkBank b (if b = stageBank d then updSec (fun x => { x with owner := none }) d else d))
include hd1

theorem running_of_checked : d1.mg.running = d.mg.running := by
  rw [hd1, checkBank_running]
  split <;> rfl

include hb

/-- The bank that FW_ACTIVATE names is checked, and its outcome follows. -/
theorem fwActivate_checks : fwActivate [BitVec.ofNat 8 b] d =
    if bankReason b d = 0 then edOk [] (raise Ev.FW_ACTIVATED 0 { d1 with boot := { d1.boot with pref := b } })
    else edStat stDenied (raise Ev.FW_ACTIVATE_FAIL 0 d1) := by
  have hnum : numIn [BitVec.ofNat 8 b] 0 1 = b := numIn_byte_cons (by omega) []
  have hgood : ¬ (([BitVec.ofNat 8 b] : List Byte).length ≠ 1 ∨ 1 < b) := by
    rw [List.length_singleton]
    omega
  unfold fwActivate
  dsimp only
  rw [hnum, if_neg hgood, ← hd1]

end

/-! ## Lifecycle commands (R508, R514 to R518) -/

theorem lcRecord_running (sub st : Nat) (d : Dev) : (lcRecord sub st d).mg.running = d.mg.running := rfl

theorem lcRefuse_running (sub st : Nat) (d : Dev) : (lcRefuse sub st d).dev.mg.running = d.mg.running :=
  (raise_running Ev.LC_DENIED 0 (lcRecord sub st d)).trans (lcRecord_running ..)

section
variable {d : Dev} (hready : ready d = true) (hruns : d.mg.mpHalted = false)
include hready hruns

theorem lcAt_ready {sub len : Nat} {p : List Byte} (hlen : p.length = len) (act : Dev → EdRes) : lcAt sub len p act d = act d := by
  unfold lcAt
  rw [if_neg (by simp [hready, hruns]), if_neg (not_not_intro hlen)]

theorem lifecycle_state : lifecycle [1] d = lcStateOp d := lcAt_ready hready hruns rfl _

theorem lifecycle_nonce : lifecycle [2] d = lcNonce d := lcAt_ready hready hruns rfl _

theorem lifecycle_rbCommit : lifecycle [4] d = rbCommit d := lcAt_ready hready hruns rfl _

theorem lifecycle_transition {p : List Byte} (hlen : p.length = 97) : lifecycle (3 :: p) d = lcTransition p d :=
  (if_neg (by simp [hready, hruns])).trans (lcAt_ready hready hruns hlen _)

end

theorem lifecycle_transition_early {d : Dev} (hready : ready d = false) (p : List Byte) :
    lifecycle (3 :: p) d = lcRefuse 3 1 (updSec (fun x => { x with nonce := none }) d) := if_pos (.inl hready)

theorem rbCommit_commits {rb key : Nat} {d : Dev} (hmain : rd Reg.DEV_FALLBACK 0 d = 0) (hpref : rd Reg.DEV_BANK 0 d = d.boot.pref)
    (hrb : rb = max d.otp.fwRb (rd Reg.SEC_RUN_RB 0 d)) (hkey : key = max d.otp.keyRb (rd Reg.SEC_RUN_KEY 0 d)) :
    rbCommit d = lcOk 4 (beBytes 1 rb ++ beBytes 1 key) 0 (d |> updOtp (fun o => { o with fwRb := rb, keyRb := key })
      |> onlyIf (decide (d.otp.fwRb < rb ∨ d.otp.keyRb < key)) (raise Ev.RB_ADVANCED 0)) := by
  rw [hrb, hkey]
  unfold rbCommit
  rw [hmain, if_neg (by decide), if_neg (not_not_intro hpref)]

/-- A TRANSITION with its room and its fields in order comes to its authorization: none needed, or a signature that one of the keys verifies. -/
theorem lcTransition_judges {target cur who : Nat} {pub sig n : List Byte} {d : Dev} (hlen : pub.length = 32) (htarget : target < 256)
    (hcur : lcState d = cur) (hauth : lcAuth cur target = some who) (hrec : d.otp.lcRec.length < 15) (howners : d.otp.owners.length < 8)
    (hpub : target ≠ 2 → pub = List.replicate 32 0) (hsig : who = 0 → sig = List.replicate 64 0)
    (hnonce : who ≠ 0 → d.sec.nonce = some n) : lcTransition (BitVec.ofNat 8 target :: (pub ++ sig)) d =
      if who = 0 ∨ ((lcKeys who d).any fun k => Config.ed25519Verify k (lcDigest cur target n pub d) sig) = true
      then lcOk 3 [] 2 (lcWrite cur target pub (updSec (fun x => { x with nonce := none }) d))
      else lcRefuse 3 3 (d |> updSec (fun x => { x with nonce := none }) |> bump Reg.SEC_AUTH_FAIL_CNT 0 |> raise Ev.AUTH_FAIL 0) := by
  have hnum : numIn (BitVec.ofNat 8 target :: (pub ++ sig)) 0 1 = target := numIn_byte_cons htarget _
  have hpubIn : ((BitVec.ofNat 8 target :: (pub ++ sig)).drop 1).take 32 = pub := List.take_left' hlen
  have hsigIn : (BitVec.ofNat 8 target :: (pub ++ sig)).drop 33 = sig := List.drop_left' hlen
  have hfields : ¬ ((target ≠ 2 ∧ pub.any (fun b => b != 0) = true) ∨ (who = 0 ∧ sig.any (fun b => b != 0) = true)) := by
    rintro (⟨hne, hany⟩ | ⟨hwho, hany⟩)
    · rw [hpub hne] at hany
      exact absurd hany (by decide)
    · rw [hsig hwho] at hany
      exact absurd hany (by decide)
  have hroom : ¬ (16 ≤ d.otp.lcRec.length ∨ (d.otp.lcRec.length = 15 ∧ target ≠ 4)) := by omega
  have hslots : ¬ (target = 2 ∧ 8 ≤ d.otp.owners.length) := by omega
  unfold lcTransition
  dsimp only
  rw [hnum, hpubIn, hsigIn, hcur, hauth]
  dsimp only
  rw [if_neg hfields, if_neg hroom, if_neg hslots]
  by_cases hwho : who = 0
  · rw [if_pos hwho, if_pos (.inl hwho)]
  · rw [if_neg hwho, hnonce hwho]
    simp only [hwho, false_or]

/-- Settles O47: a command that its path takes comes to its act (`onDev_edCommand`), a lifecycle command at READY to its sub-command. -/
theorem securityEngineActs : Obligations.SecurityEngineActs := by
  refine ⟨?_, fun s => ⟨?_, ?_⟩, ?_, fun s path tag e => ⟨?_, ?_, ?_, ?_, ?_⟩⟩
  · intro s path tag n data p e hp h he hon hlen hfit
    rw [hp] at h he ⊢
    refine ⟨fun hn hfree => ?_, fun hn howner => ?_⟩
    · rw [hn] at h he ⊢
      exact onDev_edCommand h he (fwStage_first hon hlen hfree) stOk_ne_stPending rfl
    · exact onDev_edCommand h he (fwStage_next hon hlen hfit hn howner) stOk_ne_stPending rfl
  · exact onDev_eq rfl
  · exact onDev_eq rfl
  · intro s path tag b e d1 hb h he hd1
    have hkept := running_of_checked hd1
    refine ⟨fun hgood => ?_, fun hbad => ?_⟩
    · exact onDev_edCommand h he ((fwActivate_checks hb hd1).trans (if_pos hgood)) stOk_ne_stPending ((raise_running ..).trans hkept)
    · exact onDev_edCommand h he ((fwActivate_checks hb hd1).trans (if_neg hbad)) stDenied_ne_stPending ((raise_running ..).trans hkept)
  · exact fun h he hready hruns => onDev_edCommand h he (lifecycle_state hready hruns) stOk_ne_stPending rfl
  · exact fun h he hready hruns => onDev_edCommand h he (lifecycle_nonce hready hruns) stOk_ne_stPending rfl
  · exact fun rb key h he hready hruns hmain hpref hrb hkey => onDev_edCommand h he
      ((lifecycle_rbCommit hready hruns).trans (rbCommit_commits hmain hpref hrb hkey)) stOk_ne_stPending
      ((lcRecord_running ..).trans (onlyIf_raise_running ..))
  · intro target pub sig p cur hp hlen hsigLen htarget hcur h he hready hruns hrec howners hpub
    have hact := lifecycle_transition (p := p) hready hruns (by rw [hp, List.length_cons, List.length_append, hlen, hsigLen])
    rw [hp] at h he hact ⊢
    refine ⟨fun hauth hsig => ?_, fun who n hauth hwho hnonce => ⟨fun hgood => ?_, fun hbad => ?_⟩⟩
    · have hjudged := lcTransition_judges (n := []) hlen htarget hcur hauth hrec howners hpub (fun _ => hsig) (fun h => absurd rfl h)
      exact onDev_edCommand h he (hact.trans (hjudged.trans (if_pos (.inl rfl)))) stOk_ne_stPending rfl
    · have hjudged := lcTransition_judges (sig := sig) hlen htarget hcur hauth hrec howners hpub (fun h => absurd h hwho) (fun _ => hnonce)
      exact onDev_edCommand h he (hact.trans (hjudged.trans (if_pos (.inr hgood)))) stOk_ne_stPending rfl
    · have hjudged := lcTransition_judges (sig := sig) hlen htarget hcur hauth hrec howners hpub (fun h => absurd h hwho) (fun _ => hnonce)
      have hrefused := not_or.mpr ⟨hwho, ne_true_of_eq_false hbad⟩
      exact onDev_edCommand h he (hact.trans (hjudged.trans (if_neg hrefused))) stDenied_ne_stPending
        ((lcRefuse_running ..).trans ((raise_running ..).trans (bump_running ..)))
  · exact fun p h he hready =>
      onDev_edCommand h he (lifecycle_transition_early hready p) stDenied_ne_stPending (lcRefuse_running ..)

end Sys2Proof.Machine
end
